-- ==== Sys2Proof/Word.lean ====
section
/-! DEFINITION. The words the model computes on: register words, bytes and tick numbers. -/

namespace Sys2Proof

/-- One 32-bit register word (R474: T0 is accessed in whole beats of 32 bits). -/
abbrev Word := BitVec 32

/-- One byte of the internal address space (R467: little-endian). -/
abbrev Byte := BitVec 8

/-- A tick number: unsigned 64-bit (R9). -/
abbrev Tick := BitVec 64

end Sys2Proof
end

