-- ==== Sys2Proof/Machine/Types.lean ====
section
/-! DEFINITION. The data carried by commands and by what the device sends out. -/

namespace Sys2Proof.Machine

/-- What a port's receive halves met in one tick (R102, R104): lanes without signal, symbols corrected on each lane, and
uncorrectable codewords. -/
structure LaneFacts where
  port : Fin 16
  noSignal : Fin 4
  corr0 : Nat
  corr1 : Nat
  uncorr : Nat
  deriving DecidableEq, Repr

/-- The Ethernet addresses of a frame and its IEEE 802.1Q tag control word, if it has a tag. -/
structure EthHdr where
  da : BitVec 48
  sa : BitVec 48
  tag : Option (BitVec 16)
  deriving DecidableEq, Repr

/-- What stands before a PTP message in its frame: the headers, the EtherType and the bytes between it and the message, which
are none in Annex E and the IP and UDP headers in Annex C and D (R381). -/
structure PtpEnv where
  eth : EthHdr
  etype : BitVec 16
  before : List Byte
  deriving DecidableEq, Repr

/-- A block of a Byevo lane (R77): its header bit, 1 for a data block, and its 32 content bytes. -/
structure Block where
  data : Bool
  bytes : List Byte
  deriving DecidableEq, Repr

/-- What leaves the device: the parts of its outside behaviour that are not levels of a register or pin. -/
inductive Out where
  /-- An MSI-X message of a vector (R465). -/
  | msix (vector : Nat)
  /-- A MARKER block: port, boundary announced, OFS and period (R79, R86). -/
  | marker (port boundary ofs period : Nat)
  /-- An ALIGN block: port, counter and lanes in service (R80). -/
  | align (port counter lanes : Nat)
  /-- An ECHO_REQ block: port, sequence number, and the lower-numbered lane in service, on which it is timed (R85). -/
  | echoReq (port seq lane : Nat)
  /-- A FEC codeword of a Byevo port: its blocks, and the 10-bit symbols sent on each lane in service, the lower first (R78). -/
  | codeword (port : Nat) (blocks : List Block) (line : List (List Nat))
  /-- An ECHO_RSP block on the mirror link: sequence number and turnaround in UI (R415). -/
  | echoRsp (seq turnaround : Nat)
  /-- A DISCOVER_ACK block: port, result, DELAY_VALID, d and skew (R79). -/
  | discoverAck (port result : Nat) (valid : Bool) (d : Nat) (skew : Int)
  /-- A DMA write into host memory: address and bytes (R289). -/
  | hostWrite (addr : Nat) (data : List Byte)
  /-- A mirror frame: its content bytes (R416). -/
  | mirror (frame : List Byte)
  /-- A frame sent on a supervisory port or uplink: its bytes without FCS (R356). -/
  | frame (port : Nat) (data : List Byte)
  /-- Bytes written into the buffer of descriptor `desc` of host ring `ring` (R339). -/
  | hostBuf (ring desc : Nat) (data : List Byte)
  deriving DecidableEq, Repr

end Sys2Proof.Machine
end

