-- ==== Sys2Proof/Syntax.lean ====
section
/-! DEFINITION. The commands: one constructor per row of the opcode table, with the row's operands. `m` is the master that
makes an access (R472), `cycle` the core cycle of the tick at which a command comes (R377); the docstring gives the row's rule. -/

namespace Sys2Proof

open Machine

/-- A command to the block. -/
inductive Instr where
  /-- TICK_BOUNDARY (R51): At the end of each tick's chosen length, TCK_NOW increases by one, the EFEs sample and apply, and
  the length of the next tick is chosen by steering. -/
  | tickBoundary
  /-- TRIGGER_CUTOFF (R19): At cycle O − 100 the set of TRIG_IN edges, alarm frames and commands counting for the tick is
  closed and the reserve begins. -/
  | triggerCutoff
  /-- COMPUTE_WINDOW_OPEN (R54): At cycle O the upstream frames of the tick are judged received or lost and the compute
  window opens. -/
  | computeWindowOpen (lanes : List LaneFacts) (mirror : Fin 16)
  /-- LOS_EVALUATION (R285): At cycle O + 30 loss of light is evaluated on every usable VOA S0 sample and LOS_SET or
  LOS_CLEAR is reported. -/
  | losEvaluation
  /-- COMPOSE_STATE (R204): At cycle O + 50 the reconfiguration engine composes S(m) for boundary m and fixes the drive A
  codes of the tick's frames. -/
  | composeState (stalls : List (Fin 32 × Nat))
  /-- WINDOW_CLOSE (R62): At cycle C the compute window closes, unfinished updates are handled as overrun and the loop digest
  goes to the redundancy unit. -/
  | windowClose (faults : List (Fin 32)) (corr : List (Fin 32 × Nat))
  /-- ENGINE_RETIRE (R178): An engine retires after three overruns, a run of engine faults or a software request, and its
  fallback or repack comes into force. -/
  | engineRetire (e : Fin 32)
  /-- RINGMASTER_START (R526): Writing TCK_CTRL.START starts a stopped Ringmaster on the grid, taking the views without
  commit at the first start. -/
  | ringmasterStart (m : Fin 8) (cycle : Nat) (alt : Bool)
  /-- RINGMASTER_STOP (R71): Writing TCK_CTRL.STOP asks the Ringmaster to stop after its next boundary, if the stop
  conditions hold. -/
  | ringmasterStop (m : Fin 8) (alt : Bool)
  /-- TCK_COMMIT (R69): A commit request on the TCK page is tested and, if accepted, changes period, phase, slew or ALT_FORCE
  at its commit tick. -/
  | tckCommit (m : Fin 8) (cycle : Nat)
  /-- COMMIT_CANCEL (R477): Writing COMMIT.CANCEL cancels a page's pending commit if done before the cut-off of tick b − 2.
  -/
  | commitCancel (m : Fin 8) (page : BitVec 14) (cycle : Nat)
  /-- MARKER_TX (R86): For each boundary a MARKER block is sent in the first codeword beginning at or after 256 cycles before
  it. -/
  | markerTx (port : Fin 16) (ofs : Nat)
  /-- ALIGN_TX (R80): An ALIGN block is sent as the first block of every 4,096th codeword on a port. -/
  | alignTx (place : Fin 17 × Bool)
  /-- UPSTREAM_FRAME (R101): An upstream frame from an EFE is received and checked, its LOL flags and status recorded and
  absence ended. -/
  | upstreamFrame (port : Fin 16) (fecOk : Bool) (content : List Byte)
  /-- ALIGN_RX (R80): A received ALIGN block sets codeword boundaries and lane skew and contributes to declaring lock. -/
  | alignRx (port : Fin 17) (lane : Fin 4) (inPlace : Bool) (skew : Int)
  /-- ALIGN_MISSING (R80): Three consecutive ALIGN blocks missing from their places declare loss of lock on a lane. -/
  | alignMissing (port : Fin 17) (lane : Fin 4)
  /-- RESERVED_CONTROL_BLOCK (R79): A control block of reserved type is discarded and counted as a code violation. -/
  | reservedControlBlock (got : Fin 16 × List Byte)
  /-- PMD_TRAIN_DONE (R82): Clause 136 training completes on at least one lane and the port proceeds to LOCK, possibly
  degraded. -/
  | pmdTrainDone (port : Fin 17) (lanes : Fin 16)
  /-- DISCOVER (R83): A DISCOVER block from the EFE is checked and answered with DISCOVER_ACK, moving the port to DELAY or
  WAIT. -/
  | discover (port : Fin 16) (id : BitVec 64) (efe proto layout : Byte) (te hold : BitVec 16)
  /-- ECHO_RSP (R85): An ECHO_RSP completes a round-trip measurement; after eight, d is computed and sent in DISCOVER_ACK or
  DELAY_FAIL results. -/
  | echoRsp (port : Fin 17) (seq : BitVec 16) (rtt : Nat)
  /-- TRAIN_TIMEOUT (R82): A training state's time limit expires, the result is recorded and the port enters WAIT. -/
  | trainTimeout (port : Fin 17) (signal : Bool)
  /-- TRAIN_RETRY (R82): The 10 ms WAIT expires and the port starts again from PMD_TRAIN. -/
  | trainRetry (port : Fin 17)
  /-- LANE_RETIRE (R104): A lane whose consecutive fault count reaches the retire threshold retires, degrading the port or
  taking it DOWN, and the change is announced. -/
  | laneRetire (port : Fin 16) (lane : Fin 2)
  /-- LANE_RESTORE (R108): Writing BYV_CTRL.RESTORE trains a retired lane while the other carries frames, announcing its
  return on success. -/
  | laneRestore (m : Fin 8) (port : Fin 16) (lanes : Fin 4)
  /-- RETRAIN (R108): Writing BYV_CTRL.RETRAIN retrains the whole port from PMD_TRAIN, making its EFE absent until RUN. -/
  | retrain (m : Fin 8) (port : Fin 16)
  /-- ECHO (R85): Writing BYV_CTRL.ECHO in RUN measures the delay d again with eight ECHO exchanges. -/
  | echo (m : Fin 8) (port : Fin 16)
  /-- LANE_EN_WRITE (R112): Writing BYV_CTRL.LANE_EN sets which lanes may train; clearing a lane in service retires it. -/
  | laneEnWrite (m : Fin 8) (port : Fin 16) (en : Fin 4)
  /-- LOAD_DESC (R41): Writing FAB_CTRL.LOAD_DESC starts a topology descriptor load from FAB_DESC_SRC. -/
  | loadDesc (m : Fin 8)
  /-- DESC_LOAD_DONE (R41): A descriptor load ends; the checks report the first failure or the descriptor comes into force
  and the safety net is armed. -/
  | descLoadDone (data : List Byte) (busAt : Option Nat)
  /-- LOAD_IMAGE (R196): Writing FAB_CTRL.LOAD_IMAGE starts loading an Mbovik image section by section. -/
  | loadImage (m : Fin 8)
  /-- ABORT_IMAGE (R212): Writing FAB_CTRL.ABORT_IMAGE stops an image load with ABORTED. -/
  | abortImage (m : Fin 8) (data : List Byte) (got : Nat)
  /-- IMAGE_LOAD_DONE (R196): An image load ends, with its result and progress recorded. -/
  | imageLoadDone (data : List Byte) (busAt : Option Nat)
  /-- APPLY_GO (R198): Writing RCE_CTRL.GO submits an apply request that is tested, late-handled and staged for its boundary.
  -/
  | applyGo (m : Fin 8) (cycle : Nat)
  /-- STAGING_DONE (R198): Staging of an apply request's record completes and the entry joins the apply queue. -/
  | stagingDone
  /-- APPLY_CANCEL_ALL (R199): Writing RCE_CTRL.CANCEL_ALL cancels every queued apply whose codes are not yet fixed. -/
  | applyCancelAll (m : Fin 8)
  /-- ARM_SAFETY (R191): Writing RCE_CTRL.ARM_SAFETY stages record 0 again as the safety net. -/
  | armSafety (m : Fin 8)
  /-- SAFE_NOW (R192): Writing RCE_CTRL.SAFE_NOW requests a safety-net application. -/
  | safeNow (m : Fin 8) (cycle : Nat)
  /-- SAFE_EXIT (R193): Writing RCE_CTRL.SAFE_EXIT clears SAFE without changing a cell. -/
  | safeExit (m : Fin 8)
  /-- STATE_STORE_WRITE (R190): A write to the state store takes effect at once unless the record is in use or held. -/
  | stateStoreWrite (m : Fin 8) (off : Fin 33554432) (data : List Byte)
  /-- CONTEXT_ENTRY_WRITE (R243): A write to the connection context table holds a low word or changes an entry as a whole. -/
  | contextEntryWrite (m : Fin 8) (off : Fin 8388608) (data : List Byte)
  /-- PROFILE_SHADOW_WRITE (R152): A write to a profile view is accepted in the shadow view or refused. -/
  | profileShadowWrite (m : Fin 8) (off : Fin 65536) (data : List Byte)
  /-- PLACEMENT_SHADOW_WRITE (R169): A write to the placement shadow view clears CHECKED, or is refused while checking or to
  read-only areas. -/
  | placementShadowWrite (m : Fin 8) (off : Fin 2490368) (data : List Byte)
  /-- LOOP_CONTEXT_WRITE (R158): A write to a loop context is accepted from the mirror agent or loop commands and refused
  otherwise. -/
  | loopContextWrite (m : Fin 8) (off : Fin 1572864) (data : List Byte)
  /-- PROFILE_BANK_SWAP (R155): A PRF commit with SWAP exchanges the profile banks at tick k with bumpless adjustment of
  changed sub-contexts. -/
  | profileBankSwap (m : Fin 8) (cycle : Nat)
  /-- COPY_BACK_DONE (R152): The copy of the new active profile bank into the shadow bank completes. -/
  | copyBackDone
  /-- NOP (R161): A loop command NOP changes no loop. -/
  | nop (m : Fin 8) (arg : BitVec 16) (cycle : Nat)
  /-- SET_STATE (R161): A loop command sets the commanded state of the selected loops at the commit tick. -/
  | setState (m : Fin 8) (arg : BitVec 16) (cycle : Nat)
  /-- FREEZE (R161): A loop command freezes the selected loops. -/
  | freeze (m : Fin 8) (arg : BitVec 16) (cycle : Nat)
  /-- RELEASE (R161): A loop command releases frozen loops to OFF. -/
  | release (m : Fin 8) (arg : BitVec 16) (cycle : Nat)
  /-- SET_PROF_A (R161): A loop command sets PROF_A with bumpless adjustment. -/
  | setProfA (m : Fin 8) (arg : BitVec 16) (cycle : Nat)
  /-- SET_PROF_B (R161): A loop command sets PROF_B of nested loops with bumpless adjustment. -/
  | setProfB (m : Fin 8) (arg : BitVec 16) (cycle : Nat)
  /-- SET_PARK_A (R161): A loop command sets PARK_A. -/
  | setParkA (m : Fin 8) (arg : BitVec 16) (cycle : Nat)
  /-- SET_PARK_B (R161): A loop command sets PARK_B of nested loops. -/
  | setParkB (m : Fin 8) (arg : BitVec 16) (cycle : Nat)
  /-- SET_TARGET (R161): A loop command sets TARGET of MON loops. -/
  | setTarget (m : Fin 8) (arg : BitVec 16) (cycle : Nat)
  /-- CLEAR_FLAGS (R161): A loop command clears SAT_AT_SWAP and SATRUN. -/
  | clearFlags (m : Fin 8) (arg : BitVec 16) (cycle : Nat)
  /-- LOOP_RETIRE (R148): A loop whose consecutive loop faults reach the retire threshold becomes FROZEN and, for a cell,
  writes its retirement code. -/
  | loopRetire (l : Fin 12288)
  /-- PLACEMENT_CHECK (R173): Writing LPL_CTRL.CHECK starts the acceptance check of the shadow placement set. -/
  | placementCheck (m : Fin 8) (auto : Bool)
  /-- PLACEMENT_CHECK_DONE (R175): The placement check completes, reporting the first failure or setting CHECKED. -/
  | placementCheckDone
  /-- LPL_COMMIT (R176): An LPL commit request is tested and puts the checked placement set in force at tick k. -/
  | lplCommit (m : Fin 8) (cycle : Nat)
  /-- REPACK (R180): Writing LPL_CTRL.REPACK starts the repacker on the table in force. -/
  | repack (m : Fin 8) (auto : Bool)
  /-- REPACK_DONE (R180): The repacker completes and the repacked table comes into force at the next window, OK or PARTIAL.
  -/
  | repackDone
  /-- LEN_RETIRE (R178): Writing LEN_CTRL.RETIRE retires the engine at the close of the current window. -/
  | lenRetire (m : Fin 8) (e : Fin 32)
  /-- RSV_SUBMIT (R234): Writing RSV_SUBMIT tests a job slot and queues the job. -/
  | rsvSubmit (m : Fin 8) (slot : Fin 32)
  /-- JOB_SLOT_WRITE (R235): A write to a job slot is accepted only while the slot is free. -/
  | jobSlotWrite (m : Fin 8) (slot : Fin 32) (word : Fin 5) (v : Word)
  /-- JOB_START (R233): The solver starts the oldest waiting job, urgent first, reading its inputs as they stand. -/
  | jobStart
  /-- JOB_RESUME (R233): A suspended normal job resumes once no urgent job waits. -/
  | jobResume
  /-- JOB_END (R232): A job ends, writing its target and report and freeing its slot and holds. -/
  | jobEnd (stage : Fin 3) (cycles cycle : Nat)
  /-- BUDGET_EXHAUSTED (R229): A bounded search that spends RSV_BUDGET ends the job UNROUTABLE. -/
  | budgetExhausted (cycles cycle : Nat)
  /-- JOB_CANCEL (R237): Writing RSV_CTRL.CANCEL cancels the job in SLOT with ABORTED. -/
  | jobCancel (m : Fin 8) (slot : Fin 32) (cycles : Nat)
  /-- JOB_CANCEL_ALL (R237): Writing RSV_CTRL.CANCEL_ALL cancels every job. -/
  | jobCancelAll (m : Fin 8) (cycles : Nat)
  /-- CAROUSEL_CHECK (R247): Writing CRS_CTRL.CHECK starts checking the shadow carousel bank. -/
  | carouselCheck (m : Fin 8)
  /-- CAROUSEL_CHECK_DONE (R247): The carousel check completes, reporting the first failure or setting CHECKED. -/
  | carouselCheckDone
  /-- START (R249): A CRS commit with OP START swaps banks and enters carousel mode at the aligned cycle boundary. -/
  | start (m : Fin 8) (cycle : Nat)
  /-- SWAP (R249): A CRS commit with OP SWAP swaps the carousel banks at the next cycle boundary. -/
  | swap (m : Fin 8) (cycle : Nat)
  /-- STOP (R249): A CRS commit with OP STOP returns the fabric to persistent mode at the next cycle boundary. -/
  | stop (m : Fin 8) (cycle : Nat)
  /-- CAROUSEL_SLOT_CHANGE (R246): When a slot's duration expires the next carousel slot comes into force and its record is
  overlaid. -/
  | carouselSlotChange
  /-- CRS_SHD_DATA_WRITE (R270): Writing CRS_SHD_DATA writes a shadow slot word and advances the index. -/
  | crsShdDataWrite (m : Fin 8) (v : Word)
  /-- CRS_ACT_DATA_READ (R270): Reading CRS_ACT_DATA returns an active slot word and advances the index. -/
  | crsActDataRead (m : Fin 8)
  /-- PROTECTION_CHECK (R255): Writing PRT_CTRL.CHECK starts checking the shadow protection bank. -/
  | protectionCheck (m : Fin 8)
  /-- PROTECTION_CHECK_DONE (R255): The protection check completes, computing overlaps and holding examined records when it
  passes. -/
  | protectionCheckDone
  /-- PRT_COMMIT (R256): A PRT commit request is tested and swaps the protection banks at tick k. -/
  | prtCommit (m : Fin 8) (cycle : Nat)
  /-- PRT_SUB_DATA_WRITE (R272): Writing PRT_SUB_DATA writes a shadow pair word and advances the index. -/
  | prtSubDataWrite (m : Fin 8) (v : Word)
  /-- PRT_SUBA_DATA_READ (R272): Reading PRT_SUBA_DATA returns an active pair word and advances the index. -/
  | prtSubaDataRead (m : Fin 8)
  /-- FORCE (R262): PRT_CMD FORCE sets a case's FORCED flag and acts as an event. -/
  | force (m : Fin 8) (case : Fin 256) (cycle : Nat)
  /-- CLEAR (R262): PRT_CMD CLEAR clears FORCED and acts on the case's run state. -/
  | clear (m : Fin 8) (case : Fin 256) (cycle : Nat)
  /-- WTR_EXPIRY (R257): A case's wait-to-restore timer expires and its reversion becomes due. -/
  | wtrExpiry (case : Fin 256)
  /-- TRIG_IN_EDGE (R265): A TRIG_IN pin changes level, starting its recognition wait. -/
  | trigInEdge (pin : Fin 8) (level : Bool) (cycle : Nat)
  /-- PIN_RECOGNITION (R265): A pin level held for 2 × P cycles is recognised, and an activation is accepted as an event or
  masked as chatter. -/
  | pinRecognition (pin : Fin 8) (cycle : Nat)
  /-- STUCK_DETECT (R267): An input recognised active for more than EVT_STUCK ticks sets STUCK. -/
  | stuckDetect (input : Fin 1032)
  /-- EVT_PIN_EN_WRITE (R264): Writing EVT_PIN_EN makes a cleared pin inactive at once or restarts recognition of a set one.
  -/
  | evtPinEnWrite (m : Fin 8) (v : Word) (cycle : Nat)
  /-- CHATTER_CLEAR (R266): Writing 1 to a CHATTER bit unmasks the input without an event. -/
  | chatterClear (m : Fin 8) (word : Fin 33) (v : Word)
  /-- MEA_WINDOW_END (R278): A measurement window ends and its telemetry records are emitted on each export path. -/
  | meaWindowEnd
  /-- MEA_WIN_WRITE (R278): Writing MEA_WIN ends the current window at the next multiple of the new length. -/
  | meaWinWrite (m : Fin 8) (v : Word)
  /-- MEA_EN_WRITE (R278): Writing MEA_CTRL.EN stops statistics or restarts them at the next window boundary. -/
  | meaEnWrite (m : Fin 8) (v : Word)
  /-- CAL_PASS_START (R291): Writing CAL_CTRL.START starts a calibration pass over the named elements. -/
  | calPassStart (m : Fin 8)
  /-- CAL_MEASUREMENT_DONE (R294): A calibration measurement completes its settle and averaging and the pass moves to its
  next step or result. -/
  | calMeasurementDone
  /-- CAL_ATTEMPT_TIMEOUT (R298): An attempt exceeding CAL_TIMEOUT ticks gives TIMEOUT for each element still in it. -/
  | calAttemptTimeout
  /-- CAL_ABORT (R309): Writing CAL_CTRL.ABORT abandons the pass with ABORTED. -/
  | calAbort (m : Fin 8)
  /-- CAL_STAGE (R301): Writing CAL_CTRL.STAGE reads and checks the chosen MRAM bank into the staged table. -/
  | calStage (m : Fin 8)
  /-- CAL_STAGE_DONE (R301): A calibration stage completes, setting STAGED or giving BAD_BANK. -/
  | calStageDone
  /-- CAL_STORE (R305): Writing CAL_CTRL.STORE writes the results into the other MRAM calibration bank in commit order. -/
  | calStore (m : Fin 8)
  /-- CAL_STORE_DONE (R305): A calibration store completes. -/
  | calStoreDone
  /-- CAL_COMMIT (R302): A CAL commit brings the staged table into force at tick k, deferring live cells. -/
  | calCommit (m : Fin 8) (cycle : Nat)
  /-- SUP_FRAME_RX (R318): A frame received on a supervisory port, uplink or host port passes the forwarding steps and is
  queued, delivered or dropped. -/
  | supFrameRx (port : Fin 67) (frame : Bool × List Byte) (ago : Nat) (rivals : List (Fin 71)) (cycle : Nat)
  /-- PAUSE_FRAME (R314): A received PAUSE frame is consumed and may stop transmission on the port. -/
  | pauseFrame (port : Fin 66) (fcsOk : Bool) (sa : BitVec 48) (quanta : BitVec 16) (cycle : Nat)
  /-- PAUSE_REPEAT (R334): While XOFF is set, a port repeats its PAUSE frame every QUANTA × 256 bit times. -/
  | pauseRepeat (port : Fin 66)
  /-- LEARN (R324): A queued learn request creates, moves, refreshes or conflicts an L2 entry. -/
  | learn (cycle : Nat)
  /-- AGING_PASS (R326): An aging pass starts every FWD_AGE seconds, clearing HIT or deleting learned entries. -/
  | agingPass
  /-- SCRUB (R325): The scrubber visits every slot every 500 ms, clearing stale LTV and checking parity. -/
  | scrub
  /-- CONFLICT_RECORD_EXPIRY (R325): A conflict tracker record 1 s old is freed. -/
  | conflictRecordExpiry (cycle : Nat)
  /-- INSERT (R322): FWD_CMD INSERT adds or replaces a static L2, prefix or host entry. -/
  | insert (m : Fin 8)
  /-- DELETE (R322): FWD_CMD DELETE removes the entry with the key. -/
  | delete (m : Fin 8)
  /-- LOOKUP (R322): FWD_CMD LOOKUP copies the entry with the key into FWD_ENT. -/
  | lookup (m : Fin 8)
  /-- FLUSH_PORT (R322): FWD_CMD FLUSH_PORT deletes the learned entries of one port. -/
  | flushPort (m : Fin 8) (port : Fin 128)
  /-- FLUSH_VID (R322): FWD_CMD FLUSH_VID deletes the learned entries of one VID. -/
  | flushVid (m : Fin 8) (vid : Fin 4096)
  /-- FLUSH_LEARNED (R322): FWD_CMD FLUSH_LEARNED deletes every learned entry. -/
  | flushLearned (m : Fin 8)
  /-- FWD_CMD_DONE (R322): A forwarding table command completes and its result is recorded. -/
  | fwdCmdDone
  /-- FWD_TABLE_DATA_WRITE (R352): Writing the last data word of a stem, next-hop or VLAN entry replaces it as a whole. -/
  | fwdTableDataWrite (m : Fin 8) (table : Fin 3) (v : Word)
  /-- ALLOC (R353): BPM_CMD ALLOC allocates a buffer from pool 2 as owner 70. -/
  | alloc (m : Fin 8)
  /-- FREE (R337): BPM_CMD FREE frees a buffer as owner 70, refused as DOUBLE_FREE or NOT_OWNER where applicable. -/
  | free (m : Fin 8) (handle : Fin 16384)
  /-- BPM_POOL_CFG_WRITE (R353): A write to BPM_POOL_CFG is refused if MIN would exceed MAX or the MIN sum exceed 16,384. -/
  | bpmPoolCfgWrite (m : Fin 8) (pool word : Fin 4) (v : Word)
  /-- PORT_INTERVAL (R315): Each 1 ms interval ends and is judged faulty or not for each enabled port. -/
  | portInterval (cv : List (Fin 66 × Nat))
  /-- PORT_RETIRE (R315): A port whose consecutive faulty intervals reach the retire threshold retires. -/
  | portRetire (port : Fin 66)
  /-- PORT_RESTORE (R315): Writing PORT_CTRL.RESTORE returns a retired port to service. -/
  | portRestore (m : Fin 8) (port : Fin 66)
  /-- LINK_UP (R355): A port's link comes up and its queued frames may be sent. -/
  | linkUp (port : Fin 66) (an : Bool)
  /-- LINK_DOWN (R358): A port's link goes down and its frames wait. -/
  | linkDown (port : Fin 66) (sync : Bool)
  /-- HOST_TX_FRAME (R339): The device fetches a TX descriptor, reads the frame into pool 2 and sends or forwards it, writing
  the completion. -/
  | hostTxFrame (len : BitVec 16) (port prio : Byte) (vid flags : BitVec 16) (data : List Byte) (busOk : Bool) (cycle : Nat)
  /-- RESET_RINGS (R350): Writing HPT_CTRL.RESET_RINGS sets HEAD and TAIL of every ring to 0. -/
  | resetRings (m : Fin 8)
  /-- ALARM_FRAME (R342): A received alarm frame is checked, de-duplicated, matched to alarm inputs and forwarded. -/
  | alarmFrame (port : Fin 66) (eth : EthHdr) (ago : Nat) (payload : List Byte) (cycle : Nat)
  /-- ALARM_CACHE_EXPIRY (R342): A seen-cache record expires 2 s after acceptance. -/
  | alarmCacheExpiry (cycle : Nat)
  /-- ALM_SEND (R345): Writing ALM_SEND originates a SOFT alarm frame. -/
  | almSend (m : Fin 8) (kind : Byte) (code : BitVec 16)
  /-- ALM_IN_CLEAR (R343): Writing ALM_IN_CLEAR makes an alarm input inactive. -/
  | almInClear (m : Fin 8) (word : Fin 2) (v : Word)
  /-- OPEN (R348): A valid management OPEN frame opens a session and is answered with OPEN_ACK. -/
  | openSession (port : Fin 66) (sa : BitVec 48) (tag : Option (BitVec 16)) (ago : Nat) (target key : BitVec 16) (nonce : BitVec 64) (mac : BitVec 256) (cycle : Nat)
  /-- REQUEST (R348): A valid management REQUEST runs its operations as master M2 and is answered with RESPONSE. -/
  | request (port : Fin 66) (sa : BitVec 48) (tag : Option (BitVec 16)) (ago : Nat) (session : Byte) (target key : BitVec 16) (seq : BitVec 32) (ops : List (Word × Word)) (mac : BitVec 256) (cycle : Nat)
  /-- CLOSE (R348): A valid management CLOSE closes the session and is answered with CLOSE_ACK. -/
  | closeSession (port : Fin 66) (sa : BitVec 48) (tag : Option (BitVec 16)) (ago : Nat) (session : Byte) (target key : BitVec 16) (seq : BitVec 32) (mac : BitVec 256) (cycle : Nat)
  /-- MGT_IDLE_EXPIRY (R348): A session closes after MGT_IDLE ms without a valid frame. -/
  | mgtIdleExpiry (cycle : Nat)
  /-- KEY_SLOT_WRITE (R471): Writing the last word of a key slot installs the key and closes its sessions. -/
  | keySlotWrite (m : Fin 8) (slot : Fin 2) (off : Fin 32) (data : List Byte)
  /-- EGRESS_SELECT (R359): When a port's transmitter is free, the scheduler selects the next frame by strict queue, gates,
  shapers and DRR, and transmits it. -/
  | egressSelect (port : Fin 66) (cycle ahead : Nat)
  /-- GATE_ENTRY_CHANGE (R361): A gate list entry begins at its network time and the gate states change. -/
  | gateEntryChange (port : Fin 66) (cycle : Nat)
  /-- GATE_COMMIT (R363): GTE_CMD COMMIT checks the administrative list and schedules its start time. -/
  | gateCommit (m : Fin 8) (cycle : Nat)
  /-- GATE_CANCEL (R363): GTE_CMD CANCEL withdraws a pending gate-list commit before its start. -/
  | gateCancel (m : Fin 8) (cycle : Nat)
  /-- GATE_LIST_START (R363): At start time s the administrative list replaces the operational list. -/
  | gateListStart (port : Fin 66) (cycle : Nat)
  /-- SHAPER_CONFIG_WRITE (R366): A write of a queue's RATE, BURST or MODE changes its credit shaper at the next boundary. -/
  | shaperConfigWrite (m : Fin 8) (reg : Fin 3) (v : Word)
  /-- WHEEL_SLOT (R367): A Ferris wheel slot starts every 8 ticks and each waiting queue's WAIT falls by one. -/
  | wheelSlot
  /-- POL_CFG_WRITE (R368): Writing a bucket's ACTION from 0 or its BURST fills its tokens to the burst. -/
  | polCfgWrite (m : Fin 8) (v : Word)
  /-- PTP_MESSAGE (R385): A recognised PTP message is sent to the host, forwarded with transparent-clock correction, or
  dropped. -/
  | ptpMessage (port : Fin 66) (env : PtpEnv) (ago : Nat) (msg : List Byte) (cycle : Nat)
  /-- FOLLOW_UP (R387): A forwarded Follow_Up matching a Sync entry gains the stored correction. -/
  | followUp (port : Fin 66) (env : PtpEnv) (ago : Nat) (msg : List Byte) (cycle : Nat)
  /-- DELAY_RESP (R387): A forwarded Delay_Resp matching a Delay_Req entry gains the stored correction. -/
  | delayResp (port : Fin 66) (env : PtpEnv) (ago : Nat) (msg : List Byte) (cycle : Nat)
  /-- TC_ENTRY_EXPIRY (R387): A two-step match table entry expires 1 s after it is written. -/
  | tcEntryExpiry (cycle : Nat)
  /-- NTU_RATE_WRITE (R379): Writing the high word of NTU_RATE changes the rate with continuous network time. -/
  | ntuRateWrite (m : Fin 8) (v : Word)
  /-- NTU_OFFSET_WRITE (R379): Writing the top word of NTU_OFFSET replaces the offset. -/
  | ntuOffsetWrite (m : Fin 8) (v : Word)
  /-- NTU_STEP_WRITE (R379): Writing the high word of NTU_STEP adds the step to the offset. -/
  | ntuStepWrite (m : Fin 8) (v : Word)
  /-- LOCK (R389): A LOCK request moves the NTU to LOCKED if a sync has been registered. -/
  | lock (m : Fin 8) (sync : Bool)
  /-- HOLD (R389): A HOLD request moves a LOCKED NTU to HOLDOVER. -/
  | hold (m : Fin 8) (sync : Bool)
  /-- NTU_FREE (R389): A FREE request moves the NTU to FREE. -/
  | ntuFree (m : Fin 8) (sync : Bool)
  /-- SYNC (R390): Writing NTU_CTRL.SYNC registers a sync and restarts the watchdog count. -/
  | sync (m : Fin 8)
  /-- SYNC_WD_INTERVAL (R390): A sync watchdog interval ends, the count falls, and at 0 a LOCKED NTU enters HOLDOVER. -/
  | syncWdInterval
  /-- NODE_WRITE (R392): Writing NTU_NODE sets the node identifier, refusing 16,383. -/
  | nodeWrite (m : Fin 8) (v : Word)
  /-- MPD_WRITE (R395): Writing a port's MPD may set DELAY_STEP and associate the step with a fabric change. -/
  | mpdWrite (m : Fin 8) (port : Fin 66) (v : Word)
  /-- PPS_IN_EDGE (R393): A PPS_IN rising edge captures the network time. -/
  | ppsInEdge (cycle : Nat)
  /-- PPS_OUT_RISE (R394): PPS_OUT rises when network time reaches the next second plus OUT_OFS. -/
  | ppsOutRise (cycle : Nat)
  /-- PPS_OUT_FALL (R394): PPS_OUT falls WIDTH ms after it rose. -/
  | ppsOutFall
  /-- CLAIM_ARM (R406): Writing RED_CLAIM arms or disarms a claim with its mode. -/
  | claimArm (m : Fin 8) (arm solo unsyncedOk : Bool)
  /-- CLAIM_ATTEMPT (R406): An armed claim asserts ILK_OUT and opens a 1 µs confirm window once its conditions hold. -/
  | claimAttempt (cycle : Nat)
  /-- CLAIMED (R408): At the end of the confirm window the claim completes with a new epoch and role change at boundary k, or
  ends with CONFLICT. -/
  | claimed (cycle : Nat)
  /-- ILK_IN_ASSERT (R407): ILK_IN asserts and a seat B device holding the interlock withdraws. -/
  | ilkInAssert
  /-- ILK_IN_DEASSERT (R406): ILK_IN deasserts, starting the 8 µs clear interval. -/
  | ilkInDeassert (cycle : Nat)
  /-- TO_PAIR (R409): Writing RED_CTRL.TO_PAIR makes a solo device active at the next boundary. -/
  | toPair (m : Fin 8)
  /-- INTERLOCK_RELEASE (R410): Writing RED_CTRL.RELEASE drops the interlock at the next boundary. -/
  | interlockRelease (m : Fin 8)
  /-- HEARTBEAT_LOSS (R410): With no heartbeat toggle for 3 × P on the watchdog clock, ILK_OUT drops and the device leaves
  solo or active. -/
  | heartbeatLoss
  /-- HELLO_TX (R417): A HELLO frame is sent on the mirror link every 1 ms. -/
  | helloTx
  /-- HELLO (R401): A received HELLO records the partner's role and seat and detects a seat clash. -/
  | hello (ok : Bool) (frame : List Byte)
  /-- TRIG (R418): A received TRIG frame supplies the partner's external trigger set for the tick. -/
  | trig (ok : Bool) (frame : List Byte)
  /-- DIGEST (R425): A received DIGEST frame is compared with the own digests, may cause divergence or complete a Trapeze
  sync. -/
  | digest (ok : Bool) (frame : List Byte) (cycle : Nat)
  /-- DIGEST_DEADLINE (R425): A partner DIGEST not complete by C + 100 is counted missing. -/
  | digestDeadline
  /-- REQ (R202): A forwarded apply request from the active is staged and queued by a synced standby. -/
  | req (ok : Bool) (frame : List Byte)
  /-- JOURNAL (R429): A received JOURNAL frame's entries are queued or applied in order. -/
  | journal (ok : Bool) (frame : List Byte)
  /-- SNAP (R430): A received SNAP frame's entries are written into the standby's mirrored state. -/
  | snap (ok : Bool) (frame : List Byte)
  /-- CATCH (R428): Writing RED_CTRL.CATCH starts a Trapeze by sending CATCH_REQ. -/
  | catchUp (m : Fin 8)
  /-- CATCH_REQ (R428): The active receives CATCH_REQ and answers CATCH_ACK with j0 or refuses. -/
  | catchReq (ok : Bool) (frame : List Byte)
  /-- CATCH_ACK (R428): The standby receives CATCH_ACK and the Trapeze enters BULK. -/
  | catchAck (ok : Bool) (frame : List Byte)
  /-- TRAPEZE_BULK_DONE (R430): The bulk copy completes and the standby replays its journal and enters LOOPS. -/
  | trapezeBulkDone
  /-- TRAPEZE_CUT_INSTALLED (R430): The tick-state cut is installed and the standby sends READY. -/
  | trapezeCutInstalled
  /-- TRAPEZE_LATE_CONTEXT (R430): A context or cut not arrived before its deadline ends the Trapeze with LATE_CONTEXT. -/
  | trapezeLateContext
  /-- READY (R431): The active receives READY and sends SYNC_AT naming k_s. -/
  | ready (ok : Bool) (frame : List Byte)
  /-- SYNC_AT (R431): The standby receives SYNC_AT and compares digests at k_s. -/
  | syncAt (ok : Bool) (frame : List Byte)
  /-- RESULT (R431): The active receives the standby's Trapeze result. -/
  | result (ok : Bool) (frame : List Byte)
  /-- MIRROR_ABORT (R432): A received ABORT ends the Trapeze with ABORTED. -/
  | mirrorAbort (ok : Bool) (frame : List Byte)
  /-- ABORT_CATCH (R432): Writing RED_CTRL.ABORT_CATCH ends a Trapeze with ABORTED. -/
  | abortCatch (m : Fin 8)
  /-- MIRROR_LINK_DOWN (R415): The mirror link goes down, ending any Trapeze with LINK. -/
  | mirrorLinkDown
  /-- MIRROR_RETRAIN (R434): Writing RED_MIR_CTRL.RETRAIN retrains the whole mirror link. -/
  | mirrorRetrain (m : Fin 8)
  /-- MIRROR_LANE_RESTORE (R415): Writing RED_MIR_CTRL.RESTORE returns a retired mirror lane to service. -/
  | mirrorLaneRestore (m : Fin 8) (lanes : Fin 16)
  /-- MIRROR_LANE_EN_WRITE (R434): Writing RED_MIR_CTRL.LANE_EN sets which mirror lanes may train, retiring cleared lanes in
  service. -/
  | mirrorLaneEnWrite (m : Fin 8) (en : Fin 16)
  /-- UNCORRECTABLE_ECC (R440): An uncorrectable SRAM error is counted and handled according to its region, possibly as a
  severe fault. -/
  | uncorrectableEcc (region : Fin 10) (addr : Word) (x : Nat) (reader : Option (Fin 8))
  /-- LINK_PROBE (R443): Every 1 ms the fault hub probes a summary pair and marks it stuck if it fails to invert. -/
  | linkProbe (page : Fin 192) (inverts : Bool)
  /-- PAIR_EQUAL (R443): A summary pair reading equal for 8 cycles is a broken link. -/
  | pairEqual (page : Fin 192) (equal : Bool)
  /-- W1C_CLEAR (R445): A W1C write clears bits unless their persisting condition holds, setting CAUSE_PERSISTS. -/
  | w1cClear (m : Fin 8) (addr value : Word)
  /-- FLT_FLUSH (R447): Writing FLT_CTRL.FLUSH flushes the history queue to MRAM. -/
  | fltFlush (m : Fin 8) (safetyEn force : Bool)
  /-- FLUSH_DONE (R447): A fault-log flush completes with its commit word written. -/
  | flushDone
  /-- COLD_RESET (R449): GLB_RESET COLD resets everything except MRAM and runs start-up. -/
  | coldReset (m : Fin 8) (key : BitVec 16) (straps : Fin 16) (pll clear : Bool)
  /-- WARM_RESET (R525): GLB_RESET WARM resets all but MRAM and the PLL and runs start-up from step 3. -/
  | warmReset (m : Fin 8) (key : BitVec 16) (clear : Bool)
  /-- MANAGEMENT_RESET (R452): A management reset cancels pending commits, resets the control hierarchy and orphans the data
  path. -/
  | managementReset (m : Fin 8) (key : BitVec 16) (cycle : Nat)
  /-- MGMT_RESET_DONE (R452): A management reset completes, MSTATE becomes orphaned and held accesses complete. -/
  | mgmtResetDone
  /-- RESET_N (R550): RESET_N held low for 1 µs causes a cold reset. -/
  | resetN (ns : Nat) (straps : Fin 16) (pll clear : Bool)
  /-- PCIE_HOT_RESET (R462): A PCIe hot reset causes a management reset. -/
  | pcieHotReset
  /-- FUNCTION_LEVEL_RESET (R462): A Function Level Reset causes a management reset. -/
  | functionLevelReset
  /-- PCIE_LINK_DOWN (R462): PCIe link down causes a management reset. -/
  | pcieLinkDown
  /-- PCIE_PERST (R518): PCIE_PERST_N low holds the PCIe link down until it rises. -/
  | pciePerst (low : Bool)
  /-- SRST (R453): Writing PAGE_CTRL.SRST performs the block soft reset of a page. -/
  | softReset (m : Fin 8) (page : BitVec 14) (v : Word)
  /-- TAKEOVER_OPEN (R455): GLB_TAKEOVER OPEN opens a takeover while orphaned, collecting later commits. -/
  | takeoverOpen (m : Fin 8)
  /-- GO (R456): GLB_TAKEOVER GO tests the takeover and schedules it for tick k. -/
  | takeoverGo (m : Fin 8)
  /-- ADOPT (R458): GLB_TAKEOVER ADOPT copies values in force into the held views and ends the orphaned state. -/
  | takeoverAdopt (m : Fin 8)
  /-- ABANDON (R455): GLB_TAKEOVER ABANDON discards collected commits and closes the takeover. -/
  | takeoverAbandon (m : Fin 8)
  /-- REGISTER_WRITE (R474): A write to a register without a row of its own is checked under the access rules and takes
  effect or is refused. -/
  | registerWrite (m : Fin 8) (addr value : Word) (en : Fin 16) (cycle : Nat)
  /-- LOW_WORD_READ (R474): Reading the low word of a wide register latches its higher words for that master. -/
  | lowWordRead (m : Fin 8) (addr : Word) (cycle : Nat)
  /-- DECODE_ERROR (R483): An access to T7 is logged and answered quietly or with a decode error. -/
  | decodeError (m : Fin 8) (write : Bool) (addr : Word)
  /-- BURST_TRUNCATE (R484): A master's access reset mid-burst completes accepted beats, drops the rest and logs TRUNC. -/
  | burstTruncate (m : Fin 8) (write : Bool) (addr : Word) (data : List Byte)
  /-- INT_FORCE (R465): Writing INT_FORCE sets the same bits of INT_STAT. -/
  | intForce (m : Fin 8) (page : BitVec 14) (value : Word)
  /-- MSIX_MESSAGE (R465): A page's interrupt summary rises and the MSI-X message of its vector is sent or made pending. -/
  | msixMessage
  /-- VECTOR_UNMASK (R465): Unmasking an MSI-X vector sends its pending message. -/
  | vectorUnmask (m : Fin 8) (vec : Fin 64)
  /-- ALERT_RESPONSE (R466): A read of the SMBus Alert Response Address releases SMB_ALERT_N when no enabled summary remains.
  -/
  | alertResponse
  /-- REMAP (R468): Writing GLB_REMAP.REMAP swaps the boot ROM and working SRAM halves, once. -/
  | remap (m : Fin 8) (remap : Bool)
  /-- MRAM_WRITE (R470): A write to MRAM is merged into a 64-bit word and written, or refused outside an acting role. -/
  | mramWrite (m : Fin 8) (off : Fin 33554432) (data : List Byte)
  /-- SMB_ADDR (R485): SMBus command ADDR sets the internal address. -/
  | smbAddr (v : Word) (pec : Fin 3)
  /-- SMB_WRITE (R485): SMBus command WRITE writes to ADDR and advances it. -/
  | smbWrite (v : Word) (pec : Fin 3)
  /-- SMB_READ (R485): SMBus command READ returns status and a word from ADDR and advances it. -/
  | smbRead
  /-- EXTEST (R486): JTAG EXTEST drives boundary scan and squelches Byevo transmitters. -/
  | extest
  /-- IDCODE (R486): JTAG IDCODE selects the identification register. -/
  | idcode
  /-- SAMPLE_PRELOAD (R486): JTAG SAMPLE/PRELOAD samples or preloads the boundary scan register. -/
  | samplePreload
  /-- CLAMP (R486): JTAG CLAMP holds outputs and selects bypass, squelching Byevo transmitters. -/
  | clamp
  /-- HIGHZ (R486): JTAG HIGHZ floats outputs and selects bypass, squelching Byevo transmitters. -/
  | highz
  /-- EXTEST_PULSE (R486): JTAG EXTEST_PULSE runs IEEE 1149.6 pulse test on AC-coupled lanes. -/
  | extestPulse
  /-- EXTEST_TRAIN (R486): JTAG EXTEST_TRAIN runs IEEE 1149.6 train test on AC-coupled lanes. -/
  | extestTrain
  /-- BYPASS (R486): JTAG BYPASS selects the 1-bit bypass register. -/
  | bypass
  /-- MEMACC (R486): JTAG MEMACC with GO makes one 32-bit access as master M1. -/
  | memacc (write go : Bool) (addr data : Word)
  /-- JTAG_TRST (R478): JTAG_TRST_N low or Test-Logic-Reset resets master M1's access. -/
  | jtagTrst
  /-- VIN_INVALID (R494): A supply input becomes invalid and the other is taken if valid. -/
  | vinInvalid (b : Bool) (mv : BitVec 16) (cycle : Nat)
  /-- VIN_VALID (R493): A supply input becomes valid. -/
  | vinValid (b : Bool) (mv : BitVec 16) (cycle : Nat)
  /-- VIN_RETURN (R494): VIN_A valid for PWR_RETURN_DELAY is taken back. -/
  | vinReturn (cycle : Nat)
  /-- TEST_B_WRITE (R494): Writing PWR_CTRL.TEST_B switches to VIN_B or back to VIN_A. -/
  | testBWrite (m : Fin 8) (testB : Bool)
  /-- POWER_ON_RESTART (R496): After an input has been valid for 10 ms the device restarts from power-on. -/
  | powerOnRestart (straps : Fin 16) (pll clear cool : Bool)
  /-- THERMAL_EVALUATION (R499): A sensor sample set is evaluated, averages, thresholds and throttle levels updated. -/
  | thermalEvaluation (samples : List (BitVec 16))
  /-- SENSOR_RETIRE (R500): A sensor whose consecutive implausible samples reach the threshold retires, possibly freezing the
  level. -/
  | sensorRetire (sensor : Fin 16)
  /-- SENSOR_RESTORE (R500): Writing THM_SENS_RESTORE returns a retired sensor to service. -/
  | sensorRestore (m : Fin 8) (mask : BitVec 16)
  /-- ACK (R505): Writing THM_CTRL.ACK acknowledges a freeze. -/
  | thermalAck (m : Fin 8) (floor : Fin 4)
  /-- SW_FLOOR_WRITE (R503): Writing THM_CTRL.SW_FLOOR sets the lowest level in force. -/
  | swFloorWrite (m : Fin 8) (floor : Fin 4)
  /-- THM_SHUT_WRITE (R508): Writing THM_SHUT lowers the digital shutdown threshold, refusing increases. -/
  | thmShutWrite (m : Fin 8) (v : Word)
  /-- THERMAL_SHUTDOWN (R509): An analogue trip held 10 µs or the digital SHUTDOWN state shuts the device down in hardware.
  -/
  | thermalShutdown (analog : Fin 4)
  /-- THERMAL_RESTART (R510): After both analogue sensors read below 125 °C for 1 s with an input valid, the device
  cold-resets. -/
  | thermalRestart (straps : Fin 16) (pll clear : Bool)
  /-- PLL_LOCK_LOSS (R533): The core PLL loses lock; the core clock stops and relock attempts begin. -/
  | pllLockLoss (cycle : Nat)
  /-- PLL_RELOCK (R533): The core PLL relocks and held accesses complete, with the Ringmaster stopped. -/
  | pllRelock (us cycle : Nat)
  /-- REFCLK_LOSS (R533): REFCLK absent for 1 µs is counted. -/
  | refclkLoss
  /-- WDCLK_LOSS (R548): Loss of WDCLK clears WD_OK and drops ILK_OUT at once. -/
  | wdclkLoss
  /-- CLAIMED_FRAME (R412): A CLAIMED frame received from the partner clears LEADER, and a standby-synced device adopts its
  epoch from the boundary k that the frame names. -/
  | claimedFrame (ok : Bool) (frame : List Byte)
  /-- ECHO_REQ (R415): An ECHO_REQ received on the mirror link is answered with ECHO_RSP after the turnaround T_E of 3,200
  UI. -/
  | echoReq (seq : Byte)
  /-- PAUSE_EXPIRY (R314): The pause time of a received PAUSE frame, quanta × 512 bit times, runs out and transmission on the
  port may resume. -/
  | pauseExpiry (port : Fin 66) (cycle : Nat)
  /-- REMOTE_FAULT (R355): A port receives or stops receiving remote fault, changing PORT_STAT.RF and setting INT_STAT bit 3
  when it rises. -/
  | remoteFault (port : Fin 66) (present : Bool)
  /-- PCIE_LINK_CHANGE (R492): The PCIe link trains up or changes its speed or width, updating HIF_STAT and setting HIF
  INT_STAT bit 2. -/
  | pcieLinkChange (speed width : Fin 5) (msixEn maskAll : Bool)
  /-- SOFT_RESET_DONE (R449): A block soft reset completes within 10 µs, SRST_BUSY clears and accesses held to the page
  complete. -/
  | softResetDone (page : BitVec 14)
  /-- WDCLK_RETURN (R548): The watchdog clock runs again and CLK_STAT.WD_OK rises. -/
  | wdclkReturn
  /-- REFCLK_RETURN (R533): REFCLK is present again within ±1,000 ppm of 6.4 ns and CLK_STAT.REF_OK rises. -/
  | refclkReturn
  /-- PLL_UNLOCKED_2MS (R533): A core PLL that has stayed unlocked for 2 ms makes FAULT_P/FAULT_N show a fault for as long as
  it stays unlocked. -/
  | pllUnlocked2ms
  deriving DecidableEq, Repr

end Sys2Proof
end

