-- ==== Sys2Proof/Machine/Bits.lean ====
section
/-! DEFINITION. Bit fields, signed readings, saturation and rounding, shared by every chapter's arithmetic. -/

namespace Sys2Proof.Machine

/-- Bits `lo + len - 1 : lo` of a number. -/
def bits (w lo len : Nat) : Nat := (w >>> lo) % 2 ^ len

/-- Bit `i` of a number. -/
def bitAt (w i : Nat) : Bool := w.testBit i

/-- Replace bits `lo + len - 1 : lo` of a word by the low `len` bits of `v`. -/
def putBits (w : Word) (lo len v : Nat) : Word :=
  BitVec.ofNat 32 (w.toNat - bits w.toNat lo len * 2 ^ lo + v % 2 ^ len * 2 ^ lo)

/-- Field `lo + len - 1 : lo` of a register word (R7). -/
def fld (w : Word) (lo len : Nat) : Nat := bits w.toNat lo len

/-- Bit `i` of a register word. -/
def bitOf (w : Word) (i : Nat) : Bool := w.toNat.testBit i

/-- 0 or 1. -/
def b2n (b : Bool) : Nat := if b then 1 else 0

/-- The two's-complement reading of the low `w` bits of `n`. -/
def sx (w n : Nat) : Int :=
  let m := n % 2 ^ w
  if m < 2 ^ (w - 1) then (m : Int) else (m : Int) - (2 ^ w : Nat)

/-- The low `w` bits of an integer, as a number. -/
def low (w : Nat) (i : Int) : Nat := (i % ((2 ^ w : Nat) : Int)).toNat

/-- Saturation of an integer to the two's-complement range of `w` bits. -/
def satS (w : Nat) (i : Int) : Int :=
  let hi : Int := (2 ^ (w - 1) : Nat)
  if i ≥ hi then hi - 1 else if i < -hi then -hi else i

/-- Clip an integer to `lo ≤ i ≤ hi`. -/
def clip (lo hi i : Int) : Int := if i < lo then lo else if i > hi then hi else i

/-- The absolute value as a number. -/
def mag (i : Int) : Nat := i.natAbs

/-- A counter that saturates at `top` instead of wrapping. -/
def satAdd (top a b : Nat) : Nat := if a + b > top then top else a + b

/-- The population count of the low `n` bits. -/
def popCount (n w : Nat) : Nat := ((List.range n).filter (w.testBit ·)).length

/-- The bit indices set among the low `n` bits, ascending. -/
def setBits (n w : Nat) : List Nat := (List.range n).filter (w.testBit ·)

/-- The tick a request field of `w` bits names: the next tick at or after `now` whose low `w` bits match (R9). -/
def reqTick (now : Tick) (w v : Nat) : Tick :=
  now + BitVec.ofNat 64 ((v + 2 ^ w - now.toNat % 2 ^ w) % 2 ^ w)

/-- The tick a report field of `w` bits names: the matching tick nearest the reference, within
-2^(w-1) .. 2^(w-1)-1 of it (R9). -/
def repTick (ref : Tick) (w v : Nat) : Tick :=
  let d := (v + 2 ^ w - ref.toNat % 2 ^ w) % 2 ^ w
  if d < 2 ^ (w - 1) then ref + BitVec.ofNat 64 d else ref - BitVec.ofNat 64 (2 ^ w - d)

/-- The little-endian number held by a list of bytes. -/
def leNat : List Byte → Nat
  | [] => 0
  | b :: t => b.toNat + 256 * leNat t

/-- The `k` low bytes of a number, little-endian. -/
def toLE (k n : Nat) : List Byte := (List.range k).map fun i => BitVec.ofNat 8 (n / 256 ^ i)

/-- The number whose set bits are the indices listed. -/
def maskOf (l : List Nat) : Nat := l.foldl (fun m i => m ||| (1 <<< i)) 0

/-- Division rounded to the nearest integer, halves upwards; for non-negative numbers. -/
def divRound (a b : Nat) : Nat := (2 * a + b) / (2 * b)

end Sys2Proof.Machine
end

