-- ==== Sys2Proof/Machine/Crc.lean ====
section
/-! DEFINITION. The CRC-32C of R39 and R92, and little-endian records read from lists of bytes. -/

namespace Sys2Proof.Machine

/-- Eight reflected shifts of the Castagnoli polynomial 0x1EDC6F41 (reflected 0x82F63B78). -/
def crc32cShift : Nat → BitVec 32 → BitVec 32
  | 0, c => c
  | n + 1, c => crc32cShift n (if c.toNat % 2 = 1 then (c >>> 1) ^^^ 0x82F63B78#32 else c >>> 1)

/-- One byte into the CRC register. -/
def crc32cByte (c : BitVec 32) (b : Byte) : BitVec 32 := crc32cShift 8 (c ^^^ b.setWidth 32)

/-- CRC-32C: reflected, initial value 0xFFFF_FFFF, final XOR 0xFFFF_FFFF (R39, R92). -/
def crc32c (l : List Byte) : BitVec 32 := (l.foldl crc32cByte 0xFFFFFFFF#32) ^^^ 0xFFFFFFFF#32

/-- The `n` bytes of a list from offset `o`; a list that ends early gives fewer. -/
def sliceB (l : List Byte) (o n : Nat) : List Byte := (l.drop o).take n

/-- The little-endian number at offset `o`, `n` bytes long. -/
def leAt (l : List Byte) (o n : Nat) : Nat := leNat (sliceB l o n)

/-- Pad a list of bytes with zeros to `n` bytes. -/
def padTo (n : Nat) (l : List Byte) : List Byte := l ++ List.replicate (n - l.length) 0

end Sys2Proof.Machine
end

