-- ==== Sys2Proof/Machine/Sparse.lean ====
section
/-! DEFINITION. Sparse tables: keys strictly rising, no entry equal to what an unlisted key reads as,
so that equal tables are equal lists. Memory, the register file and the per-slot arrays are all held so. -/

namespace Sys2Proof.Machine

/-- A sparse table: (key, value) pairs. -/
abbrev Sparse (α : Type) := List (Nat × α)

/-- The value at key `k`; an unlisted key reads as `d`. -/
def Sparse.get {α : Type} (d : α) (k : Nat) : Sparse α → α
  | [] => d
  | (k', v) :: t => if k = k' then v else Sparse.get d k t

/-- Enter `v` at key `k` in its place. -/
def Sparse.insert {α : Type} (k : Nat) (v : α) : Sparse α → Sparse α
  | [] => [(k, v)]
  | (k', v') :: t =>
    if k < k' then (k, v) :: (k', v') :: t
    else if k = k' then (k, v) :: t
    else (k', v') :: Sparse.insert k v t

/-- Write `v` at key `k`; writing what the unlisted key reads as removes the entry. -/
def Sparse.put {α : Type} [DecidableEq α] (d : α) (k : Nat) (v : α) : Sparse α → Sparse α
  | [] => if v = d then [] else [(k, v)]
  | e :: t => if v = d then (e :: t).filter fun e => e.1 != k else Sparse.insert k v (e :: t)

/-- The keys rise strictly from above `lo`, and no entry equals what `d` gives its key. -/
def Sparse.wfFrom {α : Type} [DecidableEq α] (d : Nat → α) : Option Nat → Sparse α → Bool
  | _, [] => true
  | lo, (k, v) :: t =>
    (match lo with | none => true | some l => decide (l < k)) && decide (v ≠ d k) && Sparse.wfFrom d (some k) t

/-- The canonical form of a sparse table with defaults `d`. -/
def Sparse.wf {α : Type} [DecidableEq α] (d : Nat → α) (m : Sparse α) : Bool := Sparse.wfFrom d none m

end Sys2Proof.Machine
end

