-- ==== Sys2Proof/Machine/PartsB.lean ====
section
/-! DEFINITION. The parts of the state: fabric, loops, placement, carousel, protection, measurement and calibration. -/

namespace Sys2Proof.Machine

/-- The element an attached slot serves (R33, R34). -/
inductive Elem where
  | cell (c : Nat)
  | voa (p : Nat)
  /-- MON element `m` of kind 0 sense-only, 1 actuated, 2 temperature. -/
  | mon (m kind : Nat)
  deriving DecidableEq, Repr

/-- The topology descriptor in force (R39, R40). -/
structure Topo where
  log2n : Nat
  extra : Nat
  topoId : Nat
  efeMask : Nat
  /-- The explicit wiring table, link by link; empty for the standard wiring. -/
  wiring : List Nat
  explicitWiring : Bool
  explicitAttach : Bool
  /-- The attached slots in ascending order, with what each serves. -/
  slots : List (Nat × Elem)
  deriving DecidableEq, Repr

/-- The five loop states (R142). -/
inductive LoopState where
  | off | hold | ramp | run | frozen
  deriving DecidableEq, Repr

/-- A sub-context: the variables of one law (R115, R157). -/
structure Sub where
  i : Int := 0
  ePrev : Int := 0
  dPrev : Int := 0
  u : Int := 0
  spRamp : Int := 0
  sat : Bool := false
  satNeg : Bool := false
  outSat : Bool := false
  satAtSwap : Bool := false
  dithClip : Bool := false
  /-- SKIP of an outer context, UNCONN of a VOA. -/
  skip : Bool := false
  rinit : Bool := false
  arrived : Bool := false
  tick : Nat := 0
  deriving DecidableEq, Repr

/-- One tick of a cell's window history (R128 to R130). -/
structure Sample where
  tick : Tick
  /-- S0 and S1 came fresh and plausible, and t0 + t1 reached the light floor. -/
  ok : Bool
  lam : Nat
  /-- The sense mode of the cell's EFE. -/
  alt : Bool
  /-- The cell's composed state at this boundary. -/
  code : Nat
  /-- Drive A applied at this boundary was clipped (R127). -/
  clip : Bool
  deriving DecidableEq, Repr

/-- A loop context (R157) with what the engines keep beside it. -/
structure Loop where
  cmd : LoopState := .hold
  eff : LoopState := .hold
  valid : Bool := false
  profA : Nat := 0
  profB : Nat := 0
  parkA : Nat := 0
  parkB : Nat := 0
  target : Nat := 0
  stateTick : Nat := 0
  lastA : Nat := 0
  lastB : Nat := 0
  satRun : Nat := 0
  fcnt : Nat := 0
  inner : Sub := {}
  bar : Sub := {}
  cross : Sub := {}
  /-- The latest tick in which a hold cause was present. -/
  heldAt : Option Tick := none
  /-- The effective state a hold cause took the loop from, while no command has come since (R143). -/
  prior : Option LoopState := none
  /-- The cell code at the freeze (R47, R48). -/
  stuck : Nat := 0
  /-- Window history of a cell, newest first. -/
  hist : List Sample := []
  /-- Boundaries to come whose drive A of this cell was clipped (R127). -/
  clips : List Tick := []
  /-- SAT_WATCH has been raised in the present run of saturated updates (R164). -/
  watched : Bool := false
  deriving DecidableEq, Repr

/-- The loop engines beyond the PRF and LEN registers. -/
structure PrfSt where
  /-- The VOA targets read for the window of the present tick, by input port (R140, R243). -/
  targets : List (Nat × Nat) := []
  /-- Engines that leave updates of the present window unfinished, with the number each completes (R62). -/
  stalls : List (Nat × Nat) := []
  /-- Loops in RAMP, RUN, OFF, HOLD and FROZEN after the updates of the latest tick (R160). -/
  counts : List Nat := []
  deriving DecidableEq, Repr

/-- Placement beyond the LPL and LEN registers (R169 to R182). -/
structure LplSt where
  /-- The list in force of each engine: its entry words in issue order (R171). -/
  lists : Sparse (List Nat) := []
  /-- Loops that carry the hold cause PLACE; `none`: every loop does. -/
  unplaced : Option (List Nat) := none
  /-- Entries that a PARTIAL repack removed from the table in force (R180). -/
  removed : List Nat := []
  /-- The engine that last held a loop's inner or direct entry. -/
  lastEng : Sparse Nat := []
  /-- The outer entry word last in force for a loop; 0 for none. -/
  lastOuter : Sparse Nat := []
  /-- Consecutive overruns of each engine. -/
  ovr : Sparse Nat := []
  /-- Engines whose retirement by software waits for a window's close, with the tick of that window. -/
  retReq : List (Nat × Tick) := []
  /-- Engine faults reported for the present window. -/
  faultNow : List Nat := []
  /-- The tick of the compute window that closed last. -/
  lastWin : Tick := 0
  /-- Engines in soft reset, which issue nothing in the first window after the one of the tick given; `none`: in the first after a
  start (R453). -/
  quiet : List (Nat × Option Tick) := []
  deriving DecidableEq, Repr

/-- A staged record with its boundary (R199). -/
structure Staged where
  b : Tick
  index : Nat
  gen : Nat
  late : Bool
  cells : Sparse Nat
  deriving DecidableEq, Repr

/-- A request that is staging (R198). -/
structure Staging where
  index : Nat
  a : Tick
  late : Bool
  /-- A request forwarded by the active (R202). -/
  fromActive : Bool
  /-- The apply boundary asked for (R203). -/
  asked : Tick
  /-- LATE_TR: it came after the cut-off of its tick (R197). -/
  lateTr : Bool := false
  deriving DecidableEq, Repr

/-- What the composition for a boundary did (R204, R206). -/
structure Compo where
  b : Tick
  /-- The last step that changed a code: source, record and generation. -/
  src : Option (Nat × Nat × Nat) := none
  switched : Nat := 0
  parked : Nat := 0
  changed : Bool := false
  efes : Nat := 0
  safety : Bool := false
  applied : Bool := false
  deriving DecidableEq, Repr

/-- Fabric states beyond the FAB and RCE registers (R187 to R211). -/
structure RceSt where
  /-- S(n), S(n + 1) and S(n + 2) at tick n; cells not listed are PARK. -/
  s0 : Sparse Nat := []
  s1 : Sparse Nat := []
  s2 : Sparse Nat := []
  composed : Bool := false
  queue : List Staged := []
  staging : Option Staging := none
  armed : Option (Sparse Nat) := none
  /-- GENERATION of the armed record. -/
  armedGen : Nat := 0
  /-- Boundaries at which safety-net applications are requested. -/
  safeAt : List Tick := []
  compos : List Compo := []
  /-- A descriptor load or an image load in progress. -/
  descBusy : Bool := false
  imgBusy : Bool := false
  /-- The context table's held low words: master, entry and word (R243). -/
  ctxHeld : List (Nat × Nat × Word) := []
  /-- EFEs whose cells changed at the boundary of the present tick and that were present there (R207). -/
  lagWatch : Nat := 0
  deriving DecidableEq, Repr

/-- A carousel bank (R245). -/
structure CrsBank where
  count : Nat := 0
  words : Sparse Nat := []
  deriving DecidableEq, Repr

/-- The carousel beyond its registers. -/
structure CrsSt where
  act : CrsBank := {}
  shd : CrsBank := {}
  /-- B: the boundary at which the active bank came into force. -/
  base : Tick := 0
  /-- The pending commit: operation and boundary. -/
  pend : Option (Nat × Tick) := none
  /-- The latest boundary whose slot change has been reported. -/
  slotDone : Option Tick := none
  deriving DecidableEq, Repr

/-- A protection bank (R252). -/
structure PrtBank where
  desc : Sparse Nat := []
  pairs : Sparse Nat := []
  /-- Overlapping pairs of armed cases, the lower number first (R254). -/
  overlaps : List (Nat × Nat) := []
  deriving DecidableEq, Repr

/-- The run state of a protection case (R257). -/
structure CaseRun where
  /-- 0 DISARMED, 1 ARMED, 2 PENDING, 3 ACTIVE, 4 WTR, 5 RESTORING. -/
  state : Nat := 0
  wtrEnd : Tick := 0
  /-- The timer has expired and the reversion is due. -/
  due : Bool := false
  forced : Bool := false
  missed : Bool := false
  trig : Nat := 0
  byForce : Bool := false
  /-- What asked for the firing that is taken or deferred: the index of a trigger; `none` for FORCE. -/
  cause : Option Nat := none
  /-- The boundary at which the case last took effect. -/
  at' : Tick := 0
  /-- Order of its latest firing among all. -/
  order : Nat := 0
  deriving DecidableEq, Repr

/-- A change of effect waiting for its boundary: 0 firing, 1 reversion, 2 missed. -/
structure PrtEff where
  b : Tick
  case : Nat
  kind : Nat
  deriving DecidableEq, Repr

/-- Protection beyond its registers. -/
structure PrtSt where
  act : PrtBank := {}
  shd : PrtBank := {}
  /-- Records held since a passing check (R255). -/
  held : List Nat := []
  runs : Sparse CaseRun := []
  /-- Commands written and not yet in a closed trigger set: case and operation. -/
  cmds : List (Nat × Nat) := []
  /-- Trigger events from the frames and samples of the present tick, by trigger code. -/
  events : List Nat := []
  /-- What was taken in the present tick: case and kind. -/
  taken : List (Nat × Nat) := []
  effs : List PrtEff := []
  order : Nat := 0
  deriving DecidableEq, Repr

/-- A TRIG_IN pin (R264 to R267). -/
structure PinSt where
  level : Bool := false
  /-- Recognised active. -/
  on : Bool := false
  /-- The tick of the latest accepted event. -/
  last : Option Tick := none
  /-- Recognised active since this tick. -/
  since : Option Tick := none
  /-- FRC and period at the latest level change, while recognition waits. -/
  wait : Option (BitVec 96 × Nat) := none
  deriving DecidableEq, Repr

/-- An EFE loss-of-light input (R264 to R267). -/
structure LolSt where
  on : Bool := false
  /-- The flag of the latest received frame, and how many consecutive frames agree with it. -/
  flag : Bool := false
  run : Nat := 0
  last : Option Tick := none
  since : Option Tick := none
  deriving DecidableEq, Repr

/-- The external trigger set of a tick (R19, R20): pin and alarm events and levels, commands, and a safety-net request. -/
structure TrigSet where
  pinEv : Nat := 0
  pinAct : Nat := 0
  almEv : Nat := 0
  almAct : Nat := 0
  cmds : List (Nat × Nat) := []
  safe : Bool := false
  deriving DecidableEq, Repr

/-- Event inputs and outputs. -/
structure EvtSt where
  /-- Pin and alarm events accepted and not yet in a closed trigger set, as masks. -/
  pinEv : Nat := 0
  almEv : Nat := 0
  /-- The closed set of the present tick. -/
  ext : TrigSet := {}
  pins : Sparse PinSt := []
  lols : Sparse LolSt := []
  /-- The trigger set of the present tick is closed (R19). -/
  closed : Bool := false
  /-- Pulses of EVT_OUT in the present tick: bit 2 cycle, 3 slot, 4 protection. -/
  pulse : Nat := 0
  deriving DecidableEq, Repr

/-- Statistics of a channel over a window (R279). -/
structure Stat where
  count : Nat := 0
  min : Nat := 0
  max : Nat := 0
  sum : Nat := 0
  deriving DecidableEq, Repr

/-- Loss of light of an input port (R285). -/
structure LosSt where
  los : Bool := false
  below : Nat := 0
  above : Nat := 0
  sets : Nat := 0
  deriving DecidableEq, Repr

/-- Loop statistics (R282). -/
structure LoopStat where
  errMax : Nat := 0
  outerMax : Nat := 0
  satCnt : Nat := 0
  deriving DecidableEq, Repr

/-- A telemetry export path. -/
structure TelPath where
  seq : Nat := 0
  emitted : Nat := 0
  dropped : Nat := 0
  deriving DecidableEq, Repr

/-- The measurement engine beyond its registers (R276 to R290). -/
structure MeaSt where
  /-- The latest tick whose loss of light has been evaluated (R285). -/
  losAt : Option Tick := none
  /-- Statistics run in the present window. -/
  on : Bool := true
  start : Tick := 0
  /-- The last tick of the present window. -/
  endAt : Tick := 999
  isPartial : Bool := false
  /-- Windows since the CELL and LOOP intervals began. -/
  extN : Nat := 0
  loopN : Nat := 0
  in0 : Sparse Stat := []
  in1 : Sparse Stat := []
  out : Sparse Stat := []
  /-- Monitored pairs of the window, s × 1,024 + q, with the statistics of completed occurrences and of the present one. -/
  pairs : List Nat := []
  slot : Sparse Stat := []
  slotNow : Sparse Stat := []
  los : Sparse LosSt := []
  /-- The carousel slot in force at the latest sampled boundary: that tick, slot, offset within it and duration. -/
  prevSlot : Option (Tick × Nat × Nat × Nat) := none
  cell : Sparse (Nat × Nat) := []
  loop : Sparse LoopStat := []
  hist : Sparse Nat := []
  mon : Sparse (Nat × Nat) := []
  ring : TelPath := {}
  upl : TelPath := {}
  /-- The uplink frame being built: its records, and how many. -/
  frame : List Byte := []
  frameN : Nat := 0
  frameSeq : Nat := 0
  /-- Frames that wait to be handed to the uplink's queue, oldest first: payload and number of records. -/
  waiting : List (List Byte × Nat) := []
  /-- The frames handed over in the latest 64 ticks: tick and bytes (R290). -/
  handed : List (Tick × Nat) := []
  deriving DecidableEq, Repr

/-- A calibration record (R304). -/
structure CalRec where
  status : Nat := 0
  cls : Nat := 0
  ts : Bool := false
  lower : Bool := false
  aBar : Nat := 0
  aCross : Nat := 0
  parkA : Nat := 0
  parkB : Nat := 0
  rk : Nat := 0
  heatP : Nat := 0
  lamBar : Nat := 0
  lamCross : Nat := 0
  tmax : Nat := 0
  ref0 : Nat := 0
  tick : Nat := 0
  attempts : Nat := 0
  deriving DecidableEq, Repr

/-- An element of a calibration pass (R291 to R300). -/
structure CalElem where
  slot : Nat
  elem : Elem
  aStart : Nat
  bStart : Nat
  /-- Its result, once it has one. -/
  res : Option Nat := none
  /-- In the attempt in progress. -/
  active : Bool := true
  /-- To be repeated, and with which result once the limit is exhausted. -/
  again : Option Nat := none
  /-- Its codes have been given back since it was last swept (R293). -/
  back : Bool := false
  tries : Nat := 1
  lower : Bool := false
  /-- The measurement in progress: samples, sums of S0 and S1, and usable samples seen. -/
  n : Nat := 0
  sum0 : Nat := 0
  sum1 : Nat := 0
  seen : Nat := 0
  /-- Heater power from the latest samples. -/
  hp : Int := 0
  /-- Drives the engine supplies now. -/
  a : Nat := 0
  b : Nat := 0
  ref0 : Nat := 0
  /-- The share and the heater power of each heater step, newest first. -/
  heat : List (Nat × Int) := []
  bq : Nat := 0
  heatP : Nat := 0
  /-- Mean taps of each drive A step, newest first. -/
  taps : List (Nat × Nat) := []
  /-- The record for the result buffer, once it has a result. -/
  out : CalRec := {}
  deriving DecidableEq, Repr

/-- A calibration pass. -/
structure CalPass where
  kind : Nat
  elems : List CalElem
  /-- 0 opening reference, 1 heater sweep, 2 drive A sweep, 3 closing reference. -/
  phase : Nat := 0
  step : Nat := 0
  attempt : Nat := 1
  /-- The boundary from which the measurement's codes hold, and the ticks to discard. -/
  m : Tick := 0
  settle : Nat := 0
  begun : Tick := 0
  /-- The VOA S0 sums of the attempt's first usable samples, by input port (R292). -/
  light : Sparse (Nat × Nat) := []
  /-- The composed state when the attempt began. -/
  cells : Sparse Nat := []
  /-- Elements of the pass that no slot is attached to. -/
  missing : Nat := 0
  /-- Slots found paused at the present boundary and at the one before (R299). -/
  paused : List Nat := []
  pausedBefore : List Nat := []
  deriving DecidableEq, Repr

/-- The calibration engine beyond its registers. -/
structure CalSt where
  pass : Option CalPass := none
  /-- The result buffer, the staged table, the values in force, and the values cells wait for (R302). -/
  results : Sparse CalRec := []
  staged : Sparse CalRec := []
  force : Sparse CalRec := []
  wait : List (Nat × CalRec) := []
  /-- Values fixed for a boundary to come. -/
  next : List (Tick × Nat × CalRec) := []
  stagedBank : Option Nat := none
  deriving DecidableEq, Repr

/-- What a solver job read at its start (R216), and what it already knows of its end. -/
structure RsvJob where
  slot : Nat
  urgent : Bool
  topoId : Nat
  topo : Option Topo
  /-- Retirement codes other than 0, by cell, and the absent EFEs as a mask. -/
  ret : Sparse Nat
  absent : Nat
  /-- The requested connections in ascending order of output: output, input, hitless-required. -/
  reqs : List (Nat × Nat × Bool)
  base : Sparse Nat
  /-- A result known without a search, with its list of outputs and reasons. -/
  early : Option (Nat × List (Nat × Nat))
  /-- The retirement map or the absent set has changed since (R236). -/
  stale : Bool := false
  /-- Its pass over the target has begun (R219). -/
  pass : Bool := false
  deriving DecidableEq, Repr

/-- The route solver beyond its registers (R233). -/
structure RsvSt where
  /-- The slots queued, oldest first. -/
  queue : List Nat := []
  run : Option RsvJob := none
  susp : Option RsvJob := none
  deriving DecidableEq, Repr

end Sys2Proof.Machine
end

