-- ==== Sys2Proof/Config.lean ====
section
/-! DEFINITION. The free values: what the spec leaves open and the machine nevertheless takes some value for. None has a
body, so nothing can be proved about what it is. Each is applied to the counter `fresh` of the state, or to operands. -/

namespace Sys2Proof.Config

/-- STEP_NS for a negative MPD difference with a fraction of a ns: R395 states no rounding. -/
opaque mpdStepRound : Int → BitVec 32

/-- SWITCHED, PARKED, ADDED and REMOVED (0 to 3) of the report of a job that ends without a target, or on a set or base that
fails its checks: R232 states them for a base and a target. A fixed function of what the job read and its result (R224). -/
opaque reportCells : Machine.RsvJob → Nat → Nat → Nat

/-- The rearranging search on what a job read, its kind, mode and budget (R222 to R226): whether it fails where it may, the
cells it sets crossed, as a mask, and the outputs it left unresolved, as a mask. The spec names the method and promises the same
result everywhere, and gives no order of its choices. -/
opaque searchFails : Machine.RsvJob → Nat → Nat → Nat → Bool
opaque searchMask : Machine.RsvJob → Nat → Nat → Nat → Nat
opaque unresolved : Machine.RsvJob → Nat → Nat → Nat → Nat

/-- The fixed order in which equally good paths are preferred (R222): the rank of a path, by its cells and states. -/
opaque pathRank : List (Nat × Bool) → Nat

/-- The solver cycles a job had taken when a register write cancelled it (R240): the spec gives no cycle count of a search. -/
opaque solverCycles : Nat → Nat

/-- The share of one tap against another of a sweep step with less light than the floor of R125, where it is not defined. -/
opaque faintShare : Nat → Nat → Nat

/-- The drift against a reference of 0, which CAL_MIN_LIGHT 0 lets through: R295 divides by it. -/
opaque zeroRefDrift : Nat → Nat

/-- Which of several equal things is taken where the spec names none: the buffer an allocation gives (R331), the EMPTY slot an
entry takes (R322, R324), the entry that an LFSR of unstated polynomial picks (R324). -/
opaque pick : Nat → Nat

/-- VID and class of an untagged frame from the host port, which has no PORT_VLAN (R318 step 3, R339). -/
opaque hostVlan : Nat

/-- PWR_VIN and PWR_BUS: voltages and power measured on the board (R512). -/
opaque pwrVin : Nat → BitVec 32
opaque pwrBus : Nat → BitVec 32

/-- The number that the history queue gives a region of R440, by its row of the table: R446 names region codes and gives none. -/
opaque regionCode : Nat → Nat

/-- The contents of the boot ROM, by offset (R468): the spec gives none. -/
opaque bootRom : Nat → BitVec 8

/-- The data field that Capture-DR of MEMACC returns after a write (R486). -/
opaque memaccWrite : Nat → BitVec 32

/-- What Capture-DR loads from the boundary scan register, whose cells the published BSDL lists and the spec does not (R486). -/
opaque boundaryScan : Nat → Nat

/-- The scrambler of a port as a train of codewords begins (R76): the IDLE blocks sent before, and its state at reset, are not given. -/
opaque scramblerState : Nat → BitVec 58

/-- The fresh random SN of a session (R348). -/
opaque sessionNonce : Nat → BitVec 64

end Sys2Proof.Config
end

