-- ==== Sys2Proof/Machine/RegMap.lean ====
section
/-! DEFINITION. The register map: every register word of the page index (R529) with its offset, the bits of each
access code (R10, R536) and its reset value, as the register tables of the chapters give them. Written from the spec. -/

namespace Sys2Proof.Machine

/-- One register, or an array of equal registers, of a page: word `i < n` lies at `off + step * i`.
`rw`, `rws`, `w1c` and `wo` are the bits with that access code; every other bit is RO, LIVE or reserved. -/
structure RegRow where
  off : Nat
  n : Nat
  step : Nat
  rw : Nat
  rws : Nat
  w1c : Nat
  wo : Nat
  reset : List Nat
  deriving DecidableEq, Repr

/-- The block registers of the GLB page (R459, R488). -/
def regsGLB : List RegRow :=
  [
    ⟨0x100, 1, 4, 0, 0, 0, 0, [0x4b460400]⟩ -- GLB_ID
   ,⟨0x104, 1, 4, 0x1, 0, 0, 0, [0]⟩ -- GLB_REMAP
   ,⟨0x108, 1, 4, 0, 0, 0, 0, [0]⟩ -- GLB_STRAP
   ,⟨0x10c, 1, 4, 0, 0, 0, 0, [0]⟩ -- GLB_BOOT
   ,⟨0x110, 1, 4, 0, 0, 0, 0xffff0003, [0]⟩ -- GLB_RESET
   ,⟨0x114, 1, 4, 0, 0, 0, 0, [0x1]⟩ -- GLB_RESET_CAUSE
   ,⟨0x118, 1, 4, 0, 0, 0, 0x7, [0]⟩ -- GLB_TAKEOVER
   ,⟨0x11c, 1, 4, 0xffffffff, 0, 0, 0, [0]⟩ -- GLB_TAKEOVER_TICK
   ,⟨0x120, 1, 4, 0, 0, 0, 0, [0]⟩ -- GLB_TAKEOVER_RES
  ]

/-- The block registers of the PWR page (R512). -/
def regsPWR : List RegRow :=
  [
    ⟨0x100, 1, 4, 0, 0, 0, 0, [0]⟩ -- PWR_STATE
   ,⟨0x104, 1, 4, 0x1, 0, 0, 0, [0]⟩ -- PWR_CTRL
   ,⟨0x108, 1, 4, 0xffff, 0, 0, 0, [0x64]⟩ -- PWR_RETURN_DELAY
   ,⟨0x10c, 1, 4, 0, 0, 0, 0, [0]⟩ -- PWR_VIN
   ,⟨0x110, 1, 4, 0, 0, 0, 0, [0]⟩ -- PWR_BUS
   ,⟨0x114, 1, 4, 0, 0, 0, 0, [0]⟩ -- PWR_CNT
  ]

/-- The block registers of the THM page (R514). -/
def regsTHM : List RegRow :=
  [
    ⟨0x100, 1, 4, 0, 0, 0, 0, [0]⟩ -- THM_LEVEL
   ,⟨0x104, 1, 4, 0x3, 0, 0, 0x10, [0]⟩ -- THM_CTRL
   ,⟨0x108, 1, 4, 0, 0, 0, 0xffff, [0]⟩ -- THM_SENS_RESTORE
   ,⟨0x10c, 1, 4, 0xfff, 0, 0, 0, [0x373]⟩ -- THM_WARN
   ,⟨0x110, 1, 4, 0xfff, 0, 0, 0, [0x382]⟩ -- THM_THROTTLE
   ,⟨0x114, 1, 4, 0xff, 0, 0, 0, [0x1491]⟩ -- THM_SHUT
   ,⟨0x118, 1, 4, 0xffff, 0, 0, 0, [0x3e8]⟩ -- THM_DWELL
   ,⟨0x11c, 1, 4, 0xff, 0, 0, 0, [0x1e]⟩ -- THM_DEV
   ,⟨0x120, 1, 4, 0, 0, 0, 0, [0]⟩ -- THM_STAT
   ,⟨0x124, 1, 4, 0, 0, 0, 0, [0]⟩ -- THM_MAX
   ,⟨0x128, 1, 4, 0, 0, 0, 0, [0]⟩ -- THM_CNT
   ,⟨0x12c, 1, 4, 0, 0, 0, 0, [0]⟩ -- THM_ATRIP
   ,⟨0x140, 16, 4, 0, 0, 0, 0, [0]⟩ -- THM_SENS
   ,⟨0x180, 1, 4, 0, 0, 0xffff, 0, [0]⟩ -- THM_SENS_FLT
  ]

/-- The block registers of the CLK page (R534). -/
def regsCLK : List RegRow :=
  [
    ⟨0x100, 1, 4, 0, 0, 0, 0, [0x7]⟩ -- CLK_STAT
   ,⟨0x104, 1, 4, 0, 0, 0, 0, [0]⟩ -- CLK_CNT
   ,⟨0x108, 1, 4, 0, 0, 0, 0, [0]⟩ -- CLK_RELOCK
  ]

/-- The block registers of the TCK page (R73). -/
def regsTCK : List RegRow :=
  [
    ⟨0x100, 1, 4, 0, 0x4, 0, 0x3, [0]⟩ -- TCK_CTRL
   ,⟨0x104, 1, 4, 0, 0xfff, 0, 0, [0x3e8]⟩ -- TCK_PERIOD
   ,⟨0x108, 1, 4, 0, 0xfff, 0, 0, [0]⟩ -- TCK_PHASE
   ,⟨0x10c, 1, 4, 0, 0x1f, 0, 0, [0x8]⟩ -- TCK_SLEW
   ,⟨0x110, 1, 4, 0, 0, 0, 0, [0x803e8]⟩ -- TCK_PERIOD_ACT
   ,⟨0x114, 1, 4, 0, 0, 0, 0, [0]⟩ -- TCK_PHASE_ACT
   ,⟨0x118, 1, 4, 0, 0, 0, 0, [0]⟩ -- TCK_NOW
   ,⟨0x11c, 1, 4, 0, 0, 0, 0, [0]⟩ -- TCK_NOW_HI
   ,⟨0x120, 1, 4, 0, 0, 0, 0, [0]⟩ -- TCK_PHASE_ERR
   ,⟨0x124, 1, 4, 0, 0, 0, 0, [0]⟩ -- TCK_STAT
   ,⟨0x128, 1, 4, 0, 0, 0, 0, [0]⟩ -- TCK_OVERRUN_CNT
   ,⟨0x12c, 1, 4, 0, 0, 0, 0, [0]⟩ -- TCK_OVR_MASK
   ,⟨0x130, 1, 4, 0, 0, 0, 0, [0]⟩ -- TCK_OVR_TICK
   ,⟨0x134, 1, 4, 0, 0, 0, 0, [0]⟩ -- TCK_OVR_TICK_HI
   ,⟨0x138, 1, 4, 0, 0, 0, 0, [0]⟩ -- TCK_ALT_MASK
   ,⟨0x13c, 1, 4, 0, 0, 0, 0, [0]⟩ -- TCK_CMT_RES
  ]

/-- The block registers of the NTU page (part 1) (R398). -/
def regsNTUa : List RegRow :=
  [
    ⟨0x100, 1, 4, 0, 0, 0, 0x13, [0]⟩ -- NTU_CTRL
   ,⟨0x104, 1, 4, 0, 0, 0, 0, [0]⟩ -- NTU_STAT
   ,⟨0x108, 1, 4, 0x1ffff, 0, 0, 0, [0xfc08]⟩ -- NTU_SYNC_WD
   ,⟨0x10c, 1, 4, 0, 0, 0, 0, [0]⟩ -- NTU_WD_LEFT
   ,⟨0x110, 1, 4, 0xffffffff, 0, 0, 0, [0]⟩ -- NTU_RATE
   ,⟨0x114, 1, 4, 0xff, 0, 0, 0, [0]⟩ -- NTU_RATE_HI
   ,⟨0x118, 3, 4, 0xffffffff, 0, 0, 0, [0]⟩ -- NTU_OFFSET
   ,⟨0x124, 1, 4, 0, 0, 0, 0xffffffff, [0]⟩ -- NTU_STEP
   ,⟨0x128, 1, 4, 0, 0, 0, 0xffffffff, [0]⟩ -- NTU_STEP_HI
   ,⟨0x130, 3, 4, 0, 0, 0, 0, [0]⟩ -- NTU_TIME
   ,⟨0x140, 3, 4, 0, 0, 0, 0, [0]⟩ -- NTU_FRC
   ,⟨0x150, 1, 4, 0x3fff, 0, 0, 0, [0]⟩ -- NTU_NODE
   ,⟨0x154, 1, 4, 0x3ff, 0, 0, 0, [0x300]⟩ -- NTU_PTP_CFG
   ,⟨0x158, 1, 4, 0x7, 0, 0, 0, [0]⟩ -- NTU_TC_CFG
   ,⟨0x15c, 2, 4, 0xffffffff, 0, 0, 0, [0]⟩ -- NTU_SYNC_PORTS, words 0 and 1
   ,⟨0x164, 1, 4, 0x3, 0, 0, 0, [0]⟩ -- NTU_SYNC_PORTS, word 2: ports 64 and 65
   ,⟨0x168, 1, 4, 0xfffff, 0, 0, 0, [0xc8]⟩ -- NTU_PTD_STEP
   ,⟨0x170, 3, 4, 0, 0, 0, 0, [0]⟩ -- NTU_PPS_IN_TS
   ,⟨0x17c, 1, 4, 0x800003ff, 0, 0, 0, [0x64]⟩ -- NTU_PPS_CFG
   ,⟨0x180, 1, 4, 0xffffffff, 0, 0, 0, [0]⟩ -- NTU_PPS_OFS
   ,⟨0x190, 5, 4, 0, 0, 0, 0, [0]⟩ -- NTU_CNT
   ,⟨0x400, 66, 32, 0xffffffff, 0, 0, 0, [0]⟩ -- NTU_PORT_RXADJ
   ,⟨0x404, 66, 32, 0xffffffff, 0, 0, 0, [0]⟩ -- NTU_PORT_TXADJ
   ,⟨0x408, 66, 32, 0xffffffff, 0, 0, 0, [0]⟩ -- NTU_PORT_MPD
   ,⟨0x40c, 66, 32, 0x800007ff, 0, 0, 0, [0]⟩ -- NTU_PORT_FIB
  ]

/-- The block registers of the NTU page (part 2) (R398). -/
def regsNTUb : List RegRow :=
  [
    ⟨0x410, 66, 32, 0, 0, 0x80000000, 0, [0]⟩ -- NTU_PORT_STEP
   ,⟨0x414, 66, 32, 0, 0, 0, 0, [0]⟩ -- NTU_PORT_STEP_TICK
   ,⟨0x418, 66, 32, 0, 0, 0, 0, [0]⟩ -- NTU_PORT_STEP_NS
  ]

/-- The block registers of the NTU page. -/
def regsNTU : List RegRow := regsNTUa ++ regsNTUb

/-- The block registers of the FLT page (R460). -/
def regsFLT : List RegRow :=
  [
    ⟨0x100, 1, 4, 0x5, 0, 0, 0x2, [0x1]⟩ -- FLT_CTRL
   ,⟨0x104, 1, 4, 0, 0, 0x2, 0, [0]⟩ -- FLT_STAT
   ,⟨0x10c, 1, 4, 0, 0, 0, 0, [0]⟩ -- FLT_HIST_PTR
   ,⟨0x110, 1, 4, 0, 0, 0, 0, [0]⟩ -- FLT_SEVERE
   ,⟨0x114, 1, 4, 0, 0, 0, 0, [0]⟩ -- FLT_SEVERE_ADDR
   ,⟨0x118, 1, 4, 0, 0, 0, 0, [0]⟩ -- FLT_ECC
   ,⟨0x11c, 1, 4, 0, 0, 0, 0, [0]⟩ -- FLT_PHIST_INFO
   ,⟨0x120, 6, 4, 0, 0, 0xffffffff, 0, [0]⟩ -- FLT_PEND
   ,⟨0x140, 6, 4, 0, 0, 0xffffffff, 0, [0]⟩ -- FLT_LINK
   ,⟨0x160, 6, 4, 0xffffffff, 0, 0, 0, [0xffffffff]⟩ -- FLT_PIN_EN
   ,⟨0x400, 256, 4, 0, 0, 0, 0, [0]⟩ -- FLT_HIST
   ,⟨0x800, 256, 4, 0, 0, 0, 0, [0]⟩ -- FLT_PHIST
  ]

/-- The block registers of the RED page (R434). -/
def regsRED : List RegRow :=
  [
    ⟨0x100, 1, 4, 0, 0, 0, 0xf, [0]⟩ -- RED_CTRL
   ,⟨0x104, 1, 4, 0x7, 0, 0, 0, [0]⟩ -- RED_CLAIM
   ,⟨0x108, 1, 4, 0, 0, 0, 0, [0xf03]⟩ -- RED_ROLE
   ,⟨0x10c, 1, 4, 0, 0, 0, 0, [0]⟩ -- RED_SEAT
   ,⟨0x110, 1, 4, 0, 0, 0, 0, [0]⟩ -- RED_EPOCH
   ,⟨0x114, 1, 4, 0, 0, 0, 0, [0]⟩ -- RED_STAT
   ,⟨0x118, 1, 4, 0, 0, 0, 0, [0]⟩ -- RED_CLAIM_RES
   ,⟨0x11c, 1, 4, 0, 0, 0, 0, [0]⟩ -- RED_CLAIM_TICK
   ,⟨0x120, 1, 4, 0x1, 0, 0, 0, [0x1]⟩ -- RED_CFG
   ,⟨0x124, 1, 4, 0, 0, 0, 0, [0]⟩ -- RED_TRAP
   ,⟨0x128, 1, 4, 0, 0, 0, 0, [0]⟩ -- RED_SYNC_TICK
   ,⟨0x12c, 1, 4, 0, 0, 0, 0, [0]⟩ -- RED_SYNC_TICK_HI
   ,⟨0x130, 1, 4, 0, 0, 0, 0, [0]⟩ -- RED_DIV
   ,⟨0x134, 1, 4, 0, 0, 0, 0, [0]⟩ -- RED_DIV_TICK
   ,⟨0x138, 1, 4, 0, 0, 0, 0, [0]⟩ -- RED_DIV_TICK_HI
   ,⟨0x13c, 6, 4, 0, 0, 0, 0, [0]⟩ -- RED_DIGEST
   ,⟨0x154, 1, 4, 0, 0, 0, 0, [0]⟩ -- RED_MIR
   ,⟨0x158, 1, 4, 0xf, 0, 0, 0x1f0, [0xf]⟩ -- RED_MIR_CTRL
   ,⟨0x160, 6, 4, 0, 0, 0, 0, [0]⟩ -- RED_CNT
  ]

/-- The block registers of the BMX page (R490). -/
def regsBMX : List RegRow :=
  [
    ⟨0x100, 1, 4, 0x1, 0, 0, 0, [0x1]⟩ -- BMX_QUIET_DECODE
   ,⟨0x110, 8, 4, 0xffffffff, 0, 0, 0, [0x88888888, 0x22222222, 0x88888888, 0xcccccccc, 0x44444444, 0x44444444, 0x66666666, 0xffffffff]⟩ -- BMX_PRIO
   ,⟨0x140, 6, 4, 0xffffffff, 0, 0, 0, [0x7cf, 0, 0, 0, 0, 0]⟩ -- BMX_PROT
   ,⟨0x160, 1, 4, 0, 0, 0, 0, [0]⟩ -- BMX_DEC_ADDR
   ,⟨0x164, 1, 4, 0, 0, 0, 0, [0]⟩ -- BMX_DEC_INFO
  ]

/-- The block registers of the NVM page (R491). -/
def regsNVM : List RegRow :=
  [
    ⟨0x100, 1, 4, 0, 0, 0, 0, [0]⟩ -- NVM_STAT
   ,⟨0x104, 1, 4, 0, 0, 0, 0, [0]⟩ -- NVM_GATED
   ,⟨0x108, 1, 4, 0, 0, 0, 0, [0]⟩ -- NVM_WORDS
   ,⟨0x10c, 1, 4, 0, 0, 0, 0, [0]⟩ -- NVM_UC
  ]

/-- The block registers of the HIF page (R489). -/
def regsHIF : List RegRow :=
  [
    ⟨0x100, 1, 4, 0x1, 0, 0, 0, [0]⟩ -- HIF_CTRL
   ,⟨0x104, 1, 4, 0, 0, 0, 0, [0]⟩ -- HIF_STAT
   ,⟨0x108, 1, 4, 0x1, 0, 0, 0, [0]⟩ -- HIF_SMB
   ,⟨0x140, 48, 4, 0xbfbfbfbf, 0, 0, 0, [0]⟩ -- HIF_VMAP
   ,⟨0x200, 6, 4, 0, 0, 0, 0, [0]⟩ -- HIF_IPEND
   ,⟨0x220, 6, 4, 0xffffffff, 0, 0, 0, [0]⟩ -- HIF_ALERT_EN
   ,⟨0x400, 256, 4, 0xffffffff, 0, 0, 0, (List.range 64).flatMap fun _ => [0, 0, 0, 1]⟩ -- HIF_MSIX
   ,⟨0x800, 2, 4, 0, 0, 0, 0, [0]⟩ -- HIF_PBA
  ]

/-- The block registers of the EVT page (R274, R275). -/
def regsEVT : List RegRow :=
  [
    ⟨0x100, 1, 4, 0xff, 0, 0, 0, [0]⟩ -- EVT_PIN_EN
   ,⟨0x104, 1, 4, 0xff, 0, 0, 0, [0]⟩ -- EVT_PIN_POL
   ,⟨0x108, 1, 4, 0xffffffff, 0, 0, 0, [0x2710]⟩ -- EVT_STUCK
   ,⟨0x10c, 1, 4, 0, 0, 0xffff00, 0, [0]⟩ -- EVT_PIN_STAT
   ,⟨0x110, 1, 4, 0x7f7f7f7f, 0, 0, 0, [0]⟩ -- EVT_OUT_CFG
   ,⟨0x114, 1, 4, 0xf, 0, 0, 0, [0]⟩ -- EVT_OUT_SW
   ,⟨0x118, 1, 4, 0, 0, 0, 0, [0]⟩ -- EVT_PIN_CNT
   ,⟨0x200, 32, 4, 0, 0, 0, 0, [0]⟩ -- EVT_LOL_LEVEL
   ,⟨0x280, 32, 4, 0, 0, 0xffffffff, 0, [0]⟩ -- EVT_LOL_CHATTER
   ,⟨0x300, 32, 4, 0, 0, 0xffffffff, 0, [0]⟩ -- EVT_LOL_STUCK
  ]

/-- The block registers of the BYV page (R112). -/
def regsBYV : List RegRow :=
  [
    ⟨0x100, 1, 4, 0x3, 0, 0, 0x1310, [0x3]⟩ -- BYV_CTRL
   ,⟨0x104, 1, 4, 0, 0, 0, 0, [0]⟩ -- BYV_STAT
   ,⟨0x108, 1, 4, 0, 0, 0, 0, [0]⟩ -- BYV_TRAIN_RES
   ,⟨0x110, 1, 4, 0, 0, 0, 0, [0]⟩ -- BYV_EFE_ID
   ,⟨0x114, 1, 4, 0, 0, 0, 0, [0]⟩ -- BYV_EFE_ID_HI
   ,⟨0x118, 1, 4, 0, 0, 0, 0, [0]⟩ -- BYV_EFE_INFO
   ,⟨0x11c, 1, 4, 0, 0, 0, 0, [0]⟩ -- BYV_DELAY
   ,⟨0x120, 1, 4, 0, 0, 0, 0, [0]⟩ -- BYV_CHANGE
   ,⟨0x124, 1, 4, 0, 0, 0, 0, [0]⟩ -- BYV_CHANGE_TICK
   ,⟨0x128, 1, 4, 0, 0, 0, 0, [0]⟩ -- BYV_FRM_OK
   ,⟨0x12c, 1, 4, 0, 0, 0, 0, [0]⟩ -- BYV_FRM_LOST
   ,⟨0x130, 1, 4, 0, 0, 0, 0, [0]⟩ -- BYV_FEC_CORR0
   ,⟨0x134, 1, 4, 0, 0, 0, 0, [0]⟩ -- BYV_FEC_CORR1
   ,⟨0x138, 1, 4, 0, 0, 0, 0, [0]⟩ -- BYV_FEC_UNCORR
   ,⟨0x13c, 1, 4, 0, 0, 0, 0, [0]⟩ -- BYV_DS_LOST
   ,⟨0x140, 1, 4, 0, 0, 0, 0, [0]⟩ -- BYV_MISMATCH_CNT
   ,⟨0x144, 1, 4, 0, 0, 0, 0, [0]⟩ -- BYV_MISMATCH_TICK
   ,⟨0x148, 1, 4, 0, 0, 0, 0, [0]⟩ -- BYV_MISMATCH_TICK_HI
   ,⟨0x150, 1, 4, 0, 0, 0, 0, [0]⟩ -- BYV_LOL
   ,⟨0x154, 1, 4, 0, 0, 0, 0, [0]⟩ -- BYV_LOL_HI
   ,⟨0x158, 1, 4, 0xff, 0, 0, 0, [0x40]⟩ -- BYV_SER_LIMIT
   ,⟨0x15c, 1, 4, 0, 0, 0, 0, [0]⟩ -- BYV_LANE_FCNT
  ]

/-- The block registers of the LEN page (R163, R185). -/
def regsLEN : List RegRow :=
  [
    ⟨0x100, 1, 4, 0, 0, 0, 0x1, [0]⟩ -- LEN_CTRL
   ,⟨0x104, 1, 4, 0, 0, 0, 0, [0]⟩ -- LEN_STAT
   ,⟨0x108, 1, 4, 0, 0, 0, 0, [0]⟩ -- LEN_LOAD
   ,⟨0x10c, 1, 4, 0, 0, 0, 0, [0]⟩ -- LEN_EFAULT_CNT
   ,⟨0x180, 1, 4, 0, 0, 0, 0, [0]⟩ -- LEN_IMPL_CNT
   ,⟨0x184, 1, 4, 0, 0, 0, 0, [0]⟩ -- LEN_IMPL_SLOT
   ,⟨0x188, 1, 4, 0, 0, 0, 0, [0]⟩ -- LEN_FREEZE_CNT
   ,⟨0x18c, 1, 4, 0, 0, 0, 0, [0]⟩ -- LEN_FREEZE_SLOT
   ,⟨0x190, 1, 4, 0, 0, 0, 0, [0]⟩ -- LEN_SKIP_CNT
   ,⟨0x194, 1, 4, 0, 0, 0, 0, [0]⟩ -- LEN_DCLIP_CNT
   ,⟨0x198, 1, 4, 0, 0, 0, 0, [0]⟩ -- LEN_SATWD_SLOT
  ]

/-- The block registers of the LPL page (R183). -/
def regsLPL : List RegRow :=
  [
    ⟨0x100, 1, 4, 0x2, 0, 0, 0x5, [0x2]⟩ -- LPL_CTRL
   ,⟨0x104, 1, 4, 0, 0x3, 0, 0, [0x3]⟩ -- LPL_GUARANTEE
   ,⟨0x108, 1, 4, 0, 0, 0, 0, [0]⟩ -- LPL_STAT
   ,⟨0x10c, 1, 4, 0, 0, 0, 0, [0]⟩ -- LPL_CHK_RES
   ,⟨0x110, 1, 4, 0, 0, 0, 0, [0]⟩ -- LPL_CHK_ENTRY
   ,⟨0x114, 1, 4, 0, 0, 0, 0, [0]⟩ -- LPL_CMT_RES
   ,⟨0x118, 1, 4, 0, 0, 0, 0, [0]⟩ -- LPL_LOAD
   ,⟨0x11c, 1, 4, 0, 0, 0, 0, [0]⟩ -- LPL_RET_MASK
   ,⟨0x120, 1, 4, 0, 0, 0, 0, [0]⟩ -- LPL_REPACK_RES
   ,⟨0x124, 1, 4, 0, 0, 0, 0, [0]⟩ -- LPL_REPACK_TICK
  ]

/-- The block registers of the PRF page (R159). -/
def regsPRF : List RegRow :=
  [
    ⟨0x100, 1, 4, 0x2, 0x5, 0, 0, [0]⟩ -- PRF_CTRL
   ,⟨0x104, 1, 4, 0, 0, 0, 0, [0]⟩ -- PRF_STAT
   ,⟨0x108, 1, 4, 0, 0xffff000f, 0, 0, [0]⟩ -- PRF_LCMD_OP
   ,⟨0x10c, 1, 4, 0, 0x7fff3fff, 0, 0, [0]⟩ -- PRF_LCMD_RANGE
   ,⟨0x110, 1, 4, 0, 0x1f07, 0, 0, [0x1f07]⟩ -- PRF_LCMD_SEL
   ,⟨0x114, 1, 4, 0, 0, 0, 0, [0]⟩ -- PRF_CMT_RES
   ,⟨0x118, 1, 4, 0, 0, 0, 0, [0]⟩ -- PRF_SWAP_CNT
   ,⟨0x11c, 1, 4, 0, 0, 0, 0, [0]⟩ -- PRF_SWAP_STAT
   ,⟨0x120, 1, 4, 0, 0, 0, 0, [0]⟩ -- PRF_STATE_CNT0
   ,⟨0x124, 1, 4, 0, 0, 0, 0, [0]⟩ -- PRF_STATE_CNT1
   ,⟨0x128, 1, 4, 0, 0, 0, 0, [0]⟩ -- PRF_STATE_CNT2
   ,⟨0x12c, 1, 4, 0xffff, 0, 0, 0, [0]⟩ -- PRF_SATWD
  ]

/-- The block registers of the FAB page (R212). -/
def regsFAB : List RegRow :=
  [
    ⟨0x100, 1, 4, 0, 0, 0, 0x7, [0]⟩ -- FAB_CTRL
   ,⟨0x104, 1, 4, 0, 0, 0, 0, [0]⟩ -- FAB_STAT
   ,⟨0x108, 1, 4, 0xffffffff, 0, 0, 0, [0]⟩ -- FAB_DESC_SRC
   ,⟨0x10c, 1, 4, 0xffffffff, 0, 0, 0, [0]⟩ -- FAB_DESC_SRC_HI
   ,⟨0x110, 1, 4, 0, 0, 0, 0, [0]⟩ -- FAB_DESC_RES
   ,⟨0x114, 1, 4, 0, 0, 0, 0, [0]⟩ -- FAB_TOPO
   ,⟨0x118, 1, 4, 0, 0, 0, 0, [0]⟩ -- FAB_TOPO_ID
   ,⟨0x120, 1, 4, 0xffffffff, 0, 0, 0, [0]⟩ -- FAB_IMG_SRC
   ,⟨0x124, 1, 4, 0xffffffff, 0, 0, 0, [0]⟩ -- FAB_IMG_SRC_HI
   ,⟨0x128, 1, 4, 0xffffffff, 0, 0, 0, [0]⟩ -- FAB_IMG_LEN
   ,⟨0x12c, 1, 4, 0, 0, 0, 0, [0]⟩ -- FAB_IMG_RES
   ,⟨0x130, 1, 4, 0, 0, 0, 0, [0]⟩ -- FAB_IMG_PROG
   ,⟨0x300, 32, 4, 0, 0, 0, 0, [0]⟩ -- FAB_IN_UNAVAIL
   ,⟨0x400, 672, 4, 0xffffffff, 0, 0, 0, [0]⟩ -- FAB_RETMAP
  ]

/-- The block registers of the RCE page (R214). -/
def regsRCE : List RegRow :=
  [
    ⟨0x100, 1, 4, 0, 0, 0, 0x1f, [0]⟩ -- RCE_CTRL
   ,⟨0x104, 1, 4, 0x21fff, 0, 0, 0, [0]⟩ -- RCE_APPLY_REC
   ,⟨0x108, 1, 4, 0xffffffff, 0, 0, 0, [0]⟩ -- RCE_APPLY_TICK
   ,⟨0x10c, 1, 4, 0xffffffff, 0, 0, 0, [0]⟩ -- RCE_APPLY_TICK_HI
   ,⟨0x110, 1, 4, 0xffffffff, 0, 0, 0, [0]⟩ -- RCE_APPLY_TIME
   ,⟨0x114, 1, 4, 0xffffffff, 0, 0, 0, [0]⟩ -- RCE_APPLY_TIME_HI
   ,⟨0x118, 1, 4, 0x1, 0, 0, 0, [0]⟩ -- RCE_LATE_POLICY
   ,⟨0x11c, 1, 4, 0, 0, 0, 0, [0]⟩ -- RCE_APPLY_RES
   ,⟨0x120, 1, 4, 0, 0, 0, 0, [0]⟩ -- RCE_APPLY_AT
   ,⟨0x124, 1, 4, 0, 0, 0, 0, [0]⟩ -- RCE_APPLY_AT_HI
   ,⟨0x128, 1, 4, 0, 0, 0, 0, [0]⟩ -- RCE_STAT
   ,⟨0x12c, 1, 4, 0, 0, 0, 0, [0]⟩ -- RCE_CUR_GEN
   ,⟨0x130, 1, 4, 0, 0, 0, 0, [0]⟩ -- RCE_CUR_TICK
   ,⟨0x134, 1, 4, 0, 0, 0, 0, [0]⟩ -- RCE_CUR_TICK_HI
   ,⟨0x138, 1, 4, 0, 0, 0, 0, [0]⟩ -- RCE_CHANGED
   ,⟨0x13c, 1, 4, 0, 0, 0, 0, [0]⟩ -- RCE_LAG
   ,⟨0x140, 1, 4, 0, 0, 0, 0, [0]⟩ -- RCE_LATE_REQ
   ,⟨0x144, 1, 4, 0, 0, 0, 0, [0]⟩ -- RCE_LATE_ACT
   ,⟨0x148, 1, 4, 0, 0, 0, 0, [0]⟩ -- RCE_LATE_INFO
   ,⟨0x14c, 1, 4, 0, 0, 0, 0, [0]⟩ -- RCE_STUCK_CELL
   ,⟨0x150, 1, 4, 0, 0, 0, 0, [0]⟩ -- RCE_STUCK_TICK
   ,⟨0x200, 32, 4, 0, 0, 0, 0, [0]⟩ -- RCE_QUEUE
  ]

/-- The block registers of the CRS page (R270). -/
def regsCRS : List RegRow :=
  [
    ⟨0x100, 1, 4, 0, 0, 0, 0x1, [0]⟩ -- CRS_CTRL
   ,⟨0x104, 1, 4, 0, 0x3, 0, 0, [0]⟩ -- CRS_CMD
   ,⟨0x108, 1, 4, 0, 0xffffffff, 0, 0, [0]⟩ -- CRS_BASE_TIME
   ,⟨0x10c, 1, 4, 0, 0xffffffff, 0, 0, [0]⟩ -- CRS_BASE_TIME_HI
   ,⟨0x110, 1, 4, 0, 0, 0, 0, [0]⟩ -- CRS_STAT
   ,⟨0x114, 1, 4, 0, 0, 0, 0, [0]⟩ -- CRS_RES
   ,⟨0x118, 1, 4, 0, 0, 0, 0, [0]⟩ -- CRS_CYCLE_LEN
   ,⟨0x11c, 1, 4, 0, 0, 0, 0, [0]⟩ -- CRS_SLOT_LEFT
   ,⟨0x120, 1, 4, 0, 0, 0, 0, [0]⟩ -- CRS_CYCLE_AT
   ,⟨0x124, 1, 4, 0, 0, 0, 0, [0]⟩ -- CRS_CYCLE_AT_HI
   ,⟨0x128, 1, 4, 0, 0, 0, 0, [0]⟩ -- CRS_CMT_AT
   ,⟨0x12c, 1, 4, 0, 0, 0, 0, [0]⟩ -- CRS_CMT_AT_HI
   ,⟨0x130, 1, 4, 0x7ff, 0, 0, 0, [0]⟩ -- CRS_SHD_COUNT
   ,⟨0x134, 1, 4, 0x3ff, 0, 0, 0, [0]⟩ -- CRS_SHD_IDX
   ,⟨0x138, 1, 4, 0xffffffff, 0, 0, 0, [0]⟩ -- CRS_SHD_DATA
   ,⟨0x13c, 1, 4, 0x3ff, 0, 0, 0, [0]⟩ -- CRS_ACT_IDX
   ,⟨0x140, 1, 4, 0, 0, 0, 0, [0]⟩ -- CRS_ACT_DATA
   ,⟨0x144, 1, 4, 0, 0, 0, 0, [0]⟩ -- CRS_ACT_COUNT
  ]

/-- The block registers of the PRT page (R272). -/
def regsPRT : List RegRow :=
  [
    ⟨0x100, 1, 4, 0, 0, 0, 0x1, [0]⟩ -- PRT_CTRL
   ,⟨0x104, 1, 4, 0, 0, 0, 0xff000f, [0]⟩ -- PRT_CMD
   ,⟨0x108, 1, 4, 0, 0, 0, 0, [0]⟩ -- PRT_STAT
   ,⟨0x10c, 1, 4, 0, 0, 0, 0, [0]⟩ -- PRT_RES
   ,⟨0x110, 1, 4, 0, 0, 0, 0, [0]⟩ -- PRT_CMD_RES
   ,⟨0x114, 1, 4, 0xff, 0, 0, 0, [0]⟩ -- PRT_CASE_SEL
   ,⟨0x118, 1, 4, 0, 0, 0, 0, [0]⟩ -- PRT_RUN
   ,⟨0x11c, 1, 4, 0, 0, 0, 0, [0]⟩ -- PRT_RUN_WTR
   ,⟨0x120, 1, 4, 0, 0, 0, 0, [0]⟩ -- PRT_RUN_AT
   ,⟨0x124, 1, 4, 0x3fff, 0, 0, 0, [0]⟩ -- PRT_SUB_IDX
   ,⟨0x128, 1, 4, 0xffffffff, 0, 0, 0, [0]⟩ -- PRT_SUB_DATA
   ,⟨0x12c, 1, 4, 0x3fff, 0, 0, 0, [0]⟩ -- PRT_SUBA_IDX
   ,⟨0x130, 1, 4, 0, 0, 0, 0, [0]⟩ -- PRT_SUBA_DATA
   ,⟨0x134, 1, 4, 0, 0, 0, 0, [0]⟩ -- PRT_FIRE_CNT
   ,⟨0x138, 1, 4, 0, 0, 0, 0, [0]⟩ -- PRT_LAST
   ,⟨0x13c, 1, 4, 0, 0, 0, 0, [0]⟩ -- PRT_LAST_TICK
   ,⟨0x140, 1, 4, 0, 0, 0, 0, [0]⟩ -- PRT_LAST_TICK_HI
   ,⟨0x200, 16, 4, 0xffffffff, 0, 0, 0, [0]⟩ -- PRT_SHD_WIN
   ,⟨0x240, 16, 4, 0, 0, 0, 0, [0]⟩ -- PRT_ACT_WIN
   ,⟨0x280, 8, 4, 0, 0, 0, 0, [0]⟩ -- PRT_BUSY_MAP
  ]

/-- The block registers of the RSV page (R240). -/
def regsRSV : List RegRow :=
  [
    ⟨0x100, 1, 4, 0x1f00, 0, 0, 0x3, [0]⟩ -- RSV_CTRL
   ,⟨0x104, 1, 4, 0, 0, 0, 0x1f, [0]⟩ -- RSV_SUBMIT
   ,⟨0x108, 1, 4, 0, 0, 0, 0, [0]⟩ -- RSV_STAT
   ,⟨0x10c, 1, 4, 0, 0, 0, 0, [0]⟩ -- RSV_SUB_RES
   ,⟨0x110, 1, 4, 0x1fff1fff, 0, 0, 0, [0x1fff1000]⟩ -- RSV_RANGE
   ,⟨0x114, 1, 4, 0xffffff, 0, 0, 0, [0x1e8480]⟩ -- RSV_BUDGET
   ,⟨0x118, 1, 4, 0, 0, 0xffffffff, 0, [0]⟩ -- RSV_DONE
   ,⟨0x11c, 1, 4, 0, 0, 0, 0, [0]⟩ -- RSV_JOB_CNT
   ,⟨0x120, 1, 4, 0, 0, 0, 0, [0]⟩ -- RSV_LAST
   ,⟨0x400, 32, 32, 0x133, 0, 0, 0, [0]⟩ -- RSV_JOB_W0
   ,⟨0x404, 32, 32, 0x3ff, 0, 0, 0, [0]⟩ -- RSV_JOB_W1
   ,⟨0x408, 32, 32, 0x1fff1fff, 0, 0, 0, [0]⟩ -- RSV_JOB_W2
   ,⟨0x40c, 32, 32, 0x1fff, 0, 0, 0, [0]⟩ -- RSV_JOB_W3
   ,⟨0x410, 32, 32, 0xffffffff, 0, 0, 0, [0]⟩ -- RSV_JOB_W4
   ,⟨0x414, 32, 32, 0, 0, 0, 0, [0]⟩ -- RSV_JOB_W5
   ,⟨0x418, 32, 32, 0, 0, 0, 0, [0]⟩ -- RSV_JOB_W6
   ,⟨0x41c, 32, 32, 0, 0, 0, 0, [0]⟩ -- RSV_JOB_W7
  ]

/-- The block registers of the CAL page (R309). -/
def regsCAL : List RegRow :=
  [
    ⟨0x100, 1, 4, 0, 0, 0, 0xf, [0]⟩ -- CAL_CTRL
   ,⟨0x104, 1, 4, 0x7fffffe3, 0, 0, 0, [0]⟩ -- CAL_PASS
   ,⟨0x108, 1, 4, 0x1, 0, 0, 0, [0]⟩ -- CAL_INTRUSIVE
   ,⟨0x10c, 1, 4, 0x7fff, 0, 0, 0, [0x40]⟩ -- CAL_MIN_LIGHT
   ,⟨0x110, 1, 4, 0xffff, 0, 0, 0, [0xc8]⟩ -- CAL_STAB_LIMIT
   ,⟨0x114, 1, 4, 0xf, 0, 0, 0, [0x3]⟩ -- CAL_RETRY
   ,⟨0x118, 1, 4, 0x1fff, 0, 0, 0, [0x100]⟩ -- CAL_AVG
   ,⟨0x11c, 1, 4, 0xffff, 0, 0, 0, [0x1f4]⟩ -- CAL_HSETTLE
   ,⟨0x120, 1, 4, 0xffffffff, 0, 0, 0, [0xf0001000]⟩ -- CAL_A_SWEEP
   ,⟨0x124, 1, 4, 0xffffffff, 0, 0, 0, [0xe0000000]⟩ -- CAL_B_SWEEP
   ,⟨0x128, 1, 4, 0xffffffff, 0, 0, 0, [0x80004040]⟩ -- CAL_SWEEP_CFG
   ,⟨0x12c, 1, 4, 0xffffffff, 0, 0, 0, [0x989680]⟩ -- CAL_TIMEOUT
   ,⟨0x130, 1, 4, 0, 0, 0, 0, [0]⟩ -- CAL_STAT
   ,⟨0x134, 1, 4, 0, 0, 0, 0, [0]⟩ -- CAL_OP_RES
   ,⟨0x138, 1, 4, 0, 0, 0, 0, [0]⟩ -- CAL_RES_SUM
   ,⟨0x13c, 1, 4, 0, 0, 0, 0, [0]⟩ -- CAL_SEQ_A
   ,⟨0x140, 1, 4, 0, 0, 0, 0, [0]⟩ -- CAL_SEQ_B
   ,⟨0x144, 1, 4, 0xc0003fff, 0, 0, 0, [0]⟩ -- CAL_WIN_SEL
   ,⟨0x180, 16, 4, 0, 0, 0, 0, [0]⟩ -- CAL_WIN
  ]

/-- The block registers of the MEA page (R307). -/
def regsMEA : List RegRow :=
  [
    ⟨0x100, 1, 4, 0x7, 0, 0, 0, [0x1]⟩ -- MEA_CTRL
   ,⟨0x104, 1, 4, 0xfffff, 0, 0, 0, [0x3e8]⟩ -- MEA_WIN
   ,⟨0x108, 1, 4, 0xffffffff, 0, 0, 0, [0x3e803e8]⟩ -- MEA_DIV
   ,⟨0x10c, 1, 4, 0xf, 0, 0, 0, [0x2]⟩ -- MEA_SLOT_CFG
   ,⟨0x110, 1, 4, 0x7fff7fff, 0, 0, 0, [0x400020]⟩ -- MEA_LOS_THR
   ,⟨0x114, 1, 4, 0xffff00ff, 0, 0, 0, [0x640001]⟩ -- MEA_LOS_CNT
   ,⟨0x118, 1, 4, 0xffffffff, 0, 0, 0, [0]⟩ -- MEA_ROUTE
   ,⟨0x11c, 1, 4, 0, 0, 0, 0, [0]⟩ -- MEA_STAT
   ,⟨0x120, 1, 4, 0xffffffff, 0, 0, 0, [0]⟩ -- MEA_RING_BASE
   ,⟨0x124, 1, 4, 0xffffffff, 0, 0, 0, [0]⟩ -- MEA_RING_BASE_HI
   ,⟨0x128, 1, 4, 0x1f, 0, 0, 0, [0x10]⟩ -- MEA_RING_SIZE
   ,⟨0x12c, 1, 4, 0, 0, 0, 0, [0]⟩ -- MEA_RING_WR
   ,⟨0x130, 1, 4, 0xffffffff, 0, 0, 0, [0]⟩ -- MEA_RING_RD
   ,⟨0x134, 1, 4, 0xffff0017, 0, 0, 0, [0]⟩ -- MEA_UPL_CFG
   ,⟨0x138, 1, 4, 0xffffffff, 0, 0, 0, [0]⟩ -- MEA_UPL_DST
   ,⟨0x13c, 1, 4, 0xfffffff, 0, 0, 0, [0]⟩ -- MEA_UPL_DST_HI
   ,⟨0x140, 1, 4, 0xffffffff, 0, 0, 0, [0x5c00100]⟩ -- MEA_UPL_RATE
   ,⟨0x144, 1, 4, 0, 0, 0, 0, [0]⟩ -- MEA_DROP
   ,⟨0x148, 1, 4, 0, 0, 0, 0, [0]⟩ -- MEA_WIN_AT
   ,⟨0x180, 16, 4, 0xffffffff, 0, 0, 0, [0]⟩ -- MEA_HIST_CFG
   ,⟨0x200, 32, 4, 0xffffffff, 0, 0, 0, [0xffffffff]⟩ -- MEA_LOS_EN
   ,⟨0x280, 32, 4, 0, 0, 0, 0, [0]⟩ -- MEA_LOS_MAP
   ,⟨0x300, 16, 4, 0, 0, 0, 0, [0]⟩ -- MEA_IMPL_EFE
  ]

/-- The block registers of the SUP page (R349). -/
def regsSUP : List RegRow :=
  [
    ⟨0x100, 1, 4, 0x9f, 0, 0, 0x100, [0x80]⟩ -- PORT_CTRL
   ,⟨0x104, 1, 4, 0, 0, 0, 0, [0]⟩ -- PORT_STAT
   ,⟨0x108, 1, 4, 0x17fff, 0, 0, 0, [0x1]⟩ -- PORT_VLAN
   ,⟨0x10c, 1, 4, 0xffff, 0, 0, 0, [0xffff]⟩ -- PORT_PAUSE
   ,⟨0x110, 1, 4, 0xffff, 0, 0, 0, [0x10]⟩ -- PORT_CV_LIMIT
   ,⟨0x114, 1, 4, 0, 0, 0, 0, [0]⟩ -- PORT_FCNT
   ,⟨0x140, 16, 4, 0, 0, 0, 0, [0]⟩ -- PORT_CNT
  ]

/-- The block registers of the HPT page (R350). -/
def regsHPT : List RegRow :=
  [
    ⟨0x100, 1, 4, 0x3, 0, 0, 0x4, [0]⟩ -- HPT_CTRL
   ,⟨0x110, 3, 16, 0xffffffff, 0, 0, 0, [0]⟩ -- HPT_RING_BASE_LO
   ,⟨0x114, 3, 16, 0xffffffff, 0, 0, 0, [0]⟩ -- HPT_RING_BASE_HI
   ,⟨0x118, 3, 16, 0x1f, 0, 0, 0, [0]⟩ -- HPT_RING_LOG2
   ,⟨0x11c, 3, 16, 0xffff0000, 0, 0, 0, [0]⟩ -- HPT_RING_PTR
   ,⟨0x140, 1, 4, 0x3fff, 0, 0, 0, [0x800]⟩ -- HPT_BUFSZ
   ,⟨0x144, 1, 4, 0x1ff, 0, 0, 0, [0x60]⟩ -- HPT_RX1_MASK
   ,⟨0x160, 5, 4, 0, 0, 0, 0, [0]⟩ -- HPT_CNT
  ]

/-- The block registers of the PKT page (R351). -/
def regsPKT : List RegRow :=
  [
    ⟨0x100, 1, 4, 0, 0, 0, 0, [0]⟩ -- PKT_STAT
   ,⟨0x104, 1, 4, 0, 0, 0, 0, [0]⟩ -- PKT_RATE
   ,⟨0x108, 1, 4, 0xffff0703, 0, 0, 0, [0x600]⟩ -- MGT_CTRL
   ,⟨0x10c, 1, 4, 0xffff, 0, 0, 0, [0x2710]⟩ -- MGT_IDLE
   ,⟨0x110, 1, 4, 0, 0, 0, 0, [0]⟩ -- MGT_STAT
   ,⟨0x120, 8, 4, 0, 0, 0, 0, [0]⟩ -- MGT_CNT
  ]

/-- The block registers of the FWD page (R352). -/
def regsFWD : List RegRow :=
  [
    ⟨0x100, 1, 4, 0xf, 0, 0, 0, [0x7]⟩ -- FWD_CTRL
   ,⟨0x108, 1, 4, 0xffffffff, 0, 0, 0, [0]⟩ -- FWD_RMAC
   ,⟨0x10c, 1, 4, 0xffff, 0, 0, 0, [0]⟩ -- FWD_RMAC_HI
   ,⟨0x110, 1, 4, 0xffff, 0, 0, 0, [0x96]⟩ -- FWD_AGE
   ,⟨0x114, 1, 4, 0xfffff, 0, 0, 0, [0x3e8]⟩ -- LRN_MOVE_GUARD
   ,⟨0x118, 1, 4, 0, 0, 0, 0xfff7f0f, [0]⟩ -- FWD_CMD
   ,⟨0x11c, 1, 4, 0, 0, 0, 0, [0]⟩ -- FWD_CMD_RES
   ,⟨0x120, 8, 4, 0xffffffff, 0, 0, 0, [0]⟩ -- FWD_ENT
   ,⟨0x140, 1, 4, 0, 0, 0, 0, [0]⟩ -- FWD_PASS
   ,⟨0x144, 1, 4, 0, 0, 0, 0, [0]⟩ -- FWD_PARITY
   ,⟨0x148, 1, 4, 0, 0, 0, 0, [0]⟩ -- FWD_CONFLICT
   ,⟨0x14c, 1, 4, 0, 0, 0, 0, [0]⟩ -- FWD_PINNED
   ,⟨0x160, 10, 4, 0, 0, 0, 0, [0]⟩ -- FWD_CNT
   ,⟨0x190, 1, 4, 0xfff, 0, 0, 0, [0]⟩ -- FWD_STEM_IDX
   ,⟨0x194, 4, 4, 0xffffffff, 0, 0, 0, [0]⟩ -- FWD_STEM_DATA
   ,⟨0x1a4, 1, 4, 0x1, 0, 0, 0, [0]⟩ -- FWD_STEM_DATA4
   ,⟨0x1b0, 1, 4, 0xfff, 0, 0, 0, [0]⟩ -- FWD_NH_IDX
   ,⟨0x1b4, 1, 4, 0xffffffff, 0, 0, 0, [0]⟩ -- FWD_NH_DATA
   ,⟨0x1b8, 1, 4, 0xffff, 0, 0, 0, [0]⟩ -- FWD_NH_DATA1
   ,⟨0x1bc, 1, 4, 0x807f0fff, 0, 0, 0, [0]⟩ -- FWD_NH_DATA2
   ,⟨0x1c0, 1, 4, 0xfff, 0, 0, 0, [0]⟩ -- FWD_VLAN_IDX
   ,⟨0x1c4, 2, 4, 0xffffffff, 0, 0, 0, [0]⟩ -- FWD_VLAN_DATA
   ,⟨0x1cc, 1, 4, 0x7, 0, 0, 0, [0]⟩ -- FWD_VLAN_DATA2
  ]

/-- The block registers of the BPM page (R353). -/
def regsBPM : List RegRow :=
  [
    ⟨0x100, 4, 16, 0xffffffff, 0, 0, 0, [0x20000800, 0x20000800, 0x10000400, 0x8000200]⟩ -- BPM_POOL_CFG0
   ,⟨0x104, 4, 16, 0xffffffff, 0, 0, 0, [0x1c001800, 0x1c001800, 0xe000c00, 0x7000600]⟩ -- BPM_POOL_CFG1
   ,⟨0x108, 4, 16, 0xffffffff, 0, 0, 0, [0x1001e00, 0x1001e00, 0x800f00, 0x400780]⟩ -- BPM_POOL_CFG2
   ,⟨0x10c, 4, 16, 0x7, 0, 0, 0, [0x2]⟩ -- BPM_POOL_CFG3
   ,⟨0x140, 4, 4, 0, 0, 0, 0, [0]⟩ -- BPM_POOL_STAT
   ,⟨0x150, 1, 4, 0, 0, 0, 0, [0x4000]⟩ -- BPM_FREE
   ,⟨0x160, 4, 4, 0, 0, 0, 0, [0]⟩ -- BPM_NOBUF
   ,⟨0x170, 1, 4, 0, 0, 0, 0xc0003fff, [0]⟩ -- BPM_CMD
   ,⟨0x174, 1, 4, 0, 0, 0, 0, [0]⟩ -- BPM_CMD_RES
   ,⟨0x178, 1, 4, 0, 0, 0, 0, [0]⟩ -- BPM_BAD_FREE
   ,⟨0x17c, 1, 4, 0, 0, 0, 0, [0]⟩ -- BPM_BAD_CNT
   ,⟨0x180, 1, 4, 0x3fff, 0, 0, 0, [0]⟩ -- BPM_INSP_IDX
   ,⟨0x184, 1, 4, 0, 0, 0, 0, [0]⟩ -- BPM_INSP_DATA
  ]

/-- The block registers of the SCH page (R371). -/
def regsSCH : List RegRow :=
  [
    ⟨0x100, 1, 4, 0x7f07, 0, 0, 0, [0]⟩ -- SCH_SEL
   ,⟨0x104, 1, 4, 0x1ff, 0, 0, 0, [0x14]⟩ -- SCH_PORT_CFG
   ,⟨0x108, 1, 4, 0x13ffff, 0, 0, 0, [0x600]⟩ -- SCH_Q_CFG
   ,⟨0x10c, 1, 4, 0xfffff, 0, 0, 0, [0]⟩ -- SCH_Q_RATE
   ,⟨0x110, 1, 4, 0xffff, 0, 0, 0, [0x600]⟩ -- SCH_Q_BURST
   ,⟨0x114, 1, 4, 0, 0, 0, 0, [0]⟩ -- SCH_Q_CREDIT
   ,⟨0x118, 1, 4, 0, 0, 0, 0, [0]⟩ -- SCH_Q_STAT
   ,⟨0x11c, 1, 4, 0, 0, 0, 0, [0]⟩ -- SCH_Q_DEFICIT
   ,⟨0x120, 1, 4, 0, 0, 0, 0, [0]⟩ -- SCH_Q_TXFRM
  ]

/-- The block registers of the GTE page (R372). -/
def regsGTE : List RegRow :=
  [
    ⟨0x100, 1, 4, 0x7f, 0, 0, 0, [0]⟩ -- GTE_SEL
   ,⟨0x108, 1, 4, 0, 0xffffffff, 0, 0, [0]⟩ -- GTE_ADM_BASE
   ,⟨0x10c, 1, 4, 0, 0xffffffff, 0, 0, [0]⟩ -- GTE_ADM_BASE_HI
   ,⟨0x110, 1, 4, 0, 0xffffffff, 0, 0, [0]⟩ -- GTE_ADM_CYCLE
   ,⟨0x114, 1, 4, 0, 0x7f, 0, 0, [0]⟩ -- GTE_ADM_LEN
   ,⟨0x118, 1, 4, 0, 0, 0, 0x3, [0]⟩ -- GTE_CMD
   ,⟨0x11c, 1, 4, 0, 0, 0, 0, [0]⟩ -- GTE_RES
   ,⟨0x120, 1, 4, 0, 0, 0, 0, [0]⟩ -- GTE_PEND_AT
   ,⟨0x124, 1, 4, 0, 0, 0, 0, [0]⟩ -- GTE_PEND_AT_HI
   ,⟨0x128, 1, 4, 0, 0, 0, 0, [0]⟩ -- GTE_OPER_BASE
   ,⟨0x12c, 1, 4, 0, 0, 0, 0, [0]⟩ -- GTE_OPER_BASE_HI
   ,⟨0x130, 1, 4, 0, 0, 0, 0, [0]⟩ -- GTE_OPER_CYCLE
   ,⟨0x134, 1, 4, 0, 0, 0, 0, [0]⟩ -- GTE_OPER_LEN
   ,⟨0x138, 1, 4, 0, 0, 0, 0, [0xff]⟩ -- GTE_STAT
   ,⟨0x13c, 1, 4, 0, 0, 0, 0, [0]⟩ -- GTE_OVERSIZE
   ,⟨0x200, 64, 4, 0, 0xffffffff, 0, 0, [0]⟩ -- GTE_ADM_ENTRY
   ,⟨0x300, 64, 4, 0, 0, 0, 0, [0]⟩ -- GTE_OPER_ENTRY
  ]

/-- The block registers of the WHL page (R374). -/
def regsWHL : List RegRow :=
  [
    ⟨0x100, 1, 4, 0x7f07, 0, 0, 0, [0]⟩ -- WHL_SEL
   ,⟨0x104, 1, 4, 0xffffff, 0, 0, 0, [0]⟩ -- WHL_Q_SPB
   ,⟨0x108, 1, 4, 0, 0, 0, 0, [0]⟩ -- WHL_Q_WAIT
   ,⟨0x10c, 1, 4, 0, 0, 0, 0, [0]⟩ -- WHL_Q_REM
   ,⟨0x110, 1, 4, 0, 0, 0, 0, [0]⟩ -- WHL_NOW
  ]

/-- The block registers of the POL page (R375). -/
def regsPOL : List RegRow :=
  [
    ⟨0x100, 1, 4, 0x7f07, 0, 0, 0, [0]⟩ -- POL_SEL
   ,⟨0x104, 1, 4, 0xffff0073, 0, 0, 0, [0x6000000]⟩ -- POL_CFG
   ,⟨0x108, 1, 4, 0xfffff, 0, 0, 0, [0]⟩ -- POL_RATE
   ,⟨0x10c, 1, 4, 0, 0, 0, 0, [0]⟩ -- POL_TOKENS
   ,⟨0x110, 1, 4, 0, 0, 0, 0, [0]⟩ -- POL_CNT
   ,⟨0x114, 1, 4, 0, 0, 0, 0, [0]⟩ -- POL_ADMIT_DROP
   ,⟨0x120, 2, 4, 0xffffffff, 0, 0, 0, [0xffffffff]⟩ -- POL_ADMIT_ALM, words 0 and 1
   ,⟨0x128, 1, 4, 0x7, 0, 0, 0, [0x7]⟩ -- POL_ADMIT_ALM, word 2: ports 64 to 66
   ,⟨0x130, 2, 4, 0xffffffff, 0, 0, 0, [0xffffffff]⟩ -- POL_ADMIT_MGT, words 0 and 1
   ,⟨0x138, 1, 4, 0x7, 0, 0, 0, [0x7]⟩ -- POL_ADMIT_MGT, word 2: ports 64 to 66
  ]

/-- The block registers of the ALM page (R354). -/
def regsALM : List RegRow :=
  [
    ⟨0x100, 1, 4, 0x7, 0, 0, 0, [0]⟩ -- ALM_CTRL
   ,⟨0x104, 1, 4, 0xffff, 0, 0, 0, [0]⟩ -- ALM_ETYPE
   ,⟨0x108, 1, 4, 0xffffffff, 0, 0, 0, [0]⟩ -- ALM_DA
   ,⟨0x10c, 1, 4, 0xfffffff, 0, 0, 0, [0]⟩ -- ALM_DA_HI
   ,⟨0x110, 1, 4, 0x7ff, 0, 0, 0, [0x704]⟩ -- ALM_TX
   ,⟨0x114, 1, 4, 0, 0, 0, 0xffffff, [0]⟩ -- ALM_SEND
   ,⟨0x118, 1, 4, 0, 0, 0, 0, [0]⟩ -- ALM_SEQ
   ,⟨0x120, 2, 4, 0xffffffff, 0, 0, 0, [0]⟩ -- ALM_FWD_MASK, words 0 and 1
   ,⟨0x128, 1, 4, 0x3, 0, 0, 0, [0]⟩ -- ALM_FWD_MASK, word 2: ports 64 and 65
   ,⟨0x130, 2, 4, 0xffffffff, 0, 0, 0, [0]⟩ -- ALM_ORIG_MASK, words 0 and 1
   ,⟨0x138, 1, 4, 0x3, 0, 0, 0, [0]⟩ -- ALM_ORIG_MASK, word 2: ports 64 and 65
   ,⟨0x140, 2, 4, 0, 0, 0, 0, [0]⟩ -- ALM_IN_LEVEL
   ,⟨0x148, 2, 4, 0, 0, 0, 0xffffffff, [0]⟩ -- ALM_IN_CLEAR
   ,⟨0x160, 8, 4, 0, 0, 0, 0, [0]⟩ -- ALM_CNT
   ,⟨0x200, 32, 4, 0xffffffff, 0, 0, 0, [0]⟩ -- ALM_ORIG_EN
   ,⟨0x300, 64, 8, 0xffff3fff, 0, 0, 0, [0]⟩ -- ALM_IN0
   ,⟨0x304, 64, 8, 0x8003ffff, 0, 0, 0, [0]⟩ -- ALM_IN1
  ]

/-- The class a page falls into under a management reset (R451, R529). -/
inductive PageClass where
  | kept | held | reset
  deriving DecidableEq, Repr

/-- What the page index gives of one page (R529). -/
structure PageInfo where
  type : Nat
  shadow : Bool
  srst : Bool
  fault : Bool
  cls : PageClass
  faultCfg : Nat
  rows : List RegRow
  deriving DecidableEq, Repr

/-- The page index (R529): first page, instances, and the page's description. -/
def pageIndex : List (Nat × Nat × PageInfo) :=
  [
    (0x000, 1, ⟨0x000, false, false, false, .kept, 0, regsGLB⟩)
   ,(0x001, 1, ⟨0x001, false, false, false, .kept, 0, regsPWR⟩)
   ,(0x002, 1, ⟨0x002, false, false, true, .kept, 0x104, regsTHM⟩)
   ,(0x003, 1, ⟨0x003, false, false, false, .kept, 0, regsCLK⟩)
   ,(0x004, 1, ⟨0x004, true, false, false, .held, 0, regsTCK⟩)
   ,(0x005, 1, ⟨0x005, false, false, false, .kept, 0, regsNTU⟩)
   ,(0x006, 1, ⟨0x006, false, false, false, .kept, 0, regsFLT⟩)
   ,(0x007, 1, ⟨0x007, false, false, true, .kept, 0x208, regsRED⟩)
   ,(0x008, 1, ⟨0x008, false, false, false, .reset, 0, regsBMX⟩)
   ,(0x009, 1, ⟨0x009, false, false, false, .reset, 0, regsNVM⟩)
   ,(0x00A, 1, ⟨0x00A, false, false, false, .reset, 0, regsHIF⟩)
   ,(0x00B, 1, ⟨0x00B, false, false, false, .held, 0, regsEVT⟩)
   ,(0x010, 16, ⟨0x010, false, true, true, .held, 0x208, regsBYV⟩)
   ,(0x020, 32, ⟨0x020, false, true, true, .held, 0x204, regsLEN⟩)
   ,(0x040, 1, ⟨0x040, true, false, false, .held, 0, regsLPL⟩)
   ,(0x041, 1, ⟨0x041, true, false, false, .held, 0, regsPRF⟩)
   ,(0x050, 1, ⟨0x050, false, false, false, .reset, 0, regsFAB⟩)
   ,(0x051, 1, ⟨0x051, false, false, false, .reset, 0, regsRCE⟩)
   ,(0x052, 1, ⟨0x052, true, false, false, .held, 0, regsCRS⟩)
   ,(0x053, 1, ⟨0x053, true, false, false, .held, 0, regsPRT⟩)
   ,(0x054, 1, ⟨0x054, false, true, false, .reset, 0, regsRSV⟩)
   ,(0x058, 1, ⟨0x058, true, true, false, .reset, 0, regsCAL⟩)
   ,(0x059, 1, ⟨0x059, false, true, false, .held, 0, regsMEA⟩)
   ,(0x060, 64, ⟨0x060, false, true, true, .kept, 0x10A, regsSUP⟩)
   ,(0x0A0, 2, ⟨0x0A0, false, true, true, .kept, 0x10A, regsSUP⟩)
   ,(0x0A2, 1, ⟨0x0A2, false, false, false, .kept, 0, regsHPT⟩)
   ,(0x0B0, 1, ⟨0x0B0, false, false, false, .kept, 0, regsPKT⟩)
   ,(0x0B1, 1, ⟨0x0B1, false, false, false, .kept, 0, regsFWD⟩)
   ,(0x0B2, 1, ⟨0x0B2, false, false, false, .kept, 0, regsBPM⟩)
   ,(0x0B3, 1, ⟨0x0B3, false, false, false, .kept, 0, regsSCH⟩)
   ,(0x0B4, 1, ⟨0x0B4, false, false, false, .kept, 0, regsGTE⟩)
   ,(0x0B5, 1, ⟨0x0B5, false, false, false, .kept, 0, regsWHL⟩)
   ,(0x0B6, 1, ⟨0x0B6, false, false, false, .kept, 0, regsPOL⟩)
   ,(0x0B7, 1, ⟨0x0B7, false, false, false, .kept, 0, regsALM⟩)
  ]

/-- The description of a page position; `none` for a reserved position (R530). -/
def pageInfo? (page : Nat) : Option PageInfo :=
  (pageIndex.find? fun e => decide (e.1 ≤ page) && decide (page < e.1 + e.2.1)).map (·.2.2)

/-- The common registers of a page at offsets 0x000 to 0x030 (R473, R438, R487). -/
def commonRows (p : PageInfo) (inst : Nat) : List RegRow :=
  [⟨0x000, 1, 4, 0, 0, 0, 0, [p.type * 0x10000 + inst * 0x100 + 1]⟩ -- PAGE_ID
  , ⟨0x004, 1, 4, 0, 0, 0, 0, [4 + (if p.fault then 8 else 0) + (if p.srst then 2 else 0) + (if p.shadow then 1 else 0)]⟩ -- PAGE_CAP
  , ⟨0x008, 1, 4, 0x31, 0, 0, 0x2, [1]⟩ -- PAGE_CTRL
  , ⟨0x00C, 1, 4, 0, 0, 0, 0, [0]⟩ -- PAGE_STAT
  , ⟨0x010, 1, 4, 0, 0, 0xFFFFFFFF, 0, [0]⟩ -- INT_STAT
  , ⟨0x014, 1, 4, 0xFFFFFFFF, 0, 0, 0, [0]⟩ -- INT_EN
  , ⟨0x018, 1, 4, 0, 0, 0, 0xFFFFFFFF, [0]⟩ -- INT_FORCE
  , ⟨0x01C, 1, 4, 0, 0, 0, 0, [0]⟩ -- ERR_ADDR
  , ⟨0x020, 1, 4, 0, 0, 0xC0000000, 0, [0]⟩ -- ERR_INFO
  , ⟨0x024, 1, 4, 0, 0, 0, 0x3, [0]⟩ -- COMMIT
  , ⟨0x028, 1, 4, 0xFFFFFFFF, 0, 0, 0, [0]⟩ -- COMMIT_TICK
  , ⟨0x02C, 1, 4, if p.fault then 0xFFFF else 0, 0, 0, 0, [p.faultCfg]⟩ -- FAULT_CFG
  , ⟨0x030, 1, 4, 0, 0, 0, 0, [0]⟩] -- FAULT_CNT

/-- The row of a page's list that holds offset `off`, with the word's index in it. -/
def rowAt? (rows : List RegRow) (off : Nat) : Option (RegRow × Nat) :=
  (rows.find? fun r => decide (r.off ≤ off) && decide ((off - r.off) % r.step = 0) && decide ((off - r.off) / r.step < r.n)).map
    fun r => (r, (off - r.off) / r.step)

/-- The page position of an internal address of T0, the 64 MB at 0x04000000; elsewhere a position that no page has (R467). -/
def pageOf (addr : Nat) : Nat := if addr / 0x04000000 = 1 then addr / 0x1000 % 0x4000 else 0x4000

/-- The register at an internal address, if an implemented page has one there (R529 to R531). -/
def regRow? (addr : Nat) : Option (RegRow × Nat) :=
  match pageInfo? (pageOf addr) with
  | none => none
  | some p =>
    if addr % 0x1000 < 0x100 then rowAt? (commonRows p (pageOf addr - p.type)) (addr % 0x1000)
    else rowAt? p.rows (addr % 0x1000)

/-- The reset value of the register word with key `key`: the register's address, plus (k + 1) × 2^32 for copy `k` of a
register behind a selector; 0 where no register lies. -/
def regReset (key : Nat) : Word :=
  match regRow? (key % 0x100000000) with
  | none => 0
  | some (r, i) => BitVec.ofNat 32 (match r.reset with | [v] => v | l => l.getD i 0)

/-- The internal address of common register `off` of a page. -/
def cReg (page off : Nat) : Nat := 0x04000000 + page * 0x1000 + off

/-- The address of register `r` in instance `n` of its page type. -/
def atInst (r n : Nat) : Nat := r + n * 0x1000

/-- The key of copy `k` of register `r` behind a selector register. -/
def copyOf (k r : Nat) : Nat := r + (k + 1) * 0x100000000

/-- Offset of the common register PAGE_CTRL (R473). -/
abbrev OFF_PAGE_CTRL : Nat := 0x8
/-- Offset of the common register PAGE_STAT (R473). -/
abbrev OFF_PAGE_STAT : Nat := 0xc
/-- Offset of the common register INT_STAT (R473). -/
abbrev OFF_INT_STAT : Nat := 0x10
/-- Offset of the common register INT_EN (R473). -/
abbrev OFF_INT_EN : Nat := 0x14
/-- Offset of the common register INT_FORCE (R473). -/
abbrev OFF_INT_FORCE : Nat := 0x18
/-- Offset of the common register ERR_ADDR (R473). -/
abbrev OFF_ERR_ADDR : Nat := 0x1c
/-- Offset of the common register ERR_INFO (R473). -/
abbrev OFF_ERR_INFO : Nat := 0x20
/-- Offset of the common register COMMIT (R473). -/
abbrev OFF_COMMIT : Nat := 0x24
/-- Offset of the common register COMMIT_TICK (R473). -/
abbrev OFF_COMMIT_TICK : Nat := 0x28
/-- Offset of the common register FAULT_CFG (R473). -/
abbrev OFF_FAULT_CFG : Nat := 0x2c
/-- Offset of the common register FAULT_CNT (R473). -/
abbrev OFF_FAULT_CNT : Nat := 0x30

end Sys2Proof.Machine

/-! The addresses of the registers, by the spec's names (instance 0 of a page type; word 0 of an array). -/

namespace Sys2Proof.Reg

/-- GLB_ID (R488). -/ abbrev GLB_ID : Nat := 0x04000100
/-- GLB_REMAP (R488). -/ abbrev GLB_REMAP : Nat := 0x04000104
/-- GLB_STRAP (R488). -/ abbrev GLB_STRAP : Nat := 0x04000108
/-- GLB_BOOT (R488). -/ abbrev GLB_BOOT : Nat := 0x0400010C
/-- GLB_RESET (R459). -/ abbrev GLB_RESET : Nat := 0x04000110
/-- GLB_RESET_CAUSE (R459). -/ abbrev GLB_RESET_CAUSE : Nat := 0x04000114
/-- GLB_TAKEOVER (R459). -/ abbrev GLB_TAKEOVER : Nat := 0x04000118
/-- GLB_TAKEOVER_TICK (R459). -/ abbrev GLB_TAKEOVER_TICK : Nat := 0x0400011C
/-- GLB_TAKEOVER_RES (R459). -/ abbrev GLB_TAKEOVER_RES : Nat := 0x04000120
/-- PWR_STATE (R512). -/ abbrev PWR_STATE : Nat := 0x04001100
/-- PWR_CTRL (R512). -/ abbrev PWR_CTRL : Nat := 0x04001104
/-- PWR_RETURN_DELAY (R512). -/ abbrev PWR_RETURN_DELAY : Nat := 0x04001108
/-- PWR_VIN (R512). -/ abbrev PWR_VIN : Nat := 0x0400110C
/-- PWR_BUS (R512). -/ abbrev PWR_BUS : Nat := 0x04001110
/-- PWR_CNT (R512). -/ abbrev PWR_CNT : Nat := 0x04001114
/-- THM_LEVEL (R514). -/ abbrev THM_LEVEL : Nat := 0x04002100
/-- THM_CTRL (R514). -/ abbrev THM_CTRL : Nat := 0x04002104
/-- THM_SENS_RESTORE (R514). -/ abbrev THM_SENS_RESTORE : Nat := 0x04002108
/-- THM_WARN (R514). -/ abbrev THM_WARN : Nat := 0x0400210C
/-- THM_THROTTLE (R514). -/ abbrev THM_THROTTLE : Nat := 0x04002110
/-- THM_SHUT (R514). -/ abbrev THM_SHUT : Nat := 0x04002114
/-- THM_DWELL (R514). -/ abbrev THM_DWELL : Nat := 0x04002118
/-- THM_DEV (R514). -/ abbrev THM_DEV : Nat := 0x0400211C
/-- THM_STAT (R514). -/ abbrev THM_STAT : Nat := 0x04002120
/-- THM_MAX (R514). -/ abbrev THM_MAX : Nat := 0x04002124
/-- THM_CNT (R514). -/ abbrev THM_CNT : Nat := 0x04002128
/-- THM_ATRIP (R514). -/ abbrev THM_ATRIP : Nat := 0x0400212C
/-- THM_SENS (R514). -/ abbrev THM_SENS : Nat := 0x04002140
/-- THM_SENS_FLT (R514). -/ abbrev THM_SENS_FLT : Nat := 0x04002180
/-- CLK_STAT (R534). -/ abbrev CLK_STAT : Nat := 0x04003100
/-- CLK_CNT (R534). -/ abbrev CLK_CNT : Nat := 0x04003104
/-- CLK_RELOCK (R534). -/ abbrev CLK_RELOCK : Nat := 0x04003108
/-- TCK_CTRL (R73). -/ abbrev TCK_CTRL : Nat := 0x04004100
/-- TCK_PERIOD (R73). -/ abbrev TCK_PERIOD : Nat := 0x04004104
/-- TCK_PHASE (R73). -/ abbrev TCK_PHASE : Nat := 0x04004108
/-- TCK_SLEW (R73). -/ abbrev TCK_SLEW : Nat := 0x0400410C
/-- TCK_PERIOD_ACT (R73). -/ abbrev TCK_PERIOD_ACT : Nat := 0x04004110
/-- TCK_PHASE_ACT (R73). -/ abbrev TCK_PHASE_ACT : Nat := 0x04004114
/-- TCK_NOW (R73). -/ abbrev TCK_NOW : Nat := 0x04004118
/-- TCK_NOW_HI (R73). -/ abbrev TCK_NOW_HI : Nat := 0x0400411C
/-- TCK_PHASE_ERR (R73). -/ abbrev TCK_PHASE_ERR : Nat := 0x04004120
/-- TCK_STAT (R73). -/ abbrev TCK_STAT : Nat := 0x04004124
/-- TCK_OVERRUN_CNT (R73). -/ abbrev TCK_OVERRUN_CNT : Nat := 0x04004128
/-- TCK_OVR_MASK (R73). -/ abbrev TCK_OVR_MASK : Nat := 0x0400412C
/-- TCK_OVR_TICK (R73). -/ abbrev TCK_OVR_TICK : Nat := 0x04004130
/-- TCK_OVR_TICK_HI (R73). -/ abbrev TCK_OVR_TICK_HI : Nat := 0x04004134
/-- TCK_ALT_MASK (R73). -/ abbrev TCK_ALT_MASK : Nat := 0x04004138
/-- TCK_CMT_RES (R73). -/ abbrev TCK_CMT_RES : Nat := 0x0400413C
/-- NTU_CTRL (R398). -/ abbrev NTU_CTRL : Nat := 0x04005100
/-- NTU_STAT (R398). -/ abbrev NTU_STAT : Nat := 0x04005104
/-- NTU_SYNC_WD (R398). -/ abbrev NTU_SYNC_WD : Nat := 0x04005108
/-- NTU_WD_LEFT (R398). -/ abbrev NTU_WD_LEFT : Nat := 0x0400510C
/-- NTU_RATE (R398). -/ abbrev NTU_RATE : Nat := 0x04005110
/-- NTU_RATE_HI (R398). -/ abbrev NTU_RATE_HI : Nat := 0x04005114
/-- NTU_OFFSET (R398). -/ abbrev NTU_OFFSET : Nat := 0x04005118
/-- NTU_STEP (R398). -/ abbrev NTU_STEP : Nat := 0x04005124
/-- NTU_STEP_HI (R398). -/ abbrev NTU_STEP_HI : Nat := 0x04005128
/-- NTU_TIME (R398). -/ abbrev NTU_TIME : Nat := 0x04005130
/-- NTU_FRC (R398). -/ abbrev NTU_FRC : Nat := 0x04005140
/-- NTU_NODE (R398). -/ abbrev NTU_NODE : Nat := 0x04005150
/-- NTU_PTP_CFG (R398). -/ abbrev NTU_PTP_CFG : Nat := 0x04005154
/-- NTU_TC_CFG (R398). -/ abbrev NTU_TC_CFG : Nat := 0x04005158
/-- NTU_SYNC_PORTS (R398). -/ abbrev NTU_SYNC_PORTS : Nat := 0x0400515C
/-- NTU_PTD_STEP (R398). -/ abbrev NTU_PTD_STEP : Nat := 0x04005168
/-- NTU_PPS_IN_TS (R398). -/ abbrev NTU_PPS_IN_TS : Nat := 0x04005170
/-- NTU_PPS_CFG (R398). -/ abbrev NTU_PPS_CFG : Nat := 0x0400517C
/-- NTU_PPS_OFS (R398). -/ abbrev NTU_PPS_OFS : Nat := 0x04005180
/-- NTU_CNT (R398). -/ abbrev NTU_CNT : Nat := 0x04005190
/-- NTU_PORT_RXADJ (R398). -/ abbrev NTU_PORT_RXADJ : Nat := 0x04005400
/-- NTU_PORT_TXADJ (R398). -/ abbrev NTU_PORT_TXADJ : Nat := 0x04005404
/-- NTU_PORT_MPD (R398). -/ abbrev NTU_PORT_MPD : Nat := 0x04005408
/-- NTU_PORT_FIB (R398). -/ abbrev NTU_PORT_FIB : Nat := 0x0400540C
/-- NTU_PORT_STEP (R398). -/ abbrev NTU_PORT_STEP : Nat := 0x04005410
/-- NTU_PORT_STEP_TICK (R398). -/ abbrev NTU_PORT_STEP_TICK : Nat := 0x04005414
/-- NTU_PORT_STEP_NS (R398). -/ abbrev NTU_PORT_STEP_NS : Nat := 0x04005418
/-- FLT_CTRL (R460). -/ abbrev FLT_CTRL : Nat := 0x04006100
/-- FLT_STAT (R460). -/ abbrev FLT_STAT : Nat := 0x04006104
/-- FLT_HIST_PTR (R460). -/ abbrev FLT_HIST_PTR : Nat := 0x0400610C
/-- FLT_SEVERE (R460). -/ abbrev FLT_SEVERE : Nat := 0x04006110
/-- FLT_SEVERE_ADDR (R460). -/ abbrev FLT_SEVERE_ADDR : Nat := 0x04006114
/-- FLT_ECC (R460). -/ abbrev FLT_ECC : Nat := 0x04006118
/-- FLT_PHIST_INFO (R460). -/ abbrev FLT_PHIST_INFO : Nat := 0x0400611C
/-- FLT_PEND (R460). -/ abbrev FLT_PEND : Nat := 0x04006120
/-- FLT_LINK (R460). -/ abbrev FLT_LINK : Nat := 0x04006140
/-- FLT_PIN_EN (R460). -/ abbrev FLT_PIN_EN : Nat := 0x04006160
/-- FLT_HIST (R460). -/ abbrev FLT_HIST : Nat := 0x04006400
/-- FLT_PHIST (R460). -/ abbrev FLT_PHIST : Nat := 0x04006800
/-- RED_CTRL (R434). -/ abbrev RED_CTRL : Nat := 0x04007100
/-- RED_CLAIM (R434). -/ abbrev RED_CLAIM : Nat := 0x04007104
/-- RED_ROLE (R434). -/ abbrev RED_ROLE : Nat := 0x04007108
/-- RED_SEAT (R434). -/ abbrev RED_SEAT : Nat := 0x0400710C
/-- RED_EPOCH (R434). -/ abbrev RED_EPOCH : Nat := 0x04007110
/-- RED_STAT (R434). -/ abbrev RED_STAT : Nat := 0x04007114
/-- RED_CLAIM_RES (R434). -/ abbrev RED_CLAIM_RES : Nat := 0x04007118
/-- RED_CLAIM_TICK (R434). -/ abbrev RED_CLAIM_TICK : Nat := 0x0400711C
/-- RED_CFG (R434). -/ abbrev RED_CFG : Nat := 0x04007120
/-- RED_TRAP (R434). -/ abbrev RED_TRAP : Nat := 0x04007124
/-- RED_SYNC_TICK (R434). -/ abbrev RED_SYNC_TICK : Nat := 0x04007128
/-- RED_SYNC_TICK_HI (R434). -/ abbrev RED_SYNC_TICK_HI : Nat := 0x0400712C
/-- RED_DIV (R434). -/ abbrev RED_DIV : Nat := 0x04007130
/-- RED_DIV_TICK (R434). -/ abbrev RED_DIV_TICK : Nat := 0x04007134
/-- RED_DIV_TICK_HI (R434). -/ abbrev RED_DIV_TICK_HI : Nat := 0x04007138
/-- RED_DIGEST (R434). -/ abbrev RED_DIGEST : Nat := 0x0400713C
/-- RED_MIR (R434). -/ abbrev RED_MIR : Nat := 0x04007154
/-- RED_MIR_CTRL (R434). -/ abbrev RED_MIR_CTRL : Nat := 0x04007158
/-- RED_CNT (R434). -/ abbrev RED_CNT : Nat := 0x04007160
/-- BMX_QUIET_DECODE (R490). -/ abbrev BMX_QUIET_DECODE : Nat := 0x04008100
/-- BMX_PRIO (R490). -/ abbrev BMX_PRIO : Nat := 0x04008110
/-- BMX_PROT (R490). -/ abbrev BMX_PROT : Nat := 0x04008140
/-- BMX_DEC_ADDR (R490). -/ abbrev BMX_DEC_ADDR : Nat := 0x04008160
/-- BMX_DEC_INFO (R490). -/ abbrev BMX_DEC_INFO : Nat := 0x04008164
/-- NVM_STAT (R491). -/ abbrev NVM_STAT : Nat := 0x04009100
/-- NVM_GATED (R491). -/ abbrev NVM_GATED : Nat := 0x04009104
/-- NVM_WORDS (R491). -/ abbrev NVM_WORDS : Nat := 0x04009108
/-- NVM_UC (R491). -/ abbrev NVM_UC : Nat := 0x0400910C
/-- HIF_CTRL (R489). -/ abbrev HIF_CTRL : Nat := 0x0400A100
/-- HIF_STAT (R489). -/ abbrev HIF_STAT : Nat := 0x0400A104
/-- HIF_SMB (R489). -/ abbrev HIF_SMB : Nat := 0x0400A108
/-- HIF_VMAP (R489). -/ abbrev HIF_VMAP : Nat := 0x0400A140
/-- HIF_IPEND (R489). -/ abbrev HIF_IPEND : Nat := 0x0400A200
/-- HIF_ALERT_EN (R489). -/ abbrev HIF_ALERT_EN : Nat := 0x0400A220
/-- HIF_MSIX (R489). -/ abbrev HIF_MSIX : Nat := 0x0400A400
/-- HIF_PBA (R489). -/ abbrev HIF_PBA : Nat := 0x0400A800
/-- EVT_PIN_EN (R274). -/ abbrev EVT_PIN_EN : Nat := 0x0400B100
/-- EVT_PIN_POL (R274). -/ abbrev EVT_PIN_POL : Nat := 0x0400B104
/-- EVT_STUCK (R274). -/ abbrev EVT_STUCK : Nat := 0x0400B108
/-- EVT_PIN_STAT (R274). -/ abbrev EVT_PIN_STAT : Nat := 0x0400B10C
/-- EVT_OUT_CFG (R274). -/ abbrev EVT_OUT_CFG : Nat := 0x0400B110
/-- EVT_OUT_SW (R274). -/ abbrev EVT_OUT_SW : Nat := 0x0400B114
/-- EVT_PIN_CNT (R274). -/ abbrev EVT_PIN_CNT : Nat := 0x0400B118
/-- EVT_LOL_LEVEL (R275). -/ abbrev EVT_LOL_LEVEL : Nat := 0x0400B200
/-- EVT_LOL_CHATTER (R275). -/ abbrev EVT_LOL_CHATTER : Nat := 0x0400B280
/-- EVT_LOL_STUCK (R275). -/ abbrev EVT_LOL_STUCK : Nat := 0x0400B300
/-- BYV_CTRL (R112). -/ abbrev BYV_CTRL : Nat := 0x04010100
/-- BYV_STAT (R112). -/ abbrev BYV_STAT : Nat := 0x04010104
/-- BYV_TRAIN_RES (R112). -/ abbrev BYV_TRAIN_RES : Nat := 0x04010108
/-- BYV_EFE_ID (R112). -/ abbrev BYV_EFE_ID : Nat := 0x04010110
/-- BYV_EFE_ID_HI (R112). -/ abbrev BYV_EFE_ID_HI : Nat := 0x04010114
/-- BYV_EFE_INFO (R112). -/ abbrev BYV_EFE_INFO : Nat := 0x04010118
/-- BYV_DELAY (R112). -/ abbrev BYV_DELAY : Nat := 0x0401011C
/-- BYV_CHANGE (R112). -/ abbrev BYV_CHANGE : Nat := 0x04010120
/-- BYV_CHANGE_TICK (R112). -/ abbrev BYV_CHANGE_TICK : Nat := 0x04010124
/-- BYV_FRM_OK (R112). -/ abbrev BYV_FRM_OK : Nat := 0x04010128
/-- BYV_FRM_LOST (R112). -/ abbrev BYV_FRM_LOST : Nat := 0x0401012C
/-- BYV_FEC_CORR0 (R112). -/ abbrev BYV_FEC_CORR0 : Nat := 0x04010130
/-- BYV_FEC_CORR1 (R112). -/ abbrev BYV_FEC_CORR1 : Nat := 0x04010134
/-- BYV_FEC_UNCORR (R112). -/ abbrev BYV_FEC_UNCORR : Nat := 0x04010138
/-- BYV_DS_LOST (R112). -/ abbrev BYV_DS_LOST : Nat := 0x0401013C
/-- BYV_MISMATCH_CNT (R112). -/ abbrev BYV_MISMATCH_CNT : Nat := 0x04010140
/-- BYV_MISMATCH_TICK (R112). -/ abbrev BYV_MISMATCH_TICK : Nat := 0x04010144
/-- BYV_MISMATCH_TICK_HI (R112). -/ abbrev BYV_MISMATCH_TICK_HI : Nat := 0x04010148
/-- BYV_LOL (R112). -/ abbrev BYV_LOL : Nat := 0x04010150
/-- BYV_LOL_HI (R112). -/ abbrev BYV_LOL_HI : Nat := 0x04010154
/-- BYV_SER_LIMIT (R112). -/ abbrev BYV_SER_LIMIT : Nat := 0x04010158
/-- BYV_LANE_FCNT (R112). -/ abbrev BYV_LANE_FCNT : Nat := 0x0401015C
/-- LEN_CTRL (R185). -/ abbrev LEN_CTRL : Nat := 0x04020100
/-- LEN_STAT (R185). -/ abbrev LEN_STAT : Nat := 0x04020104
/-- LEN_LOAD (R185). -/ abbrev LEN_LOAD : Nat := 0x04020108
/-- LEN_EFAULT_CNT (R185). -/ abbrev LEN_EFAULT_CNT : Nat := 0x0402010C
/-- LEN_IMPL_CNT (R163). -/ abbrev LEN_IMPL_CNT : Nat := 0x04020180
/-- LEN_IMPL_SLOT (R163). -/ abbrev LEN_IMPL_SLOT : Nat := 0x04020184
/-- LEN_FREEZE_CNT (R163). -/ abbrev LEN_FREEZE_CNT : Nat := 0x04020188
/-- LEN_FREEZE_SLOT (R163). -/ abbrev LEN_FREEZE_SLOT : Nat := 0x0402018C
/-- LEN_SKIP_CNT (R163). -/ abbrev LEN_SKIP_CNT : Nat := 0x04020190
/-- LEN_DCLIP_CNT (R163). -/ abbrev LEN_DCLIP_CNT : Nat := 0x04020194
/-- LEN_SATWD_SLOT (R163). -/ abbrev LEN_SATWD_SLOT : Nat := 0x04020198
/-- LPL_CTRL (R183). -/ abbrev LPL_CTRL : Nat := 0x04040100
/-- LPL_GUARANTEE (R183). -/ abbrev LPL_GUARANTEE : Nat := 0x04040104
/-- LPL_STAT (R183). -/ abbrev LPL_STAT : Nat := 0x04040108
/-- LPL_CHK_RES (R183). -/ abbrev LPL_CHK_RES : Nat := 0x0404010C
/-- LPL_CHK_ENTRY (R183). -/ abbrev LPL_CHK_ENTRY : Nat := 0x04040110
/-- LPL_CMT_RES (R183). -/ abbrev LPL_CMT_RES : Nat := 0x04040114
/-- LPL_LOAD (R183). -/ abbrev LPL_LOAD : Nat := 0x04040118
/-- LPL_RET_MASK (R183). -/ abbrev LPL_RET_MASK : Nat := 0x0404011C
/-- LPL_REPACK_RES (R183). -/ abbrev LPL_REPACK_RES : Nat := 0x04040120
/-- LPL_REPACK_TICK (R183). -/ abbrev LPL_REPACK_TICK : Nat := 0x04040124
/-- PRF_CTRL (R159). -/ abbrev PRF_CTRL : Nat := 0x04041100
/-- PRF_STAT (R159). -/ abbrev PRF_STAT : Nat := 0x04041104
/-- PRF_LCMD_OP (R159). -/ abbrev PRF_LCMD_OP : Nat := 0x04041108
/-- PRF_LCMD_RANGE (R159). -/ abbrev PRF_LCMD_RANGE : Nat := 0x0404110C
/-- PRF_LCMD_SEL (R159). -/ abbrev PRF_LCMD_SEL : Nat := 0x04041110
/-- PRF_CMT_RES (R159). -/ abbrev PRF_CMT_RES : Nat := 0x04041114
/-- PRF_SWAP_CNT (R159). -/ abbrev PRF_SWAP_CNT : Nat := 0x04041118
/-- PRF_SWAP_STAT (R159). -/ abbrev PRF_SWAP_STAT : Nat := 0x0404111C
/-- PRF_STATE_CNT0 (R159). -/ abbrev PRF_STATE_CNT0 : Nat := 0x04041120
/-- PRF_STATE_CNT1 (R159). -/ abbrev PRF_STATE_CNT1 : Nat := 0x04041124
/-- PRF_STATE_CNT2 (R159). -/ abbrev PRF_STATE_CNT2 : Nat := 0x04041128
/-- PRF_SATWD (R159). -/ abbrev PRF_SATWD : Nat := 0x0404112C
/-- FAB_CTRL (R212). -/ abbrev FAB_CTRL : Nat := 0x04050100
/-- FAB_STAT (R212). -/ abbrev FAB_STAT : Nat := 0x04050104
/-- FAB_DESC_SRC (R212). -/ abbrev FAB_DESC_SRC : Nat := 0x04050108
/-- FAB_DESC_SRC_HI (R212). -/ abbrev FAB_DESC_SRC_HI : Nat := 0x0405010C
/-- FAB_DESC_RES (R212). -/ abbrev FAB_DESC_RES : Nat := 0x04050110
/-- FAB_TOPO (R212). -/ abbrev FAB_TOPO : Nat := 0x04050114
/-- FAB_TOPO_ID (R212). -/ abbrev FAB_TOPO_ID : Nat := 0x04050118
/-- FAB_IMG_SRC (R212). -/ abbrev FAB_IMG_SRC : Nat := 0x04050120
/-- FAB_IMG_SRC_HI (R212). -/ abbrev FAB_IMG_SRC_HI : Nat := 0x04050124
/-- FAB_IMG_LEN (R212). -/ abbrev FAB_IMG_LEN : Nat := 0x04050128
/-- FAB_IMG_RES (R212). -/ abbrev FAB_IMG_RES : Nat := 0x0405012C
/-- FAB_IMG_PROG (R212). -/ abbrev FAB_IMG_PROG : Nat := 0x04050130
/-- FAB_IN_UNAVAIL (R212). -/ abbrev FAB_IN_UNAVAIL : Nat := 0x04050300
/-- FAB_RETMAP (R212). -/ abbrev FAB_RETMAP : Nat := 0x04050400
/-- RCE_CTRL (R214). -/ abbrev RCE_CTRL : Nat := 0x04051100
/-- RCE_APPLY_REC (R214). -/ abbrev RCE_APPLY_REC : Nat := 0x04051104
/-- RCE_APPLY_TICK (R214). -/ abbrev RCE_APPLY_TICK : Nat := 0x04051108
/-- RCE_APPLY_TICK_HI (R214). -/ abbrev RCE_APPLY_TICK_HI : Nat := 0x0405110C
/-- RCE_APPLY_TIME (R214). -/ abbrev RCE_APPLY_TIME : Nat := 0x04051110
/-- RCE_APPLY_TIME_HI (R214). -/ abbrev RCE_APPLY_TIME_HI : Nat := 0x04051114
/-- RCE_LATE_POLICY (R214). -/ abbrev RCE_LATE_POLICY : Nat := 0x04051118
/-- RCE_APPLY_RES (R214). -/ abbrev RCE_APPLY_RES : Nat := 0x0405111C
/-- RCE_APPLY_AT (R214). -/ abbrev RCE_APPLY_AT : Nat := 0x04051120
/-- RCE_APPLY_AT_HI (R214). -/ abbrev RCE_APPLY_AT_HI : Nat := 0x04051124
/-- RCE_STAT (R214). -/ abbrev RCE_STAT : Nat := 0x04051128
/-- RCE_CUR_GEN (R214). -/ abbrev RCE_CUR_GEN : Nat := 0x0405112C
/-- RCE_CUR_TICK (R214). -/ abbrev RCE_CUR_TICK : Nat := 0x04051130
/-- RCE_CUR_TICK_HI (R214). -/ abbrev RCE_CUR_TICK_HI : Nat := 0x04051134
/-- RCE_CHANGED (R214). -/ abbrev RCE_CHANGED : Nat := 0x04051138
/-- RCE_LAG (R214). -/ abbrev RCE_LAG : Nat := 0x0405113C
/-- RCE_LATE_REQ (R214). -/ abbrev RCE_LATE_REQ : Nat := 0x04051140
/-- RCE_LATE_ACT (R214). -/ abbrev RCE_LATE_ACT : Nat := 0x04051144
/-- RCE_LATE_INFO (R214). -/ abbrev RCE_LATE_INFO : Nat := 0x04051148
/-- RCE_STUCK_CELL (R214). -/ abbrev RCE_STUCK_CELL : Nat := 0x0405114C
/-- RCE_STUCK_TICK (R214). -/ abbrev RCE_STUCK_TICK : Nat := 0x04051150
/-- RCE_QUEUE (R214). -/ abbrev RCE_QUEUE : Nat := 0x04051200
/-- CRS_CTRL (R270). -/ abbrev CRS_CTRL : Nat := 0x04052100
/-- CRS_CMD (R270). -/ abbrev CRS_CMD : Nat := 0x04052104
/-- CRS_BASE_TIME (R270). -/ abbrev CRS_BASE_TIME : Nat := 0x04052108
/-- CRS_BASE_TIME_HI (R270). -/ abbrev CRS_BASE_TIME_HI : Nat := 0x0405210C
/-- CRS_STAT (R270). -/ abbrev CRS_STAT : Nat := 0x04052110
/-- CRS_RES (R270). -/ abbrev CRS_RES : Nat := 0x04052114
/-- CRS_CYCLE_LEN (R270). -/ abbrev CRS_CYCLE_LEN : Nat := 0x04052118
/-- CRS_SLOT_LEFT (R270). -/ abbrev CRS_SLOT_LEFT : Nat := 0x0405211C
/-- CRS_CYCLE_AT (R270). -/ abbrev CRS_CYCLE_AT : Nat := 0x04052120
/-- CRS_CYCLE_AT_HI (R270). -/ abbrev CRS_CYCLE_AT_HI : Nat := 0x04052124
/-- CRS_CMT_AT (R270). -/ abbrev CRS_CMT_AT : Nat := 0x04052128
/-- CRS_CMT_AT_HI (R270). -/ abbrev CRS_CMT_AT_HI : Nat := 0x0405212C
/-- CRS_SHD_COUNT (R270). -/ abbrev CRS_SHD_COUNT : Nat := 0x04052130
/-- CRS_SHD_IDX (R270). -/ abbrev CRS_SHD_IDX : Nat := 0x04052134
/-- CRS_SHD_DATA (R270). -/ abbrev CRS_SHD_DATA : Nat := 0x04052138
/-- CRS_ACT_IDX (R270). -/ abbrev CRS_ACT_IDX : Nat := 0x0405213C
/-- CRS_ACT_DATA (R270). -/ abbrev CRS_ACT_DATA : Nat := 0x04052140
/-- CRS_ACT_COUNT (R270). -/ abbrev CRS_ACT_COUNT : Nat := 0x04052144
/-- PRT_CTRL (R272). -/ abbrev PRT_CTRL : Nat := 0x04053100
/-- PRT_CMD (R272). -/ abbrev PRT_CMD : Nat := 0x04053104
/-- PRT_STAT (R272). -/ abbrev PRT_STAT : Nat := 0x04053108
/-- PRT_RES (R272). -/ abbrev PRT_RES : Nat := 0x0405310C
/-- PRT_CMD_RES (R272). -/ abbrev PRT_CMD_RES : Nat := 0x04053110
/-- PRT_CASE_SEL (R272). -/ abbrev PRT_CASE_SEL : Nat := 0x04053114
/-- PRT_RUN (R272). -/ abbrev PRT_RUN : Nat := 0x04053118
/-- PRT_RUN_WTR (R272). -/ abbrev PRT_RUN_WTR : Nat := 0x0405311C
/-- PRT_RUN_AT (R272). -/ abbrev PRT_RUN_AT : Nat := 0x04053120
/-- PRT_SUB_IDX (R272). -/ abbrev PRT_SUB_IDX : Nat := 0x04053124
/-- PRT_SUB_DATA (R272). -/ abbrev PRT_SUB_DATA : Nat := 0x04053128
/-- PRT_SUBA_IDX (R272). -/ abbrev PRT_SUBA_IDX : Nat := 0x0405312C
/-- PRT_SUBA_DATA (R272). -/ abbrev PRT_SUBA_DATA : Nat := 0x04053130
/-- PRT_FIRE_CNT (R272). -/ abbrev PRT_FIRE_CNT : Nat := 0x04053134
/-- PRT_LAST (R272). -/ abbrev PRT_LAST : Nat := 0x04053138
/-- PRT_LAST_TICK (R272). -/ abbrev PRT_LAST_TICK : Nat := 0x0405313C
/-- PRT_LAST_TICK_HI (R272). -/ abbrev PRT_LAST_TICK_HI : Nat := 0x04053140
/-- PRT_SHD_WIN (R272). -/ abbrev PRT_SHD_WIN : Nat := 0x04053200
/-- PRT_ACT_WIN (R272). -/ abbrev PRT_ACT_WIN : Nat := 0x04053240
/-- PRT_BUSY_MAP (R272). -/ abbrev PRT_BUSY_MAP : Nat := 0x04053280
/-- RSV_CTRL (R240). -/ abbrev RSV_CTRL : Nat := 0x04054100
/-- RSV_SUBMIT (R240). -/ abbrev RSV_SUBMIT : Nat := 0x04054104
/-- RSV_STAT (R240). -/ abbrev RSV_STAT : Nat := 0x04054108
/-- RSV_SUB_RES (R240). -/ abbrev RSV_SUB_RES : Nat := 0x0405410C
/-- RSV_RANGE (R240). -/ abbrev RSV_RANGE : Nat := 0x04054110
/-- RSV_BUDGET (R240). -/ abbrev RSV_BUDGET : Nat := 0x04054114
/-- RSV_DONE (R240). -/ abbrev RSV_DONE : Nat := 0x04054118
/-- RSV_JOB_CNT (R240). -/ abbrev RSV_JOB_CNT : Nat := 0x0405411C
/-- RSV_LAST (R240). -/ abbrev RSV_LAST : Nat := 0x04054120
/-- RSV_JOB_W0 (R240). -/ abbrev RSV_JOB_W0 : Nat := 0x04054400
/-- RSV_JOB_W1 (R240). -/ abbrev RSV_JOB_W1 : Nat := 0x04054404
/-- RSV_JOB_W2 (R240). -/ abbrev RSV_JOB_W2 : Nat := 0x04054408
/-- RSV_JOB_W3 (R240). -/ abbrev RSV_JOB_W3 : Nat := 0x0405440C
/-- RSV_JOB_W4 (R240). -/ abbrev RSV_JOB_W4 : Nat := 0x04054410
/-- RSV_JOB_W5 (R240). -/ abbrev RSV_JOB_W5 : Nat := 0x04054414
/-- RSV_JOB_W6 (R240). -/ abbrev RSV_JOB_W6 : Nat := 0x04054418
/-- RSV_JOB_W7 (R240). -/ abbrev RSV_JOB_W7 : Nat := 0x0405441C
/-- CAL_CTRL (R309). -/ abbrev CAL_CTRL : Nat := 0x04058100
/-- CAL_PASS (R309). -/ abbrev CAL_PASS : Nat := 0x04058104
/-- CAL_INTRUSIVE (R309). -/ abbrev CAL_INTRUSIVE : Nat := 0x04058108
/-- CAL_MIN_LIGHT (R309). -/ abbrev CAL_MIN_LIGHT : Nat := 0x0405810C
/-- CAL_STAB_LIMIT (R309). -/ abbrev CAL_STAB_LIMIT : Nat := 0x04058110
/-- CAL_RETRY (R309). -/ abbrev CAL_RETRY : Nat := 0x04058114
/-- CAL_AVG (R309). -/ abbrev CAL_AVG : Nat := 0x04058118
/-- CAL_HSETTLE (R309). -/ abbrev CAL_HSETTLE : Nat := 0x0405811C
/-- CAL_A_SWEEP (R309). -/ abbrev CAL_A_SWEEP : Nat := 0x04058120
/-- CAL_B_SWEEP (R309). -/ abbrev CAL_B_SWEEP : Nat := 0x04058124
/-- CAL_SWEEP_CFG (R309). -/ abbrev CAL_SWEEP_CFG : Nat := 0x04058128
/-- CAL_TIMEOUT (R309). -/ abbrev CAL_TIMEOUT : Nat := 0x0405812C
/-- CAL_STAT (R309). -/ abbrev CAL_STAT : Nat := 0x04058130
/-- CAL_OP_RES (R309). -/ abbrev CAL_OP_RES : Nat := 0x04058134
/-- CAL_RES_SUM (R309). -/ abbrev CAL_RES_SUM : Nat := 0x04058138
/-- CAL_SEQ_A (R309). -/ abbrev CAL_SEQ_A : Nat := 0x0405813C
/-- CAL_SEQ_B (R309). -/ abbrev CAL_SEQ_B : Nat := 0x04058140
/-- CAL_WIN_SEL (R309). -/ abbrev CAL_WIN_SEL : Nat := 0x04058144
/-- CAL_WIN (R309). -/ abbrev CAL_WIN : Nat := 0x04058180
/-- MEA_CTRL (R307). -/ abbrev MEA_CTRL : Nat := 0x04059100
/-- MEA_WIN (R307). -/ abbrev MEA_WIN : Nat := 0x04059104
/-- MEA_DIV (R307). -/ abbrev MEA_DIV : Nat := 0x04059108
/-- MEA_SLOT_CFG (R307). -/ abbrev MEA_SLOT_CFG : Nat := 0x0405910C
/-- MEA_LOS_THR (R307). -/ abbrev MEA_LOS_THR : Nat := 0x04059110
/-- MEA_LOS_CNT (R307). -/ abbrev MEA_LOS_CNT : Nat := 0x04059114
/-- MEA_ROUTE (R307). -/ abbrev MEA_ROUTE : Nat := 0x04059118
/-- MEA_STAT (R307). -/ abbrev MEA_STAT : Nat := 0x0405911C
/-- MEA_RING_BASE (R307). -/ abbrev MEA_RING_BASE : Nat := 0x04059120
/-- MEA_RING_BASE_HI (R307). -/ abbrev MEA_RING_BASE_HI : Nat := 0x04059124
/-- MEA_RING_SIZE (R307). -/ abbrev MEA_RING_SIZE : Nat := 0x04059128
/-- MEA_RING_WR (R307). -/ abbrev MEA_RING_WR : Nat := 0x0405912C
/-- MEA_RING_RD (R307). -/ abbrev MEA_RING_RD : Nat := 0x04059130
/-- MEA_UPL_CFG (R307). -/ abbrev MEA_UPL_CFG : Nat := 0x04059134
/-- MEA_UPL_DST (R307). -/ abbrev MEA_UPL_DST : Nat := 0x04059138
/-- MEA_UPL_DST_HI (R307). -/ abbrev MEA_UPL_DST_HI : Nat := 0x0405913C
/-- MEA_UPL_RATE (R307). -/ abbrev MEA_UPL_RATE : Nat := 0x04059140
/-- MEA_DROP (R307). -/ abbrev MEA_DROP : Nat := 0x04059144
/-- MEA_WIN_AT (R307). -/ abbrev MEA_WIN_AT : Nat := 0x04059148
/-- MEA_HIST_CFG (R307). -/ abbrev MEA_HIST_CFG : Nat := 0x04059180
/-- MEA_LOS_EN (R307). -/ abbrev MEA_LOS_EN : Nat := 0x04059200
/-- MEA_LOS_MAP (R307). -/ abbrev MEA_LOS_MAP : Nat := 0x04059280
/-- MEA_IMPL_EFE (R307). -/ abbrev MEA_IMPL_EFE : Nat := 0x04059300
/-- PORT_CTRL (R349). -/ abbrev PORT_CTRL : Nat := 0x04060100
/-- PORT_STAT (R349). -/ abbrev PORT_STAT : Nat := 0x04060104
/-- PORT_VLAN (R349). -/ abbrev PORT_VLAN : Nat := 0x04060108
/-- PORT_PAUSE (R349). -/ abbrev PORT_PAUSE : Nat := 0x0406010C
/-- PORT_CV_LIMIT (R349). -/ abbrev PORT_CV_LIMIT : Nat := 0x04060110
/-- PORT_FCNT (R349). -/ abbrev PORT_FCNT : Nat := 0x04060114
/-- PORT_CNT (R349). -/ abbrev PORT_CNT : Nat := 0x04060140
/-- HPT_CTRL (R350). -/ abbrev HPT_CTRL : Nat := 0x040A2100
/-- HPT_RING_BASE_LO (R350). -/ abbrev HPT_RING_BASE_LO : Nat := 0x040A2110
/-- HPT_RING_BASE_HI (R350). -/ abbrev HPT_RING_BASE_HI : Nat := 0x040A2114
/-- HPT_RING_LOG2 (R350). -/ abbrev HPT_RING_LOG2 : Nat := 0x040A2118
/-- HPT_RING_PTR (R350). -/ abbrev HPT_RING_PTR : Nat := 0x040A211C
/-- HPT_BUFSZ (R350). -/ abbrev HPT_BUFSZ : Nat := 0x040A2140
/-- HPT_RX1_MASK (R350). -/ abbrev HPT_RX1_MASK : Nat := 0x040A2144
/-- HPT_CNT (R350). -/ abbrev HPT_CNT : Nat := 0x040A2160
/-- PKT_STAT (R351). -/ abbrev PKT_STAT : Nat := 0x040B0100
/-- PKT_RATE (R351). -/ abbrev PKT_RATE : Nat := 0x040B0104
/-- MGT_CTRL (R351). -/ abbrev MGT_CTRL : Nat := 0x040B0108
/-- MGT_IDLE (R351). -/ abbrev MGT_IDLE : Nat := 0x040B010C
/-- MGT_STAT (R351). -/ abbrev MGT_STAT : Nat := 0x040B0110
/-- MGT_CNT (R351). -/ abbrev MGT_CNT : Nat := 0x040B0120
/-- FWD_CTRL (R352). -/ abbrev FWD_CTRL : Nat := 0x040B1100
/-- FWD_RMAC (R352). -/ abbrev FWD_RMAC : Nat := 0x040B1108
/-- FWD_RMAC_HI (R352). -/ abbrev FWD_RMAC_HI : Nat := 0x040B110C
/-- FWD_AGE (R352). -/ abbrev FWD_AGE : Nat := 0x040B1110
/-- LRN_MOVE_GUARD (R352). -/ abbrev LRN_MOVE_GUARD : Nat := 0x040B1114
/-- FWD_CMD (R352). -/ abbrev FWD_CMD : Nat := 0x040B1118
/-- FWD_CMD_RES (R352). -/ abbrev FWD_CMD_RES : Nat := 0x040B111C
/-- FWD_ENT (R352). -/ abbrev FWD_ENT : Nat := 0x040B1120
/-- FWD_PASS (R352). -/ abbrev FWD_PASS : Nat := 0x040B1140
/-- FWD_PARITY (R352). -/ abbrev FWD_PARITY : Nat := 0x040B1144
/-- FWD_CONFLICT (R352). -/ abbrev FWD_CONFLICT : Nat := 0x040B1148
/-- FWD_PINNED (R352). -/ abbrev FWD_PINNED : Nat := 0x040B114C
/-- FWD_CNT (R352). -/ abbrev FWD_CNT : Nat := 0x040B1160
/-- FWD_STEM_IDX (R352). -/ abbrev FWD_STEM_IDX : Nat := 0x040B1190
/-- FWD_STEM_DATA (R352). -/ abbrev FWD_STEM_DATA : Nat := 0x040B1194
/-- FWD_STEM_DATA4 (R352). -/ abbrev FWD_STEM_DATA4 : Nat := 0x040B11A4
/-- FWD_NH_IDX (R352). -/ abbrev FWD_NH_IDX : Nat := 0x040B11B0
/-- FWD_NH_DATA (R352). -/ abbrev FWD_NH_DATA : Nat := 0x040B11B4
/-- FWD_NH_DATA1 (R352). -/ abbrev FWD_NH_DATA1 : Nat := 0x040B11B8
/-- FWD_NH_DATA2 (R352). -/ abbrev FWD_NH_DATA2 : Nat := 0x040B11BC
/-- FWD_VLAN_IDX (R352). -/ abbrev FWD_VLAN_IDX : Nat := 0x040B11C0
/-- FWD_VLAN_DATA (R352). -/ abbrev FWD_VLAN_DATA : Nat := 0x040B11C4
/-- FWD_VLAN_DATA2 (R352). -/ abbrev FWD_VLAN_DATA2 : Nat := 0x040B11CC
/-- BPM_POOL_CFG0 (R353). -/ abbrev BPM_POOL_CFG0 : Nat := 0x040B2100
/-- BPM_POOL_CFG1 (R353). -/ abbrev BPM_POOL_CFG1 : Nat := 0x040B2104
/-- BPM_POOL_CFG2 (R353). -/ abbrev BPM_POOL_CFG2 : Nat := 0x040B2108
/-- BPM_POOL_CFG3 (R353). -/ abbrev BPM_POOL_CFG3 : Nat := 0x040B210C
/-- BPM_POOL_STAT (R353). -/ abbrev BPM_POOL_STAT : Nat := 0x040B2140
/-- BPM_FREE (R353). -/ abbrev BPM_FREE : Nat := 0x040B2150
/-- BPM_NOBUF (R353). -/ abbrev BPM_NOBUF : Nat := 0x040B2160
/-- BPM_CMD (R353). -/ abbrev BPM_CMD : Nat := 0x040B2170
/-- BPM_CMD_RES (R353). -/ abbrev BPM_CMD_RES : Nat := 0x040B2174
/-- BPM_BAD_FREE (R353). -/ abbrev BPM_BAD_FREE : Nat := 0x040B2178
/-- BPM_BAD_CNT (R353). -/ abbrev BPM_BAD_CNT : Nat := 0x040B217C
/-- BPM_INSP_IDX (R353). -/ abbrev BPM_INSP_IDX : Nat := 0x040B2180
/-- BPM_INSP_DATA (R353). -/ abbrev BPM_INSP_DATA : Nat := 0x040B2184
/-- SCH_SEL (R371). -/ abbrev SCH_SEL : Nat := 0x040B3100
/-- SCH_PORT_CFG (R371). -/ abbrev SCH_PORT_CFG : Nat := 0x040B3104
/-- SCH_Q_CFG (R371). -/ abbrev SCH_Q_CFG : Nat := 0x040B3108
/-- SCH_Q_RATE (R371). -/ abbrev SCH_Q_RATE : Nat := 0x040B310C
/-- SCH_Q_BURST (R371). -/ abbrev SCH_Q_BURST : Nat := 0x040B3110
/-- SCH_Q_CREDIT (R371). -/ abbrev SCH_Q_CREDIT : Nat := 0x040B3114
/-- SCH_Q_STAT (R371). -/ abbrev SCH_Q_STAT : Nat := 0x040B3118
/-- SCH_Q_DEFICIT (R371). -/ abbrev SCH_Q_DEFICIT : Nat := 0x040B311C
/-- SCH_Q_TXFRM (R371). -/ abbrev SCH_Q_TXFRM : Nat := 0x040B3120
/-- GTE_SEL (R372). -/ abbrev GTE_SEL : Nat := 0x040B4100
/-- GTE_ADM_BASE (R372). -/ abbrev GTE_ADM_BASE : Nat := 0x040B4108
/-- GTE_ADM_BASE_HI (R372). -/ abbrev GTE_ADM_BASE_HI : Nat := 0x040B410C
/-- GTE_ADM_CYCLE (R372). -/ abbrev GTE_ADM_CYCLE : Nat := 0x040B4110
/-- GTE_ADM_LEN (R372). -/ abbrev GTE_ADM_LEN : Nat := 0x040B4114
/-- GTE_CMD (R372). -/ abbrev GTE_CMD : Nat := 0x040B4118
/-- GTE_RES (R372). -/ abbrev GTE_RES : Nat := 0x040B411C
/-- GTE_PEND_AT (R372). -/ abbrev GTE_PEND_AT : Nat := 0x040B4120
/-- GTE_PEND_AT_HI (R372). -/ abbrev GTE_PEND_AT_HI : Nat := 0x040B4124
/-- GTE_OPER_BASE (R372). -/ abbrev GTE_OPER_BASE : Nat := 0x040B4128
/-- GTE_OPER_BASE_HI (R372). -/ abbrev GTE_OPER_BASE_HI : Nat := 0x040B412C
/-- GTE_OPER_CYCLE (R372). -/ abbrev GTE_OPER_CYCLE : Nat := 0x040B4130
/-- GTE_OPER_LEN (R372). -/ abbrev GTE_OPER_LEN : Nat := 0x040B4134
/-- GTE_STAT (R372). -/ abbrev GTE_STAT : Nat := 0x040B4138
/-- GTE_OVERSIZE (R372). -/ abbrev GTE_OVERSIZE : Nat := 0x040B413C
/-- GTE_ADM_ENTRY (R372). -/ abbrev GTE_ADM_ENTRY : Nat := 0x040B4200
/-- GTE_OPER_ENTRY (R372). -/ abbrev GTE_OPER_ENTRY : Nat := 0x040B4300
/-- WHL_SEL (R374). -/ abbrev WHL_SEL : Nat := 0x040B5100
/-- WHL_Q_SPB (R374). -/ abbrev WHL_Q_SPB : Nat := 0x040B5104
/-- WHL_Q_WAIT (R374). -/ abbrev WHL_Q_WAIT : Nat := 0x040B5108
/-- WHL_Q_REM (R374). -/ abbrev WHL_Q_REM : Nat := 0x040B510C
/-- WHL_NOW (R374). -/ abbrev WHL_NOW : Nat := 0x040B5110
/-- POL_SEL (R375). -/ abbrev POL_SEL : Nat := 0x040B6100
/-- POL_CFG (R375). -/ abbrev POL_CFG : Nat := 0x040B6104
/-- POL_RATE (R375). -/ abbrev POL_RATE : Nat := 0x040B6108
/-- POL_TOKENS (R375). -/ abbrev POL_TOKENS : Nat := 0x040B610C
/-- POL_CNT (R375). -/ abbrev POL_CNT : Nat := 0x040B6110
/-- POL_ADMIT_DROP (R375). -/ abbrev POL_ADMIT_DROP : Nat := 0x040B6114
/-- POL_ADMIT_ALM (R375). -/ abbrev POL_ADMIT_ALM : Nat := 0x040B6120
/-- POL_ADMIT_MGT (R375). -/ abbrev POL_ADMIT_MGT : Nat := 0x040B6130
/-- ALM_CTRL (R354). -/ abbrev ALM_CTRL : Nat := 0x040B7100
/-- ALM_ETYPE (R354). -/ abbrev ALM_ETYPE : Nat := 0x040B7104
/-- ALM_DA (R354). -/ abbrev ALM_DA : Nat := 0x040B7108
/-- ALM_DA_HI (R354). -/ abbrev ALM_DA_HI : Nat := 0x040B710C
/-- ALM_TX (R354). -/ abbrev ALM_TX : Nat := 0x040B7110
/-- ALM_SEND (R354). -/ abbrev ALM_SEND : Nat := 0x040B7114
/-- ALM_SEQ (R354). -/ abbrev ALM_SEQ : Nat := 0x040B7118
/-- ALM_FWD_MASK (R354). -/ abbrev ALM_FWD_MASK : Nat := 0x040B7120
/-- ALM_ORIG_MASK (R354). -/ abbrev ALM_ORIG_MASK : Nat := 0x040B7130
/-- ALM_IN_LEVEL (R354). -/ abbrev ALM_IN_LEVEL : Nat := 0x040B7140
/-- ALM_IN_CLEAR (R354). -/ abbrev ALM_IN_CLEAR : Nat := 0x040B7148
/-- ALM_CNT (R354). -/ abbrev ALM_CNT : Nat := 0x040B7160
/-- ALM_ORIG_EN (R354). -/ abbrev ALM_ORIG_EN : Nat := 0x040B7200
/-- ALM_IN0 (R354). -/ abbrev ALM_IN0 : Nat := 0x040B7300
/-- ALM_IN1 (R354). -/ abbrev ALM_IN1 : Nat := 0x040B7304

end Sys2Proof.Reg
end

