-- ==== Sys2Proof/Machine/PartsA.lean ====
section
/-! DEFINITION. The parts of the state: bus, faults, resets, time, tick and links. -/

namespace Sys2Proof.Machine

/-- How an access was answered (R475, R483). -/
inductive RespStatus where
  | ok | unsupportedRequest | completerAbort | decodeError | targetError | quiet | held | none
  deriving DecidableEq, Repr

/-- The latest response on the bus matrix. -/
structure Resp where
  master : Nat := 0
  write : Bool := false
  addr : Nat := 0
  status : RespStatus := .none
  data : Word := 0
  deriving DecidableEq, Repr

/-- An access held by R474 until a reset or a stopped clock ends. -/
structure HeldAcc where
  master : Nat
  write : Bool
  addr : Nat
  value : Word
  /-- The bytes of a write to memory. -/
  data : List Byte := []
  deriving DecidableEq, Repr

/-- A commit that waits for its boundary (R477), or one collected in an open takeover (R455). -/
structure PendCommit where
  page : Nat
  /-- The commit tick `k`. -/
  k : Tick
  /-- The boundary at which it takes effect. -/
  b : Tick
  collected : Bool
  /-- It came through the partner's journal (R429). -/
  journal : Bool
  deriving DecidableEq, Repr

/-- What the PCIe function identifies itself with (R5, R462). -/
structure PciId where
  vendor : BitVec 16 := 0x1F4B
  device : BitVec 16 := 0x1024
  revision : BitVec 8 := 0xB0
  deriving DecidableEq, Repr

/-- The bus matrix and the host-facing interfaces. -/
structure BusSt where
  pci : PciId := {}
  last : Resp := {}
  /-- Latched higher words (R474): key master × 2^32 + address. -/
  latch : List (Nat × Word) := []
  held : List HeldAcc := []
  /-- Vectors of pages whose interrupt summary rose, with the message still to be handled (R465). -/
  intRise : List Nat := []
  /-- SMB_ALERT_N driven low (R466). -/
  smbAlert : Bool := false
  /-- The address an SMBus ADDR command set (R485). -/
  smbAddr : Word := 0
  /-- What the latest SMBus READ returned: its status byte and the word (R485). -/
  smbStatus : Nat := 0
  smbData : Word := 0
  /-- PCIE_PERST_N holds the link down (R518). -/
  perst : Bool := false
  deriving DecidableEq, Repr

/-- The JTAG test port (R486). -/
structure JtagSt where
  /-- The instruction register; Test-Logic-Reset selects IDCODE. -/
  ir : Nat := 0x01
  /-- Status captured: 0 OK, 1 error response, 2 busy. -/
  status : Nat := 0
  data : Word := 0
  /-- One of the squelching instructions has been used since the last cold reset. -/
  squelch : Bool := false
  /-- The data register as Capture-DR loads it. -/
  dr : Nat := 0xB10245CB
  deriving DecidableEq, Repr

/-- The fault hub beyond its registers. -/
structure FltSt where
  /-- Number of the latest event since the last cold or warm reset (R446). -/
  seq : Nat := 0
  /-- The flush in progress: its cause (R447). -/
  flush : Option Nat := none
  /-- Flush requests made during a flush, by cause, oldest first. -/
  flushQ : List Nat := []
  /-- Pages whose summary pair is broken or stuck now (R443). -/
  badLink : List Nat := []
  /-- Consecutive fault counts: key page × 65,536 + channel (R436). -/
  runs : Sparse Nat := []
  /-- Retired channels: page × 65,536 + channel. -/
  retired : List Nat := []
  /-- Channels whose latest fault is permanent and that are to retire now (R436). -/
  due : List Nat := []
  /-- A core PLL unlocked for 2 ms or more shows a fault (R533). -/
  pllFault : Bool := false
  /-- The heartbeat has stopped other than by TCK_CTRL.STOP (R448). -/
  hbStop : Bool := false
  /-- Stuck summary pairs: those that failed their latest probe (R443). -/
  stuckLink : List Nat := []
  /-- The device is held in reset, or its start-up stopped (R448, R523). -/
  inReset : Bool := false
  deriving DecidableEq, Repr

/-- Resets and the takeover beyond the GLB registers. -/
structure RstSt where
  /-- Registers written since the management reset: TCK_PERIOD, TCK_PHASE, TCK_SLEW, LPL_GUARANTEE (R456 test 3). -/
  written : List Nat := []
  /-- The boundary of a pending GO. -/
  goAt : Option Tick := none
  /-- ADOPT ends the orphaned state at the next boundary (R458). -/
  adopt : Bool := false
  /-- Pages in soft reset (R449). -/
  srst : List Nat := []
  /-- Byevo ports in their first training attempt since start-up (R521). -/
  firstTry : Nat := 0
  deriving DecidableEq, Repr

/-- The network time unit beyond its registers (R377 to R395). -/
structure NtuSt where
  /-- FRC at the latest boundary, or at the reset, in 2^-16 ns. -/
  frc : BitVec 96 := 0
  /-- Core cycles since then. -/
  cyc : Nat := 0
  rate : BitVec 40 := 0
  offset : BitVec 96 := 0
  /-- Held lower words (R379): address and word. -/
  heldW : List (Nat × Word) := []
  /-- FRC of the latest PPS_IN edge captured. -/
  ppsIn : Option (BitVec 96) := none
  ppsOut : Bool := false
  /-- FRC at which PPS_OUT rose, and at which the present watchdog interval began (R390, R394). -/
  ppsFrom : BitVec 96 := 0
  wdFrom : BitVec 96 := 0
  /-- Rates and offsets of the latest millisecond that are no longer in force: the FRC at which each ended, newest first. -/
  past : List (BitVec 96 × BitVec 40 × BitVec 96) := []
  /-- The latest network time, whole ns, at which PPS_OUT rose. -/
  ppsLast : Option Nat := none
  /-- TCK_NOW at each port's latest MPD write (R396). -/
  mpdAt : Sparse Nat := []
  /-- The boundary of the latest local fabric change on each fibre: key p, or 1,024 + q (R396). -/
  fibCh : Sparse Nat := []
  deriving DecidableEq, Repr

/-- One entry of the two-step match table (R387). -/
structure TcEntry where
  /-- true: written by a Delay_Req; false: by a Sync. -/
  dreq : Bool
  domain : Nat
  srcPort : Nat
  seq : Nat
  egress : Nat
  amount : Int
  /-- FRC at which it was written. -/
  at' : BitVec 96
  deriving DecidableEq, Repr

/-- The Ringmaster beyond its registers (R50 to R72). -/
structure TckSt where
  /-- TCK_NOW. -/
  now : Tick := 0
  /-- The ideal network time of tick `now`, whole ns. -/
  ideal : Nat := 0
  /-- The length chosen for the present tick, in core cycles. -/
  len : Nat := 1000
  /-- The Ringmaster has started since the last cold or warm reset (R526). -/
  everStarted : Bool := false
  /-- The first boundary of an accepted start: tick number and grid time. -/
  startAt : Option (Nat × Nat) := none
  /-- The boundary after which an accepted stop takes effect (R71). -/
  stopAt : Option Tick := none
  /-- The heartbeat line (R68). -/
  hb : Bool := false
  /-- The heartbeat has toggled since the watchdog last saw it lost. -/
  hbAlive : Bool := false
  /-- No compute window opens in the present tick: the transition tick of a shortening (R70). -/
  noWindow : Bool := false
  /-- The first grid point of a changed period, chosen at boundary k - 1 (R70). -/
  transIdeal : Option Nat := none
  /-- The partner's latest boundary relative to the own one, in ns: own minus partner (R67). -/
  partnerErr : Option Int := none
  /-- The tick whose frames have been judged at cycle O. -/
  judged : Option Tick := none
  /-- The tick whose compute window has opened and not closed. -/
  window : Option Tick := none
  /-- The boundary of the last MARKER, which is still sent after a stop (R71). -/
  lastMarker : Option Tick := none
  deriving DecidableEq, Repr

/-- A sense or lane change announced in the downstream frames (R105). -/
structure Announce where
  /-- CHANGE_AT as a full tick number. -/
  tick : Tick
  /-- The period or ALT_FORCE asks for alternating sense from that tick on. -/
  base : Bool
  lanes : Nat
  /-- The tick from whose frame on it is announced. -/
  made : Tick
  /-- It announces a TCK commit. -/
  tck : Bool := false
  deriving DecidableEq, Repr

/-- REQ_ALT of an announcement: alternating sense by the period or ALT_FORCE, or with a lane retired (R58, R105). -/
def Announce.alt (a : Announce) : Bool := a.base || a.lanes != 3

/-- One Byevo port beyond its registers (R82 to R108). -/
structure PortSt where
  /-- Round trips of the ECHO exchanges made, in UI (R85). -/
  echoes : List Nat := []
  /-- An echo measurement is under way: in DELAY, or in RUN after BYV_CTRL.ECHO. -/
  echoing : Bool := false
  /-- The sequence number of the request outstanding. -/
  echoSeq : Nat := 0
  /-- DELAY has completed with result OK and waits for the first start (R521). -/
  delayOk : Bool := false
  /-- Lanes under training, bit k for lane k: all enabled ones in an attempt, the restored ones in RUN (R108). -/
  training : Nat := 0
  /-- Lanes of `training` that have trained. -/
  trained : Nat := 0
  /-- ALIGN blocks seen in their places on each lane, up to 2 (R80): the lane is locked at 2. -/
  align0 : Nat := 0
  align1 : Nat := 0
  /-- Upstream skew measured, lane 1 minus lane 0, in UI. -/
  skew : Int := 0
  /-- The alignment counter sent (R79). -/
  alignTx : Nat := 0
  /-- Consecutive correct upstream frames in SYNC (R82). -/
  good : Nat := 0
  /-- Lanes that lost signal or lock in this tick. -/
  lost : Nat := 0
  /-- Corrected symbols on each lane in this tick. -/
  corr0 : Nat := 0
  corr1 : Nat := 0
  /-- The tick of the latest upstream frame received (R101). -/
  gotTick : Option Tick := none
  /-- Its DS_STAT lanes locked and DS_CORR fields, for R104. -/
  dsLocked : Nat := 3
  dsCorr0 : Nat := 0
  dsCorr1 : Nat := 0
  /-- Its APPLIED field and EPOCH_SEEN. -/
  applied : Nat := 0
  epochSeen : Nat := 0
  /-- Announced changes, newest first. -/
  ann : List Announce := []
  /-- The change that SENSE_SCHED names in the latest upstream frame received (R106). -/
  sched : Option (Tick × Bool) := none
  /-- That change, until it has been taken. -/
  schedDue : Option (Tick × Bool) := none
  /-- Alternating sense in force for the EFE. -/
  alt : Bool := false
  /-- The lanes that the attempt in progress may train: all, or those of a RESTORE in DOWN (R82, R108). -/
  attempt : Nat := 3
  /-- Lanes that failed PMD_TRAIN or LOCK in the latest attempt (R112). -/
  failed : Nat := 0
  /-- Lanes whose ALIGN lock is lost and not yet regained (R80, R104). -/
  unlocked : Nat := 0
  /-- An upstream frame that fails a check of R101 has come in the present tick. -/
  badNow : Bool := false
  /-- R61 is in force on the port. -/
  short : Bool := false
  /-- An ALIGN block waits for a codeword that can carry it (R80). -/
  alignWait : Bool := false
  /-- Lanes in service for the frames sent (R107). -/
  lanesTx : Nat := 0
  deriving DecidableEq, Repr

/-- The header of the latest downstream frame of a port (R90, R92); its drives are those of `drives`. -/
structure DsFrame where
  hasDrives : Bool := false
  act : Bool := false
  seat : Nat := 0
  reqAlt : Bool := false
  lanesNext : Nat := 0
  tick : Tick := 0
  epoch : Nat := 0
  port : Nat := 0
  lanes : Nat := 0
  changeAt : Nat := 0
  period : Nat := 0
  digest : BitVec 32 := 0
  /-- The frame carries records, or would carry them in another role (R422). -/
  records : Bool := false
  /-- The CRC-32C of those records (R422). -/
  recDigest : BitVec 32 := 0
  deriving DecidableEq, Repr

end Sys2Proof.Machine
end

