-- ==== Sys2Proof/Machine/PartsC.lean ====
section
/-! DEFINITION. The parts of the state: supervisory network, scheduling, alarms, management sessions, pairs, supplies and start-up. -/

namespace Sys2Proof.Machine

/-- A buffer of packet memory (R335, R336). -/
structure Buf where
  alloc : Bool := false
  pool : Nat := 0
  owner : Nat := 0
  releaser : Nat := 0
  count : Nat := 0
  rs : Bool := false
  /-- Its bytes; those not listed read as 0. -/
  data : List Byte := []
  deriving DecidableEq, Repr

/-- A recognised PTP message as a queued frame carries it (R381, R386 to R388): what it is, and where it came from. Everything
that a register decides is decided as the frame leaves. -/
structure PtpFix where
  /-- messageType; 15 for a frame that is no PTP message. -/
  typ : Nat := 15
  twoStep : Bool := false
  /-- The host originates it with DIRECT (R388). -/
  direct : Bool := false
  /-- Offset of the PTP message in the frame as transmitted, and of the UDP checksum; 0 for none. -/
  at' : Nat := 0
  udp : Nat := 0
  v4 : Bool := false
  /-- The ingress port and its stamp; none on the host port. -/
  port : Nat := 66
  ingress : Option (BitVec 96) := none
  deriving DecidableEq, Repr

/-- A frame in an egress queue (R331, R335, R356): the buffers it occupies, and how it leaves. The bytes themselves stand in the
buffers. -/
structure QFrame where
  chain : List Nat
  /-- Bytes stored, without FCS. -/
  len : Nat
  /-- Offset of its EtherType as stored. -/
  ofs : Nat := 12
  /-- What stands between addresses and EtherType as it leaves, the 802.1Q tag or nothing; `none`: as stored. -/
  tag : Option (List Byte) := none
  /-- The addresses of a routed frame, and its hop limit (R328). -/
  macs : Option (List Byte) := none
  hop : Option Byte := none
  /-- Freed under the rule of shared frames (R336). -/
  shared : Bool := false
  ptp : PtpFix := {}
  /-- The TX descriptor that waits for this frame's egress stamp, and its FLAGS as posted (R340). -/
  desc : Option (Nat × Nat) := none
  deriving DecidableEq, Repr

/-- Length of a frame as transmitted, without FCS. -/
def QFrame.txLen (f : QFrame) : Nat :=
  max 60 (match f.tag with | some t => 12 + t.length + (f.len - f.ofs) | none => f.len)

/-- An egress queue with its shaper as in force (R356, R359, R365 to R367). -/
structure NetQ where
  frames : List QFrame := []
  mode : Nat := 0
  rate : Nat := 0
  credit : Int := 0
  wait : Nat := 0
  rem_ : Nat := 0
  deficit : Nat := 0
  visited : Bool := false
  /-- RATE was written with FORGIVE 1 since the latest boundary. -/
  forgive : Bool := false
  deriving DecidableEq, Repr

/-- A supervisory port or uplink beyond its registers. -/
structure NetPort where
  /-- The DRR pointer (R359). -/
  ptr : Nat := 0
  /-- FRC at which the frame in transmission ends. -/
  txFree : BitVec 96 := 0
  /-- The link was down at some time in the present 1 ms interval (R315). -/
  down : Bool := true
  /-- A received PAUSE is in force until this FRC (R314). -/
  pauseEnd : Option (BitVec 96) := none
  /-- A PAUSE frame with these quanta waits to be sent (R334, R360). -/
  pausePend : Option Nat := none
  /-- FRC at which the latest PAUSE frame was called for. -/
  pauseAt : BitVec 96 := 0
  /-- A committed gate list waits for its start, in whole ns (R363). -/
  gatePend : Option Nat := none
  /-- A list has started; the entry in force and its gates (R361). -/
  gateOn : Bool := false
  entry : Nat := 0
  gates : Nat := 0xFF
  deriving DecidableEq, Repr

/-- A learn request (R324). -/
structure LearnReq where
  mac : Nat
  vid : Nat
  port : Nat
  deriving DecidableEq, Repr

/-- A record of the conflict tracker (R325): slot, count and the network time of its first conflict, in ns. -/
structure Conflict where
  slot : Nat
  count : Nat
  at' : Nat
  deriving DecidableEq, Repr

/-- A forwarding command that runs, with the entry image it took (R322). -/
structure FwdCmd where
  op : Nat
  port : Nat
  vid : Nat
  head : Nat
  cont : Nat
  deriving DecidableEq, Repr

/-- A management session (R348). -/
structure Session where
  active : Bool := false
  sn : BitVec 64 := 0
  /-- One more than the latest SEQ accepted; 0 before any. -/
  last : Nat := 0
  /-- The key slot its OPEN named. -/
  key : Nat := 0
  /-- Order of its latest valid frame among all, and the FRC of it. -/
  used : Nat := 0
  idleFrom : BitVec 96 := 0
  deriving DecidableEq, Repr

/-- A management REQUEST whose next operation the bus matrix holds (R348, R474): where its RESPONSE goes, the fields it
carries, the operations still to run, and the results so far, each as ADDR and DATA. -/
structure MgtWait where
  port : Nat
  dst : Nat
  vid : Nat
  sess : Nat
  target : Nat
  key : Nat
  sn : BitVec 64
  seq : Nat
  left : List (Nat × Nat)
  done : List (Nat × Nat) := []
  deriving DecidableEq, Repr

/-- The packet engine beyond its registers (R311 to R348, R356 to R370). -/
structure NetSt where
  ports : Sparse NetPort := []
  /-- Egress queues, key port × 8 + queue. -/
  qs : Sparse NetQ := []
  bufs : Sparse Buf := []
  /-- The requester that the allocator's priority order puts first, as numbered in R335 (R332). -/
  rot : Nat := 0
  learn : List LearnReq := []
  conflicts : List Conflict := []
  /-- Stem masks, next hops (word 0 + 2^32 × word 1 + 2^64 × word 2) and VLAN members. -/
  stems : Sparse Nat := []
  nexts : Sparse Nat := []
  vlans : Sparse Nat := []
  cmd : Option FwdCmd := none
  /-- Policer tokens, key port × 8 + class (R368). -/
  tokens : Sparse Nat := []
  /-- The wheel slot's first tick whose WAIT decrement has been made. -/
  wheel : Option Tick := none
  /-- The TX descriptor fetched next, and those whose completion is still to come, oldest first. -/
  fetch : Nat := 0
  txOpen : List Nat := []
  /-- Alarms accepted: ORIGIN, SEQ and the FRC of the acceptance, oldest first (R342). -/
  seen : List (Nat × Nat × BitVec 96) := []
  /-- The last accepted ORIGIN and SEQ of each alarm input. -/
  lastIn : Sparse (Option (Nat × Nat)) := []
  /-- FRC of the forwarding decisions of the latest microsecond (PKT_RATE). -/
  decided : List (BitVec 96) := []
  sessions : Sparse Session := []
  sessOrder : Nat := 0
  /-- REQUEST frames whose operations wait, oldest first. -/
  waits : List MgtWait := []
  /-- The keys in use of the two slots (R471). -/
  key0 : List Byte := []
  key1 : List Byte := []
  deriving DecidableEq, Repr

/-- What the partner's latest HELLO said (R401, R417). -/
structure HelloSt where
  role : Nat
  topoId : Nat
  serve : Bool
  phase : Nat
  node : Nat
  deriving DecidableEq, Repr

/-- The digests of one tick (R419). -/
structure DigestSt where
  tick : Tick
  drive : Nat
  state : Nat
  overrun : Bool
  trigOwn : Bool
  synced : Bool
  /-- The sender's role and epoch, from the frame's header; unused in the own digests. -/
  role : Nat := 0
  epoch : Nat := 0
  deriving DecidableEq, Repr

/-- A journal entry that waits: its address with the type in bits 1:0, and its word (R420). -/
structure JEntry where
  addr : Nat
  word : Nat
  deriving DecidableEq, Repr

/-- What one tick's computations took from outside, kept to bring received contexts and the cut forward (R430). -/
structure PastTick where
  tick : Tick
  sense : Sparse Nat
  bad : List Nat
  targets : List (Nat × Nat)
  ext : TrigSet
  events : List Nat
  ports : Sparse PortSt
  deriving DecidableEq, Repr

/-- The redundancy unit and the mirror link beyond the RED page (R400 to R434). -/
structure RedSt where
  /-- FRC since which ILK_IN has been deasserted; `none` while it is asserted (R406). -/
  ilkFrom : Option (BitVec 96) := some 0
  /-- FRC at which the confirm window opened. -/
  claimFrom : Option (BitVec 96) := none
  /-- A role change waiting for its boundary: boundary and role (R403). -/
  roleAt : Option (Tick × Nat) := none
  /-- RELEASE was written and waits for the next boundary (R410). -/
  release : Bool := false
  /-- An epoch to be adopted from a boundary on (R412). -/
  epochAt : Option (Tick × Nat) := none
  /-- A newer epoch came from an active partner and has not been adopted (R413). -/
  stale : Bool := false
  /-- The role and epoch under which the headers of the present tick's frames left (R403). -/
  hdrRole : Nat := 3
  hdrEpoch : Nat := 0
  /-- The epoch that frames carry until boundary k of a completed claim: k, and the epoch before it (R408). -/
  oldEpoch : Option (Tick × Nat) := none
  hello : Option HelloSt := none
  /-- Epochs of HELLO and DIGEST frames with the FRC of their arrival (R408). -/
  epochs : List (BitVec 96 × Nat) := []
  /-- EPOCH_SEEN values with the tick of their frames (R408). -/
  seen : List (Tick × Nat) := []
  /-- The partner's trigger set received for a tick (R418). -/
  trig : Option (Tick × TrigSet) := none
  /-- The tick whose trigger set has been sent. -/
  trigSent : Option Tick := none
  /-- The trigger set of the present tick is the device's own while a sender was expected. -/
  trigOwn : Bool := false
  /-- The tick of the latest pin event taken from the partner's sets (R424). -/
  pinLast : Sparse Nat := []
  /-- Own digests of the latest closed window, the partner's latest, and the tick compared last. -/
  own : Option DigestSt := none
  part : Option DigestSt := none
  compared : Option Tick := none
  /-- Consecutive missing DIGEST frames (R425). -/
  missRun : Nat := 0
  /-- CATCH_REQ has been sent and CATCH_ACK has not come. -/
  asked : Bool := false
  /-- Sequence numbers expected of SNAP and JOURNAL frames. -/
  snapSeq : Nat := 0
  jSeq : Nat := 0
  /-- Snapshot payload received, in bytes (RED_TRAP.PROGRESS). -/
  snapBytes : Nat := 0
  /-- A run under way in SNAP or JOURNAL entries: next address and words left (R420). -/
  snapRun : Nat × Nat := (0, 0)
  jRun : Nat × Nat := (0, 0)
  /-- Journal entries queued, oldest first (R429). -/
  queue : List JEntry := []
  /-- Words of loop contexts received and not yet installed: capture tick, address, word; and those of the cut. -/
  ctxIn : List (Tick × Nat × Nat) := []
  cutIn : List (Tick × Nat × Nat) := []
  /-- Words of a descriptor received (R424). -/
  descIn : Sparse Nat := []
  past : List PastTick := []
  /-- k_s of SYNC_AT (R431). -/
  syncAt : Option Tick := none
  /-- The active serves a Trapeze: j0 and what has been sent: 0 nothing, 1 the bulk, 2 the loops, 3 the cut. -/
  serve : Option (Tick × Nat) := none
  /-- Writes are journalled (R429), and the entries that wait to be sent. -/
  journal : Bool := false
  jOut : List JEntry := []
  jOutSeq : Nat := 0
  snapOutSeq : Nat := 0
  /-- The lanes that the mirror link's present attempt may train. -/
  attempt : Nat := 15
  /-- Lanes of the mirror link under training, those that have trained, and ALIGN blocks seen in place, 2 bits a lane. -/
  training : Nat := 0
  trained : Nat := 0
  aligned : Nat := 0
  /-- HELLO frames have gone and come since the link's lanes came into service (R415). -/
  helloTx : Bool := false
  helloRx : Bool := false
  echoes : List Nat := []
  echoing : Bool := false
  deriving DecidableEq, Repr

/-- The supply manager beyond the PWR page (R493 to R497). -/
structure PwrSt where
  /-- VIN_A, VIN_B is under voltage (R493); both start invalid. -/
  uvA : Bool := true
  uvB : Bool := true
  /-- FRC since which VIN_A has been valid. -/
  aFrom : BitVec 96 := 0
  /-- The hold-up or shutdown sequence has a flush to make: its cause (R496, R509). -/
  seqCause : Option Nat := none
  /-- THERM_TRIP_N is driven low. -/
  trip : Bool := false
  /-- Counter words of MRAM still to be incremented after the flush (R469, R497). -/
  counters : List Nat := []
  deriving DecidableEq, Repr

/-- A digital die sensor (R499 to R501). -/
structure Sensor where
  /-- Its latest plausible samples, newest first, at most eight. -/
  win : List Int := []
  retired : Bool := false
  /-- Returned to service and not yet valid (R500). -/
  refill : Bool := false
  /-- It was the hottest at its last plausible sample. -/
  wasHot : Bool := false
  deriving DecidableEq, Repr

/-- The thermal manager beyond the THM page. -/
structure ThmSt where
  sensors : Sparse Sensor := []
  /-- Entry counts of WARN, THROTTLE and SHUTDOWN (R502). -/
  cWarn : Nat := 0
  cThr : Nat := 0
  cShut : Nat := 0
  /-- Grid points of 62.5 µs since evaluations began, and at the start of the dwells of R503 and R505. -/
  time : Nat := 0
  dwell : Nat := 0
  cool : Option Nat := none
  /-- ACK has been written since the latest retirement of a freeze. -/
  ack : Bool := false
  deriving DecidableEq, Repr

end Sys2Proof.Machine
end

