-- ==== Sys2Proof/Machine/State.lean ====
section
/-! DEFINITION. The state of the block as plain data: every register, buffer, counter, mode and pin the spec gives it, and
the queue of commands that wait. Each field's default is its value after a cold reset from power-on. -/

namespace Sys2Proof.Machine

/-- Reasons a step can stop with a fault. -/
inductive Fault where
  /-- A command's operands are not ones the sender can give (`Instr.WellFormed` fails). Raised by the meanings that check
  their operands. Safe: the model stops where the hardware can never be. -/
  | illFormed (mnemonic : String)
  deriving DecidableEq, Repr

/-- Reasons a step can be refused. -/
inductive Refusal where
  /-- The command has no meaning in the model yet. Raised by an arm of `exec` only. Safe: the model stops. -/
  | notModelled (mnemonic : String)
  deriving DecidableEq, Repr


/-- The whole state of the block. -/
structure State where
  /-- The register views, sparse over the reset values of `regReset`. -/
  regs : Sparse Word := []
  /-- The values in force of the held pages and of RWS fields, sparse over the reset values (R17, R477). -/
  force : Sparse Word := []
  /-- Addressed memory: state store, context table, loop memory, forwarding table, packet memory, MRAM, working SRAM. -/
  mem : List Host.Cell := []
  /-- Everything sent out of the device, newest first. -/
  outs : List Out := []
  /-- The index of the next free value (the model's own field). -/
  fresh : Nat := 0
  bus : BusSt := {}
  jtag : JtagSt := {}
  flt : FltSt := {}
  rst : RstSt := {}
  commits : List PendCommit := []
  ntu : NtuSt := {}
  tc : List TcEntry := []
  tck : TckSt := {}
  /-- The Byevo ports, by port number. -/
  ports : Sparse PortSt := []
  /-- The latest downstream frame of each port. -/
  dsFrames : Sparse DsFrame := []
  /-- The sense values held, key slot × 4 + channel (R102). -/
  sense : Sparse Nat := []
  /-- Drive codes of each slot in the latest frames with drives: drive A + 65,536 × drive B. -/
  drives : Sparse Nat := []
  topo : Option Topo := none
  /-- The bytes of the descriptor in force (R39, R424). -/
  topoBytes : List Byte := []
  /-- A placement has been committed since the last cold or warm reset (R41). -/
  topoLocked : Bool := false
  /-- Keys slot × 4 + channel of the words that arrived as 0x8000 in the present tick (R49). -/
  bad : List Nat := []
  loops : Sparse Loop := []
  prf : PrfSt := {}
  lpl : LplSt := {}
  rce : RceSt := {}
  crs : CrsSt := {}
  prt : PrtSt := {}
  rsv : RsvSt := {}
  evt : EvtSt := {}
  mea : MeaSt := {}
  cal : CalSt := {}
  net : NetSt := {}
  red : RedSt := {}
  pwr : PwrSt := {}
  thm : ThmSt := {}
  /-- The device is switched off: both supplies lost, or shut down by temperature (R496, R509). -/
  off : Bool := false
  /-- The commands that wait, first in, first out. -/
  pending : List Instr := []
  deriving DecidableEq, Repr

/-- The block right after a cold reset from power-on: every field at the value its default names. -/
def State.reset : State := {}

end Sys2Proof.Machine
end

