-- ==== Sys2Proof/Machine/Ops.lean ====
section
/-! DEFINITION. The named operations over registers, memory, time and the fault hub that every meaning is built from. -/

namespace Sys2Proof.Machine

/-! ### Registers -/

/-- The register view at a key: what software reads (R477). -/
def State.reg (s : State) (k : Nat) : Word := Sparse.get (regReset k) k s.regs

/-- Set a register view. -/
def State.setReg (s : State) (k : Nat) (v : Word) : State :=
  { s with regs := Sparse.put (regReset k) k v s.regs }

/-- Set a register view to the low 32 bits of a number. -/
def State.setRegN (s : State) (k v : Nat) : State := s.setReg k (BitVec.ofNat 32 v)

/-- A field of a register view. -/
def State.fld (s : State) (k lo len : Nat) : Nat := Machine.fld (s.reg k) lo len

/-- A bit of a register view. -/
def State.bit (s : State) (k i : Nat) : Bool := bitOf (s.reg k) i

/-- Set a field of a register view. -/
def State.setFld (s : State) (k lo len v : Nat) : State := s.setReg k (putBits (s.reg k) lo len v)

/-- Set a bit of a register view. -/
def State.setBit (s : State) (k i : Nat) (b : Bool) : State := s.setFld k i 1 (b2n b)

/-- A register of two words, low word first, the high word 4 above it. -/
def State.reg64 (s : State) (k : Nat) : Nat := (s.reg k).toNat + (s.reg (k + 4)).toNat * 0x100000000

/-- Set a register of two words. -/
def State.setReg64 (s : State) (k v : Nat) : State :=
  (s.setRegN k (v % 0x100000000)).setRegN (k + 4) (v / 0x100000000 % 0x100000000)

/-- Add to a counter field that saturates. -/
def State.bump (s : State) (k lo len n : Nat) : State := s.setFld k lo len (satAdd (2 ^ len - 1) (s.fld k lo len) n)

/-- Count one in a whole saturating word. -/
def State.count (s : State) (k : Nat) : State := s.bump k 0 32 1

/-! ### Values in force (R17, R477) -/

/-- The value in force of a register of a held page, or of an RWS field. -/
def State.inForce (s : State) (k : Nat) : Word := Sparse.get (regReset k) k s.force

/-- Set the value in force. -/
def State.setForce (s : State) (k : Nat) (v : Word) : State :=
  { s with force := Sparse.put (regReset k) k v s.force }

/-- A field of the value in force. -/
def State.ffld (s : State) (k lo len : Nat) : Nat := Machine.fld (s.inForce k) lo len

/-- A bit of the value in force. -/
def State.fbit (s : State) (k i : Nat) : Bool := bitOf (s.inForce k) i

/-- GLB_RESET_CAUSE.MSTATE: 0 normal, 1 management reset in progress, 2 orphaned (R459). -/
def State.mstate (s : State) : Nat := s.fld Reg.GLB_RESET_CAUSE 4 2

/-- From the end of a management reset until a takeover or ADOPT the data path is orphaned (R454). -/
def State.orphaned (s : State) : Bool := s.mstate == 2

/-- The class of the page that holds a register. -/
def heldPage (k : Nat) : Bool :=
  match pageInfo? (pageOf (k % 0x100000000)) with
  | some p => decide (p.cls = .held)
  | none => false

/-- Write the RW bits of a configuration register: the view changes, and so does the value in force unless the page is held
and the data path orphaned (R451: the value in force governs until the takeover). -/
def State.setCfg (s : State) (k : Nat) (v : Word) : State :=
  if heldPage k then
    (if s.mstate = 0 then (s.setReg k v).setForce k v else s.setReg k v)
  else s.setReg k v

/-! ### Memory (R467): bytes by internal address; an unlisted byte reads as 0 -/

/-- The header and commit word of a valid microcode bank 0 with SEQ 1 and LENGTH 0, as a device leaves the factory (R560, R472). -/
def factoryBank : List Byte :=
  [0x4B, 0x46, 0x55, 0x43, 0x01, 0x00, 0x00, 0x00, 0x00, 0x00, 0x00, 0x00, 0x01, 0x00, 0x00, 0x00]
    ++ List.replicate 44 (0 : Byte)
    ++ [0x98, 0xB9, 0xC5, 0x55] ++ [0x07, 0xB0, 0x00, 0x00, 0x01, 0x00, 0x00, 0x00]

/-- What a byte that memory does not list reads as: the factory contents of MRAM (R560), and 0 elsewhere (R468, R516). -/
def memDefault (a : Nat) : Byte :=
  if 0x14000000 ≤ a ∧ a < 0x14000048 then factoryBank.getD (a - 0x14000000) 0 else 0

/-- One byte of memory. -/
def State.byte (s : State) (a : Nat) : Byte := Sparse.get (memDefault a) a s.mem

/-- Write one byte of memory. -/
def State.setByte (s : State) (a : Nat) (b : Byte) : State := { s with mem := Sparse.put (memDefault a) a b s.mem }

/-- The `n` bytes from an address. -/
def State.bytes (s : State) (a n : Nat) : List Byte := (List.range n).map fun i => s.byte (a + i)

/-- The little-endian number in `n` bytes from an address. -/
def State.loadN (s : State) (a n : Nat) : Nat := leNat (s.bytes a n)

/-- Put a list of bytes from an address upwards. -/
def State.putBytes (s : State) (a : Nat) : List Byte → State
  | [] => s
  | b :: t => (s.setByte a b).putBytes (a + 1) t

/-- The memory whose writes the active journals: the state store, the context table, the profile banks and the placement set
in its two views (R423, R429). -/
def journaledMem (a : Nat) : Bool :=
  (decide (0x10000000 ≤ a) && decide (a < 0x12810000)) || (decide (0x129A0000 ≤ a) && decide (a < 0x12A20000))

/-- A write takes its place in the journal (R429). -/
def State.journalPut (s : State) (addr word : Nat) : State :=
  { s with red := { s.red with jOut := s.red.jOut ++ [⟨addr, word⟩] } }

/-- The words that a write of `n` bytes at `a` touched go into the journal, while there is one. -/
def State.journalMem (s : State) (a n : Nat) : State :=
  if s.red.journal && journaledMem a then
    (List.range ((a + n + 3) / 4 - a / 4)).foldl (fun (s : State) i =>
      let w := (a / 4 + i) * 4
      s.journalPut w (leNat ((List.range 4).map fun j => s.byte (w + j)))) s
  else s

/-- Write a list of bytes from an address upwards. -/
def State.setBytes (s : State) (a : Nat) (l : List Byte) : State := (s.putBytes a l).journalMem a l.length

/-- Write a number as `n` little-endian bytes. -/
def State.storeN (s : State) (a n v : Nat) : State := s.setBytes a (toLE n v)

/-- Every byte from `lo` up to but not including `hi` returns to 0. -/
def State.clearMem (s : State) (lo hi : Nat) : State :=
  { s with mem := s.mem.filter fun c => decide (c.1 < lo ∨ hi ≤ c.1) }

/-! ### Outputs and free values -/

/-- Something leaves the device. -/
def State.emit (s : State) (o : Out) : State := { s with outs := o :: s.outs }

/-- Take the next free value's index. -/
def State.tick1 (s : State) : State := { s with fresh := s.fresh + 1 }

/-! ### Time (R377, R378) -/

/-- The free-running counter now. -/
def State.frcNow (s : State) : BitVec 96 := s.ntu.frc + BitVec.ofNat 96 (65536 * s.ntu.cyc)

/-- Network time of an FRC value: f + ((f × rate) >> 48) + offset, modulo 2^96 (R378). -/
def netTime (rate : BitVec 40) (offset f : BitVec 96) : BitVec 96 :=
  f + BitVec.ofInt 96 (((f.toNat : Int) * rate.toInt).fdiv (2 ^ 48)) + offset

/-- Network time now. -/
def State.nt (s : State) : BitVec 96 := netTime s.ntu.rate s.ntu.offset s.frcNow

/-- Whole-nanosecond network time now. -/
def State.ntNs (s : State) : Nat := s.nt.toNat / 65536

/-- Time has gone on to `c` core cycles after the latest boundary; it never goes back. -/
def State.atCycle (s : State) (c : Nat) : State := { s with ntu := { s.ntu with cyc := max s.ntu.cyc c } }

/-- How far the FRC has gone since `start`, in its units. -/
def State.gone (s : State) (start : BitVec 96) : Nat := (s.frcNow - start).toNat

/-- Time goes on to the first core cycle at which the FRC has gone `len` on since `start`, for an event whose moment the model's own
state fixes; it stays where it is if the tick ends before that cycle, or if the first boundary of a start is to come (DESIGN CHOICE). -/
def State.comes (s : State) (start : BitVec 96) (len : Nat) : State :=
  let c := s.ntu.cyc + (len - s.gone start + 65535) / 65536
  if (if s.bit Reg.TCK_STAT 0 then decide (c ≤ s.tck.len) else s.tck.startAt.isNone) then s.atCycle c else s

/-- The sample tick now. -/
def State.now (s : State) : Tick := s.tck.now

/-! ### Interrupt and fault summaries (R442, R444, R465) -/

/-- The interrupt summary of a page: INT_STAT AND INT_EN is non-zero (R465). -/
def State.intSummary (s : State) (page : Nat) : Bool :=
  decide ((s.reg (cReg page OFF_INT_STAT)).toNat &&& (s.reg (cReg page OFF_INT_EN)).toNat ≠ 0)

/-- Whether some channel of a page is retired. -/
def State.anyRetired (s : State) (page : Nat) : Bool := s.flt.retired.any fun c => c / 65536 == page

/-- The fault summary of a page (R442), taken as asserted while its link to the hub is broken or stuck (R443). -/
def State.summary (s : State) (page : Nat) : Bool :=
  s.intSummary page || s.anyRetired page || s.flt.badLink.contains page || s.flt.stuckLink.contains page

/-- The word of FLT_PEND, FLT_LINK, FLT_PIN_EN, HIF_IPEND or HIF_ALERT_EN that holds a page's bit (R444). -/
def pageWord (r page : Nat) : Nat := r + 4 * (page / 32)

/-- Set a page's FLT_PEND bit; FLT INT_STAT bit 4 (R444, R461). -/
def State.setPend (s : State) (page : Nat) : State :=
  (s.setBit (pageWord Reg.FLT_PEND page) (page % 32) true).setBit (cReg 6 OFF_INT_STAT) 4 true

/-- What the hub and the interrupt logic do when a page changed from `a`: a risen fault summary sets FLT_PEND (R444), a risen
interrupt summary asks for its MSI-X message (R465) and, where HIF_ALERT_EN says so, drives SMB_ALERT_N (R466). -/
def State.afterRise (a s : State) (page : Nat) : State :=
  let s := if !a.summary page && s.summary page then s.setPend page else s
  if !a.intSummary page && s.intSummary page then
    let b := s.fld (Reg.HIF_VMAP + page / 4 * 4) (page % 4 * 8) 8
    { s with bus := { s.bus with
        intRise := if b ≥ 128 then s.bus.intRise ++ [b % 64] else s.bus.intRise
        smbAlert := s.bus.smbAlert || s.bit (pageWord Reg.HIF_ALERT_EN page) (page % 32) } }
  else s

/-- Run a change of a page's summaries with its consequences, for the page and then for the FLT page itself. -/
def State.withSummary (s : State) (page : Nat) (f : State → State) : State :=
  let t := State.afterRise s (f s) page
  if page = 6 then t else State.afterRise s t 6

/-- An event sets bit `i` of a page's INT_STAT. -/
def State.raise (s : State) (page i : Nat) : State :=
  s.withSummary page fun s => s.setBit (cReg page OFF_INT_STAT) i true

/-- Raise when the condition holds. -/
def State.raiseIf (s : State) (c : Bool) (page i : Nat) : State := if c then s.raise page i else s

/-! ### The history queue (R446) -/

/-- Log an event: source page, class, code, SYNDROME[63:32] and SYNDROME[31:0]. -/
def State.logEvent (s : State) (page cls code hi lo : Nat) : State :=
  let n := s.fld Reg.FLT_HIST_PTR 0 5
  let full := s.bit Reg.FLT_HIST_PTR 5
  let e := Reg.FLT_HIST + 32 * n
  let seq := s.flt.seq + 1
  let s := s.setReg64 e (s.ntNs % 2 ^ 64)
  let s := s.setReg64 (e + 8) s.now.toNat
  let s := s.setRegN (e + 16) (page + cls * 2 ^ 16 + code * 2 ^ 24)
  let s := s.setRegN (e + 20) seq
  let s := s.setRegN (e + 24) lo
  let s := s.setRegN (e + 28) hi
  let s := s.setFld Reg.FLT_HIST_PTR 0 5 ((n + 1) % 32)
  let s := s.setBit Reg.FLT_HIST_PTR 5 (full || n == 31)
  let s := if full then s.bump Reg.FLT_HIST_PTR 16 16 1 else s
  let s := { s with flt := { s.flt with seq := seq } }
  s.raise 6 0

/-! ### Channels, transient and permanent faults (R436 to R439) -/

/-- A channel of a page. -/
def chan (page c : Nat) : Nat := page * 65536 + c

/-- Set a channel's consecutive count. -/
def State.setRun (s : State) (page c n : Nat) : State :=
  { s with flt := { s.flt with runs := Sparse.put 0 (chan page c) n s.flt.runs } }

/-- A channel's consecutive count. -/
def State.run (s : State) (page c : Nat) : Nat := Sparse.get 0 (chan page c) s.flt.runs

/-- The RETIRE threshold of a page; 0 never. -/
def State.retireAt (s : State) (page : Nat) : Nat := s.fld (cReg page OFF_FAULT_CFG) 0 8

/-- Whether a consecutive count is permanent (R436). -/
def State.permanent (s : State) (page n : Nat) : Bool := s.retireAt page != 0 && decide (n ≥ s.retireAt page)

/-- The `n`-th consecutive fault of a channel: permanent at RETIRE, when the channel is to retire; else counted as
transient (R436, R438). -/
def State.judgeFault (s : State) (page c n : Nat) : State :=
  if s.permanent page n then
    { s with flt := { s.flt with due := chan page c :: s.flt.due.filter (· != chan page c) } }
  else s.bump (cReg page OFF_FAULT_CNT) 0 16 1

/-- A channel is to retire now. -/
def State.isDue (s : State) (page c : Nat) : Bool := s.flt.due.contains (chan page c)

/-- A channel need not retire any more. -/
def State.notDue (s : State) (page c : Nat) : State :=
  { s with flt := { s.flt with due := s.flt.due.filter (· != chan page c) } }

/-- One faulty sampling period of channel `c`: the count rises; below RETIRE it is a transient fault, and at RETRY its event
`code` is logged once per run (R436). -/
def State.chanFault (s : State) (page c code synHi : Nat) : State :=
  let n := s.run page c + 1
  let retry := s.fld (cReg page OFF_FAULT_CFG) 8 8
  let s := s.setRun page c n
  let s := s.judgeFault page c n
  if retry != 0 && n == retry then s.logEvent page 1 code synHi n else s

/-- A sampling period without a fault (R436). -/
def State.chanOk (s : State) (page c : Nat) : State :=
  if s.run page c = 0 then s else s.setRun page c 0

/-- Whether a channel is retired. -/
def State.isRetired (s : State) (page c : Nat) : Bool := s.flt.retired.contains (chan page c)

/-- A channel retires in tick `t`: counted, logged with code `code`, and its page's summary is asserted (R436, R442, R446). -/
def State.retireInTick (s : State) (page c code synHi : Nat) (t : Tick) : State :=
  if s.isRetired page c then s.notDue page c else
  let s := s.notDue page c
  let s := s.withSummary page fun s => { s with flt := { s.flt with retired := chan page c :: s.flt.retired } }
  let s := s.bump (cReg page OFF_FAULT_CNT) 16 8 1
  s.logEvent page 2 code synHi (t.toNat % 2 ^ 32)

/-- A channel retires in the present tick. -/
def State.retire (s : State) (page c code synHi : Nat) : State := s.retireInTick page c code synHi s.now

/-- A retired channel returns to service with a consecutive count of 0. -/
def State.unretire (s : State) (page c : Nat) : State :=
  let s := { s with flt := { s.flt with retired := s.flt.retired.filter (· != chan page c) } }
  s.setRun page c 0

/-! ### Commits (R477) -/

/-- The commit that waits, or is collected, on a page. -/
def State.commitOf? (s : State) (page : Nat) : Option PendCommit := s.commits.find? (·.page == page)

/-- Whether a page's COMMIT.PENDING reads 1. -/
def State.pendingOn (s : State) (page : Nat) : Bool := (s.commitOf? page).isSome

/-- Put a page's commit in place of any it has. -/
def State.addCommit (s : State) (c : PendCommit) : State :=
  { s with commits := s.commits.filter (·.page != c.page) ++ [c] }

/-- Remove a page's commit. -/
def State.dropCommit (s : State) (page : Nat) : State :=
  { s with commits := s.commits.filter (·.page != page) }

/-- GLB_TAKEOVER_RES.OPEN. -/
def State.takeoverOpen (s : State) : Bool := s.bit Reg.GLB_TAKEOVER_RES 4

end Sys2Proof.Machine
end

