-- ==== Sys2Proof/Machine/Access.lean ====
section
/-! DEFINITION. The access rules of the register pages and of the bus matrix: held accesses (R474), violations and their
responses (R475, R476), protection (R481), quiet decode (R483), and the write of one register word (R477, R536). -/

namespace Sys2Proof.Machine

/-- Violation kinds of R475. -/
abbrev kDecode : Nat := 0x01
abbrev kReserved : Nat := 0x02
abbrev kWidth : Nat := 0x03
abbrev kReadOnly : Nat := 0x04
abbrev kLocked : Nat := 0x05
abbrev kPending : Nat := 0x06
abbrev kPriv : Nat := 0x07
abbrev kTrunc : Nat := 0x08
abbrev kInUse : Nat := 0x09
abbrev kRole : Nat := 0x0A
abbrev kRefused : Nat := 0x0B
abbrev kEcc : Nat := 0x0C

/-- In recovery mode only GLB, NVM, HIF, BMX and FLT are implemented (R532). -/
def recoveryPage (page : Nat) : Bool := page == 0 || page == 6 || page == 8 || page == 9 || page == 0xA

/-- Start-up found no valid microcode bank: GLB_BOOT reports failure 0x41 (R517, R523). -/
def State.recovery (s : State) : Bool := s.bit Reg.GLB_BOOT 31 && s.fld Reg.GLB_BOOT 8 8 == 0x41

/-- The page position holds an implemented page (R529, R532). -/
def State.implemented (s : State) (page : Nat) : Bool :=
  (pageInfo? page).isSome && (!s.recovery || recoveryPage page)

/-- The page in which a refused access is logged (R467). -/
def State.logPage (s : State) (addr : Nat) : Nat :=
  if addr < 0x00080000 then 0x00A
  else if 0x04000000 ≤ addr ∧ addr < 0x08000000 then (if s.implemented (pageOf addr) then pageOf addr else 0x008)
  else if 0x10000000 ≤ addr ∧ addr < 0x12000000 then 0x051
  else if 0x12000000 ≤ addr ∧ addr < 0x12800000 then 0x052
  else if 0x12800000 ≤ addr ∧ addr < 0x129A0000 then 0x041
  else if 0x129A0000 ≤ addr ∧ addr < 0x12C00000 then 0x040
  else if 0x12C00000 ≤ addr ∧ addr < 0x13000000 then 0x0B1
  else if 0x13000000 ≤ addr ∧ addr < 0x13400000 then 0x0B2
  else if 0x14000000 ≤ addr ∧ addr < 0x16000000 then 0x009
  else 0x008

/-- The target T0 to T7 that an address decodes to (R467). -/
def State.target (s : State) (addr : Nat) : Nat :=
  if addr < 0x00080000 then 6
  else if 0x04000000 ≤ addr ∧ addr < 0x08000000 then (if s.implemented (pageOf addr) then 0 else 7)
  else if 0x10000000 ≤ addr ∧ addr < 0x12000000 then 1
  else if 0x12000000 ≤ addr ∧ addr < 0x12800000 then 2
  else if 0x12800000 ≤ addr ∧ addr < 0x12C00000 then 3
  else if 0x12C00000 ≤ addr ∧ addr < 0x13400000 then 4
  else if 0x14000000 ≤ addr ∧ addr < 0x16000000 then 5
  else 7

/-- The response a violation of a kind gives a master (R475). -/
def refusalStatus (m kind : Nat) : RespStatus :=
  if kind = kTrunc then .none
  else if kind = kDecode ∨ kind = kReserved then (if m = 0 then .unsupportedRequest else .decodeError)
  else (if m = 0 then .completerAbort else .targetError)

/-- The master receives a response. -/
def State.respond (s : State) (m : Nat) (write : Bool) (addr : Nat) (st : RespStatus) (data : Word) : State :=
  { s with bus := { s.bus with last := ⟨m, write, addr, st, data⟩ } }

/-- Log a violation in a page: ERR_ADDR, and ERR_INFO with VALID or OVERFLOW (R475, R476). -/
def State.logViolation (s : State) (page m : Nat) (write : Bool) (addr kind : Nat) : State :=
  let v := s.bit (cReg page OFF_ERR_INFO) 31
  let o := s.bit (cReg page OFF_ERR_INFO) 30
  let s := s.setRegN (cReg page OFF_ERR_ADDR) addr
  s.setRegN (cReg page OFF_ERR_INFO)
    (2 ^ 31 + b2n (v || o) * 2 ^ 30 + m % 16 * 2 ^ 16 + b2n write * 2 ^ 8 + kind)

/-- A refused access: logged, answered with its error and 0, and a refused posted write of M0 sets HIF INT_STAT bit 1. -/
def State.violate (s : State) (m : Nat) (write : Bool) (addr kind : Nat) : State :=
  let s := s.logViolation (s.logPage addr) m write addr kind
  let s := s.respond m write addr (refusalStatus m kind) 0
  s.raiseIf (m == 0 && write && kind != kTrunc) 0x00A 1

/-- An access to T7: logged in BMX_DEC_ADDR and BMX_DEC_INFO, answered quietly or as a violation (R483, R530). -/
def State.decodeErr (s : State) (m : Nat) (write : Bool) (addr : Nat) : State :=
  let q := s.bit Reg.BMX_QUIET_DECODE 0
  let s := s.setRegN Reg.BMX_DEC_ADDR addr
  let c := satAdd 0xFFFF (s.fld Reg.BMX_DEC_INFO 16 16) 1
  let s := s.setRegN Reg.BMX_DEC_INFO (c * 2 ^ 16 + b2n q * 2 ^ 9 + b2n write * 2 ^ 8 + m % 8)
  let s := s.raise 0x008 0
  if q then s.respond m write addr .quiet 0 else s.violate m write addr kDecode

/-- Whether a page is protected from M3 to M6 (R481). -/
def State.protected (s : State) (page : Nat) : Bool :=
  page == 8 || (decide (page < 192) && s.bit (Reg.BMX_PROT + 4 * (page / 32)) (page % 32))

/-- Whether an access to a register page is held by R474: during a management reset for M0 to M2, while the page's block is in
soft reset, while the core clock is stopped (R533), and for good from a hold-up sequence on (R497) and while the device is in reset
(R523). -/
def State.accessHeld (s : State) (m addr : Nat) : Bool :=
  (s.mstate == 1 && decide (m ≤ 2)) || s.rst.srst.contains (pageOf addr) || !s.bit Reg.CLK_STAT 0 || s.pwr.seqCause == some 1
    || s.off || s.flt.inReset

/-- Keep an access until it can complete. -/
def State.holdAccess (s : State) (m : Nat) (write : Bool) (addr : Nat) (v : Word) : State :=
  { s with bus := { s.bus with held := s.bus.held ++ [⟨m, write, addr, v, []⟩], last := ⟨m, write, addr, .held, 0⟩ } }

/-- A master's access is reset: what it held and latched goes (R478). -/
def State.resetMaster (s : State) (m : Nat) : State :=
  { s with bus := { s.bus with
      held := s.bus.held.filter fun h => h.master != m
      latch := s.bus.latch.filter fun e => e.1 / 2 ^ 32 != m } }

/-- The violation, if any, that a 32-bit write to an implemented page meets, before the register's own rule (R475).
In a register that mixes RWS with RW or WO fields, a write is one to the RWS field when it would change it (R477, R71). -/
def State.writeRefusal? (s : State) (m addr : Nat) (v : Word) : Option Nat :=
  let page := pageOf addr
  if decide (3 ≤ m) && decide (m ≤ 6) && s.protected page then some kPriv
  else match regRow? addr with
  | none => some kReserved
  | some (r, _) =>
    if decide (addr % 0x1000 ≥ 0x100) && decide (m ≤ 2) && !s.bit (cReg page OFF_PAGE_CTRL) 0 then some kLocked
    else if r.rw = 0 ∧ r.rws = 0 ∧ r.w1c = 0 ∧ r.wo = 0 ∧ addr % 0x1000 ≠ OFF_FAULT_CFG then some kReadOnly
    else if s.pendingOn page ∧ r.rws ≠ 0 ∧
        ((r.rw = 0 ∧ r.wo = 0) ∨ (s.reg addr ^^^ v) &&& BitVec.ofNat 32 r.rws ≠ 0) then some kPending
    else none

/-- Where the journal carries a register write, if it does (R423, R424, R429): a register with RWS fields and the retirement map
at their own addresses, the windows on the shadow banks at the pseudo-addresses of the words they write. The index that a data
register used stands one before its present value. -/
def State.journalAs? (s : State) (addr : Nat) : Option Nat :=
  if addr = Reg.CRS_SHD_COUNT then some 0xFF402000
  else if addr = Reg.CRS_SHD_DATA then some (0xFF402004 + 4 * ((s.fld Reg.CRS_SHD_IDX 0 10 + 1023) % 1024))
  else if Reg.PRT_SHD_WIN ≤ addr ∧ addr < Reg.PRT_SHD_WIN + 64 then
    some (0xFF504000 + 64 * s.fld Reg.PRT_CASE_SEL 0 8 + (addr - Reg.PRT_SHD_WIN))
  else if addr = Reg.PRT_SUB_DATA then some (0xFF520000 + 4 * ((s.fld Reg.PRT_SUB_IDX 0 14 + 16383) % 16384))
  else if Reg.FAB_RETMAP ≤ addr ∧ addr < Reg.FAB_RETMAP + 2688 then some addr
  else if Reg.EVT_LOL_CHATTER ≤ addr ∧ addr < Reg.EVT_LOL_CHATTER + 128 then some addr
  else match regRow? addr with
    | some (r, _) => if r.rws ≠ 0 ∧ pageOf addr ≠ 0xB4 then some addr else none
    | none => none

/-- A register write goes into the journal, while there is one. -/
def State.journalReg (s : State) (addr : Nat) (v : Word) : State :=
  if !s.red.journal then s
  else if addr = Reg.RCE_CTRL then (if v &&& 0x1C#32 = 0 then s else s.journalPut addr (v &&& 0x1C#32).toNat)
  else match s.journalAs? addr with | some a => s.journalPut a v.toNat | none => s

/-- Words that the device itself wrote at their addresses go into the journal, while there is one. -/
def State.journalWords (s : State) (l : List (Nat × Nat)) : State :=
  if s.red.journal then l.foldl (fun (s : State) e => s.journalPut e.1 e.2) s else s

/-- A 32-bit register write by a master: refused, held, or answered OK with the effect `eff`. -/
def State.gateWrite (s : State) (m addr : Nat) (v : Word) (eff : State → State) : State :=
  if s.off || s.flt.inReset then s.holdAccess m true addr v
  else if s.target addr ≠ 0 then s.decodeErr m true addr
  else if s.accessHeld m addr then s.holdAccess m true addr v
  else match s.writeRefusal? m addr v with
  | some k => s.violate m true addr k
  | none =>
    let t := eff (s.respond m true addr .ok 0)
    if t.bus.last.status = .ok then t.journalReg addr v else t

/-- The register views written since the management reset that R456 asks for (test 3, GLB_TAKEOVER_RES). -/
def State.noteWritten (s : State) (addr : Nat) : State :=
  if s.mstate ≠ 0 ∧ (addr = Reg.TCK_PERIOD ∨ addr = Reg.TCK_PHASE ∨ addr = Reg.TCK_SLEW ∨ addr = Reg.LPL_GUARANTEE) then
    let w := addr :: s.rst.written
    let s := { s with rst := { s.rst with written := w } }
    let s := s.setBit Reg.GLB_TAKEOVER_RES 9 (w.contains Reg.LPL_GUARANTEE)
    s.setBit Reg.GLB_TAKEOVER_RES 8
      (w.contains Reg.TCK_PERIOD && w.contains Reg.TCK_PHASE && w.contains Reg.TCK_SLEW)
  else s

/-- Set the value in force when a condition holds. -/
def State.setForceIf (s : State) (c : Bool) (k : Nat) (v : Word) : State := if c then s.setForce k v else s

/-- A write of the writable fields of a register word whose row is `r`. -/
def State.storeRow (s : State) (key : Nat) (r : RegRow) (v : Word) : State :=
  let rw := BitVec.ofNat 32 r.rw
  let all := BitVec.ofNat 32 (r.rw ||| r.rws)
  ((s.setReg key ((s.reg key &&& ~~~all) ||| (v &&& all))).setForceIf (heldPage key && s.mstate == 0 && r.rw != 0) key
    ((s.inForce key &&& ~~~rw) ||| (v &&& rw))).noteWritten key

/-- The plain write of a register word by its fields' access codes (R536): RW and RWS bits take the value, reserved, RO and
LIVE bits ignore it, WO bits hold nothing; in a held page the RW bits also change the value in force, unless orphaned. -/
def State.storeReg (s : State) (key : Nat) (v : Word) : State :=
  match regRow? (key % 0x100000000) with
  | none => s
  | some (r, _) => s.storeRow key r v

/-- Bits of a register that a W1C write clears: those written as 1 that no persisting condition keeps (R445). -/
def State.clearBits (s : State) (key : Nat) (v : Word) (w1c persist : Nat) : State :=
  let want := v &&& BitVec.ofNat 32 w1c
  let kept := s.reg key &&& want &&& BitVec.ofNat 32 persist
  let s := s.setReg key (s.reg key &&& ~~~(want &&& ~~~kept))
  if want = 0 then s else s.setBit (cReg (pageOf (key % 0x100000000)) OFF_PAGE_STAT) 31 (kept != 0)

/-- A write refused by a rule of the owning chapter (kind REFUSED). -/
def State.refuseWrite (s : State) (m addr : Nat) : State := s.violate m true addr kRefused

end Sys2Proof.Machine
end

