-- ==== Sys2Proof/Machine/Query.lean ====
section
/-! DEFINITION. What one block reads of another: the period in force, the role, the fabric mode, the loops' states, the
reconfigurations scheduled and the state of the ports. -/

namespace Sys2Proof.Machine

/-- The period in force, in core cycles (R50). -/
def State.period (s : State) : Nat := s.ffld Reg.TCK_PERIOD 0 12

/-- The phase in force, in ns. -/
def State.phase (s : State) : Nat := s.ffld Reg.TCK_PHASE 0 12

/-- The slew in force, before the cap of R52. -/
def State.slew (s : State) : Nat := s.ffld Reg.TCK_SLEW 0 5

/-- ALT_FORCE in force (R58). -/
def State.altForce (s : State) : Bool := s.fbit Reg.TCK_CTRL 2

/-- The period that governs the tick starting at boundary `m`: that of a TCK commit due there, else the one in force. -/
def State.periodAt (s : State) (m : Tick) : Nat :=
  match s.commitOf? 0x004 with
  | some c => if c.b = m ∧ !c.collected then s.fld Reg.TCK_PERIOD 0 12 else s.period
  | none => s.period

/-- The role: 0 solo, 1 active, 2 standby-synced, 3 standby-unsynced, 4 diverged (R434). -/
def State.role (s : State) : Nat := s.fld Reg.RED_ROLE 0 3

/-- Role solo or active: the roles that act (R404). -/
def State.roleActs (s : State) : Bool := s.role == 0 || s.role == 1

/-- RED_TRAP.PHASE: other than 0 during a Trapeze (R428). -/
def State.trapPhase (s : State) : Nat := s.fld Reg.RED_TRAP 8 3

/-- The state of a Byevo port beyond its registers. -/
def State.port (s : State) (n : Nat) : PortSt := Sparse.get {} n s.ports

/-- BYV_STAT.STATE (R82). -/
def State.portState (s : State) (n : Nat) : Nat := s.fld (atInst Reg.BYV_STAT n) 12 4

/-- BYV_STAT.LANES_UP. -/
def State.lanesUp (s : State) (n : Nat) : Nat := s.fld (atInst Reg.BYV_STAT n) 10 2

/-- EFE `n` is absent (R42). -/
def State.absent (s : State) (n : Nat) : Bool := s.bit (atInst Reg.BYV_STAT n) 6

/-- Alternating sense in force by the changes announced to EFE `n` (R105, R106). -/
def State.efeAlt (s : State) (n : Nat) : Bool := (s.port n).alt

/-- Some lane of a Byevo port is retired. -/
def State.anyLaneRetired (s : State) : Bool :=
  s.flt.retired.any fun c => decide (0x010 ≤ c / 65536) && decide (c / 65536 < 0x020)

/-- R61 holds on port `n`: a lane retired, or was found retired, while P < 920, and no period of at least 920 has taken effect
since. -/
def State.shortDeg (s : State) (n : Nat) : Bool := (s.port n).short

/-- Every Byevo transmitter is squelched: test instructions, hold-up, thermal shutdown, no power (R486, R496, R509). -/
def State.dark (s : State) : Bool := s.jtag.squelch || s.off || s.pwr.seqCause.isSome || s.flt.inReset

/-- Every mirror transmitter is squelched: hold-up, no power (R496). -/
def State.mirDark (s : State) : Bool := s.off || s.pwr.seqCause == some 1 || s.flt.inReset

/-- The transmitters of port `n` are squelched (R82, R111). -/
def State.squelched (s : State) (n : Nat) : Bool :=
  s.portState n == 0 || s.portState n == 1 || s.portState n == 8 || s.dark

/-- The Ringmaster runs: TCK_STAT.RUNNING. -/
def State.running (s : State) : Bool := s.bit Reg.TCK_STAT 0

/-- The fabric is in carousel mode (R246). -/
def State.carousel (s : State) : Bool := s.bit Reg.CRS_STAT 0

/-- A loop is effectively OFF, HOLD or FROZEN. -/
def Loop.quiet (l : Loop) : Bool := l.eff != .ramp && l.eff != .run

/-- Every loop is OFF, HOLD or FROZEN (R69, R71). -/
def State.loopsQuiet (s : State) : Bool := s.loops.all fun e => e.2.quiet

/-- A reconfiguration is scheduled for boundary `b`: an apply accepted, a START, or the safety net (R69). -/
def State.reconfAt (s : State) (b : Tick) : Bool :=
  s.rce.queue.any (·.b == b)
    || (match s.crs.pend with | some (1, c) => c == b | _ => false) || s.rce.safeAt.contains b

/-- The apply queue holds an entry for boundary `b` or later (R71). -/
def State.applyAtOrAfter (s : State) (b : Tick) : Bool := s.rce.queue.any (fun e => decide (b.toNat ≤ e.b.toNat))

end Sys2Proof.Machine
end

