-- ==== Sys2Proof/Machine/Net.lean ====
section
/-! DEFINITION. Supervisory ports, the Ticket booth and the egress queues' frames (R311 to R316, R331 to R338, R353, R356, R358). -/

namespace Sys2Proof.Machine

/-- Pages of the packet engine. -/
def pSUP (n : Nat) : Nat := 0x060 + n
abbrev pBPM : Nat := 0x0B2
abbrev pPKT : Nat := 0x0B0

/-- A port of 0 to 65 beyond its registers, and change it. -/
def State.netPort (s : State) (n : Nat) : NetPort := Sparse.get {} n s.net.ports
def State.setNetPort (s : State) (n : Nat) (f : NetPort → NetPort) : State :=
  { s with net := { s.net with ports := Sparse.put {} n (f (s.netPort n)) s.net.ports } }

/-- Queue `q` of port `n`, and change it. -/
def State.netQ (s : State) (n q : Nat) : NetQ := Sparse.get {} (8 * n + q) s.net.qs
def State.setNetQ (s : State) (n q : Nat) (f : NetQ → NetQ) : State :=
  { s with net := { s.net with qs := Sparse.put {} (8 * n + q) (f (s.netQ n q)) s.net.qs } }

/-- Counter `i` of PORT_CNT counts one; the host port has none. -/
def State.portCount (s : State) (n i : Nat) : State :=
  if n < 66 then s.count (atInst Reg.PORT_CNT n + 4 * i) else s

/-- A 64-bit octet counter grows; it wraps (R349). -/
def State.octets (s : State) (n i k : Nat) : State :=
  let r := atInst Reg.PORT_CNT n + 4 * i
  if n < 66 then s.setReg64 r ((s.reg64 r + k) % 2 ^ 64) else s

/-- PORT_STAT.LINK and RETIRED. -/
def State.linkUp (s : State) (n : Nat) : Bool := s.bit (atInst Reg.PORT_STAT n) 0
def State.portRetired (s : State) (n : Nat) : Bool := s.bit (atInst Reg.PORT_STAT n) 4

/-! ### Pools and buffers (R331 to R337) -/

/-- MIN and MAX of a pool. -/
def State.poolMin (s : State) (p : Nat) : Nat := s.fld (Reg.BPM_POOL_CFG0 + 16 * p) 0 16
def State.poolMax (s : State) (p : Nat) : Nat := s.fld (Reg.BPM_POOL_CFG0 + 16 * p) 16 16

/-- IN_USE of a pool. -/
def State.inUse (s : State) (p : Nat) : Nat := s.fld (Reg.BPM_POOL_STAT + 4 * p) 0 16

/-- Free buffers (BPM_FREE). -/
def State.freeBufs (s : State) : Nat := 16384 - (s.inUse 0 + s.inUse 1 + s.inUse 2 + s.inUse 3)

/-- The grant rule of R331. -/
def State.grants (s : State) (p : Nat) : Bool :=
  decide (s.inUse p < s.poolMax p) &&
    (decide (s.inUse p < s.poolMin p) ||
      decide (s.freeBufs > (((List.range 4).filter (· != p)).map fun q => s.poolMin q - s.inUse q).foldl (· + ·) 0))

/-- A PAUSE frame is to be sent on a port, at the first moment its transmitter is free; it is gated by role (R316, R334). -/
def State.sendPause (s : State) (n quanta : Nat) : State :=
  let s := s.setNetPort n fun p => { p with pauseAt := s.frcNow }
  if s.roleActs then s.setNetPort n fun p => { p with pausePend := some quanta } else s.portCount n 15

/-- Port `n` starts or stops sending PAUSE under XOFF: at once with PORT_PAUSE quanta, or once with quanta 0 (R334). -/
def State.pauseXoff (s : State) (n : Nat) (on : Bool) : State :=
  (s.setBit (atInst Reg.PORT_STAT n) 6 on).sendPause n (if on then s.fld (atInst Reg.PORT_PAUSE n) 0 16 else 0)

/-- The ports with PAUSE_TX that the XOFF state of pools 0 and 1 concerns. -/
def State.pausePorts (s : State) (p : Nat) : List Nat :=
  (if p = 0 then List.range 64 else if p = 1 then [64, 65] else []).filter fun n => s.bit (atInst Reg.PORT_CTRL n) 3

/-- XOFF of a pool changes (R334). -/
def State.xoffChange (s : State) (p : Nat) (on : Bool) : State :=
  (s.pausePorts p).foldl (fun (s : State) n => s.pauseXoff n on) s

/-- PAUSE_TX of a port has been written (R334, R349): a port that gains it under XOFF sends PAUSE at once; one that loses it
sends no more. -/
def State.pauseTxWritten (s : State) (n : Nat) : State :=
  let on := s.bit (atInst Reg.PORT_CTRL n) 3 && s.bit (Reg.BPM_POOL_STAT + 4 * (if n < 64 then 0 else 1)) 17
  if on == s.bit (atInst Reg.PORT_STAT n) 6 then s
  else if on then s.pauseXoff n true
  else s.setBit (atInst Reg.PORT_STAT n) 6 false

/-- The state of a threshold with hysteresis (R333). -/
def thrState (was : Bool) (use thr hyst : Nat) : Bool :=
  if use ≥ thr then true else if use + hyst < thr then false else was

/-- The three threshold states of a pool follow IN_USE. -/
def State.poolStates (s : State) (p : Nat) : State :=
  let r := Reg.BPM_POOL_STAT + 4 * p
  let c := Reg.BPM_POOL_CFG0 + 16 * p
  let u := s.inUse p
  let h := s.fld (c + 8) 16 16
  let warn := thrState (s.bit r 16) u (s.fld (c + 4) 0 16) h
  let xoff := thrState (s.bit r 17) u (s.fld (c + 4) 16 16) h
  let low := thrState (s.bit r 18) u (s.fld (c + 8) 0 16) h
  let rose := warn && !s.bit r 16
  let turned := xoff != s.bit r 17
  let s := ((s.setBit r 16 warn).setBit r 17 xoff).setBit r 18 low
  let s := s.raiseIf rose pBPM p
  if turned then s.xoffChange p xoff else s

/-- IN_USE of a pool changes. -/
def State.setUse (s : State) (p n : Nat) : State := (s.setFld (Reg.BPM_POOL_STAT + 4 * p) 0 16 n).poolStates p

/-- A buffer. -/
def State.buf (s : State) (h : Nat) : Buf := Sparse.get {} h s.net.bufs
def State.setBuf (s : State) (h : Nat) (f : Buf → Buf) : State :=
  { s with net := { s.net with bufs := Sparse.put {} h (f (s.buf h)) s.net.bufs } }

/-- One of the listed things, where the spec names none: the only one, or a free choice. -/
def State.choose (s : State) (l : List Nat) : Nat × State :=
  match l with
  | [x] => (x, s)
  | _ => (l.getD (Config.pick s.fresh % l.length) 0, s.tick1)

/-- The free buffer an allocation gives. -/
def State.freeBuf (s : State) : Nat × State :=
  s.choose ((List.range 16384).filter fun h => !(s.buf h).alloc)

/-- A requester is refused (R332). -/
def State.noBuffer (s : State) (p : Nat) : State := (s.count (Reg.BPM_NOBUF + 4 * p)).raise pBPM 4

/-- Requester `me` comes before `rivals`, the others that want a buffer in the same cycle (R332). -/
def State.wins (s : State) (me : Nat) (rivals : List Nat) : Bool :=
  let place (r : Nat) : Nat := (r + 71 - s.net.rot % 71) % 71
  rivals.all fun r => decide (place me < place r)

/-- A request for one buffer from pool `p` by an owner, alone in its cycle: the handle, or NO_BUFFER (R331, R332). -/
def State.alloc (s : State) (p owner : Nat) (data : List Byte) : Option Nat × State :=
  if s.grants p then
    let (h, s) := s.freeBuf
    let s := s.setBuf h fun _ => { alloc := true, pool := p, owner := owner, data := data }
    let s := { s with net := { s.net with rot := (s.net.rot + 1) % 71 } }
    (some h, s.setUse p (s.inUse p + 1))
  else (none, s.noBuffer p)

/-- A buffer becomes FREE. -/
def State.unbuf (s : State) (h : Nat) : State :=
  let b := s.buf h
  if b.alloc then (s.setBuf h fun _ => {}).setUse b.pool (s.inUse b.pool - 1) else s

/-- A whole chain becomes FREE. -/
def State.freeChain (s : State) (l : List Nat) : State := l.foldl State.unbuf s

/-- Buffers for a frame of `len` bytes with FCS, of which `data` is known: the chain, or `none` with nothing kept. -/
def State.allocFrame (s : State) (p owner : Nat) (data : List Byte) (len : Nat) : Option (List Nat) × State :=
  let r := (List.range ((len + 255) / 256)).foldl (fun (r : Option (List Nat) × State) i =>
    match r.1 with
    | none => r
    | some l =>
      match r.2.alloc p owner (sliceB data (256 * i) 256) with
      | (some h, s) => (some (l ++ [h]), s)
      | (none, s) => (none, s.freeChain l)) (some [], s)
  r

/-- A destination of a frame has sent it, or dropped it in its own name (R335, R336). -/
def State.release (s : State) (n : Nat) (f : QFrame) : State :=
  if !f.shared then s.freeChain f.chain
  else
    let h := f.chain.headD 0
    let s := if (s.buf h).releaser = n then s.setBuf h fun b => { b with rs := true }
      else s.setBuf h fun b => { b with count := b.count - 1 }
    if (s.buf h).rs && (s.buf h).count == 0 then s.freeChain f.chain else s

/-- A refused free is logged (R337). -/
def State.badFree (s : State) (h agent kind : Nat) : State :=
  let b := s.buf h
  let o := if b.alloc then b.owner else 0xFF
  let s := s.setRegN Reg.BPM_BAD_FREE (2 ^ 31 + kind * 2 ^ 30 + agent * 2 ^ 22 + o * 2 ^ 14 + h)
  (s.count Reg.BPM_BAD_CNT).raise pBPM 5

/-! ### Joining the egress queues (R316, R336, R356) -/

/-- A frame joins queue `q` of port `n`. -/
def State.joinQ (s : State) (n q : Nat) (f : QFrame) : State :=
  s.setNetQ n q fun x => { x with frames := x.frames ++ [f] }

/-- A frame whose chain is allocated is queued on ports of 0 to 65, on each as it leaves there; a device that does not act
discards it (R316). With no destination left the chain is freed. -/
def State.queueOn (s : State) (q : Nat) (chain : List Nat) (dests : List (Nat × QFrame)) : State :=
  if !s.roleActs ∨ dests.isEmpty then
    (dests.foldl (fun (s : State) d => s.portCount d.1 15) s).freeChain chain
  else
    match dests with
    | [d] =>
      let s := chain.foldl (fun (s : State) h => s.setBuf h fun b => { b with owner := d.1 }) s
      s.joinQ d.1 q { d.2 with chain := chain }
    | _ =>
      let rel := (dests.map (·.1)).foldl min (dests.headD (0, { chain := [], len := 0 })).1
      let s := chain.foldl (fun (s : State) h => s.setBuf h fun b => { b with owner := rel }) s
      let s := s.setBuf (chain.headD 0) fun b => { b with releaser := rel, count := dests.length - 1 }
      dests.foldl (fun (s : State) d => s.joinQ d.1 q { d.2 with chain := chain, shared := true }) s

/-- A frame of the device's own from pool 3, or `false` where it finds no buffer. -/
def State.originate (s : State) (owner q : Nat) (data : List Byte) (ports : List Nat) : Bool × State :=
  match s.allocFrame 3 owner data (data.length + 4) with
  | (none, s) => (false, s)
  | (some ch, s) => (true, s.queueOn q ch (ports.map fun n => (n, { chain := ch, len := data.length })))

/-- The bytes of a buffer, all 256. -/
def State.bufBytes (s : State) (h : Nat) : List Byte :=
  let l := (s.buf h).data
  l ++ List.replicate (256 - l.length) (0 : Byte)

/-- A queued frame's bytes as its buffers hold them, and as it would leave now, without FCS (R323, R328, R331). -/
def State.stored (s : State) (f : QFrame) : List Byte := ((f.chain.map s.bufBytes).flatten).take f.len
def State.leaving (s : State) (f : QFrame) : List Byte :=
  let l := s.stored f
  let l := match f.tag with
    | none => l
    | some t =>
      let r := l.drop f.ofs
      let r := match f.hop with | some h => r.set 9 h | none => r
      f.macs.getD (l.take 12) ++ t ++ r
  l ++ List.replicate (60 - l.length) (0 : Byte)

/-! ### Frame bytes -/

/-- The big-endian number of a list of bytes. -/
def beNat (l : List Byte) : Nat := leNat l.reverse

/-- `k` big-endian bytes of a number. -/
def toBE (k n : Nat) : List Byte := (toLE k n).reverse

/-- A frame from its parts: destination, source, an 802.1Q tag or none, and what follows. -/
def frameBytes (da sa : Nat) (tag : Option Nat) (rest : List Byte) : List Byte :=
  toBE 6 da ++ toBE 6 sa ++ (match tag with | some t => toBE 2 0x8100 ++ toBE 2 t | none => []) ++ rest

/-- FWD_RMAC. -/
def State.rmac (s : State) : Nat := s.reg64 Reg.FWD_RMAC % 2 ^ 48

/-- Pad a frame without FCS to the least length. -/
def padFrame (l : List Byte) : List Byte := l ++ List.replicate (60 - l.length) (0 : Byte)

/-! ### Links, faults and retirement of a port (R312 to R315, R355, R358) -/

/-- The link of an enabled port comes up. -/
def State.portLinkUp (s : State) (n : Nat) (an : Bool) : State :=
  let r := atInst Reg.PORT_STAT n
  if !s.bit (atInst Reg.PORT_CTRL n) 0 ∨ s.linkUp n then s
  else
    let s := ((s.setBit r 0 true).setBit r 1 true).setBit r 2 (an && s.bit (atInst Reg.PORT_CTRL n) 1)
    s.raise (pSUP n) 0

/-- The link of a port goes down; `sync` says whether synchronisation or block lock stays. -/
def State.portLinkDown (s : State) (n : Nat) (sync : Bool) : State :=
  let r := atInst Reg.PORT_STAT n
  if !s.linkUp n then s
  else
    let s := ((s.setBit r 0 false).setBit r 1 sync).setBit r 2 false
    (s.setNetPort n fun p => { p with down := true }).raise (pSUP n) 1

/-- Remote fault is received, or no longer. -/
def State.remoteFault (s : State) (n : Nat) (rf : Bool) : State :=
  let r := atInst Reg.PORT_STAT n
  let rose := rf && !s.bit r 3
  (s.setBit r 3 rf).raiseIf rose (pSUP n) 3

/-- The end of a 1 ms interval for an enabled port with `cv` violations counted in it (R315, R436). -/
def State.portInterval (s : State) (n cv : Nat) : State :=
  if !s.bit (atInst Reg.PORT_CTRL n) 0 then s
  else
    let s := s.bump (atInst Reg.PORT_CNT n + 20) 0 32 cv
    let s := s.bump (cReg (pSUP n) OFF_FAULT_CNT) 0 16 cv
    let bad := (s.netPort n).down || !s.linkUp n || decide (cv > s.fld (atInst Reg.PORT_CV_LIMIT n) 0 16)
    let s := s.setNetPort n fun p => { p with down := false }
    if s.portRetired n then s
    else
      let s := if bad then s.chanFault (pSUP n) 0 0x04 0 else s.chanOk (pSUP n) 0
      s.setRegN (atInst Reg.PORT_FCNT n) (min 255 (s.run (pSUP n) 0))

/-- A received PAUSE frame with its quanta (R314): it stops transmission after the frame in progress. -/
def State.pauseRx (s : State) (n quanta : Nat) : State :=
  if !s.bit (atInst Reg.PORT_CTRL n) 4 then s
  else if quanta = 0 then
    (s.setNetPort n fun p => { p with pauseEnd := none }).setBit (atInst Reg.PORT_STAT n) 7 false
  else
    let from' := if (s.netPort n).txFree.toNat > s.frcNow.toNat then (s.netPort n).txFree else s.frcNow
    let len := if n < 64 then quanta * 512 * 65536 else quanta * 512 * 65536 / 25
    (s.setNetPort n fun p => { p with pauseEnd := some (from' + BitVec.ofNat 96 len) }).setBit (atInst Reg.PORT_STAT n) 7 true

/-- The pause time has run out. -/
def State.pauseOver (s : State) (n : Nat) : State :=
  match (s.netPort n).pauseEnd with
  | none => s
  | some e =>
    if s.frcNow.toNat < e.toNat then s
    else (s.setNetPort n fun p => { p with pauseEnd := none }).setBit (atInst Reg.PORT_STAT n) 7 false

/-- A received PAUSE is in force on the port. -/
def State.portPaused (s : State) (n : Nat) : Bool :=
  match (s.netPort n).pauseEnd with | some e => decide (s.frcNow.toNat < e.toNat) | none => false

/-- QUANTA × 256 bit times of port `n` in units of the FRC. -/
def State.pauseGap (s : State) (n : Nat) : Nat :=
  let u := 16777216 * s.fld (atInst Reg.PORT_PAUSE n) 0 16
  if n < 64 then u else (u + 24) / 25

/-- The port sends PAUSE under XOFF, and QUANTA × 256 bit times have gone by: its PAUSE frame is repeated (R334). -/
def State.pauseRepeat (s : State) (n : Nat) : State :=
  if !s.bit (atInst Reg.PORT_STAT n) 6 then s
  else
    let s := s.comes (s.netPort n).pauseAt (s.pauseGap n)
    if s.gone (s.netPort n).pauseAt < s.pauseGap n then s else s.sendPause n (s.fld (atInst Reg.PORT_PAUSE n) 0 16)

/-! ### BPM registers (R353) -/

/-- A pool configuration word that may not be written: MIN above MAX, or the sum of MIN above 16,384. -/
def State.poolCfgBad (s : State) (addr : Nat) (v : Word) : Bool :=
  let p := addr / 16 % 4
  decide (addr % 16 = 0) &&
    (decide (Machine.fld v 0 16 > Machine.fld v 16 16) ||
      decide ((((List.range 4).filter (· != p)).map s.poolMin).foldl (· + ·) (Machine.fld v 0 16) > 16384))

/-- A write of BPM_POOL_CFG. -/
def State.poolCfgWrite (s : State) (m addr : Nat) (v : Word) : State :=
  if s.poolCfgBad addr v then s.refuseWrite m addr
  else (s.storeReg addr v).poolStates (addr / 16 % 4)

/-- BPM_CMD_RES. -/
def State.bpmRes (s : State) (res h : Nat) : State := s.setRegN Reg.BPM_CMD_RES (2 ^ 31 + res * 65536 + h)

/-- BPM_CMD ALLOC: from pool 2 as owner 70. -/
def State.bpmAlloc (s : State) : State :=
  match s.alloc 2 70 [] with
  | (some h, s) => s.bpmRes 0 h
  | (none, s) => s.bpmRes 1 0

/-- BPM_CMD FREE as owner 70: a refused free gets an error response (R337). -/
def State.bpmFree (s : State) (m h : Nat) : State :=
  let b := s.buf h
  if !b.alloc then ((s.refuseWrite m Reg.BPM_CMD).badFree h 70 0).bpmRes 2 h
  else if b.owner ≠ 70 then ((s.refuseWrite m Reg.BPM_CMD).badFree h 70 1).bpmRes 3 h
  else (s.unbuf h).bpmRes 0 h

/-- A write of BPM_CMD. -/
def State.bpmCmd (s : State) (m : Nat) (v : Word) : State :=
  if Machine.fld v 30 2 = 1 then s.bpmAlloc
  else if Machine.fld v 30 2 = 2 then s.bpmFree m (Machine.fld v 0 14)
  else s

/-- BPM_INSP_DATA of the buffer BPM_INSP_IDX names. -/
def State.inspData (s : State) : Nat :=
  let b := s.buf (s.fld Reg.BPM_INSP_IDX 0 14)
  b2n b.alloc * 2 ^ 31 + b2n b.rs * 2 ^ 30 + b.pool * 2 ^ 28 + b.owner * 2 ^ 20 + b.releaser * 2 ^ 12 + b.count % 128

/-! ### The meanings -/

/-- PAUSE_REPEAT (R334). -/
def execPauseRepeat (port : Fin 66) (s : State) : Host.Outcome State Fault Refusal := .next (s.pauseRepeat port)

/-- PAUSE_EXPIRY (R314). -/
def execPauseExpiry (port : Fin 66) (cycle : Nat) (s : State) : Host.Outcome State Fault Refusal :=
  .next ((s.atCycle cycle).pauseOver port)

/-- LINK_UP (R355). -/
def execLinkUp (port : Fin 66) (an : Bool) (s : State) : Host.Outcome State Fault Refusal := .next (s.portLinkUp port an)

/-- LINK_DOWN (R358). -/
def execLinkDown (port : Fin 66) (sync : Bool) (s : State) : Host.Outcome State Fault Refusal :=
  .next (s.portLinkDown port sync)

/-- REMOTE_FAULT (R355). -/
def execRemoteFault (port : Fin 66) (present : Bool) (s : State) : Host.Outcome State Fault Refusal :=
  .next (s.remoteFault port present)

/-- PORT_INTERVAL (R315): the 1 ms interval ends on every port; `cv` gives the violations of the ports that had any. -/
def execPortInterval (cv : List (Fin 66 × Nat)) (s : State) : Host.Outcome State Fault Refusal :=
  .next ((List.range 66).foldl (fun (s : State) n =>
    s.portInterval n (((cv.filter fun e => e.1.val == n).map (·.2)).foldl (· + ·) 0)) s)

/-- ALLOC (R353): BPM_CMD written with OP 1. -/
def execAlloc (m : Fin 8) (s : State) : Host.Outcome State Fault Refusal :=
  .next (s.gateWrite m Reg.BPM_CMD (BitVec.ofNat 32 (2 ^ 30)) State.bpmAlloc)

/-- FREE (R337): BPM_CMD written with OP 2. -/
def execFree (m : Fin 8) (handle : Fin 16384) (s : State) : Host.Outcome State Fault Refusal :=
  .next (s.gateWrite m Reg.BPM_CMD (BitVec.ofNat 32 (2 ^ 31 + handle.val)) fun s => s.bpmFree m handle)

/-- BPM_POOL_CFG_WRITE (R353). -/
def execBpmPoolCfgWrite (m : Fin 8) (pool word : Fin 4) (v : Word) (s : State) : Host.Outcome State Fault Refusal :=
  let a := Reg.BPM_POOL_CFG0 + 16 * pool.val + 4 * word.val
  .next (s.gateWrite m a v fun s => s.poolCfgWrite m a v)

/-! ### Sessions of the management agent (R348, R478) -/

/-- A session. -/
def State.session (s : State) (i : Nat) : Session := Sparse.get ({} : Session) i s.net.sessions
def State.setSession (s : State) (i : Nat) (x : Session) : State :=
  { s with net := { s.net with sessions := Sparse.put {} i x s.net.sessions } }

/-- A session closes (R348, R355): the agent's access is reset, and what the session still had to run is gone (R478). -/
def State.mgtClose (s : State) (i : Nat) : State :=
  let s := { s with net := { s.net with waits := s.net.waits.filter fun w => w.sess != i } }
  (((s.setSession i {}).setBit Reg.MGT_STAT i false).raise pPKT 2).resetMaster 2

end Sys2Proof.Machine
end

