-- ==== Sys2Proof/Machine/Hpt.lean ====
section
/-! DEFINITION. The host port's rings (R319, R339, R340, R350). -/

namespace Sys2Proof.Machine

/-- The HPT page. -/
abbrev pHPT : Nat := 0x0A2

/-- Reason codes of R319. -/
abbrev rHOST : Nat := 0
abbrev rIPV4 : Nat := 1
abbrev rNOROUTE : Nat := 2
abbrev rPROBE : Nat := 3
abbrev rHOP : Nat := 4
abbrev rPTP : Nat := 5
abbrev rALARM : Nat := 6
abbrev rMC6 : Nat := 7
abbrev rBADNH : Nat := 8

/-- A word of ring `r`: 0, 1 BASE; 2 LOG2; 3 TAIL and HEAD. -/
def ringReg (r w : Nat) : Nat := Reg.HPT_RING_BASE_LO + 16 * r + 4 * w

/-- Descriptors of ring `r`. -/
def State.ringLen (s : State) (r : Nat) : Nat := 2 ^ min 16 (max 4 (s.fld (ringReg r 2) 0 5))

/-- HEAD, and the descriptors the device owns. -/
def State.ringHead (s : State) (r : Nat) : Nat := s.fld (ringReg r 3) 0 16 % s.ringLen r
def State.ringOwned (s : State) (r : Nat) : Nat :=
  (s.fld (ringReg r 3) 16 16 % s.ringLen r + s.ringLen r - s.ringHead r) % s.ringLen r

/-- Ring `r` is enabled. -/
def State.ringEn (s : State) (r : Nat) : Bool := if r < 2 then s.bit Reg.HPT_CTRL 0 else s.bit Reg.HPT_CTRL 1

/-- The device writes bytes 0x08 to 0x1F of descriptor `i` of ring `r`. -/
def State.writeDesc (s : State) (r i : Nat) (l : List Byte) : State :=
  s.emit (.hostWrite (s.reg64 (ringReg r 0) + 32 * i + 8) (padTo' 24 l))
where
  /-- Zeros up to `n` bytes. -/
  padTo' (n : Nat) (l : List Byte) : List Byte := l ++ List.replicate (n - l.length) (0 : Byte)

/-- HPT_BUFSZ, within its range. -/
def State.bufSize (s : State) : Nat := min 9216 (max 256 (s.fld Reg.HPT_BUFSZ 0 14 / 64 * 64))

/-- A frame for port 66, without tag and FCS, with its reason and, from ports 0 to 65, its ingress stamp (R319, R339, R340). -/
def State.hostRx (s : State) (reason port vid cls : Nat) (ts : Option (BitVec 96)) (data : List Byte) : State :=
  let r := if s.bit Reg.HPT_RX1_MASK reason then 1 else 0
  let b := s.bufSize
  let n := (data.length + b - 1) / b
  if !s.bit Reg.HPT_CTRL 0 ∨ s.ringOwned r < n then (s.count (Reg.HPT_CNT + 8)).raise pHPT 3
  else
    let head := s.ringHead r
    let flag := port < 66 && s.bit (Reg.NTU_PORT_STEP + 0x20 * port) 31
    let s := (List.range n).foldl (fun (s : State) i =>
      let d := (head + i) % s.ringLen r
      let c := sliceB data (b * i) b
      let flags := b2n (i == 0) + 2 * b2n (i + 1 == n) + 4 * b2n ts.isSome + 8 * b2n (ts.isSome && flag)
      (s.emit (.hostBuf r d c)).writeDesc r d (toLE 2 c.length ++ toLE 1 port ++ toLE 1 reason
        ++ toLE 2 (vid % 4096 + 4096 * cls) ++ toLE 2 flags ++ toLE 12 (ts.getD 0).toNat)) s
    let s := s.setFld (ringReg r 3) 0 16 ((head + n) % s.ringLen r)
    (s.count (Reg.HPT_CNT + 4 * r)).raise pHPT r

/-- TX descriptor `i` completes with a status and an egress stamp. -/
def State.txDone (s : State) (i status : Nat) (flags : Nat) (len port prio vid : Nat) (ts : BitVec 96) : State :=
  let s := s.writeDesc 2 i (toLE 2 len ++ toLE 1 port ++ toLE 1 prio ++ toLE 2 vid ++ toLE 2 (flags % 32768)
    ++ toLE 12 ts.toNat ++ toLE 1 status)
  let s := s.count (Reg.HPT_CNT + (if status = 0 then 12 else 16))
  (s.raise pHPT 2).raiseIf (status != 0) pHPT 4

/-- HEAD of the TX ring follows the oldest descriptor whose completion is still to come. -/
def State.txHead (s : State) : State := s.setFld (ringReg 2 3) 0 16 (s.net.txOpen.headD s.net.fetch)

/-- A descriptor whose completion waited for its frame's end completes: TS, FLAGS as posted with OWN 0, and STATUS. -/
def State.txClose (s : State) (d : Nat × Nat) (ts : BitVec 96) (status : Nat) : State :=
  let a := s.reg64 (ringReg 2 0) + 32 * d.1
  let s := s.emit (.hostWrite (a + 0x10) (toLE 12 ts.toNat ++ toLE 1 status ++ toLE 3 0))
  let s := s.emit (.hostWrite (a + 0x0E) (toLE 2 (d.2 % 32768)))
  let s := { s with net := { s.net with txOpen := s.net.txOpen.filter (· != d.1) } }
  let s := s.count (Reg.HPT_CNT + (if status = 0 then 12 else 16))
  ((s.raise pHPT 2).raiseIf (status != 0) pHPT 4).txHead

/-- The descriptor that waits for a frame which is not sent completes with a STATUS, free where the spec names none. -/
def State.endDesc (s : State) (f : QFrame) (status : Option Nat) : State :=
  match f.desc with
  | none => s
  | some d => (match status with
    | some x => s.txClose d 0 x
    | none => s.tick1.txClose d 0 (1 + Config.pick s.fresh % 4))

/-- A frame that left its queue is dropped, its buffers freed in the port's name. -/
def State.dropFrame (s : State) (n : Nat) (f : QFrame) (status : Option Nat) : State := (s.release n f).endDesc f status

/-- The queues of a port are emptied, each frame dropped with `status` (R358). -/
def State.emptyQueues (s : State) (n : Nat) (status : Option Nat) : State :=
  (List.range 8).foldl (fun (s : State) q =>
    let l := (s.netQ n q).frames
    let s := s.setNetQ n q fun x => { x with frames := [], deficit := 0 }
    l.foldl (fun (s : State) f => s.dropFrame n f status) s) s

/-- The device acts no longer: what waits to leave on ports 0 to 65 is discarded and counted as gated (R316, R360). -/
def State.gatePorts (s : State) : State :=
  (List.range 66).foldl (fun (s : State) n =>
    let k := ((List.range 8).map fun q => (s.netQ n q).frames.length).foldl (· + ·) 0 + b2n (s.netPort n).pausePend.isSome
    if k = 0 then s
    else
      let s := (s.setNetPort n fun p => { p with pausePend := none }).emptyQueues n (some 1)
      s.bump (atInst Reg.PORT_CNT n + 60) 0 32 k) s

/-- A write of HPT_CTRL (R350). -/
def State.hptCtrlWrite (s : State) (v : Word) : State :=
  let idle := s.fld Reg.HPT_CTRL 0 2 == 0
  let s := s.storeReg Reg.HPT_CTRL v
  if bitOf v 2 && idle then
    let s := (List.range 3).foldl (fun (s : State) r => s.setRegN (ringReg r 3) 0) s
    { s with net := { s.net with fetch := 0, txOpen := [] } }
  else s

/-- The ring register at `addr` is BASE or LOG2 of a ring that is enabled. -/
def State.ringLocked (s : State) (addr : Nat) : Bool :=
  (addr - Reg.HPT_RING_BASE_LO) % 16 != 12 && s.ringEn ((addr - Reg.HPT_RING_BASE_LO) / 16)

/-- A write of a ring register: BASE and LOG2 are ignored while the ring is enabled. -/
def State.ringWrite (s : State) (addr : Nat) (v : Word) : State := if s.ringLocked addr then s else s.storeReg addr v

/-- RESET_RINGS (R350): HPT_CTRL written with RESET_RINGS and with its enables as they are. -/
def execResetRings (m : Fin 8) (s : State) : Host.Outcome State Fault Refusal :=
  let v := BitVec.ofNat 32 (s.fld Reg.HPT_CTRL 0 2 + 4)
  .next (s.gateWrite m Reg.HPT_CTRL v fun s => s.hptCtrlWrite v)

end Sys2Proof.Machine
end

