-- ==== Sys2Proof/Machine/Ntu.lean ====
section
/-! DEFINITION. Network time (R377 to R399): rate, offset and step, the time states, the sync watchdog, PPS and path-delay
steps. The transparent clock stands with the frames, in Sched.lean and Frames.lean. -/

namespace Sys2Proof.Machine

/-- The NTU page. -/
abbrev pNTU : Nat := 0x005

/-- A write to an NTU register discards the held lower words of every other register (R379): `grp` lists the words kept. -/
def State.ntuDiscard (s : State) (grp : List Nat) : State :=
  { s with ntu := { s.ntu with heldW := s.ntu.heldW.filter fun e => grp.contains e.1 } }

/-- The held lower word, or `d` where none is held. -/
def State.heldWord (s : State) (a d : Nat) : Nat :=
  match s.ntu.heldW.find? (·.1 == a) with
  | some e => e.2.toNat
  | none => d

/-- Hold a lower word of NTU_RATE, NTU_OFFSET or NTU_STEP. -/
def State.holdWord (s : State) (a : Nat) (v : Word) (grp : List Nat) : State :=
  let s := s.ntuDiscard grp
  { s with ntu := { s.ntu with heldW := (a, v) :: s.ntu.heldW.filter (·.1 != a) } }

/-- The words of NTU_RATE, of NTU_OFFSET and of NTU_STEP. -/
def grpRate : List Nat := [Reg.NTU_RATE, Reg.NTU_RATE_HI]
def grpOffset : List Nat := [Reg.NTU_OFFSET, Reg.NTU_OFFSET + 4, Reg.NTU_OFFSET + 8]
def grpStep : List Nat := [Reg.NTU_STEP, Reg.NTU_STEP_HI]

/-- The time state: 0 FREE, 1 LOCKED, 2 HOLDOVER. -/
def State.ntuState (s : State) : Nat := s.fld Reg.NTU_STAT 0 2

/-- A write of NTU_RATE, NTU_OFFSET or NTU_STEP in HOLDOVER is refused, and reported in INT_STAT bit 1 (R389, R399). -/
def State.unlessHoldover (s : State) (m addr : Nat) (f : State → State) : State :=
  if s.ntuState = 2 then (s.refuseWrite m addr).raise pNTU 1 else f s

/-- Another rate and offset come into force now; those in force until now are kept for 1 ms, for stamps whose moment lies before. -/
def State.setClock (s : State) (rate : BitVec 40) (offset : BitVec 96) : State :=
  let old := s.ntu.past.filter fun e => decide ((s.frcNow - e.1).toNat < 1000000 * 65536)
  { s with ntu := { s.ntu with rate := rate, offset := offset, past := (s.frcNow, s.ntu.rate, s.ntu.offset) :: old } }

/-- Network time at an FRC value at most 1 ms back, by the rate and offset then in force (R378). -/
def State.ntAt (s : State) (f : BitVec 96) : BitVec 96 :=
  match s.ntu.past.reverse.find? fun e => decide (f.toNat < e.1.toNat) with
  | some e => netTime e.2.1 e.2.2 f
  | none => netTime s.ntu.rate s.ntu.offset f

/-- The rate takes effect: network time stays continuous at the present FRC value (R379). -/
def State.setRate (s : State) (r : BitVec 40) : State :=
  let f : Int := s.frcNow.toNat
  let d := (f * s.ntu.rate.toInt).fdiv (2 ^ 48) - (f * r.toInt).fdiv (2 ^ 48)
  s.setClock r (s.ntu.offset + BitVec.ofInt 96 d)

/-- The high word of NTU_RATE is written. -/
def State.rateWrite (s : State) (v : Word) : State :=
  let lo := s.heldWord Reg.NTU_RATE (s.ntu.rate.toNat % 2 ^ 32)
  (s.setRate (BitVec.ofNat 40 (lo + v.toNat % 256 * 2 ^ 32))).ntuDiscard []

/-- The top word of NTU_OFFSET is written. -/
def State.offsetWrite (s : State) (v : Word) : State :=
  let o := s.ntu.offset.toNat
  let w0 := s.heldWord Reg.NTU_OFFSET (o % 2 ^ 32)
  let w1 := s.heldWord (Reg.NTU_OFFSET + 4) (o / 2 ^ 32 % 2 ^ 32)
  (s.setClock s.ntu.rate (BitVec.ofNat 96 (w0 + w1 * 2 ^ 32 + v.toNat * 2 ^ 64))).ntuDiscard []

/-- The high word of NTU_STEP is written: the step is added to the offset. -/
def State.stepWrite (s : State) (v : Word) : State :=
  let d := sx 64 (s.heldWord Reg.NTU_STEP 0 + v.toNat * 2 ^ 32)
  (s.setClock s.ntu.rate (s.ntu.offset + BitVec.ofInt 96 d)).ntuDiscard []

/-- The watchdog's count starts from COUNT, with a fresh interval from now (R390). -/
def State.wdStart (s : State) : State :=
  let s := s.setRegN Reg.NTU_WD_LEFT (s.fld Reg.NTU_SYNC_WD 0 8)
  { s with ntu := { s.ntu with wdFrom := s.frcNow } }

/-- A sync is registered: REGISTERED, and the count back to COUNT (R390). -/
def State.registerSync (s : State) : State := (s.setBit Reg.NTU_STAT 3 true).wdStart

/-- Enter a time state (R389, R390). -/
def State.enterTime (s : State) (st : Nat) : State :=
  let s := s.setFld Reg.NTU_STAT 0 2 st
  let s := s.setBit Reg.NTU_STAT 3 false
  let s := if st = 1 then s.wdStart else s
  s.raiseIf (st == 2) pNTU 0

/-- The outcome of a request: 0 OK, 1 NO_SYNC, 2 SAME, 3 NOT_LOCKED; a refusal sets INT_STAT bit 1 (R389, R399). -/
def State.reqRes (s : State) (r : Nat) : State :=
  (s.setFld Reg.NTU_STAT 4 4 r).raiseIf (r == 1 || r == 3) pNTU 1

/-- Request LOCK. -/
def State.reqLock (s : State) : State :=
  if s.ntuState = 1 then s.reqRes 2
  else if s.bit Reg.NTU_STAT 3 || s.fld Reg.NTU_SYNC_WD 0 8 == 0 then (s.enterTime 1).reqRes 0
  else s.reqRes 1

/-- Request HOLD. -/
def State.reqHold (s : State) : State :=
  if s.ntuState = 2 then s.reqRes 2
  else if s.ntuState = 1 then (s.enterTime 2).reqRes 0
  else s.reqRes 3

/-- Request FREE. -/
def State.reqFree (s : State) : State :=
  if s.ntuState = 0 then s.reqRes 2 else (s.enterTime 0).reqRes 0

/-- A write to NTU_CTRL: SYNC first, then the request (R389). -/
def State.ntuCtrl (s : State) (sync : Bool) (req : Nat) : State :=
  let s := s.ntuDiscard []
  let s := if sync then s.registerSync else s
  if req = 1 then s.reqLock else if req = 2 then s.reqHold else if req = 3 then s.reqFree else s

/-- Length of a watchdog interval, 2^LOG_INT s in units of the FRC (R390, R398). -/
def State.wdLength (s : State) : Nat :=
  let k := clip (-7) 4 (sx 8 (s.fld Reg.NTU_SYNC_WD 8 8))
  512000000000 * 2 ^ (k + 7).toNat

/-- Watchdog intervals end, as many as have gone by up to now; the next starts where one ends (R390). -/
def State.wdInterval : Nat → State → State
  | 0, s => s
  | fuel + 1, s =>
    let n := s.fld Reg.NTU_WD_LEFT 0 8
    if n = 0 ∨ s.fld Reg.NTU_SYNC_WD 0 8 = 0 ∨ s.gone s.ntu.wdFrom < s.wdLength then s
    else
      let s := { s with ntu := { s.ntu with wdFrom := s.ntu.wdFrom + BitVec.ofNat 96 s.wdLength } }
      let s := s.setRegN Reg.NTU_WD_LEFT (n - 1)
      State.wdInterval fuel (if n = 1 ∧ s.ntuState = 1 then s.enterTime 2 else s)

/-- Time goes on to the end of the watchdog interval, while the watchdog counts. -/
def State.wdComes (s : State) : State :=
  if s.fld Reg.NTU_WD_LEFT 0 8 = 0 ∨ s.fld Reg.NTU_SYNC_WD 0 8 = 0 then s else s.comes s.ntu.wdFrom s.wdLength

/-- NTU_NODE is written: 16,383 is refused (R392). -/
def State.nodeWrite (s : State) (m : Nat) (v : Word) : State :=
  if v.toNat % 2 ^ 14 = 16383 then s.refuseWrite m Reg.NTU_NODE
  else (s.ntuDiscard []).storeReg Reg.NTU_NODE v

/-- Word `w` of the port block of port `n`. -/
def ntuPort (n w : Nat) : Nat := Reg.NTU_PORT_RXADJ + 0x20 * n + 4 * w

/-- The signed difference of two MPD values in whole ns: exact where it is one, rounded down where it is positive, and free
where a negative difference has a fraction, for which the spec states no rounding. -/
def mpdStepNs (d : Int) : Nat :=
  if d ≥ 0 ∨ d % 256 = 0 then low 32 (d / 256) else (Config.mpdStepRound d).toNat

/-- Fibre key of a port: IPp as p, OPq as 1,024 + q (R396). -/
def State.portFibre (s : State) (n : Nat) : Nat :=
  s.fld (ntuPort n 3) 0 10 + 1024 * s.fld (ntuPort n 3) 10 1

/-- MPD of port `n` is written: a difference above PTD_STEP sets DELAY_STEP and STEP_NS, and FABRIC with STEP_TICK when a
change of the port's fibre took effect since the previous MPD write (R395, R396). -/
def State.mpdWrite (s : State) (n : Nat) (v : Word) : State :=
  let s := s.ntuDiscard []
  let old : Int := (s.reg (ntuPort n 2)).toNat
  let d : Int := (v.toNat : Int) - old
  let prev := Sparse.get 0 n s.ntu.mpdAt
  let ch := Sparse.get 0 (s.portFibre n) s.ntu.fibCh
  let s := s.setReg (ntuPort n 2) v
  let s := { s with ntu := { s.ntu with mpdAt := Sparse.put 0 n s.now.toNat s.ntu.mpdAt } }
  if d.natAbs > 256 * s.fld Reg.NTU_PTD_STEP 0 20 then
    let s := s.setBit (ntuPort n 4) 31 true
    let s := s.setRegN (ntuPort n 6) (mpdStepNs d)
    let fab := s.bit (ntuPort n 3) 31 && decide (ch > prev)
    let s := s.setBit (ntuPort n 4) 30 fab
    let s := if fab then s.setRegN (ntuPort n 5) (ch % 2 ^ 32) else s
    s.raise pNTU 2
  else s

/-- The offset of PPS_OUT, clipped to its range (R398). -/
def State.ppsOfs (s : State) : Int := clip (-500000000) 499999999 (s.reg Reg.NTU_PPS_OFS).toInt

/-- The number of PPS seconds begun at a whole-ns network time. -/
def State.ppsSec (s : State) (ns : Nat) : Int := ((ns : Int) - s.ppsOfs).fdiv 1000000000

/-- A rising edge of PPS_IN at cycle `c` (R393). -/
def State.ppsIn (s : State) (c : Nat) : State :=
  let s := s.atCycle c
  let f := s.frcNow
  let recent := match s.ntu.ppsIn with
    | some p => decide ((f - p).toNat < 1000000 * 65536)
    | none => false
  let s := { s with ntu := { s.ntu with ppsIn := some f } }
  if recent then s else
  let t := s.nt.toNat
  let s := s.setRegN Reg.NTU_PPS_IN_TS t
  let s := s.setRegN (Reg.NTU_PPS_IN_TS + 4) (t / 2 ^ 32)
  let s := s.setRegN (Reg.NTU_PPS_IN_TS + 8) (t / 2 ^ 64)
  s.raise pNTU 3

/-- Network time at cycle `c` has reached the next second plus OUT_OFS: PPS_OUT rises (R394). -/
def State.ppsRise (s : State) (c : Nat) : State :=
  let s := s.atCycle c
  let due := match s.ntu.ppsLast with
    | some l => decide (s.ppsSec s.ntNs > s.ppsSec l)
    | none => true
  if s.bit Reg.NTU_PPS_CFG 31 && due then
    { s with ntu := { s.ntu with ppsOut := true, ppsLast := some s.ntNs, ppsFrom := s.frcNow } }
  else s

/-- PPS_OUT goes low. -/
def State.ppsLow (s : State) : State := { s with ntu := { s.ntu with ppsOut := false } }

/-- High time of PPS_OUT, WIDTH ms in units of the FRC (R398). -/
def State.ppsWidth (s : State) : Nat := 65536000000 * min 999 (max 1 (s.fld Reg.NTU_PPS_CFG 0 10))

/-- PPS_OUT falls WIDTH ms of the FRC after it rose (R394). -/
def State.ppsFall (s : State) : State :=
  if !s.ntu.ppsOut then s
  else
    let s := s.comes s.ntu.ppsFrom s.ppsWidth
    if s.gone s.ntu.ppsFrom < s.ppsWidth then s else s.ppsLow

/-- A write of NTU_PPS_CFG: PPS_OUT is low while OUT_EN is 0, and the first pulse waits for the next second (R394). -/
def State.ppsCfgWrite (s : State) (v : Word) : State :=
  let was := s.bit Reg.NTU_PPS_CFG 31
  let s := s.storeReg Reg.NTU_PPS_CFG v
  if !bitOf v 31 then s.ppsLow
  else if was then s
  else { s with ntu := { s.ntu with ppsLast := some s.ntNs } }

/-- A plain write within the NTU page, with its rule of R379, R392, R394 and R395. -/
def State.ntuWrite (s : State) (m addr : Nat) (v : Word) : State :=
  if addr = Reg.NTU_CTRL then s.ntuCtrl (bitOf v 4) (Machine.fld v 0 2)
  else if addr = Reg.NTU_RATE then s.unlessHoldover m addr fun s => s.holdWord addr v grpRate
  else if addr = Reg.NTU_RATE_HI then s.unlessHoldover m addr fun s => (s.ntuDiscard grpRate).rateWrite v
  else if addr = Reg.NTU_OFFSET ∨ addr = Reg.NTU_OFFSET + 4 then
    s.unlessHoldover m addr fun s => s.holdWord addr v grpOffset
  else if addr = Reg.NTU_OFFSET + 8 then s.unlessHoldover m addr fun s => (s.ntuDiscard grpOffset).offsetWrite v
  else if addr = Reg.NTU_STEP then s.unlessHoldover m addr fun s => s.holdWord addr v grpStep
  else if addr = Reg.NTU_STEP_HI then s.unlessHoldover m addr fun s => (s.ntuDiscard grpStep).stepWrite v
  else if addr = Reg.NTU_NODE then s.nodeWrite m v
  else if addr = Reg.NTU_PPS_CFG then (s.ntuDiscard []).ppsCfgWrite v
  else if Reg.NTU_PORT_RXADJ ≤ addr ∧ addr % 0x20 = 8 then s.mpdWrite ((addr - Reg.NTU_PORT_RXADJ) / 0x20) v
  else (s.ntuDiscard []).storeReg addr v

/-! ### The meanings -/

/-- NTU_RATE_WRITE (R379): the high word of NTU_RATE. -/
def execNtuRateWrite (m : Fin 8) (v : Word) (s : State) : Host.Outcome State Fault Refusal :=
  .next (s.gateWrite m Reg.NTU_RATE_HI v fun s =>
    s.unlessHoldover m Reg.NTU_RATE_HI fun s => (s.ntuDiscard grpRate).rateWrite v)

/-- NTU_OFFSET_WRITE (R379): the top word of NTU_OFFSET. -/
def execNtuOffsetWrite (m : Fin 8) (v : Word) (s : State) : Host.Outcome State Fault Refusal :=
  .next (s.gateWrite m (Reg.NTU_OFFSET + 8) v fun s =>
    s.unlessHoldover m (Reg.NTU_OFFSET + 8) fun s => (s.ntuDiscard grpOffset).offsetWrite v)

/-- NTU_STEP_WRITE (R379): the high word of NTU_STEP. -/
def execNtuStepWrite (m : Fin 8) (v : Word) (s : State) : Host.Outcome State Fault Refusal :=
  .next (s.gateWrite m Reg.NTU_STEP_HI v fun s =>
    s.unlessHoldover m Reg.NTU_STEP_HI fun s => (s.ntuDiscard grpStep).stepWrite v)

/-- LOCK (R389): a write to NTU_CTRL with REQ 1, with or without SYNC. -/
def execLock (m : Fin 8) (sync : Bool) (s : State) : Host.Outcome State Fault Refusal :=
  .next (s.gateWrite m Reg.NTU_CTRL (BitVec.ofNat 32 (1 + 16 * b2n sync)) fun s => s.ntuCtrl sync 1)

/-- HOLD (R389): a write to NTU_CTRL with REQ 2, with or without SYNC. -/
def execHold (m : Fin 8) (sync : Bool) (s : State) : Host.Outcome State Fault Refusal :=
  .next (s.gateWrite m Reg.NTU_CTRL (BitVec.ofNat 32 (2 + 16 * b2n sync)) fun s => s.ntuCtrl sync 2)

/-- NTU_FREE (R389): a write to NTU_CTRL with REQ 3, with or without SYNC. -/
def execNtuFree (m : Fin 8) (sync : Bool) (s : State) : Host.Outcome State Fault Refusal :=
  .next (s.gateWrite m Reg.NTU_CTRL (BitVec.ofNat 32 (3 + 16 * b2n sync)) fun s => s.ntuCtrl sync 3)

/-- SYNC (R390): a write to NTU_CTRL with SYNC alone. -/
def execSync (m : Fin 8) (s : State) : Host.Outcome State Fault Refusal :=
  .next (s.gateWrite m Reg.NTU_CTRL 16 fun s => s.ntuCtrl true 0)

/-- SYNC_WD_INTERVAL (R390). -/
def execSyncWdInterval (s : State) : Host.Outcome State Fault Refusal := .next (State.wdInterval 256 s.wdComes)

/-- NODE_WRITE (R392). -/
def execNodeWrite (m : Fin 8) (v : Word) (s : State) : Host.Outcome State Fault Refusal :=
  .next (s.gateWrite m Reg.NTU_NODE v fun s => s.nodeWrite m v)

/-- MPD_WRITE (R395). -/
def execMpdWrite (m : Fin 8) (port : Fin 66) (v : Word) (s : State) : Host.Outcome State Fault Refusal :=
  .next (s.gateWrite m (ntuPort port 2) v fun s => s.mpdWrite port v)

/-- PPS_IN_EDGE (R393). -/
def execPpsInEdge (cycle : Nat) (s : State) : Host.Outcome State Fault Refusal := .next (s.ppsIn cycle)

/-- PPS_OUT_RISE (R394). -/
def execPpsOutRise (cycle : Nat) (s : State) : Host.Outcome State Fault Refusal := .next (s.ppsRise cycle)

/-- PPS_OUT_FALL (R394). -/
def execPpsOutFall (s : State) : Host.Outcome State Fault Refusal := .next s.ppsFall

end Sys2Proof.Machine
end

