-- ==== Sys2Proof/Machine/Sched.lean ====
section
/-! DEFINITION. Egress scheduling (R356 to R376): deficit round robin, gate lists, the credit shaper, the Ferris wheel and the
Turnstile's buckets, with the corrections of PTP messages as they leave (R386 to R388). -/

namespace Sys2Proof.Machine

abbrev pGTE : Nat := 0x0B4
abbrev pPOL : Nat := 0x0B6

/-! ### Lengths (R357) -/

/-- OVH of a port. -/
def State.ovh (s : State) (n : Nat) : Nat := s.fld (copyOf n Reg.SCH_PORT_CFG) 0 8

/-- Counted length of a frame's bytes without FCS on port `n`. -/
def State.clen (s : State) (n : Nat) (f : QFrame) : Nat := f.txLen + 4 + s.ovh n

/-- Transmission time of a counted length, in ns. -/
def txTime (n c : Nat) : Nat := if n < 64 then 8 * c else (32 * c + 99) / 100

/-! ### Gate lists (R361 to R364) -/

/-- A gate list that starts at `start`, in whole ns: entries of gates and interval. -/
structure GateList where
  start : Nat
  cycle : Nat
  entries : List (Nat × Nat)
  deriving DecidableEq, Repr

/-- The entries of a list held in registers from `r`, of port `n`. -/
def State.gateEntries (s : State) (n r len : Nat) : List (Nat × Nat) :=
  (List.range (min 64 len)).map fun i => (s.fld (copyOf n (r + 4 * i)) 24 8, s.fld (copyOf n (r + 4 * i)) 0 24)

/-- The operational list, if one has started. -/
def State.operList (s : State) (n : Nat) : Option GateList :=
  if (s.netPort n).gateOn then
    some ⟨s.reg64 (copyOf n Reg.GTE_OPER_BASE), s.fld (copyOf n Reg.GTE_OPER_CYCLE) 0 32,
      s.gateEntries n Reg.GTE_OPER_ENTRY (s.fld (copyOf n Reg.GTE_OPER_LEN) 0 7)⟩
  else none

/-- The administrative list, starting at the time a commit gave it. -/
def State.pendList (s : State) (n : Nat) : Option GateList :=
  (s.netPort n).gatePend.map fun st => ⟨st, s.fld (copyOf n Reg.GTE_ADM_CYCLE) 0 32,
    s.gateEntries n Reg.GTE_ADM_ENTRY (s.fld (copyOf n Reg.GTE_ADM_LEN) 0 7)⟩

/-- The entry in force at offset `x` (in 2^-16 ns) of a cycle, its gates, and the time left of it. -/
def entryAt : Nat → List (Nat × Nat) → Nat → Nat → Nat × Nat × Nat
  | i, [], _, _ => (i, 0xFF, 0)
  | i, [e], x, cyc => (i, e.1, cyc - x)
  | i, e :: t, x, cyc =>
    if x < e.2 * 65536 then (i, e.1, e.2 * 65536 - x)
    else entryAt (i + 1) t (x - e.2 * 65536) (cyc - e.2 * 65536)

/-- Entry, gates and time left (`none`: for ever) of a list at network time `t`, in 2^-16 ns. -/
def GateList.at (l : GateList) (t : Nat) : Nat × Nat × Option Nat :=
  if l.entries.isEmpty then (0, 0xFF, none)
  else
    let cyc := max 1 l.cycle * 65536
    let x := (((t : Int) - (l.start * 65536 : Nat)) % (cyc : Int)).toNat
    let r := entryAt 0 l.entries x cyc
    (r.1, r.2.1, some r.2.2)

/-- Entry, gates and time left of an operational list that may not exist. -/
def gateNow (l : Option GateList) (t : Nat) : Nat × Nat × Option Nat :=
  match l with | some l => l.at t | none => (0, 0xFF, none)

/-- Queue `q` stays open for `need` (2^-16 ns) from `t`, through the operational list and a pending one from its start (R362). -/
def staysOpen (oper pend : Option GateList) (q : Nat) : Nat → Nat → Nat → Bool
  | 0, _, _ => true
  | fuel + 1, t, need =>
    let swapped := match pend with | some p => decide (p.start * 65536 ≤ t) | none => false
    let g := gateNow (if swapped then pend else oper) t
    if !bitAt g.2.1 q then false
    else
      let left := g.2.2.getD need
      let left := match pend with
        | some p => if swapped then left else min left (p.start * 65536 - t)
        | none => left
      if left ≥ need then true else staysOpen oper pend q fuel (t + max 1 left) (need - max 1 left)

/-- The longest run of open time in a list of (open, duration). -/
def longestRun : Nat → Nat → List (Bool × Nat) → Nat
  | best, _, [] => best
  | best, cur, (o, d) :: t => if o then longestRun (max best (cur + d)) (cur + d) t else longestRun best 0 t

/-- The longest contiguous open time of queue `q`, windows joined across the cycle boundary, in ns; `none` when it never closes. -/
def GateList.longest (l : GateList) (q : Nat) : Option Nat :=
  let used := (l.entries.dropLast.map (·.2)).foldl (· + ·) 0
  let es := l.entries.zipIdx.map fun e => (bitAt e.1.1 q, if e.2 + 1 = l.entries.length then l.cycle - used else e.1.2)
  if es.all (·.1) then none else some (longestRun 0 0 (es ++ es))

/-- The gate states of a port follow network time (R361, R364). -/
def State.gateRefresh (s : State) (n : Nat) : State :=
  let g := gateNow (s.operList n) s.nt.toNat
  s.setNetPort n fun p => { p with entry := g.1, gates := g.2.1 }

/-- The head frame of a queue can never fit: longer than its longest window (R362). -/
def State.oversize (s : State) (n q : Nat) : Bool :=
  match (s.netQ n q).frames, s.operList n with
  | f :: _, some l =>
    (match l.longest q with | some w => decide (txTime n (s.clen n f) > w) | none => false)
  | _, _ => false

/-- Frames at the head of a queue that can never fit are dropped. -/
def State.dropOver (n q : Nat) : Nat → State → State
  | 0, s => s
  | fuel + 1, s =>
    if s.oversize n q then
      match (s.netQ n q).frames with
      | f :: t =>
        let s := s.setNetQ n q fun x => { x with frames := t, deficit := if t.isEmpty then 0 else x.deficit }
        let s := s.dropFrame n f none
        State.dropOver n q fuel ((s.count (copyOf n Reg.GTE_OVERSIZE)).raise pGTE 3)
      | [] => s
    else s

/-- Every queue of a port. -/
def State.dropOversize (s : State) (n : Nat) : State :=
  (List.range 8).foldl (fun (s : State) q => State.dropOver n q (s.netQ n q).frames.length s) s

/-- The gate of queue `q` is open and its head frame fits. -/
def State.gateFits (s : State) (n q : Nat) : Bool :=
  match (s.netQ n q).frames with
  | f :: _ => staysOpen (s.operList n) (s.pendList n) q 100000 s.nt.toNat (65536 * txTime n (s.clen n f))
  | [] => bitAt (s.netPort n).gates q

/-- Port SEL of the GTE page, when it names one. -/
def State.gteSel? (s : State) : Option Nat := if s.fld Reg.GTE_SEL 0 7 < 66 then some (s.fld Reg.GTE_SEL 0 7) else none

/-- The result of a gate command. -/
def State.gteRes (s : State) (code late : Nat) : State := (s.setRegN Reg.GTE_RES (code + 16 * late)).raiseIf (code != 0) pGTE 2

/-- The checks of R363 on the administrative list of port `n`. -/
def State.gateTests (s : State) (n : Nat) : Nat :=
  let len := s.fld (copyOf n Reg.GTE_ADM_LEN) 0 7
  let t := s.fld (copyOf n Reg.GTE_ADM_CYCLE) 0 32
  let es := s.gateEntries n Reg.GTE_ADM_ENTRY len
  if 64 < len ∨ (len ≠ 0 ∧ (t < 8000 ∨ es.any fun e => e.2 == 0)) then 1
  else if (es.map (·.2)).foldl (· + ·) 0 > t ∧ len ≠ 0 then 2
  else if (s.netPort n).gatePend.isSome then 3
  else 0

/-- GTE_CMD COMMIT (R363). -/
def State.gateCommit (s : State) : State :=
  match s.gteSel? with
  | none => s
  | some n =>
    let r := s.gateTests n
    if r ≠ 0 then s.gteRes r 0
    else
      let b := s.reg64 (copyOf n Reg.GTE_ADM_BASE)
      let t := max 1 (s.fld (copyOf n Reg.GTE_ADM_CYCLE) 0 32)
      let least := (s.nt.toNat + 65535) / 65536 + 2 * s.period
      let late := decide (b < least) && s.fld (copyOf n Reg.GTE_ADM_LEN) 0 7 != 0
      let st := if late then b + (least - b + t - 1) / t * t else b
      let s := s.setNetPort n fun p => { p with gatePend := some st }
      let s := s.setReg64 (copyOf n Reg.GTE_PEND_AT) (st % 2 ^ 64)
      (s.gteRes 0 (b2n late)).raiseIf late pGTE 1

/-- A pending gate-list commit is withdrawn. -/
def State.gateWithdraw (s : State) (n : Nat) : State :=
  match (s.netPort n).gatePend with
  | none => s
  | some st => if s.nt.toNat < 65536 * st then (s.setNetPort n fun p => { p with gatePend := none }).gteRes 4 0 else s

/-- GTE_CMD CANCEL. -/
def State.gateCancel (s : State) : State := match s.gteSel? with | none => s | some n => s.gateWithdraw n

/-- At start time s the administrative list becomes operational. -/
def State.gateStart (s : State) (n : Nat) : State :=
  match (s.netPort n).gatePend with
  | none => s
  | some st =>
    if s.nt.toNat < 65536 * st then s
    else
      let s := s.setReg64 (copyOf n Reg.GTE_OPER_BASE) (st % 2 ^ 64)
      let s := s.setReg (copyOf n Reg.GTE_OPER_CYCLE) (s.reg (copyOf n Reg.GTE_ADM_CYCLE))
      let s := s.setReg (copyOf n Reg.GTE_OPER_LEN) (s.reg (copyOf n Reg.GTE_ADM_LEN))
      let s := (List.range 64).foldl (fun (s : State) i =>
        s.setReg (copyOf n (Reg.GTE_OPER_ENTRY + 4 * i)) (s.reg (copyOf n (Reg.GTE_ADM_ENTRY + 4 * i)))) s
      ((s.setNetPort n fun p => { p with gatePend := none, gateOn := true }).gateRefresh n).raise pGTE 0

/-- A write to a register of the administrative list; refused while the port has a pending commit (R372). -/
def State.gteAdmWrite (s : State) (m addr : Nat) (v : Word) : State :=
  match s.gteSel? with
  | none => s
  | some n =>
    if (s.netPort n).gatePend.isSome then s.violate m true addr kPending
    else s.storeReg (copyOf n addr) v

/-- A write of GTE_CMD. -/
def State.gteCmd (s : State) (v : Word) : State :=
  if Machine.fld v 0 2 = 1 then s.gateCommit else if Machine.fld v 0 2 = 2 then s.gateCancel else s

/-! ### Shapers (R365 to R367) -/

/-- MODE of a queue's configuration. -/
def State.qMode (s : State) (k : Nat) : Nat :=
  let m := s.fld (copyOf k Reg.SCH_Q_CFG) 16 2
  if m = 3 then 0 else m

/-- A queue's configuration comes into force at a tick boundary, and its credit grows (R365, R366). -/
def State.queueBoundary (s : State) (k : Nat) : State :=
  let x := Sparse.get {} k s.net.qs
  let mode := s.qMode k
  let rate := s.fld (copyOf k Reg.SCH_Q_RATE) 0 20
  let burst := s.fld (copyOf k Reg.SCH_Q_BURST) 0 16
  let entered := decide (mode ≠ x.mode)
  let c : Int := if entered then 0 else x.credit
  let c := if mode = 1 ∧ rate ≠ 0 then
      (if entered then 0 else
        let c := if x.forgive ∧ c < 0 then 0 else c
        min (c + rate) (burst * 64 : Nat))
    else if mode = 1 then c else 0
  let y := { x with
    mode := mode, rate := rate, credit := c, forgive := false
    wait := if entered && mode == 2 then 0 else x.wait, rem_ := if entered && mode == 2 then 0 else x.rem_ }
  { s with net := { s.net with qs := Sparse.put {} k y s.net.qs } }

/-- The copies of a register behind a selector that have been written. -/
def State.copies (s : State) (r : Nat) : List Nat :=
  s.regs.filterMap fun e => if e.1 ≥ 0x100000000 ∧ e.1 % 0x100000000 = r then some (e.1 / 0x100000000 - 1) else none

/-- Every queue at a tick boundary. -/
def State.shaperBoundary (s : State) : State :=
  let ks := s.net.qs.map (·.1) ++ s.copies Reg.SCH_Q_CFG ++ s.copies Reg.SCH_Q_RATE ++ s.copies Reg.SCH_Q_BURST
  ks.eraseDups.foldl State.queueBoundary s

/-- The buckets of the Turnstile at a tick boundary (R368). -/
def State.bucketBoundary (s : State) : State :=
  (s.copies Reg.POL_RATE).foldl (fun (s : State) k =>
    let t := Sparse.get 0 k s.net.tokens + s.fld (copyOf k Reg.POL_RATE) 0 20
    let top := s.fld (copyOf k Reg.POL_CFG) 16 16 * 64
    { s with net := { s.net with tokens := Sparse.put 0 k (min t top) s.net.tokens } }) s

/-- A wheel slot has started in the present tick, and its decrement is still to be made (R367). -/
def State.wheelDue (s : State) : Bool := s.now.toNat % 8 == 0 && s.net.wheel != some s.now

/-- Each waiting queue's WAIT falls by one at the start of a wheel slot; a queue whose SPB is 0 keeps it. -/
def State.wheelSlot (s : State) : State :=
  if !s.wheelDue then s
  else
    let s := (s.net.qs.map (·.1)).foldl (fun (s : State) k =>
      let x := Sparse.get {} k s.net.qs
      if x.wait = 0 ∨ s.fld (copyOf k Reg.WHL_Q_SPB) 0 24 = 0 then s
      else { s with net := { s.net with qs := Sparse.put {} k { x with wait := x.wait - 1 } s.net.qs } }) s
    { s with net := { s.net with wheel := some s.now } }

/-- The queue SCH_SEL or WHL_SEL names, as port × 8 + queue. -/
def State.qSel? (s : State) (r : Nat) : Option Nat :=
  if s.fld r 8 7 < 66 then some (8 * s.fld r 8 7 + s.fld r 0 3) else none

/-- A write of SCH_Q_CFG, SCH_Q_RATE or SCH_Q_BURST (R366). -/
def State.schQWrite (s : State) (addr : Nat) (v : Word) : State :=
  match s.qSel? Reg.SCH_SEL with
  | none => s
  | some k =>
    let old := s.fld (copyOf k addr) 0 20
    let new := Machine.fld v 0 20
    let s := s.storeReg (copyOf k addr) v
    if addr ≠ Reg.SCH_Q_RATE ∨ new = old then s
    else
      let on := old != 0 && new != 0 && s.bit (copyOf k Reg.SCH_Q_CFG) 20
      s.setNetQ (k / 8) (k % 8) fun x => { x with forgive := (x.forgive || on) && new != 0 }

/-- The tokens of a policer bucket. -/
def State.setTokens (s : State) (k n : Nat) : State := { s with net := { s.net with tokens := Sparse.put 0 k n s.net.tokens } }

/-- A write of POL_CFG: tokens fill when ACTION leaves 0 or BURST is written (R368). -/
def State.polCfgWrite (s : State) (v : Word) : State :=
  if 66 < s.fld Reg.POL_SEL 8 7 then s
  else
    let k := 8 * s.fld Reg.POL_SEL 8 7 + s.fld Reg.POL_SEL 0 3
    (s.storeReg (copyOf k Reg.POL_CFG) v).setTokens k (Machine.fld v 16 16 * 64)

/-- The bucket of a port and class tests a frame of `len` bytes: the class it goes on with, or `none` when dropped (R368). -/
def State.police (s : State) (port cls len : Nat) : Option Nat × State :=
  let k := 8 * port + cls
  let act := s.fld (copyOf k Reg.POL_CFG) 0 2
  if act = 0 ∨ act = 3 then (some cls, s)
  else
    let t := Sparse.get 0 k s.net.tokens
    if t ≥ 64 * len then (some cls, { s with net := { s.net with tokens := Sparse.put 0 k (t - 64 * len) s.net.tokens } })
    else
      let s := (s.count (copyOf k Reg.POL_CNT)).raise pPOL 0
      if act = 1 then (none, s.portCount port 7) else (some (s.fld (copyOf k Reg.POL_CFG) 4 3), s)

/-! ### Selection (R358, R359) -/

/-- A port may send at all: link up, not retired, not paused. -/
def State.portSends (s : State) (n : Nat) : Bool := s.linkUp n && !s.portRetired n && !s.portPaused n

/-- RATE or SPB is 0 in the queue's mode. -/
def State.qBlocked (s : State) (n q : Nat) : Bool :=
  let x := s.netQ n q
  (x.mode == 1 && x.rate == 0) || (x.mode == 2 && s.fld (copyOf (8 * n + q) Reg.WHL_Q_SPB) 0 24 == 0)

/-- Credit below 0, or WAIT above 0. -/
def State.qShaped (s : State) (n q : Nat) : Bool :=
  let x := s.netQ n q
  (x.mode == 1 && decide (x.credit < 0)) || (x.mode == 2 && x.wait != 0)

/-- Queue `q` of port `n` is ready (R358). -/
def State.qReady (s : State) (n q : Nat) : Bool :=
  !(s.netQ n q).frames.isEmpty && s.portSends n && s.gateFits n q && !s.qBlocked n q && !s.qShaped n q

/-- STRICT7 of a port. -/
def State.strict7 (s : State) (n : Nat) : Bool := s.bit (copyOf n Reg.SCH_PORT_CFG) 8

/-- QUANTUM of a queue. -/
def State.quantum (s : State) (n q : Nat) : Nat := max 64 (s.fld (copyOf (8 * n + q) Reg.SCH_Q_CFG) 0 16)

/-- The deficit round robin of R359 over `cnt` queues, of which `ready` may send; the state with its deficits, and the queue. The
pointer may stand on queue 7 when STRICT7 takes that queue out of the set. -/
def State.drr (n cnt : Nat) (ready : List Nat) : Nat → State → Option Nat × State
  | 0, s => (none, s)
  | fuel + 1, s =>
    let q := (s.netPort n).ptr
    let c := s.clen n ((s.netQ n q).frames.headD { chain := [], len := 0 })
    let s := if ready.contains q then
        s.setNetQ n q fun x => if x.visited then x else { x with deficit := x.deficit + s.quantum n q, visited := true }
      else if (s.netQ n q).frames.isEmpty then s.setNetQ n q fun x => { x with deficit := 0 }
      else s
    if ready.contains q ∧ (s.netQ n q).deficit ≥ c then
      (some q, s.setNetQ n q fun x => { x with deficit := x.deficit - c })
    else
      let s := s.setNetQ n q fun x => { x with visited := false }
      State.drr n cnt ready fuel (s.setNetPort n fun p => { p with ptr := if q + 1 ≥ cnt then 0 else q + 1 })

/-- The next queue of a port (R359). -/
def State.selectQ (s : State) (n : Nat) : Option Nat × State :=
  if s.strict7 n && s.qReady n 7 then (some 7, s)
  else
    let cnt := if s.strict7 n then 7 else 8
    let ready := (List.range cnt).filter (s.qReady n)
    if ready.isEmpty then (none, s) else State.drr n cnt ready 4000 s

/-! ### PTP corrections as a frame leaves (R386 to R388) -/

/-- Replace the bytes of a list from offset `o`. -/
def spliceB (l : List Byte) (o : Nat) (b : List Byte) : List Byte := l.take o ++ b ++ l.drop (o + b.length)

/-- The ones' complement sum of 16-bit words, folded. -/
def ones16 (n : Nat) : Nat :=
  let f (x : Nat) : Nat := x % 65536 + x / 65536
  f (f (f n))

/-- The 16-bit big-endian words of a list. -/
def beWords : List Byte → List Nat
  | a :: b :: t => (256 * a.toNat + b.toNat) :: beWords t
  | _ => []

/-- Bytes at offset `o` change, and the UDP checksum is updated incrementally (R386, RFC 1624); an Annex C checksum of 0 stays. -/
def ptpSet (f : PtpFix) (l : List Byte) (o : Nat) (b : List Byte) : List Byte :=
  let l' := spliceB l o b
  if f.udp = 0 then l'
  else
    let hc := beNat (sliceB l f.udp 2)
    if f.v4 ∧ hc = 0 then l'
    else
      let old := beWords (sliceB l o b.length)
      let new := beWords b
      let sum := ones16 (65535 - hc + (old.map fun w => 65535 - w).foldl (· + ·) 0 + new.foldl (· + ·) 0)
      let r := 65535 - sum
      spliceB l' f.udp (toBE 2 (if r = 0 then 0xFFFF else r))

/-- An amount is added to the correctionField of a frame; a sum that does not fit saturates (R386). -/
def State.correct (s : State) (f : PtpFix) (l : List Byte) (amount : Int) : List Byte × State :=
  let sum := sx 64 (beNat (sliceB l (f.at' + 8) 8)) + amount
  let s := s.count Reg.NTU_CNT
  if sum ≥ 2 ^ 63 ∨ sum < -(2 ^ 63) then
    (ptpSet f l (f.at' + 8) (toBE 8 0x7FFFFFFFFFFFFFFF), (s.count (Reg.NTU_CNT + 8)).raise 0x005 4)
  else (ptpSet f l (f.at' + 8) (toBE 8 (low 64 sum)), s)

/-- domainNumber, sequenceId, sourcePortIdentity and requestingPortIdentity of a PTP message. -/
def ptpDomain (f : PtpFix) (l : List Byte) : Nat := beNat (sliceB l (f.at' + 4) 1)
def ptpSeq (f : PtpFix) (l : List Byte) : Nat := beNat (sliceB l (f.at' + 30) 2)
def ptpSource (f : PtpFix) (l : List Byte) : Nat := beNat (sliceB l (f.at' + 20) 10)
def ptpAsked (f : PtpFix) (l : List Byte) : Nat := beNat (sliceB l (f.at' + 44) 10)

/-- NTU_TC_CFG.MODE. -/
def State.tcMode (s : State) : Nat := let m := s.fld Reg.NTU_TC_CFG 0 2; if m = 3 then 0 else m

/-- What happens to a message as it leaves (R386 to R388): 0 nothing; 1 the residence time is added; 2 a match entry is written;
3 the stored amount is added; 4 a one-step Sync of the host; 5 a one-step Pdelay_Resp of the host. -/
def State.ptpKind (s : State) (f : PtpFix) : Nat :=
  if f.direct then
    (if !s.bit Reg.NTU_PTP_CFG 9 || f.twoStep then 0 else if f.typ = 0 then 4 else if f.typ = 3 then 5 else 0)
  else if s.tcMode = 0 then 0
  else if f.typ = 8 ∨ f.typ = 9 then 3
  else if f.ingress = none then 0
  else if f.typ = 0 then (if f.twoStep then 2 else 1)
  else if f.typ = 1 ∧ s.tcMode = 1 then (if s.bit Reg.NTU_TC_CFG 2 then 2 else 1)
  else 0

/-- A match entry was written less than 1 s ago (R387). -/
def State.tcLives (s : State) (e : TcEntry) : Bool := decide ((s.frcNow - e.at').toNat < 1000000000 * 65536)

/-- Residence time, and in mode 2 the link delay of a Sync's ingress port as its MPD now stands (R386, R395). -/
def State.residence (s : State) (f : PtpFix) (ts : BitVec 96) : Int :=
  sx 96 (ts - f.ingress.getD 0).toNat
    + (if f.typ = 0 ∧ s.tcMode = 2 then ((s.reg (Reg.NTU_PORT_RXADJ + 0x20 * f.port + 8)).toNat * 256 : Nat) else 0)

/-- A message leaves port `n` with egress stamp `ts`. -/
def State.ptpLeave (s : State) (n : Nat) (f : PtpFix) (l : List Byte) (ts : BitVec 96) : List Byte × State :=
  let dreq := f.typ == 1 || f.typ == 9
  let amount := s.residence f ts
  match s.ptpKind f with
  | 1 => s.correct f l amount
  | 2 =>
    let s := { s with tc := s.tc.filter s.tcLives }
    let e : TcEntry := { dreq := dreq, domain := ptpDomain f l, srcPort := ptpSource f l, seq := ptpSeq f l, egress := n
                         amount := amount, at' := s.frcNow }
    (l, { s with tc := (if s.tc.length ≥ 256 then s.tc.drop 1 else s.tc) ++ [e] })
  | 3 =>
    let who := if dreq then ptpAsked f l else ptpSource f l
    let hit (e : TcEntry) : Bool :=
      s.tcLives e && e.dreq == dreq && e.domain == ptpDomain f l && e.srcPort == who && e.seq == ptpSeq f l && e.egress == n
    (match s.tc.find? hit with
    | some e => { s with tc := s.tc.erase e }.correct f l e.amount
    | none => (l, (s.count (Reg.NTU_CNT + 4)).raise 0x005 5))
  | 4 =>
    let ns := ts.toNat / 65536
    let l := ptpSet f l (f.at' + 34) (toBE 6 (ns / 1000000000) ++ toBE 4 (ns % 1000000000))
    let cf := (beNat (sliceB l (f.at' + 8) 8) + ts.toNat % 65536) % 2 ^ 64
    (ptpSet f l (f.at' + 8) (toBE 8 cf), s.count (Reg.NTU_CNT + 16))
  | 5 =>
    let cf := (beNat (sliceB l (f.at' + 8) 8) + ts.toNat) % 2 ^ 64
    (ptpSet f l (f.at' + 8) (toBE 8 cf), s.count (Reg.NTU_CNT + 16))
  | _ => (l, s)

/-! ### Transmission -/

/-- A frame of bytes `l` without FCS starts on port `n`. -/
def State.transmit (s : State) (n : Nat) (l : List Byte) : State :=
  let s := s.emit (.frame n l)
  let s := (s.portCount n 11).octets n 12 (l.length + 4)
  let t := 65536 * txTime n (l.length + 4 + s.ovh n)
  s.setNetPort n fun p => { p with txFree := s.frcNow + BitVec.ofNat 96 t }

/-- A selected frame is charged to its shaper (R359, R365, R367). -/
def State.charge (s : State) (n q c : Nat) : State :=
  let s := s.count (copyOf (8 * n + q) Reg.SCH_Q_TXFRM)
  let spb := s.fld (copyOf (8 * n + q) Reg.WHL_Q_SPB) 0 24
  s.setNetQ n q fun x =>
    if x.mode = 1 then { x with credit := x.credit - (64 * c : Nat) }
    else if x.mode = 2 then
      let v := c * spb + x.rem_
      { x with wait := v / 256, rem_ := v % 256 }
    else x

/-- The egress stamp of a transmission whose timestamp point passes the balls `ahead` units of 2^-16 ns from now (R382). -/
def State.txStamp (s : State) (n ahead : Nat) : BitVec 96 :=
  s.ntAt (s.frcNow + BitVec.ofNat 96 ahead) + BitVec.ofInt 96 (s.reg (Reg.NTU_PORT_TXADJ + 0x20 * n)).toInt

/-- The head frame of queue `q` is sent. -/
def State.sendHead (s : State) (n q ahead : Nat) : State :=
  match (s.netQ n q).frames with
  | [] => s
  | f :: rest =>
    let c := s.clen n f
    let s := s.setNetQ n q fun x => { x with frames := rest, deficit := if rest.isEmpty then 0 else x.deficit }
    let s := s.charge n q c
    let ts := s.txStamp n ahead
    let (l, s) := s.ptpLeave n f.ptp (s.leaving f) ts
    let s := (s.transmit n l).release n f
    match f.desc with | some d => s.txClose d ts 0 | none => s

/-- A PAUSE frame (IEEE 802.3 Annex 31B) from the device's own address. -/
def State.pauseFrame (s : State) (quanta : Nat) : List Byte :=
  padFrame (frameBytes 0x0180C2000001 s.rmac none (toBE 2 0x8808 ++ toBE 2 1 ++ toBE 2 quanta))

/-- The transmitter of port `n` is free: a PAUSE frame that waits goes first, else the scheduler's choice (R359, R360). A device
that does not act sends nothing (R316, R397). -/
def State.egress (s : State) (n ahead : Nat) : State :=
  let s := (s.gateRefresh n).dropOversize n
  if !s.roleActs ∨ s.frcNow.toNat < (s.netPort n).txFree.toNat then s
  else
    match (s.netPort n).pausePend with
    | some q =>
      if s.linkUp n && !s.portRetired n then
        ((s.setNetPort n fun p => { p with pausePend := none }).transmit n (s.pauseFrame q)).portCount n 14
      else s
    | none =>
      match s.selectQ n with
      | (some q, s) => s.sendHead n q ahead
      | (none, s) => s

/-- SCH_Q_STAT of queue `q` of port `n`. -/
def State.qStat (s : State) (n q : Nat) : Nat :=
  let d := (s.netQ n q).frames.length
  b2n (!s.portSends n) * 2 ^ 20 + b2n (s.qBlocked n q) * 2 ^ 19 + b2n (s.qShaped n q) * 2 ^ 18
    + b2n (!(s.gateRefresh n).gateFits n q) * 2 ^ 17 + b2n (s.qReady n q) * 2 ^ 16 + min 65535 d

/-! ### The meanings -/

/-- EGRESS_SELECT (R359): the transmitter of a port is free at a core cycle; the timestamp point of a frame that now starts passes
the device's balls `ahead` units of 2^-16 ns later, as the device measures it. -/
def execEgressSelect (port : Fin 66) (cycle ahead : Nat) (s : State) : Host.Outcome State Fault Refusal :=
  .next ((s.atCycle cycle).egress port ahead)

/-- GATE_ENTRY_CHANGE (R361). -/
def execGateEntryChange (port : Fin 66) (cycle : Nat) (s : State) : Host.Outcome State Fault Refusal :=
  .next ((s.atCycle cycle).gateRefresh port)

/-- GATE_COMMIT (R363). -/
def execGateCommit (m : Fin 8) (cycle : Nat) (s : State) : Host.Outcome State Fault Refusal :=
  .next ((s.atCycle cycle).gateWrite m Reg.GTE_CMD 1 State.gateCommit)

/-- GATE_CANCEL (R363). -/
def execGateCancel (m : Fin 8) (cycle : Nat) (s : State) : Host.Outcome State Fault Refusal :=
  .next ((s.atCycle cycle).gateWrite m Reg.GTE_CMD 2 State.gateCancel)

/-- GATE_LIST_START (R363). -/
def execGateListStart (port : Fin 66) (cycle : Nat) (s : State) : Host.Outcome State Fault Refusal :=
  .next ((s.atCycle cycle).gateStart port)

/-- SHAPER_CONFIG_WRITE (R366): SCH_Q_CFG, SCH_Q_RATE or SCH_Q_BURST of the selected queue written. -/
def execShaperConfigWrite (m : Fin 8) (reg : Fin 3) (v : Word) (s : State) : Host.Outcome State Fault Refusal :=
  let a := Reg.SCH_Q_CFG + 4 * reg.val
  .next (s.gateWrite m a v fun s => s.schQWrite a v)

/-- WHEEL_SLOT (R367). -/
def execWheelSlot (s : State) : Host.Outcome State Fault Refusal := .next s.wheelSlot

/-- POL_CFG_WRITE (R368). -/
def execPolCfgWrite (m : Fin 8) (v : Word) (s : State) : Host.Outcome State Fault Refusal :=
  .next (s.gateWrite m Reg.POL_CFG v fun s => s.polCfgWrite v)

/-- A match-table entry expires 1 s after it was written (R387). -/
def State.tcExpire (s : State) : State :=
  { s with tc := s.tc.filter s.tcLives }

/-- TC_ENTRY_EXPIRY (R387). -/
def execTcEntryExpiry (cycle : Nat) (s : State) : Host.Outcome State Fault Refusal := .next (s.atCycle cycle).tcExpire

end Sys2Proof.Machine
end

