-- ==== Sys2Proof/Machine/Fwd.lean ====
section
/-! DEFINITION. The forwarding table (R320 to R328, R352): lookups, commands, learning, aging, the scrubber and the conflict tracker. -/

namespace Sys2Proof.Machine

abbrev pFWD : Nat := 0x0B1

/-! ### Slots (R320, R321) -/

/-- The 128 bits of slot `i`. -/
def State.fwdSlot (s : State) (i : Nat) : Nat := s.loadN (0x12C00000 + 16 * i) 16

/-- Write slot `i`, with its parity bit. -/
def State.fwdPut (s : State) (i v : Nat) : State :=
  let v := v - bits v 12 1 * 4096
  s.storeN (0x12C00000 + 16 * i) 16 (v + popCount 128 v % 2 * 4096)

/-- KIND of a slot. -/
def kindOf (v : Nat) : Nat := v % 8

/-- An entry of two slots. -/
def twoSlot (v : Nat) : Bool := kindOf v == 4 || (kindOf v == 3 && decide (bits v 16 8 ≥ 65))

/-- Fields of an L2 entry. -/
def l2Vid (v : Nat) : Nat := bits v 16 12
def l2Mac (v : Nat) : Nat := bits v 28 36 + bits v 64 12 * 2 ^ 36
def l2Port (v : Nat) : Nat := bits v 76 7
def l2Lt (v : Nat) : Nat := bits v 83 24
def l2Ltv (v : Nat) : Bool := v.testBit 107

/-- The slot of an L2 entry. -/
def l2Slot (kind mac vid port lt : Nat) (ltv hit : Bool) (stamp : Nat) : Nat :=
  kind + 8 * b2n hit + 16 * (stamp % 256) + vid * 2 ^ 16 + mac % 2 ^ 36 * 2 ^ 28 + mac / 2 ^ 36 * 2 ^ 64
    + port * 2 ^ 76 + lt * 2 ^ 83 + b2n ltv * 2 ^ 107

/-- Bits of a prefix of length `len`, the rest as 0. -/
def maskAddr (len a : Nat) : Nat := a / 2 ^ (128 - min 128 len) * 2 ^ (128 - min 128 len)

/-- Key bytes (R320). -/
def l2Key (mac vid : Nat) : List Byte := toBE 6 mac ++ toLE 2 vid
def pfxKey (len a : Nat) : List Byte := toLE 1 len ++ toBE 16 (maskAddr len a)
def hostKey (a : Nat) : List Byte := toLE 1 0xFF ++ toBE 16 a

/-- The key of an entry with first slot `v` and CONT slot `c`. -/
def entryKey? (v c : Nat) : Option (List Byte) :=
  match kindOf v with
  | 1 | 2 => some (l2Key (l2Mac v) (l2Vid v))
  | 3 => some (pfxKey (bits v 16 8) (bits v 64 64 * 2 ^ 64 + (if twoSlot v then bits c 64 64 else 0)))
  | 4 => some (hostKey (bits v 64 64 * 2 ^ 64 + bits c 64 64))
  | _ => none

/-- The bucket of a key. -/
def bucketOf (key : List Byte) : Nat := (crc32c key).toNat % 32768

/-- A logging register of FWD: VALID, COUNT and SLOT. -/
def State.fwdLog (s : State) (r i : Nat) : State :=
  s.setRegN r (2 ^ 31 + satAdd 0x1FFF (s.fld r 18 13) 1 * 2 ^ 18 + i)

/-- Slot `i` fails its parity: it and, for a two-slot entry, its other slot become EMPTY (R327). -/
def State.parityErr (s : State) (i : Nat) : State :=
  let v := s.fwdSlot i
  let j := if i % 2 = 0 then i + 1 else i - 1
  let pair := (i % 2 == 0 && (twoSlot v || kindOf (s.fwdSlot j) == 5)) || (i % 2 == 1 && (kindOf v == 5 || twoSlot (s.fwdSlot j)))
  let s := s.storeN (0x12C00000 + 16 * i) 16 0
  let s := if pair then s.storeN (0x12C00000 + 16 * j) 16 0 else s
  ((s.fwdLog Reg.FWD_PARITY i).count (Reg.FWD_CNT + 36)).raise pFWD 1

/-- A slot is read: its parity is checked. -/
def State.readSlot (s : State) (i : Nat) : State :=
  if popCount 128 (s.fwdSlot i) % 2 = 1 then s.parityErr i else s

/-- A bucket is read. -/
def State.readBucket (s : State) (b : Nat) : State :=
  (List.range 8).foldl (fun (s : State) k => s.readSlot (8 * b + k)) s

/-- The slot that holds an entry with a key, its bucket having been read. -/
def State.findKey (s : State) (key : List Byte) : Option Nat :=
  ((List.range 8).map (8 * bucketOf key + ·)).find? fun i => entryKey? (s.fwdSlot i) (s.fwdSlot (i + 1)) == some key

/-- A lookup of a key (R327): the state after parity checks, and the slot. -/
def State.lookupKey (s : State) (key : List Byte) : Option Nat × State :=
  let s := s.readBucket (bucketOf key)
  (s.findKey key, s)

/-- FWD_PASS. -/
def State.pass (s : State) : Nat := s.fld Reg.FWD_PASS 0 8

/-- A hit sets HIT and STAMP (R326). -/
def State.fwdHit (s : State) (i : Nat) : State :=
  let v := s.fwdSlot i
  s.fwdPut i (v - bits v 3 9 * 8 + 8 + 16 * s.pass)

/-- An entry's slots become EMPTY. -/
def State.fwdDelete (s : State) (i : Nat) : State :=
  let two := twoSlot (s.fwdSlot i)
  let s := s.storeN (0x12C00000 + 16 * i) 16 0
  if two then s.storeN (0x12C00000 + 16 * (i + 1)) 16 0 else s

/-- The slots of the table that are not EMPTY, ascending. -/
def State.fwdUsed (s : State) : List Nat :=
  (s.mem.filterMap fun c =>
    if 0x12C00000 ≤ c.1 ∧ c.1 < 0x13000000 then some ((c.1 - 0x12C00000) / 16) else none).eraseDups

/-- Delete the learned entries that satisfy a test. -/
def State.fwdFlush (s : State) (p : Nat → Bool) : State :=
  s.fwdUsed.foldl (fun (s : State) i =>
    let v := s.fwdSlot i
    if kindOf v = 1 ∧ p v then s.fwdDelete i else s) s

/-! ### Commands (R322) -/

/-- The image an INSERT stores: unused bits, HIT and STAMP as 0. -/
def insertHead (v : Nat) : Nat :=
  match kindOf v with
  | 2 => 2 + bits v 16 92 * 2 ^ 16
  | 3 => 3 + bits v 16 20 * 2 ^ 16 + maskAddr (min 64 (bits v 16 8)) (bits v 64 64 * 2 ^ 64)
  | 4 => 4 + bits v 16 19 * 2 ^ 16 + bits v 64 64 * 2 ^ 64
  | _ => 0
def insertCont (v c : Nat) : Nat :=
  if kindOf v = 3 then 5 + maskAddr (bits v 16 8) (bits v 64 64 * 2 ^ 64 + bits c 64 64) % 2 ^ 64 * 2 ^ 64
  else 5 + bits c 16 48 * 2 ^ 16 + bits c 64 64 * 2 ^ 64

/-- The places an entry may take in a bucket: EMPTY slots, or EMPTY aligned pairs. -/
def State.roomFor (s : State) (b : Nat) (two : Bool) : List Nat :=
  ((List.range 8).map (8 * b + ·)).filter fun i =>
    kindOf (s.fwdSlot i) == 0 && (!two || (i % 2 == 0 && kindOf (s.fwdSlot (i + 1)) == 0))

/-- Write an entry at slot `i`. -/
def State.fwdStore (s : State) (i v c : Nat) : State :=
  let s := s.fwdPut i (insertHead v)
  if twoSlot v then s.fwdPut (i + 1) (insertCont v c) else s

/-- INSERT: result and slot. -/
def State.fwdInsert (s : State) (v c : Nat) : Nat × Nat × State :=
  match entryKey? v c with
  | none => (4, 0, s)
  | some key =>
    if kindOf v = 1 then (4, 0, s)
    else
      match s.lookupKey key with
      | (some i, s) => (1, i, s.fwdStore i v c)
      | (none, s) =>
        let room := s.roomFor (bucketOf key) (twoSlot v)
        if room.isEmpty then (3, 0, s)
        else
          let (i, s) := s.choose room
          (0, i, s.fwdStore i v c)

/-- FWD_ENT takes an entry. -/
def State.showEntry (s : State) (i : Nat) : State :=
  let v := s.fwdSlot i
  let c := if twoSlot v then s.fwdSlot (i + 1) else 0
  (List.range 4).foldl (fun (s : State) w =>
    (s.setRegN (Reg.FWD_ENT + 4 * w) (bits v (32 * w) 32)).setRegN (Reg.FWD_ENT + 16 + 4 * w) (bits c (32 * w) 32)) s

/-- The effect of a command: result, slot and state. -/
def State.fwdRun (s : State) (k : FwdCmd) : Nat × Nat × State :=
  match k.op with
  | 1 => s.fwdInsert k.head k.cont
  | 2 | 3 =>
    (match entryKey? k.head k.cont with
    | none => (2, 0, s)
    | some key =>
      match s.lookupKey key with
      | (some i, s) => (0, i, if k.op = 2 then s.fwdDelete i else s.showEntry i)
      | (none, s) => (2, 0, s))
  | 4 => (0, 0, s.fwdFlush fun v => l2Port v == k.port)
  | 5 => (0, 0, s.fwdFlush fun v => l2Vid v == k.vid)
  | _ => (0, 0, s.fwdFlush fun _ => true)

/-- A command completes. -/
def State.fwdCmdDone (s : State) : State :=
  match s.net.cmd with
  | none => s
  | some k =>
    let (res, slot, s) := s.fwdRun k
    let s := { s with net := { s.net with cmd := none } }
    (s.setRegN Reg.FWD_CMD_RES (res * 2 ^ 24 + slot)).raise pFWD 0

/-- FWD_ENT as one number, from word `w`. -/
def State.entImage (s : State) (w : Nat) : Nat := s.reg64 (Reg.FWD_ENT + 4 * w) + s.reg64 (Reg.FWD_ENT + 4 * w + 8) * 2 ^ 64

/-- A write of FWD_CMD: a command starts on the image in FWD_ENT; while one runs the write is ignored with BUSY. -/
def State.fwdCmd (s : State) (v : Word) : State :=
  let op := Machine.fld v 0 4
  if op = 0 ∨ 6 < op then s
  else if s.net.cmd.isSome then s.setFld Reg.FWD_CMD_RES 24 4 5
  else
    let k : FwdCmd := { op := op, port := Machine.fld v 8 7, vid := Machine.fld v 16 12, head := s.entImage 0, cont := s.entImage 4 }
    { (s.setBit Reg.FWD_CMD_RES 31 true) with net := { s.net with cmd := some k } }

/-- Writing the last data word replaces an entry of the stem, next-hop or VLAN table (R352): `t` 0, 1, 2. -/
def State.tableWrite (s : State) (t : Nat) (v : Word) : State :=
  match t with
  | 0 =>
    let s := s.storeReg Reg.FWD_STEM_DATA4 v
    let m := s.reg64 Reg.FWD_STEM_DATA + s.reg64 (Reg.FWD_STEM_DATA + 8) * 2 ^ 64 + Machine.fld v 0 1 * 2 ^ 128
    { s with net := { s.net with stems := Sparse.put 0 (s.fld Reg.FWD_STEM_IDX 0 12) m s.net.stems } }
  | 1 =>
    let s := s.storeReg Reg.FWD_NH_DATA2 v
    let m := s.reg64 Reg.FWD_NH_DATA + (s.reg Reg.FWD_NH_DATA2).toNat * 2 ^ 64
    { s with net := { s.net with nexts := Sparse.put 0 (s.fld Reg.FWD_NH_IDX 0 12) m s.net.nexts } }
  | _ =>
    let s := s.storeReg Reg.FWD_VLAN_DATA2 v
    let m := s.reg64 Reg.FWD_VLAN_DATA + (s.reg Reg.FWD_VLAN_DATA2).toNat * 2 ^ 64
    { s with net := { s.net with vlans := Sparse.put 0 (s.fld Reg.FWD_VLAN_IDX 0 12) m s.net.vlans } }

/-- FWD_CNT word 0: entries present. -/
def State.fwdEntries (s : State) : Nat := (s.fwdUsed.filter fun i => let k := kindOf (s.fwdSlot i); k != 0 && decide (k < 5)).length

/-! ### Learning (R324, R325) -/

/-- Network time in µs, low 24 bits. -/
def State.ltNow (s : State) : Nat := s.ntNs / 1000 % 2 ^ 24

/-- A MOVE_CONFLICT on slot `i`: logged and tracked; the third within 1 s pins the entry. -/
def State.moveConflict (s : State) (i : Nat) : State :=
  let s := ((s.fwdLog Reg.FWD_CONFLICT i).count (Reg.FWD_CNT + 12)).raise pFWD 2
  let now := s.ntNs
  let live := s.net.conflicts.filter fun c => decide (now < c.at' + 1000000000)
  match live.find? (·.slot == i) with
  | some c =>
    if c.count + 1 ≥ 3 then
      let v := s.fwdSlot i
      let s := s.fwdPut i (v - kindOf v + 2)
      let s := { s with net := { s.net with conflicts := live.erase c } }
      (s.fwdLog Reg.FWD_PINNED i).raise pFWD 3
    else
      { s with net := { s.net with conflicts := live.map fun d => if d = c then { c with count := c.count + 1 } else d } }
  | none =>
    let l := if live.length ≥ 256 then live.drop 1 else live
    { s with net := { s.net with conflicts := l ++ [⟨i, 1, now⟩] } }

/-- A learn is dropped. -/
def State.learnDrop (s : State) : State := (s.count (Reg.FWD_CNT + 24)).raise pFWD 5

/-- The learned entries of a bucket with the largest age. -/
def State.oldest (s : State) (b : Nat) : List Nat :=
  let l := ((List.range 8).map (8 * b + ·)).filter fun i => kindOf (s.fwdSlot i) == 1
  let age (i : Nat) : Nat := (s.pass + 256 - bits (s.fwdSlot i) 4 8) % 256
  let top := (l.map age).foldl max 0
  l.filter fun i => age i == top

/-- A miss creates a learned entry, in an EMPTY slot or in place of the oldest learned one. -/
def State.learnNew (s : State) (r : LearnReq) : State :=
  let b := bucketOf (l2Key r.mac r.vid)
  let v := l2Slot 1 r.mac r.vid r.port s.ltNow true true s.pass
  let room := s.roomFor b false
  if !room.isEmpty then
    let (i, s) := s.choose room
    (s.fwdPut i v).count (Reg.FWD_CNT + 4)
  else
    let old := s.oldest b
    if old.isEmpty then s.learnDrop
    else
      let (i, s) := s.choose old
      ((s.fwdPut i v).count (Reg.FWD_CNT + 16)).count (Reg.FWD_CNT + 4)

/-- A source lookup that finds an entry at slot `i`: a hit from its own port; a move; or a conflict. -/
def State.learnHit (s : State) (r : LearnReq) (i : Nat) : State :=
  let v := s.fwdSlot i
  if l2Port v = r.port then s.fwdHit i
  else if kindOf v = 2 then s
  else
    let guard := min 1000000 (s.fld Reg.LRN_MOVE_GUARD 0 20)
    if !l2Ltv v || decide ((s.ltNow + 2 ^ 24 - l2Lt v) % 2 ^ 24 ≥ guard) then
      let w := l2Slot 1 r.mac r.vid r.port s.ltNow true (v.testBit 3) (bits v 4 8)
      (s.fwdPut i w).count (Reg.FWD_CNT + 8)
    else s.moveConflict i

/-- A queued learn request is carried out. -/
def State.learn (s : State) : State :=
  match s.net.learn with
  | [] => s
  | r :: t =>
    let s := { s with net := { s.net with learn := t } }
    match s.lookupKey (l2Key r.mac r.vid) with
    | (some i, s) => s.learnHit r i
    | (none, s) => s.learnNew r

/-- A learn request waits; at most 64 do. -/
def State.queueLearn (s : State) (r : LearnReq) : State :=
  if s.net.learn.length ≥ 64 then s.learnDrop else { s with net := { s.net with learn := s.net.learn ++ [r] } }

/-- Step 6 of R318 for a frame: a hit from the entry's own port is a hit at once; else a learn request waits (R324). -/
def State.sourceLookup (s : State) (port mac vid : Nat) : State :=
  let en := s.bit Reg.FWD_CTRL 0 && (if port < 66 then s.bit (atInst Reg.PORT_CTRL port) 7 else true)
  if !en then s
  else
    let (i?, s) := s.lookupKey (l2Key mac vid)
    match i? with
    | some i =>
      if l2Port (s.fwdSlot i) = port then s.fwdHit i
      else if kindOf (s.fwdSlot i) = 2 then s
      else s.queueLearn ⟨mac, vid, port⟩
    | none => s.queueLearn ⟨mac, vid, port⟩

/-! ### Aging and scrubbing (R325 to R327) -/

/-- An aging pass. -/
def State.agingPass (s : State) : State :=
  if !s.bit Reg.FWD_CTRL 1 then s
  else
    let s := s.setRegN Reg.FWD_PASS ((s.pass + 1) % 256)
    s.fwdUsed.foldl (fun (s : State) i =>
      let v := s.fwdSlot i
      if kindOf v ≠ 1 then s
      else if v.testBit 3 then s.fwdPut i (v - 8)
      else (s.fwdDelete i).count (Reg.FWD_CNT + 20)) s

/-- The scrubber visits every slot. -/
def State.scrub (s : State) : State :=
  s.fwdUsed.foldl (fun (s : State) i =>
    let s := s.readSlot i
    let v := s.fwdSlot i
    if (kindOf v = 1 ∨ kindOf v = 2) ∧ l2Ltv v ∧ (s.ltNow + 2 ^ 24 - l2Lt v) % 2 ^ 24 ≥ 8388608
    then s.fwdPut i (v - 2 ^ 107) else s) s

/-- Conflict records 1 s old are freed. -/
def State.conflictExpire (s : State) : State :=
  { s with net := { s.net with conflicts := s.net.conflicts.filter fun c => decide (s.ntNs < c.at' + 1000000000) } }

/-! ### Port retirement (R315, R358) -/

/-- A port that is due retires: its queues are emptied and its learned entries flushed. -/
def State.portRetire (s : State) (n : Nat) : State :=
  if !s.isDue (pSUP n) 0 then s
  else
    let s := (s.setBit (atInst Reg.PORT_STAT n) 4 true).retire (pSUP n) 0 0x13 0
    let s := (s.emptyQueues n none).fwdFlush fun v => l2Port v == n
    s.raise (pSUP n) 2

/-- PORT_CTRL.RESTORE: a retired port returns to service. -/
def State.portRestore (s : State) (n : Nat) : State :=
  if s.portRetired n then
    ((s.setBit (atInst Reg.PORT_STAT n) 4 false).unretire (pSUP n) 0).setRegN (atInst Reg.PORT_FCNT n) 0
  else s

/-- A write of PORT_CTRL (R349): AN is read and written on supervisory ports, FEC on uplinks; a port disabled loses its link. -/
def State.portCtrlWrite (s : State) (n : Nat) (v : Word) : State :=
  let a := atInst Reg.PORT_CTRL n
  let v' := v &&& (if n < 64 then 0xFFFFFFFB#32 else 0xFFFFFFFD#32)
  let s := s.storeReg a v'
  let s := (if bitOf v 0 then s else s.portLinkDown n false).pauseTxWritten n
  if bitOf v 8 then s.portRestore n else s

/-! ### The meanings -/

/-- A write of FWD_CMD with an operation, a port and a VID. -/
def State.fwdCmdAccess (s : State) (m op port vid : Nat) : State :=
  let v := BitVec.ofNat 32 (op + 256 * port + 65536 * vid)
  s.gateWrite m Reg.FWD_CMD v fun s => s.fwdCmd v

/-- LEARN (R324). -/
def execLearn (cycle : Nat) (s : State) : Host.Outcome State Fault Refusal := .next (s.atCycle cycle).learn

/-- AGING_PASS (R326). -/
def execAgingPass (s : State) : Host.Outcome State Fault Refusal := .next s.agingPass

/-- SCRUB (R325). -/
def execScrub (s : State) : Host.Outcome State Fault Refusal := .next s.scrub

/-- CONFLICT_RECORD_EXPIRY (R325). -/
def execConflictRecordExpiry (cycle : Nat) (s : State) : Host.Outcome State Fault Refusal :=
  .next (s.atCycle cycle).conflictExpire

/-- INSERT (R322): FWD_CMD written with OP 1. -/
def execInsert (m : Fin 8) (s : State) : Host.Outcome State Fault Refusal := .next (s.fwdCmdAccess m 1 0 0)

/-- DELETE (R322). -/
def execDelete (m : Fin 8) (s : State) : Host.Outcome State Fault Refusal := .next (s.fwdCmdAccess m 2 0 0)

/-- LOOKUP (R322). -/
def execLookup (m : Fin 8) (s : State) : Host.Outcome State Fault Refusal := .next (s.fwdCmdAccess m 3 0 0)

/-- FLUSH_PORT (R322). -/
def execFlushPort (m : Fin 8) (port : Fin 128) (s : State) : Host.Outcome State Fault Refusal :=
  .next (s.fwdCmdAccess m 4 port 0)

/-- FLUSH_VID (R322). -/
def execFlushVid (m : Fin 8) (vid : Fin 4096) (s : State) : Host.Outcome State Fault Refusal :=
  .next (s.fwdCmdAccess m 5 0 vid)

/-- FLUSH_LEARNED (R322). -/
def execFlushLearned (m : Fin 8) (s : State) : Host.Outcome State Fault Refusal := .next (s.fwdCmdAccess m 6 0 0)

/-- FWD_CMD_DONE (R322). -/
def execFwdCmdDone (s : State) : Host.Outcome State Fault Refusal := .next s.fwdCmdDone

/-- The last data word of a table of R352. -/
def tableReg (t : Nat) : Nat := if t = 0 then Reg.FWD_STEM_DATA4 else if t = 1 then Reg.FWD_NH_DATA2 else Reg.FWD_VLAN_DATA2

/-- FWD_TABLE_DATA_WRITE (R352): the last data word of the stem (0), next-hop (1) or VLAN (2) table. -/
def execFwdTableDataWrite (m : Fin 8) (table : Fin 3) (v : Word) (s : State) : Host.Outcome State Fault Refusal :=
  .next (s.gateWrite m (tableReg table) v fun s => s.tableWrite table v)

/-- PORT_RETIRE (R315). -/
def execPortRetire (port : Fin 66) (s : State) : Host.Outcome State Fault Refusal := .next (s.portRetire port)

/-- PORT_RESTORE (R315): PORT_CTRL written with RESTORE, its other fields as they are. -/
def execPortRestore (m : Fin 8) (port : Fin 66) (s : State) : Host.Outcome State Fault Refusal :=
  let a := atInst Reg.PORT_CTRL port
  let v := s.reg a ||| 0x100#32
  .next (s.gateWrite m a v fun s => s.portCtrlWrite port v)

end Sys2Proof.Machine
end

