-- ==== Sys2Proof/Machine/Line.lean ====
section
/-! DEFINITION. What a Byevo port puts on its lanes (R76 to R80, R89 to R92): control blocks, the blocks of a downstream frame,
codewords with their scrambling and parity, and their symbols on each lane in service. -/

namespace Sys2Proof.Machine

/-! ### Control blocks (R79) -/

/-- The type of a control block: its byte 0 (R77). -/
def Block.type (b : Block) : Nat := leAt b.bytes 0 1

/-- A control block of a type, with the bytes that follow it. -/
def control (type : Nat) (body : List Byte) : Block := ⟨false, padTo 32 (toLE 1 type ++ body)⟩

/-- The types that the table of R79 names. -/
def controlTypes : List Nat := [0x00, 0x01, 0x02, 0x03, 0x10, 0x11, 0x20, 0x21]

/-- A control block has a type that the table of R79 reserves. -/
def reservedType (type : Nat) : Bool := !controlTypes.contains type

/-- IDLE. -/
def idleBlock : Block := control 0x00 []

/-- ALIGN: counter and lanes in service; sent unscrambled. -/
def alignBlock (counter lanes : Nat) : Block :=
  ⟨false, toLE 1 0x01 ++ toLE 2 counter ++ toLE 1 lanes ++ List.replicate 28 (0x3C : Byte)⟩

/-- MARKER: boundary, OFS and period. -/
def markerBlock (boundary ofs period : Nat) : Block :=
  control 0x02 (List.replicate 3 (0 : Byte) ++ toLE 8 boundary ++ toLE 2 ofs ++ toLE 2 period)

/-- ECHO_REQ. -/
def echoReqBlock (seq : Nat) : Block := control 0x10 (toLE 2 seq)

/-- ECHO_RSP, which the mirror link sends too (R415). -/
def echoRspBlock (seq : Nat) : Block := control 0x11 (toLE 2 seq)

/-- DISCOVER_ACK: port, protocol version 1, result, DELAY_VALID, d and skew. -/
def ackBlock (port result : Nat) (valid : Bool) (d : Nat) (skew : Int) : Block :=
  control 0x21 (toLE 1 port ++ toLE 1 1 ++ toLE 1 result ++ toLE 1 (b2n valid) ++ toLE 2 d ++ toLE 2 (low 16 skew))

/-! ### The blocks of a downstream frame (R89 to R92) -/

/-- The header's content (R90). -/
def DsFrame.header (f : DsFrame) : List Byte :=
  toLE 1 0x42 ++ toLE 1 0x59 ++ toLE 1 0x44
    ++ toLE 1 (b2n f.hasDrives + 2 * b2n f.act + 4 * (f.seat % 2) + 8 * b2n f.reqAlt + 16 * (f.lanesNext % 4))
    ++ toLE 8 f.tick.toNat ++ toLE 2 f.epoch ++ toLE 1 (f.port % 16) ++ toLE 1 (f.lanes % 4)
    ++ toLE 4 f.changeAt ++ toLE 2 f.period ++ List.replicate 10 (0 : Byte)

/-- The content bytes of the frame up to the trailer's byte 27: header, drive blocks if it has drives, DIGEST, zeros. -/
def DsFrame.covered (f : DsFrame) (drives : List Byte) : List Byte :=
  f.header ++ (if f.hasDrives then drives else []) ++ toLE 4 f.digest.toNat ++ List.replicate 24 (0 : Byte)

/-- All content bytes of the frame, FRAME_CRC last (R92). -/
def DsFrame.content (f : DsFrame) (drives : List Byte) : List Byte :=
  let c := f.covered drives
  c ++ toLE 4 (crc32c c).toNat

/-- The data blocks of content bytes, 32 bytes each. -/
def dataBlocks (content : List Byte) : List Block :=
  (List.range (content.length / 32)).map fun i => ⟨true, sliceB content (32 * i) 32⟩

/-! ### Codewords (R78, R80) -/

/-- Blocks of a codeword filled up to 20 with IDLE. -/
def fillIdle (l : List Block) : List Block := l ++ List.replicate (20 - l.length) idleBlock

/-- The codewords of a frame after its first, `d` being the data blocks still to come: 20 or fewer make the shortened final
codeword; an ALIGN that waits is the first block of the first codeword that can carry it. -/
def laterCodewords : Nat → Option Block → List Block → List (List Block)
  | 0, _, _ => []
  | n + 1, al, d =>
    if d.length ≤ 20 then [d]
    else match al with
      | some a => (a :: d.take 19) :: laterCodewords n none (d.drop 19)
      | none => d.take 20 :: laterCodewords n none (d.drop 20)

/-- The codewords of a frame, the header first in the first of them; a frame of 20 or fewer blocks fills one codeword. -/
def frameCodewords (al : Option Block) (d : List Block) : List (List Block) :=
  if d.length ≤ 20 then [fillIdle d] else d.take 20 :: laterCodewords d.length al (d.drop 20)

/-- Some codeword of a frame of `n` data blocks can begin with ALIGN: neither its first nor its shortened final one. -/
def carriesAlign (n : Nat) : Bool := decide (40 < n)

/-! ### Scrambling, symbols and parity (R76, R78) -/

/-- One bit through the self-synchronous scrambler 1 + x^39 + x^58. -/
def scrambleBit (r : BitVec 58) (b : Bool) : BitVec 58 × Bool :=
  let o := b ^^ r.getLsbD 38 ^^ r.getLsbD 57
  ((r <<< 1) ||| (if o then 1 else 0), o)

/-- Bits through the scrambler, in the order of transmission. -/
def scrambleBits (r : BitVec 58) : List Bool → BitVec 58 × List Bool
  | [] => (r, [])
  | b :: t =>
    let x := scrambleBit r b
    let y := scrambleBits x.1 t
    (y.1, x.2 :: y.2)

/-- The bits of bytes, bit 0 of each byte first (R77). -/
def byteBits (l : List Byte) : List Bool := l.flatMap fun b => (List.range 8).map fun i => b.getLsbD i

/-- The 257 bits of a block on the line: the header bit, then the content, scrambled but for ALIGN. -/
def Block.line (r : BitVec 58) (b : Block) : BitVec 58 × List Bool :=
  if !b.data && b.type == 0x01 then (r, b.data :: byteBits b.bytes)
  else
    let x := scrambleBits r (byteBits b.bytes)
    (x.1, b.data :: x.2)

/-- The bits of a run of blocks. -/
def lineBits (r : BitVec 58) : List Block → BitVec 58 × List Bool
  | [] => (r, [])
  | b :: t =>
    let x := b.line r
    let y := lineBits x.1 t
    (y.1, x.2 ++ y.2)

/-- The number that bits spell, the first of them lowest. -/
def bitsNum : List Bool → Nat
  | [] => 0
  | b :: t => b2n b + 2 * bitsNum t

/-- Bits as 10-bit symbols, the first bit of each lowest (PRESUMED), padded with zero bits to a whole symbol (R78). -/
def symbolsOf (l : List Bool) : List Nat :=
  (List.range ((l.length + 9) / 10)).map fun i => bitsNum ((l.drop (10 * i)).take 10)

/-- Product in GF(2^10) over the low `n` bits of the first factor, with the field polynomial x^10 + x^3 + 1 of IEEE 802.3 Clause 91
(PRESUMED: R76 names the clause). -/
def gfMul : Nat → Nat → Nat → Nat
  | 0, _, _ => 0
  | n + 1, a, b =>
    let twice := if b * 2 < 1024 then b * 2 else b * 2 ^^^ 0x409
    (if a % 2 = 1 then b else 0) ^^^ gfMul n (a / 2) twice

/-- The coefficients of a polynomial times (x + c), highest first. -/
def timesRoot (c : Nat) (p : List Nat) : List Nat :=
  List.zipWith (· ^^^ ·) (p ++ [0]) (0 :: p.map (gfMul 10 c))

/-- The generator polynomial of RS(544,514): the product of x + α^j for j from 0 to 29, without its leading 1 (PRESUMED, as
`gfMul`). -/
def rsGenerator : List Nat :=
  ((List.range 30).foldl (fun (s : Nat × List Nat) _ => (gfMul 10 2 s.1, timesRoot s.1 s.2)) (1, [1])).2.drop 1

/-- The 30 parity symbols of a message, shortened or not. -/
def rsParity (m : List Nat) : List Nat :=
  let g := rsGenerator
  m.foldl (fun r x =>
    let f := x ^^^ r.headD 0
    List.zipWith (· ^^^ ·) (r.drop 1 ++ [0]) (g.map (gfMul 10 f))) (List.replicate 30 0)

/-- The symbols of a codeword on each of `k` lanes in service, symbol 0 to the lowest: in turn to all of them (R78, R415). -/
def laneSymbols (k : Nat) (l : List Nat) : List (List Nat) :=
  (List.range k).map fun j => l.zipIdx.filterMap fun x => if x.2 % k = j then some x.1 else none

/-- A codeword on the line: the scrambler after it, and the symbols of each lane of the mask `lanes`. -/
def codewordLine (r : BitVec 58) (lanes : Nat) (l : List Block) : BitVec 58 × List (List Nat) :=
  let x := lineBits r l
  let m := symbolsOf x.2
  (x.1, laneSymbols (popCount 4 lanes) (m ++ rsParity m))

/-! ### Sending -/

/-- Codewords leave port `n` one after the other, each with the lanes in service for it. -/
def State.emitCodewords (s : State) (n : Nat) (r : BitVec 58) : List (Nat × List Block) → State
  | [] => s
  | (lanes, l) :: t =>
    let x := codewordLine r lanes l
    (s.emit (.codeword n l x.2)).emitCodewords n x.1 t

/-- A train of codewords leaves port `n`: 0 to 15, or 16 for the mirror link. -/
def State.emitTrain (s : State) (n : Nat) (l : List (Nat × List Block)) : State :=
  (s.emitCodewords n (Config.scramblerState s.fresh) l).tick1

/-- A train of codewords leaves a Byevo port, unless its transmitters are squelched (R111). -/
def State.sendCodewords (s : State) (n : Nat) (l : List (Nat × List Block)) : State :=
  if s.squelched n then s else s.emitTrain n l

/-- Change a port's internal state. -/
def State.setPort (s : State) (n : Nat) (f : PortSt → PortSt) : State :=
  { s with ports := Sparse.put {} n (f (s.port n)) s.ports }

/-- The ALIGN that waits on port `n` is sent: its block, with the next counter value (R79, R80). The first after a reset has 1: R79
says only that each counts one on (DESIGN CHOICE; the same of the sequence number of ECHO_REQ). -/
def State.takeAlign (s : State) (n : Nat) : State × Option Block :=
  let p := s.port n
  if !p.alignWait then (s, none)
  else
    let c := (p.alignTx + 1) % 65536
    ((s.setPort n fun p => { p with alignWait := false, alignTx := c }).emit (.align n c p.lanesTx), some (alignBlock c p.lanesTx))

/-- A codeword of port `n` with a control block in it and IDLE after it; an ALIGN that waits stands before it (R80, R86). The
event `o` names the block. Nothing leaves a squelched port (R111). -/
def State.sendControl (s : State) (n : Nat) (b : Block) (o : Out) : State :=
  if s.squelched n then s
  else
    let r := s.takeAlign n
    (r.1.sendCodewords n [((s.port n).lanesTx, fillIdle (r.2.toList ++ [b]))]).emit o

/-- The 4,096th codeword of port `n` comes (R80): ALIGN is its first block; where that codeword begins a frame or is a shortened
final one, ALIGN waits for the first later one that can carry it. -/
def State.sendAlign (s : State) (n : Nat) (busy : Bool) : State :=
  if s.squelched n then s
  else
    let s := s.setPort n fun p => { p with alignWait := true }
    if busy then s
    else
      let r := s.takeAlign n
      r.1.sendCodewords n [((s.port n).lanesTx, fillIdle r.2.toList)]

/-- The downstream frame of port `n` leaves: its data blocks in their codewords. The codeword of the header begins under the lanes
its header names, the later ones under those then in service (R107). -/
def State.sendFrame (s : State) (n : Nat) (f : DsFrame) (drives : List Byte) : State :=
  if s.squelched n then s
  else
    let d := dataBlocks (f.content drives)
    let r := if carriesAlign d.length then s.takeAlign n else (s, none)
    let lanes := (s.port n).lanesTx
    match frameCodewords r.2 d with
    | [] => s
    | h :: t => r.1.sendCodewords n ((f.lanes, h) :: t.map fun c => (lanes, c))

end Sys2Proof.Machine
end

