-- ==== Sys2Proof/Machine/MirrorTx.lean ====
section
/-! DEFINITION. The frames sent on the mirror link (R416 to R421). -/

namespace Sys2Proof.Machine

/-- The mirror link carries frames: RED_STAT.MIRROR_UP (R415). -/
def State.mirrorUp (s : State) : Bool := s.bit Reg.RED_STAT 6

/-- A mirror frame: header, body blocks and trailer (R416, R92). -/
def State.mirrorFrame (s : State) (kind : Nat) (tick : Tick) (seq : Nat) (body : List Byte) : List Byte :=
  let blocks := (body.length + 31) / 32
  let flags := s.fld Reg.RED_SEAT 0 1 + 2 * s.role + 16 * s.fld Reg.RED_ROLE 4 1
  let h := [0x42, 0x59] ++ toLE 1 kind ++ toLE 1 flags ++ toLE 8 tick.toNat ++ toLE 2 (s.fld Reg.RED_EPOCH 0 16)
    ++ toLE 2 blocks ++ toLE 4 seq ++ List.replicate 12 (0 : Byte)
  let c := h ++ padTo (32 * blocks) body ++ List.replicate 28 (0 : Byte)
  c ++ toLE 4 (crc32c c).toNat

/-- The link's lanes are in service: RED_MIR.LANES_UP is not 0. -/
def State.mirLanes (s : State) : Nat := s.fld Reg.RED_MIR 0 4

/-- Blocks go out on the mirror link in one codeword, with IDLE after them, unless its transmitters are squelched (R78, R415). -/
def State.mirBlocks (s : State) (l : List Block) (o : Out) : State :=
  if s.mirDark then s else (s.emit o).emitTrain 16 [(s.mirLanes, fillIdle l)]

/-- A mirror frame goes out: it has at most 10 blocks (R415, R416). -/
def State.emitMirror (s : State) (frame : List Byte) : State := s.mirBlocks (dataBlocks frame) (.mirror frame)

/-- Send a mirror frame, while the link is up. -/
def State.sendMirror (s : State) (kind : Nat) (tick : Tick) (seq : Nat) (body : List Byte) : State :=
  if s.mirrorUp then s.emitMirror (s.mirrorFrame kind tick seq body) else s

/-- A control block goes out on the mirror link, in a codeword with IDLE. -/
def State.mirControl (s : State) (b : Block) (o : Out) : State := s.mirBlocks [b] o

/-- An ECHO_REQ of the mirror link, on its lowest lane in service (R415). -/
def State.mirEchoReq (s : State) (q : Nat) : State :=
  s.mirControl (echoReqBlock q) (.echoReq 16 q ((setBits 4 s.mirLanes).headD 0))

end Sys2Proof.Machine
end

