-- ==== Sys2Proof/Machine/Tck.lean ====
section
/-! DEFINITION. The Ringmaster (R50 to R74): the grid, steering, the timeline, starting, stopping and changing the period. -/

namespace Sys2Proof.Machine

/-- The TCK page. -/
abbrev pTCK : Nat := 0x004

/-- The LPL page. -/
abbrev pLPL : Nat := 0x040

/-- O = 80 + ⌊57 × P / 100⌋ (R54). -/
def windowOpen (p : Nat) : Nat := 80 + 57 * p / 100

/-- C = O + P − 100 (R54). -/
def windowCloseAt (p : Nat) : Nat := windowOpen p + p - 100

/-- The slew limit of R52: TCK_SLEW in force, capped at 8 when P < 600. -/
def slewLimit (p slew : Nat) : Nat := if p < 600 then min slew 8 else slew

/-- The tick lengths R52 allows, ascending. -/
def tickLengths (p slew : Nat) : List Nat :=
  let w := slewLimit p slew
  if slew = 0 then [p]
  else (List.range (2 * w + 1)).map (p - w + ·) |>.filter fun l => decide (500 ≤ l) && decide (l ≤ p + 16)

/-- The first of the listed lengths with the smallest cost, a later one when equal: the longer of two equally close (R52). -/
def bestLength (cost : Nat → Nat) : List Nat → Nat → Nat
  | [], b => b
  | l :: t, b => bestLength cost t (if cost l ≤ cost b then l else b)

/-- Signed distance, in 2^-16 ns, from a whole-ns time to the network time `c` cycles after the present boundary. -/
def State.ntErr (s : State) (c idealNs : Nat) : Int :=
  sx 96 ((netTime s.ntu.rate s.ntu.offset (s.ntu.frc + BitVec.ofNat 96 (65536 * c))).toNat + 2 ^ 96
    - 65536 * idealNs % 2 ^ 96)

/-- The phase error at the present boundary in whole ns (R52); the error against the partner's boundary while following (R67). -/
def State.phaseErr (s : State) : Int :=
  match (if s.bit Reg.TCK_STAT 4 then s.tck.partnerErr else none) with
  | some e => e
  | none => (s.ntErr 0 s.tck.ideal).fdiv 65536

/-- The cost of a tick length: its predicted boundary's distance from the ideal time of the next tick (R52). The spec does not say
at what resolution the distances are compared: the model takes the 2^-16 ns of network time, while the phase error itself is in
whole ns (DESIGN CHOICE; R378 evaluates the tick grid on whole ns). -/
def State.lengthCost (s : State) (l : Nat) : Nat :=
  match (if s.bit Reg.TCK_STAT 4 then s.tck.partnerErr else none) with
  | some e => (e + ((l : Int) - (s.period : Int))).natAbs
  | none => (s.ntErr l (s.tck.ideal + s.period)).natAbs

/-- The length chosen for the tick that begins (R52). -/
def State.chooseLength (s : State) : Nat := bestLength s.lengthCost (tickLengths s.period s.slew) s.period

/-- The first grid point of period `p` and phase `ph` at or after a network time, and its index (R50). -/
def gridAfter (p ph t : Nat) : Nat × Nat :=
  let j := (t + p - ph % p - 1) / p
  (j, j * p + ph % p)

/-- The whole number of cycles after the present FRC at which network time is closest to a whole-ns time, searched
around the nominal distance by the largest rate error; distances are compared in 2^-16 ns (DESIGN CHOICE, as in `lengthCost`). -/
def State.cyclesTo (s : State) (t : Nat) : Nat :=
  let c0 := (-(s.ntErr 0 t)).fdiv 65536 |>.toNat
  let w := c0 / 500 + 2
  bestLength (fun c => (s.ntErr c t).natAbs) ((List.range (2 * w + 1)).map (c0 - w + ·)) c0

/-- TCK_STAT.ALIGNED and PHASE_FAR, TCK_PHASE_ERR and their interrupts at a boundary (R53, R74). -/
def State.tckStatus (s : State) : State :=
  let e := s.phaseErr
  let p := s.period
  let far := decide (2 * e.natAbs > p)
  let ali := decide (e.natAbs ≤ 2)
  let wasFar := s.bit Reg.TCK_STAT 3
  let wasAli := s.bit Reg.TCK_STAT 1
  let s := s.setRegN Reg.TCK_PHASE_ERR (low 32 (satS 32 e))
  let s := s.setBit Reg.TCK_STAT 3 far
  let s := s.setBit Reg.TCK_STAT 1 ali
  let s := s.raiseIf (far && !wasFar) pTCK 1
  s.raiseIf (ali && !wasAli) pTCK 2

/-- Whether the views of the TCK page are in range (R73). -/
def State.tckRangeOk (s : State) : Bool :=
  let p := s.fld Reg.TCK_PERIOD 0 12
  decide (500 ≤ p) && decide (p ≤ 4000) && decide (s.fld Reg.TCK_PHASE 0 12 < p) && decide (s.fld Reg.TCK_SLEW 0 5 ≤ 16)

/-- The TCK views differ from the values in force (R456 test 5). -/
def State.tckDiffers (s : State) : Bool :=
  s.fld Reg.TCK_PERIOD 0 12 != s.period || s.fld Reg.TCK_PHASE 0 12 != s.phase || s.fld Reg.TCK_SLEW 0 5 != s.slew
    || s.bit Reg.TCK_CTRL 2 != s.altForce

/-- The conditions of R69 on a change of period, for commit tick `k`: 0 when all hold, else the code of TCK_CMT_RES. -/
def State.periodCond (s : State) (k : Tick) : Nat :=
  let p' := s.fld Reg.TCK_PERIOD 0 12
  if p' = s.period then 0
  else if s.carousel then 2
  else if p' < 920 ∧ s.anyLaneRetired then 4
  else if p' < s.period ∧ (!s.loopsQuiet || s.reconfAt (k + 1)) then 3
  else 0

/-- The tests of a TCK commit (R69, R73): 0 OK, else the code; `tickTest` is off for a commit collected in a takeover. -/
def State.tckTests (s : State) (k : Tick) (tickTest : Bool) : Nat :=
  if !s.tckRangeOk then 1
  else if !s.roleActs then 2
  else if tickTest && decide (k.toNat < s.now.toNat + 4) then 5
  else s.periodCond k

/-- TCK_STAT.TRANSITION: a change of period is pending. -/
def State.setTransition (s : State) : State :=
  s.setBit Reg.TCK_STAT 5 (s.pendingOn pTCK && s.fld Reg.TCK_PERIOD 0 12 != s.period)

/-- A pending TCK commit is cancelled (R69, R72). -/
def State.tckCancel (s : State) : State :=
  let was := s.fld Reg.TCK_PERIOD 0 12 != s.period
  let s := s.dropCommit pTCK
  let s := s.setRegN Reg.TCK_CMT_RES 6
  let s := { s with tck := { s.tck with transIdeal := none } }
  s.setTransition.raiseIf was pTCK 4

/-- The RWS fields of the TCK page take their views (R477). -/
def State.tckTakeViews (s : State) : State :=
  let s := s.setForce Reg.TCK_PERIOD (s.reg Reg.TCK_PERIOD)
  let s := s.setForce Reg.TCK_PHASE (s.reg Reg.TCK_PHASE)
  let s := s.setForce Reg.TCK_SLEW (s.reg Reg.TCK_SLEW)
  s.setForce Reg.TCK_CTRL (s.reg Reg.TCK_CTRL)

/-- TCK_ALT_MASK shows each EFE's mode in force, and ALT_ALL follows R58; a change of an EFE's mode sets INT_STAT bit 5 (R60). -/
def State.updateAlt (s : State) : State :=
  let m := maskOf ((List.range 16).filter fun e => s.efeAlt e)
  let old := s.fld Reg.TCK_ALT_MASK 0 16
  let s := s.setRegN Reg.TCK_ALT_MASK m
  let s := s.setBit Reg.TCK_STAT 7 (decide (s.period < 920) || s.altForce)
  s.raiseIf (m != old) pTCK 5

/-- A condition of R69 on the TCK commit that waits does not hold now: only a commit that changes the period has any, and one that
came through the journal takes effect with the active's (R69). -/
def State.tckFails (s : State) (c : PendCommit) : Bool :=
  !c.collected && !c.journal && s.fld Reg.TCK_PERIOD 0 12 != s.period && (s.periodCond c.k != 0 || !s.roleActs)

/-- The TCK commit due at boundary `n` takes effect there (R70): the views come into force, and a changed period or phase
moves the ideal times. -/
def State.tckCommitAt (s : State) (n : Tick) : State :=
  match s.commitOf? pTCK with
  | none => s
  | some c =>
    if c.collected ∨ c.b ≠ n then s
    else
      let pOld := s.period
      let phOld := s.phase
      let s := s.tckTakeViews
      let s := s.dropCommit pTCK
      let ideal := if s.period = pOld then s.tck.ideal + s.phase - phOld
        else s.tck.transIdeal.getD s.tck.ideal
      let s := { s with tck := { s.tck with ideal := ideal, transIdeal := none } }
      let s := s.setRegN Reg.TCK_CMT_RES 0
      s.setTransition.raiseIf (s.period != pOld) pTCK 4

/-- At boundary k − 1 of a change of period the tick ends on the first grid point of the new period at or after its own
time + P_old, and a shortening opens no window in it (R70). `none` when no such change is next. -/
def State.transition? (s : State) : Option (Nat × Nat × Bool) :=
  match s.commitOf? pTCK with
  | some c =>
    if !c.collected ∧ c.b = s.now + 1 ∧ s.fld Reg.TCK_PERIOD 0 12 ≠ s.period then
      let g := (gridAfter (s.fld Reg.TCK_PERIOD 0 12) (s.fld Reg.TCK_PHASE 0 12)
        ((netTime s.ntu.rate s.ntu.offset s.ntu.frc).toNat / 65536 + s.period)).2
      some (s.cyclesTo g, g, decide (s.fld Reg.TCK_PERIOD 0 12 < s.period))
    else none
  | none => none

/-- The length of the tick that begins, with SLEWING, and the treatment of a transition tick (R52, R53, R70). -/
def State.beginTick (s : State) : State :=
  let s := match s.transition? with
    | some (l, g, short) => { s with tck := { s.tck with len := l, transIdeal := some g, noWindow := short } }
    | none => { s with tck := { s.tck with len := s.chooseLength, noWindow := false } }
  s.setBit Reg.TCK_STAT 2 (s.running && s.tck.len != s.period)

/-- An accepted stop is cancelled when, before its boundary, a loop leaves OFF, HOLD or FROZEN, or an apply is accepted for the
boundary two after it or a later one (R71). -/
def State.stopWatch (s : State) : State :=
  match s.tck.stopAt with
  | none => s
  | some b =>
    if s.loopsQuiet && !s.applyAtOrAfter (b + 2) then s
    else ({ s with tck := { s.tck with stopAt := none } }).setRegN Reg.TCK_CMT_RES 6

/-- A stop due at boundary `n` (R71). -/
def State.stopAtBoundary (s : State) (n : Tick) : State :=
  match s.tck.stopAt with
  | none => s
  | some b =>
    if b ≠ n then s
    else ({ s with tck := { s.tck with stopAt := none, lastMarker := some (n + 1) } }).setBit Reg.TCK_STAT 0 false

/-- Time moves to the next boundary and it is numbered (R51): the FRC advances by the chosen length, or to the first
grid point after a start. `none` when no boundary is to come. -/
def State.nextBoundary? (s : State) : Option State :=
  match s.tck.startAt with
  | some (j, g) =>
    let s0 := { s with ntu := { s.ntu with frc := s.frcNow, cyc := 0 } }
    let c := s0.cyclesTo g
    let s1 := { s0 with ntu := { s0.ntu with frc := s0.ntu.frc + BitVec.ofNat 96 (65536 * c) } }
    some ({ s1 with tck := { s1.tck with now := BitVec.ofNat 64 j, ideal := g, startAt := none, hbAlive := true } }.setBit
      Reg.TCK_STAT 0 true)
  | none =>
    if s.running then
      some { s with
        ntu := { s.ntu with frc := s.ntu.frc + BitVec.ofNat 96 (65536 * s.tck.len), cyc := 0 }
        tck := { s.tck with now := s.tck.now + 1, ideal := s.tck.ideal + s.period } }
    else none

/-- The heartbeat toggles (R68). -/
def State.toggleHb (s : State) : State := { s with tck := { s.tck with hb := !s.tck.hb, hbAlive := true } }

/-! ### Start and stop -/

/-- CHECKED clears; a commit that waits on it is cancelled (R173, R176). -/
def State.clearChecked (s : State) : State :=
  let s := s.setBit Reg.LPL_STAT 10 false
  match s.commitOf? pLPL with
  | some _ => ((s.dropCommit pLPL).setRegN Reg.LPL_CMT_RES 5).raise pLPL 2
  | none => s

/-- START at a stopped Ringmaster: the first boundary is the first grid point at least 2 × P after the request (R51); the
first start after a reset takes the views, and refuses one out of range (R526). -/
def State.startTck (s : State) : State :=
  if s.running ∨ s.tck.startAt.isSome then s
  else if !s.tck.everStarted && !s.tckRangeOk then s.setRegN Reg.TCK_CMT_RES 1
  else
    let pOld := s.period
    let s := if s.tck.everStarted then s else
      let s := s.setForce Reg.TCK_PERIOD (s.reg Reg.TCK_PERIOD)
      let s := s.setForce Reg.TCK_PHASE (s.reg Reg.TCK_PHASE)
      s.setForce Reg.TCK_SLEW (s.reg Reg.TCK_SLEW)
    let s := if s.period = pOld then s else s.clearChecked
    let g := gridAfter s.period s.phase (s.ntNs + 2 * s.period)
    let s := { s with tck := { s.tck with startAt := some g, everStarted := true } }
    s.setRegN Reg.TCK_CMT_RES 0

/-- STOP: accepted when the conditions of R71 hold at the write, else MODE or BUSY. -/
def State.stopTck (s : State) : State :=
  if !s.running then s
  else if !s.roleActs || s.carousel then s.setRegN Reg.TCK_CMT_RES 2
  else if s.pendingOn pTCK || !s.loopsQuiet || s.applyAtOrAfter (s.now + 3) then s.setRegN Reg.TCK_CMT_RES 3
  else ({ s with tck := { s.tck with stopAt := some (s.now + 1) } }).setRegN Reg.TCK_CMT_RES 0

/-- A write of TCK_CTRL: ALT_FORCE to its view, then STOP and START. -/
def State.tckCtrlWrite (s : State) (v : Word) : State :=
  let s := s.storeReg Reg.TCK_CTRL v
  let s := if bitOf v 1 then s.stopTck else s
  if bitOf v 0 then s.startTck else s

/-- RINGMASTER_START (R51, R526): TCK_CTRL written with START 1 at cycle `cycle`; `v` gives ALT_FORCE. -/
def execRingmasterStart (m : Fin 8) (cycle : Nat) (alt : Bool) (s : State) : Host.Outcome State Fault Refusal :=
  let v := BitVec.ofNat 32 (1 + 4 * b2n alt)
  .next ((s.atCycle cycle).gateWrite m Reg.TCK_CTRL v fun s => (s.storeReg Reg.TCK_CTRL v).startTck)

/-- RINGMASTER_STOP (R71): TCK_CTRL written with STOP 1. -/
def execRingmasterStop (m : Fin 8) (alt : Bool) (s : State) : Host.Outcome State Fault Refusal :=
  let v := BitVec.ofNat 32 (2 + 4 * b2n alt)
  .next (s.gateWrite m Reg.TCK_CTRL v fun s => (s.storeReg Reg.TCK_CTRL v).stopTck)

end Sys2Proof.Machine
end

