-- ==== Sys2Proof/Machine/Topo.lean ====
section
/-! DEFINITION. The photonic fabric (R27 to R48): geometry, wiring, attachment, the topology descriptor and its checks, cell
arrays, the retirement map, state records (R187 to R191) and paths (R209). -/

namespace Sys2Proof.Machine

/-- The FAB page and the RCE page. -/
abbrev pFAB : Nat := 0x050
abbrev pRCE : Nat := 0x051

/-- Cell codes (R43). -/
abbrev cPARK : Nat := 0
abbrev cBAR : Nat := 1
abbrev cCROSS : Nat := 2
abbrev cKEEP : Nat := 3

/-! ### Geometry (R27 to R32) -/

/-- N ports. -/
def Topo.ports (t : Topo) : Nat := 2 ^ t.log2n

/-- S stages. -/
def Topo.stages (t : Topo) : Nat := 2 * t.log2n - 1 + t.extra

/-- The number of cells. -/
def Topo.cells (t : Topo) : Nat := t.ports / 2 * t.stages

/-- Rotate the low `w` bits of `x` right by one. -/
def rotr (x w : Nat) : Nat := x - x % 2 ^ w + (x % 2 ^ w / 2 + x % 2 * 2 ^ (w - 1))

/-- Rotate the low `w` bits of `x` left by one. -/
def rotl (x w : Nat) : Nat := x - x % 2 ^ w + (x % 2 ^ w * 2 % 2 ^ w + x % 2 ^ w / 2 ^ (w - 1))

/-- The standard wiring: the input line of stage k + 1 that output line `x` of stage `k` reaches (R31). -/
def stdLink (n e k x : Nat) : Nat :=
  if e = 2 ∧ k = 0 then rotr x n
  else if e = 2 ∧ k = 2 * n - 1 then rotl x n
  else
    let k := if e = 2 then k - 1 else k
    if k ≤ n - 2 then rotr x (n - k) else rotl x (k + 3 - n)

/-- The wiring in force (R31, R32). -/
def Topo.wire (t : Topo) (k x : Nat) : Nat :=
  if t.explicitWiring then t.wiring.getD (k * t.ports + x) 0 else stdLink t.log2n t.extra k x

/-- The class of a slot: 0 SWC, 1 VOA, 2 MON (R35). -/
def slotClass (slot : Nat) : Nat := if slot % 768 < 672 then 0 else if slot % 768 < 736 then 1 else 2

/-- The standard attach map (R36). -/
def stdCell (c : Nat) : Nat := c / 672 * 768 + c % 672
def stdVoa (p : Nat) : Nat := p / 64 * 768 + 672 + p % 64
def stdMon (m : Nat) : Nat := m / 32 * 768 + 736 + m % 32

/-- What a slot serves. -/
def Topo.elem? (t : Topo) (slot : Nat) : Option Elem := (t.slots.find? (·.1 == slot)).map (·.2)

/-- The slot of an element. -/
def Topo.slotOf? (t : Topo) (e : Elem) : Option Nat := (t.slots.find? (·.2 == e)).map (·.1)

/-- The slot of a cell, or of a VOA. -/
def State.cellSlot? (s : State) (c : Nat) : Option Nat := s.topo.bind fun t => t.slotOf? (.cell c)
def State.voaSlot? (s : State) (p : Nat) : Option Nat := s.topo.bind fun t => t.slotOf? (.voa p)

/-- What a slot serves under the descriptor in force. -/
def State.elem? (s : State) (slot : Nat) : Option Elem := s.topo.bind fun t => t.elem? slot

/-- The attached slots. -/
def State.slots (s : State) : List (Nat × Elem) := match s.topo with | some t => t.slots | none => []

/-- N of the descriptor in force; 0 when none is. -/
def State.nPorts (s : State) : Nat := match s.topo with | some t => t.ports | none => 0

/-- The number of cells of the descriptor in force. -/
def State.nCells (s : State) : Nat := match s.topo with | some t => t.cells | none => 0

/-- The EFE of a slot. -/
def efeOf (slot : Nat) : Nat := slot / 768

/-- A loop's kind by what its slot serves: 0 none, 1 nested, 2 VOA, 3 MON (R133). -/
def Elem.kind : Elem → Nat
  | .cell _ => 1
  | .voa _ => 2
  | .mon _ k => if k = 1 then 3 else 0

/-- The kind of loop `l` (R133). -/
def State.loopKind (s : State) (l : Nat) : Nat := match s.elem? l with | some e => e.kind | none => 0

/-- The path of an input port through `st` stages: the cells visited, and the output line reached (R209). -/
def tracePath (t : Topo) (code : Nat → Nat) : Nat → Nat → Nat → List Nat × Nat
  | 0, _, x => ([], x)
  | fuel + 1, k, x =>
    let c := k * (t.ports / 2) + x / 2
    let y := if code c = cCROSS then (if x % 2 = 0 then x + 1 else x - 1) else x
    if fuel = 0 then ([c], y)
    else
      let r := tracePath t code fuel (k + 1) (t.wire k y)
      (c :: r.1, r.2)

/-! ### Cell arrays (R45) and the retirement map (R46, R47) -/

/-- Code of cell `c` in a cell array of bytes. -/
def cellAt (l : List Byte) (c : Nat) : Nat := (l.getD (c / 4) 0).toNat / 4 ^ (c % 4) % 4

/-- The codes of `n` cells of an array at a memory address, as a sparse table. -/
def State.cellArray (s : State) (addr n : Nat) : Sparse Nat :=
  (List.range n).filterMap fun c =>
    let v := (s.byte (addr + c / 4)).toNat / 4 ^ (c % 4) % 4
    if v = 0 then none else some (c, v)

/-- The code of a cell in a table. -/
def codeOf (m : Sparse Nat) (c : Nat) : Nat := Sparse.get 0 c m

/-- The retirement code of a cell. -/
def State.retCode (s : State) (c : Nat) : Nat := s.fld (Reg.FAB_RETMAP + 4 * (c / 16)) (2 * (c % 16)) 2

/-- The retirement map or the absent set changes while solver jobs run (R236). -/
def State.staleJobs (s : State) : State :=
  { s with rsv := { s.rsv with run := s.rsv.run.map fun j => { j with stale := true }
                               susp := s.rsv.susp.map fun j => { j with stale := true } } }

/-- The device writes a retirement code; FAB INT_STAT bit 2 (R47, R213). -/
def State.writeRet (s : State) (c code : Nat) : State :=
  let s := if s.retCode c = (if code = cCROSS then 2 else 1) then s else s.staleJobs
  let a := Reg.FAB_RETMAP + 4 * (c / 16)
  let s := s.setFld a (2 * (c % 16)) 2 (if code = cCROSS then 2 else 1)
  (s.journalWords [(a, (s.reg a).toNat)]).raise pFAB 2

/-! ### The descriptor's checks (R39 to R41) -/

/-- A load's result: code, table and entry. -/
structure DescRes where
  code : Nat
  table : Nat := 0
  entry : Nat := 0
  deriving DecidableEq, Repr

/-- The descriptor's header (R39). -/
structure DescHdr where
  log2n : Nat
  extra : Nat
  topoId : Nat
  wmode : Nat
  amode : Nat
  efeCount : Nat
  efeMask : Nat
  monCount : Nat
  wofs : Nat
  aofs : Nat
  mofs : Nat
  length : Nat
  deriving DecidableEq, Repr

/-- Read the header. -/
def readHdr (l : List Byte) : DescHdr :=
  { log2n := leAt l 6 1, extra := leAt l 7 1, topoId := leAt l 8 4, wmode := leAt l 12 1, amode := leAt l 13 1
    efeCount := leAt l 14 1, efeMask := leAt l 16 2, monCount := leAt l 18 2, wofs := leAt l 20 4, aofs := leAt l 24 4
    mofs := leAt l 28 4, length := leAt l 32 4 }

/-- MAGIC, VERSION and LENGTH, tested on the header alone. -/
def magicOk (l : List Byte) : Bool :=
  leAt l 0 4 == 0x504F5446 && leAt l 4 2 == 1 && decide (64 ≤ leAt l 32 4) && decide (leAt l 32 4 ≤ 131072)

/-- CRC-32C of a list of bytes with the four bytes at `o` taken as 0. -/
def crcSkip (l : List Byte) (o : Nat) : Nat := (crc32c (l.take o ++ [0, 0, 0, 0] ++ l.drop (o + 4))).toNat

/-- The sizes of the three tables. -/
def DescHdr.wLen (h : DescHdr) : Nat := if h.wmode = 1 then (2 * h.log2n - 2 + h.extra) * 2 ^ h.log2n * 2 else 0
def DescHdr.aLen (h : DescHdr) : Nat :=
  if h.amode = 1 then (2 ^ h.log2n / 2 * (2 * h.log2n - 1 + h.extra) + 2 ^ h.log2n) * 2 else 0
def DescHdr.mLen (h : DescHdr) : Nat := 4 * h.monCount

/-- A table lies within LENGTH on a 64-byte boundary, after the header. -/
def DescHdr.placed (h : DescHdr) (o len : Nat) : Bool :=
  len == 0 || (o % 64 == 0 && decide (64 ≤ o) && decide (o + len ≤ h.length))

/-- Two tables do not overlap. -/
def apart (o1 l1 o2 l2 : Nat) : Bool := l1 == 0 || l2 == 0 || decide (o1 + l1 ≤ o2) || decide (o2 + l2 ≤ o1)

/-- The header's part of BAD_GEOMETRY. R39 gives WIRING_MODE and ATTACH_MODE the values 0 and 1 and R41 names no result for another:
such a descriptor is refused here (DESIGN CHOICE). -/
def geomOk (l : List Byte) (h : DescHdr) : Bool :=
  decide (6 ≤ h.log2n) && decide (h.log2n ≤ 10) && (h.extra == 0 || h.extra == 2) && h.topoId != 0
    && h.efeCount == popCount 16 h.efeMask && (h.amode != 0 || h.efeMask == 2 ^ (2 ^ h.log2n / 64) - 1)
    && decide (h.wmode ≤ 1) && decide (h.amode ≤ 1)
    && h.placed h.wofs h.wLen && h.placed h.aofs h.aLen && h.placed h.mofs h.mLen
    && apart h.wofs h.wLen h.aofs h.aLen && apart h.wofs h.wLen h.mofs h.mLen && apart h.aofs h.aLen h.mofs h.mLen
    && leAt l 15 1 == 0 && (sliceB l 0x24 24).all (· == 0) && decide (h.monCount ≤ 32 * h.efeCount)

/-- The entries of a table, `w` bytes each. -/
def entries (l : List Byte) (o len w : Nat) : List Nat := (List.range (len / w)).map fun i => leAt l (o + w * i) w

/-- The first entry that fails a test. -/
def firstBad (l : List Nat) (bad : Nat → Bool) : Option Nat := (l.zipIdx.find? fun e => bad e.1).map (·.2)

/-- The first entry of a link that repeats an input line already named in it. -/
def repeatBad (seen : List Nat) : List (Nat × Nat) → Option Nat
  | [] => none
  | (v, i) :: t => if seen.contains v then some i else repeatBad (v :: seen) t

/-- The entry that FAB_DESC_RES names for a link that is no permutation: the first that repeats a line. A link that repeats none
holds a line ≥ N; the first such entry is named, of which R41 says nothing (DESIGN CHOICE). -/
def linkBad (n : Nat) (l : List (Nat × Nat)) : Option Nat :=
  if l.any fun e => decide (n ≤ e.1) then (repeatBad [] l).orElse fun _ => (l.find? fun e => decide (n ≤ e.1)).map (·.2)
  else repeatBad [] l

/-- The offending entry of the first link of a wiring table that is no permutation (WIRING_NOT_PERM). -/
def permBad (n : Nat) (w : List Nat) : Option Nat :=
  let l := w.zipIdx
  (List.range (w.length / max 1 n)).findSome? fun k => linkBad n ((l.drop (n * k)).take n)

/-- The first entry, counted over attach and then MON, whose slot an earlier one names (ATTACH_DUP). -/
def dupBad (seen : List Nat) : List (Nat × Nat × Nat) → Option (Nat × Nat)
  | [] => none
  | (v, tb, i) :: t => if seen.contains v then some (tb, i) else dupBad (v :: seen) t

/-- The attached slots in ascending order. -/
def sortSlots (l : List (Nat × Elem)) : List (Nat × Elem) :=
  (l.foldl (fun (m : Sparse (Option Elem)) e => Sparse.put none e.1 (some e.2) m) []).filterMap fun e =>
    e.2.map fun x => (e.1, x)

/-- The elements of a descriptor with their slots. -/
def descSlots (h : DescHdr) (att mon : List Nat) : List (Nat × Elem) :=
  let n := 2 ^ h.log2n
  let cells := n / 2 * (2 * h.log2n - 1 + h.extra)
  let cv := if h.amode = 1 then att.zipIdx.map fun e =>
      (e.1, if e.2 < cells then Elem.cell e.2 else Elem.voa (e.2 - cells))
    else ((List.range cells).map fun c => (stdCell c, Elem.cell c)) ++ ((List.range n).map fun p => (stdVoa p, Elem.voa p))
  let ms := if h.monCount ≠ 0 then mon.zipIdx.map fun e => (e.1 % 16384, Elem.mon e.2 (e.1 / 65536 % 4))
    else if h.amode = 0 then (List.range (n / 2)).map fun m => (stdMon m, Elem.mon m 0)
    else []
  sortSlots (cv ++ ms)

/-- The class an attach entry's slot must have. -/
def wantClass (cells i : Nat) : Nat := if i < cells then 0 else 1

/-- The checks of R41 that follow the reading, in order; the descriptor when all pass. -/
def checkDesc (l : List Byte) : DescRes × Option Topo :=
  let h := readHdr l
  let l := l.take h.length
  if h.length ≠ l.length ∨ crcSkip l 0x3C ≠ leAt l 0x3C 4 then ({ code := 3 }, none)
  else if !geomOk l h then ({ code := 4 }, none)
  else
    let n := 2 ^ h.log2n
    let cells := n / 2 * (2 * h.log2n - 1 + h.extra)
    let w := entries l h.wofs h.wLen 2
    let a := entries l h.aofs h.aLen 2
    let m := entries l h.mofs h.mLen 4
    match firstBad w fun v => decide (v / 1024 ≠ 0) with
    | some i => ({ code := 4, table := 1, entry := i }, none)
    | none =>
    match firstBad a fun v => decide (v / 16384 ≠ 0) with
    | some i => ({ code := 4, table := 2, entry := i }, none)
    | none =>
    match firstBad m fun v => decide (v / 16384 % 4 ≠ 0) || decide (v / 2 ^ 18 ≠ 0) || decide (v / 65536 % 4 = 3) with
    | some i => ({ code := 4, table := 3, entry := i }, none)
    | none =>
    match permBad n w with
    | some i => ({ code := 5, table := 1, entry := i }, none)
    | none =>
    let out (v : Nat) : Bool := decide (v ≥ 12288) || !bitAt h.efeMask (v / 768)
    match firstBad a out with
    | some i => ({ code := 6, table := 2, entry := i }, none)
    | none =>
    match firstBad (m.map (· % 16384)) out with
    | some i => ({ code := 6, table := 3, entry := i }, none)
    | none =>
    match a.zipIdx.find? fun e => slotClass e.1 != wantClass cells e.2 with
    | some e => ({ code := 7, table := 2, entry := e.2 }, none)
    | none =>
    match firstBad (m.map (· % 16384)) fun v => slotClass v != 2 with
    | some i => ({ code := 7, table := 3, entry := i }, none)
    | none =>
    match dupBad [] ((a.zipIdx.map fun e => (e.1, 2, e.2)) ++ (m.zipIdx.map fun e => (e.1 % 16384, 3, e.2))) with
    | some (tb, i) => ({ code := 8, table := tb, entry := i }, none)
    | none => ({ code := 0 }, some { log2n := h.log2n, extra := h.extra, topoId := h.topoId, efeMask := h.efeMask
                                     wiring := w, explicitWiring := h.wmode == 1, explicitAttach := h.amode == 1
                                     slots := descSlots h a m })

/-! ### State records (R187 to R191) -/

/-- The address of record `i`. -/
def recAddr (i : Nat) : Nat := 0x10000000 + i * 0x1000

/-- The CRC a record's bytes give. -/
def recCrc (l : List Byte) : Nat := crcSkip (l.take 0xAC0) 0x3C

/-- The checks of R189 on the bytes of a record at position `i`. -/
def State.checkRecBytes (s : State) (l : List Byte) (i : Nat) : Nat :=
  match s.topo with
  | none => 7
  | some t =>
    if leAt l 0 4 ≠ 0x4B56424D ∨ leAt l 6 2 ≠ 1 ∨ !(sliceB l 0x14 40).all (· == 0) ∨ leAt l 0x10 4 / 4 ≠ 0 then 8
    else if leAt l 4 2 ≠ i then 9
    else if leAt l 8 4 ≠ t.topoId then 0xA
    else if recCrc l ≠ leAt l 0x3C 4 then 0xB
    else 0

/-- The checks of R189 on a record of the store. -/
def State.checkRec (s : State) (i : Nat) : Nat := s.checkRecBytes (s.bytes (recAddr i) 0xAC0) i

/-- The cell codes of a record of the store. -/
def State.recCells (s : State) (i : Nat) : Sparse Nat := s.cellArray (recAddr i + 0x40) s.nCells

/-- GENERATION of a record of the store. -/
def State.recGen (s : State) (i : Nat) : Nat := s.loadN (recAddr i + 0xC) 4

/-- Write a record into the store: header fields, cell array and CRC (R188). -/
def State.putRec (s : State) (i topoId gen flags : Nat) (cells : List Byte) : State :=
  let h := toLE 4 0x4B56424D ++ toLE 2 i ++ toLE 2 1 ++ toLE 4 topoId ++ toLE 4 gen ++ toLE 4 flags
    ++ List.replicate 40 (0 : Byte)
  let crc := (crc32c (h ++ [0, 0, 0, 0] ++ cells)).toNat
  s.setBytes (recAddr i) (h ++ toLE 4 crc ++ cells ++ List.replicate 1344 (0 : Byte))

/-- A cell array of bytes from a code function over `n` cells (R45). -/
def packCells (n : Nat) (code : Nat → Nat) : List Byte :=
  (List.range 2688).map fun b =>
    BitVec.ofNat 8 ((List.range 4).foldl (fun v j => v + (if 4 * b + j < n then code (4 * b + j) % 4 else 0) * 4 ^ j) 0)

/-- To overlay a record (R204): each code by the record's, except where it holds KEEP. -/
def overlay (n : Nat) (st rec : Sparse Nat) : Sparse Nat :=
  (List.range n).foldl (fun m c =>
    let v := codeOf rec c
    if v = cKEEP then m else Sparse.put 0 c v m) st

/-! ### Inputs unavailable (R42, R212) -/

/-- Input port `p` is unavailable: its VOA lies on an absent EFE. -/
def State.unavail (s : State) (p : Nat) : Bool :=
  match s.voaSlot? p with | some slot => s.absent (efeOf slot) | none => false

/-- Some VOA is attached on EFE `e`. -/
def State.hasVoa (s : State) (e : Nat) : Bool :=
  s.slots.any fun x => efeOf x.1 == e && (match x.2 with | .voa _ => true | _ => false)

/-- ABSENT of a port changes; FAB INT_STAT bit 3 when a bit of FAB_IN_UNAVAIL changes with it (R213). -/
def State.setAbsent (s : State) (n : Nat) (b : Bool) : State :=
  let was := s.absent n
  let s := if was = b then s else s.staleJobs
  (s.setBit (atInst Reg.BYV_STAT n) 6 b).raiseIf (was != b && s.hasVoa n) pFAB 3

/-- The composed code of a cell at boundary `now`, at `now + 1`, at `now + 2`. -/
def State.code0 (s : State) (c : Nat) : Nat := codeOf s.rce.s0 c
def State.code1 (s : State) (c : Nat) : Nat := codeOf s.rce.s1 c
def State.code2 (s : State) (c : Nat) : Nat := codeOf s.rce.s2 c

/-- RCE_STAT.SAFE. -/
def State.safe (s : State) : Bool := s.bit Reg.RCE_STAT 0

end Sys2Proof.Machine
end

