-- ==== Sys2Proof/Machine/Byv.lean ====
section
/-! DEFINITION. The Byevo ports (R75 to R113): training, discovery, delay, frames received, lane faults and the changes
announced. What the ports send stands in Line.lean. -/

namespace Sys2Proof.Machine

/-- The page of port `n`. -/
def pBYV (n : Nat) : Nat := 0x010 + n

/-- Port states of R82. -/
abbrev stDisabled : Nat := 0
abbrev stWait : Nat := 1
abbrev stPmd : Nat := 2
abbrev stLock : Nat := 3
abbrev stDiscover : Nat := 4
abbrev stDelay : Nat := 5
abbrev stSync : Nat := 6
abbrev stRun : Nat := 7
abbrev stDown : Nat := 8

/-- Enter a port state. -/
def State.setPortState (s : State) (n st : Nat) : State := s.setFld (atInst Reg.BYV_STAT n) 12 4 st

/-- LANES_UP of a port. -/
def State.setLanesUp (s : State) (n m : Nat) : State := s.setFld (atInst Reg.BYV_STAT n) 10 2 m

/-- LANES_RET of a port. -/
def State.lanesRet (s : State) (n : Nat) : Nat := s.fld (atInst Reg.BYV_STAT n) 8 2

/-- The lanes that may train: BYV_CTRL.LANE_EN in force. -/
def State.laneEn (s : State) (n : Nat) : Nat := s.ffld (atInst Reg.BYV_CTRL n) 0 2

/-- The page's words of the latest training result. -/
def State.trainRes (s : State) (n res lanes : Nat) : State :=
  s.setRegN (atInst Reg.BYV_TRAIN_RES n) (res + lanes * 256)

/-- A training attempt or RESTORE fails: result, failed lanes and INT_STAT bit 4 (R82, R113). -/
def State.trainFail (s : State) (n res lanes : Nat) : State := (s.trainRes n res lanes).raise (pBYV n) 4

/-- SYNC and RUN: the states in which the port exchanges frames. -/
def State.inService (s : State) (n : Nat) : Bool := s.portState n == stSync || s.portState n == stRun

/-! ### Announcements (R105) -/

/-- Alternating sense by the period or ALT_FORCE in force (R58). -/
def State.senseBase (s : State) : Bool := decide (s.period < 920) || s.altForce

/-- The same at tick `t`: a TCK commit that waits governs from its boundary on. -/
def State.senseBaseAt (s : State) (t : Tick) : Bool :=
  match s.commitOf? pTCK with
  | some c =>
    if !c.collected && decide (c.b.toNat ≤ t.toNat) then decide (s.fld Reg.TCK_PERIOD 0 12 < 920) || s.bit Reg.TCK_CTRL 2
    else s.senseBase
  | none => s.senseBase

/-- The sense R58 asks of an EFE with `lanes` lanes in service. -/
def State.senseAsked (s : State) (lanes : Nat) : Bool := s.senseBase || lanes != 3

/-- The announcement that the header carries: the newest whose tick is still to come, else the newest. R105 does not say which of
several stands in the one set of header fields (DESIGN CHOICE). -/
def PortSt.shown (p : PortSt) (now : Tick) : Option Announce :=
  (p.ann.find? fun a => decide (now.toNat < a.tick.toNat)).orElse fun _ => p.ann.head?

/-- BYV_CHANGE, BYV_CHANGE_TICK and CHANGE_PEND show that announcement. -/
def State.showChange (s : State) (n : Nat) : State :=
  let p := s.port n
  let s := match p.shown s.now with
    | some a =>
      (s.setRegN (atInst Reg.BYV_CHANGE n) (2 ^ 31 + b2n a.alt * 2 ^ 30 + a.lanes % 4 * 2 ^ 28)).setReg
        (atInst Reg.BYV_CHANGE_TICK n) (a.tick.setWidth 32)
    | none => s.setBit (atInst Reg.BYV_CHANGE n) 31 false
  s.setBit (atInst Reg.BYV_STAT n) 4 (p.ann.any fun a => decide (s.now.toNat < a.tick.toNat))

/-- The lanes that the announcements still to take effect leave in service last. -/
def State.nextLanes (s : State) (n : Nat) : Nat :=
  let p := s.port n
  match p.ann.find? (fun a => decide (s.now.toNat < a.tick.toNat)) with
  | some a => a.lanes
  | none => p.lanesTx

/-- A port announces a change for tick `t` with the lanes in service from then on (R105); a change already announced for a later
tick keeps its sense and takes these lanes. INT_STAT bit 6. -/
def State.announce (s : State) (n : Nat) (t : Tick) (lanes : Nat) (tck : Bool) : State :=
  let a : Announce := { tick := t, base := s.senseBaseAt t, lanes := lanes, made := s.now, tck := tck }
  let s := s.setPort n fun p => { p with
    ann := a :: p.ann.map fun x => if t.toNat ≤ x.tick.toNat then { x with lanes := lanes } else x }
  (s.showChange n).raise (pBYV n) 6

/-- The announcement that a TCK commit due at `k` makes on a port with `lanes` lanes: only where the EFE's sense changes. -/
def State.announceTckOn (s : State) (k : Tick) (lanes n : Nat) : State :=
  if s.inService n && lanes == 3 && s.senseBaseAt k != s.senseBase then s.announce n k lanes true else s

/-- The announcements of a TCK commit accepted for tick `k`, on every port (R105). -/
def State.announceTck (s : State) (k : Tick) : State :=
  (List.range 16).foldl (fun s n => s.announceTckOn k (s.nextLanes n) n) s

/-- The announcement of the TCK commit that waits, on a port that has not made it. -/
def State.announcePending (s : State) (lanes n : Nat) : State :=
  match s.commitOf? pTCK with
  | some c => if !c.collected && !(s.port n).ann.any (·.tck) then s.announceTckOn c.b lanes n else s
  | none => s

/-- A change of the lanes in service, announced in tick r for r + 4 (R105). -/
def State.announceLanes (s : State) (n lanes : Nat) : State := (s.announcePending lanes n).announce n (s.now + 4) lanes false

/-- The announcements that withdraw those of a TCK commit for `k` cancelled in the present tick (R105). -/
def State.withdrawTck (s : State) (k : Tick) : State :=
  let c := s.now
  let at' := if c.toNat + 4 ≤ k.toNat then k else c + 4
  (List.range 16).foldl (fun s n =>
    if (s.port n).ann.any fun a => a.tck && a.tick == k then
      let lanes := s.nextLanes n
      let s := if at' = k then s.setPort n fun p => { p with ann := p.ann.filter fun a => !(a.tck && a.tick == k) } else s
      s.announce n at' lanes false
    else s) s

/-- The TCK commit that waits is cancelled as soon as a condition of R69 fails, and withdrawn from the ports; an active's journal
says so. -/
def State.tckWatch (s : State) : State :=
  match s.commitOf? pTCK with
  | some c =>
    if s.tckFails c then
      ((if s.red.journal then s.journalPut (cReg pTCK OFF_COMMIT) 2 else s).tckCancel).withdrawTck c.k
    else s
  | none => s

/-! ### Lanes and attempts -/

/-- R61 comes into force on a port whose lane is retired while P < 920: TCK_STAT.SHORT_DEG, TCK INT_STAT bit 3, and the EFE is
absent. A port that enters SYNC with a lane retired, or is degraded when a shorter period takes effect, counts alike (DEDUCED:
it cannot meet O either). -/
def State.markShort (s : State) (n : Nat) : State :=
  if s.period < 920 ∧ !(s.port n).short then
    (((s.setPort n fun p => { p with short := true }).setAbsent n true).setBit Reg.TCK_STAT 6 true).raise pTCK 3
  else s

/-- R61 at a boundary: it ends on every port when the period in force is at least 920, else it is in force on each degraded port
in SYNC or RUN. -/
def State.updateShortDeg (s : State) : State :=
  if s.period < 920 then
    (List.range 16).foldl (fun s n => if s.inService n && s.lanesUp n != 3 then s.markShort n else s) s
  else
    ((List.range 16).foldl (fun s n => if (s.port n).short then s.setPort n fun p => { p with short := false } else s) s).setBit
      Reg.TCK_STAT 6 false

/-- Lane `k` of a port retires, or counts as retired (R82, R104); a TCK commit that this forbids is cancelled (R69). -/
def State.laneOut (s : State) (n k : Nat) : State :=
  let s := s.setBit (atInst Reg.BYV_STAT n) (8 + k) true
  let s := s.setBit (atInst Reg.BYV_STAT n) (10 + k) false
  (s.retire (pBYV n) k 0x10 k).tckWatch

/-- Each lane of a mask retires. -/
def State.lanesOut (s : State) (n m : Nat) : State := (setBits 2 m).foldl (fun s k => s.laneOut n k) s

/-- Lane `k` is no longer retired. -/
def State.laneBack (s : State) (n k : Nat) : State :=
  (s.setBit (atInst Reg.BYV_STAT n) (8 + k) false).unretire (pBYV n) k

/-- BYV_LANE_FCNT shows the consecutive counts (R112). -/
def State.showLaneCnt (s : State) (n : Nat) : State :=
  s.setRegN (atInst Reg.BYV_LANE_FCNT n) (min 255 (s.run (pBYV n) 0) + 256 * min 255 (s.run (pBYV n) 1))

/-- The port enters DOWN: both lanes retired, the EFE absent (R82, R104). -/
def State.portDown (s : State) (n : Nat) : State :=
  let s := s.setPortState n stDown
  let s := (s.setLanesUp n 0).setAbsent n true
  let s := s.setPort n fun p => { p with echoing := false, training := 0, trained := 0, gotTick := none, lanesTx := 0 }
  s.raise (pBYV n) 2

/-- An attempt begins on the lanes that it may train and LANE_EN allows; the others count as retired, and with none left the port
enters DOWN (R82). -/
def State.beginAttempt (s : State) (n : Nat) : State :=
  let en := s.laneEn n &&& (s.port n).attempt
  let s := (s.setLanesUp n 0).setAbsent n true
  let s := (setBits 2 en).foldl (fun s k => s.laneBack n k) s
  let s := s.lanesOut n (3 ^^^ en)
  let s := s.setPort n fun p => { p with
    echoes := [], echoing := false, delayOk := false, training := en, trained := 0, failed := 0, unlocked := 0, badNow := false
    align0 := 0, align1 := 0, good := 0, lost := 0, gotTick := none, sched := none, schedDue := none, ann := [], lanesTx := 0 }
  let s := (s.showLaneCnt n).showChange n
  if en = 0 then s.portDown n else s.setPortState n stPmd

/-- An attempt of the whole port starts (R82, R108). -/
def State.startAttempt (s : State) (n : Nat) : State := (s.setPort n fun p => { p with attempt := 3 }).beginAttempt n

/-- The first attempt of a port since start-up is over; when it failed, that is warning 0x81 unless a code stands (R517, R521). -/
def State.firstAttempt (s : State) (n : Nat) (warn : Bool) : State :=
  if !bitAt s.rst.firstTry n then s
  else
    let s := { s with rst := { s.rst with firstTry := s.rst.firstTry &&& (0xFFFF ^^^ 2 ^ n) } }
    if warn then s.setFld Reg.GLB_BOOT 8 8 0x81 else s

/-- A failed attempt: the result with every lane that failed in it, INT_STAT bit 4, and WAIT (R82, R112). -/
def State.attemptFails (s : State) (n res lanes : Nat) : State :=
  let s := s.trainFail n res ((s.port n).failed ||| lanes)
  let s := s.firstAttempt n (s.fld Reg.GLB_BOOT 8 8 == 0)
  let s := (s.setPortState n stWait).setLanesUp n 0
  (s.setAbsent n true).setPort n fun p => { p with echoing := false, training := 0, trained := 0, delayOk := false }

/-- Lanes fail PMD_TRAIN or LOCK while the other succeeds: they retire, and the result names them (R82). -/
def State.lanesFail (s : State) (n res m : Nat) : State :=
  if m = 0 then s
  else
    let s := (s.lanesOut n m).setPort n fun p => { p with failed := p.failed ||| m }
    s.trainRes n res (s.port n).failed

/-- Clause 136 training has completed on the lanes `m` (R82, R108): in PMD_TRAIN the port goes on, and later on these are lanes
under RESTORE. -/
def State.pmdTrained (s : State) (n m : Nat) : State :=
  let p := s.port n
  let got := m &&& p.training
  if got = 0 then s
  else if s.portState n = stPmd then
    let s := s.setPort n fun p => { p with trained := got, training := 0, align0 := 0, align1 := 0 }
    (s.lanesFail n 2 (p.training &&& (3 ^^^ got))).setPortState n stLock
  else if s.portState n = stDown then s
  else
    s.setPort n fun p => { p with
      trained := p.trained ||| got
      align0 := if bitAt got 0 then 0 else p.align0, align1 := if bitAt got 1 then 0 else p.align1 }

/-- The lanes of a port that are locked, among those trained (R80). -/
def PortSt.locked (p : PortSt) : Nat :=
  p.trained &&& (b2n (decide (p.align0 ≥ 2)) + 2 * b2n (decide (p.align1 ≥ 2)))

/-- The skew of a port lies within R81: at most 10 ns, 265 whole UI, between two lanes in use. -/
def PortSt.skewOk (p : PortSt) : Bool := p.trained != 3 || decide (p.skew.natAbs ≤ 265)

/-- The lanes `m` of an attempt go on to DISCOVER. -/
def State.toDiscover (s : State) (n m : Nat) : State :=
  let s := (setBits 2 (m &&& s.lanesRet n)).foldl (fun s k => s.laneBack n k) s
  let s := s.setLanesUp n m
  let s := s.setPort n fun p => { p with training := p.training &&& (3 ^^^ m), trained := m, lanesTx := m }
  s.setPortState n stDiscover

/-- Restored lanes return to service (R108): announced for r + 4 where frames go (R105), at once before SYNC. -/
def State.lanesReturn (s : State) (n m : Nat) : State :=
  let s := (setBits 2 m).foldl (fun s k => s.laneBack n k) s
  let up := s.lanesUp n ||| m
  let s := s.setLanesUp n up
  let s := s.setPort n fun p => { p with training := p.training &&& (3 ^^^ m), trained := up, failed := 0 }
  let s := (s.trainRes n 0 0).showLaneCnt n
  if s.inService n then s.announceLanes n up else s.setPort n fun p => { p with lanesTx := up }

/-- A received ALIGN block (R80): the first sets codeword boundaries and skew, a second in its place locks the lane; an attempt
whose trained lanes are all locked within R81 goes on to DISCOVER, a restored lane returns to service. -/
def State.alignRx (s : State) (n k : Nat) (inPlace : Bool) (skew : Int) : State :=
  let up (c : Nat) : Nat := if inPlace then min 2 (c + 1) else 1
  let s := s.setPort n fun p => { p with
    skew := skew
    align0 := if k = 0 then up p.align0 else p.align0, align1 := if k = 1 then up p.align1 else p.align1 }
  let p := s.port n
  let locked := (if k = 0 then p.align0 else p.align1) = 2
  let s := if locked then s.setPort n fun p => { p with unlocked := p.unlocked &&& (3 ^^^ 2 ^ k) } else s
  if s.portState n = stLock then
    if p.locked = p.trained ∧ p.trained ≠ 0 ∧ p.skewOk then s.toDiscover n p.trained else s
  else if s.portState n = stDown then s
  else
    let m := p.locked &&& p.training
    if m ≠ 0 ∧ p.skew.natAbs ≤ 265 then s.lanesReturn n m else s

/-- Loss of lock on lane `k`, its third ALIGN block in a row missing from its place (R80): the lane has a fault in every tick until
two ALIGN blocks in their places lock it again (R104). -/
def State.alignMissing (s : State) (n k : Nat) : State :=
  s.setPort n fun p => { p with
    lost := p.lost ||| 2 ^ k
    unlocked := p.unlocked ||| 2 ^ k
    align0 := if k = 0 then 0 else p.align0, align1 := if k = 1 then 0 else p.align1 }

/-- The lower-numbered lane in service (R85, R86). -/
def State.lowLane (s : State) (n : Nat) : Nat := if bitAt (s.lanesUp n) 0 then 0 else 1

/-- An ECHO_REQ goes out on port `n` (R85). -/
def State.sendEchoReq (s : State) (n q : Nat) : State := s.sendControl n (echoReqBlock q) (.echoReq n q (s.lowLane n))

/-- A DISCOVER_ACK goes out on port `n` (R79, R85). -/
def State.sendAck (s : State) (n res : Nat) (valid : Bool) (d : Nat) (skew : Int) : State :=
  s.sendControl n (ackBlock n res valid d skew) (.discoverAck n res valid d skew)

/-- Begin eight ECHO exchanges (R85). -/
def State.beginEcho (s : State) (n : Nat) : State :=
  let q := ((s.port n).echoSeq + 1) % 65536
  (s.setPort n fun p => { p with echoes := [], echoing := true, echoSeq := q }).sendEchoReq n q

/-- The result of R83's checks, in their order. -/
def discoverResult (n efe proto layout hold : Nat) : Nat :=
  if efe ≠ n then 0x6 else if layout ≠ 1 then 0x7 else if proto ≠ 1 then 0x8 else if hold < 100 then 0xC else 0

/-- A DISCOVER block (R83). BYV_EFE_INFO takes the fields of an accepted one, as R112 says of BYV_EFE_ID; of BYV_EFE_INFO it says
only "reported" (DESIGN CHOICE). -/
def State.discover (s : State) (n id efe proto layout te hold : Nat) : State :=
  if s.portState n ≠ stDiscover then s else
  let r := discoverResult n efe proto layout hold
  let s := s.sendAck n r false 0 0
  if r ≠ 0 then s.attemptFails n r 0
  else
    let s := s.setReg64 (atInst Reg.BYV_EFE_ID n) (id % 2 ^ 64)
    let s := s.setRegN (atInst Reg.BYV_EFE_INFO n) (te % 65536 * 65536 + proto % 256 * 256 + layout % 16 * 16 + efe % 16)
    (s.setPortState n stDelay).beginEcho n

/-- The port enters SYNC (R82, R521): nothing that came before counts there, and a TCK commit that waits is announced. -/
def State.toSync (s : State) (n : Nat) : State :=
  let s := s.setPort n fun p => { p with
    good := 0, delayOk := false, lost := 0, corr0 := 0, corr1 := 0, badNow := false, sched := none, schedDue := none, ann := []
    lanesTx := s.lanesUp n, alt := s.senseAsked (s.lanesUp n) }
  let s := (s.setPortState n stSync).showChange n
  let s := s.announcePending (s.lanesUp n) n
  if s.lanesUp n = 3 then s else s.markShort n

/-- The Ringmaster has made its first boundary since the reset. -/
def State.firstStarted (s : State) : Bool := s.tck.everStarted && s.tck.startAt.isNone

/-- The eight round trips are in: d, or DELAY_FAIL when they span more than 4 UI (R85). -/
def State.echoDone (s : State) (n : Nat) (rs : List Nat) : State :=
  let te := s.fld (atInst Reg.BYV_EFE_INFO n) 16 16
  let hi := rs.foldl max 0
  let lo := rs.foldl min (rs.headD 0)
  let s := s.setPort n fun p => { p with echoing := false }
  if hi - lo > 4 then
    if s.portState n = stDelay then s.attemptFails n 0x9 0
    else (s.setFld (atInst Reg.BYV_TRAIN_RES n) 0 4 0x9).raise (pBYV n) 4
  else
    let d := (((rs.map fun (r : Nat) => ((r : Int) - (te : Int))).foldl (· + ·) 0).fdiv 16).toNat
    let sk := (s.port n).skew
    let s := s.setRegN (atInst Reg.BYV_DELAY n) (low 16 sk * 65536 + d % 65536)
    let s := s.sendAck n 0 true d sk
    if s.portState n = stDelay then
      let s := (s.trainRes n 0 (s.port n).failed).firstAttempt n false
      if s.firstStarted then s.toSync n else s.setPort n fun p => { p with delayOk := true }
    else s

/-- An ECHO_RSP block answering sequence number `q` after a round trip of `r` UI (R85). -/
def State.echoRsp (s : State) (n q r : Nat) : State :=
  let p := s.port n
  if !p.echoing ∨ q ≠ p.echoSeq then s else
  let rs := p.echoes ++ [r]
  if rs.length ≥ 8 then s.echoDone n rs
  else
    let q' := (q + 1) % 65536
    (s.setPort n fun p => { p with echoes := rs, echoSeq := q' }).sendEchoReq n q'

/-- A training limit expires (R82, R108); `signal` says whether a lane under PMD training saw a signal. -/
def State.trainTimeout (s : State) (n : Nat) (signal : Bool) : State :=
  let p := s.port n
  let st := s.portState n
  if st = stPmd then s.attemptFails n (if signal then 2 else 1) p.training
  else if st = stLock then
    if p.locked = 0 then s.attemptFails n 3 p.trained
    else if p.locked = p.trained then s.attemptFails n 4 p.trained
    else
      let bad := p.trained &&& (3 ^^^ p.locked)
      (s.lanesFail n 3 bad).toDiscover n p.locked
  else if st = stDiscover then s.attemptFails n 5 0
  else if st = stDelay then (if p.delayOk then s else s.attemptFails n 9 0)
  else if st = stSync then s.attemptFails n 0xA 0
  else if st = stRun ∧ p.training ≠ 0 then
    let res := if p.training &&& p.trained = 0 then (if signal then 2 else 1) else if p.locked &&& p.training = p.training then 4 else 3
    (s.trainFail n res p.training).setPort n fun p => { p with training := 0, trained := s.lanesUp n }
  else s

/-- The 10 ms of WAIT are over (R82). -/
def State.trainRetry (s : State) (n : Nat) : State := if s.portState n = stWait then s.beginAttempt n else s

/-- Lane `k` of a port retires in the present tick, and the other lane with it when it has reached the threshold too (R104,
R105). -/
def State.laneRetire (s : State) (n k : Nat) : State :=
  if !bitAt (s.lanesUp n) k then s else
  let both := s.isDue (pBYV n) (1 - k) && bitAt (s.lanesUp n) (1 - k)
  let s := s.laneOut n k
  let s := (if both then s.laneOut n (1 - k) else s).raise (pBYV n) 1
  let left := s.lanesUp n
  if left = 0 then s.portDown n
  else if s.inService n then (s.announceLanes n left).markShort n
  else s.setPort n fun p => { p with lanesTx := left }

/-- BYV_CTRL.RESTORE of the lanes `m` (R108): a retired lane whose LANE_EN bit is 0 fails at once, the others train: from DOWN in
an attempt of these lanes alone, else beside the lane in service; before DISCOVER they join the attempt. -/
def State.laneRestore (s : State) (n m : Nat) : State :=
  let want := m &&& s.lanesRet n
  let off := want &&& (3 ^^^ s.laneEn n)
  let go := want &&& s.laneEn n
  let s := if off = 0 then s else s.trainFail n 2 off
  if go = 0 then s
  else if s.portState n = stDown then (s.setPort n fun p => { p with attempt := go }).beginAttempt n
  else
    let s := s.setPort n fun p => { p with attempt := p.attempt ||| go }
    if s.portState n < stPmd then s
    else s.setPort n fun p => { p with training := p.training ||| go, trained := p.trained &&& (3 ^^^ go) }

/-- BYV_CTRL.RETRAIN (R108): the whole port from PMD_TRAIN. A port in DISABLED stays there (R42). -/
def State.retrain (s : State) (n : Nat) : State :=
  if s.portState n = stDisabled ∧ !(match s.topo with | some t => bitAt t.efeMask n | none => false) then s else s.startAttempt n

/-- BYV_CTRL.ECHO: d is measured again, only in RUN (R85). -/
def State.echoStart (s : State) (n : Nat) : State := if s.portState n = stRun then s.beginEcho n else s

/-- A new LANE_EN is in force: a lane in service whose bit is cleared retires (R112). -/
def State.laneEnTakes (s : State) (n : Nat) : State :=
  (setBits 2 (s.lanesUp n &&& (3 ^^^ s.laneEn n))).foldl (fun s k => s.laneRetire n k) s

/-- A write of BYV_CTRL: LANE_EN, then RETRAIN, RESTORE and ECHO. -/
def State.byvCtrlWrite (s : State) (n : Nat) (v : Word) : State :=
  let s := (s.storeReg (atInst Reg.BYV_CTRL n) v).laneEnTakes n
  let s := if bitOf v 4 then s.retrain n else s
  let s := if Machine.fld v 8 2 = 0 then s else s.laneRestore n (Machine.fld v 8 2)
  if bitOf v 12 then s.echoStart n else s

/-! ### Upstream frames (R89, R93 to R95, R101) -/

/-- What an upstream frame carries. -/
structure UpFrame where
  kindOk : Bool
  alt : Bool
  pair : Bool
  tick : Tick
  epochSeen : Nat
  efe : Nat
  lol : Nat
  applied : Nat
  dsNone : Bool
  dsLocked : Nat
  dsCorr0 : Nat
  dsCorr1 : Nat
  senseAt : Nat
  senseNext : Bool
  schedValid : Bool
  words : List Nat
  deriving DecidableEq, Repr

/-- 16-bit little-endian words of a list of bytes. -/
def words16 : List Byte → List Nat
  | a :: b :: t => (a.toNat + 256 * b.toNat) :: words16 t
  | _ => []

/-- Read the content bytes of an upstream frame's data blocks (R93, R94, R95). -/
def readUp (l : List Byte) : UpFrame :=
  { kindOk := leAt l 0 2 == 0x5942 && leAt l 2 1 == 0x55
    alt := bitAt (leAt l 3 1) 0
    pair := bitAt (leAt l 3 1) 1
    tick := BitVec.ofNat 64 (leAt l 4 8)
    epochSeen := leAt l 12 2
    efe := leAt l 14 1 % 16
    lol := leAt l 32 8
    applied := leAt l 40 1 % 4
    dsNone := bitAt (leAt l 55 1) 2
    dsLocked := leAt l 55 1 % 4
    dsCorr0 := leAt l 56 1
    dsCorr1 := leAt l 57 1
    senseAt := leAt l 50 4
    senseNext := bitAt (leAt l 54 1) 0
    schedValid := bitAt (leAt l 54 1) 7
    words := words16 ((l.drop 64).take (l.length - 96)) }

/-- The frame's length fits its sense mode and its FRAME_CRC is correct (R89, R92). -/
def upCrcOk (l : List Byte) : Bool :=
  (l.length == 195 * 32 || l.length == 99 * 32) && crc32c (l.take (l.length - 4)) == BitVec.ofNat 32 (leAt l (l.length - 4) 4)

/-- Store one sense word; 0x8000 is implausible: the value held stays and the word is noted (R49). -/
def State.storeSense (s : State) (key v : Nat) : State :=
  if v = 0x8000 then { s with bad := s.bad ++ [key] } else { s with sense := Sparse.put 0 key v s.sense }

/-- Store the sense words of a frame: four channels of each slot in full sense, two in alternating (R95, R59). -/
def State.storeSenses (s : State) (n : Nat) (f : UpFrame) : State :=
  let base := n * 768
  f.words.zipIdx.foldl (fun s e =>
    s.storeSense (if f.alt then (base + e.2 / 2) * 4 + e.2 % 2 + (if f.pair then 2 else 0) else base * 4 + e.2) e.1) s

/-- Whether the frame matches what R101 asks of tick `now` on port `n`. -/
def State.upMatches (s : State) (n : Nat) (f : UpFrame) : Bool :=
  f.kindOk && f.efe == n && f.tick == s.now && f.alt == (s.port n).alt
    && (if f.alt then f.pair == bitAt s.now.toNat 0 else !f.pair)

/-- The reports of a received frame: LOL flags, MISMATCH, frames missed downstream, and the EFE's sense schedule
(R94, R103, R106, R113). -/
def State.upReports (s : State) (n : Nat) (f : UpFrame) : State :=
  let lolOld := s.reg64 (atInst Reg.BYV_LOL n)
  let s := s.setReg64 (atInst Reg.BYV_LOL n) f.lol
  let s := s.raiseIf (lolOld != f.lol) (pBYV n) 7
  let s := if f.dsNone then s.count (atInst Reg.BYV_DS_LOST n) else s
  let s := if f.applied = 3 then
      let s := s.count (atInst Reg.BYV_MISMATCH_CNT n)
      (s.setReg64 (atInst Reg.BYV_MISMATCH_TICK n) f.tick.toNat).raise (pBYV n) 5
    else s
  let sch := if f.schedValid then some (repTick f.tick 32 f.senseAt, f.senseNext) else none
  let new := f.schedValid && (s.port n).sched != sch
  let s := s.setPort n fun p => { p with
    applied := f.applied, epochSeen := f.epochSeen, dsLocked := f.dsLocked, dsCorr0 := f.dsCorr0, dsCorr1 := f.dsCorr1
    sched := sch, schedDue := if new then sch else if f.schedValid then p.schedDue else none }
  s.raiseIf new (pBYV n) 6

/-- Absence of EFE `n` ends (R42). -/
def State.endAbsence (s : State) (n : Nat) : State := s.setAbsent n false

/-- An upstream frame that fails a check of R101: it is lost, which cycle O counts; one whose header came with another TICK sets
INT_STAT bit 8. -/
def State.badFrame (s : State) (n : Nat) (l : List Byte) : State :=
  let s := s.setPort n fun p => { p with good := 0, badNow := p.badNow || s.tck.judged != some s.now }
  s.raiseIf (decide (12 ≤ l.length) && (readUp l).tick != s.now) (pBYV n) 8

/-- An upstream frame received on port `n` (R101): `fecOk` says that every codeword was corrected. The fourth correct frame in
SYNC brings the port to RUN (R82). Under R61 every frame is discarded. -/
def State.upFrame (s : State) (n : Nat) (fecOk : Bool) (l : List Byte) : State :=
  if !s.inService n || s.shortDeg n then s
  else
    let f := readUp l
    if fecOk && upCrcOk l && s.upMatches n f && s.tck.judged != some s.now then
      let s := s.storeSenses n f
      let s := s.upReports n f
      let s := s.count (atInst Reg.BYV_FRM_OK n)
      let s := s.setPort n fun p => { p with gotTick := some s.now, good := p.good + 1 }
      if s.portState n = stRun then s.endAbsence n
      else if (s.port n).good ≥ 4 then ((s.setPortState n stRun).endAbsence n).raise (pBYV n) 3
      else s
    else s.badFrame n l

/-! ### Cycle O: frames lost and lane faults (R102, R104) -/

/-- The upstream frame of the tick is lost when none was received by cycle O (R102): a transient fault of the port. In SYNC, where
the EFE only begins its frames, a tick counts when a frame came and failed a check (DESIGN CHOICE). -/
def State.frameLost (s : State) (n : Nat) : State :=
  let bad := (s.port n).badNow
  let s := s.setPort n fun p => { p with badNow := false }
  if (s.port n).gotTick = some s.now ∨ s.shortDeg n ∨ !s.inService n then s
  else
    let s := s.setPort n fun p => { p with good := 0 }
    if s.portState n = stRun ∨ bad then
      ((s.count (atInst Reg.BYV_FRM_LOST n)).bump (cReg (pBYV n) OFF_FAULT_CNT) 0 16 1).raise (pBYV n) 0
    else s

/-- What the receive halves met in the tick is noted: counters and lane conditions (R102, R104). -/
def State.noteLanes (s : State) (f : LaneFacts) : State :=
  let n := f.port.val
  let s := s.bump (atInst Reg.BYV_FEC_CORR0 n) 0 32 f.corr0
  let s := s.bump (atInst Reg.BYV_FEC_CORR1 n) 0 32 f.corr1
  let s := s.bump (atInst Reg.BYV_FEC_UNCORR n) 0 32 f.uncorr
  s.setPort n fun p => { p with lost := p.lost ||| f.noSignal.val, corr0 := f.corr0, corr1 := f.corr1 }

/-- Lane `k` of port `n` has a lane fault in the tick (R104). -/
def State.laneFaulty (s : State) (n k : Nat) : Bool :=
  let p := s.port n
  let lim := s.ffld (atInst Reg.BYV_SER_LIMIT n) 0 8
  let got := p.gotTick == some s.now
  bitAt p.lost k || bitAt p.unlocked k || decide ((if k = 0 then p.corr0 else p.corr1) > lim)
    || (got && (!bitAt p.dsLocked k || decide ((if k = 0 then p.dsCorr0 else p.dsCorr1) > lim)))

/-- The lane counts of a port after its tick (R104). -/
def State.laneJudge (s : State) (n : Nat) : State :=
  if s.portState n ≠ stRun ∧ s.portState n ≠ stSync then s else
  let s := (setBits 2 (s.lanesUp n)).foldl
    (fun s k => if s.laneFaulty n k then s.chanFault (pBYV n) k 0x01 k else s.chanOk (pBYV n) k) s
  (s.showLaneCnt n).setPort n fun p => { p with lost := 0, corr0 := 0, corr1 := 0 }

/-! ### The boundary (R105 to R107) -/

/-- The mode of an EFE after an own announcement due now (R106): a request for alternating sense holds, one for full sense too
unless a frame sent in answer to it has come, when the EFE's schedule alone decides, which knows the partner's request. -/
def PortSt.takeOwn (p : PortSt) (a : Announce) : Bool :=
  a.alt || (p.alt && match p.gotTick with | some g => decide (a.made.toNat + 2 ≤ g.toNat) | none => false)

/-- Changes of a port in SYNC or RUN due at boundary `now`: the lanes of the transmitter (R107), and the sense mode from the own
announcement and then from the EFE's schedule (R106). In any other state the mode is what R58 says of the port's lanes. -/
def State.portChange (s : State) (n : Nat) : State :=
  if s.inService n then
    let t := s.now
    let s := match (s.port n).ann.find? (·.tick == t) with
      | some a => s.setPort n fun p => { p with alt := p.takeOwn a, lanesTx := a.lanes }
      | none => s
    match (s.port n).schedDue with
    | some (at', alt) =>
      if at'.toNat ≤ t.toNat then s.setPort n fun p => { p with alt := alt, schedDue := none } else s
    | none => s
  else
    let alt := s.senseBase || s.lanesRet n != 0
    s.setPort n fun p => { p with alt := alt }

/-- A port at boundary `now`: the changes due, the announcements of the last 16 ticks, and SYNC after the first start. -/
def State.portBoundary (s : State) (n : Nat) : State :=
  let t := s.now
  let s := s.portChange n
  let s := (s.setPort n fun p => { p with ann := p.ann.filter fun a => decide (t.toNat < a.tick.toNat + 16) }).showChange n
  let s := s.setBit (atInst Reg.BYV_STAT n) 5 (s.port n).alt
  if (s.port n).delayOk && s.portState n == stDelay then s.toSync n else s

/-! ### The meanings -/

/-- MARKER_TX (R86): the MARKER for the next boundary, at OFS UI after its codeword, from SYNC on. -/
def execMarkerTx (port : Fin 16) (ofs : Nat) (s : State) : Host.Outcome State Fault Refusal :=
  if ofs < 6800 ∨ 9520 < ofs then .fault (.illFormed "MARKER_TX") else
  let m := s.now + 1
  .next (if (s.running || s.tck.lastMarker == some m) && s.inService port then
      s.sendControl port (markerBlock m.toNat ofs (s.periodAt m)) (.marker port m.toNat ofs (s.periodAt m))
    else s)

/-- UPSTREAM_FRAME (R101): the content bytes of its data blocks, and whether every codeword was corrected. -/
def execUpstreamFrame (port : Fin 16) (fecOk : Bool) (content : List Byte) (s : State) : Host.Outcome State Fault Refusal :=
  .next (s.upFrame port fecOk content)

/-- LANE_RETIRE (R104): a lane whose fault count has reached the threshold. -/
def execLaneRetire (port : Fin 16) (lane : Fin 2) (s : State) : Host.Outcome State Fault Refusal :=
  .next (if s.isDue (pBYV port) lane then s.laneRetire port lane else s)

/-- RESERVED_CONTROL_BLOCK (R79): a control block of 32 bytes, with the port that got it, whose type, byte 0, the table reserves is discarded and counted in
BYV_FEC_UNCORR. -/
def execReservedControlBlock (got : Fin 16 × List Byte) (s : State) : Host.Outcome State Fault Refusal :=
  .next (if reservedType (leAt got.2 0 1) then s.count (atInst Reg.BYV_FEC_UNCORR got.1) else s)

/-- DISCOVER (R83). -/
def execDiscover (port : Fin 16) (id : BitVec 64) (efe proto layout : Byte) (te hold : BitVec 16) (s : State) :
    Host.Outcome State Fault Refusal :=
  .next (s.discover port id.toNat efe.toNat proto.toNat layout.toNat te.toNat hold.toNat)

/-- LANE_RESTORE (R108): BYV_CTRL written with RESTORE bits. -/
def execLaneRestore (m : Fin 8) (port : Fin 16) (lanes : Fin 4) (s : State) : Host.Outcome State Fault Refusal :=
  let v := BitVec.ofNat 32 (s.fld (atInst Reg.BYV_CTRL port) 0 2 + 256 * lanes.val)
  .next (s.gateWrite m (atInst Reg.BYV_CTRL port) v fun s => s.laneRestore port lanes)

/-- RETRAIN (R108): BYV_CTRL written with RETRAIN. -/
def execRetrain (m : Fin 8) (port : Fin 16) (s : State) : Host.Outcome State Fault Refusal :=
  let v := BitVec.ofNat 32 (s.fld (atInst Reg.BYV_CTRL port) 0 2 + 16)
  .next (s.gateWrite m (atInst Reg.BYV_CTRL port) v fun s => s.retrain port)

/-- ECHO (R85): BYV_CTRL written with ECHO. -/
def execEcho (m : Fin 8) (port : Fin 16) (s : State) : Host.Outcome State Fault Refusal :=
  let v := BitVec.ofNat 32 (s.fld (atInst Reg.BYV_CTRL port) 0 2 + 4096)
  .next (s.gateWrite m (atInst Reg.BYV_CTRL port) v fun s => s.echoStart port)

/-- LANE_EN_WRITE (R112): BYV_CTRL written with LANE_EN alone. -/
def execLaneEnWrite (m : Fin 8) (port : Fin 16) (en : Fin 4) (s : State) : Host.Outcome State Fault Refusal :=
  let v := BitVec.ofNat 32 en.val
  .next (s.gateWrite m (atInst Reg.BYV_CTRL port) v fun s =>
    (s.storeReg (atInst Reg.BYV_CTRL port) v).laneEnTakes port)

end Sys2Proof.Machine
end

