-- ==== Sys2Proof/Machine/Arith.lean ====
section
/-! DEFINITION. Loop arithmetic (R114 to R130, R145, R154, R155): exact integers, every rounding and saturation point in the
order the spec gives. -/

namespace Sys2Proof.Machine

/-- 40-bit saturation (R116). -/
def sat40 (x : Int) : Int := if x > 0x7FFFFFFFFF then 0x7FFFFFFFFF else if x < -0x8000000000 then -0x8000000000 else x

/-- A coefficient product placed at Q9.31 (R116). -/
def mulq (a b : Int) (g : Nat) : Int := a * b * 2 ^ (1 + g)

/-- Reduction from Q9.31 to Q1.15, halves upwards (R116). -/
def rnd (acc : Int) : Int := (sat40 (acc + 0x8000)).fdiv 65536

/-- Saturation to the 16-bit operand range (R116). -/
def sat16 (x : Int) : Int := if x > 0x7FFF then 0x7FFF else if x < -0x8000 then -0x8000 else x

/-- The limit to [lo, hi], the upper tested first (R116). -/
def lim (x lo hi : Int) : Int := if x > hi then hi else if x < lo then lo else x

/-- A Q1.15 value in the accumulator's format (R114). -/
def ext (v : Int) : Int := v * 65536

/-- A loop output as a drive code: u XOR 0x8000 (R117). -/
def driveCode (u : Int) : Nat := low 16 (u + 0x8000)

/-- The loop output a drive code stands for (R145). -/
def codeValue (c : Nat) : Int := (c % 65536 : Nat) - (0x8000 : Int)

/-- A coefficient profile (R115, R151). -/
structure Prof where
  kp : Int
  ki : Int
  kd : Int
  gsh : Nat
  alpha : Int
  outMin : Int
  outMax : Int
  iMin : Int
  iMax : Int
  rampStep : Int
  dithAmp : Int
  deriving DecidableEq, Repr

/-- The PID law (R118): the context after an update with set-point `r` and measured value `y`. -/
def pidUpdate (p : Prof) (c : Sub) (r y : Int) : Sub :=
  let e := sat16 (r - y)
  let pt := mulq p.kp e p.gsh
  let i0 := sat40 (c.i + mulq p.ki e p.gsh)
  let i := if i0 > ext p.iMax then ext p.iMax else if i0 < ext p.iMin then ext p.iMin else i0
  let sat := decide (i0 > ext p.iMax) || decide (i0 < ext p.iMin)
  let satNeg := if i0 > ext p.iMax then false else if i0 < ext p.iMin then true else c.satNeg
  let de := sat16 (e - c.ePrev)
  let x := sat16 (rnd (mulq p.kd de p.gsh))
  let da := sat40 (mulq p.alpha c.dPrev 0 + mulq (0x8000 - p.alpha) x 0)
  let d := sat16 (rnd da)
  let v := rnd (sat40 (sat40 (pt + i) + ext d))
  let u := lim v p.outMin p.outMax
  { c with i := i, sat := sat, satNeg := satNeg, u := u, outSat := decide (v ≠ u), ePrev := e, dPrev := d }

/-- The set-point ramp (R120, R146): SP_RAMP starts from the measured value while RINIT is set, moves towards `t`, and
ARRIVED says that it took the arrival branch. -/
def rampStep (p : Prof) (c : Sub) (t y : Int) : Sub :=
  let sp0 := if c.rinit then y else c.spRamp
  let diff := t - sp0
  if diff > p.rampStep then { c with rinit := false, spRamp := sp0 + p.rampStep, arrived := false }
  else if diff < -p.rampStep then { c with rinit := false, spRamp := sp0 - p.rampStep, arrived := false }
  else { c with rinit := false, spRamp := t, arrived := true }

/-- A performed update (R118, R120, R142): in RAMP through SP_RAMP, in RUN straight to the target. -/
def performUpdate (p : Prof) (c : Sub) (ramping : Bool) (t y : Int) (tick : Nat) : Sub :=
  let c := if ramping then rampStep p c t y else { c with rinit := false, spRamp := if c.rinit then y else c.spRamp }
  let c := pidUpdate p c (if ramping then c.spRamp else t) y
  { c with skip := false, tick := tick % 2 ^ 32 }

/-- Heater power from the voltage and current words (R122). -/
def heaterPower (s2 s3 : Int) : Int := sat16 (rnd (mulq s2 s3 0))

/-- The corrected taps of a cell (R124). -/
def correctTaps (rk : Nat) (ts : Bool) (s0 s1 : Int) : Nat × Nat :=
  let t0 := if s0 > 0 then s0 else 0
  let t1 := if s1 > 0 then s1 else 0
  let f (t : Int) : Int := if rk ≠ 0 then sat16 (rnd (mulq rk t 0)) else t
  if ts then (t0.toNat, (f t1).toNat) else ((f t0).toNat, t1.toNat)

/-- The share of tap `a` against tap `b` (R125). -/
def nfrac (a b : Nat) : Nat := min 0x7FFF (a * 32768 / (a + b))

/-- The leakage λ of corrected taps (R125). -/
def leakage (t : Nat × Nat) : Nat := nfrac (min t.1 t.2) (max t.1 t.2)

/-- The light floor of R125. -/
def lightFloor : Nat := 32

/-- sgn(m) of the dither at boundary `m` (R127). -/
def dithSgn (alt : Bool) (m : Tick) : Int :=
  if alt then (if m.toNat % 4 < 2 then 1 else -1) else (if m.toNat % 2 = 0 then 1 else -1)

/-- A scheduled outer update in tick `n` (R128). -/
def outerDue (alt : Bool) (m phase : Nat) (n : Tick) : Bool :=
  if alt then n.toNat % (2 * m) == 2 * phase else n.toNat % m == phase

/-- The window length in ticks (R128). -/
def outerW (alt : Bool) (m : Nat) : Nat := if alt then 2 * m else m

/-- Whether tick `k` is a sample tick of a window (R128). -/
def sampleTick (alt : Bool) (k : Tick) : Bool := !alt || k.toNat % 2 == 0

/-- The reference c(k) (R128). -/
def outerRef (alt : Bool) (k : Tick) : Int :=
  if alt then (if k.toNat % 4 = 2 then 1 else -1) else (if k.toNat % 2 = 1 then 1 else -1)

/-- log2 of the window's M (R129). -/
def log2M (m : Nat) : Nat := if m = 2 then 1 else if m = 4 then 2 else if m = 8 then 3 else if m = 16 then 4 else 5

/-- The demodulated error of a window's sum (R129). -/
def demod (m : Nat) (acc : Int) : Int :=
  let s := log2M m - 1
  let h : Int := if s > 0 then 2 ^ (s - 1) else 0
  sat16 ((acc + h).fdiv (2 ^ s))

/-- Two profiles differ in a field whose change adjusts the integrator (R154). -/
def coeffChange (a b : Prof) : Bool :=
  a.kp != b.kp || a.ki != b.ki || a.kd != b.kd || a.gsh != b.gsh || a.outMin != b.outMin || a.outMax != b.outMax
    || a.iMin != b.iMin || a.iMax != b.iMax

/-- The bumpless adjustment of a sub-context to the profile `p` (R155). -/
def bumpless (p : Prof) (c : Sub) : Sub :=
  if c.sat then { c with i := if c.satNeg then ext p.iMin else ext p.iMax, satAtSwap := true }
  else
    let t := sat40 (sat40 (ext c.u - mulq p.kp c.ePrev p.gsh) - ext c.dPrev)
    if t > ext p.iMax then { c with i := ext p.iMax, sat := true, satNeg := false }
    else if t < ext p.iMin then { c with i := ext p.iMin, sat := true, satNeg := true }
    else { c with i := t }

/-- An outer context set at a loop's initialisation, with heater power `h` (R145). -/
def initOuter (c : Sub) (h : Int) : Sub :=
  { u := h, i := ext h, rinit := true, spRamp := c.spRamp, tick := c.tick }

/-- The inner or direct sub-context set at a loop's initialisation from the code last sent (R145): SP_RAMP keeps its value and
so does the tick of the latest update. -/
def initInner (c : Sub) (code : Nat) : Sub :=
  { c with
    u := codeValue code, i := ext (codeValue code), ePrev := 0, dPrev := 0, sat := false, satNeg := false
    outSat := false, skip := false, rinit := true, arrived := false }

end Sys2Proof.Machine
end

