-- ==== Sys2Proof/Machine/Loops.lean ====
section
/-! DEFINITION. Loop contexts, loop states, loop commands, profile banks and loop faults (R133 to R164). The updates
themselves stand in Window.lean. -/

namespace Sys2Proof.Machine

/-- The PRF page, and the page of engine `e`. -/
abbrev pPRF : Nat := 0x041
def pLEN (e : Nat) : Nat := 0x020 + e

/-- The code of a loop state (R142). -/
def LoopState.code : LoopState → Nat
  | .off => 0 | .hold => 1 | .ramp => 2 | .run => 3 | .frozen => 4

/-- The loop state of a code. -/
def LoopState.ofCode (c : Nat) : LoopState :=
  if c = 0 then .off else if c = 1 then .hold else if c = 2 then .ramp else if c = 3 then .run else .frozen

/-- The context of loop `l`. -/
def State.loop (s : State) (l : Nat) : Loop := Sparse.get {} l s.loops

/-- Change the context of loop `l`. -/
def State.setLoop (s : State) (l : Nat) (f : Loop → Loop) : State :=
  { s with loops := Sparse.put {} l (f (s.loop l)) s.loops }

/-- The cell a loop's slot serves. -/
def State.loopCell? (s : State) (l : Nat) : Option Nat :=
  match s.elem? l with | some (.cell c) => some c | _ => none

/-- The outer context in force is the CROSS one (R135). -/
def State.crossInForce (s : State) (l : Nat) : Bool :=
  match s.loopCell? l with | some c => s.code0 c == cCROSS | none => false

/-- The calibration record in force of a slot. -/
def State.calRec (s : State) (slot : Nat) : CalRec := Sparse.get {} slot s.cal.force

/-- Loop `l` is in the calibration pass and has no result yet (R293). -/
def State.inPass (s : State) (l : Nat) : Bool :=
  match s.cal.pass with
  | some p => p.elems.any fun e => e.slot == l && e.res.isNone
  | none => false

/-- The hold cause PLACE (R143, R176 to R180). -/
def State.unplacedLoop (s : State) (l : Nat) : Bool :=
  match s.lpl.unplaced with | none => true | some u => u.contains l

/-- The hold causes present: bit 0 ABSENT, bit 1 CAL, bit 2 PLACE (R143). -/
def State.holdCauses (s : State) (l : Nat) : Nat :=
  b2n (s.absent (efeOf l)) + 2 * b2n (s.inPass l) + 4 * b2n (s.unplacedLoop l)

/-- A hold cause is, or was, present in the present tick. -/
def State.heldLoop (s : State) (l : Nat) : Bool := s.holdCauses l != 0 || (s.loop l).heldAt == some s.now

/-! ### Transitions (R143, R144) -/

/-- The effective state changes; STATE_TICK notes the tick. -/
def Loop.setEff (x : Loop) (e : LoopState) (t : Tick) : Loop :=
  if x.eff = e then x else { x with eff := e, stateTick := t.toNat % 2 ^ 32 }

/-- RINIT set on the inner or direct sub-context and on the outer context in force. -/
def Loop.markRinit (x : Loop) (kind : Nat) (cross : Bool) : Loop :=
  let x := { x with inner := { x.inner with rinit := true } }
  if kind ≠ 1 then x
  else if cross then { x with cross := { x.cross with rinit := true } }
  else { x with bar := { x.bar with rinit := true } }

/-- The row of R144 that takes a loop, not FROZEN and not held, towards its commanded state. The table has no row from OFF to HOLD:
a loop in OFF that is commanded HOLD goes to HOLD, as R143 gives its effective state (DESIGN CHOICE). -/
def Loop.go (x : Loop) (kind : Nat) (cross : Bool) (t : Tick) : Loop :=
  match x.cmd with
  | .frozen => x
  | .off => ({ x with valid := false } : Loop).setEff .off t
  | .hold => x.setEff .hold t
  | .ramp =>
    if x.eff = .off then ({ x with valid := false } : Loop).setEff .ramp t
    else (if x.valid then x.markRinit kind cross else x).setEff .ramp t
  | .run =>
    match x.eff with
    | .off => ({ x with valid := false } : Loop).setEff .ramp t
    | .hold => x.setEff (if x.valid then .run else .ramp) t
    | _ => x

/-- SET_STATE at tick `t` (R161): a loop held by a cause only takes the commanded state, and takes the row for leaving HOLD
when the last cause clears. -/
def State.setLoopState (s : State) (l : Nat) (st : LoopState) (t : Tick) : State :=
  let held := s.heldLoop l
  let kind := s.loopKind l
  let cross := s.crossInForce l
  s.setLoop l fun x =>
    let y : Loop := { x with cmd := st, prior := none }
    if held then y else y.go kind cross t

/-- The channel of loop `l` in the LEN pages. -/
def loopChan (l : Nat) : Nat := 0x100 + l

/-- A loop freezes at tick `t` (R47, R143, R144): the cell's code in S(t + 1) is kept and its retirement code written. -/
def State.freezeLoop (s : State) (l : Nat) (t : Tick) : State :=
  match s.loopCell? l with
  | some c =>
    let code := s.code1 c
    (s.setLoop l fun x => ({ x with cmd := .frozen, prior := none, stuck := code } : Loop).setEff .frozen t).writeRet c code
  | none => s.setLoop l fun x => ({ x with cmd := .frozen, prior := none } : Loop).setEff .frozen t

/-- A cell takes the calibration values it waits for (R302). -/
def State.takeWaiting (s : State) (slot : Nat) (r : CalRec) : State :=
  let s := { s with cal := { s.cal with
    force := Sparse.put {} slot r s.cal.force, wait := s.cal.wait.filter (·.1 != slot) } }
  s.setLoop slot fun x => { x with parkA := r.parkA, parkB := r.parkB }

/-- The loop is retired in no LEN page any more. -/
def State.unretireLoop (s : State) (l : Nat) : State :=
  (List.range 32).foldl (fun s e => if s.isRetired (pLEN e) (loopChan l) then s.unretire (pLEN e) (loopChan l) else s) s

/-- RELEASE at tick `t` (R144): the loop leaves FROZEN for OFF, and a cell takes deferred calibration values (R302). Its count of
consecutive faults starts anew, of which R144 says nothing (DESIGN CHOICE). -/
def State.releaseLoop (s : State) (l : Nat) (t : Tick) : State :=
  let held := s.heldLoop l
  let s := s.setLoop l fun x =>
    ({ x with cmd := .off, valid := false, fcnt := 0 } : Loop).setEff (if held then .hold else .off) t
  let s := s.unretireLoop l
  match s.cal.wait.find? (·.1 == l) with
  | some e => s.takeWaiting l e.2
  | none => s

/-- SAT_AT_SWAP of every sub-context and SATRUN cleared. The run of saturated updates goes on: when SATRUN reaches the limit again
within it, no second SAT_WATCH is raised (DESIGN CHOICE, R164). -/
def Loop.clearFlags (x : Loop) : Loop :=
  { x with inner := { x.inner with satAtSwap := false }, bar := { x.bar with satAtSwap := false }
           cross := { x.cross with satAtSwap := false }, satRun := 0 }

/-- A loop command on one selected loop at tick `t`; `none` when the table of R161 skips the loop. -/
def State.loopCmd (s : State) (op arg l : Nat) (t : Tick) : Option State :=
  let frozen := decide ((s.loop l).eff = .frozen)
  let kind := s.loopKind l
  if op = 1 then (if frozen then none else some (s.setLoopState l (LoopState.ofCode arg) t))
  else if op = 2 then (if frozen then none else some (s.freezeLoop l t))
  else if op = 3 then (if frozen then some (s.releaseLoop l t) else none)
  else if op = 4 then some (s.setLoop l fun x => { x with profA := arg })
  else if op = 5 then (if kind = 1 then some (s.setLoop l fun x => { x with profB := arg }) else none)
  else if op = 6 then some (s.setLoop l fun x => { x with parkA := arg })
  else if op = 7 then (if kind = 1 then some (s.setLoop l fun x => { x with parkB := arg }) else none)
  else if op = 8 then (if kind = 3 then some (s.setLoop l fun x => { x with target := arg }) else none)
  else if op = 9 then some (s.setLoop l Loop.clearFlags)
  else none

/-- Whether a loop command selects loop `l` (R161). -/
def State.selected (s : State) (kinds froms l : Nat) : Bool :=
  let k := s.loopKind l
  k != 0 && bitAt kinds (k - 1) && bitAt froms (s.loop l).cmd.code

/-- The loop command of the PRF views, applied at tick `t`; the number of loops changed (R161). -/
def State.runLoopCmd (s : State) (t : Tick) : State × Nat :=
  let op := s.fld Reg.PRF_LCMD_OP 0 4
  let arg := s.fld Reg.PRF_LCMD_OP 16 16
  let first := s.fld Reg.PRF_LCMD_RANGE 0 14
  let count := s.fld Reg.PRF_LCMD_RANGE 16 15
  let kinds := s.fld Reg.PRF_LCMD_SEL 0 3
  let froms := s.fld Reg.PRF_LCMD_SEL 8 5
  s.slots.foldl (fun (r : State × Nat) e =>
    let l := e.1
    if first ≤ l ∧ l < first + count ∧ r.1.selected kinds froms l then
      match r.1.loopCmd op arg l t with
      | some s' => (s', r.2 + 1)
      | none => r
    else r) (s, 0)

/-! ### Profiles (R151 to R155) -/

/-- The active view, the shadow view, and the size of each. -/
abbrev profActive : Nat := 0x12800000
abbrev profShadow : Nat := 0x12808000
abbrev profSize : Nat := 0x8000

/-- Profile `p` of the bank in force (R151). -/
def State.prof (s : State) (p : Nat) : Prof :=
  let a := profActive + 0x20 * p
  { kp := sx 16 (s.loadN a 2), ki := sx 16 (s.loadN (a + 2) 2), kd := sx 16 (s.loadN (a + 4) 2)
    alpha := (s.loadN (a + 6) 2 % 0x8000 : Nat), outMin := sx 16 (s.loadN (a + 8) 2)
    outMax := sx 16 (s.loadN (a + 0xA) 2), iMin := sx 16 (s.loadN (a + 0xC) 2), iMax := sx 16 (s.loadN (a + 0xE) 2)
    rampStep := (s.loadN (a + 0x10) 2 % 0x8000 : Nat), dithAmp := (s.loadN (a + 0x12) 2 % 0x8000 : Nat)
    gsh := s.loadN (a + 0x14) 1 % 8 }

/-- The bytes of memory from `lo`, `size` of them, change places with those `size` above (R152, R169). -/
def State.swapMem (s : State) (lo size : Nat) : State :=
  let a := s.mem.filter fun c => decide (c.1 < lo)
  let b := s.mem.filter fun c => decide (lo ≤ c.1) && decide (c.1 < lo + size)
  let c := s.mem.filter fun c => decide (lo + size ≤ c.1) && decide (c.1 < lo + 2 * size)
  let d := s.mem.filter fun c => decide (lo + 2 * size ≤ c.1)
  { s with mem := a ++ (c.map fun e => (e.1 - size, e.2)) ++ (b.map fun e => (e.1 + size, e.2)) ++ d }

/-- The bytes from `src` are copied to `dst`. -/
def State.copyMem (s : State) (src dst size : Nat) : State :=
  let b := s.mem.filter fun c => decide (src ≤ c.1) && decide (c.1 < src + size)
  b.foldl (fun s e => s.setByte (e.1 - src + dst) e.2) (s.clearMem dst (dst + size))

/-- A sub-context adjusted when its profile changed from `p` to `q` (R154, R155): the context, whether it was adjusted, and
whether it took the saturated branch. -/
def swapSub (p q : Prof) (c : Sub) : Sub × Nat × Nat :=
  if coeffChange p q then (bumpless q c, 1, b2n c.sat) else (c, 0, 0)

/-- The bumpless change of every loop, from the profiles of `o` to those of `s`: the state, the sub-contexts adjusted, and
those that took the saturated branch. -/
def State.bumplessAll (o s : State) : State × Nat × Nat :=
  s.loops.foldl (fun (r : State × Nat × Nat) e =>
    let l := e.1
    let x := e.2
    if !x.valid ∨ x.eff = .frozen then r else
    let nested := s.loopKind l == 1
    let old := o.loop l
    let pi := if nested then o.prof old.profB else o.prof old.profA
    let qi := if nested then s.prof x.profB else s.prof x.profA
    let i := swapSub pi qi x.inner
    let b := if nested then swapSub (o.prof old.profA) (s.prof x.profA) x.bar else (x.bar, 0, 0)
    let c := if nested then swapSub (o.prof old.profA) (s.prof x.profA) x.cross else (x.cross, 0, 0)
    (r.1.setLoop l fun x => { x with inner := i.1, bar := b.1, cross := c.1 },
      r.2.1 + i.2.1 + b.2.1 + c.2.1, r.2.2 + i.2.2 + b.2.2 + c.2.2)) (s, 0, 0)

/-- The tests of a PRF commit (R153); the codes of PRF_CMT_RES. R153 gives no order for conditions that hold together: LATE, MODE,
BUSY, RANGE, EMPTY, as its table lists them (DESIGN CHOICE). -/
def State.prfTests (s : State) (k : Tick) (tickTest : Bool) : Nat :=
  let swap := s.bit Reg.PRF_CTRL 0
  let lcmd := s.bit Reg.PRF_CTRL 2
  let op := s.fld Reg.PRF_LCMD_OP 0 4
  let arg := s.fld Reg.PRF_LCMD_OP 16 16
  let range := decide (s.fld Reg.PRF_LCMD_RANGE 0 14 + s.fld Reg.PRF_LCMD_RANGE 16 15 > 12288) || decide (op > 9)
    || (op == 1 && decide (arg > 3)) || ((op == 4 || op == 5) && decide (arg > 1023))
  if tickTest && decide (k.toNat < s.now.toNat + 2) then 4
  else if !s.roleActs then 2
  else if swap && s.bit Reg.PRF_STAT 1 then 3
  else if lcmd && range then 1
  else if !swap && !lcmd then 6
  else 0

/-- A PRF commit takes effect at boundary `t` (R149, R153, R155): the loop command, then the swap and the bumpless change. -/
def State.prfCommitAt (s : State) (t : Tick) : State :=
  let swap := s.bit Reg.PRF_CTRL 0
  let lcmd := s.bit Reg.PRF_CTRL 2
  let o := s
  let s := s.dropCommit pPRF
  let s := s.setForce Reg.PRF_CTRL (s.reg Reg.PRF_CTRL)
  let r := if lcmd then s.runLoopCmd t else (s, 0)
  let s := r.1
  let s := if lcmd then s.setFld Reg.PRF_CMT_RES 16 16 r.2 else s
  let s := if swap then
      let s := s.swapMem profActive profSize
      let s := s.setBit Reg.PRF_STAT 0 (!s.bit Reg.PRF_STAT 0)
      let s := s.count Reg.PRF_SWAP_CNT
      if s.fbit Reg.PRF_CTRL 1 then s.setBit Reg.PRF_STAT 1 true else s
    else s
  let b := State.bumplessAll o s
  let s := b.1.setRegN Reg.PRF_SWAP_STAT (b.2.2 % 65536 * 65536 + b.2.1 % 65536)
  let s := s.setFld Reg.PRF_CMT_RES 0 4 0
  (s.raise pPRF 0).raiseIf (b.2.2 != 0) pPRF 3

/-- A PRF commit is refused or cancelled with a result code. -/
def State.prfRefuse (s : State) (code : Nat) : State := (s.setFld Reg.PRF_CMT_RES 0 4 code).raise pPRF 1

/-- The copy-back completes (R152). -/
def State.copyBackDone (s : State) : State :=
  if !s.bit Reg.PRF_STAT 1 then s else
  ((s.copyMem profActive profShadow profSize).setBit Reg.PRF_STAT 1 false).raise pPRF 2

/-! ### Loop faults and retirement (R147, R148) -/

/-- The engine in whose LEN page loop `l`'s faults are reported. -/
def State.loopEngine (s : State) (l : Nat) : Nat := Sparse.get 0 l s.lpl.lastEng

/-- A loop fault of loop `l` in the present tick. -/
def State.loopFault (s : State) (l : Nat) : State :=
  let e := s.loopEngine l
  let page := pLEN e
  let n := (s.loop l).fcnt + 1
  let retry := s.fld (cReg page OFF_FAULT_CFG) 8 8
  let s := s.setLoop l fun x => { x with fcnt := n }
  let s := s.count (atInst Reg.LEN_IMPL_CNT e)
  let s := s.setRegN (atInst Reg.LEN_IMPL_SLOT e) (2 ^ 31 + l)
  let s := s.raise page 0
  let s := s.judgeFault page (loopChan l) n
  if retry != 0 && n == retry then s.logEvent page 1 0x02 l n else s

/-- Loop `l` retires in tick `t` (R148). -/
def State.retireLoop (s : State) (l : Nat) (t : Tick) : State :=
  let e := s.loopEngine l
  let s := s.retire (pLEN e) (loopChan l) 0x11 l
  let s := s.count (atInst Reg.LEN_FREEZE_CNT e)
  let s := s.setRegN (atInst Reg.LEN_FREEZE_SLOT e) (2 ^ 31 + l)
  (s.raise (pLEN e) 1).freezeLoop l t

/-- A loop whose latest fault completed its count retires; any other is left alone. -/
def State.retireLoopIfDue (s : State) (l : Nat) : State :=
  if s.isDue (pLEN (s.loopEngine l)) (loopChan l) ∧ (s.loop l).eff ≠ .frozen then s.retireLoop l s.now else s

/-- The loops that are to retire in this tick and have not yet been retired by LOOP_RETIRE (R148). -/
def State.settleLoopRetires (s : State) : State :=
  (s.slots.map (·.1)).foldl (fun s l => s.retireLoopIfDue l) s

/-! ### The context as memory (R157, R158) -/

/-- The flags word of a sub-context. -/
def Sub.flags (c : Sub) : Nat :=
  b2n c.sat + 2 * b2n c.satNeg + 4 * b2n c.outSat + 8 * b2n c.satAtSwap + 16 * b2n c.dithClip + 32 * b2n c.skip
    + 64 * b2n c.rinit + 128 * b2n c.arrived

/-- Word `o` of a sub-context. -/
def Sub.word (c : Sub) (o : Nat) : Nat :=
  if o = 0 then low 32 c.i
  else if o = 4 then low 32 (c.i.fdiv (2 ^ 32))
  else if o = 8 then low 16 c.ePrev + 65536 * low 16 c.dPrev
  else if o = 12 then low 16 c.u + 65536 * low 16 c.spRamp
  else if o = 16 then c.flags
  else if o = 20 then c.tick
  else 0

/-- Word `o` of the context of loop `l`. -/
def State.ctxWord (s : State) (l o : Nat) : Word :=
  let x := s.loop l
  let k := s.loopKind l
  BitVec.ofNat 32 <|
  if o = 0 then
    (if k = 0 then 0 else x.cmd.code + 16 * x.eff.code) + 128 * b2n x.valid + 256 * (if k = 0 then 0 else s.holdCauses l)
      + 4096 * k + 65536 * min 255 x.fcnt
  else if o = 4 then x.profA + 65536 * x.profB
  else if o = 8 then x.parkA + 65536 * x.parkB
  else if o = 0xC then x.target
  else if o = 0x10 then x.stateTick
  else if o = 0x14 then x.lastA + 65536 * x.lastB
  else if o = 0x18 then x.satRun
  else if o < 0x20 then 0
  else if o < 0x40 then x.inner.word (o - 0x20)
  else if k ≠ 1 then 0
  else if o < 0x60 then x.bar.word (o - 0x40)
  else x.cross.word (o - 0x60)

/-- A sub-context with word `o` replaced. -/
def Sub.put (c : Sub) (o v : Nat) : Sub :=
  if o = 0 then { c with i := c.i.fdiv (2 ^ 32) * 2 ^ 32 + v }
  else if o = 4 then { c with i := sx 8 v * 2 ^ 32 + c.i % 2 ^ 32 }
  else if o = 8 then { c with ePrev := sx 16 v, dPrev := sx 16 (v / 65536) }
  else if o = 12 then { c with u := sx 16 v, spRamp := sx 16 (v / 65536) }
  else if o = 16 then { c with sat := bitAt v 0, satNeg := bitAt v 1, outSat := bitAt v 2, satAtSwap := bitAt v 3
                               dithClip := bitAt v 4, skip := bitAt v 5, rinit := bitAt v 6, arrived := bitAt v 7 }
  else if o = 20 then { c with tick := v }
  else c

/-- The effective state that R143 gives from a copied commanded state, a copied effective state and the own causes. -/
def effFrom (cmd eff : LoopState) (held : Bool) : LoopState :=
  if cmd = .frozen then .frozen
  else if held then .hold
  else match cmd with
    | .off => .off
    | .hold => .hold
    | _ => if eff = .run then .run else if eff = .ramp then .ramp else if cmd = .run then .run else .ramp

/-- The mirror agent writes word `o` of the context of loop `l`: every field but KIND and HOLD_CAUSE; EFF follows R143. -/
def State.ctxWrite (s : State) (l o : Nat) (w : Word) : State :=
  let v := w.toNat
  let held := s.holdCauses l != 0
  s.setLoop l fun x =>
    if o = 0 then
      let cmd := LoopState.ofCode (v % 8)
      let eff := LoopState.ofCode (v / 16 % 8)
      { x with cmd := cmd, eff := effFrom cmd eff held, valid := bitAt v 7, fcnt := v / 65536 % 256
               prior := if held ∧ (eff = .ramp ∨ eff = .run) then some eff else none }
    else if o = 4 then { x with profA := v % 1024, profB := v / 65536 % 1024 }
    else if o = 8 then { x with parkA := v % 65536, parkB := v / 65536 }
    else if o = 0xC then { x with target := v % 65536 }
    else if o = 0x10 then { x with stateTick := v }
    else if o = 0x14 then { x with lastA := v % 65536, lastB := v / 65536 }
    else if o = 0x18 then { x with satRun := v % 65536 }
    else if o < 0x20 then x
    else if o < 0x40 then { x with inner := x.inner.put (o - 0x20) v }
    else if o < 0x60 then { x with bar := x.bar.put (o - 0x40) v }
    else { x with cross := x.cross.put (o - 0x60) v }

/-- The number of loops in an effective state (R160). -/
def State.effCount (s : State) (e : LoopState) : Nat :=
  (s.slots.filter fun x => x.2.kind != 0 && (s.loop x.1).eff == e).length

/-- Every loop takes its park codes from the calibration values in force (R150, R516). -/
def State.takePark (s : State) : State :=
  s.cal.force.foldl (fun s e => s.setLoop e.1 fun x =>
    { x with parkA := e.2.parkA, parkB := e.2.parkB, lastA := e.2.parkA, lastB := e.2.parkB }) s

end Sys2Proof.Machine
end

