-- ==== Sys2Proof/Machine/Placement.lean ====
section
/-! DEFINITION. Placement (R165 to R186): tables, the acceptance check, commits, fallbacks, the repacker and the retirement of
engines. -/

namespace Sys2Proof.Machine

/-- The active view, the shadow view and the repacked table of loop memory (R169). -/
abbrev placeActive : Nat := 0x129A0000
abbrev placeShadow : Nat := 0x129E0000
abbrev placeRepacked : Nat := 0x12A20000
abbrev placeSize : Nat := 0x40000

/-- The delta for an engine within a set. -/
def deltaOfs (e : Nat) : Nat := 0x18000 + e * 0x1400

/-! ### Entries (R171) -/

/-- LOOP, SUB, MC and PHASE of an entry. -/
def eLoop (w : Nat) : Nat := w % 16384
def eSub (w : Nat) : Nat := w / 16384 % 4
def eMc (w : Nat) : Nat := w / 65536 % 8
def ePhase (w : Nat) : Nat := w / 2 ^ 19 % 32
/-- M of an outer entry. -/
def eM (w : Nat) : Nat := 2 ^ eMc w

/-- A reserved field or value is used, or PHASE ≥ M. -/
def entryBad (w : Nat) : Bool :=
  decide (w / 2 ^ 24 ≠ 0) || decide (eLoop w ≥ 12288) || eSub w == 3
    || (if eSub w = 1 then decide (eMc w = 0) || decide (eMc w > 5) || decide (ePhase w ≥ eM w)
        else decide (eMc w ≠ 0) || decide (ePhase w ≠ 0))

/-- SUB fits the loop's kind (KIND). -/
def State.entryKindOk (s : State) (w : Nat) : Bool :=
  let k := s.loopKind (eLoop w)
  (k == 1 && decide (eSub w ≤ 1)) || ((k == 2 || k == 3) && eSub w == 2)

/-! ### Tables in memory (R170, R172) -/

/-- The number of ENTRIES of a table at an address, and word `i` of its LIST. -/
def State.tabEntries (s : State) (a : Nat) : Nat := s.loadN (a + 0x10) 4
def State.tabList (s : State) (a e : Nat) : Nat × Nat :=
  (s.loadN (a + 0x40 + 4 * e) 2, s.loadN (a + 0x42 + 4 * e) 2)

/-- The entry words of engine `e` in the table at an address. -/
def State.tabWords (s : State) (a e : Nat) : List Nat :=
  let l := s.tabList a e
  (List.range l.2).map fun i => s.loadN (a + 4 * (l.1 + i)) 4

/-- MAGIC, VERSION, ENTRIES and CRC of a table (BAD_HEADER). -/
def State.tabHdrOk (s : State) (a magic room : Nat) : Bool :=
  s.loadN a 4 == magic && s.loadN (a + 4) 2 == 1 && decide (s.tabEntries a ≤ room)
    && crcSkip (s.bytes a (0x100 + 4 * s.tabEntries a)) 0x3C == s.loadN (a + 0x3C) 4

/-- The lists lie within the entries, do not overlap and cover them exactly. -/
def State.tabListsOk (s : State) (a : Nat) : Bool :=
  let ls := ((List.range 32).map fun e => s.tabList a e).filter fun l => l.2 != 0
  let n := s.tabEntries a
  ls.all (fun l => decide (0x40 ≤ l.1) && decide (l.1 + l.2 ≤ 0x40 + n) && decide (l.2 ≤ 1216))
    && (ls.map (·.2)).foldl (· + ·) 0 == n
    && ls.zipIdx.all fun x => ls.zipIdx.all fun y => x.2 == y.2 || apart x.1.1 x.1.2 y.1.1 y.1.2

/-- Bytes of memory that must be 0. -/
def State.zeros (s : State) (a n : Nat) : Bool := (s.bytes a n).all (· == 0)

/-! ### The load and deadline walk (R174, R175) -/

/-- Issue cycle of firing index `x` at a level (R168). -/
def iss (level x : Nat) : Nat := if level ≤ 1 then x else if level = 2 then x + x / 3 else 2 * x

/-- Per-engine capacity at a level (R167). -/
def capacity (p level : Nat) : Nat :=
  let w := p - 100
  if level ≤ 1 then w else if level = 2 then 3 * w / 4 else w / 2

/-- What the check is made against: period, ALT_FORCE and level. -/
structure FitAgainst where
  p : Nat
  alt : Bool
  level : Nat
  deriving DecidableEq, Repr

/-- The sense of a variant: false normal, true degraded. -/
def FitAgainst.altOf (g : FitAgainst) (v : Bool) : Bool := v || decide (g.p < 920) || g.alt

/-- The variants checked: degraded only from P = 920. -/
def FitAgainst.variants (g : FitAgainst) : List Bool := if g.p ≥ 920 then [false, true] else [false]

/-- Whether an entry fires in residue `r` in a variant. -/
def fires (g : FitAgainst) (w r : Nat) (v : Bool) : Bool :=
  eSub w != 1 || outerDue (g.altOf v) (eM w) (ePhase w) (BitVec.ofNat 64 r)

/-- A failure of the walk: engine, residue, EFE, degraded, index in the list, entry word. -/
structure WalkFail where
  engine : Nat
  residue : Nat
  efe : Nat
  degraded : Bool
  index : Nat
  word : Nat
  deriving DecidableEq, Repr

/-- The state of a walk over one list: counts per EFE, running load, and the first failures found. -/
structure Walk where
  cnt : List (Nat × Nat) := List.replicate 16 (0, 0)
  load : Nat := 0
  dl : Option WalkFail := none
  ld : Option WalkFail := none
  deriving DecidableEq, Repr

/-- The count of an EFE in a variant. -/
def cntOf (c : Nat × Nat) (v : Bool) : Nat := if v then c.2 else c.1

/-- One entry of the walk. -/
def walkEntry (g : FitAgainst) (e r : Nat) (k : Walk) (q : Nat × Nat) : Walk :=
  let w := q.1
  let f := eLoop w / 768
  let own := k.cnt.getD f (0, 0)
  let others := (k.cnt.zipIdx.filter (·.2 != f)).foldl (fun n c => n + max c.1.1 c.1.2) 0
  let j := eLoop w % 768 / 8
  let late (v : Bool) : Bool :=
    fires g w r v && eSub w != 1 &&
      decide (windowOpen g.p + iss g.level (cntOf own v + others) + 1 + (if v then 6 else 3) * (95 - j)
        > windowCloseAt g.p)
  let dl := match k.dl with
    | some d => some d
    | none => (g.variants.find? late).map fun v => ⟨e, r, f, v, q.2, w⟩
  let a := own.1 + b2n (fires g w r false)
  let b := if g.variants.contains true then own.2 + b2n (fires g w r true) else own.2
  let load := k.load + max a b - max own.1 own.2
  let ld := match k.ld with
    | some d => some d
    | none => if load > capacity g.p g.level then some ⟨e, r, f, decide (b > a), q.2, w⟩ else none
  { cnt := k.cnt.set f (a, b), load := load, dl := dl, ld := ld }

/-- The walk of one engine's list in one residue, keeping failures found before. -/
def walkList (g : FitAgainst) (e r : Nat) (l : List Nat) (k : Walk) : Walk :=
  l.zipIdx.foldl (walkEntry g e r) { dl := k.dl, ld := k.ld }

/-- The whole walk over the engines in service. -/
def walkAll (g : FitAgainst) (ret : Nat) (lists : List (List Nat)) : Walk :=
  (lists.zipIdx.filter fun x => !bitAt ret x.2).foldl
    (fun k x => (List.range 64).foldl (fun k r => walkList g x.2 r x.1 k) k) {}

/-- The worst-case load of a list (R174). -/
def listLoad (g : FitAgainst) (l : List Nat) : Nat :=
  (List.range 64).foldl (fun m r => max m (walkList g 0 r l {}).load) 0

/-- A list passes R174 and R175. -/
def listOk (g : FitAgainst) (l : List Nat) : Bool :=
  let k := (List.range 64).foldl (fun k r => walkList g 0 r l k) {}
  k.ld.isNone && k.dl.isNone

/-! ### The acceptance check (R173) -/

/-- A result of the check. -/
structure ChkRes where
  code : Nat
  fb : Nat := 0
  engine : Nat := 0
  residue : Nat := 0
  efe : Nat := 0
  degraded : Bool := false
  loop : Nat := 0
  index : Nat := 0
  deriving DecidableEq, Repr

/-- The entries of a table in engine and list order: engine, index, word. -/
def flatLists (lists : List (List Nat)) : List (Nat × Nat × Nat) :=
  lists.zipIdx.flatMap fun x => x.1.zipIdx.map fun y => (x.2, y.2, y.1)

/-- The first entry that repeats an update placed before. -/
def dupEntry (seen : List Nat) : List (Nat × Nat × Nat) → Option (Nat × Nat × Nat)
  | [] => none
  | x :: t => if seen.contains (x.2.2 % 65536) then some x else dupEntry (x.2.2 % 65536 :: seen) t

/-- The first loop that lacks an update it needs. -/
def State.missingLoop (s : State) (have' : List Nat) : Option Nat :=
  (s.slots.find? fun x =>
    let k := x.2.kind
    (k == 1 && !(have'.contains x.1 && have'.contains (x.1 + 16384)))
      || (decide (k ≥ 2) && !have'.contains (x.1 + 32768))).map (·.1)

/-- A result that names an entry. -/
def atEntry (code : Nat) (x : Nat × Nat × Nat) : ChkRes :=
  { code := code, engine := x.1, loop := eLoop x.2.2, index := x.2.1 }

/-- A result of the walk. -/
def atFail (code : Nat) (f : WalkFail) : ChkRes :=
  { code := code, engine := f.engine, residue := f.residue, efe := f.efe, degraded := f.degraded
    loop := eLoop f.word, index := f.index }

/-- The checks from FORMAT's entry part to DEADLINE on the lists of a table; code 0 when all pass. -/
def State.checkLists (s : State) (g : FitAgainst) (ret : Nat) (lists : List (List Nat)) : ChkRes :=
  let all := flatLists lists
  match all.find? fun x => entryBad x.2.2 with
  | some x => atEntry 3 x
  | none =>
  match all.find? fun x => !s.entryKindOk x.2.2 with
  | some x => atEntry 4 x
  | none =>
  match dupEntry [] all with
  | some x => atEntry 5 x
  | none =>
  match s.missingLoop (all.map fun x => x.2.2 % 65536) with
  | some l => { code := 6, loop := l }
  | none =>
  match (lists.zipIdx.find? fun x => bitAt ret x.2 && !x.1.isEmpty) with
  | some x => { code := 7, engine := x.2 }
  | none =>
    let k := walkAll g ret lists
    match k.ld, k.dl with
    | some f, _ => atFail 8 f
    | none, some f => atFail 9 f
    | none, none => { code := 0 }

/-- The lists of a base table. -/
def State.baseLists (s : State) (a : Nat) : List (List Nat) := (List.range 32).map fun e => s.tabWords a e

/-- The lists of the fallback table for engine `e` of a set (R172). -/
def State.fallbackLists (s : State) (a e : Nat) : List (List Nat) :=
  (List.range 32).map fun i => if i = e then [] else s.tabWords a i ++ s.tabWords (a + deltaOfs e) i

/-- The check of a base table. -/
def State.checkBase (s : State) (a ret : Nat) (g : FitAgainst) : ChkRes :=
  if !s.tabHdrOk a 0x544C504C 24512 then { code := 1 }
  else if s.topo.map (·.topoId) ≠ some (s.loadN (a + 8) 4) then { code := 2 }
  else if !(s.tabListsOk a && s.zeros (a + 6) 2 && s.zeros (a + 0x14) 40 && s.zeros (a + 0xC0) 64) then { code := 3 }
  else s.checkLists g ret (s.baseLists a)

/-- The check of the fallback for engine `e`. -/
def State.checkFallback (s : State) (a ret e : Nat) (g : FitAgainst) : ChkRes :=
  let d := a + deltaOfs e
  if !s.tabHdrOk d 0x464C504C 1216 then { code := 1 }
  else if s.topo.map (·.topoId) ≠ some (s.loadN (d + 8) 4) then { code := 2 }
  else if !(s.tabListsOk d && s.loadN (d + 6) 2 == e && s.zeros (d + 0xC) 4 && s.zeros (d + 0x14) 40
      && s.zeros (d + 0xC0) 64 && (s.tabList d e).2 == 0) then { code := 3 }
  else s.checkLists g (ret ||| 2 ^ e) (s.fallbackLists a e)

/-- What the check of a new set is made against: the period and ALT_FORCE in force and the guarantee's view. -/
def State.fitView (s : State) : FitAgainst := ⟨s.period, s.altForce, s.fld Reg.LPL_GUARANTEE 0 2⟩

/-- What the table in force must fit: the guarantee in force. -/
def State.fitForce (s : State) : FitAgainst := ⟨s.period, s.altForce, s.ffld Reg.LPL_GUARANTEE 0 2⟩

/-- The retired engines. -/
def State.retMask (s : State) : Nat := (s.reg Reg.LPL_RET_MASK).toNat

/-- The check of the set in the shadow view (R173). -/
def State.checkSet (s : State) : ChkRes :=
  let a := placeShadow
  let ret := s.retMask
  let g := s.fitView
  let b := s.checkBase a ret g
  if b.code ≠ 0 then b else
  let fbs := setBits 32 (s.loadN (a + 0xC) 4)
  match (fbs.map fun e => (e, s.checkFallback a ret e g)).find? fun x => x.2.code != 0 with
  | some x => { x.2 with code := 0xA, fb := x.2.code, engine := x.1 }
  | none => { code := 0 }

/-- LPL_CTRL.CHECK (R173). -/
def State.startCheck (s : State) : State :=
  if s.bit Reg.LPL_STAT 9 then s else s.setBit Reg.LPL_STAT 9 true

/-- The check completes: LPL_CHK_RES, LPL_CHK_ENTRY and CHECKED. -/
def State.checkDone (s : State) : State :=
  if !s.bit Reg.LPL_STAT 9 then s else
  let r := s.checkSet
  let s := s.setBit Reg.LPL_STAT 9 false
  let s := s.setRegN Reg.LPL_CHK_RES
    (r.code + 16 * r.fb + 256 * r.engine + 8192 * b2n r.degraded + 65536 * r.residue + 2 ^ 24 * r.efe)
  let s := s.setRegN Reg.LPL_CHK_ENTRY (r.index + 65536 * r.loop)
  let s := if r.code = 0 then s.setBit Reg.LPL_STAT 10 true else s.clearChecked
  s.raise pLPL 0

/-! ### Tables in force (R176 to R180) -/

/-- The list in force of engine `e`. -/
def State.listOf (s : State) (e : Nat) : List Nat := Sparse.get [] e s.lpl.lists

/-- The lists in force. -/
def State.listsInForce (s : State) : List (List Nat) := (List.range 32).map s.listOf

/-- LPL_STAT.SOURCE. -/
def State.placeSource (s : State) : Nat := s.fld Reg.LPL_STAT 6 2

/-- A table comes into force: the lists, and what each loop remembers of its engine and outer entry (R147). -/
def State.installLists (s : State) (lists : List (List Nat)) (source fb : Nat) : State :=
  let all := flatLists lists
  let s := { s with lpl := { s.lpl with
    lists := lists.zipIdx.foldl (fun (m : Sparse (List Nat)) (x : List Nat × Nat) => Sparse.put [] x.2 x.1 m) []
    lastEng := all.foldl (fun (m : Sparse Nat) (x : Nat × Nat × Nat) => if eSub x.2.2 = 1 then m else Sparse.put 0 (eLoop x.2.2) x.1 m) s.lpl.lastEng
    removed := []
    lastOuter := all.foldl (fun (m : Sparse Nat) (x : Nat × Nat × Nat) => if eSub x.2.2 = 1 then Sparse.put 0 (eLoop x.2.2) x.2.2 m else m)
      s.lpl.lastOuter } }
  (s.setFld Reg.LPL_STAT 6 2 source).setFld Reg.LPL_STAT 0 5 fb

/-- The LPL_GUARANTEE view comes into force. -/
def State.takeGuarantee (s : State) : State :=
  (s.setForce Reg.LPL_GUARANTEE (s.reg Reg.LPL_GUARANTEE)).setFld Reg.LPL_STAT 14 2 (s.fld Reg.LPL_GUARANTEE 0 2)

/-- A list without its repeats, each value at its first place. -/
def uniq (l : List Nat) : List Nat := l.foldl (fun m a => if m.contains a then m else m ++ [a]) []

/-- The loops with an entry in a list. -/
def loopsOf (l : List Nat) : List Nat := uniq (l.map eLoop)

/-- R179 for engine `e`, just retired, when it holds entries of the table in force. The fallback is that of the set in force, also
after a repack with no engine retired. -/
def State.engineLost (s : State) (e : Nat) : State :=
  let only := s.retMask == 2 ^ e
  if only && s.placeSource != 0 && bitAt (s.loadN (placeActive + 0xC) 4) e then
    (s.installLists (s.fallbackLists placeActive e) 2 e).raise pLPL 3
  else if s.placeSource = 0 then s
  else
    let ls := loopsOf (s.listOf e)
    let s := { s with lpl := { s.lpl with
      unplaced := s.lpl.unplaced.map fun (u : List Nat) => u ++ ls.filter fun l => !u.contains l } }
    if s.fbit Reg.LPL_CTRL 1 then s.setBit Reg.LPL_STAT 11 true else s

/-- Engine `e` retires with a cause: 1 overrun, 2 engine fault, 3 software (R178, R179); while windows open, in the tick of the
window that closed last. -/
def State.engineRetire (s : State) (e cause : Nat) : State :=
  if bitAt s.retMask e then s else
  let s := s.setBit Reg.LPL_RET_MASK e true
  let s := s.setFld (atInst Reg.LEN_STAT e) 0 3 (1 + 2 * cause)
  let s := { s with lpl := { s.lpl with retReq := s.lpl.retReq.filter (·.1 != e) } }
  let s := s.retireInTick (pLEN e) 0 0x12 cause (if s.running then s.lpl.lastWin else s.now)
  (s.raise (pLEN e) 5).engineLost e

/-- Why engine `e` is to retire now (R178). -/
def State.engineDue? (s : State) (e : Nat) : Option Nat :=
  if bitAt s.retMask e then none
  else if Sparse.get 0 e s.lpl.ovr ≥ 3 then some 1
  else if s.isDue (pLEN e) 0 then some 2
  else if s.lpl.retReq.any (fun r => r.1 == e && (match s.tck.window with
      | some w => decide (r.2.toNat < w.toNat)
      | none => decide (r.2.toNat < s.now.toNat)))
    then some 3
  else none

/-- An LPL commit takes effect at boundary `t` (R176). -/
def State.lplCommitAt (s : State) : State :=
  let s := s.dropCommit pLPL
  let s := s.swapMem placeActive placeSize
  let s := s.setBit Reg.LPL_STAT 8 (!s.bit Reg.LPL_STAT 8)
  let s := s.takeGuarantee
  let s := { s with lpl := { s.lpl with unplaced := some [] }, topoLocked := true }
  let s := s.setBit Reg.FAB_STAT 1 true
  let s := s.setBit Reg.FAB_STAT 1 true
  let s := s.installLists (s.baseLists placeActive) 1 0
  let s := s.setBit Reg.LPL_STAT 10 false
  let s := s.setBit Reg.LPL_STAT 12 true
  let s := (s.setRegN Reg.LPL_CMT_RES 0).raise pLPL 1
  (setBits 32 s.retMask).foldl (fun s e => if (s.listOf e).isEmpty then s else s.engineLost e) s

/-- The tests of an LPL commit (R176); the codes of LPL_CMT_RES. -/
def State.lplTests (s : State) (k : Tick) (tickTest : Bool) : Nat :=
  if !s.bit Reg.LPL_STAT 10 then 1
  else if !s.roleActs then 2
  else if tickTest && decide (k.toNat < s.now.toNat + 2) then 3
  else if s.bit Reg.LPL_STAT 9 || s.bit Reg.LPL_STAT 11 then 4
  else 0

/-- An LPL commit is refused or cancelled. -/
def State.lplRefuse (s : State) (code : Nat) : State := (s.setRegN Reg.LPL_CMT_RES code).raise pLPL 2

/-- After a change of period or of ALT_FORCE in force: CHECKED clears, and a changed period is checked against the table in
force (R173, R177). The hold cause PLACE stays, also when the table fits again, until a commit. -/
def State.afterPeriod (s : State) (pOld : Nat) (altOld : Bool) : State :=
  let s := if s.period ≠ pOld ∨ s.altForce ≠ altOld then s.clearChecked else s
  if s.period = pOld ∨ s.placeSource = 0 then s else
  let k := walkAll s.fitForce s.retMask s.listsInForce
  if k.ld.isNone && k.dl.isNone then s.setBit Reg.LPL_STAT 12 true
  else
    let was := s.bit Reg.LPL_STAT 12
    let s := s.setBit Reg.LPL_STAT 12 false
    ({ s with lpl := { s.lpl with unplaced := none } }).raiseIf was pLPL 5

/-! ### The repacker (R180) -/

/-- The engine, among those in service, with the smallest worst-case load on which the table passes with the entry. -/
def repackPick (g : FitAgainst) (ret : Nat) (lists : List (List Nat)) (w : Nat) : Option Nat :=
  let serv := (List.range 32).filter fun e => !bitAt ret e
  let ok := serv.filter fun e =>
    serv.all fun i => listOk g (if i = e then lists.getD i [] ++ [w] else lists.getD i [])
  (ok.foldl (fun (b : Option (Nat × Nat)) e =>
    let l := listLoad g (lists.getD e [])
    match b with
    | some (_, m) => if l < m then some (e, l) else b
    | none => some (e, l)) none).map (·.1)

/-- Place the entries of one loop; `none` when one fits nowhere. -/
def repackLoop (g : FitAgainst) (ret : Nat) (lists : List (List Nat)) : List Nat → Option (List (List Nat))
  | [] => some lists
  | w :: t =>
    match repackPick g ret lists w with
    | some e => repackLoop g ret (lists.set e (lists.getD e [] ++ [w])) t
    | none => none

/-- Ascending order by insertion. -/
def insertNat (a : Nat) : List Nat → List Nat
  | [] => [a]
  | b :: t => if a ≤ b then a :: b :: t else b :: insertNat a t

/-- A list of numbers in ascending order. -/
def sortNat (l : List Nat) : List Nat := l.foldl (fun m a => insertNat a m) []

/-- What a repack has come to: the lists, the loops left without a place, and the entries removed. -/
structure Repacked where
  lists : List (List Nat)
  left : List Nat := []
  removed : List Nat := []
  deriving DecidableEq, Repr

/-- Inner and direct entries before outer ones. -/
def innerFirst (l : List Nat) : List Nat := l.filter (eSub · != 1) ++ l.filter (eSub · == 1)

/-- The repack of one loop: its entries `own` placed, or every entry of the loop removed (R180). -/
def Repacked.loop (r : Repacked) (g : FitAgainst) (ret l : Nat) (own : List Nat) : Repacked :=
  match repackLoop g ret r.lists own with
  | some x => { r with lists := x }
  | none =>
    { lists := r.lists.map fun x => x.filter fun v => eLoop v != l
      left := r.left ++ [l]
      removed := r.removed ++ innerFirst ((r.lists.flatMap id).filter (eLoop · == l) ++ own) }

/-- The repack of the table in force: the entries of retired engines, and those that an earlier repack had to remove. -/
def State.repack (s : State) : Repacked :=
  let ret := s.retMask
  let lists := s.listsInForce
  let lost := ((setBits 32 ret).flatMap fun e => lists.getD e []) ++ s.lpl.removed
  let kept := lists.zipIdx.map fun x => if bitAt ret x.2 then [] else x.1
  (sortNat (loopsOf lost)).foldl (fun (r : Repacked) l =>
    r.loop s.fitView ret l (innerFirst (lost.filter (eLoop · == l)))) { lists := kept }

/-- The bytes of a base table that holds the lists (R170). -/
def tableBytes (topoId : Nat) (lists : List (List Nat)) : List Byte :=
  let n := (lists.map (·.length)).foldl (· + ·) 0
  let starts := lists.foldl (fun (r : List Nat × Nat) l => (r.1 ++ [r.2], r.2 + l.length)) ([], 0x40)
  let dir := (lists.zip starts.1).flatMap fun x => toLE 2 x.2 ++ toLE 2 x.1.length
  let words := (lists.flatMap id).flatMap fun w => toLE 4 w
  let head := toLE 4 0x544C504C ++ toLE 2 1 ++ toLE 2 0 ++ toLE 4 topoId ++ toLE 4 0 ++ toLE 4 n
    ++ List.replicate 40 (0 : Byte)
  let tail := dir ++ List.replicate 64 (0 : Byte) ++ words
  head ++ toLE 4 (crc32c (head ++ [0, 0, 0, 0] ++ tail)).toNat ++ tail

/-- The repack completes: the repacked table is in force from the next compute window (R180). -/
def State.repackDone (s : State) : State :=
  if !s.bit Reg.LPL_STAT 11 then s else
  let r := s.repack
  let left := match s.lpl.unplaced with
    | some u => r.left ++ u.filter fun l => !r.left.contains l && !(r.lists.any fun x => x.any fun w => eLoop w == l)
    | none => r.left
  let s := s.setBit Reg.LPL_STAT 11 false
  let s := s.takeGuarantee
  let s := s.installLists r.lists 3 0
  let s := { s with lpl := { s.lpl with unplaced := s.lpl.unplaced.map fun _ => left, removed := r.removed } }
  let s := (s.clearMem placeRepacked (placeRepacked + 0x18000)).setBytes placeRepacked
    (tableBytes (match s.topo with | some t => t.topoId | none => 0) r.lists)
  let s := s.setRegN Reg.LPL_REPACK_RES ((if left.isEmpty then 1 else 2) + 65536 * left.length)
  let opened := s.tck.window == some s.now || decide (s.ntu.cyc > windowOpen s.period)
  let s := s.setRegN Reg.LPL_REPACK_TICK ((if opened then s.now + 1 else s.now).toNat % 2 ^ 32)
  (s.raise pLPL 4).raiseIf (!left.isEmpty) pLPL 5

/-- LPL_CTRL.REPACK: the repacker starts from the table in force, if there is one. -/
def State.startRepack (s : State) : State :=
  if s.placeSource = 0 then s else s.setBit Reg.LPL_STAT 11 true

/-- The largest worst-case engine load of the table in force, and the capacity (LPL_LOAD); 0 while no table is in force. -/
def State.lplLoad (s : State) : Nat :=
  if s.placeSource = 0 then 0 else
  let g := s.fitForce
  let w := (s.listsInForce.zipIdx.filter fun x => !bitAt s.retMask x.2).foldl (fun m x => max m (listLoad g x.1)) 0
  w % 65536 + 65536 * capacity g.p g.level

/-- The window that R178 names for an engine now: the open one, or the one that opens next. -/
def State.currentWindow (s : State) : Tick :=
  match s.tck.window with
  | some w => w
  | none => if s.ntu.cyc < windowOpen s.period ∧ !s.tck.noWindow then s.now else s.now + 1

/-- LEN_CTRL.RETIRE (R178): at the close of the current window, or at once while the Ringmaster is stopped. -/
def State.lenRetire (s : State) (e : Nat) : State :=
  if bitAt s.retMask e then s
  else if !s.running then s.engineRetire e 3
  else
    { s with lpl := { s.lpl with retReq := (e, s.currentWindow) :: s.lpl.retReq.filter (·.1 != e) } }

/-- A write of LPL_CTRL. -/
def State.lplCtrlWrite (s : State) (v : Word) : State :=
  let s := s.storeReg Reg.LPL_CTRL v
  let s := if bitOf v 0 then s.startCheck else s
  if bitOf v 2 then s.startRepack else s

/-- A write of LPL_GUARANTEE: the view changes and CHECKED clears (R173). -/
def State.guaranteeWrite (s : State) (v : Word) : State := (s.storeReg Reg.LPL_GUARANTEE v).clearChecked

/-! ### The meanings -/

/-- ENGINE_RETIRE (R178): an engine due to retire retires. -/
def execEngineRetire (e : Fin 32) (s : State) : Host.Outcome State Fault Refusal :=
  match s.engineDue? e with
  | some c => .next (s.engineRetire e c)
  | none => .next s

/-- PLACEMENT_CHECK (R173): LPL_CTRL written with CHECK; AUTO_REPACK as given. -/
def execPlacementCheck (m : Fin 8) (auto : Bool) (s : State) : Host.Outcome State Fault Refusal :=
  let v := BitVec.ofNat 32 (1 + 2 * b2n auto)
  .next (s.gateWrite m Reg.LPL_CTRL v fun s => (s.storeReg Reg.LPL_CTRL v).startCheck)

/-- PLACEMENT_CHECK_DONE (R173, R175). -/
def execPlacementCheckDone (s : State) : Host.Outcome State Fault Refusal := .next s.checkDone

/-- REPACK (R180): LPL_CTRL written with REPACK; AUTO_REPACK as given. -/
def execRepack (m : Fin 8) (auto : Bool) (s : State) : Host.Outcome State Fault Refusal :=
  let v := BitVec.ofNat 32 (4 + 2 * b2n auto)
  .next (s.gateWrite m Reg.LPL_CTRL v fun s => (s.storeReg Reg.LPL_CTRL v).startRepack)

/-- REPACK_DONE (R180). -/
def execRepackDone (s : State) : Host.Outcome State Fault Refusal := .next s.repackDone

/-- LEN_RETIRE (R178): LEN_CTRL written with RETIRE. -/
def execLenRetire (m : Fin 8) (e : Fin 32) (s : State) : Host.Outcome State Fault Refusal :=
  .next (s.gateWrite m (atInst Reg.LEN_CTRL e) 1 fun s => s.lenRetire e)

/-- COPY_BACK_DONE (R152). -/
def execCopyBackDone (s : State) : Host.Outcome State Fault Refusal := .next s.copyBackDone

/-- LOOP_RETIRE (R148): a loop whose latest fault completed its count retires, before the updates of the tick. -/
def execLoopRetire (l : Fin 12288) (s : State) : Host.Outcome State Fault Refusal := .next (s.retireLoopIfDue l)

end Sys2Proof.Machine
end

