-- ==== Sys2Proof/Machine/Carousel.lean ====
section
/-! DEFINITION. The connection context table and the carousel (R242 to R251, R269 to R271). -/

namespace Sys2Proof.Machine

/-- The CRS page. -/
abbrev pCRS : Nat := 0x052

/-! ### The connection context table (R242 to R244) -/

/-- The address of entry (s, q). -/
def ctxAddr (slot q : Nat) : Nat := 0x12000000 + (slot * 1024 + q) * 8

/-- Entry (s, q) as a 64-bit word. -/
def State.ctxEntry (s : State) (slot q : Nat) : Nat := s.loadN (ctxAddr slot q) 8

/-- Every entry of a carousel slot, by output port; the context table is read once. -/
def State.ctxSlot (s : State) (slot : Nat) : List Nat :=
  let w := s.mem.filter fun c => decide (ctxAddr slot 0 ≤ c.1) && decide (c.1 < ctxAddr slot 1024)
  (List.range 1024).map fun q => leNat ((List.range 8).map fun i => Sparse.get 0 (ctxAddr slot q + i) w)

/-- The fields of an entry. -/
def ctxInput (e : Nat) : Nat := e % 1024
def ctxValid (e : Nat) : Bool := bitAt e 10
def ctxDark (e : Nat) : Bool := bitAt e 11
def ctxHitless (e : Nat) : Bool := bitAt e 13
def ctxMonitored (e : Nat) : Bool := bitAt e 14
def ctxTarget (e : Nat) : Nat := e / 65536 % 65536
def ctxConn (e : Nat) : Nat := e / 2 ^ 32 % 2 ^ 24

/-- Which masters may write the table: M0, M1, M2, M3 and M5; in role standby-synced only M3 (R243). -/
def State.ctxMayWrite (s : State) (m : Nat) : Bool :=
  (m == 0 || m == 1 || m == 2 || m == 3 || m == 5) && (s.role != 2 || m == 3)

/-- The low word a master holds for an entry. -/
def State.ctxHeldOf (s : State) (m i : Nat) : Option Word :=
  (s.rce.ctxHeld.find? fun h => h.1 == m && h.2.1 == i).map (·.2.2)

/-- A word of entry `i` written by master `m`: the low word is held, the high word changes the entry as a whole; a low word
held for any other entry is discarded (R243). The reserved bits 15 and 63:56 stay 0 (R7, R242). -/
def State.ctxWordWrite (s : State) (m i : Nat) (high : Bool) (v : Word) : State :=
  let a := 0x12000000 + i * 8
  let lo := match s.ctxHeldOf m i with | some w => w.toNat | none => s.loadN a 4
  let others := s.rce.ctxHeld.filter fun h => h.1 != m
  if high then
    let s := { s with rce := { s.rce with ctxHeld := others } }
    (s.storeN a 4 (lo &&& 0xFFFF7FFF)).storeN (a + 4) 4 (v.toNat &&& 0xFFFFFF)
  else { s with rce := { s.rce with ctxHeld := (m, i, v) :: others } }

/-! ### Schedules (R245, R246) -/

/-- REC and DURATION of a slot word. -/
def slotRec (w : Nat) : Nat := w % 8192
def slotDur (w : Nat) : Nat := w / 65536

/-- The slot words of a bank in order. -/
def CrsBank.slots (b : CrsBank) : List Nat := (List.range b.count).map fun i => Sparse.get 0 i b.words

/-- The cycle length L. -/
def CrsBank.cycle (b : CrsBank) : Nat := (b.slots.map slotDur).foldl (· + ·) 0

/-- The slot at an offset within a cycle, and the offset of its start. -/
def slotAt : List Nat → Nat → Nat → Nat → Nat × Nat
  | [], i, a, _ => (i, a)
  | w :: t, i, a, o => if o < a + slotDur w then (i, a) else slotAt t (i + 1) (a + slotDur w) o

/-- The slot in force at boundary `m` under a bank that came into force at `b`, and whether it starts there. -/
def CrsBank.slotInForce (k : CrsBank) (b m : Tick) : Nat × Bool :=
  let o := (m - b).toNat % (max 1 k.cycle)
  let r := slotAt k.slots 0 0 o
  (r.1, o == r.2)

/-- The boundary of the next slot change after `m`. -/
def CrsBank.nextChange (k : CrsBank) (b m : Tick) : Tick :=
  let o := (m - b).toNat % (max 1 k.cycle)
  let r := slotAt k.slots 0 0 o
  m + BitVec.ofNat 64 (r.2 + slotDur (Sparse.get 0 r.1 k.words) - o)

/-- The safety net takes effect at a boundary up to `m` that is still to come. -/
def State.safetyBy (s : State) (m : Tick) : Bool :=
  s.rce.compos.any fun c => c.safety && decide (s.now.toNat < c.b.toNat) && decide (c.b.toNat ≤ m.toNat)

/-- The carousel as it stands at boundary `m` (not before the present one): the bank and its B, or `none` in persistent mode. -/
def State.crsAt (s : State) (m : Tick) : Option (CrsBank × Tick) :=
  if s.safetyBy m then none
  else
    let cur := if s.carousel then some (s.crs.act, s.crs.base) else none
    match s.crs.pend with
    | some (op, b) =>
      if b.toNat ≤ m.toNat then (if op = 3 then none else some (s.crs.shd, b)) else cur
    | none => cur

/-- The carousel slot in force at the present boundary; 0 in persistent mode (R140, R244). -/
def State.curSlot (s : State) : Nat :=
  if s.carousel then (s.crs.act.slotInForce s.crs.base s.now).1 else 0

/-! ### Checks and commits (R247 to R250) -/

/-- The check of the shadow bank: code, slot and detail. -/
def State.crsCheck (s : State) : Nat × Nat × Nat :=
  let b := s.crs.shd
  if b.count = 0 ∨ b.count > 1024 then (7, 0, 0)
  else match firstBad b.slots fun w => decide (slotDur w < 4) with
  | some i => (8, i, 0)
  | none => match firstBad b.slots fun w => s.checkRec (slotRec w) != 0 with
    | some i => (9, i, s.checkRec (slotRec (Sparse.get 0 i b.words)))
    | none => (0, 0, 0)

/-- CRS_CTRL.CHECK. -/
def State.crsStartCheck (s : State) : State := s.setBit Reg.CRS_STAT 4 true

/-- The check completes. -/
def State.crsCheckDone (s : State) : State :=
  if !s.bit Reg.CRS_STAT 4 then s else
  let r := s.crsCheck
  let s := s.setBit Reg.CRS_STAT 4 false
  let s := s.setRegN Reg.CRS_RES (r.1 + 256 * r.2.2 + 65536 * r.2.1)
  (s.setBit Reg.CRS_STAT 3 (r.1 == 0)).raise pCRS 4

/-- Writes to the shadow bank are refused while CHECKING is 1 or a commit is pending (R247). -/
def State.crsShadowBusy (s : State) : Bool := s.bit Reg.CRS_STAT 4 || s.pendingOn pCRS

/-- A change of the shadow bank clears CHECKED. -/
def State.setShd (s : State) (f : CrsBank → CrsBank) : State :=
  ({ s with crs := { s.crs with shd := f s.crs.shd } }).setBit Reg.CRS_STAT 3 false

/-- CRS_SHD_COUNT is written. -/
def State.crsCountWrite (s : State) (m : Nat) (v : Word) : State :=
  if s.crsShadowBusy then s.refuseWrite m Reg.CRS_SHD_COUNT
  else (s.storeReg Reg.CRS_SHD_COUNT v).setShd fun b => { b with count := v.toNat % 2048 }

/-- CRS_SHD_DATA is written: slot word IDX, and IDX advances (R270). -/
def State.crsDataWrite (s : State) (m : Nat) (v : Word) : State :=
  if s.crsShadowBusy then s.refuseWrite m Reg.CRS_SHD_DATA
  else
    let i := s.fld Reg.CRS_SHD_IDX 0 10
    let s := s.setShd fun b => { b with words := Sparse.put 0 i v.toNat b.words }
    s.setRegN Reg.CRS_SHD_IDX ((i + 1) % 1024)

/-- CRS_ACT_DATA is read: the word, and IDX advances. -/
def State.crsActRead (s : State) : State × Nat :=
  let i := s.fld Reg.CRS_ACT_IDX 0 10
  (s.setRegN Reg.CRS_ACT_IDX ((i + 1) % 1024), Sparse.get 0 i s.crs.act.words)

/-- The tests of a CRS commit (R248); the codes of CRS_RES. -/
def State.crsTests (s : State) (k : Tick) (tickTest : Bool) : Nat :=
  let op := s.fld Reg.CRS_CMD 0 2
  if !s.roleActs then 2
  else if s.safe then 5
  else if !((op == 1 && !s.carousel) || ((op == 2 || op == 3) && s.carousel)) then 2
  else if (op == 1 || op == 2) && !s.bit Reg.CRS_STAT 3 then 1
  else if s.crs.pend.isSome || s.bit Reg.CRS_STAT 4 then 4
  else if tickTest && decide (k.toNat < s.now.toNat + 3) then 3
  else 0

/-- The first tick at or after `k` congruent to `b` modulo `l`. -/
def alignTick (k : Tick) (b : Int) (l : Nat) : Tick :=
  let r := ((b - (k.toNat : Int)) % (max 1 l : Nat)).toNat
  k + BitVec.ofNat 64 r

/-- The boundary of effect of a CRS commit for `k` (R249). -/
def State.crsEffectAt (s : State) (k : Tick) : Tick :=
  if s.fld Reg.CRS_CMD 0 2 = 1 then
    let p : Int := s.period
    let b0 := -((((s.phase : Int) - s.reg64 Reg.CRS_BASE_TIME)).fdiv p)
    alignTick k b0 s.crs.shd.cycle
  else alignTick k s.crs.base.toNat s.crs.act.cycle

/-- An accepted CRS commit waits for its boundary. -/
def State.crsAccept (s : State) (k : Tick) : State :=
  let b := s.crsEffectAt k
  let s := { s with crs := { s.crs with pend := some (s.fld Reg.CRS_CMD 0 2, b) } }
  let s := s.addCommit ⟨pCRS, k, b, false, s.role == 2⟩
  ((s.setReg64 Reg.CRS_CMT_AT b.toNat).setFld Reg.CRS_RES 0 4 0).tckWatch

/-- A CRS commit is refused, or the pending one cancelled. -/
def State.crsRefuse (s : State) (code : Nat) : State := (s.setFld Reg.CRS_RES 0 4 code).raise pCRS 3
def State.crsCancel (s : State) : State :=
  if s.pendingOn pCRS then
    ({ s.dropCommit pCRS with crs := { s.crs with pend := none } }).crsRefuse 6
  else s

/-- Queued applies for boundary `b` or later are cancelled (R192, R199). -/
def State.cancelApplies (s : State) (b : Tick) : State :=
  let (gone, keep) := s.rce.queue.partition fun e => decide (b.toNat ≤ e.b.toNat)
  let s := { s with rce := { s.rce with queue := keep } }
  s.raiseIf (!gone.isEmpty) pRCE 7

/-- The banks swap; the shadow bank is then the one that was active. -/
def State.crsSwapBanks (s : State) (b : Tick) : State :=
  let s := { s with crs := { s.crs with act := s.crs.shd, shd := s.crs.act, base := b } }
  let s := s.setRegN Reg.CRS_SHD_COUNT s.crs.shd.count
  let s := s.setBit Reg.CRS_STAT 1 (!s.bit Reg.CRS_STAT 1)
  s.setBit Reg.CRS_STAT 3 false

/-- A CRS commit due at boundary `t` takes effect (R249). -/
def State.crsCommitAt (s : State) (t : Tick) : State :=
  match s.crs.pend with
  | some (op, b) =>
    if b ≠ t then s else
    let s := { s.dropCommit pCRS with crs := { s.crs with pend := none } }
    let s := s.setForce Reg.CRS_CMD (s.reg Reg.CRS_CMD)
    let s := if op = 1 then
        let s := (s.crsSwapBanks t).setBit Reg.CRS_STAT 0 true
        (s.setBit Reg.CRS_STAT 5 false).cancelApplies t
      else if op = 2 then s.crsSwapBanks t
      else s.setBit Reg.CRS_STAT 0 false
    (s.setFld Reg.CRS_RES 0 4 0).raise pCRS 2
  | none => s

/-- The carousel halts for a safety-net application (R250). -/
def State.crsHalt (s : State) : State :=
  let s := s.crsCancel
  if s.carousel then ((s.setBit Reg.CRS_STAT 0 false).setBit Reg.CRS_STAT 5 true).raise pCRS 5 else s

/-- A slot starts at the present boundary and has not been reported (R246). -/
def State.slotChangeDue (s : State) : Bool :=
  s.carousel && s.crs.slotDone != some s.now && (s.crs.act.slotInForce s.crs.base s.now).2

/-- A carousel slot change takes effect: CUR_SLOT, INT_STAT bits 0 and 1, and the pulses of EVT_OUT (R246, R268, R271). -/
def State.slotChange (s : State) : State :=
  if !s.slotChangeDue then s else
  let r := s.crs.act.slotInForce s.crs.base s.now
  let cyc := r.1 == 0
  let s := { s with
    crs := { s.crs with slotDone := some s.now }
    evt := { s.evt with pulse := s.evt.pulse ||| (8 + 4 * b2n cyc) } }
  let s := s.setFld Reg.CRS_STAT 16 10 r.1
  let s := if cyc then s.setReg64 Reg.CRS_CYCLE_AT s.now.toNat else s
  (s.raise pCRS 0).raiseIf cyc pCRS 1

/-! ### The meanings -/

/-- CAROUSEL_CHECK (R247): CRS_CTRL written with CHECK. -/
def execCarouselCheck (m : Fin 8) (s : State) : Host.Outcome State Fault Refusal :=
  .next (s.gateWrite m Reg.CRS_CTRL 1 fun s => s.crsStartCheck)

/-- CAROUSEL_CHECK_DONE (R247). -/
def execCarouselCheckDone (s : State) : Host.Outcome State Fault Refusal := .next s.crsCheckDone

/-- CAROUSEL_SLOT_CHANGE (R246). -/
def execCarouselSlotChange (s : State) : Host.Outcome State Fault Refusal := .next s.slotChange

/-- CRS_SHD_DATA_WRITE (R270). -/
def execCrsShdDataWrite (m : Fin 8) (v : Word) (s : State) : Host.Outcome State Fault Refusal :=
  .next (s.gateWrite m Reg.CRS_SHD_DATA v fun s => s.crsDataWrite m v)

end Sys2Proof.Machine
end

