-- ==== Sys2Proof/Machine/Events.lean ====
section
/-! DEFINITION. Event inputs and outputs (R264 to R268): the TRIG_IN pins, the EFE loss-of-light inputs and EVT_OUT. -/

namespace Sys2Proof.Machine

/-- The EVT page. -/
abbrev pEVT : Nat := 0x00B

/-- The state of TRIG_INk, and of the LOL input of IPp. -/
def State.pin (s : State) (k : Nat) : PinSt := Sparse.get {} k s.evt.pins
def State.lol (s : State) (p : Nat) : LolSt := Sparse.get {} p s.evt.lols

/-- Change a pin's state, an LOL input's state. -/
def State.setPin (s : State) (k : Nat) (f : PinSt → PinSt) : State :=
  { s with evt := { s.evt with pins := Sparse.put {} k (f (s.pin k)) s.evt.pins } }
def State.setLol (s : State) (p : Nat) (f : LolSt → LolSt) : State :=
  { s with evt := { s.evt with lols := Sparse.put {} p (f (s.lol p)) s.evt.lols } }

/-- TRIG_INk may be recognised active (R264). -/
def State.pinEn (s : State) (k : Nat) : Bool := s.fbit Reg.EVT_PIN_EN k

/-- The level of TRIG_INk, inverted by EVT_PIN_POL (R264). -/
def State.pinActive (s : State) (k : Nat) : Bool := (s.pin k).level != s.fbit Reg.EVT_PIN_POL k

/-- A pin or LOL input is masked: its CHATTER bit is set (R266). -/
def State.pinMasked (s : State) (k : Nat) : Bool := s.bit Reg.EVT_PIN_STAT (8 + k)
def State.lolMasked (s : State) (p : Nat) : Bool := s.bit (Reg.EVT_LOL_CHATTER + 4 * (p / 32)) (p % 32)

/-- An input counts as active when it is recognised active or masked (R253, R266). -/
def State.pinCounts (s : State) (k : Nat) : Bool := (s.pin k).on || s.pinMasked k
def State.lolCounts (s : State) (p : Nat) : Bool := (s.lol p).on || s.lolMasked p

/-- O of the present tick (R54). -/
def State.cycO (s : State) : Nat := 80 + 57 * s.period / 100

/-- The trigger set of the present tick is closed: cycle O − 100 has come (R19). -/
def State.pastCutoff (s : State) : Bool := s.evt.closed || decide (s.cycO ≤ s.ntu.cyc + 100)

/-- The tick for which a happening outside the frames counts now (R260). -/
def State.countTick (s : State) : Tick := if s.pastCutoff then s.now + 1 else s.now

/-- Recognition of a pin starts from its level now; it waits when the level differs from what is recognised (R265). -/
def State.pinStart (s : State) (k : Nat) : State :=
  let a := s.pinActive k
  let w := some (s.frcNow, s.period)
  s.setPin k fun p => { p with wait := if a = p.on then none else w }

/-- A TRIG_IN pin takes a level. -/
def State.pinEdge (s : State) (k : Nat) (level : Bool) : State :=
  if (s.pin k).level = level then s
  else
    let s := s.setPin k fun p => { p with level := level }
    if s.pinEn k then s.pinStart k else s

/-- The 2 × P cycles of a pin's recognition have passed (R265). -/
def State.pinDue (s : State) (k : Nat) : Bool :=
  match (s.pin k).wait with
  | some (f, p) => decide ((s.frcNow - f).toNat ≥ 65536 * (2 * p))
  | none => false

/-- Two accepted events lie fewer than 16 ticks apart (R266). -/
def tooSoon (last : Option Tick) (t : Tick) : Bool :=
  match last with | some l => decide (t.toNat < l.toNat + 16) | none => false

/-- A pin's level is recognised; an activation is an event, or is masked as chatter (R265, R266). -/
def State.pinRecognise (s : State) (k : Nat) : State :=
  if !s.pinDue k then s else
  let t := s.countTick
  let a := s.pinActive k
  let s := s.setPin k fun p => { p with on := a, wait := none, since := if a then some t else none }
  if !a || s.pinMasked k then s
  else if tooSoon (s.pin k).last t then
    (s.setBit Reg.EVT_PIN_STAT (8 + k) true).raise pEVT 2
  else
    let s := s.setPin k fun p => { p with last := some t }
    let s := { s with evt := { s.evt with pinEv := s.evt.pinEv ||| 1 <<< k } }
    (s.count Reg.EVT_PIN_CNT).raise pEVT 0

/-- EVT_PIN_EN in force changed from `old`: a cleared pin is inactive at once, a set one starts afresh (R264). -/
def State.pinEnTakes (s : State) (old : Nat) : State :=
  (List.range 8).foldl (fun (s : State) k =>
    if bitAt old k && !s.pinEn k then s.setPin k fun p => { p with on := false, wait := none, since := none }
    else if !bitAt old k && s.pinEn k then s.pinStart k
    else s) s

/-- EVT_PIN_EN is written. -/
def State.pinEnWrite (s : State) (v : Word) : State :=
  (s.storeReg Reg.EVT_PIN_EN v).pinEnTakes (s.ffld Reg.EVT_PIN_EN 0 8)

/-- EVT_PIN_POL in force changed from `old`: an enabled pin whose bit changed takes the other level. -/
def State.pinPolTakes (s : State) (old : Nat) : State :=
  (List.range 8).foldl (fun (s : State) k =>
    if bitAt old k != s.fbit Reg.EVT_PIN_POL k && s.pinEn k then s.pinStart k else s) s

/-- EVT_PIN_POL is written. -/
def State.pinPolWrite (s : State) (v : Word) : State :=
  (s.storeReg Reg.EVT_PIN_POL v).pinPolTakes (s.ffld Reg.EVT_PIN_POL 0 8)

/-- The LOL flag of a slot in the latest frame of its EFE (R94, R264). -/
def State.lolFlag (s : State) (slot : Nat) : Bool := bitAt (s.reg64 (atInst Reg.BYV_LOL (efeOf slot))) (slot % 768 - 672)

/-- The LOL input of IPp after the frame of the present tick, received or lost (R265, R266). -/
def State.lolFrame (s : State) (p slot : Nat) : State :=
  if (s.port (efeOf slot)).gotTick ≠ some s.now then s.setLol p fun x => { x with run := 0 }
  else
    let flag := s.lolFlag slot
    let x := s.lol p
    let run := if x.flag = flag ∧ x.run ≠ 0 then 2 else 1
    let s := s.setLol p fun x => { x with flag := flag, run := run }
    if run < 2 ∨ flag = x.on then s
    else
      let s := s.setLol p fun x => { x with on := flag, since := if flag then some s.now else none }
      if !flag || s.lolMasked p then s
      else if tooSoon x.last s.now then
        (s.setBit (Reg.EVT_LOL_CHATTER + 4 * (p / 32)) (p % 32) true).raise pEVT 2
      else
        let s := s.setLol p fun x => { x with last := some s.now }
        let s := { s with prt := { s.prt with events := s.prt.events ++ [0x2000 + p] } }
        s.raise pEVT 1

/-- Every LOL input at cycle O. -/
def State.lolFrames (s : State) : State :=
  s.slots.foldl (fun (s : State) e => match e.2 with | .voa p => s.lolFrame p e.1 | _ => s) s

/-- A descriptor comes into force: the LOL inputs start afresh (R264). -/
def State.clearLols (s : State) : State :=
  (List.range 32).foldl (fun (s : State) w =>
    (s.setRegN (Reg.EVT_LOL_CHATTER + 4 * w) 0).setRegN (Reg.EVT_LOL_STUCK + 4 * w) 0)
    { s with evt := { s.evt with lols := [] } }

/-- An input has been recognised active for more than EVT_STUCK ticks (R267). -/
def State.stuckDue (s : State) (on : Bool) (since : Option Tick) : Bool :=
  on && match since with
    | some t => decide (s.now.toNat > t.toNat + (s.inForce Reg.EVT_STUCK).toNat)
    | none => false

/-- STUCK of input `i`: a pin below 8, the LOL input of IP(i − 8) from 8 on. -/
def State.stuckDetect (s : State) (i : Nat) : State :=
  let (a, b, due) := if i < 8 then (Reg.EVT_PIN_STAT, 16 + i, s.stuckDue (s.pin i).on (s.pin i).since)
    else (Reg.EVT_LOL_STUCK + 4 * ((i - 8) / 32), (i - 8) % 32, s.stuckDue (s.lol (i - 8)).on (s.lol (i - 8)).since)
  if due && !s.bit a b then (s.setBit a b true).raise pEVT 3 else s

/-- The bits of a W1C word of the EVT page whose condition still holds: STUCK of an input recognised active (R267). -/
def State.evtPersist (s : State) (addr : Nat) : Nat :=
  if addr = Reg.EVT_PIN_STAT then maskOf (((List.range 8).filter fun k => (s.pin k).on).map (· + 16))
  else if Reg.EVT_LOL_STUCK ≤ addr ∧ addr < Reg.EVT_LOL_STUCK + 128 then
    maskOf ((List.range 32).filter fun i => (s.lol (8 * (addr - Reg.EVT_LOL_STUCK) + i)).on)
  else 0

/-- A W1C word of the EVT page is written (R266, R267). -/
def State.evtClear (s : State) (addr : Nat) (v : Word) : State :=
  s.clearBits addr v (if addr = Reg.EVT_PIN_STAT then 0xFFFF00 else 0xFFFFFFFF) (s.evtPersist addr)

/-- The recognised levels: EVT_PIN_STAT.LEVEL, and word `w` of EVT_LOL_LEVEL. -/
def State.pinLevels (s : State) : Nat := maskOf ((List.range 8).filter fun k => (s.pin k).on)
def State.lolLevels (s : State) (w : Nat) : Nat := maskOf ((List.range 32).filter fun i => (s.lol (32 * w + i)).on)

/-- The pins that count as active (R253). -/
def State.pinMask (s : State) : Nat := maskOf ((List.range 8).filter s.pinCounts)

/-- TRIG_IN_EDGE (R265). -/
def execTrigInEdge (pin : Fin 8) (level : Bool) (cycle : Nat) (s : State) : Host.Outcome State Fault Refusal :=
  .next ((s.atCycle cycle).pinEdge pin level)

/-- STUCK_DETECT (R267): inputs 0 to 7 are the pins, input 8 + p is the LOL input of IPp. -/
def execStuckDetect (input : Fin 1032) (s : State) : Host.Outcome State Fault Refusal := .next (s.stuckDetect input)

/-- EVT_PIN_EN_WRITE (R264). -/
def execEvtPinEnWrite (m : Fin 8) (v : Word) (cycle : Nat) (s : State) : Host.Outcome State Fault Refusal :=
  .next ((s.atCycle cycle).gateWrite m Reg.EVT_PIN_EN v fun s => s.pinEnWrite v)

/-- CHATTER_CLEAR (R266): word 0 is EVT_PIN_STAT, word 1 + w is word w of EVT_LOL_CHATTER. -/
def execChatterClear (m : Fin 8) (word : Fin 33) (v : Word) (s : State) : Host.Outcome State Fault Refusal :=
  let a := if word.val = 0 then Reg.EVT_PIN_STAT else Reg.EVT_LOL_CHATTER + 4 * (word.val - 1)
  .next (s.gateWrite m a v fun s => s.evtClear a v)

end Sys2Proof.Machine
end

