-- ==== Sys2Proof/Machine/Protect.lean ====
section
/-! DEFINITION. Protection cases (R252 to R263) and the requests for the safety net (R192). -/

namespace Sys2Proof.Machine

/-- The PRT page. -/
abbrev pPRT : Nat := 0x053

/-! ### Safety-net requests (R192) -/

/-- A safety-net application is requested now: for boundary t + 2, or t + 3 after the cut-off. -/
def State.requestSafety (s : State) : State :=
  let b := s.countTick + 2
  { s with rce := { s.rce with safeAt := if s.rce.safeAt.contains b then s.rce.safeAt else s.rce.safeAt ++ [b] } }

/-- A safety-net application is to take effect at some boundary up to `b` (R192, R261). -/
def State.safetyAsked (s : State) (b : Tick) : Bool :=
  s.safe || s.safetyBy b || (s.bit Reg.RCE_STAT 1 && s.rce.safeAt.any fun x => decide (x.toNat ≤ b.toNat))

/-! ### Descriptors (R252, R253) -/

/-- Word `w` of the descriptor of case `c`. -/
def PrtBank.word (b : PrtBank) (c w : Nat) : Nat := Sparse.get 0 (16 * c + w) b.desc

/-- ARMED, REVERTIVE, ALT_EN and HOME_EN. -/
def PrtBank.armed (b : PrtBank) (c : Nat) : Bool := bitAt (b.word c 0) 0
def PrtBank.revertive (b : PrtBank) (c : Nat) : Bool := bitAt (b.word c 0) 1
def PrtBank.altEn (b : PrtBank) (c : Nat) : Bool := bitAt (b.word c 0) 2
def PrtBank.homeEn (b : PrtBank) (c : Nat) : Bool := bitAt (b.word c 0) 3

/-- ALT_REC, HOME_REC, SUB_FIRST, SUB_COUNT and WTR. -/
def PrtBank.altRec (b : PrtBank) (c : Nat) : Nat := bits (b.word c 1) 0 13
def PrtBank.homeRec (b : PrtBank) (c : Nat) : Nat := bits (b.word c 1) 16 13
def PrtBank.subFirst (b : PrtBank) (c : Nat) : Nat := bits (b.word c 2) 0 14
def PrtBank.subCount (b : PrtBank) (c : Nat) : Nat := bits (b.word c 2) 16 11
def PrtBank.wtr (b : PrtBank) (c : Nat) : Nat := b.word c 3

/-- The eight trigger codes. -/
def PrtBank.trigs (b : PrtBank) (c : Nat) : List Nat :=
  (List.range 8).map fun i => bits (b.word c (4 + i / 2)) (16 * (i % 2)) 16

/-- The pair words of a case, within the substitution memory. -/
def PrtBank.pairsOf (b : PrtBank) (c : Nat) : List Nat :=
  ((List.range (b.subCount c)).map (b.subFirst c + ·)).filterMap fun i =>
    if i < 16384 then some (Sparse.get 0 i b.pairs) else none

/-- Slot and substitute record of a pair word. -/
def pairSlot (w : Nat) : Nat := w % 1024
def pairRec (w : Nat) : Nat := bits w 16 13

/-- The armed cases of a bank in ascending order. -/
def PrtBank.armedCases (b : PrtBank) : List Nat := (List.range 256).filter b.armed

/-- The records a case may apply in persistent mode. -/
def PrtBank.persistRecs (b : PrtBank) (c : Nat) : List Nat :=
  (if b.altEn c then [b.altRec c] else []) ++ (if b.homeEn c then [b.homeRec c] else [])

/-- Every record a case names: ALT_REC, HOME_REC, then the substitutes (R190, R255). -/
def PrtBank.recsOf (b : PrtBank) (c : Nat) : List Nat := b.persistRecs c ++ (b.pairsOf c).map pairRec

/-! ### The check (R254, R255) -/

/-- A trigger code is in range for `n` ports. -/
def trigOk (n t : Nat) : Bool :=
  let ty := t / 4096
  let i := t % 1024
  t / 1024 % 4 == 0 && decide (ty ≤ 4)
    && (if ty = 0 then i == 0 else if ty ≤ 2 then decide (i < n) else if ty = 3 then decide (i < 8) else decide (i < 64))

/-- FIELD holds no complaint about a case. -/
def PrtBank.fieldOk (b : PrtBank) (n c : Nat) : Bool :=
  decide (b.word c 0 < 16) && bits (b.word c 1) 13 3 == 0 && bits (b.word c 1) 29 3 == 0 && bits (b.word c 2) 14 2 == 0
    && bits (b.word c 2) 27 5 == 0 && ((List.range 7).all fun i => b.word c (9 + i) == 0)
    && (b.trigs c).all (trigOk n) && (b.pairsOf c).all fun w => bits w 10 6 == 0 && bits w 29 3 == 0

/-- A list names some value twice. -/
def hasDup : List Nat → Bool
  | [] => false
  | a :: t => t.contains a || hasDup t

/-- SUBS holds no complaint about a case. -/
def PrtBank.subsOk (b : PrtBank) (c : Nat) : Bool :=
  decide (b.subCount c ≤ 1024) && decide (b.subFirst c + b.subCount c ≤ 16384) && !hasDup ((b.pairsOf c).map pairSlot)

/-- The first failing record's code among the records of a case. -/
def State.recsBad (s : State) (l : List Nat) : Nat := ((l.map s.checkRec).find? (· != 0)).getD 0

/-- The check of a bank: code, case and detail. -/
def State.prtCheck (s : State) (b : PrtBank) : Nat × Nat × Nat :=
  let a := b.armedCases
  match a.find? fun c => !b.fieldOk s.nPorts c with
  | some c => (7, c, 0)
  | none => match a.find? fun c => !b.subsOk c with
    | some c => (8, c, 0)
    | none => match a.find? fun c => s.recsBad (b.recsOf c) != 0 with
      | some c => (9, c, s.recsBad (b.recsOf c))
      | none => (0, 0, 0)

/-- The cells, as a mask, for which some record of a list holds a code other than KEEP. -/
def State.cellsSet (s : State) (recs : List Nat) : Nat :=
  recs.foldl (fun (m : Nat) r =>
    let k := s.recCells r
    m ||| maskOf ((List.range s.nCells).filter fun c => codeOf k c != cKEEP)) 0

/-- The overlapping pairs of armed cases (R254). -/
def State.overlapPairs (s : State) (b : PrtBank) : List (Nat × Nat) :=
  let l := b.armedCases.map fun c => (c, s.cellsSet (b.persistRecs c), maskOf ((b.pairsOf c).map pairSlot))
  l.flatMap fun x => l.filterMap fun y =>
    if x.1 < y.1 ∧ (x.2.1 &&& y.2.1 ≠ 0 ∨ x.2.2 &&& y.2.2 ≠ 0) then some (x.1, y.1) else none

/-- Two cases overlap under the bank's latest check. -/
def PrtBank.overlap (b : PrtBank) (x y : Nat) : Bool := b.overlaps.contains (min x y, max x y)

/-- PRT_CTRL.CHECK; ignored while CHECKING is 1. -/
def State.prtStartCheck (s : State) : State := s.setBit Reg.PRT_STAT 1 true

/-- CHECKED clears and the held records are released (R255). -/
def State.prtUncheck (s : State) : State :=
  ({ s with prt := { s.prt with held := [] } }).setBit Reg.PRT_STAT 0 false

/-- The check completes. -/
def State.prtCheckDone (s : State) : State :=
  if !s.bit Reg.PRT_STAT 1 then s else
  let b := s.prt.shd
  let r := s.prtCheck b
  let s := s.setBit Reg.PRT_STAT 1 false
  let s := s.setRegN Reg.PRT_RES (r.1 + 256 * r.2.2 + 65536 * r.2.1)
  let s := if r.1 = 0 then
      let o := s.overlapPairs b
      ({ s with prt := { s.prt with held := uniq (b.armedCases.flatMap b.recsOf), shd := { b with overlaps := o } } }).setBit
        Reg.PRT_STAT 0 true
    else s.prtUncheck
  s.raise pPRT 4

/-- Writes to the shadow bank are refused while a check runs or a commit is pending. -/
def State.prtShadowBusy (s : State) : Bool := s.bit Reg.PRT_STAT 1 || s.pendingOn pPRT

/-- Word `w` of the shadow descriptor of case PRT_CASE_SEL is written. -/
def State.prtWinWrite (s : State) (m addr : Nat) (v : Word) : State :=
  if s.prtShadowBusy then s.refuseWrite m addr
  else
    let k := 16 * s.fld Reg.PRT_CASE_SEL 0 8 + (addr - Reg.PRT_SHD_WIN) / 4
    ({ s with prt := { s.prt with shd := { s.prt.shd with desc := Sparse.put 0 k v.toNat s.prt.shd.desc } } }).prtUncheck

/-- PRT_SUB_DATA is written: pair word IDX of the shadow bank, and IDX advances. -/
def State.prtSubWrite (s : State) (m : Nat) (v : Word) : State :=
  if s.prtShadowBusy then s.refuseWrite m Reg.PRT_SUB_DATA
  else
    let i := s.fld Reg.PRT_SUB_IDX 0 14
    let s := { s with prt := { s.prt with shd := { s.prt.shd with pairs := Sparse.put 0 i v.toNat s.prt.shd.pairs } } }
    s.prtUncheck.setRegN Reg.PRT_SUB_IDX ((i + 1) % 16384)

/-- PRT_SUBA_DATA is read: pair word IDX of the active bank, and IDX advances. -/
def State.prtSubRead (s : State) : State × Nat :=
  let i := s.fld Reg.PRT_SUBA_IDX 0 14
  (s.setRegN Reg.PRT_SUBA_IDX ((i + 1) % 16384), Sparse.get 0 i s.prt.act.pairs)

/-! ### Commits (R256) -/

/-- PRT_SUB_DATA is read: IDX advances (R272). -/
def State.prtSubNext (s : State) : State := s.setRegN Reg.PRT_SUB_IDX ((s.fld Reg.PRT_SUB_IDX 0 14 + 1) % 16384)

/-- The tests of a PRT commit; the codes of PRT_RES. -/
def State.prtTests (s : State) (k : Tick) (tickTest inTakeover : Bool) : Nat :=
  if !s.roleActs then 2
  else if s.orphaned && !inTakeover then 5
  else if !s.bit Reg.PRT_STAT 0 then 1
  else if s.pendingOn pPRT || s.bit Reg.PRT_STAT 1 then 4
  else if tickTest && decide (k.toNat < s.now.toNat + 2) then 3
  else 0

/-- A PRT commit is refused or cancelled. -/
def State.prtRefuse (s : State) (code : Nat) : State := (s.setFld Reg.PRT_RES 0 4 code).raise pPRT 6

/-- The run state of case `c`. -/
def State.caseRun (s : State) (c : Nat) : CaseRun := Sparse.get {} c s.prt.runs

/-- Change a case's run state. -/
def State.setCase (s : State) (c : Nat) (f : CaseRun → CaseRun) : State :=
  { s with prt := { s.prt with runs := Sparse.put {} c (f (s.caseRun c)) s.prt.runs } }

/-- The banks swap and run states follow (R256); what PRT_RUN and PRT_RUN_AT tell of a case's latest firing stands (R272). -/
def State.prtSwap (s : State) : State :=
  let old := s.prt.act
  let new := s.prt.shd
  let s := { s with prt := { s.prt with act := new, shd := old, held := [] } }
  let s := (List.range 256).foldl (fun (s : State) c =>
    if new.armed c then (if (s.caseRun c).state = 0 then s.setCase c fun x => { x with state := 1 } else s)
    else if (s.caseRun c).state ≠ 0 then
      s.setCase c fun x => { x with state := 0, wtrEnd := 0, due := false, forced := false, cause := none }
    else s) s
  let s := s.setBit Reg.PRT_STAT 3 (!s.bit Reg.PRT_STAT 3)
  s.setBit Reg.PRT_STAT 0 false

/-- A PRT commit takes effect. -/
def State.prtCommitAt (s : State) : State :=
  ((s.dropCommit pPRT).prtSwap.setFld Reg.PRT_RES 0 4 0).raise pPRT 5

/-! ### Commands (R262) -/

/-- The outcome of a command: 0 OK, 1 MODE, 2 RANGE, 3 STATE. -/
def State.prtCmdRes (s : State) (c op : Nat) : Nat :=
  let st := (s.caseRun c).state
  if !s.roleActs then 1
  else if st = 0 ∨ (op ≠ 1 ∧ op ≠ 2) then 2
  else if op = 2 ∧ (st = 1 ∨ st = 2 ∨ st = 5) then 3
  else 0

/-! ### The trigger set of a tick (R19, R20, R260) -/

/-- The alarm inputs active now (R342). -/
def State.almLevels (s : State) : Nat := s.reg64 Reg.ALM_IN_LEVEL

/-- The commands of one set: six at most in role active, where they travel in one TRIG message (R418). -/
def State.cmdRoom (s : State) : Nat := if s.role = 1 then 6 else s.prt.cmds.length

/-- Cycle O − 100: the external trigger set of the tick is closed. -/
def State.closeTrig (s : State) : State :=
  if s.evt.closed then s else
  let set : TrigSet :=
    { pinEv := s.evt.pinEv, pinAct := s.pinMask, almEv := s.evt.almEv, almAct := s.almLevels
      cmds := s.prt.cmds.take s.cmdRoom, safe := s.rce.safeAt.contains (s.now + 2) }
  { s with
    evt := { s.evt with ext := set, closed := true, pinEv := 0, almEv := 0 }
    prt := { s.prt with cmds := s.prt.cmds.drop s.cmdRoom } }

/-- Time has passed the cut-off of a running tick whose set is still open. -/
def State.closeIfPast (s : State) : State := if s.running && s.pastCutoff then s.closeTrig else s

/-- PRT_CMD is written: the command counts for the tick whose trigger set is open (R260). -/
def State.prtCmd (s : State) (v : Word) : State :=
  let s := s.closeIfPast
  let c := Machine.fld v 16 8
  let op := Machine.fld v 0 4
  let r := s.prtCmdRes c op
  let s := s.setRegN Reg.PRT_CMD_RES r
  if r = 0 then { s with prt := { s.prt with cmds := s.prt.cmds ++ [(c, op)] } } else s.raise pPRT 6

/-! ### Run states (R257 to R261) -/

/-- A trigger of code `t` is active (R253). -/
def State.trigActive (s : State) (t : Nat) : Bool :=
  let i := t % 1024
  match t / 4096 with
  | 1 => (Sparse.get {} i s.mea.los).los
  | 2 => s.lolCounts i
  | 3 => bitAt s.evt.ext.pinAct i
  | 4 => bitAt s.evt.ext.almAct i
  | _ => false

/-- An event on a trigger of code `t` is counted for the present tick. -/
def State.trigEvent (s : State) (t : Nat) : Bool :=
  match t / 4096 with
  | 3 => bitAt s.evt.ext.pinEv (t % 1024)
  | 4 => bitAt s.evt.ext.almEv (t % 1024)
  | 0 => false
  | _ => s.prt.events.contains t

/-- What a case asks in a tick. -/
inductive Ask where
  | none | fire | revert
  deriving DecidableEq, Repr

/-- The row of R257 for one case: its run state without deferral, and what it is a candidate for. When several commands to a case
are counted for one tick, the last one acts. -/
def caseRow (x : CaseRun) (revertive : Bool) (wtr : Nat) (t : Tick) (ev : Option Nat) (act : Bool) (op : Nat) :
    CaseRun × Ask :=
  let forced := if op = 1 then true else if op = 2 then false else x.forced
  let live := act || forced
  let y := { x with forced := forced }
  match x.state with
  | 1 => if ev.isSome || op == 1 then ({ y with cause := ev }, .fire) else (y, .none)
  | 2 => (y, .fire)
  | 3 =>
    if op = 2 then (y, if revertive then .none else .revert)
    else if revertive && !live then
      if wtr = 0 then ({ y with state := 4, wtrEnd := t }, .revert)
      else ({ y with state := 4, wtrEnd := t + BitVec.ofNat 64 wtr }, .none)
    else (y, .none)
  | 4 =>
    if act || op == 1 then ({ y with state := 3, due := false }, .none)
    else if op == 2 || x.due then ({ y with due := false }, .revert)
    else (y, .none)
  | 5 => if act || op == 1 then ({ y with state := 3 }, .none) else (y, .revert)
  | _ => (x, .none)

/-- The operation of the last command to case `c` in the set; 0 when there is none. -/
def opOf (cmds : List (Nat × Nat)) (c : Nat) : Nat := (cmds.foldl (fun (o : Nat) e => if e.1 = c then e.2 else o) 0)

/-- A candidate is deferred (R259). -/
def State.deferred (s : State) (c : Nat) (fire : Bool) : Bool :=
  let b := s.prt.act
  let wants (c : Nat) (fire : Bool) : Bool := if fire then b.altEn c else b.homeEn c
  (s.prt.taken.any fun e => b.overlap c e.1)
    || (!s.carousel && wants c fire && decide ((s.prt.taken.filter fun e => wants e.1 (e.2 == 0)).length ≥ 8))

/-- A firing or reversion of case `c` is taken in tick t, for boundary t + 2; with a safety net there, or SAFE, it is missed. -/
def State.takeCase (s : State) (c : Nat) (fire : Bool) : State :=
  let b := s.now + 2
  if s.safetyAsked b then
    let s := s.setCase c fun x => { x with state := 1, missed := true }
    { s with prt := { s.prt with effs := s.prt.effs ++ [⟨b, c, 2⟩] } }
  else
    let o := s.prt.order + 1
    let s := s.setCase c fun x =>
      if fire then { x with state := 3, missed := false, order := o, trig := x.cause.getD x.trig, byForce := x.cause.isNone }
      else { x with state := 1, forced := false }
    { s with prt := { s.prt with
        order := o, taken := s.prt.taken ++ [(c, if fire then 0 else 1)]
        effs := s.prt.effs ++ [⟨b, c, if fire then 0 else 1⟩] } }

/-- The timer of case `c` expires in the present tick or did before: its reversion is due (R257). -/
def State.wtrExpire (s : State) (c : Nat) : State :=
  if (s.caseRun c).state = 4 ∧ (s.caseRun c).wtrEnd.toNat ≤ s.now.toNat then s.setCase c fun x => { x with due := true } else s

/-- The events of case `c` counted for the present tick: those of its triggers, and each FORCE, which acts as one (R262). -/
def State.caseEvents (s : State) (c : Nat) : Nat :=
  ((uniq (s.prt.act.trigs c)).filter s.trigEvent).length + (s.evt.ext.cmds.filter fun e => e.1 == c && e.2 == 1).length

/-- Run-state processing of one armed case at O + 30; events on a case that is PENDING or ACTIVE are counted as ignored. -/
def State.runCase (s : State) (c : Nat) : State :=
  let s := s.wtrExpire c
  let x := s.caseRun c
  if x.state = 0 then s else
  let b := s.prt.act
  let ts := b.trigs c
  let ev := (ts.zipIdx.find? fun e => s.trigEvent e.1).map (·.2)
  let r := caseRow x (b.revertive c) (b.wtr c) s.now ev (ts.any s.trigActive) (opOf s.evt.ext.cmds c)
  let s := s.setCase c fun _ => r.1
  let s := if x.state = 2 ∨ x.state = 3 then s.bump Reg.PRT_FIRE_CNT 22 10 (s.caseEvents c) else s
  match r.2 with
  | .none => s
  | a =>
    let fire := a == .fire
    if s.deferred c fire then
      ((s.setCase c fun x => { x with state := if fire then 2 else 5 }).bump Reg.PRT_FIRE_CNT 11 11 1).raise pPRT 2
    else s.takeCase c fire

/-- Cycle O + 30: every case in ascending number. -/
def State.runCases (s : State) : State :=
  (List.range 256).foldl (fun (s : State) c => s.runCase c) { s with prt := { s.prt with taken := [] } }

/-- Changes of effect at boundary `t` (R257, R258): PRT_LAST, counters and interrupts. -/
def State.prtEffects (s : State) (t : Tick) : State :=
  let (now, keep) := s.prt.effs.partition fun e => decide (e.b.toNat ≤ t.toNat)
  let s := { s with prt := { s.prt with effs := keep } }
  now.foldl (fun (s : State) e =>
    let s := s.setRegN Reg.PRT_LAST (e.case + 256 * e.kind)
    let s := s.setReg64 Reg.PRT_LAST_TICK e.b.toNat
    if e.kind = 2 then s.raise pPRT 3
    else
      let s := s.setCase e.case fun x => { x with at' := e.b }
      let s := { s with evt := { s.evt with pulse := s.evt.pulse ||| 16 } }
      if e.kind = 0 then (s.bump Reg.PRT_FIRE_CNT 0 11 1).raise pPRT 0 else s.raise pPRT 1) s

/-- The case is PENDING, ACTIVE, WTR or RESTORING. -/
def State.caseBusy (s : State) (c : Nat) : Bool := decide ((s.caseRun c).state ≥ 2)

/-- The substitute of carousel slot `i` at a composition now: among the cases ACTIVE, WTR or RESTORING that name it, that of
the one that took effect latest (R258). -/
def State.substitute? (s : State) (i : Nat) : Option Nat :=
  let b := s.prt.act
  let l := (List.range 256).filterMap fun c =>
    let x := s.caseRun c
    if x.state = 3 ∨ x.state = 4 ∨ x.state = 5 then
      ((b.pairsOf c).find? fun w => pairSlot w == i).map fun w => (x.order, pairRec w)
    else none
  match l with
  | [] => none
  | h :: t => some (t.foldl (fun (m : Nat × Nat) e => if m.1 ≤ e.1 then e else m) h).2

/-- The level of EVT_OUTo (R268). -/
def State.evtOut (s : State) (o : Nat) : Bool :=
  let src := s.ffld Reg.EVT_OUT_CFG (8 * o) 3
  let v :=
    if src = 1 then s.fbit Reg.EVT_OUT_SW o
    else if src = 2 then bitAt s.evt.pulse 2
    else if src = 3 then bitAt s.evt.pulse 3
    else if src = 4 then bitAt s.evt.pulse 4
    else if src = 5 then (List.range 256).any s.caseBusy
    else if src = 6 then s.safe
    else if src = 7 then (s.pin (s.ffld Reg.EVT_OUT_CFG (8 * o + 4) 3)).on
    else false
  v != s.fbit Reg.EVT_OUT_CFG (8 * o + 3)

/-! ### The meanings -/

/-- PIN_RECOGNITION (R265, R266). -/
def execPinRecognition (pin : Fin 8) (cycle : Nat) (s : State) : Host.Outcome State Fault Refusal :=
  .next ((s.atCycle cycle).closeIfPast.pinRecognise pin)

/-- PROTECTION_CHECK (R255): PRT_CTRL written with CHECK. -/
def execProtectionCheck (m : Fin 8) (s : State) : Host.Outcome State Fault Refusal :=
  .next (s.gateWrite m Reg.PRT_CTRL 1 fun s => s.prtStartCheck)

/-- PROTECTION_CHECK_DONE (R255). -/
def execProtectionCheckDone (s : State) : Host.Outcome State Fault Refusal := .next s.prtCheckDone

/-- PRT_SUB_DATA_WRITE (R272). -/
def execPrtSubDataWrite (m : Fin 8) (v : Word) (s : State) : Host.Outcome State Fault Refusal :=
  .next (s.gateWrite m Reg.PRT_SUB_DATA v fun s => s.prtSubWrite m v)

/-- FORCE (R262): PRT_CMD written with OP 1 at cycle `cycle`. -/
def execForce (m : Fin 8) (case : Fin 256) (cycle : Nat) (s : State) : Host.Outcome State Fault Refusal :=
  let v := BitVec.ofNat 32 (65536 * case.val + 1)
  .next ((s.atCycle cycle).gateWrite m Reg.PRT_CMD v fun s => s.prtCmd v)

/-- CLEAR (R262): PRT_CMD written with OP 2 at cycle `cycle`. -/
def execClear (m : Fin 8) (case : Fin 256) (cycle : Nat) (s : State) : Host.Outcome State Fault Refusal :=
  let v := BitVec.ofNat 32 (65536 * case.val + 2)
  .next ((s.atCycle cycle).gateWrite m Reg.PRT_CMD v fun s => s.prtCmd v)

/-- WTR_EXPIRY (R257): the timer of a case expires and its reversion falls due, to be taken at O + 30 of the tick. -/
def execWtrExpiry (case : Fin 256) (s : State) : Host.Outcome State Fault Refusal := .next (s.wtrExpire case)

end Sys2Proof.Machine
end

