-- ==== Sys2Proof/Machine/Rce.lean ====
section
/-! DEFINITION. The state store, applying a state, and the safety net (R190 to R203, R210, R243). Composition stands in
Compose.lean. -/

namespace Sys2Proof.Machine

/-! ### Records in use and held (R190, R231, R255) -/

/-- The slots of a bank name record `i`. -/
def CrsBank.names (b : CrsBank) (i : Nat) : Bool := b.slots.any fun w => slotRec w == i

/-- Record `i` is in use (R190). -/
def State.recInUse (s : State) (i : Nat) : Bool :=
  (s.rce.queue.any (·.index == i))
    || (match s.rce.staging with | some g => g.index == i | none => false)
    || s.crs.act.names i || s.crs.shd.names i
    || (s.prt.act.armedCases.any fun c => (s.caseRun c).state != 0 && (s.prt.act.recsOf c).contains i)

/-- Job slot `j` holds its target and report: it is queued, running or suspended (R231). -/
def State.jobBusy (s : State) (j : Nat) : Bool :=
  let st := s.fld (Reg.RSV_JOB_W5 + 32 * j) 30 2
  st == 1 || st == 2

/-- TARGET and REPORT of job slot `j`; a CHECK job has no target. -/
def State.jobRecs (s : State) (j : Nat) : List Nat :=
  let r := s.fld (Reg.RSV_JOB_W3 + 32 * j) 0 13
  if s.fld (Reg.RSV_JOB_W0 + 32 * j) 0 2 = 2 then [r] else [s.fld (Reg.RSV_JOB_W2 + 32 * j) 0 13, r]

/-- Record `i` is held by a solver job. -/
def State.solverHeld (s : State) (i : Nat) : Bool :=
  (List.range 32).any fun j => s.jobBusy j && (s.jobRecs j).contains i

/-- A write by master `m` to record `i` is refused with IN_USE: in use, but for M3 during the Trapeze (R190), or held by the
solver, but for M3 and M6 (R231). -/
def State.storeRefused (s : State) (m i : Nat) : Bool :=
  (!(m == 3 && s.trapPhase != 0) && (s.recInUse i || s.prt.held.contains i)) || (m != 3 && m != 6 && s.solverHeld i)

/-- A 32-bit write to the state store at byte offset `o`. -/
def State.storeWordWrite (s : State) (m o : Nat) (v : Word) : State :=
  let a := 0x10000000 + o
  if s.storeRefused m (o / 0x1000) then s.violate m true a kInUse
  else (s.respond m true a .ok 0).storeN a 4 v.toNat

/-! ### The safety net (R191 to R193) -/

/-- Stage record 0 as the safety net: ARM_RES, ARMED and INT_STAT bit 6. -/
def State.armSafety (s : State) : State :=
  let r := s.checkRec 0
  let s := s.setFld Reg.RCE_STAT 8 4 r
  let s := if r = 0 then
      ({ s with rce := { s.rce with armed := some (s.recCells 0), armedGen := s.recGen 0 } }).setBit Reg.RCE_STAT 1 true
    else s
  s.raise pRCE 6

/-- A descriptor comes into force: record 0 is the all-BAR record, armed (R191). -/
def State.defaultSafety (s : State) : State :=
  match s.topo with
  | some t => (s.putRec 0 t.topoId 0 0 (packCells t.cells fun _ => cBAR)).armSafety
  | none => s

/-- SAFE_EXIT (R193). -/
def State.safeExit (s : State) : State :=
  let ok := s.roleActs && !s.orphaned
  let s := s.setRegN Reg.RCE_APPLY_RES ((if ok then 0 else 5) + 32)
  if ok then s.setBit Reg.RCE_STAT 0 false else s.raise pRCE 1

/-! ### Apply requests (R197 to R203) -/

/-- The cut-off of an apply request: O − 100, or O − 300 in role active (R197). -/
def State.applyCutoff (s : State) : Nat := if s.role = 1 then s.cycO - 300 else s.cycO - 100

/-- The apply boundary of the views: the tick, or by time (R200). -/
def State.applyTick (s : State) : Tick :=
  if s.bit Reg.RCE_APPLY_REC 17 then
    BitVec.ofNat 64 (-(((s.phase : Int) - s.reg64 Reg.RCE_APPLY_TIME).fdiv (max 1 s.period : Nat))).toNat
  else BitVec.ofNat 64 (s.reg64 Reg.RCE_APPLY_TICK)

/-- A late request is recorded, with the boundary used or none (R203). -/
def State.recordLate (s : State) (index : Nat) (a : Tick) (used : Option Tick) : State :=
  let s := s.setReg Reg.RCE_LATE_REQ (a.setWidth 32)
  let s := match used with | some b => s.setReg Reg.RCE_LATE_ACT (b.setWidth 32) | none => s
  let s := s.setFld Reg.RCE_LATE_INFO 0 13 index
  let s := s.bump Reg.RCE_LATE_INFO 16 15 1
  let s := s.setBit Reg.RCE_LATE_INFO 31 used.isSome
  s.logEvent pRCE 6 0x50 (a.toNat % 2 ^ 32) (match used with | some b => b.toNat % 2 ^ 32 | none => 0xFFFFFFFF)

/-- The result of an apply request. -/
def State.applyRes (s : State) (code : Nat) (lateTr : Bool) : State :=
  let s := s.setRegN Reg.RCE_APPLY_RES (code + 16 * b2n lateTr)
  s.raiseIf (code != 0 && code != 2) pRCE 1

/-- Staging ends with an R189 result `r`: the record joins the queue, or its result is reported (R198, test 8). -/
def State.stagingEnds (s : State) (r : Nat) : State :=
  match s.rce.staging with
  | none => s
  | some g =>
    let s := { s with rce := { s.rce with staging := none } }
    let s := s.setBit Reg.RCE_STAT 2 false
    if r ≠ 0 then
      if g.fromActive then s
      else (if g.late then s.recordLate g.index g.asked none else s).applyRes r g.lateTr
    else
      let e : Staged := { b := g.a, index := g.index, gen := s.recGen g.index, late := g.late, cells := s.recCells g.index }
      let s := ({ s with rce := { s.rce with queue := s.rce.queue ++ [e] } }).stopWatch.tckWatch
      if g.fromActive then s
      else
        let s := s.setReg64 Reg.RCE_APPLY_AT g.a.toNat
        let s := if g.late then (s.recordLate g.index g.asked (some g.a)).raise pRCE 2 else s
        s.applyRes (if g.late then 2 else 0) g.lateTr

/-- The record of a staging request has been read from the store. -/
def State.stagingDone (s : State) : State :=
  match s.rce.staging with
  | none => s
  | some g => s.stagingEnds (s.checkRec g.index)

/-- Tests 6 and 7 of R198. -/
def State.queueTests (s : State) (a : Tick) : Nat :=
  if s.rce.queue.any (·.b == a) then 4 else if s.rce.queue.length ≥ 16 then 3 else 0

/-- An apply request (R197, R198, R203): refused, or staging; in role active it is forwarded (R202). -/
def State.applyGo (s : State) : State :=
  let rec_ := s.fld Reg.RCE_APPLY_REC 0 13
  let a := s.applyTick
  let lateTr := decide (s.applyCutoff ≤ s.ntu.cyc)
  let tr := if lateTr then s.now + 1 else s.now
  let isLate := decide (a.toNat < tr.toNat + 2)
  let next := s.bit Reg.RCE_LATE_POLICY 0
  if s.rce.staging.isSome then s.applyRes 0xC lateTr
  else if !s.roleActs || s.carousel || s.orphaned then s.applyRes 5 lateTr
  else if s.safe then s.applyRes 0xD lateTr
  else if isLate && !next then (s.recordLate rec_ a none).applyRes 1 lateTr
  else
    let b := if isLate then tr + 2 else a
    let q := s.queueTests b
    if q ≠ 0 then (if isLate then s.recordLate rec_ a none else s).applyRes q lateTr
    else
      let s := s.setRegN Reg.RCE_APPLY_RES (16 * b2n lateTr)
      let s := { s with rce := { s.rce with staging := some ⟨rec_, b, isLate, false, a, lateTr⟩ } }
      let s := s.setBit Reg.RCE_STAT 2 true
      if s.role = 1 then s.sendMirror 0x64 s.now 0 (padTo 32 (toLE 2 rec_ ++ toLE 8 b.toNat)) else s

/-- A request forwarded by the active is staged from the own store (R202). -/
def State.applyForwarded (s : State) (index : Nat) (a : Tick) : State :=
  let s := s.stagingDone
  ({ s with rce := { s.rce with staging := some ⟨index % 8192, a, false, true, a, false⟩ } }).setBit Reg.RCE_STAT 2 true

/-- CANCEL_ALL: entries whose codes have not been fixed are cancelled; those of tick a − 2 are fixed at O + 50 (R199). -/
def State.cancelAll (s : State) : State :=
  s.cancelApplies (if s.rce.composed then s.now + 3 else s.now + 2)

/-- A write of RCE_CTRL. -/
def State.rceCtrlWrite (s : State) (v : Word) : State :=
  let s := if bitOf v 4 then s.cancelAll else s
  let s := if bitOf v 3 then s.safeExit else s
  let s := if bitOf v 2 then s.armSafety else s
  let s := if bitOf v 1 then s.closeIfPast.requestSafety else s
  if bitOf v 0 then s.applyGo else s

/-- RCE_QUEUE: word 0 and word 1 of entry `q`, in ascending order of boundary. -/
def State.queueWord (s : State) (q w : Nat) : Nat :=
  let l := sortNat (s.rce.queue.map (·.b.toNat))
  match l[q]? with
  | none => 0
  | some b =>
    if w = 0 then b % 2 ^ 32
    else match s.rce.queue.find? (·.b.toNat == b) with
      | some e => 2 ^ 31 + b2n e.late * 2 ^ 30 + e.index
      | none => 0

/-! ### The meanings -/

/-- APPLY_GO (R197, R198): RCE_CTRL written with GO at cycle `cycle`. -/
def execApplyGo (m : Fin 8) (cycle : Nat) (s : State) : Host.Outcome State Fault Refusal :=
  .next ((s.atCycle cycle).gateWrite m Reg.RCE_CTRL 1 fun s => s.applyGo)

/-- STAGING_DONE (R198). -/
def execStagingDone (s : State) : Host.Outcome State Fault Refusal := .next s.stagingDone

/-- APPLY_CANCEL_ALL (R199): RCE_CTRL written with CANCEL_ALL. -/
def execApplyCancelAll (m : Fin 8) (s : State) : Host.Outcome State Fault Refusal :=
  .next (s.gateWrite m Reg.RCE_CTRL 16 fun s => s.cancelAll)

/-- ARM_SAFETY (R191): RCE_CTRL written with ARM_SAFETY. -/
def execArmSafety (m : Fin 8) (s : State) : Host.Outcome State Fault Refusal :=
  .next (s.gateWrite m Reg.RCE_CTRL 4 fun s => s.armSafety)

/-- SAFE_NOW (R192): RCE_CTRL written with SAFE_NOW at cycle `cycle`. -/
def execSafeNow (m : Fin 8) (cycle : Nat) (s : State) : Host.Outcome State Fault Refusal :=
  .next ((s.atCycle cycle).gateWrite m Reg.RCE_CTRL 2 fun s => s.closeIfPast.requestSafety)

/-- SAFE_EXIT (R193): RCE_CTRL written with SAFE_EXIT. -/
def execSafeExit (m : Fin 8) (s : State) : Host.Outcome State Fault Refusal :=
  .next (s.gateWrite m Reg.RCE_CTRL 8 fun s => s.safeExit)

end Sys2Proof.Machine
end

