-- ==== Sys2Proof/Machine/Rsv.lean ====
section
/-! DEFINITION. The route solver (R216 to R241). The spec leaves open which of several routes its search takes, and promises that
the same inputs always give the same one: the choice is a fixed function of the inputs, free but for the rules. -/

namespace Sys2Proof.Machine

/-- The RSV page, and word `w` of job slot `j`. -/
abbrev pRSV : Nat := 0x054
def jobReg (j w : Nat) : Nat := Reg.RSV_JOB_W0 + 32 * j + 4 * w

/-- STATE of a job slot. -/
def State.jobState (s : State) (j : Nat) : Nat := s.fld (jobReg j 5) 30 2

/-- KIND, MODE, PRIO, CSLOT, BASE, TARGET and REPORT of a job slot. -/
def State.jobKind (s : State) (j : Nat) : Nat := s.fld (jobReg j 0) 0 2
def State.jobMode (s : State) (j : Nat) : Nat := s.fld (jobReg j 0) 4 2
def State.jobUrgent (s : State) (j : Nat) : Bool := s.bit (jobReg j 0) 8
def State.jobCslot (s : State) (j : Nat) : Nat := s.fld (jobReg j 1) 0 10
def State.jobBase (s : State) (j : Nat) : Nat := s.fld (jobReg j 2) 16 13
def State.jobTarget (s : State) (j : Nat) : Nat := s.fld (jobReg j 2) 0 13
def State.jobReport (s : State) (j : Nat) : Nat := s.fld (jobReg j 3) 0 13

/-- RSV_STAT follows the queue. -/
def State.rsvShow (s : State) : State :=
  let q := s.rsv
  let s := s.setBit Reg.RSV_STAT 0 q.run.isSome
  let s := s.setBit Reg.RSV_STAT 2 q.susp.isSome
  let s := match q.run with | some j => s.setFld Reg.RSV_STAT 8 5 j.slot | none => s
  let s := match q.susp with | some j => s.setFld Reg.RSV_STAT 24 5 j.slot | none => s
  s.setFld Reg.RSV_STAT 16 6 q.queue.length

/-! ### Submission (R230, R234, R235) -/

/-- R230 holds of a job slot: within the range, distinct, not record 0 and not in use. -/
def State.targetOk (s : State) (j : Nat) : Bool :=
  let lo := max 1 (s.fld Reg.RSV_RANGE 0 13)
  let hi := s.fld Reg.RSV_RANGE 16 13
  let l := s.jobRecs j
  !hasDup l && l.all fun i => decide (lo ≤ i) && decide (i ≤ hi) && !s.recInUse i

/-- The tests of R234. -/
def State.subTests (s : State) (j : Nat) : Nat :=
  let k := s.jobKind j
  if !s.roleActs then 1
  else if j ≥ 32 ∨ s.jobBusy j then 2
  else if k = 3 ∨ (k = 1 ∧ s.jobMode j = 3) ∨ (k ≠ 1 ∧ s.jobMode j ≠ 0) then 3
  else if s.topo.isNone then 4
  else if !s.targetOk j then 5
  else 0

/-- RSV_SUBMIT is written. -/
def State.rsvSubmit (s : State) (j : Nat) : State :=
  let r := s.subTests j
  let s := s.setRegN Reg.RSV_SUB_RES r
  if r ≠ 0 then s.raise pRSV 2
  else
    let s := s.setRegN (jobReg j 5) (2 ^ 30)
    let s := (s.setRegN (jobReg j 6) 0).setRegN (jobReg j 7) 0
    ({ s with rsv := { s.rsv with queue := s.rsv.queue ++ [j] } }).rsvShow

/-- A word of a job slot is written: only while the slot is free (R235). -/
def State.jobSlotWrite (s : State) (m addr : Nat) (v : Word) : State :=
  let j := (addr - Reg.RSV_JOB_W0) / 32
  if s.jobBusy j then s.refuseWrite m addr else s.storeReg addr v

/-! ### Paths (R209, R221, R222, R226) -/

/-- Cell `c` may not be used: Dark, or of an absent EFE. -/
def RsvJob.badCell (j : RsvJob) (t : Topo) (c : Nat) : Bool :=
  codeOf j.ret c == 3 || match t.slotOf? (.cell c) with | some sl => bitAt j.absent (efeOf sl) | none => true

/-- The code of a base cell, a stuck one in its stuck state. -/
def RsvJob.baseCode (j : RsvJob) (c : Nat) : Nat :=
  let r := codeOf j.ret c
  if r = 1 then cBAR else if r = 2 then cCROSS else codeOf j.base c

/-- The path of IPp under a code function: its cells and the output reached. -/
def pathOf (t : Topo) (code : Nat → Nat) (p : Nat) : List Nat × Nat := tracePath t code t.stages 0 p

/-- The base carries IPp to OPq. -/
def RsvJob.carries (j : RsvJob) (t : Topo) (p q : Nat) : Bool :=
  let r := pathOf t j.baseCode p
  r.2 == q && r.1.all fun c => !j.badCell t c

/-- The requested connections the base carries, and those to be added. -/
def RsvJob.kept (j : RsvJob) (t : Topo) : List (Nat × Nat × Bool) := j.reqs.filter fun r => j.carries t r.2.1 r.1
def RsvJob.added (j : RsvJob) (t : Topo) : List (Nat × Nat × Bool) := j.reqs.filter fun r => !j.carries t r.2.1 r.1

/-- The base connections not requested: those of every traced path without a Dark cell or a cell of an absent EFE (R221). -/
def RsvJob.removed (j : RsvJob) (t : Topo) : List Nat :=
  (List.range t.ports).filter fun p =>
    let r := pathOf t j.baseCode p
    (r.1.all fun c => !j.badCell t c) && !j.reqs.any fun x => x.1 == r.2 && x.2.1 == p

/-- A cell is optically crossed. -/
def crossed (code : Nat) : Bool := code == cCROSS

/-- A kept connection whose path changes under `sol`. -/
def RsvJob.disturbed (j : RsvJob) (t : Topo) (sol : Sparse Nat) (r : Nat × Nat × Bool) : Bool :=
  (pathOf t j.baseCode r.2.1).1.any fun c => crossed (codeOf sol c) != crossed (j.baseCode c)

/-- Every requested connection runs in `sol` over usable cells set BAR or CROSS, a stuck one in its state. -/
def RsvJob.routes (j : RsvJob) (t : Topo) (sol : Sparse Nat) : Bool :=
  j.reqs.all fun r =>
    let x := pathOf t (codeOf sol) r.2.1
    x.2 == r.1 && x.1.all fun c =>
      let k := codeOf sol c
      let ret := codeOf j.ret c
      !j.badCell t c && (k == cBAR || k == cCROSS) && !(ret == 1 && k != cBAR) && !(ret == 2 && k != cCROSS)

/-- The cell codes of a target in which the cells of mask `m` are crossed: BAR or CROSS on the path of a connection, and what R218
says elsewhere. -/
def RsvJob.setting (j : RsvJob) (t : Topo) (m : Nat) : Sparse Nat :=
  let code (c : Nat) : Nat := if bitAt m c then cCROSS else cBAR
  let on := maskOf (j.reqs.flatMap fun r => (pathOf t code r.2.1).1)
  (List.range t.cells).foldl (fun (x : Sparse Nat) c =>
    Sparse.put 0 c (if bitAt on c then code c else if codeOf j.ret c = 2 then cCROSS else cPARK) x) []

/-- The input's VOA lies on an absent EFE (INPUT_ABSENT). -/
def RsvJob.inputAbsent (j : RsvJob) (t : Topo) (p : Nat) : Bool :=
  match t.slotOf? (.voa p) with | some sl => bitAt j.absent (efeOf sl) | none => false

/-- The masks over `n` cells in a fixed order: the first that passes. -/
def findMask (ok : Nat → Bool) : Nat → Nat → Option Nat
  | 0, m => if ok m then some m else none
  | n + 1, m =>
    match findMask ok n m with
    | some x => some x
    | none => findMask ok n (m + 2 ^ n)

/-- A usable cell's states: both, or its stuck state. -/
def RsvJob.stuckAllows (j : RsvJob) (t : Topo) (c : Nat) (st : Bool) : Bool :=
  let r := codeOf j.ret c
  !j.badCell t c && !(r == 1 && st) && !(r == 2 && !st)

/-- Every path from input line `x` of stage `k` to output line `q` through `fuel` stages: cells with their states. `allow c st`
says that cell `c` may be passed in state `st`, `free k x` that input line `x` of stage `k` is free. -/
def pathsTo (t : Topo) (allow : Nat → Bool → Bool) (free : Nat → Nat → Bool) (q : Nat) : Nat → Nat → Nat → List (List (Nat × Bool))
  | 0, _, x => if x = q then [[]] else []
  | fuel + 1, k, x =>
    if !free k x then []
    else
      let c := k * (t.ports / 2) + x / 2
      [false, true].flatMap fun st =>
        if !allow c st then []
        else
          let y := if st then (if x % 2 = 0 then x + 1 else x - 1) else x
          (pathsTo t allow free q fuel (k + 1) (if fuel = 0 then y else t.wire k y)).map ((c, st) :: ·)

/-- Proven: no path from IPp to OPq, even with every other connection removed (NO_PATH). -/
def RsvJob.noPath (j : RsvJob) (t : Topo) (p q : Nat) : Bool :=
  (pathsTo t (j.stuckAllows t) (fun _ _ => true) q t.stages 0 p).isEmpty

/-- The input lines of a path, stage by stage. -/
def inLines (t : Topo) (code : Nat → Nat) : Nat → Nat → Nat → List (Nat × Nat)
  | 0, _, _ => []
  | fuel + 1, k, x =>
    let c := k * (t.ports / 2) + x / 2
    let y := if code c = cCROSS then (if x % 2 = 0 then x + 1 else x - 1) else x
    (k, x) :: inLines t code fuel (k + 1) (t.wire k y)

/-- The paths from IPp to OPq beside the connections of the inputs `others`, whose cells are crossed as mask `m` says (R222). -/
def RsvJob.freePaths (j : RsvJob) (t : Topo) (m : Nat) (others : List Nat) (p q : Nat) : List (List (Nat × Bool)) :=
  let code (c : Nat) : Nat := if bitAt m c then cCROSS else cBAR
  let fixed := maskOf (others.flatMap fun o => (pathOf t code o).1)
  let used := others.flatMap fun o => inLines t code t.stages 0 o
  pathsTo t (fun c st => j.stuckAllows t c st && (!bitAt fixed c || bitAt m c == st)) (fun k x => !used.contains (k, x)) q
    t.stages 0 p

/-- The path taken of several: fewest cells whose optical state changes, then first in the fixed order (R222). -/
def RsvJob.bestPath (j : RsvJob) (l : List (List (Nat × Bool))) : Option (List (Nat × Bool)) :=
  let cost (x : List (Nat × Bool)) : Nat := (x.filter fun e => e.2 != crossed (j.baseCode e.1)).length
  let least (f : List (Nat × Bool) → Nat) (l : List (List (Nat × Bool))) : List (List (Nat × Bool)) :=
    l.filter fun x => l.all fun y => decide (f x ≤ f y)
  (least Config.pathRank (least cost l)).head?

/-- The added connections one at a time, in ascending order of output, beside those before them: the cells crossed; `none` where
a connection finds no path (R222). -/
def RsvJob.addAll (j : RsvJob) (t : Topo) : Nat → List Nat → List (Nat × Nat × Bool) → Option Nat
  | m, _, [] => some m
  | m, others, r :: rest =>
    match j.bestPath (j.freePaths t m others r.2.1 r.1) with
    | none => none
    | some x =>
      let m := x.foldl (fun (m : Nat) e => if bitAt m e.1 == e.2 then m else m ^^^ 2 ^ e.1) m
      j.addAll t m (r.2.1 :: others) rest

/-- The fabric is clear for a job (R225). -/
def RsvJob.clear (j : RsvJob) (t : Topo) : Bool := !t.explicitWiring && j.ret.isEmpty && j.absent == 0

/-! ### Start (R216, R217, R233, R236) -/

/-- The requested connections of carousel slot `sl`. -/
def State.requests (s : State) (sl : Nat) : List (Nat × Nat × Bool) :=
  (List.range 1024).filterMap fun q =>
    let e := s.ctxEntry sl q
    if ctxValid e && !ctxDark e then some (q, ctxInput e, ctxHitless e) else none

/-- The list of a malformed set (R217): RANGE entries, and both outputs of inputs named twice. -/
def badSet (n : Nat) (l : List (Nat × Nat × Bool)) : List (Nat × Nat) :=
  l.filterMap fun r =>
    if r.1 ≥ n ∨ r.2.1 ≥ n then some (r.1, 6)
    else if (l.filter fun x => x.2.1 == r.2.1).length > 1 then some (r.1, 5)
    else none

/-- The entries a CHECK job lists: connections the base does not carry. -/
def RsvJob.checkList (j : RsvJob) (t : Topo) : List (Nat × Nat) :=
  (j.added t).map fun r => (r.1, if (pathOf t j.baseCode r.2.1).2 = r.1 then 3 else 7)

/-- The retirement codes in force other than 0, and the absent EFEs. -/
def State.retCodes (s : State) : Sparse Nat :=
  (List.range s.nCells).filterMap fun c => let v := s.retCode c; if v = 0 then none else some (c, v)
def State.absentMask (s : State) : Nat :=
  match s.topo with
  | some t => maskOf ((setBits 16 t.efeMask).filter s.absent)
  | none => 0

/-- What a job reads at its start, with a result known at once: TARGET, NO_TOPO, BAD_BASE, BAD_SET, or that of a CHECK. -/
def State.readJob (s : State) (slot : Nat) : RsvJob :=
  let kind := s.jobKind slot
  let base := s.jobBase slot
  let reqs := s.requests (s.jobCslot slot)
  let j : RsvJob :=
    { slot := slot, urgent := s.jobUrgent slot, topoId := match s.topo with | some t => t.topoId | none => 0
      topo := s.topo, ret := s.retCodes, absent := s.absentMask, reqs := reqs
      base := if kind = 0 then [] else s.recCells base, early := none }
  let bad := badSet s.nPorts reqs
  { j with early :=
      if !s.targetOk slot then some (8, [])
      else match s.topo with
      | none => some (6, [])
      | some t =>
        if kind ≠ 0 ∧ s.checkRec base ≠ 0 then some (7, [])
        else if !bad.isEmpty then some (5, bad)
        else if kind = 2 then
          let l := j.checkList t
          some (if l.isEmpty then 0 else 0xA, l)
        else none }

/-- The next job to start: the oldest urgent one, then the oldest normal one. -/
def State.nextJob? (s : State) : Option Nat :=
  match s.rsv.queue.find? s.jobUrgent with
  | some j => some j
  | none => if s.rsv.susp.isSome then none else s.rsv.queue.head?

/-- The solver does nothing: stopped at T3 (R228), or the device does not act and no pass is under way (R237, R238). -/
def State.solverStops (s : State) : Bool :=
  s.bit Reg.RSV_STAT 1 || (!s.roleActs && !(match s.rsv.run with | some j => j.pass | none => false))

/-- A job starts (R233): with none running, or an urgent one in place of a normal one, which is suspended. -/
def State.jobStart (s : State) : State :=
  if s.solverStops then s else
  match s.nextJob? with
  | none => s
  | some j =>
    let go (s : State) : State :=
      let job := s.readJob j
      let s := s.setFld (jobReg j 5) 30 2 2
      ({ s with rsv := { s.rsv with queue := s.rsv.queue.filter (· != j), run := some job } }).rsvShow
    match s.rsv.run with
    | none => go s
    | some r =>
      if s.jobUrgent j && !r.urgent && !r.pass && s.rsv.susp.isNone then
        go { s with rsv := { s.rsv with run := none, susp := some r } }
      else s

/-- The suspended job resumes once none runs and no urgent one waits. -/
def State.jobResume (s : State) : State :=
  if s.solverStops ∨ s.rsv.run.isSome ∨ s.rsv.queue.any s.jobUrgent then s
  else match s.rsv.susp with
  | some j => ({ s with rsv := { s.rsv with run := some j, susp := none } }).rsvShow
  | none => s

/-! ### End (R222, R223, R226, R232) -/

/-- The report record of a job (R232). -/
def reportBytes (index topoId gen res kindMode count target base sw pk ad rm : Nat) (list : List (Nat × Nat)) : List Byte :=
  let h := toLE 4 0x5256424D ++ toLE 2 index ++ toLE 2 1 ++ toLE 4 topoId ++ toLE 4 gen ++ toLE 1 res ++ toLE 1 kindMode
    ++ toLE 2 count ++ toLE 2 target ++ toLE 2 base ++ toLE 2 sw ++ toLE 2 pk ++ toLE 2 ad ++ toLE 2 rm
    ++ List.replicate 28 (0 : Byte)
  let l := padTo 2048 ((list.flatMap fun e => toLE 2 (e.1 % 1024 + e.2 * 1024)).take 2048)
  let crc := (crc32c (h ++ [0, 0, 0, 0] ++ l)).toNat
  h ++ toLE 4 crc ++ l ++ List.replicate 1984 (0 : Byte)

/-- A list of outputs and reasons in ascending order of output. -/
def sortList (l : List (Nat × Nat)) : List (Nat × Nat) :=
  (List.range 1024).filterMap fun q => l.find? (·.1 == q)

/-- A job ends: result words, RSV_DONE, counters, RSV_LAST and interrupts; the slot and its holds are free. -/
def State.jobFinish (s : State) (slot res count cycles : Nat) (stale : Bool) : State :=
  let s := s.setRegN (jobReg slot 5) (3 * 2 ^ 30 + count % 2048 * 65536 + 16 * b2n stale + res)
  let s := s.setRegN (jobReg slot 6) (min cycles 0xFFFFFFFF)
  let s := s.setRegN (jobReg slot 7) (s.now.toNat % 2 ^ 32)
  let fail := decide (res > 1)
  let s := s.setBit Reg.RSV_DONE slot true
  let s := s.bump Reg.RSV_JOB_CNT 0 16 1
  let s := if fail then s.bump Reg.RSV_JOB_CNT 16 16 1 else s
  let s := s.setRegN Reg.RSV_LAST (256 * slot + 16 * b2n stale + res)
  let drop (o : Option RsvJob) : Option RsvJob := o.bind fun j => if j.slot = slot then none else some j
  let s := { s with rsv := { queue := s.rsv.queue.filter (· != slot), run := drop s.rsv.run, susp := drop s.rsv.susp } }
  let s := (s.rsvShow.raise pRSV 0).raiseIf fail pRSV 1
  s.raiseIf stale pRSV 3

/-- SWITCHED, PARKED, ADDED and REMOVED of a job's report (R232). -/
def RsvJob.figures (j : RsvJob) (kind res : Nat) (sol : Option (Sparse Nat)) : Nat × Nat × Nat × Nat :=
  let open' := Config.reportCells { j with slot := 0, urgent := false, stale := false, pass := false } res
  match j.topo with
  | none => (open' 0, open' 1, open' 2, open' 3)
  | some t =>
    let from' (c : Nat) : Nat := if kind = 0 then cBAR else codeOf j.base c
    let cells := List.range t.cells
    let (sw, pk) := match sol with
      | some x => ((cells.filter fun c => crossed (codeOf x c) != crossed (from' c)).length,
          (cells.filter fun c => crossed (codeOf x c) == crossed (from' c) && codeOf x c != from' c).length)
      | none => (open' 0, open' 1)
    if res = 5 ∨ res = 7 then (sw, pk, open' 2, open' 3)
    else if kind = 0 then (sw, pk, j.reqs.length, 0)
    else (sw, pk, (j.added t).length, (j.removed t).length)

/-- The report of a job is written into its report record (R232). -/
def State.putReport (s : State) (j : RsvJob) (res : Nat) (list : List (Nat × Nat)) (sol : Option (Sparse Nat)) : State :=
  let kind := s.jobKind j.slot
  let report := s.jobReport j.slot
  let f := j.figures kind res sol
  s.setBytes (recAddr report) (reportBytes report j.topoId (s.reg (jobReg j.slot 4)).toNat res
    (kind + 4 * s.jobMode j.slot + 16 * b2n j.stale) list.length (if kind = 2 then 0 else s.jobTarget j.slot)
    (if kind = 0 then 0 else s.jobBase j.slot) f.1 f.2.1 f.2.2.1 f.2.2.2 list)

/-- The target record is written whole (R218). -/
def State.putTarget (s : State) (j : RsvJob) (sol : Sparse Nat) : State :=
  let n := match j.topo with | some t => t.cells | none => 0
  s.putRec (s.jobTarget j.slot) j.topoId (s.reg (jobReg j.slot 4)).toNat 1 (packCells n (codeOf sol))

/-- MAGIC of the target record is 0. -/
def State.clearMagic (s : State) (j : RsvJob) : State := s.setBytes (recAddr (s.jobTarget j.slot)) (toLE 4 0)

/-- The running job goes on to its final pass with a result, its list, and the target's cells when it succeeds. At stage 0 MAGIC
becomes 0, at stage 1 the rest of the target is written, and else the job ends with its target and report whole (R219). -/
def State.jobWrite (s : State) (j : RsvJob) (res : Nat) (list : List (Nat × Nat)) (sol : Option (Sparse Nat)) (stage cycles : Nat) :
    State :=
  if !j.pass ∧ (res = 8 ∨ (s.jobRecs j.slot).any s.recInUse) then s.jobFinish j.slot 8 0 cycles j.stale
  else match sol with
  | some x =>
    let pass (s : State) : State := { s with rsv := { s.rsv with run := some { j with pass := true } } }
    if stage = 0 then pass (s.clearMagic j)
    else if stage = 1 then pass ((s.putTarget j x).clearMagic j)
    else
      let l := sortList list
      ((s.putTarget j x).putReport j res l sol).jobFinish j.slot res l.length cycles j.stale
  | none =>
    if stage < 2 then s
    else
      let l := sortList list
      (s.putReport j res l none).jobFinish j.slot res l.length cycles j.stale

/-- What the searches depend on: neither the slot nor the order of the queue. -/
def RsvJob.key (j : RsvJob) : RsvJob := { j with slot := 0, urgent := false, early := none, stale := false, pass := false }

/-- A failing search is possible: not on a clear fabric, but for PROTECT_FLAGGED jobs (R225, R226). -/
def RsvJob.bounded (j : RsvJob) (t : Topo) (kind mode : Nat) : Bool := !j.clear t || (kind == 1 && mode == 1)

/-- Mask `m` routes every requested connection and disturbs none of `held` (R218, R221). -/
def RsvJob.fits (j : RsvJob) (t : Topo) (held : List (Nat × Nat × Bool)) (m : Nat) : Bool :=
  let x := j.setting t m
  j.routes t x && (j.reqs.all fun r => !j.inputAbsent t r.2.1) && !held.any (j.disturbed t x)

/-- The rearranging search with `held` fixed: the cells crossed. It finds a setting on a clear fabric with nothing held (R225), and
may fail elsewhere (R226). -/
def RsvJob.search (j : RsvJob) (t : Topo) (kind mode budget : Nat) (held : List (Nat × Nat × Bool)) : Option Nat :=
  if j.bounded t kind mode && Config.searchFails j.key kind mode budget then none
  else
    let m := Config.searchMask j.key kind mode budget
    if j.fits t held m then some m else findMask (j.fits t held) t.cells 0

/-- The reason of a connection that was not routed (R226). -/
def RsvJob.reason (j : RsvJob) (t : Topo) (r : Nat × Nat × Bool) : Nat :=
  if j.inputAbsent t r.2.1 then 4 else if j.noPath t r.2.1 r.1 then 3 else 2

/-- The end of a search that found no setting: the proven connections and those left unresolved; all of them where neither names
one (R226, R229). -/
def RsvJob.failList (j : RsvJob) (t : Topo) (kind mode budget : Nat) : List (Nat × Nat) :=
  let u := Config.unresolved j.key kind mode budget
  let all := j.reqs.map fun r => (r.1, j.reason t r)
  let l := all.filter fun e => e.2 != 2 || bitAt u e.1
  if l.isEmpty then all else l

/-- A list of connections with one reason. -/
def outputsOf (k : Nat) (l : List (Nat × Nat × Bool)) : List (Nat × Nat) := l.map fun r => (r.1, k)

/-- Result, list and target of a job that searches (R221 to R226). -/
def RsvJob.result (j : RsvJob) (t : Topo) (kind mode budget : Nat) : Nat × List (Nat × Nat) × Option (Sparse Nat) :=
  let unroutable := (4, j.failList t kind mode budget, none)
  let kept := if kind = 0 then [] else j.kept t
  let moved (m : Nat) : List (Nat × Nat × Bool) := kept.filter (j.disturbed t (j.setting t m))
  let done (m : Nat) : Nat × List (Nat × Nat) × Option (Sparse Nat) :=
    (b2n !(moved m).isEmpty, outputsOf 0 (moved m), some (j.setting t m))
  let hitless := if kind = 1 ∧ mode = 0 then
      j.addAll t (maskOf ((List.range t.cells).filter fun c => crossed (j.baseCode c))) (kept.map (·.2.1)) (j.added t)
    else none
  match hitless with
  | some m => (0, [], some (j.setting t m))
  | none =>
    match j.search t kind 2 budget [] with
    | none => unroutable
    | some m =>
      if kind = 0 ∨ mode = 2 then done m
      else if mode = 0 then (2, outputsOf 0 (moved m), none)
      else
        let flagged := (moved m).filter (·.2.2)
        if flagged.isEmpty then done m
        else match j.search t kind 1 budget (kept.filter (·.2.2)) with
          | some m' => done m'
          | none => (3, outputsOf 1 flagged, none)

/-- The clamped budget (R240). -/
def State.rsvBudget (s : State) : Nat := min 16000000 (max 10000 (s.fld Reg.RSV_BUDGET 0 24))

/-- The running job's search is bounded by the budget (R226, R229). -/
def State.searchBounded (s : State) (j : RsvJob) : Bool :=
  match j.early, j.topo with
  | none, some t => j.bounded t (s.jobKind j.slot) (s.jobMode j.slot)
  | _, _ => false

/-- The budget of the running job's bounded search is spent without a route: UNROUTABLE (R229). -/
def State.searchSpent (s : State) (j : RsvJob) (cycles : Nat) : State :=
  match j.topo with
  | none => s
  | some t => s.jobWrite j 4 (j.failList t (s.jobKind j.slot) (s.jobMode j.slot) s.rsvBudget) none 2 cycles

/-- The running job goes on to its final pass, and ends at stage 2, after `cycles` solver cycles (R216 to R232); a bounded search
that took more than the budget has failed (R229). -/
def State.jobEnd (s : State) (stage cycles : Nat) : State :=
  if s.solverStops then s else
  match s.rsv.run with
  | none => s
  | some j =>
    match j.early, j.topo with
    | some e, _ => s.jobWrite j e.1 e.2 none stage cycles
    | none, none => s.jobWrite j 6 [] none stage cycles
    | none, some t =>
      if !j.pass && s.searchBounded j && decide (s.rsvBudget < cycles) then s.searchSpent j cycles
      else
        let r := j.result t (s.jobKind j.slot) (s.jobMode j.slot) s.rsvBudget
        s.jobWrite j r.1 r.2.1 r.2.2 stage cycles

/-- The budget is spent after `cycles` solver cycles. -/
def State.budgetOut (s : State) (cycles : Nat) : State :=
  if s.solverStops then s else
  match s.rsv.run with
  | none => s
  | some j => if !j.pass && s.searchBounded j && decide (s.rsvBudget ≤ cycles) then s.searchSpent j cycles else s

/-! ### Cancellation (R237) -/

/-- The job in a slot is cancelled; a slot without a job is left alone, and so is one whose pass has begun. A job that has
started writes its report (R232), unless its report record has come into use. -/
def State.jobCancel (s : State) (j cycles : Nat) : State :=
  let started := [s.rsv.run, s.rsv.susp].filterMap fun o => o.bind fun x => if x.slot = j then some x else none
  match s.jobBusy j, started with
  | false, _ => s
  | true, x :: _ =>
    if x.pass then s
    else
      let s := if s.recInUse (s.jobReport j) then s else s.putReport x 9 [] none
      ((s.jobFinish j 9 0 cycles x.stale).raise pRSV 5).resetMaster 6
  | true, [] => (s.jobFinish j 9 0 0 false).raise pRSV 5

/-- Every job is cancelled. -/
def State.jobCancelAll (s : State) (cycles : Nat) : State :=
  (List.range 32).foldl (fun (s : State) j => s.jobCancel j cycles) s

/-- The solver stops at T3 and goes on below it (R228). -/
def State.rsvLevel (s : State) (level : Nat) : State :=
  let was := s.bit Reg.RSV_STAT 1
  let s := s.setBit Reg.RSV_STAT 1 (level == 3)
  s.raiseIf (level == 3 && !was && (s.rsv.run.isSome || !s.rsv.queue.isEmpty)) pRSV 4

/-- A write of RSV_CTRL. -/
def State.rsvCtrlWrite (s : State) (v : Word) : State :=
  let s := s.storeReg Reg.RSV_CTRL v
  let n := Config.solverCycles s.fresh
  let s := if bitOf v 0 then s.tick1.jobCancel (Machine.fld v 8 5) n else s
  if bitOf v 1 then s.tick1.jobCancelAll n else s

/-! ### The meanings -/

/-- RSV_SUBMIT (R234). -/
def execRsvSubmit (m : Fin 8) (slot : Fin 32) (s : State) : Host.Outcome State Fault Refusal :=
  .next (s.gateWrite m Reg.RSV_SUBMIT (BitVec.ofNat 32 slot.val) fun s => s.rsvSubmit slot)

/-- JOB_SLOT_WRITE (R235): word 0 to 4 of a job slot. -/
def execJobSlotWrite (m : Fin 8) (slot : Fin 32) (word : Fin 5) (v : Word) (s : State) : Host.Outcome State Fault Refusal :=
  .next (s.gateWrite m (jobReg slot word) v fun s => s.jobSlotWrite m (jobReg slot word) v)

/-- JOB_START (R233). -/
def execJobStart (s : State) : Host.Outcome State Fault Refusal := .next s.jobStart

/-- JOB_RESUME (R233). -/
def execJobResume (s : State) : Host.Outcome State Fault Refusal := .next s.jobResume

/-- JOB_END (R216 to R232): the running job has taken `cycles` solver cycles and comes to its final pass: 0 MAGIC of the target is
written 0, 1 the rest of it is written, 2 the job ends. -/
def execJobEnd (stage : Fin 3) (cycles cycle : Nat) (s : State) : Host.Outcome State Fault Refusal :=
  .next ((s.atCycle cycle).jobEnd stage cycles)

/-- BUDGET_EXHAUSTED (R229). -/
def execBudgetExhausted (cycles cycle : Nat) (s : State) : Host.Outcome State Fault Refusal :=
  .next ((s.atCycle cycle).budgetOut cycles)

/-- JOB_CANCEL (R237): RSV_CTRL written with CANCEL and SLOT; `cycles` is what the job took. -/
def execJobCancel (m : Fin 8) (slot : Fin 32) (cycles : Nat) (s : State) : Host.Outcome State Fault Refusal :=
  let v := BitVec.ofNat 32 (1 + 256 * slot.val)
  .next (s.gateWrite m Reg.RSV_CTRL v fun s => (s.storeReg Reg.RSV_CTRL v).jobCancel slot cycles)

/-- JOB_CANCEL_ALL (R237): RSV_CTRL written with CANCEL_ALL. -/
def execJobCancelAll (m : Fin 8) (cycles : Nat) (s : State) : Host.Outcome State Fault Refusal :=
  .next (s.gateWrite m Reg.RSV_CTRL 2 fun s => (s.storeReg Reg.RSV_CTRL 2).jobCancelAll cycles)

end Sys2Proof.Machine
end

