-- ==== Sys2Proof/Machine/Compose.lean ====
section
/-! DEFINITION. Composing the fabric state of each boundary and what follows at the boundary (R204 to R207, R48). -/

namespace Sys2Proof.Machine

/-- A composition under way: the codes, and the last step that changed one. -/
structure Comp where
  cells : Sparse Nat
  src : Option (Nat × Nat × Nat)
  deriving DecidableEq, Repr

/-- Overlay a record's cells; the step counts when it changed a code (R206). -/
def Comp.lay (k : Comp) (n src index gen : Nat) (rec : Sparse Nat) : Comp :=
  let c := overlay n k.cells rec
  if c = k.cells then k else { cells := c, src := some (src, index, gen) }

/-- Step 3 in carousel mode: the record of the slot in force at `m`, or its substitute (R204, R258). -/
def State.laySlot (s : State) (bank : CrsBank) (b m : Tick) (k : Comp) : Comp :=
  let i := (bank.slotInForce b m).1
  match s.substitute? i with
  | some r => k.lay s.nCells 2 r (s.recGen r) (s.recCells r)
  | none =>
    let r := slotRec (Sparse.get 0 i bank.words)
    k.lay s.nCells 1 r (s.recGen r) (s.recCells r)

/-- Step 4: the alternates and home records of the cases taken in this tick, in ascending case number. -/
def State.layCases (s : State) (k : Comp) : Comp :=
  let b := s.prt.act
  s.prt.taken.foldl (fun (k : Comp) (e : Nat × Nat) =>
    if e.2 = 0 ∧ b.altEn e.1 then k.lay s.nCells 2 (b.altRec e.1) (s.recGen (b.altRec e.1)) (s.recCells (b.altRec e.1))
    else if e.2 = 1 ∧ b.homeEn e.1 then
      k.lay s.nCells 2 (b.homeRec e.1) (s.recGen (b.homeRec e.1)) (s.recCells (b.homeRec e.1))
    else k) k

/-- A STUCK_CONFLICT of cell `c` at boundary `m` (R48, R204). -/
def State.stuckConflict (s : State) (c : Nat) (m : Tick) : State :=
  let s := s.setFld Reg.RCE_STUCK_CELL 0 14 c
  let s := s.bump Reg.RCE_STUCK_CELL 16 15 1
  let s := s.setBit Reg.RCE_STUCK_CELL 31 true
  (s.setReg Reg.RCE_STUCK_TICK (m.setWidth 32)).raise pRCE 3

/-- Step 5: a frozen cell keeps the code it held at the freeze. -/
def State.restoreFrozen (s : State) (m : Tick) (k : Comp) : State × Comp :=
  s.slots.foldl (fun (r : State × Comp) e =>
    match e.2 with
    | .cell c =>
      let x := r.1.loop e.1
      if x.eff ≠ .frozen then r
      else
        let st := if crossed (codeOf r.2.cells c) = crossed x.stuck then r.1 else r.1.stuckConflict c m
        (st, { r.2 with cells := Sparse.put 0 c x.stuck r.2.cells })
    | _ => r) (s, k)

/-- The safety net takes effect at `m`: a request for a boundary up to `m` is open and the net is armed (R192). -/
def State.safetyAtCompose (s : State) (m : Tick) : Bool :=
  s.bit Reg.RCE_STAT 1 && s.rce.safeAt.any fun x => decide (x.toNat ≤ m.toNat)

/-- The EFEs that carry a cell for which two states differ. -/
def State.efesChanged (s : State) (a b : Sparse Nat) : Nat :=
  s.slots.foldl (fun (m : Nat) e =>
    match e.2 with
    | .cell c => if codeOf a c = codeOf b c then m else m ||| 1 <<< efeOf e.1
    | _ => m) 0

/-- Cycle O + 50 of the present tick: the code of every cell for boundary t + 2 (R204). -/
def State.composeFabric (s : State) : State :=
  let m := s.now + 2
  let n := s.nCells
  let from' := s.rce.s1
  let safety := s.safetyAtCompose m
  let halted := s.safetyBy m
  let k0 : Comp := { cells := from', src := none }
  let entry := s.rce.queue.find? (·.b == m)
  let bank := s.crsAt m
  let k1 :=
    if safety then (match s.rce.armed with | some a => k0.lay n 3 0 s.rce.armedGen a | none => k0)
    else match bank with
    | some (b, base) => s.laySlot b base m k0
    | none =>
      let k := match entry with
        | some e => if halted then k0 else k0.lay n 0 e.index e.gen e.cells
        | none => k0
      s.layCases k
  let r := s.restoreFrozen m k1
  let s := r.1
  let new := r.2.cells
  let diff := (List.range n).filter fun c => codeOf from' c != codeOf new c
  let sw := (diff.filter fun c => crossed (codeOf from' c) != crossed (codeOf new c)).length
  let comp : Compo :=
    { b := m, src := r.2.src, switched := sw, parked := diff.length - sw, changed := !diff.isEmpty
      efes := s.efesChanged from' new, safety := safety
      applied := entry.isSome && !safety && !halted && bank.isNone }
  { s with rce := { s.rce with
      s2 := new, compos := s.rce.compos ++ [comp]
      safeAt := s.rce.safeAt.filter fun x => decide (m.toNat < x.toNat) } }

/-- The composition of the present tick is made. -/
def State.markComposed (s : State) : State := { s with rce := { s.rce with composed := true } }

/-- What a composition brings at its boundary (R192, R206): SAFE and the halt, the queue entry, and the RCE registers. -/
def State.compoTakes (s : State) (k : Compo) : State :=
  let s := if k.safety then
      (((s.setBit Reg.RCE_STAT 0 true).raise pRCE 5).cancelApplies k.b).crsHalt
    else s
  let s := { s with rce := { s.rce with queue := s.rce.queue.filter (·.b != k.b) } }
  let s := s.raiseIf k.applied pRCE 0
  if !k.changed then s
  else
    let s := s.setReg64 Reg.RCE_CUR_TICK k.b.toNat
    let s := match k.src with
      | some (src, index, gen) =>
        ((s.setFld Reg.RCE_STAT 14 2 src).setFld Reg.RCE_STAT 16 13 index).setRegN Reg.RCE_CUR_GEN gen
      | none => s
    let s := s.setRegN Reg.RCE_CHANGED (k.parked % 65536 * 65536 + k.switched % 65536)
    let s := s.setFld Reg.RCE_LAG 0 16 0
    let present := (setBits 16 k.efes).filter fun e => !s.absent e
    { s with rce := { s.rce with lagWatch := maskOf present } }

/-- Boundary `n` = TCK_NOW: S moves on, and the composition made for it takes effect (R204, R206). -/
def State.fabricBoundary (s : State) : State :=
  let n := s.now
  let nxt := if s.rce.composed then s.rce.s2 else s.rce.s1
  let s := { s with rce := { s.rce with s0 := s.rce.s1, s1 := nxt, s2 := nxt, composed := false, lagWatch := 0 } }
  let (due, keep) := s.rce.compos.partition fun k => decide (k.b.toNat ≤ n.toNat)
  let s := { s with rce := { s.rce with compos := keep } }
  due.foldl State.compoTakes s

/-- Cycle O of tick a: an EFE whose cells changed lags when its frame is lost or reports HOLD (R207). -/
def State.checkLag (s : State) : State :=
  let l := (setBits 16 s.rce.lagWatch).filter fun e =>
    let p := s.port e
    p.gotTick != some s.now || p.applied == 0
  let s := { s with rce := { s.rce with lagWatch := 0 } }
  if l.isEmpty then s
  else
    let s := s.setFld Reg.RCE_LAG 0 16 (maskOf l)
    (s.bump Reg.RCE_LAG 16 16 l.length).raise pRCE 4

end Sys2Proof.Machine
end

