-- ==== Sys2Proof/Machine/Window.lean ====
section
/-! DEFINITION. The compute window (R54, R62, R118 to R149): what the loop engines inspect at cycle O, the updates of a tick, and
the drives fixed for its frames. -/

namespace Sys2Proof.Machine

/-- The sense word in use of channel `ch` of a slot (R59). -/
def State.senseW (s : State) (slot ch : Nat) : Int := sx 16 (Sparse.get 0 (4 * slot + ch) s.sense)

/-- The channel was carried in the received frame of the present tick (R59, R101). -/
def State.carried (s : State) (slot ch : Nat) : Bool :=
  let p := s.port (efeOf slot)
  p.gotTick == some s.now && (!p.alt || (if s.now.toNat % 2 = 0 then decide (ch < 2) else decide (2 ≤ ch)))

/-- The word arrived as 0x8000 in the present tick (R49). -/
def State.badWord (s : State) (slot ch : Nat) : Bool := s.bad.contains (4 * slot + ch)

/-- The corrected taps of a cell from the words in use (R124). -/
def State.taps (s : State) (slot : Nat) : Nat × Nat :=
  let r := s.calRec slot
  correctTaps r.rk r.ts (s.senseW slot 0) (s.senseW slot 1)

/-- Heater power of a cell from the words in use (R122). -/
def State.power (s : State) (slot : Nat) : Int := heaterPower (s.senseW slot 2) (s.senseW slot 3)

/-! ### Cycle O -/

/-- The tick's sample joins a cell's window history (R128 to R130). -/
def State.pushSample (s : State) (slot c : Nat) : State :=
  let t := s.taps slot
  let ok := s.carried slot 0 && !s.badWord slot 0 && !s.badWord slot 1 && decide (t.1 + t.2 ≥ lightFloor)
  let x := s.loop slot
  let smp : Sample :=
    { tick := s.now, ok := ok, lam := if t.1 + t.2 ≥ lightFloor then leakage t else 0, alt := s.efeAlt (efeOf slot)
      code := s.code0 c, clip := x.clips.contains s.now }
  s.setLoop slot fun x => { x with
    hist := (smp :: x.hist).take 70, clips := x.clips.filter fun b => decide (s.now.toNat < b.toNat) }

/-- Every cell's sample. -/
def State.pushSamples (s : State) : State :=
  s.slots.foldl (fun (s : State) e => match e.2 with | .cell c => s.pushSample e.1 c | _ => s) s

/-- The outer entry in force for loop `l`, or the one last in force; 0 for none (R147). -/
def State.outerEntry (s : State) (l : Nat) : Nat := Sparse.get 0 l s.lpl.lastOuter

/-- The channels a loop inspects in the present tick (R147). -/
def State.inspected (s : State) (l : Nat) : List Nat :=
  match s.loopKind l with
  | 1 => (if s.outerEntry l ≠ 0 ∧ sampleTick (s.efeAlt (efeOf l)) s.now then [0, 1] else []) ++ [2, 3]
  | 2 => [1]
  | 3 => [0]
  | _ => []

/-- Loop `l` is judged from the words of the present tick (R147). -/
def State.judgeLoop (s : State) (l : Nat) : State :=
  if s.loopKind l = 0 ∨ (s.loop l).eff = .frozen then s
  else
    let fresh := (s.inspected l).filter (s.carried l)
    if fresh.isEmpty then s
    else if fresh.any (s.badWord l) then s.loopFault l
    else if (s.loop l).fcnt = 0 then s
    else s.setLoop l fun x => { x with fcnt := 0 }

/-- Every loop is judged. -/
def State.judgeLoops (s : State) : State := s.slots.foldl (fun (s : State) e => s.judgeLoop e.1) s

/-- The effective state of loop `l` under the hold causes of the present tick, those that have cleared since its boundary among
them (R143). -/
def State.settleHold (s : State) (l : Nat) : State :=
  let x := s.loop l
  let t := s.now
  if s.loopKind l = 0 ∨ x.eff = .frozen then s
  else if s.holdCauses l ≠ 0 ∨ x.heldAt = some t then
    s.setLoop l fun x =>
      let y := if x.eff = .ramp ∨ x.eff = .run then { x with prior := some x.eff } else x
      { y.setEff .hold t with heldAt := some t }
  else match x.heldAt with
  | none => s
  | some _ =>
    let kind := s.loopKind l
    let cross := s.crossInForce l
    s.setLoop l fun x =>
      let y : Loop := { x with heldAt := none, prior := none }
      match x.prior with
      | some e => y.setEff e t
      | none => y.go kind cross t

/-- Every loop's hold causes at cycle O. -/
def State.settleHolds (s : State) : State := s.slots.foldl (fun (s : State) e => s.settleHold e.1) s

/-- Hold causes present at the boundary are remembered: a loop leaves HOLD in the tick after the one in which the last clears. -/
def State.markHeld (s : State) : State :=
  s.slots.foldl (fun (s : State) e =>
    if e.2.kind ≠ 0 ∧ s.holdCauses e.1 ≠ 0 then s.setLoop e.1 fun x => { x with heldAt := some s.now } else s) s

/-- The VOA target of IPp among the entries of a slot (R140): the target field of the qualifying entry with the lowest q. -/
def voaTargetOf? (es : List Nat) (p : Nat) : Option Nat :=
  (es.find? fun e => ctxValid e && !ctxDark e && ctxInput e == p).map ctxTarget

/-- The VOA target of IPp in carousel slot `sl`. -/
def State.voaTargetIn? (s : State) (sl p : Nat) : Option Nat := voaTargetOf? (s.ctxSlot sl) p

/-- The targets of all VOA loops at cycle O (R140, R243). -/
def State.readTargets (s : State) : State :=
  let es := s.ctxSlot s.curSlot
  let l := s.slots.filterMap fun e =>
    match e.2 with | .voa p => (voaTargetOf? es p).map fun t => (p, t) | _ => none
  { s with prf := { s.prf with targets := l } }

/-! ### The updates of a tick -/

/-- The condition of an entry holds in the present tick and its loop is in RAMP or RUN: it is issued (R166). -/
def State.issued (s : State) (w : Nat) : Bool :=
  let l := eLoop w
  let x := s.loop l
  (x.eff == .ramp || x.eff == .run)
    && (eSub w != 1 || outerDue (s.efeAlt (efeOf l)) (eM w) (ePhase w) s.now)

/-- The target and measured value of a direct loop; `none` when a VOA's input is unconnected (R140, R141). -/
def State.directIn? (s : State) (l : Nat) : Option (Int × Int) :=
  match s.elem? l with
  | some (.voa p) => (s.prf.targets.find? (·.1 == p)).map fun e => (sx 16 e.2, s.senseW l 1)
  | _ => some (sx 16 (s.loop l).target, s.senseW l 0)

/-- The entries an engine completes in the present tick (R62). -/
def State.completes (s : State) (stalls : List (Nat × Nat)) (e : Nat) : List Nat :=
  let l := (s.listOf e).filter s.issued
  match stalls.find? (·.1 == e) with
  | some c => l.take c.2
  | none => l

/-- The engine leaves updates unfinished. -/
def State.overran (s : State) (stalls : List (Nat × Nat)) (e : Nat) : Bool :=
  match stalls.find? (·.1 == e) with
  | some c => decide (c.2 < ((s.listOf e).filter s.issued).length)
  | none => false

/-- A performed inner or direct update initialises a loop with VALID = 0 (R145). -/
def State.initLoop (s : State) (l : Nat) : State :=
  let nested := s.loopKind l == 1
  let h := s.power l
  s.setLoop l fun x =>
    if x.valid then x
    else if nested then { x with
      inner := initInner x.inner x.lastB, bar := initOuter x.bar h, cross := initOuter x.cross h, valid := true }
    else { x with inner := initInner x.inner x.lastA, valid := true }

/-- The magnitude of an error, |−0x8000| taken as 0x7FFF (R282). -/
def errMag (e : Int) : Nat := min 0x7FFF e.natAbs

/-- Loop statistics of a performed inner or direct update (R282). -/
def State.noteInner (s : State) (l : Nat) (c : Sub) : State :=
  if !s.mea.on then s else
  let x := Sparse.get {} l s.mea.loop
  let y : LoopStat := { x with errMax := max x.errMax (errMag c.ePrev), satCnt := satAdd 0xFFFF x.satCnt (b2n c.outSat) }
  { s with mea := { s.mea with loop := Sparse.put {} l y s.mea.loop } }

/-- Loop statistics of a performed outer update. -/
def State.noteOuter (s : State) (l : Nat) (y : Int) : State :=
  if !s.mea.on then s else
  let x := Sparse.get {} l s.mea.loop
  { s with mea := { s.mea with loop := Sparse.put {} l { x with outerMax := max x.outerMax (errMag y) } s.mea.loop } }

/-- SATRUN after a performed inner or direct update, and the saturation watch of engine `e` (R157, R164). -/
def State.satWatch (s : State) (e l : Nat) (sat : Bool) : State :=
  let lim := s.ffld Reg.PRF_SATWD 0 16
  let n := if sat then satAdd 0xFFFF (s.loop l).satRun 1 else 0
  let hit := sat && lim != 0 && n == lim && !(s.loop l).watched
  let s := s.setLoop l fun x => { x with satRun := n, watched := if sat then x.watched || hit else false }
  if hit then (s.setRegN (atInst Reg.LEN_SATWD_SLOT e) (2 ^ 31 + l)).raise (pLEN e) 2 else s

/-- An inner update (R136), with the outer contexts of `o` at the opening of the window (R123). -/
def State.innerUpdate (s o : State) (e l : Nat) : State :=
  let x := o.loop l
  let r := if o.crossInForce l then x.cross.u else x.bar.u
  let c := performUpdate (o.prof x.profB) x.inner (x.eff == .ramp) r (o.power l) o.now.toNat
  let s := s.setLoop l fun x => { x with inner := c, lastB := driveCode c.u }
  (s.noteInner l c).satWatch e l c.outSat

/-- A direct update (R140, R141). -/
def State.directUpdate (s o : State) (e l : Nat) : State :=
  match o.directIn? l with
  | none => s.setLoop l fun x => { x with inner := { x.inner with skip := true } }
  | some (r, y) =>
    let x := o.loop l
    let c := performUpdate (o.prof x.profA) x.inner (x.eff == .ramp) r y o.now.toNat
    let s := s.setLoop l fun x => { x with inner := c, lastA := driveCode c.u }
    (s.noteInner l c).satWatch e l c.outSat

/-- The window of a scheduled outer update: its context and demodulated error when it is valid (R129, R130). A window that ends at a
tick m whose boundary brings other calibration values is demodulated with the values each sample was taken under: R130 keeps it
valid, and R302 says that no window mixes two values (DESIGN CHOICE). -/
def outerWindow (x : Loop) (alt : Bool) (m : Nat) (n : Tick) : Option (Bool × Int) :=
  let w := outerW alt m
  let at' (k : Nat) : Option Sample := x.hist.find? fun h => h.tick + BitVec.ofNat 64 k == n
  match at' 1 with
  | none => none
  | some h1 =>
    let state := h1.code
    let stateOk := (state == cBAR || state == cCROSS)
      && (List.range w).all fun i => match at' (i + 1) with | some h => h.code == state | none => false
    let senseOk := (List.range (w + 3)).all fun i => match at' i with | some h => h.alt == alt | none => false
    let ks := (List.range w).filterMap fun i => (at' i).bind fun h => if sampleTick alt h.tick then some h else none
    if stateOk && senseOk && ks.length == m && ks.all (·.ok) then
      some (state == cCROSS, demod m ((ks.map fun h => outerRef alt h.tick * h.lam).foldl (· + ·) 0))
    else none

/-- Some drive A seen by a sample tick of the window was clipped (R127). -/
def windowClipped (x : Loop) (alt : Bool) (m : Nat) (n : Tick) : Bool :=
  (List.range (outerW alt m)).any fun i =>
    let k := n - BitVec.ofNat 64 i
    sampleTick alt k && x.hist.any fun h => h.tick + 1 == k && h.clip

/-- A scheduled outer update of a loop in RAMP or RUN (R127 to R130, R137). -/
def State.outerUpdate (s o : State) (e w : Nat) : State :=
  let l := eLoop w
  let x := o.loop l
  let alt := o.efeAlt (efeOf l)
  let clip := windowClipped x alt (eM w) o.now
  let setSub (cross : Bool) (f : Sub → Sub) (s : State) : State :=
    s.setLoop l fun x => if cross then { x with cross := f x.cross } else { x with bar := f x.bar }
  match outerWindow x alt (eM w) o.now with
  | none =>
    (setSub (o.crossInForce l) (fun c => { c with skip := true, dithClip := clip }) s).count (atInst Reg.LEN_SKIP_CNT e)
  | some (cross, y) =>
    let p := o.prof x.profA
    let s := setSub cross (fun c =>
      { performUpdate p (if cross then x.cross else x.bar) (x.eff == .ramp) 0 y o.now.toNat with
        dithClip := clip, satAtSwap := c.satAtSwap }) s
    let s := s.noteOuter l y
    if clip then (s.count (atInst Reg.LEN_DCLIP_CNT e)).raise (pLEN e) 3 else s

/-- A completed entry of engine `e`. -/
def State.update (s o : State) (e w : Nat) : State :=
  if eSub w = 0 then s.innerUpdate o e (eLoop w)
  else if eSub w = 1 then s.outerUpdate o e w
  else s.directUpdate o e (eLoop w)

/-- The engines in service. -/
def State.engines (s : State) : List Nat := (List.range 32).filter fun e => !bitAt s.retMask e

/-- The loops an engine's completed inner and direct entries perform an update of. -/
def State.performs (s : State) (w : Nat) : Bool := eSub w == 0 || (eSub w == 2 && (s.directIn? (eLoop w)).isSome)

/-- Engine `e` issues nothing in the present tick: a soft reset of its page (R453). -/
def State.engineQuiet (s : State) (e : Nat) : Bool :=
  s.lpl.quiet.any fun x => x.1 == e && (match x.2 with | some w => decide (w.toNat < s.now.toNat) | none => true)

/-- An outer update of engine `e` scheduled in the present tick for a loop in OFF or HOLD is skipped, which sets SKIP and nothing
else (R130). -/
def State.skipIdle (s : State) (e : Nat) : State :=
  (s.listOf e).foldl (fun (s : State) w =>
    let l := eLoop w
    let x := s.loop l
    if eSub w = 1 ∧ (x.eff = .off ∨ x.eff = .hold) ∧ outerDue (s.efeAlt (efeOf l)) (eM w) (ePhase w) s.now then
      let cross := s.crossInForce l
      s.setLoop l fun x =>
        if cross then { x with cross := { x.cross with skip := true } } else { x with bar := { x.bar with skip := true } }
    else s) s

/-- The loops in each effective state are counted (R160). -/
def State.countStates (s : State) : State :=
  { s with prf := { s.prf with counts := [LoopState.ramp, .run, .off, .hold, .frozen].map s.effCount } }

/-- All updates of the present tick, from the contexts at the opening of the window (R123, R145), and LEN_LOAD. -/
def State.runUpdates (s : State) (stalls : List (Nat × Nat)) : State :=
  let work := s.engines.map fun e =>
    if s.engineQuiet e then (e, [], 0) else (e, s.completes stalls e, ((s.listOf e).filter s.issued).length)
  let o := work.foldl (fun (o : State) k =>
    k.2.1.foldl (fun (o : State) w => if s.performs w then o.initLoop (eLoop w) else o) o) s
  let t := work.foldl (fun (t : State) k => k.2.1.foldl (fun (t : State) w => t.update o k.1 w) t) o
  let t := work.foldl (fun (t : State) k => if s.engineQuiet k.1 then t else t.skipIdle k.1) t
  let t := work.foldl (fun (t : State) k =>
    let r := atInst Reg.LEN_LOAD k.1
    (t.setFld r 0 16 k.2.2).setFld r 16 16 (max (t.fld r 16 16) k.2.2)) t
  let t := (setBits 32 s.retMask).foldl (fun (t : State) e => t.setFld (atInst Reg.LEN_LOAD e) 0 16 0) t
  { t with
    prf := { t.prf with stalls := stalls.filter fun x => !s.engineQuiet x.1 }
    lpl := { t.lpl with quiet := t.lpl.quiet.filter fun x => match x.2 with | some w => decide (s.now.toNat ≤ w.toNat) | none => false } }

/-! ### The drives of the tick's frames (R48, R127, R142) -/

/-- The calibration values that govern a slot at boundary `m` (R302). -/
def State.calAt (s : State) (slot : Nat) (m : Tick) : CalRec :=
  match (s.cal.next.filter fun e => e.2.1 == slot && decide (e.1.toNat ≤ m.toNat)).getLast? with
  | some e => e.2.2
  | none => s.calRec slot

/-- An element is live at boundary `m` with state `code` of its cell (R299). -/
def State.calLive (s : State) (e : Elem) (m : Tick) (code : Nat → Nat) : Bool :=
  match e with
  | .cell c => code c == cBAR || code c == cCROSS
  | .voa p => (s.voaTargetIn? (match s.crsAt m with | some (b, base) => (b.slotInForce base m).1 | none => 0) p).isSome
  | .mon _ _ => false

/-- A live element is not swept in carousel mode, nor in persistent mode while CAL_INTRUSIVE is 0 (R299). -/
def State.calPaused (s : State) (e : Elem) (m : Tick) (code : Nat → Nat) : Bool :=
  ((s.crsAt m).isSome || !s.bit Reg.CAL_INTRUSIVE 0) && s.calLive e m code

/-- What the calibration engine supplies at boundary t + 2 to a slot of the pass: drive A, unless R127 gives it, and
drive B (R293): the sweep's codes, or the codes saved while the element is not swept. -/
def State.calDrive? (s : State) (slot : Nat) : Option (Option Nat × Nat) :=
  match s.cal.pass with
  | none => none
  | some p => (p.elems.find? fun e => e.slot == slot && e.res.isNone).map fun e =>
    if e.active && !s.bit Reg.CAL_STAT 1 && !s.calPaused e.elem (s.now + 2) s.code2 then (some e.a, e.b)
    else (match e.elem with | .cell _ => none | _ => some e.aStart, e.bStart)

/-- The calibrated code of a state (R43). -/
def CalRec.codeFor (r : CalRec) (code : Nat) : Nat := if code = cCROSS then r.aCross else r.aBar

/-- Drive A of a cell at boundary t + 2, and whether the dither clipped (R127). -/
def State.cellDrive (s : State) (slot c : Nat) : Nat × Bool :=
  let m := s.now + 2
  let x := s.loop slot
  let r := s.calAt slot m
  if x.eff = .frozen then (r.codeFor x.stuck, false)
  else match (s.calDrive? slot).bind (·.1) with
  | some a => (a, false)
  | none =>
    let code := s.code2 c
    let cal := r.codeFor code
    if code = cPARK then (cal, false)
    else
      let a : Int := cal + dithSgn (s.efeAlt (efeOf slot)) m * (s.prof x.profA).dithAmp
      if a < 0 then (0, true) else if a > 0xFFFF then (0xFFFF, true) else (a.toNat, false)

/-- The drives of one attached slot (R33, R142): the loop's LAST codes follow. -/
def State.slotDrive (s : State) (slot : Nat) (e : Elem) : State :=
  let x := s.loop slot
  let put (s : State) (a b : Nat) : State :=
    let s := s.setLoop slot fun x => { x with lastA := a, lastB := b }
    { s with drives := Sparse.put 0 slot (a + 65536 * b) s.drives }
  match e with
  | .cell c =>
    let (a, clip) := s.cellDrive slot c
    let b := match s.calDrive? slot with
      | some d => if x.eff = .frozen then x.lastB else d.2
      | none => if x.eff = .off then x.parkB else x.lastB
    let s := put s a b
    if clip then s.setLoop slot fun x => { x with clips := (s.now + 2) :: x.clips } else s
  | .mon _ 1 | .voa _ =>
    match (s.calDrive? slot).bind (·.1) with
    | some a => put s a 0
    | none => put s (if x.eff = .off then x.parkA else x.lastA) 0
  | _ => s

/-- The drives of every attached slot. -/
def State.fixDrives (s : State) : State := s.slots.foldl (fun (s : State) e => s.slotDrive e.1 e.2) s

/-! ### The close of the window (R62, R63, R178) -/

/-- Bookkeeping of the window of tick `n` for one engine: overruns, engine faults and corrections. -/
def State.closeEngine (s : State) (stalled : Bool) (fault : Bool) (corr e : Nat) : State :=
  if bitAt s.retMask e then s
  else
    let s := (s.bump (atInst Reg.LEN_EFAULT_CNT e) 16 16 corr).bump Reg.FLT_ECC 0 16 corr
    let s := { s with lpl := { s.lpl with
      ovr := Sparse.put 0 e (if stalled then Sparse.get 0 e s.lpl.ovr + 1 else 0) s.lpl.ovr } }
    let s := (s.raiseIf stalled (pLEN e) 4).raiseIf (corr != 0) (pLEN e) 7
    let s := if stalled && !fault && decide (Sparse.get 0 e s.lpl.ovr < 3) then s.bump (cReg (pLEN e) OFF_FAULT_CNT) 0 16 1 else s
    if fault then ((s.bump (atInst Reg.LEN_EFAULT_CNT e) 0 16 1).chanFault (pLEN e) 0 0x03 0).raise (pLEN e) 6
    else s.chanOk (pLEN e) 0

/-- TCK_OVERRUN_CNT, TCK_OVR_MASK and TCK_OVR_TICK of an overrun (R62). -/
def State.noteOverrun (s : State) (mask : Nat) (n : Tick) : State :=
  if mask = 0 then s
  else
    let s := s.count Reg.TCK_OVERRUN_CNT
    let s := s.setRegN Reg.TCK_OVR_MASK mask
    (s.setReg64 Reg.TCK_OVR_TICK n.toNat).raise 0x004 0

/-- Loops that arrived in the tick that ends enter RUN at the boundary (R146). Where both contexts of a nested loop were updated in
one window, its arrival is judged with ARRIVED and RINIT of the outer one as that update leaves them (DESIGN CHOICE). -/
def State.arrive (s : State) : State :=
  let n := s.now
  s.slots.foldl (fun (s : State) e =>
    let l := e.1
    let x := s.loop l
    let upd := x.inner.arrived && x.inner.tick == n.toNat % 2 ^ 32 && x.valid
    let out := if s.crossInForce l then x.cross else x.bar
    if x.eff = .ramp ∧ upd ∧ (s.loopKind l ≠ 1 ∨ (out.arrived && !out.rinit)) then
      s.setLoop l fun x => x.setEff .run (n + 1)
    else s) s

/-- A nested loop in RUN whose cell changed to a state whose outer context was never updated returns to RAMP (R144). A loop held
from RUN across such a change returns to RAMP when it leaves HOLD, where R143 says that it returns to the state it had
(DESIGN CHOICE). -/
def State.contextChange (s : State) (old : Sparse Nat) : State :=
  s.slots.foldl (fun (s : State) e =>
    match e.2 with
    | .cell c =>
      if codeOf old c = s.code0 c then s
      else
        let cross := s.code0 c == cCROSS
        s.setLoop e.1 fun x =>
          if !(if cross then x.cross.rinit else x.bar.rinit) then x
          else if x.eff = .run then x.setEff .ramp s.now
          else if x.prior = some .run then { x with prior := some .ramp }
          else x
    | _ => s) s

end Sys2Proof.Machine
end

