-- ==== Sys2Proof/Machine/Fab.lean ====
section
/-! DEFINITION. Loading a topology descriptor and an Mbovik image (R41, R42, R194 to R196, R269). The bytes of a source on the PCIe
bus come with the command; those of an internal source are read from memory. -/

namespace Sys2Proof.Machine

/-! ### Words of the memories T1 to T5 -/

/-- The word at an internal address of T1 to T5: loop contexts are computed, the repacker's working space reads 0 (R156, R169). -/
def State.memWord (s : State) (a : Nat) : Word :=
  if 0x12820000 ≤ a ∧ a < 0x129A0000 then s.ctxWord ((a - 0x12820000) / 128) (a % 128 / 4 * 4)
  else if 0x12A38000 ≤ a ∧ a < 0x12C00000 then 0
  else BitVec.ofNat 32 (s.loadN (a / 4 * 4) 4)

/-- One byte of T1 to T5. -/
def State.memByte (s : State) (a : Nat) : Byte :=
  if 0x12820000 ≤ a ∧ a < 0x129A0000 then BitVec.ofNat 8 ((s.memWord a).toNat / 256 ^ (a % 4))
  else if 0x12A38000 ≤ a ∧ a < 0x12C00000 then 0
  else s.byte a

/-! ### The topology descriptor (R41, R42, R191, R264) -/

/-- An element's slot sends drives that follow a loop or the fabric state: a cell, a VOA or an actuated MON element (R33, R34). -/
def Elem.drives : Elem → Bool
  | .cell _ | .voa _ | .mon _ 1 => true
  | .mon _ _ => false

/-- The drives kept when the attached slots change: every other slot sends 0x0000 in both (R34, R38). -/
def State.keepDrives (s : State) : State :=
  { s with drives := s.drives.filter fun d => s.slots.any fun e => e.1 == d.1 && e.2.drives }

/-- FAB_IN_UNAVAIL as one number, bit p for IPp (R212). -/
def State.unavailMask (s : State) : Nat :=
  maskOf (s.slots.filterMap fun e => match e.2 with | .voa p => if s.absent (efeOf e.1) then some p else none | _ => none)

/-- The ports under a descriptor that comes into force: one outside EFE_MASK is disabled (R42), and one named trains unless
STRAP_LINKHOLD holds it (R519, R521). -/
def State.topoPorts (s : State) (t : Topo) : State :=
  (List.range 16).foldl (fun (s : State) n =>
    if bitAt t.efeMask n then
      (if s.portState n = stDisabled then (if s.bit Reg.GLB_STRAP 2 then s.setAbsent n true else s.startAttempt n) else s)
    else (((s.setPortState n stDisabled).setLanesUp n 0).trainRes n 0xB 0).setAbsent n false) s

/-- A descriptor comes into force; FAB INT_STAT bit 3 when FAB_IN_UNAVAIL changes with it (R213). -/
def State.installTopo (s : State) (t : Topo) (l : List Byte) : State :=
  let was := s.unavailMask
  let s := ({ s with topo := some t, topoBytes := l.take (leAt l 32 4) }).keepDrives
  let s := s.setRegN Reg.FAB_TOPO (t.efeMask * 65536 + b2n t.explicitAttach * 128 + b2n t.explicitWiring * 64
    + t.extra * 16 + t.log2n)
  let s := s.setRegN Reg.FAB_TOPO_ID t.topoId
  let s := s.setBit Reg.FAB_STAT 0 true
  let s := s.defaultSafety.clearLols
  let s := ({ s with mea := { s.mea with los := [] } }).topoPorts t
  s.raiseIf (s.unavailMask != was) pFAB 3

/-- The result of reading and checking a descriptor of which `data` came, with a read error at `busAt` (R41). -/
def State.descResult (s : State) (data : List Byte) (busAt : Option Nat) : DescRes × Option Topo :=
  let err (n : Nat) : Bool := match busAt with | some k => decide (k < n) | none => false
  if s.topoLocked then ({ code := 1 }, none)
  else if err 64 then ({ code := 9 }, none)
  else if !magicOk data then ({ code := 2 }, none)
  else if err (leAt data 0x20 4) then ({ code := 9 }, none)
  else checkDesc data

/-- FAB_CTRL.LOAD_DESC; ignored while a load runs. -/
def State.loadDesc (s : State) : State :=
  if s.rce.descBusy ∨ s.rce.imgBusy then s
  else ({ s with rce := { s.rce with descBusy := true } }).setBit Reg.FAB_STAT 2 true

/-- A descriptor load ends, having read `data` with a read error at byte `busAt`. -/
def State.descDone (s : State) (data : List Byte) (busAt : Option Nat) : State :=
  if !s.rce.descBusy then s else
  let r := s.descResult data busAt
  let s := ({ s with rce := { s.rce with descBusy := false } }).setBit Reg.FAB_STAT 2 false
  let s := s.setRegN Reg.FAB_DESC_RES (r.1.code + 16 * r.1.table + 65536 * r.1.entry)
  let s := match r.2 with | some t => s.installTopo t data | none => s
  s.raise pFAB 0

/-! ### Images (R194 to R196, R269) -/

/-- A section table entry. -/
structure ImgSec where
  type : Nat
  flags : Nat
  ofs : Nat
  len : Nat
  crc : Nat
  deriving DecidableEq, Repr

/-- The section table. -/
def imgSections (l : List Byte) : List ImgSec :=
  (List.range (leAt l 6 2)).map fun i =>
    let o := 0x40 + 16 * i
    ⟨leAt l o 2, leAt l (o + 2) 2, leAt l (o + 4) 4, leAt l (o + 8) 4, leAt l (o + 12) 4⟩

/-- The header's result: 0, or BAD_MAGIC, BAD_LAYOUT, BAD_HEADER (R194 to R196). -/
def imgHeader (l : List Byte) (maxLen : Nat) : Nat :=
  let n := leAt l 6 2
  let len := leAt l 0x10 4
  if leAt l 0 4 ≠ 0x4D49424D ∨ leAt l 4 2 ≠ 1 then 1
  else if len > maxLen ∨ n = 0 ∨ n > 1024 then 3
  else if crcSkip (l.take (0x40 + 16 * n)) 0x3C ≠ leAt l 0x3C 4 then 2
  else
    let t := imgSections l
    let ok (e : ImgSec) : Bool := e.ofs % 64 == 0 && decide (0x40 + 16 * n ≤ e.ofs) && decide (e.ofs + e.len ≤ len)
      && decide (e.flags < 2)
    let clash := t.zipIdx.any fun a => t.zipIdx.any fun b => decide (a.2 < b.2) && !apart a.1.ofs a.1.len b.1.ofs b.1.len
    let needs := t.any fun e => e.type == 2 || e.type == 3 || e.type == 8
    if !t.all ok ∨ clash ∨ (leAt l 8 4 = 0 ∧ needs) then 3 else 0

/-- SLEN, and the section's own header, fit its type (BAD_SECTION). -/
def imgSecOk (e : ImgSec) (b : List Byte) : Bool :=
  match e.type with
  | 1 => e.len == leAt b 0x20 4
  | 2 => e.len % 4096 == 0
  | 3 => decide (e.len ≤ 262144)
  | 4 => e.len == 32768
  | 5 => e.len == 16 + 4 * leAt b 0 2 && (sliceB b 2 14).all (· == 0)
  | 6 => e.len == 16 + 8192 * leAt b 2 2 && decide (leAt b 0 2 + leAt b 2 2 ≤ 1024) && (sliceB b 4 12).all (· == 0)
  | 7 => e.len == 16 + 16384 + 4 * leAt b 0 2 && decide (leAt b 0 2 ≤ 16384) && (sliceB b 2 14).all (· == 0)
  | _ => e.len == 2688

/-- The progress of a load: the state, records written, sections completed, and the result with its detail once it has failed. -/
structure ImgRun where
  s : State
  recs : Nat := 0
  /-- Record 0 has been written. -/
  rec0 : Bool := false
  secs : Nat := 0
  res : Option (Nat × Nat) := none

/-- One record of a STATE_RECORDS section (R196). -/
def ImgRun.record (r : ImgRun) (b : List Byte) : ImgRun :=
  if r.res.isSome then r else
  let i := leAt b 4 2
  let c := r.s.checkRecBytes b i
  let code := if i < 8192 ∨ c = 7 ∨ c = 8 then c else 9
  if code ≠ 0 then { r with res := some (6, code) }
  else if r.s.storeRefused 5 i then { r with res := some (7, 0) }
  else { r with s := r.s.setBytes (recAddr i) (b.take 4096), recs := r.recs + 1, rec0 := r.rec0 || i == 0 }

/-- 32-bit words of a list of bytes. -/
def words32 (l : List Byte) : List Nat := (List.range (l.length / 4)).map fun i => leAt l (4 * i) 4

/-- The words of a list as a sparse table. -/
def sparseOf (l : List Nat) : Sparse Nat := l.zipIdx.foldl (fun (m : Sparse Nat) e => Sparse.put 0 e.2 e.1 m) []

/-- The refusal of a section's destination: its own result code, when it does not accept the write now. -/
def State.imgTarget (s : State) (type : Nat) (b : List Byte) : Option Nat :=
  match type with
  | 1 => let c := (s.descResult b none).1.code; if c = 0 then none else some c
  | 3 => if s.bit Reg.LPL_STAT 9 then some 4 else none
  | 4 => if s.bit Reg.PRF_STAT 1 ∨ (s.pendingOn pPRF ∧ s.bit Reg.PRF_CTRL 0) then some 3 else none
  | 5 => if s.crsShadowBusy then some 4 else none
  | 7 => if s.prtShadowBusy then some 4 else none
  | _ => none

/-- Connection context entries without their reserved bits 15 and 63:56 (R7, R242). -/
def ctxClean (l : List Byte) : List Byte :=
  l.zipIdx.map fun e => if e.2 % 8 = 1 then e.1 &&& 0x7F else if e.2 % 8 = 7 then 0 else e.1

/-- A whole section is written to its destination. -/
def State.imgWrite (s : State) (type : Nat) (b : List Byte) : State :=
  match type with
  | 1 => match (checkDesc b).2 with | some t => s.installTopo t b | none => s
  | 3 => (s.setBytes placeShadow b).clearChecked
  | 4 => s.setBytes profShadow b
  | 5 =>
    let n := leAt b 0 2
    let w := words32 (b.drop 16)
    let s := s.setRegN Reg.CRS_SHD_COUNT (n % 2048)
    let s := s.setShd fun k => { count := n % 2048
                                 words := w.zipIdx.foldl (fun (m : Sparse Nat) e => Sparse.put 0 e.2 e.1 m) k.words }
    s.journalWords ((0xFF402000, n % 2048) :: (w.take 1024).zipIdx.map fun e => (0xFF402004 + 4 * e.2, e.1))
  | 6 => s.setBytes (ctxAddr (leAt b 0 2) 0) (ctxClean (b.drop 16))
  | 7 =>
    let dw := words32 (sliceB b 16 16384)
    let pw := words32 (b.drop 16400)
    let p := pw.zipIdx.foldl (fun (m : Sparse Nat) e => Sparse.put 0 e.2 e.1 m) s.prt.shd.pairs
    let s := ({ s with prt := { s.prt with shd := { s.prt.shd with desc := sparseOf dw, pairs := p } } }).prtUncheck
    s.journalWords ((dw.zipIdx.map fun e => (0xFF504000 + 4 * e.2, e.1)) ++ pw.zipIdx.map fun e => (0xFF520000 + 4 * e.2, e.1))
  | 8 =>
    let s := if (List.range 672).all fun i => (s.reg (Reg.FAB_RETMAP + 4 * i)).toNat == leAt b (4 * i) 4 then s else s.staleJobs
    let s := (List.range 672).foldl (fun (s : State) i => s.setRegN (Reg.FAB_RETMAP + 4 * i) (leAt b (4 * i) 4)) s
    s.journalWords ((List.range 672).map fun i => (Reg.FAB_RETMAP + 4 * i, leAt b (4 * i) 4))
  | _ => s

/-- The image's TOPO_ID, if it has one, is that of the descriptor in force (R196 step 2). -/
def ImgRun.topoCheck (r : ImgRun) (topoId : Nat) : ImgRun :=
  if r.res.isNone && topoId != 0 && !(match r.s.topo with | some t => t.topoId == topoId | none => false)
  then { r with res := some (0xD, 0) } else r

/-- One section of the image, of which the bytes before `stop` came; `why` is the result where the reading stopped. -/
def ImgRun.section (r : ImgRun) (img : List Byte) (stop why : Nat) (e : ImgSec) : ImgRun :=
  if r.res.isSome then r
  else if e.type = 0 ∨ e.type > 8 then
    (if e.flags % 2 = 1 then { r with secs := r.secs + 1 } else { r with res := some (4, 0) })
  else
    let b := sliceB img e.ofs e.len
    let cut := decide (stop < e.ofs + e.len)
    if !imgSecOk e b && !cut then { r with res := some (4, 0) }
    else if e.type = 2 then
      let n := (if cut then stop - e.ofs else e.len) / 4096
      let r := (List.range n).foldl (fun (r : ImgRun) i => r.record (sliceB b (4096 * i) 4096)) r
      if r.res.isSome then r
      else if cut then { r with res := some (why, 0) }
      else if (crc32c b).toNat ≠ e.crc then { r with res := some (5, 0) }
      else { r with secs := r.secs + 1 }
    else if cut then { r with res := some (why, 0) }
    else if (crc32c b).toNat ≠ e.crc then { r with res := some (5, 0) }
    else match r.s.imgTarget e.type b with
      | some d => { r with res := some (8, d) }
      | none => { r with s := r.s.imgWrite e.type b, secs := r.secs + 1 }

/-- The sections in table order; the TOPO_ID check follows the last TOPOLOGY section at once, or comes before the first section
(R196). -/
def ImgRun.sections (r : ImgRun) (img : List Byte) (topoId stop why : Nat) : List ImgSec → ImgRun
  | [] => r
  | e :: t =>
    let r := r.section img stop why e
    let last := e.type == 1 && !t.any fun x => x.type == 1
    (if last then r.topoCheck topoId else r).sections img topoId stop why t

/-- Every section of the image. -/
def ImgRun.allSections (r : ImgRun) (img : List Byte) (topoId stop why : Nat) (l : List ImgSec) : ImgRun :=
  (if l.any fun x => x.type == 1 then r else r.topoCheck topoId).sections img topoId stop why l

/-- FAB_CTRL.LOAD_IMAGE (R196). -/
def State.loadImage (s : State) : State :=
  if !s.roleActs then s.setRegN Reg.FAB_IMG_RES 0xB
  else if s.rce.imgBusy ∨ s.rce.descBusy then s.setRegN Reg.FAB_IMG_RES 0xC
  else
    let s := (s.setRegN Reg.FAB_IMG_RES 0).setRegN Reg.FAB_IMG_PROG 0
    ({ s with rce := { s.rce with imgBusy := true } }).setBit Reg.FAB_STAT 3 true

/-- An image load runs to its end, having read `img`, or to the byte `stop` at which it stops with the result `why`. -/
def State.imageEnd (s : State) (img : List Byte) (stop : Option Nat) (why : Nat) : State :=
  if !s.rce.imgBusy then s else
  let stop' := stop.getD (2 ^ 32)
  let hdr := 0x40 + 16 * leAt img 6 2
  let r0 : ImgRun := { s := s }
  let r :=
    if stop' < 0x40 then { r0 with res := some (why, 0) }
    else
      let h := imgHeader img (s.reg Reg.FAB_IMG_LEN).toNat
      if (h = 0 ∨ h = 2) ∧ stop' < hdr then { r0 with res := some (why, 0) }
      else if h ≠ 0 then { r0 with res := some (h, 0) }
      else r0.allSections img (leAt img 8 4) stop' why (imgSections img)
  let s := ({ r.s with rce := { r.s.rce with imgBusy := false } }).setBit Reg.FAB_STAT 3 false
  let s := match r.res with
    | some (c, d) => s.setRegN Reg.FAB_IMG_RES (c + 256 * d + 65536 * r.secs)
    | none => s.setRegN Reg.FAB_IMG_RES (if why = 0xA then 0xA else 0)
  let s := s.setRegN Reg.FAB_IMG_PROG (r.recs % 65536 * 65536 + r.secs)
  s.raise pFAB 1

/-- A write of FAB_CTRL; what had been read when ABORT_IMAGE came is in the command of that name only. -/
def State.fabCtrlWrite (s : State) (v : Word) : State :=
  let s := if bitOf v 0 then s.loadDesc else s
  let s := if bitOf v 1 then s.loadImage else s
  if bitOf v 2 then (s.imageEnd [] (some 0) 0xA).resetMaster 5 else s

/-- A write of FAB_RETMAP takes effect at once (R47). -/
def State.retmapWrite (s : State) (addr : Nat) (v : Word) : State :=
  (if s.reg addr = v then s else s.staleJobs).setReg addr v

/-! ### The meanings -/

/-- LOAD_DESC (R41): FAB_CTRL written with LOAD_DESC. -/
def execLoadDesc (m : Fin 8) (s : State) : Host.Outcome State Fault Refusal :=
  .next (s.gateWrite m Reg.FAB_CTRL 1 fun s => s.loadDesc)

/-- LOAD_IMAGE (R196): FAB_CTRL written with LOAD_IMAGE. -/
def execLoadImage (m : Fin 8) (s : State) : Host.Outcome State Fault Refusal :=
  .next (s.gateWrite m Reg.FAB_CTRL 2 fun s => s.loadImage)

end Sys2Proof.Machine
end

