-- ==== Sys2Proof/Machine/Mea.lean ====
section
/-! DEFINITION. The measurement engine (R276 to R290, R307): samples, windows, loss of light and telemetry. -/

namespace Sys2Proof.Machine

/-- The MEA page. -/
abbrev pMEA : Nat := 0x059

/-- A channel of a slot has a usable sample in the present tick (R276). -/
def State.usable (s : State) (slot ch : Nat) : Bool := s.carried slot ch && !s.badWord slot ch

/-- The value of a usable sample: a negative word counts as 0. -/
def State.sampleV (s : State) (slot ch : Nat) : Nat := (s.senseW slot ch).toNat

/-- A sample joins a channel's statistics. -/
def Stat.add (x : Stat) (v : Nat) : Stat :=
  if x.count = 0 then ⟨1, v, v, v⟩ else ⟨x.count + 1, Min.min x.min v, Max.max x.max v, x.sum + v⟩

/-- Two statistics together. -/
def Stat.join (x y : Stat) : Stat :=
  if x.count = 0 then y else if y.count = 0 then x
  else ⟨x.count + y.count, Min.min x.min y.min, Max.max x.max y.max, x.sum + y.sum⟩

/-- MEAN (R279). -/
def Stat.mean (x : Stat) : Nat := if x.count = 0 then 0 else (x.sum + x.count / 2) / x.count

/-- Change one entry of a table of statistics. -/
def statAdd (t : Sparse Stat) (k v : Nat) : Sparse Stat := Sparse.put {} k ((Sparse.get {} k t).add v) t

/-- The slot of the cell that carries OPq, and the tap's channel (R30). -/
def State.outTap? (s : State) (q : Nat) : Option (Nat × Nat) :=
  match s.topo with
  | some t =>
    if q < t.ports then (t.slotOf? (.cell ((t.stages - 1) * (t.ports / 2) + q / 2))).map fun sl => (sl, q % 2) else none
  | none => none

/-- The corrected output tap of OPq in the present tick, when usable (R279). -/
def State.outSample? (s : State) (q : Nat) : Option Nat :=
  match s.outTap? q with
  | some (sl, ch) => if s.usable sl ch then some (if ch = 0 then (s.taps sl).1 else (s.taps sl).2) else none
  | none => none

/-! ### The samples of a tick (R279 to R284) -/

/-- Port statistics. -/
def State.samplePorts (s : State) : State :=
  let s := s.slots.foldl (fun (s : State) e =>
    match e.2 with
    | .voa p =>
      let s := if s.usable e.1 0 then
          { s with mea := { s.mea with in0 := statAdd s.mea.in0 p (s.sampleV e.1 0) } } else s
      if s.usable e.1 1 then { s with mea := { s.mea with in1 := statAdd s.mea.in1 p (s.sampleV e.1 1) } } else s
    | .mon m _ =>
      (List.range 4).foldl (fun (s : State) ch =>
        if s.usable e.1 ch then
          let k := 4 * m + ch
          let x := Sparse.get (0, 0) k s.mea.mon
          { s with mea := { s.mea with mon := Sparse.put (0, 0) k (x.1 + 1, x.2 + s.sampleV e.1 ch) s.mea.mon } }
        else s) s
    | _ => s) s
  (List.range s.nPorts).foldl (fun (s : State) q =>
    match s.outSample? q with
    | some v => { s with mea := { s.mea with out := statAdd s.mea.out q v } }
    | none => s) s

/-- Extinction: λ of each cell that held BAR or CROSS at the boundary before (R281). -/
def State.sampleCells (s : State) : State :=
  s.slots.foldl (fun (s : State) e =>
    match e.2 with
    | .cell c =>
      let held := (s.loop e.1).hist.find? fun h => h.tick + 1 == s.now
      let t := s.taps e.1
      match held with
      | some h =>
        if (h.code = cBAR ∨ h.code = cCROSS) ∧ s.usable e.1 0 ∧ s.usable e.1 1 ∧ t.1 + t.2 ≥ lightFloor then
          let x := Sparse.get (0, 0) c s.mea.cell
          { s with mea := { s.mea with cell := Sparse.put (0, 0) c (x.1 + 1, x.2 + leakage t) s.mea.cell } }
        else s
      | none => s
    | _ => s) s

/-- Histogram channels (R283). -/
def State.sampleHist (s : State) : State :=
  (List.range 16).foldl (fun (s : State) h =>
    let w := s.inForce (Reg.MEA_HIST_CFG + 4 * h)
    if !bitOf w 31 then s
    else
      let port := Machine.fld w 15 10
      let src := Machine.fld w 29 2
      let v? := if src = 2 then s.outSample? port
        else if src = 3 then none
        else match s.voaSlot? port with
          | some sl => if s.usable sl src then some (s.sampleV sl src) else none
          | none => none
      match v? with
      | some v =>
        let b := min 63 ((v - Machine.fld w 0 15) >>> min 9 (Machine.fld w 25 4))
        let k := 64 * h + b
        { s with mea := { s.mea with hist := Sparse.put 0 k (satAdd 0xFFFFFFFF (Sparse.get 0 k s.mea.hist) 1) s.mea.hist } }
      | none => s) s

/-- The carousel slot in force at the present boundary, with the offset in it and its duration. -/
def State.slotNow? (s : State) : Option (Tick × Nat × Nat × Nat) :=
  if !s.carousel then none
  else
    let k := s.crs.act
    let o := (s.now - s.crs.base).toNat % (max 1 k.cycle)
    let r := slotAt k.slots 0 0 o
    some (s.now, r.1, o - r.2, slotDur (Sparse.get 0 r.1 k.words))

/-- Per-slot statistics: the sample of tick t sees the slot of boundary t − 1; each occurrence starts anew, and nothing is gathered
while statistics are stopped (R278, R280). -/
def State.sampleSlots (s : State) : State :=
  let g := s.ffld Reg.MEA_SLOT_CFG 0 4
  let s := match s.mea.prevSlot with
    | some (at', sl, o, d) =>
      if at' + 1 ≠ s.now ∨ !s.mea.on then s
      else
        let s := if o = 0 then { s with mea := { s.mea with slotNow := [] } } else s
        let mine := s.mea.pairs.filter fun k => k / 1024 == sl
        let s := mine.foldl (fun (s : State) k =>
          match s.outSample? (k % 1024) with
          | some v => if g ≤ o then { s with mea := { s.mea with slotNow := statAdd s.mea.slotNow k v } } else s
          | none => s) s
        if o + 1 < d then s
        else mine.foldl (fun (s : State) k =>
          let y := (Sparse.get ({} : Stat) k s.mea.slot).join (Sparse.get {} k s.mea.slotNow)
          { s with mea := { s.mea with
              slot := Sparse.put {} k y s.mea.slot, slotNow := Sparse.put ({} : Stat) k {} s.mea.slotNow } }) s
    | none => s
  { s with mea := { s.mea with prevSlot := s.slotNow? } }

/-- Words that arrived as 0x8000, by EFE (R277). -/
def State.sampleImpl (s : State) : State :=
  let s' := s.bad.foldl (fun (s : State) k => s.count (Reg.MEA_IMPL_EFE + 4 * (k / 4 / 768))) s
  s'.raiseIf (!s.bad.isEmpty) pMEA 6

/-! ### Telemetry paths (R286 to R290) -/

/-- The ring's size in bytes. -/
def State.ringSize (s : State) : Nat := 2 ^ min 28 (max 16 (s.fld Reg.MEA_RING_SIZE 0 5))

/-- A record's header (R286). -/
def recHeader (type flags len node seq tick : Nat) : List Byte :=
  toLE 1 type ++ toLE 1 flags ++ toLE 2 len ++ toLE 2 node ++ toLE 2 seq ++ toLE 8 tick

/-- The bytes of a record of length `len`: header and payload, padded. -/
def recBytes (type flags len node seq tick : Nat) (payload : List Byte) : List Byte :=
  (recHeader type flags len node seq tick ++ padTo (len - 16) payload).take len

/-- A record is lost on the ring path. -/
def State.ringDrop (s : State) : State :=
  let s := (s.bump Reg.MEA_DROP 0 16 1).setBit Reg.MEA_STAT 1 true
  ({ s with mea := { s.mea with ring := { s.mea.ring with dropped := s.mea.ring.dropped + 1 } } }).raise pMEA 3

/-- A record on the host ring (R289); the answer says whether it was written. -/
def State.toRing (s : State) (type flags len tick : Nat) (payload : List Byte) : State × Bool :=
  let size := s.ringSize
  let wr := (s.reg Reg.MEA_RING_WR).toNat % size
  let rd := (s.reg Reg.MEA_RING_RD).toNat % size
  let base := s.reg64 Reg.MEA_RING_BASE / size * size
  let node := s.fld Reg.NTU_NODE 0 14
  let pad := if wr + len > size then size - wr else 0
  let free := size - (wr + size - rd) % size
  if pad + len + 16 ≥ free then (s.ringDrop, false)
  else
    let q := s.mea.ring.seq
    let s := if pad = 0 then s else s.emit (.hostWrite (base + wr) (recBytes 0 0 pad node q tick []))
    let q := if pad = 0 then q else (q + 1) % 65536
    let at' := if pad = 0 then wr else 0
    let s := s.emit (.hostWrite (base + at') (recBytes type flags len node q tick payload))
    let s := { s with mea := { s.mea with ring := { s.mea.ring with
      seq := (q + 1) % 65536, emitted := s.mea.ring.emitted + 1 } } }
    ((s.setRegN Reg.MEA_RING_WR ((at' + len) % size)).setBit Reg.MEA_STAT 1 false, true)

/-- A record is lost on the uplink path. -/
def State.uplDrop (s : State) (n : Nat) : State :=
  let s := s.bump Reg.MEA_DROP 16 16 n
  ({ s with mea := { s.mea with upl := { s.mea.upl with dropped := s.mea.upl.dropped + n } } }).raiseIf (n != 0) pMEA 4

/-- MAXLEN, within its range. -/
def State.uplMax (s : State) : Nat := min 9216 (max 256 (s.ffld Reg.MEA_UPL_RATE 16 16))

/-- Bytes of a telemetry frame beside its records: Ethernet header with tag, telemetry header and FCS. -/
def uplOverhead : Nat := 18 + 8 + 4

/-- The frame being built joins those that wait. -/
def State.uplFlush (s : State) : State :=
  if s.mea.frameN = 0 then s
  else
    let h := toLE 1 1 ++ toLE 1 s.mea.frameN ++ toLE 2 s.mea.frameSeq ++ toLE 2 (s.fld Reg.NTU_NODE 0 14) ++ toLE 2 0
    { s with mea := { s.mea with
        waiting := s.mea.waiting ++ [(h ++ s.mea.frame, s.mea.frameN)], frame := [], frameN := 0
        frameSeq := (s.mea.frameSeq + 1) % 65536 } }

/-- A record on the uplink path (R290). -/
def State.toUplink (s : State) (type flags len tick : Nat) (payload : List Byte) : State × Bool :=
  if !s.roleActs then (s.uplDrop 1, false)
  else
    let s := if uplOverhead + s.mea.frame.length + len > s.uplMax ∨ s.mea.frameN = 255 then s.uplFlush else s
    let q := s.mea.upl.seq
    let b := recBytes type flags len (s.fld Reg.NTU_NODE 0 14) q tick payload
    let s := { s with mea := { s.mea with
      frame := s.mea.frame ++ b, frameN := s.mea.frameN + 1
      upl := { s.mea.upl with seq := (q + 1) % 65536, emitted := s.mea.upl.emitted + 1 } } }
    (if type = 0xF then s.uplFlush else s, true)

/-- Records of a type go to the host ring, to the uplink. -/
def State.ringOn (s : State) (type : Nat) : Bool := s.bit Reg.MEA_CTRL 1 && s.fbit Reg.MEA_ROUTE type
def State.uplOn (s : State) (type : Nat) : Bool :=
  s.bit Reg.MEA_CTRL 2 && s.fbit Reg.MEA_ROUTE (16 + type) && s.ffld Reg.MEA_UPL_RATE 0 16 != 0

/-- A record leaves on each path that MEA_ROUTE names. -/
def State.emitRec (s : State) (type flags len tick : Nat) (payload : List Byte) : State :=
  let s := if s.ringOn type then (s.toRing type flags len tick payload).1 else s
  if s.uplOn type then (s.toUplink type flags len tick payload).1 else s

/-- The END record of each path, with the counts of that path. -/
def State.emitEnd (s : State) (tick : Nat) : State :=
  let body (p : TelPath) : List Byte := toLE 4 p.emitted ++ toLE 4 p.dropped
  let r := if s.ringOn 0xF then s.toRing 0xF 0 32 tick (body s.mea.ring) else (s, false)
  let s := r.1
  let s := if r.2 then { s with mea := { s.mea with ring := { s.mea.ring with dropped := 0 } } } else s
  let u := if s.uplOn 0xF then s.toUplink 0xF 0 32 tick (body s.mea.upl) else (s, false)
  let s := u.1
  let s := if u.2 then { s with mea := { s.mea with upl := { s.mea.upl with dropped := 0 } } } else s
  s.raiseIf (r.2 || u.2) pMEA 2

/-! ### The end of a window (R278 to R284, R288) -/

/-- MIN, MAX and MEAN, two bytes each. -/
def Stat.bytes (x : Stat) : List Byte := toLE 2 x.min ++ toLE 2 x.max ++ toLE 2 x.mean

/-- HELD for a channel without samples, PARTIAL for a window cut short. -/
def State.recFlags (s : State) (count : Nat) : Nat := b2n s.mea.isPartial + 2 * b2n (count == 0)

/-- VALID, INPUT and CONN_ID of a context entry. -/
def entryTail (e : Nat) : Nat × Nat × Nat := (b2n (ctxValid e), ctxInput e, ctxConn e)

/-- PORT_IN and PORT_OUT records. -/
def State.emitPorts (s : State) (t : Nat) : State :=
  let ports := List.range s.nPorts
  let s := ports.foldl (fun (s : State) p =>
    if (s.voaSlot? p).isNone then s else
    let a := Sparse.get {} p s.mea.in0
    let b := Sparse.get {} p s.mea.in1
    let l := Sparse.get {} p s.mea.los
    s.emitRec 1 (s.recFlags a.count) 64 t (toLE 2 p ++ toLE 2 (b2n l.los + 2 * b2n (l.sets != 0)) ++ toLE 4 a.count
      ++ a.bytes ++ b.bytes ++ toLE 2 l.sets)) s
  ports.foldl (fun (s : State) q =>
    let a := Sparse.get {} q s.mea.out
    let e := if s.carousel then (0, 0, 0) else entryTail (s.ctxEntry 0 q)
    s.emitRec 2 (s.recFlags a.count) 64 t (toLE 2 q ++ toLE 2 e.1 ++ toLE 4 a.count ++ a.bytes ++ toLE 2 e.2.1
      ++ toLE 4 e.2.2)) s

/-- SLOT records of the monitored pairs. -/
def State.emitSlots (s : State) (t : Nat) : State :=
  s.mea.pairs.foldl (fun (s : State) k =>
    let a := Sparse.get {} k s.mea.slot
    let w := s.ctxEntry (k / 1024) (k % 1024)
    s.emitRec 3 (s.recFlags a.count) 64 t (toLE 2 (k / 1024) ++ toLE 2 (k % 1024) ++ toLE 4 a.count ++ a.bytes
      ++ toLE 2 (ctxInput w) ++ toLE 4 (ctxConn w))) s

/-- The attached MON elements in order: element, slot and kind. -/
def State.monElems (s : State) : List (Nat × Nat × Nat) :=
  (List.range 512).filterMap fun m =>
    s.slots.findSome? fun e => match e.2 with | .mon x k => if x = m then some (m, e.1, k) else none | _ => none

/-- A list in groups of `n`. -/
def chunks {α : Type} (n : Nat) : Nat → List α → List (List α)
  | 0, _ => []
  | _ + 1, [] => []
  | fuel + 1, l => l.take n :: chunks n fuel (l.drop n)

/-- MON records, four elements each. -/
def State.emitMons (s : State) (t : Nat) : State :=
  (chunks 4 512 s.monElems).foldl (fun (s : State) g =>
    let body := g.flatMap fun e =>
      let ch (i : Nat) : Nat × Nat := Sparse.get (0, 0) (4 * e.1 + i) s.mea.mon
      let mean (i : Nat) : Nat := if (ch i).1 = 0 then 0 else (ch i).2 / (ch i).1
      toLE 2 e.2.1 ++ toLE 1 e.2.2 ++ toLE 1 (b2n ((List.range 4).any fun i => (ch i).1 != 0))
        ++ toLE 2 (mean 0) ++ toLE 2 (mean 1) ++ toLE 2 (mean 2) ++ toLE 2 (mean 3)
    s.emitRec 7 (b2n s.mea.isPartial) 64 t body) s

/-- HIST records of the channels enabled. -/
def State.emitHists (s : State) (t : Nat) : State :=
  (List.range 16).foldl (fun (s : State) h =>
    let w := s.inForce (Reg.MEA_HIST_CFG + 4 * h)
    if !bitOf w 31 then s
    else s.emitRec 6 (b2n s.mea.isPartial) 288 t (toLE 1 h ++ toLE 1 (Machine.fld w 29 2) ++ toLE 2 (Machine.fld w 15 10)
      ++ toLE 2 (Machine.fld w 0 15) ++ toLE 1 (min 9 (Machine.fld w 25 4)) ++ List.replicate 9 (0 : Byte)
      ++ (List.range 64).flatMap fun b => toLE 4 (Sparse.get 0 (64 * h + b) s.mea.hist))) s

/-- CELL records. -/
def State.emitCells (s : State) (t : Nat) : State :=
  (List.range ((s.nCells + 15) / 16)).foldl (fun (s : State) g =>
    let x (i : Nat) : Nat × Nat := Sparse.get (0, 0) (16 * g + i) s.mea.cell
    let v := maskOf ((List.range 16).filter fun i => (x i).1 != 0)
    s.emitRec 4 (b2n s.mea.isPartial) 64 t (toLE 2 (16 * g) ++ toLE 2 v
      ++ (List.range 16).flatMap fun i => toLE 2 (if (x i).1 = 0 then 0 else (x i).2 / (x i).1))) s

/-- LOOP records of the groups of eight that hold a loop. -/
def State.emitLoops (s : State) (t : Nat) : State :=
  let gs := uniq ((s.slots.filter fun e => e.2.kind != 0).map fun e => e.1 / 8)
  gs.foldl (fun (s : State) g =>
    s.emitRec 5 (b2n s.mea.isPartial) 80 t (toLE 2 (8 * g) ++ (List.range 8).flatMap fun i =>
      let x := Sparse.get {} (8 * g + i) s.mea.loop
      toLE 2 x.errMax ++ toLE 2 x.outerMax ++ toLE 2 x.satCnt)) s

/-- The monitored pairs of the context table in ascending order (R280). -/
def State.monitored (s : State) : List Nat :=
  if !s.carousel then []
  else (List.range s.crs.act.count).flatMap fun sl => (List.range 1024).filterMap fun q =>
    let e := s.ctxEntry sl q
    if ctxValid e && ctxMonitored e then some (sl * 1024 + q) else none

/-- The configured window length. -/
def State.winLen (s : State) : Nat := min 1000000 (max 1000 (s.ffld Reg.MEA_WIN 0 20))

/-- A window begins at tick `n`. -/
def State.windowBegin (s : State) (n : Tick) : State :=
  let l := s.monitored
  let s := s.setReg Reg.MEA_WIN_AT (n.setWidth 32)
  let s := s.setFld Reg.MEA_STAT 16 16 (min 0xFFFF l.length)
  let tooMany := decide (l.length > 4096)
  let s := (s.setBit Reg.MEA_STAT 0 tooMany).raiseIf tooMany pMEA 5
  { s with mea := { s.mea with
      on := s.fbit Reg.MEA_CTRL 0, start := n, isPartial := false
      endAt := BitVec.ofNat 64 ((n.toNat / s.winLen + 1) * s.winLen - 1)
      pairs := l.take 4096, in0 := [], in1 := [], out := [], slot := [], hist := [], mon := []
      los := s.mea.los.filterMap fun e =>
        let x : LosSt := { e.2 with sets := 0 }
        if x = {} then none else some (e.1, x)
      ring := { s.mea.ring with emitted := 0 }, upl := { s.mea.upl with emitted := 0 } } }

/-- A window ends with its last tick: its records leave in the order of R288, and the next one begins. -/
def State.windowEnd (s : State) : State :=
  let last := s.mea.endAt
  let t := last.toNat
  let s := if !s.mea.on then s
    else
      let ext := decide (s.mea.extN + 1 ≥ max 1 (s.ffld Reg.MEA_DIV 0 16))
      let lp := decide (s.mea.loopN + 1 ≥ max 1 (s.ffld Reg.MEA_DIV 16 16))
      let s := ((((s.emitPorts t).emitSlots t).emitMons t).emitHists t)
      let s := if ext then s.emitCells t else s
      let s := if lp then s.emitLoops t else s
      let s := s.emitEnd t
      { s with mea := { s.mea with
          extN := if ext then 0 else s.mea.extN + 1, loopN := if lp then 0 else s.mea.loopN + 1
          cell := if ext then [] else s.mea.cell, loop := if lp then [] else s.mea.loop } }
  s.windowBegin (last + 1)

/-- The samples of the present tick at cycle O; a window that ended before is closed first. -/
def State.sampleAll (s : State) : State :=
  let s := if s.mea.endAt.toNat < s.now.toNat then s.windowEnd else s
  let s := if s.mea.endAt.toNat < s.now.toNat then s.windowBegin s.now else s
  let s := s.sampleImpl
  let s := if s.mea.on then s.samplePorts.sampleCells.sampleHist else s
  s.sampleSlots

/-- The window's last tick has had its samples, its evaluation of loss of light and its updates: its records are due. -/
def State.windowDue (s : State) : Bool :=
  decide (s.mea.endAt.toNat < s.now.toNat) || (s.mea.endAt == s.now && s.rce.composed)

/-- The window that is due ends. -/
def State.windowSettle (s : State) : State := if s.windowDue then s.windowEnd else s

/-- MEA_WIN takes a value: the window in progress ends at the first later multiple of it (R278). A window whose last tick is over
keeps its records, and the one that begins then is the one cut short. -/
def State.meaWinTakes (s : State) : State :=
  let s := s.windowSettle
  let w := s.winLen
  let b := max s.now.toNat s.mea.start.toNat
  { s with mea := { s.mea with
    isPartial := decide (s.mea.start.toNat ≤ s.now.toNat) || b % w != 0
    endAt := BitVec.ofNat 64 ((b / w + 1) * w - 1) } }

/-- MEA_WIN is written. -/
def State.meaWinWrite (s : State) (v : Word) : State :=
  let s := s.storeReg Reg.MEA_WIN v
  if s.orphaned then s else s.meaWinTakes

/-- MEA_CTRL.EN takes a value: EN 0 stops statistics at once; EN 1 takes effect at the next window (R278). -/
def State.meaEnTakes (s : State) : State :=
  if s.fbit Reg.MEA_CTRL 0 then
    (if s.now.toNat < s.mea.start.toNat then { s with mea := { s.mea with on := true } } else s)
  else { s.windowSettle with mea := { s.windowSettle.mea with on := false, slotNow := [] } }

/-- MEA_CTRL is written: an export that is disabled resets the telemetry DMA's access (R478). -/
def State.meaCtrlWrite (s : State) (v : Word) : State :=
  let was := s.fld Reg.MEA_CTRL 1 2
  let s := (s.storeReg Reg.MEA_CTRL v).meaEnTakes
  if was &&& s.fld Reg.MEA_CTRL 1 2 = was then s else s.resetMaster 4

/-- A soft reset of the page: statistics restart at the next window's start, and export stops (R453, R478). -/
def State.meaRestart (s : State) : State :=
  let s := s.meaWinTakes
  ({ s with mea := { s.mea with on := false, slotNow := [], frame := [], frameN := 0, waiting := [] } }).resetMaster 4

/-! ### Loss of light (R285) -/

/-- Port `p` is evaluated at all. -/
def State.losEn (s : State) (p : Nat) : Bool := s.fbit (Reg.MEA_LOS_EN + 4 * (p / 32)) (p % 32)

/-- One evaluation: the new state, and what is reported. -/
def losStep (thrSet thrClr setN clrN : Nat) (x : LosSt) (v : Nat) : LosSt × Option Bool :=
  if !x.los then
    let b := if v < thrSet then x.below + 1 else 0
    if b ≥ setN then ({ x with los := true, below := b, above := 0, sets := satAdd 0xFFFF x.sets 1 }, some true)
    else ({ x with below := b }, none)
  else
    let a := if v ≥ thrClr then x.above + 1 else 0
    if a ≥ clrN then ({ x with los := false, above := a, below := 0 }, some false) else ({ x with above := a }, none)

/-- Port `p` at O + 30 of the present tick; the report, if any. -/
def State.losPort (s : State) (p slot : Nat) : State × Option Bool :=
  let x := Sparse.get {} p s.mea.los
  let put (s : State) (y : LosSt) : State := { s with mea := { s.mea with los := Sparse.put {} p y s.mea.los } }
  if !s.losEn p then (put s { sets := x.sets }, none)
  else if s.absent (efeOf slot) || !s.usable slot 0 then (s, none)
  else
    let v := s.sampleV slot 0
    let r := losStep (s.ffld Reg.MEA_LOS_THR 0 15) (s.ffld Reg.MEA_LOS_THR 16 15) (max 1 (s.ffld Reg.MEA_LOS_CNT 0 8))
      (max 1 (s.ffld Reg.MEA_LOS_CNT 16 16)) x v
    let s := put s r.1
    match r.2 with
    | none => (s, none)
    | some set =>
      let s := s.emitRec 8 0 32 s.now.toNat (toLE 1 (if set then 1 else 2) ++ toLE 1 0 ++ toLE 2 p ++ toLE 2 v)
      let s := s.raise pMEA (if set then 0 else 1)
      (if set then { s with prt := { s.prt with events := s.prt.events ++ [0x1000 + p] } } else s, some set)

/-- Every port at O + 30: the state and the reports in order of port. -/
def State.losEval (s : State) : State × List (Nat × Bool) :=
  (List.range s.nPorts).foldl (fun (r : State × List (Nat × Bool)) p =>
    match r.1.voaSlot? p with
    | none => r
    | some sl =>
      let q := r.1.losPort p sl
      (q.1, match q.2 with | some b => r.2 ++ [(p, b)] | none => r.2)) (s, [])

/-- Word `w` of MEA_LOS_EN is in force: a port whose bit is 0 reads no loss, with both counts at 0. -/
def State.losEnTakes (s : State) (w : Nat) : State :=
  (List.range 32).foldl (fun (s : State) i =>
    let p := 32 * w + i
    if s.losEn p then s
    else
      let y : LosSt := { sets := (Sparse.get {} p s.mea.los).sets }
      { s with mea := { s.mea with los := Sparse.put {} p y s.mea.los } }) s

/-- MEA_LOS_EN is written. -/
def State.losEnWrite (s : State) (addr : Nat) (v : Word) : State :=
  (s.storeReg addr v).losEnTakes ((addr - Reg.MEA_LOS_EN) / 4)

/-- Word `w` of MEA_LOS_MAP. -/
def State.losMap (s : State) (w : Nat) : Nat :=
  maskOf ((List.range 32).filter fun i => (Sparse.get {} (32 * w + i) s.mea.los).los)

/-! ### The meanings -/

/-- MEA_WINDOW_END (R278, R288): the window whose last samples have been taken ends. -/
def execMeaWindowEnd (s : State) : Host.Outcome State Fault Refusal := .next s.windowSettle

/-- MEA_WIN_WRITE (R278). -/
def execMeaWinWrite (m : Fin 8) (v : Word) (s : State) : Host.Outcome State Fault Refusal :=
  .next (s.gateWrite m Reg.MEA_WIN v fun s => s.meaWinWrite v)

/-- MEA_EN_WRITE (R278): MEA_CTRL written. -/
def execMeaEnWrite (m : Fin 8) (v : Word) (s : State) : Host.Outcome State Fault Refusal :=
  .next (s.gateWrite m Reg.MEA_CTRL v fun s => s.meaCtrlWrite v)

end Sys2Proof.Machine
end

