-- ==== Sys2Proof/Machine/Alm.lean ====
section
/-! DEFINITION. Alarm frames (R341 to R345) and the hand-over of telemetry frames to the uplinks (R290). -/

namespace Sys2Proof.Machine

abbrev pALM : Nat := 0x0B7

/-- NTU_NODE (R392). -/
def State.node (s : State) : Nat := s.fld Reg.NTU_NODE 0 14

/-- ALM_ETYPE. -/
def State.almType (s : State) : Nat := s.fld Reg.ALM_ETYPE 0 16

/-- The ports of a mask of three words. -/
def State.portMask (s : State) (r : Nat) : List Nat := (List.range 66).filter fun n => s.bit (r + 4 * (n / 32)) (n % 32)

/-- ACRC over a payload with HOPS taken as 0 (R341). -/
def almCrc (p : List Byte) : Nat := (crc32c (spliceB (p.take 0x2A) 2 [0])).toNat

/-- An alarm payload. -/
def almPayload (kind hops origin seq code value tick time : Nat) : List Byte :=
  let p := toLE 1 1 ++ toLE 1 kind ++ toLE 1 hops ++ [0] ++ toLE 2 origin ++ toLE 2 seq ++ toLE 2 code ++ toLE 2 value
    ++ toLE 8 tick ++ toLE 8 time ++ List.replicate 14 (0 : Byte)
  p ++ toLE 4 (almCrc p)

/-- The alarm frame around a payload (R341). -/
def State.almFrame (s : State) (payload : List Byte) : List Byte :=
  let tag := s.fld Reg.ALM_DA_HI 16 12 + 8192 * s.fld Reg.ALM_TX 8 3
  frameBytes (s.reg64 Reg.ALM_DA % 2 ^ 48) s.rmac (some tag) (toBE 2 s.almType ++ payload)

/-- A record of the seen cache, the oldest making room at 1,024 (R342). -/
def State.almSeen (s : State) (origin seq : Nat) : State :=
  let l := if s.net.seen.length ≥ 1024 then s.net.seen.drop 1 else s.net.seen
  { s with net := { s.net with seen := l ++ [(origin, seq, s.frcNow)] } }

/-- A record expires 2 s after its acceptance. -/
def State.almExpire (s : State) : State :=
  { s with net := { s.net with seen := s.net.seen.filter fun e => decide ((s.frcNow - e.2.2).toNat < 2000000000 * 65536) } }

/-- A forward or origination is suppressed by role (R344, R345). -/
def State.almGated (s : State) : State := (s.count (Reg.ALM_CNT + 28)).raise pALM 4

/-- The device originates an alarm (R345). -/
def State.almOriginate (s : State) (kind code value : Nat) : State :=
  if s.almType = 0 then s
  else if !s.roleActs then s.almGated
  else
    let seq := (s.fld Reg.ALM_SEQ 0 16 + 1) % 65536
    let s := s.setRegN Reg.ALM_SEQ seq
    let p := almPayload kind (s.fld Reg.ALM_TX 0 8) s.node seq code value s.now.toNat (s.ntNs % 2 ^ 64)
    let s := (s.originate 69 (s.fld Reg.ALM_TX 8 3) (s.almFrame p) (s.portMask Reg.ALM_ORIG_MASK)).2
    ((s.almSeen s.node seq).count (Reg.ALM_CNT + 16)).raise pALM 2

/-- The alarms of the LOS reports of a tick (R345). -/
def State.almReports (s : State) (l : List (Nat × Bool)) : State :=
  l.foldl (fun (s : State) e =>
    if s.bit Reg.ALM_CTRL 1 && s.bit (Reg.ALM_ORIG_EN + 4 * (e.1 / 32)) (e.1 % 32) then
      let v := match s.voaSlot? e.1 with | some sl => s.sampleV sl 0 | none => 0
      s.almOriginate (if e.2 then 1 else 2) e.1 v
    else s) s

/-- A write of ALM_SEND: SOFT_SET or SOFT_CLEAR with its code, while origination is enabled. -/
def State.almSend (s : State) (v : Word) : State :=
  let k := Machine.fld v 16 8
  if (k = 3 ∨ k = 4) ∧ s.bit Reg.ALM_CTRL 1 then s.almOriginate k (Machine.fld v 0 16) 0 else s

/-- SEQ `a` is newer than `b` under 16-bit serial arithmetic (R100, R343). -/
def newer16 (a b : Nat) : Bool := let d := (a + 65536 - b) % 65536; d != 0 && decide (d < 32768)

/-- Alarm input `a` becomes active or inactive; a rise is an event of the tick (R253, R343). -/
def State.almLevel (s : State) (a : Nat) (on : Bool) : State :=
  let r := pageWord Reg.ALM_IN_LEVEL a
  let was := s.bit r (a % 32)
  let s := s.setBit r (a % 32) on
  if on && !was then
    ({ s with evt := { s.evt with almEv := s.evt.almEv ||| 1 <<< a } }).raise pALM 1
  else s

/-- An accepted frame against alarm input `a` (R343). -/
def State.almInput (s : State) (kind origin seq code a : Nat) : State :=
  let w0 := s.reg (Reg.ALM_IN0 + 8 * a)
  let w1 := s.reg (Reg.ALM_IN1 + 8 * a)
  let o := Machine.fld w0 0 14
  let mask := Machine.fld w1 0 16
  let kbit := if kind ≤ 2 then 16 else 17
  if !(bitOf w1 31 && (o == origin || o == 16383) && bitOf w1 kbit && code &&& mask == Machine.fld w0 16 16 &&& mask) then s
  else
    let fresh := match Sparse.get none a s.net.lastIn with
      | some (lo, ls) => lo != origin || newer16 seq ls
      | none => true
    if !fresh then s.count (Reg.ALM_CNT + 24)
    else
      let s := { s with net := { s.net with lastIn := Sparse.put none a (some (origin, seq)) s.net.lastIn } }
      s.almLevel a (kind == 1 || kind == 3)

/-- Forwarding of an accepted frame that is not a duplicate (R344). -/
def State.almForward (s : State) (port : Nat) (payload : List Byte) : State :=
  let hops := leAt payload 2 1
  if hops ≤ 1 then s.count (Reg.ALM_CNT + 20)
  else if !s.bit Reg.ALM_CTRL 0 then s
  else if !s.roleActs then s.almGated
  else
    let ports := (s.portMask Reg.ALM_FWD_MASK).filter (· != port)
    let f := s.almFrame (spliceB (payload.take 46) 2 [BitVec.ofNat 8 (hops - 1)])
    let (ok, s) := s.originate 69 (s.fld Reg.ALM_TX 8 3) f ports
    if ok then s.bump (Reg.ALM_CNT + 12) 0 32 ports.length else s

/-- A received alarm frame's payload, from ingress `port` (R342). `copy` is the frame without tag, its VID, class and stamp. -/
def State.almFrameRx (s : State) (port : Nat) (payload : List Byte) (copy : List Byte × Nat × Nat × Option (BitVec 96)) : State :=
  if leAt payload 0 1 ≠ 1 ∨ payload.length < 46 ∨ leAt payload 0x2A 4 ≠ almCrc payload then
    (s.count (Reg.ALM_CNT + 4)).raise pALM 3
  else
    let s := s.closeIfPast
    let origin := leAt payload 4 2 % 16384
    let seq := leAt payload 6 2
    if origin = s.node ∨ s.almExpire.net.seen.any (fun e => e.1 == origin && e.2.1 == seq) then s.count (Reg.ALM_CNT + 8)
    else
      let s := s.almExpire.almSeen origin seq
      let s := (s.count Reg.ALM_CNT).raise pALM 0
      let kind := leAt payload 1 1
      let s := if 1 ≤ kind ∧ kind ≤ 4 then
          (List.range 64).foldl (fun (s : State) a => s.almInput kind origin seq (leAt payload 8 2) a) s
        else s
      let s := if s.bit Reg.ALM_CTRL 2 then s.hostRx rALARM port copy.2.1 copy.2.2.1 copy.2.2.2 copy.1 else s
      s.almForward port payload

/-- ALM_IN_CLEAR is written: word `w`. -/
def State.almClear (s : State) (w : Nat) (v : Word) : State :=
  let s := s.closeIfPast
  (List.range 32).foldl (fun (s : State) i => if bitOf v i then s.almLevel (32 * w + i) false else s) s

/-! ### Telemetry frames (R290) -/

/-- The Ethernet frame of a telemetry payload. -/
def State.telFrame (s : State) (payload : List Byte) : List Byte :=
  let tag := s.ffld (Reg.MEA_UPL_DST + 4) 16 12 + 8192 * s.ffld Reg.MEA_UPL_CFG 0 3
  padFrame (frameBytes ((s.inForce Reg.MEA_UPL_DST).toNat + s.ffld (Reg.MEA_UPL_DST + 4) 0 16 * 2 ^ 32) s.rmac (some tag) (toBE 2 (s.ffld Reg.MEA_UPL_CFG 16 16) ++ payload))

/-- A frame of `n` bytes may be handed over in the present tick: the bytes of the latest 64 ticks stay within BYTES a tick. -/
def State.telRoom (s : State) (n : Nat) : Bool :=
  decide ((s.mea.handed.map fun (x : Tick × Nat) => x.2).foldl (· + ·) n ≤ 64 * s.ffld Reg.MEA_UPL_RATE 0 16)

/-- Frames are handed to the queue while the pacing allows. -/
def State.telHand : Nat → State → State
  | 0, s => s
  | fuel + 1, s =>
    match s.mea.waiting with
    | [] => s
    | (p, n) :: t =>
      let f := s.telFrame p
      if !s.telRoom (f.length + 4) then s
      else
        let s := { s with mea := { s.mea with waiting := t, handed := s.mea.handed ++ [(s.now, f.length + 4)] } }
        if !s.roleActs then State.telHand fuel (s.uplDrop n)
        else
          let r := s.originate 67 (s.ffld Reg.MEA_UPL_CFG 0 3) f [64 + s.ffld Reg.MEA_UPL_CFG 4 1]
          State.telHand fuel (if r.1 then r.2 else r.2.uplDrop n)

/-- A tick's share of the uplink export, while it runs (R290). -/
def State.telTick (s : State) : State :=
  let s := { s with mea := { s.mea with handed := s.mea.handed.filter fun x => decide (s.now.toNat < x.1.toNat + 64) } }
  if s.bit Reg.MEA_CTRL 2 then State.telHand s.mea.waiting.length s else s

/-! ### The meanings -/

/-- ALARM_CACHE_EXPIRY (R342). -/
def execAlarmCacheExpiry (cycle : Nat) (s : State) : Host.Outcome State Fault Refusal := .next (s.atCycle cycle).almExpire

/-- ALM_SEND (R345). -/
def execAlmSend (m : Fin 8) (kind : Byte) (code : BitVec 16) (s : State) : Host.Outcome State Fault Refusal :=
  let v := BitVec.ofNat 32 (kind.toNat * 65536 + code.toNat)
  .next (s.gateWrite m Reg.ALM_SEND v fun s => s.almSend v)

/-- ALM_IN_CLEAR (R343): word 0 or 1. -/
def execAlmInClear (m : Fin 8) (word : Fin 2) (v : Word) (s : State) : Host.Outcome State Fault Refusal :=
  .next (s.gateWrite m (Reg.ALM_IN_CLEAR + 4 * word.val) v fun s => s.almClear word v)

end Sys2Proof.Machine
end

