-- ==== Sys2Proof/Machine/Cal.lean ====
section
/-! DEFINITION. The calibration engine (R291 to R306, R309): passes, stages, stores and commits. -/

namespace Sys2Proof.Machine

/-- The CAL page. -/
abbrev pCAL : Nat := 0x058

/-! ### Banks and records (R304, R306) -/

/-- Address of calibration bank `b` in MRAM (R469). -/
def calBank (b : Nat) : Nat := 0x14400000 + 0x100000 * b

/-- SEQ of a commit word at an address, when it has the marker, the bank's number and a SEQ other than 0 (R306). -/
def State.commitSeq? (s : State) (addr marker bank : Nat) : Option Nat :=
  let w := s.loadN addr 4
  let q := s.loadN (addr + 4) 4
  if w % 65536 = marker ∧ w / 65536 % 2 = bank ∧ q ≠ 0 then some q else none

/-- Of two banks the valid one with the higher SEQ, number 0 when equal (R306). -/
def chooseBank : Option Nat → Option Nat → Option Nat
  | some a, some b => if a < b then some 1 else some 0
  | some _, none => some 0
  | none, some _ => some 1
  | none, none => none

/-- The CRC of calibration bank `b`: header with the CRC field as 0, then the records. -/
def State.calCrc (s : State) (b : Nat) : Nat :=
  (crc32c (s.bytes (calBank b) 0x3C ++ List.replicate 4 (0 : Byte) ++ s.bytes (calBank b + 0x1000) 786432)).toNat

/-- SEQ of calibration bank `b`, when it is valid. -/
def State.calSeq? (s : State) (b : Nat) : Option Nat :=
  match s.commitSeq? (calBank b + 0x40) 0xCA1B b with
  | none => none
  | some q =>
    let a := calBank b
    if s.loadN (a + 8) 4 = q ∧ s.loadN a 4 = 0x424C4143 ∧ s.loadN (a + 4) 2 = 1 ∧ s.loadN (a + 6) 2 = 12288
        ∧ s.loadN (a + 0x3C) 4 = s.calCrc b then some q else none

/-- The bytes of a slot record. -/
def CalRec.bytes (r : CalRec) : List Byte :=
  toLE 1 r.status ++ toLE 1 r.cls ++ toLE 2 (b2n r.ts + 2 * b2n r.lower) ++ toLE 2 r.aBar ++ toLE 2 r.aCross
    ++ toLE 2 r.parkA ++ toLE 2 r.parkB ++ toLE 2 r.rk ++ toLE 2 r.heatP ++ toLE 2 r.lamBar ++ toLE 2 r.lamCross
    ++ toLE 2 r.tmax ++ toLE 2 r.ref0 ++ toLE 4 r.tick ++ toLE 1 r.attempts ++ List.replicate 35 (0 : Byte)

/-- The slot record in a list of bytes. -/
def readCalRec (l : List Byte) : CalRec :=
  { status := leAt l 0 1, cls := leAt l 1 1, ts := bitAt (leAt l 2 1) 0, lower := bitAt (leAt l 2 1) 1
    aBar := leAt l 4 2, aCross := leAt l 6 2, parkA := leAt l 8 2, parkB := leAt l 10 2, rk := leAt l 12 2 % 32768
    heatP := leAt l 14 2, lamBar := leAt l 16 2, lamCross := leAt l 18 2, tmax := leAt l 20 2, ref0 := leAt l 22 2
    tick := leAt l 24 4, attempts := leAt l 28 1 }

/-- The records of calibration bank `b`. -/
def State.calTable (s : State) (b : Nat) : Sparse CalRec :=
  (List.range 12288).filterMap fun i =>
    let r := readCalRec (s.bytes (calBank b + 0x1000 + 64 * i) 64)
    if r = {} then none else some (i, r)

/-- CAL_SEQ_A and CAL_SEQ_B are updated; the bank chosen. -/
def State.calSeqs (s : State) : State × Option Nat :=
  let a := s.calSeq? 0
  let b := s.calSeq? 1
  (((s.setRegN Reg.CAL_SEQ_A (a.getD 0)).setRegN Reg.CAL_SEQ_B (b.getD 0)), chooseBank a b)

/-! ### Requests -/

/-- The result of a request or commit; every one but OK is a refusal or cancellation. -/
def State.calRes (s : State) (code : Nat) : State :=
  (s.setRegN Reg.CAL_OP_RES code).raiseIf (code != 0) pCAL 4

/-- A pass, store or stage runs. -/
def State.calBusy (s : State) : Bool := s.bit Reg.CAL_STAT 0 || s.bit Reg.CAL_STAT 2 || s.bit Reg.CAL_STAT 4

/-! ### The pass (R291 to R300) -/

/-- CAL_AVG, CAL_HSETTLE, NB and NA, within their ranges. -/
def State.calAvg (s : State) : Nat := min 4096 (max 1 (s.fld Reg.CAL_AVG 0 13))
def State.calNb (s : State) : Nat := max 2 (s.fld Reg.CAL_SWEEP_CFG 8 8)
def State.calNa (s : State) : Nat := max 3 (s.fld Reg.CAL_SWEEP_CFG 0 8)
def State.calMid (s : State) : Nat := s.fld Reg.CAL_SWEEP_CFG 16 16

/-- Step `j` of `n` of a sweep register: LO + j × (HI − LO) / (n − 1), rounded down (R295). -/
def State.sweepCode (s : State) (r n j : Nat) : Nat :=
  let lo : Int := s.fld r 0 16
  let hi : Int := s.fld r 16 16
  low 16 (lo + ((j : Int) * (hi - lo)).fdiv (n - 1 : Nat))

/-- The boundary from which codes given now hold. -/
def State.calNext (s : State) : Tick := if s.rce.composed then s.now + 3 else s.now + 2

/-- An element is still being swept in the present attempt. -/
def CalElem.on (e : CalElem) : Bool := e.active && e.res.isNone

/-- An element takes a result, with what its record shows of it. -/
def State.calResult (s : State) (e : CalElem) (code : Nat) (r : CalRec) : CalElem :=
  { e with res := some code, active := false
           out := { r with status := code, cls := slotClass e.slot, lower := e.lower, ref0 := e.ref0
                           tick := s.now.toNat % 2 ^ 32, attempts := e.tries } }

/-- An attempt of an element failed in a way that is repeated: again, or the result once the limit is exhausted (R298). -/
def State.calAgain (s : State) (e : CalElem) (code : Nat) : CalElem :=
  if e.tries ≤ s.fld Reg.CAL_RETRY 0 4 then { e with active := false, again := some code }
  else s.calResult e code {}

/-- Change the elements of the pass. -/
def CalPass.mapOn (p : CalPass) (f : CalElem → CalElem) : CalPass :=
  { p with elems := p.elems.map fun e => if e.on then f e else e }

/-- A measurement begins for every element in the attempt, with the codes `f` gives. -/
def State.calMeasure (s : State) (p : CalPass) (phase step settle : Nat) (f : CalElem → Nat × Nat) : CalPass :=
  { (p.mapOn fun e => { e with n := 0, sum0 := 0, sum1 := 0, seen := 0, a := (f e).1, b := (f e).2 }) with
    phase := phase, step := step, settle := settle, m := s.calNext }

/-- CAL_STAT and the state show the pass. -/
def State.putPass (s : State) (p : CalPass) : State :=
  let s := (s.setFld Reg.CAL_STAT 14 2 p.phase).setFld Reg.CAL_STAT 8 4 p.attempt
  { s with cal := { s.cal with pass := some p } }

/-- An attempt begins, or begins again, with the opening reference (R292, R295). -/
def State.calAttempt (s : State) (p : CalPass) : CalPass :=
  let p := p.mapOn fun e => { e with heat := [], taps := [], hp := 0, bq := 0, heatP := 0, ref0 := 0 }
  { s.calMeasure p 0 0 (s.fld Reg.CAL_HSETTLE 0 16) fun e => (s.calMid, e.bStart) with
    light := [], cells := s.rce.s0, begun := s.now }

/-- The loop of an element keeps the codes saved before the pass (R293). -/
def State.calRestore (s : State) (e : CalElem) : State :=
  s.setLoop e.slot fun x =>
    match e.elem with
    | .cell _ => { x with lastB := e.bStart }
    | _ => { x with lastA := e.aStart }

/-- Elements that have left the attempt give their codes back, once (R293). -/
def State.calGiveBack (s : State) (p : CalPass) : State × CalPass :=
  let gone (e : CalElem) : Bool := !e.on && !e.back
  (p.elems.foldl (fun (s : State) e => if gone e then s.calRestore e else s) s,
    { p with elems := p.elems.map fun e => if gone e then { e with back := true } else e })

/-- The pass ends: its results go into the buffer, and it is counted (R300). -/
def State.passEnd (s : State) (p : CalPass) : State :=
  let ok := (p.elems.filter (·.res == some 1)).length
  let (s, p) := s.calGiveBack p
  let s := p.elems.foldl (fun (s : State) e =>
    { s with cal := { s.cal with results := Sparse.put {} e.slot e.out s.cal.results } }) s
  let s := { s with cal := { s.cal with pass := none } }
  let s := s.setRegN Reg.CAL_RES_SUM (ok * 65536 + (p.elems.length + p.missing - ok) % 65536)
  let s := ((s.setFld Reg.CAL_STAT 0 2 0).setFld Reg.CAL_STAT 8 4 0).setFld Reg.CAL_STAT 14 2 0
  s.raise pCAL 0

/-- After some elements took results: the attempt goes on; or the next attempt begins with those to be repeated; or the pass
ends (R298, R300). -/
def State.calGoOn (s : State) (p : CalPass) : State :=
  let (s, p) := s.calGiveBack p
  if p.elems.any (·.on) then s.putPass p
  else if p.elems.any (·.again.isSome) then
    let q := { p with
      attempt := p.attempt + 1
      elems := p.elems.map fun e => if e.again.isSome then
        { e with again := none, active := true, back := false, tries := e.tries + 1 } else e }
    s.putPass (s.calAttempt q)
  else s.passEnd p

/-- The pass is abandoned with ABORTED (R300). -/
def State.calAbort (s : State) : State :=
  match s.cal.pass with
  | none => s
  | some p => s.passEnd { p with elems := p.elems.map fun e => if e.res.isSome then e else s.calResult e 0xD {} }

/-- The elements CAL_PASS names: cell or VOA numbers. -/
def State.calElems (s : State) : List Elem :=
  let first := s.fld Reg.CAL_PASS 10 10
  let l := (List.range (s.fld Reg.CAL_PASS 20 11)).map (first + ·)
  if s.fld Reg.CAL_PASS 0 2 = 0 then l.map fun r => .cell (s.fld Reg.CAL_PASS 5 5 * (s.nPorts / 2) + r) else l.map .voa

/-- RANGE of R291. -/
def State.calRangeBad (s : State) (t : Topo) : Bool :=
  let kind := s.fld Reg.CAL_PASS 0 2
  let count := s.fld Reg.CAL_PASS 20 11
  let top := s.fld Reg.CAL_PASS 10 10 + count
  decide (1 < kind) || count == 0 || (kind == 0 && (decide (s.fld Reg.CAL_PASS 5 5 ≥ t.stages) || decide (top > t.ports / 2)))
    || (kind == 1 && decide (top > t.ports))

/-- An element as the pass takes it up, with the results it may have at the start (R291, R299). -/
def State.calTake (s : State) (el : Elem) (slot : Nat) : CalElem :=
  let d := Sparse.get 0 slot s.drives
  let e : CalElem := { slot := slot, elem := el, aStart := d % 65536, bStart := d / 65536 }
  let out (code : Nat) : CalElem := { s.calResult e code {} with back := true }
  if s.absent (efeOf slot) then out 0xC
  else if (s.loop slot).eff = .frozen then out 0xB
  else if !s.carousel && !s.bit Reg.CAL_INTRUSIVE 0 && s.calLive el s.now s.code0 then out 8
  else e

/-- The throttle level in force (R505). -/
def State.level (s : State) : Nat := s.fld Reg.THM_LEVEL 0 2

/-- The throttle level changed, or a pass began: T3 suspends the pass, and below it the attempt in progress restarts (R294). -/
def State.calLevel (s : State) : State :=
  match s.cal.pass with
  | none => s
  | some p =>
    if s.level = 3 ∧ !s.bit Reg.CAL_STAT 1 then (s.setBit Reg.CAL_STAT 1 true).raise pCAL 5
    else if s.level ≠ 3 ∧ s.bit Reg.CAL_STAT 1 then
      let s := s.setBit Reg.CAL_STAT 1 false
      s.putPass (s.calAttempt p)
    else s

/-- CAL_CTRL.START (R291). -/
def State.calStart (s : State) : State :=
  if s.role ≠ 0 then s.calRes 1
  else match s.topo with
  | none => s.calRes 4
  | some t =>
    if s.calBusy then s.calRes 2
    else if s.calRangeBad t then s.calRes 3
    else
      let l := s.calElems
      let el := l.filterMap fun x => (t.slotOf? x).map fun sl => s.calTake x sl
      let p : CalPass := { kind := s.fld Reg.CAL_PASS 0 2, elems := el, missing := l.length - el.length }
      let s := (s.calRes 0).setBit Reg.CAL_STAT 0 true
      if el.any (·.on) then (s.putPass (s.calAttempt p)).calLevel else s.passEnd p

/-! ### Samples of a pass (R294, R299) -/

/-- The tick's sample of one element. -/
def State.calSample (s : State) (p : CalPass) (e : CalElem) : CalElem :=
  if p.m.toNat + p.settle < s.now.toNat ∧ s.usable e.slot 0 ∧ s.usable e.slot 1
      ∧ !p.pausedBefore.contains e.slot then
    let e := { e with seen := e.seen + 1 }
    if (s.level = 0 ∨ e.seen % 2 = 0) ∧ e.n < s.calAvg then
      { e with n := e.n + 1, sum0 := e.sum0 + s.sampleV e.slot 0, sum1 := e.sum1 + s.sampleV e.slot 1, hp := s.power e.slot }
    else e
  else e

/-- At a boundary the elements of a pass that are paused there are noted (R299). -/
def State.calPause (s : State) : State :=
  match s.cal.pass with
  | none => s
  | some p =>
    let l := (p.elems.filter fun e => e.res.isNone && s.calPaused e.elem s.now s.code0).map (·.slot)
    { s with cal := { s.cal with pass := some { p with paused := l, pausedBefore := p.paused } } }

/-- The VOA samples that tell which input ports are lit (R292). -/
def State.calLight (s : State) (l : Sparse (Nat × Nat)) : Sparse (Nat × Nat) :=
  s.slots.foldl (fun (l : Sparse (Nat × Nat)) e =>
    match e.2 with
    | .voa p =>
      let x := Sparse.get (0, 0) p l
      if s.usable e.1 0 ∧ x.1 < s.calAvg then Sparse.put (0, 0) p (x.1 + 1, x.2 + s.sampleV e.1 0) l else l
    | _ => l) l

/-- Cycle O of a tick for the pass. -/
def State.calSamples (s : State) : State :=
  match s.cal.pass with
  | none => s
  | some p =>
    if s.bit Reg.CAL_STAT 1 then s
    else
      let q := p.mapOn (s.calSample p)
      let q := if p.kind = 0 ∧ p.phase = 0 then { q with light := s.calLight p.light } else q
      { s with cal := { s.cal with pass := some q } }

/-! ### The end of a measurement (R292, R295 to R297) -/

/-- Means of S0 and S1 of the measurement, rounded down. -/
def CalElem.means (e : CalElem) : Nat × Nat := (e.sum0 / max 1 e.n, e.sum1 / max 1 e.n)

/-- The input ports that reach cell `c` on each of its input lines: those lit, traced with PARK as BAR. -/
def State.litInputs (s : State) (p : CalPass) (c : Nat) : List Nat × List Nat :=
  match s.topo with
  | none => ([], [])
  | some t =>
    let half := t.ports / 2
    let k := c / half
    let lit := (List.range t.ports).filter fun i =>
      let x := Sparse.get (0, 0) i p.light
      x.1 != 0 && decide (x.2 / x.1 ≥ s.fld Reg.CAL_MIN_LIGHT 0 15)
    let line (i : Nat) : Nat := if k = 0 then i else t.wire (k - 1) (tracePath t (codeOf p.cells) k 0 i).2
    (lit.filter fun i => line i == 2 * (c % half), lit.filter fun i => line i == 2 * (c % half) + 1)

/-- The share of `own` against `oth`; below the floor of R125 it is a free value. -/
def calShare (own oth : Nat) : Nat :=
  if own + oth ≥ lightFloor then nfrac own oth else min 0x7FFF (Config.faintShare own oth)

/-- Own-line and other taps of an element. -/
def CalElem.ownOth (e : CalElem) (t : Nat × Nat) : Nat × Nat := if e.lower then (t.2, t.1) else t

/-- Drift of a closing against an opening reference, in 0.01 %. -/
def calDrift (ref1 ref0 : Nat) : Nat :=
  if ref0 = 0 then Config.zeroRefDrift ref1 else ((ref1 : Int) - (ref0 : Int)).natAbs * 10000 / ref0

/-- Index of the largest value of a list, the lowest on ties. -/
def argMax (l : List Nat) : Nat := (l.zipIdx.foldl (fun (b : Nat × Nat) e => if e.1 > b.1 then e else b) (l.headD 0, 0)).2

/-- Index of the smallest value of a list, the lowest on ties. -/
def argMin (l : List Nat) : Nat := (l.zipIdx.foldl (fun (b : Nat × Nat) e => if e.1 < b.1 then e else b) (l.headD 0, 0)).2

/-- The end of the opening reference for an element. -/
def State.calRef (s : State) (p : CalPass) (e : CalElem) : CalElem :=
  let min' := s.fld Reg.CAL_MIN_LIGHT 0 15
  let (m0, m1) := e.means
  match e.elem with
  | .cell c =>
    let (u, l) := s.litInputs p c
    let e := { e with ref0 := m0 + m1 }
    if u.length + l.length = 0 then s.calResult e 2 {}
    else if u.length + l.length > 1 then s.calResult e 4 {}
    else if m0 + m1 < min' then s.calResult e 2 {}
    else { e with lower := u.isEmpty }
  | _ =>
    let e := { e with ref0 := m0 }
    if m0 < min' then s.calResult e 2 {} else e

/-- The heater code chosen from the shares found, oldest first: the smallest step that crosses half share. -/
def quadStep : Nat → List (Nat × Int) → Option (Nat × Int)
  | i, x :: y :: t => if x.1 < 0x4000 ∧ y.1 ≥ 0x4000 then some (i + 1, y.2) else quadStep (i + 1) (y :: t)
  | _, _ => none

/-- The end of a heater step; at the last, the heater code. -/
def State.calHeater (s : State) (p : CalPass) (e : CalElem) : CalElem :=
  let t := e.ownOth e.means
  let e := { e with heat := (calShare t.1 t.2, e.hp) :: e.heat }
  if p.step + 1 < s.calNb then e
  else match quadStep 0 e.heat.reverse with
  | some (j, hp) => { e with bq := s.sweepCode Reg.CAL_B_SWEEP s.calNb j, heatP := low 16 hp }
  | none => s.calResult e 5 {}

/-- Shares of the drive A sweep, oldest first. -/
def CalElem.shares (e : CalElem) : List Nat := e.taps.reverse.map fun t => calShare (e.ownOth t).1 (e.ownOth t).2

/-- Transmission τ of a VOA step (R297). -/
def voaTau (t : Nat × Nat) : Nat := if t.1 = 0 then 0 else min 0x7FFF (32768 * t.2 / t.1)

/-- The end of a drive A step; at the last, A_RANGE where an extreme lies at an end. -/
def State.calSweepA (s : State) (p : CalPass) (e : CalElem) : CalElem :=
  let e := { e with taps := e.means :: e.taps }
  if p.step + 1 < s.calNa ∨ p.kind ≠ 0 then e
  else
    let last := s.calNa - 1
    let ib := argMax e.shares
    let ic := argMin e.shares
    if ib = 0 ∨ ib = last ∨ ic = 0 ∨ ic = last then s.calResult e 6 {} else e

/-- The values of a cell, and whether RK is in range (R295, R296). -/
def State.calCellRec (s : State) (e : CalElem) : CalRec × Bool :=
  let ib := argMax e.shares
  let ic := argMin e.shares
  let l := e.taps.reverse
  let tb := l.getD ib (0, 0)
  let tc := l.getD ic (0, 0)
  let p0 := if e.lower then tc.1 else tb.1
  let p1 := if e.lower then tb.2 else tc.2
  let rk := if p0 = p1 then 0 else 32768 * min p0 p1 / max p0 p1
  let ts := decide (p0 < p1)
  let lam (t : Nat × Nat) : Nat :=
    let c := correctTaps rk ts t.1 t.2
    calShare (min c.1 c.2) (max c.1 c.2)
  let a (i : Nat) : Nat := s.sweepCode Reg.CAL_A_SWEEP s.calNa i
  ({ ts := ts, aBar := a ib, aCross := a ic, parkA := a ib, parkB := e.bq, rk := rk, heatP := e.heatP
     lamBar := lam tb, lamCross := lam tc }, rk = 0 || decide (rk ≥ 0x6000))

/-- The values of a VOA (R297). -/
def State.calVoaRec (s : State) (e : CalElem) : CalRec :=
  let ts := e.taps.reverse.map voaTau
  let i := argMax ts
  { parkA := s.sweepCode Reg.CAL_A_SWEEP s.calNa i, tmax := ts.getD i 0 }

/-- The end of the closing reference. -/
def State.calClose (s : State) (e : CalElem) : CalElem :=
  let (m0, m1) := e.means
  let isCell := match e.elem with | .cell _ => true | _ => false
  let ref1 := if isCell then m0 + m1 else m0
  if calDrift ref1 e.ref0 > s.fld Reg.CAL_STAB_LIMIT 0 16 then s.calAgain e 3
  else if isCell then
    let (r, ok) := s.calCellRec e
    if ok then s.calResult e 1 r else s.calResult e 7 {}
  else s.calResult e 1 (s.calVoaRec e)

/-- Every VOA that can tell whether its input port is lit has its first CAL_AVG samples (R292). A VOA on an absent EFE has none and
is not waited for (DESIGN CHOICE); CAL_TIMEOUT bounds the wait for the others. -/
def State.calLightDone (s : State) (p : CalPass) : Bool :=
  s.slots.all fun e =>
    match e.2 with
    | .voa i => s.absent (efeOf e.1) || decide ((Sparse.get (0, 0) i p.light).1 ≥ s.calAvg)
    | _ => true

/-- Every element still in the attempt has its samples, and in the opening reference of a pass of cells the light is judged. -/
def State.calDue (s : State) (p : CalPass) : Bool :=
  !s.bit Reg.CAL_STAT 1 && (p.elems.all fun e => !e.on || decide (e.n ≥ s.calAvg))
    && (p.kind != 0 || p.phase != 0 || s.calLightDone p)

/-- The pass moves to its next measurement, or the attempt ends. -/
def State.calNextStep (s : State) (p : CalPass) : CalPass :=
  let hs := s.fld Reg.CAL_HSETTLE 0 16
  let heat (j : Nat) (settle : Nat) : CalPass :=
    s.calMeasure p 1 j settle fun _ => (s.calMid, s.sweepCode Reg.CAL_B_SWEEP s.calNb j)
  let sweep (i : Nat) (settle : Nat) : CalPass :=
    s.calMeasure p 2 i settle fun e => (s.sweepCode Reg.CAL_A_SWEEP s.calNa i, if p.kind = 0 then e.bq else 0)
  if p.phase = 0 then (if p.kind = 0 then heat 0 hs else sweep 0 hs)
  else if p.phase = 1 then (if p.step + 1 < s.calNb then heat (p.step + 1) hs else sweep 0 hs)
  else if p.phase = 2 then
    (if p.step + 1 < s.calNa then sweep (p.step + 1) 0 else s.calMeasure p 3 0 hs fun e => (s.calMid, e.bStart))
  else p

/-- A measurement is complete (R294). -/
def State.calMeasured (s : State) : State :=
  match s.cal.pass with
  | none => s
  | some p =>
    if !s.calDue p then s
    else
      let q := p.mapOn fun e =>
        if p.phase = 0 then s.calRef p e else if p.phase = 1 then s.calHeater p e
        else if p.phase = 2 then s.calSweepA p e else s.calClose e
      s.calGoOn (s.calNextStep q)

/-- The attempt has exceeded CAL_TIMEOUT ticks (R298). -/
def State.calTimeout (s : State) : State :=
  match s.cal.pass with
  | none => s
  | some p =>
    if s.bit Reg.CAL_STAT 1 ∨ (s.now - p.begun).toNat ≤ (s.reg Reg.CAL_TIMEOUT).toNat then s
    else s.calGoOn (p.mapOn fun e => s.calResult e 0xA {})

/-- Elements whose composed state changed optical state at this boundary leave the attempt (R298). -/
def State.calDisturb (s : State) (old : Sparse Nat) : State :=
  match s.cal.pass with
  | none => s
  | some p =>
    let hit (e : CalElem) : Bool :=
      match e.elem with | .cell c => crossed (codeOf old c) != crossed (s.code0 c) | _ => false
    if p.elems.any fun e => e.on && hit e then s.calGoOn (p.mapOn fun e => if hit e then s.calAgain e 9 else e) else s

/-! ### Stages, stores and boot (R301, R305, R306) -/

/-- CAL_CTRL.STAGE. -/
def State.calStage (s : State) : State :=
  if !s.roleActs then s.calRes 1
  else if s.calBusy then s.calRes 2
  else (s.calRes 0).setBit Reg.CAL_STAT 2 true

/-- A stage completes. -/
def State.calStageDone (s : State) : State :=
  if !s.bit Reg.CAL_STAT 2 then s
  else
    let (s, bank) := (s.setBit Reg.CAL_STAT 2 false).calSeqs
    let s := s.setBit Reg.CAL_STAT 6 bank.isNone
    let s := match bank with
      | some b =>
        let t := s.calTable b
        let keys := uniq ((s.cal.staged.map fun (e : Nat × CalRec) => e.1) ++ t.map fun (e : Nat × CalRec) => e.1)
        let s := { s.setBit Reg.CAL_STAT 3 true with cal := { s.cal with staged := t, stagedBank := some b } }
        s.journalWords ((keys.flatMap fun k =>
          let r := (Sparse.get ({} : CalRec) k t).bytes
          (List.range 16).map fun i => (0xFF300000 + 64 * k + 4 * i, leAt r (4 * i) 4)) ++ [(0xFF3C0000, 1)])
      | none => s.calRes 8
    s.raise pCAL 2

/-- CAL_CTRL.STORE: the commit word of the bank to be written becomes 0 first. -/
def State.calStore (s : State) : State :=
  if !s.roleActs then s.calRes 1
  else if s.calBusy then s.calRes 2
  else if !s.cal.results.any (·.2.status == 1) then s.calRes 9
  else
    let s := (s.calRes 0).setBit Reg.CAL_STAT 4 true
    let other := match chooseBank (s.calSeq? 0) (s.calSeq? 1) with | some b => 1 - b | none => 0
    s.storeN (calBank other + 0x40) 8 0

/-- A store completes: records, header and commit word (R305). -/
def State.calStoreDone (s : State) : State :=
  if !s.bit Reg.CAL_STAT 4 then s
  else
    let base := chooseBank (s.calSeq? 0) (s.calSeq? 1)
    let other := match base with | some b => 1 - b | none => 0
    let seq := match base with | some b => ((s.calSeq? b).getD 0 + 1) % 2 ^ 32 | none => 1
    let a := calBank other
    let s := match base with
      | some b => s.copyMem (calBank b + 0x1000) (a + 0x1000) 786432
      | none => s.clearMem (a + 0x1000) (a + 0x1000 + 786432)
    let s := s.cal.results.foldl (fun (s : State) e =>
      if e.2.status = 1 then s.setBytes (a + 0x1000 + 64 * e.1) e.2.bytes else s) s
    let topoId := match s.topo with | some t => t.topoId | none => 0
    let s := s.setBytes a (toLE 4 0x424C4143 ++ toLE 2 1 ++ toLE 2 12288 ++ toLE 4 seq ++ toLE 4 topoId
      ++ List.replicate 48 (0 : Byte))
    let s := s.storeN (a + 0x3C) 4 (s.calCrc other)
    let s := s.storeN (a + 0x40) 8 (0xCA1B + 65536 * other + 2 ^ 32 * seq)
    (s.setBit Reg.CAL_STAT 4 false).calSeqs.1.raise pCAL 1

/-- At boot the bank chosen comes into force, or the all-zero records when there is none (R306). -/
def State.calBoot (s : State) : State :=
  let (s, bank) := s.calSeqs
  let s := s.setBit Reg.CAL_STAT 6 bank.isNone
  match bank with
  | some b => { s.setBit Reg.CAL_STAT 7 (b == 1) with cal := { s.cal with force := s.calTable b } }
  | none => { s with cal := { s.cal with force := [] } }

/-! ### Commits (R302) -/

/-- The tests of a CAL commit for tick `k`: 0 OK, else the code. -/
def State.calTests (s : State) (k : Tick) (tickTest : Bool) : Nat :=
  if !s.roleActs then 1
  else if !s.bit Reg.CAL_STAT 3 then 5
  else if tickTest && decide (k.toNat < s.now.toNat + 2) then 6
  else if s.pendingOn pCAL then 2
  else 0

/-- CAL_STAT.DEFERRED follows, and DEFERRED_DONE when it falls to 0. -/
def State.calDeferred (s : State) : State :=
  let was := s.fld Reg.CAL_STAT 16 14
  let s := s.setFld Reg.CAL_STAT 16 14 s.cal.wait.length
  s.raiseIf (was != 0 && s.cal.wait.isEmpty) pCAL 6

/-- The cells that wait for values at boundary `m`: those of a commit due by then, which replace the ones still waiting. -/
def State.calWaiting (s : State) (m : Tick) : List (Nat × CalRec) :=
  match s.commitOf? pCAL with
  | some c =>
    if c.b.toNat ≤ m.toNat ∧ !c.collected then
      s.slots.filterMap fun e => match e.2 with | .cell _ => some (e.1, Sparse.get {} e.1 s.cal.staged) | _ => none
    else s.cal.wait
  | none => s.cal.wait

/-- Cycle O + 50: the cells that take their values at boundary t + 2 (R302). -/
def State.calCompose (s : State) : State :=
  let m := s.now + 2
  let l := ((s.calWaiting m).filter fun w => !s.cal.next.any fun e => e.2.1 == w.1 && e.2.2 == w.2).filterMap fun w =>
    match s.elem? w.1 with
    | some (.cell c) =>
      if s.code2 c = cPARK ∨ crossed (s.code2 c) ≠ crossed (s.code1 c) then some (m, w.1, w.2) else none
    | _ => none
  { s with cal := { s.cal with next := s.cal.next ++ l } }

/-- A slot takes a record: the values in force and the park codes of its loop. -/
def State.calPut (s : State) (slot : Nat) (r : CalRec) : State :=
  let s := { s with cal := { s.cal with force := Sparse.put {} slot r s.cal.force } }
  s.setLoop slot fun x => { x with parkA := r.parkA, parkB := r.parkB }

/-- The CAL commit due at boundary `n`: VOA, MON and unattached slots take their values, cells wait (R302). -/
def State.calCommitAt (s : State) (n : Tick) : State :=
  match s.commitOf? pCAL with
  | none => s
  | some c =>
    if c.b ≠ n ∨ c.collected then s
    else
      let w := s.calWaiting n
      let isCell (slot : Nat) : Bool := w.any (·.1 == slot)
      let keys := uniq ((s.cal.force.map (·.1)) ++ (s.cal.staged.map (·.1)))
      let s := keys.foldl (fun (s : State) k => if isCell k then s else s.calPut k (Sparse.get {} k s.cal.staged)) s
      let s := { s with cal := { s.cal with wait := w } }
      let s := s.dropCommit pCAL
      let s := (s.setBit Reg.CAL_STAT 7 (s.cal.stagedBank == some 1)).setRegN Reg.CAL_OP_RES 0
      s.raise pCAL 3

/-- Boundary `n`: the cells chosen for it take their values; a cell chosen before a commit replaced its values waits on for
the new ones. -/
def State.calNextAt (s : State) (n : Tick) : State :=
  let (due, keep) := s.cal.next.partition fun e => decide (e.1.toNat ≤ n.toNat)
  let s := due.foldl (fun (s : State) e => s.calPut e.2.1 e.2.2) s
  let s := { s with cal := { s.cal with
    next := keep, wait := s.cal.wait.filter fun w => !due.any fun e => e.2.1 == w.1 && e.2.2 == w.2 } }
  s.calDeferred

/-- A pending CAL commit is cancelled. -/
def State.calCancel (s : State) (b : Tick) : State :=
  let s := s.dropCommit pCAL
  { (s.calRes 7) with cal := { s.cal with next := s.cal.next.filter fun e => decide (e.1.toNat < b.toNat) } }

/-- A write of CAL_CTRL: ABORT, START, STAGE, STORE. -/
def State.calCtrlWrite (s : State) (v : Word) : State :=
  let s := if bitOf v 1 then s.calAbort else s
  let s := if bitOf v 0 then s.calStart else s
  let s := if bitOf v 2 then s.calStage else s
  if bitOf v 3 then s.calStore else s

/-- Word `w` of CAL_WIN (R309). -/
def State.calWin (s : State) (w : Nat) : Nat :=
  let slot := s.fld Reg.CAL_WIN_SEL 0 14
  let t := match s.fld Reg.CAL_WIN_SEL 30 2 with
    | 0 => s.cal.results
    | 1 => s.cal.staged
    | 2 => s.cal.force
    | _ => []
  leAt (Sparse.get ({} : CalRec) slot t).bytes (4 * w) 4

/-! ### The meanings -/

/-- CAL_PASS_START (R291): CAL_CTRL written with START. -/
def execCalPassStart (m : Fin 8) (s : State) : Host.Outcome State Fault Refusal :=
  .next (s.gateWrite m Reg.CAL_CTRL 1 State.calStart)

/-- CAL_MEASUREMENT_DONE (R294). -/
def execCalMeasurementDone (s : State) : Host.Outcome State Fault Refusal := .next s.calMeasured

/-- CAL_ATTEMPT_TIMEOUT (R298). -/
def execCalAttemptTimeout (s : State) : Host.Outcome State Fault Refusal := .next s.calTimeout

/-- CAL_ABORT (R309): CAL_CTRL written with ABORT. -/
def execCalAbort (m : Fin 8) (s : State) : Host.Outcome State Fault Refusal :=
  .next (s.gateWrite m Reg.CAL_CTRL 2 State.calAbort)

/-- CAL_STAGE (R301). -/
def execCalStage (m : Fin 8) (s : State) : Host.Outcome State Fault Refusal :=
  .next (s.gateWrite m Reg.CAL_CTRL 4 State.calStage)

/-- CAL_STAGE_DONE (R301). -/
def execCalStageDone (s : State) : Host.Outcome State Fault Refusal := .next s.calStageDone

/-- CAL_STORE (R305). -/
def execCalStore (m : Fin 8) (s : State) : Host.Outcome State Fault Refusal :=
  .next (s.gateWrite m Reg.CAL_CTRL 8 State.calStore)

/-- CAL_STORE_DONE (R305). -/
def execCalStoreDone (s : State) : Host.Outcome State Fault Refusal := .next s.calStoreDone

end Sys2Proof.Machine
end

