-- ==== Sys2Proof/Machine/Red.lean ====
section
/-! DEFINITION. The redundancy unit: roles, the interlock, claims and epochs (R400 to R414, R421, R434), and the frames it
sends of its own accord on the mirror link. -/

namespace Sys2Proof.Machine

/-- The RED page. -/
abbrev pRED : Nat := 0x007

/-- e1 is newer than e2 in 16-bit serial arithmetic (R100). -/
def newer (e1 e2 : Nat) : Bool :=
  let d := (e1 % 65536 + 65536 - e2 % 65536) % 65536
  decide (1 ≤ d) && decide (d ≤ 32767)

/-- RED_EPOCH.EPOCH. -/
def State.epoch (s : State) : Nat := s.fld Reg.RED_EPOCH 0 16

/-- The seat: 0 A, 1 B. -/
def State.seatB (s : State) : Bool := s.bit Reg.RED_SEAT 0

/-- ILK_OUT asserted. -/
def State.ilkOut (s : State) : Bool := s.bit Reg.RED_STAT 0

/-- ILK_IN asserted. -/
def State.ilkIn (s : State) : Bool := s.bit Reg.RED_STAT 1

/-- Core nanoseconds as a difference of the free-running counter. -/
def State.agedNs (s : State) (from' : BitVec 96) (ns : Nat) : Bool := decide ((s.frcNow - from').toNat ≥ 65536 * ns)

/-- ILK_IN has been deasserted for at least 8 µs (R406). -/
def State.ilkClear (s : State) : Bool :=
  !s.ilkIn && (match s.red.ilkFrom with | some f => s.agedNs f 8000 | none => false)

/-- The heartbeat runs (R68). -/
def State.hbRuns (s : State) : Bool := s.running && s.tck.hbAlive && s.bit Reg.CLK_STAT 2

/-- The newer of two epochs; 0 stands for none. -/
def newest (a b : Nat) : Nat := if a = 0 then b else if b ≠ 0 && newer b a then b else a

/-- The newest epoch known (R408): the own one, those of the partner's frames of the last 1 ms, and every EPOCH_SEEN of the
last 16 ticks. -/
def State.newestEpoch (s : State) : Nat :=
  let a := (s.red.epochs.filter fun e => !s.agedNs e.1 1000001).map (·.2)
  let b := (s.red.seen.filter fun e => decide (s.now.toNat < e.1.toNat + 16)).map (·.2)
  (a ++ b).foldl newest s.epoch

/-- The epoch a claim or TO_PAIR takes: the newest plus 1, with 0 replaced by 1 (R408). -/
def State.nextEpoch (s : State) : Nat :=
  let e := (s.newestEpoch + 1) % 65536
  if e = 0 then 1 else e

/-- A frame of the CTRL kind (R417): operation, tick, epoch and result. -/
def State.sendCtrl (s : State) (op : Nat) (t : Tick) (epoch result : Nat) : State :=
  s.sendMirror 0x67 s.now 0 (padTo 32 (toLE 1 op ++ List.replicate 7 (0 : Byte) ++ toLE 8 t.toNat ++ toLE 2 epoch ++ toLE 1 result))

/-! ### Trapeze ends seen from either side (R432) -/

/-- A Trapeze runs on this device as the one that catches up. -/
def State.trapRuns (s : State) : Bool := s.red.asked || s.trapPhase != 0

/-- The Trapeze ends on the standby with a result; what was copied stays (R432), and the mirror agent's access is reset (R478). -/
def State.trapEnd (s : State) (res : Nat) : State :=
  let s := { s with red := { s.red with
    asked := false, queue := [], ctxIn := [], cutIn := [], past := [], syncAt := none, snapRun := (0, 0) } }
  (((s.setFld Reg.RED_TRAP 8 3 0).setFld Reg.RED_TRAP 0 4 res).raise pRED 5).resetMaster 3

/-- The Trapeze ends, if one runs. -/
def State.trapStop (s : State) (res : Nat) : State := if s.trapRuns then s.trapEnd res else s

/-- The active no longer serves; without a synced partner the journal stops too. -/
def State.serveStop (s : State) (keep : Bool) : State :=
  { s with red := { s.red with serve := none, journal := keep && s.red.journal, jOut := if keep then s.red.jOut else [] } }

/-! ### Role changes (R403 to R405, R411) -/

/-- What ends when the device leaves the roles that act: its solver jobs, and what waits on its ports (R237, R316, R360). -/
def State.actsNoMore (s : State) : State := (s.tick1.jobCancelAll (Config.solverCycles s.fresh)).gatePorts

/-- The role changes: RED_ROLE, ACT_OUT, LEADER, and INT_STAT bit 0. A device that leaves role solo abandons its calibration pass
(R24, R300); a period change or stop that waits may lose a condition (R69, R71). -/
def State.setRole (s : State) (r : Nat) : State :=
  if s.role = r then s
  else
    let from' := s.role
    let s := s.setFld Reg.RED_ROLE 0 3 r
    let s := s.setBit Reg.RED_STAT 2 (r == 0 || r == 1)
    let s := s.setBit Reg.RED_ROLE 4 (from' == 1 && r == 2)
    let s := if from' = 1 then s.serveStop false else s
    let s := if r = 2 then s else { s with red := { s.red with missRun := 0 } }
    let s := if from' = 0 then s.calAbort else s
    let s := if from' ≤ 1 ∧ 1 < r then s.actsNoMore else s
    (s.stopWatch.tckWatch).raise pRED 0

/-- ILK_OUT is dropped and a device in role solo or active becomes standby-unsynced; a claim in progress ends (R410). -/
def State.dropInterlock (s : State) : State :=
  let s := (s.setBit Reg.RED_STAT 0 false).setBit Reg.RED_STAT 4 false
  let s := { s with red := { s.red with claimFrom := none, roleAt := none, release := false } }
  if s.roleActs then s.setRole 3 else s

/-- A divergence or difference is recorded (R414, R425). -/
def State.recordDiv (s : State) (cause : Nat) (t : Tick) : State :=
  let s := s.setRegN Reg.RED_DIV cause
  let s := s.setReg64 Reg.RED_DIV_TICK t.toNat
  (s.logEvent pRED 7 0x60 cause (t.toNat % 2 ^ 32)).raise pRED 4

/-- A standby-synced device becomes diverged at the next boundary; an active records the difference (R403, R414, R425). -/
def State.diverge (s : State) (cause : Nat) (t : Tick) : State :=
  if s.role = 2 then
    if s.red.roleAt.isSome then s
    else
      let s := (s.recordDiv cause t).count (Reg.RED_CNT + 16)
      { s with red := { s.red with roleAt := some (s.now + 1, 4) } }
  else if s.role = 1 then s.recordDiv cause t
  else s

/-! ### Claims (R406 to R409) -/

/-- A claim or TO_PAIR ends with a result. -/
def State.claimRes (s : State) (code : Nat) : State := (s.setRegN Reg.RED_CLAIM_RES code).raise pRED 1

/-- A refused claim is disarmed. -/
def State.claimRefused (s : State) (code : Nat) : State := (s.setBit Reg.RED_CLAIM 0 false).claimRes code

/-- RED_CLAIM is written (R401, R406). -/
def State.claimWrite (s : State) (v : Word) : State :=
  let s := s.storeReg Reg.RED_CLAIM v
  if bitOf v 0 && s.bit Reg.RED_SEAT 2 then s.claimRefused 4 else s

/-- The conditions under which an armed claim is attempted hold (R406). -/
def State.claimReady (s : State) : Bool :=
  s.bit Reg.RED_CLAIM 0 && s.ilkClear && s.hbRuns && !s.roleActs && (s.role == 2 || s.bit Reg.RED_CLAIM 2)
    && s.red.claimFrom.isNone && !s.off && s.pwr.seqCause.isNone

/-- Some EPOCH_SEEN received in the last 16 ticks is non-zero (R409). -/
def State.epochInUse (s : State) : Bool :=
  s.red.seen.any fun e => decide (s.now.toNat < e.1.toNat + 16) && e.2 != 0

/-- An armed claim is attempted (R406, R409). -/
def State.claimAttempt (s : State) : State :=
  if !s.claimReady then s
  else if s.bit Reg.RED_SEAT 2 then s.claimRefused 4
  else if s.bit Reg.RED_CLAIM 1 && s.epochInUse then s.claimRefused 3
  else
    let s := s.trapStop 8
    let s := (s.setBit Reg.RED_STAT 0 true).setBit Reg.RED_STAT 4 true
    { s with red := { s.red with claimFrom := some s.frcNow } }

/-- RED_EPOCH takes a value. -/
def State.setEpoch (s : State) (e : Nat) : State :=
  let s := s.setFld Reg.RED_EPOCH 0 16 e
  s.setFld Reg.RED_EPOCH 16 16 s.newestEpoch

/-- The epoch that the frames of the present tick carry: RED_EPOCH, but 0 in role solo, and the one before a completed claim until
its boundary k (R402, R408). -/
def State.frameEpoch (s : State) : Nat :=
  if s.role = 0 then 0
  else match s.red.oldEpoch with
  | some (k, e) => if s.now.toNat < k.toNat then e else s.epoch
  | none => s.epoch

/-- The boundary at or after the present moment (R408). -/
def State.boundaryFrom (s : State) : Tick := if s.ntu.cyc = 0 then s.now else s.now + 1

/-- Roles that were to change at a boundary reached change now (R403). -/
def State.takeRole (s : State) : State :=
  match s.red.roleAt with
  | some (k, r) =>
    if k.toNat ≤ s.now.toNat then ({ s with red := { s.red with roleAt := none } }).setRole r else s
  | none => s

/-- The confirm window ends: the claim completes (R407, R408). -/
def State.claimed (s : State) : State :=
  match s.red.claimFrom with
  | none => s
  | some f =>
    if !s.agedNs f 1000 then s
    else
      let s := if s.ilkIn && !s.seatB then (s.count (Reg.RED_CNT + 4)).raise pRED 2 else s
      let k := s.boundaryFrom
      let s := { s with red := { s.red with oldEpoch := some (k, s.epoch) } }
      let s := s.setEpoch s.nextEpoch
      let s := s.count Reg.RED_CNT
      let s := (s.setRegN Reg.RED_CLAIM_TICK (k.toNat % 2 ^ 32)).setBit Reg.RED_CLAIM 0 false
      let s := s.setBit Reg.RED_STAT 4 false
      let r := if s.bit Reg.RED_CLAIM 1 then 0 else 1
      let s := { s with red := { s.red with claimFrom := none, roleAt := some (k, r) } }
      let s := s.sendCtrl 6 k s.epoch 0
      (s.claimRes 1).takeRole

/-- ILK_IN asserts: a device of seat B that holds ILK_OUT withdraws (R407). -/
def State.ilkAssert (s : State) : State :=
  let s := s.setBit Reg.RED_STAT 1 true
  let s := { s with red := { s.red with ilkFrom := none } }
  if s.seatB && s.ilkOut then
    let inWindow := s.red.claimFrom.isSome
    let s := s.dropInterlock
    if inWindow then ((s.count (Reg.RED_CNT + 4)).claimRes 2).raise pRED 2 else s
  else s

/-- ILK_IN deasserts (R406, R435). -/
def State.ilkDeassert (s : State) : State :=
  if s.ilkIn then
    ({ s.setBit Reg.RED_STAT 1 false with red := { s.red with ilkFrom := some s.frcNow } }).raise pRED 3
  else s

/-- TO_PAIR (R409): solo becomes active at the next boundary with a new epoch; refused otherwise, and while orphaned. -/
def State.toPair (s : State) : State :=
  if s.role ≠ 0 ∨ s.orphaned ∨ s.red.roleAt.isSome then s.claimRes 5
  else
    let s := s.setEpoch s.nextEpoch
    ({ s with red := { s.red with roleAt := some (s.now + 1, 1) } }).claimRes 1

/-- RELEASE (R410): the interlock is dropped at the next boundary; ignored outside role solo and active. -/
def State.releaseIlk (s : State) : State :=
  if s.roleActs then { s with red := { s.red with release := true } } else s

/-- The partner's role by its latest HELLO; 0xF unknown. -/
def State.partnerRole (s : State) : Nat := s.fld Reg.RED_ROLE 8 4

/-- A boundary is reached: RELEASE, role changes and epochs take effect before the frames of the tick are built
(R403, R410, R412, R413). -/
def State.redBoundary (s : State) : State :=
  let s := s.takeRole
  let s := if s.red.release && s.roleActs then
      let to' := if s.role = 1 ∧ s.partnerRole = 2 then 2 else 3
      let s := s.setBit Reg.RED_STAT 0 false
      ({ s with red := { s.red with release := false } }).setRole to'
    else { s with red := { s.red with release := false } }
  let s := match s.red.epochAt with
    | some (k, e) =>
      if k.toNat ≤ s.now.toNat then
        let s := { s with red := { s.red with epochAt := none } }
        if s.role = 2 then s.setEpoch e else s
      else s
    | none => s
  if s.red.stale then
    let s := { s with red := { s.red with stale := false } }
    (if s.roleActs then s.dropInterlock else s).raise pRED 8
  else s

/-! ### EPOCH_SEEN and APPLIED at cycle O (R408, R413, R414) -/

/-- The ports whose upstream frame of the present tick came. -/
def State.gotPorts (s : State) : List Nat := (List.range 16).filter fun n => (s.port n).gotTick == some s.now

/-- Cycle O: the epochs seen by the EFEs and their MISMATCH reports are read. -/
def State.readEfes (s : State) : State :=
  let g := s.gotPorts
  let new := g.map fun n => (s.now, (s.port n).epochSeen)
  let s := { s with red := { s.red with
    seen := (new ++ s.red.seen).filter fun e => decide (s.now.toNat < e.1.toNat + 16) } }
  let s := s.setFld Reg.RED_EPOCH 16 16 s.newestEpoch
  let s := if new.any fun e => e.2 != 0 && newer e.2 s.epoch then
      let s := if s.roleActs then s.dropInterlock else if s.role = 2 then s.setRole 3 else s
      s.raise pRED 8
    else s
  if g.any fun n => (s.port n).applied == 3 then s.diverge 3 s.now else s

/-! ### The trigger set of a pair (R20, R411, R418) -/

/-- This device sends the trigger sets: the active, or the leader while neither device is active. -/
def State.trigSender (s : State) : Bool := s.role == 1 || (s.bit Reg.RED_ROLE 4 && s.partnerRole != 1)

/-- A device whose set comes from its partner (R20, R411). -/
def State.trigFollower (s : State) : Bool := s.role == 2 && !s.bit Reg.RED_ROLE 4

/-- The body of a TRIG frame. -/
def trigBody (x : TrigSet) : List Byte :=
  toLE 1 x.pinAct ++ toLE 1 x.pinEv ++ toLE 1 (b2n x.safe) ++ toLE 1 (min 6 x.cmds.length) ++ toLE 8 x.almAct
    ++ toLE 8 x.almEv ++ padTo 12 ((x.cmds.take 6).flatMap fun c => toLE 2 (c.1 + 256 * c.2))

/-- The set a TRIG frame's body holds. -/
def readTrig (l : List Byte) : TrigSet :=
  { pinAct := leAt l 0 1, pinEv := leAt l 1 1, safe := bitAt (leAt l 2 1) 0, almAct := leAt l 4 8, almEv := leAt l 12 8
    cmds := (List.range (min 6 (leAt l 3 1))).map fun i => let w := leAt l (20 + 2 * i) 2; (w % 256, w / 256 % 4) }

/-- The closed set of the present tick is sent, once. -/
def State.sendTrig (s : State) : State :=
  if s.trigSender && s.evt.closed && s.red.trigSent != some s.now then
    ({ s with red := { s.red with trigSent := some s.now } }).sendMirror 0x62 s.now 0 (trigBody s.evt.ext)
  else s

/-- Cycle O: a follower takes its partner's set, or its own when that has not come (R20, R411). -/
def State.takeTrig (s : State) : State :=
  if !s.trigFollower then { s.setBit Reg.RED_STAT 8 false with red := { s.red with trigOwn := false } }
  else match s.red.trig with
  | some (t, x) =>
    if t = s.now then
      let s := { s.setBit Reg.RED_STAT 8 false with
                evt := { s.evt with ext := x }
                red := { s.red with
                  trigOwn := false
                  pinLast := (setBits 8 x.pinEv).foldl (fun (m : Sparse Nat) k => Sparse.put 0 k (t.toNat % 65536) m) s.red.pinLast } }
      if x.safe && !s.rce.safeAt.contains (s.now + 2)
      then { s with rce := { s.rce with safeAt := s.rce.safeAt ++ [s.now + 2] } } else s
    else { (s.count (Reg.RED_CNT + 12)).setBit Reg.RED_STAT 8 true with red := { s.red with trigOwn := true } }
  | none => { (s.count (Reg.RED_CNT + 12)).setBit Reg.RED_STAT 8 true with red := { s.red with trigOwn := true } }

/-! ### HELLO (R417) -/

/-- The link is up once HELLO frames have gone both ways with a lane in service (R415). -/
def State.mirUpdate (s : State) : State :=
  s.setBit Reg.RED_STAT 6 (s.mirLanes != 0 && s.red.helloTx && s.red.helloRx)

/-- A HELLO frame is sent. -/
def State.sendHello (s : State) : State :=
  if s.mirDark || s.mirLanes == 0 then s
  else
    let body := toLE 4 0x4B460400 ++ toLE 4 (match s.topo with | some t => t.topoId | none => 0) ++ toLE 2 s.newestEpoch
      ++ toLE 1 s.trapPhase ++ toLE 1 (s.fld Reg.RED_CFG 0 1) ++ toLE 2 (s.fld Reg.NTU_NODE 0 14)
    let s := s.emitMirror (s.mirrorFrame 0x61 s.now 0 (padTo 32 body))
    ({ s with red := { s.red with helloTx := true } }).mirUpdate

/-! ### The mirror link's lanes (R415, R434) -/

/-- RED_MIR.STATE. -/
def State.mirState (s : State) : Nat := s.fld Reg.RED_MIR 8 4
/-- RED_MIR_CTRL.LANE_EN. -/
def State.mirEn (s : State) : Nat := s.fld Reg.RED_MIR_CTRL 0 4
/-- The retired lanes. -/
def State.mirRet (s : State) : Nat := s.fld Reg.RED_MIR 4 4

/-- The mirror link goes down: any Trapeze ends with LINK, the partner's trigger sets and journal are gone (R415, R432), and the mirror
agent's access is reset (R478). -/
def State.mirrorDown (s : State) : State :=
  let was := s.mirrorUp
  let s := { s with red := { s.red with helloTx := false, helloRx := false, echoing := false, echoes := [] } }
  let s := (s.setFld Reg.RED_MIR 0 4 0).mirUpdate
  let s := ((s.trapStop 4).serveStop false).resetMaster 3
  s.raiseIf was pRED 9

/-- Lane `k` of the mirror link retires, or counts as retired (R82, R104). -/
def State.mirLaneOut (s : State) (k : Nat) : State :=
  let s := s.setFld Reg.RED_MIR 4 4 (s.mirRet ||| 2 ^ k)
  (s.setFld Reg.RED_MIR 0 4 (s.mirLanes &&& (15 ^^^ 2 ^ k))).retire pRED k 0x10 k

/-- Each lane of a mask retires. -/
def State.mirLanesOut (s : State) (m : Nat) : State := (setBits 4 m).foldl (fun (s : State) k => s.mirLaneOut k) s

/-- Lanes `m` of the mirror link are no longer retired. -/
def State.mirLanesBack (s : State) (m : Nat) : State :=
  (setBits 4 m).foldl (fun (s : State) k => s.unretire pRED k) (s.setFld Reg.RED_MIR 4 4 (s.mirRet &&& (15 ^^^ m)))

/-- The link has no lane left: DOWN (R82). -/
def State.mirNoLane (s : State) : State :=
  let s := { s with red := { s.red with training := 0, trained := 0, aligned := 0 } }
  s.mirrorDown.setFld Reg.RED_MIR 8 4 8

/-- An attempt begins on the lanes that it may train and LANE_EN allows; the others count as retired, and with none left the link
enters DOWN (R82). -/
def State.mirBegin (s : State) : State :=
  let s := s.mirrorDown
  let en := s.mirEn &&& s.red.attempt
  let s := (s.mirLanesBack en).mirLanesOut (15 ^^^ en)
  let s := { s with red := { s.red with training := en, trained := 0, aligned := 0 } }
  let s := s.setPort 16 fun p => { p with lost := 0, unlocked := 0 }
  if en = 0 then s.mirNoLane else s.setFld Reg.RED_MIR 8 4 2

/-- A training attempt of the whole link begins (R82, R108). -/
def State.mirTrain (s : State) : State := ({ s with red := { s.red with attempt := 15 } }).mirBegin

/-- Lanes `m` come into service: RUN, and a HELLO on link-up (R415, R417). -/
def State.mirLanesUp (s : State) (m : Nat) : State :=
  let first := s.mirLanes == 0
  let s := (s.mirLanesBack m).setFld Reg.RED_MIR 0 4 (s.mirLanes ||| m)
  let s := { s with red := { s.red with training := s.red.training &&& (15 ^^^ m), trained := s.red.trained &&& (15 ^^^ m) } }
  let s := s.setFld Reg.RED_MIR 8 4 7
  if first then
    let s := s.sendHello
    ({ s with red := { s.red with echoing := true, echoes := [] } }).mirEchoReq 0
  else s

/-- Clause 136 training has completed on the lanes `m` (R82): in PMD_TRAIN the link goes on and the others retire, later on these
are lanes under RESTORE. -/
def State.mirPmdDone (s : State) (m : Nat) : State :=
  let got := s.red.training &&& m
  if got = 0 then s
  else if s.mirState = 2 then
    let bad := s.red.training &&& (15 ^^^ got)
    let s := { s with red := { s.red with trained := got, aligned := 0 } }
    (s.mirLanesOut bad).setFld Reg.RED_MIR 8 4 3
  else { s with red := { s.red with trained := s.red.trained ||| got } }

/-- ALIGN blocks that lane `k` of the mirror link has seen in place, at most 2. -/
def State.mirAligned (s : State) (k : Nat) : Nat := bits s.red.aligned (2 * k) 2

/-- The lane has seen `n` of them. -/
def State.mirSetAligned (s : State) (k n : Nat) : State :=
  { s with red := { s.red with aligned := s.red.aligned - s.mirAligned k * 2 ^ (2 * k) + n * 2 ^ (2 * k) } }

/-- The trained lanes of the mirror link that are locked (R80). -/
def State.mirLocked (s : State) : Nat := maskOf ((setBits 4 s.red.trained).filter fun k => s.mirAligned k == 2)

/-- An ALIGN block on a lane: the first sets the codeword boundaries, a second in its place locks the lane (R80); an attempt whose
trained lanes are all locked comes up, and a restored lane joins the link. -/
def State.mirAlign (s : State) (k : Nat) (inPlace : Bool) : State :=
  let n := if inPlace then min 2 (s.mirAligned k + 1) else 1
  let s := s.mirSetAligned k n
  let s := if n = 2 then s.setPort 16 fun p => { p with unlocked := p.unlocked &&& (15 ^^^ 2 ^ k) } else s
  let m := s.mirLocked
  if m = 0 then s
  else if s.mirState = 3 then (if m = s.red.trained then s.mirLanesUp m else s)
  else if s.mirState = 7 then s.mirLanesUp m
  else s

/-- Loss of lock on lane `k`: its third ALIGN block in a row is missing from its place (R80, R104). -/
def State.mirAlignMissing (s : State) (k : Nat) : State :=
  (s.mirSetAligned k 0).setPort 16 fun p => { p with lost := p.lost ||| 2 ^ k, unlocked := p.unlocked ||| 2 ^ k }

/-- A training state's limit expires (R82, R108): in LOCK the lanes that locked go on without the others; an attempt without any
waits and trains again; lanes under RESTORE stay retired. -/
def State.mirTimeout (s : State) : State :=
  let m := s.mirLocked
  if s.mirState = 3 ∧ m ≠ 0 then (s.mirLanesOut (s.red.trained &&& (15 ^^^ m))).mirLanesUp m
  else
    let st := s.mirState
    let s := { s with red := { s.red with training := 0, trained := 0 } }
    if st = 2 ∨ st = 3 then s.setFld Reg.RED_MIR 8 4 1 else s

/-- The 10 ms of WAIT are over (R82). -/
def State.mirRetry (s : State) : State := if s.mirState = 1 then s.mirBegin else s

/-- Lane `k` of the mirror link in service retires; without another the link goes down (R415). -/
def State.mirLaneRetire (s : State) (k : Nat) : State :=
  if !bitAt s.mirLanes k then s
  else if s.mirLanes = 2 ^ k then (s.mirLaneOut k).mirNoLane
  else s.mirLaneOut k

/-- Cycle O: the mirror lanes' counts for the tick (R104, R415): a lane without signal or lock is at fault. Of R104's other
conditions the RED page has no limit of corrected symbols, and no frame on the link reports on the other direction (DEDUCED). -/
def State.mirJudge (s : State) (noSignal : Nat) : State :=
  let lost := noSignal ||| (s.port 16).lost ||| (s.port 16).unlocked
  let s := s.setPort 16 fun p => { p with lost := 0 }
  (setBits 4 s.mirLanes).foldl (fun (s : State) k =>
    let s := if bitAt lost k then s.chanFault pRED k 0x01 k else s.chanOk pRED k
    if s.isDue pRED k then s.mirLaneRetire k else s) s

/-- RESTORE of retired lanes whose LANE_EN bit is 1 (R108, R415): from DOWN in an attempt of these lanes alone, else beside the
lanes in service; before that they join the next attempt. -/
def State.mirRestore (s : State) (m : Nat) : State :=
  let t := m &&& s.mirRet &&& s.mirEn
  if t = 0 then s
  else if s.mirState = 8 then ({ s with red := { s.red with attempt := t } }).mirBegin
  else
    let s := { s with red := { s.red with attempt := s.red.attempt ||| t } }
    if s.mirState = 1 then s
    else
      let s := (setBits 4 t).foldl (fun (s : State) k => s.mirSetAligned k 0) s
      { s with red := { s.red with training := s.red.training ||| t, trained := s.red.trained &&& (15 ^^^ t) } }

/-- RED_MIR_CTRL is written: LANE_EN, then RETRAIN and RESTORE (R434). -/
def State.mirCtrlWrite (s : State) (v : Word) : State :=
  let s := s.storeReg Reg.RED_MIR_CTRL v
  let s := (setBits 4 (s.mirLanes &&& (15 ^^^ s.mirEn))).foldl (fun (s : State) k => s.mirLaneRetire k) s
  let s := s.mirRestore (Machine.fld v 4 4)
  if bitOf v 8 then s.mirTrain else s

/-- An echo exchange of the mirror link completes with a round trip of `r` UI (R85, R415): after eight that span at most
4 UI, d is half their mean less T_E of 3,200 UI. -/
def State.mirEcho (s : State) (q r : Nat) : State :=
  if !s.red.echoing ∨ q ≠ s.red.echoes.length then s
  else
    let l := s.red.echoes ++ [r]
    if l.length < 8 then ({ s with red := { s.red with echoes := l } }).mirEchoReq l.length
    else
      let s := { s with red := { s.red with echoes := [], echoing := false } }
      if l.foldl max 0 - l.foldl min r > 4 then s
      else s.setFld Reg.RED_MIR 16 16 (((l.map fun (x : Nat) => (x : Int) - 3200).foldl (· + ·) 0).fdiv 16).toNat

/-! ### CATCH (R428) -/

/-- RED_CTRL.CATCH; ignored while a Trapeze is under way. -/
def State.catchStart (s : State) : State :=
  if s.trapRuns then s
  else if s.role ≠ 3 ∧ s.role ≠ 4 then s.trapEnd 2
  else if !s.mirrorUp then s.trapEnd 4
  else if !(match s.red.hello with | some h => h.role == 1 && h.serve | none => false) || !s.ilkIn then s.trapEnd 3
  else
    let s := s.setRegN Reg.RED_TRAP 0
    let s := { s with red := { s.red with
      asked := true, snapSeq := 0, jSeq := 0, snapBytes := 0, snapRun := (0, 0), jRun := (0, 0), queue := []
      ctxIn := [], cutIn := [], descIn := [], past := [], syncAt := none } }
    s.sendCtrl 1 s.now 0 0

/-- RED_CTRL.ABORT_CATCH: the Trapeze ends with ABORTED on both devices (R432). -/
def State.abortCatch (s : State) : State :=
  if s.trapRuns then (s.sendCtrl 7 s.now 0 8).trapEnd 8
  else if s.red.serve.isSome then ((s.sendCtrl 7 s.now 0 8).serveStop false).raise pRED 5
  else s

/-- A write of RED_CTRL. -/
def State.redCtrlWrite (s : State) (v : Word) : State :=
  let s := if bitOf v 3 then s.abortCatch else s
  let s := if bitOf v 2 then s.catchStart else s
  let s := if bitOf v 1 then s.toPair else s
  if bitOf v 0 then s.releaseIlk else s

/-! ### The meanings -/

/-- CLAIM_ARM (R406): RED_CLAIM written. -/
def execClaimArm (m : Fin 8) (arm solo unsyncedOk : Bool) (s : State) : Host.Outcome State Fault Refusal :=
  let v := BitVec.ofNat 32 (b2n arm + 2 * b2n solo + 4 * b2n unsyncedOk)
  .next (s.gateWrite m Reg.RED_CLAIM v fun s => s.claimWrite v)

/-- CLAIM_ATTEMPT (R406): at core cycle `cycle` after the latest boundary. -/
def execClaimAttempt (cycle : Nat) (s : State) : Host.Outcome State Fault Refusal := .next (s.atCycle cycle).claimAttempt

/-- CLAIMED (R408): the end of the confirm window. -/
def execClaimed (cycle : Nat) (s : State) : Host.Outcome State Fault Refusal := .next (s.atCycle cycle).claimed

/-- ILK_IN_ASSERT (R407). -/
def execIlkInAssert (s : State) : Host.Outcome State Fault Refusal := .next s.ilkAssert

/-- ILK_IN_DEASSERT (R406). -/
def execIlkInDeassert (cycle : Nat) (s : State) : Host.Outcome State Fault Refusal := .next (s.atCycle cycle).ilkDeassert

/-- TO_PAIR (R409). -/
def execToPair (m : Fin 8) (s : State) : Host.Outcome State Fault Refusal :=
  .next (s.gateWrite m Reg.RED_CTRL 2 fun s => s.toPair)

/-- INTERLOCK_RELEASE (R410). -/
def execInterlockRelease (m : Fin 8) (s : State) : Host.Outcome State Fault Refusal :=
  .next (s.gateWrite m Reg.RED_CTRL 1 fun s => s.releaseIlk)

/-- HELLO_TX (R417): the 1 ms timer. -/
def execHelloTx (s : State) : Host.Outcome State Fault Refusal := .next s.sendHello

/-- CATCH (R428). -/
def execCatch (m : Fin 8) (s : State) : Host.Outcome State Fault Refusal :=
  .next (s.gateWrite m Reg.RED_CTRL 4 fun s => s.catchStart)

/-- ABORT_CATCH (R432). -/
def execAbortCatch (m : Fin 8) (s : State) : Host.Outcome State Fault Refusal :=
  .next (s.gateWrite m Reg.RED_CTRL 8 fun s => s.abortCatch)

/-- MIRROR_LINK_DOWN (R415). -/
def execMirrorLinkDown (s : State) : Host.Outcome State Fault Refusal := .next s.mirTrain

/-- MIRROR_RETRAIN (R434). -/
def execMirrorRetrain (m : Fin 8) (s : State) : Host.Outcome State Fault Refusal :=
  let v := BitVec.ofNat 32 (s.mirEn + 256)
  .next (s.gateWrite m Reg.RED_MIR_CTRL v fun s => s.mirCtrlWrite v)

/-- MIRROR_LANE_RESTORE (R415). -/
def execMirrorLaneRestore (m : Fin 8) (lanes : Fin 16) (s : State) : Host.Outcome State Fault Refusal :=
  let v := BitVec.ofNat 32 (s.mirEn + 16 * lanes.val)
  .next (s.gateWrite m Reg.RED_MIR_CTRL v fun s => s.mirCtrlWrite v)

/-- MIRROR_LANE_EN_WRITE (R434). -/
def execMirrorLaneEnWrite (m : Fin 8) (en : Fin 16) (s : State) : Host.Outcome State Fault Refusal :=
  let v := BitVec.ofNat 32 en.val
  .next (s.gateWrite m Reg.RED_MIR_CTRL v fun s => s.mirCtrlWrite v)

/-- ECHO_REQ (R415): answered with ECHO_RSP after T_E of 3,200 UI. -/
def execEchoReq (seq : Byte) (s : State) : Host.Outcome State Fault Refusal :=
  .next (if s.mirLanes = 0 then s else s.mirControl (echoRspBlock seq.toNat) (.echoRsp seq.toNat 3200))

end Sys2Proof.Machine
end

