-- ==== Sys2Proof/Machine/Links.lean ====
section
/-! DEFINITION. The commands that a Byevo port and the mirror link share: training, lock and echo (R79 to R85, R415). Port 16
is the mirror link. -/

namespace Sys2Proof.Machine

/-- The next ALIGN of the mirror link (R80, R415). -/
def State.mirSendAlign (s : State) : State :=
  if s.mirDark || s.mirLanes == 0 then s
  else
    let c := ((s.port 16).alignTx + 1) % 65536
    (s.setPort 16 fun p => { p with alignTx := c }).mirControl (alignBlock c s.mirLanes) (.align 16 c s.mirLanes)

/-- ALIGN_TX (R80): the 4,096th codeword of a port comes; `place` is the port, and whether that codeword begins a frame or is a shortened final one, when a
Byevo port's ALIGN waits for the next that can carry it. -/
def execAlignTx (place : Fin 17 × Bool) (s : State) : Host.Outcome State Fault Refusal :=
  .next (if place.1.val = 16 then s.mirSendAlign else s.sendAlign place.1 place.2)

/-- ALIGN_RX (R80). -/
def execAlignRx (port : Fin 17) (lane : Fin 4) (inPlace : Bool) (skew : Int) (s : State) :
    Host.Outcome State Fault Refusal :=
  .next (if port.val = 16 then s.mirAlign lane inPlace else if lane.val < 2 then s.alignRx port lane inPlace skew else s)

/-- ALIGN_MISSING (R80). -/
def execAlignMissing (port : Fin 17) (lane : Fin 4) (s : State) : Host.Outcome State Fault Refusal :=
  .next (if port.val = 16 then s.mirAlignMissing lane else if lane.val < 2 then s.alignMissing port lane else s)

/-- PMD_TRAIN_DONE (R82): Clause 136 training completed on the lanes `lanes`. -/
def execPmdTrainDone (port : Fin 17) (lanes : Fin 16) (s : State) : Host.Outcome State Fault Refusal :=
  .next (if port.val = 16 then s.mirPmdDone lanes else s.pmdTrained port (lanes.val % 4))

/-- ECHO_RSP (R85): sequence number and measured round trip in UI. -/
def execEchoRsp (port : Fin 17) (seq : BitVec 16) (rtt : Nat) (s : State) : Host.Outcome State Fault Refusal :=
  .next (if port.val = 16 then s.mirEcho seq.toNat rtt else s.echoRsp port seq.toNat rtt)

/-- TRAIN_TIMEOUT (R82): a training state's limit expires; `signal` says whether a lane under training saw a signal. -/
def execTrainTimeout (port : Fin 17) (signal : Bool) (s : State) : Host.Outcome State Fault Refusal :=
  .next (if port.val = 16 then s.mirTimeout else s.trainTimeout port signal)

/-- TRAIN_RETRY (R82): the 10 ms of WAIT are over. -/
def execTrainRetry (port : Fin 17) (s : State) : Host.Outcome State Fault Refusal :=
  .next (if port.val = 16 then s.mirRetry else s.trainRetry port)

end Sys2Proof.Machine
end

