-- ==== Sys2Proof/Machine/Hub.lean ====
section
/-! DEFINITION. The fault hub: memory errors (R440), severe faults (R441), the summary links (R443), the persistent copy of the
history queue (R447), the FAULT pins (R448), and the watchdog (R410). -/

namespace Sys2Proof.Machine

/-- The FLT page. -/
abbrev pFLT : Nat := 0x006

/-! ### Severe faults (R441) -/

/-- A severe fault of a code, with its region and address or tick. -/
def State.severe (s : State) (code hi lo : Nat) : State :=
  let s := s.setBit Reg.FLT_STAT 1 true
  let s := (s.setFld Reg.FLT_SEVERE 0 8 code).bump Reg.FLT_SEVERE 16 16 1
  let s := (s.logEvent pFLT 3 code hi lo).raise pFLT 1
  if s.bit Reg.FLT_CTRL 0 && (code == 0x20 || code == 0x23) then s.requestSafety else s

/-- The heartbeat is stopped. -/
def State.hbStopped (s : State) : Bool := !(s.running && s.tck.hbAlive)

/-- A clear of FLT_STAT.SEVERE is refused (R441). -/
def State.severePersists (s : State) : Bool := s.safe || !s.bit Reg.RCE_STAT 1 || s.hbStopped

/-! ### Uncorrectable errors (R440) -/

/-- The frames that hold a buffer are dropped and their buffers freed (R440). -/
def State.dropBuffer (s : State) (h : Nat) : State :=
  let s := s.net.qs.foldl (fun (s : State) e =>
    let gone := e.2.frames.filter fun f => f.chain.contains h
    gone.foldl (fun (s : State) f => (s.freeChain f.chain).endDesc f none)
      (s.setNetQ (e.1 / 8) (e.1 % 8) fun q => { q with frames := q.frames.filter fun f => !f.chain.contains h })) s
  s.unbuf h

/-- An uncorrectable error in region `r`, a row of R440, at an address; `x` is the engine that read a loop context, the input
port of the direct loop that read the context table. -/
def State.uncorrectable (s : State) (r addr x : Nat) : State :=
  let s := (s.bump Reg.FLT_ECC 16 16 1).setRegN Reg.FLT_SEVERE_ADDR addr
  let note (s : State) : State := s.logEvent pFLT 1 0x05 (Config.regionCode r) addr
  let sev (s : State) (code : Nat) : State := s.severe code (Config.regionCode r) addr
  match r with
  | 0 => (match s.rce.staging with
    | some g => if addr / 0x1000 = recAddr g.index / 0x1000 then note (s.stagingEnds 0xB) else note s
    | none => note s)
  | 1 => sev s 0x20
  | 2 => sev (({ s with rce := { s.rce with armed := none } }).setBit Reg.RCE_STAT 1 false) 0x21
  | 3 => sev s 0x20
  | 4 => sev s 0x20
  | 5 => note { s with prf := { s.prf with targets := s.prf.targets.filter fun e => e.1 != x } }
  | 6 => note { s with lpl := { s.lpl with faultNow := x % 32 :: s.lpl.faultNow.filter (· != x % 32) } }
  | 7 => note (s.parityErr ((addr - 0x12C00000) / 16 % 262144))
  | 8 => note (s.dropBuffer ((addr - 0x13000000) / 256 % 16384))
  | _ => sev s 0x23

/-- A read by a master that meets an uncorrectable error is refused with kind ECC (R475). -/
def State.eccRead (s : State) (m addr : Nat) : State := s.violate m false addr kEcc

/-! ### The summary links (R443) -/

/-- A page's pair reads equal for 8 cycles, or reads right again. -/
def State.pairEqual (s : State) (page : Nat) (equal : Bool) : State :=
  if !s.implemented page || decide (page ≥ 192) then s
  else if equal then
    if s.flt.badLink.contains page then s
    else
      let s := s.withSummary page fun s => { s with flt := { s.flt with badLink := page :: s.flt.badLink } }
      ((s.setBit (pageWord Reg.FLT_LINK page) (page % 32) true).logEvent pFLT 4 0x30 page 0).raise pFLT 2
  else { s with flt := { s.flt with badLink := s.flt.badLink.filter (· != page) } }

/-- The probe of a page's pair: whether both lines inverted. -/
def State.linkProbe (s : State) (page : Nat) (inverts : Bool) : State :=
  if !s.implemented page || decide (page ≥ 192) then s
  else if inverts then { s with flt := { s.flt with stuckLink := s.flt.stuckLink.filter (· != page) } }
  else
    let s := s.withSummary page fun s =>
      { s with flt := { s.flt with stuckLink := page :: s.flt.stuckLink.filter (· != page) } }
    ((s.setBit (pageWord Reg.FLT_LINK page) (page % 32) true).logEvent pFLT 4 0x31 page 0).raise pFLT 2

/-! ### The persistent copy (R447) -/

/-- Address of fault-log copy `b` (R469). -/
def fltCopy (b : Nat) : Nat := 0x15E00000 + 0x1000 * b

/-- The header and entries of a copy that its CRC covers. -/
def State.fltCovered (s : State) (b n : Nat) : List Byte := s.bytes (fltCopy b) 64 ++ s.bytes (fltCopy b + 0x80) (32 * n)

/-- SEQ of a copy, when it is valid (R447, R306). -/
def State.fltSeq? (s : State) (b : Nat) : Option Nat :=
  match s.commitSeq? (fltCopy b + 0x40) 0xF17C b with
  | none => none
  | some q =>
    let a := fltCopy b
    let n := s.loadN (a + 6) 2
    if s.loadN a 4 = 0x48544C46 ∧ s.loadN (a + 4) 2 = 1 ∧ n ≤ 32 ∧ s.loadN (a + 8) 4 = q
        ∧ s.loadN (a + 0x3C) 4 = crcSkip (s.fltCovered b n) 0x3C then some q else none

/-- 64-bit words of MRAM have been written (NVM_WORDS). -/
def State.nvmCount (s : State) (n : Nat) : State := s.bump Reg.NVM_WORDS 0 32 n

/-- The entries of the history queue, oldest first: the entry numbers. -/
def State.histOrder (s : State) : List Nat :=
  let n := s.fld Reg.FLT_HIST_PTR 0 5
  if s.bit Reg.FLT_HIST_PTR 5 then (List.range 32).map fun i => (n + i) % 32 else List.range n

/-- A flush begins: commit word 0, then entries and header (R447). -/
def State.beginFlush (s : State) (cause : Nat) : State :=
  let qa := s.fltSeq? 0
  let qb := s.fltSeq? 1
  let copy := match chooseBank qa qb with | some b => 1 - b | none => 0
  let seq := max (qa.getD 0) (qb.getD 0) + 1
  let a := fltCopy copy
  let l := s.histOrder
  let body := l.flatMap fun e => (List.range 8).flatMap fun w => toLE 4 (s.reg (Reg.FLT_HIST + 32 * e + 4 * w)).toNat
  let s := (s.storeN (a + 0x40) 8 0).setBytes (a + 0x80) body
  let s := s.setBytes a (toLE 4 0x48544C46 ++ toLE 2 1 ++ toLE 2 l.length ++ toLE 4 seq ++ toLE 4 cause
    ++ toLE 8 (s.ntNs % 2 ^ 64) ++ List.replicate 40 (0 : Byte))
  let s := s.storeN (a + 0x3C) 4 (crcSkip (s.fltCovered copy l.length) 0x3C)
  { s.nvmCount (9 + 4 * l.length) with flt := { s.flt with flush := some (cause + 256 * copy + 512 * seq) } }

/-- A flush is asked for; one asked for during a flush is served once that ends. -/
def State.askFlush (s : State) (cause : Nat) : State :=
  match s.flt.flush with
  | none => s.beginFlush cause
  | some _ => { s with flt := { s.flt with flushQ := s.flt.flushQ ++ [cause] } }

/-- The flush in progress ends with its commit word. -/
def State.flushDone (s : State) : State :=
  match s.flt.flush with
  | none => s
  | some x =>
    let copy := x / 256 % 2
    let s := (s.storeN (fltCopy copy + 0x40) 8 (0xF17C + 65536 * copy + 2 ^ 32 * (x / 512))).nvmCount 1
    let s := ({ s with flt := { s.flt with flush := none } }).raise pFLT 3
    match s.flt.flushQ with
    | [] => s
    | c :: t => ({ s with flt := { s.flt with flushQ := t } }).beginFlush c

/-- Every flush asked for is carried to its end. -/
def State.flushAll (s : State) : State :=
  (List.range (s.flt.flushQ.length + 1)).foldl (fun (s : State) _ => s.flushDone) s

/-- At boot the valid copy with the higher SEQ is shown (R447). -/
def State.showPhist (s : State) : State :=
  let s := (List.range 256).foldl (fun (s : State) i => s.setRegN (Reg.FLT_PHIST + 4 * i) 0) s
  match chooseBank (s.fltSeq? 0) (s.fltSeq? 1) with
  | none => (s.setRegN Reg.FLT_PHIST_INFO 0).setBit Reg.FLT_STAT 3 false
  | some b =>
    let a := fltCopy b
    let n := s.loadN (a + 6) 2
    let s := (List.range (8 * n)).foldl (fun (s : State) i =>
      s.setRegN (Reg.FLT_PHIST + 4 * i) (s.loadN (a + 0x80 + 4 * i) 4)) s
    (s.setRegN Reg.FLT_PHIST_INFO (2 ^ 31 + b * 2 ^ 30 + n * 65536 + s.loadN (a + 0xC) 4 % 256)).setBit Reg.FLT_STAT 3 true

/-! ### The FAULT pins (R448) -/

/-- The FAULT pins show a fault; start-up that has stopped never completes (R517). -/
def State.faultShown (s : State) : Bool :=
  s.flt.inReset || s.bit Reg.GLB_BOOT 31 || s.pwr.trip || s.bit Reg.PWR_STATE 8 || s.off || s.flt.hbStop || s.flt.pllFault
    || s.bit Reg.FLT_STAT 1 || s.bit Reg.FLT_CTRL 2
    || (List.range 6).any (fun w => s.reg (Reg.FLT_LINK + 4 * w) != 0)
    || (List.range 6).any fun w => (s.reg (Reg.FLT_PEND + 4 * w) &&& s.reg (Reg.FLT_PIN_EN + 4 * w)) != 0

/-- A write of FLT_CTRL. -/
def State.fltCtrlWrite (s : State) (v : Word) : State :=
  let s := s.storeReg Reg.FLT_CTRL v
  if bitOf v 1 then s.askFlush 5 else s

/-! ### The watchdog (R68, R410, R441) -/

/-- No heartbeat toggle has been seen for 3 × P: ILK_OUT drops; a stop other than by TCK_CTRL.STOP is severe. -/
def State.heartbeatLoss (s : State) : State :=
  if !s.tck.hbAlive ∨ s.running then s
  else
    let byStop := !s.flt.hbStop
    let s := { s with tck := { s.tck with hbAlive := false } }
    let s := if s.ilkOut then s.count (Reg.RED_CNT + 20) else s
    let s := s.dropInterlock
    if byStop then s
    else s.severe 0x22 0 (s.now.toNat % 2 ^ 32)

/-! ### The meanings -/

/-- UNCORRECTABLE_ECC (R440): an error in a region, met by master `reader` when one reads. -/
def execUncorrectableEcc (region : Fin 10) (addr : Word) (x : Nat) (reader : Option (Fin 8)) (s : State) :
    Host.Outcome State Fault Refusal :=
  let s := s.uncorrectable region addr.toNat x
  .next (match reader with | some m => s.eccRead m addr.toNat | none => s)

/-- LINK_PROBE (R443): the probe of one page's pair. -/
def execLinkProbe (page : Fin 192) (inverts : Bool) (s : State) : Host.Outcome State Fault Refusal :=
  .next (s.linkProbe page inverts)

/-- PAIR_EQUAL (R443): a pair has read equal for 8 cycles, or reads right again. -/
def execPairEqual (page : Fin 192) (equal : Bool) (s : State) : Host.Outcome State Fault Refusal :=
  .next (s.pairEqual page equal)

/-- FLT_FLUSH (R447): FLT_CTRL written with FLUSH 1. -/
def execFltFlush (m : Fin 8) (safetyEn force : Bool) (s : State) : Host.Outcome State Fault Refusal :=
  let v := BitVec.ofNat 32 (b2n safetyEn + 2 + 4 * b2n force)
  .next (s.gateWrite m Reg.FLT_CTRL v fun s => s.fltCtrlWrite v)

/-- HEARTBEAT_LOSS (R410). -/
def execHeartbeatLoss (s : State) : Host.Outcome State Fault Refusal := .next s.heartbeatLoss

end Sys2Proof.Machine
end

