-- ==== Sys2Proof/Machine/Power.lean ====
section
/-! DEFINITION. Supplies, hold-up, die sensors, throttle levels and thermal shutdown (R493 to R510). -/

namespace Sys2Proof.Machine

/-- The PWR, THM and NVM pages. -/
abbrev pPWR : Nat := 0x001
abbrev pTHM : Nat := 0x002
abbrev pNVM : Nat := 0x009

/-! ### The inputs (R493, R494) -/

/-- PWR_STATE.SOURCE: 0 none, 1 VIN_A, 2 VIN_B. -/
def State.source (s : State) : Nat := s.fld Reg.PWR_STATE 0 2

/-- VIN_A, VIN_B is valid. -/
def State.aValid (s : State) : Bool := s.bit Reg.PWR_STATE 3
def State.bValid (s : State) : Bool := s.bit Reg.PWR_STATE 4

/-- PWR_CTRL.TEST_B. -/
def State.testB (s : State) : Bool := s.bit Reg.PWR_CTRL 0

/-- PWR_STATE.RETURN_PEND: VIN_B is in use and the return delay runs. -/
def State.returnShown (s : State) : State :=
  s.setBit Reg.PWR_STATE 7 (s.source == 2 && s.aValid && !(s.testB && s.bValid))

/-- The input in use changes away from the present one. -/
def State.switchTo (s : State) (src : Nat) : State :=
  ((s.setFld Reg.PWR_STATE 0 2 src).bump Reg.PWR_CNT 0 16 1).raise pPWR 0

/-- VIN_A is taken back. -/
def State.takeBack (s : State) : State := (s.setFld Reg.PWR_STATE 0 2 1).bump Reg.PWR_CNT 16 16 1

/-! ### The end of the power (R496, R509) -/

/-- Master writes to MRAM are refused from now on. -/
def State.quiesce (s : State) : State :=
  if s.bit Reg.NVM_STAT 1 then s else (s.setBit Reg.NVM_STAT 1 true).raise pNVM 1

/-- The hold-up or shutdown sequence begins: outputs fall, MRAM is quiesced and a flush with the cause is asked for. -/
def State.powerSequence (s : State) (cause : Nat) : State :=
  let s := { s with pwr := { s.pwr with seqCause := some cause } }
  let s := s.dropInterlock.quiesce
  s.askFlush cause

/-- An MRAM counter word is incremented (R469). -/
def State.mramCount (s : State) (w : Nat) : State :=
  let a := 0x15E02000 + 8 * w
  (s.storeN a 8 (satAdd (2 ^ 64 - 1) (s.loadN a 8) 1)).nvmCount 1

/-- What survives a cold reset: MRAM, the levels at the pins, and what has left the device. -/
def State.wipe (s : State) : State :=
  let pins : Sparse PinSt := (List.range 8).foldl (fun (m : Sparse PinSt) k =>
    Sparse.put {} k { level := (Sparse.get ({} : PinSt) k s.evt.pins).level } m) []
  let t : State := {
    mem := s.mem.filter fun c => decide (0x14000000 ≤ c.1)
    outs := s.outs
    fresh := s.fresh
    pending := s.pending
    bus := { perst := s.bus.perst }
    evt := { pins := pins }
    pwr := { uvA := s.pwr.uvA, uvB := s.pwr.uvB }
    red := { ilkFrom := s.red.ilkFrom.map fun _ => 0 } }
  let t := t.setBit Reg.RED_STAT 1 s.ilkIn
  t.setFld Reg.PWR_STATE 0 10 (s.fld Reg.PWR_STATE 0 8 + 512 * b2n (s.bit Reg.PWR_STATE 9))

/-- Every rail but the housekeeping rail goes off: what was volatile is lost. -/
def State.railsOff (s : State) : State :=
  let t := s.wipe
  let t := { t with
    off := true
    flt := { t.flt with inReset := true }
    pwr := { t.pwr with trip := s.pwr.trip, seqCause := s.pwr.seqCause } }
  ((t.setFld Reg.PWR_STATE 0 2 0).setBit Reg.PWR_STATE 8 false).setBit Reg.PWR_STATE 9 false |>.setBit Reg.THM_ATRIP 0 (s.bit Reg.THM_ATRIP 0)
    |>.setBit Reg.THM_ATRIP 1 (s.bit Reg.THM_ATRIP 1)

/-- After the last flush of the sequence: the counters, then the rails (R496, R497, R509). -/
def State.sequenceGoesOn (s : State) : State :=
  if s.pwr.seqCause.isSome && s.flt.flush.isNone && !s.off then
    (s.pwr.counters.foldl (fun (s : State) w => s.mramCount w) s).railsOff
  else s

/-- Both inputs are lost (R496, R497). -/
def State.holdUp (s : State) : State :=
  let s := s.setFld Reg.PWR_STATE 0 2 0
  if s.off || s.pwr.seqCause.isSome then s
  else
    let s := s.setBit Reg.PWR_STATE 8 true
    ({ s with pwr := { s.pwr with counters := [1] } }).powerSequence 1

/-- A thermal shutdown starts (R509); during a hold-up there is no second flush (R497). -/
def State.thermalShut (s : State) : State :=
  if s.off || s.pwr.trip then s
  else
    let s := { s with pwr := { s.pwr with trip := true, counters := s.pwr.counters ++ [0] } }
    if s.pwr.seqCause.isSome then s else s.powerSequence 2

/-! ### Changes of the inputs -/

/-- Whether an input of voltage `mv` is over voltage, and under voltage, after its state before (R493). -/
def ovNow (was : Bool) (mv : Nat) : Bool := if was then decide (mv > 18500) else decide (mv > 19000)
def uvNow (was : Bool) (mv : Nat) : Bool := if was then decide (mv < 4500) else decide (mv < 4300)

/-- VIN_B (`b`) or VIN_A has had a voltage of `mv` for 200 ns: its conditions, and the bits of PWR_STATE. -/
def State.inputReads (s : State) (b : Bool) (mv : Nat) : State :=
  let ovBit := if b then 6 else 5
  let wasOv := s.bit Reg.PWR_STATE ovBit
  let wasValid := if b then s.bValid else s.aValid
  let ov := ovNow wasOv mv
  let uv := uvNow (if b then s.pwr.uvB else s.pwr.uvA) mv
  let valid := !ov && !uv
  let s := { s with pwr := if b then { s.pwr with uvB := uv } else { s.pwr with uvA := uv } }
  let s := (s.setBit Reg.PWR_STATE ovBit ov).setBit Reg.PWR_STATE (if b then 4 else 3) valid
  let s := if !b && valid && !wasValid then { s with pwr := { s.pwr with aFrom := s.frcNow } } else s
  let s := s.raiseIf (ov && !wasOv) pPWR 3
  s.raiseIf (wasValid && !valid) pPWR 2

/-- The input in use is chosen after a change of the inputs (R494). -/
def State.chooseInput (s : State) : State :=
  let src := s.source
  let s :=
    if s.off || s.pwr.seqCause.isSome then s
    else if src = 0 then
      (if s.aValid && !(s.testB && s.bValid) then s.setFld Reg.PWR_STATE 0 2 1
       else if s.bValid then s.setFld Reg.PWR_STATE 0 2 2 else s).setBit Reg.PWR_STATE 9 (s.aValid || s.bValid)
    else if src = 1 ∧ !s.aValid then (if s.bValid then s.switchTo 2 else s.holdUp)
    else if src = 2 ∧ !s.bValid then (if s.aValid then s.switchTo 1 else s.holdUp)
    else if src = 1 ∧ s.testB ∧ s.bValid then s.switchTo 2
    else s
  s.returnShown

/-- An input changes. -/
def State.inputChange (s : State) (b : Bool) (mv : Nat) : State := (s.inputReads b mv).chooseInput

/-- The return delay in ns (R494, R512). -/
def State.returnDelay (s : State) : Nat := min 10000 (max 10 (s.fld Reg.PWR_RETURN_DELAY 0 16)) * 1000000

/-- VIN_A has been valid for the return delay. -/
def State.vinReturn (s : State) : State :=
  if s.bit Reg.PWR_STATE 7 && s.agedNs s.pwr.aFrom s.returnDelay then (s.takeBack.returnShown).raise pPWR 1 else s

/-- A write of PWR_CTRL (R494). -/
def State.pwrCtrlWrite (s : State) (v : Word) : State :=
  let was := s.testB
  let s := s.storeReg Reg.PWR_CTRL v
  if s.testB && s.source == 1 && s.bValid then (s.switchTo 2).returnShown
  else if was && !s.testB && s.source == 2 && s.aValid then s.takeBack.returnShown
  else s.returnShown

/-! ### Sensors (R499, R500) -/

/-- A sensor. -/
def State.sensor (s : State) (i : Nat) : Sensor := Sparse.get {} i s.thm.sensors
def State.setSensor (s : State) (i : Nat) (f : Sensor → Sensor) : State :=
  { s with thm := { s.thm with sensors := Sparse.put {} i (f (s.sensor i)) s.thm.sensors } }

/-- A sensor's average (R501); none until it holds eight samples. -/
def Sensor.avg? (x : Sensor) : Option Int := if x.win.length = 8 then some ((x.win.foldl (· + ·) 0).fdiv 8) else none

/-- A sensor is valid: in service, and not one that refills its average. -/
def State.sensorValid (s : State) (i : Nat) : Bool :=
  !(s.sensor i).retired && !(s.sensor i).refill && !s.isDue pTHM i

/-- The valid sensors, and their averages. -/
def State.validSensors (s : State) : List Nat := (List.range 16).filter s.sensorValid
def State.averages (s : State) : List (Nat × Int) :=
  s.validSensors.filterMap fun i => (s.sensor i).avg?.map fun a => (i, a)

/-- Insertion into an ascending list. -/
def insertInt (a : Int) : List Int → List Int
  | [] => [a]
  | b :: t => if a ≤ b then a :: b :: t else b :: insertInt a t

/-- Twice the median of a list; for an even number, of the mean of the two in the middle. -/
def median2 (l : List Int) : Int :=
  let m := l.foldl (fun m a => insertInt a m) []
  let n := m.length
  m.getD ((n - 1) / 2) 0 + m.getD (n / 2) 0

/-- Sample `v` of sensor `i` is plausible (R500). -/
def State.plausible (s : State) (i : Nat) (v : Int) : Bool :=
  let others := (s.averages.filter fun e => e.1 != i).map (·.2)
  let dev := s.fld Reg.THM_DEV 0 8
  decide (-1024 ≤ v) && decide (v ≤ 2800)
    && !(dev != 0 && decide (3 ≤ others.length) && decide ((2 * v - median2 others).natAbs > 32 * dev))

/-- One sample of sensor `i`, judged against the averages of `o`. -/
def State.takeSample (s o : State) (i : Nat) (v : Int) : State :=
  let r := Reg.THM_SENS + 4 * i
  let s := s.setFld r 16 16 (low 16 v)
  if (o.sensor i).retired then s
  else if o.plausible i v then
    let s := (s.setBit Reg.THM_SENS_FLT (16 + i) false).chanOk pTHM i
    let s := s.setSensor i fun x =>
      let w := (v :: x.win).take 8
      { x with win := w, refill := x.refill && w.length != 8 }
    s.setFld r 0 16 (low 16 ((s.sensor i).avg?.getD 0))
  else
    let s := (s.setBit Reg.THM_SENS_FLT (16 + i) true).bump Reg.THM_CNT 16 16 1
    let s := if (o.sensor i).refill then (s.setSensor i fun x => { x with win := [] }).setFld r 0 16 0 else s
    s.chanFault pTHM i 0x06 i

/-! ### Levels (R503 to R507) -/

/-- THM_LEVEL.HW_LEVEL. -/
def State.hwLevel (s : State) : Nat := s.fld Reg.THM_LEVEL 8 2

/-- The sensor floor (R507). -/
def floorOf (valid : Nat) : Nat := if valid ≥ 12 then 0 else if valid ≥ 1 then 1 else 3

/-- The sensor floor and the level in force follow their causes; other blocks see a new level (R503, R504, R507). -/
def State.settleLevel (s : State) : State :=
  let n := s.validSensors.length
  let s := s.setFld Reg.THM_STAT 16 5 n
  let wasF := s.fld Reg.THM_LEVEL 12 2
  let s := (s.setFld Reg.THM_LEVEL 12 2 (floorOf n)).raiseIf (floorOf n != wasF) pTHM 5
  let l := max s.hwLevel (max (s.fld Reg.THM_CTRL 0 2) (floorOf n))
  if l = s.level then s
  else (((s.setFld Reg.THM_LEVEL 0 2 l).raise pTHM 2).rsvLevel l).calLevel

/-- THM_DWELL in grid points of 62.5 µs. -/
def State.dwellPoints (s : State) : Nat := min 60000 (max 100 (s.fld Reg.THM_DWELL 0 16)) * 16

/-- A sensor that is due retires (R500); it may begin or prolong a freeze (R505). -/
def State.sensorRetire (s : State) (i : Nat) : State :=
  if !s.isDue pTHM i then s
  else
    let freeze := (s.sensor i).wasHot && s.hwLevel != 0
    let s := ((s.retire pTHM i 0x14 i).setBit Reg.THM_SENS_FLT i true).raise pTHM 4
    let s := s.setSensor i fun x => { x with retired := true, refill := false, win := [] }
    let s := s.setFld (Reg.THM_SENS + 4 * i) 0 16 0
    let s := if freeze then
        let s := { s with thm := { s.thm with cool := none, ack := false } }
        if s.bit Reg.THM_LEVEL 6 then s else (s.setBit Reg.THM_LEVEL 6 true).raise pTHM 3
      else s
    s.settleLevel

/-- A write of THM_SENS_RESTORE: retired sensors return to service. -/
def State.sensorRestore (s : State) (m : Nat) : State :=
  ((setBits 16 m).foldl (fun (s : State) i =>
    if (s.sensor i).retired then
      (s.unretire pTHM i).setSensor i fun x => { x with retired := false, refill := true, win := [], wasHot := false }
    else s) s).settleLevel

/-! ### Thresholds (R501, R502) -/

/-- A threshold register's LEVEL and hysteresis in 1/16 °C. -/
def thmLevel (w : Word) : Int := (16 * min 145 (max 60 (fld w 0 8)) : Nat)
def thmHyst (w : Word) : Int := (16 * max 1 (fld w 8 4) : Nat)

/-- One threshold at an evaluation with hot value `h`: its state, its entry count, and the new ones (R502). -/
def thmStep (on : Bool) (cnt : Nat) (x y h : Int) : Bool × Nat :=
  if on then (if h ≤ x - y then (false, 0) else (true, cnt))
  else if h ≥ x then (if cnt + 1 ≥ 4 then (true, 0) else (false, cnt + 1))
  else (false, 0)

/-- The three threshold states after an evaluation with hot value `h`. -/
def State.thresholds (s : State) (h : Int) : State :=
  let w := s.reg Reg.THM_WARN
  let t := s.reg Reg.THM_THROTTLE
  let x : Int := (16 * s.fld Reg.THM_SHUT 0 8 : Nat)
  let a := thmStep (s.bit Reg.THM_STAT 0) s.thm.cWarn (thmLevel w) (thmHyst w) h
  let b := thmStep (s.bit Reg.THM_STAT 1) s.thm.cThr (thmLevel t) (thmHyst t) h
  let c := thmStep (s.bit Reg.THM_STAT 2) s.thm.cShut x 320 h
  let newW := a.1 && !s.bit Reg.THM_STAT 0
  let newT := b.1 && !s.bit Reg.THM_STAT 1
  let newS := c.1 && !s.bit Reg.THM_STAT 2
  let clearT := s.bit Reg.THM_STAT 1 && !b.1
  let s := { s with thm := { s.thm with
    cWarn := a.2, cThr := b.2, cShut := c.2, dwell := if clearT then s.thm.time else s.thm.dwell } }
  let s := ((s.setBit Reg.THM_STAT 0 a.1).setBit Reg.THM_STAT 1 b.1).setBit Reg.THM_STAT 2 c.1
  let s := s.raiseIf newW pTHM 0
  let s := if newT then (s.bump Reg.THM_CNT 0 16 1).raise pTHM 1 else s
  if newS then s.thermalShut else s

/-- HW_LEVEL changes by a step. -/
def State.hwStep (s : State) (l : Nat) : State :=
  { s.setFld Reg.THM_LEVEL 8 2 l with thm := { s.thm with dwell := s.thm.time } }

/-- The freeze of R505 at an evaluation with hot value `h`, and whether it ends here. -/
def State.freezeStep (s : State) (h : Option Int) : State × Bool :=
  if !s.bit Reg.THM_LEVEL 6 then (s, false)
  else
    let t := s.reg Reg.THM_THROTTLE
    let cool := match h with | some v => decide (v ≤ thmLevel t - thmHyst t) | none => false
    let from' := if cool then some (s.thm.cool.getD s.thm.time) else none
    let s := { s with thm := { s.thm with cool := from' } }
    let long := match from' with | some f => decide (s.thm.time ≥ f + s.dwellPoints) | none => false
    if long && s.thm.ack then (s.setBit Reg.THM_LEVEL 6 false, true) else (s, false)

/-- HW_LEVEL at an evaluation with hot value `h` (R503, R505). -/
def State.throttle (s : State) (h : Option Int) : State :=
  let (s, ended) := s.freezeStep h
  let on := s.bit Reg.THM_STAT 1
  let up := on && (match h with | some v => decide (v ≥ thmLevel (s.reg Reg.THM_THROTTLE)) | none => false)
  let l := s.hwLevel
  let pendingFreeze := l != 0 && (List.range 16).any fun i => s.isDue pTHM i && (s.sensor i).wasHot
  if up then (if l < 3 then s.hwStep (l + 1) else s)
  else if !on && l != 0 && !s.bit Reg.THM_LEVEL 6 && !pendingFreeze
      && (ended || decide (s.thm.time ≥ s.thm.dwell + s.dwellPoints)) then s.hwStep (l - 1)
  else s

/-- Fast sampling (R499). -/
def State.fastSampling (s : State) : Bool :=
  let near (x : Int) : Bool := s.averages.any fun e => decide ((e.2 - x).natAbs ≤ 80)
  near (thmLevel (s.reg Reg.THM_WARN)) || near (thmLevel (s.reg Reg.THM_THROTTLE))
    || near (16 * s.fld Reg.THM_SHUT 0 8 : Nat) || s.thm.cWarn != 0 || s.thm.cThr != 0 || s.thm.cShut != 0

/-- An evaluation of a sample set (R499 to R503). -/
def State.evaluate (s : State) (l : List (BitVec 16)) : State :=
  let s := (List.range 16).foldl (fun (s : State) i => s.sensorRetire i) s
  let s := { s with thm := { s.thm with time := s.thm.time + (if s.bit Reg.THM_STAT 4 then 1 else 16) } }
  let o := s
  let s := (List.range 16).foldl (fun (s : State) i => s.takeSample o i (l.getD i 0).toInt) s
  let av := s.averages
  let h : Option (Nat × Int) := match av with
    | [] => none
    | e :: t => some (t.foldl (fun (m x : Nat × Int) => if x.2 > m.2 then x else m) e)
  let s := match h with
    | none => s
    | some (i, v) =>
      let s := (s.setRegN Reg.THM_MAX (low 16 v)).setFld Reg.THM_STAT 8 4 i
      let s := av.foldl (fun (s : State) (e : Nat × Int) =>
        if (s.bit Reg.THM_SENS_FLT (16 + e.1)) then s else s.setSensor e.1 fun x => { x with wasHot := e.2 == v }) s
      s.thresholds v
  let s := (s.throttle (h.map (·.2))).settleLevel
  s.setBit Reg.THM_STAT 4 s.fastSampling

/-- A write of THM_CTRL (R503, R505). -/
def State.thmCtrlWrite (s : State) (v : Word) : State :=
  let s := s.storeReg Reg.THM_CTRL v
  let s := if bitOf v 4 && s.bit Reg.THM_LEVEL 6 then { s with thm := { s.thm with ack := true } } else s
  s.settleLevel

/-- A write of THM_SHUT (R508): only downwards, and not below 125 °C. -/
def State.thmShutWrite (s : State) (m : Nat) (v : Word) : State :=
  let x := Machine.fld v 0 8
  if x > s.fld Reg.THM_SHUT 0 8 then s.refuseWrite m Reg.THM_SHUT else s.setFld Reg.THM_SHUT 0 8 (max 125 x)

/-! ### The meanings -/

/-- FLUSH_DONE (R447, R496, R509): the flush in progress ends, and with the last one a hold-up or shutdown sequence goes on. -/
def execFlushDone (s : State) : Host.Outcome State Fault Refusal := .next s.flushDone.sequenceGoesOn

/-- VIN_INVALID (R493, R494): VIN_B (`b`) or VIN_A has been below 4.3 V or above 19.0 V for 200 ns. -/
def execVinInvalid (b : Bool) (mv : BitVec 16) (cycle : Nat) (s : State) : Host.Outcome State Fault Refusal :=
  .next ((s.atCycle cycle).inputChange b mv.toNat)

/-- VIN_VALID (R493, R494): an input's voltage is back in its range. -/
def execVinValid (b : Bool) (mv : BitVec 16) (cycle : Nat) (s : State) : Host.Outcome State Fault Refusal :=
  .next ((s.atCycle cycle).inputChange b mv.toNat)

/-- VIN_RETURN (R494): the return delay ends. -/
def execVinReturn (cycle : Nat) (s : State) : Host.Outcome State Fault Refusal := .next (s.atCycle cycle).vinReturn

/-- TEST_B_WRITE (R494): PWR_CTRL written. -/
def execTestBWrite (m : Fin 8) (testB : Bool) (s : State) : Host.Outcome State Fault Refusal :=
  let v := BitVec.ofNat 32 (b2n testB)
  .next (s.gateWrite m Reg.PWR_CTRL v fun s => s.pwrCtrlWrite v)

/-- THERMAL_EVALUATION (R499): one sample of each of the sixteen sensors. -/
def execThermalEvaluation (samples : List (BitVec 16)) (s : State) : Host.Outcome State Fault Refusal :=
  if samples.length ≠ 16 then .fault (.illFormed "THERMAL_EVALUATION")
  else .next (if s.off || s.flt.inReset then s else s.evaluate samples)

/-- SENSOR_RETIRE (R500). -/
def execSensorRetire (i : Fin 16) (s : State) : Host.Outcome State Fault Refusal := .next (s.sensorRetire i)

/-- SENSOR_RESTORE (R500): THM_SENS_RESTORE written. -/
def execSensorRestore (m : Fin 8) (mask : BitVec 16) (s : State) : Host.Outcome State Fault Refusal :=
  .next (s.gateWrite m Reg.THM_SENS_RESTORE (mask.setWidth 32) fun s => s.sensorRestore mask.toNat)

/-- ACK (R505): THM_CTRL written with ACK 1. -/
def execAck (m : Fin 8) (floor : Fin 4) (s : State) : Host.Outcome State Fault Refusal :=
  let v := BitVec.ofNat 32 (16 + floor.val)
  .next (s.gateWrite m Reg.THM_CTRL v fun s => s.thmCtrlWrite v)

/-- SW_FLOOR_WRITE (R503): THM_CTRL written with SW_FLOOR. -/
def execSwFloorWrite (m : Fin 8) (floor : Fin 4) (s : State) : Host.Outcome State Fault Refusal :=
  let v := BitVec.ofNat 32 floor.val
  .next (s.gateWrite m Reg.THM_CTRL v fun s => s.thmCtrlWrite v)

/-- THM_SHUT_WRITE (R508). -/
def execThmShutWrite (m : Fin 8) (v : Word) (s : State) : Host.Outcome State Fault Refusal :=
  .next (s.gateWrite m Reg.THM_SHUT v fun s => s.thmShutWrite m v)

/-- THERMAL_SHUTDOWN (R508): the analogue sensors of `analog` have read 145 °C or more for 10 µs; with none, the digital
SHUTDOWN state. -/
def execThermalShutdown (analog : Fin 4) (s : State) : Host.Outcome State Fault Refusal :=
  if analog.val = 0 then .next (if s.bit Reg.THM_STAT 2 then s.thermalShut else s)
  else .next (s.setFld Reg.THM_ATRIP 0 2 analog).thermalShut

end Sys2Proof.Machine
end

