-- ==== Sys2Proof/Machine/Commit.lean ====
section
/-! DEFINITION. Commit requests and cancellations of the pages that have RWS fields and COMMIT (R477, R455): the shared
request, the tests of each page, and the commands that make such a request. -/

namespace Sys2Proof.Machine

/-- The pages whose PAGE_CAP.SHADOW is 1 (R529). -/
def commitPages : List Nat := [pTCK, pLPL, pPRF, pCRS, pPRT, pCAL]

/-- L: the smallest lead that the page's tick test accepts (R477). -/
def commitLead (page : Nat) : Nat := if page = pTCK then 4 else if page = pCRS then 3 else 2

/-- The commit tick k of a request made now: COMMIT_TICK under R9, or the earliest with CMODE 1. -/
def State.commitTick (s : State) (page : Nat) : Tick :=
  if s.fld (cReg page OFF_PAGE_CTRL) 4 2 = 1 then s.now + BitVec.ofNat 64 (commitLead page)
  else reqTick s.now 32 (s.reg (cReg page OFF_COMMIT_TICK)).toNat

/-- The code that a page's result register gives MODE. -/
def modeCode (page : Nat) : Nat := if page = pCAL then 1 else 2

/-- The tests of a page's commit for tick `k`: 0 when all pass, else the result code of the page. -/
def State.pageTests (s : State) (page : Nat) (k : Tick) (tickTest inTakeover : Bool) : Nat :=
  if page = pPRT then s.prtTests k tickTest inTakeover
  else if s.orphaned && !inTakeover then modeCode page
  else if page = pTCK then s.tckTests k tickTest
  else if page = pLPL then s.lplTests k tickTest
  else if page = pPRF then s.prfTests k tickTest
  else if page = pCRS then s.crsTests k tickTest
  else s.calTests k tickTest

/-- A page's request is refused with a code. -/
def State.pageRefuse (s : State) (page code : Nat) : State :=
  if page = pTCK then
    (s.setRegN Reg.TCK_CMT_RES code).raiseIf (s.fld Reg.TCK_PERIOD 0 12 != s.period) pTCK 4
  else if page = pLPL then s.lplRefuse code
  else if page = pPRF then s.prfRefuse code
  else if page = pCRS then s.crsRefuse code
  else if page = pPRT then s.prtRefuse code
  else s.calRes code

/-- The result register of a page reads OK for an accepted request. -/
def State.pageOk (s : State) (page : Nat) : State :=
  if page = pTCK then s.setRegN Reg.TCK_CMT_RES 0
  else if page = pLPL then s.setFld Reg.LPL_CMT_RES 0 4 0
  else if page = pPRF then s.setFld Reg.PRF_CMT_RES 0 4 0
  else if page = pCRS then s.setFld Reg.CRS_RES 0 4 0
  else if page = pPRT then s.setFld Reg.PRT_RES 0 4 0
  else s.setRegN Reg.CAL_OP_RES 0

/-- A page's commit for tick `k` is accepted: it waits for its boundary, and a TCK commit is announced (R105). -/
def State.pageAccept (s : State) (page : Nat) (k : Tick) : State :=
  let s := if s.red.journal then s.journalPut (cReg page OFF_COMMIT + 1) (k.toNat % 2 ^ 32) else s
  if page = pCRS then s.crsAccept k
  else
    let s := (s.addCommit ⟨page, k, k, false, s.role == 2⟩).pageOk page
    if page = pTCK then s.setTransition.announceTck k else s

/-- COMMIT.REQ = 1 on a page: tested, and accepted, collected in an open takeover, or refused (R455, R477). -/
def State.commitReq (s : State) (page : Nat) : State :=
  let k := s.commitTick page
  let open' := s.orphaned && s.takeoverOpen
  match s.pageTests page k (!open') open' with
  | 0 => if open' then (s.addCommit ⟨page, k, k, true, false⟩).pageOk page else s.pageAccept page k
  | code => s.pageRefuse page code

/-- A commit of a page, pending or collected, is cancelled with the page's CANCELLED result. -/
def State.cancelPage (s : State) (c : PendCommit) : State :=
  if c.page = pTCK then (if c.collected then s.tckCancel else s.tckCancel.withdrawTck c.k)
  else if c.page = pLPL then (s.dropCommit pLPL).lplRefuse 5
  else if c.page = pPRF then (s.dropCommit pPRF).prfRefuse 5
  else if c.page = pCRS then s.crsCancel
  else if c.page = pPRT then (s.dropCommit pPRT).prtRefuse 6
  else s.calCancel c.b

/-- A cancellation comes in time: before cycle O − 100 of tick b − 2; a collected commit has no boundary yet (R477). -/
def State.cancelInTime (s : State) (c : PendCommit) : Bool :=
  c.collected || decide (s.now.toNat + 2 < c.b.toNat)
    || (decide (s.now.toNat + 2 = c.b.toNat) && decide (s.ntu.cyc + 100 < s.cycO))

/-- COMMIT.CANCEL = 1 on a page. -/
def State.commitCancel (s : State) (page : Nat) : State :=
  match s.commitOf? page with
  | some c =>
    if s.cancelInTime c then
      (if s.red.journal then s.journalPut (cReg page OFF_COMMIT) 2 else s).cancelPage c
    else s
  | none => s

/-- A request while a commit of the page is pending: a PENDING violation (R477), which the pages whose tests name a pending commit
also record with their result BUSY (R249, R256, R302). -/
def State.commitAgain (s : State) (m addr page : Nat) : State :=
  let s := s.violate m true addr kPending
  if page = pCRS ∨ page = pPRT ∨ page = pCAL then
    let open' := s.orphaned && s.takeoverOpen
    match s.pageTests page (s.commitTick page) (!open') open' with
    | 0 => s
    | code => s.pageRefuse page code
  else s

/-- A write of a page's COMMIT: a request, a cancellation, or both; pages without RWS fields ignore the write (R477). -/
def State.commitWrite (s : State) (m addr : Nat) (v : Word) : State :=
  let page := pageOf addr
  if !commitPages.contains page then s
  else if bitOf v 0 && s.pendingOn page then s.commitAgain m addr page
  else
    let s := if bitOf v 1 then s.commitCancel page else s
    if bitOf v 0 then s.commitReq page else s

/-- A write of COMMIT through the bus. -/
def State.gateCommit' (s : State) (m page : Nat) (v : Word) : State :=
  s.gateWrite m (cReg page OFF_COMMIT) v fun s => s.commitWrite m (cReg page OFF_COMMIT) v

/-- Every pending or collected commit is cancelled (R452 step 3, R455). -/
def State.cancelAllCommits (s : State) : State := s.commits.foldl (fun (s : State) c => s.cancelPage c) s

/-! ### The meanings -/

/-- TCK_COMMIT (R69, R73, R477): COMMIT.REQ on the TCK page, at core cycle `cycle` of the tick. -/
def execTckCommit (m : Fin 8) (cycle : Nat) (s : State) : Host.Outcome State Fault Refusal :=
  .next ((s.atCycle cycle).gateCommit' m pTCK 1)

/-- LPL_COMMIT (R176): COMMIT.REQ on the LPL page. -/
def execLplCommit (m : Fin 8) (cycle : Nat) (s : State) : Host.Outcome State Fault Refusal :=
  .next ((s.atCycle cycle).gateCommit' m pLPL 1)

/-- PRT_COMMIT (R256): COMMIT.REQ on the PRT page. -/
def execPrtCommit (m : Fin 8) (cycle : Nat) (s : State) : Host.Outcome State Fault Refusal :=
  .next ((s.atCycle cycle).gateCommit' m pPRT 1)

/-- CAL_COMMIT (R302): COMMIT.REQ on the CAL page. -/
def execCalCommit (m : Fin 8) (cycle : Nat) (s : State) : Host.Outcome State Fault Refusal :=
  .next ((s.atCycle cycle).gateCommit' m pCAL 1)

/-- A register that mixes its RWS fields is written through the bus with its plain effect. -/
def State.busStore (s : State) (m addr : Nat) (v : Word) : State := s.gateWrite m addr v fun s => s.storeReg addr v

/-- A PRF commit with the SWAP and LCMD bits given, COPY as in the view: PRF_CTRL and then COMMIT are written. -/
def State.prfRequest (s : State) (m : Nat) (swap lcmd : Bool) : State :=
  let v := BitVec.ofNat 32 (b2n swap + 2 * b2n (s.bit Reg.PRF_CTRL 1) + 4 * b2n lcmd)
  (s.busStore m Reg.PRF_CTRL v).gateCommit' m pPRF 1

/-- PROFILE_BANK_SWAP (R153, R155): a PRF commit with SWAP 1 and LCMD 0. -/
def execProfileBankSwap (m : Fin 8) (cycle : Nat) (s : State) : Host.Outcome State Fault Refusal :=
  .next ((s.atCycle cycle).prfRequest m true false)

/-- A loop command with OP and ARG: PRF_LCMD_OP is written and a PRF commit with LCMD requested; the range and the selectors
are those of PRF_LCMD_RANGE and PRF_LCMD_SEL (R153, R160, R161). -/
def State.loopRequest (s : State) (m op arg cycle : Nat) : State :=
  ((s.atCycle cycle).busStore m Reg.PRF_LCMD_OP (BitVec.ofNat 32 (op + arg % 65536 * 65536))).prfRequest m false true

/-- NOP (R161). -/
def execNop (m : Fin 8) (arg : BitVec 16) (cycle : Nat) (s : State) : Host.Outcome State Fault Refusal :=
  .next (s.loopRequest m 0 arg.toNat cycle)

/-- SET_STATE (R161): ARG is the commanded state. -/
def execSetState (m : Fin 8) (arg : BitVec 16) (cycle : Nat) (s : State) : Host.Outcome State Fault Refusal :=
  .next (s.loopRequest m 1 arg.toNat cycle)

/-- FREEZE (R161). -/
def execFreeze (m : Fin 8) (arg : BitVec 16) (cycle : Nat) (s : State) : Host.Outcome State Fault Refusal :=
  .next (s.loopRequest m 2 arg.toNat cycle)

/-- RELEASE (R161). -/
def execRelease (m : Fin 8) (arg : BitVec 16) (cycle : Nat) (s : State) : Host.Outcome State Fault Refusal :=
  .next (s.loopRequest m 3 arg.toNat cycle)

/-- SET_PROF_A (R161). -/
def execSetProfA (m : Fin 8) (arg : BitVec 16) (cycle : Nat) (s : State) : Host.Outcome State Fault Refusal :=
  .next (s.loopRequest m 4 arg.toNat cycle)

/-- SET_PROF_B (R161). -/
def execSetProfB (m : Fin 8) (arg : BitVec 16) (cycle : Nat) (s : State) : Host.Outcome State Fault Refusal :=
  .next (s.loopRequest m 5 arg.toNat cycle)

/-- SET_PARK_A (R161). -/
def execSetParkA (m : Fin 8) (arg : BitVec 16) (cycle : Nat) (s : State) : Host.Outcome State Fault Refusal :=
  .next (s.loopRequest m 6 arg.toNat cycle)

/-- SET_PARK_B (R161). -/
def execSetParkB (m : Fin 8) (arg : BitVec 16) (cycle : Nat) (s : State) : Host.Outcome State Fault Refusal :=
  .next (s.loopRequest m 7 arg.toNat cycle)

/-- SET_TARGET (R161). -/
def execSetTarget (m : Fin 8) (arg : BitVec 16) (cycle : Nat) (s : State) : Host.Outcome State Fault Refusal :=
  .next (s.loopRequest m 8 arg.toNat cycle)

/-- CLEAR_FLAGS (R161). -/
def execClearFlags (m : Fin 8) (arg : BitVec 16) (cycle : Nat) (s : State) : Host.Outcome State Fault Refusal :=
  .next (s.loopRequest m 9 arg.toNat cycle)

/-- A carousel operation: CRS_CMD.OP is written and a CRS commit requested (R249). -/
def State.crsRequest (s : State) (m op cycle : Nat) : State :=
  ((s.atCycle cycle).busStore m Reg.CRS_CMD (BitVec.ofNat 32 op)).gateCommit' m pCRS 1

/-- START (R249). -/
def execStart (m : Fin 8) (cycle : Nat) (s : State) : Host.Outcome State Fault Refusal := .next (s.crsRequest m 1 cycle)

/-- SWAP (R249). -/
def execSwap (m : Fin 8) (cycle : Nat) (s : State) : Host.Outcome State Fault Refusal := .next (s.crsRequest m 2 cycle)

/-- STOP (R249). -/
def execStop (m : Fin 8) (cycle : Nat) (s : State) : Host.Outcome State Fault Refusal := .next (s.crsRequest m 3 cycle)

/-- COMMIT_CANCEL (R477): COMMIT.CANCEL written on a page. -/
def execCommitCancel (m : Fin 8) (page : BitVec 14) (cycle : Nat) (s : State) : Host.Outcome State Fault Refusal :=
  .next ((s.atCycle cycle).gateCommit' m page.toNat 2)

end Sys2Proof.Machine
end

