-- ==== Sys2Proof/Machine/Takeover.lean ====
section
/-! DEFINITION. The takeover commit and ADOPT, which end the orphaned state (R454 to R458). -/

namespace Sys2Proof.Machine

/-- The GLB page. -/
abbrev pGLB : Nat := 0x000

/-- A result of GLB_TAKEOVER_RES. -/
def State.takeRes (s : State) (code page : Nat) : State :=
  (s.setFld Reg.GLB_TAKEOVER_RES 0 4 code).setFld Reg.GLB_TAKEOVER_RES 16 16 page

/-- OPEN (R455). -/
def State.takeOpen (s : State) : State :=
  if s.orphaned && s.rst.goAt.isNone && !s.rst.adopt then s.setBit Reg.GLB_TAKEOVER_RES 4 true else s

/-- The tests of GO for tick `k`, in the order of R456: result and failed page. -/
def State.goTests (s : State) (k : Tick) : Nat × Nat :=
  let w := s.rst.written
  if !s.orphaned || !s.takeoverOpen then (1, 0)
  else if !s.roleActs then (2, 0)
  else if !([Reg.TCK_PERIOD, Reg.TCK_PHASE, Reg.TCK_SLEW, Reg.LPL_GUARANTEE].all w.contains) then (3, 0)
  else if k.toNat < s.now.toNat + 4 then (4, 0)
  else if s.tckDiffers && (!s.tckRangeOk || s.periodCond k != 0) then (5, 0)
  else
    let g : FitAgainst := ⟨s.fld Reg.TCK_PERIOD 0 12, s.bit Reg.TCK_CTRL 2, s.fld Reg.LPL_GUARANTEE 0 2⟩
    let r := walkAll g s.retMask s.listsInForce
    if r.ld.isSome || r.dl.isSome then (6, 0)
    else match s.commits.find? fun c => c.collected && (s.dropCommit c.page).pageTests c.page k false true != 0 with
    | some c => (7, c.page)
    | none => (0, 0)

/-- A collected commit is to take effect as if committed for `k` (R457). -/
def State.scheduleCollected (s : State) (k : Tick) (c : PendCommit) : State :=
  let s := if s.red.journal then s.journalPut (cReg c.page OFF_COMMIT + 1) (k.toNat % 2 ^ 32) else s
  if c.page = pCRS then
    let b := s.tckTakeViews.crsEffectAt k
    let s := { s with crs := { s.crs with pend := some (s.fld Reg.CRS_CMD 0 2, b) } }
    (s.addCommit ⟨pCRS, k, b, false, false⟩).setReg64 Reg.CRS_CMT_AT b.toNat
  else s.addCommit ⟨c.page, k, k, false, false⟩

/-- GO (R456). -/
def State.takeGo (s : State) : State :=
  let k := reqTick s.now 32 (s.reg Reg.GLB_TAKEOVER_TICK).toNat
  match s.goTests k with
  | (0, _) =>
    let s := (s.takeRes 0 0).setBit Reg.GLB_TAKEOVER_RES 5 true
    let s := (s.commits.filter (·.collected)).foldl (fun (s : State) c => s.scheduleCollected k c) s
    let s := if s.tckDiffers && !s.pendingOn pTCK then s.addCommit ⟨pTCK, k, k, false, false⟩ else s
    let s := if s.pendingOn pTCK then s.setTransition.announceTck k else s
    let s := (s.setBit Reg.GLB_TAKEOVER_RES 4 false)
    { s with rst := { s.rst with goAt := some k } }
  | (code, page) => (s.takeRes code page).raise 0x006 5

/-- ABANDON (R455). -/
def State.takeAbandon (s : State) : State :=
  if s.takeoverOpen then
    ((s.commits.foldl (fun (s : State) c => if c.collected then s.cancelPage c else s) s).setBit
      Reg.GLB_TAKEOVER_RES 4 false).takeRes 0xA 0
  else s

/-- The bits of a register word that have both a view and a value in force. -/
def shadowBits (key : Nat) : Nat :=
  match regRow? (key % 0x100000000) with
  | some (r, _) => r.rw ||| r.rws
  | none => 0

/-- The configuration registers of the held pages whose view or value in force is not the reset value. -/
def State.heldKeys (s : State) : List Nat :=
  ((s.regs.map (·.1)) ++ (s.force.map (·.1))).eraseDups.filter fun k => heldPage k && decide (k % 0x1000 ≥ 0x100)

/-- One held register's view comes into force. -/
def State.takeView (s : State) (key : Nat) : State :=
  let m := BitVec.ofNat 32 (shadowBits key)
  s.setForce key ((s.inForce key &&& ~~~m) ||| (s.reg key &&& m))

/-- One held register's view takes the value in force. -/
def State.adoptView (s : State) (key : Nat) : State :=
  let m := BitVec.ofNat 32 (shadowBits key)
  s.setReg key ((s.reg key &&& ~~~m) ||| (s.inForce key &&& m))

/-- The views of every held page but TCK come into force, as their own writes would have brought them (R457). -/
def State.takeHeld (s : State) : State :=
  let win := s.ffld Reg.MEA_WIN 0 20
  let en := s.ffld Reg.EVT_PIN_EN 0 8
  let pol := s.ffld Reg.EVT_PIN_POL 0 8
  let s := ((s.heldKeys.filter fun k => pageOf k != pTCK).foldl (fun (s : State) k => s.takeView k) s).takeGuarantee
  let s := (List.range 16).foldl (fun (s : State) n => s.laneEnTakes n) s
  let s := (s.pinPolTakes pol).pinEnTakes en
  let s := (List.range 32).foldl (fun (s : State) w => s.losEnTakes w) s
  let s := s.meaEnTakes
  if s.ffld Reg.MEA_WIN 0 20 = win then s else s.meaWinTakes

/-- The orphaned state has ended. -/
def State.notOrphaned (s : State) : State :=
  { s.setFld Reg.GLB_RESET_CAUSE 4 2 0 with rst := { s.rst with goAt := none, adopt := false } }

/-- A takeover due at boundary `n`, after the TCK page's part (R457), or the end that ADOPT asked for (R458). -/
def State.takeoverAt (s : State) (n : Tick) : State :=
  let s := if s.rst.adopt then s.notOrphaned else s
  match s.rst.goAt with
  | some k =>
    if n.toNat < k.toNat then s
    else
      let s := s.takeHeld.notOrphaned.setBit Reg.GLB_TAKEOVER_RES 5 false
      (if s.tckDiffers then s.takeRes 8 pTCK else s.takeRes 0 0).raise 0x006 5
  | none => s

/-- ADOPT (R458): at the next boundary the orphaned state ends. -/
def State.takeAdopt (s : State) : State :=
  if !s.orphaned then s
  else
    let s := (s.commits.foldl (fun (s : State) c => s.cancelPage c) s).setBit Reg.GLB_TAKEOVER_RES 4 false
    let s := (s.heldKeys.foldl (fun (s : State) k => s.adoptView k) s).setRegN Reg.CRS_SHD_COUNT s.crs.shd.count
    let s := (s.takeRes 9 0).setBit Reg.GLB_TAKEOVER_RES 5 false
    { s with rst := { s.rst with adopt := true, goAt := none } }

/-- A write of GLB_TAKEOVER. -/
def State.takeoverWrite (s : State) (v : Word) : State :=
  match Machine.fld v 0 3 with
  | 1 => s.takeOpen
  | 2 => s.takeGo
  | 3 => s.takeAdopt
  | 4 => s.takeAbandon
  | _ => s

/-- GLB_TAKEOVER is written with an operation. -/
def State.takeoverOp (s : State) (m op : Nat) : State :=
  s.gateWrite m Reg.GLB_TAKEOVER (BitVec.ofNat 32 op) fun s => s.takeoverWrite (BitVec.ofNat 32 op)

/-- TAKEOVER_OPEN (R455). -/
def execTakeoverOpen (m : Fin 8) (s : State) : Host.Outcome State Fault Refusal := .next (s.takeoverOp m 1)

/-- GO (R456). -/
def execGo (m : Fin 8) (s : State) : Host.Outcome State Fault Refusal := .next (s.takeoverOp m 2)

/-- ADOPT (R458). -/
def execAdopt (m : Fin 8) (s : State) : Host.Outcome State Fault Refusal := .next (s.takeoverOp m 3)

/-- ABANDON (R455). -/
def execAbandon (m : Fin 8) (s : State) : Host.Outcome State Fault Refusal := .next (s.takeoverOp m 4)

end Sys2Proof.Machine
end

