-- ==== Sys2Proof/Machine/Resets.lean ====
section
/-! DEFINITION. The reset domains and start-up (R449 to R453, R516 to R525, R550), and the clocks (R533, R548). -/

namespace Sys2Proof.Machine

/-! ### Register classes under a management reset (R451) -/

/-- The class of the page that holds a register. -/
def clsOf (key : Nat) : PageClass :=
  match pageInfo? (pageOf (key % 0x100000000)) with | some p => p.cls | none => .kept

/-- A register of a kept or held page that takes its reset value at once: the exceptions that R451 names. -/
def resetAnyway (key : Nat) : Bool :=
  let a := key % 0x100000000
  (decide (Reg.HPT_CTRL ≤ a) && decide (a < 0x040A2140))
    || a == Reg.FWD_CMD || a == Reg.FWD_CMD_RES || (decide (Reg.FWD_ENT ≤ a) && decide (a < Reg.FWD_ENT + 32))
    || a == Reg.BPM_CMD || a == Reg.BPM_CMD_RES || a == Reg.ALM_SEND || a == Reg.GTE_CMD || a == Reg.GTE_RES
    || (decide (Reg.GTE_ADM_BASE ≤ a) && decide (a ≤ Reg.GTE_ADM_LEN))
    || (decide (Reg.GTE_ADM_ENTRY ≤ a) && decide (a < Reg.GTE_OPER_ENTRY))
    || (decide (Reg.MEA_RING_BASE ≤ a) && decide (a ≤ Reg.MEA_RING_RD))

/-- A register of a reset page that keeps its contents: the exceptions of R451, R210 and R492, and the registers that show what
runs on through the reset. -/
def keptAnyway (key : Nat) : Bool :=
  let a := key % 0x100000000
  (decide (Reg.FAB_IN_UNAVAIL ≤ a) && decide (a < Reg.FAB_RETMAP + 2688))
    || a == Reg.FAB_STAT || a == Reg.FAB_TOPO || a == Reg.FAB_TOPO_ID
    || (decide (Reg.RCE_STAT ≤ a) && decide (a ≤ Reg.RCE_LAG))
    || a == Reg.CAL_SEQ_A || a == Reg.CAL_SEQ_B
    || (decide (Reg.HIF_MSIX ≤ a) && decide (a < Reg.HIF_PBA + 8)) || a == Reg.HIF_STAT
    || a == Reg.NVM_UC || a == Reg.NVM_STAT

/-- One register under a management reset: its view, and its value in force where that too returns (R451). -/
def State.mgmtReg (s : State) (key : Nat) : State :=
  let off := key % 0x1000
  let rv := regReset key
  if off = OFF_PAGE_CTRL ∨ off = OFF_COMMIT ∨ off = OFF_COMMIT_TICK then s.setReg key rv
  else match clsOf key with
  | .reset => if keptAnyway key then s else (s.setReg key rv).setForce key rv
  | .held =>
    if off < 0x100 then s
    else if resetAnyway key then (s.setReg key rv).setForce key rv
    else
      let m := BitVec.ofNat 32 (shadowBits key)
      s.setReg key ((s.reg key &&& ~~~m) ||| (rv &&& m))
  | .kept => if off ≥ 0x100 ∧ resetAnyway key then s.setReg key rv else s

/-- Every register under a management reset. -/
def State.mgmtRegs (s : State) : State :=
  ((s.regs.map (·.1)) ++ (s.force.map (·.1))).eraseDups.foldl (fun (s : State) k => s.mgmtReg k) s

/-! ### The management reset (R452) -/

/-- A pending takeover is cancelled and an open one closed (R452, R457). -/
def State.cancelTakeover (s : State) : State :=
  let was := s.rst.goAt.isSome
  let s := (s.setBit Reg.GLB_TAKEOVER_RES 4 false).setBit Reg.GLB_TAKEOVER_RES 5 false
  let s := (s.setBit Reg.GLB_TAKEOVER_RES 8 false).setBit Reg.GLB_TAKEOVER_RES 9 false
  let s := { s with rst := { s.rst with goAt := none, adopt := false, written := [] } }
  if was then (s.takeRes 0xA 0).raise 0x006 5 else s

/-- The host port drops its frames in its own name, and its rings stop (R338). -/
def State.stopRings (s : State) : State :=
  let s := s.emptyQueues 66 none
  let s := s.net.qs.foldl (fun (s : State) e =>
    s.setNetQ (e.1 / 8) (e.1 % 8) fun q => { q with frames := q.frames.map fun f => { f with desc := none } }) s
  { s with net := { s.net with fetch := 0, txOpen := [], cmd := none } }

/-- Sequencers, DMA, the solver and the sessions stop (R452 step 4), and what they held is gone. -/
def State.stopSequencers (s : State) : State :=
  let s := s.calAbort
  let s := { s with cal := { s.cal with pass := none, results := [], staged := [], stagedBank := none } }
  let keepCal := s.reg Reg.CAL_STAT &&& 0x3FFF00C0
  let s := s.setReg Reg.CAL_STAT keepCal
  let img := s.rce.imgBusy
  let s := { s with
    rsv := {}
    rce := { s.rce with staging := none, descBusy := false, imgBusy := false, ctxHeld := [] } }
  let s := ((s.setBit Reg.RCE_STAT 2 false).setBit Reg.FAB_STAT 2 false).setBit Reg.FAB_STAT 3 false
  let s := s.stopRings
  let open' := s.net.sessions.any fun e => e.2.active
  let s := { s with net := { s.net with sessions := [], waits := [] } }
  let s := s.raiseIf open' 0x0B0 2
  let s := s.setFld Reg.MGT_STAT 0 4 0
  let c := Reg.MEA_CTRL
  let s := (s.setFld c 1 2 0).setForce c (s.inForce c &&& ~~~(6 : Word))
  let s := s.setBit Reg.RED_CLAIM 0 false
  let s := s.mgmtRegs
  let s := s.setReg Reg.CAL_STAT keepCal
  let s := if img then s.setRegN Reg.FAB_IMG_RES 0xA else s
  let s := (s.setBit Reg.LPL_STAT 10 false).setBit Reg.RSV_STAT 1 (s.level == 3)
  { s with mea := { s.mea with frame := [], frameN := 0, waiting := [] } }

/-- A management reset begins: 6 by software, 7 by PCIe (R452 steps 1 to 4). -/
def State.mgmtReset (s : State) (cause : Nat) : State :=
  if s.off || s.flt.inReset then s
  else
    let s := s.setFld Reg.GLB_RESET_CAUSE 4 2 1
    let s := (s.setFld Reg.GLB_RESET_CAUSE 6 2 2).setFld Reg.GLB_RESET_CAUSE 0 4 cause
    let s := (s.bump Reg.GLB_RESET_CAUSE 16 16 1).logEvent 0x000 5 0x42 cause 0
    let s := s.cancelTakeover.cancelAllCommits
    let s := (List.range 66).foldl (fun (s : State) n => s.gateWithdraw n) s
    let s := if s.trapRuns || s.red.serve.isSome then s.abortCatch else s
    let s := (((s.resetMaster 2).resetMaster 4).resetMaster 5).resetMaster 6
    s.stopSequencers

/-- MSTATE becomes "orphaned" (R452 step 5), and the held accesses complete; never in a hold-up sequence (R497). -/
def State.mgmtEnds (s : State) : State :=
  if s.mstate = 1 ∧ s.pwr.seqCause ≠ some 1 then (s.setFld Reg.GLB_RESET_CAUSE 4 2 2).raise 0x006 6 else s

/-! ### Start-up (R516 to R525) -/

/-- A start-up code: only the first is kept (R517). -/
def State.bootCode (s : State) (code : Nat) : State :=
  if s.fld Reg.GLB_BOOT 8 8 = 0 then s.setFld Reg.GLB_BOOT 8 8 code else s

/-- Start-up stops after step `n` with a fatal code; `dead`: no register becomes accessible. -/
def State.bootFails (s : State) (n code : Nat) (dead : Bool) : State :=
  let s := ((s.bootCode code).setFld Reg.GLB_BOOT 0 4 n).setBit Reg.GLB_BOOT 31 true
  { s with flt := { s.flt with inReset := dead } }

/-- Address of microcode bank `b` (R469). -/
def ucBank (b : Nat) : Nat := 0x14000000 + 0x200000 * b

/-- SEQ of microcode bank `b`, when it is valid (R472). -/
def State.ucSeq? (s : State) (b : Nat) : Option Nat :=
  match s.commitSeq? (ucBank b + 0x40) 0xB007 b with
  | none => none
  | some q =>
    let a := ucBank b
    let len := s.loadN (a + 8) 4
    if s.loadN a 4 = 0x4355464B ∧ s.loadN (a + 4) 2 = 1 ∧ s.loadN (a + 12) 4 = q ∧ len ≤ 0x1FFFC0
        ∧ s.loadN (a + 0x3C) 4 = crcSkip (s.bytes a (64 + len)) 0x3C then some q else none

/-- The microcode bank of step 4, and whether warning 0x42 arises (R472, R519). -/
def ucChoice (a b : Option Nat) (alt : Bool) : Option (Nat × Bool) :=
  match chooseBank a b with
  | none => none
  | some c => if alt then (if a.isSome && b.isSome then some (1 - c, false) else some (c, true)) else some (c, false)

/-- Step 7: the boot image (R520). -/
def State.bootImage (s : State) : State :=
  let a := 0x14600000
  if s.loadN a 4 ≠ 0x4D49424D ∨ s.loadN (a + 4) 2 ≠ 1 then s.bootCode 0x71
  else
    let img := s.bytes a (min 25165824 (s.loadN (a + 0x10) 4))
    let h := imgHeader img 25165824
    let r0 : ImgRun := { s := s }
    let r := if h ≠ 0 then { r0 with res := some (h, 0) }
      else r0.allSections img (leAt img 8 4) (2 ^ 32) 9 (imgSections img)
    let s := r.s.setRegN Reg.FAB_IMG_PROG (r.recs % 65536 * 65536 + r.secs)
    let s := match r.res with
      | some (c, d) => (s.setRegN Reg.FAB_IMG_RES (c + 256 * d + 65536 * r.secs)).bootCode 0x72
      | none => s.setRegN Reg.FAB_IMG_RES 0
    if s.topo.isSome && r.rec0 then
      let s := { s with rce := { s.rce with armed := none } }
      let s := (s.setBit Reg.RCE_STAT 1 false).armSafety
      if s.bit Reg.RCE_STAT 1 then s else s.defaultSafety
    else s

/-- The sessions opened under a key slot close (R348, R471). -/
def State.closeSlot (s : State) (n : Nat) : State :=
  (s.net.sessions.filter fun e => e.2.active && e.2.key == n).foldl (fun (s : State) e => s.mgtClose e.1) s

/-- A key slot takes the key that MRAM holds for it; a key of all zeros is invalid (R347, R471). -/
def State.takeKey (s : State) (n : Nat) : State :=
  let k := s.bytes (0x15E03000 + 32 * n) 32
  let s := s.closeSlot n
  let s := if n = 0 then { s with net := { s.net with key0 := k } } else { s with net := { s.net with key1 := k } }
  s.setBit Reg.MGT_STAT (4 + n) (k.any (· != 0))

/-- Steps 4 to 9 of start-up. -/
def State.bootOn (s : State) : State :=
  let a := s.ucSeq? 0
  let b := s.ucSeq? 1
  match ucChoice a b (s.bit Reg.GLB_STRAP 3) with
  | none => s.bootFails 3 0x41 false
  | some (bank, warn) =>
    let s := if warn then s.bootCode 0x42 else s
    let s := s.setRegN Reg.NVM_UC (bank + 4 * b2n (if bank = 0 then b.isSome else a.isSome))
    let s := ((s.setRegN Reg.GLB_REMAP 1).takeKey 0).takeKey 1
    let s := s.calBoot
    let s := (if s.bit Reg.CAL_STAT 6 then s.bootCode 0x61 else s).takePark
    let s := if s.bit Reg.GLB_STRAP 1 then s
      else
        let s := s.bootImage
        if s.topo.isNone then s.bootCode 0x73 else s
    let hold := s.bit Reg.GLB_STRAP 2
    let s := if hold then s else s.mirTrain
    let first := match s.topo with | some t => if hold then 0 else t.efeMask | none => 0
    let s := { s with rst := { s.rst with firstTry := first }, flt := { s.flt with inReset := false } }
    s.showPhist.setFld Reg.GLB_BOOT 0 4 9

/-- Steps 1 to 3 of start-up after a cold reset, and the rest: the straps sampled, whether the PLL locks, and whether the
memories clear without an uncorrectable error. -/
def State.coldStart (s : State) (straps : Nat) (pll clear : Bool) : State :=
  let s := s.setBit Reg.PWR_STATE 9 true
  if !pll then (s.setBit Reg.CLK_STAT 0 false).bootFails 1 0x21 true
  else if !clear then s.bootFails 2 0x31 true
  else
    let s := (s.mramCount 2).setRegN Reg.GLB_STRAP (straps % 16)
    (s.setBit Reg.RED_SEAT 0 (bitAt straps 0)).bootOn

/-- A cold reset with its cause (R449): everything but MRAM, and start-up. -/
def State.coldReset (s : State) (cause straps : Nat) (pll clear : Bool) : State :=
  let t := s.wipe
  let t := if s.source = 0 then t.chooseInput else t.setFld Reg.PWR_STATE 0 2 s.source
  let t := t.returnShown
  let t := (t.setRegN Reg.GLB_RESET_CAUSE cause).logEvent 0x000 5 0x40 cause 0
  t.coldStart straps pll clear

/-- A warm reset (R449, R525): the straps and the seat stay as sampled. -/
def State.warmReset (s : State) (clear : Bool) : State :=
  let t := s.wipe
  let t := (t.setFld Reg.PWR_STATE 0 2 s.source).setReg Reg.PWR_CTRL 0
  let t := t.chooseInput
  let t := (t.setReg Reg.GLB_STRAP (s.reg Reg.GLB_STRAP)).setReg Reg.RED_SEAT (s.reg Reg.RED_SEAT)
  let t := t.setReg Reg.CLK_STAT (s.reg Reg.CLK_STAT)
  let t := { t with jtag := s.jtag }
  let t := (t.setRegN Reg.GLB_RESET_CAUSE (5 + 64)).logEvent 0x000 5 0x41 5 0
  if !clear then t.bootFails 2 0x31 true else t.bootOn

/-- GLB_RESET is written (R447, R459): a flush goes before a cold or warm reset. -/
def State.glbReset (s : State) (m : Nat) (v : Word) (straps : Nat) (pll clear : Bool) : State :=
  if Machine.fld v 16 16 ≠ 0x5A5A ∨ m > 2 then s.refuseWrite m Reg.GLB_RESET
  else match Machine.fld v 0 2 with
  | 1 => ((s.askFlush 3).flushAll).coldReset 4 straps pll clear
  | 2 => ((s.askFlush 4).flushAll).warmReset clear
  | 3 => s.mgmtReset 6
  | _ => s

/-- RESET_N (R550, R551): low for at least 1 µs, outside a hold-up or shutdown sequence. -/
def State.resetN (s : State) (ns straps : Nat) (pll clear : Bool) : State :=
  if ns < 1000 ∨ s.pwr.seqCause.isSome ∨ s.off then s else s.coldReset 2 straps pll clear

/-! ### Block soft resets (R453) -/

/-- The pages that support SRST. -/
def srstPage (page : Nat) : Bool := match pageInfo? page with | some p => p.srst | none => false

/-- A page's configuration registers return to their reset values, in force at once. -/
def State.resetViews (s : State) (page : Nat) : State :=
  ((s.regs.map (·.1)) ++ (s.force.map (·.1))).eraseDups.foldl (fun (s : State) k =>
    if pageOf (k % 0x100000000) = page ∧ k % 0x1000 ≥ 0x100 then
      let m := BitVec.ofNat 32 (shadowBits k)
      let rv := regReset k &&& m
      (s.setReg k ((s.reg k &&& ~~~m) ||| rv)).setForce k ((s.inForce k &&& ~~~m) ||| rv)
    else s) s

/-- FAULT_CNT and the consecutive counts of a page are cleared. -/
def State.clearFaults (s : State) (page : Nat) : State :=
  { s.setRegN (cReg page OFF_FAULT_CNT) 0 with
    flt := { s.flt with
      runs := s.flt.runs.filter fun e => e.1 / 65536 != page
      due := s.flt.due.filter fun c => c / 65536 != page } }

/-- What a soft reset does to the block of a page (R453). -/
def State.softEffect (s : State) (page : Nat) : State :=
  if 0x010 ≤ page ∧ page < 0x020 then s.retrain (page - 0x010)
  else if 0x020 ≤ page ∧ page < 0x040 then
    let w := if s.running then some s.currentWindow else none
    { s with lpl := { s.lpl with quiet := (page - 0x020, w) :: s.lpl.quiet.filter (·.1 != page - 0x020) } }
  else if 0x060 ≤ page ∧ page < 0x0A2 then
    let s := s.portLinkDown (page - 0x060) false
    s.emptyQueues (page - 0x060) none
  else if page = 0x054 then (s.jobCancelAll (Config.solverCycles s.fresh)).tick1
  else if page = 0x059 then
    let s := s.meaRestart
    (List.range 32).foldl (fun (s : State) w => s.losEnTakes w) s
  else if page = 0x058 then s.calAbort
  else s

/-- PAGE_CTRL.SRST (R449, R453). The solver's jobs end, and write the reports their slots name, before the slots are reset. -/
def State.softReset (s : State) (page : Nat) : State :=
  if !srstPage page ∨ s.rst.srst.contains page then s
  else
    let s := s.logEvent page 5 0x43 (s.fld Reg.GLB_RESET_CAUSE 0 4) 0
    let s := if page = 0x054 then (s.softEffect page).resetViews page else (s.resetViews page).softEffect page
    let s := s.clearFaults page
    let s := s.setBit (cReg page OFF_PAGE_CTRL) 0 true
    { s with rst := { s.rst with srst := page :: s.rst.srst } }

/-! ### Clocks (R533, R548) -/

/-- The core PLL loses lock. -/
def State.pllLoss (s : State) : State :=
  if !s.bit Reg.CLK_STAT 0 then s
  else
    let s := (s.setBit Reg.CLK_STAT 0 false).bump Reg.CLK_CNT 0 16 1
    let stop := s.running
    let s := (s.setBit Reg.TCK_STAT 0 false).raise 0x003 0
    { s with
      tck := { s.tck with startAt := none, stopAt := none, window := none }
      flt := { s.flt with hbStop := s.flt.hbStop || stop } }

/-- The core PLL locks again after `us` µs. -/
def State.pllBack (s : State) (us : Nat) : State :=
  if s.bit Reg.CLK_STAT 0 then s
  else
    let s := (s.setBit Reg.CLK_STAT 0 true).setRegN Reg.CLK_RELOCK (min 0xFFFFFFFF us)
    ({ s with flt := { s.flt with pllFault := false } }).raise 0x003 1

/-! ### The meanings -/

/-- RESET_N (R550): the pin has been low for `ns`. -/
def execResetN (ns : Nat) (straps : Fin 16) (pll clear : Bool) (s : State) : Host.Outcome State Fault Refusal :=
  .next (s.resetN ns straps pll clear)

/-- COLD_RESET (R449, R459): GLB_RESET written with DOMAIN COLD. -/
def execColdReset (m : Fin 8) (key : BitVec 16) (straps : Fin 16) (pll clear : Bool) (s : State) :
    Host.Outcome State Fault Refusal :=
  let v := BitVec.ofNat 32 (key.toNat * 65536 + 1)
  .next (s.gateWrite m Reg.GLB_RESET v fun s => s.glbReset m v straps pll clear)

/-- WARM_RESET (R525). -/
def execWarmReset (m : Fin 8) (key : BitVec 16) (clear : Bool) (s : State) : Host.Outcome State Fault Refusal :=
  let v := BitVec.ofNat 32 (key.toNat * 65536 + 2)
  .next (s.gateWrite m Reg.GLB_RESET v fun s => s.glbReset m v 0 true clear)

/-- MANAGEMENT_RESET (R452). -/
def execManagementReset (m : Fin 8) (key : BitVec 16) (cycle : Nat) (s : State) : Host.Outcome State Fault Refusal :=
  let v := BitVec.ofNat 32 (key.toNat * 65536 + 3)
  .next ((s.atCycle cycle).gateWrite m Reg.GLB_RESET v fun s => s.glbReset m v 0 true true)

/-- SRST (R453): PAGE_CTRL written with SRST 1; EN and CMODE as in `v`. -/
def execSrst (m : Fin 8) (page : BitVec 14) (v : Word) (s : State) : Host.Outcome State Fault Refusal :=
  let v := v ||| 2
  .next (s.gateWrite m (cReg page.toNat OFF_PAGE_CTRL) v fun s =>
    (s.storeReg (cReg page.toNat OFF_PAGE_CTRL) v).softReset page.toNat)

/-- POWER_ON_RESTART (R496): an input has been valid for 10 ms after a hold-up; `cool`: both analogue sensors have read below
125 °C for 1 s, which a trip during it also asks for (R497). -/
def execPowerOnRestart (straps : Fin 16) (pll clear cool : Bool) (s : State) : Host.Outcome State Fault Refusal :=
  .next (if s.off && s.pwr.seqCause == some 1 && (s.aValid || s.bValid) && (!s.pwr.trip || cool)
    then s.coldReset 1 straps pll clear else s)

/-- THERMAL_RESTART (R510): both analogue sensors have read below 125 °C for 1 s and an input is valid. -/
def execThermalRestart (straps : Fin 16) (pll clear : Bool) (s : State) : Host.Outcome State Fault Refusal :=
  .next (if s.off && s.pwr.seqCause == some 2 && (s.aValid || s.bValid)
    then (s.coldReset 3 straps pll clear).setRegN Reg.THM_ATRIP 0xC else s)

/-- PLL_LOCK_LOSS (R533). -/
def execPllLockLoss (cycle : Nat) (s : State) : Host.Outcome State Fault Refusal := .next (s.atCycle cycle).pllLoss

/-- PLL_UNLOCKED_2MS (R533). -/
def execPllUnlocked2ms (s : State) : Host.Outcome State Fault Refusal :=
  .next (if s.bit Reg.CLK_STAT 0 then s else { s with flt := { s.flt with pllFault := true } })

/-- REFCLK_LOSS (R533): REFCLK has been absent for 1 µs. -/
def execRefclkLoss (s : State) : Host.Outcome State Fault Refusal :=
  .next (if s.bit Reg.CLK_STAT 1
    then ((s.setBit Reg.CLK_STAT 1 false).bump Reg.CLK_CNT 16 16 1).raise 0x003 2 else s)

/-- REFCLK_RETURN (R533). -/
def execRefclkReturn (s : State) : Host.Outcome State Fault Refusal := .next (s.setBit Reg.CLK_STAT 1 true)

/-- WDCLK_LOSS (R548): the watchdog no longer holds ILK_OUT. -/
def execWdclkLoss (s : State) : Host.Outcome State Fault Refusal :=
  let s := s.setBit Reg.CLK_STAT 2 false
  .next (if s.ilkOut then (s.count (Reg.RED_CNT + 20)).dropInterlock else s)

/-- WDCLK_RETURN (R548). -/
def execWdclkReturn (s : State) : Host.Outcome State Fault Refusal := .next (s.setBit Reg.CLK_STAT 2 true)

end Sys2Proof.Machine
end

