-- ==== Sys2Proof/Machine/Views.lean ====
section
/-! DEFINITION. What a read of a register returns: the registers that show live state, those behind a selector, and the plain
views (R10, R473 to R477, R536). -/

namespace Sys2Proof.Machine

/-! ### Common registers -/

/-- The block-specific bits of INT_STAT, by PAGE_ID.TYPE: the INT_STAT table of each page's chapter. -/
def intBits (type : Nat) : Nat :=
  match type with
  | 0x001 => 0xF | 0x002 => 0x3F | 0x003 => 0x7 | 0x004 => 0x3F | 0x005 => 0x3F | 0x006 => 0x7F | 0x007 => 0x3FF
  | 0x008 => 0x1 | 0x009 => 0x3 | 0x00A => 0x7 | 0x00B => 0xF | 0x010 => 0x1FF | 0x020 => 0xFF | 0x040 => 0x3F
  | 0x041 => 0xF | 0x050 => 0xF | 0x051 => 0xFF | 0x052 => 0x3F | 0x053 => 0x7F | 0x054 => 0x3F | 0x058 => 0x7F
  | 0x059 => 0x7F | 0x060 => 0xF | 0x0A0 => 0xF | 0x0A2 => 0x1F | 0x0B0 => 0x7 | 0x0B1 => 0x3F | 0x0B2 => 0x3F
  | 0x0B4 => 0xF | 0x0B6 => 0x3 | 0x0B7 => 0x1F | _ => 0

/-- The block-specific INT_STAT bits of a page position. -/
def intMask (page : Nat) : Nat := match pageInfo? page with | some p => intBits p.type | none => 0

/-- PAGE_STAT (R487). -/
def State.pageStat (s : State) (page : Nat) : Nat :=
  b2n (s.bit (cReg page OFF_PAGE_STAT) 31) * 2 ^ 31 + b2n (s.rst.srst.contains page) * 2 ^ 30 + b2n (s.pendingOn page) * 2 ^ 29
    + b2n (s.intSummary page) * 2 + b2n (s.summary page)

/-- FAULT_CNT with MAXRUN, the largest consecutive count among the page's channels (R438); an element loop's count lies in its
context, and its channel is in the page of the engine that runs it (R147). -/
def State.faultCnt (s : State) (page : Nat) : Nat :=
  let top := s.flt.runs.foldl (fun (m : Nat) (e : Nat × Nat) => if e.1 / 65536 = page then max m e.2 else m) 0
  let top := s.loops.foldl (fun (m : Nat) (e : Nat × Loop) =>
    if e.2.fcnt ≠ 0 ∧ pLEN (s.loopEngine e.1) = page then max m e.2.fcnt else m) top
  (s.reg (cReg page OFF_FAULT_CNT)).toNat % 2 ^ 24 + min 255 top * 2 ^ 24

/-- The bits of a word of FLT_PIN_EN, HIF_ALERT_EN and BMX_PROT that belong to implemented pages (R530). -/
def State.pageBits (s : State) (w : Nat) : Nat := maskOf ((List.range 32).filter fun i => s.implemented (32 * w + i))

/-- The writable bits of a word of HIF_VMAP: the bytes of implemented pages (R530). -/
def State.vmapBits (s : State) (w : Nat) : Nat :=
  (List.range 4).foldl (fun (m : Nat) i => if s.implemented (4 * w + i) then m + 0xBF * 256 ^ i else m) 0

/-- Word `w` of HIF_IPEND (R465). -/
def State.ipend (s : State) (w : Nat) : Nat :=
  maskOf ((List.range 32).filter fun i => s.implemented (32 * w + i) && s.intSummary (32 * w + i))

/-- INT_N is driven low (R466). -/
def State.intN (s : State) : Bool := s.bit Reg.HIF_CTRL 0 && (List.range 6).any fun w => s.ipend w != 0

/-- A summary that HIF_ALERT_EN enables is asserted. -/
def State.alertHeld (s : State) : Bool :=
  (List.range 6).any fun w => s.ipend w &&& (s.reg (Reg.HIF_ALERT_EN + 4 * w)).toNat != 0

/-! ### Live registers by page -/

/-- The registers of the TCK page that show live state. -/
def State.tckView (s : State) (a : Nat) : Option Nat :=
  if a = Reg.TCK_NOW then some (s.now.toNat % 2 ^ 32)
  else if a = Reg.TCK_NOW + 4 then some (s.now.toNat / 2 ^ 32)
  else if a = Reg.TCK_PERIOD_ACT then some (s.ffld Reg.TCK_SLEW 0 5 * 65536 + s.period)
  else if a = Reg.TCK_PHASE_ACT then some (s.ffld Reg.TCK_PHASE 0 12)
  else none

/-- NTU_TIME and NTU_FRC (R380), and the rate and offset in force (R379, R398). -/
def State.ntuView (s : State) (a : Nat) : Option Nat :=
  if Reg.NTU_TIME ≤ a ∧ a < Reg.NTU_TIME + 12 then some (s.nt.toNat / 2 ^ (8 * (a - Reg.NTU_TIME)) % 2 ^ 32)
  else if Reg.NTU_FRC ≤ a ∧ a < Reg.NTU_FRC + 12 then some (s.frcNow.toNat / 2 ^ (8 * (a - Reg.NTU_FRC)) % 2 ^ 32)
  else if Reg.NTU_RATE ≤ a ∧ a < Reg.NTU_RATE + 8 then
    some ((s.ntu.rate.signExtend 64).toNat / 2 ^ (8 * (a - Reg.NTU_RATE)) % 2 ^ 32)
  else if Reg.NTU_OFFSET ≤ a ∧ a < Reg.NTU_OFFSET + 12 then
    some (s.ntu.offset.toNat / 2 ^ (8 * (a - Reg.NTU_OFFSET)) % 2 ^ 32)
  else none

/-- FLT_STAT and FLT_PIN_EN. -/
def State.fltView (s : State) (a : Nat) : Option Nat :=
  if a = Reg.FLT_STAT then
    some (b2n s.flt.hbStop * 16 + s.fld Reg.FLT_STAT 3 1 * 8 + b2n s.flt.flush.isSome * 4 + s.fld Reg.FLT_STAT 1 1 * 2 + b2n s.faultShown)
  else if Reg.FLT_PIN_EN ≤ a ∧ a < Reg.FLT_PIN_EN + 24 then some ((s.reg a).toNat &&& s.pageBits ((a - Reg.FLT_PIN_EN) / 4))
  else none

/-- The live bits of RED_STAT (R434). -/
def State.redView (s : State) (a : Nat) : Option Nat :=
  if a = Reg.RED_STAT then
    some (((s.reg a).toNat &&& 0x1D7) + 8 * b2n s.ilkClear + 32 * b2n s.hbRuns)
  else none

/-- BMX_PROT and the HIF words that have one bit or byte a page. -/
def State.hifView (s : State) (a : Nat) : Option Nat :=
  if Reg.BMX_PROT ≤ a ∧ a < Reg.BMX_PROT + 24 then some ((s.reg a).toNat &&& s.pageBits ((a - Reg.BMX_PROT) / 4))
  else if Reg.HIF_IPEND ≤ a ∧ a < Reg.HIF_IPEND + 24 then some (s.ipend ((a - Reg.HIF_IPEND) / 4))
  else if Reg.HIF_ALERT_EN ≤ a ∧ a < Reg.HIF_ALERT_EN + 24 then
    some ((s.reg a).toNat &&& s.pageBits ((a - Reg.HIF_ALERT_EN) / 4))
  else none

/-- PWR_VIN and PWR_BUS, measured on the board. -/
def State.pwrView (s : State) (a : Nat) : Option Nat :=
  if a = Reg.PWR_VIN then some (Config.pwrVin s.fresh).toNat
  else if a = Reg.PWR_BUS then some (Config.pwrBus s.fresh).toNat
  else none

/-- The levels of the EVT page (R274, R275). -/
def State.evtView (s : State) (a : Nat) : Option Nat :=
  if a = Reg.EVT_PIN_STAT then some (s.fld a 8 16 * 256 + s.pinLevels)
  else if Reg.EVT_LOL_LEVEL ≤ a ∧ a < Reg.EVT_LOL_LEVEL + 128 then some (s.lolLevels ((a - Reg.EVT_LOL_LEVEL) / 4))
  else none

/-- The list of engine `e` and its overruns in LEN_STAT (R185). -/
def State.lenView (s : State) (a : Nat) : Option Nat :=
  let e := pageOf a - 0x020
  if a = atInst Reg.LEN_STAT e then
    some ((s.listOf e).length % 2048 * 65536 + min 2 (Sparse.get 0 e s.lpl.ovr) * 8 + s.fld a 0 3)
  else none

/-- LPL_STAT and LPL_LOAD (R183). -/
def State.lplView (s : State) (a : Nat) : Option Nat :=
  if a = Reg.LPL_STAT then some ((s.reg a).toNat &&& 0xDFDF ||| b2n (s.pendingOn pLPL) * 0x2000)
  else if a = Reg.LPL_LOAD then some s.lplLoad
  else none

/-- PRF_STATE_CNT0 to 2 (R159). -/
def State.prfView (s : State) (a : Nat) : Option Nat :=
  let n (i : Nat) : Nat := s.prf.counts.getD i 0
  if a = Reg.PRF_STATE_CNT0 then some (n 0 * 65536 + n 1)
  else if a = Reg.PRF_STATE_CNT1 then some (n 2 * 65536 + n 3)
  else if a = Reg.PRF_STATE_CNT2 then some (n 4)
  else none

/-- FAB_IN_UNAVAIL (R42), RCE_STAT.QLEN and RCE_QUEUE (R214). -/
def State.fabView (s : State) (a : Nat) : Option Nat :=
  if Reg.FAB_IN_UNAVAIL ≤ a ∧ a < Reg.FAB_IN_UNAVAIL + 128 then
    some (maskOf ((List.range 32).filter fun i => s.unavail ((a - Reg.FAB_IN_UNAVAIL) / 4 * 32 + i)))
  else if a = Reg.RCE_STAT then some (((s.reg a).toNat &&& 0x1FFFCF07) + s.rce.queue.length % 32 * 8)
  else if Reg.RCE_QUEUE ≤ a ∧ a < Reg.RCE_QUEUE + 128 then some (s.queueWord ((a - Reg.RCE_QUEUE) / 8) (a / 4 % 2))
  else none

/-- The carousel's registers (R270). -/
def State.crsView (s : State) (a : Nat) : Option Nat :=
  if a = Reg.CRS_STAT then some (((s.reg a).toNat &&& 0x3FF003B) + 4 * b2n (s.pendingOn pCRS))
  else if a = Reg.CRS_CYCLE_LEN then some (s.crs.act.cycle % 2 ^ 26)
  else if a = Reg.CRS_SLOT_LEFT then
    some (if s.carousel then (s.crs.act.nextChange s.crs.base s.now - s.now).toNat % 65536 else 0)
  else if a = Reg.CRS_SHD_DATA then some (Sparse.get 0 (s.fld Reg.CRS_SHD_IDX 0 10) s.crs.shd.words)
  else if a = Reg.CRS_ACT_DATA then some (Sparse.get 0 (s.fld Reg.CRS_ACT_IDX 0 10) s.crs.act.words)
  else if a = Reg.CRS_ACT_COUNT then some s.crs.act.count
  else none

/-- Cases PENDING, ACTIVE, WTR or RESTORING, of the 32 from `32 w`. -/
def State.busyWord (s : State) (w : Nat) : Nat := maskOf ((List.range 32).filter fun i => s.caseBusy (32 * w + i))

/-- PRT_RUN of a case (R272). -/
def CaseRun.view (x : CaseRun) : Nat :=
  b2n x.byForce * 2048 + x.trig % 8 * 256 + b2n x.missed * 16 + b2n x.forced * 8 + x.state

/-- The protection page (R272). -/
def State.prtView (s : State) (a : Nat) : Option Nat :=
  let c := s.fld Reg.PRT_CASE_SEL 0 8
  let x := s.caseRun c
  if a = Reg.PRT_STAT then
    some (((List.range 8).map fun w => popCount 32 (s.busyWord w)).foldl (· + ·) 0 * 65536 + s.fld a 3 1 * 8
      + 4 * b2n (s.pendingOn pPRT) + s.fld a 0 2)
  else if a = Reg.PRT_RUN then some x.view
  else if a = Reg.PRT_RUN_WTR then
    some (if x.state = 4 ∧ s.now.toNat < x.wtrEnd.toNat then min 0xFFFFFFFF (x.wtrEnd - s.now).toNat else 0)
  else if a = Reg.PRT_RUN_AT then some (x.at'.toNat % 2 ^ 32)
  else if a = Reg.PRT_SUB_DATA then some (Sparse.get 0 (s.fld Reg.PRT_SUB_IDX 0 14) s.prt.shd.pairs)
  else if a = Reg.PRT_SUBA_DATA then some (Sparse.get 0 (s.fld Reg.PRT_SUBA_IDX 0 14) s.prt.act.pairs)
  else if Reg.PRT_SHD_WIN ≤ a ∧ a < Reg.PRT_SHD_WIN + 64 then some (s.prt.shd.word c ((a - Reg.PRT_SHD_WIN) / 4))
  else if Reg.PRT_ACT_WIN ≤ a ∧ a < Reg.PRT_ACT_WIN + 64 then some (s.prt.act.word c ((a - Reg.PRT_ACT_WIN) / 4))
  else if Reg.PRT_BUSY_MAP ≤ a ∧ a < Reg.PRT_BUSY_MAP + 32 then some (s.busyWord ((a - Reg.PRT_BUSY_MAP) / 4))
  else none

/-- MEA_STAT.GATED, MEA_LOS_MAP, CAL_STAT.PENDING and CAL_WIN (R307, R309). -/
def State.meaView (s : State) (a : Nat) : Option Nat :=
  if a = Reg.MEA_STAT then some (((s.reg a).toNat &&& 0xFFFF0003) + 8 * b2n (!s.roleActs))
  else if Reg.MEA_LOS_MAP ≤ a ∧ a < Reg.MEA_LOS_MAP + 128 then some (s.losMap ((a - Reg.MEA_LOS_MAP) / 4))
  else if a = Reg.CAL_STAT then some (((s.reg a).toNat &&& 0xFFFFFFDF) + 32 * b2n (s.pendingOn pCAL))
  else if Reg.CAL_WIN ≤ a ∧ a < Reg.CAL_WIN + 64 then some (s.calWin ((a - Reg.CAL_WIN) / 4))
  else none

/-- PORT_STAT.GATED, PKT_STAT, PKT_RATE, FWD_CNT.ENTRIES, BPM_FREE and BPM_INSP_DATA (R316, R317, R349 to R353). -/
def State.netView (s : State) (a : Nat) : Option Nat :=
  if a = Reg.PKT_STAT then some (2 * b2n (!s.roleActs) + b2n (s.level == 3))
  else if a = Reg.PKT_RATE then
    some (min 65535 (s.net.decided.filter fun t => decide ((s.frcNow - t).toNat < 1000 * 65536)).length)
  else if a = Reg.FWD_CNT then some s.fwdEntries
  else if a = Reg.BPM_FREE then some s.freeBufs
  else if a = Reg.BPM_INSP_DATA then some s.inspData
  else if 0x060 ≤ pageOf a ∧ pageOf a < 0x0A2 ∧ a = atInst Reg.PORT_STAT (pageOf a - 0x060) then
    some (((s.reg a).toNat &&& 0xDF) + 32 * b2n (!s.roleActs))
  else none

/-- A register behind SCH_SEL: 0 when the selector names nothing (R371). -/
def State.schView (s : State) (a : Nat) : Option Nat :=
  if a = Reg.SCH_SEL ∨ a % 0x1000 < 0x100 then none
  else some (match s.qSel? Reg.SCH_SEL with
    | none => 0
    | some k =>
      let x := s.netQ (k / 8) (k % 8)
      if a = Reg.SCH_PORT_CFG then (s.reg (copyOf (k / 8) a)).toNat
      else if a = Reg.SCH_Q_CREDIT then low 32 x.credit
      else if a = Reg.SCH_Q_STAT then s.qStat (k / 8) (k % 8)
      else if a = Reg.SCH_Q_DEFICIT then x.deficit % 2 ^ 18
      else (s.reg (copyOf k a)).toNat)

/-- A register behind GTE_SEL (R372). -/
def State.gteView (s : State) (a : Nat) : Option Nat :=
  if a = Reg.GTE_SEL ∨ a = Reg.GTE_CMD ∨ a = Reg.GTE_RES ∨ a % 0x1000 < 0x100 then none
  else some (match s.gteSel? with
    | none => 0
    | some n =>
      if a = Reg.GTE_STAT then
        let t := s.gateRefresh n
        let p := t.netPort n
        b2n p.gatePend.isSome * 2 ^ 31 + p.entry % 64 * 65536 + p.gates % 256
      else (s.reg (copyOf n a)).toNat)

/-- A register behind WHL_SEL, and WHL_NOW (R374). -/
def State.whlView (s : State) (a : Nat) : Option Nat :=
  if a = Reg.WHL_NOW then some (s.now.toNat / 8 % 4096)
  else if a = Reg.WHL_SEL ∨ a % 0x1000 < 0x100 then none
  else some (match s.qSel? Reg.WHL_SEL with
    | none => 0
    | some k =>
      let x := s.netQ (k / 8) (k % 8)
      if a = Reg.WHL_Q_WAIT then x.wait % 2 ^ 32
      else if a = Reg.WHL_Q_REM then x.rem_ % 256
      else (s.reg (copyOf k a)).toNat)

/-- The bucket POL_SEL names, as port × 8 + class (R375). -/
def State.polSel? (s : State) : Option Nat :=
  if s.fld Reg.POL_SEL 8 7 ≤ 66 then some (8 * s.fld Reg.POL_SEL 8 7 + s.fld Reg.POL_SEL 0 3) else none

/-- A register behind POL_SEL (R375). -/
def State.polView (s : State) (a : Nat) : Option Nat :=
  if a = Reg.POL_CFG ∨ a = Reg.POL_RATE ∨ a = Reg.POL_TOKENS ∨ a = Reg.POL_CNT then
    some (match s.polSel? with
      | none => 0
      | some k => if a = Reg.POL_TOKENS then Sparse.get 0 k s.net.tokens % 2 ^ 32 else (s.reg (copyOf k a)).toNat)
  else none

/-- The view of a register that shows live state or lies behind a selector. -/
def State.liveView (s : State) (a : Nat) : Option Nat :=
  match pageOf a with
  | 0x001 => s.pwrView a
  | 0x004 => s.tckView a
  | 0x005 => s.ntuView a
  | 0x006 => s.fltView a
  | 0x007 => s.redView a
  | 0x008 => s.hifView a
  | 0x00A => s.hifView a
  | 0x00B => s.evtView a
  | 0x040 => s.lplView a
  | 0x041 => s.prfView a
  | 0x050 => s.fabView a
  | 0x051 => s.fabView a
  | 0x052 => s.crsView a
  | 0x053 => s.prtView a
  | 0x058 => s.meaView a
  | 0x059 => s.meaView a
  | 0x0B3 => s.schView a
  | 0x0B4 => s.gteView a
  | 0x0B5 => s.whlView a
  | 0x0B6 => s.polView a
  | p => if 0x020 ≤ p ∧ p < 0x040 then s.lenView a else s.netView a

/-- What a register word reads as, before any latch. -/
def State.readWord (s : State) (a : Nat) : Word :=
  let page := pageOf a
  let off := a % 0x1000
  if off = OFF_PAGE_STAT then BitVec.ofNat 32 (s.pageStat page)
  else if off = OFF_COMMIT then BitVec.ofNat 32 (b2n (s.pendingOn page) * 2 ^ 31)
  else if off = OFF_FAULT_CNT then BitVec.ofNat 32 (s.faultCnt page)
  else if off < 0x100 then s.reg a
  else match s.liveView a with
  | some v => BitVec.ofNat 32 v
  | none => s.reg a

/-! ### Latches (R380, R474) -/

/-- The registers of 64 and 96 bits: address of the low word in instance 0, instances, distance between instances, words. -/
def wideRegs : List (Nat × Nat × Nat × Nat) :=
  [ (Reg.TCK_NOW, 1, 0, 2), (Reg.TCK_OVR_TICK, 1, 0, 2), (Reg.NTU_RATE, 1, 0, 2), (Reg.NTU_OFFSET, 1, 0, 3)
  , (Reg.NTU_TIME, 1, 0, 3), (Reg.NTU_FRC, 1, 0, 3), (Reg.NTU_PPS_IN_TS, 1, 0, 3)
  , (Reg.RED_SYNC_TICK, 1, 0, 2), (Reg.RED_DIV_TICK, 1, 0, 2), (Reg.RED_DIGEST + 4, 1, 0, 2), (Reg.RED_DIGEST + 16, 1, 0, 2)
  , (Reg.BYV_EFE_ID, 16, 0x1000, 2), (Reg.BYV_MISMATCH_TICK, 16, 0x1000, 2), (Reg.BYV_LOL, 16, 0x1000, 2)
  , (Reg.FAB_DESC_SRC, 1, 0, 2), (Reg.FAB_IMG_SRC, 1, 0, 2)
  , (Reg.RCE_APPLY_TICK, 1, 0, 2), (Reg.RCE_APPLY_TIME, 1, 0, 2), (Reg.RCE_APPLY_AT, 1, 0, 2), (Reg.RCE_CUR_TICK, 1, 0, 2)
  , (Reg.CRS_BASE_TIME, 1, 0, 2), (Reg.CRS_CYCLE_AT, 1, 0, 2), (Reg.CRS_CMT_AT, 1, 0, 2), (Reg.PRT_LAST_TICK, 1, 0, 2)
  , (Reg.MEA_RING_BASE, 1, 0, 2), (Reg.MEA_UPL_DST, 1, 0, 2)
  , (Reg.PORT_CNT + 4, 66, 0x1000, 2), (Reg.PORT_CNT + 48, 66, 0x1000, 2)
  , (Reg.HPT_RING_BASE_LO, 3, 16, 2), (Reg.FWD_RMAC, 1, 0, 2), (Reg.ALM_DA, 1, 0, 2), (Reg.ALM_IN_LEVEL, 1, 0, 2)
  , (Reg.GTE_ADM_BASE, 1, 0, 2), (Reg.GTE_PEND_AT, 1, 0, 2), (Reg.GTE_OPER_BASE, 1, 0, 2) ]

/-- The number of words of the register whose low word lies at an address; 1 for a register of one word. -/
def wideAt (a : Nat) : Nat :=
  match wideRegs.find? fun r => (List.range r.2.1).any fun i => r.1 + i * r.2.2.1 == a with
  | some r => r.2.2.2
  | none => 1

/-- The key of a master's latched word. -/
def latchKey (m a : Nat) : Nat := m * 2 ^ 32 + a

/-- The word a master has latched. -/
def State.latched? (s : State) (m a : Nat) : Option Word :=
  (s.bus.latch.find? fun e => e.1 == latchKey m a).map (·.2)

/-- A master's latches of a word go. -/
def State.unlatch (s : State) (m a : Nat) : State :=
  { s with bus := { s.bus with latch := s.bus.latch.filter fun e => e.1 != latchKey m a } }

/-- Reading the low word latches the higher words for the master. -/
def State.latchHigh (s : State) (m a : Nat) : State :=
  (List.range (wideAt a - 1)).foldl (fun (s : State) i =>
    let b := a + 4 * (i + 1)
    let w := s.readWord b
    let s := s.unlatch m b
    { s with bus := { s.bus with latch := (latchKey m b, w) :: s.bus.latch } }) s

end Sys2Proof.Machine
end

