-- ==== Sys2Proof/Machine/Bus.lean ====
section
/-! DEFINITION. The bus matrix: what a write of each register does, reads, and the memories T1 to T6 (R152, R158, R169, R190, R243,
R320, R465 to R484). -/

namespace Sys2Proof.Machine

/-! ### The effect of a write, register by register -/

/-- A write of INT_EN or INT_FORCE: only the page's bits act, and its summary may rise (R465). -/
def State.intWrite (s : State) (a : Nat) (v : Word) : State :=
  let page := pageOf a
  let v := v &&& BitVec.ofNat 32 (intMask page)
  s.withSummary page fun s =>
    if a % 0x1000 = OFF_INT_EN then s.setReg a v
    else s.setReg (cReg page OFF_INT_STAT) (s.reg (cReg page OFF_INT_STAT) ||| v)

/-- The W1C bits of a register whose condition persists (R445). -/
def State.persistBits (s : State) (a : Nat) : Nat :=
  if Reg.FLT_PEND ≤ a ∧ a < Reg.FLT_PEND + 24 then
    maskOf ((List.range 32).filter fun i => s.summary (32 * ((a - Reg.FLT_PEND) / 4) + i))
  else if Reg.FLT_LINK ≤ a ∧ a < Reg.FLT_LINK + 24 then
    maskOf ((List.range 32).filter fun i =>
      let p := 32 * ((a - Reg.FLT_LINK) / 4) + i
      s.flt.badLink.contains p || s.flt.stuckLink.contains p)
  else if a = Reg.FLT_STAT then 2 * b2n s.severePersists
  else if a = Reg.THM_SENS_FLT then maskOf ((List.range 16).filter fun i => (s.sensor i).retired)
  else 0

/-- The plain write of a register: W1C bits clear, and the others act by their access codes. -/
def State.plainWrite (s : State) (a : Nat) (v : Word) : State :=
  match regRow? a with
  | none => s
  | some (r, _) =>
    let s := if r.rw = 0 ∧ r.rws = 0 then s else s.storeReg a v
    if r.w1c = 0 then s else s.clearBits a v r.w1c (s.persistBits a)

/-- A write of a common register (R473, R487). -/
def State.commonWrite (s : State) (m a : Nat) (v : Word) : State :=
  let page := pageOf a
  let off := a % 0x1000
  if off = OFF_PAGE_CTRL then
    let s := s.storeReg a v
    if bitOf v 1 then s.softReset page else s
  else if off = OFF_INT_EN ∨ off = OFF_INT_FORCE then s.intWrite a v
  else if off = OFF_COMMIT then s.commitWrite m a v
  else s.plainWrite a v

/-- A write of a GLB register; a cold reset samples the straps where they stand (R459, R468, R525). -/
def State.glbWrite (s : State) (m a : Nat) (v : Word) : State :=
  if a = Reg.GLB_REMAP then
    (if s.bit Reg.GLB_REMAP 0 && !bitOf v 0 then s.violate m true a kLocked else s.storeReg a v)
  else if a = Reg.GLB_RESET then s.glbReset m v (s.fld Reg.GLB_STRAP 0 4) true true
  else if a = Reg.GLB_TAKEOVER then s.takeoverWrite v
  else s.plainWrite a v

/-- A write of a THM register (R500 to R508). -/
def State.thmWrite (s : State) (m a : Nat) (v : Word) : State :=
  if a = Reg.THM_CTRL then s.thmCtrlWrite v
  else if a = Reg.THM_SENS_RESTORE then s.sensorRestore (v.toNat % 65536)
  else if a = Reg.THM_SHUT then s.thmShutWrite m v
  else s.plainWrite a v

/-- A write of a RED register (R405 to R434). -/
def State.redWrite (s : State) (a : Nat) (v : Word) : State :=
  if a = Reg.RED_CTRL then s.redCtrlWrite v
  else if a = Reg.RED_CLAIM then s.claimWrite v
  else if a = Reg.RED_MIR_CTRL then s.mirCtrlWrite v
  else s.plainWrite a v

/-- Send the message of a vector that waits, once it is unmasked (R465). -/
def State.sendPba (s : State) (vec : Nat) : State :=
  let p := Reg.HIF_PBA + 4 * (vec / 32)
  if s.bit p (vec % 32) && !s.bit (Reg.HIF_MSIX + 16 * vec + 12) 0 && s.bit Reg.HIF_STAT 9 && !s.bit Reg.HIF_STAT 10 then
    (s.setBit p (vec % 32) false).emit (.msix vec)
  else s

/-- A write of a HIF or BMX register: bits of positions without a page are ignored (R530). -/
def State.hifWrite (s : State) (a : Nat) (v : Word) : State :=
  if Reg.BMX_PROT ≤ a ∧ a < Reg.BMX_PROT + 24 then s.storeReg a (v &&& BitVec.ofNat 32 (s.pageBits ((a - Reg.BMX_PROT) / 4)))
  else if Reg.HIF_VMAP ≤ a ∧ a < Reg.HIF_VMAP + 192 then
    s.storeReg a (v &&& BitVec.ofNat 32 (s.vmapBits ((a - Reg.HIF_VMAP) / 4)))
  else if Reg.HIF_ALERT_EN ≤ a ∧ a < Reg.HIF_ALERT_EN + 24 then
    let s := s.storeReg a (v &&& BitVec.ofNat 32 (s.pageBits ((a - Reg.HIF_ALERT_EN) / 4)))
    { s with bus := { s.bus with smbAlert := s.bus.smbAlert || s.alertHeld } }
  else if Reg.HIF_MSIX ≤ a ∧ a < Reg.HIF_MSIX + 1024 then
    (s.storeReg a v).sendPba ((a - Reg.HIF_MSIX) / 16)
  else s.plainWrite a v

/-- A write of an EVT register (R264 to R267). -/
def State.evtWrite (s : State) (a : Nat) (v : Word) : State :=
  if a = Reg.EVT_PIN_EN then s.pinEnWrite v
  else if a = Reg.EVT_PIN_POL then s.pinPolWrite v
  else if a = Reg.EVT_PIN_STAT ∨ Reg.EVT_LOL_CHATTER ≤ a then s.evtClear a v
  else s.plainWrite a v

/-- A write of a CRS register (R247, R270). -/
def State.crsWrite (s : State) (m a : Nat) (v : Word) : State :=
  if a = Reg.CRS_CTRL then (if bitOf v 0 then s.crsStartCheck else s)
  else if a = Reg.CRS_SHD_COUNT then s.crsCountWrite m v
  else if a = Reg.CRS_SHD_DATA then s.crsDataWrite m v
  else s.plainWrite a v

/-- A write of a PRT register (R255, R262, R272). -/
def State.prtWrite (s : State) (m a : Nat) (v : Word) : State :=
  if a = Reg.PRT_CTRL then (if bitOf v 0 then s.prtStartCheck else s)
  else if a = Reg.PRT_CMD then s.prtCmd v
  else if a = Reg.PRT_SUB_DATA then s.prtSubWrite m v
  else if Reg.PRT_SHD_WIN ≤ a ∧ a < Reg.PRT_SHD_WIN + 64 then s.prtWinWrite m a v
  else s.plainWrite a v

/-- A write of an RSV register (R234, R235, R240). -/
def State.rsvWrite (s : State) (m a : Nat) (v : Word) : State :=
  if a = Reg.RSV_CTRL then s.rsvCtrlWrite v
  else if a = Reg.RSV_SUBMIT then s.rsvSubmit (v.toNat % 32)
  else if Reg.RSV_JOB_W0 ≤ a then s.jobSlotWrite m a v
  else s.plainWrite a v

/-- A write of a FAB or RCE register (R41, R47, R194, R198). -/
def State.fabWrite (s : State) (a : Nat) (v : Word) : State :=
  if a = Reg.FAB_CTRL then s.fabCtrlWrite v
  else if Reg.FAB_RETMAP ≤ a ∧ a < Reg.FAB_RETMAP + 2688 then s.retmapWrite a v
  else if a = Reg.RCE_CTRL then s.rceCtrlWrite v
  else s.plainWrite a v

/-- A write of an MEA or CAL register (R277, R285, R291). -/
def State.meaWrite (s : State) (a : Nat) (v : Word) : State :=
  if a = Reg.MEA_CTRL then s.meaCtrlWrite v
  else if a = Reg.MEA_WIN then s.meaWinWrite v
  else if Reg.MEA_LOS_EN ≤ a ∧ a < Reg.MEA_LOS_EN + 128 then s.losEnWrite a v
  else if a = Reg.CAL_CTRL then s.calCtrlWrite v
  else s.plainWrite a v

/-- A write of a register of the packet engine (R322, R337, R339, R350 to R354). -/
def State.netWrite (s : State) (m a : Nat) (v : Word) : State :=
  if a = Reg.HPT_CTRL then s.hptCtrlWrite v
  else if Reg.HPT_RING_BASE_LO ≤ a ∧ a < Reg.HPT_RING_BASE_LO + 48 then s.ringWrite a v
  else if a = Reg.FWD_CMD then s.fwdCmd v
  else if a = Reg.FWD_STEM_DATA4 then s.tableWrite 0 v
  else if a = Reg.FWD_NH_DATA2 then s.tableWrite 1 v
  else if a = Reg.FWD_VLAN_DATA2 then s.tableWrite 2 v
  else if Reg.BPM_POOL_CFG0 ≤ a ∧ a < Reg.BPM_POOL_CFG0 + 64 then s.poolCfgWrite m a v
  else if a = Reg.BPM_CMD then s.bpmCmd m v
  else if a = Reg.ALM_SEND then s.almSend v
  else if a = Reg.ALM_IN_CLEAR ∨ a = Reg.ALM_IN_CLEAR + 4 then s.almClear ((a - Reg.ALM_IN_CLEAR) / 4) v
  else s.plainWrite a v

/-- A write of a scheduling register behind a selector (R366 to R375). -/
def State.schedWrite (s : State) (m a : Nat) (v : Word) : State :=
  if a = Reg.SCH_PORT_CFG then
    (match s.qSel? Reg.SCH_SEL with | none => s | some k => s.storeReg (copyOf (k / 8) a) v)
  else if a = Reg.SCH_Q_CFG ∨ a = Reg.SCH_Q_RATE ∨ a = Reg.SCH_Q_BURST then s.schQWrite a v
  else if a = Reg.GTE_CMD then s.gteCmd v
  else if pageOf a = 0x0B4 ∧ a ≠ Reg.GTE_SEL then s.gteAdmWrite m a v
  else if a = Reg.WHL_Q_SPB then
    (match s.qSel? Reg.WHL_SEL with | none => s | some k => s.storeReg (copyOf k a) v)
  else if a = Reg.POL_CFG then s.polCfgWrite v
  else if a = Reg.POL_RATE then (match s.polSel? with | none => s | some k => s.storeReg (copyOf k a) v)
  else s.plainWrite a v

/-- What a write to a register does, once the access rules accept it. -/
def State.regEffect (s : State) (m a : Nat) (v : Word) : State :=
  let p := pageOf a
  let s := if p = 0x005 ∧ a % 0x1000 < 0x100 then s.ntuDiscard [] else s
  if a % 0x1000 < 0x100 then s.commonWrite m a v
  else if p = 0x000 then s.glbWrite m a v
  else if p = 0x001 then (if a = Reg.PWR_CTRL then s.pwrCtrlWrite v else s.plainWrite a v)
  else if p = 0x002 then s.thmWrite m a v
  else if p = 0x004 then (if a = Reg.TCK_CTRL then s.tckCtrlWrite v else s.plainWrite a v)
  else if p = 0x005 then
    (if Reg.NTU_PORT_STEP ≤ a ∧ a % 0x20 = 0x10 then (s.ntuDiscard []).plainWrite a v else s.ntuWrite m a v)
  else if p = 0x006 then (if a = Reg.FLT_CTRL then s.fltCtrlWrite v else s.plainWrite a v)
  else if p = 0x007 then s.redWrite a v
  else if p = 0x008 ∨ p = 0x00A then s.hifWrite a v
  else if p = 0x00B then s.evtWrite a v
  else if 0x010 ≤ p ∧ p < 0x020 then
    (if a = atInst Reg.BYV_CTRL (p - 0x010) then s.byvCtrlWrite (p - 0x010) v else s.plainWrite a v)
  else if 0x020 ≤ p ∧ p < 0x040 then
    (if a = atInst Reg.LEN_CTRL (p - 0x020) ∧ bitOf v 0 then s.lenRetire (p - 0x020) else s.plainWrite a v)
  else if a = Reg.LPL_CTRL then s.lplCtrlWrite v
  else if a = Reg.LPL_GUARANTEE then s.guaranteeWrite v
  else if p = 0x050 ∨ p = 0x051 then s.fabWrite a v
  else if p = 0x052 then s.crsWrite m a v
  else if p = 0x053 then s.prtWrite m a v
  else if p = 0x054 then s.rsvWrite m a v
  else if p = 0x058 ∨ p = 0x059 then s.meaWrite a v
  else if 0x060 ≤ p ∧ p < 0x0A2 then
    (if a = atInst Reg.PORT_CTRL (p - 0x060) then s.portCtrlWrite (p - 0x060) v else s.plainWrite a v)
  else if 0x0B3 ≤ p ∧ p < 0x0B7 then s.schedWrite m a v
  else s.netWrite m a v

/-- A 32-bit write of a register by a master (R474 to R481). -/
def State.regWrite (s : State) (m a : Nat) (v : Word) : State :=
  (s.gateWrite m a v fun s => s.regEffect m a v).unlatch m a

/-! ### Memory (R467 to R471, R479) -/

/-- The core clock stands still or the device does not answer: an access to memory waits. -/
def State.memHeld (s : State) : Bool := !s.bit Reg.CLK_STAT 0 || s.off || s.flt.inReset

/-- An address of T6 lies in the boot ROM (R468). -/
def State.inRom (s : State) (a : Nat) : Bool := decide (a < 0x40000) != s.bit Reg.GLB_REMAP 0

/-- Where a byte of working SRAM is kept, whichever half shows it. -/
def sramAt (a : Nat) : Nat := 0x40000 + a % 0x40000

/-- One byte of packet memory (R331). -/
def State.packetByte (s : State) (a : Nat) : Byte :=
  (s.buf ((a - 0x13000000) / 256)).data.getD ((a - 0x13000000) % 256) 0

/-- One byte as a master reads it from T1 to T6: key slots and reserved ranges read 0 (R469, R471). -/
def State.readByte (s : State) (a : Nat) : Byte :=
  if a < 0x80000 then (if s.inRom a then Config.bootRom (a % 0x10000) else s.byte (sramAt a))
  else if 0x15E03000 ≤ a ∧ a < 0x16000000 then 0
  else if 0x12810000 ≤ a ∧ a < 0x12820000 then 0
  else if 0x13000000 ≤ a ∧ a < 0x13400000 then s.packetByte a
  else s.memByte a

/-- A write to bytes of packet memory changes the buffers that lie there. -/
def State.packetWrite (s : State) (a : Nat) (l : List Byte) : State :=
  l.zipIdx.foldl (fun (s : State) (e : Byte × Nat) =>
    let o := a + e.2 - 0x13000000
    s.setBuf (o / 256) fun b =>
      { b with data := (b.data ++ List.replicate (o % 256 + 1 - b.data.length) (0 : Byte)).set (o % 256) e.1 }) s

/-- A 32-bit word with the bytes `l` put at byte `o` of it. -/
def mergeWord (w : Word) (o : Nat) (l : List Byte) : Word :=
  let b := toLE 4 w.toNat
  BitVec.ofNat 32 (leNat (b.take o ++ l ++ b.drop (o + l.length)))

/-- The 32-bit words that bytes at `a` touch: address, byte offset in the word, and bytes. -/
def wordParts (a : Nat) (l : List Byte) : List (Nat × Nat × List Byte) :=
  let n := 4 - a % 4
  if l.length ≤ n then [(a / 4 * 4, a % 4, l)] else [(a / 4 * 4, a % 4, l.take n), (a / 4 * 4 + 4, 0, l.drop n)]

/-- A beat to the connection context table: each word it touches is written (R243, R479). -/
def State.ctxBeat (s : State) (m a : Nat) (l : List Byte) : State :=
  if !s.ctxMayWrite m then s.violate m true a kRefused
  else (wordParts a l).foldl (fun (s : State) p =>
    let i := (p.1 - 0x12000000) / 8
    let high := p.1 % 8 == 4
    let cur := if high then s.memWord p.1 else (match s.ctxHeldOf m i with | some w => w | none => s.memWord p.1)
    s.ctxWordWrite m i high (mergeWord cur p.2.1 p.2.2)) s

/-- The mirror agent is in the Trapeze or mirrors the active (R158). -/
def State.mirrorWrites (s : State) : Bool := s.trapPhase != 0

/-- A beat to loop memory (R152, R156, R158, R169). -/
def State.loopBeat (s : State) (m a : Nat) (l : List Byte) : State :=
  let refuse := s.violate m true a kRefused
  if a < 0x12808000 then refuse
  else if a < 0x12810000 then
    (if (s.pendingOn pPRF && s.bit Reg.PRF_CTRL 0) || s.bit Reg.PRF_STAT 1 then refuse else s.setBytes a l)
  else if a < 0x12820000 then refuse
  else if a < 0x129A0000 then
    (if m ≠ 3 ∨ !s.mirrorWrites then refuse
      else (wordParts a l).foldl (fun (s : State) p =>
        s.ctxWrite ((p.1 - 0x12820000) / 128) (p.1 % 128) (mergeWord (s.memWord p.1) p.2.1 p.2.2)) s)
  else if a < 0x129E0000 then refuse
  else if a < 0x12A20000 then (if s.bit Reg.LPL_STAT 9 then refuse else (s.setBytes a l).clearChecked)
  else refuse

/-- Writes of MRAM by a master are made only while the device acts and has power; in recovery mode, M0 and M1 may replace
microcode in every role (R470, R523). -/
def State.mramOpen (s : State) (m a : Nat) : Bool :=
  !s.bit Reg.NVM_STAT 1
    && (s.roleActs || (s.recovery && (m == 0 || m == 1) && decide (a < 0x14400000)))

/-- A beat to MRAM: one word is written (R469 to R471). -/
def State.mramBeat (s : State) (m a : Nat) (l : List Byte) : State :=
  if 0x15E03040 ≤ a then s.violate m true a kReserved
  else if 0x15E03000 ≤ a ∧ m ≠ 0 ∧ m ≠ 1 then s.violate m true a kRefused
  else if !s.mramOpen m a then ((s.count Reg.NVM_GATED).raise 0x009 0).violate m true a kRole
  else
    let s := (s.setBytes a l).nvmCount 1
    if a = 0x15E03018 ∨ (0x15E03018 ≤ a ∧ a < 0x15E03020) then s.takeKey 0
    else if 0x15E03038 ≤ a ∧ a < 0x15E03040 then s.takeKey 1
    else s

/-- One beat of a write to T1 to T6, or a beat that falls on another target: bytes of one aligned 64-bit word. -/
def State.writeBeat (s : State) (m a : Nat) (l : List Byte) : State :=
  match s.target a with
  | 1 => if s.storeRefused m ((a - 0x10000000) / 0x1000) then s.violate m true a kInUse else s.setBytes a l
  | 2 => s.ctxBeat m a l
  | 3 => s.loopBeat m a l
  | 4 => if a < 0x13000000 then s.violate m true a kRefused else s.packetWrite a l
  | 5 => s.mramBeat m a l
  | 6 => if s.inRom a then s.violate m true a kReadOnly else s.setBytes (sramAt a) l
  | 0 => s.violate m true a kWidth
  | _ => s.decodeErr m true a

/-- The beats of a run of bytes: address and bytes of each aligned 64-bit word it touches. -/
def beats : Nat → Nat → List Byte → List (Nat × List Byte)
  | 0, _, _ => []
  | _, _, [] => []
  | k + 1, a, l => (a, l.take (8 - a % 8)) :: beats k (a + (8 - a % 8)) (l.drop (8 - a % 8))

/-- A write of bytes to memory, beat by beat. -/
def State.memWrite (s : State) (m a : Nat) (l : List Byte) : State :=
  if s.memHeld then { s with bus := { s.bus with held := s.bus.held ++ [⟨m, true, a, 0, l⟩], last := ⟨m, true, a, .held, 0⟩ } }
  else (beats (l.length + 1) a l).foldl (fun (s : State) b => s.writeBeat m b.1 b.2) (s.respond m true a .ok 0)

/-- A 32-bit read of memory: the forwarding table is read by M0 and M1 only (R320). -/
def State.memRead (s : State) (m a : Nat) : State :=
  if s.memHeld then { s with bus := { s.bus with held := s.bus.held ++ [⟨m, false, a, 0, []⟩], last := ⟨m, false, a, .held, 0⟩ } }
  else if 0x12C00000 ≤ a ∧ a < 0x13000000 ∧ m ≠ 0 ∧ m ≠ 1 then s.violate m false a kRefused
  else s.respond m false a .ok (BitVec.ofNat 32 (leNat ((List.range 4).map fun i => s.readByte (a + i))))

/-! ### Whole accesses -/

/-- A 32-bit read of a register: the value, its latches, and the index that CRS_ACT_DATA, PRT_SUB_DATA or PRT_SUBA_DATA
advances. -/
def State.regRead (s : State) (m a : Nat) : State :=
  if s.off || s.flt.inReset then s.holdAccess m false a 0
  else if s.target a ≠ 0 then s.decodeErr m false a
  else if s.accessHeld m a then s.holdAccess m false a 0
  else if a % 4 ≠ 0 then s.violate m false a kWidth
  else if decide (3 ≤ m) && decide (m ≤ 6) && s.protected (pageOf a) then s.violate m false a kPriv
  else if (regRow? a).isNone then s.violate m false a kReserved
  else
    let v := match s.latched? m a with | some w => w | none => s.readWord a
    let s := (s.latchHigh m a).respond m false a .ok v
    let s := if a = Reg.CRS_ACT_DATA then s.crsActRead.1 else s
    let s := if a = Reg.PRT_SUBA_DATA then s.prtSubRead.1 else s
    let s := if a = Reg.PRT_SUB_DATA then s.prtSubNext else s
    if a = Reg.PWR_VIN ∨ a = Reg.PWR_BUS then s.tick1 else s

/-- A 32-bit read by a master at any address. -/
def State.busRead (s : State) (m a : Nat) : State :=
  if s.target a = 0 ∨ s.target a = 7 then s.regRead m a else s.memRead m a

/-- The runs of enabled bytes among the four of a word: first byte and length. -/
def byteRuns : Nat → Nat → List (Nat × Nat)
  | 0, _ => []
  | i + 1, en =>
    let l := byteRuns i en
    if !bitAt en i then l
    else match l.getLast? with
      | some (a, n) => if a + n = i then l.dropLast ++ [(a, n + 1)] else l ++ [(i, 1)]
      | none => [(i, 1)]

/-- A 32-bit write by a master at any address, with its byte enables; T0 takes whole aligned words only (R474), and memory takes
each run of enabled bytes (R479). -/
def State.busWrite (s : State) (m a : Nat) (v : Word) (en : Nat) : State :=
  if s.target a = 7 then s.regWrite m a v
  else if s.target a = 0 then
    (if s.accessHeld m a ∨ (a % 4 = 0 ∧ en % 16 = 15) then s.regWrite m a v else s.violate m true a kWidth)
  else (byteRuns 4 en).foldl (fun (s : State) r =>
    s.memWrite m (a + r.1) (((toLE 4 v.toNat).drop r.1).take r.2)) s

/-- A JTAG access has completed: what Capture-DR returns (R486). -/
def State.captured (s : State) : State :=
  let r := s.bus.last
  let st := match r.status with | .ok => 0 | .quiet => 0 | .held => 2 | _ => 1
  let d := if r.write then Config.memaccWrite s.fresh else r.data
  let s := if r.write then s.tick1 else s
  { s with jtag := { s.jtag with status := st, data := d } }

/-- An SMBus READ has completed: its status byte and word (R485). -/
def State.smbDone (s : State) : State :=
  let r := s.bus.last
  let st := match r.status with | .ok => 0 | .quiet => 0 | _ => 1
  { s with bus := { s.bus with smbStatus := st, smbData := r.data } }

/-- Held accesses are made now, in the order they came; those still held stay in their order (R452, R474, R533). -/
def State.replay (s : State) : State :=
  let l := s.bus.held
  l.foldl (fun (s : State) (h : HeldAcc) =>
    let s := if h.data ≠ [] then s.memWrite h.master h.addr h.data
      else if h.write then s.regWrite h.master h.addr h.value
      else s.busRead h.master h.addr
    if s.bus.last.status = .held then s
    else if h.master = 1 then s.captured
    else if h.master = 7 ∧ !h.write then s.smbDone
    else s) { s with bus := { s.bus with held := [] } }

end Sys2Proof.Machine
end

