-- ==== Sys2Proof/Machine/Sha.lean ====
section
/-! DEFINITION. SHA-256 (FIPS 180-4) and HMAC-SHA-256 (RFC 2104), which R347 names. Its constants are
computed from their definition: the first 32 bits of the fractional parts of roots of the first primes. -/

namespace Sys2Proof.Machine

/-- The greatest root `r + x`, `x` below 2^`bits`, whose power `k` is at most `v`. -/
def powRoot (k v : Nat) : Nat → Nat → Nat
  | 0, r => r
  | bits + 1, r => powRoot k v bits (if (r + 2 ^ bits) ^ k ≤ v then r + 2 ^ bits else r)

/-- The first 64 primes are the primes below 312. -/
def smallPrimes : List Nat :=
  (List.range 312).filter fun p => 2 ≤ p && (List.range 18).all fun d => d < 2 || p ≤ d || p % d != 0

/-- The first 32 fractional bits of the `k`-th root of `p`. -/
def rootFraction (k p : Nat) : BitVec 32 := BitVec.ofNat 32 (powRoot k (p <<< (32 * k)) 37 0)

/-- What a block is mixed into: the last four values of each of the two recurrences of the compression,
newest first. -/
structure ShaMix where
  hist : List (BitVec 32)
  echo : List (BitVec 32)
  deriving DecidableEq, Repr

/-- The exclusive or of `x` turned right by each amount. -/
def turns (x : BitVec 32) (by' : List Nat) : BitVec 32 := by'.foldl (fun acc n => acc ^^^ x.rotateRight n) 0

/-- The message word that follows the sixteen of `past`, newest first. -/
def shaNext (past : List (BitVec 32)) : BitVec 32 :=
  let back (n : Nat) : BitVec 32 := past.getD (n - 1) 0
  back 16 + back 7 + (turns (back 15) [7, 18] ^^^ (back 15 >>> 3)) + (turns (back 2) [17, 19] ^^^ (back 2 >>> 10))

/-- One step of the compression with the key word of its prime and its message word. -/
def ShaMix.feed (m : ShaMix) (key word : BitVec 32) : ShaMix :=
  let at' (l : List (BitVec 32)) (n : Nat) : BitVec 32 := l.getD n 0
  let pick := at' m.echo 2 ^^^ (at' m.echo 0 &&& (at' m.echo 1 ^^^ at' m.echo 2))
  let vote := (at' m.hist 0 &&& (at' m.hist 1 ||| at' m.hist 2)) ||| (at' m.hist 1 &&& at' m.hist 2)
  let carry := at' m.echo 3 + turns (at' m.echo 0) [6, 11, 25] + pick + key + word
  { hist := (carry + turns (at' m.hist 0) [2, 13, 22] + vote) :: m.hist.take 3
    echo := (at' m.hist 3 + carry) :: m.echo.take 3 }

/-- The steps of the compression over the primes left, the words used so far newest first, the words of the
block not yet used in `block`. -/
def ShaMix.run (m : ShaMix) : List Nat → List (BitVec 32) → List (BitVec 32) → ShaMix
  | [], _, _ => m
  | p :: ps, block, past =>
    let w := block.headD (shaNext past)
    (m.feed (rootFraction 3 p) w).run ps (block.drop 1) ((w :: past).take 16)

/-- The initial value: the square roots of the first eight primes. -/
def ShaMix.start : ShaMix :=
  { hist := (smallPrimes.take 4).map (rootFraction 2), echo := ((smallPrimes.drop 4).take 4).map (rootFraction 2) }

/-- The words of one block of 64 bytes, most significant byte first. -/
def blockWords : Nat → List Byte → List (BitVec 32)
  | 0, _ => []
  | n + 1, b => BitVec.ofNat 32 (beNat (b.take 4)) :: blockWords n (b.drop 4)

/-- One block taken into the value. -/
def ShaMix.absorb (m : ShaMix) (b : List Byte) : ShaMix :=
  let r := m.run smallPrimes (blockWords 16 b) []
  { hist := List.zipWith (· + ·) m.hist r.hist, echo := List.zipWith (· + ·) m.echo r.echo }

/-- The message with its closing bit, its zeros and its length in bits, to whole blocks. -/
def shaPad (m : List Byte) : List Byte :=
  m ++ (0x80 : Byte) :: (List.replicate ((119 - m.length % 64) % 64) (0 : Byte) ++ toBE 8 (8 * m.length))

/-- SHA-256 of a message. -/
def sha256 (m : List Byte) : List Byte :=
  let p := shaPad m
  let r := (List.range (p.length / 64)).foldl (fun v i => v.absorb (sliceB p (64 * i) 64)) ShaMix.start
  (r.hist ++ r.echo).flatMap fun w => toBE 4 w.toNat

/-- HMAC-SHA-256 under a key of at most 64 bytes. -/
def hmacSha256 (key m : List Byte) : List Byte :=
  let masked (x : Byte) : List Byte := (key ++ List.replicate (64 - key.length) (0 : Byte)).map (x ^^^ ·)
  sha256 (masked 0x5C ++ sha256 (masked 0x36 ++ m))

end Sys2Proof.Machine
end

