-- ==== Sys2Proof/Machine/Mgt.lean ====
section
/-! DEFINITION. The management agent (R346 to R348). -/

namespace Sys2Proof.Machine

/-- A received management frame: ingress port, source, VID, and its payload up to and with whatever follows TAG. -/
structure MgtFrame where
  port : Nat
  src : Nat
  vid : Nat
  pay : List Byte
  deriving DecidableEq, Repr

/-- Fields of the payload (R346). -/
def MgtFrame.op (f : MgtFrame) : Nat := leAt f.pay 1 1
def MgtFrame.sess (f : MgtFrame) : Nat := leAt f.pay 2 1
def MgtFrame.cnt (f : MgtFrame) : Nat := leAt f.pay 3 1
def MgtFrame.target (f : MgtFrame) : Nat := leAt f.pay 4 2
def MgtFrame.key (f : MgtFrame) : Nat := leAt f.pay 6 2
def MgtFrame.nonce (f : MgtFrame) : Nat := leAt f.pay 8 8

/-- The bytes before TAG, and TAG. -/
def MgtFrame.body (f : MgtFrame) : List Byte := f.pay.take (16 + 8 * f.cnt)
def MgtFrame.tag (f : MgtFrame) : List Byte := sliceB f.pay (16 + 8 * f.cnt) 32

/-- The operations: ADDR and DATA of each. -/
def MgtFrame.ops (f : MgtFrame) : List (Nat × Nat) :=
  (List.range f.cnt).map fun i => (leAt f.pay (16 + 8 * i) 4, leAt f.pay (20 + 8 * i) 4)

/-- A field is malformed: VER, OP, SESSION, COUNT, KEY, the upper half of SEQ, or a payload that ends before its TAG does. -/
def MgtFrame.malformed (f : MgtFrame) : Bool :=
  decide (f.pay.length < 16) || leAt f.pay 0 1 != 1 || !(f.op == 1 || f.op == 3 || f.op == 5)
    || decide (f.sess > 3) || (f.op == 1 && f.sess != 0) || decide (f.cnt > 32) || decide (f.key > 1)
    || (f.op != 1 && decide (f.nonce ≥ 2 ^ 32)) || decide (f.pay.length < 48 + 8 * f.cnt)

/-- A payload before its TAG. -/
def mgtBody (op sess target key nonce : Nat) (ops : List (Nat × Nat)) : List Byte :=
  toLE 1 1 ++ toLE 1 op ++ toLE 1 sess ++ toLE 1 ops.length ++ toLE 2 target ++ toLE 2 key ++ toLE 8 nonce
    ++ (ops.map fun o => toLE 4 o.1 ++ toLE 4 o.2).flatten

/-- The key of a slot, and whether it is valid (R347). -/
def State.mgtKey (s : State) (n : Nat) : List Byte := if n = 0 then s.net.key0 else s.net.key1
def State.mgtKeyOk (s : State) (n : Nat) : Bool := (s.mgtKey n).any (· != 0)

/-- A frame was served in a session: it is the latest used, and its idle time starts anew. -/
def State.mgtUsed (s : State) (i : Nat) : State :=
  let s := { s with net := { s.net with sessOrder := s.net.sessOrder + 1 } }
  s.setSession i { s.session i with used := s.net.sessOrder, idleFrom := s.frcNow }

/-- A reply leaves for the request's source, on its VID, out of its ingress port, in queue MGT_CTRL.QUEUE, from pool 3 (R348). -/
def State.mgtReply (s : State) (port dst vid : Nat) (pay : List Byte) : State :=
  let q := s.fld Reg.MGT_CTRL 8 3
  let rest := toBE 2 (s.fld Reg.MGT_CTRL 16 16) ++ pay
  if port = 66 then s.hostRx rHOST 66 vid q none (padFrame (frameBytes dst s.rmac none rest))
  else
    let untag := s.bit (atInst Reg.PORT_VLAN port) 16 && s.fld (atInst Reg.PORT_VLAN port) 0 12 == vid
    (s.originate 68 q (padFrame (frameBytes dst s.rmac (if untag then none else some (vid + 8192 * q)) rest)) [port]).2

/-! ### OPEN and CLOSE -/

/-- The session an OPEN opens: a closed one, else the least recently used, which closes first. -/
def State.openSlot (s : State) : Nat × State :=
  let free := (List.range 4).filter fun i => !(s.session i).active
  if free.isEmpty then
    let least := ((List.range 4).map fun i => (s.session i).used).foldl min (s.session 0).used
    let i := ((List.range 4).find? fun i => (s.session i).used == least).getD 0
    (i, s.mgtClose i)
  else s.choose free

/-- A valid OPEN (R347, R348). -/
def State.mgtOpen (s : State) (f : MgtFrame) : State :=
  let (i, s) := s.openSlot
  let sn := Config.sessionNonce s.fresh
  let s := s.tick1
  let s := s.setSession i { active := true, sn := sn, last := 0, key := f.key, used := 0, idleFrom := 0 }
  let s := ((s.mgtUsed i).setBit Reg.MGT_STAT i true).raise pPKT 2
  let s := s.count (Reg.MGT_CNT + 28)
  let b := mgtBody 2 i f.target f.key sn.toNat []
  s.mgtReply f.port f.src f.vid (b ++ hmacSha256 (s.mgtKey f.key) (sliceB f.pay 8 8 ++ b))

/-- A valid CLOSE. -/
def State.mgtCloseFrame (s : State) (f : MgtFrame) : State :=
  let sn := (s.session f.sess).sn
  let s := s.mgtClose f.sess
  let b := mgtBody 6 f.sess f.target f.key f.nonce []
  s.mgtReply f.port f.src f.vid (b ++ hmacSha256 (s.mgtKey f.key) (toLE 8 sn.toNat ++ b))

/-! ### REQUEST -/

/-- The RESPONSE of a request whose operations have all been run. -/
def State.mgtAnswer (s : State) (w : MgtWait) : State :=
  let bad := (w.done.filter fun o => o.1 % 4 != 0).length
  let s := s.bump (Reg.MGT_CNT + 24) 0 32 bad
  let b := mgtBody 4 w.sess w.target w.key w.seq w.done
  s.mgtReply w.port w.dst w.vid (b ++ hmacSha256 (s.mgtKey w.key) (toLE 8 w.sn.toNat ++ b))

/-- Status of the latest response, as an operation's. -/
def State.opStatus (s : State) : Nat := match s.bus.last.status with | .ok => 0 | .quiet => 0 | _ => 1

/-- One operation as master M2: its result, or `none` with nothing done where the access is held (R474). -/
def State.mgtOp (s : State) (o : Nat × Nat) : Option (Nat × Nat) × State :=
  let a := o.1 / 4 * 4
  match o.1 % 4 with
  | 0 =>
    let t := s.busRead 2 a
    if t.bus.last.status = .held then (none, s) else (some (a + t.opStatus, t.bus.last.data.toNat), t)
  | 1 =>
    let t := s.busWrite 2 a (BitVec.ofNat 32 o.2) 15
    if t.bus.last.status = .held then (none, s) else (some (a + t.opStatus, o.2), t)
  | _ => (some (a + 2, o.2), s)

/-- An operation that resets the device: the RESPONSE goes first (R452). -/
def State.mgtResets (s : State) (o : Nat × Nat) : Bool :=
  let v := BitVec.ofNat 32 o.2
  o.1 == Reg.GLB_RESET + 1 && Machine.fld v 16 16 == 0x5A5A && Machine.fld v 0 2 != 0
    && !s.accessHeld 2 Reg.GLB_RESET && (s.writeRefusal? 2 Reg.GLB_RESET v).isNone

/-- The operations of a request, in order, until all have been run or one is held. -/
def State.mgtRun : List (Nat × Nat) → MgtWait → State → State
  | [], w, s => s.mgtAnswer w
  | o :: t, w, s =>
    if s.mgtResets o then
      let rest := t.map fun o => (o.1 / 4 * 4 + 3, o.2)
      (s.mgtAnswer { w with done := w.done ++ [(o.1 / 4 * 4, o.2)] ++ rest }).busWrite 2 Reg.GLB_RESET (BitVec.ofNat 32 o.2) 15
    else
      match s.mgtOp o with
      | (some r, s) => State.mgtRun t { w with done := w.done ++ [r] } s
      | (none, s) => { s with net := { s.net with waits := s.net.waits ++ [{ w with left := o :: t }] } }

/-- A request starts, or waits behind one that is held. -/
def State.mgtStart (s : State) (w : MgtWait) : State :=
  if s.net.waits.isEmpty then State.mgtRun w.left w s
  else { s with net := { s.net with waits := s.net.waits ++ [w] } }

/-- Held accesses have completed: the requests that waited go on, in their order. -/
def State.resumeMgt (s : State) : State :=
  s.net.waits.foldl (fun (s : State) w => s.mgtStart w) { s with net := { s.net with waits := [] } }

/-- A valid REQUEST. -/
def State.mgtRequest (s : State) (f : MgtFrame) : State :=
  let w : MgtWait :=
    { port := f.port, dst := f.src, vid := f.vid, sess := f.sess, target := f.target, key := f.key
      sn := (s.session f.sess).sn, seq := f.nonce, left := f.ops }
  s.mgtStart w

/-! ### Checks (R348) -/

/-- The tag of a frame is right: it names the slot of KEY_SEL, whose key is valid, and a frame other than OPEN an open session
(R347, R348, R351). -/
def State.mgtAuth (s : State) (f : MgtFrame) : Bool :=
  let sn := if f.op = 1 then [] else toLE 8 (s.session f.sess).sn.toNat
  f.key == s.fld Reg.MGT_CTRL 1 1 && s.mgtKeyOk f.key && (f.op == 1 || (s.session f.sess).active)
    && hmacSha256 (s.mgtKey f.key) (sn ++ f.body) == f.tag

/-- The agent receives a frame. -/
def State.mgtFrame (s : State) (f : MgtFrame) : State :=
  let c := Reg.MGT_CNT
  if !s.roleActs || !s.bit Reg.MGT_CTRL 0 then s.count (c + 12)
  else if f.pay.length ≥ 6 ∧ f.target ≠ s.fld Reg.NTU_NODE 0 14 then s.count (c + 16)
  else if f.malformed then s.count (c + 20)
  else if !s.mgtAuth f then (s.count (c + 4)).raise pPKT 0
  else if f.op ≠ 1 ∧ f.nonce < (s.session f.sess).last then (s.count (c + 8)).raise pPKT 1
  else
    let s := s.count c
    if f.op = 1 then s.mgtOpen f
    else
      let s := (s.setSession f.sess { s.session f.sess with last := f.nonce + 1 }).mgtUsed f.sess
      if f.op = 3 then s.mgtRequest f else s.mgtCloseFrame f

/-- Sessions without a valid frame for MGT_IDLE ms close. -/
def State.mgtIdle (s : State) : State :=
  let ms := max 1 (s.fld Reg.MGT_IDLE 0 16)
  (List.range 4).foldl (fun (s : State) i =>
    let x := s.session i
    if x.active ∧ (s.frcNow - x.idleFrom).toNat ≥ ms * 1000000 * 65536 then s.mgtClose i else s) s

/-- MGT_IDLE_EXPIRY (R348). -/
def execMgtIdleExpiry (cycle : Nat) (s : State) : Host.Outcome State Fault Refusal := .next (s.atCycle cycle).mgtIdle

end Sys2Proof.Machine
end

