-- ==== Sys2Proof/Machine/Frames.lean ====
section
/-! DEFINITION. Received frames and the host's TX frames: the steps of R318 with the forwarding decision (R314, R318 to R329,
R339, R369), and PTP messages (R381 to R388). -/

namespace Sys2Proof.Machine

/-- A frame on its way through the steps of R318. -/
structure Rx where
  port : Nat
  /-- Its ingress stamp; none on the host port (R383). -/
  stamp : Option (BitVec 96)
  /-- Its bytes as received, without FCS. -/
  data : List Byte
  vid : Nat
  cls : Nat
  chain : List Nat
  deriving DecidableEq, Repr

/-- Where the EtherType stands: after one 802.1Q tag or none. -/
def etypeAt (l : List Byte) : Nat := if beNat (sliceB l 12 2) = 0x8100 then 16 else 12

/-- The EtherType and what follows it; the frame without its tag; its addresses. -/
def Rx.rest (x : Rx) : List Byte := x.data.drop (etypeAt x.data)
def Rx.etype (x : Rx) : Nat := beNat (x.rest.take 2)
def Rx.bare (x : Rx) : List Byte := x.data.take 12 ++ x.rest
def Rx.da (x : Rx) : Nat := beNat (x.data.take 6)
def Rx.sa (x : Rx) : Nat := beNat (sliceB x.data 6 6)

/-- The tag control word, if the frame is tagged. -/
def tagOf (l : List Byte) : Option Nat := if etypeAt l = 16 then some (beNat (sliceB l 14 2)) else none

/-- VID and class of a frame on a port (R318 step 3); the host port has no PORT_VLAN. -/
def State.vidClass (s : State) (port : Nat) (l : List Byte) : Nat × Nat :=
  let pvid := if port < 66 then s.fld (atInst Reg.PORT_VLAN port) 0 12 else Config.hostVlan % 4096
  let pcp := if port < 66 then s.fld (atInst Reg.PORT_VLAN port) 12 3 else Config.hostVlan / 4096 % 8
  match tagOf l with
  | some t => (if t % 4096 = 0 then pvid else t % 4096, t / 8192)
  | none => (pvid, pcp)

/-- Port `n` is a member of a VID (R352). -/
def State.member (s : State) (vid n : Nat) : Bool := bitAt (Sparse.get 0 vid s.net.vlans) n

/-- The frame goes no further: its buffers are freed. -/
def State.rxDrop (s : State) (x : Rx) : State := s.freeChain x.chain

/-- A copy for the host port, as received. -/
def State.rxCopy (s : State) (x : Rx) (reason : Nat) : State := s.hostRx reason x.port x.vid x.cls x.stamp x.bare

/-- The frame goes to the host port only. -/
def State.rxTrap (s : State) (x : Rx) (reason : Nat) : State := (s.rxCopy x reason).rxDrop x

/-! ### Leaving (R323, R356) -/

/-- A frame of VID `vid` leaves port `n` untagged (R323). -/
def State.untags (s : State) (n vid : Nat) : Bool :=
  s.bit (atInst Reg.PORT_VLAN n) 16 && s.fld (atInst Reg.PORT_VLAN n) 0 12 == vid

/-- A correction whose offsets count from the EtherType, for a frame that leaves with or without a tag. -/
def PtpFix.shift (f : PtpFix) (untagged : Bool) : PtpFix :=
  let b := if untagged then 12 else 16
  { f with at' := f.at' + b, udp := if f.udp = 0 then 0 else f.udp + b }

/-- The frame goes to the ports listed in VID `vid`: with the addresses and hop limit of a routed frame, or as it came (R323, R328,
R331). -/
def State.deliver (s : State) (x : Rx) (fix : PtpFix) (ports : List Nat) (vid : Nat) (route : Option (List Byte × Byte)) : State :=
  let s := if ports.contains 66 then
      s.hostRx rHOST x.port vid x.cls x.stamp (match route with | some r => r.1 ++ x.rest.set 9 r.2 | none => x.bare)
    else s
  let dests := (ports.filter (· < 66)).map fun n =>
    let u := s.untags n vid
    let f : QFrame :=
      { chain := x.chain, len := x.data.length, ofs := etypeAt x.data
        tag := some (if u then [] else toBE 2 0x8100 ++ toBE 2 (vid + 8192 * x.cls))
        macs := route.map (·.1), hop := route.map (·.2), ptp := fix.shift u }
    (n, f)
  s.queueOn x.cls x.chain dests

/-! ### The forwarding decision (R323, R328, R329) -/

/-- A forwarding decision is made now (PKT_RATE). -/
def State.decision (s : State) : State :=
  let l := s.net.decided.filter fun t => decide ((s.frcNow - t).toNat < 1000 * 65536)
  { s with net := { s.net with decided := l ++ [s.frcNow] } }

/-- Flood: every member port of the VID but the ingress port and retired ports (R315, R323). -/
def State.floodPorts (s : State) (x : Rx) : List Nat :=
  (List.range 67).filter fun n => s.member x.vid n && n != x.port && !(decide (n < 66) && s.portRetired n)

/-- Bridging (R323). -/
def State.bridge (s : State) (x : Rx) (fix : PtpFix) : State :=
  let s := if x.da / 2 ^ 32 = 0x3333 ∧ s.bit Reg.FWD_CTRL 2 then s.rxCopy x rMC6 else s
  let flood (s : State) : State := s.deliver x fix (s.floodPorts x) x.vid none
  if x.da / 2 ^ 40 % 2 = 1 then flood s
  else
    match s.lookupKey (l2Key x.da x.vid) with
    | (none, s) => flood s
    | (some i, s) =>
      let p := l2Port (s.fwdSlot i)
      let s := s.fwdHit i
      if p = x.port ∨ 66 < p then s.rxDrop x else s.deliver x fix [p] x.vid none

/-- A routed frame (R328). -/
def State.routed (s : State) (x : Rx) (fix : PtpFix) (valid : Bool) (port vid mac : Nat) : State :=
  let hop := leAt x.rest 9 1
  if hop ≤ 1 then s.rxTrap x rHOP
  else if !valid then s.rxTrap x rBADNH
  else if 66 < port then s.rxDrop x
  else s.deliver x fix [port] vid (some (toBE 6 mac ++ toBE 6 s.rmac, BitVec.ofNat 8 (hop - 1)))

/-- The lengths of a stem's mask, longest first. -/
def stemLens (mask : Nat) : List Nat := (setBits 129 mask).reverse

/-- Probes of prefix lengths, in order: the slot of the first hit (R328). -/
def State.probe (d : Nat) : List Nat → State → Option Nat × State
  | [], s => (none, s)
  | n :: t, s =>
    match s.lookupKey (pfxKey n d) with
    | (some i, s) => (some i, s)
    | (none, s) => State.probe d t s

/-- IPv6 routing (R328). -/
def State.route (s : State) (x : Rx) (fix : PtpFix) : State :=
  let d := beNat (sliceB x.rest 26 16)
  match s.lookupKey (hostKey d) with
  | (some i, s) =>
    let v := s.fwdSlot i
    let mac := bits (s.fwdSlot (i + 1)) 16 48
    (s.fwdHit i).routed x fix true (bits v 16 7) (bits v 23 12) mac
  | (none, s) =>
    let lens := stemLens (Sparse.get 0 (d / 2 ^ 116) s.net.stems)
    match State.probe d (lens.take 8) s with
    | (some i, s) =>
      let nh := Sparse.get 0 (bits (s.fwdSlot i) 24 12) s.net.nexts
      (s.fwdHit i).routed x fix (nh.testBit 95) (bits nh 80 7) (bits nh 64 12) (bits nh 0 48)
    | (none, s) =>
      if lens.length > 8 then ((s.count (Reg.FWD_CNT + 28)).raise pFWD 4).rxTrap x rPROBE
      else (s.count (Reg.FWD_CNT + 32)).rxTrap x rNOROUTE

/-- Step 7 of R318. -/
def State.forward (s : State) (x : Rx) (fix : PtpFix) : State :=
  let s := s.decision
  if x.da = s.rmac ∧ x.etype = 0x86DD ∧ s.bit Reg.FWD_CTRL 3 then s.route x fix
  else if x.da = s.rmac ∧ x.etype = 0x0800 then s.rxTrap x rIPV4
  else s.bridge x fix

/-- The Turnstile tests a frame (R368, R369); `f` is what follows for one that is not dropped, in the class it goes on with. -/
def State.policed (s : State) (x : Rx) (f : Rx → State → State) : State :=
  match s.police x.port x.cls (x.data.length + 4) with
  | (none, s) => s.rxDrop x
  | (some c, s) => f { x with cls := c } s

/-- Steps 5 to 8 of R318: the Turnstile, source learning, the decision and queueing. -/
def State.rxOn (s : State) (x : Rx) (fix : PtpFix) : State :=
  s.policed x fun x s => (s.sourceLookup x.port x.sa x.vid).forward x fix

/-! ### PTP messages (R381 to R388) -/

/-- A recognised PTP message: offsets of the message and of the UDP checksum (0 for none) from the EtherType, and whether its
encapsulation is Annex C. -/
structure PtpAt where
  msg : Nat
  udp : Nat
  v4 : Bool
  deriving DecidableEq, Repr

/-- Where a message may stand in the bytes from an EtherType on (R381). -/
def ptpWhere (l : List Byte) : Option PtpAt :=
  let ports (o : Nat) : Bool := beNat (sliceB l o 2) == 319 || beNat (sliceB l o 2) == 320
  if beNat (l.take 2) = 0x88F7 then some ⟨2, 0, false⟩
  else if beNat (l.take 2) = 0x86DD ∧ leAt l 8 1 = 17 ∧ ports 44 then some ⟨50, 48, false⟩
  else if beNat (l.take 2) = 0x0800 ∧ leAt l 2 1 % 16 = 5 ∧ leAt l 11 1 = 17 ∧ ports 24 then some ⟨30, 28, true⟩
  else none

/-- A recognised PTP message: its header is there and its major version is 2. -/
def ptpAt? (l : List Byte) : Option PtpAt :=
  match ptpWhere l with
  | some p => if p.msg + 34 ≤ l.length ∧ leAt l (p.msg + 1) 1 % 16 = 2 then some p else none
  | none => none

/-- messageType and twoStepFlag. -/
def ptpType (l : List Byte) (p : PtpAt) : Nat := leAt l p.msg 1 % 16
def ptpTwoStep (l : List Byte) (p : PtpAt) : Bool := bitAt (leAt l (p.msg + 6) 1) 1

/-- A message as it is carried to its egress ports; offsets count from the EtherType. -/
def Rx.ptpFix (x : Rx) (p : PtpAt) : PtpFix :=
  { typ := ptpType x.rest p, twoStep := ptpTwoStep x.rest p, at' := p.msg, udp := p.udp, v4 := p.v4, port := x.port, ingress := x.stamp }

/-- A Sync that qualifies registers (R390). -/
def State.autoSync (s : State) (x : Rx) (p : PtpAt) : State :=
  if ptpType x.rest p = 0 ∧ x.port < 66 ∧ s.bit Reg.NTU_SYNC_WD 16
      ∧ leAt x.rest (p.msg + 4) 1 = s.fld Reg.NTU_PTP_CFG 0 8
      ∧ s.bit (Reg.NTU_SYNC_PORTS + 4 * (x.port / 32)) (x.port % 32)
  then s.registerSync else s

/-- The message is addressed to the node: FWD_RMAC, or an IPv6 destination that a host entry gives to port 66 (R385). -/
def State.ptpToNode (s : State) (x : Rx) (p : PtpAt) : Bool :=
  x.da == s.rmac ||
    (x.etype == 0x86DD && p.udp != 0 && (match s.findKey (hostKey (beNat (sliceB x.rest 26 16))) with
      | some i => bits (s.fwdSlot i) 16 7 == 66
      | none => false))

/-- A recognised PTP message at step 4 (R385). -/
def State.ptpRx (s : State) (x : Rx) (p : PtpAt) : State :=
  let s := s.autoSync x p
  let t := ptpType x.rest p
  if t = 2 ∨ t = 3 ∨ t = 10 ∨ s.ptpToNode x p then s.policed x fun x s => s.rxTrap x rPTP
  else
    let s := if s.bit Reg.NTU_PTP_CFG 8 then s.rxCopy x rPTP else s
    if (t = 1 ∨ t = 9) ∧ s.tcMode = 2 then (s.count (Reg.NTU_CNT + 12)).rxDrop x
    else s.rxOn x (x.ptpFix p)

/-! ### Steps 1 to 4 (R314, R318, R369) -/

/-- A frame that step 4 diverts: the admission bit of its port, then its bucket; `f` is what the unit does with it (R369). -/
def State.divert (s : State) (gate : Nat) (x : Rx) (f : Rx → State → State) : State :=
  if !s.bit (gate + 4 * (x.port / 32)) (x.port % 32) then ((s.count Reg.POL_ADMIT_DROP).raise pPOL 1).rxDrop x
  else s.policed x fun x s => (f x s).rxDrop x

/-- MGT_CTRL.ETYPE. -/
def State.mgtType (s : State) : Nat := s.fld Reg.MGT_CTRL 16 16

/-- Steps 3 to 8 of R318. -/
def State.rxSteps (s : State) (x : Rx) : State :=
  if x.vid = 4095 ∨ !s.member x.vid x.port then (s.portCount x.port 6).rxDrop x
  else if x.etype = s.almType ∧ s.almType ≠ 0 then
    s.divert Reg.POL_ADMIT_ALM x fun x s => s.almFrameRx x.port (x.rest.drop 2) (x.bare, x.vid, x.cls, x.stamp)
  else if x.etype = s.mgtType ∧ s.mgtType ≠ 0 ∧ x.da = s.rmac then
    s.divert Reg.POL_ADMIT_MGT x fun x s => s.mgtFrame ⟨x.port, x.sa, x.vid, x.rest.drop 2⟩
  else
    match ptpAt? x.rest with
    | some p => s.ptpRx x p
    | none => s.rxOn x {}

/-- A PAUSE frame: EtherType 0x8808 with opcode 0x0001 (R314). -/
def isPause (l : List Byte) : Bool := beNat (sliceB l (etypeAt l) 2) == 0x8808 && beNat (sliceB l (etypeAt l + 2) 2) == 1

/-- Frame and octet counters of an accepted frame (R349). -/
def State.rxCount (s : State) (port len : Nat) : State := (s.portCount port 0).octets port 1 len

/-- The ingress stamp of a frame whose timestamp point passed the device's balls `ago` units of 2^-16 ns before now (R382). -/
def State.rxStamp (s : State) (port ago : Nat) : BitVec 96 :=
  s.ntAt (s.frcNow - BitVec.ofNat 96 ago) + BitVec.ofInt 96 (s.reg (ntuPort port 0)).toInt

/-- A frame arrives on port 0 to 65, with its bytes without FCS; its timestamp point passed the device's balls `ago` units of
2^-16 ns before now. `rivals` wanted a buffer in the cycle of one of its requests. -/
def State.rxFrame (s : State) (port : Nat) (fcsOk : Bool) (ago : Nat) (data : List Byte) (rivals : List Nat) : State :=
  let len := data.length + 4
  let good := decide (64 ≤ len) && decide (len ≤ 9216)
  if !s.bit (atInst Reg.PORT_CTRL port) 0 || !s.linkUp port || s.portRetired port then s
  else if fcsOk && good && isPause data then
    ((s.rxCount port len).portCount port 10).pauseRx port (beNat (sliceB data (etypeAt data + 4) 2))
  else
    let pool := if port < 64 then 0 else 1
    let vc := s.vidClass port data
    if s.bit (Reg.BPM_POOL_STAT + 4 * pool) 18 && decide (vc.2 < s.fld (Reg.BPM_POOL_CFG0 + 16 * pool + 12) 0 3)
    then s.portCount port 9
    else if !s.wins port rivals then (s.noBuffer pool).portCount port 8
    else
      match s.allocFrame pool port data len with
      | (none, s) => s.portCount port 8
      | (some ch, s) =>
        if !fcsOk then (s.portCount port 3).freeChain ch
        else if !good then (s.portCount port 4).freeChain ch
        else (s.rxCount port len).rxSteps ⟨port, some (s.rxStamp port ago), data, vc.1, vc.2, ch⟩

/-- A frame of the host enters the forwarding decision as if received on port 66 (R339): its chain is allocated. -/
def State.hostEnters (s : State) (data : List Byte) (chain : List Nat) : State :=
  let vc := s.vidClass 66 data
  s.rxSteps ⟨66, none, data, vc.1, vc.2, chain⟩

/-- A frame on port 66 with its bytes, into pool 2. -/
def State.hostFrame (s : State) (data : List Byte) (rivals : List Nat) : State :=
  if !s.wins 66 rivals then s.noBuffer 2
  else match s.allocFrame 2 66 data (data.length + 4) with
  | (none, s) => s
  | (some ch, s) => s.hostEnters data ch

/-! ### The TX ring (R339, R340, R388) -/

/-- A TX descriptor as posted, with the frame it names. -/
structure TxDesc where
  len : Nat
  port : Nat
  prio : Nat
  vid : Nat
  flags : Nat
  data : List Byte
  deriving DecidableEq, Repr

/-- DIRECT, TAG and TS_REQ. -/
def TxDesc.direct (d : TxDesc) : Bool := bitAt d.flags 0
def TxDesc.tagged (d : TxDesc) : Bool := bitAt d.flags 1
def TxDesc.tsReq (d : TxDesc) : Bool := bitAt d.flags 2

/-- The LEN bytes at ADDR, with the tag that TAG asks for. -/
def TxDesc.bytes (d : TxDesc) : List Byte :=
  let l := d.data.take d.len ++ List.replicate (d.len - d.data.length) (0 : Byte)
  if d.tagged then l.take 12 ++ toBE 2 0x8100 ++ toBE 2 (d.vid % 4096 + 8192 * (d.prio % 8)) ++ l.drop 12 else l

/-- The lengths R340 allows. -/
def TxDesc.fits (d : TxDesc) : Bool := decide (60 ≤ d.len) && decide (d.len + (if d.tagged then 8 else 4) ≤ 9216)

/-- A message that software originates, as it is carried to its egress port (R388). -/
def ownFix (l : List Byte) : PtpFix :=
  let o := etypeAt l
  let r := l.drop o
  match ptpAt? r with
  | none => {}
  | some p =>
    if ptpType r p = 0 ∧ r.length < p.msg + 44 then {}
    else { typ := ptpType r p, twoStep := ptpTwoStep r p, direct := true, at' := p.msg + o
           udp := if p.udp = 0 then 0 else p.udp + o, v4 := p.v4 }

/-- A descriptor completes at once. -/
def State.txEnd (s : State) (i : Nat) (d : TxDesc) (status : Nat) : State :=
  (s.txDone i status d.flags d.len d.port d.prio d.vid 0).txHead

/-- A DIRECT frame whose buffers are allocated leaves on its port, under the gate of R316. -/
def State.txDirect (s : State) (i : Nat) (d : TxDesc) (ch : List Nat) : State :=
  if 65 < d.port then ((s.freeChain ch).tick1).txEnd i d (Config.pick s.fresh % 5)
  else if !s.roleActs then ((s.portCount d.port 15).freeChain ch).txEnd i d 1
  else
    let s := ch.foldl (fun (s : State) h => s.setBuf h fun b => { b with owner := d.port }) s
    let f : QFrame :=
      { chain := ch, len := d.bytes.length, ptp := ownFix d.bytes, desc := if d.tsReq then some (i, d.flags) else none }
    let s := s.joinQ d.port (d.prio % 8) f
    if d.tsReq then { s with net := { s.net with txOpen := s.net.txOpen ++ [i] } }.txHead
    else s.txEnd i d 0

/-- The TX ring is fetched: TX_EN is 1, pool 2 is not in XOFF, and the device owns the next descriptor (R333, R339). -/
def State.txReady (s : State) : Bool :=
  s.bit Reg.HPT_CTRL 1 && !s.bit (Reg.BPM_POOL_STAT + 8) 17 && s.net.fetch != s.fld (ringReg 2 3) 16 16 % s.ringLen 2

/-- The device takes the next TX descriptor (R339, R340); `busOk` says that its frame could be read. -/
def State.hostTx (s : State) (d : TxDesc) (busOk : Bool) : State :=
  if !s.txReady then s
  else
    let i := s.net.fetch
    let s := { s with net := { s.net with fetch := (i + 1) % s.ringLen 2 } }
    if !d.fits then s.txEnd i d 4
    else
      match s.allocFrame 2 66 d.bytes (d.bytes.length + 4) with
      | (none, s) => s.txEnd i d 2
      | (some ch, s) =>
        if !busOk then (s.freeChain ch).txEnd i d 3
        else if d.direct then s.txDirect i d ch
        else (s.hostEnters d.bytes ch).txEnd i d 0

/-! ### The meanings -/

/-- A frame's bytes after its headers. -/
def EthHdr.frame (h : EthHdr) (rest : List Byte) : List Byte := frameBytes h.da.toNat h.sa.toNat (h.tag.map (·.toNat)) rest

/-- The frame of a PTP message in its encapsulation. -/
def PtpEnv.frame (e : PtpEnv) (msg : List Byte) : List Byte :=
  padFrame (e.eth.frame (toBE 2 e.etype.toNat ++ e.before ++ msg))

/-- A message with its messageType. -/
def ptpTyped (t : Nat) : List Byte → List Byte
  | b :: l => BitVec.ofNat 8 (b.toNat / 16 * 16 + t) :: l
  | [] => []

/-- SUP_FRAME_RX (R318): a frame arrives on a port, given as whether its FCS is good and its bytes without FCS; on port 66 they come
from the TX ring. `rivals` are the requesters that want a buffer in the cycle of one of its requests (R332). -/
def execSupFrameRx (port : Fin 67) (frame : Bool × List Byte) (ago : Nat) (rivals : List (Fin 71)) (cycle : Nat) (s : State) :
    Host.Outcome State Fault Refusal :=
  let s := s.atCycle cycle
  .next (if port.val < 66 then s.rxFrame port frame.1 ago frame.2 (rivals.map (·.val)) else s.hostFrame frame.2 (rivals.map (·.val)))

/-- PAUSE_FRAME (R314): a PAUSE frame of the least length. -/
def execPauseFrame (port : Fin 66) (fcsOk : Bool) (sa : BitVec 48) (quanta : BitVec 16) (cycle : Nat) (s : State) :
    Host.Outcome State Fault Refusal :=
  let l := padFrame (frameBytes 0x0180C2000001 sa.toNat none (toBE 2 0x8808 ++ toBE 2 1 ++ toBE 2 quanta.toNat))
  .next ((s.atCycle cycle).rxFrame port fcsOk 0 l [])

/-- HOST_TX_FRAME (R339): the next descriptor as posted, the frame at its ADDR, and whether reading it succeeded. -/
def execHostTxFrame (len : BitVec 16) (port prio : Byte) (vid flags : BitVec 16) (data : List Byte) (busOk : Bool) (cycle : Nat)
    (s : State) : Host.Outcome State Fault Refusal :=
  .next ((s.atCycle cycle).hostTx ⟨len.toNat, port.toNat, prio.toNat, vid.toNat, flags.toNat, data⟩ busOk)

/-- ALARM_FRAME (R342): a frame of EtherType ALM_ETYPE with its payload. -/
def execAlarmFrame (port : Fin 66) (eth : EthHdr) (ago : Nat) (payload : List Byte) (cycle : Nat) (s : State) :
    Host.Outcome State Fault Refusal :=
  .next ((s.atCycle cycle).rxFrame port true ago (padFrame (eth.frame (toBE 2 s.almType ++ payload))) [])

/-- A management frame to FWD_RMAC with a payload before TAG, and TAG. -/
def State.mgtArrives (s : State) (port : Nat) (sa : BitVec 48) (tag : Option (BitVec 16)) (ago : Nat)
    (body : List Byte) (mac : BitVec 256) : State :=
  s.rxFrame port true ago
    (padFrame (frameBytes s.rmac sa.toNat (tag.map (·.toNat)) (toBE 2 s.mgtType ++ body ++ toBE 32 mac.toNat))) []

/-- OPEN (R348). -/
def execOpen (port : Fin 66) (sa : BitVec 48) (tag : Option (BitVec 16)) (ago : Nat) (target key : BitVec 16)
    (nonce : BitVec 64) (mac : BitVec 256) (cycle : Nat) (s : State) : Host.Outcome State Fault Refusal :=
  .next ((s.atCycle cycle).mgtArrives port sa tag ago (mgtBody 1 0 target.toNat key.toNat nonce.toNat []) mac)

/-- REQUEST (R348): operations as ADDR and DATA. -/
def execRequest (port : Fin 66) (sa : BitVec 48) (tag : Option (BitVec 16)) (ago : Nat) (session : Byte)
    (target key : BitVec 16) (seq : BitVec 32) (ops : List (Word × Word)) (mac : BitVec 256) (cycle : Nat) (s : State) :
    Host.Outcome State Fault Refusal :=
  let l := ops.map fun o => (o.1.toNat, o.2.toNat)
  .next ((s.atCycle cycle).mgtArrives port sa tag ago (mgtBody 3 session.toNat target.toNat key.toNat seq.toNat l) mac)

/-- CLOSE (R348). -/
def execClose (port : Fin 66) (sa : BitVec 48) (tag : Option (BitVec 16)) (ago : Nat) (session : Byte)
    (target key : BitVec 16) (seq : BitVec 32) (mac : BitVec 256) (cycle : Nat) (s : State) :
    Host.Outcome State Fault Refusal :=
  .next ((s.atCycle cycle).mgtArrives port sa tag ago (mgtBody 5 session.toNat target.toNat key.toNat seq.toNat []) mac)

/-- PTP_MESSAGE (R385): a frame with a PTP message of any type arrives. -/
def execPtpMessage (port : Fin 66) (env : PtpEnv) (ago : Nat) (msg : List Byte) (cycle : Nat) (s : State) :
    Host.Outcome State Fault Refusal :=
  .next ((s.atCycle cycle).rxFrame port true ago (env.frame msg) [])

/-- FOLLOW_UP (R387): a Follow_Up arrives; its correction is made as it leaves. -/
def execFollowUp (port : Fin 66) (env : PtpEnv) (ago : Nat) (msg : List Byte) (cycle : Nat) (s : State) :
    Host.Outcome State Fault Refusal :=
  .next ((s.atCycle cycle).rxFrame port true ago (env.frame (ptpTyped 8 msg)) [])

/-- DELAY_RESP (R387): a Delay_Resp arrives; its correction is made as it leaves. -/
def execDelayResp (port : Fin 66) (env : PtpEnv) (ago : Nat) (msg : List Byte) (cycle : Nat) (s : State) :
    Host.Outcome State Fault Refusal :=
  .next ((s.atCycle cycle).rxFrame port true ago (env.frame (ptpTyped 9 msg)) [])

end Sys2Proof.Machine
end

