-- ==== Sys2Proof/Machine/Bar.lean ====
section
/-! DEFINITION. The two memory BARs of the PCIe function (R463), through which master M0 makes every request. -/

namespace Sys2Proof.Machine

/-- Size of BAR2, when `two`, or of BAR0. -/
def barSize (two : Bool) : Nat := if two then 0x08000000 else 0x04000000

/-- Internal address of offset 0 of BAR2 or of BAR0. -/
def barBase (two : Bool) : Nat := if two then 0x10000000 else 0x04000000

/-- The internal address that offset `x` of a BAR maps to; `none` beyond the BAR. -/
def barAddr (two : Bool) (x : Nat) : Option Nat := if x < barSize two then some (barBase two + x) else none

/-- The `n` bytes from an internal address lie within what one BAR maps. -/
def barHolds (two : Bool) (a n : Nat) : Bool := decide (barBase two ≤ a) && decide (a + n ≤ barBase two + barSize two)

/-- Master `m` can make a request for the `n` bytes from an internal address: M0's come through a BAR. -/
def masterReaches (m a n : Nat) : Bool := m != 0 || barHolds false a n || barHolds true a n

end Sys2Proof.Machine
end

