-- ==== Sys2Proof/Machine/HostIf.lean ====
section
/-! DEFINITION. Commands of the host interfaces: PCIe, MSI-X, SMBus, JTAG, single accesses of the bus matrix, and the ends of the
resets that hold accesses (R462 to R486, R492, R518, R533). -/

namespace Sys2Proof.Machine

/-! ### PCIe (R462, R465, R492, R518) -/

/-- The device answers nothing: without power, or held in reset. -/
def State.silent (s : State) : Bool := s.off || s.flt.inReset

/-- MSI-X Enable and Function Mask clear, and the table and PBA return to their reset values, as the PCIe Base Specification has
it for a reset of the function. -/
def State.resetMsix (s : State) : State :=
  let s := (s.setBit Reg.HIF_STAT 9 false).setBit Reg.HIF_STAT 10 false
  let s := (List.range 256).foldl (fun (s : State) i => s.setReg (Reg.HIF_MSIX + 4 * i) (regReset (Reg.HIF_MSIX + 4 * i))) s
  (s.setRegN Reg.HIF_PBA 0).setRegN (Reg.HIF_PBA + 4) 0

/-- A reset of the PCIe function: M0's access is reset and a management reset begins (R462, R478). -/
def State.pcieReset (s : State) : State := ((s.resetMaster 0).mgmtReset 7).resetMsix

/-- The link is down: SPEED and WIDTH read 0; a change sets INT_STAT bit 2. -/
def State.linkGone (s : State) : State :=
  let was := s.fld Reg.HIF_STAT 0 8
  (s.setFld Reg.HIF_STAT 0 8 0).raiseIf (was != 0) 0x00A 2

/-- The link trains up, or changes speed or width, and the function's MSI-X control stands as given. -/
def State.linkChange (s : State) (speed width : Nat) (msixEn maskAll : Bool) : State :=
  let was := s.fld Reg.HIF_STAT 0 8
  let s := s.setRegN Reg.HIF_STAT (b2n maskAll * 1024 + b2n msixEn * 512 + width * 16 + speed)
  let s := s.raiseIf (was != width * 16 + speed) 0x00A 2
  (List.range 64).foldl (fun (s : State) v => s.sendPba v) s

/-- PCIE_HOT_RESET (R462). -/
def execPcieHotReset (s : State) : Host.Outcome State Fault Refusal :=
  .next (if s.silent || s.bus.perst then s else s.pcieReset)

/-- FUNCTION_LEVEL_RESET (R462). -/
def execFunctionLevelReset (s : State) : Host.Outcome State Fault Refusal :=
  .next (if s.silent || s.bus.perst then s else s.pcieReset)

/-- PCIE_LINK_DOWN (R462). -/
def execPcieLinkDown (s : State) : Host.Outcome State Fault Refusal :=
  .next (if s.silent || s.bus.perst then s else s.pcieReset.linkGone)

/-- PCIE_PERST (R518): the level of PCIE_PERST_N. -/
def execPciePerst (low : Bool) (s : State) : Host.Outcome State Fault Refusal :=
  let t := { s with bus := { s.bus with perst := low } }
  .next (if low && !s.bus.perst && !s.silent then t.pcieReset.linkGone else t)

/-- PCIE_LINK_CHANGE (R492): SPEED is 1 to 4, WIDTH 1, 2 or 4. -/
def execPcieLinkChange (speed width : Fin 5) (msixEn maskAll : Bool) (s : State) : Host.Outcome State Fault Refusal :=
  if speed.val = 0 ∨ width.val = 0 ∨ width.val = 3 then .fault (.illFormed "PCIE_LINK_CHANGE")
  else .next (if s.silent || s.bus.perst then s else s.linkChange speed width msixEn maskAll)

/-- MSIX_MESSAGE (R465): the message of the oldest rise of an enabled page's summary is sent, or made pending. -/
def execMsixMessage (s : State) : Host.Outcome State Fault Refusal :=
  match s.bus.intRise with
  | [] => .next s
  | v :: t =>
    let s := { s with bus := { s.bus with intRise := t } }
    if !s.bit Reg.HIF_STAT 9 then .next s
    else if s.bit Reg.HIF_STAT 10 || s.bit (Reg.HIF_MSIX + 16 * v + 12) 0 then
      .next (s.setBit (Reg.HIF_PBA + 4 * (v / 32)) (v % 32) true)
    else .next (s.emit (.msix v))

/-- VECTOR_UNMASK (R465): the mask bit of a vector is written 0. -/
def execVectorUnmask (m : Fin 8) (vec : Fin 64) (s : State) : Host.Outcome State Fault Refusal :=
  let a := Reg.HIF_MSIX + 16 * vec.val + 12
  .next (s.regWrite m a (s.reg a &&& ~~~(1 : Word)))

/-! ### Accesses of the bus matrix -/

/-- The answer to an access that master `m` can make for `n` bytes from an address; one that no BAR carries is no access of M0
(R463). -/
def accessOf (mnemonic : String) (m a n : Nat) (s : State) : Host.Outcome State Fault Refusal :=
  if masterReaches m a n then .next s else .fault (.illFormed mnemonic)

/-- REGISTER_WRITE (R474): a 32-bit write with byte enables, at a core cycle of the tick. -/
def execRegisterWrite (m : Fin 8) (addr value : Word) (en : Fin 16) (cycle : Nat) (s : State) :
    Host.Outcome State Fault Refusal :=
  accessOf "REGISTER_WRITE" m addr.toNat 1 ((s.atCycle cycle).busWrite m addr.toNat value en)

/-- LOW_WORD_READ (R474): a 32-bit read; that of a low word latches the higher words. -/
def execLowWordRead (m : Fin 8) (addr : Word) (cycle : Nat) (s : State) : Host.Outcome State Fault Refusal :=
  accessOf "LOW_WORD_READ" m addr.toNat 1 ((s.atCycle cycle).busRead m addr.toNat)

/-- CRS_ACT_DATA_READ (R270). -/
def execCrsActDataRead (m : Fin 8) (s : State) : Host.Outcome State Fault Refusal := .next (s.busRead m Reg.CRS_ACT_DATA)

/-- PRT_SUBA_DATA_READ (R272). -/
def execPrtSubaDataRead (m : Fin 8) (s : State) : Host.Outcome State Fault Refusal := .next (s.busRead m Reg.PRT_SUBA_DATA)

/-- DECODE_ERROR (R483): an access to an address that decodes to T7; at any other address nothing is in error. -/
def execDecodeError (m : Fin 8) (write : Bool) (addr : Word) (s : State) : Host.Outcome State Fault Refusal :=
  accessOf "DECODE_ERROR" m addr.toNat 1 (if s.target addr.toNat = 7 then
    (if write then s.regWrite m addr.toNat 0 else s.busRead m addr.toNat) else s)

/-- W1C_CLEAR (R445): a write to a register with W1C bits. -/
def execW1cClear (m : Fin 8) (addr value : Word) (s : State) : Host.Outcome State Fault Refusal :=
  accessOf "W1C_CLEAR" m addr.toNat 1 (s.busWrite m addr.toNat value 15)

/-- INT_FORCE (R465). -/
def execIntForce (m : Fin 8) (page : BitVec 14) (value : Word) (s : State) : Host.Outcome State Fault Refusal :=
  .next (s.regWrite m (cReg page.toNat OFF_INT_FORCE) value)

/-- REMAP (R468). -/
def execRemap (m : Fin 8) (remap : Bool) (s : State) : Host.Outcome State Fault Refusal :=
  .next (s.regWrite m Reg.GLB_REMAP (BitVec.ofNat 32 (b2n remap)))

/-- The accepted 32-bit beats of a truncated burst write to registers: a COMMIT.REQ among them is not made (R484). -/
def State.regBeats (s : State) (m : Nat) : Nat → List Byte → State
  | a, b0 :: b1 :: b2 :: b3 :: t =>
    let v := BitVec.ofNat 32 (leNat [b0, b1, b2, b3])
    (s.regWrite m a (if a % 0x1000 = OFF_COMMIT ∧ s.target a = 0 then v &&& ~~~(1 : Word) else v)).regBeats m (a + 4) t
  | _, _ => s

/-- BURST_TRUNCATE (R484): a burst at `addr` of which the bytes `data` were accepted when the master's access was reset. -/
def execBurstTruncate (m : Fin 8) (write : Bool) (addr : Word) (data : List Byte) (s : State) : Host.Outcome State Fault Refusal :=
  let a := addr.toNat
  let t0 := s.target a == 0 || s.target a == 7
  if (t0 && (data.length % 4 != 0 || a % 4 != 0)) || !masterReaches m a data.length then .fault (.illFormed "BURST_TRUNCATE")
  else
    let s := if !write then s else if t0 then s.regBeats m a data else s.memWrite m a data
    let b := a + data.length
    let s := s.logViolation (s.logPage b) m write b kTrunc
    .next ((s.resetMaster m).respond m write b .none 0)

/-! ### Writes to memory -/

/-- A write of bytes into a region of memory that holds all of them. -/
def State.regionWrite (s : State) (mnemonic : String) (m base size off : Nat) (data : List Byte) :
    Host.Outcome State Fault Refusal :=
  if data = [] ∨ size < off + data.length then .fault (.illFormed mnemonic) else .next (s.memWrite m (base + off) data)

/-- STATE_STORE_WRITE (R190). -/
def execStateStoreWrite (m : Fin 8) (off : Fin 33554432) (data : List Byte) (s : State) : Host.Outcome State Fault Refusal :=
  s.regionWrite "STATE_STORE_WRITE" m 0x10000000 33554432 off data

/-- CONTEXT_ENTRY_WRITE (R243). -/
def execContextEntryWrite (m : Fin 8) (off : Fin 8388608) (data : List Byte) (s : State) : Host.Outcome State Fault Refusal :=
  s.regionWrite "CONTEXT_ENTRY_WRITE" m 0x12000000 8388608 off data

/-- PROFILE_SHADOW_WRITE (R152): the active view, and after it the shadow view. -/
def execProfileShadowWrite (m : Fin 8) (off : Fin 65536) (data : List Byte) (s : State) : Host.Outcome State Fault Refusal :=
  s.regionWrite "PROFILE_SHADOW_WRITE" m 0x12800000 65536 off data

/-- LOOP_CONTEXT_WRITE (R158). -/
def execLoopContextWrite (m : Fin 8) (off : Fin 1572864) (data : List Byte) (s : State) : Host.Outcome State Fault Refusal :=
  s.regionWrite "LOOP_CONTEXT_WRITE" m 0x12820000 1572864 off data

/-- PLACEMENT_SHADOW_WRITE (R169): placement content from the active view to the end of loop memory. -/
def execPlacementShadowWrite (m : Fin 8) (off : Fin 2490368) (data : List Byte) (s : State) : Host.Outcome State Fault Refusal :=
  s.regionWrite "PLACEMENT_SHADOW_WRITE" m 0x129A0000 2490368 off data

/-- MRAM_WRITE (R470). -/
def execMramWrite (m : Fin 8) (off : Fin 33554432) (data : List Byte) (s : State) : Host.Outcome State Fault Refusal :=
  s.regionWrite "MRAM_WRITE" m 0x14000000 33554432 off data

/-- KEY_SLOT_WRITE (R471): bytes within the 32 of a key slot. -/
def execKeySlotWrite (m : Fin 8) (slot : Fin 2) (off : Fin 32) (data : List Byte) (s : State) : Host.Outcome State Fault Refusal :=
  s.regionWrite "KEY_SLOT_WRITE" m (0x15E03000 + 32 * slot.val) 32 off data

/-! ### SMBus (R466, R485) -/

/-- ALERT_RESPONSE (R466): SMB_ALERT_N is released when no enabled summary remains. -/
def execAlertResponse (s : State) : Host.Outcome State Fault Refusal :=
  .next (if s.alertHeld then s else { s with bus := { s.bus with smbAlert := false } })

/-- The packet error code of an SMBus write: 0 absent, 1 correct, 2 wrong. A write with a wrong one is discarded, and under
PEC_REQ a WRITE without one too, with INT_STAT bit 0. -/
def State.pecFails (s : State) (write : Bool) (pec : Nat) : Bool := pec == 2 || (write && pec == 0 && s.bit Reg.HIF_SMB 0)

/-- A write is discarded. -/
def State.pecDrop (s : State) (write : Bool) : State := s.raiseIf (write && s.bit Reg.HIF_SMB 0) 0x00A 0

/-- SMB_ADDR (R485). -/
def execSmbAddr (v : Word) (pec : Fin 3) (s : State) : Host.Outcome State Fault Refusal :=
  .next (if s.silent then s else if s.pecFails false pec then s.pecDrop false else { s with bus := { s.bus with smbAddr := v } })

/-- ADDR advances by 4. -/
def State.smbAdvance (s : State) : State := { s with bus := { s.bus with smbAddr := s.bus.smbAddr + 4 } }

/-- SMB_WRITE (R485): only the PWR, THM and FLT pages. -/
def execSmbWrite (v : Word) (pec : Fin 3) (s : State) : Host.Outcome State Fault Refusal :=
  let a := s.bus.smbAddr.toNat
  let page := pageOf a
  .next (if s.silent then s
    else if s.pecFails true pec then s.pecDrop true
    else if 0x04000000 ≤ a ∧ (page = 0x001 ∨ page = 0x002 ∨ page = 0x006) then
      let s := s.busWrite 7 a v 15
      let st := match s.bus.last.status with | .ok => 0 | .quiet => 0 | .held => 0 | _ => 1
      { s.smbAdvance with bus := { s.smbAdvance.bus with smbStatus := st } }
    else { s.smbAdvance with bus := { s.smbAdvance.bus with smbStatus := 2 } })

/-- SMB_READ (R485): any register page address. -/
def execSmbRead (s : State) : Host.Outcome State Fault Refusal :=
  let a := s.bus.smbAddr.toNat
  .next (if s.silent then s
    else if 0x04000000 ≤ a ∧ a < 0x08000000 then
      let t := s.busRead 7 a
      if t.bus.last.status = .held then t.smbAdvance else t.smbDone.smbAdvance
    else { s.smbAdvance with bus := { s.smbAdvance.bus with smbStatus := 2, smbData := 0 } })

/-! ### JTAG (R486) -/

/-- An instruction is loaded, with what Capture-DR then loads. -/
def State.jtagIr (s : State) (ir dr : Nat) (squelch : Bool) : State :=
  if s.off then s
  else { s with jtag := { s.jtag with ir := ir, dr := dr, squelch := s.jtag.squelch || squelch } }

/-- An instruction that selects the boundary scan register. -/
def State.jtagScan (s : State) (ir : Nat) (squelch : Bool) : State :=
  (s.jtagIr ir (Config.boundaryScan s.fresh) squelch).tick1

/-- EXTEST (R486). -/
def execExtest (s : State) : Host.Outcome State Fault Refusal := .next (s.jtagScan 0x00 true)
/-- IDCODE (R486): 0xB102_45CB. -/
def execIdcode (s : State) : Host.Outcome State Fault Refusal := .next (s.jtagIr 0x01 0xB10245CB false)
/-- SAMPLE/PRELOAD (R486). -/
def execSamplePreload (s : State) : Host.Outcome State Fault Refusal := .next (s.jtagScan 0x02 false)
/-- CLAMP (R486). -/
def execClamp (s : State) : Host.Outcome State Fault Refusal := .next (s.jtagIr 0x03 0 true)
/-- HIGHZ (R486). -/
def execHighz (s : State) : Host.Outcome State Fault Refusal := .next (s.jtagIr 0x04 0 true)
/-- EXTEST_PULSE (R486). -/
def execExtestPulse (s : State) : Host.Outcome State Fault Refusal := .next (s.jtagScan 0x05 true)
/-- EXTEST_TRAIN (R486). -/
def execExtestTrain (s : State) : Host.Outcome State Fault Refusal := .next (s.jtagScan 0x06 true)
/-- BYPASS (R486). -/
def execBypass (s : State) : Host.Outcome State Fault Refusal := .next (s.jtagIr 0xFF 0 false)

/-- MEMACC (R486): at Update-DR with GO, one 32-bit access as M1. -/
def execMemacc (write go : Bool) (addr data : Word) (s : State) : Host.Outcome State Fault Refusal :=
  let s := s.jtagIr 0x40 s.jtag.dr false
  .next (if !go || s.off then s
    else if write then (s.busWrite 1 addr.toNat data 15).captured else (s.busRead 1 addr.toNat).captured)

/-- JTAG_TRST (R478): JTAG_TRST_N low or Test-Logic-Reset: IDCODE is selected and M1's access is reset. -/
def execJtagTrst (s : State) : Host.Outcome State Fault Refusal := .next ((s.jtagIr 0x01 0xB10245CB false).resetMaster 1)

/-! ### Ends of resets (R449, R452, R533) -/

/-- MGMT_RESET_DONE (R452). -/
def execMgmtResetDone (s : State) : Host.Outcome State Fault Refusal :=
  .next s.mgmtEnds.replay.resumeMgt

/-- SOFT_RESET_DONE (R449). -/
def execSoftResetDone (page : BitVec 14) (s : State) : Host.Outcome State Fault Refusal :=
  .next (if s.rst.srst.contains page.toNat
    then ({ s with rst := { s.rst with srst := s.rst.srst.filter (· != page.toNat) } } : State).replay.resumeMgt else s)

/-- PLL_RELOCK (R533): after `us` µs of relock attempts. -/
def execPllRelock (us : Nat) (cycle : Nat) (s : State) : Host.Outcome State Fault Refusal :=
  .next (if s.bit Reg.CLK_STAT 0 then s else ((s.atCycle cycle).pllBack us).replay.resumeMgt)

end Sys2Proof.Machine
end

