-- ==== Sys2Proof/Machine/Load.lean ====
section
/-! DEFINITION. What the image loader (M5) reads of an internal source (R41, R196, R212), and the ends of a load. The bytes of a
source on the PCIe bus come with the command. -/

namespace Sys2Proof.Machine

/-- M5 reads the word at an internal address: its bytes, or none when the read gets an error response (R475). A register whose
accesses are held is read when they complete. -/
def State.loaderWord (s : State) (a : Nat) : State × Option (List Byte) :=
  let t := s.target a
  if t = 0 ∧ s.accessHeld 5 a then (s, some (toLE 4 (s.readWord a).toNat))
  else if t = 0 ∨ t = 7 ∨ (0x12C00000 ≤ a ∧ a < 0x13000000) then
    let s := s.busRead 5 a
    (s, if s.bus.last.status = .ok ∨ s.bus.last.status = .quiet then some (toLE 4 s.bus.last.data.toNat) else none)
  else (s, some ((List.range 4).map fun i => s.readByte (a + i)))

/-- The bytes that a run of reads has brought, and whether one failed; no later read is made. -/
structure LoaderRun where
  s : State
  got : List (List Byte) := []
  failed : Bool := false

/-- One more word. -/
def LoaderRun.next (r : LoaderRun) (a : Nat) : LoaderRun :=
  if r.failed then r
  else match r.s.loaderWord a with
    | (s, some b) => { r with s := s, got := b :: r.got }
    | (s, none) => { r with s := s, failed := true }

/-- The words from byte `lo` up to byte `hi` of a source at `a`. -/
def LoaderRun.read (r : LoaderRun) (a lo hi : Nat) : LoaderRun :=
  (List.range ((hi + 3) / 4 - lo / 4)).foldl (fun r i => r.next (a + 4 * (lo / 4 + i))) r

/-- The bytes read so far. -/
def LoaderRun.bytes (r : LoaderRun) : List Byte := r.got.reverse.flatten

/-- The header of an internal source, and then the rest, of a length that the header gives. -/
def State.loaderBytes (s : State) (a : Nat) (total : List Byte → Nat) : LoaderRun :=
  let r := LoaderRun.read { s := s } a 0 64
  if r.failed then r else r.read a 64 (total r.bytes)

/-- The whole length of a descriptor: its header alone when that fails its own checks (R41). -/
def descTotal (h : List Byte) : Nat := if magicOk h then leAt h 0x20 4 else 64

/-- The whole length of an image whose largest accepted length is `maxLen`: its header alone when that fails its checks (R196). -/
def imgTotal (maxLen : Nat) (h : List Byte) : Nat :=
  let n := leAt h 6 2
  if leAt h 0x10 4 > maxLen ∨ n = 0 ∨ n > 1024 then 64 else max (leAt h 0x10 4) (0x40 + 16 * n)

/-- The source that a pair of FAB registers names: the state after its reads, the bytes, and where a read failed. Bit 63 marks an
internal address (R212). -/
def State.loadSource (s : State) (reg : Nat) (total : List Byte → Nat) (data : List Byte) (busAt : Option Nat) :
    State × List Byte × Option Nat :=
  if s.bit (reg + 4) 31 then
    let r := s.loaderBytes (s.reg reg).toNat total
    (r.s, r.bytes, if r.failed then some r.bytes.length else none)
  else (s, data, busAt)

/-- The descriptor load that is under way ends. -/
def State.descRead (s : State) (data : List Byte) (busAt : Option Nat) : State :=
  if !s.rce.descBusy then s
  else
    let r := s.loadSource Reg.FAB_DESC_SRC descTotal data busAt
    r.1.descDone r.2.1 r.2.2

/-- The image load that is under way ends; `stop` says how many bytes had been read when an abort came. -/
def State.imageRead (s : State) (data : List Byte) (busAt stop : Option Nat) : State :=
  if !s.rce.imgBusy then s
  else
    let r := s.loadSource Reg.FAB_IMG_SRC (imgTotal (s.reg Reg.FAB_IMG_LEN).toNat) data busAt
    match stop, r.2.2 with
    | some a, some b => (if a ≤ b then r.1.imageEnd r.2.1 (some a) 0xA else r.1.imageEnd r.2.1 (some b) 9).resetMaster 5
    | some a, none => (r.1.imageEnd r.2.1 (some a) 0xA).resetMaster 5
    | none, b => r.1.imageEnd r.2.1 b 9

/-! ### The meanings -/

/-- DESC_LOAD_DONE (R41): the bytes read, and the byte of the first read that failed. -/
def execDescLoadDone (data : List Byte) (busAt : Option Nat) (s : State) : Host.Outcome State Fault Refusal :=
  .next (s.descRead data busAt)

/-- IMAGE_LOAD_DONE (R196): the bytes read, and the byte of the first read that failed. -/
def execImageLoadDone (data : List Byte) (busAt : Option Nat) (s : State) : Host.Outcome State Fault Refusal :=
  .next (s.imageRead data busAt none)

/-- ABORT_IMAGE (R212): FAB_CTRL written with ABORT_IMAGE, when `got` bytes of `data` had been read and processed. -/
def execAbortImage (m : Fin 8) (data : List Byte) (got : Nat) (s : State) : Host.Outcome State Fault Refusal :=
  .next (s.gateWrite m Reg.FAB_CTRL 4 fun s => s.imageRead data none (some got))

end Sys2Proof.Machine
end

