-- ==== Sys2Proof/Machine/Mirror.lean ====
section
/-! DEFINITION. The mirrored state word by word (R423, R424), the digests of a tick and their comparison (R422, R425), and what
the active sends in a Trapeze (R429, R430). -/

namespace Sys2Proof.Machine

/-! ### CRC-64 (R422) -/

/-- `n` shifts of the polynomial 0x42F0E1EBA9EA3693, most significant bit first. -/
def crc64Shift : Nat → BitVec 64 → BitVec 64
  | 0, c => c
  | n + 1, c => crc64Shift n (if c.msb then (c <<< 1) ^^^ 0x42F0E1EBA9EA3693#64 else c <<< 1)

/-- One byte into the register. -/
def crc64Byte (c : BitVec 64) (b : Byte) : BitVec 64 := crc64Shift 8 (c ^^^ (b.setWidth 64 <<< 56))

/-- CRC-64: initial value 0, no reflection, no final XOR. -/
def crc64 (l : List Byte) : BitVec 64 := l.foldl crc64Byte 0

/-- H(x, w) of R422. -/
def mirHash (x w : Nat) : BitVec 64 := crc64 (toLE 4 x ++ toLE 4 w)

/-! ### Words by address -/

/-- Put bits into the word at an address. -/
def orWord (m : Sparse Nat) (e : Nat × Nat) : Sparse Nat := Sparse.put 0 e.1 (Sparse.get 0 e.1 m ||| e.2) m

/-- The non-zero words that contributions to addresses make. -/
def packWords (l : List (Nat × Nat)) : Sparse Nat := l.foldl orWord []

/-- The words of a list of bytes from an address. -/
def byteWords (a : Nat) (l : List Byte) : List (Nat × Nat) :=
  l.zipIdx.map fun b => (a + b.2 / 4 * 4, b.1.toNat * 256 ^ (b.2 % 4))

/-- Words given one by one from an address. -/
def listWords (a : Nat) (l : List Nat) : List (Nat × Nat) := l.zipIdx.map fun w => (a + 4 * w.2, w.1)

/-- Cell codes in the layout of R45 from an address. -/
def cellWords (a : Nat) (m : Sparse Nat) : List (Nat × Nat) := m.map fun c => (a + c.1 / 16 * 4, c.2 % 4 * 4 ^ (c.1 % 16))

/-- The memory of a range of addresses. -/
def State.memItems (s : State) (lo hi : Nat) : List (Nat × Nat) :=
  (s.mem.filter fun c => decide (lo ≤ c.1) && decide (c.1 < hi)).map fun c => (c.1 / 4 * 4, c.2.toNat * 256 ^ (c.1 % 4))

/-- The words of one loop's context (R157). -/
def State.loopItems (s : State) (l : Nat) : List (Nat × Nat) :=
  listWords (0x12820000 + 128 * l) ((List.range 32).map fun i => (s.ctxWord l (4 * i)).toNat)

/-- The loops whose contexts can hold anything but zeros. -/
def State.mirLoops (s : State) : List Nat := uniq (s.slots.map (·.1) ++ s.loops.map (·.1))

/-- The mirrored items that lie in memory (R423): memory but for loop contexts, the retirement map, the descriptor, calibration, the
carousel and protection banks, and the guarantee of the committed placement (R430). -/
def State.bulkItems (s : State) : List (Nat × Nat) :=
  s.memItems 0x10000000 0x12810000 ++ s.memItems 0x129A0000 0x129E0000
  ++ ((s.regs.filter fun r => decide (Reg.FAB_RETMAP ≤ r.1) && decide (r.1 < Reg.FAB_RETMAP + 2688)).map fun r => (r.1, r.2.toNat))
  ++ byteWords 0xFF000000 s.topoBytes
  ++ s.cal.force.flatMap (fun e => byteWords (0xFF200000 + 64 * e.1) e.2.bytes)
  ++ (if s.bit Reg.CAL_STAT 3 then s.cal.staged.flatMap (fun e => byteWords (0xFF300000 + 64 * e.1) e.2.bytes) else [])
  ++ [(0xFF3C0000, b2n (s.bit Reg.CAL_STAT 3))]
  ++ s.cal.wait.filterMap (fun w => (s.loopCell? w.1).map fun c => (0xFF3D0000 + c / 32 * 4, 2 ^ (c % 32)))
  ++ listWords 0xFF400000 (s.crs.act.count :: s.crs.act.slots)
  ++ listWords 0xFF402000 (s.crs.shd.count :: s.crs.shd.slots)
  ++ s.prt.act.desc.map (fun w => (0xFF500000 + 4 * w.1, w.2)) ++ s.prt.shd.desc.map (fun w => (0xFF504000 + 4 * w.1, w.2))
  ++ s.prt.act.pairs.map (fun w => (0xFF510000 + 4 * w.1, w.2)) ++ s.prt.shd.pairs.map (fun w => (0xFF520000 + 4 * w.1, w.2))
  ++ [(0xFF700010, s.ffld Reg.LPL_GUARANTEE 0 2)]

/-- What the bulk copy sends: the mirrored memory, and the shadow placement set, which no digest covers (R424, R430). -/
def State.bulkSent (s : State) : List (Nat × Nat) := s.bulkItems ++ s.memItems 0x129E0000 0x12A20000

/-- The apply queue in ascending order of boundary. -/
def State.sortedQueue (s : State) : List Staged :=
  (sortNat (s.rce.queue.map (·.b.toNat))).filterMap fun b => s.rce.queue.find? (·.b.toNat == b)

/-- A TRIG_IN word: of the own pin, or of the applied set on a follower. -/
def State.pinWord (s : State) (k : Nat) : Nat :=
  if s.trigFollower then 4 * b2n (bitAt s.evt.ext.pinAct k) + 65536 * Sparse.get 0 k s.red.pinLast
  else 4 * b2n (s.pin k).on + 8 * b2n (s.pinMasked k)
    + 65536 * (match (s.pin k).last with | some t => t.toNat % 65536 | none => 0)

/-- A loss-of-light input's word. -/
def State.lolWord (s : State) (p : Nat) : Nat :=
  let x := s.lol p
  (if x.flag = x.on then 0 else x.run % 4) + 4 * b2n x.on + 8 * b2n (s.lolMasked p) + 65536 * (match x.last with | some t => t.toNat % 65536 | none => 0)

/-- An alarm input's word. -/
def State.almWord (s : State) (a : Nat) : Nat :=
  let act := if s.trigFollower then bitAt s.evt.ext.almAct a else bitAt s.almLevels a
  b2n act + (match Sparse.get none a s.net.lastIn with | some (o, q) => o % 16384 * 4 + q % 65536 * 65536 | none => 0)

/-- The tick state of the cut, as at the close of the window of tick `n` (R424, R430). -/
def State.cutItems (s : State) (n : Tick) : List (Nat × Nat) :=
  cellWords 0xFF100000 s.rce.s2
  ++ (if s.bit Reg.RCE_STAT 1 then (match s.rce.armed with | some a => cellWords 0xFF101000 a | none => []) else [])
  ++ [(0xFF102000, b2n (s.bit Reg.RCE_STAT 1) + 2 * b2n s.safe)]
  ++ s.sortedQueue.zipIdx.flatMap (fun e =>
      listWords (0xFF103000 + 16 * e.2) [e.1.b.toNat % 2 ^ 32, e.1.b.toNat / 2 ^ 32,
        e.1.index + 2 ^ 30 * b2n e.1.late + 2 ^ 31]
      ++ cellWords (0xFF110000 + 0x1000 * e.2) e.1.cells)
  ++ listWords 0xFF404000 [s.crs.base.toNat % 2 ^ 32, s.crs.base.toNat / 2 ^ 32,
      (match s.crsAt n with | some (k, b) => (k.slotInForce b n).1 + 65536 | none => 0) + 131072 * b2n (s.bit Reg.CRS_STAT 5),
      (s.inForce Reg.CRS_BASE_TIME).toNat, (s.inForce (Reg.CRS_BASE_TIME + 4)).toNat,
      (match s.crs.pend with | some (op, _) => op | none => 0),
      (match s.crs.pend with | some (_, b) => b.toNat % 2 ^ 32 | none => 0),
      (match s.crs.pend with | some (_, b) => b.toNat / 2 ^ 32 | none => 0)]
  ++ s.prt.runs.flatMap (fun r => [(0xFF530000 + 16 * r.1, r.2.state + 8 * b2n r.2.forced),
      (0xFF530004 + 16 * r.1, if r.2.state = 4 then r.2.wtrEnd.toNat - n.toNat else 0)])
  ++ listWords 0xFF600000 ((List.range 8).map s.pinWord)
  ++ s.evt.lols.map (fun e => (0xFF601000 + 4 * e.1, s.lolWord e.1))
  ++ listWords 0xFF602000 ((List.range 64).map s.almWord)
  ++ s.mea.los.map (fun e => (0xFF603000 + 4 * e.1, b2n e.2.los + 2 * (e.2.below % 256) + 65536 * (e.2.above % 65536)))

/-- Period, phase, slew, sense modes and guarantee in force. -/
def State.tickItems (s : State) : List (Nat × Nat) :=
  listWords 0xFF700000 [s.period, s.phase, s.slew, s.fld Reg.TCK_ALT_MASK 0 16, s.ffld Reg.LPL_GUARANTEE 0 2]

/-- Every contribution to the mirrored state's words. -/
def State.mirItems (s : State) (n : Tick) : List (Nat × Nat) :=
  s.bulkItems ++ s.mirLoops.flatMap s.loopItems ++ s.cutItems n ++ s.tickItems

/-- XOR of the addresses 4i of the words below a bound. -/
def xorBelow (words : Nat) : Nat :=
  if words = 0 then 0
  else 4 * (match (words - 1) % 4 with | 0 => words - 1 | 1 => 1 | 2 => words | _ => 0)

/-- XOR of the word addresses of a range. -/
def xorRange (r : Nat × Nat) : Nat := xorBelow (r.2 / 4) ^^^ xorBelow (r.1 / 4)

/-- The ranges of R424: first address, and the address after the last. -/
def mirRanges : List (Nat × Nat) :=
  [(0x10000000, 0x12000000), (0x12000000, 0x12800000), (0x12800000, 0x12810000), (0x12820000, 0x129A0000),
   (0x129A0000, 0x129E0000), (0x04050400, 0x04050E80), (0xFF000000, 0xFF020000), (0xFF100000, 0xFF100A80),
   (0xFF101000, 0xFF101A80), (0xFF102000, 0xFF102004), (0xFF103000, 0xFF103100), (0xFF110000, 0xFF120000),
   (0xFF200000, 0xFF2C0000), (0xFF300000, 0xFF3C0000), (0xFF3C0000, 0xFF3C0004), (0xFF3D0000, 0xFF3D0540),
   (0xFF400000, 0xFF401004), (0xFF402000, 0xFF403004), (0xFF404000, 0xFF404020), (0xFF500000, 0xFF504000),
   (0xFF504000, 0xFF508000), (0xFF510000, 0xFF520000), (0xFF520000, 0xFF530000), (0xFF530000, 0xFF531000),
   (0xFF600000, 0xFF600020), (0xFF601000, 0xFF602000), (0xFF602000, 0xFF602100), (0xFF603000, 0xFF604000),
   (0xFF700000, 0xFF700014)]

/-- XOR of every address of R424. -/
def mirAddrXor : Nat := mirRanges.foldl (fun x r => x ^^^ xorRange r) 0

/-- The state digest of R422. H is linear in its eight bytes, so the XOR of H(x, w) over every word is H of the XOR of the
addresses and the XOR of the words (the statement DigestShareIsLinear). -/
def State.stateDigest (s : State) (n : Tick) : BitVec 64 :=
  mirHash mirAddrXor ((packWords (s.mirItems n)).foldl (fun x e => x ^^^ e.2) 0)

/-! ### The digests of a tick (R419, R422) -/

/-- The record blocks of port `n`: drives A and B of its 768 local slots (R91). -/
def State.driveBytes (s : State) (n : Nat) : List Byte :=
  (List.range 768).flatMap fun i => toLE 4 (Sparse.get 0 (768 * n + i) s.drives)

/-- Port `n` sends downstream frames. -/
def State.sendsDown (s : State) (n : Nat) : Bool :=
  (s.portState n == 6 || s.portState n == 7) && !s.squelched n

/-- Port `n`'s frame of the present tick carries records, as far as the port and the tick go: not before RUN, not under R61, not
in a tick without a window (R61, R70, R82). -/
def State.carriesRecords (s : State) (n : Nat) : Bool :=
  s.sendsDown n && s.portState n == 7 && !s.shortDeg n && !s.tck.noWindow

/-- The DIGEST field of port `n`'s frame of tick `t`, 0 without records. -/
def State.portDigest (s : State) (t : Tick) (n : Nat) : Nat :=
  let f := Sparse.get ({} : DsFrame) n s.dsFrames
  if f.tick = t ∧ f.records then f.recDigest.toNat else 0

/-- The drive digest of tick `t`, over the records each frame carries or would have carried (R422). -/
def State.driveDigest (s : State) (t : Tick) : Nat :=
  (crc32c ((List.range 16).flatMap fun n => toLE 4 (s.portDigest t n))).toNat

/-- Some frame of tick `t` carried drives (R419). -/
def State.sentDrives (s : State) (t : Tick) : Bool :=
  (List.range 16).any fun n => let f := Sparse.get ({} : DsFrame) n s.dsFrames; f.tick == t && f.hasDrives

/-- RED_DIGEST shows a side's digests from word `w`. -/
def State.showDigest (s : State) (w : Nat) (d : DigestSt) : State :=
  let s := s.setRegN (Reg.RED_DIGEST + 4 * w) d.drive
  s.setReg64 (Reg.RED_DIGEST + 4 * w + 4) d.state

/-- The Trapeze has come to its sync tick: equal digests make the device standby-synced at once, the boundary after that tick
having come (R431, R403). -/
def State.syncJudge (s : State) (ok : Bool) (k : Tick) : State :=
  if ok then
    let s := s.sendCtrl 5 k s.epoch 1
    let s := s.setReg64 Reg.RED_SYNC_TICK k.toNat
    let seq := s.red.jSeq
    let s := s.trapEnd 1
    let s := { s with red := { s.red with jSeq := seq } }
    let s := match s.red.part with | some d => if d.role = 1 then s.setEpoch d.epoch else s | none => s
    s.setRole 2
  else (s.sendCtrl 5 k s.epoch 7).trapEnd 7

/-- The own digests and the partner's of the same tick are compared (R425, R431). -/
def State.compareDigests (s : State) : State :=
  match s.red.own, s.red.part with
  | some o, some p =>
    if o.tick ≠ p.tick ∨ s.red.compared = some o.tick then s
    else
      let s := { s with red := { s.red with compared := some o.tick } }
      let s := s.showDigest 3 p
      let same := o.drive == p.drive && o.state == p.state
      let ranOver := o.overrun || p.overrun
      if s.red.syncAt = some o.tick ∧ s.trapPhase = 6 then s.syncJudge (same && !ranOver) o.tick
      else if (s.role = 2 ∧ (p.role = 1 ∨ (p.role = 2 ∧ !s.bit Reg.RED_ROLE 4))) ∨ (s.role = 1 ∧ p.role = 2) then
        (if !same then s.diverge 1 o.tick else if ranOver then s.diverge 4 o.tick else s)
      else s
  | _, _ => s

/-- The close of the window of tick `n`: the own digests are formed, shown and sent (R419, R421, R422). -/
def State.closeDigest (s : State) (n : Tick) (overrun : Bool) : State :=
  let d : DigestSt := { tick := n, drive := s.driveDigest n, state := (s.stateDigest n).toNat, overrun := overrun
                        trigOwn := s.red.trigOwn, synced := s.sentDrives n }
  let s := { s with red := { s.red with own := some d } }
  let s := s.showDigest 0 d
  let ofs := (2 * s.period - (80 + 57 * s.period / 100 + s.period - 90)) * 425 / 16
  let body := toLE 4 d.drive ++ toLE 8 d.state ++ toLE 2 ofs
    ++ toLE 1 (b2n overrun + 2 * b2n d.trigOwn + 4 * b2n d.synced) ++ toLE 1 0 ++ toLE 2 s.period
  (s.sendMirror 0x63 n 0 (padTo 32 body)).compareDigests

/-- The partner's DIGEST of the latest closed tick has not come by C + 100 (R425): counted; it counts as unequal at the sync
tick (R431). -/
def State.digestMissing (s : State) : State :=
  match s.red.own with
  | none => s
  | some o =>
    if s.red.compared = some o.tick then s
    else if s.red.syncAt = some o.tick ∧ s.trapPhase = 6 then s.syncJudge false o.tick
    else if s.role ≠ 2 ∧ !(s.role = 1 ∧ s.partnerRole = 2) then s
    else
      let s := { s with red := { s.red with compared := some o.tick, missRun := s.red.missRun + 1 } }
      let s := (s.count (Reg.RED_CNT + 8)).setBit Reg.RED_STAT 7 true
      s.raiseIf (s.red.missRun == 16) pRED 6

/-! ### The active's side of a Trapeze (R420, R428 to R430) -/

/-- Split off the words that follow an address without a gap. -/
def runOf (a : Nat) : List (Nat × Nat) → List Nat × List (Nat × Nat)
  | [] => ([], [])
  | (b, w) :: t => if b = a then let r := runOf (a + 4) t; (w :: r.1, r.2) else ([], (b, w) :: t)

/-- The words of a run as entries of two words each. -/
def pairEntries : List Nat → List (List Byte)
  | [] => []
  | [a] => [toLE 4 a ++ toLE 4 0]
  | a :: b :: t => (toLE 4 a ++ toLE 4 b) :: pairEntries t

/-- SNAP entries for words in ascending order of address: a run for each stretch of consecutive addresses; `n` bounds the number
of runs. -/
def snapEntries : Nat → List (Nat × Nat) → List (List Byte)
  | 0, _ => []
  | _, [] => []
  | n + 1, (a, w) :: t =>
    let r := runOf (a + 4) t
    (toLE 4 (a + 2) ++ toLE 4 (r.1.length + 1)) :: pairEntries (w :: r.1) ++ snapEntries n r.2

/-- Split a list of entries into frames of at most 32; `n` bounds the number of frames. -/
def framesOf : Nat → List (List Byte) → List (List Byte)
  | 0, _ => []
  | _, [] => []
  | n + 1, l => (l.take 32).flatten :: framesOf n (l.drop 32)

/-- SNAP frames with the words given, captured at tick `t`. -/
def State.sendSnap (s : State) (t : Tick) (m : Sparse Nat) : State :=
  let es := snapEntries m.length m
  (framesOf es.length es).foldl (fun (s : State) b =>
    let q := s.red.snapOutSeq
    ({ s with red := { s.red with snapOutSeq := q + 1 } }).sendMirror 0x66 t q b) s

/-- JOURNAL frames with the entries that wait (R429). -/
def State.flushJournal (s : State) : State :=
  if s.red.jOut.isEmpty then s else
  let es := s.red.jOut.map fun e => toLE 4 e.addr ++ toLE 4 e.word
  let s := { s with red := { s.red with jOut := [] } }
  (framesOf es.length es).foldl (fun (s : State) b =>
    let q := s.red.jOutSeq
    ({ s with red := { s.red with jOutSeq := q + 1 } }).sendMirror 0x65 s.now q b) s

/-- CATCH_REQ arrives: the active serves from tick now + 2, or refuses with PARTNER (R428). -/
def State.serveCatch (s : State) : State :=
  if s.role ≠ 1 then s
  else if !s.bit Reg.RED_CFG 0 || s.red.serve.isSome then s.sendCtrl 2 s.now 0 3
  else
    let j0 := s.now + 2
    let s := { s with red := { s.red with serve := some (j0, 0), journal := false, jOut := [], jOutSeq := 0, snapOutSeq := 0 } }
    s.sendCtrl 2 j0 0 1

/-- Boundary j0: the journal begins, and the bulk is sent as it stands (R429, R430). -/
def State.serveBoundary (s : State) : State :=
  match s.red.serve with
  | some (j0, 0) =>
    if j0.toNat ≤ s.now.toNat then
      let s := { s with red := { s.red with serve := some (j0, 1), journal := true } }
      s.sendSnap s.now (packWords s.bulkSent)
    else s
  | _ => s

/-- The close of the window of tick `n`: the loop contexts at one close, the cut at the next (R430). The fabric flags always
go, so that the cut is never empty. -/
def State.serveClose (s : State) (n : Tick) : State :=
  match s.red.serve with
  | some (j0, 1) =>
    let s := { s with red := { s.red with serve := some (j0, 2) } }
    s.sendSnap n (packWords (s.mirLoops.flatMap s.loopItems))
  | some (j0, 2) =>
    let s := { s with red := { s.red with serve := some (j0, 3) } }
    let l := packWords (s.cutItems n)
    let flags := 0xFF102000
    s.sendSnap n ((l.filter fun e => decide (e.1 < flags)) ++ [(flags, Sparse.get 0 flags l)] ++ l.filter fun e => decide (flags < e.1))
  | _ => s

end Sys2Proof.Machine
end

