-- ==== Sys2Proof/Machine/Tick.lean ====
section
/-! DEFINITION. The pipeline of a tick (R18, R51 to R64, R204, R285): the cut-off, the opening of the compute window, the evaluation
of loss of light, the composition, the close of the window, and the boundary. A phase that no command has brought by the time
the next one comes is made up for, with nothing met from outside. -/

namespace Sys2Proof.Machine

/-! ### Cycle O − 100 (R19, R20, R54) -/

/-- The external trigger set of the tick is closed, and sent to the partner. -/
def State.cutoffPhase (s : State) : State := if s.running then s.closeTrig.sendTrig.flushJournal else s

/-! ### Cycle C (R62 to R64, R90 to R92, R110, R421) -/

/-- DIGEST of port `n`'s frame, once its last drive block is final, and the frame leaves (R92, R110). -/
def State.finishFrame (s : State) (t : Tick) (n : Nat) : State :=
  let f := Sparse.get ({} : DsFrame) n s.dsFrames
  if f.tick = t ∧ f.records then
    let d := s.driveBytes n
    let c := crc32c d
    let g := { f with digest := if f.hasDrives then c else 0, recDigest := c }
    let s := { s with dsFrames := Sparse.put {} n g s.dsFrames }
    if f.hasDrives then s.sendFrame n g d else s
  else s

/-- The compute window of tick `n` closes: engine faults met in it, and corrected errors of engine memories. -/
def State.closeWindow (s : State) (n : Tick) (faults : List Nat) (corr : List (Nat × Nat)) : State :=
  let bad := faults ++ s.lpl.faultNow
  let fell (e : Nat) : Bool := s.prf.stalls.any (·.1 == e) && !bitAt s.retMask e
  let mask := maskOf ((List.range 32).filter fell)
  let fix (e : Nat) : Nat := match corr.find? (·.1 == e) with | some c => c.2 | none => 0
  let s := (List.range 32).foldl (fun (s : State) e => s.closeEngine (fell e) (bad.contains e) (fix e) e) s
  let s := s.noteOverrun mask n
  let s := { s with
    lpl := { s.lpl with
      faultNow := []
      lastWin := n }
    prf := { s.prf with stalls := [] } }
  let s := (List.range 16).foldl (fun (s : State) p => s.finishFrame n p) s
  let s := ((s.closeDigest n (mask != 0)).serveClose n).flushJournal
  { s with tck := { s.tck with window := none } }

/-- The window of the present tick may close before the tick ends: C lies within it, as in the transition tick of a lengthening, and
its frames have been composed (R54, R70). -/
def State.closesInTick (s : State) : Bool := s.rce.composed && decide (windowCloseAt s.period ≤ s.tck.len)

/-- The window that has been open since before the present boundary, or whose C has come, closes. -/
def State.closePhase (s : State) (faults : List Nat) (corr : List (Nat × Nat)) : State :=
  match s.tck.window with
  | some n => if n = s.now ∧ s.running ∧ !s.closesInTick then s else s.closeWindow n faults corr
  | none => s

/-- Engines that are due to retire and have not yet been retired by ENGINE_RETIRE. -/
def State.settleEngines (s : State) : State :=
  (List.range 32).foldl (fun (s : State) e =>
    match s.engineDue? e with | some c => s.engineRetire e c | none => s) s

/-! ### Cycle O (R54, R59, R60, R102 to R104) -/

/-- Throttle T1 to T3 pace the engines from the next window on, no further than the guarantee in force (R506). -/
def State.takeLoopLevel (s : State) : State :=
  s.setFld Reg.THM_LEVEL 4 2 (min s.level (s.ffld Reg.LPL_GUARANTEE 0 2))

/-- Cycle O of the present tick: what came in is judged, and the window opens unless R70 forbids it. `lanes` is what the Byevo
receive halves met in the tick, `mir` the mirror lanes without signal or lock. -/
def State.openPhase (s : State) (lanes : List LaneFacts) (mir : Nat) : State :=
  if !s.running || s.tck.judged == some s.now then s
  else
    let s := (s.closePhase [] []).settleEngines
    let s := s.cutoffPhase
    let s := lanes.foldl State.noteLanes s
    let s := (List.range 16).foldl State.frameLost s
    let s := (List.range 16).foldl State.laneJudge s
    let s := ((s.mirJudge mir).readEfes).takeTrig
    let s := s.checkLag.lolFrames.judgeLoops
    let s := s.sampleAll.calSamples.settleHolds.readTargets
    let s := s.pushSamples.takeLoopLevel
    let s := { s with tck := { s.tck with judged := some s.now, window := if s.tck.noWindow then none else some s.now } }
    s.stopWatch.tckWatch

/-! ### Cycle O + 30 (R257, R285) -/

/-- Loss of light is evaluated, and the protection cases run; in a tick without a window the triggers wait (R70). -/
def State.losPhase (s : State) : State :=
  if s.tck.judged ≠ some s.now ∨ s.mea.losAt = some s.now then s
  else
    let r := s.losEval
    let s := r.1.almReports r.2
    let s := if s.tck.noWindow then s else s.runCases
    { s with mea := { s.mea with losAt := some s.now } }

/-! ### Cycle O + 50 (R90, R204, R403) -/

/-- Lanes whose fault count is complete and that LANE_RETIRE has not yet retired (R104). -/
def State.settleLanes (s : State) : State :=
  (List.range 16).foldl (fun (s : State) n =>
    (List.range 2).foldl (fun (s : State) k => if s.isDue (pBYV n) k then s.laneRetire n k else s) s) s

/-- The header of port `n`'s downstream frame of the present tick (R90, R105). -/
def State.frameHeader (s : State) (n : Nat) : DsFrame :=
  let p := s.port n
  let c : Announce := match p.shown s.now with
    | some a => a
    | none => { tick := s.now, base := s.senseBase, lanes := p.lanesTx, made := s.now }
  { records := s.carriesRecords n
    hasDrives := decide (s.red.hdrRole ≤ 2) && s.carriesRecords n
    act := decide (s.red.hdrRole ≤ 1)
    seat := s.fld Reg.RED_SEAT 0 1
    reqAlt := c.alt, lanesNext := c.lanes, tick := s.now, epoch := s.red.hdrEpoch, port := n, lanes := p.lanesTx
    changeAt := c.tick.toNat % 2 ^ 32, period := s.period }

/-- The header of port `n` leaves; a frame without drives leaves whole (R89). -/
def State.sendHeader (s : State) (n : Nat) : State :=
  if s.sendsDown n then
    let f := s.frameHeader n
    let s := { s with dsFrames := Sparse.put {} n f s.dsFrames }
    if f.hasDrives then s else s.sendFrame n f []
  else s

/-- The headers of the tick's frames leave, under the role of this moment (R402, R403). -/
def State.sendHeaders (s : State) : State :=
  let s := { s with red := { s.red with hdrRole := s.role, hdrEpoch := s.frameEpoch } }
  (List.range 16).foldl State.sendHeader s

/-- What the present tick took from outside is kept while contexts and the cut may have to be brought forward (R430). -/
def State.keepPast (s : State) : State :=
  if s.trapPhase < 3 then s
  else
    let p : PastTick := { tick := s.now, sense := s.sense, bad := s.bad, targets := s.prf.targets, ext := s.evt.ext
                          events := s.prt.events, ports := s.ports }
    { s with red := { s.red with past := (s.red.past ++ [p]).drop (s.red.past.length + 1 - 4) } }

/-- A staging request for the boundary composed now ends before the composition (R198, R204). -/
def State.settleStaging (s : State) : State :=
  match s.rce.staging with
  | some g => if g.a.toNat ≤ s.now.toNat + 2 then s.stagingDone else s
  | none => s

/-- The composition for boundary t + 2, the updates of the tick, and the drives of its frames; `stalls` names the engines that
will leave updates unfinished at cycle C, with the number of updates each completes. A tick without a window composes too, updates
nothing, and its frames carry no drives (R70, R204). -/
def State.composePhase (s : State) (stalls : List (Nat × Nat)) : State :=
  if s.tck.judged ≠ some s.now ∨ s.rce.composed then s
  else
    let s := s.losPhase.settleStaging
    let s := s.settleLoopRetires.settleLanes
    let s := s.composeFabric.calCompose
    if s.tck.noWindow then s.countStates.sendHeaders.markComposed
    else
      let s := s.runUpdates (stalls.filter fun x => s.overran stalls x.1)
      s.countStates.fixDrives.sendHeaders.keepPast.markComposed

/-! ### The boundary (R51, R70, R149, R206, R477) -/

/-- The part of the present tick that no command has brought; a tick without a window hands its triggers on (R70). -/
def State.finishTick (s : State) : State :=
  if !s.running then s.closePhase [] []
  else
    let s := ((s.openPhase [] 0).losPhase).composePhase []
    let s := s.closePhase [] []
    let s := s.cutoffPhase.settleEngines
    let s := if s.tck.noWindow then
        let x := s.evt.ext
        { s with
          evt := { s.evt with pinEv := s.evt.pinEv ||| x.pinEv, almEv := s.evt.almEv ||| x.almEv }
          prt := { s.prt with cmds := x.cmds ++ s.prt.cmds } }.closeDigest s.now false
      else s
    let s := s.wheelSlot.slotChange.settleLanes
    let s := (List.range 8 ++ s.evt.lols.map fun (e : Nat × LolSt) => e.1 + 8).foldl State.stuckDetect s
    s.arrive

/-- Commits whose boundary has passed take effect at the present one. -/
def State.lateCommits (s : State) (n : Tick) : State :=
  let up (b : Tick) : Tick := if b.toNat < n.toNat then n else b
  { s with
    commits := s.commits.map fun c => if c.collected then c else { c with b := up c.b }
    crs := { s.crs with pend := s.crs.pend.map fun p => (p.1, up p.2) } }

/-- A page's commit is due at boundary `n`. -/
def State.commitDue (s : State) (page : Nat) (n : Tick) : Bool :=
  match s.commitOf? page with | some c => !c.collected && c.b == n | none => false

/-- Every other page's commit due at boundary `n` (R149, R477). -/
def State.pageCommits (s : State) (n : Tick) : State :=
  let s := if s.commitDue pPRF n then s.prfCommitAt n else s
  let s := if s.commitDue pLPL n then s.lplCommitAt else s
  let s := s.crsCommitAt n
  let s := if s.commitDue pPRT n then s.prtCommitAt else s
  (s.calCommitAt n).calNextAt n

/-- Local fabric changes on fibres: for each input whose path changed optical state, and for the outputs its paths reach, the
boundary of the change (R396). -/
def State.noteFibres (s : State) (old : Sparse Nat) : State :=
  match s.topo with
  | none => s
  | some t =>
    let ch := (List.range t.cells).filter fun c => crossed (codeOf old c) != crossed (s.code0 c)
    if ch.isEmpty then s
    else
      let mark (s : State) (k : Nat) : State := { s with ntu := { s.ntu with fibCh := Sparse.put 0 k s.now.toNat s.ntu.fibCh } }
      (List.range t.ports).foldl (fun (s : State) p =>
        let a := pathOf t (codeOf old) p
        let b := pathOf t s.code0 p
        let ha := a.1.any ch.contains
        let hb := b.1.any ch.contains
        let s := if ha || hb then mark s p else s
        let s := if ha then mark s (1024 + a.2) else s
        if hb then mark s (1024 + b.2) else s) s

/-- What happens at boundary `n` = TCK_NOW, once it is numbered. -/
def State.atBoundary (s : State) : State :=
  let n := s.now
  let old := s.rce.s0
  let pOld := s.period
  let altOld := s.altForce
  let s := { s with
    bad := []
    evt := { s.evt with closed := false, pulse := 0 }
    prt := { s.prt with events := if s.tck.noWindow then s.prt.events else [], taken := [] }
    flt := { s.flt with hbStop := false } }
  let s := s.markHeld.fabricBoundary.lateCommits n
  let s := (s.tckWatch.tckCommitAt n).takeoverAt n
  let s := s.pageCommits n
  let s := ((s.contextChange old).calDisturb old).calPause.noteFibres old
  let s := s.afterPeriod pOld altOld
  let s := s.prtEffects n
  let s := s.shaperBoundary.bucketBoundary.telTick
  let s := (List.range 16).foldl State.portBoundary s
  let s := s.updateAlt.updateShortDeg
  let s := s.redBoundary.serveBoundary
  let s := s.setBit Reg.TCK_STAT 4 (s.role == 2 && s.ntuState != 1)
  let s := s.tckStatus
  let s := s.stopAtBoundary n
  s.beginTick.toggleHb.flushJournal

/-- TICK_BOUNDARY: the tick in progress ends and the next one begins. -/
def State.boundary (s : State) : State :=
  let s := s.finishTick
  let moved : Int := (s.tck.len : Int) - (s.period : Int)
  let s := { s with tck := { s.tck with partnerErr := s.tck.partnerErr.map (· + moved) } }
  match s.nextBoundary? with
  | some t => t.atBoundary
  | none => s

/-! ### The meanings -/

/-- TICK_BOUNDARY (R51): the tick in progress reaches its chosen length; nothing while the Ringmaster stands still. -/
def execTickBoundary (s : State) : Host.Outcome State Fault Refusal :=
  .next (if s.running || s.tck.startAt.isSome then s.boundary else s)

/-- TRIGGER_CUTOFF (R19). -/
def execTriggerCutoff (s : State) : Host.Outcome State Fault Refusal := .next s.cutoffPhase

/-- COMPUTE_WINDOW_OPEN (R54): what the receive halves met in the tick, and the mirror lanes without signal or lock. -/
def execComputeWindowOpen (lanes : List LaneFacts) (mirror : Fin 16) (s : State) : Host.Outcome State Fault Refusal :=
  .next (s.openPhase lanes mirror)

/-- LOS_EVALUATION (R285). -/
def execLosEvaluation (s : State) : Host.Outcome State Fault Refusal := .next s.losPhase

/-- COMPOSE_STATE (R204). -/
def execComposeState (stalls : List (Fin 32 × Nat)) (s : State) : Host.Outcome State Fault Refusal :=
  .next (s.composePhase (stalls.map fun x => (x.1.val, x.2)))

/-- WINDOW_CLOSE (R62): engines with a fault in the window, and corrected errors of engine memories. -/
def execWindowClose (faults : List (Fin 32)) (corr : List (Fin 32 × Nat)) (s : State) : Host.Outcome State Fault Refusal :=
  .next (s.closePhase (faults.map (·.val)) (corr.map fun x => (x.1.val, x.2)))

end Sys2Proof.Machine
end

