-- ==== Sys2Proof/Machine/MirrorRx.lean ====
section
/-! DEFINITION. The frames received on the mirror link: HELLO, TRIG, DIGEST, REQ, the journal, and the Trapeze on both sides
(R401, R411 to R433). -/

namespace Sys2Proof.Machine

/-! ### Frames (R416) -/

/-- A mirror frame received. -/
structure MirFrame where
  kind : Nat
  flags : Nat
  tick : Tick
  epoch : Nat
  seq : Nat
  body : List Byte
  deriving DecidableEq, Repr

/-- SEAT and the sender's role. -/
def MirFrame.seat (f : MirFrame) : Nat := bits f.flags 0 1
def MirFrame.role (f : MirFrame) : Nat := bits f.flags 1 3

/-- The frame in a list of content bytes, when it is whole and its FRAME_CRC is correct (R416). -/
def readMirror? (l : List Byte) : Option MirFrame :=
  let n := leAt l 14 2
  if l.length = 32 * (n + 2) ∧ n ≤ 8 ∧ leAt l 0 2 = 0x5942 ∧ crc32c (l.take (l.length - 4)) = BitVec.ofNat 32 (leAt l (l.length - 4) 4) then
    some { kind := leAt l 2 1, flags := leAt l 3 1, tick := BitVec.ofNat 64 (leAt l 4 8), epoch := leAt l 12 2
           seq := leAt l 16 4, body := sliceB l 32 (32 * n) }
  else none

/-- What a received frame of a kind does; a frame that is lost, or of another kind, or that comes while no lane is in service
does nothing. `ok` says that every codeword was corrected. -/
def State.mirRx (s : State) (ok : Bool) (l : List Byte) (kind : Nat) (eff : MirFrame → State → State) : State :=
  if !ok || s.off || s.flt.inReset || s.mirLanes == 0 then s
  else match readMirror? l with
  | some f => if f.kind = kind then eff f s else s
  | none => s

/-- What a received CTRL frame with operation `op` does (R417). -/
def State.ctrlRx (s : State) (ok : Bool) (l : List Byte) (op : Nat) (eff : MirFrame → State → State) : State :=
  s.mirRx ok l 0x67 fun f s => if leAt f.body 0 1 = op then eff f s else s

/-- The tick, epoch and result code of a CTRL frame. -/
def MirFrame.at' (f : MirFrame) : Tick := BitVec.ofNat 64 (leAt f.body 8 8)
def MirFrame.ep (f : MirFrame) : Nat := leAt f.body 16 2
def MirFrame.res (f : MirFrame) : Nat := leAt f.body 18 1

/-! ### HELLO (R401, R403, R408, R415, R432) -/

/-- An epoch carried by a HELLO or DIGEST frame joins those known of the last 1 ms (R408). -/
def State.noteEpoch (s : State) (e : Nat) : State :=
  let s := { s with red := { s.red with
    epochs := (s.frcNow, e) :: s.red.epochs.filter fun x => !s.agedNs x.1 1000001 } }
  s.setFld Reg.RED_EPOCH 16 16 s.newestEpoch

/-- The partner shows a role: one that is not active ends a Trapeze with it (R432), and one that is neither active nor
standby-synced ends the journal that it was served (R429). -/
def State.partnerShows (s : State) (r : Nat) : State :=
  let s := if r ≠ 1 && s.trapPhase != 0 then s.trapEnd 3 else s
  if s.red.journal && s.red.serve.isNone && r ≠ 2 then s.serveStop false else s

/-- A HELLO frame. -/
def State.helloFrame (s : State) (f : MirFrame) : State :=
  let h : HelloSt := { role := f.role, topoId := leAt f.body 4 4, serve := bitAt (leAt f.body 11 1) 0
                       phase := leAt f.body 10 1, node := leAt f.body 12 2 }
  let s := { s with red := { s.red with hello := some h, helloRx := true } }
  let s := (s.setFld Reg.RED_ROLE 8 4 f.role).setFld Reg.RED_SEAT 1 1 f.seat
  let s := if f.seat = s.fld Reg.RED_SEAT 0 1 then (s.setBit Reg.RED_SEAT 2 true).raise pRED 7 else s
  let s := (s.noteEpoch f.epoch).partnerShows f.role
  let s := if f.role = 0 ∧ s.role = 2 then s.setRole 3 else s
  s.mirUpdate

/-! ### TRIG (R20, R418) -/

/-- A TRIG frame: the set is kept for its tick. -/
def State.trigFrame (s : State) (f : MirFrame) : State :=
  { s with red := { s.red with trig := some (f.tick, readTrig f.body) } }

/-! ### DIGEST (R67, R412, R413, R419, R425) -/

/-- The error of the own boundary against the partner's, as it stands at the present boundary: the partner's boundary n + 2
follows the frame by OFS − d UI, and the own one comes at the end of this tick or of later ones (R67, R419). -/
def State.partnerErrOf (s : State) (n : Tick) (ofs : Nat) : Int :=
  let left : Int := ((ofs : Int) - (s.fld Reg.RED_MIR 16 16 : Nat)) * 16
  let own : Int := (s.period : Int) - s.ntu.cyc + ((n + 1).toNat - (s.now.toNat : Int)) * s.period
  own - left.fdiv 425

/-- The partner's epoch in a DIGEST frame: a standby-synced device adopts an active's from the next boundary, another device
that holds an older one is stale (R412, R413). -/
def State.epochFrom (s : State) (f : MirFrame) : State :=
  if f.role ≠ 1 then s
  else if s.role = 2 then
    (if f.epoch = s.epoch then s else { s with red := { s.red with epochAt := some (s.now + 1, f.epoch) } })
  else if newer f.epoch s.epoch then { s with red := { s.red with stale := true } }
  else s

/-- A digest of tick `t` is the one expected now (R67, R421): that of the tick before, or in a tick long enough to hold cycle C, as
the transition tick of a lengthening, that of the present one. -/
def State.digestExpected (s : State) (t : Tick) : Bool :=
  t + 1 == s.now || (t == s.now && decide (windowCloseAt s.period ≤ s.tck.len))

/-- A DIGEST frame: the partner's digests of tick n, complete by C + 100 of that tick (R421). -/
def State.digestFrame (s : State) (f : MirFrame) : State :=
  let fl := leAt f.body 14 1
  let d : DigestSt := { tick := f.tick, drive := leAt f.body 0 4, state := leAt f.body 4 8, overrun := bitAt fl 0
                        trigOwn := bitAt fl 1, synced := bitAt fl 2, role := f.role, epoch := f.epoch }
  let s := (s.noteEpoch f.epoch).partnerShows f.role
  let s := { s with red := { s.red with part := some d, missRun := 0 } }
  let s := s.setBit Reg.RED_STAT 7 false
  let s := s.epochFrom f
  if s.digestExpected f.tick then
    let s := { s with tck := { s.tck with partnerErr := some (s.partnerErrOf f.tick (leAt f.body 12 2)) } }
    s.compareDigests
  else if s.role = 2 ∨ (s.role = 1 ∧ f.role = 2) then s.diverge 2 f.tick
  else s

/-! ### REQ (R202) -/

/-- A REQ frame: a standby-synced device stages the record from its own store. -/
def State.reqFrame (s : State) (f : MirFrame) : State :=
  if s.role = 2 then s.applyForwarded (leAt f.body 0 2) (BitVec.ofNat 64 (leAt f.body 2 8)) else s

/-! ### Entries (R420) -/

/-- Read entries of 8 bytes, `run` being the run under way: the entries of types 0 and 1 that they stand for, in order, and the
run that goes on. -/
def readEntries : Nat × Nat → List (Nat × Nat) → List JEntry × (Nat × Nat)
  | run, [] => ([], run)
  | run, e :: t =>
    if run.2 > 1 then
      let r := readEntries (run.1 + 8, run.2 - 2) t
      (⟨run.1, e.1⟩ :: ⟨run.1 + 4, e.2⟩ :: r.1, r.2)
    else if run.2 = 1 then
      let r := readEntries (0, 0) t
      (⟨run.1, e.1⟩ :: r.1, r.2)
    else if e.1 % 4 = 2 then readEntries (e.1 - 2, e.2) t
    else if e.1 % 4 = 3 ∨ e = (0, 0) then readEntries (0, 0) t
    else
      let r := readEntries (0, 0) t
      (⟨e.1, e.2⟩ :: r.1, r.2)

/-- The entries of a body as pairs of address and word. -/
def bodyEntries (l : List Byte) : List (Nat × Nat) := (List.range (l.length / 8)).map fun i => (leAt l (8 * i) 4, leAt l (8 * i + 4) 4)

/-! ### Words of the mirrored state (R424) -/

/-- A calibration table with word `o / 4` replaced. -/
def calWordPut (t : Sparse CalRec) (o w : Nat) : Sparse CalRec :=
  let b := (Sparse.get ({} : CalRec) (o / 64) t).bytes
  let i := o % 64
  Sparse.put {} (o / 64) (readCalRec (b.take i ++ toLE 4 w ++ b.drop (i + 4))) t

/-- A carousel bank with word `i` of its pseudo-address range replaced. -/
def CrsBank.putWord (b : CrsBank) (i w : Nat) : CrsBank :=
  if i = 0 then { b with count := w % 2048 } else { b with words := Sparse.put 0 (i - 1) w b.words }

/-- A word that lies at a pseudo-address and is not part of the cut. -/
def State.pseudoPut (s : State) (a w : Nat) : State :=
  if a < 0xFF020000 ∨ (0xFF3D0000 ≤ a ∧ a < 0xFF3D0540) then
    { s with red := { s.red with descIn := Sparse.put 0 a w s.red.descIn } }
  else if 0xFF200000 ≤ a ∧ a < 0xFF2C0000 then
    { s with cal := { s.cal with force := calWordPut s.cal.force (a - 0xFF200000) w } }
  else if 0xFF300000 ≤ a ∧ a < 0xFF3C0000 then
    { s with cal := { s.cal with staged := calWordPut s.cal.staged (a - 0xFF300000) w } }
  else if a = 0xFF3C0000 then s.setBit Reg.CAL_STAT 3 (bitAt w 0)
  else if 0xFF400000 ≤ a ∧ a < 0xFF401004 then
    { s with crs := { s.crs with act := s.crs.act.putWord ((a - 0xFF400000) / 4) w } }
  else if 0xFF402000 ≤ a ∧ a < 0xFF403004 then
    let s := if a = 0xFF402000 then s.setRegN Reg.CRS_SHD_COUNT (w % 2048) else s
    s.setShd fun b => b.putWord ((a - 0xFF402000) / 4) w
  else if 0xFF500000 ≤ a ∧ a < 0xFF504000 then
    { s with prt := { s.prt with act := { s.prt.act with desc := Sparse.put 0 ((a - 0xFF500000) / 4) w s.prt.act.desc } } }
  else if 0xFF504000 ≤ a ∧ a < 0xFF508000 then
    ({ s with prt := { s.prt with shd := { s.prt.shd with desc := Sparse.put 0 ((a - 0xFF504000) / 4) w s.prt.shd.desc } } }).prtUncheck
  else if 0xFF510000 ≤ a ∧ a < 0xFF520000 then
    { s with prt := { s.prt with act := { s.prt.act with pairs := Sparse.put 0 ((a - 0xFF510000) / 4) w s.prt.act.pairs } } }
  else if 0xFF520000 ≤ a ∧ a < 0xFF530000 then
    ({ s with prt := { s.prt with shd := { s.prt.shd with pairs := Sparse.put 0 ((a - 0xFF520000) / 4) w s.prt.shd.pairs } } }).prtUncheck
  else if a = 0xFF700010 then
    (s.setForce Reg.LPL_GUARANTEE (putBits (s.inForce Reg.LPL_GUARANTEE) 0 2 w)).setFld Reg.LPL_STAT 14 2 w
  else s

/-- The pseudo-addresses whose words make up the cut (R430). -/
def cutAddr (a : Nat) : Bool :=
  (decide (0xFF100000 ≤ a) && decide (a < 0xFF120000)) || (decide (0xFF404000 ≤ a) && decide (a < 0xFF404020))
    || (decide (0xFF530000 ≤ a) && decide (a < 0xFF531000)) || (decide (0xFF600000 ≤ a) && decide (a < 0xFF604000))

/-- A register word of the journal, written by the mirror agent M3 (R429). -/
def State.journalReg3 (s : State) (a : Nat) (v : Word) : State :=
  if a % 0x1000 = OFF_COMMIT then
    (match s.commitOf? (pageOf a) with | some c => s.cancelPage c | none => s)
  else if a = Reg.RCE_CTRL then
    let s := if bitOf v 4 then s.cancelAll else s
    let s := if bitOf v 3 then s.setBit Reg.RCE_STAT 0 false else s
    if bitOf v 2 then s.armSafety else s
  else s.gateWrite 3 a v fun s =>
    if Reg.FAB_RETMAP ≤ a ∧ a < Reg.FAB_RETMAP + 2688 then s.retmapWrite a v
    else if Reg.EVT_LOL_CHATTER ≤ a ∧ a < Reg.EVT_LOL_CHATTER + 128 then s.evtClear a v
    else
      let s := s.storeReg a v
      if a = Reg.LPL_GUARANTEE then s.clearChecked else s

/-- A word of memory, of the register pages or at a pseudo-address, other than loop contexts and the cut. -/
def State.mirrorPut (s : State) (a w : Nat) : State :=
  if journaledMem a then
    let s := s.putBytes (a / 4 * 4) (toLE 4 w)
    if 0x129E0000 ≤ a then s.clearChecked else s
  else if 0x04000000 ≤ a ∧ a < 0x08000000 then s.journalReg3 (a / 4 * 4) (BitVec.ofNat 32 w)
  else if 0xFF000000 ≤ a then s.pseudoPut a w
  else s

/-! ### The journal on the standby (R429) -/

/-- A commit of the journal for tick `k`: it takes effect at the tick it names, and at once when that has passed. -/
def State.journalCommit (s : State) (page : Nat) (k : Tick) : State :=
  if !commitPages.contains page then s
  else
    let s := if page = pPRT then
        let b := s.prt.shd
        { s with prt := { s.prt with shd := { b with overlaps := s.overlapPairs b } } }
      else s
    let s := s.pageAccept page k
    let s := { s with commits := s.commits.map fun c => if c.page = page then { c with journal := true } else c }
    if s.now.toNat < k.toNat then s else (s.lateCommits s.now).pageCommits s.now

/-- A journal entry takes effect; the word of a commit is its whole tick. -/
def State.journalApply (s : State) (e : JEntry) : State :=
  if e.addr % 4 = 1 then s.journalCommit (pageOf e.addr) (BitVec.ofNat 64 e.word)
  else if e.addr % 4 = 0 then s.mirrorPut e.addr e.word
  else s

/-- The journal queue holds at most this many entries. -/
abbrev journalRoom : Nat := 131072

/-- A JOURNAL frame: queued during BULK, applied from REPLAY on; a gap in SEQ shows that one was lost (R425, R429). -/
def State.journalFrame (s : State) (f : MirFrame) : State :=
  if s.role ≠ 2 ∧ s.trapPhase = 0 then s
  else if f.seq ≠ s.red.jSeq then
    let s := { s with red := { s.red with jSeq := f.seq + 1, jRun := (0, 0) } }
    if s.trapPhase ≠ 0 then s.trapEnd 4 else s.diverge 5 f.tick
  else
    let r := readEntries s.red.jRun (bodyEntries f.body)
    let es := r.1.map fun e => if e.addr % 4 = 1 then { e with word := (reqTick f.tick 32 e.word).toNat } else e
    let s := { s with red := { s.red with jSeq := f.seq + 1, jRun := r.2 } }
    if s.trapPhase = 1 then
      if s.red.queue.length + es.length > journalRoom then s.trapEnd 5
      else { s with red := { s.red with queue := s.red.queue ++ es } }
    else es.foldl State.journalApply s

/-! ### The Trapeze on the standby (R428 to R432) -/

/-- What was captured at the close of tick `t` comes too late: the window of t + 3 has opened (R430). -/
def State.tooLate (s : State) (t : Tick) : Bool :=
  decide (t.toNat + 3 < s.now.toNat) || (decide (t.toNat + 3 = s.now.toNat) && s.tck.judged == some s.now)

/-- A word of a SNAP frame captured at tick `t`. -/
def State.snapPut (s : State) (t : Tick) (e : JEntry) : State :=
  let a := e.addr
  if 0x12820000 ≤ a ∧ a < 0x129A0000 then
    { s with red := { s.red with ctxIn := s.red.ctxIn ++ [(t, a, e.word)] } }
  else if cutAddr a then
    { s.setFld Reg.RED_TRAP 8 3 4 with red := { s.red with cutIn := s.red.cutIn ++ [(t, a, e.word)] } }
  else s.mirrorPut a e.word

/-- A SNAP frame; one that is lost ends the Trapeze with LINK (R432). -/
def State.snapFrame (s : State) (f : MirFrame) : State :=
  if s.trapPhase = 0 ∨ 4 < s.trapPhase then s
  else if f.seq ≠ s.red.snapSeq then s.trapEnd 4
  else
    let r := readEntries s.red.snapRun (bodyEntries f.body)
    let es := r.1.filter fun e => e.addr % 4 == 0
    let s := { s with red := { s.red with
      snapSeq := f.seq + 1, snapRun := r.2, snapBytes := s.red.snapBytes + 4 * es.length } }
    let s := s.setFld Reg.RED_TRAP 16 16 (min 0xFFFF (s.red.snapBytes / 1024))
    if (es.any fun e => decide (0x12820000 ≤ e.addr) && (decide (e.addr < 0x129A0000) || cutAddr e.addr)) && s.tooLate f.tick
    then s.trapEnd 6
    else es.foldl (fun (s : State) e => s.snapPut f.tick e) s

/-- BULK begins: the state that SNAP will bring is clear, as SNAP carries what differs from it. -/
def State.clearMirrored (s : State) : State :=
  let s := (s.clearMem 0x10000000 0x12810000).clearMem 0x129A0000 0x12A20000
  let s := (List.range 672).foldl (fun (s : State) i => s.setRegN (Reg.FAB_RETMAP + 4 * i) 0) s
  let s := s.setBit Reg.CAL_STAT 3 false
  { s with
    cal := { s.cal with force := [], staged := [], wait := [] }
    crs := { s.crs with act := {}, shd := {} }
    prt := { s.prt with act := {}, shd := {}, held := [] } }

/-- CATCH_ACK: BULK begins, or the active refuses (R428). -/
def State.catchAck (s : State) (f : MirFrame) : State :=
  if !s.red.asked then s
  else if f.res > 1 then s.trapEnd f.res
  else
    let s := { s with red := { s.red with asked := false, journal := false } }
    s.clearMirrored.setFld Reg.RED_TRAP 8 3 1

/-- The descriptor received is taken when it is sound and not the one in force. -/
def State.takeDescriptor (s : State) : State :=
  let b := (List.range 131072).map fun i => BitVec.ofNat 8 (Sparse.get 0 (0xFF000000 + i / 4 * 4) s.red.descIn / 256 ^ (i % 4))
  if b.take (leAt b 32 4) = s.topoBytes ∨ !magicOk b then s
  else match (checkDesc b).2 with
  | some t => s.installTopo t b
  | none => s

/-- Cells that wait for calibration values, with the staged values of their slots (R302, R424). -/
def State.takeDeferred (s : State) : State :=
  let l := s.slots.filterMap fun e => match e.2 with
    | .cell c => if bitAt (Sparse.get 0 (0xFF3D0000 + c / 32 * 4) s.red.descIn) (c % 32)
        then some (e.1, Sparse.get ({} : CalRec) e.1 s.cal.staged) else none
    | _ => none
  ({ s with cal := { s.cal with wait := l } }).setFld Reg.CAL_STAT 16 14 l.length

/-- The committed base set comes into force on the standby, with R179 for its own retired engines (R430). -/
def State.takeBase (s : State) : State :=
  if !s.tabHdrOk placeActive 0x544C504C 24512 then s
  else
    let s := { s with lpl := { s.lpl with unplaced := some [] }, topoLocked := true }
    let s := (s.setBit Reg.FAB_STAT 1 true).installLists (s.baseLists placeActive) 1 0
    let s := s.setBit Reg.LPL_STAT 12 true
    (setBits 32 s.retMask).foldl (fun (s : State) e => if (s.listOf e).isEmpty then s else s.engineLost e) s

/-- The bulk copy is complete: the journal queued is replayed in order, and LOOPS begins (R430). -/
def State.bulkDone (s : State) : State :=
  if s.trapPhase ≠ 1 then s
  else
    let s := s.takeDescriptor.takeDeferred
    let s := { s with prt := { s.prt with act := { s.prt.act with overlaps := s.overlapPairs s.prt.act } } }
    let q := s.red.queue
    let s := { s.setFld Reg.RED_TRAP 8 3 2 with red := { s.red with queue := [], descIn := [] } }
    let s := q.foldl State.journalApply s
    s.takeBase.setFld Reg.RED_TRAP 8 3 3

/-! ### Installing the contexts and the cut (R430) -/

/-- The word at a pseudo-address among those captured at tick `t`; 0 where none came. -/
def wordAt (l : List (Tick × Nat × Nat)) (t : Tick) (a : Nat) : Nat :=
  match l.find? fun x => x.1 == t && x.2.1 == a with | some x => x.2.2 | none => 0

/-- The cell codes in the words from an address. -/
def cellsAt (l : List (Tick × Nat × Nat)) (t : Tick) (a n : Nat) : Sparse Nat :=
  (List.range n).filterMap fun c =>
    let v := wordAt l t (a + c / 16 * 4) / 4 ^ (c % 16) % 4
    if v = 0 then none else some (c, v)

/-- The tick whose low 16 bits a recognition word holds; `none` for 0. -/
def State.lastOf (s : State) (w : Nat) : Option Tick := if w / 65536 = 0 then none else some (repTick s.now 16 (w / 65536))

/-- The words of the cut captured at tick `t` are put in place (R424). -/
def State.putCut (s : State) (l : List (Tick × Nat × Nat)) (t : Tick) : State :=
  let w := wordAt l t
  let n := s.nCells
  let cells := cellsAt l t 0xFF100000 n
  let flags := w 0xFF102000
  let armed := if bitAt flags 0 then some (cellsAt l t 0xFF101000 n) else none
  let queue : List Staged := (List.range 16).filterMap fun q =>
    let x := w (0xFF103008 + 16 * q)
    if bitAt x 31 then
      some { b := BitVec.ofNat 64 (w (0xFF103000 + 16 * q) + 2 ^ 32 * w (0xFF103004 + 16 * q)), index := x % 8192
             gen := s.recGen (x % 8192), late := bitAt x 30, cells := cellsAt l t (0xFF110000 + 0x1000 * q) n }
    else none
  let s := { s with rce := { s.rce with
    s1 := cells, s2 := cells, composed := false, armed := armed, queue := queue, staging := none } }
  let s := (s.setBit Reg.RCE_STAT 1 (bitAt flags 0)).setBit Reg.RCE_STAT 0 (bitAt flags 1)
  let op := w 0xFF404014 % 4
  let b : Tick := BitVec.ofNat 64 (w 0xFF404018 + 2 ^ 32 * w 0xFF40401C)
  let s := { s with crs := { s.crs with
    base := BitVec.ofNat 64 (w 0xFF404000 + 2 ^ 32 * w 0xFF404004), pend := if op = 0 then none else some (op, b) } }
  let s := if op = 0 then s.dropCommit pCRS else s.addCommit ⟨pCRS, b, b, false, true⟩
  let s := (s.setBit Reg.CRS_STAT 0 (bitAt (w 0xFF404008) 16)).setBit Reg.CRS_STAT 5 (bitAt (w 0xFF404008) 17)
  let s := (s.setForce Reg.CRS_BASE_TIME (BitVec.ofNat 32 (w 0xFF40400C))).setForce (Reg.CRS_BASE_TIME + 4) (BitVec.ofNat 32 (w 0xFF404010))
  let s := (List.range 256).foldl (fun (s : State) c =>
    let x := w (0xFF530000 + 16 * c)
    s.setCase c fun _ => { state := x % 8, forced := bitAt x 3
                           wtrEnd := if x % 8 = 4 then t + BitVec.ofNat 64 (w (0xFF530004 + 16 * c)) else 0 }) s
  let pins := (List.range 8).filterMap fun k =>
    let v := w (0xFF600000 + 4 * k) / 65536
    if v = 0 then none else some (k, v)
  let s := { s with red := { s.red with pinLast := pins } }
  let s := (List.range s.nPorts).foldl (fun (s : State) p =>
    let x := w (0xFF601000 + 4 * p)
    let on := bitAt x 2
    let y : LolSt := { on := on, flag := if x % 4 = 0 then on else !on, run := if x % 4 = 0 then 2 else x % 4, last := s.lastOf x
                       since := if on then s.lastOf x else none }
    let z := w (0xFF603000 + 4 * p)
    let u : LosSt := { los := bitAt z 0, below := bits z 1 8, above := z / 65536, sets := (Sparse.get ({} : LosSt) p s.mea.los).sets }
    let s := s.setBit (Reg.EVT_LOL_CHATTER + 4 * (p / 32)) (p % 32) (bitAt x 3)
    { s with
      evt := { s.evt with lols := Sparse.put {} p y s.evt.lols }
      mea := { s.mea with los := Sparse.put {} p u s.mea.los } }) s
  (List.range 64).foldl (fun (s : State) a =>
    let x := w (0xFF602000 + 4 * a)
    let s := s.setBit (Reg.ALM_IN_LEVEL + 4 * (a / 32)) (a % 32) (bitAt x 0)
    let o := if x / 4 = 0 then none else some (bits x 2 14, x / 65536)
    { s with net := { s.net with lastIn := Sparse.put none a o s.net.lastIn } }) s

/-- The words of the loop contexts captured at tick `t` are put in place. -/
def State.putContexts (s : State) (l : List (Tick × Nat × Nat)) (t : Tick) : State :=
  l.foldl (fun (s : State) x =>
    if x.1 = t then s.ctxWrite ((x.2.1 - 0x12820000) / 128) (x.2.1 % 128) (BitVec.ofNat 32 x.2.2) else s) s

/-- The window of a past tick is computed again, from what that tick took from outside (R430). -/
def State.redoWindow (s : State) (q : PastTick) : State :=
  let s := { s with
    sense := q.sense, bad := q.bad, ports := q.ports
    prf := { s.prf with targets := q.targets }
    evt := { s.evt with ext := q.ext }
    prt := { s.prt with events := q.events.filter fun e => decide (e / 4096 = 2) }
    rce := { s.rce with composed := false } }
  let s := s.judgeLoops.settleHolds
  let s := s.losEval.1.runCases
  ((s.settleLoopRetires.composeFabric).runUpdates []).fixDrives.markComposed

/-- Boundary `p` for what has been put in place so far. -/
def State.redoBoundary (s : State) (p : Tick) : State :=
  let s := ({ s with tck := { s.tck with now := p - 1 } }).arrive
  let s := { s with tck := { s.tck with now := p } }
  let old := s.rce.s0
  ((s.fabricBoundary.crsCommitAt p).contextChange old).prtEffects p

/-- The contexts and the cut are put in place after the close at which each was captured, and brought forward tick by tick to
the present one; `done` says that the present tick's window has been computed already. -/
def State.bringForward (s : State) (ctx cut : List (Tick × Nat × Nat)) (done : Bool) (last : Tick) : List Tick → Bool → State
  | [], _ => s
  | p :: rest, started =>
    let s := if started then s.redoBoundary p else { s with tck := { s.tck with now := p } }
    let s := s.putContexts ctx (p - 1)
    let s := if cut.any fun x => x.1 + 1 == p then s.putCut cut (p - 1) else s
    let s := if p.toNat < last.toNat ∨ done then
        (match s.red.past.find? (·.tick == p) with | some q => s.redoWindow q | none => s)
      else s
    s.bringForward ctx cut done last rest true

/-- The cut is installed, with the contexts; READY is sent (R430). What a brought-forward tick did beside the state carried (its
interrupts and counters) does not remain. -/
def State.installCut (s : State) : State :=
  if s.trapPhase ≠ 4 then s
  else
    let ctx := s.red.ctxIn
    let cut := s.red.cutIn
    let ts := (ctx ++ cut).map (·.1)
    if ts.any s.tooLate then s.trapEnd 6
    else
      let first := ts.foldl (fun (m : Nat) t => min m t.toNat) s.now.toNat
      let ticks := (List.range (s.now.toNat - first)).map fun i => BitVec.ofNat 64 (first + 1 + i)
      let x := s.bringForward ctx cut s.rce.composed s.now ticks false
      let ls := uniq (ctx.map fun (e : Tick × Nat × Nat) => (e.2.1 - 0x12820000) / 128)
      let s := ls.foldl (fun (s : State) l => s.setLoop l fun y => { x.loop l with hist := y.hist }) s
      let s := { s with
        rce := x.rce
        crs := x.crs
        prt := x.prt
        commits := x.commits
        evt := { s.evt with lols := x.evt.lols }
        mea := { s.mea with los := x.mea.los }
        net := { s.net with lastIn := x.net.lastIn }
        red := { s.red with pinLast := x.red.pinLast, ctxIn := [], cutIn := [], past := [] } }
      let s := (s.setReg Reg.RCE_STAT (x.reg Reg.RCE_STAT)).setReg Reg.CRS_STAT (x.reg Reg.CRS_STAT)
      let s := (s.setForce Reg.CRS_BASE_TIME (x.inForce Reg.CRS_BASE_TIME)).setForce (Reg.CRS_BASE_TIME + 4)
        (x.inForce (Reg.CRS_BASE_TIME + 4))
      let s := (List.range 32).foldl (fun (s : State) w =>
        s.setReg (Reg.EVT_LOL_CHATTER + 4 * w) (x.reg (Reg.EVT_LOL_CHATTER + 4 * w))) s
      let s := s.setReg64 Reg.ALM_IN_LEVEL (x.reg64 Reg.ALM_IN_LEVEL)
      (s.setFld Reg.RED_TRAP 8 3 5).sendCtrl 3 s.now 0 0

/-- A context or the cut has not come before its deadline (R430). -/
def State.lateContext (s : State) : State := if s.trapPhase = 3 ∨ s.trapPhase = 4 then s.trapEnd 6 else s

/-! ### READY, SYNC_AT, RESULT, ABORT, CLAIMED (R411, R412, R431, R432) -/

/-- READY: the active names k_s. -/
def State.readyFrame (s : State) : State :=
  if s.role = 1 ∧ s.red.serve.isSome then s.sendCtrl 4 (s.now + 4) s.epoch 0 else s

/-- SYNC_AT: the standby will judge the digests of k_s. -/
def State.syncAtFrame (s : State) (f : MirFrame) : State :=
  if s.trapPhase ≠ 5 then s
  else { s.setFld Reg.RED_TRAP 8 3 6 with red := { s.red with syncAt := some f.at' } }

/-- RESULT: with OK the journal goes on for the synced partner, otherwise it ends; the Trapeze has ended (R429, R432). -/
def State.resultFrame (s : State) (f : MirFrame) : State :=
  if s.red.serve.isNone then s else (s.serveStop (f.res == 1)).raise pRED 5

/-- ABORT. -/
def State.abortFrame (s : State) : State :=
  if s.trapRuns then s.trapEnd 8
  else if s.red.serve.isSome then (s.serveStop false).raise pRED 5
  else s

/-- CLAIMED: the partner has claimed; LEADER clears, and a standby-synced device takes the epoch from boundary k. -/
def State.claimedFrame (s : State) (f : MirFrame) : State :=
  let s := s.setBit Reg.RED_ROLE 4 false
  if s.role = 2 then { s with red := { s.red with epochAt := some (f.at', f.ep) } } else s

/-! ### The meanings -/

/-- HELLO (R401, R417). -/
def execHello (ok : Bool) (frame : List Byte) (s : State) : Host.Outcome State Fault Refusal :=
  .next (s.mirRx ok frame 0x61 fun f s => s.helloFrame f)

/-- TRIG (R418). -/
def execTrig (ok : Bool) (frame : List Byte) (s : State) : Host.Outcome State Fault Refusal :=
  .next (s.mirRx ok frame 0x62 fun f s => s.trigFrame f)

/-- DIGEST (R425): complete at core cycle `cycle` of the present tick. -/
def execDigest (ok : Bool) (frame : List Byte) (cycle : Nat) (s : State) : Host.Outcome State Fault Refusal :=
  .next ((s.atCycle cycle).mirRx ok frame 0x63 fun f s => s.digestFrame f)

/-- DIGEST_DEADLINE (R425): C + 100 of the latest closed tick. -/
def execDigestDeadline (s : State) : Host.Outcome State Fault Refusal := .next s.digestMissing

/-- REQ (R202). -/
def execReq (ok : Bool) (frame : List Byte) (s : State) : Host.Outcome State Fault Refusal :=
  .next (s.mirRx ok frame 0x64 fun f s => s.reqFrame f)

/-- JOURNAL (R429). -/
def execJournal (ok : Bool) (frame : List Byte) (s : State) : Host.Outcome State Fault Refusal :=
  .next (s.mirRx ok frame 0x65 fun f s => s.journalFrame f)

/-- SNAP (R430). -/
def execSnap (ok : Bool) (frame : List Byte) (s : State) : Host.Outcome State Fault Refusal :=
  .next (s.mirRx ok frame 0x66 fun f s => s.snapFrame f)

/-- CATCH_REQ (R428). -/
def execCatchReq (ok : Bool) (frame : List Byte) (s : State) : Host.Outcome State Fault Refusal :=
  .next (s.ctrlRx ok frame 1 fun _ s => s.serveCatch)

/-- CATCH_ACK (R428). -/
def execCatchAck (ok : Bool) (frame : List Byte) (s : State) : Host.Outcome State Fault Refusal :=
  .next (s.ctrlRx ok frame 2 fun f s => s.catchAck f)

/-- TRAPEZE_BULK_DONE (R430). -/
def execTrapezeBulkDone (s : State) : Host.Outcome State Fault Refusal := .next s.bulkDone

/-- TRAPEZE_CUT_INSTALLED (R430). -/
def execTrapezeCutInstalled (s : State) : Host.Outcome State Fault Refusal := .next s.installCut

/-- TRAPEZE_LATE_CONTEXT (R430). -/
def execTrapezeLateContext (s : State) : Host.Outcome State Fault Refusal := .next s.lateContext

/-- READY (R431). -/
def execReady (ok : Bool) (frame : List Byte) (s : State) : Host.Outcome State Fault Refusal :=
  .next (s.ctrlRx ok frame 3 fun _ s => s.readyFrame)

/-- SYNC_AT (R431). -/
def execSyncAt (ok : Bool) (frame : List Byte) (s : State) : Host.Outcome State Fault Refusal :=
  .next (s.ctrlRx ok frame 4 fun f s => s.syncAtFrame f)

/-- RESULT (R431). -/
def execResult (ok : Bool) (frame : List Byte) (s : State) : Host.Outcome State Fault Refusal :=
  .next (s.ctrlRx ok frame 5 fun f s => s.resultFrame f)

/-- MIRROR_ABORT (R432). -/
def execMirrorAbort (ok : Bool) (frame : List Byte) (s : State) : Host.Outcome State Fault Refusal :=
  .next (s.ctrlRx ok frame 7 fun _ s => s.abortFrame)

/-- CLAIMED_FRAME (R412). -/
def execClaimedFrame (ok : Bool) (frame : List Byte) (s : State) : Host.Outcome State Fault Refusal :=
  .next (s.ctrlRx ok frame 6 fun f s => s.claimedFrame f)

end Sys2Proof.Machine
end

