-- ==== Sys2Proof/Machine/Dispatch.lean ====
section
/-! DEFINITION. What each command does: one arm per constructor, each one call of its meaning. -/

namespace Sys2Proof.Machine

/-- The effect of a command on everything but the queue of commands. -/
def exec (i : Instr) (s : State) : Host.Outcome State Fault Refusal :=
  match i with
  | .tickBoundary => Sys2Proof.Machine.execTickBoundary s
  | .triggerCutoff => Sys2Proof.Machine.execTriggerCutoff s
  | .computeWindowOpen lanes mirror => Sys2Proof.Machine.execComputeWindowOpen lanes mirror s
  | .losEvaluation => Sys2Proof.Machine.execLosEvaluation s
  | .composeState stalls => Sys2Proof.Machine.execComposeState stalls s
  | .windowClose faults corr => Sys2Proof.Machine.execWindowClose faults corr s
  | .engineRetire e => Sys2Proof.Machine.execEngineRetire e s
  | .ringmasterStart m cycle alt => Sys2Proof.Machine.execRingmasterStart m cycle alt s
  | .ringmasterStop m alt => Sys2Proof.Machine.execRingmasterStop m alt s
  | .tckCommit m cycle => Sys2Proof.Machine.execTckCommit m cycle s
  | .commitCancel m page cycle => Sys2Proof.Machine.execCommitCancel m page cycle s
  | .markerTx port ofs => Sys2Proof.Machine.execMarkerTx port ofs s
  | .alignTx place => Sys2Proof.Machine.execAlignTx place s
  | .upstreamFrame port fecOk content => Sys2Proof.Machine.execUpstreamFrame port fecOk content s
  | .alignRx port lane inPlace skew => Sys2Proof.Machine.execAlignRx port lane inPlace skew s
  | .alignMissing port lane => Sys2Proof.Machine.execAlignMissing port lane s
  | .reservedControlBlock got => Sys2Proof.Machine.execReservedControlBlock got s
  | .pmdTrainDone port lanes => Sys2Proof.Machine.execPmdTrainDone port lanes s
  | .discover port id efe proto layout te hold => Sys2Proof.Machine.execDiscover port id efe proto layout te hold s
  | .echoRsp port seq rtt => Sys2Proof.Machine.execEchoRsp port seq rtt s
  | .trainTimeout port signal => Sys2Proof.Machine.execTrainTimeout port signal s
  | .trainRetry port => Sys2Proof.Machine.execTrainRetry port s
  | .laneRetire port lane => Sys2Proof.Machine.execLaneRetire port lane s
  | .laneRestore m port lanes => Sys2Proof.Machine.execLaneRestore m port lanes s
  | .retrain m port => Sys2Proof.Machine.execRetrain m port s
  | .echo m port => Sys2Proof.Machine.execEcho m port s
  | .laneEnWrite m port en => Sys2Proof.Machine.execLaneEnWrite m port en s
  | .loadDesc m => Sys2Proof.Machine.execLoadDesc m s
  | .descLoadDone data busAt => Sys2Proof.Machine.execDescLoadDone data busAt s
  | .loadImage m => Sys2Proof.Machine.execLoadImage m s
  | .abortImage m data got => Sys2Proof.Machine.execAbortImage m data got s
  | .imageLoadDone data busAt => Sys2Proof.Machine.execImageLoadDone data busAt s
  | .applyGo m cycle => Sys2Proof.Machine.execApplyGo m cycle s
  | .stagingDone => Sys2Proof.Machine.execStagingDone s
  | .applyCancelAll m => Sys2Proof.Machine.execApplyCancelAll m s
  | .armSafety m => Sys2Proof.Machine.execArmSafety m s
  | .safeNow m cycle => Sys2Proof.Machine.execSafeNow m cycle s
  | .safeExit m => Sys2Proof.Machine.execSafeExit m s
  | .stateStoreWrite m off data => Sys2Proof.Machine.execStateStoreWrite m off data s
  | .contextEntryWrite m off data => Sys2Proof.Machine.execContextEntryWrite m off data s
  | .profileShadowWrite m off data => Sys2Proof.Machine.execProfileShadowWrite m off data s
  | .placementShadowWrite m off data => Sys2Proof.Machine.execPlacementShadowWrite m off data s
  | .loopContextWrite m off data => Sys2Proof.Machine.execLoopContextWrite m off data s
  | .profileBankSwap m cycle => Sys2Proof.Machine.execProfileBankSwap m cycle s
  | .copyBackDone => Sys2Proof.Machine.execCopyBackDone s
  | .nop m arg cycle => Sys2Proof.Machine.execNop m arg cycle s
  | .setState m arg cycle => Sys2Proof.Machine.execSetState m arg cycle s
  | .freeze m arg cycle => Sys2Proof.Machine.execFreeze m arg cycle s
  | .release m arg cycle => Sys2Proof.Machine.execRelease m arg cycle s
  | .setProfA m arg cycle => Sys2Proof.Machine.execSetProfA m arg cycle s
  | .setProfB m arg cycle => Sys2Proof.Machine.execSetProfB m arg cycle s
  | .setParkA m arg cycle => Sys2Proof.Machine.execSetParkA m arg cycle s
  | .setParkB m arg cycle => Sys2Proof.Machine.execSetParkB m arg cycle s
  | .setTarget m arg cycle => Sys2Proof.Machine.execSetTarget m arg cycle s
  | .clearFlags m arg cycle => Sys2Proof.Machine.execClearFlags m arg cycle s
  | .loopRetire l => Sys2Proof.Machine.execLoopRetire l s
  | .placementCheck m auto => Sys2Proof.Machine.execPlacementCheck m auto s
  | .placementCheckDone => Sys2Proof.Machine.execPlacementCheckDone s
  | .lplCommit m cycle => Sys2Proof.Machine.execLplCommit m cycle s
  | .repack m auto => Sys2Proof.Machine.execRepack m auto s
  | .repackDone => Sys2Proof.Machine.execRepackDone s
  | .lenRetire m e => Sys2Proof.Machine.execLenRetire m e s
  | .rsvSubmit m slot => Sys2Proof.Machine.execRsvSubmit m slot s
  | .jobSlotWrite m slot word v => Sys2Proof.Machine.execJobSlotWrite m slot word v s
  | .jobStart => Sys2Proof.Machine.execJobStart s
  | .jobResume => Sys2Proof.Machine.execJobResume s
  | .jobEnd stage cycles cycle => Sys2Proof.Machine.execJobEnd stage cycles cycle s
  | .budgetExhausted cycles cycle => Sys2Proof.Machine.execBudgetExhausted cycles cycle s
  | .jobCancel m slot cycles => Sys2Proof.Machine.execJobCancel m slot cycles s
  | .jobCancelAll m cycles => Sys2Proof.Machine.execJobCancelAll m cycles s
  | .carouselCheck m => Sys2Proof.Machine.execCarouselCheck m s
  | .carouselCheckDone => Sys2Proof.Machine.execCarouselCheckDone s
  | .start m cycle => Sys2Proof.Machine.execStart m cycle s
  | .swap m cycle => Sys2Proof.Machine.execSwap m cycle s
  | .stop m cycle => Sys2Proof.Machine.execStop m cycle s
  | .carouselSlotChange => Sys2Proof.Machine.execCarouselSlotChange s
  | .crsShdDataWrite m v => Sys2Proof.Machine.execCrsShdDataWrite m v s
  | .crsActDataRead m => Sys2Proof.Machine.execCrsActDataRead m s
  | .protectionCheck m => Sys2Proof.Machine.execProtectionCheck m s
  | .protectionCheckDone => Sys2Proof.Machine.execProtectionCheckDone s
  | .prtCommit m cycle => Sys2Proof.Machine.execPrtCommit m cycle s
  | .prtSubDataWrite m v => Sys2Proof.Machine.execPrtSubDataWrite m v s
  | .prtSubaDataRead m => Sys2Proof.Machine.execPrtSubaDataRead m s
  | .force m case cycle => Sys2Proof.Machine.execForce m case cycle s
  | .clear m case cycle => Sys2Proof.Machine.execClear m case cycle s
  | .wtrExpiry case => Sys2Proof.Machine.execWtrExpiry case s
  | .trigInEdge pin level cycle => Sys2Proof.Machine.execTrigInEdge pin level cycle s
  | .pinRecognition pin cycle => Sys2Proof.Machine.execPinRecognition pin cycle s
  | .stuckDetect input => Sys2Proof.Machine.execStuckDetect input s
  | .evtPinEnWrite m v cycle => Sys2Proof.Machine.execEvtPinEnWrite m v cycle s
  | .chatterClear m word v => Sys2Proof.Machine.execChatterClear m word v s
  | .meaWindowEnd => Sys2Proof.Machine.execMeaWindowEnd s
  | .meaWinWrite m v => Sys2Proof.Machine.execMeaWinWrite m v s
  | .meaEnWrite m v => Sys2Proof.Machine.execMeaEnWrite m v s
  | .calPassStart m => Sys2Proof.Machine.execCalPassStart m s
  | .calMeasurementDone => Sys2Proof.Machine.execCalMeasurementDone s
  | .calAttemptTimeout => Sys2Proof.Machine.execCalAttemptTimeout s
  | .calAbort m => Sys2Proof.Machine.execCalAbort m s
  | .calStage m => Sys2Proof.Machine.execCalStage m s
  | .calStageDone => Sys2Proof.Machine.execCalStageDone s
  | .calStore m => Sys2Proof.Machine.execCalStore m s
  | .calStoreDone => Sys2Proof.Machine.execCalStoreDone s
  | .calCommit m cycle => Sys2Proof.Machine.execCalCommit m cycle s
  | .supFrameRx port frame ago rivals cycle => Sys2Proof.Machine.execSupFrameRx port frame ago rivals cycle s
  | .pauseFrame port fcsOk sa quanta cycle => Sys2Proof.Machine.execPauseFrame port fcsOk sa quanta cycle s
  | .pauseRepeat port => Sys2Proof.Machine.execPauseRepeat port s
  | .learn cycle => Sys2Proof.Machine.execLearn cycle s
  | .agingPass => Sys2Proof.Machine.execAgingPass s
  | .scrub => Sys2Proof.Machine.execScrub s
  | .conflictRecordExpiry cycle => Sys2Proof.Machine.execConflictRecordExpiry cycle s
  | .insert m => Sys2Proof.Machine.execInsert m s
  | .delete m => Sys2Proof.Machine.execDelete m s
  | .lookup m => Sys2Proof.Machine.execLookup m s
  | .flushPort m port => Sys2Proof.Machine.execFlushPort m port s
  | .flushVid m vid => Sys2Proof.Machine.execFlushVid m vid s
  | .flushLearned m => Sys2Proof.Machine.execFlushLearned m s
  | .fwdCmdDone => Sys2Proof.Machine.execFwdCmdDone s
  | .fwdTableDataWrite m table v => Sys2Proof.Machine.execFwdTableDataWrite m table v s
  | .alloc m => Sys2Proof.Machine.execAlloc m s
  | .free m handle => Sys2Proof.Machine.execFree m handle s
  | .bpmPoolCfgWrite m pool word v => Sys2Proof.Machine.execBpmPoolCfgWrite m pool word v s
  | .portInterval cv => Sys2Proof.Machine.execPortInterval cv s
  | .portRetire port => Sys2Proof.Machine.execPortRetire port s
  | .portRestore m port => Sys2Proof.Machine.execPortRestore m port s
  | .linkUp port an => Sys2Proof.Machine.execLinkUp port an s
  | .linkDown port sync => Sys2Proof.Machine.execLinkDown port sync s
  | .hostTxFrame len port prio vid flags data busOk cycle => Sys2Proof.Machine.execHostTxFrame len port prio vid flags data busOk cycle s
  | .resetRings m => Sys2Proof.Machine.execResetRings m s
  | .alarmFrame port eth ago payload cycle => Sys2Proof.Machine.execAlarmFrame port eth ago payload cycle s
  | .alarmCacheExpiry cycle => Sys2Proof.Machine.execAlarmCacheExpiry cycle s
  | .almSend m kind code => Sys2Proof.Machine.execAlmSend m kind code s
  | .almInClear m word v => Sys2Proof.Machine.execAlmInClear m word v s
  | .openSession port sa tag ago target key nonce mac cycle => Sys2Proof.Machine.execOpen port sa tag ago target key nonce mac cycle s
  | .request port sa tag ago session target key seq ops mac cycle => Sys2Proof.Machine.execRequest port sa tag ago session target key seq ops mac cycle s
  | .closeSession port sa tag ago session target key seq mac cycle => Sys2Proof.Machine.execClose port sa tag ago session target key seq mac cycle s
  | .mgtIdleExpiry cycle => Sys2Proof.Machine.execMgtIdleExpiry cycle s
  | .keySlotWrite m slot off data => Sys2Proof.Machine.execKeySlotWrite m slot off data s
  | .egressSelect port cycle ahead => Sys2Proof.Machine.execEgressSelect port cycle ahead s
  | .gateEntryChange port cycle => Sys2Proof.Machine.execGateEntryChange port cycle s
  | .gateCommit m cycle => Sys2Proof.Machine.execGateCommit m cycle s
  | .gateCancel m cycle => Sys2Proof.Machine.execGateCancel m cycle s
  | .gateListStart port cycle => Sys2Proof.Machine.execGateListStart port cycle s
  | .shaperConfigWrite m reg v => Sys2Proof.Machine.execShaperConfigWrite m reg v s
  | .wheelSlot => Sys2Proof.Machine.execWheelSlot s
  | .polCfgWrite m v => Sys2Proof.Machine.execPolCfgWrite m v s
  | .ptpMessage port env ago msg cycle => Sys2Proof.Machine.execPtpMessage port env ago msg cycle s
  | .followUp port env ago msg cycle => Sys2Proof.Machine.execFollowUp port env ago msg cycle s
  | .delayResp port env ago msg cycle => Sys2Proof.Machine.execDelayResp port env ago msg cycle s
  | .tcEntryExpiry cycle => Sys2Proof.Machine.execTcEntryExpiry cycle s
  | .ntuRateWrite m v => Sys2Proof.Machine.execNtuRateWrite m v s
  | .ntuOffsetWrite m v => Sys2Proof.Machine.execNtuOffsetWrite m v s
  | .ntuStepWrite m v => Sys2Proof.Machine.execNtuStepWrite m v s
  | .lock m sync => Sys2Proof.Machine.execLock m sync s
  | .hold m sync => Sys2Proof.Machine.execHold m sync s
  | .ntuFree m sync => Sys2Proof.Machine.execNtuFree m sync s
  | .sync m => Sys2Proof.Machine.execSync m s
  | .syncWdInterval => Sys2Proof.Machine.execSyncWdInterval s
  | .nodeWrite m v => Sys2Proof.Machine.execNodeWrite m v s
  | .mpdWrite m port v => Sys2Proof.Machine.execMpdWrite m port v s
  | .ppsInEdge cycle => Sys2Proof.Machine.execPpsInEdge cycle s
  | .ppsOutRise cycle => Sys2Proof.Machine.execPpsOutRise cycle s
  | .ppsOutFall => Sys2Proof.Machine.execPpsOutFall s
  | .claimArm m arm solo unsyncedOk => Sys2Proof.Machine.execClaimArm m arm solo unsyncedOk s
  | .claimAttempt cycle => Sys2Proof.Machine.execClaimAttempt cycle s
  | .claimed cycle => Sys2Proof.Machine.execClaimed cycle s
  | .ilkInAssert => Sys2Proof.Machine.execIlkInAssert s
  | .ilkInDeassert cycle => Sys2Proof.Machine.execIlkInDeassert cycle s
  | .toPair m => Sys2Proof.Machine.execToPair m s
  | .interlockRelease m => Sys2Proof.Machine.execInterlockRelease m s
  | .heartbeatLoss => Sys2Proof.Machine.execHeartbeatLoss s
  | .helloTx => Sys2Proof.Machine.execHelloTx s
  | .hello ok frame => Sys2Proof.Machine.execHello ok frame s
  | .trig ok frame => Sys2Proof.Machine.execTrig ok frame s
  | .digest ok frame cycle => Sys2Proof.Machine.execDigest ok frame cycle s
  | .digestDeadline => Sys2Proof.Machine.execDigestDeadline s
  | .req ok frame => Sys2Proof.Machine.execReq ok frame s
  | .journal ok frame => Sys2Proof.Machine.execJournal ok frame s
  | .snap ok frame => Sys2Proof.Machine.execSnap ok frame s
  | .catchUp m => Sys2Proof.Machine.execCatch m s
  | .catchReq ok frame => Sys2Proof.Machine.execCatchReq ok frame s
  | .catchAck ok frame => Sys2Proof.Machine.execCatchAck ok frame s
  | .trapezeBulkDone => Sys2Proof.Machine.execTrapezeBulkDone s
  | .trapezeCutInstalled => Sys2Proof.Machine.execTrapezeCutInstalled s
  | .trapezeLateContext => Sys2Proof.Machine.execTrapezeLateContext s
  | .ready ok frame => Sys2Proof.Machine.execReady ok frame s
  | .syncAt ok frame => Sys2Proof.Machine.execSyncAt ok frame s
  | .result ok frame => Sys2Proof.Machine.execResult ok frame s
  | .mirrorAbort ok frame => Sys2Proof.Machine.execMirrorAbort ok frame s
  | .abortCatch m => Sys2Proof.Machine.execAbortCatch m s
  | .mirrorLinkDown => Sys2Proof.Machine.execMirrorLinkDown s
  | .mirrorRetrain m => Sys2Proof.Machine.execMirrorRetrain m s
  | .mirrorLaneRestore m lanes => Sys2Proof.Machine.execMirrorLaneRestore m lanes s
  | .mirrorLaneEnWrite m en => Sys2Proof.Machine.execMirrorLaneEnWrite m en s
  | .uncorrectableEcc region addr x reader => Sys2Proof.Machine.execUncorrectableEcc region addr x reader s
  | .linkProbe page inverts => Sys2Proof.Machine.execLinkProbe page inverts s
  | .pairEqual page equal => Sys2Proof.Machine.execPairEqual page equal s
  | .w1cClear m addr value => Sys2Proof.Machine.execW1cClear m addr value s
  | .fltFlush m safetyEn force => Sys2Proof.Machine.execFltFlush m safetyEn force s
  | .flushDone => Sys2Proof.Machine.execFlushDone s
  | .coldReset m key straps pll clear => Sys2Proof.Machine.execColdReset m key straps pll clear s
  | .warmReset m key clear => Sys2Proof.Machine.execWarmReset m key clear s
  | .managementReset m key cycle => Sys2Proof.Machine.execManagementReset m key cycle s
  | .mgmtResetDone => Sys2Proof.Machine.execMgmtResetDone s
  | .resetN ns straps pll clear => Sys2Proof.Machine.execResetN ns straps pll clear s
  | .pcieHotReset => Sys2Proof.Machine.execPcieHotReset s
  | .functionLevelReset => Sys2Proof.Machine.execFunctionLevelReset s
  | .pcieLinkDown => Sys2Proof.Machine.execPcieLinkDown s
  | .pciePerst low => Sys2Proof.Machine.execPciePerst low s
  | .softReset m page v => Sys2Proof.Machine.execSrst m page v s
  | .takeoverOpen m => Sys2Proof.Machine.execTakeoverOpen m s
  | .takeoverGo m => Sys2Proof.Machine.execGo m s
  | .takeoverAdopt m => Sys2Proof.Machine.execAdopt m s
  | .takeoverAbandon m => Sys2Proof.Machine.execAbandon m s
  | .registerWrite m addr value en cycle => Sys2Proof.Machine.execRegisterWrite m addr value en cycle s
  | .lowWordRead m addr cycle => Sys2Proof.Machine.execLowWordRead m addr cycle s
  | .decodeError m write addr => Sys2Proof.Machine.execDecodeError m write addr s
  | .burstTruncate m write addr data => Sys2Proof.Machine.execBurstTruncate m write addr data s
  | .intForce m page value => Sys2Proof.Machine.execIntForce m page value s
  | .msixMessage => Sys2Proof.Machine.execMsixMessage s
  | .vectorUnmask m vec => Sys2Proof.Machine.execVectorUnmask m vec s
  | .alertResponse => Sys2Proof.Machine.execAlertResponse s
  | .remap m remap => Sys2Proof.Machine.execRemap m remap s
  | .mramWrite m off data => Sys2Proof.Machine.execMramWrite m off data s
  | .smbAddr v pec => Sys2Proof.Machine.execSmbAddr v pec s
  | .smbWrite v pec => Sys2Proof.Machine.execSmbWrite v pec s
  | .smbRead => Sys2Proof.Machine.execSmbRead s
  | .extest => Sys2Proof.Machine.execExtest s
  | .idcode => Sys2Proof.Machine.execIdcode s
  | .samplePreload => Sys2Proof.Machine.execSamplePreload s
  | .clamp => Sys2Proof.Machine.execClamp s
  | .highz => Sys2Proof.Machine.execHighz s
  | .extestPulse => Sys2Proof.Machine.execExtestPulse s
  | .extestTrain => Sys2Proof.Machine.execExtestTrain s
  | .bypass => Sys2Proof.Machine.execBypass s
  | .memacc write go addr data => Sys2Proof.Machine.execMemacc write go addr data s
  | .jtagTrst => Sys2Proof.Machine.execJtagTrst s
  | .vinInvalid b mv cycle => Sys2Proof.Machine.execVinInvalid b mv cycle s
  | .vinValid b mv cycle => Sys2Proof.Machine.execVinValid b mv cycle s
  | .vinReturn cycle => Sys2Proof.Machine.execVinReturn cycle s
  | .testBWrite m testB => Sys2Proof.Machine.execTestBWrite m testB s
  | .powerOnRestart straps pll clear cool => Sys2Proof.Machine.execPowerOnRestart straps pll clear cool s
  | .thermalEvaluation samples => Sys2Proof.Machine.execThermalEvaluation samples s
  | .sensorRetire sensor => Sys2Proof.Machine.execSensorRetire sensor s
  | .sensorRestore m mask => Sys2Proof.Machine.execSensorRestore m mask s
  | .thermalAck m floor => Sys2Proof.Machine.execAck m floor s
  | .swFloorWrite m floor => Sys2Proof.Machine.execSwFloorWrite m floor s
  | .thmShutWrite m v => Sys2Proof.Machine.execThmShutWrite m v s
  | .thermalShutdown analog => Sys2Proof.Machine.execThermalShutdown analog s
  | .thermalRestart straps pll clear => Sys2Proof.Machine.execThermalRestart straps pll clear s
  | .pllLockLoss cycle => Sys2Proof.Machine.execPllLockLoss cycle s
  | .pllRelock us cycle => Sys2Proof.Machine.execPllRelock us cycle s
  | .refclkLoss => Sys2Proof.Machine.execRefclkLoss s
  | .wdclkLoss => Sys2Proof.Machine.execWdclkLoss s
  | .claimedFrame ok frame => Sys2Proof.Machine.execClaimedFrame ok frame s
  | .echoReq seq => Sys2Proof.Machine.execEchoReq seq s
  | .pauseExpiry port cycle => Sys2Proof.Machine.execPauseExpiry port cycle s
  | .remoteFault port present => Sys2Proof.Machine.execRemoteFault port present s
  | .pcieLinkChange speed width msixEn maskAll => Sys2Proof.Machine.execPcieLinkChange speed width msixEn maskAll s
  | .softResetDone page => Sys2Proof.Machine.execSoftResetDone page s
  | .wdclkReturn => Sys2Proof.Machine.execWdclkReturn s
  | .refclkReturn => Sys2Proof.Machine.execRefclkReturn s
  | .pllUnlocked2ms => Sys2Proof.Machine.execPllUnlocked2ms s

end Sys2Proof.Machine
end

