-- ==== Sys2Proof/WellFormed.lean ====
section
/-! DEFINITION. Which commands have operands that a sender can give. Most operand types admit no other values; these checks are
the rest. A meaning answers the fault `illFormed` for a command that fails its check. -/

namespace Sys2Proof

open Machine

/-- Bytes that lie in a region of `size` bytes from offset `off`. -/
def inRegion (size off : Nat) (data : List Byte) : Bool := data != [] && decide (off + data.length ≤ size)

/-- An address of the memories T1 to T6 (R467). -/
def memoryAddr (a : Nat) : Bool :=
  decide (a < 0x00080000) || (decide (0x10000000 ≤ a) && decide (a < 0x13400000))
    || (decide (0x14000000 ≤ a) && decide (a < 0x16000000))

/-- The operands are ones that the command can carry: OFS of R86; the PCIe speeds and widths of R492; sixteen sensors (R499);
whole words in a burst to addresses other than memory (R484); an address that the master can reach (R463); and bytes that lie in the region a memory write names. -/
def Instr.wellFormed : Instr → Bool
  | .markerTx _ ofs => decide (6800 ≤ ofs) && decide (ofs ≤ 9520)
  | .pcieLinkChange speed width _ _ => speed != 0 && width != 0 && width != 3
  | .thermalEvaluation samples => samples.length == 16
  | .burstTruncate m _ addr data =>
    (memoryAddr addr.toNat || (data.length % 4 == 0 && addr.toNat % 4 == 0)) && masterReaches m addr.toNat data.length
  | .registerWrite m addr _ _ _ => masterReaches m addr.toNat 1
  | .lowWordRead m addr _ => masterReaches m addr.toNat 1
  | .decodeError m _ addr => masterReaches m addr.toNat 1
  | .w1cClear m addr _ => masterReaches m addr.toNat 1
  | .stateStoreWrite _ off data => inRegion 33554432 off data
  | .contextEntryWrite _ off data => inRegion 8388608 off data
  | .profileShadowWrite _ off data => inRegion 65536 off data
  | .loopContextWrite _ off data => inRegion 1572864 off data
  | .placementShadowWrite _ off data => inRegion 2490368 off data
  | .mramWrite _ off data => inRegion 33554432 off data
  | .keySlotWrite _ _ off data => inRegion 32 off data
  | _ => true

end Sys2Proof
end

