-- ==== Sys2Proof/Safety.lean ====
section
/-! DEFINITION. What counts as a well-kept state: the canonical form of memory, and a queue that holds only commands the outside
world can give; and when the bus carries out a register write. -/

namespace Sys2Proof

/-- The commands that can change TCK_NOW: a boundary, the restarts, and every command in which a register write can be carried
out that is not the command's own: one that the bus held (R474), one of a management request (R348), or a generic one. -/
def Instr.mayMoveTick : Instr → Bool
  | .tickBoundary | .supFrameRx _ _ _ _ _ | .pauseFrame _ _ _ _ _ | .hostTxFrame _ _ _ _ _ _ _ _ | .alarmFrame _ _ _ _ _
    | .openSession _ _ _ _ _ _ _ _ _ | .request _ _ _ _ _ _ _ _ _ _ _ | .closeSession _ _ _ _ _ _ _ _ _ _
    | .ptpMessage _ _ _ _ _ | .followUp _ _ _ _ _ | .delayResp _ _ _ _ _ | .w1cClear _ _ _ | .flushDone
    | .coldReset _ _ _ _ _ | .warmReset _ _ _ | .managementReset _ _ _ | .mgmtResetDone | .resetN _ _ _ _
    | .registerWrite _ _ _ _ _ | .decodeError _ _ _ | .burstTruncate _ _ _ _ | .intForce _ _ _ | .vectorUnmask _ _
    | .remap _ _ | .smbWrite _ _ | .memacc _ _ _ _ | .powerOnRestart _ _ _ _ | .thermalRestart _ _ _ | .pllRelock _ _
    | .softResetDone _ => true
  | _ => false

/-- The commands that can write a byte of memory, of themselves or by a register write carried out in them. -/
def Instr.mayStore : Instr → Bool
  | .tickBoundary | .computeWindowOpen _ _ | .windowClose _ _ | .descLoadDone _ _ | .abortImage _ _ _ | .imageLoadDone _ _
    | .stateStoreWrite _ _ _ | .contextEntryWrite _ _ _ | .profileShadowWrite _ _ _ | .placementShadowWrite _ _ _
    | .loopContextWrite _ _ _ | .copyBackDone | .repackDone | .jobEnd _ _ _ | .budgetExhausted _ _ | .jobCancel _ _ _
    | .jobCancelAll _ _ | .calStore _ | .calStoreDone | .supFrameRx _ _ _ _ _ | .pauseFrame _ _ _ _ _ | .learn _
    | .agingPass | .scrub | .fwdCmdDone | .portRetire _ | .hostTxFrame _ _ _ _ _ _ _ _ | .alarmFrame _ _ _ _ _
    | .openSession _ _ _ _ _ _ _ _ _ | .request _ _ _ _ _ _ _ _ _ _ _ | .closeSession _ _ _ _ _ _ _ _ _ _
    | .keySlotWrite _ _ _ _ | .ptpMessage _ _ _ _ _ | .followUp _ _ _ _ _ | .delayResp _ _ _ _ _ | .claimed _ | .ilkInAssert
    | .heartbeatLoss | .hello _ _ | .digest _ _ _ | .digestDeadline | .journal _ _ | .snap _ _ | .catchAck _ _
    | .trapezeBulkDone | .uncorrectableEcc _ _ _ _ | .w1cClear _ _ _ | .fltFlush _ _ _ | .flushDone | .coldReset _ _ _ _ _
    | .warmReset _ _ _ | .managementReset _ _ _ | .mgmtResetDone | .resetN _ _ _ _ | .softReset _ _ _
    | .registerWrite _ _ _ _ _ | .decodeError _ _ _ | .burstTruncate _ _ _ _ | .intForce _ _ _ | .vectorUnmask _ _
    | .remap _ _ | .mramWrite _ _ _ | .smbWrite _ _ | .memacc _ _ _ _ | .vinInvalid _ _ _ | .vinValid _ _ _
    | .powerOnRestart _ _ _ _ | .thermalEvaluation _ | .thermalShutdown _ | .thermalRestart _ _ _ | .pllRelock _ _
    | .wdclkLoss | .softResetDone _ => true
  | _ => false

end Sys2Proof

namespace Sys2Proof.Machine

/-- The canonical form of memory: addresses strictly rising, and no entry equal to what its address reads as unlisted. -/
def Memory.wf (m : List Host.Cell) : Bool := Sparse.wf memDefault m

/-- Every waiting command has operands that the outside world can give. -/
def State.queueOk (s : State) : Bool := s.pending.all Instr.wellFormed

/-- The bus carries out a master's 32-bit write of a register: the device has power and is out of reset, the address is one of
T0, the access is not held, and no rule of R474 to R481 refuses it. -/
def State.accepts (s : State) (m addr : Nat) (v : Word) : Bool :=
  !s.off && !s.flt.inReset && s.target addr == 0 && !s.accessHeld m addr && (s.writeRefusal? m addr v).isNone

/-- A command is carried out: it answers a next state, and `P` holds of it. -/
def Completes (c : Instr) (s : State) (P : State → Prop) : Prop := ∃ t, exec c s = .next t ∧ P t

/-- Every register that is not one of the keys reads as before. -/
def SameRegs (s t : State) (keys : List Nat) : Prop := ∀ k, k ∉ keys → t.reg k = s.reg k

/-- Every byte of memory reads as before. -/
def SameMem (s t : State) : Prop := ∀ a, t.byte a = s.byte a

/-- Every byte of memory outside the `n` bytes from `lo` reads as before. -/
def SameMemOut (s t : State) (lo n : Nat) : Prop := ∀ a, ¬ (lo ≤ a ∧ a < lo + n) → t.byte a = s.byte a

/-- Every byte of memory outside the ranges `l`, each a base and a length, reads as before. -/
def SameMemOff (s t : State) (l : List (Nat × Nat)) : Prop := ∀ a, (∀ r ∈ l, ¬ (r.1 ≤ a ∧ a < r.1 + r.2)) → t.byte a = s.byte a

/-- The solver jobs that have started and not ended, and the report records of their slots (R232, R233). -/
def State.startedJobs (s : State) : List RsvJob := s.rsv.run.toList ++ s.rsv.susp.toList
def State.jobReports (s : State) : List (Nat × Nat) := s.startedJobs.map fun j => (recAddr (s.jobReport j.slot), 4096)

/-- Every byte of memory reads as before, but for the reports of jobs that a loss of the role cancels (R237). -/
def SameMemButReports (s t : State) : Prop := SameMemOff s t s.jobReports

/-- The bytes from `base` are `data`, and every other byte reads as before. -/
def Wrote (s t : State) (base : Nat) (data : List Byte) : Prop :=
  (∀ i, i < data.length → t.byte (base + i) = data.getD i 0) ∧ SameMemOut s t base data.length

/-- One codeword of the blocks `l` and IDLE has left port `n`, 16 being the mirror link, and nothing else; the event `o` names what it
carries. -/
def SentBlocks (s t : State) (n : Nat) (l : List Block) (o : Out) : Prop :=
  ∃ sym, t.outs = .codeword n (fillIdle l) sym :: o :: s.outs

/-- The mirror frame `frame` has been sent. -/
def SentFrame (s t : State) (frame : List Byte) : Prop := SentBlocks s t 16 (dataBlocks frame) (.mirror frame)

/-- One mirror frame has been sent. -/
def SentMirror (s t : State) : Prop := ∃ frame, SentFrame s t frame

/-- Port `n` has sent one codeword and nothing else: an ALIGN that waited there (R80), the control block `b`, and IDLE; the event
`o` names the block. -/
def SentControl (s t : State) (n : Nat) (b : Block) (o : Out) : Prop :=
  ∃ sym, t.outs = o :: .codeword n (fillIdle ((s.takeAlign n).2.toList ++ [b])) sym :: (s.takeAlign n).1.outs

/-- An ALIGN block of counter `c` and lane mask `lanes` has been sent. -/
def SentAlign (s t : State) (n c lanes : Nat) : Prop := SentBlocks s t n [alignBlock c lanes] (.align n c lanes)

/-- The last of a list of what queue `q` of port `d` holds has been added. -/
def Queued (s t : State) (d q : Nat) (P : QFrame → Prop) : Prop :=
  ∃ f, (t.netQ d q).frames = (s.netQ d q).frames ++ [f] ∧ P f

/-- The bus carries out a master's read of a register: the device has power and is out of reset, the address is a register of T0,
the access is not held and not refused (R481), and the word is not one that the read of its low word latched. -/
def State.acceptsRead (s : State) (m addr : Nat) : Bool :=
  !s.off && !s.flt.inReset && s.target addr == 0 && !s.accessHeld m addr && addr % 4 == 0
    && !(decide (3 ≤ m) && decide (m ≤ 6) && s.protected (pageOf addr)) && (regRow? addr).isSome && (s.latched? m addr).isNone

/-- Data registers whose reads advance the index of their window (R270, R272). -/
def advancingRegs : List Nat := [Reg.CRS_ACT_DATA, Reg.PRT_SUB_DATA, Reg.PRT_SUBA_DATA]

/-- Registers whose writes do nothing but take their writable bits. -/
def plainRegs : List Nat :=
  [Reg.THM_WARN, Reg.THM_THROTTLE, Reg.THM_DWELL, Reg.PWR_RETURN_DELAY, Reg.RSV_BUDGET, Reg.CAL_AVG, Reg.CAL_TIMEOUT,
   Reg.MGT_IDLE, Reg.RCE_LATE_POLICY, Reg.CRS_ACT_IDX, Reg.ALM_TX, Reg.NTU_PTP_CFG]

/-- How a start-up ends, by whether the PLL locks and the memories clear (R516, R517, R523): done, or in recovery mode without a
valid microcode bank; or stopped after step 1 or 2 with no register accessible. -/
def StartedUp (t : State) (pll clear : Bool) : Prop :=
  if pll = false then t.flt.inReset = true ∧ t.fld Reg.GLB_BOOT 0 4 = 1 ∧ t.fld Reg.GLB_BOOT 8 8 = 0x21 ∧ t.bit Reg.GLB_BOOT 31 = true
  else if clear = false then
    t.flt.inReset = true ∧ t.fld Reg.GLB_BOOT 0 4 = 2 ∧ t.fld Reg.GLB_BOOT 8 8 = 0x31 ∧ t.bit Reg.GLB_BOOT 31 = true
  else t.flt.inReset = false ∧ (t.fld Reg.GLB_BOOT 0 4 = 9 ∨
    t.fld Reg.GLB_BOOT 0 4 = 3 ∧ t.fld Reg.GLB_BOOT 8 8 = 0x41 ∧ t.bit Reg.GLB_BOOT 31 = true)

/-- A mirror frame of a kind is received whole on a link with a lane in service (R415, R416). -/
def State.mirrorTakes (s : State) (ok : Bool) (frame : List Byte) (kind : Nat) (f : MirFrame) : Prop :=
  ok = true ∧ s.off = false ∧ s.flt.inReset = false ∧ s.mirLanes ≠ 0 ∧ readMirror? frame = some f ∧ f.kind = kind

/-- The calibration bank a store writes, and the SEQ it gives (R305). -/
def State.otherBank (s : State) : Nat := calBank (match chooseBank (s.calSeq? 0) (s.calSeq? 1) with | some b => 1 - b | none => 0)
def State.nextCalSeq (s : State) : Nat :=
  match chooseBank (s.calSeq? 0) (s.calSeq? 1) with | some b => ((s.calSeq? b).getD 0 + 1) % 2 ^ 32 | none => 1

/-- A frame on a port of 0 to 65 as steps 1 to 3 of R318 see it. -/
def State.rxOf (s : State) (port : Nat) (data : List Byte) : Rx :=
  let vc := s.vidClass port data
  ⟨port, none, data, vc.1, vc.2, []⟩

/-- At least as many buffers are free as a frame of `len` bytes with FCS occupies. -/
def State.buffersFor (s : State) (len : Nat) : Prop :=
  (len + 255) / 256 ≤ ((List.range 16384).filter fun h => !(s.buf h).alloc).length

/-- A frame with a good FCS passes steps 1 to 3 of R318: the port is in service, the length is allowed, it is no PAUSE frame, its
pool is not low and has buffers, and the port is a member of its VLAN. -/
def State.received (s : State) (port : Nat) (data : List Byte) : Prop :=
  let pool := if port < 64 then 0 else 1
  s.bit (atInst Reg.PORT_CTRL port) 0 = true ∧ s.linkUp port = true ∧ s.portRetired port = false ∧ 60 ≤ data.length ∧
  data.length ≤ 9212 ∧ isPause data = false ∧ s.bit (Reg.BPM_POOL_STAT + 4 * pool) 18 = false ∧
  (s.allocFrame pool port data (data.length + 4)).1.isSome = true ∧ s.buffersFor (data.length + 4) ∧ (s.rxOf port data).vid ≠ 4095 ∧
  s.member (s.rxOf port data).vid port = true

/-- The bucket of a port and class lets every frame pass (R368). -/
def State.bucketOpen (s : State) (port cls : Nat) : Prop :=
  s.fld (copyOf (8 * port + cls) Reg.POL_CFG) 0 2 = 0 ∨ s.fld (copyOf (8 * port + cls) Reg.POL_CFG) 0 2 = 3

/-- A received frame to a group address that no unit of the node takes is flooded to the one other member port of its VLAN, while
source learning is off (R318, R323). -/
def State.forwards (s : State) (port : Nat) (data : List Byte) (d : Nat) : Prop :=
  let x := s.rxOf port data
  s.received port data ∧ (s.almType = 0 ∨ x.etype ≠ s.almType) ∧ (s.mgtType = 0 ∨ x.etype ≠ s.mgtType ∨ x.da ≠ s.rmac) ∧
  s.bucketOpen port x.cls ∧ s.bit Reg.FWD_CTRL 0 = false ∧ s.roleActs = true ∧ x.da ≠ s.rmac ∧ x.da / 2 ^ 40 % 2 = 1 ∧
  (x.da / 2 ^ 32 ≠ 0x3333 ∨ s.bit Reg.FWD_CTRL 2 = false) ∧ s.floodPorts x = [d] ∧ d < 66

/-- The bytes with which a forwarded frame leaves port `d` (R323). -/
def State.goesOut (s : State) (port : Nat) (data : List Byte) (d : Nat) : List Byte :=
  let x := s.rxOf port data
  padFrame (frameBytes x.da x.sa (if s.untags d x.vid then none else some (x.vid + 8192 * x.cls)) x.rest)

/-- Step 4 of R318 diverts a received frame to a unit: its port is admitted and its bucket lets it pass (R369). -/
def State.diverts (s : State) (port : Nat) (data : List Byte) (gate : Nat) : Prop :=
  s.received port data ∧ s.bit (gate + 4 * (port / 32)) (port % 32) = true ∧ s.bucketOpen port (s.rxOf port data).cls

/-- A management frame to FWD_RMAC, and what the agent reads of one received. -/
def State.mgtData (s : State) (sa : BitVec 48) (tag : Option (BitVec 16)) (body : List Byte) (mac : BitVec 256) : List Byte :=
  padFrame (frameBytes s.rmac sa.toNat (tag.map (·.toNat)) (toBE 2 s.mgtType ++ body ++ toBE 32 mac.toNat))
def State.mgtIn (s : State) (port : Nat) (data : List Byte) : MgtFrame :=
  let x := s.rxOf port data
  ⟨port, x.sa, x.vid, x.rest.drop 2⟩

/-- The management agent takes a frame: it acts, the frame is for this node and well formed, its tag is right, and it is no
replay (R348). -/
def State.mgtTakes (s : State) (port : Nat) (data : List Byte) : Bool :=
  let f := s.mgtIn port data
  let x := s.rxOf port data
  x.etype == s.mgtType && s.mgtType != 0 && x.da == s.rmac && (s.almType == 0 || x.etype != s.almType)
    && s.roleActs && s.bit Reg.MGT_CTRL 0 && f.target == s.fld Reg.NTU_NODE 0 14 && !f.malformed && s.mgtAuth f
    && (f.op == 1 || decide ((s.session f.sess).last ≤ f.nonce))

/-- The command of an operation of PRF_LCMD_OP, by its code (R161). -/
def loopCommand (op : Nat) (m : Fin 8) (arg : BitVec 16) (cycle : Nat) : Instr :=
  match op with
  | 0 => .nop m arg cycle
  | 1 => .setState m arg cycle
  | 2 => .freeze m arg cycle
  | 3 => .release m arg cycle
  | 4 => .setProfA m arg cycle
  | 5 => .setProfB m arg cycle
  | 6 => .setParkA m arg cycle
  | 7 => .setParkB m arg cycle
  | 8 => .setTarget m arg cycle
  | _ => .clearFlags m arg cycle

/-- A carousel operation is accepted (R249): CRS_CMD and COMMIT are taken, and none of the page's tests fails but for its own. -/
def CrsAccepted (op : Nat) (m : Fin 8) (cycle : Nat) (s : State) : Prop :=
  (s.atCycle cycle).accepts m Reg.CRS_CMD (BitVec.ofNat 32 op) = true ∧
  (s.atCycle cycle).accepts m (cReg pCRS OFF_COMMIT) 1 = true ∧ s.pendingOn pCRS = false ∧ s.orphaned = false ∧
  s.roleActs = true ∧ s.safe = false ∧ s.crs.pend = none ∧ s.bit Reg.CRS_STAT 4 = false ∧
  s.now.toNat + 3 ≤ (s.commitTick pCRS).toNat

/-- A carousel operation of commit tick `k` waits for boundary `b`. -/
def CrsWaits (op : Nat) (k b : Tick) (s t : State) : Prop :=
  t.crs.pend = some (op, b) ∧ t.commitOf? pCRS = some ⟨pCRS, k, b, false, false⟩ ∧ t.fld Reg.CRS_CMD 0 2 = op ∧
  t.fld Reg.CRS_RES 0 4 = 0 ∧ t.reg64 Reg.CRS_CMT_AT = b.toNat ∧ SameMem s t ∧
  SameRegs s t [Reg.CRS_CMD, Reg.CRS_RES, Reg.CRS_CMT_AT, Reg.CRS_CMT_AT + 4]

/-- The registers that an event of a page can change: the page's INT_STAT, the FLT_PEND words of the page and of FLT, and the
INT_STAT of FLT (R444, R461, R465). -/
def raiseKeys (page : Nat) : List Nat :=
  [cReg page OFF_INT_STAT, pageWord Reg.FLT_PEND page, cReg 6 OFF_INT_STAT, pageWord Reg.FLT_PEND 6]

/-- The invariant of the machine: memory in canonical form, and a queue of commands that can be given. -/
def State.Inv (s : State) : Prop := Memory.wf s.mem = true ∧ s.queueOk = true

end Sys2Proof.Machine
end

