-- ==== Sys2Proof/Certificates/Slice0/Obligations.lean ====
section
/-! DEFINITION. The statements for the provers: what every command does where it completes, and what holds of the machine whatever
is commanded. -/

open Sys2Proof Sys2Proof.Machine

/-- A step carries out the command at the front of the queue with the queue's rest; on an empty queue the block idles.
Model: That an empty queue idles is the model's choice (assumption 1). -/
def Obligations.StepRunsFront : Prop :=
  (∀ (c : Instr) (q : List Instr) (s : State), step (s.withPending (c :: q)) = exec c (s.withPending q)) ∧
  (∀ s : State, step (s.withPending []) = .next (s.withPending []))

/-- R73, R352, R398, R490, R534: what the registers and the tick read right after reset, and that nothing waits.
Model: That reset is one plain state is the model's choice (assumption 2). -/
def Obligations.ResetValues : Prop :=
  State.reset.pending = [] ∧ State.reset.now = 0 ∧ State.reset.running = false ∧ State.reset.fld Reg.TCK_PERIOD 0 12 = 1000 ∧
  State.reset.bit Reg.BMX_QUIET_DECODE 0 = true ∧ State.reset.reg Reg.CLK_STAT = 7 ∧ State.reset.fld Reg.FWD_CTRL 0 4 = 7 ∧
  State.reset.ntuState = 0 ∧ State.reset.commits = [] ∧ (∀ a, 0x10000000 ≤ a → a < 0x14000000 → State.reset.byte a = 0)

/-- The invariant holds of the machine right after reset.
Model: What an unlisted byte reads as is the model's choice (assumption 25). -/
def Obligations.ResetInv : Prop := State.reset.Inv

/-- Every step keeps the invariant: memory in canonical form, and a queue of commands that can be given.
Model: What an unlisted byte reads as, and what counts as well formed, are the model's choices (assumptions 4, 25). -/
def Obligations.StepKeepsInv : Prop := ∀ s t : State, s.Inv → step s = .next t → t.Inv

/-- No well-formed command stops the block, and a step takes exactly the command at the front.
Model: What counts as well formed, and that events not due change nothing, are the model's choices (assumptions 4, 5). -/
def Obligations.EveryStepAnswersNext : Prop :=
  ∀ s : State, s.queueOk = true → ∃ t, step s = .next t ∧ t.pending = s.pending.drop 1 ∧ t.queueOk = true

/-- R9, R51: no command but a boundary, a restart and those that can let a held access through or make one changes TCK_NOW.
Model: That time passes in commands only is the model's choice (assumptions 1, 7). -/
def Obligations.OnlyBoundariesMoveTheTick : Prop :=
  ∀ (c : Instr) (s t : State), c.mayMoveTick = false → exec c s = .next t → t.now = s.now

/-- R158, R190, R243, R470: a command that stores nothing leaves every byte of memory.
Model: Which commands hold an access is read from R474 (assumption 12). -/
def Obligations.OnlyStoringCommandsWriteMemory : Prop :=
  ∀ (c : Instr) (s t : State), c.mayStore = false → exec c s = .next t → SameMem s t

/-- R52: with a period of 500 to 4,000 cycles and steering on, the length chosen for a tick lies within the limits of the table,
its predicted boundary is no farther from the ideal time than that of any other length within them, and of two lengths equally
close it is the longer.
Model: Ideal times in whole ns are the model's choice (assumption 40). -/
def Obligations.ChosenLengthIsBest : Prop :=
  ∀ s : State, 500 ≤ s.period → s.period ≤ 4000 → 0 < s.slew → s.slew ≤ 16 →
    let w := slewLimit s.period s.slew
    500 ≤ s.chooseLength ∧ s.chooseLength ≤ s.period + w ∧ s.period ≤ s.chooseLength + w ∧
    ∀ l, 500 ≤ l → l ≤ s.period + w → s.period ≤ l + w → s.lengthCost s.chooseLength ≤ s.lengthCost l ∧
      (s.lengthCost l = s.lengthCost s.chooseLength → l ≤ s.chooseLength)

/-- R31: on each link the standard wiring takes the N output lines of a stage one to one onto the N input lines of the next. -/
def Obligations.StandardWiringIsOneToOne : Prop :=
  ∀ n e k : Nat, 6 ≤ n → n ≤ 10 → (e = 0 ∨ e = 2) → k < 2 * n - 2 + e →
    (∀ x, x < 2 ^ n → stdLink n e k x < 2 ^ n) ∧
    (∀ x y, x < 2 ^ n → y < 2 ^ n → stdLink n e k x = stdLink n e k y → x = y)

/-- R422: H is linear over XOR in address and word together, so that one write changes the state digest by the XOR of the old
word's share and the new word's. -/
def Obligations.DigestShareIsLinear : Prop :=
  ∀ x y v w : Nat, x < 2 ^ 32 → y < 2 ^ 32 → v < 2 ^ 32 → w < 2 ^ 32 →
    mirHash (x ^^^ y) (v ^^^ w) = mirHash x v ^^^ mirHash y w

/-- R535: LOCK_LOST, RELOCKED and REF_LOST of the CLK page are set when LOCK falls, when it rises after a loss and when REF_OK
falls; each is cleared by writing 1, and each counts towards the page's interrupt while the same bit of INT_EN is 1. -/
def Obligations.ClkInterruptBits : Prop :=
  (∀ (cycle : Nat) (s : State), s.bit Reg.CLK_STAT 0 = true →
    Completes (.pllLockLoss cycle) s fun t => t.bit Reg.CLK_STAT 0 = false ∧ t.bit (cReg 3 OFF_INT_STAT) 0 = true ∧
      t.bit (cReg 3 OFF_INT_STAT) 1 = s.bit (cReg 3 OFF_INT_STAT) 1 ∧ t.bit (cReg 3 OFF_INT_STAT) 2 = s.bit (cReg 3 OFF_INT_STAT) 2) ∧
  (∀ (us cycle : Nat) (s : State), s.bit Reg.CLK_STAT 0 = false → s.bus.held = [] → s.net.waits = [] →
    Completes (.pllRelock us cycle) s fun t => t.bit Reg.CLK_STAT 0 = true ∧ t.bit (cReg 3 OFF_INT_STAT) 1 = true ∧
      t.bit (cReg 3 OFF_INT_STAT) 0 = s.bit (cReg 3 OFF_INT_STAT) 0 ∧ t.bit (cReg 3 OFF_INT_STAT) 2 = s.bit (cReg 3 OFF_INT_STAT) 2) ∧
  (∀ s : State, s.bit Reg.CLK_STAT 1 = true →
    Completes .refclkLoss s fun t => t.bit Reg.CLK_STAT 1 = false ∧ t.bit (cReg 3 OFF_INT_STAT) 2 = true ∧
      t.bit (cReg 3 OFF_INT_STAT) 0 = s.bit (cReg 3 OFF_INT_STAT) 0 ∧ t.bit (cReg 3 OFF_INT_STAT) 1 = s.bit (cReg 3 OFF_INT_STAT) 1) ∧
  (∀ (m : Fin 8) (v : Word) (s : State), s.accepts m (cReg 3 OFF_INT_STAT) v = true →
    Completes (.w1cClear m (BitVec.ofNat 32 (cReg 3 OFF_INT_STAT)) v) s fun t =>
      ∀ i, i < 3 → t.bit (cReg 3 OFF_INT_STAT) i = (s.bit (cReg 3 OFF_INT_STAT) i && !bitOf v i)) ∧
  (∀ s : State, s.intSummary 3 = (List.range 32).any fun i => s.bit (cReg 3 OFF_INT_STAT) i && s.bit (cReg 3 OFF_INT_EN) i)

/-- R551: RESET_N has no effect during a hold-up or shutdown sequence, and the power-on reset that follows starts the device
from cold; during a management reset or a soft reset it starts a cold reset at once, which ends the other reset. -/
def Obligations.ResetNDuringSequencesAndResets : Prop :=
  (∀ (ns : Nat) (straps : Fin 16) (pll clear : Bool) (s : State), s.pwr.seqCause ≠ none →
    Completes (.resetN ns straps pll clear) s fun t => t = s) ∧
  (∀ (straps : Fin 16) (pll clear cool : Bool) (s : State), s.off = true → s.pwr.seqCause = some 1 →
    (s.aValid = true ∨ s.bValid = true) → (s.pwr.trip = true → cool = true) →
    Completes (.powerOnRestart straps pll clear cool) s fun t => StartedUp t pll clear) ∧
  (∀ (straps : Fin 16) (pll clear : Bool) (s : State), s.off = true → s.pwr.seqCause = some 2 →
    (s.aValid = true ∨ s.bValid = true) →
    Completes (.thermalRestart straps pll clear) s fun t => StartedUp t pll clear) ∧
  (∀ (ns : Nat) (straps : Fin 16) (pll clear : Bool) (s : State), 1000 ≤ ns → s.pwr.seqCause = none → s.off = false →
    (s.mstate = 1 ∨ s.rst.srst ≠ []) →
    Completes (.resetN ns straps pll clear) s fun t => StartedUp t pll clear ∧ t.mstate = 0 ∧ t.rst.srst = [])

/-- R481: an access by M3, M4, M5 or M6 to a protected page is a PRIV violation, a write and a read; the BMX page is always
protected, every other page by its bit of BMX_PROT, and the reset value protects nine pages. -/
def Obligations.ProtectedPages : Prop :=
  (∀ (m : Fin 8) (addr v : Word) (cycle : Nat) (s : State), 3 ≤ m.val → m.val ≤ 6 → addr.toNat % 4 = 0 →
    s.target addr.toNat = 0 → s.accessHeld m addr.toNat = false → s.protected (pageOf addr.toNat) = true →
    Completes (.registerWrite m addr v 15 cycle) s fun t => t.bus.last = ⟨m, true, addr.toNat, .targetError, 0⟩ ∧
      t.reg (cReg (pageOf addr.toNat) OFF_ERR_ADDR) = addr ∧ t.fld (cReg (pageOf addr.toNat) OFF_ERR_INFO) 0 8 = kPriv ∧
      t.fld (cReg (pageOf addr.toNat) OFF_ERR_INFO) 16 4 = m.val ∧ SameMem s t ∧
      SameRegs s t [cReg (pageOf addr.toNat) OFF_ERR_ADDR, cReg (pageOf addr.toNat) OFF_ERR_INFO]) ∧
  (∀ (m : Fin 8) (addr : Word) (cycle : Nat) (s : State), 3 ≤ m.val → m.val ≤ 6 → addr.toNat % 4 = 0 →
    s.target addr.toNat = 0 → s.accessHeld m addr.toNat = false → s.protected (pageOf addr.toNat) = true →
    Completes (.lowWordRead m addr cycle) s fun t => t.bus.last = ⟨m, false, addr.toNat, .targetError, 0⟩ ∧
      t.fld (cReg (pageOf addr.toNat) OFF_ERR_INFO) 0 8 = kPriv ∧ SameMem s t ∧
      SameRegs s t [cReg (pageOf addr.toNat) OFF_ERR_ADDR, cReg (pageOf addr.toNat) OFF_ERR_INFO]) ∧
  (∀ (page : Nat) (s : State), page < 192 →
    s.protected page = (page == 8 || s.bit (Reg.BMX_PROT + 4 * (page / 32)) (page % 32))) ∧
  (∀ page : Nat, page < 192 → State.reset.protected page = [0, 1, 2, 3, 6, 7, 8, 9, 10].contains page)

/-- R483: an access to T7 is logged and sets INT_STAT bit 0 of the BMX page; while QUIET is 0 it gets the DECODE response, while
QUIET is 1 it is answered without error and DEC_INFO.QUIET records it; QUIET is 1 after a cold, warm or management reset; every
other violation is answered as R475 says, whatever QUIET. -/
def Obligations.DecodeErrorsAndQuiet : Prop :=
  (∀ (m : Fin 8) (write : Bool) (addr : Word) (s : State), masterReaches m addr.toNat 1 = true → s.target addr.toNat = 7 →
    s.silent = false →
    Completes (.decodeError m write addr) s fun t => t.reg Reg.BMX_DEC_ADDR = addr ∧ t.bit (cReg 8 OFF_INT_STAT) 0 = true ∧
      t.fld Reg.BMX_DEC_INFO 0 3 = m.val ∧ t.bit Reg.BMX_DEC_INFO 8 = write ∧
      (s.bit Reg.BMX_QUIET_DECODE 0 = false → t.bus.last = ⟨m, write, addr.toNat, refusalStatus m kDecode, 0⟩ ∧
        t.bit Reg.BMX_DEC_INFO 9 = false) ∧
      (s.bit Reg.BMX_QUIET_DECODE 0 = true → t.bus.last = ⟨m, write, addr.toNat, .quiet, 0⟩ ∧
        t.bit Reg.BMX_DEC_INFO 9 = true) ∧ SameMem s t) ∧
  (∀ (m : Fin 8) (straps : Fin 16) (s : State), m.val ≤ 2 → s.accepts m Reg.GLB_RESET 0x5A5A0001 = true →
    Completes (.coldReset m 0x5A5A straps true true) s fun t => t.bit Reg.BMX_QUIET_DECODE 0 = true) ∧
  (∀ (m : Fin 8) (s : State), m.val ≤ 2 → s.accepts m Reg.GLB_RESET 0x5A5A0002 = true →
    Completes (.warmReset m 0x5A5A true) s fun t => t.bit Reg.BMX_QUIET_DECODE 0 = true) ∧
  (∀ (m : Fin 8) (cycle : Nat) (s : State), m.val ≤ 2 → (s.atCycle cycle).accepts m Reg.GLB_RESET 0x5A5A0003 = true →
    Completes (.managementReset m 0x5A5A cycle) s fun t => t.bit Reg.BMX_QUIET_DECODE 0 = true) ∧
  (∀ (m : Fin 8) (addr v : Word) (cycle k : Nat) (s : State), addr.toNat % 4 = 0 → s.target addr.toNat = 0 →
    s.accessHeld m addr.toNat = false → s.writeRefusal? m addr.toNat v = some k →
    Completes (.registerWrite m addr v 15 cycle) s fun t => t.bus.last = ⟨m, true, addr.toNat, refusalStatus m k, 0⟩ ∧
      t.fld (cReg (pageOf addr.toNat) OFF_ERR_INFO) 0 8 = k ∧ SameMem s t)

/-- R78, R80, R86: the codewords of a frame of data blocks: none holds more than 20 blocks and all but the last hold 20; the header is
the first block of the first; nothing but a waiting ALIGN stands between the data blocks of a longer frame, where it begins the second
codeword, and IDLE blocks follow those of a frame of 20 or fewer. The symbols of a codeword go in turn to the lanes in service, and its
parity has 30 symbols.
Model: The codewords of a frame carry no IDLE between its data blocks (assumption 126). -/
def Obligations.CodewordsOfAFrame : Prop :=
  (∀ (al : Option Block) (d : List Block), d ≠ [] →
    let cw := frameCodewords al d
    (∀ c ∈ cw, c.length ≤ 20) ∧ (∀ c ∈ cw.dropLast, c.length = 20) ∧ (cw.headD []).head? = d.head? ∧
    (d.length ≤ 20 → cw = [d ++ List.replicate (20 - d.length) idleBlock]) ∧
    (20 < d.length → cw.flatten = d.take 20 ++ (if carriesAlign d.length then al.toList else []) ++ d.drop 20)) ∧
  (∀ (k : Nat) (l : List Nat), 0 < k →
    (laneSymbols k l).length = k ∧
    ∀ i, i < l.length → ((laneSymbols k l).getD (i % k) []).getD (i / k) 0 = l.getD i 0) ∧
  (∀ m : List Nat, (rsParity m).length = 30)

/-- R507: after an evaluation, a retirement or a restoration of sensors the sensor floor is T0 with 12 to 16 valid sensors, T1
with 1 to 11 and T3 with none; with none the three threshold states keep their values; each change of the floor sets INT_STAT
bit 5. -/
def Obligations.SensorFloor : Prop :=
  (∀ (l : List (BitVec 16)) (s : State), l.length = 16 → s.off = false → s.flt.inReset = false →
    Completes (.thermalEvaluation l) s fun t => t.fld Reg.THM_LEVEL 12 2 =
        (if 12 ≤ t.validSensors.length then 0 else if 1 ≤ t.validSensors.length then 1 else 3) ∧
      (t.validSensors.length = 0 → ∀ i, i < 3 → t.bit Reg.THM_STAT i = s.bit Reg.THM_STAT i) ∧
      (t.fld Reg.THM_LEVEL 12 2 ≠ s.fld Reg.THM_LEVEL 12 2 → t.bit (cReg pTHM OFF_INT_STAT) 5 = true)) ∧
  (∀ (i : Fin 16) (s : State), s.isDue pTHM i = true →
    Completes (.sensorRetire i) s fun t => t.fld Reg.THM_LEVEL 12 2 =
        (if 12 ≤ t.validSensors.length then 0 else if 1 ≤ t.validSensors.length then 1 else 3) ∧
      (∀ i, i < 3 → t.bit Reg.THM_STAT i = s.bit Reg.THM_STAT i) ∧
      (t.fld Reg.THM_LEVEL 12 2 ≠ s.fld Reg.THM_LEVEL 12 2 → t.bit (cReg pTHM OFF_INT_STAT) 5 = true)) ∧
  (∀ (m : Fin 8) (mask : BitVec 16) (s : State), s.accepts m Reg.THM_SENS_RESTORE (mask.setWidth 32) = true →
    Completes (.sensorRestore m mask) s fun t => t.fld Reg.THM_LEVEL 12 2 =
        (if 12 ≤ t.validSensors.length then 0 else if 1 ≤ t.validSensors.length then 1 else 3) ∧
      (∀ i, i < 3 → t.bit Reg.THM_STAT i = s.bit Reg.THM_STAT i) ∧
      (t.fld Reg.THM_LEVEL 12 2 ≠ s.fld Reg.THM_LEVEL 12 2 → t.bit (cReg pTHM OFF_INT_STAT) 5 = true))

/-- R116, R118: an update leaves the integrator within its limits and the output within its own, raises SAT only at a limit of the
integrator and OUT_SAT only at a limit of the output, and remembers an error of 16 bits. -/
def Obligations.LoopUpdateStaysWithinLimits : Prop :=
  ∀ (p : Prof) (c : Sub) (r y : Int), p.iMin ≤ p.iMax → p.outMin ≤ p.outMax →
    let u := pidUpdate p c r y
    ext p.iMin ≤ u.i ∧ u.i ≤ ext p.iMax ∧ p.outMin ≤ u.u ∧ u.u ≤ p.outMax ∧ -32768 ≤ u.ePrev ∧ u.ePrev ≤ 32767 ∧
    (u.sat = true → u.i = ext p.iMin ∨ u.i = ext p.iMax) ∧ (u.outSat = true → u.u = p.outMin ∨ u.u = p.outMax) ∧
    u.tick = c.tick ∧ u.spRamp = c.spRamp ∧ u.rinit = c.rinit

/-- R51, R71: a start is accepted at a stopped Ringmaster and puts the first boundary on the first grid point at least 2 × P after
the request; a stop is accepted for the boundary after the next when every condition of R71 holds at the write.
Model: Ideal times in whole ns are the model's choice (assumption 40). -/
def Obligations.RingmasterStartAndStopComplete : Prop :=
  (∀ (m : Fin 8) (cycle : Nat) (alt : Bool) (s : State),
    (s.atCycle cycle).accepts m Reg.TCK_CTRL (BitVec.ofNat 32 (1 + 4 * b2n alt)) = true →
    s.running = false → s.tck.startAt = none →
    (s.tck.everStarted = true ∧ 0 < s.period ∨ s.tck.everStarted = false ∧ s.tckRangeOk = true) →
    Completes (.ringmasterStart m cycle alt) s fun t => (match t.tck.startAt with
        | some (j, g) => g = j * t.period + t.phase % t.period ∧ (s.atCycle cycle).ntNs + 2 * t.period ≤ g ∧
          g < (s.atCycle cycle).ntNs + 3 * t.period
        | none => False) ∧ t.tck.everStarted = true ∧ t.reg Reg.TCK_CMT_RES = 0 ∧ SameMem s t ∧
      SameRegs s t [Reg.TCK_CTRL, Reg.TCK_CMT_RES]) ∧
  (∀ (m : Fin 8) (alt : Bool) (s : State),
    s.accepts m Reg.TCK_CTRL (BitVec.ofNat 32 (2 + 4 * b2n alt)) = true → s.running = true → s.roleActs = true →
    s.carousel = false → s.pendingOn pTCK = false → s.loopsQuiet = true → s.applyAtOrAfter (s.now + 3) = false →
    Completes (.ringmasterStop m alt) s fun t => t.tck.stopAt = some (s.now + 1) ∧ t.reg Reg.TCK_CMT_RES = 0 ∧ SameMem s t ∧
      SameRegs s t [Reg.TCK_CTRL, Reg.TCK_CMT_RES])

/-- R173, R178, R180: a check and a repack begin with CHECKING or REPACKING and end with their results; an engine asked to retire
retires at once while the Ringmaster is stopped and waits for the close of its window while it runs; an engine due to retire
retires with its cause.
Model: That the retirement is a row of its own is the model's choice (assumption 8). -/
def Obligations.PlacementCommandsComplete : Prop :=
  (∀ (m : Fin 8) (auto : Bool) (s : State), s.accepts m Reg.LPL_CTRL (BitVec.ofNat 32 (1 + 2 * b2n auto)) = true →
    Completes (.placementCheck m auto) s fun t => t.bit Reg.LPL_STAT 9 = true ∧ SameMem s t ∧
      SameRegs s t [Reg.LPL_CTRL, Reg.LPL_STAT]) ∧
  (∀ s : State, s.bit Reg.LPL_STAT 9 = true →
    Completes .placementCheckDone s fun t => t.bit Reg.LPL_STAT 9 = false ∧ t.fld Reg.LPL_CHK_RES 0 4 = s.checkSet.code % 16 ∧
      t.bit Reg.LPL_STAT 10 = (s.checkSet.code == 0) ∧ t.bit (cReg pLPL OFF_INT_STAT) 0 = true ∧ SameMem s t) ∧
  (∀ (m : Fin 8) (auto : Bool) (s : State), s.accepts m Reg.LPL_CTRL (BitVec.ofNat 32 (4 + 2 * b2n auto)) = true →
    s.placeSource ≠ 0 →
    Completes (.repack m auto) s fun t => t.bit Reg.LPL_STAT 11 = true ∧ SameMem s t ∧
      SameRegs s t [Reg.LPL_CTRL, Reg.LPL_STAT]) ∧
  (∀ s : State, s.bit Reg.LPL_STAT 11 = true →
    Completes .repackDone s fun t => t.bit Reg.LPL_STAT 11 = false ∧ t.placeSource = 3 ∧ t.fld Reg.LPL_STAT 0 5 = 0 ∧
      t.bit (cReg pLPL OFF_INT_STAT) 4 = true) ∧
  (∀ (m : Fin 8) (e : Fin 32) (s : State), s.accepts m (atInst Reg.LEN_CTRL e) 1 = true → bitAt s.retMask e = false →
    Completes (.lenRetire m e) s fun t =>
      (s.running = true → (t.lpl.retReq.map (·.1)).contains e.val = true) ∧ (s.running = false → bitAt t.retMask e = true)) ∧
  (∀ (e : Fin 32) (c : Nat) (s : State), s.engineDue? e = some c →
    Completes (.engineRetire e) s fun t => bitAt t.retMask e = true ∧ t.fld (atInst Reg.LEN_STAT e) 0 3 = (1 + 2 * c) % 8 ∧
      t.bit (cReg (pLEN e) OFF_INT_STAT) 5 = true ∧ SameMem s t)

/-- R148, R152: the copy-back of the profile banks ends with the two views equal, every other byte as it was, and INT_STAT bit 2;
a loop whose latest fault completed its count retires frozen.
Model: That the retirement is a row of its own is the model's choice (assumption 8). -/
def Obligations.CopyBackAndLoopRetireComplete : Prop :=
  (∀ s : State, Memory.wf s.mem = true → s.bit Reg.PRF_STAT 1 = true →
    Completes .copyBackDone s fun t => t.bit Reg.PRF_STAT 1 = false ∧ t.bit (cReg pPRF OFF_INT_STAT) 2 = true ∧
      (∀ i, i < profSize → t.byte (profShadow + i) = s.byte (profActive + i)) ∧
      SameMemOut s t profShadow profSize) ∧
  (∀ (l : Fin 12288) (s : State), s.isDue (pLEN (s.loopEngine l)) (loopChan l) = true → (s.loop l).eff ≠ .frozen →
    Completes (.loopRetire l) s fun t => (t.loop l).eff = .frozen ∧ t.isRetired (pLEN (s.loopEngine l)) (loopChan l) = true ∧
      t.isDue (pLEN (s.loopEngine l)) (loopChan l) = false ∧ SameMem s t)

/-- R246, R247, R270: a check of the shadow bank begins with CHECKING and ends with its result; a slot word is written and the
index advances; a slot change shows its slot, raises INT_STAT bit 0, and pulses EVT_OUT.
Model: That the slot change is a row of its own is the model's choice (assumption 8). -/
def Obligations.CarouselCommandsComplete : Prop :=
  (∀ (m : Fin 8) (s : State), s.accepts m Reg.CRS_CTRL 1 = true →
    Completes (.carouselCheck m) s fun t => t.bit Reg.CRS_STAT 4 = true ∧ SameMem s t ∧ SameRegs s t [Reg.CRS_STAT]) ∧
  (∀ s : State, s.bit Reg.CRS_STAT 4 = true →
    Completes .carouselCheckDone s fun t => t.bit Reg.CRS_STAT 4 = false ∧ t.bit Reg.CRS_STAT 3 = (s.crsCheck.1 == 0) ∧
      t.reg Reg.CRS_RES = BitVec.ofNat 32 (s.crsCheck.1 + 256 * s.crsCheck.2.2 + 65536 * s.crsCheck.2.1) ∧
      t.bit (cReg pCRS OFF_INT_STAT) 4 = true ∧ SameMem s t ∧
      SameRegs s t (Reg.CRS_STAT :: Reg.CRS_RES :: raiseKeys pCRS)) ∧
  (∀ (m : Fin 8) (v : Word) (s : State), s.accepts m Reg.CRS_SHD_DATA v = true → s.crsShadowBusy = false →
    Completes (.crsShdDataWrite m v) s fun t =>
      Sparse.get 0 (s.fld Reg.CRS_SHD_IDX 0 10) t.crs.shd.words = v.toNat ∧
      (∀ i, i ≠ s.fld Reg.CRS_SHD_IDX 0 10 → Sparse.get 0 i t.crs.shd.words = Sparse.get 0 i s.crs.shd.words) ∧
      t.fld Reg.CRS_SHD_IDX 0 10 = (s.fld Reg.CRS_SHD_IDX 0 10 + 1) % 1024 ∧ t.bit Reg.CRS_STAT 3 = false ∧ SameMem s t ∧
      SameRegs s t [Reg.CRS_SHD_IDX, Reg.CRS_STAT]) ∧
  (∀ (m : Fin 8) (s : State), s.acceptsRead m Reg.CRS_ACT_DATA = true →
    Completes (.crsActDataRead m) s fun t => t.bus.last.status = .ok ∧
      t.bus.last.data = BitVec.ofNat 32 (Sparse.get 0 (s.fld Reg.CRS_ACT_IDX 0 10) s.crs.act.words) ∧
      t.fld Reg.CRS_ACT_IDX 0 10 = (s.fld Reg.CRS_ACT_IDX 0 10 + 1) % 1024 ∧ SameMem s t) ∧
  (∀ s : State, s.slotChangeDue = true →
    Completes .carouselSlotChange s fun t =>
      t.fld Reg.CRS_STAT 16 10 = (s.crs.act.slotInForce s.crs.base s.now).1 % 1024 ∧
      t.bit (cReg pCRS OFF_INT_STAT) 0 = true ∧ bitAt t.evt.pulse 3 = true ∧ SameMem s t ∧
      SameRegs s t ([Reg.CRS_STAT, Reg.CRS_CYCLE_AT, Reg.CRS_CYCLE_AT + 4] ++ raiseKeys pCRS))

/-- R54, R79, R83, R85, R101, R104: what reaches or leaves a Byevo port.
Model: Frames in SYNC count as received by inference (assumption 44). -/
def Obligations.ByevoLinkEventsComplete : Prop :=
  (∀ (port : Fin 16) (ofs : Nat) (s : State), 6800 ≤ ofs → ofs ≤ 9520 → (s.running = true ∨ s.tck.lastMarker = some (s.now + 1)) →
    (s.portState port = stSync ∨ s.portState port = stRun) → s.squelched port = false →
    Completes (.markerTx port ofs) s fun t =>
      SentControl s t port (markerBlock (s.now + 1).toNat ofs (s.periodAt (s.now + 1)))
        (.marker port (s.now + 1).toNat ofs (s.periodAt (s.now + 1))) ∧
      (t.port port).alignWait = false ∧ SameMem s t ∧ SameRegs s t []) ∧
  (∀ (port : Fin 16) (content : List Byte) (s : State), (s.portState port = stSync ∨ s.portState port = stRun) →
    s.shortDeg port = false → upCrcOk content = true → s.upMatches port (readUp content) = true → s.tck.judged ≠ some s.now →
    Completes (.upstreamFrame port true content) s fun t => (t.port port).gotTick = some s.now ∧
      (t.port port).good = (s.port port).good + 1 ∧ SameMem s t) ∧
  (∀ (port : Fin 16) (lane : Fin 2) (s : State), s.isDue (pBYV port) lane = true → bitAt (s.lanesUp port) lane = true →
    Completes (.laneRetire port lane) s fun t => t.bit (atInst Reg.BYV_STAT port) (8 + lane) = true ∧
      t.bit (atInst Reg.BYV_STAT port) (10 + lane) = false ∧ SameMem s t) ∧
  (∀ (port : Fin 16) (block : List Byte) (s : State), Completes (.reservedControlBlock (port, block)) s fun t =>
    (t.reg (atInst Reg.BYV_FEC_UNCORR port)).toNat =
      (if leAt block 0 1 ∈ controlTypes then (s.reg (atInst Reg.BYV_FEC_UNCORR port)).toNat
       else satAdd (2 ^ 32 - 1) (s.reg (atInst Reg.BYV_FEC_UNCORR port)).toNat 1) ∧ SameMem s t ∧
    SameRegs s t [atInst Reg.BYV_FEC_UNCORR port]) ∧
  (∀ (port : Fin 16) (id : BitVec 64) (efe proto layout : Byte) (te hold : BitVec 16) (s : State),
    s.portState port = stDiscover → discoverResult port efe.toNat proto.toNat layout.toNat hold.toNat = 0 →
    Completes (.discover port id efe proto layout te hold) s fun t => t.portState port = stDelay ∧
      t.reg64 (atInst Reg.BYV_EFE_ID port) = id.toNat ∧ (t.port port).echoing = true ∧ SameMem s t) ∧
  (∀ (port : Fin 16) (id : BitVec 64) (efe proto layout : Byte) (te hold : BitVec 16) (s : State),
    s.portState port = stDiscover → discoverResult port efe.toNat proto.toNat layout.toNat hold.toNat ≠ 0 →
    Completes (.discover port id efe proto layout te hold) s fun t => t.portState port = stWait ∧
      t.bit (cReg (pBYV port) OFF_INT_STAT) 4 = true ∧ SameMem s t)

/-- R82, R85, R108, R112: what BYV_CTRL starts.
Model: The end of WAIT is the sender's (assumption 6). -/
def Obligations.ByevoControlCommandsComplete : Prop :=
  (∀ (m : Fin 8) (port : Fin 16) (s : State),
    s.accepts m (atInst Reg.BYV_CTRL port) (BitVec.ofNat 32 (s.fld (atInst Reg.BYV_CTRL port) 0 2 + 16)) = true →
    s.laneEn port ≠ 0 → s.portState port ≠ stDisabled →
    Completes (.retrain m port) s fun t => t.portState port = stPmd ∧ (t.port port).training = s.laneEn port ∧ SameMem s t) ∧
  (∀ (m : Fin 8) (port : Fin 16) (lanes : Fin 4) (s : State),
    s.accepts m (atInst Reg.BYV_CTRL port) (BitVec.ofNat 32 (s.fld (atInst Reg.BYV_CTRL port) 0 2 + 256 * lanes.val)) = true →
    s.portState port = stRun → lanes.val &&& s.lanesRet port &&& s.laneEn port ≠ 0 →
    Completes (.laneRestore m port lanes) s fun t =>
      (t.port port).training = (s.port port).training ||| (lanes.val &&& s.lanesRet port &&& s.laneEn port) ∧ SameMem s t) ∧
  (∀ (m : Fin 8) (port : Fin 16) (s : State),
    s.accepts m (atInst Reg.BYV_CTRL port) (BitVec.ofNat 32 (s.fld (atInst Reg.BYV_CTRL port) 0 2 + 4096)) = true →
    s.portState port = stRun → s.squelched port = false →
    Completes (.echo m port) s fun t => (t.port port).echoing = true ∧ (t.port port).echoes = [] ∧
      SentControl s t port (echoReqBlock (((s.port port).echoSeq + 1) % 65536))
        (.echoReq port (((s.port port).echoSeq + 1) % 65536) (s.lowLane port)) ∧ SameMem s t ∧ SameRegs s t []) ∧
  (∀ (m : Fin 8) (port : Fin 16) (en : Fin 4) (s : State),
    s.accepts m (atInst Reg.BYV_CTRL port) (BitVec.ofNat 32 en.val) = true →
    Completes (.laneEnWrite m port en) s fun t => t.fld (atInst Reg.BYV_CTRL port) 0 2 = en.val ∧
      (s.mstate = 0 → t.laneEn port = en.val) ∧ SameMem s t)

/-- R80, R82, R85, R415: the training of a Byevo port and of the mirror link (port 16).
Model: The end of a timer is the sender's (assumption 6). -/
def Obligations.LinkTrainingCommandsComplete : Prop :=
  (∀ (port : Fin 17) (busy : Bool) (s : State), (if port.val = 16 then s.mirDark || s.mirLanes == 0 else s.squelched port) = false →
    (port.val = 16 ∨ busy = false) →
    Completes (.alignTx (port, busy)) s fun t => (t.port port).alignTx = ((s.port port).alignTx + 1) % 65536 ∧
      SentAlign s t port (((s.port port).alignTx + 1) % 65536) (if port.val = 16 then s.mirLanes else (s.port port).lanesTx) ∧
      SameMem s t ∧ SameRegs s t []) ∧
  (∀ (port : Fin 17) (s : State), port.val < 16 → s.squelched port = false →
    Completes (.alignTx (port, true)) s fun t => (t.port port).alignWait = true ∧ t.outs = s.outs ∧
      (t.port port).alignTx = (s.port port).alignTx ∧ SameMem s t ∧ SameRegs s t []) ∧
  (∀ (port : Fin 17) (lane : Fin 4) (inPlace : Bool) (skew : Int) (s : State), port.val < 16 → lane.val < 2 →
    Completes (.alignRx port lane inPlace skew) s fun t => (t.port port).skew = skew ∧ SameMem s t ∧
      (if lane.val = 0 then (t.port port).align0 = (if inPlace then min 2 ((s.port port).align0 + 1) else 1)
       else (t.port port).align1 = (if inPlace then min 2 ((s.port port).align1 + 1) else 1))) ∧
  (∀ (port : Fin 17) (lane : Fin 4) (s : State), (port.val = 16 ∨ lane.val < 2) →
    Completes (.alignMissing port lane) s fun t => bitAt (t.port port).lost lane = true ∧ SameMem s t ∧ SameRegs s t []) ∧
  (∀ (port : Fin 17) (lanes : Fin 16) (s : State), port.val < 16 → s.portState port = stPmd →
    (lanes.val % 4) &&& (s.port port).training ≠ 0 →
    Completes (.pmdTrainDone port lanes) s fun t => t.portState port = stLock ∧
      (t.port port).trained = (lanes.val % 4) &&& (s.port port).training ∧ SameMem s t) ∧
  (∀ (port : Fin 17) (seq : BitVec 16) (rtt : Nat) (s : State), port.val < 16 → (s.port port).echoing = true →
    seq.toNat = (s.port port).echoSeq → (s.port port).echoes.length < 7 → s.squelched port = false →
    Completes (.echoRsp port seq rtt) s fun t => (t.port port).echoes = (s.port port).echoes ++ [rtt] ∧
      SentControl s t port (echoReqBlock ((seq.toNat + 1) % 65536)) (.echoReq port ((seq.toNat + 1) % 65536) (s.lowLane port)) ∧
      SameMem s t ∧ SameRegs s t []) ∧
  (∀ (port : Fin 17) (signal : Bool) (s : State), port.val < 16 → s.portState port = stPmd →
    Completes (.trainTimeout port signal) s fun t => t.portState port = stWait ∧
      t.reg (atInst Reg.BYV_TRAIN_RES port) =
        BitVec.ofNat 32 ((if signal then 2 else 1) + ((s.port port).failed ||| (s.port port).training) * 256) ∧
      t.bit (cReg (pBYV port) OFF_INT_STAT) 4 = true ∧ SameMem s t) ∧
  (∀ (port : Fin 17) (s : State), port.val < 16 → s.portState port = stWait →
    s.laneEn port &&& (s.port port).attempt ≠ 0 →
    Completes (.trainRetry port) s fun t => t.portState port = stPmd ∧
      (t.port port).training = s.laneEn port &&& (s.port port).attempt ∧ SameMem s t) ∧
  (∀ (lanes : Fin 16) (s : State), s.red.training &&& lanes.val ≠ 0 → s.red.trained = 0 →
    Completes (.pmdTrainDone 16 lanes) s fun t => t.red.trained = s.red.training &&& lanes.val ∧ SameMem s t) ∧
  (∀ s : State, s.mirState = 1 → Completes (.trainRetry 16) s fun t => t.mirState = (if s.mirEn &&& s.red.attempt = 0 then 8 else 2) ∧ SameMem s t)

/-- R406 to R410: a claim is armed, attempted when its conditions hold, and completes after its confirm window with the newest
epoch plus 1; TO_PAIR takes a new epoch at the next boundary; the interlock follows its input and RELEASE.
Model: When RELEASE counts and what a refusal clears are inferences (assumptions 106, 105). -/
def Obligations.ClaimCommandsComplete : Prop :=
  (∀ (m : Fin 8) (arm solo unsynced : Bool) (s : State),
    s.accepts m Reg.RED_CLAIM (BitVec.ofNat 32 (b2n arm + 2 * b2n solo + 4 * b2n unsynced)) = true →
    (arm = false ∨ s.bit Reg.RED_SEAT 2 = false) →
    Completes (.claimArm m arm solo unsynced) s fun t => t.bit Reg.RED_CLAIM 0 = arm ∧ t.bit Reg.RED_CLAIM 1 = solo ∧
      t.bit Reg.RED_CLAIM 2 = unsynced ∧ SameMem s t ∧ SameRegs s t [Reg.RED_CLAIM]) ∧
  (∀ (cycle : Nat) (s : State), (s.atCycle cycle).claimReady = true → s.bit Reg.RED_SEAT 2 = false →
    (s.bit Reg.RED_CLAIM 1 && s.epochInUse) = false →
    Completes (.claimAttempt cycle) s fun t => t.ilkOut = true ∧ t.bit Reg.RED_STAT 4 = true ∧
      t.red.claimFrom = some (s.atCycle cycle).frcNow ∧ SameMem s t) ∧
  (∀ (cycle : Nat) (f : BitVec 96) (s : State), s.red.claimFrom = some f → (s.atCycle cycle).agedNs f 1000 = true →
    Completes (.claimed cycle) s fun t => t.epoch = (s.atCycle cycle).nextEpoch ∧ t.red.claimFrom = none ∧
      t.reg Reg.RED_CLAIM_RES = 1 ∧ t.bit Reg.RED_CLAIM 0 = false ∧ SameMemButReports s t) ∧
  (∀ s : State, Completes .ilkInAssert s fun t => t.ilkIn = true ∧ (s.seatB = true → t.ilkOut = false) ∧ SameMemButReports s t) ∧
  (∀ (cycle : Nat) (s : State), s.ilkIn = true →
    Completes (.ilkInDeassert cycle) s fun t => t.ilkIn = false ∧ t.red.ilkFrom = some (s.atCycle cycle).frcNow ∧
      t.bit (cReg pRED OFF_INT_STAT) 3 = true ∧ SameMem s t ∧ SameRegs s t (Reg.RED_STAT :: raiseKeys pRED)) ∧
  (∀ (m : Fin 8) (s : State), s.accepts m Reg.RED_CTRL 2 = true → s.role = 0 → s.orphaned = false → s.red.roleAt = none →
    Completes (.toPair m) s fun t => t.red.roleAt = some (s.now + 1, 1) ∧ t.epoch = s.nextEpoch ∧
      t.reg Reg.RED_CLAIM_RES = 1 ∧ SameMem s t) ∧
  (∀ (m : Fin 8) (s : State), s.accepts m Reg.RED_CTRL 1 = true → s.roleActs = true →
    Completes (.interlockRelease m) s fun t => t.red.release = true ∧ SameMem s t ∧ SameRegs s t [])

/-- R415, R417, R428, R432, R434: HELLO frames, the Trapeze's start and abort, and the control of the mirror link's lanes.
Model: The moments of these rows are the sender's (assumption 5). -/
def Obligations.MirrorControlCommandsComplete : Prop :=
  (∀ s : State, s.mirDark = false → s.mirLanes ≠ 0 → Completes .helloTx s fun t => SentMirror s t ∧ t.red.helloTx = true ∧
    SameMem s t ∧ SameRegs s t [Reg.RED_STAT]) ∧
  (∀ (m : Fin 8) (s : State), s.accepts m Reg.RED_CTRL 4 = true → s.trapRuns = false → (s.role = 3 ∨ s.role = 4) →
    s.mirrorUp = true → (s.red.hello.map fun h => (h.role, h.serve)) = some (1, true) → s.ilkIn = true →
    Completes (.catchUp m) s fun t => t.red.asked = true ∧ t.reg Reg.RED_TRAP = 0 ∧ SentMirror s t ∧
      SameMem s t ∧ SameRegs s t [Reg.RED_TRAP]) ∧
  (∀ (m : Fin 8) (s : State), s.accepts m Reg.RED_CTRL 8 = true → s.trapRuns = true →
    Completes (.abortCatch m) s fun t => t.trapPhase = 0 ∧ t.red.asked = false ∧ t.fld Reg.RED_TRAP 0 4 = 8 ∧ SameMem s t) ∧
  (∀ s : State, Completes .mirrorLinkDown s fun t => t.mirLanes = 0 ∧ t.mirrorUp = false ∧
    t.mirState = (if s.mirEn = 0 then 8 else 2) ∧ SameMem s t) ∧
  (∀ (m : Fin 8) (s : State), s.accepts m Reg.RED_MIR_CTRL (BitVec.ofNat 32 (s.mirEn + 256)) = true →
    Completes (.mirrorRetrain m) s fun t => t.mirLanes = 0 ∧ t.mirState = (if s.mirEn = 0 then 8 else 2) ∧ SameMem s t) ∧
  (∀ (m : Fin 8) (lanes : Fin 16) (s : State),
    s.accepts m Reg.RED_MIR_CTRL (BitVec.ofNat 32 (s.mirEn + 16 * lanes.val)) = true →
    lanes.val &&& s.mirRet &&& s.mirEn ≠ 0 → s.mirLanes ≠ 0 → s.mirLanes &&& (15 ^^^ s.mirEn) = 0 →
    Completes (.mirrorLaneRestore m lanes) s fun t =>
      t.red.training = s.red.training ||| (lanes.val &&& s.mirRet &&& s.mirEn) ∧ SameMem s t) ∧
  (∀ (m : Fin 8) (en : Fin 16) (s : State), s.accepts m Reg.RED_MIR_CTRL (BitVec.ofNat 32 en.val) = true →
    Completes (.mirrorLaneEnWrite m en) s fun t => t.mirEn = en.val ∧ SameMem s t) ∧
  (∀ (seq : Byte) (s : State), s.mirDark = false → s.mirLanes ≠ 0 →
    Completes (.echoReq seq) s fun t =>
      SentBlocks s t 16 [echoRspBlock seq.toNat] (.echoRsp seq.toNat 3200) ∧ SameMem s t ∧ SameRegs s t [])

/-- R264 to R267: the eight trigger pins, their enable, their chatter and STUCK bits.
Model: Where CHATTER and STUCK are held is an inference (assumption 53). -/
def Obligations.TriggerInputCommandsComplete : Prop :=
  (∀ (pin : Fin 8) (level : Bool) (cycle : Nat) (s : State), (s.pin pin).level ≠ level →
    Completes (.trigInEdge pin level cycle) s fun t => (t.pin pin).level = level ∧
      (∀ k, k ≠ pin.val → t.pin k = s.pin k) ∧ SameMem s t ∧ SameRegs s t []) ∧
  (∀ (i : Fin 1032) (s : State), i.val < 8 → s.stuckDue (s.pin i).on (s.pin i).since = true →
    s.bit Reg.EVT_PIN_STAT (16 + i) = false →
    Completes (.stuckDetect i) s fun t => t.bit Reg.EVT_PIN_STAT (16 + i) = true ∧
      t.bit (cReg pEVT OFF_INT_STAT) 3 = true ∧ SameMem s t ∧ SameRegs s t (Reg.EVT_PIN_STAT :: raiseKeys pEVT)) ∧
  (∀ (i : Fin 1032) (s : State), 8 ≤ i.val → s.stuckDue (s.lol (i.val - 8)).on (s.lol (i.val - 8)).since = true →
    s.bit (Reg.EVT_LOL_STUCK + 4 * ((i.val - 8) / 32)) ((i.val - 8) % 32) = false →
    Completes (.stuckDetect i) s fun t => t.bit (Reg.EVT_LOL_STUCK + 4 * ((i.val - 8) / 32)) ((i.val - 8) % 32) = true ∧
      t.bit (cReg pEVT OFF_INT_STAT) 3 = true ∧ SameMem s t) ∧
  (∀ (m : Fin 8) (v : Word) (cycle : Nat) (s : State), (s.atCycle cycle).accepts m Reg.EVT_PIN_EN v = true →
    Completes (.evtPinEnWrite m v cycle) s fun t => t.fld Reg.EVT_PIN_EN 0 8 = fld v 0 8 ∧ SameMem s t ∧
      SameRegs s t [Reg.EVT_PIN_EN]) ∧
  (∀ (m : Fin 8) (v : Word) (s : State), s.accepts m Reg.EVT_PIN_STAT v = true →
    Completes (.chatterClear m 0 v) s fun t => (∀ k, k < 8 → t.bit Reg.EVT_PIN_STAT (8 + k) =
      (s.bit Reg.EVT_PIN_STAT (8 + k) && !bitOf v (8 + k))) ∧ SameMem s t) ∧
  (∀ (m : Fin 8) (word : Fin 33) (v : Word) (s : State), word.val ≠ 0 →
    s.accepts m (Reg.EVT_LOL_CHATTER + 4 * (word.val - 1)) v = true →
    Completes (.chatterClear m word v) s fun t => (∀ k, k < 32 → t.bit (Reg.EVT_LOL_CHATTER + 4 * (word.val - 1)) k =
      (s.bit (Reg.EVT_LOL_CHATTER + 4 * (word.val - 1)) k && !bitOf v k)) ∧ SameMem s t) ∧
  (∀ (pin : Fin 8) (cycle : Nat) (s : State), (s.atCycle cycle).closeIfPast.pinDue pin = true →
    Completes (.pinRecognition pin cycle) s fun t => (t.pin pin).on = s.pinActive pin ∧ (t.pin pin).wait = none ∧ SameMem s t)

/-- R255, R257, R262, R272: the protection bank's check, its pair words, the commands FORCE and CLEAR, and the timer.
Model: Which of several commands acts is an inference (assumption 55). -/
def Obligations.ProtectionCommandsComplete : Prop :=
  (∀ (m : Fin 8) (s : State), s.accepts m Reg.PRT_CTRL 1 = true →
    Completes (.protectionCheck m) s fun t => t.bit Reg.PRT_STAT 1 = true ∧ SameMem s t ∧ SameRegs s t [Reg.PRT_STAT]) ∧
  (∀ s : State, s.bit Reg.PRT_STAT 1 = true →
    Completes .protectionCheckDone s fun t => t.bit Reg.PRT_STAT 1 = false ∧
      t.bit Reg.PRT_STAT 0 = ((s.prtCheck s.prt.shd).1 == 0) ∧ t.bit (cReg pPRT OFF_INT_STAT) 4 = true ∧
      t.reg Reg.PRT_RES = BitVec.ofNat 32 ((s.prtCheck s.prt.shd).1 + 256 * (s.prtCheck s.prt.shd).2.2
        + 65536 * (s.prtCheck s.prt.shd).2.1) ∧ SameMem s t ∧
      SameRegs s t (Reg.PRT_STAT :: Reg.PRT_RES :: raiseKeys pPRT)) ∧
  (∀ (m : Fin 8) (v : Word) (s : State), s.accepts m Reg.PRT_SUB_DATA v = true → s.prtShadowBusy = false →
    Completes (.prtSubDataWrite m v) s fun t =>
      Sparse.get 0 (s.fld Reg.PRT_SUB_IDX 0 14) t.prt.shd.pairs = v.toNat ∧
      (∀ i, i ≠ s.fld Reg.PRT_SUB_IDX 0 14 → Sparse.get 0 i t.prt.shd.pairs = Sparse.get 0 i s.prt.shd.pairs) ∧
      t.fld Reg.PRT_SUB_IDX 0 14 = (s.fld Reg.PRT_SUB_IDX 0 14 + 1) % 16384 ∧ t.bit Reg.PRT_STAT 0 = false ∧ SameMem s t ∧
      SameRegs s t [Reg.PRT_SUB_IDX, Reg.PRT_STAT]) ∧
  (∀ (m : Fin 8) (s : State), s.acceptsRead m Reg.PRT_SUBA_DATA = true →
    Completes (.prtSubaDataRead m) s fun t => t.bus.last.status = .ok ∧
      t.bus.last.data = BitVec.ofNat 32 (Sparse.get 0 (s.fld Reg.PRT_SUBA_IDX 0 14) s.prt.act.pairs) ∧
      t.fld Reg.PRT_SUBA_IDX 0 14 = (s.fld Reg.PRT_SUBA_IDX 0 14 + 1) % 16384 ∧ SameMem s t) ∧
  (∀ (m : Fin 8) (c : Fin 256) (cycle : Nat) (s : State),
    (s.atCycle cycle).accepts m Reg.PRT_CMD (BitVec.ofNat 32 (65536 * c.val + 1)) = true → s.prtCmdRes c 1 = 0 →
    Completes (.force m c cycle) s fun t => (c.val, 1) ∈ t.prt.cmds ∧ t.reg Reg.PRT_CMD_RES = 0 ∧ SameMem s t ∧
      SameRegs s t [Reg.PRT_CMD_RES]) ∧
  (∀ (m : Fin 8) (c : Fin 256) (cycle : Nat) (s : State),
    (s.atCycle cycle).accepts m Reg.PRT_CMD (BitVec.ofNat 32 (65536 * c.val + 2)) = true → s.prtCmdRes c 2 = 0 →
    Completes (.clear m c cycle) s fun t => (c.val, 2) ∈ t.prt.cmds ∧ t.reg Reg.PRT_CMD_RES = 0 ∧ SameMem s t ∧
      SameRegs s t [Reg.PRT_CMD_RES]) ∧
  (∀ (c : Fin 256) (s : State), (s.caseRun c).state = 4 → (s.caseRun c).wtrEnd.toNat ≤ s.now.toNat →
    Completes (.wtrExpiry c) s fun t => (t.caseRun c).due = true ∧ (∀ d, d ≠ c.val → t.caseRun d = s.caseRun d) ∧ SameMem s t ∧
      SameRegs s t [])

/-- R191 to R193, R197 to R199, R203: an apply request is staged for its boundary, or under NEXT for the earliest one when it is
late; staging ends in the queue; CANCEL_ALL removes what is not fixed; the safety net is armed, asked for and left.
Model: The cycle of the request is the row's operand by the model's choice (assumption 6). -/
def Obligations.ApplyAndSafetyCommandsComplete : Prop :=
  (∀ (m : Fin 8) (cycle : Nat) (s : State),
    let u := s.atCycle cycle
    let tr := if u.applyCutoff ≤ u.ntu.cyc then s.now + 1 else s.now
    let late := decide (u.applyTick.toNat < tr.toNat + 2)
    let b := if late then tr + 2 else u.applyTick
    u.accepts m Reg.RCE_CTRL 1 = true → s.rce.staging = none → s.roleActs = true → s.carousel = false → s.orphaned = false →
    s.safe = false → (late = false ∨ s.bit Reg.RCE_LATE_POLICY 0 = true) → s.queueTests b = 0 →
    Completes (.applyGo m cycle) s fun t =>
      t.rce.staging = some ⟨s.fld Reg.RCE_APPLY_REC 0 13, b, late, false, u.applyTick, decide (u.applyCutoff ≤ u.ntu.cyc)⟩ ∧ t.bit Reg.RCE_STAT 2 = true ∧
      t.rce.queue = s.rce.queue ∧ SameMem s t ∧ SameRegs s t [Reg.RCE_APPLY_RES, Reg.RCE_STAT]) ∧
  (∀ (g : Staging) (s : State), s.rce.staging = some g → s.checkRec g.index = 0 →
    Completes .stagingDone s fun t => t.rce.staging = none ∧
      t.rce.queue = s.rce.queue ++ [⟨g.a, g.index, s.recGen g.index, g.late, s.recCells g.index⟩] ∧ SameMem s t) ∧
  (∀ (m : Fin 8) (s : State), s.accepts m Reg.RCE_CTRL 16 = true →
    Completes (.applyCancelAll m) s fun t =>
      t.rce.queue = s.rce.queue.filter (fun e =>
        decide (e.b.toNat < (s.now + (if s.rce.composed then 3 else 2)).toNat)) ∧ SameMem s t ∧
      SameRegs s t (raiseKeys pRCE)) ∧
  (∀ (m : Fin 8) (s : State), s.accepts m Reg.RCE_CTRL 4 = true →
    Completes (.armSafety m) s fun t => t.fld Reg.RCE_STAT 8 4 = s.checkRec 0 % 16 ∧
      (s.checkRec 0 = 0 → t.bit Reg.RCE_STAT 1 = true ∧ t.rce.armed = some (s.recCells 0)) ∧
      t.bit (cReg pRCE OFF_INT_STAT) 6 = true ∧ SameMem s t ∧ SameRegs s t (Reg.RCE_STAT :: raiseKeys pRCE)) ∧
  (∀ (m : Fin 8) (cycle : Nat) (s : State), (s.atCycle cycle).accepts m Reg.RCE_CTRL 2 = true →
    Completes (.safeNow m cycle) s fun t => (s.atCycle cycle).countTick + 2 ∈ t.rce.safeAt ∧ SameMem s t) ∧
  (∀ (m : Fin 8) (s : State), s.accepts m Reg.RCE_CTRL 8 = true → s.roleActs = true → s.orphaned = false →
    Completes (.safeExit m) s fun t => t.bit Reg.RCE_STAT 0 = false ∧ t.reg Reg.RCE_APPLY_RES = 32 ∧ SameMem s t ∧
      SameRegs s t [Reg.RCE_APPLY_RES, Reg.RCE_STAT])

/-- R230, R232 to R235, R237: a job is submitted, starts, is suspended and resumes, and ends with its result in its slot; a slot
word is written while its slot is free.
Model: The choice of a search is the row's operand (assumption 69). -/
def Obligations.SolverQueueCommandsComplete : Prop :=
  (∀ (m : Fin 8) (j : Fin 32) (s : State), s.accepts m Reg.RSV_SUBMIT (BitVec.ofNat 32 j.val) = true → s.subTests j = 0 →
    Completes (.rsvSubmit m j) s fun t => t.rsv.queue = s.rsv.queue ++ [j.val] ∧ t.rsv.run = s.rsv.run ∧ t.jobState j = 1 ∧
      t.reg Reg.RSV_SUB_RES = 0 ∧ SameMem s t ∧
      SameRegs s t [Reg.RSV_SUB_RES, jobReg j 5, jobReg j 6, jobReg j 7, Reg.RSV_STAT]) ∧
  (∀ (m : Fin 8) (j : Fin 32) (w : Fin 5) (v : Word) (r : RegRow) (s : State), s.accepts m (jobReg j w) v = true →
    s.jobBusy j = false → (regRow? (jobReg j w)).map (·.1) = some r →
    Completes (.jobSlotWrite m j w v) s fun t =>
      t.reg (jobReg j w) = (s.reg (jobReg j w) &&& ~~~ BitVec.ofNat 32 (r.rw ||| r.rws)) ||| (v &&& BitVec.ofNat 32 (r.rw ||| r.rws)) ∧
      SameMem s t ∧ SameRegs s t [jobReg j w]) ∧
  (∀ (j : Nat) (s : State), s.solverStops = false → s.rsv.run = none → s.nextJob? = some j →
    Completes .jobStart s fun t => t.rsv.run = some (s.readJob j) ∧ t.jobState j = 2 ∧
      t.rsv.queue = s.rsv.queue.filter (· != j) ∧ SameMem s t ∧ SameRegs s t [jobReg j 5, Reg.RSV_STAT]) ∧
  (∀ (j : RsvJob) (s : State), s.solverStops = false → s.rsv.run = none → s.rsv.queue.any s.jobUrgent = false →
    s.rsv.susp = some j →
    Completes .jobResume s fun t => t.rsv.run = some j ∧ t.rsv.susp = none ∧ t.rsv.queue = s.rsv.queue ∧ SameMem s t ∧
      SameRegs s t [Reg.RSV_STAT])

/-- R219, R222, R223, R226, R229, R232, R237: the ends of a job. Its target's MAGIC is 0 from the start of the final pass to its
end; its report record is written as it ends, also when it is cancelled.
Model: The solver cycles are the row's operand, and what the search chooses is a fixed free function of its inputs (assumptions
69, 71). -/
def Obligations.SolverJobEndsComplete : Prop :=
  (∀ (n cycle : Nat) (j : RsvJob) (e : Nat × List (Nat × Nat)) (s : State),
    s.solverStops = false → s.rsv.run = some j → j.early = some e → j.slot < 32 → e.1 < 16 →
    (s.jobRecs j.slot).any s.recInUse = false →
    Completes (.jobEnd 2 n cycle) s fun t => t.rsv.run = none ∧ t.jobState j.slot = 3 ∧ t.fld (jobReg j.slot 5) 0 4 = e.1 ∧
      t.bit Reg.RSV_DONE j.slot = true ∧ t.bit (cReg pRSV OFF_INT_STAT) 0 = true ∧
      SameMemOut s t (recAddr (s.jobReport j.slot)) 4096) ∧
  (∀ (n cycle : Nat) (j : RsvJob) (topo : Topo) (s : State),
    s.solverStops = false → s.rsv.run = some j → j.early = none → j.topo = some topo → j.slot < 32 →
    (j.pass = true ∨ s.searchBounded j = false ∨ n ≤ s.rsvBudget) → (s.jobRecs j.slot).any s.recInUse = false →
    let r := j.result topo (s.jobKind j.slot) (s.jobMode j.slot) s.rsvBudget
    Completes (.jobEnd 2 n cycle) s fun t => t.rsv.run = none ∧ t.jobState j.slot = 3 ∧ t.fld (jobReg j.slot 5) 0 4 = r.1 ∧
      t.bit Reg.RSV_DONE j.slot = true ∧
      SameMemOff s t ((recAddr (s.jobReport j.slot), 4096) ::
        (if r.2.2.isSome then [(recAddr (s.jobTarget j.slot), 4096)] else []))) ∧
  (∀ (n cycle : Nat) (j : RsvJob) (topo : Topo) (x : Sparse Nat) (s : State),
    s.solverStops = false → s.rsv.run = some j → j.early = none → j.topo = some topo →
    (j.pass = true ∨ s.searchBounded j = false ∨ n ≤ s.rsvBudget) → (s.jobRecs j.slot).any s.recInUse = false →
    (j.result topo (s.jobKind j.slot) (s.jobMode j.slot) s.rsvBudget).2.2 = some x →
    Completes (.jobEnd 0 n cycle) s fun t => t.rsv.run = some { j with pass := true } ∧
      Wrote s t (recAddr (s.jobTarget j.slot)) (toLE 4 0) ∧ SameRegs s t []) ∧
  (∀ (n cycle : Nat) (j : RsvJob) (topo : Topo) (x : Sparse Nat) (s : State),
    s.solverStops = false → s.rsv.run = some j → j.early = none → j.topo = some topo →
    (j.pass = true ∨ s.searchBounded j = false ∨ n ≤ s.rsvBudget) → (s.jobRecs j.slot).any s.recInUse = false →
    (j.result topo (s.jobKind j.slot) (s.jobMode j.slot) s.rsvBudget).2.2 = some x →
    Completes (.jobEnd 1 n cycle) s fun t => t.rsv.run = some { j with pass := true } ∧
      (∀ i, i < 4 → t.byte (recAddr (s.jobTarget j.slot) + i) = 0) ∧
      SameMemOut s t (recAddr (s.jobTarget j.slot)) 4096 ∧ SameRegs s t []) ∧
  (∀ (n cycle : Nat) (j : RsvJob) (topo : Topo) (s : State),
    s.solverStops = false → s.rsv.run = some j → j.topo = some topo → j.pass = false → s.searchBounded j = true →
    s.rsvBudget ≤ n → j.slot < 32 → (s.jobRecs j.slot).any s.recInUse = false →
    Completes (.budgetExhausted n cycle) s fun t => t.rsv.run = none ∧ t.jobState j.slot = 3 ∧ t.fld (jobReg j.slot 5) 0 4 = 4 ∧
      t.bit Reg.RSV_DONE j.slot = true ∧ t.bit (cReg pRSV OFF_INT_STAT) 1 = true ∧
      SameMemOut s t (recAddr (s.jobReport j.slot)) 4096) ∧
  (∀ (m : Fin 8) (j : Fin 32) (n : Nat) (s : State),
    s.accepts m Reg.RSV_CTRL (BitVec.ofNat 32 (1 + 256 * j.val)) = true → s.jobBusy j = true →
    s.startedJobs.any (·.pass) = false →
    Completes (.jobCancel m j n) s fun t => t.jobState j = 3 ∧ t.fld (jobReg j 5) 0 4 = 9 ∧ t.bit Reg.RSV_DONE j = true ∧
      j.val ∉ t.rsv.queue ∧ t.bit (cReg pRSV OFF_INT_STAT) 5 = true ∧
      SameMemOff s t (if s.startedJobs.any (·.slot == j.val) then [(recAddr (s.jobReport j), 4096)] else [])) ∧
  (∀ (m : Fin 8) (n : Nat) (s : State), s.accepts m Reg.RSV_CTRL 2 = true → s.startedJobs.any (·.pass) = false →
    Completes (.jobCancelAll m n) s fun t => (∀ j, j < 32 → t.jobBusy j = false ∧
      (s.jobBusy j = true → t.fld (jobReg j 5) 0 4 = 9 ∧ t.bit Reg.RSV_DONE j = true)) ∧ SameMemOff s t s.jobReports)

/-- R41, R194 to R196, R212: the loads of a topology descriptor and of an image begin and end.
Model: That the completion row carries the bytes is an inference (assumption 52). -/
def Obligations.LoadCommandsComplete : Prop :=
  (∀ (m : Fin 8) (s : State), s.accepts m Reg.FAB_CTRL 1 = true → s.rce.descBusy = false → s.rce.imgBusy = false →
    Completes (.loadDesc m) s fun t => t.rce.descBusy = true ∧ t.bit Reg.FAB_STAT 2 = true ∧ SameMem s t ∧
      SameRegs s t [Reg.FAB_STAT]) ∧
  (∀ (data : List Byte) (busAt : Option Nat) (s : State), s.rce.descBusy = true →
    let src := s.loadSource Reg.FAB_DESC_SRC descTotal data busAt
    let r := src.1.descResult src.2.1 src.2.2
    Completes (.descLoadDone data busAt) s fun t => t.rce.descBusy = false ∧
      t.topo = (match r.2 with | some x => some x | none => s.topo) ∧
      t.reg Reg.FAB_DESC_RES = BitVec.ofNat 32 (r.1.code + 16 * r.1.table + 65536 * r.1.entry) ∧
      t.bit (cReg pFAB OFF_INT_STAT) 0 = true) ∧
  (∀ (m : Fin 8) (s : State), s.accepts m Reg.FAB_CTRL 2 = true → s.roleActs = true → s.rce.descBusy = false →
    s.rce.imgBusy = false →
    Completes (.loadImage m) s fun t => t.rce.imgBusy = true ∧ t.bit Reg.FAB_STAT 3 = true ∧ t.reg Reg.FAB_IMG_RES = 0 ∧
      t.reg Reg.FAB_IMG_PROG = 0 ∧ SameMem s t ∧ SameRegs s t [Reg.FAB_STAT, Reg.FAB_IMG_RES, Reg.FAB_IMG_PROG]) ∧
  (∀ (data : List Byte) (s : State), s.rce.imgBusy = true →
    let src := s.loadSource Reg.FAB_IMG_SRC (imgTotal (s.reg Reg.FAB_IMG_LEN).toNat) data none
    src.2.2 = none → imgHeader src.2.1 (s.reg Reg.FAB_IMG_LEN).toNat = 0 →
    let r := ({ s := src.1 } : ImgRun).allSections src.2.1 (leAt src.2.1 8 4) (2 ^ 32) 9 (imgSections src.2.1)
    Completes (.imageLoadDone data none) s fun t => t.rce.imgBusy = false ∧ t.mem = r.s.mem ∧
      t.reg Reg.FAB_IMG_RES = (match r.res with
        | some (c, d) => BitVec.ofNat 32 (c + 256 * d + 65536 * r.secs)
        | none => 0) ∧
      t.bit (cReg pFAB OFF_INT_STAT) 1 = true) ∧
  (∀ (m : Fin 8) (data : List Byte) (got : Nat) (s : State), s.accepts m Reg.FAB_CTRL 4 = true → s.rce.imgBusy = true →
    got < 64 → s.bit (Reg.FAB_IMG_SRC + 4) 31 = false →
    Completes (.abortImage m data got) s fun t => t.rce.imgBusy = false ∧ t.reg Reg.FAB_IMG_RES = 10 ∧
      t.reg Reg.FAB_IMG_PROG = 0 ∧ t.bit (cReg pFAB OFF_INT_STAT) 1 = true ∧ SameMem s t ∧
      SameRegs s t ([Reg.FAB_STAT, Reg.FAB_IMG_RES, Reg.FAB_IMG_PROG] ++ raiseKeys pFAB)) ∧
  (∀ (m : Fin 8) (data : List Byte) (got : Nat) (s : State), s.accepts m Reg.FAB_CTRL 4 = true → s.rce.imgBusy = true →
    got < 64 → s.bit (Reg.FAB_IMG_SRC + 4) 31 = true →
    Completes (.abortImage m data got) s fun t => t.rce.imgBusy = false ∧
      (t.reg Reg.FAB_IMG_RES = 10 ∨ t.reg Reg.FAB_IMG_RES = 9) ∧ t.reg Reg.FAB_IMG_PROG = 0 ∧
      t.bit (cReg pFAB OFF_INT_STAT) 1 = true ∧ SameMem s t)


/-- R69, R73, R176, R256, R302, R477: COMMIT.REQ that passes the page's tests waits for its boundary, with the page's result OK;
COMMIT.CANCEL of a commit whose boundary lies far enough ahead removes it.
Model: The latest moment of a cancellation and the rank of ORPHANED are inferences (assumptions 47, 48). -/
def Obligations.CommitCommandsComplete : Prop :=
  (∀ (m : Fin 8) (cycle : Nat) (s : State), (s.atCycle cycle).accepts m (cReg pTCK OFF_COMMIT) 1 = true →
    s.pendingOn pTCK = false → s.orphaned = false → s.pageTests pTCK (s.commitTick pTCK) true false = 0 →
    Completes (.tckCommit m cycle) s fun t =>
      t.commitOf? pTCK = some ⟨pTCK, s.commitTick pTCK, s.commitTick pTCK, false, s.role == 2⟩ ∧
      t.reg Reg.TCK_CMT_RES = 0 ∧ SameMem s t) ∧
  (∀ (m : Fin 8) (cycle : Nat) (s : State), (s.atCycle cycle).accepts m (cReg pLPL OFF_COMMIT) 1 = true →
    s.pendingOn pLPL = false → s.orphaned = false → s.pageTests pLPL (s.commitTick pLPL) true false = 0 →
    Completes (.lplCommit m cycle) s fun t =>
      t.commitOf? pLPL = some ⟨pLPL, s.commitTick pLPL, s.commitTick pLPL, false, s.role == 2⟩ ∧
      t.fld Reg.LPL_CMT_RES 0 4 = 0 ∧ SameMem s t ∧ SameRegs s t [Reg.LPL_CMT_RES]) ∧
  (∀ (m : Fin 8) (cycle : Nat) (s : State), (s.atCycle cycle).accepts m (cReg pPRT OFF_COMMIT) 1 = true →
    s.pendingOn pPRT = false → s.orphaned = false → s.pageTests pPRT (s.commitTick pPRT) true false = 0 →
    Completes (.prtCommit m cycle) s fun t =>
      t.commitOf? pPRT = some ⟨pPRT, s.commitTick pPRT, s.commitTick pPRT, false, s.role == 2⟩ ∧
      t.fld Reg.PRT_RES 0 4 = 0 ∧ SameMem s t ∧ SameRegs s t [Reg.PRT_RES]) ∧
  (∀ (m : Fin 8) (cycle : Nat) (s : State), (s.atCycle cycle).accepts m (cReg pCAL OFF_COMMIT) 1 = true →
    s.pendingOn pCAL = false → s.orphaned = false → s.pageTests pCAL (s.commitTick pCAL) true false = 0 →
    Completes (.calCommit m cycle) s fun t =>
      t.commitOf? pCAL = some ⟨pCAL, s.commitTick pCAL, s.commitTick pCAL, false, s.role == 2⟩ ∧
      t.reg Reg.CAL_OP_RES = 0 ∧ SameMem s t ∧ SameRegs s t [Reg.CAL_OP_RES]) ∧
  (∀ (m : Fin 8) (page : BitVec 14) (cycle : Nat) (c : PendCommit) (s : State),
    (s.atCycle cycle).accepts m (cReg page.toNat OFF_COMMIT) 2 = true → commitPages.contains page.toNat = true →
    s.commitOf? page.toNat = some c → (c.collected = true ∨ s.now.toNat + 2 < c.b.toNat) →
    Completes (.commitCancel m page cycle) s fun t => t.pendingOn page.toNat = false ∧ SameMem s t)

/-- R153, R155, R161: NOP, SET_STATE, FREEZE, RELEASE, SET_PROF_A, SET_PROF_B, SET_PARK_A, SET_PARK_B, SET_TARGET and CLEAR_FLAGS
put their operation and argument into PRF_LCMD_OP and a commit with LCMD on the PRF page; PROFILE_BANK_SWAP a commit with SWAP.
Model: The order of the tests on a register write is an inference (assumption 13). -/
def Obligations.LoopAndBankCommandsComplete : Prop :=
  (∀ (op : Fin 10) (m : Fin 8) (arg : BitVec 16) (cycle : Nat) (s : State),
    let u := s.atCycle cycle
    u.accepts m Reg.PRF_LCMD_OP (BitVec.ofNat 32 (op + arg.toNat * 65536)) = true →
    u.accepts m Reg.PRF_CTRL (BitVec.ofNat 32 (2 * b2n (s.bit Reg.PRF_CTRL 1) + 4)) = true →
    u.accepts m (cReg pPRF OFF_COMMIT) 1 = true → s.pendingOn pPRF = false → s.orphaned = false → s.roleActs = true →
    s.now.toNat + 2 ≤ (s.commitTick pPRF).toNat → s.fld Reg.PRF_LCMD_RANGE 0 14 + s.fld Reg.PRF_LCMD_RANGE 16 15 ≤ 12288 →
    (op.val = 1 → arg.toNat ≤ 3) → (op.val = 4 ∨ op.val = 5 → arg.toNat ≤ 1023) →
    Completes (loopCommand op m arg cycle) s fun t =>
      t.commitOf? pPRF = some ⟨pPRF, s.commitTick pPRF, s.commitTick pPRF, false, false⟩ ∧
      t.fld Reg.PRF_LCMD_OP 0 4 = op.val ∧ t.fld Reg.PRF_LCMD_OP 16 16 = arg.toNat ∧ t.bit Reg.PRF_CTRL 2 = true ∧
      t.bit Reg.PRF_CTRL 0 = false ∧ t.fld Reg.PRF_CMT_RES 0 4 = 0 ∧ SameMem s t ∧
      SameRegs s t [Reg.PRF_LCMD_OP, Reg.PRF_CTRL, Reg.PRF_CMT_RES]) ∧
  (∀ (m : Fin 8) (cycle : Nat) (s : State),
    let u := s.atCycle cycle
    u.accepts m Reg.PRF_CTRL (BitVec.ofNat 32 (1 + 2 * b2n (s.bit Reg.PRF_CTRL 1))) = true →
    u.accepts m (cReg pPRF OFF_COMMIT) 1 = true → s.pendingOn pPRF = false → s.orphaned = false → s.roleActs = true →
    s.now.toNat + 2 ≤ (s.commitTick pPRF).toNat → s.bit Reg.PRF_STAT 1 = false →
    Completes (.profileBankSwap m cycle) s fun t =>
      t.commitOf? pPRF = some ⟨pPRF, s.commitTick pPRF, s.commitTick pPRF, false, false⟩ ∧
      t.bit Reg.PRF_CTRL 0 = true ∧ t.bit Reg.PRF_CTRL 2 = false ∧ t.fld Reg.PRF_CMT_RES 0 4 = 0 ∧ SameMem s t ∧
      SameRegs s t [Reg.PRF_CTRL, Reg.PRF_CMT_RES])

/-- R249: START, SWAP and STOP of the carousel put their operation into CRS_CMD and wait for the boundary of effect.
Model: The order of the tests on a register write is an inference (assumption 13). -/
def Obligations.CarouselOperationsComplete : Prop :=
  (∀ (m : Fin 8) (cycle : Nat) (s : State), CrsAccepted 1 m cycle s → s.carousel = false → s.bit Reg.CRS_STAT 3 = true →
    Completes (.start m cycle) s fun t => CrsWaits 1 (s.commitTick pCRS) (alignTick (s.commitTick pCRS)
      (-((((s.phase : Int) - s.reg64 Reg.CRS_BASE_TIME)).fdiv s.period)) s.crs.shd.cycle) s t) ∧
  (∀ (m : Fin 8) (cycle : Nat) (s : State), CrsAccepted 2 m cycle s → s.carousel = true → s.bit Reg.CRS_STAT 3 = true →
    Completes (.swap m cycle) s fun t => CrsWaits 2 (s.commitTick pCRS) (alignTick (s.commitTick pCRS)
      s.crs.base.toNat s.crs.act.cycle) s t) ∧
  (∀ (m : Fin 8) (cycle : Nat) (s : State), CrsAccepted 3 m cycle s → s.carousel = true →
    Completes (.stop m cycle) s fun t => CrsWaits 3 (s.commitTick pCRS) (alignTick (s.commitTick pCRS)
      s.crs.base.toNat s.crs.act.cycle) s t)

/-- R454 to R458: OPEN, GO, ADOPT and ABANDON of the takeover, while the data path is orphaned.
Model: The result code of ABANDON and the part of TCK in GO are the model's (assumptions 50, 49). -/
def Obligations.TakeoverCommandsComplete : Prop :=
  (∀ (m : Fin 8) (s : State), s.accepts m Reg.GLB_TAKEOVER 1 = true → s.orphaned = true → s.rst.goAt = none →
    s.rst.adopt = false →
    Completes (.takeoverOpen m) s fun t => t.takeoverOpen = true ∧ t.orphaned = true ∧ SameMem s t ∧
      SameRegs s t [Reg.GLB_TAKEOVER_RES]) ∧
  (∀ (m : Fin 8) (s : State),
    let k := reqTick s.now 32 (s.reg Reg.GLB_TAKEOVER_TICK).toNat
    s.accepts m Reg.GLB_TAKEOVER 2 = true → s.goTests k = (0, 0) →
    Completes (.takeoverGo m) s fun t => t.rst.goAt = some k ∧ t.takeoverOpen = false ∧ t.bit Reg.GLB_TAKEOVER_RES 5 = true ∧
      t.fld Reg.GLB_TAKEOVER_RES 0 4 = 0 ∧ SameMem s t) ∧
  (∀ (m : Fin 8) (s : State), s.accepts m Reg.GLB_TAKEOVER 3 = true → s.orphaned = true →
    Completes (.takeoverAdopt m) s fun t => t.rst.adopt = true ∧ t.rst.goAt = none ∧ t.fld Reg.GLB_TAKEOVER_RES 0 4 = 9 ∧
      t.bit Reg.GLB_TAKEOVER_RES 5 = false ∧ SameMem s t) ∧
  (∀ (m : Fin 8) (s : State), s.accepts m Reg.GLB_TAKEOVER 4 = true → s.takeoverOpen = true →
    Completes (.takeoverAbandon m) s fun t => t.takeoverOpen = false ∧ t.fld Reg.GLB_TAKEOVER_RES 0 4 = 10 ∧ SameMem s t)

/-- R449, R496, R510, R516 to R523, R525, R550: the resets that restart the device, and the start-up that follows them.
Model: The straps of a register write, and the reset values of internal state, are the model's choices (assumptions 3, 18). -/
def Obligations.RestartCommandsComplete : Prop :=
  (∀ (ns : Nat) (straps : Fin 16) (pll clear : Bool) (s : State), 1000 ≤ ns → s.pwr.seqCause = none → s.off = false →
    Completes (.resetN ns straps pll clear) s fun t => StartedUp t pll clear ∧ t.pending = s.pending) ∧
  (∀ (m : Fin 8) (straps : Fin 16) (pll clear : Bool) (s : State), m.val ≤ 2 →
    s.accepts m Reg.GLB_RESET 0x5A5A0001 = true →
    Completes (.coldReset m 0x5A5A straps pll clear) s fun t => StartedUp t pll clear ∧ t.pending = s.pending) ∧
  (∀ (m : Fin 8) (clear : Bool) (s : State), m.val ≤ 2 → s.accepts m Reg.GLB_RESET 0x5A5A0002 = true →
    Completes (.warmReset m 0x5A5A clear) s fun t => StartedUp t true clear ∧ t.pending = s.pending) ∧
  (∀ (straps : Fin 16) (pll clear cool : Bool) (s : State), s.off = true → s.pwr.seqCause = some 1 →
    (s.aValid = true ∨ s.bValid = true) → (s.pwr.trip = true → cool = true) →
    Completes (.powerOnRestart straps pll clear cool) s fun t => StartedUp t pll clear ∧ t.off = false ∧
      t.pending = s.pending) ∧
  (∀ (straps : Fin 16) (pll clear : Bool) (s : State), s.off = true → s.pwr.seqCause = some 2 →
    (s.aValid = true ∨ s.bValid = true) →
    Completes (.thermalRestart straps pll clear) s fun t => StartedUp t pll clear ∧ t.off = false ∧
      t.reg Reg.THM_ATRIP = 12 ∧ t.pending = s.pending)

/-- R449, R452, R453, R462, R518: the management resets by software and by PCIe, their end, and the soft reset of a block.
Model: What the views show after these resets is an inference (assumptions 29, 30). -/
def Obligations.ManagementAndSoftResetsComplete : Prop :=
  (∀ (m : Fin 8) (cycle : Nat) (s : State), m.val ≤ 2 → (s.atCycle cycle).accepts m Reg.GLB_RESET 0x5A5A0003 = true →
    Completes (.managementReset m 0x5A5A cycle) s fun t => t.mstate = 1 ∧ t.net.sessions = [] ∧ t.cal.pass = none ∧
      t.rsv.queue = [] ∧ t.rsv.run = none ∧ t.crs.shd.count = s.crs.shd.count ∧ t.bit Reg.LPL_STAT 10 = false) ∧
  (∀ s : State, s.mstate = 1 → s.pwr.seqCause ≠ some 1 → s.bus.held = [] → s.net.waits = [] →
    Completes .mgmtResetDone s fun t => t.orphaned = true ∧ t.bit (cReg 6 OFF_INT_STAT) 6 = true ∧ SameMem s t) ∧
  (∀ s : State, s.silent = false → s.bus.perst = false →
    Completes .pcieHotReset s fun t => t.mstate = 1 ∧ t.net.sessions = [] ∧ t.bit Reg.HIF_STAT 9 = false ∧
      t.bit Reg.HIF_STAT 10 = false ∧ t.reg64 Reg.HIF_PBA = 0) ∧
  (∀ s : State, s.silent = false → s.bus.perst = false →
    Completes .functionLevelReset s fun t => t.mstate = 1 ∧ t.net.sessions = [] ∧ t.bit Reg.HIF_STAT 9 = false ∧
      t.bit Reg.HIF_STAT 10 = false ∧ t.reg64 Reg.HIF_PBA = 0) ∧
  (∀ s : State, s.silent = false → s.bus.perst = false →
    Completes .pcieLinkDown s fun t => t.mstate = 1 ∧ t.net.sessions = [] ∧ t.fld Reg.HIF_STAT 0 8 = 0) ∧
  (∀ (low : Bool) (s : State), Completes (.pciePerst low) s fun t => t.bus.perst = low ∧
    (low = true → s.bus.perst = false → s.silent = false → t.mstate = 1 ∧ t.fld Reg.HIF_STAT 0 8 = 0)) ∧
  (∀ (m : Fin 8) (page : BitVec 14) (v : Word) (s : State),
    s.accepts m (cReg page.toNat OFF_PAGE_CTRL) (v ||| 2) = true → srstPage page.toNat = true →
    s.rst.srst.contains page.toNat = false →
    Completes (.softReset m page v) s fun t => page.toNat ∈ t.rst.srst ∧ t.reg (cReg page.toNat OFF_FAULT_CNT) = 0 ∧
      t.bit (cReg page.toNat OFF_PAGE_CTRL) 0 = true) ∧
  (∀ (page : BitVec 14) (s : State), s.rst.srst.contains page.toNat = true → s.bus.held = [] → s.net.waits = [] →
    Completes (.softResetDone page) s fun t => t.rst.srst = s.rst.srst.filter (· != page.toNat) ∧ SameMem s t ∧ SameRegs s t [])

/-- R533, R548: the core PLL, the reference clock and the watchdog clock fail and return.
Model: The end of the 2 ms is the sender's (assumption 6). -/
def Obligations.ClockCommandsComplete : Prop :=
  (∀ (cycle : Nat) (s : State), s.bit Reg.CLK_STAT 0 = true →
    Completes (.pllLockLoss cycle) s fun t => t.bit Reg.CLK_STAT 0 = false ∧ t.running = false ∧ t.tck.startAt = none ∧
      t.fld Reg.CLK_CNT 0 16 = satAdd 0xFFFF (s.fld Reg.CLK_CNT 0 16) 1 ∧ t.bit (cReg 3 OFF_INT_STAT) 0 = true ∧
      SameMem s t ∧ SameRegs s t ([Reg.CLK_STAT, Reg.CLK_CNT, Reg.TCK_STAT] ++ raiseKeys 3)) ∧
  (∀ (us cycle : Nat) (s : State), s.bit Reg.CLK_STAT 0 = false → s.bus.held = [] → s.net.waits = [] →
    Completes (.pllRelock us cycle) s fun t => t.bit Reg.CLK_STAT 0 = true ∧
      (t.reg Reg.CLK_RELOCK).toNat = min 0xFFFFFFFF us ∧ t.flt.pllFault = false ∧ t.bit (cReg 3 OFF_INT_STAT) 1 = true ∧
      SameMem s t ∧ SameRegs s t ([Reg.CLK_STAT, Reg.CLK_RELOCK] ++ raiseKeys 3)) ∧
  (∀ s : State, s.bit Reg.CLK_STAT 0 = false →
    Completes .pllUnlocked2ms s fun t => t.flt.pllFault = true ∧ SameMem s t ∧ SameRegs s t []) ∧
  (∀ s : State, s.bit Reg.CLK_STAT 1 = true →
    Completes .refclkLoss s fun t => t.bit Reg.CLK_STAT 1 = false ∧
      t.fld Reg.CLK_CNT 16 16 = satAdd 0xFFFF (s.fld Reg.CLK_CNT 16 16) 1 ∧ t.bit (cReg 3 OFF_INT_STAT) 2 = true ∧
      SameMem s t ∧ SameRegs s t ([Reg.CLK_STAT, Reg.CLK_CNT] ++ raiseKeys 3)) ∧
  (∀ s : State, Completes .refclkReturn s fun t => t.bit Reg.CLK_STAT 1 = true ∧ SameMem s t ∧ SameRegs s t [Reg.CLK_STAT]) ∧
  (∀ s : State, Completes .wdclkLoss s fun t => t.bit Reg.CLK_STAT 2 = false ∧ t.ilkOut = false ∧ SameMemButReports s t) ∧
  (∀ s : State, Completes .wdclkReturn s fun t => t.bit Reg.CLK_STAT 2 = true ∧ SameMem s t ∧ SameRegs s t [Reg.CLK_STAT])


/-- R445, R463, R465, R468, R474, R479, R483, R484: single accesses of the bus matrix; those of the host (M0) reach exactly the bytes
that BAR0 and BAR2 map.
Model: The order of the tests on an access is an inference, and that a host access outside both BARs is an ill-formed command is
the model's choice (assumptions 4, 13). -/
def Obligations.BusAccessCommandsComplete : Prop :=
  (∀ (m : Fin 8) (addr v : Word) (cycle : Nat) (r : RegRow) (s : State), addr.toNat ∈ plainRegs →
    (s.atCycle cycle).accepts m addr.toNat v = true → (regRow? addr.toNat).map (·.1) = some r →
    Completes (.registerWrite m addr v 15 cycle) s fun t =>
      t.reg addr.toNat = (s.reg addr.toNat &&& ~~~ BitVec.ofNat 32 (r.rw ||| r.rws)) ||| (v &&& BitVec.ofNat 32 (r.rw ||| r.rws)) ∧
      t.bus.last.status = .ok ∧ SameMem s t ∧ SameRegs s t [addr.toNat]) ∧
  (∀ (m : Fin 8) (addr : Word) (cycle : Nat) (s : State), (s.atCycle cycle).acceptsRead m addr.toNat = true →
    addr.toNat ∉ advancingRegs →
    Completes (.lowWordRead m addr cycle) s fun t =>
      t.bus.last = ⟨m, false, addr.toNat, .ok, (s.atCycle cycle).readWord addr.toNat⟩ ∧
      (∀ i, i + 1 < wideAt addr.toNat →
        t.latched? m (addr.toNat + 4 * (i + 1)) = some ((s.atCycle cycle).readWord (addr.toNat + 4 * (i + 1)))) ∧
      SameMem s t ∧ SameRegs s t []) ∧
  (∀ (m : Fin 8) (cycle : Nat) (s : State), (s.atCycle cycle).acceptsRead m Reg.PRT_SUB_DATA = true →
    Completes (.lowWordRead m (BitVec.ofNat 32 Reg.PRT_SUB_DATA) cycle) s fun t => t.bus.last.status = .ok ∧
      t.bus.last.data = BitVec.ofNat 32 (Sparse.get 0 (s.fld Reg.PRT_SUB_IDX 0 14) s.prt.shd.pairs) ∧
      t.fld Reg.PRT_SUB_IDX 0 14 = (s.fld Reg.PRT_SUB_IDX 0 14 + 1) % 16384 ∧ SameMem s t ∧
      SameRegs s t [Reg.PRT_SUB_IDX]) ∧
  (∀ (m : Fin 8) (write : Bool) (addr : Word) (s : State), masterReaches m addr.toNat 1 = true →
    s.target addr.toNat = 7 → s.silent = false →
    Completes (.decodeError m write addr) s fun t => t.reg Reg.BMX_DEC_ADDR = addr ∧
      t.fld Reg.BMX_DEC_INFO 16 16 = satAdd 0xFFFF (s.fld Reg.BMX_DEC_INFO 16 16) 1 ∧ t.bit (cReg 8 OFF_INT_STAT) 0 = true ∧
      t.bus.last = ⟨m, write, addr.toNat, if s.bit Reg.BMX_QUIET_DECODE 0 then .quiet else refusalStatus m kDecode, 0⟩ ∧
      SameMem s t) ∧
  (∀ (m : Fin 8) (page : BitVec 14) (v : Word) (r : RegRow) (s : State),
    s.accepts m (cReg page.toNat OFF_INT_STAT) v = true → (regRow? (cReg page.toNat OFF_INT_STAT)).map (·.1) = some r →
    Completes (.w1cClear m (BitVec.ofNat 32 (cReg page.toNat OFF_INT_STAT)) v) s fun t =>
      t.reg (cReg page.toNat OFF_INT_STAT) = s.reg (cReg page.toNat OFF_INT_STAT) &&& ~~~ (v &&& BitVec.ofNat 32 r.w1c) ∧
      SameMem s t ∧ SameRegs s t [cReg page.toNat OFF_INT_STAT, cReg page.toNat OFF_PAGE_STAT]) ∧
  (∀ (m : Fin 8) (page : BitVec 14) (v : Word) (s : State), s.accepts m (cReg page.toNat OFF_INT_FORCE) v = true →
    Completes (.intForce m page v) s fun t =>
      (∀ i, i < 32 → t.bit (cReg page.toNat OFF_INT_STAT) i = (s.bit (cReg page.toNat OFF_INT_STAT) i ||
        (bitOf v i && bitAt (intMask page.toNat) i) || (page.toNat == 6 && i == 4 && t.bit (cReg 6 OFF_INT_STAT) 4))) ∧
      SameMem s t ∧ SameRegs s t (raiseKeys page.toNat)) ∧
  (∀ (m : Fin 8) (remap : Bool) (s : State), s.accepts m Reg.GLB_REMAP (BitVec.ofNat 32 (b2n remap)) = true →
    (s.bit Reg.GLB_REMAP 0 = false ∨ remap = true) →
    Completes (.remap m remap) s fun t => t.bit Reg.GLB_REMAP 0 = remap ∧ SameMem s t ∧ SameRegs s t [Reg.GLB_REMAP]) ∧
  (∀ (m : Fin 8) (addr : Word) (data : List Byte) (s : State),
    let b := addr.toNat + data.length
    let p := s.logPage b
    (s.target addr.toNat ≠ 0 ∧ s.target addr.toNat ≠ 7 ∨ data.length % 4 = 0 ∧ addr.toNat % 4 = 0) →
    masterReaches m addr.toNat data.length = true →
    Completes (.burstTruncate m false addr data) s fun t =>
      t.bus.last = ⟨m, false, b, .none, 0⟩ ∧ t.reg (cReg p OFF_ERR_ADDR) = BitVec.ofNat 32 b ∧
      t.bit (cReg p OFF_ERR_INFO) 31 = true ∧ t.fld (cReg p OFF_ERR_INFO) 0 8 = kTrunc ∧
      t.bus.held = s.bus.held.filter (fun h => h.master != m.val) ∧ SameMem s t ∧
      SameRegs s t [cReg p OFF_ERR_ADDR, cReg p OFF_ERR_INFO]) ∧
  (∀ a n : Nat, 0 < n → (masterReaches 0 a n = true ↔
    ∃ two x, barAddr two x = some a ∧ barAddr two (x + (n - 1)) = some (a + (n - 1)))) ∧
  (∀ (addr v : Word) (en : Fin 16) (cycle : Nat) (s : State), masterReaches 0 addr.toNat 1 = false →
    exec (.registerWrite 0 addr v en cycle) s = .fault (.illFormed "REGISTER_WRITE") ∧
    exec (.lowWordRead 0 addr cycle) s = .fault (.illFormed "LOW_WORD_READ"))

/-- R152, R158, R169, R190, R243, R470, R471: writes into the memories; each changes the bytes it names and no others.
Model: Beats judged one by one, and what an unlisted byte reads as, are the model's (assumptions 14, 25). -/
def Obligations.MemoryWriteCommandsComplete : Prop :=
  (∀ (m : Fin 8) (off : Fin 33554432) (data : List Byte) (s : State), data ≠ [] → off + data.length ≤ 33554432 →
    s.memHeld = false → (∀ i, i < data.length → s.storeRefused m ((off + i) / 0x1000) = false) →
    Completes (.stateStoreWrite m off data) s fun t => Wrote s t (0x10000000 + off) data ∧ SameRegs s t []) ∧
  (∀ (m : Fin 8) (i : Fin 1048576) (data : List Byte) (s : State), data.length = 8 → s.memHeld = false →
    s.ctxMayWrite m = true →
    Completes (.contextEntryWrite m ⟨8 * i, by omega⟩ data) s fun t => Wrote s t (0x12000000 + 8 * i)
        (toLE 4 (leAt data 0 4 &&& 0xFFFF7FFF) ++ toLE 4 (leAt data 4 4 &&& 0xFFFFFF)) ∧ SameRegs s t []) ∧
  (∀ (m : Fin 8) (off : Fin 65536) (data : List Byte) (s : State), data ≠ [] → 32768 ≤ off.val → off + data.length ≤ 65536 →
    s.memHeld = false → (s.pendingOn pPRF && s.bit Reg.PRF_CTRL 0) = false → s.bit Reg.PRF_STAT 1 = false →
    Completes (.profileShadowWrite m off data) s fun t => Wrote s t (0x12800000 + off) data ∧ SameRegs s t []) ∧
  (∀ (m : Fin 8) (off : Fin 2490368) (data : List Byte) (s : State), data ≠ [] → 0x40000 ≤ off.val →
    off + data.length ≤ 0x80000 → s.memHeld = false → s.bit Reg.LPL_STAT 9 = false →
    Completes (.placementShadowWrite m off data) s fun t => Wrote s t (0x129A0000 + off) data ∧
      t.bit Reg.LPL_STAT 10 = false ∧ t.pendingOn pLPL = false) ∧
  (∀ (m : Fin 8) (l : Fin 12288) (data : List Byte) (s : State), data.length = 4 → s.memHeld = false → m.val = 3 →
    s.mirrorWrites = true →
    Completes (.loopContextWrite m ⟨128 * l + 12, by omega⟩ data) s fun t => (t.loop l).target = leNat data % 65536 ∧
      (∀ k, k ≠ l.val → t.loop k = s.loop k) ∧ SameMem s t ∧ SameRegs s t []) ∧
  (∀ (m : Fin 8) (off : Fin 33554432) (data : List Byte) (s : State), data ≠ [] → off % 8 + data.length ≤ 8 →
    off + data.length ≤ 0x1E03000 → s.memHeld = false → s.mramOpen m (0x14000000 + off) = true →
    Completes (.mramWrite m off data) s fun t => Wrote s t (0x14000000 + off) data ∧
      (t.reg Reg.NVM_WORDS).toNat = satAdd (2 ^ 32 - 1) (s.reg Reg.NVM_WORDS).toNat 1 ∧ SameRegs s t [Reg.NVM_WORDS]) ∧
  (∀ (m : Fin 8) (slot : Fin 2) (data : List Byte) (s : State), data.length = 32 → m.val < 2 → s.memHeld = false →
    s.roleActs = true → s.bit Reg.NVM_STAT 1 = false →
    Completes (.keySlotWrite m slot 0 data) s fun t => Wrote s t (0x15E03000 + 32 * slot) data ∧
      (if slot.val = 0 then t.net.key0 else t.net.key1) = data ∧ t.bit Reg.MGT_STAT (4 + slot) = data.any (· != 0))

/-- R462, R465, R466, R485, R492: MSI-X messages, the PCIe link's state and the SMBus.
Model: The layout of the MSI-X table is presumed from PCI Express (assumption 21). -/
def Obligations.HostInterfaceCommandsComplete : Prop :=
  (∀ (v : Nat) (l : List Nat) (s : State), s.bus.intRise = v :: l → s.bit Reg.HIF_STAT 9 = true →
    Completes .msixMessage s fun t => t.bus.intRise = l ∧ SameMem s t ∧
      (if s.bit Reg.HIF_STAT 10 || s.bit (Reg.HIF_MSIX + 16 * v + 12) 0 then
        t.bit (Reg.HIF_PBA + 4 * (v / 32)) (v % 32) = true ∧ t.outs = s.outs
       else t.outs = .msix v :: s.outs ∧ SameRegs s t [])) ∧
  (∀ (m : Fin 8) (vec : Fin 64) (s : State),
    let a := Reg.HIF_MSIX + 16 * vec.val + 12
    s.accepts m a (s.reg a &&& ~~~ (1 : Word)) = true →
    Completes (.vectorUnmask m vec) s fun t => t.bit a 0 = false ∧
      (s.bit (Reg.HIF_PBA + 4 * (vec / 32)) (vec % 32) = true → s.bit Reg.HIF_STAT 9 = true → s.bit Reg.HIF_STAT 10 = false →
        t.bit (Reg.HIF_PBA + 4 * (vec / 32)) (vec % 32) = false ∧ t.outs = .msix vec :: s.outs) ∧
      SameMem s t ∧ SameRegs s t [a, Reg.HIF_PBA + 4 * (vec.val / 32)]) ∧
  (∀ (speed width : Fin 5) (en mask : Bool) (s : State), speed.val ≠ 0 → (width.val = 1 ∨ width.val = 2 ∨ width.val = 4) →
    s.silent = false → s.bus.perst = false →
    Completes (.pcieLinkChange speed width en mask) s fun t => t.fld Reg.HIF_STAT 0 4 = speed.val ∧
      t.fld Reg.HIF_STAT 4 4 = width.val ∧ t.bit Reg.HIF_STAT 9 = en ∧ t.bit Reg.HIF_STAT 10 = mask ∧ SameMem s t) ∧
  (∀ s : State, s.alertHeld = false → Completes .alertResponse s fun t => t.bus.smbAlert = false ∧ SameMem s t ∧ SameRegs s t []) ∧
  (∀ (v : Word) (pec : Fin 3) (s : State), s.silent = false → pec.val ≠ 2 →
    Completes (.smbAddr v pec) s fun t => t.bus.smbAddr = v ∧ SameMem s t ∧ SameRegs s t []) ∧
  (∀ (v : Word) (pec : Fin 3) (s : State), s.silent = false → pec.val = 1 → s.bus.smbAddr = BitVec.ofNat 32 Reg.THM_WARN →
    s.accepts 7 Reg.THM_WARN v = true →
    Completes (.smbWrite v pec) s fun t => t.fld Reg.THM_WARN 0 8 = fld v 0 8 ∧ t.bus.smbStatus = 0 ∧
      t.bus.smbAddr = s.bus.smbAddr + 4 ∧ SameMem s t ∧ SameRegs s t [Reg.THM_WARN]) ∧
  (∀ s : State, s.acceptsRead 7 s.bus.smbAddr.toNat = true → s.bus.smbAddr.toNat ∉ advancingRegs →
    Completes .smbRead s fun t => t.bus.smbData = s.readWord s.bus.smbAddr.toNat ∧ t.bus.smbStatus = 0 ∧
      t.bus.smbAddr = s.bus.smbAddr + 4 ∧ SameMem s t ∧ SameRegs s t [])

/-- R478, R486: the JTAG instructions, with what Capture-DR then loads where the spec gives it.
Model: What the boundary scan register captures is a free value (assumption 23). -/
def Obligations.JtagCommandsComplete : Prop :=
  (∀ s : State, s.off = false →
    Completes .extest s fun t => t.jtag.ir = 0x00 ∧ t.jtag.squelch = true ∧ SameMem s t ∧ SameRegs s t []) ∧
  (∀ s : State, s.off = false →
    Completes .samplePreload s fun t => t.jtag.ir = 0x02 ∧ t.jtag.squelch = s.jtag.squelch ∧ SameMem s t ∧ SameRegs s t []) ∧
  (∀ s : State, s.off = false →
    Completes .clamp s fun t => t.jtag.ir = 0x03 ∧ t.jtag.squelch = true ∧ SameMem s t ∧ SameRegs s t []) ∧
  (∀ s : State, s.off = false →
    Completes .highz s fun t => t.jtag.ir = 0x04 ∧ t.jtag.squelch = true ∧ SameMem s t ∧ SameRegs s t []) ∧
  (∀ s : State, s.off = false →
    Completes .extestPulse s fun t => t.jtag.ir = 0x05 ∧ t.jtag.squelch = true ∧ SameMem s t ∧ SameRegs s t []) ∧
  (∀ s : State, s.off = false →
    Completes .extestTrain s fun t => t.jtag.ir = 0x06 ∧ t.jtag.squelch = true ∧ SameMem s t ∧ SameRegs s t []) ∧
  (∀ s : State, s.off = false →
    Completes .idcode s fun t => t.jtag.ir = 1 ∧ t.jtag.dr = 0xB10245CB ∧ SameMem s t ∧ SameRegs s t []) ∧
  (∀ s : State, s.off = false → Completes .bypass s fun t => t.jtag.ir = 0xFF ∧ t.jtag.dr = 0 ∧ SameMem s t ∧ SameRegs s t []) ∧
  (∀ (addr data : Word) (s : State), s.acceptsRead 1 addr.toNat = true → addr.toNat ∉ advancingRegs →
    Completes (.memacc false true addr data) s fun t => t.jtag.ir = 0x40 ∧ t.jtag.status = 0 ∧
      t.jtag.data = s.readWord addr.toNat ∧ SameMem s t ∧ SameRegs s t []) ∧
  (∀ s : State, s.off = false → Completes .jtagTrst s fun t => t.jtag.ir = 1 ∧ t.jtag.dr = 0xB10245CB ∧
    t.bus.held = s.bus.held.filter (fun h => h.master != 1) ∧ SameMem s t ∧ SameRegs s t [])


/-- R493, R494, R496: the two inputs, their return, TEST_B, and the flush of the fault log.
Model: The moment of a change of input is an inference (assumption 102). -/
def Obligations.PowerAndFlushCommandsComplete : Prop :=
  (∀ (b : Bool) (mv : BitVec 16) (cycle : Nat) (s : State), (mv.toNat < 4300 ∨ 19000 < mv.toNat) →
    Completes (.vinInvalid b mv cycle) s fun t => t.bit Reg.PWR_STATE (if b then 4 else 3) = false ∧
      (s.off = false → s.pwr.seqCause = none → s.source = (if b then 2 else 1) →
        s.bit Reg.PWR_STATE (if b then 3 else 4) = true → t.source = (if b then 1 else 2))) ∧
  (∀ (b : Bool) (mv : BitVec 16) (cycle : Nat) (s : State), 4500 ≤ mv.toNat → mv.toNat ≤ 18500 →
    Completes (.vinValid b mv cycle) s fun t => t.bit Reg.PWR_STATE (if b then 4 else 3) = true) ∧
  (∀ (cycle : Nat) (s : State), s.bit Reg.PWR_STATE 7 = true → (s.atCycle cycle).agedNs s.pwr.aFrom s.returnDelay = true →
    Completes (.vinReturn cycle) s fun t => t.source = 1 ∧ t.bit Reg.PWR_STATE 7 = false ∧
      t.fld Reg.PWR_CNT 16 16 = satAdd 0xFFFF (s.fld Reg.PWR_CNT 16 16) 1 ∧ t.bit (cReg pPWR OFF_INT_STAT) 1 = true ∧
      SameMem s t ∧ SameRegs s t ([Reg.PWR_STATE, Reg.PWR_CNT] ++ raiseKeys pPWR)) ∧
  (∀ (m : Fin 8) (testB : Bool) (s : State), s.accepts m Reg.PWR_CTRL (BitVec.ofNat 32 (b2n testB)) = true →
    Completes (.testBWrite m testB) s fun t => t.testB = testB ∧
      (testB = true → s.source = 1 → s.bValid = true → t.source = 2) ∧ SameMem s t ∧
      SameRegs s t ([Reg.PWR_CTRL, Reg.PWR_STATE, Reg.PWR_CNT] ++ raiseKeys pPWR)) ∧
  (∀ (m : Fin 8) (en force : Bool) (s : State),
    s.accepts m Reg.FLT_CTRL (BitVec.ofNat 32 (b2n en + 2 + 4 * b2n force)) = true → s.flt.flush = none →
    Completes (.fltFlush m en force) s fun t => t.flt.flush.isSome = true ∧ t.bit Reg.FLT_CTRL 0 = en ∧
      t.bit Reg.FLT_CTRL 2 = force ∧
      SameMemOut s t (fltCopy 0) 0x2000 ∧
      SameRegs s t [Reg.FLT_CTRL, Reg.NVM_WORDS]) ∧
  (∀ (x : Nat) (s : State), s.flt.flush = some x → s.flt.flushQ = [] → s.pwr.seqCause = none →
    Completes .flushDone s fun t => t.flt.flush = none ∧ t.bit (cReg pFLT OFF_INT_STAT) 3 = true ∧
      t.loadN (fltCopy (x / 256 % 2) + 0x40) 8 = (0xF17C + 65536 * (x / 256 % 2) + 2 ^ 32 * (x / 512)) % 2 ^ 64 ∧
      SameMemOut s t (fltCopy (x / 256 % 2) + 0x40) 8 ∧
      SameRegs s t (Reg.NVM_WORDS :: raiseKeys pFLT))

/-- R499, R500, R503, R505, R508, R509: the die sensors, the throttle level and the shutdown.
Model: Dwells counted in evaluations are an inference (assumption 101). -/
def Obligations.ThermalCommandsComplete : Prop :=
  (∀ (l : List (BitVec 16)) (s : State), l.length = 16 → s.off = false → s.flt.inReset = false →
    Completes (.thermalEvaluation l) s fun t => ∀ i, i < 16 → t.fld (Reg.THM_SENS + 4 * i) 16 16 = low 16 (l.getD i 0).toInt) ∧
  (∀ (i : Fin 16) (s : State), s.isDue pTHM i = true →
    Completes (.sensorRetire i) s fun t => (t.sensor i).retired = true ∧ t.bit Reg.THM_SENS_FLT i = true ∧
      t.isDue pTHM i = false ∧ t.bit (cReg pTHM OFF_INT_STAT) 4 = true ∧ SameMem s t) ∧
  (∀ (m : Fin 8) (mask : BitVec 16) (s : State), s.accepts m Reg.THM_SENS_RESTORE (mask.setWidth 32) = true →
    Completes (.sensorRestore m mask) s fun t => (∀ i, i < 16 → bitAt mask.toNat i = true → (t.sensor i).retired = false) ∧
      (∀ i, i < 16 → bitAt mask.toNat i = false → t.sensor i = s.sensor i) ∧ SameMem s t) ∧
  (∀ (m : Fin 8) (floor : Fin 4) (s : State), s.accepts m Reg.THM_CTRL (BitVec.ofNat 32 (16 + floor.val)) = true →
    s.bit Reg.THM_LEVEL 6 = true →
    Completes (.thermalAck m floor) s fun t => t.thm.ack = true ∧ t.fld Reg.THM_CTRL 0 2 = floor.val ∧ SameMem s t) ∧
  (∀ (m : Fin 8) (floor : Fin 4) (s : State), s.accepts m Reg.THM_CTRL (BitVec.ofNat 32 floor.val) = true →
    Completes (.swFloorWrite m floor) s fun t => t.fld Reg.THM_CTRL 0 2 = floor.val ∧
      t.level = max s.hwLevel (max floor.val (floorOf s.validSensors.length)) ∧ SameMem s t) ∧
  (∀ (m : Fin 8) (v : Word) (s : State), s.accepts m Reg.THM_SHUT v = true → fld v 0 8 ≤ s.fld Reg.THM_SHUT 0 8 →
    Completes (.thmShutWrite m v) s fun t => t.fld Reg.THM_SHUT 0 8 = max 125 (fld v 0 8) ∧ SameMem s t ∧
      SameRegs s t [Reg.THM_SHUT]) ∧
  (∀ (analog : Fin 4) (s : State), s.off = false → s.pwr.trip = false → (analog.val = 0 → s.bit Reg.THM_STAT 2 = true) →
    Completes (.thermalShutdown analog) s fun t => t.pwr.trip = true ∧
      (s.pwr.seqCause = none → t.pwr.seqCause = some 2 ∧ t.ilkOut = false))

/-- R410, R440, R441, R443: the watchdog, memory errors and the summary links.
Model: The moment and the number of a region are the model's (assumptions 32, 33). -/
def Obligations.FaultHubCommandsComplete : Prop :=
  (∀ s : State, s.tck.hbAlive = true → s.running = false →
    Completes .heartbeatLoss s fun t => t.tck.hbAlive = false ∧ t.ilkOut = false ∧
      (s.flt.hbStop = true → t.bit Reg.FLT_STAT 1 = true ∧ t.fld Reg.FLT_SEVERE 0 8 = 0x22) ∧ SameMemButReports s t) ∧
  (∀ (r : Fin 10) (addr : Word) (x : Nat) (reader : Option (Fin 8)) (s : State),
    Completes (.uncorrectableEcc r addr x reader) s fun t =>
      t.fld Reg.FLT_ECC 16 16 = satAdd 0xFFFF (s.fld Reg.FLT_ECC 16 16) 1 ∧ t.reg Reg.FLT_SEVERE_ADDR = addr ∧
      (r.val = 1 ∨ r.val = 2 ∨ r.val = 3 ∨ r.val = 4 ∨ r.val = 9 → t.bit Reg.FLT_STAT 1 = true) ∧
      (∀ m, reader = some m → t.bus.last = ⟨m.val, false, addr.toNat, refusalStatus m kEcc, 0⟩)) ∧
  (∀ (page : Fin 192) (s : State), s.implemented page = true →
    Completes (.linkProbe page false) s fun t => page.val ∈ t.flt.stuckLink ∧
      t.bit (pageWord Reg.FLT_LINK page) (page % 32) = true ∧ t.bit (cReg pFLT OFF_INT_STAT) 2 = true ∧ SameMem s t) ∧
  (∀ (page : Fin 192) (s : State), s.implemented page = true →
    Completes (.linkProbe page true) s fun t => t.flt.stuckLink = s.flt.stuckLink.filter (· != page.val) ∧ SameMem s t ∧
      SameRegs s t []) ∧
  (∀ (page : Fin 192) (s : State), s.implemented page = true → s.flt.badLink.contains page.val = false →
    Completes (.pairEqual page true) s fun t => page.val ∈ t.flt.badLink ∧
      t.bit (pageWord Reg.FLT_LINK page) (page % 32) = true ∧ t.bit (cReg pFLT OFF_INT_STAT) 2 = true ∧ SameMem s t) ∧
  (∀ (page : Fin 192) (s : State), s.implemented page = true →
    Completes (.pairEqual page false) s fun t => t.flt.badLink = s.flt.badLink.filter (· != page.val) ∧ SameMem s t ∧
      SameRegs s t [])


/-- R314, R318, R323, R339, R356, R385, R387: frames that arrive are queued on the one port they are forwarded to: a frame of a
VLAN with one other member, a PTP message with the correction it takes as it leaves, and a frame of the host sent directly.
Model: The order of the first steps and the length of a chain are inferences; which buffer is given is a free value, and when the
device's own events come is the model's choice (assumptions 76, 75, 92, 173). -/
def Obligations.FrameCommandsComplete : Prop :=
  (∀ (port : Fin 66) (ago : Nat) (data : List Byte) (rivals : List (Fin 71)) (cycle d : Nat) (s : State),
    (s.atCycle cycle).forwards port data d → s.wins port (rivals.map (·.val)) = true → ptpAt? (s.rxOf port data).rest = none →
    Completes (.supFrameRx ⟨port.val, by omega⟩ (true, data) ago rivals cycle) s fun t => Queued s t d (s.rxOf port data).cls fun f =>
      t.leaving f = s.goesOut port data d ∧ t.ptpKind f.ptp = 0 ∧ SameMem s t) ∧
  (∀ (port : Fin 66) (env : PtpEnv) (ago : Nat) (msg : List Byte) (cycle d : Nat) (p : PtpAt) (s : State),
    let data := env.frame msg
    let x := s.rxOf port data
    (s.atCycle cycle).forwards port data d → ptpAt? x.rest = some p → ptpType x.rest p = 0 → s.ptpToNode x p = false →
    s.bit Reg.NTU_SYNC_WD 16 = false → s.bit Reg.NTU_PTP_CFG 8 = false →
    Completes (.ptpMessage port env ago msg cycle) s fun t => Queued s t d x.cls fun f => t.leaving f = s.goesOut port data d ∧
      t.ptpKind f.ptp = (if s.tcMode = 0 then 0 else if ptpTwoStep x.rest p then 2 else 1) ∧ SameMem s t) ∧
  (∀ (port : Fin 66) (env : PtpEnv) (ago : Nat) (msg : List Byte) (cycle d : Nat) (p : PtpAt) (s : State),
    let data := env.frame (ptpTyped 8 msg)
    let x := s.rxOf port data
    (s.atCycle cycle).forwards port data d → ptpAt? x.rest = some p → ptpType x.rest p = 8 → s.ptpToNode x p = false →
    s.bit Reg.NTU_PTP_CFG 8 = false →
    Completes (.followUp port env ago msg cycle) s fun t => Queued s t d x.cls fun f => t.leaving f = s.goesOut port data d ∧
      t.ptpKind f.ptp = (if s.tcMode = 0 then 0 else 3) ∧ SameMem s t) ∧
  (∀ (port : Fin 66) (env : PtpEnv) (ago : Nat) (msg : List Byte) (cycle d : Nat) (p : PtpAt) (s : State),
    let data := env.frame (ptpTyped 9 msg)
    let x := s.rxOf port data
    (s.atCycle cycle).forwards port data d → ptpAt? x.rest = some p → ptpType x.rest p = 9 → s.ptpToNode x p = false →
    s.bit Reg.NTU_PTP_CFG 8 = false → s.tcMode ≠ 2 →
    Completes (.delayResp port env ago msg cycle) s fun t => Queued s t d x.cls fun f => t.leaving f = s.goesOut port data d ∧
      t.ptpKind f.ptp = (if s.tcMode = 0 then 0 else 3) ∧ SameMem s t) ∧
  (∀ (len : BitVec 16) (port prio : Byte) (vid flags : BitVec 16) (data : List Byte) (cycle : Nat) (ch : List Nat) (s : State),
    let d : TxDesc := ⟨len.toNat, port.toNat, prio.toNat, vid.toNat, flags.toNat, data⟩
    s.txReady = true → d.fits = true → d.direct = true → port.toNat ≤ 65 → s.roleActs = true →
    ((s.atCycle cycle).allocFrame 2 66 d.bytes (d.bytes.length + 4)).1 = some ch → s.buffersFor (d.bytes.length + 4) →
    Completes (.hostTxFrame len port prio vid flags data true cycle) s fun t => Queued s t port.toNat (prio.toNat % 8) fun f => t.leaving f = d.bytes ∧
      t.net.fetch = (s.net.fetch + 1) % s.ringLen 2 ∧ SameMem s t) ∧
  (∀ (port : Fin 66) (sa : BitVec 48) (quanta : BitVec 16) (cycle : Nat) (s : State),
    s.bit (atInst Reg.PORT_CTRL port) 0 = true → s.linkUp port = true → s.portRetired port = false →
    s.bit (atInst Reg.PORT_CTRL port) 4 = true →
    Completes (.pauseFrame port true sa quanta cycle) s fun t => t.bit (atInst Reg.PORT_STAT port) 7 = (quanta != 0) ∧
      (t.netPort port).pauseEnd.isSome = (quanta != 0) ∧ SameMem s t) ∧
  (∀ (port : Fin 66) (s : State), s.bit (atInst Reg.PORT_STAT port) 6 = true →
    let u := s.comes (s.netPort port).pauseAt (s.pauseGap port)
    s.pauseGap port ≤ u.gone (s.netPort port).pauseAt → s.roleActs = true →
    Completes (.pauseRepeat port) s fun t => (t.netPort port).pausePend = some (s.fld (atInst Reg.PORT_PAUSE port) 0 16) ∧
      (t.netPort port).pauseAt = u.frcNow ∧ SameMem s t ∧ SameRegs s t []) ∧
  (∀ (port : Fin 66) (cycle : Nat) (e : BitVec 96) (s : State), (s.netPort port).pauseEnd = some e →
    e.toNat ≤ (s.atCycle cycle).frcNow.toNat →
    Completes (.pauseExpiry port cycle) s fun t => (t.netPort port).pauseEnd = none ∧
      t.bit (atInst Reg.PORT_STAT port) 7 = false ∧ SameMem s t ∧ SameRegs s t [atInst Reg.PORT_STAT port])

/-- R315, R355, R358: the links of the supervisory ports and uplinks, their 1 ms intervals, retirement and restoration.
Model: The end of a 1 ms interval is the sender's (assumption 6). -/
def Obligations.PortCommandsComplete : Prop :=
  (∀ (port : Fin 66) (an : Bool) (s : State), s.bit (atInst Reg.PORT_CTRL port) 0 = true → s.linkUp port = false →
    Completes (.linkUp port an) s fun t => t.linkUp port = true ∧ t.bit (cReg (pSUP port) OFF_INT_STAT) 0 = true ∧
      SameMem s t ∧ SameRegs s t (atInst Reg.PORT_STAT port :: raiseKeys (pSUP port))) ∧
  (∀ (port : Fin 66) (sync : Bool) (s : State), s.linkUp port = true →
    Completes (.linkDown port sync) s fun t => t.linkUp port = false ∧ t.bit (atInst Reg.PORT_STAT port) 1 = sync ∧
      (t.netPort port).down = true ∧ t.bit (cReg (pSUP port) OFF_INT_STAT) 1 = true ∧ SameMem s t ∧
      SameRegs s t (atInst Reg.PORT_STAT port :: raiseKeys (pSUP port))) ∧
  (∀ (port : Fin 66) (rf : Bool) (s : State),
    Completes (.remoteFault port rf) s fun t => t.bit (atInst Reg.PORT_STAT port) 3 = rf ∧ SameMem s t ∧
      SameRegs s t (atInst Reg.PORT_STAT port :: raiseKeys (pSUP port))) ∧
  (∀ (cv : List (Fin 66 × Nat)) (s : State), Completes (.portInterval cv) s fun t =>
    (∀ n, n < 66 → s.bit (atInst Reg.PORT_CTRL n) 0 = true → s.portRetired n = false → (t.netPort n).down = false ∧
      t.reg (atInst Reg.PORT_FCNT n) = BitVec.ofNat 32 (min 255 (t.run (pSUP n) 0)) ∧
      (s.linkUp n = true → (s.netPort n).down = false → (∀ e ∈ cv, e.1.val ≠ n) → t.run (pSUP n) 0 = 0)) ∧ SameMem s t) ∧
  (∀ (port : Fin 66) (s : State), s.isDue (pSUP port) 0 = true →
    Completes (.portRetire port) s fun t => t.portRetired port = true ∧ (∀ q, q < 8 → (t.netQ port q).frames = []) ∧
      t.bit (cReg (pSUP port) OFF_INT_STAT) 2 = true ∧
      SameMemOut s t 0x12C00000 0x400000) ∧
  (∀ (m : Fin 8) (port : Fin 66) (s : State),
    s.accepts m (atInst Reg.PORT_CTRL port) (s.reg (atInst Reg.PORT_CTRL port) ||| 0x100) = true → s.portRetired port = true →
    Completes (.portRestore m port) s fun t => t.portRetired port = false ∧ t.reg (atInst Reg.PORT_FCNT port) = 0 ∧ SameMem s t)

/-- R320 to R328, R352: the forwarding table's commands, learning, aging and scrubbing.
Model: Which of several EMPTY slots is taken is a free value (assumption 92). -/
def Obligations.ForwardingCommandsComplete : Prop :=
  (∀ (m : Fin 8) (s : State), s.accepts m Reg.FWD_CMD (BitVec.ofNat 32 (1)) = true → s.net.cmd = none →
    Completes (.insert m) s fun t => t.net.cmd = some ⟨1, 0, 0, s.entImage 0, s.entImage 4⟩ ∧
      t.bit Reg.FWD_CMD_RES 31 = true ∧ SameMem s t ∧ SameRegs s t [Reg.FWD_CMD_RES]) ∧
  (∀ (m : Fin 8) (s : State), s.accepts m Reg.FWD_CMD (BitVec.ofNat 32 (2)) = true → s.net.cmd = none →
    Completes (.delete m) s fun t => t.net.cmd = some ⟨2, 0, 0, s.entImage 0, s.entImage 4⟩ ∧
      t.bit Reg.FWD_CMD_RES 31 = true ∧ SameMem s t ∧ SameRegs s t [Reg.FWD_CMD_RES]) ∧
  (∀ (m : Fin 8) (s : State), s.accepts m Reg.FWD_CMD (BitVec.ofNat 32 (3)) = true → s.net.cmd = none →
    Completes (.lookup m) s fun t => t.net.cmd = some ⟨3, 0, 0, s.entImage 0, s.entImage 4⟩ ∧
      t.bit Reg.FWD_CMD_RES 31 = true ∧ SameMem s t ∧ SameRegs s t [Reg.FWD_CMD_RES]) ∧
  (∀ (m : Fin 8) (port : Fin 128) (s : State), s.accepts m Reg.FWD_CMD (BitVec.ofNat 32 (4 + 256 * port.val)) = true → s.net.cmd = none →
    Completes (.flushPort m port) s fun t => t.net.cmd = some ⟨4, port.val, 0, s.entImage 0, s.entImage 4⟩ ∧
      t.bit Reg.FWD_CMD_RES 31 = true ∧ SameMem s t ∧ SameRegs s t [Reg.FWD_CMD_RES]) ∧
  (∀ (m : Fin 8) (vid : Fin 4096) (s : State), s.accepts m Reg.FWD_CMD (BitVec.ofNat 32 (5 + 65536 * vid.val)) = true → s.net.cmd = none →
    Completes (.flushVid m vid) s fun t => t.net.cmd = some ⟨5, 0, vid.val, s.entImage 0, s.entImage 4⟩ ∧
      t.bit Reg.FWD_CMD_RES 31 = true ∧ SameMem s t ∧ SameRegs s t [Reg.FWD_CMD_RES]) ∧
  (∀ (m : Fin 8) (s : State), s.accepts m Reg.FWD_CMD (BitVec.ofNat 32 (6)) = true → s.net.cmd = none →
    Completes (.flushLearned m) s fun t => t.net.cmd = some ⟨6, 0, 0, s.entImage 0, s.entImage 4⟩ ∧
      t.bit Reg.FWD_CMD_RES 31 = true ∧ SameMem s t ∧ SameRegs s t [Reg.FWD_CMD_RES]) ∧
  (∀ (k : FwdCmd) (s : State), s.net.cmd = some k →
    Completes .fwdCmdDone s fun t => t.net.cmd = none ∧ t.bit (cReg pFWD OFF_INT_STAT) 0 = true ∧
      t.reg Reg.FWD_CMD_RES = BitVec.ofNat 32 ((s.fwdRun k).1 * 2 ^ 24 + (s.fwdRun k).2.1) ∧
      (k.op = 6 → ∀ i, i < 262144 → kindOf (t.fwdSlot i) ≠ 1) ∧
      SameMemOut s t 0x12C00000 0x400000) ∧
  (∀ (m : Fin 8) (v : Word) (s : State), s.accepts m Reg.FWD_VLAN_DATA2 v = true →
    Completes (.fwdTableDataWrite m 2 v) s fun t =>
      (∀ n, n < 64 → t.member (s.fld Reg.FWD_VLAN_IDX 0 12) n = bitAt (s.reg64 Reg.FWD_VLAN_DATA) n) ∧
      (∀ vid n, vid ≠ s.fld Reg.FWD_VLAN_IDX 0 12 → t.member vid n = s.member vid n) ∧ SameMem s t ∧
      SameRegs s t [Reg.FWD_VLAN_DATA2]) ∧
  (∀ (cycle : Nat) (r : LearnReq) (l : List LearnReq) (s : State), s.net.learn = r :: l →
    Completes (.learn cycle) s fun t => t.net.learn = l ∧
      SameMemOut s t (0x12C00000 + 128 * bucketOf (l2Key r.mac r.vid)) 128) ∧
  (∀ s : State, s.bit Reg.FWD_CTRL 1 = true →
    Completes .agingPass s fun t => t.pass = (s.pass + 1) % 256 ∧
      SameMemOut s t 0x12C00000 0x400000) ∧
  (∀ s : State, Completes .scrub s fun t =>
    (∀ i, i < 262144 → popCount 128 (s.fwdSlot i) % 2 = 1 → t.fwdSlot i = 0) ∧
      SameMemOut s t 0x12C00000 0x400000) ∧
  (∀ (cycle : Nat) (s : State), Completes (.conflictRecordExpiry cycle) s fun t =>
    t.net.conflicts = s.net.conflicts.filter (fun c => decide ((s.atCycle cycle).ntNs < c.at' + 1000000000)) ∧
      SameMem s t ∧ SameRegs s t [])

/-- R331, R337, R339, R350, R353: single buffers, pools and rings.
Model: Which buffer is given is a free value (assumption 92). -/
def Obligations.BufferCommandsComplete : Prop :=
  (∀ (m : Fin 8) (s : State), s.accepts m Reg.BPM_CMD 0x40000000 = true → s.grants 2 = true →
    Completes (.alloc m) s fun t => ∃ h, h < 16384 ∧ t.reg Reg.BPM_CMD_RES = BitVec.ofNat 32 (2 ^ 31 + h) ∧
      (t.buf h).alloc = true ∧ (t.buf h).owner = 70 ∧ (t.buf h).pool = 2 ∧ t.inUse 2 = (s.inUse 2 + 1) % 65536 ∧ SameMem s t) ∧
  (∀ (m : Fin 8) (h : Fin 16384) (s : State), s.accepts m Reg.BPM_CMD (BitVec.ofNat 32 (2 ^ 31 + h.val)) = true →
    (s.buf h).alloc = true → (s.buf h).owner = 70 →
    Completes (.free m h) s fun t => (t.buf h).alloc = false ∧ (∀ k, k ≠ h.val → t.buf k = s.buf k) ∧
      t.reg Reg.BPM_CMD_RES = BitVec.ofNat 32 (2 ^ 31 + h.val) ∧ SameMem s t) ∧
  (∀ (m : Fin 8) (p : Fin 4) (v : Word) (s : State), s.accepts m (Reg.BPM_POOL_CFG0 + 16 * p) v = true →
    s.poolCfgBad (Reg.BPM_POOL_CFG0 + 16 * p) v = false →
    Completes (.bpmPoolCfgWrite m p 0 v) s fun t => t.poolMin p = fld v 0 16 ∧ t.poolMax p = fld v 16 16 ∧ SameMem s t) ∧
  (∀ (m : Fin 8) (s : State), s.accepts m Reg.HPT_CTRL 4 = true → s.fld Reg.HPT_CTRL 0 2 = 0 →
    Completes (.resetRings m) s fun t => (∀ r, r < 3 → t.reg (ringReg r 3) = 0) ∧ t.net.fetch = 0 ∧ t.net.txOpen = [] ∧
      SameMem s t ∧ SameRegs s t [Reg.HPT_CTRL, ringReg 0 3, ringReg 1 3, ringReg 2 3])

/-- R342 to R348: alarm frames and the management agent's sessions.
Model: The order of the checks is an inference, SHA-256 and HMAC are the standards', and the session number is a free value
(assumptions 94, 98, 93). -/
def Obligations.AlarmAndManagementCommandsComplete : Prop :=
  (∀ (port : Fin 66) (eth : EthHdr) (ago : Nat) (payload : List Byte) (cycle : Nat) (s : State),
    let data := padFrame (eth.frame (toBE 2 s.almType ++ payload))
    let p := (s.rxOf port data).rest.drop 2
    (s.rxOf port data).etype = s.almType → s.almType ≠ 0 → (s.atCycle cycle).diverts port data Reg.POL_ADMIT_ALM → leAt p 0 1 = 1 → 46 ≤ p.length →
    leAt p 0x2A 4 = almCrc p → leAt p 4 2 % 16384 ≠ s.node →
    (s.atCycle cycle).almExpire.net.seen.any (fun e => e.1 == leAt p 4 2 % 16384 && e.2.1 == leAt p 6 2) = false →
    Completes (.alarmFrame port eth ago payload cycle) s fun t =>
      (leAt p 4 2 % 16384, leAt p 6 2, (s.atCycle cycle).frcNow) ∈ t.net.seen ∧
      t.bit (cReg pALM OFF_INT_STAT) 0 = true ∧ SameMem s t) ∧
  (∀ (cycle : Nat) (s : State), Completes (.alarmCacheExpiry cycle) s fun t => t.net.seen = s.net.seen.filter
    (fun e => decide (((s.atCycle cycle).frcNow - e.2.2).toNat < 2000000000 * 65536)) ∧ SameMem s t ∧ SameRegs s t []) ∧
  (∀ (m : Fin 8) (kind : Byte) (code : BitVec 16) (s : State),
    s.accepts m Reg.ALM_SEND (BitVec.ofNat 32 (kind.toNat * 65536 + code.toNat)) = true → (kind = 3 ∨ kind = 4) →
    s.bit Reg.ALM_CTRL 1 = true → s.almType ≠ 0 → s.roleActs = true →
    Completes (.almSend m kind code) s fun t => t.fld Reg.ALM_SEQ 0 16 = (s.fld Reg.ALM_SEQ 0 16 + 1) % 65536 ∧
      (s.node, (s.fld Reg.ALM_SEQ 0 16 + 1) % 65536, s.frcNow) ∈ t.net.seen ∧ t.bit (cReg pALM OFF_INT_STAT) 2 = true ∧
      SameMem s t) ∧
  (∀ (m : Fin 8) (w : Fin 2) (v : Word) (s : State), s.accepts m (Reg.ALM_IN_CLEAR + 4 * w) v = true →
    Completes (.almInClear m w v) s fun t =>
      (∀ i, i < 32 → t.bit (Reg.ALM_IN_LEVEL + 4 * w) i = (s.bit (Reg.ALM_IN_LEVEL + 4 * w) i && !bitOf v i)) ∧ SameMem s t ∧
      SameRegs s t [Reg.ALM_IN_LEVEL + 4 * w]) ∧
  (∀ (port : Fin 66) (sa : BitVec 48) (tag : Option (BitVec 16)) (ago : Nat) (target key : BitVec 16) (nonce : BitVec 64)
      (mac : BitVec 256) (cycle : Nat) (s : State),
    let data := s.mgtData sa tag (mgtBody 1 0 target.toNat key.toNat nonce.toNat []) mac
    (s.atCycle cycle).diverts port data Reg.POL_ADMIT_MGT → s.mgtTakes port data = true →
    (s.mgtIn port data).op = 1 →
    Completes (.openSession port sa tag ago target key nonce mac cycle) s fun t =>
      (∃ i, i < 4 ∧ (t.session i).active = true ∧ (t.session i).key = key.toNat ∧ t.bit Reg.MGT_STAT i = true) ∧ SameMem s t) ∧
  (∀ (port : Fin 66) (sa : BitVec 48) (tag : Option (BitVec 16)) (ago : Nat) (sess : Byte) (target key : BitVec 16)
      (seq : BitVec 32) (ops : List (Word × Word)) (mac : BitVec 256) (cycle : Nat) (s : State),
    let data := s.mgtData sa tag (mgtBody 3 sess.toNat target.toNat key.toNat seq.toNat (ops.map fun o => (o.1.toNat, o.2.toNat))) mac
    (s.atCycle cycle).diverts port data Reg.POL_ADMIT_MGT → s.mgtTakes port data = true →
    (s.mgtIn port data).op = 3 → (s.mgtIn port data).sess = sess.toNat → (s.mgtIn port data).nonce = seq.toNat →
    (s.mgtIn port data).ops.all (fun o => o.1 % 4 == 0) = true →
    Completes (.request port sa tag ago sess target key seq ops mac cycle) s fun t =>
      (t.session sess.toNat).last = seq.toNat + 1 ∧ (t.session sess.toNat).active = true ∧ SameMem s t) ∧
  (∀ (port : Fin 66) (sa : BitVec 48) (tag : Option (BitVec 16)) (ago : Nat) (sess : Byte) (target key : BitVec 16)
      (seq : BitVec 32) (mac : BitVec 256) (cycle : Nat) (s : State),
    let data := s.mgtData sa tag (mgtBody 5 sess.toNat target.toNat key.toNat seq.toNat []) mac
    (s.atCycle cycle).diverts port data Reg.POL_ADMIT_MGT → s.mgtTakes port data = true →
    (s.mgtIn port data).op = 5 → (s.mgtIn port data).sess = sess.toNat →
    Completes (.closeSession port sa tag ago sess target key seq mac cycle) s fun t =>
      (t.session sess.toNat).active = false ∧ t.bit Reg.MGT_STAT sess.toNat = false ∧ SameMem s t) ∧
  (∀ (cycle : Nat) (s : State), Completes (.mgtIdleExpiry cycle) s fun t =>
    (∀ i, i < 4 → (s.session i).active = true →
      max 1 (s.fld Reg.MGT_IDLE 0 16) * 1000000 * 65536 ≤ ((s.atCycle cycle).frcNow - (s.session i).idleFrom).toNat →
      (t.session i).active = false ∧ t.bit Reg.MGT_STAT i = false) ∧ SameMem s t)

/-- R356 to R369, R387: the egress queues, gate lists, shapers and buckets.
Model: The moments of these rows are the sender's (assumption 5). -/
def Obligations.SchedulingCommandsComplete : Prop :=
  (∀ (port : Fin 66) (cycle ahead : Nat) (f : QFrame) (l : List QFrame) (s : State),
    let u := s.atCycle cycle
    (s.netPort port).gateOn = false → (s.netPort port).gatePend = none → s.strict7 port = true →
    (s.netQ port 7).frames = f :: l → s.ptpKind f.ptp = 0 → f.desc = none → s.roleActs = true → u.portSends port = true → s.qBlocked port 7 = false →
    s.qShaped port 7 = false → (s.netPort port).txFree.toNat ≤ u.frcNow.toNat → (s.netPort port).pausePend = none →
    Completes (.egressSelect port cycle ahead) s fun t => t.outs = .frame port (s.leaving f) :: s.outs ∧
      (t.netQ port 7).frames = l ∧ SameMem s t) ∧
  (∀ (port : Fin 66) (cycle : Nat) (s : State), Completes (.gateEntryChange port cycle) s fun t =>
    (t.netPort port).entry = (gateNow (s.operList port) (s.atCycle cycle).nt.toNat).1 ∧
      (t.netPort port).gates = (gateNow (s.operList port) (s.atCycle cycle).nt.toNat).2.1 ∧ SameMem s t ∧ SameRegs s t []) ∧
  (∀ (m : Fin 8) (cycle n : Nat) (s : State), (s.atCycle cycle).accepts m Reg.GTE_CMD 1 = true → s.gteSel? = some n →
    s.gateTests n = 0 →
    ((s.atCycle cycle).nt.toNat + 65535) / 65536 + 2 * s.period ≤ s.reg64 (copyOf n Reg.GTE_ADM_BASE) →
    Completes (.gateCommit m cycle) s fun t => (t.netPort n).gatePend = some (s.reg64 (copyOf n Reg.GTE_ADM_BASE)) ∧
      t.reg64 (copyOf n Reg.GTE_PEND_AT) = s.reg64 (copyOf n Reg.GTE_ADM_BASE) ∧ t.reg Reg.GTE_RES = 0 ∧ SameMem s t ∧
      SameRegs s t [copyOf n Reg.GTE_PEND_AT, copyOf n Reg.GTE_PEND_AT + 4, Reg.GTE_RES]) ∧
  (∀ (m : Fin 8) (cycle n st : Nat) (s : State), (s.atCycle cycle).accepts m Reg.GTE_CMD 2 = true → s.gteSel? = some n →
    (s.netPort n).gatePend = some st → (s.atCycle cycle).nt.toNat < 65536 * st →
    Completes (.gateCancel m cycle) s fun t => (t.netPort n).gatePend = none ∧ t.reg Reg.GTE_RES = 4 ∧ SameMem s t ∧
      SameRegs s t (Reg.GTE_RES :: raiseKeys pGTE)) ∧
  (∀ (port : Fin 66) (cycle st : Nat) (s : State), (s.netPort port).gatePend = some st →
    65536 * st ≤ (s.atCycle cycle).nt.toNat →
    Completes (.gateListStart port cycle) s fun t => (t.netPort port).gatePend = none ∧ (t.netPort port).gateOn = true ∧
      t.reg64 (copyOf port Reg.GTE_OPER_BASE) = st % 2 ^ 64 ∧
      t.reg (copyOf port Reg.GTE_OPER_CYCLE) = s.reg (copyOf port Reg.GTE_ADM_CYCLE) ∧
      (∀ i, i < 64 → t.reg (copyOf port (Reg.GTE_OPER_ENTRY + 4 * i)) = s.reg (copyOf port (Reg.GTE_ADM_ENTRY + 4 * i))) ∧
      t.bit (cReg pGTE OFF_INT_STAT) 0 = true ∧ SameMem s t) ∧
  (∀ (m : Fin 8) (reg : Fin 3) (v : Word) (k : Nat) (r : RegRow) (s : State), s.accepts m (Reg.SCH_Q_CFG + 4 * reg) v = true →
    s.qSel? Reg.SCH_SEL = some k → (regRow? (Reg.SCH_Q_CFG + 4 * reg)).map (·.1) = some r →
    Completes (.shaperConfigWrite m reg v) s fun t =>
      t.reg (copyOf k (Reg.SCH_Q_CFG + 4 * reg)) = (s.reg (copyOf k (Reg.SCH_Q_CFG + 4 * reg)) &&& ~~~ BitVec.ofNat 32 (r.rw ||| r.rws))
        ||| (v &&& BitVec.ofNat 32 (r.rw ||| r.rws)) ∧
      SameMem s t ∧ SameRegs s t [copyOf k (Reg.SCH_Q_CFG + 4 * reg)]) ∧
  (∀ s : State, s.wheelDue = true → (s.net.qs.map (·.1)).Nodup →
    Completes .wheelSlot s fun t => t.net.wheel = some s.now ∧ (∀ n q, q < 8 → (t.netQ n q).wait =
      (if s.fld (copyOf (8 * n + q) Reg.WHL_Q_SPB) 0 24 = 0 then (s.netQ n q).wait else (s.netQ n q).wait - 1)) ∧ SameMem s t ∧
      SameRegs s t []) ∧
  (∀ (m : Fin 8) (v : Word) (s : State), s.accepts m Reg.POL_CFG v = true → s.fld Reg.POL_SEL 8 7 ≤ 66 →
    let k := 8 * s.fld Reg.POL_SEL 8 7 + s.fld Reg.POL_SEL 0 3
    Completes (.polCfgWrite m v) s fun t => Sparse.get 0 k t.net.tokens = fld v 16 16 * 64 ∧
      t.fld (copyOf k Reg.POL_CFG) 0 2 = fld v 0 2 ∧ SameMem s t ∧ SameRegs s t [copyOf k Reg.POL_CFG]) ∧
  (∀ (cycle : Nat) (s : State), Completes (.tcEntryExpiry cycle) s fun t => t.tc = s.tc.filter
    (fun e => decide (((s.atCycle cycle).frcNow - e.at').toNat < 1000000000 * 65536)) ∧ SameMem s t ∧ SameRegs s t [])


/-- R379, R389, R390, R392 to R395: network time's rate, offset and step, the time states and the watchdog, the node number, path
delays and PPS.
Model: That a stamp carries how far its moment lies from the command is an inference, and one rounding is a free value, and when
the device's own events come is the model's choice (assumptions 93, 154, 173). -/
def Obligations.NetworkTimeCommandsComplete : Prop :=
  (∀ (m : Fin 8) (v : Word) (s : State), s.accepts m Reg.NTU_RATE_HI v = true → s.ntuState ≠ 2 →
    Completes (.ntuRateWrite m v) s fun t =>
      t.ntu.rate = BitVec.ofNat 40 (s.heldWord Reg.NTU_RATE (s.ntu.rate.toNat % 2 ^ 32) + v.toNat % 256 * 2 ^ 32) ∧ t.nt = s.nt ∧
      SameMem s t ∧ SameRegs s t []) ∧
  (∀ (m : Fin 8) (v : Word) (s : State), s.accepts m (Reg.NTU_OFFSET + 8) v = true → s.ntuState ≠ 2 →
    Completes (.ntuOffsetWrite m v) s fun t =>
      t.ntu.offset = BitVec.ofNat 96 (s.heldWord Reg.NTU_OFFSET (s.ntu.offset.toNat % 2 ^ 32) +
        s.heldWord (Reg.NTU_OFFSET + 4) (s.ntu.offset.toNat / 2 ^ 32 % 2 ^ 32) * 2 ^ 32 + v.toNat * 2 ^ 64) ∧
      t.ntu.rate = s.ntu.rate ∧ SameMem s t ∧ SameRegs s t []) ∧
  (∀ (m : Fin 8) (v : Word) (s : State), s.accepts m Reg.NTU_STEP_HI v = true → s.ntuState ≠ 2 →
    Completes (.ntuStepWrite m v) s fun t =>
      t.nt = s.nt + BitVec.ofInt 96 (sx 64 (s.heldWord Reg.NTU_STEP 0 + v.toNat * 2 ^ 32)) ∧
      t.ntu.rate = s.ntu.rate ∧ SameMem s t ∧ SameRegs s t []) ∧
  (∀ (m : Fin 8) (sync : Bool) (s : State), s.accepts m Reg.NTU_CTRL (BitVec.ofNat 32 (1 + 16 * b2n sync)) = true →
    s.ntuState ≠ 1 → (sync = true ∨ s.bit Reg.NTU_STAT 3 = true ∨ s.fld Reg.NTU_SYNC_WD 0 8 = 0) →
    Completes (.lock m sync) s fun t => t.ntuState = 1 ∧ t.fld Reg.NTU_STAT 4 4 = 0 ∧ t.bit Reg.NTU_STAT 3 = false ∧
      SameMem s t ∧ SameRegs s t [Reg.NTU_STAT, Reg.NTU_WD_LEFT]) ∧
  (∀ (m : Fin 8) (sync : Bool) (s : State), s.accepts m Reg.NTU_CTRL (BitVec.ofNat 32 (2 + 16 * b2n sync)) = true →
    s.ntuState = 1 →
    Completes (.hold m sync) s fun t => t.ntuState = 2 ∧ t.fld Reg.NTU_STAT 4 4 = 0 ∧
      t.bit (cReg pNTU OFF_INT_STAT) 0 = true ∧ SameMem s t ∧
      SameRegs s t ([Reg.NTU_STAT, Reg.NTU_WD_LEFT] ++ raiseKeys pNTU)) ∧
  (∀ (m : Fin 8) (sync : Bool) (s : State), s.accepts m Reg.NTU_CTRL (BitVec.ofNat 32 (3 + 16 * b2n sync)) = true →
    s.ntuState ≠ 0 →
    Completes (.ntuFree m sync) s fun t => t.ntuState = 0 ∧ t.fld Reg.NTU_STAT 4 4 = 0 ∧ SameMem s t ∧
      SameRegs s t [Reg.NTU_STAT, Reg.NTU_WD_LEFT]) ∧
  (∀ (m : Fin 8) (s : State), s.accepts m Reg.NTU_CTRL 16 = true →
    Completes (.sync m) s fun t => t.bit Reg.NTU_STAT 3 = true ∧ t.fld Reg.NTU_WD_LEFT 0 8 = s.fld Reg.NTU_SYNC_WD 0 8 ∧
      t.ntuState = s.ntuState ∧ SameMem s t ∧ SameRegs s t [Reg.NTU_STAT, Reg.NTU_WD_LEFT]) ∧
  (∀ (k : Nat) (s : State), s.fld Reg.NTU_WD_LEFT 0 8 ≠ 0 → s.fld Reg.NTU_SYNC_WD 0 8 ≠ 0 →
    let gone := (s.comes s.ntu.wdFrom s.wdLength).gone s.ntu.wdFrom
    k * s.wdLength ≤ gone → gone < (k + 1) * s.wdLength →
    Completes .syncWdInterval s fun t => t.fld Reg.NTU_WD_LEFT 0 8 = s.fld Reg.NTU_WD_LEFT 0 8 - k ∧
      (s.fld Reg.NTU_WD_LEFT 0 8 ≤ k → s.ntuState = 1 → t.ntuState = 2 ∧ t.bit (cReg pNTU OFF_INT_STAT) 0 = true) ∧
      SameMem s t ∧ SameRegs s t ([Reg.NTU_STAT, Reg.NTU_WD_LEFT] ++ raiseKeys pNTU)) ∧
  (∀ (m : Fin 8) (v : Word) (s : State), s.accepts m Reg.NTU_NODE v = true → v.toNat % 16384 ≠ 16383 →
    Completes (.nodeWrite m v) s fun t => t.node = v.toNat % 16384 ∧ SameMem s t ∧ SameRegs s t [Reg.NTU_NODE]) ∧
  (∀ (m : Fin 8) (port : Fin 66) (v : Word) (s : State), s.accepts m (ntuPort port 2) v = true →
    Completes (.mpdWrite m port v) s fun t => t.reg (ntuPort port 2) = v ∧
      (256 * s.fld Reg.NTU_PTD_STEP 0 20 < ((v.toNat : Int) - (s.reg (ntuPort port 2)).toNat).natAbs →
        t.bit (ntuPort port 4) 31 = true ∧ t.bit (cReg pNTU OFF_INT_STAT) 2 = true) ∧ SameMem s t ∧
      SameRegs s t ([ntuPort port 2, ntuPort port 4, ntuPort port 5, ntuPort port 6] ++ raiseKeys pNTU)) ∧
  (∀ (cycle : Nat) (s : State),
    (match s.ntu.ppsIn with | some p => 65536000000 ≤ ((s.atCycle cycle).frcNow - p).toNat | none => True) →
    Completes (.ppsInEdge cycle) s fun t =>
      (t.reg Reg.NTU_PPS_IN_TS).toNat + (t.reg (Reg.NTU_PPS_IN_TS + 4)).toNat * 2 ^ 32
        + (t.reg (Reg.NTU_PPS_IN_TS + 8)).toNat * 2 ^ 64 = (s.atCycle cycle).nt.toNat ∧
      t.bit (cReg pNTU OFF_INT_STAT) 3 = true ∧ SameMem s t ∧
      SameRegs s t ([Reg.NTU_PPS_IN_TS, Reg.NTU_PPS_IN_TS + 4, Reg.NTU_PPS_IN_TS + 8] ++ raiseKeys pNTU)) ∧
  (∀ (cycle : Nat) (s : State), s.bit Reg.NTU_PPS_CFG 31 = true →
    (match s.ntu.ppsLast with | some l => s.ppsSec l < s.ppsSec (s.atCycle cycle).ntNs | none => True) →
    Completes (.ppsOutRise cycle) s fun t => t.ntu.ppsOut = true ∧ SameMem s t ∧ SameRegs s t []) ∧
  (∀ (s : State), Completes .ppsOutFall s fun t =>
    t.ntu.ppsOut = (s.ntu.ppsOut && decide ((s.comes s.ntu.ppsFrom s.ppsWidth).gone s.ntu.ppsFrom < s.ppsWidth)) ∧
      SameMem s t ∧ SameRegs s t [])


/-- R403, R408, R417 to R419, R425: HELLO, TRIG and DIGEST frames of the mirror link are kept; a DIGEST that has not come by its
deadline is counted.
Model: Which frames' epochs count is an inference (assumption 103). -/
def Obligations.MirrorFramesComplete : Prop :=
  (∀ (frame : List Byte) (f : MirFrame) (s : State), s.mirrorTakes true frame 0x61 f →
    Completes (.hello true frame) s fun t => t.red.hello = some ⟨f.role, leAt f.body 4 4, bitAt (leAt f.body 11 1) 0,
        leAt f.body 10 1, leAt f.body 12 2⟩ ∧ t.red.helloRx = true ∧ t.fld Reg.RED_ROLE 8 4 = f.role ∧
      t.mirrorUp = s.red.helloTx ∧ SameMemButReports s t) ∧
  (∀ (frame : List Byte) (f : MirFrame) (s : State), s.mirrorTakes true frame 0x62 f →
    Completes (.trig true frame) s fun t => t.red.trig = some (f.tick, readTrig f.body) ∧ SameMem s t ∧ SameRegs s t []) ∧
  (∀ (frame : List Byte) (cycle : Nat) (f : MirFrame) (s : State), s.mirrorTakes true frame 0x63 f →
    Completes (.digest true frame cycle) s fun t =>
      t.red.part = some ⟨f.tick, leAt f.body 0 4, leAt f.body 4 8, bitAt (leAt f.body 14 1) 0, bitAt (leAt f.body 14 1) 1,
        bitAt (leAt f.body 14 1) 2, f.role, f.epoch⟩ ∧ t.red.missRun = 0 ∧ t.bit Reg.RED_STAT 7 = false ∧ SameMemButReports s t) ∧
  (∀ (o : DigestSt) (s : State), s.red.own = some o → s.red.compared ≠ some o.tick →
    (s.red.syncAt ≠ some o.tick ∨ s.trapPhase ≠ 6) → (s.role = 2 ∨ s.role = 1 ∧ s.partnerRole = 2) →
    Completes .digestDeadline s fun t => t.red.compared = some o.tick ∧ t.red.missRun = s.red.missRun + 1 ∧
      (t.reg (Reg.RED_CNT + 8)).toNat = satAdd 0xFFFFFFFF (s.reg (Reg.RED_CNT + 8)).toNat 1 ∧ t.bit Reg.RED_STAT 7 = true ∧
      SameMem s t ∧ SameRegs s t ([Reg.RED_CNT + 8, Reg.RED_STAT] ++ raiseKeys pRED)) ∧
  (∀ (frame : List Byte) (f : MirFrame) (s : State), s.mirrorTakes true frame 0x67 f → leAt f.body 0 1 = 6 → s.role = 2 →
    Completes (.claimedFrame true frame) s fun t => t.red.epochAt = some (f.at', f.ep) ∧ t.bit Reg.RED_ROLE 4 = false ∧
      SameMem s t ∧ SameRegs s t [Reg.RED_ROLE]) ∧
  (∀ (frame : List Byte) (f : MirFrame) (s : State), s.mirrorTakes true frame 0x64 f → s.role = 2 →
    Completes (.req true frame) s fun t =>
      t.rce.staging = some ⟨leAt f.body 0 2 % 8192, BitVec.ofNat 64 (leAt f.body 2 8), false, true,
        BitVec.ofNat 64 (leAt f.body 2 8), false⟩ ∧ t.bit Reg.RCE_STAT 2 = true ∧ SameMem s t)

/-- R428 to R430: the Trapeze on both sides: the request and its answer, the bulk copy, the journal that waits during it, the
contexts and the cut, and a context that comes late.
Model: That bulk, loops and cut go each at one moment is the model's choice (assumption 118). -/
def Obligations.TrapezeCopyComplete : Prop :=
  (∀ (frame : List Byte) (f : MirFrame) (s : State), s.mirrorTakes true frame 0x67 f → leAt f.body 0 1 = 1 → s.role = 1 →
    s.bit Reg.RED_CFG 0 = true → s.red.serve = none →
    Completes (.catchReq true frame) s fun t => t.red.serve = some (s.now + 2, 0) ∧ t.red.journal = false ∧
      (s.mirrorUp = true → s.mirDark = false → SentMirror s t) ∧ SameMem s t ∧ SameRegs s t []) ∧
  (∀ (frame : List Byte) (f : MirFrame) (s : State), s.mirrorTakes true frame 0x67 f → leAt f.body 0 1 = 2 →
    s.red.asked = true → f.res ≤ 1 →
    Completes (.catchAck true frame) s fun t => t.red.asked = false ∧ t.trapPhase = 1 ∧ t.bit Reg.CAL_STAT 3 = false ∧
      t.cal.staged = [] ∧ t.cal.force = [] ∧ t.crs.act = {} ∧ t.prt.act = {} ∧
      (∀ a, t.byte a = (if 0x10000000 ≤ a ∧ a < 0x12810000 ∨ 0x129A0000 ≤ a ∧ a < 0x129E0000 then 0 else s.byte a)) ∧
      (∀ i, i < 672 → t.reg (Reg.FAB_RETMAP + 4 * i) = 0) ∧
      SameRegs s t (Reg.RED_TRAP :: Reg.CAL_STAT :: (List.range 672).map fun i => Reg.FAB_RETMAP + 4 * i)) ∧
  (∀ (frame : List Byte) (f : MirFrame) (s : State), s.mirrorTakes true frame 0x65 f → s.trapPhase = 1 → f.seq = s.red.jSeq →
    let es := (readEntries s.red.jRun (bodyEntries f.body)).1
    s.red.queue.length + es.length ≤ journalRoom →
    Completes (.journal true frame) s fun t => t.red.jSeq = f.seq + 1 ∧ t.red.queue = s.red.queue ++
        es.map (fun e => if e.addr % 4 = 1 then { e with word := (reqTick f.tick 32 e.word).toNat } else e) ∧
      SameMem s t ∧ SameRegs s t []) ∧
  (∀ (frame : List Byte) (f : MirFrame) (s : State), s.mirrorTakes true frame 0x66 f → 1 ≤ s.trapPhase → s.trapPhase ≤ 4 →
    f.seq ≠ s.red.snapSeq →
    Completes (.snap true frame) s fun t => t.trapPhase = 0 ∧ t.fld Reg.RED_TRAP 0 4 = 4 ∧
      t.bit (cReg pRED OFF_INT_STAT) 5 = true ∧ SameMem s t ∧ SameRegs s t (Reg.RED_TRAP :: raiseKeys pRED)) ∧
  (∀ (frame : List Byte) (f : MirFrame) (s : State), s.mirrorTakes true frame 0x66 f → 1 ≤ s.trapPhase → s.trapPhase ≤ 4 →
    f.seq = s.red.snapSeq →
    let es := (readEntries s.red.snapRun (bodyEntries f.body)).1
    es.all (fun e => e.addr % 4 == 0 && decide (0x10000000 ≤ e.addr) && decide (e.addr < 0x12810000)) = true →
    Completes (.snap true frame) s fun t => t.red.snapSeq = f.seq + 1 ∧ t.trapPhase = s.trapPhase ∧
      t.mem = (es.foldl (fun (u : State) e => u.putBytes e.addr (toLE 4 e.word)) s).mem ∧ SameRegs s t [Reg.RED_TRAP]) ∧
  (∀ (frame : List Byte) (f : MirFrame) (s : State), s.mirrorTakes true frame 0x66 f → 1 ≤ s.trapPhase → s.trapPhase ≤ 4 →
    f.seq = s.red.snapSeq → s.tooLate f.tick = false →
    let es := (readEntries s.red.snapRun (bodyEntries f.body)).1
    es.all (fun e => e.addr % 4 == 0 && decide (0x12820000 ≤ e.addr) && decide (e.addr < 0x129A0000)) = true →
    Completes (.snap true frame) s fun t => t.red.snapSeq = f.seq + 1 ∧ t.trapPhase = s.trapPhase ∧
      t.red.ctxIn = s.red.ctxIn ++ es.map (fun e => (f.tick, e.addr, e.word)) ∧ SameMem s t ∧ SameRegs s t [Reg.RED_TRAP]) ∧
  (∀ s : State, s.trapPhase = 1 → Completes .trapezeBulkDone s fun t => t.trapPhase = 3) ∧
  (∀ s : State, s.trapPhase = 4 → (∀ e ∈ s.red.ctxIn ++ s.red.cutIn, s.tooLate e.1 = false) →
    Completes .trapezeCutInstalled s fun t => t.trapPhase = 5 ∧ t.red.ctxIn = [] ∧ t.red.cutIn = [] ∧ t.red.past = [] ∧
      t.now = s.now ∧ (s.mirrorUp = true → s.mirDark = false → SentMirror s t) ∧ SameMem s t) ∧
  (∀ s : State, s.trapPhase = 3 ∨ s.trapPhase = 4 →
    Completes .trapezeLateContext s fun t => t.trapPhase = 0 ∧ t.fld Reg.RED_TRAP 0 4 = 6 ∧
      t.bit (cReg pRED OFF_INT_STAT) 5 = true ∧ SameMem s t ∧ SameRegs s t (Reg.RED_TRAP :: raiseKeys pRED))

/-- R431, R432: the end of a Trapeze on both sides: READY, SYNC_AT, RESULT and ABORT.
Model: The moments of these rows are the sender's (assumption 5). -/
def Obligations.TrapezeEndComplete : Prop :=
  (∀ (frame : List Byte) (f : MirFrame) (s : State), s.mirrorTakes true frame 0x67 f → leAt f.body 0 1 = 3 → s.role = 1 →
    s.red.serve ≠ none → s.mirrorUp = true → s.mirDark = false →
    Completes (.ready true frame) s fun t => SentFrame s t (s.mirrorFrame 0x67 s.now 0 (padTo 32 (toLE 1 4 ++
      List.replicate 7 (0 : Byte) ++ toLE 8 (s.now + 4).toNat ++ toLE 2 s.epoch ++ toLE 1 0))) ∧
      SameMem s t ∧ SameRegs s t []) ∧
  (∀ (frame : List Byte) (f : MirFrame) (s : State), s.mirrorTakes true frame 0x67 f → leAt f.body 0 1 = 4 → s.trapPhase = 5 →
    Completes (.syncAt true frame) s fun t => t.trapPhase = 6 ∧ t.red.syncAt = some f.at' ∧ SameMem s t ∧
      SameRegs s t [Reg.RED_TRAP]) ∧
  (∀ (frame : List Byte) (f : MirFrame) (s : State), s.mirrorTakes true frame 0x67 f → leAt f.body 0 1 = 5 → s.red.serve ≠ none →
    Completes (.result true frame) s fun t => t.red.serve = none ∧ t.red.journal = (f.res == 1 && s.red.journal) ∧
      t.bit (cReg pRED OFF_INT_STAT) 5 = true ∧ SameMem s t ∧ SameRegs s t (raiseKeys pRED)) ∧
  (∀ (frame : List Byte) (f : MirFrame) (s : State), s.mirrorTakes true frame 0x67 f → leAt f.body 0 1 = 7 → s.trapRuns = true →
    Completes (.mirrorAbort true frame) s fun t => t.trapPhase = 0 ∧ t.red.asked = false ∧ t.fld Reg.RED_TRAP 0 4 = 8 ∧
      t.bit (cReg pRED OFF_INT_STAT) 5 = true ∧ SameMem s t ∧ SameRegs s t (Reg.RED_TRAP :: raiseKeys pRED)) ∧
  (∀ (frame : List Byte) (f : MirFrame) (s : State), s.mirrorTakes true frame 0x67 f → leAt f.body 0 1 = 7 →
    s.trapRuns = false → s.red.serve ≠ none →
    Completes (.mirrorAbort true frame) s fun t => t.red.serve = none ∧ t.red.journal = false ∧
      t.bit (cReg pRED OFF_INT_STAT) 5 = true ∧ SameMem s t ∧ SameRegs s t (raiseKeys pRED))

/-- R18, R20, R51, R54, R62, R204, R285: the phases of a tick take place, each once, and a boundary numbers the next tick; the
first boundary after a start takes the number of its grid point.
Model: That each phase is a row, and what stands in for one left out, are the model's choices (assumption 7). -/
def Obligations.TickPhasesComplete : Prop :=
  (∀ s : State, s.running = true → s.tck.startAt = none → s.finishTick.running = true → s.finishTick.tck.startAt = none →
    Completes .tickBoundary s fun t => t.now = s.now + 1) ∧
  (∀ (j g : Nat) (s : State), s.running = false → s.tck.window = none → s.tck.startAt = some (j, g) →
    Completes .tickBoundary s fun t => t.now = BitVec.ofNat 64 j) ∧
  (∀ s : State, s.running = true →
    Completes .triggerCutoff s fun t => t.evt.closed = true ∧ t.now = s.now ∧ SameMem s t ∧ SameRegs s t [] ∧
      (s.evt.closed = false → t.evt.ext = ⟨s.evt.pinEv, s.pinMask, s.evt.almEv, s.almLevels, s.prt.cmds.take s.cmdRoom,
        s.rce.safeAt.contains (s.now + 2)⟩)) ∧
  (∀ (lanes : List LaneFacts) (mirror : Fin 16) (s : State), s.running = true → s.tck.judged ≠ some s.now →
    Completes (.computeWindowOpen lanes mirror) s fun t => t.now = s.now ∧ t.tck.judged = some s.now ∧
      t.tck.window = (if t.tck.noWindow then none else some s.now) ∧ SameMemButReports s t) ∧
  (∀ s : State, s.tck.judged = some s.now → s.mea.losAt ≠ some s.now →
    Completes .losEvaluation s fun t => t.now = s.now ∧ t.mea.losAt = some s.now ∧ SameMem s t) ∧
  (∀ (stalls : List (Fin 32 × Nat)) (s : State), s.tck.window = some s.now → s.rce.composed = false →
    Completes (.composeState stalls) s fun t => t.now = s.now ∧ t.rce.composed = true ∧ SameMem s t) ∧
  (∀ (faults : List (Fin 32)) (corr : List (Fin 32 × Nat)) (n : Tick) (s : State), s.tck.window = some n →
    (n ≠ s.now ∨ s.running = false) →
    Completes (.windowClose faults corr) s fun t => t.now = s.now ∧ t.tck.window = none ∧ SameMemButReports s t)

/-- R278, R288: a measurement window ends and the next begins; MEA_WIN and MEA_CTRL act on the window in progress.
Model: That exports are made within one command is the model's choice (assumption 67). -/
def Obligations.MeasurementCommandsComplete : Prop :=
  (∀ s : State, s.windowDue = true →
    Completes .meaWindowEnd s fun t => t.mea.start = s.mea.endAt + 1 ∧ t.mea.isPartial = false ∧
      t.mea.endAt = BitVec.ofNat 64 (((s.mea.endAt + 1).toNat / t.winLen + 1) * t.winLen - 1) ∧
      t.reg Reg.MEA_WIN_AT = (s.mea.endAt + 1).setWidth 32 ∧ t.mea.out = [] ∧ t.mea.hist = [] ∧ SameMem s t) ∧
  (∀ (m : Fin 8) (v : Word) (s : State), s.accepts m Reg.MEA_WIN v = true → s.orphaned = false → s.windowDue = false →
    let b := max s.now.toNat s.mea.start.toNat
    Completes (.meaWinWrite m v) s fun t => t.fld Reg.MEA_WIN 0 20 = fld v 0 20 ∧ t.mea.start = s.mea.start ∧
      (s.mea.start.toNat ≤ s.now.toNat → t.mea.isPartial = true) ∧
      t.mea.endAt = BitVec.ofNat 64 ((b / t.winLen + 1) * t.winLen - 1) ∧ SameMem s t ∧ SameRegs s t [Reg.MEA_WIN]) ∧
  (∀ (m : Fin 8) (v : Word) (s : State), s.accepts m Reg.MEA_WIN v = true → s.orphaned = false → s.windowDue = true →
    Completes (.meaWinWrite m v) s fun t => t.fld Reg.MEA_WIN 0 20 = fld v 0 20 ∧ t.mea.start = s.mea.endAt + 1 ∧
      t.mea.endAt = BitVec.ofNat 64 ((max s.now.toNat (s.mea.endAt + 1).toNat / t.winLen + 1) * t.winLen - 1) ∧ SameMem s t) ∧
  (∀ (m : Fin 8) (v : Word) (s : State), s.accepts m Reg.MEA_CTRL v = true → s.mstate = 0 → s.windowDue = false →
    Completes (.meaEnWrite m v) s fun t => t.bit Reg.MEA_CTRL 0 = bitOf v 0 ∧ t.fbit Reg.MEA_CTRL 0 = bitOf v 0 ∧
      t.mea.on = (bitOf v 0 && (s.mea.on || decide (s.now.toNat < s.mea.start.toNat))) ∧ SameMem s t ∧
      SameRegs s t [Reg.MEA_CTRL]) ∧
  (∀ (m : Fin 8) (v : Word) (s : State), s.accepts m Reg.MEA_CTRL v = true → s.mstate = 0 → s.windowDue = true →
    bitOf v 0 = false →
    Completes (.meaEnWrite m v) s fun t => t.bit Reg.MEA_CTRL 0 = false ∧ t.mea.on = false ∧
      t.mea.start = s.mea.endAt + 1 ∧ SameMem s t)

/-- R291 to R295, R298, R300: a calibration pass starts, its measurements follow in order, an attempt that takes too long
ends with TIMEOUT, and a pass is aborted.
Model: That the settings are read at each measurement is an inference, and two quotients are free values (assumptions 64, 65). -/
def Obligations.CalibrationPassComplete : Prop :=
  (∀ (m : Fin 8) (topo : Topo) (s : State), s.accepts m Reg.CAL_CTRL 1 = true → s.role = 0 → s.topo = some topo →
    s.calBusy = false → s.calRangeBad topo = false →
    let el := s.calElems.filterMap fun x => (topo.slotOf? x).map fun sl => s.calTake x sl
    el.any (·.on) = true →
    Completes (.calPassStart m) s fun t => t.bit Reg.CAL_STAT 0 = true ∧ t.reg Reg.CAL_OP_RES = 0 ∧
      (t.cal.pass.map fun p => (p.phase, p.elems.map (·.slot), p.begun)) = some (0, el.map (·.slot), s.now) ∧ SameMem s t ∧
      SameRegs s t [Reg.CAL_OP_RES, Reg.CAL_STAT]) ∧
  (∀ (p : CalPass) (s : State), s.cal.pass = some p → s.calDue p = true → p.phase ≤ 2 →
    let q := p.mapOn fun e => if p.phase = 0 then s.calRef p e else if p.phase = 1 then s.calHeater p e else s.calSweepA p e
    q.elems.any (·.on) = true →
    Completes .calMeasurementDone s fun t => (t.cal.pass.map fun r => (r.phase, r.step, r.m)) = some
        (if p.phase = 0 then (if p.kind = 0 then 1 else 2) else if p.phase = 1 then (if p.step + 1 < s.calNb then 1 else 2)
          else if p.step + 1 < s.calNa then 2 else 3,
         if p.phase = 1 ∧ p.step + 1 < s.calNb ∨ p.phase = 2 ∧ p.step + 1 < s.calNa then p.step + 1 else 0,
         s.calNext) ∧ SameMem s t ∧ SameRegs s t [Reg.CAL_STAT]) ∧
  (∀ (p : CalPass) (s : State), s.cal.pass = some p → s.bit Reg.CAL_STAT 1 = false →
    (s.reg Reg.CAL_TIMEOUT).toNat < (s.now - p.begun).toNat → p.elems.any (·.again.isSome) = false →
    (p.elems.map (·.slot)).Nodup →
    Completes .calAttemptTimeout s fun t => t.cal.pass = none ∧ t.bit Reg.CAL_STAT 0 = false ∧
      (∀ e ∈ p.elems, e.on = true → (Sparse.get ({} : CalRec) e.slot t.cal.results).status = 10) ∧
      t.bit (cReg pCAL OFF_INT_STAT) 0 = true ∧ SameMem s t ∧
      SameRegs s t (Reg.CAL_RES_SUM :: Reg.CAL_STAT :: raiseKeys pCAL)) ∧
  (∀ (m : Fin 8) (s : State), s.accepts m Reg.CAL_CTRL 2 = true → s.cal.pass ≠ none →
    Completes (.calAbort m) s fun t => t.cal.pass = none ∧ t.bit Reg.CAL_STAT 0 = false ∧
      t.bit (cReg pCAL OFF_INT_STAT) 0 = true ∧ SameMem s t ∧
      SameRegs s t (Reg.CAL_RES_SUM :: Reg.CAL_STAT :: raiseKeys pCAL))

/-- R301, R305, R306: the staging of the chosen bank of MRAM and the store of results into the other one.
Model: That the completion row carries the bytes is an inference (assumption 52). -/
def Obligations.CalibrationBanksComplete : Prop :=
  (∀ (m : Fin 8) (s : State), s.accepts m Reg.CAL_CTRL 4 = true → s.roleActs = true → s.calBusy = false →
    Completes (.calStage m) s fun t => t.bit Reg.CAL_STAT 2 = true ∧ t.reg Reg.CAL_OP_RES = 0 ∧ SameMem s t ∧
      SameRegs s t [Reg.CAL_OP_RES, Reg.CAL_STAT]) ∧
  (∀ s : State, s.bit Reg.CAL_STAT 2 = true →
    Completes .calStageDone s fun t => t.bit Reg.CAL_STAT 2 = false ∧ t.bit (cReg pCAL OFF_INT_STAT) 2 = true ∧
      (match chooseBank (s.calSeq? 0) (s.calSeq? 1) with
        | some b => t.cal.staged = s.calTable b ∧ t.cal.stagedBank = some b ∧ t.bit Reg.CAL_STAT 3 = true
        | none => t.cal.staged = s.cal.staged ∧ t.reg Reg.CAL_OP_RES = 8) ∧ SameMem s t ∧
      SameRegs s t ([Reg.CAL_STAT, Reg.CAL_SEQ_A, Reg.CAL_SEQ_B, Reg.CAL_OP_RES] ++ raiseKeys pCAL)) ∧
  (∀ (m : Fin 8) (s : State), s.accepts m Reg.CAL_CTRL 8 = true → s.roleActs = true → s.calBusy = false →
    s.cal.results.any (·.2.status == 1) = true →
    Completes (.calStore m) s fun t => t.bit Reg.CAL_STAT 4 = true ∧ t.reg Reg.CAL_OP_RES = 0 ∧
      t.loadN (s.otherBank + 0x40) 8 = 0 ∧ SameMemOut s t (s.otherBank + 0x40) 8 ∧
      SameRegs s t [Reg.CAL_OP_RES, Reg.CAL_STAT]) ∧
  (∀ s : State, s.bit Reg.CAL_STAT 4 = true → Memory.wf s.mem = true → s.cal.results.all (fun e => decide (e.1 < 12288)) = true →
    Completes .calStoreDone s fun t => t.bit Reg.CAL_STAT 4 = false ∧ t.bit (cReg pCAL OFF_INT_STAT) 1 = true ∧
      t.loadN s.otherBank 4 = 0x424C4143 ∧ t.loadN (s.otherBank + 8) 4 = s.nextCalSeq ∧
      t.loadN (s.otherBank + 0x44) 4 = s.nextCalSeq ∧ SameMemOut s t s.otherBank (0x1000 + 786432) ∧
      SameRegs s t ([Reg.CAL_STAT, Reg.CAL_SEQ_A, Reg.CAL_SEQ_B] ++ raiseKeys pCAL))
end

