-- ==== Sys2Proof/Laws/Bits.lean ====
section
/-! SUPPORT. What a field or a bit of a word reads as after a field was replaced. -/

namespace Sys2Proof.Machine

@[simp] theorem b2n_true : b2n true = 1 := rfl
@[simp] theorem b2n_false : b2n false = 0 := rfl
theorem b2n_le (b : Bool) : b2n b ≤ 1 := by cases b <;> decide

/-- The bits of a word with one field replaced. -/
theorem putBits_testBit (w : Word) (lo len v j : Nat) (h : lo + len ≤ 32) :
    (putBits w lo len v).toNat.testBit j = if lo ≤ j ∧ j < lo + len then v.testBit (j - lo) else w.toNat.testBit j := by
  have hw := w.isLt
  have e1 : bits w.toNat lo len * 2 ^ lo ≤ w.toNat := by
    unfold bits
    rw [Nat.shiftRight_eq_div_pow]
    exact Nat.le_trans (Nat.mul_le_mul_right _ (Nat.mod_le _ _)) (Nat.div_mul_le_self _ _)
  have e2 : w.toNat = (w.toNat >>> (lo + len)) * 2 ^ (lo + len) + bits w.toNat lo len * 2 ^ lo + w.toNat % 2 ^ lo := by
    unfold bits
    rw [Nat.shiftRight_eq_div_pow, Nat.shiftRight_eq_div_pow, Nat.pow_add, ← Nat.div_div_eq_div_mul]
    have a := Nat.div_add_mod w.toNat (2 ^ lo)
    have b := Nat.div_add_mod (w.toNat / 2 ^ lo) (2 ^ len)
    calc w.toNat = 2 ^ lo * (w.toNat / 2 ^ lo) + w.toNat % 2 ^ lo := a.symm
      _ = 2 ^ lo * (2 ^ len * (w.toNat / 2 ^ lo / 2 ^ len) + w.toNat / 2 ^ lo % 2 ^ len) + w.toNat % 2 ^ lo := by rw [b]
      _ = _ := by rw [Nat.mul_add]; simp only [Nat.mul_comm, Nat.mul_assoc]
  have vlt : v % 2 ^ len < 2 ^ len := Nat.mod_lt _ (Nat.two_pow_pos _)
  have lowlt : w.toNat % 2 ^ lo < 2 ^ lo := Nat.mod_lt _ (Nat.two_pow_pos _)
  have e3 : w.toNat - bits w.toNat lo len * 2 ^ lo + v % 2 ^ len * 2 ^ lo
      = 2 ^ (lo + len) * (w.toNat >>> (lo + len)) + (2 ^ lo * (v % 2 ^ len) + w.toNat % 2 ^ lo) := by
    rw [Nat.mul_comm (2 ^ (lo + len)), Nat.mul_comm (2 ^ lo)]
    omega
  have inner : 2 ^ lo * (v % 2 ^ len) + w.toNat % 2 ^ lo < 2 ^ (lo + len) := by
    rw [Nat.pow_add]
    calc 2 ^ lo * (v % 2 ^ len) + w.toNat % 2 ^ lo < 2 ^ lo * (v % 2 ^ len) + 2 ^ lo := by omega
      _ = 2 ^ lo * (v % 2 ^ len + 1) := by rw [Nat.mul_add, Nat.mul_one]
      _ ≤ 2 ^ lo * 2 ^ len := Nat.mul_le_mul_left _ vlt
  have bound : w.toNat - bits w.toNat lo len * 2 ^ lo + v % 2 ^ len * 2 ^ lo < 2 ^ 32 := by
    rw [e3]
    have p : 2 ^ (lo + len) * (w.toNat >>> (lo + len) + 1) ≤ 2 ^ 32 := by
      obtain ⟨d, hd⟩ : ∃ d, 32 = lo + len + d := ⟨32 - (lo + len), by omega⟩
      have : w.toNat >>> (lo + len) < 2 ^ d := by
        rw [Nat.shiftRight_eq_div_pow, Nat.div_lt_iff_lt_mul (Nat.two_pow_pos _), ← Nat.pow_add, Nat.add_comm d, ← hd]
        exact hw
      have q : (2 : Nat) ^ 32 = 2 ^ (lo + len) * 2 ^ d := by rw [← Nat.pow_add, ← hd]
      rw [q]
      exact Nat.mul_le_mul_left _ this
    rw [Nat.mul_add, Nat.mul_one] at p
    omega
  unfold putBits
  rw [BitVec.toNat_ofNat, Nat.mod_eq_of_lt bound, e3, Nat.testBit_two_pow_mul_add _ inner]
  by_cases c : j < lo + len
  · rw [if_pos c, Nat.testBit_two_pow_mul_add _ lowlt]
    by_cases d : j < lo
    · rw [if_pos d, if_neg (by omega), Nat.testBit_mod_two_pow]; simp [d]
    · rw [if_neg d, if_pos (by omega), Nat.testBit_mod_two_pow]
      have : j - lo < len := by omega
      simp [this]
  · rw [if_neg c, if_neg (by omega), Nat.testBit_shiftRight]
    congr 1; omega

/-- A bit outside a replaced field. -/
theorem bitOf_putBits_other (w : Word) {lo len v i : Nat} (h : lo + len ≤ 32) (hi : i < lo ∨ lo + len ≤ i) :
    bitOf (putBits w lo len v) i = bitOf w i := by
  unfold bitOf; rw [putBits_testBit _ _ _ _ _ h, if_neg (by omega)]

/-- A bit just replaced. -/
theorem bitOf_putBits_one (w : Word) {i : Nat} (b : Bool) (h : i < 32) : bitOf (putBits w i 1 (b2n b)) i = b := by
  unfold bitOf; rw [putBits_testBit _ _ _ _ _ (by omega), if_pos (by omega)]
  cases b <;> simp

/-- A bit after one bit was replaced. -/
theorem bitOf_putBits_bit (w : Word) {i j : Nat} (b : Bool) (h : i < 32) :
    bitOf (putBits w i 1 (b2n b)) j = if j = i then b else bitOf w j := by
  split
  · rename_i e; subst e; exact bitOf_putBits_one w b h
  · exact bitOf_putBits_other w (by omega) (by omega)

/-- A field just replaced. -/
theorem fld_putBits_same (w : Word) {lo len v : Nat} (h : lo + len ≤ 32) : fld (putBits w lo len v) lo len = v % 2 ^ len := by
  apply Nat.eq_of_testBit_eq
  intro j
  unfold fld bits
  rw [Nat.testBit_mod_two_pow, Nat.testBit_mod_two_pow, Nat.testBit_shiftRight, putBits_testBit _ _ _ _ _ h]
  by_cases c : j < len
  · rw [if_pos (by omega)]; simp [c]
  · simp [c]

/-- A field apart from a replaced one. -/
theorem fld_putBits_other (w : Word) {lo len v lo' len' : Nat} (h : lo + len ≤ 32) (hd : lo' + len' ≤ lo ∨ lo + len ≤ lo') :
    fld (putBits w lo len v) lo' len' = fld w lo' len' := by
  apply Nat.eq_of_testBit_eq
  intro j
  unfold fld bits
  rw [Nat.testBit_mod_two_pow, Nat.testBit_mod_two_pow, Nat.testBit_shiftRight, Nat.testBit_shiftRight,
    putBits_testBit _ _ _ _ _ h]
  by_cases c : j < len'
  · rw [if_neg (by omega)]
  · simp [c]

/-- A bit of a number as a word. -/
theorem bitOf_ofNat {n i : Nat} (h : i < 32) : bitOf (BitVec.ofNat 32 n) i = n.testBit i := by
  unfold bitOf
  rw [BitVec.toNat_ofNat, Nat.testBit_mod_two_pow]; simp [h]

/-- A field of a number as a word. -/
theorem fld_ofNat {n lo len : Nat} (h : lo + len ≤ 32) : fld (BitVec.ofNat 32 n) lo len = bits n lo len := by
  apply Nat.eq_of_testBit_eq
  intro j
  unfold fld bits
  rw [Nat.testBit_mod_two_pow, Nat.testBit_mod_two_pow, Nat.testBit_shiftRight, Nat.testBit_shiftRight, BitVec.toNat_ofNat,
    Nat.testBit_mod_two_pow]
  by_cases c : j < len
  · have : lo + j < 32 := by omega
    simp [this]
  · simp [c]

/-- A field is below its power of two. -/
theorem fld_lt (w : Word) (lo len : Nat) : fld w lo len < 2 ^ len := Nat.mod_lt _ (Nat.two_pow_pos _)

end Sys2Proof.Machine
end

