-- ==== Sys2Proof/Laws/Sparse.lean ====
section
/-! SUPPORT. Reading, writing and canonical form of sparse tables, and of memory, which is one of them. -/

namespace Sys2Proof.Machine

@[simp] theorem Sparse.get_nil {α : Type} (d : α) (k : Nat) : Sparse.get d k [] = d := rfl

variable {α : Type}

/-- Entering one key leaves what every other key reads as. -/
theorem Sparse.get_insert_other (e v : α) {k j : Nat} (h : j ≠ k) (m : Sparse α) :
    Sparse.get e j (Sparse.insert k v m) = Sparse.get e j m := by
  induction m with
  | nil => simp [Sparse.insert, Sparse.get, h]
  | cons x t ih =>
    obtain ⟨k', v'⟩ := x
    simp only [Sparse.insert]
    split
    · simp [Sparse.get, h]
    · split
      · rename_i hk; subst hk; simp [Sparse.get, h]
      · simp only [Sparse.get, ih]

/-- A key, just entered, reads as the value. -/
theorem Sparse.get_insert_same (e v : α) (k : Nat) (m : Sparse α) : Sparse.get e k (Sparse.insert k v m) = v := by
  induction m with
  | nil => simp [Sparse.insert, Sparse.get]
  | cons x t ih =>
    obtain ⟨k', v'⟩ := x
    simp only [Sparse.insert]
    split
    · simp [Sparse.get]
    · split
      · simp [Sparse.get]
      · rename_i hk; rw [Sparse.get, if_neg hk]; exact ih

/-- A key taken out reads as the default. -/
theorem Sparse.get_drop_same (e : α) (k : Nat) (m : Sparse α) : Sparse.get e k (m.filter fun x => x.1 != k) = e := by
  induction m with
  | nil => rfl
  | cons x t ih =>
    obtain ⟨k', v'⟩ := x
    rw [List.filter_cons]
    split
    · rename_i hk; rw [Sparse.get, if_neg (fun h => by simp [h] at hk)]; exact ih
    · exact ih

/-- Taking out one key leaves what every other key reads as. -/
theorem Sparse.get_drop_other (e : α) {k j : Nat} (h : j ≠ k) (m : Sparse α) :
    Sparse.get e j (m.filter fun x => x.1 != k) = Sparse.get e j m := by
  induction m with
  | nil => rfl
  | cons x t ih =>
    obtain ⟨k', v'⟩ := x
    rw [List.filter_cons]
    split
    · simp only [Sparse.get, ih]
    · rename_i hk
      have : k' = k := by simpa using hk
      rw [ih, Sparse.get, if_neg (by omega)]

variable [DecidableEq α]

/-- A write takes the key out or enters it. -/
theorem Sparse.put_eq (d v : α) (k : Nat) (m : Sparse α) :
    Sparse.put d k v m = if v = d then m.filter (fun e => e.1 != k) else Sparse.insert k v m := by cases m <;> rfl

/-- Writing one key leaves what every other key reads as. -/
theorem Sparse.get_put_other (d e v : α) {k j : Nat} (h : j ≠ k) (m : Sparse α) :
    Sparse.get e j (Sparse.put d k v m) = Sparse.get e j m := by
  rw [Sparse.put_eq]
  split
  · exact Sparse.get_drop_other e h m
  · exact Sparse.get_insert_other e v h m

/-- A key, just written, reads as the value written. -/
theorem Sparse.get_put_same (d v : α) (k : Nat) (m : Sparse α) : Sparse.get d k (Sparse.put d k v m) = v := by
  rw [Sparse.put_eq]
  split
  · rename_i h; rw [Sparse.get_drop_same, h]
  · exact Sparse.get_insert_same d v k m

/-- What a table reads as after a write. -/
theorem Sparse.get_put (d v : α) (k j : Nat) (m : Sparse α) :
    Sparse.get d j (Sparse.put d k v m) = if j = k then v else Sparse.get d j m := by
  split
  · rename_i h; subst h; exact Sparse.get_put_same d v j m
  · rename_i h; exact Sparse.get_put_other d d v h m

/-- A table in canonical form above `lo` is one above every smaller bound. -/
theorem Sparse.wfFrom_weaken {d : Nat → α} {m : Sparse α} {lo : Nat} {lo' : Option Nat}
    (h : Sparse.wfFrom d (some lo) m = true) (hl : ∀ l, lo' = some l → l ≤ lo) : Sparse.wfFrom d lo' m = true := by
  cases m with
  | nil => rfl
  | cons x t =>
    obtain ⟨k, v⟩ := x
    simp only [Sparse.wfFrom, Bool.and_eq_true, decide_eq_true_eq] at h ⊢
    refine ⟨⟨?_, h.1.2⟩, h.2⟩
    cases lo' with
    | none => rfl
    | some l => have := hl l rfl; simp only [decide_eq_true_eq]; omega

/-- Keeping some of the entries keeps the canonical form. -/
theorem Sparse.filter_wfFrom {d : Nat → α} (p : Nat × α → Bool) {m : Sparse α} {lo : Option Nat}
    (h : Sparse.wfFrom d lo m = true) : Sparse.wfFrom d lo (m.filter p) = true := by
  induction m generalizing lo with
  | nil => rfl
  | cons x t ih =>
    obtain ⟨k, v⟩ := x
    simp only [Sparse.wfFrom, Bool.and_eq_true, decide_eq_true_eq] at h
    have h1 := h.1.1
    rw [List.filter_cons]
    split
    · simp only [Sparse.wfFrom, Bool.and_eq_true, decide_eq_true_eq]
      exact ⟨h.1, ih h.2⟩
    · refine Sparse.wfFrom_weaken (ih h.2) fun l hl => ?_
      subst hl
      simp only [decide_eq_true_eq] at h1
      omega

/-- Writing keeps the canonical form. -/
theorem Sparse.put_wfFrom {d : Nat → α} {m : Sparse α} {lo : Option Nat} (k : Nat) (v : α)
    (h : Sparse.wfFrom d lo m = true) (hl : ∀ l, lo = some l → l < k) :
    Sparse.wfFrom d lo (Sparse.put (d k) k v m) = true := by
  rw [Sparse.put_eq]
  split
  · exact Sparse.filter_wfFrom _ h
  · rename_i hv
    induction m generalizing lo with
    | nil =>
      cases lo with
      | none => simp [Sparse.insert, Sparse.wfFrom, hv]
      | some l => simp [Sparse.insert, Sparse.wfFrom, hv, hl l rfl]
    | cons x t ih =>
      obtain ⟨k', v'⟩ := x
      simp only [Sparse.wfFrom, Bool.and_eq_true, decide_eq_true_eq] at h
      simp only [Sparse.insert]
      split
      · rename_i hk
        simp only [Sparse.wfFrom, Bool.and_eq_true, decide_eq_true_eq]
        refine ⟨⟨?_, hv⟩, ⟨hk, h.1.2⟩, h.2⟩
        cases lo with
        | none => rfl
        | some l => simpa using hl l rfl
      · split
        · rename_i hk; subst hk
          simp only [Sparse.wfFrom, Bool.and_eq_true, decide_eq_true_eq]
          exact ⟨⟨h.1.1, hv⟩, h.2⟩
        · simp only [Sparse.wfFrom, Bool.and_eq_true, decide_eq_true_eq]
          exact ⟨h.1, ih h.2 fun l hl' => by injection hl' with e; omega⟩

/-- Two canonical stretches, the second above every key of the first, make one. -/
theorem Sparse.append_wfFrom {d : Nat → α} {a b : Sparse α} {lo : Option Nat} (k : Nat)
    (ha : Sparse.wfFrom d lo a = true) (hk : ∀ e ∈ a, e.1 < k) (hl : ∀ l, lo = some l → l < k)
    (hb : Sparse.wfFrom d none b = true) (hbk : ∀ e ∈ b, k ≤ e.1) : Sparse.wfFrom d lo (a ++ b) = true := by
  induction a generalizing lo with
  | nil =>
    cases b with
    | nil => rfl
    | cons x t =>
      obtain ⟨j, v⟩ := x
      have hj := hbk (j, v) (by simp)
      simp only [Sparse.wfFrom, Bool.and_eq_true, decide_eq_true_eq, true_and] at hb
      simp only [List.nil_append, Sparse.wfFrom, Bool.and_eq_true, decide_eq_true_eq]
      refine ⟨⟨?_, hb.1⟩, hb.2⟩
      cases lo with
      | none => rfl
      | some l => have := hl l rfl; simp only [decide_eq_true_eq]; simp only at hj; omega
  | cons x t ih =>
    obtain ⟨j, v⟩ := x
    simp only [Sparse.wfFrom, Bool.and_eq_true, decide_eq_true_eq] at ha
    simp only [List.cons_append, Sparse.wfFrom, Bool.and_eq_true, decide_eq_true_eq]
    refine ⟨ha.1, ih ha.2 (fun e he => hk e (by simp [he])) fun l hl' => ?_⟩
    injection hl' with e
    have := hk (j, v) (by simp)
    simp only at this
    omega

/-- Entries moved by one distance stay in canonical form where the defaults at both places agree. -/
theorem Sparse.map_wfFrom {d : Nat → α} (f : Nat → Nat) {m : Sparse α} (hm : ∀ a b, a < b → b ∈ m.map (·.1) → a ∈ m.map (·.1) → f a < f b)
    (hd : ∀ e ∈ m, d (f e.1) = d e.1) (h : Sparse.wfFrom d none m = true) :
    Sparse.wfFrom d none (m.map fun e => (f e.1, e.2)) = true := by
  suffices H : ∀ (lo : Option Nat) (m' : Sparse α), (∀ e ∈ m', e ∈ m) → (∀ l, lo = some l → l ∈ m.map (·.1)) →
      Sparse.wfFrom d lo m' = true → Sparse.wfFrom d (lo.map f) (m'.map fun e => (f e.1, e.2)) = true by
    exact H none m (fun _ he => he) (by simp) h
  intro lo m'
  induction m' generalizing lo with
  | nil => intros; rfl
  | cons x t ih =>
    obtain ⟨k, v⟩ := x
    intro hsub hlo hw
    simp only [Sparse.wfFrom, Bool.and_eq_true, decide_eq_true_eq] at hw
    have hkm : k ∈ m.map (·.1) := List.mem_map.2 ⟨(k, v), hsub _ (by simp), rfl⟩
    simp only [List.map_cons, Sparse.wfFrom, Bool.and_eq_true, decide_eq_true_eq]
    refine ⟨⟨?_, by rw [hd (k, v) (hsub _ (by simp))]; exact hw.1.2⟩, ?_⟩
    · cases lo with
      | none => rfl
      | some l =>
        have h1 := hw.1.1
        simp only [decide_eq_true_eq] at h1
        simpa using hm l k h1 hkm (hlo l rfl)
    · exact ih (some k) (fun e he => hsub e (by simp [he])) (fun l hl => by injection hl with e; exact e ▸ hkm) hw.2

/-! ### Memory -/

/-- A byte of memory, just written, reads as the byte written. -/
theorem State.byte_setByte_same (s : State) (a : Nat) (b : Byte) : (s.setByte a b).byte a = b :=
  Sparse.get_put_same (memDefault a) b a s.mem

/-- Writing a byte leaves every other byte. -/
theorem State.byte_setByte_other (s : State) {a c : Nat} (b : Byte) (h : c ≠ a) :
    (s.setByte a b).byte c = s.byte c := Sparse.get_put_other _ _ _ h _

/-- Writing a byte keeps memory canonical. -/
theorem State.setByte_wf (s : State) (a : Nat) (b : Byte) (h : Memory.wf s.mem = true) :
    Memory.wf (s.setByte a b).mem = true := Sparse.put_wfFrom a b h (by simp)

/-- Clearing a range keeps memory canonical. -/
theorem State.clearMem_wf (s : State) (lo hi : Nat) (h : Memory.wf s.mem = true) :
    Memory.wf (s.clearMem lo hi).mem = true := Sparse.filter_wfFrom _ h

/-- Exchanging two neighbouring ranges below MRAM keeps memory canonical. -/
theorem State.swapMem_wf (s : State) (lo size : Nat) (hs : lo + 2 * size ≤ 0x14000000) (h : Memory.wf s.mem = true) :
    Memory.wf (s.swapMem lo size).mem = true := by
  have hz : ∀ a, a < 0x14000000 → memDefault a = 0 := fun a ha => by
    unfold memDefault; rw [if_neg (by omega)]
  have hf := fun p => Sparse.filter_wfFrom (d := memDefault) p (lo := none) h
  unfold Memory.wf Sparse.wf State.swapMem
  have inc {m : Sparse Byte} {f : Nat → Nat} (P : ∀ e ∈ m, ∀ e' ∈ m, e.1 < e'.1 → f e.1 < f e'.1) :
      ∀ a b, a < b → b ∈ m.map (·.1) → a ∈ m.map (·.1) → f a < f b := by
    intro a b hab hb ha
    obtain ⟨x, hx, rfl⟩ := List.mem_map.1 ha
    obtain ⟨y, hy, rfl⟩ := List.mem_map.1 hb
    exact P x hx y hy hab
  refine Sparse.append_wfFrom (lo + 2 * size) ?_ ?_ (by simp) (hf _) ?_
  · refine Sparse.append_wfFrom (lo + size) ?_ ?_ (by simp) ?_ ?_
    · refine Sparse.append_wfFrom lo (hf _) ?_ (by simp) ?_ ?_
      · intro e he; simpa using (List.mem_filter.1 he).2
      · refine Sparse.map_wfFrom (fun k => k - size) (inc ?_) ?_ (hf _)
        · intro e he e' he' hlt
          have := (List.mem_filter.1 he).2; have := (List.mem_filter.1 he').2
          simp only [Bool.and_eq_true, decide_eq_true_eq] at *
          omega
        · intro e he
          have := (List.mem_filter.1 he).2
          simp only [Bool.and_eq_true, decide_eq_true_eq] at this
          rw [hz _ (by omega), hz _ (by omega)]
      · intro e he
        obtain ⟨x, hx, rfl⟩ := List.mem_map.1 he
        have := (List.mem_filter.1 hx).2
        simp only [Bool.and_eq_true, decide_eq_true_eq] at this
        simp only; omega
    · intro e he
      rcases List.mem_append.1 he with he | he
      · have := (List.mem_filter.1 he).2; simp only [decide_eq_true_eq] at this; omega
      · obtain ⟨x, hx, rfl⟩ := List.mem_map.1 he
        have := (List.mem_filter.1 hx).2
        simp only [Bool.and_eq_true, decide_eq_true_eq] at this
        simp only; omega
    · refine Sparse.map_wfFrom (fun k => k + size) (inc ?_) ?_ (hf _)
      · intro e _ e' _ hlt; omega
      · intro e he
        have := (List.mem_filter.1 he).2
        simp only [Bool.and_eq_true, decide_eq_true_eq] at this
        rw [hz _ (by omega), hz _ (by omega)]
    · intro e he
      obtain ⟨x, hx, rfl⟩ := List.mem_map.1 he
      have := (List.mem_filter.1 hx).2
      simp only [Bool.and_eq_true, decide_eq_true_eq] at this
      simp only; omega
  · intro e he
    rcases List.mem_append.1 he with he | he
    · rcases List.mem_append.1 he with he | he
      · have := (List.mem_filter.1 he).2; simp only [decide_eq_true_eq] at this; omega
      · obtain ⟨x, hx, rfl⟩ := List.mem_map.1 he
        have := (List.mem_filter.1 hx).2
        simp only [Bool.and_eq_true, decide_eq_true_eq] at this
        simp only; omega
    · obtain ⟨x, hx, rfl⟩ := List.mem_map.1 he
      have := (List.mem_filter.1 hx).2
      simp only [Bool.and_eq_true, decide_eq_true_eq] at this
      simp only; omega
  · intro e he
    simpa using (List.mem_filter.1 he).2

end Sys2Proof.Machine
end

