-- ==== Sys2Proof/Laws/FrameState.lean ====
section
/-! SUPPORT. Lemmas that pass one property through a choice, a fold and a pair, and what every operation of Machine/State.lean leaves alone: the queue of waiting commands, the tick counter (unless it
writes it), and memory or its canonical form. -/

namespace Sys2Proof.Machine

set_option linter.all false
set_option Elab.async false
set_option maxRecDepth 4000

theorem wf_ite {c : Prop} [Decidable c] {a b : State} (ha : Memory.wf a.mem = true) (hb : Memory.wf b.mem = true) :
    Memory.wf (if c then a else b).mem = true := by split <;> assumption
theorem wf_eq {a b : List Host.Cell} (h : a = b) (k : Memory.wf b = true) : Memory.wf a = true := h ▸ k
theorem foldl_wf {α : Type} (f : State → α → State) (l : List α) (s : State)
    (hf : ∀ s a, Memory.wf s.mem = true → Memory.wf (f s a).mem = true) (h : Memory.wf s.mem = true) :
    Memory.wf (l.foldl f s).mem = true := by
  induction l generalizing s with
  | nil => exact h
  | cons a t ih => exact ih (f s a) (hf s a h)
theorem foldl_fst {α β : Type} (P : β → Prop) (f : β → α → β) (l : List α) (r : β)
    (hf : ∀ r a, P r → P (f r a)) (h : P r) : P (l.foldl f r) := by
  induction l generalizing r with
  | nil => exact h
  | cons a t ih => exact ih (f r a) (hf r a h)
theorem foldl_P {α : Type} (f : State → α → State) (l : List α) (s : State)
    (h : ∀ s a, (f s a).pending = s.pending) : (l.foldl f s).pending = s.pending := by
  induction l generalizing s with
  | nil => exact rfl
  | cons a t ih => simp only [List.foldl_cons, ih, h, and_self]
theorem foldl_PM {α : Type} (f : State → α → State) (l : List α) (s : State)
    (h : ∀ s a, (f s a).pending = s.pending ∧ (f s a).mem = s.mem) : (l.foldl f s).pending = s.pending ∧ (l.foldl f s).mem = s.mem := by
  induction l generalizing s with
  | nil => exact ⟨rfl, rfl⟩
  | cons a t ih => simp only [List.foldl_cons, ih, h, and_self]
theorem foldl_PN {α : Type} (f : State → α → State) (l : List α) (s : State)
    (h : ∀ s a, (f s a).pending = s.pending ∧ (f s a).tck.now = s.tck.now) : (l.foldl f s).pending = s.pending ∧ (l.foldl f s).tck.now = s.tck.now := by
  induction l generalizing s with
  | nil => exact ⟨rfl, rfl⟩
  | cons a t ih => simp only [List.foldl_cons, ih, h, and_self]
theorem foldl_PMN {α : Type} (f : State → α → State) (l : List α) (s : State)
    (h : ∀ s a, (f s a).pending = s.pending ∧ (f s a).tck.now = s.tck.now ∧ (f s a).mem = s.mem) : (l.foldl f s).pending = s.pending ∧ (l.foldl f s).tck.now = s.tck.now ∧ (l.foldl f s).mem = s.mem := by
  induction l generalizing s with
  | nil => exact ⟨rfl, rfl, rfl⟩
  | cons a t ih => simp only [List.foldl_cons, ih, h, and_self]
theorem alP_ite {c : Prop} [Decidable c] {a b : State} {q : List Instr} (ha : a.pending = q) (hb : b.pending = q) : (if c then a else b).pending = q := by split <;> assumption
theorem alP_fold0 {α : Type} {q : List Instr} (f : State → α → State) (l : List α) (r : State) (hf : ∀ r a, r.pending = q → (f r a).pending = q) (h : r.pending = q) : (l.foldl f r).pending = q := by
  induction l generalizing r with
  | nil => exact h
  | cons a t ih => exact ih (f r a) (hf r a h)
theorem alP_fold1 {α β : Type} {q : List Instr} (f : State × β → α → State × β) (l : List α) (r : State × β) (hf : ∀ r a, r.1.pending = q → (f r a).1.pending = q) (h : r.1.pending = q) : (l.foldl f r).1.pending = q := by
  induction l generalizing r with
  | nil => exact h
  | cons a t ih => exact ih (f r a) (hf r a h)
theorem alP_fold2 {α β : Type} {q : List Instr} (f : β × State → α → β × State) (l : List α) (r : β × State) (hf : ∀ r a, r.2.pending = q → (f r a).2.pending = q) (h : r.2.pending = q) : (l.foldl f r).2.pending = q := by
  induction l generalizing r with
  | nil => exact h
  | cons a t ih => exact ih (f r a) (hf r a h)
theorem alP_fold3 {α : Type} {q : List Instr} (f : ImgRun → α → ImgRun) (l : List α) (r : ImgRun) (hf : ∀ r a, r.s.pending = q → (f r a).s.pending = q) (h : r.s.pending = q) : (l.foldl f r).s.pending = q := by
  induction l generalizing r with
  | nil => exact h
  | cons a t ih => exact ih (f r a) (hf r a h)
theorem alP_itep2 {c : Prop} [Decidable c] {x y : ImgRun} {q : List Instr} (ha : x.s.pending = q) (hb : y.s.pending = q) : (if c then x else y).s.pending = q := by split <;> assumption
theorem alP_pair0 {β : Type} {x : State × β} {a : State} {b : β} {q : List Instr} (e : x = (a, b)) (h : x.1.pending = q) : a.pending = q := by subst e; exact h
theorem alP_itep0 {c : Prop} [Decidable c] {β : Type} {x y : State × β} {q : List Instr} (ha : x.1.pending = q) (hb : y.1.pending = q) : (if c then x else y).1.pending = q := by split <;> assumption
theorem alP_pair1 {β : Type} {x : β × State} {a : State} {b : β} {q : List Instr} (e : x = (b, a)) (h : x.2.pending = q) : a.pending = q := by subst e; exact h
theorem alP_itep1 {c : Prop} [Decidable c] {β : Type} {x y : β × State} {q : List Instr} (ha : x.2.pending = q) (hb : y.2.pending = q) : (if c then x else y).2.pending = q := by split <;> assumption
theorem alP_some {a b : State} {q : List Instr} (e : some a = some b) (h : a.pending = q) : b.pending = q := by cases e; exact h
theorem ocP_next {a r : State} {q : List Instr} (h : a.pending = q) (e : (Host.Outcome.next a : Host.Outcome State Fault Refusal) = .next r) : r.pending = q := by cases e; exact h
theorem ocP_ite {c : Prop} [Decidable c] {a b : Host.Outcome State Fault Refusal} {r : State} {q : List Instr} (ha : a = .next r → r.pending = q) (hb : b = .next r → r.pending = q) (e : (if c then a else b) = .next r) : r.pending = q := by split at e <;> simp_all
theorem ocP_fault {f : Fault} {r : State} {q : List Instr} (e : (Host.Outcome.fault f : Host.Outcome State Fault Refusal) = .next r) : r.pending = q := by cases e
theorem alN_ite {c : Prop} [Decidable c] {a b : State} {q : Tick} (ha : a.tck.now = q) (hb : b.tck.now = q) : (if c then a else b).tck.now = q := by split <;> assumption
theorem alN_fold0 {α : Type} {q : Tick} (f : State → α → State) (l : List α) (r : State) (hf : ∀ r a, r.tck.now = q → (f r a).tck.now = q) (h : r.tck.now = q) : (l.foldl f r).tck.now = q := by
  induction l generalizing r with
  | nil => exact h
  | cons a t ih => exact ih (f r a) (hf r a h)
theorem alN_fold1 {α β : Type} {q : Tick} (f : State × β → α → State × β) (l : List α) (r : State × β) (hf : ∀ r a, r.1.tck.now = q → (f r a).1.tck.now = q) (h : r.1.tck.now = q) : (l.foldl f r).1.tck.now = q := by
  induction l generalizing r with
  | nil => exact h
  | cons a t ih => exact ih (f r a) (hf r a h)
theorem alN_fold2 {α β : Type} {q : Tick} (f : β × State → α → β × State) (l : List α) (r : β × State) (hf : ∀ r a, r.2.tck.now = q → (f r a).2.tck.now = q) (h : r.2.tck.now = q) : (l.foldl f r).2.tck.now = q := by
  induction l generalizing r with
  | nil => exact h
  | cons a t ih => exact ih (f r a) (hf r a h)
theorem alN_fold3 {α : Type} {q : Tick} (f : ImgRun → α → ImgRun) (l : List α) (r : ImgRun) (hf : ∀ r a, r.s.tck.now = q → (f r a).s.tck.now = q) (h : r.s.tck.now = q) : (l.foldl f r).s.tck.now = q := by
  induction l generalizing r with
  | nil => exact h
  | cons a t ih => exact ih (f r a) (hf r a h)
theorem alN_itep2 {c : Prop} [Decidable c] {x y : ImgRun} {q : Tick} (ha : x.s.tck.now = q) (hb : y.s.tck.now = q) : (if c then x else y).s.tck.now = q := by split <;> assumption
theorem alN_pair0 {β : Type} {x : State × β} {a : State} {b : β} {q : Tick} (e : x = (a, b)) (h : x.1.tck.now = q) : a.tck.now = q := by subst e; exact h
theorem alN_itep0 {c : Prop} [Decidable c] {β : Type} {x y : State × β} {q : Tick} (ha : x.1.tck.now = q) (hb : y.1.tck.now = q) : (if c then x else y).1.tck.now = q := by split <;> assumption
theorem alN_pair1 {β : Type} {x : β × State} {a : State} {b : β} {q : Tick} (e : x = (b, a)) (h : x.2.tck.now = q) : a.tck.now = q := by subst e; exact h
theorem alN_itep1 {c : Prop} [Decidable c] {β : Type} {x y : β × State} {q : Tick} (ha : x.2.tck.now = q) (hb : y.2.tck.now = q) : (if c then x else y).2.tck.now = q := by split <;> assumption
theorem alN_some {a b : State} {q : Tick} (e : some a = some b) (h : a.tck.now = q) : b.tck.now = q := by cases e; exact h
theorem ocN_next {a r : State} {q : Tick} (h : a.tck.now = q) (e : (Host.Outcome.next a : Host.Outcome State Fault Refusal) = .next r) : r.tck.now = q := by cases e; exact h
theorem ocN_ite {c : Prop} [Decidable c] {a b : Host.Outcome State Fault Refusal} {r : State} {q : Tick} (ha : a = .next r → r.tck.now = q) (hb : b = .next r → r.tck.now = q) (e : (if c then a else b) = .next r) : r.tck.now = q := by split at e <;> simp_all
theorem ocN_fault {f : Fault} {r : State} {q : Tick} (e : (Host.Outcome.fault f : Host.Outcome State Fault Refusal) = .next r) : r.tck.now = q := by cases e
theorem alM_ite {c : Prop} [Decidable c] {a b : State} {q : List Host.Cell} (ha : a.mem = q) (hb : b.mem = q) : (if c then a else b).mem = q := by split <;> assumption
theorem alM_fold0 {α : Type} {q : List Host.Cell} (f : State → α → State) (l : List α) (r : State) (hf : ∀ r a, r.mem = q → (f r a).mem = q) (h : r.mem = q) : (l.foldl f r).mem = q := by
  induction l generalizing r with
  | nil => exact h
  | cons a t ih => exact ih (f r a) (hf r a h)
theorem alM_fold1 {α β : Type} {q : List Host.Cell} (f : State × β → α → State × β) (l : List α) (r : State × β) (hf : ∀ r a, r.1.mem = q → (f r a).1.mem = q) (h : r.1.mem = q) : (l.foldl f r).1.mem = q := by
  induction l generalizing r with
  | nil => exact h
  | cons a t ih => exact ih (f r a) (hf r a h)
theorem alM_fold2 {α β : Type} {q : List Host.Cell} (f : β × State → α → β × State) (l : List α) (r : β × State) (hf : ∀ r a, r.2.mem = q → (f r a).2.mem = q) (h : r.2.mem = q) : (l.foldl f r).2.mem = q := by
  induction l generalizing r with
  | nil => exact h
  | cons a t ih => exact ih (f r a) (hf r a h)
theorem alM_fold3 {α : Type} {q : List Host.Cell} (f : ImgRun → α → ImgRun) (l : List α) (r : ImgRun) (hf : ∀ r a, r.s.mem = q → (f r a).s.mem = q) (h : r.s.mem = q) : (l.foldl f r).s.mem = q := by
  induction l generalizing r with
  | nil => exact h
  | cons a t ih => exact ih (f r a) (hf r a h)
theorem alM_itep2 {c : Prop} [Decidable c] {x y : ImgRun} {q : List Host.Cell} (ha : x.s.mem = q) (hb : y.s.mem = q) : (if c then x else y).s.mem = q := by split <;> assumption
theorem alM_pair0 {β : Type} {x : State × β} {a : State} {b : β} {q : List Host.Cell} (e : x = (a, b)) (h : x.1.mem = q) : a.mem = q := by subst e; exact h
theorem alM_itep0 {c : Prop} [Decidable c] {β : Type} {x y : State × β} {q : List Host.Cell} (ha : x.1.mem = q) (hb : y.1.mem = q) : (if c then x else y).1.mem = q := by split <;> assumption
theorem alM_pair1 {β : Type} {x : β × State} {a : State} {b : β} {q : List Host.Cell} (e : x = (b, a)) (h : x.2.mem = q) : a.mem = q := by subst e; exact h
theorem alM_itep1 {c : Prop} [Decidable c] {β : Type} {x y : β × State} {q : List Host.Cell} (ha : x.2.mem = q) (hb : y.2.mem = q) : (if c then x else y).2.mem = q := by split <;> assumption
theorem alM_some {a b : State} {q : List Host.Cell} (e : some a = some b) (h : a.mem = q) : b.mem = q := by cases e; exact h
theorem ocM_next {a r : State} {q : List Host.Cell} (h : a.mem = q) (e : (Host.Outcome.next a : Host.Outcome State Fault Refusal) = .next r) : r.mem = q := by cases e; exact h
theorem ocM_ite {c : Prop} [Decidable c] {a b : Host.Outcome State Fault Refusal} {r : State} {q : List Host.Cell} (ha : a = .next r → r.mem = q) (hb : b = .next r → r.mem = q) (e : (if c then a else b) = .next r) : r.mem = q := by split at e <;> simp_all
theorem ocM_fault {f : Fault} {r : State} {q : List Host.Cell} (e : (Host.Outcome.fault f : Host.Outcome State Fault Refusal) = .next r) : r.mem = q := by cases e
theorem alW_ite {c : Prop} [Decidable c] {a b : State} (ha : Memory.wf a.mem = true) (hb : Memory.wf b.mem = true) : Memory.wf (if c then a else b).mem = true := by split <;> assumption
theorem alW_fold0 {α : Type} (f : State → α → State) (l : List α) (r : State) (hf : ∀ r a, Memory.wf r.mem = true → Memory.wf (f r a).mem = true) (h : Memory.wf r.mem = true) : Memory.wf (l.foldl f r).mem = true := by
  induction l generalizing r with
  | nil => exact h
  | cons a t ih => exact ih (f r a) (hf r a h)
theorem alW_fold1 {α β : Type} (f : State × β → α → State × β) (l : List α) (r : State × β) (hf : ∀ r a, Memory.wf r.1.mem = true → Memory.wf (f r a).1.mem = true) (h : Memory.wf r.1.mem = true) : Memory.wf (l.foldl f r).1.mem = true := by
  induction l generalizing r with
  | nil => exact h
  | cons a t ih => exact ih (f r a) (hf r a h)
theorem alW_fold2 {α β : Type} (f : β × State → α → β × State) (l : List α) (r : β × State) (hf : ∀ r a, Memory.wf r.2.mem = true → Memory.wf (f r a).2.mem = true) (h : Memory.wf r.2.mem = true) : Memory.wf (l.foldl f r).2.mem = true := by
  induction l generalizing r with
  | nil => exact h
  | cons a t ih => exact ih (f r a) (hf r a h)
theorem alW_fold3 {α : Type} (f : ImgRun → α → ImgRun) (l : List α) (r : ImgRun) (hf : ∀ r a, Memory.wf r.s.mem = true → Memory.wf (f r a).s.mem = true) (h : Memory.wf r.s.mem = true) : Memory.wf (l.foldl f r).s.mem = true := by
  induction l generalizing r with
  | nil => exact h
  | cons a t ih => exact ih (f r a) (hf r a h)
theorem alW_itep2 {c : Prop} [Decidable c] {x y : ImgRun} (ha : Memory.wf x.s.mem = true) (hb : Memory.wf y.s.mem = true) : Memory.wf (if c then x else y).s.mem = true := by split <;> assumption
theorem alW_pair0 {β : Type} {x : State × β} {a : State} {b : β} (e : x = (a, b)) (h : Memory.wf x.1.mem = true) : Memory.wf a.mem = true := by subst e; exact h
theorem alW_itep0 {c : Prop} [Decidable c] {β : Type} {x y : State × β} (ha : Memory.wf x.1.mem = true) (hb : Memory.wf y.1.mem = true) : Memory.wf (if c then x else y).1.mem = true := by split <;> assumption
theorem alW_pair1 {β : Type} {x : β × State} {a : State} {b : β} (e : x = (b, a)) (h : Memory.wf x.2.mem = true) : Memory.wf a.mem = true := by subst e; exact h
theorem alW_itep1 {c : Prop} [Decidable c] {β : Type} {x y : β × State} (ha : Memory.wf x.2.mem = true) (hb : Memory.wf y.2.mem = true) : Memory.wf (if c then x else y).2.mem = true := by split <;> assumption
theorem alW_some {a b : State} (e : some a = some b) (h : Memory.wf a.mem = true) : Memory.wf b.mem = true := by cases e; exact h
theorem ocW_next {a r : State} (h : Memory.wf a.mem = true) (e : (Host.Outcome.next a : Host.Outcome State Fault Refusal) = .next r) : Memory.wf r.mem = true := by cases e; exact h
theorem ocW_ite {c : Prop} [Decidable c] {a b : Host.Outcome State Fault Refusal} {r : State} (ha : a = .next r → Memory.wf r.mem = true) (hb : b = .next r → Memory.wf r.mem = true) (e : (if c then a else b) = .next r) : Memory.wf r.mem = true := by split at e <;> simp_all
theorem ocW_fault {f : Fault} {r : State} (e : (Host.Outcome.fault f : Host.Outcome State Fault Refusal) = .next r) : Memory.wf r.mem = true := by cases e
theorem opt_ite {c : Prop} [Decidable c] {a b : Option State} {r : State} {P : State → Prop} (ha : a = some r → P r)
    (hb : b = some r → P r) : (if c then a else b) = some r → P r := by split <;> assumption
theorem opt_some {a r : State} {P : State → Prop} (h : P a) : some a = some r → P r := by intro e; cases e; exact h
theorem opt_none {r : State} {P : State → Prop} : none = some r → P r := by intro e; cases e
end Sys2Proof.Machine
end

