-- ==== Sys2Proof/Laws/FrameOps.lean ====
section
/-! SUPPORT. What every operation of Machine/Ops.lean leaves alone: the queue of waiting commands, the tick counter (unless it
writes it), and memory or its canonical form. -/

namespace Sys2Proof.Machine

set_option linter.all false
set_option Elab.async false
set_option maxRecDepth 4000

theorem State.setReg_frame (s : State) (k : Nat) (v : Word)  : (State.setReg s k v).pending = s.pending ∧ (State.setReg s k v).tck.now = s.tck.now ∧ (State.setReg s k v).mem = s.mem := by
  unfold State.setReg
  repeat' first
    | (simp only [implies_true, and_self, and_true, true_and, apply_ite State.pending, apply_ite State.mem, apply_ite State.tck, apply_ite TckSt.now]; done)
    | (simp (maxDischargeDepth := 8) only [foldl_PMN, implies_true, and_self, and_true, true_and, apply_ite State.pending, apply_ite State.mem, apply_ite State.tck, apply_ite TckSt.now]; done)
    | (with_reducible refine foldl_PMN _ _ _ (fun s a => ?_))
    | split
    | (simp only [implies_true, and_self, and_true, true_and, apply_ite State.pending, apply_ite State.mem, apply_ite State.tck, apply_ite TckSt.now])

theorem State.setRegN_frame (s : State) (k v : Nat)  : (State.setRegN s k v).pending = s.pending ∧ (State.setRegN s k v).tck.now = s.tck.now ∧ (State.setRegN s k v).mem = s.mem := by
  unfold State.setRegN
  repeat' first
    | (simp only [implies_true, and_self, and_true, true_and, apply_ite State.pending, apply_ite State.mem, apply_ite State.tck, apply_ite TckSt.now, State.setReg_frame]; done)
    | (simp (maxDischargeDepth := 8) only [foldl_PMN, implies_true, and_self, and_true, true_and, apply_ite State.pending, apply_ite State.mem, apply_ite State.tck, apply_ite TckSt.now, State.setReg_frame]; done)
    | (with_reducible refine foldl_PMN _ _ _ (fun s a => ?_))
    | split
    | (simp only [implies_true, and_self, and_true, true_and, apply_ite State.pending, apply_ite State.mem, apply_ite State.tck, apply_ite TckSt.now, State.setReg_frame])

theorem State.setFld_frame (s : State) (k lo len v : Nat)  : (State.setFld s k lo len v).pending = s.pending ∧ (State.setFld s k lo len v).tck.now = s.tck.now ∧ (State.setFld s k lo len v).mem = s.mem := by
  unfold State.setFld
  repeat' first
    | (simp only [implies_true, and_self, and_true, true_and, apply_ite State.pending, apply_ite State.mem, apply_ite State.tck, apply_ite TckSt.now, State.setReg_frame]; done)
    | (simp (maxDischargeDepth := 8) only [foldl_PMN, implies_true, and_self, and_true, true_and, apply_ite State.pending, apply_ite State.mem, apply_ite State.tck, apply_ite TckSt.now, State.setReg_frame]; done)
    | (with_reducible refine foldl_PMN _ _ _ (fun s a => ?_))
    | split
    | (simp only [implies_true, and_self, and_true, true_and, apply_ite State.pending, apply_ite State.mem, apply_ite State.tck, apply_ite TckSt.now, State.setReg_frame])

theorem State.setBit_frame (s : State) (k i : Nat) (b : Bool)  : (State.setBit s k i b).pending = s.pending ∧ (State.setBit s k i b).tck.now = s.tck.now ∧ (State.setBit s k i b).mem = s.mem := by
  unfold State.setBit
  repeat' first
    | (simp only [implies_true, and_self, and_true, true_and, apply_ite State.pending, apply_ite State.mem, apply_ite State.tck, apply_ite TckSt.now, State.setFld_frame]; done)
    | (simp (maxDischargeDepth := 8) only [foldl_PMN, implies_true, and_self, and_true, true_and, apply_ite State.pending, apply_ite State.mem, apply_ite State.tck, apply_ite TckSt.now, State.setFld_frame]; done)
    | (with_reducible refine foldl_PMN _ _ _ (fun s a => ?_))
    | split
    | (simp only [implies_true, and_self, and_true, true_and, apply_ite State.pending, apply_ite State.mem, apply_ite State.tck, apply_ite TckSt.now, State.setFld_frame])

theorem State.setReg64_frame (s : State) (k v : Nat)  : (State.setReg64 s k v).pending = s.pending ∧ (State.setReg64 s k v).tck.now = s.tck.now ∧ (State.setReg64 s k v).mem = s.mem := by
  unfold State.setReg64
  repeat' first
    | (simp only [implies_true, and_self, and_true, true_and, apply_ite State.pending, apply_ite State.mem, apply_ite State.tck, apply_ite TckSt.now, State.setRegN_frame]; done)
    | (simp (maxDischargeDepth := 8) only [foldl_PMN, implies_true, and_self, and_true, true_and, apply_ite State.pending, apply_ite State.mem, apply_ite State.tck, apply_ite TckSt.now, State.setRegN_frame]; done)
    | (with_reducible refine foldl_PMN _ _ _ (fun s a => ?_))
    | split
    | (simp only [implies_true, and_self, and_true, true_and, apply_ite State.pending, apply_ite State.mem, apply_ite State.tck, apply_ite TckSt.now, State.setRegN_frame])

theorem State.bump_frame (s : State) (k lo len n : Nat)  : (State.bump s k lo len n).pending = s.pending ∧ (State.bump s k lo len n).tck.now = s.tck.now ∧ (State.bump s k lo len n).mem = s.mem := by
  unfold State.bump
  repeat' first
    | (simp only [implies_true, and_self, and_true, true_and, apply_ite State.pending, apply_ite State.mem, apply_ite State.tck, apply_ite TckSt.now, State.setFld_frame]; done)
    | (simp (maxDischargeDepth := 8) only [foldl_PMN, implies_true, and_self, and_true, true_and, apply_ite State.pending, apply_ite State.mem, apply_ite State.tck, apply_ite TckSt.now, State.setFld_frame]; done)
    | (with_reducible refine foldl_PMN _ _ _ (fun s a => ?_))
    | split
    | (simp only [implies_true, and_self, and_true, true_and, apply_ite State.pending, apply_ite State.mem, apply_ite State.tck, apply_ite TckSt.now, State.setFld_frame])

theorem State.count_frame (s : State) (k : Nat)  : (State.count s k).pending = s.pending ∧ (State.count s k).tck.now = s.tck.now ∧ (State.count s k).mem = s.mem := by
  unfold State.count
  repeat' first
    | (simp only [implies_true, and_self, and_true, true_and, apply_ite State.pending, apply_ite State.mem, apply_ite State.tck, apply_ite TckSt.now, State.bump_frame]; done)
    | (simp (maxDischargeDepth := 8) only [foldl_PMN, implies_true, and_self, and_true, true_and, apply_ite State.pending, apply_ite State.mem, apply_ite State.tck, apply_ite TckSt.now, State.bump_frame]; done)
    | (with_reducible refine foldl_PMN _ _ _ (fun s a => ?_))
    | split
    | (simp only [implies_true, and_self, and_true, true_and, apply_ite State.pending, apply_ite State.mem, apply_ite State.tck, apply_ite TckSt.now, State.bump_frame])

theorem State.setForce_frame (s : State) (k : Nat) (v : Word)  : (State.setForce s k v).pending = s.pending ∧ (State.setForce s k v).tck.now = s.tck.now ∧ (State.setForce s k v).mem = s.mem := by
  unfold State.setForce
  repeat' first
    | (simp only [implies_true, and_self, and_true, true_and, apply_ite State.pending, apply_ite State.mem, apply_ite State.tck, apply_ite TckSt.now]; done)
    | (simp (maxDischargeDepth := 8) only [foldl_PMN, implies_true, and_self, and_true, true_and, apply_ite State.pending, apply_ite State.mem, apply_ite State.tck, apply_ite TckSt.now]; done)
    | (with_reducible refine foldl_PMN _ _ _ (fun s a => ?_))
    | split
    | (simp only [implies_true, and_self, and_true, true_and, apply_ite State.pending, apply_ite State.mem, apply_ite State.tck, apply_ite TckSt.now])

theorem State.setCfg_frame (s : State) (k : Nat) (v : Word)  : (State.setCfg s k v).pending = s.pending ∧ (State.setCfg s k v).tck.now = s.tck.now ∧ (State.setCfg s k v).mem = s.mem := by
  unfold State.setCfg
  repeat' first
    | (simp only [implies_true, and_self, and_true, true_and, apply_ite State.pending, apply_ite State.mem, apply_ite State.tck, apply_ite TckSt.now, State.setReg_frame, State.setForce_frame]; done)
    | (simp (maxDischargeDepth := 8) only [foldl_PMN, implies_true, and_self, and_true, true_and, apply_ite State.pending, apply_ite State.mem, apply_ite State.tck, apply_ite TckSt.now, State.setReg_frame, State.setForce_frame]; done)
    | (with_reducible refine foldl_PMN _ _ _ (fun s a => ?_))
    | split
    | (simp only [implies_true, and_self, and_true, true_and, apply_ite State.pending, apply_ite State.mem, apply_ite State.tck, apply_ite TckSt.now, State.setReg_frame, State.setForce_frame])

theorem State.setByte_frame (s : State) (a : Nat) (b : Byte)  : (State.setByte s a b).pending = s.pending ∧ (State.setByte s a b).tck.now = s.tck.now ∧ (Memory.wf s.mem = true → Memory.wf (State.setByte s a b).mem = true) := by
  exact ⟨rfl, rfl, State.setByte_wf s a b⟩

theorem State.putBytes_frame (s : State) (a : Nat) (x0 : List Byte)  : (State.putBytes s a x0).pending = s.pending ∧ (State.putBytes s a x0).tck.now = s.tck.now ∧ (Memory.wf s.mem = true → Memory.wf (State.putBytes s a x0).mem = true) := by
  induction x0 generalizing s a with
  | nil => exact ⟨rfl, rfl, id⟩
  | cons b t ih =>
    have h := State.setByte_frame s a b
    have k := ih (s.setByte a b) (a + 1)
    exact ⟨k.1.trans h.1, k.2.1.trans h.2.1, fun w => k.2.2 (h.2.2 w)⟩

theorem State.journalPut_frame (s : State) (addr word : Nat)  : (State.journalPut s addr word).pending = s.pending ∧ (State.journalPut s addr word).tck.now = s.tck.now ∧ (State.journalPut s addr word).mem = s.mem := by
  unfold State.journalPut
  repeat' first
    | (simp only [implies_true, and_self, and_true, true_and, apply_ite State.pending, apply_ite State.mem, apply_ite State.tck, apply_ite TckSt.now]; done)
    | (simp (maxDischargeDepth := 8) only [foldl_PMN, implies_true, and_self, and_true, true_and, apply_ite State.pending, apply_ite State.mem, apply_ite State.tck, apply_ite TckSt.now]; done)
    | (with_reducible refine foldl_PMN _ _ _ (fun s a => ?_))
    | split
    | (simp only [implies_true, and_self, and_true, true_and, apply_ite State.pending, apply_ite State.mem, apply_ite State.tck, apply_ite TckSt.now])

theorem State.journalMem_frame (s : State) (a n : Nat)  : (State.journalMem s a n).pending = s.pending ∧ (State.journalMem s a n).tck.now = s.tck.now ∧ (State.journalMem s a n).mem = s.mem := by
  unfold State.journalMem
  repeat' first
    | (simp only [implies_true, and_self, and_true, true_and, apply_ite State.pending, apply_ite State.mem, apply_ite State.tck, apply_ite TckSt.now, State.journalPut_frame]; done)
    | (simp (maxDischargeDepth := 8) only [foldl_PMN, implies_true, and_self, and_true, true_and, apply_ite State.pending, apply_ite State.mem, apply_ite State.tck, apply_ite TckSt.now, State.journalPut_frame]; done)
    | (with_reducible refine foldl_PMN _ _ _ (fun s a => ?_))
    | split
    | (simp only [implies_true, and_self, and_true, true_and, apply_ite State.pending, apply_ite State.mem, apply_ite State.tck, apply_ite TckSt.now, State.journalPut_frame])

theorem State.setBytes_frame (s : State) (a : Nat) (l : List Byte)  : (State.setBytes s a l).pending = s.pending ∧ (State.setBytes s a l).tck.now = s.tck.now ∧ (Memory.wf s.mem = true → Memory.wf (State.setBytes s a l).mem = true) := by
  unfold State.setBytes
  refine (and_assoc.1 ⟨?_, fun h => ?_⟩)
  · repeat' first
      | (simp only [implies_true, and_self, and_true, true_and, apply_ite State.pending, apply_ite State.tck, apply_ite TckSt.now, State.putBytes_frame, State.journalMem_frame]; done)
      | (simp (maxDischargeDepth := 8) only [foldl_PN, implies_true, and_self, and_true, true_and, apply_ite State.pending, apply_ite State.tck, apply_ite TckSt.now, State.putBytes_frame, State.journalMem_frame]; done)
      | (with_reducible refine foldl_PN _ _ _ (fun s a => ?_))
      | split
      | (simp only [implies_true, and_self, and_true, true_and, apply_ite State.pending, apply_ite State.tck, apply_ite TckSt.now, State.putBytes_frame, State.journalMem_frame])
  · repeat' first
      | with_reducible assumption
      | (with_reducible refine wf_ite ?_ ?_)
      | (with_reducible refine (State.putBytes_frame ..).2.2 ?_)
      | (with_reducible refine wf_eq (State.journalMem_frame ..).2.2 ?_)
      | (with_reducible refine foldl_wf _ _ _ (fun s a h => ?_) ?_)
      | dsimp only
      | split

theorem State.storeN_frame (s : State) (a n v : Nat)  : (State.storeN s a n v).pending = s.pending ∧ (State.storeN s a n v).tck.now = s.tck.now ∧ (Memory.wf s.mem = true → Memory.wf (State.storeN s a n v).mem = true) := by
  unfold State.storeN
  refine (and_assoc.1 ⟨?_, fun h => ?_⟩)
  · repeat' first
      | (simp only [implies_true, and_self, and_true, true_and, apply_ite State.pending, apply_ite State.tck, apply_ite TckSt.now, State.setBytes_frame]; done)
      | (simp (maxDischargeDepth := 8) only [foldl_PN, implies_true, and_self, and_true, true_and, apply_ite State.pending, apply_ite State.tck, apply_ite TckSt.now, State.setBytes_frame]; done)
      | (with_reducible refine foldl_PN _ _ _ (fun s a => ?_))
      | split
      | (simp only [implies_true, and_self, and_true, true_and, apply_ite State.pending, apply_ite State.tck, apply_ite TckSt.now, State.setBytes_frame])
  · repeat' first
      | with_reducible assumption
      | (with_reducible refine wf_ite ?_ ?_)
      | (with_reducible refine (State.setBytes_frame ..).2.2 ?_)
      | (with_reducible refine foldl_wf _ _ _ (fun s a h => ?_) ?_)
      | dsimp only
      | split

theorem State.clearMem_frame (s : State) (lo hi : Nat)  : (State.clearMem s lo hi).pending = s.pending ∧ (State.clearMem s lo hi).tck.now = s.tck.now ∧ (Memory.wf s.mem = true → Memory.wf (State.clearMem s lo hi).mem = true) := by
  exact ⟨rfl, rfl, State.clearMem_wf s lo hi⟩

theorem State.emit_frame (s : State) (o : Out)  : (State.emit s o).pending = s.pending ∧ (State.emit s o).tck.now = s.tck.now ∧ (State.emit s o).mem = s.mem := by
  unfold State.emit
  repeat' first
    | (simp only [implies_true, and_self, and_true, true_and, apply_ite State.pending, apply_ite State.mem, apply_ite State.tck, apply_ite TckSt.now]; done)
    | (simp (maxDischargeDepth := 8) only [foldl_PMN, implies_true, and_self, and_true, true_and, apply_ite State.pending, apply_ite State.mem, apply_ite State.tck, apply_ite TckSt.now]; done)
    | (with_reducible refine foldl_PMN _ _ _ (fun s a => ?_))
    | split
    | (simp only [implies_true, and_self, and_true, true_and, apply_ite State.pending, apply_ite State.mem, apply_ite State.tck, apply_ite TckSt.now])

theorem State.tick1_frame (s : State)  : (State.tick1 s).pending = s.pending ∧ (State.tick1 s).tck.now = s.tck.now ∧ (State.tick1 s).mem = s.mem := by
  unfold State.tick1
  repeat' first
    | (simp only [implies_true, and_self, and_true, true_and, apply_ite State.pending, apply_ite State.mem, apply_ite State.tck, apply_ite TckSt.now]; done)
    | (simp (maxDischargeDepth := 8) only [foldl_PMN, implies_true, and_self, and_true, true_and, apply_ite State.pending, apply_ite State.mem, apply_ite State.tck, apply_ite TckSt.now]; done)
    | (with_reducible refine foldl_PMN _ _ _ (fun s a => ?_))
    | split
    | (simp only [implies_true, and_self, and_true, true_and, apply_ite State.pending, apply_ite State.mem, apply_ite State.tck, apply_ite TckSt.now])

theorem State.atCycle_frame (s : State) (c : Nat)  : (State.atCycle s c).pending = s.pending ∧ (State.atCycle s c).tck.now = s.tck.now ∧ (State.atCycle s c).mem = s.mem := by
  unfold State.atCycle
  repeat' first
    | (simp only [implies_true, and_self, and_true, true_and, apply_ite State.pending, apply_ite State.mem, apply_ite State.tck, apply_ite TckSt.now]; done)
    | (simp (maxDischargeDepth := 8) only [foldl_PMN, implies_true, and_self, and_true, true_and, apply_ite State.pending, apply_ite State.mem, apply_ite State.tck, apply_ite TckSt.now]; done)
    | (with_reducible refine foldl_PMN _ _ _ (fun s a => ?_))
    | split
    | (simp only [implies_true, and_self, and_true, true_and, apply_ite State.pending, apply_ite State.mem, apply_ite State.tck, apply_ite TckSt.now])

theorem State.comes_frame (s : State) (start : BitVec 96) (len : Nat)  : (State.comes s start len).pending = s.pending ∧ (State.comes s start len).tck.now = s.tck.now ∧ (State.comes s start len).mem = s.mem := by
  unfold State.comes
  repeat' first
    | (simp only [implies_true, and_self, and_true, true_and, apply_ite State.pending, apply_ite State.mem, apply_ite State.tck, apply_ite TckSt.now, State.atCycle_frame]; done)
    | (simp (maxDischargeDepth := 8) only [foldl_PMN, implies_true, and_self, and_true, true_and, apply_ite State.pending, apply_ite State.mem, apply_ite State.tck, apply_ite TckSt.now, State.atCycle_frame]; done)
    | (with_reducible refine foldl_PMN _ _ _ (fun s a => ?_))
    | split
    | (simp only [implies_true, and_self, and_true, true_and, apply_ite State.pending, apply_ite State.mem, apply_ite State.tck, apply_ite TckSt.now, State.atCycle_frame])

theorem State.setPend_frame (s : State) (page : Nat)  : (State.setPend s page).pending = s.pending ∧ (State.setPend s page).tck.now = s.tck.now ∧ (State.setPend s page).mem = s.mem := by
  unfold State.setPend
  repeat' first
    | (simp only [implies_true, and_self, and_true, true_and, apply_ite State.pending, apply_ite State.mem, apply_ite State.tck, apply_ite TckSt.now, State.setBit_frame]; done)
    | (simp (maxDischargeDepth := 8) only [foldl_PMN, implies_true, and_self, and_true, true_and, apply_ite State.pending, apply_ite State.mem, apply_ite State.tck, apply_ite TckSt.now, State.setBit_frame]; done)
    | (with_reducible refine foldl_PMN _ _ _ (fun s a => ?_))
    | split
    | (simp only [implies_true, and_self, and_true, true_and, apply_ite State.pending, apply_ite State.mem, apply_ite State.tck, apply_ite TckSt.now, State.setBit_frame])

theorem State.afterRise_frame (a s : State) (page : Nat)  : (State.afterRise a s page).pending = s.pending ∧ (State.afterRise a s page).tck.now = s.tck.now ∧ (State.afterRise a s page).mem = s.mem := by
  unfold State.afterRise
  repeat' first
    | (simp only [implies_true, and_self, and_true, true_and, apply_ite State.pending, apply_ite State.mem, apply_ite State.tck, apply_ite TckSt.now, State.setPend_frame]; done)
    | (simp (maxDischargeDepth := 8) only [foldl_PMN, implies_true, and_self, and_true, true_and, apply_ite State.pending, apply_ite State.mem, apply_ite State.tck, apply_ite TckSt.now, State.setPend_frame]; done)
    | (with_reducible refine foldl_PMN _ _ _ (fun s a => ?_))
    | split
    | (simp only [implies_true, and_self, and_true, true_and, apply_ite State.pending, apply_ite State.mem, apply_ite State.tck, apply_ite TckSt.now, State.setPend_frame])

theorem State.withSummary_frame (s : State) (page : Nat) (f : State → State) (hf : ∀  t, (f  t).pending = t.pending ∧ (f  t).tck.now = t.tck.now ∧ (f  t).mem = t.mem)  : (State.withSummary s page f).pending = s.pending ∧ (State.withSummary s page f).tck.now = s.tck.now ∧ (State.withSummary s page f).mem = s.mem := by
  unfold State.withSummary
  repeat' first
    | (simp only [implies_true, and_self, and_true, true_and, apply_ite State.pending, apply_ite State.mem, apply_ite State.tck, apply_ite TckSt.now, State.afterRise_frame, hf]; done)
    | (simp (maxDischargeDepth := 8) only [foldl_PMN, implies_true, and_self, and_true, true_and, apply_ite State.pending, apply_ite State.mem, apply_ite State.tck, apply_ite TckSt.now, State.afterRise_frame, hf]; done)
    | (with_reducible refine foldl_PMN _ _ _ (fun s a => ?_))
    | split
    | (simp only [implies_true, and_self, and_true, true_and, apply_ite State.pending, apply_ite State.mem, apply_ite State.tck, apply_ite TckSt.now, State.afterRise_frame, hf])
theorem State.withSummary_frP (s : State) (page : Nat) (f : State → State) (hf : ∀  t, (f  t).pending = t.pending) : (State.withSummary s page f).pending = s.pending := by
  unfold State.withSummary
  · repeat' first
      | with_reducible assumption
      | with_reducible rfl
      | (with_reducible refine alP_ite ?_ ?_)
      | (with_reducible refine Eq.trans (State.afterRise_frame ..).1 ?_)
      | (with_reducible refine Eq.trans (hf  _) ?_)
      | dsimp only
      | split
theorem State.withSummary_frN (s : State) (page : Nat) (f : State → State) (hf : ∀  t, (f  t).tck.now = t.tck.now) : (State.withSummary s page f).tck.now = s.tck.now := by
  unfold State.withSummary
  · repeat' first
      | with_reducible assumption
      | with_reducible rfl
      | (with_reducible refine alN_ite ?_ ?_)
      | (with_reducible refine Eq.trans (State.afterRise_frame ..).2.1 ?_)
      | (with_reducible refine Eq.trans (hf  _) ?_)
      | dsimp only
      | split
theorem State.withSummary_frM (s : State) (page : Nat) (f : State → State) (hf : ∀  t, (f  t).mem = t.mem) : (State.withSummary s page f).mem = s.mem := by
  unfold State.withSummary
  · repeat' first
      | with_reducible assumption
      | with_reducible rfl
      | (with_reducible refine alM_ite ?_ ?_)
      | (with_reducible refine Eq.trans (State.afterRise_frame ..).2.2 ?_)
      | (with_reducible refine Eq.trans (hf  _) ?_)
      | dsimp only
      | split
theorem State.withSummary_frW (s : State) (page : Nat) (f : State → State) (hf : ∀  t, Memory.wf t.mem = true → Memory.wf (f  t).mem = true) (hw : Memory.wf s.mem = true) : Memory.wf (State.withSummary s page f).mem = true := by
  unfold State.withSummary
  · repeat' first
      | with_reducible assumption
      | with_reducible rfl
      | (with_reducible refine alW_ite ?_ ?_)
      | (with_reducible refine wf_eq (State.afterRise_frame ..).2.2 ?_)
      | (with_reducible refine hf  _ ?_)
      | dsimp only
      | split

theorem State.raise_frame (s : State) (page i : Nat)  : (State.raise s page i).pending = s.pending ∧ (State.raise s page i).tck.now = s.tck.now ∧ (State.raise s page i).mem = s.mem := by
  unfold State.raise
  repeat' first
    | (simp only [implies_true, and_self, and_true, true_and, apply_ite State.pending, apply_ite State.mem, apply_ite State.tck, apply_ite TckSt.now, State.withSummary_frame, State.setBit_frame]; done)
    | (simp (maxDischargeDepth := 8) only [foldl_PMN, implies_true, and_self, and_true, true_and, apply_ite State.pending, apply_ite State.mem, apply_ite State.tck, apply_ite TckSt.now, State.withSummary_frame, State.setBit_frame]; done)
    | (with_reducible refine foldl_PMN _ _ _ (fun s a => ?_))
    | split
    | (simp only [implies_true, and_self, and_true, true_and, apply_ite State.pending, apply_ite State.mem, apply_ite State.tck, apply_ite TckSt.now, State.withSummary_frame, State.setBit_frame])

theorem State.raiseIf_frame (s : State) (c : Bool) (page i : Nat)  : (State.raiseIf s c page i).pending = s.pending ∧ (State.raiseIf s c page i).tck.now = s.tck.now ∧ (State.raiseIf s c page i).mem = s.mem := by
  unfold State.raiseIf
  repeat' first
    | (simp only [implies_true, and_self, and_true, true_and, apply_ite State.pending, apply_ite State.mem, apply_ite State.tck, apply_ite TckSt.now, State.raise_frame]; done)
    | (simp (maxDischargeDepth := 8) only [foldl_PMN, implies_true, and_self, and_true, true_and, apply_ite State.pending, apply_ite State.mem, apply_ite State.tck, apply_ite TckSt.now, State.raise_frame]; done)
    | (with_reducible refine foldl_PMN _ _ _ (fun s a => ?_))
    | split
    | (simp only [implies_true, and_self, and_true, true_and, apply_ite State.pending, apply_ite State.mem, apply_ite State.tck, apply_ite TckSt.now, State.raise_frame])

theorem State.logEvent_frame (s : State) (page cls code hi lo : Nat)  : (State.logEvent s page cls code hi lo).pending = s.pending ∧ (State.logEvent s page cls code hi lo).tck.now = s.tck.now ∧ (State.logEvent s page cls code hi lo).mem = s.mem := by
  unfold State.logEvent
  repeat' first
    | (simp only [implies_true, and_self, and_true, true_and, apply_ite State.pending, apply_ite State.mem, apply_ite State.tck, apply_ite TckSt.now, State.setReg64_frame, State.setRegN_frame, State.setFld_frame, State.setBit_frame, State.bump_frame, State.raise_frame]; done)
    | (simp (maxDischargeDepth := 8) only [foldl_PMN, implies_true, and_self, and_true, true_and, apply_ite State.pending, apply_ite State.mem, apply_ite State.tck, apply_ite TckSt.now, State.setReg64_frame, State.setRegN_frame, State.setFld_frame, State.setBit_frame, State.bump_frame, State.raise_frame]; done)
    | (with_reducible refine foldl_PMN _ _ _ (fun s a => ?_))
    | split
    | (simp only [implies_true, and_self, and_true, true_and, apply_ite State.pending, apply_ite State.mem, apply_ite State.tck, apply_ite TckSt.now, State.setReg64_frame, State.setRegN_frame, State.setFld_frame, State.setBit_frame, State.bump_frame, State.raise_frame])

theorem State.setRun_frame (s : State) (page c n : Nat)  : (State.setRun s page c n).pending = s.pending ∧ (State.setRun s page c n).tck.now = s.tck.now ∧ (State.setRun s page c n).mem = s.mem := by
  unfold State.setRun
  repeat' first
    | (simp only [implies_true, and_self, and_true, true_and, apply_ite State.pending, apply_ite State.mem, apply_ite State.tck, apply_ite TckSt.now]; done)
    | (simp (maxDischargeDepth := 8) only [foldl_PMN, implies_true, and_self, and_true, true_and, apply_ite State.pending, apply_ite State.mem, apply_ite State.tck, apply_ite TckSt.now]; done)
    | (with_reducible refine foldl_PMN _ _ _ (fun s a => ?_))
    | split
    | (simp only [implies_true, and_self, and_true, true_and, apply_ite State.pending, apply_ite State.mem, apply_ite State.tck, apply_ite TckSt.now])

theorem State.judgeFault_frame (s : State) (page c n : Nat)  : (State.judgeFault s page c n).pending = s.pending ∧ (State.judgeFault s page c n).tck.now = s.tck.now ∧ (State.judgeFault s page c n).mem = s.mem := by
  unfold State.judgeFault
  repeat' first
    | (simp only [implies_true, and_self, and_true, true_and, apply_ite State.pending, apply_ite State.mem, apply_ite State.tck, apply_ite TckSt.now, State.bump_frame]; done)
    | (simp (maxDischargeDepth := 8) only [foldl_PMN, implies_true, and_self, and_true, true_and, apply_ite State.pending, apply_ite State.mem, apply_ite State.tck, apply_ite TckSt.now, State.bump_frame]; done)
    | (with_reducible refine foldl_PMN _ _ _ (fun s a => ?_))
    | split
    | (simp only [implies_true, and_self, and_true, true_and, apply_ite State.pending, apply_ite State.mem, apply_ite State.tck, apply_ite TckSt.now, State.bump_frame])

theorem State.notDue_frame (s : State) (page c : Nat)  : (State.notDue s page c).pending = s.pending ∧ (State.notDue s page c).tck.now = s.tck.now ∧ (State.notDue s page c).mem = s.mem := by
  unfold State.notDue
  repeat' first
    | (simp only [implies_true, and_self, and_true, true_and, apply_ite State.pending, apply_ite State.mem, apply_ite State.tck, apply_ite TckSt.now]; done)
    | (simp (maxDischargeDepth := 8) only [foldl_PMN, implies_true, and_self, and_true, true_and, apply_ite State.pending, apply_ite State.mem, apply_ite State.tck, apply_ite TckSt.now]; done)
    | (with_reducible refine foldl_PMN _ _ _ (fun s a => ?_))
    | split
    | (simp only [implies_true, and_self, and_true, true_and, apply_ite State.pending, apply_ite State.mem, apply_ite State.tck, apply_ite TckSt.now])

theorem State.chanFault_frame (s : State) (page c code synHi : Nat)  : (State.chanFault s page c code synHi).pending = s.pending ∧ (State.chanFault s page c code synHi).tck.now = s.tck.now ∧ (State.chanFault s page c code synHi).mem = s.mem := by
  unfold State.chanFault
  repeat' first
    | (simp only [implies_true, and_self, and_true, true_and, apply_ite State.pending, apply_ite State.mem, apply_ite State.tck, apply_ite TckSt.now, State.setRun_frame, State.judgeFault_frame, State.logEvent_frame]; done)
    | (simp (maxDischargeDepth := 8) only [foldl_PMN, implies_true, and_self, and_true, true_and, apply_ite State.pending, apply_ite State.mem, apply_ite State.tck, apply_ite TckSt.now, State.setRun_frame, State.judgeFault_frame, State.logEvent_frame]; done)
    | (with_reducible refine foldl_PMN _ _ _ (fun s a => ?_))
    | split
    | (simp only [implies_true, and_self, and_true, true_and, apply_ite State.pending, apply_ite State.mem, apply_ite State.tck, apply_ite TckSt.now, State.setRun_frame, State.judgeFault_frame, State.logEvent_frame])

theorem State.chanOk_frame (s : State) (page c : Nat)  : (State.chanOk s page c).pending = s.pending ∧ (State.chanOk s page c).tck.now = s.tck.now ∧ (State.chanOk s page c).mem = s.mem := by
  unfold State.chanOk
  repeat' first
    | (simp only [implies_true, and_self, and_true, true_and, apply_ite State.pending, apply_ite State.mem, apply_ite State.tck, apply_ite TckSt.now, State.setRun_frame]; done)
    | (simp (maxDischargeDepth := 8) only [foldl_PMN, implies_true, and_self, and_true, true_and, apply_ite State.pending, apply_ite State.mem, apply_ite State.tck, apply_ite TckSt.now, State.setRun_frame]; done)
    | (with_reducible refine foldl_PMN _ _ _ (fun s a => ?_))
    | split
    | (simp only [implies_true, and_self, and_true, true_and, apply_ite State.pending, apply_ite State.mem, apply_ite State.tck, apply_ite TckSt.now, State.setRun_frame])

theorem State.retireInTick_frame (s : State) (page c code synHi : Nat) (t : Tick)  : (State.retireInTick s page c code synHi t).pending = s.pending ∧ (State.retireInTick s page c code synHi t).tck.now = s.tck.now ∧ (State.retireInTick s page c code synHi t).mem = s.mem := by
  unfold State.retireInTick
  repeat' first
    | (simp only [implies_true, and_self, and_true, true_and, apply_ite State.pending, apply_ite State.mem, apply_ite State.tck, apply_ite TckSt.now, State.notDue_frame, State.withSummary_frame, State.bump_frame, State.logEvent_frame]; done)
    | (simp (maxDischargeDepth := 8) only [foldl_PMN, implies_true, and_self, and_true, true_and, apply_ite State.pending, apply_ite State.mem, apply_ite State.tck, apply_ite TckSt.now, State.notDue_frame, State.withSummary_frame, State.bump_frame, State.logEvent_frame]; done)
    | (with_reducible refine foldl_PMN _ _ _ (fun s a => ?_))
    | split
    | (simp only [implies_true, and_self, and_true, true_and, apply_ite State.pending, apply_ite State.mem, apply_ite State.tck, apply_ite TckSt.now, State.notDue_frame, State.withSummary_frame, State.bump_frame, State.logEvent_frame])

theorem State.retire_frame (s : State) (page c code synHi : Nat)  : (State.retire s page c code synHi).pending = s.pending ∧ (State.retire s page c code synHi).tck.now = s.tck.now ∧ (State.retire s page c code synHi).mem = s.mem := by
  unfold State.retire
  repeat' first
    | (simp only [implies_true, and_self, and_true, true_and, apply_ite State.pending, apply_ite State.mem, apply_ite State.tck, apply_ite TckSt.now, State.retireInTick_frame]; done)
    | (simp (maxDischargeDepth := 8) only [foldl_PMN, implies_true, and_self, and_true, true_and, apply_ite State.pending, apply_ite State.mem, apply_ite State.tck, apply_ite TckSt.now, State.retireInTick_frame]; done)
    | (with_reducible refine foldl_PMN _ _ _ (fun s a => ?_))
    | split
    | (simp only [implies_true, and_self, and_true, true_and, apply_ite State.pending, apply_ite State.mem, apply_ite State.tck, apply_ite TckSt.now, State.retireInTick_frame])

theorem State.unretire_frame (s : State) (page c : Nat)  : (State.unretire s page c).pending = s.pending ∧ (State.unretire s page c).tck.now = s.tck.now ∧ (State.unretire s page c).mem = s.mem := by
  unfold State.unretire
  repeat' first
    | (simp only [implies_true, and_self, and_true, true_and, apply_ite State.pending, apply_ite State.mem, apply_ite State.tck, apply_ite TckSt.now, State.setRun_frame]; done)
    | (simp (maxDischargeDepth := 8) only [foldl_PMN, implies_true, and_self, and_true, true_and, apply_ite State.pending, apply_ite State.mem, apply_ite State.tck, apply_ite TckSt.now, State.setRun_frame]; done)
    | (with_reducible refine foldl_PMN _ _ _ (fun s a => ?_))
    | split
    | (simp only [implies_true, and_self, and_true, true_and, apply_ite State.pending, apply_ite State.mem, apply_ite State.tck, apply_ite TckSt.now, State.setRun_frame])

theorem State.addCommit_frame (s : State) (c : PendCommit)  : (State.addCommit s c).pending = s.pending ∧ (State.addCommit s c).tck.now = s.tck.now ∧ (State.addCommit s c).mem = s.mem := by
  unfold State.addCommit
  repeat' first
    | (simp only [implies_true, and_self, and_true, true_and, apply_ite State.pending, apply_ite State.mem, apply_ite State.tck, apply_ite TckSt.now]; done)
    | (simp (maxDischargeDepth := 8) only [foldl_PMN, implies_true, and_self, and_true, true_and, apply_ite State.pending, apply_ite State.mem, apply_ite State.tck, apply_ite TckSt.now]; done)
    | (with_reducible refine foldl_PMN _ _ _ (fun s a => ?_))
    | split
    | (simp only [implies_true, and_self, and_true, true_and, apply_ite State.pending, apply_ite State.mem, apply_ite State.tck, apply_ite TckSt.now])

theorem State.dropCommit_frame (s : State) (page : Nat)  : (State.dropCommit s page).pending = s.pending ∧ (State.dropCommit s page).tck.now = s.tck.now ∧ (State.dropCommit s page).mem = s.mem := by
  unfold State.dropCommit
  repeat' first
    | (simp only [implies_true, and_self, and_true, true_and, apply_ite State.pending, apply_ite State.mem, apply_ite State.tck, apply_ite TckSt.now]; done)
    | (simp (maxDischargeDepth := 8) only [foldl_PMN, implies_true, and_self, and_true, true_and, apply_ite State.pending, apply_ite State.mem, apply_ite State.tck, apply_ite TckSt.now]; done)
    | (with_reducible refine foldl_PMN _ _ _ (fun s a => ?_))
    | split
    | (simp only [implies_true, and_self, and_true, true_and, apply_ite State.pending, apply_ite State.mem, apply_ite State.tck, apply_ite TckSt.now])

end Sys2Proof.Machine
end

