-- ==== Sys2Proof/Laws/FrameAccess.lean ====
section
/-! SUPPORT. What every operation of Machine/Access.lean leaves alone: the queue of waiting commands, the tick counter (unless it
writes it), and memory or its canonical form. -/

namespace Sys2Proof.Machine

set_option linter.all false
set_option Elab.async false
set_option maxRecDepth 4000

theorem State.respond_frame (s : State) (m : Nat) (write : Bool) (addr : Nat) (st : RespStatus) (data : Word)  : (State.respond s m write addr st data).pending = s.pending ∧ (State.respond s m write addr st data).tck.now = s.tck.now ∧ (State.respond s m write addr st data).mem = s.mem := by
  unfold State.respond
  repeat' first
    | (simp only [implies_true, and_self, and_true, true_and, apply_ite State.pending, apply_ite State.mem, apply_ite State.tck, apply_ite TckSt.now]; done)
    | (simp (maxDischargeDepth := 8) only [foldl_PMN, implies_true, and_self, and_true, true_and, apply_ite State.pending, apply_ite State.mem, apply_ite State.tck, apply_ite TckSt.now]; done)
    | (with_reducible refine foldl_PMN _ _ _ (fun s a => ?_))
    | split
    | (simp only [implies_true, and_self, and_true, true_and, apply_ite State.pending, apply_ite State.mem, apply_ite State.tck, apply_ite TckSt.now])

theorem State.logViolation_frame (s : State) (page m : Nat) (write : Bool) (addr kind : Nat)  : (State.logViolation s page m write addr kind).pending = s.pending ∧ (State.logViolation s page m write addr kind).tck.now = s.tck.now ∧ (State.logViolation s page m write addr kind).mem = s.mem := by
  unfold State.logViolation
  repeat' first
    | (simp only [implies_true, and_self, and_true, true_and, apply_ite State.pending, apply_ite State.mem, apply_ite State.tck, apply_ite TckSt.now, State.setRegN_frame]; done)
    | (simp (maxDischargeDepth := 8) only [foldl_PMN, implies_true, and_self, and_true, true_and, apply_ite State.pending, apply_ite State.mem, apply_ite State.tck, apply_ite TckSt.now, State.setRegN_frame]; done)
    | (with_reducible refine foldl_PMN _ _ _ (fun s a => ?_))
    | split
    | (simp only [implies_true, and_self, and_true, true_and, apply_ite State.pending, apply_ite State.mem, apply_ite State.tck, apply_ite TckSt.now, State.setRegN_frame])

theorem State.violate_frame (s : State) (m : Nat) (write : Bool) (addr kind : Nat)  : (State.violate s m write addr kind).pending = s.pending ∧ (State.violate s m write addr kind).tck.now = s.tck.now ∧ (State.violate s m write addr kind).mem = s.mem := by
  unfold State.violate
  repeat' first
    | (simp only [implies_true, and_self, and_true, true_and, apply_ite State.pending, apply_ite State.mem, apply_ite State.tck, apply_ite TckSt.now, State.logViolation_frame, State.respond_frame, State.raiseIf_frame]; done)
    | (simp (maxDischargeDepth := 8) only [foldl_PMN, implies_true, and_self, and_true, true_and, apply_ite State.pending, apply_ite State.mem, apply_ite State.tck, apply_ite TckSt.now, State.logViolation_frame, State.respond_frame, State.raiseIf_frame]; done)
    | (with_reducible refine foldl_PMN _ _ _ (fun s a => ?_))
    | split
    | (simp only [implies_true, and_self, and_true, true_and, apply_ite State.pending, apply_ite State.mem, apply_ite State.tck, apply_ite TckSt.now, State.logViolation_frame, State.respond_frame, State.raiseIf_frame])

theorem State.decodeErr_frame (s : State) (m : Nat) (write : Bool) (addr : Nat)  : (State.decodeErr s m write addr).pending = s.pending ∧ (State.decodeErr s m write addr).tck.now = s.tck.now ∧ (State.decodeErr s m write addr).mem = s.mem := by
  unfold State.decodeErr
  repeat' first
    | (simp only [implies_true, and_self, and_true, true_and, apply_ite State.pending, apply_ite State.mem, apply_ite State.tck, apply_ite TckSt.now, State.setRegN_frame, State.raise_frame, State.respond_frame, State.violate_frame]; done)
    | (simp (maxDischargeDepth := 8) only [foldl_PMN, implies_true, and_self, and_true, true_and, apply_ite State.pending, apply_ite State.mem, apply_ite State.tck, apply_ite TckSt.now, State.setRegN_frame, State.raise_frame, State.respond_frame, State.violate_frame]; done)
    | (with_reducible refine foldl_PMN _ _ _ (fun s a => ?_))
    | split
    | (simp only [implies_true, and_self, and_true, true_and, apply_ite State.pending, apply_ite State.mem, apply_ite State.tck, apply_ite TckSt.now, State.setRegN_frame, State.raise_frame, State.respond_frame, State.violate_frame])

theorem State.holdAccess_frame (s : State) (m : Nat) (write : Bool) (addr : Nat) (v : Word)  : (State.holdAccess s m write addr v).pending = s.pending ∧ (State.holdAccess s m write addr v).tck.now = s.tck.now ∧ (State.holdAccess s m write addr v).mem = s.mem := by
  unfold State.holdAccess
  repeat' first
    | (simp only [implies_true, and_self, and_true, true_and, apply_ite State.pending, apply_ite State.mem, apply_ite State.tck, apply_ite TckSt.now]; done)
    | (simp (maxDischargeDepth := 8) only [foldl_PMN, implies_true, and_self, and_true, true_and, apply_ite State.pending, apply_ite State.mem, apply_ite State.tck, apply_ite TckSt.now]; done)
    | (with_reducible refine foldl_PMN _ _ _ (fun s a => ?_))
    | split
    | (simp only [implies_true, and_self, and_true, true_and, apply_ite State.pending, apply_ite State.mem, apply_ite State.tck, apply_ite TckSt.now])

theorem State.resetMaster_frame (s : State) (m : Nat)  : (State.resetMaster s m).pending = s.pending ∧ (State.resetMaster s m).tck.now = s.tck.now ∧ (State.resetMaster s m).mem = s.mem := by
  unfold State.resetMaster
  repeat' first
    | (simp only [implies_true, and_self, and_true, true_and, apply_ite State.pending, apply_ite State.mem, apply_ite State.tck, apply_ite TckSt.now]; done)
    | (simp (maxDischargeDepth := 8) only [foldl_PMN, implies_true, and_self, and_true, true_and, apply_ite State.pending, apply_ite State.mem, apply_ite State.tck, apply_ite TckSt.now]; done)
    | (with_reducible refine foldl_PMN _ _ _ (fun s a => ?_))
    | split
    | (simp only [implies_true, and_self, and_true, true_and, apply_ite State.pending, apply_ite State.mem, apply_ite State.tck, apply_ite TckSt.now])

theorem State.journalReg_frame (s : State) (addr : Nat) (v : Word)  : (State.journalReg s addr v).pending = s.pending ∧ (State.journalReg s addr v).tck.now = s.tck.now ∧ (State.journalReg s addr v).mem = s.mem := by
  unfold State.journalReg
  repeat' first
    | (simp only [implies_true, and_self, and_true, true_and, apply_ite State.pending, apply_ite State.mem, apply_ite State.tck, apply_ite TckSt.now, State.journalPut_frame]; done)
    | (simp (maxDischargeDepth := 8) only [foldl_PMN, implies_true, and_self, and_true, true_and, apply_ite State.pending, apply_ite State.mem, apply_ite State.tck, apply_ite TckSt.now, State.journalPut_frame]; done)
    | (with_reducible refine foldl_PMN _ _ _ (fun s a => ?_))
    | split
    | (simp only [implies_true, and_self, and_true, true_and, apply_ite State.pending, apply_ite State.mem, apply_ite State.tck, apply_ite TckSt.now, State.journalPut_frame])

theorem State.journalWords_frame (s : State) (l : List (Nat × Nat))  : (State.journalWords s l).pending = s.pending ∧ (State.journalWords s l).tck.now = s.tck.now ∧ (State.journalWords s l).mem = s.mem := by
  unfold State.journalWords
  repeat' first
    | (simp only [implies_true, and_self, and_true, true_and, apply_ite State.pending, apply_ite State.mem, apply_ite State.tck, apply_ite TckSt.now, State.journalPut_frame]; done)
    | (simp (maxDischargeDepth := 8) only [foldl_PMN, implies_true, and_self, and_true, true_and, apply_ite State.pending, apply_ite State.mem, apply_ite State.tck, apply_ite TckSt.now, State.journalPut_frame]; done)
    | (with_reducible refine foldl_PMN _ _ _ (fun s a => ?_))
    | split
    | (simp only [implies_true, and_self, and_true, true_and, apply_ite State.pending, apply_ite State.mem, apply_ite State.tck, apply_ite TckSt.now, State.journalPut_frame])

theorem State.gateWrite_frame (s : State) (m addr : Nat) (v : Word) (eff : State → State) (heff : ∀  t, (eff  t).pending = t.pending ∧ (eff  t).tck.now = t.tck.now ∧ (eff  t).mem = t.mem)  : (State.gateWrite s m addr v eff).pending = s.pending ∧ (State.gateWrite s m addr v eff).tck.now = s.tck.now ∧ (State.gateWrite s m addr v eff).mem = s.mem := by
  unfold State.gateWrite
  repeat' first
    | (simp only [implies_true, and_self, and_true, true_and, apply_ite State.pending, apply_ite State.mem, apply_ite State.tck, apply_ite TckSt.now, State.holdAccess_frame, State.decodeErr_frame, State.violate_frame, State.respond_frame, State.journalReg_frame, heff]; done)
    | (simp (maxDischargeDepth := 8) only [foldl_PMN, implies_true, and_self, and_true, true_and, apply_ite State.pending, apply_ite State.mem, apply_ite State.tck, apply_ite TckSt.now, State.holdAccess_frame, State.decodeErr_frame, State.violate_frame, State.respond_frame, State.journalReg_frame, heff]; done)
    | (with_reducible refine foldl_PMN _ _ _ (fun s a => ?_))
    | split
    | (simp only [implies_true, and_self, and_true, true_and, apply_ite State.pending, apply_ite State.mem, apply_ite State.tck, apply_ite TckSt.now, State.holdAccess_frame, State.decodeErr_frame, State.violate_frame, State.respond_frame, State.journalReg_frame, heff])
theorem State.gateWrite_frP (s : State) (m addr : Nat) (v : Word) (eff : State → State) (heff : ∀  t, (eff  t).pending = t.pending) : (State.gateWrite s m addr v eff).pending = s.pending := by
  unfold State.gateWrite
  · repeat' first
      | with_reducible assumption
      | with_reducible rfl
      | (with_reducible refine alP_ite ?_ ?_)
      | (with_reducible refine Eq.trans (State.holdAccess_frame ..).1 ?_)
      | (with_reducible refine Eq.trans (State.decodeErr_frame ..).1 ?_)
      | (with_reducible refine Eq.trans (State.violate_frame ..).1 ?_)
      | (with_reducible refine Eq.trans (State.respond_frame ..).1 ?_)
      | (with_reducible refine Eq.trans (State.journalReg_frame ..).1 ?_)
      | (with_reducible refine Eq.trans (heff  _) ?_)
      | dsimp only
      | split
theorem State.gateWrite_frN (s : State) (m addr : Nat) (v : Word) (eff : State → State) (heff : ∀  t, (eff  t).tck.now = t.tck.now) : (State.gateWrite s m addr v eff).tck.now = s.tck.now := by
  unfold State.gateWrite
  · repeat' first
      | with_reducible assumption
      | with_reducible rfl
      | (with_reducible refine alN_ite ?_ ?_)
      | (with_reducible refine Eq.trans (State.holdAccess_frame ..).2.1 ?_)
      | (with_reducible refine Eq.trans (State.decodeErr_frame ..).2.1 ?_)
      | (with_reducible refine Eq.trans (State.violate_frame ..).2.1 ?_)
      | (with_reducible refine Eq.trans (State.respond_frame ..).2.1 ?_)
      | (with_reducible refine Eq.trans (State.journalReg_frame ..).2.1 ?_)
      | (with_reducible refine Eq.trans (heff  _) ?_)
      | dsimp only
      | split
theorem State.gateWrite_frM (s : State) (m addr : Nat) (v : Word) (eff : State → State) (heff : ∀  t, (eff  t).mem = t.mem) : (State.gateWrite s m addr v eff).mem = s.mem := by
  unfold State.gateWrite
  · repeat' first
      | with_reducible assumption
      | with_reducible rfl
      | (with_reducible refine alM_ite ?_ ?_)
      | (with_reducible refine Eq.trans (State.holdAccess_frame ..).2.2 ?_)
      | (with_reducible refine Eq.trans (State.decodeErr_frame ..).2.2 ?_)
      | (with_reducible refine Eq.trans (State.violate_frame ..).2.2 ?_)
      | (with_reducible refine Eq.trans (State.respond_frame ..).2.2 ?_)
      | (with_reducible refine Eq.trans (State.journalReg_frame ..).2.2 ?_)
      | (with_reducible refine Eq.trans (heff  _) ?_)
      | dsimp only
      | split
theorem State.gateWrite_frW (s : State) (m addr : Nat) (v : Word) (eff : State → State) (heff : ∀  t, Memory.wf t.mem = true → Memory.wf (eff  t).mem = true) (hw : Memory.wf s.mem = true) : Memory.wf (State.gateWrite s m addr v eff).mem = true := by
  unfold State.gateWrite
  · repeat' first
      | with_reducible assumption
      | with_reducible rfl
      | (with_reducible refine alW_ite ?_ ?_)
      | (with_reducible refine wf_eq (State.holdAccess_frame ..).2.2 ?_)
      | (with_reducible refine wf_eq (State.decodeErr_frame ..).2.2 ?_)
      | (with_reducible refine wf_eq (State.violate_frame ..).2.2 ?_)
      | (with_reducible refine wf_eq (State.respond_frame ..).2.2 ?_)
      | (with_reducible refine wf_eq (State.journalReg_frame ..).2.2 ?_)
      | (with_reducible refine heff  _ ?_)
      | dsimp only
      | split

theorem State.noteWritten_frame (s : State) (addr : Nat)  : (State.noteWritten s addr).pending = s.pending ∧ (State.noteWritten s addr).tck.now = s.tck.now ∧ (State.noteWritten s addr).mem = s.mem := by
  unfold State.noteWritten
  repeat' first
    | (simp only [implies_true, and_self, and_true, true_and, apply_ite State.pending, apply_ite State.mem, apply_ite State.tck, apply_ite TckSt.now, State.setBit_frame]; done)
    | (simp (maxDischargeDepth := 8) only [foldl_PMN, implies_true, and_self, and_true, true_and, apply_ite State.pending, apply_ite State.mem, apply_ite State.tck, apply_ite TckSt.now, State.setBit_frame]; done)
    | (with_reducible refine foldl_PMN _ _ _ (fun s a => ?_))
    | split
    | (simp only [implies_true, and_self, and_true, true_and, apply_ite State.pending, apply_ite State.mem, apply_ite State.tck, apply_ite TckSt.now, State.setBit_frame])

theorem State.setForceIf_frame (s : State) (c : Bool) (k : Nat) (v : Word)  : (State.setForceIf s c k v).pending = s.pending ∧ (State.setForceIf s c k v).tck.now = s.tck.now ∧ (State.setForceIf s c k v).mem = s.mem := by
  unfold State.setForceIf
  repeat' first
    | (simp only [implies_true, and_self, and_true, true_and, apply_ite State.pending, apply_ite State.mem, apply_ite State.tck, apply_ite TckSt.now, State.setForce_frame]; done)
    | (simp (maxDischargeDepth := 8) only [foldl_PMN, implies_true, and_self, and_true, true_and, apply_ite State.pending, apply_ite State.mem, apply_ite State.tck, apply_ite TckSt.now, State.setForce_frame]; done)
    | (with_reducible refine foldl_PMN _ _ _ (fun s a => ?_))
    | split
    | (simp only [implies_true, and_self, and_true, true_and, apply_ite State.pending, apply_ite State.mem, apply_ite State.tck, apply_ite TckSt.now, State.setForce_frame])

theorem State.storeRow_frame (s : State) (key : Nat) (r : RegRow) (v : Word)  : (State.storeRow s key r v).pending = s.pending ∧ (State.storeRow s key r v).tck.now = s.tck.now ∧ (State.storeRow s key r v).mem = s.mem := by
  unfold State.storeRow
  repeat' first
    | (simp only [implies_true, and_self, and_true, true_and, apply_ite State.pending, apply_ite State.mem, apply_ite State.tck, apply_ite TckSt.now, State.setReg_frame, State.setForceIf_frame, State.noteWritten_frame]; done)
    | (simp (maxDischargeDepth := 8) only [foldl_PMN, implies_true, and_self, and_true, true_and, apply_ite State.pending, apply_ite State.mem, apply_ite State.tck, apply_ite TckSt.now, State.setReg_frame, State.setForceIf_frame, State.noteWritten_frame]; done)
    | (with_reducible refine foldl_PMN _ _ _ (fun s a => ?_))
    | split
    | (simp only [implies_true, and_self, and_true, true_and, apply_ite State.pending, apply_ite State.mem, apply_ite State.tck, apply_ite TckSt.now, State.setReg_frame, State.setForceIf_frame, State.noteWritten_frame])

theorem State.storeReg_frame (s : State) (key : Nat) (v : Word)  : (State.storeReg s key v).pending = s.pending ∧ (State.storeReg s key v).tck.now = s.tck.now ∧ (State.storeReg s key v).mem = s.mem := by
  unfold State.storeReg
  repeat' first
    | (simp only [implies_true, and_self, and_true, true_and, apply_ite State.pending, apply_ite State.mem, apply_ite State.tck, apply_ite TckSt.now, State.storeRow_frame]; done)
    | (simp (maxDischargeDepth := 8) only [foldl_PMN, implies_true, and_self, and_true, true_and, apply_ite State.pending, apply_ite State.mem, apply_ite State.tck, apply_ite TckSt.now, State.storeRow_frame]; done)
    | (with_reducible refine foldl_PMN _ _ _ (fun s a => ?_))
    | split
    | (simp only [implies_true, and_self, and_true, true_and, apply_ite State.pending, apply_ite State.mem, apply_ite State.tck, apply_ite TckSt.now, State.storeRow_frame])

theorem State.clearBits_frame (s : State) (key : Nat) (v : Word) (w1c persist : Nat)  : (State.clearBits s key v w1c persist).pending = s.pending ∧ (State.clearBits s key v w1c persist).tck.now = s.tck.now ∧ (State.clearBits s key v w1c persist).mem = s.mem := by
  unfold State.clearBits
  repeat' first
    | (simp only [implies_true, and_self, and_true, true_and, apply_ite State.pending, apply_ite State.mem, apply_ite State.tck, apply_ite TckSt.now, State.setReg_frame, State.setBit_frame]; done)
    | (simp (maxDischargeDepth := 8) only [foldl_PMN, implies_true, and_self, and_true, true_and, apply_ite State.pending, apply_ite State.mem, apply_ite State.tck, apply_ite TckSt.now, State.setReg_frame, State.setBit_frame]; done)
    | (with_reducible refine foldl_PMN _ _ _ (fun s a => ?_))
    | split
    | (simp only [implies_true, and_self, and_true, true_and, apply_ite State.pending, apply_ite State.mem, apply_ite State.tck, apply_ite TckSt.now, State.setReg_frame, State.setBit_frame])

theorem State.refuseWrite_frame (s : State) (m addr : Nat)  : (State.refuseWrite s m addr).pending = s.pending ∧ (State.refuseWrite s m addr).tck.now = s.tck.now ∧ (State.refuseWrite s m addr).mem = s.mem := by
  unfold State.refuseWrite
  repeat' first
    | (simp only [implies_true, and_self, and_true, true_and, apply_ite State.pending, apply_ite State.mem, apply_ite State.tck, apply_ite TckSt.now, State.violate_frame]; done)
    | (simp (maxDischargeDepth := 8) only [foldl_PMN, implies_true, and_self, and_true, true_and, apply_ite State.pending, apply_ite State.mem, apply_ite State.tck, apply_ite TckSt.now, State.violate_frame]; done)
    | (with_reducible refine foldl_PMN _ _ _ (fun s a => ?_))
    | split
    | (simp only [implies_true, and_self, and_true, true_and, apply_ite State.pending, apply_ite State.mem, apply_ite State.tck, apply_ite TckSt.now, State.violate_frame])

end Sys2Proof.Machine
end

