-- ==== Sys2Proof/Laws/FrameTopo.lean ====
section
/-! SUPPORT. What every operation of Machine/Topo.lean leaves alone: the queue of waiting commands, the tick counter (unless it
writes it), and memory or its canonical form. -/

namespace Sys2Proof.Machine

set_option linter.all false
set_option Elab.async false
set_option maxRecDepth 4000

theorem State.staleJobs_frame (s : State)  : (State.staleJobs s).pending = s.pending ∧ (State.staleJobs s).tck.now = s.tck.now ∧ (State.staleJobs s).mem = s.mem := by
  unfold State.staleJobs
  repeat' first
    | (simp only [implies_true, and_self, and_true, true_and, apply_ite State.pending, apply_ite State.mem, apply_ite State.tck, apply_ite TckSt.now]; done)
    | (simp (maxDischargeDepth := 8) only [foldl_PMN, implies_true, and_self, and_true, true_and, apply_ite State.pending, apply_ite State.mem, apply_ite State.tck, apply_ite TckSt.now]; done)
    | (with_reducible refine foldl_PMN _ _ _ (fun s a => ?_))
    | split
    | (simp only [implies_true, and_self, and_true, true_and, apply_ite State.pending, apply_ite State.mem, apply_ite State.tck, apply_ite TckSt.now])

theorem State.writeRet_frame (s : State) (c code : Nat)  : (State.writeRet s c code).pending = s.pending ∧ (State.writeRet s c code).tck.now = s.tck.now ∧ (State.writeRet s c code).mem = s.mem := by
  unfold State.writeRet
  repeat' first
    | (simp only [implies_true, and_self, and_true, true_and, apply_ite State.pending, apply_ite State.mem, apply_ite State.tck, apply_ite TckSt.now, State.staleJobs_frame, State.setFld_frame, State.journalWords_frame, State.raise_frame]; done)
    | (simp (maxDischargeDepth := 8) only [foldl_PMN, implies_true, and_self, and_true, true_and, apply_ite State.pending, apply_ite State.mem, apply_ite State.tck, apply_ite TckSt.now, State.staleJobs_frame, State.setFld_frame, State.journalWords_frame, State.raise_frame]; done)
    | (with_reducible refine foldl_PMN _ _ _ (fun s a => ?_))
    | split
    | (simp only [implies_true, and_self, and_true, true_and, apply_ite State.pending, apply_ite State.mem, apply_ite State.tck, apply_ite TckSt.now, State.staleJobs_frame, State.setFld_frame, State.journalWords_frame, State.raise_frame])

theorem State.putRec_frame (s : State) (i topoId gen flags : Nat) (cells : List Byte)  : (State.putRec s i topoId gen flags cells).pending = s.pending ∧ (State.putRec s i topoId gen flags cells).tck.now = s.tck.now ∧ (Memory.wf s.mem = true → Memory.wf (State.putRec s i topoId gen flags cells).mem = true) := by
  unfold State.putRec
  refine (and_assoc.1 ⟨?_, fun h => ?_⟩)
  · repeat' first
      | (simp only [implies_true, and_self, and_true, true_and, apply_ite State.pending, apply_ite State.tck, apply_ite TckSt.now, State.setBytes_frame]; done)
      | (simp (maxDischargeDepth := 8) only [foldl_PN, implies_true, and_self, and_true, true_and, apply_ite State.pending, apply_ite State.tck, apply_ite TckSt.now, State.setBytes_frame]; done)
      | (with_reducible refine foldl_PN _ _ _ (fun s a => ?_))
      | split
      | (simp only [implies_true, and_self, and_true, true_and, apply_ite State.pending, apply_ite State.tck, apply_ite TckSt.now, State.setBytes_frame])
  · repeat' first
      | with_reducible assumption
      | (with_reducible refine wf_ite ?_ ?_)
      | (with_reducible refine (State.setBytes_frame ..).2.2 ?_)
      | (with_reducible refine foldl_wf _ _ _ (fun s a h => ?_) ?_)
      | dsimp only
      | split

theorem State.setAbsent_frame (s : State) (n : Nat) (b : Bool)  : (State.setAbsent s n b).pending = s.pending ∧ (State.setAbsent s n b).tck.now = s.tck.now ∧ (State.setAbsent s n b).mem = s.mem := by
  unfold State.setAbsent
  repeat' first
    | (simp only [implies_true, and_self, and_true, true_and, apply_ite State.pending, apply_ite State.mem, apply_ite State.tck, apply_ite TckSt.now, State.staleJobs_frame, State.setBit_frame, State.raiseIf_frame]; done)
    | (simp (maxDischargeDepth := 8) only [foldl_PMN, implies_true, and_self, and_true, true_and, apply_ite State.pending, apply_ite State.mem, apply_ite State.tck, apply_ite TckSt.now, State.staleJobs_frame, State.setBit_frame, State.raiseIf_frame]; done)
    | (with_reducible refine foldl_PMN _ _ _ (fun s a => ?_))
    | split
    | (simp only [implies_true, and_self, and_true, true_and, apply_ite State.pending, apply_ite State.mem, apply_ite State.tck, apply_ite TckSt.now, State.staleJobs_frame, State.setBit_frame, State.raiseIf_frame])

end Sys2Proof.Machine
end

