-- ==== Sys2Proof/Laws/FrameLoops.lean ====
section
/-! SUPPORT. What every operation of Machine/Loops.lean leaves alone: the queue of waiting commands, the tick counter (unless it
writes it), and memory or its canonical form. -/

namespace Sys2Proof.Machine

set_option linter.all false
set_option Elab.async false
set_option maxRecDepth 4000

theorem State.setLoop_frame (s : State) (l : Nat) (f : Loop → Loop)  : (State.setLoop s l f).pending = s.pending ∧ (State.setLoop s l f).tck.now = s.tck.now ∧ (State.setLoop s l f).mem = s.mem := by
  unfold State.setLoop
  repeat' first
    | (simp only [implies_true, and_self, and_true, true_and, apply_ite State.pending, apply_ite State.mem, apply_ite State.tck, apply_ite TckSt.now]; done)
    | (simp (maxDischargeDepth := 8) only [foldl_PMN, implies_true, and_self, and_true, true_and, apply_ite State.pending, apply_ite State.mem, apply_ite State.tck, apply_ite TckSt.now]; done)
    | (with_reducible refine foldl_PMN _ _ _ (fun s a => ?_))
    | split
    | (simp only [implies_true, and_self, and_true, true_and, apply_ite State.pending, apply_ite State.mem, apply_ite State.tck, apply_ite TckSt.now])

theorem State.setLoopState_frame (s : State) (l : Nat) (st : LoopState) (t : Tick)  : (State.setLoopState s l st t).pending = s.pending ∧ (State.setLoopState s l st t).tck.now = s.tck.now ∧ (State.setLoopState s l st t).mem = s.mem := by
  unfold State.setLoopState
  repeat' first
    | (simp only [implies_true, and_self, and_true, true_and, apply_ite State.pending, apply_ite State.mem, apply_ite State.tck, apply_ite TckSt.now, State.setLoop_frame]; done)
    | (simp (maxDischargeDepth := 8) only [foldl_PMN, implies_true, and_self, and_true, true_and, apply_ite State.pending, apply_ite State.mem, apply_ite State.tck, apply_ite TckSt.now, State.setLoop_frame]; done)
    | (with_reducible refine foldl_PMN _ _ _ (fun s a => ?_))
    | split
    | (simp only [implies_true, and_self, and_true, true_and, apply_ite State.pending, apply_ite State.mem, apply_ite State.tck, apply_ite TckSt.now, State.setLoop_frame])

theorem State.freezeLoop_frame (s : State) (l : Nat) (t : Tick)  : (State.freezeLoop s l t).pending = s.pending ∧ (State.freezeLoop s l t).tck.now = s.tck.now ∧ (State.freezeLoop s l t).mem = s.mem := by
  unfold State.freezeLoop
  repeat' first
    | (simp only [implies_true, and_self, and_true, true_and, apply_ite State.pending, apply_ite State.mem, apply_ite State.tck, apply_ite TckSt.now, State.setLoop_frame, State.writeRet_frame]; done)
    | (simp (maxDischargeDepth := 8) only [foldl_PMN, implies_true, and_self, and_true, true_and, apply_ite State.pending, apply_ite State.mem, apply_ite State.tck, apply_ite TckSt.now, State.setLoop_frame, State.writeRet_frame]; done)
    | (with_reducible refine foldl_PMN _ _ _ (fun s a => ?_))
    | split
    | (simp only [implies_true, and_self, and_true, true_and, apply_ite State.pending, apply_ite State.mem, apply_ite State.tck, apply_ite TckSt.now, State.setLoop_frame, State.writeRet_frame])

theorem State.takeWaiting_frame (s : State) (slot : Nat) (r : CalRec)  : (State.takeWaiting s slot r).pending = s.pending ∧ (State.takeWaiting s slot r).tck.now = s.tck.now ∧ (State.takeWaiting s slot r).mem = s.mem := by
  unfold State.takeWaiting
  repeat' first
    | (simp only [implies_true, and_self, and_true, true_and, apply_ite State.pending, apply_ite State.mem, apply_ite State.tck, apply_ite TckSt.now, State.setLoop_frame]; done)
    | (simp (maxDischargeDepth := 8) only [foldl_PMN, implies_true, and_self, and_true, true_and, apply_ite State.pending, apply_ite State.mem, apply_ite State.tck, apply_ite TckSt.now, State.setLoop_frame]; done)
    | (with_reducible refine foldl_PMN _ _ _ (fun s a => ?_))
    | split
    | (simp only [implies_true, and_self, and_true, true_and, apply_ite State.pending, apply_ite State.mem, apply_ite State.tck, apply_ite TckSt.now, State.setLoop_frame])

theorem State.unretireLoop_frame (s : State) (l : Nat)  : (State.unretireLoop s l).pending = s.pending ∧ (State.unretireLoop s l).tck.now = s.tck.now ∧ (State.unretireLoop s l).mem = s.mem := by
  unfold State.unretireLoop
  repeat' first
    | (simp only [implies_true, and_self, and_true, true_and, apply_ite State.pending, apply_ite State.mem, apply_ite State.tck, apply_ite TckSt.now, State.unretire_frame]; done)
    | (simp (maxDischargeDepth := 8) only [foldl_PMN, implies_true, and_self, and_true, true_and, apply_ite State.pending, apply_ite State.mem, apply_ite State.tck, apply_ite TckSt.now, State.unretire_frame]; done)
    | (with_reducible refine foldl_PMN _ _ _ (fun s a => ?_))
    | split
    | (simp only [implies_true, and_self, and_true, true_and, apply_ite State.pending, apply_ite State.mem, apply_ite State.tck, apply_ite TckSt.now, State.unretire_frame])

theorem State.releaseLoop_frame (s : State) (l : Nat) (t : Tick)  : (State.releaseLoop s l t).pending = s.pending ∧ (State.releaseLoop s l t).tck.now = s.tck.now ∧ (State.releaseLoop s l t).mem = s.mem := by
  unfold State.releaseLoop
  repeat' first
    | (simp only [implies_true, and_self, and_true, true_and, apply_ite State.pending, apply_ite State.mem, apply_ite State.tck, apply_ite TckSt.now, State.setLoop_frame, State.unretireLoop_frame, State.takeWaiting_frame]; done)
    | (simp (maxDischargeDepth := 8) only [foldl_PMN, implies_true, and_self, and_true, true_and, apply_ite State.pending, apply_ite State.mem, apply_ite State.tck, apply_ite TckSt.now, State.setLoop_frame, State.unretireLoop_frame, State.takeWaiting_frame]; done)
    | (with_reducible refine foldl_PMN _ _ _ (fun s a => ?_))
    | split
    | (simp only [implies_true, and_self, and_true, true_and, apply_ite State.pending, apply_ite State.mem, apply_ite State.tck, apply_ite TckSt.now, State.setLoop_frame, State.unretireLoop_frame, State.takeWaiting_frame])

theorem State.loopCmd_frame (s : State) (op arg l : Nat) (t : Tick) {r : State} (e : State.loopCmd s op arg l t = some r) : r.pending = s.pending ∧ r.tck.now = s.tck.now ∧ r.mem = s.mem := by
  unfold State.loopCmd at e
  dsimp only at e
  revert e
  repeat' first
    | with_reducible exact opt_none (P := fun r => r.pending = s.pending ∧ r.tck.now = s.tck.now ∧ r.mem = s.mem)
    | (with_reducible refine opt_some (P := fun r => r.pending = s.pending ∧ r.tck.now = s.tck.now ∧ r.mem = s.mem) ?_)
    | (with_reducible refine opt_ite (P := fun r => r.pending = s.pending ∧ r.tck.now = s.tck.now ∧ r.mem = s.mem) ?_ ?_)
    | with_reducible exact State.setLoop_frame ..
    | with_reducible exact State.setLoopState_frame ..
    | with_reducible exact State.freezeLoop_frame ..
    | with_reducible exact State.releaseLoop_frame ..

theorem State.runLoopCmd_frame (s : State) (t : Tick)  : (State.runLoopCmd s t).1.pending = s.pending ∧ (State.runLoopCmd s t).1.tck.now = s.tck.now ∧ (State.runLoopCmd s t).1.mem = s.mem := by
  unfold State.runLoopCmd
  refine ⟨?_, ?_, ?_⟩
  · repeat' first
      | with_reducible assumption
      | with_reducible rfl
      | (with_reducible refine alP_ite ?_ ?_)
      | (with_reducible refine alP_itep0 ?_ ?_)
      | (with_reducible refine alP_itep1 ?_ ?_)
      | (with_reducible refine Eq.trans (State.count_frame ..).1 ?_)
      | (with_reducible refine Eq.trans (State.loopCmd_frame (e := by assumption) ..).1 ?_)
      | (with_reducible refine alP_fold0 _ _ _ (fun r a h => ?_) ?_)
      | (with_reducible refine alP_fold1 _ _ _ (fun r a h => ?_) ?_)
      | (with_reducible refine alP_fold2 _ _ _ (fun r a h => ?_) ?_)
      | dsimp only
      | split
  · repeat' first
      | with_reducible assumption
      | with_reducible rfl
      | (with_reducible refine alN_ite ?_ ?_)
      | (with_reducible refine alN_itep0 ?_ ?_)
      | (with_reducible refine alN_itep1 ?_ ?_)
      | (with_reducible refine Eq.trans (State.count_frame ..).2.1 ?_)
      | (with_reducible refine Eq.trans (State.loopCmd_frame (e := by assumption) ..).2.1 ?_)
      | (with_reducible refine alN_fold0 _ _ _ (fun r a h => ?_) ?_)
      | (with_reducible refine alN_fold1 _ _ _ (fun r a h => ?_) ?_)
      | (with_reducible refine alN_fold2 _ _ _ (fun r a h => ?_) ?_)
      | dsimp only
      | split
  · repeat' first
      | with_reducible assumption
      | with_reducible rfl
      | (with_reducible refine alM_ite ?_ ?_)
      | (with_reducible refine alM_itep0 ?_ ?_)
      | (with_reducible refine alM_itep1 ?_ ?_)
      | (with_reducible refine Eq.trans (State.count_frame ..).2.2 ?_)
      | (with_reducible refine Eq.trans (State.loopCmd_frame (e := by assumption) ..).2.2 ?_)
      | (with_reducible refine alM_fold0 _ _ _ (fun r a h => ?_) ?_)
      | (with_reducible refine alM_fold1 _ _ _ (fun r a h => ?_) ?_)
      | (with_reducible refine alM_fold2 _ _ _ (fun r a h => ?_) ?_)
      | dsimp only
      | split

theorem State.swapMem_frame (s : State) (lo size : Nat) (hs : lo + 2 * size ≤ 0x14000000) :
    (State.swapMem s lo size).pending = s.pending ∧ (State.swapMem s lo size).tck.now = s.tck.now ∧
      (Memory.wf s.mem = true → Memory.wf (State.swapMem s lo size).mem = true) := by
  exact ⟨rfl, rfl, State.swapMem_wf s lo size hs⟩

theorem State.copyMem_frame (s : State) (src dst size : Nat)  : (State.copyMem s src dst size).pending = s.pending ∧ (State.copyMem s src dst size).tck.now = s.tck.now ∧ (Memory.wf s.mem = true → Memory.wf (State.copyMem s src dst size).mem = true) := by
  unfold State.copyMem
  refine (and_assoc.1 ⟨?_, fun h => ?_⟩)
  · repeat' first
      | (simp only [implies_true, and_self, and_true, true_and, apply_ite State.pending, apply_ite State.tck, apply_ite TckSt.now, State.setByte_frame, State.clearMem_frame]; done)
      | (simp (maxDischargeDepth := 8) only [foldl_PN, implies_true, and_self, and_true, true_and, apply_ite State.pending, apply_ite State.tck, apply_ite TckSt.now, State.setByte_frame, State.clearMem_frame]; done)
      | (with_reducible refine foldl_PN _ _ _ (fun s a => ?_))
      | split
      | (simp only [implies_true, and_self, and_true, true_and, apply_ite State.pending, apply_ite State.tck, apply_ite TckSt.now, State.setByte_frame, State.clearMem_frame])
  · repeat' first
      | with_reducible assumption
      | (with_reducible refine wf_ite ?_ ?_)
      | (with_reducible refine (State.setByte_frame ..).2.2 ?_)
      | (with_reducible refine (State.clearMem_frame ..).2.2 ?_)
      | (with_reducible refine foldl_wf _ _ _ (fun s a h => ?_) ?_)
      | dsimp only
      | split

theorem State.bumplessAll_frame (o s : State)  : (State.bumplessAll o s).1.pending = s.pending ∧ (State.bumplessAll o s).1.tck.now = s.tck.now ∧ (State.bumplessAll o s).1.mem = s.mem := by
  unfold State.bumplessAll
  refine ⟨?_, ?_, ?_⟩
  · repeat' first
      | with_reducible assumption
      | with_reducible rfl
      | (with_reducible refine alP_ite ?_ ?_)
      | (with_reducible refine alP_itep0 ?_ ?_)
      | (with_reducible refine alP_itep1 ?_ ?_)
      | (with_reducible refine Eq.trans (State.setLoop_frame ..).1 ?_)
      | (with_reducible refine alP_fold0 _ _ _ (fun r a h => ?_) ?_)
      | (with_reducible refine alP_fold1 _ _ _ (fun r a h => ?_) ?_)
      | (with_reducible refine alP_fold2 _ _ _ (fun r a h => ?_) ?_)
      | dsimp only
      | split
  · repeat' first
      | with_reducible assumption
      | with_reducible rfl
      | (with_reducible refine alN_ite ?_ ?_)
      | (with_reducible refine alN_itep0 ?_ ?_)
      | (with_reducible refine alN_itep1 ?_ ?_)
      | (with_reducible refine Eq.trans (State.setLoop_frame ..).2.1 ?_)
      | (with_reducible refine alN_fold0 _ _ _ (fun r a h => ?_) ?_)
      | (with_reducible refine alN_fold1 _ _ _ (fun r a h => ?_) ?_)
      | (with_reducible refine alN_fold2 _ _ _ (fun r a h => ?_) ?_)
      | dsimp only
      | split
  · repeat' first
      | with_reducible assumption
      | with_reducible rfl
      | (with_reducible refine alM_ite ?_ ?_)
      | (with_reducible refine alM_itep0 ?_ ?_)
      | (with_reducible refine alM_itep1 ?_ ?_)
      | (with_reducible refine Eq.trans (State.setLoop_frame ..).2.2 ?_)
      | (with_reducible refine alM_fold0 _ _ _ (fun r a h => ?_) ?_)
      | (with_reducible refine alM_fold1 _ _ _ (fun r a h => ?_) ?_)
      | (with_reducible refine alM_fold2 _ _ _ (fun r a h => ?_) ?_)
      | dsimp only
      | split

theorem State.prfCommitAt_frame (s : State) (t : Tick)  : (State.prfCommitAt s t).pending = s.pending ∧ (State.prfCommitAt s t).tck.now = s.tck.now ∧ (Memory.wf s.mem = true → Memory.wf (State.prfCommitAt s t).mem = true) := by
  unfold State.prfCommitAt
  refine (and_assoc.1 ⟨?_, fun h => ?_⟩)
  · repeat' first
      | (simp only [implies_true, and_self, and_true, true_and, apply_ite State.pending, apply_ite State.tck, apply_ite TckSt.now, State.dropCommit_frame, State.setForce_frame, State.runLoopCmd_frame, State.setFld_frame, State.swapMem_frame _ profActive profSize (by decide), State.setBit_frame, State.count_frame, State.bumplessAll_frame, State.setRegN_frame, State.raise_frame, State.raiseIf_frame]; done)
      | (simp (maxDischargeDepth := 8) only [foldl_PN, implies_true, and_self, and_true, true_and, apply_ite State.pending, apply_ite State.tck, apply_ite TckSt.now, State.dropCommit_frame, State.setForce_frame, State.runLoopCmd_frame, State.setFld_frame, State.swapMem_frame _ profActive profSize (by decide), State.setBit_frame, State.count_frame, State.bumplessAll_frame, State.setRegN_frame, State.raise_frame, State.raiseIf_frame]; done)
      | (with_reducible refine foldl_PN _ _ _ (fun s a => ?_))
      | split
      | (simp only [implies_true, and_self, and_true, true_and, apply_ite State.pending, apply_ite State.tck, apply_ite TckSt.now, State.dropCommit_frame, State.setForce_frame, State.runLoopCmd_frame, State.setFld_frame, State.swapMem_frame _ profActive profSize (by decide), State.setBit_frame, State.count_frame, State.bumplessAll_frame, State.setRegN_frame, State.raise_frame, State.raiseIf_frame])
  · repeat' first
      | with_reducible assumption
      | (with_reducible refine wf_ite ?_ ?_)
      | (with_reducible refine wf_eq (State.dropCommit_frame ..).2.2 ?_)
      | (with_reducible refine wf_eq (State.setForce_frame ..).2.2 ?_)
      | (with_reducible refine wf_eq (State.runLoopCmd_frame ..).2.2 ?_)
      | (with_reducible refine wf_eq (State.setFld_frame ..).2.2 ?_)
      | (with_reducible refine (State.swapMem_frame _ profActive profSize (by decide)).2.2 ?_)
      | (with_reducible refine wf_eq (State.setBit_frame ..).2.2 ?_)
      | (with_reducible refine wf_eq (State.count_frame ..).2.2 ?_)
      | (with_reducible refine wf_eq (State.bumplessAll_frame ..).2.2 ?_)
      | (with_reducible refine wf_eq (State.setRegN_frame ..).2.2 ?_)
      | (with_reducible refine wf_eq (State.raise_frame ..).2.2 ?_)
      | (with_reducible refine wf_eq (State.raiseIf_frame ..).2.2 ?_)
      | (with_reducible refine foldl_wf _ _ _ (fun s a h => ?_) ?_)
      | dsimp only
      | split

theorem State.prfRefuse_frame (s : State) (code : Nat)  : (State.prfRefuse s code).pending = s.pending ∧ (State.prfRefuse s code).tck.now = s.tck.now ∧ (State.prfRefuse s code).mem = s.mem := by
  unfold State.prfRefuse
  repeat' first
    | (simp only [implies_true, and_self, and_true, true_and, apply_ite State.pending, apply_ite State.mem, apply_ite State.tck, apply_ite TckSt.now, State.setFld_frame, State.raise_frame]; done)
    | (simp (maxDischargeDepth := 8) only [foldl_PMN, implies_true, and_self, and_true, true_and, apply_ite State.pending, apply_ite State.mem, apply_ite State.tck, apply_ite TckSt.now, State.setFld_frame, State.raise_frame]; done)
    | (with_reducible refine foldl_PMN _ _ _ (fun s a => ?_))
    | split
    | (simp only [implies_true, and_self, and_true, true_and, apply_ite State.pending, apply_ite State.mem, apply_ite State.tck, apply_ite TckSt.now, State.setFld_frame, State.raise_frame])

theorem State.copyBackDone_frame (s : State)  : (State.copyBackDone s).pending = s.pending ∧ (State.copyBackDone s).tck.now = s.tck.now ∧ (Memory.wf s.mem = true → Memory.wf (State.copyBackDone s).mem = true) := by
  unfold State.copyBackDone
  refine (and_assoc.1 ⟨?_, fun h => ?_⟩)
  · repeat' first
      | (simp only [implies_true, and_self, and_true, true_and, apply_ite State.pending, apply_ite State.tck, apply_ite TckSt.now, State.copyMem_frame, State.setBit_frame, State.raise_frame]; done)
      | (simp (maxDischargeDepth := 8) only [foldl_PN, implies_true, and_self, and_true, true_and, apply_ite State.pending, apply_ite State.tck, apply_ite TckSt.now, State.copyMem_frame, State.setBit_frame, State.raise_frame]; done)
      | (with_reducible refine foldl_PN _ _ _ (fun s a => ?_))
      | split
      | (simp only [implies_true, and_self, and_true, true_and, apply_ite State.pending, apply_ite State.tck, apply_ite TckSt.now, State.copyMem_frame, State.setBit_frame, State.raise_frame])
  · repeat' first
      | with_reducible assumption
      | (with_reducible refine wf_ite ?_ ?_)
      | (with_reducible refine (State.copyMem_frame ..).2.2 ?_)
      | (with_reducible refine wf_eq (State.setBit_frame ..).2.2 ?_)
      | (with_reducible refine wf_eq (State.raise_frame ..).2.2 ?_)
      | (with_reducible refine foldl_wf _ _ _ (fun s a h => ?_) ?_)
      | dsimp only
      | split

theorem State.loopFault_frame (s : State) (l : Nat)  : (State.loopFault s l).pending = s.pending ∧ (State.loopFault s l).tck.now = s.tck.now ∧ (State.loopFault s l).mem = s.mem := by
  unfold State.loopFault
  repeat' first
    | (simp only [implies_true, and_self, and_true, true_and, apply_ite State.pending, apply_ite State.mem, apply_ite State.tck, apply_ite TckSt.now, State.setLoop_frame, State.count_frame, State.setRegN_frame, State.raise_frame, State.judgeFault_frame, State.logEvent_frame]; done)
    | (simp (maxDischargeDepth := 8) only [foldl_PMN, implies_true, and_self, and_true, true_and, apply_ite State.pending, apply_ite State.mem, apply_ite State.tck, apply_ite TckSt.now, State.setLoop_frame, State.count_frame, State.setRegN_frame, State.raise_frame, State.judgeFault_frame, State.logEvent_frame]; done)
    | (with_reducible refine foldl_PMN _ _ _ (fun s a => ?_))
    | split
    | (simp only [implies_true, and_self, and_true, true_and, apply_ite State.pending, apply_ite State.mem, apply_ite State.tck, apply_ite TckSt.now, State.setLoop_frame, State.count_frame, State.setRegN_frame, State.raise_frame, State.judgeFault_frame, State.logEvent_frame])

theorem State.retireLoop_frame (s : State) (l : Nat) (t : Tick)  : (State.retireLoop s l t).pending = s.pending ∧ (State.retireLoop s l t).tck.now = s.tck.now ∧ (State.retireLoop s l t).mem = s.mem := by
  unfold State.retireLoop
  repeat' first
    | (simp only [implies_true, and_self, and_true, true_and, apply_ite State.pending, apply_ite State.mem, apply_ite State.tck, apply_ite TckSt.now, State.retire_frame, State.count_frame, State.setRegN_frame, State.raise_frame, State.freezeLoop_frame]; done)
    | (simp (maxDischargeDepth := 8) only [foldl_PMN, implies_true, and_self, and_true, true_and, apply_ite State.pending, apply_ite State.mem, apply_ite State.tck, apply_ite TckSt.now, State.retire_frame, State.count_frame, State.setRegN_frame, State.raise_frame, State.freezeLoop_frame]; done)
    | (with_reducible refine foldl_PMN _ _ _ (fun s a => ?_))
    | split
    | (simp only [implies_true, and_self, and_true, true_and, apply_ite State.pending, apply_ite State.mem, apply_ite State.tck, apply_ite TckSt.now, State.retire_frame, State.count_frame, State.setRegN_frame, State.raise_frame, State.freezeLoop_frame])

theorem State.retireLoopIfDue_frame (s : State) (l : Nat)  : (State.retireLoopIfDue s l).pending = s.pending ∧ (State.retireLoopIfDue s l).tck.now = s.tck.now ∧ (State.retireLoopIfDue s l).mem = s.mem := by
  unfold State.retireLoopIfDue
  repeat' first
    | (simp only [implies_true, and_self, and_true, true_and, apply_ite State.pending, apply_ite State.mem, apply_ite State.tck, apply_ite TckSt.now, State.retireLoop_frame]; done)
    | (simp (maxDischargeDepth := 8) only [foldl_PMN, implies_true, and_self, and_true, true_and, apply_ite State.pending, apply_ite State.mem, apply_ite State.tck, apply_ite TckSt.now, State.retireLoop_frame]; done)
    | (with_reducible refine foldl_PMN _ _ _ (fun s a => ?_))
    | split
    | (simp only [implies_true, and_self, and_true, true_and, apply_ite State.pending, apply_ite State.mem, apply_ite State.tck, apply_ite TckSt.now, State.retireLoop_frame])

theorem State.settleLoopRetires_frame (s : State)  : (State.settleLoopRetires s).pending = s.pending ∧ (State.settleLoopRetires s).tck.now = s.tck.now ∧ (State.settleLoopRetires s).mem = s.mem := by
  unfold State.settleLoopRetires
  repeat' first
    | (simp only [implies_true, and_self, and_true, true_and, apply_ite State.pending, apply_ite State.mem, apply_ite State.tck, apply_ite TckSt.now, State.retireLoopIfDue_frame]; done)
    | (simp (maxDischargeDepth := 8) only [foldl_PMN, implies_true, and_self, and_true, true_and, apply_ite State.pending, apply_ite State.mem, apply_ite State.tck, apply_ite TckSt.now, State.retireLoopIfDue_frame]; done)
    | (with_reducible refine foldl_PMN _ _ _ (fun s a => ?_))
    | split
    | (simp only [implies_true, and_self, and_true, true_and, apply_ite State.pending, apply_ite State.mem, apply_ite State.tck, apply_ite TckSt.now, State.retireLoopIfDue_frame])

theorem State.ctxWrite_frame (s : State) (l o : Nat) (w : Word)  : (State.ctxWrite s l o w).pending = s.pending ∧ (State.ctxWrite s l o w).tck.now = s.tck.now ∧ (State.ctxWrite s l o w).mem = s.mem := by
  unfold State.ctxWrite
  repeat' first
    | (simp only [implies_true, and_self, and_true, true_and, apply_ite State.pending, apply_ite State.mem, apply_ite State.tck, apply_ite TckSt.now, State.setLoop_frame]; done)
    | (simp (maxDischargeDepth := 8) only [foldl_PMN, implies_true, and_self, and_true, true_and, apply_ite State.pending, apply_ite State.mem, apply_ite State.tck, apply_ite TckSt.now, State.setLoop_frame]; done)
    | (with_reducible refine foldl_PMN _ _ _ (fun s a => ?_))
    | split
    | (simp only [implies_true, and_self, and_true, true_and, apply_ite State.pending, apply_ite State.mem, apply_ite State.tck, apply_ite TckSt.now, State.setLoop_frame])

theorem State.takePark_frame (s : State)  : (State.takePark s).pending = s.pending ∧ (State.takePark s).tck.now = s.tck.now ∧ (State.takePark s).mem = s.mem := by
  unfold State.takePark
  repeat' first
    | (simp only [implies_true, and_self, and_true, true_and, apply_ite State.pending, apply_ite State.mem, apply_ite State.tck, apply_ite TckSt.now, State.setLoop_frame]; done)
    | (simp (maxDischargeDepth := 8) only [foldl_PMN, implies_true, and_self, and_true, true_and, apply_ite State.pending, apply_ite State.mem, apply_ite State.tck, apply_ite TckSt.now, State.setLoop_frame]; done)
    | (with_reducible refine foldl_PMN _ _ _ (fun s a => ?_))
    | split
    | (simp only [implies_true, and_self, and_true, true_and, apply_ite State.pending, apply_ite State.mem, apply_ite State.tck, apply_ite TckSt.now, State.setLoop_frame])

end Sys2Proof.Machine
end

