-- ==== Sys2Proof/Laws/FrameTck.lean ====
section
/-! SUPPORT. What every operation of Machine/Tck.lean leaves alone: the queue of waiting commands, the tick counter (unless it
writes it), and memory or its canonical form. -/

namespace Sys2Proof.Machine

set_option linter.all false
set_option Elab.async false
set_option maxRecDepth 4000

theorem State.tckStatus_frame (s : State)  : (State.tckStatus s).pending = s.pending ∧ (State.tckStatus s).tck.now = s.tck.now ∧ (State.tckStatus s).mem = s.mem := by
  unfold State.tckStatus
  repeat' first
    | (simp only [implies_true, and_self, and_true, true_and, apply_ite State.pending, apply_ite State.mem, apply_ite State.tck, apply_ite TckSt.now, State.setRegN_frame, State.setBit_frame, State.raiseIf_frame]; done)
    | (simp (maxDischargeDepth := 8) only [foldl_PMN, implies_true, and_self, and_true, true_and, apply_ite State.pending, apply_ite State.mem, apply_ite State.tck, apply_ite TckSt.now, State.setRegN_frame, State.setBit_frame, State.raiseIf_frame]; done)
    | (with_reducible refine foldl_PMN _ _ _ (fun s a => ?_))
    | split
    | (simp only [implies_true, and_self, and_true, true_and, apply_ite State.pending, apply_ite State.mem, apply_ite State.tck, apply_ite TckSt.now, State.setRegN_frame, State.setBit_frame, State.raiseIf_frame])

theorem State.setTransition_frame (s : State)  : (State.setTransition s).pending = s.pending ∧ (State.setTransition s).tck.now = s.tck.now ∧ (State.setTransition s).mem = s.mem := by
  unfold State.setTransition
  repeat' first
    | (simp only [implies_true, and_self, and_true, true_and, apply_ite State.pending, apply_ite State.mem, apply_ite State.tck, apply_ite TckSt.now, State.setBit_frame]; done)
    | (simp (maxDischargeDepth := 8) only [foldl_PMN, implies_true, and_self, and_true, true_and, apply_ite State.pending, apply_ite State.mem, apply_ite State.tck, apply_ite TckSt.now, State.setBit_frame]; done)
    | (with_reducible refine foldl_PMN _ _ _ (fun s a => ?_))
    | split
    | (simp only [implies_true, and_self, and_true, true_and, apply_ite State.pending, apply_ite State.mem, apply_ite State.tck, apply_ite TckSt.now, State.setBit_frame])

theorem State.tckCancel_frame (s : State)  : (State.tckCancel s).pending = s.pending ∧ (State.tckCancel s).tck.now = s.tck.now ∧ (State.tckCancel s).mem = s.mem := by
  unfold State.tckCancel
  repeat' first
    | (simp only [implies_true, and_self, and_true, true_and, apply_ite State.pending, apply_ite State.mem, apply_ite State.tck, apply_ite TckSt.now, State.dropCommit_frame, State.setRegN_frame, State.setTransition_frame, State.raiseIf_frame]; done)
    | (simp (maxDischargeDepth := 8) only [foldl_PMN, implies_true, and_self, and_true, true_and, apply_ite State.pending, apply_ite State.mem, apply_ite State.tck, apply_ite TckSt.now, State.dropCommit_frame, State.setRegN_frame, State.setTransition_frame, State.raiseIf_frame]; done)
    | (with_reducible refine foldl_PMN _ _ _ (fun s a => ?_))
    | split
    | (simp only [implies_true, and_self, and_true, true_and, apply_ite State.pending, apply_ite State.mem, apply_ite State.tck, apply_ite TckSt.now, State.dropCommit_frame, State.setRegN_frame, State.setTransition_frame, State.raiseIf_frame])

theorem State.tckTakeViews_frame (s : State)  : (State.tckTakeViews s).pending = s.pending ∧ (State.tckTakeViews s).tck.now = s.tck.now ∧ (State.tckTakeViews s).mem = s.mem := by
  unfold State.tckTakeViews
  repeat' first
    | (simp only [implies_true, and_self, and_true, true_and, apply_ite State.pending, apply_ite State.mem, apply_ite State.tck, apply_ite TckSt.now, State.setForce_frame]; done)
    | (simp (maxDischargeDepth := 8) only [foldl_PMN, implies_true, and_self, and_true, true_and, apply_ite State.pending, apply_ite State.mem, apply_ite State.tck, apply_ite TckSt.now, State.setForce_frame]; done)
    | (with_reducible refine foldl_PMN _ _ _ (fun s a => ?_))
    | split
    | (simp only [implies_true, and_self, and_true, true_and, apply_ite State.pending, apply_ite State.mem, apply_ite State.tck, apply_ite TckSt.now, State.setForce_frame])

theorem State.updateAlt_frame (s : State)  : (State.updateAlt s).pending = s.pending ∧ (State.updateAlt s).tck.now = s.tck.now ∧ (State.updateAlt s).mem = s.mem := by
  unfold State.updateAlt
  repeat' first
    | (simp only [implies_true, and_self, and_true, true_and, apply_ite State.pending, apply_ite State.mem, apply_ite State.tck, apply_ite TckSt.now, State.setRegN_frame, State.setBit_frame, State.raiseIf_frame]; done)
    | (simp (maxDischargeDepth := 8) only [foldl_PMN, implies_true, and_self, and_true, true_and, apply_ite State.pending, apply_ite State.mem, apply_ite State.tck, apply_ite TckSt.now, State.setRegN_frame, State.setBit_frame, State.raiseIf_frame]; done)
    | (with_reducible refine foldl_PMN _ _ _ (fun s a => ?_))
    | split
    | (simp only [implies_true, and_self, and_true, true_and, apply_ite State.pending, apply_ite State.mem, apply_ite State.tck, apply_ite TckSt.now, State.setRegN_frame, State.setBit_frame, State.raiseIf_frame])

theorem State.tckCommitAt_frame (s : State) (n : Tick)  : (State.tckCommitAt s n).pending = s.pending ∧ (State.tckCommitAt s n).tck.now = s.tck.now ∧ (State.tckCommitAt s n).mem = s.mem := by
  unfold State.tckCommitAt
  repeat' first
    | (simp only [implies_true, and_self, and_true, true_and, apply_ite State.pending, apply_ite State.mem, apply_ite State.tck, apply_ite TckSt.now, State.tckTakeViews_frame, State.dropCommit_frame, State.setRegN_frame, State.setTransition_frame, State.raiseIf_frame]; done)
    | (simp (maxDischargeDepth := 8) only [foldl_PMN, implies_true, and_self, and_true, true_and, apply_ite State.pending, apply_ite State.mem, apply_ite State.tck, apply_ite TckSt.now, State.tckTakeViews_frame, State.dropCommit_frame, State.setRegN_frame, State.setTransition_frame, State.raiseIf_frame]; done)
    | (with_reducible refine foldl_PMN _ _ _ (fun s a => ?_))
    | split
    | (simp only [implies_true, and_self, and_true, true_and, apply_ite State.pending, apply_ite State.mem, apply_ite State.tck, apply_ite TckSt.now, State.tckTakeViews_frame, State.dropCommit_frame, State.setRegN_frame, State.setTransition_frame, State.raiseIf_frame])

theorem State.beginTick_frame (s : State)  : (State.beginTick s).pending = s.pending ∧ (State.beginTick s).tck.now = s.tck.now ∧ (State.beginTick s).mem = s.mem := by
  unfold State.beginTick
  repeat' first
    | (simp only [implies_true, and_self, and_true, true_and, apply_ite State.pending, apply_ite State.mem, apply_ite State.tck, apply_ite TckSt.now, State.setBit_frame]; done)
    | (simp (maxDischargeDepth := 8) only [foldl_PMN, implies_true, and_self, and_true, true_and, apply_ite State.pending, apply_ite State.mem, apply_ite State.tck, apply_ite TckSt.now, State.setBit_frame]; done)
    | (with_reducible refine foldl_PMN _ _ _ (fun s a => ?_))
    | split
    | (simp only [implies_true, and_self, and_true, true_and, apply_ite State.pending, apply_ite State.mem, apply_ite State.tck, apply_ite TckSt.now, State.setBit_frame])

theorem State.stopWatch_frame (s : State)  : (State.stopWatch s).pending = s.pending ∧ (State.stopWatch s).tck.now = s.tck.now ∧ (State.stopWatch s).mem = s.mem := by
  unfold State.stopWatch
  repeat' first
    | (simp only [implies_true, and_self, and_true, true_and, apply_ite State.pending, apply_ite State.mem, apply_ite State.tck, apply_ite TckSt.now, State.setRegN_frame]; done)
    | (simp (maxDischargeDepth := 8) only [foldl_PMN, implies_true, and_self, and_true, true_and, apply_ite State.pending, apply_ite State.mem, apply_ite State.tck, apply_ite TckSt.now, State.setRegN_frame]; done)
    | (with_reducible refine foldl_PMN _ _ _ (fun s a => ?_))
    | split
    | (simp only [implies_true, and_self, and_true, true_and, apply_ite State.pending, apply_ite State.mem, apply_ite State.tck, apply_ite TckSt.now, State.setRegN_frame])

theorem State.stopAtBoundary_frame (s : State) (n : Tick)  : (State.stopAtBoundary s n).pending = s.pending ∧ (State.stopAtBoundary s n).tck.now = s.tck.now ∧ (State.stopAtBoundary s n).mem = s.mem := by
  unfold State.stopAtBoundary
  repeat' first
    | (simp only [implies_true, and_self, and_true, true_and, apply_ite State.pending, apply_ite State.mem, apply_ite State.tck, apply_ite TckSt.now, State.setBit_frame]; done)
    | (simp (maxDischargeDepth := 8) only [foldl_PMN, implies_true, and_self, and_true, true_and, apply_ite State.pending, apply_ite State.mem, apply_ite State.tck, apply_ite TckSt.now, State.setBit_frame]; done)
    | (with_reducible refine foldl_PMN _ _ _ (fun s a => ?_))
    | split
    | (simp only [implies_true, and_self, and_true, true_and, apply_ite State.pending, apply_ite State.mem, apply_ite State.tck, apply_ite TckSt.now, State.setBit_frame])

theorem State.nextBoundary?_frame (s : State) {r : State} (e : State.nextBoundary? s = some r) : r.pending = s.pending ∧ r.mem = s.mem := by
  unfold State.nextBoundary? at e
  refine ⟨?_, ?_⟩
  · repeat' first
      | with_reducible assumption
      | with_reducible rfl
      | (with_reducible refine alP_ite ?_ ?_)
      | (with_reducible refine Eq.trans (State.setBit_frame ..).1 ?_)
      | (with_reducible refine alP_some e ?_)
      | dsimp only at e
      | (split at e)
      | (simp only [reduceCtorEq] at e; done)
      | dsimp only
      | split
  · repeat' first
      | with_reducible assumption
      | with_reducible rfl
      | (with_reducible refine alM_ite ?_ ?_)
      | (with_reducible refine Eq.trans (State.setBit_frame ..).2.2 ?_)
      | (with_reducible refine alM_some e ?_)
      | dsimp only at e
      | (split at e)
      | (simp only [reduceCtorEq] at e; done)
      | dsimp only
      | split

theorem State.toggleHb_frame (s : State)  : (State.toggleHb s).pending = s.pending ∧ (State.toggleHb s).tck.now = s.tck.now ∧ (State.toggleHb s).mem = s.mem := by
  unfold State.toggleHb
  repeat' first
    | (simp only [implies_true, and_self, and_true, true_and, apply_ite State.pending, apply_ite State.mem, apply_ite State.tck, apply_ite TckSt.now]; done)
    | (simp (maxDischargeDepth := 8) only [foldl_PMN, implies_true, and_self, and_true, true_and, apply_ite State.pending, apply_ite State.mem, apply_ite State.tck, apply_ite TckSt.now]; done)
    | (with_reducible refine foldl_PMN _ _ _ (fun s a => ?_))
    | split
    | (simp only [implies_true, and_self, and_true, true_and, apply_ite State.pending, apply_ite State.mem, apply_ite State.tck, apply_ite TckSt.now])

theorem State.clearChecked_frame (s : State)  : (State.clearChecked s).pending = s.pending ∧ (State.clearChecked s).tck.now = s.tck.now ∧ (State.clearChecked s).mem = s.mem := by
  unfold State.clearChecked
  repeat' first
    | (simp only [implies_true, and_self, and_true, true_and, apply_ite State.pending, apply_ite State.mem, apply_ite State.tck, apply_ite TckSt.now, State.setBit_frame, State.dropCommit_frame, State.setRegN_frame, State.raise_frame]; done)
    | (simp (maxDischargeDepth := 8) only [foldl_PMN, implies_true, and_self, and_true, true_and, apply_ite State.pending, apply_ite State.mem, apply_ite State.tck, apply_ite TckSt.now, State.setBit_frame, State.dropCommit_frame, State.setRegN_frame, State.raise_frame]; done)
    | (with_reducible refine foldl_PMN _ _ _ (fun s a => ?_))
    | split
    | (simp only [implies_true, and_self, and_true, true_and, apply_ite State.pending, apply_ite State.mem, apply_ite State.tck, apply_ite TckSt.now, State.setBit_frame, State.dropCommit_frame, State.setRegN_frame, State.raise_frame])

theorem State.startTck_frame (s : State)  : (State.startTck s).pending = s.pending ∧ (State.startTck s).tck.now = s.tck.now ∧ (State.startTck s).mem = s.mem := by
  unfold State.startTck
  repeat' first
    | (simp only [implies_true, and_self, and_true, true_and, apply_ite State.pending, apply_ite State.mem, apply_ite State.tck, apply_ite TckSt.now, State.setRegN_frame, State.setForce_frame, State.clearChecked_frame]; done)
    | (simp (maxDischargeDepth := 8) only [foldl_PMN, implies_true, and_self, and_true, true_and, apply_ite State.pending, apply_ite State.mem, apply_ite State.tck, apply_ite TckSt.now, State.setRegN_frame, State.setForce_frame, State.clearChecked_frame]; done)
    | (with_reducible refine foldl_PMN _ _ _ (fun s a => ?_))
    | split
    | (simp only [implies_true, and_self, and_true, true_and, apply_ite State.pending, apply_ite State.mem, apply_ite State.tck, apply_ite TckSt.now, State.setRegN_frame, State.setForce_frame, State.clearChecked_frame])

theorem State.stopTck_frame (s : State)  : (State.stopTck s).pending = s.pending ∧ (State.stopTck s).tck.now = s.tck.now ∧ (State.stopTck s).mem = s.mem := by
  unfold State.stopTck
  repeat' first
    | (simp only [implies_true, and_self, and_true, true_and, apply_ite State.pending, apply_ite State.mem, apply_ite State.tck, apply_ite TckSt.now, State.setRegN_frame]; done)
    | (simp (maxDischargeDepth := 8) only [foldl_PMN, implies_true, and_self, and_true, true_and, apply_ite State.pending, apply_ite State.mem, apply_ite State.tck, apply_ite TckSt.now, State.setRegN_frame]; done)
    | (with_reducible refine foldl_PMN _ _ _ (fun s a => ?_))
    | split
    | (simp only [implies_true, and_self, and_true, true_and, apply_ite State.pending, apply_ite State.mem, apply_ite State.tck, apply_ite TckSt.now, State.setRegN_frame])

theorem State.tckCtrlWrite_frame (s : State) (v : Word)  : (State.tckCtrlWrite s v).pending = s.pending ∧ (State.tckCtrlWrite s v).tck.now = s.tck.now ∧ (State.tckCtrlWrite s v).mem = s.mem := by
  unfold State.tckCtrlWrite
  repeat' first
    | (simp only [implies_true, and_self, and_true, true_and, apply_ite State.pending, apply_ite State.mem, apply_ite State.tck, apply_ite TckSt.now, State.storeReg_frame, State.stopTck_frame, State.startTck_frame]; done)
    | (simp (maxDischargeDepth := 8) only [foldl_PMN, implies_true, and_self, and_true, true_and, apply_ite State.pending, apply_ite State.mem, apply_ite State.tck, apply_ite TckSt.now, State.storeReg_frame, State.stopTck_frame, State.startTck_frame]; done)
    | (with_reducible refine foldl_PMN _ _ _ (fun s a => ?_))
    | split
    | (simp only [implies_true, and_self, and_true, true_and, apply_ite State.pending, apply_ite State.mem, apply_ite State.tck, apply_ite TckSt.now, State.storeReg_frame, State.stopTck_frame, State.startTck_frame])

theorem execRingmasterStart_frame (m : Fin 8) (cycle : Nat) (alt : Bool) (s : State) {r : State} (e : execRingmasterStart m cycle alt s = .next r) : r.pending = s.pending ∧ r.tck.now = s.tck.now ∧ r.mem = s.mem := by
  unfold execRingmasterStart at e
  revert e
  intro e
  refine ⟨?_, ?_, ?_⟩
  · revert e
    repeat' first
      | with_reducible assumption
      | with_reducible rfl
      | (with_reducible refine Eq.trans (State.atCycle_frame ..).1 ?_)
      | (with_reducible refine Eq.trans (State.gateWrite_frP (heff := fun _ => ?_) ..) ?_)
      | (with_reducible refine Eq.trans (State.storeReg_frame ..).1 ?_)
      | (with_reducible refine Eq.trans (State.startTck_frame ..).1 ?_)
      | (with_reducible refine ocP_next ?_)
      | with_reducible exact ocP_fault
      | dsimp only
      | split
  · revert e
    repeat' first
      | with_reducible assumption
      | with_reducible rfl
      | (with_reducible refine Eq.trans (State.atCycle_frame ..).2.1 ?_)
      | (with_reducible refine Eq.trans (State.gateWrite_frN (heff := fun _ => ?_) ..) ?_)
      | (with_reducible refine Eq.trans (State.storeReg_frame ..).2.1 ?_)
      | (with_reducible refine Eq.trans (State.startTck_frame ..).2.1 ?_)
      | (with_reducible refine ocN_next ?_)
      | with_reducible exact ocN_fault
      | dsimp only
      | split
  · revert e
    repeat' first
      | with_reducible assumption
      | with_reducible rfl
      | (with_reducible refine Eq.trans (State.atCycle_frame ..).2.2 ?_)
      | (with_reducible refine Eq.trans (State.gateWrite_frM (heff := fun _ => ?_) ..) ?_)
      | (with_reducible refine Eq.trans (State.storeReg_frame ..).2.2 ?_)
      | (with_reducible refine Eq.trans (State.startTck_frame ..).2.2 ?_)
      | (with_reducible refine ocM_next ?_)
      | with_reducible exact ocM_fault
      | dsimp only
      | split

theorem execRingmasterStop_frame (m : Fin 8) (alt : Bool) (s : State) {r : State} (e : execRingmasterStop m alt s = .next r) : r.pending = s.pending ∧ r.tck.now = s.tck.now ∧ r.mem = s.mem := by
  unfold execRingmasterStop at e
  revert e
  intro e
  refine ⟨?_, ?_, ?_⟩
  · revert e
    repeat' first
      | with_reducible assumption
      | with_reducible rfl
      | (with_reducible refine Eq.trans (State.gateWrite_frP (heff := fun _ => ?_) ..) ?_)
      | (with_reducible refine Eq.trans (State.storeReg_frame ..).1 ?_)
      | (with_reducible refine Eq.trans (State.stopTck_frame ..).1 ?_)
      | (with_reducible refine ocP_next ?_)
      | with_reducible exact ocP_fault
      | dsimp only
      | split
  · revert e
    repeat' first
      | with_reducible assumption
      | with_reducible rfl
      | (with_reducible refine Eq.trans (State.gateWrite_frN (heff := fun _ => ?_) ..) ?_)
      | (with_reducible refine Eq.trans (State.storeReg_frame ..).2.1 ?_)
      | (with_reducible refine Eq.trans (State.stopTck_frame ..).2.1 ?_)
      | (with_reducible refine ocN_next ?_)
      | with_reducible exact ocN_fault
      | dsimp only
      | split
  · revert e
    repeat' first
      | with_reducible assumption
      | with_reducible rfl
      | (with_reducible refine Eq.trans (State.gateWrite_frM (heff := fun _ => ?_) ..) ?_)
      | (with_reducible refine Eq.trans (State.storeReg_frame ..).2.2 ?_)
      | (with_reducible refine Eq.trans (State.stopTck_frame ..).2.2 ?_)
      | (with_reducible refine ocM_next ?_)
      | with_reducible exact ocM_fault
      | dsimp only
      | split

end Sys2Proof.Machine
end

