-- ==== Sys2Proof/Laws/FramePlacement.lean ====
section
/-! SUPPORT. What every operation of Machine/Placement.lean leaves alone: the queue of waiting commands, the tick counter (unless it
writes it), and memory or its canonical form. -/

namespace Sys2Proof.Machine

set_option linter.all false
set_option Elab.async false
set_option maxRecDepth 4000

theorem State.startCheck_frame (s : State)  : (State.startCheck s).pending = s.pending ∧ (State.startCheck s).tck.now = s.tck.now ∧ (State.startCheck s).mem = s.mem := by
  unfold State.startCheck
  repeat' first
    | (simp only [implies_true, and_self, and_true, true_and, apply_ite State.pending, apply_ite State.mem, apply_ite State.tck, apply_ite TckSt.now, State.setBit_frame]; done)
    | (simp (maxDischargeDepth := 8) only [foldl_PMN, implies_true, and_self, and_true, true_and, apply_ite State.pending, apply_ite State.mem, apply_ite State.tck, apply_ite TckSt.now, State.setBit_frame]; done)
    | (with_reducible refine foldl_PMN _ _ _ (fun s a => ?_))
    | split
    | (simp only [implies_true, and_self, and_true, true_and, apply_ite State.pending, apply_ite State.mem, apply_ite State.tck, apply_ite TckSt.now, State.setBit_frame])

theorem State.checkDone_frame (s : State)  : (State.checkDone s).pending = s.pending ∧ (State.checkDone s).tck.now = s.tck.now ∧ (State.checkDone s).mem = s.mem := by
  unfold State.checkDone
  repeat' first
    | (simp only [implies_true, and_self, and_true, true_and, apply_ite State.pending, apply_ite State.mem, apply_ite State.tck, apply_ite TckSt.now, State.setBit_frame, State.setRegN_frame, State.clearChecked_frame, State.raise_frame]; done)
    | (simp (maxDischargeDepth := 8) only [foldl_PMN, implies_true, and_self, and_true, true_and, apply_ite State.pending, apply_ite State.mem, apply_ite State.tck, apply_ite TckSt.now, State.setBit_frame, State.setRegN_frame, State.clearChecked_frame, State.raise_frame]; done)
    | (with_reducible refine foldl_PMN _ _ _ (fun s a => ?_))
    | split
    | (simp only [implies_true, and_self, and_true, true_and, apply_ite State.pending, apply_ite State.mem, apply_ite State.tck, apply_ite TckSt.now, State.setBit_frame, State.setRegN_frame, State.clearChecked_frame, State.raise_frame])

theorem State.installLists_frame (s : State) (lists : List (List Nat)) (source fb : Nat)  : (State.installLists s lists source fb).pending = s.pending ∧ (State.installLists s lists source fb).tck.now = s.tck.now ∧ (State.installLists s lists source fb).mem = s.mem := by
  unfold State.installLists
  repeat' first
    | (simp only [implies_true, and_self, and_true, true_and, apply_ite State.pending, apply_ite State.mem, apply_ite State.tck, apply_ite TckSt.now, State.setFld_frame]; done)
    | (simp (maxDischargeDepth := 8) only [foldl_PMN, implies_true, and_self, and_true, true_and, apply_ite State.pending, apply_ite State.mem, apply_ite State.tck, apply_ite TckSt.now, State.setFld_frame]; done)
    | (with_reducible refine foldl_PMN _ _ _ (fun s a => ?_))
    | split
    | (simp only [implies_true, and_self, and_true, true_and, apply_ite State.pending, apply_ite State.mem, apply_ite State.tck, apply_ite TckSt.now, State.setFld_frame])

theorem State.takeGuarantee_frame (s : State)  : (State.takeGuarantee s).pending = s.pending ∧ (State.takeGuarantee s).tck.now = s.tck.now ∧ (State.takeGuarantee s).mem = s.mem := by
  unfold State.takeGuarantee
  repeat' first
    | (simp only [implies_true, and_self, and_true, true_and, apply_ite State.pending, apply_ite State.mem, apply_ite State.tck, apply_ite TckSt.now, State.setForce_frame, State.setFld_frame]; done)
    | (simp (maxDischargeDepth := 8) only [foldl_PMN, implies_true, and_self, and_true, true_and, apply_ite State.pending, apply_ite State.mem, apply_ite State.tck, apply_ite TckSt.now, State.setForce_frame, State.setFld_frame]; done)
    | (with_reducible refine foldl_PMN _ _ _ (fun s a => ?_))
    | split
    | (simp only [implies_true, and_self, and_true, true_and, apply_ite State.pending, apply_ite State.mem, apply_ite State.tck, apply_ite TckSt.now, State.setForce_frame, State.setFld_frame])

theorem State.engineLost_frame (s : State) (e : Nat)  : (State.engineLost s e).pending = s.pending ∧ (State.engineLost s e).tck.now = s.tck.now ∧ (State.engineLost s e).mem = s.mem := by
  unfold State.engineLost
  repeat' first
    | (simp only [implies_true, and_self, and_true, true_and, apply_ite State.pending, apply_ite State.mem, apply_ite State.tck, apply_ite TckSt.now, State.installLists_frame, State.raise_frame, State.setBit_frame]; done)
    | (simp (maxDischargeDepth := 8) only [foldl_PMN, implies_true, and_self, and_true, true_and, apply_ite State.pending, apply_ite State.mem, apply_ite State.tck, apply_ite TckSt.now, State.installLists_frame, State.raise_frame, State.setBit_frame]; done)
    | (with_reducible refine foldl_PMN _ _ _ (fun s a => ?_))
    | split
    | (simp only [implies_true, and_self, and_true, true_and, apply_ite State.pending, apply_ite State.mem, apply_ite State.tck, apply_ite TckSt.now, State.installLists_frame, State.raise_frame, State.setBit_frame])

theorem State.engineRetire_frame (s : State) (e cause : Nat)  : (State.engineRetire s e cause).pending = s.pending ∧ (State.engineRetire s e cause).tck.now = s.tck.now ∧ (State.engineRetire s e cause).mem = s.mem := by
  unfold State.engineRetire
  repeat' first
    | (simp only [implies_true, and_self, and_true, true_and, apply_ite State.pending, apply_ite State.mem, apply_ite State.tck, apply_ite TckSt.now, State.setBit_frame, State.setFld_frame, State.retireInTick_frame, State.raise_frame, State.engineLost_frame]; done)
    | (simp (maxDischargeDepth := 8) only [foldl_PMN, implies_true, and_self, and_true, true_and, apply_ite State.pending, apply_ite State.mem, apply_ite State.tck, apply_ite TckSt.now, State.setBit_frame, State.setFld_frame, State.retireInTick_frame, State.raise_frame, State.engineLost_frame]; done)
    | (with_reducible refine foldl_PMN _ _ _ (fun s a => ?_))
    | split
    | (simp only [implies_true, and_self, and_true, true_and, apply_ite State.pending, apply_ite State.mem, apply_ite State.tck, apply_ite TckSt.now, State.setBit_frame, State.setFld_frame, State.retireInTick_frame, State.raise_frame, State.engineLost_frame])

theorem State.lplCommitAt_frame (s : State)  : (State.lplCommitAt s).pending = s.pending ∧ (State.lplCommitAt s).tck.now = s.tck.now ∧ (Memory.wf s.mem = true → Memory.wf (State.lplCommitAt s).mem = true) := by
  unfold State.lplCommitAt
  refine ⟨?_, ?_, fun h => ?_⟩
  · repeat' first
      | with_reducible assumption
      | with_reducible rfl
      | (with_reducible refine alP_ite ?_ ?_)
      | (with_reducible refine Eq.trans (State.dropCommit_frame ..).1 ?_)
      | (with_reducible refine Eq.trans (State.swapMem_frame _ placeActive placeSize (by decide)).1 ?_)
      | (with_reducible refine Eq.trans (State.setBit_frame ..).1 ?_)
      | (with_reducible refine Eq.trans (State.takeGuarantee_frame ..).1 ?_)
      | (with_reducible refine Eq.trans (State.installLists_frame ..).1 ?_)
      | (with_reducible refine Eq.trans (State.setRegN_frame ..).1 ?_)
      | (with_reducible refine Eq.trans (State.raise_frame ..).1 ?_)
      | (with_reducible refine Eq.trans (State.engineLost_frame ..).1 ?_)
      | (with_reducible refine alP_fold0 _ _ _ (fun r a h => ?_) ?_)
      | (with_reducible refine alP_fold1 _ _ _ (fun r a h => ?_) ?_)
      | (with_reducible refine alP_fold2 _ _ _ (fun r a h => ?_) ?_)
      | dsimp only
      | split
  · repeat' first
      | with_reducible assumption
      | with_reducible rfl
      | (with_reducible refine alN_ite ?_ ?_)
      | (with_reducible refine Eq.trans (State.dropCommit_frame ..).2.1 ?_)
      | (with_reducible refine Eq.trans (State.swapMem_frame _ placeActive placeSize (by decide)).2.1 ?_)
      | (with_reducible refine Eq.trans (State.setBit_frame ..).2.1 ?_)
      | (with_reducible refine Eq.trans (State.takeGuarantee_frame ..).2.1 ?_)
      | (with_reducible refine Eq.trans (State.installLists_frame ..).2.1 ?_)
      | (with_reducible refine Eq.trans (State.setRegN_frame ..).2.1 ?_)
      | (with_reducible refine Eq.trans (State.raise_frame ..).2.1 ?_)
      | (with_reducible refine Eq.trans (State.engineLost_frame ..).2.1 ?_)
      | (with_reducible refine alN_fold0 _ _ _ (fun r a h => ?_) ?_)
      | (with_reducible refine alN_fold1 _ _ _ (fun r a h => ?_) ?_)
      | (with_reducible refine alN_fold2 _ _ _ (fun r a h => ?_) ?_)
      | dsimp only
      | split
  · repeat' first
      | with_reducible assumption
      | with_reducible rfl
      | (with_reducible refine alW_ite ?_ ?_)
      | (with_reducible refine wf_eq (State.dropCommit_frame ..).2.2 ?_)
      | (with_reducible refine (State.swapMem_frame _ placeActive placeSize (by decide)).2.2 ?_)
      | (with_reducible refine wf_eq (State.setBit_frame ..).2.2 ?_)
      | (with_reducible refine wf_eq (State.takeGuarantee_frame ..).2.2 ?_)
      | (with_reducible refine wf_eq (State.installLists_frame ..).2.2 ?_)
      | (with_reducible refine wf_eq (State.setRegN_frame ..).2.2 ?_)
      | (with_reducible refine wf_eq (State.raise_frame ..).2.2 ?_)
      | (with_reducible refine wf_eq (State.engineLost_frame ..).2.2 ?_)
      | (with_reducible refine alW_fold0 _ _ _ (fun r a h => ?_) ?_)
      | (with_reducible refine alW_fold1 _ _ _ (fun r a h => ?_) ?_)
      | (with_reducible refine alW_fold2 _ _ _ (fun r a h => ?_) ?_)
      | dsimp only
      | split

theorem State.lplRefuse_frame (s : State) (code : Nat)  : (State.lplRefuse s code).pending = s.pending ∧ (State.lplRefuse s code).tck.now = s.tck.now ∧ (State.lplRefuse s code).mem = s.mem := by
  unfold State.lplRefuse
  repeat' first
    | (simp only [implies_true, and_self, and_true, true_and, apply_ite State.pending, apply_ite State.mem, apply_ite State.tck, apply_ite TckSt.now, State.setRegN_frame, State.raise_frame]; done)
    | (simp (maxDischargeDepth := 8) only [foldl_PMN, implies_true, and_self, and_true, true_and, apply_ite State.pending, apply_ite State.mem, apply_ite State.tck, apply_ite TckSt.now, State.setRegN_frame, State.raise_frame]; done)
    | (with_reducible refine foldl_PMN _ _ _ (fun s a => ?_))
    | split
    | (simp only [implies_true, and_self, and_true, true_and, apply_ite State.pending, apply_ite State.mem, apply_ite State.tck, apply_ite TckSt.now, State.setRegN_frame, State.raise_frame])

theorem State.afterPeriod_frame (s : State) (pOld : Nat) (altOld : Bool)  : (State.afterPeriod s pOld altOld).pending = s.pending ∧ (State.afterPeriod s pOld altOld).tck.now = s.tck.now ∧ (State.afterPeriod s pOld altOld).mem = s.mem := by
  unfold State.afterPeriod
  repeat' first
    | (simp only [implies_true, and_self, and_true, true_and, apply_ite State.pending, apply_ite State.mem, apply_ite State.tck, apply_ite TckSt.now, State.clearChecked_frame, State.setBit_frame, State.raiseIf_frame]; done)
    | (simp (maxDischargeDepth := 8) only [foldl_PMN, implies_true, and_self, and_true, true_and, apply_ite State.pending, apply_ite State.mem, apply_ite State.tck, apply_ite TckSt.now, State.clearChecked_frame, State.setBit_frame, State.raiseIf_frame]; done)
    | (with_reducible refine foldl_PMN _ _ _ (fun s a => ?_))
    | split
    | (simp only [implies_true, and_self, and_true, true_and, apply_ite State.pending, apply_ite State.mem, apply_ite State.tck, apply_ite TckSt.now, State.clearChecked_frame, State.setBit_frame, State.raiseIf_frame])

theorem State.repackDone_frame (s : State)  : (State.repackDone s).pending = s.pending ∧ (State.repackDone s).tck.now = s.tck.now ∧ (Memory.wf s.mem = true → Memory.wf (State.repackDone s).mem = true) := by
  unfold State.repackDone
  refine (and_assoc.1 ⟨?_, fun h => ?_⟩)
  · repeat' first
      | (simp only [implies_true, and_self, and_true, true_and, apply_ite State.pending, apply_ite State.tck, apply_ite TckSt.now, State.setBit_frame, State.takeGuarantee_frame, State.installLists_frame, State.clearMem_frame, State.setBytes_frame, State.setRegN_frame, State.raise_frame, State.raiseIf_frame]; done)
      | (simp (maxDischargeDepth := 8) only [foldl_PN, implies_true, and_self, and_true, true_and, apply_ite State.pending, apply_ite State.tck, apply_ite TckSt.now, State.setBit_frame, State.takeGuarantee_frame, State.installLists_frame, State.clearMem_frame, State.setBytes_frame, State.setRegN_frame, State.raise_frame, State.raiseIf_frame]; done)
      | (with_reducible refine foldl_PN _ _ _ (fun s a => ?_))
      | split
      | (simp only [implies_true, and_self, and_true, true_and, apply_ite State.pending, apply_ite State.tck, apply_ite TckSt.now, State.setBit_frame, State.takeGuarantee_frame, State.installLists_frame, State.clearMem_frame, State.setBytes_frame, State.setRegN_frame, State.raise_frame, State.raiseIf_frame])
  · repeat' first
      | with_reducible assumption
      | (with_reducible refine wf_ite ?_ ?_)
      | (with_reducible refine wf_eq (State.setBit_frame ..).2.2 ?_)
      | (with_reducible refine wf_eq (State.takeGuarantee_frame ..).2.2 ?_)
      | (with_reducible refine wf_eq (State.installLists_frame ..).2.2 ?_)
      | (with_reducible refine (State.clearMem_frame ..).2.2 ?_)
      | (with_reducible refine (State.setBytes_frame ..).2.2 ?_)
      | (with_reducible refine wf_eq (State.setRegN_frame ..).2.2 ?_)
      | (with_reducible refine wf_eq (State.raise_frame ..).2.2 ?_)
      | (with_reducible refine wf_eq (State.raiseIf_frame ..).2.2 ?_)
      | (with_reducible refine foldl_wf _ _ _ (fun s a h => ?_) ?_)
      | dsimp only
      | split

theorem State.startRepack_frame (s : State)  : (State.startRepack s).pending = s.pending ∧ (State.startRepack s).tck.now = s.tck.now ∧ (State.startRepack s).mem = s.mem := by
  unfold State.startRepack
  repeat' first
    | (simp only [implies_true, and_self, and_true, true_and, apply_ite State.pending, apply_ite State.mem, apply_ite State.tck, apply_ite TckSt.now, State.setBit_frame]; done)
    | (simp (maxDischargeDepth := 8) only [foldl_PMN, implies_true, and_self, and_true, true_and, apply_ite State.pending, apply_ite State.mem, apply_ite State.tck, apply_ite TckSt.now, State.setBit_frame]; done)
    | (with_reducible refine foldl_PMN _ _ _ (fun s a => ?_))
    | split
    | (simp only [implies_true, and_self, and_true, true_and, apply_ite State.pending, apply_ite State.mem, apply_ite State.tck, apply_ite TckSt.now, State.setBit_frame])

theorem State.lenRetire_frame (s : State) (e : Nat)  : (State.lenRetire s e).pending = s.pending ∧ (State.lenRetire s e).tck.now = s.tck.now ∧ (State.lenRetire s e).mem = s.mem := by
  unfold State.lenRetire
  repeat' first
    | (simp only [implies_true, and_self, and_true, true_and, apply_ite State.pending, apply_ite State.mem, apply_ite State.tck, apply_ite TckSt.now, State.engineRetire_frame]; done)
    | (simp (maxDischargeDepth := 8) only [foldl_PMN, implies_true, and_self, and_true, true_and, apply_ite State.pending, apply_ite State.mem, apply_ite State.tck, apply_ite TckSt.now, State.engineRetire_frame]; done)
    | (with_reducible refine foldl_PMN _ _ _ (fun s a => ?_))
    | split
    | (simp only [implies_true, and_self, and_true, true_and, apply_ite State.pending, apply_ite State.mem, apply_ite State.tck, apply_ite TckSt.now, State.engineRetire_frame])

theorem State.lplCtrlWrite_frame (s : State) (v : Word)  : (State.lplCtrlWrite s v).pending = s.pending ∧ (State.lplCtrlWrite s v).tck.now = s.tck.now ∧ (State.lplCtrlWrite s v).mem = s.mem := by
  unfold State.lplCtrlWrite
  repeat' first
    | (simp only [implies_true, and_self, and_true, true_and, apply_ite State.pending, apply_ite State.mem, apply_ite State.tck, apply_ite TckSt.now, State.storeReg_frame, State.startCheck_frame, State.startRepack_frame]; done)
    | (simp (maxDischargeDepth := 8) only [foldl_PMN, implies_true, and_self, and_true, true_and, apply_ite State.pending, apply_ite State.mem, apply_ite State.tck, apply_ite TckSt.now, State.storeReg_frame, State.startCheck_frame, State.startRepack_frame]; done)
    | (with_reducible refine foldl_PMN _ _ _ (fun s a => ?_))
    | split
    | (simp only [implies_true, and_self, and_true, true_and, apply_ite State.pending, apply_ite State.mem, apply_ite State.tck, apply_ite TckSt.now, State.storeReg_frame, State.startCheck_frame, State.startRepack_frame])

theorem State.guaranteeWrite_frame (s : State) (v : Word)  : (State.guaranteeWrite s v).pending = s.pending ∧ (State.guaranteeWrite s v).tck.now = s.tck.now ∧ (State.guaranteeWrite s v).mem = s.mem := by
  unfold State.guaranteeWrite
  repeat' first
    | (simp only [implies_true, and_self, and_true, true_and, apply_ite State.pending, apply_ite State.mem, apply_ite State.tck, apply_ite TckSt.now, State.storeReg_frame, State.clearChecked_frame]; done)
    | (simp (maxDischargeDepth := 8) only [foldl_PMN, implies_true, and_self, and_true, true_and, apply_ite State.pending, apply_ite State.mem, apply_ite State.tck, apply_ite TckSt.now, State.storeReg_frame, State.clearChecked_frame]; done)
    | (with_reducible refine foldl_PMN _ _ _ (fun s a => ?_))
    | split
    | (simp only [implies_true, and_self, and_true, true_and, apply_ite State.pending, apply_ite State.mem, apply_ite State.tck, apply_ite TckSt.now, State.storeReg_frame, State.clearChecked_frame])

theorem execEngineRetire_frame (e : Fin 32) (s : State) {r : State} (e : execEngineRetire e s = .next r) : r.pending = s.pending ∧ r.tck.now = s.tck.now ∧ r.mem = s.mem := by
  unfold execEngineRetire at e
  revert e
  intro e
  refine ⟨?_, ?_, ?_⟩
  · revert e
    repeat' first
      | with_reducible assumption
      | with_reducible rfl
      | (with_reducible refine Eq.trans (State.engineRetire_frame ..).1 ?_)
      | (with_reducible refine ocP_next ?_)
      | with_reducible exact ocP_fault
      | dsimp only
      | split
  · revert e
    repeat' first
      | with_reducible assumption
      | with_reducible rfl
      | (with_reducible refine Eq.trans (State.engineRetire_frame ..).2.1 ?_)
      | (with_reducible refine ocN_next ?_)
      | with_reducible exact ocN_fault
      | dsimp only
      | split
  · revert e
    repeat' first
      | with_reducible assumption
      | with_reducible rfl
      | (with_reducible refine Eq.trans (State.engineRetire_frame ..).2.2 ?_)
      | (with_reducible refine ocM_next ?_)
      | with_reducible exact ocM_fault
      | dsimp only
      | split

theorem execPlacementCheck_frame (m : Fin 8) (auto : Bool) (s : State) {r : State} (e : execPlacementCheck m auto s = .next r) : r.pending = s.pending ∧ r.tck.now = s.tck.now ∧ r.mem = s.mem := by
  unfold execPlacementCheck at e
  revert e
  intro e
  refine ⟨?_, ?_, ?_⟩
  · revert e
    repeat' first
      | with_reducible assumption
      | with_reducible rfl
      | (with_reducible refine Eq.trans (State.gateWrite_frP (heff := fun _ => ?_) ..) ?_)
      | (with_reducible refine Eq.trans (State.storeReg_frame ..).1 ?_)
      | (with_reducible refine Eq.trans (State.startCheck_frame ..).1 ?_)
      | (with_reducible refine ocP_next ?_)
      | with_reducible exact ocP_fault
      | dsimp only
      | split
  · revert e
    repeat' first
      | with_reducible assumption
      | with_reducible rfl
      | (with_reducible refine Eq.trans (State.gateWrite_frN (heff := fun _ => ?_) ..) ?_)
      | (with_reducible refine Eq.trans (State.storeReg_frame ..).2.1 ?_)
      | (with_reducible refine Eq.trans (State.startCheck_frame ..).2.1 ?_)
      | (with_reducible refine ocN_next ?_)
      | with_reducible exact ocN_fault
      | dsimp only
      | split
  · revert e
    repeat' first
      | with_reducible assumption
      | with_reducible rfl
      | (with_reducible refine Eq.trans (State.gateWrite_frM (heff := fun _ => ?_) ..) ?_)
      | (with_reducible refine Eq.trans (State.storeReg_frame ..).2.2 ?_)
      | (with_reducible refine Eq.trans (State.startCheck_frame ..).2.2 ?_)
      | (with_reducible refine ocM_next ?_)
      | with_reducible exact ocM_fault
      | dsimp only
      | split

theorem execPlacementCheckDone_frame (s : State) {r : State} (e : execPlacementCheckDone s = .next r) : r.pending = s.pending ∧ r.tck.now = s.tck.now ∧ r.mem = s.mem := by
  unfold execPlacementCheckDone at e
  revert e
  intro e
  refine ⟨?_, ?_, ?_⟩
  · revert e
    repeat' first
      | with_reducible assumption
      | with_reducible rfl
      | (with_reducible refine Eq.trans (State.checkDone_frame ..).1 ?_)
      | (with_reducible refine ocP_next ?_)
      | with_reducible exact ocP_fault
      | dsimp only
      | split
  · revert e
    repeat' first
      | with_reducible assumption
      | with_reducible rfl
      | (with_reducible refine Eq.trans (State.checkDone_frame ..).2.1 ?_)
      | (with_reducible refine ocN_next ?_)
      | with_reducible exact ocN_fault
      | dsimp only
      | split
  · revert e
    repeat' first
      | with_reducible assumption
      | with_reducible rfl
      | (with_reducible refine Eq.trans (State.checkDone_frame ..).2.2 ?_)
      | (with_reducible refine ocM_next ?_)
      | with_reducible exact ocM_fault
      | dsimp only
      | split

theorem execRepack_frame (m : Fin 8) (auto : Bool) (s : State) {r : State} (e : execRepack m auto s = .next r) : r.pending = s.pending ∧ r.tck.now = s.tck.now ∧ r.mem = s.mem := by
  unfold execRepack at e
  revert e
  intro e
  refine ⟨?_, ?_, ?_⟩
  · revert e
    repeat' first
      | with_reducible assumption
      | with_reducible rfl
      | (with_reducible refine Eq.trans (State.gateWrite_frP (heff := fun _ => ?_) ..) ?_)
      | (with_reducible refine Eq.trans (State.storeReg_frame ..).1 ?_)
      | (with_reducible refine Eq.trans (State.startRepack_frame ..).1 ?_)
      | (with_reducible refine ocP_next ?_)
      | with_reducible exact ocP_fault
      | dsimp only
      | split
  · revert e
    repeat' first
      | with_reducible assumption
      | with_reducible rfl
      | (with_reducible refine Eq.trans (State.gateWrite_frN (heff := fun _ => ?_) ..) ?_)
      | (with_reducible refine Eq.trans (State.storeReg_frame ..).2.1 ?_)
      | (with_reducible refine Eq.trans (State.startRepack_frame ..).2.1 ?_)
      | (with_reducible refine ocN_next ?_)
      | with_reducible exact ocN_fault
      | dsimp only
      | split
  · revert e
    repeat' first
      | with_reducible assumption
      | with_reducible rfl
      | (with_reducible refine Eq.trans (State.gateWrite_frM (heff := fun _ => ?_) ..) ?_)
      | (with_reducible refine Eq.trans (State.storeReg_frame ..).2.2 ?_)
      | (with_reducible refine Eq.trans (State.startRepack_frame ..).2.2 ?_)
      | (with_reducible refine ocM_next ?_)
      | with_reducible exact ocM_fault
      | dsimp only
      | split

theorem execRepackDone_frame (s : State) {r : State} (e : execRepackDone s = .next r) : r.pending = s.pending ∧ r.tck.now = s.tck.now ∧ (Memory.wf s.mem = true → Memory.wf r.mem = true) := by
  unfold execRepackDone at e
  revert e
  intro e
  refine ⟨?_, ?_, fun h => ?_⟩
  · revert e
    repeat' first
      | with_reducible assumption
      | with_reducible rfl
      | (with_reducible refine Eq.trans (State.repackDone_frame ..).1 ?_)
      | (with_reducible refine ocP_next ?_)
      | with_reducible exact ocP_fault
      | dsimp only
      | split
  · revert e
    repeat' first
      | with_reducible assumption
      | with_reducible rfl
      | (with_reducible refine Eq.trans (State.repackDone_frame ..).2.1 ?_)
      | (with_reducible refine ocN_next ?_)
      | with_reducible exact ocN_fault
      | dsimp only
      | split
  · revert e
    repeat' first
      | with_reducible assumption
      | with_reducible rfl
      | (with_reducible refine (State.repackDone_frame ..).2.2 ?_)
      | (with_reducible refine ocW_next ?_)
      | with_reducible exact ocW_fault
      | dsimp only
      | split

theorem execLenRetire_frame (m : Fin 8) (e : Fin 32) (s : State) {r : State} (e : execLenRetire m e s = .next r) : r.pending = s.pending ∧ r.tck.now = s.tck.now ∧ r.mem = s.mem := by
  unfold execLenRetire at e
  revert e
  intro e
  refine ⟨?_, ?_, ?_⟩
  · revert e
    repeat' first
      | with_reducible assumption
      | with_reducible rfl
      | (with_reducible refine Eq.trans (State.gateWrite_frP (heff := fun _ => ?_) ..) ?_)
      | (with_reducible refine Eq.trans (State.lenRetire_frame ..).1 ?_)
      | (with_reducible refine ocP_next ?_)
      | with_reducible exact ocP_fault
      | dsimp only
      | split
  · revert e
    repeat' first
      | with_reducible assumption
      | with_reducible rfl
      | (with_reducible refine Eq.trans (State.gateWrite_frN (heff := fun _ => ?_) ..) ?_)
      | (with_reducible refine Eq.trans (State.lenRetire_frame ..).2.1 ?_)
      | (with_reducible refine ocN_next ?_)
      | with_reducible exact ocN_fault
      | dsimp only
      | split
  · revert e
    repeat' first
      | with_reducible assumption
      | with_reducible rfl
      | (with_reducible refine Eq.trans (State.gateWrite_frM (heff := fun _ => ?_) ..) ?_)
      | (with_reducible refine Eq.trans (State.lenRetire_frame ..).2.2 ?_)
      | (with_reducible refine ocM_next ?_)
      | with_reducible exact ocM_fault
      | dsimp only
      | split

theorem execCopyBackDone_frame (s : State) {r : State} (e : execCopyBackDone s = .next r) : r.pending = s.pending ∧ r.tck.now = s.tck.now ∧ (Memory.wf s.mem = true → Memory.wf r.mem = true) := by
  unfold execCopyBackDone at e
  revert e
  intro e
  refine ⟨?_, ?_, fun h => ?_⟩
  · revert e
    repeat' first
      | with_reducible assumption
      | with_reducible rfl
      | (with_reducible refine Eq.trans (State.copyBackDone_frame ..).1 ?_)
      | (with_reducible refine ocP_next ?_)
      | with_reducible exact ocP_fault
      | dsimp only
      | split
  · revert e
    repeat' first
      | with_reducible assumption
      | with_reducible rfl
      | (with_reducible refine Eq.trans (State.copyBackDone_frame ..).2.1 ?_)
      | (with_reducible refine ocN_next ?_)
      | with_reducible exact ocN_fault
      | dsimp only
      | split
  · revert e
    repeat' first
      | with_reducible assumption
      | with_reducible rfl
      | (with_reducible refine (State.copyBackDone_frame ..).2.2 ?_)
      | (with_reducible refine ocW_next ?_)
      | with_reducible exact ocW_fault
      | dsimp only
      | split

theorem execLoopRetire_frame (l : Fin 12288) (s : State) {r : State} (e : execLoopRetire l s = .next r) : r.pending = s.pending ∧ r.tck.now = s.tck.now ∧ r.mem = s.mem := by
  unfold execLoopRetire at e
  revert e
  intro e
  refine ⟨?_, ?_, ?_⟩
  · revert e
    repeat' first
      | with_reducible assumption
      | with_reducible rfl
      | (with_reducible refine Eq.trans (State.retireLoopIfDue_frame ..).1 ?_)
      | (with_reducible refine ocP_next ?_)
      | with_reducible exact ocP_fault
      | dsimp only
      | split
  · revert e
    repeat' first
      | with_reducible assumption
      | with_reducible rfl
      | (with_reducible refine Eq.trans (State.retireLoopIfDue_frame ..).2.1 ?_)
      | (with_reducible refine ocN_next ?_)
      | with_reducible exact ocN_fault
      | dsimp only
      | split
  · revert e
    repeat' first
      | with_reducible assumption
      | with_reducible rfl
      | (with_reducible refine Eq.trans (State.retireLoopIfDue_frame ..).2.2 ?_)
      | (with_reducible refine ocM_next ?_)
      | with_reducible exact ocM_fault
      | dsimp only
      | split

end Sys2Proof.Machine
end

