-- ==== Sys2Proof/Laws/FrameLine.lean ====
section
/-! SUPPORT. What every operation of Machine/Line.lean leaves alone: the queue of waiting commands, the tick counter (unless it
writes it), and memory or its canonical form. -/

namespace Sys2Proof.Machine

set_option linter.all false
set_option Elab.async false
set_option maxRecDepth 4000

theorem State.emitCodewords_frame (s : State) (n : Nat) (r : BitVec 58) (x0 : List (Nat × List Block))  : (State.emitCodewords s n r x0).pending = s.pending ∧ (State.emitCodewords s n r x0).tck.now = s.tck.now ∧ (State.emitCodewords s n r x0).mem = s.mem := by
  induction x0 generalizing s r with
  | nil => exact ⟨rfl, rfl, rfl⟩
  | cons e t ih => exact ih _ _

theorem State.emitTrain_frame (s : State) (n : Nat) (l : List (Nat × List Block))  : (State.emitTrain s n l).pending = s.pending ∧ (State.emitTrain s n l).tck.now = s.tck.now ∧ (State.emitTrain s n l).mem = s.mem := by
  unfold State.emitTrain
  repeat' first
    | (simp only [implies_true, and_self, and_true, true_and, apply_ite State.pending, apply_ite State.mem, apply_ite State.tck, apply_ite TckSt.now, State.emitCodewords_frame, State.tick1_frame]; done)
    | (simp (maxDischargeDepth := 8) only [foldl_PMN, implies_true, and_self, and_true, true_and, apply_ite State.pending, apply_ite State.mem, apply_ite State.tck, apply_ite TckSt.now, State.emitCodewords_frame, State.tick1_frame]; done)
    | (with_reducible refine foldl_PMN _ _ _ (fun s a => ?_))
    | split
    | (simp only [implies_true, and_self, and_true, true_and, apply_ite State.pending, apply_ite State.mem, apply_ite State.tck, apply_ite TckSt.now, State.emitCodewords_frame, State.tick1_frame])

theorem State.sendCodewords_frame (s : State) (n : Nat) (l : List (Nat × List Block))  : (State.sendCodewords s n l).pending = s.pending ∧ (State.sendCodewords s n l).tck.now = s.tck.now ∧ (State.sendCodewords s n l).mem = s.mem := by
  unfold State.sendCodewords
  repeat' first
    | (simp only [implies_true, and_self, and_true, true_and, apply_ite State.pending, apply_ite State.mem, apply_ite State.tck, apply_ite TckSt.now, State.emitTrain_frame]; done)
    | (simp (maxDischargeDepth := 8) only [foldl_PMN, implies_true, and_self, and_true, true_and, apply_ite State.pending, apply_ite State.mem, apply_ite State.tck, apply_ite TckSt.now, State.emitTrain_frame]; done)
    | (with_reducible refine foldl_PMN _ _ _ (fun s a => ?_))
    | split
    | (simp only [implies_true, and_self, and_true, true_and, apply_ite State.pending, apply_ite State.mem, apply_ite State.tck, apply_ite TckSt.now, State.emitTrain_frame])

theorem State.setPort_frame (s : State) (n : Nat) (f : PortSt → PortSt)  : (State.setPort s n f).pending = s.pending ∧ (State.setPort s n f).tck.now = s.tck.now ∧ (State.setPort s n f).mem = s.mem := by
  unfold State.setPort
  repeat' first
    | (simp only [implies_true, and_self, and_true, true_and, apply_ite State.pending, apply_ite State.mem, apply_ite State.tck, apply_ite TckSt.now]; done)
    | (simp (maxDischargeDepth := 8) only [foldl_PMN, implies_true, and_self, and_true, true_and, apply_ite State.pending, apply_ite State.mem, apply_ite State.tck, apply_ite TckSt.now]; done)
    | (with_reducible refine foldl_PMN _ _ _ (fun s a => ?_))
    | split
    | (simp only [implies_true, and_self, and_true, true_and, apply_ite State.pending, apply_ite State.mem, apply_ite State.tck, apply_ite TckSt.now])

theorem State.takeAlign_frame (s : State) (n : Nat)  : (State.takeAlign s n).1.pending = s.pending ∧ (State.takeAlign s n).1.tck.now = s.tck.now ∧ (State.takeAlign s n).1.mem = s.mem := by
  unfold State.takeAlign
  repeat' first
    | (simp only [implies_true, and_self, and_true, true_and, apply_ite State.pending, apply_ite State.mem, apply_ite State.tck, apply_ite TckSt.now, State.setPort_frame, State.emit_frame]; done)
    | (simp (maxDischargeDepth := 8) only [foldl_PMN, implies_true, and_self, and_true, true_and, apply_ite State.pending, apply_ite State.mem, apply_ite State.tck, apply_ite TckSt.now, State.setPort_frame, State.emit_frame]; done)
    | (with_reducible refine foldl_PMN _ _ _ (fun s a => ?_))
    | split
    | (simp only [implies_true, and_self, and_true, true_and, apply_ite State.pending, apply_ite State.mem, apply_ite State.tck, apply_ite TckSt.now, State.setPort_frame, State.emit_frame])

theorem State.sendControl_frame (s : State) (n : Nat) (b : Block) (o : Out)  : (State.sendControl s n b o).pending = s.pending ∧ (State.sendControl s n b o).tck.now = s.tck.now ∧ (State.sendControl s n b o).mem = s.mem := by
  unfold State.sendControl
  repeat' first
    | (simp only [implies_true, and_self, and_true, true_and, apply_ite State.pending, apply_ite State.mem, apply_ite State.tck, apply_ite TckSt.now, State.takeAlign_frame, State.sendCodewords_frame, State.emit_frame]; done)
    | (simp (maxDischargeDepth := 8) only [foldl_PMN, implies_true, and_self, and_true, true_and, apply_ite State.pending, apply_ite State.mem, apply_ite State.tck, apply_ite TckSt.now, State.takeAlign_frame, State.sendCodewords_frame, State.emit_frame]; done)
    | (with_reducible refine foldl_PMN _ _ _ (fun s a => ?_))
    | split
    | (simp only [implies_true, and_self, and_true, true_and, apply_ite State.pending, apply_ite State.mem, apply_ite State.tck, apply_ite TckSt.now, State.takeAlign_frame, State.sendCodewords_frame, State.emit_frame])

theorem State.sendAlign_frame (s : State) (n : Nat) (busy : Bool)  : (State.sendAlign s n busy).pending = s.pending ∧ (State.sendAlign s n busy).tck.now = s.tck.now ∧ (State.sendAlign s n busy).mem = s.mem := by
  unfold State.sendAlign
  repeat' first
    | (simp only [implies_true, and_self, and_true, true_and, apply_ite State.pending, apply_ite State.mem, apply_ite State.tck, apply_ite TckSt.now, State.setPort_frame, State.takeAlign_frame, State.sendCodewords_frame]; done)
    | (simp (maxDischargeDepth := 8) only [foldl_PMN, implies_true, and_self, and_true, true_and, apply_ite State.pending, apply_ite State.mem, apply_ite State.tck, apply_ite TckSt.now, State.setPort_frame, State.takeAlign_frame, State.sendCodewords_frame]; done)
    | (with_reducible refine foldl_PMN _ _ _ (fun s a => ?_))
    | split
    | (simp only [implies_true, and_self, and_true, true_and, apply_ite State.pending, apply_ite State.mem, apply_ite State.tck, apply_ite TckSt.now, State.setPort_frame, State.takeAlign_frame, State.sendCodewords_frame])

theorem State.sendFrame_frame (s : State) (n : Nat) (f : DsFrame) (drives : List Byte)  : (State.sendFrame s n f drives).pending = s.pending ∧ (State.sendFrame s n f drives).tck.now = s.tck.now ∧ (State.sendFrame s n f drives).mem = s.mem := by
  unfold State.sendFrame
  repeat' first
    | (simp only [implies_true, and_self, and_true, true_and, apply_ite State.pending, apply_ite State.mem, apply_ite State.tck, apply_ite TckSt.now, State.takeAlign_frame, State.sendCodewords_frame]; done)
    | (simp (maxDischargeDepth := 8) only [foldl_PMN, implies_true, and_self, and_true, true_and, apply_ite State.pending, apply_ite State.mem, apply_ite State.tck, apply_ite TckSt.now, State.takeAlign_frame, State.sendCodewords_frame]; done)
    | (with_reducible refine foldl_PMN _ _ _ (fun s a => ?_))
    | split
    | (simp only [implies_true, and_self, and_true, true_and, apply_ite State.pending, apply_ite State.mem, apply_ite State.tck, apply_ite TckSt.now, State.takeAlign_frame, State.sendCodewords_frame])

end Sys2Proof.Machine
end

