-- ==== Sys2Proof/Laws/FrameByv.lean ====
section
/-! SUPPORT. What every operation of Machine/Byv.lean leaves alone: the queue of waiting commands, the tick counter (unless it
writes it), and memory or its canonical form. -/

namespace Sys2Proof.Machine

set_option linter.all false
set_option Elab.async false
set_option maxRecDepth 4000

theorem State.setPortState_frame (s : State) (n st : Nat)  : (State.setPortState s n st).pending = s.pending ∧ (State.setPortState s n st).tck.now = s.tck.now ∧ (State.setPortState s n st).mem = s.mem := by
  unfold State.setPortState
  repeat' first
    | (simp only [implies_true, and_self, and_true, true_and, apply_ite State.pending, apply_ite State.mem, apply_ite State.tck, apply_ite TckSt.now, State.setFld_frame]; done)
    | (simp (maxDischargeDepth := 8) only [foldl_PMN, implies_true, and_self, and_true, true_and, apply_ite State.pending, apply_ite State.mem, apply_ite State.tck, apply_ite TckSt.now, State.setFld_frame]; done)
    | (with_reducible refine foldl_PMN _ _ _ (fun s a => ?_))
    | split
    | (simp only [implies_true, and_self, and_true, true_and, apply_ite State.pending, apply_ite State.mem, apply_ite State.tck, apply_ite TckSt.now, State.setFld_frame])

theorem State.setLanesUp_frame (s : State) (n m : Nat)  : (State.setLanesUp s n m).pending = s.pending ∧ (State.setLanesUp s n m).tck.now = s.tck.now ∧ (State.setLanesUp s n m).mem = s.mem := by
  unfold State.setLanesUp
  repeat' first
    | (simp only [implies_true, and_self, and_true, true_and, apply_ite State.pending, apply_ite State.mem, apply_ite State.tck, apply_ite TckSt.now, State.setFld_frame]; done)
    | (simp (maxDischargeDepth := 8) only [foldl_PMN, implies_true, and_self, and_true, true_and, apply_ite State.pending, apply_ite State.mem, apply_ite State.tck, apply_ite TckSt.now, State.setFld_frame]; done)
    | (with_reducible refine foldl_PMN _ _ _ (fun s a => ?_))
    | split
    | (simp only [implies_true, and_self, and_true, true_and, apply_ite State.pending, apply_ite State.mem, apply_ite State.tck, apply_ite TckSt.now, State.setFld_frame])

theorem State.trainRes_frame (s : State) (n res lanes : Nat)  : (State.trainRes s n res lanes).pending = s.pending ∧ (State.trainRes s n res lanes).tck.now = s.tck.now ∧ (State.trainRes s n res lanes).mem = s.mem := by
  unfold State.trainRes
  repeat' first
    | (simp only [implies_true, and_self, and_true, true_and, apply_ite State.pending, apply_ite State.mem, apply_ite State.tck, apply_ite TckSt.now, State.setRegN_frame]; done)
    | (simp (maxDischargeDepth := 8) only [foldl_PMN, implies_true, and_self, and_true, true_and, apply_ite State.pending, apply_ite State.mem, apply_ite State.tck, apply_ite TckSt.now, State.setRegN_frame]; done)
    | (with_reducible refine foldl_PMN _ _ _ (fun s a => ?_))
    | split
    | (simp only [implies_true, and_self, and_true, true_and, apply_ite State.pending, apply_ite State.mem, apply_ite State.tck, apply_ite TckSt.now, State.setRegN_frame])

theorem State.trainFail_frame (s : State) (n res lanes : Nat)  : (State.trainFail s n res lanes).pending = s.pending ∧ (State.trainFail s n res lanes).tck.now = s.tck.now ∧ (State.trainFail s n res lanes).mem = s.mem := by
  unfold State.trainFail
  repeat' first
    | (simp only [implies_true, and_self, and_true, true_and, apply_ite State.pending, apply_ite State.mem, apply_ite State.tck, apply_ite TckSt.now, State.trainRes_frame, State.raise_frame]; done)
    | (simp (maxDischargeDepth := 8) only [foldl_PMN, implies_true, and_self, and_true, true_and, apply_ite State.pending, apply_ite State.mem, apply_ite State.tck, apply_ite TckSt.now, State.trainRes_frame, State.raise_frame]; done)
    | (with_reducible refine foldl_PMN _ _ _ (fun s a => ?_))
    | split
    | (simp only [implies_true, and_self, and_true, true_and, apply_ite State.pending, apply_ite State.mem, apply_ite State.tck, apply_ite TckSt.now, State.trainRes_frame, State.raise_frame])

theorem State.showChange_frame (s : State) (n : Nat)  : (State.showChange s n).pending = s.pending ∧ (State.showChange s n).tck.now = s.tck.now ∧ (State.showChange s n).mem = s.mem := by
  unfold State.showChange
  repeat' first
    | (simp only [implies_true, and_self, and_true, true_and, apply_ite State.pending, apply_ite State.mem, apply_ite State.tck, apply_ite TckSt.now, State.setRegN_frame, State.setReg_frame, State.setBit_frame]; done)
    | (simp (maxDischargeDepth := 8) only [foldl_PMN, implies_true, and_self, and_true, true_and, apply_ite State.pending, apply_ite State.mem, apply_ite State.tck, apply_ite TckSt.now, State.setRegN_frame, State.setReg_frame, State.setBit_frame]; done)
    | (with_reducible refine foldl_PMN _ _ _ (fun s a => ?_))
    | split
    | (simp only [implies_true, and_self, and_true, true_and, apply_ite State.pending, apply_ite State.mem, apply_ite State.tck, apply_ite TckSt.now, State.setRegN_frame, State.setReg_frame, State.setBit_frame])

theorem State.announce_frame (s : State) (n : Nat) (t : Tick) (lanes : Nat) (tck : Bool)  : (State.announce s n t lanes tck).pending = s.pending ∧ (State.announce s n t lanes tck).tck.now = s.tck.now ∧ (State.announce s n t lanes tck).mem = s.mem := by
  unfold State.announce
  repeat' first
    | (simp only [implies_true, and_self, and_true, true_and, apply_ite State.pending, apply_ite State.mem, apply_ite State.tck, apply_ite TckSt.now, State.setPort_frame, State.showChange_frame, State.raise_frame]; done)
    | (simp (maxDischargeDepth := 8) only [foldl_PMN, implies_true, and_self, and_true, true_and, apply_ite State.pending, apply_ite State.mem, apply_ite State.tck, apply_ite TckSt.now, State.setPort_frame, State.showChange_frame, State.raise_frame]; done)
    | (with_reducible refine foldl_PMN _ _ _ (fun s a => ?_))
    | split
    | (simp only [implies_true, and_self, and_true, true_and, apply_ite State.pending, apply_ite State.mem, apply_ite State.tck, apply_ite TckSt.now, State.setPort_frame, State.showChange_frame, State.raise_frame])

theorem State.announceTckOn_frame (s : State) (k : Tick) (lanes n : Nat)  : (State.announceTckOn s k lanes n).pending = s.pending ∧ (State.announceTckOn s k lanes n).tck.now = s.tck.now ∧ (State.announceTckOn s k lanes n).mem = s.mem := by
  unfold State.announceTckOn
  repeat' first
    | (simp only [implies_true, and_self, and_true, true_and, apply_ite State.pending, apply_ite State.mem, apply_ite State.tck, apply_ite TckSt.now, State.announce_frame]; done)
    | (simp (maxDischargeDepth := 8) only [foldl_PMN, implies_true, and_self, and_true, true_and, apply_ite State.pending, apply_ite State.mem, apply_ite State.tck, apply_ite TckSt.now, State.announce_frame]; done)
    | (with_reducible refine foldl_PMN _ _ _ (fun s a => ?_))
    | split
    | (simp only [implies_true, and_self, and_true, true_and, apply_ite State.pending, apply_ite State.mem, apply_ite State.tck, apply_ite TckSt.now, State.announce_frame])

theorem State.announceTck_frame (s : State) (k : Tick)  : (State.announceTck s k).pending = s.pending ∧ (State.announceTck s k).tck.now = s.tck.now ∧ (State.announceTck s k).mem = s.mem := by
  unfold State.announceTck
  repeat' first
    | (simp only [implies_true, and_self, and_true, true_and, apply_ite State.pending, apply_ite State.mem, apply_ite State.tck, apply_ite TckSt.now, State.announceTckOn_frame]; done)
    | (simp (maxDischargeDepth := 8) only [foldl_PMN, implies_true, and_self, and_true, true_and, apply_ite State.pending, apply_ite State.mem, apply_ite State.tck, apply_ite TckSt.now, State.announceTckOn_frame]; done)
    | (with_reducible refine foldl_PMN _ _ _ (fun s a => ?_))
    | split
    | (simp only [implies_true, and_self, and_true, true_and, apply_ite State.pending, apply_ite State.mem, apply_ite State.tck, apply_ite TckSt.now, State.announceTckOn_frame])

theorem State.announcePending_frame (s : State) (lanes n : Nat)  : (State.announcePending s lanes n).pending = s.pending ∧ (State.announcePending s lanes n).tck.now = s.tck.now ∧ (State.announcePending s lanes n).mem = s.mem := by
  unfold State.announcePending
  repeat' first
    | (simp only [implies_true, and_self, and_true, true_and, apply_ite State.pending, apply_ite State.mem, apply_ite State.tck, apply_ite TckSt.now, State.announceTckOn_frame]; done)
    | (simp (maxDischargeDepth := 8) only [foldl_PMN, implies_true, and_self, and_true, true_and, apply_ite State.pending, apply_ite State.mem, apply_ite State.tck, apply_ite TckSt.now, State.announceTckOn_frame]; done)
    | (with_reducible refine foldl_PMN _ _ _ (fun s a => ?_))
    | split
    | (simp only [implies_true, and_self, and_true, true_and, apply_ite State.pending, apply_ite State.mem, apply_ite State.tck, apply_ite TckSt.now, State.announceTckOn_frame])

theorem State.announceLanes_frame (s : State) (n lanes : Nat)  : (State.announceLanes s n lanes).pending = s.pending ∧ (State.announceLanes s n lanes).tck.now = s.tck.now ∧ (State.announceLanes s n lanes).mem = s.mem := by
  unfold State.announceLanes
  repeat' first
    | (simp only [implies_true, and_self, and_true, true_and, apply_ite State.pending, apply_ite State.mem, apply_ite State.tck, apply_ite TckSt.now, State.announcePending_frame, State.announce_frame]; done)
    | (simp (maxDischargeDepth := 8) only [foldl_PMN, implies_true, and_self, and_true, true_and, apply_ite State.pending, apply_ite State.mem, apply_ite State.tck, apply_ite TckSt.now, State.announcePending_frame, State.announce_frame]; done)
    | (with_reducible refine foldl_PMN _ _ _ (fun s a => ?_))
    | split
    | (simp only [implies_true, and_self, and_true, true_and, apply_ite State.pending, apply_ite State.mem, apply_ite State.tck, apply_ite TckSt.now, State.announcePending_frame, State.announce_frame])

theorem State.withdrawTck_frame (s : State) (k : Tick)  : (State.withdrawTck s k).pending = s.pending ∧ (State.withdrawTck s k).tck.now = s.tck.now ∧ (State.withdrawTck s k).mem = s.mem := by
  unfold State.withdrawTck
  repeat' first
    | (simp only [implies_true, and_self, and_true, true_and, apply_ite State.pending, apply_ite State.mem, apply_ite State.tck, apply_ite TckSt.now, State.setPort_frame, State.announce_frame]; done)
    | (simp (maxDischargeDepth := 8) only [foldl_PMN, implies_true, and_self, and_true, true_and, apply_ite State.pending, apply_ite State.mem, apply_ite State.tck, apply_ite TckSt.now, State.setPort_frame, State.announce_frame]; done)
    | (with_reducible refine foldl_PMN _ _ _ (fun s a => ?_))
    | split
    | (simp only [implies_true, and_self, and_true, true_and, apply_ite State.pending, apply_ite State.mem, apply_ite State.tck, apply_ite TckSt.now, State.setPort_frame, State.announce_frame])

theorem State.tckWatch_frame (s : State)  : (State.tckWatch s).pending = s.pending ∧ (State.tckWatch s).tck.now = s.tck.now ∧ (State.tckWatch s).mem = s.mem := by
  unfold State.tckWatch
  repeat' first
    | (simp only [implies_true, and_self, and_true, true_and, apply_ite State.pending, apply_ite State.mem, apply_ite State.tck, apply_ite TckSt.now, State.journalPut_frame, State.tckCancel_frame, State.withdrawTck_frame]; done)
    | (simp (maxDischargeDepth := 8) only [foldl_PMN, implies_true, and_self, and_true, true_and, apply_ite State.pending, apply_ite State.mem, apply_ite State.tck, apply_ite TckSt.now, State.journalPut_frame, State.tckCancel_frame, State.withdrawTck_frame]; done)
    | (with_reducible refine foldl_PMN _ _ _ (fun s a => ?_))
    | split
    | (simp only [implies_true, and_self, and_true, true_and, apply_ite State.pending, apply_ite State.mem, apply_ite State.tck, apply_ite TckSt.now, State.journalPut_frame, State.tckCancel_frame, State.withdrawTck_frame])

theorem State.markShort_frame (s : State) (n : Nat)  : (State.markShort s n).pending = s.pending ∧ (State.markShort s n).tck.now = s.tck.now ∧ (State.markShort s n).mem = s.mem := by
  unfold State.markShort
  repeat' first
    | (simp only [implies_true, and_self, and_true, true_and, apply_ite State.pending, apply_ite State.mem, apply_ite State.tck, apply_ite TckSt.now, State.setPort_frame, State.setAbsent_frame, State.setBit_frame, State.raise_frame]; done)
    | (simp (maxDischargeDepth := 8) only [foldl_PMN, implies_true, and_self, and_true, true_and, apply_ite State.pending, apply_ite State.mem, apply_ite State.tck, apply_ite TckSt.now, State.setPort_frame, State.setAbsent_frame, State.setBit_frame, State.raise_frame]; done)
    | (with_reducible refine foldl_PMN _ _ _ (fun s a => ?_))
    | split
    | (simp only [implies_true, and_self, and_true, true_and, apply_ite State.pending, apply_ite State.mem, apply_ite State.tck, apply_ite TckSt.now, State.setPort_frame, State.setAbsent_frame, State.setBit_frame, State.raise_frame])

theorem State.updateShortDeg_frame (s : State)  : (State.updateShortDeg s).pending = s.pending ∧ (State.updateShortDeg s).tck.now = s.tck.now ∧ (State.updateShortDeg s).mem = s.mem := by
  unfold State.updateShortDeg
  repeat' first
    | (simp only [implies_true, and_self, and_true, true_and, apply_ite State.pending, apply_ite State.mem, apply_ite State.tck, apply_ite TckSt.now, State.markShort_frame, State.setPort_frame, State.setBit_frame]; done)
    | (simp (maxDischargeDepth := 8) only [foldl_PMN, implies_true, and_self, and_true, true_and, apply_ite State.pending, apply_ite State.mem, apply_ite State.tck, apply_ite TckSt.now, State.markShort_frame, State.setPort_frame, State.setBit_frame]; done)
    | (with_reducible refine foldl_PMN _ _ _ (fun s a => ?_))
    | split
    | (simp only [implies_true, and_self, and_true, true_and, apply_ite State.pending, apply_ite State.mem, apply_ite State.tck, apply_ite TckSt.now, State.markShort_frame, State.setPort_frame, State.setBit_frame])

theorem State.laneOut_frame (s : State) (n k : Nat)  : (State.laneOut s n k).pending = s.pending ∧ (State.laneOut s n k).tck.now = s.tck.now ∧ (State.laneOut s n k).mem = s.mem := by
  unfold State.laneOut
  repeat' first
    | (simp only [implies_true, and_self, and_true, true_and, apply_ite State.pending, apply_ite State.mem, apply_ite State.tck, apply_ite TckSt.now, State.setBit_frame, State.retire_frame, State.tckWatch_frame]; done)
    | (simp (maxDischargeDepth := 8) only [foldl_PMN, implies_true, and_self, and_true, true_and, apply_ite State.pending, apply_ite State.mem, apply_ite State.tck, apply_ite TckSt.now, State.setBit_frame, State.retire_frame, State.tckWatch_frame]; done)
    | (with_reducible refine foldl_PMN _ _ _ (fun s a => ?_))
    | split
    | (simp only [implies_true, and_self, and_true, true_and, apply_ite State.pending, apply_ite State.mem, apply_ite State.tck, apply_ite TckSt.now, State.setBit_frame, State.retire_frame, State.tckWatch_frame])

theorem State.lanesOut_frame (s : State) (n m : Nat)  : (State.lanesOut s n m).pending = s.pending ∧ (State.lanesOut s n m).tck.now = s.tck.now ∧ (State.lanesOut s n m).mem = s.mem := by
  unfold State.lanesOut
  repeat' first
    | (simp only [implies_true, and_self, and_true, true_and, apply_ite State.pending, apply_ite State.mem, apply_ite State.tck, apply_ite TckSt.now, State.laneOut_frame]; done)
    | (simp (maxDischargeDepth := 8) only [foldl_PMN, implies_true, and_self, and_true, true_and, apply_ite State.pending, apply_ite State.mem, apply_ite State.tck, apply_ite TckSt.now, State.laneOut_frame]; done)
    | (with_reducible refine foldl_PMN _ _ _ (fun s a => ?_))
    | split
    | (simp only [implies_true, and_self, and_true, true_and, apply_ite State.pending, apply_ite State.mem, apply_ite State.tck, apply_ite TckSt.now, State.laneOut_frame])

theorem State.laneBack_frame (s : State) (n k : Nat)  : (State.laneBack s n k).pending = s.pending ∧ (State.laneBack s n k).tck.now = s.tck.now ∧ (State.laneBack s n k).mem = s.mem := by
  unfold State.laneBack
  repeat' first
    | (simp only [implies_true, and_self, and_true, true_and, apply_ite State.pending, apply_ite State.mem, apply_ite State.tck, apply_ite TckSt.now, State.setBit_frame, State.unretire_frame]; done)
    | (simp (maxDischargeDepth := 8) only [foldl_PMN, implies_true, and_self, and_true, true_and, apply_ite State.pending, apply_ite State.mem, apply_ite State.tck, apply_ite TckSt.now, State.setBit_frame, State.unretire_frame]; done)
    | (with_reducible refine foldl_PMN _ _ _ (fun s a => ?_))
    | split
    | (simp only [implies_true, and_self, and_true, true_and, apply_ite State.pending, apply_ite State.mem, apply_ite State.tck, apply_ite TckSt.now, State.setBit_frame, State.unretire_frame])

theorem State.showLaneCnt_frame (s : State) (n : Nat)  : (State.showLaneCnt s n).pending = s.pending ∧ (State.showLaneCnt s n).tck.now = s.tck.now ∧ (State.showLaneCnt s n).mem = s.mem := by
  unfold State.showLaneCnt
  repeat' first
    | (simp only [implies_true, and_self, and_true, true_and, apply_ite State.pending, apply_ite State.mem, apply_ite State.tck, apply_ite TckSt.now, State.setRegN_frame]; done)
    | (simp (maxDischargeDepth := 8) only [foldl_PMN, implies_true, and_self, and_true, true_and, apply_ite State.pending, apply_ite State.mem, apply_ite State.tck, apply_ite TckSt.now, State.setRegN_frame]; done)
    | (with_reducible refine foldl_PMN _ _ _ (fun s a => ?_))
    | split
    | (simp only [implies_true, and_self, and_true, true_and, apply_ite State.pending, apply_ite State.mem, apply_ite State.tck, apply_ite TckSt.now, State.setRegN_frame])

theorem State.portDown_frame (s : State) (n : Nat)  : (State.portDown s n).pending = s.pending ∧ (State.portDown s n).tck.now = s.tck.now ∧ (State.portDown s n).mem = s.mem := by
  unfold State.portDown
  repeat' first
    | (simp only [implies_true, and_self, and_true, true_and, apply_ite State.pending, apply_ite State.mem, apply_ite State.tck, apply_ite TckSt.now, State.setPortState_frame, State.setLanesUp_frame, State.setAbsent_frame, State.setPort_frame, State.raise_frame]; done)
    | (simp (maxDischargeDepth := 8) only [foldl_PMN, implies_true, and_self, and_true, true_and, apply_ite State.pending, apply_ite State.mem, apply_ite State.tck, apply_ite TckSt.now, State.setPortState_frame, State.setLanesUp_frame, State.setAbsent_frame, State.setPort_frame, State.raise_frame]; done)
    | (with_reducible refine foldl_PMN _ _ _ (fun s a => ?_))
    | split
    | (simp only [implies_true, and_self, and_true, true_and, apply_ite State.pending, apply_ite State.mem, apply_ite State.tck, apply_ite TckSt.now, State.setPortState_frame, State.setLanesUp_frame, State.setAbsent_frame, State.setPort_frame, State.raise_frame])

theorem State.beginAttempt_frame (s : State) (n : Nat)  : (State.beginAttempt s n).pending = s.pending ∧ (State.beginAttempt s n).tck.now = s.tck.now ∧ (State.beginAttempt s n).mem = s.mem := by
  unfold State.beginAttempt
  repeat' first
    | (simp only [implies_true, and_self, and_true, true_and, apply_ite State.pending, apply_ite State.mem, apply_ite State.tck, apply_ite TckSt.now, State.setLanesUp_frame, State.setAbsent_frame, State.laneBack_frame, State.lanesOut_frame, State.setPort_frame, State.showLaneCnt_frame, State.showChange_frame, State.portDown_frame, State.setPortState_frame]; done)
    | (simp (maxDischargeDepth := 8) only [foldl_PMN, implies_true, and_self, and_true, true_and, apply_ite State.pending, apply_ite State.mem, apply_ite State.tck, apply_ite TckSt.now, State.setLanesUp_frame, State.setAbsent_frame, State.laneBack_frame, State.lanesOut_frame, State.setPort_frame, State.showLaneCnt_frame, State.showChange_frame, State.portDown_frame, State.setPortState_frame]; done)
    | (with_reducible refine foldl_PMN _ _ _ (fun s a => ?_))
    | split
    | (simp only [implies_true, and_self, and_true, true_and, apply_ite State.pending, apply_ite State.mem, apply_ite State.tck, apply_ite TckSt.now, State.setLanesUp_frame, State.setAbsent_frame, State.laneBack_frame, State.lanesOut_frame, State.setPort_frame, State.showLaneCnt_frame, State.showChange_frame, State.portDown_frame, State.setPortState_frame])

theorem State.startAttempt_frame (s : State) (n : Nat)  : (State.startAttempt s n).pending = s.pending ∧ (State.startAttempt s n).tck.now = s.tck.now ∧ (State.startAttempt s n).mem = s.mem := by
  unfold State.startAttempt
  repeat' first
    | (simp only [implies_true, and_self, and_true, true_and, apply_ite State.pending, apply_ite State.mem, apply_ite State.tck, apply_ite TckSt.now, State.setPort_frame, State.beginAttempt_frame]; done)
    | (simp (maxDischargeDepth := 8) only [foldl_PMN, implies_true, and_self, and_true, true_and, apply_ite State.pending, apply_ite State.mem, apply_ite State.tck, apply_ite TckSt.now, State.setPort_frame, State.beginAttempt_frame]; done)
    | (with_reducible refine foldl_PMN _ _ _ (fun s a => ?_))
    | split
    | (simp only [implies_true, and_self, and_true, true_and, apply_ite State.pending, apply_ite State.mem, apply_ite State.tck, apply_ite TckSt.now, State.setPort_frame, State.beginAttempt_frame])

theorem State.firstAttempt_frame (s : State) (n : Nat) (warn : Bool)  : (State.firstAttempt s n warn).pending = s.pending ∧ (State.firstAttempt s n warn).tck.now = s.tck.now ∧ (State.firstAttempt s n warn).mem = s.mem := by
  unfold State.firstAttempt
  repeat' first
    | (simp only [implies_true, and_self, and_true, true_and, apply_ite State.pending, apply_ite State.mem, apply_ite State.tck, apply_ite TckSt.now, State.setFld_frame]; done)
    | (simp (maxDischargeDepth := 8) only [foldl_PMN, implies_true, and_self, and_true, true_and, apply_ite State.pending, apply_ite State.mem, apply_ite State.tck, apply_ite TckSt.now, State.setFld_frame]; done)
    | (with_reducible refine foldl_PMN _ _ _ (fun s a => ?_))
    | split
    | (simp only [implies_true, and_self, and_true, true_and, apply_ite State.pending, apply_ite State.mem, apply_ite State.tck, apply_ite TckSt.now, State.setFld_frame])

theorem State.attemptFails_frame (s : State) (n res lanes : Nat)  : (State.attemptFails s n res lanes).pending = s.pending ∧ (State.attemptFails s n res lanes).tck.now = s.tck.now ∧ (State.attemptFails s n res lanes).mem = s.mem := by
  unfold State.attemptFails
  repeat' first
    | (simp only [implies_true, and_self, and_true, true_and, apply_ite State.pending, apply_ite State.mem, apply_ite State.tck, apply_ite TckSt.now, State.trainFail_frame, State.firstAttempt_frame, State.setPortState_frame, State.setLanesUp_frame, State.setAbsent_frame, State.setPort_frame]; done)
    | (simp (maxDischargeDepth := 8) only [foldl_PMN, implies_true, and_self, and_true, true_and, apply_ite State.pending, apply_ite State.mem, apply_ite State.tck, apply_ite TckSt.now, State.trainFail_frame, State.firstAttempt_frame, State.setPortState_frame, State.setLanesUp_frame, State.setAbsent_frame, State.setPort_frame]; done)
    | (with_reducible refine foldl_PMN _ _ _ (fun s a => ?_))
    | split
    | (simp only [implies_true, and_self, and_true, true_and, apply_ite State.pending, apply_ite State.mem, apply_ite State.tck, apply_ite TckSt.now, State.trainFail_frame, State.firstAttempt_frame, State.setPortState_frame, State.setLanesUp_frame, State.setAbsent_frame, State.setPort_frame])

theorem State.lanesFail_frame (s : State) (n res m : Nat)  : (State.lanesFail s n res m).pending = s.pending ∧ (State.lanesFail s n res m).tck.now = s.tck.now ∧ (State.lanesFail s n res m).mem = s.mem := by
  unfold State.lanesFail
  repeat' first
    | (simp only [implies_true, and_self, and_true, true_and, apply_ite State.pending, apply_ite State.mem, apply_ite State.tck, apply_ite TckSt.now, State.lanesOut_frame, State.setPort_frame, State.trainRes_frame]; done)
    | (simp (maxDischargeDepth := 8) only [foldl_PMN, implies_true, and_self, and_true, true_and, apply_ite State.pending, apply_ite State.mem, apply_ite State.tck, apply_ite TckSt.now, State.lanesOut_frame, State.setPort_frame, State.trainRes_frame]; done)
    | (with_reducible refine foldl_PMN _ _ _ (fun s a => ?_))
    | split
    | (simp only [implies_true, and_self, and_true, true_and, apply_ite State.pending, apply_ite State.mem, apply_ite State.tck, apply_ite TckSt.now, State.lanesOut_frame, State.setPort_frame, State.trainRes_frame])

theorem State.pmdTrained_frame (s : State) (n m : Nat)  : (State.pmdTrained s n m).pending = s.pending ∧ (State.pmdTrained s n m).tck.now = s.tck.now ∧ (State.pmdTrained s n m).mem = s.mem := by
  unfold State.pmdTrained
  repeat' first
    | (simp only [implies_true, and_self, and_true, true_and, apply_ite State.pending, apply_ite State.mem, apply_ite State.tck, apply_ite TckSt.now, State.setPort_frame, State.lanesFail_frame, State.setPortState_frame]; done)
    | (simp (maxDischargeDepth := 8) only [foldl_PMN, implies_true, and_self, and_true, true_and, apply_ite State.pending, apply_ite State.mem, apply_ite State.tck, apply_ite TckSt.now, State.setPort_frame, State.lanesFail_frame, State.setPortState_frame]; done)
    | (with_reducible refine foldl_PMN _ _ _ (fun s a => ?_))
    | split
    | (simp only [implies_true, and_self, and_true, true_and, apply_ite State.pending, apply_ite State.mem, apply_ite State.tck, apply_ite TckSt.now, State.setPort_frame, State.lanesFail_frame, State.setPortState_frame])

theorem State.toDiscover_frame (s : State) (n m : Nat)  : (State.toDiscover s n m).pending = s.pending ∧ (State.toDiscover s n m).tck.now = s.tck.now ∧ (State.toDiscover s n m).mem = s.mem := by
  unfold State.toDiscover
  repeat' first
    | (simp only [implies_true, and_self, and_true, true_and, apply_ite State.pending, apply_ite State.mem, apply_ite State.tck, apply_ite TckSt.now, State.laneBack_frame, State.setLanesUp_frame, State.setPort_frame, State.setPortState_frame]; done)
    | (simp (maxDischargeDepth := 8) only [foldl_PMN, implies_true, and_self, and_true, true_and, apply_ite State.pending, apply_ite State.mem, apply_ite State.tck, apply_ite TckSt.now, State.laneBack_frame, State.setLanesUp_frame, State.setPort_frame, State.setPortState_frame]; done)
    | (with_reducible refine foldl_PMN _ _ _ (fun s a => ?_))
    | split
    | (simp only [implies_true, and_self, and_true, true_and, apply_ite State.pending, apply_ite State.mem, apply_ite State.tck, apply_ite TckSt.now, State.laneBack_frame, State.setLanesUp_frame, State.setPort_frame, State.setPortState_frame])

theorem State.lanesReturn_frame (s : State) (n m : Nat)  : (State.lanesReturn s n m).pending = s.pending ∧ (State.lanesReturn s n m).tck.now = s.tck.now ∧ (State.lanesReturn s n m).mem = s.mem := by
  unfold State.lanesReturn
  repeat' first
    | (simp only [implies_true, and_self, and_true, true_and, apply_ite State.pending, apply_ite State.mem, apply_ite State.tck, apply_ite TckSt.now, State.laneBack_frame, State.setLanesUp_frame, State.setPort_frame, State.trainRes_frame, State.showLaneCnt_frame, State.announceLanes_frame]; done)
    | (simp (maxDischargeDepth := 8) only [foldl_PMN, implies_true, and_self, and_true, true_and, apply_ite State.pending, apply_ite State.mem, apply_ite State.tck, apply_ite TckSt.now, State.laneBack_frame, State.setLanesUp_frame, State.setPort_frame, State.trainRes_frame, State.showLaneCnt_frame, State.announceLanes_frame]; done)
    | (with_reducible refine foldl_PMN _ _ _ (fun s a => ?_))
    | split
    | (simp only [implies_true, and_self, and_true, true_and, apply_ite State.pending, apply_ite State.mem, apply_ite State.tck, apply_ite TckSt.now, State.laneBack_frame, State.setLanesUp_frame, State.setPort_frame, State.trainRes_frame, State.showLaneCnt_frame, State.announceLanes_frame])

theorem State.alignRx_frame (s : State) (n k : Nat) (inPlace : Bool) (skew : Int)  : (State.alignRx s n k inPlace skew).pending = s.pending ∧ (State.alignRx s n k inPlace skew).tck.now = s.tck.now ∧ (State.alignRx s n k inPlace skew).mem = s.mem := by
  unfold State.alignRx
  refine ⟨?_, ?_, ?_⟩
  · repeat' first
      | with_reducible assumption
      | with_reducible rfl
      | (with_reducible refine alP_ite ?_ ?_)
      | (with_reducible refine Eq.trans (State.setPort_frame ..).1 ?_)
      | (with_reducible refine Eq.trans (State.toDiscover_frame ..).1 ?_)
      | (with_reducible refine Eq.trans (State.lanesReturn_frame ..).1 ?_)
      | dsimp only
      | split
  · repeat' first
      | with_reducible assumption
      | with_reducible rfl
      | (with_reducible refine alN_ite ?_ ?_)
      | (with_reducible refine Eq.trans (State.setPort_frame ..).2.1 ?_)
      | (with_reducible refine Eq.trans (State.toDiscover_frame ..).2.1 ?_)
      | (with_reducible refine Eq.trans (State.lanesReturn_frame ..).2.1 ?_)
      | dsimp only
      | split
  · repeat' first
      | with_reducible assumption
      | with_reducible rfl
      | (with_reducible refine alM_ite ?_ ?_)
      | (with_reducible refine Eq.trans (State.setPort_frame ..).2.2 ?_)
      | (with_reducible refine Eq.trans (State.toDiscover_frame ..).2.2 ?_)
      | (with_reducible refine Eq.trans (State.lanesReturn_frame ..).2.2 ?_)
      | dsimp only
      | split

theorem State.alignMissing_frame (s : State) (n k : Nat)  : (State.alignMissing s n k).pending = s.pending ∧ (State.alignMissing s n k).tck.now = s.tck.now ∧ (State.alignMissing s n k).mem = s.mem := by
  unfold State.alignMissing
  repeat' first
    | (simp only [implies_true, and_self, and_true, true_and, apply_ite State.pending, apply_ite State.mem, apply_ite State.tck, apply_ite TckSt.now, State.setPort_frame]; done)
    | (simp (maxDischargeDepth := 8) only [foldl_PMN, implies_true, and_self, and_true, true_and, apply_ite State.pending, apply_ite State.mem, apply_ite State.tck, apply_ite TckSt.now, State.setPort_frame]; done)
    | (with_reducible refine foldl_PMN _ _ _ (fun s a => ?_))
    | split
    | (simp only [implies_true, and_self, and_true, true_and, apply_ite State.pending, apply_ite State.mem, apply_ite State.tck, apply_ite TckSt.now, State.setPort_frame])

theorem State.sendEchoReq_frame (s : State) (n q : Nat)  : (State.sendEchoReq s n q).pending = s.pending ∧ (State.sendEchoReq s n q).tck.now = s.tck.now ∧ (State.sendEchoReq s n q).mem = s.mem := by
  unfold State.sendEchoReq
  repeat' first
    | (simp only [implies_true, and_self, and_true, true_and, apply_ite State.pending, apply_ite State.mem, apply_ite State.tck, apply_ite TckSt.now, State.sendControl_frame]; done)
    | (simp (maxDischargeDepth := 8) only [foldl_PMN, implies_true, and_self, and_true, true_and, apply_ite State.pending, apply_ite State.mem, apply_ite State.tck, apply_ite TckSt.now, State.sendControl_frame]; done)
    | (with_reducible refine foldl_PMN _ _ _ (fun s a => ?_))
    | split
    | (simp only [implies_true, and_self, and_true, true_and, apply_ite State.pending, apply_ite State.mem, apply_ite State.tck, apply_ite TckSt.now, State.sendControl_frame])

theorem State.sendAck_frame (s : State) (n res : Nat) (valid : Bool) (d : Nat) (skew : Int)  : (State.sendAck s n res valid d skew).pending = s.pending ∧ (State.sendAck s n res valid d skew).tck.now = s.tck.now ∧ (State.sendAck s n res valid d skew).mem = s.mem := by
  unfold State.sendAck
  repeat' first
    | (simp only [implies_true, and_self, and_true, true_and, apply_ite State.pending, apply_ite State.mem, apply_ite State.tck, apply_ite TckSt.now, State.sendControl_frame]; done)
    | (simp (maxDischargeDepth := 8) only [foldl_PMN, implies_true, and_self, and_true, true_and, apply_ite State.pending, apply_ite State.mem, apply_ite State.tck, apply_ite TckSt.now, State.sendControl_frame]; done)
    | (with_reducible refine foldl_PMN _ _ _ (fun s a => ?_))
    | split
    | (simp only [implies_true, and_self, and_true, true_and, apply_ite State.pending, apply_ite State.mem, apply_ite State.tck, apply_ite TckSt.now, State.sendControl_frame])

theorem State.beginEcho_frame (s : State) (n : Nat)  : (State.beginEcho s n).pending = s.pending ∧ (State.beginEcho s n).tck.now = s.tck.now ∧ (State.beginEcho s n).mem = s.mem := by
  unfold State.beginEcho
  repeat' first
    | (simp only [implies_true, and_self, and_true, true_and, apply_ite State.pending, apply_ite State.mem, apply_ite State.tck, apply_ite TckSt.now, State.setPort_frame, State.sendEchoReq_frame]; done)
    | (simp (maxDischargeDepth := 8) only [foldl_PMN, implies_true, and_self, and_true, true_and, apply_ite State.pending, apply_ite State.mem, apply_ite State.tck, apply_ite TckSt.now, State.setPort_frame, State.sendEchoReq_frame]; done)
    | (with_reducible refine foldl_PMN _ _ _ (fun s a => ?_))
    | split
    | (simp only [implies_true, and_self, and_true, true_and, apply_ite State.pending, apply_ite State.mem, apply_ite State.tck, apply_ite TckSt.now, State.setPort_frame, State.sendEchoReq_frame])

theorem State.discover_frame (s : State) (n id efe proto layout te hold : Nat)  : (State.discover s n id efe proto layout te hold).pending = s.pending ∧ (State.discover s n id efe proto layout te hold).tck.now = s.tck.now ∧ (State.discover s n id efe proto layout te hold).mem = s.mem := by
  unfold State.discover
  repeat' first
    | (simp only [implies_true, and_self, and_true, true_and, apply_ite State.pending, apply_ite State.mem, apply_ite State.tck, apply_ite TckSt.now, State.sendAck_frame, State.attemptFails_frame, State.setReg64_frame, State.setRegN_frame, State.setPortState_frame, State.beginEcho_frame]; done)
    | (simp (maxDischargeDepth := 8) only [foldl_PMN, implies_true, and_self, and_true, true_and, apply_ite State.pending, apply_ite State.mem, apply_ite State.tck, apply_ite TckSt.now, State.sendAck_frame, State.attemptFails_frame, State.setReg64_frame, State.setRegN_frame, State.setPortState_frame, State.beginEcho_frame]; done)
    | (with_reducible refine foldl_PMN _ _ _ (fun s a => ?_))
    | split
    | (simp only [implies_true, and_self, and_true, true_and, apply_ite State.pending, apply_ite State.mem, apply_ite State.tck, apply_ite TckSt.now, State.sendAck_frame, State.attemptFails_frame, State.setReg64_frame, State.setRegN_frame, State.setPortState_frame, State.beginEcho_frame])

theorem State.toSync_frame (s : State) (n : Nat)  : (State.toSync s n).pending = s.pending ∧ (State.toSync s n).tck.now = s.tck.now ∧ (State.toSync s n).mem = s.mem := by
  unfold State.toSync
  repeat' first
    | (simp only [implies_true, and_self, and_true, true_and, apply_ite State.pending, apply_ite State.mem, apply_ite State.tck, apply_ite TckSt.now, State.setPort_frame, State.setPortState_frame, State.showChange_frame, State.announcePending_frame, State.markShort_frame]; done)
    | (simp (maxDischargeDepth := 8) only [foldl_PMN, implies_true, and_self, and_true, true_and, apply_ite State.pending, apply_ite State.mem, apply_ite State.tck, apply_ite TckSt.now, State.setPort_frame, State.setPortState_frame, State.showChange_frame, State.announcePending_frame, State.markShort_frame]; done)
    | (with_reducible refine foldl_PMN _ _ _ (fun s a => ?_))
    | split
    | (simp only [implies_true, and_self, and_true, true_and, apply_ite State.pending, apply_ite State.mem, apply_ite State.tck, apply_ite TckSt.now, State.setPort_frame, State.setPortState_frame, State.showChange_frame, State.announcePending_frame, State.markShort_frame])

theorem State.echoDone_frame (s : State) (n : Nat) (rs : List Nat)  : (State.echoDone s n rs).pending = s.pending ∧ (State.echoDone s n rs).tck.now = s.tck.now ∧ (State.echoDone s n rs).mem = s.mem := by
  unfold State.echoDone
  repeat' first
    | (simp only [implies_true, and_self, and_true, true_and, apply_ite State.pending, apply_ite State.mem, apply_ite State.tck, apply_ite TckSt.now, State.setPort_frame, State.attemptFails_frame, State.setFld_frame, State.raise_frame, State.setRegN_frame, State.sendAck_frame, State.trainRes_frame, State.firstAttempt_frame, State.toSync_frame]; done)
    | (simp (maxDischargeDepth := 8) only [foldl_PMN, implies_true, and_self, and_true, true_and, apply_ite State.pending, apply_ite State.mem, apply_ite State.tck, apply_ite TckSt.now, State.setPort_frame, State.attemptFails_frame, State.setFld_frame, State.raise_frame, State.setRegN_frame, State.sendAck_frame, State.trainRes_frame, State.firstAttempt_frame, State.toSync_frame]; done)
    | (with_reducible refine foldl_PMN _ _ _ (fun s a => ?_))
    | split
    | (simp only [implies_true, and_self, and_true, true_and, apply_ite State.pending, apply_ite State.mem, apply_ite State.tck, apply_ite TckSt.now, State.setPort_frame, State.attemptFails_frame, State.setFld_frame, State.raise_frame, State.setRegN_frame, State.sendAck_frame, State.trainRes_frame, State.firstAttempt_frame, State.toSync_frame])

theorem State.echoRsp_frame (s : State) (n q r : Nat)  : (State.echoRsp s n q r).pending = s.pending ∧ (State.echoRsp s n q r).tck.now = s.tck.now ∧ (State.echoRsp s n q r).mem = s.mem := by
  unfold State.echoRsp
  repeat' first
    | (simp only [implies_true, and_self, and_true, true_and, apply_ite State.pending, apply_ite State.mem, apply_ite State.tck, apply_ite TckSt.now, State.echoDone_frame, State.setPort_frame, State.sendEchoReq_frame]; done)
    | (simp (maxDischargeDepth := 8) only [foldl_PMN, implies_true, and_self, and_true, true_and, apply_ite State.pending, apply_ite State.mem, apply_ite State.tck, apply_ite TckSt.now, State.echoDone_frame, State.setPort_frame, State.sendEchoReq_frame]; done)
    | (with_reducible refine foldl_PMN _ _ _ (fun s a => ?_))
    | split
    | (simp only [implies_true, and_self, and_true, true_and, apply_ite State.pending, apply_ite State.mem, apply_ite State.tck, apply_ite TckSt.now, State.echoDone_frame, State.setPort_frame, State.sendEchoReq_frame])

theorem State.trainTimeout_frame (s : State) (n : Nat) (signal : Bool)  : (State.trainTimeout s n signal).pending = s.pending ∧ (State.trainTimeout s n signal).tck.now = s.tck.now ∧ (State.trainTimeout s n signal).mem = s.mem := by
  unfold State.trainTimeout
  repeat' first
    | (simp only [implies_true, and_self, and_true, true_and, apply_ite State.pending, apply_ite State.mem, apply_ite State.tck, apply_ite TckSt.now, State.attemptFails_frame, State.lanesFail_frame, State.toDiscover_frame, State.trainFail_frame, State.setPort_frame]; done)
    | (simp (maxDischargeDepth := 8) only [foldl_PMN, implies_true, and_self, and_true, true_and, apply_ite State.pending, apply_ite State.mem, apply_ite State.tck, apply_ite TckSt.now, State.attemptFails_frame, State.lanesFail_frame, State.toDiscover_frame, State.trainFail_frame, State.setPort_frame]; done)
    | (with_reducible refine foldl_PMN _ _ _ (fun s a => ?_))
    | split
    | (simp only [implies_true, and_self, and_true, true_and, apply_ite State.pending, apply_ite State.mem, apply_ite State.tck, apply_ite TckSt.now, State.attemptFails_frame, State.lanesFail_frame, State.toDiscover_frame, State.trainFail_frame, State.setPort_frame])

theorem State.trainRetry_frame (s : State) (n : Nat)  : (State.trainRetry s n).pending = s.pending ∧ (State.trainRetry s n).tck.now = s.tck.now ∧ (State.trainRetry s n).mem = s.mem := by
  unfold State.trainRetry
  repeat' first
    | (simp only [implies_true, and_self, and_true, true_and, apply_ite State.pending, apply_ite State.mem, apply_ite State.tck, apply_ite TckSt.now, State.beginAttempt_frame]; done)
    | (simp (maxDischargeDepth := 8) only [foldl_PMN, implies_true, and_self, and_true, true_and, apply_ite State.pending, apply_ite State.mem, apply_ite State.tck, apply_ite TckSt.now, State.beginAttempt_frame]; done)
    | (with_reducible refine foldl_PMN _ _ _ (fun s a => ?_))
    | split
    | (simp only [implies_true, and_self, and_true, true_and, apply_ite State.pending, apply_ite State.mem, apply_ite State.tck, apply_ite TckSt.now, State.beginAttempt_frame])

theorem State.laneRetire_frame (s : State) (n k : Nat)  : (State.laneRetire s n k).pending = s.pending ∧ (State.laneRetire s n k).tck.now = s.tck.now ∧ (State.laneRetire s n k).mem = s.mem := by
  unfold State.laneRetire
  repeat' first
    | (simp only [implies_true, and_self, and_true, true_and, apply_ite State.pending, apply_ite State.mem, apply_ite State.tck, apply_ite TckSt.now, State.laneOut_frame, State.raise_frame, State.portDown_frame, State.announceLanes_frame, State.markShort_frame, State.setPort_frame]; done)
    | (simp (maxDischargeDepth := 8) only [foldl_PMN, implies_true, and_self, and_true, true_and, apply_ite State.pending, apply_ite State.mem, apply_ite State.tck, apply_ite TckSt.now, State.laneOut_frame, State.raise_frame, State.portDown_frame, State.announceLanes_frame, State.markShort_frame, State.setPort_frame]; done)
    | (with_reducible refine foldl_PMN _ _ _ (fun s a => ?_))
    | split
    | (simp only [implies_true, and_self, and_true, true_and, apply_ite State.pending, apply_ite State.mem, apply_ite State.tck, apply_ite TckSt.now, State.laneOut_frame, State.raise_frame, State.portDown_frame, State.announceLanes_frame, State.markShort_frame, State.setPort_frame])

theorem State.laneRestore_frame (s : State) (n m : Nat)  : (State.laneRestore s n m).pending = s.pending ∧ (State.laneRestore s n m).tck.now = s.tck.now ∧ (State.laneRestore s n m).mem = s.mem := by
  unfold State.laneRestore
  repeat' first
    | (simp only [implies_true, and_self, and_true, true_and, apply_ite State.pending, apply_ite State.mem, apply_ite State.tck, apply_ite TckSt.now, State.trainFail_frame, State.setPort_frame, State.beginAttempt_frame]; done)
    | (simp (maxDischargeDepth := 8) only [foldl_PMN, implies_true, and_self, and_true, true_and, apply_ite State.pending, apply_ite State.mem, apply_ite State.tck, apply_ite TckSt.now, State.trainFail_frame, State.setPort_frame, State.beginAttempt_frame]; done)
    | (with_reducible refine foldl_PMN _ _ _ (fun s a => ?_))
    | split
    | (simp only [implies_true, and_self, and_true, true_and, apply_ite State.pending, apply_ite State.mem, apply_ite State.tck, apply_ite TckSt.now, State.trainFail_frame, State.setPort_frame, State.beginAttempt_frame])

theorem State.retrain_frame (s : State) (n : Nat)  : (State.retrain s n).pending = s.pending ∧ (State.retrain s n).tck.now = s.tck.now ∧ (State.retrain s n).mem = s.mem := by
  unfold State.retrain
  repeat' first
    | (simp only [implies_true, and_self, and_true, true_and, apply_ite State.pending, apply_ite State.mem, apply_ite State.tck, apply_ite TckSt.now, State.startAttempt_frame]; done)
    | (simp (maxDischargeDepth := 8) only [foldl_PMN, implies_true, and_self, and_true, true_and, apply_ite State.pending, apply_ite State.mem, apply_ite State.tck, apply_ite TckSt.now, State.startAttempt_frame]; done)
    | (with_reducible refine foldl_PMN _ _ _ (fun s a => ?_))
    | split
    | (simp only [implies_true, and_self, and_true, true_and, apply_ite State.pending, apply_ite State.mem, apply_ite State.tck, apply_ite TckSt.now, State.startAttempt_frame])

theorem State.echoStart_frame (s : State) (n : Nat)  : (State.echoStart s n).pending = s.pending ∧ (State.echoStart s n).tck.now = s.tck.now ∧ (State.echoStart s n).mem = s.mem := by
  unfold State.echoStart
  repeat' first
    | (simp only [implies_true, and_self, and_true, true_and, apply_ite State.pending, apply_ite State.mem, apply_ite State.tck, apply_ite TckSt.now, State.beginEcho_frame]; done)
    | (simp (maxDischargeDepth := 8) only [foldl_PMN, implies_true, and_self, and_true, true_and, apply_ite State.pending, apply_ite State.mem, apply_ite State.tck, apply_ite TckSt.now, State.beginEcho_frame]; done)
    | (with_reducible refine foldl_PMN _ _ _ (fun s a => ?_))
    | split
    | (simp only [implies_true, and_self, and_true, true_and, apply_ite State.pending, apply_ite State.mem, apply_ite State.tck, apply_ite TckSt.now, State.beginEcho_frame])

theorem State.laneEnTakes_frame (s : State) (n : Nat)  : (State.laneEnTakes s n).pending = s.pending ∧ (State.laneEnTakes s n).tck.now = s.tck.now ∧ (State.laneEnTakes s n).mem = s.mem := by
  unfold State.laneEnTakes
  repeat' first
    | (simp only [implies_true, and_self, and_true, true_and, apply_ite State.pending, apply_ite State.mem, apply_ite State.tck, apply_ite TckSt.now, State.laneRetire_frame]; done)
    | (simp (maxDischargeDepth := 8) only [foldl_PMN, implies_true, and_self, and_true, true_and, apply_ite State.pending, apply_ite State.mem, apply_ite State.tck, apply_ite TckSt.now, State.laneRetire_frame]; done)
    | (with_reducible refine foldl_PMN _ _ _ (fun s a => ?_))
    | split
    | (simp only [implies_true, and_self, and_true, true_and, apply_ite State.pending, apply_ite State.mem, apply_ite State.tck, apply_ite TckSt.now, State.laneRetire_frame])

theorem State.byvCtrlWrite_frame (s : State) (n : Nat) (v : Word)  : (State.byvCtrlWrite s n v).pending = s.pending ∧ (State.byvCtrlWrite s n v).tck.now = s.tck.now ∧ (State.byvCtrlWrite s n v).mem = s.mem := by
  unfold State.byvCtrlWrite
  repeat' first
    | (simp only [implies_true, and_self, and_true, true_and, apply_ite State.pending, apply_ite State.mem, apply_ite State.tck, apply_ite TckSt.now, State.storeReg_frame, State.laneEnTakes_frame, State.retrain_frame, State.laneRestore_frame, State.echoStart_frame]; done)
    | (simp (maxDischargeDepth := 8) only [foldl_PMN, implies_true, and_self, and_true, true_and, apply_ite State.pending, apply_ite State.mem, apply_ite State.tck, apply_ite TckSt.now, State.storeReg_frame, State.laneEnTakes_frame, State.retrain_frame, State.laneRestore_frame, State.echoStart_frame]; done)
    | (with_reducible refine foldl_PMN _ _ _ (fun s a => ?_))
    | split
    | (simp only [implies_true, and_self, and_true, true_and, apply_ite State.pending, apply_ite State.mem, apply_ite State.tck, apply_ite TckSt.now, State.storeReg_frame, State.laneEnTakes_frame, State.retrain_frame, State.laneRestore_frame, State.echoStart_frame])

theorem State.storeSense_frame (s : State) (key v : Nat)  : (State.storeSense s key v).pending = s.pending ∧ (State.storeSense s key v).tck.now = s.tck.now ∧ (State.storeSense s key v).mem = s.mem := by
  unfold State.storeSense
  repeat' first
    | (simp only [implies_true, and_self, and_true, true_and, apply_ite State.pending, apply_ite State.mem, apply_ite State.tck, apply_ite TckSt.now]; done)
    | (simp (maxDischargeDepth := 8) only [foldl_PMN, implies_true, and_self, and_true, true_and, apply_ite State.pending, apply_ite State.mem, apply_ite State.tck, apply_ite TckSt.now]; done)
    | (with_reducible refine foldl_PMN _ _ _ (fun s a => ?_))
    | split
    | (simp only [implies_true, and_self, and_true, true_and, apply_ite State.pending, apply_ite State.mem, apply_ite State.tck, apply_ite TckSt.now])

theorem State.storeSenses_frame (s : State) (n : Nat) (f : UpFrame)  : (State.storeSenses s n f).pending = s.pending ∧ (State.storeSenses s n f).tck.now = s.tck.now ∧ (State.storeSenses s n f).mem = s.mem := by
  unfold State.storeSenses
  repeat' first
    | (simp only [implies_true, and_self, and_true, true_and, apply_ite State.pending, apply_ite State.mem, apply_ite State.tck, apply_ite TckSt.now, State.storeSense_frame]; done)
    | (simp (maxDischargeDepth := 8) only [foldl_PMN, implies_true, and_self, and_true, true_and, apply_ite State.pending, apply_ite State.mem, apply_ite State.tck, apply_ite TckSt.now, State.storeSense_frame]; done)
    | (with_reducible refine foldl_PMN _ _ _ (fun s a => ?_))
    | split
    | (simp only [implies_true, and_self, and_true, true_and, apply_ite State.pending, apply_ite State.mem, apply_ite State.tck, apply_ite TckSt.now, State.storeSense_frame])

theorem State.upReports_frame (s : State) (n : Nat) (f : UpFrame)  : (State.upReports s n f).pending = s.pending ∧ (State.upReports s n f).tck.now = s.tck.now ∧ (State.upReports s n f).mem = s.mem := by
  unfold State.upReports
  repeat' first
    | (simp only [implies_true, and_self, and_true, true_and, apply_ite State.pending, apply_ite State.mem, apply_ite State.tck, apply_ite TckSt.now, State.setReg64_frame, State.raiseIf_frame, State.count_frame, State.raise_frame, State.setPort_frame]; done)
    | (simp (maxDischargeDepth := 8) only [foldl_PMN, implies_true, and_self, and_true, true_and, apply_ite State.pending, apply_ite State.mem, apply_ite State.tck, apply_ite TckSt.now, State.setReg64_frame, State.raiseIf_frame, State.count_frame, State.raise_frame, State.setPort_frame]; done)
    | (with_reducible refine foldl_PMN _ _ _ (fun s a => ?_))
    | split
    | (simp only [implies_true, and_self, and_true, true_and, apply_ite State.pending, apply_ite State.mem, apply_ite State.tck, apply_ite TckSt.now, State.setReg64_frame, State.raiseIf_frame, State.count_frame, State.raise_frame, State.setPort_frame])

theorem State.endAbsence_frame (s : State) (n : Nat)  : (State.endAbsence s n).pending = s.pending ∧ (State.endAbsence s n).tck.now = s.tck.now ∧ (State.endAbsence s n).mem = s.mem := by
  unfold State.endAbsence
  repeat' first
    | (simp only [implies_true, and_self, and_true, true_and, apply_ite State.pending, apply_ite State.mem, apply_ite State.tck, apply_ite TckSt.now, State.setAbsent_frame]; done)
    | (simp (maxDischargeDepth := 8) only [foldl_PMN, implies_true, and_self, and_true, true_and, apply_ite State.pending, apply_ite State.mem, apply_ite State.tck, apply_ite TckSt.now, State.setAbsent_frame]; done)
    | (with_reducible refine foldl_PMN _ _ _ (fun s a => ?_))
    | split
    | (simp only [implies_true, and_self, and_true, true_and, apply_ite State.pending, apply_ite State.mem, apply_ite State.tck, apply_ite TckSt.now, State.setAbsent_frame])

theorem State.badFrame_frame (s : State) (n : Nat) (l : List Byte)  : (State.badFrame s n l).pending = s.pending ∧ (State.badFrame s n l).tck.now = s.tck.now ∧ (State.badFrame s n l).mem = s.mem := by
  unfold State.badFrame
  repeat' first
    | (simp only [implies_true, and_self, and_true, true_and, apply_ite State.pending, apply_ite State.mem, apply_ite State.tck, apply_ite TckSt.now, State.setPort_frame, State.raiseIf_frame]; done)
    | (simp (maxDischargeDepth := 8) only [foldl_PMN, implies_true, and_self, and_true, true_and, apply_ite State.pending, apply_ite State.mem, apply_ite State.tck, apply_ite TckSt.now, State.setPort_frame, State.raiseIf_frame]; done)
    | (with_reducible refine foldl_PMN _ _ _ (fun s a => ?_))
    | split
    | (simp only [implies_true, and_self, and_true, true_and, apply_ite State.pending, apply_ite State.mem, apply_ite State.tck, apply_ite TckSt.now, State.setPort_frame, State.raiseIf_frame])

theorem State.upFrame_frame (s : State) (n : Nat) (fecOk : Bool) (l : List Byte)  : (State.upFrame s n fecOk l).pending = s.pending ∧ (State.upFrame s n fecOk l).tck.now = s.tck.now ∧ (State.upFrame s n fecOk l).mem = s.mem := by
  unfold State.upFrame
  repeat' first
    | (simp only [implies_true, and_self, and_true, true_and, apply_ite State.pending, apply_ite State.mem, apply_ite State.tck, apply_ite TckSt.now, State.storeSenses_frame, State.upReports_frame, State.count_frame, State.setPort_frame, State.endAbsence_frame, State.setPortState_frame, State.raise_frame, State.badFrame_frame]; done)
    | (simp (maxDischargeDepth := 8) only [foldl_PMN, implies_true, and_self, and_true, true_and, apply_ite State.pending, apply_ite State.mem, apply_ite State.tck, apply_ite TckSt.now, State.storeSenses_frame, State.upReports_frame, State.count_frame, State.setPort_frame, State.endAbsence_frame, State.setPortState_frame, State.raise_frame, State.badFrame_frame]; done)
    | (with_reducible refine foldl_PMN _ _ _ (fun s a => ?_))
    | split
    | (simp only [implies_true, and_self, and_true, true_and, apply_ite State.pending, apply_ite State.mem, apply_ite State.tck, apply_ite TckSt.now, State.storeSenses_frame, State.upReports_frame, State.count_frame, State.setPort_frame, State.endAbsence_frame, State.setPortState_frame, State.raise_frame, State.badFrame_frame])

theorem State.frameLost_frame (s : State) (n : Nat)  : (State.frameLost s n).pending = s.pending ∧ (State.frameLost s n).tck.now = s.tck.now ∧ (State.frameLost s n).mem = s.mem := by
  unfold State.frameLost
  repeat' first
    | (simp only [implies_true, and_self, and_true, true_and, apply_ite State.pending, apply_ite State.mem, apply_ite State.tck, apply_ite TckSt.now, State.setPort_frame, State.count_frame, State.bump_frame, State.raise_frame]; done)
    | (simp (maxDischargeDepth := 8) only [foldl_PMN, implies_true, and_self, and_true, true_and, apply_ite State.pending, apply_ite State.mem, apply_ite State.tck, apply_ite TckSt.now, State.setPort_frame, State.count_frame, State.bump_frame, State.raise_frame]; done)
    | (with_reducible refine foldl_PMN _ _ _ (fun s a => ?_))
    | split
    | (simp only [implies_true, and_self, and_true, true_and, apply_ite State.pending, apply_ite State.mem, apply_ite State.tck, apply_ite TckSt.now, State.setPort_frame, State.count_frame, State.bump_frame, State.raise_frame])

theorem State.noteLanes_frame (s : State) (f : LaneFacts)  : (State.noteLanes s f).pending = s.pending ∧ (State.noteLanes s f).tck.now = s.tck.now ∧ (State.noteLanes s f).mem = s.mem := by
  unfold State.noteLanes
  repeat' first
    | (simp only [implies_true, and_self, and_true, true_and, apply_ite State.pending, apply_ite State.mem, apply_ite State.tck, apply_ite TckSt.now, State.bump_frame, State.setPort_frame]; done)
    | (simp (maxDischargeDepth := 8) only [foldl_PMN, implies_true, and_self, and_true, true_and, apply_ite State.pending, apply_ite State.mem, apply_ite State.tck, apply_ite TckSt.now, State.bump_frame, State.setPort_frame]; done)
    | (with_reducible refine foldl_PMN _ _ _ (fun s a => ?_))
    | split
    | (simp only [implies_true, and_self, and_true, true_and, apply_ite State.pending, apply_ite State.mem, apply_ite State.tck, apply_ite TckSt.now, State.bump_frame, State.setPort_frame])

theorem State.laneJudge_frame (s : State) (n : Nat)  : (State.laneJudge s n).pending = s.pending ∧ (State.laneJudge s n).tck.now = s.tck.now ∧ (State.laneJudge s n).mem = s.mem := by
  unfold State.laneJudge
  repeat' first
    | (simp only [implies_true, and_self, and_true, true_and, apply_ite State.pending, apply_ite State.mem, apply_ite State.tck, apply_ite TckSt.now, State.chanFault_frame, State.chanOk_frame, State.showLaneCnt_frame, State.setPort_frame]; done)
    | (simp (maxDischargeDepth := 8) only [foldl_PMN, implies_true, and_self, and_true, true_and, apply_ite State.pending, apply_ite State.mem, apply_ite State.tck, apply_ite TckSt.now, State.chanFault_frame, State.chanOk_frame, State.showLaneCnt_frame, State.setPort_frame]; done)
    | (with_reducible refine foldl_PMN _ _ _ (fun s a => ?_))
    | split
    | (simp only [implies_true, and_self, and_true, true_and, apply_ite State.pending, apply_ite State.mem, apply_ite State.tck, apply_ite TckSt.now, State.chanFault_frame, State.chanOk_frame, State.showLaneCnt_frame, State.setPort_frame])

theorem State.portChange_frame (s : State) (n : Nat)  : (State.portChange s n).pending = s.pending ∧ (State.portChange s n).tck.now = s.tck.now ∧ (State.portChange s n).mem = s.mem := by
  unfold State.portChange
  repeat' first
    | (simp only [implies_true, and_self, and_true, true_and, apply_ite State.pending, apply_ite State.mem, apply_ite State.tck, apply_ite TckSt.now, State.setPort_frame]; done)
    | (simp (maxDischargeDepth := 8) only [foldl_PMN, implies_true, and_self, and_true, true_and, apply_ite State.pending, apply_ite State.mem, apply_ite State.tck, apply_ite TckSt.now, State.setPort_frame]; done)
    | (with_reducible refine foldl_PMN _ _ _ (fun s a => ?_))
    | split
    | (simp only [implies_true, and_self, and_true, true_and, apply_ite State.pending, apply_ite State.mem, apply_ite State.tck, apply_ite TckSt.now, State.setPort_frame])

theorem State.portBoundary_frame (s : State) (n : Nat)  : (State.portBoundary s n).pending = s.pending ∧ (State.portBoundary s n).tck.now = s.tck.now ∧ (State.portBoundary s n).mem = s.mem := by
  unfold State.portBoundary
  repeat' first
    | (simp only [implies_true, and_self, and_true, true_and, apply_ite State.pending, apply_ite State.mem, apply_ite State.tck, apply_ite TckSt.now, State.portChange_frame, State.setPort_frame, State.showChange_frame, State.setBit_frame, State.toSync_frame]; done)
    | (simp (maxDischargeDepth := 8) only [foldl_PMN, implies_true, and_self, and_true, true_and, apply_ite State.pending, apply_ite State.mem, apply_ite State.tck, apply_ite TckSt.now, State.portChange_frame, State.setPort_frame, State.showChange_frame, State.setBit_frame, State.toSync_frame]; done)
    | (with_reducible refine foldl_PMN _ _ _ (fun s a => ?_))
    | split
    | (simp only [implies_true, and_self, and_true, true_and, apply_ite State.pending, apply_ite State.mem, apply_ite State.tck, apply_ite TckSt.now, State.portChange_frame, State.setPort_frame, State.showChange_frame, State.setBit_frame, State.toSync_frame])

theorem execMarkerTx_frame (port : Fin 16) (ofs : Nat) (s : State) {r : State} (e : execMarkerTx port ofs s = .next r) : r.pending = s.pending ∧ r.tck.now = s.tck.now ∧ r.mem = s.mem := by
  unfold execMarkerTx at e
  revert e
  intro e
  refine ⟨?_, ?_, ?_⟩
  · revert e
    repeat' first
      | with_reducible assumption
      | with_reducible rfl
      | (with_reducible refine alP_ite ?_ ?_)
      | (with_reducible refine Eq.trans (State.sendControl_frame ..).1 ?_)
      | (with_reducible refine ocP_next ?_)
      | with_reducible exact ocP_fault
      | (with_reducible refine ocP_ite ?_ ?_)
      | dsimp only
      | split
  · revert e
    repeat' first
      | with_reducible assumption
      | with_reducible rfl
      | (with_reducible refine alN_ite ?_ ?_)
      | (with_reducible refine Eq.trans (State.sendControl_frame ..).2.1 ?_)
      | (with_reducible refine ocN_next ?_)
      | with_reducible exact ocN_fault
      | (with_reducible refine ocN_ite ?_ ?_)
      | dsimp only
      | split
  · revert e
    repeat' first
      | with_reducible assumption
      | with_reducible rfl
      | (with_reducible refine alM_ite ?_ ?_)
      | (with_reducible refine Eq.trans (State.sendControl_frame ..).2.2 ?_)
      | (with_reducible refine ocM_next ?_)
      | with_reducible exact ocM_fault
      | (with_reducible refine ocM_ite ?_ ?_)
      | dsimp only
      | split

theorem execUpstreamFrame_frame (port : Fin 16) (fecOk : Bool) (content : List Byte) (s : State) {r : State} (e : execUpstreamFrame port fecOk content s = .next r) : r.pending = s.pending ∧ r.tck.now = s.tck.now ∧ r.mem = s.mem := by
  unfold execUpstreamFrame at e
  revert e
  intro e
  refine ⟨?_, ?_, ?_⟩
  · revert e
    repeat' first
      | with_reducible assumption
      | with_reducible rfl
      | (with_reducible refine Eq.trans (State.upFrame_frame ..).1 ?_)
      | (with_reducible refine ocP_next ?_)
      | with_reducible exact ocP_fault
      | dsimp only
      | split
  · revert e
    repeat' first
      | with_reducible assumption
      | with_reducible rfl
      | (with_reducible refine Eq.trans (State.upFrame_frame ..).2.1 ?_)
      | (with_reducible refine ocN_next ?_)
      | with_reducible exact ocN_fault
      | dsimp only
      | split
  · revert e
    repeat' first
      | with_reducible assumption
      | with_reducible rfl
      | (with_reducible refine Eq.trans (State.upFrame_frame ..).2.2 ?_)
      | (with_reducible refine ocM_next ?_)
      | with_reducible exact ocM_fault
      | dsimp only
      | split

theorem execLaneRetire_frame (port : Fin 16) (lane : Fin 2) (s : State) {r : State} (e : execLaneRetire port lane s = .next r) : r.pending = s.pending ∧ r.tck.now = s.tck.now ∧ r.mem = s.mem := by
  unfold execLaneRetire at e
  revert e
  intro e
  refine ⟨?_, ?_, ?_⟩
  · revert e
    repeat' first
      | with_reducible assumption
      | with_reducible rfl
      | (with_reducible refine alP_ite ?_ ?_)
      | (with_reducible refine Eq.trans (State.laneRetire_frame ..).1 ?_)
      | (with_reducible refine ocP_next ?_)
      | with_reducible exact ocP_fault
      | (with_reducible refine ocP_ite ?_ ?_)
      | dsimp only
      | split
  · revert e
    repeat' first
      | with_reducible assumption
      | with_reducible rfl
      | (with_reducible refine alN_ite ?_ ?_)
      | (with_reducible refine Eq.trans (State.laneRetire_frame ..).2.1 ?_)
      | (with_reducible refine ocN_next ?_)
      | with_reducible exact ocN_fault
      | (with_reducible refine ocN_ite ?_ ?_)
      | dsimp only
      | split
  · revert e
    repeat' first
      | with_reducible assumption
      | with_reducible rfl
      | (with_reducible refine alM_ite ?_ ?_)
      | (with_reducible refine Eq.trans (State.laneRetire_frame ..).2.2 ?_)
      | (with_reducible refine ocM_next ?_)
      | with_reducible exact ocM_fault
      | (with_reducible refine ocM_ite ?_ ?_)
      | dsimp only
      | split

theorem execReservedControlBlock_frame (got : Fin 16 × List Byte) (s : State) {r : State} (e : execReservedControlBlock got s = .next r) : r.pending = s.pending ∧ r.tck.now = s.tck.now ∧ r.mem = s.mem := by
  unfold execReservedControlBlock at e
  revert e
  intro e
  refine ⟨?_, ?_, ?_⟩
  · revert e
    repeat' first
      | with_reducible assumption
      | with_reducible rfl
      | (with_reducible refine alP_ite ?_ ?_)
      | (with_reducible refine Eq.trans (State.count_frame ..).1 ?_)
      | (with_reducible refine ocP_next ?_)
      | with_reducible exact ocP_fault
      | (with_reducible refine ocP_ite ?_ ?_)
      | dsimp only
      | split
  · revert e
    repeat' first
      | with_reducible assumption
      | with_reducible rfl
      | (with_reducible refine alN_ite ?_ ?_)
      | (with_reducible refine Eq.trans (State.count_frame ..).2.1 ?_)
      | (with_reducible refine ocN_next ?_)
      | with_reducible exact ocN_fault
      | (with_reducible refine ocN_ite ?_ ?_)
      | dsimp only
      | split
  · revert e
    repeat' first
      | with_reducible assumption
      | with_reducible rfl
      | (with_reducible refine alM_ite ?_ ?_)
      | (with_reducible refine Eq.trans (State.count_frame ..).2.2 ?_)
      | (with_reducible refine ocM_next ?_)
      | with_reducible exact ocM_fault
      | (with_reducible refine ocM_ite ?_ ?_)
      | dsimp only
      | split

theorem execDiscover_frame (port : Fin 16) (id : BitVec 64) (efe proto layout : Byte) (te hold : BitVec 16) (s : State) {r : State} (e : execDiscover port id efe proto layout te hold s = .next r) : r.pending = s.pending ∧ r.tck.now = s.tck.now ∧ r.mem = s.mem := by
  unfold execDiscover at e
  revert e
  intro e
  refine ⟨?_, ?_, ?_⟩
  · revert e
    repeat' first
      | with_reducible assumption
      | with_reducible rfl
      | (with_reducible refine Eq.trans (State.discover_frame ..).1 ?_)
      | (with_reducible refine ocP_next ?_)
      | with_reducible exact ocP_fault
      | dsimp only
      | split
  · revert e
    repeat' first
      | with_reducible assumption
      | with_reducible rfl
      | (with_reducible refine Eq.trans (State.discover_frame ..).2.1 ?_)
      | (with_reducible refine ocN_next ?_)
      | with_reducible exact ocN_fault
      | dsimp only
      | split
  · revert e
    repeat' first
      | with_reducible assumption
      | with_reducible rfl
      | (with_reducible refine Eq.trans (State.discover_frame ..).2.2 ?_)
      | (with_reducible refine ocM_next ?_)
      | with_reducible exact ocM_fault
      | dsimp only
      | split

theorem execLaneRestore_frame (m : Fin 8) (port : Fin 16) (lanes : Fin 4) (s : State) {r : State} (e : execLaneRestore m port lanes s = .next r) : r.pending = s.pending ∧ r.tck.now = s.tck.now ∧ r.mem = s.mem := by
  unfold execLaneRestore at e
  revert e
  intro e
  refine ⟨?_, ?_, ?_⟩
  · revert e
    repeat' first
      | with_reducible assumption
      | with_reducible rfl
      | (with_reducible refine Eq.trans (State.gateWrite_frP (heff := fun _ => ?_) ..) ?_)
      | (with_reducible refine Eq.trans (State.laneRestore_frame ..).1 ?_)
      | (with_reducible refine ocP_next ?_)
      | with_reducible exact ocP_fault
      | dsimp only
      | split
  · revert e
    repeat' first
      | with_reducible assumption
      | with_reducible rfl
      | (with_reducible refine Eq.trans (State.gateWrite_frN (heff := fun _ => ?_) ..) ?_)
      | (with_reducible refine Eq.trans (State.laneRestore_frame ..).2.1 ?_)
      | (with_reducible refine ocN_next ?_)
      | with_reducible exact ocN_fault
      | dsimp only
      | split
  · revert e
    repeat' first
      | with_reducible assumption
      | with_reducible rfl
      | (with_reducible refine Eq.trans (State.gateWrite_frM (heff := fun _ => ?_) ..) ?_)
      | (with_reducible refine Eq.trans (State.laneRestore_frame ..).2.2 ?_)
      | (with_reducible refine ocM_next ?_)
      | with_reducible exact ocM_fault
      | dsimp only
      | split

theorem execRetrain_frame (m : Fin 8) (port : Fin 16) (s : State) {r : State} (e : execRetrain m port s = .next r) : r.pending = s.pending ∧ r.tck.now = s.tck.now ∧ r.mem = s.mem := by
  unfold execRetrain at e
  revert e
  intro e
  refine ⟨?_, ?_, ?_⟩
  · revert e
    repeat' first
      | with_reducible assumption
      | with_reducible rfl
      | (with_reducible refine Eq.trans (State.gateWrite_frP (heff := fun _ => ?_) ..) ?_)
      | (with_reducible refine Eq.trans (State.retrain_frame ..).1 ?_)
      | (with_reducible refine ocP_next ?_)
      | with_reducible exact ocP_fault
      | dsimp only
      | split
  · revert e
    repeat' first
      | with_reducible assumption
      | with_reducible rfl
      | (with_reducible refine Eq.trans (State.gateWrite_frN (heff := fun _ => ?_) ..) ?_)
      | (with_reducible refine Eq.trans (State.retrain_frame ..).2.1 ?_)
      | (with_reducible refine ocN_next ?_)
      | with_reducible exact ocN_fault
      | dsimp only
      | split
  · revert e
    repeat' first
      | with_reducible assumption
      | with_reducible rfl
      | (with_reducible refine Eq.trans (State.gateWrite_frM (heff := fun _ => ?_) ..) ?_)
      | (with_reducible refine Eq.trans (State.retrain_frame ..).2.2 ?_)
      | (with_reducible refine ocM_next ?_)
      | with_reducible exact ocM_fault
      | dsimp only
      | split

theorem execEcho_frame (m : Fin 8) (port : Fin 16) (s : State) {r : State} (e : execEcho m port s = .next r) : r.pending = s.pending ∧ r.tck.now = s.tck.now ∧ r.mem = s.mem := by
  unfold execEcho at e
  revert e
  intro e
  refine ⟨?_, ?_, ?_⟩
  · revert e
    repeat' first
      | with_reducible assumption
      | with_reducible rfl
      | (with_reducible refine Eq.trans (State.gateWrite_frP (heff := fun _ => ?_) ..) ?_)
      | (with_reducible refine Eq.trans (State.echoStart_frame ..).1 ?_)
      | (with_reducible refine ocP_next ?_)
      | with_reducible exact ocP_fault
      | dsimp only
      | split
  · revert e
    repeat' first
      | with_reducible assumption
      | with_reducible rfl
      | (with_reducible refine Eq.trans (State.gateWrite_frN (heff := fun _ => ?_) ..) ?_)
      | (with_reducible refine Eq.trans (State.echoStart_frame ..).2.1 ?_)
      | (with_reducible refine ocN_next ?_)
      | with_reducible exact ocN_fault
      | dsimp only
      | split
  · revert e
    repeat' first
      | with_reducible assumption
      | with_reducible rfl
      | (with_reducible refine Eq.trans (State.gateWrite_frM (heff := fun _ => ?_) ..) ?_)
      | (with_reducible refine Eq.trans (State.echoStart_frame ..).2.2 ?_)
      | (with_reducible refine ocM_next ?_)
      | with_reducible exact ocM_fault
      | dsimp only
      | split

theorem execLaneEnWrite_frame (m : Fin 8) (port : Fin 16) (en : Fin 4) (s : State) {r : State} (e : execLaneEnWrite m port en s = .next r) : r.pending = s.pending ∧ r.tck.now = s.tck.now ∧ r.mem = s.mem := by
  unfold execLaneEnWrite at e
  revert e
  intro e
  refine ⟨?_, ?_, ?_⟩
  · revert e
    repeat' first
      | with_reducible assumption
      | with_reducible rfl
      | (with_reducible refine Eq.trans (State.gateWrite_frP (heff := fun _ => ?_) ..) ?_)
      | (with_reducible refine Eq.trans (State.storeReg_frame ..).1 ?_)
      | (with_reducible refine Eq.trans (State.laneEnTakes_frame ..).1 ?_)
      | (with_reducible refine ocP_next ?_)
      | with_reducible exact ocP_fault
      | dsimp only
      | split
  · revert e
    repeat' first
      | with_reducible assumption
      | with_reducible rfl
      | (with_reducible refine Eq.trans (State.gateWrite_frN (heff := fun _ => ?_) ..) ?_)
      | (with_reducible refine Eq.trans (State.storeReg_frame ..).2.1 ?_)
      | (with_reducible refine Eq.trans (State.laneEnTakes_frame ..).2.1 ?_)
      | (with_reducible refine ocN_next ?_)
      | with_reducible exact ocN_fault
      | dsimp only
      | split
  · revert e
    repeat' first
      | with_reducible assumption
      | with_reducible rfl
      | (with_reducible refine Eq.trans (State.gateWrite_frM (heff := fun _ => ?_) ..) ?_)
      | (with_reducible refine Eq.trans (State.storeReg_frame ..).2.2 ?_)
      | (with_reducible refine Eq.trans (State.laneEnTakes_frame ..).2.2 ?_)
      | (with_reducible refine ocM_next ?_)
      | with_reducible exact ocM_fault
      | dsimp only
      | split

end Sys2Proof.Machine
end

