-- ==== Sys2Proof/Laws/FrameCarousel.lean ====
section
/-! SUPPORT. What every operation of Machine/Carousel.lean leaves alone: the queue of waiting commands, the tick counter (unless it
writes it), and memory or its canonical form. -/

namespace Sys2Proof.Machine

set_option linter.all false
set_option Elab.async false
set_option maxRecDepth 4000

theorem State.ctxWordWrite_frame (s : State) (m i : Nat) (high : Bool) (v : Word)  : (State.ctxWordWrite s m i high v).pending = s.pending ∧ (State.ctxWordWrite s m i high v).tck.now = s.tck.now ∧ (Memory.wf s.mem = true → Memory.wf (State.ctxWordWrite s m i high v).mem = true) := by
  unfold State.ctxWordWrite
  refine (and_assoc.1 ⟨?_, fun h => ?_⟩)
  · repeat' first
      | (simp only [implies_true, and_self, and_true, true_and, apply_ite State.pending, apply_ite State.tck, apply_ite TckSt.now, State.storeN_frame]; done)
      | (simp (maxDischargeDepth := 8) only [foldl_PN, implies_true, and_self, and_true, true_and, apply_ite State.pending, apply_ite State.tck, apply_ite TckSt.now, State.storeN_frame]; done)
      | (with_reducible refine foldl_PN _ _ _ (fun s a => ?_))
      | split
      | (simp only [implies_true, and_self, and_true, true_and, apply_ite State.pending, apply_ite State.tck, apply_ite TckSt.now, State.storeN_frame])
  · repeat' first
      | with_reducible assumption
      | (with_reducible refine wf_ite ?_ ?_)
      | (with_reducible refine (State.storeN_frame ..).2.2 ?_)
      | (with_reducible refine foldl_wf _ _ _ (fun s a h => ?_) ?_)
      | dsimp only
      | split

theorem State.crsStartCheck_frame (s : State)  : (State.crsStartCheck s).pending = s.pending ∧ (State.crsStartCheck s).tck.now = s.tck.now ∧ (State.crsStartCheck s).mem = s.mem := by
  unfold State.crsStartCheck
  repeat' first
    | (simp only [implies_true, and_self, and_true, true_and, apply_ite State.pending, apply_ite State.mem, apply_ite State.tck, apply_ite TckSt.now, State.setBit_frame]; done)
    | (simp (maxDischargeDepth := 8) only [foldl_PMN, implies_true, and_self, and_true, true_and, apply_ite State.pending, apply_ite State.mem, apply_ite State.tck, apply_ite TckSt.now, State.setBit_frame]; done)
    | (with_reducible refine foldl_PMN _ _ _ (fun s a => ?_))
    | split
    | (simp only [implies_true, and_self, and_true, true_and, apply_ite State.pending, apply_ite State.mem, apply_ite State.tck, apply_ite TckSt.now, State.setBit_frame])

theorem State.crsCheckDone_frame (s : State)  : (State.crsCheckDone s).pending = s.pending ∧ (State.crsCheckDone s).tck.now = s.tck.now ∧ (State.crsCheckDone s).mem = s.mem := by
  unfold State.crsCheckDone
  repeat' first
    | (simp only [implies_true, and_self, and_true, true_and, apply_ite State.pending, apply_ite State.mem, apply_ite State.tck, apply_ite TckSt.now, State.setBit_frame, State.setRegN_frame, State.raise_frame]; done)
    | (simp (maxDischargeDepth := 8) only [foldl_PMN, implies_true, and_self, and_true, true_and, apply_ite State.pending, apply_ite State.mem, apply_ite State.tck, apply_ite TckSt.now, State.setBit_frame, State.setRegN_frame, State.raise_frame]; done)
    | (with_reducible refine foldl_PMN _ _ _ (fun s a => ?_))
    | split
    | (simp only [implies_true, and_self, and_true, true_and, apply_ite State.pending, apply_ite State.mem, apply_ite State.tck, apply_ite TckSt.now, State.setBit_frame, State.setRegN_frame, State.raise_frame])

theorem State.setShd_frame (s : State) (f : CrsBank → CrsBank)  : (State.setShd s f).pending = s.pending ∧ (State.setShd s f).tck.now = s.tck.now ∧ (State.setShd s f).mem = s.mem := by
  unfold State.setShd
  repeat' first
    | (simp only [implies_true, and_self, and_true, true_and, apply_ite State.pending, apply_ite State.mem, apply_ite State.tck, apply_ite TckSt.now, State.setBit_frame]; done)
    | (simp (maxDischargeDepth := 8) only [foldl_PMN, implies_true, and_self, and_true, true_and, apply_ite State.pending, apply_ite State.mem, apply_ite State.tck, apply_ite TckSt.now, State.setBit_frame]; done)
    | (with_reducible refine foldl_PMN _ _ _ (fun s a => ?_))
    | split
    | (simp only [implies_true, and_self, and_true, true_and, apply_ite State.pending, apply_ite State.mem, apply_ite State.tck, apply_ite TckSt.now, State.setBit_frame])

theorem State.crsCountWrite_frame (s : State) (m : Nat) (v : Word)  : (State.crsCountWrite s m v).pending = s.pending ∧ (State.crsCountWrite s m v).tck.now = s.tck.now ∧ (State.crsCountWrite s m v).mem = s.mem := by
  unfold State.crsCountWrite
  repeat' first
    | (simp only [implies_true, and_self, and_true, true_and, apply_ite State.pending, apply_ite State.mem, apply_ite State.tck, apply_ite TckSt.now, State.refuseWrite_frame, State.storeReg_frame, State.setShd_frame, State.count_frame]; done)
    | (simp (maxDischargeDepth := 8) only [foldl_PMN, implies_true, and_self, and_true, true_and, apply_ite State.pending, apply_ite State.mem, apply_ite State.tck, apply_ite TckSt.now, State.refuseWrite_frame, State.storeReg_frame, State.setShd_frame, State.count_frame]; done)
    | (with_reducible refine foldl_PMN _ _ _ (fun s a => ?_))
    | split
    | (simp only [implies_true, and_self, and_true, true_and, apply_ite State.pending, apply_ite State.mem, apply_ite State.tck, apply_ite TckSt.now, State.refuseWrite_frame, State.storeReg_frame, State.setShd_frame, State.count_frame])

theorem State.crsDataWrite_frame (s : State) (m : Nat) (v : Word)  : (State.crsDataWrite s m v).pending = s.pending ∧ (State.crsDataWrite s m v).tck.now = s.tck.now ∧ (State.crsDataWrite s m v).mem = s.mem := by
  unfold State.crsDataWrite
  repeat' first
    | (simp only [implies_true, and_self, and_true, true_and, apply_ite State.pending, apply_ite State.mem, apply_ite State.tck, apply_ite TckSt.now, State.refuseWrite_frame, State.setShd_frame, State.setRegN_frame]; done)
    | (simp (maxDischargeDepth := 8) only [foldl_PMN, implies_true, and_self, and_true, true_and, apply_ite State.pending, apply_ite State.mem, apply_ite State.tck, apply_ite TckSt.now, State.refuseWrite_frame, State.setShd_frame, State.setRegN_frame]; done)
    | (with_reducible refine foldl_PMN _ _ _ (fun s a => ?_))
    | split
    | (simp only [implies_true, and_self, and_true, true_and, apply_ite State.pending, apply_ite State.mem, apply_ite State.tck, apply_ite TckSt.now, State.refuseWrite_frame, State.setShd_frame, State.setRegN_frame])

theorem State.crsActRead_frame (s : State)  : (State.crsActRead s).1.pending = s.pending ∧ (State.crsActRead s).1.tck.now = s.tck.now ∧ (State.crsActRead s).1.mem = s.mem := by
  unfold State.crsActRead
  repeat' first
    | (simp only [implies_true, and_self, and_true, true_and, apply_ite State.pending, apply_ite State.mem, apply_ite State.tck, apply_ite TckSt.now, State.setRegN_frame]; done)
    | (simp (maxDischargeDepth := 8) only [foldl_PMN, implies_true, and_self, and_true, true_and, apply_ite State.pending, apply_ite State.mem, apply_ite State.tck, apply_ite TckSt.now, State.setRegN_frame]; done)
    | (with_reducible refine foldl_PMN _ _ _ (fun s a => ?_))
    | split
    | (simp only [implies_true, and_self, and_true, true_and, apply_ite State.pending, apply_ite State.mem, apply_ite State.tck, apply_ite TckSt.now, State.setRegN_frame])

theorem State.crsAccept_frame (s : State) (k : Tick)  : (State.crsAccept s k).pending = s.pending ∧ (State.crsAccept s k).tck.now = s.tck.now ∧ (State.crsAccept s k).mem = s.mem := by
  unfold State.crsAccept
  repeat' first
    | (simp only [implies_true, and_self, and_true, true_and, apply_ite State.pending, apply_ite State.mem, apply_ite State.tck, apply_ite TckSt.now, State.addCommit_frame, State.setReg64_frame, State.setFld_frame, State.tckWatch_frame]; done)
    | (simp (maxDischargeDepth := 8) only [foldl_PMN, implies_true, and_self, and_true, true_and, apply_ite State.pending, apply_ite State.mem, apply_ite State.tck, apply_ite TckSt.now, State.addCommit_frame, State.setReg64_frame, State.setFld_frame, State.tckWatch_frame]; done)
    | (with_reducible refine foldl_PMN _ _ _ (fun s a => ?_))
    | split
    | (simp only [implies_true, and_self, and_true, true_and, apply_ite State.pending, apply_ite State.mem, apply_ite State.tck, apply_ite TckSt.now, State.addCommit_frame, State.setReg64_frame, State.setFld_frame, State.tckWatch_frame])

theorem State.crsRefuse_frame (s : State) (code : Nat)  : (State.crsRefuse s code).pending = s.pending ∧ (State.crsRefuse s code).tck.now = s.tck.now ∧ (State.crsRefuse s code).mem = s.mem := by
  unfold State.crsRefuse
  repeat' first
    | (simp only [implies_true, and_self, and_true, true_and, apply_ite State.pending, apply_ite State.mem, apply_ite State.tck, apply_ite TckSt.now, State.setFld_frame, State.raise_frame]; done)
    | (simp (maxDischargeDepth := 8) only [foldl_PMN, implies_true, and_self, and_true, true_and, apply_ite State.pending, apply_ite State.mem, apply_ite State.tck, apply_ite TckSt.now, State.setFld_frame, State.raise_frame]; done)
    | (with_reducible refine foldl_PMN _ _ _ (fun s a => ?_))
    | split
    | (simp only [implies_true, and_self, and_true, true_and, apply_ite State.pending, apply_ite State.mem, apply_ite State.tck, apply_ite TckSt.now, State.setFld_frame, State.raise_frame])

theorem State.crsCancel_frame (s : State)  : (State.crsCancel s).pending = s.pending ∧ (State.crsCancel s).tck.now = s.tck.now ∧ (State.crsCancel s).mem = s.mem := by
  unfold State.crsCancel
  repeat' first
    | (simp only [implies_true, and_self, and_true, true_and, apply_ite State.pending, apply_ite State.mem, apply_ite State.tck, apply_ite TckSt.now, State.dropCommit_frame, State.crsRefuse_frame]; done)
    | (simp (maxDischargeDepth := 8) only [foldl_PMN, implies_true, and_self, and_true, true_and, apply_ite State.pending, apply_ite State.mem, apply_ite State.tck, apply_ite TckSt.now, State.dropCommit_frame, State.crsRefuse_frame]; done)
    | (with_reducible refine foldl_PMN _ _ _ (fun s a => ?_))
    | split
    | (simp only [implies_true, and_self, and_true, true_and, apply_ite State.pending, apply_ite State.mem, apply_ite State.tck, apply_ite TckSt.now, State.dropCommit_frame, State.crsRefuse_frame])

theorem State.cancelApplies_frame (s : State) (b : Tick)  : (State.cancelApplies s b).pending = s.pending ∧ (State.cancelApplies s b).tck.now = s.tck.now ∧ (State.cancelApplies s b).mem = s.mem := by
  unfold State.cancelApplies
  repeat' first
    | (simp only [implies_true, and_self, and_true, true_and, apply_ite State.pending, apply_ite State.mem, apply_ite State.tck, apply_ite TckSt.now, State.raiseIf_frame]; done)
    | (simp (maxDischargeDepth := 8) only [foldl_PMN, implies_true, and_self, and_true, true_and, apply_ite State.pending, apply_ite State.mem, apply_ite State.tck, apply_ite TckSt.now, State.raiseIf_frame]; done)
    | (with_reducible refine foldl_PMN _ _ _ (fun s a => ?_))
    | split
    | (simp only [implies_true, and_self, and_true, true_and, apply_ite State.pending, apply_ite State.mem, apply_ite State.tck, apply_ite TckSt.now, State.raiseIf_frame])

theorem State.crsSwapBanks_frame (s : State) (b : Tick)  : (State.crsSwapBanks s b).pending = s.pending ∧ (State.crsSwapBanks s b).tck.now = s.tck.now ∧ (State.crsSwapBanks s b).mem = s.mem := by
  unfold State.crsSwapBanks
  repeat' first
    | (simp only [implies_true, and_self, and_true, true_and, apply_ite State.pending, apply_ite State.mem, apply_ite State.tck, apply_ite TckSt.now, State.setRegN_frame, State.count_frame, State.setBit_frame]; done)
    | (simp (maxDischargeDepth := 8) only [foldl_PMN, implies_true, and_self, and_true, true_and, apply_ite State.pending, apply_ite State.mem, apply_ite State.tck, apply_ite TckSt.now, State.setRegN_frame, State.count_frame, State.setBit_frame]; done)
    | (with_reducible refine foldl_PMN _ _ _ (fun s a => ?_))
    | split
    | (simp only [implies_true, and_self, and_true, true_and, apply_ite State.pending, apply_ite State.mem, apply_ite State.tck, apply_ite TckSt.now, State.setRegN_frame, State.count_frame, State.setBit_frame])

theorem State.crsCommitAt_frame (s : State) (t : Tick)  : (State.crsCommitAt s t).pending = s.pending ∧ (State.crsCommitAt s t).tck.now = s.tck.now ∧ (State.crsCommitAt s t).mem = s.mem := by
  unfold State.crsCommitAt
  repeat' first
    | (simp only [implies_true, and_self, and_true, true_and, apply_ite State.pending, apply_ite State.mem, apply_ite State.tck, apply_ite TckSt.now, State.dropCommit_frame, State.setForce_frame, State.crsSwapBanks_frame, State.setBit_frame, State.cancelApplies_frame, State.setFld_frame, State.raise_frame]; done)
    | (simp (maxDischargeDepth := 8) only [foldl_PMN, implies_true, and_self, and_true, true_and, apply_ite State.pending, apply_ite State.mem, apply_ite State.tck, apply_ite TckSt.now, State.dropCommit_frame, State.setForce_frame, State.crsSwapBanks_frame, State.setBit_frame, State.cancelApplies_frame, State.setFld_frame, State.raise_frame]; done)
    | (with_reducible refine foldl_PMN _ _ _ (fun s a => ?_))
    | split
    | (simp only [implies_true, and_self, and_true, true_and, apply_ite State.pending, apply_ite State.mem, apply_ite State.tck, apply_ite TckSt.now, State.dropCommit_frame, State.setForce_frame, State.crsSwapBanks_frame, State.setBit_frame, State.cancelApplies_frame, State.setFld_frame, State.raise_frame])

theorem State.crsHalt_frame (s : State)  : (State.crsHalt s).pending = s.pending ∧ (State.crsHalt s).tck.now = s.tck.now ∧ (State.crsHalt s).mem = s.mem := by
  unfold State.crsHalt
  repeat' first
    | (simp only [implies_true, and_self, and_true, true_and, apply_ite State.pending, apply_ite State.mem, apply_ite State.tck, apply_ite TckSt.now, State.crsCancel_frame, State.setBit_frame, State.raise_frame]; done)
    | (simp (maxDischargeDepth := 8) only [foldl_PMN, implies_true, and_self, and_true, true_and, apply_ite State.pending, apply_ite State.mem, apply_ite State.tck, apply_ite TckSt.now, State.crsCancel_frame, State.setBit_frame, State.raise_frame]; done)
    | (with_reducible refine foldl_PMN _ _ _ (fun s a => ?_))
    | split
    | (simp only [implies_true, and_self, and_true, true_and, apply_ite State.pending, apply_ite State.mem, apply_ite State.tck, apply_ite TckSt.now, State.crsCancel_frame, State.setBit_frame, State.raise_frame])

theorem State.slotChange_frame (s : State)  : (State.slotChange s).pending = s.pending ∧ (State.slotChange s).tck.now = s.tck.now ∧ (State.slotChange s).mem = s.mem := by
  unfold State.slotChange
  repeat' first
    | (simp only [implies_true, and_self, and_true, true_and, apply_ite State.pending, apply_ite State.mem, apply_ite State.tck, apply_ite TckSt.now, State.setFld_frame, State.setReg64_frame, State.raise_frame, State.raiseIf_frame]; done)
    | (simp (maxDischargeDepth := 8) only [foldl_PMN, implies_true, and_self, and_true, true_and, apply_ite State.pending, apply_ite State.mem, apply_ite State.tck, apply_ite TckSt.now, State.setFld_frame, State.setReg64_frame, State.raise_frame, State.raiseIf_frame]; done)
    | (with_reducible refine foldl_PMN _ _ _ (fun s a => ?_))
    | split
    | (simp only [implies_true, and_self, and_true, true_and, apply_ite State.pending, apply_ite State.mem, apply_ite State.tck, apply_ite TckSt.now, State.setFld_frame, State.setReg64_frame, State.raise_frame, State.raiseIf_frame])

theorem execCarouselCheck_frame (m : Fin 8) (s : State) {r : State} (e : execCarouselCheck m s = .next r) : r.pending = s.pending ∧ r.tck.now = s.tck.now ∧ r.mem = s.mem := by
  unfold execCarouselCheck at e
  revert e
  intro e
  refine ⟨?_, ?_, ?_⟩
  · revert e
    repeat' first
      | with_reducible assumption
      | with_reducible rfl
      | (with_reducible refine Eq.trans (State.gateWrite_frP (heff := fun _ => ?_) ..) ?_)
      | (with_reducible refine Eq.trans (State.crsStartCheck_frame ..).1 ?_)
      | (with_reducible refine ocP_next ?_)
      | with_reducible exact ocP_fault
      | dsimp only
      | split
  · revert e
    repeat' first
      | with_reducible assumption
      | with_reducible rfl
      | (with_reducible refine Eq.trans (State.gateWrite_frN (heff := fun _ => ?_) ..) ?_)
      | (with_reducible refine Eq.trans (State.crsStartCheck_frame ..).2.1 ?_)
      | (with_reducible refine ocN_next ?_)
      | with_reducible exact ocN_fault
      | dsimp only
      | split
  · revert e
    repeat' first
      | with_reducible assumption
      | with_reducible rfl
      | (with_reducible refine Eq.trans (State.gateWrite_frM (heff := fun _ => ?_) ..) ?_)
      | (with_reducible refine Eq.trans (State.crsStartCheck_frame ..).2.2 ?_)
      | (with_reducible refine ocM_next ?_)
      | with_reducible exact ocM_fault
      | dsimp only
      | split

theorem execCarouselCheckDone_frame (s : State) {r : State} (e : execCarouselCheckDone s = .next r) : r.pending = s.pending ∧ r.tck.now = s.tck.now ∧ r.mem = s.mem := by
  unfold execCarouselCheckDone at e
  revert e
  intro e
  refine ⟨?_, ?_, ?_⟩
  · revert e
    repeat' first
      | with_reducible assumption
      | with_reducible rfl
      | (with_reducible refine Eq.trans (State.crsCheckDone_frame ..).1 ?_)
      | (with_reducible refine ocP_next ?_)
      | with_reducible exact ocP_fault
      | dsimp only
      | split
  · revert e
    repeat' first
      | with_reducible assumption
      | with_reducible rfl
      | (with_reducible refine Eq.trans (State.crsCheckDone_frame ..).2.1 ?_)
      | (with_reducible refine ocN_next ?_)
      | with_reducible exact ocN_fault
      | dsimp only
      | split
  · revert e
    repeat' first
      | with_reducible assumption
      | with_reducible rfl
      | (with_reducible refine Eq.trans (State.crsCheckDone_frame ..).2.2 ?_)
      | (with_reducible refine ocM_next ?_)
      | with_reducible exact ocM_fault
      | dsimp only
      | split

theorem execCarouselSlotChange_frame (s : State) {r : State} (e : execCarouselSlotChange s = .next r) : r.pending = s.pending ∧ r.tck.now = s.tck.now ∧ r.mem = s.mem := by
  unfold execCarouselSlotChange at e
  revert e
  intro e
  refine ⟨?_, ?_, ?_⟩
  · revert e
    repeat' first
      | with_reducible assumption
      | with_reducible rfl
      | (with_reducible refine Eq.trans (State.slotChange_frame ..).1 ?_)
      | (with_reducible refine ocP_next ?_)
      | with_reducible exact ocP_fault
      | dsimp only
      | split
  · revert e
    repeat' first
      | with_reducible assumption
      | with_reducible rfl
      | (with_reducible refine Eq.trans (State.slotChange_frame ..).2.1 ?_)
      | (with_reducible refine ocN_next ?_)
      | with_reducible exact ocN_fault
      | dsimp only
      | split
  · revert e
    repeat' first
      | with_reducible assumption
      | with_reducible rfl
      | (with_reducible refine Eq.trans (State.slotChange_frame ..).2.2 ?_)
      | (with_reducible refine ocM_next ?_)
      | with_reducible exact ocM_fault
      | dsimp only
      | split

theorem execCrsShdDataWrite_frame (m : Fin 8) (v : Word) (s : State) {r : State} (e : execCrsShdDataWrite m v s = .next r) : r.pending = s.pending ∧ r.tck.now = s.tck.now ∧ r.mem = s.mem := by
  unfold execCrsShdDataWrite at e
  revert e
  intro e
  refine ⟨?_, ?_, ?_⟩
  · revert e
    repeat' first
      | with_reducible assumption
      | with_reducible rfl
      | (with_reducible refine Eq.trans (State.gateWrite_frP (heff := fun _ => ?_) ..) ?_)
      | (with_reducible refine Eq.trans (State.crsDataWrite_frame ..).1 ?_)
      | (with_reducible refine ocP_next ?_)
      | with_reducible exact ocP_fault
      | dsimp only
      | split
  · revert e
    repeat' first
      | with_reducible assumption
      | with_reducible rfl
      | (with_reducible refine Eq.trans (State.gateWrite_frN (heff := fun _ => ?_) ..) ?_)
      | (with_reducible refine Eq.trans (State.crsDataWrite_frame ..).2.1 ?_)
      | (with_reducible refine ocN_next ?_)
      | with_reducible exact ocN_fault
      | dsimp only
      | split
  · revert e
    repeat' first
      | with_reducible assumption
      | with_reducible rfl
      | (with_reducible refine Eq.trans (State.gateWrite_frM (heff := fun _ => ?_) ..) ?_)
      | (with_reducible refine Eq.trans (State.crsDataWrite_frame ..).2.2 ?_)
      | (with_reducible refine ocM_next ?_)
      | with_reducible exact ocM_fault
      | dsimp only
      | split

end Sys2Proof.Machine
end

