-- ==== Sys2Proof/Laws/FrameEvents.lean ====
section
/-! SUPPORT. What every operation of Machine/Events.lean leaves alone: the queue of waiting commands, the tick counter (unless it
writes it), and memory or its canonical form. -/

namespace Sys2Proof.Machine

set_option linter.all false
set_option Elab.async false
set_option maxRecDepth 4000

theorem State.setPin_frame (s : State) (k : Nat) (f : PinSt → PinSt)  : (State.setPin s k f).pending = s.pending ∧ (State.setPin s k f).tck.now = s.tck.now ∧ (State.setPin s k f).mem = s.mem := by
  unfold State.setPin
  repeat' first
    | (simp only [implies_true, and_self, and_true, true_and, apply_ite State.pending, apply_ite State.mem, apply_ite State.tck, apply_ite TckSt.now]; done)
    | (simp (maxDischargeDepth := 8) only [foldl_PMN, implies_true, and_self, and_true, true_and, apply_ite State.pending, apply_ite State.mem, apply_ite State.tck, apply_ite TckSt.now]; done)
    | (with_reducible refine foldl_PMN _ _ _ (fun s a => ?_))
    | split
    | (simp only [implies_true, and_self, and_true, true_and, apply_ite State.pending, apply_ite State.mem, apply_ite State.tck, apply_ite TckSt.now])

theorem State.setLol_frame (s : State) (p : Nat) (f : LolSt → LolSt)  : (State.setLol s p f).pending = s.pending ∧ (State.setLol s p f).tck.now = s.tck.now ∧ (State.setLol s p f).mem = s.mem := by
  unfold State.setLol
  repeat' first
    | (simp only [implies_true, and_self, and_true, true_and, apply_ite State.pending, apply_ite State.mem, apply_ite State.tck, apply_ite TckSt.now]; done)
    | (simp (maxDischargeDepth := 8) only [foldl_PMN, implies_true, and_self, and_true, true_and, apply_ite State.pending, apply_ite State.mem, apply_ite State.tck, apply_ite TckSt.now]; done)
    | (with_reducible refine foldl_PMN _ _ _ (fun s a => ?_))
    | split
    | (simp only [implies_true, and_self, and_true, true_and, apply_ite State.pending, apply_ite State.mem, apply_ite State.tck, apply_ite TckSt.now])

theorem State.pinStart_frame (s : State) (k : Nat)  : (State.pinStart s k).pending = s.pending ∧ (State.pinStart s k).tck.now = s.tck.now ∧ (State.pinStart s k).mem = s.mem := by
  unfold State.pinStart
  repeat' first
    | (simp only [implies_true, and_self, and_true, true_and, apply_ite State.pending, apply_ite State.mem, apply_ite State.tck, apply_ite TckSt.now, State.setPin_frame]; done)
    | (simp (maxDischargeDepth := 8) only [foldl_PMN, implies_true, and_self, and_true, true_and, apply_ite State.pending, apply_ite State.mem, apply_ite State.tck, apply_ite TckSt.now, State.setPin_frame]; done)
    | (with_reducible refine foldl_PMN _ _ _ (fun s a => ?_))
    | split
    | (simp only [implies_true, and_self, and_true, true_and, apply_ite State.pending, apply_ite State.mem, apply_ite State.tck, apply_ite TckSt.now, State.setPin_frame])

theorem State.pinEdge_frame (s : State) (k : Nat) (level : Bool)  : (State.pinEdge s k level).pending = s.pending ∧ (State.pinEdge s k level).tck.now = s.tck.now ∧ (State.pinEdge s k level).mem = s.mem := by
  unfold State.pinEdge
  repeat' first
    | (simp only [implies_true, and_self, and_true, true_and, apply_ite State.pending, apply_ite State.mem, apply_ite State.tck, apply_ite TckSt.now, State.setPin_frame, State.pinStart_frame]; done)
    | (simp (maxDischargeDepth := 8) only [foldl_PMN, implies_true, and_self, and_true, true_and, apply_ite State.pending, apply_ite State.mem, apply_ite State.tck, apply_ite TckSt.now, State.setPin_frame, State.pinStart_frame]; done)
    | (with_reducible refine foldl_PMN _ _ _ (fun s a => ?_))
    | split
    | (simp only [implies_true, and_self, and_true, true_and, apply_ite State.pending, apply_ite State.mem, apply_ite State.tck, apply_ite TckSt.now, State.setPin_frame, State.pinStart_frame])

theorem State.pinRecognise_frame (s : State) (k : Nat)  : (State.pinRecognise s k).pending = s.pending ∧ (State.pinRecognise s k).tck.now = s.tck.now ∧ (State.pinRecognise s k).mem = s.mem := by
  unfold State.pinRecognise
  repeat' first
    | (simp only [implies_true, and_self, and_true, true_and, apply_ite State.pending, apply_ite State.mem, apply_ite State.tck, apply_ite TckSt.now, State.setPin_frame, State.setBit_frame, State.raise_frame, State.count_frame]; done)
    | (simp (maxDischargeDepth := 8) only [foldl_PMN, implies_true, and_self, and_true, true_and, apply_ite State.pending, apply_ite State.mem, apply_ite State.tck, apply_ite TckSt.now, State.setPin_frame, State.setBit_frame, State.raise_frame, State.count_frame]; done)
    | (with_reducible refine foldl_PMN _ _ _ (fun s a => ?_))
    | split
    | (simp only [implies_true, and_self, and_true, true_and, apply_ite State.pending, apply_ite State.mem, apply_ite State.tck, apply_ite TckSt.now, State.setPin_frame, State.setBit_frame, State.raise_frame, State.count_frame])

theorem State.pinEnTakes_frame (s : State) (old : Nat)  : (State.pinEnTakes s old).pending = s.pending ∧ (State.pinEnTakes s old).tck.now = s.tck.now ∧ (State.pinEnTakes s old).mem = s.mem := by
  unfold State.pinEnTakes
  repeat' first
    | (simp only [implies_true, and_self, and_true, true_and, apply_ite State.pending, apply_ite State.mem, apply_ite State.tck, apply_ite TckSt.now, State.setPin_frame, State.pinStart_frame]; done)
    | (simp (maxDischargeDepth := 8) only [foldl_PMN, implies_true, and_self, and_true, true_and, apply_ite State.pending, apply_ite State.mem, apply_ite State.tck, apply_ite TckSt.now, State.setPin_frame, State.pinStart_frame]; done)
    | (with_reducible refine foldl_PMN _ _ _ (fun s a => ?_))
    | split
    | (simp only [implies_true, and_self, and_true, true_and, apply_ite State.pending, apply_ite State.mem, apply_ite State.tck, apply_ite TckSt.now, State.setPin_frame, State.pinStart_frame])

theorem State.pinEnWrite_frame (s : State) (v : Word)  : (State.pinEnWrite s v).pending = s.pending ∧ (State.pinEnWrite s v).tck.now = s.tck.now ∧ (State.pinEnWrite s v).mem = s.mem := by
  unfold State.pinEnWrite
  repeat' first
    | (simp only [implies_true, and_self, and_true, true_and, apply_ite State.pending, apply_ite State.mem, apply_ite State.tck, apply_ite TckSt.now, State.storeReg_frame, State.pinEnTakes_frame]; done)
    | (simp (maxDischargeDepth := 8) only [foldl_PMN, implies_true, and_self, and_true, true_and, apply_ite State.pending, apply_ite State.mem, apply_ite State.tck, apply_ite TckSt.now, State.storeReg_frame, State.pinEnTakes_frame]; done)
    | (with_reducible refine foldl_PMN _ _ _ (fun s a => ?_))
    | split
    | (simp only [implies_true, and_self, and_true, true_and, apply_ite State.pending, apply_ite State.mem, apply_ite State.tck, apply_ite TckSt.now, State.storeReg_frame, State.pinEnTakes_frame])

theorem State.pinPolTakes_frame (s : State) (old : Nat)  : (State.pinPolTakes s old).pending = s.pending ∧ (State.pinPolTakes s old).tck.now = s.tck.now ∧ (State.pinPolTakes s old).mem = s.mem := by
  unfold State.pinPolTakes
  repeat' first
    | (simp only [implies_true, and_self, and_true, true_and, apply_ite State.pending, apply_ite State.mem, apply_ite State.tck, apply_ite TckSt.now, State.pinStart_frame]; done)
    | (simp (maxDischargeDepth := 8) only [foldl_PMN, implies_true, and_self, and_true, true_and, apply_ite State.pending, apply_ite State.mem, apply_ite State.tck, apply_ite TckSt.now, State.pinStart_frame]; done)
    | (with_reducible refine foldl_PMN _ _ _ (fun s a => ?_))
    | split
    | (simp only [implies_true, and_self, and_true, true_and, apply_ite State.pending, apply_ite State.mem, apply_ite State.tck, apply_ite TckSt.now, State.pinStart_frame])

theorem State.pinPolWrite_frame (s : State) (v : Word)  : (State.pinPolWrite s v).pending = s.pending ∧ (State.pinPolWrite s v).tck.now = s.tck.now ∧ (State.pinPolWrite s v).mem = s.mem := by
  unfold State.pinPolWrite
  repeat' first
    | (simp only [implies_true, and_self, and_true, true_and, apply_ite State.pending, apply_ite State.mem, apply_ite State.tck, apply_ite TckSt.now, State.storeReg_frame, State.pinPolTakes_frame]; done)
    | (simp (maxDischargeDepth := 8) only [foldl_PMN, implies_true, and_self, and_true, true_and, apply_ite State.pending, apply_ite State.mem, apply_ite State.tck, apply_ite TckSt.now, State.storeReg_frame, State.pinPolTakes_frame]; done)
    | (with_reducible refine foldl_PMN _ _ _ (fun s a => ?_))
    | split
    | (simp only [implies_true, and_self, and_true, true_and, apply_ite State.pending, apply_ite State.mem, apply_ite State.tck, apply_ite TckSt.now, State.storeReg_frame, State.pinPolTakes_frame])

theorem State.lolFrame_frame (s : State) (p slot : Nat)  : (State.lolFrame s p slot).pending = s.pending ∧ (State.lolFrame s p slot).tck.now = s.tck.now ∧ (State.lolFrame s p slot).mem = s.mem := by
  unfold State.lolFrame
  repeat' first
    | (simp only [implies_true, and_self, and_true, true_and, apply_ite State.pending, apply_ite State.mem, apply_ite State.tck, apply_ite TckSt.now, State.setLol_frame, State.setBit_frame, State.raise_frame]; done)
    | (simp (maxDischargeDepth := 8) only [foldl_PMN, implies_true, and_self, and_true, true_and, apply_ite State.pending, apply_ite State.mem, apply_ite State.tck, apply_ite TckSt.now, State.setLol_frame, State.setBit_frame, State.raise_frame]; done)
    | (with_reducible refine foldl_PMN _ _ _ (fun s a => ?_))
    | split
    | (simp only [implies_true, and_self, and_true, true_and, apply_ite State.pending, apply_ite State.mem, apply_ite State.tck, apply_ite TckSt.now, State.setLol_frame, State.setBit_frame, State.raise_frame])

theorem State.lolFrames_frame (s : State)  : (State.lolFrames s).pending = s.pending ∧ (State.lolFrames s).tck.now = s.tck.now ∧ (State.lolFrames s).mem = s.mem := by
  unfold State.lolFrames
  repeat' first
    | (simp only [implies_true, and_self, and_true, true_and, apply_ite State.pending, apply_ite State.mem, apply_ite State.tck, apply_ite TckSt.now, State.lolFrame_frame]; done)
    | (simp (maxDischargeDepth := 8) only [foldl_PMN, implies_true, and_self, and_true, true_and, apply_ite State.pending, apply_ite State.mem, apply_ite State.tck, apply_ite TckSt.now, State.lolFrame_frame]; done)
    | (with_reducible refine foldl_PMN _ _ _ (fun s a => ?_))
    | split
    | (simp only [implies_true, and_self, and_true, true_and, apply_ite State.pending, apply_ite State.mem, apply_ite State.tck, apply_ite TckSt.now, State.lolFrame_frame])

theorem State.clearLols_frame (s : State)  : (State.clearLols s).pending = s.pending ∧ (State.clearLols s).tck.now = s.tck.now ∧ (State.clearLols s).mem = s.mem := by
  unfold State.clearLols
  repeat' first
    | (simp only [implies_true, and_self, and_true, true_and, apply_ite State.pending, apply_ite State.mem, apply_ite State.tck, apply_ite TckSt.now, State.setRegN_frame]; done)
    | (simp (maxDischargeDepth := 8) only [foldl_PMN, implies_true, and_self, and_true, true_and, apply_ite State.pending, apply_ite State.mem, apply_ite State.tck, apply_ite TckSt.now, State.setRegN_frame]; done)
    | (with_reducible refine foldl_PMN _ _ _ (fun s a => ?_))
    | split
    | (simp only [implies_true, and_self, and_true, true_and, apply_ite State.pending, apply_ite State.mem, apply_ite State.tck, apply_ite TckSt.now, State.setRegN_frame])

theorem State.stuckDetect_frame (s : State) (i : Nat)  : (State.stuckDetect s i).pending = s.pending ∧ (State.stuckDetect s i).tck.now = s.tck.now ∧ (State.stuckDetect s i).mem = s.mem := by
  unfold State.stuckDetect
  repeat' first
    | (simp only [implies_true, and_self, and_true, true_and, apply_ite State.pending, apply_ite State.mem, apply_ite State.tck, apply_ite TckSt.now, State.setBit_frame, State.raise_frame]; done)
    | (simp (maxDischargeDepth := 8) only [foldl_PMN, implies_true, and_self, and_true, true_and, apply_ite State.pending, apply_ite State.mem, apply_ite State.tck, apply_ite TckSt.now, State.setBit_frame, State.raise_frame]; done)
    | (with_reducible refine foldl_PMN _ _ _ (fun s a => ?_))
    | split
    | (simp only [implies_true, and_self, and_true, true_and, apply_ite State.pending, apply_ite State.mem, apply_ite State.tck, apply_ite TckSt.now, State.setBit_frame, State.raise_frame])

theorem State.evtClear_frame (s : State) (addr : Nat) (v : Word)  : (State.evtClear s addr v).pending = s.pending ∧ (State.evtClear s addr v).tck.now = s.tck.now ∧ (State.evtClear s addr v).mem = s.mem := by
  unfold State.evtClear
  repeat' first
    | (simp only [implies_true, and_self, and_true, true_and, apply_ite State.pending, apply_ite State.mem, apply_ite State.tck, apply_ite TckSt.now, State.clearBits_frame]; done)
    | (simp (maxDischargeDepth := 8) only [foldl_PMN, implies_true, and_self, and_true, true_and, apply_ite State.pending, apply_ite State.mem, apply_ite State.tck, apply_ite TckSt.now, State.clearBits_frame]; done)
    | (with_reducible refine foldl_PMN _ _ _ (fun s a => ?_))
    | split
    | (simp only [implies_true, and_self, and_true, true_and, apply_ite State.pending, apply_ite State.mem, apply_ite State.tck, apply_ite TckSt.now, State.clearBits_frame])

theorem execTrigInEdge_frame (pin : Fin 8) (level : Bool) (cycle : Nat) (s : State) {r : State} (e : execTrigInEdge pin level cycle s = .next r) : r.pending = s.pending ∧ r.tck.now = s.tck.now ∧ r.mem = s.mem := by
  unfold execTrigInEdge at e
  revert e
  intro e
  refine ⟨?_, ?_, ?_⟩
  · revert e
    repeat' first
      | with_reducible assumption
      | with_reducible rfl
      | (with_reducible refine Eq.trans (State.atCycle_frame ..).1 ?_)
      | (with_reducible refine Eq.trans (State.pinEdge_frame ..).1 ?_)
      | (with_reducible refine ocP_next ?_)
      | with_reducible exact ocP_fault
      | dsimp only
      | split
  · revert e
    repeat' first
      | with_reducible assumption
      | with_reducible rfl
      | (with_reducible refine Eq.trans (State.atCycle_frame ..).2.1 ?_)
      | (with_reducible refine Eq.trans (State.pinEdge_frame ..).2.1 ?_)
      | (with_reducible refine ocN_next ?_)
      | with_reducible exact ocN_fault
      | dsimp only
      | split
  · revert e
    repeat' first
      | with_reducible assumption
      | with_reducible rfl
      | (with_reducible refine Eq.trans (State.atCycle_frame ..).2.2 ?_)
      | (with_reducible refine Eq.trans (State.pinEdge_frame ..).2.2 ?_)
      | (with_reducible refine ocM_next ?_)
      | with_reducible exact ocM_fault
      | dsimp only
      | split

theorem execStuckDetect_frame (input : Fin 1032) (s : State) {r : State} (e : execStuckDetect input s = .next r) : r.pending = s.pending ∧ r.tck.now = s.tck.now ∧ r.mem = s.mem := by
  unfold execStuckDetect at e
  revert e
  intro e
  refine ⟨?_, ?_, ?_⟩
  · revert e
    repeat' first
      | with_reducible assumption
      | with_reducible rfl
      | (with_reducible refine Eq.trans (State.stuckDetect_frame ..).1 ?_)
      | (with_reducible refine ocP_next ?_)
      | with_reducible exact ocP_fault
      | dsimp only
      | split
  · revert e
    repeat' first
      | with_reducible assumption
      | with_reducible rfl
      | (with_reducible refine Eq.trans (State.stuckDetect_frame ..).2.1 ?_)
      | (with_reducible refine ocN_next ?_)
      | with_reducible exact ocN_fault
      | dsimp only
      | split
  · revert e
    repeat' first
      | with_reducible assumption
      | with_reducible rfl
      | (with_reducible refine Eq.trans (State.stuckDetect_frame ..).2.2 ?_)
      | (with_reducible refine ocM_next ?_)
      | with_reducible exact ocM_fault
      | dsimp only
      | split

theorem execEvtPinEnWrite_frame (m : Fin 8) (v : Word) (cycle : Nat) (s : State) {r : State} (e : execEvtPinEnWrite m v cycle s = .next r) : r.pending = s.pending ∧ r.tck.now = s.tck.now ∧ r.mem = s.mem := by
  unfold execEvtPinEnWrite at e
  revert e
  intro e
  refine ⟨?_, ?_, ?_⟩
  · revert e
    repeat' first
      | with_reducible assumption
      | with_reducible rfl
      | (with_reducible refine Eq.trans (State.atCycle_frame ..).1 ?_)
      | (with_reducible refine Eq.trans (State.gateWrite_frP (heff := fun _ => ?_) ..) ?_)
      | (with_reducible refine Eq.trans (State.pinEnWrite_frame ..).1 ?_)
      | (with_reducible refine ocP_next ?_)
      | with_reducible exact ocP_fault
      | dsimp only
      | split
  · revert e
    repeat' first
      | with_reducible assumption
      | with_reducible rfl
      | (with_reducible refine Eq.trans (State.atCycle_frame ..).2.1 ?_)
      | (with_reducible refine Eq.trans (State.gateWrite_frN (heff := fun _ => ?_) ..) ?_)
      | (with_reducible refine Eq.trans (State.pinEnWrite_frame ..).2.1 ?_)
      | (with_reducible refine ocN_next ?_)
      | with_reducible exact ocN_fault
      | dsimp only
      | split
  · revert e
    repeat' first
      | with_reducible assumption
      | with_reducible rfl
      | (with_reducible refine Eq.trans (State.atCycle_frame ..).2.2 ?_)
      | (with_reducible refine Eq.trans (State.gateWrite_frM (heff := fun _ => ?_) ..) ?_)
      | (with_reducible refine Eq.trans (State.pinEnWrite_frame ..).2.2 ?_)
      | (with_reducible refine ocM_next ?_)
      | with_reducible exact ocM_fault
      | dsimp only
      | split

theorem execChatterClear_frame (m : Fin 8) (word : Fin 33) (v : Word) (s : State) {r : State} (e : execChatterClear m word v s = .next r) : r.pending = s.pending ∧ r.tck.now = s.tck.now ∧ r.mem = s.mem := by
  unfold execChatterClear at e
  revert e
  intro e
  refine ⟨?_, ?_, ?_⟩
  · revert e
    repeat' first
      | with_reducible assumption
      | with_reducible rfl
      | (with_reducible refine alP_ite ?_ ?_)
      | (with_reducible refine Eq.trans (State.gateWrite_frP (heff := fun _ => ?_) ..) ?_)
      | (with_reducible refine Eq.trans (State.evtClear_frame ..).1 ?_)
      | (with_reducible refine ocP_next ?_)
      | with_reducible exact ocP_fault
      | (with_reducible refine ocP_ite ?_ ?_)
      | dsimp only
      | split
  · revert e
    repeat' first
      | with_reducible assumption
      | with_reducible rfl
      | (with_reducible refine alN_ite ?_ ?_)
      | (with_reducible refine Eq.trans (State.gateWrite_frN (heff := fun _ => ?_) ..) ?_)
      | (with_reducible refine Eq.trans (State.evtClear_frame ..).2.1 ?_)
      | (with_reducible refine ocN_next ?_)
      | with_reducible exact ocN_fault
      | (with_reducible refine ocN_ite ?_ ?_)
      | dsimp only
      | split
  · revert e
    repeat' first
      | with_reducible assumption
      | with_reducible rfl
      | (with_reducible refine alM_ite ?_ ?_)
      | (with_reducible refine Eq.trans (State.gateWrite_frM (heff := fun _ => ?_) ..) ?_)
      | (with_reducible refine Eq.trans (State.evtClear_frame ..).2.2 ?_)
      | (with_reducible refine ocM_next ?_)
      | with_reducible exact ocM_fault
      | (with_reducible refine ocM_ite ?_ ?_)
      | dsimp only
      | split

end Sys2Proof.Machine
end

