-- ==== Sys2Proof/Laws/FrameMirrorTx.lean ====
section
/-! SUPPORT. What every operation of Machine/MirrorTx.lean leaves alone: the queue of waiting commands, the tick counter (unless it
writes it), and memory or its canonical form. -/

namespace Sys2Proof.Machine

set_option linter.all false
set_option Elab.async false
set_option maxRecDepth 4000

theorem State.mirBlocks_frame (s : State) (l : List Block) (o : Out)  : (State.mirBlocks s l o).pending = s.pending ∧ (State.mirBlocks s l o).tck.now = s.tck.now ∧ (State.mirBlocks s l o).mem = s.mem := by
  unfold State.mirBlocks
  repeat' first
    | (simp only [implies_true, and_self, and_true, true_and, apply_ite State.pending, apply_ite State.mem, apply_ite State.tck, apply_ite TckSt.now, State.emit_frame, State.emitTrain_frame]; done)
    | (simp (maxDischargeDepth := 8) only [foldl_PMN, implies_true, and_self, and_true, true_and, apply_ite State.pending, apply_ite State.mem, apply_ite State.tck, apply_ite TckSt.now, State.emit_frame, State.emitTrain_frame]; done)
    | (with_reducible refine foldl_PMN _ _ _ (fun s a => ?_))
    | split
    | (simp only [implies_true, and_self, and_true, true_and, apply_ite State.pending, apply_ite State.mem, apply_ite State.tck, apply_ite TckSt.now, State.emit_frame, State.emitTrain_frame])

theorem State.emitMirror_frame (s : State) (frame : List Byte)  : (State.emitMirror s frame).pending = s.pending ∧ (State.emitMirror s frame).tck.now = s.tck.now ∧ (State.emitMirror s frame).mem = s.mem := by
  unfold State.emitMirror
  repeat' first
    | (simp only [implies_true, and_self, and_true, true_and, apply_ite State.pending, apply_ite State.mem, apply_ite State.tck, apply_ite TckSt.now, State.mirBlocks_frame]; done)
    | (simp (maxDischargeDepth := 8) only [foldl_PMN, implies_true, and_self, and_true, true_and, apply_ite State.pending, apply_ite State.mem, apply_ite State.tck, apply_ite TckSt.now, State.mirBlocks_frame]; done)
    | (with_reducible refine foldl_PMN _ _ _ (fun s a => ?_))
    | split
    | (simp only [implies_true, and_self, and_true, true_and, apply_ite State.pending, apply_ite State.mem, apply_ite State.tck, apply_ite TckSt.now, State.mirBlocks_frame])

theorem State.sendMirror_frame (s : State) (kind : Nat) (tick : Tick) (seq : Nat) (body : List Byte)  : (State.sendMirror s kind tick seq body).pending = s.pending ∧ (State.sendMirror s kind tick seq body).tck.now = s.tck.now ∧ (State.sendMirror s kind tick seq body).mem = s.mem := by
  unfold State.sendMirror
  repeat' first
    | (simp only [implies_true, and_self, and_true, true_and, apply_ite State.pending, apply_ite State.mem, apply_ite State.tck, apply_ite TckSt.now, State.emitMirror_frame]; done)
    | (simp (maxDischargeDepth := 8) only [foldl_PMN, implies_true, and_self, and_true, true_and, apply_ite State.pending, apply_ite State.mem, apply_ite State.tck, apply_ite TckSt.now, State.emitMirror_frame]; done)
    | (with_reducible refine foldl_PMN _ _ _ (fun s a => ?_))
    | split
    | (simp only [implies_true, and_self, and_true, true_and, apply_ite State.pending, apply_ite State.mem, apply_ite State.tck, apply_ite TckSt.now, State.emitMirror_frame])

theorem State.mirControl_frame (s : State) (b : Block) (o : Out)  : (State.mirControl s b o).pending = s.pending ∧ (State.mirControl s b o).tck.now = s.tck.now ∧ (State.mirControl s b o).mem = s.mem := by
  unfold State.mirControl
  repeat' first
    | (simp only [implies_true, and_self, and_true, true_and, apply_ite State.pending, apply_ite State.mem, apply_ite State.tck, apply_ite TckSt.now, State.mirBlocks_frame]; done)
    | (simp (maxDischargeDepth := 8) only [foldl_PMN, implies_true, and_self, and_true, true_and, apply_ite State.pending, apply_ite State.mem, apply_ite State.tck, apply_ite TckSt.now, State.mirBlocks_frame]; done)
    | (with_reducible refine foldl_PMN _ _ _ (fun s a => ?_))
    | split
    | (simp only [implies_true, and_self, and_true, true_and, apply_ite State.pending, apply_ite State.mem, apply_ite State.tck, apply_ite TckSt.now, State.mirBlocks_frame])

theorem State.mirEchoReq_frame (s : State) (q : Nat)  : (State.mirEchoReq s q).pending = s.pending ∧ (State.mirEchoReq s q).tck.now = s.tck.now ∧ (State.mirEchoReq s q).mem = s.mem := by
  unfold State.mirEchoReq
  repeat' first
    | (simp only [implies_true, and_self, and_true, true_and, apply_ite State.pending, apply_ite State.mem, apply_ite State.tck, apply_ite TckSt.now, State.mirControl_frame]; done)
    | (simp (maxDischargeDepth := 8) only [foldl_PMN, implies_true, and_self, and_true, true_and, apply_ite State.pending, apply_ite State.mem, apply_ite State.tck, apply_ite TckSt.now, State.mirControl_frame]; done)
    | (with_reducible refine foldl_PMN _ _ _ (fun s a => ?_))
    | split
    | (simp only [implies_true, and_self, and_true, true_and, apply_ite State.pending, apply_ite State.mem, apply_ite State.tck, apply_ite TckSt.now, State.mirControl_frame])

end Sys2Proof.Machine
end

