-- ==== Sys2Proof/Laws/FrameRsv.lean ====
section
/-! SUPPORT. What every operation of Machine/Rsv.lean leaves alone: the queue of waiting commands, the tick counter (unless it
writes it), and memory or its canonical form. -/

namespace Sys2Proof.Machine

set_option linter.all false
set_option Elab.async false
set_option maxRecDepth 4000

theorem State.rsvShow_frame (s : State)  : (State.rsvShow s).pending = s.pending ∧ (State.rsvShow s).tck.now = s.tck.now ∧ (State.rsvShow s).mem = s.mem := by
  unfold State.rsvShow
  repeat' first
    | (simp only [implies_true, and_self, and_true, true_and, apply_ite State.pending, apply_ite State.mem, apply_ite State.tck, apply_ite TckSt.now, State.setBit_frame, State.setFld_frame]; done)
    | (simp (maxDischargeDepth := 8) only [foldl_PMN, implies_true, and_self, and_true, true_and, apply_ite State.pending, apply_ite State.mem, apply_ite State.tck, apply_ite TckSt.now, State.setBit_frame, State.setFld_frame]; done)
    | (with_reducible refine foldl_PMN _ _ _ (fun s a => ?_))
    | split
    | (simp only [implies_true, and_self, and_true, true_and, apply_ite State.pending, apply_ite State.mem, apply_ite State.tck, apply_ite TckSt.now, State.setBit_frame, State.setFld_frame])

theorem State.rsvSubmit_frame (s : State) (j : Nat)  : (State.rsvSubmit s j).pending = s.pending ∧ (State.rsvSubmit s j).tck.now = s.tck.now ∧ (State.rsvSubmit s j).mem = s.mem := by
  unfold State.rsvSubmit
  repeat' first
    | (simp only [implies_true, and_self, and_true, true_and, apply_ite State.pending, apply_ite State.mem, apply_ite State.tck, apply_ite TckSt.now, State.setRegN_frame, State.raise_frame, State.rsvShow_frame]; done)
    | (simp (maxDischargeDepth := 8) only [foldl_PMN, implies_true, and_self, and_true, true_and, apply_ite State.pending, apply_ite State.mem, apply_ite State.tck, apply_ite TckSt.now, State.setRegN_frame, State.raise_frame, State.rsvShow_frame]; done)
    | (with_reducible refine foldl_PMN _ _ _ (fun s a => ?_))
    | split
    | (simp only [implies_true, and_self, and_true, true_and, apply_ite State.pending, apply_ite State.mem, apply_ite State.tck, apply_ite TckSt.now, State.setRegN_frame, State.raise_frame, State.rsvShow_frame])

theorem State.jobSlotWrite_frame (s : State) (m addr : Nat) (v : Word)  : (State.jobSlotWrite s m addr v).pending = s.pending ∧ (State.jobSlotWrite s m addr v).tck.now = s.tck.now ∧ (State.jobSlotWrite s m addr v).mem = s.mem := by
  unfold State.jobSlotWrite
  repeat' first
    | (simp only [implies_true, and_self, and_true, true_and, apply_ite State.pending, apply_ite State.mem, apply_ite State.tck, apply_ite TckSt.now, State.refuseWrite_frame, State.storeReg_frame]; done)
    | (simp (maxDischargeDepth := 8) only [foldl_PMN, implies_true, and_self, and_true, true_and, apply_ite State.pending, apply_ite State.mem, apply_ite State.tck, apply_ite TckSt.now, State.refuseWrite_frame, State.storeReg_frame]; done)
    | (with_reducible refine foldl_PMN _ _ _ (fun s a => ?_))
    | split
    | (simp only [implies_true, and_self, and_true, true_and, apply_ite State.pending, apply_ite State.mem, apply_ite State.tck, apply_ite TckSt.now, State.refuseWrite_frame, State.storeReg_frame])

theorem State.jobStart_frame (s : State)  : (State.jobStart s).pending = s.pending ∧ (State.jobStart s).tck.now = s.tck.now ∧ (State.jobStart s).mem = s.mem := by
  unfold State.jobStart
  repeat' first
    | (simp only [implies_true, and_self, and_true, true_and, apply_ite State.pending, apply_ite State.mem, apply_ite State.tck, apply_ite TckSt.now, State.setFld_frame, State.rsvShow_frame]; done)
    | (simp (maxDischargeDepth := 8) only [foldl_PMN, implies_true, and_self, and_true, true_and, apply_ite State.pending, apply_ite State.mem, apply_ite State.tck, apply_ite TckSt.now, State.setFld_frame, State.rsvShow_frame]; done)
    | (with_reducible refine foldl_PMN _ _ _ (fun s a => ?_))
    | split
    | (simp only [implies_true, and_self, and_true, true_and, apply_ite State.pending, apply_ite State.mem, apply_ite State.tck, apply_ite TckSt.now, State.setFld_frame, State.rsvShow_frame])

theorem State.jobResume_frame (s : State)  : (State.jobResume s).pending = s.pending ∧ (State.jobResume s).tck.now = s.tck.now ∧ (State.jobResume s).mem = s.mem := by
  unfold State.jobResume
  repeat' first
    | (simp only [implies_true, and_self, and_true, true_and, apply_ite State.pending, apply_ite State.mem, apply_ite State.tck, apply_ite TckSt.now, State.rsvShow_frame]; done)
    | (simp (maxDischargeDepth := 8) only [foldl_PMN, implies_true, and_self, and_true, true_and, apply_ite State.pending, apply_ite State.mem, apply_ite State.tck, apply_ite TckSt.now, State.rsvShow_frame]; done)
    | (with_reducible refine foldl_PMN _ _ _ (fun s a => ?_))
    | split
    | (simp only [implies_true, and_self, and_true, true_and, apply_ite State.pending, apply_ite State.mem, apply_ite State.tck, apply_ite TckSt.now, State.rsvShow_frame])

theorem State.jobFinish_frame (s : State) (slot res count cycles : Nat) (stale : Bool)  : (State.jobFinish s slot res count cycles stale).pending = s.pending ∧ (State.jobFinish s slot res count cycles stale).tck.now = s.tck.now ∧ (State.jobFinish s slot res count cycles stale).mem = s.mem := by
  unfold State.jobFinish
  repeat' first
    | (simp only [implies_true, and_self, and_true, true_and, apply_ite State.pending, apply_ite State.mem, apply_ite State.tck, apply_ite TckSt.now, State.setRegN_frame, State.count_frame, State.setBit_frame, State.bump_frame, State.rsvShow_frame, State.raise_frame, State.raiseIf_frame]; done)
    | (simp (maxDischargeDepth := 8) only [foldl_PMN, implies_true, and_self, and_true, true_and, apply_ite State.pending, apply_ite State.mem, apply_ite State.tck, apply_ite TckSt.now, State.setRegN_frame, State.count_frame, State.setBit_frame, State.bump_frame, State.rsvShow_frame, State.raise_frame, State.raiseIf_frame]; done)
    | (with_reducible refine foldl_PMN _ _ _ (fun s a => ?_))
    | split
    | (simp only [implies_true, and_self, and_true, true_and, apply_ite State.pending, apply_ite State.mem, apply_ite State.tck, apply_ite TckSt.now, State.setRegN_frame, State.count_frame, State.setBit_frame, State.bump_frame, State.rsvShow_frame, State.raise_frame, State.raiseIf_frame])

theorem State.putReport_frame (s : State) (j : RsvJob) (res : Nat) (list : List (Nat × Nat)) (sol : Option (Sparse Nat))  : (State.putReport s j res list sol).pending = s.pending ∧ (State.putReport s j res list sol).tck.now = s.tck.now ∧ (Memory.wf s.mem = true → Memory.wf (State.putReport s j res list sol).mem = true) := by
  unfold State.putReport
  refine (and_assoc.1 ⟨?_, fun h => ?_⟩)
  · repeat' first
      | (simp only [implies_true, and_self, and_true, true_and, apply_ite State.pending, apply_ite State.tck, apply_ite TckSt.now, State.setBytes_frame]; done)
      | (simp (maxDischargeDepth := 8) only [foldl_PN, implies_true, and_self, and_true, true_and, apply_ite State.pending, apply_ite State.tck, apply_ite TckSt.now, State.setBytes_frame]; done)
      | (with_reducible refine foldl_PN _ _ _ (fun s a => ?_))
      | split
      | (simp only [implies_true, and_self, and_true, true_and, apply_ite State.pending, apply_ite State.tck, apply_ite TckSt.now, State.setBytes_frame])
  · repeat' first
      | with_reducible assumption
      | (with_reducible refine wf_ite ?_ ?_)
      | (with_reducible refine (State.setBytes_frame ..).2.2 ?_)
      | (with_reducible refine foldl_wf _ _ _ (fun s a h => ?_) ?_)
      | dsimp only
      | split

theorem State.putTarget_frame (s : State) (j : RsvJob) (sol : Sparse Nat)  : (State.putTarget s j sol).pending = s.pending ∧ (State.putTarget s j sol).tck.now = s.tck.now ∧ (Memory.wf s.mem = true → Memory.wf (State.putTarget s j sol).mem = true) := by
  unfold State.putTarget
  refine (and_assoc.1 ⟨?_, fun h => ?_⟩)
  · repeat' first
      | (simp only [implies_true, and_self, and_true, true_and, apply_ite State.pending, apply_ite State.tck, apply_ite TckSt.now, State.putRec_frame]; done)
      | (simp (maxDischargeDepth := 8) only [foldl_PN, implies_true, and_self, and_true, true_and, apply_ite State.pending, apply_ite State.tck, apply_ite TckSt.now, State.putRec_frame]; done)
      | (with_reducible refine foldl_PN _ _ _ (fun s a => ?_))
      | split
      | (simp only [implies_true, and_self, and_true, true_and, apply_ite State.pending, apply_ite State.tck, apply_ite TckSt.now, State.putRec_frame])
  · repeat' first
      | with_reducible assumption
      | (with_reducible refine wf_ite ?_ ?_)
      | (with_reducible refine (State.putRec_frame ..).2.2 ?_)
      | (with_reducible refine foldl_wf _ _ _ (fun s a h => ?_) ?_)
      | dsimp only
      | split

theorem State.clearMagic_frame (s : State) (j : RsvJob)  : (State.clearMagic s j).pending = s.pending ∧ (State.clearMagic s j).tck.now = s.tck.now ∧ (Memory.wf s.mem = true → Memory.wf (State.clearMagic s j).mem = true) := by
  unfold State.clearMagic
  refine (and_assoc.1 ⟨?_, fun h => ?_⟩)
  · repeat' first
      | (simp only [implies_true, and_self, and_true, true_and, apply_ite State.pending, apply_ite State.tck, apply_ite TckSt.now, State.setBytes_frame]; done)
      | (simp (maxDischargeDepth := 8) only [foldl_PN, implies_true, and_self, and_true, true_and, apply_ite State.pending, apply_ite State.tck, apply_ite TckSt.now, State.setBytes_frame]; done)
      | (with_reducible refine foldl_PN _ _ _ (fun s a => ?_))
      | split
      | (simp only [implies_true, and_self, and_true, true_and, apply_ite State.pending, apply_ite State.tck, apply_ite TckSt.now, State.setBytes_frame])
  · repeat' first
      | with_reducible assumption
      | (with_reducible refine wf_ite ?_ ?_)
      | (with_reducible refine (State.setBytes_frame ..).2.2 ?_)
      | (with_reducible refine foldl_wf _ _ _ (fun s a h => ?_) ?_)
      | dsimp only
      | split

theorem State.jobWrite_frame (s : State) (j : RsvJob) (res : Nat) (list : List (Nat × Nat)) (sol : Option (Sparse Nat)) (stage cycles : Nat)  : (State.jobWrite s j res list sol stage cycles).pending = s.pending ∧ (State.jobWrite s j res list sol stage cycles).tck.now = s.tck.now ∧ (Memory.wf s.mem = true → Memory.wf (State.jobWrite s j res list sol stage cycles).mem = true) := by
  unfold State.jobWrite
  refine (and_assoc.1 ⟨?_, fun h => ?_⟩)
  · repeat' first
      | (simp only [implies_true, and_self, and_true, true_and, apply_ite State.pending, apply_ite State.tck, apply_ite TckSt.now, State.jobFinish_frame, State.clearMagic_frame, State.putTarget_frame, State.putReport_frame]; done)
      | (simp (maxDischargeDepth := 8) only [foldl_PN, implies_true, and_self, and_true, true_and, apply_ite State.pending, apply_ite State.tck, apply_ite TckSt.now, State.jobFinish_frame, State.clearMagic_frame, State.putTarget_frame, State.putReport_frame]; done)
      | (with_reducible refine foldl_PN _ _ _ (fun s a => ?_))
      | split
      | (simp only [implies_true, and_self, and_true, true_and, apply_ite State.pending, apply_ite State.tck, apply_ite TckSt.now, State.jobFinish_frame, State.clearMagic_frame, State.putTarget_frame, State.putReport_frame])
  · repeat' first
      | with_reducible assumption
      | (with_reducible refine wf_ite ?_ ?_)
      | (with_reducible refine wf_eq (State.jobFinish_frame ..).2.2 ?_)
      | (with_reducible refine (State.clearMagic_frame ..).2.2 ?_)
      | (with_reducible refine (State.putTarget_frame ..).2.2 ?_)
      | (with_reducible refine (State.putReport_frame ..).2.2 ?_)
      | (with_reducible refine foldl_wf _ _ _ (fun s a h => ?_) ?_)
      | dsimp only
      | split

theorem State.searchSpent_frame (s : State) (j : RsvJob) (cycles : Nat)  : (State.searchSpent s j cycles).pending = s.pending ∧ (State.searchSpent s j cycles).tck.now = s.tck.now ∧ (Memory.wf s.mem = true → Memory.wf (State.searchSpent s j cycles).mem = true) := by
  unfold State.searchSpent
  refine (and_assoc.1 ⟨?_, fun h => ?_⟩)
  · repeat' first
      | (simp only [implies_true, and_self, and_true, true_and, apply_ite State.pending, apply_ite State.tck, apply_ite TckSt.now, State.jobWrite_frame]; done)
      | (simp (maxDischargeDepth := 8) only [foldl_PN, implies_true, and_self, and_true, true_and, apply_ite State.pending, apply_ite State.tck, apply_ite TckSt.now, State.jobWrite_frame]; done)
      | (with_reducible refine foldl_PN _ _ _ (fun s a => ?_))
      | split
      | (simp only [implies_true, and_self, and_true, true_and, apply_ite State.pending, apply_ite State.tck, apply_ite TckSt.now, State.jobWrite_frame])
  · repeat' first
      | with_reducible assumption
      | (with_reducible refine wf_ite ?_ ?_)
      | (with_reducible refine (State.jobWrite_frame ..).2.2 ?_)
      | (with_reducible refine foldl_wf _ _ _ (fun s a h => ?_) ?_)
      | dsimp only
      | split

theorem State.jobEnd_frame (s : State) (stage cycles : Nat)  : (State.jobEnd s stage cycles).pending = s.pending ∧ (State.jobEnd s stage cycles).tck.now = s.tck.now ∧ (Memory.wf s.mem = true → Memory.wf (State.jobEnd s stage cycles).mem = true) := by
  unfold State.jobEnd
  refine (and_assoc.1 ⟨?_, fun h => ?_⟩)
  · repeat' first
      | (simp only [implies_true, and_self, and_true, true_and, apply_ite State.pending, apply_ite State.tck, apply_ite TckSt.now, State.jobWrite_frame, State.searchSpent_frame]; done)
      | (simp (maxDischargeDepth := 8) only [foldl_PN, implies_true, and_self, and_true, true_and, apply_ite State.pending, apply_ite State.tck, apply_ite TckSt.now, State.jobWrite_frame, State.searchSpent_frame]; done)
      | (with_reducible refine foldl_PN _ _ _ (fun s a => ?_))
      | split
      | (simp only [implies_true, and_self, and_true, true_and, apply_ite State.pending, apply_ite State.tck, apply_ite TckSt.now, State.jobWrite_frame, State.searchSpent_frame])
  · repeat' first
      | with_reducible assumption
      | (with_reducible refine wf_ite ?_ ?_)
      | (with_reducible refine (State.jobWrite_frame ..).2.2 ?_)
      | (with_reducible refine (State.searchSpent_frame ..).2.2 ?_)
      | (with_reducible refine foldl_wf _ _ _ (fun s a h => ?_) ?_)
      | dsimp only
      | split

theorem State.budgetOut_frame (s : State) (cycles : Nat)  : (State.budgetOut s cycles).pending = s.pending ∧ (State.budgetOut s cycles).tck.now = s.tck.now ∧ (Memory.wf s.mem = true → Memory.wf (State.budgetOut s cycles).mem = true) := by
  unfold State.budgetOut
  refine (and_assoc.1 ⟨?_, fun h => ?_⟩)
  · repeat' first
      | (simp only [implies_true, and_self, and_true, true_and, apply_ite State.pending, apply_ite State.tck, apply_ite TckSt.now, State.searchSpent_frame]; done)
      | (simp (maxDischargeDepth := 8) only [foldl_PN, implies_true, and_self, and_true, true_and, apply_ite State.pending, apply_ite State.tck, apply_ite TckSt.now, State.searchSpent_frame]; done)
      | (with_reducible refine foldl_PN _ _ _ (fun s a => ?_))
      | split
      | (simp only [implies_true, and_self, and_true, true_and, apply_ite State.pending, apply_ite State.tck, apply_ite TckSt.now, State.searchSpent_frame])
  · repeat' first
      | with_reducible assumption
      | (with_reducible refine wf_ite ?_ ?_)
      | (with_reducible refine (State.searchSpent_frame ..).2.2 ?_)
      | (with_reducible refine foldl_wf _ _ _ (fun s a h => ?_) ?_)
      | dsimp only
      | split

theorem State.jobCancel_frame (s : State) (j cycles : Nat)  : (State.jobCancel s j cycles).pending = s.pending ∧ (State.jobCancel s j cycles).tck.now = s.tck.now ∧ (Memory.wf s.mem = true → Memory.wf (State.jobCancel s j cycles).mem = true) := by
  unfold State.jobCancel
  refine (and_assoc.1 ⟨?_, fun h => ?_⟩)
  · repeat' first
      | (simp only [implies_true, and_self, and_true, true_and, apply_ite State.pending, apply_ite State.tck, apply_ite TckSt.now, State.putReport_frame, State.jobFinish_frame, State.raise_frame, State.resetMaster_frame]; done)
      | (simp (maxDischargeDepth := 8) only [foldl_PN, implies_true, and_self, and_true, true_and, apply_ite State.pending, apply_ite State.tck, apply_ite TckSt.now, State.putReport_frame, State.jobFinish_frame, State.raise_frame, State.resetMaster_frame]; done)
      | (with_reducible refine foldl_PN _ _ _ (fun s a => ?_))
      | split
      | (simp only [implies_true, and_self, and_true, true_and, apply_ite State.pending, apply_ite State.tck, apply_ite TckSt.now, State.putReport_frame, State.jobFinish_frame, State.raise_frame, State.resetMaster_frame])
  · repeat' first
      | with_reducible assumption
      | (with_reducible refine wf_ite ?_ ?_)
      | (with_reducible refine (State.putReport_frame ..).2.2 ?_)
      | (with_reducible refine wf_eq (State.jobFinish_frame ..).2.2 ?_)
      | (with_reducible refine wf_eq (State.raise_frame ..).2.2 ?_)
      | (with_reducible refine wf_eq (State.resetMaster_frame ..).2.2 ?_)
      | (with_reducible refine foldl_wf _ _ _ (fun s a h => ?_) ?_)
      | dsimp only
      | split

theorem State.jobCancelAll_frame (s : State) (cycles : Nat)  : (State.jobCancelAll s cycles).pending = s.pending ∧ (State.jobCancelAll s cycles).tck.now = s.tck.now ∧ (Memory.wf s.mem = true → Memory.wf (State.jobCancelAll s cycles).mem = true) := by
  unfold State.jobCancelAll
  refine (and_assoc.1 ⟨?_, fun h => ?_⟩)
  · repeat' first
      | (simp only [implies_true, and_self, and_true, true_and, apply_ite State.pending, apply_ite State.tck, apply_ite TckSt.now, State.jobCancel_frame]; done)
      | (simp (maxDischargeDepth := 8) only [foldl_PN, implies_true, and_self, and_true, true_and, apply_ite State.pending, apply_ite State.tck, apply_ite TckSt.now, State.jobCancel_frame]; done)
      | (with_reducible refine foldl_PN _ _ _ (fun s a => ?_))
      | split
      | (simp only [implies_true, and_self, and_true, true_and, apply_ite State.pending, apply_ite State.tck, apply_ite TckSt.now, State.jobCancel_frame])
  · repeat' first
      | with_reducible assumption
      | (with_reducible refine wf_ite ?_ ?_)
      | (with_reducible refine (State.jobCancel_frame ..).2.2 ?_)
      | (with_reducible refine foldl_wf _ _ _ (fun s a h => ?_) ?_)
      | dsimp only
      | split

theorem State.rsvLevel_frame (s : State) (level : Nat)  : (State.rsvLevel s level).pending = s.pending ∧ (State.rsvLevel s level).tck.now = s.tck.now ∧ (State.rsvLevel s level).mem = s.mem := by
  unfold State.rsvLevel
  repeat' first
    | (simp only [implies_true, and_self, and_true, true_and, apply_ite State.pending, apply_ite State.mem, apply_ite State.tck, apply_ite TckSt.now, State.setBit_frame, State.raiseIf_frame]; done)
    | (simp (maxDischargeDepth := 8) only [foldl_PMN, implies_true, and_self, and_true, true_and, apply_ite State.pending, apply_ite State.mem, apply_ite State.tck, apply_ite TckSt.now, State.setBit_frame, State.raiseIf_frame]; done)
    | (with_reducible refine foldl_PMN _ _ _ (fun s a => ?_))
    | split
    | (simp only [implies_true, and_self, and_true, true_and, apply_ite State.pending, apply_ite State.mem, apply_ite State.tck, apply_ite TckSt.now, State.setBit_frame, State.raiseIf_frame])

theorem State.rsvCtrlWrite_frame (s : State) (v : Word)  : (State.rsvCtrlWrite s v).pending = s.pending ∧ (State.rsvCtrlWrite s v).tck.now = s.tck.now ∧ (Memory.wf s.mem = true → Memory.wf (State.rsvCtrlWrite s v).mem = true) := by
  unfold State.rsvCtrlWrite
  refine (and_assoc.1 ⟨?_, fun h => ?_⟩)
  · repeat' first
      | (simp only [implies_true, and_self, and_true, true_and, apply_ite State.pending, apply_ite State.tck, apply_ite TckSt.now, State.storeReg_frame, State.tick1_frame, State.jobCancel_frame, State.jobCancelAll_frame]; done)
      | (simp (maxDischargeDepth := 8) only [foldl_PN, implies_true, and_self, and_true, true_and, apply_ite State.pending, apply_ite State.tck, apply_ite TckSt.now, State.storeReg_frame, State.tick1_frame, State.jobCancel_frame, State.jobCancelAll_frame]; done)
      | (with_reducible refine foldl_PN _ _ _ (fun s a => ?_))
      | split
      | (simp only [implies_true, and_self, and_true, true_and, apply_ite State.pending, apply_ite State.tck, apply_ite TckSt.now, State.storeReg_frame, State.tick1_frame, State.jobCancel_frame, State.jobCancelAll_frame])
  · repeat' first
      | with_reducible assumption
      | (with_reducible refine wf_ite ?_ ?_)
      | (with_reducible refine wf_eq (State.storeReg_frame ..).2.2 ?_)
      | (with_reducible refine wf_eq (State.tick1_frame ..).2.2 ?_)
      | (with_reducible refine (State.jobCancel_frame ..).2.2 ?_)
      | (with_reducible refine (State.jobCancelAll_frame ..).2.2 ?_)
      | (with_reducible refine foldl_wf _ _ _ (fun s a h => ?_) ?_)
      | dsimp only
      | split

theorem execRsvSubmit_frame (m : Fin 8) (slot : Fin 32) (s : State) {r : State} (e : execRsvSubmit m slot s = .next r) : r.pending = s.pending ∧ r.tck.now = s.tck.now ∧ r.mem = s.mem := by
  unfold execRsvSubmit at e
  revert e
  intro e
  refine ⟨?_, ?_, ?_⟩
  · revert e
    repeat' first
      | with_reducible assumption
      | with_reducible rfl
      | (with_reducible refine Eq.trans (State.gateWrite_frP (heff := fun _ => ?_) ..) ?_)
      | (with_reducible refine Eq.trans (State.rsvSubmit_frame ..).1 ?_)
      | (with_reducible refine ocP_next ?_)
      | with_reducible exact ocP_fault
      | dsimp only
      | split
  · revert e
    repeat' first
      | with_reducible assumption
      | with_reducible rfl
      | (with_reducible refine Eq.trans (State.gateWrite_frN (heff := fun _ => ?_) ..) ?_)
      | (with_reducible refine Eq.trans (State.rsvSubmit_frame ..).2.1 ?_)
      | (with_reducible refine ocN_next ?_)
      | with_reducible exact ocN_fault
      | dsimp only
      | split
  · revert e
    repeat' first
      | with_reducible assumption
      | with_reducible rfl
      | (with_reducible refine Eq.trans (State.gateWrite_frM (heff := fun _ => ?_) ..) ?_)
      | (with_reducible refine Eq.trans (State.rsvSubmit_frame ..).2.2 ?_)
      | (with_reducible refine ocM_next ?_)
      | with_reducible exact ocM_fault
      | dsimp only
      | split

theorem execJobSlotWrite_frame (m : Fin 8) (slot : Fin 32) (word : Fin 5) (v : Word) (s : State) {r : State} (e : execJobSlotWrite m slot word v s = .next r) : r.pending = s.pending ∧ r.tck.now = s.tck.now ∧ r.mem = s.mem := by
  unfold execJobSlotWrite at e
  revert e
  intro e
  refine ⟨?_, ?_, ?_⟩
  · revert e
    repeat' first
      | with_reducible assumption
      | with_reducible rfl
      | (with_reducible refine Eq.trans (State.gateWrite_frP (heff := fun _ => ?_) ..) ?_)
      | (with_reducible refine Eq.trans (State.jobSlotWrite_frame ..).1 ?_)
      | (with_reducible refine ocP_next ?_)
      | with_reducible exact ocP_fault
      | dsimp only
      | split
  · revert e
    repeat' first
      | with_reducible assumption
      | with_reducible rfl
      | (with_reducible refine Eq.trans (State.gateWrite_frN (heff := fun _ => ?_) ..) ?_)
      | (with_reducible refine Eq.trans (State.jobSlotWrite_frame ..).2.1 ?_)
      | (with_reducible refine ocN_next ?_)
      | with_reducible exact ocN_fault
      | dsimp only
      | split
  · revert e
    repeat' first
      | with_reducible assumption
      | with_reducible rfl
      | (with_reducible refine Eq.trans (State.gateWrite_frM (heff := fun _ => ?_) ..) ?_)
      | (with_reducible refine Eq.trans (State.jobSlotWrite_frame ..).2.2 ?_)
      | (with_reducible refine ocM_next ?_)
      | with_reducible exact ocM_fault
      | dsimp only
      | split

theorem execJobStart_frame (s : State) {r : State} (e : execJobStart s = .next r) : r.pending = s.pending ∧ r.tck.now = s.tck.now ∧ r.mem = s.mem := by
  unfold execJobStart at e
  revert e
  intro e
  refine ⟨?_, ?_, ?_⟩
  · revert e
    repeat' first
      | with_reducible assumption
      | with_reducible rfl
      | (with_reducible refine Eq.trans (State.jobStart_frame ..).1 ?_)
      | (with_reducible refine ocP_next ?_)
      | with_reducible exact ocP_fault
      | dsimp only
      | split
  · revert e
    repeat' first
      | with_reducible assumption
      | with_reducible rfl
      | (with_reducible refine Eq.trans (State.jobStart_frame ..).2.1 ?_)
      | (with_reducible refine ocN_next ?_)
      | with_reducible exact ocN_fault
      | dsimp only
      | split
  · revert e
    repeat' first
      | with_reducible assumption
      | with_reducible rfl
      | (with_reducible refine Eq.trans (State.jobStart_frame ..).2.2 ?_)
      | (with_reducible refine ocM_next ?_)
      | with_reducible exact ocM_fault
      | dsimp only
      | split

theorem execJobResume_frame (s : State) {r : State} (e : execJobResume s = .next r) : r.pending = s.pending ∧ r.tck.now = s.tck.now ∧ r.mem = s.mem := by
  unfold execJobResume at e
  revert e
  intro e
  refine ⟨?_, ?_, ?_⟩
  · revert e
    repeat' first
      | with_reducible assumption
      | with_reducible rfl
      | (with_reducible refine Eq.trans (State.jobResume_frame ..).1 ?_)
      | (with_reducible refine ocP_next ?_)
      | with_reducible exact ocP_fault
      | dsimp only
      | split
  · revert e
    repeat' first
      | with_reducible assumption
      | with_reducible rfl
      | (with_reducible refine Eq.trans (State.jobResume_frame ..).2.1 ?_)
      | (with_reducible refine ocN_next ?_)
      | with_reducible exact ocN_fault
      | dsimp only
      | split
  · revert e
    repeat' first
      | with_reducible assumption
      | with_reducible rfl
      | (with_reducible refine Eq.trans (State.jobResume_frame ..).2.2 ?_)
      | (with_reducible refine ocM_next ?_)
      | with_reducible exact ocM_fault
      | dsimp only
      | split

theorem execJobEnd_frame (stage : Fin 3) (cycles cycle : Nat) (s : State) {r : State} (e : execJobEnd stage cycles cycle s = .next r) : r.pending = s.pending ∧ r.tck.now = s.tck.now ∧ (Memory.wf s.mem = true → Memory.wf r.mem = true) := by
  unfold execJobEnd at e
  revert e
  intro e
  refine ⟨?_, ?_, fun h => ?_⟩
  · revert e
    repeat' first
      | with_reducible assumption
      | with_reducible rfl
      | (with_reducible refine Eq.trans (State.atCycle_frame ..).1 ?_)
      | (with_reducible refine Eq.trans (State.jobEnd_frame ..).1 ?_)
      | (with_reducible refine ocP_next ?_)
      | with_reducible exact ocP_fault
      | dsimp only
      | split
  · revert e
    repeat' first
      | with_reducible assumption
      | with_reducible rfl
      | (with_reducible refine Eq.trans (State.atCycle_frame ..).2.1 ?_)
      | (with_reducible refine Eq.trans (State.jobEnd_frame ..).2.1 ?_)
      | (with_reducible refine ocN_next ?_)
      | with_reducible exact ocN_fault
      | dsimp only
      | split
  · revert e
    repeat' first
      | with_reducible assumption
      | with_reducible rfl
      | (with_reducible refine wf_eq (State.atCycle_frame ..).2.2 ?_)
      | (with_reducible refine (State.jobEnd_frame ..).2.2 ?_)
      | (with_reducible refine ocW_next ?_)
      | with_reducible exact ocW_fault
      | dsimp only
      | split

theorem execBudgetExhausted_frame (cycles cycle : Nat) (s : State) {r : State} (e : execBudgetExhausted cycles cycle s = .next r) : r.pending = s.pending ∧ r.tck.now = s.tck.now ∧ (Memory.wf s.mem = true → Memory.wf r.mem = true) := by
  unfold execBudgetExhausted at e
  revert e
  intro e
  refine ⟨?_, ?_, fun h => ?_⟩
  · revert e
    repeat' first
      | with_reducible assumption
      | with_reducible rfl
      | (with_reducible refine Eq.trans (State.atCycle_frame ..).1 ?_)
      | (with_reducible refine Eq.trans (State.budgetOut_frame ..).1 ?_)
      | (with_reducible refine ocP_next ?_)
      | with_reducible exact ocP_fault
      | dsimp only
      | split
  · revert e
    repeat' first
      | with_reducible assumption
      | with_reducible rfl
      | (with_reducible refine Eq.trans (State.atCycle_frame ..).2.1 ?_)
      | (with_reducible refine Eq.trans (State.budgetOut_frame ..).2.1 ?_)
      | (with_reducible refine ocN_next ?_)
      | with_reducible exact ocN_fault
      | dsimp only
      | split
  · revert e
    repeat' first
      | with_reducible assumption
      | with_reducible rfl
      | (with_reducible refine wf_eq (State.atCycle_frame ..).2.2 ?_)
      | (with_reducible refine (State.budgetOut_frame ..).2.2 ?_)
      | (with_reducible refine ocW_next ?_)
      | with_reducible exact ocW_fault
      | dsimp only
      | split

theorem execJobCancel_frame (m : Fin 8) (slot : Fin 32) (cycles : Nat) (s : State) {r : State} (e : execJobCancel m slot cycles s = .next r) : r.pending = s.pending ∧ r.tck.now = s.tck.now ∧ (Memory.wf s.mem = true → Memory.wf r.mem = true) := by
  unfold execJobCancel at e
  revert e
  intro e
  refine ⟨?_, ?_, fun h => ?_⟩
  · revert e
    repeat' first
      | with_reducible assumption
      | with_reducible rfl
      | (with_reducible refine Eq.trans (State.gateWrite_frP (heff := fun _ => ?_) ..) ?_)
      | (with_reducible refine Eq.trans (State.storeReg_frame ..).1 ?_)
      | (with_reducible refine Eq.trans (State.jobCancel_frame ..).1 ?_)
      | (with_reducible refine ocP_next ?_)
      | with_reducible exact ocP_fault
      | dsimp only
      | split
  · revert e
    repeat' first
      | with_reducible assumption
      | with_reducible rfl
      | (with_reducible refine Eq.trans (State.gateWrite_frN (heff := fun _ => ?_) ..) ?_)
      | (with_reducible refine Eq.trans (State.storeReg_frame ..).2.1 ?_)
      | (with_reducible refine Eq.trans (State.jobCancel_frame ..).2.1 ?_)
      | (with_reducible refine ocN_next ?_)
      | with_reducible exact ocN_fault
      | dsimp only
      | split
  · revert e
    repeat' first
      | with_reducible assumption
      | with_reducible rfl
      | (with_reducible refine (State.gateWrite_frW (heff := fun _ h => ?_) (hw := ?_) ..))
      | (with_reducible refine wf_eq (State.gateWrite_frame ..).2.2 ?_)
      | (with_reducible refine wf_eq (State.storeReg_frame ..).2.2 ?_)
      | (with_reducible refine (State.jobCancel_frame ..).2.2 ?_)
      | (with_reducible refine ocW_next ?_)
      | with_reducible exact ocW_fault
      | dsimp only
      | split

theorem execJobCancelAll_frame (m : Fin 8) (cycles : Nat) (s : State) {r : State} (e : execJobCancelAll m cycles s = .next r) : r.pending = s.pending ∧ r.tck.now = s.tck.now ∧ (Memory.wf s.mem = true → Memory.wf r.mem = true) := by
  unfold execJobCancelAll at e
  revert e
  intro e
  refine ⟨?_, ?_, fun h => ?_⟩
  · revert e
    repeat' first
      | with_reducible assumption
      | with_reducible rfl
      | (with_reducible refine Eq.trans (State.gateWrite_frP (heff := fun _ => ?_) ..) ?_)
      | (with_reducible refine Eq.trans (State.storeReg_frame ..).1 ?_)
      | (with_reducible refine Eq.trans (State.jobCancelAll_frame ..).1 ?_)
      | (with_reducible refine ocP_next ?_)
      | with_reducible exact ocP_fault
      | dsimp only
      | split
  · revert e
    repeat' first
      | with_reducible assumption
      | with_reducible rfl
      | (with_reducible refine Eq.trans (State.gateWrite_frN (heff := fun _ => ?_) ..) ?_)
      | (with_reducible refine Eq.trans (State.storeReg_frame ..).2.1 ?_)
      | (with_reducible refine Eq.trans (State.jobCancelAll_frame ..).2.1 ?_)
      | (with_reducible refine ocN_next ?_)
      | with_reducible exact ocN_fault
      | dsimp only
      | split
  · revert e
    repeat' first
      | with_reducible assumption
      | with_reducible rfl
      | (with_reducible refine (State.gateWrite_frW (heff := fun _ h => ?_) (hw := ?_) ..))
      | (with_reducible refine wf_eq (State.gateWrite_frame ..).2.2 ?_)
      | (with_reducible refine wf_eq (State.storeReg_frame ..).2.2 ?_)
      | (with_reducible refine (State.jobCancelAll_frame ..).2.2 ?_)
      | (with_reducible refine ocW_next ?_)
      | with_reducible exact ocW_fault
      | dsimp only
      | split

end Sys2Proof.Machine
end

