-- ==== Sys2Proof/Laws/FrameCompose.lean ====
section
/-! SUPPORT. What every operation of Machine/Compose.lean leaves alone: the queue of waiting commands, the tick counter (unless it
writes it), and memory or its canonical form. -/

namespace Sys2Proof.Machine

set_option linter.all false
set_option Elab.async false
set_option maxRecDepth 4000

theorem State.stuckConflict_frame (s : State) (c : Nat) (m : Tick)  : (State.stuckConflict s c m).pending = s.pending ∧ (State.stuckConflict s c m).tck.now = s.tck.now ∧ (State.stuckConflict s c m).mem = s.mem := by
  unfold State.stuckConflict
  repeat' first
    | (simp only [implies_true, and_self, and_true, true_and, apply_ite State.pending, apply_ite State.mem, apply_ite State.tck, apply_ite TckSt.now, State.setFld_frame, State.bump_frame, State.setBit_frame, State.setReg_frame, State.raise_frame]; done)
    | (simp (maxDischargeDepth := 8) only [foldl_PMN, implies_true, and_self, and_true, true_and, apply_ite State.pending, apply_ite State.mem, apply_ite State.tck, apply_ite TckSt.now, State.setFld_frame, State.bump_frame, State.setBit_frame, State.setReg_frame, State.raise_frame]; done)
    | (with_reducible refine foldl_PMN _ _ _ (fun s a => ?_))
    | split
    | (simp only [implies_true, and_self, and_true, true_and, apply_ite State.pending, apply_ite State.mem, apply_ite State.tck, apply_ite TckSt.now, State.setFld_frame, State.bump_frame, State.setBit_frame, State.setReg_frame, State.raise_frame])

theorem State.restoreFrozen_frame (s : State) (m : Tick) (k : Comp)  : (State.restoreFrozen s m k).1.pending = s.pending ∧ (State.restoreFrozen s m k).1.tck.now = s.tck.now ∧ (State.restoreFrozen s m k).1.mem = s.mem := by
  unfold State.restoreFrozen
  refine ⟨?_, ?_, ?_⟩
  · repeat' first
      | with_reducible assumption
      | with_reducible rfl
      | (with_reducible refine alP_ite ?_ ?_)
      | (with_reducible refine alP_itep0 ?_ ?_)
      | (with_reducible refine alP_itep1 ?_ ?_)
      | (with_reducible refine Eq.trans (State.stuckConflict_frame ..).1 ?_)
      | (with_reducible refine alP_fold0 _ _ _ (fun r a h => ?_) ?_)
      | (with_reducible refine alP_fold1 _ _ _ (fun r a h => ?_) ?_)
      | (with_reducible refine alP_fold2 _ _ _ (fun r a h => ?_) ?_)
      | dsimp only
      | split
  · repeat' first
      | with_reducible assumption
      | with_reducible rfl
      | (with_reducible refine alN_ite ?_ ?_)
      | (with_reducible refine alN_itep0 ?_ ?_)
      | (with_reducible refine alN_itep1 ?_ ?_)
      | (with_reducible refine Eq.trans (State.stuckConflict_frame ..).2.1 ?_)
      | (with_reducible refine alN_fold0 _ _ _ (fun r a h => ?_) ?_)
      | (with_reducible refine alN_fold1 _ _ _ (fun r a h => ?_) ?_)
      | (with_reducible refine alN_fold2 _ _ _ (fun r a h => ?_) ?_)
      | dsimp only
      | split
  · repeat' first
      | with_reducible assumption
      | with_reducible rfl
      | (with_reducible refine alM_ite ?_ ?_)
      | (with_reducible refine alM_itep0 ?_ ?_)
      | (with_reducible refine alM_itep1 ?_ ?_)
      | (with_reducible refine Eq.trans (State.stuckConflict_frame ..).2.2 ?_)
      | (with_reducible refine alM_fold0 _ _ _ (fun r a h => ?_) ?_)
      | (with_reducible refine alM_fold1 _ _ _ (fun r a h => ?_) ?_)
      | (with_reducible refine alM_fold2 _ _ _ (fun r a h => ?_) ?_)
      | dsimp only
      | split

theorem State.composeFabric_frame (s : State)  : (State.composeFabric s).pending = s.pending ∧ (State.composeFabric s).tck.now = s.tck.now ∧ (State.composeFabric s).mem = s.mem := by
  unfold State.composeFabric
  repeat' first
    | (simp only [implies_true, and_self, and_true, true_and, apply_ite State.pending, apply_ite State.mem, apply_ite State.tck, apply_ite TckSt.now, State.restoreFrozen_frame]; done)
    | (simp (maxDischargeDepth := 8) only [foldl_PMN, implies_true, and_self, and_true, true_and, apply_ite State.pending, apply_ite State.mem, apply_ite State.tck, apply_ite TckSt.now, State.restoreFrozen_frame]; done)
    | (with_reducible refine foldl_PMN _ _ _ (fun s a => ?_))
    | split
    | (simp only [implies_true, and_self, and_true, true_and, apply_ite State.pending, apply_ite State.mem, apply_ite State.tck, apply_ite TckSt.now, State.restoreFrozen_frame])

theorem State.markComposed_frame (s : State)  : (State.markComposed s).pending = s.pending ∧ (State.markComposed s).tck.now = s.tck.now ∧ (State.markComposed s).mem = s.mem := by
  unfold State.markComposed
  repeat' first
    | (simp only [implies_true, and_self, and_true, true_and, apply_ite State.pending, apply_ite State.mem, apply_ite State.tck, apply_ite TckSt.now]; done)
    | (simp (maxDischargeDepth := 8) only [foldl_PMN, implies_true, and_self, and_true, true_and, apply_ite State.pending, apply_ite State.mem, apply_ite State.tck, apply_ite TckSt.now]; done)
    | (with_reducible refine foldl_PMN _ _ _ (fun s a => ?_))
    | split
    | (simp only [implies_true, and_self, and_true, true_and, apply_ite State.pending, apply_ite State.mem, apply_ite State.tck, apply_ite TckSt.now])

theorem State.compoTakes_frame (s : State) (k : Compo)  : (State.compoTakes s k).pending = s.pending ∧ (State.compoTakes s k).tck.now = s.tck.now ∧ (State.compoTakes s k).mem = s.mem := by
  unfold State.compoTakes
  repeat' first
    | (simp only [implies_true, and_self, and_true, true_and, apply_ite State.pending, apply_ite State.mem, apply_ite State.tck, apply_ite TckSt.now, State.setBit_frame, State.raise_frame, State.cancelApplies_frame, State.crsHalt_frame, State.raiseIf_frame, State.setReg64_frame, State.setFld_frame, State.setRegN_frame]; done)
    | (simp (maxDischargeDepth := 8) only [foldl_PMN, implies_true, and_self, and_true, true_and, apply_ite State.pending, apply_ite State.mem, apply_ite State.tck, apply_ite TckSt.now, State.setBit_frame, State.raise_frame, State.cancelApplies_frame, State.crsHalt_frame, State.raiseIf_frame, State.setReg64_frame, State.setFld_frame, State.setRegN_frame]; done)
    | (with_reducible refine foldl_PMN _ _ _ (fun s a => ?_))
    | split
    | (simp only [implies_true, and_self, and_true, true_and, apply_ite State.pending, apply_ite State.mem, apply_ite State.tck, apply_ite TckSt.now, State.setBit_frame, State.raise_frame, State.cancelApplies_frame, State.crsHalt_frame, State.raiseIf_frame, State.setReg64_frame, State.setFld_frame, State.setRegN_frame])

theorem State.fabricBoundary_frame (s : State)  : (State.fabricBoundary s).pending = s.pending ∧ (State.fabricBoundary s).tck.now = s.tck.now ∧ (State.fabricBoundary s).mem = s.mem := by
  unfold State.fabricBoundary
  repeat' first
    | (simp only [implies_true, and_self, and_true, true_and, apply_ite State.pending, apply_ite State.mem, apply_ite State.tck, apply_ite TckSt.now, State.compoTakes_frame]; done)
    | (simp (maxDischargeDepth := 8) only [foldl_PMN, implies_true, and_self, and_true, true_and, apply_ite State.pending, apply_ite State.mem, apply_ite State.tck, apply_ite TckSt.now, State.compoTakes_frame]; done)
    | (with_reducible refine foldl_PMN _ _ _ (fun s a => ?_))
    | split
    | (simp only [implies_true, and_self, and_true, true_and, apply_ite State.pending, apply_ite State.mem, apply_ite State.tck, apply_ite TckSt.now, State.compoTakes_frame])

theorem State.checkLag_frame (s : State)  : (State.checkLag s).pending = s.pending ∧ (State.checkLag s).tck.now = s.tck.now ∧ (State.checkLag s).mem = s.mem := by
  unfold State.checkLag
  repeat' first
    | (simp only [implies_true, and_self, and_true, true_and, apply_ite State.pending, apply_ite State.mem, apply_ite State.tck, apply_ite TckSt.now, State.setFld_frame, State.bump_frame, State.raise_frame]; done)
    | (simp (maxDischargeDepth := 8) only [foldl_PMN, implies_true, and_self, and_true, true_and, apply_ite State.pending, apply_ite State.mem, apply_ite State.tck, apply_ite TckSt.now, State.setFld_frame, State.bump_frame, State.raise_frame]; done)
    | (with_reducible refine foldl_PMN _ _ _ (fun s a => ?_))
    | split
    | (simp only [implies_true, and_self, and_true, true_and, apply_ite State.pending, apply_ite State.mem, apply_ite State.tck, apply_ite TckSt.now, State.setFld_frame, State.bump_frame, State.raise_frame])

end Sys2Proof.Machine
end

