-- ==== Sys2Proof/Laws/FrameWindow.lean ====
section
/-! SUPPORT. What every operation of Machine/Window.lean leaves alone: the queue of waiting commands, the tick counter (unless it
writes it), and memory or its canonical form. -/

namespace Sys2Proof.Machine

set_option linter.all false
set_option Elab.async false
set_option maxRecDepth 4000

theorem State.pushSample_frame (s : State) (slot c : Nat)  : (State.pushSample s slot c).pending = s.pending ∧ (State.pushSample s slot c).tck.now = s.tck.now ∧ (State.pushSample s slot c).mem = s.mem := by
  unfold State.pushSample
  repeat' first
    | (simp only [implies_true, and_self, and_true, true_and, apply_ite State.pending, apply_ite State.mem, apply_ite State.tck, apply_ite TckSt.now, State.setLoop_frame]; done)
    | (simp (maxDischargeDepth := 8) only [foldl_PMN, implies_true, and_self, and_true, true_and, apply_ite State.pending, apply_ite State.mem, apply_ite State.tck, apply_ite TckSt.now, State.setLoop_frame]; done)
    | (with_reducible refine foldl_PMN _ _ _ (fun s a => ?_))
    | split
    | (simp only [implies_true, and_self, and_true, true_and, apply_ite State.pending, apply_ite State.mem, apply_ite State.tck, apply_ite TckSt.now, State.setLoop_frame])

theorem State.pushSamples_frame (s : State)  : (State.pushSamples s).pending = s.pending ∧ (State.pushSamples s).tck.now = s.tck.now ∧ (State.pushSamples s).mem = s.mem := by
  unfold State.pushSamples
  repeat' first
    | (simp only [implies_true, and_self, and_true, true_and, apply_ite State.pending, apply_ite State.mem, apply_ite State.tck, apply_ite TckSt.now, State.pushSample_frame]; done)
    | (simp (maxDischargeDepth := 8) only [foldl_PMN, implies_true, and_self, and_true, true_and, apply_ite State.pending, apply_ite State.mem, apply_ite State.tck, apply_ite TckSt.now, State.pushSample_frame]; done)
    | (with_reducible refine foldl_PMN _ _ _ (fun s a => ?_))
    | split
    | (simp only [implies_true, and_self, and_true, true_and, apply_ite State.pending, apply_ite State.mem, apply_ite State.tck, apply_ite TckSt.now, State.pushSample_frame])

theorem State.judgeLoop_frame (s : State) (l : Nat)  : (State.judgeLoop s l).pending = s.pending ∧ (State.judgeLoop s l).tck.now = s.tck.now ∧ (State.judgeLoop s l).mem = s.mem := by
  unfold State.judgeLoop
  repeat' first
    | (simp only [implies_true, and_self, and_true, true_and, apply_ite State.pending, apply_ite State.mem, apply_ite State.tck, apply_ite TckSt.now, State.loopFault_frame, State.setLoop_frame]; done)
    | (simp (maxDischargeDepth := 8) only [foldl_PMN, implies_true, and_self, and_true, true_and, apply_ite State.pending, apply_ite State.mem, apply_ite State.tck, apply_ite TckSt.now, State.loopFault_frame, State.setLoop_frame]; done)
    | (with_reducible refine foldl_PMN _ _ _ (fun s a => ?_))
    | split
    | (simp only [implies_true, and_self, and_true, true_and, apply_ite State.pending, apply_ite State.mem, apply_ite State.tck, apply_ite TckSt.now, State.loopFault_frame, State.setLoop_frame])

theorem State.judgeLoops_frame (s : State)  : (State.judgeLoops s).pending = s.pending ∧ (State.judgeLoops s).tck.now = s.tck.now ∧ (State.judgeLoops s).mem = s.mem := by
  unfold State.judgeLoops
  repeat' first
    | (simp only [implies_true, and_self, and_true, true_and, apply_ite State.pending, apply_ite State.mem, apply_ite State.tck, apply_ite TckSt.now, State.judgeLoop_frame]; done)
    | (simp (maxDischargeDepth := 8) only [foldl_PMN, implies_true, and_self, and_true, true_and, apply_ite State.pending, apply_ite State.mem, apply_ite State.tck, apply_ite TckSt.now, State.judgeLoop_frame]; done)
    | (with_reducible refine foldl_PMN _ _ _ (fun s a => ?_))
    | split
    | (simp only [implies_true, and_self, and_true, true_and, apply_ite State.pending, apply_ite State.mem, apply_ite State.tck, apply_ite TckSt.now, State.judgeLoop_frame])

theorem State.settleHold_frame (s : State) (l : Nat)  : (State.settleHold s l).pending = s.pending ∧ (State.settleHold s l).tck.now = s.tck.now ∧ (State.settleHold s l).mem = s.mem := by
  unfold State.settleHold
  repeat' first
    | (simp only [implies_true, and_self, and_true, true_and, apply_ite State.pending, apply_ite State.mem, apply_ite State.tck, apply_ite TckSt.now, State.setLoop_frame]; done)
    | (simp (maxDischargeDepth := 8) only [foldl_PMN, implies_true, and_self, and_true, true_and, apply_ite State.pending, apply_ite State.mem, apply_ite State.tck, apply_ite TckSt.now, State.setLoop_frame]; done)
    | (with_reducible refine foldl_PMN _ _ _ (fun s a => ?_))
    | split
    | (simp only [implies_true, and_self, and_true, true_and, apply_ite State.pending, apply_ite State.mem, apply_ite State.tck, apply_ite TckSt.now, State.setLoop_frame])

theorem State.settleHolds_frame (s : State)  : (State.settleHolds s).pending = s.pending ∧ (State.settleHolds s).tck.now = s.tck.now ∧ (State.settleHolds s).mem = s.mem := by
  unfold State.settleHolds
  repeat' first
    | (simp only [implies_true, and_self, and_true, true_and, apply_ite State.pending, apply_ite State.mem, apply_ite State.tck, apply_ite TckSt.now, State.settleHold_frame]; done)
    | (simp (maxDischargeDepth := 8) only [foldl_PMN, implies_true, and_self, and_true, true_and, apply_ite State.pending, apply_ite State.mem, apply_ite State.tck, apply_ite TckSt.now, State.settleHold_frame]; done)
    | (with_reducible refine foldl_PMN _ _ _ (fun s a => ?_))
    | split
    | (simp only [implies_true, and_self, and_true, true_and, apply_ite State.pending, apply_ite State.mem, apply_ite State.tck, apply_ite TckSt.now, State.settleHold_frame])

theorem State.markHeld_frame (s : State)  : (State.markHeld s).pending = s.pending ∧ (State.markHeld s).tck.now = s.tck.now ∧ (State.markHeld s).mem = s.mem := by
  unfold State.markHeld
  repeat' first
    | (simp only [implies_true, and_self, and_true, true_and, apply_ite State.pending, apply_ite State.mem, apply_ite State.tck, apply_ite TckSt.now, State.setLoop_frame]; done)
    | (simp (maxDischargeDepth := 8) only [foldl_PMN, implies_true, and_self, and_true, true_and, apply_ite State.pending, apply_ite State.mem, apply_ite State.tck, apply_ite TckSt.now, State.setLoop_frame]; done)
    | (with_reducible refine foldl_PMN _ _ _ (fun s a => ?_))
    | split
    | (simp only [implies_true, and_self, and_true, true_and, apply_ite State.pending, apply_ite State.mem, apply_ite State.tck, apply_ite TckSt.now, State.setLoop_frame])

theorem State.readTargets_frame (s : State)  : (State.readTargets s).pending = s.pending ∧ (State.readTargets s).tck.now = s.tck.now ∧ (State.readTargets s).mem = s.mem := by
  unfold State.readTargets
  repeat' first
    | (simp only [implies_true, and_self, and_true, true_and, apply_ite State.pending, apply_ite State.mem, apply_ite State.tck, apply_ite TckSt.now]; done)
    | (simp (maxDischargeDepth := 8) only [foldl_PMN, implies_true, and_self, and_true, true_and, apply_ite State.pending, apply_ite State.mem, apply_ite State.tck, apply_ite TckSt.now]; done)
    | (with_reducible refine foldl_PMN _ _ _ (fun s a => ?_))
    | split
    | (simp only [implies_true, and_self, and_true, true_and, apply_ite State.pending, apply_ite State.mem, apply_ite State.tck, apply_ite TckSt.now])

theorem State.initLoop_frame (s : State) (l : Nat)  : (State.initLoop s l).pending = s.pending ∧ (State.initLoop s l).tck.now = s.tck.now ∧ (State.initLoop s l).mem = s.mem := by
  unfold State.initLoop
  repeat' first
    | (simp only [implies_true, and_self, and_true, true_and, apply_ite State.pending, apply_ite State.mem, apply_ite State.tck, apply_ite TckSt.now, State.setLoop_frame]; done)
    | (simp (maxDischargeDepth := 8) only [foldl_PMN, implies_true, and_self, and_true, true_and, apply_ite State.pending, apply_ite State.mem, apply_ite State.tck, apply_ite TckSt.now, State.setLoop_frame]; done)
    | (with_reducible refine foldl_PMN _ _ _ (fun s a => ?_))
    | split
    | (simp only [implies_true, and_self, and_true, true_and, apply_ite State.pending, apply_ite State.mem, apply_ite State.tck, apply_ite TckSt.now, State.setLoop_frame])

theorem State.noteInner_frame (s : State) (l : Nat) (c : Sub)  : (State.noteInner s l c).pending = s.pending ∧ (State.noteInner s l c).tck.now = s.tck.now ∧ (State.noteInner s l c).mem = s.mem := by
  unfold State.noteInner
  repeat' first
    | (simp only [implies_true, and_self, and_true, true_and, apply_ite State.pending, apply_ite State.mem, apply_ite State.tck, apply_ite TckSt.now]; done)
    | (simp (maxDischargeDepth := 8) only [foldl_PMN, implies_true, and_self, and_true, true_and, apply_ite State.pending, apply_ite State.mem, apply_ite State.tck, apply_ite TckSt.now]; done)
    | (with_reducible refine foldl_PMN _ _ _ (fun s a => ?_))
    | split
    | (simp only [implies_true, and_self, and_true, true_and, apply_ite State.pending, apply_ite State.mem, apply_ite State.tck, apply_ite TckSt.now])

theorem State.noteOuter_frame (s : State) (l : Nat) (y : Int)  : (State.noteOuter s l y).pending = s.pending ∧ (State.noteOuter s l y).tck.now = s.tck.now ∧ (State.noteOuter s l y).mem = s.mem := by
  unfold State.noteOuter
  repeat' first
    | (simp only [implies_true, and_self, and_true, true_and, apply_ite State.pending, apply_ite State.mem, apply_ite State.tck, apply_ite TckSt.now]; done)
    | (simp (maxDischargeDepth := 8) only [foldl_PMN, implies_true, and_self, and_true, true_and, apply_ite State.pending, apply_ite State.mem, apply_ite State.tck, apply_ite TckSt.now]; done)
    | (with_reducible refine foldl_PMN _ _ _ (fun s a => ?_))
    | split
    | (simp only [implies_true, and_self, and_true, true_and, apply_ite State.pending, apply_ite State.mem, apply_ite State.tck, apply_ite TckSt.now])

theorem State.satWatch_frame (s : State) (e l : Nat) (sat : Bool)  : (State.satWatch s e l sat).pending = s.pending ∧ (State.satWatch s e l sat).tck.now = s.tck.now ∧ (State.satWatch s e l sat).mem = s.mem := by
  unfold State.satWatch
  repeat' first
    | (simp only [implies_true, and_self, and_true, true_and, apply_ite State.pending, apply_ite State.mem, apply_ite State.tck, apply_ite TckSt.now, State.setLoop_frame, State.setRegN_frame, State.raise_frame]; done)
    | (simp (maxDischargeDepth := 8) only [foldl_PMN, implies_true, and_self, and_true, true_and, apply_ite State.pending, apply_ite State.mem, apply_ite State.tck, apply_ite TckSt.now, State.setLoop_frame, State.setRegN_frame, State.raise_frame]; done)
    | (with_reducible refine foldl_PMN _ _ _ (fun s a => ?_))
    | split
    | (simp only [implies_true, and_self, and_true, true_and, apply_ite State.pending, apply_ite State.mem, apply_ite State.tck, apply_ite TckSt.now, State.setLoop_frame, State.setRegN_frame, State.raise_frame])

theorem State.innerUpdate_frame (s o : State) (e l : Nat)  : (State.innerUpdate s o e l).pending = s.pending ∧ (State.innerUpdate s o e l).tck.now = s.tck.now ∧ (State.innerUpdate s o e l).mem = s.mem := by
  unfold State.innerUpdate
  repeat' first
    | (simp only [implies_true, and_self, and_true, true_and, apply_ite State.pending, apply_ite State.mem, apply_ite State.tck, apply_ite TckSt.now, State.setLoop_frame, State.noteInner_frame, State.satWatch_frame]; done)
    | (simp (maxDischargeDepth := 8) only [foldl_PMN, implies_true, and_self, and_true, true_and, apply_ite State.pending, apply_ite State.mem, apply_ite State.tck, apply_ite TckSt.now, State.setLoop_frame, State.noteInner_frame, State.satWatch_frame]; done)
    | (with_reducible refine foldl_PMN _ _ _ (fun s a => ?_))
    | split
    | (simp only [implies_true, and_self, and_true, true_and, apply_ite State.pending, apply_ite State.mem, apply_ite State.tck, apply_ite TckSt.now, State.setLoop_frame, State.noteInner_frame, State.satWatch_frame])

theorem State.directUpdate_frame (s o : State) (e l : Nat)  : (State.directUpdate s o e l).pending = s.pending ∧ (State.directUpdate s o e l).tck.now = s.tck.now ∧ (State.directUpdate s o e l).mem = s.mem := by
  unfold State.directUpdate
  repeat' first
    | (simp only [implies_true, and_self, and_true, true_and, apply_ite State.pending, apply_ite State.mem, apply_ite State.tck, apply_ite TckSt.now, State.setLoop_frame, State.noteInner_frame, State.satWatch_frame]; done)
    | (simp (maxDischargeDepth := 8) only [foldl_PMN, implies_true, and_self, and_true, true_and, apply_ite State.pending, apply_ite State.mem, apply_ite State.tck, apply_ite TckSt.now, State.setLoop_frame, State.noteInner_frame, State.satWatch_frame]; done)
    | (with_reducible refine foldl_PMN _ _ _ (fun s a => ?_))
    | split
    | (simp only [implies_true, and_self, and_true, true_and, apply_ite State.pending, apply_ite State.mem, apply_ite State.tck, apply_ite TckSt.now, State.setLoop_frame, State.noteInner_frame, State.satWatch_frame])

theorem State.outerUpdate_frame (s o : State) (e w : Nat)  : (State.outerUpdate s o e w).pending = s.pending ∧ (State.outerUpdate s o e w).tck.now = s.tck.now ∧ (State.outerUpdate s o e w).mem = s.mem := by
  unfold State.outerUpdate
  repeat' first
    | (simp only [implies_true, and_self, and_true, true_and, apply_ite State.pending, apply_ite State.mem, apply_ite State.tck, apply_ite TckSt.now, State.setLoop_frame, State.count_frame, State.noteOuter_frame, State.raise_frame]; done)
    | (simp (maxDischargeDepth := 8) only [foldl_PMN, implies_true, and_self, and_true, true_and, apply_ite State.pending, apply_ite State.mem, apply_ite State.tck, apply_ite TckSt.now, State.setLoop_frame, State.count_frame, State.noteOuter_frame, State.raise_frame]; done)
    | (with_reducible refine foldl_PMN _ _ _ (fun s a => ?_))
    | split
    | (simp only [implies_true, and_self, and_true, true_and, apply_ite State.pending, apply_ite State.mem, apply_ite State.tck, apply_ite TckSt.now, State.setLoop_frame, State.count_frame, State.noteOuter_frame, State.raise_frame])

theorem State.update_frame (s o : State) (e w : Nat)  : (State.update s o e w).pending = s.pending ∧ (State.update s o e w).tck.now = s.tck.now ∧ (State.update s o e w).mem = s.mem := by
  unfold State.update
  repeat' first
    | (simp only [implies_true, and_self, and_true, true_and, apply_ite State.pending, apply_ite State.mem, apply_ite State.tck, apply_ite TckSt.now, State.innerUpdate_frame, State.outerUpdate_frame, State.directUpdate_frame]; done)
    | (simp (maxDischargeDepth := 8) only [foldl_PMN, implies_true, and_self, and_true, true_and, apply_ite State.pending, apply_ite State.mem, apply_ite State.tck, apply_ite TckSt.now, State.innerUpdate_frame, State.outerUpdate_frame, State.directUpdate_frame]; done)
    | (with_reducible refine foldl_PMN _ _ _ (fun s a => ?_))
    | split
    | (simp only [implies_true, and_self, and_true, true_and, apply_ite State.pending, apply_ite State.mem, apply_ite State.tck, apply_ite TckSt.now, State.innerUpdate_frame, State.outerUpdate_frame, State.directUpdate_frame])

theorem State.skipIdle_frame (s : State) (e : Nat)  : (State.skipIdle s e).pending = s.pending ∧ (State.skipIdle s e).tck.now = s.tck.now ∧ (State.skipIdle s e).mem = s.mem := by
  unfold State.skipIdle
  repeat' first
    | (simp only [implies_true, and_self, and_true, true_and, apply_ite State.pending, apply_ite State.mem, apply_ite State.tck, apply_ite TckSt.now, State.setLoop_frame]; done)
    | (simp (maxDischargeDepth := 8) only [foldl_PMN, implies_true, and_self, and_true, true_and, apply_ite State.pending, apply_ite State.mem, apply_ite State.tck, apply_ite TckSt.now, State.setLoop_frame]; done)
    | (with_reducible refine foldl_PMN _ _ _ (fun s a => ?_))
    | split
    | (simp only [implies_true, and_self, and_true, true_and, apply_ite State.pending, apply_ite State.mem, apply_ite State.tck, apply_ite TckSt.now, State.setLoop_frame])

theorem State.countStates_frame (s : State)  : (State.countStates s).pending = s.pending ∧ (State.countStates s).tck.now = s.tck.now ∧ (State.countStates s).mem = s.mem := by
  unfold State.countStates
  repeat' first
    | (simp only [implies_true, and_self, and_true, true_and, apply_ite State.pending, apply_ite State.mem, apply_ite State.tck, apply_ite TckSt.now]; done)
    | (simp (maxDischargeDepth := 8) only [foldl_PMN, implies_true, and_self, and_true, true_and, apply_ite State.pending, apply_ite State.mem, apply_ite State.tck, apply_ite TckSt.now]; done)
    | (with_reducible refine foldl_PMN _ _ _ (fun s a => ?_))
    | split
    | (simp only [implies_true, and_self, and_true, true_and, apply_ite State.pending, apply_ite State.mem, apply_ite State.tck, apply_ite TckSt.now])

theorem State.runUpdates_frame (s : State) (stalls : List (Nat × Nat))  : (State.runUpdates s stalls).pending = s.pending ∧ (State.runUpdates s stalls).tck.now = s.tck.now ∧ (State.runUpdates s stalls).mem = s.mem := by
  unfold State.runUpdates
  refine ⟨?_, ?_, ?_⟩
  · repeat' first
      | with_reducible assumption
      | with_reducible rfl
      | (with_reducible refine alP_ite ?_ ?_)
      | (with_reducible refine Eq.trans (State.initLoop_frame ..).1 ?_)
      | (with_reducible refine Eq.trans (State.update_frame ..).1 ?_)
      | (with_reducible refine Eq.trans (State.skipIdle_frame ..).1 ?_)
      | (with_reducible refine Eq.trans (State.setFld_frame ..).1 ?_)
      | (with_reducible refine alP_fold0 _ _ _ (fun r a h => ?_) ?_)
      | (with_reducible refine alP_fold1 _ _ _ (fun r a h => ?_) ?_)
      | (with_reducible refine alP_fold2 _ _ _ (fun r a h => ?_) ?_)
      | dsimp only
      | split
  · repeat' first
      | with_reducible assumption
      | with_reducible rfl
      | (with_reducible refine alN_ite ?_ ?_)
      | (with_reducible refine Eq.trans (State.initLoop_frame ..).2.1 ?_)
      | (with_reducible refine Eq.trans (State.update_frame ..).2.1 ?_)
      | (with_reducible refine Eq.trans (State.skipIdle_frame ..).2.1 ?_)
      | (with_reducible refine Eq.trans (State.setFld_frame ..).2.1 ?_)
      | (with_reducible refine alN_fold0 _ _ _ (fun r a h => ?_) ?_)
      | (with_reducible refine alN_fold1 _ _ _ (fun r a h => ?_) ?_)
      | (with_reducible refine alN_fold2 _ _ _ (fun r a h => ?_) ?_)
      | dsimp only
      | split
  · repeat' first
      | with_reducible assumption
      | with_reducible rfl
      | (with_reducible refine alM_ite ?_ ?_)
      | (with_reducible refine Eq.trans (State.initLoop_frame ..).2.2 ?_)
      | (with_reducible refine Eq.trans (State.update_frame ..).2.2 ?_)
      | (with_reducible refine Eq.trans (State.skipIdle_frame ..).2.2 ?_)
      | (with_reducible refine Eq.trans (State.setFld_frame ..).2.2 ?_)
      | (with_reducible refine alM_fold0 _ _ _ (fun r a h => ?_) ?_)
      | (with_reducible refine alM_fold1 _ _ _ (fun r a h => ?_) ?_)
      | (with_reducible refine alM_fold2 _ _ _ (fun r a h => ?_) ?_)
      | dsimp only
      | split

theorem State.slotDrive_frame (s : State) (slot : Nat) (e : Elem)  : (State.slotDrive s slot e).pending = s.pending ∧ (State.slotDrive s slot e).tck.now = s.tck.now ∧ (State.slotDrive s slot e).mem = s.mem := by
  unfold State.slotDrive
  repeat' first
    | (simp only [implies_true, and_self, and_true, true_and, apply_ite State.pending, apply_ite State.mem, apply_ite State.tck, apply_ite TckSt.now, State.setLoop_frame]; done)
    | (simp (maxDischargeDepth := 8) only [foldl_PMN, implies_true, and_self, and_true, true_and, apply_ite State.pending, apply_ite State.mem, apply_ite State.tck, apply_ite TckSt.now, State.setLoop_frame]; done)
    | (with_reducible refine foldl_PMN _ _ _ (fun s a => ?_))
    | split
    | (simp only [implies_true, and_self, and_true, true_and, apply_ite State.pending, apply_ite State.mem, apply_ite State.tck, apply_ite TckSt.now, State.setLoop_frame])

theorem State.fixDrives_frame (s : State)  : (State.fixDrives s).pending = s.pending ∧ (State.fixDrives s).tck.now = s.tck.now ∧ (State.fixDrives s).mem = s.mem := by
  unfold State.fixDrives
  repeat' first
    | (simp only [implies_true, and_self, and_true, true_and, apply_ite State.pending, apply_ite State.mem, apply_ite State.tck, apply_ite TckSt.now, State.slotDrive_frame]; done)
    | (simp (maxDischargeDepth := 8) only [foldl_PMN, implies_true, and_self, and_true, true_and, apply_ite State.pending, apply_ite State.mem, apply_ite State.tck, apply_ite TckSt.now, State.slotDrive_frame]; done)
    | (with_reducible refine foldl_PMN _ _ _ (fun s a => ?_))
    | split
    | (simp only [implies_true, and_self, and_true, true_and, apply_ite State.pending, apply_ite State.mem, apply_ite State.tck, apply_ite TckSt.now, State.slotDrive_frame])

theorem State.closeEngine_frame (s : State) (stalled : Bool) (fault : Bool) (corr e : Nat)  : (State.closeEngine s stalled fault corr e).pending = s.pending ∧ (State.closeEngine s stalled fault corr e).tck.now = s.tck.now ∧ (State.closeEngine s stalled fault corr e).mem = s.mem := by
  unfold State.closeEngine
  repeat' first
    | (simp only [implies_true, and_self, and_true, true_and, apply_ite State.pending, apply_ite State.mem, apply_ite State.tck, apply_ite TckSt.now, State.bump_frame, State.raiseIf_frame, State.chanFault_frame, State.raise_frame, State.chanOk_frame]; done)
    | (simp (maxDischargeDepth := 8) only [foldl_PMN, implies_true, and_self, and_true, true_and, apply_ite State.pending, apply_ite State.mem, apply_ite State.tck, apply_ite TckSt.now, State.bump_frame, State.raiseIf_frame, State.chanFault_frame, State.raise_frame, State.chanOk_frame]; done)
    | (with_reducible refine foldl_PMN _ _ _ (fun s a => ?_))
    | split
    | (simp only [implies_true, and_self, and_true, true_and, apply_ite State.pending, apply_ite State.mem, apply_ite State.tck, apply_ite TckSt.now, State.bump_frame, State.raiseIf_frame, State.chanFault_frame, State.raise_frame, State.chanOk_frame])

theorem State.noteOverrun_frame (s : State) (mask : Nat) (n : Tick)  : (State.noteOverrun s mask n).pending = s.pending ∧ (State.noteOverrun s mask n).tck.now = s.tck.now ∧ (State.noteOverrun s mask n).mem = s.mem := by
  unfold State.noteOverrun
  repeat' first
    | (simp only [implies_true, and_self, and_true, true_and, apply_ite State.pending, apply_ite State.mem, apply_ite State.tck, apply_ite TckSt.now, State.count_frame, State.setRegN_frame, State.setReg64_frame, State.raise_frame]; done)
    | (simp (maxDischargeDepth := 8) only [foldl_PMN, implies_true, and_self, and_true, true_and, apply_ite State.pending, apply_ite State.mem, apply_ite State.tck, apply_ite TckSt.now, State.count_frame, State.setRegN_frame, State.setReg64_frame, State.raise_frame]; done)
    | (with_reducible refine foldl_PMN _ _ _ (fun s a => ?_))
    | split
    | (simp only [implies_true, and_self, and_true, true_and, apply_ite State.pending, apply_ite State.mem, apply_ite State.tck, apply_ite TckSt.now, State.count_frame, State.setRegN_frame, State.setReg64_frame, State.raise_frame])

theorem State.arrive_frame (s : State)  : (State.arrive s).pending = s.pending ∧ (State.arrive s).tck.now = s.tck.now ∧ (State.arrive s).mem = s.mem := by
  unfold State.arrive
  repeat' first
    | (simp only [implies_true, and_self, and_true, true_and, apply_ite State.pending, apply_ite State.mem, apply_ite State.tck, apply_ite TckSt.now, State.setLoop_frame]; done)
    | (simp (maxDischargeDepth := 8) only [foldl_PMN, implies_true, and_self, and_true, true_and, apply_ite State.pending, apply_ite State.mem, apply_ite State.tck, apply_ite TckSt.now, State.setLoop_frame]; done)
    | (with_reducible refine foldl_PMN _ _ _ (fun s a => ?_))
    | split
    | (simp only [implies_true, and_self, and_true, true_and, apply_ite State.pending, apply_ite State.mem, apply_ite State.tck, apply_ite TckSt.now, State.setLoop_frame])

theorem State.contextChange_frame (s : State) (old : Sparse Nat)  : (State.contextChange s old).pending = s.pending ∧ (State.contextChange s old).tck.now = s.tck.now ∧ (State.contextChange s old).mem = s.mem := by
  unfold State.contextChange
  repeat' first
    | (simp only [implies_true, and_self, and_true, true_and, apply_ite State.pending, apply_ite State.mem, apply_ite State.tck, apply_ite TckSt.now, State.setLoop_frame]; done)
    | (simp (maxDischargeDepth := 8) only [foldl_PMN, implies_true, and_self, and_true, true_and, apply_ite State.pending, apply_ite State.mem, apply_ite State.tck, apply_ite TckSt.now, State.setLoop_frame]; done)
    | (with_reducible refine foldl_PMN _ _ _ (fun s a => ?_))
    | split
    | (simp only [implies_true, and_self, and_true, true_and, apply_ite State.pending, apply_ite State.mem, apply_ite State.tck, apply_ite TckSt.now, State.setLoop_frame])

end Sys2Proof.Machine
end

