-- ==== Sys2Proof/Laws/FrameFab.lean ====
section
/-! SUPPORT. What every operation of Machine/Fab.lean leaves alone: the queue of waiting commands, the tick counter (unless it
writes it), and memory or its canonical form. -/

namespace Sys2Proof.Machine

set_option linter.all false
set_option Elab.async false
set_option maxRecDepth 4000

theorem State.keepDrives_frame (s : State)  : (State.keepDrives s).pending = s.pending ∧ (State.keepDrives s).tck.now = s.tck.now ∧ (State.keepDrives s).mem = s.mem := by
  unfold State.keepDrives
  repeat' first
    | (simp only [implies_true, and_self, and_true, true_and, apply_ite State.pending, apply_ite State.mem, apply_ite State.tck, apply_ite TckSt.now]; done)
    | (simp (maxDischargeDepth := 8) only [foldl_PMN, implies_true, and_self, and_true, true_and, apply_ite State.pending, apply_ite State.mem, apply_ite State.tck, apply_ite TckSt.now]; done)
    | (with_reducible refine foldl_PMN _ _ _ (fun s a => ?_))
    | split
    | (simp only [implies_true, and_self, and_true, true_and, apply_ite State.pending, apply_ite State.mem, apply_ite State.tck, apply_ite TckSt.now])

theorem State.topoPorts_frame (s : State) (t : Topo)  : (State.topoPorts s t).pending = s.pending ∧ (State.topoPorts s t).tck.now = s.tck.now ∧ (State.topoPorts s t).mem = s.mem := by
  unfold State.topoPorts
  repeat' first
    | (simp only [implies_true, and_self, and_true, true_and, apply_ite State.pending, apply_ite State.mem, apply_ite State.tck, apply_ite TckSt.now, State.setAbsent_frame, State.startAttempt_frame, State.setPortState_frame, State.setLanesUp_frame, State.trainRes_frame]; done)
    | (simp (maxDischargeDepth := 8) only [foldl_PMN, implies_true, and_self, and_true, true_and, apply_ite State.pending, apply_ite State.mem, apply_ite State.tck, apply_ite TckSt.now, State.setAbsent_frame, State.startAttempt_frame, State.setPortState_frame, State.setLanesUp_frame, State.trainRes_frame]; done)
    | (with_reducible refine foldl_PMN _ _ _ (fun s a => ?_))
    | split
    | (simp only [implies_true, and_self, and_true, true_and, apply_ite State.pending, apply_ite State.mem, apply_ite State.tck, apply_ite TckSt.now, State.setAbsent_frame, State.startAttempt_frame, State.setPortState_frame, State.setLanesUp_frame, State.trainRes_frame])

theorem State.installTopo_frame (s : State) (t : Topo) (l : List Byte)  : (State.installTopo s t l).pending = s.pending ∧ (State.installTopo s t l).tck.now = s.tck.now ∧ (Memory.wf s.mem = true → Memory.wf (State.installTopo s t l).mem = true) := by
  unfold State.installTopo
  refine (and_assoc.1 ⟨?_, fun h => ?_⟩)
  · repeat' first
      | (simp only [implies_true, and_self, and_true, true_and, apply_ite State.pending, apply_ite State.tck, apply_ite TckSt.now, State.keepDrives_frame, State.setRegN_frame, State.setBit_frame, State.defaultSafety_frame, State.clearLols_frame, State.topoPorts_frame, State.raiseIf_frame]; done)
      | (simp (maxDischargeDepth := 8) only [foldl_PN, implies_true, and_self, and_true, true_and, apply_ite State.pending, apply_ite State.tck, apply_ite TckSt.now, State.keepDrives_frame, State.setRegN_frame, State.setBit_frame, State.defaultSafety_frame, State.clearLols_frame, State.topoPorts_frame, State.raiseIf_frame]; done)
      | (with_reducible refine foldl_PN _ _ _ (fun s a => ?_))
      | split
      | (simp only [implies_true, and_self, and_true, true_and, apply_ite State.pending, apply_ite State.tck, apply_ite TckSt.now, State.keepDrives_frame, State.setRegN_frame, State.setBit_frame, State.defaultSafety_frame, State.clearLols_frame, State.topoPorts_frame, State.raiseIf_frame])
  · repeat' first
      | with_reducible assumption
      | (with_reducible refine wf_ite ?_ ?_)
      | (with_reducible refine wf_eq (State.keepDrives_frame ..).2.2 ?_)
      | (with_reducible refine wf_eq (State.setRegN_frame ..).2.2 ?_)
      | (with_reducible refine wf_eq (State.setBit_frame ..).2.2 ?_)
      | (with_reducible refine (State.defaultSafety_frame ..).2.2 ?_)
      | (with_reducible refine wf_eq (State.clearLols_frame ..).2.2 ?_)
      | (with_reducible refine wf_eq (State.topoPorts_frame ..).2.2 ?_)
      | (with_reducible refine wf_eq (State.raiseIf_frame ..).2.2 ?_)
      | (with_reducible refine foldl_wf _ _ _ (fun s a h => ?_) ?_)
      | dsimp only
      | split

theorem State.loadDesc_frame (s : State)  : (State.loadDesc s).pending = s.pending ∧ (State.loadDesc s).tck.now = s.tck.now ∧ (State.loadDesc s).mem = s.mem := by
  unfold State.loadDesc
  repeat' first
    | (simp only [implies_true, and_self, and_true, true_and, apply_ite State.pending, apply_ite State.mem, apply_ite State.tck, apply_ite TckSt.now, State.setBit_frame]; done)
    | (simp (maxDischargeDepth := 8) only [foldl_PMN, implies_true, and_self, and_true, true_and, apply_ite State.pending, apply_ite State.mem, apply_ite State.tck, apply_ite TckSt.now, State.setBit_frame]; done)
    | (with_reducible refine foldl_PMN _ _ _ (fun s a => ?_))
    | split
    | (simp only [implies_true, and_self, and_true, true_and, apply_ite State.pending, apply_ite State.mem, apply_ite State.tck, apply_ite TckSt.now, State.setBit_frame])

theorem State.descDone_frame (s : State) (data : List Byte) (busAt : Option Nat)  : (State.descDone s data busAt).pending = s.pending ∧ (State.descDone s data busAt).tck.now = s.tck.now ∧ (Memory.wf s.mem = true → Memory.wf (State.descDone s data busAt).mem = true) := by
  unfold State.descDone
  refine (and_assoc.1 ⟨?_, fun h => ?_⟩)
  · repeat' first
      | (simp only [implies_true, and_self, and_true, true_and, apply_ite State.pending, apply_ite State.tck, apply_ite TckSt.now, State.setBit_frame, State.setRegN_frame, State.installTopo_frame, State.raise_frame]; done)
      | (simp (maxDischargeDepth := 8) only [foldl_PN, implies_true, and_self, and_true, true_and, apply_ite State.pending, apply_ite State.tck, apply_ite TckSt.now, State.setBit_frame, State.setRegN_frame, State.installTopo_frame, State.raise_frame]; done)
      | (with_reducible refine foldl_PN _ _ _ (fun s a => ?_))
      | split
      | (simp only [implies_true, and_self, and_true, true_and, apply_ite State.pending, apply_ite State.tck, apply_ite TckSt.now, State.setBit_frame, State.setRegN_frame, State.installTopo_frame, State.raise_frame])
  · repeat' first
      | with_reducible assumption
      | (with_reducible refine wf_ite ?_ ?_)
      | (with_reducible refine wf_eq (State.setBit_frame ..).2.2 ?_)
      | (with_reducible refine wf_eq (State.setRegN_frame ..).2.2 ?_)
      | (with_reducible refine (State.installTopo_frame ..).2.2 ?_)
      | (with_reducible refine wf_eq (State.raise_frame ..).2.2 ?_)
      | (with_reducible refine foldl_wf _ _ _ (fun s a h => ?_) ?_)
      | dsimp only
      | split

theorem ImgRun.record_frame (r : ImgRun) (b : List Byte)  : (ImgRun.record r b).s.pending = r.s.pending ∧ (ImgRun.record r b).s.tck.now = r.s.tck.now ∧ (Memory.wf r.s.mem = true → Memory.wf (ImgRun.record r b).s.mem = true) := by
  unfold ImgRun.record
  refine (and_assoc.1 ⟨?_, fun h => ?_⟩)
  · repeat' first
      | (simp only [implies_true, and_self, and_true, true_and, apply_ite State.pending, apply_ite State.tck, apply_ite TckSt.now, State.setBytes_frame]; done)
      | (simp (maxDischargeDepth := 8) only [foldl_PN, implies_true, and_self, and_true, true_and, apply_ite State.pending, apply_ite State.tck, apply_ite TckSt.now, State.setBytes_frame]; done)
      | (with_reducible refine foldl_PN _ _ _ (fun s a => ?_))
      | split
      | (simp only [implies_true, and_self, and_true, true_and, apply_ite State.pending, apply_ite State.tck, apply_ite TckSt.now, State.setBytes_frame])
  · repeat' first
      | with_reducible assumption
      | (with_reducible refine wf_ite ?_ ?_)
      | (with_reducible refine (State.setBytes_frame ..).2.2 ?_)
      | (with_reducible refine foldl_wf _ _ _ (fun s a h => ?_) ?_)
      | dsimp only
      | split

theorem State.imgWrite_frame (s : State) (type : Nat) (b : List Byte)  : (State.imgWrite s type b).pending = s.pending ∧ (State.imgWrite s type b).tck.now = s.tck.now ∧ (Memory.wf s.mem = true → Memory.wf (State.imgWrite s type b).mem = true) := by
  unfold State.imgWrite
  refine (and_assoc.1 ⟨?_, fun h => ?_⟩)
  · repeat' first
      | (simp only [implies_true, and_self, and_true, true_and, apply_ite State.pending, apply_ite State.tck, apply_ite TckSt.now, State.installTopo_frame, State.setBytes_frame, State.clearChecked_frame, State.setRegN_frame, State.setShd_frame, State.count_frame, State.journalWords_frame, State.prtUncheck_frame, State.staleJobs_frame]; done)
      | (simp (maxDischargeDepth := 8) only [foldl_PN, implies_true, and_self, and_true, true_and, apply_ite State.pending, apply_ite State.tck, apply_ite TckSt.now, State.installTopo_frame, State.setBytes_frame, State.clearChecked_frame, State.setRegN_frame, State.setShd_frame, State.count_frame, State.journalWords_frame, State.prtUncheck_frame, State.staleJobs_frame]; done)
      | (with_reducible refine foldl_PN _ _ _ (fun s a => ?_))
      | split
      | (simp only [implies_true, and_self, and_true, true_and, apply_ite State.pending, apply_ite State.tck, apply_ite TckSt.now, State.installTopo_frame, State.setBytes_frame, State.clearChecked_frame, State.setRegN_frame, State.setShd_frame, State.count_frame, State.journalWords_frame, State.prtUncheck_frame, State.staleJobs_frame])
  · repeat' first
      | with_reducible assumption
      | (with_reducible refine wf_ite ?_ ?_)
      | (with_reducible refine (State.installTopo_frame ..).2.2 ?_)
      | (with_reducible refine (State.setBytes_frame ..).2.2 ?_)
      | (with_reducible refine wf_eq (State.clearChecked_frame ..).2.2 ?_)
      | (with_reducible refine wf_eq (State.setRegN_frame ..).2.2 ?_)
      | (with_reducible refine wf_eq (State.setShd_frame ..).2.2 ?_)
      | (with_reducible refine wf_eq (State.count_frame ..).2.2 ?_)
      | (with_reducible refine wf_eq (State.journalWords_frame ..).2.2 ?_)
      | (with_reducible refine wf_eq (State.prtUncheck_frame ..).2.2 ?_)
      | (with_reducible refine wf_eq (State.staleJobs_frame ..).2.2 ?_)
      | (with_reducible refine foldl_wf _ _ _ (fun s a h => ?_) ?_)
      | dsimp only
      | split

theorem ImgRun.topoCheck_frame (r : ImgRun) (topoId : Nat)  : (ImgRun.topoCheck r topoId).s.pending = r.s.pending ∧ (ImgRun.topoCheck r topoId).s.tck.now = r.s.tck.now ∧ (ImgRun.topoCheck r topoId).s.mem = r.s.mem := by
  unfold ImgRun.topoCheck
  repeat' first
    | (simp only [implies_true, and_self, and_true, true_and, apply_ite State.pending, apply_ite State.mem, apply_ite State.tck, apply_ite TckSt.now]; done)
    | (simp (maxDischargeDepth := 8) only [foldl_PMN, implies_true, and_self, and_true, true_and, apply_ite State.pending, apply_ite State.mem, apply_ite State.tck, apply_ite TckSt.now]; done)
    | (with_reducible refine foldl_PMN _ _ _ (fun s a => ?_))
    | split
    | (simp only [implies_true, and_self, and_true, true_and, apply_ite State.pending, apply_ite State.mem, apply_ite State.tck, apply_ite TckSt.now])

theorem ImgRun.section_frame (r : ImgRun) (img : List Byte) (stop why : Nat) (e : ImgSec)  : (ImgRun.section r img stop why e).s.pending = r.s.pending ∧ (ImgRun.section r img stop why e).s.tck.now = r.s.tck.now ∧ (Memory.wf r.s.mem = true → Memory.wf (ImgRun.section r img stop why e).s.mem = true) := by
  unfold ImgRun.section
  refine ⟨?_, ?_, fun h => ?_⟩
  · repeat' first
      | with_reducible assumption
      | with_reducible rfl
      | (with_reducible refine alP_ite ?_ ?_)
      | (with_reducible refine alP_itep2 ?_ ?_)
      | (with_reducible refine Eq.trans (ImgRun.record_frame ..).1 ?_)
      | (with_reducible refine Eq.trans (State.imgWrite_frame ..).1 ?_)
      | (with_reducible refine alP_fold3 _ _ _ (fun r a h => ?_) ?_)
      | (with_reducible refine alP_fold0 _ _ _ (fun r a h => ?_) ?_)
      | (with_reducible refine alP_fold1 _ _ _ (fun r a h => ?_) ?_)
      | (with_reducible refine alP_fold2 _ _ _ (fun r a h => ?_) ?_)
      | dsimp only
      | split
  · repeat' first
      | with_reducible assumption
      | with_reducible rfl
      | (with_reducible refine alN_ite ?_ ?_)
      | (with_reducible refine alN_itep2 ?_ ?_)
      | (with_reducible refine Eq.trans (ImgRun.record_frame ..).2.1 ?_)
      | (with_reducible refine Eq.trans (State.imgWrite_frame ..).2.1 ?_)
      | (with_reducible refine alN_fold3 _ _ _ (fun r a h => ?_) ?_)
      | (with_reducible refine alN_fold0 _ _ _ (fun r a h => ?_) ?_)
      | (with_reducible refine alN_fold1 _ _ _ (fun r a h => ?_) ?_)
      | (with_reducible refine alN_fold2 _ _ _ (fun r a h => ?_) ?_)
      | dsimp only
      | split
  · repeat' first
      | with_reducible assumption
      | with_reducible rfl
      | (with_reducible refine alW_ite ?_ ?_)
      | (with_reducible refine alW_itep2 ?_ ?_)
      | (with_reducible refine (ImgRun.record_frame ..).2.2 ?_)
      | (with_reducible refine (State.imgWrite_frame ..).2.2 ?_)
      | (with_reducible refine alW_fold3 _ _ _ (fun r a h => ?_) ?_)
      | (with_reducible refine alW_fold0 _ _ _ (fun r a h => ?_) ?_)
      | (with_reducible refine alW_fold1 _ _ _ (fun r a h => ?_) ?_)
      | (with_reducible refine alW_fold2 _ _ _ (fun r a h => ?_) ?_)
      | dsimp only
      | split

theorem ImgRun.sections_frame (r : ImgRun) (img : List Byte) (topoId stop why : Nat) (x0 : List ImgSec)  : (ImgRun.sections r img topoId stop why x0).s.pending = r.s.pending ∧ (ImgRun.sections r img topoId stop why x0).s.tck.now = r.s.tck.now ∧ (Memory.wf r.s.mem = true → Memory.wf (ImgRun.sections r img topoId stop why x0).s.mem = true) := by
  induction x0 generalizing r with
  | nil => exact ⟨rfl, rfl, id⟩
  | cons e t ih =>
    unfold ImgRun.sections
    dsimp only
    have h := ImgRun.section_frame r img stop why e
    have c := ImgRun.topoCheck_frame (r.section img stop why e) topoId
    by_cases l : (e.type == 1 && !t.any fun x => x.type == 1) = true
    · rw [if_pos l]
      have k := ih ((r.section img stop why e).topoCheck topoId)
      exact ⟨k.1.trans (c.1.trans h.1), k.2.1.trans (c.2.1.trans h.2.1), fun w => k.2.2 (c.2.2 ▸ h.2.2 w)⟩
    · rw [if_neg l]
      have k := ih (r.section img stop why e)
      exact ⟨k.1.trans h.1, k.2.1.trans h.2.1, fun w => k.2.2 (h.2.2 w)⟩

theorem ImgRun.allSections_frame (r : ImgRun) (img : List Byte) (topoId stop why : Nat) (l : List ImgSec)  : (ImgRun.allSections r img topoId stop why l).s.pending = r.s.pending ∧ (ImgRun.allSections r img topoId stop why l).s.tck.now = r.s.tck.now ∧ (Memory.wf r.s.mem = true → Memory.wf (ImgRun.allSections r img topoId stop why l).s.mem = true) := by
  unfold ImgRun.allSections
  refine (and_assoc.1 ⟨?_, fun h => ?_⟩)
  · repeat' first
      | (simp only [implies_true, and_self, and_true, true_and, apply_ite State.pending, apply_ite State.tck, apply_ite TckSt.now, ImgRun.topoCheck_frame, ImgRun.sections_frame]; done)
      | (simp (maxDischargeDepth := 8) only [foldl_PN, implies_true, and_self, and_true, true_and, apply_ite State.pending, apply_ite State.tck, apply_ite TckSt.now, ImgRun.topoCheck_frame, ImgRun.sections_frame]; done)
      | (with_reducible refine foldl_PN _ _ _ (fun s a => ?_))
      | split
      | (simp only [implies_true, and_self, and_true, true_and, apply_ite State.pending, apply_ite State.tck, apply_ite TckSt.now, ImgRun.topoCheck_frame, ImgRun.sections_frame])
  · repeat' first
      | with_reducible assumption
      | (with_reducible refine wf_ite ?_ ?_)
      | (with_reducible refine wf_eq (ImgRun.topoCheck_frame ..).2.2 ?_)
      | (with_reducible refine (ImgRun.sections_frame ..).2.2 ?_)
      | (with_reducible refine foldl_wf _ _ _ (fun s a h => ?_) ?_)
      | dsimp only
      | split

theorem State.loadImage_frame (s : State)  : (State.loadImage s).pending = s.pending ∧ (State.loadImage s).tck.now = s.tck.now ∧ (State.loadImage s).mem = s.mem := by
  unfold State.loadImage
  repeat' first
    | (simp only [implies_true, and_self, and_true, true_and, apply_ite State.pending, apply_ite State.mem, apply_ite State.tck, apply_ite TckSt.now, State.setRegN_frame, State.setBit_frame]; done)
    | (simp (maxDischargeDepth := 8) only [foldl_PMN, implies_true, and_self, and_true, true_and, apply_ite State.pending, apply_ite State.mem, apply_ite State.tck, apply_ite TckSt.now, State.setRegN_frame, State.setBit_frame]; done)
    | (with_reducible refine foldl_PMN _ _ _ (fun s a => ?_))
    | split
    | (simp only [implies_true, and_self, and_true, true_and, apply_ite State.pending, apply_ite State.mem, apply_ite State.tck, apply_ite TckSt.now, State.setRegN_frame, State.setBit_frame])

theorem State.imageEnd_frame (s : State) (img : List Byte) (stop : Option Nat) (why : Nat)  : (State.imageEnd s img stop why).pending = s.pending ∧ (State.imageEnd s img stop why).tck.now = s.tck.now ∧ (Memory.wf s.mem = true → Memory.wf (State.imageEnd s img stop why).mem = true) := by
  unfold State.imageEnd
  refine (and_assoc.1 ⟨?_, fun h => ?_⟩)
  · repeat' first
      | (simp only [implies_true, and_self, and_true, true_and, apply_ite State.pending, apply_ite State.tck, apply_ite TckSt.now, ImgRun.allSections_frame, State.setBit_frame, State.setRegN_frame, State.raise_frame]; done)
      | (simp (maxDischargeDepth := 8) only [foldl_PN, implies_true, and_self, and_true, true_and, apply_ite State.pending, apply_ite State.tck, apply_ite TckSt.now, ImgRun.allSections_frame, State.setBit_frame, State.setRegN_frame, State.raise_frame]; done)
      | (with_reducible refine foldl_PN _ _ _ (fun s a => ?_))
      | split
      | (simp only [implies_true, and_self, and_true, true_and, apply_ite State.pending, apply_ite State.tck, apply_ite TckSt.now, ImgRun.allSections_frame, State.setBit_frame, State.setRegN_frame, State.raise_frame])
  · repeat' first
      | with_reducible assumption
      | (with_reducible refine wf_ite ?_ ?_)
      | (with_reducible refine (ImgRun.allSections_frame ..).2.2 ?_)
      | (with_reducible refine wf_eq (State.setBit_frame ..).2.2 ?_)
      | (with_reducible refine wf_eq (State.setRegN_frame ..).2.2 ?_)
      | (with_reducible refine wf_eq (State.raise_frame ..).2.2 ?_)
      | (with_reducible refine foldl_wf _ _ _ (fun s a h => ?_) ?_)
      | dsimp only
      | split

theorem State.fabCtrlWrite_frame (s : State) (v : Word)  : (State.fabCtrlWrite s v).pending = s.pending ∧ (State.fabCtrlWrite s v).tck.now = s.tck.now ∧ (Memory.wf s.mem = true → Memory.wf (State.fabCtrlWrite s v).mem = true) := by
  unfold State.fabCtrlWrite
  refine (and_assoc.1 ⟨?_, fun h => ?_⟩)
  · repeat' first
      | (simp only [implies_true, and_self, and_true, true_and, apply_ite State.pending, apply_ite State.tck, apply_ite TckSt.now, State.loadDesc_frame, State.loadImage_frame, State.imageEnd_frame, State.resetMaster_frame]; done)
      | (simp (maxDischargeDepth := 8) only [foldl_PN, implies_true, and_self, and_true, true_and, apply_ite State.pending, apply_ite State.tck, apply_ite TckSt.now, State.loadDesc_frame, State.loadImage_frame, State.imageEnd_frame, State.resetMaster_frame]; done)
      | (with_reducible refine foldl_PN _ _ _ (fun s a => ?_))
      | split
      | (simp only [implies_true, and_self, and_true, true_and, apply_ite State.pending, apply_ite State.tck, apply_ite TckSt.now, State.loadDesc_frame, State.loadImage_frame, State.imageEnd_frame, State.resetMaster_frame])
  · repeat' first
      | with_reducible assumption
      | (with_reducible refine wf_ite ?_ ?_)
      | (with_reducible refine wf_eq (State.loadDesc_frame ..).2.2 ?_)
      | (with_reducible refine wf_eq (State.loadImage_frame ..).2.2 ?_)
      | (with_reducible refine (State.imageEnd_frame ..).2.2 ?_)
      | (with_reducible refine wf_eq (State.resetMaster_frame ..).2.2 ?_)
      | (with_reducible refine foldl_wf _ _ _ (fun s a h => ?_) ?_)
      | dsimp only
      | split

theorem State.retmapWrite_frame (s : State) (addr : Nat) (v : Word)  : (State.retmapWrite s addr v).pending = s.pending ∧ (State.retmapWrite s addr v).tck.now = s.tck.now ∧ (State.retmapWrite s addr v).mem = s.mem := by
  unfold State.retmapWrite
  repeat' first
    | (simp only [implies_true, and_self, and_true, true_and, apply_ite State.pending, apply_ite State.mem, apply_ite State.tck, apply_ite TckSt.now, State.staleJobs_frame, State.setReg_frame]; done)
    | (simp (maxDischargeDepth := 8) only [foldl_PMN, implies_true, and_self, and_true, true_and, apply_ite State.pending, apply_ite State.mem, apply_ite State.tck, apply_ite TckSt.now, State.staleJobs_frame, State.setReg_frame]; done)
    | (with_reducible refine foldl_PMN _ _ _ (fun s a => ?_))
    | split
    | (simp only [implies_true, and_self, and_true, true_and, apply_ite State.pending, apply_ite State.mem, apply_ite State.tck, apply_ite TckSt.now, State.staleJobs_frame, State.setReg_frame])

theorem execLoadDesc_frame (m : Fin 8) (s : State) {r : State} (e : execLoadDesc m s = .next r) : r.pending = s.pending ∧ r.tck.now = s.tck.now ∧ r.mem = s.mem := by
  unfold execLoadDesc at e
  revert e
  intro e
  refine ⟨?_, ?_, ?_⟩
  · revert e
    repeat' first
      | with_reducible assumption
      | with_reducible rfl
      | (with_reducible refine Eq.trans (State.gateWrite_frP (heff := fun _ => ?_) ..) ?_)
      | (with_reducible refine Eq.trans (State.loadDesc_frame ..).1 ?_)
      | (with_reducible refine ocP_next ?_)
      | with_reducible exact ocP_fault
      | dsimp only
      | split
  · revert e
    repeat' first
      | with_reducible assumption
      | with_reducible rfl
      | (with_reducible refine Eq.trans (State.gateWrite_frN (heff := fun _ => ?_) ..) ?_)
      | (with_reducible refine Eq.trans (State.loadDesc_frame ..).2.1 ?_)
      | (with_reducible refine ocN_next ?_)
      | with_reducible exact ocN_fault
      | dsimp only
      | split
  · revert e
    repeat' first
      | with_reducible assumption
      | with_reducible rfl
      | (with_reducible refine Eq.trans (State.gateWrite_frM (heff := fun _ => ?_) ..) ?_)
      | (with_reducible refine Eq.trans (State.loadDesc_frame ..).2.2 ?_)
      | (with_reducible refine ocM_next ?_)
      | with_reducible exact ocM_fault
      | dsimp only
      | split

theorem execLoadImage_frame (m : Fin 8) (s : State) {r : State} (e : execLoadImage m s = .next r) : r.pending = s.pending ∧ r.tck.now = s.tck.now ∧ r.mem = s.mem := by
  unfold execLoadImage at e
  revert e
  intro e
  refine ⟨?_, ?_, ?_⟩
  · revert e
    repeat' first
      | with_reducible assumption
      | with_reducible rfl
      | (with_reducible refine Eq.trans (State.gateWrite_frP (heff := fun _ => ?_) ..) ?_)
      | (with_reducible refine Eq.trans (State.loadImage_frame ..).1 ?_)
      | (with_reducible refine ocP_next ?_)
      | with_reducible exact ocP_fault
      | dsimp only
      | split
  · revert e
    repeat' first
      | with_reducible assumption
      | with_reducible rfl
      | (with_reducible refine Eq.trans (State.gateWrite_frN (heff := fun _ => ?_) ..) ?_)
      | (with_reducible refine Eq.trans (State.loadImage_frame ..).2.1 ?_)
      | (with_reducible refine ocN_next ?_)
      | with_reducible exact ocN_fault
      | dsimp only
      | split
  · revert e
    repeat' first
      | with_reducible assumption
      | with_reducible rfl
      | (with_reducible refine Eq.trans (State.gateWrite_frM (heff := fun _ => ?_) ..) ?_)
      | (with_reducible refine Eq.trans (State.loadImage_frame ..).2.2 ?_)
      | (with_reducible refine ocM_next ?_)
      | with_reducible exact ocM_fault
      | dsimp only
      | split

end Sys2Proof.Machine
end

