-- ==== Sys2Proof/Laws/FrameMea.lean ====
section
/-! SUPPORT. What every operation of Machine/Mea.lean leaves alone: the queue of waiting commands, the tick counter (unless it
writes it), and memory or its canonical form. -/

namespace Sys2Proof.Machine

set_option linter.all false
set_option Elab.async false
set_option maxRecDepth 4000

theorem State.samplePorts_frame (s : State)  : (State.samplePorts s).pending = s.pending ∧ (State.samplePorts s).tck.now = s.tck.now ∧ (State.samplePorts s).mem = s.mem := by
  unfold State.samplePorts
  refine ⟨?_, ?_, ?_⟩
  · repeat' first
      | with_reducible assumption
      | with_reducible rfl
      | (with_reducible refine alP_ite ?_ ?_)
      | (with_reducible refine alP_fold0 _ _ _ (fun r a h => ?_) ?_)
      | (with_reducible refine alP_fold1 _ _ _ (fun r a h => ?_) ?_)
      | (with_reducible refine alP_fold2 _ _ _ (fun r a h => ?_) ?_)
      | dsimp only
      | split
  · repeat' first
      | with_reducible assumption
      | with_reducible rfl
      | (with_reducible refine alN_ite ?_ ?_)
      | (with_reducible refine alN_fold0 _ _ _ (fun r a h => ?_) ?_)
      | (with_reducible refine alN_fold1 _ _ _ (fun r a h => ?_) ?_)
      | (with_reducible refine alN_fold2 _ _ _ (fun r a h => ?_) ?_)
      | dsimp only
      | split
  · repeat' first
      | with_reducible assumption
      | with_reducible rfl
      | (with_reducible refine alM_ite ?_ ?_)
      | (with_reducible refine alM_fold0 _ _ _ (fun r a h => ?_) ?_)
      | (with_reducible refine alM_fold1 _ _ _ (fun r a h => ?_) ?_)
      | (with_reducible refine alM_fold2 _ _ _ (fun r a h => ?_) ?_)
      | dsimp only
      | split

theorem State.sampleCells_frame (s : State)  : (State.sampleCells s).pending = s.pending ∧ (State.sampleCells s).tck.now = s.tck.now ∧ (State.sampleCells s).mem = s.mem := by
  unfold State.sampleCells
  repeat' first
    | (simp only [implies_true, and_self, and_true, true_and, apply_ite State.pending, apply_ite State.mem, apply_ite State.tck, apply_ite TckSt.now]; done)
    | (simp (maxDischargeDepth := 8) only [foldl_PMN, implies_true, and_self, and_true, true_and, apply_ite State.pending, apply_ite State.mem, apply_ite State.tck, apply_ite TckSt.now]; done)
    | (with_reducible refine foldl_PMN _ _ _ (fun s a => ?_))
    | split
    | (simp only [implies_true, and_self, and_true, true_and, apply_ite State.pending, apply_ite State.mem, apply_ite State.tck, apply_ite TckSt.now])

theorem State.sampleHist_frame (s : State)  : (State.sampleHist s).pending = s.pending ∧ (State.sampleHist s).tck.now = s.tck.now ∧ (State.sampleHist s).mem = s.mem := by
  unfold State.sampleHist
  repeat' first
    | (simp only [implies_true, and_self, and_true, true_and, apply_ite State.pending, apply_ite State.mem, apply_ite State.tck, apply_ite TckSt.now]; done)
    | (simp (maxDischargeDepth := 8) only [foldl_PMN, implies_true, and_self, and_true, true_and, apply_ite State.pending, apply_ite State.mem, apply_ite State.tck, apply_ite TckSt.now]; done)
    | (with_reducible refine foldl_PMN _ _ _ (fun s a => ?_))
    | split
    | (simp only [implies_true, and_self, and_true, true_and, apply_ite State.pending, apply_ite State.mem, apply_ite State.tck, apply_ite TckSt.now])

theorem State.sampleSlots_frame (s : State)  : (State.sampleSlots s).pending = s.pending ∧ (State.sampleSlots s).tck.now = s.tck.now ∧ (State.sampleSlots s).mem = s.mem := by
  unfold State.sampleSlots
  refine ⟨?_, ?_, ?_⟩
  · repeat' first
      | with_reducible assumption
      | with_reducible rfl
      | (with_reducible refine alP_ite ?_ ?_)
      | (with_reducible refine alP_fold0 _ _ _ (fun r a h => ?_) ?_)
      | (with_reducible refine alP_fold1 _ _ _ (fun r a h => ?_) ?_)
      | (with_reducible refine alP_fold2 _ _ _ (fun r a h => ?_) ?_)
      | dsimp only
      | split
  · repeat' first
      | with_reducible assumption
      | with_reducible rfl
      | (with_reducible refine alN_ite ?_ ?_)
      | (with_reducible refine alN_fold0 _ _ _ (fun r a h => ?_) ?_)
      | (with_reducible refine alN_fold1 _ _ _ (fun r a h => ?_) ?_)
      | (with_reducible refine alN_fold2 _ _ _ (fun r a h => ?_) ?_)
      | dsimp only
      | split
  · repeat' first
      | with_reducible assumption
      | with_reducible rfl
      | (with_reducible refine alM_ite ?_ ?_)
      | (with_reducible refine alM_fold0 _ _ _ (fun r a h => ?_) ?_)
      | (with_reducible refine alM_fold1 _ _ _ (fun r a h => ?_) ?_)
      | (with_reducible refine alM_fold2 _ _ _ (fun r a h => ?_) ?_)
      | dsimp only
      | split

theorem State.sampleImpl_frame (s : State)  : (State.sampleImpl s).pending = s.pending ∧ (State.sampleImpl s).tck.now = s.tck.now ∧ (State.sampleImpl s).mem = s.mem := by
  unfold State.sampleImpl
  repeat' first
    | (simp only [implies_true, and_self, and_true, true_and, apply_ite State.pending, apply_ite State.mem, apply_ite State.tck, apply_ite TckSt.now, State.count_frame, State.raiseIf_frame]; done)
    | (simp (maxDischargeDepth := 8) only [foldl_PMN, implies_true, and_self, and_true, true_and, apply_ite State.pending, apply_ite State.mem, apply_ite State.tck, apply_ite TckSt.now, State.count_frame, State.raiseIf_frame]; done)
    | (with_reducible refine foldl_PMN _ _ _ (fun s a => ?_))
    | split
    | (simp only [implies_true, and_self, and_true, true_and, apply_ite State.pending, apply_ite State.mem, apply_ite State.tck, apply_ite TckSt.now, State.count_frame, State.raiseIf_frame])

theorem State.ringDrop_frame (s : State)  : (State.ringDrop s).pending = s.pending ∧ (State.ringDrop s).tck.now = s.tck.now ∧ (State.ringDrop s).mem = s.mem := by
  unfold State.ringDrop
  repeat' first
    | (simp only [implies_true, and_self, and_true, true_and, apply_ite State.pending, apply_ite State.mem, apply_ite State.tck, apply_ite TckSt.now, State.bump_frame, State.setBit_frame, State.raise_frame]; done)
    | (simp (maxDischargeDepth := 8) only [foldl_PMN, implies_true, and_self, and_true, true_and, apply_ite State.pending, apply_ite State.mem, apply_ite State.tck, apply_ite TckSt.now, State.bump_frame, State.setBit_frame, State.raise_frame]; done)
    | (with_reducible refine foldl_PMN _ _ _ (fun s a => ?_))
    | split
    | (simp only [implies_true, and_self, and_true, true_and, apply_ite State.pending, apply_ite State.mem, apply_ite State.tck, apply_ite TckSt.now, State.bump_frame, State.setBit_frame, State.raise_frame])

theorem State.toRing_frame (s : State) (type flags len tick : Nat) (payload : List Byte)  : (State.toRing s type flags len tick payload).1.pending = s.pending ∧ (State.toRing s type flags len tick payload).1.tck.now = s.tck.now ∧ (State.toRing s type flags len tick payload).1.mem = s.mem := by
  unfold State.toRing
  repeat' first
    | (simp only [implies_true, and_self, and_true, true_and, apply_ite State.pending, apply_ite State.mem, apply_ite State.tck, apply_ite TckSt.now, State.ringDrop_frame, State.emit_frame, State.setRegN_frame, State.setBit_frame]; done)
    | (simp (maxDischargeDepth := 8) only [foldl_PMN, implies_true, and_self, and_true, true_and, apply_ite State.pending, apply_ite State.mem, apply_ite State.tck, apply_ite TckSt.now, State.ringDrop_frame, State.emit_frame, State.setRegN_frame, State.setBit_frame]; done)
    | (with_reducible refine foldl_PMN _ _ _ (fun s a => ?_))
    | split
    | (simp only [implies_true, and_self, and_true, true_and, apply_ite State.pending, apply_ite State.mem, apply_ite State.tck, apply_ite TckSt.now, State.ringDrop_frame, State.emit_frame, State.setRegN_frame, State.setBit_frame])

theorem State.uplDrop_frame (s : State) (n : Nat)  : (State.uplDrop s n).pending = s.pending ∧ (State.uplDrop s n).tck.now = s.tck.now ∧ (State.uplDrop s n).mem = s.mem := by
  unfold State.uplDrop
  repeat' first
    | (simp only [implies_true, and_self, and_true, true_and, apply_ite State.pending, apply_ite State.mem, apply_ite State.tck, apply_ite TckSt.now, State.bump_frame, State.raiseIf_frame]; done)
    | (simp (maxDischargeDepth := 8) only [foldl_PMN, implies_true, and_self, and_true, true_and, apply_ite State.pending, apply_ite State.mem, apply_ite State.tck, apply_ite TckSt.now, State.bump_frame, State.raiseIf_frame]; done)
    | (with_reducible refine foldl_PMN _ _ _ (fun s a => ?_))
    | split
    | (simp only [implies_true, and_self, and_true, true_and, apply_ite State.pending, apply_ite State.mem, apply_ite State.tck, apply_ite TckSt.now, State.bump_frame, State.raiseIf_frame])

theorem State.uplFlush_frame (s : State)  : (State.uplFlush s).pending = s.pending ∧ (State.uplFlush s).tck.now = s.tck.now ∧ (State.uplFlush s).mem = s.mem := by
  unfold State.uplFlush
  repeat' first
    | (simp only [implies_true, and_self, and_true, true_and, apply_ite State.pending, apply_ite State.mem, apply_ite State.tck, apply_ite TckSt.now]; done)
    | (simp (maxDischargeDepth := 8) only [foldl_PMN, implies_true, and_self, and_true, true_and, apply_ite State.pending, apply_ite State.mem, apply_ite State.tck, apply_ite TckSt.now]; done)
    | (with_reducible refine foldl_PMN _ _ _ (fun s a => ?_))
    | split
    | (simp only [implies_true, and_self, and_true, true_and, apply_ite State.pending, apply_ite State.mem, apply_ite State.tck, apply_ite TckSt.now])

theorem State.toUplink_frame (s : State) (type flags len tick : Nat) (payload : List Byte)  : (State.toUplink s type flags len tick payload).1.pending = s.pending ∧ (State.toUplink s type flags len tick payload).1.tck.now = s.tck.now ∧ (State.toUplink s type flags len tick payload).1.mem = s.mem := by
  unfold State.toUplink
  repeat' first
    | (simp only [implies_true, and_self, and_true, true_and, apply_ite State.pending, apply_ite State.mem, apply_ite State.tck, apply_ite TckSt.now, State.uplDrop_frame, State.uplFlush_frame]; done)
    | (simp (maxDischargeDepth := 8) only [foldl_PMN, implies_true, and_self, and_true, true_and, apply_ite State.pending, apply_ite State.mem, apply_ite State.tck, apply_ite TckSt.now, State.uplDrop_frame, State.uplFlush_frame]; done)
    | (with_reducible refine foldl_PMN _ _ _ (fun s a => ?_))
    | split
    | (simp only [implies_true, and_self, and_true, true_and, apply_ite State.pending, apply_ite State.mem, apply_ite State.tck, apply_ite TckSt.now, State.uplDrop_frame, State.uplFlush_frame])

theorem State.emitRec_frame (s : State) (type flags len tick : Nat) (payload : List Byte)  : (State.emitRec s type flags len tick payload).pending = s.pending ∧ (State.emitRec s type flags len tick payload).tck.now = s.tck.now ∧ (State.emitRec s type flags len tick payload).mem = s.mem := by
  unfold State.emitRec
  repeat' first
    | (simp only [implies_true, and_self, and_true, true_and, apply_ite State.pending, apply_ite State.mem, apply_ite State.tck, apply_ite TckSt.now, State.toRing_frame, State.toUplink_frame]; done)
    | (simp (maxDischargeDepth := 8) only [foldl_PMN, implies_true, and_self, and_true, true_and, apply_ite State.pending, apply_ite State.mem, apply_ite State.tck, apply_ite TckSt.now, State.toRing_frame, State.toUplink_frame]; done)
    | (with_reducible refine foldl_PMN _ _ _ (fun s a => ?_))
    | split
    | (simp only [implies_true, and_self, and_true, true_and, apply_ite State.pending, apply_ite State.mem, apply_ite State.tck, apply_ite TckSt.now, State.toRing_frame, State.toUplink_frame])

theorem State.emitEnd_frame (s : State) (tick : Nat)  : (State.emitEnd s tick).pending = s.pending ∧ (State.emitEnd s tick).tck.now = s.tck.now ∧ (State.emitEnd s tick).mem = s.mem := by
  unfold State.emitEnd
  repeat' first
    | (simp only [implies_true, and_self, and_true, true_and, apply_ite State.pending, apply_ite State.mem, apply_ite State.tck, apply_ite TckSt.now, State.toRing_frame, State.toUplink_frame, State.raiseIf_frame]; done)
    | (simp (maxDischargeDepth := 8) only [foldl_PMN, implies_true, and_self, and_true, true_and, apply_ite State.pending, apply_ite State.mem, apply_ite State.tck, apply_ite TckSt.now, State.toRing_frame, State.toUplink_frame, State.raiseIf_frame]; done)
    | (with_reducible refine foldl_PMN _ _ _ (fun s a => ?_))
    | split
    | (simp only [implies_true, and_self, and_true, true_and, apply_ite State.pending, apply_ite State.mem, apply_ite State.tck, apply_ite TckSt.now, State.toRing_frame, State.toUplink_frame, State.raiseIf_frame])

theorem State.emitPorts_frame (s : State) (t : Nat)  : (State.emitPorts s t).pending = s.pending ∧ (State.emitPorts s t).tck.now = s.tck.now ∧ (State.emitPorts s t).mem = s.mem := by
  unfold State.emitPorts
  refine ⟨?_, ?_, ?_⟩
  · repeat' first
      | with_reducible assumption
      | with_reducible rfl
      | (with_reducible refine alP_ite ?_ ?_)
      | (with_reducible refine Eq.trans (State.emitRec_frame ..).1 ?_)
      | (with_reducible refine Eq.trans (State.count_frame ..).1 ?_)
      | (with_reducible refine alP_fold0 _ _ _ (fun r a h => ?_) ?_)
      | (with_reducible refine alP_fold1 _ _ _ (fun r a h => ?_) ?_)
      | (with_reducible refine alP_fold2 _ _ _ (fun r a h => ?_) ?_)
      | dsimp only
      | split
  · repeat' first
      | with_reducible assumption
      | with_reducible rfl
      | (with_reducible refine alN_ite ?_ ?_)
      | (with_reducible refine Eq.trans (State.emitRec_frame ..).2.1 ?_)
      | (with_reducible refine Eq.trans (State.count_frame ..).2.1 ?_)
      | (with_reducible refine alN_fold0 _ _ _ (fun r a h => ?_) ?_)
      | (with_reducible refine alN_fold1 _ _ _ (fun r a h => ?_) ?_)
      | (with_reducible refine alN_fold2 _ _ _ (fun r a h => ?_) ?_)
      | dsimp only
      | split
  · repeat' first
      | with_reducible assumption
      | with_reducible rfl
      | (with_reducible refine alM_ite ?_ ?_)
      | (with_reducible refine Eq.trans (State.emitRec_frame ..).2.2 ?_)
      | (with_reducible refine Eq.trans (State.count_frame ..).2.2 ?_)
      | (with_reducible refine alM_fold0 _ _ _ (fun r a h => ?_) ?_)
      | (with_reducible refine alM_fold1 _ _ _ (fun r a h => ?_) ?_)
      | (with_reducible refine alM_fold2 _ _ _ (fun r a h => ?_) ?_)
      | dsimp only
      | split

theorem State.emitSlots_frame (s : State) (t : Nat)  : (State.emitSlots s t).pending = s.pending ∧ (State.emitSlots s t).tck.now = s.tck.now ∧ (State.emitSlots s t).mem = s.mem := by
  unfold State.emitSlots
  repeat' first
    | (simp only [implies_true, and_self, and_true, true_and, apply_ite State.pending, apply_ite State.mem, apply_ite State.tck, apply_ite TckSt.now, State.emitRec_frame, State.count_frame]; done)
    | (simp (maxDischargeDepth := 8) only [foldl_PMN, implies_true, and_self, and_true, true_and, apply_ite State.pending, apply_ite State.mem, apply_ite State.tck, apply_ite TckSt.now, State.emitRec_frame, State.count_frame]; done)
    | (with_reducible refine foldl_PMN _ _ _ (fun s a => ?_))
    | split
    | (simp only [implies_true, and_self, and_true, true_and, apply_ite State.pending, apply_ite State.mem, apply_ite State.tck, apply_ite TckSt.now, State.emitRec_frame, State.count_frame])

theorem State.emitMons_frame (s : State) (t : Nat)  : (State.emitMons s t).pending = s.pending ∧ (State.emitMons s t).tck.now = s.tck.now ∧ (State.emitMons s t).mem = s.mem := by
  unfold State.emitMons
  repeat' first
    | (simp only [implies_true, and_self, and_true, true_and, apply_ite State.pending, apply_ite State.mem, apply_ite State.tck, apply_ite TckSt.now, State.emitRec_frame]; done)
    | (simp (maxDischargeDepth := 8) only [foldl_PMN, implies_true, and_self, and_true, true_and, apply_ite State.pending, apply_ite State.mem, apply_ite State.tck, apply_ite TckSt.now, State.emitRec_frame]; done)
    | (with_reducible refine foldl_PMN _ _ _ (fun s a => ?_))
    | split
    | (simp only [implies_true, and_self, and_true, true_and, apply_ite State.pending, apply_ite State.mem, apply_ite State.tck, apply_ite TckSt.now, State.emitRec_frame])

theorem State.emitHists_frame (s : State) (t : Nat)  : (State.emitHists s t).pending = s.pending ∧ (State.emitHists s t).tck.now = s.tck.now ∧ (State.emitHists s t).mem = s.mem := by
  unfold State.emitHists
  repeat' first
    | (simp only [implies_true, and_self, and_true, true_and, apply_ite State.pending, apply_ite State.mem, apply_ite State.tck, apply_ite TckSt.now, State.emitRec_frame]; done)
    | (simp (maxDischargeDepth := 8) only [foldl_PMN, implies_true, and_self, and_true, true_and, apply_ite State.pending, apply_ite State.mem, apply_ite State.tck, apply_ite TckSt.now, State.emitRec_frame]; done)
    | (with_reducible refine foldl_PMN _ _ _ (fun s a => ?_))
    | split
    | (simp only [implies_true, and_self, and_true, true_and, apply_ite State.pending, apply_ite State.mem, apply_ite State.tck, apply_ite TckSt.now, State.emitRec_frame])

theorem State.emitCells_frame (s : State) (t : Nat)  : (State.emitCells s t).pending = s.pending ∧ (State.emitCells s t).tck.now = s.tck.now ∧ (State.emitCells s t).mem = s.mem := by
  unfold State.emitCells
  repeat' first
    | (simp only [implies_true, and_self, and_true, true_and, apply_ite State.pending, apply_ite State.mem, apply_ite State.tck, apply_ite TckSt.now, State.emitRec_frame]; done)
    | (simp (maxDischargeDepth := 8) only [foldl_PMN, implies_true, and_self, and_true, true_and, apply_ite State.pending, apply_ite State.mem, apply_ite State.tck, apply_ite TckSt.now, State.emitRec_frame]; done)
    | (with_reducible refine foldl_PMN _ _ _ (fun s a => ?_))
    | split
    | (simp only [implies_true, and_self, and_true, true_and, apply_ite State.pending, apply_ite State.mem, apply_ite State.tck, apply_ite TckSt.now, State.emitRec_frame])

theorem State.emitLoops_frame (s : State) (t : Nat)  : (State.emitLoops s t).pending = s.pending ∧ (State.emitLoops s t).tck.now = s.tck.now ∧ (State.emitLoops s t).mem = s.mem := by
  unfold State.emitLoops
  repeat' first
    | (simp only [implies_true, and_self, and_true, true_and, apply_ite State.pending, apply_ite State.mem, apply_ite State.tck, apply_ite TckSt.now, State.emitRec_frame]; done)
    | (simp (maxDischargeDepth := 8) only [foldl_PMN, implies_true, and_self, and_true, true_and, apply_ite State.pending, apply_ite State.mem, apply_ite State.tck, apply_ite TckSt.now, State.emitRec_frame]; done)
    | (with_reducible refine foldl_PMN _ _ _ (fun s a => ?_))
    | split
    | (simp only [implies_true, and_self, and_true, true_and, apply_ite State.pending, apply_ite State.mem, apply_ite State.tck, apply_ite TckSt.now, State.emitRec_frame])

theorem State.windowBegin_frame (s : State) (n : Tick)  : (State.windowBegin s n).pending = s.pending ∧ (State.windowBegin s n).tck.now = s.tck.now ∧ (State.windowBegin s n).mem = s.mem := by
  unfold State.windowBegin
  repeat' first
    | (simp only [implies_true, and_self, and_true, true_and, apply_ite State.pending, apply_ite State.mem, apply_ite State.tck, apply_ite TckSt.now, State.setReg_frame, State.setFld_frame, State.setBit_frame, State.raiseIf_frame]; done)
    | (simp (maxDischargeDepth := 8) only [foldl_PMN, implies_true, and_self, and_true, true_and, apply_ite State.pending, apply_ite State.mem, apply_ite State.tck, apply_ite TckSt.now, State.setReg_frame, State.setFld_frame, State.setBit_frame, State.raiseIf_frame]; done)
    | (with_reducible refine foldl_PMN _ _ _ (fun s a => ?_))
    | split
    | (simp only [implies_true, and_self, and_true, true_and, apply_ite State.pending, apply_ite State.mem, apply_ite State.tck, apply_ite TckSt.now, State.setReg_frame, State.setFld_frame, State.setBit_frame, State.raiseIf_frame])

theorem State.windowEnd_frame (s : State)  : (State.windowEnd s).pending = s.pending ∧ (State.windowEnd s).tck.now = s.tck.now ∧ (State.windowEnd s).mem = s.mem := by
  unfold State.windowEnd
  repeat' first
    | (simp only [implies_true, and_self, and_true, true_and, apply_ite State.pending, apply_ite State.mem, apply_ite State.tck, apply_ite TckSt.now, State.emitPorts_frame, State.emitSlots_frame, State.emitMons_frame, State.emitHists_frame, State.emitCells_frame, State.emitLoops_frame, State.emitEnd_frame, State.windowBegin_frame]; done)
    | (simp (maxDischargeDepth := 8) only [foldl_PMN, implies_true, and_self, and_true, true_and, apply_ite State.pending, apply_ite State.mem, apply_ite State.tck, apply_ite TckSt.now, State.emitPorts_frame, State.emitSlots_frame, State.emitMons_frame, State.emitHists_frame, State.emitCells_frame, State.emitLoops_frame, State.emitEnd_frame, State.windowBegin_frame]; done)
    | (with_reducible refine foldl_PMN _ _ _ (fun s a => ?_))
    | split
    | (simp only [implies_true, and_self, and_true, true_and, apply_ite State.pending, apply_ite State.mem, apply_ite State.tck, apply_ite TckSt.now, State.emitPorts_frame, State.emitSlots_frame, State.emitMons_frame, State.emitHists_frame, State.emitCells_frame, State.emitLoops_frame, State.emitEnd_frame, State.windowBegin_frame])

theorem State.sampleAll_frame (s : State)  : (State.sampleAll s).pending = s.pending ∧ (State.sampleAll s).tck.now = s.tck.now ∧ (State.sampleAll s).mem = s.mem := by
  unfold State.sampleAll
  repeat' first
    | (simp only [implies_true, and_self, and_true, true_and, apply_ite State.pending, apply_ite State.mem, apply_ite State.tck, apply_ite TckSt.now, State.windowEnd_frame, State.windowBegin_frame, State.sampleImpl_frame, State.samplePorts_frame, State.sampleCells_frame, State.sampleHist_frame, State.sampleSlots_frame]; done)
    | (simp (maxDischargeDepth := 8) only [foldl_PMN, implies_true, and_self, and_true, true_and, apply_ite State.pending, apply_ite State.mem, apply_ite State.tck, apply_ite TckSt.now, State.windowEnd_frame, State.windowBegin_frame, State.sampleImpl_frame, State.samplePorts_frame, State.sampleCells_frame, State.sampleHist_frame, State.sampleSlots_frame]; done)
    | (with_reducible refine foldl_PMN _ _ _ (fun s a => ?_))
    | split
    | (simp only [implies_true, and_self, and_true, true_and, apply_ite State.pending, apply_ite State.mem, apply_ite State.tck, apply_ite TckSt.now, State.windowEnd_frame, State.windowBegin_frame, State.sampleImpl_frame, State.samplePorts_frame, State.sampleCells_frame, State.sampleHist_frame, State.sampleSlots_frame])

theorem State.windowSettle_frame (s : State)  : (State.windowSettle s).pending = s.pending ∧ (State.windowSettle s).tck.now = s.tck.now ∧ (State.windowSettle s).mem = s.mem := by
  unfold State.windowSettle
  repeat' first
    | (simp only [implies_true, and_self, and_true, true_and, apply_ite State.pending, apply_ite State.mem, apply_ite State.tck, apply_ite TckSt.now, State.windowEnd_frame]; done)
    | (simp (maxDischargeDepth := 8) only [foldl_PMN, implies_true, and_self, and_true, true_and, apply_ite State.pending, apply_ite State.mem, apply_ite State.tck, apply_ite TckSt.now, State.windowEnd_frame]; done)
    | (with_reducible refine foldl_PMN _ _ _ (fun s a => ?_))
    | split
    | (simp only [implies_true, and_self, and_true, true_and, apply_ite State.pending, apply_ite State.mem, apply_ite State.tck, apply_ite TckSt.now, State.windowEnd_frame])

theorem State.meaWinTakes_frame (s : State)  : (State.meaWinTakes s).pending = s.pending ∧ (State.meaWinTakes s).tck.now = s.tck.now ∧ (State.meaWinTakes s).mem = s.mem := by
  unfold State.meaWinTakes
  repeat' first
    | (simp only [implies_true, and_self, and_true, true_and, apply_ite State.pending, apply_ite State.mem, apply_ite State.tck, apply_ite TckSt.now, State.windowSettle_frame]; done)
    | (simp (maxDischargeDepth := 8) only [foldl_PMN, implies_true, and_self, and_true, true_and, apply_ite State.pending, apply_ite State.mem, apply_ite State.tck, apply_ite TckSt.now, State.windowSettle_frame]; done)
    | (with_reducible refine foldl_PMN _ _ _ (fun s a => ?_))
    | split
    | (simp only [implies_true, and_self, and_true, true_and, apply_ite State.pending, apply_ite State.mem, apply_ite State.tck, apply_ite TckSt.now, State.windowSettle_frame])

theorem State.meaWinWrite_frame (s : State) (v : Word)  : (State.meaWinWrite s v).pending = s.pending ∧ (State.meaWinWrite s v).tck.now = s.tck.now ∧ (State.meaWinWrite s v).mem = s.mem := by
  unfold State.meaWinWrite
  repeat' first
    | (simp only [implies_true, and_self, and_true, true_and, apply_ite State.pending, apply_ite State.mem, apply_ite State.tck, apply_ite TckSt.now, State.storeReg_frame, State.meaWinTakes_frame]; done)
    | (simp (maxDischargeDepth := 8) only [foldl_PMN, implies_true, and_self, and_true, true_and, apply_ite State.pending, apply_ite State.mem, apply_ite State.tck, apply_ite TckSt.now, State.storeReg_frame, State.meaWinTakes_frame]; done)
    | (with_reducible refine foldl_PMN _ _ _ (fun s a => ?_))
    | split
    | (simp only [implies_true, and_self, and_true, true_and, apply_ite State.pending, apply_ite State.mem, apply_ite State.tck, apply_ite TckSt.now, State.storeReg_frame, State.meaWinTakes_frame])

theorem State.meaEnTakes_frame (s : State)  : (State.meaEnTakes s).pending = s.pending ∧ (State.meaEnTakes s).tck.now = s.tck.now ∧ (State.meaEnTakes s).mem = s.mem := by
  unfold State.meaEnTakes
  repeat' first
    | (simp only [implies_true, and_self, and_true, true_and, apply_ite State.pending, apply_ite State.mem, apply_ite State.tck, apply_ite TckSt.now, State.windowSettle_frame]; done)
    | (simp (maxDischargeDepth := 8) only [foldl_PMN, implies_true, and_self, and_true, true_and, apply_ite State.pending, apply_ite State.mem, apply_ite State.tck, apply_ite TckSt.now, State.windowSettle_frame]; done)
    | (with_reducible refine foldl_PMN _ _ _ (fun s a => ?_))
    | split
    | (simp only [implies_true, and_self, and_true, true_and, apply_ite State.pending, apply_ite State.mem, apply_ite State.tck, apply_ite TckSt.now, State.windowSettle_frame])

theorem State.meaCtrlWrite_frame (s : State) (v : Word)  : (State.meaCtrlWrite s v).pending = s.pending ∧ (State.meaCtrlWrite s v).tck.now = s.tck.now ∧ (State.meaCtrlWrite s v).mem = s.mem := by
  unfold State.meaCtrlWrite
  repeat' first
    | (simp only [implies_true, and_self, and_true, true_and, apply_ite State.pending, apply_ite State.mem, apply_ite State.tck, apply_ite TckSt.now, State.storeReg_frame, State.meaEnTakes_frame, State.resetMaster_frame]; done)
    | (simp (maxDischargeDepth := 8) only [foldl_PMN, implies_true, and_self, and_true, true_and, apply_ite State.pending, apply_ite State.mem, apply_ite State.tck, apply_ite TckSt.now, State.storeReg_frame, State.meaEnTakes_frame, State.resetMaster_frame]; done)
    | (with_reducible refine foldl_PMN _ _ _ (fun s a => ?_))
    | split
    | (simp only [implies_true, and_self, and_true, true_and, apply_ite State.pending, apply_ite State.mem, apply_ite State.tck, apply_ite TckSt.now, State.storeReg_frame, State.meaEnTakes_frame, State.resetMaster_frame])

theorem State.meaRestart_frame (s : State)  : (State.meaRestart s).pending = s.pending ∧ (State.meaRestart s).tck.now = s.tck.now ∧ (State.meaRestart s).mem = s.mem := by
  unfold State.meaRestart
  repeat' first
    | (simp only [implies_true, and_self, and_true, true_and, apply_ite State.pending, apply_ite State.mem, apply_ite State.tck, apply_ite TckSt.now, State.meaWinTakes_frame, State.resetMaster_frame]; done)
    | (simp (maxDischargeDepth := 8) only [foldl_PMN, implies_true, and_self, and_true, true_and, apply_ite State.pending, apply_ite State.mem, apply_ite State.tck, apply_ite TckSt.now, State.meaWinTakes_frame, State.resetMaster_frame]; done)
    | (with_reducible refine foldl_PMN _ _ _ (fun s a => ?_))
    | split
    | (simp only [implies_true, and_self, and_true, true_and, apply_ite State.pending, apply_ite State.mem, apply_ite State.tck, apply_ite TckSt.now, State.meaWinTakes_frame, State.resetMaster_frame])

theorem State.losPort_frame (s : State) (p slot : Nat)  : (State.losPort s p slot).1.pending = s.pending ∧ (State.losPort s p slot).1.tck.now = s.tck.now ∧ (State.losPort s p slot).1.mem = s.mem := by
  unfold State.losPort
  repeat' first
    | (simp only [implies_true, and_self, and_true, true_and, apply_ite State.pending, apply_ite State.mem, apply_ite State.tck, apply_ite TckSt.now, State.emitRec_frame, State.raise_frame]; done)
    | (simp (maxDischargeDepth := 8) only [foldl_PMN, implies_true, and_self, and_true, true_and, apply_ite State.pending, apply_ite State.mem, apply_ite State.tck, apply_ite TckSt.now, State.emitRec_frame, State.raise_frame]; done)
    | (with_reducible refine foldl_PMN _ _ _ (fun s a => ?_))
    | split
    | (simp only [implies_true, and_self, and_true, true_and, apply_ite State.pending, apply_ite State.mem, apply_ite State.tck, apply_ite TckSt.now, State.emitRec_frame, State.raise_frame])

theorem State.losEval_frame (s : State)  : (State.losEval s).1.pending = s.pending ∧ (State.losEval s).1.tck.now = s.tck.now ∧ (State.losEval s).1.mem = s.mem := by
  unfold State.losEval
  refine ⟨?_, ?_, ?_⟩
  · repeat' first
      | with_reducible assumption
      | with_reducible rfl
      | (with_reducible refine Eq.trans (State.losPort_frame ..).1 ?_)
      | (with_reducible refine alP_pair0 (by assumption) (Eq.trans (State.losPort_frame ..).1 ?_))
      | (with_reducible refine alP_fold0 _ _ _ (fun r a h => ?_) ?_)
      | (with_reducible refine alP_fold1 _ _ _ (fun r a h => ?_) ?_)
      | (with_reducible refine alP_fold2 _ _ _ (fun r a h => ?_) ?_)
      | dsimp only
      | split
  · repeat' first
      | with_reducible assumption
      | with_reducible rfl
      | (with_reducible refine Eq.trans (State.losPort_frame ..).2.1 ?_)
      | (with_reducible refine alN_pair0 (by assumption) (Eq.trans (State.losPort_frame ..).2.1 ?_))
      | (with_reducible refine alN_fold0 _ _ _ (fun r a h => ?_) ?_)
      | (with_reducible refine alN_fold1 _ _ _ (fun r a h => ?_) ?_)
      | (with_reducible refine alN_fold2 _ _ _ (fun r a h => ?_) ?_)
      | dsimp only
      | split
  · repeat' first
      | with_reducible assumption
      | with_reducible rfl
      | (with_reducible refine Eq.trans (State.losPort_frame ..).2.2 ?_)
      | (with_reducible refine alM_pair0 (by assumption) (Eq.trans (State.losPort_frame ..).2.2 ?_))
      | (with_reducible refine alM_fold0 _ _ _ (fun r a h => ?_) ?_)
      | (with_reducible refine alM_fold1 _ _ _ (fun r a h => ?_) ?_)
      | (with_reducible refine alM_fold2 _ _ _ (fun r a h => ?_) ?_)
      | dsimp only
      | split

theorem State.losEnTakes_frame (s : State) (w : Nat)  : (State.losEnTakes s w).pending = s.pending ∧ (State.losEnTakes s w).tck.now = s.tck.now ∧ (State.losEnTakes s w).mem = s.mem := by
  unfold State.losEnTakes
  repeat' first
    | (simp only [implies_true, and_self, and_true, true_and, apply_ite State.pending, apply_ite State.mem, apply_ite State.tck, apply_ite TckSt.now]; done)
    | (simp (maxDischargeDepth := 8) only [foldl_PMN, implies_true, and_self, and_true, true_and, apply_ite State.pending, apply_ite State.mem, apply_ite State.tck, apply_ite TckSt.now]; done)
    | (with_reducible refine foldl_PMN _ _ _ (fun s a => ?_))
    | split
    | (simp only [implies_true, and_self, and_true, true_and, apply_ite State.pending, apply_ite State.mem, apply_ite State.tck, apply_ite TckSt.now])

theorem State.losEnWrite_frame (s : State) (addr : Nat) (v : Word)  : (State.losEnWrite s addr v).pending = s.pending ∧ (State.losEnWrite s addr v).tck.now = s.tck.now ∧ (State.losEnWrite s addr v).mem = s.mem := by
  unfold State.losEnWrite
  repeat' first
    | (simp only [implies_true, and_self, and_true, true_and, apply_ite State.pending, apply_ite State.mem, apply_ite State.tck, apply_ite TckSt.now, State.storeReg_frame, State.losEnTakes_frame]; done)
    | (simp (maxDischargeDepth := 8) only [foldl_PMN, implies_true, and_self, and_true, true_and, apply_ite State.pending, apply_ite State.mem, apply_ite State.tck, apply_ite TckSt.now, State.storeReg_frame, State.losEnTakes_frame]; done)
    | (with_reducible refine foldl_PMN _ _ _ (fun s a => ?_))
    | split
    | (simp only [implies_true, and_self, and_true, true_and, apply_ite State.pending, apply_ite State.mem, apply_ite State.tck, apply_ite TckSt.now, State.storeReg_frame, State.losEnTakes_frame])

theorem execMeaWindowEnd_frame (s : State) {r : State} (e : execMeaWindowEnd s = .next r) : r.pending = s.pending ∧ r.tck.now = s.tck.now ∧ r.mem = s.mem := by
  unfold execMeaWindowEnd at e
  revert e
  intro e
  refine ⟨?_, ?_, ?_⟩
  · revert e
    repeat' first
      | with_reducible assumption
      | with_reducible rfl
      | (with_reducible refine Eq.trans (State.windowSettle_frame ..).1 ?_)
      | (with_reducible refine ocP_next ?_)
      | with_reducible exact ocP_fault
      | dsimp only
      | split
  · revert e
    repeat' first
      | with_reducible assumption
      | with_reducible rfl
      | (with_reducible refine Eq.trans (State.windowSettle_frame ..).2.1 ?_)
      | (with_reducible refine ocN_next ?_)
      | with_reducible exact ocN_fault
      | dsimp only
      | split
  · revert e
    repeat' first
      | with_reducible assumption
      | with_reducible rfl
      | (with_reducible refine Eq.trans (State.windowSettle_frame ..).2.2 ?_)
      | (with_reducible refine ocM_next ?_)
      | with_reducible exact ocM_fault
      | dsimp only
      | split

theorem execMeaWinWrite_frame (m : Fin 8) (v : Word) (s : State) {r : State} (e : execMeaWinWrite m v s = .next r) : r.pending = s.pending ∧ r.tck.now = s.tck.now ∧ r.mem = s.mem := by
  unfold execMeaWinWrite at e
  revert e
  intro e
  refine ⟨?_, ?_, ?_⟩
  · revert e
    repeat' first
      | with_reducible assumption
      | with_reducible rfl
      | (with_reducible refine Eq.trans (State.gateWrite_frP (heff := fun _ => ?_) ..) ?_)
      | (with_reducible refine Eq.trans (State.meaWinWrite_frame ..).1 ?_)
      | (with_reducible refine ocP_next ?_)
      | with_reducible exact ocP_fault
      | dsimp only
      | split
  · revert e
    repeat' first
      | with_reducible assumption
      | with_reducible rfl
      | (with_reducible refine Eq.trans (State.gateWrite_frN (heff := fun _ => ?_) ..) ?_)
      | (with_reducible refine Eq.trans (State.meaWinWrite_frame ..).2.1 ?_)
      | (with_reducible refine ocN_next ?_)
      | with_reducible exact ocN_fault
      | dsimp only
      | split
  · revert e
    repeat' first
      | with_reducible assumption
      | with_reducible rfl
      | (with_reducible refine Eq.trans (State.gateWrite_frM (heff := fun _ => ?_) ..) ?_)
      | (with_reducible refine Eq.trans (State.meaWinWrite_frame ..).2.2 ?_)
      | (with_reducible refine ocM_next ?_)
      | with_reducible exact ocM_fault
      | dsimp only
      | split

theorem execMeaEnWrite_frame (m : Fin 8) (v : Word) (s : State) {r : State} (e : execMeaEnWrite m v s = .next r) : r.pending = s.pending ∧ r.tck.now = s.tck.now ∧ r.mem = s.mem := by
  unfold execMeaEnWrite at e
  revert e
  intro e
  refine ⟨?_, ?_, ?_⟩
  · revert e
    repeat' first
      | with_reducible assumption
      | with_reducible rfl
      | (with_reducible refine Eq.trans (State.gateWrite_frP (heff := fun _ => ?_) ..) ?_)
      | (with_reducible refine Eq.trans (State.meaCtrlWrite_frame ..).1 ?_)
      | (with_reducible refine ocP_next ?_)
      | with_reducible exact ocP_fault
      | dsimp only
      | split
  · revert e
    repeat' first
      | with_reducible assumption
      | with_reducible rfl
      | (with_reducible refine Eq.trans (State.gateWrite_frN (heff := fun _ => ?_) ..) ?_)
      | (with_reducible refine Eq.trans (State.meaCtrlWrite_frame ..).2.1 ?_)
      | (with_reducible refine ocN_next ?_)
      | with_reducible exact ocN_fault
      | dsimp only
      | split
  · revert e
    repeat' first
      | with_reducible assumption
      | with_reducible rfl
      | (with_reducible refine Eq.trans (State.gateWrite_frM (heff := fun _ => ?_) ..) ?_)
      | (with_reducible refine Eq.trans (State.meaCtrlWrite_frame ..).2.2 ?_)
      | (with_reducible refine ocM_next ?_)
      | with_reducible exact ocM_fault
      | dsimp only
      | split

end Sys2Proof.Machine
end

