-- ==== Sys2Proof/Laws/FrameCal.lean ====
section
/-! SUPPORT. What every operation of Machine/Cal.lean leaves alone: the queue of waiting commands, the tick counter (unless it
writes it), and memory or its canonical form. -/

namespace Sys2Proof.Machine

set_option linter.all false
set_option Elab.async false
set_option maxRecDepth 4000

theorem State.calSeqs_frame (s : State)  : (State.calSeqs s).1.pending = s.pending ∧ (State.calSeqs s).1.tck.now = s.tck.now ∧ (State.calSeqs s).1.mem = s.mem := by
  unfold State.calSeqs
  repeat' first
    | (simp only [implies_true, and_self, and_true, true_and, apply_ite State.pending, apply_ite State.mem, apply_ite State.tck, apply_ite TckSt.now, State.setRegN_frame]; done)
    | (simp (maxDischargeDepth := 8) only [foldl_PMN, implies_true, and_self, and_true, true_and, apply_ite State.pending, apply_ite State.mem, apply_ite State.tck, apply_ite TckSt.now, State.setRegN_frame]; done)
    | (with_reducible refine foldl_PMN _ _ _ (fun s a => ?_))
    | split
    | (simp only [implies_true, and_self, and_true, true_and, apply_ite State.pending, apply_ite State.mem, apply_ite State.tck, apply_ite TckSt.now, State.setRegN_frame])

theorem State.calRes_frame (s : State) (code : Nat)  : (State.calRes s code).pending = s.pending ∧ (State.calRes s code).tck.now = s.tck.now ∧ (State.calRes s code).mem = s.mem := by
  unfold State.calRes
  repeat' first
    | (simp only [implies_true, and_self, and_true, true_and, apply_ite State.pending, apply_ite State.mem, apply_ite State.tck, apply_ite TckSt.now, State.setRegN_frame, State.raiseIf_frame]; done)
    | (simp (maxDischargeDepth := 8) only [foldl_PMN, implies_true, and_self, and_true, true_and, apply_ite State.pending, apply_ite State.mem, apply_ite State.tck, apply_ite TckSt.now, State.setRegN_frame, State.raiseIf_frame]; done)
    | (with_reducible refine foldl_PMN _ _ _ (fun s a => ?_))
    | split
    | (simp only [implies_true, and_self, and_true, true_and, apply_ite State.pending, apply_ite State.mem, apply_ite State.tck, apply_ite TckSt.now, State.setRegN_frame, State.raiseIf_frame])

theorem State.putPass_frame (s : State) (p : CalPass)  : (State.putPass s p).pending = s.pending ∧ (State.putPass s p).tck.now = s.tck.now ∧ (State.putPass s p).mem = s.mem := by
  unfold State.putPass
  repeat' first
    | (simp only [implies_true, and_self, and_true, true_and, apply_ite State.pending, apply_ite State.mem, apply_ite State.tck, apply_ite TckSt.now, State.setFld_frame]; done)
    | (simp (maxDischargeDepth := 8) only [foldl_PMN, implies_true, and_self, and_true, true_and, apply_ite State.pending, apply_ite State.mem, apply_ite State.tck, apply_ite TckSt.now, State.setFld_frame]; done)
    | (with_reducible refine foldl_PMN _ _ _ (fun s a => ?_))
    | split
    | (simp only [implies_true, and_self, and_true, true_and, apply_ite State.pending, apply_ite State.mem, apply_ite State.tck, apply_ite TckSt.now, State.setFld_frame])

theorem State.calRestore_frame (s : State) (e : CalElem)  : (State.calRestore s e).pending = s.pending ∧ (State.calRestore s e).tck.now = s.tck.now ∧ (State.calRestore s e).mem = s.mem := by
  unfold State.calRestore
  repeat' first
    | (simp only [implies_true, and_self, and_true, true_and, apply_ite State.pending, apply_ite State.mem, apply_ite State.tck, apply_ite TckSt.now, State.setLoop_frame]; done)
    | (simp (maxDischargeDepth := 8) only [foldl_PMN, implies_true, and_self, and_true, true_and, apply_ite State.pending, apply_ite State.mem, apply_ite State.tck, apply_ite TckSt.now, State.setLoop_frame]; done)
    | (with_reducible refine foldl_PMN _ _ _ (fun s a => ?_))
    | split
    | (simp only [implies_true, and_self, and_true, true_and, apply_ite State.pending, apply_ite State.mem, apply_ite State.tck, apply_ite TckSt.now, State.setLoop_frame])

theorem State.calGiveBack_frame (s : State) (p : CalPass)  : (State.calGiveBack s p).1.pending = s.pending ∧ (State.calGiveBack s p).1.tck.now = s.tck.now ∧ (State.calGiveBack s p).1.mem = s.mem := by
  unfold State.calGiveBack
  repeat' first
    | (simp only [implies_true, and_self, and_true, true_and, apply_ite State.pending, apply_ite State.mem, apply_ite State.tck, apply_ite TckSt.now, State.calRestore_frame]; done)
    | (simp (maxDischargeDepth := 8) only [foldl_PMN, implies_true, and_self, and_true, true_and, apply_ite State.pending, apply_ite State.mem, apply_ite State.tck, apply_ite TckSt.now, State.calRestore_frame]; done)
    | (with_reducible refine foldl_PMN _ _ _ (fun s a => ?_))
    | split
    | (simp only [implies_true, and_self, and_true, true_and, apply_ite State.pending, apply_ite State.mem, apply_ite State.tck, apply_ite TckSt.now, State.calRestore_frame])

theorem State.passEnd_frame (s : State) (p : CalPass)  : (State.passEnd s p).pending = s.pending ∧ (State.passEnd s p).tck.now = s.tck.now ∧ (State.passEnd s p).mem = s.mem := by
  unfold State.passEnd
  repeat' first
    | (simp only [implies_true, and_self, and_true, true_and, apply_ite State.pending, apply_ite State.mem, apply_ite State.tck, apply_ite TckSt.now, State.calGiveBack_frame, State.setRegN_frame, State.setFld_frame, State.raise_frame]; done)
    | (simp (maxDischargeDepth := 8) only [foldl_PMN, implies_true, and_self, and_true, true_and, apply_ite State.pending, apply_ite State.mem, apply_ite State.tck, apply_ite TckSt.now, State.calGiveBack_frame, State.setRegN_frame, State.setFld_frame, State.raise_frame]; done)
    | (with_reducible refine foldl_PMN _ _ _ (fun s a => ?_))
    | split
    | (simp only [implies_true, and_self, and_true, true_and, apply_ite State.pending, apply_ite State.mem, apply_ite State.tck, apply_ite TckSt.now, State.calGiveBack_frame, State.setRegN_frame, State.setFld_frame, State.raise_frame])

theorem State.calGoOn_frame (s : State) (p : CalPass)  : (State.calGoOn s p).pending = s.pending ∧ (State.calGoOn s p).tck.now = s.tck.now ∧ (State.calGoOn s p).mem = s.mem := by
  unfold State.calGoOn
  refine ⟨?_, ?_, ?_⟩
  · repeat' first
      | with_reducible assumption
      | with_reducible rfl
      | (with_reducible refine alP_ite ?_ ?_)
      | (with_reducible refine alP_itep0 ?_ ?_)
      | (with_reducible refine alP_itep1 ?_ ?_)
      | (with_reducible refine Eq.trans (State.calGiveBack_frame ..).1 ?_)
      | (with_reducible refine alP_pair0 (by assumption) (Eq.trans (State.calGiveBack_frame ..).1 ?_))
      | (with_reducible refine Eq.trans (State.putPass_frame ..).1 ?_)
      | (with_reducible refine Eq.trans (State.passEnd_frame ..).1 ?_)
      | dsimp only
      | split
  · repeat' first
      | with_reducible assumption
      | with_reducible rfl
      | (with_reducible refine alN_ite ?_ ?_)
      | (with_reducible refine alN_itep0 ?_ ?_)
      | (with_reducible refine alN_itep1 ?_ ?_)
      | (with_reducible refine Eq.trans (State.calGiveBack_frame ..).2.1 ?_)
      | (with_reducible refine alN_pair0 (by assumption) (Eq.trans (State.calGiveBack_frame ..).2.1 ?_))
      | (with_reducible refine Eq.trans (State.putPass_frame ..).2.1 ?_)
      | (with_reducible refine Eq.trans (State.passEnd_frame ..).2.1 ?_)
      | dsimp only
      | split
  · repeat' first
      | with_reducible assumption
      | with_reducible rfl
      | (with_reducible refine alM_ite ?_ ?_)
      | (with_reducible refine alM_itep0 ?_ ?_)
      | (with_reducible refine alM_itep1 ?_ ?_)
      | (with_reducible refine Eq.trans (State.calGiveBack_frame ..).2.2 ?_)
      | (with_reducible refine alM_pair0 (by assumption) (Eq.trans (State.calGiveBack_frame ..).2.2 ?_))
      | (with_reducible refine Eq.trans (State.putPass_frame ..).2.2 ?_)
      | (with_reducible refine Eq.trans (State.passEnd_frame ..).2.2 ?_)
      | dsimp only
      | split

theorem State.calAbort_frame (s : State)  : (State.calAbort s).pending = s.pending ∧ (State.calAbort s).tck.now = s.tck.now ∧ (State.calAbort s).mem = s.mem := by
  unfold State.calAbort
  repeat' first
    | (simp only [implies_true, and_self, and_true, true_and, apply_ite State.pending, apply_ite State.mem, apply_ite State.tck, apply_ite TckSt.now, State.passEnd_frame]; done)
    | (simp (maxDischargeDepth := 8) only [foldl_PMN, implies_true, and_self, and_true, true_and, apply_ite State.pending, apply_ite State.mem, apply_ite State.tck, apply_ite TckSt.now, State.passEnd_frame]; done)
    | (with_reducible refine foldl_PMN _ _ _ (fun s a => ?_))
    | split
    | (simp only [implies_true, and_self, and_true, true_and, apply_ite State.pending, apply_ite State.mem, apply_ite State.tck, apply_ite TckSt.now, State.passEnd_frame])

theorem State.calLevel_frame (s : State)  : (State.calLevel s).pending = s.pending ∧ (State.calLevel s).tck.now = s.tck.now ∧ (State.calLevel s).mem = s.mem := by
  unfold State.calLevel
  repeat' first
    | (simp only [implies_true, and_self, and_true, true_and, apply_ite State.pending, apply_ite State.mem, apply_ite State.tck, apply_ite TckSt.now, State.setBit_frame, State.raise_frame, State.putPass_frame]; done)
    | (simp (maxDischargeDepth := 8) only [foldl_PMN, implies_true, and_self, and_true, true_and, apply_ite State.pending, apply_ite State.mem, apply_ite State.tck, apply_ite TckSt.now, State.setBit_frame, State.raise_frame, State.putPass_frame]; done)
    | (with_reducible refine foldl_PMN _ _ _ (fun s a => ?_))
    | split
    | (simp only [implies_true, and_self, and_true, true_and, apply_ite State.pending, apply_ite State.mem, apply_ite State.tck, apply_ite TckSt.now, State.setBit_frame, State.raise_frame, State.putPass_frame])

theorem State.calStart_frame (s : State)  : (State.calStart s).pending = s.pending ∧ (State.calStart s).tck.now = s.tck.now ∧ (State.calStart s).mem = s.mem := by
  unfold State.calStart
  repeat' first
    | (simp only [implies_true, and_self, and_true, true_and, apply_ite State.pending, apply_ite State.mem, apply_ite State.tck, apply_ite TckSt.now, State.calRes_frame, State.setBit_frame, State.putPass_frame, State.calLevel_frame, State.passEnd_frame]; done)
    | (simp (maxDischargeDepth := 8) only [foldl_PMN, implies_true, and_self, and_true, true_and, apply_ite State.pending, apply_ite State.mem, apply_ite State.tck, apply_ite TckSt.now, State.calRes_frame, State.setBit_frame, State.putPass_frame, State.calLevel_frame, State.passEnd_frame]; done)
    | (with_reducible refine foldl_PMN _ _ _ (fun s a => ?_))
    | split
    | (simp only [implies_true, and_self, and_true, true_and, apply_ite State.pending, apply_ite State.mem, apply_ite State.tck, apply_ite TckSt.now, State.calRes_frame, State.setBit_frame, State.putPass_frame, State.calLevel_frame, State.passEnd_frame])

theorem State.calPause_frame (s : State)  : (State.calPause s).pending = s.pending ∧ (State.calPause s).tck.now = s.tck.now ∧ (State.calPause s).mem = s.mem := by
  unfold State.calPause
  repeat' first
    | (simp only [implies_true, and_self, and_true, true_and, apply_ite State.pending, apply_ite State.mem, apply_ite State.tck, apply_ite TckSt.now]; done)
    | (simp (maxDischargeDepth := 8) only [foldl_PMN, implies_true, and_self, and_true, true_and, apply_ite State.pending, apply_ite State.mem, apply_ite State.tck, apply_ite TckSt.now]; done)
    | (with_reducible refine foldl_PMN _ _ _ (fun s a => ?_))
    | split
    | (simp only [implies_true, and_self, and_true, true_and, apply_ite State.pending, apply_ite State.mem, apply_ite State.tck, apply_ite TckSt.now])

theorem State.calSamples_frame (s : State)  : (State.calSamples s).pending = s.pending ∧ (State.calSamples s).tck.now = s.tck.now ∧ (State.calSamples s).mem = s.mem := by
  unfold State.calSamples
  repeat' first
    | (simp only [implies_true, and_self, and_true, true_and, apply_ite State.pending, apply_ite State.mem, apply_ite State.tck, apply_ite TckSt.now]; done)
    | (simp (maxDischargeDepth := 8) only [foldl_PMN, implies_true, and_self, and_true, true_and, apply_ite State.pending, apply_ite State.mem, apply_ite State.tck, apply_ite TckSt.now]; done)
    | (with_reducible refine foldl_PMN _ _ _ (fun s a => ?_))
    | split
    | (simp only [implies_true, and_self, and_true, true_and, apply_ite State.pending, apply_ite State.mem, apply_ite State.tck, apply_ite TckSt.now])

theorem State.calMeasured_frame (s : State)  : (State.calMeasured s).pending = s.pending ∧ (State.calMeasured s).tck.now = s.tck.now ∧ (State.calMeasured s).mem = s.mem := by
  unfold State.calMeasured
  repeat' first
    | (simp only [implies_true, and_self, and_true, true_and, apply_ite State.pending, apply_ite State.mem, apply_ite State.tck, apply_ite TckSt.now, State.calGoOn_frame]; done)
    | (simp (maxDischargeDepth := 8) only [foldl_PMN, implies_true, and_self, and_true, true_and, apply_ite State.pending, apply_ite State.mem, apply_ite State.tck, apply_ite TckSt.now, State.calGoOn_frame]; done)
    | (with_reducible refine foldl_PMN _ _ _ (fun s a => ?_))
    | split
    | (simp only [implies_true, and_self, and_true, true_and, apply_ite State.pending, apply_ite State.mem, apply_ite State.tck, apply_ite TckSt.now, State.calGoOn_frame])

theorem State.calTimeout_frame (s : State)  : (State.calTimeout s).pending = s.pending ∧ (State.calTimeout s).tck.now = s.tck.now ∧ (State.calTimeout s).mem = s.mem := by
  unfold State.calTimeout
  repeat' first
    | (simp only [implies_true, and_self, and_true, true_and, apply_ite State.pending, apply_ite State.mem, apply_ite State.tck, apply_ite TckSt.now, State.calGoOn_frame]; done)
    | (simp (maxDischargeDepth := 8) only [foldl_PMN, implies_true, and_self, and_true, true_and, apply_ite State.pending, apply_ite State.mem, apply_ite State.tck, apply_ite TckSt.now, State.calGoOn_frame]; done)
    | (with_reducible refine foldl_PMN _ _ _ (fun s a => ?_))
    | split
    | (simp only [implies_true, and_self, and_true, true_and, apply_ite State.pending, apply_ite State.mem, apply_ite State.tck, apply_ite TckSt.now, State.calGoOn_frame])

theorem State.calDisturb_frame (s : State) (old : Sparse Nat)  : (State.calDisturb s old).pending = s.pending ∧ (State.calDisturb s old).tck.now = s.tck.now ∧ (State.calDisturb s old).mem = s.mem := by
  unfold State.calDisturb
  repeat' first
    | (simp only [implies_true, and_self, and_true, true_and, apply_ite State.pending, apply_ite State.mem, apply_ite State.tck, apply_ite TckSt.now, State.calGoOn_frame]; done)
    | (simp (maxDischargeDepth := 8) only [foldl_PMN, implies_true, and_self, and_true, true_and, apply_ite State.pending, apply_ite State.mem, apply_ite State.tck, apply_ite TckSt.now, State.calGoOn_frame]; done)
    | (with_reducible refine foldl_PMN _ _ _ (fun s a => ?_))
    | split
    | (simp only [implies_true, and_self, and_true, true_and, apply_ite State.pending, apply_ite State.mem, apply_ite State.tck, apply_ite TckSt.now, State.calGoOn_frame])

theorem State.calStage_frame (s : State)  : (State.calStage s).pending = s.pending ∧ (State.calStage s).tck.now = s.tck.now ∧ (State.calStage s).mem = s.mem := by
  unfold State.calStage
  repeat' first
    | (simp only [implies_true, and_self, and_true, true_and, apply_ite State.pending, apply_ite State.mem, apply_ite State.tck, apply_ite TckSt.now, State.calRes_frame, State.setBit_frame]; done)
    | (simp (maxDischargeDepth := 8) only [foldl_PMN, implies_true, and_self, and_true, true_and, apply_ite State.pending, apply_ite State.mem, apply_ite State.tck, apply_ite TckSt.now, State.calRes_frame, State.setBit_frame]; done)
    | (with_reducible refine foldl_PMN _ _ _ (fun s a => ?_))
    | split
    | (simp only [implies_true, and_self, and_true, true_and, apply_ite State.pending, apply_ite State.mem, apply_ite State.tck, apply_ite TckSt.now, State.calRes_frame, State.setBit_frame])

theorem State.calStageDone_frame (s : State)  : (State.calStageDone s).pending = s.pending ∧ (State.calStageDone s).tck.now = s.tck.now ∧ (State.calStageDone s).mem = s.mem := by
  unfold State.calStageDone
  refine ⟨?_, ?_, ?_⟩
  · repeat' first
      | with_reducible assumption
      | with_reducible rfl
      | (with_reducible refine alP_ite ?_ ?_)
      | (with_reducible refine alP_itep0 ?_ ?_)
      | (with_reducible refine alP_itep1 ?_ ?_)
      | (with_reducible refine Eq.trans (State.setBit_frame ..).1 ?_)
      | (with_reducible refine Eq.trans (State.calSeqs_frame ..).1 ?_)
      | (with_reducible refine alP_pair0 (by assumption) (Eq.trans (State.calSeqs_frame ..).1 ?_))
      | (with_reducible refine Eq.trans (State.journalWords_frame ..).1 ?_)
      | (with_reducible refine Eq.trans (State.calRes_frame ..).1 ?_)
      | (with_reducible refine Eq.trans (State.raise_frame ..).1 ?_)
      | dsimp only
      | split
  · repeat' first
      | with_reducible assumption
      | with_reducible rfl
      | (with_reducible refine alN_ite ?_ ?_)
      | (with_reducible refine alN_itep0 ?_ ?_)
      | (with_reducible refine alN_itep1 ?_ ?_)
      | (with_reducible refine Eq.trans (State.setBit_frame ..).2.1 ?_)
      | (with_reducible refine Eq.trans (State.calSeqs_frame ..).2.1 ?_)
      | (with_reducible refine alN_pair0 (by assumption) (Eq.trans (State.calSeqs_frame ..).2.1 ?_))
      | (with_reducible refine Eq.trans (State.journalWords_frame ..).2.1 ?_)
      | (with_reducible refine Eq.trans (State.calRes_frame ..).2.1 ?_)
      | (with_reducible refine Eq.trans (State.raise_frame ..).2.1 ?_)
      | dsimp only
      | split
  · repeat' first
      | with_reducible assumption
      | with_reducible rfl
      | (with_reducible refine alM_ite ?_ ?_)
      | (with_reducible refine alM_itep0 ?_ ?_)
      | (with_reducible refine alM_itep1 ?_ ?_)
      | (with_reducible refine Eq.trans (State.setBit_frame ..).2.2 ?_)
      | (with_reducible refine Eq.trans (State.calSeqs_frame ..).2.2 ?_)
      | (with_reducible refine alM_pair0 (by assumption) (Eq.trans (State.calSeqs_frame ..).2.2 ?_))
      | (with_reducible refine Eq.trans (State.journalWords_frame ..).2.2 ?_)
      | (with_reducible refine Eq.trans (State.calRes_frame ..).2.2 ?_)
      | (with_reducible refine Eq.trans (State.raise_frame ..).2.2 ?_)
      | dsimp only
      | split

theorem State.calStore_frame (s : State)  : (State.calStore s).pending = s.pending ∧ (State.calStore s).tck.now = s.tck.now ∧ (Memory.wf s.mem = true → Memory.wf (State.calStore s).mem = true) := by
  unfold State.calStore
  refine (and_assoc.1 ⟨?_, fun h => ?_⟩)
  · repeat' first
      | (simp only [implies_true, and_self, and_true, true_and, apply_ite State.pending, apply_ite State.tck, apply_ite TckSt.now, State.calRes_frame, State.setBit_frame, State.storeN_frame]; done)
      | (simp (maxDischargeDepth := 8) only [foldl_PN, implies_true, and_self, and_true, true_and, apply_ite State.pending, apply_ite State.tck, apply_ite TckSt.now, State.calRes_frame, State.setBit_frame, State.storeN_frame]; done)
      | (with_reducible refine foldl_PN _ _ _ (fun s a => ?_))
      | split
      | (simp only [implies_true, and_self, and_true, true_and, apply_ite State.pending, apply_ite State.tck, apply_ite TckSt.now, State.calRes_frame, State.setBit_frame, State.storeN_frame])
  · repeat' first
      | with_reducible assumption
      | (with_reducible refine wf_ite ?_ ?_)
      | (with_reducible refine wf_eq (State.calRes_frame ..).2.2 ?_)
      | (with_reducible refine wf_eq (State.setBit_frame ..).2.2 ?_)
      | (with_reducible refine (State.storeN_frame ..).2.2 ?_)
      | (with_reducible refine foldl_wf _ _ _ (fun s a h => ?_) ?_)
      | dsimp only
      | split

theorem State.calStoreDone_frame (s : State)  : (State.calStoreDone s).pending = s.pending ∧ (State.calStoreDone s).tck.now = s.tck.now ∧ (Memory.wf s.mem = true → Memory.wf (State.calStoreDone s).mem = true) := by
  unfold State.calStoreDone
  refine ⟨?_, ?_, fun h => ?_⟩
  · repeat' first
      | with_reducible assumption
      | with_reducible rfl
      | (with_reducible refine alP_ite ?_ ?_)
      | (with_reducible refine alP_itep0 ?_ ?_)
      | (with_reducible refine alP_itep1 ?_ ?_)
      | (with_reducible refine Eq.trans (State.copyMem_frame ..).1 ?_)
      | (with_reducible refine Eq.trans (State.clearMem_frame ..).1 ?_)
      | (with_reducible refine Eq.trans (State.setBytes_frame ..).1 ?_)
      | (with_reducible refine Eq.trans (State.storeN_frame ..).1 ?_)
      | (with_reducible refine Eq.trans (State.setBit_frame ..).1 ?_)
      | (with_reducible refine Eq.trans (State.calSeqs_frame ..).1 ?_)
      | (with_reducible refine alP_pair0 (by assumption) (Eq.trans (State.calSeqs_frame ..).1 ?_))
      | (with_reducible refine Eq.trans (State.raise_frame ..).1 ?_)
      | (with_reducible refine alP_fold0 _ _ _ (fun r a h => ?_) ?_)
      | (with_reducible refine alP_fold1 _ _ _ (fun r a h => ?_) ?_)
      | (with_reducible refine alP_fold2 _ _ _ (fun r a h => ?_) ?_)
      | dsimp only
      | split
  · repeat' first
      | with_reducible assumption
      | with_reducible rfl
      | (with_reducible refine alN_ite ?_ ?_)
      | (with_reducible refine alN_itep0 ?_ ?_)
      | (with_reducible refine alN_itep1 ?_ ?_)
      | (with_reducible refine Eq.trans (State.copyMem_frame ..).2.1 ?_)
      | (with_reducible refine Eq.trans (State.clearMem_frame ..).2.1 ?_)
      | (with_reducible refine Eq.trans (State.setBytes_frame ..).2.1 ?_)
      | (with_reducible refine Eq.trans (State.storeN_frame ..).2.1 ?_)
      | (with_reducible refine Eq.trans (State.setBit_frame ..).2.1 ?_)
      | (with_reducible refine Eq.trans (State.calSeqs_frame ..).2.1 ?_)
      | (with_reducible refine alN_pair0 (by assumption) (Eq.trans (State.calSeqs_frame ..).2.1 ?_))
      | (with_reducible refine Eq.trans (State.raise_frame ..).2.1 ?_)
      | (with_reducible refine alN_fold0 _ _ _ (fun r a h => ?_) ?_)
      | (with_reducible refine alN_fold1 _ _ _ (fun r a h => ?_) ?_)
      | (with_reducible refine alN_fold2 _ _ _ (fun r a h => ?_) ?_)
      | dsimp only
      | split
  · repeat' first
      | with_reducible assumption
      | with_reducible rfl
      | (with_reducible refine alW_ite ?_ ?_)
      | (with_reducible refine alW_itep0 ?_ ?_)
      | (with_reducible refine alW_itep1 ?_ ?_)
      | (with_reducible refine (State.copyMem_frame ..).2.2 ?_)
      | (with_reducible refine (State.clearMem_frame ..).2.2 ?_)
      | (with_reducible refine (State.setBytes_frame ..).2.2 ?_)
      | (with_reducible refine (State.storeN_frame ..).2.2 ?_)
      | (with_reducible refine wf_eq (State.setBit_frame ..).2.2 ?_)
      | (with_reducible refine wf_eq (State.calSeqs_frame ..).2.2 ?_)
      | (with_reducible refine alW_pair0 (by assumption) (wf_eq (State.calSeqs_frame ..).2.2 ?_))
      | (with_reducible refine wf_eq (State.raise_frame ..).2.2 ?_)
      | (with_reducible refine alW_fold0 _ _ _ (fun r a h => ?_) ?_)
      | (with_reducible refine alW_fold1 _ _ _ (fun r a h => ?_) ?_)
      | (with_reducible refine alW_fold2 _ _ _ (fun r a h => ?_) ?_)
      | dsimp only
      | split

theorem State.calBoot_frame (s : State)  : (State.calBoot s).pending = s.pending ∧ (State.calBoot s).tck.now = s.tck.now ∧ (State.calBoot s).mem = s.mem := by
  unfold State.calBoot
  refine ⟨?_, ?_, ?_⟩
  · repeat' first
      | with_reducible assumption
      | with_reducible rfl
      | (with_reducible refine Eq.trans (State.calSeqs_frame ..).1 ?_)
      | (with_reducible refine alP_pair0 (by assumption) (Eq.trans (State.calSeqs_frame ..).1 ?_))
      | (with_reducible refine Eq.trans (State.setBit_frame ..).1 ?_)
      | dsimp only
      | split
  · repeat' first
      | with_reducible assumption
      | with_reducible rfl
      | (with_reducible refine Eq.trans (State.calSeqs_frame ..).2.1 ?_)
      | (with_reducible refine alN_pair0 (by assumption) (Eq.trans (State.calSeqs_frame ..).2.1 ?_))
      | (with_reducible refine Eq.trans (State.setBit_frame ..).2.1 ?_)
      | dsimp only
      | split
  · repeat' first
      | with_reducible assumption
      | with_reducible rfl
      | (with_reducible refine Eq.trans (State.calSeqs_frame ..).2.2 ?_)
      | (with_reducible refine alM_pair0 (by assumption) (Eq.trans (State.calSeqs_frame ..).2.2 ?_))
      | (with_reducible refine Eq.trans (State.setBit_frame ..).2.2 ?_)
      | dsimp only
      | split

theorem State.calDeferred_frame (s : State)  : (State.calDeferred s).pending = s.pending ∧ (State.calDeferred s).tck.now = s.tck.now ∧ (State.calDeferred s).mem = s.mem := by
  unfold State.calDeferred
  repeat' first
    | (simp only [implies_true, and_self, and_true, true_and, apply_ite State.pending, apply_ite State.mem, apply_ite State.tck, apply_ite TckSt.now, State.setFld_frame, State.raiseIf_frame]; done)
    | (simp (maxDischargeDepth := 8) only [foldl_PMN, implies_true, and_self, and_true, true_and, apply_ite State.pending, apply_ite State.mem, apply_ite State.tck, apply_ite TckSt.now, State.setFld_frame, State.raiseIf_frame]; done)
    | (with_reducible refine foldl_PMN _ _ _ (fun s a => ?_))
    | split
    | (simp only [implies_true, and_self, and_true, true_and, apply_ite State.pending, apply_ite State.mem, apply_ite State.tck, apply_ite TckSt.now, State.setFld_frame, State.raiseIf_frame])

theorem State.calCompose_frame (s : State)  : (State.calCompose s).pending = s.pending ∧ (State.calCompose s).tck.now = s.tck.now ∧ (State.calCompose s).mem = s.mem := by
  unfold State.calCompose
  repeat' first
    | (simp only [implies_true, and_self, and_true, true_and, apply_ite State.pending, apply_ite State.mem, apply_ite State.tck, apply_ite TckSt.now]; done)
    | (simp (maxDischargeDepth := 8) only [foldl_PMN, implies_true, and_self, and_true, true_and, apply_ite State.pending, apply_ite State.mem, apply_ite State.tck, apply_ite TckSt.now]; done)
    | (with_reducible refine foldl_PMN _ _ _ (fun s a => ?_))
    | split
    | (simp only [implies_true, and_self, and_true, true_and, apply_ite State.pending, apply_ite State.mem, apply_ite State.tck, apply_ite TckSt.now])

theorem State.calPut_frame (s : State) (slot : Nat) (r : CalRec)  : (State.calPut s slot r).pending = s.pending ∧ (State.calPut s slot r).tck.now = s.tck.now ∧ (State.calPut s slot r).mem = s.mem := by
  unfold State.calPut
  repeat' first
    | (simp only [implies_true, and_self, and_true, true_and, apply_ite State.pending, apply_ite State.mem, apply_ite State.tck, apply_ite TckSt.now, State.setLoop_frame]; done)
    | (simp (maxDischargeDepth := 8) only [foldl_PMN, implies_true, and_self, and_true, true_and, apply_ite State.pending, apply_ite State.mem, apply_ite State.tck, apply_ite TckSt.now, State.setLoop_frame]; done)
    | (with_reducible refine foldl_PMN _ _ _ (fun s a => ?_))
    | split
    | (simp only [implies_true, and_self, and_true, true_and, apply_ite State.pending, apply_ite State.mem, apply_ite State.tck, apply_ite TckSt.now, State.setLoop_frame])

theorem State.calCommitAt_frame (s : State) (n : Tick)  : (State.calCommitAt s n).pending = s.pending ∧ (State.calCommitAt s n).tck.now = s.tck.now ∧ (State.calCommitAt s n).mem = s.mem := by
  unfold State.calCommitAt
  repeat' first
    | (simp only [implies_true, and_self, and_true, true_and, apply_ite State.pending, apply_ite State.mem, apply_ite State.tck, apply_ite TckSt.now, State.calPut_frame, State.dropCommit_frame, State.setBit_frame, State.setRegN_frame, State.raise_frame]; done)
    | (simp (maxDischargeDepth := 8) only [foldl_PMN, implies_true, and_self, and_true, true_and, apply_ite State.pending, apply_ite State.mem, apply_ite State.tck, apply_ite TckSt.now, State.calPut_frame, State.dropCommit_frame, State.setBit_frame, State.setRegN_frame, State.raise_frame]; done)
    | (with_reducible refine foldl_PMN _ _ _ (fun s a => ?_))
    | split
    | (simp only [implies_true, and_self, and_true, true_and, apply_ite State.pending, apply_ite State.mem, apply_ite State.tck, apply_ite TckSt.now, State.calPut_frame, State.dropCommit_frame, State.setBit_frame, State.setRegN_frame, State.raise_frame])

theorem State.calNextAt_frame (s : State) (n : Tick)  : (State.calNextAt s n).pending = s.pending ∧ (State.calNextAt s n).tck.now = s.tck.now ∧ (State.calNextAt s n).mem = s.mem := by
  unfold State.calNextAt
  repeat' first
    | (simp only [implies_true, and_self, and_true, true_and, apply_ite State.pending, apply_ite State.mem, apply_ite State.tck, apply_ite TckSt.now, State.calPut_frame, State.calDeferred_frame]; done)
    | (simp (maxDischargeDepth := 8) only [foldl_PMN, implies_true, and_self, and_true, true_and, apply_ite State.pending, apply_ite State.mem, apply_ite State.tck, apply_ite TckSt.now, State.calPut_frame, State.calDeferred_frame]; done)
    | (with_reducible refine foldl_PMN _ _ _ (fun s a => ?_))
    | split
    | (simp only [implies_true, and_self, and_true, true_and, apply_ite State.pending, apply_ite State.mem, apply_ite State.tck, apply_ite TckSt.now, State.calPut_frame, State.calDeferred_frame])

theorem State.calCancel_frame (s : State) (b : Tick)  : (State.calCancel s b).pending = s.pending ∧ (State.calCancel s b).tck.now = s.tck.now ∧ (State.calCancel s b).mem = s.mem := by
  unfold State.calCancel
  repeat' first
    | (simp only [implies_true, and_self, and_true, true_and, apply_ite State.pending, apply_ite State.mem, apply_ite State.tck, apply_ite TckSt.now, State.dropCommit_frame, State.calRes_frame]; done)
    | (simp (maxDischargeDepth := 8) only [foldl_PMN, implies_true, and_self, and_true, true_and, apply_ite State.pending, apply_ite State.mem, apply_ite State.tck, apply_ite TckSt.now, State.dropCommit_frame, State.calRes_frame]; done)
    | (with_reducible refine foldl_PMN _ _ _ (fun s a => ?_))
    | split
    | (simp only [implies_true, and_self, and_true, true_and, apply_ite State.pending, apply_ite State.mem, apply_ite State.tck, apply_ite TckSt.now, State.dropCommit_frame, State.calRes_frame])

theorem State.calCtrlWrite_frame (s : State) (v : Word)  : (State.calCtrlWrite s v).pending = s.pending ∧ (State.calCtrlWrite s v).tck.now = s.tck.now ∧ (Memory.wf s.mem = true → Memory.wf (State.calCtrlWrite s v).mem = true) := by
  unfold State.calCtrlWrite
  refine (and_assoc.1 ⟨?_, fun h => ?_⟩)
  · repeat' first
      | (simp only [implies_true, and_self, and_true, true_and, apply_ite State.pending, apply_ite State.tck, apply_ite TckSt.now, State.calAbort_frame, State.calStart_frame, State.calStage_frame, State.calStore_frame]; done)
      | (simp (maxDischargeDepth := 8) only [foldl_PN, implies_true, and_self, and_true, true_and, apply_ite State.pending, apply_ite State.tck, apply_ite TckSt.now, State.calAbort_frame, State.calStart_frame, State.calStage_frame, State.calStore_frame]; done)
      | (with_reducible refine foldl_PN _ _ _ (fun s a => ?_))
      | split
      | (simp only [implies_true, and_self, and_true, true_and, apply_ite State.pending, apply_ite State.tck, apply_ite TckSt.now, State.calAbort_frame, State.calStart_frame, State.calStage_frame, State.calStore_frame])
  · repeat' first
      | with_reducible assumption
      | (with_reducible refine wf_ite ?_ ?_)
      | (with_reducible refine wf_eq (State.calAbort_frame ..).2.2 ?_)
      | (with_reducible refine wf_eq (State.calStart_frame ..).2.2 ?_)
      | (with_reducible refine wf_eq (State.calStage_frame ..).2.2 ?_)
      | (with_reducible refine (State.calStore_frame ..).2.2 ?_)
      | (with_reducible refine foldl_wf _ _ _ (fun s a h => ?_) ?_)
      | dsimp only
      | split

theorem execCalPassStart_frame (m : Fin 8) (s : State) {r : State} (e : execCalPassStart m s = .next r) : r.pending = s.pending ∧ r.tck.now = s.tck.now ∧ r.mem = s.mem := by
  unfold execCalPassStart at e
  revert e
  intro e
  refine ⟨?_, ?_, ?_⟩
  · revert e
    repeat' first
      | with_reducible assumption
      | with_reducible rfl
      | (with_reducible refine Eq.trans (State.gateWrite_frP (heff := fun _ => ?_) ..) ?_)
      | (with_reducible refine Eq.trans (State.calStart_frame ..).1 ?_)
      | (with_reducible refine ocP_next ?_)
      | with_reducible exact ocP_fault
      | dsimp only
      | split
  · revert e
    repeat' first
      | with_reducible assumption
      | with_reducible rfl
      | (with_reducible refine Eq.trans (State.gateWrite_frN (heff := fun _ => ?_) ..) ?_)
      | (with_reducible refine Eq.trans (State.calStart_frame ..).2.1 ?_)
      | (with_reducible refine ocN_next ?_)
      | with_reducible exact ocN_fault
      | dsimp only
      | split
  · revert e
    repeat' first
      | with_reducible assumption
      | with_reducible rfl
      | (with_reducible refine Eq.trans (State.gateWrite_frM (heff := fun _ => ?_) ..) ?_)
      | (with_reducible refine Eq.trans (State.calStart_frame ..).2.2 ?_)
      | (with_reducible refine ocM_next ?_)
      | with_reducible exact ocM_fault
      | dsimp only
      | split

theorem execCalMeasurementDone_frame (s : State) {r : State} (e : execCalMeasurementDone s = .next r) : r.pending = s.pending ∧ r.tck.now = s.tck.now ∧ r.mem = s.mem := by
  unfold execCalMeasurementDone at e
  revert e
  intro e
  refine ⟨?_, ?_, ?_⟩
  · revert e
    repeat' first
      | with_reducible assumption
      | with_reducible rfl
      | (with_reducible refine Eq.trans (State.calMeasured_frame ..).1 ?_)
      | (with_reducible refine ocP_next ?_)
      | with_reducible exact ocP_fault
      | dsimp only
      | split
  · revert e
    repeat' first
      | with_reducible assumption
      | with_reducible rfl
      | (with_reducible refine Eq.trans (State.calMeasured_frame ..).2.1 ?_)
      | (with_reducible refine ocN_next ?_)
      | with_reducible exact ocN_fault
      | dsimp only
      | split
  · revert e
    repeat' first
      | with_reducible assumption
      | with_reducible rfl
      | (with_reducible refine Eq.trans (State.calMeasured_frame ..).2.2 ?_)
      | (with_reducible refine ocM_next ?_)
      | with_reducible exact ocM_fault
      | dsimp only
      | split

theorem execCalAttemptTimeout_frame (s : State) {r : State} (e : execCalAttemptTimeout s = .next r) : r.pending = s.pending ∧ r.tck.now = s.tck.now ∧ r.mem = s.mem := by
  unfold execCalAttemptTimeout at e
  revert e
  intro e
  refine ⟨?_, ?_, ?_⟩
  · revert e
    repeat' first
      | with_reducible assumption
      | with_reducible rfl
      | (with_reducible refine Eq.trans (State.calTimeout_frame ..).1 ?_)
      | (with_reducible refine ocP_next ?_)
      | with_reducible exact ocP_fault
      | dsimp only
      | split
  · revert e
    repeat' first
      | with_reducible assumption
      | with_reducible rfl
      | (with_reducible refine Eq.trans (State.calTimeout_frame ..).2.1 ?_)
      | (with_reducible refine ocN_next ?_)
      | with_reducible exact ocN_fault
      | dsimp only
      | split
  · revert e
    repeat' first
      | with_reducible assumption
      | with_reducible rfl
      | (with_reducible refine Eq.trans (State.calTimeout_frame ..).2.2 ?_)
      | (with_reducible refine ocM_next ?_)
      | with_reducible exact ocM_fault
      | dsimp only
      | split

theorem execCalAbort_frame (m : Fin 8) (s : State) {r : State} (e : execCalAbort m s = .next r) : r.pending = s.pending ∧ r.tck.now = s.tck.now ∧ r.mem = s.mem := by
  unfold execCalAbort at e
  revert e
  intro e
  refine ⟨?_, ?_, ?_⟩
  · revert e
    repeat' first
      | with_reducible assumption
      | with_reducible rfl
      | (with_reducible refine Eq.trans (State.gateWrite_frP (heff := fun _ => ?_) ..) ?_)
      | (with_reducible refine Eq.trans (State.calAbort_frame ..).1 ?_)
      | (with_reducible refine ocP_next ?_)
      | with_reducible exact ocP_fault
      | dsimp only
      | split
  · revert e
    repeat' first
      | with_reducible assumption
      | with_reducible rfl
      | (with_reducible refine Eq.trans (State.gateWrite_frN (heff := fun _ => ?_) ..) ?_)
      | (with_reducible refine Eq.trans (State.calAbort_frame ..).2.1 ?_)
      | (with_reducible refine ocN_next ?_)
      | with_reducible exact ocN_fault
      | dsimp only
      | split
  · revert e
    repeat' first
      | with_reducible assumption
      | with_reducible rfl
      | (with_reducible refine Eq.trans (State.gateWrite_frM (heff := fun _ => ?_) ..) ?_)
      | (with_reducible refine Eq.trans (State.calAbort_frame ..).2.2 ?_)
      | (with_reducible refine ocM_next ?_)
      | with_reducible exact ocM_fault
      | dsimp only
      | split

theorem execCalStage_frame (m : Fin 8) (s : State) {r : State} (e : execCalStage m s = .next r) : r.pending = s.pending ∧ r.tck.now = s.tck.now ∧ r.mem = s.mem := by
  unfold execCalStage at e
  revert e
  intro e
  refine ⟨?_, ?_, ?_⟩
  · revert e
    repeat' first
      | with_reducible assumption
      | with_reducible rfl
      | (with_reducible refine Eq.trans (State.gateWrite_frP (heff := fun _ => ?_) ..) ?_)
      | (with_reducible refine Eq.trans (State.calStage_frame ..).1 ?_)
      | (with_reducible refine ocP_next ?_)
      | with_reducible exact ocP_fault
      | dsimp only
      | split
  · revert e
    repeat' first
      | with_reducible assumption
      | with_reducible rfl
      | (with_reducible refine Eq.trans (State.gateWrite_frN (heff := fun _ => ?_) ..) ?_)
      | (with_reducible refine Eq.trans (State.calStage_frame ..).2.1 ?_)
      | (with_reducible refine ocN_next ?_)
      | with_reducible exact ocN_fault
      | dsimp only
      | split
  · revert e
    repeat' first
      | with_reducible assumption
      | with_reducible rfl
      | (with_reducible refine Eq.trans (State.gateWrite_frM (heff := fun _ => ?_) ..) ?_)
      | (with_reducible refine Eq.trans (State.calStage_frame ..).2.2 ?_)
      | (with_reducible refine ocM_next ?_)
      | with_reducible exact ocM_fault
      | dsimp only
      | split

theorem execCalStageDone_frame (s : State) {r : State} (e : execCalStageDone s = .next r) : r.pending = s.pending ∧ r.tck.now = s.tck.now ∧ r.mem = s.mem := by
  unfold execCalStageDone at e
  revert e
  intro e
  refine ⟨?_, ?_, ?_⟩
  · revert e
    repeat' first
      | with_reducible assumption
      | with_reducible rfl
      | (with_reducible refine Eq.trans (State.calStageDone_frame ..).1 ?_)
      | (with_reducible refine ocP_next ?_)
      | with_reducible exact ocP_fault
      | dsimp only
      | split
  · revert e
    repeat' first
      | with_reducible assumption
      | with_reducible rfl
      | (with_reducible refine Eq.trans (State.calStageDone_frame ..).2.1 ?_)
      | (with_reducible refine ocN_next ?_)
      | with_reducible exact ocN_fault
      | dsimp only
      | split
  · revert e
    repeat' first
      | with_reducible assumption
      | with_reducible rfl
      | (with_reducible refine Eq.trans (State.calStageDone_frame ..).2.2 ?_)
      | (with_reducible refine ocM_next ?_)
      | with_reducible exact ocM_fault
      | dsimp only
      | split

theorem execCalStore_frame (m : Fin 8) (s : State) {r : State} (e : execCalStore m s = .next r) : r.pending = s.pending ∧ r.tck.now = s.tck.now ∧ (Memory.wf s.mem = true → Memory.wf r.mem = true) := by
  unfold execCalStore at e
  revert e
  intro e
  refine ⟨?_, ?_, fun h => ?_⟩
  · revert e
    repeat' first
      | with_reducible assumption
      | with_reducible rfl
      | (with_reducible refine Eq.trans (State.gateWrite_frP (heff := fun _ => ?_) ..) ?_)
      | (with_reducible refine Eq.trans (State.calStore_frame ..).1 ?_)
      | (with_reducible refine ocP_next ?_)
      | with_reducible exact ocP_fault
      | dsimp only
      | split
  · revert e
    repeat' first
      | with_reducible assumption
      | with_reducible rfl
      | (with_reducible refine Eq.trans (State.gateWrite_frN (heff := fun _ => ?_) ..) ?_)
      | (with_reducible refine Eq.trans (State.calStore_frame ..).2.1 ?_)
      | (with_reducible refine ocN_next ?_)
      | with_reducible exact ocN_fault
      | dsimp only
      | split
  · revert e
    repeat' first
      | with_reducible assumption
      | with_reducible rfl
      | (with_reducible refine (State.gateWrite_frW (heff := fun _ h => ?_) (hw := ?_) ..))
      | (with_reducible refine wf_eq (State.gateWrite_frame ..).2.2 ?_)
      | (with_reducible refine (State.calStore_frame ..).2.2 ?_)
      | (with_reducible refine ocW_next ?_)
      | with_reducible exact ocW_fault
      | dsimp only
      | split

theorem execCalStoreDone_frame (s : State) {r : State} (e : execCalStoreDone s = .next r) : r.pending = s.pending ∧ r.tck.now = s.tck.now ∧ (Memory.wf s.mem = true → Memory.wf r.mem = true) := by
  unfold execCalStoreDone at e
  revert e
  intro e
  refine ⟨?_, ?_, fun h => ?_⟩
  · revert e
    repeat' first
      | with_reducible assumption
      | with_reducible rfl
      | (with_reducible refine Eq.trans (State.calStoreDone_frame ..).1 ?_)
      | (with_reducible refine ocP_next ?_)
      | with_reducible exact ocP_fault
      | dsimp only
      | split
  · revert e
    repeat' first
      | with_reducible assumption
      | with_reducible rfl
      | (with_reducible refine Eq.trans (State.calStoreDone_frame ..).2.1 ?_)
      | (with_reducible refine ocN_next ?_)
      | with_reducible exact ocN_fault
      | dsimp only
      | split
  · revert e
    repeat' first
      | with_reducible assumption
      | with_reducible rfl
      | (with_reducible refine (State.calStoreDone_frame ..).2.2 ?_)
      | (with_reducible refine ocW_next ?_)
      | with_reducible exact ocW_fault
      | dsimp only
      | split

end Sys2Proof.Machine
end

