-- ==== Sys2Proof/Laws/FrameNet.lean ====
section
/-! SUPPORT. What every operation of Machine/Net.lean leaves alone: the queue of waiting commands, the tick counter (unless it
writes it), and memory or its canonical form. -/

namespace Sys2Proof.Machine

set_option linter.all false
set_option Elab.async false
set_option maxRecDepth 4000

theorem State.setNetPort_frame (s : State) (n : Nat) (f : NetPort → NetPort)  : (State.setNetPort s n f).pending = s.pending ∧ (State.setNetPort s n f).tck.now = s.tck.now ∧ (State.setNetPort s n f).mem = s.mem := by
  unfold State.setNetPort
  repeat' first
    | (simp only [implies_true, and_self, and_true, true_and, apply_ite State.pending, apply_ite State.mem, apply_ite State.tck, apply_ite TckSt.now]; done)
    | (simp (maxDischargeDepth := 8) only [foldl_PMN, implies_true, and_self, and_true, true_and, apply_ite State.pending, apply_ite State.mem, apply_ite State.tck, apply_ite TckSt.now]; done)
    | (with_reducible refine foldl_PMN _ _ _ (fun s a => ?_))
    | split
    | (simp only [implies_true, and_self, and_true, true_and, apply_ite State.pending, apply_ite State.mem, apply_ite State.tck, apply_ite TckSt.now])

theorem State.setNetQ_frame (s : State) (n q : Nat) (f : NetQ → NetQ)  : (State.setNetQ s n q f).pending = s.pending ∧ (State.setNetQ s n q f).tck.now = s.tck.now ∧ (State.setNetQ s n q f).mem = s.mem := by
  unfold State.setNetQ
  repeat' first
    | (simp only [implies_true, and_self, and_true, true_and, apply_ite State.pending, apply_ite State.mem, apply_ite State.tck, apply_ite TckSt.now]; done)
    | (simp (maxDischargeDepth := 8) only [foldl_PMN, implies_true, and_self, and_true, true_and, apply_ite State.pending, apply_ite State.mem, apply_ite State.tck, apply_ite TckSt.now]; done)
    | (with_reducible refine foldl_PMN _ _ _ (fun s a => ?_))
    | split
    | (simp only [implies_true, and_self, and_true, true_and, apply_ite State.pending, apply_ite State.mem, apply_ite State.tck, apply_ite TckSt.now])

theorem State.portCount_frame (s : State) (n i : Nat)  : (State.portCount s n i).pending = s.pending ∧ (State.portCount s n i).tck.now = s.tck.now ∧ (State.portCount s n i).mem = s.mem := by
  unfold State.portCount
  repeat' first
    | (simp only [implies_true, and_self, and_true, true_and, apply_ite State.pending, apply_ite State.mem, apply_ite State.tck, apply_ite TckSt.now, State.count_frame]; done)
    | (simp (maxDischargeDepth := 8) only [foldl_PMN, implies_true, and_self, and_true, true_and, apply_ite State.pending, apply_ite State.mem, apply_ite State.tck, apply_ite TckSt.now, State.count_frame]; done)
    | (with_reducible refine foldl_PMN _ _ _ (fun s a => ?_))
    | split
    | (simp only [implies_true, and_self, and_true, true_and, apply_ite State.pending, apply_ite State.mem, apply_ite State.tck, apply_ite TckSt.now, State.count_frame])

theorem State.octets_frame (s : State) (n i k : Nat)  : (State.octets s n i k).pending = s.pending ∧ (State.octets s n i k).tck.now = s.tck.now ∧ (State.octets s n i k).mem = s.mem := by
  unfold State.octets
  repeat' first
    | (simp only [implies_true, and_self, and_true, true_and, apply_ite State.pending, apply_ite State.mem, apply_ite State.tck, apply_ite TckSt.now, State.setReg64_frame]; done)
    | (simp (maxDischargeDepth := 8) only [foldl_PMN, implies_true, and_self, and_true, true_and, apply_ite State.pending, apply_ite State.mem, apply_ite State.tck, apply_ite TckSt.now, State.setReg64_frame]; done)
    | (with_reducible refine foldl_PMN _ _ _ (fun s a => ?_))
    | split
    | (simp only [implies_true, and_self, and_true, true_and, apply_ite State.pending, apply_ite State.mem, apply_ite State.tck, apply_ite TckSt.now, State.setReg64_frame])

theorem State.sendPause_frame (s : State) (n quanta : Nat)  : (State.sendPause s n quanta).pending = s.pending ∧ (State.sendPause s n quanta).tck.now = s.tck.now ∧ (State.sendPause s n quanta).mem = s.mem := by
  unfold State.sendPause
  repeat' first
    | (simp only [implies_true, and_self, and_true, true_and, apply_ite State.pending, apply_ite State.mem, apply_ite State.tck, apply_ite TckSt.now, State.setNetPort_frame, State.portCount_frame]; done)
    | (simp (maxDischargeDepth := 8) only [foldl_PMN, implies_true, and_self, and_true, true_and, apply_ite State.pending, apply_ite State.mem, apply_ite State.tck, apply_ite TckSt.now, State.setNetPort_frame, State.portCount_frame]; done)
    | (with_reducible refine foldl_PMN _ _ _ (fun s a => ?_))
    | split
    | (simp only [implies_true, and_self, and_true, true_and, apply_ite State.pending, apply_ite State.mem, apply_ite State.tck, apply_ite TckSt.now, State.setNetPort_frame, State.portCount_frame])

theorem State.pauseXoff_frame (s : State) (n : Nat) (on : Bool)  : (State.pauseXoff s n on).pending = s.pending ∧ (State.pauseXoff s n on).tck.now = s.tck.now ∧ (State.pauseXoff s n on).mem = s.mem := by
  unfold State.pauseXoff
  repeat' first
    | (simp only [implies_true, and_self, and_true, true_and, apply_ite State.pending, apply_ite State.mem, apply_ite State.tck, apply_ite TckSt.now, State.setBit_frame, State.sendPause_frame]; done)
    | (simp (maxDischargeDepth := 8) only [foldl_PMN, implies_true, and_self, and_true, true_and, apply_ite State.pending, apply_ite State.mem, apply_ite State.tck, apply_ite TckSt.now, State.setBit_frame, State.sendPause_frame]; done)
    | (with_reducible refine foldl_PMN _ _ _ (fun s a => ?_))
    | split
    | (simp only [implies_true, and_self, and_true, true_and, apply_ite State.pending, apply_ite State.mem, apply_ite State.tck, apply_ite TckSt.now, State.setBit_frame, State.sendPause_frame])

theorem State.xoffChange_frame (s : State) (p : Nat) (on : Bool)  : (State.xoffChange s p on).pending = s.pending ∧ (State.xoffChange s p on).tck.now = s.tck.now ∧ (State.xoffChange s p on).mem = s.mem := by
  unfold State.xoffChange
  repeat' first
    | (simp only [implies_true, and_self, and_true, true_and, apply_ite State.pending, apply_ite State.mem, apply_ite State.tck, apply_ite TckSt.now, State.pauseXoff_frame]; done)
    | (simp (maxDischargeDepth := 8) only [foldl_PMN, implies_true, and_self, and_true, true_and, apply_ite State.pending, apply_ite State.mem, apply_ite State.tck, apply_ite TckSt.now, State.pauseXoff_frame]; done)
    | (with_reducible refine foldl_PMN _ _ _ (fun s a => ?_))
    | split
    | (simp only [implies_true, and_self, and_true, true_and, apply_ite State.pending, apply_ite State.mem, apply_ite State.tck, apply_ite TckSt.now, State.pauseXoff_frame])

theorem State.pauseTxWritten_frame (s : State) (n : Nat)  : (State.pauseTxWritten s n).pending = s.pending ∧ (State.pauseTxWritten s n).tck.now = s.tck.now ∧ (State.pauseTxWritten s n).mem = s.mem := by
  unfold State.pauseTxWritten
  repeat' first
    | (simp only [implies_true, and_self, and_true, true_and, apply_ite State.pending, apply_ite State.mem, apply_ite State.tck, apply_ite TckSt.now, State.pauseXoff_frame, State.setBit_frame]; done)
    | (simp (maxDischargeDepth := 8) only [foldl_PMN, implies_true, and_self, and_true, true_and, apply_ite State.pending, apply_ite State.mem, apply_ite State.tck, apply_ite TckSt.now, State.pauseXoff_frame, State.setBit_frame]; done)
    | (with_reducible refine foldl_PMN _ _ _ (fun s a => ?_))
    | split
    | (simp only [implies_true, and_self, and_true, true_and, apply_ite State.pending, apply_ite State.mem, apply_ite State.tck, apply_ite TckSt.now, State.pauseXoff_frame, State.setBit_frame])

theorem State.poolStates_frame (s : State) (p : Nat)  : (State.poolStates s p).pending = s.pending ∧ (State.poolStates s p).tck.now = s.tck.now ∧ (State.poolStates s p).mem = s.mem := by
  unfold State.poolStates
  repeat' first
    | (simp only [implies_true, and_self, and_true, true_and, apply_ite State.pending, apply_ite State.mem, apply_ite State.tck, apply_ite TckSt.now, State.setBit_frame, State.raiseIf_frame, State.xoffChange_frame]; done)
    | (simp (maxDischargeDepth := 8) only [foldl_PMN, implies_true, and_self, and_true, true_and, apply_ite State.pending, apply_ite State.mem, apply_ite State.tck, apply_ite TckSt.now, State.setBit_frame, State.raiseIf_frame, State.xoffChange_frame]; done)
    | (with_reducible refine foldl_PMN _ _ _ (fun s a => ?_))
    | split
    | (simp only [implies_true, and_self, and_true, true_and, apply_ite State.pending, apply_ite State.mem, apply_ite State.tck, apply_ite TckSt.now, State.setBit_frame, State.raiseIf_frame, State.xoffChange_frame])

theorem State.setUse_frame (s : State) (p n : Nat)  : (State.setUse s p n).pending = s.pending ∧ (State.setUse s p n).tck.now = s.tck.now ∧ (State.setUse s p n).mem = s.mem := by
  unfold State.setUse
  repeat' first
    | (simp only [implies_true, and_self, and_true, true_and, apply_ite State.pending, apply_ite State.mem, apply_ite State.tck, apply_ite TckSt.now, State.setFld_frame, State.poolStates_frame]; done)
    | (simp (maxDischargeDepth := 8) only [foldl_PMN, implies_true, and_self, and_true, true_and, apply_ite State.pending, apply_ite State.mem, apply_ite State.tck, apply_ite TckSt.now, State.setFld_frame, State.poolStates_frame]; done)
    | (with_reducible refine foldl_PMN _ _ _ (fun s a => ?_))
    | split
    | (simp only [implies_true, and_self, and_true, true_and, apply_ite State.pending, apply_ite State.mem, apply_ite State.tck, apply_ite TckSt.now, State.setFld_frame, State.poolStates_frame])

theorem State.setBuf_frame (s : State) (h : Nat) (f : Buf → Buf)  : (State.setBuf s h f).pending = s.pending ∧ (State.setBuf s h f).tck.now = s.tck.now ∧ (State.setBuf s h f).mem = s.mem := by
  unfold State.setBuf
  repeat' first
    | (simp only [implies_true, and_self, and_true, true_and, apply_ite State.pending, apply_ite State.mem, apply_ite State.tck, apply_ite TckSt.now]; done)
    | (simp (maxDischargeDepth := 8) only [foldl_PMN, implies_true, and_self, and_true, true_and, apply_ite State.pending, apply_ite State.mem, apply_ite State.tck, apply_ite TckSt.now]; done)
    | (with_reducible refine foldl_PMN _ _ _ (fun s a => ?_))
    | split
    | (simp only [implies_true, and_self, and_true, true_and, apply_ite State.pending, apply_ite State.mem, apply_ite State.tck, apply_ite TckSt.now])

theorem State.choose_frame (s : State) (l : List Nat)  : (State.choose s l).2.pending = s.pending ∧ (State.choose s l).2.tck.now = s.tck.now ∧ (State.choose s l).2.mem = s.mem := by
  unfold State.choose
  repeat' first
    | (simp only [implies_true, and_self, and_true, true_and, apply_ite State.pending, apply_ite State.mem, apply_ite State.tck, apply_ite TckSt.now, State.tick1_frame]; done)
    | (simp (maxDischargeDepth := 8) only [foldl_PMN, implies_true, and_self, and_true, true_and, apply_ite State.pending, apply_ite State.mem, apply_ite State.tck, apply_ite TckSt.now, State.tick1_frame]; done)
    | (with_reducible refine foldl_PMN _ _ _ (fun s a => ?_))
    | split
    | (simp only [implies_true, and_self, and_true, true_and, apply_ite State.pending, apply_ite State.mem, apply_ite State.tck, apply_ite TckSt.now, State.tick1_frame])

theorem State.freeBuf_frame (s : State)  : (State.freeBuf s).2.pending = s.pending ∧ (State.freeBuf s).2.tck.now = s.tck.now ∧ (State.freeBuf s).2.mem = s.mem := by
  unfold State.freeBuf
  repeat' first
    | (simp only [implies_true, and_self, and_true, true_and, apply_ite State.pending, apply_ite State.mem, apply_ite State.tck, apply_ite TckSt.now, State.choose_frame]; done)
    | (simp (maxDischargeDepth := 8) only [foldl_PMN, implies_true, and_self, and_true, true_and, apply_ite State.pending, apply_ite State.mem, apply_ite State.tck, apply_ite TckSt.now, State.choose_frame]; done)
    | (with_reducible refine foldl_PMN _ _ _ (fun s a => ?_))
    | split
    | (simp only [implies_true, and_self, and_true, true_and, apply_ite State.pending, apply_ite State.mem, apply_ite State.tck, apply_ite TckSt.now, State.choose_frame])

theorem State.noBuffer_frame (s : State) (p : Nat)  : (State.noBuffer s p).pending = s.pending ∧ (State.noBuffer s p).tck.now = s.tck.now ∧ (State.noBuffer s p).mem = s.mem := by
  unfold State.noBuffer
  repeat' first
    | (simp only [implies_true, and_self, and_true, true_and, apply_ite State.pending, apply_ite State.mem, apply_ite State.tck, apply_ite TckSt.now, State.count_frame, State.raise_frame]; done)
    | (simp (maxDischargeDepth := 8) only [foldl_PMN, implies_true, and_self, and_true, true_and, apply_ite State.pending, apply_ite State.mem, apply_ite State.tck, apply_ite TckSt.now, State.count_frame, State.raise_frame]; done)
    | (with_reducible refine foldl_PMN _ _ _ (fun s a => ?_))
    | split
    | (simp only [implies_true, and_self, and_true, true_and, apply_ite State.pending, apply_ite State.mem, apply_ite State.tck, apply_ite TckSt.now, State.count_frame, State.raise_frame])

theorem State.alloc_frame (s : State) (p owner : Nat) (data : List Byte)  : (State.alloc s p owner data).2.pending = s.pending ∧ (State.alloc s p owner data).2.tck.now = s.tck.now ∧ (State.alloc s p owner data).2.mem = s.mem := by
  unfold State.alloc
  repeat' first
    | (simp only [implies_true, and_self, and_true, true_and, apply_ite State.pending, apply_ite State.mem, apply_ite State.tck, apply_ite TckSt.now, State.freeBuf_frame, State.setBuf_frame, State.setUse_frame, State.noBuffer_frame]; done)
    | (simp (maxDischargeDepth := 8) only [foldl_PMN, implies_true, and_self, and_true, true_and, apply_ite State.pending, apply_ite State.mem, apply_ite State.tck, apply_ite TckSt.now, State.freeBuf_frame, State.setBuf_frame, State.setUse_frame, State.noBuffer_frame]; done)
    | (with_reducible refine foldl_PMN _ _ _ (fun s a => ?_))
    | split
    | (simp only [implies_true, and_self, and_true, true_and, apply_ite State.pending, apply_ite State.mem, apply_ite State.tck, apply_ite TckSt.now, State.freeBuf_frame, State.setBuf_frame, State.setUse_frame, State.noBuffer_frame])

theorem State.unbuf_frame (s : State) (h : Nat)  : (State.unbuf s h).pending = s.pending ∧ (State.unbuf s h).tck.now = s.tck.now ∧ (State.unbuf s h).mem = s.mem := by
  unfold State.unbuf
  repeat' first
    | (simp only [implies_true, and_self, and_true, true_and, apply_ite State.pending, apply_ite State.mem, apply_ite State.tck, apply_ite TckSt.now, State.alloc_frame, State.setBuf_frame, State.setUse_frame]; done)
    | (simp (maxDischargeDepth := 8) only [foldl_PMN, implies_true, and_self, and_true, true_and, apply_ite State.pending, apply_ite State.mem, apply_ite State.tck, apply_ite TckSt.now, State.alloc_frame, State.setBuf_frame, State.setUse_frame]; done)
    | (with_reducible refine foldl_PMN _ _ _ (fun s a => ?_))
    | split
    | (simp only [implies_true, and_self, and_true, true_and, apply_ite State.pending, apply_ite State.mem, apply_ite State.tck, apply_ite TckSt.now, State.alloc_frame, State.setBuf_frame, State.setUse_frame])

theorem State.freeChain_frame (s : State) (l : List Nat)  : (State.freeChain s l).pending = s.pending ∧ (State.freeChain s l).tck.now = s.tck.now ∧ (State.freeChain s l).mem = s.mem := by
  unfold State.freeChain
  repeat' first
    | (simp only [implies_true, and_self, and_true, true_and, apply_ite State.pending, apply_ite State.mem, apply_ite State.tck, apply_ite TckSt.now, State.unbuf_frame]; done)
    | (simp (maxDischargeDepth := 8) only [foldl_PMN, implies_true, and_self, and_true, true_and, apply_ite State.pending, apply_ite State.mem, apply_ite State.tck, apply_ite TckSt.now, State.unbuf_frame]; done)
    | (with_reducible refine foldl_PMN _ _ _ (fun s a => ?_))
    | split
    | (simp only [implies_true, and_self, and_true, true_and, apply_ite State.pending, apply_ite State.mem, apply_ite State.tck, apply_ite TckSt.now, State.unbuf_frame])

theorem State.allocFrame_frame (s : State) (p owner : Nat) (data : List Byte) (len : Nat)  : (State.allocFrame s p owner data len).2.pending = s.pending ∧ (State.allocFrame s p owner data len).2.tck.now = s.tck.now ∧ (State.allocFrame s p owner data len).2.mem = s.mem := by
  unfold State.allocFrame
  refine ⟨?_, ?_, ?_⟩
  · repeat' first
      | with_reducible assumption
      | with_reducible rfl
      | (with_reducible refine Eq.trans (State.alloc_frame ..).1 ?_)
      | (with_reducible refine alP_pair1 (by assumption) (Eq.trans (State.alloc_frame ..).1 ?_))
      | (with_reducible refine Eq.trans (State.freeChain_frame ..).1 ?_)
      | (with_reducible refine alP_fold0 _ _ _ (fun r a h => ?_) ?_)
      | (with_reducible refine alP_fold1 _ _ _ (fun r a h => ?_) ?_)
      | (with_reducible refine alP_fold2 _ _ _ (fun r a h => ?_) ?_)
      | dsimp only
      | split
  · repeat' first
      | with_reducible assumption
      | with_reducible rfl
      | (with_reducible refine Eq.trans (State.alloc_frame ..).2.1 ?_)
      | (with_reducible refine alN_pair1 (by assumption) (Eq.trans (State.alloc_frame ..).2.1 ?_))
      | (with_reducible refine Eq.trans (State.freeChain_frame ..).2.1 ?_)
      | (with_reducible refine alN_fold0 _ _ _ (fun r a h => ?_) ?_)
      | (with_reducible refine alN_fold1 _ _ _ (fun r a h => ?_) ?_)
      | (with_reducible refine alN_fold2 _ _ _ (fun r a h => ?_) ?_)
      | dsimp only
      | split
  · repeat' first
      | with_reducible assumption
      | with_reducible rfl
      | (with_reducible refine Eq.trans (State.alloc_frame ..).2.2 ?_)
      | (with_reducible refine alM_pair1 (by assumption) (Eq.trans (State.alloc_frame ..).2.2 ?_))
      | (with_reducible refine Eq.trans (State.freeChain_frame ..).2.2 ?_)
      | (with_reducible refine alM_fold0 _ _ _ (fun r a h => ?_) ?_)
      | (with_reducible refine alM_fold1 _ _ _ (fun r a h => ?_) ?_)
      | (with_reducible refine alM_fold2 _ _ _ (fun r a h => ?_) ?_)
      | dsimp only
      | split

theorem State.release_frame (s : State) (n : Nat) (f : QFrame)  : (State.release s n f).pending = s.pending ∧ (State.release s n f).tck.now = s.tck.now ∧ (State.release s n f).mem = s.mem := by
  unfold State.release
  repeat' first
    | (simp only [implies_true, and_self, and_true, true_and, apply_ite State.pending, apply_ite State.mem, apply_ite State.tck, apply_ite TckSt.now, State.freeChain_frame, State.setBuf_frame, State.count_frame]; done)
    | (simp (maxDischargeDepth := 8) only [foldl_PMN, implies_true, and_self, and_true, true_and, apply_ite State.pending, apply_ite State.mem, apply_ite State.tck, apply_ite TckSt.now, State.freeChain_frame, State.setBuf_frame, State.count_frame]; done)
    | (with_reducible refine foldl_PMN _ _ _ (fun s a => ?_))
    | split
    | (simp only [implies_true, and_self, and_true, true_and, apply_ite State.pending, apply_ite State.mem, apply_ite State.tck, apply_ite TckSt.now, State.freeChain_frame, State.setBuf_frame, State.count_frame])

theorem State.badFree_frame (s : State) (h agent kind : Nat)  : (State.badFree s h agent kind).pending = s.pending ∧ (State.badFree s h agent kind).tck.now = s.tck.now ∧ (State.badFree s h agent kind).mem = s.mem := by
  unfold State.badFree
  repeat' first
    | (simp only [implies_true, and_self, and_true, true_and, apply_ite State.pending, apply_ite State.mem, apply_ite State.tck, apply_ite TckSt.now, State.alloc_frame, State.setRegN_frame, State.count_frame, State.raise_frame]; done)
    | (simp (maxDischargeDepth := 8) only [foldl_PMN, implies_true, and_self, and_true, true_and, apply_ite State.pending, apply_ite State.mem, apply_ite State.tck, apply_ite TckSt.now, State.alloc_frame, State.setRegN_frame, State.count_frame, State.raise_frame]; done)
    | (with_reducible refine foldl_PMN _ _ _ (fun s a => ?_))
    | split
    | (simp only [implies_true, and_self, and_true, true_and, apply_ite State.pending, apply_ite State.mem, apply_ite State.tck, apply_ite TckSt.now, State.alloc_frame, State.setRegN_frame, State.count_frame, State.raise_frame])

theorem State.joinQ_frame (s : State) (n q : Nat) (f : QFrame)  : (State.joinQ s n q f).pending = s.pending ∧ (State.joinQ s n q f).tck.now = s.tck.now ∧ (State.joinQ s n q f).mem = s.mem := by
  unfold State.joinQ
  repeat' first
    | (simp only [implies_true, and_self, and_true, true_and, apply_ite State.pending, apply_ite State.mem, apply_ite State.tck, apply_ite TckSt.now, State.setNetQ_frame]; done)
    | (simp (maxDischargeDepth := 8) only [foldl_PMN, implies_true, and_self, and_true, true_and, apply_ite State.pending, apply_ite State.mem, apply_ite State.tck, apply_ite TckSt.now, State.setNetQ_frame]; done)
    | (with_reducible refine foldl_PMN _ _ _ (fun s a => ?_))
    | split
    | (simp only [implies_true, and_self, and_true, true_and, apply_ite State.pending, apply_ite State.mem, apply_ite State.tck, apply_ite TckSt.now, State.setNetQ_frame])

theorem State.queueOn_frame (s : State) (q : Nat) (chain : List Nat) (dests : List (Nat × QFrame))  : (State.queueOn s q chain dests).pending = s.pending ∧ (State.queueOn s q chain dests).tck.now = s.tck.now ∧ (State.queueOn s q chain dests).mem = s.mem := by
  unfold State.queueOn
  repeat' first
    | (simp only [implies_true, and_self, and_true, true_and, apply_ite State.pending, apply_ite State.mem, apply_ite State.tck, apply_ite TckSt.now, State.portCount_frame, State.freeChain_frame, State.setBuf_frame, State.joinQ_frame, State.count_frame]; done)
    | (simp (maxDischargeDepth := 8) only [foldl_PMN, implies_true, and_self, and_true, true_and, apply_ite State.pending, apply_ite State.mem, apply_ite State.tck, apply_ite TckSt.now, State.portCount_frame, State.freeChain_frame, State.setBuf_frame, State.joinQ_frame, State.count_frame]; done)
    | (with_reducible refine foldl_PMN _ _ _ (fun s a => ?_))
    | split
    | (simp only [implies_true, and_self, and_true, true_and, apply_ite State.pending, apply_ite State.mem, apply_ite State.tck, apply_ite TckSt.now, State.portCount_frame, State.freeChain_frame, State.setBuf_frame, State.joinQ_frame, State.count_frame])

theorem State.originate_frame (s : State) (owner q : Nat) (data : List Byte) (ports : List Nat)  : (State.originate s owner q data ports).2.pending = s.pending ∧ (State.originate s owner q data ports).2.tck.now = s.tck.now ∧ (State.originate s owner q data ports).2.mem = s.mem := by
  unfold State.originate
  refine ⟨?_, ?_, ?_⟩
  · repeat' first
      | with_reducible assumption
      | with_reducible rfl
      | (with_reducible refine Eq.trans (State.allocFrame_frame ..).1 ?_)
      | (with_reducible refine alP_pair1 (by assumption) (Eq.trans (State.allocFrame_frame ..).1 ?_))
      | (with_reducible refine Eq.trans (State.queueOn_frame ..).1 ?_)
      | dsimp only
      | split
  · repeat' first
      | with_reducible assumption
      | with_reducible rfl
      | (with_reducible refine Eq.trans (State.allocFrame_frame ..).2.1 ?_)
      | (with_reducible refine alN_pair1 (by assumption) (Eq.trans (State.allocFrame_frame ..).2.1 ?_))
      | (with_reducible refine Eq.trans (State.queueOn_frame ..).2.1 ?_)
      | dsimp only
      | split
  · repeat' first
      | with_reducible assumption
      | with_reducible rfl
      | (with_reducible refine Eq.trans (State.allocFrame_frame ..).2.2 ?_)
      | (with_reducible refine alM_pair1 (by assumption) (Eq.trans (State.allocFrame_frame ..).2.2 ?_))
      | (with_reducible refine Eq.trans (State.queueOn_frame ..).2.2 ?_)
      | dsimp only
      | split

theorem State.portLinkUp_frame (s : State) (n : Nat) (an : Bool)  : (State.portLinkUp s n an).pending = s.pending ∧ (State.portLinkUp s n an).tck.now = s.tck.now ∧ (State.portLinkUp s n an).mem = s.mem := by
  unfold State.portLinkUp
  repeat' first
    | (simp only [implies_true, and_self, and_true, true_and, apply_ite State.pending, apply_ite State.mem, apply_ite State.tck, apply_ite TckSt.now, State.setBit_frame, State.raise_frame]; done)
    | (simp (maxDischargeDepth := 8) only [foldl_PMN, implies_true, and_self, and_true, true_and, apply_ite State.pending, apply_ite State.mem, apply_ite State.tck, apply_ite TckSt.now, State.setBit_frame, State.raise_frame]; done)
    | (with_reducible refine foldl_PMN _ _ _ (fun s a => ?_))
    | split
    | (simp only [implies_true, and_self, and_true, true_and, apply_ite State.pending, apply_ite State.mem, apply_ite State.tck, apply_ite TckSt.now, State.setBit_frame, State.raise_frame])

theorem State.portLinkDown_frame (s : State) (n : Nat) (sync : Bool)  : (State.portLinkDown s n sync).pending = s.pending ∧ (State.portLinkDown s n sync).tck.now = s.tck.now ∧ (State.portLinkDown s n sync).mem = s.mem := by
  unfold State.portLinkDown
  repeat' first
    | (simp only [implies_true, and_self, and_true, true_and, apply_ite State.pending, apply_ite State.mem, apply_ite State.tck, apply_ite TckSt.now, State.setBit_frame, State.setNetPort_frame, State.raise_frame]; done)
    | (simp (maxDischargeDepth := 8) only [foldl_PMN, implies_true, and_self, and_true, true_and, apply_ite State.pending, apply_ite State.mem, apply_ite State.tck, apply_ite TckSt.now, State.setBit_frame, State.setNetPort_frame, State.raise_frame]; done)
    | (with_reducible refine foldl_PMN _ _ _ (fun s a => ?_))
    | split
    | (simp only [implies_true, and_self, and_true, true_and, apply_ite State.pending, apply_ite State.mem, apply_ite State.tck, apply_ite TckSt.now, State.setBit_frame, State.setNetPort_frame, State.raise_frame])

theorem State.remoteFault_frame (s : State) (n : Nat) (rf : Bool)  : (State.remoteFault s n rf).pending = s.pending ∧ (State.remoteFault s n rf).tck.now = s.tck.now ∧ (State.remoteFault s n rf).mem = s.mem := by
  unfold State.remoteFault
  repeat' first
    | (simp only [implies_true, and_self, and_true, true_and, apply_ite State.pending, apply_ite State.mem, apply_ite State.tck, apply_ite TckSt.now, State.setBit_frame, State.raiseIf_frame]; done)
    | (simp (maxDischargeDepth := 8) only [foldl_PMN, implies_true, and_self, and_true, true_and, apply_ite State.pending, apply_ite State.mem, apply_ite State.tck, apply_ite TckSt.now, State.setBit_frame, State.raiseIf_frame]; done)
    | (with_reducible refine foldl_PMN _ _ _ (fun s a => ?_))
    | split
    | (simp only [implies_true, and_self, and_true, true_and, apply_ite State.pending, apply_ite State.mem, apply_ite State.tck, apply_ite TckSt.now, State.setBit_frame, State.raiseIf_frame])

theorem State.portInterval_frame (s : State) (n cv : Nat)  : (State.portInterval s n cv).pending = s.pending ∧ (State.portInterval s n cv).tck.now = s.tck.now ∧ (State.portInterval s n cv).mem = s.mem := by
  unfold State.portInterval
  repeat' first
    | (simp only [implies_true, and_self, and_true, true_and, apply_ite State.pending, apply_ite State.mem, apply_ite State.tck, apply_ite TckSt.now, State.bump_frame, State.setNetPort_frame, State.chanFault_frame, State.chanOk_frame, State.setRegN_frame]; done)
    | (simp (maxDischargeDepth := 8) only [foldl_PMN, implies_true, and_self, and_true, true_and, apply_ite State.pending, apply_ite State.mem, apply_ite State.tck, apply_ite TckSt.now, State.bump_frame, State.setNetPort_frame, State.chanFault_frame, State.chanOk_frame, State.setRegN_frame]; done)
    | (with_reducible refine foldl_PMN _ _ _ (fun s a => ?_))
    | split
    | (simp only [implies_true, and_self, and_true, true_and, apply_ite State.pending, apply_ite State.mem, apply_ite State.tck, apply_ite TckSt.now, State.bump_frame, State.setNetPort_frame, State.chanFault_frame, State.chanOk_frame, State.setRegN_frame])

theorem State.pauseRx_frame (s : State) (n quanta : Nat)  : (State.pauseRx s n quanta).pending = s.pending ∧ (State.pauseRx s n quanta).tck.now = s.tck.now ∧ (State.pauseRx s n quanta).mem = s.mem := by
  unfold State.pauseRx
  repeat' first
    | (simp only [implies_true, and_self, and_true, true_and, apply_ite State.pending, apply_ite State.mem, apply_ite State.tck, apply_ite TckSt.now, State.setNetPort_frame, State.setBit_frame]; done)
    | (simp (maxDischargeDepth := 8) only [foldl_PMN, implies_true, and_self, and_true, true_and, apply_ite State.pending, apply_ite State.mem, apply_ite State.tck, apply_ite TckSt.now, State.setNetPort_frame, State.setBit_frame]; done)
    | (with_reducible refine foldl_PMN _ _ _ (fun s a => ?_))
    | split
    | (simp only [implies_true, and_self, and_true, true_and, apply_ite State.pending, apply_ite State.mem, apply_ite State.tck, apply_ite TckSt.now, State.setNetPort_frame, State.setBit_frame])

theorem State.pauseOver_frame (s : State) (n : Nat)  : (State.pauseOver s n).pending = s.pending ∧ (State.pauseOver s n).tck.now = s.tck.now ∧ (State.pauseOver s n).mem = s.mem := by
  unfold State.pauseOver
  repeat' first
    | (simp only [implies_true, and_self, and_true, true_and, apply_ite State.pending, apply_ite State.mem, apply_ite State.tck, apply_ite TckSt.now, State.setNetPort_frame, State.setBit_frame]; done)
    | (simp (maxDischargeDepth := 8) only [foldl_PMN, implies_true, and_self, and_true, true_and, apply_ite State.pending, apply_ite State.mem, apply_ite State.tck, apply_ite TckSt.now, State.setNetPort_frame, State.setBit_frame]; done)
    | (with_reducible refine foldl_PMN _ _ _ (fun s a => ?_))
    | split
    | (simp only [implies_true, and_self, and_true, true_and, apply_ite State.pending, apply_ite State.mem, apply_ite State.tck, apply_ite TckSt.now, State.setNetPort_frame, State.setBit_frame])

theorem State.pauseRepeat_frame (s : State) (n : Nat)  : (State.pauseRepeat s n).pending = s.pending ∧ (State.pauseRepeat s n).tck.now = s.tck.now ∧ (State.pauseRepeat s n).mem = s.mem := by
  unfold State.pauseRepeat
  repeat' first
    | (simp only [implies_true, and_self, and_true, true_and, apply_ite State.pending, apply_ite State.mem, apply_ite State.tck, apply_ite TckSt.now, State.comes_frame, State.sendPause_frame]; done)
    | (simp (maxDischargeDepth := 8) only [foldl_PMN, implies_true, and_self, and_true, true_and, apply_ite State.pending, apply_ite State.mem, apply_ite State.tck, apply_ite TckSt.now, State.comes_frame, State.sendPause_frame]; done)
    | (with_reducible refine foldl_PMN _ _ _ (fun s a => ?_))
    | split
    | (simp only [implies_true, and_self, and_true, true_and, apply_ite State.pending, apply_ite State.mem, apply_ite State.tck, apply_ite TckSt.now, State.comes_frame, State.sendPause_frame])

theorem State.poolCfgWrite_frame (s : State) (m addr : Nat) (v : Word)  : (State.poolCfgWrite s m addr v).pending = s.pending ∧ (State.poolCfgWrite s m addr v).tck.now = s.tck.now ∧ (State.poolCfgWrite s m addr v).mem = s.mem := by
  unfold State.poolCfgWrite
  repeat' first
    | (simp only [implies_true, and_self, and_true, true_and, apply_ite State.pending, apply_ite State.mem, apply_ite State.tck, apply_ite TckSt.now, State.refuseWrite_frame, State.storeReg_frame, State.poolStates_frame]; done)
    | (simp (maxDischargeDepth := 8) only [foldl_PMN, implies_true, and_self, and_true, true_and, apply_ite State.pending, apply_ite State.mem, apply_ite State.tck, apply_ite TckSt.now, State.refuseWrite_frame, State.storeReg_frame, State.poolStates_frame]; done)
    | (with_reducible refine foldl_PMN _ _ _ (fun s a => ?_))
    | split
    | (simp only [implies_true, and_self, and_true, true_and, apply_ite State.pending, apply_ite State.mem, apply_ite State.tck, apply_ite TckSt.now, State.refuseWrite_frame, State.storeReg_frame, State.poolStates_frame])

theorem State.bpmRes_frame (s : State) (res h : Nat)  : (State.bpmRes s res h).pending = s.pending ∧ (State.bpmRes s res h).tck.now = s.tck.now ∧ (State.bpmRes s res h).mem = s.mem := by
  unfold State.bpmRes
  repeat' first
    | (simp only [implies_true, and_self, and_true, true_and, apply_ite State.pending, apply_ite State.mem, apply_ite State.tck, apply_ite TckSt.now, State.setRegN_frame]; done)
    | (simp (maxDischargeDepth := 8) only [foldl_PMN, implies_true, and_self, and_true, true_and, apply_ite State.pending, apply_ite State.mem, apply_ite State.tck, apply_ite TckSt.now, State.setRegN_frame]; done)
    | (with_reducible refine foldl_PMN _ _ _ (fun s a => ?_))
    | split
    | (simp only [implies_true, and_self, and_true, true_and, apply_ite State.pending, apply_ite State.mem, apply_ite State.tck, apply_ite TckSt.now, State.setRegN_frame])

theorem State.bpmAlloc_frame (s : State)  : (State.bpmAlloc s).pending = s.pending ∧ (State.bpmAlloc s).tck.now = s.tck.now ∧ (State.bpmAlloc s).mem = s.mem := by
  unfold State.bpmAlloc
  refine ⟨?_, ?_, ?_⟩
  · repeat' first
      | with_reducible assumption
      | with_reducible rfl
      | (with_reducible refine Eq.trans (State.alloc_frame ..).1 ?_)
      | (with_reducible refine alP_pair1 (by assumption) (Eq.trans (State.alloc_frame ..).1 ?_))
      | (with_reducible refine Eq.trans (State.bpmRes_frame ..).1 ?_)
      | dsimp only
      | split
  · repeat' first
      | with_reducible assumption
      | with_reducible rfl
      | (with_reducible refine Eq.trans (State.alloc_frame ..).2.1 ?_)
      | (with_reducible refine alN_pair1 (by assumption) (Eq.trans (State.alloc_frame ..).2.1 ?_))
      | (with_reducible refine Eq.trans (State.bpmRes_frame ..).2.1 ?_)
      | dsimp only
      | split
  · repeat' first
      | with_reducible assumption
      | with_reducible rfl
      | (with_reducible refine Eq.trans (State.alloc_frame ..).2.2 ?_)
      | (with_reducible refine alM_pair1 (by assumption) (Eq.trans (State.alloc_frame ..).2.2 ?_))
      | (with_reducible refine Eq.trans (State.bpmRes_frame ..).2.2 ?_)
      | dsimp only
      | split

theorem State.bpmFree_frame (s : State) (m h : Nat)  : (State.bpmFree s m h).pending = s.pending ∧ (State.bpmFree s m h).tck.now = s.tck.now ∧ (State.bpmFree s m h).mem = s.mem := by
  unfold State.bpmFree
  repeat' first
    | (simp only [implies_true, and_self, and_true, true_and, apply_ite State.pending, apply_ite State.mem, apply_ite State.tck, apply_ite TckSt.now, State.alloc_frame, State.refuseWrite_frame, State.badFree_frame, State.bpmRes_frame, State.unbuf_frame]; done)
    | (simp (maxDischargeDepth := 8) only [foldl_PMN, implies_true, and_self, and_true, true_and, apply_ite State.pending, apply_ite State.mem, apply_ite State.tck, apply_ite TckSt.now, State.alloc_frame, State.refuseWrite_frame, State.badFree_frame, State.bpmRes_frame, State.unbuf_frame]; done)
    | (with_reducible refine foldl_PMN _ _ _ (fun s a => ?_))
    | split
    | (simp only [implies_true, and_self, and_true, true_and, apply_ite State.pending, apply_ite State.mem, apply_ite State.tck, apply_ite TckSt.now, State.alloc_frame, State.refuseWrite_frame, State.badFree_frame, State.bpmRes_frame, State.unbuf_frame])

theorem State.bpmCmd_frame (s : State) (m : Nat) (v : Word)  : (State.bpmCmd s m v).pending = s.pending ∧ (State.bpmCmd s m v).tck.now = s.tck.now ∧ (State.bpmCmd s m v).mem = s.mem := by
  unfold State.bpmCmd
  repeat' first
    | (simp only [implies_true, and_self, and_true, true_and, apply_ite State.pending, apply_ite State.mem, apply_ite State.tck, apply_ite TckSt.now, State.bpmAlloc_frame, State.bpmFree_frame]; done)
    | (simp (maxDischargeDepth := 8) only [foldl_PMN, implies_true, and_self, and_true, true_and, apply_ite State.pending, apply_ite State.mem, apply_ite State.tck, apply_ite TckSt.now, State.bpmAlloc_frame, State.bpmFree_frame]; done)
    | (with_reducible refine foldl_PMN _ _ _ (fun s a => ?_))
    | split
    | (simp only [implies_true, and_self, and_true, true_and, apply_ite State.pending, apply_ite State.mem, apply_ite State.tck, apply_ite TckSt.now, State.bpmAlloc_frame, State.bpmFree_frame])

theorem execPauseRepeat_frame (port : Fin 66) (s : State) {r : State} (e : execPauseRepeat port s = .next r) : r.pending = s.pending ∧ r.tck.now = s.tck.now ∧ r.mem = s.mem := by
  unfold execPauseRepeat at e
  revert e
  intro e
  refine ⟨?_, ?_, ?_⟩
  · revert e
    repeat' first
      | with_reducible assumption
      | with_reducible rfl
      | (with_reducible refine Eq.trans (State.pauseRepeat_frame ..).1 ?_)
      | (with_reducible refine ocP_next ?_)
      | with_reducible exact ocP_fault
      | dsimp only
      | split
  · revert e
    repeat' first
      | with_reducible assumption
      | with_reducible rfl
      | (with_reducible refine Eq.trans (State.pauseRepeat_frame ..).2.1 ?_)
      | (with_reducible refine ocN_next ?_)
      | with_reducible exact ocN_fault
      | dsimp only
      | split
  · revert e
    repeat' first
      | with_reducible assumption
      | with_reducible rfl
      | (with_reducible refine Eq.trans (State.pauseRepeat_frame ..).2.2 ?_)
      | (with_reducible refine ocM_next ?_)
      | with_reducible exact ocM_fault
      | dsimp only
      | split

theorem execPauseExpiry_frame (port : Fin 66) (cycle : Nat) (s : State) {r : State} (e : execPauseExpiry port cycle s = .next r) : r.pending = s.pending ∧ r.tck.now = s.tck.now ∧ r.mem = s.mem := by
  unfold execPauseExpiry at e
  revert e
  intro e
  refine ⟨?_, ?_, ?_⟩
  · revert e
    repeat' first
      | with_reducible assumption
      | with_reducible rfl
      | (with_reducible refine Eq.trans (State.atCycle_frame ..).1 ?_)
      | (with_reducible refine Eq.trans (State.pauseOver_frame ..).1 ?_)
      | (with_reducible refine ocP_next ?_)
      | with_reducible exact ocP_fault
      | dsimp only
      | split
  · revert e
    repeat' first
      | with_reducible assumption
      | with_reducible rfl
      | (with_reducible refine Eq.trans (State.atCycle_frame ..).2.1 ?_)
      | (with_reducible refine Eq.trans (State.pauseOver_frame ..).2.1 ?_)
      | (with_reducible refine ocN_next ?_)
      | with_reducible exact ocN_fault
      | dsimp only
      | split
  · revert e
    repeat' first
      | with_reducible assumption
      | with_reducible rfl
      | (with_reducible refine Eq.trans (State.atCycle_frame ..).2.2 ?_)
      | (with_reducible refine Eq.trans (State.pauseOver_frame ..).2.2 ?_)
      | (with_reducible refine ocM_next ?_)
      | with_reducible exact ocM_fault
      | dsimp only
      | split

theorem execLinkUp_frame (port : Fin 66) (an : Bool) (s : State) {r : State} (e : execLinkUp port an s = .next r) : r.pending = s.pending ∧ r.tck.now = s.tck.now ∧ r.mem = s.mem := by
  unfold execLinkUp at e
  revert e
  intro e
  refine ⟨?_, ?_, ?_⟩
  · revert e
    repeat' first
      | with_reducible assumption
      | with_reducible rfl
      | (with_reducible refine Eq.trans (State.portLinkUp_frame ..).1 ?_)
      | (with_reducible refine ocP_next ?_)
      | with_reducible exact ocP_fault
      | dsimp only
      | split
  · revert e
    repeat' first
      | with_reducible assumption
      | with_reducible rfl
      | (with_reducible refine Eq.trans (State.portLinkUp_frame ..).2.1 ?_)
      | (with_reducible refine ocN_next ?_)
      | with_reducible exact ocN_fault
      | dsimp only
      | split
  · revert e
    repeat' first
      | with_reducible assumption
      | with_reducible rfl
      | (with_reducible refine Eq.trans (State.portLinkUp_frame ..).2.2 ?_)
      | (with_reducible refine ocM_next ?_)
      | with_reducible exact ocM_fault
      | dsimp only
      | split

theorem execLinkDown_frame (port : Fin 66) (sync : Bool) (s : State) {r : State} (e : execLinkDown port sync s = .next r) : r.pending = s.pending ∧ r.tck.now = s.tck.now ∧ r.mem = s.mem := by
  unfold execLinkDown at e
  revert e
  intro e
  refine ⟨?_, ?_, ?_⟩
  · revert e
    repeat' first
      | with_reducible assumption
      | with_reducible rfl
      | (with_reducible refine Eq.trans (State.portLinkDown_frame ..).1 ?_)
      | (with_reducible refine ocP_next ?_)
      | with_reducible exact ocP_fault
      | dsimp only
      | split
  · revert e
    repeat' first
      | with_reducible assumption
      | with_reducible rfl
      | (with_reducible refine Eq.trans (State.portLinkDown_frame ..).2.1 ?_)
      | (with_reducible refine ocN_next ?_)
      | with_reducible exact ocN_fault
      | dsimp only
      | split
  · revert e
    repeat' first
      | with_reducible assumption
      | with_reducible rfl
      | (with_reducible refine Eq.trans (State.portLinkDown_frame ..).2.2 ?_)
      | (with_reducible refine ocM_next ?_)
      | with_reducible exact ocM_fault
      | dsimp only
      | split

theorem execRemoteFault_frame (port : Fin 66) (present : Bool) (s : State) {r : State} (e : execRemoteFault port present s = .next r) : r.pending = s.pending ∧ r.tck.now = s.tck.now ∧ r.mem = s.mem := by
  unfold execRemoteFault at e
  revert e
  intro e
  refine ⟨?_, ?_, ?_⟩
  · revert e
    repeat' first
      | with_reducible assumption
      | with_reducible rfl
      | (with_reducible refine Eq.trans (State.remoteFault_frame ..).1 ?_)
      | (with_reducible refine ocP_next ?_)
      | with_reducible exact ocP_fault
      | dsimp only
      | split
  · revert e
    repeat' first
      | with_reducible assumption
      | with_reducible rfl
      | (with_reducible refine Eq.trans (State.remoteFault_frame ..).2.1 ?_)
      | (with_reducible refine ocN_next ?_)
      | with_reducible exact ocN_fault
      | dsimp only
      | split
  · revert e
    repeat' first
      | with_reducible assumption
      | with_reducible rfl
      | (with_reducible refine Eq.trans (State.remoteFault_frame ..).2.2 ?_)
      | (with_reducible refine ocM_next ?_)
      | with_reducible exact ocM_fault
      | dsimp only
      | split

theorem execPortInterval_frame (cv : List (Fin 66 × Nat)) (s : State) {r : State} (e : execPortInterval cv s = .next r) : r.pending = s.pending ∧ r.tck.now = s.tck.now ∧ r.mem = s.mem := by
  unfold execPortInterval at e
  revert e
  intro e
  refine ⟨?_, ?_, ?_⟩
  · revert e
    repeat' first
      | with_reducible assumption
      | with_reducible rfl
      | (with_reducible refine Eq.trans (State.portInterval_frame ..).1 ?_)
      | (with_reducible refine alP_fold0 _ _ _ (fun r a h => ?_) ?_)
      | (with_reducible refine alP_fold1 _ _ _ (fun r a h => ?_) ?_)
      | (with_reducible refine alP_fold2 _ _ _ (fun r a h => ?_) ?_)
      | (with_reducible refine ocP_next ?_)
      | with_reducible exact ocP_fault
      | dsimp only
      | split
  · revert e
    repeat' first
      | with_reducible assumption
      | with_reducible rfl
      | (with_reducible refine Eq.trans (State.portInterval_frame ..).2.1 ?_)
      | (with_reducible refine alN_fold0 _ _ _ (fun r a h => ?_) ?_)
      | (with_reducible refine alN_fold1 _ _ _ (fun r a h => ?_) ?_)
      | (with_reducible refine alN_fold2 _ _ _ (fun r a h => ?_) ?_)
      | (with_reducible refine ocN_next ?_)
      | with_reducible exact ocN_fault
      | dsimp only
      | split
  · revert e
    repeat' first
      | with_reducible assumption
      | with_reducible rfl
      | (with_reducible refine Eq.trans (State.portInterval_frame ..).2.2 ?_)
      | (with_reducible refine alM_fold0 _ _ _ (fun r a h => ?_) ?_)
      | (with_reducible refine alM_fold1 _ _ _ (fun r a h => ?_) ?_)
      | (with_reducible refine alM_fold2 _ _ _ (fun r a h => ?_) ?_)
      | (with_reducible refine ocM_next ?_)
      | with_reducible exact ocM_fault
      | dsimp only
      | split

theorem execAlloc_frame (m : Fin 8) (s : State) {r : State} (e : execAlloc m s = .next r) : r.pending = s.pending ∧ r.tck.now = s.tck.now ∧ r.mem = s.mem := by
  unfold execAlloc at e
  revert e
  intro e
  refine ⟨?_, ?_, ?_⟩
  · revert e
    repeat' first
      | with_reducible assumption
      | with_reducible rfl
      | (with_reducible refine Eq.trans (State.gateWrite_frP (heff := fun _ => ?_) ..) ?_)
      | (with_reducible refine Eq.trans (State.bpmAlloc_frame ..).1 ?_)
      | (with_reducible refine ocP_next ?_)
      | with_reducible exact ocP_fault
      | dsimp only
      | split
  · revert e
    repeat' first
      | with_reducible assumption
      | with_reducible rfl
      | (with_reducible refine Eq.trans (State.gateWrite_frN (heff := fun _ => ?_) ..) ?_)
      | (with_reducible refine Eq.trans (State.bpmAlloc_frame ..).2.1 ?_)
      | (with_reducible refine ocN_next ?_)
      | with_reducible exact ocN_fault
      | dsimp only
      | split
  · revert e
    repeat' first
      | with_reducible assumption
      | with_reducible rfl
      | (with_reducible refine Eq.trans (State.gateWrite_frM (heff := fun _ => ?_) ..) ?_)
      | (with_reducible refine Eq.trans (State.bpmAlloc_frame ..).2.2 ?_)
      | (with_reducible refine ocM_next ?_)
      | with_reducible exact ocM_fault
      | dsimp only
      | split

theorem execFree_frame (m : Fin 8) (handle : Fin 16384) (s : State) {r : State} (e : execFree m handle s = .next r) : r.pending = s.pending ∧ r.tck.now = s.tck.now ∧ r.mem = s.mem := by
  unfold execFree at e
  revert e
  intro e
  refine ⟨?_, ?_, ?_⟩
  · revert e
    repeat' first
      | with_reducible assumption
      | with_reducible rfl
      | (with_reducible refine Eq.trans (State.gateWrite_frP (heff := fun _ => ?_) ..) ?_)
      | (with_reducible refine Eq.trans (State.bpmFree_frame ..).1 ?_)
      | (with_reducible refine ocP_next ?_)
      | with_reducible exact ocP_fault
      | dsimp only
      | split
  · revert e
    repeat' first
      | with_reducible assumption
      | with_reducible rfl
      | (with_reducible refine Eq.trans (State.gateWrite_frN (heff := fun _ => ?_) ..) ?_)
      | (with_reducible refine Eq.trans (State.bpmFree_frame ..).2.1 ?_)
      | (with_reducible refine ocN_next ?_)
      | with_reducible exact ocN_fault
      | dsimp only
      | split
  · revert e
    repeat' first
      | with_reducible assumption
      | with_reducible rfl
      | (with_reducible refine Eq.trans (State.gateWrite_frM (heff := fun _ => ?_) ..) ?_)
      | (with_reducible refine Eq.trans (State.bpmFree_frame ..).2.2 ?_)
      | (with_reducible refine ocM_next ?_)
      | with_reducible exact ocM_fault
      | dsimp only
      | split

theorem execBpmPoolCfgWrite_frame (m : Fin 8) (pool word : Fin 4) (v : Word) (s : State) {r : State} (e : execBpmPoolCfgWrite m pool word v s = .next r) : r.pending = s.pending ∧ r.tck.now = s.tck.now ∧ r.mem = s.mem := by
  unfold execBpmPoolCfgWrite at e
  revert e
  intro e
  refine ⟨?_, ?_, ?_⟩
  · revert e
    repeat' first
      | with_reducible assumption
      | with_reducible rfl
      | (with_reducible refine Eq.trans (State.gateWrite_frP (heff := fun _ => ?_) ..) ?_)
      | (with_reducible refine Eq.trans (State.poolCfgWrite_frame ..).1 ?_)
      | (with_reducible refine ocP_next ?_)
      | with_reducible exact ocP_fault
      | dsimp only
      | split
  · revert e
    repeat' first
      | with_reducible assumption
      | with_reducible rfl
      | (with_reducible refine Eq.trans (State.gateWrite_frN (heff := fun _ => ?_) ..) ?_)
      | (with_reducible refine Eq.trans (State.poolCfgWrite_frame ..).2.1 ?_)
      | (with_reducible refine ocN_next ?_)
      | with_reducible exact ocN_fault
      | dsimp only
      | split
  · revert e
    repeat' first
      | with_reducible assumption
      | with_reducible rfl
      | (with_reducible refine Eq.trans (State.gateWrite_frM (heff := fun _ => ?_) ..) ?_)
      | (with_reducible refine Eq.trans (State.poolCfgWrite_frame ..).2.2 ?_)
      | (with_reducible refine ocM_next ?_)
      | with_reducible exact ocM_fault
      | dsimp only
      | split

theorem State.setSession_frame (s : State) (i : Nat) (x : Session)  : (State.setSession s i x).pending = s.pending ∧ (State.setSession s i x).tck.now = s.tck.now ∧ (State.setSession s i x).mem = s.mem := by
  unfold State.setSession
  repeat' first
    | (simp only [implies_true, and_self, and_true, true_and, apply_ite State.pending, apply_ite State.mem, apply_ite State.tck, apply_ite TckSt.now]; done)
    | (simp (maxDischargeDepth := 8) only [foldl_PMN, implies_true, and_self, and_true, true_and, apply_ite State.pending, apply_ite State.mem, apply_ite State.tck, apply_ite TckSt.now]; done)
    | (with_reducible refine foldl_PMN _ _ _ (fun s a => ?_))
    | split
    | (simp only [implies_true, and_self, and_true, true_and, apply_ite State.pending, apply_ite State.mem, apply_ite State.tck, apply_ite TckSt.now])

theorem State.mgtClose_frame (s : State) (i : Nat)  : (State.mgtClose s i).pending = s.pending ∧ (State.mgtClose s i).tck.now = s.tck.now ∧ (State.mgtClose s i).mem = s.mem := by
  unfold State.mgtClose
  repeat' first
    | (simp only [implies_true, and_self, and_true, true_and, apply_ite State.pending, apply_ite State.mem, apply_ite State.tck, apply_ite TckSt.now, State.setSession_frame, State.setBit_frame, State.raise_frame, State.resetMaster_frame]; done)
    | (simp (maxDischargeDepth := 8) only [foldl_PMN, implies_true, and_self, and_true, true_and, apply_ite State.pending, apply_ite State.mem, apply_ite State.tck, apply_ite TckSt.now, State.setSession_frame, State.setBit_frame, State.raise_frame, State.resetMaster_frame]; done)
    | (with_reducible refine foldl_PMN _ _ _ (fun s a => ?_))
    | split
    | (simp only [implies_true, and_self, and_true, true_and, apply_ite State.pending, apply_ite State.mem, apply_ite State.tck, apply_ite TckSt.now, State.setSession_frame, State.setBit_frame, State.raise_frame, State.resetMaster_frame])

end Sys2Proof.Machine
end

