-- ==== Sys2Proof/Laws/FrameHpt.lean ====
section
/-! SUPPORT. What every operation of Machine/Hpt.lean leaves alone: the queue of waiting commands, the tick counter (unless it
writes it), and memory or its canonical form. -/

namespace Sys2Proof.Machine

set_option linter.all false
set_option Elab.async false
set_option maxRecDepth 4000

theorem State.writeDesc_frame (s : State) (r i : Nat) (l : List Byte)  : (State.writeDesc s r i l).pending = s.pending ∧ (State.writeDesc s r i l).tck.now = s.tck.now ∧ (State.writeDesc s r i l).mem = s.mem := by
  unfold State.writeDesc
  repeat' first
    | (simp only [implies_true, and_self, and_true, true_and, apply_ite State.pending, apply_ite State.mem, apply_ite State.tck, apply_ite TckSt.now, State.emit_frame]; done)
    | (simp (maxDischargeDepth := 8) only [foldl_PMN, implies_true, and_self, and_true, true_and, apply_ite State.pending, apply_ite State.mem, apply_ite State.tck, apply_ite TckSt.now, State.emit_frame]; done)
    | (with_reducible refine foldl_PMN _ _ _ (fun s a => ?_))
    | split
    | (simp only [implies_true, and_self, and_true, true_and, apply_ite State.pending, apply_ite State.mem, apply_ite State.tck, apply_ite TckSt.now, State.emit_frame])

theorem State.hostRx_frame (s : State) (reason port vid cls : Nat) (ts : Option (BitVec 96)) (data : List Byte)  : (State.hostRx s reason port vid cls ts data).pending = s.pending ∧ (State.hostRx s reason port vid cls ts data).tck.now = s.tck.now ∧ (State.hostRx s reason port vid cls ts data).mem = s.mem := by
  unfold State.hostRx
  repeat' first
    | (simp only [implies_true, and_self, and_true, true_and, apply_ite State.pending, apply_ite State.mem, apply_ite State.tck, apply_ite TckSt.now, State.count_frame, State.raise_frame, State.emit_frame, State.writeDesc_frame, State.setFld_frame]; done)
    | (simp (maxDischargeDepth := 8) only [foldl_PMN, implies_true, and_self, and_true, true_and, apply_ite State.pending, apply_ite State.mem, apply_ite State.tck, apply_ite TckSt.now, State.count_frame, State.raise_frame, State.emit_frame, State.writeDesc_frame, State.setFld_frame]; done)
    | (with_reducible refine foldl_PMN _ _ _ (fun s a => ?_))
    | split
    | (simp only [implies_true, and_self, and_true, true_and, apply_ite State.pending, apply_ite State.mem, apply_ite State.tck, apply_ite TckSt.now, State.count_frame, State.raise_frame, State.emit_frame, State.writeDesc_frame, State.setFld_frame])

theorem State.txDone_frame (s : State) (i status : Nat) (flags : Nat) (len port prio vid : Nat) (ts : BitVec 96)  : (State.txDone s i status flags len port prio vid ts).pending = s.pending ∧ (State.txDone s i status flags len port prio vid ts).tck.now = s.tck.now ∧ (State.txDone s i status flags len port prio vid ts).mem = s.mem := by
  unfold State.txDone
  repeat' first
    | (simp only [implies_true, and_self, and_true, true_and, apply_ite State.pending, apply_ite State.mem, apply_ite State.tck, apply_ite TckSt.now, State.writeDesc_frame, State.count_frame, State.raise_frame, State.raiseIf_frame]; done)
    | (simp (maxDischargeDepth := 8) only [foldl_PMN, implies_true, and_self, and_true, true_and, apply_ite State.pending, apply_ite State.mem, apply_ite State.tck, apply_ite TckSt.now, State.writeDesc_frame, State.count_frame, State.raise_frame, State.raiseIf_frame]; done)
    | (with_reducible refine foldl_PMN _ _ _ (fun s a => ?_))
    | split
    | (simp only [implies_true, and_self, and_true, true_and, apply_ite State.pending, apply_ite State.mem, apply_ite State.tck, apply_ite TckSt.now, State.writeDesc_frame, State.count_frame, State.raise_frame, State.raiseIf_frame])

theorem State.txHead_frame (s : State)  : (State.txHead s).pending = s.pending ∧ (State.txHead s).tck.now = s.tck.now ∧ (State.txHead s).mem = s.mem := by
  unfold State.txHead
  repeat' first
    | (simp only [implies_true, and_self, and_true, true_and, apply_ite State.pending, apply_ite State.mem, apply_ite State.tck, apply_ite TckSt.now, State.setFld_frame]; done)
    | (simp (maxDischargeDepth := 8) only [foldl_PMN, implies_true, and_self, and_true, true_and, apply_ite State.pending, apply_ite State.mem, apply_ite State.tck, apply_ite TckSt.now, State.setFld_frame]; done)
    | (with_reducible refine foldl_PMN _ _ _ (fun s a => ?_))
    | split
    | (simp only [implies_true, and_self, and_true, true_and, apply_ite State.pending, apply_ite State.mem, apply_ite State.tck, apply_ite TckSt.now, State.setFld_frame])

theorem State.txClose_frame (s : State) (d : Nat × Nat) (ts : BitVec 96) (status : Nat)  : (State.txClose s d ts status).pending = s.pending ∧ (State.txClose s d ts status).tck.now = s.tck.now ∧ (State.txClose s d ts status).mem = s.mem := by
  unfold State.txClose
  repeat' first
    | (simp only [implies_true, and_self, and_true, true_and, apply_ite State.pending, apply_ite State.mem, apply_ite State.tck, apply_ite TckSt.now, State.emit_frame, State.count_frame, State.raise_frame, State.raiseIf_frame, State.txHead_frame]; done)
    | (simp (maxDischargeDepth := 8) only [foldl_PMN, implies_true, and_self, and_true, true_and, apply_ite State.pending, apply_ite State.mem, apply_ite State.tck, apply_ite TckSt.now, State.emit_frame, State.count_frame, State.raise_frame, State.raiseIf_frame, State.txHead_frame]; done)
    | (with_reducible refine foldl_PMN _ _ _ (fun s a => ?_))
    | split
    | (simp only [implies_true, and_self, and_true, true_and, apply_ite State.pending, apply_ite State.mem, apply_ite State.tck, apply_ite TckSt.now, State.emit_frame, State.count_frame, State.raise_frame, State.raiseIf_frame, State.txHead_frame])

theorem State.endDesc_frame (s : State) (f : QFrame) (status : Option Nat)  : (State.endDesc s f status).pending = s.pending ∧ (State.endDesc s f status).tck.now = s.tck.now ∧ (State.endDesc s f status).mem = s.mem := by
  unfold State.endDesc
  repeat' first
    | (simp only [implies_true, and_self, and_true, true_and, apply_ite State.pending, apply_ite State.mem, apply_ite State.tck, apply_ite TckSt.now, State.txClose_frame, State.tick1_frame]; done)
    | (simp (maxDischargeDepth := 8) only [foldl_PMN, implies_true, and_self, and_true, true_and, apply_ite State.pending, apply_ite State.mem, apply_ite State.tck, apply_ite TckSt.now, State.txClose_frame, State.tick1_frame]; done)
    | (with_reducible refine foldl_PMN _ _ _ (fun s a => ?_))
    | split
    | (simp only [implies_true, and_self, and_true, true_and, apply_ite State.pending, apply_ite State.mem, apply_ite State.tck, apply_ite TckSt.now, State.txClose_frame, State.tick1_frame])

theorem State.dropFrame_frame (s : State) (n : Nat) (f : QFrame) (status : Option Nat)  : (State.dropFrame s n f status).pending = s.pending ∧ (State.dropFrame s n f status).tck.now = s.tck.now ∧ (State.dropFrame s n f status).mem = s.mem := by
  unfold State.dropFrame
  repeat' first
    | (simp only [implies_true, and_self, and_true, true_and, apply_ite State.pending, apply_ite State.mem, apply_ite State.tck, apply_ite TckSt.now, State.release_frame, State.endDesc_frame]; done)
    | (simp (maxDischargeDepth := 8) only [foldl_PMN, implies_true, and_self, and_true, true_and, apply_ite State.pending, apply_ite State.mem, apply_ite State.tck, apply_ite TckSt.now, State.release_frame, State.endDesc_frame]; done)
    | (with_reducible refine foldl_PMN _ _ _ (fun s a => ?_))
    | split
    | (simp only [implies_true, and_self, and_true, true_and, apply_ite State.pending, apply_ite State.mem, apply_ite State.tck, apply_ite TckSt.now, State.release_frame, State.endDesc_frame])

theorem State.emptyQueues_frame (s : State) (n : Nat) (status : Option Nat)  : (State.emptyQueues s n status).pending = s.pending ∧ (State.emptyQueues s n status).tck.now = s.tck.now ∧ (State.emptyQueues s n status).mem = s.mem := by
  unfold State.emptyQueues
  repeat' first
    | (simp only [implies_true, and_self, and_true, true_and, apply_ite State.pending, apply_ite State.mem, apply_ite State.tck, apply_ite TckSt.now, State.setNetQ_frame, State.dropFrame_frame]; done)
    | (simp (maxDischargeDepth := 8) only [foldl_PMN, implies_true, and_self, and_true, true_and, apply_ite State.pending, apply_ite State.mem, apply_ite State.tck, apply_ite TckSt.now, State.setNetQ_frame, State.dropFrame_frame]; done)
    | (with_reducible refine foldl_PMN _ _ _ (fun s a => ?_))
    | split
    | (simp only [implies_true, and_self, and_true, true_and, apply_ite State.pending, apply_ite State.mem, apply_ite State.tck, apply_ite TckSt.now, State.setNetQ_frame, State.dropFrame_frame])

theorem State.gatePorts_frame (s : State)  : (State.gatePorts s).pending = s.pending ∧ (State.gatePorts s).tck.now = s.tck.now ∧ (State.gatePorts s).mem = s.mem := by
  unfold State.gatePorts
  repeat' first
    | (simp only [implies_true, and_self, and_true, true_and, apply_ite State.pending, apply_ite State.mem, apply_ite State.tck, apply_ite TckSt.now, State.setNetPort_frame, State.emptyQueues_frame, State.bump_frame]; done)
    | (simp (maxDischargeDepth := 8) only [foldl_PMN, implies_true, and_self, and_true, true_and, apply_ite State.pending, apply_ite State.mem, apply_ite State.tck, apply_ite TckSt.now, State.setNetPort_frame, State.emptyQueues_frame, State.bump_frame]; done)
    | (with_reducible refine foldl_PMN _ _ _ (fun s a => ?_))
    | split
    | (simp only [implies_true, and_self, and_true, true_and, apply_ite State.pending, apply_ite State.mem, apply_ite State.tck, apply_ite TckSt.now, State.setNetPort_frame, State.emptyQueues_frame, State.bump_frame])

theorem State.hptCtrlWrite_frame (s : State) (v : Word)  : (State.hptCtrlWrite s v).pending = s.pending ∧ (State.hptCtrlWrite s v).tck.now = s.tck.now ∧ (State.hptCtrlWrite s v).mem = s.mem := by
  unfold State.hptCtrlWrite
  repeat' first
    | (simp only [implies_true, and_self, and_true, true_and, apply_ite State.pending, apply_ite State.mem, apply_ite State.tck, apply_ite TckSt.now, State.storeReg_frame, State.setRegN_frame]; done)
    | (simp (maxDischargeDepth := 8) only [foldl_PMN, implies_true, and_self, and_true, true_and, apply_ite State.pending, apply_ite State.mem, apply_ite State.tck, apply_ite TckSt.now, State.storeReg_frame, State.setRegN_frame]; done)
    | (with_reducible refine foldl_PMN _ _ _ (fun s a => ?_))
    | split
    | (simp only [implies_true, and_self, and_true, true_and, apply_ite State.pending, apply_ite State.mem, apply_ite State.tck, apply_ite TckSt.now, State.storeReg_frame, State.setRegN_frame])

theorem State.ringWrite_frame (s : State) (addr : Nat) (v : Word)  : (State.ringWrite s addr v).pending = s.pending ∧ (State.ringWrite s addr v).tck.now = s.tck.now ∧ (State.ringWrite s addr v).mem = s.mem := by
  unfold State.ringWrite
  repeat' first
    | (simp only [implies_true, and_self, and_true, true_and, apply_ite State.pending, apply_ite State.mem, apply_ite State.tck, apply_ite TckSt.now, State.storeReg_frame]; done)
    | (simp (maxDischargeDepth := 8) only [foldl_PMN, implies_true, and_self, and_true, true_and, apply_ite State.pending, apply_ite State.mem, apply_ite State.tck, apply_ite TckSt.now, State.storeReg_frame]; done)
    | (with_reducible refine foldl_PMN _ _ _ (fun s a => ?_))
    | split
    | (simp only [implies_true, and_self, and_true, true_and, apply_ite State.pending, apply_ite State.mem, apply_ite State.tck, apply_ite TckSt.now, State.storeReg_frame])

theorem execResetRings_frame (m : Fin 8) (s : State) {r : State} (e : execResetRings m s = .next r) : r.pending = s.pending ∧ r.tck.now = s.tck.now ∧ r.mem = s.mem := by
  unfold execResetRings at e
  revert e
  intro e
  refine ⟨?_, ?_, ?_⟩
  · revert e
    repeat' first
      | with_reducible assumption
      | with_reducible rfl
      | (with_reducible refine Eq.trans (State.gateWrite_frP (heff := fun _ => ?_) ..) ?_)
      | (with_reducible refine Eq.trans (State.hptCtrlWrite_frame ..).1 ?_)
      | (with_reducible refine ocP_next ?_)
      | with_reducible exact ocP_fault
      | dsimp only
      | split
  · revert e
    repeat' first
      | with_reducible assumption
      | with_reducible rfl
      | (with_reducible refine Eq.trans (State.gateWrite_frN (heff := fun _ => ?_) ..) ?_)
      | (with_reducible refine Eq.trans (State.hptCtrlWrite_frame ..).2.1 ?_)
      | (with_reducible refine ocN_next ?_)
      | with_reducible exact ocN_fault
      | dsimp only
      | split
  · revert e
    repeat' first
      | with_reducible assumption
      | with_reducible rfl
      | (with_reducible refine Eq.trans (State.gateWrite_frM (heff := fun _ => ?_) ..) ?_)
      | (with_reducible refine Eq.trans (State.hptCtrlWrite_frame ..).2.2 ?_)
      | (with_reducible refine ocM_next ?_)
      | with_reducible exact ocM_fault
      | dsimp only
      | split

end Sys2Proof.Machine
end

