-- ==== Sys2Proof/Laws/FrameRed.lean ====
section
/-! SUPPORT. What every operation of Machine/Red.lean leaves alone: the queue of waiting commands, the tick counter (unless it
writes it), and memory or its canonical form. -/

namespace Sys2Proof.Machine

set_option linter.all false
set_option Elab.async false
set_option maxRecDepth 4000

theorem State.sendCtrl_frame (s : State) (op : Nat) (t : Tick) (epoch result : Nat)  : (State.sendCtrl s op t epoch result).pending = s.pending ∧ (State.sendCtrl s op t epoch result).tck.now = s.tck.now ∧ (State.sendCtrl s op t epoch result).mem = s.mem := by
  unfold State.sendCtrl
  repeat' first
    | (simp only [implies_true, and_self, and_true, true_and, apply_ite State.pending, apply_ite State.mem, apply_ite State.tck, apply_ite TckSt.now, State.sendMirror_frame]; done)
    | (simp (maxDischargeDepth := 8) only [foldl_PMN, implies_true, and_self, and_true, true_and, apply_ite State.pending, apply_ite State.mem, apply_ite State.tck, apply_ite TckSt.now, State.sendMirror_frame]; done)
    | (with_reducible refine foldl_PMN _ _ _ (fun s a => ?_))
    | split
    | (simp only [implies_true, and_self, and_true, true_and, apply_ite State.pending, apply_ite State.mem, apply_ite State.tck, apply_ite TckSt.now, State.sendMirror_frame])

theorem State.trapEnd_frame (s : State) (res : Nat)  : (State.trapEnd s res).pending = s.pending ∧ (State.trapEnd s res).tck.now = s.tck.now ∧ (State.trapEnd s res).mem = s.mem := by
  unfold State.trapEnd
  repeat' first
    | (simp only [implies_true, and_self, and_true, true_and, apply_ite State.pending, apply_ite State.mem, apply_ite State.tck, apply_ite TckSt.now, State.setFld_frame, State.raise_frame, State.resetMaster_frame]; done)
    | (simp (maxDischargeDepth := 8) only [foldl_PMN, implies_true, and_self, and_true, true_and, apply_ite State.pending, apply_ite State.mem, apply_ite State.tck, apply_ite TckSt.now, State.setFld_frame, State.raise_frame, State.resetMaster_frame]; done)
    | (with_reducible refine foldl_PMN _ _ _ (fun s a => ?_))
    | split
    | (simp only [implies_true, and_self, and_true, true_and, apply_ite State.pending, apply_ite State.mem, apply_ite State.tck, apply_ite TckSt.now, State.setFld_frame, State.raise_frame, State.resetMaster_frame])

theorem State.trapStop_frame (s : State) (res : Nat)  : (State.trapStop s res).pending = s.pending ∧ (State.trapStop s res).tck.now = s.tck.now ∧ (State.trapStop s res).mem = s.mem := by
  unfold State.trapStop
  repeat' first
    | (simp only [implies_true, and_self, and_true, true_and, apply_ite State.pending, apply_ite State.mem, apply_ite State.tck, apply_ite TckSt.now, State.trapEnd_frame]; done)
    | (simp (maxDischargeDepth := 8) only [foldl_PMN, implies_true, and_self, and_true, true_and, apply_ite State.pending, apply_ite State.mem, apply_ite State.tck, apply_ite TckSt.now, State.trapEnd_frame]; done)
    | (with_reducible refine foldl_PMN _ _ _ (fun s a => ?_))
    | split
    | (simp only [implies_true, and_self, and_true, true_and, apply_ite State.pending, apply_ite State.mem, apply_ite State.tck, apply_ite TckSt.now, State.trapEnd_frame])

theorem State.serveStop_frame (s : State) (keep : Bool)  : (State.serveStop s keep).pending = s.pending ∧ (State.serveStop s keep).tck.now = s.tck.now ∧ (State.serveStop s keep).mem = s.mem := by
  unfold State.serveStop
  repeat' first
    | (simp only [implies_true, and_self, and_true, true_and, apply_ite State.pending, apply_ite State.mem, apply_ite State.tck, apply_ite TckSt.now]; done)
    | (simp (maxDischargeDepth := 8) only [foldl_PMN, implies_true, and_self, and_true, true_and, apply_ite State.pending, apply_ite State.mem, apply_ite State.tck, apply_ite TckSt.now]; done)
    | (with_reducible refine foldl_PMN _ _ _ (fun s a => ?_))
    | split
    | (simp only [implies_true, and_self, and_true, true_and, apply_ite State.pending, apply_ite State.mem, apply_ite State.tck, apply_ite TckSt.now])

theorem State.actsNoMore_frame (s : State)  : (State.actsNoMore s).pending = s.pending ∧ (State.actsNoMore s).tck.now = s.tck.now ∧ (Memory.wf s.mem = true → Memory.wf (State.actsNoMore s).mem = true) := by
  unfold State.actsNoMore
  refine (and_assoc.1 ⟨?_, fun h => ?_⟩)
  · repeat' first
      | (simp only [implies_true, and_self, and_true, true_and, apply_ite State.pending, apply_ite State.tck, apply_ite TckSt.now, State.tick1_frame, State.jobCancelAll_frame, State.gatePorts_frame]; done)
      | (simp (maxDischargeDepth := 8) only [foldl_PN, implies_true, and_self, and_true, true_and, apply_ite State.pending, apply_ite State.tck, apply_ite TckSt.now, State.tick1_frame, State.jobCancelAll_frame, State.gatePorts_frame]; done)
      | (with_reducible refine foldl_PN _ _ _ (fun s a => ?_))
      | split
      | (simp only [implies_true, and_self, and_true, true_and, apply_ite State.pending, apply_ite State.tck, apply_ite TckSt.now, State.tick1_frame, State.jobCancelAll_frame, State.gatePorts_frame])
  · repeat' first
      | with_reducible assumption
      | (with_reducible refine wf_ite ?_ ?_)
      | (with_reducible refine wf_eq (State.tick1_frame ..).2.2 ?_)
      | (with_reducible refine (State.jobCancelAll_frame ..).2.2 ?_)
      | (with_reducible refine wf_eq (State.gatePorts_frame ..).2.2 ?_)
      | (with_reducible refine foldl_wf _ _ _ (fun s a h => ?_) ?_)
      | dsimp only
      | split

theorem State.setRole_frame (s : State) (r : Nat)  : (State.setRole s r).pending = s.pending ∧ (State.setRole s r).tck.now = s.tck.now ∧ (Memory.wf s.mem = true → Memory.wf (State.setRole s r).mem = true) := by
  unfold State.setRole
  refine (and_assoc.1 ⟨?_, fun h => ?_⟩)
  · repeat' first
      | (simp only [implies_true, and_self, and_true, true_and, apply_ite State.pending, apply_ite State.tck, apply_ite TckSt.now, State.setFld_frame, State.setBit_frame, State.serveStop_frame, State.calAbort_frame, State.actsNoMore_frame, State.stopWatch_frame, State.tckWatch_frame, State.raise_frame]; done)
      | (simp (maxDischargeDepth := 8) only [foldl_PN, implies_true, and_self, and_true, true_and, apply_ite State.pending, apply_ite State.tck, apply_ite TckSt.now, State.setFld_frame, State.setBit_frame, State.serveStop_frame, State.calAbort_frame, State.actsNoMore_frame, State.stopWatch_frame, State.tckWatch_frame, State.raise_frame]; done)
      | (with_reducible refine foldl_PN _ _ _ (fun s a => ?_))
      | split
      | (simp only [implies_true, and_self, and_true, true_and, apply_ite State.pending, apply_ite State.tck, apply_ite TckSt.now, State.setFld_frame, State.setBit_frame, State.serveStop_frame, State.calAbort_frame, State.actsNoMore_frame, State.stopWatch_frame, State.tckWatch_frame, State.raise_frame])
  · repeat' first
      | with_reducible assumption
      | (with_reducible refine wf_ite ?_ ?_)
      | (with_reducible refine wf_eq (State.setFld_frame ..).2.2 ?_)
      | (with_reducible refine wf_eq (State.setBit_frame ..).2.2 ?_)
      | (with_reducible refine wf_eq (State.serveStop_frame ..).2.2 ?_)
      | (with_reducible refine wf_eq (State.calAbort_frame ..).2.2 ?_)
      | (with_reducible refine (State.actsNoMore_frame ..).2.2 ?_)
      | (with_reducible refine wf_eq (State.stopWatch_frame ..).2.2 ?_)
      | (with_reducible refine wf_eq (State.tckWatch_frame ..).2.2 ?_)
      | (with_reducible refine wf_eq (State.raise_frame ..).2.2 ?_)
      | (with_reducible refine foldl_wf _ _ _ (fun s a h => ?_) ?_)
      | dsimp only
      | split

theorem State.dropInterlock_frame (s : State)  : (State.dropInterlock s).pending = s.pending ∧ (State.dropInterlock s).tck.now = s.tck.now ∧ (Memory.wf s.mem = true → Memory.wf (State.dropInterlock s).mem = true) := by
  unfold State.dropInterlock
  refine (and_assoc.1 ⟨?_, fun h => ?_⟩)
  · repeat' first
      | (simp only [implies_true, and_self, and_true, true_and, apply_ite State.pending, apply_ite State.tck, apply_ite TckSt.now, State.setBit_frame, State.release_frame, State.setRole_frame]; done)
      | (simp (maxDischargeDepth := 8) only [foldl_PN, implies_true, and_self, and_true, true_and, apply_ite State.pending, apply_ite State.tck, apply_ite TckSt.now, State.setBit_frame, State.release_frame, State.setRole_frame]; done)
      | (with_reducible refine foldl_PN _ _ _ (fun s a => ?_))
      | split
      | (simp only [implies_true, and_self, and_true, true_and, apply_ite State.pending, apply_ite State.tck, apply_ite TckSt.now, State.setBit_frame, State.release_frame, State.setRole_frame])
  · repeat' first
      | with_reducible assumption
      | (with_reducible refine wf_ite ?_ ?_)
      | (with_reducible refine wf_eq (State.setBit_frame ..).2.2 ?_)
      | (with_reducible refine wf_eq (State.release_frame ..).2.2 ?_)
      | (with_reducible refine (State.setRole_frame ..).2.2 ?_)
      | (with_reducible refine foldl_wf _ _ _ (fun s a h => ?_) ?_)
      | dsimp only
      | split

theorem State.recordDiv_frame (s : State) (cause : Nat) (t : Tick)  : (State.recordDiv s cause t).pending = s.pending ∧ (State.recordDiv s cause t).tck.now = s.tck.now ∧ (State.recordDiv s cause t).mem = s.mem := by
  unfold State.recordDiv
  repeat' first
    | (simp only [implies_true, and_self, and_true, true_and, apply_ite State.pending, apply_ite State.mem, apply_ite State.tck, apply_ite TckSt.now, State.setRegN_frame, State.setReg64_frame, State.logEvent_frame, State.raise_frame]; done)
    | (simp (maxDischargeDepth := 8) only [foldl_PMN, implies_true, and_self, and_true, true_and, apply_ite State.pending, apply_ite State.mem, apply_ite State.tck, apply_ite TckSt.now, State.setRegN_frame, State.setReg64_frame, State.logEvent_frame, State.raise_frame]; done)
    | (with_reducible refine foldl_PMN _ _ _ (fun s a => ?_))
    | split
    | (simp only [implies_true, and_self, and_true, true_and, apply_ite State.pending, apply_ite State.mem, apply_ite State.tck, apply_ite TckSt.now, State.setRegN_frame, State.setReg64_frame, State.logEvent_frame, State.raise_frame])

theorem State.diverge_frame (s : State) (cause : Nat) (t : Tick)  : (State.diverge s cause t).pending = s.pending ∧ (State.diverge s cause t).tck.now = s.tck.now ∧ (State.diverge s cause t).mem = s.mem := by
  unfold State.diverge
  repeat' first
    | (simp only [implies_true, and_self, and_true, true_and, apply_ite State.pending, apply_ite State.mem, apply_ite State.tck, apply_ite TckSt.now, State.recordDiv_frame, State.count_frame]; done)
    | (simp (maxDischargeDepth := 8) only [foldl_PMN, implies_true, and_self, and_true, true_and, apply_ite State.pending, apply_ite State.mem, apply_ite State.tck, apply_ite TckSt.now, State.recordDiv_frame, State.count_frame]; done)
    | (with_reducible refine foldl_PMN _ _ _ (fun s a => ?_))
    | split
    | (simp only [implies_true, and_self, and_true, true_and, apply_ite State.pending, apply_ite State.mem, apply_ite State.tck, apply_ite TckSt.now, State.recordDiv_frame, State.count_frame])

theorem State.claimRes_frame (s : State) (code : Nat)  : (State.claimRes s code).pending = s.pending ∧ (State.claimRes s code).tck.now = s.tck.now ∧ (State.claimRes s code).mem = s.mem := by
  unfold State.claimRes
  repeat' first
    | (simp only [implies_true, and_self, and_true, true_and, apply_ite State.pending, apply_ite State.mem, apply_ite State.tck, apply_ite TckSt.now, State.setRegN_frame, State.raise_frame]; done)
    | (simp (maxDischargeDepth := 8) only [foldl_PMN, implies_true, and_self, and_true, true_and, apply_ite State.pending, apply_ite State.mem, apply_ite State.tck, apply_ite TckSt.now, State.setRegN_frame, State.raise_frame]; done)
    | (with_reducible refine foldl_PMN _ _ _ (fun s a => ?_))
    | split
    | (simp only [implies_true, and_self, and_true, true_and, apply_ite State.pending, apply_ite State.mem, apply_ite State.tck, apply_ite TckSt.now, State.setRegN_frame, State.raise_frame])

theorem State.claimRefused_frame (s : State) (code : Nat)  : (State.claimRefused s code).pending = s.pending ∧ (State.claimRefused s code).tck.now = s.tck.now ∧ (State.claimRefused s code).mem = s.mem := by
  unfold State.claimRefused
  repeat' first
    | (simp only [implies_true, and_self, and_true, true_and, apply_ite State.pending, apply_ite State.mem, apply_ite State.tck, apply_ite TckSt.now, State.setBit_frame, State.claimRes_frame]; done)
    | (simp (maxDischargeDepth := 8) only [foldl_PMN, implies_true, and_self, and_true, true_and, apply_ite State.pending, apply_ite State.mem, apply_ite State.tck, apply_ite TckSt.now, State.setBit_frame, State.claimRes_frame]; done)
    | (with_reducible refine foldl_PMN _ _ _ (fun s a => ?_))
    | split
    | (simp only [implies_true, and_self, and_true, true_and, apply_ite State.pending, apply_ite State.mem, apply_ite State.tck, apply_ite TckSt.now, State.setBit_frame, State.claimRes_frame])

theorem State.claimWrite_frame (s : State) (v : Word)  : (State.claimWrite s v).pending = s.pending ∧ (State.claimWrite s v).tck.now = s.tck.now ∧ (State.claimWrite s v).mem = s.mem := by
  unfold State.claimWrite
  repeat' first
    | (simp only [implies_true, and_self, and_true, true_and, apply_ite State.pending, apply_ite State.mem, apply_ite State.tck, apply_ite TckSt.now, State.storeReg_frame, State.claimRefused_frame]; done)
    | (simp (maxDischargeDepth := 8) only [foldl_PMN, implies_true, and_self, and_true, true_and, apply_ite State.pending, apply_ite State.mem, apply_ite State.tck, apply_ite TckSt.now, State.storeReg_frame, State.claimRefused_frame]; done)
    | (with_reducible refine foldl_PMN _ _ _ (fun s a => ?_))
    | split
    | (simp only [implies_true, and_self, and_true, true_and, apply_ite State.pending, apply_ite State.mem, apply_ite State.tck, apply_ite TckSt.now, State.storeReg_frame, State.claimRefused_frame])

theorem State.claimAttempt_frame (s : State)  : (State.claimAttempt s).pending = s.pending ∧ (State.claimAttempt s).tck.now = s.tck.now ∧ (State.claimAttempt s).mem = s.mem := by
  unfold State.claimAttempt
  repeat' first
    | (simp only [implies_true, and_self, and_true, true_and, apply_ite State.pending, apply_ite State.mem, apply_ite State.tck, apply_ite TckSt.now, State.claimRefused_frame, State.trapStop_frame, State.setBit_frame]; done)
    | (simp (maxDischargeDepth := 8) only [foldl_PMN, implies_true, and_self, and_true, true_and, apply_ite State.pending, apply_ite State.mem, apply_ite State.tck, apply_ite TckSt.now, State.claimRefused_frame, State.trapStop_frame, State.setBit_frame]; done)
    | (with_reducible refine foldl_PMN _ _ _ (fun s a => ?_))
    | split
    | (simp only [implies_true, and_self, and_true, true_and, apply_ite State.pending, apply_ite State.mem, apply_ite State.tck, apply_ite TckSt.now, State.claimRefused_frame, State.trapStop_frame, State.setBit_frame])

theorem State.setEpoch_frame (s : State) (e : Nat)  : (State.setEpoch s e).pending = s.pending ∧ (State.setEpoch s e).tck.now = s.tck.now ∧ (State.setEpoch s e).mem = s.mem := by
  unfold State.setEpoch
  repeat' first
    | (simp only [implies_true, and_self, and_true, true_and, apply_ite State.pending, apply_ite State.mem, apply_ite State.tck, apply_ite TckSt.now, State.setFld_frame]; done)
    | (simp (maxDischargeDepth := 8) only [foldl_PMN, implies_true, and_self, and_true, true_and, apply_ite State.pending, apply_ite State.mem, apply_ite State.tck, apply_ite TckSt.now, State.setFld_frame]; done)
    | (with_reducible refine foldl_PMN _ _ _ (fun s a => ?_))
    | split
    | (simp only [implies_true, and_self, and_true, true_and, apply_ite State.pending, apply_ite State.mem, apply_ite State.tck, apply_ite TckSt.now, State.setFld_frame])

theorem State.takeRole_frame (s : State)  : (State.takeRole s).pending = s.pending ∧ (State.takeRole s).tck.now = s.tck.now ∧ (Memory.wf s.mem = true → Memory.wf (State.takeRole s).mem = true) := by
  unfold State.takeRole
  refine (and_assoc.1 ⟨?_, fun h => ?_⟩)
  · repeat' first
      | (simp only [implies_true, and_self, and_true, true_and, apply_ite State.pending, apply_ite State.tck, apply_ite TckSt.now, State.setRole_frame]; done)
      | (simp (maxDischargeDepth := 8) only [foldl_PN, implies_true, and_self, and_true, true_and, apply_ite State.pending, apply_ite State.tck, apply_ite TckSt.now, State.setRole_frame]; done)
      | (with_reducible refine foldl_PN _ _ _ (fun s a => ?_))
      | split
      | (simp only [implies_true, and_self, and_true, true_and, apply_ite State.pending, apply_ite State.tck, apply_ite TckSt.now, State.setRole_frame])
  · repeat' first
      | with_reducible assumption
      | (with_reducible refine wf_ite ?_ ?_)
      | (with_reducible refine (State.setRole_frame ..).2.2 ?_)
      | (with_reducible refine foldl_wf _ _ _ (fun s a h => ?_) ?_)
      | dsimp only
      | split

theorem State.claimed_frame (s : State)  : (State.claimed s).pending = s.pending ∧ (State.claimed s).tck.now = s.tck.now ∧ (Memory.wf s.mem = true → Memory.wf (State.claimed s).mem = true) := by
  unfold State.claimed
  refine (and_assoc.1 ⟨?_, fun h => ?_⟩)
  · repeat' first
      | (simp only [implies_true, and_self, and_true, true_and, apply_ite State.pending, apply_ite State.tck, apply_ite TckSt.now, State.count_frame, State.raise_frame, State.setEpoch_frame, State.setRegN_frame, State.setBit_frame, State.sendCtrl_frame, State.claimRes_frame, State.takeRole_frame]; done)
      | (simp (maxDischargeDepth := 8) only [foldl_PN, implies_true, and_self, and_true, true_and, apply_ite State.pending, apply_ite State.tck, apply_ite TckSt.now, State.count_frame, State.raise_frame, State.setEpoch_frame, State.setRegN_frame, State.setBit_frame, State.sendCtrl_frame, State.claimRes_frame, State.takeRole_frame]; done)
      | (with_reducible refine foldl_PN _ _ _ (fun s a => ?_))
      | split
      | (simp only [implies_true, and_self, and_true, true_and, apply_ite State.pending, apply_ite State.tck, apply_ite TckSt.now, State.count_frame, State.raise_frame, State.setEpoch_frame, State.setRegN_frame, State.setBit_frame, State.sendCtrl_frame, State.claimRes_frame, State.takeRole_frame])
  · repeat' first
      | with_reducible assumption
      | (with_reducible refine wf_ite ?_ ?_)
      | (with_reducible refine wf_eq (State.count_frame ..).2.2 ?_)
      | (with_reducible refine wf_eq (State.raise_frame ..).2.2 ?_)
      | (with_reducible refine wf_eq (State.setEpoch_frame ..).2.2 ?_)
      | (with_reducible refine wf_eq (State.setRegN_frame ..).2.2 ?_)
      | (with_reducible refine wf_eq (State.setBit_frame ..).2.2 ?_)
      | (with_reducible refine wf_eq (State.sendCtrl_frame ..).2.2 ?_)
      | (with_reducible refine wf_eq (State.claimRes_frame ..).2.2 ?_)
      | (with_reducible refine (State.takeRole_frame ..).2.2 ?_)
      | (with_reducible refine foldl_wf _ _ _ (fun s a h => ?_) ?_)
      | dsimp only
      | split

theorem State.ilkAssert_frame (s : State)  : (State.ilkAssert s).pending = s.pending ∧ (State.ilkAssert s).tck.now = s.tck.now ∧ (Memory.wf s.mem = true → Memory.wf (State.ilkAssert s).mem = true) := by
  unfold State.ilkAssert
  refine (and_assoc.1 ⟨?_, fun h => ?_⟩)
  · repeat' first
      | (simp only [implies_true, and_self, and_true, true_and, apply_ite State.pending, apply_ite State.tck, apply_ite TckSt.now, State.setBit_frame, State.dropInterlock_frame, State.count_frame, State.claimRes_frame, State.raise_frame]; done)
      | (simp (maxDischargeDepth := 8) only [foldl_PN, implies_true, and_self, and_true, true_and, apply_ite State.pending, apply_ite State.tck, apply_ite TckSt.now, State.setBit_frame, State.dropInterlock_frame, State.count_frame, State.claimRes_frame, State.raise_frame]; done)
      | (with_reducible refine foldl_PN _ _ _ (fun s a => ?_))
      | split
      | (simp only [implies_true, and_self, and_true, true_and, apply_ite State.pending, apply_ite State.tck, apply_ite TckSt.now, State.setBit_frame, State.dropInterlock_frame, State.count_frame, State.claimRes_frame, State.raise_frame])
  · repeat' first
      | with_reducible assumption
      | (with_reducible refine wf_ite ?_ ?_)
      | (with_reducible refine wf_eq (State.setBit_frame ..).2.2 ?_)
      | (with_reducible refine (State.dropInterlock_frame ..).2.2 ?_)
      | (with_reducible refine wf_eq (State.count_frame ..).2.2 ?_)
      | (with_reducible refine wf_eq (State.claimRes_frame ..).2.2 ?_)
      | (with_reducible refine wf_eq (State.raise_frame ..).2.2 ?_)
      | (with_reducible refine foldl_wf _ _ _ (fun s a h => ?_) ?_)
      | dsimp only
      | split

theorem State.ilkDeassert_frame (s : State)  : (State.ilkDeassert s).pending = s.pending ∧ (State.ilkDeassert s).tck.now = s.tck.now ∧ (State.ilkDeassert s).mem = s.mem := by
  unfold State.ilkDeassert
  repeat' first
    | (simp only [implies_true, and_self, and_true, true_and, apply_ite State.pending, apply_ite State.mem, apply_ite State.tck, apply_ite TckSt.now, State.setBit_frame, State.raise_frame]; done)
    | (simp (maxDischargeDepth := 8) only [foldl_PMN, implies_true, and_self, and_true, true_and, apply_ite State.pending, apply_ite State.mem, apply_ite State.tck, apply_ite TckSt.now, State.setBit_frame, State.raise_frame]; done)
    | (with_reducible refine foldl_PMN _ _ _ (fun s a => ?_))
    | split
    | (simp only [implies_true, and_self, and_true, true_and, apply_ite State.pending, apply_ite State.mem, apply_ite State.tck, apply_ite TckSt.now, State.setBit_frame, State.raise_frame])

theorem State.toPair_frame (s : State)  : (State.toPair s).pending = s.pending ∧ (State.toPair s).tck.now = s.tck.now ∧ (State.toPair s).mem = s.mem := by
  unfold State.toPair
  repeat' first
    | (simp only [implies_true, and_self, and_true, true_and, apply_ite State.pending, apply_ite State.mem, apply_ite State.tck, apply_ite TckSt.now, State.claimRes_frame, State.setEpoch_frame]; done)
    | (simp (maxDischargeDepth := 8) only [foldl_PMN, implies_true, and_self, and_true, true_and, apply_ite State.pending, apply_ite State.mem, apply_ite State.tck, apply_ite TckSt.now, State.claimRes_frame, State.setEpoch_frame]; done)
    | (with_reducible refine foldl_PMN _ _ _ (fun s a => ?_))
    | split
    | (simp only [implies_true, and_self, and_true, true_and, apply_ite State.pending, apply_ite State.mem, apply_ite State.tck, apply_ite TckSt.now, State.claimRes_frame, State.setEpoch_frame])

theorem State.releaseIlk_frame (s : State)  : (State.releaseIlk s).pending = s.pending ∧ (State.releaseIlk s).tck.now = s.tck.now ∧ (State.releaseIlk s).mem = s.mem := by
  unfold State.releaseIlk
  repeat' first
    | (simp only [implies_true, and_self, and_true, true_and, apply_ite State.pending, apply_ite State.mem, apply_ite State.tck, apply_ite TckSt.now, State.release_frame]; done)
    | (simp (maxDischargeDepth := 8) only [foldl_PMN, implies_true, and_self, and_true, true_and, apply_ite State.pending, apply_ite State.mem, apply_ite State.tck, apply_ite TckSt.now, State.release_frame]; done)
    | (with_reducible refine foldl_PMN _ _ _ (fun s a => ?_))
    | split
    | (simp only [implies_true, and_self, and_true, true_and, apply_ite State.pending, apply_ite State.mem, apply_ite State.tck, apply_ite TckSt.now, State.release_frame])

theorem State.redBoundary_frame (s : State)  : (State.redBoundary s).pending = s.pending ∧ (State.redBoundary s).tck.now = s.tck.now ∧ (Memory.wf s.mem = true → Memory.wf (State.redBoundary s).mem = true) := by
  unfold State.redBoundary
  refine ⟨?_, ?_, fun h => ?_⟩
  · repeat' first
      | with_reducible assumption
      | with_reducible rfl
      | (with_reducible refine alP_ite ?_ ?_)
      | (with_reducible refine Eq.trans (State.takeRole_frame ..).1 ?_)
      | (with_reducible refine Eq.trans (State.release_frame ..).1 ?_)
      | (with_reducible refine Eq.trans (State.setBit_frame ..).1 ?_)
      | (with_reducible refine Eq.trans (State.setRole_frame ..).1 ?_)
      | (with_reducible refine Eq.trans (State.setEpoch_frame ..).1 ?_)
      | (with_reducible refine Eq.trans (State.dropInterlock_frame ..).1 ?_)
      | (with_reducible refine Eq.trans (State.raise_frame ..).1 ?_)
      | dsimp only
      | split
  · repeat' first
      | with_reducible assumption
      | with_reducible rfl
      | (with_reducible refine alN_ite ?_ ?_)
      | (with_reducible refine Eq.trans (State.takeRole_frame ..).2.1 ?_)
      | (with_reducible refine Eq.trans (State.release_frame ..).2.1 ?_)
      | (with_reducible refine Eq.trans (State.setBit_frame ..).2.1 ?_)
      | (with_reducible refine Eq.trans (State.setRole_frame ..).2.1 ?_)
      | (with_reducible refine Eq.trans (State.setEpoch_frame ..).2.1 ?_)
      | (with_reducible refine Eq.trans (State.dropInterlock_frame ..).2.1 ?_)
      | (with_reducible refine Eq.trans (State.raise_frame ..).2.1 ?_)
      | dsimp only
      | split
  · repeat' first
      | with_reducible assumption
      | with_reducible rfl
      | (with_reducible refine alW_ite ?_ ?_)
      | (with_reducible refine (State.takeRole_frame ..).2.2 ?_)
      | (with_reducible refine wf_eq (State.release_frame ..).2.2 ?_)
      | (with_reducible refine wf_eq (State.setBit_frame ..).2.2 ?_)
      | (with_reducible refine (State.setRole_frame ..).2.2 ?_)
      | (with_reducible refine wf_eq (State.setEpoch_frame ..).2.2 ?_)
      | (with_reducible refine (State.dropInterlock_frame ..).2.2 ?_)
      | (with_reducible refine wf_eq (State.raise_frame ..).2.2 ?_)
      | dsimp only
      | split

theorem State.readEfes_frame (s : State)  : (State.readEfes s).pending = s.pending ∧ (State.readEfes s).tck.now = s.tck.now ∧ (Memory.wf s.mem = true → Memory.wf (State.readEfes s).mem = true) := by
  unfold State.readEfes
  refine (and_assoc.1 ⟨?_, fun h => ?_⟩)
  · repeat' first
      | (simp only [implies_true, and_self, and_true, true_and, apply_ite State.pending, apply_ite State.tck, apply_ite TckSt.now, State.setFld_frame, State.dropInterlock_frame, State.setRole_frame, State.raise_frame, State.diverge_frame]; done)
      | (simp (maxDischargeDepth := 8) only [foldl_PN, implies_true, and_self, and_true, true_and, apply_ite State.pending, apply_ite State.tck, apply_ite TckSt.now, State.setFld_frame, State.dropInterlock_frame, State.setRole_frame, State.raise_frame, State.diverge_frame]; done)
      | (with_reducible refine foldl_PN _ _ _ (fun s a => ?_))
      | split
      | (simp only [implies_true, and_self, and_true, true_and, apply_ite State.pending, apply_ite State.tck, apply_ite TckSt.now, State.setFld_frame, State.dropInterlock_frame, State.setRole_frame, State.raise_frame, State.diverge_frame])
  · repeat' first
      | with_reducible assumption
      | (with_reducible refine wf_ite ?_ ?_)
      | (with_reducible refine wf_eq (State.setFld_frame ..).2.2 ?_)
      | (with_reducible refine (State.dropInterlock_frame ..).2.2 ?_)
      | (with_reducible refine (State.setRole_frame ..).2.2 ?_)
      | (with_reducible refine wf_eq (State.raise_frame ..).2.2 ?_)
      | (with_reducible refine wf_eq (State.diverge_frame ..).2.2 ?_)
      | (with_reducible refine foldl_wf _ _ _ (fun s a h => ?_) ?_)
      | dsimp only
      | split

theorem State.sendTrig_frame (s : State)  : (State.sendTrig s).pending = s.pending ∧ (State.sendTrig s).tck.now = s.tck.now ∧ (State.sendTrig s).mem = s.mem := by
  unfold State.sendTrig
  repeat' first
    | (simp only [implies_true, and_self, and_true, true_and, apply_ite State.pending, apply_ite State.mem, apply_ite State.tck, apply_ite TckSt.now, State.sendMirror_frame]; done)
    | (simp (maxDischargeDepth := 8) only [foldl_PMN, implies_true, and_self, and_true, true_and, apply_ite State.pending, apply_ite State.mem, apply_ite State.tck, apply_ite TckSt.now, State.sendMirror_frame]; done)
    | (with_reducible refine foldl_PMN _ _ _ (fun s a => ?_))
    | split
    | (simp only [implies_true, and_self, and_true, true_and, apply_ite State.pending, apply_ite State.mem, apply_ite State.tck, apply_ite TckSt.now, State.sendMirror_frame])

theorem State.takeTrig_frame (s : State)  : (State.takeTrig s).pending = s.pending ∧ (State.takeTrig s).tck.now = s.tck.now ∧ (State.takeTrig s).mem = s.mem := by
  unfold State.takeTrig
  repeat' first
    | (simp only [implies_true, and_self, and_true, true_and, apply_ite State.pending, apply_ite State.mem, apply_ite State.tck, apply_ite TckSt.now, State.setBit_frame, State.count_frame]; done)
    | (simp (maxDischargeDepth := 8) only [foldl_PMN, implies_true, and_self, and_true, true_and, apply_ite State.pending, apply_ite State.mem, apply_ite State.tck, apply_ite TckSt.now, State.setBit_frame, State.count_frame]; done)
    | (with_reducible refine foldl_PMN _ _ _ (fun s a => ?_))
    | split
    | (simp only [implies_true, and_self, and_true, true_and, apply_ite State.pending, apply_ite State.mem, apply_ite State.tck, apply_ite TckSt.now, State.setBit_frame, State.count_frame])

theorem State.mirUpdate_frame (s : State)  : (State.mirUpdate s).pending = s.pending ∧ (State.mirUpdate s).tck.now = s.tck.now ∧ (State.mirUpdate s).mem = s.mem := by
  unfold State.mirUpdate
  repeat' first
    | (simp only [implies_true, and_self, and_true, true_and, apply_ite State.pending, apply_ite State.mem, apply_ite State.tck, apply_ite TckSt.now, State.setBit_frame]; done)
    | (simp (maxDischargeDepth := 8) only [foldl_PMN, implies_true, and_self, and_true, true_and, apply_ite State.pending, apply_ite State.mem, apply_ite State.tck, apply_ite TckSt.now, State.setBit_frame]; done)
    | (with_reducible refine foldl_PMN _ _ _ (fun s a => ?_))
    | split
    | (simp only [implies_true, and_self, and_true, true_and, apply_ite State.pending, apply_ite State.mem, apply_ite State.tck, apply_ite TckSt.now, State.setBit_frame])

theorem State.sendHello_frame (s : State)  : (State.sendHello s).pending = s.pending ∧ (State.sendHello s).tck.now = s.tck.now ∧ (State.sendHello s).mem = s.mem := by
  unfold State.sendHello
  repeat' first
    | (simp only [implies_true, and_self, and_true, true_and, apply_ite State.pending, apply_ite State.mem, apply_ite State.tck, apply_ite TckSt.now, State.emitMirror_frame, State.mirUpdate_frame]; done)
    | (simp (maxDischargeDepth := 8) only [foldl_PMN, implies_true, and_self, and_true, true_and, apply_ite State.pending, apply_ite State.mem, apply_ite State.tck, apply_ite TckSt.now, State.emitMirror_frame, State.mirUpdate_frame]; done)
    | (with_reducible refine foldl_PMN _ _ _ (fun s a => ?_))
    | split
    | (simp only [implies_true, and_self, and_true, true_and, apply_ite State.pending, apply_ite State.mem, apply_ite State.tck, apply_ite TckSt.now, State.emitMirror_frame, State.mirUpdate_frame])

theorem State.mirrorDown_frame (s : State)  : (State.mirrorDown s).pending = s.pending ∧ (State.mirrorDown s).tck.now = s.tck.now ∧ (State.mirrorDown s).mem = s.mem := by
  unfold State.mirrorDown
  repeat' first
    | (simp only [implies_true, and_self, and_true, true_and, apply_ite State.pending, apply_ite State.mem, apply_ite State.tck, apply_ite TckSt.now, State.setFld_frame, State.mirUpdate_frame, State.trapStop_frame, State.serveStop_frame, State.resetMaster_frame, State.raiseIf_frame]; done)
    | (simp (maxDischargeDepth := 8) only [foldl_PMN, implies_true, and_self, and_true, true_and, apply_ite State.pending, apply_ite State.mem, apply_ite State.tck, apply_ite TckSt.now, State.setFld_frame, State.mirUpdate_frame, State.trapStop_frame, State.serveStop_frame, State.resetMaster_frame, State.raiseIf_frame]; done)
    | (with_reducible refine foldl_PMN _ _ _ (fun s a => ?_))
    | split
    | (simp only [implies_true, and_self, and_true, true_and, apply_ite State.pending, apply_ite State.mem, apply_ite State.tck, apply_ite TckSt.now, State.setFld_frame, State.mirUpdate_frame, State.trapStop_frame, State.serveStop_frame, State.resetMaster_frame, State.raiseIf_frame])

theorem State.mirLaneOut_frame (s : State) (k : Nat)  : (State.mirLaneOut s k).pending = s.pending ∧ (State.mirLaneOut s k).tck.now = s.tck.now ∧ (State.mirLaneOut s k).mem = s.mem := by
  unfold State.mirLaneOut
  repeat' first
    | (simp only [implies_true, and_self, and_true, true_and, apply_ite State.pending, apply_ite State.mem, apply_ite State.tck, apply_ite TckSt.now, State.setFld_frame, State.retire_frame]; done)
    | (simp (maxDischargeDepth := 8) only [foldl_PMN, implies_true, and_self, and_true, true_and, apply_ite State.pending, apply_ite State.mem, apply_ite State.tck, apply_ite TckSt.now, State.setFld_frame, State.retire_frame]; done)
    | (with_reducible refine foldl_PMN _ _ _ (fun s a => ?_))
    | split
    | (simp only [implies_true, and_self, and_true, true_and, apply_ite State.pending, apply_ite State.mem, apply_ite State.tck, apply_ite TckSt.now, State.setFld_frame, State.retire_frame])

theorem State.mirLanesOut_frame (s : State) (m : Nat)  : (State.mirLanesOut s m).pending = s.pending ∧ (State.mirLanesOut s m).tck.now = s.tck.now ∧ (State.mirLanesOut s m).mem = s.mem := by
  unfold State.mirLanesOut
  repeat' first
    | (simp only [implies_true, and_self, and_true, true_and, apply_ite State.pending, apply_ite State.mem, apply_ite State.tck, apply_ite TckSt.now, State.mirLaneOut_frame]; done)
    | (simp (maxDischargeDepth := 8) only [foldl_PMN, implies_true, and_self, and_true, true_and, apply_ite State.pending, apply_ite State.mem, apply_ite State.tck, apply_ite TckSt.now, State.mirLaneOut_frame]; done)
    | (with_reducible refine foldl_PMN _ _ _ (fun s a => ?_))
    | split
    | (simp only [implies_true, and_self, and_true, true_and, apply_ite State.pending, apply_ite State.mem, apply_ite State.tck, apply_ite TckSt.now, State.mirLaneOut_frame])

theorem State.mirLanesBack_frame (s : State) (m : Nat)  : (State.mirLanesBack s m).pending = s.pending ∧ (State.mirLanesBack s m).tck.now = s.tck.now ∧ (State.mirLanesBack s m).mem = s.mem := by
  unfold State.mirLanesBack
  repeat' first
    | (simp only [implies_true, and_self, and_true, true_and, apply_ite State.pending, apply_ite State.mem, apply_ite State.tck, apply_ite TckSt.now, State.unretire_frame, State.setFld_frame]; done)
    | (simp (maxDischargeDepth := 8) only [foldl_PMN, implies_true, and_self, and_true, true_and, apply_ite State.pending, apply_ite State.mem, apply_ite State.tck, apply_ite TckSt.now, State.unretire_frame, State.setFld_frame]; done)
    | (with_reducible refine foldl_PMN _ _ _ (fun s a => ?_))
    | split
    | (simp only [implies_true, and_self, and_true, true_and, apply_ite State.pending, apply_ite State.mem, apply_ite State.tck, apply_ite TckSt.now, State.unretire_frame, State.setFld_frame])

theorem State.mirNoLane_frame (s : State)  : (State.mirNoLane s).pending = s.pending ∧ (State.mirNoLane s).tck.now = s.tck.now ∧ (State.mirNoLane s).mem = s.mem := by
  unfold State.mirNoLane
  repeat' first
    | (simp only [implies_true, and_self, and_true, true_and, apply_ite State.pending, apply_ite State.mem, apply_ite State.tck, apply_ite TckSt.now, State.mirrorDown_frame, State.setFld_frame]; done)
    | (simp (maxDischargeDepth := 8) only [foldl_PMN, implies_true, and_self, and_true, true_and, apply_ite State.pending, apply_ite State.mem, apply_ite State.tck, apply_ite TckSt.now, State.mirrorDown_frame, State.setFld_frame]; done)
    | (with_reducible refine foldl_PMN _ _ _ (fun s a => ?_))
    | split
    | (simp only [implies_true, and_self, and_true, true_and, apply_ite State.pending, apply_ite State.mem, apply_ite State.tck, apply_ite TckSt.now, State.mirrorDown_frame, State.setFld_frame])

theorem State.mirBegin_frame (s : State)  : (State.mirBegin s).pending = s.pending ∧ (State.mirBegin s).tck.now = s.tck.now ∧ (State.mirBegin s).mem = s.mem := by
  unfold State.mirBegin
  repeat' first
    | (simp only [implies_true, and_self, and_true, true_and, apply_ite State.pending, apply_ite State.mem, apply_ite State.tck, apply_ite TckSt.now, State.mirrorDown_frame, State.mirLanesBack_frame, State.mirLanesOut_frame, State.setPort_frame, State.mirNoLane_frame, State.setFld_frame]; done)
    | (simp (maxDischargeDepth := 8) only [foldl_PMN, implies_true, and_self, and_true, true_and, apply_ite State.pending, apply_ite State.mem, apply_ite State.tck, apply_ite TckSt.now, State.mirrorDown_frame, State.mirLanesBack_frame, State.mirLanesOut_frame, State.setPort_frame, State.mirNoLane_frame, State.setFld_frame]; done)
    | (with_reducible refine foldl_PMN _ _ _ (fun s a => ?_))
    | split
    | (simp only [implies_true, and_self, and_true, true_and, apply_ite State.pending, apply_ite State.mem, apply_ite State.tck, apply_ite TckSt.now, State.mirrorDown_frame, State.mirLanesBack_frame, State.mirLanesOut_frame, State.setPort_frame, State.mirNoLane_frame, State.setFld_frame])

theorem State.mirTrain_frame (s : State)  : (State.mirTrain s).pending = s.pending ∧ (State.mirTrain s).tck.now = s.tck.now ∧ (State.mirTrain s).mem = s.mem := by
  unfold State.mirTrain
  repeat' first
    | (simp only [implies_true, and_self, and_true, true_and, apply_ite State.pending, apply_ite State.mem, apply_ite State.tck, apply_ite TckSt.now, State.mirBegin_frame]; done)
    | (simp (maxDischargeDepth := 8) only [foldl_PMN, implies_true, and_self, and_true, true_and, apply_ite State.pending, apply_ite State.mem, apply_ite State.tck, apply_ite TckSt.now, State.mirBegin_frame]; done)
    | (with_reducible refine foldl_PMN _ _ _ (fun s a => ?_))
    | split
    | (simp only [implies_true, and_self, and_true, true_and, apply_ite State.pending, apply_ite State.mem, apply_ite State.tck, apply_ite TckSt.now, State.mirBegin_frame])

theorem State.mirLanesUp_frame (s : State) (m : Nat)  : (State.mirLanesUp s m).pending = s.pending ∧ (State.mirLanesUp s m).tck.now = s.tck.now ∧ (State.mirLanesUp s m).mem = s.mem := by
  unfold State.mirLanesUp
  repeat' first
    | (simp only [implies_true, and_self, and_true, true_and, apply_ite State.pending, apply_ite State.mem, apply_ite State.tck, apply_ite TckSt.now, State.mirLanesBack_frame, State.setFld_frame, State.sendHello_frame, State.mirEchoReq_frame]; done)
    | (simp (maxDischargeDepth := 8) only [foldl_PMN, implies_true, and_self, and_true, true_and, apply_ite State.pending, apply_ite State.mem, apply_ite State.tck, apply_ite TckSt.now, State.mirLanesBack_frame, State.setFld_frame, State.sendHello_frame, State.mirEchoReq_frame]; done)
    | (with_reducible refine foldl_PMN _ _ _ (fun s a => ?_))
    | split
    | (simp only [implies_true, and_self, and_true, true_and, apply_ite State.pending, apply_ite State.mem, apply_ite State.tck, apply_ite TckSt.now, State.mirLanesBack_frame, State.setFld_frame, State.sendHello_frame, State.mirEchoReq_frame])

theorem State.mirPmdDone_frame (s : State) (m : Nat)  : (State.mirPmdDone s m).pending = s.pending ∧ (State.mirPmdDone s m).tck.now = s.tck.now ∧ (State.mirPmdDone s m).mem = s.mem := by
  unfold State.mirPmdDone
  repeat' first
    | (simp only [implies_true, and_self, and_true, true_and, apply_ite State.pending, apply_ite State.mem, apply_ite State.tck, apply_ite TckSt.now, State.mirLanesOut_frame, State.setFld_frame]; done)
    | (simp (maxDischargeDepth := 8) only [foldl_PMN, implies_true, and_self, and_true, true_and, apply_ite State.pending, apply_ite State.mem, apply_ite State.tck, apply_ite TckSt.now, State.mirLanesOut_frame, State.setFld_frame]; done)
    | (with_reducible refine foldl_PMN _ _ _ (fun s a => ?_))
    | split
    | (simp only [implies_true, and_self, and_true, true_and, apply_ite State.pending, apply_ite State.mem, apply_ite State.tck, apply_ite TckSt.now, State.mirLanesOut_frame, State.setFld_frame])

theorem State.mirSetAligned_frame (s : State) (k n : Nat)  : (State.mirSetAligned s k n).pending = s.pending ∧ (State.mirSetAligned s k n).tck.now = s.tck.now ∧ (State.mirSetAligned s k n).mem = s.mem := by
  unfold State.mirSetAligned
  repeat' first
    | (simp only [implies_true, and_self, and_true, true_and, apply_ite State.pending, apply_ite State.mem, apply_ite State.tck, apply_ite TckSt.now]; done)
    | (simp (maxDischargeDepth := 8) only [foldl_PMN, implies_true, and_self, and_true, true_and, apply_ite State.pending, apply_ite State.mem, apply_ite State.tck, apply_ite TckSt.now]; done)
    | (with_reducible refine foldl_PMN _ _ _ (fun s a => ?_))
    | split
    | (simp only [implies_true, and_self, and_true, true_and, apply_ite State.pending, apply_ite State.mem, apply_ite State.tck, apply_ite TckSt.now])

theorem State.mirAlign_frame (s : State) (k : Nat) (inPlace : Bool)  : (State.mirAlign s k inPlace).pending = s.pending ∧ (State.mirAlign s k inPlace).tck.now = s.tck.now ∧ (State.mirAlign s k inPlace).mem = s.mem := by
  unfold State.mirAlign
  repeat' first
    | (simp only [implies_true, and_self, and_true, true_and, apply_ite State.pending, apply_ite State.mem, apply_ite State.tck, apply_ite TckSt.now, State.mirSetAligned_frame, State.setPort_frame, State.mirLanesUp_frame]; done)
    | (simp (maxDischargeDepth := 8) only [foldl_PMN, implies_true, and_self, and_true, true_and, apply_ite State.pending, apply_ite State.mem, apply_ite State.tck, apply_ite TckSt.now, State.mirSetAligned_frame, State.setPort_frame, State.mirLanesUp_frame]; done)
    | (with_reducible refine foldl_PMN _ _ _ (fun s a => ?_))
    | split
    | (simp only [implies_true, and_self, and_true, true_and, apply_ite State.pending, apply_ite State.mem, apply_ite State.tck, apply_ite TckSt.now, State.mirSetAligned_frame, State.setPort_frame, State.mirLanesUp_frame])

theorem State.mirAlignMissing_frame (s : State) (k : Nat)  : (State.mirAlignMissing s k).pending = s.pending ∧ (State.mirAlignMissing s k).tck.now = s.tck.now ∧ (State.mirAlignMissing s k).mem = s.mem := by
  unfold State.mirAlignMissing
  repeat' first
    | (simp only [implies_true, and_self, and_true, true_and, apply_ite State.pending, apply_ite State.mem, apply_ite State.tck, apply_ite TckSt.now, State.mirSetAligned_frame, State.setPort_frame]; done)
    | (simp (maxDischargeDepth := 8) only [foldl_PMN, implies_true, and_self, and_true, true_and, apply_ite State.pending, apply_ite State.mem, apply_ite State.tck, apply_ite TckSt.now, State.mirSetAligned_frame, State.setPort_frame]; done)
    | (with_reducible refine foldl_PMN _ _ _ (fun s a => ?_))
    | split
    | (simp only [implies_true, and_self, and_true, true_and, apply_ite State.pending, apply_ite State.mem, apply_ite State.tck, apply_ite TckSt.now, State.mirSetAligned_frame, State.setPort_frame])

theorem State.mirTimeout_frame (s : State)  : (State.mirTimeout s).pending = s.pending ∧ (State.mirTimeout s).tck.now = s.tck.now ∧ (State.mirTimeout s).mem = s.mem := by
  unfold State.mirTimeout
  repeat' first
    | (simp only [implies_true, and_self, and_true, true_and, apply_ite State.pending, apply_ite State.mem, apply_ite State.tck, apply_ite TckSt.now, State.mirLanesOut_frame, State.mirLanesUp_frame, State.setFld_frame]; done)
    | (simp (maxDischargeDepth := 8) only [foldl_PMN, implies_true, and_self, and_true, true_and, apply_ite State.pending, apply_ite State.mem, apply_ite State.tck, apply_ite TckSt.now, State.mirLanesOut_frame, State.mirLanesUp_frame, State.setFld_frame]; done)
    | (with_reducible refine foldl_PMN _ _ _ (fun s a => ?_))
    | split
    | (simp only [implies_true, and_self, and_true, true_and, apply_ite State.pending, apply_ite State.mem, apply_ite State.tck, apply_ite TckSt.now, State.mirLanesOut_frame, State.mirLanesUp_frame, State.setFld_frame])

theorem State.mirRetry_frame (s : State)  : (State.mirRetry s).pending = s.pending ∧ (State.mirRetry s).tck.now = s.tck.now ∧ (State.mirRetry s).mem = s.mem := by
  unfold State.mirRetry
  repeat' first
    | (simp only [implies_true, and_self, and_true, true_and, apply_ite State.pending, apply_ite State.mem, apply_ite State.tck, apply_ite TckSt.now, State.mirBegin_frame]; done)
    | (simp (maxDischargeDepth := 8) only [foldl_PMN, implies_true, and_self, and_true, true_and, apply_ite State.pending, apply_ite State.mem, apply_ite State.tck, apply_ite TckSt.now, State.mirBegin_frame]; done)
    | (with_reducible refine foldl_PMN _ _ _ (fun s a => ?_))
    | split
    | (simp only [implies_true, and_self, and_true, true_and, apply_ite State.pending, apply_ite State.mem, apply_ite State.tck, apply_ite TckSt.now, State.mirBegin_frame])

theorem State.mirLaneRetire_frame (s : State) (k : Nat)  : (State.mirLaneRetire s k).pending = s.pending ∧ (State.mirLaneRetire s k).tck.now = s.tck.now ∧ (State.mirLaneRetire s k).mem = s.mem := by
  unfold State.mirLaneRetire
  repeat' first
    | (simp only [implies_true, and_self, and_true, true_and, apply_ite State.pending, apply_ite State.mem, apply_ite State.tck, apply_ite TckSt.now, State.mirLaneOut_frame, State.mirNoLane_frame]; done)
    | (simp (maxDischargeDepth := 8) only [foldl_PMN, implies_true, and_self, and_true, true_and, apply_ite State.pending, apply_ite State.mem, apply_ite State.tck, apply_ite TckSt.now, State.mirLaneOut_frame, State.mirNoLane_frame]; done)
    | (with_reducible refine foldl_PMN _ _ _ (fun s a => ?_))
    | split
    | (simp only [implies_true, and_self, and_true, true_and, apply_ite State.pending, apply_ite State.mem, apply_ite State.tck, apply_ite TckSt.now, State.mirLaneOut_frame, State.mirNoLane_frame])

theorem State.mirJudge_frame (s : State) (noSignal : Nat)  : (State.mirJudge s noSignal).pending = s.pending ∧ (State.mirJudge s noSignal).tck.now = s.tck.now ∧ (State.mirJudge s noSignal).mem = s.mem := by
  unfold State.mirJudge
  refine ⟨?_, ?_, ?_⟩
  · repeat' first
      | with_reducible assumption
      | with_reducible rfl
      | (with_reducible refine alP_ite ?_ ?_)
      | (with_reducible refine Eq.trans (State.setPort_frame ..).1 ?_)
      | (with_reducible refine Eq.trans (State.chanFault_frame ..).1 ?_)
      | (with_reducible refine Eq.trans (State.chanOk_frame ..).1 ?_)
      | (with_reducible refine Eq.trans (State.mirLaneRetire_frame ..).1 ?_)
      | (with_reducible refine alP_fold0 _ _ _ (fun r a h => ?_) ?_)
      | (with_reducible refine alP_fold1 _ _ _ (fun r a h => ?_) ?_)
      | (with_reducible refine alP_fold2 _ _ _ (fun r a h => ?_) ?_)
      | dsimp only
      | split
  · repeat' first
      | with_reducible assumption
      | with_reducible rfl
      | (with_reducible refine alN_ite ?_ ?_)
      | (with_reducible refine Eq.trans (State.setPort_frame ..).2.1 ?_)
      | (with_reducible refine Eq.trans (State.chanFault_frame ..).2.1 ?_)
      | (with_reducible refine Eq.trans (State.chanOk_frame ..).2.1 ?_)
      | (with_reducible refine Eq.trans (State.mirLaneRetire_frame ..).2.1 ?_)
      | (with_reducible refine alN_fold0 _ _ _ (fun r a h => ?_) ?_)
      | (with_reducible refine alN_fold1 _ _ _ (fun r a h => ?_) ?_)
      | (with_reducible refine alN_fold2 _ _ _ (fun r a h => ?_) ?_)
      | dsimp only
      | split
  · repeat' first
      | with_reducible assumption
      | with_reducible rfl
      | (with_reducible refine alM_ite ?_ ?_)
      | (with_reducible refine Eq.trans (State.setPort_frame ..).2.2 ?_)
      | (with_reducible refine Eq.trans (State.chanFault_frame ..).2.2 ?_)
      | (with_reducible refine Eq.trans (State.chanOk_frame ..).2.2 ?_)
      | (with_reducible refine Eq.trans (State.mirLaneRetire_frame ..).2.2 ?_)
      | (with_reducible refine alM_fold0 _ _ _ (fun r a h => ?_) ?_)
      | (with_reducible refine alM_fold1 _ _ _ (fun r a h => ?_) ?_)
      | (with_reducible refine alM_fold2 _ _ _ (fun r a h => ?_) ?_)
      | dsimp only
      | split

theorem State.mirRestore_frame (s : State) (m : Nat)  : (State.mirRestore s m).pending = s.pending ∧ (State.mirRestore s m).tck.now = s.tck.now ∧ (State.mirRestore s m).mem = s.mem := by
  unfold State.mirRestore
  repeat' first
    | (simp only [implies_true, and_self, and_true, true_and, apply_ite State.pending, apply_ite State.mem, apply_ite State.tck, apply_ite TckSt.now, State.mirBegin_frame, State.mirSetAligned_frame]; done)
    | (simp (maxDischargeDepth := 8) only [foldl_PMN, implies_true, and_self, and_true, true_and, apply_ite State.pending, apply_ite State.mem, apply_ite State.tck, apply_ite TckSt.now, State.mirBegin_frame, State.mirSetAligned_frame]; done)
    | (with_reducible refine foldl_PMN _ _ _ (fun s a => ?_))
    | split
    | (simp only [implies_true, and_self, and_true, true_and, apply_ite State.pending, apply_ite State.mem, apply_ite State.tck, apply_ite TckSt.now, State.mirBegin_frame, State.mirSetAligned_frame])

theorem State.mirCtrlWrite_frame (s : State) (v : Word)  : (State.mirCtrlWrite s v).pending = s.pending ∧ (State.mirCtrlWrite s v).tck.now = s.tck.now ∧ (State.mirCtrlWrite s v).mem = s.mem := by
  unfold State.mirCtrlWrite
  repeat' first
    | (simp only [implies_true, and_self, and_true, true_and, apply_ite State.pending, apply_ite State.mem, apply_ite State.tck, apply_ite TckSt.now, State.storeReg_frame, State.mirLaneRetire_frame, State.mirRestore_frame, State.mirTrain_frame]; done)
    | (simp (maxDischargeDepth := 8) only [foldl_PMN, implies_true, and_self, and_true, true_and, apply_ite State.pending, apply_ite State.mem, apply_ite State.tck, apply_ite TckSt.now, State.storeReg_frame, State.mirLaneRetire_frame, State.mirRestore_frame, State.mirTrain_frame]; done)
    | (with_reducible refine foldl_PMN _ _ _ (fun s a => ?_))
    | split
    | (simp only [implies_true, and_self, and_true, true_and, apply_ite State.pending, apply_ite State.mem, apply_ite State.tck, apply_ite TckSt.now, State.storeReg_frame, State.mirLaneRetire_frame, State.mirRestore_frame, State.mirTrain_frame])

theorem State.mirEcho_frame (s : State) (q r : Nat)  : (State.mirEcho s q r).pending = s.pending ∧ (State.mirEcho s q r).tck.now = s.tck.now ∧ (State.mirEcho s q r).mem = s.mem := by
  unfold State.mirEcho
  repeat' first
    | (simp only [implies_true, and_self, and_true, true_and, apply_ite State.pending, apply_ite State.mem, apply_ite State.tck, apply_ite TckSt.now, State.mirEchoReq_frame, State.setFld_frame]; done)
    | (simp (maxDischargeDepth := 8) only [foldl_PMN, implies_true, and_self, and_true, true_and, apply_ite State.pending, apply_ite State.mem, apply_ite State.tck, apply_ite TckSt.now, State.mirEchoReq_frame, State.setFld_frame]; done)
    | (with_reducible refine foldl_PMN _ _ _ (fun s a => ?_))
    | split
    | (simp only [implies_true, and_self, and_true, true_and, apply_ite State.pending, apply_ite State.mem, apply_ite State.tck, apply_ite TckSt.now, State.mirEchoReq_frame, State.setFld_frame])

theorem State.catchStart_frame (s : State)  : (State.catchStart s).pending = s.pending ∧ (State.catchStart s).tck.now = s.tck.now ∧ (State.catchStart s).mem = s.mem := by
  unfold State.catchStart
  repeat' first
    | (simp only [implies_true, and_self, and_true, true_and, apply_ite State.pending, apply_ite State.mem, apply_ite State.tck, apply_ite TckSt.now, State.trapEnd_frame, State.setRegN_frame, State.sendCtrl_frame]; done)
    | (simp (maxDischargeDepth := 8) only [foldl_PMN, implies_true, and_self, and_true, true_and, apply_ite State.pending, apply_ite State.mem, apply_ite State.tck, apply_ite TckSt.now, State.trapEnd_frame, State.setRegN_frame, State.sendCtrl_frame]; done)
    | (with_reducible refine foldl_PMN _ _ _ (fun s a => ?_))
    | split
    | (simp only [implies_true, and_self, and_true, true_and, apply_ite State.pending, apply_ite State.mem, apply_ite State.tck, apply_ite TckSt.now, State.trapEnd_frame, State.setRegN_frame, State.sendCtrl_frame])

theorem State.abortCatch_frame (s : State)  : (State.abortCatch s).pending = s.pending ∧ (State.abortCatch s).tck.now = s.tck.now ∧ (State.abortCatch s).mem = s.mem := by
  unfold State.abortCatch
  repeat' first
    | (simp only [implies_true, and_self, and_true, true_and, apply_ite State.pending, apply_ite State.mem, apply_ite State.tck, apply_ite TckSt.now, State.sendCtrl_frame, State.trapEnd_frame, State.serveStop_frame, State.raise_frame]; done)
    | (simp (maxDischargeDepth := 8) only [foldl_PMN, implies_true, and_self, and_true, true_and, apply_ite State.pending, apply_ite State.mem, apply_ite State.tck, apply_ite TckSt.now, State.sendCtrl_frame, State.trapEnd_frame, State.serveStop_frame, State.raise_frame]; done)
    | (with_reducible refine foldl_PMN _ _ _ (fun s a => ?_))
    | split
    | (simp only [implies_true, and_self, and_true, true_and, apply_ite State.pending, apply_ite State.mem, apply_ite State.tck, apply_ite TckSt.now, State.sendCtrl_frame, State.trapEnd_frame, State.serveStop_frame, State.raise_frame])

theorem State.redCtrlWrite_frame (s : State) (v : Word)  : (State.redCtrlWrite s v).pending = s.pending ∧ (State.redCtrlWrite s v).tck.now = s.tck.now ∧ (State.redCtrlWrite s v).mem = s.mem := by
  unfold State.redCtrlWrite
  repeat' first
    | (simp only [implies_true, and_self, and_true, true_and, apply_ite State.pending, apply_ite State.mem, apply_ite State.tck, apply_ite TckSt.now, State.abortCatch_frame, State.catchStart_frame, State.toPair_frame, State.releaseIlk_frame]; done)
    | (simp (maxDischargeDepth := 8) only [foldl_PMN, implies_true, and_self, and_true, true_and, apply_ite State.pending, apply_ite State.mem, apply_ite State.tck, apply_ite TckSt.now, State.abortCatch_frame, State.catchStart_frame, State.toPair_frame, State.releaseIlk_frame]; done)
    | (with_reducible refine foldl_PMN _ _ _ (fun s a => ?_))
    | split
    | (simp only [implies_true, and_self, and_true, true_and, apply_ite State.pending, apply_ite State.mem, apply_ite State.tck, apply_ite TckSt.now, State.abortCatch_frame, State.catchStart_frame, State.toPair_frame, State.releaseIlk_frame])

theorem execClaimArm_frame (m : Fin 8) (arm solo unsyncedOk : Bool) (s : State) {r : State} (e : execClaimArm m arm solo unsyncedOk s = .next r) : r.pending = s.pending ∧ r.tck.now = s.tck.now ∧ r.mem = s.mem := by
  unfold execClaimArm at e
  revert e
  intro e
  refine ⟨?_, ?_, ?_⟩
  · revert e
    repeat' first
      | with_reducible assumption
      | with_reducible rfl
      | (with_reducible refine Eq.trans (State.gateWrite_frP (heff := fun _ => ?_) ..) ?_)
      | (with_reducible refine Eq.trans (State.claimWrite_frame ..).1 ?_)
      | (with_reducible refine ocP_next ?_)
      | with_reducible exact ocP_fault
      | dsimp only
      | split
  · revert e
    repeat' first
      | with_reducible assumption
      | with_reducible rfl
      | (with_reducible refine Eq.trans (State.gateWrite_frN (heff := fun _ => ?_) ..) ?_)
      | (with_reducible refine Eq.trans (State.claimWrite_frame ..).2.1 ?_)
      | (with_reducible refine ocN_next ?_)
      | with_reducible exact ocN_fault
      | dsimp only
      | split
  · revert e
    repeat' first
      | with_reducible assumption
      | with_reducible rfl
      | (with_reducible refine Eq.trans (State.gateWrite_frM (heff := fun _ => ?_) ..) ?_)
      | (with_reducible refine Eq.trans (State.claimWrite_frame ..).2.2 ?_)
      | (with_reducible refine ocM_next ?_)
      | with_reducible exact ocM_fault
      | dsimp only
      | split

theorem execClaimAttempt_frame (cycle : Nat) (s : State) {r : State} (e : execClaimAttempt cycle s = .next r) : r.pending = s.pending ∧ r.tck.now = s.tck.now ∧ r.mem = s.mem := by
  unfold execClaimAttempt at e
  revert e
  intro e
  refine ⟨?_, ?_, ?_⟩
  · revert e
    repeat' first
      | with_reducible assumption
      | with_reducible rfl
      | (with_reducible refine Eq.trans (State.atCycle_frame ..).1 ?_)
      | (with_reducible refine Eq.trans (State.claimAttempt_frame ..).1 ?_)
      | (with_reducible refine ocP_next ?_)
      | with_reducible exact ocP_fault
      | dsimp only
      | split
  · revert e
    repeat' first
      | with_reducible assumption
      | with_reducible rfl
      | (with_reducible refine Eq.trans (State.atCycle_frame ..).2.1 ?_)
      | (with_reducible refine Eq.trans (State.claimAttempt_frame ..).2.1 ?_)
      | (with_reducible refine ocN_next ?_)
      | with_reducible exact ocN_fault
      | dsimp only
      | split
  · revert e
    repeat' first
      | with_reducible assumption
      | with_reducible rfl
      | (with_reducible refine Eq.trans (State.atCycle_frame ..).2.2 ?_)
      | (with_reducible refine Eq.trans (State.claimAttempt_frame ..).2.2 ?_)
      | (with_reducible refine ocM_next ?_)
      | with_reducible exact ocM_fault
      | dsimp only
      | split

theorem execClaimed_frame (cycle : Nat) (s : State) {r : State} (e : execClaimed cycle s = .next r) : r.pending = s.pending ∧ r.tck.now = s.tck.now ∧ (Memory.wf s.mem = true → Memory.wf r.mem = true) := by
  unfold execClaimed at e
  revert e
  intro e
  refine ⟨?_, ?_, fun h => ?_⟩
  · revert e
    repeat' first
      | with_reducible assumption
      | with_reducible rfl
      | (with_reducible refine Eq.trans (State.atCycle_frame ..).1 ?_)
      | (with_reducible refine Eq.trans (State.claimed_frame ..).1 ?_)
      | (with_reducible refine ocP_next ?_)
      | with_reducible exact ocP_fault
      | dsimp only
      | split
  · revert e
    repeat' first
      | with_reducible assumption
      | with_reducible rfl
      | (with_reducible refine Eq.trans (State.atCycle_frame ..).2.1 ?_)
      | (with_reducible refine Eq.trans (State.claimed_frame ..).2.1 ?_)
      | (with_reducible refine ocN_next ?_)
      | with_reducible exact ocN_fault
      | dsimp only
      | split
  · revert e
    repeat' first
      | with_reducible assumption
      | with_reducible rfl
      | (with_reducible refine wf_eq (State.atCycle_frame ..).2.2 ?_)
      | (with_reducible refine (State.claimed_frame ..).2.2 ?_)
      | (with_reducible refine ocW_next ?_)
      | with_reducible exact ocW_fault
      | dsimp only
      | split

theorem execIlkInAssert_frame (s : State) {r : State} (e : execIlkInAssert s = .next r) : r.pending = s.pending ∧ r.tck.now = s.tck.now ∧ (Memory.wf s.mem = true → Memory.wf r.mem = true) := by
  unfold execIlkInAssert at e
  revert e
  intro e
  refine ⟨?_, ?_, fun h => ?_⟩
  · revert e
    repeat' first
      | with_reducible assumption
      | with_reducible rfl
      | (with_reducible refine Eq.trans (State.ilkAssert_frame ..).1 ?_)
      | (with_reducible refine ocP_next ?_)
      | with_reducible exact ocP_fault
      | dsimp only
      | split
  · revert e
    repeat' first
      | with_reducible assumption
      | with_reducible rfl
      | (with_reducible refine Eq.trans (State.ilkAssert_frame ..).2.1 ?_)
      | (with_reducible refine ocN_next ?_)
      | with_reducible exact ocN_fault
      | dsimp only
      | split
  · revert e
    repeat' first
      | with_reducible assumption
      | with_reducible rfl
      | (with_reducible refine (State.ilkAssert_frame ..).2.2 ?_)
      | (with_reducible refine ocW_next ?_)
      | with_reducible exact ocW_fault
      | dsimp only
      | split

theorem execIlkInDeassert_frame (cycle : Nat) (s : State) {r : State} (e : execIlkInDeassert cycle s = .next r) : r.pending = s.pending ∧ r.tck.now = s.tck.now ∧ r.mem = s.mem := by
  unfold execIlkInDeassert at e
  revert e
  intro e
  refine ⟨?_, ?_, ?_⟩
  · revert e
    repeat' first
      | with_reducible assumption
      | with_reducible rfl
      | (with_reducible refine Eq.trans (State.atCycle_frame ..).1 ?_)
      | (with_reducible refine Eq.trans (State.ilkDeassert_frame ..).1 ?_)
      | (with_reducible refine ocP_next ?_)
      | with_reducible exact ocP_fault
      | dsimp only
      | split
  · revert e
    repeat' first
      | with_reducible assumption
      | with_reducible rfl
      | (with_reducible refine Eq.trans (State.atCycle_frame ..).2.1 ?_)
      | (with_reducible refine Eq.trans (State.ilkDeassert_frame ..).2.1 ?_)
      | (with_reducible refine ocN_next ?_)
      | with_reducible exact ocN_fault
      | dsimp only
      | split
  · revert e
    repeat' first
      | with_reducible assumption
      | with_reducible rfl
      | (with_reducible refine Eq.trans (State.atCycle_frame ..).2.2 ?_)
      | (with_reducible refine Eq.trans (State.ilkDeassert_frame ..).2.2 ?_)
      | (with_reducible refine ocM_next ?_)
      | with_reducible exact ocM_fault
      | dsimp only
      | split

theorem execToPair_frame (m : Fin 8) (s : State) {r : State} (e : execToPair m s = .next r) : r.pending = s.pending ∧ r.tck.now = s.tck.now ∧ r.mem = s.mem := by
  unfold execToPair at e
  revert e
  intro e
  refine ⟨?_, ?_, ?_⟩
  · revert e
    repeat' first
      | with_reducible assumption
      | with_reducible rfl
      | (with_reducible refine Eq.trans (State.gateWrite_frP (heff := fun _ => ?_) ..) ?_)
      | (with_reducible refine Eq.trans (State.toPair_frame ..).1 ?_)
      | (with_reducible refine ocP_next ?_)
      | with_reducible exact ocP_fault
      | dsimp only
      | split
  · revert e
    repeat' first
      | with_reducible assumption
      | with_reducible rfl
      | (with_reducible refine Eq.trans (State.gateWrite_frN (heff := fun _ => ?_) ..) ?_)
      | (with_reducible refine Eq.trans (State.toPair_frame ..).2.1 ?_)
      | (with_reducible refine ocN_next ?_)
      | with_reducible exact ocN_fault
      | dsimp only
      | split
  · revert e
    repeat' first
      | with_reducible assumption
      | with_reducible rfl
      | (with_reducible refine Eq.trans (State.gateWrite_frM (heff := fun _ => ?_) ..) ?_)
      | (with_reducible refine Eq.trans (State.toPair_frame ..).2.2 ?_)
      | (with_reducible refine ocM_next ?_)
      | with_reducible exact ocM_fault
      | dsimp only
      | split

theorem execInterlockRelease_frame (m : Fin 8) (s : State) {r : State} (e : execInterlockRelease m s = .next r) : r.pending = s.pending ∧ r.tck.now = s.tck.now ∧ r.mem = s.mem := by
  unfold execInterlockRelease at e
  revert e
  intro e
  refine ⟨?_, ?_, ?_⟩
  · revert e
    repeat' first
      | with_reducible assumption
      | with_reducible rfl
      | (with_reducible refine Eq.trans (State.gateWrite_frP (heff := fun _ => ?_) ..) ?_)
      | (with_reducible refine Eq.trans (State.releaseIlk_frame ..).1 ?_)
      | (with_reducible refine ocP_next ?_)
      | with_reducible exact ocP_fault
      | dsimp only
      | split
  · revert e
    repeat' first
      | with_reducible assumption
      | with_reducible rfl
      | (with_reducible refine Eq.trans (State.gateWrite_frN (heff := fun _ => ?_) ..) ?_)
      | (with_reducible refine Eq.trans (State.releaseIlk_frame ..).2.1 ?_)
      | (with_reducible refine ocN_next ?_)
      | with_reducible exact ocN_fault
      | dsimp only
      | split
  · revert e
    repeat' first
      | with_reducible assumption
      | with_reducible rfl
      | (with_reducible refine Eq.trans (State.gateWrite_frM (heff := fun _ => ?_) ..) ?_)
      | (with_reducible refine Eq.trans (State.releaseIlk_frame ..).2.2 ?_)
      | (with_reducible refine ocM_next ?_)
      | with_reducible exact ocM_fault
      | dsimp only
      | split

theorem execHelloTx_frame (s : State) {r : State} (e : execHelloTx s = .next r) : r.pending = s.pending ∧ r.tck.now = s.tck.now ∧ r.mem = s.mem := by
  unfold execHelloTx at e
  revert e
  intro e
  refine ⟨?_, ?_, ?_⟩
  · revert e
    repeat' first
      | with_reducible assumption
      | with_reducible rfl
      | (with_reducible refine Eq.trans (State.sendHello_frame ..).1 ?_)
      | (with_reducible refine ocP_next ?_)
      | with_reducible exact ocP_fault
      | dsimp only
      | split
  · revert e
    repeat' first
      | with_reducible assumption
      | with_reducible rfl
      | (with_reducible refine Eq.trans (State.sendHello_frame ..).2.1 ?_)
      | (with_reducible refine ocN_next ?_)
      | with_reducible exact ocN_fault
      | dsimp only
      | split
  · revert e
    repeat' first
      | with_reducible assumption
      | with_reducible rfl
      | (with_reducible refine Eq.trans (State.sendHello_frame ..).2.2 ?_)
      | (with_reducible refine ocM_next ?_)
      | with_reducible exact ocM_fault
      | dsimp only
      | split

theorem execCatch_frame (m : Fin 8) (s : State) {r : State} (e : execCatch m s = .next r) : r.pending = s.pending ∧ r.tck.now = s.tck.now ∧ r.mem = s.mem := by
  unfold execCatch at e
  revert e
  intro e
  refine ⟨?_, ?_, ?_⟩
  · revert e
    repeat' first
      | with_reducible assumption
      | with_reducible rfl
      | (with_reducible refine Eq.trans (State.gateWrite_frP (heff := fun _ => ?_) ..) ?_)
      | (with_reducible refine Eq.trans (State.catchStart_frame ..).1 ?_)
      | (with_reducible refine ocP_next ?_)
      | with_reducible exact ocP_fault
      | dsimp only
      | split
  · revert e
    repeat' first
      | with_reducible assumption
      | with_reducible rfl
      | (with_reducible refine Eq.trans (State.gateWrite_frN (heff := fun _ => ?_) ..) ?_)
      | (with_reducible refine Eq.trans (State.catchStart_frame ..).2.1 ?_)
      | (with_reducible refine ocN_next ?_)
      | with_reducible exact ocN_fault
      | dsimp only
      | split
  · revert e
    repeat' first
      | with_reducible assumption
      | with_reducible rfl
      | (with_reducible refine Eq.trans (State.gateWrite_frM (heff := fun _ => ?_) ..) ?_)
      | (with_reducible refine Eq.trans (State.catchStart_frame ..).2.2 ?_)
      | (with_reducible refine ocM_next ?_)
      | with_reducible exact ocM_fault
      | dsimp only
      | split

theorem execAbortCatch_frame (m : Fin 8) (s : State) {r : State} (e : execAbortCatch m s = .next r) : r.pending = s.pending ∧ r.tck.now = s.tck.now ∧ r.mem = s.mem := by
  unfold execAbortCatch at e
  revert e
  intro e
  refine ⟨?_, ?_, ?_⟩
  · revert e
    repeat' first
      | with_reducible assumption
      | with_reducible rfl
      | (with_reducible refine Eq.trans (State.gateWrite_frP (heff := fun _ => ?_) ..) ?_)
      | (with_reducible refine Eq.trans (State.abortCatch_frame ..).1 ?_)
      | (with_reducible refine ocP_next ?_)
      | with_reducible exact ocP_fault
      | dsimp only
      | split
  · revert e
    repeat' first
      | with_reducible assumption
      | with_reducible rfl
      | (with_reducible refine Eq.trans (State.gateWrite_frN (heff := fun _ => ?_) ..) ?_)
      | (with_reducible refine Eq.trans (State.abortCatch_frame ..).2.1 ?_)
      | (with_reducible refine ocN_next ?_)
      | with_reducible exact ocN_fault
      | dsimp only
      | split
  · revert e
    repeat' first
      | with_reducible assumption
      | with_reducible rfl
      | (with_reducible refine Eq.trans (State.gateWrite_frM (heff := fun _ => ?_) ..) ?_)
      | (with_reducible refine Eq.trans (State.abortCatch_frame ..).2.2 ?_)
      | (with_reducible refine ocM_next ?_)
      | with_reducible exact ocM_fault
      | dsimp only
      | split

theorem execMirrorLinkDown_frame (s : State) {r : State} (e : execMirrorLinkDown s = .next r) : r.pending = s.pending ∧ r.tck.now = s.tck.now ∧ r.mem = s.mem := by
  unfold execMirrorLinkDown at e
  revert e
  intro e
  refine ⟨?_, ?_, ?_⟩
  · revert e
    repeat' first
      | with_reducible assumption
      | with_reducible rfl
      | (with_reducible refine Eq.trans (State.mirTrain_frame ..).1 ?_)
      | (with_reducible refine ocP_next ?_)
      | with_reducible exact ocP_fault
      | dsimp only
      | split
  · revert e
    repeat' first
      | with_reducible assumption
      | with_reducible rfl
      | (with_reducible refine Eq.trans (State.mirTrain_frame ..).2.1 ?_)
      | (with_reducible refine ocN_next ?_)
      | with_reducible exact ocN_fault
      | dsimp only
      | split
  · revert e
    repeat' first
      | with_reducible assumption
      | with_reducible rfl
      | (with_reducible refine Eq.trans (State.mirTrain_frame ..).2.2 ?_)
      | (with_reducible refine ocM_next ?_)
      | with_reducible exact ocM_fault
      | dsimp only
      | split

theorem execMirrorRetrain_frame (m : Fin 8) (s : State) {r : State} (e : execMirrorRetrain m s = .next r) : r.pending = s.pending ∧ r.tck.now = s.tck.now ∧ r.mem = s.mem := by
  unfold execMirrorRetrain at e
  revert e
  intro e
  refine ⟨?_, ?_, ?_⟩
  · revert e
    repeat' first
      | with_reducible assumption
      | with_reducible rfl
      | (with_reducible refine Eq.trans (State.gateWrite_frP (heff := fun _ => ?_) ..) ?_)
      | (with_reducible refine Eq.trans (State.mirCtrlWrite_frame ..).1 ?_)
      | (with_reducible refine ocP_next ?_)
      | with_reducible exact ocP_fault
      | dsimp only
      | split
  · revert e
    repeat' first
      | with_reducible assumption
      | with_reducible rfl
      | (with_reducible refine Eq.trans (State.gateWrite_frN (heff := fun _ => ?_) ..) ?_)
      | (with_reducible refine Eq.trans (State.mirCtrlWrite_frame ..).2.1 ?_)
      | (with_reducible refine ocN_next ?_)
      | with_reducible exact ocN_fault
      | dsimp only
      | split
  · revert e
    repeat' first
      | with_reducible assumption
      | with_reducible rfl
      | (with_reducible refine Eq.trans (State.gateWrite_frM (heff := fun _ => ?_) ..) ?_)
      | (with_reducible refine Eq.trans (State.mirCtrlWrite_frame ..).2.2 ?_)
      | (with_reducible refine ocM_next ?_)
      | with_reducible exact ocM_fault
      | dsimp only
      | split

theorem execMirrorLaneRestore_frame (m : Fin 8) (lanes : Fin 16) (s : State) {r : State} (e : execMirrorLaneRestore m lanes s = .next r) : r.pending = s.pending ∧ r.tck.now = s.tck.now ∧ r.mem = s.mem := by
  unfold execMirrorLaneRestore at e
  revert e
  intro e
  refine ⟨?_, ?_, ?_⟩
  · revert e
    repeat' first
      | with_reducible assumption
      | with_reducible rfl
      | (with_reducible refine Eq.trans (State.gateWrite_frP (heff := fun _ => ?_) ..) ?_)
      | (with_reducible refine Eq.trans (State.mirCtrlWrite_frame ..).1 ?_)
      | (with_reducible refine ocP_next ?_)
      | with_reducible exact ocP_fault
      | dsimp only
      | split
  · revert e
    repeat' first
      | with_reducible assumption
      | with_reducible rfl
      | (with_reducible refine Eq.trans (State.gateWrite_frN (heff := fun _ => ?_) ..) ?_)
      | (with_reducible refine Eq.trans (State.mirCtrlWrite_frame ..).2.1 ?_)
      | (with_reducible refine ocN_next ?_)
      | with_reducible exact ocN_fault
      | dsimp only
      | split
  · revert e
    repeat' first
      | with_reducible assumption
      | with_reducible rfl
      | (with_reducible refine Eq.trans (State.gateWrite_frM (heff := fun _ => ?_) ..) ?_)
      | (with_reducible refine Eq.trans (State.mirCtrlWrite_frame ..).2.2 ?_)
      | (with_reducible refine ocM_next ?_)
      | with_reducible exact ocM_fault
      | dsimp only
      | split

theorem execMirrorLaneEnWrite_frame (m : Fin 8) (en : Fin 16) (s : State) {r : State} (e : execMirrorLaneEnWrite m en s = .next r) : r.pending = s.pending ∧ r.tck.now = s.tck.now ∧ r.mem = s.mem := by
  unfold execMirrorLaneEnWrite at e
  revert e
  intro e
  refine ⟨?_, ?_, ?_⟩
  · revert e
    repeat' first
      | with_reducible assumption
      | with_reducible rfl
      | (with_reducible refine Eq.trans (State.gateWrite_frP (heff := fun _ => ?_) ..) ?_)
      | (with_reducible refine Eq.trans (State.mirCtrlWrite_frame ..).1 ?_)
      | (with_reducible refine ocP_next ?_)
      | with_reducible exact ocP_fault
      | dsimp only
      | split
  · revert e
    repeat' first
      | with_reducible assumption
      | with_reducible rfl
      | (with_reducible refine Eq.trans (State.gateWrite_frN (heff := fun _ => ?_) ..) ?_)
      | (with_reducible refine Eq.trans (State.mirCtrlWrite_frame ..).2.1 ?_)
      | (with_reducible refine ocN_next ?_)
      | with_reducible exact ocN_fault
      | dsimp only
      | split
  · revert e
    repeat' first
      | with_reducible assumption
      | with_reducible rfl
      | (with_reducible refine Eq.trans (State.gateWrite_frM (heff := fun _ => ?_) ..) ?_)
      | (with_reducible refine Eq.trans (State.mirCtrlWrite_frame ..).2.2 ?_)
      | (with_reducible refine ocM_next ?_)
      | with_reducible exact ocM_fault
      | dsimp only
      | split

theorem execEchoReq_frame (seq : Byte) (s : State) {r : State} (e : execEchoReq seq s = .next r) : r.pending = s.pending ∧ r.tck.now = s.tck.now ∧ r.mem = s.mem := by
  unfold execEchoReq at e
  revert e
  intro e
  refine ⟨?_, ?_, ?_⟩
  · revert e
    repeat' first
      | with_reducible assumption
      | with_reducible rfl
      | (with_reducible refine alP_ite ?_ ?_)
      | (with_reducible refine Eq.trans (State.mirControl_frame ..).1 ?_)
      | (with_reducible refine Eq.trans (State.echoRsp_frame ..).1 ?_)
      | (with_reducible refine ocP_next ?_)
      | with_reducible exact ocP_fault
      | (with_reducible refine ocP_ite ?_ ?_)
      | dsimp only
      | split
  · revert e
    repeat' first
      | with_reducible assumption
      | with_reducible rfl
      | (with_reducible refine alN_ite ?_ ?_)
      | (with_reducible refine Eq.trans (State.mirControl_frame ..).2.1 ?_)
      | (with_reducible refine Eq.trans (State.echoRsp_frame ..).2.1 ?_)
      | (with_reducible refine ocN_next ?_)
      | with_reducible exact ocN_fault
      | (with_reducible refine ocN_ite ?_ ?_)
      | dsimp only
      | split
  · revert e
    repeat' first
      | with_reducible assumption
      | with_reducible rfl
      | (with_reducible refine alM_ite ?_ ?_)
      | (with_reducible refine Eq.trans (State.mirControl_frame ..).2.2 ?_)
      | (with_reducible refine Eq.trans (State.echoRsp_frame ..).2.2 ?_)
      | (with_reducible refine ocM_next ?_)
      | with_reducible exact ocM_fault
      | (with_reducible refine ocM_ite ?_ ?_)
      | dsimp only
      | split

end Sys2Proof.Machine
end

