-- ==== Sys2Proof/Laws/FrameLinks.lean ====
section
/-! SUPPORT. What every operation of Machine/Links.lean leaves alone: the queue of waiting commands, the tick counter (unless it
writes it), and memory or its canonical form. -/

namespace Sys2Proof.Machine

set_option linter.all false
set_option Elab.async false
set_option maxRecDepth 4000

theorem State.mirSendAlign_frame (s : State)  : (State.mirSendAlign s).pending = s.pending ∧ (State.mirSendAlign s).tck.now = s.tck.now ∧ (State.mirSendAlign s).mem = s.mem := by
  unfold State.mirSendAlign
  repeat' first
    | (simp only [implies_true, and_self, and_true, true_and, apply_ite State.pending, apply_ite State.mem, apply_ite State.tck, apply_ite TckSt.now, State.setPort_frame, State.mirControl_frame]; done)
    | (simp (maxDischargeDepth := 8) only [foldl_PMN, implies_true, and_self, and_true, true_and, apply_ite State.pending, apply_ite State.mem, apply_ite State.tck, apply_ite TckSt.now, State.setPort_frame, State.mirControl_frame]; done)
    | (with_reducible refine foldl_PMN _ _ _ (fun s a => ?_))
    | split
    | (simp only [implies_true, and_self, and_true, true_and, apply_ite State.pending, apply_ite State.mem, apply_ite State.tck, apply_ite TckSt.now, State.setPort_frame, State.mirControl_frame])

theorem execAlignTx_frame (place : Fin 17 × Bool) (s : State) {r : State} (e : execAlignTx place s = .next r) : r.pending = s.pending ∧ r.tck.now = s.tck.now ∧ r.mem = s.mem := by
  unfold execAlignTx at e
  revert e
  intro e
  refine ⟨?_, ?_, ?_⟩
  · revert e
    repeat' first
      | with_reducible assumption
      | with_reducible rfl
      | (with_reducible refine alP_ite ?_ ?_)
      | (with_reducible refine Eq.trans (State.mirSendAlign_frame ..).1 ?_)
      | (with_reducible refine Eq.trans (State.sendAlign_frame ..).1 ?_)
      | (with_reducible refine ocP_next ?_)
      | with_reducible exact ocP_fault
      | (with_reducible refine ocP_ite ?_ ?_)
      | dsimp only
      | split
  · revert e
    repeat' first
      | with_reducible assumption
      | with_reducible rfl
      | (with_reducible refine alN_ite ?_ ?_)
      | (with_reducible refine Eq.trans (State.mirSendAlign_frame ..).2.1 ?_)
      | (with_reducible refine Eq.trans (State.sendAlign_frame ..).2.1 ?_)
      | (with_reducible refine ocN_next ?_)
      | with_reducible exact ocN_fault
      | (with_reducible refine ocN_ite ?_ ?_)
      | dsimp only
      | split
  · revert e
    repeat' first
      | with_reducible assumption
      | with_reducible rfl
      | (with_reducible refine alM_ite ?_ ?_)
      | (with_reducible refine Eq.trans (State.mirSendAlign_frame ..).2.2 ?_)
      | (with_reducible refine Eq.trans (State.sendAlign_frame ..).2.2 ?_)
      | (with_reducible refine ocM_next ?_)
      | with_reducible exact ocM_fault
      | (with_reducible refine ocM_ite ?_ ?_)
      | dsimp only
      | split

theorem execAlignRx_frame (port : Fin 17) (lane : Fin 4) (inPlace : Bool) (skew : Int) (s : State) {r : State} (e : execAlignRx port lane inPlace skew s = .next r) : r.pending = s.pending ∧ r.tck.now = s.tck.now ∧ r.mem = s.mem := by
  unfold execAlignRx at e
  revert e
  intro e
  refine ⟨?_, ?_, ?_⟩
  · revert e
    repeat' first
      | with_reducible assumption
      | with_reducible rfl
      | (with_reducible refine alP_ite ?_ ?_)
      | (with_reducible refine Eq.trans (State.mirAlign_frame ..).1 ?_)
      | (with_reducible refine Eq.trans (State.alignRx_frame ..).1 ?_)
      | (with_reducible refine ocP_next ?_)
      | with_reducible exact ocP_fault
      | (with_reducible refine ocP_ite ?_ ?_)
      | dsimp only
      | split
  · revert e
    repeat' first
      | with_reducible assumption
      | with_reducible rfl
      | (with_reducible refine alN_ite ?_ ?_)
      | (with_reducible refine Eq.trans (State.mirAlign_frame ..).2.1 ?_)
      | (with_reducible refine Eq.trans (State.alignRx_frame ..).2.1 ?_)
      | (with_reducible refine ocN_next ?_)
      | with_reducible exact ocN_fault
      | (with_reducible refine ocN_ite ?_ ?_)
      | dsimp only
      | split
  · revert e
    repeat' first
      | with_reducible assumption
      | with_reducible rfl
      | (with_reducible refine alM_ite ?_ ?_)
      | (with_reducible refine Eq.trans (State.mirAlign_frame ..).2.2 ?_)
      | (with_reducible refine Eq.trans (State.alignRx_frame ..).2.2 ?_)
      | (with_reducible refine ocM_next ?_)
      | with_reducible exact ocM_fault
      | (with_reducible refine ocM_ite ?_ ?_)
      | dsimp only
      | split

theorem execAlignMissing_frame (port : Fin 17) (lane : Fin 4) (s : State) {r : State} (e : execAlignMissing port lane s = .next r) : r.pending = s.pending ∧ r.tck.now = s.tck.now ∧ r.mem = s.mem := by
  unfold execAlignMissing at e
  revert e
  intro e
  refine ⟨?_, ?_, ?_⟩
  · revert e
    repeat' first
      | with_reducible assumption
      | with_reducible rfl
      | (with_reducible refine alP_ite ?_ ?_)
      | (with_reducible refine Eq.trans (State.mirAlignMissing_frame ..).1 ?_)
      | (with_reducible refine Eq.trans (State.alignMissing_frame ..).1 ?_)
      | (with_reducible refine ocP_next ?_)
      | with_reducible exact ocP_fault
      | (with_reducible refine ocP_ite ?_ ?_)
      | dsimp only
      | split
  · revert e
    repeat' first
      | with_reducible assumption
      | with_reducible rfl
      | (with_reducible refine alN_ite ?_ ?_)
      | (with_reducible refine Eq.trans (State.mirAlignMissing_frame ..).2.1 ?_)
      | (with_reducible refine Eq.trans (State.alignMissing_frame ..).2.1 ?_)
      | (with_reducible refine ocN_next ?_)
      | with_reducible exact ocN_fault
      | (with_reducible refine ocN_ite ?_ ?_)
      | dsimp only
      | split
  · revert e
    repeat' first
      | with_reducible assumption
      | with_reducible rfl
      | (with_reducible refine alM_ite ?_ ?_)
      | (with_reducible refine Eq.trans (State.mirAlignMissing_frame ..).2.2 ?_)
      | (with_reducible refine Eq.trans (State.alignMissing_frame ..).2.2 ?_)
      | (with_reducible refine ocM_next ?_)
      | with_reducible exact ocM_fault
      | (with_reducible refine ocM_ite ?_ ?_)
      | dsimp only
      | split

theorem execPmdTrainDone_frame (port : Fin 17) (lanes : Fin 16) (s : State) {r : State} (e : execPmdTrainDone port lanes s = .next r) : r.pending = s.pending ∧ r.tck.now = s.tck.now ∧ r.mem = s.mem := by
  unfold execPmdTrainDone at e
  revert e
  intro e
  refine ⟨?_, ?_, ?_⟩
  · revert e
    repeat' first
      | with_reducible assumption
      | with_reducible rfl
      | (with_reducible refine alP_ite ?_ ?_)
      | (with_reducible refine Eq.trans (State.mirPmdDone_frame ..).1 ?_)
      | (with_reducible refine Eq.trans (State.pmdTrained_frame ..).1 ?_)
      | (with_reducible refine ocP_next ?_)
      | with_reducible exact ocP_fault
      | (with_reducible refine ocP_ite ?_ ?_)
      | dsimp only
      | split
  · revert e
    repeat' first
      | with_reducible assumption
      | with_reducible rfl
      | (with_reducible refine alN_ite ?_ ?_)
      | (with_reducible refine Eq.trans (State.mirPmdDone_frame ..).2.1 ?_)
      | (with_reducible refine Eq.trans (State.pmdTrained_frame ..).2.1 ?_)
      | (with_reducible refine ocN_next ?_)
      | with_reducible exact ocN_fault
      | (with_reducible refine ocN_ite ?_ ?_)
      | dsimp only
      | split
  · revert e
    repeat' first
      | with_reducible assumption
      | with_reducible rfl
      | (with_reducible refine alM_ite ?_ ?_)
      | (with_reducible refine Eq.trans (State.mirPmdDone_frame ..).2.2 ?_)
      | (with_reducible refine Eq.trans (State.pmdTrained_frame ..).2.2 ?_)
      | (with_reducible refine ocM_next ?_)
      | with_reducible exact ocM_fault
      | (with_reducible refine ocM_ite ?_ ?_)
      | dsimp only
      | split

theorem execEchoRsp_frame (port : Fin 17) (seq : BitVec 16) (rtt : Nat) (s : State) {r : State} (e : execEchoRsp port seq rtt s = .next r) : r.pending = s.pending ∧ r.tck.now = s.tck.now ∧ r.mem = s.mem := by
  unfold execEchoRsp at e
  revert e
  intro e
  refine ⟨?_, ?_, ?_⟩
  · revert e
    repeat' first
      | with_reducible assumption
      | with_reducible rfl
      | (with_reducible refine alP_ite ?_ ?_)
      | (with_reducible refine Eq.trans (State.mirEcho_frame ..).1 ?_)
      | (with_reducible refine Eq.trans (State.echoRsp_frame ..).1 ?_)
      | (with_reducible refine ocP_next ?_)
      | with_reducible exact ocP_fault
      | (with_reducible refine ocP_ite ?_ ?_)
      | dsimp only
      | split
  · revert e
    repeat' first
      | with_reducible assumption
      | with_reducible rfl
      | (with_reducible refine alN_ite ?_ ?_)
      | (with_reducible refine Eq.trans (State.mirEcho_frame ..).2.1 ?_)
      | (with_reducible refine Eq.trans (State.echoRsp_frame ..).2.1 ?_)
      | (with_reducible refine ocN_next ?_)
      | with_reducible exact ocN_fault
      | (with_reducible refine ocN_ite ?_ ?_)
      | dsimp only
      | split
  · revert e
    repeat' first
      | with_reducible assumption
      | with_reducible rfl
      | (with_reducible refine alM_ite ?_ ?_)
      | (with_reducible refine Eq.trans (State.mirEcho_frame ..).2.2 ?_)
      | (with_reducible refine Eq.trans (State.echoRsp_frame ..).2.2 ?_)
      | (with_reducible refine ocM_next ?_)
      | with_reducible exact ocM_fault
      | (with_reducible refine ocM_ite ?_ ?_)
      | dsimp only
      | split

theorem execTrainTimeout_frame (port : Fin 17) (signal : Bool) (s : State) {r : State} (e : execTrainTimeout port signal s = .next r) : r.pending = s.pending ∧ r.tck.now = s.tck.now ∧ r.mem = s.mem := by
  unfold execTrainTimeout at e
  revert e
  intro e
  refine ⟨?_, ?_, ?_⟩
  · revert e
    repeat' first
      | with_reducible assumption
      | with_reducible rfl
      | (with_reducible refine alP_ite ?_ ?_)
      | (with_reducible refine Eq.trans (State.mirTimeout_frame ..).1 ?_)
      | (with_reducible refine Eq.trans (State.trainTimeout_frame ..).1 ?_)
      | (with_reducible refine ocP_next ?_)
      | with_reducible exact ocP_fault
      | (with_reducible refine ocP_ite ?_ ?_)
      | dsimp only
      | split
  · revert e
    repeat' first
      | with_reducible assumption
      | with_reducible rfl
      | (with_reducible refine alN_ite ?_ ?_)
      | (with_reducible refine Eq.trans (State.mirTimeout_frame ..).2.1 ?_)
      | (with_reducible refine Eq.trans (State.trainTimeout_frame ..).2.1 ?_)
      | (with_reducible refine ocN_next ?_)
      | with_reducible exact ocN_fault
      | (with_reducible refine ocN_ite ?_ ?_)
      | dsimp only
      | split
  · revert e
    repeat' first
      | with_reducible assumption
      | with_reducible rfl
      | (with_reducible refine alM_ite ?_ ?_)
      | (with_reducible refine Eq.trans (State.mirTimeout_frame ..).2.2 ?_)
      | (with_reducible refine Eq.trans (State.trainTimeout_frame ..).2.2 ?_)
      | (with_reducible refine ocM_next ?_)
      | with_reducible exact ocM_fault
      | (with_reducible refine ocM_ite ?_ ?_)
      | dsimp only
      | split

theorem execTrainRetry_frame (port : Fin 17) (s : State) {r : State} (e : execTrainRetry port s = .next r) : r.pending = s.pending ∧ r.tck.now = s.tck.now ∧ r.mem = s.mem := by
  unfold execTrainRetry at e
  revert e
  intro e
  refine ⟨?_, ?_, ?_⟩
  · revert e
    repeat' first
      | with_reducible assumption
      | with_reducible rfl
      | (with_reducible refine alP_ite ?_ ?_)
      | (with_reducible refine Eq.trans (State.mirRetry_frame ..).1 ?_)
      | (with_reducible refine Eq.trans (State.trainRetry_frame ..).1 ?_)
      | (with_reducible refine ocP_next ?_)
      | with_reducible exact ocP_fault
      | (with_reducible refine ocP_ite ?_ ?_)
      | dsimp only
      | split
  · revert e
    repeat' first
      | with_reducible assumption
      | with_reducible rfl
      | (with_reducible refine alN_ite ?_ ?_)
      | (with_reducible refine Eq.trans (State.mirRetry_frame ..).2.1 ?_)
      | (with_reducible refine Eq.trans (State.trainRetry_frame ..).2.1 ?_)
      | (with_reducible refine ocN_next ?_)
      | with_reducible exact ocN_fault
      | (with_reducible refine ocN_ite ?_ ?_)
      | dsimp only
      | split
  · revert e
    repeat' first
      | with_reducible assumption
      | with_reducible rfl
      | (with_reducible refine alM_ite ?_ ?_)
      | (with_reducible refine Eq.trans (State.mirRetry_frame ..).2.2 ?_)
      | (with_reducible refine Eq.trans (State.trainRetry_frame ..).2.2 ?_)
      | (with_reducible refine ocM_next ?_)
      | with_reducible exact ocM_fault
      | (with_reducible refine ocM_ite ?_ ?_)
      | dsimp only
      | split

end Sys2Proof.Machine
end

