-- ==== Sys2Proof/Laws/FrameNtu.lean ====
section
/-! SUPPORT. What every operation of Machine/Ntu.lean leaves alone: the queue of waiting commands, the tick counter (unless it
writes it), and memory or its canonical form. -/

namespace Sys2Proof.Machine

set_option linter.all false
set_option Elab.async false
set_option maxRecDepth 4000

theorem State.ntuDiscard_frame (s : State) (grp : List Nat)  : (State.ntuDiscard s grp).pending = s.pending ∧ (State.ntuDiscard s grp).tck.now = s.tck.now ∧ (State.ntuDiscard s grp).mem = s.mem := by
  unfold State.ntuDiscard
  repeat' first
    | (simp only [implies_true, and_self, and_true, true_and, apply_ite State.pending, apply_ite State.mem, apply_ite State.tck, apply_ite TckSt.now]; done)
    | (simp (maxDischargeDepth := 8) only [foldl_PMN, implies_true, and_self, and_true, true_and, apply_ite State.pending, apply_ite State.mem, apply_ite State.tck, apply_ite TckSt.now]; done)
    | (with_reducible refine foldl_PMN _ _ _ (fun s a => ?_))
    | split
    | (simp only [implies_true, and_self, and_true, true_and, apply_ite State.pending, apply_ite State.mem, apply_ite State.tck, apply_ite TckSt.now])

theorem State.holdWord_frame (s : State) (a : Nat) (v : Word) (grp : List Nat)  : (State.holdWord s a v grp).pending = s.pending ∧ (State.holdWord s a v grp).tck.now = s.tck.now ∧ (State.holdWord s a v grp).mem = s.mem := by
  unfold State.holdWord
  repeat' first
    | (simp only [implies_true, and_self, and_true, true_and, apply_ite State.pending, apply_ite State.mem, apply_ite State.tck, apply_ite TckSt.now, State.ntuDiscard_frame]; done)
    | (simp (maxDischargeDepth := 8) only [foldl_PMN, implies_true, and_self, and_true, true_and, apply_ite State.pending, apply_ite State.mem, apply_ite State.tck, apply_ite TckSt.now, State.ntuDiscard_frame]; done)
    | (with_reducible refine foldl_PMN _ _ _ (fun s a => ?_))
    | split
    | (simp only [implies_true, and_self, and_true, true_and, apply_ite State.pending, apply_ite State.mem, apply_ite State.tck, apply_ite TckSt.now, State.ntuDiscard_frame])

theorem State.unlessHoldover_frame (s : State) (m addr : Nat) (f : State → State) (hf : ∀  t, (f  t).pending = t.pending ∧ (f  t).tck.now = t.tck.now ∧ (f  t).mem = t.mem)  : (State.unlessHoldover s m addr f).pending = s.pending ∧ (State.unlessHoldover s m addr f).tck.now = s.tck.now ∧ (State.unlessHoldover s m addr f).mem = s.mem := by
  unfold State.unlessHoldover
  repeat' first
    | (simp only [implies_true, and_self, and_true, true_and, apply_ite State.pending, apply_ite State.mem, apply_ite State.tck, apply_ite TckSt.now, State.refuseWrite_frame, State.raise_frame, hf]; done)
    | (simp (maxDischargeDepth := 8) only [foldl_PMN, implies_true, and_self, and_true, true_and, apply_ite State.pending, apply_ite State.mem, apply_ite State.tck, apply_ite TckSt.now, State.refuseWrite_frame, State.raise_frame, hf]; done)
    | (with_reducible refine foldl_PMN _ _ _ (fun s a => ?_))
    | split
    | (simp only [implies_true, and_self, and_true, true_and, apply_ite State.pending, apply_ite State.mem, apply_ite State.tck, apply_ite TckSt.now, State.refuseWrite_frame, State.raise_frame, hf])
theorem State.unlessHoldover_frP (s : State) (m addr : Nat) (f : State → State) (hf : ∀  t, (f  t).pending = t.pending) : (State.unlessHoldover s m addr f).pending = s.pending := by
  unfold State.unlessHoldover
  · repeat' first
      | with_reducible assumption
      | with_reducible rfl
      | (with_reducible refine alP_ite ?_ ?_)
      | (with_reducible refine Eq.trans (State.refuseWrite_frame ..).1 ?_)
      | (with_reducible refine Eq.trans (State.raise_frame ..).1 ?_)
      | (with_reducible refine Eq.trans (hf  _) ?_)
      | dsimp only
      | split
theorem State.unlessHoldover_frN (s : State) (m addr : Nat) (f : State → State) (hf : ∀  t, (f  t).tck.now = t.tck.now) : (State.unlessHoldover s m addr f).tck.now = s.tck.now := by
  unfold State.unlessHoldover
  · repeat' first
      | with_reducible assumption
      | with_reducible rfl
      | (with_reducible refine alN_ite ?_ ?_)
      | (with_reducible refine Eq.trans (State.refuseWrite_frame ..).2.1 ?_)
      | (with_reducible refine Eq.trans (State.raise_frame ..).2.1 ?_)
      | (with_reducible refine Eq.trans (hf  _) ?_)
      | dsimp only
      | split
theorem State.unlessHoldover_frM (s : State) (m addr : Nat) (f : State → State) (hf : ∀  t, (f  t).mem = t.mem) : (State.unlessHoldover s m addr f).mem = s.mem := by
  unfold State.unlessHoldover
  · repeat' first
      | with_reducible assumption
      | with_reducible rfl
      | (with_reducible refine alM_ite ?_ ?_)
      | (with_reducible refine Eq.trans (State.refuseWrite_frame ..).2.2 ?_)
      | (with_reducible refine Eq.trans (State.raise_frame ..).2.2 ?_)
      | (with_reducible refine Eq.trans (hf  _) ?_)
      | dsimp only
      | split
theorem State.unlessHoldover_frW (s : State) (m addr : Nat) (f : State → State) (hf : ∀  t, Memory.wf t.mem = true → Memory.wf (f  t).mem = true) (hw : Memory.wf s.mem = true) : Memory.wf (State.unlessHoldover s m addr f).mem = true := by
  unfold State.unlessHoldover
  · repeat' first
      | with_reducible assumption
      | with_reducible rfl
      | (with_reducible refine alW_ite ?_ ?_)
      | (with_reducible refine wf_eq (State.refuseWrite_frame ..).2.2 ?_)
      | (with_reducible refine wf_eq (State.raise_frame ..).2.2 ?_)
      | (with_reducible refine hf  _ ?_)
      | dsimp only
      | split

theorem State.setClock_frame (s : State) (rate : BitVec 40) (offset : BitVec 96)  : (State.setClock s rate offset).pending = s.pending ∧ (State.setClock s rate offset).tck.now = s.tck.now ∧ (State.setClock s rate offset).mem = s.mem := by
  unfold State.setClock
  repeat' first
    | (simp only [implies_true, and_self, and_true, true_and, apply_ite State.pending, apply_ite State.mem, apply_ite State.tck, apply_ite TckSt.now]; done)
    | (simp (maxDischargeDepth := 8) only [foldl_PMN, implies_true, and_self, and_true, true_and, apply_ite State.pending, apply_ite State.mem, apply_ite State.tck, apply_ite TckSt.now]; done)
    | (with_reducible refine foldl_PMN _ _ _ (fun s a => ?_))
    | split
    | (simp only [implies_true, and_self, and_true, true_and, apply_ite State.pending, apply_ite State.mem, apply_ite State.tck, apply_ite TckSt.now])

theorem State.setRate_frame (s : State) (r : BitVec 40)  : (State.setRate s r).pending = s.pending ∧ (State.setRate s r).tck.now = s.tck.now ∧ (State.setRate s r).mem = s.mem := by
  unfold State.setRate
  repeat' first
    | (simp only [implies_true, and_self, and_true, true_and, apply_ite State.pending, apply_ite State.mem, apply_ite State.tck, apply_ite TckSt.now, State.setClock_frame]; done)
    | (simp (maxDischargeDepth := 8) only [foldl_PMN, implies_true, and_self, and_true, true_and, apply_ite State.pending, apply_ite State.mem, apply_ite State.tck, apply_ite TckSt.now, State.setClock_frame]; done)
    | (with_reducible refine foldl_PMN _ _ _ (fun s a => ?_))
    | split
    | (simp only [implies_true, and_self, and_true, true_and, apply_ite State.pending, apply_ite State.mem, apply_ite State.tck, apply_ite TckSt.now, State.setClock_frame])

theorem State.rateWrite_frame (s : State) (v : Word)  : (State.rateWrite s v).pending = s.pending ∧ (State.rateWrite s v).tck.now = s.tck.now ∧ (State.rateWrite s v).mem = s.mem := by
  unfold State.rateWrite
  repeat' first
    | (simp only [implies_true, and_self, and_true, true_and, apply_ite State.pending, apply_ite State.mem, apply_ite State.tck, apply_ite TckSt.now, State.setRate_frame, State.ntuDiscard_frame]; done)
    | (simp (maxDischargeDepth := 8) only [foldl_PMN, implies_true, and_self, and_true, true_and, apply_ite State.pending, apply_ite State.mem, apply_ite State.tck, apply_ite TckSt.now, State.setRate_frame, State.ntuDiscard_frame]; done)
    | (with_reducible refine foldl_PMN _ _ _ (fun s a => ?_))
    | split
    | (simp only [implies_true, and_self, and_true, true_and, apply_ite State.pending, apply_ite State.mem, apply_ite State.tck, apply_ite TckSt.now, State.setRate_frame, State.ntuDiscard_frame])

theorem State.offsetWrite_frame (s : State) (v : Word)  : (State.offsetWrite s v).pending = s.pending ∧ (State.offsetWrite s v).tck.now = s.tck.now ∧ (State.offsetWrite s v).mem = s.mem := by
  unfold State.offsetWrite
  repeat' first
    | (simp only [implies_true, and_self, and_true, true_and, apply_ite State.pending, apply_ite State.mem, apply_ite State.tck, apply_ite TckSt.now, State.setClock_frame, State.ntuDiscard_frame]; done)
    | (simp (maxDischargeDepth := 8) only [foldl_PMN, implies_true, and_self, and_true, true_and, apply_ite State.pending, apply_ite State.mem, apply_ite State.tck, apply_ite TckSt.now, State.setClock_frame, State.ntuDiscard_frame]; done)
    | (with_reducible refine foldl_PMN _ _ _ (fun s a => ?_))
    | split
    | (simp only [implies_true, and_self, and_true, true_and, apply_ite State.pending, apply_ite State.mem, apply_ite State.tck, apply_ite TckSt.now, State.setClock_frame, State.ntuDiscard_frame])

theorem State.stepWrite_frame (s : State) (v : Word)  : (State.stepWrite s v).pending = s.pending ∧ (State.stepWrite s v).tck.now = s.tck.now ∧ (State.stepWrite s v).mem = s.mem := by
  unfold State.stepWrite
  repeat' first
    | (simp only [implies_true, and_self, and_true, true_and, apply_ite State.pending, apply_ite State.mem, apply_ite State.tck, apply_ite TckSt.now, State.setClock_frame, State.ntuDiscard_frame]; done)
    | (simp (maxDischargeDepth := 8) only [foldl_PMN, implies_true, and_self, and_true, true_and, apply_ite State.pending, apply_ite State.mem, apply_ite State.tck, apply_ite TckSt.now, State.setClock_frame, State.ntuDiscard_frame]; done)
    | (with_reducible refine foldl_PMN _ _ _ (fun s a => ?_))
    | split
    | (simp only [implies_true, and_self, and_true, true_and, apply_ite State.pending, apply_ite State.mem, apply_ite State.tck, apply_ite TckSt.now, State.setClock_frame, State.ntuDiscard_frame])

theorem State.wdStart_frame (s : State)  : (State.wdStart s).pending = s.pending ∧ (State.wdStart s).tck.now = s.tck.now ∧ (State.wdStart s).mem = s.mem := by
  unfold State.wdStart
  repeat' first
    | (simp only [implies_true, and_self, and_true, true_and, apply_ite State.pending, apply_ite State.mem, apply_ite State.tck, apply_ite TckSt.now, State.setRegN_frame]; done)
    | (simp (maxDischargeDepth := 8) only [foldl_PMN, implies_true, and_self, and_true, true_and, apply_ite State.pending, apply_ite State.mem, apply_ite State.tck, apply_ite TckSt.now, State.setRegN_frame]; done)
    | (with_reducible refine foldl_PMN _ _ _ (fun s a => ?_))
    | split
    | (simp only [implies_true, and_self, and_true, true_and, apply_ite State.pending, apply_ite State.mem, apply_ite State.tck, apply_ite TckSt.now, State.setRegN_frame])

theorem State.registerSync_frame (s : State)  : (State.registerSync s).pending = s.pending ∧ (State.registerSync s).tck.now = s.tck.now ∧ (State.registerSync s).mem = s.mem := by
  unfold State.registerSync
  repeat' first
    | (simp only [implies_true, and_self, and_true, true_and, apply_ite State.pending, apply_ite State.mem, apply_ite State.tck, apply_ite TckSt.now, State.setBit_frame, State.wdStart_frame]; done)
    | (simp (maxDischargeDepth := 8) only [foldl_PMN, implies_true, and_self, and_true, true_and, apply_ite State.pending, apply_ite State.mem, apply_ite State.tck, apply_ite TckSt.now, State.setBit_frame, State.wdStart_frame]; done)
    | (with_reducible refine foldl_PMN _ _ _ (fun s a => ?_))
    | split
    | (simp only [implies_true, and_self, and_true, true_and, apply_ite State.pending, apply_ite State.mem, apply_ite State.tck, apply_ite TckSt.now, State.setBit_frame, State.wdStart_frame])

theorem State.enterTime_frame (s : State) (st : Nat)  : (State.enterTime s st).pending = s.pending ∧ (State.enterTime s st).tck.now = s.tck.now ∧ (State.enterTime s st).mem = s.mem := by
  unfold State.enterTime
  repeat' first
    | (simp only [implies_true, and_self, and_true, true_and, apply_ite State.pending, apply_ite State.mem, apply_ite State.tck, apply_ite TckSt.now, State.setFld_frame, State.setBit_frame, State.wdStart_frame, State.raiseIf_frame]; done)
    | (simp (maxDischargeDepth := 8) only [foldl_PMN, implies_true, and_self, and_true, true_and, apply_ite State.pending, apply_ite State.mem, apply_ite State.tck, apply_ite TckSt.now, State.setFld_frame, State.setBit_frame, State.wdStart_frame, State.raiseIf_frame]; done)
    | (with_reducible refine foldl_PMN _ _ _ (fun s a => ?_))
    | split
    | (simp only [implies_true, and_self, and_true, true_and, apply_ite State.pending, apply_ite State.mem, apply_ite State.tck, apply_ite TckSt.now, State.setFld_frame, State.setBit_frame, State.wdStart_frame, State.raiseIf_frame])

theorem State.reqRes_frame (s : State) (r : Nat)  : (State.reqRes s r).pending = s.pending ∧ (State.reqRes s r).tck.now = s.tck.now ∧ (State.reqRes s r).mem = s.mem := by
  unfold State.reqRes
  repeat' first
    | (simp only [implies_true, and_self, and_true, true_and, apply_ite State.pending, apply_ite State.mem, apply_ite State.tck, apply_ite TckSt.now, State.setFld_frame, State.raiseIf_frame]; done)
    | (simp (maxDischargeDepth := 8) only [foldl_PMN, implies_true, and_self, and_true, true_and, apply_ite State.pending, apply_ite State.mem, apply_ite State.tck, apply_ite TckSt.now, State.setFld_frame, State.raiseIf_frame]; done)
    | (with_reducible refine foldl_PMN _ _ _ (fun s a => ?_))
    | split
    | (simp only [implies_true, and_self, and_true, true_and, apply_ite State.pending, apply_ite State.mem, apply_ite State.tck, apply_ite TckSt.now, State.setFld_frame, State.raiseIf_frame])

theorem State.reqLock_frame (s : State)  : (State.reqLock s).pending = s.pending ∧ (State.reqLock s).tck.now = s.tck.now ∧ (State.reqLock s).mem = s.mem := by
  unfold State.reqLock
  repeat' first
    | (simp only [implies_true, and_self, and_true, true_and, apply_ite State.pending, apply_ite State.mem, apply_ite State.tck, apply_ite TckSt.now, State.reqRes_frame, State.enterTime_frame]; done)
    | (simp (maxDischargeDepth := 8) only [foldl_PMN, implies_true, and_self, and_true, true_and, apply_ite State.pending, apply_ite State.mem, apply_ite State.tck, apply_ite TckSt.now, State.reqRes_frame, State.enterTime_frame]; done)
    | (with_reducible refine foldl_PMN _ _ _ (fun s a => ?_))
    | split
    | (simp only [implies_true, and_self, and_true, true_and, apply_ite State.pending, apply_ite State.mem, apply_ite State.tck, apply_ite TckSt.now, State.reqRes_frame, State.enterTime_frame])

theorem State.reqHold_frame (s : State)  : (State.reqHold s).pending = s.pending ∧ (State.reqHold s).tck.now = s.tck.now ∧ (State.reqHold s).mem = s.mem := by
  unfold State.reqHold
  repeat' first
    | (simp only [implies_true, and_self, and_true, true_and, apply_ite State.pending, apply_ite State.mem, apply_ite State.tck, apply_ite TckSt.now, State.reqRes_frame, State.enterTime_frame]; done)
    | (simp (maxDischargeDepth := 8) only [foldl_PMN, implies_true, and_self, and_true, true_and, apply_ite State.pending, apply_ite State.mem, apply_ite State.tck, apply_ite TckSt.now, State.reqRes_frame, State.enterTime_frame]; done)
    | (with_reducible refine foldl_PMN _ _ _ (fun s a => ?_))
    | split
    | (simp only [implies_true, and_self, and_true, true_and, apply_ite State.pending, apply_ite State.mem, apply_ite State.tck, apply_ite TckSt.now, State.reqRes_frame, State.enterTime_frame])

theorem State.reqFree_frame (s : State)  : (State.reqFree s).pending = s.pending ∧ (State.reqFree s).tck.now = s.tck.now ∧ (State.reqFree s).mem = s.mem := by
  unfold State.reqFree
  repeat' first
    | (simp only [implies_true, and_self, and_true, true_and, apply_ite State.pending, apply_ite State.mem, apply_ite State.tck, apply_ite TckSt.now, State.reqRes_frame, State.enterTime_frame]; done)
    | (simp (maxDischargeDepth := 8) only [foldl_PMN, implies_true, and_self, and_true, true_and, apply_ite State.pending, apply_ite State.mem, apply_ite State.tck, apply_ite TckSt.now, State.reqRes_frame, State.enterTime_frame]; done)
    | (with_reducible refine foldl_PMN _ _ _ (fun s a => ?_))
    | split
    | (simp only [implies_true, and_self, and_true, true_and, apply_ite State.pending, apply_ite State.mem, apply_ite State.tck, apply_ite TckSt.now, State.reqRes_frame, State.enterTime_frame])

theorem State.ntuCtrl_frame (s : State) (sync : Bool) (req : Nat)  : (State.ntuCtrl s sync req).pending = s.pending ∧ (State.ntuCtrl s sync req).tck.now = s.tck.now ∧ (State.ntuCtrl s sync req).mem = s.mem := by
  unfold State.ntuCtrl
  repeat' first
    | (simp only [implies_true, and_self, and_true, true_and, apply_ite State.pending, apply_ite State.mem, apply_ite State.tck, apply_ite TckSt.now, State.ntuDiscard_frame, State.registerSync_frame, State.reqLock_frame, State.reqHold_frame, State.reqFree_frame]; done)
    | (simp (maxDischargeDepth := 8) only [foldl_PMN, implies_true, and_self, and_true, true_and, apply_ite State.pending, apply_ite State.mem, apply_ite State.tck, apply_ite TckSt.now, State.ntuDiscard_frame, State.registerSync_frame, State.reqLock_frame, State.reqHold_frame, State.reqFree_frame]; done)
    | (with_reducible refine foldl_PMN _ _ _ (fun s a => ?_))
    | split
    | (simp only [implies_true, and_self, and_true, true_and, apply_ite State.pending, apply_ite State.mem, apply_ite State.tck, apply_ite TckSt.now, State.ntuDiscard_frame, State.registerSync_frame, State.reqLock_frame, State.reqHold_frame, State.reqFree_frame])

theorem State.wdInterval_frame (x0 : Nat) (s : State)  : (State.wdInterval x0 s).pending = s.pending ∧ (State.wdInterval x0 s).tck.now = s.tck.now ∧ (State.wdInterval x0 s).mem = s.mem := by
  induction x0 generalizing s with
  | zero => exact ⟨rfl, rfl, rfl⟩
  | succ k ih =>
    unfold State.wdInterval
    dsimp only
    split
    · exact ⟨rfl, rfl, rfl⟩
    · split
      · have h := State.enterTime_frame
        refine ⟨(ih _).1.trans ((h _ _).1.trans rfl), (ih _).2.1.trans ((h _ _).2.1.trans rfl), (ih _).2.2.trans ((h _ _).2.2.trans rfl)⟩
      · exact ⟨(ih _).1, (ih _).2.1, (ih _).2.2⟩

theorem State.wdComes_frame (s : State)  : (State.wdComes s).pending = s.pending ∧ (State.wdComes s).tck.now = s.tck.now ∧ (State.wdComes s).mem = s.mem := by
  unfold State.wdComes
  repeat' first
    | (simp only [implies_true, and_self, and_true, true_and, apply_ite State.pending, apply_ite State.mem, apply_ite State.tck, apply_ite TckSt.now, State.comes_frame]; done)
    | (simp (maxDischargeDepth := 8) only [foldl_PMN, implies_true, and_self, and_true, true_and, apply_ite State.pending, apply_ite State.mem, apply_ite State.tck, apply_ite TckSt.now, State.comes_frame]; done)
    | (with_reducible refine foldl_PMN _ _ _ (fun s a => ?_))
    | split
    | (simp only [implies_true, and_self, and_true, true_and, apply_ite State.pending, apply_ite State.mem, apply_ite State.tck, apply_ite TckSt.now, State.comes_frame])

theorem State.nodeWrite_frame (s : State) (m : Nat) (v : Word)  : (State.nodeWrite s m v).pending = s.pending ∧ (State.nodeWrite s m v).tck.now = s.tck.now ∧ (State.nodeWrite s m v).mem = s.mem := by
  unfold State.nodeWrite
  repeat' first
    | (simp only [implies_true, and_self, and_true, true_and, apply_ite State.pending, apply_ite State.mem, apply_ite State.tck, apply_ite TckSt.now, State.refuseWrite_frame, State.ntuDiscard_frame, State.storeReg_frame]; done)
    | (simp (maxDischargeDepth := 8) only [foldl_PMN, implies_true, and_self, and_true, true_and, apply_ite State.pending, apply_ite State.mem, apply_ite State.tck, apply_ite TckSt.now, State.refuseWrite_frame, State.ntuDiscard_frame, State.storeReg_frame]; done)
    | (with_reducible refine foldl_PMN _ _ _ (fun s a => ?_))
    | split
    | (simp only [implies_true, and_self, and_true, true_and, apply_ite State.pending, apply_ite State.mem, apply_ite State.tck, apply_ite TckSt.now, State.refuseWrite_frame, State.ntuDiscard_frame, State.storeReg_frame])

theorem State.mpdWrite_frame (s : State) (n : Nat) (v : Word)  : (State.mpdWrite s n v).pending = s.pending ∧ (State.mpdWrite s n v).tck.now = s.tck.now ∧ (State.mpdWrite s n v).mem = s.mem := by
  unfold State.mpdWrite
  repeat' first
    | (simp only [implies_true, and_self, and_true, true_and, apply_ite State.pending, apply_ite State.mem, apply_ite State.tck, apply_ite TckSt.now, State.ntuDiscard_frame, State.setReg_frame, State.setBit_frame, State.setRegN_frame, State.raise_frame]; done)
    | (simp (maxDischargeDepth := 8) only [foldl_PMN, implies_true, and_self, and_true, true_and, apply_ite State.pending, apply_ite State.mem, apply_ite State.tck, apply_ite TckSt.now, State.ntuDiscard_frame, State.setReg_frame, State.setBit_frame, State.setRegN_frame, State.raise_frame]; done)
    | (with_reducible refine foldl_PMN _ _ _ (fun s a => ?_))
    | split
    | (simp only [implies_true, and_self, and_true, true_and, apply_ite State.pending, apply_ite State.mem, apply_ite State.tck, apply_ite TckSt.now, State.ntuDiscard_frame, State.setReg_frame, State.setBit_frame, State.setRegN_frame, State.raise_frame])

theorem State.ppsIn_frame (s : State) (c : Nat)  : (State.ppsIn s c).pending = s.pending ∧ (State.ppsIn s c).tck.now = s.tck.now ∧ (State.ppsIn s c).mem = s.mem := by
  unfold State.ppsIn
  repeat' first
    | (simp only [implies_true, and_self, and_true, true_and, apply_ite State.pending, apply_ite State.mem, apply_ite State.tck, apply_ite TckSt.now, State.atCycle_frame, State.setRegN_frame, State.raise_frame]; done)
    | (simp (maxDischargeDepth := 8) only [foldl_PMN, implies_true, and_self, and_true, true_and, apply_ite State.pending, apply_ite State.mem, apply_ite State.tck, apply_ite TckSt.now, State.atCycle_frame, State.setRegN_frame, State.raise_frame]; done)
    | (with_reducible refine foldl_PMN _ _ _ (fun s a => ?_))
    | split
    | (simp only [implies_true, and_self, and_true, true_and, apply_ite State.pending, apply_ite State.mem, apply_ite State.tck, apply_ite TckSt.now, State.atCycle_frame, State.setRegN_frame, State.raise_frame])

theorem State.ppsRise_frame (s : State) (c : Nat)  : (State.ppsRise s c).pending = s.pending ∧ (State.ppsRise s c).tck.now = s.tck.now ∧ (State.ppsRise s c).mem = s.mem := by
  unfold State.ppsRise
  repeat' first
    | (simp only [implies_true, and_self, and_true, true_and, apply_ite State.pending, apply_ite State.mem, apply_ite State.tck, apply_ite TckSt.now, State.atCycle_frame]; done)
    | (simp (maxDischargeDepth := 8) only [foldl_PMN, implies_true, and_self, and_true, true_and, apply_ite State.pending, apply_ite State.mem, apply_ite State.tck, apply_ite TckSt.now, State.atCycle_frame]; done)
    | (with_reducible refine foldl_PMN _ _ _ (fun s a => ?_))
    | split
    | (simp only [implies_true, and_self, and_true, true_and, apply_ite State.pending, apply_ite State.mem, apply_ite State.tck, apply_ite TckSt.now, State.atCycle_frame])

theorem State.ppsLow_frame (s : State)  : (State.ppsLow s).pending = s.pending ∧ (State.ppsLow s).tck.now = s.tck.now ∧ (State.ppsLow s).mem = s.mem := by
  unfold State.ppsLow
  repeat' first
    | (simp only [implies_true, and_self, and_true, true_and, apply_ite State.pending, apply_ite State.mem, apply_ite State.tck, apply_ite TckSt.now]; done)
    | (simp (maxDischargeDepth := 8) only [foldl_PMN, implies_true, and_self, and_true, true_and, apply_ite State.pending, apply_ite State.mem, apply_ite State.tck, apply_ite TckSt.now]; done)
    | (with_reducible refine foldl_PMN _ _ _ (fun s a => ?_))
    | split
    | (simp only [implies_true, and_self, and_true, true_and, apply_ite State.pending, apply_ite State.mem, apply_ite State.tck, apply_ite TckSt.now])

theorem State.ppsFall_frame (s : State)  : (State.ppsFall s).pending = s.pending ∧ (State.ppsFall s).tck.now = s.tck.now ∧ (State.ppsFall s).mem = s.mem := by
  unfold State.ppsFall
  repeat' first
    | (simp only [implies_true, and_self, and_true, true_and, apply_ite State.pending, apply_ite State.mem, apply_ite State.tck, apply_ite TckSt.now, State.comes_frame, State.ppsLow_frame]; done)
    | (simp (maxDischargeDepth := 8) only [foldl_PMN, implies_true, and_self, and_true, true_and, apply_ite State.pending, apply_ite State.mem, apply_ite State.tck, apply_ite TckSt.now, State.comes_frame, State.ppsLow_frame]; done)
    | (with_reducible refine foldl_PMN _ _ _ (fun s a => ?_))
    | split
    | (simp only [implies_true, and_self, and_true, true_and, apply_ite State.pending, apply_ite State.mem, apply_ite State.tck, apply_ite TckSt.now, State.comes_frame, State.ppsLow_frame])

theorem State.ppsCfgWrite_frame (s : State) (v : Word)  : (State.ppsCfgWrite s v).pending = s.pending ∧ (State.ppsCfgWrite s v).tck.now = s.tck.now ∧ (State.ppsCfgWrite s v).mem = s.mem := by
  unfold State.ppsCfgWrite
  repeat' first
    | (simp only [implies_true, and_self, and_true, true_and, apply_ite State.pending, apply_ite State.mem, apply_ite State.tck, apply_ite TckSt.now, State.storeReg_frame, State.ppsLow_frame]; done)
    | (simp (maxDischargeDepth := 8) only [foldl_PMN, implies_true, and_self, and_true, true_and, apply_ite State.pending, apply_ite State.mem, apply_ite State.tck, apply_ite TckSt.now, State.storeReg_frame, State.ppsLow_frame]; done)
    | (with_reducible refine foldl_PMN _ _ _ (fun s a => ?_))
    | split
    | (simp only [implies_true, and_self, and_true, true_and, apply_ite State.pending, apply_ite State.mem, apply_ite State.tck, apply_ite TckSt.now, State.storeReg_frame, State.ppsLow_frame])

theorem State.ntuWrite_frame (s : State) (m addr : Nat) (v : Word)  : (State.ntuWrite s m addr v).pending = s.pending ∧ (State.ntuWrite s m addr v).tck.now = s.tck.now ∧ (State.ntuWrite s m addr v).mem = s.mem := by
  unfold State.ntuWrite
  repeat' first
    | (simp only [implies_true, and_self, and_true, true_and, apply_ite State.pending, apply_ite State.mem, apply_ite State.tck, apply_ite TckSt.now, State.ntuCtrl_frame, State.unlessHoldover_frame, State.holdWord_frame, State.ntuDiscard_frame, State.rateWrite_frame, State.offsetWrite_frame, State.stepWrite_frame, State.nodeWrite_frame, State.ppsCfgWrite_frame, State.mpdWrite_frame, State.storeReg_frame]; done)
    | (simp (maxDischargeDepth := 8) only [foldl_PMN, implies_true, and_self, and_true, true_and, apply_ite State.pending, apply_ite State.mem, apply_ite State.tck, apply_ite TckSt.now, State.ntuCtrl_frame, State.unlessHoldover_frame, State.holdWord_frame, State.ntuDiscard_frame, State.rateWrite_frame, State.offsetWrite_frame, State.stepWrite_frame, State.nodeWrite_frame, State.ppsCfgWrite_frame, State.mpdWrite_frame, State.storeReg_frame]; done)
    | (with_reducible refine foldl_PMN _ _ _ (fun s a => ?_))
    | split
    | (simp only [implies_true, and_self, and_true, true_and, apply_ite State.pending, apply_ite State.mem, apply_ite State.tck, apply_ite TckSt.now, State.ntuCtrl_frame, State.unlessHoldover_frame, State.holdWord_frame, State.ntuDiscard_frame, State.rateWrite_frame, State.offsetWrite_frame, State.stepWrite_frame, State.nodeWrite_frame, State.ppsCfgWrite_frame, State.mpdWrite_frame, State.storeReg_frame])

theorem execNtuRateWrite_frame (m : Fin 8) (v : Word) (s : State) {r : State} (e : execNtuRateWrite m v s = .next r) : r.pending = s.pending ∧ r.tck.now = s.tck.now ∧ r.mem = s.mem := by
  unfold execNtuRateWrite at e
  revert e
  intro e
  refine ⟨?_, ?_, ?_⟩
  · revert e
    repeat' first
      | with_reducible assumption
      | with_reducible rfl
      | (with_reducible refine alP_ite ?_ ?_)
      | (with_reducible refine Eq.trans (State.gateWrite_frP (heff := fun _ => ?_) ..) ?_)
      | (with_reducible refine Eq.trans (State.unlessHoldover_frP (hf := fun _ => ?_) ..) ?_)
      | (with_reducible refine Eq.trans (State.ntuDiscard_frame ..).1 ?_)
      | (with_reducible refine Eq.trans (State.rateWrite_frame ..).1 ?_)
      | (with_reducible refine ocP_next ?_)
      | with_reducible exact ocP_fault
      | (with_reducible refine ocP_ite ?_ ?_)
      | dsimp only
      | split
  · revert e
    repeat' first
      | with_reducible assumption
      | with_reducible rfl
      | (with_reducible refine alN_ite ?_ ?_)
      | (with_reducible refine Eq.trans (State.gateWrite_frN (heff := fun _ => ?_) ..) ?_)
      | (with_reducible refine Eq.trans (State.unlessHoldover_frN (hf := fun _ => ?_) ..) ?_)
      | (with_reducible refine Eq.trans (State.ntuDiscard_frame ..).2.1 ?_)
      | (with_reducible refine Eq.trans (State.rateWrite_frame ..).2.1 ?_)
      | (with_reducible refine ocN_next ?_)
      | with_reducible exact ocN_fault
      | (with_reducible refine ocN_ite ?_ ?_)
      | dsimp only
      | split
  · revert e
    repeat' first
      | with_reducible assumption
      | with_reducible rfl
      | (with_reducible refine alM_ite ?_ ?_)
      | (with_reducible refine Eq.trans (State.gateWrite_frM (heff := fun _ => ?_) ..) ?_)
      | (with_reducible refine Eq.trans (State.unlessHoldover_frM (hf := fun _ => ?_) ..) ?_)
      | (with_reducible refine Eq.trans (State.ntuDiscard_frame ..).2.2 ?_)
      | (with_reducible refine Eq.trans (State.rateWrite_frame ..).2.2 ?_)
      | (with_reducible refine ocM_next ?_)
      | with_reducible exact ocM_fault
      | (with_reducible refine ocM_ite ?_ ?_)
      | dsimp only
      | split

theorem execNtuOffsetWrite_frame (m : Fin 8) (v : Word) (s : State) {r : State} (e : execNtuOffsetWrite m v s = .next r) : r.pending = s.pending ∧ r.tck.now = s.tck.now ∧ r.mem = s.mem := by
  unfold execNtuOffsetWrite at e
  revert e
  intro e
  refine ⟨?_, ?_, ?_⟩
  · revert e
    repeat' first
      | with_reducible assumption
      | with_reducible rfl
      | (with_reducible refine alP_ite ?_ ?_)
      | (with_reducible refine Eq.trans (State.gateWrite_frP (heff := fun _ => ?_) ..) ?_)
      | (with_reducible refine Eq.trans (State.unlessHoldover_frP (hf := fun _ => ?_) ..) ?_)
      | (with_reducible refine Eq.trans (State.ntuDiscard_frame ..).1 ?_)
      | (with_reducible refine Eq.trans (State.offsetWrite_frame ..).1 ?_)
      | (with_reducible refine ocP_next ?_)
      | with_reducible exact ocP_fault
      | (with_reducible refine ocP_ite ?_ ?_)
      | dsimp only
      | split
  · revert e
    repeat' first
      | with_reducible assumption
      | with_reducible rfl
      | (with_reducible refine alN_ite ?_ ?_)
      | (with_reducible refine Eq.trans (State.gateWrite_frN (heff := fun _ => ?_) ..) ?_)
      | (with_reducible refine Eq.trans (State.unlessHoldover_frN (hf := fun _ => ?_) ..) ?_)
      | (with_reducible refine Eq.trans (State.ntuDiscard_frame ..).2.1 ?_)
      | (with_reducible refine Eq.trans (State.offsetWrite_frame ..).2.1 ?_)
      | (with_reducible refine ocN_next ?_)
      | with_reducible exact ocN_fault
      | (with_reducible refine ocN_ite ?_ ?_)
      | dsimp only
      | split
  · revert e
    repeat' first
      | with_reducible assumption
      | with_reducible rfl
      | (with_reducible refine alM_ite ?_ ?_)
      | (with_reducible refine Eq.trans (State.gateWrite_frM (heff := fun _ => ?_) ..) ?_)
      | (with_reducible refine Eq.trans (State.unlessHoldover_frM (hf := fun _ => ?_) ..) ?_)
      | (with_reducible refine Eq.trans (State.ntuDiscard_frame ..).2.2 ?_)
      | (with_reducible refine Eq.trans (State.offsetWrite_frame ..).2.2 ?_)
      | (with_reducible refine ocM_next ?_)
      | with_reducible exact ocM_fault
      | (with_reducible refine ocM_ite ?_ ?_)
      | dsimp only
      | split

theorem execNtuStepWrite_frame (m : Fin 8) (v : Word) (s : State) {r : State} (e : execNtuStepWrite m v s = .next r) : r.pending = s.pending ∧ r.tck.now = s.tck.now ∧ r.mem = s.mem := by
  unfold execNtuStepWrite at e
  revert e
  intro e
  refine ⟨?_, ?_, ?_⟩
  · revert e
    repeat' first
      | with_reducible assumption
      | with_reducible rfl
      | (with_reducible refine alP_ite ?_ ?_)
      | (with_reducible refine Eq.trans (State.gateWrite_frP (heff := fun _ => ?_) ..) ?_)
      | (with_reducible refine Eq.trans (State.unlessHoldover_frP (hf := fun _ => ?_) ..) ?_)
      | (with_reducible refine Eq.trans (State.ntuDiscard_frame ..).1 ?_)
      | (with_reducible refine Eq.trans (State.stepWrite_frame ..).1 ?_)
      | (with_reducible refine ocP_next ?_)
      | with_reducible exact ocP_fault
      | (with_reducible refine ocP_ite ?_ ?_)
      | dsimp only
      | split
  · revert e
    repeat' first
      | with_reducible assumption
      | with_reducible rfl
      | (with_reducible refine alN_ite ?_ ?_)
      | (with_reducible refine Eq.trans (State.gateWrite_frN (heff := fun _ => ?_) ..) ?_)
      | (with_reducible refine Eq.trans (State.unlessHoldover_frN (hf := fun _ => ?_) ..) ?_)
      | (with_reducible refine Eq.trans (State.ntuDiscard_frame ..).2.1 ?_)
      | (with_reducible refine Eq.trans (State.stepWrite_frame ..).2.1 ?_)
      | (with_reducible refine ocN_next ?_)
      | with_reducible exact ocN_fault
      | (with_reducible refine ocN_ite ?_ ?_)
      | dsimp only
      | split
  · revert e
    repeat' first
      | with_reducible assumption
      | with_reducible rfl
      | (with_reducible refine alM_ite ?_ ?_)
      | (with_reducible refine Eq.trans (State.gateWrite_frM (heff := fun _ => ?_) ..) ?_)
      | (with_reducible refine Eq.trans (State.unlessHoldover_frM (hf := fun _ => ?_) ..) ?_)
      | (with_reducible refine Eq.trans (State.ntuDiscard_frame ..).2.2 ?_)
      | (with_reducible refine Eq.trans (State.stepWrite_frame ..).2.2 ?_)
      | (with_reducible refine ocM_next ?_)
      | with_reducible exact ocM_fault
      | (with_reducible refine ocM_ite ?_ ?_)
      | dsimp only
      | split

theorem execLock_frame (m : Fin 8) (sync : Bool) (s : State) {r : State} (e : execLock m sync s = .next r) : r.pending = s.pending ∧ r.tck.now = s.tck.now ∧ r.mem = s.mem := by
  unfold execLock at e
  revert e
  intro e
  refine ⟨?_, ?_, ?_⟩
  · revert e
    repeat' first
      | with_reducible assumption
      | with_reducible rfl
      | (with_reducible refine Eq.trans (State.gateWrite_frP (heff := fun _ => ?_) ..) ?_)
      | (with_reducible refine Eq.trans (State.ntuCtrl_frame ..).1 ?_)
      | (with_reducible refine ocP_next ?_)
      | with_reducible exact ocP_fault
      | dsimp only
      | split
  · revert e
    repeat' first
      | with_reducible assumption
      | with_reducible rfl
      | (with_reducible refine Eq.trans (State.gateWrite_frN (heff := fun _ => ?_) ..) ?_)
      | (with_reducible refine Eq.trans (State.ntuCtrl_frame ..).2.1 ?_)
      | (with_reducible refine ocN_next ?_)
      | with_reducible exact ocN_fault
      | dsimp only
      | split
  · revert e
    repeat' first
      | with_reducible assumption
      | with_reducible rfl
      | (with_reducible refine Eq.trans (State.gateWrite_frM (heff := fun _ => ?_) ..) ?_)
      | (with_reducible refine Eq.trans (State.ntuCtrl_frame ..).2.2 ?_)
      | (with_reducible refine ocM_next ?_)
      | with_reducible exact ocM_fault
      | dsimp only
      | split

theorem execHold_frame (m : Fin 8) (sync : Bool) (s : State) {r : State} (e : execHold m sync s = .next r) : r.pending = s.pending ∧ r.tck.now = s.tck.now ∧ r.mem = s.mem := by
  unfold execHold at e
  revert e
  intro e
  refine ⟨?_, ?_, ?_⟩
  · revert e
    repeat' first
      | with_reducible assumption
      | with_reducible rfl
      | (with_reducible refine Eq.trans (State.gateWrite_frP (heff := fun _ => ?_) ..) ?_)
      | (with_reducible refine Eq.trans (State.ntuCtrl_frame ..).1 ?_)
      | (with_reducible refine ocP_next ?_)
      | with_reducible exact ocP_fault
      | dsimp only
      | split
  · revert e
    repeat' first
      | with_reducible assumption
      | with_reducible rfl
      | (with_reducible refine Eq.trans (State.gateWrite_frN (heff := fun _ => ?_) ..) ?_)
      | (with_reducible refine Eq.trans (State.ntuCtrl_frame ..).2.1 ?_)
      | (with_reducible refine ocN_next ?_)
      | with_reducible exact ocN_fault
      | dsimp only
      | split
  · revert e
    repeat' first
      | with_reducible assumption
      | with_reducible rfl
      | (with_reducible refine Eq.trans (State.gateWrite_frM (heff := fun _ => ?_) ..) ?_)
      | (with_reducible refine Eq.trans (State.ntuCtrl_frame ..).2.2 ?_)
      | (with_reducible refine ocM_next ?_)
      | with_reducible exact ocM_fault
      | dsimp only
      | split

theorem execNtuFree_frame (m : Fin 8) (sync : Bool) (s : State) {r : State} (e : execNtuFree m sync s = .next r) : r.pending = s.pending ∧ r.tck.now = s.tck.now ∧ r.mem = s.mem := by
  unfold execNtuFree at e
  revert e
  intro e
  refine ⟨?_, ?_, ?_⟩
  · revert e
    repeat' first
      | with_reducible assumption
      | with_reducible rfl
      | (with_reducible refine Eq.trans (State.gateWrite_frP (heff := fun _ => ?_) ..) ?_)
      | (with_reducible refine Eq.trans (State.ntuCtrl_frame ..).1 ?_)
      | (with_reducible refine ocP_next ?_)
      | with_reducible exact ocP_fault
      | dsimp only
      | split
  · revert e
    repeat' first
      | with_reducible assumption
      | with_reducible rfl
      | (with_reducible refine Eq.trans (State.gateWrite_frN (heff := fun _ => ?_) ..) ?_)
      | (with_reducible refine Eq.trans (State.ntuCtrl_frame ..).2.1 ?_)
      | (with_reducible refine ocN_next ?_)
      | with_reducible exact ocN_fault
      | dsimp only
      | split
  · revert e
    repeat' first
      | with_reducible assumption
      | with_reducible rfl
      | (with_reducible refine Eq.trans (State.gateWrite_frM (heff := fun _ => ?_) ..) ?_)
      | (with_reducible refine Eq.trans (State.ntuCtrl_frame ..).2.2 ?_)
      | (with_reducible refine ocM_next ?_)
      | with_reducible exact ocM_fault
      | dsimp only
      | split

theorem execSync_frame (m : Fin 8) (s : State) {r : State} (e : execSync m s = .next r) : r.pending = s.pending ∧ r.tck.now = s.tck.now ∧ r.mem = s.mem := by
  unfold execSync at e
  revert e
  intro e
  refine ⟨?_, ?_, ?_⟩
  · revert e
    repeat' first
      | with_reducible assumption
      | with_reducible rfl
      | (with_reducible refine Eq.trans (State.gateWrite_frP (heff := fun _ => ?_) ..) ?_)
      | (with_reducible refine Eq.trans (State.ntuCtrl_frame ..).1 ?_)
      | (with_reducible refine ocP_next ?_)
      | with_reducible exact ocP_fault
      | dsimp only
      | split
  · revert e
    repeat' first
      | with_reducible assumption
      | with_reducible rfl
      | (with_reducible refine Eq.trans (State.gateWrite_frN (heff := fun _ => ?_) ..) ?_)
      | (with_reducible refine Eq.trans (State.ntuCtrl_frame ..).2.1 ?_)
      | (with_reducible refine ocN_next ?_)
      | with_reducible exact ocN_fault
      | dsimp only
      | split
  · revert e
    repeat' first
      | with_reducible assumption
      | with_reducible rfl
      | (with_reducible refine Eq.trans (State.gateWrite_frM (heff := fun _ => ?_) ..) ?_)
      | (with_reducible refine Eq.trans (State.ntuCtrl_frame ..).2.2 ?_)
      | (with_reducible refine ocM_next ?_)
      | with_reducible exact ocM_fault
      | dsimp only
      | split

theorem execSyncWdInterval_frame (s : State) {r : State} (e : execSyncWdInterval s = .next r) : r.pending = s.pending ∧ r.tck.now = s.tck.now ∧ r.mem = s.mem := by
  unfold execSyncWdInterval at e
  revert e
  intro e
  refine ⟨?_, ?_, ?_⟩
  · revert e
    repeat' first
      | with_reducible assumption
      | with_reducible rfl
      | (with_reducible refine Eq.trans (State.wdInterval_frame ..).1 ?_)
      | (with_reducible refine Eq.trans (State.wdComes_frame ..).1 ?_)
      | (with_reducible refine ocP_next ?_)
      | with_reducible exact ocP_fault
      | dsimp only
      | split
  · revert e
    repeat' first
      | with_reducible assumption
      | with_reducible rfl
      | (with_reducible refine Eq.trans (State.wdInterval_frame ..).2.1 ?_)
      | (with_reducible refine Eq.trans (State.wdComes_frame ..).2.1 ?_)
      | (with_reducible refine ocN_next ?_)
      | with_reducible exact ocN_fault
      | dsimp only
      | split
  · revert e
    repeat' first
      | with_reducible assumption
      | with_reducible rfl
      | (with_reducible refine Eq.trans (State.wdInterval_frame ..).2.2 ?_)
      | (with_reducible refine Eq.trans (State.wdComes_frame ..).2.2 ?_)
      | (with_reducible refine ocM_next ?_)
      | with_reducible exact ocM_fault
      | dsimp only
      | split

theorem execNodeWrite_frame (m : Fin 8) (v : Word) (s : State) {r : State} (e : execNodeWrite m v s = .next r) : r.pending = s.pending ∧ r.tck.now = s.tck.now ∧ r.mem = s.mem := by
  unfold execNodeWrite at e
  revert e
  intro e
  refine ⟨?_, ?_, ?_⟩
  · revert e
    repeat' first
      | with_reducible assumption
      | with_reducible rfl
      | (with_reducible refine Eq.trans (State.gateWrite_frP (heff := fun _ => ?_) ..) ?_)
      | (with_reducible refine Eq.trans (State.nodeWrite_frame ..).1 ?_)
      | (with_reducible refine ocP_next ?_)
      | with_reducible exact ocP_fault
      | dsimp only
      | split
  · revert e
    repeat' first
      | with_reducible assumption
      | with_reducible rfl
      | (with_reducible refine Eq.trans (State.gateWrite_frN (heff := fun _ => ?_) ..) ?_)
      | (with_reducible refine Eq.trans (State.nodeWrite_frame ..).2.1 ?_)
      | (with_reducible refine ocN_next ?_)
      | with_reducible exact ocN_fault
      | dsimp only
      | split
  · revert e
    repeat' first
      | with_reducible assumption
      | with_reducible rfl
      | (with_reducible refine Eq.trans (State.gateWrite_frM (heff := fun _ => ?_) ..) ?_)
      | (with_reducible refine Eq.trans (State.nodeWrite_frame ..).2.2 ?_)
      | (with_reducible refine ocM_next ?_)
      | with_reducible exact ocM_fault
      | dsimp only
      | split

theorem execMpdWrite_frame (m : Fin 8) (port : Fin 66) (v : Word) (s : State) {r : State} (e : execMpdWrite m port v s = .next r) : r.pending = s.pending ∧ r.tck.now = s.tck.now ∧ r.mem = s.mem := by
  unfold execMpdWrite at e
  revert e
  intro e
  refine ⟨?_, ?_, ?_⟩
  · revert e
    repeat' first
      | with_reducible assumption
      | with_reducible rfl
      | (with_reducible refine Eq.trans (State.gateWrite_frP (heff := fun _ => ?_) ..) ?_)
      | (with_reducible refine Eq.trans (State.mpdWrite_frame ..).1 ?_)
      | (with_reducible refine ocP_next ?_)
      | with_reducible exact ocP_fault
      | dsimp only
      | split
  · revert e
    repeat' first
      | with_reducible assumption
      | with_reducible rfl
      | (with_reducible refine Eq.trans (State.gateWrite_frN (heff := fun _ => ?_) ..) ?_)
      | (with_reducible refine Eq.trans (State.mpdWrite_frame ..).2.1 ?_)
      | (with_reducible refine ocN_next ?_)
      | with_reducible exact ocN_fault
      | dsimp only
      | split
  · revert e
    repeat' first
      | with_reducible assumption
      | with_reducible rfl
      | (with_reducible refine Eq.trans (State.gateWrite_frM (heff := fun _ => ?_) ..) ?_)
      | (with_reducible refine Eq.trans (State.mpdWrite_frame ..).2.2 ?_)
      | (with_reducible refine ocM_next ?_)
      | with_reducible exact ocM_fault
      | dsimp only
      | split

theorem execPpsInEdge_frame (cycle : Nat) (s : State) {r : State} (e : execPpsInEdge cycle s = .next r) : r.pending = s.pending ∧ r.tck.now = s.tck.now ∧ r.mem = s.mem := by
  unfold execPpsInEdge at e
  revert e
  intro e
  refine ⟨?_, ?_, ?_⟩
  · revert e
    repeat' first
      | with_reducible assumption
      | with_reducible rfl
      | (with_reducible refine Eq.trans (State.ppsIn_frame ..).1 ?_)
      | (with_reducible refine ocP_next ?_)
      | with_reducible exact ocP_fault
      | dsimp only
      | split
  · revert e
    repeat' first
      | with_reducible assumption
      | with_reducible rfl
      | (with_reducible refine Eq.trans (State.ppsIn_frame ..).2.1 ?_)
      | (with_reducible refine ocN_next ?_)
      | with_reducible exact ocN_fault
      | dsimp only
      | split
  · revert e
    repeat' first
      | with_reducible assumption
      | with_reducible rfl
      | (with_reducible refine Eq.trans (State.ppsIn_frame ..).2.2 ?_)
      | (with_reducible refine ocM_next ?_)
      | with_reducible exact ocM_fault
      | dsimp only
      | split

theorem execPpsOutRise_frame (cycle : Nat) (s : State) {r : State} (e : execPpsOutRise cycle s = .next r) : r.pending = s.pending ∧ r.tck.now = s.tck.now ∧ r.mem = s.mem := by
  unfold execPpsOutRise at e
  revert e
  intro e
  refine ⟨?_, ?_, ?_⟩
  · revert e
    repeat' first
      | with_reducible assumption
      | with_reducible rfl
      | (with_reducible refine Eq.trans (State.ppsRise_frame ..).1 ?_)
      | (with_reducible refine ocP_next ?_)
      | with_reducible exact ocP_fault
      | dsimp only
      | split
  · revert e
    repeat' first
      | with_reducible assumption
      | with_reducible rfl
      | (with_reducible refine Eq.trans (State.ppsRise_frame ..).2.1 ?_)
      | (with_reducible refine ocN_next ?_)
      | with_reducible exact ocN_fault
      | dsimp only
      | split
  · revert e
    repeat' first
      | with_reducible assumption
      | with_reducible rfl
      | (with_reducible refine Eq.trans (State.ppsRise_frame ..).2.2 ?_)
      | (with_reducible refine ocM_next ?_)
      | with_reducible exact ocM_fault
      | dsimp only
      | split

theorem execPpsOutFall_frame (s : State) {r : State} (e : execPpsOutFall s = .next r) : r.pending = s.pending ∧ r.tck.now = s.tck.now ∧ r.mem = s.mem := by
  unfold execPpsOutFall at e
  revert e
  intro e
  refine ⟨?_, ?_, ?_⟩
  · revert e
    repeat' first
      | with_reducible assumption
      | with_reducible rfl
      | (with_reducible refine Eq.trans (State.ppsFall_frame ..).1 ?_)
      | (with_reducible refine ocP_next ?_)
      | with_reducible exact ocP_fault
      | dsimp only
      | split
  · revert e
    repeat' first
      | with_reducible assumption
      | with_reducible rfl
      | (with_reducible refine Eq.trans (State.ppsFall_frame ..).2.1 ?_)
      | (with_reducible refine ocN_next ?_)
      | with_reducible exact ocN_fault
      | dsimp only
      | split
  · revert e
    repeat' first
      | with_reducible assumption
      | with_reducible rfl
      | (with_reducible refine Eq.trans (State.ppsFall_frame ..).2.2 ?_)
      | (with_reducible refine ocM_next ?_)
      | with_reducible exact ocM_fault
      | dsimp only
      | split

end Sys2Proof.Machine
end

