-- ==== Sys2Proof/Laws/FrameSched.lean ====
section
/-! SUPPORT. What every operation of Machine/Sched.lean leaves alone: the queue of waiting commands, the tick counter (unless it
writes it), and memory or its canonical form. -/

namespace Sys2Proof.Machine

set_option linter.all false
set_option Elab.async false
set_option maxRecDepth 4000

theorem State.gateRefresh_frame (s : State) (n : Nat)  : (State.gateRefresh s n).pending = s.pending ∧ (State.gateRefresh s n).tck.now = s.tck.now ∧ (State.gateRefresh s n).mem = s.mem := by
  unfold State.gateRefresh
  repeat' first
    | (simp only [implies_true, and_self, and_true, true_and, apply_ite State.pending, apply_ite State.mem, apply_ite State.tck, apply_ite TckSt.now, State.setNetPort_frame]; done)
    | (simp (maxDischargeDepth := 8) only [foldl_PMN, implies_true, and_self, and_true, true_and, apply_ite State.pending, apply_ite State.mem, apply_ite State.tck, apply_ite TckSt.now, State.setNetPort_frame]; done)
    | (with_reducible refine foldl_PMN _ _ _ (fun s a => ?_))
    | split
    | (simp only [implies_true, and_self, and_true, true_and, apply_ite State.pending, apply_ite State.mem, apply_ite State.tck, apply_ite TckSt.now, State.setNetPort_frame])

theorem State.dropOver_frame (n q : Nat) (x0 : Nat) (s : State)  : (State.dropOver n q x0 s).pending = s.pending ∧ (State.dropOver n q x0 s).tck.now = s.tck.now ∧ (State.dropOver n q x0 s).mem = s.mem := by
  induction x0 generalizing s with
  | zero => first | exact ⟨rfl, rfl, rfl⟩ | exact ⟨rfl, rfl⟩ | exact ⟨(State.mgtAnswer_frame ..).1, fun h => wf_eq (State.mgtAnswer_frame ..).2.2 h⟩
  | succ k ih =>
  unfold State.dropOver
  refine ⟨?_, ?_, ?_⟩
  · repeat' first
      | with_reducible assumption
      | with_reducible rfl
      | (with_reducible refine alP_ite ?_ ?_)
      | (with_reducible refine Eq.trans (State.setNetQ_frame ..).1 ?_)
      | (with_reducible refine Eq.trans (State.dropFrame_frame ..).1 ?_)
      | (with_reducible refine Eq.trans (State.count_frame ..).1 ?_)
      | (with_reducible refine Eq.trans (State.raise_frame ..).1 ?_)
      | (with_reducible refine Eq.trans (ih ..).1 ?_)
      | dsimp only
      | split
  · repeat' first
      | with_reducible assumption
      | with_reducible rfl
      | (with_reducible refine alN_ite ?_ ?_)
      | (with_reducible refine Eq.trans (State.setNetQ_frame ..).2.1 ?_)
      | (with_reducible refine Eq.trans (State.dropFrame_frame ..).2.1 ?_)
      | (with_reducible refine Eq.trans (State.count_frame ..).2.1 ?_)
      | (with_reducible refine Eq.trans (State.raise_frame ..).2.1 ?_)
      | (with_reducible refine Eq.trans (ih ..).2.1 ?_)
      | dsimp only
      | split
  · repeat' first
      | with_reducible assumption
      | with_reducible rfl
      | (with_reducible refine alM_ite ?_ ?_)
      | (with_reducible refine Eq.trans (State.setNetQ_frame ..).2.2 ?_)
      | (with_reducible refine Eq.trans (State.dropFrame_frame ..).2.2 ?_)
      | (with_reducible refine Eq.trans (State.count_frame ..).2.2 ?_)
      | (with_reducible refine Eq.trans (State.raise_frame ..).2.2 ?_)
      | (with_reducible refine Eq.trans (ih ..).2.2 ?_)
      | dsimp only
      | split

theorem State.dropOversize_frame (s : State) (n : Nat)  : (State.dropOversize s n).pending = s.pending ∧ (State.dropOversize s n).tck.now = s.tck.now ∧ (State.dropOversize s n).mem = s.mem := by
  unfold State.dropOversize
  repeat' first
    | (simp only [implies_true, and_self, and_true, true_and, apply_ite State.pending, apply_ite State.mem, apply_ite State.tck, apply_ite TckSt.now, State.dropOver_frame]; done)
    | (simp (maxDischargeDepth := 8) only [foldl_PMN, implies_true, and_self, and_true, true_and, apply_ite State.pending, apply_ite State.mem, apply_ite State.tck, apply_ite TckSt.now, State.dropOver_frame]; done)
    | (with_reducible refine foldl_PMN _ _ _ (fun s a => ?_))
    | split
    | (simp only [implies_true, and_self, and_true, true_and, apply_ite State.pending, apply_ite State.mem, apply_ite State.tck, apply_ite TckSt.now, State.dropOver_frame])

theorem State.gteRes_frame (s : State) (code late : Nat)  : (State.gteRes s code late).pending = s.pending ∧ (State.gteRes s code late).tck.now = s.tck.now ∧ (State.gteRes s code late).mem = s.mem := by
  unfold State.gteRes
  repeat' first
    | (simp only [implies_true, and_self, and_true, true_and, apply_ite State.pending, apply_ite State.mem, apply_ite State.tck, apply_ite TckSt.now, State.setRegN_frame, State.raiseIf_frame]; done)
    | (simp (maxDischargeDepth := 8) only [foldl_PMN, implies_true, and_self, and_true, true_and, apply_ite State.pending, apply_ite State.mem, apply_ite State.tck, apply_ite TckSt.now, State.setRegN_frame, State.raiseIf_frame]; done)
    | (with_reducible refine foldl_PMN _ _ _ (fun s a => ?_))
    | split
    | (simp only [implies_true, and_self, and_true, true_and, apply_ite State.pending, apply_ite State.mem, apply_ite State.tck, apply_ite TckSt.now, State.setRegN_frame, State.raiseIf_frame])

theorem State.gateCommit_frame (s : State)  : (State.gateCommit s).pending = s.pending ∧ (State.gateCommit s).tck.now = s.tck.now ∧ (State.gateCommit s).mem = s.mem := by
  unfold State.gateCommit
  repeat' first
    | (simp only [implies_true, and_self, and_true, true_and, apply_ite State.pending, apply_ite State.mem, apply_ite State.tck, apply_ite TckSt.now, State.gteRes_frame, State.setNetPort_frame, State.setReg64_frame, State.raiseIf_frame]; done)
    | (simp (maxDischargeDepth := 8) only [foldl_PMN, implies_true, and_self, and_true, true_and, apply_ite State.pending, apply_ite State.mem, apply_ite State.tck, apply_ite TckSt.now, State.gteRes_frame, State.setNetPort_frame, State.setReg64_frame, State.raiseIf_frame]; done)
    | (with_reducible refine foldl_PMN _ _ _ (fun s a => ?_))
    | split
    | (simp only [implies_true, and_self, and_true, true_and, apply_ite State.pending, apply_ite State.mem, apply_ite State.tck, apply_ite TckSt.now, State.gteRes_frame, State.setNetPort_frame, State.setReg64_frame, State.raiseIf_frame])

theorem State.gateWithdraw_frame (s : State) (n : Nat)  : (State.gateWithdraw s n).pending = s.pending ∧ (State.gateWithdraw s n).tck.now = s.tck.now ∧ (State.gateWithdraw s n).mem = s.mem := by
  unfold State.gateWithdraw
  repeat' first
    | (simp only [implies_true, and_self, and_true, true_and, apply_ite State.pending, apply_ite State.mem, apply_ite State.tck, apply_ite TckSt.now, State.setNetPort_frame, State.gteRes_frame]; done)
    | (simp (maxDischargeDepth := 8) only [foldl_PMN, implies_true, and_self, and_true, true_and, apply_ite State.pending, apply_ite State.mem, apply_ite State.tck, apply_ite TckSt.now, State.setNetPort_frame, State.gteRes_frame]; done)
    | (with_reducible refine foldl_PMN _ _ _ (fun s a => ?_))
    | split
    | (simp only [implies_true, and_self, and_true, true_and, apply_ite State.pending, apply_ite State.mem, apply_ite State.tck, apply_ite TckSt.now, State.setNetPort_frame, State.gteRes_frame])

theorem State.gateCancel_frame (s : State)  : (State.gateCancel s).pending = s.pending ∧ (State.gateCancel s).tck.now = s.tck.now ∧ (State.gateCancel s).mem = s.mem := by
  unfold State.gateCancel
  repeat' first
    | (simp only [implies_true, and_self, and_true, true_and, apply_ite State.pending, apply_ite State.mem, apply_ite State.tck, apply_ite TckSt.now, State.gateWithdraw_frame]; done)
    | (simp (maxDischargeDepth := 8) only [foldl_PMN, implies_true, and_self, and_true, true_and, apply_ite State.pending, apply_ite State.mem, apply_ite State.tck, apply_ite TckSt.now, State.gateWithdraw_frame]; done)
    | (with_reducible refine foldl_PMN _ _ _ (fun s a => ?_))
    | split
    | (simp only [implies_true, and_self, and_true, true_and, apply_ite State.pending, apply_ite State.mem, apply_ite State.tck, apply_ite TckSt.now, State.gateWithdraw_frame])

theorem State.gateStart_frame (s : State) (n : Nat)  : (State.gateStart s n).pending = s.pending ∧ (State.gateStart s n).tck.now = s.tck.now ∧ (State.gateStart s n).mem = s.mem := by
  unfold State.gateStart
  repeat' first
    | (simp only [implies_true, and_self, and_true, true_and, apply_ite State.pending, apply_ite State.mem, apply_ite State.tck, apply_ite TckSt.now, State.setReg64_frame, State.setReg_frame, State.setNetPort_frame, State.gateRefresh_frame, State.raise_frame]; done)
    | (simp (maxDischargeDepth := 8) only [foldl_PMN, implies_true, and_self, and_true, true_and, apply_ite State.pending, apply_ite State.mem, apply_ite State.tck, apply_ite TckSt.now, State.setReg64_frame, State.setReg_frame, State.setNetPort_frame, State.gateRefresh_frame, State.raise_frame]; done)
    | (with_reducible refine foldl_PMN _ _ _ (fun s a => ?_))
    | split
    | (simp only [implies_true, and_self, and_true, true_and, apply_ite State.pending, apply_ite State.mem, apply_ite State.tck, apply_ite TckSt.now, State.setReg64_frame, State.setReg_frame, State.setNetPort_frame, State.gateRefresh_frame, State.raise_frame])

theorem State.gteAdmWrite_frame (s : State) (m addr : Nat) (v : Word)  : (State.gteAdmWrite s m addr v).pending = s.pending ∧ (State.gteAdmWrite s m addr v).tck.now = s.tck.now ∧ (State.gteAdmWrite s m addr v).mem = s.mem := by
  unfold State.gteAdmWrite
  repeat' first
    | (simp only [implies_true, and_self, and_true, true_and, apply_ite State.pending, apply_ite State.mem, apply_ite State.tck, apply_ite TckSt.now, State.violate_frame, State.storeReg_frame]; done)
    | (simp (maxDischargeDepth := 8) only [foldl_PMN, implies_true, and_self, and_true, true_and, apply_ite State.pending, apply_ite State.mem, apply_ite State.tck, apply_ite TckSt.now, State.violate_frame, State.storeReg_frame]; done)
    | (with_reducible refine foldl_PMN _ _ _ (fun s a => ?_))
    | split
    | (simp only [implies_true, and_self, and_true, true_and, apply_ite State.pending, apply_ite State.mem, apply_ite State.tck, apply_ite TckSt.now, State.violate_frame, State.storeReg_frame])

theorem State.gteCmd_frame (s : State) (v : Word)  : (State.gteCmd s v).pending = s.pending ∧ (State.gteCmd s v).tck.now = s.tck.now ∧ (State.gteCmd s v).mem = s.mem := by
  unfold State.gteCmd
  repeat' first
    | (simp only [implies_true, and_self, and_true, true_and, apply_ite State.pending, apply_ite State.mem, apply_ite State.tck, apply_ite TckSt.now, State.gateCommit_frame, State.gateCancel_frame]; done)
    | (simp (maxDischargeDepth := 8) only [foldl_PMN, implies_true, and_self, and_true, true_and, apply_ite State.pending, apply_ite State.mem, apply_ite State.tck, apply_ite TckSt.now, State.gateCommit_frame, State.gateCancel_frame]; done)
    | (with_reducible refine foldl_PMN _ _ _ (fun s a => ?_))
    | split
    | (simp only [implies_true, and_self, and_true, true_and, apply_ite State.pending, apply_ite State.mem, apply_ite State.tck, apply_ite TckSt.now, State.gateCommit_frame, State.gateCancel_frame])

theorem State.queueBoundary_frame (s : State) (k : Nat)  : (State.queueBoundary s k).pending = s.pending ∧ (State.queueBoundary s k).tck.now = s.tck.now ∧ (State.queueBoundary s k).mem = s.mem := by
  unfold State.queueBoundary
  repeat' first
    | (simp only [implies_true, and_self, and_true, true_and, apply_ite State.pending, apply_ite State.mem, apply_ite State.tck, apply_ite TckSt.now]; done)
    | (simp (maxDischargeDepth := 8) only [foldl_PMN, implies_true, and_self, and_true, true_and, apply_ite State.pending, apply_ite State.mem, apply_ite State.tck, apply_ite TckSt.now]; done)
    | (with_reducible refine foldl_PMN _ _ _ (fun s a => ?_))
    | split
    | (simp only [implies_true, and_self, and_true, true_and, apply_ite State.pending, apply_ite State.mem, apply_ite State.tck, apply_ite TckSt.now])

theorem State.shaperBoundary_frame (s : State)  : (State.shaperBoundary s).pending = s.pending ∧ (State.shaperBoundary s).tck.now = s.tck.now ∧ (State.shaperBoundary s).mem = s.mem := by
  unfold State.shaperBoundary
  repeat' first
    | (simp only [implies_true, and_self, and_true, true_and, apply_ite State.pending, apply_ite State.mem, apply_ite State.tck, apply_ite TckSt.now, State.queueBoundary_frame]; done)
    | (simp (maxDischargeDepth := 8) only [foldl_PMN, implies_true, and_self, and_true, true_and, apply_ite State.pending, apply_ite State.mem, apply_ite State.tck, apply_ite TckSt.now, State.queueBoundary_frame]; done)
    | (with_reducible refine foldl_PMN _ _ _ (fun s a => ?_))
    | split
    | (simp only [implies_true, and_self, and_true, true_and, apply_ite State.pending, apply_ite State.mem, apply_ite State.tck, apply_ite TckSt.now, State.queueBoundary_frame])

theorem State.bucketBoundary_frame (s : State)  : (State.bucketBoundary s).pending = s.pending ∧ (State.bucketBoundary s).tck.now = s.tck.now ∧ (State.bucketBoundary s).mem = s.mem := by
  unfold State.bucketBoundary
  repeat' first
    | (simp only [implies_true, and_self, and_true, true_and, apply_ite State.pending, apply_ite State.mem, apply_ite State.tck, apply_ite TckSt.now]; done)
    | (simp (maxDischargeDepth := 8) only [foldl_PMN, implies_true, and_self, and_true, true_and, apply_ite State.pending, apply_ite State.mem, apply_ite State.tck, apply_ite TckSt.now]; done)
    | (with_reducible refine foldl_PMN _ _ _ (fun s a => ?_))
    | split
    | (simp only [implies_true, and_self, and_true, true_and, apply_ite State.pending, apply_ite State.mem, apply_ite State.tck, apply_ite TckSt.now])

theorem State.wheelSlot_frame (s : State)  : (State.wheelSlot s).pending = s.pending ∧ (State.wheelSlot s).tck.now = s.tck.now ∧ (State.wheelSlot s).mem = s.mem := by
  unfold State.wheelSlot
  repeat' first
    | (simp only [implies_true, and_self, and_true, true_and, apply_ite State.pending, apply_ite State.mem, apply_ite State.tck, apply_ite TckSt.now]; done)
    | (simp (maxDischargeDepth := 8) only [foldl_PMN, implies_true, and_self, and_true, true_and, apply_ite State.pending, apply_ite State.mem, apply_ite State.tck, apply_ite TckSt.now]; done)
    | (with_reducible refine foldl_PMN _ _ _ (fun s a => ?_))
    | split
    | (simp only [implies_true, and_self, and_true, true_and, apply_ite State.pending, apply_ite State.mem, apply_ite State.tck, apply_ite TckSt.now])

theorem State.schQWrite_frame (s : State) (addr : Nat) (v : Word)  : (State.schQWrite s addr v).pending = s.pending ∧ (State.schQWrite s addr v).tck.now = s.tck.now ∧ (State.schQWrite s addr v).mem = s.mem := by
  unfold State.schQWrite
  repeat' first
    | (simp only [implies_true, and_self, and_true, true_and, apply_ite State.pending, apply_ite State.mem, apply_ite State.tck, apply_ite TckSt.now, State.storeReg_frame, State.setNetQ_frame]; done)
    | (simp (maxDischargeDepth := 8) only [foldl_PMN, implies_true, and_self, and_true, true_and, apply_ite State.pending, apply_ite State.mem, apply_ite State.tck, apply_ite TckSt.now, State.storeReg_frame, State.setNetQ_frame]; done)
    | (with_reducible refine foldl_PMN _ _ _ (fun s a => ?_))
    | split
    | (simp only [implies_true, and_self, and_true, true_and, apply_ite State.pending, apply_ite State.mem, apply_ite State.tck, apply_ite TckSt.now, State.storeReg_frame, State.setNetQ_frame])

theorem State.setTokens_frame (s : State) (k n : Nat)  : (State.setTokens s k n).pending = s.pending ∧ (State.setTokens s k n).tck.now = s.tck.now ∧ (State.setTokens s k n).mem = s.mem := by
  unfold State.setTokens
  repeat' first
    | (simp only [implies_true, and_self, and_true, true_and, apply_ite State.pending, apply_ite State.mem, apply_ite State.tck, apply_ite TckSt.now]; done)
    | (simp (maxDischargeDepth := 8) only [foldl_PMN, implies_true, and_self, and_true, true_and, apply_ite State.pending, apply_ite State.mem, apply_ite State.tck, apply_ite TckSt.now]; done)
    | (with_reducible refine foldl_PMN _ _ _ (fun s a => ?_))
    | split
    | (simp only [implies_true, and_self, and_true, true_and, apply_ite State.pending, apply_ite State.mem, apply_ite State.tck, apply_ite TckSt.now])

theorem State.polCfgWrite_frame (s : State) (v : Word)  : (State.polCfgWrite s v).pending = s.pending ∧ (State.polCfgWrite s v).tck.now = s.tck.now ∧ (State.polCfgWrite s v).mem = s.mem := by
  unfold State.polCfgWrite
  repeat' first
    | (simp only [implies_true, and_self, and_true, true_and, apply_ite State.pending, apply_ite State.mem, apply_ite State.tck, apply_ite TckSt.now, State.storeReg_frame, State.setTokens_frame]; done)
    | (simp (maxDischargeDepth := 8) only [foldl_PMN, implies_true, and_self, and_true, true_and, apply_ite State.pending, apply_ite State.mem, apply_ite State.tck, apply_ite TckSt.now, State.storeReg_frame, State.setTokens_frame]; done)
    | (with_reducible refine foldl_PMN _ _ _ (fun s a => ?_))
    | split
    | (simp only [implies_true, and_self, and_true, true_and, apply_ite State.pending, apply_ite State.mem, apply_ite State.tck, apply_ite TckSt.now, State.storeReg_frame, State.setTokens_frame])

theorem State.police_frame (s : State) (port cls len : Nat)  : (State.police s port cls len).2.pending = s.pending ∧ (State.police s port cls len).2.tck.now = s.tck.now ∧ (State.police s port cls len).2.mem = s.mem := by
  unfold State.police
  repeat' first
    | (simp only [implies_true, and_self, and_true, true_and, apply_ite State.pending, apply_ite State.mem, apply_ite State.tck, apply_ite TckSt.now, State.count_frame, State.raise_frame, State.portCount_frame]; done)
    | (simp (maxDischargeDepth := 8) only [foldl_PMN, implies_true, and_self, and_true, true_and, apply_ite State.pending, apply_ite State.mem, apply_ite State.tck, apply_ite TckSt.now, State.count_frame, State.raise_frame, State.portCount_frame]; done)
    | (with_reducible refine foldl_PMN _ _ _ (fun s a => ?_))
    | split
    | (simp only [implies_true, and_self, and_true, true_and, apply_ite State.pending, apply_ite State.mem, apply_ite State.tck, apply_ite TckSt.now, State.count_frame, State.raise_frame, State.portCount_frame])

theorem State.drr_frame (n cnt : Nat) (ready : List Nat) (x0 : Nat) (s : State)  : (State.drr n cnt ready x0 s).2.pending = s.pending ∧ (State.drr n cnt ready x0 s).2.tck.now = s.tck.now ∧ (State.drr n cnt ready x0 s).2.mem = s.mem := by
  induction x0 generalizing s with
  | zero => first | exact ⟨rfl, rfl, rfl⟩ | exact ⟨rfl, rfl⟩ | exact ⟨(State.mgtAnswer_frame ..).1, fun h => wf_eq (State.mgtAnswer_frame ..).2.2 h⟩
  | succ k ih =>
  unfold State.drr
  refine ⟨?_, ?_, ?_⟩
  · repeat' first
      | with_reducible assumption
      | with_reducible rfl
      | (with_reducible refine alP_ite ?_ ?_)
      | (with_reducible refine alP_itep0 ?_ ?_)
      | (with_reducible refine alP_itep1 ?_ ?_)
      | (with_reducible refine Eq.trans (State.setNetQ_frame ..).1 ?_)
      | (with_reducible refine Eq.trans (State.setNetPort_frame ..).1 ?_)
      | (with_reducible refine Eq.trans (ih ..).1 ?_)
      | (with_reducible refine alP_pair1 (by assumption) (Eq.trans (ih ..).1 ?_))
      | dsimp only
      | split
  · repeat' first
      | with_reducible assumption
      | with_reducible rfl
      | (with_reducible refine alN_ite ?_ ?_)
      | (with_reducible refine alN_itep0 ?_ ?_)
      | (with_reducible refine alN_itep1 ?_ ?_)
      | (with_reducible refine Eq.trans (State.setNetQ_frame ..).2.1 ?_)
      | (with_reducible refine Eq.trans (State.setNetPort_frame ..).2.1 ?_)
      | (with_reducible refine Eq.trans (ih ..).2.1 ?_)
      | (with_reducible refine alN_pair1 (by assumption) (Eq.trans (ih ..).2.1 ?_))
      | dsimp only
      | split
  · repeat' first
      | with_reducible assumption
      | with_reducible rfl
      | (with_reducible refine alM_ite ?_ ?_)
      | (with_reducible refine alM_itep0 ?_ ?_)
      | (with_reducible refine alM_itep1 ?_ ?_)
      | (with_reducible refine Eq.trans (State.setNetQ_frame ..).2.2 ?_)
      | (with_reducible refine Eq.trans (State.setNetPort_frame ..).2.2 ?_)
      | (with_reducible refine Eq.trans (ih ..).2.2 ?_)
      | (with_reducible refine alM_pair1 (by assumption) (Eq.trans (ih ..).2.2 ?_))
      | dsimp only
      | split

theorem State.selectQ_frame (s : State) (n : Nat)  : (State.selectQ s n).2.pending = s.pending ∧ (State.selectQ s n).2.tck.now = s.tck.now ∧ (State.selectQ s n).2.mem = s.mem := by
  unfold State.selectQ
  repeat' first
    | (simp only [implies_true, and_self, and_true, true_and, apply_ite State.pending, apply_ite State.mem, apply_ite State.tck, apply_ite TckSt.now, State.drr_frame]; done)
    | (simp (maxDischargeDepth := 8) only [foldl_PMN, implies_true, and_self, and_true, true_and, apply_ite State.pending, apply_ite State.mem, apply_ite State.tck, apply_ite TckSt.now, State.drr_frame]; done)
    | (with_reducible refine foldl_PMN _ _ _ (fun s a => ?_))
    | split
    | (simp only [implies_true, and_self, and_true, true_and, apply_ite State.pending, apply_ite State.mem, apply_ite State.tck, apply_ite TckSt.now, State.drr_frame])

theorem State.correct_frame (s : State) (f : PtpFix) (l : List Byte) (amount : Int)  : (State.correct s f l amount).2.pending = s.pending ∧ (State.correct s f l amount).2.tck.now = s.tck.now ∧ (State.correct s f l amount).2.mem = s.mem := by
  unfold State.correct
  repeat' first
    | (simp only [implies_true, and_self, and_true, true_and, apply_ite State.pending, apply_ite State.mem, apply_ite State.tck, apply_ite TckSt.now, State.count_frame, State.raise_frame]; done)
    | (simp (maxDischargeDepth := 8) only [foldl_PMN, implies_true, and_self, and_true, true_and, apply_ite State.pending, apply_ite State.mem, apply_ite State.tck, apply_ite TckSt.now, State.count_frame, State.raise_frame]; done)
    | (with_reducible refine foldl_PMN _ _ _ (fun s a => ?_))
    | split
    | (simp only [implies_true, and_self, and_true, true_and, apply_ite State.pending, apply_ite State.mem, apply_ite State.tck, apply_ite TckSt.now, State.count_frame, State.raise_frame])

theorem State.ptpLeave_frame (s : State) (n : Nat) (f : PtpFix) (l : List Byte) (ts : BitVec 96)  : (State.ptpLeave s n f l ts).2.pending = s.pending ∧ (State.ptpLeave s n f l ts).2.tck.now = s.tck.now ∧ (State.ptpLeave s n f l ts).2.mem = s.mem := by
  unfold State.ptpLeave
  repeat' first
    | (simp only [implies_true, and_self, and_true, true_and, apply_ite State.pending, apply_ite State.mem, apply_ite State.tck, apply_ite TckSt.now, State.correct_frame, State.count_frame, State.raise_frame]; done)
    | (simp (maxDischargeDepth := 8) only [foldl_PMN, implies_true, and_self, and_true, true_and, apply_ite State.pending, apply_ite State.mem, apply_ite State.tck, apply_ite TckSt.now, State.correct_frame, State.count_frame, State.raise_frame]; done)
    | (with_reducible refine foldl_PMN _ _ _ (fun s a => ?_))
    | split
    | (simp only [implies_true, and_self, and_true, true_and, apply_ite State.pending, apply_ite State.mem, apply_ite State.tck, apply_ite TckSt.now, State.correct_frame, State.count_frame, State.raise_frame])

theorem State.transmit_frame (s : State) (n : Nat) (l : List Byte)  : (State.transmit s n l).pending = s.pending ∧ (State.transmit s n l).tck.now = s.tck.now ∧ (State.transmit s n l).mem = s.mem := by
  unfold State.transmit
  repeat' first
    | (simp only [implies_true, and_self, and_true, true_and, apply_ite State.pending, apply_ite State.mem, apply_ite State.tck, apply_ite TckSt.now, State.emit_frame, State.portCount_frame, State.octets_frame, State.setNetPort_frame]; done)
    | (simp (maxDischargeDepth := 8) only [foldl_PMN, implies_true, and_self, and_true, true_and, apply_ite State.pending, apply_ite State.mem, apply_ite State.tck, apply_ite TckSt.now, State.emit_frame, State.portCount_frame, State.octets_frame, State.setNetPort_frame]; done)
    | (with_reducible refine foldl_PMN _ _ _ (fun s a => ?_))
    | split
    | (simp only [implies_true, and_self, and_true, true_and, apply_ite State.pending, apply_ite State.mem, apply_ite State.tck, apply_ite TckSt.now, State.emit_frame, State.portCount_frame, State.octets_frame, State.setNetPort_frame])

theorem State.charge_frame (s : State) (n q c : Nat)  : (State.charge s n q c).pending = s.pending ∧ (State.charge s n q c).tck.now = s.tck.now ∧ (State.charge s n q c).mem = s.mem := by
  unfold State.charge
  repeat' first
    | (simp only [implies_true, and_self, and_true, true_and, apply_ite State.pending, apply_ite State.mem, apply_ite State.tck, apply_ite TckSt.now, State.count_frame, State.setNetQ_frame]; done)
    | (simp (maxDischargeDepth := 8) only [foldl_PMN, implies_true, and_self, and_true, true_and, apply_ite State.pending, apply_ite State.mem, apply_ite State.tck, apply_ite TckSt.now, State.count_frame, State.setNetQ_frame]; done)
    | (with_reducible refine foldl_PMN _ _ _ (fun s a => ?_))
    | split
    | (simp only [implies_true, and_self, and_true, true_and, apply_ite State.pending, apply_ite State.mem, apply_ite State.tck, apply_ite TckSt.now, State.count_frame, State.setNetQ_frame])

theorem State.sendHead_frame (s : State) (n q ahead : Nat)  : (State.sendHead s n q ahead).pending = s.pending ∧ (State.sendHead s n q ahead).tck.now = s.tck.now ∧ (State.sendHead s n q ahead).mem = s.mem := by
  unfold State.sendHead
  repeat' first
    | (simp only [implies_true, and_self, and_true, true_and, apply_ite State.pending, apply_ite State.mem, apply_ite State.tck, apply_ite TckSt.now, State.setNetQ_frame, State.charge_frame, State.ptpLeave_frame, State.transmit_frame, State.release_frame, State.txClose_frame]; done)
    | (simp (maxDischargeDepth := 8) only [foldl_PMN, implies_true, and_self, and_true, true_and, apply_ite State.pending, apply_ite State.mem, apply_ite State.tck, apply_ite TckSt.now, State.setNetQ_frame, State.charge_frame, State.ptpLeave_frame, State.transmit_frame, State.release_frame, State.txClose_frame]; done)
    | (with_reducible refine foldl_PMN _ _ _ (fun s a => ?_))
    | split
    | (simp only [implies_true, and_self, and_true, true_and, apply_ite State.pending, apply_ite State.mem, apply_ite State.tck, apply_ite TckSt.now, State.setNetQ_frame, State.charge_frame, State.ptpLeave_frame, State.transmit_frame, State.release_frame, State.txClose_frame])

theorem State.egress_frame (s : State) (n ahead : Nat)  : (State.egress s n ahead).pending = s.pending ∧ (State.egress s n ahead).tck.now = s.tck.now ∧ (State.egress s n ahead).mem = s.mem := by
  unfold State.egress
  refine ⟨?_, ?_, ?_⟩
  · repeat' first
      | with_reducible assumption
      | with_reducible rfl
      | (with_reducible refine alP_ite ?_ ?_)
      | (with_reducible refine alP_itep0 ?_ ?_)
      | (with_reducible refine alP_itep1 ?_ ?_)
      | (with_reducible refine Eq.trans (State.gateRefresh_frame ..).1 ?_)
      | (with_reducible refine Eq.trans (State.dropOversize_frame ..).1 ?_)
      | (with_reducible refine Eq.trans (State.setNetPort_frame ..).1 ?_)
      | (with_reducible refine Eq.trans (State.transmit_frame ..).1 ?_)
      | (with_reducible refine Eq.trans (State.portCount_frame ..).1 ?_)
      | (with_reducible refine Eq.trans (State.selectQ_frame ..).1 ?_)
      | (with_reducible refine alP_pair1 (by assumption) (Eq.trans (State.selectQ_frame ..).1 ?_))
      | (with_reducible refine Eq.trans (State.sendHead_frame ..).1 ?_)
      | dsimp only
      | split
  · repeat' first
      | with_reducible assumption
      | with_reducible rfl
      | (with_reducible refine alN_ite ?_ ?_)
      | (with_reducible refine alN_itep0 ?_ ?_)
      | (with_reducible refine alN_itep1 ?_ ?_)
      | (with_reducible refine Eq.trans (State.gateRefresh_frame ..).2.1 ?_)
      | (with_reducible refine Eq.trans (State.dropOversize_frame ..).2.1 ?_)
      | (with_reducible refine Eq.trans (State.setNetPort_frame ..).2.1 ?_)
      | (with_reducible refine Eq.trans (State.transmit_frame ..).2.1 ?_)
      | (with_reducible refine Eq.trans (State.portCount_frame ..).2.1 ?_)
      | (with_reducible refine Eq.trans (State.selectQ_frame ..).2.1 ?_)
      | (with_reducible refine alN_pair1 (by assumption) (Eq.trans (State.selectQ_frame ..).2.1 ?_))
      | (with_reducible refine Eq.trans (State.sendHead_frame ..).2.1 ?_)
      | dsimp only
      | split
  · repeat' first
      | with_reducible assumption
      | with_reducible rfl
      | (with_reducible refine alM_ite ?_ ?_)
      | (with_reducible refine alM_itep0 ?_ ?_)
      | (with_reducible refine alM_itep1 ?_ ?_)
      | (with_reducible refine Eq.trans (State.gateRefresh_frame ..).2.2 ?_)
      | (with_reducible refine Eq.trans (State.dropOversize_frame ..).2.2 ?_)
      | (with_reducible refine Eq.trans (State.setNetPort_frame ..).2.2 ?_)
      | (with_reducible refine Eq.trans (State.transmit_frame ..).2.2 ?_)
      | (with_reducible refine Eq.trans (State.portCount_frame ..).2.2 ?_)
      | (with_reducible refine Eq.trans (State.selectQ_frame ..).2.2 ?_)
      | (with_reducible refine alM_pair1 (by assumption) (Eq.trans (State.selectQ_frame ..).2.2 ?_))
      | (with_reducible refine Eq.trans (State.sendHead_frame ..).2.2 ?_)
      | dsimp only
      | split

theorem execEgressSelect_frame (port : Fin 66) (cycle ahead : Nat) (s : State) {r : State} (e : execEgressSelect port cycle ahead s = .next r) : r.pending = s.pending ∧ r.tck.now = s.tck.now ∧ r.mem = s.mem := by
  unfold execEgressSelect at e
  revert e
  intro e
  refine ⟨?_, ?_, ?_⟩
  · revert e
    repeat' first
      | with_reducible assumption
      | with_reducible rfl
      | (with_reducible refine Eq.trans (State.atCycle_frame ..).1 ?_)
      | (with_reducible refine Eq.trans (State.egress_frame ..).1 ?_)
      | (with_reducible refine ocP_next ?_)
      | with_reducible exact ocP_fault
      | dsimp only
      | split
  · revert e
    repeat' first
      | with_reducible assumption
      | with_reducible rfl
      | (with_reducible refine Eq.trans (State.atCycle_frame ..).2.1 ?_)
      | (with_reducible refine Eq.trans (State.egress_frame ..).2.1 ?_)
      | (with_reducible refine ocN_next ?_)
      | with_reducible exact ocN_fault
      | dsimp only
      | split
  · revert e
    repeat' first
      | with_reducible assumption
      | with_reducible rfl
      | (with_reducible refine Eq.trans (State.atCycle_frame ..).2.2 ?_)
      | (with_reducible refine Eq.trans (State.egress_frame ..).2.2 ?_)
      | (with_reducible refine ocM_next ?_)
      | with_reducible exact ocM_fault
      | dsimp only
      | split

theorem execGateEntryChange_frame (port : Fin 66) (cycle : Nat) (s : State) {r : State} (e : execGateEntryChange port cycle s = .next r) : r.pending = s.pending ∧ r.tck.now = s.tck.now ∧ r.mem = s.mem := by
  unfold execGateEntryChange at e
  revert e
  intro e
  refine ⟨?_, ?_, ?_⟩
  · revert e
    repeat' first
      | with_reducible assumption
      | with_reducible rfl
      | (with_reducible refine Eq.trans (State.atCycle_frame ..).1 ?_)
      | (with_reducible refine Eq.trans (State.gateRefresh_frame ..).1 ?_)
      | (with_reducible refine ocP_next ?_)
      | with_reducible exact ocP_fault
      | dsimp only
      | split
  · revert e
    repeat' first
      | with_reducible assumption
      | with_reducible rfl
      | (with_reducible refine Eq.trans (State.atCycle_frame ..).2.1 ?_)
      | (with_reducible refine Eq.trans (State.gateRefresh_frame ..).2.1 ?_)
      | (with_reducible refine ocN_next ?_)
      | with_reducible exact ocN_fault
      | dsimp only
      | split
  · revert e
    repeat' first
      | with_reducible assumption
      | with_reducible rfl
      | (with_reducible refine Eq.trans (State.atCycle_frame ..).2.2 ?_)
      | (with_reducible refine Eq.trans (State.gateRefresh_frame ..).2.2 ?_)
      | (with_reducible refine ocM_next ?_)
      | with_reducible exact ocM_fault
      | dsimp only
      | split

theorem execGateCommit_frame (m : Fin 8) (cycle : Nat) (s : State) {r : State} (e : execGateCommit m cycle s = .next r) : r.pending = s.pending ∧ r.tck.now = s.tck.now ∧ r.mem = s.mem := by
  unfold execGateCommit at e
  revert e
  intro e
  refine ⟨?_, ?_, ?_⟩
  · revert e
    repeat' first
      | with_reducible assumption
      | with_reducible rfl
      | (with_reducible refine Eq.trans (State.atCycle_frame ..).1 ?_)
      | (with_reducible refine Eq.trans (State.gateWrite_frP (heff := fun _ => ?_) ..) ?_)
      | (with_reducible refine Eq.trans (State.gateCommit_frame ..).1 ?_)
      | (with_reducible refine ocP_next ?_)
      | with_reducible exact ocP_fault
      | dsimp only
      | split
  · revert e
    repeat' first
      | with_reducible assumption
      | with_reducible rfl
      | (with_reducible refine Eq.trans (State.atCycle_frame ..).2.1 ?_)
      | (with_reducible refine Eq.trans (State.gateWrite_frN (heff := fun _ => ?_) ..) ?_)
      | (with_reducible refine Eq.trans (State.gateCommit_frame ..).2.1 ?_)
      | (with_reducible refine ocN_next ?_)
      | with_reducible exact ocN_fault
      | dsimp only
      | split
  · revert e
    repeat' first
      | with_reducible assumption
      | with_reducible rfl
      | (with_reducible refine Eq.trans (State.atCycle_frame ..).2.2 ?_)
      | (with_reducible refine Eq.trans (State.gateWrite_frM (heff := fun _ => ?_) ..) ?_)
      | (with_reducible refine Eq.trans (State.gateCommit_frame ..).2.2 ?_)
      | (with_reducible refine ocM_next ?_)
      | with_reducible exact ocM_fault
      | dsimp only
      | split

theorem execGateCancel_frame (m : Fin 8) (cycle : Nat) (s : State) {r : State} (e : execGateCancel m cycle s = .next r) : r.pending = s.pending ∧ r.tck.now = s.tck.now ∧ r.mem = s.mem := by
  unfold execGateCancel at e
  revert e
  intro e
  refine ⟨?_, ?_, ?_⟩
  · revert e
    repeat' first
      | with_reducible assumption
      | with_reducible rfl
      | (with_reducible refine Eq.trans (State.atCycle_frame ..).1 ?_)
      | (with_reducible refine Eq.trans (State.gateWrite_frP (heff := fun _ => ?_) ..) ?_)
      | (with_reducible refine Eq.trans (State.gateCancel_frame ..).1 ?_)
      | (with_reducible refine ocP_next ?_)
      | with_reducible exact ocP_fault
      | dsimp only
      | split
  · revert e
    repeat' first
      | with_reducible assumption
      | with_reducible rfl
      | (with_reducible refine Eq.trans (State.atCycle_frame ..).2.1 ?_)
      | (with_reducible refine Eq.trans (State.gateWrite_frN (heff := fun _ => ?_) ..) ?_)
      | (with_reducible refine Eq.trans (State.gateCancel_frame ..).2.1 ?_)
      | (with_reducible refine ocN_next ?_)
      | with_reducible exact ocN_fault
      | dsimp only
      | split
  · revert e
    repeat' first
      | with_reducible assumption
      | with_reducible rfl
      | (with_reducible refine Eq.trans (State.atCycle_frame ..).2.2 ?_)
      | (with_reducible refine Eq.trans (State.gateWrite_frM (heff := fun _ => ?_) ..) ?_)
      | (with_reducible refine Eq.trans (State.gateCancel_frame ..).2.2 ?_)
      | (with_reducible refine ocM_next ?_)
      | with_reducible exact ocM_fault
      | dsimp only
      | split

theorem execGateListStart_frame (port : Fin 66) (cycle : Nat) (s : State) {r : State} (e : execGateListStart port cycle s = .next r) : r.pending = s.pending ∧ r.tck.now = s.tck.now ∧ r.mem = s.mem := by
  unfold execGateListStart at e
  revert e
  intro e
  refine ⟨?_, ?_, ?_⟩
  · revert e
    repeat' first
      | with_reducible assumption
      | with_reducible rfl
      | (with_reducible refine Eq.trans (State.atCycle_frame ..).1 ?_)
      | (with_reducible refine Eq.trans (State.gateStart_frame ..).1 ?_)
      | (with_reducible refine ocP_next ?_)
      | with_reducible exact ocP_fault
      | dsimp only
      | split
  · revert e
    repeat' first
      | with_reducible assumption
      | with_reducible rfl
      | (with_reducible refine Eq.trans (State.atCycle_frame ..).2.1 ?_)
      | (with_reducible refine Eq.trans (State.gateStart_frame ..).2.1 ?_)
      | (with_reducible refine ocN_next ?_)
      | with_reducible exact ocN_fault
      | dsimp only
      | split
  · revert e
    repeat' first
      | with_reducible assumption
      | with_reducible rfl
      | (with_reducible refine Eq.trans (State.atCycle_frame ..).2.2 ?_)
      | (with_reducible refine Eq.trans (State.gateStart_frame ..).2.2 ?_)
      | (with_reducible refine ocM_next ?_)
      | with_reducible exact ocM_fault
      | dsimp only
      | split

theorem execShaperConfigWrite_frame (m : Fin 8) (reg : Fin 3) (v : Word) (s : State) {r : State} (e : execShaperConfigWrite m reg v s = .next r) : r.pending = s.pending ∧ r.tck.now = s.tck.now ∧ r.mem = s.mem := by
  unfold execShaperConfigWrite at e
  revert e
  intro e
  refine ⟨?_, ?_, ?_⟩
  · revert e
    repeat' first
      | with_reducible assumption
      | with_reducible rfl
      | (with_reducible refine Eq.trans (State.gateWrite_frP (heff := fun _ => ?_) ..) ?_)
      | (with_reducible refine Eq.trans (State.schQWrite_frame ..).1 ?_)
      | (with_reducible refine ocP_next ?_)
      | with_reducible exact ocP_fault
      | dsimp only
      | split
  · revert e
    repeat' first
      | with_reducible assumption
      | with_reducible rfl
      | (with_reducible refine Eq.trans (State.gateWrite_frN (heff := fun _ => ?_) ..) ?_)
      | (with_reducible refine Eq.trans (State.schQWrite_frame ..).2.1 ?_)
      | (with_reducible refine ocN_next ?_)
      | with_reducible exact ocN_fault
      | dsimp only
      | split
  · revert e
    repeat' first
      | with_reducible assumption
      | with_reducible rfl
      | (with_reducible refine Eq.trans (State.gateWrite_frM (heff := fun _ => ?_) ..) ?_)
      | (with_reducible refine Eq.trans (State.schQWrite_frame ..).2.2 ?_)
      | (with_reducible refine ocM_next ?_)
      | with_reducible exact ocM_fault
      | dsimp only
      | split

theorem execWheelSlot_frame (s : State) {r : State} (e : execWheelSlot s = .next r) : r.pending = s.pending ∧ r.tck.now = s.tck.now ∧ r.mem = s.mem := by
  unfold execWheelSlot at e
  revert e
  intro e
  refine ⟨?_, ?_, ?_⟩
  · revert e
    repeat' first
      | with_reducible assumption
      | with_reducible rfl
      | (with_reducible refine Eq.trans (State.wheelSlot_frame ..).1 ?_)
      | (with_reducible refine ocP_next ?_)
      | with_reducible exact ocP_fault
      | dsimp only
      | split
  · revert e
    repeat' first
      | with_reducible assumption
      | with_reducible rfl
      | (with_reducible refine Eq.trans (State.wheelSlot_frame ..).2.1 ?_)
      | (with_reducible refine ocN_next ?_)
      | with_reducible exact ocN_fault
      | dsimp only
      | split
  · revert e
    repeat' first
      | with_reducible assumption
      | with_reducible rfl
      | (with_reducible refine Eq.trans (State.wheelSlot_frame ..).2.2 ?_)
      | (with_reducible refine ocM_next ?_)
      | with_reducible exact ocM_fault
      | dsimp only
      | split

theorem execPolCfgWrite_frame (m : Fin 8) (v : Word) (s : State) {r : State} (e : execPolCfgWrite m v s = .next r) : r.pending = s.pending ∧ r.tck.now = s.tck.now ∧ r.mem = s.mem := by
  unfold execPolCfgWrite at e
  revert e
  intro e
  refine ⟨?_, ?_, ?_⟩
  · revert e
    repeat' first
      | with_reducible assumption
      | with_reducible rfl
      | (with_reducible refine Eq.trans (State.gateWrite_frP (heff := fun _ => ?_) ..) ?_)
      | (with_reducible refine Eq.trans (State.polCfgWrite_frame ..).1 ?_)
      | (with_reducible refine ocP_next ?_)
      | with_reducible exact ocP_fault
      | dsimp only
      | split
  · revert e
    repeat' first
      | with_reducible assumption
      | with_reducible rfl
      | (with_reducible refine Eq.trans (State.gateWrite_frN (heff := fun _ => ?_) ..) ?_)
      | (with_reducible refine Eq.trans (State.polCfgWrite_frame ..).2.1 ?_)
      | (with_reducible refine ocN_next ?_)
      | with_reducible exact ocN_fault
      | dsimp only
      | split
  · revert e
    repeat' first
      | with_reducible assumption
      | with_reducible rfl
      | (with_reducible refine Eq.trans (State.gateWrite_frM (heff := fun _ => ?_) ..) ?_)
      | (with_reducible refine Eq.trans (State.polCfgWrite_frame ..).2.2 ?_)
      | (with_reducible refine ocM_next ?_)
      | with_reducible exact ocM_fault
      | dsimp only
      | split

theorem State.tcExpire_frame (s : State)  : (State.tcExpire s).pending = s.pending ∧ (State.tcExpire s).tck.now = s.tck.now ∧ (State.tcExpire s).mem = s.mem := by
  unfold State.tcExpire
  repeat' first
    | (simp only [implies_true, and_self, and_true, true_and, apply_ite State.pending, apply_ite State.mem, apply_ite State.tck, apply_ite TckSt.now]; done)
    | (simp (maxDischargeDepth := 8) only [foldl_PMN, implies_true, and_self, and_true, true_and, apply_ite State.pending, apply_ite State.mem, apply_ite State.tck, apply_ite TckSt.now]; done)
    | (with_reducible refine foldl_PMN _ _ _ (fun s a => ?_))
    | split
    | (simp only [implies_true, and_self, and_true, true_and, apply_ite State.pending, apply_ite State.mem, apply_ite State.tck, apply_ite TckSt.now])

theorem execTcEntryExpiry_frame (cycle : Nat) (s : State) {r : State} (e : execTcEntryExpiry cycle s = .next r) : r.pending = s.pending ∧ r.tck.now = s.tck.now ∧ r.mem = s.mem := by
  unfold execTcEntryExpiry at e
  revert e
  intro e
  refine ⟨?_, ?_, ?_⟩
  · revert e
    repeat' first
      | with_reducible assumption
      | with_reducible rfl
      | (with_reducible refine Eq.trans (State.atCycle_frame ..).1 ?_)
      | (with_reducible refine Eq.trans (State.tcExpire_frame ..).1 ?_)
      | (with_reducible refine ocP_next ?_)
      | with_reducible exact ocP_fault
      | dsimp only
      | split
  · revert e
    repeat' first
      | with_reducible assumption
      | with_reducible rfl
      | (with_reducible refine Eq.trans (State.atCycle_frame ..).2.1 ?_)
      | (with_reducible refine Eq.trans (State.tcExpire_frame ..).2.1 ?_)
      | (with_reducible refine ocN_next ?_)
      | with_reducible exact ocN_fault
      | dsimp only
      | split
  · revert e
    repeat' first
      | with_reducible assumption
      | with_reducible rfl
      | (with_reducible refine Eq.trans (State.atCycle_frame ..).2.2 ?_)
      | (with_reducible refine Eq.trans (State.tcExpire_frame ..).2.2 ?_)
      | (with_reducible refine ocM_next ?_)
      | with_reducible exact ocM_fault
      | dsimp only
      | split

end Sys2Proof.Machine
end

