-- ==== Sys2Proof/Laws/FrameFwd.lean ====
section
/-! SUPPORT. What every operation of Machine/Fwd.lean leaves alone: the queue of waiting commands, the tick counter (unless it
writes it), and memory or its canonical form. -/

namespace Sys2Proof.Machine

set_option linter.all false
set_option Elab.async false
set_option maxRecDepth 4000

theorem State.fwdPut_frame (s : State) (i v : Nat)  : (State.fwdPut s i v).pending = s.pending ∧ (State.fwdPut s i v).tck.now = s.tck.now ∧ (Memory.wf s.mem = true → Memory.wf (State.fwdPut s i v).mem = true) := by
  unfold State.fwdPut
  refine (and_assoc.1 ⟨?_, fun h => ?_⟩)
  · repeat' first
      | (simp only [implies_true, and_self, and_true, true_and, apply_ite State.pending, apply_ite State.tck, apply_ite TckSt.now, State.storeN_frame]; done)
      | (simp (maxDischargeDepth := 8) only [foldl_PN, implies_true, and_self, and_true, true_and, apply_ite State.pending, apply_ite State.tck, apply_ite TckSt.now, State.storeN_frame]; done)
      | (with_reducible refine foldl_PN _ _ _ (fun s a => ?_))
      | split
      | (simp only [implies_true, and_self, and_true, true_and, apply_ite State.pending, apply_ite State.tck, apply_ite TckSt.now, State.storeN_frame])
  · repeat' first
      | with_reducible assumption
      | (with_reducible refine wf_ite ?_ ?_)
      | (with_reducible refine (State.storeN_frame ..).2.2 ?_)
      | (with_reducible refine foldl_wf _ _ _ (fun s a h => ?_) ?_)
      | dsimp only
      | split

theorem State.fwdLog_frame (s : State) (r i : Nat)  : (State.fwdLog s r i).pending = s.pending ∧ (State.fwdLog s r i).tck.now = s.tck.now ∧ (State.fwdLog s r i).mem = s.mem := by
  unfold State.fwdLog
  repeat' first
    | (simp only [implies_true, and_self, and_true, true_and, apply_ite State.pending, apply_ite State.mem, apply_ite State.tck, apply_ite TckSt.now, State.setRegN_frame]; done)
    | (simp (maxDischargeDepth := 8) only [foldl_PMN, implies_true, and_self, and_true, true_and, apply_ite State.pending, apply_ite State.mem, apply_ite State.tck, apply_ite TckSt.now, State.setRegN_frame]; done)
    | (with_reducible refine foldl_PMN _ _ _ (fun s a => ?_))
    | split
    | (simp only [implies_true, and_self, and_true, true_and, apply_ite State.pending, apply_ite State.mem, apply_ite State.tck, apply_ite TckSt.now, State.setRegN_frame])

theorem State.parityErr_frame (s : State) (i : Nat)  : (State.parityErr s i).pending = s.pending ∧ (State.parityErr s i).tck.now = s.tck.now ∧ (Memory.wf s.mem = true → Memory.wf (State.parityErr s i).mem = true) := by
  unfold State.parityErr
  refine (and_assoc.1 ⟨?_, fun h => ?_⟩)
  · repeat' first
      | (simp only [implies_true, and_self, and_true, true_and, apply_ite State.pending, apply_ite State.tck, apply_ite TckSt.now, State.storeN_frame, State.fwdLog_frame, State.count_frame, State.raise_frame]; done)
      | (simp (maxDischargeDepth := 8) only [foldl_PN, implies_true, and_self, and_true, true_and, apply_ite State.pending, apply_ite State.tck, apply_ite TckSt.now, State.storeN_frame, State.fwdLog_frame, State.count_frame, State.raise_frame]; done)
      | (with_reducible refine foldl_PN _ _ _ (fun s a => ?_))
      | split
      | (simp only [implies_true, and_self, and_true, true_and, apply_ite State.pending, apply_ite State.tck, apply_ite TckSt.now, State.storeN_frame, State.fwdLog_frame, State.count_frame, State.raise_frame])
  · repeat' first
      | with_reducible assumption
      | (with_reducible refine wf_ite ?_ ?_)
      | (with_reducible refine (State.storeN_frame ..).2.2 ?_)
      | (with_reducible refine wf_eq (State.fwdLog_frame ..).2.2 ?_)
      | (with_reducible refine wf_eq (State.count_frame ..).2.2 ?_)
      | (with_reducible refine wf_eq (State.raise_frame ..).2.2 ?_)
      | (with_reducible refine foldl_wf _ _ _ (fun s a h => ?_) ?_)
      | dsimp only
      | split

theorem State.readSlot_frame (s : State) (i : Nat)  : (State.readSlot s i).pending = s.pending ∧ (State.readSlot s i).tck.now = s.tck.now ∧ (Memory.wf s.mem = true → Memory.wf (State.readSlot s i).mem = true) := by
  unfold State.readSlot
  refine (and_assoc.1 ⟨?_, fun h => ?_⟩)
  · repeat' first
      | (simp only [implies_true, and_self, and_true, true_and, apply_ite State.pending, apply_ite State.tck, apply_ite TckSt.now, State.parityErr_frame]; done)
      | (simp (maxDischargeDepth := 8) only [foldl_PN, implies_true, and_self, and_true, true_and, apply_ite State.pending, apply_ite State.tck, apply_ite TckSt.now, State.parityErr_frame]; done)
      | (with_reducible refine foldl_PN _ _ _ (fun s a => ?_))
      | split
      | (simp only [implies_true, and_self, and_true, true_and, apply_ite State.pending, apply_ite State.tck, apply_ite TckSt.now, State.parityErr_frame])
  · repeat' first
      | with_reducible assumption
      | (with_reducible refine wf_ite ?_ ?_)
      | (with_reducible refine (State.parityErr_frame ..).2.2 ?_)
      | (with_reducible refine foldl_wf _ _ _ (fun s a h => ?_) ?_)
      | dsimp only
      | split

theorem State.readBucket_frame (s : State) (b : Nat)  : (State.readBucket s b).pending = s.pending ∧ (State.readBucket s b).tck.now = s.tck.now ∧ (Memory.wf s.mem = true → Memory.wf (State.readBucket s b).mem = true) := by
  unfold State.readBucket
  refine (and_assoc.1 ⟨?_, fun h => ?_⟩)
  · repeat' first
      | (simp only [implies_true, and_self, and_true, true_and, apply_ite State.pending, apply_ite State.tck, apply_ite TckSt.now, State.readSlot_frame]; done)
      | (simp (maxDischargeDepth := 8) only [foldl_PN, implies_true, and_self, and_true, true_and, apply_ite State.pending, apply_ite State.tck, apply_ite TckSt.now, State.readSlot_frame]; done)
      | (with_reducible refine foldl_PN _ _ _ (fun s a => ?_))
      | split
      | (simp only [implies_true, and_self, and_true, true_and, apply_ite State.pending, apply_ite State.tck, apply_ite TckSt.now, State.readSlot_frame])
  · repeat' first
      | with_reducible assumption
      | (with_reducible refine wf_ite ?_ ?_)
      | (with_reducible refine (State.readSlot_frame ..).2.2 ?_)
      | (with_reducible refine foldl_wf _ _ _ (fun s a h => ?_) ?_)
      | dsimp only
      | split

theorem State.lookupKey_frame (s : State) (key : List Byte)  : (State.lookupKey s key).2.pending = s.pending ∧ (State.lookupKey s key).2.tck.now = s.tck.now ∧ (Memory.wf s.mem = true → Memory.wf (State.lookupKey s key).2.mem = true) := by
  unfold State.lookupKey
  refine (and_assoc.1 ⟨?_, fun h => ?_⟩)
  · repeat' first
      | (simp only [implies_true, and_self, and_true, true_and, apply_ite State.pending, apply_ite State.tck, apply_ite TckSt.now, State.readBucket_frame]; done)
      | (simp (maxDischargeDepth := 8) only [foldl_PN, implies_true, and_self, and_true, true_and, apply_ite State.pending, apply_ite State.tck, apply_ite TckSt.now, State.readBucket_frame]; done)
      | (with_reducible refine foldl_PN _ _ _ (fun s a => ?_))
      | split
      | (simp only [implies_true, and_self, and_true, true_and, apply_ite State.pending, apply_ite State.tck, apply_ite TckSt.now, State.readBucket_frame])
  · repeat' first
      | with_reducible assumption
      | (with_reducible refine wf_ite ?_ ?_)
      | (with_reducible refine (State.readBucket_frame ..).2.2 ?_)
      | (with_reducible refine foldl_wf _ _ _ (fun s a h => ?_) ?_)
      | dsimp only
      | split

theorem State.fwdHit_frame (s : State) (i : Nat)  : (State.fwdHit s i).pending = s.pending ∧ (State.fwdHit s i).tck.now = s.tck.now ∧ (Memory.wf s.mem = true → Memory.wf (State.fwdHit s i).mem = true) := by
  unfold State.fwdHit
  refine (and_assoc.1 ⟨?_, fun h => ?_⟩)
  · repeat' first
      | (simp only [implies_true, and_self, and_true, true_and, apply_ite State.pending, apply_ite State.tck, apply_ite TckSt.now, State.fwdPut_frame]; done)
      | (simp (maxDischargeDepth := 8) only [foldl_PN, implies_true, and_self, and_true, true_and, apply_ite State.pending, apply_ite State.tck, apply_ite TckSt.now, State.fwdPut_frame]; done)
      | (with_reducible refine foldl_PN _ _ _ (fun s a => ?_))
      | split
      | (simp only [implies_true, and_self, and_true, true_and, apply_ite State.pending, apply_ite State.tck, apply_ite TckSt.now, State.fwdPut_frame])
  · repeat' first
      | with_reducible assumption
      | (with_reducible refine wf_ite ?_ ?_)
      | (with_reducible refine (State.fwdPut_frame ..).2.2 ?_)
      | (with_reducible refine foldl_wf _ _ _ (fun s a h => ?_) ?_)
      | dsimp only
      | split

theorem State.fwdDelete_frame (s : State) (i : Nat)  : (State.fwdDelete s i).pending = s.pending ∧ (State.fwdDelete s i).tck.now = s.tck.now ∧ (Memory.wf s.mem = true → Memory.wf (State.fwdDelete s i).mem = true) := by
  unfold State.fwdDelete
  refine (and_assoc.1 ⟨?_, fun h => ?_⟩)
  · repeat' first
      | (simp only [implies_true, and_self, and_true, true_and, apply_ite State.pending, apply_ite State.tck, apply_ite TckSt.now, State.storeN_frame]; done)
      | (simp (maxDischargeDepth := 8) only [foldl_PN, implies_true, and_self, and_true, true_and, apply_ite State.pending, apply_ite State.tck, apply_ite TckSt.now, State.storeN_frame]; done)
      | (with_reducible refine foldl_PN _ _ _ (fun s a => ?_))
      | split
      | (simp only [implies_true, and_self, and_true, true_and, apply_ite State.pending, apply_ite State.tck, apply_ite TckSt.now, State.storeN_frame])
  · repeat' first
      | with_reducible assumption
      | (with_reducible refine wf_ite ?_ ?_)
      | (with_reducible refine (State.storeN_frame ..).2.2 ?_)
      | (with_reducible refine foldl_wf _ _ _ (fun s a h => ?_) ?_)
      | dsimp only
      | split

theorem State.fwdFlush_frame (s : State) (p : Nat → Bool)  : (State.fwdFlush s p).pending = s.pending ∧ (State.fwdFlush s p).tck.now = s.tck.now ∧ (Memory.wf s.mem = true → Memory.wf (State.fwdFlush s p).mem = true) := by
  unfold State.fwdFlush
  refine (and_assoc.1 ⟨?_, fun h => ?_⟩)
  · repeat' first
      | (simp only [implies_true, and_self, and_true, true_and, apply_ite State.pending, apply_ite State.tck, apply_ite TckSt.now, State.fwdDelete_frame]; done)
      | (simp (maxDischargeDepth := 8) only [foldl_PN, implies_true, and_self, and_true, true_and, apply_ite State.pending, apply_ite State.tck, apply_ite TckSt.now, State.fwdDelete_frame]; done)
      | (with_reducible refine foldl_PN _ _ _ (fun s a => ?_))
      | split
      | (simp only [implies_true, and_self, and_true, true_and, apply_ite State.pending, apply_ite State.tck, apply_ite TckSt.now, State.fwdDelete_frame])
  · repeat' first
      | with_reducible assumption
      | (with_reducible refine wf_ite ?_ ?_)
      | (with_reducible refine (State.fwdDelete_frame ..).2.2 ?_)
      | (with_reducible refine foldl_wf _ _ _ (fun s a h => ?_) ?_)
      | dsimp only
      | split

theorem State.fwdStore_frame (s : State) (i v c : Nat)  : (State.fwdStore s i v c).pending = s.pending ∧ (State.fwdStore s i v c).tck.now = s.tck.now ∧ (Memory.wf s.mem = true → Memory.wf (State.fwdStore s i v c).mem = true) := by
  unfold State.fwdStore
  refine (and_assoc.1 ⟨?_, fun h => ?_⟩)
  · repeat' first
      | (simp only [implies_true, and_self, and_true, true_and, apply_ite State.pending, apply_ite State.tck, apply_ite TckSt.now, State.fwdPut_frame]; done)
      | (simp (maxDischargeDepth := 8) only [foldl_PN, implies_true, and_self, and_true, true_and, apply_ite State.pending, apply_ite State.tck, apply_ite TckSt.now, State.fwdPut_frame]; done)
      | (with_reducible refine foldl_PN _ _ _ (fun s a => ?_))
      | split
      | (simp only [implies_true, and_self, and_true, true_and, apply_ite State.pending, apply_ite State.tck, apply_ite TckSt.now, State.fwdPut_frame])
  · repeat' first
      | with_reducible assumption
      | (with_reducible refine wf_ite ?_ ?_)
      | (with_reducible refine (State.fwdPut_frame ..).2.2 ?_)
      | (with_reducible refine foldl_wf _ _ _ (fun s a h => ?_) ?_)
      | dsimp only
      | split

theorem State.fwdInsert_frame (s : State) (v c : Nat)  : (State.fwdInsert s v c).2.2.pending = s.pending ∧ (State.fwdInsert s v c).2.2.tck.now = s.tck.now ∧ (Memory.wf s.mem = true → Memory.wf (State.fwdInsert s v c).2.2.mem = true) := by
  unfold State.fwdInsert
  refine ⟨?_, ?_, fun h => ?_⟩
  · repeat' first
      | with_reducible assumption
      | with_reducible rfl
      | (with_reducible refine alP_ite ?_ ?_)
      | (with_reducible refine alP_itep0 ?_ ?_)
      | (with_reducible refine alP_itep1 ?_ ?_)
      | (with_reducible refine Eq.trans (State.lookupKey_frame ..).1 ?_)
      | (with_reducible refine alP_pair1 (by assumption) (Eq.trans (State.lookupKey_frame ..).1 ?_))
      | (with_reducible refine Eq.trans (State.fwdStore_frame ..).1 ?_)
      | (with_reducible refine Eq.trans (State.choose_frame ..).1 ?_)
      | (with_reducible refine alP_pair1 (by assumption) (Eq.trans (State.choose_frame ..).1 ?_))
      | dsimp only
      | split
  · repeat' first
      | with_reducible assumption
      | with_reducible rfl
      | (with_reducible refine alN_ite ?_ ?_)
      | (with_reducible refine alN_itep0 ?_ ?_)
      | (with_reducible refine alN_itep1 ?_ ?_)
      | (with_reducible refine Eq.trans (State.lookupKey_frame ..).2.1 ?_)
      | (with_reducible refine alN_pair1 (by assumption) (Eq.trans (State.lookupKey_frame ..).2.1 ?_))
      | (with_reducible refine Eq.trans (State.fwdStore_frame ..).2.1 ?_)
      | (with_reducible refine Eq.trans (State.choose_frame ..).2.1 ?_)
      | (with_reducible refine alN_pair1 (by assumption) (Eq.trans (State.choose_frame ..).2.1 ?_))
      | dsimp only
      | split
  · repeat' first
      | with_reducible assumption
      | with_reducible rfl
      | (with_reducible refine alW_ite ?_ ?_)
      | (with_reducible refine alW_itep0 ?_ ?_)
      | (with_reducible refine alW_itep1 ?_ ?_)
      | (with_reducible refine (State.lookupKey_frame ..).2.2 ?_)
      | (with_reducible refine alW_pair1 (by assumption) ((State.lookupKey_frame ..).2.2 ?_))
      | (with_reducible refine (State.fwdStore_frame ..).2.2 ?_)
      | (with_reducible refine wf_eq (State.choose_frame ..).2.2 ?_)
      | (with_reducible refine alW_pair1 (by assumption) (wf_eq (State.choose_frame ..).2.2 ?_))
      | dsimp only
      | split

theorem State.showEntry_frame (s : State) (i : Nat)  : (State.showEntry s i).pending = s.pending ∧ (State.showEntry s i).tck.now = s.tck.now ∧ (State.showEntry s i).mem = s.mem := by
  unfold State.showEntry
  repeat' first
    | (simp only [implies_true, and_self, and_true, true_and, apply_ite State.pending, apply_ite State.mem, apply_ite State.tck, apply_ite TckSt.now, State.setRegN_frame]; done)
    | (simp (maxDischargeDepth := 8) only [foldl_PMN, implies_true, and_self, and_true, true_and, apply_ite State.pending, apply_ite State.mem, apply_ite State.tck, apply_ite TckSt.now, State.setRegN_frame]; done)
    | (with_reducible refine foldl_PMN _ _ _ (fun s a => ?_))
    | split
    | (simp only [implies_true, and_self, and_true, true_and, apply_ite State.pending, apply_ite State.mem, apply_ite State.tck, apply_ite TckSt.now, State.setRegN_frame])

theorem State.fwdRun_frame (s : State) (k : FwdCmd)  : (State.fwdRun s k).2.2.pending = s.pending ∧ (State.fwdRun s k).2.2.tck.now = s.tck.now ∧ (Memory.wf s.mem = true → Memory.wf (State.fwdRun s k).2.2.mem = true) := by
  unfold State.fwdRun
  refine ⟨?_, ?_, fun h => ?_⟩
  · repeat' first
      | with_reducible assumption
      | with_reducible rfl
      | (with_reducible refine alP_ite ?_ ?_)
      | (with_reducible refine alP_itep0 ?_ ?_)
      | (with_reducible refine alP_itep1 ?_ ?_)
      | (with_reducible refine Eq.trans (State.fwdInsert_frame ..).1 ?_)
      | (with_reducible refine alP_pair1 (by assumption) (Eq.trans (State.fwdInsert_frame ..).1 ?_))
      | (with_reducible refine Eq.trans (State.lookupKey_frame ..).1 ?_)
      | (with_reducible refine alP_pair1 (by assumption) (Eq.trans (State.lookupKey_frame ..).1 ?_))
      | (with_reducible refine Eq.trans (State.fwdDelete_frame ..).1 ?_)
      | (with_reducible refine Eq.trans (State.showEntry_frame ..).1 ?_)
      | (with_reducible refine Eq.trans (State.fwdFlush_frame ..).1 ?_)
      | dsimp only
      | split
  · repeat' first
      | with_reducible assumption
      | with_reducible rfl
      | (with_reducible refine alN_ite ?_ ?_)
      | (with_reducible refine alN_itep0 ?_ ?_)
      | (with_reducible refine alN_itep1 ?_ ?_)
      | (with_reducible refine Eq.trans (State.fwdInsert_frame ..).2.1 ?_)
      | (with_reducible refine alN_pair1 (by assumption) (Eq.trans (State.fwdInsert_frame ..).2.1 ?_))
      | (with_reducible refine Eq.trans (State.lookupKey_frame ..).2.1 ?_)
      | (with_reducible refine alN_pair1 (by assumption) (Eq.trans (State.lookupKey_frame ..).2.1 ?_))
      | (with_reducible refine Eq.trans (State.fwdDelete_frame ..).2.1 ?_)
      | (with_reducible refine Eq.trans (State.showEntry_frame ..).2.1 ?_)
      | (with_reducible refine Eq.trans (State.fwdFlush_frame ..).2.1 ?_)
      | dsimp only
      | split
  · repeat' first
      | with_reducible assumption
      | with_reducible rfl
      | (with_reducible refine alW_ite ?_ ?_)
      | (with_reducible refine alW_itep0 ?_ ?_)
      | (with_reducible refine alW_itep1 ?_ ?_)
      | (with_reducible refine (State.fwdInsert_frame ..).2.2 ?_)
      | (with_reducible refine alW_pair1 (by assumption) ((State.fwdInsert_frame ..).2.2 ?_))
      | (with_reducible refine (State.lookupKey_frame ..).2.2 ?_)
      | (with_reducible refine alW_pair1 (by assumption) ((State.lookupKey_frame ..).2.2 ?_))
      | (with_reducible refine (State.fwdDelete_frame ..).2.2 ?_)
      | (with_reducible refine wf_eq (State.showEntry_frame ..).2.2 ?_)
      | (with_reducible refine (State.fwdFlush_frame ..).2.2 ?_)
      | dsimp only
      | split

theorem State.fwdCmdDone_frame (s : State)  : (State.fwdCmdDone s).pending = s.pending ∧ (State.fwdCmdDone s).tck.now = s.tck.now ∧ (Memory.wf s.mem = true → Memory.wf (State.fwdCmdDone s).mem = true) := by
  unfold State.fwdCmdDone
  refine (and_assoc.1 ⟨?_, fun h => ?_⟩)
  · repeat' first
      | (simp only [implies_true, and_self, and_true, true_and, apply_ite State.pending, apply_ite State.tck, apply_ite TckSt.now, State.fwdRun_frame, State.setRegN_frame, State.raise_frame]; done)
      | (simp (maxDischargeDepth := 8) only [foldl_PN, implies_true, and_self, and_true, true_and, apply_ite State.pending, apply_ite State.tck, apply_ite TckSt.now, State.fwdRun_frame, State.setRegN_frame, State.raise_frame]; done)
      | (with_reducible refine foldl_PN _ _ _ (fun s a => ?_))
      | split
      | (simp only [implies_true, and_self, and_true, true_and, apply_ite State.pending, apply_ite State.tck, apply_ite TckSt.now, State.fwdRun_frame, State.setRegN_frame, State.raise_frame])
  · repeat' first
      | with_reducible assumption
      | (with_reducible refine wf_ite ?_ ?_)
      | (with_reducible refine (State.fwdRun_frame ..).2.2 ?_)
      | (with_reducible refine wf_eq (State.setRegN_frame ..).2.2 ?_)
      | (with_reducible refine wf_eq (State.raise_frame ..).2.2 ?_)
      | (with_reducible refine foldl_wf _ _ _ (fun s a h => ?_) ?_)
      | dsimp only
      | split

theorem State.fwdCmd_frame (s : State) (v : Word)  : (State.fwdCmd s v).pending = s.pending ∧ (State.fwdCmd s v).tck.now = s.tck.now ∧ (State.fwdCmd s v).mem = s.mem := by
  unfold State.fwdCmd
  repeat' first
    | (simp only [implies_true, and_self, and_true, true_and, apply_ite State.pending, apply_ite State.mem, apply_ite State.tck, apply_ite TckSt.now, State.setFld_frame, State.setBit_frame]; done)
    | (simp (maxDischargeDepth := 8) only [foldl_PMN, implies_true, and_self, and_true, true_and, apply_ite State.pending, apply_ite State.mem, apply_ite State.tck, apply_ite TckSt.now, State.setFld_frame, State.setBit_frame]; done)
    | (with_reducible refine foldl_PMN _ _ _ (fun s a => ?_))
    | split
    | (simp only [implies_true, and_self, and_true, true_and, apply_ite State.pending, apply_ite State.mem, apply_ite State.tck, apply_ite TckSt.now, State.setFld_frame, State.setBit_frame])

theorem State.tableWrite_frame (s : State) (t : Nat) (v : Word)  : (State.tableWrite s t v).pending = s.pending ∧ (State.tableWrite s t v).tck.now = s.tck.now ∧ (State.tableWrite s t v).mem = s.mem := by
  unfold State.tableWrite
  repeat' first
    | (simp only [implies_true, and_self, and_true, true_and, apply_ite State.pending, apply_ite State.mem, apply_ite State.tck, apply_ite TckSt.now, State.storeReg_frame]; done)
    | (simp (maxDischargeDepth := 8) only [foldl_PMN, implies_true, and_self, and_true, true_and, apply_ite State.pending, apply_ite State.mem, apply_ite State.tck, apply_ite TckSt.now, State.storeReg_frame]; done)
    | (with_reducible refine foldl_PMN _ _ _ (fun s a => ?_))
    | split
    | (simp only [implies_true, and_self, and_true, true_and, apply_ite State.pending, apply_ite State.mem, apply_ite State.tck, apply_ite TckSt.now, State.storeReg_frame])

theorem State.moveConflict_frame (s : State) (i : Nat)  : (State.moveConflict s i).pending = s.pending ∧ (State.moveConflict s i).tck.now = s.tck.now ∧ (Memory.wf s.mem = true → Memory.wf (State.moveConflict s i).mem = true) := by
  unfold State.moveConflict
  refine (and_assoc.1 ⟨?_, fun h => ?_⟩)
  · repeat' first
      | (simp only [implies_true, and_self, and_true, true_and, apply_ite State.pending, apply_ite State.tck, apply_ite TckSt.now, State.fwdLog_frame, State.count_frame, State.raise_frame, State.fwdPut_frame]; done)
      | (simp (maxDischargeDepth := 8) only [foldl_PN, implies_true, and_self, and_true, true_and, apply_ite State.pending, apply_ite State.tck, apply_ite TckSt.now, State.fwdLog_frame, State.count_frame, State.raise_frame, State.fwdPut_frame]; done)
      | (with_reducible refine foldl_PN _ _ _ (fun s a => ?_))
      | split
      | (simp only [implies_true, and_self, and_true, true_and, apply_ite State.pending, apply_ite State.tck, apply_ite TckSt.now, State.fwdLog_frame, State.count_frame, State.raise_frame, State.fwdPut_frame])
  · repeat' first
      | with_reducible assumption
      | (with_reducible refine wf_ite ?_ ?_)
      | (with_reducible refine wf_eq (State.fwdLog_frame ..).2.2 ?_)
      | (with_reducible refine wf_eq (State.count_frame ..).2.2 ?_)
      | (with_reducible refine wf_eq (State.raise_frame ..).2.2 ?_)
      | (with_reducible refine (State.fwdPut_frame ..).2.2 ?_)
      | (with_reducible refine foldl_wf _ _ _ (fun s a h => ?_) ?_)
      | dsimp only
      | split

theorem State.learnDrop_frame (s : State)  : (State.learnDrop s).pending = s.pending ∧ (State.learnDrop s).tck.now = s.tck.now ∧ (State.learnDrop s).mem = s.mem := by
  unfold State.learnDrop
  repeat' first
    | (simp only [implies_true, and_self, and_true, true_and, apply_ite State.pending, apply_ite State.mem, apply_ite State.tck, apply_ite TckSt.now, State.count_frame, State.raise_frame]; done)
    | (simp (maxDischargeDepth := 8) only [foldl_PMN, implies_true, and_self, and_true, true_and, apply_ite State.pending, apply_ite State.mem, apply_ite State.tck, apply_ite TckSt.now, State.count_frame, State.raise_frame]; done)
    | (with_reducible refine foldl_PMN _ _ _ (fun s a => ?_))
    | split
    | (simp only [implies_true, and_self, and_true, true_and, apply_ite State.pending, apply_ite State.mem, apply_ite State.tck, apply_ite TckSt.now, State.count_frame, State.raise_frame])

theorem State.learnNew_frame (s : State) (r : LearnReq)  : (State.learnNew s r).pending = s.pending ∧ (State.learnNew s r).tck.now = s.tck.now ∧ (Memory.wf s.mem = true → Memory.wf (State.learnNew s r).mem = true) := by
  unfold State.learnNew
  refine (and_assoc.1 ⟨?_, fun h => ?_⟩)
  · repeat' first
      | (simp only [implies_true, and_self, and_true, true_and, apply_ite State.pending, apply_ite State.tck, apply_ite TckSt.now, State.choose_frame, State.fwdPut_frame, State.count_frame, State.learnDrop_frame]; done)
      | (simp (maxDischargeDepth := 8) only [foldl_PN, implies_true, and_self, and_true, true_and, apply_ite State.pending, apply_ite State.tck, apply_ite TckSt.now, State.choose_frame, State.fwdPut_frame, State.count_frame, State.learnDrop_frame]; done)
      | (with_reducible refine foldl_PN _ _ _ (fun s a => ?_))
      | split
      | (simp only [implies_true, and_self, and_true, true_and, apply_ite State.pending, apply_ite State.tck, apply_ite TckSt.now, State.choose_frame, State.fwdPut_frame, State.count_frame, State.learnDrop_frame])
  · repeat' first
      | with_reducible assumption
      | (with_reducible refine wf_ite ?_ ?_)
      | (with_reducible refine wf_eq (State.choose_frame ..).2.2 ?_)
      | (with_reducible refine (State.fwdPut_frame ..).2.2 ?_)
      | (with_reducible refine wf_eq (State.count_frame ..).2.2 ?_)
      | (with_reducible refine wf_eq (State.learnDrop_frame ..).2.2 ?_)
      | (with_reducible refine foldl_wf _ _ _ (fun s a h => ?_) ?_)
      | dsimp only
      | split

theorem State.learnHit_frame (s : State) (r : LearnReq) (i : Nat)  : (State.learnHit s r i).pending = s.pending ∧ (State.learnHit s r i).tck.now = s.tck.now ∧ (Memory.wf s.mem = true → Memory.wf (State.learnHit s r i).mem = true) := by
  unfold State.learnHit
  refine (and_assoc.1 ⟨?_, fun h => ?_⟩)
  · repeat' first
      | (simp only [implies_true, and_self, and_true, true_and, apply_ite State.pending, apply_ite State.tck, apply_ite TckSt.now, State.fwdHit_frame, State.fwdPut_frame, State.count_frame, State.moveConflict_frame]; done)
      | (simp (maxDischargeDepth := 8) only [foldl_PN, implies_true, and_self, and_true, true_and, apply_ite State.pending, apply_ite State.tck, apply_ite TckSt.now, State.fwdHit_frame, State.fwdPut_frame, State.count_frame, State.moveConflict_frame]; done)
      | (with_reducible refine foldl_PN _ _ _ (fun s a => ?_))
      | split
      | (simp only [implies_true, and_self, and_true, true_and, apply_ite State.pending, apply_ite State.tck, apply_ite TckSt.now, State.fwdHit_frame, State.fwdPut_frame, State.count_frame, State.moveConflict_frame])
  · repeat' first
      | with_reducible assumption
      | (with_reducible refine wf_ite ?_ ?_)
      | (with_reducible refine (State.fwdHit_frame ..).2.2 ?_)
      | (with_reducible refine (State.fwdPut_frame ..).2.2 ?_)
      | (with_reducible refine wf_eq (State.count_frame ..).2.2 ?_)
      | (with_reducible refine (State.moveConflict_frame ..).2.2 ?_)
      | (with_reducible refine foldl_wf _ _ _ (fun s a h => ?_) ?_)
      | dsimp only
      | split

theorem State.learn_frame (s : State)  : (State.learn s).pending = s.pending ∧ (State.learn s).tck.now = s.tck.now ∧ (Memory.wf s.mem = true → Memory.wf (State.learn s).mem = true) := by
  unfold State.learn
  refine ⟨?_, ?_, fun h => ?_⟩
  · repeat' first
      | with_reducible assumption
      | with_reducible rfl
      | (with_reducible refine Eq.trans (State.lookupKey_frame ..).1 ?_)
      | (with_reducible refine alP_pair1 (by assumption) (Eq.trans (State.lookupKey_frame ..).1 ?_))
      | (with_reducible refine Eq.trans (State.learnHit_frame ..).1 ?_)
      | (with_reducible refine Eq.trans (State.learnNew_frame ..).1 ?_)
      | dsimp only
      | split
  · repeat' first
      | with_reducible assumption
      | with_reducible rfl
      | (with_reducible refine Eq.trans (State.lookupKey_frame ..).2.1 ?_)
      | (with_reducible refine alN_pair1 (by assumption) (Eq.trans (State.lookupKey_frame ..).2.1 ?_))
      | (with_reducible refine Eq.trans (State.learnHit_frame ..).2.1 ?_)
      | (with_reducible refine Eq.trans (State.learnNew_frame ..).2.1 ?_)
      | dsimp only
      | split
  · repeat' first
      | with_reducible assumption
      | with_reducible rfl
      | (with_reducible refine (State.lookupKey_frame ..).2.2 ?_)
      | (with_reducible refine alW_pair1 (by assumption) ((State.lookupKey_frame ..).2.2 ?_))
      | (with_reducible refine (State.learnHit_frame ..).2.2 ?_)
      | (with_reducible refine (State.learnNew_frame ..).2.2 ?_)
      | dsimp only
      | split

theorem State.queueLearn_frame (s : State) (r : LearnReq)  : (State.queueLearn s r).pending = s.pending ∧ (State.queueLearn s r).tck.now = s.tck.now ∧ (Memory.wf s.mem = true → Memory.wf (State.queueLearn s r).mem = true) := by
  unfold State.queueLearn
  refine (and_assoc.1 ⟨?_, fun h => ?_⟩)
  · repeat' first
      | (simp only [implies_true, and_self, and_true, true_and, apply_ite State.pending, apply_ite State.tck, apply_ite TckSt.now, State.learn_frame, State.learnDrop_frame]; done)
      | (simp (maxDischargeDepth := 8) only [foldl_PN, implies_true, and_self, and_true, true_and, apply_ite State.pending, apply_ite State.tck, apply_ite TckSt.now, State.learn_frame, State.learnDrop_frame]; done)
      | (with_reducible refine foldl_PN _ _ _ (fun s a => ?_))
      | split
      | (simp only [implies_true, and_self, and_true, true_and, apply_ite State.pending, apply_ite State.tck, apply_ite TckSt.now, State.learn_frame, State.learnDrop_frame])
  · repeat' first
      | with_reducible assumption
      | (with_reducible refine wf_ite ?_ ?_)
      | (with_reducible refine (State.learn_frame ..).2.2 ?_)
      | (with_reducible refine wf_eq (State.learnDrop_frame ..).2.2 ?_)
      | (with_reducible refine foldl_wf _ _ _ (fun s a h => ?_) ?_)
      | dsimp only
      | split

theorem State.sourceLookup_frame (s : State) (port mac vid : Nat)  : (State.sourceLookup s port mac vid).pending = s.pending ∧ (State.sourceLookup s port mac vid).tck.now = s.tck.now ∧ (Memory.wf s.mem = true → Memory.wf (State.sourceLookup s port mac vid).mem = true) := by
  unfold State.sourceLookup
  refine ⟨?_, ?_, fun h => ?_⟩
  · repeat' first
      | with_reducible assumption
      | with_reducible rfl
      | (with_reducible refine alP_ite ?_ ?_)
      | (with_reducible refine alP_itep0 ?_ ?_)
      | (with_reducible refine alP_itep1 ?_ ?_)
      | (with_reducible refine Eq.trans (State.lookupKey_frame ..).1 ?_)
      | (with_reducible refine alP_pair1 (by assumption) (Eq.trans (State.lookupKey_frame ..).1 ?_))
      | (with_reducible refine Eq.trans (State.fwdHit_frame ..).1 ?_)
      | (with_reducible refine Eq.trans (State.queueLearn_frame ..).1 ?_)
      | dsimp only
      | split
  · repeat' first
      | with_reducible assumption
      | with_reducible rfl
      | (with_reducible refine alN_ite ?_ ?_)
      | (with_reducible refine alN_itep0 ?_ ?_)
      | (with_reducible refine alN_itep1 ?_ ?_)
      | (with_reducible refine Eq.trans (State.lookupKey_frame ..).2.1 ?_)
      | (with_reducible refine alN_pair1 (by assumption) (Eq.trans (State.lookupKey_frame ..).2.1 ?_))
      | (with_reducible refine Eq.trans (State.fwdHit_frame ..).2.1 ?_)
      | (with_reducible refine Eq.trans (State.queueLearn_frame ..).2.1 ?_)
      | dsimp only
      | split
  · repeat' first
      | with_reducible assumption
      | with_reducible rfl
      | (with_reducible refine alW_ite ?_ ?_)
      | (with_reducible refine alW_itep0 ?_ ?_)
      | (with_reducible refine alW_itep1 ?_ ?_)
      | (with_reducible refine (State.lookupKey_frame ..).2.2 ?_)
      | (with_reducible refine alW_pair1 (by assumption) ((State.lookupKey_frame ..).2.2 ?_))
      | (with_reducible refine (State.fwdHit_frame ..).2.2 ?_)
      | (with_reducible refine (State.queueLearn_frame ..).2.2 ?_)
      | dsimp only
      | split

theorem State.agingPass_frame (s : State)  : (State.agingPass s).pending = s.pending ∧ (State.agingPass s).tck.now = s.tck.now ∧ (Memory.wf s.mem = true → Memory.wf (State.agingPass s).mem = true) := by
  unfold State.agingPass
  refine ⟨?_, ?_, fun h => ?_⟩
  · repeat' first
      | with_reducible assumption
      | with_reducible rfl
      | (with_reducible refine alP_ite ?_ ?_)
      | (with_reducible refine Eq.trans (State.setRegN_frame ..).1 ?_)
      | (with_reducible refine Eq.trans (State.fwdPut_frame ..).1 ?_)
      | (with_reducible refine Eq.trans (State.fwdDelete_frame ..).1 ?_)
      | (with_reducible refine Eq.trans (State.count_frame ..).1 ?_)
      | (with_reducible refine alP_fold0 _ _ _ (fun r a h => ?_) ?_)
      | (with_reducible refine alP_fold1 _ _ _ (fun r a h => ?_) ?_)
      | (with_reducible refine alP_fold2 _ _ _ (fun r a h => ?_) ?_)
      | dsimp only
      | split
  · repeat' first
      | with_reducible assumption
      | with_reducible rfl
      | (with_reducible refine alN_ite ?_ ?_)
      | (with_reducible refine Eq.trans (State.setRegN_frame ..).2.1 ?_)
      | (with_reducible refine Eq.trans (State.fwdPut_frame ..).2.1 ?_)
      | (with_reducible refine Eq.trans (State.fwdDelete_frame ..).2.1 ?_)
      | (with_reducible refine Eq.trans (State.count_frame ..).2.1 ?_)
      | (with_reducible refine alN_fold0 _ _ _ (fun r a h => ?_) ?_)
      | (with_reducible refine alN_fold1 _ _ _ (fun r a h => ?_) ?_)
      | (with_reducible refine alN_fold2 _ _ _ (fun r a h => ?_) ?_)
      | dsimp only
      | split
  · repeat' first
      | with_reducible assumption
      | with_reducible rfl
      | (with_reducible refine alW_ite ?_ ?_)
      | (with_reducible refine wf_eq (State.setRegN_frame ..).2.2 ?_)
      | (with_reducible refine (State.fwdPut_frame ..).2.2 ?_)
      | (with_reducible refine (State.fwdDelete_frame ..).2.2 ?_)
      | (with_reducible refine wf_eq (State.count_frame ..).2.2 ?_)
      | (with_reducible refine alW_fold0 _ _ _ (fun r a h => ?_) ?_)
      | (with_reducible refine alW_fold1 _ _ _ (fun r a h => ?_) ?_)
      | (with_reducible refine alW_fold2 _ _ _ (fun r a h => ?_) ?_)
      | dsimp only
      | split

theorem State.scrub_frame (s : State)  : (State.scrub s).pending = s.pending ∧ (State.scrub s).tck.now = s.tck.now ∧ (Memory.wf s.mem = true → Memory.wf (State.scrub s).mem = true) := by
  unfold State.scrub
  refine (and_assoc.1 ⟨?_, fun h => ?_⟩)
  · repeat' first
      | (simp only [implies_true, and_self, and_true, true_and, apply_ite State.pending, apply_ite State.tck, apply_ite TckSt.now, State.readSlot_frame, State.fwdPut_frame]; done)
      | (simp (maxDischargeDepth := 8) only [foldl_PN, implies_true, and_self, and_true, true_and, apply_ite State.pending, apply_ite State.tck, apply_ite TckSt.now, State.readSlot_frame, State.fwdPut_frame]; done)
      | (with_reducible refine foldl_PN _ _ _ (fun s a => ?_))
      | split
      | (simp only [implies_true, and_self, and_true, true_and, apply_ite State.pending, apply_ite State.tck, apply_ite TckSt.now, State.readSlot_frame, State.fwdPut_frame])
  · repeat' first
      | with_reducible assumption
      | (with_reducible refine wf_ite ?_ ?_)
      | (with_reducible refine (State.readSlot_frame ..).2.2 ?_)
      | (with_reducible refine (State.fwdPut_frame ..).2.2 ?_)
      | (with_reducible refine foldl_wf _ _ _ (fun s a h => ?_) ?_)
      | dsimp only
      | split

theorem State.conflictExpire_frame (s : State)  : (State.conflictExpire s).pending = s.pending ∧ (State.conflictExpire s).tck.now = s.tck.now ∧ (State.conflictExpire s).mem = s.mem := by
  unfold State.conflictExpire
  repeat' first
    | (simp only [implies_true, and_self, and_true, true_and, apply_ite State.pending, apply_ite State.mem, apply_ite State.tck, apply_ite TckSt.now]; done)
    | (simp (maxDischargeDepth := 8) only [foldl_PMN, implies_true, and_self, and_true, true_and, apply_ite State.pending, apply_ite State.mem, apply_ite State.tck, apply_ite TckSt.now]; done)
    | (with_reducible refine foldl_PMN _ _ _ (fun s a => ?_))
    | split
    | (simp only [implies_true, and_self, and_true, true_and, apply_ite State.pending, apply_ite State.mem, apply_ite State.tck, apply_ite TckSt.now])

theorem State.portRetire_frame (s : State) (n : Nat)  : (State.portRetire s n).pending = s.pending ∧ (State.portRetire s n).tck.now = s.tck.now ∧ (Memory.wf s.mem = true → Memory.wf (State.portRetire s n).mem = true) := by
  unfold State.portRetire
  refine (and_assoc.1 ⟨?_, fun h => ?_⟩)
  · repeat' first
      | (simp only [implies_true, and_self, and_true, true_and, apply_ite State.pending, apply_ite State.tck, apply_ite TckSt.now, State.setBit_frame, State.retire_frame, State.emptyQueues_frame, State.fwdFlush_frame, State.raise_frame]; done)
      | (simp (maxDischargeDepth := 8) only [foldl_PN, implies_true, and_self, and_true, true_and, apply_ite State.pending, apply_ite State.tck, apply_ite TckSt.now, State.setBit_frame, State.retire_frame, State.emptyQueues_frame, State.fwdFlush_frame, State.raise_frame]; done)
      | (with_reducible refine foldl_PN _ _ _ (fun s a => ?_))
      | split
      | (simp only [implies_true, and_self, and_true, true_and, apply_ite State.pending, apply_ite State.tck, apply_ite TckSt.now, State.setBit_frame, State.retire_frame, State.emptyQueues_frame, State.fwdFlush_frame, State.raise_frame])
  · repeat' first
      | with_reducible assumption
      | (with_reducible refine wf_ite ?_ ?_)
      | (with_reducible refine wf_eq (State.setBit_frame ..).2.2 ?_)
      | (with_reducible refine wf_eq (State.retire_frame ..).2.2 ?_)
      | (with_reducible refine wf_eq (State.emptyQueues_frame ..).2.2 ?_)
      | (with_reducible refine (State.fwdFlush_frame ..).2.2 ?_)
      | (with_reducible refine wf_eq (State.raise_frame ..).2.2 ?_)
      | (with_reducible refine foldl_wf _ _ _ (fun s a h => ?_) ?_)
      | dsimp only
      | split

theorem State.portRestore_frame (s : State) (n : Nat)  : (State.portRestore s n).pending = s.pending ∧ (State.portRestore s n).tck.now = s.tck.now ∧ (State.portRestore s n).mem = s.mem := by
  unfold State.portRestore
  repeat' first
    | (simp only [implies_true, and_self, and_true, true_and, apply_ite State.pending, apply_ite State.mem, apply_ite State.tck, apply_ite TckSt.now, State.setBit_frame, State.unretire_frame, State.setRegN_frame]; done)
    | (simp (maxDischargeDepth := 8) only [foldl_PMN, implies_true, and_self, and_true, true_and, apply_ite State.pending, apply_ite State.mem, apply_ite State.tck, apply_ite TckSt.now, State.setBit_frame, State.unretire_frame, State.setRegN_frame]; done)
    | (with_reducible refine foldl_PMN _ _ _ (fun s a => ?_))
    | split
    | (simp only [implies_true, and_self, and_true, true_and, apply_ite State.pending, apply_ite State.mem, apply_ite State.tck, apply_ite TckSt.now, State.setBit_frame, State.unretire_frame, State.setRegN_frame])

theorem State.portCtrlWrite_frame (s : State) (n : Nat) (v : Word)  : (State.portCtrlWrite s n v).pending = s.pending ∧ (State.portCtrlWrite s n v).tck.now = s.tck.now ∧ (State.portCtrlWrite s n v).mem = s.mem := by
  unfold State.portCtrlWrite
  repeat' first
    | (simp only [implies_true, and_self, and_true, true_and, apply_ite State.pending, apply_ite State.mem, apply_ite State.tck, apply_ite TckSt.now, State.storeReg_frame, State.portLinkDown_frame, State.pauseTxWritten_frame, State.portRestore_frame]; done)
    | (simp (maxDischargeDepth := 8) only [foldl_PMN, implies_true, and_self, and_true, true_and, apply_ite State.pending, apply_ite State.mem, apply_ite State.tck, apply_ite TckSt.now, State.storeReg_frame, State.portLinkDown_frame, State.pauseTxWritten_frame, State.portRestore_frame]; done)
    | (with_reducible refine foldl_PMN _ _ _ (fun s a => ?_))
    | split
    | (simp only [implies_true, and_self, and_true, true_and, apply_ite State.pending, apply_ite State.mem, apply_ite State.tck, apply_ite TckSt.now, State.storeReg_frame, State.portLinkDown_frame, State.pauseTxWritten_frame, State.portRestore_frame])

theorem State.fwdCmdAccess_frame (s : State) (m op port vid : Nat)  : (State.fwdCmdAccess s m op port vid).pending = s.pending ∧ (State.fwdCmdAccess s m op port vid).tck.now = s.tck.now ∧ (State.fwdCmdAccess s m op port vid).mem = s.mem := by
  unfold State.fwdCmdAccess
  repeat' first
    | (simp only [implies_true, and_self, and_true, true_and, apply_ite State.pending, apply_ite State.mem, apply_ite State.tck, apply_ite TckSt.now, State.gateWrite_frame, State.fwdCmd_frame]; done)
    | (simp (maxDischargeDepth := 8) only [foldl_PMN, implies_true, and_self, and_true, true_and, apply_ite State.pending, apply_ite State.mem, apply_ite State.tck, apply_ite TckSt.now, State.gateWrite_frame, State.fwdCmd_frame]; done)
    | (with_reducible refine foldl_PMN _ _ _ (fun s a => ?_))
    | split
    | (simp only [implies_true, and_self, and_true, true_and, apply_ite State.pending, apply_ite State.mem, apply_ite State.tck, apply_ite TckSt.now, State.gateWrite_frame, State.fwdCmd_frame])

theorem execLearn_frame (cycle : Nat) (s : State) {r : State} (e : execLearn cycle s = .next r) : r.pending = s.pending ∧ r.tck.now = s.tck.now ∧ (Memory.wf s.mem = true → Memory.wf r.mem = true) := by
  unfold execLearn at e
  revert e
  intro e
  refine ⟨?_, ?_, fun h => ?_⟩
  · revert e
    repeat' first
      | with_reducible assumption
      | with_reducible rfl
      | (with_reducible refine Eq.trans (State.atCycle_frame ..).1 ?_)
      | (with_reducible refine Eq.trans (State.learn_frame ..).1 ?_)
      | (with_reducible refine ocP_next ?_)
      | with_reducible exact ocP_fault
      | dsimp only
      | split
  · revert e
    repeat' first
      | with_reducible assumption
      | with_reducible rfl
      | (with_reducible refine Eq.trans (State.atCycle_frame ..).2.1 ?_)
      | (with_reducible refine Eq.trans (State.learn_frame ..).2.1 ?_)
      | (with_reducible refine ocN_next ?_)
      | with_reducible exact ocN_fault
      | dsimp only
      | split
  · revert e
    repeat' first
      | with_reducible assumption
      | with_reducible rfl
      | (with_reducible refine wf_eq (State.atCycle_frame ..).2.2 ?_)
      | (with_reducible refine (State.learn_frame ..).2.2 ?_)
      | (with_reducible refine ocW_next ?_)
      | with_reducible exact ocW_fault
      | dsimp only
      | split

theorem execAgingPass_frame (s : State) {r : State} (e : execAgingPass s = .next r) : r.pending = s.pending ∧ r.tck.now = s.tck.now ∧ (Memory.wf s.mem = true → Memory.wf r.mem = true) := by
  unfold execAgingPass at e
  revert e
  intro e
  refine ⟨?_, ?_, fun h => ?_⟩
  · revert e
    repeat' first
      | with_reducible assumption
      | with_reducible rfl
      | (with_reducible refine Eq.trans (State.agingPass_frame ..).1 ?_)
      | (with_reducible refine ocP_next ?_)
      | with_reducible exact ocP_fault
      | dsimp only
      | split
  · revert e
    repeat' first
      | with_reducible assumption
      | with_reducible rfl
      | (with_reducible refine Eq.trans (State.agingPass_frame ..).2.1 ?_)
      | (with_reducible refine ocN_next ?_)
      | with_reducible exact ocN_fault
      | dsimp only
      | split
  · revert e
    repeat' first
      | with_reducible assumption
      | with_reducible rfl
      | (with_reducible refine (State.agingPass_frame ..).2.2 ?_)
      | (with_reducible refine ocW_next ?_)
      | with_reducible exact ocW_fault
      | dsimp only
      | split

theorem execScrub_frame (s : State) {r : State} (e : execScrub s = .next r) : r.pending = s.pending ∧ r.tck.now = s.tck.now ∧ (Memory.wf s.mem = true → Memory.wf r.mem = true) := by
  unfold execScrub at e
  revert e
  intro e
  refine ⟨?_, ?_, fun h => ?_⟩
  · revert e
    repeat' first
      | with_reducible assumption
      | with_reducible rfl
      | (with_reducible refine Eq.trans (State.scrub_frame ..).1 ?_)
      | (with_reducible refine ocP_next ?_)
      | with_reducible exact ocP_fault
      | dsimp only
      | split
  · revert e
    repeat' first
      | with_reducible assumption
      | with_reducible rfl
      | (with_reducible refine Eq.trans (State.scrub_frame ..).2.1 ?_)
      | (with_reducible refine ocN_next ?_)
      | with_reducible exact ocN_fault
      | dsimp only
      | split
  · revert e
    repeat' first
      | with_reducible assumption
      | with_reducible rfl
      | (with_reducible refine (State.scrub_frame ..).2.2 ?_)
      | (with_reducible refine ocW_next ?_)
      | with_reducible exact ocW_fault
      | dsimp only
      | split

theorem execConflictRecordExpiry_frame (cycle : Nat) (s : State) {r : State} (e : execConflictRecordExpiry cycle s = .next r) : r.pending = s.pending ∧ r.tck.now = s.tck.now ∧ r.mem = s.mem := by
  unfold execConflictRecordExpiry at e
  revert e
  intro e
  refine ⟨?_, ?_, ?_⟩
  · revert e
    repeat' first
      | with_reducible assumption
      | with_reducible rfl
      | (with_reducible refine Eq.trans (State.atCycle_frame ..).1 ?_)
      | (with_reducible refine Eq.trans (State.conflictExpire_frame ..).1 ?_)
      | (with_reducible refine ocP_next ?_)
      | with_reducible exact ocP_fault
      | dsimp only
      | split
  · revert e
    repeat' first
      | with_reducible assumption
      | with_reducible rfl
      | (with_reducible refine Eq.trans (State.atCycle_frame ..).2.1 ?_)
      | (with_reducible refine Eq.trans (State.conflictExpire_frame ..).2.1 ?_)
      | (with_reducible refine ocN_next ?_)
      | with_reducible exact ocN_fault
      | dsimp only
      | split
  · revert e
    repeat' first
      | with_reducible assumption
      | with_reducible rfl
      | (with_reducible refine Eq.trans (State.atCycle_frame ..).2.2 ?_)
      | (with_reducible refine Eq.trans (State.conflictExpire_frame ..).2.2 ?_)
      | (with_reducible refine ocM_next ?_)
      | with_reducible exact ocM_fault
      | dsimp only
      | split

theorem execInsert_frame (m : Fin 8) (s : State) {r : State} (e : execInsert m s = .next r) : r.pending = s.pending ∧ r.tck.now = s.tck.now ∧ r.mem = s.mem := by
  unfold execInsert at e
  revert e
  intro e
  refine ⟨?_, ?_, ?_⟩
  · revert e
    repeat' first
      | with_reducible assumption
      | with_reducible rfl
      | (with_reducible refine Eq.trans (State.fwdCmdAccess_frame ..).1 ?_)
      | (with_reducible refine ocP_next ?_)
      | with_reducible exact ocP_fault
      | dsimp only
      | split
  · revert e
    repeat' first
      | with_reducible assumption
      | with_reducible rfl
      | (with_reducible refine Eq.trans (State.fwdCmdAccess_frame ..).2.1 ?_)
      | (with_reducible refine ocN_next ?_)
      | with_reducible exact ocN_fault
      | dsimp only
      | split
  · revert e
    repeat' first
      | with_reducible assumption
      | with_reducible rfl
      | (with_reducible refine Eq.trans (State.fwdCmdAccess_frame ..).2.2 ?_)
      | (with_reducible refine ocM_next ?_)
      | with_reducible exact ocM_fault
      | dsimp only
      | split

theorem execDelete_frame (m : Fin 8) (s : State) {r : State} (e : execDelete m s = .next r) : r.pending = s.pending ∧ r.tck.now = s.tck.now ∧ r.mem = s.mem := by
  unfold execDelete at e
  revert e
  intro e
  refine ⟨?_, ?_, ?_⟩
  · revert e
    repeat' first
      | with_reducible assumption
      | with_reducible rfl
      | (with_reducible refine Eq.trans (State.fwdCmdAccess_frame ..).1 ?_)
      | (with_reducible refine ocP_next ?_)
      | with_reducible exact ocP_fault
      | dsimp only
      | split
  · revert e
    repeat' first
      | with_reducible assumption
      | with_reducible rfl
      | (with_reducible refine Eq.trans (State.fwdCmdAccess_frame ..).2.1 ?_)
      | (with_reducible refine ocN_next ?_)
      | with_reducible exact ocN_fault
      | dsimp only
      | split
  · revert e
    repeat' first
      | with_reducible assumption
      | with_reducible rfl
      | (with_reducible refine Eq.trans (State.fwdCmdAccess_frame ..).2.2 ?_)
      | (with_reducible refine ocM_next ?_)
      | with_reducible exact ocM_fault
      | dsimp only
      | split

theorem execLookup_frame (m : Fin 8) (s : State) {r : State} (e : execLookup m s = .next r) : r.pending = s.pending ∧ r.tck.now = s.tck.now ∧ r.mem = s.mem := by
  unfold execLookup at e
  revert e
  intro e
  refine ⟨?_, ?_, ?_⟩
  · revert e
    repeat' first
      | with_reducible assumption
      | with_reducible rfl
      | (with_reducible refine Eq.trans (State.fwdCmdAccess_frame ..).1 ?_)
      | (with_reducible refine ocP_next ?_)
      | with_reducible exact ocP_fault
      | dsimp only
      | split
  · revert e
    repeat' first
      | with_reducible assumption
      | with_reducible rfl
      | (with_reducible refine Eq.trans (State.fwdCmdAccess_frame ..).2.1 ?_)
      | (with_reducible refine ocN_next ?_)
      | with_reducible exact ocN_fault
      | dsimp only
      | split
  · revert e
    repeat' first
      | with_reducible assumption
      | with_reducible rfl
      | (with_reducible refine Eq.trans (State.fwdCmdAccess_frame ..).2.2 ?_)
      | (with_reducible refine ocM_next ?_)
      | with_reducible exact ocM_fault
      | dsimp only
      | split

theorem execFlushPort_frame (m : Fin 8) (port : Fin 128) (s : State) {r : State} (e : execFlushPort m port s = .next r) : r.pending = s.pending ∧ r.tck.now = s.tck.now ∧ r.mem = s.mem := by
  unfold execFlushPort at e
  revert e
  intro e
  refine ⟨?_, ?_, ?_⟩
  · revert e
    repeat' first
      | with_reducible assumption
      | with_reducible rfl
      | (with_reducible refine Eq.trans (State.fwdCmdAccess_frame ..).1 ?_)
      | (with_reducible refine ocP_next ?_)
      | with_reducible exact ocP_fault
      | dsimp only
      | split
  · revert e
    repeat' first
      | with_reducible assumption
      | with_reducible rfl
      | (with_reducible refine Eq.trans (State.fwdCmdAccess_frame ..).2.1 ?_)
      | (with_reducible refine ocN_next ?_)
      | with_reducible exact ocN_fault
      | dsimp only
      | split
  · revert e
    repeat' first
      | with_reducible assumption
      | with_reducible rfl
      | (with_reducible refine Eq.trans (State.fwdCmdAccess_frame ..).2.2 ?_)
      | (with_reducible refine ocM_next ?_)
      | with_reducible exact ocM_fault
      | dsimp only
      | split

theorem execFlushVid_frame (m : Fin 8) (vid : Fin 4096) (s : State) {r : State} (e : execFlushVid m vid s = .next r) : r.pending = s.pending ∧ r.tck.now = s.tck.now ∧ r.mem = s.mem := by
  unfold execFlushVid at e
  revert e
  intro e
  refine ⟨?_, ?_, ?_⟩
  · revert e
    repeat' first
      | with_reducible assumption
      | with_reducible rfl
      | (with_reducible refine Eq.trans (State.fwdCmdAccess_frame ..).1 ?_)
      | (with_reducible refine ocP_next ?_)
      | with_reducible exact ocP_fault
      | dsimp only
      | split
  · revert e
    repeat' first
      | with_reducible assumption
      | with_reducible rfl
      | (with_reducible refine Eq.trans (State.fwdCmdAccess_frame ..).2.1 ?_)
      | (with_reducible refine ocN_next ?_)
      | with_reducible exact ocN_fault
      | dsimp only
      | split
  · revert e
    repeat' first
      | with_reducible assumption
      | with_reducible rfl
      | (with_reducible refine Eq.trans (State.fwdCmdAccess_frame ..).2.2 ?_)
      | (with_reducible refine ocM_next ?_)
      | with_reducible exact ocM_fault
      | dsimp only
      | split

theorem execFlushLearned_frame (m : Fin 8) (s : State) {r : State} (e : execFlushLearned m s = .next r) : r.pending = s.pending ∧ r.tck.now = s.tck.now ∧ r.mem = s.mem := by
  unfold execFlushLearned at e
  revert e
  intro e
  refine ⟨?_, ?_, ?_⟩
  · revert e
    repeat' first
      | with_reducible assumption
      | with_reducible rfl
      | (with_reducible refine Eq.trans (State.fwdCmdAccess_frame ..).1 ?_)
      | (with_reducible refine ocP_next ?_)
      | with_reducible exact ocP_fault
      | dsimp only
      | split
  · revert e
    repeat' first
      | with_reducible assumption
      | with_reducible rfl
      | (with_reducible refine Eq.trans (State.fwdCmdAccess_frame ..).2.1 ?_)
      | (with_reducible refine ocN_next ?_)
      | with_reducible exact ocN_fault
      | dsimp only
      | split
  · revert e
    repeat' first
      | with_reducible assumption
      | with_reducible rfl
      | (with_reducible refine Eq.trans (State.fwdCmdAccess_frame ..).2.2 ?_)
      | (with_reducible refine ocM_next ?_)
      | with_reducible exact ocM_fault
      | dsimp only
      | split

theorem execFwdCmdDone_frame (s : State) {r : State} (e : execFwdCmdDone s = .next r) : r.pending = s.pending ∧ r.tck.now = s.tck.now ∧ (Memory.wf s.mem = true → Memory.wf r.mem = true) := by
  unfold execFwdCmdDone at e
  revert e
  intro e
  refine ⟨?_, ?_, fun h => ?_⟩
  · revert e
    repeat' first
      | with_reducible assumption
      | with_reducible rfl
      | (with_reducible refine Eq.trans (State.fwdCmdDone_frame ..).1 ?_)
      | (with_reducible refine ocP_next ?_)
      | with_reducible exact ocP_fault
      | dsimp only
      | split
  · revert e
    repeat' first
      | with_reducible assumption
      | with_reducible rfl
      | (with_reducible refine Eq.trans (State.fwdCmdDone_frame ..).2.1 ?_)
      | (with_reducible refine ocN_next ?_)
      | with_reducible exact ocN_fault
      | dsimp only
      | split
  · revert e
    repeat' first
      | with_reducible assumption
      | with_reducible rfl
      | (with_reducible refine (State.fwdCmdDone_frame ..).2.2 ?_)
      | (with_reducible refine ocW_next ?_)
      | with_reducible exact ocW_fault
      | dsimp only
      | split

theorem execFwdTableDataWrite_frame (m : Fin 8) (table : Fin 3) (v : Word) (s : State) {r : State} (e : execFwdTableDataWrite m table v s = .next r) : r.pending = s.pending ∧ r.tck.now = s.tck.now ∧ r.mem = s.mem := by
  unfold execFwdTableDataWrite at e
  revert e
  intro e
  refine ⟨?_, ?_, ?_⟩
  · revert e
    repeat' first
      | with_reducible assumption
      | with_reducible rfl
      | (with_reducible refine Eq.trans (State.gateWrite_frP (heff := fun _ => ?_) ..) ?_)
      | (with_reducible refine Eq.trans (State.tableWrite_frame ..).1 ?_)
      | (with_reducible refine ocP_next ?_)
      | with_reducible exact ocP_fault
      | dsimp only
      | split
  · revert e
    repeat' first
      | with_reducible assumption
      | with_reducible rfl
      | (with_reducible refine Eq.trans (State.gateWrite_frN (heff := fun _ => ?_) ..) ?_)
      | (with_reducible refine Eq.trans (State.tableWrite_frame ..).2.1 ?_)
      | (with_reducible refine ocN_next ?_)
      | with_reducible exact ocN_fault
      | dsimp only
      | split
  · revert e
    repeat' first
      | with_reducible assumption
      | with_reducible rfl
      | (with_reducible refine Eq.trans (State.gateWrite_frM (heff := fun _ => ?_) ..) ?_)
      | (with_reducible refine Eq.trans (State.tableWrite_frame ..).2.2 ?_)
      | (with_reducible refine ocM_next ?_)
      | with_reducible exact ocM_fault
      | dsimp only
      | split

theorem execPortRetire_frame (port : Fin 66) (s : State) {r : State} (e : execPortRetire port s = .next r) : r.pending = s.pending ∧ r.tck.now = s.tck.now ∧ (Memory.wf s.mem = true → Memory.wf r.mem = true) := by
  unfold execPortRetire at e
  revert e
  intro e
  refine ⟨?_, ?_, fun h => ?_⟩
  · revert e
    repeat' first
      | with_reducible assumption
      | with_reducible rfl
      | (with_reducible refine Eq.trans (State.portRetire_frame ..).1 ?_)
      | (with_reducible refine ocP_next ?_)
      | with_reducible exact ocP_fault
      | dsimp only
      | split
  · revert e
    repeat' first
      | with_reducible assumption
      | with_reducible rfl
      | (with_reducible refine Eq.trans (State.portRetire_frame ..).2.1 ?_)
      | (with_reducible refine ocN_next ?_)
      | with_reducible exact ocN_fault
      | dsimp only
      | split
  · revert e
    repeat' first
      | with_reducible assumption
      | with_reducible rfl
      | (with_reducible refine (State.portRetire_frame ..).2.2 ?_)
      | (with_reducible refine ocW_next ?_)
      | with_reducible exact ocW_fault
      | dsimp only
      | split

theorem execPortRestore_frame (m : Fin 8) (port : Fin 66) (s : State) {r : State} (e : execPortRestore m port s = .next r) : r.pending = s.pending ∧ r.tck.now = s.tck.now ∧ r.mem = s.mem := by
  unfold execPortRestore at e
  revert e
  intro e
  refine ⟨?_, ?_, ?_⟩
  · revert e
    repeat' first
      | with_reducible assumption
      | with_reducible rfl
      | (with_reducible refine Eq.trans (State.gateWrite_frP (heff := fun _ => ?_) ..) ?_)
      | (with_reducible refine Eq.trans (State.portCtrlWrite_frame ..).1 ?_)
      | (with_reducible refine ocP_next ?_)
      | with_reducible exact ocP_fault
      | dsimp only
      | split
  · revert e
    repeat' first
      | with_reducible assumption
      | with_reducible rfl
      | (with_reducible refine Eq.trans (State.gateWrite_frN (heff := fun _ => ?_) ..) ?_)
      | (with_reducible refine Eq.trans (State.portCtrlWrite_frame ..).2.1 ?_)
      | (with_reducible refine ocN_next ?_)
      | with_reducible exact ocN_fault
      | dsimp only
      | split
  · revert e
    repeat' first
      | with_reducible assumption
      | with_reducible rfl
      | (with_reducible refine Eq.trans (State.gateWrite_frM (heff := fun _ => ?_) ..) ?_)
      | (with_reducible refine Eq.trans (State.portCtrlWrite_frame ..).2.2 ?_)
      | (with_reducible refine ocM_next ?_)
      | with_reducible exact ocM_fault
      | dsimp only
      | split

end Sys2Proof.Machine
end

