-- ==== Sys2Proof/Laws/FrameHub.lean ====
section
/-! SUPPORT. What every operation of Machine/Hub.lean leaves alone: the queue of waiting commands, the tick counter (unless it
writes it), and memory or its canonical form. -/

namespace Sys2Proof.Machine

set_option linter.all false
set_option Elab.async false
set_option maxRecDepth 4000

theorem State.severe_frame (s : State) (code hi lo : Nat)  : (State.severe s code hi lo).pending = s.pending ∧ (State.severe s code hi lo).tck.now = s.tck.now ∧ (State.severe s code hi lo).mem = s.mem := by
  unfold State.severe
  repeat' first
    | (simp only [implies_true, and_self, and_true, true_and, apply_ite State.pending, apply_ite State.mem, apply_ite State.tck, apply_ite TckSt.now, State.setBit_frame, State.setFld_frame, State.bump_frame, State.logEvent_frame, State.raise_frame, State.requestSafety_frame]; done)
    | (simp (maxDischargeDepth := 8) only [foldl_PMN, implies_true, and_self, and_true, true_and, apply_ite State.pending, apply_ite State.mem, apply_ite State.tck, apply_ite TckSt.now, State.setBit_frame, State.setFld_frame, State.bump_frame, State.logEvent_frame, State.raise_frame, State.requestSafety_frame]; done)
    | (with_reducible refine foldl_PMN _ _ _ (fun s a => ?_))
    | split
    | (simp only [implies_true, and_self, and_true, true_and, apply_ite State.pending, apply_ite State.mem, apply_ite State.tck, apply_ite TckSt.now, State.setBit_frame, State.setFld_frame, State.bump_frame, State.logEvent_frame, State.raise_frame, State.requestSafety_frame])

theorem State.dropBuffer_frame (s : State) (h : Nat)  : (State.dropBuffer s h).pending = s.pending ∧ (State.dropBuffer s h).tck.now = s.tck.now ∧ (State.dropBuffer s h).mem = s.mem := by
  unfold State.dropBuffer
  repeat' first
    | (simp only [implies_true, and_self, and_true, true_and, apply_ite State.pending, apply_ite State.mem, apply_ite State.tck, apply_ite TckSt.now, State.freeChain_frame, State.endDesc_frame, State.setNetQ_frame, State.unbuf_frame]; done)
    | (simp (maxDischargeDepth := 8) only [foldl_PMN, implies_true, and_self, and_true, true_and, apply_ite State.pending, apply_ite State.mem, apply_ite State.tck, apply_ite TckSt.now, State.freeChain_frame, State.endDesc_frame, State.setNetQ_frame, State.unbuf_frame]; done)
    | (with_reducible refine foldl_PMN _ _ _ (fun s a => ?_))
    | split
    | (simp only [implies_true, and_self, and_true, true_and, apply_ite State.pending, apply_ite State.mem, apply_ite State.tck, apply_ite TckSt.now, State.freeChain_frame, State.endDesc_frame, State.setNetQ_frame, State.unbuf_frame])

theorem State.uncorrectable_frame (s : State) (r addr x : Nat)  : (State.uncorrectable s r addr x).pending = s.pending ∧ (State.uncorrectable s r addr x).tck.now = s.tck.now ∧ (Memory.wf s.mem = true → Memory.wf (State.uncorrectable s r addr x).mem = true) := by
  unfold State.uncorrectable
  refine ⟨?_, ?_, fun h => ?_⟩
  · repeat' first
      | with_reducible assumption
      | with_reducible rfl
      | (with_reducible refine alP_ite ?_ ?_)
      | (with_reducible refine Eq.trans (State.bump_frame ..).1 ?_)
      | (with_reducible refine Eq.trans (State.setRegN_frame ..).1 ?_)
      | (with_reducible refine Eq.trans (State.logEvent_frame ..).1 ?_)
      | (with_reducible refine Eq.trans (State.severe_frame ..).1 ?_)
      | (with_reducible refine Eq.trans (State.stagingEnds_frame ..).1 ?_)
      | (with_reducible refine Eq.trans (State.setBit_frame ..).1 ?_)
      | (with_reducible refine Eq.trans (State.parityErr_frame ..).1 ?_)
      | (with_reducible refine Eq.trans (State.dropBuffer_frame ..).1 ?_)
      | dsimp only
      | split
  · repeat' first
      | with_reducible assumption
      | with_reducible rfl
      | (with_reducible refine alN_ite ?_ ?_)
      | (with_reducible refine Eq.trans (State.bump_frame ..).2.1 ?_)
      | (with_reducible refine Eq.trans (State.setRegN_frame ..).2.1 ?_)
      | (with_reducible refine Eq.trans (State.logEvent_frame ..).2.1 ?_)
      | (with_reducible refine Eq.trans (State.severe_frame ..).2.1 ?_)
      | (with_reducible refine Eq.trans (State.stagingEnds_frame ..).2.1 ?_)
      | (with_reducible refine Eq.trans (State.setBit_frame ..).2.1 ?_)
      | (with_reducible refine Eq.trans (State.parityErr_frame ..).2.1 ?_)
      | (with_reducible refine Eq.trans (State.dropBuffer_frame ..).2.1 ?_)
      | dsimp only
      | split
  · repeat' first
      | with_reducible assumption
      | with_reducible rfl
      | (with_reducible refine alW_ite ?_ ?_)
      | (with_reducible refine wf_eq (State.bump_frame ..).2.2 ?_)
      | (with_reducible refine wf_eq (State.setRegN_frame ..).2.2 ?_)
      | (with_reducible refine wf_eq (State.logEvent_frame ..).2.2 ?_)
      | (with_reducible refine wf_eq (State.severe_frame ..).2.2 ?_)
      | (with_reducible refine wf_eq (State.stagingEnds_frame ..).2.2 ?_)
      | (with_reducible refine wf_eq (State.setBit_frame ..).2.2 ?_)
      | (with_reducible refine (State.parityErr_frame ..).2.2 ?_)
      | (with_reducible refine wf_eq (State.dropBuffer_frame ..).2.2 ?_)
      | dsimp only
      | split

theorem State.eccRead_frame (s : State) (m addr : Nat)  : (State.eccRead s m addr).pending = s.pending ∧ (State.eccRead s m addr).tck.now = s.tck.now ∧ (State.eccRead s m addr).mem = s.mem := by
  unfold State.eccRead
  repeat' first
    | (simp only [implies_true, and_self, and_true, true_and, apply_ite State.pending, apply_ite State.mem, apply_ite State.tck, apply_ite TckSt.now, State.violate_frame]; done)
    | (simp (maxDischargeDepth := 8) only [foldl_PMN, implies_true, and_self, and_true, true_and, apply_ite State.pending, apply_ite State.mem, apply_ite State.tck, apply_ite TckSt.now, State.violate_frame]; done)
    | (with_reducible refine foldl_PMN _ _ _ (fun s a => ?_))
    | split
    | (simp only [implies_true, and_self, and_true, true_and, apply_ite State.pending, apply_ite State.mem, apply_ite State.tck, apply_ite TckSt.now, State.violate_frame])

theorem State.pairEqual_frame (s : State) (page : Nat) (equal : Bool)  : (State.pairEqual s page equal).pending = s.pending ∧ (State.pairEqual s page equal).tck.now = s.tck.now ∧ (State.pairEqual s page equal).mem = s.mem := by
  unfold State.pairEqual
  repeat' first
    | (simp only [implies_true, and_self, and_true, true_and, apply_ite State.pending, apply_ite State.mem, apply_ite State.tck, apply_ite TckSt.now, State.withSummary_frame, State.setBit_frame, State.logEvent_frame, State.raise_frame]; done)
    | (simp (maxDischargeDepth := 8) only [foldl_PMN, implies_true, and_self, and_true, true_and, apply_ite State.pending, apply_ite State.mem, apply_ite State.tck, apply_ite TckSt.now, State.withSummary_frame, State.setBit_frame, State.logEvent_frame, State.raise_frame]; done)
    | (with_reducible refine foldl_PMN _ _ _ (fun s a => ?_))
    | split
    | (simp only [implies_true, and_self, and_true, true_and, apply_ite State.pending, apply_ite State.mem, apply_ite State.tck, apply_ite TckSt.now, State.withSummary_frame, State.setBit_frame, State.logEvent_frame, State.raise_frame])

theorem State.linkProbe_frame (s : State) (page : Nat) (inverts : Bool)  : (State.linkProbe s page inverts).pending = s.pending ∧ (State.linkProbe s page inverts).tck.now = s.tck.now ∧ (State.linkProbe s page inverts).mem = s.mem := by
  unfold State.linkProbe
  repeat' first
    | (simp only [implies_true, and_self, and_true, true_and, apply_ite State.pending, apply_ite State.mem, apply_ite State.tck, apply_ite TckSt.now, State.withSummary_frame, State.setBit_frame, State.logEvent_frame, State.raise_frame]; done)
    | (simp (maxDischargeDepth := 8) only [foldl_PMN, implies_true, and_self, and_true, true_and, apply_ite State.pending, apply_ite State.mem, apply_ite State.tck, apply_ite TckSt.now, State.withSummary_frame, State.setBit_frame, State.logEvent_frame, State.raise_frame]; done)
    | (with_reducible refine foldl_PMN _ _ _ (fun s a => ?_))
    | split
    | (simp only [implies_true, and_self, and_true, true_and, apply_ite State.pending, apply_ite State.mem, apply_ite State.tck, apply_ite TckSt.now, State.withSummary_frame, State.setBit_frame, State.logEvent_frame, State.raise_frame])

theorem State.nvmCount_frame (s : State) (n : Nat)  : (State.nvmCount s n).pending = s.pending ∧ (State.nvmCount s n).tck.now = s.tck.now ∧ (State.nvmCount s n).mem = s.mem := by
  unfold State.nvmCount
  repeat' first
    | (simp only [implies_true, and_self, and_true, true_and, apply_ite State.pending, apply_ite State.mem, apply_ite State.tck, apply_ite TckSt.now, State.bump_frame]; done)
    | (simp (maxDischargeDepth := 8) only [foldl_PMN, implies_true, and_self, and_true, true_and, apply_ite State.pending, apply_ite State.mem, apply_ite State.tck, apply_ite TckSt.now, State.bump_frame]; done)
    | (with_reducible refine foldl_PMN _ _ _ (fun s a => ?_))
    | split
    | (simp only [implies_true, and_self, and_true, true_and, apply_ite State.pending, apply_ite State.mem, apply_ite State.tck, apply_ite TckSt.now, State.bump_frame])

theorem State.beginFlush_frame (s : State) (cause : Nat)  : (State.beginFlush s cause).pending = s.pending ∧ (State.beginFlush s cause).tck.now = s.tck.now ∧ (Memory.wf s.mem = true → Memory.wf (State.beginFlush s cause).mem = true) := by
  unfold State.beginFlush
  refine (and_assoc.1 ⟨?_, fun h => ?_⟩)
  · repeat' first
      | (simp only [implies_true, and_self, and_true, true_and, apply_ite State.pending, apply_ite State.tck, apply_ite TckSt.now, State.storeN_frame, State.setBytes_frame, State.nvmCount_frame]; done)
      | (simp (maxDischargeDepth := 8) only [foldl_PN, implies_true, and_self, and_true, true_and, apply_ite State.pending, apply_ite State.tck, apply_ite TckSt.now, State.storeN_frame, State.setBytes_frame, State.nvmCount_frame]; done)
      | (with_reducible refine foldl_PN _ _ _ (fun s a => ?_))
      | split
      | (simp only [implies_true, and_self, and_true, true_and, apply_ite State.pending, apply_ite State.tck, apply_ite TckSt.now, State.storeN_frame, State.setBytes_frame, State.nvmCount_frame])
  · repeat' first
      | with_reducible assumption
      | (with_reducible refine wf_ite ?_ ?_)
      | (with_reducible refine (State.storeN_frame ..).2.2 ?_)
      | (with_reducible refine (State.setBytes_frame ..).2.2 ?_)
      | (with_reducible refine wf_eq (State.nvmCount_frame ..).2.2 ?_)
      | (with_reducible refine foldl_wf _ _ _ (fun s a h => ?_) ?_)
      | dsimp only
      | split

theorem State.askFlush_frame (s : State) (cause : Nat)  : (State.askFlush s cause).pending = s.pending ∧ (State.askFlush s cause).tck.now = s.tck.now ∧ (Memory.wf s.mem = true → Memory.wf (State.askFlush s cause).mem = true) := by
  unfold State.askFlush
  refine (and_assoc.1 ⟨?_, fun h => ?_⟩)
  · repeat' first
      | (simp only [implies_true, and_self, and_true, true_and, apply_ite State.pending, apply_ite State.tck, apply_ite TckSt.now, State.beginFlush_frame]; done)
      | (simp (maxDischargeDepth := 8) only [foldl_PN, implies_true, and_self, and_true, true_and, apply_ite State.pending, apply_ite State.tck, apply_ite TckSt.now, State.beginFlush_frame]; done)
      | (with_reducible refine foldl_PN _ _ _ (fun s a => ?_))
      | split
      | (simp only [implies_true, and_self, and_true, true_and, apply_ite State.pending, apply_ite State.tck, apply_ite TckSt.now, State.beginFlush_frame])
  · repeat' first
      | with_reducible assumption
      | (with_reducible refine wf_ite ?_ ?_)
      | (with_reducible refine (State.beginFlush_frame ..).2.2 ?_)
      | (with_reducible refine foldl_wf _ _ _ (fun s a h => ?_) ?_)
      | dsimp only
      | split

theorem State.flushDone_frame (s : State)  : (State.flushDone s).pending = s.pending ∧ (State.flushDone s).tck.now = s.tck.now ∧ (Memory.wf s.mem = true → Memory.wf (State.flushDone s).mem = true) := by
  unfold State.flushDone
  refine (and_assoc.1 ⟨?_, fun h => ?_⟩)
  · repeat' first
      | (simp only [implies_true, and_self, and_true, true_and, apply_ite State.pending, apply_ite State.tck, apply_ite TckSt.now, State.storeN_frame, State.nvmCount_frame, State.raise_frame, State.beginFlush_frame]; done)
      | (simp (maxDischargeDepth := 8) only [foldl_PN, implies_true, and_self, and_true, true_and, apply_ite State.pending, apply_ite State.tck, apply_ite TckSt.now, State.storeN_frame, State.nvmCount_frame, State.raise_frame, State.beginFlush_frame]; done)
      | (with_reducible refine foldl_PN _ _ _ (fun s a => ?_))
      | split
      | (simp only [implies_true, and_self, and_true, true_and, apply_ite State.pending, apply_ite State.tck, apply_ite TckSt.now, State.storeN_frame, State.nvmCount_frame, State.raise_frame, State.beginFlush_frame])
  · repeat' first
      | with_reducible assumption
      | (with_reducible refine wf_ite ?_ ?_)
      | (with_reducible refine (State.storeN_frame ..).2.2 ?_)
      | (with_reducible refine wf_eq (State.nvmCount_frame ..).2.2 ?_)
      | (with_reducible refine wf_eq (State.raise_frame ..).2.2 ?_)
      | (with_reducible refine (State.beginFlush_frame ..).2.2 ?_)
      | (with_reducible refine foldl_wf _ _ _ (fun s a h => ?_) ?_)
      | dsimp only
      | split

theorem State.flushAll_frame (s : State)  : (State.flushAll s).pending = s.pending ∧ (State.flushAll s).tck.now = s.tck.now ∧ (Memory.wf s.mem = true → Memory.wf (State.flushAll s).mem = true) := by
  unfold State.flushAll
  refine (and_assoc.1 ⟨?_, fun h => ?_⟩)
  · repeat' first
      | (simp only [implies_true, and_self, and_true, true_and, apply_ite State.pending, apply_ite State.tck, apply_ite TckSt.now, State.flushDone_frame]; done)
      | (simp (maxDischargeDepth := 8) only [foldl_PN, implies_true, and_self, and_true, true_and, apply_ite State.pending, apply_ite State.tck, apply_ite TckSt.now, State.flushDone_frame]; done)
      | (with_reducible refine foldl_PN _ _ _ (fun s a => ?_))
      | split
      | (simp only [implies_true, and_self, and_true, true_and, apply_ite State.pending, apply_ite State.tck, apply_ite TckSt.now, State.flushDone_frame])
  · repeat' first
      | with_reducible assumption
      | (with_reducible refine wf_ite ?_ ?_)
      | (with_reducible refine (State.flushDone_frame ..).2.2 ?_)
      | (with_reducible refine foldl_wf _ _ _ (fun s a h => ?_) ?_)
      | dsimp only
      | split

theorem State.showPhist_frame (s : State)  : (State.showPhist s).pending = s.pending ∧ (State.showPhist s).tck.now = s.tck.now ∧ (State.showPhist s).mem = s.mem := by
  unfold State.showPhist
  repeat' first
    | (simp only [implies_true, and_self, and_true, true_and, apply_ite State.pending, apply_ite State.mem, apply_ite State.tck, apply_ite TckSt.now, State.setRegN_frame, State.setBit_frame]; done)
    | (simp (maxDischargeDepth := 8) only [foldl_PMN, implies_true, and_self, and_true, true_and, apply_ite State.pending, apply_ite State.mem, apply_ite State.tck, apply_ite TckSt.now, State.setRegN_frame, State.setBit_frame]; done)
    | (with_reducible refine foldl_PMN _ _ _ (fun s a => ?_))
    | split
    | (simp only [implies_true, and_self, and_true, true_and, apply_ite State.pending, apply_ite State.mem, apply_ite State.tck, apply_ite TckSt.now, State.setRegN_frame, State.setBit_frame])

theorem State.fltCtrlWrite_frame (s : State) (v : Word)  : (State.fltCtrlWrite s v).pending = s.pending ∧ (State.fltCtrlWrite s v).tck.now = s.tck.now ∧ (Memory.wf s.mem = true → Memory.wf (State.fltCtrlWrite s v).mem = true) := by
  unfold State.fltCtrlWrite
  refine (and_assoc.1 ⟨?_, fun h => ?_⟩)
  · repeat' first
      | (simp only [implies_true, and_self, and_true, true_and, apply_ite State.pending, apply_ite State.tck, apply_ite TckSt.now, State.storeReg_frame, State.askFlush_frame]; done)
      | (simp (maxDischargeDepth := 8) only [foldl_PN, implies_true, and_self, and_true, true_and, apply_ite State.pending, apply_ite State.tck, apply_ite TckSt.now, State.storeReg_frame, State.askFlush_frame]; done)
      | (with_reducible refine foldl_PN _ _ _ (fun s a => ?_))
      | split
      | (simp only [implies_true, and_self, and_true, true_and, apply_ite State.pending, apply_ite State.tck, apply_ite TckSt.now, State.storeReg_frame, State.askFlush_frame])
  · repeat' first
      | with_reducible assumption
      | (with_reducible refine wf_ite ?_ ?_)
      | (with_reducible refine wf_eq (State.storeReg_frame ..).2.2 ?_)
      | (with_reducible refine (State.askFlush_frame ..).2.2 ?_)
      | (with_reducible refine foldl_wf _ _ _ (fun s a h => ?_) ?_)
      | dsimp only
      | split

theorem State.heartbeatLoss_frame (s : State)  : (State.heartbeatLoss s).pending = s.pending ∧ (State.heartbeatLoss s).tck.now = s.tck.now ∧ (Memory.wf s.mem = true → Memory.wf (State.heartbeatLoss s).mem = true) := by
  unfold State.heartbeatLoss
  refine (and_assoc.1 ⟨?_, fun h => ?_⟩)
  · repeat' first
      | (simp only [implies_true, and_self, and_true, true_and, apply_ite State.pending, apply_ite State.tck, apply_ite TckSt.now, State.count_frame, State.dropInterlock_frame, State.severe_frame]; done)
      | (simp (maxDischargeDepth := 8) only [foldl_PN, implies_true, and_self, and_true, true_and, apply_ite State.pending, apply_ite State.tck, apply_ite TckSt.now, State.count_frame, State.dropInterlock_frame, State.severe_frame]; done)
      | (with_reducible refine foldl_PN _ _ _ (fun s a => ?_))
      | split
      | (simp only [implies_true, and_self, and_true, true_and, apply_ite State.pending, apply_ite State.tck, apply_ite TckSt.now, State.count_frame, State.dropInterlock_frame, State.severe_frame])
  · repeat' first
      | with_reducible assumption
      | (with_reducible refine wf_ite ?_ ?_)
      | (with_reducible refine wf_eq (State.count_frame ..).2.2 ?_)
      | (with_reducible refine (State.dropInterlock_frame ..).2.2 ?_)
      | (with_reducible refine wf_eq (State.severe_frame ..).2.2 ?_)
      | (with_reducible refine foldl_wf _ _ _ (fun s a h => ?_) ?_)
      | dsimp only
      | split

theorem execUncorrectableEcc_frame (region : Fin 10) (addr : Word) (x : Nat) (reader : Option (Fin 8)) (s : State) {r : State} (e : execUncorrectableEcc region addr x reader s = .next r) : r.pending = s.pending ∧ r.tck.now = s.tck.now ∧ (Memory.wf s.mem = true → Memory.wf r.mem = true) := by
  unfold execUncorrectableEcc at e
  revert e
  intro e
  refine ⟨?_, ?_, fun h => ?_⟩
  · revert e
    repeat' first
      | with_reducible assumption
      | with_reducible rfl
      | (with_reducible refine Eq.trans (State.uncorrectable_frame ..).1 ?_)
      | (with_reducible refine Eq.trans (State.eccRead_frame ..).1 ?_)
      | (with_reducible refine ocP_next ?_)
      | with_reducible exact ocP_fault
      | dsimp only
      | split
  · revert e
    repeat' first
      | with_reducible assumption
      | with_reducible rfl
      | (with_reducible refine Eq.trans (State.uncorrectable_frame ..).2.1 ?_)
      | (with_reducible refine Eq.trans (State.eccRead_frame ..).2.1 ?_)
      | (with_reducible refine ocN_next ?_)
      | with_reducible exact ocN_fault
      | dsimp only
      | split
  · revert e
    repeat' first
      | with_reducible assumption
      | with_reducible rfl
      | (with_reducible refine (State.uncorrectable_frame ..).2.2 ?_)
      | (with_reducible refine wf_eq (State.eccRead_frame ..).2.2 ?_)
      | (with_reducible refine ocW_next ?_)
      | with_reducible exact ocW_fault
      | dsimp only
      | split

theorem execLinkProbe_frame (page : Fin 192) (inverts : Bool) (s : State) {r : State} (e : execLinkProbe page inverts s = .next r) : r.pending = s.pending ∧ r.tck.now = s.tck.now ∧ r.mem = s.mem := by
  unfold execLinkProbe at e
  revert e
  intro e
  refine ⟨?_, ?_, ?_⟩
  · revert e
    repeat' first
      | with_reducible assumption
      | with_reducible rfl
      | (with_reducible refine Eq.trans (State.linkProbe_frame ..).1 ?_)
      | (with_reducible refine ocP_next ?_)
      | with_reducible exact ocP_fault
      | dsimp only
      | split
  · revert e
    repeat' first
      | with_reducible assumption
      | with_reducible rfl
      | (with_reducible refine Eq.trans (State.linkProbe_frame ..).2.1 ?_)
      | (with_reducible refine ocN_next ?_)
      | with_reducible exact ocN_fault
      | dsimp only
      | split
  · revert e
    repeat' first
      | with_reducible assumption
      | with_reducible rfl
      | (with_reducible refine Eq.trans (State.linkProbe_frame ..).2.2 ?_)
      | (with_reducible refine ocM_next ?_)
      | with_reducible exact ocM_fault
      | dsimp only
      | split

theorem execPairEqual_frame (page : Fin 192) (equal : Bool) (s : State) {r : State} (e : execPairEqual page equal s = .next r) : r.pending = s.pending ∧ r.tck.now = s.tck.now ∧ r.mem = s.mem := by
  unfold execPairEqual at e
  revert e
  intro e
  refine ⟨?_, ?_, ?_⟩
  · revert e
    repeat' first
      | with_reducible assumption
      | with_reducible rfl
      | (with_reducible refine Eq.trans (State.pairEqual_frame ..).1 ?_)
      | (with_reducible refine ocP_next ?_)
      | with_reducible exact ocP_fault
      | dsimp only
      | split
  · revert e
    repeat' first
      | with_reducible assumption
      | with_reducible rfl
      | (with_reducible refine Eq.trans (State.pairEqual_frame ..).2.1 ?_)
      | (with_reducible refine ocN_next ?_)
      | with_reducible exact ocN_fault
      | dsimp only
      | split
  · revert e
    repeat' first
      | with_reducible assumption
      | with_reducible rfl
      | (with_reducible refine Eq.trans (State.pairEqual_frame ..).2.2 ?_)
      | (with_reducible refine ocM_next ?_)
      | with_reducible exact ocM_fault
      | dsimp only
      | split

theorem execFltFlush_frame (m : Fin 8) (safetyEn force : Bool) (s : State) {r : State} (e : execFltFlush m safetyEn force s = .next r) : r.pending = s.pending ∧ r.tck.now = s.tck.now ∧ (Memory.wf s.mem = true → Memory.wf r.mem = true) := by
  unfold execFltFlush at e
  revert e
  intro e
  refine ⟨?_, ?_, fun h => ?_⟩
  · revert e
    repeat' first
      | with_reducible assumption
      | with_reducible rfl
      | (with_reducible refine Eq.trans (State.gateWrite_frP (heff := fun _ => ?_) ..) ?_)
      | (with_reducible refine Eq.trans (State.fltCtrlWrite_frame ..).1 ?_)
      | (with_reducible refine ocP_next ?_)
      | with_reducible exact ocP_fault
      | dsimp only
      | split
  · revert e
    repeat' first
      | with_reducible assumption
      | with_reducible rfl
      | (with_reducible refine Eq.trans (State.gateWrite_frN (heff := fun _ => ?_) ..) ?_)
      | (with_reducible refine Eq.trans (State.fltCtrlWrite_frame ..).2.1 ?_)
      | (with_reducible refine ocN_next ?_)
      | with_reducible exact ocN_fault
      | dsimp only
      | split
  · revert e
    repeat' first
      | with_reducible assumption
      | with_reducible rfl
      | (with_reducible refine (State.gateWrite_frW (heff := fun _ h => ?_) (hw := ?_) ..))
      | (with_reducible refine wf_eq (State.gateWrite_frame ..).2.2 ?_)
      | (with_reducible refine (State.fltCtrlWrite_frame ..).2.2 ?_)
      | (with_reducible refine ocW_next ?_)
      | with_reducible exact ocW_fault
      | dsimp only
      | split

theorem execHeartbeatLoss_frame (s : State) {r : State} (e : execHeartbeatLoss s = .next r) : r.pending = s.pending ∧ r.tck.now = s.tck.now ∧ (Memory.wf s.mem = true → Memory.wf r.mem = true) := by
  unfold execHeartbeatLoss at e
  revert e
  intro e
  refine ⟨?_, ?_, fun h => ?_⟩
  · revert e
    repeat' first
      | with_reducible assumption
      | with_reducible rfl
      | (with_reducible refine Eq.trans (State.heartbeatLoss_frame ..).1 ?_)
      | (with_reducible refine ocP_next ?_)
      | with_reducible exact ocP_fault
      | dsimp only
      | split
  · revert e
    repeat' first
      | with_reducible assumption
      | with_reducible rfl
      | (with_reducible refine Eq.trans (State.heartbeatLoss_frame ..).2.1 ?_)
      | (with_reducible refine ocN_next ?_)
      | with_reducible exact ocN_fault
      | dsimp only
      | split
  · revert e
    repeat' first
      | with_reducible assumption
      | with_reducible rfl
      | (with_reducible refine (State.heartbeatLoss_frame ..).2.2 ?_)
      | (with_reducible refine ocW_next ?_)
      | with_reducible exact ocW_fault
      | dsimp only
      | split

end Sys2Proof.Machine
end

