-- ==== Sys2Proof/Laws/FramePower.lean ====
section
/-! SUPPORT. What every operation of Machine/Power.lean leaves alone: the queue of waiting commands, the tick counter (unless it
writes it), and memory or its canonical form. -/

namespace Sys2Proof.Machine

set_option linter.all false
set_option Elab.async false
set_option maxRecDepth 4000

theorem State.returnShown_frame (s : State)  : (State.returnShown s).pending = s.pending ∧ (State.returnShown s).tck.now = s.tck.now ∧ (State.returnShown s).mem = s.mem := by
  unfold State.returnShown
  repeat' first
    | (simp only [implies_true, and_self, and_true, true_and, apply_ite State.pending, apply_ite State.mem, apply_ite State.tck, apply_ite TckSt.now, State.setBit_frame]; done)
    | (simp (maxDischargeDepth := 8) only [foldl_PMN, implies_true, and_self, and_true, true_and, apply_ite State.pending, apply_ite State.mem, apply_ite State.tck, apply_ite TckSt.now, State.setBit_frame]; done)
    | (with_reducible refine foldl_PMN _ _ _ (fun s a => ?_))
    | split
    | (simp only [implies_true, and_self, and_true, true_and, apply_ite State.pending, apply_ite State.mem, apply_ite State.tck, apply_ite TckSt.now, State.setBit_frame])

theorem State.switchTo_frame (s : State) (src : Nat)  : (State.switchTo s src).pending = s.pending ∧ (State.switchTo s src).tck.now = s.tck.now ∧ (State.switchTo s src).mem = s.mem := by
  unfold State.switchTo
  repeat' first
    | (simp only [implies_true, and_self, and_true, true_and, apply_ite State.pending, apply_ite State.mem, apply_ite State.tck, apply_ite TckSt.now, State.setFld_frame, State.bump_frame, State.raise_frame]; done)
    | (simp (maxDischargeDepth := 8) only [foldl_PMN, implies_true, and_self, and_true, true_and, apply_ite State.pending, apply_ite State.mem, apply_ite State.tck, apply_ite TckSt.now, State.setFld_frame, State.bump_frame, State.raise_frame]; done)
    | (with_reducible refine foldl_PMN _ _ _ (fun s a => ?_))
    | split
    | (simp only [implies_true, and_self, and_true, true_and, apply_ite State.pending, apply_ite State.mem, apply_ite State.tck, apply_ite TckSt.now, State.setFld_frame, State.bump_frame, State.raise_frame])

theorem State.takeBack_frame (s : State)  : (State.takeBack s).pending = s.pending ∧ (State.takeBack s).tck.now = s.tck.now ∧ (State.takeBack s).mem = s.mem := by
  unfold State.takeBack
  repeat' first
    | (simp only [implies_true, and_self, and_true, true_and, apply_ite State.pending, apply_ite State.mem, apply_ite State.tck, apply_ite TckSt.now, State.setFld_frame, State.bump_frame]; done)
    | (simp (maxDischargeDepth := 8) only [foldl_PMN, implies_true, and_self, and_true, true_and, apply_ite State.pending, apply_ite State.mem, apply_ite State.tck, apply_ite TckSt.now, State.setFld_frame, State.bump_frame]; done)
    | (with_reducible refine foldl_PMN _ _ _ (fun s a => ?_))
    | split
    | (simp only [implies_true, and_self, and_true, true_and, apply_ite State.pending, apply_ite State.mem, apply_ite State.tck, apply_ite TckSt.now, State.setFld_frame, State.bump_frame])

theorem State.quiesce_frame (s : State)  : (State.quiesce s).pending = s.pending ∧ (State.quiesce s).tck.now = s.tck.now ∧ (State.quiesce s).mem = s.mem := by
  unfold State.quiesce
  repeat' first
    | (simp only [implies_true, and_self, and_true, true_and, apply_ite State.pending, apply_ite State.mem, apply_ite State.tck, apply_ite TckSt.now, State.setBit_frame, State.raise_frame]; done)
    | (simp (maxDischargeDepth := 8) only [foldl_PMN, implies_true, and_self, and_true, true_and, apply_ite State.pending, apply_ite State.mem, apply_ite State.tck, apply_ite TckSt.now, State.setBit_frame, State.raise_frame]; done)
    | (with_reducible refine foldl_PMN _ _ _ (fun s a => ?_))
    | split
    | (simp only [implies_true, and_self, and_true, true_and, apply_ite State.pending, apply_ite State.mem, apply_ite State.tck, apply_ite TckSt.now, State.setBit_frame, State.raise_frame])

theorem State.powerSequence_frame (s : State) (cause : Nat)  : (State.powerSequence s cause).pending = s.pending ∧ (State.powerSequence s cause).tck.now = s.tck.now ∧ (Memory.wf s.mem = true → Memory.wf (State.powerSequence s cause).mem = true) := by
  unfold State.powerSequence
  refine (and_assoc.1 ⟨?_, fun h => ?_⟩)
  · repeat' first
      | (simp only [implies_true, and_self, and_true, true_and, apply_ite State.pending, apply_ite State.tck, apply_ite TckSt.now, State.dropInterlock_frame, State.quiesce_frame, State.askFlush_frame]; done)
      | (simp (maxDischargeDepth := 8) only [foldl_PN, implies_true, and_self, and_true, true_and, apply_ite State.pending, apply_ite State.tck, apply_ite TckSt.now, State.dropInterlock_frame, State.quiesce_frame, State.askFlush_frame]; done)
      | (with_reducible refine foldl_PN _ _ _ (fun s a => ?_))
      | split
      | (simp only [implies_true, and_self, and_true, true_and, apply_ite State.pending, apply_ite State.tck, apply_ite TckSt.now, State.dropInterlock_frame, State.quiesce_frame, State.askFlush_frame])
  · repeat' first
      | with_reducible assumption
      | (with_reducible refine wf_ite ?_ ?_)
      | (with_reducible refine (State.dropInterlock_frame ..).2.2 ?_)
      | (with_reducible refine wf_eq (State.quiesce_frame ..).2.2 ?_)
      | (with_reducible refine (State.askFlush_frame ..).2.2 ?_)
      | (with_reducible refine foldl_wf _ _ _ (fun s a h => ?_) ?_)
      | dsimp only
      | split

theorem State.mramCount_frame (s : State) (w : Nat)  : (State.mramCount s w).pending = s.pending ∧ (State.mramCount s w).tck.now = s.tck.now ∧ (Memory.wf s.mem = true → Memory.wf (State.mramCount s w).mem = true) := by
  unfold State.mramCount
  refine (and_assoc.1 ⟨?_, fun h => ?_⟩)
  · repeat' first
      | (simp only [implies_true, and_self, and_true, true_and, apply_ite State.pending, apply_ite State.tck, apply_ite TckSt.now, State.storeN_frame, State.nvmCount_frame]; done)
      | (simp (maxDischargeDepth := 8) only [foldl_PN, implies_true, and_self, and_true, true_and, apply_ite State.pending, apply_ite State.tck, apply_ite TckSt.now, State.storeN_frame, State.nvmCount_frame]; done)
      | (with_reducible refine foldl_PN _ _ _ (fun s a => ?_))
      | split
      | (simp only [implies_true, and_self, and_true, true_and, apply_ite State.pending, apply_ite State.tck, apply_ite TckSt.now, State.storeN_frame, State.nvmCount_frame])
  · repeat' first
      | with_reducible assumption
      | (with_reducible refine wf_ite ?_ ?_)
      | (with_reducible refine (State.storeN_frame ..).2.2 ?_)
      | (with_reducible refine wf_eq (State.nvmCount_frame ..).2.2 ?_)
      | (with_reducible refine foldl_wf _ _ _ (fun s a h => ?_) ?_)
      | dsimp only
      | split

theorem State.wipe_frame (s : State)  : (State.wipe s).pending = s.pending ∧ (Memory.wf s.mem = true → Memory.wf (State.wipe s).mem = true) := by
  unfold State.wipe
  dsimp only
  refine ⟨?_, fun h => ?_⟩
  · simp only [State.setFld_frame, State.setBit_frame]
  · simp only [State.setFld_frame, State.setBit_frame]
    exact Sparse.filter_wfFrom _ h

theorem State.railsOff_frame (s : State)  : (State.railsOff s).pending = s.pending ∧ (Memory.wf s.mem = true → Memory.wf (State.railsOff s).mem = true) := by
  unfold State.railsOff
  refine ⟨?_, fun h => ?_⟩
  · repeat' first
      | (simp only [implies_true, and_self, and_true, true_and, apply_ite State.pending, State.wipe_frame, State.setFld_frame, State.setBit_frame]; done)
      | (simp (maxDischargeDepth := 8) only [foldl_P, implies_true, and_self, and_true, true_and, apply_ite State.pending, State.wipe_frame, State.setFld_frame, State.setBit_frame]; done)
      | (with_reducible refine foldl_P _ _ _ (fun s a => ?_))
      | split
      | (simp only [implies_true, and_self, and_true, true_and, apply_ite State.pending, State.wipe_frame, State.setFld_frame, State.setBit_frame])
  · repeat' first
      | with_reducible assumption
      | (with_reducible refine wf_ite ?_ ?_)
      | (with_reducible refine (State.wipe_frame ..).2 ?_)
      | (with_reducible refine wf_eq (State.setFld_frame ..).2.2 ?_)
      | (with_reducible refine wf_eq (State.setBit_frame ..).2.2 ?_)
      | (with_reducible refine foldl_wf _ _ _ (fun s a h => ?_) ?_)
      | dsimp only
      | split

theorem State.sequenceGoesOn_frame (s : State)  : (State.sequenceGoesOn s).pending = s.pending ∧ (Memory.wf s.mem = true → Memory.wf (State.sequenceGoesOn s).mem = true) := by
  unfold State.sequenceGoesOn
  refine ⟨?_, fun h => ?_⟩
  · repeat' first
      | (simp only [implies_true, and_self, and_true, true_and, apply_ite State.pending, State.mramCount_frame, State.railsOff_frame]; done)
      | (simp (maxDischargeDepth := 8) only [foldl_P, implies_true, and_self, and_true, true_and, apply_ite State.pending, State.mramCount_frame, State.railsOff_frame]; done)
      | (with_reducible refine foldl_P _ _ _ (fun s a => ?_))
      | split
      | (simp only [implies_true, and_self, and_true, true_and, apply_ite State.pending, State.mramCount_frame, State.railsOff_frame])
  · repeat' first
      | with_reducible assumption
      | (with_reducible refine wf_ite ?_ ?_)
      | (with_reducible refine (State.mramCount_frame ..).2.2 ?_)
      | (with_reducible refine (State.railsOff_frame ..).2 ?_)
      | (with_reducible refine foldl_wf _ _ _ (fun s a h => ?_) ?_)
      | dsimp only
      | split

theorem State.holdUp_frame (s : State)  : (State.holdUp s).pending = s.pending ∧ (State.holdUp s).tck.now = s.tck.now ∧ (Memory.wf s.mem = true → Memory.wf (State.holdUp s).mem = true) := by
  unfold State.holdUp
  refine (and_assoc.1 ⟨?_, fun h => ?_⟩)
  · repeat' first
      | (simp only [implies_true, and_self, and_true, true_and, apply_ite State.pending, apply_ite State.tck, apply_ite TckSt.now, State.setFld_frame, State.setBit_frame, State.powerSequence_frame]; done)
      | (simp (maxDischargeDepth := 8) only [foldl_PN, implies_true, and_self, and_true, true_and, apply_ite State.pending, apply_ite State.tck, apply_ite TckSt.now, State.setFld_frame, State.setBit_frame, State.powerSequence_frame]; done)
      | (with_reducible refine foldl_PN _ _ _ (fun s a => ?_))
      | split
      | (simp only [implies_true, and_self, and_true, true_and, apply_ite State.pending, apply_ite State.tck, apply_ite TckSt.now, State.setFld_frame, State.setBit_frame, State.powerSequence_frame])
  · repeat' first
      | with_reducible assumption
      | (with_reducible refine wf_ite ?_ ?_)
      | (with_reducible refine wf_eq (State.setFld_frame ..).2.2 ?_)
      | (with_reducible refine wf_eq (State.setBit_frame ..).2.2 ?_)
      | (with_reducible refine (State.powerSequence_frame ..).2.2 ?_)
      | (with_reducible refine foldl_wf _ _ _ (fun s a h => ?_) ?_)
      | dsimp only
      | split

theorem State.thermalShut_frame (s : State)  : (State.thermalShut s).pending = s.pending ∧ (State.thermalShut s).tck.now = s.tck.now ∧ (Memory.wf s.mem = true → Memory.wf (State.thermalShut s).mem = true) := by
  unfold State.thermalShut
  refine (and_assoc.1 ⟨?_, fun h => ?_⟩)
  · repeat' first
      | (simp only [implies_true, and_self, and_true, true_and, apply_ite State.pending, apply_ite State.tck, apply_ite TckSt.now, State.powerSequence_frame]; done)
      | (simp (maxDischargeDepth := 8) only [foldl_PN, implies_true, and_self, and_true, true_and, apply_ite State.pending, apply_ite State.tck, apply_ite TckSt.now, State.powerSequence_frame]; done)
      | (with_reducible refine foldl_PN _ _ _ (fun s a => ?_))
      | split
      | (simp only [implies_true, and_self, and_true, true_and, apply_ite State.pending, apply_ite State.tck, apply_ite TckSt.now, State.powerSequence_frame])
  · repeat' first
      | with_reducible assumption
      | (with_reducible refine wf_ite ?_ ?_)
      | (with_reducible refine (State.powerSequence_frame ..).2.2 ?_)
      | (with_reducible refine foldl_wf _ _ _ (fun s a h => ?_) ?_)
      | dsimp only
      | split

theorem State.inputReads_frame (s : State) (b : Bool) (mv : Nat)  : (State.inputReads s b mv).pending = s.pending ∧ (State.inputReads s b mv).tck.now = s.tck.now ∧ (State.inputReads s b mv).mem = s.mem := by
  unfold State.inputReads
  repeat' first
    | (simp only [implies_true, and_self, and_true, true_and, apply_ite State.pending, apply_ite State.mem, apply_ite State.tck, apply_ite TckSt.now, State.setBit_frame, State.raiseIf_frame]; done)
    | (simp (maxDischargeDepth := 8) only [foldl_PMN, implies_true, and_self, and_true, true_and, apply_ite State.pending, apply_ite State.mem, apply_ite State.tck, apply_ite TckSt.now, State.setBit_frame, State.raiseIf_frame]; done)
    | (with_reducible refine foldl_PMN _ _ _ (fun s a => ?_))
    | split
    | (simp only [implies_true, and_self, and_true, true_and, apply_ite State.pending, apply_ite State.mem, apply_ite State.tck, apply_ite TckSt.now, State.setBit_frame, State.raiseIf_frame])

theorem State.chooseInput_frame (s : State)  : (State.chooseInput s).pending = s.pending ∧ (State.chooseInput s).tck.now = s.tck.now ∧ (Memory.wf s.mem = true → Memory.wf (State.chooseInput s).mem = true) := by
  unfold State.chooseInput
  refine (and_assoc.1 ⟨?_, fun h => ?_⟩)
  · repeat' first
      | (simp only [implies_true, and_self, and_true, true_and, apply_ite State.pending, apply_ite State.tck, apply_ite TckSt.now, State.setFld_frame, State.setBit_frame, State.switchTo_frame, State.holdUp_frame, State.returnShown_frame]; done)
      | (simp (maxDischargeDepth := 8) only [foldl_PN, implies_true, and_self, and_true, true_and, apply_ite State.pending, apply_ite State.tck, apply_ite TckSt.now, State.setFld_frame, State.setBit_frame, State.switchTo_frame, State.holdUp_frame, State.returnShown_frame]; done)
      | (with_reducible refine foldl_PN _ _ _ (fun s a => ?_))
      | split
      | (simp only [implies_true, and_self, and_true, true_and, apply_ite State.pending, apply_ite State.tck, apply_ite TckSt.now, State.setFld_frame, State.setBit_frame, State.switchTo_frame, State.holdUp_frame, State.returnShown_frame])
  · repeat' first
      | with_reducible assumption
      | (with_reducible refine wf_ite ?_ ?_)
      | (with_reducible refine wf_eq (State.setFld_frame ..).2.2 ?_)
      | (with_reducible refine wf_eq (State.setBit_frame ..).2.2 ?_)
      | (with_reducible refine wf_eq (State.switchTo_frame ..).2.2 ?_)
      | (with_reducible refine (State.holdUp_frame ..).2.2 ?_)
      | (with_reducible refine wf_eq (State.returnShown_frame ..).2.2 ?_)
      | (with_reducible refine foldl_wf _ _ _ (fun s a h => ?_) ?_)
      | dsimp only
      | split

theorem State.inputChange_frame (s : State) (b : Bool) (mv : Nat)  : (State.inputChange s b mv).pending = s.pending ∧ (State.inputChange s b mv).tck.now = s.tck.now ∧ (Memory.wf s.mem = true → Memory.wf (State.inputChange s b mv).mem = true) := by
  unfold State.inputChange
  refine (and_assoc.1 ⟨?_, fun h => ?_⟩)
  · repeat' first
      | (simp only [implies_true, and_self, and_true, true_and, apply_ite State.pending, apply_ite State.tck, apply_ite TckSt.now, State.inputReads_frame, State.chooseInput_frame]; done)
      | (simp (maxDischargeDepth := 8) only [foldl_PN, implies_true, and_self, and_true, true_and, apply_ite State.pending, apply_ite State.tck, apply_ite TckSt.now, State.inputReads_frame, State.chooseInput_frame]; done)
      | (with_reducible refine foldl_PN _ _ _ (fun s a => ?_))
      | split
      | (simp only [implies_true, and_self, and_true, true_and, apply_ite State.pending, apply_ite State.tck, apply_ite TckSt.now, State.inputReads_frame, State.chooseInput_frame])
  · repeat' first
      | with_reducible assumption
      | (with_reducible refine wf_ite ?_ ?_)
      | (with_reducible refine wf_eq (State.inputReads_frame ..).2.2 ?_)
      | (with_reducible refine (State.chooseInput_frame ..).2.2 ?_)
      | (with_reducible refine foldl_wf _ _ _ (fun s a h => ?_) ?_)
      | dsimp only
      | split

theorem State.vinReturn_frame (s : State)  : (State.vinReturn s).pending = s.pending ∧ (State.vinReturn s).tck.now = s.tck.now ∧ (State.vinReturn s).mem = s.mem := by
  unfold State.vinReturn
  repeat' first
    | (simp only [implies_true, and_self, and_true, true_and, apply_ite State.pending, apply_ite State.mem, apply_ite State.tck, apply_ite TckSt.now, State.takeBack_frame, State.returnShown_frame, State.raise_frame]; done)
    | (simp (maxDischargeDepth := 8) only [foldl_PMN, implies_true, and_self, and_true, true_and, apply_ite State.pending, apply_ite State.mem, apply_ite State.tck, apply_ite TckSt.now, State.takeBack_frame, State.returnShown_frame, State.raise_frame]; done)
    | (with_reducible refine foldl_PMN _ _ _ (fun s a => ?_))
    | split
    | (simp only [implies_true, and_self, and_true, true_and, apply_ite State.pending, apply_ite State.mem, apply_ite State.tck, apply_ite TckSt.now, State.takeBack_frame, State.returnShown_frame, State.raise_frame])

theorem State.pwrCtrlWrite_frame (s : State) (v : Word)  : (State.pwrCtrlWrite s v).pending = s.pending ∧ (State.pwrCtrlWrite s v).tck.now = s.tck.now ∧ (State.pwrCtrlWrite s v).mem = s.mem := by
  unfold State.pwrCtrlWrite
  repeat' first
    | (simp only [implies_true, and_self, and_true, true_and, apply_ite State.pending, apply_ite State.mem, apply_ite State.tck, apply_ite TckSt.now, State.storeReg_frame, State.switchTo_frame, State.returnShown_frame, State.takeBack_frame]; done)
    | (simp (maxDischargeDepth := 8) only [foldl_PMN, implies_true, and_self, and_true, true_and, apply_ite State.pending, apply_ite State.mem, apply_ite State.tck, apply_ite TckSt.now, State.storeReg_frame, State.switchTo_frame, State.returnShown_frame, State.takeBack_frame]; done)
    | (with_reducible refine foldl_PMN _ _ _ (fun s a => ?_))
    | split
    | (simp only [implies_true, and_self, and_true, true_and, apply_ite State.pending, apply_ite State.mem, apply_ite State.tck, apply_ite TckSt.now, State.storeReg_frame, State.switchTo_frame, State.returnShown_frame, State.takeBack_frame])

theorem State.setSensor_frame (s : State) (i : Nat) (f : Sensor → Sensor)  : (State.setSensor s i f).pending = s.pending ∧ (State.setSensor s i f).tck.now = s.tck.now ∧ (State.setSensor s i f).mem = s.mem := by
  unfold State.setSensor
  repeat' first
    | (simp only [implies_true, and_self, and_true, true_and, apply_ite State.pending, apply_ite State.mem, apply_ite State.tck, apply_ite TckSt.now]; done)
    | (simp (maxDischargeDepth := 8) only [foldl_PMN, implies_true, and_self, and_true, true_and, apply_ite State.pending, apply_ite State.mem, apply_ite State.tck, apply_ite TckSt.now]; done)
    | (with_reducible refine foldl_PMN _ _ _ (fun s a => ?_))
    | split
    | (simp only [implies_true, and_self, and_true, true_and, apply_ite State.pending, apply_ite State.mem, apply_ite State.tck, apply_ite TckSt.now])

theorem State.takeSample_frame (s o : State) (i : Nat) (v : Int)  : (State.takeSample s o i v).pending = s.pending ∧ (State.takeSample s o i v).tck.now = s.tck.now ∧ (State.takeSample s o i v).mem = s.mem := by
  unfold State.takeSample
  repeat' first
    | (simp only [implies_true, and_self, and_true, true_and, apply_ite State.pending, apply_ite State.mem, apply_ite State.tck, apply_ite TckSt.now, State.setFld_frame, State.setBit_frame, State.chanOk_frame, State.setSensor_frame, State.bump_frame, State.chanFault_frame]; done)
    | (simp (maxDischargeDepth := 8) only [foldl_PMN, implies_true, and_self, and_true, true_and, apply_ite State.pending, apply_ite State.mem, apply_ite State.tck, apply_ite TckSt.now, State.setFld_frame, State.setBit_frame, State.chanOk_frame, State.setSensor_frame, State.bump_frame, State.chanFault_frame]; done)
    | (with_reducible refine foldl_PMN _ _ _ (fun s a => ?_))
    | split
    | (simp only [implies_true, and_self, and_true, true_and, apply_ite State.pending, apply_ite State.mem, apply_ite State.tck, apply_ite TckSt.now, State.setFld_frame, State.setBit_frame, State.chanOk_frame, State.setSensor_frame, State.bump_frame, State.chanFault_frame])

theorem State.settleLevel_frame (s : State)  : (State.settleLevel s).pending = s.pending ∧ (State.settleLevel s).tck.now = s.tck.now ∧ (State.settleLevel s).mem = s.mem := by
  unfold State.settleLevel
  repeat' first
    | (simp only [implies_true, and_self, and_true, true_and, apply_ite State.pending, apply_ite State.mem, apply_ite State.tck, apply_ite TckSt.now, State.setFld_frame, State.raiseIf_frame, State.raise_frame, State.rsvLevel_frame, State.calLevel_frame]; done)
    | (simp (maxDischargeDepth := 8) only [foldl_PMN, implies_true, and_self, and_true, true_and, apply_ite State.pending, apply_ite State.mem, apply_ite State.tck, apply_ite TckSt.now, State.setFld_frame, State.raiseIf_frame, State.raise_frame, State.rsvLevel_frame, State.calLevel_frame]; done)
    | (with_reducible refine foldl_PMN _ _ _ (fun s a => ?_))
    | split
    | (simp only [implies_true, and_self, and_true, true_and, apply_ite State.pending, apply_ite State.mem, apply_ite State.tck, apply_ite TckSt.now, State.setFld_frame, State.raiseIf_frame, State.raise_frame, State.rsvLevel_frame, State.calLevel_frame])

theorem State.sensorRetire_frame (s : State) (i : Nat)  : (State.sensorRetire s i).pending = s.pending ∧ (State.sensorRetire s i).tck.now = s.tck.now ∧ (State.sensorRetire s i).mem = s.mem := by
  unfold State.sensorRetire
  repeat' first
    | (simp only [implies_true, and_self, and_true, true_and, apply_ite State.pending, apply_ite State.mem, apply_ite State.tck, apply_ite TckSt.now, State.retire_frame, State.setBit_frame, State.raise_frame, State.setSensor_frame, State.setFld_frame, State.settleLevel_frame]; done)
    | (simp (maxDischargeDepth := 8) only [foldl_PMN, implies_true, and_self, and_true, true_and, apply_ite State.pending, apply_ite State.mem, apply_ite State.tck, apply_ite TckSt.now, State.retire_frame, State.setBit_frame, State.raise_frame, State.setSensor_frame, State.setFld_frame, State.settleLevel_frame]; done)
    | (with_reducible refine foldl_PMN _ _ _ (fun s a => ?_))
    | split
    | (simp only [implies_true, and_self, and_true, true_and, apply_ite State.pending, apply_ite State.mem, apply_ite State.tck, apply_ite TckSt.now, State.retire_frame, State.setBit_frame, State.raise_frame, State.setSensor_frame, State.setFld_frame, State.settleLevel_frame])

theorem State.sensorRestore_frame (s : State) (m : Nat)  : (State.sensorRestore s m).pending = s.pending ∧ (State.sensorRestore s m).tck.now = s.tck.now ∧ (State.sensorRestore s m).mem = s.mem := by
  unfold State.sensorRestore
  repeat' first
    | (simp only [implies_true, and_self, and_true, true_and, apply_ite State.pending, apply_ite State.mem, apply_ite State.tck, apply_ite TckSt.now, State.unretire_frame, State.setSensor_frame, State.settleLevel_frame]; done)
    | (simp (maxDischargeDepth := 8) only [foldl_PMN, implies_true, and_self, and_true, true_and, apply_ite State.pending, apply_ite State.mem, apply_ite State.tck, apply_ite TckSt.now, State.unretire_frame, State.setSensor_frame, State.settleLevel_frame]; done)
    | (with_reducible refine foldl_PMN _ _ _ (fun s a => ?_))
    | split
    | (simp only [implies_true, and_self, and_true, true_and, apply_ite State.pending, apply_ite State.mem, apply_ite State.tck, apply_ite TckSt.now, State.unretire_frame, State.setSensor_frame, State.settleLevel_frame])

theorem State.thresholds_frame (s : State) (h : Int)  : (State.thresholds s h).pending = s.pending ∧ (State.thresholds s h).tck.now = s.tck.now ∧ (Memory.wf s.mem = true → Memory.wf (State.thresholds s h).mem = true) := by
  unfold State.thresholds
  refine (and_assoc.1 ⟨?_, fun h => ?_⟩)
  · repeat' first
      | (simp only [implies_true, and_self, and_true, true_and, apply_ite State.pending, apply_ite State.tck, apply_ite TckSt.now, State.setBit_frame, State.raiseIf_frame, State.bump_frame, State.raise_frame, State.thermalShut_frame]; done)
      | (simp (maxDischargeDepth := 8) only [foldl_PN, implies_true, and_self, and_true, true_and, apply_ite State.pending, apply_ite State.tck, apply_ite TckSt.now, State.setBit_frame, State.raiseIf_frame, State.bump_frame, State.raise_frame, State.thermalShut_frame]; done)
      | (with_reducible refine foldl_PN _ _ _ (fun s a => ?_))
      | split
      | (simp only [implies_true, and_self, and_true, true_and, apply_ite State.pending, apply_ite State.tck, apply_ite TckSt.now, State.setBit_frame, State.raiseIf_frame, State.bump_frame, State.raise_frame, State.thermalShut_frame])
  · repeat' first
      | with_reducible assumption
      | (with_reducible refine wf_ite ?_ ?_)
      | (with_reducible refine wf_eq (State.setBit_frame ..).2.2 ?_)
      | (with_reducible refine wf_eq (State.raiseIf_frame ..).2.2 ?_)
      | (with_reducible refine wf_eq (State.bump_frame ..).2.2 ?_)
      | (with_reducible refine wf_eq (State.raise_frame ..).2.2 ?_)
      | (with_reducible refine (State.thermalShut_frame ..).2.2 ?_)
      | (with_reducible refine foldl_wf _ _ _ (fun s a h => ?_) ?_)
      | dsimp only
      | split

theorem State.hwStep_frame (s : State) (l : Nat)  : (State.hwStep s l).pending = s.pending ∧ (State.hwStep s l).tck.now = s.tck.now ∧ (State.hwStep s l).mem = s.mem := by
  unfold State.hwStep
  repeat' first
    | (simp only [implies_true, and_self, and_true, true_and, apply_ite State.pending, apply_ite State.mem, apply_ite State.tck, apply_ite TckSt.now, State.setFld_frame]; done)
    | (simp (maxDischargeDepth := 8) only [foldl_PMN, implies_true, and_self, and_true, true_and, apply_ite State.pending, apply_ite State.mem, apply_ite State.tck, apply_ite TckSt.now, State.setFld_frame]; done)
    | (with_reducible refine foldl_PMN _ _ _ (fun s a => ?_))
    | split
    | (simp only [implies_true, and_self, and_true, true_and, apply_ite State.pending, apply_ite State.mem, apply_ite State.tck, apply_ite TckSt.now, State.setFld_frame])

theorem State.freezeStep_frame (s : State) (h : Option Int)  : (State.freezeStep s h).1.pending = s.pending ∧ (State.freezeStep s h).1.tck.now = s.tck.now ∧ (State.freezeStep s h).1.mem = s.mem := by
  unfold State.freezeStep
  repeat' first
    | (simp only [implies_true, and_self, and_true, true_and, apply_ite State.pending, apply_ite State.mem, apply_ite State.tck, apply_ite TckSt.now, State.setBit_frame]; done)
    | (simp (maxDischargeDepth := 8) only [foldl_PMN, implies_true, and_self, and_true, true_and, apply_ite State.pending, apply_ite State.mem, apply_ite State.tck, apply_ite TckSt.now, State.setBit_frame]; done)
    | (with_reducible refine foldl_PMN _ _ _ (fun s a => ?_))
    | split
    | (simp only [implies_true, and_self, and_true, true_and, apply_ite State.pending, apply_ite State.mem, apply_ite State.tck, apply_ite TckSt.now, State.setBit_frame])

theorem State.throttle_frame (s : State) (h : Option Int)  : (State.throttle s h).pending = s.pending ∧ (State.throttle s h).tck.now = s.tck.now ∧ (State.throttle s h).mem = s.mem := by
  unfold State.throttle
  refine ⟨?_, ?_, ?_⟩
  · repeat' first
      | with_reducible assumption
      | with_reducible rfl
      | (with_reducible refine alP_ite ?_ ?_)
      | (with_reducible refine alP_itep0 ?_ ?_)
      | (with_reducible refine alP_itep1 ?_ ?_)
      | (with_reducible refine Eq.trans (State.freezeStep_frame ..).1 ?_)
      | (with_reducible refine alP_pair0 (by assumption) (Eq.trans (State.freezeStep_frame ..).1 ?_))
      | (with_reducible refine Eq.trans (State.hwStep_frame ..).1 ?_)
      | dsimp only
      | split
  · repeat' first
      | with_reducible assumption
      | with_reducible rfl
      | (with_reducible refine alN_ite ?_ ?_)
      | (with_reducible refine alN_itep0 ?_ ?_)
      | (with_reducible refine alN_itep1 ?_ ?_)
      | (with_reducible refine Eq.trans (State.freezeStep_frame ..).2.1 ?_)
      | (with_reducible refine alN_pair0 (by assumption) (Eq.trans (State.freezeStep_frame ..).2.1 ?_))
      | (with_reducible refine Eq.trans (State.hwStep_frame ..).2.1 ?_)
      | dsimp only
      | split
  · repeat' first
      | with_reducible assumption
      | with_reducible rfl
      | (with_reducible refine alM_ite ?_ ?_)
      | (with_reducible refine alM_itep0 ?_ ?_)
      | (with_reducible refine alM_itep1 ?_ ?_)
      | (with_reducible refine Eq.trans (State.freezeStep_frame ..).2.2 ?_)
      | (with_reducible refine alM_pair0 (by assumption) (Eq.trans (State.freezeStep_frame ..).2.2 ?_))
      | (with_reducible refine Eq.trans (State.hwStep_frame ..).2.2 ?_)
      | dsimp only
      | split

theorem State.evaluate_frame (s : State) (l : List (BitVec 16))  : (State.evaluate s l).pending = s.pending ∧ (State.evaluate s l).tck.now = s.tck.now ∧ (Memory.wf s.mem = true → Memory.wf (State.evaluate s l).mem = true) := by
  unfold State.evaluate
  refine ⟨?_, ?_, fun h => ?_⟩
  · repeat' first
      | with_reducible assumption
      | with_reducible rfl
      | (with_reducible refine alP_ite ?_ ?_)
      | (with_reducible refine alP_itep0 ?_ ?_)
      | (with_reducible refine alP_itep1 ?_ ?_)
      | (with_reducible refine Eq.trans (State.sensorRetire_frame ..).1 ?_)
      | (with_reducible refine Eq.trans (State.takeSample_frame ..).1 ?_)
      | (with_reducible refine Eq.trans (State.setRegN_frame ..).1 ?_)
      | (with_reducible refine Eq.trans (State.setFld_frame ..).1 ?_)
      | (with_reducible refine Eq.trans (State.setSensor_frame ..).1 ?_)
      | (with_reducible refine Eq.trans (State.thresholds_frame ..).1 ?_)
      | (with_reducible refine Eq.trans (State.throttle_frame ..).1 ?_)
      | (with_reducible refine Eq.trans (State.settleLevel_frame ..).1 ?_)
      | (with_reducible refine Eq.trans (State.setBit_frame ..).1 ?_)
      | (with_reducible refine alP_fold0 _ _ _ (fun r a h => ?_) ?_)
      | (with_reducible refine alP_fold1 _ _ _ (fun r a h => ?_) ?_)
      | (with_reducible refine alP_fold2 _ _ _ (fun r a h => ?_) ?_)
      | dsimp only
      | split
  · repeat' first
      | with_reducible assumption
      | with_reducible rfl
      | (with_reducible refine alN_ite ?_ ?_)
      | (with_reducible refine alN_itep0 ?_ ?_)
      | (with_reducible refine alN_itep1 ?_ ?_)
      | (with_reducible refine Eq.trans (State.sensorRetire_frame ..).2.1 ?_)
      | (with_reducible refine Eq.trans (State.takeSample_frame ..).2.1 ?_)
      | (with_reducible refine Eq.trans (State.setRegN_frame ..).2.1 ?_)
      | (with_reducible refine Eq.trans (State.setFld_frame ..).2.1 ?_)
      | (with_reducible refine Eq.trans (State.setSensor_frame ..).2.1 ?_)
      | (with_reducible refine Eq.trans (State.thresholds_frame ..).2.1 ?_)
      | (with_reducible refine Eq.trans (State.throttle_frame ..).2.1 ?_)
      | (with_reducible refine Eq.trans (State.settleLevel_frame ..).2.1 ?_)
      | (with_reducible refine Eq.trans (State.setBit_frame ..).2.1 ?_)
      | (with_reducible refine alN_fold0 _ _ _ (fun r a h => ?_) ?_)
      | (with_reducible refine alN_fold1 _ _ _ (fun r a h => ?_) ?_)
      | (with_reducible refine alN_fold2 _ _ _ (fun r a h => ?_) ?_)
      | dsimp only
      | split
  · repeat' first
      | with_reducible assumption
      | with_reducible rfl
      | (with_reducible refine alW_ite ?_ ?_)
      | (with_reducible refine alW_itep0 ?_ ?_)
      | (with_reducible refine alW_itep1 ?_ ?_)
      | (with_reducible refine wf_eq (State.sensorRetire_frame ..).2.2 ?_)
      | (with_reducible refine wf_eq (State.takeSample_frame ..).2.2 ?_)
      | (with_reducible refine wf_eq (State.setRegN_frame ..).2.2 ?_)
      | (with_reducible refine wf_eq (State.setFld_frame ..).2.2 ?_)
      | (with_reducible refine wf_eq (State.setSensor_frame ..).2.2 ?_)
      | (with_reducible refine (State.thresholds_frame ..).2.2 ?_)
      | (with_reducible refine wf_eq (State.throttle_frame ..).2.2 ?_)
      | (with_reducible refine wf_eq (State.settleLevel_frame ..).2.2 ?_)
      | (with_reducible refine wf_eq (State.setBit_frame ..).2.2 ?_)
      | (with_reducible refine alW_fold0 _ _ _ (fun r a h => ?_) ?_)
      | (with_reducible refine alW_fold1 _ _ _ (fun r a h => ?_) ?_)
      | (with_reducible refine alW_fold2 _ _ _ (fun r a h => ?_) ?_)
      | dsimp only
      | split

theorem State.thmCtrlWrite_frame (s : State) (v : Word)  : (State.thmCtrlWrite s v).pending = s.pending ∧ (State.thmCtrlWrite s v).tck.now = s.tck.now ∧ (State.thmCtrlWrite s v).mem = s.mem := by
  unfold State.thmCtrlWrite
  repeat' first
    | (simp only [implies_true, and_self, and_true, true_and, apply_ite State.pending, apply_ite State.mem, apply_ite State.tck, apply_ite TckSt.now, State.storeReg_frame, State.settleLevel_frame]; done)
    | (simp (maxDischargeDepth := 8) only [foldl_PMN, implies_true, and_self, and_true, true_and, apply_ite State.pending, apply_ite State.mem, apply_ite State.tck, apply_ite TckSt.now, State.storeReg_frame, State.settleLevel_frame]; done)
    | (with_reducible refine foldl_PMN _ _ _ (fun s a => ?_))
    | split
    | (simp only [implies_true, and_self, and_true, true_and, apply_ite State.pending, apply_ite State.mem, apply_ite State.tck, apply_ite TckSt.now, State.storeReg_frame, State.settleLevel_frame])

theorem State.thmShutWrite_frame (s : State) (m : Nat) (v : Word)  : (State.thmShutWrite s m v).pending = s.pending ∧ (State.thmShutWrite s m v).tck.now = s.tck.now ∧ (State.thmShutWrite s m v).mem = s.mem := by
  unfold State.thmShutWrite
  repeat' first
    | (simp only [implies_true, and_self, and_true, true_and, apply_ite State.pending, apply_ite State.mem, apply_ite State.tck, apply_ite TckSt.now, State.refuseWrite_frame, State.setFld_frame]; done)
    | (simp (maxDischargeDepth := 8) only [foldl_PMN, implies_true, and_self, and_true, true_and, apply_ite State.pending, apply_ite State.mem, apply_ite State.tck, apply_ite TckSt.now, State.refuseWrite_frame, State.setFld_frame]; done)
    | (with_reducible refine foldl_PMN _ _ _ (fun s a => ?_))
    | split
    | (simp only [implies_true, and_self, and_true, true_and, apply_ite State.pending, apply_ite State.mem, apply_ite State.tck, apply_ite TckSt.now, State.refuseWrite_frame, State.setFld_frame])

theorem execFlushDone_frame (s : State) {r : State} (e : execFlushDone s = .next r) : r.pending = s.pending ∧ (Memory.wf s.mem = true → Memory.wf r.mem = true) := by
  unfold execFlushDone at e
  revert e
  intro e
  refine ⟨?_, fun h => ?_⟩
  · revert e
    repeat' first
      | with_reducible assumption
      | with_reducible rfl
      | (with_reducible refine Eq.trans (State.flushDone_frame ..).1 ?_)
      | (with_reducible refine Eq.trans (State.sequenceGoesOn_frame ..).1 ?_)
      | (with_reducible refine ocP_next ?_)
      | with_reducible exact ocP_fault
      | dsimp only
      | split
  · revert e
    repeat' first
      | with_reducible assumption
      | with_reducible rfl
      | (with_reducible refine (State.flushDone_frame ..).2.2 ?_)
      | (with_reducible refine (State.sequenceGoesOn_frame ..).2 ?_)
      | (with_reducible refine ocW_next ?_)
      | with_reducible exact ocW_fault
      | dsimp only
      | split

theorem execVinInvalid_frame (b : Bool) (mv : BitVec 16) (cycle : Nat) (s : State) {r : State} (e : execVinInvalid b mv cycle s = .next r) : r.pending = s.pending ∧ r.tck.now = s.tck.now ∧ (Memory.wf s.mem = true → Memory.wf r.mem = true) := by
  unfold execVinInvalid at e
  revert e
  intro e
  refine ⟨?_, ?_, fun h => ?_⟩
  · revert e
    repeat' first
      | with_reducible assumption
      | with_reducible rfl
      | (with_reducible refine Eq.trans (State.atCycle_frame ..).1 ?_)
      | (with_reducible refine Eq.trans (State.inputChange_frame ..).1 ?_)
      | (with_reducible refine ocP_next ?_)
      | with_reducible exact ocP_fault
      | dsimp only
      | split
  · revert e
    repeat' first
      | with_reducible assumption
      | with_reducible rfl
      | (with_reducible refine Eq.trans (State.atCycle_frame ..).2.1 ?_)
      | (with_reducible refine Eq.trans (State.inputChange_frame ..).2.1 ?_)
      | (with_reducible refine ocN_next ?_)
      | with_reducible exact ocN_fault
      | dsimp only
      | split
  · revert e
    repeat' first
      | with_reducible assumption
      | with_reducible rfl
      | (with_reducible refine wf_eq (State.atCycle_frame ..).2.2 ?_)
      | (with_reducible refine (State.inputChange_frame ..).2.2 ?_)
      | (with_reducible refine ocW_next ?_)
      | with_reducible exact ocW_fault
      | dsimp only
      | split

theorem execVinValid_frame (b : Bool) (mv : BitVec 16) (cycle : Nat) (s : State) {r : State} (e : execVinValid b mv cycle s = .next r) : r.pending = s.pending ∧ r.tck.now = s.tck.now ∧ (Memory.wf s.mem = true → Memory.wf r.mem = true) := by
  unfold execVinValid at e
  revert e
  intro e
  refine ⟨?_, ?_, fun h => ?_⟩
  · revert e
    repeat' first
      | with_reducible assumption
      | with_reducible rfl
      | (with_reducible refine Eq.trans (State.atCycle_frame ..).1 ?_)
      | (with_reducible refine Eq.trans (State.inputChange_frame ..).1 ?_)
      | (with_reducible refine ocP_next ?_)
      | with_reducible exact ocP_fault
      | dsimp only
      | split
  · revert e
    repeat' first
      | with_reducible assumption
      | with_reducible rfl
      | (with_reducible refine Eq.trans (State.atCycle_frame ..).2.1 ?_)
      | (with_reducible refine Eq.trans (State.inputChange_frame ..).2.1 ?_)
      | (with_reducible refine ocN_next ?_)
      | with_reducible exact ocN_fault
      | dsimp only
      | split
  · revert e
    repeat' first
      | with_reducible assumption
      | with_reducible rfl
      | (with_reducible refine wf_eq (State.atCycle_frame ..).2.2 ?_)
      | (with_reducible refine (State.inputChange_frame ..).2.2 ?_)
      | (with_reducible refine ocW_next ?_)
      | with_reducible exact ocW_fault
      | dsimp only
      | split

theorem execVinReturn_frame (cycle : Nat) (s : State) {r : State} (e : execVinReturn cycle s = .next r) : r.pending = s.pending ∧ r.tck.now = s.tck.now ∧ r.mem = s.mem := by
  unfold execVinReturn at e
  revert e
  intro e
  refine ⟨?_, ?_, ?_⟩
  · revert e
    repeat' first
      | with_reducible assumption
      | with_reducible rfl
      | (with_reducible refine Eq.trans (State.atCycle_frame ..).1 ?_)
      | (with_reducible refine Eq.trans (State.vinReturn_frame ..).1 ?_)
      | (with_reducible refine ocP_next ?_)
      | with_reducible exact ocP_fault
      | dsimp only
      | split
  · revert e
    repeat' first
      | with_reducible assumption
      | with_reducible rfl
      | (with_reducible refine Eq.trans (State.atCycle_frame ..).2.1 ?_)
      | (with_reducible refine Eq.trans (State.vinReturn_frame ..).2.1 ?_)
      | (with_reducible refine ocN_next ?_)
      | with_reducible exact ocN_fault
      | dsimp only
      | split
  · revert e
    repeat' first
      | with_reducible assumption
      | with_reducible rfl
      | (with_reducible refine Eq.trans (State.atCycle_frame ..).2.2 ?_)
      | (with_reducible refine Eq.trans (State.vinReturn_frame ..).2.2 ?_)
      | (with_reducible refine ocM_next ?_)
      | with_reducible exact ocM_fault
      | dsimp only
      | split

theorem execTestBWrite_frame (m : Fin 8) (testB : Bool) (s : State) {r : State} (e : execTestBWrite m testB s = .next r) : r.pending = s.pending ∧ r.tck.now = s.tck.now ∧ r.mem = s.mem := by
  unfold execTestBWrite at e
  revert e
  intro e
  refine ⟨?_, ?_, ?_⟩
  · revert e
    repeat' first
      | with_reducible assumption
      | with_reducible rfl
      | (with_reducible refine Eq.trans (State.gateWrite_frP (heff := fun _ => ?_) ..) ?_)
      | (with_reducible refine Eq.trans (State.pwrCtrlWrite_frame ..).1 ?_)
      | (with_reducible refine ocP_next ?_)
      | with_reducible exact ocP_fault
      | dsimp only
      | split
  · revert e
    repeat' first
      | with_reducible assumption
      | with_reducible rfl
      | (with_reducible refine Eq.trans (State.gateWrite_frN (heff := fun _ => ?_) ..) ?_)
      | (with_reducible refine Eq.trans (State.pwrCtrlWrite_frame ..).2.1 ?_)
      | (with_reducible refine ocN_next ?_)
      | with_reducible exact ocN_fault
      | dsimp only
      | split
  · revert e
    repeat' first
      | with_reducible assumption
      | with_reducible rfl
      | (with_reducible refine Eq.trans (State.gateWrite_frM (heff := fun _ => ?_) ..) ?_)
      | (with_reducible refine Eq.trans (State.pwrCtrlWrite_frame ..).2.2 ?_)
      | (with_reducible refine ocM_next ?_)
      | with_reducible exact ocM_fault
      | dsimp only
      | split

theorem execThermalEvaluation_frame (samples : List (BitVec 16)) (s : State) {r : State} (e : execThermalEvaluation samples s = .next r) : r.pending = s.pending ∧ r.tck.now = s.tck.now ∧ (Memory.wf s.mem = true → Memory.wf r.mem = true) := by
  unfold execThermalEvaluation at e
  revert e
  intro e
  refine ⟨?_, ?_, fun h => ?_⟩
  · revert e
    repeat' first
      | with_reducible assumption
      | with_reducible rfl
      | (with_reducible refine alP_ite ?_ ?_)
      | (with_reducible refine Eq.trans (State.evaluate_frame ..).1 ?_)
      | (with_reducible refine ocP_next ?_)
      | with_reducible exact ocP_fault
      | (with_reducible refine ocP_ite ?_ ?_)
      | dsimp only
      | split
  · revert e
    repeat' first
      | with_reducible assumption
      | with_reducible rfl
      | (with_reducible refine alN_ite ?_ ?_)
      | (with_reducible refine Eq.trans (State.evaluate_frame ..).2.1 ?_)
      | (with_reducible refine ocN_next ?_)
      | with_reducible exact ocN_fault
      | (with_reducible refine ocN_ite ?_ ?_)
      | dsimp only
      | split
  · revert e
    repeat' first
      | with_reducible assumption
      | with_reducible rfl
      | (with_reducible refine alW_ite ?_ ?_)
      | (with_reducible refine (State.evaluate_frame ..).2.2 ?_)
      | (with_reducible refine ocW_next ?_)
      | with_reducible exact ocW_fault
      | (with_reducible refine ocW_ite ?_ ?_)
      | dsimp only
      | split

theorem execSensorRetire_frame (i : Fin 16) (s : State) {r : State} (e : execSensorRetire i s = .next r) : r.pending = s.pending ∧ r.tck.now = s.tck.now ∧ r.mem = s.mem := by
  unfold execSensorRetire at e
  revert e
  intro e
  refine ⟨?_, ?_, ?_⟩
  · revert e
    repeat' first
      | with_reducible assumption
      | with_reducible rfl
      | (with_reducible refine Eq.trans (State.sensorRetire_frame ..).1 ?_)
      | (with_reducible refine ocP_next ?_)
      | with_reducible exact ocP_fault
      | dsimp only
      | split
  · revert e
    repeat' first
      | with_reducible assumption
      | with_reducible rfl
      | (with_reducible refine Eq.trans (State.sensorRetire_frame ..).2.1 ?_)
      | (with_reducible refine ocN_next ?_)
      | with_reducible exact ocN_fault
      | dsimp only
      | split
  · revert e
    repeat' first
      | with_reducible assumption
      | with_reducible rfl
      | (with_reducible refine Eq.trans (State.sensorRetire_frame ..).2.2 ?_)
      | (with_reducible refine ocM_next ?_)
      | with_reducible exact ocM_fault
      | dsimp only
      | split

theorem execSensorRestore_frame (m : Fin 8) (mask : BitVec 16) (s : State) {r : State} (e : execSensorRestore m mask s = .next r) : r.pending = s.pending ∧ r.tck.now = s.tck.now ∧ r.mem = s.mem := by
  unfold execSensorRestore at e
  revert e
  intro e
  refine ⟨?_, ?_, ?_⟩
  · revert e
    repeat' first
      | with_reducible assumption
      | with_reducible rfl
      | (with_reducible refine Eq.trans (State.gateWrite_frP (heff := fun _ => ?_) ..) ?_)
      | (with_reducible refine Eq.trans (State.sensorRestore_frame ..).1 ?_)
      | (with_reducible refine ocP_next ?_)
      | with_reducible exact ocP_fault
      | dsimp only
      | split
  · revert e
    repeat' first
      | with_reducible assumption
      | with_reducible rfl
      | (with_reducible refine Eq.trans (State.gateWrite_frN (heff := fun _ => ?_) ..) ?_)
      | (with_reducible refine Eq.trans (State.sensorRestore_frame ..).2.1 ?_)
      | (with_reducible refine ocN_next ?_)
      | with_reducible exact ocN_fault
      | dsimp only
      | split
  · revert e
    repeat' first
      | with_reducible assumption
      | with_reducible rfl
      | (with_reducible refine Eq.trans (State.gateWrite_frM (heff := fun _ => ?_) ..) ?_)
      | (with_reducible refine Eq.trans (State.sensorRestore_frame ..).2.2 ?_)
      | (with_reducible refine ocM_next ?_)
      | with_reducible exact ocM_fault
      | dsimp only
      | split

theorem execAck_frame (m : Fin 8) (floor : Fin 4) (s : State) {r : State} (e : execAck m floor s = .next r) : r.pending = s.pending ∧ r.tck.now = s.tck.now ∧ r.mem = s.mem := by
  unfold execAck at e
  revert e
  intro e
  refine ⟨?_, ?_, ?_⟩
  · revert e
    repeat' first
      | with_reducible assumption
      | with_reducible rfl
      | (with_reducible refine Eq.trans (State.gateWrite_frP (heff := fun _ => ?_) ..) ?_)
      | (with_reducible refine Eq.trans (State.thmCtrlWrite_frame ..).1 ?_)
      | (with_reducible refine ocP_next ?_)
      | with_reducible exact ocP_fault
      | dsimp only
      | split
  · revert e
    repeat' first
      | with_reducible assumption
      | with_reducible rfl
      | (with_reducible refine Eq.trans (State.gateWrite_frN (heff := fun _ => ?_) ..) ?_)
      | (with_reducible refine Eq.trans (State.thmCtrlWrite_frame ..).2.1 ?_)
      | (with_reducible refine ocN_next ?_)
      | with_reducible exact ocN_fault
      | dsimp only
      | split
  · revert e
    repeat' first
      | with_reducible assumption
      | with_reducible rfl
      | (with_reducible refine Eq.trans (State.gateWrite_frM (heff := fun _ => ?_) ..) ?_)
      | (with_reducible refine Eq.trans (State.thmCtrlWrite_frame ..).2.2 ?_)
      | (with_reducible refine ocM_next ?_)
      | with_reducible exact ocM_fault
      | dsimp only
      | split

theorem execSwFloorWrite_frame (m : Fin 8) (floor : Fin 4) (s : State) {r : State} (e : execSwFloorWrite m floor s = .next r) : r.pending = s.pending ∧ r.tck.now = s.tck.now ∧ r.mem = s.mem := by
  unfold execSwFloorWrite at e
  revert e
  intro e
  refine ⟨?_, ?_, ?_⟩
  · revert e
    repeat' first
      | with_reducible assumption
      | with_reducible rfl
      | (with_reducible refine Eq.trans (State.gateWrite_frP (heff := fun _ => ?_) ..) ?_)
      | (with_reducible refine Eq.trans (State.thmCtrlWrite_frame ..).1 ?_)
      | (with_reducible refine ocP_next ?_)
      | with_reducible exact ocP_fault
      | dsimp only
      | split
  · revert e
    repeat' first
      | with_reducible assumption
      | with_reducible rfl
      | (with_reducible refine Eq.trans (State.gateWrite_frN (heff := fun _ => ?_) ..) ?_)
      | (with_reducible refine Eq.trans (State.thmCtrlWrite_frame ..).2.1 ?_)
      | (with_reducible refine ocN_next ?_)
      | with_reducible exact ocN_fault
      | dsimp only
      | split
  · revert e
    repeat' first
      | with_reducible assumption
      | with_reducible rfl
      | (with_reducible refine Eq.trans (State.gateWrite_frM (heff := fun _ => ?_) ..) ?_)
      | (with_reducible refine Eq.trans (State.thmCtrlWrite_frame ..).2.2 ?_)
      | (with_reducible refine ocM_next ?_)
      | with_reducible exact ocM_fault
      | dsimp only
      | split

theorem execThmShutWrite_frame (m : Fin 8) (v : Word) (s : State) {r : State} (e : execThmShutWrite m v s = .next r) : r.pending = s.pending ∧ r.tck.now = s.tck.now ∧ r.mem = s.mem := by
  unfold execThmShutWrite at e
  revert e
  intro e
  refine ⟨?_, ?_, ?_⟩
  · revert e
    repeat' first
      | with_reducible assumption
      | with_reducible rfl
      | (with_reducible refine Eq.trans (State.gateWrite_frP (heff := fun _ => ?_) ..) ?_)
      | (with_reducible refine Eq.trans (State.thmShutWrite_frame ..).1 ?_)
      | (with_reducible refine ocP_next ?_)
      | with_reducible exact ocP_fault
      | dsimp only
      | split
  · revert e
    repeat' first
      | with_reducible assumption
      | with_reducible rfl
      | (with_reducible refine Eq.trans (State.gateWrite_frN (heff := fun _ => ?_) ..) ?_)
      | (with_reducible refine Eq.trans (State.thmShutWrite_frame ..).2.1 ?_)
      | (with_reducible refine ocN_next ?_)
      | with_reducible exact ocN_fault
      | dsimp only
      | split
  · revert e
    repeat' first
      | with_reducible assumption
      | with_reducible rfl
      | (with_reducible refine Eq.trans (State.gateWrite_frM (heff := fun _ => ?_) ..) ?_)
      | (with_reducible refine Eq.trans (State.thmShutWrite_frame ..).2.2 ?_)
      | (with_reducible refine ocM_next ?_)
      | with_reducible exact ocM_fault
      | dsimp only
      | split

theorem execThermalShutdown_frame (analog : Fin 4) (s : State) {r : State} (e : execThermalShutdown analog s = .next r) : r.pending = s.pending ∧ r.tck.now = s.tck.now ∧ (Memory.wf s.mem = true → Memory.wf r.mem = true) := by
  unfold execThermalShutdown at e
  revert e
  intro e
  refine ⟨?_, ?_, fun h => ?_⟩
  · revert e
    repeat' first
      | with_reducible assumption
      | with_reducible rfl
      | (with_reducible refine alP_ite ?_ ?_)
      | (with_reducible refine Eq.trans (State.thermalShut_frame ..).1 ?_)
      | (with_reducible refine Eq.trans (State.setFld_frame ..).1 ?_)
      | (with_reducible refine ocP_next ?_)
      | with_reducible exact ocP_fault
      | (with_reducible refine ocP_ite ?_ ?_)
      | dsimp only
      | split
  · revert e
    repeat' first
      | with_reducible assumption
      | with_reducible rfl
      | (with_reducible refine alN_ite ?_ ?_)
      | (with_reducible refine Eq.trans (State.thermalShut_frame ..).2.1 ?_)
      | (with_reducible refine Eq.trans (State.setFld_frame ..).2.1 ?_)
      | (with_reducible refine ocN_next ?_)
      | with_reducible exact ocN_fault
      | (with_reducible refine ocN_ite ?_ ?_)
      | dsimp only
      | split
  · revert e
    repeat' first
      | with_reducible assumption
      | with_reducible rfl
      | (with_reducible refine alW_ite ?_ ?_)
      | (with_reducible refine (State.thermalShut_frame ..).2.2 ?_)
      | (with_reducible refine wf_eq (State.setFld_frame ..).2.2 ?_)
      | (with_reducible refine ocW_next ?_)
      | with_reducible exact ocW_fault
      | (with_reducible refine ocW_ite ?_ ?_)
      | dsimp only
      | split

end Sys2Proof.Machine
end

