-- ==== Sys2Proof/Laws/FrameTakeover.lean ====
section
/-! SUPPORT. What every operation of Machine/Takeover.lean leaves alone: the queue of waiting commands, the tick counter (unless it
writes it), and memory or its canonical form. -/

namespace Sys2Proof.Machine

set_option linter.all false
set_option Elab.async false
set_option maxRecDepth 4000

theorem State.takeRes_frame (s : State) (code page : Nat)  : (State.takeRes s code page).pending = s.pending ∧ (State.takeRes s code page).tck.now = s.tck.now ∧ (State.takeRes s code page).mem = s.mem := by
  unfold State.takeRes
  repeat' first
    | (simp only [implies_true, and_self, and_true, true_and, apply_ite State.pending, apply_ite State.mem, apply_ite State.tck, apply_ite TckSt.now, State.setFld_frame]; done)
    | (simp (maxDischargeDepth := 8) only [foldl_PMN, implies_true, and_self, and_true, true_and, apply_ite State.pending, apply_ite State.mem, apply_ite State.tck, apply_ite TckSt.now, State.setFld_frame]; done)
    | (with_reducible refine foldl_PMN _ _ _ (fun s a => ?_))
    | split
    | (simp only [implies_true, and_self, and_true, true_and, apply_ite State.pending, apply_ite State.mem, apply_ite State.tck, apply_ite TckSt.now, State.setFld_frame])

theorem State.takeOpen_frame (s : State)  : (State.takeOpen s).pending = s.pending ∧ (State.takeOpen s).tck.now = s.tck.now ∧ (State.takeOpen s).mem = s.mem := by
  unfold State.takeOpen
  repeat' first
    | (simp only [implies_true, and_self, and_true, true_and, apply_ite State.pending, apply_ite State.mem, apply_ite State.tck, apply_ite TckSt.now, State.setBit_frame]; done)
    | (simp (maxDischargeDepth := 8) only [foldl_PMN, implies_true, and_self, and_true, true_and, apply_ite State.pending, apply_ite State.mem, apply_ite State.tck, apply_ite TckSt.now, State.setBit_frame]; done)
    | (with_reducible refine foldl_PMN _ _ _ (fun s a => ?_))
    | split
    | (simp only [implies_true, and_self, and_true, true_and, apply_ite State.pending, apply_ite State.mem, apply_ite State.tck, apply_ite TckSt.now, State.setBit_frame])

theorem State.scheduleCollected_frame (s : State) (k : Tick) (c : PendCommit)  : (State.scheduleCollected s k c).pending = s.pending ∧ (State.scheduleCollected s k c).tck.now = s.tck.now ∧ (State.scheduleCollected s k c).mem = s.mem := by
  unfold State.scheduleCollected
  repeat' first
    | (simp only [implies_true, and_self, and_true, true_and, apply_ite State.pending, apply_ite State.mem, apply_ite State.tck, apply_ite TckSt.now, State.journalPut_frame, State.tckTakeViews_frame, State.addCommit_frame, State.setReg64_frame]; done)
    | (simp (maxDischargeDepth := 8) only [foldl_PMN, implies_true, and_self, and_true, true_and, apply_ite State.pending, apply_ite State.mem, apply_ite State.tck, apply_ite TckSt.now, State.journalPut_frame, State.tckTakeViews_frame, State.addCommit_frame, State.setReg64_frame]; done)
    | (with_reducible refine foldl_PMN _ _ _ (fun s a => ?_))
    | split
    | (simp only [implies_true, and_self, and_true, true_and, apply_ite State.pending, apply_ite State.mem, apply_ite State.tck, apply_ite TckSt.now, State.journalPut_frame, State.tckTakeViews_frame, State.addCommit_frame, State.setReg64_frame])

theorem State.takeGo_frame (s : State)  : (State.takeGo s).pending = s.pending ∧ (State.takeGo s).tck.now = s.tck.now ∧ (State.takeGo s).mem = s.mem := by
  unfold State.takeGo
  repeat' first
    | (simp only [implies_true, and_self, and_true, true_and, apply_ite State.pending, apply_ite State.mem, apply_ite State.tck, apply_ite TckSt.now, State.takeRes_frame, State.setBit_frame, State.scheduleCollected_frame, State.addCommit_frame, State.setTransition_frame, State.announceTck_frame, State.raise_frame]; done)
    | (simp (maxDischargeDepth := 8) only [foldl_PMN, implies_true, and_self, and_true, true_and, apply_ite State.pending, apply_ite State.mem, apply_ite State.tck, apply_ite TckSt.now, State.takeRes_frame, State.setBit_frame, State.scheduleCollected_frame, State.addCommit_frame, State.setTransition_frame, State.announceTck_frame, State.raise_frame]; done)
    | (with_reducible refine foldl_PMN _ _ _ (fun s a => ?_))
    | split
    | (simp only [implies_true, and_self, and_true, true_and, apply_ite State.pending, apply_ite State.mem, apply_ite State.tck, apply_ite TckSt.now, State.takeRes_frame, State.setBit_frame, State.scheduleCollected_frame, State.addCommit_frame, State.setTransition_frame, State.announceTck_frame, State.raise_frame])

theorem State.takeAbandon_frame (s : State)  : (State.takeAbandon s).pending = s.pending ∧ (State.takeAbandon s).tck.now = s.tck.now ∧ (State.takeAbandon s).mem = s.mem := by
  unfold State.takeAbandon
  repeat' first
    | (simp only [implies_true, and_self, and_true, true_and, apply_ite State.pending, apply_ite State.mem, apply_ite State.tck, apply_ite TckSt.now, State.cancelPage_frame, State.setBit_frame, State.takeRes_frame]; done)
    | (simp (maxDischargeDepth := 8) only [foldl_PMN, implies_true, and_self, and_true, true_and, apply_ite State.pending, apply_ite State.mem, apply_ite State.tck, apply_ite TckSt.now, State.cancelPage_frame, State.setBit_frame, State.takeRes_frame]; done)
    | (with_reducible refine foldl_PMN _ _ _ (fun s a => ?_))
    | split
    | (simp only [implies_true, and_self, and_true, true_and, apply_ite State.pending, apply_ite State.mem, apply_ite State.tck, apply_ite TckSt.now, State.cancelPage_frame, State.setBit_frame, State.takeRes_frame])

theorem State.takeView_frame (s : State) (key : Nat)  : (State.takeView s key).pending = s.pending ∧ (State.takeView s key).tck.now = s.tck.now ∧ (State.takeView s key).mem = s.mem := by
  unfold State.takeView
  repeat' first
    | (simp only [implies_true, and_self, and_true, true_and, apply_ite State.pending, apply_ite State.mem, apply_ite State.tck, apply_ite TckSt.now, State.setForce_frame]; done)
    | (simp (maxDischargeDepth := 8) only [foldl_PMN, implies_true, and_self, and_true, true_and, apply_ite State.pending, apply_ite State.mem, apply_ite State.tck, apply_ite TckSt.now, State.setForce_frame]; done)
    | (with_reducible refine foldl_PMN _ _ _ (fun s a => ?_))
    | split
    | (simp only [implies_true, and_self, and_true, true_and, apply_ite State.pending, apply_ite State.mem, apply_ite State.tck, apply_ite TckSt.now, State.setForce_frame])

theorem State.adoptView_frame (s : State) (key : Nat)  : (State.adoptView s key).pending = s.pending ∧ (State.adoptView s key).tck.now = s.tck.now ∧ (State.adoptView s key).mem = s.mem := by
  unfold State.adoptView
  repeat' first
    | (simp only [implies_true, and_self, and_true, true_and, apply_ite State.pending, apply_ite State.mem, apply_ite State.tck, apply_ite TckSt.now, State.setReg_frame]; done)
    | (simp (maxDischargeDepth := 8) only [foldl_PMN, implies_true, and_self, and_true, true_and, apply_ite State.pending, apply_ite State.mem, apply_ite State.tck, apply_ite TckSt.now, State.setReg_frame]; done)
    | (with_reducible refine foldl_PMN _ _ _ (fun s a => ?_))
    | split
    | (simp only [implies_true, and_self, and_true, true_and, apply_ite State.pending, apply_ite State.mem, apply_ite State.tck, apply_ite TckSt.now, State.setReg_frame])

theorem State.takeHeld_frame (s : State)  : (State.takeHeld s).pending = s.pending ∧ (State.takeHeld s).tck.now = s.tck.now ∧ (State.takeHeld s).mem = s.mem := by
  unfold State.takeHeld
  repeat' first
    | (simp only [implies_true, and_self, and_true, true_and, apply_ite State.pending, apply_ite State.mem, apply_ite State.tck, apply_ite TckSt.now, State.takeView_frame, State.takeGuarantee_frame, State.laneEnTakes_frame, State.pinPolTakes_frame, State.pinEnTakes_frame, State.losEnTakes_frame, State.meaEnTakes_frame, State.meaWinTakes_frame]; done)
    | (simp (maxDischargeDepth := 8) only [foldl_PMN, implies_true, and_self, and_true, true_and, apply_ite State.pending, apply_ite State.mem, apply_ite State.tck, apply_ite TckSt.now, State.takeView_frame, State.takeGuarantee_frame, State.laneEnTakes_frame, State.pinPolTakes_frame, State.pinEnTakes_frame, State.losEnTakes_frame, State.meaEnTakes_frame, State.meaWinTakes_frame]; done)
    | (with_reducible refine foldl_PMN _ _ _ (fun s a => ?_))
    | split
    | (simp only [implies_true, and_self, and_true, true_and, apply_ite State.pending, apply_ite State.mem, apply_ite State.tck, apply_ite TckSt.now, State.takeView_frame, State.takeGuarantee_frame, State.laneEnTakes_frame, State.pinPolTakes_frame, State.pinEnTakes_frame, State.losEnTakes_frame, State.meaEnTakes_frame, State.meaWinTakes_frame])

theorem State.notOrphaned_frame (s : State)  : (State.notOrphaned s).pending = s.pending ∧ (State.notOrphaned s).tck.now = s.tck.now ∧ (State.notOrphaned s).mem = s.mem := by
  unfold State.notOrphaned
  repeat' first
    | (simp only [implies_true, and_self, and_true, true_and, apply_ite State.pending, apply_ite State.mem, apply_ite State.tck, apply_ite TckSt.now, State.setFld_frame]; done)
    | (simp (maxDischargeDepth := 8) only [foldl_PMN, implies_true, and_self, and_true, true_and, apply_ite State.pending, apply_ite State.mem, apply_ite State.tck, apply_ite TckSt.now, State.setFld_frame]; done)
    | (with_reducible refine foldl_PMN _ _ _ (fun s a => ?_))
    | split
    | (simp only [implies_true, and_self, and_true, true_and, apply_ite State.pending, apply_ite State.mem, apply_ite State.tck, apply_ite TckSt.now, State.setFld_frame])

theorem State.takeoverAt_frame (s : State) (n : Tick)  : (State.takeoverAt s n).pending = s.pending ∧ (State.takeoverAt s n).tck.now = s.tck.now ∧ (State.takeoverAt s n).mem = s.mem := by
  unfold State.takeoverAt
  repeat' first
    | (simp only [implies_true, and_self, and_true, true_and, apply_ite State.pending, apply_ite State.mem, apply_ite State.tck, apply_ite TckSt.now, State.notOrphaned_frame, State.takeHeld_frame, State.setBit_frame, State.takeRes_frame, State.raise_frame]; done)
    | (simp (maxDischargeDepth := 8) only [foldl_PMN, implies_true, and_self, and_true, true_and, apply_ite State.pending, apply_ite State.mem, apply_ite State.tck, apply_ite TckSt.now, State.notOrphaned_frame, State.takeHeld_frame, State.setBit_frame, State.takeRes_frame, State.raise_frame]; done)
    | (with_reducible refine foldl_PMN _ _ _ (fun s a => ?_))
    | split
    | (simp only [implies_true, and_self, and_true, true_and, apply_ite State.pending, apply_ite State.mem, apply_ite State.tck, apply_ite TckSt.now, State.notOrphaned_frame, State.takeHeld_frame, State.setBit_frame, State.takeRes_frame, State.raise_frame])

theorem State.takeAdopt_frame (s : State)  : (State.takeAdopt s).pending = s.pending ∧ (State.takeAdopt s).tck.now = s.tck.now ∧ (State.takeAdopt s).mem = s.mem := by
  unfold State.takeAdopt
  repeat' first
    | (simp only [implies_true, and_self, and_true, true_and, apply_ite State.pending, apply_ite State.mem, apply_ite State.tck, apply_ite TckSt.now, State.cancelPage_frame, State.setBit_frame, State.adoptView_frame, State.setRegN_frame, State.count_frame, State.takeRes_frame]; done)
    | (simp (maxDischargeDepth := 8) only [foldl_PMN, implies_true, and_self, and_true, true_and, apply_ite State.pending, apply_ite State.mem, apply_ite State.tck, apply_ite TckSt.now, State.cancelPage_frame, State.setBit_frame, State.adoptView_frame, State.setRegN_frame, State.count_frame, State.takeRes_frame]; done)
    | (with_reducible refine foldl_PMN _ _ _ (fun s a => ?_))
    | split
    | (simp only [implies_true, and_self, and_true, true_and, apply_ite State.pending, apply_ite State.mem, apply_ite State.tck, apply_ite TckSt.now, State.cancelPage_frame, State.setBit_frame, State.adoptView_frame, State.setRegN_frame, State.count_frame, State.takeRes_frame])

theorem State.takeoverWrite_frame (s : State) (v : Word)  : (State.takeoverWrite s v).pending = s.pending ∧ (State.takeoverWrite s v).tck.now = s.tck.now ∧ (State.takeoverWrite s v).mem = s.mem := by
  unfold State.takeoverWrite
  repeat' first
    | (simp only [implies_true, and_self, and_true, true_and, apply_ite State.pending, apply_ite State.mem, apply_ite State.tck, apply_ite TckSt.now, State.takeOpen_frame, State.takeGo_frame, State.takeAdopt_frame, State.takeAbandon_frame]; done)
    | (simp (maxDischargeDepth := 8) only [foldl_PMN, implies_true, and_self, and_true, true_and, apply_ite State.pending, apply_ite State.mem, apply_ite State.tck, apply_ite TckSt.now, State.takeOpen_frame, State.takeGo_frame, State.takeAdopt_frame, State.takeAbandon_frame]; done)
    | (with_reducible refine foldl_PMN _ _ _ (fun s a => ?_))
    | split
    | (simp only [implies_true, and_self, and_true, true_and, apply_ite State.pending, apply_ite State.mem, apply_ite State.tck, apply_ite TckSt.now, State.takeOpen_frame, State.takeGo_frame, State.takeAdopt_frame, State.takeAbandon_frame])

theorem State.takeoverOp_frame (s : State) (m op : Nat)  : (State.takeoverOp s m op).pending = s.pending ∧ (State.takeoverOp s m op).tck.now = s.tck.now ∧ (State.takeoverOp s m op).mem = s.mem := by
  unfold State.takeoverOp
  repeat' first
    | (simp only [implies_true, and_self, and_true, true_and, apply_ite State.pending, apply_ite State.mem, apply_ite State.tck, apply_ite TckSt.now, State.gateWrite_frame, State.takeoverWrite_frame]; done)
    | (simp (maxDischargeDepth := 8) only [foldl_PMN, implies_true, and_self, and_true, true_and, apply_ite State.pending, apply_ite State.mem, apply_ite State.tck, apply_ite TckSt.now, State.gateWrite_frame, State.takeoverWrite_frame]; done)
    | (with_reducible refine foldl_PMN _ _ _ (fun s a => ?_))
    | split
    | (simp only [implies_true, and_self, and_true, true_and, apply_ite State.pending, apply_ite State.mem, apply_ite State.tck, apply_ite TckSt.now, State.gateWrite_frame, State.takeoverWrite_frame])

theorem execTakeoverOpen_frame (m : Fin 8) (s : State) {r : State} (e : execTakeoverOpen m s = .next r) : r.pending = s.pending ∧ r.tck.now = s.tck.now ∧ r.mem = s.mem := by
  unfold execTakeoverOpen at e
  revert e
  intro e
  refine ⟨?_, ?_, ?_⟩
  · revert e
    repeat' first
      | with_reducible assumption
      | with_reducible rfl
      | (with_reducible refine Eq.trans (State.takeoverOp_frame ..).1 ?_)
      | (with_reducible refine ocP_next ?_)
      | with_reducible exact ocP_fault
      | dsimp only
      | split
  · revert e
    repeat' first
      | with_reducible assumption
      | with_reducible rfl
      | (with_reducible refine Eq.trans (State.takeoverOp_frame ..).2.1 ?_)
      | (with_reducible refine ocN_next ?_)
      | with_reducible exact ocN_fault
      | dsimp only
      | split
  · revert e
    repeat' first
      | with_reducible assumption
      | with_reducible rfl
      | (with_reducible refine Eq.trans (State.takeoverOp_frame ..).2.2 ?_)
      | (with_reducible refine ocM_next ?_)
      | with_reducible exact ocM_fault
      | dsimp only
      | split

theorem execGo_frame (m : Fin 8) (s : State) {r : State} (e : execGo m s = .next r) : r.pending = s.pending ∧ r.tck.now = s.tck.now ∧ r.mem = s.mem := by
  unfold execGo at e
  revert e
  intro e
  refine ⟨?_, ?_, ?_⟩
  · revert e
    repeat' first
      | with_reducible assumption
      | with_reducible rfl
      | (with_reducible refine Eq.trans (State.takeoverOp_frame ..).1 ?_)
      | (with_reducible refine ocP_next ?_)
      | with_reducible exact ocP_fault
      | dsimp only
      | split
  · revert e
    repeat' first
      | with_reducible assumption
      | with_reducible rfl
      | (with_reducible refine Eq.trans (State.takeoverOp_frame ..).2.1 ?_)
      | (with_reducible refine ocN_next ?_)
      | with_reducible exact ocN_fault
      | dsimp only
      | split
  · revert e
    repeat' first
      | with_reducible assumption
      | with_reducible rfl
      | (with_reducible refine Eq.trans (State.takeoverOp_frame ..).2.2 ?_)
      | (with_reducible refine ocM_next ?_)
      | with_reducible exact ocM_fault
      | dsimp only
      | split

theorem execAdopt_frame (m : Fin 8) (s : State) {r : State} (e : execAdopt m s = .next r) : r.pending = s.pending ∧ r.tck.now = s.tck.now ∧ r.mem = s.mem := by
  unfold execAdopt at e
  revert e
  intro e
  refine ⟨?_, ?_, ?_⟩
  · revert e
    repeat' first
      | with_reducible assumption
      | with_reducible rfl
      | (with_reducible refine Eq.trans (State.takeoverOp_frame ..).1 ?_)
      | (with_reducible refine ocP_next ?_)
      | with_reducible exact ocP_fault
      | dsimp only
      | split
  · revert e
    repeat' first
      | with_reducible assumption
      | with_reducible rfl
      | (with_reducible refine Eq.trans (State.takeoverOp_frame ..).2.1 ?_)
      | (with_reducible refine ocN_next ?_)
      | with_reducible exact ocN_fault
      | dsimp only
      | split
  · revert e
    repeat' first
      | with_reducible assumption
      | with_reducible rfl
      | (with_reducible refine Eq.trans (State.takeoverOp_frame ..).2.2 ?_)
      | (with_reducible refine ocM_next ?_)
      | with_reducible exact ocM_fault
      | dsimp only
      | split

theorem execAbandon_frame (m : Fin 8) (s : State) {r : State} (e : execAbandon m s = .next r) : r.pending = s.pending ∧ r.tck.now = s.tck.now ∧ r.mem = s.mem := by
  unfold execAbandon at e
  revert e
  intro e
  refine ⟨?_, ?_, ?_⟩
  · revert e
    repeat' first
      | with_reducible assumption
      | with_reducible rfl
      | (with_reducible refine Eq.trans (State.takeoverOp_frame ..).1 ?_)
      | (with_reducible refine ocP_next ?_)
      | with_reducible exact ocP_fault
      | dsimp only
      | split
  · revert e
    repeat' first
      | with_reducible assumption
      | with_reducible rfl
      | (with_reducible refine Eq.trans (State.takeoverOp_frame ..).2.1 ?_)
      | (with_reducible refine ocN_next ?_)
      | with_reducible exact ocN_fault
      | dsimp only
      | split
  · revert e
    repeat' first
      | with_reducible assumption
      | with_reducible rfl
      | (with_reducible refine Eq.trans (State.takeoverOp_frame ..).2.2 ?_)
      | (with_reducible refine ocM_next ?_)
      | with_reducible exact ocM_fault
      | dsimp only
      | split

end Sys2Proof.Machine
end

