-- ==== Sys2Proof/Laws/FrameAlm.lean ====
section
/-! SUPPORT. What every operation of Machine/Alm.lean leaves alone: the queue of waiting commands, the tick counter (unless it
writes it), and memory or its canonical form. -/

namespace Sys2Proof.Machine

set_option linter.all false
set_option Elab.async false
set_option maxRecDepth 4000

theorem State.almSeen_frame (s : State) (origin seq : Nat)  : (State.almSeen s origin seq).pending = s.pending ∧ (State.almSeen s origin seq).tck.now = s.tck.now ∧ (State.almSeen s origin seq).mem = s.mem := by
  unfold State.almSeen
  repeat' first
    | (simp only [implies_true, and_self, and_true, true_and, apply_ite State.pending, apply_ite State.mem, apply_ite State.tck, apply_ite TckSt.now]; done)
    | (simp (maxDischargeDepth := 8) only [foldl_PMN, implies_true, and_self, and_true, true_and, apply_ite State.pending, apply_ite State.mem, apply_ite State.tck, apply_ite TckSt.now]; done)
    | (with_reducible refine foldl_PMN _ _ _ (fun s a => ?_))
    | split
    | (simp only [implies_true, and_self, and_true, true_and, apply_ite State.pending, apply_ite State.mem, apply_ite State.tck, apply_ite TckSt.now])

theorem State.almExpire_frame (s : State)  : (State.almExpire s).pending = s.pending ∧ (State.almExpire s).tck.now = s.tck.now ∧ (State.almExpire s).mem = s.mem := by
  unfold State.almExpire
  repeat' first
    | (simp only [implies_true, and_self, and_true, true_and, apply_ite State.pending, apply_ite State.mem, apply_ite State.tck, apply_ite TckSt.now]; done)
    | (simp (maxDischargeDepth := 8) only [foldl_PMN, implies_true, and_self, and_true, true_and, apply_ite State.pending, apply_ite State.mem, apply_ite State.tck, apply_ite TckSt.now]; done)
    | (with_reducible refine foldl_PMN _ _ _ (fun s a => ?_))
    | split
    | (simp only [implies_true, and_self, and_true, true_and, apply_ite State.pending, apply_ite State.mem, apply_ite State.tck, apply_ite TckSt.now])

theorem State.almGated_frame (s : State)  : (State.almGated s).pending = s.pending ∧ (State.almGated s).tck.now = s.tck.now ∧ (State.almGated s).mem = s.mem := by
  unfold State.almGated
  repeat' first
    | (simp only [implies_true, and_self, and_true, true_and, apply_ite State.pending, apply_ite State.mem, apply_ite State.tck, apply_ite TckSt.now, State.count_frame, State.raise_frame]; done)
    | (simp (maxDischargeDepth := 8) only [foldl_PMN, implies_true, and_self, and_true, true_and, apply_ite State.pending, apply_ite State.mem, apply_ite State.tck, apply_ite TckSt.now, State.count_frame, State.raise_frame]; done)
    | (with_reducible refine foldl_PMN _ _ _ (fun s a => ?_))
    | split
    | (simp only [implies_true, and_self, and_true, true_and, apply_ite State.pending, apply_ite State.mem, apply_ite State.tck, apply_ite TckSt.now, State.count_frame, State.raise_frame])

theorem State.almOriginate_frame (s : State) (kind code value : Nat)  : (State.almOriginate s kind code value).pending = s.pending ∧ (State.almOriginate s kind code value).tck.now = s.tck.now ∧ (State.almOriginate s kind code value).mem = s.mem := by
  unfold State.almOriginate
  repeat' first
    | (simp only [implies_true, and_self, and_true, true_and, apply_ite State.pending, apply_ite State.mem, apply_ite State.tck, apply_ite TckSt.now, State.almGated_frame, State.setRegN_frame, State.originate_frame, State.almSeen_frame, State.count_frame, State.raise_frame]; done)
    | (simp (maxDischargeDepth := 8) only [foldl_PMN, implies_true, and_self, and_true, true_and, apply_ite State.pending, apply_ite State.mem, apply_ite State.tck, apply_ite TckSt.now, State.almGated_frame, State.setRegN_frame, State.originate_frame, State.almSeen_frame, State.count_frame, State.raise_frame]; done)
    | (with_reducible refine foldl_PMN _ _ _ (fun s a => ?_))
    | split
    | (simp only [implies_true, and_self, and_true, true_and, apply_ite State.pending, apply_ite State.mem, apply_ite State.tck, apply_ite TckSt.now, State.almGated_frame, State.setRegN_frame, State.originate_frame, State.almSeen_frame, State.count_frame, State.raise_frame])

theorem State.almReports_frame (s : State) (l : List (Nat × Bool))  : (State.almReports s l).pending = s.pending ∧ (State.almReports s l).tck.now = s.tck.now ∧ (State.almReports s l).mem = s.mem := by
  unfold State.almReports
  repeat' first
    | (simp only [implies_true, and_self, and_true, true_and, apply_ite State.pending, apply_ite State.mem, apply_ite State.tck, apply_ite TckSt.now, State.almOriginate_frame]; done)
    | (simp (maxDischargeDepth := 8) only [foldl_PMN, implies_true, and_self, and_true, true_and, apply_ite State.pending, apply_ite State.mem, apply_ite State.tck, apply_ite TckSt.now, State.almOriginate_frame]; done)
    | (with_reducible refine foldl_PMN _ _ _ (fun s a => ?_))
    | split
    | (simp only [implies_true, and_self, and_true, true_and, apply_ite State.pending, apply_ite State.mem, apply_ite State.tck, apply_ite TckSt.now, State.almOriginate_frame])

theorem State.almSend_frame (s : State) (v : Word)  : (State.almSend s v).pending = s.pending ∧ (State.almSend s v).tck.now = s.tck.now ∧ (State.almSend s v).mem = s.mem := by
  unfold State.almSend
  repeat' first
    | (simp only [implies_true, and_self, and_true, true_and, apply_ite State.pending, apply_ite State.mem, apply_ite State.tck, apply_ite TckSt.now, State.almOriginate_frame]; done)
    | (simp (maxDischargeDepth := 8) only [foldl_PMN, implies_true, and_self, and_true, true_and, apply_ite State.pending, apply_ite State.mem, apply_ite State.tck, apply_ite TckSt.now, State.almOriginate_frame]; done)
    | (with_reducible refine foldl_PMN _ _ _ (fun s a => ?_))
    | split
    | (simp only [implies_true, and_self, and_true, true_and, apply_ite State.pending, apply_ite State.mem, apply_ite State.tck, apply_ite TckSt.now, State.almOriginate_frame])

theorem State.almLevel_frame (s : State) (a : Nat) (on : Bool)  : (State.almLevel s a on).pending = s.pending ∧ (State.almLevel s a on).tck.now = s.tck.now ∧ (State.almLevel s a on).mem = s.mem := by
  unfold State.almLevel
  repeat' first
    | (simp only [implies_true, and_self, and_true, true_and, apply_ite State.pending, apply_ite State.mem, apply_ite State.tck, apply_ite TckSt.now, State.setBit_frame, State.raise_frame]; done)
    | (simp (maxDischargeDepth := 8) only [foldl_PMN, implies_true, and_self, and_true, true_and, apply_ite State.pending, apply_ite State.mem, apply_ite State.tck, apply_ite TckSt.now, State.setBit_frame, State.raise_frame]; done)
    | (with_reducible refine foldl_PMN _ _ _ (fun s a => ?_))
    | split
    | (simp only [implies_true, and_self, and_true, true_and, apply_ite State.pending, apply_ite State.mem, apply_ite State.tck, apply_ite TckSt.now, State.setBit_frame, State.raise_frame])

theorem State.almInput_frame (s : State) (kind origin seq code a : Nat)  : (State.almInput s kind origin seq code a).pending = s.pending ∧ (State.almInput s kind origin seq code a).tck.now = s.tck.now ∧ (State.almInput s kind origin seq code a).mem = s.mem := by
  unfold State.almInput
  repeat' first
    | (simp only [implies_true, and_self, and_true, true_and, apply_ite State.pending, apply_ite State.mem, apply_ite State.tck, apply_ite TckSt.now, State.count_frame, State.almLevel_frame]; done)
    | (simp (maxDischargeDepth := 8) only [foldl_PMN, implies_true, and_self, and_true, true_and, apply_ite State.pending, apply_ite State.mem, apply_ite State.tck, apply_ite TckSt.now, State.count_frame, State.almLevel_frame]; done)
    | (with_reducible refine foldl_PMN _ _ _ (fun s a => ?_))
    | split
    | (simp only [implies_true, and_self, and_true, true_and, apply_ite State.pending, apply_ite State.mem, apply_ite State.tck, apply_ite TckSt.now, State.count_frame, State.almLevel_frame])

theorem State.almForward_frame (s : State) (port : Nat) (payload : List Byte)  : (State.almForward s port payload).pending = s.pending ∧ (State.almForward s port payload).tck.now = s.tck.now ∧ (State.almForward s port payload).mem = s.mem := by
  unfold State.almForward
  repeat' first
    | (simp only [implies_true, and_self, and_true, true_and, apply_ite State.pending, apply_ite State.mem, apply_ite State.tck, apply_ite TckSt.now, State.count_frame, State.almGated_frame, State.originate_frame, State.bump_frame]; done)
    | (simp (maxDischargeDepth := 8) only [foldl_PMN, implies_true, and_self, and_true, true_and, apply_ite State.pending, apply_ite State.mem, apply_ite State.tck, apply_ite TckSt.now, State.count_frame, State.almGated_frame, State.originate_frame, State.bump_frame]; done)
    | (with_reducible refine foldl_PMN _ _ _ (fun s a => ?_))
    | split
    | (simp only [implies_true, and_self, and_true, true_and, apply_ite State.pending, apply_ite State.mem, apply_ite State.tck, apply_ite TckSt.now, State.count_frame, State.almGated_frame, State.originate_frame, State.bump_frame])

theorem State.almFrameRx_frame (s : State) (port : Nat) (payload : List Byte) (copy : List Byte × Nat × Nat × Option (BitVec 96))  : (State.almFrameRx s port payload copy).pending = s.pending ∧ (State.almFrameRx s port payload copy).tck.now = s.tck.now ∧ (State.almFrameRx s port payload copy).mem = s.mem := by
  unfold State.almFrameRx
  repeat' first
    | (simp only [implies_true, and_self, and_true, true_and, apply_ite State.pending, apply_ite State.mem, apply_ite State.tck, apply_ite TckSt.now, State.count_frame, State.raise_frame, State.closeIfPast_frame, State.almExpire_frame, State.almSeen_frame, State.almInput_frame, State.hostRx_frame, State.almForward_frame]; done)
    | (simp (maxDischargeDepth := 8) only [foldl_PMN, implies_true, and_self, and_true, true_and, apply_ite State.pending, apply_ite State.mem, apply_ite State.tck, apply_ite TckSt.now, State.count_frame, State.raise_frame, State.closeIfPast_frame, State.almExpire_frame, State.almSeen_frame, State.almInput_frame, State.hostRx_frame, State.almForward_frame]; done)
    | (with_reducible refine foldl_PMN _ _ _ (fun s a => ?_))
    | split
    | (simp only [implies_true, and_self, and_true, true_and, apply_ite State.pending, apply_ite State.mem, apply_ite State.tck, apply_ite TckSt.now, State.count_frame, State.raise_frame, State.closeIfPast_frame, State.almExpire_frame, State.almSeen_frame, State.almInput_frame, State.hostRx_frame, State.almForward_frame])

theorem State.almClear_frame (s : State) (w : Nat) (v : Word)  : (State.almClear s w v).pending = s.pending ∧ (State.almClear s w v).tck.now = s.tck.now ∧ (State.almClear s w v).mem = s.mem := by
  unfold State.almClear
  refine ⟨?_, ?_, ?_⟩
  · repeat' first
      | with_reducible assumption
      | with_reducible rfl
      | (with_reducible refine alP_ite ?_ ?_)
      | (with_reducible refine Eq.trans (State.closeIfPast_frame ..).1 ?_)
      | (with_reducible refine Eq.trans (State.almLevel_frame ..).1 ?_)
      | (with_reducible refine alP_fold0 _ _ _ (fun r a h => ?_) ?_)
      | (with_reducible refine alP_fold1 _ _ _ (fun r a h => ?_) ?_)
      | (with_reducible refine alP_fold2 _ _ _ (fun r a h => ?_) ?_)
      | dsimp only
      | split
  · repeat' first
      | with_reducible assumption
      | with_reducible rfl
      | (with_reducible refine alN_ite ?_ ?_)
      | (with_reducible refine Eq.trans (State.closeIfPast_frame ..).2.1 ?_)
      | (with_reducible refine Eq.trans (State.almLevel_frame ..).2.1 ?_)
      | (with_reducible refine alN_fold0 _ _ _ (fun r a h => ?_) ?_)
      | (with_reducible refine alN_fold1 _ _ _ (fun r a h => ?_) ?_)
      | (with_reducible refine alN_fold2 _ _ _ (fun r a h => ?_) ?_)
      | dsimp only
      | split
  · repeat' first
      | with_reducible assumption
      | with_reducible rfl
      | (with_reducible refine alM_ite ?_ ?_)
      | (with_reducible refine Eq.trans (State.closeIfPast_frame ..).2.2 ?_)
      | (with_reducible refine Eq.trans (State.almLevel_frame ..).2.2 ?_)
      | (with_reducible refine alM_fold0 _ _ _ (fun r a h => ?_) ?_)
      | (with_reducible refine alM_fold1 _ _ _ (fun r a h => ?_) ?_)
      | (with_reducible refine alM_fold2 _ _ _ (fun r a h => ?_) ?_)
      | dsimp only
      | split

theorem State.telHand_frame (x0 : Nat) (s : State)  : (State.telHand x0 s).pending = s.pending ∧ (State.telHand x0 s).tck.now = s.tck.now ∧ (State.telHand x0 s).mem = s.mem := by
  induction x0 generalizing s with
  | zero => first | exact ⟨rfl, rfl, rfl⟩ | exact ⟨rfl, rfl⟩ | exact ⟨(State.mgtAnswer_frame ..).1, fun h => wf_eq (State.mgtAnswer_frame ..).2.2 h⟩
  | succ k ih =>
  unfold State.telHand
  refine ⟨?_, ?_, ?_⟩
  · repeat' first
      | with_reducible assumption
      | with_reducible rfl
      | (with_reducible refine alP_ite ?_ ?_)
      | (with_reducible refine alP_itep0 ?_ ?_)
      | (with_reducible refine alP_itep1 ?_ ?_)
      | (with_reducible refine Eq.trans (State.uplDrop_frame ..).1 ?_)
      | (with_reducible refine Eq.trans (State.originate_frame ..).1 ?_)
      | (with_reducible refine alP_pair1 (by assumption) (Eq.trans (State.originate_frame ..).1 ?_))
      | (with_reducible refine Eq.trans (ih ..).1 ?_)
      | dsimp only
      | split
  · repeat' first
      | with_reducible assumption
      | with_reducible rfl
      | (with_reducible refine alN_ite ?_ ?_)
      | (with_reducible refine alN_itep0 ?_ ?_)
      | (with_reducible refine alN_itep1 ?_ ?_)
      | (with_reducible refine Eq.trans (State.uplDrop_frame ..).2.1 ?_)
      | (with_reducible refine Eq.trans (State.originate_frame ..).2.1 ?_)
      | (with_reducible refine alN_pair1 (by assumption) (Eq.trans (State.originate_frame ..).2.1 ?_))
      | (with_reducible refine Eq.trans (ih ..).2.1 ?_)
      | dsimp only
      | split
  · repeat' first
      | with_reducible assumption
      | with_reducible rfl
      | (with_reducible refine alM_ite ?_ ?_)
      | (with_reducible refine alM_itep0 ?_ ?_)
      | (with_reducible refine alM_itep1 ?_ ?_)
      | (with_reducible refine Eq.trans (State.uplDrop_frame ..).2.2 ?_)
      | (with_reducible refine Eq.trans (State.originate_frame ..).2.2 ?_)
      | (with_reducible refine alM_pair1 (by assumption) (Eq.trans (State.originate_frame ..).2.2 ?_))
      | (with_reducible refine Eq.trans (ih ..).2.2 ?_)
      | dsimp only
      | split

theorem State.telTick_frame (s : State)  : (State.telTick s).pending = s.pending ∧ (State.telTick s).tck.now = s.tck.now ∧ (State.telTick s).mem = s.mem := by
  unfold State.telTick
  repeat' first
    | (simp only [implies_true, and_self, and_true, true_and, apply_ite State.pending, apply_ite State.mem, apply_ite State.tck, apply_ite TckSt.now, State.telHand_frame]; done)
    | (simp (maxDischargeDepth := 8) only [foldl_PMN, implies_true, and_self, and_true, true_and, apply_ite State.pending, apply_ite State.mem, apply_ite State.tck, apply_ite TckSt.now, State.telHand_frame]; done)
    | (with_reducible refine foldl_PMN _ _ _ (fun s a => ?_))
    | split
    | (simp only [implies_true, and_self, and_true, true_and, apply_ite State.pending, apply_ite State.mem, apply_ite State.tck, apply_ite TckSt.now, State.telHand_frame])

theorem execAlarmCacheExpiry_frame (cycle : Nat) (s : State) {r : State} (e : execAlarmCacheExpiry cycle s = .next r) : r.pending = s.pending ∧ r.tck.now = s.tck.now ∧ r.mem = s.mem := by
  unfold execAlarmCacheExpiry at e
  revert e
  intro e
  refine ⟨?_, ?_, ?_⟩
  · revert e
    repeat' first
      | with_reducible assumption
      | with_reducible rfl
      | (with_reducible refine Eq.trans (State.atCycle_frame ..).1 ?_)
      | (with_reducible refine Eq.trans (State.almExpire_frame ..).1 ?_)
      | (with_reducible refine ocP_next ?_)
      | with_reducible exact ocP_fault
      | dsimp only
      | split
  · revert e
    repeat' first
      | with_reducible assumption
      | with_reducible rfl
      | (with_reducible refine Eq.trans (State.atCycle_frame ..).2.1 ?_)
      | (with_reducible refine Eq.trans (State.almExpire_frame ..).2.1 ?_)
      | (with_reducible refine ocN_next ?_)
      | with_reducible exact ocN_fault
      | dsimp only
      | split
  · revert e
    repeat' first
      | with_reducible assumption
      | with_reducible rfl
      | (with_reducible refine Eq.trans (State.atCycle_frame ..).2.2 ?_)
      | (with_reducible refine Eq.trans (State.almExpire_frame ..).2.2 ?_)
      | (with_reducible refine ocM_next ?_)
      | with_reducible exact ocM_fault
      | dsimp only
      | split

theorem execAlmSend_frame (m : Fin 8) (kind : Byte) (code : BitVec 16) (s : State) {r : State} (e : execAlmSend m kind code s = .next r) : r.pending = s.pending ∧ r.tck.now = s.tck.now ∧ r.mem = s.mem := by
  unfold execAlmSend at e
  revert e
  intro e
  refine ⟨?_, ?_, ?_⟩
  · revert e
    repeat' first
      | with_reducible assumption
      | with_reducible rfl
      | (with_reducible refine Eq.trans (State.gateWrite_frP (heff := fun _ => ?_) ..) ?_)
      | (with_reducible refine Eq.trans (State.almSend_frame ..).1 ?_)
      | (with_reducible refine ocP_next ?_)
      | with_reducible exact ocP_fault
      | dsimp only
      | split
  · revert e
    repeat' first
      | with_reducible assumption
      | with_reducible rfl
      | (with_reducible refine Eq.trans (State.gateWrite_frN (heff := fun _ => ?_) ..) ?_)
      | (with_reducible refine Eq.trans (State.almSend_frame ..).2.1 ?_)
      | (with_reducible refine ocN_next ?_)
      | with_reducible exact ocN_fault
      | dsimp only
      | split
  · revert e
    repeat' first
      | with_reducible assumption
      | with_reducible rfl
      | (with_reducible refine Eq.trans (State.gateWrite_frM (heff := fun _ => ?_) ..) ?_)
      | (with_reducible refine Eq.trans (State.almSend_frame ..).2.2 ?_)
      | (with_reducible refine ocM_next ?_)
      | with_reducible exact ocM_fault
      | dsimp only
      | split

theorem execAlmInClear_frame (m : Fin 8) (word : Fin 2) (v : Word) (s : State) {r : State} (e : execAlmInClear m word v s = .next r) : r.pending = s.pending ∧ r.tck.now = s.tck.now ∧ r.mem = s.mem := by
  unfold execAlmInClear at e
  revert e
  intro e
  refine ⟨?_, ?_, ?_⟩
  · revert e
    repeat' first
      | with_reducible assumption
      | with_reducible rfl
      | (with_reducible refine Eq.trans (State.gateWrite_frP (heff := fun _ => ?_) ..) ?_)
      | (with_reducible refine Eq.trans (State.almClear_frame ..).1 ?_)
      | (with_reducible refine ocP_next ?_)
      | with_reducible exact ocP_fault
      | dsimp only
      | split
  · revert e
    repeat' first
      | with_reducible assumption
      | with_reducible rfl
      | (with_reducible refine Eq.trans (State.gateWrite_frN (heff := fun _ => ?_) ..) ?_)
      | (with_reducible refine Eq.trans (State.almClear_frame ..).2.1 ?_)
      | (with_reducible refine ocN_next ?_)
      | with_reducible exact ocN_fault
      | dsimp only
      | split
  · revert e
    repeat' first
      | with_reducible assumption
      | with_reducible rfl
      | (with_reducible refine Eq.trans (State.gateWrite_frM (heff := fun _ => ?_) ..) ?_)
      | (with_reducible refine Eq.trans (State.almClear_frame ..).2.2 ?_)
      | (with_reducible refine ocM_next ?_)
      | with_reducible exact ocM_fault
      | dsimp only
      | split

end Sys2Proof.Machine
end

