-- ==== Sys2Proof/Laws/FrameResets.lean ====
section
/-! SUPPORT. What every operation of Machine/Resets.lean leaves alone: the queue of waiting commands, the tick counter (unless it
writes it), and memory or its canonical form. -/

namespace Sys2Proof.Machine

set_option linter.all false
set_option Elab.async false
set_option maxRecDepth 4000

theorem State.mgmtReg_frame (s : State) (key : Nat)  : (State.mgmtReg s key).pending = s.pending ∧ (State.mgmtReg s key).tck.now = s.tck.now ∧ (State.mgmtReg s key).mem = s.mem := by
  unfold State.mgmtReg
  repeat' first
    | (simp only [implies_true, and_self, and_true, true_and, apply_ite State.pending, apply_ite State.mem, apply_ite State.tck, apply_ite TckSt.now, State.setReg_frame, State.setForce_frame]; done)
    | (simp (maxDischargeDepth := 8) only [foldl_PMN, implies_true, and_self, and_true, true_and, apply_ite State.pending, apply_ite State.mem, apply_ite State.tck, apply_ite TckSt.now, State.setReg_frame, State.setForce_frame]; done)
    | (with_reducible refine foldl_PMN _ _ _ (fun s a => ?_))
    | split
    | (simp only [implies_true, and_self, and_true, true_and, apply_ite State.pending, apply_ite State.mem, apply_ite State.tck, apply_ite TckSt.now, State.setReg_frame, State.setForce_frame])

theorem State.mgmtRegs_frame (s : State)  : (State.mgmtRegs s).pending = s.pending ∧ (State.mgmtRegs s).tck.now = s.tck.now ∧ (State.mgmtRegs s).mem = s.mem := by
  unfold State.mgmtRegs
  repeat' first
    | (simp only [implies_true, and_self, and_true, true_and, apply_ite State.pending, apply_ite State.mem, apply_ite State.tck, apply_ite TckSt.now, State.mgmtReg_frame]; done)
    | (simp (maxDischargeDepth := 8) only [foldl_PMN, implies_true, and_self, and_true, true_and, apply_ite State.pending, apply_ite State.mem, apply_ite State.tck, apply_ite TckSt.now, State.mgmtReg_frame]; done)
    | (with_reducible refine foldl_PMN _ _ _ (fun s a => ?_))
    | split
    | (simp only [implies_true, and_self, and_true, true_and, apply_ite State.pending, apply_ite State.mem, apply_ite State.tck, apply_ite TckSt.now, State.mgmtReg_frame])

theorem State.cancelTakeover_frame (s : State)  : (State.cancelTakeover s).pending = s.pending ∧ (State.cancelTakeover s).tck.now = s.tck.now ∧ (State.cancelTakeover s).mem = s.mem := by
  unfold State.cancelTakeover
  repeat' first
    | (simp only [implies_true, and_self, and_true, true_and, apply_ite State.pending, apply_ite State.mem, apply_ite State.tck, apply_ite TckSt.now, State.setBit_frame, State.takeRes_frame, State.raise_frame]; done)
    | (simp (maxDischargeDepth := 8) only [foldl_PMN, implies_true, and_self, and_true, true_and, apply_ite State.pending, apply_ite State.mem, apply_ite State.tck, apply_ite TckSt.now, State.setBit_frame, State.takeRes_frame, State.raise_frame]; done)
    | (with_reducible refine foldl_PMN _ _ _ (fun s a => ?_))
    | split
    | (simp only [implies_true, and_self, and_true, true_and, apply_ite State.pending, apply_ite State.mem, apply_ite State.tck, apply_ite TckSt.now, State.setBit_frame, State.takeRes_frame, State.raise_frame])

theorem State.stopRings_frame (s : State)  : (State.stopRings s).pending = s.pending ∧ (State.stopRings s).tck.now = s.tck.now ∧ (State.stopRings s).mem = s.mem := by
  unfold State.stopRings
  repeat' first
    | (simp only [implies_true, and_self, and_true, true_and, apply_ite State.pending, apply_ite State.mem, apply_ite State.tck, apply_ite TckSt.now, State.emptyQueues_frame, State.setNetQ_frame]; done)
    | (simp (maxDischargeDepth := 8) only [foldl_PMN, implies_true, and_self, and_true, true_and, apply_ite State.pending, apply_ite State.mem, apply_ite State.tck, apply_ite TckSt.now, State.emptyQueues_frame, State.setNetQ_frame]; done)
    | (with_reducible refine foldl_PMN _ _ _ (fun s a => ?_))
    | split
    | (simp only [implies_true, and_self, and_true, true_and, apply_ite State.pending, apply_ite State.mem, apply_ite State.tck, apply_ite TckSt.now, State.emptyQueues_frame, State.setNetQ_frame])

theorem State.stopSequencers_frame (s : State)  : (State.stopSequencers s).pending = s.pending ∧ (State.stopSequencers s).tck.now = s.tck.now ∧ (State.stopSequencers s).mem = s.mem := by
  unfold State.stopSequencers
  repeat' first
    | (simp only [implies_true, and_self, and_true, true_and, apply_ite State.pending, apply_ite State.mem, apply_ite State.tck, apply_ite TckSt.now, State.calAbort_frame, State.setReg_frame, State.setBit_frame, State.stopRings_frame, State.raiseIf_frame, State.setFld_frame, State.setForce_frame, State.mgmtRegs_frame, State.setRegN_frame]; done)
    | (simp (maxDischargeDepth := 8) only [foldl_PMN, implies_true, and_self, and_true, true_and, apply_ite State.pending, apply_ite State.mem, apply_ite State.tck, apply_ite TckSt.now, State.calAbort_frame, State.setReg_frame, State.setBit_frame, State.stopRings_frame, State.raiseIf_frame, State.setFld_frame, State.setForce_frame, State.mgmtRegs_frame, State.setRegN_frame]; done)
    | (with_reducible refine foldl_PMN _ _ _ (fun s a => ?_))
    | split
    | (simp only [implies_true, and_self, and_true, true_and, apply_ite State.pending, apply_ite State.mem, apply_ite State.tck, apply_ite TckSt.now, State.calAbort_frame, State.setReg_frame, State.setBit_frame, State.stopRings_frame, State.raiseIf_frame, State.setFld_frame, State.setForce_frame, State.mgmtRegs_frame, State.setRegN_frame])

theorem State.mgmtReset_frame (s : State) (cause : Nat)  : (State.mgmtReset s cause).pending = s.pending ∧ (State.mgmtReset s cause).tck.now = s.tck.now ∧ (State.mgmtReset s cause).mem = s.mem := by
  unfold State.mgmtReset
  repeat' first
    | (simp only [implies_true, and_self, and_true, true_and, apply_ite State.pending, apply_ite State.mem, apply_ite State.tck, apply_ite TckSt.now, State.setFld_frame, State.bump_frame, State.logEvent_frame, State.cancelTakeover_frame, State.cancelAllCommits_frame, State.gateWithdraw_frame, State.abortCatch_frame, State.resetMaster_frame, State.stopSequencers_frame]; done)
    | (simp (maxDischargeDepth := 8) only [foldl_PMN, implies_true, and_self, and_true, true_and, apply_ite State.pending, apply_ite State.mem, apply_ite State.tck, apply_ite TckSt.now, State.setFld_frame, State.bump_frame, State.logEvent_frame, State.cancelTakeover_frame, State.cancelAllCommits_frame, State.gateWithdraw_frame, State.abortCatch_frame, State.resetMaster_frame, State.stopSequencers_frame]; done)
    | (with_reducible refine foldl_PMN _ _ _ (fun s a => ?_))
    | split
    | (simp only [implies_true, and_self, and_true, true_and, apply_ite State.pending, apply_ite State.mem, apply_ite State.tck, apply_ite TckSt.now, State.setFld_frame, State.bump_frame, State.logEvent_frame, State.cancelTakeover_frame, State.cancelAllCommits_frame, State.gateWithdraw_frame, State.abortCatch_frame, State.resetMaster_frame, State.stopSequencers_frame])

theorem State.mgmtEnds_frame (s : State)  : (State.mgmtEnds s).pending = s.pending ∧ (State.mgmtEnds s).tck.now = s.tck.now ∧ (State.mgmtEnds s).mem = s.mem := by
  unfold State.mgmtEnds
  repeat' first
    | (simp only [implies_true, and_self, and_true, true_and, apply_ite State.pending, apply_ite State.mem, apply_ite State.tck, apply_ite TckSt.now, State.setFld_frame, State.raise_frame]; done)
    | (simp (maxDischargeDepth := 8) only [foldl_PMN, implies_true, and_self, and_true, true_and, apply_ite State.pending, apply_ite State.mem, apply_ite State.tck, apply_ite TckSt.now, State.setFld_frame, State.raise_frame]; done)
    | (with_reducible refine foldl_PMN _ _ _ (fun s a => ?_))
    | split
    | (simp only [implies_true, and_self, and_true, true_and, apply_ite State.pending, apply_ite State.mem, apply_ite State.tck, apply_ite TckSt.now, State.setFld_frame, State.raise_frame])

theorem State.bootCode_frame (s : State) (code : Nat)  : (State.bootCode s code).pending = s.pending ∧ (State.bootCode s code).tck.now = s.tck.now ∧ (State.bootCode s code).mem = s.mem := by
  unfold State.bootCode
  repeat' first
    | (simp only [implies_true, and_self, and_true, true_and, apply_ite State.pending, apply_ite State.mem, apply_ite State.tck, apply_ite TckSt.now, State.setFld_frame]; done)
    | (simp (maxDischargeDepth := 8) only [foldl_PMN, implies_true, and_self, and_true, true_and, apply_ite State.pending, apply_ite State.mem, apply_ite State.tck, apply_ite TckSt.now, State.setFld_frame]; done)
    | (with_reducible refine foldl_PMN _ _ _ (fun s a => ?_))
    | split
    | (simp only [implies_true, and_self, and_true, true_and, apply_ite State.pending, apply_ite State.mem, apply_ite State.tck, apply_ite TckSt.now, State.setFld_frame])

theorem State.bootFails_frame (s : State) (n code : Nat) (dead : Bool)  : (State.bootFails s n code dead).pending = s.pending ∧ (State.bootFails s n code dead).tck.now = s.tck.now ∧ (State.bootFails s n code dead).mem = s.mem := by
  unfold State.bootFails
  repeat' first
    | (simp only [implies_true, and_self, and_true, true_and, apply_ite State.pending, apply_ite State.mem, apply_ite State.tck, apply_ite TckSt.now, State.bootCode_frame, State.setFld_frame, State.setBit_frame]; done)
    | (simp (maxDischargeDepth := 8) only [foldl_PMN, implies_true, and_self, and_true, true_and, apply_ite State.pending, apply_ite State.mem, apply_ite State.tck, apply_ite TckSt.now, State.bootCode_frame, State.setFld_frame, State.setBit_frame]; done)
    | (with_reducible refine foldl_PMN _ _ _ (fun s a => ?_))
    | split
    | (simp only [implies_true, and_self, and_true, true_and, apply_ite State.pending, apply_ite State.mem, apply_ite State.tck, apply_ite TckSt.now, State.bootCode_frame, State.setFld_frame, State.setBit_frame])

theorem State.bootImage_frame (s : State)  : (State.bootImage s).pending = s.pending ∧ (State.bootImage s).tck.now = s.tck.now ∧ (Memory.wf s.mem = true → Memory.wf (State.bootImage s).mem = true) := by
  unfold State.bootImage
  refine (and_assoc.1 ⟨?_, fun h => ?_⟩)
  · repeat' first
      | (simp only [implies_true, and_self, and_true, true_and, apply_ite State.pending, apply_ite State.tck, apply_ite TckSt.now, State.bootCode_frame, ImgRun.allSections_frame, State.setRegN_frame, State.setBit_frame, State.armSafety_frame, State.defaultSafety_frame]; done)
      | (simp (maxDischargeDepth := 8) only [foldl_PN, implies_true, and_self, and_true, true_and, apply_ite State.pending, apply_ite State.tck, apply_ite TckSt.now, State.bootCode_frame, ImgRun.allSections_frame, State.setRegN_frame, State.setBit_frame, State.armSafety_frame, State.defaultSafety_frame]; done)
      | (with_reducible refine foldl_PN _ _ _ (fun s a => ?_))
      | split
      | (simp only [implies_true, and_self, and_true, true_and, apply_ite State.pending, apply_ite State.tck, apply_ite TckSt.now, State.bootCode_frame, ImgRun.allSections_frame, State.setRegN_frame, State.setBit_frame, State.armSafety_frame, State.defaultSafety_frame])
  · repeat' first
      | with_reducible assumption
      | (with_reducible refine wf_ite ?_ ?_)
      | (with_reducible refine wf_eq (State.bootCode_frame ..).2.2 ?_)
      | (with_reducible refine (ImgRun.allSections_frame ..).2.2 ?_)
      | (with_reducible refine wf_eq (State.setRegN_frame ..).2.2 ?_)
      | (with_reducible refine wf_eq (State.setBit_frame ..).2.2 ?_)
      | (with_reducible refine wf_eq (State.armSafety_frame ..).2.2 ?_)
      | (with_reducible refine (State.defaultSafety_frame ..).2.2 ?_)
      | (with_reducible refine foldl_wf _ _ _ (fun s a h => ?_) ?_)
      | dsimp only
      | split

theorem State.closeSlot_frame (s : State) (n : Nat)  : (State.closeSlot s n).pending = s.pending ∧ (State.closeSlot s n).tck.now = s.tck.now ∧ (State.closeSlot s n).mem = s.mem := by
  unfold State.closeSlot
  repeat' first
    | (simp only [implies_true, and_self, and_true, true_and, apply_ite State.pending, apply_ite State.mem, apply_ite State.tck, apply_ite TckSt.now, State.mgtClose_frame]; done)
    | (simp (maxDischargeDepth := 8) only [foldl_PMN, implies_true, and_self, and_true, true_and, apply_ite State.pending, apply_ite State.mem, apply_ite State.tck, apply_ite TckSt.now, State.mgtClose_frame]; done)
    | (with_reducible refine foldl_PMN _ _ _ (fun s a => ?_))
    | split
    | (simp only [implies_true, and_self, and_true, true_and, apply_ite State.pending, apply_ite State.mem, apply_ite State.tck, apply_ite TckSt.now, State.mgtClose_frame])

theorem State.takeKey_frame (s : State) (n : Nat)  : (State.takeKey s n).pending = s.pending ∧ (State.takeKey s n).tck.now = s.tck.now ∧ (State.takeKey s n).mem = s.mem := by
  unfold State.takeKey
  repeat' first
    | (simp only [implies_true, and_self, and_true, true_and, apply_ite State.pending, apply_ite State.mem, apply_ite State.tck, apply_ite TckSt.now, State.closeSlot_frame, State.setBit_frame]; done)
    | (simp (maxDischargeDepth := 8) only [foldl_PMN, implies_true, and_self, and_true, true_and, apply_ite State.pending, apply_ite State.mem, apply_ite State.tck, apply_ite TckSt.now, State.closeSlot_frame, State.setBit_frame]; done)
    | (with_reducible refine foldl_PMN _ _ _ (fun s a => ?_))
    | split
    | (simp only [implies_true, and_self, and_true, true_and, apply_ite State.pending, apply_ite State.mem, apply_ite State.tck, apply_ite TckSt.now, State.closeSlot_frame, State.setBit_frame])

theorem State.bootOn_frame (s : State)  : (State.bootOn s).pending = s.pending ∧ (State.bootOn s).tck.now = s.tck.now ∧ (Memory.wf s.mem = true → Memory.wf (State.bootOn s).mem = true) := by
  unfold State.bootOn
  refine ⟨?_, ?_, fun h => ?_⟩
  · repeat' first
      | with_reducible assumption
      | with_reducible rfl
      | (with_reducible refine alP_ite ?_ ?_)
      | (with_reducible refine Eq.trans (State.bootFails_frame ..).1 ?_)
      | (with_reducible refine Eq.trans (State.bootCode_frame ..).1 ?_)
      | (with_reducible refine Eq.trans (State.setRegN_frame ..).1 ?_)
      | (with_reducible refine Eq.trans (State.takeKey_frame ..).1 ?_)
      | (with_reducible refine Eq.trans (State.calBoot_frame ..).1 ?_)
      | (with_reducible refine Eq.trans (State.takePark_frame ..).1 ?_)
      | (with_reducible refine Eq.trans (State.bootImage_frame ..).1 ?_)
      | (with_reducible refine Eq.trans (State.mirTrain_frame ..).1 ?_)
      | (with_reducible refine Eq.trans (State.showPhist_frame ..).1 ?_)
      | (with_reducible refine Eq.trans (State.setFld_frame ..).1 ?_)
      | dsimp only
      | split
  · repeat' first
      | with_reducible assumption
      | with_reducible rfl
      | (with_reducible refine alN_ite ?_ ?_)
      | (with_reducible refine Eq.trans (State.bootFails_frame ..).2.1 ?_)
      | (with_reducible refine Eq.trans (State.bootCode_frame ..).2.1 ?_)
      | (with_reducible refine Eq.trans (State.setRegN_frame ..).2.1 ?_)
      | (with_reducible refine Eq.trans (State.takeKey_frame ..).2.1 ?_)
      | (with_reducible refine Eq.trans (State.calBoot_frame ..).2.1 ?_)
      | (with_reducible refine Eq.trans (State.takePark_frame ..).2.1 ?_)
      | (with_reducible refine Eq.trans (State.bootImage_frame ..).2.1 ?_)
      | (with_reducible refine Eq.trans (State.mirTrain_frame ..).2.1 ?_)
      | (with_reducible refine Eq.trans (State.showPhist_frame ..).2.1 ?_)
      | (with_reducible refine Eq.trans (State.setFld_frame ..).2.1 ?_)
      | dsimp only
      | split
  · repeat' first
      | with_reducible assumption
      | with_reducible rfl
      | (with_reducible refine alW_ite ?_ ?_)
      | (with_reducible refine wf_eq (State.bootFails_frame ..).2.2 ?_)
      | (with_reducible refine wf_eq (State.bootCode_frame ..).2.2 ?_)
      | (with_reducible refine wf_eq (State.setRegN_frame ..).2.2 ?_)
      | (with_reducible refine wf_eq (State.takeKey_frame ..).2.2 ?_)
      | (with_reducible refine wf_eq (State.calBoot_frame ..).2.2 ?_)
      | (with_reducible refine wf_eq (State.takePark_frame ..).2.2 ?_)
      | (with_reducible refine (State.bootImage_frame ..).2.2 ?_)
      | (with_reducible refine wf_eq (State.mirTrain_frame ..).2.2 ?_)
      | (with_reducible refine wf_eq (State.showPhist_frame ..).2.2 ?_)
      | (with_reducible refine wf_eq (State.setFld_frame ..).2.2 ?_)
      | dsimp only
      | split

theorem State.coldStart_frame (s : State) (straps : Nat) (pll clear : Bool)  : (State.coldStart s straps pll clear).pending = s.pending ∧ (State.coldStart s straps pll clear).tck.now = s.tck.now ∧ (Memory.wf s.mem = true → Memory.wf (State.coldStart s straps pll clear).mem = true) := by
  unfold State.coldStart
  refine (and_assoc.1 ⟨?_, fun h => ?_⟩)
  · repeat' first
      | (simp only [implies_true, and_self, and_true, true_and, apply_ite State.pending, apply_ite State.tck, apply_ite TckSt.now, State.setBit_frame, State.bootFails_frame, State.mramCount_frame, State.setRegN_frame, State.bootOn_frame]; done)
      | (simp (maxDischargeDepth := 8) only [foldl_PN, implies_true, and_self, and_true, true_and, apply_ite State.pending, apply_ite State.tck, apply_ite TckSt.now, State.setBit_frame, State.bootFails_frame, State.mramCount_frame, State.setRegN_frame, State.bootOn_frame]; done)
      | (with_reducible refine foldl_PN _ _ _ (fun s a => ?_))
      | split
      | (simp only [implies_true, and_self, and_true, true_and, apply_ite State.pending, apply_ite State.tck, apply_ite TckSt.now, State.setBit_frame, State.bootFails_frame, State.mramCount_frame, State.setRegN_frame, State.bootOn_frame])
  · repeat' first
      | with_reducible assumption
      | (with_reducible refine wf_ite ?_ ?_)
      | (with_reducible refine wf_eq (State.setBit_frame ..).2.2 ?_)
      | (with_reducible refine wf_eq (State.bootFails_frame ..).2.2 ?_)
      | (with_reducible refine (State.mramCount_frame ..).2.2 ?_)
      | (with_reducible refine wf_eq (State.setRegN_frame ..).2.2 ?_)
      | (with_reducible refine (State.bootOn_frame ..).2.2 ?_)
      | (with_reducible refine foldl_wf _ _ _ (fun s a h => ?_) ?_)
      | dsimp only
      | split

theorem State.coldReset_frame (s : State) (cause straps : Nat) (pll clear : Bool)  : (State.coldReset s cause straps pll clear).pending = s.pending ∧ (Memory.wf s.mem = true → Memory.wf (State.coldReset s cause straps pll clear).mem = true) := by
  unfold State.coldReset
  refine ⟨?_, fun h => ?_⟩
  · repeat' first
      | (simp only [implies_true, and_self, and_true, true_and, apply_ite State.pending, State.wipe_frame, State.chooseInput_frame, State.setFld_frame, State.returnShown_frame, State.setRegN_frame, State.logEvent_frame, State.coldStart_frame]; done)
      | (simp (maxDischargeDepth := 8) only [foldl_P, implies_true, and_self, and_true, true_and, apply_ite State.pending, State.wipe_frame, State.chooseInput_frame, State.setFld_frame, State.returnShown_frame, State.setRegN_frame, State.logEvent_frame, State.coldStart_frame]; done)
      | (with_reducible refine foldl_P _ _ _ (fun s a => ?_))
      | split
      | (simp only [implies_true, and_self, and_true, true_and, apply_ite State.pending, State.wipe_frame, State.chooseInput_frame, State.setFld_frame, State.returnShown_frame, State.setRegN_frame, State.logEvent_frame, State.coldStart_frame])
  · repeat' first
      | with_reducible assumption
      | (with_reducible refine wf_ite ?_ ?_)
      | (with_reducible refine (State.wipe_frame ..).2 ?_)
      | (with_reducible refine (State.chooseInput_frame ..).2.2 ?_)
      | (with_reducible refine wf_eq (State.setFld_frame ..).2.2 ?_)
      | (with_reducible refine wf_eq (State.returnShown_frame ..).2.2 ?_)
      | (with_reducible refine wf_eq (State.setRegN_frame ..).2.2 ?_)
      | (with_reducible refine wf_eq (State.logEvent_frame ..).2.2 ?_)
      | (with_reducible refine (State.coldStart_frame ..).2.2 ?_)
      | (with_reducible refine foldl_wf _ _ _ (fun s a h => ?_) ?_)
      | dsimp only
      | split

theorem State.warmReset_frame (s : State) (clear : Bool)  : (State.warmReset s clear).pending = s.pending ∧ (Memory.wf s.mem = true → Memory.wf (State.warmReset s clear).mem = true) := by
  unfold State.warmReset
  refine ⟨?_, fun h => ?_⟩
  · repeat' first
      | (simp only [implies_true, and_self, and_true, true_and, apply_ite State.pending, State.wipe_frame, State.setFld_frame, State.setReg_frame, State.chooseInput_frame, State.setRegN_frame, State.logEvent_frame, State.bootFails_frame, State.bootOn_frame]; done)
      | (simp (maxDischargeDepth := 8) only [foldl_P, implies_true, and_self, and_true, true_and, apply_ite State.pending, State.wipe_frame, State.setFld_frame, State.setReg_frame, State.chooseInput_frame, State.setRegN_frame, State.logEvent_frame, State.bootFails_frame, State.bootOn_frame]; done)
      | (with_reducible refine foldl_P _ _ _ (fun s a => ?_))
      | split
      | (simp only [implies_true, and_self, and_true, true_and, apply_ite State.pending, State.wipe_frame, State.setFld_frame, State.setReg_frame, State.chooseInput_frame, State.setRegN_frame, State.logEvent_frame, State.bootFails_frame, State.bootOn_frame])
  · repeat' first
      | with_reducible assumption
      | (with_reducible refine wf_ite ?_ ?_)
      | (with_reducible refine (State.wipe_frame ..).2 ?_)
      | (with_reducible refine wf_eq (State.setFld_frame ..).2.2 ?_)
      | (with_reducible refine wf_eq (State.setReg_frame ..).2.2 ?_)
      | (with_reducible refine (State.chooseInput_frame ..).2.2 ?_)
      | (with_reducible refine wf_eq (State.setRegN_frame ..).2.2 ?_)
      | (with_reducible refine wf_eq (State.logEvent_frame ..).2.2 ?_)
      | (with_reducible refine wf_eq (State.bootFails_frame ..).2.2 ?_)
      | (with_reducible refine (State.bootOn_frame ..).2.2 ?_)
      | (with_reducible refine foldl_wf _ _ _ (fun s a h => ?_) ?_)
      | dsimp only
      | split

theorem State.glbReset_frame (s : State) (m : Nat) (v : Word) (straps : Nat) (pll clear : Bool)  : (State.glbReset s m v straps pll clear).pending = s.pending ∧ (Memory.wf s.mem = true → Memory.wf (State.glbReset s m v straps pll clear).mem = true) := by
  unfold State.glbReset
  refine ⟨?_, fun h => ?_⟩
  · repeat' first
      | (simp only [implies_true, and_self, and_true, true_and, apply_ite State.pending, State.refuseWrite_frame, State.askFlush_frame, State.flushAll_frame, State.coldReset_frame, State.warmReset_frame, State.mgmtReset_frame]; done)
      | (simp (maxDischargeDepth := 8) only [foldl_P, implies_true, and_self, and_true, true_and, apply_ite State.pending, State.refuseWrite_frame, State.askFlush_frame, State.flushAll_frame, State.coldReset_frame, State.warmReset_frame, State.mgmtReset_frame]; done)
      | (with_reducible refine foldl_P _ _ _ (fun s a => ?_))
      | split
      | (simp only [implies_true, and_self, and_true, true_and, apply_ite State.pending, State.refuseWrite_frame, State.askFlush_frame, State.flushAll_frame, State.coldReset_frame, State.warmReset_frame, State.mgmtReset_frame])
  · repeat' first
      | with_reducible assumption
      | (with_reducible refine wf_ite ?_ ?_)
      | (with_reducible refine wf_eq (State.refuseWrite_frame ..).2.2 ?_)
      | (with_reducible refine (State.askFlush_frame ..).2.2 ?_)
      | (with_reducible refine (State.flushAll_frame ..).2.2 ?_)
      | (with_reducible refine (State.coldReset_frame ..).2 ?_)
      | (with_reducible refine (State.warmReset_frame ..).2 ?_)
      | (with_reducible refine wf_eq (State.mgmtReset_frame ..).2.2 ?_)
      | (with_reducible refine foldl_wf _ _ _ (fun s a h => ?_) ?_)
      | dsimp only
      | split

theorem State.resetN_frame (s : State) (ns straps : Nat) (pll clear : Bool)  : (State.resetN s ns straps pll clear).pending = s.pending ∧ (Memory.wf s.mem = true → Memory.wf (State.resetN s ns straps pll clear).mem = true) := by
  unfold State.resetN
  refine ⟨?_, fun h => ?_⟩
  · repeat' first
      | (simp only [implies_true, and_self, and_true, true_and, apply_ite State.pending, State.coldReset_frame]; done)
      | (simp (maxDischargeDepth := 8) only [foldl_P, implies_true, and_self, and_true, true_and, apply_ite State.pending, State.coldReset_frame]; done)
      | (with_reducible refine foldl_P _ _ _ (fun s a => ?_))
      | split
      | (simp only [implies_true, and_self, and_true, true_and, apply_ite State.pending, State.coldReset_frame])
  · repeat' first
      | with_reducible assumption
      | (with_reducible refine wf_ite ?_ ?_)
      | (with_reducible refine (State.coldReset_frame ..).2 ?_)
      | (with_reducible refine foldl_wf _ _ _ (fun s a h => ?_) ?_)
      | dsimp only
      | split

theorem State.resetViews_frame (s : State) (page : Nat)  : (State.resetViews s page).pending = s.pending ∧ (State.resetViews s page).tck.now = s.tck.now ∧ (State.resetViews s page).mem = s.mem := by
  unfold State.resetViews
  repeat' first
    | (simp only [implies_true, and_self, and_true, true_and, apply_ite State.pending, apply_ite State.mem, apply_ite State.tck, apply_ite TckSt.now, State.setReg_frame, State.setForce_frame]; done)
    | (simp (maxDischargeDepth := 8) only [foldl_PMN, implies_true, and_self, and_true, true_and, apply_ite State.pending, apply_ite State.mem, apply_ite State.tck, apply_ite TckSt.now, State.setReg_frame, State.setForce_frame]; done)
    | (with_reducible refine foldl_PMN _ _ _ (fun s a => ?_))
    | split
    | (simp only [implies_true, and_self, and_true, true_and, apply_ite State.pending, apply_ite State.mem, apply_ite State.tck, apply_ite TckSt.now, State.setReg_frame, State.setForce_frame])

theorem State.clearFaults_frame (s : State) (page : Nat)  : (State.clearFaults s page).pending = s.pending ∧ (State.clearFaults s page).tck.now = s.tck.now ∧ (State.clearFaults s page).mem = s.mem := by
  unfold State.clearFaults
  repeat' first
    | (simp only [implies_true, and_self, and_true, true_and, apply_ite State.pending, apply_ite State.mem, apply_ite State.tck, apply_ite TckSt.now, State.setRegN_frame]; done)
    | (simp (maxDischargeDepth := 8) only [foldl_PMN, implies_true, and_self, and_true, true_and, apply_ite State.pending, apply_ite State.mem, apply_ite State.tck, apply_ite TckSt.now, State.setRegN_frame]; done)
    | (with_reducible refine foldl_PMN _ _ _ (fun s a => ?_))
    | split
    | (simp only [implies_true, and_self, and_true, true_and, apply_ite State.pending, apply_ite State.mem, apply_ite State.tck, apply_ite TckSt.now, State.setRegN_frame])

theorem State.softEffect_frame (s : State) (page : Nat)  : (State.softEffect s page).pending = s.pending ∧ (State.softEffect s page).tck.now = s.tck.now ∧ (Memory.wf s.mem = true → Memory.wf (State.softEffect s page).mem = true) := by
  unfold State.softEffect
  refine (and_assoc.1 ⟨?_, fun h => ?_⟩)
  · repeat' first
      | (simp only [implies_true, and_self, and_true, true_and, apply_ite State.pending, apply_ite State.tck, apply_ite TckSt.now, State.retrain_frame, State.portLinkDown_frame, State.emptyQueues_frame, State.jobCancelAll_frame, State.tick1_frame, State.meaRestart_frame, State.losEnTakes_frame, State.calAbort_frame]; done)
      | (simp (maxDischargeDepth := 8) only [foldl_PN, implies_true, and_self, and_true, true_and, apply_ite State.pending, apply_ite State.tck, apply_ite TckSt.now, State.retrain_frame, State.portLinkDown_frame, State.emptyQueues_frame, State.jobCancelAll_frame, State.tick1_frame, State.meaRestart_frame, State.losEnTakes_frame, State.calAbort_frame]; done)
      | (with_reducible refine foldl_PN _ _ _ (fun s a => ?_))
      | split
      | (simp only [implies_true, and_self, and_true, true_and, apply_ite State.pending, apply_ite State.tck, apply_ite TckSt.now, State.retrain_frame, State.portLinkDown_frame, State.emptyQueues_frame, State.jobCancelAll_frame, State.tick1_frame, State.meaRestart_frame, State.losEnTakes_frame, State.calAbort_frame])
  · repeat' first
      | with_reducible assumption
      | (with_reducible refine wf_ite ?_ ?_)
      | (with_reducible refine wf_eq (State.retrain_frame ..).2.2 ?_)
      | (with_reducible refine wf_eq (State.portLinkDown_frame ..).2.2 ?_)
      | (with_reducible refine wf_eq (State.emptyQueues_frame ..).2.2 ?_)
      | (with_reducible refine (State.jobCancelAll_frame ..).2.2 ?_)
      | (with_reducible refine wf_eq (State.tick1_frame ..).2.2 ?_)
      | (with_reducible refine wf_eq (State.meaRestart_frame ..).2.2 ?_)
      | (with_reducible refine wf_eq (State.losEnTakes_frame ..).2.2 ?_)
      | (with_reducible refine wf_eq (State.calAbort_frame ..).2.2 ?_)
      | (with_reducible refine foldl_wf _ _ _ (fun s a h => ?_) ?_)
      | dsimp only
      | split

theorem State.softReset_frame (s : State) (page : Nat)  : (State.softReset s page).pending = s.pending ∧ (State.softReset s page).tck.now = s.tck.now ∧ (Memory.wf s.mem = true → Memory.wf (State.softReset s page).mem = true) := by
  unfold State.softReset
  refine (and_assoc.1 ⟨?_, fun h => ?_⟩)
  · repeat' first
      | (simp only [implies_true, and_self, and_true, true_and, apply_ite State.pending, apply_ite State.tck, apply_ite TckSt.now, State.logEvent_frame, State.softEffect_frame, State.resetViews_frame, State.clearFaults_frame, State.setBit_frame]; done)
      | (simp (maxDischargeDepth := 8) only [foldl_PN, implies_true, and_self, and_true, true_and, apply_ite State.pending, apply_ite State.tck, apply_ite TckSt.now, State.logEvent_frame, State.softEffect_frame, State.resetViews_frame, State.clearFaults_frame, State.setBit_frame]; done)
      | (with_reducible refine foldl_PN _ _ _ (fun s a => ?_))
      | split
      | (simp only [implies_true, and_self, and_true, true_and, apply_ite State.pending, apply_ite State.tck, apply_ite TckSt.now, State.logEvent_frame, State.softEffect_frame, State.resetViews_frame, State.clearFaults_frame, State.setBit_frame])
  · repeat' first
      | with_reducible assumption
      | (with_reducible refine wf_ite ?_ ?_)
      | (with_reducible refine wf_eq (State.logEvent_frame ..).2.2 ?_)
      | (with_reducible refine (State.softEffect_frame ..).2.2 ?_)
      | (with_reducible refine wf_eq (State.resetViews_frame ..).2.2 ?_)
      | (with_reducible refine wf_eq (State.clearFaults_frame ..).2.2 ?_)
      | (with_reducible refine wf_eq (State.setBit_frame ..).2.2 ?_)
      | (with_reducible refine foldl_wf _ _ _ (fun s a h => ?_) ?_)
      | dsimp only
      | split

theorem State.pllLoss_frame (s : State)  : (State.pllLoss s).pending = s.pending ∧ (State.pllLoss s).tck.now = s.tck.now ∧ (State.pllLoss s).mem = s.mem := by
  unfold State.pllLoss
  repeat' first
    | (simp only [implies_true, and_self, and_true, true_and, apply_ite State.pending, apply_ite State.mem, apply_ite State.tck, apply_ite TckSt.now, State.setBit_frame, State.bump_frame, State.raise_frame]; done)
    | (simp (maxDischargeDepth := 8) only [foldl_PMN, implies_true, and_self, and_true, true_and, apply_ite State.pending, apply_ite State.mem, apply_ite State.tck, apply_ite TckSt.now, State.setBit_frame, State.bump_frame, State.raise_frame]; done)
    | (with_reducible refine foldl_PMN _ _ _ (fun s a => ?_))
    | split
    | (simp only [implies_true, and_self, and_true, true_and, apply_ite State.pending, apply_ite State.mem, apply_ite State.tck, apply_ite TckSt.now, State.setBit_frame, State.bump_frame, State.raise_frame])

theorem State.pllBack_frame (s : State) (us : Nat)  : (State.pllBack s us).pending = s.pending ∧ (State.pllBack s us).tck.now = s.tck.now ∧ (State.pllBack s us).mem = s.mem := by
  unfold State.pllBack
  repeat' first
    | (simp only [implies_true, and_self, and_true, true_and, apply_ite State.pending, apply_ite State.mem, apply_ite State.tck, apply_ite TckSt.now, State.setBit_frame, State.setRegN_frame, State.raise_frame]; done)
    | (simp (maxDischargeDepth := 8) only [foldl_PMN, implies_true, and_self, and_true, true_and, apply_ite State.pending, apply_ite State.mem, apply_ite State.tck, apply_ite TckSt.now, State.setBit_frame, State.setRegN_frame, State.raise_frame]; done)
    | (with_reducible refine foldl_PMN _ _ _ (fun s a => ?_))
    | split
    | (simp only [implies_true, and_self, and_true, true_and, apply_ite State.pending, apply_ite State.mem, apply_ite State.tck, apply_ite TckSt.now, State.setBit_frame, State.setRegN_frame, State.raise_frame])

theorem execResetN_frame (ns : Nat) (straps : Fin 16) (pll clear : Bool) (s : State) {r : State} (e : execResetN ns straps pll clear s = .next r) : r.pending = s.pending ∧ (Memory.wf s.mem = true → Memory.wf r.mem = true) := by
  unfold execResetN at e
  revert e
  intro e
  refine ⟨?_, fun h => ?_⟩
  · revert e
    repeat' first
      | with_reducible assumption
      | with_reducible rfl
      | (with_reducible refine Eq.trans (State.resetN_frame ..).1 ?_)
      | (with_reducible refine ocP_next ?_)
      | with_reducible exact ocP_fault
      | dsimp only
      | split
  · revert e
    repeat' first
      | with_reducible assumption
      | with_reducible rfl
      | (with_reducible refine (State.resetN_frame ..).2 ?_)
      | (with_reducible refine ocW_next ?_)
      | with_reducible exact ocW_fault
      | dsimp only
      | split

theorem execColdReset_frame (m : Fin 8) (key : BitVec 16) (straps : Fin 16) (pll clear : Bool) (s : State) {r : State} (e : execColdReset m key straps pll clear s = .next r) : r.pending = s.pending ∧ (Memory.wf s.mem = true → Memory.wf r.mem = true) := by
  unfold execColdReset at e
  revert e
  intro e
  refine ⟨?_, fun h => ?_⟩
  · revert e
    repeat' first
      | with_reducible assumption
      | with_reducible rfl
      | (with_reducible refine Eq.trans (State.gateWrite_frP (heff := fun _ => ?_) ..) ?_)
      | (with_reducible refine Eq.trans (State.glbReset_frame ..).1 ?_)
      | (with_reducible refine ocP_next ?_)
      | with_reducible exact ocP_fault
      | dsimp only
      | split
  · revert e
    repeat' first
      | with_reducible assumption
      | with_reducible rfl
      | (with_reducible refine (State.gateWrite_frW (heff := fun _ h => ?_) (hw := ?_) ..))
      | (with_reducible refine wf_eq (State.gateWrite_frame ..).2.2 ?_)
      | (with_reducible refine (State.glbReset_frame ..).2 ?_)
      | (with_reducible refine ocW_next ?_)
      | with_reducible exact ocW_fault
      | dsimp only
      | split

theorem execWarmReset_frame (m : Fin 8) (key : BitVec 16) (clear : Bool) (s : State) {r : State} (e : execWarmReset m key clear s = .next r) : r.pending = s.pending ∧ (Memory.wf s.mem = true → Memory.wf r.mem = true) := by
  unfold execWarmReset at e
  revert e
  intro e
  refine ⟨?_, fun h => ?_⟩
  · revert e
    repeat' first
      | with_reducible assumption
      | with_reducible rfl
      | (with_reducible refine Eq.trans (State.gateWrite_frP (heff := fun _ => ?_) ..) ?_)
      | (with_reducible refine Eq.trans (State.glbReset_frame ..).1 ?_)
      | (with_reducible refine ocP_next ?_)
      | with_reducible exact ocP_fault
      | dsimp only
      | split
  · revert e
    repeat' first
      | with_reducible assumption
      | with_reducible rfl
      | (with_reducible refine (State.gateWrite_frW (heff := fun _ h => ?_) (hw := ?_) ..))
      | (with_reducible refine wf_eq (State.gateWrite_frame ..).2.2 ?_)
      | (with_reducible refine (State.glbReset_frame ..).2 ?_)
      | (with_reducible refine ocW_next ?_)
      | with_reducible exact ocW_fault
      | dsimp only
      | split

theorem execManagementReset_frame (m : Fin 8) (key : BitVec 16) (cycle : Nat) (s : State) {r : State} (e : execManagementReset m key cycle s = .next r) : r.pending = s.pending ∧ (Memory.wf s.mem = true → Memory.wf r.mem = true) := by
  unfold execManagementReset at e
  revert e
  intro e
  refine ⟨?_, fun h => ?_⟩
  · revert e
    repeat' first
      | with_reducible assumption
      | with_reducible rfl
      | (with_reducible refine Eq.trans (State.atCycle_frame ..).1 ?_)
      | (with_reducible refine Eq.trans (State.gateWrite_frP (heff := fun _ => ?_) ..) ?_)
      | (with_reducible refine Eq.trans (State.glbReset_frame ..).1 ?_)
      | (with_reducible refine ocP_next ?_)
      | with_reducible exact ocP_fault
      | dsimp only
      | split
  · revert e
    repeat' first
      | with_reducible assumption
      | with_reducible rfl
      | (with_reducible refine wf_eq (State.atCycle_frame ..).2.2 ?_)
      | (with_reducible refine (State.gateWrite_frW (heff := fun _ h => ?_) (hw := ?_) ..))
      | (with_reducible refine wf_eq (State.gateWrite_frame ..).2.2 ?_)
      | (with_reducible refine (State.glbReset_frame ..).2 ?_)
      | (with_reducible refine ocW_next ?_)
      | with_reducible exact ocW_fault
      | dsimp only
      | split

theorem execSrst_frame (m : Fin 8) (page : BitVec 14) (v : Word) (s : State) {r : State} (e : execSrst m page v s = .next r) : r.pending = s.pending ∧ r.tck.now = s.tck.now ∧ (Memory.wf s.mem = true → Memory.wf r.mem = true) := by
  unfold execSrst at e
  revert e
  intro e
  refine ⟨?_, ?_, fun h => ?_⟩
  · revert e
    repeat' first
      | with_reducible assumption
      | with_reducible rfl
      | (with_reducible refine Eq.trans (State.gateWrite_frP (heff := fun _ => ?_) ..) ?_)
      | (with_reducible refine Eq.trans (State.storeReg_frame ..).1 ?_)
      | (with_reducible refine Eq.trans (State.softReset_frame ..).1 ?_)
      | (with_reducible refine ocP_next ?_)
      | with_reducible exact ocP_fault
      | dsimp only
      | split
  · revert e
    repeat' first
      | with_reducible assumption
      | with_reducible rfl
      | (with_reducible refine Eq.trans (State.gateWrite_frN (heff := fun _ => ?_) ..) ?_)
      | (with_reducible refine Eq.trans (State.storeReg_frame ..).2.1 ?_)
      | (with_reducible refine Eq.trans (State.softReset_frame ..).2.1 ?_)
      | (with_reducible refine ocN_next ?_)
      | with_reducible exact ocN_fault
      | dsimp only
      | split
  · revert e
    repeat' first
      | with_reducible assumption
      | with_reducible rfl
      | (with_reducible refine (State.gateWrite_frW (heff := fun _ h => ?_) (hw := ?_) ..))
      | (with_reducible refine wf_eq (State.gateWrite_frame ..).2.2 ?_)
      | (with_reducible refine wf_eq (State.storeReg_frame ..).2.2 ?_)
      | (with_reducible refine (State.softReset_frame ..).2.2 ?_)
      | (with_reducible refine ocW_next ?_)
      | with_reducible exact ocW_fault
      | dsimp only
      | split

theorem execPowerOnRestart_frame (straps : Fin 16) (pll clear cool : Bool) (s : State) {r : State} (e : execPowerOnRestart straps pll clear cool s = .next r) : r.pending = s.pending ∧ (Memory.wf s.mem = true → Memory.wf r.mem = true) := by
  unfold execPowerOnRestart at e
  revert e
  intro e
  refine ⟨?_, fun h => ?_⟩
  · revert e
    repeat' first
      | with_reducible assumption
      | with_reducible rfl
      | (with_reducible refine alP_ite ?_ ?_)
      | (with_reducible refine Eq.trans (State.coldReset_frame ..).1 ?_)
      | (with_reducible refine ocP_next ?_)
      | with_reducible exact ocP_fault
      | (with_reducible refine ocP_ite ?_ ?_)
      | dsimp only
      | split
  · revert e
    repeat' first
      | with_reducible assumption
      | with_reducible rfl
      | (with_reducible refine alW_ite ?_ ?_)
      | (with_reducible refine (State.coldReset_frame ..).2 ?_)
      | (with_reducible refine ocW_next ?_)
      | with_reducible exact ocW_fault
      | (with_reducible refine ocW_ite ?_ ?_)
      | dsimp only
      | split

theorem execThermalRestart_frame (straps : Fin 16) (pll clear : Bool) (s : State) {r : State} (e : execThermalRestart straps pll clear s = .next r) : r.pending = s.pending ∧ (Memory.wf s.mem = true → Memory.wf r.mem = true) := by
  unfold execThermalRestart at e
  revert e
  intro e
  refine ⟨?_, fun h => ?_⟩
  · revert e
    repeat' first
      | with_reducible assumption
      | with_reducible rfl
      | (with_reducible refine alP_ite ?_ ?_)
      | (with_reducible refine Eq.trans (State.coldReset_frame ..).1 ?_)
      | (with_reducible refine Eq.trans (State.setRegN_frame ..).1 ?_)
      | (with_reducible refine ocP_next ?_)
      | with_reducible exact ocP_fault
      | (with_reducible refine ocP_ite ?_ ?_)
      | dsimp only
      | split
  · revert e
    repeat' first
      | with_reducible assumption
      | with_reducible rfl
      | (with_reducible refine alW_ite ?_ ?_)
      | (with_reducible refine (State.coldReset_frame ..).2 ?_)
      | (with_reducible refine wf_eq (State.setRegN_frame ..).2.2 ?_)
      | (with_reducible refine ocW_next ?_)
      | with_reducible exact ocW_fault
      | (with_reducible refine ocW_ite ?_ ?_)
      | dsimp only
      | split

theorem execPllLockLoss_frame (cycle : Nat) (s : State) {r : State} (e : execPllLockLoss cycle s = .next r) : r.pending = s.pending ∧ r.tck.now = s.tck.now ∧ r.mem = s.mem := by
  unfold execPllLockLoss at e
  revert e
  intro e
  refine ⟨?_, ?_, ?_⟩
  · revert e
    repeat' first
      | with_reducible assumption
      | with_reducible rfl
      | (with_reducible refine Eq.trans (State.atCycle_frame ..).1 ?_)
      | (with_reducible refine Eq.trans (State.pllLoss_frame ..).1 ?_)
      | (with_reducible refine ocP_next ?_)
      | with_reducible exact ocP_fault
      | dsimp only
      | split
  · revert e
    repeat' first
      | with_reducible assumption
      | with_reducible rfl
      | (with_reducible refine Eq.trans (State.atCycle_frame ..).2.1 ?_)
      | (with_reducible refine Eq.trans (State.pllLoss_frame ..).2.1 ?_)
      | (with_reducible refine ocN_next ?_)
      | with_reducible exact ocN_fault
      | dsimp only
      | split
  · revert e
    repeat' first
      | with_reducible assumption
      | with_reducible rfl
      | (with_reducible refine Eq.trans (State.atCycle_frame ..).2.2 ?_)
      | (with_reducible refine Eq.trans (State.pllLoss_frame ..).2.2 ?_)
      | (with_reducible refine ocM_next ?_)
      | with_reducible exact ocM_fault
      | dsimp only
      | split

theorem execPllUnlocked2ms_frame (s : State) {r : State} (e : execPllUnlocked2ms s = .next r) : r.pending = s.pending ∧ r.tck.now = s.tck.now ∧ r.mem = s.mem := by
  unfold execPllUnlocked2ms at e
  revert e
  intro e
  refine ⟨?_, ?_, ?_⟩
  · revert e
    repeat' first
      | with_reducible assumption
      | with_reducible rfl
      | (with_reducible refine alP_ite ?_ ?_)
      | (with_reducible refine ocP_next ?_)
      | with_reducible exact ocP_fault
      | (with_reducible refine ocP_ite ?_ ?_)
      | dsimp only
      | split
  · revert e
    repeat' first
      | with_reducible assumption
      | with_reducible rfl
      | (with_reducible refine alN_ite ?_ ?_)
      | (with_reducible refine ocN_next ?_)
      | with_reducible exact ocN_fault
      | (with_reducible refine ocN_ite ?_ ?_)
      | dsimp only
      | split
  · revert e
    repeat' first
      | with_reducible assumption
      | with_reducible rfl
      | (with_reducible refine alM_ite ?_ ?_)
      | (with_reducible refine ocM_next ?_)
      | with_reducible exact ocM_fault
      | (with_reducible refine ocM_ite ?_ ?_)
      | dsimp only
      | split

theorem execRefclkLoss_frame (s : State) {r : State} (e : execRefclkLoss s = .next r) : r.pending = s.pending ∧ r.tck.now = s.tck.now ∧ r.mem = s.mem := by
  unfold execRefclkLoss at e
  revert e
  intro e
  refine ⟨?_, ?_, ?_⟩
  · revert e
    repeat' first
      | with_reducible assumption
      | with_reducible rfl
      | (with_reducible refine alP_ite ?_ ?_)
      | (with_reducible refine Eq.trans (State.setBit_frame ..).1 ?_)
      | (with_reducible refine Eq.trans (State.bump_frame ..).1 ?_)
      | (with_reducible refine Eq.trans (State.raise_frame ..).1 ?_)
      | (with_reducible refine ocP_next ?_)
      | with_reducible exact ocP_fault
      | (with_reducible refine ocP_ite ?_ ?_)
      | dsimp only
      | split
  · revert e
    repeat' first
      | with_reducible assumption
      | with_reducible rfl
      | (with_reducible refine alN_ite ?_ ?_)
      | (with_reducible refine Eq.trans (State.setBit_frame ..).2.1 ?_)
      | (with_reducible refine Eq.trans (State.bump_frame ..).2.1 ?_)
      | (with_reducible refine Eq.trans (State.raise_frame ..).2.1 ?_)
      | (with_reducible refine ocN_next ?_)
      | with_reducible exact ocN_fault
      | (with_reducible refine ocN_ite ?_ ?_)
      | dsimp only
      | split
  · revert e
    repeat' first
      | with_reducible assumption
      | with_reducible rfl
      | (with_reducible refine alM_ite ?_ ?_)
      | (with_reducible refine Eq.trans (State.setBit_frame ..).2.2 ?_)
      | (with_reducible refine Eq.trans (State.bump_frame ..).2.2 ?_)
      | (with_reducible refine Eq.trans (State.raise_frame ..).2.2 ?_)
      | (with_reducible refine ocM_next ?_)
      | with_reducible exact ocM_fault
      | (with_reducible refine ocM_ite ?_ ?_)
      | dsimp only
      | split

theorem execRefclkReturn_frame (s : State) {r : State} (e : execRefclkReturn s = .next r) : r.pending = s.pending ∧ r.tck.now = s.tck.now ∧ r.mem = s.mem := by
  unfold execRefclkReturn at e
  revert e
  intro e
  refine ⟨?_, ?_, ?_⟩
  · revert e
    repeat' first
      | with_reducible assumption
      | with_reducible rfl
      | (with_reducible refine Eq.trans (State.setBit_frame ..).1 ?_)
      | (with_reducible refine ocP_next ?_)
      | with_reducible exact ocP_fault
      | dsimp only
      | split
  · revert e
    repeat' first
      | with_reducible assumption
      | with_reducible rfl
      | (with_reducible refine Eq.trans (State.setBit_frame ..).2.1 ?_)
      | (with_reducible refine ocN_next ?_)
      | with_reducible exact ocN_fault
      | dsimp only
      | split
  · revert e
    repeat' first
      | with_reducible assumption
      | with_reducible rfl
      | (with_reducible refine Eq.trans (State.setBit_frame ..).2.2 ?_)
      | (with_reducible refine ocM_next ?_)
      | with_reducible exact ocM_fault
      | dsimp only
      | split

theorem execWdclkLoss_frame (s : State) {r : State} (e : execWdclkLoss s = .next r) : r.pending = s.pending ∧ r.tck.now = s.tck.now ∧ (Memory.wf s.mem = true → Memory.wf r.mem = true) := by
  unfold execWdclkLoss at e
  revert e
  intro e
  refine ⟨?_, ?_, fun h => ?_⟩
  · revert e
    repeat' first
      | with_reducible assumption
      | with_reducible rfl
      | (with_reducible refine alP_ite ?_ ?_)
      | (with_reducible refine Eq.trans (State.setBit_frame ..).1 ?_)
      | (with_reducible refine Eq.trans (State.count_frame ..).1 ?_)
      | (with_reducible refine Eq.trans (State.dropInterlock_frame ..).1 ?_)
      | (with_reducible refine ocP_next ?_)
      | with_reducible exact ocP_fault
      | (with_reducible refine ocP_ite ?_ ?_)
      | dsimp only
      | split
  · revert e
    repeat' first
      | with_reducible assumption
      | with_reducible rfl
      | (with_reducible refine alN_ite ?_ ?_)
      | (with_reducible refine Eq.trans (State.setBit_frame ..).2.1 ?_)
      | (with_reducible refine Eq.trans (State.count_frame ..).2.1 ?_)
      | (with_reducible refine Eq.trans (State.dropInterlock_frame ..).2.1 ?_)
      | (with_reducible refine ocN_next ?_)
      | with_reducible exact ocN_fault
      | (with_reducible refine ocN_ite ?_ ?_)
      | dsimp only
      | split
  · revert e
    repeat' first
      | with_reducible assumption
      | with_reducible rfl
      | (with_reducible refine alW_ite ?_ ?_)
      | (with_reducible refine wf_eq (State.setBit_frame ..).2.2 ?_)
      | (with_reducible refine wf_eq (State.count_frame ..).2.2 ?_)
      | (with_reducible refine (State.dropInterlock_frame ..).2.2 ?_)
      | (with_reducible refine ocW_next ?_)
      | with_reducible exact ocW_fault
      | (with_reducible refine ocW_ite ?_ ?_)
      | dsimp only
      | split

theorem execWdclkReturn_frame (s : State) {r : State} (e : execWdclkReturn s = .next r) : r.pending = s.pending ∧ r.tck.now = s.tck.now ∧ r.mem = s.mem := by
  unfold execWdclkReturn at e
  revert e
  intro e
  refine ⟨?_, ?_, ?_⟩
  · revert e
    repeat' first
      | with_reducible assumption
      | with_reducible rfl
      | (with_reducible refine Eq.trans (State.setBit_frame ..).1 ?_)
      | (with_reducible refine ocP_next ?_)
      | with_reducible exact ocP_fault
      | dsimp only
      | split
  · revert e
    repeat' first
      | with_reducible assumption
      | with_reducible rfl
      | (with_reducible refine Eq.trans (State.setBit_frame ..).2.1 ?_)
      | (with_reducible refine ocN_next ?_)
      | with_reducible exact ocN_fault
      | dsimp only
      | split
  · revert e
    repeat' first
      | with_reducible assumption
      | with_reducible rfl
      | (with_reducible refine Eq.trans (State.setBit_frame ..).2.2 ?_)
      | (with_reducible refine ocM_next ?_)
      | with_reducible exact ocM_fault
      | dsimp only
      | split

end Sys2Proof.Machine
end

