-- ==== Sys2Proof/Laws/FrameViews.lean ====
section
/-! SUPPORT. What every operation of Machine/Views.lean leaves alone: the queue of waiting commands, the tick counter (unless it
writes it), and memory or its canonical form. -/

namespace Sys2Proof.Machine

set_option linter.all false
set_option Elab.async false
set_option maxRecDepth 4000

theorem State.unlatch_frame (s : State) (m a : Nat)  : (State.unlatch s m a).pending = s.pending ∧ (State.unlatch s m a).tck.now = s.tck.now ∧ (State.unlatch s m a).mem = s.mem := by
  unfold State.unlatch
  repeat' first
    | (simp only [implies_true, and_self, and_true, true_and, apply_ite State.pending, apply_ite State.mem, apply_ite State.tck, apply_ite TckSt.now]; done)
    | (simp (maxDischargeDepth := 8) only [foldl_PMN, implies_true, and_self, and_true, true_and, apply_ite State.pending, apply_ite State.mem, apply_ite State.tck, apply_ite TckSt.now]; done)
    | (with_reducible refine foldl_PMN _ _ _ (fun s a => ?_))
    | split
    | (simp only [implies_true, and_self, and_true, true_and, apply_ite State.pending, apply_ite State.mem, apply_ite State.tck, apply_ite TckSt.now])

theorem State.latchHigh_frame (s : State) (m a : Nat)  : (State.latchHigh s m a).pending = s.pending ∧ (State.latchHigh s m a).tck.now = s.tck.now ∧ (State.latchHigh s m a).mem = s.mem := by
  unfold State.latchHigh
  repeat' first
    | (simp only [implies_true, and_self, and_true, true_and, apply_ite State.pending, apply_ite State.mem, apply_ite State.tck, apply_ite TckSt.now, State.unlatch_frame]; done)
    | (simp (maxDischargeDepth := 8) only [foldl_PMN, implies_true, and_self, and_true, true_and, apply_ite State.pending, apply_ite State.mem, apply_ite State.tck, apply_ite TckSt.now, State.unlatch_frame]; done)
    | (with_reducible refine foldl_PMN _ _ _ (fun s a => ?_))
    | split
    | (simp only [implies_true, and_self, and_true, true_and, apply_ite State.pending, apply_ite State.mem, apply_ite State.tck, apply_ite TckSt.now, State.unlatch_frame])

end Sys2Proof.Machine
end

