-- ==== Sys2Proof/Laws/FrameBus.lean ====
section
/-! SUPPORT. What every operation of Machine/Bus.lean leaves alone: the queue of waiting commands, the tick counter (unless it
writes it), and memory or its canonical form. -/

namespace Sys2Proof.Machine

set_option linter.all false
set_option Elab.async false
set_option maxRecDepth 4000

theorem State.intWrite_frame (s : State) (a : Nat) (v : Word)  : (State.intWrite s a v).pending = s.pending ∧ (State.intWrite s a v).tck.now = s.tck.now ∧ (State.intWrite s a v).mem = s.mem := by
  unfold State.intWrite
  repeat' first
    | (simp only [implies_true, and_self, and_true, true_and, apply_ite State.pending, apply_ite State.mem, apply_ite State.tck, apply_ite TckSt.now, State.withSummary_frame, State.setReg_frame]; done)
    | (simp (maxDischargeDepth := 8) only [foldl_PMN, implies_true, and_self, and_true, true_and, apply_ite State.pending, apply_ite State.mem, apply_ite State.tck, apply_ite TckSt.now, State.withSummary_frame, State.setReg_frame]; done)
    | (with_reducible refine foldl_PMN _ _ _ (fun s a => ?_))
    | split
    | (simp only [implies_true, and_self, and_true, true_and, apply_ite State.pending, apply_ite State.mem, apply_ite State.tck, apply_ite TckSt.now, State.withSummary_frame, State.setReg_frame])

theorem State.plainWrite_frame (s : State) (a : Nat) (v : Word)  : (State.plainWrite s a v).pending = s.pending ∧ (State.plainWrite s a v).tck.now = s.tck.now ∧ (State.plainWrite s a v).mem = s.mem := by
  unfold State.plainWrite
  repeat' first
    | (simp only [implies_true, and_self, and_true, true_and, apply_ite State.pending, apply_ite State.mem, apply_ite State.tck, apply_ite TckSt.now, State.storeReg_frame, State.clearBits_frame]; done)
    | (simp (maxDischargeDepth := 8) only [foldl_PMN, implies_true, and_self, and_true, true_and, apply_ite State.pending, apply_ite State.mem, apply_ite State.tck, apply_ite TckSt.now, State.storeReg_frame, State.clearBits_frame]; done)
    | (with_reducible refine foldl_PMN _ _ _ (fun s a => ?_))
    | split
    | (simp only [implies_true, and_self, and_true, true_and, apply_ite State.pending, apply_ite State.mem, apply_ite State.tck, apply_ite TckSt.now, State.storeReg_frame, State.clearBits_frame])

theorem State.commonWrite_frame (s : State) (m a : Nat) (v : Word)  : (State.commonWrite s m a v).pending = s.pending ∧ (State.commonWrite s m a v).tck.now = s.tck.now ∧ (Memory.wf s.mem = true → Memory.wf (State.commonWrite s m a v).mem = true) := by
  unfold State.commonWrite
  refine (and_assoc.1 ⟨?_, fun h => ?_⟩)
  · repeat' first
      | (simp only [implies_true, and_self, and_true, true_and, apply_ite State.pending, apply_ite State.tck, apply_ite TckSt.now, State.storeReg_frame, State.softReset_frame, State.intWrite_frame, State.commitWrite_frame, State.plainWrite_frame]; done)
      | (simp (maxDischargeDepth := 8) only [foldl_PN, implies_true, and_self, and_true, true_and, apply_ite State.pending, apply_ite State.tck, apply_ite TckSt.now, State.storeReg_frame, State.softReset_frame, State.intWrite_frame, State.commitWrite_frame, State.plainWrite_frame]; done)
      | (with_reducible refine foldl_PN _ _ _ (fun s a => ?_))
      | split
      | (simp only [implies_true, and_self, and_true, true_and, apply_ite State.pending, apply_ite State.tck, apply_ite TckSt.now, State.storeReg_frame, State.softReset_frame, State.intWrite_frame, State.commitWrite_frame, State.plainWrite_frame])
  · repeat' first
      | with_reducible assumption
      | (with_reducible refine wf_ite ?_ ?_)
      | (with_reducible refine wf_eq (State.storeReg_frame ..).2.2 ?_)
      | (with_reducible refine (State.softReset_frame ..).2.2 ?_)
      | (with_reducible refine wf_eq (State.intWrite_frame ..).2.2 ?_)
      | (with_reducible refine wf_eq (State.commitWrite_frame ..).2.2 ?_)
      | (with_reducible refine wf_eq (State.plainWrite_frame ..).2.2 ?_)
      | (with_reducible refine foldl_wf _ _ _ (fun s a h => ?_) ?_)
      | dsimp only
      | split

theorem State.glbWrite_frame (s : State) (m a : Nat) (v : Word)  : (State.glbWrite s m a v).pending = s.pending ∧ (Memory.wf s.mem = true → Memory.wf (State.glbWrite s m a v).mem = true) := by
  unfold State.glbWrite
  refine ⟨?_, fun h => ?_⟩
  · repeat' first
      | (simp only [implies_true, and_self, and_true, true_and, apply_ite State.pending, State.violate_frame, State.storeReg_frame, State.glbReset_frame, State.takeoverWrite_frame, State.plainWrite_frame]; done)
      | (simp (maxDischargeDepth := 8) only [foldl_P, implies_true, and_self, and_true, true_and, apply_ite State.pending, State.violate_frame, State.storeReg_frame, State.glbReset_frame, State.takeoverWrite_frame, State.plainWrite_frame]; done)
      | (with_reducible refine foldl_P _ _ _ (fun s a => ?_))
      | split
      | (simp only [implies_true, and_self, and_true, true_and, apply_ite State.pending, State.violate_frame, State.storeReg_frame, State.glbReset_frame, State.takeoverWrite_frame, State.plainWrite_frame])
  · repeat' first
      | with_reducible assumption
      | (with_reducible refine wf_ite ?_ ?_)
      | (with_reducible refine wf_eq (State.violate_frame ..).2.2 ?_)
      | (with_reducible refine wf_eq (State.storeReg_frame ..).2.2 ?_)
      | (with_reducible refine (State.glbReset_frame ..).2 ?_)
      | (with_reducible refine wf_eq (State.takeoverWrite_frame ..).2.2 ?_)
      | (with_reducible refine wf_eq (State.plainWrite_frame ..).2.2 ?_)
      | (with_reducible refine foldl_wf _ _ _ (fun s a h => ?_) ?_)
      | dsimp only
      | split

theorem State.thmWrite_frame (s : State) (m a : Nat) (v : Word)  : (State.thmWrite s m a v).pending = s.pending ∧ (State.thmWrite s m a v).tck.now = s.tck.now ∧ (State.thmWrite s m a v).mem = s.mem := by
  unfold State.thmWrite
  repeat' first
    | (simp only [implies_true, and_self, and_true, true_and, apply_ite State.pending, apply_ite State.mem, apply_ite State.tck, apply_ite TckSt.now, State.thmCtrlWrite_frame, State.sensorRestore_frame, State.thmShutWrite_frame, State.plainWrite_frame]; done)
    | (simp (maxDischargeDepth := 8) only [foldl_PMN, implies_true, and_self, and_true, true_and, apply_ite State.pending, apply_ite State.mem, apply_ite State.tck, apply_ite TckSt.now, State.thmCtrlWrite_frame, State.sensorRestore_frame, State.thmShutWrite_frame, State.plainWrite_frame]; done)
    | (with_reducible refine foldl_PMN _ _ _ (fun s a => ?_))
    | split
    | (simp only [implies_true, and_self, and_true, true_and, apply_ite State.pending, apply_ite State.mem, apply_ite State.tck, apply_ite TckSt.now, State.thmCtrlWrite_frame, State.sensorRestore_frame, State.thmShutWrite_frame, State.plainWrite_frame])

theorem State.redWrite_frame (s : State) (a : Nat) (v : Word)  : (State.redWrite s a v).pending = s.pending ∧ (State.redWrite s a v).tck.now = s.tck.now ∧ (State.redWrite s a v).mem = s.mem := by
  unfold State.redWrite
  repeat' first
    | (simp only [implies_true, and_self, and_true, true_and, apply_ite State.pending, apply_ite State.mem, apply_ite State.tck, apply_ite TckSt.now, State.redCtrlWrite_frame, State.claimWrite_frame, State.mirCtrlWrite_frame, State.plainWrite_frame]; done)
    | (simp (maxDischargeDepth := 8) only [foldl_PMN, implies_true, and_self, and_true, true_and, apply_ite State.pending, apply_ite State.mem, apply_ite State.tck, apply_ite TckSt.now, State.redCtrlWrite_frame, State.claimWrite_frame, State.mirCtrlWrite_frame, State.plainWrite_frame]; done)
    | (with_reducible refine foldl_PMN _ _ _ (fun s a => ?_))
    | split
    | (simp only [implies_true, and_self, and_true, true_and, apply_ite State.pending, apply_ite State.mem, apply_ite State.tck, apply_ite TckSt.now, State.redCtrlWrite_frame, State.claimWrite_frame, State.mirCtrlWrite_frame, State.plainWrite_frame])

theorem State.sendPba_frame (s : State) (vec : Nat)  : (State.sendPba s vec).pending = s.pending ∧ (State.sendPba s vec).tck.now = s.tck.now ∧ (State.sendPba s vec).mem = s.mem := by
  unfold State.sendPba
  repeat' first
    | (simp only [implies_true, and_self, and_true, true_and, apply_ite State.pending, apply_ite State.mem, apply_ite State.tck, apply_ite TckSt.now, State.setBit_frame, State.emit_frame]; done)
    | (simp (maxDischargeDepth := 8) only [foldl_PMN, implies_true, and_self, and_true, true_and, apply_ite State.pending, apply_ite State.mem, apply_ite State.tck, apply_ite TckSt.now, State.setBit_frame, State.emit_frame]; done)
    | (with_reducible refine foldl_PMN _ _ _ (fun s a => ?_))
    | split
    | (simp only [implies_true, and_self, and_true, true_and, apply_ite State.pending, apply_ite State.mem, apply_ite State.tck, apply_ite TckSt.now, State.setBit_frame, State.emit_frame])

theorem State.hifWrite_frame (s : State) (a : Nat) (v : Word)  : (State.hifWrite s a v).pending = s.pending ∧ (State.hifWrite s a v).tck.now = s.tck.now ∧ (State.hifWrite s a v).mem = s.mem := by
  unfold State.hifWrite
  repeat' first
    | (simp only [implies_true, and_self, and_true, true_and, apply_ite State.pending, apply_ite State.mem, apply_ite State.tck, apply_ite TckSt.now, State.storeReg_frame, State.sendPba_frame, State.plainWrite_frame]; done)
    | (simp (maxDischargeDepth := 8) only [foldl_PMN, implies_true, and_self, and_true, true_and, apply_ite State.pending, apply_ite State.mem, apply_ite State.tck, apply_ite TckSt.now, State.storeReg_frame, State.sendPba_frame, State.plainWrite_frame]; done)
    | (with_reducible refine foldl_PMN _ _ _ (fun s a => ?_))
    | split
    | (simp only [implies_true, and_self, and_true, true_and, apply_ite State.pending, apply_ite State.mem, apply_ite State.tck, apply_ite TckSt.now, State.storeReg_frame, State.sendPba_frame, State.plainWrite_frame])

theorem State.evtWrite_frame (s : State) (a : Nat) (v : Word)  : (State.evtWrite s a v).pending = s.pending ∧ (State.evtWrite s a v).tck.now = s.tck.now ∧ (State.evtWrite s a v).mem = s.mem := by
  unfold State.evtWrite
  repeat' first
    | (simp only [implies_true, and_self, and_true, true_and, apply_ite State.pending, apply_ite State.mem, apply_ite State.tck, apply_ite TckSt.now, State.pinEnWrite_frame, State.pinPolWrite_frame, State.evtClear_frame, State.plainWrite_frame]; done)
    | (simp (maxDischargeDepth := 8) only [foldl_PMN, implies_true, and_self, and_true, true_and, apply_ite State.pending, apply_ite State.mem, apply_ite State.tck, apply_ite TckSt.now, State.pinEnWrite_frame, State.pinPolWrite_frame, State.evtClear_frame, State.plainWrite_frame]; done)
    | (with_reducible refine foldl_PMN _ _ _ (fun s a => ?_))
    | split
    | (simp only [implies_true, and_self, and_true, true_and, apply_ite State.pending, apply_ite State.mem, apply_ite State.tck, apply_ite TckSt.now, State.pinEnWrite_frame, State.pinPolWrite_frame, State.evtClear_frame, State.plainWrite_frame])

theorem State.crsWrite_frame (s : State) (m a : Nat) (v : Word)  : (State.crsWrite s m a v).pending = s.pending ∧ (State.crsWrite s m a v).tck.now = s.tck.now ∧ (State.crsWrite s m a v).mem = s.mem := by
  unfold State.crsWrite
  repeat' first
    | (simp only [implies_true, and_self, and_true, true_and, apply_ite State.pending, apply_ite State.mem, apply_ite State.tck, apply_ite TckSt.now, State.crsStartCheck_frame, State.crsCountWrite_frame, State.crsDataWrite_frame, State.plainWrite_frame]; done)
    | (simp (maxDischargeDepth := 8) only [foldl_PMN, implies_true, and_self, and_true, true_and, apply_ite State.pending, apply_ite State.mem, apply_ite State.tck, apply_ite TckSt.now, State.crsStartCheck_frame, State.crsCountWrite_frame, State.crsDataWrite_frame, State.plainWrite_frame]; done)
    | (with_reducible refine foldl_PMN _ _ _ (fun s a => ?_))
    | split
    | (simp only [implies_true, and_self, and_true, true_and, apply_ite State.pending, apply_ite State.mem, apply_ite State.tck, apply_ite TckSt.now, State.crsStartCheck_frame, State.crsCountWrite_frame, State.crsDataWrite_frame, State.plainWrite_frame])

theorem State.prtWrite_frame (s : State) (m a : Nat) (v : Word)  : (State.prtWrite s m a v).pending = s.pending ∧ (State.prtWrite s m a v).tck.now = s.tck.now ∧ (State.prtWrite s m a v).mem = s.mem := by
  unfold State.prtWrite
  repeat' first
    | (simp only [implies_true, and_self, and_true, true_and, apply_ite State.pending, apply_ite State.mem, apply_ite State.tck, apply_ite TckSt.now, State.prtStartCheck_frame, State.prtCmd_frame, State.prtSubWrite_frame, State.prtWinWrite_frame, State.plainWrite_frame]; done)
    | (simp (maxDischargeDepth := 8) only [foldl_PMN, implies_true, and_self, and_true, true_and, apply_ite State.pending, apply_ite State.mem, apply_ite State.tck, apply_ite TckSt.now, State.prtStartCheck_frame, State.prtCmd_frame, State.prtSubWrite_frame, State.prtWinWrite_frame, State.plainWrite_frame]; done)
    | (with_reducible refine foldl_PMN _ _ _ (fun s a => ?_))
    | split
    | (simp only [implies_true, and_self, and_true, true_and, apply_ite State.pending, apply_ite State.mem, apply_ite State.tck, apply_ite TckSt.now, State.prtStartCheck_frame, State.prtCmd_frame, State.prtSubWrite_frame, State.prtWinWrite_frame, State.plainWrite_frame])

theorem State.rsvWrite_frame (s : State) (m a : Nat) (v : Word)  : (State.rsvWrite s m a v).pending = s.pending ∧ (State.rsvWrite s m a v).tck.now = s.tck.now ∧ (Memory.wf s.mem = true → Memory.wf (State.rsvWrite s m a v).mem = true) := by
  unfold State.rsvWrite
  refine (and_assoc.1 ⟨?_, fun h => ?_⟩)
  · repeat' first
      | (simp only [implies_true, and_self, and_true, true_and, apply_ite State.pending, apply_ite State.tck, apply_ite TckSt.now, State.rsvCtrlWrite_frame, State.rsvSubmit_frame, State.jobSlotWrite_frame, State.plainWrite_frame]; done)
      | (simp (maxDischargeDepth := 8) only [foldl_PN, implies_true, and_self, and_true, true_and, apply_ite State.pending, apply_ite State.tck, apply_ite TckSt.now, State.rsvCtrlWrite_frame, State.rsvSubmit_frame, State.jobSlotWrite_frame, State.plainWrite_frame]; done)
      | (with_reducible refine foldl_PN _ _ _ (fun s a => ?_))
      | split
      | (simp only [implies_true, and_self, and_true, true_and, apply_ite State.pending, apply_ite State.tck, apply_ite TckSt.now, State.rsvCtrlWrite_frame, State.rsvSubmit_frame, State.jobSlotWrite_frame, State.plainWrite_frame])
  · repeat' first
      | with_reducible assumption
      | (with_reducible refine wf_ite ?_ ?_)
      | (with_reducible refine (State.rsvCtrlWrite_frame ..).2.2 ?_)
      | (with_reducible refine wf_eq (State.rsvSubmit_frame ..).2.2 ?_)
      | (with_reducible refine wf_eq (State.jobSlotWrite_frame ..).2.2 ?_)
      | (with_reducible refine wf_eq (State.plainWrite_frame ..).2.2 ?_)
      | (with_reducible refine foldl_wf _ _ _ (fun s a h => ?_) ?_)
      | dsimp only
      | split

theorem State.fabWrite_frame (s : State) (a : Nat) (v : Word)  : (State.fabWrite s a v).pending = s.pending ∧ (State.fabWrite s a v).tck.now = s.tck.now ∧ (Memory.wf s.mem = true → Memory.wf (State.fabWrite s a v).mem = true) := by
  unfold State.fabWrite
  refine (and_assoc.1 ⟨?_, fun h => ?_⟩)
  · repeat' first
      | (simp only [implies_true, and_self, and_true, true_and, apply_ite State.pending, apply_ite State.tck, apply_ite TckSt.now, State.fabCtrlWrite_frame, State.retmapWrite_frame, State.rceCtrlWrite_frame, State.plainWrite_frame]; done)
      | (simp (maxDischargeDepth := 8) only [foldl_PN, implies_true, and_self, and_true, true_and, apply_ite State.pending, apply_ite State.tck, apply_ite TckSt.now, State.fabCtrlWrite_frame, State.retmapWrite_frame, State.rceCtrlWrite_frame, State.plainWrite_frame]; done)
      | (with_reducible refine foldl_PN _ _ _ (fun s a => ?_))
      | split
      | (simp only [implies_true, and_self, and_true, true_and, apply_ite State.pending, apply_ite State.tck, apply_ite TckSt.now, State.fabCtrlWrite_frame, State.retmapWrite_frame, State.rceCtrlWrite_frame, State.plainWrite_frame])
  · repeat' first
      | with_reducible assumption
      | (with_reducible refine wf_ite ?_ ?_)
      | (with_reducible refine (State.fabCtrlWrite_frame ..).2.2 ?_)
      | (with_reducible refine wf_eq (State.retmapWrite_frame ..).2.2 ?_)
      | (with_reducible refine wf_eq (State.rceCtrlWrite_frame ..).2.2 ?_)
      | (with_reducible refine wf_eq (State.plainWrite_frame ..).2.2 ?_)
      | (with_reducible refine foldl_wf _ _ _ (fun s a h => ?_) ?_)
      | dsimp only
      | split

theorem State.meaWrite_frame (s : State) (a : Nat) (v : Word)  : (State.meaWrite s a v).pending = s.pending ∧ (State.meaWrite s a v).tck.now = s.tck.now ∧ (Memory.wf s.mem = true → Memory.wf (State.meaWrite s a v).mem = true) := by
  unfold State.meaWrite
  refine (and_assoc.1 ⟨?_, fun h => ?_⟩)
  · repeat' first
      | (simp only [implies_true, and_self, and_true, true_and, apply_ite State.pending, apply_ite State.tck, apply_ite TckSt.now, State.meaCtrlWrite_frame, State.meaWinWrite_frame, State.losEnWrite_frame, State.calCtrlWrite_frame, State.plainWrite_frame]; done)
      | (simp (maxDischargeDepth := 8) only [foldl_PN, implies_true, and_self, and_true, true_and, apply_ite State.pending, apply_ite State.tck, apply_ite TckSt.now, State.meaCtrlWrite_frame, State.meaWinWrite_frame, State.losEnWrite_frame, State.calCtrlWrite_frame, State.plainWrite_frame]; done)
      | (with_reducible refine foldl_PN _ _ _ (fun s a => ?_))
      | split
      | (simp only [implies_true, and_self, and_true, true_and, apply_ite State.pending, apply_ite State.tck, apply_ite TckSt.now, State.meaCtrlWrite_frame, State.meaWinWrite_frame, State.losEnWrite_frame, State.calCtrlWrite_frame, State.plainWrite_frame])
  · repeat' first
      | with_reducible assumption
      | (with_reducible refine wf_ite ?_ ?_)
      | (with_reducible refine wf_eq (State.meaCtrlWrite_frame ..).2.2 ?_)
      | (with_reducible refine wf_eq (State.meaWinWrite_frame ..).2.2 ?_)
      | (with_reducible refine wf_eq (State.losEnWrite_frame ..).2.2 ?_)
      | (with_reducible refine (State.calCtrlWrite_frame ..).2.2 ?_)
      | (with_reducible refine wf_eq (State.plainWrite_frame ..).2.2 ?_)
      | (with_reducible refine foldl_wf _ _ _ (fun s a h => ?_) ?_)
      | dsimp only
      | split

theorem State.netWrite_frame (s : State) (m a : Nat) (v : Word)  : (State.netWrite s m a v).pending = s.pending ∧ (State.netWrite s m a v).tck.now = s.tck.now ∧ (State.netWrite s m a v).mem = s.mem := by
  unfold State.netWrite
  repeat' first
    | (simp only [implies_true, and_self, and_true, true_and, apply_ite State.pending, apply_ite State.mem, apply_ite State.tck, apply_ite TckSt.now, State.hptCtrlWrite_frame, State.ringWrite_frame, State.fwdCmd_frame, State.tableWrite_frame, State.poolCfgWrite_frame, State.bpmCmd_frame, State.almSend_frame, State.almClear_frame, State.plainWrite_frame]; done)
    | (simp (maxDischargeDepth := 8) only [foldl_PMN, implies_true, and_self, and_true, true_and, apply_ite State.pending, apply_ite State.mem, apply_ite State.tck, apply_ite TckSt.now, State.hptCtrlWrite_frame, State.ringWrite_frame, State.fwdCmd_frame, State.tableWrite_frame, State.poolCfgWrite_frame, State.bpmCmd_frame, State.almSend_frame, State.almClear_frame, State.plainWrite_frame]; done)
    | (with_reducible refine foldl_PMN _ _ _ (fun s a => ?_))
    | split
    | (simp only [implies_true, and_self, and_true, true_and, apply_ite State.pending, apply_ite State.mem, apply_ite State.tck, apply_ite TckSt.now, State.hptCtrlWrite_frame, State.ringWrite_frame, State.fwdCmd_frame, State.tableWrite_frame, State.poolCfgWrite_frame, State.bpmCmd_frame, State.almSend_frame, State.almClear_frame, State.plainWrite_frame])

theorem State.schedWrite_frame (s : State) (m a : Nat) (v : Word)  : (State.schedWrite s m a v).pending = s.pending ∧ (State.schedWrite s m a v).tck.now = s.tck.now ∧ (State.schedWrite s m a v).mem = s.mem := by
  unfold State.schedWrite
  repeat' first
    | (simp only [implies_true, and_self, and_true, true_and, apply_ite State.pending, apply_ite State.mem, apply_ite State.tck, apply_ite TckSt.now, State.storeReg_frame, State.schQWrite_frame, State.gteCmd_frame, State.gteAdmWrite_frame, State.polCfgWrite_frame, State.plainWrite_frame]; done)
    | (simp (maxDischargeDepth := 8) only [foldl_PMN, implies_true, and_self, and_true, true_and, apply_ite State.pending, apply_ite State.mem, apply_ite State.tck, apply_ite TckSt.now, State.storeReg_frame, State.schQWrite_frame, State.gteCmd_frame, State.gteAdmWrite_frame, State.polCfgWrite_frame, State.plainWrite_frame]; done)
    | (with_reducible refine foldl_PMN _ _ _ (fun s a => ?_))
    | split
    | (simp only [implies_true, and_self, and_true, true_and, apply_ite State.pending, apply_ite State.mem, apply_ite State.tck, apply_ite TckSt.now, State.storeReg_frame, State.schQWrite_frame, State.gteCmd_frame, State.gteAdmWrite_frame, State.polCfgWrite_frame, State.plainWrite_frame])

theorem State.regEffect_frame (s : State) (m a : Nat) (v : Word)  : (State.regEffect s m a v).pending = s.pending ∧ (Memory.wf s.mem = true → Memory.wf (State.regEffect s m a v).mem = true) := by
  unfold State.regEffect
  refine ⟨?_, fun h => ?_⟩
  · repeat' first
      | with_reducible assumption
      | with_reducible rfl
      | (with_reducible refine alP_ite ?_ ?_)
      | (with_reducible refine Eq.trans (State.ntuDiscard_frame ..).1 ?_)
      | (with_reducible refine Eq.trans (State.commonWrite_frame ..).1 ?_)
      | (with_reducible refine Eq.trans (State.glbWrite_frame ..).1 ?_)
      | (with_reducible refine Eq.trans (State.pwrCtrlWrite_frame ..).1 ?_)
      | (with_reducible refine Eq.trans (State.plainWrite_frame ..).1 ?_)
      | (with_reducible refine Eq.trans (State.thmWrite_frame ..).1 ?_)
      | (with_reducible refine Eq.trans (State.tckCtrlWrite_frame ..).1 ?_)
      | (with_reducible refine Eq.trans (State.ntuWrite_frame ..).1 ?_)
      | (with_reducible refine Eq.trans (State.fltCtrlWrite_frame ..).1 ?_)
      | (with_reducible refine Eq.trans (State.redWrite_frame ..).1 ?_)
      | (with_reducible refine Eq.trans (State.hifWrite_frame ..).1 ?_)
      | (with_reducible refine Eq.trans (State.evtWrite_frame ..).1 ?_)
      | (with_reducible refine Eq.trans (State.byvCtrlWrite_frame ..).1 ?_)
      | (with_reducible refine Eq.trans (State.lenRetire_frame ..).1 ?_)
      | (with_reducible refine Eq.trans (State.lplCtrlWrite_frame ..).1 ?_)
      | (with_reducible refine Eq.trans (State.guaranteeWrite_frame ..).1 ?_)
      | (with_reducible refine Eq.trans (State.fabWrite_frame ..).1 ?_)
      | (with_reducible refine Eq.trans (State.crsWrite_frame ..).1 ?_)
      | (with_reducible refine Eq.trans (State.prtWrite_frame ..).1 ?_)
      | (with_reducible refine Eq.trans (State.rsvWrite_frame ..).1 ?_)
      | (with_reducible refine Eq.trans (State.meaWrite_frame ..).1 ?_)
      | (with_reducible refine Eq.trans (State.portCtrlWrite_frame ..).1 ?_)
      | (with_reducible refine Eq.trans (State.schedWrite_frame ..).1 ?_)
      | (with_reducible refine Eq.trans (State.netWrite_frame ..).1 ?_)
      | dsimp only
      | split
  · repeat' first
      | with_reducible assumption
      | with_reducible rfl
      | (with_reducible refine alW_ite ?_ ?_)
      | (with_reducible refine wf_eq (State.ntuDiscard_frame ..).2.2 ?_)
      | (with_reducible refine (State.commonWrite_frame ..).2.2 ?_)
      | (with_reducible refine (State.glbWrite_frame ..).2 ?_)
      | (with_reducible refine wf_eq (State.pwrCtrlWrite_frame ..).2.2 ?_)
      | (with_reducible refine wf_eq (State.plainWrite_frame ..).2.2 ?_)
      | (with_reducible refine wf_eq (State.thmWrite_frame ..).2.2 ?_)
      | (with_reducible refine wf_eq (State.tckCtrlWrite_frame ..).2.2 ?_)
      | (with_reducible refine wf_eq (State.ntuWrite_frame ..).2.2 ?_)
      | (with_reducible refine (State.fltCtrlWrite_frame ..).2.2 ?_)
      | (with_reducible refine wf_eq (State.redWrite_frame ..).2.2 ?_)
      | (with_reducible refine wf_eq (State.hifWrite_frame ..).2.2 ?_)
      | (with_reducible refine wf_eq (State.evtWrite_frame ..).2.2 ?_)
      | (with_reducible refine wf_eq (State.byvCtrlWrite_frame ..).2.2 ?_)
      | (with_reducible refine wf_eq (State.lenRetire_frame ..).2.2 ?_)
      | (with_reducible refine wf_eq (State.lplCtrlWrite_frame ..).2.2 ?_)
      | (with_reducible refine wf_eq (State.guaranteeWrite_frame ..).2.2 ?_)
      | (with_reducible refine (State.fabWrite_frame ..).2.2 ?_)
      | (with_reducible refine wf_eq (State.crsWrite_frame ..).2.2 ?_)
      | (with_reducible refine wf_eq (State.prtWrite_frame ..).2.2 ?_)
      | (with_reducible refine (State.rsvWrite_frame ..).2.2 ?_)
      | (with_reducible refine (State.meaWrite_frame ..).2.2 ?_)
      | (with_reducible refine wf_eq (State.portCtrlWrite_frame ..).2.2 ?_)
      | (with_reducible refine wf_eq (State.schedWrite_frame ..).2.2 ?_)
      | (with_reducible refine wf_eq (State.netWrite_frame ..).2.2 ?_)
      | dsimp only
      | split

theorem State.regWrite_frame (s : State) (m a : Nat) (v : Word)  : (State.regWrite s m a v).pending = s.pending ∧ (Memory.wf s.mem = true → Memory.wf (State.regWrite s m a v).mem = true) := by
  unfold State.regWrite
  refine ⟨?_, fun h => ?_⟩
  · repeat' first
      | with_reducible assumption
      | with_reducible rfl
      | (with_reducible refine Eq.trans (State.gateWrite_frP (heff := fun _ => ?_) ..) ?_)
      | (with_reducible refine Eq.trans (State.regEffect_frame ..).1 ?_)
      | (with_reducible refine Eq.trans (State.unlatch_frame ..).1 ?_)
      | dsimp only
      | split
  · repeat' first
      | with_reducible assumption
      | with_reducible rfl
      | (with_reducible refine (State.gateWrite_frW (heff := fun _ h => ?_) (hw := ?_) ..))
      | (with_reducible refine wf_eq (State.gateWrite_frame ..).2.2 ?_)
      | (with_reducible refine (State.regEffect_frame ..).2 ?_)
      | (with_reducible refine wf_eq (State.unlatch_frame ..).2.2 ?_)
      | dsimp only
      | split

theorem State.packetWrite_frame (s : State) (a : Nat) (l : List Byte)  : (State.packetWrite s a l).pending = s.pending ∧ (State.packetWrite s a l).tck.now = s.tck.now ∧ (State.packetWrite s a l).mem = s.mem := by
  unfold State.packetWrite
  repeat' first
    | (simp only [implies_true, and_self, and_true, true_and, apply_ite State.pending, apply_ite State.mem, apply_ite State.tck, apply_ite TckSt.now, State.setBuf_frame]; done)
    | (simp (maxDischargeDepth := 8) only [foldl_PMN, implies_true, and_self, and_true, true_and, apply_ite State.pending, apply_ite State.mem, apply_ite State.tck, apply_ite TckSt.now, State.setBuf_frame]; done)
    | (with_reducible refine foldl_PMN _ _ _ (fun s a => ?_))
    | split
    | (simp only [implies_true, and_self, and_true, true_and, apply_ite State.pending, apply_ite State.mem, apply_ite State.tck, apply_ite TckSt.now, State.setBuf_frame])

theorem State.ctxBeat_frame (s : State) (m a : Nat) (l : List Byte)  : (State.ctxBeat s m a l).pending = s.pending ∧ (State.ctxBeat s m a l).tck.now = s.tck.now ∧ (Memory.wf s.mem = true → Memory.wf (State.ctxBeat s m a l).mem = true) := by
  unfold State.ctxBeat
  refine (and_assoc.1 ⟨?_, fun h => ?_⟩)
  · repeat' first
      | (simp only [implies_true, and_self, and_true, true_and, apply_ite State.pending, apply_ite State.tck, apply_ite TckSt.now, State.violate_frame, State.ctxWordWrite_frame]; done)
      | (simp (maxDischargeDepth := 8) only [foldl_PN, implies_true, and_self, and_true, true_and, apply_ite State.pending, apply_ite State.tck, apply_ite TckSt.now, State.violate_frame, State.ctxWordWrite_frame]; done)
      | (with_reducible refine foldl_PN _ _ _ (fun s a => ?_))
      | split
      | (simp only [implies_true, and_self, and_true, true_and, apply_ite State.pending, apply_ite State.tck, apply_ite TckSt.now, State.violate_frame, State.ctxWordWrite_frame])
  · repeat' first
      | with_reducible assumption
      | (with_reducible refine wf_ite ?_ ?_)
      | (with_reducible refine wf_eq (State.violate_frame ..).2.2 ?_)
      | (with_reducible refine (State.ctxWordWrite_frame ..).2.2 ?_)
      | (with_reducible refine foldl_wf _ _ _ (fun s a h => ?_) ?_)
      | dsimp only
      | split

theorem State.loopBeat_frame (s : State) (m a : Nat) (l : List Byte)  : (State.loopBeat s m a l).pending = s.pending ∧ (State.loopBeat s m a l).tck.now = s.tck.now ∧ (Memory.wf s.mem = true → Memory.wf (State.loopBeat s m a l).mem = true) := by
  unfold State.loopBeat
  refine (and_assoc.1 ⟨?_, fun h => ?_⟩)
  · repeat' first
      | (simp only [implies_true, and_self, and_true, true_and, apply_ite State.pending, apply_ite State.tck, apply_ite TckSt.now, State.violate_frame, State.setBytes_frame, State.ctxWrite_frame, State.clearChecked_frame]; done)
      | (simp (maxDischargeDepth := 8) only [foldl_PN, implies_true, and_self, and_true, true_and, apply_ite State.pending, apply_ite State.tck, apply_ite TckSt.now, State.violate_frame, State.setBytes_frame, State.ctxWrite_frame, State.clearChecked_frame]; done)
      | (with_reducible refine foldl_PN _ _ _ (fun s a => ?_))
      | split
      | (simp only [implies_true, and_self, and_true, true_and, apply_ite State.pending, apply_ite State.tck, apply_ite TckSt.now, State.violate_frame, State.setBytes_frame, State.ctxWrite_frame, State.clearChecked_frame])
  · repeat' first
      | with_reducible assumption
      | (with_reducible refine wf_ite ?_ ?_)
      | (with_reducible refine wf_eq (State.violate_frame ..).2.2 ?_)
      | (with_reducible refine (State.setBytes_frame ..).2.2 ?_)
      | (with_reducible refine wf_eq (State.ctxWrite_frame ..).2.2 ?_)
      | (with_reducible refine wf_eq (State.clearChecked_frame ..).2.2 ?_)
      | (with_reducible refine foldl_wf _ _ _ (fun s a h => ?_) ?_)
      | dsimp only
      | split

theorem State.mramBeat_frame (s : State) (m a : Nat) (l : List Byte)  : (State.mramBeat s m a l).pending = s.pending ∧ (State.mramBeat s m a l).tck.now = s.tck.now ∧ (Memory.wf s.mem = true → Memory.wf (State.mramBeat s m a l).mem = true) := by
  unfold State.mramBeat
  refine (and_assoc.1 ⟨?_, fun h => ?_⟩)
  · repeat' first
      | (simp only [implies_true, and_self, and_true, true_and, apply_ite State.pending, apply_ite State.tck, apply_ite TckSt.now, State.violate_frame, State.count_frame, State.raise_frame, State.setBytes_frame, State.nvmCount_frame, State.takeKey_frame]; done)
      | (simp (maxDischargeDepth := 8) only [foldl_PN, implies_true, and_self, and_true, true_and, apply_ite State.pending, apply_ite State.tck, apply_ite TckSt.now, State.violate_frame, State.count_frame, State.raise_frame, State.setBytes_frame, State.nvmCount_frame, State.takeKey_frame]; done)
      | (with_reducible refine foldl_PN _ _ _ (fun s a => ?_))
      | split
      | (simp only [implies_true, and_self, and_true, true_and, apply_ite State.pending, apply_ite State.tck, apply_ite TckSt.now, State.violate_frame, State.count_frame, State.raise_frame, State.setBytes_frame, State.nvmCount_frame, State.takeKey_frame])
  · repeat' first
      | with_reducible assumption
      | (with_reducible refine wf_ite ?_ ?_)
      | (with_reducible refine wf_eq (State.violate_frame ..).2.2 ?_)
      | (with_reducible refine wf_eq (State.count_frame ..).2.2 ?_)
      | (with_reducible refine wf_eq (State.raise_frame ..).2.2 ?_)
      | (with_reducible refine (State.setBytes_frame ..).2.2 ?_)
      | (with_reducible refine wf_eq (State.nvmCount_frame ..).2.2 ?_)
      | (with_reducible refine wf_eq (State.takeKey_frame ..).2.2 ?_)
      | (with_reducible refine foldl_wf _ _ _ (fun s a h => ?_) ?_)
      | dsimp only
      | split

theorem State.writeBeat_frame (s : State) (m a : Nat) (l : List Byte)  : (State.writeBeat s m a l).pending = s.pending ∧ (State.writeBeat s m a l).tck.now = s.tck.now ∧ (Memory.wf s.mem = true → Memory.wf (State.writeBeat s m a l).mem = true) := by
  unfold State.writeBeat
  refine (and_assoc.1 ⟨?_, fun h => ?_⟩)
  · repeat' first
      | (simp only [implies_true, and_self, and_true, true_and, apply_ite State.pending, apply_ite State.tck, apply_ite TckSt.now, State.violate_frame, State.setBytes_frame, State.ctxBeat_frame, State.loopBeat_frame, State.packetWrite_frame, State.mramBeat_frame, State.decodeErr_frame]; done)
      | (simp (maxDischargeDepth := 8) only [foldl_PN, implies_true, and_self, and_true, true_and, apply_ite State.pending, apply_ite State.tck, apply_ite TckSt.now, State.violate_frame, State.setBytes_frame, State.ctxBeat_frame, State.loopBeat_frame, State.packetWrite_frame, State.mramBeat_frame, State.decodeErr_frame]; done)
      | (with_reducible refine foldl_PN _ _ _ (fun s a => ?_))
      | split
      | (simp only [implies_true, and_self, and_true, true_and, apply_ite State.pending, apply_ite State.tck, apply_ite TckSt.now, State.violate_frame, State.setBytes_frame, State.ctxBeat_frame, State.loopBeat_frame, State.packetWrite_frame, State.mramBeat_frame, State.decodeErr_frame])
  · repeat' first
      | with_reducible assumption
      | (with_reducible refine wf_ite ?_ ?_)
      | (with_reducible refine wf_eq (State.violate_frame ..).2.2 ?_)
      | (with_reducible refine (State.setBytes_frame ..).2.2 ?_)
      | (with_reducible refine (State.ctxBeat_frame ..).2.2 ?_)
      | (with_reducible refine (State.loopBeat_frame ..).2.2 ?_)
      | (with_reducible refine wf_eq (State.packetWrite_frame ..).2.2 ?_)
      | (with_reducible refine (State.mramBeat_frame ..).2.2 ?_)
      | (with_reducible refine wf_eq (State.decodeErr_frame ..).2.2 ?_)
      | (with_reducible refine foldl_wf _ _ _ (fun s a h => ?_) ?_)
      | dsimp only
      | split

theorem State.memWrite_frame (s : State) (m a : Nat) (l : List Byte)  : (State.memWrite s m a l).pending = s.pending ∧ (State.memWrite s m a l).tck.now = s.tck.now ∧ (Memory.wf s.mem = true → Memory.wf (State.memWrite s m a l).mem = true) := by
  unfold State.memWrite
  refine (and_assoc.1 ⟨?_, fun h => ?_⟩)
  · repeat' first
      | (simp only [implies_true, and_self, and_true, true_and, apply_ite State.pending, apply_ite State.tck, apply_ite TckSt.now, State.writeBeat_frame, State.respond_frame]; done)
      | (simp (maxDischargeDepth := 8) only [foldl_PN, implies_true, and_self, and_true, true_and, apply_ite State.pending, apply_ite State.tck, apply_ite TckSt.now, State.writeBeat_frame, State.respond_frame]; done)
      | (with_reducible refine foldl_PN _ _ _ (fun s a => ?_))
      | split
      | (simp only [implies_true, and_self, and_true, true_and, apply_ite State.pending, apply_ite State.tck, apply_ite TckSt.now, State.writeBeat_frame, State.respond_frame])
  · repeat' first
      | with_reducible assumption
      | (with_reducible refine wf_ite ?_ ?_)
      | (with_reducible refine (State.writeBeat_frame ..).2.2 ?_)
      | (with_reducible refine wf_eq (State.respond_frame ..).2.2 ?_)
      | (with_reducible refine foldl_wf _ _ _ (fun s a h => ?_) ?_)
      | dsimp only
      | split

theorem State.memRead_frame (s : State) (m a : Nat)  : (State.memRead s m a).pending = s.pending ∧ (State.memRead s m a).tck.now = s.tck.now ∧ (State.memRead s m a).mem = s.mem := by
  unfold State.memRead
  repeat' first
    | (simp only [implies_true, and_self, and_true, true_and, apply_ite State.pending, apply_ite State.mem, apply_ite State.tck, apply_ite TckSt.now, State.violate_frame, State.respond_frame]; done)
    | (simp (maxDischargeDepth := 8) only [foldl_PMN, implies_true, and_self, and_true, true_and, apply_ite State.pending, apply_ite State.mem, apply_ite State.tck, apply_ite TckSt.now, State.violate_frame, State.respond_frame]; done)
    | (with_reducible refine foldl_PMN _ _ _ (fun s a => ?_))
    | split
    | (simp only [implies_true, and_self, and_true, true_and, apply_ite State.pending, apply_ite State.mem, apply_ite State.tck, apply_ite TckSt.now, State.violate_frame, State.respond_frame])

theorem State.regRead_frame (s : State) (m a : Nat)  : (State.regRead s m a).pending = s.pending ∧ (State.regRead s m a).tck.now = s.tck.now ∧ (State.regRead s m a).mem = s.mem := by
  unfold State.regRead
  repeat' first
    | (simp only [implies_true, and_self, and_true, true_and, apply_ite State.pending, apply_ite State.mem, apply_ite State.tck, apply_ite TckSt.now, State.holdAccess_frame, State.decodeErr_frame, State.violate_frame, State.latchHigh_frame, State.respond_frame, State.crsActRead_frame, State.prtSubRead_frame, State.prtSubNext_frame, State.tick1_frame]; done)
    | (simp (maxDischargeDepth := 8) only [foldl_PMN, implies_true, and_self, and_true, true_and, apply_ite State.pending, apply_ite State.mem, apply_ite State.tck, apply_ite TckSt.now, State.holdAccess_frame, State.decodeErr_frame, State.violate_frame, State.latchHigh_frame, State.respond_frame, State.crsActRead_frame, State.prtSubRead_frame, State.prtSubNext_frame, State.tick1_frame]; done)
    | (with_reducible refine foldl_PMN _ _ _ (fun s a => ?_))
    | split
    | (simp only [implies_true, and_self, and_true, true_and, apply_ite State.pending, apply_ite State.mem, apply_ite State.tck, apply_ite TckSt.now, State.holdAccess_frame, State.decodeErr_frame, State.violate_frame, State.latchHigh_frame, State.respond_frame, State.crsActRead_frame, State.prtSubRead_frame, State.prtSubNext_frame, State.tick1_frame])

theorem State.busRead_frame (s : State) (m a : Nat)  : (State.busRead s m a).pending = s.pending ∧ (State.busRead s m a).tck.now = s.tck.now ∧ (State.busRead s m a).mem = s.mem := by
  unfold State.busRead
  repeat' first
    | (simp only [implies_true, and_self, and_true, true_and, apply_ite State.pending, apply_ite State.mem, apply_ite State.tck, apply_ite TckSt.now, State.regRead_frame, State.memRead_frame]; done)
    | (simp (maxDischargeDepth := 8) only [foldl_PMN, implies_true, and_self, and_true, true_and, apply_ite State.pending, apply_ite State.mem, apply_ite State.tck, apply_ite TckSt.now, State.regRead_frame, State.memRead_frame]; done)
    | (with_reducible refine foldl_PMN _ _ _ (fun s a => ?_))
    | split
    | (simp only [implies_true, and_self, and_true, true_and, apply_ite State.pending, apply_ite State.mem, apply_ite State.tck, apply_ite TckSt.now, State.regRead_frame, State.memRead_frame])

theorem State.busWrite_frame (s : State) (m a : Nat) (v : Word) (en : Nat)  : (State.busWrite s m a v en).pending = s.pending ∧ (Memory.wf s.mem = true → Memory.wf (State.busWrite s m a v en).mem = true) := by
  unfold State.busWrite
  refine ⟨?_, fun h => ?_⟩
  · repeat' first
      | (simp only [implies_true, and_self, and_true, true_and, apply_ite State.pending, State.regWrite_frame, State.violate_frame, State.memWrite_frame]; done)
      | (simp (maxDischargeDepth := 8) only [foldl_P, implies_true, and_self, and_true, true_and, apply_ite State.pending, State.regWrite_frame, State.violate_frame, State.memWrite_frame]; done)
      | (with_reducible refine foldl_P _ _ _ (fun s a => ?_))
      | split
      | (simp only [implies_true, and_self, and_true, true_and, apply_ite State.pending, State.regWrite_frame, State.violate_frame, State.memWrite_frame])
  · repeat' first
      | with_reducible assumption
      | (with_reducible refine wf_ite ?_ ?_)
      | (with_reducible refine (State.regWrite_frame ..).2 ?_)
      | (with_reducible refine wf_eq (State.violate_frame ..).2.2 ?_)
      | (with_reducible refine (State.memWrite_frame ..).2.2 ?_)
      | (with_reducible refine foldl_wf _ _ _ (fun s a h => ?_) ?_)
      | dsimp only
      | split

theorem State.captured_frame (s : State)  : (State.captured s).pending = s.pending ∧ (State.captured s).tck.now = s.tck.now ∧ (State.captured s).mem = s.mem := by
  unfold State.captured
  repeat' first
    | (simp only [implies_true, and_self, and_true, true_and, apply_ite State.pending, apply_ite State.mem, apply_ite State.tck, apply_ite TckSt.now, State.tick1_frame]; done)
    | (simp (maxDischargeDepth := 8) only [foldl_PMN, implies_true, and_self, and_true, true_and, apply_ite State.pending, apply_ite State.mem, apply_ite State.tck, apply_ite TckSt.now, State.tick1_frame]; done)
    | (with_reducible refine foldl_PMN _ _ _ (fun s a => ?_))
    | split
    | (simp only [implies_true, and_self, and_true, true_and, apply_ite State.pending, apply_ite State.mem, apply_ite State.tck, apply_ite TckSt.now, State.tick1_frame])

theorem State.smbDone_frame (s : State)  : (State.smbDone s).pending = s.pending ∧ (State.smbDone s).tck.now = s.tck.now ∧ (State.smbDone s).mem = s.mem := by
  unfold State.smbDone
  repeat' first
    | (simp only [implies_true, and_self, and_true, true_and, apply_ite State.pending, apply_ite State.mem, apply_ite State.tck, apply_ite TckSt.now]; done)
    | (simp (maxDischargeDepth := 8) only [foldl_PMN, implies_true, and_self, and_true, true_and, apply_ite State.pending, apply_ite State.mem, apply_ite State.tck, apply_ite TckSt.now]; done)
    | (with_reducible refine foldl_PMN _ _ _ (fun s a => ?_))
    | split
    | (simp only [implies_true, and_self, and_true, true_and, apply_ite State.pending, apply_ite State.mem, apply_ite State.tck, apply_ite TckSt.now])

theorem State.replay_frame (s : State)  : (State.replay s).pending = s.pending ∧ (Memory.wf s.mem = true → Memory.wf (State.replay s).mem = true) := by
  unfold State.replay
  refine ⟨?_, fun h => ?_⟩
  · repeat' first
      | (simp only [implies_true, and_self, and_true, true_and, apply_ite State.pending, State.memWrite_frame, State.regWrite_frame, State.busRead_frame, State.captured_frame, State.smbDone_frame]; done)
      | (simp (maxDischargeDepth := 8) only [foldl_P, implies_true, and_self, and_true, true_and, apply_ite State.pending, State.memWrite_frame, State.regWrite_frame, State.busRead_frame, State.captured_frame, State.smbDone_frame]; done)
      | (with_reducible refine foldl_P _ _ _ (fun s a => ?_))
      | split
      | (simp only [implies_true, and_self, and_true, true_and, apply_ite State.pending, State.memWrite_frame, State.regWrite_frame, State.busRead_frame, State.captured_frame, State.smbDone_frame])
  · repeat' first
      | with_reducible assumption
      | (with_reducible refine wf_ite ?_ ?_)
      | (with_reducible refine (State.memWrite_frame ..).2.2 ?_)
      | (with_reducible refine (State.regWrite_frame ..).2 ?_)
      | (with_reducible refine wf_eq (State.busRead_frame ..).2.2 ?_)
      | (with_reducible refine wf_eq (State.captured_frame ..).2.2 ?_)
      | (with_reducible refine wf_eq (State.smbDone_frame ..).2.2 ?_)
      | (with_reducible refine foldl_wf _ _ _ (fun s a h => ?_) ?_)
      | dsimp only
      | split

end Sys2Proof.Machine
end

