-- ==== Sys2Proof/Laws/FrameMgt.lean ====
section
/-! SUPPORT. What every operation of Machine/Mgt.lean leaves alone: the queue of waiting commands, the tick counter (unless it
writes it), and memory or its canonical form. -/

namespace Sys2Proof.Machine

set_option linter.all false
set_option Elab.async false
set_option maxRecDepth 4000

theorem State.mgtUsed_frame (s : State) (i : Nat)  : (State.mgtUsed s i).pending = s.pending ∧ (State.mgtUsed s i).tck.now = s.tck.now ∧ (State.mgtUsed s i).mem = s.mem := by
  unfold State.mgtUsed
  repeat' first
    | (simp only [implies_true, and_self, and_true, true_and, apply_ite State.pending, apply_ite State.mem, apply_ite State.tck, apply_ite TckSt.now, State.setSession_frame]; done)
    | (simp (maxDischargeDepth := 8) only [foldl_PMN, implies_true, and_self, and_true, true_and, apply_ite State.pending, apply_ite State.mem, apply_ite State.tck, apply_ite TckSt.now, State.setSession_frame]; done)
    | (with_reducible refine foldl_PMN _ _ _ (fun s a => ?_))
    | split
    | (simp only [implies_true, and_self, and_true, true_and, apply_ite State.pending, apply_ite State.mem, apply_ite State.tck, apply_ite TckSt.now, State.setSession_frame])

theorem State.mgtReply_frame (s : State) (port dst vid : Nat) (pay : List Byte)  : (State.mgtReply s port dst vid pay).pending = s.pending ∧ (State.mgtReply s port dst vid pay).tck.now = s.tck.now ∧ (State.mgtReply s port dst vid pay).mem = s.mem := by
  unfold State.mgtReply
  repeat' first
    | (simp only [implies_true, and_self, and_true, true_and, apply_ite State.pending, apply_ite State.mem, apply_ite State.tck, apply_ite TckSt.now, State.hostRx_frame, State.originate_frame]; done)
    | (simp (maxDischargeDepth := 8) only [foldl_PMN, implies_true, and_self, and_true, true_and, apply_ite State.pending, apply_ite State.mem, apply_ite State.tck, apply_ite TckSt.now, State.hostRx_frame, State.originate_frame]; done)
    | (with_reducible refine foldl_PMN _ _ _ (fun s a => ?_))
    | split
    | (simp only [implies_true, and_self, and_true, true_and, apply_ite State.pending, apply_ite State.mem, apply_ite State.tck, apply_ite TckSt.now, State.hostRx_frame, State.originate_frame])

theorem State.openSlot_frame (s : State)  : (State.openSlot s).2.pending = s.pending ∧ (State.openSlot s).2.tck.now = s.tck.now ∧ (State.openSlot s).2.mem = s.mem := by
  unfold State.openSlot
  repeat' first
    | (simp only [implies_true, and_self, and_true, true_and, apply_ite State.pending, apply_ite State.mem, apply_ite State.tck, apply_ite TckSt.now, State.mgtClose_frame, State.choose_frame]; done)
    | (simp (maxDischargeDepth := 8) only [foldl_PMN, implies_true, and_self, and_true, true_and, apply_ite State.pending, apply_ite State.mem, apply_ite State.tck, apply_ite TckSt.now, State.mgtClose_frame, State.choose_frame]; done)
    | (with_reducible refine foldl_PMN _ _ _ (fun s a => ?_))
    | split
    | (simp only [implies_true, and_self, and_true, true_and, apply_ite State.pending, apply_ite State.mem, apply_ite State.tck, apply_ite TckSt.now, State.mgtClose_frame, State.choose_frame])

theorem State.mgtOpen_frame (s : State) (f : MgtFrame)  : (State.mgtOpen s f).pending = s.pending ∧ (State.mgtOpen s f).tck.now = s.tck.now ∧ (State.mgtOpen s f).mem = s.mem := by
  unfold State.mgtOpen
  repeat' first
    | (simp only [implies_true, and_self, and_true, true_and, apply_ite State.pending, apply_ite State.mem, apply_ite State.tck, apply_ite TckSt.now, State.openSlot_frame, State.tick1_frame, State.setSession_frame, State.mgtUsed_frame, State.setBit_frame, State.raise_frame, State.count_frame, State.mgtReply_frame]; done)
    | (simp (maxDischargeDepth := 8) only [foldl_PMN, implies_true, and_self, and_true, true_and, apply_ite State.pending, apply_ite State.mem, apply_ite State.tck, apply_ite TckSt.now, State.openSlot_frame, State.tick1_frame, State.setSession_frame, State.mgtUsed_frame, State.setBit_frame, State.raise_frame, State.count_frame, State.mgtReply_frame]; done)
    | (with_reducible refine foldl_PMN _ _ _ (fun s a => ?_))
    | split
    | (simp only [implies_true, and_self, and_true, true_and, apply_ite State.pending, apply_ite State.mem, apply_ite State.tck, apply_ite TckSt.now, State.openSlot_frame, State.tick1_frame, State.setSession_frame, State.mgtUsed_frame, State.setBit_frame, State.raise_frame, State.count_frame, State.mgtReply_frame])

theorem State.mgtCloseFrame_frame (s : State) (f : MgtFrame)  : (State.mgtCloseFrame s f).pending = s.pending ∧ (State.mgtCloseFrame s f).tck.now = s.tck.now ∧ (State.mgtCloseFrame s f).mem = s.mem := by
  unfold State.mgtCloseFrame
  repeat' first
    | (simp only [implies_true, and_self, and_true, true_and, apply_ite State.pending, apply_ite State.mem, apply_ite State.tck, apply_ite TckSt.now, State.mgtClose_frame, State.mgtReply_frame]; done)
    | (simp (maxDischargeDepth := 8) only [foldl_PMN, implies_true, and_self, and_true, true_and, apply_ite State.pending, apply_ite State.mem, apply_ite State.tck, apply_ite TckSt.now, State.mgtClose_frame, State.mgtReply_frame]; done)
    | (with_reducible refine foldl_PMN _ _ _ (fun s a => ?_))
    | split
    | (simp only [implies_true, and_self, and_true, true_and, apply_ite State.pending, apply_ite State.mem, apply_ite State.tck, apply_ite TckSt.now, State.mgtClose_frame, State.mgtReply_frame])

theorem State.mgtAnswer_frame (s : State) (w : MgtWait)  : (State.mgtAnswer s w).pending = s.pending ∧ (State.mgtAnswer s w).tck.now = s.tck.now ∧ (State.mgtAnswer s w).mem = s.mem := by
  unfold State.mgtAnswer
  repeat' first
    | (simp only [implies_true, and_self, and_true, true_and, apply_ite State.pending, apply_ite State.mem, apply_ite State.tck, apply_ite TckSt.now, State.bump_frame, State.mgtReply_frame]; done)
    | (simp (maxDischargeDepth := 8) only [foldl_PMN, implies_true, and_self, and_true, true_and, apply_ite State.pending, apply_ite State.mem, apply_ite State.tck, apply_ite TckSt.now, State.bump_frame, State.mgtReply_frame]; done)
    | (with_reducible refine foldl_PMN _ _ _ (fun s a => ?_))
    | split
    | (simp only [implies_true, and_self, and_true, true_and, apply_ite State.pending, apply_ite State.mem, apply_ite State.tck, apply_ite TckSt.now, State.bump_frame, State.mgtReply_frame])

theorem State.mgtOp_frame (s : State) (o : Nat × Nat)  : (State.mgtOp s o).2.pending = s.pending ∧ (Memory.wf s.mem = true → Memory.wf (State.mgtOp s o).2.mem = true) := by
  unfold State.mgtOp
  refine ⟨?_, fun h => ?_⟩
  · repeat' first
      | (simp only [implies_true, and_self, and_true, true_and, apply_ite State.pending, State.busRead_frame, State.busWrite_frame]; done)
      | (simp (maxDischargeDepth := 8) only [foldl_P, implies_true, and_self, and_true, true_and, apply_ite State.pending, State.busRead_frame, State.busWrite_frame]; done)
      | (with_reducible refine foldl_P _ _ _ (fun s a => ?_))
      | split
      | (simp only [implies_true, and_self, and_true, true_and, apply_ite State.pending, State.busRead_frame, State.busWrite_frame])
  · repeat' first
      | with_reducible assumption
      | (with_reducible refine wf_ite ?_ ?_)
      | (with_reducible refine wf_eq (State.busRead_frame ..).2.2 ?_)
      | (with_reducible refine (State.busWrite_frame ..).2 ?_)
      | (with_reducible refine foldl_wf _ _ _ (fun s a h => ?_) ?_)
      | dsimp only
      | split

theorem State.mgtRun_frame (x0 : List (Nat × Nat)) (x1 : MgtWait) (s : State)  : (State.mgtRun x0 x1 s).pending = s.pending ∧ (Memory.wf s.mem = true → Memory.wf (State.mgtRun x0 x1 s).mem = true) := by
  induction x0 generalizing x1 s with
  | nil => first | exact ⟨rfl, rfl, id⟩ | exact ⟨rfl, id⟩ | exact ⟨(State.mgtAnswer_frame ..).1, fun h => wf_eq (State.mgtAnswer_frame ..).2.2 h⟩
  | cons e t ih =>
  unfold State.mgtRun
  refine ⟨?_, fun h => ?_⟩
  · repeat' first
      | with_reducible assumption
      | with_reducible rfl
      | (with_reducible refine alP_ite ?_ ?_)
      | (with_reducible refine alP_itep0 ?_ ?_)
      | (with_reducible refine alP_itep1 ?_ ?_)
      | (with_reducible refine Eq.trans (State.mgtAnswer_frame ..).1 ?_)
      | (with_reducible refine Eq.trans (State.busWrite_frame ..).1 ?_)
      | (with_reducible refine Eq.trans (State.mgtOp_frame ..).1 ?_)
      | (with_reducible refine alP_pair1 (by assumption) (Eq.trans (State.mgtOp_frame ..).1 ?_))
      | (with_reducible refine Eq.trans (ih ..).1 ?_)
      | dsimp only
      | split
  · repeat' first
      | with_reducible assumption
      | with_reducible rfl
      | (with_reducible refine alW_ite ?_ ?_)
      | (with_reducible refine alW_itep0 ?_ ?_)
      | (with_reducible refine alW_itep1 ?_ ?_)
      | (with_reducible refine wf_eq (State.mgtAnswer_frame ..).2.2 ?_)
      | (with_reducible refine (State.busWrite_frame ..).2 ?_)
      | (with_reducible refine (State.mgtOp_frame ..).2 ?_)
      | (with_reducible refine alW_pair1 (by assumption) ((State.mgtOp_frame ..).2 ?_))
      | (with_reducible refine (ih ..).2 ?_)
      | dsimp only
      | split

theorem State.mgtStart_frame (s : State) (w : MgtWait)  : (State.mgtStart s w).pending = s.pending ∧ (Memory.wf s.mem = true → Memory.wf (State.mgtStart s w).mem = true) := by
  unfold State.mgtStart
  refine ⟨?_, fun h => ?_⟩
  · repeat' first
      | (simp only [implies_true, and_self, and_true, true_and, apply_ite State.pending, State.mgtRun_frame]; done)
      | (simp (maxDischargeDepth := 8) only [foldl_P, implies_true, and_self, and_true, true_and, apply_ite State.pending, State.mgtRun_frame]; done)
      | (with_reducible refine foldl_P _ _ _ (fun s a => ?_))
      | split
      | (simp only [implies_true, and_self, and_true, true_and, apply_ite State.pending, State.mgtRun_frame])
  · repeat' first
      | with_reducible assumption
      | (with_reducible refine wf_ite ?_ ?_)
      | (with_reducible refine (State.mgtRun_frame ..).2 ?_)
      | (with_reducible refine foldl_wf _ _ _ (fun s a h => ?_) ?_)
      | dsimp only
      | split

theorem State.resumeMgt_frame (s : State)  : (State.resumeMgt s).pending = s.pending ∧ (Memory.wf s.mem = true → Memory.wf (State.resumeMgt s).mem = true) := by
  unfold State.resumeMgt
  refine ⟨?_, fun h => ?_⟩
  · repeat' first
      | (simp only [implies_true, and_self, and_true, true_and, apply_ite State.pending, State.mgtStart_frame]; done)
      | (simp (maxDischargeDepth := 8) only [foldl_P, implies_true, and_self, and_true, true_and, apply_ite State.pending, State.mgtStart_frame]; done)
      | (with_reducible refine foldl_P _ _ _ (fun s a => ?_))
      | split
      | (simp only [implies_true, and_self, and_true, true_and, apply_ite State.pending, State.mgtStart_frame])
  · repeat' first
      | with_reducible assumption
      | (with_reducible refine wf_ite ?_ ?_)
      | (with_reducible refine (State.mgtStart_frame ..).2 ?_)
      | (with_reducible refine foldl_wf _ _ _ (fun s a h => ?_) ?_)
      | dsimp only
      | split

theorem State.mgtRequest_frame (s : State) (f : MgtFrame)  : (State.mgtRequest s f).pending = s.pending ∧ (Memory.wf s.mem = true → Memory.wf (State.mgtRequest s f).mem = true) := by
  unfold State.mgtRequest
  refine ⟨?_, fun h => ?_⟩
  · repeat' first
      | (simp only [implies_true, and_self, and_true, true_and, apply_ite State.pending, State.mgtStart_frame]; done)
      | (simp (maxDischargeDepth := 8) only [foldl_P, implies_true, and_self, and_true, true_and, apply_ite State.pending, State.mgtStart_frame]; done)
      | (with_reducible refine foldl_P _ _ _ (fun s a => ?_))
      | split
      | (simp only [implies_true, and_self, and_true, true_and, apply_ite State.pending, State.mgtStart_frame])
  · repeat' first
      | with_reducible assumption
      | (with_reducible refine wf_ite ?_ ?_)
      | (with_reducible refine (State.mgtStart_frame ..).2 ?_)
      | (with_reducible refine foldl_wf _ _ _ (fun s a h => ?_) ?_)
      | dsimp only
      | split

theorem State.mgtFrame_frame (s : State) (f : MgtFrame)  : (State.mgtFrame s f).pending = s.pending ∧ (Memory.wf s.mem = true → Memory.wf (State.mgtFrame s f).mem = true) := by
  unfold State.mgtFrame
  refine ⟨?_, fun h => ?_⟩
  · repeat' first
      | (simp only [implies_true, and_self, and_true, true_and, apply_ite State.pending, State.count_frame, State.raise_frame, State.mgtOpen_frame, State.setSession_frame, State.mgtUsed_frame, State.mgtRequest_frame, State.mgtCloseFrame_frame]; done)
      | (simp (maxDischargeDepth := 8) only [foldl_P, implies_true, and_self, and_true, true_and, apply_ite State.pending, State.count_frame, State.raise_frame, State.mgtOpen_frame, State.setSession_frame, State.mgtUsed_frame, State.mgtRequest_frame, State.mgtCloseFrame_frame]; done)
      | (with_reducible refine foldl_P _ _ _ (fun s a => ?_))
      | split
      | (simp only [implies_true, and_self, and_true, true_and, apply_ite State.pending, State.count_frame, State.raise_frame, State.mgtOpen_frame, State.setSession_frame, State.mgtUsed_frame, State.mgtRequest_frame, State.mgtCloseFrame_frame])
  · repeat' first
      | with_reducible assumption
      | (with_reducible refine wf_ite ?_ ?_)
      | (with_reducible refine wf_eq (State.count_frame ..).2.2 ?_)
      | (with_reducible refine wf_eq (State.raise_frame ..).2.2 ?_)
      | (with_reducible refine wf_eq (State.mgtOpen_frame ..).2.2 ?_)
      | (with_reducible refine wf_eq (State.setSession_frame ..).2.2 ?_)
      | (with_reducible refine wf_eq (State.mgtUsed_frame ..).2.2 ?_)
      | (with_reducible refine (State.mgtRequest_frame ..).2 ?_)
      | (with_reducible refine wf_eq (State.mgtCloseFrame_frame ..).2.2 ?_)
      | (with_reducible refine foldl_wf _ _ _ (fun s a h => ?_) ?_)
      | dsimp only
      | split

theorem State.mgtIdle_frame (s : State)  : (State.mgtIdle s).pending = s.pending ∧ (State.mgtIdle s).tck.now = s.tck.now ∧ (State.mgtIdle s).mem = s.mem := by
  unfold State.mgtIdle
  repeat' first
    | (simp only [implies_true, and_self, and_true, true_and, apply_ite State.pending, apply_ite State.mem, apply_ite State.tck, apply_ite TckSt.now, State.mgtClose_frame]; done)
    | (simp (maxDischargeDepth := 8) only [foldl_PMN, implies_true, and_self, and_true, true_and, apply_ite State.pending, apply_ite State.mem, apply_ite State.tck, apply_ite TckSt.now, State.mgtClose_frame]; done)
    | (with_reducible refine foldl_PMN _ _ _ (fun s a => ?_))
    | split
    | (simp only [implies_true, and_self, and_true, true_and, apply_ite State.pending, apply_ite State.mem, apply_ite State.tck, apply_ite TckSt.now, State.mgtClose_frame])

theorem execMgtIdleExpiry_frame (cycle : Nat) (s : State) {r : State} (e : execMgtIdleExpiry cycle s = .next r) : r.pending = s.pending ∧ r.tck.now = s.tck.now ∧ r.mem = s.mem := by
  unfold execMgtIdleExpiry at e
  revert e
  intro e
  refine ⟨?_, ?_, ?_⟩
  · revert e
    repeat' first
      | with_reducible assumption
      | with_reducible rfl
      | (with_reducible refine Eq.trans (State.atCycle_frame ..).1 ?_)
      | (with_reducible refine Eq.trans (State.mgtIdle_frame ..).1 ?_)
      | (with_reducible refine ocP_next ?_)
      | with_reducible exact ocP_fault
      | dsimp only
      | split
  · revert e
    repeat' first
      | with_reducible assumption
      | with_reducible rfl
      | (with_reducible refine Eq.trans (State.atCycle_frame ..).2.1 ?_)
      | (with_reducible refine Eq.trans (State.mgtIdle_frame ..).2.1 ?_)
      | (with_reducible refine ocN_next ?_)
      | with_reducible exact ocN_fault
      | dsimp only
      | split
  · revert e
    repeat' first
      | with_reducible assumption
      | with_reducible rfl
      | (with_reducible refine Eq.trans (State.atCycle_frame ..).2.2 ?_)
      | (with_reducible refine Eq.trans (State.mgtIdle_frame ..).2.2 ?_)
      | (with_reducible refine ocM_next ?_)
      | with_reducible exact ocM_fault
      | dsimp only
      | split

end Sys2Proof.Machine
end

