-- ==== Sys2Proof/Laws/FrameFrames.lean ====
section
/-! SUPPORT. What every operation of Machine/Frames.lean leaves alone: the queue of waiting commands, the tick counter (unless it
writes it), and memory or its canonical form. -/

namespace Sys2Proof.Machine

set_option linter.all false
set_option Elab.async false
set_option maxRecDepth 4000

theorem State.rxDrop_frame (s : State) (x : Rx)  : (State.rxDrop s x).pending = s.pending ∧ (State.rxDrop s x).tck.now = s.tck.now ∧ (State.rxDrop s x).mem = s.mem := by
  unfold State.rxDrop
  repeat' first
    | (simp only [implies_true, and_self, and_true, true_and, apply_ite State.pending, apply_ite State.mem, apply_ite State.tck, apply_ite TckSt.now, State.freeChain_frame]; done)
    | (simp (maxDischargeDepth := 8) only [foldl_PMN, implies_true, and_self, and_true, true_and, apply_ite State.pending, apply_ite State.mem, apply_ite State.tck, apply_ite TckSt.now, State.freeChain_frame]; done)
    | (with_reducible refine foldl_PMN _ _ _ (fun s a => ?_))
    | split
    | (simp only [implies_true, and_self, and_true, true_and, apply_ite State.pending, apply_ite State.mem, apply_ite State.tck, apply_ite TckSt.now, State.freeChain_frame])

theorem State.rxCopy_frame (s : State) (x : Rx) (reason : Nat)  : (State.rxCopy s x reason).pending = s.pending ∧ (State.rxCopy s x reason).tck.now = s.tck.now ∧ (State.rxCopy s x reason).mem = s.mem := by
  unfold State.rxCopy
  repeat' first
    | (simp only [implies_true, and_self, and_true, true_and, apply_ite State.pending, apply_ite State.mem, apply_ite State.tck, apply_ite TckSt.now, State.hostRx_frame]; done)
    | (simp (maxDischargeDepth := 8) only [foldl_PMN, implies_true, and_self, and_true, true_and, apply_ite State.pending, apply_ite State.mem, apply_ite State.tck, apply_ite TckSt.now, State.hostRx_frame]; done)
    | (with_reducible refine foldl_PMN _ _ _ (fun s a => ?_))
    | split
    | (simp only [implies_true, and_self, and_true, true_and, apply_ite State.pending, apply_ite State.mem, apply_ite State.tck, apply_ite TckSt.now, State.hostRx_frame])

theorem State.rxTrap_frame (s : State) (x : Rx) (reason : Nat)  : (State.rxTrap s x reason).pending = s.pending ∧ (State.rxTrap s x reason).tck.now = s.tck.now ∧ (State.rxTrap s x reason).mem = s.mem := by
  unfold State.rxTrap
  repeat' first
    | (simp only [implies_true, and_self, and_true, true_and, apply_ite State.pending, apply_ite State.mem, apply_ite State.tck, apply_ite TckSt.now, State.rxCopy_frame, State.rxDrop_frame]; done)
    | (simp (maxDischargeDepth := 8) only [foldl_PMN, implies_true, and_self, and_true, true_and, apply_ite State.pending, apply_ite State.mem, apply_ite State.tck, apply_ite TckSt.now, State.rxCopy_frame, State.rxDrop_frame]; done)
    | (with_reducible refine foldl_PMN _ _ _ (fun s a => ?_))
    | split
    | (simp only [implies_true, and_self, and_true, true_and, apply_ite State.pending, apply_ite State.mem, apply_ite State.tck, apply_ite TckSt.now, State.rxCopy_frame, State.rxDrop_frame])

theorem State.deliver_frame (s : State) (x : Rx) (fix : PtpFix) (ports : List Nat) (vid : Nat) (route : Option (List Byte × Byte))  : (State.deliver s x fix ports vid route).pending = s.pending ∧ (State.deliver s x fix ports vid route).tck.now = s.tck.now ∧ (Memory.wf s.mem = true → Memory.wf (State.deliver s x fix ports vid route).mem = true) := by
  unfold State.deliver
  refine (and_assoc.1 ⟨?_, fun h => ?_⟩)
  · repeat' first
      | (simp only [implies_true, and_self, and_true, true_and, apply_ite State.pending, apply_ite State.tck, apply_ite TckSt.now, State.hostRx_frame, State.queueOn_frame]; done)
      | (simp (maxDischargeDepth := 8) only [foldl_PN, implies_true, and_self, and_true, true_and, apply_ite State.pending, apply_ite State.tck, apply_ite TckSt.now, State.hostRx_frame, State.queueOn_frame]; done)
      | (with_reducible refine foldl_PN _ _ _ (fun s a => ?_))
      | split
      | (simp only [implies_true, and_self, and_true, true_and, apply_ite State.pending, apply_ite State.tck, apply_ite TckSt.now, State.hostRx_frame, State.queueOn_frame])
  · repeat' first
      | with_reducible assumption
      | (with_reducible refine wf_ite ?_ ?_)
      | (with_reducible refine wf_eq (State.hostRx_frame ..).2.2 ?_)
      | (with_reducible refine wf_eq (State.queueOn_frame ..).2.2 ?_)
      | (with_reducible refine foldl_wf _ _ _ (fun s a h => ?_) ?_)
      | dsimp only
      | split

theorem State.decision_frame (s : State)  : (State.decision s).pending = s.pending ∧ (State.decision s).tck.now = s.tck.now ∧ (State.decision s).mem = s.mem := by
  unfold State.decision
  repeat' first
    | (simp only [implies_true, and_self, and_true, true_and, apply_ite State.pending, apply_ite State.mem, apply_ite State.tck, apply_ite TckSt.now]; done)
    | (simp (maxDischargeDepth := 8) only [foldl_PMN, implies_true, and_self, and_true, true_and, apply_ite State.pending, apply_ite State.mem, apply_ite State.tck, apply_ite TckSt.now]; done)
    | (with_reducible refine foldl_PMN _ _ _ (fun s a => ?_))
    | split
    | (simp only [implies_true, and_self, and_true, true_and, apply_ite State.pending, apply_ite State.mem, apply_ite State.tck, apply_ite TckSt.now])

theorem State.bridge_frame (s : State) (x : Rx) (fix : PtpFix)  : (State.bridge s x fix).pending = s.pending ∧ (State.bridge s x fix).tck.now = s.tck.now ∧ (Memory.wf s.mem = true → Memory.wf (State.bridge s x fix).mem = true) := by
  unfold State.bridge
  refine ⟨?_, ?_, fun h => ?_⟩
  · repeat' first
      | with_reducible assumption
      | with_reducible rfl
      | (with_reducible refine alP_ite ?_ ?_)
      | (with_reducible refine alP_itep0 ?_ ?_)
      | (with_reducible refine alP_itep1 ?_ ?_)
      | (with_reducible refine Eq.trans (State.rxCopy_frame ..).1 ?_)
      | (with_reducible refine Eq.trans (State.deliver_frame ..).1 ?_)
      | (with_reducible refine Eq.trans (State.lookupKey_frame ..).1 ?_)
      | (with_reducible refine alP_pair1 (by assumption) (Eq.trans (State.lookupKey_frame ..).1 ?_))
      | (with_reducible refine Eq.trans (State.fwdHit_frame ..).1 ?_)
      | (with_reducible refine Eq.trans (State.rxDrop_frame ..).1 ?_)
      | dsimp only
      | split
  · repeat' first
      | with_reducible assumption
      | with_reducible rfl
      | (with_reducible refine alN_ite ?_ ?_)
      | (with_reducible refine alN_itep0 ?_ ?_)
      | (with_reducible refine alN_itep1 ?_ ?_)
      | (with_reducible refine Eq.trans (State.rxCopy_frame ..).2.1 ?_)
      | (with_reducible refine Eq.trans (State.deliver_frame ..).2.1 ?_)
      | (with_reducible refine Eq.trans (State.lookupKey_frame ..).2.1 ?_)
      | (with_reducible refine alN_pair1 (by assumption) (Eq.trans (State.lookupKey_frame ..).2.1 ?_))
      | (with_reducible refine Eq.trans (State.fwdHit_frame ..).2.1 ?_)
      | (with_reducible refine Eq.trans (State.rxDrop_frame ..).2.1 ?_)
      | dsimp only
      | split
  · repeat' first
      | with_reducible assumption
      | with_reducible rfl
      | (with_reducible refine alW_ite ?_ ?_)
      | (with_reducible refine alW_itep0 ?_ ?_)
      | (with_reducible refine alW_itep1 ?_ ?_)
      | (with_reducible refine wf_eq (State.rxCopy_frame ..).2.2 ?_)
      | (with_reducible refine (State.deliver_frame ..).2.2 ?_)
      | (with_reducible refine (State.lookupKey_frame ..).2.2 ?_)
      | (with_reducible refine alW_pair1 (by assumption) ((State.lookupKey_frame ..).2.2 ?_))
      | (with_reducible refine (State.fwdHit_frame ..).2.2 ?_)
      | (with_reducible refine wf_eq (State.rxDrop_frame ..).2.2 ?_)
      | dsimp only
      | split

theorem State.routed_frame (s : State) (x : Rx) (fix : PtpFix) (valid : Bool) (port vid mac : Nat)  : (State.routed s x fix valid port vid mac).pending = s.pending ∧ (State.routed s x fix valid port vid mac).tck.now = s.tck.now ∧ (Memory.wf s.mem = true → Memory.wf (State.routed s x fix valid port vid mac).mem = true) := by
  unfold State.routed
  refine (and_assoc.1 ⟨?_, fun h => ?_⟩)
  · repeat' first
      | (simp only [implies_true, and_self, and_true, true_and, apply_ite State.pending, apply_ite State.tck, apply_ite TckSt.now, State.rxTrap_frame, State.rxDrop_frame, State.deliver_frame]; done)
      | (simp (maxDischargeDepth := 8) only [foldl_PN, implies_true, and_self, and_true, true_and, apply_ite State.pending, apply_ite State.tck, apply_ite TckSt.now, State.rxTrap_frame, State.rxDrop_frame, State.deliver_frame]; done)
      | (with_reducible refine foldl_PN _ _ _ (fun s a => ?_))
      | split
      | (simp only [implies_true, and_self, and_true, true_and, apply_ite State.pending, apply_ite State.tck, apply_ite TckSt.now, State.rxTrap_frame, State.rxDrop_frame, State.deliver_frame])
  · repeat' first
      | with_reducible assumption
      | (with_reducible refine wf_ite ?_ ?_)
      | (with_reducible refine wf_eq (State.rxTrap_frame ..).2.2 ?_)
      | (with_reducible refine wf_eq (State.rxDrop_frame ..).2.2 ?_)
      | (with_reducible refine (State.deliver_frame ..).2.2 ?_)
      | (with_reducible refine foldl_wf _ _ _ (fun s a h => ?_) ?_)
      | dsimp only
      | split

theorem State.probe_frame (d : Nat) (x0 : List Nat) (s : State)  : (State.probe d x0 s).2.pending = s.pending ∧ (State.probe d x0 s).2.tck.now = s.tck.now ∧ (Memory.wf s.mem = true → Memory.wf (State.probe d x0 s).2.mem = true) := by
  induction x0 generalizing s with
  | nil => first | exact ⟨rfl, rfl, id⟩ | exact ⟨rfl, id⟩ | exact ⟨(State.mgtAnswer_frame ..).1, fun h => wf_eq (State.mgtAnswer_frame ..).2.2 h⟩
  | cons e t ih =>
  unfold State.probe
  refine ⟨?_, ?_, fun h => ?_⟩
  · repeat' first
      | with_reducible assumption
      | with_reducible rfl
      | (with_reducible refine Eq.trans (State.lookupKey_frame ..).1 ?_)
      | (with_reducible refine alP_pair1 (by assumption) (Eq.trans (State.lookupKey_frame ..).1 ?_))
      | (with_reducible refine Eq.trans (ih ..).1 ?_)
      | (with_reducible refine alP_pair1 (by assumption) (Eq.trans (ih ..).1 ?_))
      | dsimp only
      | split
  · repeat' first
      | with_reducible assumption
      | with_reducible rfl
      | (with_reducible refine Eq.trans (State.lookupKey_frame ..).2.1 ?_)
      | (with_reducible refine alN_pair1 (by assumption) (Eq.trans (State.lookupKey_frame ..).2.1 ?_))
      | (with_reducible refine Eq.trans (ih ..).2.1 ?_)
      | (with_reducible refine alN_pair1 (by assumption) (Eq.trans (ih ..).2.1 ?_))
      | dsimp only
      | split
  · repeat' first
      | with_reducible assumption
      | with_reducible rfl
      | (with_reducible refine (State.lookupKey_frame ..).2.2 ?_)
      | (with_reducible refine alW_pair1 (by assumption) ((State.lookupKey_frame ..).2.2 ?_))
      | (with_reducible refine (ih ..).2.2 ?_)
      | (with_reducible refine alW_pair1 (by assumption) ((ih ..).2.2 ?_))
      | dsimp only
      | split

theorem State.route_frame (s : State) (x : Rx) (fix : PtpFix)  : (State.route s x fix).pending = s.pending ∧ (State.route s x fix).tck.now = s.tck.now ∧ (Memory.wf s.mem = true → Memory.wf (State.route s x fix).mem = true) := by
  unfold State.route
  refine ⟨?_, ?_, fun h => ?_⟩
  · repeat' first
      | with_reducible assumption
      | with_reducible rfl
      | (with_reducible refine alP_ite ?_ ?_)
      | (with_reducible refine alP_itep0 ?_ ?_)
      | (with_reducible refine alP_itep1 ?_ ?_)
      | (with_reducible refine Eq.trans (State.lookupKey_frame ..).1 ?_)
      | (with_reducible refine alP_pair1 (by assumption) (Eq.trans (State.lookupKey_frame ..).1 ?_))
      | (with_reducible refine Eq.trans (State.fwdHit_frame ..).1 ?_)
      | (with_reducible refine Eq.trans (State.routed_frame ..).1 ?_)
      | (with_reducible refine Eq.trans (State.probe_frame ..).1 ?_)
      | (with_reducible refine alP_pair1 (by assumption) (Eq.trans (State.probe_frame ..).1 ?_))
      | (with_reducible refine Eq.trans (State.count_frame ..).1 ?_)
      | (with_reducible refine Eq.trans (State.raise_frame ..).1 ?_)
      | (with_reducible refine Eq.trans (State.rxTrap_frame ..).1 ?_)
      | dsimp only
      | split
  · repeat' first
      | with_reducible assumption
      | with_reducible rfl
      | (with_reducible refine alN_ite ?_ ?_)
      | (with_reducible refine alN_itep0 ?_ ?_)
      | (with_reducible refine alN_itep1 ?_ ?_)
      | (with_reducible refine Eq.trans (State.lookupKey_frame ..).2.1 ?_)
      | (with_reducible refine alN_pair1 (by assumption) (Eq.trans (State.lookupKey_frame ..).2.1 ?_))
      | (with_reducible refine Eq.trans (State.fwdHit_frame ..).2.1 ?_)
      | (with_reducible refine Eq.trans (State.routed_frame ..).2.1 ?_)
      | (with_reducible refine Eq.trans (State.probe_frame ..).2.1 ?_)
      | (with_reducible refine alN_pair1 (by assumption) (Eq.trans (State.probe_frame ..).2.1 ?_))
      | (with_reducible refine Eq.trans (State.count_frame ..).2.1 ?_)
      | (with_reducible refine Eq.trans (State.raise_frame ..).2.1 ?_)
      | (with_reducible refine Eq.trans (State.rxTrap_frame ..).2.1 ?_)
      | dsimp only
      | split
  · repeat' first
      | with_reducible assumption
      | with_reducible rfl
      | (with_reducible refine alW_ite ?_ ?_)
      | (with_reducible refine alW_itep0 ?_ ?_)
      | (with_reducible refine alW_itep1 ?_ ?_)
      | (with_reducible refine (State.lookupKey_frame ..).2.2 ?_)
      | (with_reducible refine alW_pair1 (by assumption) ((State.lookupKey_frame ..).2.2 ?_))
      | (with_reducible refine (State.fwdHit_frame ..).2.2 ?_)
      | (with_reducible refine (State.routed_frame ..).2.2 ?_)
      | (with_reducible refine (State.probe_frame ..).2.2 ?_)
      | (with_reducible refine alW_pair1 (by assumption) ((State.probe_frame ..).2.2 ?_))
      | (with_reducible refine wf_eq (State.count_frame ..).2.2 ?_)
      | (with_reducible refine wf_eq (State.raise_frame ..).2.2 ?_)
      | (with_reducible refine wf_eq (State.rxTrap_frame ..).2.2 ?_)
      | dsimp only
      | split

theorem State.forward_frame (s : State) (x : Rx) (fix : PtpFix)  : (State.forward s x fix).pending = s.pending ∧ (State.forward s x fix).tck.now = s.tck.now ∧ (Memory.wf s.mem = true → Memory.wf (State.forward s x fix).mem = true) := by
  unfold State.forward
  refine (and_assoc.1 ⟨?_, fun h => ?_⟩)
  · repeat' first
      | (simp only [implies_true, and_self, and_true, true_and, apply_ite State.pending, apply_ite State.tck, apply_ite TckSt.now, State.decision_frame, State.route_frame, State.rxTrap_frame, State.bridge_frame]; done)
      | (simp (maxDischargeDepth := 8) only [foldl_PN, implies_true, and_self, and_true, true_and, apply_ite State.pending, apply_ite State.tck, apply_ite TckSt.now, State.decision_frame, State.route_frame, State.rxTrap_frame, State.bridge_frame]; done)
      | (with_reducible refine foldl_PN _ _ _ (fun s a => ?_))
      | split
      | (simp only [implies_true, and_self, and_true, true_and, apply_ite State.pending, apply_ite State.tck, apply_ite TckSt.now, State.decision_frame, State.route_frame, State.rxTrap_frame, State.bridge_frame])
  · repeat' first
      | with_reducible assumption
      | (with_reducible refine wf_ite ?_ ?_)
      | (with_reducible refine wf_eq (State.decision_frame ..).2.2 ?_)
      | (with_reducible refine (State.route_frame ..).2.2 ?_)
      | (with_reducible refine wf_eq (State.rxTrap_frame ..).2.2 ?_)
      | (with_reducible refine (State.bridge_frame ..).2.2 ?_)
      | (with_reducible refine foldl_wf _ _ _ (fun s a h => ?_) ?_)
      | dsimp only
      | split

theorem State.policed_frame (s : State) (x : Rx) (f : Rx → State → State) (hf : ∀ a0 t, (f a0 t).pending = t.pending ∧ (f a0 t).tck.now = t.tck.now ∧ (f a0 t).mem = t.mem)  : (State.policed s x f).pending = s.pending ∧ (State.policed s x f).tck.now = s.tck.now ∧ (State.policed s x f).mem = s.mem := by
  unfold State.policed
  refine ⟨?_, ?_, ?_⟩
  · repeat' first
      | with_reducible assumption
      | with_reducible rfl
      | (with_reducible refine Eq.trans (State.police_frame ..).1 ?_)
      | (with_reducible refine alP_pair1 (by assumption) (Eq.trans (State.police_frame ..).1 ?_))
      | (with_reducible refine Eq.trans (State.rxDrop_frame ..).1 ?_)
      | (with_reducible refine Eq.trans (hf _  _).1 ?_)
      | dsimp only
      | split
  · repeat' first
      | with_reducible assumption
      | with_reducible rfl
      | (with_reducible refine Eq.trans (State.police_frame ..).2.1 ?_)
      | (with_reducible refine alN_pair1 (by assumption) (Eq.trans (State.police_frame ..).2.1 ?_))
      | (with_reducible refine Eq.trans (State.rxDrop_frame ..).2.1 ?_)
      | (with_reducible refine Eq.trans (hf _  _).2.1 ?_)
      | dsimp only
      | split
  · repeat' first
      | with_reducible assumption
      | with_reducible rfl
      | (with_reducible refine Eq.trans (State.police_frame ..).2.2 ?_)
      | (with_reducible refine alM_pair1 (by assumption) (Eq.trans (State.police_frame ..).2.2 ?_))
      | (with_reducible refine Eq.trans (State.rxDrop_frame ..).2.2 ?_)
      | (with_reducible refine Eq.trans (hf _  _).2.2 ?_)
      | dsimp only
      | split
theorem State.policed_frP (s : State) (x : Rx) (f : Rx → State → State) (hf : ∀ a0 t, (f a0 t).pending = t.pending) : (State.policed s x f).pending = s.pending := by
  unfold State.policed
  · repeat' first
      | with_reducible assumption
      | with_reducible rfl
      | (with_reducible refine Eq.trans (State.police_frame ..).1 ?_)
      | (with_reducible refine alP_pair1 (by assumption) (Eq.trans (State.police_frame ..).1 ?_))
      | (with_reducible refine Eq.trans (State.rxDrop_frame ..).1 ?_)
      | (with_reducible refine Eq.trans (hf _  _) ?_)
      | dsimp only
      | split
theorem State.policed_frN (s : State) (x : Rx) (f : Rx → State → State) (hf : ∀ a0 t, (f a0 t).tck.now = t.tck.now) : (State.policed s x f).tck.now = s.tck.now := by
  unfold State.policed
  · repeat' first
      | with_reducible assumption
      | with_reducible rfl
      | (with_reducible refine Eq.trans (State.police_frame ..).2.1 ?_)
      | (with_reducible refine alN_pair1 (by assumption) (Eq.trans (State.police_frame ..).2.1 ?_))
      | (with_reducible refine Eq.trans (State.rxDrop_frame ..).2.1 ?_)
      | (with_reducible refine Eq.trans (hf _  _) ?_)
      | dsimp only
      | split
theorem State.policed_frM (s : State) (x : Rx) (f : Rx → State → State) (hf : ∀ a0 t, (f a0 t).mem = t.mem) : (State.policed s x f).mem = s.mem := by
  unfold State.policed
  · repeat' first
      | with_reducible assumption
      | with_reducible rfl
      | (with_reducible refine Eq.trans (State.police_frame ..).2.2 ?_)
      | (with_reducible refine alM_pair1 (by assumption) (Eq.trans (State.police_frame ..).2.2 ?_))
      | (with_reducible refine Eq.trans (State.rxDrop_frame ..).2.2 ?_)
      | (with_reducible refine Eq.trans (hf _  _) ?_)
      | dsimp only
      | split
theorem State.policed_frW (s : State) (x : Rx) (f : Rx → State → State) (hf : ∀ a0 t, Memory.wf t.mem = true → Memory.wf (f a0 t).mem = true) (hw : Memory.wf s.mem = true) : Memory.wf (State.policed s x f).mem = true := by
  unfold State.policed
  · repeat' first
      | with_reducible assumption
      | with_reducible rfl
      | (with_reducible refine wf_eq (State.police_frame ..).2.2 ?_)
      | (with_reducible refine alW_pair1 (by assumption) (wf_eq (State.police_frame ..).2.2 ?_))
      | (with_reducible refine wf_eq (State.rxDrop_frame ..).2.2 ?_)
      | (with_reducible refine hf _  _ ?_)
      | dsimp only
      | split

theorem State.rxOn_frame (s : State) (x : Rx) (fix : PtpFix)  : (State.rxOn s x fix).pending = s.pending ∧ (State.rxOn s x fix).tck.now = s.tck.now ∧ (Memory.wf s.mem = true → Memory.wf (State.rxOn s x fix).mem = true) := by
  unfold State.rxOn
  refine ⟨?_, ?_, fun h => ?_⟩
  · repeat' first
      | with_reducible assumption
      | with_reducible rfl
      | (with_reducible refine Eq.trans (State.policed_frP (hf := fun _ _ => ?_) ..) ?_)
      | (with_reducible refine Eq.trans (State.sourceLookup_frame ..).1 ?_)
      | (with_reducible refine Eq.trans (State.forward_frame ..).1 ?_)
      | dsimp only
      | split
  · repeat' first
      | with_reducible assumption
      | with_reducible rfl
      | (with_reducible refine Eq.trans (State.policed_frN (hf := fun _ _ => ?_) ..) ?_)
      | (with_reducible refine Eq.trans (State.sourceLookup_frame ..).2.1 ?_)
      | (with_reducible refine Eq.trans (State.forward_frame ..).2.1 ?_)
      | dsimp only
      | split
  · repeat' first
      | with_reducible assumption
      | with_reducible rfl
      | (with_reducible refine (State.policed_frW (hf := fun _ _ h => ?_) (hw := ?_) ..))
      | (with_reducible refine wf_eq (State.policed_frame ..).2.2 ?_)
      | (with_reducible refine (State.sourceLookup_frame ..).2.2 ?_)
      | (with_reducible refine (State.forward_frame ..).2.2 ?_)
      | dsimp only
      | split

theorem State.autoSync_frame (s : State) (x : Rx) (p : PtpAt)  : (State.autoSync s x p).pending = s.pending ∧ (State.autoSync s x p).tck.now = s.tck.now ∧ (State.autoSync s x p).mem = s.mem := by
  unfold State.autoSync
  repeat' first
    | (simp only [implies_true, and_self, and_true, true_and, apply_ite State.pending, apply_ite State.mem, apply_ite State.tck, apply_ite TckSt.now, State.registerSync_frame]; done)
    | (simp (maxDischargeDepth := 8) only [foldl_PMN, implies_true, and_self, and_true, true_and, apply_ite State.pending, apply_ite State.mem, apply_ite State.tck, apply_ite TckSt.now, State.registerSync_frame]; done)
    | (with_reducible refine foldl_PMN _ _ _ (fun s a => ?_))
    | split
    | (simp only [implies_true, and_self, and_true, true_and, apply_ite State.pending, apply_ite State.mem, apply_ite State.tck, apply_ite TckSt.now, State.registerSync_frame])

theorem State.ptpRx_frame (s : State) (x : Rx) (p : PtpAt)  : (State.ptpRx s x p).pending = s.pending ∧ (State.ptpRx s x p).tck.now = s.tck.now ∧ (Memory.wf s.mem = true → Memory.wf (State.ptpRx s x p).mem = true) := by
  unfold State.ptpRx
  refine ⟨?_, ?_, fun h => ?_⟩
  · repeat' first
      | with_reducible assumption
      | with_reducible rfl
      | (with_reducible refine alP_ite ?_ ?_)
      | (with_reducible refine Eq.trans (State.autoSync_frame ..).1 ?_)
      | (with_reducible refine Eq.trans (State.policed_frP (hf := fun _ _ => ?_) ..) ?_)
      | (with_reducible refine Eq.trans (State.rxTrap_frame ..).1 ?_)
      | (with_reducible refine Eq.trans (State.rxCopy_frame ..).1 ?_)
      | (with_reducible refine Eq.trans (State.count_frame ..).1 ?_)
      | (with_reducible refine Eq.trans (State.rxDrop_frame ..).1 ?_)
      | (with_reducible refine Eq.trans (State.rxOn_frame ..).1 ?_)
      | dsimp only
      | split
  · repeat' first
      | with_reducible assumption
      | with_reducible rfl
      | (with_reducible refine alN_ite ?_ ?_)
      | (with_reducible refine Eq.trans (State.autoSync_frame ..).2.1 ?_)
      | (with_reducible refine Eq.trans (State.policed_frN (hf := fun _ _ => ?_) ..) ?_)
      | (with_reducible refine Eq.trans (State.rxTrap_frame ..).2.1 ?_)
      | (with_reducible refine Eq.trans (State.rxCopy_frame ..).2.1 ?_)
      | (with_reducible refine Eq.trans (State.count_frame ..).2.1 ?_)
      | (with_reducible refine Eq.trans (State.rxDrop_frame ..).2.1 ?_)
      | (with_reducible refine Eq.trans (State.rxOn_frame ..).2.1 ?_)
      | dsimp only
      | split
  · repeat' first
      | with_reducible assumption
      | with_reducible rfl
      | (with_reducible refine alW_ite ?_ ?_)
      | (with_reducible refine wf_eq (State.autoSync_frame ..).2.2 ?_)
      | (with_reducible refine (State.policed_frW (hf := fun _ _ h => ?_) (hw := ?_) ..))
      | (with_reducible refine wf_eq (State.policed_frame ..).2.2 ?_)
      | (with_reducible refine wf_eq (State.rxTrap_frame ..).2.2 ?_)
      | (with_reducible refine wf_eq (State.rxCopy_frame ..).2.2 ?_)
      | (with_reducible refine wf_eq (State.count_frame ..).2.2 ?_)
      | (with_reducible refine wf_eq (State.rxDrop_frame ..).2.2 ?_)
      | (with_reducible refine (State.rxOn_frame ..).2.2 ?_)
      | dsimp only
      | split

theorem State.divert_frame (s : State) (gate : Nat) (x : Rx) (f : Rx → State → State) (hf : ∀ a0 t, (f a0 t).pending = t.pending ∧ (f a0 t).tck.now = t.tck.now ∧ (f a0 t).mem = t.mem)  : (State.divert s gate x f).pending = s.pending ∧ (State.divert s gate x f).tck.now = s.tck.now ∧ (State.divert s gate x f).mem = s.mem := by
  unfold State.divert
  repeat' first
    | (simp only [implies_true, and_self, and_true, true_and, apply_ite State.pending, apply_ite State.mem, apply_ite State.tck, apply_ite TckSt.now, State.count_frame, State.raise_frame, State.rxDrop_frame, State.policed_frame, hf]; done)
    | (simp (maxDischargeDepth := 8) only [foldl_PMN, implies_true, and_self, and_true, true_and, apply_ite State.pending, apply_ite State.mem, apply_ite State.tck, apply_ite TckSt.now, State.count_frame, State.raise_frame, State.rxDrop_frame, State.policed_frame, hf]; done)
    | (with_reducible refine foldl_PMN _ _ _ (fun s a => ?_))
    | split
    | (simp only [implies_true, and_self, and_true, true_and, apply_ite State.pending, apply_ite State.mem, apply_ite State.tck, apply_ite TckSt.now, State.count_frame, State.raise_frame, State.rxDrop_frame, State.policed_frame, hf])
theorem State.divert_frP (s : State) (gate : Nat) (x : Rx) (f : Rx → State → State) (hf : ∀ a0 t, (f a0 t).pending = t.pending) : (State.divert s gate x f).pending = s.pending := by
  unfold State.divert
  · repeat' first
      | with_reducible assumption
      | with_reducible rfl
      | (with_reducible refine alP_ite ?_ ?_)
      | (with_reducible refine Eq.trans (State.count_frame ..).1 ?_)
      | (with_reducible refine Eq.trans (State.raise_frame ..).1 ?_)
      | (with_reducible refine Eq.trans (State.rxDrop_frame ..).1 ?_)
      | (with_reducible refine Eq.trans (State.policed_frP (hf := fun _ _ => ?_) ..) ?_)
      | (with_reducible refine Eq.trans (hf _  _) ?_)
      | dsimp only
      | split
theorem State.divert_frN (s : State) (gate : Nat) (x : Rx) (f : Rx → State → State) (hf : ∀ a0 t, (f a0 t).tck.now = t.tck.now) : (State.divert s gate x f).tck.now = s.tck.now := by
  unfold State.divert
  · repeat' first
      | with_reducible assumption
      | with_reducible rfl
      | (with_reducible refine alN_ite ?_ ?_)
      | (with_reducible refine Eq.trans (State.count_frame ..).2.1 ?_)
      | (with_reducible refine Eq.trans (State.raise_frame ..).2.1 ?_)
      | (with_reducible refine Eq.trans (State.rxDrop_frame ..).2.1 ?_)
      | (with_reducible refine Eq.trans (State.policed_frN (hf := fun _ _ => ?_) ..) ?_)
      | (with_reducible refine Eq.trans (hf _  _) ?_)
      | dsimp only
      | split
theorem State.divert_frM (s : State) (gate : Nat) (x : Rx) (f : Rx → State → State) (hf : ∀ a0 t, (f a0 t).mem = t.mem) : (State.divert s gate x f).mem = s.mem := by
  unfold State.divert
  · repeat' first
      | with_reducible assumption
      | with_reducible rfl
      | (with_reducible refine alM_ite ?_ ?_)
      | (with_reducible refine Eq.trans (State.count_frame ..).2.2 ?_)
      | (with_reducible refine Eq.trans (State.raise_frame ..).2.2 ?_)
      | (with_reducible refine Eq.trans (State.rxDrop_frame ..).2.2 ?_)
      | (with_reducible refine Eq.trans (State.policed_frM (hf := fun _ _ => ?_) ..) ?_)
      | (with_reducible refine Eq.trans (hf _  _) ?_)
      | dsimp only
      | split
theorem State.divert_frW (s : State) (gate : Nat) (x : Rx) (f : Rx → State → State) (hf : ∀ a0 t, Memory.wf t.mem = true → Memory.wf (f a0 t).mem = true) (hw : Memory.wf s.mem = true) : Memory.wf (State.divert s gate x f).mem = true := by
  unfold State.divert
  · repeat' first
      | with_reducible assumption
      | with_reducible rfl
      | (with_reducible refine alW_ite ?_ ?_)
      | (with_reducible refine wf_eq (State.count_frame ..).2.2 ?_)
      | (with_reducible refine wf_eq (State.raise_frame ..).2.2 ?_)
      | (with_reducible refine wf_eq (State.rxDrop_frame ..).2.2 ?_)
      | (with_reducible refine (State.policed_frW (hf := fun _ _ h => ?_) (hw := ?_) ..))
      | (with_reducible refine wf_eq (State.policed_frame ..).2.2 ?_)
      | (with_reducible refine hf _  _ ?_)
      | dsimp only
      | split

theorem State.rxSteps_frame (s : State) (x : Rx)  : (State.rxSteps s x).pending = s.pending ∧ (Memory.wf s.mem = true → Memory.wf (State.rxSteps s x).mem = true) := by
  unfold State.rxSteps
  refine ⟨?_, fun h => ?_⟩
  · repeat' first
      | with_reducible assumption
      | with_reducible rfl
      | (with_reducible refine alP_ite ?_ ?_)
      | (with_reducible refine Eq.trans (State.portCount_frame ..).1 ?_)
      | (with_reducible refine Eq.trans (State.rxDrop_frame ..).1 ?_)
      | (with_reducible refine Eq.trans (State.divert_frP (hf := fun _ _ => ?_) ..) ?_)
      | (with_reducible refine Eq.trans (State.almFrameRx_frame ..).1 ?_)
      | (with_reducible refine Eq.trans (State.mgtFrame_frame ..).1 ?_)
      | (with_reducible refine Eq.trans (State.ptpRx_frame ..).1 ?_)
      | (with_reducible refine Eq.trans (State.rxOn_frame ..).1 ?_)
      | dsimp only
      | split
  · repeat' first
      | with_reducible assumption
      | with_reducible rfl
      | (with_reducible refine alW_ite ?_ ?_)
      | (with_reducible refine wf_eq (State.portCount_frame ..).2.2 ?_)
      | (with_reducible refine wf_eq (State.rxDrop_frame ..).2.2 ?_)
      | (with_reducible refine (State.divert_frW (hf := fun _ _ h => ?_) (hw := ?_) ..))
      | (with_reducible refine wf_eq (State.divert_frame ..).2.2 ?_)
      | (with_reducible refine wf_eq (State.almFrameRx_frame ..).2.2 ?_)
      | (with_reducible refine (State.mgtFrame_frame ..).2 ?_)
      | (with_reducible refine (State.ptpRx_frame ..).2.2 ?_)
      | (with_reducible refine (State.rxOn_frame ..).2.2 ?_)
      | dsimp only
      | split

theorem State.rxCount_frame (s : State) (port len : Nat)  : (State.rxCount s port len).pending = s.pending ∧ (State.rxCount s port len).tck.now = s.tck.now ∧ (State.rxCount s port len).mem = s.mem := by
  unfold State.rxCount
  repeat' first
    | (simp only [implies_true, and_self, and_true, true_and, apply_ite State.pending, apply_ite State.mem, apply_ite State.tck, apply_ite TckSt.now, State.portCount_frame, State.octets_frame]; done)
    | (simp (maxDischargeDepth := 8) only [foldl_PMN, implies_true, and_self, and_true, true_and, apply_ite State.pending, apply_ite State.mem, apply_ite State.tck, apply_ite TckSt.now, State.portCount_frame, State.octets_frame]; done)
    | (with_reducible refine foldl_PMN _ _ _ (fun s a => ?_))
    | split
    | (simp only [implies_true, and_self, and_true, true_and, apply_ite State.pending, apply_ite State.mem, apply_ite State.tck, apply_ite TckSt.now, State.portCount_frame, State.octets_frame])

theorem State.rxFrame_frame (s : State) (port : Nat) (fcsOk : Bool) (ago : Nat) (data : List Byte) (rivals : List Nat)  : (State.rxFrame s port fcsOk ago data rivals).pending = s.pending ∧ (Memory.wf s.mem = true → Memory.wf (State.rxFrame s port fcsOk ago data rivals).mem = true) := by
  unfold State.rxFrame
  refine ⟨?_, fun h => ?_⟩
  · repeat' first
      | with_reducible assumption
      | with_reducible rfl
      | (with_reducible refine alP_ite ?_ ?_)
      | (with_reducible refine alP_itep0 ?_ ?_)
      | (with_reducible refine alP_itep1 ?_ ?_)
      | (with_reducible refine Eq.trans (State.rxCount_frame ..).1 ?_)
      | (with_reducible refine Eq.trans (State.portCount_frame ..).1 ?_)
      | (with_reducible refine Eq.trans (State.pauseRx_frame ..).1 ?_)
      | (with_reducible refine Eq.trans (State.noBuffer_frame ..).1 ?_)
      | (with_reducible refine Eq.trans (State.allocFrame_frame ..).1 ?_)
      | (with_reducible refine alP_pair1 (by assumption) (Eq.trans (State.allocFrame_frame ..).1 ?_))
      | (with_reducible refine Eq.trans (State.freeChain_frame ..).1 ?_)
      | (with_reducible refine Eq.trans (State.rxSteps_frame ..).1 ?_)
      | dsimp only
      | split
  · repeat' first
      | with_reducible assumption
      | with_reducible rfl
      | (with_reducible refine alW_ite ?_ ?_)
      | (with_reducible refine alW_itep0 ?_ ?_)
      | (with_reducible refine alW_itep1 ?_ ?_)
      | (with_reducible refine wf_eq (State.rxCount_frame ..).2.2 ?_)
      | (with_reducible refine wf_eq (State.portCount_frame ..).2.2 ?_)
      | (with_reducible refine wf_eq (State.pauseRx_frame ..).2.2 ?_)
      | (with_reducible refine wf_eq (State.noBuffer_frame ..).2.2 ?_)
      | (with_reducible refine wf_eq (State.allocFrame_frame ..).2.2 ?_)
      | (with_reducible refine alW_pair1 (by assumption) (wf_eq (State.allocFrame_frame ..).2.2 ?_))
      | (with_reducible refine wf_eq (State.freeChain_frame ..).2.2 ?_)
      | (with_reducible refine (State.rxSteps_frame ..).2 ?_)
      | dsimp only
      | split

theorem State.hostEnters_frame (s : State) (data : List Byte) (chain : List Nat)  : (State.hostEnters s data chain).pending = s.pending ∧ (Memory.wf s.mem = true → Memory.wf (State.hostEnters s data chain).mem = true) := by
  unfold State.hostEnters
  refine ⟨?_, fun h => ?_⟩
  · repeat' first
      | (simp only [implies_true, and_self, and_true, true_and, apply_ite State.pending, State.rxSteps_frame]; done)
      | (simp (maxDischargeDepth := 8) only [foldl_P, implies_true, and_self, and_true, true_and, apply_ite State.pending, State.rxSteps_frame]; done)
      | (with_reducible refine foldl_P _ _ _ (fun s a => ?_))
      | split
      | (simp only [implies_true, and_self, and_true, true_and, apply_ite State.pending, State.rxSteps_frame])
  · repeat' first
      | with_reducible assumption
      | (with_reducible refine wf_ite ?_ ?_)
      | (with_reducible refine (State.rxSteps_frame ..).2 ?_)
      | (with_reducible refine foldl_wf _ _ _ (fun s a h => ?_) ?_)
      | dsimp only
      | split

theorem State.hostFrame_frame (s : State) (data : List Byte) (rivals : List Nat)  : (State.hostFrame s data rivals).pending = s.pending ∧ (Memory.wf s.mem = true → Memory.wf (State.hostFrame s data rivals).mem = true) := by
  unfold State.hostFrame
  refine ⟨?_, fun h => ?_⟩
  · repeat' first
      | with_reducible assumption
      | with_reducible rfl
      | (with_reducible refine alP_ite ?_ ?_)
      | (with_reducible refine alP_itep0 ?_ ?_)
      | (with_reducible refine alP_itep1 ?_ ?_)
      | (with_reducible refine Eq.trans (State.noBuffer_frame ..).1 ?_)
      | (with_reducible refine Eq.trans (State.allocFrame_frame ..).1 ?_)
      | (with_reducible refine alP_pair1 (by assumption) (Eq.trans (State.allocFrame_frame ..).1 ?_))
      | (with_reducible refine Eq.trans (State.hostEnters_frame ..).1 ?_)
      | dsimp only
      | split
  · repeat' first
      | with_reducible assumption
      | with_reducible rfl
      | (with_reducible refine alW_ite ?_ ?_)
      | (with_reducible refine alW_itep0 ?_ ?_)
      | (with_reducible refine alW_itep1 ?_ ?_)
      | (with_reducible refine wf_eq (State.noBuffer_frame ..).2.2 ?_)
      | (with_reducible refine wf_eq (State.allocFrame_frame ..).2.2 ?_)
      | (with_reducible refine alW_pair1 (by assumption) (wf_eq (State.allocFrame_frame ..).2.2 ?_))
      | (with_reducible refine (State.hostEnters_frame ..).2 ?_)
      | dsimp only
      | split

theorem State.txEnd_frame (s : State) (i : Nat) (d : TxDesc) (status : Nat)  : (State.txEnd s i d status).pending = s.pending ∧ (State.txEnd s i d status).tck.now = s.tck.now ∧ (State.txEnd s i d status).mem = s.mem := by
  unfold State.txEnd
  repeat' first
    | (simp only [implies_true, and_self, and_true, true_and, apply_ite State.pending, apply_ite State.mem, apply_ite State.tck, apply_ite TckSt.now, State.txDone_frame, State.txHead_frame]; done)
    | (simp (maxDischargeDepth := 8) only [foldl_PMN, implies_true, and_self, and_true, true_and, apply_ite State.pending, apply_ite State.mem, apply_ite State.tck, apply_ite TckSt.now, State.txDone_frame, State.txHead_frame]; done)
    | (with_reducible refine foldl_PMN _ _ _ (fun s a => ?_))
    | split
    | (simp only [implies_true, and_self, and_true, true_and, apply_ite State.pending, apply_ite State.mem, apply_ite State.tck, apply_ite TckSt.now, State.txDone_frame, State.txHead_frame])

theorem State.txDirect_frame (s : State) (i : Nat) (d : TxDesc) (ch : List Nat)  : (State.txDirect s i d ch).pending = s.pending ∧ (State.txDirect s i d ch).tck.now = s.tck.now ∧ (State.txDirect s i d ch).mem = s.mem := by
  unfold State.txDirect
  repeat' first
    | (simp only [implies_true, and_self, and_true, true_and, apply_ite State.pending, apply_ite State.mem, apply_ite State.tck, apply_ite TckSt.now, State.freeChain_frame, State.tick1_frame, State.txEnd_frame, State.portCount_frame, State.setBuf_frame, State.joinQ_frame, State.txHead_frame]; done)
    | (simp (maxDischargeDepth := 8) only [foldl_PMN, implies_true, and_self, and_true, true_and, apply_ite State.pending, apply_ite State.mem, apply_ite State.tck, apply_ite TckSt.now, State.freeChain_frame, State.tick1_frame, State.txEnd_frame, State.portCount_frame, State.setBuf_frame, State.joinQ_frame, State.txHead_frame]; done)
    | (with_reducible refine foldl_PMN _ _ _ (fun s a => ?_))
    | split
    | (simp only [implies_true, and_self, and_true, true_and, apply_ite State.pending, apply_ite State.mem, apply_ite State.tck, apply_ite TckSt.now, State.freeChain_frame, State.tick1_frame, State.txEnd_frame, State.portCount_frame, State.setBuf_frame, State.joinQ_frame, State.txHead_frame])

theorem State.hostTx_frame (s : State) (d : TxDesc) (busOk : Bool)  : (State.hostTx s d busOk).pending = s.pending ∧ (Memory.wf s.mem = true → Memory.wf (State.hostTx s d busOk).mem = true) := by
  unfold State.hostTx
  refine ⟨?_, fun h => ?_⟩
  · repeat' first
      | with_reducible assumption
      | with_reducible rfl
      | (with_reducible refine alP_ite ?_ ?_)
      | (with_reducible refine alP_itep0 ?_ ?_)
      | (with_reducible refine alP_itep1 ?_ ?_)
      | (with_reducible refine Eq.trans (State.txEnd_frame ..).1 ?_)
      | (with_reducible refine Eq.trans (State.allocFrame_frame ..).1 ?_)
      | (with_reducible refine alP_pair1 (by assumption) (Eq.trans (State.allocFrame_frame ..).1 ?_))
      | (with_reducible refine Eq.trans (State.freeChain_frame ..).1 ?_)
      | (with_reducible refine Eq.trans (State.txDirect_frame ..).1 ?_)
      | (with_reducible refine Eq.trans (State.hostEnters_frame ..).1 ?_)
      | dsimp only
      | split
  · repeat' first
      | with_reducible assumption
      | with_reducible rfl
      | (with_reducible refine alW_ite ?_ ?_)
      | (with_reducible refine alW_itep0 ?_ ?_)
      | (with_reducible refine alW_itep1 ?_ ?_)
      | (with_reducible refine wf_eq (State.txEnd_frame ..).2.2 ?_)
      | (with_reducible refine wf_eq (State.allocFrame_frame ..).2.2 ?_)
      | (with_reducible refine alW_pair1 (by assumption) (wf_eq (State.allocFrame_frame ..).2.2 ?_))
      | (with_reducible refine wf_eq (State.freeChain_frame ..).2.2 ?_)
      | (with_reducible refine wf_eq (State.txDirect_frame ..).2.2 ?_)
      | (with_reducible refine (State.hostEnters_frame ..).2 ?_)
      | dsimp only
      | split

theorem execSupFrameRx_frame (port : Fin 67) (frame : Bool × List Byte) (ago : Nat) (rivals : List (Fin 71)) (cycle : Nat) (s : State) {r : State} (e : execSupFrameRx port frame ago rivals cycle s = .next r) : r.pending = s.pending ∧ (Memory.wf s.mem = true → Memory.wf r.mem = true) := by
  unfold execSupFrameRx at e
  revert e
  intro e
  refine ⟨?_, fun h => ?_⟩
  · revert e
    repeat' first
      | with_reducible assumption
      | with_reducible rfl
      | (with_reducible refine alP_ite ?_ ?_)
      | (with_reducible refine Eq.trans (State.atCycle_frame ..).1 ?_)
      | (with_reducible refine Eq.trans (State.rxFrame_frame ..).1 ?_)
      | (with_reducible refine Eq.trans (State.hostFrame_frame ..).1 ?_)
      | (with_reducible refine ocP_next ?_)
      | with_reducible exact ocP_fault
      | (with_reducible refine ocP_ite ?_ ?_)
      | dsimp only
      | split
  · revert e
    repeat' first
      | with_reducible assumption
      | with_reducible rfl
      | (with_reducible refine alW_ite ?_ ?_)
      | (with_reducible refine wf_eq (State.atCycle_frame ..).2.2 ?_)
      | (with_reducible refine (State.rxFrame_frame ..).2 ?_)
      | (with_reducible refine (State.hostFrame_frame ..).2 ?_)
      | (with_reducible refine ocW_next ?_)
      | with_reducible exact ocW_fault
      | (with_reducible refine ocW_ite ?_ ?_)
      | dsimp only
      | split

theorem execPauseFrame_frame (port : Fin 66) (fcsOk : Bool) (sa : BitVec 48) (quanta : BitVec 16) (cycle : Nat) (s : State) {r : State} (e : execPauseFrame port fcsOk sa quanta cycle s = .next r) : r.pending = s.pending ∧ (Memory.wf s.mem = true → Memory.wf r.mem = true) := by
  unfold execPauseFrame at e
  revert e
  intro e
  refine ⟨?_, fun h => ?_⟩
  · revert e
    repeat' first
      | with_reducible assumption
      | with_reducible rfl
      | (with_reducible refine Eq.trans (State.atCycle_frame ..).1 ?_)
      | (with_reducible refine Eq.trans (State.rxFrame_frame ..).1 ?_)
      | (with_reducible refine ocP_next ?_)
      | with_reducible exact ocP_fault
      | dsimp only
      | split
  · revert e
    repeat' first
      | with_reducible assumption
      | with_reducible rfl
      | (with_reducible refine wf_eq (State.atCycle_frame ..).2.2 ?_)
      | (with_reducible refine (State.rxFrame_frame ..).2 ?_)
      | (with_reducible refine ocW_next ?_)
      | with_reducible exact ocW_fault
      | dsimp only
      | split

theorem execHostTxFrame_frame (len : BitVec 16) (port prio : Byte) (vid flags : BitVec 16) (data : List Byte) (busOk : Bool) (cycle : Nat) (s : State) {r : State} (e : execHostTxFrame len port prio vid flags data busOk cycle s = .next r) : r.pending = s.pending ∧ (Memory.wf s.mem = true → Memory.wf r.mem = true) := by
  unfold execHostTxFrame at e
  revert e
  intro e
  refine ⟨?_, fun h => ?_⟩
  · revert e
    repeat' first
      | with_reducible assumption
      | with_reducible rfl
      | (with_reducible refine Eq.trans (State.atCycle_frame ..).1 ?_)
      | (with_reducible refine Eq.trans (State.hostTx_frame ..).1 ?_)
      | (with_reducible refine ocP_next ?_)
      | with_reducible exact ocP_fault
      | dsimp only
      | split
  · revert e
    repeat' first
      | with_reducible assumption
      | with_reducible rfl
      | (with_reducible refine wf_eq (State.atCycle_frame ..).2.2 ?_)
      | (with_reducible refine (State.hostTx_frame ..).2 ?_)
      | (with_reducible refine ocW_next ?_)
      | with_reducible exact ocW_fault
      | dsimp only
      | split

theorem execAlarmFrame_frame (port : Fin 66) (eth : EthHdr) (ago : Nat) (payload : List Byte) (cycle : Nat) (s : State) {r : State} (e : execAlarmFrame port eth ago payload cycle s = .next r) : r.pending = s.pending ∧ (Memory.wf s.mem = true → Memory.wf r.mem = true) := by
  unfold execAlarmFrame at e
  revert e
  intro e
  refine ⟨?_, fun h => ?_⟩
  · revert e
    repeat' first
      | with_reducible assumption
      | with_reducible rfl
      | (with_reducible refine Eq.trans (State.atCycle_frame ..).1 ?_)
      | (with_reducible refine Eq.trans (State.rxFrame_frame ..).1 ?_)
      | (with_reducible refine ocP_next ?_)
      | with_reducible exact ocP_fault
      | dsimp only
      | split
  · revert e
    repeat' first
      | with_reducible assumption
      | with_reducible rfl
      | (with_reducible refine wf_eq (State.atCycle_frame ..).2.2 ?_)
      | (with_reducible refine (State.rxFrame_frame ..).2 ?_)
      | (with_reducible refine ocW_next ?_)
      | with_reducible exact ocW_fault
      | dsimp only
      | split

theorem State.mgtArrives_frame (s : State) (port : Nat) (sa : BitVec 48) (tag : Option (BitVec 16)) (ago : Nat) (body : List Byte) (mac : BitVec 256)  : (State.mgtArrives s port sa tag ago body mac).pending = s.pending ∧ (Memory.wf s.mem = true → Memory.wf (State.mgtArrives s port sa tag ago body mac).mem = true) := by
  unfold State.mgtArrives
  refine ⟨?_, fun h => ?_⟩
  · repeat' first
      | (simp only [implies_true, and_self, and_true, true_and, apply_ite State.pending, State.rxFrame_frame]; done)
      | (simp (maxDischargeDepth := 8) only [foldl_P, implies_true, and_self, and_true, true_and, apply_ite State.pending, State.rxFrame_frame]; done)
      | (with_reducible refine foldl_P _ _ _ (fun s a => ?_))
      | split
      | (simp only [implies_true, and_self, and_true, true_and, apply_ite State.pending, State.rxFrame_frame])
  · repeat' first
      | with_reducible assumption
      | (with_reducible refine wf_ite ?_ ?_)
      | (with_reducible refine (State.rxFrame_frame ..).2 ?_)
      | (with_reducible refine foldl_wf _ _ _ (fun s a h => ?_) ?_)
      | dsimp only
      | split

theorem execOpen_frame (port : Fin 66) (sa : BitVec 48) (tag : Option (BitVec 16)) (ago : Nat) (target key : BitVec 16) (nonce : BitVec 64) (mac : BitVec 256) (cycle : Nat) (s : State) {r : State} (e : execOpen port sa tag ago target key nonce mac cycle s = .next r) : r.pending = s.pending ∧ (Memory.wf s.mem = true → Memory.wf r.mem = true) := by
  unfold execOpen at e
  revert e
  intro e
  refine ⟨?_, fun h => ?_⟩
  · revert e
    repeat' first
      | with_reducible assumption
      | with_reducible rfl
      | (with_reducible refine Eq.trans (State.atCycle_frame ..).1 ?_)
      | (with_reducible refine Eq.trans (State.mgtArrives_frame ..).1 ?_)
      | (with_reducible refine ocP_next ?_)
      | with_reducible exact ocP_fault
      | dsimp only
      | split
  · revert e
    repeat' first
      | with_reducible assumption
      | with_reducible rfl
      | (with_reducible refine wf_eq (State.atCycle_frame ..).2.2 ?_)
      | (with_reducible refine (State.mgtArrives_frame ..).2 ?_)
      | (with_reducible refine ocW_next ?_)
      | with_reducible exact ocW_fault
      | dsimp only
      | split

theorem execRequest_frame (port : Fin 66) (sa : BitVec 48) (tag : Option (BitVec 16)) (ago : Nat) (session : Byte) (target key : BitVec 16) (seq : BitVec 32) (ops : List (Word × Word)) (mac : BitVec 256) (cycle : Nat) (s : State) {r : State} (e : execRequest port sa tag ago session target key seq ops mac cycle s = .next r) : r.pending = s.pending ∧ (Memory.wf s.mem = true → Memory.wf r.mem = true) := by
  unfold execRequest at e
  revert e
  intro e
  refine ⟨?_, fun h => ?_⟩
  · revert e
    repeat' first
      | with_reducible assumption
      | with_reducible rfl
      | (with_reducible refine Eq.trans (State.atCycle_frame ..).1 ?_)
      | (with_reducible refine Eq.trans (State.mgtArrives_frame ..).1 ?_)
      | (with_reducible refine ocP_next ?_)
      | with_reducible exact ocP_fault
      | dsimp only
      | split
  · revert e
    repeat' first
      | with_reducible assumption
      | with_reducible rfl
      | (with_reducible refine wf_eq (State.atCycle_frame ..).2.2 ?_)
      | (with_reducible refine (State.mgtArrives_frame ..).2 ?_)
      | (with_reducible refine ocW_next ?_)
      | with_reducible exact ocW_fault
      | dsimp only
      | split

theorem execClose_frame (port : Fin 66) (sa : BitVec 48) (tag : Option (BitVec 16)) (ago : Nat) (session : Byte) (target key : BitVec 16) (seq : BitVec 32) (mac : BitVec 256) (cycle : Nat) (s : State) {r : State} (e : execClose port sa tag ago session target key seq mac cycle s = .next r) : r.pending = s.pending ∧ (Memory.wf s.mem = true → Memory.wf r.mem = true) := by
  unfold execClose at e
  revert e
  intro e
  refine ⟨?_, fun h => ?_⟩
  · revert e
    repeat' first
      | with_reducible assumption
      | with_reducible rfl
      | (with_reducible refine Eq.trans (State.atCycle_frame ..).1 ?_)
      | (with_reducible refine Eq.trans (State.mgtArrives_frame ..).1 ?_)
      | (with_reducible refine ocP_next ?_)
      | with_reducible exact ocP_fault
      | dsimp only
      | split
  · revert e
    repeat' first
      | with_reducible assumption
      | with_reducible rfl
      | (with_reducible refine wf_eq (State.atCycle_frame ..).2.2 ?_)
      | (with_reducible refine (State.mgtArrives_frame ..).2 ?_)
      | (with_reducible refine ocW_next ?_)
      | with_reducible exact ocW_fault
      | dsimp only
      | split

theorem execPtpMessage_frame (port : Fin 66) (env : PtpEnv) (ago : Nat) (msg : List Byte) (cycle : Nat) (s : State) {r : State} (e : execPtpMessage port env ago msg cycle s = .next r) : r.pending = s.pending ∧ (Memory.wf s.mem = true → Memory.wf r.mem = true) := by
  unfold execPtpMessage at e
  revert e
  intro e
  refine ⟨?_, fun h => ?_⟩
  · revert e
    repeat' first
      | with_reducible assumption
      | with_reducible rfl
      | (with_reducible refine Eq.trans (State.atCycle_frame ..).1 ?_)
      | (with_reducible refine Eq.trans (State.rxFrame_frame ..).1 ?_)
      | (with_reducible refine ocP_next ?_)
      | with_reducible exact ocP_fault
      | dsimp only
      | split
  · revert e
    repeat' first
      | with_reducible assumption
      | with_reducible rfl
      | (with_reducible refine wf_eq (State.atCycle_frame ..).2.2 ?_)
      | (with_reducible refine (State.rxFrame_frame ..).2 ?_)
      | (with_reducible refine ocW_next ?_)
      | with_reducible exact ocW_fault
      | dsimp only
      | split

theorem execFollowUp_frame (port : Fin 66) (env : PtpEnv) (ago : Nat) (msg : List Byte) (cycle : Nat) (s : State) {r : State} (e : execFollowUp port env ago msg cycle s = .next r) : r.pending = s.pending ∧ (Memory.wf s.mem = true → Memory.wf r.mem = true) := by
  unfold execFollowUp at e
  revert e
  intro e
  refine ⟨?_, fun h => ?_⟩
  · revert e
    repeat' first
      | with_reducible assumption
      | with_reducible rfl
      | (with_reducible refine Eq.trans (State.atCycle_frame ..).1 ?_)
      | (with_reducible refine Eq.trans (State.rxFrame_frame ..).1 ?_)
      | (with_reducible refine ocP_next ?_)
      | with_reducible exact ocP_fault
      | dsimp only
      | split
  · revert e
    repeat' first
      | with_reducible assumption
      | with_reducible rfl
      | (with_reducible refine wf_eq (State.atCycle_frame ..).2.2 ?_)
      | (with_reducible refine (State.rxFrame_frame ..).2 ?_)
      | (with_reducible refine ocW_next ?_)
      | with_reducible exact ocW_fault
      | dsimp only
      | split

theorem execDelayResp_frame (port : Fin 66) (env : PtpEnv) (ago : Nat) (msg : List Byte) (cycle : Nat) (s : State) {r : State} (e : execDelayResp port env ago msg cycle s = .next r) : r.pending = s.pending ∧ (Memory.wf s.mem = true → Memory.wf r.mem = true) := by
  unfold execDelayResp at e
  revert e
  intro e
  refine ⟨?_, fun h => ?_⟩
  · revert e
    repeat' first
      | with_reducible assumption
      | with_reducible rfl
      | (with_reducible refine Eq.trans (State.atCycle_frame ..).1 ?_)
      | (with_reducible refine Eq.trans (State.rxFrame_frame ..).1 ?_)
      | (with_reducible refine ocP_next ?_)
      | with_reducible exact ocP_fault
      | dsimp only
      | split
  · revert e
    repeat' first
      | with_reducible assumption
      | with_reducible rfl
      | (with_reducible refine wf_eq (State.atCycle_frame ..).2.2 ?_)
      | (with_reducible refine (State.rxFrame_frame ..).2 ?_)
      | (with_reducible refine ocW_next ?_)
      | with_reducible exact ocW_fault
      | dsimp only
      | split

end Sys2Proof.Machine
end

