-- ==== Sys2Proof/Laws/FrameHostIf.lean ====
section
/-! SUPPORT. What every operation of Machine/HostIf.lean leaves alone: the queue of waiting commands, the tick counter (unless it
writes it), and memory or its canonical form. -/

namespace Sys2Proof.Machine

set_option linter.all false
set_option Elab.async false
set_option maxRecDepth 4000

theorem State.resetMsix_frame (s : State)  : (State.resetMsix s).pending = s.pending ∧ (State.resetMsix s).tck.now = s.tck.now ∧ (State.resetMsix s).mem = s.mem := by
  unfold State.resetMsix
  repeat' first
    | (simp only [implies_true, and_self, and_true, true_and, apply_ite State.pending, apply_ite State.mem, apply_ite State.tck, apply_ite TckSt.now, State.setBit_frame, State.setReg_frame, State.setRegN_frame]; done)
    | (simp (maxDischargeDepth := 8) only [foldl_PMN, implies_true, and_self, and_true, true_and, apply_ite State.pending, apply_ite State.mem, apply_ite State.tck, apply_ite TckSt.now, State.setBit_frame, State.setReg_frame, State.setRegN_frame]; done)
    | (with_reducible refine foldl_PMN _ _ _ (fun s a => ?_))
    | split
    | (simp only [implies_true, and_self, and_true, true_and, apply_ite State.pending, apply_ite State.mem, apply_ite State.tck, apply_ite TckSt.now, State.setBit_frame, State.setReg_frame, State.setRegN_frame])

theorem State.pcieReset_frame (s : State)  : (State.pcieReset s).pending = s.pending ∧ (State.pcieReset s).tck.now = s.tck.now ∧ (State.pcieReset s).mem = s.mem := by
  unfold State.pcieReset
  repeat' first
    | (simp only [implies_true, and_self, and_true, true_and, apply_ite State.pending, apply_ite State.mem, apply_ite State.tck, apply_ite TckSt.now, State.resetMaster_frame, State.mgmtReset_frame, State.resetMsix_frame]; done)
    | (simp (maxDischargeDepth := 8) only [foldl_PMN, implies_true, and_self, and_true, true_and, apply_ite State.pending, apply_ite State.mem, apply_ite State.tck, apply_ite TckSt.now, State.resetMaster_frame, State.mgmtReset_frame, State.resetMsix_frame]; done)
    | (with_reducible refine foldl_PMN _ _ _ (fun s a => ?_))
    | split
    | (simp only [implies_true, and_self, and_true, true_and, apply_ite State.pending, apply_ite State.mem, apply_ite State.tck, apply_ite TckSt.now, State.resetMaster_frame, State.mgmtReset_frame, State.resetMsix_frame])

theorem State.linkGone_frame (s : State)  : (State.linkGone s).pending = s.pending ∧ (State.linkGone s).tck.now = s.tck.now ∧ (State.linkGone s).mem = s.mem := by
  unfold State.linkGone
  repeat' first
    | (simp only [implies_true, and_self, and_true, true_and, apply_ite State.pending, apply_ite State.mem, apply_ite State.tck, apply_ite TckSt.now, State.setFld_frame, State.raiseIf_frame]; done)
    | (simp (maxDischargeDepth := 8) only [foldl_PMN, implies_true, and_self, and_true, true_and, apply_ite State.pending, apply_ite State.mem, apply_ite State.tck, apply_ite TckSt.now, State.setFld_frame, State.raiseIf_frame]; done)
    | (with_reducible refine foldl_PMN _ _ _ (fun s a => ?_))
    | split
    | (simp only [implies_true, and_self, and_true, true_and, apply_ite State.pending, apply_ite State.mem, apply_ite State.tck, apply_ite TckSt.now, State.setFld_frame, State.raiseIf_frame])

theorem State.linkChange_frame (s : State) (speed width : Nat) (msixEn maskAll : Bool)  : (State.linkChange s speed width msixEn maskAll).pending = s.pending ∧ (State.linkChange s speed width msixEn maskAll).tck.now = s.tck.now ∧ (State.linkChange s speed width msixEn maskAll).mem = s.mem := by
  unfold State.linkChange
  repeat' first
    | (simp only [implies_true, and_self, and_true, true_and, apply_ite State.pending, apply_ite State.mem, apply_ite State.tck, apply_ite TckSt.now, State.setRegN_frame, State.raiseIf_frame, State.sendPba_frame]; done)
    | (simp (maxDischargeDepth := 8) only [foldl_PMN, implies_true, and_self, and_true, true_and, apply_ite State.pending, apply_ite State.mem, apply_ite State.tck, apply_ite TckSt.now, State.setRegN_frame, State.raiseIf_frame, State.sendPba_frame]; done)
    | (with_reducible refine foldl_PMN _ _ _ (fun s a => ?_))
    | split
    | (simp only [implies_true, and_self, and_true, true_and, apply_ite State.pending, apply_ite State.mem, apply_ite State.tck, apply_ite TckSt.now, State.setRegN_frame, State.raiseIf_frame, State.sendPba_frame])

theorem execPcieHotReset_frame (s : State) {r : State} (e : execPcieHotReset s = .next r) : r.pending = s.pending ∧ r.tck.now = s.tck.now ∧ r.mem = s.mem := by
  unfold execPcieHotReset at e
  revert e
  intro e
  refine ⟨?_, ?_, ?_⟩
  · revert e
    repeat' first
      | with_reducible assumption
      | with_reducible rfl
      | (with_reducible refine alP_ite ?_ ?_)
      | (with_reducible refine Eq.trans (State.pcieReset_frame ..).1 ?_)
      | (with_reducible refine ocP_next ?_)
      | with_reducible exact ocP_fault
      | (with_reducible refine ocP_ite ?_ ?_)
      | dsimp only
      | split
  · revert e
    repeat' first
      | with_reducible assumption
      | with_reducible rfl
      | (with_reducible refine alN_ite ?_ ?_)
      | (with_reducible refine Eq.trans (State.pcieReset_frame ..).2.1 ?_)
      | (with_reducible refine ocN_next ?_)
      | with_reducible exact ocN_fault
      | (with_reducible refine ocN_ite ?_ ?_)
      | dsimp only
      | split
  · revert e
    repeat' first
      | with_reducible assumption
      | with_reducible rfl
      | (with_reducible refine alM_ite ?_ ?_)
      | (with_reducible refine Eq.trans (State.pcieReset_frame ..).2.2 ?_)
      | (with_reducible refine ocM_next ?_)
      | with_reducible exact ocM_fault
      | (with_reducible refine ocM_ite ?_ ?_)
      | dsimp only
      | split

theorem execFunctionLevelReset_frame (s : State) {r : State} (e : execFunctionLevelReset s = .next r) : r.pending = s.pending ∧ r.tck.now = s.tck.now ∧ r.mem = s.mem := by
  unfold execFunctionLevelReset at e
  revert e
  intro e
  refine ⟨?_, ?_, ?_⟩
  · revert e
    repeat' first
      | with_reducible assumption
      | with_reducible rfl
      | (with_reducible refine alP_ite ?_ ?_)
      | (with_reducible refine Eq.trans (State.pcieReset_frame ..).1 ?_)
      | (with_reducible refine ocP_next ?_)
      | with_reducible exact ocP_fault
      | (with_reducible refine ocP_ite ?_ ?_)
      | dsimp only
      | split
  · revert e
    repeat' first
      | with_reducible assumption
      | with_reducible rfl
      | (with_reducible refine alN_ite ?_ ?_)
      | (with_reducible refine Eq.trans (State.pcieReset_frame ..).2.1 ?_)
      | (with_reducible refine ocN_next ?_)
      | with_reducible exact ocN_fault
      | (with_reducible refine ocN_ite ?_ ?_)
      | dsimp only
      | split
  · revert e
    repeat' first
      | with_reducible assumption
      | with_reducible rfl
      | (with_reducible refine alM_ite ?_ ?_)
      | (with_reducible refine Eq.trans (State.pcieReset_frame ..).2.2 ?_)
      | (with_reducible refine ocM_next ?_)
      | with_reducible exact ocM_fault
      | (with_reducible refine ocM_ite ?_ ?_)
      | dsimp only
      | split

theorem execPcieLinkDown_frame (s : State) {r : State} (e : execPcieLinkDown s = .next r) : r.pending = s.pending ∧ r.tck.now = s.tck.now ∧ r.mem = s.mem := by
  unfold execPcieLinkDown at e
  revert e
  intro e
  refine ⟨?_, ?_, ?_⟩
  · revert e
    repeat' first
      | with_reducible assumption
      | with_reducible rfl
      | (with_reducible refine alP_ite ?_ ?_)
      | (with_reducible refine Eq.trans (State.pcieReset_frame ..).1 ?_)
      | (with_reducible refine Eq.trans (State.linkGone_frame ..).1 ?_)
      | (with_reducible refine ocP_next ?_)
      | with_reducible exact ocP_fault
      | (with_reducible refine ocP_ite ?_ ?_)
      | dsimp only
      | split
  · revert e
    repeat' first
      | with_reducible assumption
      | with_reducible rfl
      | (with_reducible refine alN_ite ?_ ?_)
      | (with_reducible refine Eq.trans (State.pcieReset_frame ..).2.1 ?_)
      | (with_reducible refine Eq.trans (State.linkGone_frame ..).2.1 ?_)
      | (with_reducible refine ocN_next ?_)
      | with_reducible exact ocN_fault
      | (with_reducible refine ocN_ite ?_ ?_)
      | dsimp only
      | split
  · revert e
    repeat' first
      | with_reducible assumption
      | with_reducible rfl
      | (with_reducible refine alM_ite ?_ ?_)
      | (with_reducible refine Eq.trans (State.pcieReset_frame ..).2.2 ?_)
      | (with_reducible refine Eq.trans (State.linkGone_frame ..).2.2 ?_)
      | (with_reducible refine ocM_next ?_)
      | with_reducible exact ocM_fault
      | (with_reducible refine ocM_ite ?_ ?_)
      | dsimp only
      | split

theorem execPciePerst_frame (low : Bool) (s : State) {r : State} (e : execPciePerst low s = .next r) : r.pending = s.pending ∧ r.tck.now = s.tck.now ∧ r.mem = s.mem := by
  unfold execPciePerst at e
  revert e
  intro e
  refine ⟨?_, ?_, ?_⟩
  · revert e
    repeat' first
      | with_reducible assumption
      | with_reducible rfl
      | (with_reducible refine alP_ite ?_ ?_)
      | (with_reducible refine Eq.trans (State.pcieReset_frame ..).1 ?_)
      | (with_reducible refine Eq.trans (State.linkGone_frame ..).1 ?_)
      | (with_reducible refine ocP_next ?_)
      | with_reducible exact ocP_fault
      | (with_reducible refine ocP_ite ?_ ?_)
      | dsimp only
      | split
  · revert e
    repeat' first
      | with_reducible assumption
      | with_reducible rfl
      | (with_reducible refine alN_ite ?_ ?_)
      | (with_reducible refine Eq.trans (State.pcieReset_frame ..).2.1 ?_)
      | (with_reducible refine Eq.trans (State.linkGone_frame ..).2.1 ?_)
      | (with_reducible refine ocN_next ?_)
      | with_reducible exact ocN_fault
      | (with_reducible refine ocN_ite ?_ ?_)
      | dsimp only
      | split
  · revert e
    repeat' first
      | with_reducible assumption
      | with_reducible rfl
      | (with_reducible refine alM_ite ?_ ?_)
      | (with_reducible refine Eq.trans (State.pcieReset_frame ..).2.2 ?_)
      | (with_reducible refine Eq.trans (State.linkGone_frame ..).2.2 ?_)
      | (with_reducible refine ocM_next ?_)
      | with_reducible exact ocM_fault
      | (with_reducible refine ocM_ite ?_ ?_)
      | dsimp only
      | split

theorem execPcieLinkChange_frame (speed width : Fin 5) (msixEn maskAll : Bool) (s : State) {r : State} (e : execPcieLinkChange speed width msixEn maskAll s = .next r) : r.pending = s.pending ∧ r.tck.now = s.tck.now ∧ r.mem = s.mem := by
  unfold execPcieLinkChange at e
  revert e
  intro e
  refine ⟨?_, ?_, ?_⟩
  · revert e
    repeat' first
      | with_reducible assumption
      | with_reducible rfl
      | (with_reducible refine alP_ite ?_ ?_)
      | (with_reducible refine Eq.trans (State.linkChange_frame ..).1 ?_)
      | (with_reducible refine ocP_next ?_)
      | with_reducible exact ocP_fault
      | (with_reducible refine ocP_ite ?_ ?_)
      | dsimp only
      | split
  · revert e
    repeat' first
      | with_reducible assumption
      | with_reducible rfl
      | (with_reducible refine alN_ite ?_ ?_)
      | (with_reducible refine Eq.trans (State.linkChange_frame ..).2.1 ?_)
      | (with_reducible refine ocN_next ?_)
      | with_reducible exact ocN_fault
      | (with_reducible refine ocN_ite ?_ ?_)
      | dsimp only
      | split
  · revert e
    repeat' first
      | with_reducible assumption
      | with_reducible rfl
      | (with_reducible refine alM_ite ?_ ?_)
      | (with_reducible refine Eq.trans (State.linkChange_frame ..).2.2 ?_)
      | (with_reducible refine ocM_next ?_)
      | with_reducible exact ocM_fault
      | (with_reducible refine ocM_ite ?_ ?_)
      | dsimp only
      | split

theorem execMsixMessage_frame (s : State) {r : State} (e : execMsixMessage s = .next r) : r.pending = s.pending ∧ r.tck.now = s.tck.now ∧ r.mem = s.mem := by
  unfold execMsixMessage at e
  revert e
  intro e
  refine ⟨?_, ?_, ?_⟩
  · revert e
    repeat' first
      | with_reducible assumption
      | with_reducible rfl
      | (with_reducible refine alP_ite ?_ ?_)
      | (with_reducible refine Eq.trans (State.setBit_frame ..).1 ?_)
      | (with_reducible refine Eq.trans (State.emit_frame ..).1 ?_)
      | (with_reducible refine ocP_next ?_)
      | with_reducible exact ocP_fault
      | (with_reducible refine ocP_ite ?_ ?_)
      | dsimp only
      | split
  · revert e
    repeat' first
      | with_reducible assumption
      | with_reducible rfl
      | (with_reducible refine alN_ite ?_ ?_)
      | (with_reducible refine Eq.trans (State.setBit_frame ..).2.1 ?_)
      | (with_reducible refine Eq.trans (State.emit_frame ..).2.1 ?_)
      | (with_reducible refine ocN_next ?_)
      | with_reducible exact ocN_fault
      | (with_reducible refine ocN_ite ?_ ?_)
      | dsimp only
      | split
  · revert e
    repeat' first
      | with_reducible assumption
      | with_reducible rfl
      | (with_reducible refine alM_ite ?_ ?_)
      | (with_reducible refine Eq.trans (State.setBit_frame ..).2.2 ?_)
      | (with_reducible refine Eq.trans (State.emit_frame ..).2.2 ?_)
      | (with_reducible refine ocM_next ?_)
      | with_reducible exact ocM_fault
      | (with_reducible refine ocM_ite ?_ ?_)
      | dsimp only
      | split

theorem execVectorUnmask_frame (m : Fin 8) (vec : Fin 64) (s : State) {r : State} (e : execVectorUnmask m vec s = .next r) : r.pending = s.pending ∧ (Memory.wf s.mem = true → Memory.wf r.mem = true) := by
  unfold execVectorUnmask at e
  revert e
  intro e
  refine ⟨?_, fun h => ?_⟩
  · revert e
    repeat' first
      | with_reducible assumption
      | with_reducible rfl
      | (with_reducible refine Eq.trans (State.regWrite_frame ..).1 ?_)
      | (with_reducible refine ocP_next ?_)
      | with_reducible exact ocP_fault
      | dsimp only
      | split
  · revert e
    repeat' first
      | with_reducible assumption
      | with_reducible rfl
      | (with_reducible refine (State.regWrite_frame ..).2 ?_)
      | (with_reducible refine ocW_next ?_)
      | with_reducible exact ocW_fault
      | dsimp only
      | split

theorem accessOf_frame (mnemonic : String) (m a n : Nat) (s : State) {r : State} (e : accessOf mnemonic m a n s = .next r) : r.pending = s.pending ∧ r.tck.now = s.tck.now ∧ r.mem = s.mem := by
  unfold accessOf at e
  revert e
  intro e
  refine ⟨?_, ?_, ?_⟩
  · revert e
    repeat' first
      | with_reducible assumption
      | with_reducible rfl
      | (with_reducible refine alP_ite ?_ ?_)
      | (with_reducible refine ocP_next ?_)
      | with_reducible exact ocP_fault
      | (with_reducible refine ocP_ite ?_ ?_)
      | dsimp only
      | split
  · revert e
    repeat' first
      | with_reducible assumption
      | with_reducible rfl
      | (with_reducible refine alN_ite ?_ ?_)
      | (with_reducible refine ocN_next ?_)
      | with_reducible exact ocN_fault
      | (with_reducible refine ocN_ite ?_ ?_)
      | dsimp only
      | split
  · revert e
    repeat' first
      | with_reducible assumption
      | with_reducible rfl
      | (with_reducible refine alM_ite ?_ ?_)
      | (with_reducible refine ocM_next ?_)
      | with_reducible exact ocM_fault
      | (with_reducible refine ocM_ite ?_ ?_)
      | dsimp only
      | split

theorem execRegisterWrite_frame (m : Fin 8) (addr value : Word) (en : Fin 16) (cycle : Nat) (s : State) {r : State} (e : execRegisterWrite m addr value en cycle s = .next r) : r.pending = s.pending ∧ (Memory.wf s.mem = true → Memory.wf r.mem = true) := by
  have h := accessOf_frame _ _ _ _ _ e
  have k := State.busWrite_frame (s.atCycle cycle) m addr.toNat value en
  exact ⟨h.1.trans k.1, fun w => h.2.2 ▸ k.2 w⟩

theorem execLowWordRead_frame (m : Fin 8) (addr : Word) (cycle : Nat) (s : State) {r : State} (e : execLowWordRead m addr cycle s = .next r) : r.pending = s.pending ∧ r.tck.now = s.tck.now ∧ r.mem = s.mem := by
  have h := accessOf_frame _ _ _ _ _ e
  have k := State.busRead_frame (s.atCycle cycle) m addr.toNat
  exact ⟨h.1.trans k.1, h.2.1.trans k.2.1, h.2.2.trans k.2.2⟩

theorem execCrsActDataRead_frame (m : Fin 8) (s : State) {r : State} (e : execCrsActDataRead m s = .next r) : r.pending = s.pending ∧ r.tck.now = s.tck.now ∧ r.mem = s.mem := by
  unfold execCrsActDataRead at e
  revert e
  intro e
  refine ⟨?_, ?_, ?_⟩
  · revert e
    repeat' first
      | with_reducible assumption
      | with_reducible rfl
      | (with_reducible refine Eq.trans (State.busRead_frame ..).1 ?_)
      | (with_reducible refine ocP_next ?_)
      | with_reducible exact ocP_fault
      | dsimp only
      | split
  · revert e
    repeat' first
      | with_reducible assumption
      | with_reducible rfl
      | (with_reducible refine Eq.trans (State.busRead_frame ..).2.1 ?_)
      | (with_reducible refine ocN_next ?_)
      | with_reducible exact ocN_fault
      | dsimp only
      | split
  · revert e
    repeat' first
      | with_reducible assumption
      | with_reducible rfl
      | (with_reducible refine Eq.trans (State.busRead_frame ..).2.2 ?_)
      | (with_reducible refine ocM_next ?_)
      | with_reducible exact ocM_fault
      | dsimp only
      | split

theorem execPrtSubaDataRead_frame (m : Fin 8) (s : State) {r : State} (e : execPrtSubaDataRead m s = .next r) : r.pending = s.pending ∧ r.tck.now = s.tck.now ∧ r.mem = s.mem := by
  unfold execPrtSubaDataRead at e
  revert e
  intro e
  refine ⟨?_, ?_, ?_⟩
  · revert e
    repeat' first
      | with_reducible assumption
      | with_reducible rfl
      | (with_reducible refine Eq.trans (State.busRead_frame ..).1 ?_)
      | (with_reducible refine ocP_next ?_)
      | with_reducible exact ocP_fault
      | dsimp only
      | split
  · revert e
    repeat' first
      | with_reducible assumption
      | with_reducible rfl
      | (with_reducible refine Eq.trans (State.busRead_frame ..).2.1 ?_)
      | (with_reducible refine ocN_next ?_)
      | with_reducible exact ocN_fault
      | dsimp only
      | split
  · revert e
    repeat' first
      | with_reducible assumption
      | with_reducible rfl
      | (with_reducible refine Eq.trans (State.busRead_frame ..).2.2 ?_)
      | (with_reducible refine ocM_next ?_)
      | with_reducible exact ocM_fault
      | dsimp only
      | split

theorem execDecodeError_frame (m : Fin 8) (write : Bool) (addr : Word) (s : State) {r : State} (e : execDecodeError m write addr s = .next r) : r.pending = s.pending ∧ (Memory.wf s.mem = true → Memory.wf r.mem = true) := by
  have h := accessOf_frame _ _ _ _ _ e
  have k := State.regWrite_frame s m addr.toNat 0
  have q := State.busRead_frame s m addr.toNat
  split at h
  · split at h
    · exact ⟨h.1.trans k.1, fun w => h.2.2 ▸ k.2 w⟩
    · exact ⟨h.1.trans q.1, fun w => by rw [h.2.2, q.2.2]; exact w⟩
  · exact ⟨h.1, fun w => by rw [h.2.2]; exact w⟩

theorem execW1cClear_frame (m : Fin 8) (addr value : Word) (s : State) {r : State} (e : execW1cClear m addr value s = .next r) : r.pending = s.pending ∧ (Memory.wf s.mem = true → Memory.wf r.mem = true) := by
  have h := accessOf_frame _ _ _ _ _ e
  have k := State.busWrite_frame s m addr.toNat value 15
  exact ⟨h.1.trans k.1, fun w => h.2.2 ▸ k.2 w⟩

theorem execIntForce_frame (m : Fin 8) (page : BitVec 14) (value : Word) (s : State) {r : State} (e : execIntForce m page value s = .next r) : r.pending = s.pending ∧ (Memory.wf s.mem = true → Memory.wf r.mem = true) := by
  unfold execIntForce at e
  revert e
  intro e
  refine ⟨?_, fun h => ?_⟩
  · revert e
    repeat' first
      | with_reducible assumption
      | with_reducible rfl
      | (with_reducible refine Eq.trans (State.regWrite_frame ..).1 ?_)
      | (with_reducible refine ocP_next ?_)
      | with_reducible exact ocP_fault
      | dsimp only
      | split
  · revert e
    repeat' first
      | with_reducible assumption
      | with_reducible rfl
      | (with_reducible refine (State.regWrite_frame ..).2 ?_)
      | (with_reducible refine ocW_next ?_)
      | with_reducible exact ocW_fault
      | dsimp only
      | split

theorem execRemap_frame (m : Fin 8) (remap : Bool) (s : State) {r : State} (e : execRemap m remap s = .next r) : r.pending = s.pending ∧ (Memory.wf s.mem = true → Memory.wf r.mem = true) := by
  unfold execRemap at e
  revert e
  intro e
  refine ⟨?_, fun h => ?_⟩
  · revert e
    repeat' first
      | with_reducible assumption
      | with_reducible rfl
      | (with_reducible refine Eq.trans (State.regWrite_frame ..).1 ?_)
      | (with_reducible refine ocP_next ?_)
      | with_reducible exact ocP_fault
      | dsimp only
      | split
  · revert e
    repeat' first
      | with_reducible assumption
      | with_reducible rfl
      | (with_reducible refine (State.regWrite_frame ..).2 ?_)
      | (with_reducible refine ocW_next ?_)
      | with_reducible exact ocW_fault
      | dsimp only
      | split

theorem State.regBeats_frame (s : State) (m : Nat) (x0 : Nat) (x1 : List Byte)  : (State.regBeats s m x0 x1).pending = s.pending ∧ (Memory.wf s.mem = true → Memory.wf (State.regBeats s m x0 x1).mem = true) := by
  fun_induction State.regBeats s m x0 x1 with
  | case1 s a b0 b1 b2 b3 t v ih =>
    have h := State.regWrite_frame s m a (if a % 0x1000 = OFF_COMMIT ∧ s.target a = 0 then v &&& ~~~(1 : Word) else v)
    exact ⟨ih.1.trans h.1, fun w => ih.2 (h.2 w)⟩
  | case2 s a l hl => exact ⟨rfl, id⟩

theorem execBurstTruncate_frame (m : Fin 8) (write : Bool) (addr : Word) (data : List Byte) (s : State) {r : State} (e : execBurstTruncate m write addr data s = .next r) : r.pending = s.pending ∧ (Memory.wf s.mem = true → Memory.wf r.mem = true) := by
  unfold execBurstTruncate at e
  revert e
  intro e
  refine ⟨?_, fun h => ?_⟩
  · revert e
    repeat' first
      | with_reducible assumption
      | with_reducible rfl
      | (with_reducible refine alP_ite ?_ ?_)
      | (with_reducible refine Eq.trans (State.regBeats_frame ..).1 ?_)
      | (with_reducible refine Eq.trans (State.memWrite_frame ..).1 ?_)
      | (with_reducible refine Eq.trans (State.logViolation_frame ..).1 ?_)
      | (with_reducible refine Eq.trans (State.resetMaster_frame ..).1 ?_)
      | (with_reducible refine Eq.trans (State.respond_frame ..).1 ?_)
      | (with_reducible refine ocP_next ?_)
      | with_reducible exact ocP_fault
      | (with_reducible refine ocP_ite ?_ ?_)
      | dsimp only
      | split
  · revert e
    repeat' first
      | with_reducible assumption
      | with_reducible rfl
      | (with_reducible refine alW_ite ?_ ?_)
      | (with_reducible refine (State.regBeats_frame ..).2 ?_)
      | (with_reducible refine (State.memWrite_frame ..).2.2 ?_)
      | (with_reducible refine wf_eq (State.logViolation_frame ..).2.2 ?_)
      | (with_reducible refine wf_eq (State.resetMaster_frame ..).2.2 ?_)
      | (with_reducible refine wf_eq (State.respond_frame ..).2.2 ?_)
      | (with_reducible refine ocW_next ?_)
      | with_reducible exact ocW_fault
      | (with_reducible refine ocW_ite ?_ ?_)
      | dsimp only
      | split

theorem State.regionWrite_frame (s : State) (mnemonic : String) (m base size off : Nat) (data : List Byte) {r : State} (e : State.regionWrite s mnemonic m base size off data = .next r) : r.pending = s.pending ∧ r.tck.now = s.tck.now ∧ (Memory.wf s.mem = true → Memory.wf r.mem = true) := by
  unfold State.regionWrite at e
  revert e
  intro e
  refine ⟨?_, ?_, fun h => ?_⟩
  · revert e
    repeat' first
      | with_reducible assumption
      | with_reducible rfl
      | (with_reducible refine alP_ite ?_ ?_)
      | (with_reducible refine Eq.trans (State.memWrite_frame ..).1 ?_)
      | (with_reducible refine ocP_next ?_)
      | with_reducible exact ocP_fault
      | (with_reducible refine ocP_ite ?_ ?_)
      | dsimp only
      | split
  · revert e
    repeat' first
      | with_reducible assumption
      | with_reducible rfl
      | (with_reducible refine alN_ite ?_ ?_)
      | (with_reducible refine Eq.trans (State.memWrite_frame ..).2.1 ?_)
      | (with_reducible refine ocN_next ?_)
      | with_reducible exact ocN_fault
      | (with_reducible refine ocN_ite ?_ ?_)
      | dsimp only
      | split
  · revert e
    repeat' first
      | with_reducible assumption
      | with_reducible rfl
      | (with_reducible refine alW_ite ?_ ?_)
      | (with_reducible refine (State.memWrite_frame ..).2.2 ?_)
      | (with_reducible refine ocW_next ?_)
      | with_reducible exact ocW_fault
      | (with_reducible refine ocW_ite ?_ ?_)
      | dsimp only
      | split

theorem execStateStoreWrite_frame (m : Fin 8) (off : Fin 33554432) (data : List Byte) (s : State) {r : State} (e : execStateStoreWrite m off data s = .next r) : r.pending = s.pending ∧ r.tck.now = s.tck.now ∧ (Memory.wf s.mem = true → Memory.wf r.mem = true) := by
  exact State.regionWrite_frame _ _ _ _ _ _ _ e

theorem execContextEntryWrite_frame (m : Fin 8) (off : Fin 8388608) (data : List Byte) (s : State) {r : State} (e : execContextEntryWrite m off data s = .next r) : r.pending = s.pending ∧ r.tck.now = s.tck.now ∧ (Memory.wf s.mem = true → Memory.wf r.mem = true) := by
  exact State.regionWrite_frame _ _ _ _ _ _ _ e

theorem execProfileShadowWrite_frame (m : Fin 8) (off : Fin 65536) (data : List Byte) (s : State) {r : State} (e : execProfileShadowWrite m off data s = .next r) : r.pending = s.pending ∧ r.tck.now = s.tck.now ∧ (Memory.wf s.mem = true → Memory.wf r.mem = true) := by
  exact State.regionWrite_frame _ _ _ _ _ _ _ e

theorem execLoopContextWrite_frame (m : Fin 8) (off : Fin 1572864) (data : List Byte) (s : State) {r : State} (e : execLoopContextWrite m off data s = .next r) : r.pending = s.pending ∧ r.tck.now = s.tck.now ∧ (Memory.wf s.mem = true → Memory.wf r.mem = true) := by
  exact State.regionWrite_frame _ _ _ _ _ _ _ e

theorem execPlacementShadowWrite_frame (m : Fin 8) (off : Fin 2490368) (data : List Byte) (s : State) {r : State} (e : execPlacementShadowWrite m off data s = .next r) : r.pending = s.pending ∧ r.tck.now = s.tck.now ∧ (Memory.wf s.mem = true → Memory.wf r.mem = true) := by
  exact State.regionWrite_frame _ _ _ _ _ _ _ e

theorem execMramWrite_frame (m : Fin 8) (off : Fin 33554432) (data : List Byte) (s : State) {r : State} (e : execMramWrite m off data s = .next r) : r.pending = s.pending ∧ r.tck.now = s.tck.now ∧ (Memory.wf s.mem = true → Memory.wf r.mem = true) := by
  exact State.regionWrite_frame _ _ _ _ _ _ _ e

theorem execKeySlotWrite_frame (m : Fin 8) (slot : Fin 2) (off : Fin 32) (data : List Byte) (s : State) {r : State} (e : execKeySlotWrite m slot off data s = .next r) : r.pending = s.pending ∧ r.tck.now = s.tck.now ∧ (Memory.wf s.mem = true → Memory.wf r.mem = true) := by
  exact State.regionWrite_frame _ _ _ _ _ _ _ e

theorem execAlertResponse_frame (s : State) {r : State} (e : execAlertResponse s = .next r) : r.pending = s.pending ∧ r.tck.now = s.tck.now ∧ r.mem = s.mem := by
  unfold execAlertResponse at e
  revert e
  intro e
  refine ⟨?_, ?_, ?_⟩
  · revert e
    repeat' first
      | with_reducible assumption
      | with_reducible rfl
      | (with_reducible refine alP_ite ?_ ?_)
      | (with_reducible refine ocP_next ?_)
      | with_reducible exact ocP_fault
      | (with_reducible refine ocP_ite ?_ ?_)
      | dsimp only
      | split
  · revert e
    repeat' first
      | with_reducible assumption
      | with_reducible rfl
      | (with_reducible refine alN_ite ?_ ?_)
      | (with_reducible refine ocN_next ?_)
      | with_reducible exact ocN_fault
      | (with_reducible refine ocN_ite ?_ ?_)
      | dsimp only
      | split
  · revert e
    repeat' first
      | with_reducible assumption
      | with_reducible rfl
      | (with_reducible refine alM_ite ?_ ?_)
      | (with_reducible refine ocM_next ?_)
      | with_reducible exact ocM_fault
      | (with_reducible refine ocM_ite ?_ ?_)
      | dsimp only
      | split

theorem State.pecDrop_frame (s : State) (write : Bool)  : (State.pecDrop s write).pending = s.pending ∧ (State.pecDrop s write).tck.now = s.tck.now ∧ (State.pecDrop s write).mem = s.mem := by
  unfold State.pecDrop
  repeat' first
    | (simp only [implies_true, and_self, and_true, true_and, apply_ite State.pending, apply_ite State.mem, apply_ite State.tck, apply_ite TckSt.now, State.raiseIf_frame]; done)
    | (simp (maxDischargeDepth := 8) only [foldl_PMN, implies_true, and_self, and_true, true_and, apply_ite State.pending, apply_ite State.mem, apply_ite State.tck, apply_ite TckSt.now, State.raiseIf_frame]; done)
    | (with_reducible refine foldl_PMN _ _ _ (fun s a => ?_))
    | split
    | (simp only [implies_true, and_self, and_true, true_and, apply_ite State.pending, apply_ite State.mem, apply_ite State.tck, apply_ite TckSt.now, State.raiseIf_frame])

theorem execSmbAddr_frame (v : Word) (pec : Fin 3) (s : State) {r : State} (e : execSmbAddr v pec s = .next r) : r.pending = s.pending ∧ r.tck.now = s.tck.now ∧ r.mem = s.mem := by
  unfold execSmbAddr at e
  revert e
  intro e
  refine ⟨?_, ?_, ?_⟩
  · revert e
    repeat' first
      | with_reducible assumption
      | with_reducible rfl
      | (with_reducible refine alP_ite ?_ ?_)
      | (with_reducible refine Eq.trans (State.pecDrop_frame ..).1 ?_)
      | (with_reducible refine ocP_next ?_)
      | with_reducible exact ocP_fault
      | (with_reducible refine ocP_ite ?_ ?_)
      | dsimp only
      | split
  · revert e
    repeat' first
      | with_reducible assumption
      | with_reducible rfl
      | (with_reducible refine alN_ite ?_ ?_)
      | (with_reducible refine Eq.trans (State.pecDrop_frame ..).2.1 ?_)
      | (with_reducible refine ocN_next ?_)
      | with_reducible exact ocN_fault
      | (with_reducible refine ocN_ite ?_ ?_)
      | dsimp only
      | split
  · revert e
    repeat' first
      | with_reducible assumption
      | with_reducible rfl
      | (with_reducible refine alM_ite ?_ ?_)
      | (with_reducible refine Eq.trans (State.pecDrop_frame ..).2.2 ?_)
      | (with_reducible refine ocM_next ?_)
      | with_reducible exact ocM_fault
      | (with_reducible refine ocM_ite ?_ ?_)
      | dsimp only
      | split

theorem State.smbAdvance_frame (s : State)  : (State.smbAdvance s).pending = s.pending ∧ (State.smbAdvance s).tck.now = s.tck.now ∧ (State.smbAdvance s).mem = s.mem := by
  unfold State.smbAdvance
  repeat' first
    | (simp only [implies_true, and_self, and_true, true_and, apply_ite State.pending, apply_ite State.mem, apply_ite State.tck, apply_ite TckSt.now]; done)
    | (simp (maxDischargeDepth := 8) only [foldl_PMN, implies_true, and_self, and_true, true_and, apply_ite State.pending, apply_ite State.mem, apply_ite State.tck, apply_ite TckSt.now]; done)
    | (with_reducible refine foldl_PMN _ _ _ (fun s a => ?_))
    | split
    | (simp only [implies_true, and_self, and_true, true_and, apply_ite State.pending, apply_ite State.mem, apply_ite State.tck, apply_ite TckSt.now])

theorem execSmbWrite_frame (v : Word) (pec : Fin 3) (s : State) {r : State} (e : execSmbWrite v pec s = .next r) : r.pending = s.pending ∧ (Memory.wf s.mem = true → Memory.wf r.mem = true) := by
  unfold execSmbWrite at e
  revert e
  intro e
  refine ⟨?_, fun h => ?_⟩
  · revert e
    repeat' first
      | with_reducible assumption
      | with_reducible rfl
      | (with_reducible refine alP_ite ?_ ?_)
      | (with_reducible refine Eq.trans (State.pecDrop_frame ..).1 ?_)
      | (with_reducible refine Eq.trans (State.busWrite_frame ..).1 ?_)
      | (with_reducible refine Eq.trans (State.smbAdvance_frame ..).1 ?_)
      | (with_reducible refine ocP_next ?_)
      | with_reducible exact ocP_fault
      | (with_reducible refine ocP_ite ?_ ?_)
      | dsimp only
      | split
  · revert e
    repeat' first
      | with_reducible assumption
      | with_reducible rfl
      | (with_reducible refine alW_ite ?_ ?_)
      | (with_reducible refine wf_eq (State.pecDrop_frame ..).2.2 ?_)
      | (with_reducible refine (State.busWrite_frame ..).2 ?_)
      | (with_reducible refine wf_eq (State.smbAdvance_frame ..).2.2 ?_)
      | (with_reducible refine ocW_next ?_)
      | with_reducible exact ocW_fault
      | (with_reducible refine ocW_ite ?_ ?_)
      | dsimp only
      | split

theorem execSmbRead_frame (s : State) {r : State} (e : execSmbRead s = .next r) : r.pending = s.pending ∧ r.tck.now = s.tck.now ∧ r.mem = s.mem := by
  unfold execSmbRead at e
  revert e
  intro e
  refine ⟨?_, ?_, ?_⟩
  · revert e
    repeat' first
      | with_reducible assumption
      | with_reducible rfl
      | (with_reducible refine alP_ite ?_ ?_)
      | (with_reducible refine Eq.trans (State.busRead_frame ..).1 ?_)
      | (with_reducible refine Eq.trans (State.smbAdvance_frame ..).1 ?_)
      | (with_reducible refine Eq.trans (State.smbDone_frame ..).1 ?_)
      | (with_reducible refine ocP_next ?_)
      | with_reducible exact ocP_fault
      | (with_reducible refine ocP_ite ?_ ?_)
      | dsimp only
      | split
  · revert e
    repeat' first
      | with_reducible assumption
      | with_reducible rfl
      | (with_reducible refine alN_ite ?_ ?_)
      | (with_reducible refine Eq.trans (State.busRead_frame ..).2.1 ?_)
      | (with_reducible refine Eq.trans (State.smbAdvance_frame ..).2.1 ?_)
      | (with_reducible refine Eq.trans (State.smbDone_frame ..).2.1 ?_)
      | (with_reducible refine ocN_next ?_)
      | with_reducible exact ocN_fault
      | (with_reducible refine ocN_ite ?_ ?_)
      | dsimp only
      | split
  · revert e
    repeat' first
      | with_reducible assumption
      | with_reducible rfl
      | (with_reducible refine alM_ite ?_ ?_)
      | (with_reducible refine Eq.trans (State.busRead_frame ..).2.2 ?_)
      | (with_reducible refine Eq.trans (State.smbAdvance_frame ..).2.2 ?_)
      | (with_reducible refine Eq.trans (State.smbDone_frame ..).2.2 ?_)
      | (with_reducible refine ocM_next ?_)
      | with_reducible exact ocM_fault
      | (with_reducible refine ocM_ite ?_ ?_)
      | dsimp only
      | split

theorem State.jtagIr_frame (s : State) (ir dr : Nat) (squelch : Bool)  : (State.jtagIr s ir dr squelch).pending = s.pending ∧ (State.jtagIr s ir dr squelch).tck.now = s.tck.now ∧ (State.jtagIr s ir dr squelch).mem = s.mem := by
  unfold State.jtagIr
  repeat' first
    | (simp only [implies_true, and_self, and_true, true_and, apply_ite State.pending, apply_ite State.mem, apply_ite State.tck, apply_ite TckSt.now]; done)
    | (simp (maxDischargeDepth := 8) only [foldl_PMN, implies_true, and_self, and_true, true_and, apply_ite State.pending, apply_ite State.mem, apply_ite State.tck, apply_ite TckSt.now]; done)
    | (with_reducible refine foldl_PMN _ _ _ (fun s a => ?_))
    | split
    | (simp only [implies_true, and_self, and_true, true_and, apply_ite State.pending, apply_ite State.mem, apply_ite State.tck, apply_ite TckSt.now])

theorem State.jtagScan_frame (s : State) (ir : Nat) (squelch : Bool)  : (State.jtagScan s ir squelch).pending = s.pending ∧ (State.jtagScan s ir squelch).tck.now = s.tck.now ∧ (State.jtagScan s ir squelch).mem = s.mem := by
  unfold State.jtagScan
  repeat' first
    | (simp only [implies_true, and_self, and_true, true_and, apply_ite State.pending, apply_ite State.mem, apply_ite State.tck, apply_ite TckSt.now, State.jtagIr_frame, State.tick1_frame]; done)
    | (simp (maxDischargeDepth := 8) only [foldl_PMN, implies_true, and_self, and_true, true_and, apply_ite State.pending, apply_ite State.mem, apply_ite State.tck, apply_ite TckSt.now, State.jtagIr_frame, State.tick1_frame]; done)
    | (with_reducible refine foldl_PMN _ _ _ (fun s a => ?_))
    | split
    | (simp only [implies_true, and_self, and_true, true_and, apply_ite State.pending, apply_ite State.mem, apply_ite State.tck, apply_ite TckSt.now, State.jtagIr_frame, State.tick1_frame])

theorem execExtest_frame (s : State) {r : State} (e : execExtest s = .next r) : r.pending = s.pending ∧ r.tck.now = s.tck.now ∧ r.mem = s.mem := by
  unfold execExtest at e
  revert e
  intro e
  refine ⟨?_, ?_, ?_⟩
  · revert e
    repeat' first
      | with_reducible assumption
      | with_reducible rfl
      | (with_reducible refine Eq.trans (State.jtagScan_frame ..).1 ?_)
      | (with_reducible refine ocP_next ?_)
      | with_reducible exact ocP_fault
      | dsimp only
      | split
  · revert e
    repeat' first
      | with_reducible assumption
      | with_reducible rfl
      | (with_reducible refine Eq.trans (State.jtagScan_frame ..).2.1 ?_)
      | (with_reducible refine ocN_next ?_)
      | with_reducible exact ocN_fault
      | dsimp only
      | split
  · revert e
    repeat' first
      | with_reducible assumption
      | with_reducible rfl
      | (with_reducible refine Eq.trans (State.jtagScan_frame ..).2.2 ?_)
      | (with_reducible refine ocM_next ?_)
      | with_reducible exact ocM_fault
      | dsimp only
      | split

theorem execIdcode_frame (s : State) {r : State} (e : execIdcode s = .next r) : r.pending = s.pending ∧ r.tck.now = s.tck.now ∧ r.mem = s.mem := by
  unfold execIdcode at e
  revert e
  intro e
  refine ⟨?_, ?_, ?_⟩
  · revert e
    repeat' first
      | with_reducible assumption
      | with_reducible rfl
      | (with_reducible refine Eq.trans (State.jtagIr_frame ..).1 ?_)
      | (with_reducible refine ocP_next ?_)
      | with_reducible exact ocP_fault
      | dsimp only
      | split
  · revert e
    repeat' first
      | with_reducible assumption
      | with_reducible rfl
      | (with_reducible refine Eq.trans (State.jtagIr_frame ..).2.1 ?_)
      | (with_reducible refine ocN_next ?_)
      | with_reducible exact ocN_fault
      | dsimp only
      | split
  · revert e
    repeat' first
      | with_reducible assumption
      | with_reducible rfl
      | (with_reducible refine Eq.trans (State.jtagIr_frame ..).2.2 ?_)
      | (with_reducible refine ocM_next ?_)
      | with_reducible exact ocM_fault
      | dsimp only
      | split

theorem execSamplePreload_frame (s : State) {r : State} (e : execSamplePreload s = .next r) : r.pending = s.pending ∧ r.tck.now = s.tck.now ∧ r.mem = s.mem := by
  unfold execSamplePreload at e
  revert e
  intro e
  refine ⟨?_, ?_, ?_⟩
  · revert e
    repeat' first
      | with_reducible assumption
      | with_reducible rfl
      | (with_reducible refine Eq.trans (State.jtagScan_frame ..).1 ?_)
      | (with_reducible refine ocP_next ?_)
      | with_reducible exact ocP_fault
      | dsimp only
      | split
  · revert e
    repeat' first
      | with_reducible assumption
      | with_reducible rfl
      | (with_reducible refine Eq.trans (State.jtagScan_frame ..).2.1 ?_)
      | (with_reducible refine ocN_next ?_)
      | with_reducible exact ocN_fault
      | dsimp only
      | split
  · revert e
    repeat' first
      | with_reducible assumption
      | with_reducible rfl
      | (with_reducible refine Eq.trans (State.jtagScan_frame ..).2.2 ?_)
      | (with_reducible refine ocM_next ?_)
      | with_reducible exact ocM_fault
      | dsimp only
      | split

theorem execClamp_frame (s : State) {r : State} (e : execClamp s = .next r) : r.pending = s.pending ∧ r.tck.now = s.tck.now ∧ r.mem = s.mem := by
  unfold execClamp at e
  revert e
  intro e
  refine ⟨?_, ?_, ?_⟩
  · revert e
    repeat' first
      | with_reducible assumption
      | with_reducible rfl
      | (with_reducible refine Eq.trans (State.jtagIr_frame ..).1 ?_)
      | (with_reducible refine ocP_next ?_)
      | with_reducible exact ocP_fault
      | dsimp only
      | split
  · revert e
    repeat' first
      | with_reducible assumption
      | with_reducible rfl
      | (with_reducible refine Eq.trans (State.jtagIr_frame ..).2.1 ?_)
      | (with_reducible refine ocN_next ?_)
      | with_reducible exact ocN_fault
      | dsimp only
      | split
  · revert e
    repeat' first
      | with_reducible assumption
      | with_reducible rfl
      | (with_reducible refine Eq.trans (State.jtagIr_frame ..).2.2 ?_)
      | (with_reducible refine ocM_next ?_)
      | with_reducible exact ocM_fault
      | dsimp only
      | split

theorem execHighz_frame (s : State) {r : State} (e : execHighz s = .next r) : r.pending = s.pending ∧ r.tck.now = s.tck.now ∧ r.mem = s.mem := by
  unfold execHighz at e
  revert e
  intro e
  refine ⟨?_, ?_, ?_⟩
  · revert e
    repeat' first
      | with_reducible assumption
      | with_reducible rfl
      | (with_reducible refine Eq.trans (State.jtagIr_frame ..).1 ?_)
      | (with_reducible refine ocP_next ?_)
      | with_reducible exact ocP_fault
      | dsimp only
      | split
  · revert e
    repeat' first
      | with_reducible assumption
      | with_reducible rfl
      | (with_reducible refine Eq.trans (State.jtagIr_frame ..).2.1 ?_)
      | (with_reducible refine ocN_next ?_)
      | with_reducible exact ocN_fault
      | dsimp only
      | split
  · revert e
    repeat' first
      | with_reducible assumption
      | with_reducible rfl
      | (with_reducible refine Eq.trans (State.jtagIr_frame ..).2.2 ?_)
      | (with_reducible refine ocM_next ?_)
      | with_reducible exact ocM_fault
      | dsimp only
      | split

theorem execExtestPulse_frame (s : State) {r : State} (e : execExtestPulse s = .next r) : r.pending = s.pending ∧ r.tck.now = s.tck.now ∧ r.mem = s.mem := by
  unfold execExtestPulse at e
  revert e
  intro e
  refine ⟨?_, ?_, ?_⟩
  · revert e
    repeat' first
      | with_reducible assumption
      | with_reducible rfl
      | (with_reducible refine Eq.trans (State.jtagScan_frame ..).1 ?_)
      | (with_reducible refine ocP_next ?_)
      | with_reducible exact ocP_fault
      | dsimp only
      | split
  · revert e
    repeat' first
      | with_reducible assumption
      | with_reducible rfl
      | (with_reducible refine Eq.trans (State.jtagScan_frame ..).2.1 ?_)
      | (with_reducible refine ocN_next ?_)
      | with_reducible exact ocN_fault
      | dsimp only
      | split
  · revert e
    repeat' first
      | with_reducible assumption
      | with_reducible rfl
      | (with_reducible refine Eq.trans (State.jtagScan_frame ..).2.2 ?_)
      | (with_reducible refine ocM_next ?_)
      | with_reducible exact ocM_fault
      | dsimp only
      | split

theorem execExtestTrain_frame (s : State) {r : State} (e : execExtestTrain s = .next r) : r.pending = s.pending ∧ r.tck.now = s.tck.now ∧ r.mem = s.mem := by
  unfold execExtestTrain at e
  revert e
  intro e
  refine ⟨?_, ?_, ?_⟩
  · revert e
    repeat' first
      | with_reducible assumption
      | with_reducible rfl
      | (with_reducible refine Eq.trans (State.jtagScan_frame ..).1 ?_)
      | (with_reducible refine ocP_next ?_)
      | with_reducible exact ocP_fault
      | dsimp only
      | split
  · revert e
    repeat' first
      | with_reducible assumption
      | with_reducible rfl
      | (with_reducible refine Eq.trans (State.jtagScan_frame ..).2.1 ?_)
      | (with_reducible refine ocN_next ?_)
      | with_reducible exact ocN_fault
      | dsimp only
      | split
  · revert e
    repeat' first
      | with_reducible assumption
      | with_reducible rfl
      | (with_reducible refine Eq.trans (State.jtagScan_frame ..).2.2 ?_)
      | (with_reducible refine ocM_next ?_)
      | with_reducible exact ocM_fault
      | dsimp only
      | split

theorem execBypass_frame (s : State) {r : State} (e : execBypass s = .next r) : r.pending = s.pending ∧ r.tck.now = s.tck.now ∧ r.mem = s.mem := by
  unfold execBypass at e
  revert e
  intro e
  refine ⟨?_, ?_, ?_⟩
  · revert e
    repeat' first
      | with_reducible assumption
      | with_reducible rfl
      | (with_reducible refine Eq.trans (State.jtagIr_frame ..).1 ?_)
      | (with_reducible refine ocP_next ?_)
      | with_reducible exact ocP_fault
      | dsimp only
      | split
  · revert e
    repeat' first
      | with_reducible assumption
      | with_reducible rfl
      | (with_reducible refine Eq.trans (State.jtagIr_frame ..).2.1 ?_)
      | (with_reducible refine ocN_next ?_)
      | with_reducible exact ocN_fault
      | dsimp only
      | split
  · revert e
    repeat' first
      | with_reducible assumption
      | with_reducible rfl
      | (with_reducible refine Eq.trans (State.jtagIr_frame ..).2.2 ?_)
      | (with_reducible refine ocM_next ?_)
      | with_reducible exact ocM_fault
      | dsimp only
      | split

theorem execMemacc_frame (write go : Bool) (addr data : Word) (s : State) {r : State} (e : execMemacc write go addr data s = .next r) : r.pending = s.pending ∧ (Memory.wf s.mem = true → Memory.wf r.mem = true) := by
  unfold execMemacc at e
  revert e
  intro e
  refine ⟨?_, fun h => ?_⟩
  · revert e
    repeat' first
      | with_reducible assumption
      | with_reducible rfl
      | (with_reducible refine alP_ite ?_ ?_)
      | (with_reducible refine Eq.trans (State.jtagIr_frame ..).1 ?_)
      | (with_reducible refine Eq.trans (State.busWrite_frame ..).1 ?_)
      | (with_reducible refine Eq.trans (State.captured_frame ..).1 ?_)
      | (with_reducible refine Eq.trans (State.busRead_frame ..).1 ?_)
      | (with_reducible refine ocP_next ?_)
      | with_reducible exact ocP_fault
      | (with_reducible refine ocP_ite ?_ ?_)
      | dsimp only
      | split
  · revert e
    repeat' first
      | with_reducible assumption
      | with_reducible rfl
      | (with_reducible refine alW_ite ?_ ?_)
      | (with_reducible refine wf_eq (State.jtagIr_frame ..).2.2 ?_)
      | (with_reducible refine (State.busWrite_frame ..).2 ?_)
      | (with_reducible refine wf_eq (State.captured_frame ..).2.2 ?_)
      | (with_reducible refine wf_eq (State.busRead_frame ..).2.2 ?_)
      | (with_reducible refine ocW_next ?_)
      | with_reducible exact ocW_fault
      | (with_reducible refine ocW_ite ?_ ?_)
      | dsimp only
      | split

theorem execJtagTrst_frame (s : State) {r : State} (e : execJtagTrst s = .next r) : r.pending = s.pending ∧ r.tck.now = s.tck.now ∧ r.mem = s.mem := by
  unfold execJtagTrst at e
  revert e
  intro e
  refine ⟨?_, ?_, ?_⟩
  · revert e
    repeat' first
      | with_reducible assumption
      | with_reducible rfl
      | (with_reducible refine Eq.trans (State.jtagIr_frame ..).1 ?_)
      | (with_reducible refine Eq.trans (State.resetMaster_frame ..).1 ?_)
      | (with_reducible refine ocP_next ?_)
      | with_reducible exact ocP_fault
      | dsimp only
      | split
  · revert e
    repeat' first
      | with_reducible assumption
      | with_reducible rfl
      | (with_reducible refine Eq.trans (State.jtagIr_frame ..).2.1 ?_)
      | (with_reducible refine Eq.trans (State.resetMaster_frame ..).2.1 ?_)
      | (with_reducible refine ocN_next ?_)
      | with_reducible exact ocN_fault
      | dsimp only
      | split
  · revert e
    repeat' first
      | with_reducible assumption
      | with_reducible rfl
      | (with_reducible refine Eq.trans (State.jtagIr_frame ..).2.2 ?_)
      | (with_reducible refine Eq.trans (State.resetMaster_frame ..).2.2 ?_)
      | (with_reducible refine ocM_next ?_)
      | with_reducible exact ocM_fault
      | dsimp only
      | split

theorem execMgmtResetDone_frame (s : State) {r : State} (e : execMgmtResetDone s = .next r) : r.pending = s.pending ∧ (Memory.wf s.mem = true → Memory.wf r.mem = true) := by
  unfold execMgmtResetDone at e
  revert e
  intro e
  refine ⟨?_, fun h => ?_⟩
  · revert e
    repeat' first
      | with_reducible assumption
      | with_reducible rfl
      | (with_reducible refine Eq.trans (State.mgmtEnds_frame ..).1 ?_)
      | (with_reducible refine Eq.trans (State.replay_frame ..).1 ?_)
      | (with_reducible refine Eq.trans (State.resumeMgt_frame ..).1 ?_)
      | (with_reducible refine ocP_next ?_)
      | with_reducible exact ocP_fault
      | dsimp only
      | split
  · revert e
    repeat' first
      | with_reducible assumption
      | with_reducible rfl
      | (with_reducible refine wf_eq (State.mgmtEnds_frame ..).2.2 ?_)
      | (with_reducible refine (State.replay_frame ..).2 ?_)
      | (with_reducible refine (State.resumeMgt_frame ..).2 ?_)
      | (with_reducible refine ocW_next ?_)
      | with_reducible exact ocW_fault
      | dsimp only
      | split

theorem execSoftResetDone_frame (page : BitVec 14) (s : State) {r : State} (e : execSoftResetDone page s = .next r) : r.pending = s.pending ∧ (Memory.wf s.mem = true → Memory.wf r.mem = true) := by
  unfold execSoftResetDone at e
  revert e
  intro e
  refine ⟨?_, fun h => ?_⟩
  · revert e
    repeat' first
      | with_reducible assumption
      | with_reducible rfl
      | (with_reducible refine alP_ite ?_ ?_)
      | (with_reducible refine Eq.trans (State.replay_frame ..).1 ?_)
      | (with_reducible refine Eq.trans (State.resumeMgt_frame ..).1 ?_)
      | (with_reducible refine ocP_next ?_)
      | with_reducible exact ocP_fault
      | (with_reducible refine ocP_ite ?_ ?_)
      | dsimp only
      | split
  · revert e
    repeat' first
      | with_reducible assumption
      | with_reducible rfl
      | (with_reducible refine alW_ite ?_ ?_)
      | (with_reducible refine (State.replay_frame ..).2 ?_)
      | (with_reducible refine (State.resumeMgt_frame ..).2 ?_)
      | (with_reducible refine ocW_next ?_)
      | with_reducible exact ocW_fault
      | (with_reducible refine ocW_ite ?_ ?_)
      | dsimp only
      | split

theorem execPllRelock_frame (us : Nat) (cycle : Nat) (s : State) {r : State} (e : execPllRelock us cycle s = .next r) : r.pending = s.pending ∧ (Memory.wf s.mem = true → Memory.wf r.mem = true) := by
  unfold execPllRelock at e
  revert e
  intro e
  refine ⟨?_, fun h => ?_⟩
  · revert e
    repeat' first
      | with_reducible assumption
      | with_reducible rfl
      | (with_reducible refine alP_ite ?_ ?_)
      | (with_reducible refine Eq.trans (State.atCycle_frame ..).1 ?_)
      | (with_reducible refine Eq.trans (State.pllBack_frame ..).1 ?_)
      | (with_reducible refine Eq.trans (State.replay_frame ..).1 ?_)
      | (with_reducible refine Eq.trans (State.resumeMgt_frame ..).1 ?_)
      | (with_reducible refine ocP_next ?_)
      | with_reducible exact ocP_fault
      | (with_reducible refine ocP_ite ?_ ?_)
      | dsimp only
      | split
  · revert e
    repeat' first
      | with_reducible assumption
      | with_reducible rfl
      | (with_reducible refine alW_ite ?_ ?_)
      | (with_reducible refine wf_eq (State.atCycle_frame ..).2.2 ?_)
      | (with_reducible refine wf_eq (State.pllBack_frame ..).2.2 ?_)
      | (with_reducible refine (State.replay_frame ..).2 ?_)
      | (with_reducible refine (State.resumeMgt_frame ..).2 ?_)
      | (with_reducible refine ocW_next ?_)
      | with_reducible exact ocW_fault
      | (with_reducible refine ocW_ite ?_ ?_)
      | dsimp only
      | split

end Sys2Proof.Machine
end

