-- ==== Sys2Proof/Laws/FrameMirror.lean ====
section
/-! SUPPORT. What every operation of Machine/Mirror.lean leaves alone: the queue of waiting commands, the tick counter (unless it
writes it), and memory or its canonical form. -/

namespace Sys2Proof.Machine

set_option linter.all false
set_option Elab.async false
set_option maxRecDepth 4000

theorem State.showDigest_frame (s : State) (w : Nat) (d : DigestSt)  : (State.showDigest s w d).pending = s.pending ∧ (State.showDigest s w d).tck.now = s.tck.now ∧ (State.showDigest s w d).mem = s.mem := by
  unfold State.showDigest
  repeat' first
    | (simp only [implies_true, and_self, and_true, true_and, apply_ite State.pending, apply_ite State.mem, apply_ite State.tck, apply_ite TckSt.now, State.setRegN_frame, State.setReg64_frame]; done)
    | (simp (maxDischargeDepth := 8) only [foldl_PMN, implies_true, and_self, and_true, true_and, apply_ite State.pending, apply_ite State.mem, apply_ite State.tck, apply_ite TckSt.now, State.setRegN_frame, State.setReg64_frame]; done)
    | (with_reducible refine foldl_PMN _ _ _ (fun s a => ?_))
    | split
    | (simp only [implies_true, and_self, and_true, true_and, apply_ite State.pending, apply_ite State.mem, apply_ite State.tck, apply_ite TckSt.now, State.setRegN_frame, State.setReg64_frame])

theorem State.syncJudge_frame (s : State) (ok : Bool) (k : Tick)  : (State.syncJudge s ok k).pending = s.pending ∧ (State.syncJudge s ok k).tck.now = s.tck.now ∧ (Memory.wf s.mem = true → Memory.wf (State.syncJudge s ok k).mem = true) := by
  unfold State.syncJudge
  refine (and_assoc.1 ⟨?_, fun h => ?_⟩)
  · repeat' first
      | (simp only [implies_true, and_self, and_true, true_and, apply_ite State.pending, apply_ite State.tck, apply_ite TckSt.now, State.sendCtrl_frame, State.setReg64_frame, State.trapEnd_frame, State.setEpoch_frame, State.setRole_frame]; done)
      | (simp (maxDischargeDepth := 8) only [foldl_PN, implies_true, and_self, and_true, true_and, apply_ite State.pending, apply_ite State.tck, apply_ite TckSt.now, State.sendCtrl_frame, State.setReg64_frame, State.trapEnd_frame, State.setEpoch_frame, State.setRole_frame]; done)
      | (with_reducible refine foldl_PN _ _ _ (fun s a => ?_))
      | split
      | (simp only [implies_true, and_self, and_true, true_and, apply_ite State.pending, apply_ite State.tck, apply_ite TckSt.now, State.sendCtrl_frame, State.setReg64_frame, State.trapEnd_frame, State.setEpoch_frame, State.setRole_frame])
  · repeat' first
      | with_reducible assumption
      | (with_reducible refine wf_ite ?_ ?_)
      | (with_reducible refine wf_eq (State.sendCtrl_frame ..).2.2 ?_)
      | (with_reducible refine wf_eq (State.setReg64_frame ..).2.2 ?_)
      | (with_reducible refine wf_eq (State.trapEnd_frame ..).2.2 ?_)
      | (with_reducible refine wf_eq (State.setEpoch_frame ..).2.2 ?_)
      | (with_reducible refine (State.setRole_frame ..).2.2 ?_)
      | (with_reducible refine foldl_wf _ _ _ (fun s a h => ?_) ?_)
      | dsimp only
      | split

theorem State.compareDigests_frame (s : State)  : (State.compareDigests s).pending = s.pending ∧ (State.compareDigests s).tck.now = s.tck.now ∧ (Memory.wf s.mem = true → Memory.wf (State.compareDigests s).mem = true) := by
  unfold State.compareDigests
  refine (and_assoc.1 ⟨?_, fun h => ?_⟩)
  · repeat' first
      | (simp only [implies_true, and_self, and_true, true_and, apply_ite State.pending, apply_ite State.tck, apply_ite TckSt.now, State.showDigest_frame, State.syncJudge_frame, State.diverge_frame]; done)
      | (simp (maxDischargeDepth := 8) only [foldl_PN, implies_true, and_self, and_true, true_and, apply_ite State.pending, apply_ite State.tck, apply_ite TckSt.now, State.showDigest_frame, State.syncJudge_frame, State.diverge_frame]; done)
      | (with_reducible refine foldl_PN _ _ _ (fun s a => ?_))
      | split
      | (simp only [implies_true, and_self, and_true, true_and, apply_ite State.pending, apply_ite State.tck, apply_ite TckSt.now, State.showDigest_frame, State.syncJudge_frame, State.diverge_frame])
  · repeat' first
      | with_reducible assumption
      | (with_reducible refine wf_ite ?_ ?_)
      | (with_reducible refine wf_eq (State.showDigest_frame ..).2.2 ?_)
      | (with_reducible refine (State.syncJudge_frame ..).2.2 ?_)
      | (with_reducible refine wf_eq (State.diverge_frame ..).2.2 ?_)
      | (with_reducible refine foldl_wf _ _ _ (fun s a h => ?_) ?_)
      | dsimp only
      | split

theorem State.closeDigest_frame (s : State) (n : Tick) (overrun : Bool)  : (State.closeDigest s n overrun).pending = s.pending ∧ (State.closeDigest s n overrun).tck.now = s.tck.now ∧ (Memory.wf s.mem = true → Memory.wf (State.closeDigest s n overrun).mem = true) := by
  unfold State.closeDigest
  refine (and_assoc.1 ⟨?_, fun h => ?_⟩)
  · repeat' first
      | (simp only [implies_true, and_self, and_true, true_and, apply_ite State.pending, apply_ite State.tck, apply_ite TckSt.now, State.showDigest_frame, State.sendMirror_frame, State.compareDigests_frame]; done)
      | (simp (maxDischargeDepth := 8) only [foldl_PN, implies_true, and_self, and_true, true_and, apply_ite State.pending, apply_ite State.tck, apply_ite TckSt.now, State.showDigest_frame, State.sendMirror_frame, State.compareDigests_frame]; done)
      | (with_reducible refine foldl_PN _ _ _ (fun s a => ?_))
      | split
      | (simp only [implies_true, and_self, and_true, true_and, apply_ite State.pending, apply_ite State.tck, apply_ite TckSt.now, State.showDigest_frame, State.sendMirror_frame, State.compareDigests_frame])
  · repeat' first
      | with_reducible assumption
      | (with_reducible refine wf_ite ?_ ?_)
      | (with_reducible refine wf_eq (State.showDigest_frame ..).2.2 ?_)
      | (with_reducible refine wf_eq (State.sendMirror_frame ..).2.2 ?_)
      | (with_reducible refine (State.compareDigests_frame ..).2.2 ?_)
      | (with_reducible refine foldl_wf _ _ _ (fun s a h => ?_) ?_)
      | dsimp only
      | split

theorem State.digestMissing_frame (s : State)  : (State.digestMissing s).pending = s.pending ∧ (State.digestMissing s).tck.now = s.tck.now ∧ (Memory.wf s.mem = true → Memory.wf (State.digestMissing s).mem = true) := by
  unfold State.digestMissing
  refine (and_assoc.1 ⟨?_, fun h => ?_⟩)
  · repeat' first
      | (simp only [implies_true, and_self, and_true, true_and, apply_ite State.pending, apply_ite State.tck, apply_ite TckSt.now, State.syncJudge_frame, State.count_frame, State.setBit_frame, State.raiseIf_frame]; done)
      | (simp (maxDischargeDepth := 8) only [foldl_PN, implies_true, and_self, and_true, true_and, apply_ite State.pending, apply_ite State.tck, apply_ite TckSt.now, State.syncJudge_frame, State.count_frame, State.setBit_frame, State.raiseIf_frame]; done)
      | (with_reducible refine foldl_PN _ _ _ (fun s a => ?_))
      | split
      | (simp only [implies_true, and_self, and_true, true_and, apply_ite State.pending, apply_ite State.tck, apply_ite TckSt.now, State.syncJudge_frame, State.count_frame, State.setBit_frame, State.raiseIf_frame])
  · repeat' first
      | with_reducible assumption
      | (with_reducible refine wf_ite ?_ ?_)
      | (with_reducible refine (State.syncJudge_frame ..).2.2 ?_)
      | (with_reducible refine wf_eq (State.count_frame ..).2.2 ?_)
      | (with_reducible refine wf_eq (State.setBit_frame ..).2.2 ?_)
      | (with_reducible refine wf_eq (State.raiseIf_frame ..).2.2 ?_)
      | (with_reducible refine foldl_wf _ _ _ (fun s a h => ?_) ?_)
      | dsimp only
      | split

theorem State.sendSnap_frame (s : State) (t : Tick) (m : Sparse Nat)  : (State.sendSnap s t m).pending = s.pending ∧ (State.sendSnap s t m).tck.now = s.tck.now ∧ (State.sendSnap s t m).mem = s.mem := by
  unfold State.sendSnap
  repeat' first
    | (simp only [implies_true, and_self, and_true, true_and, apply_ite State.pending, apply_ite State.mem, apply_ite State.tck, apply_ite TckSt.now, State.sendMirror_frame]; done)
    | (simp (maxDischargeDepth := 8) only [foldl_PMN, implies_true, and_self, and_true, true_and, apply_ite State.pending, apply_ite State.mem, apply_ite State.tck, apply_ite TckSt.now, State.sendMirror_frame]; done)
    | (with_reducible refine foldl_PMN _ _ _ (fun s a => ?_))
    | split
    | (simp only [implies_true, and_self, and_true, true_and, apply_ite State.pending, apply_ite State.mem, apply_ite State.tck, apply_ite TckSt.now, State.sendMirror_frame])

theorem State.flushJournal_frame (s : State)  : (State.flushJournal s).pending = s.pending ∧ (State.flushJournal s).tck.now = s.tck.now ∧ (State.flushJournal s).mem = s.mem := by
  unfold State.flushJournal
  repeat' first
    | (simp only [implies_true, and_self, and_true, true_and, apply_ite State.pending, apply_ite State.mem, apply_ite State.tck, apply_ite TckSt.now, State.sendMirror_frame]; done)
    | (simp (maxDischargeDepth := 8) only [foldl_PMN, implies_true, and_self, and_true, true_and, apply_ite State.pending, apply_ite State.mem, apply_ite State.tck, apply_ite TckSt.now, State.sendMirror_frame]; done)
    | (with_reducible refine foldl_PMN _ _ _ (fun s a => ?_))
    | split
    | (simp only [implies_true, and_self, and_true, true_and, apply_ite State.pending, apply_ite State.mem, apply_ite State.tck, apply_ite TckSt.now, State.sendMirror_frame])

theorem State.serveCatch_frame (s : State)  : (State.serveCatch s).pending = s.pending ∧ (State.serveCatch s).tck.now = s.tck.now ∧ (State.serveCatch s).mem = s.mem := by
  unfold State.serveCatch
  repeat' first
    | (simp only [implies_true, and_self, and_true, true_and, apply_ite State.pending, apply_ite State.mem, apply_ite State.tck, apply_ite TckSt.now, State.sendCtrl_frame]; done)
    | (simp (maxDischargeDepth := 8) only [foldl_PMN, implies_true, and_self, and_true, true_and, apply_ite State.pending, apply_ite State.mem, apply_ite State.tck, apply_ite TckSt.now, State.sendCtrl_frame]; done)
    | (with_reducible refine foldl_PMN _ _ _ (fun s a => ?_))
    | split
    | (simp only [implies_true, and_self, and_true, true_and, apply_ite State.pending, apply_ite State.mem, apply_ite State.tck, apply_ite TckSt.now, State.sendCtrl_frame])

theorem State.serveBoundary_frame (s : State)  : (State.serveBoundary s).pending = s.pending ∧ (State.serveBoundary s).tck.now = s.tck.now ∧ (State.serveBoundary s).mem = s.mem := by
  unfold State.serveBoundary
  repeat' first
    | (simp only [implies_true, and_self, and_true, true_and, apply_ite State.pending, apply_ite State.mem, apply_ite State.tck, apply_ite TckSt.now, State.sendSnap_frame]; done)
    | (simp (maxDischargeDepth := 8) only [foldl_PMN, implies_true, and_self, and_true, true_and, apply_ite State.pending, apply_ite State.mem, apply_ite State.tck, apply_ite TckSt.now, State.sendSnap_frame]; done)
    | (with_reducible refine foldl_PMN _ _ _ (fun s a => ?_))
    | split
    | (simp only [implies_true, and_self, and_true, true_and, apply_ite State.pending, apply_ite State.mem, apply_ite State.tck, apply_ite TckSt.now, State.sendSnap_frame])

theorem State.serveClose_frame (s : State) (n : Tick)  : (State.serveClose s n).pending = s.pending ∧ (State.serveClose s n).tck.now = s.tck.now ∧ (State.serveClose s n).mem = s.mem := by
  unfold State.serveClose
  repeat' first
    | (simp only [implies_true, and_self, and_true, true_and, apply_ite State.pending, apply_ite State.mem, apply_ite State.tck, apply_ite TckSt.now, State.sendSnap_frame]; done)
    | (simp (maxDischargeDepth := 8) only [foldl_PMN, implies_true, and_self, and_true, true_and, apply_ite State.pending, apply_ite State.mem, apply_ite State.tck, apply_ite TckSt.now, State.sendSnap_frame]; done)
    | (with_reducible refine foldl_PMN _ _ _ (fun s a => ?_))
    | split
    | (simp only [implies_true, and_self, and_true, true_and, apply_ite State.pending, apply_ite State.mem, apply_ite State.tck, apply_ite TckSt.now, State.sendSnap_frame])

end Sys2Proof.Machine
end

