-- ==== Sys2Proof/Laws/FrameTick.lean ====
section
/-! SUPPORT. What every operation of Machine/Tick.lean leaves alone: the queue of waiting commands, the tick counter (unless it
writes it), and memory or its canonical form. -/

namespace Sys2Proof.Machine

set_option linter.all false
set_option Elab.async false
set_option maxRecDepth 4000

theorem State.cutoffPhase_frame (s : State)  : (State.cutoffPhase s).pending = s.pending ∧ (State.cutoffPhase s).tck.now = s.tck.now ∧ (State.cutoffPhase s).mem = s.mem := by
  unfold State.cutoffPhase
  repeat' first
    | (simp only [implies_true, and_self, and_true, true_and, apply_ite State.pending, apply_ite State.mem, apply_ite State.tck, apply_ite TckSt.now, State.closeTrig_frame, State.sendTrig_frame, State.flushJournal_frame]; done)
    | (simp (maxDischargeDepth := 8) only [foldl_PMN, implies_true, and_self, and_true, true_and, apply_ite State.pending, apply_ite State.mem, apply_ite State.tck, apply_ite TckSt.now, State.closeTrig_frame, State.sendTrig_frame, State.flushJournal_frame]; done)
    | (with_reducible refine foldl_PMN _ _ _ (fun s a => ?_))
    | split
    | (simp only [implies_true, and_self, and_true, true_and, apply_ite State.pending, apply_ite State.mem, apply_ite State.tck, apply_ite TckSt.now, State.closeTrig_frame, State.sendTrig_frame, State.flushJournal_frame])

theorem State.finishFrame_frame (s : State) (t : Tick) (n : Nat)  : (State.finishFrame s t n).pending = s.pending ∧ (State.finishFrame s t n).tck.now = s.tck.now ∧ (State.finishFrame s t n).mem = s.mem := by
  unfold State.finishFrame
  repeat' first
    | (simp only [implies_true, and_self, and_true, true_and, apply_ite State.pending, apply_ite State.mem, apply_ite State.tck, apply_ite TckSt.now, State.sendFrame_frame]; done)
    | (simp (maxDischargeDepth := 8) only [foldl_PMN, implies_true, and_self, and_true, true_and, apply_ite State.pending, apply_ite State.mem, apply_ite State.tck, apply_ite TckSt.now, State.sendFrame_frame]; done)
    | (with_reducible refine foldl_PMN _ _ _ (fun s a => ?_))
    | split
    | (simp only [implies_true, and_self, and_true, true_and, apply_ite State.pending, apply_ite State.mem, apply_ite State.tck, apply_ite TckSt.now, State.sendFrame_frame])

theorem State.closeWindow_frame (s : State) (n : Tick) (faults : List Nat) (corr : List (Nat × Nat))  : (State.closeWindow s n faults corr).pending = s.pending ∧ (State.closeWindow s n faults corr).tck.now = s.tck.now ∧ (Memory.wf s.mem = true → Memory.wf (State.closeWindow s n faults corr).mem = true) := by
  unfold State.closeWindow
  refine (and_assoc.1 ⟨?_, fun h => ?_⟩)
  · repeat' first
      | (simp only [implies_true, and_self, and_true, true_and, apply_ite State.pending, apply_ite State.tck, apply_ite TckSt.now, State.closeEngine_frame, State.noteOverrun_frame, State.finishFrame_frame, State.closeDigest_frame, State.serveClose_frame, State.flushJournal_frame]; done)
      | (simp (maxDischargeDepth := 8) only [foldl_PN, implies_true, and_self, and_true, true_and, apply_ite State.pending, apply_ite State.tck, apply_ite TckSt.now, State.closeEngine_frame, State.noteOverrun_frame, State.finishFrame_frame, State.closeDigest_frame, State.serveClose_frame, State.flushJournal_frame]; done)
      | (with_reducible refine foldl_PN _ _ _ (fun s a => ?_))
      | split
      | (simp only [implies_true, and_self, and_true, true_and, apply_ite State.pending, apply_ite State.tck, apply_ite TckSt.now, State.closeEngine_frame, State.noteOverrun_frame, State.finishFrame_frame, State.closeDigest_frame, State.serveClose_frame, State.flushJournal_frame])
  · repeat' first
      | with_reducible assumption
      | (with_reducible refine wf_ite ?_ ?_)
      | (with_reducible refine wf_eq (State.closeEngine_frame ..).2.2 ?_)
      | (with_reducible refine wf_eq (State.noteOverrun_frame ..).2.2 ?_)
      | (with_reducible refine wf_eq (State.finishFrame_frame ..).2.2 ?_)
      | (with_reducible refine (State.closeDigest_frame ..).2.2 ?_)
      | (with_reducible refine wf_eq (State.serveClose_frame ..).2.2 ?_)
      | (with_reducible refine wf_eq (State.flushJournal_frame ..).2.2 ?_)
      | (with_reducible refine foldl_wf _ _ _ (fun s a h => ?_) ?_)
      | dsimp only
      | split

theorem State.closePhase_frame (s : State) (faults : List Nat) (corr : List (Nat × Nat))  : (State.closePhase s faults corr).pending = s.pending ∧ (State.closePhase s faults corr).tck.now = s.tck.now ∧ (Memory.wf s.mem = true → Memory.wf (State.closePhase s faults corr).mem = true) := by
  unfold State.closePhase
  refine (and_assoc.1 ⟨?_, fun h => ?_⟩)
  · repeat' first
      | (simp only [implies_true, and_self, and_true, true_and, apply_ite State.pending, apply_ite State.tck, apply_ite TckSt.now, State.closeWindow_frame]; done)
      | (simp (maxDischargeDepth := 8) only [foldl_PN, implies_true, and_self, and_true, true_and, apply_ite State.pending, apply_ite State.tck, apply_ite TckSt.now, State.closeWindow_frame]; done)
      | (with_reducible refine foldl_PN _ _ _ (fun s a => ?_))
      | split
      | (simp only [implies_true, and_self, and_true, true_and, apply_ite State.pending, apply_ite State.tck, apply_ite TckSt.now, State.closeWindow_frame])
  · repeat' first
      | with_reducible assumption
      | (with_reducible refine wf_ite ?_ ?_)
      | (with_reducible refine (State.closeWindow_frame ..).2.2 ?_)
      | (with_reducible refine foldl_wf _ _ _ (fun s a h => ?_) ?_)
      | dsimp only
      | split

theorem State.settleEngines_frame (s : State)  : (State.settleEngines s).pending = s.pending ∧ (State.settleEngines s).tck.now = s.tck.now ∧ (State.settleEngines s).mem = s.mem := by
  unfold State.settleEngines
  repeat' first
    | (simp only [implies_true, and_self, and_true, true_and, apply_ite State.pending, apply_ite State.mem, apply_ite State.tck, apply_ite TckSt.now, State.engineRetire_frame]; done)
    | (simp (maxDischargeDepth := 8) only [foldl_PMN, implies_true, and_self, and_true, true_and, apply_ite State.pending, apply_ite State.mem, apply_ite State.tck, apply_ite TckSt.now, State.engineRetire_frame]; done)
    | (with_reducible refine foldl_PMN _ _ _ (fun s a => ?_))
    | split
    | (simp only [implies_true, and_self, and_true, true_and, apply_ite State.pending, apply_ite State.mem, apply_ite State.tck, apply_ite TckSt.now, State.engineRetire_frame])

theorem State.takeLoopLevel_frame (s : State)  : (State.takeLoopLevel s).pending = s.pending ∧ (State.takeLoopLevel s).tck.now = s.tck.now ∧ (State.takeLoopLevel s).mem = s.mem := by
  unfold State.takeLoopLevel
  repeat' first
    | (simp only [implies_true, and_self, and_true, true_and, apply_ite State.pending, apply_ite State.mem, apply_ite State.tck, apply_ite TckSt.now, State.setFld_frame]; done)
    | (simp (maxDischargeDepth := 8) only [foldl_PMN, implies_true, and_self, and_true, true_and, apply_ite State.pending, apply_ite State.mem, apply_ite State.tck, apply_ite TckSt.now, State.setFld_frame]; done)
    | (with_reducible refine foldl_PMN _ _ _ (fun s a => ?_))
    | split
    | (simp only [implies_true, and_self, and_true, true_and, apply_ite State.pending, apply_ite State.mem, apply_ite State.tck, apply_ite TckSt.now, State.setFld_frame])

theorem State.openPhase_frame (s : State) (lanes : List LaneFacts) (mir : Nat)  : (State.openPhase s lanes mir).pending = s.pending ∧ (State.openPhase s lanes mir).tck.now = s.tck.now ∧ (Memory.wf s.mem = true → Memory.wf (State.openPhase s lanes mir).mem = true) := by
  unfold State.openPhase
  refine (and_assoc.1 ⟨?_, fun h => ?_⟩)
  · repeat' first
      | (simp only [implies_true, and_self, and_true, true_and, apply_ite State.pending, apply_ite State.tck, apply_ite TckSt.now, State.closePhase_frame, State.settleEngines_frame, State.cutoffPhase_frame, State.noteLanes_frame, State.frameLost_frame, State.laneJudge_frame, State.mirJudge_frame, State.readEfes_frame, State.takeTrig_frame, State.checkLag_frame, State.lolFrames_frame, State.judgeLoops_frame, State.sampleAll_frame, State.calSamples_frame, State.settleHolds_frame, State.readTargets_frame, State.pushSamples_frame, State.takeLoopLevel_frame, State.stopWatch_frame, State.tckWatch_frame]; done)
      | (simp (maxDischargeDepth := 8) only [foldl_PN, implies_true, and_self, and_true, true_and, apply_ite State.pending, apply_ite State.tck, apply_ite TckSt.now, State.closePhase_frame, State.settleEngines_frame, State.cutoffPhase_frame, State.noteLanes_frame, State.frameLost_frame, State.laneJudge_frame, State.mirJudge_frame, State.readEfes_frame, State.takeTrig_frame, State.checkLag_frame, State.lolFrames_frame, State.judgeLoops_frame, State.sampleAll_frame, State.calSamples_frame, State.settleHolds_frame, State.readTargets_frame, State.pushSamples_frame, State.takeLoopLevel_frame, State.stopWatch_frame, State.tckWatch_frame]; done)
      | (with_reducible refine foldl_PN _ _ _ (fun s a => ?_))
      | split
      | (simp only [implies_true, and_self, and_true, true_and, apply_ite State.pending, apply_ite State.tck, apply_ite TckSt.now, State.closePhase_frame, State.settleEngines_frame, State.cutoffPhase_frame, State.noteLanes_frame, State.frameLost_frame, State.laneJudge_frame, State.mirJudge_frame, State.readEfes_frame, State.takeTrig_frame, State.checkLag_frame, State.lolFrames_frame, State.judgeLoops_frame, State.sampleAll_frame, State.calSamples_frame, State.settleHolds_frame, State.readTargets_frame, State.pushSamples_frame, State.takeLoopLevel_frame, State.stopWatch_frame, State.tckWatch_frame])
  · repeat' first
      | with_reducible assumption
      | (with_reducible refine wf_ite ?_ ?_)
      | (with_reducible refine (State.closePhase_frame ..).2.2 ?_)
      | (with_reducible refine wf_eq (State.settleEngines_frame ..).2.2 ?_)
      | (with_reducible refine wf_eq (State.cutoffPhase_frame ..).2.2 ?_)
      | (with_reducible refine wf_eq (State.noteLanes_frame ..).2.2 ?_)
      | (with_reducible refine wf_eq (State.frameLost_frame ..).2.2 ?_)
      | (with_reducible refine wf_eq (State.laneJudge_frame ..).2.2 ?_)
      | (with_reducible refine wf_eq (State.mirJudge_frame ..).2.2 ?_)
      | (with_reducible refine (State.readEfes_frame ..).2.2 ?_)
      | (with_reducible refine wf_eq (State.takeTrig_frame ..).2.2 ?_)
      | (with_reducible refine wf_eq (State.checkLag_frame ..).2.2 ?_)
      | (with_reducible refine wf_eq (State.lolFrames_frame ..).2.2 ?_)
      | (with_reducible refine wf_eq (State.judgeLoops_frame ..).2.2 ?_)
      | (with_reducible refine wf_eq (State.sampleAll_frame ..).2.2 ?_)
      | (with_reducible refine wf_eq (State.calSamples_frame ..).2.2 ?_)
      | (with_reducible refine wf_eq (State.settleHolds_frame ..).2.2 ?_)
      | (with_reducible refine wf_eq (State.readTargets_frame ..).2.2 ?_)
      | (with_reducible refine wf_eq (State.pushSamples_frame ..).2.2 ?_)
      | (with_reducible refine wf_eq (State.takeLoopLevel_frame ..).2.2 ?_)
      | (with_reducible refine wf_eq (State.stopWatch_frame ..).2.2 ?_)
      | (with_reducible refine wf_eq (State.tckWatch_frame ..).2.2 ?_)
      | (with_reducible refine foldl_wf _ _ _ (fun s a h => ?_) ?_)
      | dsimp only
      | split

theorem State.losPhase_frame (s : State)  : (State.losPhase s).pending = s.pending ∧ (State.losPhase s).tck.now = s.tck.now ∧ (State.losPhase s).mem = s.mem := by
  unfold State.losPhase
  repeat' first
    | (simp only [implies_true, and_self, and_true, true_and, apply_ite State.pending, apply_ite State.mem, apply_ite State.tck, apply_ite TckSt.now, State.losEval_frame, State.almReports_frame, State.runCases_frame]; done)
    | (simp (maxDischargeDepth := 8) only [foldl_PMN, implies_true, and_self, and_true, true_and, apply_ite State.pending, apply_ite State.mem, apply_ite State.tck, apply_ite TckSt.now, State.losEval_frame, State.almReports_frame, State.runCases_frame]; done)
    | (with_reducible refine foldl_PMN _ _ _ (fun s a => ?_))
    | split
    | (simp only [implies_true, and_self, and_true, true_and, apply_ite State.pending, apply_ite State.mem, apply_ite State.tck, apply_ite TckSt.now, State.losEval_frame, State.almReports_frame, State.runCases_frame])

theorem State.settleLanes_frame (s : State)  : (State.settleLanes s).pending = s.pending ∧ (State.settleLanes s).tck.now = s.tck.now ∧ (State.settleLanes s).mem = s.mem := by
  unfold State.settleLanes
  repeat' first
    | (simp only [implies_true, and_self, and_true, true_and, apply_ite State.pending, apply_ite State.mem, apply_ite State.tck, apply_ite TckSt.now, State.laneRetire_frame]; done)
    | (simp (maxDischargeDepth := 8) only [foldl_PMN, implies_true, and_self, and_true, true_and, apply_ite State.pending, apply_ite State.mem, apply_ite State.tck, apply_ite TckSt.now, State.laneRetire_frame]; done)
    | (with_reducible refine foldl_PMN _ _ _ (fun s a => ?_))
    | split
    | (simp only [implies_true, and_self, and_true, true_and, apply_ite State.pending, apply_ite State.mem, apply_ite State.tck, apply_ite TckSt.now, State.laneRetire_frame])

theorem State.sendHeader_frame (s : State) (n : Nat)  : (State.sendHeader s n).pending = s.pending ∧ (State.sendHeader s n).tck.now = s.tck.now ∧ (State.sendHeader s n).mem = s.mem := by
  unfold State.sendHeader
  repeat' first
    | (simp only [implies_true, and_self, and_true, true_and, apply_ite State.pending, apply_ite State.mem, apply_ite State.tck, apply_ite TckSt.now, State.sendFrame_frame]; done)
    | (simp (maxDischargeDepth := 8) only [foldl_PMN, implies_true, and_self, and_true, true_and, apply_ite State.pending, apply_ite State.mem, apply_ite State.tck, apply_ite TckSt.now, State.sendFrame_frame]; done)
    | (with_reducible refine foldl_PMN _ _ _ (fun s a => ?_))
    | split
    | (simp only [implies_true, and_self, and_true, true_and, apply_ite State.pending, apply_ite State.mem, apply_ite State.tck, apply_ite TckSt.now, State.sendFrame_frame])

theorem State.sendHeaders_frame (s : State)  : (State.sendHeaders s).pending = s.pending ∧ (State.sendHeaders s).tck.now = s.tck.now ∧ (State.sendHeaders s).mem = s.mem := by
  unfold State.sendHeaders
  repeat' first
    | (simp only [implies_true, and_self, and_true, true_and, apply_ite State.pending, apply_ite State.mem, apply_ite State.tck, apply_ite TckSt.now, State.sendHeader_frame]; done)
    | (simp (maxDischargeDepth := 8) only [foldl_PMN, implies_true, and_self, and_true, true_and, apply_ite State.pending, apply_ite State.mem, apply_ite State.tck, apply_ite TckSt.now, State.sendHeader_frame]; done)
    | (with_reducible refine foldl_PMN _ _ _ (fun s a => ?_))
    | split
    | (simp only [implies_true, and_self, and_true, true_and, apply_ite State.pending, apply_ite State.mem, apply_ite State.tck, apply_ite TckSt.now, State.sendHeader_frame])

theorem State.keepPast_frame (s : State)  : (State.keepPast s).pending = s.pending ∧ (State.keepPast s).tck.now = s.tck.now ∧ (State.keepPast s).mem = s.mem := by
  unfold State.keepPast
  repeat' first
    | (simp only [implies_true, and_self, and_true, true_and, apply_ite State.pending, apply_ite State.mem, apply_ite State.tck, apply_ite TckSt.now]; done)
    | (simp (maxDischargeDepth := 8) only [foldl_PMN, implies_true, and_self, and_true, true_and, apply_ite State.pending, apply_ite State.mem, apply_ite State.tck, apply_ite TckSt.now]; done)
    | (with_reducible refine foldl_PMN _ _ _ (fun s a => ?_))
    | split
    | (simp only [implies_true, and_self, and_true, true_and, apply_ite State.pending, apply_ite State.mem, apply_ite State.tck, apply_ite TckSt.now])

theorem State.settleStaging_frame (s : State)  : (State.settleStaging s).pending = s.pending ∧ (State.settleStaging s).tck.now = s.tck.now ∧ (State.settleStaging s).mem = s.mem := by
  unfold State.settleStaging
  repeat' first
    | (simp only [implies_true, and_self, and_true, true_and, apply_ite State.pending, apply_ite State.mem, apply_ite State.tck, apply_ite TckSt.now, State.stagingDone_frame]; done)
    | (simp (maxDischargeDepth := 8) only [foldl_PMN, implies_true, and_self, and_true, true_and, apply_ite State.pending, apply_ite State.mem, apply_ite State.tck, apply_ite TckSt.now, State.stagingDone_frame]; done)
    | (with_reducible refine foldl_PMN _ _ _ (fun s a => ?_))
    | split
    | (simp only [implies_true, and_self, and_true, true_and, apply_ite State.pending, apply_ite State.mem, apply_ite State.tck, apply_ite TckSt.now, State.stagingDone_frame])

theorem State.composePhase_frame (s : State) (stalls : List (Nat × Nat))  : (State.composePhase s stalls).pending = s.pending ∧ (State.composePhase s stalls).tck.now = s.tck.now ∧ (State.composePhase s stalls).mem = s.mem := by
  unfold State.composePhase
  repeat' first
    | (simp only [implies_true, and_self, and_true, true_and, apply_ite State.pending, apply_ite State.mem, apply_ite State.tck, apply_ite TckSt.now, State.losPhase_frame, State.settleStaging_frame, State.settleLoopRetires_frame, State.settleLanes_frame, State.composeFabric_frame, State.calCompose_frame, State.countStates_frame, State.sendHeaders_frame, State.markComposed_frame, State.runUpdates_frame, State.fixDrives_frame, State.keepPast_frame]; done)
    | (simp (maxDischargeDepth := 8) only [foldl_PMN, implies_true, and_self, and_true, true_and, apply_ite State.pending, apply_ite State.mem, apply_ite State.tck, apply_ite TckSt.now, State.losPhase_frame, State.settleStaging_frame, State.settleLoopRetires_frame, State.settleLanes_frame, State.composeFabric_frame, State.calCompose_frame, State.countStates_frame, State.sendHeaders_frame, State.markComposed_frame, State.runUpdates_frame, State.fixDrives_frame, State.keepPast_frame]; done)
    | (with_reducible refine foldl_PMN _ _ _ (fun s a => ?_))
    | split
    | (simp only [implies_true, and_self, and_true, true_and, apply_ite State.pending, apply_ite State.mem, apply_ite State.tck, apply_ite TckSt.now, State.losPhase_frame, State.settleStaging_frame, State.settleLoopRetires_frame, State.settleLanes_frame, State.composeFabric_frame, State.calCompose_frame, State.countStates_frame, State.sendHeaders_frame, State.markComposed_frame, State.runUpdates_frame, State.fixDrives_frame, State.keepPast_frame])

theorem State.finishTick_frame (s : State)  : (State.finishTick s).pending = s.pending ∧ (State.finishTick s).tck.now = s.tck.now ∧ (Memory.wf s.mem = true → Memory.wf (State.finishTick s).mem = true) := by
  unfold State.finishTick
  refine (and_assoc.1 ⟨?_, fun h => ?_⟩)
  · repeat' first
      | (simp only [implies_true, and_self, and_true, true_and, apply_ite State.pending, apply_ite State.tck, apply_ite TckSt.now, State.closePhase_frame, State.openPhase_frame, State.losPhase_frame, State.composePhase_frame, State.cutoffPhase_frame, State.settleEngines_frame, State.closeDigest_frame, State.wheelSlot_frame, State.slotChange_frame, State.settleLanes_frame, State.stuckDetect_frame, State.arrive_frame]; done)
      | (simp (maxDischargeDepth := 8) only [foldl_PN, implies_true, and_self, and_true, true_and, apply_ite State.pending, apply_ite State.tck, apply_ite TckSt.now, State.closePhase_frame, State.openPhase_frame, State.losPhase_frame, State.composePhase_frame, State.cutoffPhase_frame, State.settleEngines_frame, State.closeDigest_frame, State.wheelSlot_frame, State.slotChange_frame, State.settleLanes_frame, State.stuckDetect_frame, State.arrive_frame]; done)
      | (with_reducible refine foldl_PN _ _ _ (fun s a => ?_))
      | split
      | (simp only [implies_true, and_self, and_true, true_and, apply_ite State.pending, apply_ite State.tck, apply_ite TckSt.now, State.closePhase_frame, State.openPhase_frame, State.losPhase_frame, State.composePhase_frame, State.cutoffPhase_frame, State.settleEngines_frame, State.closeDigest_frame, State.wheelSlot_frame, State.slotChange_frame, State.settleLanes_frame, State.stuckDetect_frame, State.arrive_frame])
  · repeat' first
      | with_reducible assumption
      | (with_reducible refine wf_ite ?_ ?_)
      | (with_reducible refine (State.closePhase_frame ..).2.2 ?_)
      | (with_reducible refine (State.openPhase_frame ..).2.2 ?_)
      | (with_reducible refine wf_eq (State.losPhase_frame ..).2.2 ?_)
      | (with_reducible refine wf_eq (State.composePhase_frame ..).2.2 ?_)
      | (with_reducible refine wf_eq (State.cutoffPhase_frame ..).2.2 ?_)
      | (with_reducible refine wf_eq (State.settleEngines_frame ..).2.2 ?_)
      | (with_reducible refine (State.closeDigest_frame ..).2.2 ?_)
      | (with_reducible refine wf_eq (State.wheelSlot_frame ..).2.2 ?_)
      | (with_reducible refine wf_eq (State.slotChange_frame ..).2.2 ?_)
      | (with_reducible refine wf_eq (State.settleLanes_frame ..).2.2 ?_)
      | (with_reducible refine wf_eq (State.stuckDetect_frame ..).2.2 ?_)
      | (with_reducible refine wf_eq (State.arrive_frame ..).2.2 ?_)
      | (with_reducible refine foldl_wf _ _ _ (fun s a h => ?_) ?_)
      | dsimp only
      | split

theorem State.lateCommits_frame (s : State) (n : Tick)  : (State.lateCommits s n).pending = s.pending ∧ (State.lateCommits s n).tck.now = s.tck.now ∧ (State.lateCommits s n).mem = s.mem := by
  unfold State.lateCommits
  repeat' first
    | (simp only [implies_true, and_self, and_true, true_and, apply_ite State.pending, apply_ite State.mem, apply_ite State.tck, apply_ite TckSt.now]; done)
    | (simp (maxDischargeDepth := 8) only [foldl_PMN, implies_true, and_self, and_true, true_and, apply_ite State.pending, apply_ite State.mem, apply_ite State.tck, apply_ite TckSt.now]; done)
    | (with_reducible refine foldl_PMN _ _ _ (fun s a => ?_))
    | split
    | (simp only [implies_true, and_self, and_true, true_and, apply_ite State.pending, apply_ite State.mem, apply_ite State.tck, apply_ite TckSt.now])

theorem State.pageCommits_frame (s : State) (n : Tick)  : (State.pageCommits s n).pending = s.pending ∧ (State.pageCommits s n).tck.now = s.tck.now ∧ (Memory.wf s.mem = true → Memory.wf (State.pageCommits s n).mem = true) := by
  unfold State.pageCommits
  refine (and_assoc.1 ⟨?_, fun h => ?_⟩)
  · repeat' first
      | (simp only [implies_true, and_self, and_true, true_and, apply_ite State.pending, apply_ite State.tck, apply_ite TckSt.now, State.prfCommitAt_frame, State.lplCommitAt_frame, State.crsCommitAt_frame, State.prtCommitAt_frame, State.calCommitAt_frame, State.calNextAt_frame]; done)
      | (simp (maxDischargeDepth := 8) only [foldl_PN, implies_true, and_self, and_true, true_and, apply_ite State.pending, apply_ite State.tck, apply_ite TckSt.now, State.prfCommitAt_frame, State.lplCommitAt_frame, State.crsCommitAt_frame, State.prtCommitAt_frame, State.calCommitAt_frame, State.calNextAt_frame]; done)
      | (with_reducible refine foldl_PN _ _ _ (fun s a => ?_))
      | split
      | (simp only [implies_true, and_self, and_true, true_and, apply_ite State.pending, apply_ite State.tck, apply_ite TckSt.now, State.prfCommitAt_frame, State.lplCommitAt_frame, State.crsCommitAt_frame, State.prtCommitAt_frame, State.calCommitAt_frame, State.calNextAt_frame])
  · repeat' first
      | with_reducible assumption
      | (with_reducible refine wf_ite ?_ ?_)
      | (with_reducible refine (State.prfCommitAt_frame ..).2.2 ?_)
      | (with_reducible refine (State.lplCommitAt_frame ..).2.2 ?_)
      | (with_reducible refine wf_eq (State.crsCommitAt_frame ..).2.2 ?_)
      | (with_reducible refine wf_eq (State.prtCommitAt_frame ..).2.2 ?_)
      | (with_reducible refine wf_eq (State.calCommitAt_frame ..).2.2 ?_)
      | (with_reducible refine wf_eq (State.calNextAt_frame ..).2.2 ?_)
      | (with_reducible refine foldl_wf _ _ _ (fun s a h => ?_) ?_)
      | dsimp only
      | split

theorem State.noteFibres_frame (s : State) (old : Sparse Nat)  : (State.noteFibres s old).pending = s.pending ∧ (State.noteFibres s old).tck.now = s.tck.now ∧ (State.noteFibres s old).mem = s.mem := by
  unfold State.noteFibres
  repeat' first
    | (simp only [implies_true, and_self, and_true, true_and, apply_ite State.pending, apply_ite State.mem, apply_ite State.tck, apply_ite TckSt.now]; done)
    | (simp (maxDischargeDepth := 8) only [foldl_PMN, implies_true, and_self, and_true, true_and, apply_ite State.pending, apply_ite State.mem, apply_ite State.tck, apply_ite TckSt.now]; done)
    | (with_reducible refine foldl_PMN _ _ _ (fun s a => ?_))
    | split
    | (simp only [implies_true, and_self, and_true, true_and, apply_ite State.pending, apply_ite State.mem, apply_ite State.tck, apply_ite TckSt.now])

theorem State.atBoundary_frame (s : State)  : (State.atBoundary s).pending = s.pending ∧ (State.atBoundary s).tck.now = s.tck.now ∧ (Memory.wf s.mem = true → Memory.wf (State.atBoundary s).mem = true) := by
  unfold State.atBoundary
  refine (and_assoc.1 ⟨?_, fun h => ?_⟩)
  · repeat' first
      | (simp only [implies_true, and_self, and_true, true_and, apply_ite State.pending, apply_ite State.tck, apply_ite TckSt.now, State.markHeld_frame, State.fabricBoundary_frame, State.lateCommits_frame, State.tckWatch_frame, State.tckCommitAt_frame, State.takeoverAt_frame, State.pageCommits_frame, State.contextChange_frame, State.calDisturb_frame, State.calPause_frame, State.noteFibres_frame, State.afterPeriod_frame, State.prtEffects_frame, State.shaperBoundary_frame, State.bucketBoundary_frame, State.telTick_frame, State.portBoundary_frame, State.updateAlt_frame, State.updateShortDeg_frame, State.redBoundary_frame, State.serveBoundary_frame, State.setBit_frame, State.tckStatus_frame, State.stopAtBoundary_frame, State.beginTick_frame, State.toggleHb_frame, State.flushJournal_frame]; done)
      | (simp (maxDischargeDepth := 8) only [foldl_PN, implies_true, and_self, and_true, true_and, apply_ite State.pending, apply_ite State.tck, apply_ite TckSt.now, State.markHeld_frame, State.fabricBoundary_frame, State.lateCommits_frame, State.tckWatch_frame, State.tckCommitAt_frame, State.takeoverAt_frame, State.pageCommits_frame, State.contextChange_frame, State.calDisturb_frame, State.calPause_frame, State.noteFibres_frame, State.afterPeriod_frame, State.prtEffects_frame, State.shaperBoundary_frame, State.bucketBoundary_frame, State.telTick_frame, State.portBoundary_frame, State.updateAlt_frame, State.updateShortDeg_frame, State.redBoundary_frame, State.serveBoundary_frame, State.setBit_frame, State.tckStatus_frame, State.stopAtBoundary_frame, State.beginTick_frame, State.toggleHb_frame, State.flushJournal_frame]; done)
      | (with_reducible refine foldl_PN _ _ _ (fun s a => ?_))
      | split
      | (simp only [implies_true, and_self, and_true, true_and, apply_ite State.pending, apply_ite State.tck, apply_ite TckSt.now, State.markHeld_frame, State.fabricBoundary_frame, State.lateCommits_frame, State.tckWatch_frame, State.tckCommitAt_frame, State.takeoverAt_frame, State.pageCommits_frame, State.contextChange_frame, State.calDisturb_frame, State.calPause_frame, State.noteFibres_frame, State.afterPeriod_frame, State.prtEffects_frame, State.shaperBoundary_frame, State.bucketBoundary_frame, State.telTick_frame, State.portBoundary_frame, State.updateAlt_frame, State.updateShortDeg_frame, State.redBoundary_frame, State.serveBoundary_frame, State.setBit_frame, State.tckStatus_frame, State.stopAtBoundary_frame, State.beginTick_frame, State.toggleHb_frame, State.flushJournal_frame])
  · repeat' first
      | with_reducible assumption
      | (with_reducible refine wf_ite ?_ ?_)
      | (with_reducible refine wf_eq (State.markHeld_frame ..).2.2 ?_)
      | (with_reducible refine wf_eq (State.fabricBoundary_frame ..).2.2 ?_)
      | (with_reducible refine wf_eq (State.lateCommits_frame ..).2.2 ?_)
      | (with_reducible refine wf_eq (State.tckWatch_frame ..).2.2 ?_)
      | (with_reducible refine wf_eq (State.tckCommitAt_frame ..).2.2 ?_)
      | (with_reducible refine wf_eq (State.takeoverAt_frame ..).2.2 ?_)
      | (with_reducible refine (State.pageCommits_frame ..).2.2 ?_)
      | (with_reducible refine wf_eq (State.contextChange_frame ..).2.2 ?_)
      | (with_reducible refine wf_eq (State.calDisturb_frame ..).2.2 ?_)
      | (with_reducible refine wf_eq (State.calPause_frame ..).2.2 ?_)
      | (with_reducible refine wf_eq (State.noteFibres_frame ..).2.2 ?_)
      | (with_reducible refine wf_eq (State.afterPeriod_frame ..).2.2 ?_)
      | (with_reducible refine wf_eq (State.prtEffects_frame ..).2.2 ?_)
      | (with_reducible refine wf_eq (State.shaperBoundary_frame ..).2.2 ?_)
      | (with_reducible refine wf_eq (State.bucketBoundary_frame ..).2.2 ?_)
      | (with_reducible refine wf_eq (State.telTick_frame ..).2.2 ?_)
      | (with_reducible refine wf_eq (State.portBoundary_frame ..).2.2 ?_)
      | (with_reducible refine wf_eq (State.updateAlt_frame ..).2.2 ?_)
      | (with_reducible refine wf_eq (State.updateShortDeg_frame ..).2.2 ?_)
      | (with_reducible refine (State.redBoundary_frame ..).2.2 ?_)
      | (with_reducible refine wf_eq (State.serveBoundary_frame ..).2.2 ?_)
      | (with_reducible refine wf_eq (State.setBit_frame ..).2.2 ?_)
      | (with_reducible refine wf_eq (State.tckStatus_frame ..).2.2 ?_)
      | (with_reducible refine wf_eq (State.stopAtBoundary_frame ..).2.2 ?_)
      | (with_reducible refine wf_eq (State.beginTick_frame ..).2.2 ?_)
      | (with_reducible refine wf_eq (State.toggleHb_frame ..).2.2 ?_)
      | (with_reducible refine wf_eq (State.flushJournal_frame ..).2.2 ?_)
      | (with_reducible refine foldl_wf _ _ _ (fun s a h => ?_) ?_)
      | dsimp only
      | split

theorem State.boundary_frame (s : State)  : (State.boundary s).pending = s.pending ∧ (Memory.wf s.mem = true → Memory.wf (State.boundary s).mem = true) := by
  unfold State.boundary
  refine ⟨?_, fun h => ?_⟩
  · repeat' first
      | with_reducible assumption
      | with_reducible rfl
      | (with_reducible refine Eq.trans (State.finishTick_frame ..).1 ?_)
      | (with_reducible refine Eq.trans (State.nextBoundary?_frame (e := by assumption) ..).1 ?_)
      | (with_reducible refine Eq.trans (State.atBoundary_frame ..).1 ?_)
      | dsimp only
      | split
  · repeat' first
      | with_reducible assumption
      | with_reducible rfl
      | (with_reducible refine (State.finishTick_frame ..).2.2 ?_)
      | (with_reducible refine wf_eq (State.nextBoundary?_frame (e := by assumption) ..).2 ?_)
      | (with_reducible refine (State.atBoundary_frame ..).2.2 ?_)
      | dsimp only
      | split

theorem execTickBoundary_frame (s : State) {r : State} (e : execTickBoundary s = .next r) : r.pending = s.pending ∧ (Memory.wf s.mem = true → Memory.wf r.mem = true) := by
  unfold execTickBoundary at e
  revert e
  intro e
  refine ⟨?_, fun h => ?_⟩
  · revert e
    repeat' first
      | with_reducible assumption
      | with_reducible rfl
      | (with_reducible refine alP_ite ?_ ?_)
      | (with_reducible refine Eq.trans (State.boundary_frame ..).1 ?_)
      | (with_reducible refine ocP_next ?_)
      | with_reducible exact ocP_fault
      | (with_reducible refine ocP_ite ?_ ?_)
      | dsimp only
      | split
  · revert e
    repeat' first
      | with_reducible assumption
      | with_reducible rfl
      | (with_reducible refine alW_ite ?_ ?_)
      | (with_reducible refine (State.boundary_frame ..).2 ?_)
      | (with_reducible refine ocW_next ?_)
      | with_reducible exact ocW_fault
      | (with_reducible refine ocW_ite ?_ ?_)
      | dsimp only
      | split

theorem execTriggerCutoff_frame (s : State) {r : State} (e : execTriggerCutoff s = .next r) : r.pending = s.pending ∧ r.tck.now = s.tck.now ∧ r.mem = s.mem := by
  unfold execTriggerCutoff at e
  revert e
  intro e
  refine ⟨?_, ?_, ?_⟩
  · revert e
    repeat' first
      | with_reducible assumption
      | with_reducible rfl
      | (with_reducible refine Eq.trans (State.cutoffPhase_frame ..).1 ?_)
      | (with_reducible refine ocP_next ?_)
      | with_reducible exact ocP_fault
      | dsimp only
      | split
  · revert e
    repeat' first
      | with_reducible assumption
      | with_reducible rfl
      | (with_reducible refine Eq.trans (State.cutoffPhase_frame ..).2.1 ?_)
      | (with_reducible refine ocN_next ?_)
      | with_reducible exact ocN_fault
      | dsimp only
      | split
  · revert e
    repeat' first
      | with_reducible assumption
      | with_reducible rfl
      | (with_reducible refine Eq.trans (State.cutoffPhase_frame ..).2.2 ?_)
      | (with_reducible refine ocM_next ?_)
      | with_reducible exact ocM_fault
      | dsimp only
      | split

theorem execComputeWindowOpen_frame (lanes : List LaneFacts) (mirror : Fin 16) (s : State) {r : State} (e : execComputeWindowOpen lanes mirror s = .next r) : r.pending = s.pending ∧ r.tck.now = s.tck.now ∧ (Memory.wf s.mem = true → Memory.wf r.mem = true) := by
  unfold execComputeWindowOpen at e
  revert e
  intro e
  refine ⟨?_, ?_, fun h => ?_⟩
  · revert e
    repeat' first
      | with_reducible assumption
      | with_reducible rfl
      | (with_reducible refine Eq.trans (State.openPhase_frame ..).1 ?_)
      | (with_reducible refine ocP_next ?_)
      | with_reducible exact ocP_fault
      | dsimp only
      | split
  · revert e
    repeat' first
      | with_reducible assumption
      | with_reducible rfl
      | (with_reducible refine Eq.trans (State.openPhase_frame ..).2.1 ?_)
      | (with_reducible refine ocN_next ?_)
      | with_reducible exact ocN_fault
      | dsimp only
      | split
  · revert e
    repeat' first
      | with_reducible assumption
      | with_reducible rfl
      | (with_reducible refine (State.openPhase_frame ..).2.2 ?_)
      | (with_reducible refine ocW_next ?_)
      | with_reducible exact ocW_fault
      | dsimp only
      | split

theorem execLosEvaluation_frame (s : State) {r : State} (e : execLosEvaluation s = .next r) : r.pending = s.pending ∧ r.tck.now = s.tck.now ∧ r.mem = s.mem := by
  unfold execLosEvaluation at e
  revert e
  intro e
  refine ⟨?_, ?_, ?_⟩
  · revert e
    repeat' first
      | with_reducible assumption
      | with_reducible rfl
      | (with_reducible refine Eq.trans (State.losPhase_frame ..).1 ?_)
      | (with_reducible refine ocP_next ?_)
      | with_reducible exact ocP_fault
      | dsimp only
      | split
  · revert e
    repeat' first
      | with_reducible assumption
      | with_reducible rfl
      | (with_reducible refine Eq.trans (State.losPhase_frame ..).2.1 ?_)
      | (with_reducible refine ocN_next ?_)
      | with_reducible exact ocN_fault
      | dsimp only
      | split
  · revert e
    repeat' first
      | with_reducible assumption
      | with_reducible rfl
      | (with_reducible refine Eq.trans (State.losPhase_frame ..).2.2 ?_)
      | (with_reducible refine ocM_next ?_)
      | with_reducible exact ocM_fault
      | dsimp only
      | split

theorem execComposeState_frame (stalls : List (Fin 32 × Nat)) (s : State) {r : State} (e : execComposeState stalls s = .next r) : r.pending = s.pending ∧ r.tck.now = s.tck.now ∧ r.mem = s.mem := by
  unfold execComposeState at e
  revert e
  intro e
  refine ⟨?_, ?_, ?_⟩
  · revert e
    repeat' first
      | with_reducible assumption
      | with_reducible rfl
      | (with_reducible refine Eq.trans (State.composePhase_frame ..).1 ?_)
      | (with_reducible refine ocP_next ?_)
      | with_reducible exact ocP_fault
      | dsimp only
      | split
  · revert e
    repeat' first
      | with_reducible assumption
      | with_reducible rfl
      | (with_reducible refine Eq.trans (State.composePhase_frame ..).2.1 ?_)
      | (with_reducible refine ocN_next ?_)
      | with_reducible exact ocN_fault
      | dsimp only
      | split
  · revert e
    repeat' first
      | with_reducible assumption
      | with_reducible rfl
      | (with_reducible refine Eq.trans (State.composePhase_frame ..).2.2 ?_)
      | (with_reducible refine ocM_next ?_)
      | with_reducible exact ocM_fault
      | dsimp only
      | split

theorem execWindowClose_frame (faults : List (Fin 32)) (corr : List (Fin 32 × Nat)) (s : State) {r : State} (e : execWindowClose faults corr s = .next r) : r.pending = s.pending ∧ r.tck.now = s.tck.now ∧ (Memory.wf s.mem = true → Memory.wf r.mem = true) := by
  unfold execWindowClose at e
  revert e
  intro e
  refine ⟨?_, ?_, fun h => ?_⟩
  · revert e
    repeat' first
      | with_reducible assumption
      | with_reducible rfl
      | (with_reducible refine Eq.trans (State.closePhase_frame ..).1 ?_)
      | (with_reducible refine ocP_next ?_)
      | with_reducible exact ocP_fault
      | dsimp only
      | split
  · revert e
    repeat' first
      | with_reducible assumption
      | with_reducible rfl
      | (with_reducible refine Eq.trans (State.closePhase_frame ..).2.1 ?_)
      | (with_reducible refine ocN_next ?_)
      | with_reducible exact ocN_fault
      | dsimp only
      | split
  · revert e
    repeat' first
      | with_reducible assumption
      | with_reducible rfl
      | (with_reducible refine (State.closePhase_frame ..).2.2 ?_)
      | (with_reducible refine ocW_next ?_)
      | with_reducible exact ocW_fault
      | dsimp only
      | split

end Sys2Proof.Machine
end

