-- ==== Sys2Proof/Laws/FrameMirrorRx.lean ====
section
/-! SUPPORT. What every operation of Machine/MirrorRx.lean leaves alone: the queue of waiting commands, the tick counter (unless it
writes it), and memory or its canonical form. -/

namespace Sys2Proof.Machine

set_option linter.all false
set_option Elab.async false
set_option maxRecDepth 4000

theorem State.mirRx_frame (s : State) (ok : Bool) (l : List Byte) (kind : Nat) (eff : MirFrame → State → State) (heff : ∀ a0 t, (eff a0 t).pending = t.pending ∧ (eff a0 t).tck.now = t.tck.now ∧ (eff a0 t).mem = t.mem)  : (State.mirRx s ok l kind eff).pending = s.pending ∧ (State.mirRx s ok l kind eff).tck.now = s.tck.now ∧ (State.mirRx s ok l kind eff).mem = s.mem := by
  unfold State.mirRx
  repeat' first
    | (simp only [implies_true, and_self, and_true, true_and, apply_ite State.pending, apply_ite State.mem, apply_ite State.tck, apply_ite TckSt.now, heff]; done)
    | (simp (maxDischargeDepth := 8) only [foldl_PMN, implies_true, and_self, and_true, true_and, apply_ite State.pending, apply_ite State.mem, apply_ite State.tck, apply_ite TckSt.now, heff]; done)
    | (with_reducible refine foldl_PMN _ _ _ (fun s a => ?_))
    | split
    | (simp only [implies_true, and_self, and_true, true_and, apply_ite State.pending, apply_ite State.mem, apply_ite State.tck, apply_ite TckSt.now, heff])
theorem State.mirRx_frP (s : State) (ok : Bool) (l : List Byte) (kind : Nat) (eff : MirFrame → State → State) (heff : ∀ a0 t, (eff a0 t).pending = t.pending) : (State.mirRx s ok l kind eff).pending = s.pending := by
  unfold State.mirRx
  · repeat' first
      | with_reducible assumption
      | with_reducible rfl
      | (with_reducible refine alP_ite ?_ ?_)
      | (with_reducible refine Eq.trans (heff _  _) ?_)
      | dsimp only
      | split
theorem State.mirRx_frN (s : State) (ok : Bool) (l : List Byte) (kind : Nat) (eff : MirFrame → State → State) (heff : ∀ a0 t, (eff a0 t).tck.now = t.tck.now) : (State.mirRx s ok l kind eff).tck.now = s.tck.now := by
  unfold State.mirRx
  · repeat' first
      | with_reducible assumption
      | with_reducible rfl
      | (with_reducible refine alN_ite ?_ ?_)
      | (with_reducible refine Eq.trans (heff _  _) ?_)
      | dsimp only
      | split
theorem State.mirRx_frM (s : State) (ok : Bool) (l : List Byte) (kind : Nat) (eff : MirFrame → State → State) (heff : ∀ a0 t, (eff a0 t).mem = t.mem) : (State.mirRx s ok l kind eff).mem = s.mem := by
  unfold State.mirRx
  · repeat' first
      | with_reducible assumption
      | with_reducible rfl
      | (with_reducible refine alM_ite ?_ ?_)
      | (with_reducible refine Eq.trans (heff _  _) ?_)
      | dsimp only
      | split
theorem State.mirRx_frW (s : State) (ok : Bool) (l : List Byte) (kind : Nat) (eff : MirFrame → State → State) (heff : ∀ a0 t, Memory.wf t.mem = true → Memory.wf (eff a0 t).mem = true) (hw : Memory.wf s.mem = true) : Memory.wf (State.mirRx s ok l kind eff).mem = true := by
  unfold State.mirRx
  · repeat' first
      | with_reducible assumption
      | with_reducible rfl
      | (with_reducible refine alW_ite ?_ ?_)
      | (with_reducible refine heff _  _ ?_)
      | dsimp only
      | split

theorem State.ctrlRx_frame (s : State) (ok : Bool) (l : List Byte) (op : Nat) (eff : MirFrame → State → State) (heff : ∀ a0 t, (eff a0 t).pending = t.pending ∧ (eff a0 t).tck.now = t.tck.now ∧ (eff a0 t).mem = t.mem)  : (State.ctrlRx s ok l op eff).pending = s.pending ∧ (State.ctrlRx s ok l op eff).tck.now = s.tck.now ∧ (State.ctrlRx s ok l op eff).mem = s.mem := by
  unfold State.ctrlRx
  refine ⟨?_, ?_, ?_⟩
  · repeat' first
      | with_reducible assumption
      | with_reducible rfl
      | (with_reducible refine alP_ite ?_ ?_)
      | (with_reducible refine Eq.trans (State.mirRx_frP (heff := fun _ _ => ?_) ..) ?_)
      | (with_reducible refine Eq.trans (heff _  _).1 ?_)
      | dsimp only
      | split
  · repeat' first
      | with_reducible assumption
      | with_reducible rfl
      | (with_reducible refine alN_ite ?_ ?_)
      | (with_reducible refine Eq.trans (State.mirRx_frN (heff := fun _ _ => ?_) ..) ?_)
      | (with_reducible refine Eq.trans (heff _  _).2.1 ?_)
      | dsimp only
      | split
  · repeat' first
      | with_reducible assumption
      | with_reducible rfl
      | (with_reducible refine alM_ite ?_ ?_)
      | (with_reducible refine Eq.trans (State.mirRx_frM (heff := fun _ _ => ?_) ..) ?_)
      | (with_reducible refine Eq.trans (heff _  _).2.2 ?_)
      | dsimp only
      | split
theorem State.ctrlRx_frP (s : State) (ok : Bool) (l : List Byte) (op : Nat) (eff : MirFrame → State → State) (heff : ∀ a0 t, (eff a0 t).pending = t.pending) : (State.ctrlRx s ok l op eff).pending = s.pending := by
  unfold State.ctrlRx
  · repeat' first
      | with_reducible assumption
      | with_reducible rfl
      | (with_reducible refine alP_ite ?_ ?_)
      | (with_reducible refine Eq.trans (State.mirRx_frP (heff := fun _ _ => ?_) ..) ?_)
      | (with_reducible refine Eq.trans (heff _  _) ?_)
      | dsimp only
      | split
theorem State.ctrlRx_frN (s : State) (ok : Bool) (l : List Byte) (op : Nat) (eff : MirFrame → State → State) (heff : ∀ a0 t, (eff a0 t).tck.now = t.tck.now) : (State.ctrlRx s ok l op eff).tck.now = s.tck.now := by
  unfold State.ctrlRx
  · repeat' first
      | with_reducible assumption
      | with_reducible rfl
      | (with_reducible refine alN_ite ?_ ?_)
      | (with_reducible refine Eq.trans (State.mirRx_frN (heff := fun _ _ => ?_) ..) ?_)
      | (with_reducible refine Eq.trans (heff _  _) ?_)
      | dsimp only
      | split
theorem State.ctrlRx_frM (s : State) (ok : Bool) (l : List Byte) (op : Nat) (eff : MirFrame → State → State) (heff : ∀ a0 t, (eff a0 t).mem = t.mem) : (State.ctrlRx s ok l op eff).mem = s.mem := by
  unfold State.ctrlRx
  · repeat' first
      | with_reducible assumption
      | with_reducible rfl
      | (with_reducible refine alM_ite ?_ ?_)
      | (with_reducible refine Eq.trans (State.mirRx_frM (heff := fun _ _ => ?_) ..) ?_)
      | (with_reducible refine Eq.trans (heff _  _) ?_)
      | dsimp only
      | split
theorem State.ctrlRx_frW (s : State) (ok : Bool) (l : List Byte) (op : Nat) (eff : MirFrame → State → State) (heff : ∀ a0 t, Memory.wf t.mem = true → Memory.wf (eff a0 t).mem = true) (hw : Memory.wf s.mem = true) : Memory.wf (State.ctrlRx s ok l op eff).mem = true := by
  unfold State.ctrlRx
  · repeat' first
      | with_reducible assumption
      | with_reducible rfl
      | (with_reducible refine alW_ite ?_ ?_)
      | (with_reducible refine (State.mirRx_frW (heff := fun _ _ h => ?_) (hw := ?_) ..))
      | (with_reducible refine wf_eq (State.mirRx_frame ..).2.2 ?_)
      | (with_reducible refine heff _  _ ?_)
      | dsimp only
      | split

theorem State.noteEpoch_frame (s : State) (e : Nat)  : (State.noteEpoch s e).pending = s.pending ∧ (State.noteEpoch s e).tck.now = s.tck.now ∧ (State.noteEpoch s e).mem = s.mem := by
  unfold State.noteEpoch
  repeat' first
    | (simp only [implies_true, and_self, and_true, true_and, apply_ite State.pending, apply_ite State.mem, apply_ite State.tck, apply_ite TckSt.now, State.setFld_frame]; done)
    | (simp (maxDischargeDepth := 8) only [foldl_PMN, implies_true, and_self, and_true, true_and, apply_ite State.pending, apply_ite State.mem, apply_ite State.tck, apply_ite TckSt.now, State.setFld_frame]; done)
    | (with_reducible refine foldl_PMN _ _ _ (fun s a => ?_))
    | split
    | (simp only [implies_true, and_self, and_true, true_and, apply_ite State.pending, apply_ite State.mem, apply_ite State.tck, apply_ite TckSt.now, State.setFld_frame])

theorem State.partnerShows_frame (s : State) (r : Nat)  : (State.partnerShows s r).pending = s.pending ∧ (State.partnerShows s r).tck.now = s.tck.now ∧ (State.partnerShows s r).mem = s.mem := by
  unfold State.partnerShows
  repeat' first
    | (simp only [implies_true, and_self, and_true, true_and, apply_ite State.pending, apply_ite State.mem, apply_ite State.tck, apply_ite TckSt.now, State.trapEnd_frame, State.serveStop_frame]; done)
    | (simp (maxDischargeDepth := 8) only [foldl_PMN, implies_true, and_self, and_true, true_and, apply_ite State.pending, apply_ite State.mem, apply_ite State.tck, apply_ite TckSt.now, State.trapEnd_frame, State.serveStop_frame]; done)
    | (with_reducible refine foldl_PMN _ _ _ (fun s a => ?_))
    | split
    | (simp only [implies_true, and_self, and_true, true_and, apply_ite State.pending, apply_ite State.mem, apply_ite State.tck, apply_ite TckSt.now, State.trapEnd_frame, State.serveStop_frame])

theorem State.helloFrame_frame (s : State) (f : MirFrame)  : (State.helloFrame s f).pending = s.pending ∧ (State.helloFrame s f).tck.now = s.tck.now ∧ (Memory.wf s.mem = true → Memory.wf (State.helloFrame s f).mem = true) := by
  unfold State.helloFrame
  refine (and_assoc.1 ⟨?_, fun h => ?_⟩)
  · repeat' first
      | (simp only [implies_true, and_self, and_true, true_and, apply_ite State.pending, apply_ite State.tck, apply_ite TckSt.now, State.setFld_frame, State.setBit_frame, State.raise_frame, State.noteEpoch_frame, State.partnerShows_frame, State.setRole_frame, State.mirUpdate_frame]; done)
      | (simp (maxDischargeDepth := 8) only [foldl_PN, implies_true, and_self, and_true, true_and, apply_ite State.pending, apply_ite State.tck, apply_ite TckSt.now, State.setFld_frame, State.setBit_frame, State.raise_frame, State.noteEpoch_frame, State.partnerShows_frame, State.setRole_frame, State.mirUpdate_frame]; done)
      | (with_reducible refine foldl_PN _ _ _ (fun s a => ?_))
      | split
      | (simp only [implies_true, and_self, and_true, true_and, apply_ite State.pending, apply_ite State.tck, apply_ite TckSt.now, State.setFld_frame, State.setBit_frame, State.raise_frame, State.noteEpoch_frame, State.partnerShows_frame, State.setRole_frame, State.mirUpdate_frame])
  · repeat' first
      | with_reducible assumption
      | (with_reducible refine wf_ite ?_ ?_)
      | (with_reducible refine wf_eq (State.setFld_frame ..).2.2 ?_)
      | (with_reducible refine wf_eq (State.setBit_frame ..).2.2 ?_)
      | (with_reducible refine wf_eq (State.raise_frame ..).2.2 ?_)
      | (with_reducible refine wf_eq (State.noteEpoch_frame ..).2.2 ?_)
      | (with_reducible refine wf_eq (State.partnerShows_frame ..).2.2 ?_)
      | (with_reducible refine (State.setRole_frame ..).2.2 ?_)
      | (with_reducible refine wf_eq (State.mirUpdate_frame ..).2.2 ?_)
      | (with_reducible refine foldl_wf _ _ _ (fun s a h => ?_) ?_)
      | dsimp only
      | split

theorem State.trigFrame_frame (s : State) (f : MirFrame)  : (State.trigFrame s f).pending = s.pending ∧ (State.trigFrame s f).tck.now = s.tck.now ∧ (State.trigFrame s f).mem = s.mem := by
  unfold State.trigFrame
  repeat' first
    | (simp only [implies_true, and_self, and_true, true_and, apply_ite State.pending, apply_ite State.mem, apply_ite State.tck, apply_ite TckSt.now]; done)
    | (simp (maxDischargeDepth := 8) only [foldl_PMN, implies_true, and_self, and_true, true_and, apply_ite State.pending, apply_ite State.mem, apply_ite State.tck, apply_ite TckSt.now]; done)
    | (with_reducible refine foldl_PMN _ _ _ (fun s a => ?_))
    | split
    | (simp only [implies_true, and_self, and_true, true_and, apply_ite State.pending, apply_ite State.mem, apply_ite State.tck, apply_ite TckSt.now])

theorem State.epochFrom_frame (s : State) (f : MirFrame)  : (State.epochFrom s f).pending = s.pending ∧ (State.epochFrom s f).tck.now = s.tck.now ∧ (State.epochFrom s f).mem = s.mem := by
  unfold State.epochFrom
  repeat' first
    | (simp only [implies_true, and_self, and_true, true_and, apply_ite State.pending, apply_ite State.mem, apply_ite State.tck, apply_ite TckSt.now]; done)
    | (simp (maxDischargeDepth := 8) only [foldl_PMN, implies_true, and_self, and_true, true_and, apply_ite State.pending, apply_ite State.mem, apply_ite State.tck, apply_ite TckSt.now]; done)
    | (with_reducible refine foldl_PMN _ _ _ (fun s a => ?_))
    | split
    | (simp only [implies_true, and_self, and_true, true_and, apply_ite State.pending, apply_ite State.mem, apply_ite State.tck, apply_ite TckSt.now])

theorem State.digestFrame_frame (s : State) (f : MirFrame)  : (State.digestFrame s f).pending = s.pending ∧ (State.digestFrame s f).tck.now = s.tck.now ∧ (Memory.wf s.mem = true → Memory.wf (State.digestFrame s f).mem = true) := by
  unfold State.digestFrame
  refine (and_assoc.1 ⟨?_, fun h => ?_⟩)
  · repeat' first
      | (simp only [implies_true, and_self, and_true, true_and, apply_ite State.pending, apply_ite State.tck, apply_ite TckSt.now, State.noteEpoch_frame, State.partnerShows_frame, State.setBit_frame, State.epochFrom_frame, State.compareDigests_frame, State.diverge_frame]; done)
      | (simp (maxDischargeDepth := 8) only [foldl_PN, implies_true, and_self, and_true, true_and, apply_ite State.pending, apply_ite State.tck, apply_ite TckSt.now, State.noteEpoch_frame, State.partnerShows_frame, State.setBit_frame, State.epochFrom_frame, State.compareDigests_frame, State.diverge_frame]; done)
      | (with_reducible refine foldl_PN _ _ _ (fun s a => ?_))
      | split
      | (simp only [implies_true, and_self, and_true, true_and, apply_ite State.pending, apply_ite State.tck, apply_ite TckSt.now, State.noteEpoch_frame, State.partnerShows_frame, State.setBit_frame, State.epochFrom_frame, State.compareDigests_frame, State.diverge_frame])
  · repeat' first
      | with_reducible assumption
      | (with_reducible refine wf_ite ?_ ?_)
      | (with_reducible refine wf_eq (State.noteEpoch_frame ..).2.2 ?_)
      | (with_reducible refine wf_eq (State.partnerShows_frame ..).2.2 ?_)
      | (with_reducible refine wf_eq (State.setBit_frame ..).2.2 ?_)
      | (with_reducible refine wf_eq (State.epochFrom_frame ..).2.2 ?_)
      | (with_reducible refine (State.compareDigests_frame ..).2.2 ?_)
      | (with_reducible refine wf_eq (State.diverge_frame ..).2.2 ?_)
      | (with_reducible refine foldl_wf _ _ _ (fun s a h => ?_) ?_)
      | dsimp only
      | split

theorem State.reqFrame_frame (s : State) (f : MirFrame)  : (State.reqFrame s f).pending = s.pending ∧ (State.reqFrame s f).tck.now = s.tck.now ∧ (State.reqFrame s f).mem = s.mem := by
  unfold State.reqFrame
  repeat' first
    | (simp only [implies_true, and_self, and_true, true_and, apply_ite State.pending, apply_ite State.mem, apply_ite State.tck, apply_ite TckSt.now, State.applyForwarded_frame]; done)
    | (simp (maxDischargeDepth := 8) only [foldl_PMN, implies_true, and_self, and_true, true_and, apply_ite State.pending, apply_ite State.mem, apply_ite State.tck, apply_ite TckSt.now, State.applyForwarded_frame]; done)
    | (with_reducible refine foldl_PMN _ _ _ (fun s a => ?_))
    | split
    | (simp only [implies_true, and_self, and_true, true_and, apply_ite State.pending, apply_ite State.mem, apply_ite State.tck, apply_ite TckSt.now, State.applyForwarded_frame])

theorem State.pseudoPut_frame (s : State) (a w : Nat)  : (State.pseudoPut s a w).pending = s.pending ∧ (State.pseudoPut s a w).tck.now = s.tck.now ∧ (State.pseudoPut s a w).mem = s.mem := by
  unfold State.pseudoPut
  refine ⟨?_, ?_, ?_⟩
  · repeat' first
      | with_reducible assumption
      | with_reducible rfl
      | (with_reducible refine alP_ite ?_ ?_)
      | (with_reducible refine Eq.trans (State.setBit_frame ..).1 ?_)
      | (with_reducible refine Eq.trans (State.setRegN_frame ..).1 ?_)
      | (with_reducible refine Eq.trans (State.setShd_frame ..).1 ?_)
      | (with_reducible refine Eq.trans (State.prtUncheck_frame ..).1 ?_)
      | (with_reducible refine Eq.trans (State.setForce_frame ..).1 ?_)
      | (with_reducible refine Eq.trans (State.setFld_frame ..).1 ?_)
      | dsimp only
      | split
  · repeat' first
      | with_reducible assumption
      | with_reducible rfl
      | (with_reducible refine alN_ite ?_ ?_)
      | (with_reducible refine Eq.trans (State.setBit_frame ..).2.1 ?_)
      | (with_reducible refine Eq.trans (State.setRegN_frame ..).2.1 ?_)
      | (with_reducible refine Eq.trans (State.setShd_frame ..).2.1 ?_)
      | (with_reducible refine Eq.trans (State.prtUncheck_frame ..).2.1 ?_)
      | (with_reducible refine Eq.trans (State.setForce_frame ..).2.1 ?_)
      | (with_reducible refine Eq.trans (State.setFld_frame ..).2.1 ?_)
      | dsimp only
      | split
  · repeat' first
      | with_reducible assumption
      | with_reducible rfl
      | (with_reducible refine alM_ite ?_ ?_)
      | (with_reducible refine Eq.trans (State.setBit_frame ..).2.2 ?_)
      | (with_reducible refine Eq.trans (State.setRegN_frame ..).2.2 ?_)
      | (with_reducible refine Eq.trans (State.setShd_frame ..).2.2 ?_)
      | (with_reducible refine Eq.trans (State.prtUncheck_frame ..).2.2 ?_)
      | (with_reducible refine Eq.trans (State.setForce_frame ..).2.2 ?_)
      | (with_reducible refine Eq.trans (State.setFld_frame ..).2.2 ?_)
      | dsimp only
      | split

theorem State.journalReg3_frame (s : State) (a : Nat) (v : Word)  : (State.journalReg3 s a v).pending = s.pending ∧ (State.journalReg3 s a v).tck.now = s.tck.now ∧ (State.journalReg3 s a v).mem = s.mem := by
  unfold State.journalReg3
  repeat' first
    | (simp only [implies_true, and_self, and_true, true_and, apply_ite State.pending, apply_ite State.mem, apply_ite State.tck, apply_ite TckSt.now, State.cancelPage_frame, State.cancelAll_frame, State.setBit_frame, State.armSafety_frame, State.gateWrite_frame, State.retmapWrite_frame, State.evtClear_frame, State.storeReg_frame, State.clearChecked_frame]; done)
    | (simp (maxDischargeDepth := 8) only [foldl_PMN, implies_true, and_self, and_true, true_and, apply_ite State.pending, apply_ite State.mem, apply_ite State.tck, apply_ite TckSt.now, State.cancelPage_frame, State.cancelAll_frame, State.setBit_frame, State.armSafety_frame, State.gateWrite_frame, State.retmapWrite_frame, State.evtClear_frame, State.storeReg_frame, State.clearChecked_frame]; done)
    | (with_reducible refine foldl_PMN _ _ _ (fun s a => ?_))
    | split
    | (simp only [implies_true, and_self, and_true, true_and, apply_ite State.pending, apply_ite State.mem, apply_ite State.tck, apply_ite TckSt.now, State.cancelPage_frame, State.cancelAll_frame, State.setBit_frame, State.armSafety_frame, State.gateWrite_frame, State.retmapWrite_frame, State.evtClear_frame, State.storeReg_frame, State.clearChecked_frame])

theorem State.mirrorPut_frame (s : State) (a w : Nat)  : (State.mirrorPut s a w).pending = s.pending ∧ (State.mirrorPut s a w).tck.now = s.tck.now ∧ (Memory.wf s.mem = true → Memory.wf (State.mirrorPut s a w).mem = true) := by
  unfold State.mirrorPut
  refine (and_assoc.1 ⟨?_, fun h => ?_⟩)
  · repeat' first
      | (simp only [implies_true, and_self, and_true, true_and, apply_ite State.pending, apply_ite State.tck, apply_ite TckSt.now, State.putBytes_frame, State.clearChecked_frame, State.journalReg3_frame, State.pseudoPut_frame]; done)
      | (simp (maxDischargeDepth := 8) only [foldl_PN, implies_true, and_self, and_true, true_and, apply_ite State.pending, apply_ite State.tck, apply_ite TckSt.now, State.putBytes_frame, State.clearChecked_frame, State.journalReg3_frame, State.pseudoPut_frame]; done)
      | (with_reducible refine foldl_PN _ _ _ (fun s a => ?_))
      | split
      | (simp only [implies_true, and_self, and_true, true_and, apply_ite State.pending, apply_ite State.tck, apply_ite TckSt.now, State.putBytes_frame, State.clearChecked_frame, State.journalReg3_frame, State.pseudoPut_frame])
  · repeat' first
      | with_reducible assumption
      | (with_reducible refine wf_ite ?_ ?_)
      | (with_reducible refine (State.putBytes_frame ..).2.2 ?_)
      | (with_reducible refine wf_eq (State.clearChecked_frame ..).2.2 ?_)
      | (with_reducible refine wf_eq (State.journalReg3_frame ..).2.2 ?_)
      | (with_reducible refine wf_eq (State.pseudoPut_frame ..).2.2 ?_)
      | (with_reducible refine foldl_wf _ _ _ (fun s a h => ?_) ?_)
      | dsimp only
      | split

theorem State.journalCommit_frame (s : State) (page : Nat) (k : Tick)  : (State.journalCommit s page k).pending = s.pending ∧ (State.journalCommit s page k).tck.now = s.tck.now ∧ (Memory.wf s.mem = true → Memory.wf (State.journalCommit s page k).mem = true) := by
  unfold State.journalCommit
  refine (and_assoc.1 ⟨?_, fun h => ?_⟩)
  · repeat' first
      | (simp only [implies_true, and_self, and_true, true_and, apply_ite State.pending, apply_ite State.tck, apply_ite TckSt.now, State.pageAccept_frame, State.lateCommits_frame, State.pageCommits_frame]; done)
      | (simp (maxDischargeDepth := 8) only [foldl_PN, implies_true, and_self, and_true, true_and, apply_ite State.pending, apply_ite State.tck, apply_ite TckSt.now, State.pageAccept_frame, State.lateCommits_frame, State.pageCommits_frame]; done)
      | (with_reducible refine foldl_PN _ _ _ (fun s a => ?_))
      | split
      | (simp only [implies_true, and_self, and_true, true_and, apply_ite State.pending, apply_ite State.tck, apply_ite TckSt.now, State.pageAccept_frame, State.lateCommits_frame, State.pageCommits_frame])
  · repeat' first
      | with_reducible assumption
      | (with_reducible refine wf_ite ?_ ?_)
      | (with_reducible refine wf_eq (State.pageAccept_frame ..).2.2 ?_)
      | (with_reducible refine wf_eq (State.lateCommits_frame ..).2.2 ?_)
      | (with_reducible refine (State.pageCommits_frame ..).2.2 ?_)
      | (with_reducible refine foldl_wf _ _ _ (fun s a h => ?_) ?_)
      | dsimp only
      | split

theorem State.journalApply_frame (s : State) (e : JEntry)  : (State.journalApply s e).pending = s.pending ∧ (State.journalApply s e).tck.now = s.tck.now ∧ (Memory.wf s.mem = true → Memory.wf (State.journalApply s e).mem = true) := by
  unfold State.journalApply
  refine (and_assoc.1 ⟨?_, fun h => ?_⟩)
  · repeat' first
      | (simp only [implies_true, and_self, and_true, true_and, apply_ite State.pending, apply_ite State.tck, apply_ite TckSt.now, State.journalCommit_frame, State.mirrorPut_frame]; done)
      | (simp (maxDischargeDepth := 8) only [foldl_PN, implies_true, and_self, and_true, true_and, apply_ite State.pending, apply_ite State.tck, apply_ite TckSt.now, State.journalCommit_frame, State.mirrorPut_frame]; done)
      | (with_reducible refine foldl_PN _ _ _ (fun s a => ?_))
      | split
      | (simp only [implies_true, and_self, and_true, true_and, apply_ite State.pending, apply_ite State.tck, apply_ite TckSt.now, State.journalCommit_frame, State.mirrorPut_frame])
  · repeat' first
      | with_reducible assumption
      | (with_reducible refine wf_ite ?_ ?_)
      | (with_reducible refine (State.journalCommit_frame ..).2.2 ?_)
      | (with_reducible refine (State.mirrorPut_frame ..).2.2 ?_)
      | (with_reducible refine foldl_wf _ _ _ (fun s a h => ?_) ?_)
      | dsimp only
      | split

theorem State.journalFrame_frame (s : State) (f : MirFrame)  : (State.journalFrame s f).pending = s.pending ∧ (State.journalFrame s f).tck.now = s.tck.now ∧ (Memory.wf s.mem = true → Memory.wf (State.journalFrame s f).mem = true) := by
  unfold State.journalFrame
  refine (and_assoc.1 ⟨?_, fun h => ?_⟩)
  · repeat' first
      | (simp only [implies_true, and_self, and_true, true_and, apply_ite State.pending, apply_ite State.tck, apply_ite TckSt.now, State.trapEnd_frame, State.diverge_frame, State.journalApply_frame]; done)
      | (simp (maxDischargeDepth := 8) only [foldl_PN, implies_true, and_self, and_true, true_and, apply_ite State.pending, apply_ite State.tck, apply_ite TckSt.now, State.trapEnd_frame, State.diverge_frame, State.journalApply_frame]; done)
      | (with_reducible refine foldl_PN _ _ _ (fun s a => ?_))
      | split
      | (simp only [implies_true, and_self, and_true, true_and, apply_ite State.pending, apply_ite State.tck, apply_ite TckSt.now, State.trapEnd_frame, State.diverge_frame, State.journalApply_frame])
  · repeat' first
      | with_reducible assumption
      | (with_reducible refine wf_ite ?_ ?_)
      | (with_reducible refine wf_eq (State.trapEnd_frame ..).2.2 ?_)
      | (with_reducible refine wf_eq (State.diverge_frame ..).2.2 ?_)
      | (with_reducible refine (State.journalApply_frame ..).2.2 ?_)
      | (with_reducible refine foldl_wf _ _ _ (fun s a h => ?_) ?_)
      | dsimp only
      | split

theorem State.snapPut_frame (s : State) (t : Tick) (e : JEntry)  : (State.snapPut s t e).pending = s.pending ∧ (State.snapPut s t e).tck.now = s.tck.now ∧ (Memory.wf s.mem = true → Memory.wf (State.snapPut s t e).mem = true) := by
  unfold State.snapPut
  refine (and_assoc.1 ⟨?_, fun h => ?_⟩)
  · repeat' first
      | (simp only [implies_true, and_self, and_true, true_and, apply_ite State.pending, apply_ite State.tck, apply_ite TckSt.now, State.setFld_frame, State.mirrorPut_frame]; done)
      | (simp (maxDischargeDepth := 8) only [foldl_PN, implies_true, and_self, and_true, true_and, apply_ite State.pending, apply_ite State.tck, apply_ite TckSt.now, State.setFld_frame, State.mirrorPut_frame]; done)
      | (with_reducible refine foldl_PN _ _ _ (fun s a => ?_))
      | split
      | (simp only [implies_true, and_self, and_true, true_and, apply_ite State.pending, apply_ite State.tck, apply_ite TckSt.now, State.setFld_frame, State.mirrorPut_frame])
  · repeat' first
      | with_reducible assumption
      | (with_reducible refine wf_ite ?_ ?_)
      | (with_reducible refine wf_eq (State.setFld_frame ..).2.2 ?_)
      | (with_reducible refine (State.mirrorPut_frame ..).2.2 ?_)
      | (with_reducible refine foldl_wf _ _ _ (fun s a h => ?_) ?_)
      | dsimp only
      | split

theorem State.snapFrame_frame (s : State) (f : MirFrame)  : (State.snapFrame s f).pending = s.pending ∧ (State.snapFrame s f).tck.now = s.tck.now ∧ (Memory.wf s.mem = true → Memory.wf (State.snapFrame s f).mem = true) := by
  unfold State.snapFrame
  refine (and_assoc.1 ⟨?_, fun h => ?_⟩)
  · repeat' first
      | (simp only [implies_true, and_self, and_true, true_and, apply_ite State.pending, apply_ite State.tck, apply_ite TckSt.now, State.trapEnd_frame, State.setFld_frame, State.snapPut_frame]; done)
      | (simp (maxDischargeDepth := 8) only [foldl_PN, implies_true, and_self, and_true, true_and, apply_ite State.pending, apply_ite State.tck, apply_ite TckSt.now, State.trapEnd_frame, State.setFld_frame, State.snapPut_frame]; done)
      | (with_reducible refine foldl_PN _ _ _ (fun s a => ?_))
      | split
      | (simp only [implies_true, and_self, and_true, true_and, apply_ite State.pending, apply_ite State.tck, apply_ite TckSt.now, State.trapEnd_frame, State.setFld_frame, State.snapPut_frame])
  · repeat' first
      | with_reducible assumption
      | (with_reducible refine wf_ite ?_ ?_)
      | (with_reducible refine wf_eq (State.trapEnd_frame ..).2.2 ?_)
      | (with_reducible refine wf_eq (State.setFld_frame ..).2.2 ?_)
      | (with_reducible refine (State.snapPut_frame ..).2.2 ?_)
      | (with_reducible refine foldl_wf _ _ _ (fun s a h => ?_) ?_)
      | dsimp only
      | split

theorem State.clearMirrored_frame (s : State)  : (State.clearMirrored s).pending = s.pending ∧ (State.clearMirrored s).tck.now = s.tck.now ∧ (Memory.wf s.mem = true → Memory.wf (State.clearMirrored s).mem = true) := by
  unfold State.clearMirrored
  refine (and_assoc.1 ⟨?_, fun h => ?_⟩)
  · repeat' first
      | (simp only [implies_true, and_self, and_true, true_and, apply_ite State.pending, apply_ite State.tck, apply_ite TckSt.now, State.clearMem_frame, State.setRegN_frame, State.setBit_frame]; done)
      | (simp (maxDischargeDepth := 8) only [foldl_PN, implies_true, and_self, and_true, true_and, apply_ite State.pending, apply_ite State.tck, apply_ite TckSt.now, State.clearMem_frame, State.setRegN_frame, State.setBit_frame]; done)
      | (with_reducible refine foldl_PN _ _ _ (fun s a => ?_))
      | split
      | (simp only [implies_true, and_self, and_true, true_and, apply_ite State.pending, apply_ite State.tck, apply_ite TckSt.now, State.clearMem_frame, State.setRegN_frame, State.setBit_frame])
  · repeat' first
      | with_reducible assumption
      | (with_reducible refine wf_ite ?_ ?_)
      | (with_reducible refine (State.clearMem_frame ..).2.2 ?_)
      | (with_reducible refine wf_eq (State.setRegN_frame ..).2.2 ?_)
      | (with_reducible refine wf_eq (State.setBit_frame ..).2.2 ?_)
      | (with_reducible refine foldl_wf _ _ _ (fun s a h => ?_) ?_)
      | dsimp only
      | split

theorem State.catchAck_frame (s : State) (f : MirFrame)  : (State.catchAck s f).pending = s.pending ∧ (State.catchAck s f).tck.now = s.tck.now ∧ (Memory.wf s.mem = true → Memory.wf (State.catchAck s f).mem = true) := by
  unfold State.catchAck
  refine (and_assoc.1 ⟨?_, fun h => ?_⟩)
  · repeat' first
      | (simp only [implies_true, and_self, and_true, true_and, apply_ite State.pending, apply_ite State.tck, apply_ite TckSt.now, State.trapEnd_frame, State.clearMirrored_frame, State.setFld_frame]; done)
      | (simp (maxDischargeDepth := 8) only [foldl_PN, implies_true, and_self, and_true, true_and, apply_ite State.pending, apply_ite State.tck, apply_ite TckSt.now, State.trapEnd_frame, State.clearMirrored_frame, State.setFld_frame]; done)
      | (with_reducible refine foldl_PN _ _ _ (fun s a => ?_))
      | split
      | (simp only [implies_true, and_self, and_true, true_and, apply_ite State.pending, apply_ite State.tck, apply_ite TckSt.now, State.trapEnd_frame, State.clearMirrored_frame, State.setFld_frame])
  · repeat' first
      | with_reducible assumption
      | (with_reducible refine wf_ite ?_ ?_)
      | (with_reducible refine wf_eq (State.trapEnd_frame ..).2.2 ?_)
      | (with_reducible refine (State.clearMirrored_frame ..).2.2 ?_)
      | (with_reducible refine wf_eq (State.setFld_frame ..).2.2 ?_)
      | (with_reducible refine foldl_wf _ _ _ (fun s a h => ?_) ?_)
      | dsimp only
      | split

theorem State.takeDescriptor_frame (s : State)  : (State.takeDescriptor s).pending = s.pending ∧ (State.takeDescriptor s).tck.now = s.tck.now ∧ (Memory.wf s.mem = true → Memory.wf (State.takeDescriptor s).mem = true) := by
  unfold State.takeDescriptor
  refine (and_assoc.1 ⟨?_, fun h => ?_⟩)
  · repeat' first
      | (simp only [implies_true, and_self, and_true, true_and, apply_ite State.pending, apply_ite State.tck, apply_ite TckSt.now, State.installTopo_frame]; done)
      | (simp (maxDischargeDepth := 8) only [foldl_PN, implies_true, and_self, and_true, true_and, apply_ite State.pending, apply_ite State.tck, apply_ite TckSt.now, State.installTopo_frame]; done)
      | (with_reducible refine foldl_PN _ _ _ (fun s a => ?_))
      | split
      | (simp only [implies_true, and_self, and_true, true_and, apply_ite State.pending, apply_ite State.tck, apply_ite TckSt.now, State.installTopo_frame])
  · repeat' first
      | with_reducible assumption
      | (with_reducible refine wf_ite ?_ ?_)
      | (with_reducible refine (State.installTopo_frame ..).2.2 ?_)
      | (with_reducible refine foldl_wf _ _ _ (fun s a h => ?_) ?_)
      | dsimp only
      | split

theorem State.takeDeferred_frame (s : State)  : (State.takeDeferred s).pending = s.pending ∧ (State.takeDeferred s).tck.now = s.tck.now ∧ (State.takeDeferred s).mem = s.mem := by
  unfold State.takeDeferred
  repeat' first
    | (simp only [implies_true, and_self, and_true, true_and, apply_ite State.pending, apply_ite State.mem, apply_ite State.tck, apply_ite TckSt.now, State.setFld_frame]; done)
    | (simp (maxDischargeDepth := 8) only [foldl_PMN, implies_true, and_self, and_true, true_and, apply_ite State.pending, apply_ite State.mem, apply_ite State.tck, apply_ite TckSt.now, State.setFld_frame]; done)
    | (with_reducible refine foldl_PMN _ _ _ (fun s a => ?_))
    | split
    | (simp only [implies_true, and_self, and_true, true_and, apply_ite State.pending, apply_ite State.mem, apply_ite State.tck, apply_ite TckSt.now, State.setFld_frame])

theorem State.takeBase_frame (s : State)  : (State.takeBase s).pending = s.pending ∧ (State.takeBase s).tck.now = s.tck.now ∧ (State.takeBase s).mem = s.mem := by
  unfold State.takeBase
  refine ⟨?_, ?_, ?_⟩
  · repeat' first
      | with_reducible assumption
      | with_reducible rfl
      | (with_reducible refine alP_ite ?_ ?_)
      | (with_reducible refine Eq.trans (State.setBit_frame ..).1 ?_)
      | (with_reducible refine Eq.trans (State.installLists_frame ..).1 ?_)
      | (with_reducible refine Eq.trans (State.engineLost_frame ..).1 ?_)
      | (with_reducible refine alP_fold0 _ _ _ (fun r a h => ?_) ?_)
      | (with_reducible refine alP_fold1 _ _ _ (fun r a h => ?_) ?_)
      | (with_reducible refine alP_fold2 _ _ _ (fun r a h => ?_) ?_)
      | dsimp only
      | split
  · repeat' first
      | with_reducible assumption
      | with_reducible rfl
      | (with_reducible refine alN_ite ?_ ?_)
      | (with_reducible refine Eq.trans (State.setBit_frame ..).2.1 ?_)
      | (with_reducible refine Eq.trans (State.installLists_frame ..).2.1 ?_)
      | (with_reducible refine Eq.trans (State.engineLost_frame ..).2.1 ?_)
      | (with_reducible refine alN_fold0 _ _ _ (fun r a h => ?_) ?_)
      | (with_reducible refine alN_fold1 _ _ _ (fun r a h => ?_) ?_)
      | (with_reducible refine alN_fold2 _ _ _ (fun r a h => ?_) ?_)
      | dsimp only
      | split
  · repeat' first
      | with_reducible assumption
      | with_reducible rfl
      | (with_reducible refine alM_ite ?_ ?_)
      | (with_reducible refine Eq.trans (State.setBit_frame ..).2.2 ?_)
      | (with_reducible refine Eq.trans (State.installLists_frame ..).2.2 ?_)
      | (with_reducible refine Eq.trans (State.engineLost_frame ..).2.2 ?_)
      | (with_reducible refine alM_fold0 _ _ _ (fun r a h => ?_) ?_)
      | (with_reducible refine alM_fold1 _ _ _ (fun r a h => ?_) ?_)
      | (with_reducible refine alM_fold2 _ _ _ (fun r a h => ?_) ?_)
      | dsimp only
      | split

theorem State.bulkDone_frame (s : State)  : (State.bulkDone s).pending = s.pending ∧ (State.bulkDone s).tck.now = s.tck.now ∧ (Memory.wf s.mem = true → Memory.wf (State.bulkDone s).mem = true) := by
  unfold State.bulkDone
  refine (and_assoc.1 ⟨?_, fun h => ?_⟩)
  · repeat' first
      | (simp only [implies_true, and_self, and_true, true_and, apply_ite State.pending, apply_ite State.tck, apply_ite TckSt.now, State.takeDescriptor_frame, State.takeDeferred_frame, State.setFld_frame, State.journalApply_frame, State.takeBase_frame]; done)
      | (simp (maxDischargeDepth := 8) only [foldl_PN, implies_true, and_self, and_true, true_and, apply_ite State.pending, apply_ite State.tck, apply_ite TckSt.now, State.takeDescriptor_frame, State.takeDeferred_frame, State.setFld_frame, State.journalApply_frame, State.takeBase_frame]; done)
      | (with_reducible refine foldl_PN _ _ _ (fun s a => ?_))
      | split
      | (simp only [implies_true, and_self, and_true, true_and, apply_ite State.pending, apply_ite State.tck, apply_ite TckSt.now, State.takeDescriptor_frame, State.takeDeferred_frame, State.setFld_frame, State.journalApply_frame, State.takeBase_frame])
  · repeat' first
      | with_reducible assumption
      | (with_reducible refine wf_ite ?_ ?_)
      | (with_reducible refine (State.takeDescriptor_frame ..).2.2 ?_)
      | (with_reducible refine wf_eq (State.takeDeferred_frame ..).2.2 ?_)
      | (with_reducible refine wf_eq (State.setFld_frame ..).2.2 ?_)
      | (with_reducible refine (State.journalApply_frame ..).2.2 ?_)
      | (with_reducible refine wf_eq (State.takeBase_frame ..).2.2 ?_)
      | (with_reducible refine foldl_wf _ _ _ (fun s a h => ?_) ?_)
      | dsimp only
      | split

theorem State.putCut_frame (s : State) (l : List (Tick × Nat × Nat)) (t : Tick)  : (State.putCut s l t).pending = s.pending ∧ (State.putCut s l t).tck.now = s.tck.now ∧ (State.putCut s l t).mem = s.mem := by
  unfold State.putCut
  repeat' first
    | (simp only [implies_true, and_self, and_true, true_and, apply_ite State.pending, apply_ite State.mem, apply_ite State.tck, apply_ite TckSt.now, State.setBit_frame, State.dropCommit_frame, State.addCommit_frame, State.setForce_frame, State.setCase_frame]; done)
    | (simp (maxDischargeDepth := 8) only [foldl_PMN, implies_true, and_self, and_true, true_and, apply_ite State.pending, apply_ite State.mem, apply_ite State.tck, apply_ite TckSt.now, State.setBit_frame, State.dropCommit_frame, State.addCommit_frame, State.setForce_frame, State.setCase_frame]; done)
    | (with_reducible refine foldl_PMN _ _ _ (fun s a => ?_))
    | split
    | (simp only [implies_true, and_self, and_true, true_and, apply_ite State.pending, apply_ite State.mem, apply_ite State.tck, apply_ite TckSt.now, State.setBit_frame, State.dropCommit_frame, State.addCommit_frame, State.setForce_frame, State.setCase_frame])

theorem State.putContexts_frame (s : State) (l : List (Tick × Nat × Nat)) (t : Tick)  : (State.putContexts s l t).pending = s.pending ∧ (State.putContexts s l t).tck.now = s.tck.now ∧ (State.putContexts s l t).mem = s.mem := by
  unfold State.putContexts
  repeat' first
    | (simp only [implies_true, and_self, and_true, true_and, apply_ite State.pending, apply_ite State.mem, apply_ite State.tck, apply_ite TckSt.now, State.ctxWrite_frame]; done)
    | (simp (maxDischargeDepth := 8) only [foldl_PMN, implies_true, and_self, and_true, true_and, apply_ite State.pending, apply_ite State.mem, apply_ite State.tck, apply_ite TckSt.now, State.ctxWrite_frame]; done)
    | (with_reducible refine foldl_PMN _ _ _ (fun s a => ?_))
    | split
    | (simp only [implies_true, and_self, and_true, true_and, apply_ite State.pending, apply_ite State.mem, apply_ite State.tck, apply_ite TckSt.now, State.ctxWrite_frame])

theorem State.redoWindow_frame (s : State) (q : PastTick)  : (State.redoWindow s q).pending = s.pending ∧ (State.redoWindow s q).tck.now = s.tck.now ∧ (State.redoWindow s q).mem = s.mem := by
  unfold State.redoWindow
  repeat' first
    | (simp only [implies_true, and_self, and_true, true_and, apply_ite State.pending, apply_ite State.mem, apply_ite State.tck, apply_ite TckSt.now, State.judgeLoops_frame, State.settleHolds_frame, State.losEval_frame, State.runCases_frame, State.settleLoopRetires_frame, State.composeFabric_frame, State.runUpdates_frame, State.fixDrives_frame, State.markComposed_frame]; done)
    | (simp (maxDischargeDepth := 8) only [foldl_PMN, implies_true, and_self, and_true, true_and, apply_ite State.pending, apply_ite State.mem, apply_ite State.tck, apply_ite TckSt.now, State.judgeLoops_frame, State.settleHolds_frame, State.losEval_frame, State.runCases_frame, State.settleLoopRetires_frame, State.composeFabric_frame, State.runUpdates_frame, State.fixDrives_frame, State.markComposed_frame]; done)
    | (with_reducible refine foldl_PMN _ _ _ (fun s a => ?_))
    | split
    | (simp only [implies_true, and_self, and_true, true_and, apply_ite State.pending, apply_ite State.mem, apply_ite State.tck, apply_ite TckSt.now, State.judgeLoops_frame, State.settleHolds_frame, State.losEval_frame, State.runCases_frame, State.settleLoopRetires_frame, State.composeFabric_frame, State.runUpdates_frame, State.fixDrives_frame, State.markComposed_frame])

theorem State.redoBoundary_frame (s : State) (p : Tick)  : (State.redoBoundary s p).pending = s.pending ∧ (State.redoBoundary s p).mem = s.mem := by
  unfold State.redoBoundary
  repeat' first
    | (simp only [implies_true, and_self, and_true, true_and, apply_ite State.pending, apply_ite State.mem, State.arrive_frame, State.fabricBoundary_frame, State.crsCommitAt_frame, State.contextChange_frame, State.prtEffects_frame]; done)
    | (simp (maxDischargeDepth := 8) only [foldl_PM, implies_true, and_self, and_true, true_and, apply_ite State.pending, apply_ite State.mem, State.arrive_frame, State.fabricBoundary_frame, State.crsCommitAt_frame, State.contextChange_frame, State.prtEffects_frame]; done)
    | (with_reducible refine foldl_PM _ _ _ (fun s a => ?_))
    | split
    | (simp only [implies_true, and_self, and_true, true_and, apply_ite State.pending, apply_ite State.mem, State.arrive_frame, State.fabricBoundary_frame, State.crsCommitAt_frame, State.contextChange_frame, State.prtEffects_frame])

theorem State.bringForward_frame (s : State) (ctx cut : List (Tick × Nat × Nat)) (done : Bool) (last : Tick) (x0 : List Tick) (x1 : Bool)  : (State.bringForward s ctx cut done last x0 x1).pending = s.pending ∧ (State.bringForward s ctx cut done last x0 x1).mem = s.mem := by
  induction x0 generalizing x1 s with
  | nil => first | exact ⟨rfl, rfl, rfl⟩ | exact ⟨rfl, rfl⟩ | exact ⟨(State.mgtAnswer_frame ..).1, fun h => wf_eq (State.mgtAnswer_frame ..).2.2 h⟩
  | cons e t ih =>
  unfold State.bringForward
  refine ⟨?_, ?_⟩
  · repeat' first
      | with_reducible assumption
      | with_reducible rfl
      | (with_reducible refine alP_ite ?_ ?_)
      | (with_reducible refine Eq.trans (State.redoBoundary_frame ..).1 ?_)
      | (with_reducible refine Eq.trans (State.putContexts_frame ..).1 ?_)
      | (with_reducible refine Eq.trans (State.putCut_frame ..).1 ?_)
      | (with_reducible refine Eq.trans (State.redoWindow_frame ..).1 ?_)
      | (with_reducible refine Eq.trans (ih ..).1 ?_)
      | dsimp only
      | split
  · repeat' first
      | with_reducible assumption
      | with_reducible rfl
      | (with_reducible refine alM_ite ?_ ?_)
      | (with_reducible refine Eq.trans (State.redoBoundary_frame ..).2 ?_)
      | (with_reducible refine Eq.trans (State.putContexts_frame ..).2.2 ?_)
      | (with_reducible refine Eq.trans (State.putCut_frame ..).2.2 ?_)
      | (with_reducible refine Eq.trans (State.redoWindow_frame ..).2.2 ?_)
      | (with_reducible refine Eq.trans (ih ..).2 ?_)
      | dsimp only
      | split

theorem State.installCut_frame (s : State)  : (State.installCut s).pending = s.pending ∧ (State.installCut s).tck.now = s.tck.now ∧ (State.installCut s).mem = s.mem := by
  unfold State.installCut
  repeat' first
    | (simp only [implies_true, and_self, and_true, true_and, apply_ite State.pending, apply_ite State.mem, apply_ite State.tck, apply_ite TckSt.now, State.trapEnd_frame, State.bringForward_frame, State.setLoop_frame, State.setReg_frame, State.setForce_frame, State.setReg64_frame, State.setFld_frame, State.sendCtrl_frame]; done)
    | (simp (maxDischargeDepth := 8) only [foldl_PMN, implies_true, and_self, and_true, true_and, apply_ite State.pending, apply_ite State.mem, apply_ite State.tck, apply_ite TckSt.now, State.trapEnd_frame, State.bringForward_frame, State.setLoop_frame, State.setReg_frame, State.setForce_frame, State.setReg64_frame, State.setFld_frame, State.sendCtrl_frame]; done)
    | (with_reducible refine foldl_PMN _ _ _ (fun s a => ?_))
    | split
    | (simp only [implies_true, and_self, and_true, true_and, apply_ite State.pending, apply_ite State.mem, apply_ite State.tck, apply_ite TckSt.now, State.trapEnd_frame, State.bringForward_frame, State.setLoop_frame, State.setReg_frame, State.setForce_frame, State.setReg64_frame, State.setFld_frame, State.sendCtrl_frame])

theorem State.lateContext_frame (s : State)  : (State.lateContext s).pending = s.pending ∧ (State.lateContext s).tck.now = s.tck.now ∧ (State.lateContext s).mem = s.mem := by
  unfold State.lateContext
  repeat' first
    | (simp only [implies_true, and_self, and_true, true_and, apply_ite State.pending, apply_ite State.mem, apply_ite State.tck, apply_ite TckSt.now, State.trapEnd_frame]; done)
    | (simp (maxDischargeDepth := 8) only [foldl_PMN, implies_true, and_self, and_true, true_and, apply_ite State.pending, apply_ite State.mem, apply_ite State.tck, apply_ite TckSt.now, State.trapEnd_frame]; done)
    | (with_reducible refine foldl_PMN _ _ _ (fun s a => ?_))
    | split
    | (simp only [implies_true, and_self, and_true, true_and, apply_ite State.pending, apply_ite State.mem, apply_ite State.tck, apply_ite TckSt.now, State.trapEnd_frame])

theorem State.readyFrame_frame (s : State)  : (State.readyFrame s).pending = s.pending ∧ (State.readyFrame s).tck.now = s.tck.now ∧ (State.readyFrame s).mem = s.mem := by
  unfold State.readyFrame
  repeat' first
    | (simp only [implies_true, and_self, and_true, true_and, apply_ite State.pending, apply_ite State.mem, apply_ite State.tck, apply_ite TckSt.now, State.sendCtrl_frame]; done)
    | (simp (maxDischargeDepth := 8) only [foldl_PMN, implies_true, and_self, and_true, true_and, apply_ite State.pending, apply_ite State.mem, apply_ite State.tck, apply_ite TckSt.now, State.sendCtrl_frame]; done)
    | (with_reducible refine foldl_PMN _ _ _ (fun s a => ?_))
    | split
    | (simp only [implies_true, and_self, and_true, true_and, apply_ite State.pending, apply_ite State.mem, apply_ite State.tck, apply_ite TckSt.now, State.sendCtrl_frame])

theorem State.syncAtFrame_frame (s : State) (f : MirFrame)  : (State.syncAtFrame s f).pending = s.pending ∧ (State.syncAtFrame s f).tck.now = s.tck.now ∧ (State.syncAtFrame s f).mem = s.mem := by
  unfold State.syncAtFrame
  repeat' first
    | (simp only [implies_true, and_self, and_true, true_and, apply_ite State.pending, apply_ite State.mem, apply_ite State.tck, apply_ite TckSt.now, State.setFld_frame]; done)
    | (simp (maxDischargeDepth := 8) only [foldl_PMN, implies_true, and_self, and_true, true_and, apply_ite State.pending, apply_ite State.mem, apply_ite State.tck, apply_ite TckSt.now, State.setFld_frame]; done)
    | (with_reducible refine foldl_PMN _ _ _ (fun s a => ?_))
    | split
    | (simp only [implies_true, and_self, and_true, true_and, apply_ite State.pending, apply_ite State.mem, apply_ite State.tck, apply_ite TckSt.now, State.setFld_frame])

theorem State.resultFrame_frame (s : State) (f : MirFrame)  : (State.resultFrame s f).pending = s.pending ∧ (State.resultFrame s f).tck.now = s.tck.now ∧ (State.resultFrame s f).mem = s.mem := by
  unfold State.resultFrame
  repeat' first
    | (simp only [implies_true, and_self, and_true, true_and, apply_ite State.pending, apply_ite State.mem, apply_ite State.tck, apply_ite TckSt.now, State.serveStop_frame, State.raise_frame]; done)
    | (simp (maxDischargeDepth := 8) only [foldl_PMN, implies_true, and_self, and_true, true_and, apply_ite State.pending, apply_ite State.mem, apply_ite State.tck, apply_ite TckSt.now, State.serveStop_frame, State.raise_frame]; done)
    | (with_reducible refine foldl_PMN _ _ _ (fun s a => ?_))
    | split
    | (simp only [implies_true, and_self, and_true, true_and, apply_ite State.pending, apply_ite State.mem, apply_ite State.tck, apply_ite TckSt.now, State.serveStop_frame, State.raise_frame])

theorem State.abortFrame_frame (s : State)  : (State.abortFrame s).pending = s.pending ∧ (State.abortFrame s).tck.now = s.tck.now ∧ (State.abortFrame s).mem = s.mem := by
  unfold State.abortFrame
  repeat' first
    | (simp only [implies_true, and_self, and_true, true_and, apply_ite State.pending, apply_ite State.mem, apply_ite State.tck, apply_ite TckSt.now, State.trapEnd_frame, State.serveStop_frame, State.raise_frame]; done)
    | (simp (maxDischargeDepth := 8) only [foldl_PMN, implies_true, and_self, and_true, true_and, apply_ite State.pending, apply_ite State.mem, apply_ite State.tck, apply_ite TckSt.now, State.trapEnd_frame, State.serveStop_frame, State.raise_frame]; done)
    | (with_reducible refine foldl_PMN _ _ _ (fun s a => ?_))
    | split
    | (simp only [implies_true, and_self, and_true, true_and, apply_ite State.pending, apply_ite State.mem, apply_ite State.tck, apply_ite TckSt.now, State.trapEnd_frame, State.serveStop_frame, State.raise_frame])

theorem State.claimedFrame_frame (s : State) (f : MirFrame)  : (State.claimedFrame s f).pending = s.pending ∧ (State.claimedFrame s f).tck.now = s.tck.now ∧ (State.claimedFrame s f).mem = s.mem := by
  unfold State.claimedFrame
  repeat' first
    | (simp only [implies_true, and_self, and_true, true_and, apply_ite State.pending, apply_ite State.mem, apply_ite State.tck, apply_ite TckSt.now, State.setBit_frame]; done)
    | (simp (maxDischargeDepth := 8) only [foldl_PMN, implies_true, and_self, and_true, true_and, apply_ite State.pending, apply_ite State.mem, apply_ite State.tck, apply_ite TckSt.now, State.setBit_frame]; done)
    | (with_reducible refine foldl_PMN _ _ _ (fun s a => ?_))
    | split
    | (simp only [implies_true, and_self, and_true, true_and, apply_ite State.pending, apply_ite State.mem, apply_ite State.tck, apply_ite TckSt.now, State.setBit_frame])

theorem execHello_frame (ok : Bool) (frame : List Byte) (s : State) {r : State} (e : execHello ok frame s = .next r) : r.pending = s.pending ∧ r.tck.now = s.tck.now ∧ (Memory.wf s.mem = true → Memory.wf r.mem = true) := by
  unfold execHello at e
  revert e
  intro e
  refine ⟨?_, ?_, fun h => ?_⟩
  · revert e
    repeat' first
      | with_reducible assumption
      | with_reducible rfl
      | (with_reducible refine Eq.trans (State.mirRx_frP (heff := fun _ _ => ?_) ..) ?_)
      | (with_reducible refine Eq.trans (State.helloFrame_frame ..).1 ?_)
      | (with_reducible refine ocP_next ?_)
      | with_reducible exact ocP_fault
      | dsimp only
      | split
  · revert e
    repeat' first
      | with_reducible assumption
      | with_reducible rfl
      | (with_reducible refine Eq.trans (State.mirRx_frN (heff := fun _ _ => ?_) ..) ?_)
      | (with_reducible refine Eq.trans (State.helloFrame_frame ..).2.1 ?_)
      | (with_reducible refine ocN_next ?_)
      | with_reducible exact ocN_fault
      | dsimp only
      | split
  · revert e
    repeat' first
      | with_reducible assumption
      | with_reducible rfl
      | (with_reducible refine (State.mirRx_frW (heff := fun _ _ h => ?_) (hw := ?_) ..))
      | (with_reducible refine wf_eq (State.mirRx_frame ..).2.2 ?_)
      | (with_reducible refine (State.helloFrame_frame ..).2.2 ?_)
      | (with_reducible refine ocW_next ?_)
      | with_reducible exact ocW_fault
      | dsimp only
      | split

theorem execTrig_frame (ok : Bool) (frame : List Byte) (s : State) {r : State} (e : execTrig ok frame s = .next r) : r.pending = s.pending ∧ r.tck.now = s.tck.now ∧ r.mem = s.mem := by
  unfold execTrig at e
  revert e
  intro e
  refine ⟨?_, ?_, ?_⟩
  · revert e
    repeat' first
      | with_reducible assumption
      | with_reducible rfl
      | (with_reducible refine Eq.trans (State.mirRx_frP (heff := fun _ _ => ?_) ..) ?_)
      | (with_reducible refine Eq.trans (State.trigFrame_frame ..).1 ?_)
      | (with_reducible refine ocP_next ?_)
      | with_reducible exact ocP_fault
      | dsimp only
      | split
  · revert e
    repeat' first
      | with_reducible assumption
      | with_reducible rfl
      | (with_reducible refine Eq.trans (State.mirRx_frN (heff := fun _ _ => ?_) ..) ?_)
      | (with_reducible refine Eq.trans (State.trigFrame_frame ..).2.1 ?_)
      | (with_reducible refine ocN_next ?_)
      | with_reducible exact ocN_fault
      | dsimp only
      | split
  · revert e
    repeat' first
      | with_reducible assumption
      | with_reducible rfl
      | (with_reducible refine Eq.trans (State.mirRx_frM (heff := fun _ _ => ?_) ..) ?_)
      | (with_reducible refine Eq.trans (State.trigFrame_frame ..).2.2 ?_)
      | (with_reducible refine ocM_next ?_)
      | with_reducible exact ocM_fault
      | dsimp only
      | split

theorem execDigest_frame (ok : Bool) (frame : List Byte) (cycle : Nat) (s : State) {r : State} (e : execDigest ok frame cycle s = .next r) : r.pending = s.pending ∧ r.tck.now = s.tck.now ∧ (Memory.wf s.mem = true → Memory.wf r.mem = true) := by
  unfold execDigest at e
  revert e
  intro e
  refine ⟨?_, ?_, fun h => ?_⟩
  · revert e
    repeat' first
      | with_reducible assumption
      | with_reducible rfl
      | (with_reducible refine Eq.trans (State.atCycle_frame ..).1 ?_)
      | (with_reducible refine Eq.trans (State.mirRx_frP (heff := fun _ _ => ?_) ..) ?_)
      | (with_reducible refine Eq.trans (State.digestFrame_frame ..).1 ?_)
      | (with_reducible refine ocP_next ?_)
      | with_reducible exact ocP_fault
      | dsimp only
      | split
  · revert e
    repeat' first
      | with_reducible assumption
      | with_reducible rfl
      | (with_reducible refine Eq.trans (State.atCycle_frame ..).2.1 ?_)
      | (with_reducible refine Eq.trans (State.mirRx_frN (heff := fun _ _ => ?_) ..) ?_)
      | (with_reducible refine Eq.trans (State.digestFrame_frame ..).2.1 ?_)
      | (with_reducible refine ocN_next ?_)
      | with_reducible exact ocN_fault
      | dsimp only
      | split
  · revert e
    repeat' first
      | with_reducible assumption
      | with_reducible rfl
      | (with_reducible refine wf_eq (State.atCycle_frame ..).2.2 ?_)
      | (with_reducible refine (State.mirRx_frW (heff := fun _ _ h => ?_) (hw := ?_) ..))
      | (with_reducible refine wf_eq (State.mirRx_frame ..).2.2 ?_)
      | (with_reducible refine (State.digestFrame_frame ..).2.2 ?_)
      | (with_reducible refine ocW_next ?_)
      | with_reducible exact ocW_fault
      | dsimp only
      | split

theorem execDigestDeadline_frame (s : State) {r : State} (e : execDigestDeadline s = .next r) : r.pending = s.pending ∧ r.tck.now = s.tck.now ∧ (Memory.wf s.mem = true → Memory.wf r.mem = true) := by
  unfold execDigestDeadline at e
  revert e
  intro e
  refine ⟨?_, ?_, fun h => ?_⟩
  · revert e
    repeat' first
      | with_reducible assumption
      | with_reducible rfl
      | (with_reducible refine Eq.trans (State.digestMissing_frame ..).1 ?_)
      | (with_reducible refine ocP_next ?_)
      | with_reducible exact ocP_fault
      | dsimp only
      | split
  · revert e
    repeat' first
      | with_reducible assumption
      | with_reducible rfl
      | (with_reducible refine Eq.trans (State.digestMissing_frame ..).2.1 ?_)
      | (with_reducible refine ocN_next ?_)
      | with_reducible exact ocN_fault
      | dsimp only
      | split
  · revert e
    repeat' first
      | with_reducible assumption
      | with_reducible rfl
      | (with_reducible refine (State.digestMissing_frame ..).2.2 ?_)
      | (with_reducible refine ocW_next ?_)
      | with_reducible exact ocW_fault
      | dsimp only
      | split

theorem execReq_frame (ok : Bool) (frame : List Byte) (s : State) {r : State} (e : execReq ok frame s = .next r) : r.pending = s.pending ∧ r.tck.now = s.tck.now ∧ r.mem = s.mem := by
  unfold execReq at e
  revert e
  intro e
  refine ⟨?_, ?_, ?_⟩
  · revert e
    repeat' first
      | with_reducible assumption
      | with_reducible rfl
      | (with_reducible refine Eq.trans (State.mirRx_frP (heff := fun _ _ => ?_) ..) ?_)
      | (with_reducible refine Eq.trans (State.reqFrame_frame ..).1 ?_)
      | (with_reducible refine ocP_next ?_)
      | with_reducible exact ocP_fault
      | dsimp only
      | split
  · revert e
    repeat' first
      | with_reducible assumption
      | with_reducible rfl
      | (with_reducible refine Eq.trans (State.mirRx_frN (heff := fun _ _ => ?_) ..) ?_)
      | (with_reducible refine Eq.trans (State.reqFrame_frame ..).2.1 ?_)
      | (with_reducible refine ocN_next ?_)
      | with_reducible exact ocN_fault
      | dsimp only
      | split
  · revert e
    repeat' first
      | with_reducible assumption
      | with_reducible rfl
      | (with_reducible refine Eq.trans (State.mirRx_frM (heff := fun _ _ => ?_) ..) ?_)
      | (with_reducible refine Eq.trans (State.reqFrame_frame ..).2.2 ?_)
      | (with_reducible refine ocM_next ?_)
      | with_reducible exact ocM_fault
      | dsimp only
      | split

theorem execJournal_frame (ok : Bool) (frame : List Byte) (s : State) {r : State} (e : execJournal ok frame s = .next r) : r.pending = s.pending ∧ r.tck.now = s.tck.now ∧ (Memory.wf s.mem = true → Memory.wf r.mem = true) := by
  unfold execJournal at e
  revert e
  intro e
  refine ⟨?_, ?_, fun h => ?_⟩
  · revert e
    repeat' first
      | with_reducible assumption
      | with_reducible rfl
      | (with_reducible refine Eq.trans (State.mirRx_frP (heff := fun _ _ => ?_) ..) ?_)
      | (with_reducible refine Eq.trans (State.journalFrame_frame ..).1 ?_)
      | (with_reducible refine ocP_next ?_)
      | with_reducible exact ocP_fault
      | dsimp only
      | split
  · revert e
    repeat' first
      | with_reducible assumption
      | with_reducible rfl
      | (with_reducible refine Eq.trans (State.mirRx_frN (heff := fun _ _ => ?_) ..) ?_)
      | (with_reducible refine Eq.trans (State.journalFrame_frame ..).2.1 ?_)
      | (with_reducible refine ocN_next ?_)
      | with_reducible exact ocN_fault
      | dsimp only
      | split
  · revert e
    repeat' first
      | with_reducible assumption
      | with_reducible rfl
      | (with_reducible refine (State.mirRx_frW (heff := fun _ _ h => ?_) (hw := ?_) ..))
      | (with_reducible refine wf_eq (State.mirRx_frame ..).2.2 ?_)
      | (with_reducible refine (State.journalFrame_frame ..).2.2 ?_)
      | (with_reducible refine ocW_next ?_)
      | with_reducible exact ocW_fault
      | dsimp only
      | split

theorem execSnap_frame (ok : Bool) (frame : List Byte) (s : State) {r : State} (e : execSnap ok frame s = .next r) : r.pending = s.pending ∧ r.tck.now = s.tck.now ∧ (Memory.wf s.mem = true → Memory.wf r.mem = true) := by
  unfold execSnap at e
  revert e
  intro e
  refine ⟨?_, ?_, fun h => ?_⟩
  · revert e
    repeat' first
      | with_reducible assumption
      | with_reducible rfl
      | (with_reducible refine Eq.trans (State.mirRx_frP (heff := fun _ _ => ?_) ..) ?_)
      | (with_reducible refine Eq.trans (State.snapFrame_frame ..).1 ?_)
      | (with_reducible refine ocP_next ?_)
      | with_reducible exact ocP_fault
      | dsimp only
      | split
  · revert e
    repeat' first
      | with_reducible assumption
      | with_reducible rfl
      | (with_reducible refine Eq.trans (State.mirRx_frN (heff := fun _ _ => ?_) ..) ?_)
      | (with_reducible refine Eq.trans (State.snapFrame_frame ..).2.1 ?_)
      | (with_reducible refine ocN_next ?_)
      | with_reducible exact ocN_fault
      | dsimp only
      | split
  · revert e
    repeat' first
      | with_reducible assumption
      | with_reducible rfl
      | (with_reducible refine (State.mirRx_frW (heff := fun _ _ h => ?_) (hw := ?_) ..))
      | (with_reducible refine wf_eq (State.mirRx_frame ..).2.2 ?_)
      | (with_reducible refine (State.snapFrame_frame ..).2.2 ?_)
      | (with_reducible refine ocW_next ?_)
      | with_reducible exact ocW_fault
      | dsimp only
      | split

theorem execCatchReq_frame (ok : Bool) (frame : List Byte) (s : State) {r : State} (e : execCatchReq ok frame s = .next r) : r.pending = s.pending ∧ r.tck.now = s.tck.now ∧ r.mem = s.mem := by
  unfold execCatchReq at e
  revert e
  intro e
  refine ⟨?_, ?_, ?_⟩
  · revert e
    repeat' first
      | with_reducible assumption
      | with_reducible rfl
      | (with_reducible refine Eq.trans (State.ctrlRx_frP (heff := fun _ _ => ?_) ..) ?_)
      | (with_reducible refine Eq.trans (State.serveCatch_frame ..).1 ?_)
      | (with_reducible refine ocP_next ?_)
      | with_reducible exact ocP_fault
      | dsimp only
      | split
  · revert e
    repeat' first
      | with_reducible assumption
      | with_reducible rfl
      | (with_reducible refine Eq.trans (State.ctrlRx_frN (heff := fun _ _ => ?_) ..) ?_)
      | (with_reducible refine Eq.trans (State.serveCatch_frame ..).2.1 ?_)
      | (with_reducible refine ocN_next ?_)
      | with_reducible exact ocN_fault
      | dsimp only
      | split
  · revert e
    repeat' first
      | with_reducible assumption
      | with_reducible rfl
      | (with_reducible refine Eq.trans (State.ctrlRx_frM (heff := fun _ _ => ?_) ..) ?_)
      | (with_reducible refine Eq.trans (State.serveCatch_frame ..).2.2 ?_)
      | (with_reducible refine ocM_next ?_)
      | with_reducible exact ocM_fault
      | dsimp only
      | split

theorem execCatchAck_frame (ok : Bool) (frame : List Byte) (s : State) {r : State} (e : execCatchAck ok frame s = .next r) : r.pending = s.pending ∧ r.tck.now = s.tck.now ∧ (Memory.wf s.mem = true → Memory.wf r.mem = true) := by
  unfold execCatchAck at e
  revert e
  intro e
  refine ⟨?_, ?_, fun h => ?_⟩
  · revert e
    repeat' first
      | with_reducible assumption
      | with_reducible rfl
      | (with_reducible refine Eq.trans (State.ctrlRx_frP (heff := fun _ _ => ?_) ..) ?_)
      | (with_reducible refine Eq.trans (State.catchAck_frame ..).1 ?_)
      | (with_reducible refine ocP_next ?_)
      | with_reducible exact ocP_fault
      | dsimp only
      | split
  · revert e
    repeat' first
      | with_reducible assumption
      | with_reducible rfl
      | (with_reducible refine Eq.trans (State.ctrlRx_frN (heff := fun _ _ => ?_) ..) ?_)
      | (with_reducible refine Eq.trans (State.catchAck_frame ..).2.1 ?_)
      | (with_reducible refine ocN_next ?_)
      | with_reducible exact ocN_fault
      | dsimp only
      | split
  · revert e
    repeat' first
      | with_reducible assumption
      | with_reducible rfl
      | (with_reducible refine (State.ctrlRx_frW (heff := fun _ _ h => ?_) (hw := ?_) ..))
      | (with_reducible refine wf_eq (State.ctrlRx_frame ..).2.2 ?_)
      | (with_reducible refine (State.catchAck_frame ..).2.2 ?_)
      | (with_reducible refine ocW_next ?_)
      | with_reducible exact ocW_fault
      | dsimp only
      | split

theorem execTrapezeBulkDone_frame (s : State) {r : State} (e : execTrapezeBulkDone s = .next r) : r.pending = s.pending ∧ r.tck.now = s.tck.now ∧ (Memory.wf s.mem = true → Memory.wf r.mem = true) := by
  unfold execTrapezeBulkDone at e
  revert e
  intro e
  refine ⟨?_, ?_, fun h => ?_⟩
  · revert e
    repeat' first
      | with_reducible assumption
      | with_reducible rfl
      | (with_reducible refine Eq.trans (State.bulkDone_frame ..).1 ?_)
      | (with_reducible refine ocP_next ?_)
      | with_reducible exact ocP_fault
      | dsimp only
      | split
  · revert e
    repeat' first
      | with_reducible assumption
      | with_reducible rfl
      | (with_reducible refine Eq.trans (State.bulkDone_frame ..).2.1 ?_)
      | (with_reducible refine ocN_next ?_)
      | with_reducible exact ocN_fault
      | dsimp only
      | split
  · revert e
    repeat' first
      | with_reducible assumption
      | with_reducible rfl
      | (with_reducible refine (State.bulkDone_frame ..).2.2 ?_)
      | (with_reducible refine ocW_next ?_)
      | with_reducible exact ocW_fault
      | dsimp only
      | split

theorem execTrapezeCutInstalled_frame (s : State) {r : State} (e : execTrapezeCutInstalled s = .next r) : r.pending = s.pending ∧ r.tck.now = s.tck.now ∧ r.mem = s.mem := by
  unfold execTrapezeCutInstalled at e
  revert e
  intro e
  refine ⟨?_, ?_, ?_⟩
  · revert e
    repeat' first
      | with_reducible assumption
      | with_reducible rfl
      | (with_reducible refine Eq.trans (State.installCut_frame ..).1 ?_)
      | (with_reducible refine ocP_next ?_)
      | with_reducible exact ocP_fault
      | dsimp only
      | split
  · revert e
    repeat' first
      | with_reducible assumption
      | with_reducible rfl
      | (with_reducible refine Eq.trans (State.installCut_frame ..).2.1 ?_)
      | (with_reducible refine ocN_next ?_)
      | with_reducible exact ocN_fault
      | dsimp only
      | split
  · revert e
    repeat' first
      | with_reducible assumption
      | with_reducible rfl
      | (with_reducible refine Eq.trans (State.installCut_frame ..).2.2 ?_)
      | (with_reducible refine ocM_next ?_)
      | with_reducible exact ocM_fault
      | dsimp only
      | split

theorem execTrapezeLateContext_frame (s : State) {r : State} (e : execTrapezeLateContext s = .next r) : r.pending = s.pending ∧ r.tck.now = s.tck.now ∧ r.mem = s.mem := by
  unfold execTrapezeLateContext at e
  revert e
  intro e
  refine ⟨?_, ?_, ?_⟩
  · revert e
    repeat' first
      | with_reducible assumption
      | with_reducible rfl
      | (with_reducible refine Eq.trans (State.lateContext_frame ..).1 ?_)
      | (with_reducible refine ocP_next ?_)
      | with_reducible exact ocP_fault
      | dsimp only
      | split
  · revert e
    repeat' first
      | with_reducible assumption
      | with_reducible rfl
      | (with_reducible refine Eq.trans (State.lateContext_frame ..).2.1 ?_)
      | (with_reducible refine ocN_next ?_)
      | with_reducible exact ocN_fault
      | dsimp only
      | split
  · revert e
    repeat' first
      | with_reducible assumption
      | with_reducible rfl
      | (with_reducible refine Eq.trans (State.lateContext_frame ..).2.2 ?_)
      | (with_reducible refine ocM_next ?_)
      | with_reducible exact ocM_fault
      | dsimp only
      | split

theorem execReady_frame (ok : Bool) (frame : List Byte) (s : State) {r : State} (e : execReady ok frame s = .next r) : r.pending = s.pending ∧ r.tck.now = s.tck.now ∧ r.mem = s.mem := by
  unfold execReady at e
  revert e
  intro e
  refine ⟨?_, ?_, ?_⟩
  · revert e
    repeat' first
      | with_reducible assumption
      | with_reducible rfl
      | (with_reducible refine Eq.trans (State.ctrlRx_frP (heff := fun _ _ => ?_) ..) ?_)
      | (with_reducible refine Eq.trans (State.readyFrame_frame ..).1 ?_)
      | (with_reducible refine ocP_next ?_)
      | with_reducible exact ocP_fault
      | dsimp only
      | split
  · revert e
    repeat' first
      | with_reducible assumption
      | with_reducible rfl
      | (with_reducible refine Eq.trans (State.ctrlRx_frN (heff := fun _ _ => ?_) ..) ?_)
      | (with_reducible refine Eq.trans (State.readyFrame_frame ..).2.1 ?_)
      | (with_reducible refine ocN_next ?_)
      | with_reducible exact ocN_fault
      | dsimp only
      | split
  · revert e
    repeat' first
      | with_reducible assumption
      | with_reducible rfl
      | (with_reducible refine Eq.trans (State.ctrlRx_frM (heff := fun _ _ => ?_) ..) ?_)
      | (with_reducible refine Eq.trans (State.readyFrame_frame ..).2.2 ?_)
      | (with_reducible refine ocM_next ?_)
      | with_reducible exact ocM_fault
      | dsimp only
      | split

theorem execSyncAt_frame (ok : Bool) (frame : List Byte) (s : State) {r : State} (e : execSyncAt ok frame s = .next r) : r.pending = s.pending ∧ r.tck.now = s.tck.now ∧ r.mem = s.mem := by
  unfold execSyncAt at e
  revert e
  intro e
  refine ⟨?_, ?_, ?_⟩
  · revert e
    repeat' first
      | with_reducible assumption
      | with_reducible rfl
      | (with_reducible refine Eq.trans (State.ctrlRx_frP (heff := fun _ _ => ?_) ..) ?_)
      | (with_reducible refine Eq.trans (State.syncAtFrame_frame ..).1 ?_)
      | (with_reducible refine ocP_next ?_)
      | with_reducible exact ocP_fault
      | dsimp only
      | split
  · revert e
    repeat' first
      | with_reducible assumption
      | with_reducible rfl
      | (with_reducible refine Eq.trans (State.ctrlRx_frN (heff := fun _ _ => ?_) ..) ?_)
      | (with_reducible refine Eq.trans (State.syncAtFrame_frame ..).2.1 ?_)
      | (with_reducible refine ocN_next ?_)
      | with_reducible exact ocN_fault
      | dsimp only
      | split
  · revert e
    repeat' first
      | with_reducible assumption
      | with_reducible rfl
      | (with_reducible refine Eq.trans (State.ctrlRx_frM (heff := fun _ _ => ?_) ..) ?_)
      | (with_reducible refine Eq.trans (State.syncAtFrame_frame ..).2.2 ?_)
      | (with_reducible refine ocM_next ?_)
      | with_reducible exact ocM_fault
      | dsimp only
      | split

theorem execResult_frame (ok : Bool) (frame : List Byte) (s : State) {r : State} (e : execResult ok frame s = .next r) : r.pending = s.pending ∧ r.tck.now = s.tck.now ∧ r.mem = s.mem := by
  unfold execResult at e
  revert e
  intro e
  refine ⟨?_, ?_, ?_⟩
  · revert e
    repeat' first
      | with_reducible assumption
      | with_reducible rfl
      | (with_reducible refine Eq.trans (State.ctrlRx_frP (heff := fun _ _ => ?_) ..) ?_)
      | (with_reducible refine Eq.trans (State.resultFrame_frame ..).1 ?_)
      | (with_reducible refine ocP_next ?_)
      | with_reducible exact ocP_fault
      | dsimp only
      | split
  · revert e
    repeat' first
      | with_reducible assumption
      | with_reducible rfl
      | (with_reducible refine Eq.trans (State.ctrlRx_frN (heff := fun _ _ => ?_) ..) ?_)
      | (with_reducible refine Eq.trans (State.resultFrame_frame ..).2.1 ?_)
      | (with_reducible refine ocN_next ?_)
      | with_reducible exact ocN_fault
      | dsimp only
      | split
  · revert e
    repeat' first
      | with_reducible assumption
      | with_reducible rfl
      | (with_reducible refine Eq.trans (State.ctrlRx_frM (heff := fun _ _ => ?_) ..) ?_)
      | (with_reducible refine Eq.trans (State.resultFrame_frame ..).2.2 ?_)
      | (with_reducible refine ocM_next ?_)
      | with_reducible exact ocM_fault
      | dsimp only
      | split

theorem execMirrorAbort_frame (ok : Bool) (frame : List Byte) (s : State) {r : State} (e : execMirrorAbort ok frame s = .next r) : r.pending = s.pending ∧ r.tck.now = s.tck.now ∧ r.mem = s.mem := by
  unfold execMirrorAbort at e
  revert e
  intro e
  refine ⟨?_, ?_, ?_⟩
  · revert e
    repeat' first
      | with_reducible assumption
      | with_reducible rfl
      | (with_reducible refine Eq.trans (State.ctrlRx_frP (heff := fun _ _ => ?_) ..) ?_)
      | (with_reducible refine Eq.trans (State.abortFrame_frame ..).1 ?_)
      | (with_reducible refine ocP_next ?_)
      | with_reducible exact ocP_fault
      | dsimp only
      | split
  · revert e
    repeat' first
      | with_reducible assumption
      | with_reducible rfl
      | (with_reducible refine Eq.trans (State.ctrlRx_frN (heff := fun _ _ => ?_) ..) ?_)
      | (with_reducible refine Eq.trans (State.abortFrame_frame ..).2.1 ?_)
      | (with_reducible refine ocN_next ?_)
      | with_reducible exact ocN_fault
      | dsimp only
      | split
  · revert e
    repeat' first
      | with_reducible assumption
      | with_reducible rfl
      | (with_reducible refine Eq.trans (State.ctrlRx_frM (heff := fun _ _ => ?_) ..) ?_)
      | (with_reducible refine Eq.trans (State.abortFrame_frame ..).2.2 ?_)
      | (with_reducible refine ocM_next ?_)
      | with_reducible exact ocM_fault
      | dsimp only
      | split

theorem execClaimedFrame_frame (ok : Bool) (frame : List Byte) (s : State) {r : State} (e : execClaimedFrame ok frame s = .next r) : r.pending = s.pending ∧ r.tck.now = s.tck.now ∧ r.mem = s.mem := by
  unfold execClaimedFrame at e
  revert e
  intro e
  refine ⟨?_, ?_, ?_⟩
  · revert e
    repeat' first
      | with_reducible assumption
      | with_reducible rfl
      | (with_reducible refine Eq.trans (State.ctrlRx_frP (heff := fun _ _ => ?_) ..) ?_)
      | (with_reducible refine Eq.trans (State.claimedFrame_frame ..).1 ?_)
      | (with_reducible refine ocP_next ?_)
      | with_reducible exact ocP_fault
      | dsimp only
      | split
  · revert e
    repeat' first
      | with_reducible assumption
      | with_reducible rfl
      | (with_reducible refine Eq.trans (State.ctrlRx_frN (heff := fun _ _ => ?_) ..) ?_)
      | (with_reducible refine Eq.trans (State.claimedFrame_frame ..).2.1 ?_)
      | (with_reducible refine ocN_next ?_)
      | with_reducible exact ocN_fault
      | dsimp only
      | split
  · revert e
    repeat' first
      | with_reducible assumption
      | with_reducible rfl
      | (with_reducible refine Eq.trans (State.ctrlRx_frM (heff := fun _ _ => ?_) ..) ?_)
      | (with_reducible refine Eq.trans (State.claimedFrame_frame ..).2.2 ?_)
      | (with_reducible refine ocM_next ?_)
      | with_reducible exact ocM_fault
      | dsimp only
      | split

end Sys2Proof.Machine
end

