-- ==== Sys2Proof/Laws/FrameLoad.lean ====
section
/-! SUPPORT. What every operation of Machine/Load.lean leaves alone: the queue of waiting commands, the tick counter (unless it
writes it), and memory or its canonical form. -/

namespace Sys2Proof.Machine

set_option linter.all false
set_option Elab.async false
set_option maxRecDepth 4000

theorem State.loaderWord_frame (s : State) (a : Nat)  : (State.loaderWord s a).1.pending = s.pending ∧ (State.loaderWord s a).1.tck.now = s.tck.now ∧ (State.loaderWord s a).1.mem = s.mem := by
  unfold State.loaderWord
  repeat' first
    | (simp only [implies_true, and_self, and_true, true_and, apply_ite State.pending, apply_ite State.mem, apply_ite State.tck, apply_ite TckSt.now, State.busRead_frame]; done)
    | (simp (maxDischargeDepth := 8) only [foldl_PMN, implies_true, and_self, and_true, true_and, apply_ite State.pending, apply_ite State.mem, apply_ite State.tck, apply_ite TckSt.now, State.busRead_frame]; done)
    | (with_reducible refine foldl_PMN _ _ _ (fun s a => ?_))
    | split
    | (simp only [implies_true, and_self, and_true, true_and, apply_ite State.pending, apply_ite State.mem, apply_ite State.tck, apply_ite TckSt.now, State.busRead_frame])

theorem LoaderRun.next_frame (r : LoaderRun) (a : Nat) : (r.next a).s.pending = r.s.pending ∧ (r.next a).s.tck.now = r.s.tck.now ∧ (r.next a).s.mem = r.s.mem := by
  unfold LoaderRun.next
  have h := State.loaderWord_frame r.s a
  split
  · exact ⟨rfl, rfl, rfl⟩
  · split <;> simp_all
theorem LoaderRun.read_frame (r : LoaderRun) (a lo hi : Nat) : (r.read a lo hi).s.pending = r.s.pending ∧ (r.read a lo hi).s.tck.now = r.s.tck.now ∧ (r.read a lo hi).s.mem = r.s.mem := by
  unfold LoaderRun.read
  generalize List.range _ = l
  induction l generalizing r with
  | nil => exact ⟨rfl, rfl, rfl⟩
  | cons i t ih =>
    have h := LoaderRun.next_frame r (a + 4 * (lo / 4 + i))
    have k := ih (r.next (a + 4 * (lo / 4 + i)))
    exact ⟨k.1.trans h.1, k.2.1.trans h.2.1, k.2.2.trans h.2.2⟩
theorem State.loaderBytes_frame (s : State) (a : Nat) (total : List Byte → Nat) : (s.loaderBytes a total).s.pending = s.pending ∧ (s.loaderBytes a total).s.tck.now = s.tck.now ∧ (s.loaderBytes a total).s.mem = s.mem := by
  unfold State.loaderBytes
  have h := LoaderRun.read_frame { s := s } a 0 64
  dsimp only
  split
  · exact h
  · have k := LoaderRun.read_frame (LoaderRun.read { s := s } a 0 64) a 64 (total (LoaderRun.read { s := s } a 0 64).bytes)
    exact ⟨k.1.trans h.1, k.2.1.trans h.2.1, k.2.2.trans h.2.2⟩
theorem State.loadSource_frame (s : State) (reg : Nat) (total : List Byte → Nat) (data : List Byte) (busAt : Option Nat)  : (State.loadSource s reg total data busAt).1.pending = s.pending ∧ (State.loadSource s reg total data busAt).1.tck.now = s.tck.now ∧ (State.loadSource s reg total data busAt).1.mem = s.mem := by
  unfold State.loadSource
  split
  · exact State.loaderBytes_frame ..
  · exact ⟨rfl, rfl, rfl⟩

theorem State.descRead_frame (s : State) (data : List Byte) (busAt : Option Nat)  : (State.descRead s data busAt).pending = s.pending ∧ (State.descRead s data busAt).tck.now = s.tck.now ∧ (Memory.wf s.mem = true → Memory.wf (State.descRead s data busAt).mem = true) := by
  unfold State.descRead
  refine (and_assoc.1 ⟨?_, fun h => ?_⟩)
  · repeat' first
      | (simp only [implies_true, and_self, and_true, true_and, apply_ite State.pending, apply_ite State.tck, apply_ite TckSt.now, State.loadSource_frame, State.descDone_frame]; done)
      | (simp (maxDischargeDepth := 8) only [foldl_PN, implies_true, and_self, and_true, true_and, apply_ite State.pending, apply_ite State.tck, apply_ite TckSt.now, State.loadSource_frame, State.descDone_frame]; done)
      | (with_reducible refine foldl_PN _ _ _ (fun s a => ?_))
      | split
      | (simp only [implies_true, and_self, and_true, true_and, apply_ite State.pending, apply_ite State.tck, apply_ite TckSt.now, State.loadSource_frame, State.descDone_frame])
  · repeat' first
      | with_reducible assumption
      | (with_reducible refine wf_ite ?_ ?_)
      | (with_reducible refine wf_eq (State.loadSource_frame ..).2.2 ?_)
      | (with_reducible refine (State.descDone_frame ..).2.2 ?_)
      | (with_reducible refine foldl_wf _ _ _ (fun s a h => ?_) ?_)
      | dsimp only
      | split

theorem State.imageRead_frame (s : State) (data : List Byte) (busAt stop : Option Nat)  : (State.imageRead s data busAt stop).pending = s.pending ∧ (State.imageRead s data busAt stop).tck.now = s.tck.now ∧ (Memory.wf s.mem = true → Memory.wf (State.imageRead s data busAt stop).mem = true) := by
  unfold State.imageRead
  refine (and_assoc.1 ⟨?_, fun h => ?_⟩)
  · repeat' first
      | (simp only [implies_true, and_self, and_true, true_and, apply_ite State.pending, apply_ite State.tck, apply_ite TckSt.now, State.loadSource_frame, State.imageEnd_frame, State.resetMaster_frame]; done)
      | (simp (maxDischargeDepth := 8) only [foldl_PN, implies_true, and_self, and_true, true_and, apply_ite State.pending, apply_ite State.tck, apply_ite TckSt.now, State.loadSource_frame, State.imageEnd_frame, State.resetMaster_frame]; done)
      | (with_reducible refine foldl_PN _ _ _ (fun s a => ?_))
      | split
      | (simp only [implies_true, and_self, and_true, true_and, apply_ite State.pending, apply_ite State.tck, apply_ite TckSt.now, State.loadSource_frame, State.imageEnd_frame, State.resetMaster_frame])
  · repeat' first
      | with_reducible assumption
      | (with_reducible refine wf_ite ?_ ?_)
      | (with_reducible refine wf_eq (State.loadSource_frame ..).2.2 ?_)
      | (with_reducible refine (State.imageEnd_frame ..).2.2 ?_)
      | (with_reducible refine wf_eq (State.resetMaster_frame ..).2.2 ?_)
      | (with_reducible refine foldl_wf _ _ _ (fun s a h => ?_) ?_)
      | dsimp only
      | split

theorem execDescLoadDone_frame (data : List Byte) (busAt : Option Nat) (s : State) {r : State} (e : execDescLoadDone data busAt s = .next r) : r.pending = s.pending ∧ r.tck.now = s.tck.now ∧ (Memory.wf s.mem = true → Memory.wf r.mem = true) := by
  unfold execDescLoadDone at e
  revert e
  intro e
  refine ⟨?_, ?_, fun h => ?_⟩
  · revert e
    repeat' first
      | with_reducible assumption
      | with_reducible rfl
      | (with_reducible refine Eq.trans (State.descRead_frame ..).1 ?_)
      | (with_reducible refine ocP_next ?_)
      | with_reducible exact ocP_fault
      | dsimp only
      | split
  · revert e
    repeat' first
      | with_reducible assumption
      | with_reducible rfl
      | (with_reducible refine Eq.trans (State.descRead_frame ..).2.1 ?_)
      | (with_reducible refine ocN_next ?_)
      | with_reducible exact ocN_fault
      | dsimp only
      | split
  · revert e
    repeat' first
      | with_reducible assumption
      | with_reducible rfl
      | (with_reducible refine (State.descRead_frame ..).2.2 ?_)
      | (with_reducible refine ocW_next ?_)
      | with_reducible exact ocW_fault
      | dsimp only
      | split

theorem execImageLoadDone_frame (data : List Byte) (busAt : Option Nat) (s : State) {r : State} (e : execImageLoadDone data busAt s = .next r) : r.pending = s.pending ∧ r.tck.now = s.tck.now ∧ (Memory.wf s.mem = true → Memory.wf r.mem = true) := by
  unfold execImageLoadDone at e
  revert e
  intro e
  refine ⟨?_, ?_, fun h => ?_⟩
  · revert e
    repeat' first
      | with_reducible assumption
      | with_reducible rfl
      | (with_reducible refine Eq.trans (State.imageRead_frame ..).1 ?_)
      | (with_reducible refine ocP_next ?_)
      | with_reducible exact ocP_fault
      | dsimp only
      | split
  · revert e
    repeat' first
      | with_reducible assumption
      | with_reducible rfl
      | (with_reducible refine Eq.trans (State.imageRead_frame ..).2.1 ?_)
      | (with_reducible refine ocN_next ?_)
      | with_reducible exact ocN_fault
      | dsimp only
      | split
  · revert e
    repeat' first
      | with_reducible assumption
      | with_reducible rfl
      | (with_reducible refine (State.imageRead_frame ..).2.2 ?_)
      | (with_reducible refine ocW_next ?_)
      | with_reducible exact ocW_fault
      | dsimp only
      | split

theorem execAbortImage_frame (m : Fin 8) (data : List Byte) (got : Nat) (s : State) {r : State} (e : execAbortImage m data got s = .next r) : r.pending = s.pending ∧ r.tck.now = s.tck.now ∧ (Memory.wf s.mem = true → Memory.wf r.mem = true) := by
  unfold execAbortImage at e
  revert e
  intro e
  refine ⟨?_, ?_, fun h => ?_⟩
  · revert e
    repeat' first
      | with_reducible assumption
      | with_reducible rfl
      | (with_reducible refine Eq.trans (State.gateWrite_frP (heff := fun _ => ?_) ..) ?_)
      | (with_reducible refine Eq.trans (State.imageRead_frame ..).1 ?_)
      | (with_reducible refine ocP_next ?_)
      | with_reducible exact ocP_fault
      | dsimp only
      | split
  · revert e
    repeat' first
      | with_reducible assumption
      | with_reducible rfl
      | (with_reducible refine Eq.trans (State.gateWrite_frN (heff := fun _ => ?_) ..) ?_)
      | (with_reducible refine Eq.trans (State.imageRead_frame ..).2.1 ?_)
      | (with_reducible refine ocN_next ?_)
      | with_reducible exact ocN_fault
      | dsimp only
      | split
  · revert e
    repeat' first
      | with_reducible assumption
      | with_reducible rfl
      | (with_reducible refine (State.gateWrite_frW (heff := fun _ h => ?_) (hw := ?_) ..))
      | (with_reducible refine wf_eq (State.gateWrite_frame ..).2.2 ?_)
      | (with_reducible refine (State.imageRead_frame ..).2.2 ?_)
      | (with_reducible refine ocW_next ?_)
      | with_reducible exact ocW_fault
      | dsimp only
      | split

end Sys2Proof.Machine
end

