-- ==== Sys2Proof/Laws/PerInstr.lean ====
section
/-! SUPPORT. A statement about every command as syntax, one lemma a constructor: a command in which the tick can move is one that
can also write memory. -/

namespace Sys2Proof.Laws.TickMoversMayStore

set_option linter.all false
set_option Elab.async false

/-- A command that can change TCK_NOW is among those that can write memory. -/
def Statement (i : Instr) : Prop := i.mayMoveTick = true → i.mayStore = true

open Machine

theorem tickBoundary : Statement (.tickBoundary) := fun _ => rfl
theorem triggerCutoff : Statement (.triggerCutoff) := fun h => nomatch h
theorem computeWindowOpen (lanes : List LaneFacts) (mirror : Fin 16) : Statement (.computeWindowOpen lanes mirror) := fun h => nomatch h
theorem losEvaluation : Statement (.losEvaluation) := fun h => nomatch h
theorem composeState (stalls : List (Fin 32 × Nat)) : Statement (.composeState stalls) := fun h => nomatch h
theorem windowClose (faults : List (Fin 32)) (corr : List (Fin 32 × Nat)) : Statement (.windowClose faults corr) := fun h => nomatch h
theorem engineRetire (e : Fin 32) : Statement (.engineRetire e) := fun h => nomatch h
theorem ringmasterStart (m : Fin 8) (cycle : Nat) (alt : Bool) : Statement (.ringmasterStart m cycle alt) := fun h => nomatch h
theorem ringmasterStop (m : Fin 8) (alt : Bool) : Statement (.ringmasterStop m alt) := fun h => nomatch h
theorem tckCommit (m : Fin 8) (cycle : Nat) : Statement (.tckCommit m cycle) := fun h => nomatch h
theorem commitCancel (m : Fin 8) (page : BitVec 14) (cycle : Nat) : Statement (.commitCancel m page cycle) := fun h => nomatch h
theorem markerTx (port : Fin 16) (ofs : Nat) : Statement (.markerTx port ofs) := fun h => nomatch h
theorem alignTx (place : Fin 17 × Bool) : Statement (.alignTx place) := fun h => nomatch h
theorem upstreamFrame (port : Fin 16) (fecOk : Bool) (content : List Byte) : Statement (.upstreamFrame port fecOk content) := fun h => nomatch h
theorem alignRx (port : Fin 17) (lane : Fin 4) (inPlace : Bool) (skew : Int) : Statement (.alignRx port lane inPlace skew) := fun h => nomatch h
theorem alignMissing (port : Fin 17) (lane : Fin 4) : Statement (.alignMissing port lane) := fun h => nomatch h
theorem reservedControlBlock (got : Fin 16 × List Byte) : Statement (.reservedControlBlock got) := fun h => nomatch h
theorem pmdTrainDone (port : Fin 17) (lanes : Fin 16) : Statement (.pmdTrainDone port lanes) := fun h => nomatch h
theorem discover (port : Fin 16) (id : BitVec 64) (efe proto layout : Byte) (te hold : BitVec 16) : Statement (.discover port id efe proto layout te hold) := fun h => nomatch h
theorem echoRsp (port : Fin 17) (seq : BitVec 16) (rtt : Nat) : Statement (.echoRsp port seq rtt) := fun h => nomatch h
theorem trainTimeout (port : Fin 17) (signal : Bool) : Statement (.trainTimeout port signal) := fun h => nomatch h
theorem trainRetry (port : Fin 17) : Statement (.trainRetry port) := fun h => nomatch h
theorem laneRetire (port : Fin 16) (lane : Fin 2) : Statement (.laneRetire port lane) := fun h => nomatch h
theorem laneRestore (m : Fin 8) (port : Fin 16) (lanes : Fin 4) : Statement (.laneRestore m port lanes) := fun h => nomatch h
theorem retrain (m : Fin 8) (port : Fin 16) : Statement (.retrain m port) := fun h => nomatch h
theorem echo (m : Fin 8) (port : Fin 16) : Statement (.echo m port) := fun h => nomatch h
theorem laneEnWrite (m : Fin 8) (port : Fin 16) (en : Fin 4) : Statement (.laneEnWrite m port en) := fun h => nomatch h
theorem loadDesc (m : Fin 8) : Statement (.loadDesc m) := fun h => nomatch h
theorem descLoadDone (data : List Byte) (busAt : Option Nat) : Statement (.descLoadDone data busAt) := fun h => nomatch h
theorem loadImage (m : Fin 8) : Statement (.loadImage m) := fun h => nomatch h
theorem abortImage (m : Fin 8) (data : List Byte) (got : Nat) : Statement (.abortImage m data got) := fun h => nomatch h
theorem imageLoadDone (data : List Byte) (busAt : Option Nat) : Statement (.imageLoadDone data busAt) := fun h => nomatch h
theorem applyGo (m : Fin 8) (cycle : Nat) : Statement (.applyGo m cycle) := fun h => nomatch h
theorem stagingDone : Statement (.stagingDone) := fun h => nomatch h
theorem applyCancelAll (m : Fin 8) : Statement (.applyCancelAll m) := fun h => nomatch h
theorem armSafety (m : Fin 8) : Statement (.armSafety m) := fun h => nomatch h
theorem safeNow (m : Fin 8) (cycle : Nat) : Statement (.safeNow m cycle) := fun h => nomatch h
theorem safeExit (m : Fin 8) : Statement (.safeExit m) := fun h => nomatch h
theorem stateStoreWrite (m : Fin 8) (off : Fin 33554432) (data : List Byte) : Statement (.stateStoreWrite m off data) := fun h => nomatch h
theorem contextEntryWrite (m : Fin 8) (off : Fin 8388608) (data : List Byte) : Statement (.contextEntryWrite m off data) := fun h => nomatch h
theorem profileShadowWrite (m : Fin 8) (off : Fin 65536) (data : List Byte) : Statement (.profileShadowWrite m off data) := fun h => nomatch h
theorem placementShadowWrite (m : Fin 8) (off : Fin 2490368) (data : List Byte) : Statement (.placementShadowWrite m off data) := fun h => nomatch h
theorem loopContextWrite (m : Fin 8) (off : Fin 1572864) (data : List Byte) : Statement (.loopContextWrite m off data) := fun h => nomatch h
theorem profileBankSwap (m : Fin 8) (cycle : Nat) : Statement (.profileBankSwap m cycle) := fun h => nomatch h
theorem copyBackDone : Statement (.copyBackDone) := fun h => nomatch h
theorem nop (m : Fin 8) (arg : BitVec 16) (cycle : Nat) : Statement (.nop m arg cycle) := fun h => nomatch h
theorem setState (m : Fin 8) (arg : BitVec 16) (cycle : Nat) : Statement (.setState m arg cycle) := fun h => nomatch h
theorem freeze (m : Fin 8) (arg : BitVec 16) (cycle : Nat) : Statement (.freeze m arg cycle) := fun h => nomatch h
theorem release (m : Fin 8) (arg : BitVec 16) (cycle : Nat) : Statement (.release m arg cycle) := fun h => nomatch h
theorem setProfA (m : Fin 8) (arg : BitVec 16) (cycle : Nat) : Statement (.setProfA m arg cycle) := fun h => nomatch h
theorem setProfB (m : Fin 8) (arg : BitVec 16) (cycle : Nat) : Statement (.setProfB m arg cycle) := fun h => nomatch h
theorem setParkA (m : Fin 8) (arg : BitVec 16) (cycle : Nat) : Statement (.setParkA m arg cycle) := fun h => nomatch h
theorem setParkB (m : Fin 8) (arg : BitVec 16) (cycle : Nat) : Statement (.setParkB m arg cycle) := fun h => nomatch h
theorem setTarget (m : Fin 8) (arg : BitVec 16) (cycle : Nat) : Statement (.setTarget m arg cycle) := fun h => nomatch h
theorem clearFlags (m : Fin 8) (arg : BitVec 16) (cycle : Nat) : Statement (.clearFlags m arg cycle) := fun h => nomatch h
theorem loopRetire (l : Fin 12288) : Statement (.loopRetire l) := fun h => nomatch h
theorem placementCheck (m : Fin 8) (auto : Bool) : Statement (.placementCheck m auto) := fun h => nomatch h
theorem placementCheckDone : Statement (.placementCheckDone) := fun h => nomatch h
theorem lplCommit (m : Fin 8) (cycle : Nat) : Statement (.lplCommit m cycle) := fun h => nomatch h
theorem repack (m : Fin 8) (auto : Bool) : Statement (.repack m auto) := fun h => nomatch h
theorem repackDone : Statement (.repackDone) := fun h => nomatch h
theorem lenRetire (m : Fin 8) (e : Fin 32) : Statement (.lenRetire m e) := fun h => nomatch h
theorem rsvSubmit (m : Fin 8) (slot : Fin 32) : Statement (.rsvSubmit m slot) := fun h => nomatch h
theorem jobSlotWrite (m : Fin 8) (slot : Fin 32) (word : Fin 5) (v : Word) : Statement (.jobSlotWrite m slot word v) := fun h => nomatch h
theorem jobStart : Statement (.jobStart) := fun h => nomatch h
theorem jobResume : Statement (.jobResume) := fun h => nomatch h
theorem jobEnd (stage : Fin 3) (cycles cycle : Nat) : Statement (.jobEnd stage cycles cycle) := fun h => nomatch h
theorem budgetExhausted (cycles cycle : Nat) : Statement (.budgetExhausted cycles cycle) := fun h => nomatch h
theorem jobCancel (m : Fin 8) (slot : Fin 32) (cycles : Nat) : Statement (.jobCancel m slot cycles) := fun h => nomatch h
theorem jobCancelAll (m : Fin 8) (cycles : Nat) : Statement (.jobCancelAll m cycles) := fun h => nomatch h
theorem carouselCheck (m : Fin 8) : Statement (.carouselCheck m) := fun h => nomatch h
theorem carouselCheckDone : Statement (.carouselCheckDone) := fun h => nomatch h
theorem start (m : Fin 8) (cycle : Nat) : Statement (.start m cycle) := fun h => nomatch h
theorem swap (m : Fin 8) (cycle : Nat) : Statement (.swap m cycle) := fun h => nomatch h
theorem stop (m : Fin 8) (cycle : Nat) : Statement (.stop m cycle) := fun h => nomatch h
theorem carouselSlotChange : Statement (.carouselSlotChange) := fun h => nomatch h
theorem crsShdDataWrite (m : Fin 8) (v : Word) : Statement (.crsShdDataWrite m v) := fun h => nomatch h
theorem crsActDataRead (m : Fin 8) : Statement (.crsActDataRead m) := fun h => nomatch h
theorem protectionCheck (m : Fin 8) : Statement (.protectionCheck m) := fun h => nomatch h
theorem protectionCheckDone : Statement (.protectionCheckDone) := fun h => nomatch h
theorem prtCommit (m : Fin 8) (cycle : Nat) : Statement (.prtCommit m cycle) := fun h => nomatch h
theorem prtSubDataWrite (m : Fin 8) (v : Word) : Statement (.prtSubDataWrite m v) := fun h => nomatch h
theorem prtSubaDataRead (m : Fin 8) : Statement (.prtSubaDataRead m) := fun h => nomatch h
theorem force (m : Fin 8) (case : Fin 256) (cycle : Nat) : Statement (.force m case cycle) := fun h => nomatch h
theorem clear (m : Fin 8) (case : Fin 256) (cycle : Nat) : Statement (.clear m case cycle) := fun h => nomatch h
theorem wtrExpiry (case : Fin 256) : Statement (.wtrExpiry case) := fun h => nomatch h
theorem trigInEdge (pin : Fin 8) (level : Bool) (cycle : Nat) : Statement (.trigInEdge pin level cycle) := fun h => nomatch h
theorem pinRecognition (pin : Fin 8) (cycle : Nat) : Statement (.pinRecognition pin cycle) := fun h => nomatch h
theorem stuckDetect (input : Fin 1032) : Statement (.stuckDetect input) := fun h => nomatch h
theorem evtPinEnWrite (m : Fin 8) (v : Word) (cycle : Nat) : Statement (.evtPinEnWrite m v cycle) := fun h => nomatch h
theorem chatterClear (m : Fin 8) (word : Fin 33) (v : Word) : Statement (.chatterClear m word v) := fun h => nomatch h
theorem meaWindowEnd : Statement (.meaWindowEnd) := fun h => nomatch h
theorem meaWinWrite (m : Fin 8) (v : Word) : Statement (.meaWinWrite m v) := fun h => nomatch h
theorem meaEnWrite (m : Fin 8) (v : Word) : Statement (.meaEnWrite m v) := fun h => nomatch h
theorem calPassStart (m : Fin 8) : Statement (.calPassStart m) := fun h => nomatch h
theorem calMeasurementDone : Statement (.calMeasurementDone) := fun h => nomatch h
theorem calAttemptTimeout : Statement (.calAttemptTimeout) := fun h => nomatch h
theorem calAbort (m : Fin 8) : Statement (.calAbort m) := fun h => nomatch h
theorem calStage (m : Fin 8) : Statement (.calStage m) := fun h => nomatch h
theorem calStageDone : Statement (.calStageDone) := fun h => nomatch h
theorem calStore (m : Fin 8) : Statement (.calStore m) := fun h => nomatch h
theorem calStoreDone : Statement (.calStoreDone) := fun h => nomatch h
theorem calCommit (m : Fin 8) (cycle : Nat) : Statement (.calCommit m cycle) := fun h => nomatch h
theorem supFrameRx (port : Fin 67) (frame : Bool × List Byte) (ago : Nat) (rivals : List (Fin 71)) (cycle : Nat) : Statement (.supFrameRx port frame ago rivals cycle) := fun _ => rfl
theorem pauseFrame (port : Fin 66) (fcsOk : Bool) (sa : BitVec 48) (quanta : BitVec 16) (cycle : Nat) : Statement (.pauseFrame port fcsOk sa quanta cycle) := fun _ => rfl
theorem pauseRepeat (port : Fin 66) : Statement (.pauseRepeat port) := fun h => nomatch h
theorem learn (cycle : Nat) : Statement (.learn cycle) := fun h => nomatch h
theorem agingPass : Statement (.agingPass) := fun h => nomatch h
theorem scrub : Statement (.scrub) := fun h => nomatch h
theorem conflictRecordExpiry (cycle : Nat) : Statement (.conflictRecordExpiry cycle) := fun h => nomatch h
theorem insert (m : Fin 8) : Statement (.insert m) := fun h => nomatch h
theorem delete (m : Fin 8) : Statement (.delete m) := fun h => nomatch h
theorem lookup (m : Fin 8) : Statement (.lookup m) := fun h => nomatch h
theorem flushPort (m : Fin 8) (port : Fin 128) : Statement (.flushPort m port) := fun h => nomatch h
theorem flushVid (m : Fin 8) (vid : Fin 4096) : Statement (.flushVid m vid) := fun h => nomatch h
theorem flushLearned (m : Fin 8) : Statement (.flushLearned m) := fun h => nomatch h
theorem fwdCmdDone : Statement (.fwdCmdDone) := fun h => nomatch h
theorem fwdTableDataWrite (m : Fin 8) (table : Fin 3) (v : Word) : Statement (.fwdTableDataWrite m table v) := fun h => nomatch h
theorem alloc (m : Fin 8) : Statement (.alloc m) := fun h => nomatch h
theorem free (m : Fin 8) (handle : Fin 16384) : Statement (.free m handle) := fun h => nomatch h
theorem bpmPoolCfgWrite (m : Fin 8) (pool word : Fin 4) (v : Word) : Statement (.bpmPoolCfgWrite m pool word v) := fun h => nomatch h
theorem portInterval (cv : List (Fin 66 × Nat)) : Statement (.portInterval cv) := fun h => nomatch h
theorem portRetire (port : Fin 66) : Statement (.portRetire port) := fun h => nomatch h
theorem portRestore (m : Fin 8) (port : Fin 66) : Statement (.portRestore m port) := fun h => nomatch h
theorem linkUp (port : Fin 66) (an : Bool) : Statement (.linkUp port an) := fun h => nomatch h
theorem linkDown (port : Fin 66) (sync : Bool) : Statement (.linkDown port sync) := fun h => nomatch h
theorem hostTxFrame (len : BitVec 16) (port prio : Byte) (vid flags : BitVec 16) (data : List Byte) (busOk : Bool) (cycle : Nat) : Statement (.hostTxFrame len port prio vid flags data busOk cycle) := fun _ => rfl
theorem resetRings (m : Fin 8) : Statement (.resetRings m) := fun h => nomatch h
theorem alarmFrame (port : Fin 66) (eth : EthHdr) (ago : Nat) (payload : List Byte) (cycle : Nat) : Statement (.alarmFrame port eth ago payload cycle) := fun _ => rfl
theorem alarmCacheExpiry (cycle : Nat) : Statement (.alarmCacheExpiry cycle) := fun h => nomatch h
theorem almSend (m : Fin 8) (kind : Byte) (code : BitVec 16) : Statement (.almSend m kind code) := fun h => nomatch h
theorem almInClear (m : Fin 8) (word : Fin 2) (v : Word) : Statement (.almInClear m word v) := fun h => nomatch h
theorem openSession (port : Fin 66) (sa : BitVec 48) (tag : Option (BitVec 16)) (ago : Nat) (target key : BitVec 16) (nonce : BitVec 64) (mac : BitVec 256) (cycle : Nat) : Statement (.openSession port sa tag ago target key nonce mac cycle) := fun _ => rfl
theorem request (port : Fin 66) (sa : BitVec 48) (tag : Option (BitVec 16)) (ago : Nat) (session : Byte) (target key : BitVec 16) (seq : BitVec 32) (ops : List (Word × Word)) (mac : BitVec 256) (cycle : Nat) : Statement (.request port sa tag ago session target key seq ops mac cycle) := fun _ => rfl
theorem closeSession (port : Fin 66) (sa : BitVec 48) (tag : Option (BitVec 16)) (ago : Nat) (session : Byte) (target key : BitVec 16) (seq : BitVec 32) (mac : BitVec 256) (cycle : Nat) : Statement (.closeSession port sa tag ago session target key seq mac cycle) := fun _ => rfl
theorem mgtIdleExpiry (cycle : Nat) : Statement (.mgtIdleExpiry cycle) := fun h => nomatch h
theorem keySlotWrite (m : Fin 8) (slot : Fin 2) (off : Fin 32) (data : List Byte) : Statement (.keySlotWrite m slot off data) := fun h => nomatch h
theorem egressSelect (port : Fin 66) (cycle ahead : Nat) : Statement (.egressSelect port cycle ahead) := fun h => nomatch h
theorem gateEntryChange (port : Fin 66) (cycle : Nat) : Statement (.gateEntryChange port cycle) := fun h => nomatch h
theorem gateCommit (m : Fin 8) (cycle : Nat) : Statement (.gateCommit m cycle) := fun h => nomatch h
theorem gateCancel (m : Fin 8) (cycle : Nat) : Statement (.gateCancel m cycle) := fun h => nomatch h
theorem gateListStart (port : Fin 66) (cycle : Nat) : Statement (.gateListStart port cycle) := fun h => nomatch h
theorem shaperConfigWrite (m : Fin 8) (reg : Fin 3) (v : Word) : Statement (.shaperConfigWrite m reg v) := fun h => nomatch h
theorem wheelSlot : Statement (.wheelSlot) := fun h => nomatch h
theorem polCfgWrite (m : Fin 8) (v : Word) : Statement (.polCfgWrite m v) := fun h => nomatch h
theorem ptpMessage (port : Fin 66) (env : PtpEnv) (ago : Nat) (msg : List Byte) (cycle : Nat) : Statement (.ptpMessage port env ago msg cycle) := fun _ => rfl
theorem followUp (port : Fin 66) (env : PtpEnv) (ago : Nat) (msg : List Byte) (cycle : Nat) : Statement (.followUp port env ago msg cycle) := fun _ => rfl
theorem delayResp (port : Fin 66) (env : PtpEnv) (ago : Nat) (msg : List Byte) (cycle : Nat) : Statement (.delayResp port env ago msg cycle) := fun _ => rfl
theorem tcEntryExpiry (cycle : Nat) : Statement (.tcEntryExpiry cycle) := fun h => nomatch h
theorem ntuRateWrite (m : Fin 8) (v : Word) : Statement (.ntuRateWrite m v) := fun h => nomatch h
theorem ntuOffsetWrite (m : Fin 8) (v : Word) : Statement (.ntuOffsetWrite m v) := fun h => nomatch h
theorem ntuStepWrite (m : Fin 8) (v : Word) : Statement (.ntuStepWrite m v) := fun h => nomatch h
theorem lock (m : Fin 8) (sync : Bool) : Statement (.lock m sync) := fun h => nomatch h
theorem hold (m : Fin 8) (sync : Bool) : Statement (.hold m sync) := fun h => nomatch h
theorem ntuFree (m : Fin 8) (sync : Bool) : Statement (.ntuFree m sync) := fun h => nomatch h
theorem sync (m : Fin 8) : Statement (.sync m) := fun h => nomatch h
theorem syncWdInterval : Statement .syncWdInterval := fun h => nomatch h
theorem nodeWrite (m : Fin 8) (v : Word) : Statement (.nodeWrite m v) := fun h => nomatch h
theorem mpdWrite (m : Fin 8) (port : Fin 66) (v : Word) : Statement (.mpdWrite m port v) := fun h => nomatch h
theorem ppsInEdge (cycle : Nat) : Statement (.ppsInEdge cycle) := fun h => nomatch h
theorem ppsOutRise (cycle : Nat) : Statement (.ppsOutRise cycle) := fun h => nomatch h
theorem ppsOutFall : Statement .ppsOutFall := fun h => nomatch h
theorem claimArm (m : Fin 8) (arm solo unsyncedOk : Bool) : Statement (.claimArm m arm solo unsyncedOk) := fun h => nomatch h
theorem claimAttempt (cycle : Nat) : Statement (.claimAttempt cycle) := fun h => nomatch h
theorem claimed (cycle : Nat) : Statement (.claimed cycle) := fun h => nomatch h
theorem ilkInAssert : Statement (.ilkInAssert) := fun h => nomatch h
theorem ilkInDeassert (cycle : Nat) : Statement (.ilkInDeassert cycle) := fun h => nomatch h
theorem toPair (m : Fin 8) : Statement (.toPair m) := fun h => nomatch h
theorem interlockRelease (m : Fin 8) : Statement (.interlockRelease m) := fun h => nomatch h
theorem heartbeatLoss : Statement (.heartbeatLoss) := fun h => nomatch h
theorem helloTx : Statement (.helloTx) := fun h => nomatch h
theorem hello (ok : Bool) (frame : List Byte) : Statement (.hello ok frame) := fun h => nomatch h
theorem trig (ok : Bool) (frame : List Byte) : Statement (.trig ok frame) := fun h => nomatch h
theorem digest (ok : Bool) (frame : List Byte) (cycle : Nat) : Statement (.digest ok frame cycle) := fun h => nomatch h
theorem digestDeadline : Statement (.digestDeadline) := fun h => nomatch h
theorem req (ok : Bool) (frame : List Byte) : Statement (.req ok frame) := fun h => nomatch h
theorem journal (ok : Bool) (frame : List Byte) : Statement (.journal ok frame) := fun h => nomatch h
theorem snap (ok : Bool) (frame : List Byte) : Statement (.snap ok frame) := fun h => nomatch h
theorem catchUp (m : Fin 8) : Statement (.catchUp m) := fun h => nomatch h
theorem catchReq (ok : Bool) (frame : List Byte) : Statement (.catchReq ok frame) := fun h => nomatch h
theorem catchAck (ok : Bool) (frame : List Byte) : Statement (.catchAck ok frame) := fun h => nomatch h
theorem trapezeBulkDone : Statement (.trapezeBulkDone) := fun h => nomatch h
theorem trapezeCutInstalled : Statement (.trapezeCutInstalled) := fun h => nomatch h
theorem trapezeLateContext : Statement (.trapezeLateContext) := fun h => nomatch h
theorem ready (ok : Bool) (frame : List Byte) : Statement (.ready ok frame) := fun h => nomatch h
theorem syncAt (ok : Bool) (frame : List Byte) : Statement (.syncAt ok frame) := fun h => nomatch h
theorem result (ok : Bool) (frame : List Byte) : Statement (.result ok frame) := fun h => nomatch h
theorem mirrorAbort (ok : Bool) (frame : List Byte) : Statement (.mirrorAbort ok frame) := fun h => nomatch h
theorem abortCatch (m : Fin 8) : Statement (.abortCatch m) := fun h => nomatch h
theorem mirrorLinkDown : Statement (.mirrorLinkDown) := fun h => nomatch h
theorem mirrorRetrain (m : Fin 8) : Statement (.mirrorRetrain m) := fun h => nomatch h
theorem mirrorLaneRestore (m : Fin 8) (lanes : Fin 16) : Statement (.mirrorLaneRestore m lanes) := fun h => nomatch h
theorem mirrorLaneEnWrite (m : Fin 8) (en : Fin 16) : Statement (.mirrorLaneEnWrite m en) := fun h => nomatch h
theorem uncorrectableEcc (region : Fin 10) (addr : Word) (x : Nat) (reader : Option (Fin 8)) : Statement (.uncorrectableEcc region addr x reader) := fun h => nomatch h
theorem linkProbe (page : Fin 192) (inverts : Bool) : Statement (.linkProbe page inverts) := fun h => nomatch h
theorem pairEqual (page : Fin 192) (equal : Bool) : Statement (.pairEqual page equal) := fun h => nomatch h
theorem w1cClear (m : Fin 8) (addr value : Word) : Statement (.w1cClear m addr value) := fun _ => rfl
theorem fltFlush (m : Fin 8) (safetyEn force : Bool) : Statement (.fltFlush m safetyEn force) := fun h => nomatch h
theorem flushDone : Statement (.flushDone) := fun _ => rfl
theorem coldReset (m : Fin 8) (key : BitVec 16) (straps : Fin 16) (pll clear : Bool) : Statement (.coldReset m key straps pll clear) := fun _ => rfl
theorem warmReset (m : Fin 8) (key : BitVec 16) (clear : Bool) : Statement (.warmReset m key clear) := fun _ => rfl
theorem managementReset (m : Fin 8) (key : BitVec 16) (cycle : Nat) : Statement (.managementReset m key cycle) := fun _ => rfl
theorem mgmtResetDone : Statement (.mgmtResetDone) := fun _ => rfl
theorem resetN (ns : Nat) (straps : Fin 16) (pll clear : Bool) : Statement (.resetN ns straps pll clear) := fun _ => rfl
theorem pcieHotReset : Statement (.pcieHotReset) := fun h => nomatch h
theorem functionLevelReset : Statement (.functionLevelReset) := fun h => nomatch h
theorem pcieLinkDown : Statement (.pcieLinkDown) := fun h => nomatch h
theorem pciePerst (low : Bool) : Statement (.pciePerst low) := fun h => nomatch h
theorem softReset (m : Fin 8) (page : BitVec 14) (v : Word) : Statement (.softReset m page v) := fun h => nomatch h
theorem takeoverOpen (m : Fin 8) : Statement (.takeoverOpen m) := fun h => nomatch h
theorem takeoverGo (m : Fin 8) : Statement (.takeoverGo m) := fun h => nomatch h
theorem takeoverAdopt (m : Fin 8) : Statement (.takeoverAdopt m) := fun h => nomatch h
theorem takeoverAbandon (m : Fin 8) : Statement (.takeoverAbandon m) := fun h => nomatch h
theorem registerWrite (m : Fin 8) (addr value : Word) (en : Fin 16) (cycle : Nat) : Statement (.registerWrite m addr value en cycle) := fun _ => rfl
theorem lowWordRead (m : Fin 8) (addr : Word) (cycle : Nat) : Statement (.lowWordRead m addr cycle) := fun h => nomatch h
theorem decodeError (m : Fin 8) (write : Bool) (addr : Word) : Statement (.decodeError m write addr) := fun _ => rfl
theorem burstTruncate (m : Fin 8) (write : Bool) (addr : Word) (data : List Byte) : Statement (.burstTruncate m write addr data) := fun _ => rfl
theorem intForce (m : Fin 8) (page : BitVec 14) (value : Word) : Statement (.intForce m page value) := fun _ => rfl
theorem msixMessage : Statement (.msixMessage) := fun h => nomatch h
theorem vectorUnmask (m : Fin 8) (vec : Fin 64) : Statement (.vectorUnmask m vec) := fun _ => rfl
theorem alertResponse : Statement (.alertResponse) := fun h => nomatch h
theorem remap (m : Fin 8) (remap : Bool) : Statement (.remap m remap) := fun _ => rfl
theorem mramWrite (m : Fin 8) (off : Fin 33554432) (data : List Byte) : Statement (.mramWrite m off data) := fun h => nomatch h
theorem smbAddr (v : Word) (pec : Fin 3) : Statement (.smbAddr v pec) := fun h => nomatch h
theorem smbWrite (v : Word) (pec : Fin 3) : Statement (.smbWrite v pec) := fun _ => rfl
theorem smbRead : Statement (.smbRead) := fun h => nomatch h
theorem extest : Statement (.extest) := fun h => nomatch h
theorem idcode : Statement (.idcode) := fun h => nomatch h
theorem samplePreload : Statement (.samplePreload) := fun h => nomatch h
theorem clamp : Statement (.clamp) := fun h => nomatch h
theorem highz : Statement (.highz) := fun h => nomatch h
theorem extestPulse : Statement (.extestPulse) := fun h => nomatch h
theorem extestTrain : Statement (.extestTrain) := fun h => nomatch h
theorem bypass : Statement (.bypass) := fun h => nomatch h
theorem memacc (write go : Bool) (addr data : Word) : Statement (.memacc write go addr data) := fun _ => rfl
theorem jtagTrst : Statement (.jtagTrst) := fun h => nomatch h
theorem vinInvalid (b : Bool) (mv : BitVec 16) (cycle : Nat) : Statement (.vinInvalid b mv cycle) := fun h => nomatch h
theorem vinValid (b : Bool) (mv : BitVec 16) (cycle : Nat) : Statement (.vinValid b mv cycle) := fun h => nomatch h
theorem vinReturn (cycle : Nat) : Statement (.vinReturn cycle) := fun h => nomatch h
theorem testBWrite (m : Fin 8) (testB : Bool) : Statement (.testBWrite m testB) := fun h => nomatch h
theorem powerOnRestart (straps : Fin 16) (pll clear cool : Bool) : Statement (.powerOnRestart straps pll clear cool) := fun _ => rfl
theorem thermalEvaluation (samples : List (BitVec 16)) : Statement (.thermalEvaluation samples) := fun h => nomatch h
theorem sensorRetire (sensor : Fin 16) : Statement (.sensorRetire sensor) := fun h => nomatch h
theorem sensorRestore (m : Fin 8) (mask : BitVec 16) : Statement (.sensorRestore m mask) := fun h => nomatch h
theorem thermalAck (m : Fin 8) (floor : Fin 4) : Statement (.thermalAck m floor) := fun h => nomatch h
theorem swFloorWrite (m : Fin 8) (floor : Fin 4) : Statement (.swFloorWrite m floor) := fun h => nomatch h
theorem thmShutWrite (m : Fin 8) (v : Word) : Statement (.thmShutWrite m v) := fun h => nomatch h
theorem thermalShutdown (analog : Fin 4) : Statement (.thermalShutdown analog) := fun h => nomatch h
theorem thermalRestart (straps : Fin 16) (pll clear : Bool) : Statement (.thermalRestart straps pll clear) := fun _ => rfl
theorem pllLockLoss (cycle : Nat) : Statement (.pllLockLoss cycle) := fun h => nomatch h
theorem pllRelock (us cycle : Nat) : Statement (.pllRelock us cycle) := fun _ => rfl
theorem refclkLoss : Statement (.refclkLoss) := fun h => nomatch h
theorem wdclkLoss : Statement (.wdclkLoss) := fun h => nomatch h
theorem claimedFrame (ok : Bool) (frame : List Byte) : Statement (.claimedFrame ok frame) := fun h => nomatch h
theorem echoReq (seq : Byte) : Statement (.echoReq seq) := fun h => nomatch h
theorem pauseExpiry (port : Fin 66) (cycle : Nat) : Statement (.pauseExpiry port cycle) := fun h => nomatch h
theorem remoteFault (port : Fin 66) (present : Bool) : Statement (.remoteFault port present) := fun h => nomatch h
theorem pcieLinkChange (speed width : Fin 5) (msixEn maskAll : Bool) : Statement (.pcieLinkChange speed width msixEn maskAll) := fun h => nomatch h
theorem softResetDone (page : BitVec 14) : Statement (.softResetDone page) := fun _ => rfl
theorem wdclkReturn : Statement (.wdclkReturn) := fun h => nomatch h
theorem refclkReturn : Statement (.refclkReturn) := fun h => nomatch h
theorem pllUnlocked2ms : Statement (.pllUnlocked2ms) := fun h => nomatch h

end Sys2Proof.Laws.TickMoversMayStore
end

