-- ==== Sys2Proof/Laws/State.lean ====
section
/-! SUPPORT. What each named update leaves of every field of the state, and what a register reads as after one. -/

namespace Sys2Proof.Machine

set_option linter.all false
set_option Elab.async false

/-! ### Plain updates -/

@[simp] theorem State.setReg_force (s : State) (k : Nat) (v : Word) : (State.setReg s k v).force = s.force := rfl
@[simp] theorem State.setReg_mem (s : State) (k : Nat) (v : Word) : (State.setReg s k v).mem = s.mem := rfl
@[simp] theorem State.setReg_outs (s : State) (k : Nat) (v : Word) : (State.setReg s k v).outs = s.outs := rfl
@[simp] theorem State.setReg_fresh (s : State) (k : Nat) (v : Word) : (State.setReg s k v).fresh = s.fresh := rfl
@[simp] theorem State.setReg_bus (s : State) (k : Nat) (v : Word) : (State.setReg s k v).bus = s.bus := rfl
@[simp] theorem State.setReg_jtag (s : State) (k : Nat) (v : Word) : (State.setReg s k v).jtag = s.jtag := rfl
@[simp] theorem State.setReg_flt (s : State) (k : Nat) (v : Word) : (State.setReg s k v).flt = s.flt := rfl
@[simp] theorem State.setReg_rst (s : State) (k : Nat) (v : Word) : (State.setReg s k v).rst = s.rst := rfl
@[simp] theorem State.setReg_commits (s : State) (k : Nat) (v : Word) : (State.setReg s k v).commits = s.commits := rfl
@[simp] theorem State.setReg_ntu (s : State) (k : Nat) (v : Word) : (State.setReg s k v).ntu = s.ntu := rfl
@[simp] theorem State.setReg_tc (s : State) (k : Nat) (v : Word) : (State.setReg s k v).tc = s.tc := rfl
@[simp] theorem State.setReg_tck (s : State) (k : Nat) (v : Word) : (State.setReg s k v).tck = s.tck := rfl
@[simp] theorem State.setReg_ports (s : State) (k : Nat) (v : Word) : (State.setReg s k v).ports = s.ports := rfl
@[simp] theorem State.setReg_dsFrames (s : State) (k : Nat) (v : Word) : (State.setReg s k v).dsFrames = s.dsFrames := rfl
@[simp] theorem State.setReg_sense (s : State) (k : Nat) (v : Word) : (State.setReg s k v).sense = s.sense := rfl
@[simp] theorem State.setReg_drives (s : State) (k : Nat) (v : Word) : (State.setReg s k v).drives = s.drives := rfl
@[simp] theorem State.setReg_topo (s : State) (k : Nat) (v : Word) : (State.setReg s k v).topo = s.topo := rfl
@[simp] theorem State.setReg_topoBytes (s : State) (k : Nat) (v : Word) : (State.setReg s k v).topoBytes = s.topoBytes := rfl
@[simp] theorem State.setReg_topoLocked (s : State) (k : Nat) (v : Word) : (State.setReg s k v).topoLocked = s.topoLocked := rfl
@[simp] theorem State.setReg_bad (s : State) (k : Nat) (v : Word) : (State.setReg s k v).bad = s.bad := rfl
@[simp] theorem State.setReg_loops (s : State) (k : Nat) (v : Word) : (State.setReg s k v).loops = s.loops := rfl
@[simp] theorem State.setReg_prf (s : State) (k : Nat) (v : Word) : (State.setReg s k v).prf = s.prf := rfl
@[simp] theorem State.setReg_lpl (s : State) (k : Nat) (v : Word) : (State.setReg s k v).lpl = s.lpl := rfl
@[simp] theorem State.setReg_rce (s : State) (k : Nat) (v : Word) : (State.setReg s k v).rce = s.rce := rfl
@[simp] theorem State.setReg_crs (s : State) (k : Nat) (v : Word) : (State.setReg s k v).crs = s.crs := rfl
@[simp] theorem State.setReg_prt (s : State) (k : Nat) (v : Word) : (State.setReg s k v).prt = s.prt := rfl
@[simp] theorem State.setReg_rsv (s : State) (k : Nat) (v : Word) : (State.setReg s k v).rsv = s.rsv := rfl
@[simp] theorem State.setReg_evt (s : State) (k : Nat) (v : Word) : (State.setReg s k v).evt = s.evt := rfl
@[simp] theorem State.setReg_mea (s : State) (k : Nat) (v : Word) : (State.setReg s k v).mea = s.mea := rfl
@[simp] theorem State.setReg_cal (s : State) (k : Nat) (v : Word) : (State.setReg s k v).cal = s.cal := rfl
@[simp] theorem State.setReg_net (s : State) (k : Nat) (v : Word) : (State.setReg s k v).net = s.net := rfl
@[simp] theorem State.setReg_red (s : State) (k : Nat) (v : Word) : (State.setReg s k v).red = s.red := rfl
@[simp] theorem State.setReg_pwr (s : State) (k : Nat) (v : Word) : (State.setReg s k v).pwr = s.pwr := rfl
@[simp] theorem State.setReg_thm (s : State) (k : Nat) (v : Word) : (State.setReg s k v).thm = s.thm := rfl
@[simp] theorem State.setReg_off (s : State) (k : Nat) (v : Word) : (State.setReg s k v).off = s.off := rfl
@[simp] theorem State.setReg_pending (s : State) (k : Nat) (v : Word) : (State.setReg s k v).pending = s.pending := rfl
@[simp] theorem State.setRegN_force (s : State) (k v : Nat) : (State.setRegN s k v).force = s.force := rfl
@[simp] theorem State.setRegN_mem (s : State) (k v : Nat) : (State.setRegN s k v).mem = s.mem := rfl
@[simp] theorem State.setRegN_outs (s : State) (k v : Nat) : (State.setRegN s k v).outs = s.outs := rfl
@[simp] theorem State.setRegN_fresh (s : State) (k v : Nat) : (State.setRegN s k v).fresh = s.fresh := rfl
@[simp] theorem State.setRegN_bus (s : State) (k v : Nat) : (State.setRegN s k v).bus = s.bus := rfl
@[simp] theorem State.setRegN_jtag (s : State) (k v : Nat) : (State.setRegN s k v).jtag = s.jtag := rfl
@[simp] theorem State.setRegN_flt (s : State) (k v : Nat) : (State.setRegN s k v).flt = s.flt := rfl
@[simp] theorem State.setRegN_rst (s : State) (k v : Nat) : (State.setRegN s k v).rst = s.rst := rfl
@[simp] theorem State.setRegN_commits (s : State) (k v : Nat) : (State.setRegN s k v).commits = s.commits := rfl
@[simp] theorem State.setRegN_ntu (s : State) (k v : Nat) : (State.setRegN s k v).ntu = s.ntu := rfl
@[simp] theorem State.setRegN_tc (s : State) (k v : Nat) : (State.setRegN s k v).tc = s.tc := rfl
@[simp] theorem State.setRegN_tck (s : State) (k v : Nat) : (State.setRegN s k v).tck = s.tck := rfl
@[simp] theorem State.setRegN_ports (s : State) (k v : Nat) : (State.setRegN s k v).ports = s.ports := rfl
@[simp] theorem State.setRegN_dsFrames (s : State) (k v : Nat) : (State.setRegN s k v).dsFrames = s.dsFrames := rfl
@[simp] theorem State.setRegN_sense (s : State) (k v : Nat) : (State.setRegN s k v).sense = s.sense := rfl
@[simp] theorem State.setRegN_drives (s : State) (k v : Nat) : (State.setRegN s k v).drives = s.drives := rfl
@[simp] theorem State.setRegN_topo (s : State) (k v : Nat) : (State.setRegN s k v).topo = s.topo := rfl
@[simp] theorem State.setRegN_topoBytes (s : State) (k v : Nat) : (State.setRegN s k v).topoBytes = s.topoBytes := rfl
@[simp] theorem State.setRegN_topoLocked (s : State) (k v : Nat) : (State.setRegN s k v).topoLocked = s.topoLocked := rfl
@[simp] theorem State.setRegN_bad (s : State) (k v : Nat) : (State.setRegN s k v).bad = s.bad := rfl
@[simp] theorem State.setRegN_loops (s : State) (k v : Nat) : (State.setRegN s k v).loops = s.loops := rfl
@[simp] theorem State.setRegN_prf (s : State) (k v : Nat) : (State.setRegN s k v).prf = s.prf := rfl
@[simp] theorem State.setRegN_lpl (s : State) (k v : Nat) : (State.setRegN s k v).lpl = s.lpl := rfl
@[simp] theorem State.setRegN_rce (s : State) (k v : Nat) : (State.setRegN s k v).rce = s.rce := rfl
@[simp] theorem State.setRegN_crs (s : State) (k v : Nat) : (State.setRegN s k v).crs = s.crs := rfl
@[simp] theorem State.setRegN_prt (s : State) (k v : Nat) : (State.setRegN s k v).prt = s.prt := rfl
@[simp] theorem State.setRegN_rsv (s : State) (k v : Nat) : (State.setRegN s k v).rsv = s.rsv := rfl
@[simp] theorem State.setRegN_evt (s : State) (k v : Nat) : (State.setRegN s k v).evt = s.evt := rfl
@[simp] theorem State.setRegN_mea (s : State) (k v : Nat) : (State.setRegN s k v).mea = s.mea := rfl
@[simp] theorem State.setRegN_cal (s : State) (k v : Nat) : (State.setRegN s k v).cal = s.cal := rfl
@[simp] theorem State.setRegN_net (s : State) (k v : Nat) : (State.setRegN s k v).net = s.net := rfl
@[simp] theorem State.setRegN_red (s : State) (k v : Nat) : (State.setRegN s k v).red = s.red := rfl
@[simp] theorem State.setRegN_pwr (s : State) (k v : Nat) : (State.setRegN s k v).pwr = s.pwr := rfl
@[simp] theorem State.setRegN_thm (s : State) (k v : Nat) : (State.setRegN s k v).thm = s.thm := rfl
@[simp] theorem State.setRegN_off (s : State) (k v : Nat) : (State.setRegN s k v).off = s.off := rfl
@[simp] theorem State.setRegN_pending (s : State) (k v : Nat) : (State.setRegN s k v).pending = s.pending := rfl
@[simp] theorem State.setFld_force (s : State) (k lo len v : Nat) : (State.setFld s k lo len v).force = s.force := rfl
@[simp] theorem State.setFld_mem (s : State) (k lo len v : Nat) : (State.setFld s k lo len v).mem = s.mem := rfl
@[simp] theorem State.setFld_outs (s : State) (k lo len v : Nat) : (State.setFld s k lo len v).outs = s.outs := rfl
@[simp] theorem State.setFld_fresh (s : State) (k lo len v : Nat) : (State.setFld s k lo len v).fresh = s.fresh := rfl
@[simp] theorem State.setFld_bus (s : State) (k lo len v : Nat) : (State.setFld s k lo len v).bus = s.bus := rfl
@[simp] theorem State.setFld_jtag (s : State) (k lo len v : Nat) : (State.setFld s k lo len v).jtag = s.jtag := rfl
@[simp] theorem State.setFld_flt (s : State) (k lo len v : Nat) : (State.setFld s k lo len v).flt = s.flt := rfl
@[simp] theorem State.setFld_rst (s : State) (k lo len v : Nat) : (State.setFld s k lo len v).rst = s.rst := rfl
@[simp] theorem State.setFld_commits (s : State) (k lo len v : Nat) : (State.setFld s k lo len v).commits = s.commits := rfl
@[simp] theorem State.setFld_ntu (s : State) (k lo len v : Nat) : (State.setFld s k lo len v).ntu = s.ntu := rfl
@[simp] theorem State.setFld_tc (s : State) (k lo len v : Nat) : (State.setFld s k lo len v).tc = s.tc := rfl
@[simp] theorem State.setFld_tck (s : State) (k lo len v : Nat) : (State.setFld s k lo len v).tck = s.tck := rfl
@[simp] theorem State.setFld_ports (s : State) (k lo len v : Nat) : (State.setFld s k lo len v).ports = s.ports := rfl
@[simp] theorem State.setFld_dsFrames (s : State) (k lo len v : Nat) : (State.setFld s k lo len v).dsFrames = s.dsFrames := rfl
@[simp] theorem State.setFld_sense (s : State) (k lo len v : Nat) : (State.setFld s k lo len v).sense = s.sense := rfl
@[simp] theorem State.setFld_drives (s : State) (k lo len v : Nat) : (State.setFld s k lo len v).drives = s.drives := rfl
@[simp] theorem State.setFld_topo (s : State) (k lo len v : Nat) : (State.setFld s k lo len v).topo = s.topo := rfl
@[simp] theorem State.setFld_topoBytes (s : State) (k lo len v : Nat) : (State.setFld s k lo len v).topoBytes = s.topoBytes := rfl
@[simp] theorem State.setFld_topoLocked (s : State) (k lo len v : Nat) : (State.setFld s k lo len v).topoLocked = s.topoLocked := rfl
@[simp] theorem State.setFld_bad (s : State) (k lo len v : Nat) : (State.setFld s k lo len v).bad = s.bad := rfl
@[simp] theorem State.setFld_loops (s : State) (k lo len v : Nat) : (State.setFld s k lo len v).loops = s.loops := rfl
@[simp] theorem State.setFld_prf (s : State) (k lo len v : Nat) : (State.setFld s k lo len v).prf = s.prf := rfl
@[simp] theorem State.setFld_lpl (s : State) (k lo len v : Nat) : (State.setFld s k lo len v).lpl = s.lpl := rfl
@[simp] theorem State.setFld_rce (s : State) (k lo len v : Nat) : (State.setFld s k lo len v).rce = s.rce := rfl
@[simp] theorem State.setFld_crs (s : State) (k lo len v : Nat) : (State.setFld s k lo len v).crs = s.crs := rfl
@[simp] theorem State.setFld_prt (s : State) (k lo len v : Nat) : (State.setFld s k lo len v).prt = s.prt := rfl
@[simp] theorem State.setFld_rsv (s : State) (k lo len v : Nat) : (State.setFld s k lo len v).rsv = s.rsv := rfl
@[simp] theorem State.setFld_evt (s : State) (k lo len v : Nat) : (State.setFld s k lo len v).evt = s.evt := rfl
@[simp] theorem State.setFld_mea (s : State) (k lo len v : Nat) : (State.setFld s k lo len v).mea = s.mea := rfl
@[simp] theorem State.setFld_cal (s : State) (k lo len v : Nat) : (State.setFld s k lo len v).cal = s.cal := rfl
@[simp] theorem State.setFld_net (s : State) (k lo len v : Nat) : (State.setFld s k lo len v).net = s.net := rfl
@[simp] theorem State.setFld_red (s : State) (k lo len v : Nat) : (State.setFld s k lo len v).red = s.red := rfl
@[simp] theorem State.setFld_pwr (s : State) (k lo len v : Nat) : (State.setFld s k lo len v).pwr = s.pwr := rfl
@[simp] theorem State.setFld_thm (s : State) (k lo len v : Nat) : (State.setFld s k lo len v).thm = s.thm := rfl
@[simp] theorem State.setFld_off (s : State) (k lo len v : Nat) : (State.setFld s k lo len v).off = s.off := rfl
@[simp] theorem State.setFld_pending (s : State) (k lo len v : Nat) : (State.setFld s k lo len v).pending = s.pending := rfl
@[simp] theorem State.setBit_force (s : State) (k i : Nat) (b : Bool) : (State.setBit s k i b).force = s.force := rfl
@[simp] theorem State.setBit_mem (s : State) (k i : Nat) (b : Bool) : (State.setBit s k i b).mem = s.mem := rfl
@[simp] theorem State.setBit_outs (s : State) (k i : Nat) (b : Bool) : (State.setBit s k i b).outs = s.outs := rfl
@[simp] theorem State.setBit_fresh (s : State) (k i : Nat) (b : Bool) : (State.setBit s k i b).fresh = s.fresh := rfl
@[simp] theorem State.setBit_bus (s : State) (k i : Nat) (b : Bool) : (State.setBit s k i b).bus = s.bus := rfl
@[simp] theorem State.setBit_jtag (s : State) (k i : Nat) (b : Bool) : (State.setBit s k i b).jtag = s.jtag := rfl
@[simp] theorem State.setBit_flt (s : State) (k i : Nat) (b : Bool) : (State.setBit s k i b).flt = s.flt := rfl
@[simp] theorem State.setBit_rst (s : State) (k i : Nat) (b : Bool) : (State.setBit s k i b).rst = s.rst := rfl
@[simp] theorem State.setBit_commits (s : State) (k i : Nat) (b : Bool) : (State.setBit s k i b).commits = s.commits := rfl
@[simp] theorem State.setBit_ntu (s : State) (k i : Nat) (b : Bool) : (State.setBit s k i b).ntu = s.ntu := rfl
@[simp] theorem State.setBit_tc (s : State) (k i : Nat) (b : Bool) : (State.setBit s k i b).tc = s.tc := rfl
@[simp] theorem State.setBit_tck (s : State) (k i : Nat) (b : Bool) : (State.setBit s k i b).tck = s.tck := rfl
@[simp] theorem State.setBit_ports (s : State) (k i : Nat) (b : Bool) : (State.setBit s k i b).ports = s.ports := rfl
@[simp] theorem State.setBit_dsFrames (s : State) (k i : Nat) (b : Bool) : (State.setBit s k i b).dsFrames = s.dsFrames := rfl
@[simp] theorem State.setBit_sense (s : State) (k i : Nat) (b : Bool) : (State.setBit s k i b).sense = s.sense := rfl
@[simp] theorem State.setBit_drives (s : State) (k i : Nat) (b : Bool) : (State.setBit s k i b).drives = s.drives := rfl
@[simp] theorem State.setBit_topo (s : State) (k i : Nat) (b : Bool) : (State.setBit s k i b).topo = s.topo := rfl
@[simp] theorem State.setBit_topoBytes (s : State) (k i : Nat) (b : Bool) : (State.setBit s k i b).topoBytes = s.topoBytes := rfl
@[simp] theorem State.setBit_topoLocked (s : State) (k i : Nat) (b : Bool) : (State.setBit s k i b).topoLocked = s.topoLocked := rfl
@[simp] theorem State.setBit_bad (s : State) (k i : Nat) (b : Bool) : (State.setBit s k i b).bad = s.bad := rfl
@[simp] theorem State.setBit_loops (s : State) (k i : Nat) (b : Bool) : (State.setBit s k i b).loops = s.loops := rfl
@[simp] theorem State.setBit_prf (s : State) (k i : Nat) (b : Bool) : (State.setBit s k i b).prf = s.prf := rfl
@[simp] theorem State.setBit_lpl (s : State) (k i : Nat) (b : Bool) : (State.setBit s k i b).lpl = s.lpl := rfl
@[simp] theorem State.setBit_rce (s : State) (k i : Nat) (b : Bool) : (State.setBit s k i b).rce = s.rce := rfl
@[simp] theorem State.setBit_crs (s : State) (k i : Nat) (b : Bool) : (State.setBit s k i b).crs = s.crs := rfl
@[simp] theorem State.setBit_prt (s : State) (k i : Nat) (b : Bool) : (State.setBit s k i b).prt = s.prt := rfl
@[simp] theorem State.setBit_rsv (s : State) (k i : Nat) (b : Bool) : (State.setBit s k i b).rsv = s.rsv := rfl
@[simp] theorem State.setBit_evt (s : State) (k i : Nat) (b : Bool) : (State.setBit s k i b).evt = s.evt := rfl
@[simp] theorem State.setBit_mea (s : State) (k i : Nat) (b : Bool) : (State.setBit s k i b).mea = s.mea := rfl
@[simp] theorem State.setBit_cal (s : State) (k i : Nat) (b : Bool) : (State.setBit s k i b).cal = s.cal := rfl
@[simp] theorem State.setBit_net (s : State) (k i : Nat) (b : Bool) : (State.setBit s k i b).net = s.net := rfl
@[simp] theorem State.setBit_red (s : State) (k i : Nat) (b : Bool) : (State.setBit s k i b).red = s.red := rfl
@[simp] theorem State.setBit_pwr (s : State) (k i : Nat) (b : Bool) : (State.setBit s k i b).pwr = s.pwr := rfl
@[simp] theorem State.setBit_thm (s : State) (k i : Nat) (b : Bool) : (State.setBit s k i b).thm = s.thm := rfl
@[simp] theorem State.setBit_off (s : State) (k i : Nat) (b : Bool) : (State.setBit s k i b).off = s.off := rfl
@[simp] theorem State.setBit_pending (s : State) (k i : Nat) (b : Bool) : (State.setBit s k i b).pending = s.pending := rfl
@[simp] theorem State.setReg64_force (s : State) (k v : Nat) : (State.setReg64 s k v).force = s.force := rfl
@[simp] theorem State.setReg64_mem (s : State) (k v : Nat) : (State.setReg64 s k v).mem = s.mem := rfl
@[simp] theorem State.setReg64_outs (s : State) (k v : Nat) : (State.setReg64 s k v).outs = s.outs := rfl
@[simp] theorem State.setReg64_fresh (s : State) (k v : Nat) : (State.setReg64 s k v).fresh = s.fresh := rfl
@[simp] theorem State.setReg64_bus (s : State) (k v : Nat) : (State.setReg64 s k v).bus = s.bus := rfl
@[simp] theorem State.setReg64_jtag (s : State) (k v : Nat) : (State.setReg64 s k v).jtag = s.jtag := rfl
@[simp] theorem State.setReg64_flt (s : State) (k v : Nat) : (State.setReg64 s k v).flt = s.flt := rfl
@[simp] theorem State.setReg64_rst (s : State) (k v : Nat) : (State.setReg64 s k v).rst = s.rst := rfl
@[simp] theorem State.setReg64_commits (s : State) (k v : Nat) : (State.setReg64 s k v).commits = s.commits := rfl
@[simp] theorem State.setReg64_ntu (s : State) (k v : Nat) : (State.setReg64 s k v).ntu = s.ntu := rfl
@[simp] theorem State.setReg64_tc (s : State) (k v : Nat) : (State.setReg64 s k v).tc = s.tc := rfl
@[simp] theorem State.setReg64_tck (s : State) (k v : Nat) : (State.setReg64 s k v).tck = s.tck := rfl
@[simp] theorem State.setReg64_ports (s : State) (k v : Nat) : (State.setReg64 s k v).ports = s.ports := rfl
@[simp] theorem State.setReg64_dsFrames (s : State) (k v : Nat) : (State.setReg64 s k v).dsFrames = s.dsFrames := rfl
@[simp] theorem State.setReg64_sense (s : State) (k v : Nat) : (State.setReg64 s k v).sense = s.sense := rfl
@[simp] theorem State.setReg64_drives (s : State) (k v : Nat) : (State.setReg64 s k v).drives = s.drives := rfl
@[simp] theorem State.setReg64_topo (s : State) (k v : Nat) : (State.setReg64 s k v).topo = s.topo := rfl
@[simp] theorem State.setReg64_topoBytes (s : State) (k v : Nat) : (State.setReg64 s k v).topoBytes = s.topoBytes := rfl
@[simp] theorem State.setReg64_topoLocked (s : State) (k v : Nat) : (State.setReg64 s k v).topoLocked = s.topoLocked := rfl
@[simp] theorem State.setReg64_bad (s : State) (k v : Nat) : (State.setReg64 s k v).bad = s.bad := rfl
@[simp] theorem State.setReg64_loops (s : State) (k v : Nat) : (State.setReg64 s k v).loops = s.loops := rfl
@[simp] theorem State.setReg64_prf (s : State) (k v : Nat) : (State.setReg64 s k v).prf = s.prf := rfl
@[simp] theorem State.setReg64_lpl (s : State) (k v : Nat) : (State.setReg64 s k v).lpl = s.lpl := rfl
@[simp] theorem State.setReg64_rce (s : State) (k v : Nat) : (State.setReg64 s k v).rce = s.rce := rfl
@[simp] theorem State.setReg64_crs (s : State) (k v : Nat) : (State.setReg64 s k v).crs = s.crs := rfl
@[simp] theorem State.setReg64_prt (s : State) (k v : Nat) : (State.setReg64 s k v).prt = s.prt := rfl
@[simp] theorem State.setReg64_rsv (s : State) (k v : Nat) : (State.setReg64 s k v).rsv = s.rsv := rfl
@[simp] theorem State.setReg64_evt (s : State) (k v : Nat) : (State.setReg64 s k v).evt = s.evt := rfl
@[simp] theorem State.setReg64_mea (s : State) (k v : Nat) : (State.setReg64 s k v).mea = s.mea := rfl
@[simp] theorem State.setReg64_cal (s : State) (k v : Nat) : (State.setReg64 s k v).cal = s.cal := rfl
@[simp] theorem State.setReg64_net (s : State) (k v : Nat) : (State.setReg64 s k v).net = s.net := rfl
@[simp] theorem State.setReg64_red (s : State) (k v : Nat) : (State.setReg64 s k v).red = s.red := rfl
@[simp] theorem State.setReg64_pwr (s : State) (k v : Nat) : (State.setReg64 s k v).pwr = s.pwr := rfl
@[simp] theorem State.setReg64_thm (s : State) (k v : Nat) : (State.setReg64 s k v).thm = s.thm := rfl
@[simp] theorem State.setReg64_off (s : State) (k v : Nat) : (State.setReg64 s k v).off = s.off := rfl
@[simp] theorem State.setReg64_pending (s : State) (k v : Nat) : (State.setReg64 s k v).pending = s.pending := rfl
@[simp] theorem State.bump_force (s : State) (k lo len n : Nat) : (State.bump s k lo len n).force = s.force := rfl
@[simp] theorem State.bump_mem (s : State) (k lo len n : Nat) : (State.bump s k lo len n).mem = s.mem := rfl
@[simp] theorem State.bump_outs (s : State) (k lo len n : Nat) : (State.bump s k lo len n).outs = s.outs := rfl
@[simp] theorem State.bump_fresh (s : State) (k lo len n : Nat) : (State.bump s k lo len n).fresh = s.fresh := rfl
@[simp] theorem State.bump_bus (s : State) (k lo len n : Nat) : (State.bump s k lo len n).bus = s.bus := rfl
@[simp] theorem State.bump_jtag (s : State) (k lo len n : Nat) : (State.bump s k lo len n).jtag = s.jtag := rfl
@[simp] theorem State.bump_flt (s : State) (k lo len n : Nat) : (State.bump s k lo len n).flt = s.flt := rfl
@[simp] theorem State.bump_rst (s : State) (k lo len n : Nat) : (State.bump s k lo len n).rst = s.rst := rfl
@[simp] theorem State.bump_commits (s : State) (k lo len n : Nat) : (State.bump s k lo len n).commits = s.commits := rfl
@[simp] theorem State.bump_ntu (s : State) (k lo len n : Nat) : (State.bump s k lo len n).ntu = s.ntu := rfl
@[simp] theorem State.bump_tc (s : State) (k lo len n : Nat) : (State.bump s k lo len n).tc = s.tc := rfl
@[simp] theorem State.bump_tck (s : State) (k lo len n : Nat) : (State.bump s k lo len n).tck = s.tck := rfl
@[simp] theorem State.bump_ports (s : State) (k lo len n : Nat) : (State.bump s k lo len n).ports = s.ports := rfl
@[simp] theorem State.bump_dsFrames (s : State) (k lo len n : Nat) : (State.bump s k lo len n).dsFrames = s.dsFrames := rfl
@[simp] theorem State.bump_sense (s : State) (k lo len n : Nat) : (State.bump s k lo len n).sense = s.sense := rfl
@[simp] theorem State.bump_drives (s : State) (k lo len n : Nat) : (State.bump s k lo len n).drives = s.drives := rfl
@[simp] theorem State.bump_topo (s : State) (k lo len n : Nat) : (State.bump s k lo len n).topo = s.topo := rfl
@[simp] theorem State.bump_topoBytes (s : State) (k lo len n : Nat) : (State.bump s k lo len n).topoBytes = s.topoBytes := rfl
@[simp] theorem State.bump_topoLocked (s : State) (k lo len n : Nat) : (State.bump s k lo len n).topoLocked = s.topoLocked := rfl
@[simp] theorem State.bump_bad (s : State) (k lo len n : Nat) : (State.bump s k lo len n).bad = s.bad := rfl
@[simp] theorem State.bump_loops (s : State) (k lo len n : Nat) : (State.bump s k lo len n).loops = s.loops := rfl
@[simp] theorem State.bump_prf (s : State) (k lo len n : Nat) : (State.bump s k lo len n).prf = s.prf := rfl
@[simp] theorem State.bump_lpl (s : State) (k lo len n : Nat) : (State.bump s k lo len n).lpl = s.lpl := rfl
@[simp] theorem State.bump_rce (s : State) (k lo len n : Nat) : (State.bump s k lo len n).rce = s.rce := rfl
@[simp] theorem State.bump_crs (s : State) (k lo len n : Nat) : (State.bump s k lo len n).crs = s.crs := rfl
@[simp] theorem State.bump_prt (s : State) (k lo len n : Nat) : (State.bump s k lo len n).prt = s.prt := rfl
@[simp] theorem State.bump_rsv (s : State) (k lo len n : Nat) : (State.bump s k lo len n).rsv = s.rsv := rfl
@[simp] theorem State.bump_evt (s : State) (k lo len n : Nat) : (State.bump s k lo len n).evt = s.evt := rfl
@[simp] theorem State.bump_mea (s : State) (k lo len n : Nat) : (State.bump s k lo len n).mea = s.mea := rfl
@[simp] theorem State.bump_cal (s : State) (k lo len n : Nat) : (State.bump s k lo len n).cal = s.cal := rfl
@[simp] theorem State.bump_net (s : State) (k lo len n : Nat) : (State.bump s k lo len n).net = s.net := rfl
@[simp] theorem State.bump_red (s : State) (k lo len n : Nat) : (State.bump s k lo len n).red = s.red := rfl
@[simp] theorem State.bump_pwr (s : State) (k lo len n : Nat) : (State.bump s k lo len n).pwr = s.pwr := rfl
@[simp] theorem State.bump_thm (s : State) (k lo len n : Nat) : (State.bump s k lo len n).thm = s.thm := rfl
@[simp] theorem State.bump_off (s : State) (k lo len n : Nat) : (State.bump s k lo len n).off = s.off := rfl
@[simp] theorem State.bump_pending (s : State) (k lo len n : Nat) : (State.bump s k lo len n).pending = s.pending := rfl
@[simp] theorem State.count_force (s : State) (k : Nat) : (State.count s k).force = s.force := rfl
@[simp] theorem State.count_mem (s : State) (k : Nat) : (State.count s k).mem = s.mem := rfl
@[simp] theorem State.count_outs (s : State) (k : Nat) : (State.count s k).outs = s.outs := rfl
@[simp] theorem State.count_fresh (s : State) (k : Nat) : (State.count s k).fresh = s.fresh := rfl
@[simp] theorem State.count_bus (s : State) (k : Nat) : (State.count s k).bus = s.bus := rfl
@[simp] theorem State.count_jtag (s : State) (k : Nat) : (State.count s k).jtag = s.jtag := rfl
@[simp] theorem State.count_flt (s : State) (k : Nat) : (State.count s k).flt = s.flt := rfl
@[simp] theorem State.count_rst (s : State) (k : Nat) : (State.count s k).rst = s.rst := rfl
@[simp] theorem State.count_commits (s : State) (k : Nat) : (State.count s k).commits = s.commits := rfl
@[simp] theorem State.count_ntu (s : State) (k : Nat) : (State.count s k).ntu = s.ntu := rfl
@[simp] theorem State.count_tc (s : State) (k : Nat) : (State.count s k).tc = s.tc := rfl
@[simp] theorem State.count_tck (s : State) (k : Nat) : (State.count s k).tck = s.tck := rfl
@[simp] theorem State.count_ports (s : State) (k : Nat) : (State.count s k).ports = s.ports := rfl
@[simp] theorem State.count_dsFrames (s : State) (k : Nat) : (State.count s k).dsFrames = s.dsFrames := rfl
@[simp] theorem State.count_sense (s : State) (k : Nat) : (State.count s k).sense = s.sense := rfl
@[simp] theorem State.count_drives (s : State) (k : Nat) : (State.count s k).drives = s.drives := rfl
@[simp] theorem State.count_topo (s : State) (k : Nat) : (State.count s k).topo = s.topo := rfl
@[simp] theorem State.count_topoBytes (s : State) (k : Nat) : (State.count s k).topoBytes = s.topoBytes := rfl
@[simp] theorem State.count_topoLocked (s : State) (k : Nat) : (State.count s k).topoLocked = s.topoLocked := rfl
@[simp] theorem State.count_bad (s : State) (k : Nat) : (State.count s k).bad = s.bad := rfl
@[simp] theorem State.count_loops (s : State) (k : Nat) : (State.count s k).loops = s.loops := rfl
@[simp] theorem State.count_prf (s : State) (k : Nat) : (State.count s k).prf = s.prf := rfl
@[simp] theorem State.count_lpl (s : State) (k : Nat) : (State.count s k).lpl = s.lpl := rfl
@[simp] theorem State.count_rce (s : State) (k : Nat) : (State.count s k).rce = s.rce := rfl
@[simp] theorem State.count_crs (s : State) (k : Nat) : (State.count s k).crs = s.crs := rfl
@[simp] theorem State.count_prt (s : State) (k : Nat) : (State.count s k).prt = s.prt := rfl
@[simp] theorem State.count_rsv (s : State) (k : Nat) : (State.count s k).rsv = s.rsv := rfl
@[simp] theorem State.count_evt (s : State) (k : Nat) : (State.count s k).evt = s.evt := rfl
@[simp] theorem State.count_mea (s : State) (k : Nat) : (State.count s k).mea = s.mea := rfl
@[simp] theorem State.count_cal (s : State) (k : Nat) : (State.count s k).cal = s.cal := rfl
@[simp] theorem State.count_net (s : State) (k : Nat) : (State.count s k).net = s.net := rfl
@[simp] theorem State.count_red (s : State) (k : Nat) : (State.count s k).red = s.red := rfl
@[simp] theorem State.count_pwr (s : State) (k : Nat) : (State.count s k).pwr = s.pwr := rfl
@[simp] theorem State.count_thm (s : State) (k : Nat) : (State.count s k).thm = s.thm := rfl
@[simp] theorem State.count_off (s : State) (k : Nat) : (State.count s k).off = s.off := rfl
@[simp] theorem State.count_pending (s : State) (k : Nat) : (State.count s k).pending = s.pending := rfl
@[simp] theorem State.setForce_regs (s : State) (k : Nat) (v : Word) : (State.setForce s k v).regs = s.regs := rfl
@[simp] theorem State.setForce_mem (s : State) (k : Nat) (v : Word) : (State.setForce s k v).mem = s.mem := rfl
@[simp] theorem State.setForce_outs (s : State) (k : Nat) (v : Word) : (State.setForce s k v).outs = s.outs := rfl
@[simp] theorem State.setForce_fresh (s : State) (k : Nat) (v : Word) : (State.setForce s k v).fresh = s.fresh := rfl
@[simp] theorem State.setForce_bus (s : State) (k : Nat) (v : Word) : (State.setForce s k v).bus = s.bus := rfl
@[simp] theorem State.setForce_jtag (s : State) (k : Nat) (v : Word) : (State.setForce s k v).jtag = s.jtag := rfl
@[simp] theorem State.setForce_flt (s : State) (k : Nat) (v : Word) : (State.setForce s k v).flt = s.flt := rfl
@[simp] theorem State.setForce_rst (s : State) (k : Nat) (v : Word) : (State.setForce s k v).rst = s.rst := rfl
@[simp] theorem State.setForce_commits (s : State) (k : Nat) (v : Word) : (State.setForce s k v).commits = s.commits := rfl
@[simp] theorem State.setForce_ntu (s : State) (k : Nat) (v : Word) : (State.setForce s k v).ntu = s.ntu := rfl
@[simp] theorem State.setForce_tc (s : State) (k : Nat) (v : Word) : (State.setForce s k v).tc = s.tc := rfl
@[simp] theorem State.setForce_tck (s : State) (k : Nat) (v : Word) : (State.setForce s k v).tck = s.tck := rfl
@[simp] theorem State.setForce_ports (s : State) (k : Nat) (v : Word) : (State.setForce s k v).ports = s.ports := rfl
@[simp] theorem State.setForce_dsFrames (s : State) (k : Nat) (v : Word) : (State.setForce s k v).dsFrames = s.dsFrames := rfl
@[simp] theorem State.setForce_sense (s : State) (k : Nat) (v : Word) : (State.setForce s k v).sense = s.sense := rfl
@[simp] theorem State.setForce_drives (s : State) (k : Nat) (v : Word) : (State.setForce s k v).drives = s.drives := rfl
@[simp] theorem State.setForce_topo (s : State) (k : Nat) (v : Word) : (State.setForce s k v).topo = s.topo := rfl
@[simp] theorem State.setForce_topoBytes (s : State) (k : Nat) (v : Word) : (State.setForce s k v).topoBytes = s.topoBytes := rfl
@[simp] theorem State.setForce_topoLocked (s : State) (k : Nat) (v : Word) : (State.setForce s k v).topoLocked = s.topoLocked := rfl
@[simp] theorem State.setForce_bad (s : State) (k : Nat) (v : Word) : (State.setForce s k v).bad = s.bad := rfl
@[simp] theorem State.setForce_loops (s : State) (k : Nat) (v : Word) : (State.setForce s k v).loops = s.loops := rfl
@[simp] theorem State.setForce_prf (s : State) (k : Nat) (v : Word) : (State.setForce s k v).prf = s.prf := rfl
@[simp] theorem State.setForce_lpl (s : State) (k : Nat) (v : Word) : (State.setForce s k v).lpl = s.lpl := rfl
@[simp] theorem State.setForce_rce (s : State) (k : Nat) (v : Word) : (State.setForce s k v).rce = s.rce := rfl
@[simp] theorem State.setForce_crs (s : State) (k : Nat) (v : Word) : (State.setForce s k v).crs = s.crs := rfl
@[simp] theorem State.setForce_prt (s : State) (k : Nat) (v : Word) : (State.setForce s k v).prt = s.prt := rfl
@[simp] theorem State.setForce_rsv (s : State) (k : Nat) (v : Word) : (State.setForce s k v).rsv = s.rsv := rfl
@[simp] theorem State.setForce_evt (s : State) (k : Nat) (v : Word) : (State.setForce s k v).evt = s.evt := rfl
@[simp] theorem State.setForce_mea (s : State) (k : Nat) (v : Word) : (State.setForce s k v).mea = s.mea := rfl
@[simp] theorem State.setForce_cal (s : State) (k : Nat) (v : Word) : (State.setForce s k v).cal = s.cal := rfl
@[simp] theorem State.setForce_net (s : State) (k : Nat) (v : Word) : (State.setForce s k v).net = s.net := rfl
@[simp] theorem State.setForce_red (s : State) (k : Nat) (v : Word) : (State.setForce s k v).red = s.red := rfl
@[simp] theorem State.setForce_pwr (s : State) (k : Nat) (v : Word) : (State.setForce s k v).pwr = s.pwr := rfl
@[simp] theorem State.setForce_thm (s : State) (k : Nat) (v : Word) : (State.setForce s k v).thm = s.thm := rfl
@[simp] theorem State.setForce_off (s : State) (k : Nat) (v : Word) : (State.setForce s k v).off = s.off := rfl
@[simp] theorem State.setForce_pending (s : State) (k : Nat) (v : Word) : (State.setForce s k v).pending = s.pending := rfl
@[simp] theorem State.setByte_regs (s : State) (a : Nat) (b : Byte) : (State.setByte s a b).regs = s.regs := rfl
@[simp] theorem State.setByte_force (s : State) (a : Nat) (b : Byte) : (State.setByte s a b).force = s.force := rfl
@[simp] theorem State.setByte_outs (s : State) (a : Nat) (b : Byte) : (State.setByte s a b).outs = s.outs := rfl
@[simp] theorem State.setByte_fresh (s : State) (a : Nat) (b : Byte) : (State.setByte s a b).fresh = s.fresh := rfl
@[simp] theorem State.setByte_bus (s : State) (a : Nat) (b : Byte) : (State.setByte s a b).bus = s.bus := rfl
@[simp] theorem State.setByte_jtag (s : State) (a : Nat) (b : Byte) : (State.setByte s a b).jtag = s.jtag := rfl
@[simp] theorem State.setByte_flt (s : State) (a : Nat) (b : Byte) : (State.setByte s a b).flt = s.flt := rfl
@[simp] theorem State.setByte_rst (s : State) (a : Nat) (b : Byte) : (State.setByte s a b).rst = s.rst := rfl
@[simp] theorem State.setByte_commits (s : State) (a : Nat) (b : Byte) : (State.setByte s a b).commits = s.commits := rfl
@[simp] theorem State.setByte_ntu (s : State) (a : Nat) (b : Byte) : (State.setByte s a b).ntu = s.ntu := rfl
@[simp] theorem State.setByte_tc (s : State) (a : Nat) (b : Byte) : (State.setByte s a b).tc = s.tc := rfl
@[simp] theorem State.setByte_tck (s : State) (a : Nat) (b : Byte) : (State.setByte s a b).tck = s.tck := rfl
@[simp] theorem State.setByte_ports (s : State) (a : Nat) (b : Byte) : (State.setByte s a b).ports = s.ports := rfl
@[simp] theorem State.setByte_dsFrames (s : State) (a : Nat) (b : Byte) : (State.setByte s a b).dsFrames = s.dsFrames := rfl
@[simp] theorem State.setByte_sense (s : State) (a : Nat) (b : Byte) : (State.setByte s a b).sense = s.sense := rfl
@[simp] theorem State.setByte_drives (s : State) (a : Nat) (b : Byte) : (State.setByte s a b).drives = s.drives := rfl
@[simp] theorem State.setByte_topo (s : State) (a : Nat) (b : Byte) : (State.setByte s a b).topo = s.topo := rfl
@[simp] theorem State.setByte_topoBytes (s : State) (a : Nat) (b : Byte) : (State.setByte s a b).topoBytes = s.topoBytes := rfl
@[simp] theorem State.setByte_topoLocked (s : State) (a : Nat) (b : Byte) : (State.setByte s a b).topoLocked = s.topoLocked := rfl
@[simp] theorem State.setByte_bad (s : State) (a : Nat) (b : Byte) : (State.setByte s a b).bad = s.bad := rfl
@[simp] theorem State.setByte_loops (s : State) (a : Nat) (b : Byte) : (State.setByte s a b).loops = s.loops := rfl
@[simp] theorem State.setByte_prf (s : State) (a : Nat) (b : Byte) : (State.setByte s a b).prf = s.prf := rfl
@[simp] theorem State.setByte_lpl (s : State) (a : Nat) (b : Byte) : (State.setByte s a b).lpl = s.lpl := rfl
@[simp] theorem State.setByte_rce (s : State) (a : Nat) (b : Byte) : (State.setByte s a b).rce = s.rce := rfl
@[simp] theorem State.setByte_crs (s : State) (a : Nat) (b : Byte) : (State.setByte s a b).crs = s.crs := rfl
@[simp] theorem State.setByte_prt (s : State) (a : Nat) (b : Byte) : (State.setByte s a b).prt = s.prt := rfl
@[simp] theorem State.setByte_rsv (s : State) (a : Nat) (b : Byte) : (State.setByte s a b).rsv = s.rsv := rfl
@[simp] theorem State.setByte_evt (s : State) (a : Nat) (b : Byte) : (State.setByte s a b).evt = s.evt := rfl
@[simp] theorem State.setByte_mea (s : State) (a : Nat) (b : Byte) : (State.setByte s a b).mea = s.mea := rfl
@[simp] theorem State.setByte_cal (s : State) (a : Nat) (b : Byte) : (State.setByte s a b).cal = s.cal := rfl
@[simp] theorem State.setByte_net (s : State) (a : Nat) (b : Byte) : (State.setByte s a b).net = s.net := rfl
@[simp] theorem State.setByte_red (s : State) (a : Nat) (b : Byte) : (State.setByte s a b).red = s.red := rfl
@[simp] theorem State.setByte_pwr (s : State) (a : Nat) (b : Byte) : (State.setByte s a b).pwr = s.pwr := rfl
@[simp] theorem State.setByte_thm (s : State) (a : Nat) (b : Byte) : (State.setByte s a b).thm = s.thm := rfl
@[simp] theorem State.setByte_off (s : State) (a : Nat) (b : Byte) : (State.setByte s a b).off = s.off := rfl
@[simp] theorem State.setByte_pending (s : State) (a : Nat) (b : Byte) : (State.setByte s a b).pending = s.pending := rfl
@[simp] theorem State.emit_regs (s : State) (o : Out) : (State.emit s o).regs = s.regs := rfl
@[simp] theorem State.emit_force (s : State) (o : Out) : (State.emit s o).force = s.force := rfl
@[simp] theorem State.emit_mem (s : State) (o : Out) : (State.emit s o).mem = s.mem := rfl
@[simp] theorem State.emit_fresh (s : State) (o : Out) : (State.emit s o).fresh = s.fresh := rfl
@[simp] theorem State.emit_bus (s : State) (o : Out) : (State.emit s o).bus = s.bus := rfl
@[simp] theorem State.emit_jtag (s : State) (o : Out) : (State.emit s o).jtag = s.jtag := rfl
@[simp] theorem State.emit_flt (s : State) (o : Out) : (State.emit s o).flt = s.flt := rfl
@[simp] theorem State.emit_rst (s : State) (o : Out) : (State.emit s o).rst = s.rst := rfl
@[simp] theorem State.emit_commits (s : State) (o : Out) : (State.emit s o).commits = s.commits := rfl
@[simp] theorem State.emit_ntu (s : State) (o : Out) : (State.emit s o).ntu = s.ntu := rfl
@[simp] theorem State.emit_tc (s : State) (o : Out) : (State.emit s o).tc = s.tc := rfl
@[simp] theorem State.emit_tck (s : State) (o : Out) : (State.emit s o).tck = s.tck := rfl
@[simp] theorem State.emit_ports (s : State) (o : Out) : (State.emit s o).ports = s.ports := rfl
@[simp] theorem State.emit_dsFrames (s : State) (o : Out) : (State.emit s o).dsFrames = s.dsFrames := rfl
@[simp] theorem State.emit_sense (s : State) (o : Out) : (State.emit s o).sense = s.sense := rfl
@[simp] theorem State.emit_drives (s : State) (o : Out) : (State.emit s o).drives = s.drives := rfl
@[simp] theorem State.emit_topo (s : State) (o : Out) : (State.emit s o).topo = s.topo := rfl
@[simp] theorem State.emit_topoBytes (s : State) (o : Out) : (State.emit s o).topoBytes = s.topoBytes := rfl
@[simp] theorem State.emit_topoLocked (s : State) (o : Out) : (State.emit s o).topoLocked = s.topoLocked := rfl
@[simp] theorem State.emit_bad (s : State) (o : Out) : (State.emit s o).bad = s.bad := rfl
@[simp] theorem State.emit_loops (s : State) (o : Out) : (State.emit s o).loops = s.loops := rfl
@[simp] theorem State.emit_prf (s : State) (o : Out) : (State.emit s o).prf = s.prf := rfl
@[simp] theorem State.emit_lpl (s : State) (o : Out) : (State.emit s o).lpl = s.lpl := rfl
@[simp] theorem State.emit_rce (s : State) (o : Out) : (State.emit s o).rce = s.rce := rfl
@[simp] theorem State.emit_crs (s : State) (o : Out) : (State.emit s o).crs = s.crs := rfl
@[simp] theorem State.emit_prt (s : State) (o : Out) : (State.emit s o).prt = s.prt := rfl
@[simp] theorem State.emit_rsv (s : State) (o : Out) : (State.emit s o).rsv = s.rsv := rfl
@[simp] theorem State.emit_evt (s : State) (o : Out) : (State.emit s o).evt = s.evt := rfl
@[simp] theorem State.emit_mea (s : State) (o : Out) : (State.emit s o).mea = s.mea := rfl
@[simp] theorem State.emit_cal (s : State) (o : Out) : (State.emit s o).cal = s.cal := rfl
@[simp] theorem State.emit_net (s : State) (o : Out) : (State.emit s o).net = s.net := rfl
@[simp] theorem State.emit_red (s : State) (o : Out) : (State.emit s o).red = s.red := rfl
@[simp] theorem State.emit_pwr (s : State) (o : Out) : (State.emit s o).pwr = s.pwr := rfl
@[simp] theorem State.emit_thm (s : State) (o : Out) : (State.emit s o).thm = s.thm := rfl
@[simp] theorem State.emit_off (s : State) (o : Out) : (State.emit s o).off = s.off := rfl
@[simp] theorem State.emit_pending (s : State) (o : Out) : (State.emit s o).pending = s.pending := rfl
@[simp] theorem State.tick1_regs (s : State) : (State.tick1 s).regs = s.regs := rfl
@[simp] theorem State.tick1_force (s : State) : (State.tick1 s).force = s.force := rfl
@[simp] theorem State.tick1_mem (s : State) : (State.tick1 s).mem = s.mem := rfl
@[simp] theorem State.tick1_outs (s : State) : (State.tick1 s).outs = s.outs := rfl
@[simp] theorem State.tick1_bus (s : State) : (State.tick1 s).bus = s.bus := rfl
@[simp] theorem State.tick1_jtag (s : State) : (State.tick1 s).jtag = s.jtag := rfl
@[simp] theorem State.tick1_flt (s : State) : (State.tick1 s).flt = s.flt := rfl
@[simp] theorem State.tick1_rst (s : State) : (State.tick1 s).rst = s.rst := rfl
@[simp] theorem State.tick1_commits (s : State) : (State.tick1 s).commits = s.commits := rfl
@[simp] theorem State.tick1_ntu (s : State) : (State.tick1 s).ntu = s.ntu := rfl
@[simp] theorem State.tick1_tc (s : State) : (State.tick1 s).tc = s.tc := rfl
@[simp] theorem State.tick1_tck (s : State) : (State.tick1 s).tck = s.tck := rfl
@[simp] theorem State.tick1_ports (s : State) : (State.tick1 s).ports = s.ports := rfl
@[simp] theorem State.tick1_dsFrames (s : State) : (State.tick1 s).dsFrames = s.dsFrames := rfl
@[simp] theorem State.tick1_sense (s : State) : (State.tick1 s).sense = s.sense := rfl
@[simp] theorem State.tick1_drives (s : State) : (State.tick1 s).drives = s.drives := rfl
@[simp] theorem State.tick1_topo (s : State) : (State.tick1 s).topo = s.topo := rfl
@[simp] theorem State.tick1_topoBytes (s : State) : (State.tick1 s).topoBytes = s.topoBytes := rfl
@[simp] theorem State.tick1_topoLocked (s : State) : (State.tick1 s).topoLocked = s.topoLocked := rfl
@[simp] theorem State.tick1_bad (s : State) : (State.tick1 s).bad = s.bad := rfl
@[simp] theorem State.tick1_loops (s : State) : (State.tick1 s).loops = s.loops := rfl
@[simp] theorem State.tick1_prf (s : State) : (State.tick1 s).prf = s.prf := rfl
@[simp] theorem State.tick1_lpl (s : State) : (State.tick1 s).lpl = s.lpl := rfl
@[simp] theorem State.tick1_rce (s : State) : (State.tick1 s).rce = s.rce := rfl
@[simp] theorem State.tick1_crs (s : State) : (State.tick1 s).crs = s.crs := rfl
@[simp] theorem State.tick1_prt (s : State) : (State.tick1 s).prt = s.prt := rfl
@[simp] theorem State.tick1_rsv (s : State) : (State.tick1 s).rsv = s.rsv := rfl
@[simp] theorem State.tick1_evt (s : State) : (State.tick1 s).evt = s.evt := rfl
@[simp] theorem State.tick1_mea (s : State) : (State.tick1 s).mea = s.mea := rfl
@[simp] theorem State.tick1_cal (s : State) : (State.tick1 s).cal = s.cal := rfl
@[simp] theorem State.tick1_net (s : State) : (State.tick1 s).net = s.net := rfl
@[simp] theorem State.tick1_red (s : State) : (State.tick1 s).red = s.red := rfl
@[simp] theorem State.tick1_pwr (s : State) : (State.tick1 s).pwr = s.pwr := rfl
@[simp] theorem State.tick1_thm (s : State) : (State.tick1 s).thm = s.thm := rfl
@[simp] theorem State.tick1_off (s : State) : (State.tick1 s).off = s.off := rfl
@[simp] theorem State.tick1_pending (s : State) : (State.tick1 s).pending = s.pending := rfl
@[simp] theorem State.atCycle_regs (s : State) (c : Nat) : (State.atCycle s c).regs = s.regs := rfl
@[simp] theorem State.atCycle_force (s : State) (c : Nat) : (State.atCycle s c).force = s.force := rfl
@[simp] theorem State.atCycle_mem (s : State) (c : Nat) : (State.atCycle s c).mem = s.mem := rfl
@[simp] theorem State.atCycle_outs (s : State) (c : Nat) : (State.atCycle s c).outs = s.outs := rfl
@[simp] theorem State.atCycle_fresh (s : State) (c : Nat) : (State.atCycle s c).fresh = s.fresh := rfl
@[simp] theorem State.atCycle_bus (s : State) (c : Nat) : (State.atCycle s c).bus = s.bus := rfl
@[simp] theorem State.atCycle_jtag (s : State) (c : Nat) : (State.atCycle s c).jtag = s.jtag := rfl
@[simp] theorem State.atCycle_flt (s : State) (c : Nat) : (State.atCycle s c).flt = s.flt := rfl
@[simp] theorem State.atCycle_rst (s : State) (c : Nat) : (State.atCycle s c).rst = s.rst := rfl
@[simp] theorem State.atCycle_commits (s : State) (c : Nat) : (State.atCycle s c).commits = s.commits := rfl
@[simp] theorem State.atCycle_tc (s : State) (c : Nat) : (State.atCycle s c).tc = s.tc := rfl
@[simp] theorem State.atCycle_tck (s : State) (c : Nat) : (State.atCycle s c).tck = s.tck := rfl
@[simp] theorem State.atCycle_ports (s : State) (c : Nat) : (State.atCycle s c).ports = s.ports := rfl
@[simp] theorem State.atCycle_dsFrames (s : State) (c : Nat) : (State.atCycle s c).dsFrames = s.dsFrames := rfl
@[simp] theorem State.atCycle_sense (s : State) (c : Nat) : (State.atCycle s c).sense = s.sense := rfl
@[simp] theorem State.atCycle_drives (s : State) (c : Nat) : (State.atCycle s c).drives = s.drives := rfl
@[simp] theorem State.atCycle_topo (s : State) (c : Nat) : (State.atCycle s c).topo = s.topo := rfl
@[simp] theorem State.atCycle_topoBytes (s : State) (c : Nat) : (State.atCycle s c).topoBytes = s.topoBytes := rfl
@[simp] theorem State.atCycle_topoLocked (s : State) (c : Nat) : (State.atCycle s c).topoLocked = s.topoLocked := rfl
@[simp] theorem State.atCycle_bad (s : State) (c : Nat) : (State.atCycle s c).bad = s.bad := rfl
@[simp] theorem State.atCycle_loops (s : State) (c : Nat) : (State.atCycle s c).loops = s.loops := rfl
@[simp] theorem State.atCycle_prf (s : State) (c : Nat) : (State.atCycle s c).prf = s.prf := rfl
@[simp] theorem State.atCycle_lpl (s : State) (c : Nat) : (State.atCycle s c).lpl = s.lpl := rfl
@[simp] theorem State.atCycle_rce (s : State) (c : Nat) : (State.atCycle s c).rce = s.rce := rfl
@[simp] theorem State.atCycle_crs (s : State) (c : Nat) : (State.atCycle s c).crs = s.crs := rfl
@[simp] theorem State.atCycle_prt (s : State) (c : Nat) : (State.atCycle s c).prt = s.prt := rfl
@[simp] theorem State.atCycle_rsv (s : State) (c : Nat) : (State.atCycle s c).rsv = s.rsv := rfl
@[simp] theorem State.atCycle_evt (s : State) (c : Nat) : (State.atCycle s c).evt = s.evt := rfl
@[simp] theorem State.atCycle_mea (s : State) (c : Nat) : (State.atCycle s c).mea = s.mea := rfl
@[simp] theorem State.atCycle_cal (s : State) (c : Nat) : (State.atCycle s c).cal = s.cal := rfl
@[simp] theorem State.atCycle_net (s : State) (c : Nat) : (State.atCycle s c).net = s.net := rfl
@[simp] theorem State.atCycle_red (s : State) (c : Nat) : (State.atCycle s c).red = s.red := rfl
@[simp] theorem State.atCycle_pwr (s : State) (c : Nat) : (State.atCycle s c).pwr = s.pwr := rfl
@[simp] theorem State.atCycle_thm (s : State) (c : Nat) : (State.atCycle s c).thm = s.thm := rfl
@[simp] theorem State.atCycle_off (s : State) (c : Nat) : (State.atCycle s c).off = s.off := rfl
@[simp] theorem State.atCycle_pending (s : State) (c : Nat) : (State.atCycle s c).pending = s.pending := rfl

/-- Time either goes on to the cycle of the event or stays. -/
theorem State.comes_eq (s : State) (start : BitVec 96) (len : Nat) :
    s.comes start len = s.atCycle (s.ntu.cyc + (len - s.gone start + 65535) / 65536) ∨ s.comes start len = s := by
  unfold State.comes
  dsimp only
  repeat' split
  all_goals first | exact .inl rfl | exact .inr rfl

@[simp] theorem State.comes_regs (s : State) (f : BitVec 96) (n : Nat) : (s.comes f n).regs = s.regs := by
  rcases s.comes_eq f n with h | h <;> rw [h] <;> rfl
@[simp] theorem State.comes_force (s : State) (f : BitVec 96) (n : Nat) : (s.comes f n).force = s.force := by
  rcases s.comes_eq f n with h | h <;> rw [h] <;> rfl
@[simp] theorem State.comes_mem (s : State) (f : BitVec 96) (n : Nat) : (s.comes f n).mem = s.mem := by
  rcases s.comes_eq f n with h | h <;> rw [h] <;> rfl
@[simp] theorem State.comes_outs (s : State) (f : BitVec 96) (n : Nat) : (s.comes f n).outs = s.outs := by
  rcases s.comes_eq f n with h | h <;> rw [h] <;> rfl
@[simp] theorem State.comes_fresh (s : State) (f : BitVec 96) (n : Nat) : (s.comes f n).fresh = s.fresh := by
  rcases s.comes_eq f n with h | h <;> rw [h] <;> rfl
@[simp] theorem State.comes_bus (s : State) (f : BitVec 96) (n : Nat) : (s.comes f n).bus = s.bus := by
  rcases s.comes_eq f n with h | h <;> rw [h] <;> rfl
@[simp] theorem State.comes_jtag (s : State) (f : BitVec 96) (n : Nat) : (s.comes f n).jtag = s.jtag := by
  rcases s.comes_eq f n with h | h <;> rw [h] <;> rfl
@[simp] theorem State.comes_flt (s : State) (f : BitVec 96) (n : Nat) : (s.comes f n).flt = s.flt := by
  rcases s.comes_eq f n with h | h <;> rw [h] <;> rfl
@[simp] theorem State.comes_rst (s : State) (f : BitVec 96) (n : Nat) : (s.comes f n).rst = s.rst := by
  rcases s.comes_eq f n with h | h <;> rw [h] <;> rfl
@[simp] theorem State.comes_commits (s : State) (f : BitVec 96) (n : Nat) : (s.comes f n).commits = s.commits := by
  rcases s.comes_eq f n with h | h <;> rw [h] <;> rfl
@[simp] theorem State.comes_tc (s : State) (f : BitVec 96) (n : Nat) : (s.comes f n).tc = s.tc := by
  rcases s.comes_eq f n with h | h <;> rw [h] <;> rfl
@[simp] theorem State.comes_tck (s : State) (f : BitVec 96) (n : Nat) : (s.comes f n).tck = s.tck := by
  rcases s.comes_eq f n with h | h <;> rw [h] <;> rfl
@[simp] theorem State.comes_ports (s : State) (f : BitVec 96) (n : Nat) : (s.comes f n).ports = s.ports := by
  rcases s.comes_eq f n with h | h <;> rw [h] <;> rfl
@[simp] theorem State.comes_dsFrames (s : State) (f : BitVec 96) (n : Nat) : (s.comes f n).dsFrames = s.dsFrames := by
  rcases s.comes_eq f n with h | h <;> rw [h] <;> rfl
@[simp] theorem State.comes_sense (s : State) (f : BitVec 96) (n : Nat) : (s.comes f n).sense = s.sense := by
  rcases s.comes_eq f n with h | h <;> rw [h] <;> rfl
@[simp] theorem State.comes_drives (s : State) (f : BitVec 96) (n : Nat) : (s.comes f n).drives = s.drives := by
  rcases s.comes_eq f n with h | h <;> rw [h] <;> rfl
@[simp] theorem State.comes_topo (s : State) (f : BitVec 96) (n : Nat) : (s.comes f n).topo = s.topo := by
  rcases s.comes_eq f n with h | h <;> rw [h] <;> rfl
@[simp] theorem State.comes_topoBytes (s : State) (f : BitVec 96) (n : Nat) : (s.comes f n).topoBytes = s.topoBytes := by
  rcases s.comes_eq f n with h | h <;> rw [h] <;> rfl
@[simp] theorem State.comes_topoLocked (s : State) (f : BitVec 96) (n : Nat) : (s.comes f n).topoLocked = s.topoLocked := by
  rcases s.comes_eq f n with h | h <;> rw [h] <;> rfl
@[simp] theorem State.comes_bad (s : State) (f : BitVec 96) (n : Nat) : (s.comes f n).bad = s.bad := by
  rcases s.comes_eq f n with h | h <;> rw [h] <;> rfl
@[simp] theorem State.comes_loops (s : State) (f : BitVec 96) (n : Nat) : (s.comes f n).loops = s.loops := by
  rcases s.comes_eq f n with h | h <;> rw [h] <;> rfl
@[simp] theorem State.comes_prf (s : State) (f : BitVec 96) (n : Nat) : (s.comes f n).prf = s.prf := by
  rcases s.comes_eq f n with h | h <;> rw [h] <;> rfl
@[simp] theorem State.comes_lpl (s : State) (f : BitVec 96) (n : Nat) : (s.comes f n).lpl = s.lpl := by
  rcases s.comes_eq f n with h | h <;> rw [h] <;> rfl
@[simp] theorem State.comes_rce (s : State) (f : BitVec 96) (n : Nat) : (s.comes f n).rce = s.rce := by
  rcases s.comes_eq f n with h | h <;> rw [h] <;> rfl
@[simp] theorem State.comes_crs (s : State) (f : BitVec 96) (n : Nat) : (s.comes f n).crs = s.crs := by
  rcases s.comes_eq f n with h | h <;> rw [h] <;> rfl
@[simp] theorem State.comes_prt (s : State) (f : BitVec 96) (n : Nat) : (s.comes f n).prt = s.prt := by
  rcases s.comes_eq f n with h | h <;> rw [h] <;> rfl
@[simp] theorem State.comes_rsv (s : State) (f : BitVec 96) (n : Nat) : (s.comes f n).rsv = s.rsv := by
  rcases s.comes_eq f n with h | h <;> rw [h] <;> rfl
@[simp] theorem State.comes_evt (s : State) (f : BitVec 96) (n : Nat) : (s.comes f n).evt = s.evt := by
  rcases s.comes_eq f n with h | h <;> rw [h] <;> rfl
@[simp] theorem State.comes_mea (s : State) (f : BitVec 96) (n : Nat) : (s.comes f n).mea = s.mea := by
  rcases s.comes_eq f n with h | h <;> rw [h] <;> rfl
@[simp] theorem State.comes_cal (s : State) (f : BitVec 96) (n : Nat) : (s.comes f n).cal = s.cal := by
  rcases s.comes_eq f n with h | h <;> rw [h] <;> rfl
@[simp] theorem State.comes_net (s : State) (f : BitVec 96) (n : Nat) : (s.comes f n).net = s.net := by
  rcases s.comes_eq f n with h | h <;> rw [h] <;> rfl
@[simp] theorem State.comes_red (s : State) (f : BitVec 96) (n : Nat) : (s.comes f n).red = s.red := by
  rcases s.comes_eq f n with h | h <;> rw [h] <;> rfl
@[simp] theorem State.comes_pwr (s : State) (f : BitVec 96) (n : Nat) : (s.comes f n).pwr = s.pwr := by
  rcases s.comes_eq f n with h | h <;> rw [h] <;> rfl
@[simp] theorem State.comes_thm (s : State) (f : BitVec 96) (n : Nat) : (s.comes f n).thm = s.thm := by
  rcases s.comes_eq f n with h | h <;> rw [h] <;> rfl
@[simp] theorem State.comes_off (s : State) (f : BitVec 96) (n : Nat) : (s.comes f n).off = s.off := by
  rcases s.comes_eq f n with h | h <;> rw [h] <;> rfl
@[simp] theorem State.comes_pending (s : State) (f : BitVec 96) (n : Nat) : (s.comes f n).pending = s.pending := by
  rcases s.comes_eq f n with h | h <;> rw [h] <;> rfl
@[simp] theorem State.respond_regs (s : State) (m : Nat) (write : Bool) (addr : Nat) (st : RespStatus) (data : Word) : (State.respond s m write addr st data).regs = s.regs := rfl
@[simp] theorem State.respond_force (s : State) (m : Nat) (write : Bool) (addr : Nat) (st : RespStatus) (data : Word) : (State.respond s m write addr st data).force = s.force := rfl
@[simp] theorem State.respond_mem (s : State) (m : Nat) (write : Bool) (addr : Nat) (st : RespStatus) (data : Word) : (State.respond s m write addr st data).mem = s.mem := rfl
@[simp] theorem State.respond_outs (s : State) (m : Nat) (write : Bool) (addr : Nat) (st : RespStatus) (data : Word) : (State.respond s m write addr st data).outs = s.outs := rfl
@[simp] theorem State.respond_fresh (s : State) (m : Nat) (write : Bool) (addr : Nat) (st : RespStatus) (data : Word) : (State.respond s m write addr st data).fresh = s.fresh := rfl
@[simp] theorem State.respond_jtag (s : State) (m : Nat) (write : Bool) (addr : Nat) (st : RespStatus) (data : Word) : (State.respond s m write addr st data).jtag = s.jtag := rfl
@[simp] theorem State.respond_flt (s : State) (m : Nat) (write : Bool) (addr : Nat) (st : RespStatus) (data : Word) : (State.respond s m write addr st data).flt = s.flt := rfl
@[simp] theorem State.respond_rst (s : State) (m : Nat) (write : Bool) (addr : Nat) (st : RespStatus) (data : Word) : (State.respond s m write addr st data).rst = s.rst := rfl
@[simp] theorem State.respond_commits (s : State) (m : Nat) (write : Bool) (addr : Nat) (st : RespStatus) (data : Word) : (State.respond s m write addr st data).commits = s.commits := rfl
@[simp] theorem State.respond_ntu (s : State) (m : Nat) (write : Bool) (addr : Nat) (st : RespStatus) (data : Word) : (State.respond s m write addr st data).ntu = s.ntu := rfl
@[simp] theorem State.respond_tc (s : State) (m : Nat) (write : Bool) (addr : Nat) (st : RespStatus) (data : Word) : (State.respond s m write addr st data).tc = s.tc := rfl
@[simp] theorem State.respond_tck (s : State) (m : Nat) (write : Bool) (addr : Nat) (st : RespStatus) (data : Word) : (State.respond s m write addr st data).tck = s.tck := rfl
@[simp] theorem State.respond_ports (s : State) (m : Nat) (write : Bool) (addr : Nat) (st : RespStatus) (data : Word) : (State.respond s m write addr st data).ports = s.ports := rfl
@[simp] theorem State.respond_dsFrames (s : State) (m : Nat) (write : Bool) (addr : Nat) (st : RespStatus) (data : Word) : (State.respond s m write addr st data).dsFrames = s.dsFrames := rfl
@[simp] theorem State.respond_sense (s : State) (m : Nat) (write : Bool) (addr : Nat) (st : RespStatus) (data : Word) : (State.respond s m write addr st data).sense = s.sense := rfl
@[simp] theorem State.respond_drives (s : State) (m : Nat) (write : Bool) (addr : Nat) (st : RespStatus) (data : Word) : (State.respond s m write addr st data).drives = s.drives := rfl
@[simp] theorem State.respond_topo (s : State) (m : Nat) (write : Bool) (addr : Nat) (st : RespStatus) (data : Word) : (State.respond s m write addr st data).topo = s.topo := rfl
@[simp] theorem State.respond_topoBytes (s : State) (m : Nat) (write : Bool) (addr : Nat) (st : RespStatus) (data : Word) : (State.respond s m write addr st data).topoBytes = s.topoBytes := rfl
@[simp] theorem State.respond_topoLocked (s : State) (m : Nat) (write : Bool) (addr : Nat) (st : RespStatus) (data : Word) : (State.respond s m write addr st data).topoLocked = s.topoLocked := rfl
@[simp] theorem State.respond_bad (s : State) (m : Nat) (write : Bool) (addr : Nat) (st : RespStatus) (data : Word) : (State.respond s m write addr st data).bad = s.bad := rfl
@[simp] theorem State.respond_loops (s : State) (m : Nat) (write : Bool) (addr : Nat) (st : RespStatus) (data : Word) : (State.respond s m write addr st data).loops = s.loops := rfl
@[simp] theorem State.respond_prf (s : State) (m : Nat) (write : Bool) (addr : Nat) (st : RespStatus) (data : Word) : (State.respond s m write addr st data).prf = s.prf := rfl
@[simp] theorem State.respond_lpl (s : State) (m : Nat) (write : Bool) (addr : Nat) (st : RespStatus) (data : Word) : (State.respond s m write addr st data).lpl = s.lpl := rfl
@[simp] theorem State.respond_rce (s : State) (m : Nat) (write : Bool) (addr : Nat) (st : RespStatus) (data : Word) : (State.respond s m write addr st data).rce = s.rce := rfl
@[simp] theorem State.respond_crs (s : State) (m : Nat) (write : Bool) (addr : Nat) (st : RespStatus) (data : Word) : (State.respond s m write addr st data).crs = s.crs := rfl
@[simp] theorem State.respond_prt (s : State) (m : Nat) (write : Bool) (addr : Nat) (st : RespStatus) (data : Word) : (State.respond s m write addr st data).prt = s.prt := rfl
@[simp] theorem State.respond_rsv (s : State) (m : Nat) (write : Bool) (addr : Nat) (st : RespStatus) (data : Word) : (State.respond s m write addr st data).rsv = s.rsv := rfl
@[simp] theorem State.respond_evt (s : State) (m : Nat) (write : Bool) (addr : Nat) (st : RespStatus) (data : Word) : (State.respond s m write addr st data).evt = s.evt := rfl
@[simp] theorem State.respond_mea (s : State) (m : Nat) (write : Bool) (addr : Nat) (st : RespStatus) (data : Word) : (State.respond s m write addr st data).mea = s.mea := rfl
@[simp] theorem State.respond_cal (s : State) (m : Nat) (write : Bool) (addr : Nat) (st : RespStatus) (data : Word) : (State.respond s m write addr st data).cal = s.cal := rfl
@[simp] theorem State.respond_net (s : State) (m : Nat) (write : Bool) (addr : Nat) (st : RespStatus) (data : Word) : (State.respond s m write addr st data).net = s.net := rfl
@[simp] theorem State.respond_red (s : State) (m : Nat) (write : Bool) (addr : Nat) (st : RespStatus) (data : Word) : (State.respond s m write addr st data).red = s.red := rfl
@[simp] theorem State.respond_pwr (s : State) (m : Nat) (write : Bool) (addr : Nat) (st : RespStatus) (data : Word) : (State.respond s m write addr st data).pwr = s.pwr := rfl
@[simp] theorem State.respond_thm (s : State) (m : Nat) (write : Bool) (addr : Nat) (st : RespStatus) (data : Word) : (State.respond s m write addr st data).thm = s.thm := rfl
@[simp] theorem State.respond_off (s : State) (m : Nat) (write : Bool) (addr : Nat) (st : RespStatus) (data : Word) : (State.respond s m write addr st data).off = s.off := rfl
@[simp] theorem State.respond_pending (s : State) (m : Nat) (write : Bool) (addr : Nat) (st : RespStatus) (data : Word) : (State.respond s m write addr st data).pending = s.pending := rfl
@[simp] theorem State.holdAccess_regs (s : State) (m : Nat) (write : Bool) (addr : Nat) (v : Word) : (State.holdAccess s m write addr v).regs = s.regs := rfl
@[simp] theorem State.holdAccess_force (s : State) (m : Nat) (write : Bool) (addr : Nat) (v : Word) : (State.holdAccess s m write addr v).force = s.force := rfl
@[simp] theorem State.holdAccess_mem (s : State) (m : Nat) (write : Bool) (addr : Nat) (v : Word) : (State.holdAccess s m write addr v).mem = s.mem := rfl
@[simp] theorem State.holdAccess_outs (s : State) (m : Nat) (write : Bool) (addr : Nat) (v : Word) : (State.holdAccess s m write addr v).outs = s.outs := rfl
@[simp] theorem State.holdAccess_fresh (s : State) (m : Nat) (write : Bool) (addr : Nat) (v : Word) : (State.holdAccess s m write addr v).fresh = s.fresh := rfl
@[simp] theorem State.holdAccess_jtag (s : State) (m : Nat) (write : Bool) (addr : Nat) (v : Word) : (State.holdAccess s m write addr v).jtag = s.jtag := rfl
@[simp] theorem State.holdAccess_flt (s : State) (m : Nat) (write : Bool) (addr : Nat) (v : Word) : (State.holdAccess s m write addr v).flt = s.flt := rfl
@[simp] theorem State.holdAccess_rst (s : State) (m : Nat) (write : Bool) (addr : Nat) (v : Word) : (State.holdAccess s m write addr v).rst = s.rst := rfl
@[simp] theorem State.holdAccess_commits (s : State) (m : Nat) (write : Bool) (addr : Nat) (v : Word) : (State.holdAccess s m write addr v).commits = s.commits := rfl
@[simp] theorem State.holdAccess_ntu (s : State) (m : Nat) (write : Bool) (addr : Nat) (v : Word) : (State.holdAccess s m write addr v).ntu = s.ntu := rfl
@[simp] theorem State.holdAccess_tc (s : State) (m : Nat) (write : Bool) (addr : Nat) (v : Word) : (State.holdAccess s m write addr v).tc = s.tc := rfl
@[simp] theorem State.holdAccess_tck (s : State) (m : Nat) (write : Bool) (addr : Nat) (v : Word) : (State.holdAccess s m write addr v).tck = s.tck := rfl
@[simp] theorem State.holdAccess_ports (s : State) (m : Nat) (write : Bool) (addr : Nat) (v : Word) : (State.holdAccess s m write addr v).ports = s.ports := rfl
@[simp] theorem State.holdAccess_dsFrames (s : State) (m : Nat) (write : Bool) (addr : Nat) (v : Word) : (State.holdAccess s m write addr v).dsFrames = s.dsFrames := rfl
@[simp] theorem State.holdAccess_sense (s : State) (m : Nat) (write : Bool) (addr : Nat) (v : Word) : (State.holdAccess s m write addr v).sense = s.sense := rfl
@[simp] theorem State.holdAccess_drives (s : State) (m : Nat) (write : Bool) (addr : Nat) (v : Word) : (State.holdAccess s m write addr v).drives = s.drives := rfl
@[simp] theorem State.holdAccess_topo (s : State) (m : Nat) (write : Bool) (addr : Nat) (v : Word) : (State.holdAccess s m write addr v).topo = s.topo := rfl
@[simp] theorem State.holdAccess_topoBytes (s : State) (m : Nat) (write : Bool) (addr : Nat) (v : Word) : (State.holdAccess s m write addr v).topoBytes = s.topoBytes := rfl
@[simp] theorem State.holdAccess_topoLocked (s : State) (m : Nat) (write : Bool) (addr : Nat) (v : Word) : (State.holdAccess s m write addr v).topoLocked = s.topoLocked := rfl
@[simp] theorem State.holdAccess_bad (s : State) (m : Nat) (write : Bool) (addr : Nat) (v : Word) : (State.holdAccess s m write addr v).bad = s.bad := rfl
@[simp] theorem State.holdAccess_loops (s : State) (m : Nat) (write : Bool) (addr : Nat) (v : Word) : (State.holdAccess s m write addr v).loops = s.loops := rfl
@[simp] theorem State.holdAccess_prf (s : State) (m : Nat) (write : Bool) (addr : Nat) (v : Word) : (State.holdAccess s m write addr v).prf = s.prf := rfl
@[simp] theorem State.holdAccess_lpl (s : State) (m : Nat) (write : Bool) (addr : Nat) (v : Word) : (State.holdAccess s m write addr v).lpl = s.lpl := rfl
@[simp] theorem State.holdAccess_rce (s : State) (m : Nat) (write : Bool) (addr : Nat) (v : Word) : (State.holdAccess s m write addr v).rce = s.rce := rfl
@[simp] theorem State.holdAccess_crs (s : State) (m : Nat) (write : Bool) (addr : Nat) (v : Word) : (State.holdAccess s m write addr v).crs = s.crs := rfl
@[simp] theorem State.holdAccess_prt (s : State) (m : Nat) (write : Bool) (addr : Nat) (v : Word) : (State.holdAccess s m write addr v).prt = s.prt := rfl
@[simp] theorem State.holdAccess_rsv (s : State) (m : Nat) (write : Bool) (addr : Nat) (v : Word) : (State.holdAccess s m write addr v).rsv = s.rsv := rfl
@[simp] theorem State.holdAccess_evt (s : State) (m : Nat) (write : Bool) (addr : Nat) (v : Word) : (State.holdAccess s m write addr v).evt = s.evt := rfl
@[simp] theorem State.holdAccess_mea (s : State) (m : Nat) (write : Bool) (addr : Nat) (v : Word) : (State.holdAccess s m write addr v).mea = s.mea := rfl
@[simp] theorem State.holdAccess_cal (s : State) (m : Nat) (write : Bool) (addr : Nat) (v : Word) : (State.holdAccess s m write addr v).cal = s.cal := rfl
@[simp] theorem State.holdAccess_net (s : State) (m : Nat) (write : Bool) (addr : Nat) (v : Word) : (State.holdAccess s m write addr v).net = s.net := rfl
@[simp] theorem State.holdAccess_red (s : State) (m : Nat) (write : Bool) (addr : Nat) (v : Word) : (State.holdAccess s m write addr v).red = s.red := rfl
@[simp] theorem State.holdAccess_pwr (s : State) (m : Nat) (write : Bool) (addr : Nat) (v : Word) : (State.holdAccess s m write addr v).pwr = s.pwr := rfl
@[simp] theorem State.holdAccess_thm (s : State) (m : Nat) (write : Bool) (addr : Nat) (v : Word) : (State.holdAccess s m write addr v).thm = s.thm := rfl
@[simp] theorem State.holdAccess_off (s : State) (m : Nat) (write : Bool) (addr : Nat) (v : Word) : (State.holdAccess s m write addr v).off = s.off := rfl
@[simp] theorem State.holdAccess_pending (s : State) (m : Nat) (write : Bool) (addr : Nat) (v : Word) : (State.holdAccess s m write addr v).pending = s.pending := rfl
@[simp] theorem State.resetMaster_regs (s : State) (m : Nat) : (State.resetMaster s m).regs = s.regs := rfl
@[simp] theorem State.resetMaster_force (s : State) (m : Nat) : (State.resetMaster s m).force = s.force := rfl
@[simp] theorem State.resetMaster_mem (s : State) (m : Nat) : (State.resetMaster s m).mem = s.mem := rfl
@[simp] theorem State.resetMaster_outs (s : State) (m : Nat) : (State.resetMaster s m).outs = s.outs := rfl
@[simp] theorem State.resetMaster_fresh (s : State) (m : Nat) : (State.resetMaster s m).fresh = s.fresh := rfl
@[simp] theorem State.resetMaster_jtag (s : State) (m : Nat) : (State.resetMaster s m).jtag = s.jtag := rfl
@[simp] theorem State.resetMaster_flt (s : State) (m : Nat) : (State.resetMaster s m).flt = s.flt := rfl
@[simp] theorem State.resetMaster_rst (s : State) (m : Nat) : (State.resetMaster s m).rst = s.rst := rfl
@[simp] theorem State.resetMaster_commits (s : State) (m : Nat) : (State.resetMaster s m).commits = s.commits := rfl
@[simp] theorem State.resetMaster_ntu (s : State) (m : Nat) : (State.resetMaster s m).ntu = s.ntu := rfl
@[simp] theorem State.resetMaster_tc (s : State) (m : Nat) : (State.resetMaster s m).tc = s.tc := rfl
@[simp] theorem State.resetMaster_tck (s : State) (m : Nat) : (State.resetMaster s m).tck = s.tck := rfl
@[simp] theorem State.resetMaster_ports (s : State) (m : Nat) : (State.resetMaster s m).ports = s.ports := rfl
@[simp] theorem State.resetMaster_dsFrames (s : State) (m : Nat) : (State.resetMaster s m).dsFrames = s.dsFrames := rfl
@[simp] theorem State.resetMaster_sense (s : State) (m : Nat) : (State.resetMaster s m).sense = s.sense := rfl
@[simp] theorem State.resetMaster_drives (s : State) (m : Nat) : (State.resetMaster s m).drives = s.drives := rfl
@[simp] theorem State.resetMaster_topo (s : State) (m : Nat) : (State.resetMaster s m).topo = s.topo := rfl
@[simp] theorem State.resetMaster_topoBytes (s : State) (m : Nat) : (State.resetMaster s m).topoBytes = s.topoBytes := rfl
@[simp] theorem State.resetMaster_topoLocked (s : State) (m : Nat) : (State.resetMaster s m).topoLocked = s.topoLocked := rfl
@[simp] theorem State.resetMaster_bad (s : State) (m : Nat) : (State.resetMaster s m).bad = s.bad := rfl
@[simp] theorem State.resetMaster_loops (s : State) (m : Nat) : (State.resetMaster s m).loops = s.loops := rfl
@[simp] theorem State.resetMaster_prf (s : State) (m : Nat) : (State.resetMaster s m).prf = s.prf := rfl
@[simp] theorem State.resetMaster_lpl (s : State) (m : Nat) : (State.resetMaster s m).lpl = s.lpl := rfl
@[simp] theorem State.resetMaster_rce (s : State) (m : Nat) : (State.resetMaster s m).rce = s.rce := rfl
@[simp] theorem State.resetMaster_crs (s : State) (m : Nat) : (State.resetMaster s m).crs = s.crs := rfl
@[simp] theorem State.resetMaster_prt (s : State) (m : Nat) : (State.resetMaster s m).prt = s.prt := rfl
@[simp] theorem State.resetMaster_rsv (s : State) (m : Nat) : (State.resetMaster s m).rsv = s.rsv := rfl
@[simp] theorem State.resetMaster_evt (s : State) (m : Nat) : (State.resetMaster s m).evt = s.evt := rfl
@[simp] theorem State.resetMaster_mea (s : State) (m : Nat) : (State.resetMaster s m).mea = s.mea := rfl
@[simp] theorem State.resetMaster_cal (s : State) (m : Nat) : (State.resetMaster s m).cal = s.cal := rfl
@[simp] theorem State.resetMaster_net (s : State) (m : Nat) : (State.resetMaster s m).net = s.net := rfl
@[simp] theorem State.resetMaster_red (s : State) (m : Nat) : (State.resetMaster s m).red = s.red := rfl
@[simp] theorem State.resetMaster_pwr (s : State) (m : Nat) : (State.resetMaster s m).pwr = s.pwr := rfl
@[simp] theorem State.resetMaster_thm (s : State) (m : Nat) : (State.resetMaster s m).thm = s.thm := rfl
@[simp] theorem State.resetMaster_off (s : State) (m : Nat) : (State.resetMaster s m).off = s.off := rfl
@[simp] theorem State.resetMaster_pending (s : State) (m : Nat) : (State.resetMaster s m).pending = s.pending := rfl
@[simp] theorem State.setRun_regs (s : State) (page c n : Nat) : (State.setRun s page c n).regs = s.regs := rfl
@[simp] theorem State.setRun_force (s : State) (page c n : Nat) : (State.setRun s page c n).force = s.force := rfl
@[simp] theorem State.setRun_mem (s : State) (page c n : Nat) : (State.setRun s page c n).mem = s.mem := rfl
@[simp] theorem State.setRun_outs (s : State) (page c n : Nat) : (State.setRun s page c n).outs = s.outs := rfl
@[simp] theorem State.setRun_fresh (s : State) (page c n : Nat) : (State.setRun s page c n).fresh = s.fresh := rfl
@[simp] theorem State.setRun_bus (s : State) (page c n : Nat) : (State.setRun s page c n).bus = s.bus := rfl
@[simp] theorem State.setRun_jtag (s : State) (page c n : Nat) : (State.setRun s page c n).jtag = s.jtag := rfl
@[simp] theorem State.setRun_rst (s : State) (page c n : Nat) : (State.setRun s page c n).rst = s.rst := rfl
@[simp] theorem State.setRun_commits (s : State) (page c n : Nat) : (State.setRun s page c n).commits = s.commits := rfl
@[simp] theorem State.setRun_ntu (s : State) (page c n : Nat) : (State.setRun s page c n).ntu = s.ntu := rfl
@[simp] theorem State.setRun_tc (s : State) (page c n : Nat) : (State.setRun s page c n).tc = s.tc := rfl
@[simp] theorem State.setRun_tck (s : State) (page c n : Nat) : (State.setRun s page c n).tck = s.tck := rfl
@[simp] theorem State.setRun_ports (s : State) (page c n : Nat) : (State.setRun s page c n).ports = s.ports := rfl
@[simp] theorem State.setRun_dsFrames (s : State) (page c n : Nat) : (State.setRun s page c n).dsFrames = s.dsFrames := rfl
@[simp] theorem State.setRun_sense (s : State) (page c n : Nat) : (State.setRun s page c n).sense = s.sense := rfl
@[simp] theorem State.setRun_drives (s : State) (page c n : Nat) : (State.setRun s page c n).drives = s.drives := rfl
@[simp] theorem State.setRun_topo (s : State) (page c n : Nat) : (State.setRun s page c n).topo = s.topo := rfl
@[simp] theorem State.setRun_topoBytes (s : State) (page c n : Nat) : (State.setRun s page c n).topoBytes = s.topoBytes := rfl
@[simp] theorem State.setRun_topoLocked (s : State) (page c n : Nat) : (State.setRun s page c n).topoLocked = s.topoLocked := rfl
@[simp] theorem State.setRun_bad (s : State) (page c n : Nat) : (State.setRun s page c n).bad = s.bad := rfl
@[simp] theorem State.setRun_loops (s : State) (page c n : Nat) : (State.setRun s page c n).loops = s.loops := rfl
@[simp] theorem State.setRun_prf (s : State) (page c n : Nat) : (State.setRun s page c n).prf = s.prf := rfl
@[simp] theorem State.setRun_lpl (s : State) (page c n : Nat) : (State.setRun s page c n).lpl = s.lpl := rfl
@[simp] theorem State.setRun_rce (s : State) (page c n : Nat) : (State.setRun s page c n).rce = s.rce := rfl
@[simp] theorem State.setRun_crs (s : State) (page c n : Nat) : (State.setRun s page c n).crs = s.crs := rfl
@[simp] theorem State.setRun_prt (s : State) (page c n : Nat) : (State.setRun s page c n).prt = s.prt := rfl
@[simp] theorem State.setRun_rsv (s : State) (page c n : Nat) : (State.setRun s page c n).rsv = s.rsv := rfl
@[simp] theorem State.setRun_evt (s : State) (page c n : Nat) : (State.setRun s page c n).evt = s.evt := rfl
@[simp] theorem State.setRun_mea (s : State) (page c n : Nat) : (State.setRun s page c n).mea = s.mea := rfl
@[simp] theorem State.setRun_cal (s : State) (page c n : Nat) : (State.setRun s page c n).cal = s.cal := rfl
@[simp] theorem State.setRun_net (s : State) (page c n : Nat) : (State.setRun s page c n).net = s.net := rfl
@[simp] theorem State.setRun_red (s : State) (page c n : Nat) : (State.setRun s page c n).red = s.red := rfl
@[simp] theorem State.setRun_pwr (s : State) (page c n : Nat) : (State.setRun s page c n).pwr = s.pwr := rfl
@[simp] theorem State.setRun_thm (s : State) (page c n : Nat) : (State.setRun s page c n).thm = s.thm := rfl
@[simp] theorem State.setRun_off (s : State) (page c n : Nat) : (State.setRun s page c n).off = s.off := rfl
@[simp] theorem State.setRun_pending (s : State) (page c n : Nat) : (State.setRun s page c n).pending = s.pending := rfl
@[simp] theorem State.notDue_regs (s : State) (page c : Nat) : (State.notDue s page c).regs = s.regs := rfl
@[simp] theorem State.notDue_force (s : State) (page c : Nat) : (State.notDue s page c).force = s.force := rfl
@[simp] theorem State.notDue_mem (s : State) (page c : Nat) : (State.notDue s page c).mem = s.mem := rfl
@[simp] theorem State.notDue_outs (s : State) (page c : Nat) : (State.notDue s page c).outs = s.outs := rfl
@[simp] theorem State.notDue_fresh (s : State) (page c : Nat) : (State.notDue s page c).fresh = s.fresh := rfl
@[simp] theorem State.notDue_bus (s : State) (page c : Nat) : (State.notDue s page c).bus = s.bus := rfl
@[simp] theorem State.notDue_jtag (s : State) (page c : Nat) : (State.notDue s page c).jtag = s.jtag := rfl
@[simp] theorem State.notDue_rst (s : State) (page c : Nat) : (State.notDue s page c).rst = s.rst := rfl
@[simp] theorem State.notDue_commits (s : State) (page c : Nat) : (State.notDue s page c).commits = s.commits := rfl
@[simp] theorem State.notDue_ntu (s : State) (page c : Nat) : (State.notDue s page c).ntu = s.ntu := rfl
@[simp] theorem State.notDue_tc (s : State) (page c : Nat) : (State.notDue s page c).tc = s.tc := rfl
@[simp] theorem State.notDue_tck (s : State) (page c : Nat) : (State.notDue s page c).tck = s.tck := rfl
@[simp] theorem State.notDue_ports (s : State) (page c : Nat) : (State.notDue s page c).ports = s.ports := rfl
@[simp] theorem State.notDue_dsFrames (s : State) (page c : Nat) : (State.notDue s page c).dsFrames = s.dsFrames := rfl
@[simp] theorem State.notDue_sense (s : State) (page c : Nat) : (State.notDue s page c).sense = s.sense := rfl
@[simp] theorem State.notDue_drives (s : State) (page c : Nat) : (State.notDue s page c).drives = s.drives := rfl
@[simp] theorem State.notDue_topo (s : State) (page c : Nat) : (State.notDue s page c).topo = s.topo := rfl
@[simp] theorem State.notDue_topoBytes (s : State) (page c : Nat) : (State.notDue s page c).topoBytes = s.topoBytes := rfl
@[simp] theorem State.notDue_topoLocked (s : State) (page c : Nat) : (State.notDue s page c).topoLocked = s.topoLocked := rfl
@[simp] theorem State.notDue_bad (s : State) (page c : Nat) : (State.notDue s page c).bad = s.bad := rfl
@[simp] theorem State.notDue_loops (s : State) (page c : Nat) : (State.notDue s page c).loops = s.loops := rfl
@[simp] theorem State.notDue_prf (s : State) (page c : Nat) : (State.notDue s page c).prf = s.prf := rfl
@[simp] theorem State.notDue_lpl (s : State) (page c : Nat) : (State.notDue s page c).lpl = s.lpl := rfl
@[simp] theorem State.notDue_rce (s : State) (page c : Nat) : (State.notDue s page c).rce = s.rce := rfl
@[simp] theorem State.notDue_crs (s : State) (page c : Nat) : (State.notDue s page c).crs = s.crs := rfl
@[simp] theorem State.notDue_prt (s : State) (page c : Nat) : (State.notDue s page c).prt = s.prt := rfl
@[simp] theorem State.notDue_rsv (s : State) (page c : Nat) : (State.notDue s page c).rsv = s.rsv := rfl
@[simp] theorem State.notDue_evt (s : State) (page c : Nat) : (State.notDue s page c).evt = s.evt := rfl
@[simp] theorem State.notDue_mea (s : State) (page c : Nat) : (State.notDue s page c).mea = s.mea := rfl
@[simp] theorem State.notDue_cal (s : State) (page c : Nat) : (State.notDue s page c).cal = s.cal := rfl
@[simp] theorem State.notDue_net (s : State) (page c : Nat) : (State.notDue s page c).net = s.net := rfl
@[simp] theorem State.notDue_red (s : State) (page c : Nat) : (State.notDue s page c).red = s.red := rfl
@[simp] theorem State.notDue_pwr (s : State) (page c : Nat) : (State.notDue s page c).pwr = s.pwr := rfl
@[simp] theorem State.notDue_thm (s : State) (page c : Nat) : (State.notDue s page c).thm = s.thm := rfl
@[simp] theorem State.notDue_off (s : State) (page c : Nat) : (State.notDue s page c).off = s.off := rfl
@[simp] theorem State.notDue_pending (s : State) (page c : Nat) : (State.notDue s page c).pending = s.pending := rfl
@[simp] theorem State.unretire_regs (s : State) (page c : Nat) : (State.unretire s page c).regs = s.regs := rfl
@[simp] theorem State.unretire_force (s : State) (page c : Nat) : (State.unretire s page c).force = s.force := rfl
@[simp] theorem State.unretire_mem (s : State) (page c : Nat) : (State.unretire s page c).mem = s.mem := rfl
@[simp] theorem State.unretire_outs (s : State) (page c : Nat) : (State.unretire s page c).outs = s.outs := rfl
@[simp] theorem State.unretire_fresh (s : State) (page c : Nat) : (State.unretire s page c).fresh = s.fresh := rfl
@[simp] theorem State.unretire_bus (s : State) (page c : Nat) : (State.unretire s page c).bus = s.bus := rfl
@[simp] theorem State.unretire_jtag (s : State) (page c : Nat) : (State.unretire s page c).jtag = s.jtag := rfl
@[simp] theorem State.unretire_rst (s : State) (page c : Nat) : (State.unretire s page c).rst = s.rst := rfl
@[simp] theorem State.unretire_commits (s : State) (page c : Nat) : (State.unretire s page c).commits = s.commits := rfl
@[simp] theorem State.unretire_ntu (s : State) (page c : Nat) : (State.unretire s page c).ntu = s.ntu := rfl
@[simp] theorem State.unretire_tc (s : State) (page c : Nat) : (State.unretire s page c).tc = s.tc := rfl
@[simp] theorem State.unretire_tck (s : State) (page c : Nat) : (State.unretire s page c).tck = s.tck := rfl
@[simp] theorem State.unretire_ports (s : State) (page c : Nat) : (State.unretire s page c).ports = s.ports := rfl
@[simp] theorem State.unretire_dsFrames (s : State) (page c : Nat) : (State.unretire s page c).dsFrames = s.dsFrames := rfl
@[simp] theorem State.unretire_sense (s : State) (page c : Nat) : (State.unretire s page c).sense = s.sense := rfl
@[simp] theorem State.unretire_drives (s : State) (page c : Nat) : (State.unretire s page c).drives = s.drives := rfl
@[simp] theorem State.unretire_topo (s : State) (page c : Nat) : (State.unretire s page c).topo = s.topo := rfl
@[simp] theorem State.unretire_topoBytes (s : State) (page c : Nat) : (State.unretire s page c).topoBytes = s.topoBytes := rfl
@[simp] theorem State.unretire_topoLocked (s : State) (page c : Nat) : (State.unretire s page c).topoLocked = s.topoLocked := rfl
@[simp] theorem State.unretire_bad (s : State) (page c : Nat) : (State.unretire s page c).bad = s.bad := rfl
@[simp] theorem State.unretire_loops (s : State) (page c : Nat) : (State.unretire s page c).loops = s.loops := rfl
@[simp] theorem State.unretire_prf (s : State) (page c : Nat) : (State.unretire s page c).prf = s.prf := rfl
@[simp] theorem State.unretire_lpl (s : State) (page c : Nat) : (State.unretire s page c).lpl = s.lpl := rfl
@[simp] theorem State.unretire_rce (s : State) (page c : Nat) : (State.unretire s page c).rce = s.rce := rfl
@[simp] theorem State.unretire_crs (s : State) (page c : Nat) : (State.unretire s page c).crs = s.crs := rfl
@[simp] theorem State.unretire_prt (s : State) (page c : Nat) : (State.unretire s page c).prt = s.prt := rfl
@[simp] theorem State.unretire_rsv (s : State) (page c : Nat) : (State.unretire s page c).rsv = s.rsv := rfl
@[simp] theorem State.unretire_evt (s : State) (page c : Nat) : (State.unretire s page c).evt = s.evt := rfl
@[simp] theorem State.unretire_mea (s : State) (page c : Nat) : (State.unretire s page c).mea = s.mea := rfl
@[simp] theorem State.unretire_cal (s : State) (page c : Nat) : (State.unretire s page c).cal = s.cal := rfl
@[simp] theorem State.unretire_net (s : State) (page c : Nat) : (State.unretire s page c).net = s.net := rfl
@[simp] theorem State.unretire_red (s : State) (page c : Nat) : (State.unretire s page c).red = s.red := rfl
@[simp] theorem State.unretire_pwr (s : State) (page c : Nat) : (State.unretire s page c).pwr = s.pwr := rfl
@[simp] theorem State.unretire_thm (s : State) (page c : Nat) : (State.unretire s page c).thm = s.thm := rfl
@[simp] theorem State.unretire_off (s : State) (page c : Nat) : (State.unretire s page c).off = s.off := rfl
@[simp] theorem State.unretire_pending (s : State) (page c : Nat) : (State.unretire s page c).pending = s.pending := rfl
@[simp] theorem State.addCommit_regs (s : State) (c : PendCommit) : (State.addCommit s c).regs = s.regs := rfl
@[simp] theorem State.addCommit_force (s : State) (c : PendCommit) : (State.addCommit s c).force = s.force := rfl
@[simp] theorem State.addCommit_mem (s : State) (c : PendCommit) : (State.addCommit s c).mem = s.mem := rfl
@[simp] theorem State.addCommit_outs (s : State) (c : PendCommit) : (State.addCommit s c).outs = s.outs := rfl
@[simp] theorem State.addCommit_fresh (s : State) (c : PendCommit) : (State.addCommit s c).fresh = s.fresh := rfl
@[simp] theorem State.addCommit_bus (s : State) (c : PendCommit) : (State.addCommit s c).bus = s.bus := rfl
@[simp] theorem State.addCommit_jtag (s : State) (c : PendCommit) : (State.addCommit s c).jtag = s.jtag := rfl
@[simp] theorem State.addCommit_flt (s : State) (c : PendCommit) : (State.addCommit s c).flt = s.flt := rfl
@[simp] theorem State.addCommit_rst (s : State) (c : PendCommit) : (State.addCommit s c).rst = s.rst := rfl
@[simp] theorem State.addCommit_ntu (s : State) (c : PendCommit) : (State.addCommit s c).ntu = s.ntu := rfl
@[simp] theorem State.addCommit_tc (s : State) (c : PendCommit) : (State.addCommit s c).tc = s.tc := rfl
@[simp] theorem State.addCommit_tck (s : State) (c : PendCommit) : (State.addCommit s c).tck = s.tck := rfl
@[simp] theorem State.addCommit_ports (s : State) (c : PendCommit) : (State.addCommit s c).ports = s.ports := rfl
@[simp] theorem State.addCommit_dsFrames (s : State) (c : PendCommit) : (State.addCommit s c).dsFrames = s.dsFrames := rfl
@[simp] theorem State.addCommit_sense (s : State) (c : PendCommit) : (State.addCommit s c).sense = s.sense := rfl
@[simp] theorem State.addCommit_drives (s : State) (c : PendCommit) : (State.addCommit s c).drives = s.drives := rfl
@[simp] theorem State.addCommit_topo (s : State) (c : PendCommit) : (State.addCommit s c).topo = s.topo := rfl
@[simp] theorem State.addCommit_topoBytes (s : State) (c : PendCommit) : (State.addCommit s c).topoBytes = s.topoBytes := rfl
@[simp] theorem State.addCommit_topoLocked (s : State) (c : PendCommit) : (State.addCommit s c).topoLocked = s.topoLocked := rfl
@[simp] theorem State.addCommit_bad (s : State) (c : PendCommit) : (State.addCommit s c).bad = s.bad := rfl
@[simp] theorem State.addCommit_loops (s : State) (c : PendCommit) : (State.addCommit s c).loops = s.loops := rfl
@[simp] theorem State.addCommit_prf (s : State) (c : PendCommit) : (State.addCommit s c).prf = s.prf := rfl
@[simp] theorem State.addCommit_lpl (s : State) (c : PendCommit) : (State.addCommit s c).lpl = s.lpl := rfl
@[simp] theorem State.addCommit_rce (s : State) (c : PendCommit) : (State.addCommit s c).rce = s.rce := rfl
@[simp] theorem State.addCommit_crs (s : State) (c : PendCommit) : (State.addCommit s c).crs = s.crs := rfl
@[simp] theorem State.addCommit_prt (s : State) (c : PendCommit) : (State.addCommit s c).prt = s.prt := rfl
@[simp] theorem State.addCommit_rsv (s : State) (c : PendCommit) : (State.addCommit s c).rsv = s.rsv := rfl
@[simp] theorem State.addCommit_evt (s : State) (c : PendCommit) : (State.addCommit s c).evt = s.evt := rfl
@[simp] theorem State.addCommit_mea (s : State) (c : PendCommit) : (State.addCommit s c).mea = s.mea := rfl
@[simp] theorem State.addCommit_cal (s : State) (c : PendCommit) : (State.addCommit s c).cal = s.cal := rfl
@[simp] theorem State.addCommit_net (s : State) (c : PendCommit) : (State.addCommit s c).net = s.net := rfl
@[simp] theorem State.addCommit_red (s : State) (c : PendCommit) : (State.addCommit s c).red = s.red := rfl
@[simp] theorem State.addCommit_pwr (s : State) (c : PendCommit) : (State.addCommit s c).pwr = s.pwr := rfl
@[simp] theorem State.addCommit_thm (s : State) (c : PendCommit) : (State.addCommit s c).thm = s.thm := rfl
@[simp] theorem State.addCommit_off (s : State) (c : PendCommit) : (State.addCommit s c).off = s.off := rfl
@[simp] theorem State.addCommit_pending (s : State) (c : PendCommit) : (State.addCommit s c).pending = s.pending := rfl
@[simp] theorem State.dropCommit_regs (s : State) (page : Nat) : (State.dropCommit s page).regs = s.regs := rfl
@[simp] theorem State.dropCommit_force (s : State) (page : Nat) : (State.dropCommit s page).force = s.force := rfl
@[simp] theorem State.dropCommit_mem (s : State) (page : Nat) : (State.dropCommit s page).mem = s.mem := rfl
@[simp] theorem State.dropCommit_outs (s : State) (page : Nat) : (State.dropCommit s page).outs = s.outs := rfl
@[simp] theorem State.dropCommit_fresh (s : State) (page : Nat) : (State.dropCommit s page).fresh = s.fresh := rfl
@[simp] theorem State.dropCommit_bus (s : State) (page : Nat) : (State.dropCommit s page).bus = s.bus := rfl
@[simp] theorem State.dropCommit_jtag (s : State) (page : Nat) : (State.dropCommit s page).jtag = s.jtag := rfl
@[simp] theorem State.dropCommit_flt (s : State) (page : Nat) : (State.dropCommit s page).flt = s.flt := rfl
@[simp] theorem State.dropCommit_rst (s : State) (page : Nat) : (State.dropCommit s page).rst = s.rst := rfl
@[simp] theorem State.dropCommit_ntu (s : State) (page : Nat) : (State.dropCommit s page).ntu = s.ntu := rfl
@[simp] theorem State.dropCommit_tc (s : State) (page : Nat) : (State.dropCommit s page).tc = s.tc := rfl
@[simp] theorem State.dropCommit_tck (s : State) (page : Nat) : (State.dropCommit s page).tck = s.tck := rfl
@[simp] theorem State.dropCommit_ports (s : State) (page : Nat) : (State.dropCommit s page).ports = s.ports := rfl
@[simp] theorem State.dropCommit_dsFrames (s : State) (page : Nat) : (State.dropCommit s page).dsFrames = s.dsFrames := rfl
@[simp] theorem State.dropCommit_sense (s : State) (page : Nat) : (State.dropCommit s page).sense = s.sense := rfl
@[simp] theorem State.dropCommit_drives (s : State) (page : Nat) : (State.dropCommit s page).drives = s.drives := rfl
@[simp] theorem State.dropCommit_topo (s : State) (page : Nat) : (State.dropCommit s page).topo = s.topo := rfl
@[simp] theorem State.dropCommit_topoBytes (s : State) (page : Nat) : (State.dropCommit s page).topoBytes = s.topoBytes := rfl
@[simp] theorem State.dropCommit_topoLocked (s : State) (page : Nat) : (State.dropCommit s page).topoLocked = s.topoLocked := rfl
@[simp] theorem State.dropCommit_bad (s : State) (page : Nat) : (State.dropCommit s page).bad = s.bad := rfl
@[simp] theorem State.dropCommit_loops (s : State) (page : Nat) : (State.dropCommit s page).loops = s.loops := rfl
@[simp] theorem State.dropCommit_prf (s : State) (page : Nat) : (State.dropCommit s page).prf = s.prf := rfl
@[simp] theorem State.dropCommit_lpl (s : State) (page : Nat) : (State.dropCommit s page).lpl = s.lpl := rfl
@[simp] theorem State.dropCommit_rce (s : State) (page : Nat) : (State.dropCommit s page).rce = s.rce := rfl
@[simp] theorem State.dropCommit_crs (s : State) (page : Nat) : (State.dropCommit s page).crs = s.crs := rfl
@[simp] theorem State.dropCommit_prt (s : State) (page : Nat) : (State.dropCommit s page).prt = s.prt := rfl
@[simp] theorem State.dropCommit_rsv (s : State) (page : Nat) : (State.dropCommit s page).rsv = s.rsv := rfl
@[simp] theorem State.dropCommit_evt (s : State) (page : Nat) : (State.dropCommit s page).evt = s.evt := rfl
@[simp] theorem State.dropCommit_mea (s : State) (page : Nat) : (State.dropCommit s page).mea = s.mea := rfl
@[simp] theorem State.dropCommit_cal (s : State) (page : Nat) : (State.dropCommit s page).cal = s.cal := rfl
@[simp] theorem State.dropCommit_net (s : State) (page : Nat) : (State.dropCommit s page).net = s.net := rfl
@[simp] theorem State.dropCommit_red (s : State) (page : Nat) : (State.dropCommit s page).red = s.red := rfl
@[simp] theorem State.dropCommit_pwr (s : State) (page : Nat) : (State.dropCommit s page).pwr = s.pwr := rfl
@[simp] theorem State.dropCommit_thm (s : State) (page : Nat) : (State.dropCommit s page).thm = s.thm := rfl
@[simp] theorem State.dropCommit_off (s : State) (page : Nat) : (State.dropCommit s page).off = s.off := rfl
@[simp] theorem State.dropCommit_pending (s : State) (page : Nat) : (State.dropCommit s page).pending = s.pending := rfl
@[simp] theorem State.setPend_force (s : State) (page : Nat) : (State.setPend s page).force = s.force := rfl
@[simp] theorem State.setPend_mem (s : State) (page : Nat) : (State.setPend s page).mem = s.mem := rfl
@[simp] theorem State.setPend_outs (s : State) (page : Nat) : (State.setPend s page).outs = s.outs := rfl
@[simp] theorem State.setPend_fresh (s : State) (page : Nat) : (State.setPend s page).fresh = s.fresh := rfl
@[simp] theorem State.setPend_bus (s : State) (page : Nat) : (State.setPend s page).bus = s.bus := rfl
@[simp] theorem State.setPend_jtag (s : State) (page : Nat) : (State.setPend s page).jtag = s.jtag := rfl
@[simp] theorem State.setPend_flt (s : State) (page : Nat) : (State.setPend s page).flt = s.flt := rfl
@[simp] theorem State.setPend_rst (s : State) (page : Nat) : (State.setPend s page).rst = s.rst := rfl
@[simp] theorem State.setPend_commits (s : State) (page : Nat) : (State.setPend s page).commits = s.commits := rfl
@[simp] theorem State.setPend_ntu (s : State) (page : Nat) : (State.setPend s page).ntu = s.ntu := rfl
@[simp] theorem State.setPend_tc (s : State) (page : Nat) : (State.setPend s page).tc = s.tc := rfl
@[simp] theorem State.setPend_tck (s : State) (page : Nat) : (State.setPend s page).tck = s.tck := rfl
@[simp] theorem State.setPend_ports (s : State) (page : Nat) : (State.setPend s page).ports = s.ports := rfl
@[simp] theorem State.setPend_dsFrames (s : State) (page : Nat) : (State.setPend s page).dsFrames = s.dsFrames := rfl
@[simp] theorem State.setPend_sense (s : State) (page : Nat) : (State.setPend s page).sense = s.sense := rfl
@[simp] theorem State.setPend_drives (s : State) (page : Nat) : (State.setPend s page).drives = s.drives := rfl
@[simp] theorem State.setPend_topo (s : State) (page : Nat) : (State.setPend s page).topo = s.topo := rfl
@[simp] theorem State.setPend_topoBytes (s : State) (page : Nat) : (State.setPend s page).topoBytes = s.topoBytes := rfl
@[simp] theorem State.setPend_topoLocked (s : State) (page : Nat) : (State.setPend s page).topoLocked = s.topoLocked := rfl
@[simp] theorem State.setPend_bad (s : State) (page : Nat) : (State.setPend s page).bad = s.bad := rfl
@[simp] theorem State.setPend_loops (s : State) (page : Nat) : (State.setPend s page).loops = s.loops := rfl
@[simp] theorem State.setPend_prf (s : State) (page : Nat) : (State.setPend s page).prf = s.prf := rfl
@[simp] theorem State.setPend_lpl (s : State) (page : Nat) : (State.setPend s page).lpl = s.lpl := rfl
@[simp] theorem State.setPend_rce (s : State) (page : Nat) : (State.setPend s page).rce = s.rce := rfl
@[simp] theorem State.setPend_crs (s : State) (page : Nat) : (State.setPend s page).crs = s.crs := rfl
@[simp] theorem State.setPend_prt (s : State) (page : Nat) : (State.setPend s page).prt = s.prt := rfl
@[simp] theorem State.setPend_rsv (s : State) (page : Nat) : (State.setPend s page).rsv = s.rsv := rfl
@[simp] theorem State.setPend_evt (s : State) (page : Nat) : (State.setPend s page).evt = s.evt := rfl
@[simp] theorem State.setPend_mea (s : State) (page : Nat) : (State.setPend s page).mea = s.mea := rfl
@[simp] theorem State.setPend_cal (s : State) (page : Nat) : (State.setPend s page).cal = s.cal := rfl
@[simp] theorem State.setPend_net (s : State) (page : Nat) : (State.setPend s page).net = s.net := rfl
@[simp] theorem State.setPend_red (s : State) (page : Nat) : (State.setPend s page).red = s.red := rfl
@[simp] theorem State.setPend_pwr (s : State) (page : Nat) : (State.setPend s page).pwr = s.pwr := rfl
@[simp] theorem State.setPend_thm (s : State) (page : Nat) : (State.setPend s page).thm = s.thm := rfl
@[simp] theorem State.setPend_off (s : State) (page : Nat) : (State.setPend s page).off = s.off := rfl
@[simp] theorem State.setPend_pending (s : State) (page : Nat) : (State.setPend s page).pending = s.pending := rfl
@[simp] theorem State.logViolation_force (s : State) (page m : Nat) (write : Bool) (addr kind : Nat) : (State.logViolation s page m write addr kind).force = s.force := rfl
@[simp] theorem State.logViolation_mem (s : State) (page m : Nat) (write : Bool) (addr kind : Nat) : (State.logViolation s page m write addr kind).mem = s.mem := rfl
@[simp] theorem State.logViolation_outs (s : State) (page m : Nat) (write : Bool) (addr kind : Nat) : (State.logViolation s page m write addr kind).outs = s.outs := rfl
@[simp] theorem State.logViolation_fresh (s : State) (page m : Nat) (write : Bool) (addr kind : Nat) : (State.logViolation s page m write addr kind).fresh = s.fresh := rfl
@[simp] theorem State.logViolation_bus (s : State) (page m : Nat) (write : Bool) (addr kind : Nat) : (State.logViolation s page m write addr kind).bus = s.bus := rfl
@[simp] theorem State.logViolation_jtag (s : State) (page m : Nat) (write : Bool) (addr kind : Nat) : (State.logViolation s page m write addr kind).jtag = s.jtag := rfl
@[simp] theorem State.logViolation_flt (s : State) (page m : Nat) (write : Bool) (addr kind : Nat) : (State.logViolation s page m write addr kind).flt = s.flt := rfl
@[simp] theorem State.logViolation_rst (s : State) (page m : Nat) (write : Bool) (addr kind : Nat) : (State.logViolation s page m write addr kind).rst = s.rst := rfl
@[simp] theorem State.logViolation_commits (s : State) (page m : Nat) (write : Bool) (addr kind : Nat) : (State.logViolation s page m write addr kind).commits = s.commits := rfl
@[simp] theorem State.logViolation_ntu (s : State) (page m : Nat) (write : Bool) (addr kind : Nat) : (State.logViolation s page m write addr kind).ntu = s.ntu := rfl
@[simp] theorem State.logViolation_tc (s : State) (page m : Nat) (write : Bool) (addr kind : Nat) : (State.logViolation s page m write addr kind).tc = s.tc := rfl
@[simp] theorem State.logViolation_tck (s : State) (page m : Nat) (write : Bool) (addr kind : Nat) : (State.logViolation s page m write addr kind).tck = s.tck := rfl
@[simp] theorem State.logViolation_ports (s : State) (page m : Nat) (write : Bool) (addr kind : Nat) : (State.logViolation s page m write addr kind).ports = s.ports := rfl
@[simp] theorem State.logViolation_dsFrames (s : State) (page m : Nat) (write : Bool) (addr kind : Nat) : (State.logViolation s page m write addr kind).dsFrames = s.dsFrames := rfl
@[simp] theorem State.logViolation_sense (s : State) (page m : Nat) (write : Bool) (addr kind : Nat) : (State.logViolation s page m write addr kind).sense = s.sense := rfl
@[simp] theorem State.logViolation_drives (s : State) (page m : Nat) (write : Bool) (addr kind : Nat) : (State.logViolation s page m write addr kind).drives = s.drives := rfl
@[simp] theorem State.logViolation_topo (s : State) (page m : Nat) (write : Bool) (addr kind : Nat) : (State.logViolation s page m write addr kind).topo = s.topo := rfl
@[simp] theorem State.logViolation_topoBytes (s : State) (page m : Nat) (write : Bool) (addr kind : Nat) : (State.logViolation s page m write addr kind).topoBytes = s.topoBytes := rfl
@[simp] theorem State.logViolation_topoLocked (s : State) (page m : Nat) (write : Bool) (addr kind : Nat) : (State.logViolation s page m write addr kind).topoLocked = s.topoLocked := rfl
@[simp] theorem State.logViolation_bad (s : State) (page m : Nat) (write : Bool) (addr kind : Nat) : (State.logViolation s page m write addr kind).bad = s.bad := rfl
@[simp] theorem State.logViolation_loops (s : State) (page m : Nat) (write : Bool) (addr kind : Nat) : (State.logViolation s page m write addr kind).loops = s.loops := rfl
@[simp] theorem State.logViolation_prf (s : State) (page m : Nat) (write : Bool) (addr kind : Nat) : (State.logViolation s page m write addr kind).prf = s.prf := rfl
@[simp] theorem State.logViolation_lpl (s : State) (page m : Nat) (write : Bool) (addr kind : Nat) : (State.logViolation s page m write addr kind).lpl = s.lpl := rfl
@[simp] theorem State.logViolation_rce (s : State) (page m : Nat) (write : Bool) (addr kind : Nat) : (State.logViolation s page m write addr kind).rce = s.rce := rfl
@[simp] theorem State.logViolation_crs (s : State) (page m : Nat) (write : Bool) (addr kind : Nat) : (State.logViolation s page m write addr kind).crs = s.crs := rfl
@[simp] theorem State.logViolation_prt (s : State) (page m : Nat) (write : Bool) (addr kind : Nat) : (State.logViolation s page m write addr kind).prt = s.prt := rfl
@[simp] theorem State.logViolation_rsv (s : State) (page m : Nat) (write : Bool) (addr kind : Nat) : (State.logViolation s page m write addr kind).rsv = s.rsv := rfl
@[simp] theorem State.logViolation_evt (s : State) (page m : Nat) (write : Bool) (addr kind : Nat) : (State.logViolation s page m write addr kind).evt = s.evt := rfl
@[simp] theorem State.logViolation_mea (s : State) (page m : Nat) (write : Bool) (addr kind : Nat) : (State.logViolation s page m write addr kind).mea = s.mea := rfl
@[simp] theorem State.logViolation_cal (s : State) (page m : Nat) (write : Bool) (addr kind : Nat) : (State.logViolation s page m write addr kind).cal = s.cal := rfl
@[simp] theorem State.logViolation_net (s : State) (page m : Nat) (write : Bool) (addr kind : Nat) : (State.logViolation s page m write addr kind).net = s.net := rfl
@[simp] theorem State.logViolation_red (s : State) (page m : Nat) (write : Bool) (addr kind : Nat) : (State.logViolation s page m write addr kind).red = s.red := rfl
@[simp] theorem State.logViolation_pwr (s : State) (page m : Nat) (write : Bool) (addr kind : Nat) : (State.logViolation s page m write addr kind).pwr = s.pwr := rfl
@[simp] theorem State.logViolation_thm (s : State) (page m : Nat) (write : Bool) (addr kind : Nat) : (State.logViolation s page m write addr kind).thm = s.thm := rfl
@[simp] theorem State.logViolation_off (s : State) (page m : Nat) (write : Bool) (addr kind : Nat) : (State.logViolation s page m write addr kind).off = s.off := rfl
@[simp] theorem State.logViolation_pending (s : State) (page m : Nat) (write : Bool) (addr kind : Nat) : (State.logViolation s page m write addr kind).pending = s.pending := rfl
@[simp] theorem State.journalPut_regs (s : State) (addr word : Nat) : (State.journalPut s addr word).regs = s.regs := rfl
@[simp] theorem State.journalPut_force (s : State) (addr word : Nat) : (State.journalPut s addr word).force = s.force := rfl
@[simp] theorem State.journalPut_mem (s : State) (addr word : Nat) : (State.journalPut s addr word).mem = s.mem := rfl
@[simp] theorem State.journalPut_outs (s : State) (addr word : Nat) : (State.journalPut s addr word).outs = s.outs := rfl
@[simp] theorem State.journalPut_fresh (s : State) (addr word : Nat) : (State.journalPut s addr word).fresh = s.fresh := rfl
@[simp] theorem State.journalPut_bus (s : State) (addr word : Nat) : (State.journalPut s addr word).bus = s.bus := rfl
@[simp] theorem State.journalPut_jtag (s : State) (addr word : Nat) : (State.journalPut s addr word).jtag = s.jtag := rfl
@[simp] theorem State.journalPut_flt (s : State) (addr word : Nat) : (State.journalPut s addr word).flt = s.flt := rfl
@[simp] theorem State.journalPut_rst (s : State) (addr word : Nat) : (State.journalPut s addr word).rst = s.rst := rfl
@[simp] theorem State.journalPut_commits (s : State) (addr word : Nat) : (State.journalPut s addr word).commits = s.commits := rfl
@[simp] theorem State.journalPut_ntu (s : State) (addr word : Nat) : (State.journalPut s addr word).ntu = s.ntu := rfl
@[simp] theorem State.journalPut_tc (s : State) (addr word : Nat) : (State.journalPut s addr word).tc = s.tc := rfl
@[simp] theorem State.journalPut_tck (s : State) (addr word : Nat) : (State.journalPut s addr word).tck = s.tck := rfl
@[simp] theorem State.journalPut_ports (s : State) (addr word : Nat) : (State.journalPut s addr word).ports = s.ports := rfl
@[simp] theorem State.journalPut_dsFrames (s : State) (addr word : Nat) : (State.journalPut s addr word).dsFrames = s.dsFrames := rfl
@[simp] theorem State.journalPut_sense (s : State) (addr word : Nat) : (State.journalPut s addr word).sense = s.sense := rfl
@[simp] theorem State.journalPut_drives (s : State) (addr word : Nat) : (State.journalPut s addr word).drives = s.drives := rfl
@[simp] theorem State.journalPut_topo (s : State) (addr word : Nat) : (State.journalPut s addr word).topo = s.topo := rfl
@[simp] theorem State.journalPut_topoBytes (s : State) (addr word : Nat) : (State.journalPut s addr word).topoBytes = s.topoBytes := rfl
@[simp] theorem State.journalPut_topoLocked (s : State) (addr word : Nat) : (State.journalPut s addr word).topoLocked = s.topoLocked := rfl
@[simp] theorem State.journalPut_bad (s : State) (addr word : Nat) : (State.journalPut s addr word).bad = s.bad := rfl
@[simp] theorem State.journalPut_loops (s : State) (addr word : Nat) : (State.journalPut s addr word).loops = s.loops := rfl
@[simp] theorem State.journalPut_prf (s : State) (addr word : Nat) : (State.journalPut s addr word).prf = s.prf := rfl
@[simp] theorem State.journalPut_lpl (s : State) (addr word : Nat) : (State.journalPut s addr word).lpl = s.lpl := rfl
@[simp] theorem State.journalPut_rce (s : State) (addr word : Nat) : (State.journalPut s addr word).rce = s.rce := rfl
@[simp] theorem State.journalPut_crs (s : State) (addr word : Nat) : (State.journalPut s addr word).crs = s.crs := rfl
@[simp] theorem State.journalPut_prt (s : State) (addr word : Nat) : (State.journalPut s addr word).prt = s.prt := rfl
@[simp] theorem State.journalPut_rsv (s : State) (addr word : Nat) : (State.journalPut s addr word).rsv = s.rsv := rfl
@[simp] theorem State.journalPut_evt (s : State) (addr word : Nat) : (State.journalPut s addr word).evt = s.evt := rfl
@[simp] theorem State.journalPut_mea (s : State) (addr word : Nat) : (State.journalPut s addr word).mea = s.mea := rfl
@[simp] theorem State.journalPut_cal (s : State) (addr word : Nat) : (State.journalPut s addr word).cal = s.cal := rfl
@[simp] theorem State.journalPut_net (s : State) (addr word : Nat) : (State.journalPut s addr word).net = s.net := rfl
@[simp] theorem State.journalPut_pwr (s : State) (addr word : Nat) : (State.journalPut s addr word).pwr = s.pwr := rfl
@[simp] theorem State.journalPut_thm (s : State) (addr word : Nat) : (State.journalPut s addr word).thm = s.thm := rfl
@[simp] theorem State.journalPut_off (s : State) (addr word : Nat) : (State.journalPut s addr word).off = s.off := rfl
@[simp] theorem State.journalPut_pending (s : State) (addr word : Nat) : (State.journalPut s addr word).pending = s.pending := rfl
@[simp] theorem State.setPort_regs (s : State) (n : Nat) (f : PortSt → PortSt) : (State.setPort s n f).regs = s.regs := rfl
@[simp] theorem State.setPort_force (s : State) (n : Nat) (f : PortSt → PortSt) : (State.setPort s n f).force = s.force := rfl
@[simp] theorem State.setPort_mem (s : State) (n : Nat) (f : PortSt → PortSt) : (State.setPort s n f).mem = s.mem := rfl
@[simp] theorem State.setPort_outs (s : State) (n : Nat) (f : PortSt → PortSt) : (State.setPort s n f).outs = s.outs := rfl
@[simp] theorem State.setPort_fresh (s : State) (n : Nat) (f : PortSt → PortSt) : (State.setPort s n f).fresh = s.fresh := rfl
@[simp] theorem State.setPort_bus (s : State) (n : Nat) (f : PortSt → PortSt) : (State.setPort s n f).bus = s.bus := rfl
@[simp] theorem State.setPort_jtag (s : State) (n : Nat) (f : PortSt → PortSt) : (State.setPort s n f).jtag = s.jtag := rfl
@[simp] theorem State.setPort_flt (s : State) (n : Nat) (f : PortSt → PortSt) : (State.setPort s n f).flt = s.flt := rfl
@[simp] theorem State.setPort_rst (s : State) (n : Nat) (f : PortSt → PortSt) : (State.setPort s n f).rst = s.rst := rfl
@[simp] theorem State.setPort_commits (s : State) (n : Nat) (f : PortSt → PortSt) : (State.setPort s n f).commits = s.commits := rfl
@[simp] theorem State.setPort_ntu (s : State) (n : Nat) (f : PortSt → PortSt) : (State.setPort s n f).ntu = s.ntu := rfl
@[simp] theorem State.setPort_tc (s : State) (n : Nat) (f : PortSt → PortSt) : (State.setPort s n f).tc = s.tc := rfl
@[simp] theorem State.setPort_tck (s : State) (n : Nat) (f : PortSt → PortSt) : (State.setPort s n f).tck = s.tck := rfl
@[simp] theorem State.setPort_dsFrames (s : State) (n : Nat) (f : PortSt → PortSt) : (State.setPort s n f).dsFrames = s.dsFrames := rfl
@[simp] theorem State.setPort_sense (s : State) (n : Nat) (f : PortSt → PortSt) : (State.setPort s n f).sense = s.sense := rfl
@[simp] theorem State.setPort_drives (s : State) (n : Nat) (f : PortSt → PortSt) : (State.setPort s n f).drives = s.drives := rfl
@[simp] theorem State.setPort_topo (s : State) (n : Nat) (f : PortSt → PortSt) : (State.setPort s n f).topo = s.topo := rfl
@[simp] theorem State.setPort_topoBytes (s : State) (n : Nat) (f : PortSt → PortSt) : (State.setPort s n f).topoBytes = s.topoBytes := rfl
@[simp] theorem State.setPort_topoLocked (s : State) (n : Nat) (f : PortSt → PortSt) : (State.setPort s n f).topoLocked = s.topoLocked := rfl
@[simp] theorem State.setPort_bad (s : State) (n : Nat) (f : PortSt → PortSt) : (State.setPort s n f).bad = s.bad := rfl
@[simp] theorem State.setPort_loops (s : State) (n : Nat) (f : PortSt → PortSt) : (State.setPort s n f).loops = s.loops := rfl
@[simp] theorem State.setPort_prf (s : State) (n : Nat) (f : PortSt → PortSt) : (State.setPort s n f).prf = s.prf := rfl
@[simp] theorem State.setPort_lpl (s : State) (n : Nat) (f : PortSt → PortSt) : (State.setPort s n f).lpl = s.lpl := rfl
@[simp] theorem State.setPort_rce (s : State) (n : Nat) (f : PortSt → PortSt) : (State.setPort s n f).rce = s.rce := rfl
@[simp] theorem State.setPort_crs (s : State) (n : Nat) (f : PortSt → PortSt) : (State.setPort s n f).crs = s.crs := rfl
@[simp] theorem State.setPort_prt (s : State) (n : Nat) (f : PortSt → PortSt) : (State.setPort s n f).prt = s.prt := rfl
@[simp] theorem State.setPort_rsv (s : State) (n : Nat) (f : PortSt → PortSt) : (State.setPort s n f).rsv = s.rsv := rfl
@[simp] theorem State.setPort_evt (s : State) (n : Nat) (f : PortSt → PortSt) : (State.setPort s n f).evt = s.evt := rfl
@[simp] theorem State.setPort_mea (s : State) (n : Nat) (f : PortSt → PortSt) : (State.setPort s n f).mea = s.mea := rfl
@[simp] theorem State.setPort_cal (s : State) (n : Nat) (f : PortSt → PortSt) : (State.setPort s n f).cal = s.cal := rfl
@[simp] theorem State.setPort_net (s : State) (n : Nat) (f : PortSt → PortSt) : (State.setPort s n f).net = s.net := rfl
@[simp] theorem State.setPort_red (s : State) (n : Nat) (f : PortSt → PortSt) : (State.setPort s n f).red = s.red := rfl
@[simp] theorem State.setPort_pwr (s : State) (n : Nat) (f : PortSt → PortSt) : (State.setPort s n f).pwr = s.pwr := rfl
@[simp] theorem State.setPort_thm (s : State) (n : Nat) (f : PortSt → PortSt) : (State.setPort s n f).thm = s.thm := rfl
@[simp] theorem State.setPort_off (s : State) (n : Nat) (f : PortSt → PortSt) : (State.setPort s n f).off = s.off := rfl
@[simp] theorem State.setPort_pending (s : State) (n : Nat) (f : PortSt → PortSt) : (State.setPort s n f).pending = s.pending := rfl
@[simp] theorem State.setLoop_regs (s : State) (l : Nat) (f : Loop → Loop) : (State.setLoop s l f).regs = s.regs := rfl
@[simp] theorem State.setLoop_force (s : State) (l : Nat) (f : Loop → Loop) : (State.setLoop s l f).force = s.force := rfl
@[simp] theorem State.setLoop_mem (s : State) (l : Nat) (f : Loop → Loop) : (State.setLoop s l f).mem = s.mem := rfl
@[simp] theorem State.setLoop_outs (s : State) (l : Nat) (f : Loop → Loop) : (State.setLoop s l f).outs = s.outs := rfl
@[simp] theorem State.setLoop_fresh (s : State) (l : Nat) (f : Loop → Loop) : (State.setLoop s l f).fresh = s.fresh := rfl
@[simp] theorem State.setLoop_bus (s : State) (l : Nat) (f : Loop → Loop) : (State.setLoop s l f).bus = s.bus := rfl
@[simp] theorem State.setLoop_jtag (s : State) (l : Nat) (f : Loop → Loop) : (State.setLoop s l f).jtag = s.jtag := rfl
@[simp] theorem State.setLoop_flt (s : State) (l : Nat) (f : Loop → Loop) : (State.setLoop s l f).flt = s.flt := rfl
@[simp] theorem State.setLoop_rst (s : State) (l : Nat) (f : Loop → Loop) : (State.setLoop s l f).rst = s.rst := rfl
@[simp] theorem State.setLoop_commits (s : State) (l : Nat) (f : Loop → Loop) : (State.setLoop s l f).commits = s.commits := rfl
@[simp] theorem State.setLoop_ntu (s : State) (l : Nat) (f : Loop → Loop) : (State.setLoop s l f).ntu = s.ntu := rfl
@[simp] theorem State.setLoop_tc (s : State) (l : Nat) (f : Loop → Loop) : (State.setLoop s l f).tc = s.tc := rfl
@[simp] theorem State.setLoop_tck (s : State) (l : Nat) (f : Loop → Loop) : (State.setLoop s l f).tck = s.tck := rfl
@[simp] theorem State.setLoop_ports (s : State) (l : Nat) (f : Loop → Loop) : (State.setLoop s l f).ports = s.ports := rfl
@[simp] theorem State.setLoop_dsFrames (s : State) (l : Nat) (f : Loop → Loop) : (State.setLoop s l f).dsFrames = s.dsFrames := rfl
@[simp] theorem State.setLoop_sense (s : State) (l : Nat) (f : Loop → Loop) : (State.setLoop s l f).sense = s.sense := rfl
@[simp] theorem State.setLoop_drives (s : State) (l : Nat) (f : Loop → Loop) : (State.setLoop s l f).drives = s.drives := rfl
@[simp] theorem State.setLoop_topo (s : State) (l : Nat) (f : Loop → Loop) : (State.setLoop s l f).topo = s.topo := rfl
@[simp] theorem State.setLoop_topoBytes (s : State) (l : Nat) (f : Loop → Loop) : (State.setLoop s l f).topoBytes = s.topoBytes := rfl
@[simp] theorem State.setLoop_topoLocked (s : State) (l : Nat) (f : Loop → Loop) : (State.setLoop s l f).topoLocked = s.topoLocked := rfl
@[simp] theorem State.setLoop_bad (s : State) (l : Nat) (f : Loop → Loop) : (State.setLoop s l f).bad = s.bad := rfl
@[simp] theorem State.setLoop_prf (s : State) (l : Nat) (f : Loop → Loop) : (State.setLoop s l f).prf = s.prf := rfl
@[simp] theorem State.setLoop_lpl (s : State) (l : Nat) (f : Loop → Loop) : (State.setLoop s l f).lpl = s.lpl := rfl
@[simp] theorem State.setLoop_rce (s : State) (l : Nat) (f : Loop → Loop) : (State.setLoop s l f).rce = s.rce := rfl
@[simp] theorem State.setLoop_crs (s : State) (l : Nat) (f : Loop → Loop) : (State.setLoop s l f).crs = s.crs := rfl
@[simp] theorem State.setLoop_prt (s : State) (l : Nat) (f : Loop → Loop) : (State.setLoop s l f).prt = s.prt := rfl
@[simp] theorem State.setLoop_rsv (s : State) (l : Nat) (f : Loop → Loop) : (State.setLoop s l f).rsv = s.rsv := rfl
@[simp] theorem State.setLoop_evt (s : State) (l : Nat) (f : Loop → Loop) : (State.setLoop s l f).evt = s.evt := rfl
@[simp] theorem State.setLoop_mea (s : State) (l : Nat) (f : Loop → Loop) : (State.setLoop s l f).mea = s.mea := rfl
@[simp] theorem State.setLoop_cal (s : State) (l : Nat) (f : Loop → Loop) : (State.setLoop s l f).cal = s.cal := rfl
@[simp] theorem State.setLoop_net (s : State) (l : Nat) (f : Loop → Loop) : (State.setLoop s l f).net = s.net := rfl
@[simp] theorem State.setLoop_red (s : State) (l : Nat) (f : Loop → Loop) : (State.setLoop s l f).red = s.red := rfl
@[simp] theorem State.setLoop_pwr (s : State) (l : Nat) (f : Loop → Loop) : (State.setLoop s l f).pwr = s.pwr := rfl
@[simp] theorem State.setLoop_thm (s : State) (l : Nat) (f : Loop → Loop) : (State.setLoop s l f).thm = s.thm := rfl
@[simp] theorem State.setLoop_off (s : State) (l : Nat) (f : Loop → Loop) : (State.setLoop s l f).off = s.off := rfl
@[simp] theorem State.setLoop_pending (s : State) (l : Nat) (f : Loop → Loop) : (State.setLoop s l f).pending = s.pending := rfl

/-! ### Updates that choose -/

@[simp] theorem State.afterRise_force (a s : State) (page : Nat) : (State.afterRise a s page).force = s.force := by
  unfold State.afterRise; dsimp only; split <;> split <;> rfl
@[simp] theorem State.afterRise_mem (a s : State) (page : Nat) : (State.afterRise a s page).mem = s.mem := by
  unfold State.afterRise; dsimp only; split <;> split <;> rfl
@[simp] theorem State.afterRise_outs (a s : State) (page : Nat) : (State.afterRise a s page).outs = s.outs := by
  unfold State.afterRise; dsimp only; split <;> split <;> rfl
@[simp] theorem State.afterRise_fresh (a s : State) (page : Nat) : (State.afterRise a s page).fresh = s.fresh := by
  unfold State.afterRise; dsimp only; split <;> split <;> rfl
@[simp] theorem State.afterRise_jtag (a s : State) (page : Nat) : (State.afterRise a s page).jtag = s.jtag := by
  unfold State.afterRise; dsimp only; split <;> split <;> rfl
@[simp] theorem State.afterRise_flt (a s : State) (page : Nat) : (State.afterRise a s page).flt = s.flt := by
  unfold State.afterRise; dsimp only; split <;> split <;> rfl
@[simp] theorem State.afterRise_rst (a s : State) (page : Nat) : (State.afterRise a s page).rst = s.rst := by
  unfold State.afterRise; dsimp only; split <;> split <;> rfl
@[simp] theorem State.afterRise_commits (a s : State) (page : Nat) : (State.afterRise a s page).commits = s.commits := by
  unfold State.afterRise; dsimp only; split <;> split <;> rfl
@[simp] theorem State.afterRise_ntu (a s : State) (page : Nat) : (State.afterRise a s page).ntu = s.ntu := by
  unfold State.afterRise; dsimp only; split <;> split <;> rfl
@[simp] theorem State.afterRise_tc (a s : State) (page : Nat) : (State.afterRise a s page).tc = s.tc := by
  unfold State.afterRise; dsimp only; split <;> split <;> rfl
@[simp] theorem State.afterRise_tck (a s : State) (page : Nat) : (State.afterRise a s page).tck = s.tck := by
  unfold State.afterRise; dsimp only; split <;> split <;> rfl
@[simp] theorem State.afterRise_ports (a s : State) (page : Nat) : (State.afterRise a s page).ports = s.ports := by
  unfold State.afterRise; dsimp only; split <;> split <;> rfl
@[simp] theorem State.afterRise_dsFrames (a s : State) (page : Nat) : (State.afterRise a s page).dsFrames = s.dsFrames := by
  unfold State.afterRise; dsimp only; split <;> split <;> rfl
@[simp] theorem State.afterRise_sense (a s : State) (page : Nat) : (State.afterRise a s page).sense = s.sense := by
  unfold State.afterRise; dsimp only; split <;> split <;> rfl
@[simp] theorem State.afterRise_drives (a s : State) (page : Nat) : (State.afterRise a s page).drives = s.drives := by
  unfold State.afterRise; dsimp only; split <;> split <;> rfl
@[simp] theorem State.afterRise_topo (a s : State) (page : Nat) : (State.afterRise a s page).topo = s.topo := by
  unfold State.afterRise; dsimp only; split <;> split <;> rfl
@[simp] theorem State.afterRise_topoBytes (a s : State) (page : Nat) : (State.afterRise a s page).topoBytes = s.topoBytes := by
  unfold State.afterRise; dsimp only; split <;> split <;> rfl
@[simp] theorem State.afterRise_topoLocked (a s : State) (page : Nat) : (State.afterRise a s page).topoLocked = s.topoLocked := by
  unfold State.afterRise; dsimp only; split <;> split <;> rfl
@[simp] theorem State.afterRise_bad (a s : State) (page : Nat) : (State.afterRise a s page).bad = s.bad := by
  unfold State.afterRise; dsimp only; split <;> split <;> rfl
@[simp] theorem State.afterRise_loops (a s : State) (page : Nat) : (State.afterRise a s page).loops = s.loops := by
  unfold State.afterRise; dsimp only; split <;> split <;> rfl
@[simp] theorem State.afterRise_prf (a s : State) (page : Nat) : (State.afterRise a s page).prf = s.prf := by
  unfold State.afterRise; dsimp only; split <;> split <;> rfl
@[simp] theorem State.afterRise_lpl (a s : State) (page : Nat) : (State.afterRise a s page).lpl = s.lpl := by
  unfold State.afterRise; dsimp only; split <;> split <;> rfl
@[simp] theorem State.afterRise_rce (a s : State) (page : Nat) : (State.afterRise a s page).rce = s.rce := by
  unfold State.afterRise; dsimp only; split <;> split <;> rfl
@[simp] theorem State.afterRise_crs (a s : State) (page : Nat) : (State.afterRise a s page).crs = s.crs := by
  unfold State.afterRise; dsimp only; split <;> split <;> rfl
@[simp] theorem State.afterRise_prt (a s : State) (page : Nat) : (State.afterRise a s page).prt = s.prt := by
  unfold State.afterRise; dsimp only; split <;> split <;> rfl
@[simp] theorem State.afterRise_rsv (a s : State) (page : Nat) : (State.afterRise a s page).rsv = s.rsv := by
  unfold State.afterRise; dsimp only; split <;> split <;> rfl
@[simp] theorem State.afterRise_evt (a s : State) (page : Nat) : (State.afterRise a s page).evt = s.evt := by
  unfold State.afterRise; dsimp only; split <;> split <;> rfl
@[simp] theorem State.afterRise_mea (a s : State) (page : Nat) : (State.afterRise a s page).mea = s.mea := by
  unfold State.afterRise; dsimp only; split <;> split <;> rfl
@[simp] theorem State.afterRise_cal (a s : State) (page : Nat) : (State.afterRise a s page).cal = s.cal := by
  unfold State.afterRise; dsimp only; split <;> split <;> rfl
@[simp] theorem State.afterRise_net (a s : State) (page : Nat) : (State.afterRise a s page).net = s.net := by
  unfold State.afterRise; dsimp only; split <;> split <;> rfl
@[simp] theorem State.afterRise_red (a s : State) (page : Nat) : (State.afterRise a s page).red = s.red := by
  unfold State.afterRise; dsimp only; split <;> split <;> rfl
@[simp] theorem State.afterRise_pwr (a s : State) (page : Nat) : (State.afterRise a s page).pwr = s.pwr := by
  unfold State.afterRise; dsimp only; split <;> split <;> rfl
@[simp] theorem State.afterRise_thm (a s : State) (page : Nat) : (State.afterRise a s page).thm = s.thm := by
  unfold State.afterRise; dsimp only; split <;> split <;> rfl
@[simp] theorem State.afterRise_off (a s : State) (page : Nat) : (State.afterRise a s page).off = s.off := by
  unfold State.afterRise; dsimp only; split <;> split <;> rfl
@[simp] theorem State.afterRise_pending (a s : State) (page : Nat) : (State.afterRise a s page).pending = s.pending := by
  unfold State.afterRise; dsimp only; split <;> split <;> rfl
@[simp] theorem State.raise_force (s : State) (page i : Nat) : (State.raise s page i).force = s.force := by
  unfold State.raise State.withSummary; dsimp only; split <;> simp
@[simp] theorem State.raise_mem (s : State) (page i : Nat) : (State.raise s page i).mem = s.mem := by
  unfold State.raise State.withSummary; dsimp only; split <;> simp
@[simp] theorem State.raise_outs (s : State) (page i : Nat) : (State.raise s page i).outs = s.outs := by
  unfold State.raise State.withSummary; dsimp only; split <;> simp
@[simp] theorem State.raise_fresh (s : State) (page i : Nat) : (State.raise s page i).fresh = s.fresh := by
  unfold State.raise State.withSummary; dsimp only; split <;> simp
@[simp] theorem State.raise_jtag (s : State) (page i : Nat) : (State.raise s page i).jtag = s.jtag := by
  unfold State.raise State.withSummary; dsimp only; split <;> simp
@[simp] theorem State.raise_flt (s : State) (page i : Nat) : (State.raise s page i).flt = s.flt := by
  unfold State.raise State.withSummary; dsimp only; split <;> simp
@[simp] theorem State.raise_rst (s : State) (page i : Nat) : (State.raise s page i).rst = s.rst := by
  unfold State.raise State.withSummary; dsimp only; split <;> simp
@[simp] theorem State.raise_commits (s : State) (page i : Nat) : (State.raise s page i).commits = s.commits := by
  unfold State.raise State.withSummary; dsimp only; split <;> simp
@[simp] theorem State.raise_ntu (s : State) (page i : Nat) : (State.raise s page i).ntu = s.ntu := by
  unfold State.raise State.withSummary; dsimp only; split <;> simp
@[simp] theorem State.raise_tc (s : State) (page i : Nat) : (State.raise s page i).tc = s.tc := by
  unfold State.raise State.withSummary; dsimp only; split <;> simp
@[simp] theorem State.raise_tck (s : State) (page i : Nat) : (State.raise s page i).tck = s.tck := by
  unfold State.raise State.withSummary; dsimp only; split <;> simp
@[simp] theorem State.raise_ports (s : State) (page i : Nat) : (State.raise s page i).ports = s.ports := by
  unfold State.raise State.withSummary; dsimp only; split <;> simp
@[simp] theorem State.raise_dsFrames (s : State) (page i : Nat) : (State.raise s page i).dsFrames = s.dsFrames := by
  unfold State.raise State.withSummary; dsimp only; split <;> simp
@[simp] theorem State.raise_sense (s : State) (page i : Nat) : (State.raise s page i).sense = s.sense := by
  unfold State.raise State.withSummary; dsimp only; split <;> simp
@[simp] theorem State.raise_drives (s : State) (page i : Nat) : (State.raise s page i).drives = s.drives := by
  unfold State.raise State.withSummary; dsimp only; split <;> simp
@[simp] theorem State.raise_topo (s : State) (page i : Nat) : (State.raise s page i).topo = s.topo := by
  unfold State.raise State.withSummary; dsimp only; split <;> simp
@[simp] theorem State.raise_topoBytes (s : State) (page i : Nat) : (State.raise s page i).topoBytes = s.topoBytes := by
  unfold State.raise State.withSummary; dsimp only; split <;> simp
@[simp] theorem State.raise_topoLocked (s : State) (page i : Nat) : (State.raise s page i).topoLocked = s.topoLocked := by
  unfold State.raise State.withSummary; dsimp only; split <;> simp
@[simp] theorem State.raise_bad (s : State) (page i : Nat) : (State.raise s page i).bad = s.bad := by
  unfold State.raise State.withSummary; dsimp only; split <;> simp
@[simp] theorem State.raise_loops (s : State) (page i : Nat) : (State.raise s page i).loops = s.loops := by
  unfold State.raise State.withSummary; dsimp only; split <;> simp
@[simp] theorem State.raise_prf (s : State) (page i : Nat) : (State.raise s page i).prf = s.prf := by
  unfold State.raise State.withSummary; dsimp only; split <;> simp
@[simp] theorem State.raise_lpl (s : State) (page i : Nat) : (State.raise s page i).lpl = s.lpl := by
  unfold State.raise State.withSummary; dsimp only; split <;> simp
@[simp] theorem State.raise_rce (s : State) (page i : Nat) : (State.raise s page i).rce = s.rce := by
  unfold State.raise State.withSummary; dsimp only; split <;> simp
@[simp] theorem State.raise_crs (s : State) (page i : Nat) : (State.raise s page i).crs = s.crs := by
  unfold State.raise State.withSummary; dsimp only; split <;> simp
@[simp] theorem State.raise_prt (s : State) (page i : Nat) : (State.raise s page i).prt = s.prt := by
  unfold State.raise State.withSummary; dsimp only; split <;> simp
@[simp] theorem State.raise_rsv (s : State) (page i : Nat) : (State.raise s page i).rsv = s.rsv := by
  unfold State.raise State.withSummary; dsimp only; split <;> simp
@[simp] theorem State.raise_evt (s : State) (page i : Nat) : (State.raise s page i).evt = s.evt := by
  unfold State.raise State.withSummary; dsimp only; split <;> simp
@[simp] theorem State.raise_mea (s : State) (page i : Nat) : (State.raise s page i).mea = s.mea := by
  unfold State.raise State.withSummary; dsimp only; split <;> simp
@[simp] theorem State.raise_cal (s : State) (page i : Nat) : (State.raise s page i).cal = s.cal := by
  unfold State.raise State.withSummary; dsimp only; split <;> simp
@[simp] theorem State.raise_net (s : State) (page i : Nat) : (State.raise s page i).net = s.net := by
  unfold State.raise State.withSummary; dsimp only; split <;> simp
@[simp] theorem State.raise_red (s : State) (page i : Nat) : (State.raise s page i).red = s.red := by
  unfold State.raise State.withSummary; dsimp only; split <;> simp
@[simp] theorem State.raise_pwr (s : State) (page i : Nat) : (State.raise s page i).pwr = s.pwr := by
  unfold State.raise State.withSummary; dsimp only; split <;> simp
@[simp] theorem State.raise_thm (s : State) (page i : Nat) : (State.raise s page i).thm = s.thm := by
  unfold State.raise State.withSummary; dsimp only; split <;> simp
@[simp] theorem State.raise_off (s : State) (page i : Nat) : (State.raise s page i).off = s.off := by
  unfold State.raise State.withSummary; dsimp only; split <;> simp
@[simp] theorem State.raise_pending (s : State) (page i : Nat) : (State.raise s page i).pending = s.pending := by
  unfold State.raise State.withSummary; dsimp only; split <;> simp
@[simp] theorem State.raiseIf_force (s : State) (c : Bool) (page i : Nat) : (State.raiseIf s c page i).force = s.force := by
  unfold State.raiseIf; split <;> simp
@[simp] theorem State.raiseIf_mem (s : State) (c : Bool) (page i : Nat) : (State.raiseIf s c page i).mem = s.mem := by
  unfold State.raiseIf; split <;> simp
@[simp] theorem State.raiseIf_outs (s : State) (c : Bool) (page i : Nat) : (State.raiseIf s c page i).outs = s.outs := by
  unfold State.raiseIf; split <;> simp
@[simp] theorem State.raiseIf_fresh (s : State) (c : Bool) (page i : Nat) : (State.raiseIf s c page i).fresh = s.fresh := by
  unfold State.raiseIf; split <;> simp
@[simp] theorem State.raiseIf_jtag (s : State) (c : Bool) (page i : Nat) : (State.raiseIf s c page i).jtag = s.jtag := by
  unfold State.raiseIf; split <;> simp
@[simp] theorem State.raiseIf_flt (s : State) (c : Bool) (page i : Nat) : (State.raiseIf s c page i).flt = s.flt := by
  unfold State.raiseIf; split <;> simp
@[simp] theorem State.raiseIf_rst (s : State) (c : Bool) (page i : Nat) : (State.raiseIf s c page i).rst = s.rst := by
  unfold State.raiseIf; split <;> simp
@[simp] theorem State.raiseIf_commits (s : State) (c : Bool) (page i : Nat) : (State.raiseIf s c page i).commits = s.commits := by
  unfold State.raiseIf; split <;> simp
@[simp] theorem State.raiseIf_ntu (s : State) (c : Bool) (page i : Nat) : (State.raiseIf s c page i).ntu = s.ntu := by
  unfold State.raiseIf; split <;> simp
@[simp] theorem State.raiseIf_tc (s : State) (c : Bool) (page i : Nat) : (State.raiseIf s c page i).tc = s.tc := by
  unfold State.raiseIf; split <;> simp
@[simp] theorem State.raiseIf_tck (s : State) (c : Bool) (page i : Nat) : (State.raiseIf s c page i).tck = s.tck := by
  unfold State.raiseIf; split <;> simp
@[simp] theorem State.raiseIf_ports (s : State) (c : Bool) (page i : Nat) : (State.raiseIf s c page i).ports = s.ports := by
  unfold State.raiseIf; split <;> simp
@[simp] theorem State.raiseIf_dsFrames (s : State) (c : Bool) (page i : Nat) : (State.raiseIf s c page i).dsFrames = s.dsFrames := by
  unfold State.raiseIf; split <;> simp
@[simp] theorem State.raiseIf_sense (s : State) (c : Bool) (page i : Nat) : (State.raiseIf s c page i).sense = s.sense := by
  unfold State.raiseIf; split <;> simp
@[simp] theorem State.raiseIf_drives (s : State) (c : Bool) (page i : Nat) : (State.raiseIf s c page i).drives = s.drives := by
  unfold State.raiseIf; split <;> simp
@[simp] theorem State.raiseIf_topo (s : State) (c : Bool) (page i : Nat) : (State.raiseIf s c page i).topo = s.topo := by
  unfold State.raiseIf; split <;> simp
@[simp] theorem State.raiseIf_topoBytes (s : State) (c : Bool) (page i : Nat) : (State.raiseIf s c page i).topoBytes = s.topoBytes := by
  unfold State.raiseIf; split <;> simp
@[simp] theorem State.raiseIf_topoLocked (s : State) (c : Bool) (page i : Nat) : (State.raiseIf s c page i).topoLocked = s.topoLocked := by
  unfold State.raiseIf; split <;> simp
@[simp] theorem State.raiseIf_bad (s : State) (c : Bool) (page i : Nat) : (State.raiseIf s c page i).bad = s.bad := by
  unfold State.raiseIf; split <;> simp
@[simp] theorem State.raiseIf_loops (s : State) (c : Bool) (page i : Nat) : (State.raiseIf s c page i).loops = s.loops := by
  unfold State.raiseIf; split <;> simp
@[simp] theorem State.raiseIf_prf (s : State) (c : Bool) (page i : Nat) : (State.raiseIf s c page i).prf = s.prf := by
  unfold State.raiseIf; split <;> simp
@[simp] theorem State.raiseIf_lpl (s : State) (c : Bool) (page i : Nat) : (State.raiseIf s c page i).lpl = s.lpl := by
  unfold State.raiseIf; split <;> simp
@[simp] theorem State.raiseIf_rce (s : State) (c : Bool) (page i : Nat) : (State.raiseIf s c page i).rce = s.rce := by
  unfold State.raiseIf; split <;> simp
@[simp] theorem State.raiseIf_crs (s : State) (c : Bool) (page i : Nat) : (State.raiseIf s c page i).crs = s.crs := by
  unfold State.raiseIf; split <;> simp
@[simp] theorem State.raiseIf_prt (s : State) (c : Bool) (page i : Nat) : (State.raiseIf s c page i).prt = s.prt := by
  unfold State.raiseIf; split <;> simp
@[simp] theorem State.raiseIf_rsv (s : State) (c : Bool) (page i : Nat) : (State.raiseIf s c page i).rsv = s.rsv := by
  unfold State.raiseIf; split <;> simp
@[simp] theorem State.raiseIf_evt (s : State) (c : Bool) (page i : Nat) : (State.raiseIf s c page i).evt = s.evt := by
  unfold State.raiseIf; split <;> simp
@[simp] theorem State.raiseIf_mea (s : State) (c : Bool) (page i : Nat) : (State.raiseIf s c page i).mea = s.mea := by
  unfold State.raiseIf; split <;> simp
@[simp] theorem State.raiseIf_cal (s : State) (c : Bool) (page i : Nat) : (State.raiseIf s c page i).cal = s.cal := by
  unfold State.raiseIf; split <;> simp
@[simp] theorem State.raiseIf_net (s : State) (c : Bool) (page i : Nat) : (State.raiseIf s c page i).net = s.net := by
  unfold State.raiseIf; split <;> simp
@[simp] theorem State.raiseIf_red (s : State) (c : Bool) (page i : Nat) : (State.raiseIf s c page i).red = s.red := by
  unfold State.raiseIf; split <;> simp
@[simp] theorem State.raiseIf_pwr (s : State) (c : Bool) (page i : Nat) : (State.raiseIf s c page i).pwr = s.pwr := by
  unfold State.raiseIf; split <;> simp
@[simp] theorem State.raiseIf_thm (s : State) (c : Bool) (page i : Nat) : (State.raiseIf s c page i).thm = s.thm := by
  unfold State.raiseIf; split <;> simp
@[simp] theorem State.raiseIf_off (s : State) (c : Bool) (page i : Nat) : (State.raiseIf s c page i).off = s.off := by
  unfold State.raiseIf; split <;> simp
@[simp] theorem State.raiseIf_pending (s : State) (c : Bool) (page i : Nat) : (State.raiseIf s c page i).pending = s.pending := by
  unfold State.raiseIf; split <;> simp
@[simp] theorem State.logEvent_force (s : State) (page cls code hi lo : Nat) : (State.logEvent s page cls code hi lo).force = s.force := by
  unfold State.logEvent; dsimp only; simp; split <;> simp
@[simp] theorem State.logEvent_mem (s : State) (page cls code hi lo : Nat) : (State.logEvent s page cls code hi lo).mem = s.mem := by
  unfold State.logEvent; dsimp only; simp; split <;> simp
@[simp] theorem State.logEvent_outs (s : State) (page cls code hi lo : Nat) : (State.logEvent s page cls code hi lo).outs = s.outs := by
  unfold State.logEvent; dsimp only; simp; split <;> simp
@[simp] theorem State.logEvent_fresh (s : State) (page cls code hi lo : Nat) : (State.logEvent s page cls code hi lo).fresh = s.fresh := by
  unfold State.logEvent; dsimp only; simp; split <;> simp
@[simp] theorem State.logEvent_jtag (s : State) (page cls code hi lo : Nat) : (State.logEvent s page cls code hi lo).jtag = s.jtag := by
  unfold State.logEvent; dsimp only; simp; split <;> simp
@[simp] theorem State.logEvent_rst (s : State) (page cls code hi lo : Nat) : (State.logEvent s page cls code hi lo).rst = s.rst := by
  unfold State.logEvent; dsimp only; simp; split <;> simp
@[simp] theorem State.logEvent_commits (s : State) (page cls code hi lo : Nat) : (State.logEvent s page cls code hi lo).commits = s.commits := by
  unfold State.logEvent; dsimp only; simp; split <;> simp
@[simp] theorem State.logEvent_ntu (s : State) (page cls code hi lo : Nat) : (State.logEvent s page cls code hi lo).ntu = s.ntu := by
  unfold State.logEvent; dsimp only; simp; split <;> simp
@[simp] theorem State.logEvent_tc (s : State) (page cls code hi lo : Nat) : (State.logEvent s page cls code hi lo).tc = s.tc := by
  unfold State.logEvent; dsimp only; simp; split <;> simp
@[simp] theorem State.logEvent_tck (s : State) (page cls code hi lo : Nat) : (State.logEvent s page cls code hi lo).tck = s.tck := by
  unfold State.logEvent; dsimp only; simp; split <;> simp
@[simp] theorem State.logEvent_ports (s : State) (page cls code hi lo : Nat) : (State.logEvent s page cls code hi lo).ports = s.ports := by
  unfold State.logEvent; dsimp only; simp; split <;> simp
@[simp] theorem State.logEvent_dsFrames (s : State) (page cls code hi lo : Nat) : (State.logEvent s page cls code hi lo).dsFrames = s.dsFrames := by
  unfold State.logEvent; dsimp only; simp; split <;> simp
@[simp] theorem State.logEvent_sense (s : State) (page cls code hi lo : Nat) : (State.logEvent s page cls code hi lo).sense = s.sense := by
  unfold State.logEvent; dsimp only; simp; split <;> simp
@[simp] theorem State.logEvent_drives (s : State) (page cls code hi lo : Nat) : (State.logEvent s page cls code hi lo).drives = s.drives := by
  unfold State.logEvent; dsimp only; simp; split <;> simp
@[simp] theorem State.logEvent_topo (s : State) (page cls code hi lo : Nat) : (State.logEvent s page cls code hi lo).topo = s.topo := by
  unfold State.logEvent; dsimp only; simp; split <;> simp
@[simp] theorem State.logEvent_topoBytes (s : State) (page cls code hi lo : Nat) : (State.logEvent s page cls code hi lo).topoBytes = s.topoBytes := by
  unfold State.logEvent; dsimp only; simp; split <;> simp
@[simp] theorem State.logEvent_topoLocked (s : State) (page cls code hi lo : Nat) : (State.logEvent s page cls code hi lo).topoLocked = s.topoLocked := by
  unfold State.logEvent; dsimp only; simp; split <;> simp
@[simp] theorem State.logEvent_bad (s : State) (page cls code hi lo : Nat) : (State.logEvent s page cls code hi lo).bad = s.bad := by
  unfold State.logEvent; dsimp only; simp; split <;> simp
@[simp] theorem State.logEvent_loops (s : State) (page cls code hi lo : Nat) : (State.logEvent s page cls code hi lo).loops = s.loops := by
  unfold State.logEvent; dsimp only; simp; split <;> simp
@[simp] theorem State.logEvent_prf (s : State) (page cls code hi lo : Nat) : (State.logEvent s page cls code hi lo).prf = s.prf := by
  unfold State.logEvent; dsimp only; simp; split <;> simp
@[simp] theorem State.logEvent_lpl (s : State) (page cls code hi lo : Nat) : (State.logEvent s page cls code hi lo).lpl = s.lpl := by
  unfold State.logEvent; dsimp only; simp; split <;> simp
@[simp] theorem State.logEvent_rce (s : State) (page cls code hi lo : Nat) : (State.logEvent s page cls code hi lo).rce = s.rce := by
  unfold State.logEvent; dsimp only; simp; split <;> simp
@[simp] theorem State.logEvent_crs (s : State) (page cls code hi lo : Nat) : (State.logEvent s page cls code hi lo).crs = s.crs := by
  unfold State.logEvent; dsimp only; simp; split <;> simp
@[simp] theorem State.logEvent_prt (s : State) (page cls code hi lo : Nat) : (State.logEvent s page cls code hi lo).prt = s.prt := by
  unfold State.logEvent; dsimp only; simp; split <;> simp
@[simp] theorem State.logEvent_rsv (s : State) (page cls code hi lo : Nat) : (State.logEvent s page cls code hi lo).rsv = s.rsv := by
  unfold State.logEvent; dsimp only; simp; split <;> simp
@[simp] theorem State.logEvent_evt (s : State) (page cls code hi lo : Nat) : (State.logEvent s page cls code hi lo).evt = s.evt := by
  unfold State.logEvent; dsimp only; simp; split <;> simp
@[simp] theorem State.logEvent_mea (s : State) (page cls code hi lo : Nat) : (State.logEvent s page cls code hi lo).mea = s.mea := by
  unfold State.logEvent; dsimp only; simp; split <;> simp
@[simp] theorem State.logEvent_cal (s : State) (page cls code hi lo : Nat) : (State.logEvent s page cls code hi lo).cal = s.cal := by
  unfold State.logEvent; dsimp only; simp; split <;> simp
@[simp] theorem State.logEvent_net (s : State) (page cls code hi lo : Nat) : (State.logEvent s page cls code hi lo).net = s.net := by
  unfold State.logEvent; dsimp only; simp; split <;> simp
@[simp] theorem State.logEvent_red (s : State) (page cls code hi lo : Nat) : (State.logEvent s page cls code hi lo).red = s.red := by
  unfold State.logEvent; dsimp only; simp; split <;> simp
@[simp] theorem State.logEvent_pwr (s : State) (page cls code hi lo : Nat) : (State.logEvent s page cls code hi lo).pwr = s.pwr := by
  unfold State.logEvent; dsimp only; simp; split <;> simp
@[simp] theorem State.logEvent_thm (s : State) (page cls code hi lo : Nat) : (State.logEvent s page cls code hi lo).thm = s.thm := by
  unfold State.logEvent; dsimp only; simp; split <;> simp
@[simp] theorem State.logEvent_off (s : State) (page cls code hi lo : Nat) : (State.logEvent s page cls code hi lo).off = s.off := by
  unfold State.logEvent; dsimp only; simp; split <;> simp
@[simp] theorem State.logEvent_pending (s : State) (page cls code hi lo : Nat) : (State.logEvent s page cls code hi lo).pending = s.pending := by
  unfold State.logEvent; dsimp only; simp; split <;> simp
@[simp] theorem State.violate_force (s : State) (m : Nat) (write : Bool) (addr kind : Nat) : (State.violate s m write addr kind).force = s.force := by
  unfold State.violate; simp
@[simp] theorem State.violate_mem (s : State) (m : Nat) (write : Bool) (addr kind : Nat) : (State.violate s m write addr kind).mem = s.mem := by
  unfold State.violate; simp
@[simp] theorem State.violate_outs (s : State) (m : Nat) (write : Bool) (addr kind : Nat) : (State.violate s m write addr kind).outs = s.outs := by
  unfold State.violate; simp
@[simp] theorem State.violate_fresh (s : State) (m : Nat) (write : Bool) (addr kind : Nat) : (State.violate s m write addr kind).fresh = s.fresh := by
  unfold State.violate; simp
@[simp] theorem State.violate_jtag (s : State) (m : Nat) (write : Bool) (addr kind : Nat) : (State.violate s m write addr kind).jtag = s.jtag := by
  unfold State.violate; simp
@[simp] theorem State.violate_flt (s : State) (m : Nat) (write : Bool) (addr kind : Nat) : (State.violate s m write addr kind).flt = s.flt := by
  unfold State.violate; simp
@[simp] theorem State.violate_rst (s : State) (m : Nat) (write : Bool) (addr kind : Nat) : (State.violate s m write addr kind).rst = s.rst := by
  unfold State.violate; simp
@[simp] theorem State.violate_commits (s : State) (m : Nat) (write : Bool) (addr kind : Nat) : (State.violate s m write addr kind).commits = s.commits := by
  unfold State.violate; simp
@[simp] theorem State.violate_ntu (s : State) (m : Nat) (write : Bool) (addr kind : Nat) : (State.violate s m write addr kind).ntu = s.ntu := by
  unfold State.violate; simp
@[simp] theorem State.violate_tc (s : State) (m : Nat) (write : Bool) (addr kind : Nat) : (State.violate s m write addr kind).tc = s.tc := by
  unfold State.violate; simp
@[simp] theorem State.violate_tck (s : State) (m : Nat) (write : Bool) (addr kind : Nat) : (State.violate s m write addr kind).tck = s.tck := by
  unfold State.violate; simp
@[simp] theorem State.violate_ports (s : State) (m : Nat) (write : Bool) (addr kind : Nat) : (State.violate s m write addr kind).ports = s.ports := by
  unfold State.violate; simp
@[simp] theorem State.violate_dsFrames (s : State) (m : Nat) (write : Bool) (addr kind : Nat) : (State.violate s m write addr kind).dsFrames = s.dsFrames := by
  unfold State.violate; simp
@[simp] theorem State.violate_sense (s : State) (m : Nat) (write : Bool) (addr kind : Nat) : (State.violate s m write addr kind).sense = s.sense := by
  unfold State.violate; simp
@[simp] theorem State.violate_drives (s : State) (m : Nat) (write : Bool) (addr kind : Nat) : (State.violate s m write addr kind).drives = s.drives := by
  unfold State.violate; simp
@[simp] theorem State.violate_topo (s : State) (m : Nat) (write : Bool) (addr kind : Nat) : (State.violate s m write addr kind).topo = s.topo := by
  unfold State.violate; simp
@[simp] theorem State.violate_topoBytes (s : State) (m : Nat) (write : Bool) (addr kind : Nat) : (State.violate s m write addr kind).topoBytes = s.topoBytes := by
  unfold State.violate; simp
@[simp] theorem State.violate_topoLocked (s : State) (m : Nat) (write : Bool) (addr kind : Nat) : (State.violate s m write addr kind).topoLocked = s.topoLocked := by
  unfold State.violate; simp
@[simp] theorem State.violate_bad (s : State) (m : Nat) (write : Bool) (addr kind : Nat) : (State.violate s m write addr kind).bad = s.bad := by
  unfold State.violate; simp
@[simp] theorem State.violate_loops (s : State) (m : Nat) (write : Bool) (addr kind : Nat) : (State.violate s m write addr kind).loops = s.loops := by
  unfold State.violate; simp
@[simp] theorem State.violate_prf (s : State) (m : Nat) (write : Bool) (addr kind : Nat) : (State.violate s m write addr kind).prf = s.prf := by
  unfold State.violate; simp
@[simp] theorem State.violate_lpl (s : State) (m : Nat) (write : Bool) (addr kind : Nat) : (State.violate s m write addr kind).lpl = s.lpl := by
  unfold State.violate; simp
@[simp] theorem State.violate_rce (s : State) (m : Nat) (write : Bool) (addr kind : Nat) : (State.violate s m write addr kind).rce = s.rce := by
  unfold State.violate; simp
@[simp] theorem State.violate_crs (s : State) (m : Nat) (write : Bool) (addr kind : Nat) : (State.violate s m write addr kind).crs = s.crs := by
  unfold State.violate; simp
@[simp] theorem State.violate_prt (s : State) (m : Nat) (write : Bool) (addr kind : Nat) : (State.violate s m write addr kind).prt = s.prt := by
  unfold State.violate; simp
@[simp] theorem State.violate_rsv (s : State) (m : Nat) (write : Bool) (addr kind : Nat) : (State.violate s m write addr kind).rsv = s.rsv := by
  unfold State.violate; simp
@[simp] theorem State.violate_evt (s : State) (m : Nat) (write : Bool) (addr kind : Nat) : (State.violate s m write addr kind).evt = s.evt := by
  unfold State.violate; simp
@[simp] theorem State.violate_mea (s : State) (m : Nat) (write : Bool) (addr kind : Nat) : (State.violate s m write addr kind).mea = s.mea := by
  unfold State.violate; simp
@[simp] theorem State.violate_cal (s : State) (m : Nat) (write : Bool) (addr kind : Nat) : (State.violate s m write addr kind).cal = s.cal := by
  unfold State.violate; simp
@[simp] theorem State.violate_net (s : State) (m : Nat) (write : Bool) (addr kind : Nat) : (State.violate s m write addr kind).net = s.net := by
  unfold State.violate; simp
@[simp] theorem State.violate_red (s : State) (m : Nat) (write : Bool) (addr kind : Nat) : (State.violate s m write addr kind).red = s.red := by
  unfold State.violate; simp
@[simp] theorem State.violate_pwr (s : State) (m : Nat) (write : Bool) (addr kind : Nat) : (State.violate s m write addr kind).pwr = s.pwr := by
  unfold State.violate; simp
@[simp] theorem State.violate_thm (s : State) (m : Nat) (write : Bool) (addr kind : Nat) : (State.violate s m write addr kind).thm = s.thm := by
  unfold State.violate; simp
@[simp] theorem State.violate_off (s : State) (m : Nat) (write : Bool) (addr kind : Nat) : (State.violate s m write addr kind).off = s.off := by
  unfold State.violate; simp
@[simp] theorem State.violate_pending (s : State) (m : Nat) (write : Bool) (addr kind : Nat) : (State.violate s m write addr kind).pending = s.pending := by
  unfold State.violate; simp
@[simp] theorem State.refuseWrite_force (s : State) (m addr : Nat) : (State.refuseWrite s m addr).force = s.force := by
  unfold State.refuseWrite; simp
@[simp] theorem State.refuseWrite_mem (s : State) (m addr : Nat) : (State.refuseWrite s m addr).mem = s.mem := by
  unfold State.refuseWrite; simp
@[simp] theorem State.refuseWrite_outs (s : State) (m addr : Nat) : (State.refuseWrite s m addr).outs = s.outs := by
  unfold State.refuseWrite; simp
@[simp] theorem State.refuseWrite_fresh (s : State) (m addr : Nat) : (State.refuseWrite s m addr).fresh = s.fresh := by
  unfold State.refuseWrite; simp
@[simp] theorem State.refuseWrite_jtag (s : State) (m addr : Nat) : (State.refuseWrite s m addr).jtag = s.jtag := by
  unfold State.refuseWrite; simp
@[simp] theorem State.refuseWrite_flt (s : State) (m addr : Nat) : (State.refuseWrite s m addr).flt = s.flt := by
  unfold State.refuseWrite; simp
@[simp] theorem State.refuseWrite_rst (s : State) (m addr : Nat) : (State.refuseWrite s m addr).rst = s.rst := by
  unfold State.refuseWrite; simp
@[simp] theorem State.refuseWrite_commits (s : State) (m addr : Nat) : (State.refuseWrite s m addr).commits = s.commits := by
  unfold State.refuseWrite; simp
@[simp] theorem State.refuseWrite_ntu (s : State) (m addr : Nat) : (State.refuseWrite s m addr).ntu = s.ntu := by
  unfold State.refuseWrite; simp
@[simp] theorem State.refuseWrite_tc (s : State) (m addr : Nat) : (State.refuseWrite s m addr).tc = s.tc := by
  unfold State.refuseWrite; simp
@[simp] theorem State.refuseWrite_tck (s : State) (m addr : Nat) : (State.refuseWrite s m addr).tck = s.tck := by
  unfold State.refuseWrite; simp
@[simp] theorem State.refuseWrite_ports (s : State) (m addr : Nat) : (State.refuseWrite s m addr).ports = s.ports := by
  unfold State.refuseWrite; simp
@[simp] theorem State.refuseWrite_dsFrames (s : State) (m addr : Nat) : (State.refuseWrite s m addr).dsFrames = s.dsFrames := by
  unfold State.refuseWrite; simp
@[simp] theorem State.refuseWrite_sense (s : State) (m addr : Nat) : (State.refuseWrite s m addr).sense = s.sense := by
  unfold State.refuseWrite; simp
@[simp] theorem State.refuseWrite_drives (s : State) (m addr : Nat) : (State.refuseWrite s m addr).drives = s.drives := by
  unfold State.refuseWrite; simp
@[simp] theorem State.refuseWrite_topo (s : State) (m addr : Nat) : (State.refuseWrite s m addr).topo = s.topo := by
  unfold State.refuseWrite; simp
@[simp] theorem State.refuseWrite_topoBytes (s : State) (m addr : Nat) : (State.refuseWrite s m addr).topoBytes = s.topoBytes := by
  unfold State.refuseWrite; simp
@[simp] theorem State.refuseWrite_topoLocked (s : State) (m addr : Nat) : (State.refuseWrite s m addr).topoLocked = s.topoLocked := by
  unfold State.refuseWrite; simp
@[simp] theorem State.refuseWrite_bad (s : State) (m addr : Nat) : (State.refuseWrite s m addr).bad = s.bad := by
  unfold State.refuseWrite; simp
@[simp] theorem State.refuseWrite_loops (s : State) (m addr : Nat) : (State.refuseWrite s m addr).loops = s.loops := by
  unfold State.refuseWrite; simp
@[simp] theorem State.refuseWrite_prf (s : State) (m addr : Nat) : (State.refuseWrite s m addr).prf = s.prf := by
  unfold State.refuseWrite; simp
@[simp] theorem State.refuseWrite_lpl (s : State) (m addr : Nat) : (State.refuseWrite s m addr).lpl = s.lpl := by
  unfold State.refuseWrite; simp
@[simp] theorem State.refuseWrite_rce (s : State) (m addr : Nat) : (State.refuseWrite s m addr).rce = s.rce := by
  unfold State.refuseWrite; simp
@[simp] theorem State.refuseWrite_crs (s : State) (m addr : Nat) : (State.refuseWrite s m addr).crs = s.crs := by
  unfold State.refuseWrite; simp
@[simp] theorem State.refuseWrite_prt (s : State) (m addr : Nat) : (State.refuseWrite s m addr).prt = s.prt := by
  unfold State.refuseWrite; simp
@[simp] theorem State.refuseWrite_rsv (s : State) (m addr : Nat) : (State.refuseWrite s m addr).rsv = s.rsv := by
  unfold State.refuseWrite; simp
@[simp] theorem State.refuseWrite_evt (s : State) (m addr : Nat) : (State.refuseWrite s m addr).evt = s.evt := by
  unfold State.refuseWrite; simp
@[simp] theorem State.refuseWrite_mea (s : State) (m addr : Nat) : (State.refuseWrite s m addr).mea = s.mea := by
  unfold State.refuseWrite; simp
@[simp] theorem State.refuseWrite_cal (s : State) (m addr : Nat) : (State.refuseWrite s m addr).cal = s.cal := by
  unfold State.refuseWrite; simp
@[simp] theorem State.refuseWrite_net (s : State) (m addr : Nat) : (State.refuseWrite s m addr).net = s.net := by
  unfold State.refuseWrite; simp
@[simp] theorem State.refuseWrite_red (s : State) (m addr : Nat) : (State.refuseWrite s m addr).red = s.red := by
  unfold State.refuseWrite; simp
@[simp] theorem State.refuseWrite_pwr (s : State) (m addr : Nat) : (State.refuseWrite s m addr).pwr = s.pwr := by
  unfold State.refuseWrite; simp
@[simp] theorem State.refuseWrite_thm (s : State) (m addr : Nat) : (State.refuseWrite s m addr).thm = s.thm := by
  unfold State.refuseWrite; simp
@[simp] theorem State.refuseWrite_off (s : State) (m addr : Nat) : (State.refuseWrite s m addr).off = s.off := by
  unfold State.refuseWrite; simp
@[simp] theorem State.refuseWrite_pending (s : State) (m addr : Nat) : (State.refuseWrite s m addr).pending = s.pending := by
  unfold State.refuseWrite; simp
@[simp] theorem State.decodeErr_force (s : State) (m : Nat) (write : Bool) (addr : Nat) : (State.decodeErr s m write addr).force = s.force := by
  unfold State.decodeErr; dsimp only; split <;> simp
@[simp] theorem State.decodeErr_mem (s : State) (m : Nat) (write : Bool) (addr : Nat) : (State.decodeErr s m write addr).mem = s.mem := by
  unfold State.decodeErr; dsimp only; split <;> simp
@[simp] theorem State.decodeErr_outs (s : State) (m : Nat) (write : Bool) (addr : Nat) : (State.decodeErr s m write addr).outs = s.outs := by
  unfold State.decodeErr; dsimp only; split <;> simp
@[simp] theorem State.decodeErr_fresh (s : State) (m : Nat) (write : Bool) (addr : Nat) : (State.decodeErr s m write addr).fresh = s.fresh := by
  unfold State.decodeErr; dsimp only; split <;> simp
@[simp] theorem State.decodeErr_jtag (s : State) (m : Nat) (write : Bool) (addr : Nat) : (State.decodeErr s m write addr).jtag = s.jtag := by
  unfold State.decodeErr; dsimp only; split <;> simp
@[simp] theorem State.decodeErr_flt (s : State) (m : Nat) (write : Bool) (addr : Nat) : (State.decodeErr s m write addr).flt = s.flt := by
  unfold State.decodeErr; dsimp only; split <;> simp
@[simp] theorem State.decodeErr_rst (s : State) (m : Nat) (write : Bool) (addr : Nat) : (State.decodeErr s m write addr).rst = s.rst := by
  unfold State.decodeErr; dsimp only; split <;> simp
@[simp] theorem State.decodeErr_commits (s : State) (m : Nat) (write : Bool) (addr : Nat) : (State.decodeErr s m write addr).commits = s.commits := by
  unfold State.decodeErr; dsimp only; split <;> simp
@[simp] theorem State.decodeErr_ntu (s : State) (m : Nat) (write : Bool) (addr : Nat) : (State.decodeErr s m write addr).ntu = s.ntu := by
  unfold State.decodeErr; dsimp only; split <;> simp
@[simp] theorem State.decodeErr_tc (s : State) (m : Nat) (write : Bool) (addr : Nat) : (State.decodeErr s m write addr).tc = s.tc := by
  unfold State.decodeErr; dsimp only; split <;> simp
@[simp] theorem State.decodeErr_tck (s : State) (m : Nat) (write : Bool) (addr : Nat) : (State.decodeErr s m write addr).tck = s.tck := by
  unfold State.decodeErr; dsimp only; split <;> simp
@[simp] theorem State.decodeErr_ports (s : State) (m : Nat) (write : Bool) (addr : Nat) : (State.decodeErr s m write addr).ports = s.ports := by
  unfold State.decodeErr; dsimp only; split <;> simp
@[simp] theorem State.decodeErr_dsFrames (s : State) (m : Nat) (write : Bool) (addr : Nat) : (State.decodeErr s m write addr).dsFrames = s.dsFrames := by
  unfold State.decodeErr; dsimp only; split <;> simp
@[simp] theorem State.decodeErr_sense (s : State) (m : Nat) (write : Bool) (addr : Nat) : (State.decodeErr s m write addr).sense = s.sense := by
  unfold State.decodeErr; dsimp only; split <;> simp
@[simp] theorem State.decodeErr_drives (s : State) (m : Nat) (write : Bool) (addr : Nat) : (State.decodeErr s m write addr).drives = s.drives := by
  unfold State.decodeErr; dsimp only; split <;> simp
@[simp] theorem State.decodeErr_topo (s : State) (m : Nat) (write : Bool) (addr : Nat) : (State.decodeErr s m write addr).topo = s.topo := by
  unfold State.decodeErr; dsimp only; split <;> simp
@[simp] theorem State.decodeErr_topoBytes (s : State) (m : Nat) (write : Bool) (addr : Nat) : (State.decodeErr s m write addr).topoBytes = s.topoBytes := by
  unfold State.decodeErr; dsimp only; split <;> simp
@[simp] theorem State.decodeErr_topoLocked (s : State) (m : Nat) (write : Bool) (addr : Nat) : (State.decodeErr s m write addr).topoLocked = s.topoLocked := by
  unfold State.decodeErr; dsimp only; split <;> simp
@[simp] theorem State.decodeErr_bad (s : State) (m : Nat) (write : Bool) (addr : Nat) : (State.decodeErr s m write addr).bad = s.bad := by
  unfold State.decodeErr; dsimp only; split <;> simp
@[simp] theorem State.decodeErr_loops (s : State) (m : Nat) (write : Bool) (addr : Nat) : (State.decodeErr s m write addr).loops = s.loops := by
  unfold State.decodeErr; dsimp only; split <;> simp
@[simp] theorem State.decodeErr_prf (s : State) (m : Nat) (write : Bool) (addr : Nat) : (State.decodeErr s m write addr).prf = s.prf := by
  unfold State.decodeErr; dsimp only; split <;> simp
@[simp] theorem State.decodeErr_lpl (s : State) (m : Nat) (write : Bool) (addr : Nat) : (State.decodeErr s m write addr).lpl = s.lpl := by
  unfold State.decodeErr; dsimp only; split <;> simp
@[simp] theorem State.decodeErr_rce (s : State) (m : Nat) (write : Bool) (addr : Nat) : (State.decodeErr s m write addr).rce = s.rce := by
  unfold State.decodeErr; dsimp only; split <;> simp
@[simp] theorem State.decodeErr_crs (s : State) (m : Nat) (write : Bool) (addr : Nat) : (State.decodeErr s m write addr).crs = s.crs := by
  unfold State.decodeErr; dsimp only; split <;> simp
@[simp] theorem State.decodeErr_prt (s : State) (m : Nat) (write : Bool) (addr : Nat) : (State.decodeErr s m write addr).prt = s.prt := by
  unfold State.decodeErr; dsimp only; split <;> simp
@[simp] theorem State.decodeErr_rsv (s : State) (m : Nat) (write : Bool) (addr : Nat) : (State.decodeErr s m write addr).rsv = s.rsv := by
  unfold State.decodeErr; dsimp only; split <;> simp
@[simp] theorem State.decodeErr_evt (s : State) (m : Nat) (write : Bool) (addr : Nat) : (State.decodeErr s m write addr).evt = s.evt := by
  unfold State.decodeErr; dsimp only; split <;> simp
@[simp] theorem State.decodeErr_mea (s : State) (m : Nat) (write : Bool) (addr : Nat) : (State.decodeErr s m write addr).mea = s.mea := by
  unfold State.decodeErr; dsimp only; split <;> simp
@[simp] theorem State.decodeErr_cal (s : State) (m : Nat) (write : Bool) (addr : Nat) : (State.decodeErr s m write addr).cal = s.cal := by
  unfold State.decodeErr; dsimp only; split <;> simp
@[simp] theorem State.decodeErr_net (s : State) (m : Nat) (write : Bool) (addr : Nat) : (State.decodeErr s m write addr).net = s.net := by
  unfold State.decodeErr; dsimp only; split <;> simp
@[simp] theorem State.decodeErr_red (s : State) (m : Nat) (write : Bool) (addr : Nat) : (State.decodeErr s m write addr).red = s.red := by
  unfold State.decodeErr; dsimp only; split <;> simp
@[simp] theorem State.decodeErr_pwr (s : State) (m : Nat) (write : Bool) (addr : Nat) : (State.decodeErr s m write addr).pwr = s.pwr := by
  unfold State.decodeErr; dsimp only; split <;> simp
@[simp] theorem State.decodeErr_thm (s : State) (m : Nat) (write : Bool) (addr : Nat) : (State.decodeErr s m write addr).thm = s.thm := by
  unfold State.decodeErr; dsimp only; split <;> simp
@[simp] theorem State.decodeErr_off (s : State) (m : Nat) (write : Bool) (addr : Nat) : (State.decodeErr s m write addr).off = s.off := by
  unfold State.decodeErr; dsimp only; split <;> simp
@[simp] theorem State.decodeErr_pending (s : State) (m : Nat) (write : Bool) (addr : Nat) : (State.decodeErr s m write addr).pending = s.pending := by
  unfold State.decodeErr; dsimp only; split <;> simp
@[simp] theorem State.judgeFault_force (s : State) (page c n : Nat) : (State.judgeFault s page c n).force = s.force := by
  unfold State.judgeFault; split <;> simp
@[simp] theorem State.judgeFault_mem (s : State) (page c n : Nat) : (State.judgeFault s page c n).mem = s.mem := by
  unfold State.judgeFault; split <;> simp
@[simp] theorem State.judgeFault_outs (s : State) (page c n : Nat) : (State.judgeFault s page c n).outs = s.outs := by
  unfold State.judgeFault; split <;> simp
@[simp] theorem State.judgeFault_fresh (s : State) (page c n : Nat) : (State.judgeFault s page c n).fresh = s.fresh := by
  unfold State.judgeFault; split <;> simp
@[simp] theorem State.judgeFault_bus (s : State) (page c n : Nat) : (State.judgeFault s page c n).bus = s.bus := by
  unfold State.judgeFault; split <;> simp
@[simp] theorem State.judgeFault_jtag (s : State) (page c n : Nat) : (State.judgeFault s page c n).jtag = s.jtag := by
  unfold State.judgeFault; split <;> simp
@[simp] theorem State.judgeFault_rst (s : State) (page c n : Nat) : (State.judgeFault s page c n).rst = s.rst := by
  unfold State.judgeFault; split <;> simp
@[simp] theorem State.judgeFault_commits (s : State) (page c n : Nat) : (State.judgeFault s page c n).commits = s.commits := by
  unfold State.judgeFault; split <;> simp
@[simp] theorem State.judgeFault_ntu (s : State) (page c n : Nat) : (State.judgeFault s page c n).ntu = s.ntu := by
  unfold State.judgeFault; split <;> simp
@[simp] theorem State.judgeFault_tc (s : State) (page c n : Nat) : (State.judgeFault s page c n).tc = s.tc := by
  unfold State.judgeFault; split <;> simp
@[simp] theorem State.judgeFault_tck (s : State) (page c n : Nat) : (State.judgeFault s page c n).tck = s.tck := by
  unfold State.judgeFault; split <;> simp
@[simp] theorem State.judgeFault_ports (s : State) (page c n : Nat) : (State.judgeFault s page c n).ports = s.ports := by
  unfold State.judgeFault; split <;> simp
@[simp] theorem State.judgeFault_dsFrames (s : State) (page c n : Nat) : (State.judgeFault s page c n).dsFrames = s.dsFrames := by
  unfold State.judgeFault; split <;> simp
@[simp] theorem State.judgeFault_sense (s : State) (page c n : Nat) : (State.judgeFault s page c n).sense = s.sense := by
  unfold State.judgeFault; split <;> simp
@[simp] theorem State.judgeFault_drives (s : State) (page c n : Nat) : (State.judgeFault s page c n).drives = s.drives := by
  unfold State.judgeFault; split <;> simp
@[simp] theorem State.judgeFault_topo (s : State) (page c n : Nat) : (State.judgeFault s page c n).topo = s.topo := by
  unfold State.judgeFault; split <;> simp
@[simp] theorem State.judgeFault_topoBytes (s : State) (page c n : Nat) : (State.judgeFault s page c n).topoBytes = s.topoBytes := by
  unfold State.judgeFault; split <;> simp
@[simp] theorem State.judgeFault_topoLocked (s : State) (page c n : Nat) : (State.judgeFault s page c n).topoLocked = s.topoLocked := by
  unfold State.judgeFault; split <;> simp
@[simp] theorem State.judgeFault_bad (s : State) (page c n : Nat) : (State.judgeFault s page c n).bad = s.bad := by
  unfold State.judgeFault; split <;> simp
@[simp] theorem State.judgeFault_loops (s : State) (page c n : Nat) : (State.judgeFault s page c n).loops = s.loops := by
  unfold State.judgeFault; split <;> simp
@[simp] theorem State.judgeFault_prf (s : State) (page c n : Nat) : (State.judgeFault s page c n).prf = s.prf := by
  unfold State.judgeFault; split <;> simp
@[simp] theorem State.judgeFault_lpl (s : State) (page c n : Nat) : (State.judgeFault s page c n).lpl = s.lpl := by
  unfold State.judgeFault; split <;> simp
@[simp] theorem State.judgeFault_rce (s : State) (page c n : Nat) : (State.judgeFault s page c n).rce = s.rce := by
  unfold State.judgeFault; split <;> simp
@[simp] theorem State.judgeFault_crs (s : State) (page c n : Nat) : (State.judgeFault s page c n).crs = s.crs := by
  unfold State.judgeFault; split <;> simp
@[simp] theorem State.judgeFault_prt (s : State) (page c n : Nat) : (State.judgeFault s page c n).prt = s.prt := by
  unfold State.judgeFault; split <;> simp
@[simp] theorem State.judgeFault_rsv (s : State) (page c n : Nat) : (State.judgeFault s page c n).rsv = s.rsv := by
  unfold State.judgeFault; split <;> simp
@[simp] theorem State.judgeFault_evt (s : State) (page c n : Nat) : (State.judgeFault s page c n).evt = s.evt := by
  unfold State.judgeFault; split <;> simp
@[simp] theorem State.judgeFault_mea (s : State) (page c n : Nat) : (State.judgeFault s page c n).mea = s.mea := by
  unfold State.judgeFault; split <;> simp
@[simp] theorem State.judgeFault_cal (s : State) (page c n : Nat) : (State.judgeFault s page c n).cal = s.cal := by
  unfold State.judgeFault; split <;> simp
@[simp] theorem State.judgeFault_net (s : State) (page c n : Nat) : (State.judgeFault s page c n).net = s.net := by
  unfold State.judgeFault; split <;> simp
@[simp] theorem State.judgeFault_red (s : State) (page c n : Nat) : (State.judgeFault s page c n).red = s.red := by
  unfold State.judgeFault; split <;> simp
@[simp] theorem State.judgeFault_pwr (s : State) (page c n : Nat) : (State.judgeFault s page c n).pwr = s.pwr := by
  unfold State.judgeFault; split <;> simp
@[simp] theorem State.judgeFault_thm (s : State) (page c n : Nat) : (State.judgeFault s page c n).thm = s.thm := by
  unfold State.judgeFault; split <;> simp
@[simp] theorem State.judgeFault_off (s : State) (page c n : Nat) : (State.judgeFault s page c n).off = s.off := by
  unfold State.judgeFault; split <;> simp
@[simp] theorem State.judgeFault_pending (s : State) (page c n : Nat) : (State.judgeFault s page c n).pending = s.pending := by
  unfold State.judgeFault; split <;> simp
@[simp] theorem State.chanFault_force (s : State) (page c code synHi : Nat) : (State.chanFault s page c code synHi).force = s.force := by
  unfold State.chanFault; dsimp only; split <;> simp
@[simp] theorem State.chanFault_mem (s : State) (page c code synHi : Nat) : (State.chanFault s page c code synHi).mem = s.mem := by
  unfold State.chanFault; dsimp only; split <;> simp
@[simp] theorem State.chanFault_outs (s : State) (page c code synHi : Nat) : (State.chanFault s page c code synHi).outs = s.outs := by
  unfold State.chanFault; dsimp only; split <;> simp
@[simp] theorem State.chanFault_fresh (s : State) (page c code synHi : Nat) : (State.chanFault s page c code synHi).fresh = s.fresh := by
  unfold State.chanFault; dsimp only; split <;> simp
@[simp] theorem State.chanFault_jtag (s : State) (page c code synHi : Nat) : (State.chanFault s page c code synHi).jtag = s.jtag := by
  unfold State.chanFault; dsimp only; split <;> simp
@[simp] theorem State.chanFault_rst (s : State) (page c code synHi : Nat) : (State.chanFault s page c code synHi).rst = s.rst := by
  unfold State.chanFault; dsimp only; split <;> simp
@[simp] theorem State.chanFault_commits (s : State) (page c code synHi : Nat) : (State.chanFault s page c code synHi).commits = s.commits := by
  unfold State.chanFault; dsimp only; split <;> simp
@[simp] theorem State.chanFault_ntu (s : State) (page c code synHi : Nat) : (State.chanFault s page c code synHi).ntu = s.ntu := by
  unfold State.chanFault; dsimp only; split <;> simp
@[simp] theorem State.chanFault_tc (s : State) (page c code synHi : Nat) : (State.chanFault s page c code synHi).tc = s.tc := by
  unfold State.chanFault; dsimp only; split <;> simp
@[simp] theorem State.chanFault_tck (s : State) (page c code synHi : Nat) : (State.chanFault s page c code synHi).tck = s.tck := by
  unfold State.chanFault; dsimp only; split <;> simp
@[simp] theorem State.chanFault_ports (s : State) (page c code synHi : Nat) : (State.chanFault s page c code synHi).ports = s.ports := by
  unfold State.chanFault; dsimp only; split <;> simp
@[simp] theorem State.chanFault_dsFrames (s : State) (page c code synHi : Nat) : (State.chanFault s page c code synHi).dsFrames = s.dsFrames := by
  unfold State.chanFault; dsimp only; split <;> simp
@[simp] theorem State.chanFault_sense (s : State) (page c code synHi : Nat) : (State.chanFault s page c code synHi).sense = s.sense := by
  unfold State.chanFault; dsimp only; split <;> simp
@[simp] theorem State.chanFault_drives (s : State) (page c code synHi : Nat) : (State.chanFault s page c code synHi).drives = s.drives := by
  unfold State.chanFault; dsimp only; split <;> simp
@[simp] theorem State.chanFault_topo (s : State) (page c code synHi : Nat) : (State.chanFault s page c code synHi).topo = s.topo := by
  unfold State.chanFault; dsimp only; split <;> simp
@[simp] theorem State.chanFault_topoBytes (s : State) (page c code synHi : Nat) : (State.chanFault s page c code synHi).topoBytes = s.topoBytes := by
  unfold State.chanFault; dsimp only; split <;> simp
@[simp] theorem State.chanFault_topoLocked (s : State) (page c code synHi : Nat) : (State.chanFault s page c code synHi).topoLocked = s.topoLocked := by
  unfold State.chanFault; dsimp only; split <;> simp
@[simp] theorem State.chanFault_bad (s : State) (page c code synHi : Nat) : (State.chanFault s page c code synHi).bad = s.bad := by
  unfold State.chanFault; dsimp only; split <;> simp
@[simp] theorem State.chanFault_loops (s : State) (page c code synHi : Nat) : (State.chanFault s page c code synHi).loops = s.loops := by
  unfold State.chanFault; dsimp only; split <;> simp
@[simp] theorem State.chanFault_prf (s : State) (page c code synHi : Nat) : (State.chanFault s page c code synHi).prf = s.prf := by
  unfold State.chanFault; dsimp only; split <;> simp
@[simp] theorem State.chanFault_lpl (s : State) (page c code synHi : Nat) : (State.chanFault s page c code synHi).lpl = s.lpl := by
  unfold State.chanFault; dsimp only; split <;> simp
@[simp] theorem State.chanFault_rce (s : State) (page c code synHi : Nat) : (State.chanFault s page c code synHi).rce = s.rce := by
  unfold State.chanFault; dsimp only; split <;> simp
@[simp] theorem State.chanFault_crs (s : State) (page c code synHi : Nat) : (State.chanFault s page c code synHi).crs = s.crs := by
  unfold State.chanFault; dsimp only; split <;> simp
@[simp] theorem State.chanFault_prt (s : State) (page c code synHi : Nat) : (State.chanFault s page c code synHi).prt = s.prt := by
  unfold State.chanFault; dsimp only; split <;> simp
@[simp] theorem State.chanFault_rsv (s : State) (page c code synHi : Nat) : (State.chanFault s page c code synHi).rsv = s.rsv := by
  unfold State.chanFault; dsimp only; split <;> simp
@[simp] theorem State.chanFault_evt (s : State) (page c code synHi : Nat) : (State.chanFault s page c code synHi).evt = s.evt := by
  unfold State.chanFault; dsimp only; split <;> simp
@[simp] theorem State.chanFault_mea (s : State) (page c code synHi : Nat) : (State.chanFault s page c code synHi).mea = s.mea := by
  unfold State.chanFault; dsimp only; split <;> simp
@[simp] theorem State.chanFault_cal (s : State) (page c code synHi : Nat) : (State.chanFault s page c code synHi).cal = s.cal := by
  unfold State.chanFault; dsimp only; split <;> simp
@[simp] theorem State.chanFault_net (s : State) (page c code synHi : Nat) : (State.chanFault s page c code synHi).net = s.net := by
  unfold State.chanFault; dsimp only; split <;> simp
@[simp] theorem State.chanFault_red (s : State) (page c code synHi : Nat) : (State.chanFault s page c code synHi).red = s.red := by
  unfold State.chanFault; dsimp only; split <;> simp
@[simp] theorem State.chanFault_pwr (s : State) (page c code synHi : Nat) : (State.chanFault s page c code synHi).pwr = s.pwr := by
  unfold State.chanFault; dsimp only; split <;> simp
@[simp] theorem State.chanFault_thm (s : State) (page c code synHi : Nat) : (State.chanFault s page c code synHi).thm = s.thm := by
  unfold State.chanFault; dsimp only; split <;> simp
@[simp] theorem State.chanFault_off (s : State) (page c code synHi : Nat) : (State.chanFault s page c code synHi).off = s.off := by
  unfold State.chanFault; dsimp only; split <;> simp
@[simp] theorem State.chanFault_pending (s : State) (page c code synHi : Nat) : (State.chanFault s page c code synHi).pending = s.pending := by
  unfold State.chanFault; dsimp only; split <;> simp
@[simp] theorem State.retireInTick_force (s : State) (page c code synHi : Nat) (t : Tick) : (State.retireInTick s page c code synHi t).force = s.force := by
  unfold State.retireInTick State.withSummary; dsimp only; split <;> simp; split <;> simp
@[simp] theorem State.retireInTick_mem (s : State) (page c code synHi : Nat) (t : Tick) : (State.retireInTick s page c code synHi t).mem = s.mem := by
  unfold State.retireInTick State.withSummary; dsimp only; split <;> simp; split <;> simp
@[simp] theorem State.retireInTick_outs (s : State) (page c code synHi : Nat) (t : Tick) : (State.retireInTick s page c code synHi t).outs = s.outs := by
  unfold State.retireInTick State.withSummary; dsimp only; split <;> simp; split <;> simp
@[simp] theorem State.retireInTick_fresh (s : State) (page c code synHi : Nat) (t : Tick) : (State.retireInTick s page c code synHi t).fresh = s.fresh := by
  unfold State.retireInTick State.withSummary; dsimp only; split <;> simp; split <;> simp
@[simp] theorem State.retireInTick_jtag (s : State) (page c code synHi : Nat) (t : Tick) : (State.retireInTick s page c code synHi t).jtag = s.jtag := by
  unfold State.retireInTick State.withSummary; dsimp only; split <;> simp; split <;> simp
@[simp] theorem State.retireInTick_rst (s : State) (page c code synHi : Nat) (t : Tick) : (State.retireInTick s page c code synHi t).rst = s.rst := by
  unfold State.retireInTick State.withSummary; dsimp only; split <;> simp; split <;> simp
@[simp] theorem State.retireInTick_commits (s : State) (page c code synHi : Nat) (t : Tick) : (State.retireInTick s page c code synHi t).commits = s.commits := by
  unfold State.retireInTick State.withSummary; dsimp only; split <;> simp; split <;> simp
@[simp] theorem State.retireInTick_ntu (s : State) (page c code synHi : Nat) (t : Tick) : (State.retireInTick s page c code synHi t).ntu = s.ntu := by
  unfold State.retireInTick State.withSummary; dsimp only; split <;> simp; split <;> simp
@[simp] theorem State.retireInTick_tc (s : State) (page c code synHi : Nat) (t : Tick) : (State.retireInTick s page c code synHi t).tc = s.tc := by
  unfold State.retireInTick State.withSummary; dsimp only; split <;> simp; split <;> simp
@[simp] theorem State.retireInTick_tck (s : State) (page c code synHi : Nat) (t : Tick) : (State.retireInTick s page c code synHi t).tck = s.tck := by
  unfold State.retireInTick State.withSummary; dsimp only; split <;> simp; split <;> simp
@[simp] theorem State.retireInTick_ports (s : State) (page c code synHi : Nat) (t : Tick) : (State.retireInTick s page c code synHi t).ports = s.ports := by
  unfold State.retireInTick State.withSummary; dsimp only; split <;> simp; split <;> simp
@[simp] theorem State.retireInTick_dsFrames (s : State) (page c code synHi : Nat) (t : Tick) : (State.retireInTick s page c code synHi t).dsFrames = s.dsFrames := by
  unfold State.retireInTick State.withSummary; dsimp only; split <;> simp; split <;> simp
@[simp] theorem State.retireInTick_sense (s : State) (page c code synHi : Nat) (t : Tick) : (State.retireInTick s page c code synHi t).sense = s.sense := by
  unfold State.retireInTick State.withSummary; dsimp only; split <;> simp; split <;> simp
@[simp] theorem State.retireInTick_drives (s : State) (page c code synHi : Nat) (t : Tick) : (State.retireInTick s page c code synHi t).drives = s.drives := by
  unfold State.retireInTick State.withSummary; dsimp only; split <;> simp; split <;> simp
@[simp] theorem State.retireInTick_topo (s : State) (page c code synHi : Nat) (t : Tick) : (State.retireInTick s page c code synHi t).topo = s.topo := by
  unfold State.retireInTick State.withSummary; dsimp only; split <;> simp; split <;> simp
@[simp] theorem State.retireInTick_topoBytes (s : State) (page c code synHi : Nat) (t : Tick) : (State.retireInTick s page c code synHi t).topoBytes = s.topoBytes := by
  unfold State.retireInTick State.withSummary; dsimp only; split <;> simp; split <;> simp
@[simp] theorem State.retireInTick_topoLocked (s : State) (page c code synHi : Nat) (t : Tick) : (State.retireInTick s page c code synHi t).topoLocked = s.topoLocked := by
  unfold State.retireInTick State.withSummary; dsimp only; split <;> simp; split <;> simp
@[simp] theorem State.retireInTick_bad (s : State) (page c code synHi : Nat) (t : Tick) : (State.retireInTick s page c code synHi t).bad = s.bad := by
  unfold State.retireInTick State.withSummary; dsimp only; split <;> simp; split <;> simp
@[simp] theorem State.retireInTick_loops (s : State) (page c code synHi : Nat) (t : Tick) : (State.retireInTick s page c code synHi t).loops = s.loops := by
  unfold State.retireInTick State.withSummary; dsimp only; split <;> simp; split <;> simp
@[simp] theorem State.retireInTick_prf (s : State) (page c code synHi : Nat) (t : Tick) : (State.retireInTick s page c code synHi t).prf = s.prf := by
  unfold State.retireInTick State.withSummary; dsimp only; split <;> simp; split <;> simp
@[simp] theorem State.retireInTick_lpl (s : State) (page c code synHi : Nat) (t : Tick) : (State.retireInTick s page c code synHi t).lpl = s.lpl := by
  unfold State.retireInTick State.withSummary; dsimp only; split <;> simp; split <;> simp
@[simp] theorem State.retireInTick_rce (s : State) (page c code synHi : Nat) (t : Tick) : (State.retireInTick s page c code synHi t).rce = s.rce := by
  unfold State.retireInTick State.withSummary; dsimp only; split <;> simp; split <;> simp
@[simp] theorem State.retireInTick_crs (s : State) (page c code synHi : Nat) (t : Tick) : (State.retireInTick s page c code synHi t).crs = s.crs := by
  unfold State.retireInTick State.withSummary; dsimp only; split <;> simp; split <;> simp
@[simp] theorem State.retireInTick_prt (s : State) (page c code synHi : Nat) (t : Tick) : (State.retireInTick s page c code synHi t).prt = s.prt := by
  unfold State.retireInTick State.withSummary; dsimp only; split <;> simp; split <;> simp
@[simp] theorem State.retireInTick_rsv (s : State) (page c code synHi : Nat) (t : Tick) : (State.retireInTick s page c code synHi t).rsv = s.rsv := by
  unfold State.retireInTick State.withSummary; dsimp only; split <;> simp; split <;> simp
@[simp] theorem State.retireInTick_evt (s : State) (page c code synHi : Nat) (t : Tick) : (State.retireInTick s page c code synHi t).evt = s.evt := by
  unfold State.retireInTick State.withSummary; dsimp only; split <;> simp; split <;> simp
@[simp] theorem State.retireInTick_mea (s : State) (page c code synHi : Nat) (t : Tick) : (State.retireInTick s page c code synHi t).mea = s.mea := by
  unfold State.retireInTick State.withSummary; dsimp only; split <;> simp; split <;> simp
@[simp] theorem State.retireInTick_cal (s : State) (page c code synHi : Nat) (t : Tick) : (State.retireInTick s page c code synHi t).cal = s.cal := by
  unfold State.retireInTick State.withSummary; dsimp only; split <;> simp; split <;> simp
@[simp] theorem State.retireInTick_net (s : State) (page c code synHi : Nat) (t : Tick) : (State.retireInTick s page c code synHi t).net = s.net := by
  unfold State.retireInTick State.withSummary; dsimp only; split <;> simp; split <;> simp
@[simp] theorem State.retireInTick_red (s : State) (page c code synHi : Nat) (t : Tick) : (State.retireInTick s page c code synHi t).red = s.red := by
  unfold State.retireInTick State.withSummary; dsimp only; split <;> simp; split <;> simp
@[simp] theorem State.retireInTick_pwr (s : State) (page c code synHi : Nat) (t : Tick) : (State.retireInTick s page c code synHi t).pwr = s.pwr := by
  unfold State.retireInTick State.withSummary; dsimp only; split <;> simp; split <;> simp
@[simp] theorem State.retireInTick_thm (s : State) (page c code synHi : Nat) (t : Tick) : (State.retireInTick s page c code synHi t).thm = s.thm := by
  unfold State.retireInTick State.withSummary; dsimp only; split <;> simp; split <;> simp
@[simp] theorem State.retireInTick_off (s : State) (page c code synHi : Nat) (t : Tick) : (State.retireInTick s page c code synHi t).off = s.off := by
  unfold State.retireInTick State.withSummary; dsimp only; split <;> simp; split <;> simp
@[simp] theorem State.retireInTick_pending (s : State) (page c code synHi : Nat) (t : Tick) : (State.retireInTick s page c code synHi t).pending = s.pending := by
  unfold State.retireInTick State.withSummary; dsimp only; split <;> simp; split <;> simp
@[simp] theorem State.retire_force (s : State) (page c code synHi : Nat) : (State.retire s page c code synHi).force = s.force := by
  unfold State.retire; simp
@[simp] theorem State.retire_mem (s : State) (page c code synHi : Nat) : (State.retire s page c code synHi).mem = s.mem := by
  unfold State.retire; simp
@[simp] theorem State.retire_outs (s : State) (page c code synHi : Nat) : (State.retire s page c code synHi).outs = s.outs := by
  unfold State.retire; simp
@[simp] theorem State.retire_fresh (s : State) (page c code synHi : Nat) : (State.retire s page c code synHi).fresh = s.fresh := by
  unfold State.retire; simp
@[simp] theorem State.retire_jtag (s : State) (page c code synHi : Nat) : (State.retire s page c code synHi).jtag = s.jtag := by
  unfold State.retire; simp
@[simp] theorem State.retire_rst (s : State) (page c code synHi : Nat) : (State.retire s page c code synHi).rst = s.rst := by
  unfold State.retire; simp
@[simp] theorem State.retire_commits (s : State) (page c code synHi : Nat) : (State.retire s page c code synHi).commits = s.commits := by
  unfold State.retire; simp
@[simp] theorem State.retire_ntu (s : State) (page c code synHi : Nat) : (State.retire s page c code synHi).ntu = s.ntu := by
  unfold State.retire; simp
@[simp] theorem State.retire_tc (s : State) (page c code synHi : Nat) : (State.retire s page c code synHi).tc = s.tc := by
  unfold State.retire; simp
@[simp] theorem State.retire_tck (s : State) (page c code synHi : Nat) : (State.retire s page c code synHi).tck = s.tck := by
  unfold State.retire; simp
@[simp] theorem State.retire_ports (s : State) (page c code synHi : Nat) : (State.retire s page c code synHi).ports = s.ports := by
  unfold State.retire; simp
@[simp] theorem State.retire_dsFrames (s : State) (page c code synHi : Nat) : (State.retire s page c code synHi).dsFrames = s.dsFrames := by
  unfold State.retire; simp
@[simp] theorem State.retire_sense (s : State) (page c code synHi : Nat) : (State.retire s page c code synHi).sense = s.sense := by
  unfold State.retire; simp
@[simp] theorem State.retire_drives (s : State) (page c code synHi : Nat) : (State.retire s page c code synHi).drives = s.drives := by
  unfold State.retire; simp
@[simp] theorem State.retire_topo (s : State) (page c code synHi : Nat) : (State.retire s page c code synHi).topo = s.topo := by
  unfold State.retire; simp
@[simp] theorem State.retire_topoBytes (s : State) (page c code synHi : Nat) : (State.retire s page c code synHi).topoBytes = s.topoBytes := by
  unfold State.retire; simp
@[simp] theorem State.retire_topoLocked (s : State) (page c code synHi : Nat) : (State.retire s page c code synHi).topoLocked = s.topoLocked := by
  unfold State.retire; simp
@[simp] theorem State.retire_bad (s : State) (page c code synHi : Nat) : (State.retire s page c code synHi).bad = s.bad := by
  unfold State.retire; simp
@[simp] theorem State.retire_loops (s : State) (page c code synHi : Nat) : (State.retire s page c code synHi).loops = s.loops := by
  unfold State.retire; simp
@[simp] theorem State.retire_prf (s : State) (page c code synHi : Nat) : (State.retire s page c code synHi).prf = s.prf := by
  unfold State.retire; simp
@[simp] theorem State.retire_lpl (s : State) (page c code synHi : Nat) : (State.retire s page c code synHi).lpl = s.lpl := by
  unfold State.retire; simp
@[simp] theorem State.retire_rce (s : State) (page c code synHi : Nat) : (State.retire s page c code synHi).rce = s.rce := by
  unfold State.retire; simp
@[simp] theorem State.retire_crs (s : State) (page c code synHi : Nat) : (State.retire s page c code synHi).crs = s.crs := by
  unfold State.retire; simp
@[simp] theorem State.retire_prt (s : State) (page c code synHi : Nat) : (State.retire s page c code synHi).prt = s.prt := by
  unfold State.retire; simp
@[simp] theorem State.retire_rsv (s : State) (page c code synHi : Nat) : (State.retire s page c code synHi).rsv = s.rsv := by
  unfold State.retire; simp
@[simp] theorem State.retire_evt (s : State) (page c code synHi : Nat) : (State.retire s page c code synHi).evt = s.evt := by
  unfold State.retire; simp
@[simp] theorem State.retire_mea (s : State) (page c code synHi : Nat) : (State.retire s page c code synHi).mea = s.mea := by
  unfold State.retire; simp
@[simp] theorem State.retire_cal (s : State) (page c code synHi : Nat) : (State.retire s page c code synHi).cal = s.cal := by
  unfold State.retire; simp
@[simp] theorem State.retire_net (s : State) (page c code synHi : Nat) : (State.retire s page c code synHi).net = s.net := by
  unfold State.retire; simp
@[simp] theorem State.retire_red (s : State) (page c code synHi : Nat) : (State.retire s page c code synHi).red = s.red := by
  unfold State.retire; simp
@[simp] theorem State.retire_pwr (s : State) (page c code synHi : Nat) : (State.retire s page c code synHi).pwr = s.pwr := by
  unfold State.retire; simp
@[simp] theorem State.retire_thm (s : State) (page c code synHi : Nat) : (State.retire s page c code synHi).thm = s.thm := by
  unfold State.retire; simp
@[simp] theorem State.retire_off (s : State) (page c code synHi : Nat) : (State.retire s page c code synHi).off = s.off := by
  unfold State.retire; simp
@[simp] theorem State.retire_pending (s : State) (page c code synHi : Nat) : (State.retire s page c code synHi).pending = s.pending := by
  unfold State.retire; simp
@[simp] theorem State.noteWritten_force (s : State) (addr : Nat) : (State.noteWritten s addr).force = s.force := by
  unfold State.noteWritten; split <;> simp
@[simp] theorem State.noteWritten_mem (s : State) (addr : Nat) : (State.noteWritten s addr).mem = s.mem := by
  unfold State.noteWritten; split <;> simp
@[simp] theorem State.noteWritten_outs (s : State) (addr : Nat) : (State.noteWritten s addr).outs = s.outs := by
  unfold State.noteWritten; split <;> simp
@[simp] theorem State.noteWritten_fresh (s : State) (addr : Nat) : (State.noteWritten s addr).fresh = s.fresh := by
  unfold State.noteWritten; split <;> simp
@[simp] theorem State.noteWritten_bus (s : State) (addr : Nat) : (State.noteWritten s addr).bus = s.bus := by
  unfold State.noteWritten; split <;> simp
@[simp] theorem State.noteWritten_jtag (s : State) (addr : Nat) : (State.noteWritten s addr).jtag = s.jtag := by
  unfold State.noteWritten; split <;> simp
@[simp] theorem State.noteWritten_flt (s : State) (addr : Nat) : (State.noteWritten s addr).flt = s.flt := by
  unfold State.noteWritten; split <;> simp
@[simp] theorem State.noteWritten_commits (s : State) (addr : Nat) : (State.noteWritten s addr).commits = s.commits := by
  unfold State.noteWritten; split <;> simp
@[simp] theorem State.noteWritten_ntu (s : State) (addr : Nat) : (State.noteWritten s addr).ntu = s.ntu := by
  unfold State.noteWritten; split <;> simp
@[simp] theorem State.noteWritten_tc (s : State) (addr : Nat) : (State.noteWritten s addr).tc = s.tc := by
  unfold State.noteWritten; split <;> simp
@[simp] theorem State.noteWritten_tck (s : State) (addr : Nat) : (State.noteWritten s addr).tck = s.tck := by
  unfold State.noteWritten; split <;> simp
@[simp] theorem State.noteWritten_ports (s : State) (addr : Nat) : (State.noteWritten s addr).ports = s.ports := by
  unfold State.noteWritten; split <;> simp
@[simp] theorem State.noteWritten_dsFrames (s : State) (addr : Nat) : (State.noteWritten s addr).dsFrames = s.dsFrames := by
  unfold State.noteWritten; split <;> simp
@[simp] theorem State.noteWritten_sense (s : State) (addr : Nat) : (State.noteWritten s addr).sense = s.sense := by
  unfold State.noteWritten; split <;> simp
@[simp] theorem State.noteWritten_drives (s : State) (addr : Nat) : (State.noteWritten s addr).drives = s.drives := by
  unfold State.noteWritten; split <;> simp
@[simp] theorem State.noteWritten_topo (s : State) (addr : Nat) : (State.noteWritten s addr).topo = s.topo := by
  unfold State.noteWritten; split <;> simp
@[simp] theorem State.noteWritten_topoBytes (s : State) (addr : Nat) : (State.noteWritten s addr).topoBytes = s.topoBytes := by
  unfold State.noteWritten; split <;> simp
@[simp] theorem State.noteWritten_topoLocked (s : State) (addr : Nat) : (State.noteWritten s addr).topoLocked = s.topoLocked := by
  unfold State.noteWritten; split <;> simp
@[simp] theorem State.noteWritten_bad (s : State) (addr : Nat) : (State.noteWritten s addr).bad = s.bad := by
  unfold State.noteWritten; split <;> simp
@[simp] theorem State.noteWritten_loops (s : State) (addr : Nat) : (State.noteWritten s addr).loops = s.loops := by
  unfold State.noteWritten; split <;> simp
@[simp] theorem State.noteWritten_prf (s : State) (addr : Nat) : (State.noteWritten s addr).prf = s.prf := by
  unfold State.noteWritten; split <;> simp
@[simp] theorem State.noteWritten_lpl (s : State) (addr : Nat) : (State.noteWritten s addr).lpl = s.lpl := by
  unfold State.noteWritten; split <;> simp
@[simp] theorem State.noteWritten_rce (s : State) (addr : Nat) : (State.noteWritten s addr).rce = s.rce := by
  unfold State.noteWritten; split <;> simp
@[simp] theorem State.noteWritten_crs (s : State) (addr : Nat) : (State.noteWritten s addr).crs = s.crs := by
  unfold State.noteWritten; split <;> simp
@[simp] theorem State.noteWritten_prt (s : State) (addr : Nat) : (State.noteWritten s addr).prt = s.prt := by
  unfold State.noteWritten; split <;> simp
@[simp] theorem State.noteWritten_rsv (s : State) (addr : Nat) : (State.noteWritten s addr).rsv = s.rsv := by
  unfold State.noteWritten; split <;> simp
@[simp] theorem State.noteWritten_evt (s : State) (addr : Nat) : (State.noteWritten s addr).evt = s.evt := by
  unfold State.noteWritten; split <;> simp
@[simp] theorem State.noteWritten_mea (s : State) (addr : Nat) : (State.noteWritten s addr).mea = s.mea := by
  unfold State.noteWritten; split <;> simp
@[simp] theorem State.noteWritten_cal (s : State) (addr : Nat) : (State.noteWritten s addr).cal = s.cal := by
  unfold State.noteWritten; split <;> simp
@[simp] theorem State.noteWritten_net (s : State) (addr : Nat) : (State.noteWritten s addr).net = s.net := by
  unfold State.noteWritten; split <;> simp
@[simp] theorem State.noteWritten_red (s : State) (addr : Nat) : (State.noteWritten s addr).red = s.red := by
  unfold State.noteWritten; split <;> simp
@[simp] theorem State.noteWritten_pwr (s : State) (addr : Nat) : (State.noteWritten s addr).pwr = s.pwr := by
  unfold State.noteWritten; split <;> simp
@[simp] theorem State.noteWritten_thm (s : State) (addr : Nat) : (State.noteWritten s addr).thm = s.thm := by
  unfold State.noteWritten; split <;> simp
@[simp] theorem State.noteWritten_off (s : State) (addr : Nat) : (State.noteWritten s addr).off = s.off := by
  unfold State.noteWritten; split <;> simp
@[simp] theorem State.noteWritten_pending (s : State) (addr : Nat) : (State.noteWritten s addr).pending = s.pending := by
  unfold State.noteWritten; split <;> simp
@[simp] theorem State.setForceIf_regs (s : State) (c : Bool) (k : Nat) (v : Word) : (State.setForceIf s c k v).regs = s.regs := by
  unfold State.setForceIf; split <;> simp
@[simp] theorem State.setForceIf_mem (s : State) (c : Bool) (k : Nat) (v : Word) : (State.setForceIf s c k v).mem = s.mem := by
  unfold State.setForceIf; split <;> simp
@[simp] theorem State.setForceIf_outs (s : State) (c : Bool) (k : Nat) (v : Word) : (State.setForceIf s c k v).outs = s.outs := by
  unfold State.setForceIf; split <;> simp
@[simp] theorem State.setForceIf_fresh (s : State) (c : Bool) (k : Nat) (v : Word) : (State.setForceIf s c k v).fresh = s.fresh := by
  unfold State.setForceIf; split <;> simp
@[simp] theorem State.setForceIf_bus (s : State) (c : Bool) (k : Nat) (v : Word) : (State.setForceIf s c k v).bus = s.bus := by
  unfold State.setForceIf; split <;> simp
@[simp] theorem State.setForceIf_jtag (s : State) (c : Bool) (k : Nat) (v : Word) : (State.setForceIf s c k v).jtag = s.jtag := by
  unfold State.setForceIf; split <;> simp
@[simp] theorem State.setForceIf_flt (s : State) (c : Bool) (k : Nat) (v : Word) : (State.setForceIf s c k v).flt = s.flt := by
  unfold State.setForceIf; split <;> simp
@[simp] theorem State.setForceIf_rst (s : State) (c : Bool) (k : Nat) (v : Word) : (State.setForceIf s c k v).rst = s.rst := by
  unfold State.setForceIf; split <;> simp
@[simp] theorem State.setForceIf_commits (s : State) (c : Bool) (k : Nat) (v : Word) : (State.setForceIf s c k v).commits = s.commits := by
  unfold State.setForceIf; split <;> simp
@[simp] theorem State.setForceIf_ntu (s : State) (c : Bool) (k : Nat) (v : Word) : (State.setForceIf s c k v).ntu = s.ntu := by
  unfold State.setForceIf; split <;> simp
@[simp] theorem State.setForceIf_tc (s : State) (c : Bool) (k : Nat) (v : Word) : (State.setForceIf s c k v).tc = s.tc := by
  unfold State.setForceIf; split <;> simp
@[simp] theorem State.setForceIf_tck (s : State) (c : Bool) (k : Nat) (v : Word) : (State.setForceIf s c k v).tck = s.tck := by
  unfold State.setForceIf; split <;> simp
@[simp] theorem State.setForceIf_ports (s : State) (c : Bool) (k : Nat) (v : Word) : (State.setForceIf s c k v).ports = s.ports := by
  unfold State.setForceIf; split <;> simp
@[simp] theorem State.setForceIf_dsFrames (s : State) (c : Bool) (k : Nat) (v : Word) : (State.setForceIf s c k v).dsFrames = s.dsFrames := by
  unfold State.setForceIf; split <;> simp
@[simp] theorem State.setForceIf_sense (s : State) (c : Bool) (k : Nat) (v : Word) : (State.setForceIf s c k v).sense = s.sense := by
  unfold State.setForceIf; split <;> simp
@[simp] theorem State.setForceIf_drives (s : State) (c : Bool) (k : Nat) (v : Word) : (State.setForceIf s c k v).drives = s.drives := by
  unfold State.setForceIf; split <;> simp
@[simp] theorem State.setForceIf_topo (s : State) (c : Bool) (k : Nat) (v : Word) : (State.setForceIf s c k v).topo = s.topo := by
  unfold State.setForceIf; split <;> simp
@[simp] theorem State.setForceIf_topoBytes (s : State) (c : Bool) (k : Nat) (v : Word) : (State.setForceIf s c k v).topoBytes = s.topoBytes := by
  unfold State.setForceIf; split <;> simp
@[simp] theorem State.setForceIf_topoLocked (s : State) (c : Bool) (k : Nat) (v : Word) : (State.setForceIf s c k v).topoLocked = s.topoLocked := by
  unfold State.setForceIf; split <;> simp
@[simp] theorem State.setForceIf_bad (s : State) (c : Bool) (k : Nat) (v : Word) : (State.setForceIf s c k v).bad = s.bad := by
  unfold State.setForceIf; split <;> simp
@[simp] theorem State.setForceIf_loops (s : State) (c : Bool) (k : Nat) (v : Word) : (State.setForceIf s c k v).loops = s.loops := by
  unfold State.setForceIf; split <;> simp
@[simp] theorem State.setForceIf_prf (s : State) (c : Bool) (k : Nat) (v : Word) : (State.setForceIf s c k v).prf = s.prf := by
  unfold State.setForceIf; split <;> simp
@[simp] theorem State.setForceIf_lpl (s : State) (c : Bool) (k : Nat) (v : Word) : (State.setForceIf s c k v).lpl = s.lpl := by
  unfold State.setForceIf; split <;> simp
@[simp] theorem State.setForceIf_rce (s : State) (c : Bool) (k : Nat) (v : Word) : (State.setForceIf s c k v).rce = s.rce := by
  unfold State.setForceIf; split <;> simp
@[simp] theorem State.setForceIf_crs (s : State) (c : Bool) (k : Nat) (v : Word) : (State.setForceIf s c k v).crs = s.crs := by
  unfold State.setForceIf; split <;> simp
@[simp] theorem State.setForceIf_prt (s : State) (c : Bool) (k : Nat) (v : Word) : (State.setForceIf s c k v).prt = s.prt := by
  unfold State.setForceIf; split <;> simp
@[simp] theorem State.setForceIf_rsv (s : State) (c : Bool) (k : Nat) (v : Word) : (State.setForceIf s c k v).rsv = s.rsv := by
  unfold State.setForceIf; split <;> simp
@[simp] theorem State.setForceIf_evt (s : State) (c : Bool) (k : Nat) (v : Word) : (State.setForceIf s c k v).evt = s.evt := by
  unfold State.setForceIf; split <;> simp
@[simp] theorem State.setForceIf_mea (s : State) (c : Bool) (k : Nat) (v : Word) : (State.setForceIf s c k v).mea = s.mea := by
  unfold State.setForceIf; split <;> simp
@[simp] theorem State.setForceIf_cal (s : State) (c : Bool) (k : Nat) (v : Word) : (State.setForceIf s c k v).cal = s.cal := by
  unfold State.setForceIf; split <;> simp
@[simp] theorem State.setForceIf_net (s : State) (c : Bool) (k : Nat) (v : Word) : (State.setForceIf s c k v).net = s.net := by
  unfold State.setForceIf; split <;> simp
@[simp] theorem State.setForceIf_red (s : State) (c : Bool) (k : Nat) (v : Word) : (State.setForceIf s c k v).red = s.red := by
  unfold State.setForceIf; split <;> simp
@[simp] theorem State.setForceIf_pwr (s : State) (c : Bool) (k : Nat) (v : Word) : (State.setForceIf s c k v).pwr = s.pwr := by
  unfold State.setForceIf; split <;> simp
@[simp] theorem State.setForceIf_thm (s : State) (c : Bool) (k : Nat) (v : Word) : (State.setForceIf s c k v).thm = s.thm := by
  unfold State.setForceIf; split <;> simp
@[simp] theorem State.setForceIf_off (s : State) (c : Bool) (k : Nat) (v : Word) : (State.setForceIf s c k v).off = s.off := by
  unfold State.setForceIf; split <;> simp
@[simp] theorem State.setForceIf_pending (s : State) (c : Bool) (k : Nat) (v : Word) : (State.setForceIf s c k v).pending = s.pending := by
  unfold State.setForceIf; split <;> simp
@[simp] theorem State.storeRow_mem (s : State) (key : Nat) (r : RegRow) (v : Word) : (State.storeRow s key r v).mem = s.mem := by
  unfold State.storeRow; simp
@[simp] theorem State.storeRow_outs (s : State) (key : Nat) (r : RegRow) (v : Word) : (State.storeRow s key r v).outs = s.outs := by
  unfold State.storeRow; simp
@[simp] theorem State.storeRow_fresh (s : State) (key : Nat) (r : RegRow) (v : Word) : (State.storeRow s key r v).fresh = s.fresh := by
  unfold State.storeRow; simp
@[simp] theorem State.storeRow_bus (s : State) (key : Nat) (r : RegRow) (v : Word) : (State.storeRow s key r v).bus = s.bus := by
  unfold State.storeRow; simp
@[simp] theorem State.storeRow_jtag (s : State) (key : Nat) (r : RegRow) (v : Word) : (State.storeRow s key r v).jtag = s.jtag := by
  unfold State.storeRow; simp
@[simp] theorem State.storeRow_flt (s : State) (key : Nat) (r : RegRow) (v : Word) : (State.storeRow s key r v).flt = s.flt := by
  unfold State.storeRow; simp
@[simp] theorem State.storeRow_commits (s : State) (key : Nat) (r : RegRow) (v : Word) : (State.storeRow s key r v).commits = s.commits := by
  unfold State.storeRow; simp
@[simp] theorem State.storeRow_ntu (s : State) (key : Nat) (r : RegRow) (v : Word) : (State.storeRow s key r v).ntu = s.ntu := by
  unfold State.storeRow; simp
@[simp] theorem State.storeRow_tc (s : State) (key : Nat) (r : RegRow) (v : Word) : (State.storeRow s key r v).tc = s.tc := by
  unfold State.storeRow; simp
@[simp] theorem State.storeRow_tck (s : State) (key : Nat) (r : RegRow) (v : Word) : (State.storeRow s key r v).tck = s.tck := by
  unfold State.storeRow; simp
@[simp] theorem State.storeRow_ports (s : State) (key : Nat) (r : RegRow) (v : Word) : (State.storeRow s key r v).ports = s.ports := by
  unfold State.storeRow; simp
@[simp] theorem State.storeRow_dsFrames (s : State) (key : Nat) (r : RegRow) (v : Word) : (State.storeRow s key r v).dsFrames = s.dsFrames := by
  unfold State.storeRow; simp
@[simp] theorem State.storeRow_sense (s : State) (key : Nat) (r : RegRow) (v : Word) : (State.storeRow s key r v).sense = s.sense := by
  unfold State.storeRow; simp
@[simp] theorem State.storeRow_drives (s : State) (key : Nat) (r : RegRow) (v : Word) : (State.storeRow s key r v).drives = s.drives := by
  unfold State.storeRow; simp
@[simp] theorem State.storeRow_topo (s : State) (key : Nat) (r : RegRow) (v : Word) : (State.storeRow s key r v).topo = s.topo := by
  unfold State.storeRow; simp
@[simp] theorem State.storeRow_topoBytes (s : State) (key : Nat) (r : RegRow) (v : Word) : (State.storeRow s key r v).topoBytes = s.topoBytes := by
  unfold State.storeRow; simp
@[simp] theorem State.storeRow_topoLocked (s : State) (key : Nat) (r : RegRow) (v : Word) : (State.storeRow s key r v).topoLocked = s.topoLocked := by
  unfold State.storeRow; simp
@[simp] theorem State.storeRow_bad (s : State) (key : Nat) (r : RegRow) (v : Word) : (State.storeRow s key r v).bad = s.bad := by
  unfold State.storeRow; simp
@[simp] theorem State.storeRow_loops (s : State) (key : Nat) (r : RegRow) (v : Word) : (State.storeRow s key r v).loops = s.loops := by
  unfold State.storeRow; simp
@[simp] theorem State.storeRow_prf (s : State) (key : Nat) (r : RegRow) (v : Word) : (State.storeRow s key r v).prf = s.prf := by
  unfold State.storeRow; simp
@[simp] theorem State.storeRow_lpl (s : State) (key : Nat) (r : RegRow) (v : Word) : (State.storeRow s key r v).lpl = s.lpl := by
  unfold State.storeRow; simp
@[simp] theorem State.storeRow_rce (s : State) (key : Nat) (r : RegRow) (v : Word) : (State.storeRow s key r v).rce = s.rce := by
  unfold State.storeRow; simp
@[simp] theorem State.storeRow_crs (s : State) (key : Nat) (r : RegRow) (v : Word) : (State.storeRow s key r v).crs = s.crs := by
  unfold State.storeRow; simp
@[simp] theorem State.storeRow_prt (s : State) (key : Nat) (r : RegRow) (v : Word) : (State.storeRow s key r v).prt = s.prt := by
  unfold State.storeRow; simp
@[simp] theorem State.storeRow_rsv (s : State) (key : Nat) (r : RegRow) (v : Word) : (State.storeRow s key r v).rsv = s.rsv := by
  unfold State.storeRow; simp
@[simp] theorem State.storeRow_evt (s : State) (key : Nat) (r : RegRow) (v : Word) : (State.storeRow s key r v).evt = s.evt := by
  unfold State.storeRow; simp
@[simp] theorem State.storeRow_mea (s : State) (key : Nat) (r : RegRow) (v : Word) : (State.storeRow s key r v).mea = s.mea := by
  unfold State.storeRow; simp
@[simp] theorem State.storeRow_cal (s : State) (key : Nat) (r : RegRow) (v : Word) : (State.storeRow s key r v).cal = s.cal := by
  unfold State.storeRow; simp
@[simp] theorem State.storeRow_net (s : State) (key : Nat) (r : RegRow) (v : Word) : (State.storeRow s key r v).net = s.net := by
  unfold State.storeRow; simp
@[simp] theorem State.storeRow_red (s : State) (key : Nat) (r : RegRow) (v : Word) : (State.storeRow s key r v).red = s.red := by
  unfold State.storeRow; simp
@[simp] theorem State.storeRow_pwr (s : State) (key : Nat) (r : RegRow) (v : Word) : (State.storeRow s key r v).pwr = s.pwr := by
  unfold State.storeRow; simp
@[simp] theorem State.storeRow_thm (s : State) (key : Nat) (r : RegRow) (v : Word) : (State.storeRow s key r v).thm = s.thm := by
  unfold State.storeRow; simp
@[simp] theorem State.storeRow_off (s : State) (key : Nat) (r : RegRow) (v : Word) : (State.storeRow s key r v).off = s.off := by
  unfold State.storeRow; simp
@[simp] theorem State.storeRow_pending (s : State) (key : Nat) (r : RegRow) (v : Word) : (State.storeRow s key r v).pending = s.pending := by
  unfold State.storeRow; simp
@[simp] theorem State.storeReg_mem (s : State) (key : Nat) (v : Word) : (State.storeReg s key v).mem = s.mem := by
  unfold State.storeReg; split <;> simp
@[simp] theorem State.storeReg_outs (s : State) (key : Nat) (v : Word) : (State.storeReg s key v).outs = s.outs := by
  unfold State.storeReg; split <;> simp
@[simp] theorem State.storeReg_fresh (s : State) (key : Nat) (v : Word) : (State.storeReg s key v).fresh = s.fresh := by
  unfold State.storeReg; split <;> simp
@[simp] theorem State.storeReg_bus (s : State) (key : Nat) (v : Word) : (State.storeReg s key v).bus = s.bus := by
  unfold State.storeReg; split <;> simp
@[simp] theorem State.storeReg_jtag (s : State) (key : Nat) (v : Word) : (State.storeReg s key v).jtag = s.jtag := by
  unfold State.storeReg; split <;> simp
@[simp] theorem State.storeReg_flt (s : State) (key : Nat) (v : Word) : (State.storeReg s key v).flt = s.flt := by
  unfold State.storeReg; split <;> simp
@[simp] theorem State.storeReg_commits (s : State) (key : Nat) (v : Word) : (State.storeReg s key v).commits = s.commits := by
  unfold State.storeReg; split <;> simp
@[simp] theorem State.storeReg_ntu (s : State) (key : Nat) (v : Word) : (State.storeReg s key v).ntu = s.ntu := by
  unfold State.storeReg; split <;> simp
@[simp] theorem State.storeReg_tc (s : State) (key : Nat) (v : Word) : (State.storeReg s key v).tc = s.tc := by
  unfold State.storeReg; split <;> simp
@[simp] theorem State.storeReg_tck (s : State) (key : Nat) (v : Word) : (State.storeReg s key v).tck = s.tck := by
  unfold State.storeReg; split <;> simp
@[simp] theorem State.storeReg_ports (s : State) (key : Nat) (v : Word) : (State.storeReg s key v).ports = s.ports := by
  unfold State.storeReg; split <;> simp
@[simp] theorem State.storeReg_dsFrames (s : State) (key : Nat) (v : Word) : (State.storeReg s key v).dsFrames = s.dsFrames := by
  unfold State.storeReg; split <;> simp
@[simp] theorem State.storeReg_sense (s : State) (key : Nat) (v : Word) : (State.storeReg s key v).sense = s.sense := by
  unfold State.storeReg; split <;> simp
@[simp] theorem State.storeReg_drives (s : State) (key : Nat) (v : Word) : (State.storeReg s key v).drives = s.drives := by
  unfold State.storeReg; split <;> simp
@[simp] theorem State.storeReg_topo (s : State) (key : Nat) (v : Word) : (State.storeReg s key v).topo = s.topo := by
  unfold State.storeReg; split <;> simp
@[simp] theorem State.storeReg_topoBytes (s : State) (key : Nat) (v : Word) : (State.storeReg s key v).topoBytes = s.topoBytes := by
  unfold State.storeReg; split <;> simp
@[simp] theorem State.storeReg_topoLocked (s : State) (key : Nat) (v : Word) : (State.storeReg s key v).topoLocked = s.topoLocked := by
  unfold State.storeReg; split <;> simp
@[simp] theorem State.storeReg_bad (s : State) (key : Nat) (v : Word) : (State.storeReg s key v).bad = s.bad := by
  unfold State.storeReg; split <;> simp
@[simp] theorem State.storeReg_loops (s : State) (key : Nat) (v : Word) : (State.storeReg s key v).loops = s.loops := by
  unfold State.storeReg; split <;> simp
@[simp] theorem State.storeReg_prf (s : State) (key : Nat) (v : Word) : (State.storeReg s key v).prf = s.prf := by
  unfold State.storeReg; split <;> simp
@[simp] theorem State.storeReg_lpl (s : State) (key : Nat) (v : Word) : (State.storeReg s key v).lpl = s.lpl := by
  unfold State.storeReg; split <;> simp
@[simp] theorem State.storeReg_rce (s : State) (key : Nat) (v : Word) : (State.storeReg s key v).rce = s.rce := by
  unfold State.storeReg; split <;> simp
@[simp] theorem State.storeReg_crs (s : State) (key : Nat) (v : Word) : (State.storeReg s key v).crs = s.crs := by
  unfold State.storeReg; split <;> simp
@[simp] theorem State.storeReg_prt (s : State) (key : Nat) (v : Word) : (State.storeReg s key v).prt = s.prt := by
  unfold State.storeReg; split <;> simp
@[simp] theorem State.storeReg_rsv (s : State) (key : Nat) (v : Word) : (State.storeReg s key v).rsv = s.rsv := by
  unfold State.storeReg; split <;> simp
@[simp] theorem State.storeReg_evt (s : State) (key : Nat) (v : Word) : (State.storeReg s key v).evt = s.evt := by
  unfold State.storeReg; split <;> simp
@[simp] theorem State.storeReg_mea (s : State) (key : Nat) (v : Word) : (State.storeReg s key v).mea = s.mea := by
  unfold State.storeReg; split <;> simp
@[simp] theorem State.storeReg_cal (s : State) (key : Nat) (v : Word) : (State.storeReg s key v).cal = s.cal := by
  unfold State.storeReg; split <;> simp
@[simp] theorem State.storeReg_net (s : State) (key : Nat) (v : Word) : (State.storeReg s key v).net = s.net := by
  unfold State.storeReg; split <;> simp
@[simp] theorem State.storeReg_red (s : State) (key : Nat) (v : Word) : (State.storeReg s key v).red = s.red := by
  unfold State.storeReg; split <;> simp
@[simp] theorem State.storeReg_pwr (s : State) (key : Nat) (v : Word) : (State.storeReg s key v).pwr = s.pwr := by
  unfold State.storeReg; split <;> simp
@[simp] theorem State.storeReg_thm (s : State) (key : Nat) (v : Word) : (State.storeReg s key v).thm = s.thm := by
  unfold State.storeReg; split <;> simp
@[simp] theorem State.storeReg_off (s : State) (key : Nat) (v : Word) : (State.storeReg s key v).off = s.off := by
  unfold State.storeReg; split <;> simp
@[simp] theorem State.storeReg_pending (s : State) (key : Nat) (v : Word) : (State.storeReg s key v).pending = s.pending := by
  unfold State.storeReg; split <;> simp
@[simp] theorem State.clearBits_force (s : State) (key : Nat) (v : Word) (w1c persist : Nat) : (State.clearBits s key v w1c persist).force = s.force := by
  unfold State.clearBits; dsimp only; split <;> simp
@[simp] theorem State.clearBits_mem (s : State) (key : Nat) (v : Word) (w1c persist : Nat) : (State.clearBits s key v w1c persist).mem = s.mem := by
  unfold State.clearBits; dsimp only; split <;> simp
@[simp] theorem State.clearBits_outs (s : State) (key : Nat) (v : Word) (w1c persist : Nat) : (State.clearBits s key v w1c persist).outs = s.outs := by
  unfold State.clearBits; dsimp only; split <;> simp
@[simp] theorem State.clearBits_fresh (s : State) (key : Nat) (v : Word) (w1c persist : Nat) : (State.clearBits s key v w1c persist).fresh = s.fresh := by
  unfold State.clearBits; dsimp only; split <;> simp
@[simp] theorem State.clearBits_bus (s : State) (key : Nat) (v : Word) (w1c persist : Nat) : (State.clearBits s key v w1c persist).bus = s.bus := by
  unfold State.clearBits; dsimp only; split <;> simp
@[simp] theorem State.clearBits_jtag (s : State) (key : Nat) (v : Word) (w1c persist : Nat) : (State.clearBits s key v w1c persist).jtag = s.jtag := by
  unfold State.clearBits; dsimp only; split <;> simp
@[simp] theorem State.clearBits_flt (s : State) (key : Nat) (v : Word) (w1c persist : Nat) : (State.clearBits s key v w1c persist).flt = s.flt := by
  unfold State.clearBits; dsimp only; split <;> simp
@[simp] theorem State.clearBits_rst (s : State) (key : Nat) (v : Word) (w1c persist : Nat) : (State.clearBits s key v w1c persist).rst = s.rst := by
  unfold State.clearBits; dsimp only; split <;> simp
@[simp] theorem State.clearBits_commits (s : State) (key : Nat) (v : Word) (w1c persist : Nat) : (State.clearBits s key v w1c persist).commits = s.commits := by
  unfold State.clearBits; dsimp only; split <;> simp
@[simp] theorem State.clearBits_ntu (s : State) (key : Nat) (v : Word) (w1c persist : Nat) : (State.clearBits s key v w1c persist).ntu = s.ntu := by
  unfold State.clearBits; dsimp only; split <;> simp
@[simp] theorem State.clearBits_tc (s : State) (key : Nat) (v : Word) (w1c persist : Nat) : (State.clearBits s key v w1c persist).tc = s.tc := by
  unfold State.clearBits; dsimp only; split <;> simp
@[simp] theorem State.clearBits_tck (s : State) (key : Nat) (v : Word) (w1c persist : Nat) : (State.clearBits s key v w1c persist).tck = s.tck := by
  unfold State.clearBits; dsimp only; split <;> simp
@[simp] theorem State.clearBits_ports (s : State) (key : Nat) (v : Word) (w1c persist : Nat) : (State.clearBits s key v w1c persist).ports = s.ports := by
  unfold State.clearBits; dsimp only; split <;> simp
@[simp] theorem State.clearBits_dsFrames (s : State) (key : Nat) (v : Word) (w1c persist : Nat) : (State.clearBits s key v w1c persist).dsFrames = s.dsFrames := by
  unfold State.clearBits; dsimp only; split <;> simp
@[simp] theorem State.clearBits_sense (s : State) (key : Nat) (v : Word) (w1c persist : Nat) : (State.clearBits s key v w1c persist).sense = s.sense := by
  unfold State.clearBits; dsimp only; split <;> simp
@[simp] theorem State.clearBits_drives (s : State) (key : Nat) (v : Word) (w1c persist : Nat) : (State.clearBits s key v w1c persist).drives = s.drives := by
  unfold State.clearBits; dsimp only; split <;> simp
@[simp] theorem State.clearBits_topo (s : State) (key : Nat) (v : Word) (w1c persist : Nat) : (State.clearBits s key v w1c persist).topo = s.topo := by
  unfold State.clearBits; dsimp only; split <;> simp
@[simp] theorem State.clearBits_topoBytes (s : State) (key : Nat) (v : Word) (w1c persist : Nat) : (State.clearBits s key v w1c persist).topoBytes = s.topoBytes := by
  unfold State.clearBits; dsimp only; split <;> simp
@[simp] theorem State.clearBits_topoLocked (s : State) (key : Nat) (v : Word) (w1c persist : Nat) : (State.clearBits s key v w1c persist).topoLocked = s.topoLocked := by
  unfold State.clearBits; dsimp only; split <;> simp
@[simp] theorem State.clearBits_bad (s : State) (key : Nat) (v : Word) (w1c persist : Nat) : (State.clearBits s key v w1c persist).bad = s.bad := by
  unfold State.clearBits; dsimp only; split <;> simp
@[simp] theorem State.clearBits_loops (s : State) (key : Nat) (v : Word) (w1c persist : Nat) : (State.clearBits s key v w1c persist).loops = s.loops := by
  unfold State.clearBits; dsimp only; split <;> simp
@[simp] theorem State.clearBits_prf (s : State) (key : Nat) (v : Word) (w1c persist : Nat) : (State.clearBits s key v w1c persist).prf = s.prf := by
  unfold State.clearBits; dsimp only; split <;> simp
@[simp] theorem State.clearBits_lpl (s : State) (key : Nat) (v : Word) (w1c persist : Nat) : (State.clearBits s key v w1c persist).lpl = s.lpl := by
  unfold State.clearBits; dsimp only; split <;> simp
@[simp] theorem State.clearBits_rce (s : State) (key : Nat) (v : Word) (w1c persist : Nat) : (State.clearBits s key v w1c persist).rce = s.rce := by
  unfold State.clearBits; dsimp only; split <;> simp
@[simp] theorem State.clearBits_crs (s : State) (key : Nat) (v : Word) (w1c persist : Nat) : (State.clearBits s key v w1c persist).crs = s.crs := by
  unfold State.clearBits; dsimp only; split <;> simp
@[simp] theorem State.clearBits_prt (s : State) (key : Nat) (v : Word) (w1c persist : Nat) : (State.clearBits s key v w1c persist).prt = s.prt := by
  unfold State.clearBits; dsimp only; split <;> simp
@[simp] theorem State.clearBits_rsv (s : State) (key : Nat) (v : Word) (w1c persist : Nat) : (State.clearBits s key v w1c persist).rsv = s.rsv := by
  unfold State.clearBits; dsimp only; split <;> simp
@[simp] theorem State.clearBits_evt (s : State) (key : Nat) (v : Word) (w1c persist : Nat) : (State.clearBits s key v w1c persist).evt = s.evt := by
  unfold State.clearBits; dsimp only; split <;> simp
@[simp] theorem State.clearBits_mea (s : State) (key : Nat) (v : Word) (w1c persist : Nat) : (State.clearBits s key v w1c persist).mea = s.mea := by
  unfold State.clearBits; dsimp only; split <;> simp
@[simp] theorem State.clearBits_cal (s : State) (key : Nat) (v : Word) (w1c persist : Nat) : (State.clearBits s key v w1c persist).cal = s.cal := by
  unfold State.clearBits; dsimp only; split <;> simp
@[simp] theorem State.clearBits_net (s : State) (key : Nat) (v : Word) (w1c persist : Nat) : (State.clearBits s key v w1c persist).net = s.net := by
  unfold State.clearBits; dsimp only; split <;> simp
@[simp] theorem State.clearBits_red (s : State) (key : Nat) (v : Word) (w1c persist : Nat) : (State.clearBits s key v w1c persist).red = s.red := by
  unfold State.clearBits; dsimp only; split <;> simp
@[simp] theorem State.clearBits_pwr (s : State) (key : Nat) (v : Word) (w1c persist : Nat) : (State.clearBits s key v w1c persist).pwr = s.pwr := by
  unfold State.clearBits; dsimp only; split <;> simp
@[simp] theorem State.clearBits_thm (s : State) (key : Nat) (v : Word) (w1c persist : Nat) : (State.clearBits s key v w1c persist).thm = s.thm := by
  unfold State.clearBits; dsimp only; split <;> simp
@[simp] theorem State.clearBits_off (s : State) (key : Nat) (v : Word) (w1c persist : Nat) : (State.clearBits s key v w1c persist).off = s.off := by
  unfold State.clearBits; dsimp only; split <;> simp
@[simp] theorem State.clearBits_pending (s : State) (key : Nat) (v : Word) (w1c persist : Nat) : (State.clearBits s key v w1c persist).pending = s.pending := by
  unfold State.clearBits; dsimp only; split <;> simp
@[simp] theorem State.journalReg_regs (s : State) (addr : Nat) (v : Word) : (State.journalReg s addr v).regs = s.regs := by
  unfold State.journalReg; split; · rfl
  · split
    · split <;> simp
    · split <;> simp
@[simp] theorem State.journalReg_force (s : State) (addr : Nat) (v : Word) : (State.journalReg s addr v).force = s.force := by
  unfold State.journalReg; split; · rfl
  · split
    · split <;> simp
    · split <;> simp
@[simp] theorem State.journalReg_mem (s : State) (addr : Nat) (v : Word) : (State.journalReg s addr v).mem = s.mem := by
  unfold State.journalReg; split; · rfl
  · split
    · split <;> simp
    · split <;> simp
@[simp] theorem State.journalReg_outs (s : State) (addr : Nat) (v : Word) : (State.journalReg s addr v).outs = s.outs := by
  unfold State.journalReg; split; · rfl
  · split
    · split <;> simp
    · split <;> simp
@[simp] theorem State.journalReg_fresh (s : State) (addr : Nat) (v : Word) : (State.journalReg s addr v).fresh = s.fresh := by
  unfold State.journalReg; split; · rfl
  · split
    · split <;> simp
    · split <;> simp
@[simp] theorem State.journalReg_bus (s : State) (addr : Nat) (v : Word) : (State.journalReg s addr v).bus = s.bus := by
  unfold State.journalReg; split; · rfl
  · split
    · split <;> simp
    · split <;> simp
@[simp] theorem State.journalReg_jtag (s : State) (addr : Nat) (v : Word) : (State.journalReg s addr v).jtag = s.jtag := by
  unfold State.journalReg; split; · rfl
  · split
    · split <;> simp
    · split <;> simp
@[simp] theorem State.journalReg_flt (s : State) (addr : Nat) (v : Word) : (State.journalReg s addr v).flt = s.flt := by
  unfold State.journalReg; split; · rfl
  · split
    · split <;> simp
    · split <;> simp
@[simp] theorem State.journalReg_rst (s : State) (addr : Nat) (v : Word) : (State.journalReg s addr v).rst = s.rst := by
  unfold State.journalReg; split; · rfl
  · split
    · split <;> simp
    · split <;> simp
@[simp] theorem State.journalReg_commits (s : State) (addr : Nat) (v : Word) : (State.journalReg s addr v).commits = s.commits := by
  unfold State.journalReg; split; · rfl
  · split
    · split <;> simp
    · split <;> simp
@[simp] theorem State.journalReg_ntu (s : State) (addr : Nat) (v : Word) : (State.journalReg s addr v).ntu = s.ntu := by
  unfold State.journalReg; split; · rfl
  · split
    · split <;> simp
    · split <;> simp
@[simp] theorem State.journalReg_tc (s : State) (addr : Nat) (v : Word) : (State.journalReg s addr v).tc = s.tc := by
  unfold State.journalReg; split; · rfl
  · split
    · split <;> simp
    · split <;> simp
@[simp] theorem State.journalReg_tck (s : State) (addr : Nat) (v : Word) : (State.journalReg s addr v).tck = s.tck := by
  unfold State.journalReg; split; · rfl
  · split
    · split <;> simp
    · split <;> simp
@[simp] theorem State.journalReg_ports (s : State) (addr : Nat) (v : Word) : (State.journalReg s addr v).ports = s.ports := by
  unfold State.journalReg; split; · rfl
  · split
    · split <;> simp
    · split <;> simp
@[simp] theorem State.journalReg_dsFrames (s : State) (addr : Nat) (v : Word) : (State.journalReg s addr v).dsFrames = s.dsFrames := by
  unfold State.journalReg; split; · rfl
  · split
    · split <;> simp
    · split <;> simp
@[simp] theorem State.journalReg_sense (s : State) (addr : Nat) (v : Word) : (State.journalReg s addr v).sense = s.sense := by
  unfold State.journalReg; split; · rfl
  · split
    · split <;> simp
    · split <;> simp
@[simp] theorem State.journalReg_drives (s : State) (addr : Nat) (v : Word) : (State.journalReg s addr v).drives = s.drives := by
  unfold State.journalReg; split; · rfl
  · split
    · split <;> simp
    · split <;> simp
@[simp] theorem State.journalReg_topo (s : State) (addr : Nat) (v : Word) : (State.journalReg s addr v).topo = s.topo := by
  unfold State.journalReg; split; · rfl
  · split
    · split <;> simp
    · split <;> simp
@[simp] theorem State.journalReg_topoBytes (s : State) (addr : Nat) (v : Word) : (State.journalReg s addr v).topoBytes = s.topoBytes := by
  unfold State.journalReg; split; · rfl
  · split
    · split <;> simp
    · split <;> simp
@[simp] theorem State.journalReg_topoLocked (s : State) (addr : Nat) (v : Word) : (State.journalReg s addr v).topoLocked = s.topoLocked := by
  unfold State.journalReg; split; · rfl
  · split
    · split <;> simp
    · split <;> simp
@[simp] theorem State.journalReg_bad (s : State) (addr : Nat) (v : Word) : (State.journalReg s addr v).bad = s.bad := by
  unfold State.journalReg; split; · rfl
  · split
    · split <;> simp
    · split <;> simp
@[simp] theorem State.journalReg_loops (s : State) (addr : Nat) (v : Word) : (State.journalReg s addr v).loops = s.loops := by
  unfold State.journalReg; split; · rfl
  · split
    · split <;> simp
    · split <;> simp
@[simp] theorem State.journalReg_prf (s : State) (addr : Nat) (v : Word) : (State.journalReg s addr v).prf = s.prf := by
  unfold State.journalReg; split; · rfl
  · split
    · split <;> simp
    · split <;> simp
@[simp] theorem State.journalReg_lpl (s : State) (addr : Nat) (v : Word) : (State.journalReg s addr v).lpl = s.lpl := by
  unfold State.journalReg; split; · rfl
  · split
    · split <;> simp
    · split <;> simp
@[simp] theorem State.journalReg_rce (s : State) (addr : Nat) (v : Word) : (State.journalReg s addr v).rce = s.rce := by
  unfold State.journalReg; split; · rfl
  · split
    · split <;> simp
    · split <;> simp
@[simp] theorem State.journalReg_crs (s : State) (addr : Nat) (v : Word) : (State.journalReg s addr v).crs = s.crs := by
  unfold State.journalReg; split; · rfl
  · split
    · split <;> simp
    · split <;> simp
@[simp] theorem State.journalReg_prt (s : State) (addr : Nat) (v : Word) : (State.journalReg s addr v).prt = s.prt := by
  unfold State.journalReg; split; · rfl
  · split
    · split <;> simp
    · split <;> simp
@[simp] theorem State.journalReg_rsv (s : State) (addr : Nat) (v : Word) : (State.journalReg s addr v).rsv = s.rsv := by
  unfold State.journalReg; split; · rfl
  · split
    · split <;> simp
    · split <;> simp
@[simp] theorem State.journalReg_evt (s : State) (addr : Nat) (v : Word) : (State.journalReg s addr v).evt = s.evt := by
  unfold State.journalReg; split; · rfl
  · split
    · split <;> simp
    · split <;> simp
@[simp] theorem State.journalReg_mea (s : State) (addr : Nat) (v : Word) : (State.journalReg s addr v).mea = s.mea := by
  unfold State.journalReg; split; · rfl
  · split
    · split <;> simp
    · split <;> simp
@[simp] theorem State.journalReg_cal (s : State) (addr : Nat) (v : Word) : (State.journalReg s addr v).cal = s.cal := by
  unfold State.journalReg; split; · rfl
  · split
    · split <;> simp
    · split <;> simp
@[simp] theorem State.journalReg_net (s : State) (addr : Nat) (v : Word) : (State.journalReg s addr v).net = s.net := by
  unfold State.journalReg; split; · rfl
  · split
    · split <;> simp
    · split <;> simp
@[simp] theorem State.journalReg_pwr (s : State) (addr : Nat) (v : Word) : (State.journalReg s addr v).pwr = s.pwr := by
  unfold State.journalReg; split; · rfl
  · split
    · split <;> simp
    · split <;> simp
@[simp] theorem State.journalReg_thm (s : State) (addr : Nat) (v : Word) : (State.journalReg s addr v).thm = s.thm := by
  unfold State.journalReg; split; · rfl
  · split
    · split <;> simp
    · split <;> simp
@[simp] theorem State.journalReg_off (s : State) (addr : Nat) (v : Word) : (State.journalReg s addr v).off = s.off := by
  unfold State.journalReg; split; · rfl
  · split
    · split <;> simp
    · split <;> simp
@[simp] theorem State.journalReg_pending (s : State) (addr : Nat) (v : Word) : (State.journalReg s addr v).pending = s.pending := by
  unfold State.journalReg; split; · rfl
  · split
    · split <;> simp
    · split <;> simp
@[simp] theorem State.setTransition_force (s : State) : (State.setTransition s).force = s.force := by
  unfold State.setTransition; simp
@[simp] theorem State.setTransition_mem (s : State) : (State.setTransition s).mem = s.mem := by
  unfold State.setTransition; simp
@[simp] theorem State.setTransition_outs (s : State) : (State.setTransition s).outs = s.outs := by
  unfold State.setTransition; simp
@[simp] theorem State.setTransition_fresh (s : State) : (State.setTransition s).fresh = s.fresh := by
  unfold State.setTransition; simp
@[simp] theorem State.setTransition_bus (s : State) : (State.setTransition s).bus = s.bus := by
  unfold State.setTransition; simp
@[simp] theorem State.setTransition_jtag (s : State) : (State.setTransition s).jtag = s.jtag := by
  unfold State.setTransition; simp
@[simp] theorem State.setTransition_flt (s : State) : (State.setTransition s).flt = s.flt := by
  unfold State.setTransition; simp
@[simp] theorem State.setTransition_rst (s : State) : (State.setTransition s).rst = s.rst := by
  unfold State.setTransition; simp
@[simp] theorem State.setTransition_commits (s : State) : (State.setTransition s).commits = s.commits := by
  unfold State.setTransition; simp
@[simp] theorem State.setTransition_ntu (s : State) : (State.setTransition s).ntu = s.ntu := by
  unfold State.setTransition; simp
@[simp] theorem State.setTransition_tc (s : State) : (State.setTransition s).tc = s.tc := by
  unfold State.setTransition; simp
@[simp] theorem State.setTransition_tck (s : State) : (State.setTransition s).tck = s.tck := by
  unfold State.setTransition; simp
@[simp] theorem State.setTransition_ports (s : State) : (State.setTransition s).ports = s.ports := by
  unfold State.setTransition; simp
@[simp] theorem State.setTransition_dsFrames (s : State) : (State.setTransition s).dsFrames = s.dsFrames := by
  unfold State.setTransition; simp
@[simp] theorem State.setTransition_sense (s : State) : (State.setTransition s).sense = s.sense := by
  unfold State.setTransition; simp
@[simp] theorem State.setTransition_drives (s : State) : (State.setTransition s).drives = s.drives := by
  unfold State.setTransition; simp
@[simp] theorem State.setTransition_topo (s : State) : (State.setTransition s).topo = s.topo := by
  unfold State.setTransition; simp
@[simp] theorem State.setTransition_topoBytes (s : State) : (State.setTransition s).topoBytes = s.topoBytes := by
  unfold State.setTransition; simp
@[simp] theorem State.setTransition_topoLocked (s : State) : (State.setTransition s).topoLocked = s.topoLocked := by
  unfold State.setTransition; simp
@[simp] theorem State.setTransition_bad (s : State) : (State.setTransition s).bad = s.bad := by
  unfold State.setTransition; simp
@[simp] theorem State.setTransition_loops (s : State) : (State.setTransition s).loops = s.loops := by
  unfold State.setTransition; simp
@[simp] theorem State.setTransition_prf (s : State) : (State.setTransition s).prf = s.prf := by
  unfold State.setTransition; simp
@[simp] theorem State.setTransition_lpl (s : State) : (State.setTransition s).lpl = s.lpl := by
  unfold State.setTransition; simp
@[simp] theorem State.setTransition_rce (s : State) : (State.setTransition s).rce = s.rce := by
  unfold State.setTransition; simp
@[simp] theorem State.setTransition_crs (s : State) : (State.setTransition s).crs = s.crs := by
  unfold State.setTransition; simp
@[simp] theorem State.setTransition_prt (s : State) : (State.setTransition s).prt = s.prt := by
  unfold State.setTransition; simp
@[simp] theorem State.setTransition_rsv (s : State) : (State.setTransition s).rsv = s.rsv := by
  unfold State.setTransition; simp
@[simp] theorem State.setTransition_evt (s : State) : (State.setTransition s).evt = s.evt := by
  unfold State.setTransition; simp
@[simp] theorem State.setTransition_mea (s : State) : (State.setTransition s).mea = s.mea := by
  unfold State.setTransition; simp
@[simp] theorem State.setTransition_cal (s : State) : (State.setTransition s).cal = s.cal := by
  unfold State.setTransition; simp
@[simp] theorem State.setTransition_net (s : State) : (State.setTransition s).net = s.net := by
  unfold State.setTransition; simp
@[simp] theorem State.setTransition_red (s : State) : (State.setTransition s).red = s.red := by
  unfold State.setTransition; simp
@[simp] theorem State.setTransition_pwr (s : State) : (State.setTransition s).pwr = s.pwr := by
  unfold State.setTransition; simp
@[simp] theorem State.setTransition_thm (s : State) : (State.setTransition s).thm = s.thm := by
  unfold State.setTransition; simp
@[simp] theorem State.setTransition_off (s : State) : (State.setTransition s).off = s.off := by
  unfold State.setTransition; simp
@[simp] theorem State.setTransition_pending (s : State) : (State.setTransition s).pending = s.pending := by
  unfold State.setTransition; simp

/-! ### What a register reads as -/

/-- What a register of a table reads as. -/
def regOf (r : Sparse Word) (k : Nat) : Word := Sparse.get (regReset k) k r

@[simp] theorem State.regOf_regs (s : State) (k : Nat) : regOf s.regs k = s.reg k := rfl
@[simp] theorem State.reg_mk (x0 x1 x2 x3 x4 x5 x6 x7 x8 x9 x10 x11 x12 x13 x14 x15 x16 x17 x18 x19 x20 x21 x22 x23 x24 x25 x26 x27 x28 x29 x30 x31 x32 x33 x34 x35 x36 k) : State.reg ⟨x0, x1, x2, x3, x4, x5, x6, x7, x8, x9, x10, x11, x12, x13, x14, x15, x16, x17, x18, x19, x20, x21, x22, x23, x24, x25, x26, x27, x28, x29, x30, x31, x32, x33, x34, x35, x36⟩ k = regOf x0 k := rfl

@[simp] theorem State.reg_setReg (s : State) (k : Nat) (v : Word) (j : Nat) :
    (s.setReg k v).reg j = if j = k then v else s.reg j := by
  unfold State.reg State.setReg
  split
  · rename_i h; subst h; exact Sparse.get_put_same _ _ _ _
  · rename_i h; exact Sparse.get_put_other _ _ _ h _
@[simp] theorem State.reg_setRegN (s : State) (k v j : Nat) :
    (s.setRegN k v).reg j = if j = k then BitVec.ofNat 32 v else s.reg j := State.reg_setReg _ _ _ _
@[simp] theorem State.reg_setFld (s : State) (k lo len v j : Nat) :
    (s.setFld k lo len v).reg j = if j = k then putBits (s.reg k) lo len v else s.reg j := State.reg_setReg _ _ _ _
@[simp] theorem State.reg_setBit (s : State) (k i : Nat) (b : Bool) (j : Nat) :
    (s.setBit k i b).reg j = if j = k then putBits (s.reg k) i 1 (b2n b) else s.reg j := State.reg_setReg _ _ _ _
@[simp] theorem State.reg_bump (s : State) (k lo len n j : Nat) :
    (s.bump k lo len n).reg j = if j = k then putBits (s.reg k) lo len (satAdd (2 ^ len - 1) (s.fld k lo len) n) else s.reg j :=
  State.reg_setReg _ _ _ _

/-- A register after another one was set. -/
theorem State.reg_setReg_other (s : State) {k j : Nat} (v : Word) (h : j ≠ k) : (s.setReg k v).reg j = s.reg j := by simp [h]

/-- A bit of a register after one bit was set. -/
theorem State.bit_setBit (s : State) {k i : Nat} (b : Bool) (j l : Nat) (h : i < 32) :
    (s.setBit k i b).bit j l = if j = k ∧ l = i then b else s.bit j l := by
  unfold State.bit
  rw [State.reg_setBit]
  by_cases c : j = k
  · subst c; simp only [if_pos, true_and, bitOf_putBits_bit _ b h]
  · simp [c]

/-- A bit of a register after a field was set. -/
theorem State.bit_setFld_other (s : State) {k lo len v j l : Nat} (h : lo + len ≤ 32) (hd : j ≠ k ∨ l < lo ∨ lo + len ≤ l) :
    (s.setFld k lo len v).bit j l = s.bit j l := by
  unfold State.bit
  rw [State.reg_setFld]
  by_cases c : j = k
  · subst c; rw [if_pos rfl, bitOf_putBits_other _ h (by omega)]
  · simp [c]

/-- A field of a register, just set. -/
theorem State.fld_setFld_same (s : State) {k lo len v : Nat} (h : lo + len ≤ 32) :
    (s.setFld k lo len v).fld k lo len = v % 2 ^ len := by
  unfold State.fld; rw [State.reg_setFld, if_pos rfl, fld_putBits_same _ h]

/-- A field of a register after another field was set. -/
theorem State.fld_setFld_other (s : State) {k lo len v j lo' len' : Nat} (h : lo + len ≤ 32)
    (hd : j ≠ k ∨ lo' + len' ≤ lo ∨ lo + len ≤ lo') : (s.setFld k lo len v).fld j lo' len' = s.fld j lo' len' := by
  unfold State.fld
  rw [State.reg_setFld]
  by_cases c : j = k
  · subst c; rw [if_pos rfl, fld_putBits_other _ h (by omega)]
  · simp [c]

/-- A field of a register after a bit outside it was set. -/
theorem State.fld_setBit_other (s : State) {k i : Nat} {b : Bool} {j lo' len' : Nat} (h : i < 32)
    (hd : j ≠ k ∨ lo' + len' ≤ i ∨ i < lo') : (s.setBit k i b).fld j lo' len' = s.fld j lo' len' :=
  State.fld_setFld_other s (by omega) (by omega)

/-! ### Interrupts -/

/-- A register that a page's rise does not touch. -/
theorem State.reg_afterRise (a s : State) {page k : Nat} (h1 : k ≠ pageWord Reg.FLT_PEND page) (h2 : k ≠ cReg 6 OFF_INT_STAT) :
    (State.afterRise a s page).reg k = s.reg k := by
  unfold State.afterRise
  dsimp only
  split <;> split <;> simp [State.setPend, h1, h2]

/-- A register that an event of a page does not touch. -/
theorem State.reg_raise (s : State) {page i k : Nat} (h : k ∉ raiseKeys page) : (s.raise page i).reg k = s.reg k := by
  simp only [raiseKeys, List.mem_cons, List.not_mem_nil, or_false, not_or] at h
  obtain ⟨h1, h2, h3, h4⟩ := h
  unfold State.raise State.withSummary
  dsimp only
  split
  · rw [State.reg_afterRise _ _ h2 h3, State.reg_setBit, if_neg h1]
  · rw [State.reg_afterRise _ _ h4 h3, State.reg_afterRise _ _ h2 h3, State.reg_setBit, if_neg h1]

/-- A register that an event, if it is one, does not touch. -/
theorem State.reg_raiseIf (s : State) {c : Bool} {page i k : Nat} (h : k ∉ raiseKeys page) :
    (s.raiseIf c page i).reg k = s.reg k := by
  unfold State.raiseIf; split
  · exact State.reg_raise s h
  · rfl

/-- Setting a page's FLT_PEND bit leaves every set bit set. -/
theorem State.bit_setPend (s : State) (page : Nat) {k i : Nat} (h : s.bit k i = true) : (s.setPend page).bit k i = true := by
  unfold State.setPend
  have hp : page % 32 < 32 := Nat.mod_lt _ (by decide)
  rw [State.bit_setBit _ _ _ _ (by decide), State.bit_setBit _ _ _ _ hp]
  split
  · rfl
  · split
    · rfl
    · exact h

/-- What follows a rise leaves every set bit set. -/
theorem State.bit_afterRise (a s : State) (page : Nat) {k i : Nat} (h : s.bit k i = true) :
    (State.afterRise a s page).bit k i = true := by
  unfold State.afterRise
  dsimp only
  have h' := State.bit_setPend s page h
  split <;> split <;> first | exact h | exact h'

/-- An event sets its bit of INT_STAT. -/
theorem State.bit_raise (s : State) (page : Nat) {i : Nat} (hi : i < 32) :
    (s.raise page i).bit (cReg page OFF_INT_STAT) i = true := by
  unfold State.raise State.withSummary
  dsimp only
  have h : (s.setBit (cReg page OFF_INT_STAT) i true).bit (cReg page OFF_INT_STAT) i = true := by
    rw [State.bit_setBit _ _ _ _ hi]; simp
  split
  · exact State.bit_afterRise _ _ _ h
  · exact State.bit_afterRise _ _ _ (State.bit_afterRise _ _ _ h)

/-- An event leaves every set bit of every register set. -/
theorem State.bit_raise_keeps (s : State) (page : Nat) {i k j : Nat} (hi : i < 32) (h : s.bit k j = true) :
    (s.raise page i).bit k j = true := by
  unfold State.raise State.withSummary
  dsimp only
  have h : (s.setBit (cReg page OFF_INT_STAT) i true).bit k j = true := by
    rw [State.bit_setBit _ _ _ _ hi]; split <;> simp [h]
  split
  · exact State.bit_afterRise _ _ _ h
  · exact State.bit_afterRise _ _ _ (State.bit_afterRise _ _ _ h)

/-! ### Register writes by a master -/

@[simp] theorem State.reg_respond (s : State) (m : Nat) (w : Bool) (a : Nat) (st : RespStatus) (d : Word) (k : Nat) :
    (s.respond m w a st d).reg k = s.reg k := rfl
@[simp] theorem State.reg_atCycle (s : State) (c k : Nat) : (s.atCycle c).reg k = s.reg k := rfl
@[simp] theorem State.reg_setForce (s : State) (k : Nat) (v : Word) (j : Nat) : (s.setForce k v).reg j = s.reg j := rfl
@[simp] theorem State.reg_setByte (s : State) (a : Nat) (b : Byte) (k : Nat) : (s.setByte a b).reg k = s.reg k := rfl
@[simp] theorem State.reg_emit (s : State) (o : Out) (k : Nat) : (s.emit o).reg k = s.reg k := rfl
@[simp] theorem State.reg_tick1 (s : State) (k : Nat) : s.tick1.reg k = s.reg k := rfl
@[simp] theorem State.reg_addCommit (s : State) (c : PendCommit) (k : Nat) : (s.addCommit c).reg k = s.reg k := rfl
@[simp] theorem State.reg_dropCommit (s : State) (p k : Nat) : (s.dropCommit p).reg k = s.reg k := rfl
@[simp] theorem State.reg_notDue (s : State) (p c k : Nat) : (s.notDue p c).reg k = s.reg k := rfl
@[simp] theorem State.reg_setRun (s : State) (p c n k : Nat) : (s.setRun p c n).reg k = s.reg k := rfl
@[simp] theorem State.reg_journalReg (s : State) (a : Nat) (v : Word) (k : Nat) : (s.journalReg a v).reg k = s.reg k := by
  unfold State.reg; rw [State.journalReg_regs]

/-- An accepted register write answers OK and has its effect, which the journal takes over. -/
theorem State.gateWrite_accepts (s : State) {m a : Nat} {v : Word} (eff : State → State) (h : s.accepts m a v = true) :
    s.gateWrite m a v eff = (let t := eff (s.respond m true a .ok 0)
      if t.bus.last.status = .ok then t.journalReg a v else t) := by
  simp only [State.accepts, Bool.and_eq_true, Bool.not_eq_true', beq_iff_eq, Option.isNone_iff_eq_none] at h
  obtain ⟨⟨⟨⟨h1, h2⟩, h3⟩, h4⟩, h5⟩ := h
  unfold State.gateWrite
  rw [h1, h2, h3, h4, h5]
  rfl

/-- A register after an accepted register write is as its effect leaves it. -/
theorem State.reg_gateWrite (s : State) {m a : Nat} {v : Word} (eff : State → State) (h : s.accepts m a v = true) (k : Nat) :
    (s.gateWrite m a v eff).reg k = (eff (s.respond m true a .ok 0)).reg k := by
  rw [State.gateWrite_accepts s eff h]; dsimp only; split <;> simp

/-- The stored bits of a register write by a row's access codes. -/
theorem State.reg_storeRow_other (s : State) {key k : Nat} (r : RegRow) (v : Word) (h : k ≠ key)
    (h2 : k ≠ Reg.GLB_TAKEOVER_RES) : (s.storeRow key r v).reg k = s.reg k := by
  unfold State.storeRow State.noteWritten State.setForceIf
  dsimp only
  split <;> split <;> simp [h, h2]

/-- A register other than the one written, and than the list of those written since a management reset. -/
theorem State.reg_storeReg_other (s : State) {key k : Nat} (v : Word) (h : k ≠ key) (h2 : k ≠ Reg.GLB_TAKEOVER_RES) :
    (s.storeReg key v).reg k = s.reg k := by
  unfold State.storeReg
  split
  · rfl
  · exact State.reg_storeRow_other s _ v h h2

theorem State.gateWrite_force (s : State) {m a : Nat} {v : Word} (eff : State → State) (h : s.accepts m a v = true) :
    (s.gateWrite m a v eff).force = (eff (s.respond m true a .ok 0)).force := by
  rw [State.gateWrite_accepts s eff h]; dsimp only; split <;> simp

theorem State.gateWrite_mem (s : State) {m a : Nat} {v : Word} (eff : State → State) (h : s.accepts m a v = true) :
    (s.gateWrite m a v eff).mem = (eff (s.respond m true a .ok 0)).mem := by
  rw [State.gateWrite_accepts s eff h]; dsimp only; split <;> simp

theorem State.gateWrite_outs (s : State) {m a : Nat} {v : Word} (eff : State → State) (h : s.accepts m a v = true) :
    (s.gateWrite m a v eff).outs = (eff (s.respond m true a .ok 0)).outs := by
  rw [State.gateWrite_accepts s eff h]; dsimp only; split <;> simp

theorem State.gateWrite_fresh (s : State) {m a : Nat} {v : Word} (eff : State → State) (h : s.accepts m a v = true) :
    (s.gateWrite m a v eff).fresh = (eff (s.respond m true a .ok 0)).fresh := by
  rw [State.gateWrite_accepts s eff h]; dsimp only; split <;> simp

theorem State.gateWrite_jtag (s : State) {m a : Nat} {v : Word} (eff : State → State) (h : s.accepts m a v = true) :
    (s.gateWrite m a v eff).jtag = (eff (s.respond m true a .ok 0)).jtag := by
  rw [State.gateWrite_accepts s eff h]; dsimp only; split <;> simp

theorem State.gateWrite_flt (s : State) {m a : Nat} {v : Word} (eff : State → State) (h : s.accepts m a v = true) :
    (s.gateWrite m a v eff).flt = (eff (s.respond m true a .ok 0)).flt := by
  rw [State.gateWrite_accepts s eff h]; dsimp only; split <;> simp

theorem State.gateWrite_rst (s : State) {m a : Nat} {v : Word} (eff : State → State) (h : s.accepts m a v = true) :
    (s.gateWrite m a v eff).rst = (eff (s.respond m true a .ok 0)).rst := by
  rw [State.gateWrite_accepts s eff h]; dsimp only; split <;> simp

theorem State.gateWrite_commits (s : State) {m a : Nat} {v : Word} (eff : State → State) (h : s.accepts m a v = true) :
    (s.gateWrite m a v eff).commits = (eff (s.respond m true a .ok 0)).commits := by
  rw [State.gateWrite_accepts s eff h]; dsimp only; split <;> simp

theorem State.gateWrite_ntu (s : State) {m a : Nat} {v : Word} (eff : State → State) (h : s.accepts m a v = true) :
    (s.gateWrite m a v eff).ntu = (eff (s.respond m true a .ok 0)).ntu := by
  rw [State.gateWrite_accepts s eff h]; dsimp only; split <;> simp

theorem State.gateWrite_tc (s : State) {m a : Nat} {v : Word} (eff : State → State) (h : s.accepts m a v = true) :
    (s.gateWrite m a v eff).tc = (eff (s.respond m true a .ok 0)).tc := by
  rw [State.gateWrite_accepts s eff h]; dsimp only; split <;> simp

theorem State.gateWrite_tck (s : State) {m a : Nat} {v : Word} (eff : State → State) (h : s.accepts m a v = true) :
    (s.gateWrite m a v eff).tck = (eff (s.respond m true a .ok 0)).tck := by
  rw [State.gateWrite_accepts s eff h]; dsimp only; split <;> simp

theorem State.gateWrite_ports (s : State) {m a : Nat} {v : Word} (eff : State → State) (h : s.accepts m a v = true) :
    (s.gateWrite m a v eff).ports = (eff (s.respond m true a .ok 0)).ports := by
  rw [State.gateWrite_accepts s eff h]; dsimp only; split <;> simp

theorem State.gateWrite_dsFrames (s : State) {m a : Nat} {v : Word} (eff : State → State) (h : s.accepts m a v = true) :
    (s.gateWrite m a v eff).dsFrames = (eff (s.respond m true a .ok 0)).dsFrames := by
  rw [State.gateWrite_accepts s eff h]; dsimp only; split <;> simp

theorem State.gateWrite_sense (s : State) {m a : Nat} {v : Word} (eff : State → State) (h : s.accepts m a v = true) :
    (s.gateWrite m a v eff).sense = (eff (s.respond m true a .ok 0)).sense := by
  rw [State.gateWrite_accepts s eff h]; dsimp only; split <;> simp

theorem State.gateWrite_drives (s : State) {m a : Nat} {v : Word} (eff : State → State) (h : s.accepts m a v = true) :
    (s.gateWrite m a v eff).drives = (eff (s.respond m true a .ok 0)).drives := by
  rw [State.gateWrite_accepts s eff h]; dsimp only; split <;> simp

theorem State.gateWrite_topo (s : State) {m a : Nat} {v : Word} (eff : State → State) (h : s.accepts m a v = true) :
    (s.gateWrite m a v eff).topo = (eff (s.respond m true a .ok 0)).topo := by
  rw [State.gateWrite_accepts s eff h]; dsimp only; split <;> simp

theorem State.gateWrite_topoBytes (s : State) {m a : Nat} {v : Word} (eff : State → State) (h : s.accepts m a v = true) :
    (s.gateWrite m a v eff).topoBytes = (eff (s.respond m true a .ok 0)).topoBytes := by
  rw [State.gateWrite_accepts s eff h]; dsimp only; split <;> simp

theorem State.gateWrite_topoLocked (s : State) {m a : Nat} {v : Word} (eff : State → State) (h : s.accepts m a v = true) :
    (s.gateWrite m a v eff).topoLocked = (eff (s.respond m true a .ok 0)).topoLocked := by
  rw [State.gateWrite_accepts s eff h]; dsimp only; split <;> simp

theorem State.gateWrite_bad (s : State) {m a : Nat} {v : Word} (eff : State → State) (h : s.accepts m a v = true) :
    (s.gateWrite m a v eff).bad = (eff (s.respond m true a .ok 0)).bad := by
  rw [State.gateWrite_accepts s eff h]; dsimp only; split <;> simp

theorem State.gateWrite_loops (s : State) {m a : Nat} {v : Word} (eff : State → State) (h : s.accepts m a v = true) :
    (s.gateWrite m a v eff).loops = (eff (s.respond m true a .ok 0)).loops := by
  rw [State.gateWrite_accepts s eff h]; dsimp only; split <;> simp

theorem State.gateWrite_prf (s : State) {m a : Nat} {v : Word} (eff : State → State) (h : s.accepts m a v = true) :
    (s.gateWrite m a v eff).prf = (eff (s.respond m true a .ok 0)).prf := by
  rw [State.gateWrite_accepts s eff h]; dsimp only; split <;> simp

theorem State.gateWrite_lpl (s : State) {m a : Nat} {v : Word} (eff : State → State) (h : s.accepts m a v = true) :
    (s.gateWrite m a v eff).lpl = (eff (s.respond m true a .ok 0)).lpl := by
  rw [State.gateWrite_accepts s eff h]; dsimp only; split <;> simp

theorem State.gateWrite_rce (s : State) {m a : Nat} {v : Word} (eff : State → State) (h : s.accepts m a v = true) :
    (s.gateWrite m a v eff).rce = (eff (s.respond m true a .ok 0)).rce := by
  rw [State.gateWrite_accepts s eff h]; dsimp only; split <;> simp

theorem State.gateWrite_crs (s : State) {m a : Nat} {v : Word} (eff : State → State) (h : s.accepts m a v = true) :
    (s.gateWrite m a v eff).crs = (eff (s.respond m true a .ok 0)).crs := by
  rw [State.gateWrite_accepts s eff h]; dsimp only; split <;> simp

theorem State.gateWrite_prt (s : State) {m a : Nat} {v : Word} (eff : State → State) (h : s.accepts m a v = true) :
    (s.gateWrite m a v eff).prt = (eff (s.respond m true a .ok 0)).prt := by
  rw [State.gateWrite_accepts s eff h]; dsimp only; split <;> simp

theorem State.gateWrite_rsv (s : State) {m a : Nat} {v : Word} (eff : State → State) (h : s.accepts m a v = true) :
    (s.gateWrite m a v eff).rsv = (eff (s.respond m true a .ok 0)).rsv := by
  rw [State.gateWrite_accepts s eff h]; dsimp only; split <;> simp

theorem State.gateWrite_evt (s : State) {m a : Nat} {v : Word} (eff : State → State) (h : s.accepts m a v = true) :
    (s.gateWrite m a v eff).evt = (eff (s.respond m true a .ok 0)).evt := by
  rw [State.gateWrite_accepts s eff h]; dsimp only; split <;> simp

theorem State.gateWrite_mea (s : State) {m a : Nat} {v : Word} (eff : State → State) (h : s.accepts m a v = true) :
    (s.gateWrite m a v eff).mea = (eff (s.respond m true a .ok 0)).mea := by
  rw [State.gateWrite_accepts s eff h]; dsimp only; split <;> simp

theorem State.gateWrite_cal (s : State) {m a : Nat} {v : Word} (eff : State → State) (h : s.accepts m a v = true) :
    (s.gateWrite m a v eff).cal = (eff (s.respond m true a .ok 0)).cal := by
  rw [State.gateWrite_accepts s eff h]; dsimp only; split <;> simp

theorem State.gateWrite_net (s : State) {m a : Nat} {v : Word} (eff : State → State) (h : s.accepts m a v = true) :
    (s.gateWrite m a v eff).net = (eff (s.respond m true a .ok 0)).net := by
  rw [State.gateWrite_accepts s eff h]; dsimp only; split <;> simp

theorem State.gateWrite_pwr (s : State) {m a : Nat} {v : Word} (eff : State → State) (h : s.accepts m a v = true) :
    (s.gateWrite m a v eff).pwr = (eff (s.respond m true a .ok 0)).pwr := by
  rw [State.gateWrite_accepts s eff h]; dsimp only; split <;> simp

theorem State.gateWrite_thm (s : State) {m a : Nat} {v : Word} (eff : State → State) (h : s.accepts m a v = true) :
    (s.gateWrite m a v eff).thm = (eff (s.respond m true a .ok 0)).thm := by
  rw [State.gateWrite_accepts s eff h]; dsimp only; split <;> simp

theorem State.gateWrite_off (s : State) {m a : Nat} {v : Word} (eff : State → State) (h : s.accepts m a v = true) :
    (s.gateWrite m a v eff).off = (eff (s.respond m true a .ok 0)).off := by
  rw [State.gateWrite_accepts s eff h]; dsimp only; split <;> simp

theorem State.gateWrite_pending (s : State) {m a : Nat} {v : Word} (eff : State → State) (h : s.accepts m a v = true) :
    (s.gateWrite m a v eff).pending = (eff (s.respond m true a .ok 0)).pending := by
  rw [State.gateWrite_accepts s eff h]; dsimp only; split <;> simp

end Sys2Proof.Machine
end

