-- ==== Sys2Proof/Tests/Slice0.lean ====
section
/-! SUPPORT. The author's own tests: every check of well-formedness refuses a term, the spec's worked examples come out, and for
each statement with hypotheses a state and operands that meet them together. -/

open Sys2Proof Sys2Proof.Machine

namespace Sys2Proof.Tests

set_option linter.all false
set_option Elab.async false
set_option maxRecDepth 1000000

/-! ### Helpers -/

def w (l : List (Nat × Nat)) : Machine.State := l.foldl (fun (s : Machine.State) e => s.setRegN e.1 e.2) Machine.State.reset
abbrev solo : Nat × Nat := (Reg.RED_ROLE, 0xF00)
abbrev run : Nat × Nat := (Reg.TCK_STAT, 1)
def byv (n st lanes : Nat) : Nat × Nat := (atInst Reg.BYV_STAT n, st * 4096 + lanes * 1024)
def withPort (s : Machine.State) (n : Nat) (p : PortSt) : Machine.State := s.setPort n fun _ => p
/-- An upstream frame in full sense of EFE 3 for tick 5. -/
def upFrame : List Byte :=
  let l : List Byte := [0x42, 0x59, 0x55, 0] ++ [5,0,0,0,0,0,0,0] ++ [0, 0, 3] ++ List.replicate 6221 0
  l ++ toLE 4 (crc32c l).toNat
/-- A fabric of 4 ports, small enough to compute with. -/
def topo4 : Topo :=
  { log2n := 2, extra := 0, topoId := 5, efeMask := 1, wiring := [], explicitWiring := false, explicitAttach := false,
    slots := (List.range 6).map (fun c => (stdCell c, .cell c)) ++ (List.range 4).map (fun p => (stdVoa p, .voa p)) }
/-- A state with the small fabric and record `i` of the state store valid in it. -/
def withRec (s : Machine.State) (i : Nat) : Machine.State :=
  { s with topo := some topo4 }.putRec i 5 1 0 (packCells 6 fun c => c % 2 + 1)
/-- An image of one optional section of unknown type. -/
def image : List Byte :=
  let t := toLE 2 99 ++ toLE 2 0 ++ toLE 4 128 ++ toLE 4 0 ++ toLE 4 0
  let h := toLE 4 0x4D49424D ++ toLE 2 1 ++ toLE 2 1 ++ toLE 4 5 ++ toLE 4 0 ++ toLE 4 128 ++ List.replicate 40 0
  h ++ toLE 4 (crcSkip (h ++ [0, 0, 0, 0] ++ t) 0x3C) ++ t ++ List.replicate 48 0
/-- Job slot 3 filled in for records 5 and 6. -/
def job3 : List (Nat × Nat) := [solo, (Reg.RSV_RANGE, 1 + 4095 * 65536), (jobReg 3 2, 5), (jobReg 3 3, 6)]
def runJob : RsvJob := { slot := 3, urgent := false, topoId := 5, ret := [], absent := 0, reqs := [(0, 1, false)], base := [], topo := some topo4, early := some (0, []) }
/-- A job that keeps the connection of IP1 to OP1 of an all-BAR base, and the slot that asks for it. -/
def keepJob : RsvJob := { runJob with early := none, reqs := [(1, 1, false)], base := (List.range 6).map fun c => (c, 1) }
def keepSlot : Machine.State := { w (job3 ++ [(jobReg 3 0, 1), (jobReg 3 5, 2 ^ 31)]) with topo := some topo4, rsv := { run := some keepJob } }
def row (a : Nat) : RegRow := match regRow? a with | some (r, _) => r | none => ⟨0, 0, 0, 0, 0, 0, 0, []⟩
def ct (page k : Nat) : Nat × Nat := (cReg page OFF_COMMIT_TICK, k)
/-- An orphaned data path of a solo device, with the takeover open. -/
def orph : List (Nat × Nat) := [solo, (Reg.GLB_RESET_CAUSE, 0x22), (Reg.GLB_TAKEOVER_RES, 16)]
/-- Ports 1 and 2 up in VLAN 1. -/
def net2 (l : List (Nat × Nat)) : Machine.State :=
  { w ([solo, (atInst Reg.PORT_CTRL 1, 0x81), (atInst Reg.PORT_CTRL 2, 0x81), (atInst Reg.PORT_STAT 1, 1), (atInst Reg.PORT_STAT 2, 1),
      (atInst Reg.PORT_VLAN 1, 1), (atInst Reg.PORT_VLAN 2, 1), (Reg.FWD_CTRL, 0), (Reg.NTU_PTP_CFG, 0)] ++ l) with net := { vlans := [(1, 6)] } }
/-- A frame to a group address. -/
def frame60 : List Byte := [1, 0x80, 0xC2, 0, 0, 0x55, 2, 0, 0, 0, 0, 9, 0x99, 0x99] ++ List.replicate 46 7
def eth1 : EthHdr := ⟨0x011B19000000, 0x020000000009, none⟩
def ptp1 : PtpEnv := ⟨eth1, 0x88F7, []⟩
/-- A PTP message of type 0, version 2. -/
def sync1 : List Byte := [0, 2, 0, 44] ++ List.replicate 42 0
/-- An alarm payload of kind 1 of node 77. -/
def alarm1 : List Byte :=
  let p : List Byte := [1, 1, 1, 0] ++ toLE 2 77 ++ toLE 2 5 ++ List.replicate 34 0
  p ++ toLE 4 (almCrc p)
def mgtNet : Machine.State :=
  let s := net2 [(Reg.MGT_CTRL, 0x88B50001), (Reg.FWD_RMAC, 0x12345678), (Reg.FWD_RMAC_HI, 0x0200), (Reg.MGT_STAT, 0x10)]
  { s with net := { s.net with key0 := List.replicate 32 7, sessions := [(2, { active := true, sn := 99, last := 4 })] } }
def macOf (pre body : List Byte) : BitVec 256 := BitVec.ofNat 256 (beNat (hmacSha256 (List.replicate 32 7) (pre ++ body)))
/-- A mirror frame of a partner in role `r`, and what is read of it. -/
def mf (r kind tick seq : Nat) (body : List Byte) : List Byte :=
  (w [(Reg.RED_ROLE, r), (Reg.RED_EPOCH, 7)]).mirrorFrame kind (BitVec.ofNat 64 tick) seq (padTo 32 body)
def mr (l : List Byte) : MirFrame := (readMirror? l).getD ⟨0, 0, 0, 0, 0, []⟩
abbrev lanes4 : Nat × Nat := (Reg.RED_MIR, 0x70F)
def hello1 : List Byte := mf 1 0x61 0 0 [5, 0, 0, 0, 9, 0, 0, 0, 0, 0, 2, 1, 7, 0]
def trig1 : List Byte := mf 1 0x62 3 0 [0x12, 0x34]
def digest1 : List Byte := mf 1 0x63 3 0 [1, 2, 3, 4, 5, 6, 7, 8, 9, 10, 11, 12, 0, 0, 3]
def ctl (kind : Nat) : List Byte := mf 1 0x67 3 0 ([BitVec.ofNat 8 kind, 1] ++ List.replicate 6 0 ++ toLE 8 9 ++ toLE 2 44 ++ [1])
def req1 : List Byte := mf 1 0x64 3 0 (toLE 2 77 ++ toLE 8 9)
def jour1 : List Byte := mf 1 0x65 3 4 (toLE 4 0x10000000 ++ toLE 4 5 ++ toLE 4 0x04004101 ++ toLE 4 12)
def snap1 : List Byte := mf 1 0x66 3 4 (toLE 4 0x10000002 ++ toLE 4 3 ++ toLE 4 5 ++ toLE 4 6 ++ toLE 4 7 ++ toLE 4 0)
def snap2 : List Byte := mf 1 0x66 3 4 (toLE 4 0x12820000 ++ toLE 4 3)
def own1 : DigestSt := ⟨3, 4, 5, false, false, true, 1, 7⟩
def calP : CalPass := { kind := 1, elems := [{ slot := 672, elem := .voa 0, aStart := 5, bStart := 6, n := 1000, sum0 := 9000000, sum1 := 900000 }], m := 2 }

/-! ### Long CRCs -/

theorem leNat_toLE4 (x : BitVec 32) : leNat (toLE 4 x.toNat) = x.toNat := by
  have h := x.isLt
  simp [toLE, leNat, List.range, List.range.loop]
  omega

theorem upCrcOk_appended (l : List Byte) (h : l.length = 6236) : upCrcOk (l ++ toLE 4 (crc32c l).toNat) = true := by
  have h4 : (toLE 4 (crc32c l).toNat).length = 4 := by simp [toLE]
  have e := leNat_toLE4 (crc32c l)
  have t4 : (toLE 4 (crc32c l).toNat).take 4 = toLE 4 (crc32c l).toNat := List.take_of_length_le (by omega)
  simp [upCrcOk, leAt, sliceB, h, h4, t4, e]

theorem upFrame_crc : upCrcOk upFrame = true := upCrcOk_appended _ (by decide +kernel)

/-- Record 0 of the small fabric, in the middle of a staging. -/
def recState : Machine.State :=
  { w [] with
    topo := some topo4
    mem := [(0x10000000, 0x4D), (0x10000001, 0x42), (0x10000002, 0x56), (0x10000003, 0x4B), (0x10000006, 1), (0x10000008, 5),
      (0x1000000C, 1), (0x1000003C, 0x15), (0x1000003D, 0xB9), (0x1000003E, 0x91), (0x1000003F, 0x5E), (0x10000040, 0x99),
      (0x10000041, 9)]
    rce := { staging := some ⟨0, 5, false, false, 5, false⟩ } }

/-! ### Well-formedness -/

theorem test_wf_markerTx : Instr.wellFormed (.markerTx 0 6799) = false := by decide
theorem test_wf_pcieLinkChange : Instr.wellFormed (.pcieLinkChange 1 3 true false) = false := by decide
theorem test_wf_pcieLinkChange_speed : Instr.wellFormed (.pcieLinkChange 0 1 true false) = false := by decide
theorem test_wf_thermalEvaluation : Instr.wellFormed (.thermalEvaluation [1, 2]) = false := by decide
theorem test_wf_burstTruncate : Instr.wellFormed (.burstTruncate 0 true 0x04000002 [1, 2, 3, 4]) = false := by decide
theorem test_wf_stateStoreWrite : Instr.wellFormed (.stateStoreWrite 0 33554431 [1, 2]) = false := by decide
theorem test_wf_contextEntryWrite : Instr.wellFormed (.contextEntryWrite 0 8388607 [1, 2]) = false := by decide
theorem test_wf_profileShadowWrite : Instr.wellFormed (.profileShadowWrite 0 65535 [1, 2]) = false := by decide
theorem test_wf_loopContextWrite : Instr.wellFormed (.loopContextWrite 0 1572863 [1, 2]) = false := by decide
theorem test_wf_placementShadowWrite : Instr.wellFormed (.placementShadowWrite 0 2490367 [1, 2]) = false := by decide
theorem test_wf_mramWrite : Instr.wellFormed (.mramWrite 0 33554431 [1, 2]) = false := by decide
theorem test_wf_keySlotWrite : Instr.wellFormed (.keySlotWrite 0 0 31 [1, 2]) = false := by decide
theorem test_wf_registerWrite : Instr.wellFormed (.registerWrite 0 0x08000000 0 15 0) = false := by decide
theorem test_wf_lowWordRead : Instr.wellFormed (.lowWordRead 0 0x00010000 0) = false := by decide
theorem test_wf_decodeError : Instr.wellFormed (.decodeError 0 true 0x18000000) = false := by decide
theorem test_wf_w1cClear : Instr.wellFormed (.w1cClear 0 0 0) = false := by decide
theorem test_wf_burstBeyondBar : Instr.wellFormed (.burstTruncate 0 true 0x17FFFFFC [1, 2, 3, 4, 5, 6, 7, 8]) = false := by decide
theorem test_wf_empty : Instr.wellFormed (.mramWrite 0 0 []) = false := by decide
theorem test_decode_none : decodeTableWord 32 0 = none := rfl

/-! ### Worked examples of the spec -/

/-- Tick arithmetic (R9). -/
theorem test_reqTick : reqTick 0x00000001FFFFFFF0 32 0x20 = 0x0000000200000020 := by decide

/-- Locating cell 7,301: its slot (R36), the lines that links 14 and 13 join (R31), and the VOA of IP517. -/
theorem test_stdCell : stdCell 7301 = 8261 ∧ stdVoa 517 = 6821 := by decide
theorem test_stdLink : stdLink 10 2 14 266 = 276 ∧ stdLink 10 2 14 267 = 278 ∧ stdLink 10 2 13 261 = 266 ∧
    stdLink 10 2 13 277 = 267 := by decide

/-- The timeline at P = 1,000: O = 650 and C = 1,550 (R54). -/
theorem test_timeline : windowOpen 1000 = 650 ∧ windowCloseAt 1000 = 1550 := by decide

/-- The profile of the worked inner-loop update, and the update. -/
def prof1 : Prof := ⟨0x2000, 0x0100, 0x1000, 1, 0x6000, -0x4000, 0x6000, -0x2000, 0x4000, 0, 0⟩
theorem test_heaterPower : heaterPower 0x4000 0x3401 = 0x1A01 := by decide
theorem test_pidUpdate :
    let c := pidUpdate prof1 { i := 0x12345678, ePrev := 0x300, dPrev := 0x40 } 0x2000 0x1A01
    c.i = 0x124C5278 ∧ c.ePrev = 0x5FF ∧ c.dPrev = 0x60 ∧ c.u = 0x15AC ∧ c.sat = false ∧ driveCode c.u = 0x95AC := by decide
/-- Integrator and output both clamped. -/
theorem test_pidUpdate_clamped :
    let c := pidUpdate prof1 { i := 0x3FF00000, ePrev := 0x5FF, dPrev := 0x60 } 0x7000 0x1000
    c.i = 0x40000000 ∧ c.sat = true ∧ c.satNeg = false ∧ c.dPrev = 0x5E8 ∧ c.u = 0x6000 ∧ c.outSat = true ∧
      driveCode c.u = 0xE000 := by decide

/-- Steering out of a step of 1,203 ns with slew 8 at P = 1,000: the boundary is late, so the tick is 992 cycles long; 3 ns late
takes 997. -/
def late (ns : Nat) : Machine.State :=
  { State.reset.setForce Reg.TCK_SLEW 8 with
    tck := { ideal := 50000 }
    ntu := { frc := 65536 * BitVec.ofNat 96 (50000 + ns) } }
theorem test_steering : (late 1203).chooseLength = 992 ∧ (late 3).chooseLength = 997 ∧ (late 0).chooseLength = 1000 := by
  decide +kernel

/-- Three reads from a driver: a reserved position reads 0 without error while QUIET is 1, and the access is logged. -/
theorem test_quiet_read :
    (State.reset.busRead 0 0x040A3000).bus.last = ⟨0, false, 0x040A3000, .quiet, 0⟩ ∧
    (State.reset.busRead 0 0x040A3000).reg Reg.BMX_DEC_ADDR = 0x040A3000 := by decide +kernel
/-- A reserved offset is a RESERVED violation of M0: an Unsupported Request, logged with MASTER 0 and KIND 0x02. -/
theorem test_reserved_read :
    (State.reset.busRead 0 0x04033110).bus.last.status = .unsupportedRequest ∧
    (State.reset.busRead 0 0x04033110).reg (cReg 0x33 OFF_ERR_ADDR) = 0x04033110 ∧
    (State.reset.busRead 0 0x04033110).fld (cReg 0x33 OFF_ERR_INFO) 0 8 = 2 := by decide +kernel

/-- A boundary's MARKER on the line (R78, R79, R86): type, boundary, OFS and period, with header bit 0. -/
theorem test_markerBlock : (markerBlock 5 6900 1000).data = false ∧ (markerBlock 5 6900 1000).bytes =
    [2, 0, 0, 0, 5, 0, 0, 0, 0, 0, 0, 0, 0xF4, 0x1A, 0xE8, 3] ++ List.replicate 16 0 := by decide
/-- A downstream frame of 98 blocks takes five codewords, the last of them shortened to 18 blocks (R78). -/
theorem test_frameCodewords : (frameCodewords none (dataBlocks (List.replicate 3136 0))).map (·.length) = [20, 20, 20, 20, 18] := by
  decide +kernel
/-- A codeword's parity makes it a multiple of the generator: its value at α^j is 0 for j = 0 and j = 29 (R76). -/
theorem test_rsParity :
    let m := (List.range 40).map fun i => 7 * i % 1024
    let at' (x : Nat) : Nat := (m ++ rsParity m).foldl (fun r c => gfMul 10 r x ^^^ c) 0
    let pow (j : Nat) : Nat := (List.range j).foldl (fun r _ => gfMul 10 2 r) 1
    at' (pow 0) = 0 ∧ at' (pow 29) = 0 := by decide +kernel

/-- IDCODE of R486 as Capture-DR loads it. -/
theorem test_idcode : State.reset.jtag.dr = 0xB10245CB := rfl

theorem witness_StepKeepsInv : ∃ s t : Machine.State, s.Inv ∧ step s = .next t :=
  ⟨State.reset.withPending [.bypass], _, by unfold State.Inv; decide +kernel, rfl⟩
theorem witness_EveryStepAnswersNext : ∃ s : Machine.State, s.queueOk = true ∧ s.pending ≠ [] :=
  ⟨State.reset.withPending [.bypass, .idcode], by decide⟩
theorem witness_OnlyBoundariesMoveTheTick : ∃ (c : Instr) (s t : Machine.State), c.mayMoveTick = false ∧ exec c s = .next t :=
  ⟨.scrub, State.reset, _, by decide, rfl⟩
theorem witness_OnlyStoringCommandsWriteMemory : ∃ (c : Instr) (s t : Machine.State), c.mayStore = false ∧ exec c s = .next t :=
  ⟨.bypass, State.reset, _, by decide, rfl⟩
theorem witness_ChosenLengthIsBest : ∃ s : Machine.State, 500 ≤ s.period ∧ s.period ≤ 4000 ∧ 0 < s.slew ∧ s.slew ≤ 16 ∧
    ∃ l, 500 ≤ l ∧ l ≤ s.period + slewLimit s.period s.slew ∧ s.period ≤ l + slewLimit s.period s.slew :=
  ⟨late 3, by decide +kernel, by decide +kernel, by decide +kernel, by decide +kernel, 1008, by decide +kernel⟩
theorem witness_StandardWiringIsOneToOne : ∃ n e k x y : Nat, 6 ≤ n ∧ n ≤ 10 ∧ (e = 0 ∨ e = 2) ∧ k < 2 * n - 2 + e ∧ x < 2 ^ n ∧
    y < 2 ^ n ∧ stdLink n e k x = stdLink n e k y := ⟨10, 2, 19, 1023, 1023, by decide⟩
theorem witness_DigestShareIsLinear : ∃ x y v w : Nat, x < 2 ^ 32 ∧ y < 2 ^ 32 ∧ v < 2 ^ 32 ∧ w < 2 ^ 32 :=
  ⟨0x10000000, 0xFFFFFFFF, 5, 0, by decide⟩
theorem witness_LoopUpdateStaysWithinLimits : ∃ p : Prof, p.iMin ≤ p.iMax ∧ p.outMin ≤ p.outMax := ⟨prof1, by decide⟩
theorem witness_CodewordsOfAFrame : ∃ (al : Option Block) (d : List Block) (k : Nat) (l : List Nat) (i : Nat),
    d ≠ [] ∧ 20 < d.length ∧ carriesAlign d.length = true ∧ al.isSome = true ∧ 0 < k ∧ i < l.length :=
  ⟨some (alignBlock 1 3), List.replicate 41 idleBlock, 2, [4, 5], 1, by decide⟩
theorem witness_CodewordsOfAFrame_short : ∃ d : List Block, d ≠ [] ∧ d.length ≤ 20 := ⟨List.replicate 20 idleBlock, by decide⟩
theorem witness_BusAccessCommandsComplete_bars : ∃ (a n : Nat) (addr : Word), 0 < n ∧ masterReaches 0 a n = true ∧
    masterReaches 0 addr.toNat 1 = false := ⟨0x17FFFFFF, 1, 0x18000000, by decide⟩
theorem witness_ProtectedPages_page : ∃ page : Nat, page < 192 := ⟨191, by decide⟩

/-! ### The hypotheses of the statements can be met -/

theorem witness_ClkInterruptBits :
    (∃ (cycle : Nat) (s : State), s.bit Reg.CLK_STAT 0 = true) ∧
    (∃ (us cycle : Nat) (s : State), s.bit Reg.CLK_STAT 0 = false ∧ s.bus.held = [] ∧ s.net.waits = []) ∧
    (∃ (s : State), s.bit Reg.CLK_STAT 1 = true) ∧
    (∃ (m : Fin 8) (v : Word) (s : State), s.accepts m (cReg 3 OFF_INT_STAT) v = true) :=
  ⟨⟨5, w [run], by decide +kernel⟩,
    ⟨77, 5, w [(Reg.CLK_STAT, 6)], by decide +kernel⟩,
    ⟨w [], by decide +kernel⟩,
    ⟨0, 5, w [(cReg 3 OFF_INT_STAT, 7)], by decide +kernel⟩⟩

theorem witness_ResetNDuringSequencesAndResets :
    (∃ (ns : Nat) (straps : Fin 16) (pll clear : Bool) (s : State), s.pwr.seqCause ≠ none) ∧
    (∃ (straps : Fin 16) (pll clear cool : Bool) (s : State), s.off = true ∧ s.pwr.seqCause = some 1 ∧ (s.aValid = true ∨ s.bValid = true) ∧ (s.pwr.trip = true → cool = true)) ∧
    (∃ (straps : Fin 16) (pll clear : Bool) (s : State), s.off = true ∧ s.pwr.seqCause = some 2 ∧ (s.aValid = true ∨ s.bValid = true)) ∧
    (∃ (ns : Nat) (straps : Fin 16) (pll clear : Bool) (s : State), 1000 ≤ ns ∧ s.pwr.seqCause = none ∧ s.off = false ∧ (s.mstate = 1 ∨ s.rst.srst ≠ [])) :=
  ⟨⟨5000, 3, true, true, { w [] with pwr := { seqCause := some 1 } }, by decide +kernel⟩,
    ⟨3, true, true, true, { w [(Reg.PWR_STATE, 0x18)] with off := true, pwr := { seqCause := some 1, trip := true } }, by decide +kernel⟩,
    ⟨3, true, true, { w [(Reg.PWR_STATE, 0x18)] with off := true, pwr := { seqCause := some 2, trip := true } }, by decide +kernel⟩,
    ⟨1000, 3, true, true, w [(Reg.GLB_RESET_CAUSE, 0x12)], by decide +kernel⟩⟩

theorem witness_ProtectedPages :
    (∃ (m : Fin 8) (addr v : Word) (cycle : Nat) (s : State), 3 ≤ m.val ∧ m.val ≤ 6 ∧ addr.toNat % 4 = 0 ∧ s.target addr.toNat = 0 ∧ s.accessHeld m addr.toNat = false ∧ s.protected (pageOf addr.toNat) = true) ∧
    (∃ (m : Fin 8) (addr : Word) (cycle : Nat) (s : State), 3 ≤ m.val ∧ m.val ≤ 6 ∧ addr.toNat % 4 = 0 ∧ s.target addr.toNat = 0 ∧ s.accessHeld m addr.toNat = false ∧ s.protected (pageOf addr.toNat) = true) :=
  ⟨⟨4, BitVec.ofNat 32 Reg.THM_WARN, 5, 6, w [], by decide +kernel⟩,
    ⟨3, BitVec.ofNat 32 (cReg 0xA OFF_ERR_INFO), 6, w [], by decide +kernel⟩⟩

theorem witness_DecodeErrorsAndQuiet :
    (∃ (m : Fin 8) (write : Bool) (addr : Word) (s : State), masterReaches m addr.toNat 1 = true ∧ s.target addr.toNat = 7 ∧ s.silent = false) ∧
    (∃ (m : Fin 8) (straps : Fin 16) (s : State), m.val ≤ 2 ∧ s.accepts m Reg.GLB_RESET 0x5A5A0001 = true) ∧
    (∃ (m : Fin 8) (s : State), m.val ≤ 2 ∧ s.accepts m Reg.GLB_RESET 0x5A5A0002 = true) ∧
    (∃ (m : Fin 8) (cycle : Nat) (s : State), m.val ≤ 2 ∧ (s.atCycle cycle).accepts m Reg.GLB_RESET 0x5A5A0003 = true) ∧
    (∃ (m : Fin 8) (addr v : Word) (cycle k : Nat) (s : State), addr.toNat % 4 = 0 ∧ s.target addr.toNat = 0 ∧ s.accessHeld m addr.toNat = false ∧ s.writeRefusal? m addr.toNat v = some k) :=
  ⟨⟨0, true, 0x17000000, w [], by decide +kernel⟩,
    ⟨0, 3, w [(Reg.BMX_QUIET_DECODE, 0)], by decide +kernel⟩,
    ⟨0, w [(Reg.BMX_QUIET_DECODE, 0)], by decide +kernel⟩,
    ⟨0, 5, w [(Reg.BMX_QUIET_DECODE, 0)], by decide +kernel⟩,
    ⟨0, BitVec.ofNat 32 (cReg 9 0), 5, 6, 4, w [(Reg.BMX_QUIET_DECODE, 0)], by decide +kernel⟩⟩

theorem witness_SensorFloor :
    (∃ (l : List (BitVec 16)) (s : State), l.length = 16 ∧ s.off = false ∧ s.flt.inReset = false) ∧
    (∃ (i : Fin 16) (s : State), s.isDue pTHM i = true) ∧
    (∃ (m : Fin 8) (mask : BitVec 16) (s : State), s.accepts m Reg.THM_SENS_RESTORE (mask.setWidth 32) = true) :=
  ⟨⟨[0, 1, 2, 3, 0xFFFF, 5, 6, 7, 8, 9, 10, 11, 12, 13, 14, 0x8000], w [], by decide +kernel⟩,
    ⟨15, { w [] with flt := { due := [chan pTHM 15] } }, by decide +kernel⟩,
    ⟨0, 0x8001, { w [] with thm := { sensors := [(0, { retired := true }), (3, { retired := true })] } }, by decide +kernel⟩⟩

theorem witness_RingmasterStartAndStopComplete :
    (∃ (m : Fin 8) (cycle : Nat) (alt : Bool) (s : State), (s.atCycle cycle).accepts m Reg.TCK_CTRL (BitVec.ofNat 32 (1 + 4 * b2n alt)) = true ∧ s.running = false ∧ s.tck.startAt = none ∧ (s.tck.everStarted = true ∧ 0 < s.period ∨ s.tck.everStarted = false ∧ s.tckRangeOk = true)) ∧
    (∃ (m : Fin 8) (alt : Bool) (s : State), s.accepts m Reg.TCK_CTRL (BitVec.ofNat 32 (2 + 4 * b2n alt)) = true ∧ s.running = true ∧ s.roleActs = true ∧ s.carousel = false ∧ s.pendingOn pTCK = false ∧ s.loopsQuiet = true ∧ s.applyAtOrAfter (s.now + 3) = false) :=
  ⟨⟨0, 5, true, w [solo], by decide +kernel⟩,
    ⟨0, true, w [solo, run], by decide +kernel⟩⟩

theorem witness_PlacementCommandsComplete :
    (∃ (m : Fin 8) (auto : Bool) (s : State), s.accepts m Reg.LPL_CTRL (BitVec.ofNat 32 (1 + 2 * b2n auto)) = true) ∧
    (∃ (s : State), s.bit Reg.LPL_STAT 9 = true) ∧
    (∃ (m : Fin 8) (auto : Bool) (s : State), s.accepts m Reg.LPL_CTRL (BitVec.ofNat 32 (4 + 2 * b2n auto)) = true ∧ s.placeSource ≠ 0) ∧
    (∃ (s : State), s.bit Reg.LPL_STAT 11 = true) ∧
    (∃ (m : Fin 8) (e : Fin 32) (s : State), s.accepts m (atInst Reg.LEN_CTRL e) 1 = true ∧ bitAt s.retMask e = false) ∧
    (∃ (e : Fin 32) (c : Nat) (s : State), s.engineDue? e = some c) :=
  ⟨⟨0, true, w [], by decide +kernel⟩,
    ⟨w [(Reg.LPL_STAT, 512)], by decide +kernel⟩,
    ⟨0, false, w [(Reg.LPL_STAT, 64)], by decide +kernel⟩,
    ⟨w [(Reg.LPL_STAT, 2048 + 64)], by decide +kernel⟩,
    ⟨0, 3, w [run], by decide +kernel⟩,
    ⟨3, 2, { w [run] with flt := { due := [chan (pLEN 3) 0] } }, by decide +kernel⟩⟩

theorem witness_CopyBackAndLoopRetireComplete :
    (∃ (s : State), Memory.wf s.mem = true ∧ s.bit Reg.PRF_STAT 1 = true) ∧
    (∃ (l : Fin 12288) (s : State), s.isDue (pLEN (s.loopEngine l)) (loopChan l) = true ∧ (s.loop l).eff ≠ .frozen) :=
  ⟨⟨(w [(Reg.PRF_STAT, 2)]).setBytes profActive [1, 2, 3], by decide +kernel⟩,
    ⟨5, { w [run] with flt := { due := [chan (pLEN 0) (loopChan 5)] } }, by decide +kernel⟩⟩

theorem witness_CarouselCommandsComplete :
    (∃ (m : Fin 8) (s : State), s.accepts m Reg.CRS_CTRL 1 = true) ∧
    (∃ (s : State), s.bit Reg.CRS_STAT 4 = true) ∧
    (∃ (m : Fin 8) (v : Word) (s : State), s.accepts m Reg.CRS_SHD_DATA v = true ∧ s.crsShadowBusy = false) ∧
    (∃ (m : Fin 8) (s : State), s.acceptsRead m Reg.CRS_ACT_DATA = true) ∧
    (∃ (s : State), s.slotChangeDue = true) :=
  ⟨⟨0, w [], by decide +kernel⟩,
    ⟨w [(Reg.CRS_STAT, 16)], by decide +kernel⟩,
    ⟨0, 77, w [(Reg.CRS_SHD_IDX, 1023)], by decide +kernel⟩,
    ⟨0, w [(Reg.CRS_ACT_IDX, 1023)], by decide +kernel⟩,
    ⟨{ w [(Reg.CRS_STAT, 1), run] with crs := { act := { count := 2, words := [(0, 1), (1, 1)] } }, tck := { now := 1 } }, by decide +kernel⟩⟩

theorem witness_ByevoLinkEventsComplete :
    (∃ (port : Fin 16) (ofs : Nat) (s : State), 6800 ≤ ofs ∧ ofs ≤ 9520 ∧ (s.running = true ∨ s.tck.lastMarker = some (s.now + 1)) ∧ (s.portState port = stSync ∨ s.portState port = stRun) ∧ s.squelched port = false) ∧
    (∃ (port : Fin 16) (content : List Byte) (s : State), (s.portState port = stSync ∨ s.portState port = stRun) ∧ s.shortDeg port = false ∧ upCrcOk content = true ∧ s.upMatches port (readUp content) = true ∧ s.tck.judged ≠ some s.now) ∧
    (∃ (port : Fin 16) (lane : Fin 2) (s : State), s.isDue (pBYV port) lane = true ∧ bitAt (s.lanesUp port) lane = true) ∧
    (∃ (port : Fin 16) (id : BitVec 64) (efe proto layout : Byte) (te hold : BitVec 16) (s : State), s.portState port = stDiscover ∧ discoverResult port efe.toNat proto.toNat layout.toNat hold.toNat = 0) ∧
    (∃ (port : Fin 16) (id : BitVec 64) (efe proto layout : Byte) (te hold : BitVec 16) (s : State), s.portState port = stDiscover ∧ discoverResult port efe.toNat proto.toNat layout.toNat hold.toNat ≠ 0) :=
  ⟨⟨3, 6900, w [run, byv 3 7 3], by decide +kernel⟩,
    ⟨3, upFrame, { w [run, byv 3 7 3] with tck := { now := 5 } }, by decide +kernel, by decide +kernel, upFrame_crc, by decide +kernel, by decide +kernel⟩,
    ⟨3, 1, { w [run, byv 3 7 3] with flt := { due := [chan (pBYV 3) 1] } }, by decide +kernel⟩,
    ⟨3, 0x123456789ABCDEF0, 3, 1, 1, 7, 100, w [byv 3 4 3], by decide +kernel⟩,
    ⟨3, 0x123456789ABCDEF0, 3, 1, 1, 7, 99, w [byv 3 4 3], by decide +kernel⟩⟩

theorem witness_ByevoControlCommandsComplete :
    (∃ (m : Fin 8) (port : Fin 16) (s : State), s.accepts m (atInst Reg.BYV_CTRL port) (BitVec.ofNat 32 (s.fld (atInst Reg.BYV_CTRL port) 0 2 + 16)) = true ∧ s.laneEn port ≠ 0 ∧ s.portState port ≠ stDisabled) ∧
    (∃ (m : Fin 8) (port : Fin 16) (lanes : Fin 4) (s : State), s.accepts m (atInst Reg.BYV_CTRL port) (BitVec.ofNat 32 (s.fld (atInst Reg.BYV_CTRL port) 0 2 + 256 * lanes.val)) = true ∧ s.portState port = stRun ∧ lanes.val &&& s.lanesRet port &&& s.laneEn port ≠ 0) ∧
    (∃ (m : Fin 8) (port : Fin 16) (s : State), s.accepts m (atInst Reg.BYV_CTRL port) (BitVec.ofNat 32 (s.fld (atInst Reg.BYV_CTRL port) 0 2 + 4096)) = true ∧ s.portState port = stRun ∧ s.squelched port = false) ∧
    (∃ (m : Fin 8) (port : Fin 16) (en : Fin 4) (s : State), s.accepts m (atInst Reg.BYV_CTRL port) (BitVec.ofNat 32 en.val) = true) :=
  ⟨⟨0, 3, { w [byv 3 7 3, (atInst Reg.BYV_CTRL 3, 3)] with force := [(atInst Reg.BYV_CTRL 3, 3)] }, by decide +kernel⟩,
    ⟨0, 3, 2, { w [byv 3 7 3, (atInst Reg.BYV_STAT 3, 0x7600), (atInst Reg.BYV_CTRL 3, 3)] with force := [(atInst Reg.BYV_CTRL 3, 3)] }, by decide +kernel⟩,
    ⟨0, 3, w [byv 3 7 3], by decide +kernel⟩,
    ⟨0, 3, 2, w [byv 3 7 3], by decide +kernel⟩⟩

theorem witness_LinkTrainingCommandsComplete :
    (∃ (port : Fin 17) (busy : Bool) (s : State), (if port.val = 16 then s.mirDark || s.mirLanes == 0 else s.squelched port) = false ∧ (port.val = 16 ∨ busy = false)) ∧
    (∃ (port : Fin 17) (s : State), port.val < 16 ∧ s.squelched port = false) ∧
    (∃ (port : Fin 17) (lane : Fin 4) (inPlace : Bool) (skew : Int) (s : State), port.val < 16 ∧ lane.val < 2) ∧
    (∃ (port : Fin 17) (lane : Fin 4) (s : State), (port.val = 16 ∨ lane.val < 2)) ∧
    (∃ (port : Fin 17) (lanes : Fin 16) (s : State), port.val < 16 ∧ s.portState port = stPmd ∧ (lanes.val % 4) &&& (s.port port).training ≠ 0) ∧
    (∃ (port : Fin 17) (seq : BitVec 16) (rtt : Nat) (s : State), port.val < 16 ∧ (s.port port).echoing = true ∧ seq.toNat = (s.port port).echoSeq ∧ (s.port port).echoes.length < 7 ∧ s.squelched port = false) ∧
    (∃ (port : Fin 17) (signal : Bool) (s : State), port.val < 16 ∧ s.portState port = stPmd) ∧
    (∃ (port : Fin 17) (s : State), port.val < 16 ∧ s.portState port = stWait ∧ s.laneEn port &&& (s.port port).attempt ≠ 0) ∧
    (∃ (lanes : Fin 16) (s : State), s.red.training &&& lanes.val ≠ 0 ∧ s.red.trained = 0) ∧
    (∃ (s : State), s.mirState = 1) :=
  ⟨⟨3, false, w [byv 3 7 3], by decide +kernel⟩,
    ⟨3, w [byv 3 7 3], by decide +kernel⟩,
    ⟨3, 0, true, -5, w [byv 3 3 3], by decide +kernel⟩,
    ⟨3, 0, w [byv 3 7 3], by decide +kernel⟩,
    ⟨3, 2, withPort (w [byv 3 2 0]) 3 { training := 3 }, by decide +kernel⟩,
    ⟨3, 4, 99, withPort (w [byv 3 5 0]) 3 { echoing := true, echoSeq := 4, echoes := [1,2] }, by decide +kernel⟩,
    ⟨3, true, withPort (w [byv 3 2 0]) 3 { training := 3 }, by decide +kernel⟩,
    ⟨3, { w [byv 3 1 0] with force := [(atInst Reg.BYV_CTRL 3, 3)] }, by decide +kernel⟩,
    ⟨5, { w [] with red := { training := 7 } }, by decide +kernel⟩,
    ⟨{ w [(Reg.RED_MIR, 0x100), (Reg.RED_MIR_CTRL, 15)] with red := { attempt := 6 } }, by decide +kernel⟩⟩

theorem witness_ClaimCommandsComplete :
    (∃ (m : Fin 8) (arm solo unsynced : Bool) (s : State), s.accepts m Reg.RED_CLAIM (BitVec.ofNat 32 (b2n arm + 2 * b2n solo + 4 * b2n unsynced)) = true ∧ (arm = false ∨ s.bit Reg.RED_SEAT 2 = false)) ∧
    (∃ (cycle : Nat) (s : State), (s.atCycle cycle).claimReady = true ∧ s.bit Reg.RED_SEAT 2 = false ∧ (s.bit Reg.RED_CLAIM 1 && s.epochInUse) = false) ∧
    (∃ (cycle : Nat) (f : BitVec 96) (s : State), s.red.claimFrom = some f ∧ (s.atCycle cycle).agedNs f 1000 = true) ∧
    (∃ (cycle : Nat) (s : State), s.ilkIn = true) ∧
    (∃ (m : Fin 8) (s : State), s.accepts m Reg.RED_CTRL 2 = true ∧ s.role = 0 ∧ s.orphaned = false ∧ s.red.roleAt = none) ∧
    (∃ (m : Fin 8) (s : State), s.accepts m Reg.RED_CTRL 1 = true ∧ s.roleActs = true) :=
  ⟨⟨0, true, true, false, w [], by decide +kernel⟩,
    ⟨5, { w [(Reg.RED_CLAIM, 5), (Reg.RED_STAT, 0), run] with tck := { hbAlive := true, hb := true }, ntu := { frc := 65536 * 1000000000 } }, by decide +kernel⟩,
    ⟨2000, 0, { w [] with red := { claimFrom := some 0 } }, by decide +kernel⟩,
    ⟨7, w [(Reg.RED_STAT, 2)], by decide +kernel⟩,
    ⟨0, w [solo], by decide +kernel⟩,
    ⟨0, w [solo], by decide +kernel⟩⟩

theorem witness_MirrorControlCommandsComplete :
    (∃ (s : State), s.mirDark = false ∧ s.mirLanes ≠ 0) ∧
    (∃ (m : Fin 8) (s : State), s.accepts m Reg.RED_CTRL 4 = true ∧ s.trapRuns = false ∧ (s.role = 3 ∨ s.role = 4) ∧ s.mirrorUp = true ∧ (s.red.hello.map fun h => (h.role, h.serve)) = some (1, true) ∧ s.ilkIn = true) ∧
    (∃ (m : Fin 8) (s : State), s.accepts m Reg.RED_CTRL 8 = true ∧ s.trapRuns = true) ∧
    (∃ (m : Fin 8) (s : State), s.accepts m Reg.RED_MIR_CTRL (BitVec.ofNat 32 (s.mirEn + 256)) = true) ∧
    (∃ (m : Fin 8) (lanes : Fin 16) (s : State), s.accepts m Reg.RED_MIR_CTRL (BitVec.ofNat 32 (s.mirEn + 16 * lanes.val)) = true ∧ lanes.val &&& s.mirRet &&& s.mirEn ≠ 0 ∧ s.mirLanes ≠ 0 ∧ s.mirLanes &&& (15 ^^^ s.mirEn) = 0) ∧
    (∃ (m : Fin 8) (en : Fin 16) (s : State), s.accepts m Reg.RED_MIR_CTRL (BitVec.ofNat 32 en.val) = true) ∧
    (∃ (seq : Byte) (s : State), s.mirDark = false ∧ s.mirLanes ≠ 0) :=
  ⟨⟨w [(Reg.RED_MIR, 0x70F)], by decide +kernel⟩,
    ⟨0, { w [(Reg.RED_ROLE, 0x103), (Reg.RED_STAT, 0x42), (Reg.RED_MIR, 0x70F)] with red := { hello := some ⟨1, 5, true, 0, 9⟩ } }, by decide +kernel⟩,
    ⟨0, w [(Reg.RED_TRAP, 0x300)], by decide +kernel⟩,
    ⟨0, w [(Reg.RED_MIR, 0x70F), (Reg.RED_MIR_CTRL, 0xF)], by decide +kernel⟩,
    ⟨0, 2, w [(Reg.RED_MIR, 0x72D), (Reg.RED_MIR_CTRL, 0xF)], by decide +kernel⟩,
    ⟨0, 2, w [(Reg.RED_MIR, 0x70F), (Reg.RED_MIR_CTRL, 0xF)], by decide +kernel⟩,
    ⟨200, w [(Reg.RED_MIR, 0x70F)], by decide +kernel⟩⟩

theorem witness_TriggerInputCommandsComplete :
    (∃ (pin : Fin 8) (level : Bool) (cycle : Nat) (s : State), (s.pin pin).level ≠ level) ∧
    (∃ (i : Fin 1032) (s : State), i.val < 8 ∧ s.stuckDue (s.pin i).on (s.pin i).since = true ∧ s.bit Reg.EVT_PIN_STAT (16 + i) = false) ∧
    (∃ (i : Fin 1032) (s : State), 8 ≤ i.val ∧ s.stuckDue (s.lol (i.val - 8)).on (s.lol (i.val - 8)).since = true ∧ s.bit (Reg.EVT_LOL_STUCK + 4 * ((i.val - 8) / 32)) ((i.val - 8) % 32) = false) ∧
    (∃ (m : Fin 8) (v : Word) (cycle : Nat) (s : State), (s.atCycle cycle).accepts m Reg.EVT_PIN_EN v = true) ∧
    (∃ (m : Fin 8) (v : Word) (s : State), s.accepts m Reg.EVT_PIN_STAT v = true) ∧
    (∃ (m : Fin 8) (word : Fin 33) (v : Word) (s : State), word.val ≠ 0 ∧ s.accepts m (Reg.EVT_LOL_CHATTER + 4 * (word.val - 1)) v = true) ∧
    (∃ (pin : Fin 8) (cycle : Nat) (s : State), (s.atCycle cycle).closeIfPast.pinDue pin = true) :=
  ⟨⟨3, true, 50, w [], by decide +kernel⟩,
    ⟨7, { w [] with evt := { pins := [(7, { on := true, since := some 0 })] }, tck := { now := 0x1FFFFFFFF } }, by decide +kernel⟩,
    ⟨1031, { w [] with evt := { lols := [(1023, { on := true, since := some 0 })] }, tck := { now := 0x1FFFFFFFF } }, by decide +kernel⟩,
    ⟨0, 0xFFFFFFFF, 9, w [], by decide +kernel⟩,
    ⟨0, 0x0000FF00, w [(Reg.EVT_PIN_STAT, 0xFFFFFFFF)], by decide +kernel⟩,
    ⟨0, 32, 0x0F0F0F0F, w [(Reg.EVT_LOL_CHATTER + 4 * 31, 0xFFFF0000)], by decide +kernel⟩,
    ⟨2, 3000, { w [(Reg.EVT_PIN_EN, 255)] with evt := { pins := [(2, { level := true, wait := some (0, 1000) })] } }, by decide +kernel⟩⟩

theorem witness_ProtectionCommandsComplete :
    (∃ (m : Fin 8) (s : State), s.accepts m Reg.PRT_CTRL 1 = true) ∧
    (∃ (s : State), s.bit Reg.PRT_STAT 1 = true) ∧
    (∃ (m : Fin 8) (v : Word) (s : State), s.accepts m Reg.PRT_SUB_DATA v = true ∧ s.prtShadowBusy = false) ∧
    (∃ (m : Fin 8) (s : State), s.acceptsRead m Reg.PRT_SUBA_DATA = true) ∧
    (∃ (m : Fin 8) (c : Fin 256) (cycle : Nat) (s : State), (s.atCycle cycle).accepts m Reg.PRT_CMD (BitVec.ofNat 32 (65536 * c.val + 1)) = true ∧ s.prtCmdRes c 1 = 0) ∧
    (∃ (m : Fin 8) (c : Fin 256) (cycle : Nat) (s : State), (s.atCycle cycle).accepts m Reg.PRT_CMD (BitVec.ofNat 32 (65536 * c.val + 2)) = true ∧ s.prtCmdRes c 2 = 0) ∧
    (∃ (c : Fin 256) (s : State), (s.caseRun c).state = 4 ∧ (s.caseRun c).wtrEnd.toNat ≤ s.now.toNat) :=
  ⟨⟨0, w [], by decide +kernel⟩,
    ⟨w [(Reg.PRT_STAT, 2)], by decide +kernel⟩,
    ⟨0, 0x12345678, w [(Reg.PRT_SUB_IDX, 16383)], by decide +kernel⟩,
    ⟨0, { w [(Reg.PRT_SUBA_IDX, 16383)] with prt := { act := { pairs := [(16383, 77)] } } }, by decide +kernel⟩,
    ⟨0, 255, 5, { w [solo] with prt := { runs := [(255, { state := 1 })] } }, by decide +kernel⟩,
    ⟨0, 255, 5, { w [solo] with prt := { runs := [(255, { state := 3 })] } }, by decide +kernel⟩,
    ⟨9, { w [] with prt := { runs := [(9, { state := 4, wtrEnd := 3 })] }, tck := { now := 3 } }, by decide +kernel⟩⟩

theorem witness_ApplyAndSafetyCommandsComplete :
    (∃ (m : Fin 8) (cycle : Nat) (s : State), ∃ u, u = (s.atCycle cycle) ∧ ∃ tr, tr = (if u.applyCutoff ≤ u.ntu.cyc then s.now + 1 else s.now) ∧ ∃ late, late = (decide (u.applyTick.toNat < tr.toNat + 2)) ∧ ∃ b, b = (if late then tr + 2 else u.applyTick) ∧ u.accepts m Reg.RCE_CTRL 1 = true ∧ s.rce.staging = none ∧ s.roleActs = true ∧ s.carousel = false ∧ s.orphaned = false ∧ s.safe = false ∧ (late = false ∨ s.bit Reg.RCE_LATE_POLICY 0 = true) ∧ s.queueTests b = 0) ∧
    (∃ (g : Staging) (s : State), s.rce.staging = some g ∧ s.checkRec g.index = 0) ∧
    (∃ (m : Fin 8) (s : State), s.accepts m Reg.RCE_CTRL 16 = true) ∧
    (∃ (m : Fin 8) (s : State), s.accepts m Reg.RCE_CTRL 4 = true) ∧
    (∃ (m : Fin 8) (cycle : Nat) (s : State), (s.atCycle cycle).accepts m Reg.RCE_CTRL 2 = true) ∧
    (∃ (m : Fin 8) (s : State), s.accepts m Reg.RCE_CTRL 8 = true ∧ s.roleActs = true ∧ s.orphaned = false) :=
  ⟨⟨0, 5, w [solo, (Reg.RCE_APPLY_REC, 7), (Reg.RCE_APPLY_TICK, 9)], _, rfl, _, rfl, _, rfl, _, rfl, by decide +kernel⟩,
    ⟨⟨0, 5, false, false, 5, false⟩, recState, by decide +kernel⟩,
    ⟨0, { w [solo] with rce := { queue := [⟨1, 5, 1, false, []⟩, ⟨9, 5, 1, false, []⟩] } }, by decide +kernel⟩,
    ⟨0, withRec (w []) 0, by decide +kernel⟩,
    ⟨0, 5, w [], by decide +kernel⟩,
    ⟨0, w [solo, (Reg.RCE_STAT, 1)], by decide +kernel⟩⟩

theorem witness_SolverQueueCommandsComplete :
    (∃ (m : Fin 8) (j : Fin 32) (s : State), s.accepts m Reg.RSV_SUBMIT (BitVec.ofNat 32 j.val) = true ∧ s.subTests j = 0) ∧
    (∃ (m : Fin 8) (j : Fin 32) (w : Fin 5) (v : Word) (r : RegRow) (s : State), s.accepts m (jobReg j w) v = true ∧ s.jobBusy j = false ∧ (regRow? (jobReg j w)).map (·.1) = some r) ∧
    (∃ (j : Nat) (s : State), s.solverStops = false ∧ s.rsv.run = none ∧ s.nextJob? = some j) ∧
    (∃ (j : RsvJob) (s : State), s.solverStops = false ∧ s.rsv.run = none ∧ s.rsv.queue.any s.jobUrgent = false ∧ s.rsv.susp = some j) :=
  ⟨⟨0, 3, { w job3 with topo := some topo4 }, by decide +kernel⟩,
    ⟨0, 3, 2, 0x12345678, row (jobReg 3 2), w job3, by decide +kernel⟩,
    ⟨3, { w job3 with topo := some topo4, rsv := { queue := [4, 3] } }.setRegN (jobReg 3 0) 0x100, by decide +kernel⟩,
    ⟨runJob, { w job3 with rsv := { susp := some runJob, queue := [7] } }, by decide +kernel⟩⟩

theorem witness_SolverJobEndsComplete :
    (∃ (n cycle : Nat) (j : RsvJob) (e : Nat × List (Nat × Nat)) (s : State), s.solverStops = false ∧ s.rsv.run = some j ∧ j.early = some e ∧ j.slot < 32 ∧ e.1 < 16 ∧ (s.jobRecs j.slot).any s.recInUse = false) ∧
    (∃ (n cycle : Nat) (j : RsvJob) (topo : Topo) (s : State), s.solverStops = false ∧ s.rsv.run = some j ∧ j.early = none ∧ j.topo = some topo ∧ j.slot < 32 ∧ (j.pass = true ∨ s.searchBounded j = false ∨ n ≤ s.rsvBudget) ∧ (s.jobRecs j.slot).any s.recInUse = false) ∧
    (∃ (n cycle : Nat) (j : RsvJob) (topo : Topo) (x : Sparse Nat) (s : State), s.solverStops = false ∧ s.rsv.run = some j ∧ j.early = none ∧ j.topo = some topo ∧ (j.pass = true ∨ s.searchBounded j = false ∨ n ≤ s.rsvBudget) ∧ (s.jobRecs j.slot).any s.recInUse = false ∧ (j.result topo (s.jobKind j.slot) (s.jobMode j.slot) s.rsvBudget).2.2 = some x) ∧
    (∃ (n cycle : Nat) (j : RsvJob) (topo : Topo) (x : Sparse Nat) (s : State), s.solverStops = false ∧ s.rsv.run = some j ∧ j.early = none ∧ j.topo = some topo ∧ (j.pass = true ∨ s.searchBounded j = false ∨ n ≤ s.rsvBudget) ∧ (s.jobRecs j.slot).any s.recInUse = false ∧ (j.result topo (s.jobKind j.slot) (s.jobMode j.slot) s.rsvBudget).2.2 = some x) ∧
    (∃ (n cycle : Nat) (j : RsvJob) (topo : Topo) (s : State), s.solverStops = false ∧ s.rsv.run = some j ∧ j.topo = some topo ∧ j.pass = false ∧ s.searchBounded j = true ∧ s.rsvBudget ≤ n ∧ j.slot < 32 ∧ (s.jobRecs j.slot).any s.recInUse = false) ∧
    (∃ (m : Fin 8) (j : Fin 32) (n : Nat) (s : State), s.accepts m Reg.RSV_CTRL (BitVec.ofNat 32 (1 + 256 * j.val)) = true ∧ s.jobBusy j = true ∧ s.startedJobs.any (·.pass) = false) ∧
    (∃ (m : Fin 8) (n : Nat) (s : State), s.accepts m Reg.RSV_CTRL 2 = true ∧ s.startedJobs.any (·.pass) = false) :=
  ⟨⟨900, 7, runJob, (0, []), { w job3 with topo := some topo4, rsv := { run := some runJob } }, by decide +kernel⟩,
    ⟨900, 7, keepJob, topo4, keepSlot, by decide +kernel⟩,
    ⟨900, 7, keepJob, topo4, [(0, 1), (3, 1), (4, 1)], keepSlot, by decide +kernel⟩,
    ⟨900, 7, keepJob, topo4, [(0, 1), (3, 1), (4, 1)], keepSlot, by decide +kernel⟩,
    ⟨20000000, 7, { keepJob with absent := 1 }, topo4, { keepSlot with rsv := { run := some { keepJob with absent := 1 } } }, by decide +kernel⟩,
    ⟨0, 3, 50, { w (job3 ++ [(jobReg 3 5, 2 ^ 31)]) with rsv := { run := some runJob, queue := [4] } }, by decide +kernel⟩,
    ⟨0, 50, { w (job3 ++ [(jobReg 3 5, 2 ^ 31), (jobReg 4 5, 2 ^ 30)]) with rsv := { run := some runJob, queue := [4] } }, by decide +kernel⟩⟩

theorem witness_LoadCommandsComplete :
    (∃ (m : Fin 8) (s : State), s.accepts m Reg.FAB_CTRL 1 = true ∧ s.rce.descBusy = false ∧ s.rce.imgBusy = false) ∧
    (∃ (data : List Byte) (busAt : Option Nat) (s : State), s.rce.descBusy = true) ∧
    (∃ (m : Fin 8) (s : State), s.accepts m Reg.FAB_CTRL 2 = true ∧ s.roleActs = true ∧ s.rce.descBusy = false ∧ s.rce.imgBusy = false) ∧
    (∃ (data : List Byte) (s : State), s.rce.imgBusy = true ∧ ∃ src, src = (s.loadSource Reg.FAB_IMG_SRC (imgTotal (s.reg Reg.FAB_IMG_LEN).toNat) data none) ∧ src.2.2 = none ∧ imgHeader src.2.1 (s.reg Reg.FAB_IMG_LEN).toNat = 0) ∧
    (∃ (m : Fin 8) (data : List Byte) (got : Nat) (s : State), s.accepts m Reg.FAB_CTRL 4 = true ∧ s.rce.imgBusy = true ∧ got < 64 ∧ s.bit (Reg.FAB_IMG_SRC + 4) 31 = false) ∧
    (∃ (m : Fin 8) (data : List Byte) (got : Nat) (s : State), s.accepts m Reg.FAB_CTRL 4 = true ∧ s.rce.imgBusy = true ∧ got < 64 ∧ s.bit (Reg.FAB_IMG_SRC + 4) 31 = true) :=
  ⟨⟨0, w [], by decide +kernel⟩,
    ⟨[1, 2, 3], none, { w [] with rce := { descBusy := true } }, by decide +kernel⟩,
    ⟨0, w [solo], by decide +kernel⟩,
    ⟨image, { w [(Reg.FAB_IMG_LEN, 128)] with rce := { imgBusy := true } }, by decide +kernel, _, rfl, by decide +kernel⟩,
    ⟨0, [], 63, { w [(Reg.FAB_IMG_LEN, 128), (Reg.FAB_IMG_SRC, 5),(Reg.FAB_IMG_SRC + 4, 5)] with rce := { imgBusy := true } }, by decide +kernel⟩,
    ⟨0, [], 63, { w [(Reg.FAB_IMG_LEN, 128), (Reg.FAB_IMG_SRC, 0x10000000),(Reg.FAB_IMG_SRC + 4, 0x80000000)] with rce := { imgBusy := true } }, by decide +kernel⟩⟩

theorem witness_CommitCommandsComplete :
    (∃ (m : Fin 8) (cycle : Nat) (s : State), (s.atCycle cycle).accepts m (cReg pTCK OFF_COMMIT) 1 = true ∧ s.pendingOn pTCK = false ∧ s.orphaned = false ∧ s.pageTests pTCK (s.commitTick pTCK) true false = 0) ∧
    (∃ (m : Fin 8) (cycle : Nat) (s : State), (s.atCycle cycle).accepts m (cReg pLPL OFF_COMMIT) 1 = true ∧ s.pendingOn pLPL = false ∧ s.orphaned = false ∧ s.pageTests pLPL (s.commitTick pLPL) true false = 0) ∧
    (∃ (m : Fin 8) (cycle : Nat) (s : State), (s.atCycle cycle).accepts m (cReg pPRT OFF_COMMIT) 1 = true ∧ s.pendingOn pPRT = false ∧ s.orphaned = false ∧ s.pageTests pPRT (s.commitTick pPRT) true false = 0) ∧
    (∃ (m : Fin 8) (cycle : Nat) (s : State), (s.atCycle cycle).accepts m (cReg pCAL OFF_COMMIT) 1 = true ∧ s.pendingOn pCAL = false ∧ s.orphaned = false ∧ s.pageTests pCAL (s.commitTick pCAL) true false = 0) ∧
    (∃ (m : Fin 8) (page : BitVec 14) (cycle : Nat) (c : PendCommit) (s : State), (s.atCycle cycle).accepts m (cReg page.toNat OFF_COMMIT) 2 = true ∧ commitPages.contains page.toNat = true ∧ s.commitOf? page.toNat = some c ∧ (c.collected = true ∨ s.now.toNat + 2 < c.b.toNat)) :=
  ⟨⟨0, 5, w [solo, ct pTCK 9], by decide +kernel⟩,
    ⟨0, 5, w [solo, ct pLPL 9, (Reg.LPL_STAT, 1024)], by decide +kernel⟩,
    ⟨0, 5, w [solo, ct pPRT 9, (Reg.PRT_STAT, 1)], by decide +kernel⟩,
    ⟨0, 5, w [solo, ct pCAL 9, (Reg.CAL_STAT, 8)], by decide +kernel⟩,
    ⟨0, 0x4, 5, ⟨4, 1, 1, true, false⟩, { w [solo] with commits := [⟨4, 1, 1, true, false⟩] }, by decide +kernel⟩⟩

theorem witness_LoopAndBankCommandsComplete :
    (∃ (op : Fin 10) (m : Fin 8) (arg : BitVec 16) (cycle : Nat) (s : State), ∃ u, u = (s.atCycle cycle) ∧ u.accepts m Reg.PRF_LCMD_OP (BitVec.ofNat 32 (op + arg.toNat * 65536)) = true ∧ u.accepts m Reg.PRF_CTRL (BitVec.ofNat 32 (2 * b2n (s.bit Reg.PRF_CTRL 1) + 4)) = true ∧ u.accepts m (cReg pPRF OFF_COMMIT) 1 = true ∧ s.pendingOn pPRF = false ∧ s.orphaned = false ∧ s.roleActs = true ∧ s.now.toNat + 2 ≤ (s.commitTick pPRF).toNat ∧ s.fld Reg.PRF_LCMD_RANGE 0 14 + s.fld Reg.PRF_LCMD_RANGE 16 15 ≤ 12288 ∧ (op.val = 1 → arg.toNat ≤ 3) ∧ (op.val = 4 ∨ op.val = 5 → arg.toNat ≤ 1023)) ∧
    (∃ (m : Fin 8) (cycle : Nat) (s : State), ∃ u, u = (s.atCycle cycle) ∧ u.accepts m Reg.PRF_CTRL (BitVec.ofNat 32 (1 + 2 * b2n (s.bit Reg.PRF_CTRL 1))) = true ∧ u.accepts m (cReg pPRF OFF_COMMIT) 1 = true ∧ s.pendingOn pPRF = false ∧ s.orphaned = false ∧ s.roleActs = true ∧ s.now.toNat + 2 ≤ (s.commitTick pPRF).toNat ∧ s.bit Reg.PRF_STAT 1 = false) :=
  ⟨⟨0, 0, 3, 5, w [solo, ct pPRF 9], _, rfl, by decide +kernel⟩,
    ⟨0, 5, w [solo, ct pPRF 9], _, rfl, by decide +kernel⟩⟩

theorem witness_CarouselOperationsComplete :
    (∃ (m : Fin 8) (cycle : Nat) (s : State), CrsAccepted 1 m cycle s ∧ s.carousel = false ∧ s.bit Reg.CRS_STAT 3 = true) ∧
    (∃ (m : Fin 8) (cycle : Nat) (s : State), CrsAccepted 2 m cycle s ∧ s.carousel = true ∧ s.bit Reg.CRS_STAT 3 = true) ∧
    (∃ (m : Fin 8) (cycle : Nat) (s : State), CrsAccepted 3 m cycle s ∧ s.carousel = true) :=
  ⟨⟨0, 5, { w [solo, ct pCRS 9, (Reg.CRS_STAT, 8), (Reg.CRS_BASE_TIME, 5000)] with crs := { shd := { count := 2, words := [(0, 3), (1, 4)] } } }, by (try unfold CrsAccepted); decide +kernel⟩,
    ⟨0, 5, { w [solo, ct pCRS 9, (Reg.CRS_STAT, 9)] with crs := { act := { count := 2, words := [(0, 3), (1, 4)] } } }, by (try unfold CrsAccepted); decide +kernel⟩,
    ⟨0, 5, { w [solo, ct pCRS 9, (Reg.CRS_STAT, 1)] with crs := { act := { count := 2, words := [(0, 3), (1, 4)] } } }, by (try unfold CrsAccepted); decide +kernel⟩⟩

theorem witness_TakeoverCommandsComplete :
    (∃ (m : Fin 8) (s : State), s.accepts m Reg.GLB_TAKEOVER 1 = true ∧ s.orphaned = true ∧ s.rst.goAt = none ∧ s.rst.adopt = false) ∧
    (∃ (m : Fin 8) (s : State), ∃ k, k = (reqTick s.now 32 (s.reg Reg.GLB_TAKEOVER_TICK).toNat) ∧ s.accepts m Reg.GLB_TAKEOVER 2 = true ∧ s.goTests k = (0, 0)) ∧
    (∃ (m : Fin 8) (s : State), s.accepts m Reg.GLB_TAKEOVER 3 = true ∧ s.orphaned = true) ∧
    (∃ (m : Fin 8) (s : State), s.accepts m Reg.GLB_TAKEOVER 4 = true ∧ s.takeoverOpen = true) :=
  ⟨⟨0, w [solo, (Reg.GLB_RESET_CAUSE, 0x22)], by decide +kernel⟩,
    ⟨0, { w (orph ++ [(Reg.GLB_TAKEOVER_TICK, 50)]) with rst := { written := [Reg.TCK_PERIOD, Reg.TCK_PHASE, Reg.TCK_SLEW, Reg.LPL_GUARANTEE] } }, _, rfl, by decide +kernel⟩,
    ⟨0, w orph, by decide +kernel⟩,
    ⟨0, w orph, by decide +kernel⟩⟩

theorem witness_RestartCommandsComplete :
    (∃ (ns : Nat) (straps : Fin 16) (pll clear : Bool) (s : State), 1000 ≤ ns ∧ s.pwr.seqCause = none ∧ s.off = false) ∧
    (∃ (m : Fin 8) (straps : Fin 16) (pll clear : Bool) (s : State), m.val ≤ 2 ∧ s.accepts m Reg.GLB_RESET 0x5A5A0001 = true) ∧
    (∃ (m : Fin 8) (clear : Bool) (s : State), m.val ≤ 2 ∧ s.accepts m Reg.GLB_RESET 0x5A5A0002 = true) ∧
    (∃ (straps : Fin 16) (pll clear cool : Bool) (s : State), s.off = true ∧ s.pwr.seqCause = some 1 ∧ (s.aValid = true ∨ s.bValid = true) ∧ (s.pwr.trip = true → cool = true)) ∧
    (∃ (straps : Fin 16) (pll clear : Bool) (s : State), s.off = true ∧ s.pwr.seqCause = some 2 ∧ (s.aValid = true ∨ s.bValid = true)) :=
  ⟨⟨1000, 3, true, true, w [], by decide +kernel⟩,
    ⟨0, 3, true, true, w [], by decide +kernel⟩,
    ⟨0, true, w [], by decide +kernel⟩,
    ⟨3, true, true, true, { w [(Reg.PWR_STATE, 0x18)] with off := true, pwr := { seqCause := some 1, trip := true } }, by decide +kernel⟩,
    ⟨3, true, true, { w [(Reg.PWR_STATE, 0x18)] with off := true, pwr := { seqCause := some 2, trip := true } }, by decide +kernel⟩⟩

theorem witness_ManagementAndSoftResetsComplete :
    (∃ (m : Fin 8) (cycle : Nat) (s : State), m.val ≤ 2 ∧ (s.atCycle cycle).accepts m Reg.GLB_RESET 0x5A5A0003 = true) ∧
    (∃ (s : State), s.mstate = 1 ∧ s.pwr.seqCause ≠ some 1 ∧ s.bus.held = [] ∧ s.net.waits = []) ∧
    (∃ (s : State), s.silent = false ∧ s.bus.perst = false) ∧
    (∃ (s : State), s.silent = false ∧ s.bus.perst = false) ∧
    (∃ (s : State), s.silent = false ∧ s.bus.perst = false) ∧
    (∃ (m : Fin 8) (page : BitVec 14) (v : Word) (s : State), s.accepts m (cReg page.toNat OFF_PAGE_CTRL) (v ||| 2) = true ∧ srstPage page.toNat = true ∧ s.rst.srst.contains page.toNat = false) ∧
    (∃ (page : BitVec 14) (s : State), s.rst.srst.contains page.toNat = true ∧ s.bus.held = [] ∧ s.net.waits = []) :=
  ⟨⟨0, 6, w [solo], by decide +kernel⟩,
    ⟨w [(Reg.GLB_RESET_CAUSE, 0x12)], by decide +kernel⟩,
    ⟨w [], by decide +kernel⟩,
    ⟨w [], by decide +kernel⟩,
    ⟨w [], by decide +kernel⟩,
    ⟨0, 0x54, 0x0, w [(cReg 0x54 OFF_FAULT_CNT, 5)], by decide +kernel⟩,
    ⟨0x41, { w [] with rst := { srst := [0x41, 0x53] } }, by decide +kernel⟩⟩

theorem witness_ClockCommandsComplete :
    (∃ (cycle : Nat) (s : State), s.bit Reg.CLK_STAT 0 = true) ∧
    (∃ (us cycle : Nat) (s : State), s.bit Reg.CLK_STAT 0 = false ∧ s.bus.held = [] ∧ s.net.waits = []) ∧
    (∃ (s : State), s.bit Reg.CLK_STAT 0 = false) ∧
    (∃ (s : State), s.bit Reg.CLK_STAT 1 = true) :=
  ⟨⟨5, w [run, (Reg.CLK_CNT, 0xFFFF)], by decide +kernel⟩,
    ⟨77, 5, w [(Reg.CLK_STAT, 6)], by decide +kernel⟩,
    ⟨w [(Reg.CLK_STAT, 6)], by decide +kernel⟩,
    ⟨w [], by decide +kernel⟩⟩

theorem witness_BusAccessCommandsComplete :
    (∃ (m : Fin 8) (addr v : Word) (cycle : Nat) (r : RegRow) (s : State), addr.toNat ∈ plainRegs ∧ (s.atCycle cycle).accepts m addr.toNat v = true ∧ (regRow? addr.toNat).map (·.1) = some r) ∧
    (∃ (m : Fin 8) (addr : Word) (cycle : Nat) (s : State), (s.atCycle cycle).acceptsRead m addr.toNat = true ∧ addr.toNat ∉ advancingRegs) ∧
    (∃ (m : Fin 8) (cycle : Nat) (s : State), (s.atCycle cycle).acceptsRead m Reg.PRT_SUB_DATA = true) ∧
    (∃ (m : Fin 8) (write : Bool) (addr : Word) (s : State), masterReaches m addr.toNat 1 = true ∧ s.target addr.toNat = 7 ∧ s.silent = false) ∧
    (∃ (m : Fin 8) (page : BitVec 14) (v : Word) (r : RegRow) (s : State), s.accepts m (cReg page.toNat OFF_INT_STAT) v = true ∧ (regRow? (cReg page.toNat OFF_INT_STAT)).map (·.1) = some r) ∧
    (∃ (m : Fin 8) (page : BitVec 14) (v : Word) (s : State), s.accepts m (cReg page.toNat OFF_INT_FORCE) v = true) ∧
    (∃ (m : Fin 8) (remap : Bool) (s : State), s.accepts m Reg.GLB_REMAP (BitVec.ofNat 32 (b2n remap)) = true ∧ (s.bit Reg.GLB_REMAP 0 = false ∨ remap = true)) ∧
    (∃ (m : Fin 8) (addr : Word) (data : List Byte) (s : State), ∃ b, b = (addr.toNat + data.length) ∧ ∃ p, p = (s.logPage b) ∧ (s.target addr.toNat ≠ 0 ∧ s.target addr.toNat ≠ 7 ∨ data.length % 4 = 0 ∧ addr.toNat % 4 = 0) ∧ masterReaches m addr.toNat data.length = true) :=
  ⟨⟨0, BitVec.ofNat 32 Reg.THM_WARN, 0x12345678, 5, row Reg.THM_WARN, w [], by decide +kernel⟩,
    ⟨3, BitVec.ofNat 32 Reg.NTU_PTP_CFG, 5, w [], by decide +kernel⟩,
    ⟨0, 5, w [(Reg.PRT_SUB_IDX, 16383)], by decide +kernel⟩,
    ⟨0, true, 0x17000000, w [], by decide +kernel⟩,
    ⟨0, 0x41, 0xFF, row (cReg 0x41 OFF_INT_STAT), w [(cReg 0x41 OFF_INT_STAT, 0x1F)], by decide +kernel⟩,
    ⟨0, 6, 0xFFFFFFFF, w [], by decide +kernel⟩,
    ⟨0, true, w [], by decide +kernel⟩,
    ⟨0, 0x04000000, [1,2,3,4,5,6,7,8], w [], _, rfl, _, rfl, by decide +kernel⟩⟩

theorem witness_MemoryWriteCommandsComplete :
    (∃ (m : Fin 8) (off : Fin 33554432) (data : List Byte) (s : State), data ≠ [] ∧ off + data.length ≤ 33554432 ∧ s.memHeld = false ∧ (∀ i, i < data.length → s.storeRefused m ((off + i) / 0x1000) = false)) ∧
    (∃ (m : Fin 8) (i : Fin 1048576) (data : List Byte) (s : State), data.length = 8 ∧ s.memHeld = false ∧ s.ctxMayWrite m = true) ∧
    (∃ (m : Fin 8) (off : Fin 65536) (data : List Byte) (s : State), data ≠ [] ∧ 32768 ≤ off.val ∧ off + data.length ≤ 65536 ∧ s.memHeld = false ∧ (s.pendingOn pPRF && s.bit Reg.PRF_CTRL 0) = false ∧ s.bit Reg.PRF_STAT 1 = false) ∧
    (∃ (m : Fin 8) (off : Fin 2490368) (data : List Byte) (s : State), data ≠ [] ∧ 0x40000 ≤ off.val ∧ off + data.length ≤ 0x80000 ∧ s.memHeld = false ∧ s.bit Reg.LPL_STAT 9 = false) ∧
    (∃ (m : Fin 8) (l : Fin 12288) (data : List Byte) (s : State), data.length = 4 ∧ s.memHeld = false ∧ m.val = 3 ∧ s.mirrorWrites = true) ∧
    (∃ (m : Fin 8) (off : Fin 33554432) (data : List Byte) (s : State), data ≠ [] ∧ off % 8 + data.length ≤ 8 ∧ off + data.length ≤ 0x1E03000 ∧ s.memHeld = false ∧ s.mramOpen m (0x14000000 + off) = true) ∧
    (∃ (m : Fin 8) (slot : Fin 2) (data : List Byte) (s : State), data.length = 32 ∧ m.val < 2 ∧ s.memHeld = false ∧ s.roleActs = true ∧ s.bit Reg.NVM_STAT 1 = false) :=
  ⟨⟨0, 33554430, [1, 2], w [], by decide +kernel⟩,
    ⟨0, 1048575, [1, 2, 3, 4, 5, 6, 7, 8], w [solo], by decide +kernel⟩,
    ⟨0, 32768, [1, 2, 3], w [], by decide +kernel⟩,
    ⟨0, 0x40000, [1, 2], w [(Reg.LPL_STAT, 1024)], by decide +kernel⟩,
    ⟨3, 12287, [1, 2, 3, 4], w [(Reg.RED_ROLE, 0x102), (Reg.RED_TRAP, 0x300)], by decide +kernel⟩,
    ⟨0, 0x1E02FFF, [7], w [solo], by decide +kernel⟩,
    ⟨0, 1, List.replicate 32 7, w [solo], by decide +kernel⟩⟩

theorem witness_HostInterfaceCommandsComplete :
    (∃ (v : Nat) (l : List Nat) (s : State), s.bus.intRise = v :: l ∧ s.bit Reg.HIF_STAT 9 = true) ∧
    (∃ (m : Fin 8) (vec : Fin 64) (s : State), ∃ a, a = (Reg.HIF_MSIX + 16 * vec.val + 12) ∧ s.accepts m a (s.reg a &&& ~~~ (1 : Word)) = true) ∧
    (∃ (speed width : Fin 5) (en mask : Bool) (s : State), speed.val ≠ 0 ∧ (width.val = 1 ∨ width.val = 2 ∨ width.val = 4) ∧ s.silent = false ∧ s.bus.perst = false) ∧
    (∃ (s : State), s.alertHeld = false) ∧
    (∃ (v : Word) (pec : Fin 3) (s : State), s.silent = false ∧ pec.val ≠ 2) ∧
    (∃ (v : Word) (pec : Fin 3) (s : State), s.silent = false ∧ pec.val = 1 ∧ s.bus.smbAddr = BitVec.ofNat 32 Reg.THM_WARN ∧ s.accepts 7 Reg.THM_WARN v = true) ∧
    (∃ (s : State), s.acceptsRead 7 s.bus.smbAddr.toNat = true ∧ s.bus.smbAddr.toNat ∉ advancingRegs) :=
  ⟨⟨5, [6, 7], { w [(Reg.HIF_STAT, 512)] with bus := { intRise := [5, 6, 7] } }, by decide +kernel⟩,
    ⟨0, 63, w [(Reg.HIF_STAT, 512), (Reg.HIF_PBA + 4, 2 ^ 31)], _, rfl, by decide +kernel⟩,
    ⟨4, 4, true, false, w [], by decide +kernel⟩,
    ⟨w [], by decide +kernel⟩,
    ⟨0x12345679, 0, w [], by decide +kernel⟩,
    ⟨0x12345679, 1, { w [] with bus := { smbAddr := BitVec.ofNat 32 Reg.THM_WARN } }, by decide +kernel⟩,
    ⟨{ w [] with bus := { smbAddr := BitVec.ofNat 32 Reg.THM_WARN } }, by decide +kernel⟩⟩

theorem witness_JtagCommandsComplete :
    (∃ (s : State), s.off = false) ∧
    (∃ (s : State), s.off = false) ∧
    (∃ (s : State), s.off = false) ∧
    (∃ (s : State), s.off = false) ∧
    (∃ (s : State), s.off = false) ∧
    (∃ (s : State), s.off = false) ∧
    (∃ (s : State), s.off = false) ∧
    (∃ (s : State), s.off = false) ∧
    (∃ (addr data : Word) (s : State), s.acceptsRead 1 addr.toNat = true ∧ addr.toNat ∉ advancingRegs) ∧
    (∃ (s : State), s.off = false) :=
  ⟨⟨w [], by decide +kernel⟩,
    ⟨w [], by decide +kernel⟩,
    ⟨w [], by decide +kernel⟩,
    ⟨w [], by decide +kernel⟩,
    ⟨w [], by decide +kernel⟩,
    ⟨w [], by decide +kernel⟩,
    ⟨w [], by decide +kernel⟩,
    ⟨w [], by decide +kernel⟩,
    ⟨BitVec.ofNat 32 Reg.THM_WARN, 5, w [], by decide +kernel⟩,
    ⟨w [], by decide +kernel⟩⟩

theorem witness_PowerAndFlushCommandsComplete :
    (∃ (b : Bool) (mv : BitVec 16) (cycle : Nat) (s : State), (mv.toNat < 4300 ∨ 19000 < mv.toNat)) ∧
    (∃ (b : Bool) (mv : BitVec 16) (cycle : Nat) (s : State), 4500 ≤ mv.toNat ∧ mv.toNat ≤ 18500) ∧
    (∃ (cycle : Nat) (s : State), s.bit Reg.PWR_STATE 7 = true ∧ (s.atCycle cycle).agedNs s.pwr.aFrom s.returnDelay = true) ∧
    (∃ (m : Fin 8) (testB : Bool) (s : State), s.accepts m Reg.PWR_CTRL (BitVec.ofNat 32 (b2n testB)) = true) ∧
    (∃ (m : Fin 8) (en force : Bool) (s : State), s.accepts m Reg.FLT_CTRL (BitVec.ofNat 32 (b2n en + 2 + 4 * b2n force)) = true ∧ s.flt.flush = none) ∧
    (∃ (x : Nat) (s : State), s.flt.flush = some x ∧ s.flt.flushQ = [] ∧ s.pwr.seqCause = none) :=
  ⟨⟨false, 4299, 5, w [(Reg.PWR_STATE, 0x19)], by decide +kernel⟩,
    ⟨false, 4500, 5, w [], by decide +kernel⟩,
    ⟨5, { w [(Reg.PWR_STATE, 0x9A)] with ntu := { frc := 65536 * 20000000000 } }, by decide +kernel⟩,
    ⟨0, true, w [(Reg.PWR_STATE, 0x19)], by decide +kernel⟩,
    ⟨0, true, false, w [], by decide +kernel⟩,
    ⟨0x10000 + 5, { w [] with flt := { flush := some 0x10005 } }, by decide +kernel⟩⟩

theorem witness_ThermalCommandsComplete :
    (∃ (l : List (BitVec 16)) (s : State), l.length = 16 ∧ s.off = false ∧ s.flt.inReset = false) ∧
    (∃ (i : Fin 16) (s : State), s.isDue pTHM i = true) ∧
    (∃ (m : Fin 8) (mask : BitVec 16) (s : State), s.accepts m Reg.THM_SENS_RESTORE (mask.setWidth 32) = true) ∧
    (∃ (m : Fin 8) (floor : Fin 4) (s : State), s.accepts m Reg.THM_CTRL (BitVec.ofNat 32 (16 + floor.val)) = true ∧ s.bit Reg.THM_LEVEL 6 = true) ∧
    (∃ (m : Fin 8) (floor : Fin 4) (s : State), s.accepts m Reg.THM_CTRL (BitVec.ofNat 32 floor.val) = true) ∧
    (∃ (m : Fin 8) (v : Word) (s : State), s.accepts m Reg.THM_SHUT v = true ∧ fld v 0 8 ≤ s.fld Reg.THM_SHUT 0 8) ∧
    (∃ (analog : Fin 4) (s : State), s.off = false ∧ s.pwr.trip = false ∧ (analog.val = 0 → s.bit Reg.THM_STAT 2 = true)) :=
  ⟨⟨[0, 1, 2, 3, 0xFFFF, 5, 6, 7, 8, 9, 10, 11, 12, 13, 14, 0x8000], w [], by decide +kernel⟩,
    ⟨15, { w [] with flt := { due := [chan pTHM 15] } }, by decide +kernel⟩,
    ⟨0, 0x8001, { w [] with thm := { sensors := [(0, { retired := true }), (3, { retired := true })] } }, by decide +kernel⟩,
    ⟨0, 2, w [(Reg.THM_LEVEL, 0x40)], by decide +kernel⟩,
    ⟨0, 2, w [], by decide +kernel⟩,
    ⟨0, 100, w [], by decide +kernel⟩,
    ⟨3, w [], by decide +kernel⟩⟩

theorem witness_FaultHubCommandsComplete :
    (∃ (s : State), s.tck.hbAlive = true ∧ s.running = false) ∧
    (∃ (page : Fin 192) (s : State), s.implemented page = true) ∧
    (∃ (page : Fin 192) (s : State), s.implemented page = true) ∧
    (∃ (page : Fin 192) (s : State), s.implemented page = true ∧ s.flt.badLink.contains page.val = false) ∧
    (∃ (page : Fin 192) (s : State), s.implemented page = true) :=
  ⟨⟨{ w [] with tck := { hbAlive := true }, flt := { hbStop := true } }, by decide +kernel⟩,
    ⟨0x41, w [], by decide +kernel⟩,
    ⟨0x41, { w [] with flt := { stuckLink := [0x41, 3] } }, by decide +kernel⟩,
    ⟨0x41, w [], by decide +kernel⟩,
    ⟨0x41, { w [] with flt := { badLink := [0x41, 3] } }, by decide +kernel⟩⟩

theorem witness_FrameCommandsComplete :
    (∃ (port : Fin 66) (ago : Nat) (data : List Byte) (rivals : List (Fin 71)) (cycle d : Nat) (s : State), (s.atCycle cycle).forwards port data d ∧ s.wins port (rivals.map (·.val)) = true ∧ ptpAt? (s.rxOf port data).rest = none) ∧
    (∃ (port : Fin 66) (env : PtpEnv) (ago : Nat) (msg : List Byte) (cycle d : Nat) (p : PtpAt) (s : State), ∃ data, data = (env.frame msg) ∧ ∃ x, x = (s.rxOf port data) ∧ (s.atCycle cycle).forwards port data d ∧ ptpAt? x.rest = some p ∧ ptpType x.rest p = 0 ∧ s.ptpToNode x p = false ∧ s.bit Reg.NTU_SYNC_WD 16 = false ∧ s.bit Reg.NTU_PTP_CFG 8 = false) ∧
    (∃ (port : Fin 66) (env : PtpEnv) (ago : Nat) (msg : List Byte) (cycle d : Nat) (p : PtpAt) (s : State), ∃ data, data = (env.frame (ptpTyped 8 msg)) ∧ ∃ x, x = (s.rxOf port data) ∧ (s.atCycle cycle).forwards port data d ∧ ptpAt? x.rest = some p ∧ ptpType x.rest p = 8 ∧ s.ptpToNode x p = false ∧ s.bit Reg.NTU_PTP_CFG 8 = false) ∧
    (∃ (port : Fin 66) (env : PtpEnv) (ago : Nat) (msg : List Byte) (cycle d : Nat) (p : PtpAt) (s : State), ∃ data, data = (env.frame (ptpTyped 9 msg)) ∧ ∃ x, x = (s.rxOf port data) ∧ (s.atCycle cycle).forwards port data d ∧ ptpAt? x.rest = some p ∧ ptpType x.rest p = 9 ∧ s.ptpToNode x p = false ∧ s.bit Reg.NTU_PTP_CFG 8 = false ∧ s.tcMode ≠ 2) ∧
    (∃ (len : BitVec 16) (port prio : Byte) (vid flags : BitVec 16) (data : List Byte) (cycle : Nat) (ch : List Nat) (s : State), let d : TxDesc := ⟨len.toNat, port.toNat, prio.toNat, vid.toNat, flags.toNat, data⟩; s.txReady = true ∧ d.fits = true ∧ d.direct = true ∧ port.toNat ≤ 65 ∧ s.roleActs = true ∧ ((s.atCycle cycle).allocFrame 2 66 d.bytes (d.bytes.length + 4)).1 = some ch ∧ s.buffersFor (d.bytes.length + 4)) ∧
    (∃ (port : Fin 66) (sa : BitVec 48) (quanta : BitVec 16) (cycle : Nat) (s : State), s.bit (atInst Reg.PORT_CTRL port) 0 = true ∧ s.linkUp port = true ∧ s.portRetired port = false ∧ s.bit (atInst Reg.PORT_CTRL port) 4 = true) ∧
    (∃ (port : Fin 66) (s : State), s.bit (atInst Reg.PORT_STAT port) 6 = true ∧ ∃ u, u = (s.comes (s.netPort port).pauseAt (s.pauseGap port)) ∧ s.pauseGap port ≤ u.gone (s.netPort port).pauseAt ∧ s.roleActs = true) ∧
    (∃ (port : Fin 66) (cycle : Nat) (e : BitVec 96) (s : State), (s.netPort port).pauseEnd = some e ∧ e.toNat ≤ (s.atCycle cycle).frcNow.toNat) :=
  ⟨⟨1, 5, frame60, [], 9, 2, net2 [], by (try unfold State.forwards State.received State.bucketOpen State.buffersFor); decide +kernel⟩,
    ⟨1, ptp1, 5, sync1, 9, 2, ⟨2, 0, false⟩, net2 [(Reg.NTU_TC_CFG, 1)], _, rfl, _, rfl, by (try unfold State.forwards State.received State.bucketOpen State.buffersFor); decide +kernel⟩,
    ⟨1, ptp1, 5, sync1, 9, 2, ⟨2, 0, false⟩, net2 [(Reg.NTU_TC_CFG, 2)], _, rfl, _, rfl, by (try unfold State.forwards State.received State.bucketOpen State.buffersFor); decide +kernel⟩,
    ⟨1, ptp1, 5, sync1, 9, 2, ⟨2, 0, false⟩, net2 [(Reg.NTU_TC_CFG, 1)], _, rfl, _, rfl, by (try unfold State.forwards State.received State.bucketOpen State.buffersFor); decide +kernel⟩,
    by
      obtain ⟨ch, h⟩ := Option.isSome_iff_exists.1 (show (((w [solo, (Reg.HPT_CTRL, 2), (ringReg 2 3, 3 * 65536)]).atCycle 9).allocFrame 2 66
        (TxDesc.mk 60 65 7 5 1 frame60).bytes ((TxDesc.mk 60 65 7 5 1 frame60).bytes.length + 4)).1.isSome = true by decide +kernel)
      exact ⟨60, 65, 7, 5, 1, frame60, 9, ch, w [solo, (Reg.HPT_CTRL, 2), (ringReg 2 3, 3 * 65536)], by decide +kernel, by decide +kernel,
        by decide +kernel, by decide +kernel, by decide +kernel, h, by unfold State.buffersFor; decide +kernel⟩,
    ⟨1, 9, 0xFFFF, 5, net2 [(atInst Reg.PORT_CTRL 1, 0x91)], by decide +kernel⟩,
    ⟨65, { w [solo, (atInst Reg.PORT_STAT 65, 64)] with ntu := { frc := 65536 * 1000000 } }, by decide +kernel, _, rfl, by decide +kernel⟩,
    ⟨65, 5, 65536, { w [solo, (atInst Reg.PORT_STAT 65, 128)] with net := { ports := [(65, { pauseEnd := some 65536 })] } }, by decide +kernel⟩⟩

theorem witness_PortCommandsComplete :
    (∃ (port : Fin 66) (an : Bool) (s : State), s.bit (atInst Reg.PORT_CTRL port) 0 = true ∧ s.linkUp port = false) ∧
    (∃ (port : Fin 66) (sync : Bool) (s : State), s.linkUp port = true) ∧
    (∃ (port : Fin 66) (s : State), s.isDue (pSUP port) 0 = true) ∧
    (∃ (m : Fin 8) (port : Fin 66) (s : State), s.accepts m (atInst Reg.PORT_CTRL port) (s.reg (atInst Reg.PORT_CTRL port) ||| 0x100) = true ∧ s.portRetired port = true) :=
  ⟨⟨65, true, w [(atInst Reg.PORT_CTRL 65, 1)], by decide +kernel⟩,
    ⟨65, true, w [(atInst Reg.PORT_STAT 65, 1)], by decide +kernel⟩,
    ⟨2, { net2 [] with flt := { due := [chan (pSUP 2) 0] }, net := { qs := [(16, { frames := [{ chain := [4], len := 1 }] })], bufs := [(4, { alloc := true, count := 1 })] } }, by decide +kernel⟩,
    ⟨0, 2, net2 [(atInst Reg.PORT_CTRL 2, 0x81), (atInst Reg.PORT_STAT 2, 0x11)], by decide +kernel⟩⟩

theorem witness_ForwardingCommandsComplete :
    (∃ (m : Fin 8) (s : State), s.accepts m Reg.FWD_CMD (BitVec.ofNat 32 (1)) = true ∧ s.net.cmd = none) ∧
    (∃ (m : Fin 8) (s : State), s.accepts m Reg.FWD_CMD (BitVec.ofNat 32 (2)) = true ∧ s.net.cmd = none) ∧
    (∃ (m : Fin 8) (s : State), s.accepts m Reg.FWD_CMD (BitVec.ofNat 32 (3)) = true ∧ s.net.cmd = none) ∧
    (∃ (m : Fin 8) (port : Fin 128) (s : State), s.accepts m Reg.FWD_CMD (BitVec.ofNat 32 (4 + 256 * port.val)) = true ∧ s.net.cmd = none) ∧
    (∃ (m : Fin 8) (vid : Fin 4096) (s : State), s.accepts m Reg.FWD_CMD (BitVec.ofNat 32 (5 + 65536 * vid.val)) = true ∧ s.net.cmd = none) ∧
    (∃ (m : Fin 8) (s : State), s.accepts m Reg.FWD_CMD (BitVec.ofNat 32 (6)) = true ∧ s.net.cmd = none) ∧
    (∃ (k : FwdCmd) (s : State), s.net.cmd = some k) ∧
    (∃ (m : Fin 8) (v : Word) (s : State), s.accepts m Reg.FWD_VLAN_DATA2 v = true) ∧
    (∃ (cycle : Nat) (r : LearnReq) (l : List LearnReq) (s : State), s.net.learn = r :: l) ∧
    (∃ (s : State), s.bit Reg.FWD_CTRL 1 = true) :=
  ⟨⟨0, w [(Reg.FWD_ENT, 5), (Reg.FWD_ENT + 4, 6)], by decide +kernel⟩,
    ⟨0, w [], by decide +kernel⟩,
    ⟨0, w [], by decide +kernel⟩,
    ⟨0, 66, w [], by decide +kernel⟩,
    ⟨0, 4095, w [], by decide +kernel⟩,
    ⟨0, w [], by decide +kernel⟩,
    ⟨⟨1, 0, 0, 0x1234567890ABCDEF1234 * 65536, 0⟩, { w [] with net := { cmd := some ⟨1, 0, 0, 0x1234567890ABCDEF1234 * 65536, 0⟩ } }, by decide +kernel⟩,
    ⟨0, 7, w [(Reg.FWD_VLAN_IDX, 4095), (Reg.FWD_VLAN_DATA, 5), (Reg.FWD_VLAN_DATA + 4, 6)], by decide +kernel⟩,
    ⟨5, ⟨0x020000000009, 5, 7⟩, [⟨1, 2, 3⟩], { w [] with net := { learn := [⟨0x020000000009, 5, 7⟩, ⟨1, 2, 3⟩] } }, by decide +kernel⟩,
    ⟨(w []).setBytes 0x12C00000 [1, 2, 3], by decide +kernel⟩⟩

theorem witness_BufferCommandsComplete :
    (∃ (m : Fin 8) (s : State), s.accepts m Reg.BPM_CMD 0x40000000 = true ∧ s.grants 2 = true) ∧
    (∃ (m : Fin 8) (h : Fin 16384) (s : State), s.accepts m Reg.BPM_CMD (BitVec.ofNat 32 (2 ^ 31 + h.val)) = true ∧ (s.buf h).alloc = true ∧ (s.buf h).owner = 70) ∧
    (∃ (m : Fin 8) (p : Fin 4) (v : Word) (s : State), s.accepts m (Reg.BPM_POOL_CFG0 + 16 * p) v = true ∧ s.poolCfgBad (Reg.BPM_POOL_CFG0 + 16 * p) v = false) ∧
    (∃ (m : Fin 8) (s : State), s.accepts m Reg.HPT_CTRL 4 = true ∧ s.fld Reg.HPT_CTRL 0 2 = 0) :=
  ⟨⟨0, w [], by decide +kernel⟩,
    ⟨0, 16383, { w [(Reg.BPM_POOL_STAT + 8, 1)] with net := { bufs := [(16383, { alloc := true, pool := 2, owner := 70, count := 1 })] } }, by decide +kernel⟩,
    ⟨0, 3, 0x20000100, w [], by decide +kernel⟩,
    ⟨0, { w [(ringReg 0 3, 5), (ringReg 1 3, 6)] with net := { fetch := 7, txOpen := [3] } }, by decide +kernel⟩⟩

theorem witness_AlarmAndManagementCommandsComplete :
    (∃ (port : Fin 66) (eth : EthHdr) (ago : Nat) (payload : List Byte) (cycle : Nat) (s : State), ∃ data, data = (padFrame (eth.frame (toBE 2 s.almType ++ payload))) ∧ ∃ p, p = ((s.rxOf port data).rest.drop 2) ∧ (s.rxOf port data).etype = s.almType ∧ s.almType ≠ 0 ∧ (s.atCycle cycle).diverts port data Reg.POL_ADMIT_ALM ∧ leAt p 0 1 = 1 ∧ 46 ≤ p.length ∧ leAt p 0x2A 4 = almCrc p ∧ leAt p 4 2 % 16384 ≠ s.node ∧ (s.atCycle cycle).almExpire.net.seen.any (fun e => e.1 == leAt p 4 2 % 16384 && e.2.1 == leAt p 6 2) = false) ∧
    (∃ (m : Fin 8) (kind : Byte) (code : BitVec 16) (s : State), s.accepts m Reg.ALM_SEND (BitVec.ofNat 32 (kind.toNat * 65536 + code.toNat)) = true ∧ (kind = 3 ∨ kind = 4) ∧ s.bit Reg.ALM_CTRL 1 = true ∧ s.almType ≠ 0 ∧ s.roleActs = true) ∧
    (∃ (m : Fin 8) (w : Fin 2) (v : Word) (s : State), s.accepts m (Reg.ALM_IN_CLEAR + 4 * w) v = true) ∧
    (∃ (port : Fin 66) (sa : BitVec 48) (tag : Option (BitVec 16)) (ago : Nat) (target key : BitVec 16) (nonce : BitVec 64)
      (mac : BitVec 256) (cycle : Nat) (s : State), ∃ data, data = (s.mgtData sa tag (mgtBody 1 0 target.toNat key.toNat nonce.toNat []) mac) ∧ (s.atCycle cycle).diverts port data Reg.POL_ADMIT_MGT ∧ s.mgtTakes port data = true ∧ (s.mgtIn port data).op = 1) ∧
    (∃ (port : Fin 66) (sa : BitVec 48) (tag : Option (BitVec 16)) (ago : Nat) (sess : Byte) (target key : BitVec 16)
      (seq : BitVec 32) (ops : List (Word × Word)) (mac : BitVec 256) (cycle : Nat) (s : State), ∃ data, data = (s.mgtData sa tag (mgtBody 3 sess.toNat target.toNat key.toNat seq.toNat (ops.map fun o => (o.1.toNat, o.2.toNat))) mac) ∧ (s.atCycle cycle).diverts port data Reg.POL_ADMIT_MGT ∧ s.mgtTakes port data = true ∧ (s.mgtIn port data).op = 3 ∧ (s.mgtIn port data).sess = sess.toNat ∧ (s.mgtIn port data).nonce = seq.toNat ∧ (s.mgtIn port data).ops.all (fun o => o.1 % 4 == 0) = true) ∧
    (∃ (port : Fin 66) (sa : BitVec 48) (tag : Option (BitVec 16)) (ago : Nat) (sess : Byte) (target key : BitVec 16)
      (seq : BitVec 32) (mac : BitVec 256) (cycle : Nat) (s : State), ∃ data, data = (s.mgtData sa tag (mgtBody 5 sess.toNat target.toNat key.toNat seq.toNat []) mac) ∧ (s.atCycle cycle).diverts port data Reg.POL_ADMIT_MGT ∧ s.mgtTakes port data = true ∧ (s.mgtIn port data).op = 5 ∧ (s.mgtIn port data).sess = sess.toNat) :=
  ⟨⟨1, ⟨0x01005E000001, 9, none⟩, 5, alarm1, 6, net2 [(Reg.ALM_ETYPE, 0x88B6)], _, rfl, _, rfl, by (try unfold State.diverts State.received State.bucketOpen State.buffersFor); decide +kernel⟩,
    ⟨0, 3, 0x1234, w [solo, (Reg.ALM_CTRL, 2), (Reg.ALM_ETYPE, 0x88B6)], by decide +kernel⟩,
    ⟨0, 1, 0xFF00FF, w [(Reg.ALM_IN_LEVEL + 4, 0xFFFFFFFF)], by decide +kernel⟩,
    ⟨1, 9, none, 5, 0, 0, 99, macOf [] (mgtBody 1 0 0 0 99 []), 7, mgtNet, _, rfl, by (try unfold State.diverts State.received State.bucketOpen State.buffersFor); decide +kernel⟩,
    ⟨1, 9, none, 5, 2, 0, 0, 6, [(BitVec.ofNat 32 Reg.THM_WARN, 0)], macOf (toLE 8 99) (mgtBody 3 2 0 0 6 [(Reg.THM_WARN, 0)]), 7, mgtNet, _, rfl, by (try unfold State.diverts State.received State.bucketOpen State.buffersFor); decide +kernel⟩,
    ⟨1, 9, none, 5, 2, 0, 0, 6, macOf (toLE 8 99) (mgtBody 5 2 0 0 6 []), 7, mgtNet, _, rfl, by (try unfold State.diverts State.received State.bucketOpen State.buffersFor); decide +kernel⟩⟩

theorem witness_SchedulingCommandsComplete :
    (∃ (port : Fin 66) (cycle ahead : Nat) (f : QFrame) (l : List QFrame) (s : State), ∃ u, u = (s.atCycle cycle) ∧ (s.netPort port).gateOn = false ∧ (s.netPort port).gatePend = none ∧ s.strict7 port = true ∧ (s.netQ port 7).frames = f :: l ∧ s.ptpKind f.ptp = 0 ∧ f.desc = none ∧ s.roleActs = true ∧ u.portSends port = true ∧ s.qBlocked port 7 = false ∧ s.qShaped port 7 = false ∧ (s.netPort port).txFree.toNat ≤ u.frcNow.toNat ∧ (s.netPort port).pausePend = none) ∧
    (∃ (m : Fin 8) (cycle n : Nat) (s : State), (s.atCycle cycle).accepts m Reg.GTE_CMD 1 = true ∧ s.gteSel? = some n ∧ s.gateTests n = 0 ∧ ((s.atCycle cycle).nt.toNat + 65535) / 65536 + 2 * s.period ≤ s.reg64 (copyOf n Reg.GTE_ADM_BASE)) ∧
    (∃ (m : Fin 8) (cycle n st : Nat) (s : State), (s.atCycle cycle).accepts m Reg.GTE_CMD 2 = true ∧ s.gteSel? = some n ∧ (s.netPort n).gatePend = some st ∧ (s.atCycle cycle).nt.toNat < 65536 * st) ∧
    (∃ (port : Fin 66) (cycle st : Nat) (s : State), (s.netPort port).gatePend = some st ∧ 65536 * st ≤ (s.atCycle cycle).nt.toNat) ∧
    (∃ (m : Fin 8) (reg : Fin 3) (v : Word) (k : Nat) (r : RegRow) (s : State), s.accepts m (Reg.SCH_Q_CFG + 4 * reg) v = true ∧ s.qSel? Reg.SCH_SEL = some k ∧ (regRow? (Reg.SCH_Q_CFG + 4 * reg)).map (·.1) = some r) ∧
    (∃ (s : State), s.wheelDue = true ∧ (s.net.qs.map (·.1)).Nodup) ∧
    (∃ (m : Fin 8) (v : Word) (s : State), s.accepts m Reg.POL_CFG v = true ∧ s.fld Reg.POL_SEL 8 7 ≤ 66) :=
  ⟨⟨2, 5, 9, { chain := [4], len := 2 }, [], { net2 [(copyOf 2 Reg.SCH_PORT_CFG, 256)] with net := { vlans := [], qs := [(23, { frames := [{ chain := [4], len := 2 }] })], bufs := [(4, { alloc := true, count := 1, data := [1, 2] })] } }, _, rfl, by decide +kernel⟩,
    ⟨0, 5, 2, w [(Reg.GTE_SEL, 2), (copyOf 2 Reg.GTE_ADM_CYCLE, 10000), (copyOf 2 Reg.GTE_ADM_LEN, 1), (copyOf 2 Reg.GTE_ADM_ENTRY, 0xF0000999), (copyOf 2 Reg.GTE_ADM_BASE, 100000)], by decide +kernel⟩,
    ⟨0, 5, 2, 77, { w [(Reg.GTE_SEL, 2)] with net := { ports := [(2, { gatePend := some 77 })] } }, by decide +kernel⟩,
    ⟨2, 5, 77, { w [(copyOf 2 Reg.GTE_ADM_CYCLE, 10000), (copyOf 2 Reg.GTE_ADM_LEN, 1), (copyOf 2 Reg.GTE_ADM_ENTRY, 0xF0000999)] with net := { ports := [(2, { gatePend := some 77 })] }, ntu := { frc := 77 * 65536 } }, by decide +kernel⟩,
    ⟨0, 2, 0xFFFFFFFF, 19, row (Reg.SCH_Q_CFG + 8), w [(Reg.SCH_SEL, 2 * 256 + 3)], by decide +kernel⟩,
    ⟨{ w [(copyOf 16 Reg.WHL_Q_SPB, 5)] with net := { qs := [(16, { mode := 2, wait := 3 }), (17, { wait := 3 })] } }, by decide +kernel⟩,
    ⟨0, 0x12340003, w [(Reg.POL_SEL, 66 * 256 + 7)], by decide +kernel⟩⟩

theorem witness_NetworkTimeCommandsComplete :
    (∃ (m : Fin 8) (v : Word) (s : State), s.accepts m Reg.NTU_RATE_HI v = true ∧ s.ntuState ≠ 2) ∧
    (∃ (m : Fin 8) (v : Word) (s : State), s.accepts m (Reg.NTU_OFFSET + 8) v = true ∧ s.ntuState ≠ 2) ∧
    (∃ (m : Fin 8) (v : Word) (s : State), s.accepts m Reg.NTU_STEP_HI v = true ∧ s.ntuState ≠ 2) ∧
    (∃ (m : Fin 8) (sync : Bool) (s : State), s.accepts m Reg.NTU_CTRL (BitVec.ofNat 32 (1 + 16 * b2n sync)) = true ∧ s.ntuState ≠ 1 ∧ (sync = true ∨ s.bit Reg.NTU_STAT 3 = true ∨ s.fld Reg.NTU_SYNC_WD 0 8 = 0)) ∧
    (∃ (m : Fin 8) (sync : Bool) (s : State), s.accepts m Reg.NTU_CTRL (BitVec.ofNat 32 (2 + 16 * b2n sync)) = true ∧ s.ntuState = 1) ∧
    (∃ (m : Fin 8) (sync : Bool) (s : State), s.accepts m Reg.NTU_CTRL (BitVec.ofNat 32 (3 + 16 * b2n sync)) = true ∧ s.ntuState ≠ 0) ∧
    (∃ (m : Fin 8) (s : State), s.accepts m Reg.NTU_CTRL 16 = true) ∧
    (∃ (k : Nat) (s : State), s.fld Reg.NTU_WD_LEFT 0 8 ≠ 0 ∧ s.fld Reg.NTU_SYNC_WD 0 8 ≠ 0 ∧ ∃ gone, gone = ((s.comes s.ntu.wdFrom s.wdLength).gone s.ntu.wdFrom) ∧ k * s.wdLength ≤ gone ∧ gone < (k + 1) * s.wdLength) ∧
    (∃ (m : Fin 8) (v : Word) (s : State), s.accepts m Reg.NTU_NODE v = true ∧ v.toNat % 16384 ≠ 16383) ∧
    (∃ (m : Fin 8) (port : Fin 66) (v : Word) (s : State), s.accepts m (ntuPort port 2) v = true) ∧
    (∃ (cycle : Nat) (s : State), (match s.ntu.ppsIn with | some p => 65536000000 ≤ ((s.atCycle cycle).frcNow - p).toNat | none => True)) ∧
    (∃ (cycle : Nat) (s : State), s.bit Reg.NTU_PPS_CFG 31 = true ∧ (match s.ntu.ppsLast with | some l => s.ppsSec l < s.ppsSec (s.atCycle cycle).ntNs | none => True)) :=
  ⟨⟨0, 0xFFFFFF12, w [], by decide +kernel⟩,
    ⟨0, 0x12, { w [] with ntu := { heldW := [(Reg.NTU_OFFSET, 0xDEADBEEF), (Reg.NTU_OFFSET + 4, 77)] } }, by decide +kernel⟩,
    ⟨0, 0xFFFFFFFF, { w [] with ntu := { heldW := [(Reg.NTU_STEP, 0xDEADBEEF)] } }, by decide +kernel⟩,
    ⟨0, true, w [], by decide +kernel⟩,
    ⟨0, true, w [(Reg.NTU_STAT, 1)], by decide +kernel⟩,
    ⟨0, true, w [(Reg.NTU_STAT, 1)], by decide +kernel⟩,
    ⟨0, w [(Reg.NTU_STAT, 1)], by decide +kernel⟩,
    ⟨0, w [run, (Reg.NTU_STAT, 1), (Reg.NTU_WD_LEFT, 1), (Reg.NTU_SYNC_WD, 3)], by decide +kernel, by decide +kernel, _, rfl, by decide +kernel⟩,
    ⟨0, 16382, w [], by decide +kernel⟩,
    ⟨0, 65, 0x12345678, w [], by decide +kernel⟩,
    ⟨900, { w [] with ntu := { frc := 65536 * 2000000, ppsIn := some 0 } }, by decide +kernel⟩,
    ⟨900, w [(Reg.NTU_PPS_CFG, 2 ^ 31)], ⟨by decide +kernel, True.intro⟩⟩⟩

theorem witness_MirrorFramesComplete :
    (∃ (frame : List Byte) (f : MirFrame) (s : State), s.mirrorTakes true frame 0x61 f) ∧
    (∃ (frame : List Byte) (f : MirFrame) (s : State), s.mirrorTakes true frame 0x62 f) ∧
    (∃ (frame : List Byte) (cycle : Nat) (f : MirFrame) (s : State), s.mirrorTakes true frame 0x63 f) ∧
    (∃ (o : DigestSt) (s : State), s.red.own = some o ∧ s.red.compared ≠ some o.tick ∧ (s.red.syncAt ≠ some o.tick ∨ s.trapPhase ≠ 6) ∧ (s.role = 2 ∨ s.role = 1 ∧ s.partnerRole = 2)) ∧
    (∃ (frame : List Byte) (f : MirFrame) (s : State), s.mirrorTakes true frame 0x67 f ∧ leAt f.body 0 1 = 6 ∧ s.role = 2) ∧
    (∃ (frame : List Byte) (f : MirFrame) (s : State), s.mirrorTakes true frame 0x64 f ∧ s.role = 2) :=
  ⟨⟨hello1, mr hello1, w [lanes4], by (try unfold State.mirrorTakes); decide +kernel⟩,
    ⟨trig1, mr trig1, w [lanes4], by (try unfold State.mirrorTakes); decide +kernel⟩,
    ⟨digest1, 500, mr digest1, w [lanes4, (Reg.RED_STAT, 0xC0)], by (try unfold State.mirrorTakes); decide +kernel⟩,
    ⟨own1, { w [lanes4, (Reg.RED_ROLE, 0x102)] with red := { own := some own1, missRun := 3 } }, by decide +kernel⟩,
    ⟨ctl 6, mr (ctl 6), w [lanes4, (Reg.RED_ROLE, 0x102)], by (try unfold State.mirrorTakes); decide +kernel⟩,
    ⟨req1, mr req1, w [lanes4, (Reg.RED_ROLE, 0x102)], by (try unfold State.mirrorTakes); decide +kernel⟩⟩

theorem witness_TrapezeCopyComplete :
    (∃ (frame : List Byte) (f : MirFrame) (s : State), s.mirrorTakes true frame 0x67 f ∧ leAt f.body 0 1 = 1 ∧ s.role = 1 ∧ s.bit Reg.RED_CFG 0 = true ∧ s.red.serve = none) ∧
    (∃ (frame : List Byte) (f : MirFrame) (s : State), s.mirrorTakes true frame 0x67 f ∧ leAt f.body 0 1 = 2 ∧ s.red.asked = true ∧ f.res ≤ 1) ∧
    (∃ (frame : List Byte) (f : MirFrame) (s : State), s.mirrorTakes true frame 0x65 f ∧ s.trapPhase = 1 ∧ f.seq = s.red.jSeq ∧ ∃ es, es = ((readEntries s.red.jRun (bodyEntries f.body)).1) ∧ s.red.queue.length + es.length ≤ journalRoom) ∧
    (∃ (frame : List Byte) (f : MirFrame) (s : State), s.mirrorTakes true frame 0x66 f ∧ 1 ≤ s.trapPhase ∧ s.trapPhase ≤ 4 ∧ f.seq ≠ s.red.snapSeq) ∧
    (∃ (frame : List Byte) (f : MirFrame) (s : State), s.mirrorTakes true frame 0x66 f ∧ 1 ≤ s.trapPhase ∧ s.trapPhase ≤ 4 ∧ f.seq = s.red.snapSeq ∧ ∃ es, es = ((readEntries s.red.snapRun (bodyEntries f.body)).1) ∧ es.all (fun e => e.addr % 4 == 0 && decide (0x10000000 ≤ e.addr) && decide (e.addr < 0x12810000)) = true) ∧
    (∃ (frame : List Byte) (f : MirFrame) (s : State), s.mirrorTakes true frame 0x66 f ∧ 1 ≤ s.trapPhase ∧ s.trapPhase ≤ 4 ∧ f.seq = s.red.snapSeq ∧ s.tooLate f.tick = false ∧ ∃ es, es = ((readEntries s.red.snapRun (bodyEntries f.body)).1) ∧ es.all (fun e => e.addr % 4 == 0 && decide (0x12820000 ≤ e.addr) && decide (e.addr < 0x129A0000)) = true) ∧
    (∃ (s : State), s.trapPhase = 1) ∧
    (∃ (s : State), s.trapPhase = 4 ∧ (∀ e ∈ s.red.ctxIn ++ s.red.cutIn, s.tooLate e.1 = false)) ∧
    (∃ (s : State), (s.trapPhase = 3 ∨ s.trapPhase = 4)) :=
  ⟨⟨ctl 1, mr (ctl 1), w [lanes4, (Reg.RED_ROLE, 0x301), (Reg.RED_CFG, 1)], by (try unfold State.mirrorTakes); decide +kernel⟩,
    ⟨ctl 2, mr (ctl 2), { (w [lanes4, (Reg.RED_ROLE, 0x103), (Reg.CAL_STAT, 8), (Reg.FAB_RETMAP, 5)]).setBytes 0x10000000 [1,2,3] with red := { asked := true } }, by (try unfold State.mirrorTakes); decide +kernel⟩,
    ⟨jour1, mr jour1, { w [lanes4, (Reg.RED_ROLE, 0x103), (Reg.RED_TRAP, 0x100)] with red := { jSeq := 4 } }, by (try unfold State.mirrorTakes); decide +kernel, by (try unfold State.mirrorTakes); decide +kernel, by (try unfold State.mirrorTakes); decide +kernel, _, rfl, by (try unfold State.mirrorTakes); decide +kernel⟩,
    ⟨snap1, mr snap1, { w [lanes4, (Reg.RED_ROLE, 0x103), (Reg.RED_TRAP, 0x100)] with red := { snapSeq := 5 } }, by (try unfold State.mirrorTakes); decide +kernel⟩,
    ⟨snap1, mr snap1, { w [lanes4, (Reg.RED_ROLE, 0x103), (Reg.RED_TRAP, 0x100)] with red := { snapSeq := 4 } }, by (try unfold State.mirrorTakes); decide +kernel, by (try unfold State.mirrorTakes); decide +kernel, by (try unfold State.mirrorTakes); decide +kernel, by (try unfold State.mirrorTakes); decide +kernel, _, rfl, by (try unfold State.mirrorTakes); decide +kernel⟩,
    ⟨snap2, mr snap2, { w [lanes4, (Reg.RED_ROLE, 0x103), (Reg.RED_TRAP, 0x300)] with red := { snapSeq := 4 }, tck := { now := 5 } }, by (try unfold State.mirrorTakes); decide +kernel, by (try unfold State.mirrorTakes); decide +kernel, by (try unfold State.mirrorTakes); decide +kernel, by (try unfold State.mirrorTakes); decide +kernel, by (try unfold State.mirrorTakes); decide +kernel, _, rfl, by (try unfold State.mirrorTakes); decide +kernel⟩,
    ⟨w [lanes4, (Reg.RED_ROLE, 0x103), (Reg.RED_TRAP, 0x100)], by decide +kernel⟩,
    ⟨w [lanes4, (Reg.RED_ROLE, 0x103), (Reg.RED_TRAP, 0x400), (Reg.RED_STAT, 64)], by decide +kernel⟩,
    ⟨w [lanes4, (Reg.RED_ROLE, 0x103), (Reg.RED_TRAP, 0x400)], by decide +kernel⟩⟩

theorem witness_TrapezeEndComplete :
    (∃ (frame : List Byte) (f : MirFrame) (s : State), s.mirrorTakes true frame 0x67 f ∧ leAt f.body 0 1 = 3 ∧ s.role = 1 ∧ s.red.serve ≠ none ∧ s.mirrorUp = true ∧ s.mirDark = false) ∧
    (∃ (frame : List Byte) (f : MirFrame) (s : State), s.mirrorTakes true frame 0x67 f ∧ leAt f.body 0 1 = 4 ∧ s.trapPhase = 5) ∧
    (∃ (frame : List Byte) (f : MirFrame) (s : State), s.mirrorTakes true frame 0x67 f ∧ leAt f.body 0 1 = 5 ∧ s.red.serve ≠ none) ∧
    (∃ (frame : List Byte) (f : MirFrame) (s : State), s.mirrorTakes true frame 0x67 f ∧ leAt f.body 0 1 = 7 ∧ s.trapRuns = true) ∧
    (∃ (frame : List Byte) (f : MirFrame) (s : State), s.mirrorTakes true frame 0x67 f ∧ leAt f.body 0 1 = 7 ∧ s.trapRuns = false ∧ s.red.serve ≠ none) :=
  ⟨⟨ctl 3, mr (ctl 3), { w [lanes4, (Reg.RED_ROLE, 0x301), (Reg.RED_STAT, 64)] with red := { serve := some (5, 3) } }, by (try unfold State.mirrorTakes); decide +kernel⟩,
    ⟨ctl 4, mr (ctl 4), w [lanes4, (Reg.RED_ROLE, 0x103), (Reg.RED_TRAP, 0x500)], by (try unfold State.mirrorTakes); decide +kernel⟩,
    ⟨ctl 5, mr (ctl 5), { w [lanes4, (Reg.RED_ROLE, 0x301)] with red := { serve := some (5, 3), journal := true } }, by (try unfold State.mirrorTakes); decide +kernel⟩,
    ⟨ctl 7, mr (ctl 7), w [lanes4, (Reg.RED_ROLE, 0x103), (Reg.RED_TRAP, 0x500)], by (try unfold State.mirrorTakes); decide +kernel⟩,
    ⟨ctl 7, mr (ctl 7), { w [lanes4, (Reg.RED_ROLE, 0x301)] with red := { serve := some (5, 3), journal := true } }, by (try unfold State.mirrorTakes); decide +kernel⟩⟩

theorem witness_TickPhasesComplete :
    (∃ (s : State), s.running = true ∧ s.tck.startAt = none ∧ s.finishTick.running = true ∧ s.finishTick.tck.startAt = none) ∧
    (∃ (j g : Nat) (s : State), s.running = false ∧ s.tck.window = none ∧ s.tck.startAt = some (j, g)) ∧
    (∃ (s : State), s.running = true) ∧
    (∃ (lanes : List LaneFacts) (mirror : Fin 16) (s : State), s.running = true ∧ s.tck.judged ≠ some s.now) ∧
    (∃ (s : State), s.tck.judged = some s.now ∧ s.mea.losAt ≠ some s.now) ∧
    (∃ (stalls : List (Fin 32 × Nat)) (s : State), s.tck.window = some s.now ∧ s.rce.composed = false) ∧
    (∃ (faults : List (Fin 32)) (corr : List (Fin 32 × Nat)) (n : Tick) (s : State), s.tck.window = some n ∧ (n ≠ s.now ∨ s.running = false)) :=
  ⟨⟨w [run, solo], by decide +kernel⟩,
    ⟨77, 77000, { w [solo] with tck := { startAt := some (77, 77000) } }, by decide +kernel⟩,
    ⟨{ w [run, solo] with evt := { pinEv := 5, almEv := 6 }, prt := { cmds := [(1, 1)] }, rce := { safeAt := [2] } }, by decide +kernel⟩,
    ⟨[⟨3, 1, 4, 5, 6⟩], 1, { w [run, solo, byv 3 7 3] with topo := some topo4 }, by decide +kernel⟩,
    ⟨{ w [run, solo] with tck := { judged := some 0 }, topo := some topo4 }, by decide +kernel⟩,
    ⟨[(3, 4)], { w [run, solo] with tck := { judged := some 0, window := some 0 }, topo := some topo4 }, by decide +kernel⟩,
    ⟨[3], [(4, 2)], 4, { w [run, solo] with tck := { now := 5, window := some 4 }, topo := some topo4 }, by decide +kernel⟩⟩

theorem witness_MeasurementCommandsComplete :
    (∃ (s : State), s.windowDue = true) ∧
    (∃ (m : Fin 8) (v : Word) (s : State), s.accepts m Reg.MEA_WIN v = true ∧ s.orphaned = false ∧ s.windowDue = false) ∧
    (∃ (m : Fin 8) (v : Word) (s : State), s.accepts m Reg.MEA_WIN v = true ∧ s.orphaned = false ∧ s.windowDue = true) ∧
    (∃ (m : Fin 8) (v : Word) (s : State), s.accepts m Reg.MEA_CTRL v = true ∧ s.mstate = 0 ∧ s.windowDue = false) ∧
    (∃ (m : Fin 8) (v : Word) (s : State), s.accepts m Reg.MEA_CTRL v = true ∧ s.mstate = 0 ∧ s.windowDue = true ∧ bitOf v 0 = false) :=
  ⟨⟨{ w [solo] with tck := { now := 999, judged := some 999 }, rce := { composed := true }, mea := { endAt := 999 } }, by decide +kernel⟩,
    ⟨0, 5000, { w [solo] with tck := { now := 12345 }, mea := { start := 12000, endAt := 12999 } }, by decide +kernel⟩,
    ⟨0, 5000, { w [solo] with tck := { now := 12345 }, mea := { start := 12000, endAt := 12344 } }, by decide +kernel⟩,
    ⟨0, 0, w [solo], by decide +kernel⟩,
    ⟨0, 0, { w [solo] with tck := { now := 12345 }, mea := { on := true, start := 12000, endAt := 12344 } }, by decide +kernel⟩⟩

theorem witness_CalibrationPassComplete :
    (∃ (m : Fin 8) (topo : Topo) (s : State), s.accepts m Reg.CAL_CTRL 1 = true ∧ s.role = 0 ∧ s.topo = some topo ∧ s.calBusy = false ∧ s.calRangeBad topo = false ∧ ∃ el, el = (s.calElems.filterMap fun x => (topo.slotOf? x).map fun sl => s.calTake x sl) ∧ el.any (·.on) = true) ∧
    (∃ (p : CalPass) (s : State), s.cal.pass = some p ∧ s.calDue p = true ∧ p.phase ≤ 2 ∧ ∃ q, q = (p.mapOn fun e => if p.phase = 0 then s.calRef p e else if p.phase = 1 then s.calHeater p e else s.calSweepA p e) ∧ q.elems.any (·.on) = true) ∧
    (∃ (p : CalPass) (s : State), s.cal.pass = some p ∧ s.bit Reg.CAL_STAT 1 = false ∧ (s.reg Reg.CAL_TIMEOUT).toNat < (s.now - p.begun).toNat ∧ p.elems.any (·.again.isSome) = false ∧ (p.elems.map (·.slot)).Nodup) ∧
    (∃ (m : Fin 8) (s : State), s.accepts m Reg.CAL_CTRL 2 = true ∧ s.cal.pass ≠ none) :=
  ⟨⟨0, topo4, { w [solo, (Reg.CAL_PASS, 1 + 4 * 2 ^ 20)] with topo := some topo4 }, by decide +kernel, by decide +kernel, by decide +kernel, by decide +kernel, by decide +kernel, _, rfl, by decide +kernel⟩,
    ⟨calP, { w [solo, (Reg.CAL_STAT, 1), (Reg.CAL_MIN_LIGHT, 5)] with topo := some topo4, cal := { pass := some calP } }, by decide +kernel, by decide +kernel, by decide +kernel, _, rfl, by decide +kernel⟩,
    ⟨calP, { w [solo, (Reg.CAL_STAT, 1)] with topo := some topo4, cal := { pass := some calP }, tck := { now := 0xFFFFFFFF } }, by decide +kernel⟩,
    ⟨0, { w [solo, (Reg.CAL_STAT, 1)] with topo := some topo4, cal := { pass := some calP } }, by decide +kernel⟩⟩

theorem witness_CalibrationBanksComplete :
    (∃ (m : Fin 8) (s : State), s.accepts m Reg.CAL_CTRL 4 = true ∧ s.roleActs = true ∧ s.calBusy = false) ∧
    (∃ (s : State), s.bit Reg.CAL_STAT 2 = true) ∧
    (∃ (m : Fin 8) (s : State), s.accepts m Reg.CAL_CTRL 8 = true ∧ s.roleActs = true ∧ s.calBusy = false ∧ s.cal.results.any (·.2.status == 1) = true) ∧
    (∃ (s : State), s.bit Reg.CAL_STAT 4 = true ∧ Memory.wf s.mem = true ∧ s.cal.results.all (fun e => decide (e.1 < 12288)) = true) :=
  ⟨⟨0, w [solo], by decide +kernel⟩,
    ⟨w [solo, (Reg.CAL_STAT, 4)], by decide +kernel⟩,
    ⟨0, { w [solo] with cal := { results := [(5, { status := 1 })] } }, by decide +kernel⟩,
    ⟨{ w [solo, (Reg.CAL_STAT, 16)] with cal := { results := [(5, { status := 1, cls := 1 })] } }, by decide +kernel⟩⟩

end Sys2Proof.Tests
end

section
/-! PROOFS. Only boundaries, restarts and commands that can let another register write through move TCK_NOW (R9, R51). -/

namespace Sys2Proof.Machine

/-- A frame law of a command says of the tick that it stays. -/
theorem State.now_of_frame {s t : State} {memKept : Prop} (hframe : t.pending = s.pending ∧ t.tck.now = s.tck.now ∧ memKept) :
    t.now = s.now := by
  obtain ⟨-, hnow, -⟩ := hframe
  exact hnow

/-- A command outside `mayMoveTick` keeps TCK_NOW: its meaning is made of operations that keep the tick, which is what the frame
law of each command (Laws/Frame*.lean) says; the commands of `mayMoveTick` do not meet the hypothesis. -/
theorem exec_now_of_not_mayMoveTick {c : Instr} {s t : State} (hc : c.mayMoveTick = false) (h : exec c s = .next t) :
    t.now = s.now := by
  cases c with
  | tickBoundary | supFrameRx | pauseFrame | hostTxFrame | alarmFrame | openSession | request | closeSession | ptpMessage |
    followUp | delayResp | w1cClear | flushDone | coldReset | warmReset | managementReset | mgmtResetDone | resetN |
    registerWrite | decodeError | burstTruncate | intForce | vectorUnmask | remap | smbWrite | memacc | powerOnRestart |
    thermalRestart | pllRelock | softResetDone => cases hc
  | triggerCutoff => exact State.now_of_frame (execTriggerCutoff_frame s h)
  | computeWindowOpen lanes mirror => exact State.now_of_frame (execComputeWindowOpen_frame lanes mirror s h)
  | losEvaluation => exact State.now_of_frame (execLosEvaluation_frame s h)
  | composeState stalls => exact State.now_of_frame (execComposeState_frame stalls s h)
  | windowClose faults corr => exact State.now_of_frame (execWindowClose_frame faults corr s h)
  | engineRetire e => exact State.now_of_frame (execEngineRetire_frame e s h)
  | ringmasterStart m cycle alt => exact State.now_of_frame (execRingmasterStart_frame m cycle alt s h)
  | ringmasterStop m alt => exact State.now_of_frame (execRingmasterStop_frame m alt s h)
  | tckCommit m cycle => exact State.now_of_frame (execTckCommit_frame m cycle s h)
  | commitCancel m page cycle => exact State.now_of_frame (execCommitCancel_frame m page cycle s h)
  | markerTx port ofs => exact State.now_of_frame (execMarkerTx_frame port ofs s h)
  | alignTx place => exact State.now_of_frame (execAlignTx_frame place s h)
  | upstreamFrame port fecOk content => exact State.now_of_frame (execUpstreamFrame_frame port fecOk content s h)
  | alignRx port lane inPlace skew => exact State.now_of_frame (execAlignRx_frame port lane inPlace skew s h)
  | alignMissing port lane => exact State.now_of_frame (execAlignMissing_frame port lane s h)
  | reservedControlBlock got => exact State.now_of_frame (execReservedControlBlock_frame got s h)
  | pmdTrainDone port lanes => exact State.now_of_frame (execPmdTrainDone_frame port lanes s h)
  | discover port id efe proto layout te hold => exact State.now_of_frame (execDiscover_frame port id efe proto layout te hold s h)
  | echoRsp port seq rtt => exact State.now_of_frame (execEchoRsp_frame port seq rtt s h)
  | trainTimeout port signal => exact State.now_of_frame (execTrainTimeout_frame port signal s h)
  | trainRetry port => exact State.now_of_frame (execTrainRetry_frame port s h)
  | laneRetire port lane => exact State.now_of_frame (execLaneRetire_frame port lane s h)
  | laneRestore m port lanes => exact State.now_of_frame (execLaneRestore_frame m port lanes s h)
  | retrain m port => exact State.now_of_frame (execRetrain_frame m port s h)
  | echo m port => exact State.now_of_frame (execEcho_frame m port s h)
  | laneEnWrite m port en => exact State.now_of_frame (execLaneEnWrite_frame m port en s h)
  | loadDesc m => exact State.now_of_frame (execLoadDesc_frame m s h)
  | descLoadDone data busAt => exact State.now_of_frame (execDescLoadDone_frame data busAt s h)
  | loadImage m => exact State.now_of_frame (execLoadImage_frame m s h)
  | abortImage m data got => exact State.now_of_frame (execAbortImage_frame m data got s h)
  | imageLoadDone data busAt => exact State.now_of_frame (execImageLoadDone_frame data busAt s h)
  | applyGo m cycle => exact State.now_of_frame (execApplyGo_frame m cycle s h)
  | stagingDone => exact State.now_of_frame (execStagingDone_frame s h)
  | applyCancelAll m => exact State.now_of_frame (execApplyCancelAll_frame m s h)
  | armSafety m => exact State.now_of_frame (execArmSafety_frame m s h)
  | safeNow m cycle => exact State.now_of_frame (execSafeNow_frame m cycle s h)
  | safeExit m => exact State.now_of_frame (execSafeExit_frame m s h)
  | stateStoreWrite m off data => exact State.now_of_frame (execStateStoreWrite_frame m off data s h)
  | contextEntryWrite m off data => exact State.now_of_frame (execContextEntryWrite_frame m off data s h)
  | profileShadowWrite m off data => exact State.now_of_frame (execProfileShadowWrite_frame m off data s h)
  | placementShadowWrite m off data => exact State.now_of_frame (execPlacementShadowWrite_frame m off data s h)
  | loopContextWrite m off data => exact State.now_of_frame (execLoopContextWrite_frame m off data s h)
  | profileBankSwap m cycle => exact State.now_of_frame (execProfileBankSwap_frame m cycle s h)
  | copyBackDone => exact State.now_of_frame (execCopyBackDone_frame s h)
  | nop m arg cycle => exact State.now_of_frame (execNop_frame m arg cycle s h)
  | setState m arg cycle => exact State.now_of_frame (execSetState_frame m arg cycle s h)
  | freeze m arg cycle => exact State.now_of_frame (execFreeze_frame m arg cycle s h)
  | release m arg cycle => exact State.now_of_frame (execRelease_frame m arg cycle s h)
  | setProfA m arg cycle => exact State.now_of_frame (execSetProfA_frame m arg cycle s h)
  | setProfB m arg cycle => exact State.now_of_frame (execSetProfB_frame m arg cycle s h)
  | setParkA m arg cycle => exact State.now_of_frame (execSetParkA_frame m arg cycle s h)
  | setParkB m arg cycle => exact State.now_of_frame (execSetParkB_frame m arg cycle s h)
  | setTarget m arg cycle => exact State.now_of_frame (execSetTarget_frame m arg cycle s h)
  | clearFlags m arg cycle => exact State.now_of_frame (execClearFlags_frame m arg cycle s h)
  | loopRetire l => exact State.now_of_frame (execLoopRetire_frame l s h)
  | placementCheck m auto => exact State.now_of_frame (execPlacementCheck_frame m auto s h)
  | placementCheckDone => exact State.now_of_frame (execPlacementCheckDone_frame s h)
  | lplCommit m cycle => exact State.now_of_frame (execLplCommit_frame m cycle s h)
  | repack m auto => exact State.now_of_frame (execRepack_frame m auto s h)
  | repackDone => exact State.now_of_frame (execRepackDone_frame s h)
  | lenRetire m e => exact State.now_of_frame (execLenRetire_frame m e s h)
  | rsvSubmit m slot => exact State.now_of_frame (execRsvSubmit_frame m slot s h)
  | jobSlotWrite m slot word v => exact State.now_of_frame (execJobSlotWrite_frame m slot word v s h)
  | jobStart => exact State.now_of_frame (execJobStart_frame s h)
  | jobResume => exact State.now_of_frame (execJobResume_frame s h)
  | jobEnd stage cycles cycle => exact State.now_of_frame (execJobEnd_frame stage cycles cycle s h)
  | budgetExhausted cycles cycle => exact State.now_of_frame (execBudgetExhausted_frame cycles cycle s h)
  | jobCancel m slot cycles => exact State.now_of_frame (execJobCancel_frame m slot cycles s h)
  | jobCancelAll m cycles => exact State.now_of_frame (execJobCancelAll_frame m cycles s h)
  | carouselCheck m => exact State.now_of_frame (execCarouselCheck_frame m s h)
  | carouselCheckDone => exact State.now_of_frame (execCarouselCheckDone_frame s h)
  | start m cycle => exact State.now_of_frame (execStart_frame m cycle s h)
  | swap m cycle => exact State.now_of_frame (execSwap_frame m cycle s h)
  | stop m cycle => exact State.now_of_frame (execStop_frame m cycle s h)
  | carouselSlotChange => exact State.now_of_frame (execCarouselSlotChange_frame s h)
  | crsShdDataWrite m v => exact State.now_of_frame (execCrsShdDataWrite_frame m v s h)
  | crsActDataRead m => exact State.now_of_frame (execCrsActDataRead_frame m s h)
  | protectionCheck m => exact State.now_of_frame (execProtectionCheck_frame m s h)
  | protectionCheckDone => exact State.now_of_frame (execProtectionCheckDone_frame s h)
  | prtCommit m cycle => exact State.now_of_frame (execPrtCommit_frame m cycle s h)
  | prtSubDataWrite m v => exact State.now_of_frame (execPrtSubDataWrite_frame m v s h)
  | prtSubaDataRead m => exact State.now_of_frame (execPrtSubaDataRead_frame m s h)
  | force m case cycle => exact State.now_of_frame (execForce_frame m case cycle s h)
  | clear m case cycle => exact State.now_of_frame (execClear_frame m case cycle s h)
  | wtrExpiry case => exact State.now_of_frame (execWtrExpiry_frame case s h)
  | trigInEdge pin level cycle => exact State.now_of_frame (execTrigInEdge_frame pin level cycle s h)
  | pinRecognition pin cycle => exact State.now_of_frame (execPinRecognition_frame pin cycle s h)
  | stuckDetect input => exact State.now_of_frame (execStuckDetect_frame input s h)
  | evtPinEnWrite m v cycle => exact State.now_of_frame (execEvtPinEnWrite_frame m v cycle s h)
  | chatterClear m word v => exact State.now_of_frame (execChatterClear_frame m word v s h)
  | meaWindowEnd => exact State.now_of_frame (execMeaWindowEnd_frame s h)
  | meaWinWrite m v => exact State.now_of_frame (execMeaWinWrite_frame m v s h)
  | meaEnWrite m v => exact State.now_of_frame (execMeaEnWrite_frame m v s h)
  | calPassStart m => exact State.now_of_frame (execCalPassStart_frame m s h)
  | calMeasurementDone => exact State.now_of_frame (execCalMeasurementDone_frame s h)
  | calAttemptTimeout => exact State.now_of_frame (execCalAttemptTimeout_frame s h)
  | calAbort m => exact State.now_of_frame (execCalAbort_frame m s h)
  | calStage m => exact State.now_of_frame (execCalStage_frame m s h)
  | calStageDone => exact State.now_of_frame (execCalStageDone_frame s h)
  | calStore m => exact State.now_of_frame (execCalStore_frame m s h)
  | calStoreDone => exact State.now_of_frame (execCalStoreDone_frame s h)
  | calCommit m cycle => exact State.now_of_frame (execCalCommit_frame m cycle s h)
  | pauseRepeat port => exact State.now_of_frame (execPauseRepeat_frame port s h)
  | learn cycle => exact State.now_of_frame (execLearn_frame cycle s h)
  | agingPass => exact State.now_of_frame (execAgingPass_frame s h)
  | scrub => exact State.now_of_frame (execScrub_frame s h)
  | conflictRecordExpiry cycle => exact State.now_of_frame (execConflictRecordExpiry_frame cycle s h)
  | insert m => exact State.now_of_frame (execInsert_frame m s h)
  | delete m => exact State.now_of_frame (execDelete_frame m s h)
  | lookup m => exact State.now_of_frame (execLookup_frame m s h)
  | flushPort m port => exact State.now_of_frame (execFlushPort_frame m port s h)
  | flushVid m vid => exact State.now_of_frame (execFlushVid_frame m vid s h)
  | flushLearned m => exact State.now_of_frame (execFlushLearned_frame m s h)
  | fwdCmdDone => exact State.now_of_frame (execFwdCmdDone_frame s h)
  | fwdTableDataWrite m table v => exact State.now_of_frame (execFwdTableDataWrite_frame m table v s h)
  | alloc m => exact State.now_of_frame (execAlloc_frame m s h)
  | free m handle => exact State.now_of_frame (execFree_frame m handle s h)
  | bpmPoolCfgWrite m pool word v => exact State.now_of_frame (execBpmPoolCfgWrite_frame m pool word v s h)
  | portInterval cv => exact State.now_of_frame (execPortInterval_frame cv s h)
  | portRetire port => exact State.now_of_frame (execPortRetire_frame port s h)
  | portRestore m port => exact State.now_of_frame (execPortRestore_frame m port s h)
  | linkUp port an => exact State.now_of_frame (execLinkUp_frame port an s h)
  | linkDown port sync => exact State.now_of_frame (execLinkDown_frame port sync s h)
  | resetRings m => exact State.now_of_frame (execResetRings_frame m s h)
  | alarmCacheExpiry cycle => exact State.now_of_frame (execAlarmCacheExpiry_frame cycle s h)
  | almSend m kind code => exact State.now_of_frame (execAlmSend_frame m kind code s h)
  | almInClear m word v => exact State.now_of_frame (execAlmInClear_frame m word v s h)
  | mgtIdleExpiry cycle => exact State.now_of_frame (execMgtIdleExpiry_frame cycle s h)
  | keySlotWrite m slot off data => exact State.now_of_frame (execKeySlotWrite_frame m slot off data s h)
  | egressSelect port cycle ahead => exact State.now_of_frame (execEgressSelect_frame port cycle ahead s h)
  | gateEntryChange port cycle => exact State.now_of_frame (execGateEntryChange_frame port cycle s h)
  | gateCommit m cycle => exact State.now_of_frame (execGateCommit_frame m cycle s h)
  | gateCancel m cycle => exact State.now_of_frame (execGateCancel_frame m cycle s h)
  | gateListStart port cycle => exact State.now_of_frame (execGateListStart_frame port cycle s h)
  | shaperConfigWrite m reg v => exact State.now_of_frame (execShaperConfigWrite_frame m reg v s h)
  | wheelSlot => exact State.now_of_frame (execWheelSlot_frame s h)
  | polCfgWrite m v => exact State.now_of_frame (execPolCfgWrite_frame m v s h)
  | tcEntryExpiry cycle => exact State.now_of_frame (execTcEntryExpiry_frame cycle s h)
  | ntuRateWrite m v => exact State.now_of_frame (execNtuRateWrite_frame m v s h)
  | ntuOffsetWrite m v => exact State.now_of_frame (execNtuOffsetWrite_frame m v s h)
  | ntuStepWrite m v => exact State.now_of_frame (execNtuStepWrite_frame m v s h)
  | lock m sync => exact State.now_of_frame (execLock_frame m sync s h)
  | hold m sync => exact State.now_of_frame (execHold_frame m sync s h)
  | ntuFree m sync => exact State.now_of_frame (execNtuFree_frame m sync s h)
  | sync m => exact State.now_of_frame (execSync_frame m s h)
  | syncWdInterval => exact State.now_of_frame (execSyncWdInterval_frame s h)
  | nodeWrite m v => exact State.now_of_frame (execNodeWrite_frame m v s h)
  | mpdWrite m port v => exact State.now_of_frame (execMpdWrite_frame m port v s h)
  | ppsInEdge cycle => exact State.now_of_frame (execPpsInEdge_frame cycle s h)
  | ppsOutRise cycle => exact State.now_of_frame (execPpsOutRise_frame cycle s h)
  | ppsOutFall => exact State.now_of_frame (execPpsOutFall_frame s h)
  | claimArm m arm solo unsyncedOk => exact State.now_of_frame (execClaimArm_frame m arm solo unsyncedOk s h)
  | claimAttempt cycle => exact State.now_of_frame (execClaimAttempt_frame cycle s h)
  | claimed cycle => exact State.now_of_frame (execClaimed_frame cycle s h)
  | ilkInAssert => exact State.now_of_frame (execIlkInAssert_frame s h)
  | ilkInDeassert cycle => exact State.now_of_frame (execIlkInDeassert_frame cycle s h)
  | toPair m => exact State.now_of_frame (execToPair_frame m s h)
  | interlockRelease m => exact State.now_of_frame (execInterlockRelease_frame m s h)
  | heartbeatLoss => exact State.now_of_frame (execHeartbeatLoss_frame s h)
  | helloTx => exact State.now_of_frame (execHelloTx_frame s h)
  | hello ok frame => exact State.now_of_frame (execHello_frame ok frame s h)
  | trig ok frame => exact State.now_of_frame (execTrig_frame ok frame s h)
  | digest ok frame cycle => exact State.now_of_frame (execDigest_frame ok frame cycle s h)
  | digestDeadline => exact State.now_of_frame (execDigestDeadline_frame s h)
  | req ok frame => exact State.now_of_frame (execReq_frame ok frame s h)
  | journal ok frame => exact State.now_of_frame (execJournal_frame ok frame s h)
  | snap ok frame => exact State.now_of_frame (execSnap_frame ok frame s h)
  | catchUp m => exact State.now_of_frame (execCatch_frame m s h)
  | catchReq ok frame => exact State.now_of_frame (execCatchReq_frame ok frame s h)
  | catchAck ok frame => exact State.now_of_frame (execCatchAck_frame ok frame s h)
  | trapezeBulkDone => exact State.now_of_frame (execTrapezeBulkDone_frame s h)
  | trapezeCutInstalled => exact State.now_of_frame (execTrapezeCutInstalled_frame s h)
  | trapezeLateContext => exact State.now_of_frame (execTrapezeLateContext_frame s h)
  | ready ok frame => exact State.now_of_frame (execReady_frame ok frame s h)
  | syncAt ok frame => exact State.now_of_frame (execSyncAt_frame ok frame s h)
  | result ok frame => exact State.now_of_frame (execResult_frame ok frame s h)
  | mirrorAbort ok frame => exact State.now_of_frame (execMirrorAbort_frame ok frame s h)
  | abortCatch m => exact State.now_of_frame (execAbortCatch_frame m s h)
  | mirrorLinkDown => exact State.now_of_frame (execMirrorLinkDown_frame s h)
  | mirrorRetrain m => exact State.now_of_frame (execMirrorRetrain_frame m s h)
  | mirrorLaneRestore m lanes => exact State.now_of_frame (execMirrorLaneRestore_frame m lanes s h)
  | mirrorLaneEnWrite m en => exact State.now_of_frame (execMirrorLaneEnWrite_frame m en s h)
  | uncorrectableEcc region addr x reader => exact State.now_of_frame (execUncorrectableEcc_frame region addr x reader s h)
  | linkProbe page inverts => exact State.now_of_frame (execLinkProbe_frame page inverts s h)
  | pairEqual page equal => exact State.now_of_frame (execPairEqual_frame page equal s h)
  | fltFlush m safetyEn force => exact State.now_of_frame (execFltFlush_frame m safetyEn force s h)
  | pcieHotReset => exact State.now_of_frame (execPcieHotReset_frame s h)
  | functionLevelReset => exact State.now_of_frame (execFunctionLevelReset_frame s h)
  | pcieLinkDown => exact State.now_of_frame (execPcieLinkDown_frame s h)
  | pciePerst low => exact State.now_of_frame (execPciePerst_frame low s h)
  | softReset m page v => exact State.now_of_frame (execSrst_frame m page v s h)
  | takeoverOpen m => exact State.now_of_frame (execTakeoverOpen_frame m s h)
  | takeoverGo m => exact State.now_of_frame (execGo_frame m s h)
  | takeoverAdopt m => exact State.now_of_frame (execAdopt_frame m s h)
  | takeoverAbandon m => exact State.now_of_frame (execAbandon_frame m s h)
  | lowWordRead m addr cycle => exact State.now_of_frame (execLowWordRead_frame m addr cycle s h)
  | msixMessage => exact State.now_of_frame (execMsixMessage_frame s h)
  | alertResponse => exact State.now_of_frame (execAlertResponse_frame s h)
  | mramWrite m off data => exact State.now_of_frame (execMramWrite_frame m off data s h)
  | smbAddr v pec => exact State.now_of_frame (execSmbAddr_frame v pec s h)
  | smbRead => exact State.now_of_frame (execSmbRead_frame s h)
  | extest => exact State.now_of_frame (execExtest_frame s h)
  | idcode => exact State.now_of_frame (execIdcode_frame s h)
  | samplePreload => exact State.now_of_frame (execSamplePreload_frame s h)
  | clamp => exact State.now_of_frame (execClamp_frame s h)
  | highz => exact State.now_of_frame (execHighz_frame s h)
  | extestPulse => exact State.now_of_frame (execExtestPulse_frame s h)
  | extestTrain => exact State.now_of_frame (execExtestTrain_frame s h)
  | bypass => exact State.now_of_frame (execBypass_frame s h)
  | jtagTrst => exact State.now_of_frame (execJtagTrst_frame s h)
  | vinInvalid b mv cycle => exact State.now_of_frame (execVinInvalid_frame b mv cycle s h)
  | vinValid b mv cycle => exact State.now_of_frame (execVinValid_frame b mv cycle s h)
  | vinReturn cycle => exact State.now_of_frame (execVinReturn_frame cycle s h)
  | testBWrite m testB => exact State.now_of_frame (execTestBWrite_frame m testB s h)
  | thermalEvaluation samples => exact State.now_of_frame (execThermalEvaluation_frame samples s h)
  | sensorRetire sensor => exact State.now_of_frame (execSensorRetire_frame sensor s h)
  | sensorRestore m mask => exact State.now_of_frame (execSensorRestore_frame m mask s h)
  | thermalAck m floor => exact State.now_of_frame (execAck_frame m floor s h)
  | swFloorWrite m floor => exact State.now_of_frame (execSwFloorWrite_frame m floor s h)
  | thmShutWrite m v => exact State.now_of_frame (execThmShutWrite_frame m v s h)
  | thermalShutdown analog => exact State.now_of_frame (execThermalShutdown_frame analog s h)
  | pllLockLoss cycle => exact State.now_of_frame (execPllLockLoss_frame cycle s h)
  | refclkLoss => exact State.now_of_frame (execRefclkLoss_frame s h)
  | wdclkLoss => exact State.now_of_frame (execWdclkLoss_frame s h)
  | claimedFrame ok frame => exact State.now_of_frame (execClaimedFrame_frame ok frame s h)
  | echoReq seq => exact State.now_of_frame (execEchoReq_frame seq s h)
  | pauseExpiry port cycle => exact State.now_of_frame (execPauseExpiry_frame port cycle s h)
  | remoteFault port present => exact State.now_of_frame (execRemoteFault_frame port present s h)
  | pcieLinkChange speed width msixEn maskAll => exact State.now_of_frame (execPcieLinkChange_frame speed width msixEn maskAll s h)
  | wdclkReturn => exact State.now_of_frame (execWdclkReturn_frame s h)
  | refclkReturn => exact State.now_of_frame (execRefclkReturn_frame s h)
  | pllUnlocked2ms => exact State.now_of_frame (execPllUnlocked2ms_frame s h)

/-- Settles O6, by the case split over the commands of `exec_now_of_not_mayMoveTick`. -/
theorem onlyBoundariesMoveTheTick : Obligations.OnlyBoundariesMoveTheTick := by
  unfold Obligations.OnlyBoundariesMoveTheTick
  intro c s t hc h
  exact exec_now_of_not_mayMoveTick hc h

end Sys2Proof.Machine
end

section
/-! PROOFS. When COMPOSE_STATE composes (R54, R204): only once per tick, and only in a tick whose cycle O has been judged. -/

namespace Sys2Proof.Machine

/-- The composition phase of a tick: made once (`composed`), and made only after cycle O of the same tick (R54). Whether a compute
window is open has no part in it: a tick without a window composes too (R70, R204). -/
theorem State.composePhase_composed_iff (s : State) (stalls : List (Nat × Nat)) :
    (s.composePhase stalls).rce.composed = true ↔ s.rce.composed = true ∨ s.tck.judged = some s.now := by
  by_cases hmade : s.rce.composed = true
  · have hstay : s.composePhase stalls = s := if_pos (.inr hmade)
    exact iff_of_true (hstay.symm ▸ hmade) (.inl hmade)
  · by_cases hjudged : s.tck.judged = some s.now
    · refine iff_of_true ?_ (.inr hjudged)
      have hdue : ¬ (s.tck.judged ≠ some s.now ∨ s.rce.composed = true) := fun h => h.elim (· hjudged) hmade
      rw [State.composePhase, if_neg hdue]
      dsimp only
      split <;> rfl
    · have hstay : s.composePhase stalls = s := if_pos (.inl hjudged)
      rw [hstay]
      exact (or_iff_left hjudged).symm

/-- COMPOSE_STATE completes as `TickPhasesComplete` says under the hypothesis that the statement lacks: cycle O of the present
tick has been judged, as COMPUTE_WINDOW_OPEN leaves it. -/
theorem composeState_completes_of_judged (stalls : List (Fin 32 × Nat)) (s : State) (hjudged : s.tck.judged = some s.now) :
    Completes (.composeState stalls) s fun t => t.now = s.now ∧ t.rce.composed = true ∧ SameMem s t := by
  obtain ⟨-, hnow, hmem⟩ := State.composePhase_frame s (stalls.map fun x => (x.1.val, x.2))
  exact ⟨_, rfl, hnow, (State.composePhase_composed_iff ..).2 (.inr hjudged), fun a => by rw [State.byte, State.byte, hmem]⟩

/-- A running device at tick 0 whose compute window is open although cycle O of the tick has not been judged. No phase leaves
such a state, but `TickPhasesComplete` speaks of every state. -/
def State.openUnjudged : State :=
  { State.reset.setRegN Reg.TCK_STAT 1 with tck := { window := some 0, judged := none } }

/-- Refutes O57: its clause on COMPOSE_STATE asks for an open window and nothing else of cycle O, while the phase composes only
when `judged` names the present tick; in `State.openUnjudged` the command leaves the composition unmade. -/
theorem not_tickPhasesComplete : ¬ Obligations.TickPhasesComplete := by
  unfold Obligations.TickPhasesComplete
  rintro ⟨-, -, -, -, -, compose, -⟩
  obtain ⟨t, hexec, -, hcomposed, -⟩ := compose [] State.openUnjudged rfl rfl
  obtain rfl : State.openUnjudged.composePhase [] = t := Host.Outcome.next.inj hexec
  rcases (State.composePhase_composed_iff _ _).1 hcomposed with hmade | hjudged
  · exact absurd hmade (by decide)
  · exact absurd hjudged (by decide)

end Sys2Proof.Machine
end

section
/-! PROOFS. The standard wiring (R31): each link rotates the low bits of a line's number by one, and the rotations of the same bits
to the right and to the left undo each other. -/

namespace Sys2Proof.Machine

/-- The low `v + 1` bits of a number, rotated to the right. -/
def rotrLow (y v : Nat) : Nat := y / 2 + y % 2 * 2 ^ v

/-- The low `v + 1` bits of a number, rotated to the left. -/
def rotlLow (y v : Nat) : Nat := y * 2 % 2 ^ (v + 1) + y / 2 ^ v

theorem rotrLow_lt {y v : Nat} (hy : y < 2 ^ (v + 1)) : rotrLow y v < 2 ^ (v + 1) := by
  rw [Nat.pow_succ] at *
  rcases Nat.mod_two_eq_zero_or_one y with hbit | hbit <;> rw [rotrLow, hbit] <;> omega

/-- A number below 2 ^ (v + 1) rotated to the left, by its highest bit. -/
theorem rotlLow_eq {y v : Nat} (hy : y < 2 ^ (v + 1)) :
    rotlLow y v = if y < 2 ^ v then y * 2 else (y - 2 ^ v) * 2 + 1 := by
  rw [rotlLow, Nat.pow_succ] at *
  rw [Nat.mul_mod_mul_right]
  split
  · rename_i hlow
    rw [Nat.mod_eq_of_lt hlow, Nat.div_eq_of_lt hlow, Nat.add_zero]
  · rename_i hhigh
    have hle : 2 ^ v ≤ y := Nat.le_of_not_lt hhigh
    rw [Nat.mod_eq_sub_mod hle, Nat.mod_eq_of_lt (by omega), Nat.div_eq_of_lt_le (k := 1) (by omega) (by omega)]

theorem rotlLow_lt {y v : Nat} (hy : y < 2 ^ (v + 1)) : rotlLow y v < 2 ^ (v + 1) := by
  rw [rotlLow_eq hy]
  rw [Nat.pow_succ] at *
  split <;> omega

theorem rotlLow_rotrLow {y v : Nat} (hy : y < 2 ^ (v + 1)) : rotlLow (rotrLow y v) v = y := by
  rw [rotlLow_eq (rotrLow_lt hy)]
  rw [Nat.pow_succ] at hy
  rcases Nat.mod_two_eq_zero_or_one y with hbit | hbit <;> rw [rotrLow, hbit] <;> split <;> omega

theorem rotrLow_rotlLow {y v : Nat} (hy : y < 2 ^ (v + 1)) : rotrLow (rotlLow y v) v = y := by
  rw [rotlLow_eq hy]
  split
  · rw [rotrLow, Nat.mul_mod_left, Nat.mul_div_cancel _ (by decide), Nat.zero_mul, Nat.add_zero]
  · have hbit : ((y - 2 ^ v) * 2 + 1) % 2 = 1 := by omega
    rw [rotrLow, hbit]
    omega

/-- A rotation of the low `v + 1` bits to the right leaves the bits above them. -/
theorem rotr_eq (x v : Nat) : rotr x (v + 1) = 2 ^ (v + 1) * (x / 2 ^ (v + 1)) + rotrLow (x % 2 ^ (v + 1)) v := by
  have hbit : x % 2 ^ (v + 1) % 2 = x % 2 := Nat.mod_mod_of_dvd x ⟨2 ^ v, Nat.pow_succ'⟩
  have hparts := Nat.div_add_mod x (2 ^ (v + 1))
  rw [rotr, rotrLow, hbit, Nat.add_sub_cancel]
  omega

/-- A rotation of the low `v + 1` bits to the left leaves the bits above them. -/
theorem rotl_eq (x v : Nat) : rotl x (v + 1) = 2 ^ (v + 1) * (x / 2 ^ (v + 1)) + rotlLow (x % 2 ^ (v + 1)) v := by
  have hparts := Nat.div_add_mod x (2 ^ (v + 1))
  rw [rotl, rotlLow, Nat.add_sub_cancel]
  omega

theorem rotl_rotr (x v : Nat) : rotl (rotr x (v + 1)) (v + 1) = x := by
  have hx : x % 2 ^ (v + 1) < 2 ^ (v + 1) := Nat.mod_lt x (Nat.two_pow_pos _)
  have hlow := rotrLow_lt hx
  rw [rotl_eq, rotr_eq, Nat.mul_add_div (Nat.two_pow_pos _), Nat.div_eq_of_lt hlow, Nat.mul_add_mod, Nat.mod_eq_of_lt hlow,
    rotlLow_rotrLow hx, Nat.add_zero (x / _),
    Nat.div_add_mod]

theorem rotr_rotl (x v : Nat) : rotr (rotl x (v + 1)) (v + 1) = x := by
  have hx : x % 2 ^ (v + 1) < 2 ^ (v + 1) := Nat.mod_lt x (Nat.two_pow_pos _)
  have hlow := rotlLow_lt hx
  rw [rotr_eq, rotl_eq, Nat.mul_add_div (Nat.two_pow_pos _), Nat.div_eq_of_lt hlow, Nat.mul_add_mod, Nat.mod_eq_of_lt hlow,
    rotrLow_rotlLow hx, Nat.add_zero (x / _),
    Nat.div_add_mod]

theorem rotr_injective (v : Nat) : Function.Injective (rotr · (v + 1)) :=
  Function.LeftInverse.injective (g := (rotl · (v + 1))) (rotl_rotr · v)

theorem rotl_injective (v : Nat) : Function.Injective (rotl · (v + 1)) :=
  Function.LeftInverse.injective (g := (rotr · (v + 1))) (rotr_rotl · v)

/-- What replaces the low `w` bits of an `n`-bit number by other `w` bits gives an `n`-bit number. -/
theorem high_add_low_lt {x low w n : Nat} (hwn : w ≤ n) (hx : x < 2 ^ n) (hlow : low < 2 ^ w) :
    2 ^ w * (x / 2 ^ w) + low < 2 ^ n := by
  have hn : 2 ^ n = 2 ^ w * 2 ^ (n - w) := by rw [← Nat.pow_add, Nat.add_sub_cancel' hwn]
  have hhigh : x / 2 ^ w < 2 ^ (n - w) := Nat.div_lt_of_lt_mul (hn ▸ hx)
  calc 2 ^ w * (x / 2 ^ w) + low < 2 ^ w * (x / 2 ^ w + 1) := by rw [Nat.mul_succ]; omega
    _ ≤ 2 ^ n := hn ▸ Nat.mul_le_mul_left _ hhigh

theorem rotr_lt {x v n : Nat} (hvn : v + 1 ≤ n) (hx : x < 2 ^ n) : rotr x (v + 1) < 2 ^ n := by
  rw [rotr_eq]
  exact high_add_low_lt hvn hx (rotrLow_lt (Nat.mod_lt x (Nat.two_pow_pos _)))

theorem rotl_lt {x v n : Nat} (hvn : v + 1 ≤ n) (hx : x < 2 ^ n) : rotl x (v + 1) < 2 ^ n := by
  rw [rotl_eq]
  exact high_add_low_lt hvn hx (rotlLow_lt (Nat.mod_lt x (Nat.two_pow_pos _)))

/-- Each link of the standard wiring rotates the same low bits of every line, at most all `n` of them: to the right in the first
half of the stages, to the left in the second; of two extra stages, the first rotates all bits to the right and the last to the
left (R31). -/
theorem stdLink_rotates {n e k : Nat} (hn : 2 ≤ n) (he : e = 0 ∨ e = 2) (hk : k < 2 * n - 2 + e) :
    ∃ v, v + 1 ≤ n ∧ (stdLink n e k = (rotr · (v + 1)) ∨ stdLink n e k = (rotl · (v + 1))) := by
  by_cases hfirst : e = 2 ∧ k = 0
  · exact ⟨n - 1, by omega, .inl (by funext x; rw [stdLink, if_pos hfirst, Nat.sub_add_cancel (by omega)])⟩
  by_cases hlast : e = 2 ∧ k = 2 * n - 1
  · exact ⟨n - 1, by omega, .inr (by funext x; rw [stdLink, if_neg hfirst, if_pos hlast, Nat.sub_add_cancel (by omega)])⟩
  -- The link's number among those of a fabric without extra stages.
  obtain ⟨j, hj⟩ : ∃ j, j = if e = 2 then k - 1 else k := ⟨_, rfl⟩
  have hlink (x : Nat) : stdLink n e k x = if j ≤ n - 2 then rotr x (n - j) else rotl x (j + 3 - n) := by
    rw [stdLink, if_neg hfirst, if_neg hlast, hj]
  have hjn : j ≤ 2 * n - 3 := by rw [hj]; split <;> omega
  by_cases hhalf : j ≤ n - 2
  · refine ⟨n - j - 1, by omega, .inl (funext fun x => ?_)⟩
    rw [hlink, if_pos hhalf, Nat.sub_add_cancel (by omega)]
  · refine ⟨j + 2 - n, by omega, .inr (funext fun x => ?_)⟩
    rw [hlink, if_neg hhalf, show j + 2 - n + 1 = j + 3 - n by omega]

/-- Settles O9: a link is a rotation of low bits, which keeps an `n`-bit number one and which the rotation back undoes. -/
theorem standardWiringIsOneToOne : Obligations.StandardWiringIsOneToOne := by
  unfold Obligations.StandardWiringIsOneToOne
  intro n e k hn _ he hk
  obtain ⟨v, hvn, hrot | hrot⟩ := stdLink_rotates (by omega) he hk <;> rw [hrot]
  · exact ⟨fun x => rotr_lt hvn, fun x y _ _ h => rotr_injective v h⟩
  · exact ⟨fun x => rotl_lt hvn, fun x y _ _ h => rotl_injective v h⟩

end Sys2Proof.Machine
end

section
/-! PROOFS. What a load has under way (R41, R196, R212): the topology in force, the two flags that a load runs, its length register
and the result of the descriptor load. Most operations leave all of it. -/

namespace Sys2Proof.Machine

/-- What the loads of the FAB page rest on: the topology in force, the flags of the two loads, FAB_DESC_RES and FAB_IMG_LEN. -/
def State.loadView (s : State) : (Option Topo × Bool × Bool) × Word × Word :=
  ((s.topo, s.rce.descBusy, s.rce.imgBusy), s.reg Reg.FAB_DESC_RES, s.reg Reg.FAB_IMG_LEN)

/-- A register outside the view. -/
def OffLoad (k : Nat) : Prop := k ≠ Reg.FAB_DESC_RES ∧ k ≠ Reg.FAB_IMG_LEN

/-! ### Registers outside the view -/

/-- The pages below FAB hold no register of the view. -/
theorem offLoad_of_lt {k : Nat} (h : k < 0x04050000) : OffLoad k :=
  ⟨Nat.ne_of_lt (Nat.lt_trans h (by decide)), Nat.ne_of_lt (Nat.lt_trans h (by decide))⟩

/-- The common registers of a page are none of the view, which lies behind them. -/
theorem offLoad_cReg (page : Nat) {off : Nat} (h : off < 0x100) : OffLoad (cReg page off) := by
  have hmod : cReg page off % 0x1000 < 0x100 := by unfold cReg; omega
  constructor <;> intro heq <;> rw [heq] at hmod <;> exact absurd hmod (by decide)

theorem offLoad_fltPend {page : Nat} (h : page < 0x4000) : OffLoad (pageWord Reg.FLT_PEND page) := by
  refine offLoad_of_lt (?_ : 0x04006120 + 4 * (page / 32) < 0x04050000)
  omega

theorem offLoad_byv {r n : Nat} (hr : r < 0x04011000) (hn : n < 16) : OffLoad (atInst r n) := by
  refine offLoad_of_lt (?_ : r + n * 0x1000 < 0x04050000)
  omega

theorem pBYV_lt {n : Nat} (hn : n < 16) : pBYV n < 0x4000 := by
  unfold pBYV
  omega

/-! ### Registers and interrupts -/

/-- The view depends on five things alone. -/
theorem State.loadView_congr {s t : State} (htopo : t.topo = s.topo) (hrce : t.rce = s.rce)
    (hreg : ∀ k, ¬ OffLoad k → t.reg k = s.reg k) : t.loadView = s.loadView := by
  rw [loadView, loadView, htopo, hrce, hreg Reg.FAB_DESC_RES fun h => h.1 rfl, hreg Reg.FAB_IMG_LEN fun h => h.2 rfl]

theorem State.loadView_setReg (s : State) {k : Nat} (v : Word) (h : OffLoad k) : (s.setReg k v).loadView = s.loadView :=
  loadView_congr rfl rfl fun _ hj => reg_setReg_other _ _ fun hjk => hj (hjk ▸ h)

theorem State.loadView_setRegN (s : State) {k : Nat} (v : Nat) (h : OffLoad k) : (s.setRegN k v).loadView = s.loadView :=
  s.loadView_setReg _ h

theorem State.loadView_setFld (s : State) {k : Nat} (lo len v : Nat) (h : OffLoad k) :
    (s.setFld k lo len v).loadView = s.loadView :=
  s.loadView_setReg _ h

theorem State.loadView_setBit (s : State) {k : Nat} (i : Nat) (b : Bool) (h : OffLoad k) :
    (s.setBit k i b).loadView = s.loadView :=
  s.loadView_setReg _ h

theorem State.loadView_bump (s : State) {k : Nat} (lo len n : Nat) (h : OffLoad k) : (s.bump k lo len n).loadView = s.loadView :=
  s.loadView_setReg _ h

theorem State.loadView_setReg64 (s : State) {k : Nat} (v : Nat) (h : k + 4 < 0x04050000) :
    (s.setReg64 k v).loadView = s.loadView := by
  rw [setReg64, loadView_setRegN _ _ (offLoad_of_lt h), loadView_setRegN _ _ (offLoad_of_lt (Nat.lt_of_add_right_lt h))]

theorem State.loadView_foldl {α : Type} (f : State → α → State) (l : List α) (s : State)
    (h : ∀ s, ∀ a ∈ l, (f s a).loadView = s.loadView) : (l.foldl f s).loadView = s.loadView :=
  List.foldlRecOn (motive := fun t => t.loadView = s.loadView) l f rfl fun t ht a ha => (h t a ha).trans ht

theorem State.loadView_ite {c : Prop} [Decidable c] {s t u : State} (ht : t.loadView = s.loadView) (hu : u.loadView = s.loadView) :
    (if c then t else u).loadView = s.loadView := by
  split
  · exact ht
  · exact hu

theorem State.loadView_when (s : State) (c : Prop) [Decidable c] (f : State → State) (hf : (f s).loadView = s.loadView) :
    (if c then f s else s).loadView = s.loadView :=
  loadView_ite hf rfl

theorem State.loadView_afterRise (a s : State) {page : Nat} (hp : page < 0x4000) :
    (State.afterRise a s page).loadView = s.loadView :=
  loadView_congr (afterRise_topo ..) (afterRise_rce ..) fun _ hj =>
    reg_afterRise a s (fun hjk => hj (hjk ▸ offLoad_fltPend hp)) (fun hjk => hj (hjk ▸ offLoad_cReg 6 (by decide)))

theorem State.loadView_withSummary (s : State) {page : Nat} (f : State → State) (hp : page < 0x4000)
    (hf : (f s).loadView = s.loadView) : (s.withSummary page f).loadView = s.loadView := by
  unfold withSummary
  dsimp only
  split
  · rw [loadView_afterRise _ _ hp, hf]
  · rw [loadView_afterRise _ _ (by decide), loadView_afterRise _ _ hp, hf]

theorem State.loadView_raise (s : State) {page : Nat} (i : Nat) (hp : page < 0x4000) : (s.raise page i).loadView = s.loadView :=
  s.loadView_withSummary _ hp (s.loadView_setBit _ _ (offLoad_cReg page (by decide)))

theorem State.loadView_raiseIf (s : State) (c : Bool) {page : Nat} (i : Nat) (hp : page < 0x4000) :
    (s.raiseIf c page i).loadView = s.loadView := by
  unfold raiseIf
  split
  · exact s.loadView_raise i hp
  · rfl

/-! ### Faults and refused accesses -/

theorem State.loadView_logEvent (s : State) (page cls code hi lo : Nat) :
    (s.logEvent page cls code hi lo).loadView = s.loadView := by
  have hptr : OffLoad Reg.FLT_HIST_PTR := offLoad_of_lt (by decide)
  have hn : s.fld Reg.FLT_HIST_PTR 0 5 < 32 := fld_lt ..
  have hentry : ∀ i, i < 32 → Reg.FLT_HIST + 32 * s.fld Reg.FLT_HIST_PTR 0 5 + i < 0x04050000 := fun i hi =>
    show 0x04006400 + 32 * s.fld Reg.FLT_HIST_PTR 0 5 + i < 0x04050000 by omega
  unfold logEvent
  dsimp only
  rw [loadView_raise _ _ (by decide)]
  change State.loadView (if _ then _ else _) = _
  rw [apply_ite State.loadView, loadView_bump _ _ _ _ hptr, ite_self, loadView_setBit _ _ _ hptr, loadView_setFld _ _ _ _ hptr,
    loadView_setRegN _ _ (offLoad_of_lt (hentry 28 (by decide))), loadView_setRegN _ _ (offLoad_of_lt (hentry 24 (by decide))),
    loadView_setRegN _ _ (offLoad_of_lt (hentry 20 (by decide))), loadView_setRegN _ _ (offLoad_of_lt (hentry 16 (by decide))),
    loadView_setReg64 _ _ (hentry 12 (by decide)), loadView_setReg64 _ _ (hentry 4 (by decide))]

theorem State.loadView_respond (s : State) (m : Nat) (w : Bool) (addr : Nat) (st : RespStatus) (v : Word) :
    (s.respond m w addr st v).loadView = s.loadView := rfl

theorem State.loadView_violate_read (s : State) (m addr kind : Nat) : (s.violate m false addr kind).loadView = s.loadView := by
  unfold violate
  dsimp only
  rw [loadView_raiseIf _ _ _ (by decide), loadView_respond, logViolation,
    loadView_setRegN _ _ (offLoad_cReg _ (by decide)), loadView_setRegN _ _ (offLoad_cReg _ (by decide))]

theorem State.loadView_decodeErr_read (s : State) (m addr : Nat) : (s.decodeErr m false addr).loadView = s.loadView := by
  unfold decodeErr
  dsimp only
  split
  · rw [loadView_respond, loadView_raise _ _ (by decide), loadView_setRegN _ _ (offLoad_of_lt (by decide)),
      loadView_setRegN _ _ (offLoad_of_lt (by decide))]
  · rw [loadView_violate_read, loadView_raise _ _ (by decide), loadView_setRegN _ _ (offLoad_of_lt (by decide)),
      loadView_setRegN _ _ (offLoad_of_lt (by decide))]

/-! ### Reads of the loader -/

theorem State.loadView_latchHigh (s : State) (m a : Nat) : (s.latchHigh m a).loadView = s.loadView :=
  loadView_foldl _ _ _ fun _ _ _ => rfl

theorem State.loadView_regRead (s : State) (m a : Nat) : (s.regRead m a).loadView = s.loadView := by
  unfold regRead
  refine loadView_ite rfl (loadView_ite (s.loadView_decodeErr_read m a) (loadView_ite rfl (loadView_ite
    (s.loadView_violate_read ..) (loadView_ite (s.loadView_violate_read ..) (loadView_ite (s.loadView_violate_read ..) ?_)))))
  dsimp only
  rw [loadView_when _ _ tick1 rfl, loadView_when _ _ prtSubNext (loadView_setRegN _ _ ⟨by decide, by decide⟩),
    loadView_when _ _ (·.prtSubRead.1) (loadView_setRegN _ _ ⟨by decide, by decide⟩),
    loadView_when _ _ (·.crsActRead.1) (loadView_setRegN _ _ ⟨by decide, by decide⟩), loadView_respond, loadView_latchHigh]

theorem State.loadView_memRead (s : State) (m a : Nat) : (s.memRead m a).loadView = s.loadView := by
  unfold memRead
  split
  · rfl
  · split
    · exact s.loadView_violate_read ..
    · rfl

theorem State.loadView_busRead (s : State) (m a : Nat) : (s.busRead m a).loadView = s.loadView := by
  unfold busRead
  split
  · exact s.loadView_regRead m a
  · exact s.loadView_memRead m a

theorem State.loadView_loaderWord (s : State) (a : Nat) : (s.loaderWord a).1.loadView = s.loadView := by
  unfold loaderWord
  dsimp only
  split
  · rfl
  · split
    · exact s.loadView_busRead 5 a
    · rfl

theorem LoaderRun.loadView_next (r : LoaderRun) (a : Nat) : (r.next a).s.loadView = r.s.loadView := by
  have hword := r.s.loadView_loaderWord a
  unfold next
  split
  · rfl
  · split <;> rename_i heq <;> rw [heq] at hword <;> exact hword

theorem LoaderRun.loadView_read (r : LoaderRun) (a lo hi : Nat) : (r.read a lo hi).s.loadView = r.s.loadView :=
  List.foldlRecOn (motive := fun t => t.s.loadView = r.s.loadView) _ _ rfl fun t ht _ _ =>
    (LoaderRun.loadView_next t _).trans ht

theorem State.loadView_loaderBytes (s : State) (a : Nat) (total : List Byte → Nat) :
    (s.loaderBytes a total).s.loadView = s.loadView := by
  unfold loaderBytes
  dsimp only
  split
  · exact LoaderRun.loadView_read ..
  · exact (LoaderRun.loadView_read ..).trans (LoaderRun.loadView_read ..)

/-- Reading the source of a load leaves what the load rests on. -/
theorem State.loadView_loadSource (s : State) (reg : Nat) (total : List Byte → Nat) (data : List Byte) (busAt : Option Nat) :
    (s.loadSource reg total data busAt).1.loadView = s.loadView := by
  unfold loadSource
  split
  · exact s.loadView_loaderBytes ..
  · rfl

/-! ### The ports under a new descriptor (R42, R82) -/

theorem State.loadView_setPort (s : State) (n : Nat) (f : PortSt → PortSt) : (s.setPort n f).loadView = s.loadView := rfl

theorem State.loadView_setAbsent (s : State) {n : Nat} (b : Bool) (hn : n < 16) : (s.setAbsent n b).loadView = s.loadView := by
  unfold setAbsent
  dsimp only
  rw [loadView_raiseIf _ _ _ (by decide), loadView_setBit _ _ _ (offLoad_byv (by decide) hn)]
  exact loadView_ite rfl rfl

theorem State.loadView_showChange (s : State) {n : Nat} (hn : n < 16) : (s.showChange n).loadView = s.loadView := by
  unfold showChange
  dsimp only
  rw [loadView_setBit _ _ _ (offLoad_byv (by decide) hn)]
  split
  · rw [loadView_setReg _ _ (offLoad_byv (by decide) hn), loadView_setRegN _ _ (offLoad_byv (by decide) hn)]
  · exact s.loadView_setBit _ _ (offLoad_byv (by decide) hn)

theorem State.loadView_announce (s : State) {n : Nat} (t : Tick) (lanes : Nat) (tck : Bool) (hn : n < 16) :
    (s.announce n t lanes tck).loadView = s.loadView := by
  unfold announce
  dsimp only
  rw [loadView_raise _ _ (pBYV_lt hn), loadView_showChange _ hn, loadView_setPort]

theorem State.loadView_withdrawTck (s : State) (k : Tick) : (s.withdrawTck k).loadView = s.loadView := by
  refine loadView_foldl _ _ _ fun t n hn => ?_
  dsimp only
  split
  · rw [loadView_announce _ _ _ _ (List.mem_range.1 hn)]
    exact loadView_ite rfl rfl
  · rfl

theorem State.loadView_tckCancel (s : State) : s.tckCancel.loadView = s.loadView := by
  unfold tckCancel
  dsimp only
  rw [loadView_raiseIf _ _ _ (by decide), setTransition, loadView_setBit _ _ _ (offLoad_of_lt (by decide))]
  exact (s.dropCommit pTCK).loadView_setRegN (k := Reg.TCK_CMT_RES) 6 (offLoad_of_lt (by decide))

theorem State.loadView_tckWatch (s : State) : s.tckWatch.loadView = s.loadView := by
  unfold tckWatch
  split
  · refine loadView_ite ?_ rfl
    rw [loadView_withdrawTck, loadView_tckCancel]
    exact loadView_ite rfl rfl
  · rfl

theorem State.loadView_retire (s : State) {page : Nat} (c code synHi : Nat) (hp : page < 0x4000) :
    (s.retire page c code synHi).loadView = s.loadView := by
  refine loadView_ite rfl ?_
  dsimp only
  rw [loadView_logEvent, loadView_bump _ _ _ _ (offLoad_cReg page (by decide)), loadView_withSummary _ _ hp rfl]
  rfl

theorem State.loadView_laneOut (s : State) {n : Nat} (k : Nat) (hn : n < 16) : (s.laneOut n k).loadView = s.loadView := by
  unfold laneOut
  dsimp only
  rw [loadView_tckWatch, loadView_retire _ _ _ _ (pBYV_lt hn), loadView_setBit _ _ _ (offLoad_byv (by decide) hn),
    loadView_setBit _ _ _ (offLoad_byv (by decide) hn)]

theorem State.loadView_laneBack (s : State) {n : Nat} (k : Nat) (hn : n < 16) : (s.laneBack n k).loadView = s.loadView :=
  s.loadView_setBit _ _ (offLoad_byv (by decide) hn)

theorem State.loadView_portDown (s : State) {n : Nat} (hn : n < 16) : (s.portDown n).loadView = s.loadView := by
  unfold portDown
  dsimp only
  rw [loadView_raise _ _ (pBYV_lt hn), loadView_setPort, loadView_setAbsent _ _ hn, setLanesUp,
    loadView_setFld _ _ _ _ (offLoad_byv (by decide) hn), setPortState, loadView_setFld _ _ _ _ (offLoad_byv (by decide) hn)]

theorem State.loadView_beginAttempt (s : State) {n : Nat} (hn : n < 16) : (s.beginAttempt n).loadView = s.loadView := by
  have hbyv : ∀ {r}, r < 0x04011000 → OffLoad (atInst r n) := fun hr => offLoad_byv hr hn
  unfold beginAttempt
  dsimp only
  refine (loadView_ite (loadView_portDown _ hn) (loadView_setFld _ _ _ _ (hbyv (by decide)))).trans ?_
  rw [loadView_showChange _ hn, showLaneCnt, loadView_setRegN _ _ (hbyv (by decide)), loadView_setPort, lanesOut,
    loadView_foldl _ _ _ fun s _ _ => s.loadView_laneOut _ hn, loadView_foldl _ _ _ fun s _ _ => s.loadView_laneBack _ hn,
    loadView_setAbsent _ _ hn, setLanesUp, loadView_setFld _ _ _ _ (hbyv (by decide))]

theorem State.loadView_topoPorts (s : State) (t : Topo) : (s.topoPorts t).loadView = s.loadView := by
  refine loadView_foldl _ _ _ fun s n hmem => ?_
  have hn : n < 16 := List.mem_range.1 hmem
  have hbyv : ∀ {r}, r < 0x04011000 → OffLoad (atInst r n) := fun hr => offLoad_byv hr hn
  refine loadView_ite (loadView_ite (loadView_ite (s.loadView_setAbsent _ hn) ?_) rfl) ?_
  · exact (loadView_beginAttempt _ hn).trans (s.loadView_setPort _ _)
  · rw [loadView_setAbsent _ _ hn, trainRes, loadView_setRegN _ _ (hbyv (by decide)), setLanesUp,
      loadView_setFld _ _ _ _ (hbyv (by decide)), setPortState, loadView_setFld _ _ _ _ (hbyv (by decide))]

/-! ### A descriptor comes into force (R42, R191, R264) -/

theorem State.loadView_putBytes (s : State) (a : Nat) (l : List Byte) : (s.putBytes a l).loadView = s.loadView := by
  induction l generalizing s a with
  | nil => rfl
  | cons b t ih => exact (ih (s.setByte a b) (a + 1)).trans rfl

theorem State.loadView_setBytes (s : State) (a : Nat) (l : List Byte) : (s.setBytes a l).loadView = s.loadView := by
  unfold setBytes journalMem
  refine Eq.trans ?_ (s.loadView_putBytes a l)
  exact loadView_ite (loadView_foldl _ _ _ fun _ _ _ => rfl) rfl

theorem State.loadView_armSafety (s : State) : s.armSafety.loadView = s.loadView := by
  have hstat : OffLoad Reg.RCE_STAT := ⟨by decide, by decide⟩
  unfold armSafety
  dsimp only
  rw [loadView_raise _ _ (by decide)]
  refine (loadView_ite ?_ rfl).trans (s.loadView_setFld _ _ _ hstat)
  exact loadView_setBit _ _ _ hstat

theorem State.loadView_defaultSafety (s : State) : s.defaultSafety.loadView = s.loadView := by
  unfold defaultSafety
  split
  · exact (loadView_armSafety _).trans (s.loadView_setBytes ..)
  · rfl

theorem State.loadView_clearLols (s : State) : s.clearLols.loadView = s.loadView := by
  refine (loadView_foldl _ _ _ fun s w hw => ?_).trans rfl
  have hw : w < 32 := List.mem_range.1 hw
  rw [loadView_setRegN _ _ (offLoad_of_lt (show 0x0400B300 + 4 * w < 0x04050000 by omega)),
    loadView_setRegN _ _ (offLoad_of_lt (show 0x0400B280 + 4 * w < 0x04050000 by omega))]

theorem State.loadView_mea (s : State) (m : MeaSt) : { s with mea := m }.loadView = s.loadView := rfl

/-- A descriptor that comes into force changes the topology and nothing else of what the loads rest on. -/
theorem State.loadView_installTopo (s : State) (t : Topo) (l : List Byte) :
    (s.installTopo t l).loadView = { s with topo := some t }.loadView := by
  unfold installTopo
  dsimp only
  rw [loadView_raiseIf _ _ _ (by decide), loadView_topoPorts, loadView_mea, loadView_clearLols, loadView_defaultSafety,
    loadView_setBit _ _ _ ⟨by decide, by decide⟩, loadView_setRegN _ _ ⟨by decide, by decide⟩,
    loadView_setRegN _ _ ⟨by decide, by decide⟩]
  rfl

end Sys2Proof.Machine
end

section
/-! PROOFS. The loads of a topology descriptor and of an image begin, end and are aborted (R41, R194 to R196, R212). -/

namespace Sys2Proof.Machine

theorem State.loadView_eq_iff {s t : State} : t.loadView = s.loadView ↔ t.topo = s.topo ∧ t.rce.descBusy = s.rce.descBusy ∧
    t.rce.imgBusy = s.rce.imgBusy ∧ t.reg Reg.FAB_DESC_RES = s.reg Reg.FAB_DESC_RES ∧
    t.reg Reg.FAB_IMG_LEN = s.reg Reg.FAB_IMG_LEN := by
  simp [loadView, and_assoc]

theorem sameMem_of_mem {s t : State} (h : t.mem = s.mem) : SameMem s t := fun a => by rw [State.byte, State.byte, h]

theorem State.bit_gateWrite (s : State) {m a : Nat} {v : Word} (eff : State → State) (h : s.accepts m a v = true) (k i : Nat) :
    (s.gateWrite m a v eff).bit k i = (eff (s.respond m true a .ok 0)).bit k i :=
  congrArg (bitOf · i) (s.reg_gateWrite eff h k)

/-! ### A load begins -/

theorem State.loadDesc_of_idle {s : State} (hdesc : s.rce.descBusy = false) (himg : s.rce.imgBusy = false) :
    s.loadDesc = ({ s with rce := { s.rce with descBusy := true } }).setBit Reg.FAB_STAT 2 true :=
  if_neg (by simp [hdesc, himg])

theorem State.loadImage_of_idle {s : State} (hrole : s.roleActs = true) (hdesc : s.rce.descBusy = false)
    (himg : s.rce.imgBusy = false) :
    s.loadImage = ({ (s.setRegN Reg.FAB_IMG_RES 0).setRegN Reg.FAB_IMG_PROG 0 with
      rce := { s.rce with imgBusy := true } }).setBit Reg.FAB_STAT 3 true := by
  rw [loadImage, if_neg (by simp [hrole]), if_neg (by simp [hdesc, himg])]
  rfl

theorem loadDesc_begins (m : Fin 8) (s : State) (hacc : s.accepts m Reg.FAB_CTRL 1 = true) (hdesc : s.rce.descBusy = false)
    (himg : s.rce.imgBusy = false) :
    Completes (.loadDesc m) s fun t => t.rce.descBusy = true ∧ t.bit Reg.FAB_STAT 2 = true ∧ SameMem s t ∧
      SameRegs s t [Reg.FAB_STAT] := by
  have hload := State.loadDesc_of_idle (s := s.respond m true Reg.FAB_CTRL .ok 0) hdesc himg
  refine ⟨_, rfl, ?_, ?_, sameMem_of_mem ?_, fun k hk => ?_⟩
  · rw [State.gateWrite_rce s _ hacc, hload]
    rfl
  · rw [State.bit_gateWrite s _ hacc, hload, State.bit_setBit _ _ _ _ (by decide), if_pos ⟨rfl, rfl⟩]
  · rw [State.gateWrite_mem s _ hacc, hload]
    rfl
  · rw [State.reg_gateWrite s _ hacc, hload, State.reg_setBit, if_neg (by simpa using hk)]
    rfl

theorem loadImage_begins (m : Fin 8) (s : State) (hacc : s.accepts m Reg.FAB_CTRL 2 = true) (hrole : s.roleActs = true)
    (hdesc : s.rce.descBusy = false) (himg : s.rce.imgBusy = false) :
    Completes (.loadImage m) s fun t => t.rce.imgBusy = true ∧ t.bit Reg.FAB_STAT 3 = true ∧ t.reg Reg.FAB_IMG_RES = 0 ∧
      t.reg Reg.FAB_IMG_PROG = 0 ∧ SameMem s t ∧ SameRegs s t [Reg.FAB_STAT, Reg.FAB_IMG_RES, Reg.FAB_IMG_PROG] := by
  have hload := State.loadImage_of_idle (s := s.respond m true Reg.FAB_CTRL .ok 0) hrole hdesc himg
  have hreg : ∀ k, k ≠ Reg.FAB_STAT → (s.gateWrite m Reg.FAB_CTRL 2 fun s => s.loadImage).reg k =
      if k = Reg.FAB_IMG_PROG then 0 else if k = Reg.FAB_IMG_RES then 0 else s.reg k := fun k hk => by
    rw [State.reg_gateWrite s _ hacc, hload, State.reg_setBit, if_neg hk]
    change State.reg (State.setRegN ..) k = _
    rw [State.reg_setRegN, State.reg_setRegN]
    rfl
  refine ⟨_, rfl, ?_, ?_, hreg _ (by decide), hreg _ (by decide), sameMem_of_mem ?_, fun k hk => ?_⟩
  · rw [State.gateWrite_rce s _ hacc, hload]
    rfl
  · rw [State.bit_gateWrite s _ hacc, hload, State.bit_setBit _ _ _ _ (by decide), if_pos ⟨rfl, rfl⟩]
  · rw [State.gateWrite_mem s _ hacc, hload]
    rfl
  · simp only [List.mem_cons, List.not_mem_nil, or_false, not_or] at hk
    obtain ⟨hstat, hres, hprog⟩ := hk
    rw [hreg k hstat, if_neg hprog, if_neg hres]

/-! ### The load of a descriptor ends -/

/-- The state in which a descriptor load has its result `r`, and its descriptor has yet to come into force. -/
def State.descChecked (s : State) (r : DescRes) : State :=
  (({ s with rce := { s.rce with descBusy := false } }).setBit Reg.FAB_STAT 2 false).setRegN Reg.FAB_DESC_RES
    (r.code + 16 * r.table + 65536 * r.entry)

/-- A descriptor load that is under way ends: with its result, and with the descriptor in force if it passed its checks. -/
theorem State.loadView_descDone {s : State} (data : List Byte) (busAt : Option Nat) (hbusy : s.rce.descBusy = true) :
    (s.descDone data busAt).loadView = { s.descChecked (s.descResult data busAt).1 with
      topo := match (s.descResult data busAt).2 with | some x => some x | none => s.topo }.loadView := by
  have hdone : s.descDone data busAt = (match (s.descResult data busAt).2 with
      | some x => (s.descChecked (s.descResult data busAt).1).installTopo x data
      | none => s.descChecked (s.descResult data busAt).1).raise pFAB 0 := if_neg (by simp [hbusy])
  rw [hdone, loadView_raise _ _ (by decide)]
  cases (s.descResult data busAt).2 with
  | none => rfl
  | some x => exact loadView_installTopo ..

theorem State.bit_descDone {s : State} (data : List Byte) (busAt : Option Nat) (hbusy : s.rce.descBusy = true) :
    (s.descDone data busAt).bit (cReg pFAB OFF_INT_STAT) 0 = true := by
  rw [descDone, if_neg (by simp [hbusy])]
  exact State.bit_raise _ pFAB (by decide)

theorem descLoadDone_ends (data : List Byte) (busAt : Option Nat) (s : State) (hbusy : s.rce.descBusy = true) :
    let src := s.loadSource Reg.FAB_DESC_SRC descTotal data busAt
    let r := src.1.descResult src.2.1 src.2.2
    Completes (.descLoadDone data busAt) s fun t => t.rce.descBusy = false ∧
      t.topo = (match r.2 with | some x => some x | none => s.topo) ∧
      t.reg Reg.FAB_DESC_RES = BitVec.ofNat 32 (r.1.code + 16 * r.1.table + 65536 * r.1.entry) ∧
      t.bit (cReg pFAB OFF_INT_STAT) 0 = true := by
  intro src r
  have hsrc : src.1.loadView = s.loadView := s.loadView_loadSource ..
  obtain ⟨htopo, hdesc, -⟩ := State.loadView_eq_iff.1 hsrc
  have hbusy' : src.1.rce.descBusy = true := hdesc.trans hbusy
  have hread : s.descRead data busAt = src.1.descDone src.2.1 src.2.2 := if_neg (by simp [hbusy])
  obtain ⟨hnew, hend, -, hres, -⟩ := State.loadView_eq_iff.1 (State.loadView_descDone src.2.1 src.2.2 hbusy')
  refine ⟨_, rfl, ?_⟩
  rw [hread, ← htopo]
  exact ⟨hend, hnew, hres.trans (by simp [State.descChecked, r]), State.bit_descDone _ _ hbusy'⟩

/-! ### The load of an image ends -/

/-- The run of an image load: stopped in the header, refused by the header, or the run of its sections (R194 to R196). -/
def State.imageRun (s : State) (img : List Byte) (stop : Option Nat) (why : Nat) : ImgRun :=
  if stop.getD (2 ^ 32) < 0x40 then { s := s, res := some (why, 0) }
  else if (imgHeader img (s.reg Reg.FAB_IMG_LEN).toNat = 0 ∨ imgHeader img (s.reg Reg.FAB_IMG_LEN).toNat = 2) ∧
    stop.getD (2 ^ 32) < 0x40 + 16 * leAt img 6 2 then { s := s, res := some (why, 0) }
  else if imgHeader img (s.reg Reg.FAB_IMG_LEN).toNat ≠ 0 then
    { s := s, res := some (imgHeader img (s.reg Reg.FAB_IMG_LEN).toNat, 0) }
  else ({ s := s } : ImgRun).allSections img (leAt img 8 4) (stop.getD (2 ^ 32)) why (imgSections img)

/-- The end of a run: its result, its progress and the event (R212, R213), as `State.imageEnd` writes them. -/
def ImgRun.finish (r : ImgRun) (why : Nat) : State :=
  let s := ({ r.s with rce := { r.s.rce with imgBusy := false } }).setBit Reg.FAB_STAT 3 false
  let s := match r.res with
    | some (c, d) => s.setRegN Reg.FAB_IMG_RES (c + 256 * d + 65536 * r.secs)
    | none => s.setRegN Reg.FAB_IMG_RES (if why = 0xA then 0xA else 0)
  let s := s.setRegN Reg.FAB_IMG_PROG (r.recs % 65536 * 65536 + r.secs)
  s.raise pFAB 1

theorem State.imageEnd_of_busy {s : State} (img : List Byte) (stop : Option Nat) (why : Nat) (hbusy : s.rce.imgBusy = true) :
    s.imageEnd img stop why = (s.imageRun img stop why).finish why :=
  if_neg (by simp [hbusy])

/-- What FAB_IMG_RES shows of a run that has ended (R212). -/
def ImgRun.shown (r : ImgRun) (why : Nat) : Nat :=
  match r.res with
  | some (c, d) => c + 256 * d + 65536 * r.secs
  | none => if why = 0xA then 0xA else 0

/-- The state at the end of a run but for its event. -/
def ImgRun.closed (r : ImgRun) (why : Nat) : State :=
  ((({ r.s with rce := { r.s.rce with imgBusy := false } }).setBit Reg.FAB_STAT 3 false).setRegN Reg.FAB_IMG_RES
    (r.shown why)).setRegN Reg.FAB_IMG_PROG (r.recs % 65536 * 65536 + r.secs)

theorem ImgRun.finish_eq (r : ImgRun) (why : Nat) : r.finish why = (r.closed why).raise pFAB 1 := by
  unfold finish closed shown
  cases r.res <;> rfl

theorem ImgRun.finish_imgBusy (r : ImgRun) (why : Nat) : (r.finish why).rce.imgBusy = false := by
  rw [finish_eq, State.raise_rce]
  rfl

theorem ImgRun.finish_mem (r : ImgRun) (why : Nat) : (r.finish why).mem = r.s.mem := by
  rw [finish_eq, State.raise_mem]
  rfl

theorem ImgRun.bit_finish (r : ImgRun) (why : Nat) : (r.finish why).bit (cReg pFAB OFF_INT_STAT) 1 = true := by
  rw [finish_eq]
  exact State.bit_raise _ pFAB (by decide)

theorem ImgRun.reg_closed (r : ImgRun) (why k : Nat) (hstat : k ≠ Reg.FAB_STAT) :
    (r.closed why).reg k = if k = Reg.FAB_IMG_PROG then BitVec.ofNat 32 (r.recs % 65536 * 65536 + r.secs)
      else if k = Reg.FAB_IMG_RES then BitVec.ofNat 32 (r.shown why) else r.s.reg k := by
  rw [closed, State.reg_setRegN, State.reg_setRegN, State.reg_setBit, if_neg hstat]
  rfl

theorem ImgRun.reg_finish_res (r : ImgRun) (why : Nat) : (r.finish why).reg Reg.FAB_IMG_RES = BitVec.ofNat 32 (r.shown why) := by
  rw [finish_eq, State.reg_raise _ (by decide), reg_closed _ _ _ (by decide)]
  rfl

theorem ImgRun.reg_finish_prog (r : ImgRun) (why : Nat) :
    (r.finish why).reg Reg.FAB_IMG_PROG = BitVec.ofNat 32 (r.recs % 65536 * 65536 + r.secs) := by
  rw [finish_eq, State.reg_raise _ (by decide), reg_closed _ _ _ (by decide), if_pos rfl]

/-- The registers that the end of a run changes. -/
def imgKeys : List Nat := [Reg.FAB_STAT, Reg.FAB_IMG_RES, Reg.FAB_IMG_PROG] ++ raiseKeys pFAB

theorem ImgRun.reg_finish_other (r : ImgRun) (why : Nat) {k : Nat} (hk : k ∉ imgKeys) : (r.finish why).reg k = r.s.reg k := by
  simp only [imgKeys, List.mem_append, List.mem_cons, List.not_mem_nil, or_false, not_or] at hk
  obtain ⟨⟨hstat, hres, hprog⟩, hraise⟩ := hk
  rw [finish_eq, State.reg_raise _ hraise, reg_closed _ _ _ hstat, if_neg hprog, if_neg hres]

theorem leNat_lt (l : List Byte) : leNat l < 256 ^ l.length := by
  induction l with
  | nil => exact Nat.one_pos
  | cons b t ih =>
    have hb : b.toNat < 256 := b.isLt
    rw [leNat, List.length_cons, Nat.pow_succ]
    omega

theorem leAt_lt (l : List Byte) (o n : Nat) : leAt l o n < 256 ^ n :=
  Nat.lt_of_lt_of_le (leNat_lt _) (Nat.pow_le_pow_right (by decide) (List.length_take_le ..))

/-- An image whose header passes and that has been read whole goes through its sections. -/
theorem State.imageRun_whole {s : State} {img : List Byte} (why : Nat) (hhdr : imgHeader img (s.reg Reg.FAB_IMG_LEN).toNat = 0) :
    s.imageRun img none why = ({ s := s } : ImgRun).allSections img (leAt img 8 4) (2 ^ 32) why (imgSections img) := by
  have hcount := leAt_lt img 6 2
  rw [imageRun, if_neg (by decide), if_neg fun h => absurd h.2 (by simp only [Option.getD_none]; omega), if_neg (fun h => h hhdr)]
  rfl

/-- A load that stops in the first 64 bytes ends with the reason, having written nothing. -/
theorem State.imageRun_short (s : State) (img : List Byte) {n : Nat} (why : Nat) (hn : n < 64) :
    s.imageRun img (some n) why = { s := s, res := some (why, 0) } := if_pos hn

theorem imageLoadDone_ends (data : List Byte) (s : State) (hbusy : s.rce.imgBusy = true) :
    let src := s.loadSource Reg.FAB_IMG_SRC (imgTotal (s.reg Reg.FAB_IMG_LEN).toNat) data none
    src.2.2 = none → imgHeader src.2.1 (s.reg Reg.FAB_IMG_LEN).toNat = 0 →
    let r := ({ s := src.1 } : ImgRun).allSections src.2.1 (leAt src.2.1 8 4) (2 ^ 32) 9 (imgSections src.2.1)
    Completes (.imageLoadDone data none) s fun t => t.rce.imgBusy = false ∧ t.mem = r.s.mem ∧
      t.reg Reg.FAB_IMG_RES = (match r.res with
        | some (c, d) => BitVec.ofNat 32 (c + 256 * d + 65536 * r.secs)
        | none => 0) ∧
      t.bit (cReg pFAB OFF_INT_STAT) 1 = true := by
  intro src hwhole hhdr r
  have hsrc : src.1.loadView = s.loadView := s.loadView_loadSource ..
  obtain ⟨-, -, himg, -, hlen⟩ := State.loadView_eq_iff.1 hsrc
  have hread : s.imageRead data none none = src.1.imageEnd src.2.1 src.2.2 9 := if_neg (by simp [hbusy])
  have hend : s.imageRead data none none = r.finish 9 := by
    rw [hread, hwhole, State.imageEnd_of_busy _ _ _ (himg.trans hbusy), State.imageRun_whole 9 (hlen ▸ hhdr)]
  refine ⟨_, rfl, ?_⟩
  rw [hend]
  refine ⟨r.finish_imgBusy 9, r.finish_mem 9, (r.reg_finish_res 9).trans ?_, r.bit_finish 9⟩
  unfold ImgRun.shown
  cases r.res <;> rfl

/-! ### The load of an image is aborted -/

theorem Completes.imp {c : Instr} {s : State} {P Q : State → Prop} (h : Completes c s P) (hPQ : ∀ t, P t → Q t) :
    Completes c s Q := by
  obtain ⟨t, hexec, hP⟩ := h
  exact ⟨t, hexec, hPQ t hP⟩

/-- A run that stopped for `why` in the first 64 bytes of its image. -/
def ImgRun.stopped (s : State) (why : Nat) : ImgRun := { s := s, res := some (why, 0) }

theorem ImgRun.reg_finish_stopped_prog (s : State) (why : Nat) : ((stopped s why).finish why).reg Reg.FAB_IMG_PROG = 0 := by
  simp [reg_finish_prog, stopped]

/-- An image load aborted within the first 64 bytes stops there, ABORTED, or before, at a read of its source that failed. Only an
internal source is read here, which leaves a state `u` of the same memory (R212). -/
theorem State.imageRead_aborted {s : State} (data : List Byte) {got : Nat} (hbusy : s.rce.imgBusy = true) (hgot : got < 64) :
    ∃ why u, (why = 10 ∨ why = 9 ∧ s.bit (Reg.FAB_IMG_SRC + 4) 31 = true) ∧ u.mem = s.mem ∧
      (s.bit (Reg.FAB_IMG_SRC + 4) 31 = false → u = s) ∧
      s.imageRead data none (some got) = ((ImgRun.stopped u why).finish why).resetMaster 5 := by
  have hview := s.loadView_loadSource Reg.FAB_IMG_SRC (imgTotal (s.reg Reg.FAB_IMG_LEN).toNat) data none
  obtain ⟨-, -, hmem⟩ := s.loadSource_frame Reg.FAB_IMG_SRC (imgTotal (s.reg Reg.FAB_IMG_LEN).toNat) data none
  have hext : s.bit (Reg.FAB_IMG_SRC + 4) 31 = false →
      s.loadSource Reg.FAB_IMG_SRC (imgTotal (s.reg Reg.FAB_IMG_LEN).toNat) data none = (s, data, none) := fun h =>
    if_neg (Bool.eq_false_iff.1 h)
  unfold imageRead
  rw [if_neg (by simp [hbusy])]
  generalize s.loadSource Reg.FAB_IMG_SRC (imgTotal (s.reg Reg.FAB_IMG_LEN).toNat) data none = src at *
  obtain ⟨u, img, failedAt⟩ := src
  obtain ⟨-, -, himg, -⟩ := State.loadView_eq_iff.1 hview
  have hu : s.bit (Reg.FAB_IMG_SRC + 4) 31 = false → u = s := fun h => congrArg Prod.fst (hext h)
  have hstop : ∀ n why, n < 64 → u.imageEnd img (some n) why = (ImgRun.stopped u why).finish why := fun n why hn => by
    rw [imageEnd_of_busy _ _ _ (himg.trans hbusy), imageRun_short _ _ _ hn, ImgRun.stopped]
  cases failedAt with
  | none => exact ⟨10, u, .inl rfl, hmem, hu, congrArg (·.resetMaster 5) (hstop got 10 hgot)⟩
  | some b =>
    by_cases hle : got ≤ b
    · exact ⟨10, u, .inl rfl, hmem, hu, congrArg (·.resetMaster 5) ((if_pos hle).trans (hstop got 10 hgot))⟩
    · have hint : s.bit (Reg.FAB_IMG_SRC + 4) 31 = true := Bool.of_not_eq_false fun h =>
        nomatch congrArg (·.2.2) (hext h)
      exact ⟨9, u, .inr ⟨rfl, hint⟩, hmem, hu, congrArg (·.resetMaster 5) ((if_neg hle).trans (hstop b 9 (by omega)))⟩

theorem State.reg_resetMaster (s : State) (m k : Nat) : (s.resetMaster m).reg k = s.reg k := rfl

theorem State.bit_resetMaster (s : State) (m k i : Nat) : (s.resetMaster m).bit k i = s.bit k i := rfl

theorem abortImage_ends (m : Fin 8) (data : List Byte) {got : Nat} {s : State} (hacc : s.accepts m Reg.FAB_CTRL 4 = true)
    (hbusy : s.rce.imgBusy = true) (hgot : got < 64) :
    Completes (.abortImage m data got) s fun t => t.rce.imgBusy = false ∧
      (t.reg Reg.FAB_IMG_RES = 10 ∨ t.reg Reg.FAB_IMG_RES = 9 ∧ s.bit (Reg.FAB_IMG_SRC + 4) 31 = true) ∧
      t.reg Reg.FAB_IMG_PROG = 0 ∧ t.bit (cReg pFAB OFF_INT_STAT) 1 = true ∧ SameMem s t ∧
      (s.bit (Reg.FAB_IMG_SRC + 4) 31 = false → SameRegs s t imgKeys) := by
  obtain ⟨why, u, hwhy, hmem, hu, hread⟩ := State.imageRead_aborted (s := s.respond m true Reg.FAB_CTRL .ok 0) data hbusy hgot
  have hreg (k : Nat) : (s.gateWrite m Reg.FAB_CTRL 4 fun s => s.imageRead data none (some got)).reg k =
      ((ImgRun.stopped u why).finish why).reg k := by
    rw [State.reg_gateWrite s _ hacc, hread, State.reg_resetMaster]
  refine ⟨_, rfl, ?_, ?_, ?_, ?_, sameMem_of_mem ?_, fun hext k hk => ?_⟩
  · rw [State.gateWrite_rce s _ hacc, hread, State.resetMaster_rce, ImgRun.finish_imgBusy]
  · have hres := (hreg _).trans (ImgRun.reg_finish_res (ImgRun.stopped u why) why)
    obtain rfl | ⟨rfl, hint⟩ := hwhy
    · exact .inl hres
    · exact .inr ⟨hres, hint⟩
  · exact (hreg _).trans (ImgRun.reg_finish_stopped_prog u why)
  · rw [State.bit_gateWrite s _ hacc, hread, State.bit_resetMaster, ImgRun.bit_finish]
  · rw [State.gateWrite_mem s _ hacc, hread, State.resetMaster_mem, ImgRun.finish_mem]
    exact hmem
  · rw [hreg, ImgRun.reg_finish_other _ _ hk, hu hext]
    rfl

/-- Settles O32, clause by clause: the two loads begin, each ends, and the load of an image is aborted. -/
theorem loadCommandsComplete : Obligations.LoadCommandsComplete := by
  unfold Obligations.LoadCommandsComplete
  refine ⟨loadDesc_begins, descLoadDone_ends, loadImage_begins, imageLoadDone_ends, ?_, ?_⟩
  · intro m data got s hacc hbusy hgot hext
    refine (abortImage_ends m data hacc hbusy hgot).imp fun t ⟨hend, hres, hprog, hint, hmem, hregs⟩ => ?_
    have haborted : t.reg Reg.FAB_IMG_RES = 10 := hres.resolve_right fun h => absurd h.2 (Bool.eq_false_iff.1 hext)
    exact ⟨hend, haborted, hprog, hint, hmem, hregs hext⟩
  · intro m data got s hacc hbusy hgot _
    exact (abortImage_ends m data hacc hbusy hgot).imp fun t ⟨hend, hres, hprog, hint, hmem, _⟩ =>
      ⟨hend, hres.imp_right And.left, hprog, hint, hmem⟩

end Sys2Proof.Machine
end

section
/-! PROOFS. The codewords of a downstream frame (R78, R80, R86): how its blocks are cut into codewords, how the symbols of a
codeword go to the lanes, and how many symbols its parity has. -/

namespace Sys2Proof.Machine

/-! ### Blocks into codewords -/

theorem length_fillIdle {l : List Block} (h : l.length ≤ 20) : (fillIdle l).length = 20 := by
  simp [fillIdle, h]

/-- The codewords after the first of a frame: they are full but for the last, and carry the waiting ALIGN, where one of them can,
before the data blocks, all of which they carry. The fuel covers every block. -/
theorem laterCodewords_spec {fuel : Nat} {al : Option Block} {d : List Block} (hfuel : d.length < fuel) :
    (∀ c ∈ laterCodewords fuel al d, c.length ≤ 20) ∧ (∀ c ∈ (laterCodewords fuel al d).dropLast, c.length = 20) ∧
      laterCodewords fuel al d ≠ [] ∧
      (laterCodewords fuel al d).flatten = (if 20 < d.length then al.toList else []) ++ d := by
  induction fuel generalizing al d with
  | zero => omega
  | succ fuel ih =>
    unfold laterCodewords
    by_cases hshort : d.length ≤ 20
    · simp [hshort, Nat.not_lt.2 hshort]
    · have hlong : 20 < d.length := Nat.lt_of_not_le hshort
      rw [if_neg hshort]
      cases al with
      | none =>
        obtain ⟨hle, hfull, hne, hflat⟩ := ih (al := none) (d := d.drop 20) (by rw [List.length_drop]; omega)
        rw [List.dropLast_cons_of_ne_nil hne, List.forall_mem_cons, List.forall_mem_cons, List.flatten_cons, hflat]
        refine ⟨⟨List.length_take_le .., hle⟩, ⟨by rw [List.length_take]; omega, hfull⟩, List.cons_ne_nil _ _, ?_⟩
        simp only [Option.toList_none, ite_self, List.nil_append, List.take_append_drop]
      | some a =>
        obtain ⟨hle, hfull, hne, hflat⟩ := ih (al := none) (d := d.drop 19) (by rw [List.length_drop]; omega)
        rw [List.dropLast_cons_of_ne_nil hne, List.forall_mem_cons, List.forall_mem_cons, List.flatten_cons, hflat]
        refine ⟨⟨Nat.succ_le_succ (List.length_take_le ..), hle⟩, ⟨by rw [List.length_cons, List.length_take]; omega, hfull⟩,
          List.cons_ne_nil _ _, ?_⟩
        simp only [Option.toList_none, Option.toList_some, ite_self, if_pos hlong, List.nil_append, List.cons_append,
          List.take_append_drop]

theorem frameCodewords_of_short (al : Option Block) {d : List Block} (h : d.length ≤ 20) :
    frameCodewords al d = [fillIdle d] := if_pos h

theorem frameCodewords_of_long (al : Option Block) {d : List Block} (h : 20 < d.length) :
    frameCodewords al d = d.take 20 :: laterCodewords d.length al (d.drop 20) := if_neg (Nat.not_le.2 h)

theorem carriesAlign_iff (n : Nat) : carriesAlign n = true ↔ 40 < n := decide_eq_true_iff

/-! ### Symbols onto lanes -/

/-- The symbols of lane `j` of `k`. -/
def laneOf (k j : Nat) (l : List Nat) : List Nat :=
  l.zipIdx.filterMap fun x => if x.2 % k = j then some x.1 else none

theorem laneSymbols_eq (k : Nat) (l : List Nat) : laneSymbols k l = (List.range k).map fun j => laneOf k j l := rfl

/-- Induction on a list from its last element on, as symbols are given out. -/
theorem appendOne_induction {P : List Nat → Prop} (nil : P []) (append_one : ∀ l x, P l → P (l ++ [x])) (l : List Nat) : P l := by
  rw [← List.reverse_reverse l]
  induction l.reverse with
  | nil => exact nil
  | cons x r ih =>
    rw [List.reverse_cons]
    exact append_one _ _ ih

theorem laneOf_append_one (k j : Nat) (l : List Nat) (x : Nat) :
    laneOf k j (l ++ [x]) = laneOf k j l ++ if l.length % k = j then [x] else [] := by
  unfold laneOf
  rw [List.zipIdx_append, List.filterMap_append]
  split <;> simp [*]

/-- The quotient and remainder of a division go up together with the number divided. -/
theorem succ_div_mod {k : Nat} (hk : 0 < k) (n : Nat) :
    (n % k + 1 < k ∧ (n + 1) / k = n / k ∧ (n + 1) % k = n % k + 1) ∨
      (n % k + 1 = k ∧ (n + 1) / k = n / k + 1 ∧ (n + 1) % k = 0) := by
  have hn := Nat.mod_add_div n k
  obtain hlt | heq := Nat.lt_or_eq_of_le (Nat.mod_lt n hk)
  · exact .inl ⟨hlt, (Nat.div_mod_unique hk).2 ⟨by omega, hlt⟩⟩
  · exact .inr ⟨heq, (Nat.div_mod_unique hk).2 ⟨by rw [Nat.mul_succ]; omega, hk⟩⟩

/-- Each round of `k` symbols gives one to every lane, and the last round, if it is not full, one to the lowest of them. -/
theorem length_laneOf {k j : Nat} (hj : j < k) (l : List Nat) :
    (laneOf k j l).length = l.length / k + if j < l.length % k then 1 else 0 := by
  have hk : 0 < k := Nat.zero_lt_of_lt hj
  induction l using appendOne_induction with
  | nil => simp [laneOf]
  | append_one l x ih =>
    have hone : (if l.length % k = j then [x] else []).length = if l.length % k = j then 1 else 0 := by
      split <;> rfl
    rw [laneOf_append_one, List.length_append, List.length_append, ih, List.length_singleton, hone]
    obtain ⟨hround, hdiv, hmod⟩ | ⟨hround, hdiv, hmod⟩ := succ_div_mod hk l.length
    · rw [hdiv, hmod]
      repeat' split
      all_goals omega
    · rw [hdiv, hmod]
      repeat' split
      all_goals omega

theorem laneOf_getD {k : Nat} (hk : 0 < k) {l : List Nat} {i : Nat} (hi : i < l.length) :
    (laneOf k (i % k) l).getD (i / k) 0 = l.getD i 0 := by
  have hj : i % k < k := Nat.mod_lt i hk
  induction l using appendOne_induction with
  | nil => simp at hi
  | append_one l x ih =>
    have hlen := length_laneOf hj l
    rw [laneOf_append_one]
    obtain hlt | rfl := Nat.lt_or_eq_of_le (Nat.le_of_lt_succ (by simpa using hi))
    · have hpos : i / k < (laneOf k (i % k) l).length := by
        have hi' := Nat.mod_add_div i k
        have hl := Nat.mod_add_div l.length k
        obtain hround | hround := Nat.lt_or_eq_of_le (Nat.div_le_div_right (c := k) (Nat.le_of_lt hlt))
        · exact hlen ▸ Nat.lt_add_right _ hround
        · rw [hround] at hi'
          rw [hlen, if_pos (by omega), hround]
          exact Nat.lt_succ_self _
      rw [List.getD_eq_getElem?_getD, List.getD_eq_getElem?_getD, List.getElem?_append_left hpos, List.getElem?_append_left hlt,
        ← List.getD_eq_getElem?_getD, ← List.getD_eq_getElem?_getD, ih hlt]
    · rw [if_neg (Nat.lt_irrefl _), Nat.add_zero] at hlen
      rw [if_pos rfl, List.getD_eq_getElem?_getD, List.getD_eq_getElem?_getD,
        List.getElem?_append_right (Nat.le_of_eq hlen), List.getElem?_append_right (Nat.le_refl _), hlen, Nat.sub_self, Nat.sub_self]

/-! ### Parity -/

theorem length_timesRoot (c : Nat) (p : List Nat) : (timesRoot c p).length = p.length + 1 := by
  simp [timesRoot]

theorem length_rsGenerator : rsGenerator.length = 30 := by
  have hgrow : ∀ n, ((List.range n).foldl (fun (s : Nat × List Nat) _ => (gfMul 10 2 s.1, timesRoot s.1 s.2)) (1, [1])).2.length =
      n + 1 := fun n => by
    induction n with
    | zero => rfl
    | succ n ih => rw [List.range_succ, List.foldl_append, List.foldl_cons, List.foldl_nil, length_timesRoot, ih]
  rw [rsGenerator, List.length_drop, hgrow]

theorem length_rsParity (m : List Nat) : (rsParity m).length = 30 := by
  refine List.foldlRecOn (motive := fun r : List Nat => r.length = 30) m _ List.length_replicate fun r hr x _ => ?_
  simp [hr, length_rsGenerator]

/-- Settles O15: the cut into codewords, by induction on the blocks still to come, the lanes, by induction on the symbols from the
last on, and the length of the parity, which each symbol keeps. -/
theorem codewordsOfAFrame : Obligations.CodewordsOfAFrame := by
  unfold Obligations.CodewordsOfAFrame
  refine ⟨fun al d hne => ?_, fun k l hk => ⟨by simp [laneSymbols_eq], fun i hi => ?_⟩, length_rsParity⟩
  · intro cw
    by_cases hshort : d.length ≤ 20
    · have hcw : cw = [fillIdle d] := frameCodewords_of_short al hshort
      have hhead : (fillIdle d).head? = d.head? := by
        obtain ⟨b, e, rfl⟩ := List.exists_cons_of_ne_nil hne
        rfl
      rw [hcw]
      exact ⟨by simp [length_fillIdle hshort], by simp, hhead, fun _ => rfl, fun h => absurd hshort (Nat.not_le.2 h)⟩
    · have hlong : 20 < d.length := Nat.lt_of_not_le hshort
      have hcw : cw = d.take 20 :: laterCodewords d.length al (d.drop 20) := frameCodewords_of_long al hlong
      obtain ⟨hle, hfull, hlater, hflat⟩ := laterCodewords_spec (al := al) (d := d.drop 20) (fuel := d.length)
        (by rw [List.length_drop]; omega)
      have hcarries : 20 < (d.drop 20).length ↔ carriesAlign d.length = true := by
        rw [carriesAlign_iff, List.length_drop]
        omega
      rw [hcw, List.dropLast_cons_of_ne_nil hlater]
      refine ⟨?_, ?_, ?_, fun h => absurd h hshort, fun _ => ?_⟩
      · exact List.forall_mem_cons.2 ⟨List.length_take_le .., hle⟩
      · exact List.forall_mem_cons.2 ⟨by rw [List.length_take]; omega, hfull⟩
      · rw [List.headD_cons, List.head?_take, if_neg (by decide)]
      · rw [List.flatten_cons, hflat, List.append_assoc]
        simp only [hcarries]
  · rw [laneSymbols_eq, List.getD_eq_getElem?_getD (l := List.map ..), List.getElem?_map, List.getElem?_range (Nat.mod_lt i hk)]
    exact laneOf_getD hk hi

end Sys2Proof.Machine
end

section
/-! PROOFS. What the operations of the Byevo ports leave of a port: LANE_EN of BYV_CTRL, as it is shown and as it is in force, and what
the port holds but for its announcements (R82, R105, R112). -/

namespace Sys2Proof.Machine

/-! ### Registers and events -/

theorem State.port_of_ports {s t : State} (h : t.ports = s.ports) (n : Nat) : t.port n = s.port n := by
  rw [port, port, h]

theorem State.port_setPort_same (s : State) (n : Nat) (f : PortSt → PortSt) : (s.setPort n f).port n = f (s.port n) :=
  Sparse.get_put_same ..

theorem State.port_setPort_other (s : State) {n i : Nat} (f : PortSt → PortSt) (h : i ≠ n) : (s.setPort n f).port i = s.port i :=
  Sparse.get_put_other _ _ _ h _

theorem State.portState_setPortState (s : State) (n st : Nat) : (s.setPortState n st).portState n = st % 16 :=
  s.fld_setFld_same (by decide)

theorem State.fld_of_reg {s t : State} {k : Nat} (h : t.reg k = s.reg k) (lo len : Nat) : t.fld k lo len = s.fld k lo len :=
  congrArg (Machine.fld · lo len) h

theorem State.bit_of_reg {s t : State} {k : Nat} (h : t.reg k = s.reg k) (i : Nat) : t.bit k i = s.bit k i :=
  congrArg (bitOf · i) h

/-- The registers that an event changes lie in the FLT page and in the common part of the event's page. -/
theorem not_mem_raiseKeys {page k : Nat} (hp : page < 0x4000) (hflt : k < 0x04006000 ∨ 0x04007000 ≤ k) (hk : 0x100 ≤ k % 0x1000) :
    k ∉ raiseKeys page := by
  have hkeys : raiseKeys page = [0x04000000 + page * 0x1000 + 0x10, 0x04006120 + 4 * (page / 32), 0x04006010, 0x04006120] := rfl
  simp only [hkeys, List.mem_cons, List.not_mem_nil, or_false, not_or]
  omega

/-- A change of a page's summaries touches no register but those of an event and those that the change itself touches. -/
theorem State.reg_withSummary (s : State) {page k : Nat} {f : State → State} (hk : k ∉ raiseKeys page)
    (hf : (f s).reg k = s.reg k) : (s.withSummary page f).reg k = s.reg k := by
  simp only [raiseKeys, List.mem_cons, List.not_mem_nil, or_false, not_or] at hk
  obtain ⟨-, hpend, hstat, hpend6⟩ := hk
  unfold withSummary
  dsimp only
  split
  · rw [reg_afterRise _ _ hpend hstat, hf]
  · rw [reg_afterRise _ _ hpend6 hstat, reg_afterRise _ _ hpend hstat, hf]

/-- The history queue lies in the FLT page. -/
theorem State.reg_logEvent (s : State) (page cls code hi lo : Nat) {k : Nat} (hk : k < 0x04006000 ∨ 0x04007000 ≤ k) :
    (s.logEvent page cls code hi lo).reg k = s.reg k := by
  have hn : s.fld Reg.FLT_HIST_PTR 0 5 < 32 := fld_lt ..
  have hptr : k ≠ Reg.FLT_HIST_PTR := fun h => by rw [h] at hk; exact absurd hk (by decide)
  have hentry : ∀ i, i < 32 → k ≠ Reg.FLT_HIST + 32 * s.fld Reg.FLT_HIST_PTR 0 5 + i := fun i hi heq => by
    change k = 0x04006400 + _ + i at heq
    omega
  have hraise : k ∉ raiseKeys 6 := fun h => by
    have hkeys : raiseKeys 6 = [0x04006010, 0x04006120, 0x04006010, 0x04006120] := rfl
    simp only [hkeys, List.mem_cons, List.not_mem_nil, or_false] at h
    omega
  unfold logEvent
  dsimp only
  rw [reg_raise _ hraise]
  change State.reg (if _ then _ else _) k = _
  rw [apply_ite (State.reg · k), reg_bump, if_neg hptr, ite_self, reg_setBit, if_neg hptr, reg_setFld, if_neg hptr]
  simp only [setReg64, reg_setRegN, Nat.add_assoc, Nat.reduceAdd]
  simp only [← Nat.add_assoc, hentry, ↓reduceIte, Nat.reduceLT]
  exact if_neg (hentry 0 (by decide))

theorem State.reg_retire (s : State) {page : Nat} (c code synHi : Nat) {k : Nat} (hk : k < 0x04006000 ∨ 0x04007000 ≤ k)
    (hraise : k ∉ raiseKeys page) (hcnt : k ≠ cReg page OFF_FAULT_CNT) : (s.retire page c code synHi).reg k = s.reg k := by
  unfold retire retireInTick
  split
  · rfl
  · dsimp only
    rw [reg_logEvent _ _ _ _ _ _ hk, reg_bump, if_neg hcnt, reg_withSummary _ hraise rfl, reg_notDue]

/-! ### LANE_EN and the ports but for their announcements -/

/-- BYV_CTRL of port `n` as it is shown, and what is in force. -/
def State.ctrlView (s : State) (n : Nat) : Sparse Word × Word := (s.force, s.reg (atInst Reg.BYV_CTRL n))

/-- That, and what the port holds but for its announcements. -/
def State.laneView (s : State) (n : Nat) : (Sparse Word × Word) × PortSt := (s.ctrlView n, { s.port n with ann := [] })

/-- A register other than BYV_CTRL of every port. -/
def OffCtrl (k : Nat) : Prop := k % 0x1000 ≠ 0x100 ∨ k < 0x04010000

theorem atInst_ctrl_ne {k n : Nat} (h : OffCtrl k) : atInst Reg.BYV_CTRL n ≠ k := by
  have hctrl : atInst Reg.BYV_CTRL n = 0x04010100 + n * 0x1000 := rfl
  rintro rfl
  obtain hoff | hlow := h <;> omega

/-- No other register of a Byevo page stands at the offset of BYV_CTRL. -/
theorem offCtrl_atInst {r : Nat} (n : Nat) (h : r % 0x1000 ≠ 0x100) : OffCtrl (atInst r n) := by
  unfold atInst
  exact .inl (by omega)

theorem ctrl_not_mem_raiseKeys {page : Nat} (n : Nat) (hp : page < 0x4000) : atInst Reg.BYV_CTRL n ∉ raiseKeys page := by
  have hctrl : atInst Reg.BYV_CTRL n = 0x04010100 + n * 0x1000 := rfl
  exact not_mem_raiseKeys hp (.inr (by omega)) (by omega)

variable {s t : State} {n i : Nat}

theorem State.ctrlView_congr (hforce : t.force = s.force) (hreg : t.reg (atInst Reg.BYV_CTRL n) = s.reg (atInst Reg.BYV_CTRL n)) :
    t.ctrlView n = s.ctrlView n := by
  rw [ctrlView, ctrlView, hforce, hreg]

theorem State.laneView_congr (hctrl : t.ctrlView n = s.ctrlView n) (hports : t.ports = s.ports) : t.laneView n = s.laneView n := by
  rw [laneView, laneView, hctrl, port_of_ports hports]

theorem State.ctrlView_of_laneView (h : t.laneView n = s.laneView n) : t.ctrlView n = s.ctrlView n := congrArg Prod.fst h

theorem State.laneView_ite {c : Prop} [Decidable c] {u : State} (ht : t.laneView n = s.laneView n) (hu : u.laneView n = s.laneView n) :
    (if c then t else u).laneView n = s.laneView n := by
  split
  · exact ht
  · exact hu

theorem State.ctrlView_ite {c : Prop} [Decidable c] {u : State} (ht : t.ctrlView n = s.ctrlView n) (hu : u.ctrlView n = s.ctrlView n) :
    (if c then t else u).ctrlView n = s.ctrlView n := by
  split
  · exact ht
  · exact hu

theorem State.laneView_setReg (s : State) {k : Nat} (v : Word) (h : OffCtrl k) : (s.setReg k v).laneView n = s.laneView n :=
  laneView_congr (ctrlView_congr rfl (reg_setReg_other _ _ (atInst_ctrl_ne h))) rfl

theorem State.laneView_setFld (s : State) {k : Nat} (lo len v : Nat) (h : OffCtrl k) :
    (s.setFld k lo len v).laneView n = s.laneView n :=
  s.laneView_setReg _ h

theorem State.laneView_setBit (s : State) {k : Nat} (i : Nat) (b : Bool) (h : OffCtrl k) :
    (s.setBit k i b).laneView n = s.laneView n :=
  s.laneView_setReg _ h

theorem State.laneView_raise (s : State) {page : Nat} (i : Nat) (hp : page < 0x4000) :
    (s.raise page i).laneView n = s.laneView n :=
  laneView_congr (ctrlView_congr (raise_force ..) (reg_raise s (ctrl_not_mem_raiseKeys n hp))) (raise_ports ..)

theorem State.laneView_raiseIf (s : State) (c : Bool) {page : Nat} (i : Nat) (hp : page < 0x4000) :
    (s.raiseIf c page i).laneView n = s.laneView n := by
  exact laneView_ite (s.laneView_raise i hp) rfl

theorem State.laneView_retire (s : State) {page : Nat} (c code synHi : Nat) (hp : page < 0x4000) :
    (s.retire page c code synHi).laneView n = s.laneView n := by
  have hctrl : atInst Reg.BYV_CTRL n = 0x04010100 + n * 0x1000 := rfl
  refine laneView_congr (ctrlView_congr (retire_force ..) ?_) (retire_ports ..)
  refine reg_retire _ _ _ _ (.inr (by omega)) (ctrl_not_mem_raiseKeys n hp) (atInst_ctrl_ne (.inl ?_))
  change (0x04000000 + page * 0x1000 + 0x30) % 0x1000 ≠ 0x100
  omega

/-- Announcements of any port are no part of the view. -/
theorem State.laneView_setAnn (s : State) (f : PortSt → List Announce) :
    (s.setPort i fun p => { p with ann := f p }).laneView n = s.laneView n := by
  refine Prod.ext rfl (?_ : { (s.setPort i _).port n with ann := [] } = { s.port n with ann := [] })
  by_cases hi : n = i
  · subst hi
    rw [port_setPort_same]
  · rw [port_setPort_other _ _ hi]

theorem State.laneView_foldl {α : Type} (f : State → α → State) (l : List α) (s : State)
    (h : ∀ s, ∀ a ∈ l, (f s a).laneView n = s.laneView n) : (l.foldl f s).laneView n = s.laneView n :=
  List.foldlRecOn (motive := fun t => t.laneView n = s.laneView n) l f rfl fun t ht a ha => (h t a ha).trans ht

/-! ### Announcements -/

theorem State.laneView_showChange (s : State) : (s.showChange i).laneView n = s.laneView n := by
  unfold showChange
  dsimp only
  rw [laneView_setBit _ _ _ (offCtrl_atInst i (by decide))]
  split
  · rw [laneView_setReg _ _ (offCtrl_atInst i (by decide)), setRegN, laneView_setReg _ _ (offCtrl_atInst i (by decide))]
  · exact s.laneView_setBit _ _ (offCtrl_atInst i (by decide))

theorem State.laneView_announce (s : State) (t : Tick) (lanes : Nat) (tck : Bool) (hi : i < 16) :
    (s.announce i t lanes tck).laneView n = s.laneView n := by
  unfold announce
  dsimp only
  rw [laneView_raise _ _ (pBYV_lt hi), laneView_showChange, laneView_setAnn]

theorem State.laneView_announcePending (s : State) (lanes : Nat) (hi : i < 16) :
    (s.announcePending lanes i).laneView n = s.laneView n := by
  unfold announcePending announceTckOn
  split
  · exact laneView_ite (laneView_ite (s.laneView_announce _ _ _ hi) rfl) rfl
  · rfl

theorem State.laneView_announceLanes (s : State) (lanes : Nat) (hi : i < 16) :
    (s.announceLanes i lanes).laneView n = s.laneView n :=
  (laneView_announce _ _ _ _ hi).trans (s.laneView_announcePending lanes hi)

theorem State.laneView_withdrawTck (s : State) (k : Tick) : (s.withdrawTck k).laneView n = s.laneView n := by
  refine laneView_foldl _ _ _ fun t i hi => ?_
  dsimp only
  split
  · rw [laneView_announce _ _ _ _ (List.mem_range.1 hi)]
    exact laneView_ite (t.laneView_setAnn _) rfl
  · rfl

theorem State.laneView_tckCancel (s : State) : s.tckCancel.laneView n = s.laneView n := by
  unfold tckCancel
  dsimp only
  rw [laneView_raiseIf _ _ _ (by decide), setTransition, laneView_setBit _ _ _ (.inr (by decide))]
  exact (s.dropCommit pTCK).laneView_setReg (k := Reg.TCK_CMT_RES) _ (.inr (by decide))

theorem State.laneView_tckWatch (s : State) : s.tckWatch.laneView n = s.laneView n := by
  unfold tckWatch
  split
  · refine laneView_ite ?_ rfl
    rw [laneView_withdrawTck, laneView_tckCancel]
    exact laneView_ite rfl rfl
  · rfl

/-! ### Lanes -/

theorem State.laneView_laneOut (s : State) (k : Nat) (hi : i < 16) : (s.laneOut i k).laneView n = s.laneView n := by
  unfold laneOut
  dsimp only
  rw [laneView_tckWatch, laneView_retire _ _ _ _ (pBYV_lt hi), laneView_setBit _ _ _ (offCtrl_atInst i (by decide)),
    laneView_setBit _ _ _ (offCtrl_atInst i (by decide))]

theorem State.laneView_lanesOut (s : State) (m : Nat) (hi : i < 16) : (s.lanesOut i m).laneView n = s.laneView n :=
  laneView_foldl _ _ _ fun s k _ => s.laneView_laneOut k hi

theorem State.laneView_setAbsent (s : State) (b : Bool) : (s.setAbsent i b).laneView n = s.laneView n := by
  unfold setAbsent
  dsimp only
  rw [laneView_raiseIf _ _ _ (by decide), laneView_setBit _ _ _ (offCtrl_atInst i (by decide))]
  exact laneView_ite rfl rfl

theorem State.ctrlView_setPort (s : State) (f : PortSt → PortSt) : (s.setPort i f).ctrlView n = s.ctrlView n := rfl

theorem State.ctrlView_portDown (s : State) (hi : i < 16) : (s.portDown i).ctrlView n = s.ctrlView n := by
  have hstat : OffCtrl (atInst Reg.BYV_STAT i) := offCtrl_atInst i (by decide)
  unfold portDown
  dsimp only
  rw [ctrlView_of_laneView (laneView_raise _ _ (pBYV_lt hi)), ctrlView_setPort,
    ctrlView_of_laneView (laneView_setAbsent _ _), setLanesUp, ctrlView_of_laneView (laneView_setFld _ _ _ _ hstat), setPortState,
    ctrlView_of_laneView (laneView_setFld _ _ _ _ hstat)]

theorem State.ctrlView_markShort (s : State) : (s.markShort i).ctrlView n = s.ctrlView n := by
  refine ctrlView_ite ?_ rfl
  rw [ctrlView_of_laneView (laneView_raise _ _ (by decide)), ctrlView_of_laneView (laneView_setBit _ _ _ (.inr (by decide))),
    ctrlView_of_laneView (laneView_setAbsent _ _), ctrlView_setPort]

/-- A lane that retires leaves LANE_EN. -/
theorem State.ctrlView_laneRetire (s : State) (k : Nat) (hi : i < 16) : (s.laneRetire i k).ctrlView n = s.ctrlView n := by
  have hout (s : State) (k : Nat) : (s.laneOut i k).ctrlView n = s.ctrlView n := ctrlView_of_laneView (s.laneView_laneOut k hi)
  have hraised (both : Bool) : ((if both then (s.laneOut i k).laneOut i (1 - k) else s.laneOut i k).raise (pBYV i) 1).ctrlView n =
      s.ctrlView n := by
    rw [ctrlView_of_laneView (laneView_raise _ _ (pBYV_lt hi))]
    exact ctrlView_ite ((hout ..).trans (hout ..)) (hout ..)
  refine ctrlView_ite rfl (ctrlView_ite ?_ (ctrlView_ite ?_ ?_))
  · exact (ctrlView_portDown _ hi).trans (hraised _)
  · exact (ctrlView_markShort _).trans ((ctrlView_of_laneView (laneView_announceLanes _ _ hi)).trans (hraised _))
  · exact hraised _

theorem State.ctrlView_laneEnTakes (s : State) (hi : i < 16) : (s.laneEnTakes i).ctrlView n = s.ctrlView n :=
  List.foldlRecOn (motive := fun t : State => t.ctrlView n = s.ctrlView n) _ _ rfl fun t ht k _ =>
    (t.ctrlView_laneRetire k hi).trans ht

end Sys2Proof.Machine
end

section
/-! PROOFS. What leaves a Byevo port or the mirror link (R78 to R80, R415): an ALIGN or a control block in one codeword. -/

namespace Sys2Proof.Machine

variable {s t u : State} {n : Nat}

theorem State.port_emit (s : State) (o : Out) (i : Nat) : (s.emit o).port i = s.port i := rfl

theorem State.port_emitTrain_one (s : State) (n lanes : Nat) (l : List Block) (i : Nat) :
    (s.emitTrain n [(lanes, l)]).port i = s.port i := rfl

/-- A port whose ALIGN of counter `c` has left. -/
def PortSt.alignSent (p : PortSt) (c : Nat) : PortSt := { p with alignWait := false, alignTx := c }

theorem State.takeAlign_of_wait (h : (s.port n).alignWait = true) :
    s.takeAlign n = ((s.setPort n (·.alignSent (((s.port n).alignTx + 1) % 65536))).emit
      (.align n (((s.port n).alignTx + 1) % 65536) (s.port n).lanesTx),
      some (alignBlock (((s.port n).alignTx + 1) % 65536) (s.port n).lanesTx)) :=
  if_neg (by simp [h])

theorem State.takeAlign_of_none (h : (s.port n).alignWait = false) : s.takeAlign n = (s, none) := if_pos (by simp [h])

/-- An ALIGN that waits concerns the port and the outputs alone. -/
theorem State.reg_takeAlign (s : State) (n k : Nat) : (s.takeAlign n).1.reg k = s.reg k := by
  unfold takeAlign
  dsimp only
  split <;> rfl

theorem State.squelched_takeAlign (s : State) (n i : Nat) : (s.takeAlign n).1.squelched i = s.squelched i := by
  unfold takeAlign
  dsimp only
  split <;> rfl

/-- What of a port an ALIGN that leaves it does not concern. -/
def PortSt.sansAlign (p : PortSt) : PortSt := { p with alignWait := false, alignTx := 0 }

theorem State.port_takeAlign (s : State) (n : Nat) : ((s.takeAlign n).1.port n).sansAlign = (s.port n).sansAlign := by
  by_cases h : (s.port n).alignWait = true
  · rw [takeAlign_of_wait h, port_emit, port_setPort_same]
    rfl
  · rw [takeAlign_of_none (Bool.eq_false_iff.2 h)]

/-- The ALIGN that leaves a port depends on three fields of the port. -/
theorem State.takeAlign_congr (hwait : (t.port n).alignWait = (s.port n).alignWait) (hcount : (t.port n).alignTx = (s.port n).alignTx)
    (hlanes : (t.port n).lanesTx = (s.port n).lanesTx) (houts : t.outs = s.outs) :
    (t.takeAlign n).2 = (s.takeAlign n).2 ∧ (t.takeAlign n).1.outs = (s.takeAlign n).1.outs := by
  by_cases h : (s.port n).alignWait = true
  · rw [takeAlign_of_wait h, takeAlign_of_wait (hwait.trans h), hcount, hlanes]
    exact ⟨rfl, congrArg (_ :: ·) houts⟩
  · have h' := Bool.eq_false_iff.2 h
    rw [takeAlign_of_none h', takeAlign_of_none (hwait.trans h')]
    exact ⟨rfl, houts⟩

/-! ### Control blocks -/

theorem State.sendControl_of_unsquelched (b : Block) (o : Out) (h : s.squelched n = false) :
    s.sendControl n b o = ((s.takeAlign n).1.emitTrain n
      [((s.port n).lanesTx, fillIdle ((s.takeAlign n).2.toList ++ [b]))]).emit o := by
  have htake : ¬ (s.takeAlign n).1.squelched n = true := by simp [squelched_takeAlign, h]
  rw [sendControl, if_neg (by simp [h])]
  dsimp only
  rw [sendCodewords, if_neg htake]

theorem State.sentControl_sendControl (b : Block) (o : Out) (h : s.squelched n = false) :
    SentControl s (s.sendControl n b o) n b o := by
  rw [sendControl_of_unsquelched b o h]
  exact ⟨_, rfl⟩

theorem State.reg_sendControl (b : Block) (o : Out) (h : s.squelched n = false) (k : Nat) :
    (s.sendControl n b o).reg k = s.reg k := by
  rw [sendControl_of_unsquelched b o h]
  exact s.reg_takeAlign n k

theorem State.port_sendControl (b : Block) (o : Out) (h : s.squelched n = false) :
    ((s.sendControl n b o).port n).sansAlign = (s.port n).sansAlign := by
  rw [sendControl_of_unsquelched b o h]
  exact s.port_takeAlign n

/-- What has been sent since a state has been sent since any other with the same outputs and the same ALIGN waiting. -/
theorem SentControl.of_congr {b : Block} {o : Out} (h : SentControl t u n b o)
    (htake : (t.takeAlign n).2 = (s.takeAlign n).2 ∧ (t.takeAlign n).1.outs = (s.takeAlign n).1.outs) : SentControl s u n b o := by
  obtain ⟨sym, hsym⟩ := h
  rw [htake.1, htake.2] at hsym
  exact ⟨sym, hsym⟩

/-- An ECHO_REQ leaves a port after a change of what the port keeps of its exchanges (R85). -/
theorem State.echoReq_leaves (f : PortSt → PortSt) (q : Nat) (hf : (f (s.port n)).alignWait = (s.port n).alignWait ∧
      (f (s.port n)).alignTx = (s.port n).alignTx ∧ (f (s.port n)).lanesTx = (s.port n).lanesTx) (h : s.squelched n = false) :
    SentControl s ((s.setPort n f).sendEchoReq n q) n (echoReqBlock q) (.echoReq n q (s.lowLane n)) ∧
      (((s.setPort n f).sendEchoReq n q).port n).sansAlign = (f (s.port n)).sansAlign ∧
      SameRegs s ((s.setPort n f).sendEchoReq n q) [] := by
  have hport := s.port_setPort_same n f
  have hsq : (s.setPort n f).squelched n = false := h
  obtain ⟨hwait, hcount, hlanes⟩ := hf
  refine ⟨(sentControl_sendControl _ _ hsq).of_congr (takeAlign_congr ?_ ?_ ?_ rfl), ?_, fun k _ => reg_sendControl _ _ hsq k⟩
  · rw [hport, hwait]
  · rw [hport, hcount]
  · rw [hport, hlanes]
  · rw [sendEchoReq, port_sendControl _ _ hsq, hport]

/-! ### ALIGN -/

/-- A port on which an ALIGN is due. -/
def PortSt.alignDue (p : PortSt) : PortSt := { p with alignWait := true }

/-- An ALIGN is due on port `n`. -/
def State.alignDue (s : State) (n : Nat) : State := s.setPort n PortSt.alignDue

theorem State.port_alignDue (s : State) (n : Nat) : (s.alignDue n).port n = (s.port n).alignDue := s.port_setPort_same n _

theorem State.takeAlign_alignDue (s : State) (n : Nat) :
    (s.alignDue n).takeAlign n = (((s.alignDue n).setPort n (·.alignSent (((s.port n).alignTx + 1) % 65536))).emit
      (.align n (((s.port n).alignTx + 1) % 65536) (s.port n).lanesTx),
      some (alignBlock (((s.port n).alignTx + 1) % 65536) (s.port n).lanesTx)) := by
  rw [takeAlign_of_wait (s.port_alignDue n ▸ rfl), port_alignDue]
  rfl

/-- The ALIGN waits where its codeword cannot carry it (R80). -/
theorem State.sendAlign_waits (h : s.squelched n = false) : s.sendAlign n true = s.alignDue n := by
  rw [sendAlign, if_neg (by simp [h])]
  rfl

theorem State.sendAlign_of_free (h : s.squelched n = false) :
    s.sendAlign n false = ((s.alignDue n).takeAlign n).1.emitTrain n
      [((s.port n).lanesTx, fillIdle ((s.alignDue n).takeAlign n).2.toList)] := by
  have hsq : ¬ ((s.alignDue n).takeAlign n).1.squelched n = true := by
    rw [squelched_takeAlign]
    exact Bool.eq_false_iff.1 h
  have hlanes : ((s.alignDue n).port n).lanesTx = (s.port n).lanesTx := by
    rw [port_alignDue]
    rfl
  rw [sendAlign, if_neg (by simp [h]), ← hlanes]
  exact if_neg hsq

/-- The ALIGN due on a port leaves at once where its codeword can carry it (R80). -/
theorem State.sendAlign_leaves (h : s.squelched n = false) :
    ((s.sendAlign n false).port n).alignTx = ((s.port n).alignTx + 1) % 65536 ∧
      SentAlign s (s.sendAlign n false) n (((s.port n).alignTx + 1) % 65536) (s.port n).lanesTx ∧
      SameRegs s (s.sendAlign n false) [] := by
  rw [sendAlign_of_free h, takeAlign_alignDue]
  refine ⟨?_, ⟨_, rfl⟩, fun _ _ => rfl⟩
  rw [port_emitTrain_one, port_emit, port_setPort_same]
  rfl

theorem State.mirSendAlign_of_lit (h : (s.mirDark || s.mirLanes == 0) = false) :
    s.mirSendAlign = ((s.setPort 16 fun p => { p with alignTx := ((s.port 16).alignTx + 1) % 65536 }).emit
      (.align 16 (((s.port 16).alignTx + 1) % 65536) s.mirLanes)).emitTrain 16
        [(s.mirLanes, fillIdle [alignBlock (((s.port 16).alignTx + 1) % 65536) s.mirLanes])] := by
  have hlit : s.mirDark = false := (Bool.or_eq_false_iff.1 h).1
  rw [mirSendAlign, if_neg (by simp [h])]
  exact if_neg (Bool.eq_false_iff.1 hlit)

/-- The ALIGN due on the mirror link leaves it (R80, R415). -/
theorem State.mirSendAlign_leaves (h : (s.mirDark || s.mirLanes == 0) = false) :
    (s.mirSendAlign.port 16).alignTx = ((s.port 16).alignTx + 1) % 65536 ∧
      SentAlign s s.mirSendAlign 16 (((s.port 16).alignTx + 1) % 65536) s.mirLanes ∧ SameRegs s s.mirSendAlign [] := by
  rw [mirSendAlign_of_lit h]
  refine ⟨?_, ⟨_, rfl⟩, fun _ _ => rfl⟩
  rw [port_emitTrain_one, port_emit, port_setPort_same]

end Sys2Proof.Machine
end

section
/-! PROOFS. What BYV_CTRL starts (R82, R85, R108, R112): an attempt of the whole port, the training of retired lanes, a measurement of
the delay, and a change of the lanes that may train. -/

namespace Sys2Proof.Machine

theorem State.port_gateWrite (s : State) {m a : Nat} {v : Word} (eff : State → State) (h : s.accepts m a v = true) (n : Nat) :
    (s.gateWrite m a v eff).port n = (eff (s.respond m true a .ok 0)).port n :=
  port_of_ports (s.gateWrite_ports eff h) n

theorem State.fld_gateWrite (s : State) {m a : Nat} {v : Word} (eff : State → State) (h : s.accepts m a v = true) (k lo len : Nat) :
    (s.gateWrite m a v eff).fld k lo len = (eff (s.respond m true a .ok 0)).fld k lo len :=
  fld_of_reg (s.reg_gateWrite eff h k) lo len

/-- The frame law of a command says of memory that every byte stays. -/
theorem sameMem_of_frame {s t : State} (h : t.pending = s.pending ∧ t.tck.now = s.tck.now ∧ t.mem = s.mem) : SameMem s t := by
  obtain ⟨-, -, hmem⟩ := h
  exact sameMem_of_mem hmem

variable {s : State} {n : Nat}

/-! ### Attempts (R82, R108) -/

theorem State.port_setPortState (s : State) (n st i : Nat) : (s.setPortState n st).port i = s.port i := rfl

theorem State.port_setLanesUp (s : State) (n m i : Nat) : (s.setLanesUp n m).port i = s.port i := rfl

theorem State.port_trainRes (s : State) (n res lanes i : Nat) : (s.trainRes n res lanes).port i = s.port i := rfl

theorem State.port_showLaneCnt (s : State) (n i : Nat) : (s.showLaneCnt n).port i = s.port i := rfl

theorem State.port_raise (s : State) (page b i : Nat) : (s.raise page b).port i = s.port i := port_of_ports (raise_ports ..) i

theorem State.port_showChange (s : State) (n i : Nat) : (s.showChange n).port i = s.port i := by
  unfold showChange
  dsimp only
  split <;> rfl

/-- An attempt on some lane begins with PMD_TRAIN on these lanes. -/
theorem State.beginAttempt_begins (h : s.laneEn n &&& (s.port n).attempt ≠ 0) :
    (s.beginAttempt n).portState n = stPmd ∧ ((s.beginAttempt n).port n).training = s.laneEn n &&& (s.port n).attempt := by
  unfold beginAttempt
  dsimp only
  rw [if_neg h]
  refine ⟨portState_setPortState .., ?_⟩
  rw [port_setPortState, port_showChange, port_showLaneCnt, port_setPort_same]

/-- An attempt of the whole port trains the lanes that LANE_EN in force allows. -/
theorem State.startAttempt_begins (h : s.laneEn n ≠ 0) :
    (s.startAttempt n).portState n = stPmd ∧ ((s.startAttempt n).port n).training = s.laneEn n := by
  have hall : s.laneEn n &&& 3 = s.laneEn n := by
    have hlt : s.laneEn n < 2 ^ 2 := fld_lt _ 0 2
    rw [show 3 = 2 ^ 2 - 1 from rfl, Nat.and_two_pow_sub_one_eq_mod, Nat.mod_eq_of_lt hlt]
  have hstart := beginAttempt_begins (s := s.setPort n fun p => { p with attempt := 3 }) (n := n)
  rw [port_setPort_same] at hstart
  exact hall ▸ hstart (hall.symm ▸ h)

/-- RETRAIN of a port that is not DISABLED starts an attempt (R108). -/
theorem State.retrain_of_enabled (h : s.portState n ≠ stDisabled) : s.retrain n = s.startAttempt n := if_neg fun hdis => h hdis.1

theorem retrain_begins (m : Fin 8) (port : Fin 16) (s : State)
    (hacc : s.accepts m (atInst Reg.BYV_CTRL port) (BitVec.ofNat 32 (s.fld (atInst Reg.BYV_CTRL port) 0 2 + 16)) = true)
    (hen : s.laneEn port ≠ 0) (hst : s.portState port ≠ stDisabled) :
    Completes (.retrain m port) s fun t => t.portState port = stPmd ∧ (t.port port).training = s.laneEn port ∧ SameMem s t := by
  obtain ⟨hstate, htraining⟩ :=
    State.startAttempt_begins (s := s.respond m true (atInst Reg.BYV_CTRL port) .ok 0) (n := port) hen
  have hretrain := State.retrain_of_enabled (s := s.respond m true (atInst Reg.BYV_CTRL port) .ok 0) (n := port) hst
  refine ⟨_, rfl, ?_, ?_, sameMem_of_frame (execRetrain_frame m port s rfl)⟩
  · rw [State.portState, State.fld_gateWrite s _ hacc, hretrain]
    exact hstate
  · rw [State.port_gateWrite s _ hacc, hretrain, htraining]
    rfl

/-! ### RESTORE (R108) -/

/-- The result of a failed lane is shown in BYV_TRAIN_RES and as an event. -/
theorem State.reg_trainFail (s : State) (res lanes : Nat) {k : Nat} (hk : k ∉ raiseKeys (pBYV n))
    (hres : k ≠ atInst Reg.BYV_TRAIN_RES n) : (s.trainFail n res lanes).reg k = s.reg k := by
  rw [trainFail, reg_raise _ hk, trainRes, reg_setRegN, if_neg hres]

/-- Lanes of RUN under RESTORE train beside those in service. -/
theorem State.laneRestore_trains {m : Nat} (hn : n < 16) (hrun : s.portState n = stRun)
    (hgo : m &&& s.lanesRet n &&& s.laneEn n ≠ 0) :
    ((s.laneRestore n m).port n).training = (s.port n).training ||| (m &&& s.lanesRet n &&& s.laneEn n) := by
  obtain ⟨off, hoff⟩ : ∃ off, off = m &&& s.lanesRet n &&& (3 ^^^ s.laneEn n) := ⟨_, rfl⟩
  obtain ⟨u, hu⟩ : ∃ u, u = if off = 0 then s else s.trainFail n 2 off := ⟨_, rfl⟩
  have hport : u.port n = s.port n := by
    rw [hu]
    split
    · rfl
    · exact port_raise ..
  have hstate : u.portState n = stRun := by
    refine (fld_of_reg ?_ 12 4).trans hrun
    have hstat : atInst Reg.BYV_STAT n = 0x04010104 + n * 0x1000 := rfl
    have hres : atInst Reg.BYV_TRAIN_RES n = 0x04010108 + n * 0x1000 := rfl
    rw [hu]
    split
    · rfl
    · exact reg_trainFail _ _ _ (not_mem_raiseKeys (pBYV_lt hn) (.inr (by omega)) (by omega)) (by omega)
  obtain ⟨go, hg⟩ : ∃ go, go = m &&& s.lanesRet n &&& s.laneEn n := ⟨_, rfl⟩
  rw [← hg] at hgo ⊢
  have hrest : s.laneRestore n m = (u.setPort n fun p => { p with attempt := p.attempt ||| go }).setPort n fun p =>
      { p with training := p.training ||| go, trained := p.trained &&& (3 ^^^ go) } := by
    rw [laneRestore]
    dsimp only
    rw [← hg, ← hoff, ← hu, if_neg hgo, hstate, if_neg (by decide)]
    exact if_neg (by rw [show (u.setPort n _).portState n = u.portState n from rfl, hstate]; decide)
  rw [hrest, port_setPort_same, port_setPort_same, hport]

theorem laneRestore_trains (m : Fin 8) (port : Fin 16) (lanes : Fin 4) (s : State)
    (hacc : s.accepts m (atInst Reg.BYV_CTRL port)
      (BitVec.ofNat 32 (s.fld (atInst Reg.BYV_CTRL port) 0 2 + 256 * lanes.val)) = true)
    (hrun : s.portState port = stRun) (hgo : lanes.val &&& s.lanesRet port &&& s.laneEn port ≠ 0) :
    Completes (.laneRestore m port lanes) s fun t =>
      (t.port port).training = (s.port port).training ||| (lanes.val &&& s.lanesRet port &&& s.laneEn port) ∧ SameMem s t := by
  refine ⟨_, rfl, ?_, sameMem_of_frame (execLaneRestore_frame m port lanes s rfl)⟩
  rw [State.port_gateWrite s _ hacc]
  exact State.laneRestore_trains (s := s.respond m true (atInst Reg.BYV_CTRL port) .ok 0) port.isLt hrun hgo

/-! ### ECHO (R85) -/

theorem State.beginEcho_leaves (hsq : s.squelched n = false) :
    ((s.beginEcho n).port n).echoing = true ∧ ((s.beginEcho n).port n).echoes = [] ∧
      SentControl s (s.beginEcho n) n (echoReqBlock (((s.port n).echoSeq + 1) % 65536))
        (.echoReq n (((s.port n).echoSeq + 1) % 65536) (s.lowLane n)) ∧ SameRegs s (s.beginEcho n) [] := by
  obtain ⟨hsent, hport, hregs⟩ := echoReq_leaves
    (fun p => { p with echoes := [], echoing := true, echoSeq := ((s.port n).echoSeq + 1) % 65536 })
    (((s.port n).echoSeq + 1) % 65536) ⟨rfl, rfl, rfl⟩ hsq
  exact ⟨congrArg PortSt.echoing hport, congrArg PortSt.echoes hport, hsent, hregs⟩

theorem echo_begins (m : Fin 8) (port : Fin 16) (s : State)
    (hacc : s.accepts m (atInst Reg.BYV_CTRL port) (BitVec.ofNat 32 (s.fld (atInst Reg.BYV_CTRL port) 0 2 + 4096)) = true)
    (hrun : s.portState port = stRun) (hsq : s.squelched port = false) :
    Completes (.echo m port) s fun t => (t.port port).echoing = true ∧ (t.port port).echoes = [] ∧
      SentControl s t port (echoReqBlock (((s.port port).echoSeq + 1) % 65536))
        (.echoReq port (((s.port port).echoSeq + 1) % 65536) (s.lowLane port)) ∧ SameMem s t ∧ SameRegs s t [] := by
  obtain ⟨hechoing, hechoes, hsent, hregs⟩ :=
    State.beginEcho_leaves (s := s.respond m true (atInst Reg.BYV_CTRL port) .ok 0) (n := port) hsq
  have hstart : (s.respond m true (atInst Reg.BYV_CTRL port) .ok 0).echoStart port =
      (s.respond m true (atInst Reg.BYV_CTRL port) .ok 0).beginEcho port := if_pos hrun
  obtain ⟨sym, hsym⟩ := hsent.of_congr (s := s) (State.takeAlign_congr rfl rfl rfl rfl)
  refine ⟨_, rfl, ?_, ?_, ⟨sym, ?_⟩, sameMem_of_frame (execEcho_frame m port s rfl), fun k hk => ?_⟩
  · rw [State.port_gateWrite s _ hacc, hstart, hechoing]
  · rw [State.port_gateWrite s _ hacc, hstart, hechoes]
  · rw [State.gateWrite_outs s _ hacc, hstart, hsym]
    rfl
  · rw [State.reg_gateWrite s _ hacc, hstart, hregs k hk, State.reg_respond]

/-! ### LANE_EN (R112) -/

/-- The row of BYV_CTRL: LANE_EN is its only field that a write keeps. -/
def ctrlRow : RegRow := ⟨0x100, 1, 4, 0x3, 0, 0, 0x1310, [0x3]⟩

theorem regRow_byvCtrl (port : Fin 16) : regRow? (atInst Reg.BYV_CTRL port % 0x100000000) = some (ctrlRow, 0) := by
  revert port
  decide +kernel

theorem heldPage_byvCtrl (port : Fin 16) : heldPage (atInst Reg.BYV_CTRL port) = true := by
  revert port
  decide +kernel

/-- A word whose two lowest bits are taken from another. -/
theorem fld_merge_low (w v : Word) : fld ((w &&& ~~~3#32) ||| (v &&& 3#32)) 0 2 = fld v 0 2 := by
  have hlow (x : Word) : fld x 0 2 = (x.setWidth 2).toNat := by
    simp [fld, bits]
  rw [hlow, hlow]
  congr 1
  ext i hi
  have : i = 0 ∨ i = 1 := by omega
  obtain rfl | rfl := this <;> simp

theorem State.laneEn_of_force {t : State} (h : t.force = s.force) (n : Nat) : t.laneEn n = s.laneEn n := by
  rw [laneEn, laneEn, ffld, ffld, inForce, inForce, h]

/-- BYV_CTRL is none of the registers that a takeover asks for. -/
theorem State.noteWritten_byvCtrl (s : State) (n : Nat) : s.noteWritten (atInst Reg.BYV_CTRL n) = s := by
  have htck : ∀ {k}, k < 0x04010000 → atInst Reg.BYV_CTRL n ≠ k := fun h => atInst_ctrl_ne (.inr h)
  have hlpl : atInst Reg.BYV_CTRL n ≠ Reg.LPL_GUARANTEE := atInst_ctrl_ne (.inl (by decide))
  refine if_neg fun h => ?_
  obtain ⟨-, h | h | h | h⟩ := h
  · exact htck (by decide) h
  · exact htck (by decide) h
  · exact htck (by decide) h
  · exact hlpl h

theorem State.reg_setForceIf (s : State) (c : Bool) (k : Nat) (v : Word) (j : Nat) : (s.setForceIf c k v).reg j = s.reg j := by
  cases c <;> rfl

theorem State.storeReg_byvCtrl (s : State) (port : Fin 16) (v : Word) :
    s.storeReg (atInst Reg.BYV_CTRL port) v =
      (s.setReg (atInst Reg.BYV_CTRL port) ((s.reg (atInst Reg.BYV_CTRL port) &&& ~~~3#32) ||| (v &&& 3#32))).setForceIf
        (s.mstate == 0) (atInst Reg.BYV_CTRL port) ((s.inForce (atInst Reg.BYV_CTRL port) &&& ~~~3#32) ||| (v &&& 3#32)) := by
  have hkept : (heldPage (atInst Reg.BYV_CTRL port) && s.mstate == 0 && ctrlRow.rw != 0) = (s.mstate == 0) := by
    simp [heldPage_byvCtrl, ctrlRow]
  rw [storeReg, regRow_byvCtrl]
  dsimp only
  rw [storeRow, noteWritten_byvCtrl, hkept]
  rfl

/-- A write of BYV_CTRL sets LANE_EN, and in normal operation what is in force with it. -/
theorem State.storeReg_byvCtrl_sets (s : State) (port : Fin 16) (v : Word) :
    (s.storeReg (atInst Reg.BYV_CTRL port) v).fld (atInst Reg.BYV_CTRL port) 0 2 = Machine.fld v 0 2 ∧
      (s.mstate = 0 → (s.storeReg (atInst Reg.BYV_CTRL port) v).laneEn port = Machine.fld v 0 2) := by
  rw [storeReg_byvCtrl]
  refine ⟨?_, fun hnormal => ?_⟩
  · rw [fld, reg_setForceIf, reg_setReg, if_pos rfl, fld_merge_low]
  · rw [hnormal, laneEn, ffld, inForce, setForceIf, if_pos (by decide)]
    change Machine.fld (Sparse.get _ _ (Sparse.put ..)) 0 2 = _
    rw [Sparse.get_put_same, fld_merge_low]

theorem laneEnWrite_sets (m : Fin 8) (port : Fin 16) (en : Fin 4) (s : State)
    (hacc : s.accepts m (atInst Reg.BYV_CTRL port) (BitVec.ofNat 32 en.val) = true) :
    Completes (.laneEnWrite m port en) s fun t => t.fld (atInst Reg.BYV_CTRL port) 0 2 = en.val ∧
      (s.mstate = 0 → t.laneEn port = en.val) ∧ SameMem s t := by
  obtain ⟨u, hu⟩ : ∃ u, u = s.respond m true (atInst Reg.BYV_CTRL port) .ok 0 := ⟨_, rfl⟩
  obtain ⟨hshown, hforce⟩ := u.storeReg_byvCtrl_sets port (BitVec.ofNat 32 en.val)
  have hview := (u.storeReg (atInst Reg.BYV_CTRL port) (BitVec.ofNat 32 en.val)).ctrlView_laneEnTakes (n := port) port.isLt
  have hen : fld (BitVec.ofNat 32 en.val) 0 2 = en.val := by
    rw [fld_ofNat (by decide)]
    exact Nat.mod_eq_of_lt en.isLt
  refine ⟨_, rfl, ?_, fun hnormal => ?_, sameMem_of_frame (execLaneEnWrite_frame m port en s rfl)⟩
  · rw [State.fld_gateWrite s _ hacc, ← hu, State.fld_of_reg (congrArg Prod.snd hview), hshown, hen]
  · rw [State.laneEn_of_force (State.gateWrite_force s _ hacc), ← hu, State.laneEn_of_force (congrArg Prod.fst hview),
      hforce (hu ▸ hnormal), hen]

/-- Settles O23, clause by clause. -/
theorem byevoControlCommandsComplete : Obligations.ByevoControlCommandsComplete := by
  unfold Obligations.ByevoControlCommandsComplete
  exact ⟨retrain_begins, laneRestore_trains, echo_begins, laneEnWrite_sets⟩

end Sys2Proof.Machine
end

section
/-! PROOFS. The training of a Byevo port and of the mirror link (R80, R82, R85, R415): ALIGN sent and received, Clause 136
training that completes, the exchanges of ECHO, the limits that expire and the attempts that follow. -/

namespace Sys2Proof.Machine

variable {s t : State} {n : Nat}

/-! ### ALIGN sent (R80) -/

theorem exec_alignTx_byevo {port : Fin 17} (busy : Bool) (s : State) (h : port.val < 16) :
    exec (.alignTx (port, busy)) s = .next (s.sendAlign port busy) :=
  congrArg Host.Outcome.next (if_neg (Nat.ne_of_lt h))

theorem alignTx_leaves (port : Fin 17) (busy : Bool) (s : State)
    (hlit : (if port.val = 16 then s.mirDark || s.mirLanes == 0 else s.squelched port) = false)
    (hbusy : port.val = 16 ∨ busy = false) :
    Completes (.alignTx (port, busy)) s fun t => (t.port port).alignTx = ((s.port port).alignTx + 1) % 65536 ∧
      SentAlign s t port (((s.port port).alignTx + 1) % 65536) (if port.val = 16 then s.mirLanes else (s.port port).lanesTx) ∧
      SameMem s t ∧ SameRegs s t [] := by
  by_cases h : port.val = 16
  · obtain rfl : port = 16 := Fin.ext h
    obtain ⟨hcount, hsent, hregs⟩ := State.mirSendAlign_leaves hlit
    exact ⟨_, rfl, hcount, hsent, sameMem_of_frame s.mirSendAlign_frame, hregs⟩
  · obtain rfl := hbusy.resolve_left h
    rw [if_neg h] at hlit ⊢
    obtain ⟨hcount, hsent, hregs⟩ := State.sendAlign_leaves hlit
    exact ⟨_, exec_alignTx_byevo false s (by omega), hcount, hsent, sameMem_of_frame (State.sendAlign_frame ..), hregs⟩

theorem alignTx_waits (port : Fin 17) (s : State) (hport : port.val < 16) (hsq : s.squelched port = false) :
    Completes (.alignTx (port, true)) s fun t => (t.port port).alignWait = true ∧ t.outs = s.outs ∧
      (t.port port).alignTx = (s.port port).alignTx ∧ SameMem s t ∧ SameRegs s t [] := by
  refine ⟨_, exec_alignTx_byevo true s hport, ?_⟩
  rw [State.sendAlign_waits hsq]
  refine ⟨?_, rfl, ?_, fun _ => rfl, fun _ _ => rfl⟩
  · rw [State.port_alignDue]
    rfl
  · rw [State.port_alignDue]
    rfl

/-! ### ALIGN received (R80) -/

/-- Skew and the ALIGN blocks seen in their places. -/
def PortSt.alignment (p : PortSt) : Int × Nat × Nat := (p.skew, p.align0, p.align1)

theorem State.alignment_of_laneView (h : t.laneView n = s.laneView n) : (t.port n).alignment = (s.port n).alignment :=
  congrArg (fun v => v.2.alignment) h

theorem State.port_foldl_laneBack (l : List Nat) (s : State) (n i : Nat) :
    (l.foldl (fun s k => s.laneBack n k) s).port i = s.port i :=
  List.foldlRecOn (motive := fun t : State => t.port i = s.port i) l _ rfl fun _ h _ _ => h

theorem State.alignment_toDiscover (s : State) (n m : Nat) : ((s.toDiscover n m).port n).alignment = (s.port n).alignment := by
  unfold toDiscover
  dsimp only
  rw [port_setPortState, port_setPort_same, port_setLanesUp, port_foldl_laneBack]
  rfl

theorem State.alignment_lanesReturn (m : Nat) (hn : n < 16) : ((s.lanesReturn n m).port n).alignment = (s.port n).alignment := by
  unfold lanesReturn
  dsimp only
  split
  · rw [alignment_of_laneView (laneView_announceLanes _ _ hn), port_showLaneCnt, port_trainRes, port_setPort_same, port_setLanesUp,
      port_foldl_laneBack]
    rfl
  · rw [port_setPort_same, port_showLaneCnt, port_trainRes, port_setPort_same, port_setLanesUp, port_foldl_laneBack]
    rfl

/-- What follows an ALIGN block that port `n`, being `p`, has taken: its attempt goes on to DISCOVER, or restored lanes return. -/
def State.alignTakes (s : State) (n : Nat) (p : PortSt) : State :=
  if s.portState n = stLock then
    if p.locked = p.trained ∧ p.trained ≠ 0 ∧ p.skewOk then s.toDiscover n p.trained else s
  else if s.portState n = stDown then s
  else if p.locked &&& p.training ≠ 0 ∧ p.skew.natAbs ≤ 265 then s.lanesReturn n (p.locked &&& p.training) else s

theorem State.alignment_alignTakes (p : PortSt) (hn : n < 16) : ((s.alignTakes n p).port n).alignment = (s.port n).alignment := by
  unfold alignTakes
  split
  · split
    · exact s.alignment_toDiscover ..
    · rfl
  · split
    · rfl
    · split
      · exact alignment_lanesReturn _ hn
      · rfl

/-- An ALIGN block received on lane `k`, before its consequences. -/
def PortSt.alignSeen (p : PortSt) (k : Nat) (inPlace : Bool) (skew : Int) : PortSt :=
  { p with
    skew := skew
    align0 := if k = 0 then (if inPlace then min 2 (p.align0 + 1) else 1) else p.align0
    align1 := if k = 1 then (if inPlace then min 2 (p.align1 + 1) else 1) else p.align1 }

theorem State.alignment_alignRx (k : Nat) (inPlace : Bool) (skew : Int) (hn : n < 16) :
    ((s.alignRx n k inPlace skew).port n).alignment = ((s.port n).alignSeen k inPlace skew).alignment := by
  obtain ⟨u, hu⟩ : ∃ u, u = s.setPort n (·.alignSeen k inPlace skew) := ⟨_, rfl⟩
  have hrest : s.alignRx n k inPlace skew = State.alignTakes (if (if k = 0 then (u.port n).align0 else (u.port n).align1) = 2 then
      u.setPort n fun p => { p with unlocked := p.unlocked &&& (3 ^^^ 2 ^ k) } else u) n (u.port n) := hu ▸ rfl
  have hlock (c : Prop) [Decidable c] : ((if c then u.setPort n fun p =>
      { p with unlocked := p.unlocked &&& (3 ^^^ 2 ^ k) } else u).port n).alignment = (u.port n).alignment := by
    split
    · rw [port_setPort_same]
      rfl
    · rfl
  rw [hrest, alignment_alignTakes _ hn, hlock, hu, port_setPort_same]

theorem alignRx_counts (port : Fin 17) (lane : Fin 4) (inPlace : Bool) (skew : Int) (s : State) (hport : port.val < 16)
    (hlane : lane.val < 2) :
    Completes (.alignRx port lane inPlace skew) s fun t => (t.port port).skew = skew ∧ SameMem s t ∧
      (if lane.val = 0 then (t.port port).align0 = (if inPlace then min 2 ((s.port port).align0 + 1) else 1)
       else (t.port port).align1 = (if inPlace then min 2 ((s.port port).align1 + 1) else 1)) := by
  have hexec : exec (.alignRx port lane inPlace skew) s = .next (s.alignRx port lane inPlace skew) :=
    congrArg Host.Outcome.next ((if_neg (Nat.ne_of_lt hport)).trans (if_pos hlane))
  have hal := State.alignment_alignRx (s := s) lane inPlace skew hport
  obtain ⟨hskew, h01⟩ := Prod.mk.inj hal
  obtain ⟨h0, h1⟩ := Prod.mk.inj h01
  refine ⟨_, hexec, hskew, sameMem_of_frame (State.alignRx_frame ..), ?_⟩
  split
  next hl => exact h0.trans (if_pos hl)
  next hl => exact h1.trans (if_pos (by omega))

/-! ### Loss of lock (R80) -/

theorem bitAt_or_two_pow (m k : Nat) : bitAt (m ||| 2 ^ k) k = true := by
  simp [bitAt, Nat.testBit_two_pow_self]

theorem alignMissing_marks (port : Fin 17) (lane : Fin 4) (s : State) (h : port.val = 16 ∨ lane.val < 2) :
    Completes (.alignMissing port lane) s fun t => bitAt (t.port port).lost lane = true ∧ SameMem s t ∧ SameRegs s t [] := by
  by_cases hmir : port.val = 16
  · have hexec : exec (.alignMissing port lane) s = .next (s.mirAlignMissing lane) := congrArg Host.Outcome.next (if_pos hmir)
    refine ⟨_, hexec, ?_, fun _ => rfl, fun _ _ => rfl⟩
    rw [hmir, State.mirAlignMissing, State.port_setPort_same]
    exact bitAt_or_two_pow ..
  · have hexec : exec (.alignMissing port lane) s = .next (s.alignMissing port lane) :=
      congrArg Host.Outcome.next ((if_neg hmir).trans (if_pos (h.resolve_left hmir)))
    refine ⟨_, hexec, ?_, fun _ => rfl, fun _ _ => rfl⟩
    rw [State.alignMissing, State.port_setPort_same]
    exact bitAt_or_two_pow ..

/-! ### Clause 136 training completes (R82) -/

/-- Lanes that fail leave the others trained. -/
theorem State.trained_lanesFail (res m : Nat) (hn : n < 16) : ((s.lanesFail n res m).port n).trained = (s.port n).trained := by
  unfold lanesFail
  split
  · rfl
  · dsimp only
    rw [port_trainRes, port_setPort_same]
    exact congrArg (fun v => v.2.trained) (s.laneView_lanesOut m hn)

theorem State.pmdTrained_locks {m : Nat} (hn : n < 16) (hst : s.portState n = stPmd) (hgot : m &&& (s.port n).training ≠ 0) :
    (s.pmdTrained n m).portState n = stLock ∧ ((s.pmdTrained n m).port n).trained = m &&& (s.port n).training := by
  unfold pmdTrained
  dsimp only
  rw [if_neg hgot, if_pos hst]
  refine ⟨portState_setPortState .., ?_⟩
  rw [port_setPortState, trained_lanesFail _ _ hn, port_setPort_same]

theorem pmdTrainDone_locks (port : Fin 17) (lanes : Fin 16) (s : State) (hport : port.val < 16) (hst : s.portState port = stPmd)
    (hgot : (lanes.val % 4) &&& (s.port port).training ≠ 0) :
    Completes (.pmdTrainDone port lanes) s fun t => t.portState port = stLock ∧
      (t.port port).trained = (lanes.val % 4) &&& (s.port port).training ∧ SameMem s t := by
  have hexec : exec (.pmdTrainDone port lanes) s = .next (s.pmdTrained port (lanes.val % 4)) :=
    congrArg Host.Outcome.next (if_neg (Nat.ne_of_lt hport))
  obtain ⟨hstate, htrained⟩ := State.pmdTrained_locks hport hst hgot
  exact ⟨_, hexec, hstate, htrained, sameMem_of_frame (State.pmdTrained_frame ..)⟩

/-! ### ECHO exchanges (R85) -/

/-- A round trip before the eighth is kept, and the next request sent. -/
theorem State.echoRsp_next {r : Nat} (hecho : (s.port n).echoing = true) (hlen : (s.port n).echoes.length < 7) :
    s.echoRsp n (s.port n).echoSeq r = (s.setPort n fun p => { p with
      echoes := (s.port n).echoes ++ [r], echoSeq := ((s.port n).echoSeq + 1) % 65536 }).sendEchoReq n
        (((s.port n).echoSeq + 1) % 65536) := by
  have hmore : ¬ ((s.port n).echoes ++ [r]).length ≥ 8 := by
    rw [List.length_append, List.length_singleton]
    omega
  rw [echoRsp, if_neg (by simp [hecho])]
  exact if_neg hmore

theorem echoRsp_next (port : Fin 17) (seq : BitVec 16) (rtt : Nat) (s : State) (hport : port.val < 16)
    (hecho : (s.port port).echoing = true) (hseq : seq.toNat = (s.port port).echoSeq) (hlen : (s.port port).echoes.length < 7)
    (hsq : s.squelched port = false) :
    Completes (.echoRsp port seq rtt) s fun t => (t.port port).echoes = (s.port port).echoes ++ [rtt] ∧
      SentControl s t port (echoReqBlock ((seq.toNat + 1) % 65536)) (.echoReq port ((seq.toNat + 1) % 65536) (s.lowLane port)) ∧
      SameMem s t ∧ SameRegs s t [] := by
  have hexec : exec (.echoRsp port seq rtt) s = .next (s.echoRsp port seq.toNat rtt) :=
    congrArg Host.Outcome.next (if_neg (Nat.ne_of_lt hport))
  obtain ⟨hsent, hkept, hregs⟩ := State.echoReq_leaves (s := s) (n := port)
    (fun p => { p with echoes := (s.port port).echoes ++ [rtt], echoSeq := ((s.port port).echoSeq + 1) % 65536 })
    (((s.port port).echoSeq + 1) % 65536) ⟨rfl, rfl, rfl⟩ hsq
  have hmem := sameMem_of_frame (State.echoRsp_frame s port (s.port port).echoSeq rtt)
  refine ⟨_, hexec, ?_⟩
  rw [hseq]
  rw [State.echoRsp_next hecho hlen] at hmem ⊢
  exact ⟨congrArg PortSt.echoes hkept, hsent, hmem, hregs⟩

/-! ### A limit expires (R82, R112) -/

theorem State.reg_firstAttempt (s : State) (n : Nat) (warn : Bool) {k : Nat} (h : k ≠ Reg.GLB_BOOT) :
    (s.firstAttempt n warn).reg k = s.reg k := by
  unfold firstAttempt
  split
  · rfl
  · dsimp only
    split
    · rw [reg_setFld, if_neg h]
      rfl
    · rfl

theorem State.reg_setAbsent (s : State) (b : Bool) {k : Nat} (hk : k ∉ raiseKeys pFAB) (hstat : k ≠ atInst Reg.BYV_STAT n) :
    (s.setAbsent n b).reg k = s.reg k := by
  unfold setAbsent
  dsimp only
  rw [reg_raiseIf _ hk, reg_setBit, if_neg hstat]
  split <;> rfl

theorem State.bit_raiseIf_keeps (s : State) (c : Bool) (page : Nat) {i k j : Nat} (hi : i < 32) (h : s.bit k j = true) :
    (s.raiseIf c page i).bit k j = true := by
  unfold raiseIf
  split
  · exact bit_raise_keeps _ _ hi h
  · exact h

/-- A bit that is set stays set when an EFE's absence changes. -/
theorem State.bit_setAbsent_keeps (s : State) (b : Bool) {k i : Nat} (hstat : k ≠ atInst Reg.BYV_STAT n) (h : s.bit k i = true) :
    (s.setAbsent n b).bit k i = true := by
  unfold setAbsent
  refine bit_raiseIf_keeps _ _ _ (by decide) ?_
  rw [bit_setBit _ _ _ _ (by decide), if_neg fun hkey => hstat hkey.1]
  split <;> exact h

theorem byvStat_not_mem_raiseKeys (n : Nat) : atInst Reg.BYV_STAT n ∉ raiseKeys pFAB := by
  have hstat : atInst Reg.BYV_STAT n = 0x04010104 + n * 0x1000 := rfl
  exact not_mem_raiseKeys (by decide) (.inr (by omega)) (by omega)

theorem State.portState_setAbsent (s : State) (b : Bool) : (s.setAbsent n b).portState n = s.portState n := by
  unfold setAbsent
  dsimp only
  rw [portState, fld_of_reg (reg_raiseIf _ (byvStat_not_mem_raiseKeys n)), fld_setBit_other _ (by decide) (.inr (.inr (by decide)))]
  split <;> rfl

theorem State.portState_setLanesUp (s : State) (n m : Nat) : (s.setLanesUp n m).portState n = s.portState n :=
  s.fld_setFld_other (by decide) (.inr (.inr (by decide)))

/-- A failed attempt ends in WAIT, with its result and INT_STAT bit 4 (R82, R113). -/
theorem State.attemptFails_shows (res lanes : Nat) (hn : n < 16) :
    (s.attemptFails n res lanes).portState n = stWait ∧
      (s.attemptFails n res lanes).reg (atInst Reg.BYV_TRAIN_RES n) = BitVec.ofNat 32 (res + ((s.port n).failed ||| lanes) * 256) ∧
      (s.attemptFails n res lanes).bit (cReg (pBYV n) OFF_INT_STAT) 4 = true := by
  have hres : atInst Reg.BYV_TRAIN_RES n = 0x04010108 + n * 0x1000 := rfl
  have hstat : atInst Reg.BYV_STAT n = 0x04010104 + n * 0x1000 := rfl
  have hint : cReg (pBYV n) OFF_INT_STAT = 0x04000000 + (0x10 + n) * 0x1000 + 0x10 := rfl
  have hboot : Reg.GLB_BOOT = 0x0400010C := rfl
  obtain ⟨f, hf⟩ : ∃ f, f = s.trainFail n res ((s.port n).failed ||| lanes) := ⟨_, rfl⟩
  obtain ⟨w, hw⟩ : ∃ w, w = ((f.firstAttempt n (f.fld Reg.GLB_BOOT 8 8 == 0)).setPortState n stWait).setLanesUp n 0 := ⟨_, rfl⟩
  have hend : s.attemptFails n res lanes = (w.setAbsent n true).setPort n fun p =>
      { p with echoing := false, training := 0, trained := 0, delayOk := false } := by
    rw [hw, hf]
    rfl
  have hkept {k : Nat} (hk : k ≠ atInst Reg.BYV_STAT n) (hb : k ≠ Reg.GLB_BOOT) : w.reg k = f.reg k := by
    rw [hw, setLanesUp, reg_setFld, if_neg hk, setPortState, reg_setFld, if_neg hk, reg_firstAttempt _ _ _ hb]
  rw [hend]
  refine ⟨?_, ?_, ?_⟩
  · refine (w.portState_setAbsent true).trans ?_
    rw [hw, portState_setLanesUp, portState_setPortState]
    rfl
  · refine (w.reg_setAbsent true (not_mem_raiseKeys (by decide) (.inr (by omega)) (by omega)) (by omega)).trans ?_
    rw [hkept (by omega) (by omega), hf, trainFail,
      reg_raise _ (not_mem_raiseKeys (pBYV_lt hn) (.inr (by omega)) (by omega)), trainRes, reg_setRegN, if_pos rfl]
  · refine w.bit_setAbsent_keeps (n := n) true (by omega) ?_
    rw [bit_of_reg (hkept (by omega) (by omega)), hf]
    exact bit_raise _ _ (by decide)

theorem trainTimeout_waits (port : Fin 17) (signal : Bool) (s : State) (hport : port.val < 16) (hst : s.portState port = stPmd) :
    Completes (.trainTimeout port signal) s fun t => t.portState port = stWait ∧
      t.reg (atInst Reg.BYV_TRAIN_RES port) =
        BitVec.ofNat 32 ((if signal then 2 else 1) + ((s.port port).failed ||| (s.port port).training) * 256) ∧
      t.bit (cReg (pBYV port) OFF_INT_STAT) 4 = true ∧ SameMem s t := by
  have hfails : s.trainTimeout port signal = s.attemptFails port (if signal then 2 else 1) (s.port port).training := if_pos hst
  have hexec : exec (.trainTimeout port signal) s = .next (s.attemptFails port (if signal then 2 else 1) (s.port port).training) :=
    congrArg Host.Outcome.next ((if_neg (Nat.ne_of_lt hport)).trans hfails)
  obtain ⟨hstate, hres, hint⟩ := State.attemptFails_shows (s := s) (if signal then 2 else 1) (s.port port).training hport
  exact ⟨_, hexec, hstate, hres, hint, sameMem_of_frame (State.attemptFails_frame ..)⟩

theorem trainRetry_begins (port : Fin 17) (s : State) (hport : port.val < 16) (hst : s.portState port = stWait)
    (hen : s.laneEn port &&& (s.port port).attempt ≠ 0) :
    Completes (.trainRetry port) s fun t => t.portState port = stPmd ∧
      (t.port port).training = s.laneEn port &&& (s.port port).attempt ∧ SameMem s t := by
  have hexec : exec (.trainRetry port) s = .next (s.beginAttempt port) :=
    congrArg Host.Outcome.next ((if_neg (Nat.ne_of_lt hport)).trans (if_pos hst))
  obtain ⟨hstate, htraining⟩ := State.beginAttempt_begins hen
  exact ⟨_, hexec, hstate, htraining, sameMem_of_frame (State.beginAttempt_frame ..)⟩

/-! ### The mirror link (R415) -/

theorem State.mirLanesOut_red (s : State) (m : Nat) : (s.mirLanesOut m).red = s.red :=
  List.foldlRecOn (motive := fun t : State => t.red = s.red) _ _ rfl fun _ ht _ _ => (retire_red ..).trans ht

theorem mirPmdDone_trains (lanes : Fin 16) (s : State) (hgot : s.red.training &&& lanes.val ≠ 0) (hnone : s.red.trained = 0) :
    Completes (.pmdTrainDone 16 lanes) s fun t => t.red.trained = s.red.training &&& lanes.val ∧ SameMem s t := by
  refine ⟨s.mirPmdDone lanes, rfl, ?_, sameMem_of_frame (State.mirPmdDone_frame ..)⟩
  unfold State.mirPmdDone
  dsimp only
  rw [if_neg hgot]
  split
  · rw [State.setFld_red, State.mirLanesOut_red]
  · rw [hnone, Nat.zero_or]

/-- The end of a Trapeze leaves the lanes that may train. -/
theorem State.trapStop_keeps (s : State) (res : Nat) :
    (s.trapStop res).mirEn = s.mirEn ∧ (s.trapStop res).red.attempt = s.red.attempt := by
  unfold trapStop
  split
  · unfold trapEnd
    dsimp only
    refine ⟨fld_of_reg ?_ 0 4, ?_⟩
    · rw [reg_resetMaster, reg_raise _ (by decide), reg_setFld, if_neg (by decide), reg_setFld, if_neg (by decide)]
      rfl
    · rw [resetMaster_red, raise_red]
      rfl
  · exact ⟨rfl, rfl⟩

/-- The mirror link's HELLO and echo exchanges are over. -/
def State.mirForget (s : State) : State :=
  { s with red := { s.red with helloTx := false, helloRx := false, echoing := false, echoes := [] } }

theorem State.mirrorDown_keeps (s : State) : s.mirrorDown.mirEn = s.mirEn ∧ s.mirrorDown.red.attempt = s.red.attempt := by
  obtain ⟨w, hw⟩ : ∃ w, w = (s.mirForget.setFld Reg.RED_MIR 0 4 0).mirUpdate := ⟨_, rfl⟩
  have hend : s.mirrorDown = (((w.trapStop 4).serveStop false).resetMaster 3).raiseIf s.mirrorUp pRED 9 := hw ▸ rfl
  obtain ⟨hen, hattempt⟩ := w.trapStop_keeps 4
  rw [hend]
  constructor
  · refine (fld_of_reg (reg_raiseIf _ (by decide)) 0 4).trans (hen.trans (fld_of_reg ?_ 0 4))
    rw [hw, mirUpdate, reg_setBit, if_neg (by decide), reg_setFld, if_neg (by decide)]
    rfl
  · rw [raiseIf_red]
    exact hattempt.trans (hw ▸ rfl)

theorem State.mirState_setFld (s : State) (st : Nat) : (s.setFld Reg.RED_MIR 8 4 st).mirState = st % 16 :=
  s.fld_setFld_same (by decide)

/-- An attempt of the mirror link: PMD_TRAIN on the lanes that it may train, or DOWN without any. -/
theorem State.mirState_mirBegin (s : State) : s.mirBegin.mirState = if s.mirEn &&& s.red.attempt = 0 then 8 else 2 := by
  obtain ⟨hen, hattempt⟩ := s.mirrorDown_keeps
  unfold mirBegin
  dsimp only
  rw [hen, hattempt]
  split
  · exact mirState_setFld ..
  · exact mirState_setFld ..

theorem mirRetry_begins (s : State) (hwait : s.mirState = 1) : Completes (.trainRetry 16) s fun t =>
    t.mirState = (if s.mirEn &&& s.red.attempt = 0 then 8 else 2) ∧ SameMem s t := by
  have hexec : exec (.trainRetry 16) s = .next s.mirBegin := congrArg Host.Outcome.next (if_pos hwait)
  exact ⟨_, hexec, s.mirState_mirBegin, sameMem_of_frame s.mirBegin_frame⟩

/-- Settles O24, clause by clause: LANES of BYV_TRAIN_RES names every lane that failed in the attempt (assumption 43), and a retry
trains the lanes of the attempt that failed (assumption 135). -/
theorem linkTrainingCommandsComplete : Obligations.LinkTrainingCommandsComplete := by
  unfold Obligations.LinkTrainingCommandsComplete
  exact ⟨alignTx_leaves, alignTx_waits, alignRx_counts, alignMissing_marks, pmdTrainDone_locks, echoRsp_next, trainTimeout_waits,
    trainRetry_begins, mirPmdDone_trains, mirRetry_begins⟩

end Sys2Proof.Machine
end

section
/-! PROOFS. The PID law stays within its limits (R116, R118, R119): both of its clamps are `lim`, and each of its saturation bits says that
its clamp changed the value. -/

namespace Sys2Proof.Machine

/-! ### The operations of R116 -/

theorem sat16_bounds (x : Int) : -32768 ≤ sat16 x ∧ sat16 x ≤ 32767 := by
  unfold sat16
  split
  · omega
  · split <;> omega

/-- What `lim` answers: the upper limit is tested first. -/
theorem lim_cases (x lo hi : Int) :
    x > hi ∧ lim x lo hi = hi ∨ x ≤ hi ∧ x < lo ∧ lim x lo hi = lo ∨ x ≤ hi ∧ lo ≤ x ∧ lim x lo hi = x := by
  unfold lim
  split
  · omega
  · split <;> omega

theorem lim_bounds {lo hi : Int} (h : lo ≤ hi) (x : Int) : lo ≤ lim x lo hi ∧ lim x lo hi ≤ hi := by
  have := lim_cases x lo hi
  omega

/-- Whatever the order of the limits, `lim` changes exactly the values outside one of them. -/
theorem ne_lim_iff (x lo hi : Int) : x ≠ lim x lo hi ↔ x > hi ∨ x < lo := by
  have := lim_cases x lo hi
  omega

theorem lim_eq_limit_of_ne {x lo hi : Int} (h : x ≠ lim x lo hi) : lim x lo hi = lo ∨ lim x lo hi = hi := by
  have := lim_cases x lo hi
  omega

theorem ext_le_ext {a b : Int} (h : a ≤ b) : ext a ≤ ext b :=
  Int.mul_le_mul_of_nonneg_right h (by decide)

/-! ### The PID law (R118) -/

/-- The integral before its clamp. -/
def Prof.integral (p : Prof) (c : Sub) (r y : Int) : Int :=
  sat40 (c.i + mulq p.ki (sat16 (r - y)) p.gsh)

/-- The output before its clamp, from the clamped integral and the filtered derivative of the update. -/
def Prof.rawOut (p : Prof) (c : Sub) (r y : Int) : Int :=
  rnd (sat40 (sat40 (mulq p.kp (sat16 (r - y)) p.gsh + (pidUpdate p c r y).i) + ext (pidUpdate p c r y).dPrev))

section

variable (p : Prof) (c : Sub) (r y : Int)

theorem pidUpdate_i : (pidUpdate p c r y).i = lim (p.integral c r y) (ext p.iMin) (ext p.iMax) := rfl

theorem pidUpdate_u : (pidUpdate p c r y).u = lim (p.rawOut c r y) p.outMin p.outMax := rfl

/-- SAT is 1 exactly when the update clamped the integrator (R119). -/
theorem pidUpdate_sat_iff : (pidUpdate p c r y).sat = true ↔ p.integral c r y ≠ (pidUpdate p c r y).i := by
  have hsat : (pidUpdate p c r y).sat =
      (decide (p.integral c r y > ext p.iMax) || decide (p.integral c r y < ext p.iMin)) := rfl
  rw [hsat, pidUpdate_i, ne_lim_iff, Bool.or_eq_true, decide_eq_true_iff, decide_eq_true_iff]

/-- OUT_SAT is 1 exactly when the update clamped the output (R119). -/
theorem pidUpdate_outSat_iff : (pidUpdate p c r y).outSat = true ↔ p.rawOut c r y ≠ (pidUpdate p c r y).u :=
  decide_eq_true_iff

theorem pidUpdate_ePrev_bounds : -32768 ≤ (pidUpdate p c r y).ePrev ∧ (pidUpdate p c r y).ePrev ≤ 32767 :=
  sat16_bounds (r - y)

theorem pidUpdate_i_bounds (h : p.iMin ≤ p.iMax) :
    ext p.iMin ≤ (pidUpdate p c r y).i ∧ (pidUpdate p c r y).i ≤ ext p.iMax := by
  rw [pidUpdate_i]
  exact lim_bounds (ext_le_ext h) _

theorem pidUpdate_u_bounds (h : p.outMin ≤ p.outMax) :
    p.outMin ≤ (pidUpdate p c r y).u ∧ (pidUpdate p c r y).u ≤ p.outMax := by
  rw [pidUpdate_u]
  exact lim_bounds h _

theorem pidUpdate_i_at_limit_of_sat (h : (pidUpdate p c r y).sat = true) :
    (pidUpdate p c r y).i = ext p.iMin ∨ (pidUpdate p c r y).i = ext p.iMax :=
  lim_eq_limit_of_ne ((pidUpdate_sat_iff p c r y).mp h)

theorem pidUpdate_u_at_limit_of_outSat (h : (pidUpdate p c r y).outSat = true) :
    (pidUpdate p c r y).u = p.outMin ∨ (pidUpdate p c r y).u = p.outMax :=
  lim_eq_limit_of_ne ((pidUpdate_outSat_iff p c r y).mp h)

/-- The update leaves what the set-point ramp and the scheduling of the loop keep in the context. -/
theorem pidUpdate_keeps : (pidUpdate p c r y).tick = c.tick ∧ (pidUpdate p c r y).spRamp = c.spRamp ∧
    (pidUpdate p c r y).rinit = c.rinit :=
  ⟨rfl, rfl, rfl⟩

end

/-- Settles O17: both clamps are `lim` with ordered limits, and a saturation bit is set only where its clamp changed the value. -/
theorem loopUpdateStaysWithinLimits : Obligations.LoopUpdateStaysWithinLimits := by
  unfold Obligations.LoopUpdateStaysWithinLimits
  intro p c r y hi hout
  obtain ⟨hiMin, hiMax⟩ := pidUpdate_i_bounds p c r y hi
  obtain ⟨hoMin, hoMax⟩ := pidUpdate_u_bounds p c r y hout
  obtain ⟨heMin, heMax⟩ := pidUpdate_ePrev_bounds p c r y
  exact ⟨hiMin, hiMax, hoMin, hoMax, heMin, heMax, pidUpdate_i_at_limit_of_sat p c r y, pidUpdate_u_at_limit_of_outSat p c r y,
    pidUpdate_keeps p c r y⟩

end Sys2Proof.Machine
end

section
/-! PROOFS. Which commands write memory (R158, R190, R243, R470). -/

namespace Sys2Proof.Machine

/-- A command outside `mayStore` keeps memory: its meaning is made of operations that leave it, which is what the frame law of
each command (Laws/Frame*.lean) says; the commands of `mayStore` do not meet the hypothesis. -/
theorem exec_sameMem_of_not_mayStore {c : Instr} {s t : State} (hc : c.mayStore = false) (h : exec c s = .next t) : SameMem s t := by
  cases c with
  | tickBoundary | computeWindowOpen | windowClose | descLoadDone | abortImage | imageLoadDone | stateStoreWrite |
    contextEntryWrite | profileShadowWrite | placementShadowWrite | loopContextWrite | copyBackDone | repackDone | jobEnd
    | budgetExhausted | jobCancel | jobCancelAll | calStore | calStoreDone | supFrameRx | pauseFrame | learn | agingPass |
    scrub | fwdCmdDone | portRetire | hostTxFrame | alarmFrame | openSession | request | closeSession | keySlotWrite |
    ptpMessage | followUp | delayResp | claimed | ilkInAssert | heartbeatLoss | hello | digest | digestDeadline | journal
    | snap | catchAck | trapezeBulkDone | uncorrectableEcc | w1cClear | fltFlush | flushDone | coldReset | warmReset |
    managementReset | mgmtResetDone | resetN | softReset | registerWrite | decodeError | burstTruncate | intForce |
    vectorUnmask | remap | mramWrite | smbWrite | memacc | vinInvalid | vinValid | powerOnRestart | thermalEvaluation |
    thermalShutdown | thermalRestart | pllRelock | wdclkLoss | softResetDone => cases hc
  | triggerCutoff => exact sameMem_of_frame (execTriggerCutoff_frame s h)
  | losEvaluation => exact sameMem_of_frame (execLosEvaluation_frame s h)
  | composeState stalls => exact sameMem_of_frame (execComposeState_frame stalls s h)
  | engineRetire e => exact sameMem_of_frame (execEngineRetire_frame e s h)
  | ringmasterStart m cycle alt => exact sameMem_of_frame (execRingmasterStart_frame m cycle alt s h)
  | ringmasterStop m alt => exact sameMem_of_frame (execRingmasterStop_frame m alt s h)
  | tckCommit m cycle => exact sameMem_of_frame (execTckCommit_frame m cycle s h)
  | commitCancel m page cycle => exact sameMem_of_frame (execCommitCancel_frame m page cycle s h)
  | markerTx port ofs => exact sameMem_of_frame (execMarkerTx_frame port ofs s h)
  | alignTx place => exact sameMem_of_frame (execAlignTx_frame place s h)
  | upstreamFrame port fecOk content => exact sameMem_of_frame (execUpstreamFrame_frame port fecOk content s h)
  | alignRx port lane inPlace skew => exact sameMem_of_frame (execAlignRx_frame port lane inPlace skew s h)
  | alignMissing port lane => exact sameMem_of_frame (execAlignMissing_frame port lane s h)
  | reservedControlBlock got => exact sameMem_of_frame (execReservedControlBlock_frame got s h)
  | pmdTrainDone port lanes => exact sameMem_of_frame (execPmdTrainDone_frame port lanes s h)
  | discover port id efe proto layout te hold => exact sameMem_of_frame (execDiscover_frame port id efe proto layout te hold s h)
  | echoRsp port seq rtt => exact sameMem_of_frame (execEchoRsp_frame port seq rtt s h)
  | trainTimeout port signal => exact sameMem_of_frame (execTrainTimeout_frame port signal s h)
  | trainRetry port => exact sameMem_of_frame (execTrainRetry_frame port s h)
  | laneRetire port lane => exact sameMem_of_frame (execLaneRetire_frame port lane s h)
  | laneRestore m port lanes => exact sameMem_of_frame (execLaneRestore_frame m port lanes s h)
  | retrain m port => exact sameMem_of_frame (execRetrain_frame m port s h)
  | echo m port => exact sameMem_of_frame (execEcho_frame m port s h)
  | laneEnWrite m port en => exact sameMem_of_frame (execLaneEnWrite_frame m port en s h)
  | loadDesc m => exact sameMem_of_frame (execLoadDesc_frame m s h)
  | loadImage m => exact sameMem_of_frame (execLoadImage_frame m s h)
  | applyGo m cycle => exact sameMem_of_frame (execApplyGo_frame m cycle s h)
  | stagingDone => exact sameMem_of_frame (execStagingDone_frame s h)
  | applyCancelAll m => exact sameMem_of_frame (execApplyCancelAll_frame m s h)
  | armSafety m => exact sameMem_of_frame (execArmSafety_frame m s h)
  | safeNow m cycle => exact sameMem_of_frame (execSafeNow_frame m cycle s h)
  | safeExit m => exact sameMem_of_frame (execSafeExit_frame m s h)
  | profileBankSwap m cycle => exact sameMem_of_frame (execProfileBankSwap_frame m cycle s h)
  | nop m arg cycle => exact sameMem_of_frame (execNop_frame m arg cycle s h)
  | setState m arg cycle => exact sameMem_of_frame (execSetState_frame m arg cycle s h)
  | freeze m arg cycle => exact sameMem_of_frame (execFreeze_frame m arg cycle s h)
  | release m arg cycle => exact sameMem_of_frame (execRelease_frame m arg cycle s h)
  | setProfA m arg cycle => exact sameMem_of_frame (execSetProfA_frame m arg cycle s h)
  | setProfB m arg cycle => exact sameMem_of_frame (execSetProfB_frame m arg cycle s h)
  | setParkA m arg cycle => exact sameMem_of_frame (execSetParkA_frame m arg cycle s h)
  | setParkB m arg cycle => exact sameMem_of_frame (execSetParkB_frame m arg cycle s h)
  | setTarget m arg cycle => exact sameMem_of_frame (execSetTarget_frame m arg cycle s h)
  | clearFlags m arg cycle => exact sameMem_of_frame (execClearFlags_frame m arg cycle s h)
  | loopRetire l => exact sameMem_of_frame (execLoopRetire_frame l s h)
  | placementCheck m auto => exact sameMem_of_frame (execPlacementCheck_frame m auto s h)
  | placementCheckDone => exact sameMem_of_frame (execPlacementCheckDone_frame s h)
  | lplCommit m cycle => exact sameMem_of_frame (execLplCommit_frame m cycle s h)
  | repack m auto => exact sameMem_of_frame (execRepack_frame m auto s h)
  | lenRetire m e => exact sameMem_of_frame (execLenRetire_frame m e s h)
  | rsvSubmit m slot => exact sameMem_of_frame (execRsvSubmit_frame m slot s h)
  | jobSlotWrite m slot word v => exact sameMem_of_frame (execJobSlotWrite_frame m slot word v s h)
  | jobStart => exact sameMem_of_frame (execJobStart_frame s h)
  | jobResume => exact sameMem_of_frame (execJobResume_frame s h)
  | carouselCheck m => exact sameMem_of_frame (execCarouselCheck_frame m s h)
  | carouselCheckDone => exact sameMem_of_frame (execCarouselCheckDone_frame s h)
  | start m cycle => exact sameMem_of_frame (execStart_frame m cycle s h)
  | swap m cycle => exact sameMem_of_frame (execSwap_frame m cycle s h)
  | stop m cycle => exact sameMem_of_frame (execStop_frame m cycle s h)
  | carouselSlotChange => exact sameMem_of_frame (execCarouselSlotChange_frame s h)
  | crsShdDataWrite m v => exact sameMem_of_frame (execCrsShdDataWrite_frame m v s h)
  | crsActDataRead m => exact sameMem_of_frame (execCrsActDataRead_frame m s h)
  | protectionCheck m => exact sameMem_of_frame (execProtectionCheck_frame m s h)
  | protectionCheckDone => exact sameMem_of_frame (execProtectionCheckDone_frame s h)
  | prtCommit m cycle => exact sameMem_of_frame (execPrtCommit_frame m cycle s h)
  | prtSubDataWrite m v => exact sameMem_of_frame (execPrtSubDataWrite_frame m v s h)
  | prtSubaDataRead m => exact sameMem_of_frame (execPrtSubaDataRead_frame m s h)
  | force m case cycle => exact sameMem_of_frame (execForce_frame m case cycle s h)
  | clear m case cycle => exact sameMem_of_frame (execClear_frame m case cycle s h)
  | wtrExpiry case => exact sameMem_of_frame (execWtrExpiry_frame case s h)
  | trigInEdge pin level cycle => exact sameMem_of_frame (execTrigInEdge_frame pin level cycle s h)
  | pinRecognition pin cycle => exact sameMem_of_frame (execPinRecognition_frame pin cycle s h)
  | stuckDetect input => exact sameMem_of_frame (execStuckDetect_frame input s h)
  | evtPinEnWrite m v cycle => exact sameMem_of_frame (execEvtPinEnWrite_frame m v cycle s h)
  | chatterClear m word v => exact sameMem_of_frame (execChatterClear_frame m word v s h)
  | meaWindowEnd => exact sameMem_of_frame (execMeaWindowEnd_frame s h)
  | meaWinWrite m v => exact sameMem_of_frame (execMeaWinWrite_frame m v s h)
  | meaEnWrite m v => exact sameMem_of_frame (execMeaEnWrite_frame m v s h)
  | calPassStart m => exact sameMem_of_frame (execCalPassStart_frame m s h)
  | calMeasurementDone => exact sameMem_of_frame (execCalMeasurementDone_frame s h)
  | calAttemptTimeout => exact sameMem_of_frame (execCalAttemptTimeout_frame s h)
  | calAbort m => exact sameMem_of_frame (execCalAbort_frame m s h)
  | calStage m => exact sameMem_of_frame (execCalStage_frame m s h)
  | calStageDone => exact sameMem_of_frame (execCalStageDone_frame s h)
  | calCommit m cycle => exact sameMem_of_frame (execCalCommit_frame m cycle s h)
  | pauseRepeat port => exact sameMem_of_frame (execPauseRepeat_frame port s h)
  | conflictRecordExpiry cycle => exact sameMem_of_frame (execConflictRecordExpiry_frame cycle s h)
  | insert m => exact sameMem_of_frame (execInsert_frame m s h)
  | delete m => exact sameMem_of_frame (execDelete_frame m s h)
  | lookup m => exact sameMem_of_frame (execLookup_frame m s h)
  | flushPort m port => exact sameMem_of_frame (execFlushPort_frame m port s h)
  | flushVid m vid => exact sameMem_of_frame (execFlushVid_frame m vid s h)
  | flushLearned m => exact sameMem_of_frame (execFlushLearned_frame m s h)
  | fwdTableDataWrite m table v => exact sameMem_of_frame (execFwdTableDataWrite_frame m table v s h)
  | alloc m => exact sameMem_of_frame (execAlloc_frame m s h)
  | free m handle => exact sameMem_of_frame (execFree_frame m handle s h)
  | bpmPoolCfgWrite m pool word v => exact sameMem_of_frame (execBpmPoolCfgWrite_frame m pool word v s h)
  | portInterval cv => exact sameMem_of_frame (execPortInterval_frame cv s h)
  | portRestore m port => exact sameMem_of_frame (execPortRestore_frame m port s h)
  | linkUp port an => exact sameMem_of_frame (execLinkUp_frame port an s h)
  | linkDown port sync => exact sameMem_of_frame (execLinkDown_frame port sync s h)
  | resetRings m => exact sameMem_of_frame (execResetRings_frame m s h)
  | alarmCacheExpiry cycle => exact sameMem_of_frame (execAlarmCacheExpiry_frame cycle s h)
  | almSend m kind code => exact sameMem_of_frame (execAlmSend_frame m kind code s h)
  | almInClear m word v => exact sameMem_of_frame (execAlmInClear_frame m word v s h)
  | mgtIdleExpiry cycle => exact sameMem_of_frame (execMgtIdleExpiry_frame cycle s h)
  | egressSelect port cycle ahead => exact sameMem_of_frame (execEgressSelect_frame port cycle ahead s h)
  | gateEntryChange port cycle => exact sameMem_of_frame (execGateEntryChange_frame port cycle s h)
  | gateCommit m cycle => exact sameMem_of_frame (execGateCommit_frame m cycle s h)
  | gateCancel m cycle => exact sameMem_of_frame (execGateCancel_frame m cycle s h)
  | gateListStart port cycle => exact sameMem_of_frame (execGateListStart_frame port cycle s h)
  | shaperConfigWrite m reg v => exact sameMem_of_frame (execShaperConfigWrite_frame m reg v s h)
  | wheelSlot => exact sameMem_of_frame (execWheelSlot_frame s h)
  | polCfgWrite m v => exact sameMem_of_frame (execPolCfgWrite_frame m v s h)
  | tcEntryExpiry cycle => exact sameMem_of_frame (execTcEntryExpiry_frame cycle s h)
  | ntuRateWrite m v => exact sameMem_of_frame (execNtuRateWrite_frame m v s h)
  | ntuOffsetWrite m v => exact sameMem_of_frame (execNtuOffsetWrite_frame m v s h)
  | ntuStepWrite m v => exact sameMem_of_frame (execNtuStepWrite_frame m v s h)
  | lock m sync => exact sameMem_of_frame (execLock_frame m sync s h)
  | hold m sync => exact sameMem_of_frame (execHold_frame m sync s h)
  | ntuFree m sync => exact sameMem_of_frame (execNtuFree_frame m sync s h)
  | sync m => exact sameMem_of_frame (execSync_frame m s h)
  | syncWdInterval => exact sameMem_of_frame (execSyncWdInterval_frame s h)
  | nodeWrite m v => exact sameMem_of_frame (execNodeWrite_frame m v s h)
  | mpdWrite m port v => exact sameMem_of_frame (execMpdWrite_frame m port v s h)
  | ppsInEdge cycle => exact sameMem_of_frame (execPpsInEdge_frame cycle s h)
  | ppsOutRise cycle => exact sameMem_of_frame (execPpsOutRise_frame cycle s h)
  | ppsOutFall => exact sameMem_of_frame (execPpsOutFall_frame s h)
  | claimArm m arm solo unsyncedOk => exact sameMem_of_frame (execClaimArm_frame m arm solo unsyncedOk s h)
  | claimAttempt cycle => exact sameMem_of_frame (execClaimAttempt_frame cycle s h)
  | ilkInDeassert cycle => exact sameMem_of_frame (execIlkInDeassert_frame cycle s h)
  | toPair m => exact sameMem_of_frame (execToPair_frame m s h)
  | interlockRelease m => exact sameMem_of_frame (execInterlockRelease_frame m s h)
  | helloTx => exact sameMem_of_frame (execHelloTx_frame s h)
  | trig ok frame => exact sameMem_of_frame (execTrig_frame ok frame s h)
  | req ok frame => exact sameMem_of_frame (execReq_frame ok frame s h)
  | catchUp m => exact sameMem_of_frame (execCatch_frame m s h)
  | catchReq ok frame => exact sameMem_of_frame (execCatchReq_frame ok frame s h)
  | trapezeCutInstalled => exact sameMem_of_frame (execTrapezeCutInstalled_frame s h)
  | trapezeLateContext => exact sameMem_of_frame (execTrapezeLateContext_frame s h)
  | ready ok frame => exact sameMem_of_frame (execReady_frame ok frame s h)
  | syncAt ok frame => exact sameMem_of_frame (execSyncAt_frame ok frame s h)
  | result ok frame => exact sameMem_of_frame (execResult_frame ok frame s h)
  | mirrorAbort ok frame => exact sameMem_of_frame (execMirrorAbort_frame ok frame s h)
  | abortCatch m => exact sameMem_of_frame (execAbortCatch_frame m s h)
  | mirrorLinkDown => exact sameMem_of_frame (execMirrorLinkDown_frame s h)
  | mirrorRetrain m => exact sameMem_of_frame (execMirrorRetrain_frame m s h)
  | mirrorLaneRestore m lanes => exact sameMem_of_frame (execMirrorLaneRestore_frame m lanes s h)
  | mirrorLaneEnWrite m en => exact sameMem_of_frame (execMirrorLaneEnWrite_frame m en s h)
  | linkProbe page inverts => exact sameMem_of_frame (execLinkProbe_frame page inverts s h)
  | pairEqual page equal => exact sameMem_of_frame (execPairEqual_frame page equal s h)
  | pcieHotReset => exact sameMem_of_frame (execPcieHotReset_frame s h)
  | functionLevelReset => exact sameMem_of_frame (execFunctionLevelReset_frame s h)
  | pcieLinkDown => exact sameMem_of_frame (execPcieLinkDown_frame s h)
  | pciePerst low => exact sameMem_of_frame (execPciePerst_frame low s h)
  | takeoverOpen m => exact sameMem_of_frame (execTakeoverOpen_frame m s h)
  | takeoverGo m => exact sameMem_of_frame (execGo_frame m s h)
  | takeoverAdopt m => exact sameMem_of_frame (execAdopt_frame m s h)
  | takeoverAbandon m => exact sameMem_of_frame (execAbandon_frame m s h)
  | lowWordRead m addr cycle => exact sameMem_of_frame (execLowWordRead_frame m addr cycle s h)
  | msixMessage => exact sameMem_of_frame (execMsixMessage_frame s h)
  | alertResponse => exact sameMem_of_frame (execAlertResponse_frame s h)
  | smbAddr v pec => exact sameMem_of_frame (execSmbAddr_frame v pec s h)
  | smbRead => exact sameMem_of_frame (execSmbRead_frame s h)
  | extest => exact sameMem_of_frame (execExtest_frame s h)
  | idcode => exact sameMem_of_frame (execIdcode_frame s h)
  | samplePreload => exact sameMem_of_frame (execSamplePreload_frame s h)
  | clamp => exact sameMem_of_frame (execClamp_frame s h)
  | highz => exact sameMem_of_frame (execHighz_frame s h)
  | extestPulse => exact sameMem_of_frame (execExtestPulse_frame s h)
  | extestTrain => exact sameMem_of_frame (execExtestTrain_frame s h)
  | bypass => exact sameMem_of_frame (execBypass_frame s h)
  | jtagTrst => exact sameMem_of_frame (execJtagTrst_frame s h)
  | vinReturn cycle => exact sameMem_of_frame (execVinReturn_frame cycle s h)
  | testBWrite m testB => exact sameMem_of_frame (execTestBWrite_frame m testB s h)
  | sensorRetire sensor => exact sameMem_of_frame (execSensorRetire_frame sensor s h)
  | sensorRestore m mask => exact sameMem_of_frame (execSensorRestore_frame m mask s h)
  | thermalAck m floor => exact sameMem_of_frame (execAck_frame m floor s h)
  | swFloorWrite m floor => exact sameMem_of_frame (execSwFloorWrite_frame m floor s h)
  | thmShutWrite m v => exact sameMem_of_frame (execThmShutWrite_frame m v s h)
  | pllLockLoss cycle => exact sameMem_of_frame (execPllLockLoss_frame cycle s h)
  | refclkLoss => exact sameMem_of_frame (execRefclkLoss_frame s h)
  | claimedFrame ok frame => exact sameMem_of_frame (execClaimedFrame_frame ok frame s h)
  | echoReq seq => exact sameMem_of_frame (execEchoReq_frame seq s h)
  | pauseExpiry port cycle => exact sameMem_of_frame (execPauseExpiry_frame port cycle s h)
  | remoteFault port present => exact sameMem_of_frame (execRemoteFault_frame port present s h)
  | pcieLinkChange speed width msixEn maskAll => exact sameMem_of_frame (execPcieLinkChange_frame speed width msixEn maskAll s h)
  | wdclkReturn => exact sameMem_of_frame (execWdclkReturn_frame s h)
  | refclkReturn => exact sameMem_of_frame (execRefclkReturn_frame s h)
  | pllUnlocked2ms => exact sameMem_of_frame (execPllUnlocked2ms_frame s h)

/-- Settles O7, by the case split over the commands of `exec_sameMem_of_not_mayStore`. -/
theorem onlyStoringCommandsWriteMemory : Obligations.OnlyStoringCommandsWriteMemory := by
  unfold Obligations.OnlyStoringCommandsWriteMemory
  intro c s t hc h
  exact exec_sameMem_of_not_mayStore hc h

end Sys2Proof.Machine
end

section
/-! PROOFS. What memory reads as after bytes are written, cleared or copied. -/

namespace Sys2Proof.Machine

/-- Keeping the entries of some keys keeps what those keys read as; every other key reads as the default. -/
theorem Sparse.get_filter {α : Type} (e : α) (p : Nat → Bool) (k : Nat) (m : Sparse α) :
    Sparse.get e k (m.filter fun x => p x.1) = if p k then Sparse.get e k m else e := by
  induction m with
  | nil => rw [List.filter_nil, Sparse.get_nil, ite_self]
  | cons x t ih =>
    obtain ⟨j, v⟩ := x
    rw [List.filter_cons]
    by_cases hjk : k = j
    · subst hjk
      by_cases hp : p k = true
      · simp only [hp, ↓reduceIte, Sparse.get]
      · simp only [hp, Bool.false_eq_true, ↓reduceIte, ih]
    · by_cases hp : p j = true
      · simp only [hp, ↓reduceIte, Sparse.get, if_neg hjk, ih]
      · simp only [hp, Bool.false_eq_true, ↓reduceIte, Sparse.get, if_neg hjk, ih]

/-- A canonical table above `lo` has no entry up to `lo`. -/
theorem Sparse.get_of_wfFrom_le {α : Type} [DecidableEq α] {d : Nat → α} {m : Sparse α} {lo : Nat}
    (h : Sparse.wfFrom d (some lo) m = true) (e : α) {k : Nat} (hk : k ≤ lo) : Sparse.get e k m = e := by
  induction m generalizing lo with
  | nil => rfl
  | cons x t ih =>
    obtain ⟨j, v⟩ := x
    simp only [Sparse.wfFrom, Bool.and_eq_true, decide_eq_true_eq] at h
    obtain ⟨⟨hlo, -⟩, ht⟩ := h
    rw [Sparse.get, if_neg (by omega)]
    exact ih ht (by omega)

/-- Below MRAM every byte that memory does not list reads as 0. -/
theorem memDefault_of_lt {a : Nat} (h : a < 0x14000000) : memDefault a = 0 := if_neg (by omega)

theorem State.byte_of_mem {s t : State} (h : t.mem = s.mem) (a : Nat) : t.byte a = s.byte a := by rw [byte, byte, h]

theorem State.byte_clearMem (s : State) (lo hi a : Nat) :
    (s.clearMem lo hi).byte a = if lo ≤ a ∧ a < hi then memDefault a else s.byte a := by
  have hget := Sparse.get_filter (memDefault a) (fun k => decide (k < lo ∨ hi ≤ k)) a s.mem
  refine hget.trans ?_
  by_cases ha : lo ≤ a ∧ a < hi
  · rw [if_pos ha, if_neg (by simp; omega)]
  · rw [if_neg ha, if_pos (by simp; omega)]
    rfl

/-- The entries of a canonical table, each put at `dst` as far as its key lies above `src`: the byte that an entry names takes its
value. -/
theorem State.byte_foldl_setByte {src : Nat} (dst i : Nat) {d : Nat → Byte} {lo : Option Nat} (l : List Host.Cell) (s : State)
    (hwf : Sparse.wfFrom d lo l = true) (hsrc : ∀ e ∈ l, src ≤ e.1) :
    (l.foldl (fun s e => s.setByte (e.1 - src + dst) e.2) s).byte (dst + i) = Sparse.get (s.byte (dst + i)) (src + i) l := by
  induction l generalizing s lo with
  | nil => rfl
  | cons x t ih =>
    obtain ⟨k, v⟩ := x
    have hk : src ≤ k := hsrc _ List.mem_cons_self
    simp only [Sparse.wfFrom, Bool.and_eq_true] at hwf
    obtain ⟨-, ht⟩ := hwf
    rw [List.foldl_cons, ih _ ht fun e he => hsrc e (List.mem_cons_of_mem _ he), Sparse.get]
    by_cases hki : src + i = k
    · rw [if_pos hki, Sparse.get_of_wfFrom_le ht _ (Nat.le_of_eq hki), show dst + i = k - src + dst by omega, byte_setByte_same]
    · rw [if_neg hki, byte_setByte_other _ _ (by omega)]

/-- The entries of a table put elsewhere leave every byte that none of them names. -/
theorem State.byte_foldl_setByte_other (f : Host.Cell → Nat) {a : Nat} (l : List Host.Cell) (s : State) (h : ∀ e ∈ l, a ≠ f e) :
    (l.foldl (fun s e => s.setByte (f e) e.2) s).byte a = s.byte a :=
  List.foldlRecOn (motive := fun t => t.byte a = s.byte a) l _ rfl fun t ht e he =>
    (byte_setByte_other t e.2 (h e he)).trans ht

section

variable {s : State} {src dst size : Nat}

/-- The entries of a range. -/
theorem mem_filter_range {e : Host.Cell} (he : e ∈ s.mem.filter fun c => decide (src ≤ c.1) && decide (c.1 < src + size)) :
    src ≤ e.1 ∧ e.1 < src + size := by
  simpa using (List.mem_filter.1 he).2

/-- A copy below MRAM makes the bytes of `dst` those of `src`. -/
theorem State.byte_copyMem (hwf : Memory.wf s.mem = true) (hsrc : src + size ≤ 0x14000000) (hdst : dst + size ≤ 0x14000000)
    {i : Nat} (hi : i < size) : (s.copyMem src dst size).byte (dst + i) = s.byte (src + i) := by
  unfold copyMem
  dsimp only
  rw [byte_foldl_setByte dst i _ _ (Sparse.filter_wfFrom _ hwf) fun e he => (mem_filter_range he).1, byte_clearMem,
    if_pos (by omega), memDefault_of_lt (by omega),
    Sparse.get_filter 0 (fun k => decide (src ≤ k) && decide (k < src + size)), if_pos (by simp; omega), byte,
    memDefault_of_lt (by omega)]

/-- A copy leaves every byte outside its destination. -/
theorem State.byte_copyMem_other {a : Nat} (ha : ¬ (dst ≤ a ∧ a < dst + size)) : (s.copyMem src dst size).byte a = s.byte a := by
  unfold copyMem
  dsimp only
  rw [byte_foldl_setByte_other (fun e => e.1 - src + dst), byte_clearMem, if_neg ha]
  intro e he heq
  have := mem_filter_range he
  omega

end

end Sys2Proof.Machine
end

section
/-! PROOFS. The copy-back of the profile banks (R152) and the retirement of a loop (R148). -/

namespace Sys2Proof.Machine

/-! ### Copy-back (R152) -/

theorem State.copyBackDone_of_busy {s : State} (h : s.bit Reg.PRF_STAT 1 = true) :
    s.copyBackDone = ((s.copyMem profActive profShadow profSize).setBit Reg.PRF_STAT 1 false).raise pPRF 2 :=
  if_neg (by simp [h])

/-- The copy-back changes memory as the copy of the active view over the shadow view does. -/
theorem State.byte_copyBackDone {s : State} (h : s.bit Reg.PRF_STAT 1 = true) (a : Nat) :
    s.copyBackDone.byte a = (s.copyMem profActive profShadow profSize).byte a := by
  rw [copyBackDone_of_busy h]
  exact byte_of_mem (by rw [raise_mem, setBit_mem]) a

theorem copyBackDone_equates (s : State) (hwf : Memory.wf s.mem = true) (hbusy : s.bit Reg.PRF_STAT 1 = true) :
    Completes .copyBackDone s fun t => t.bit Reg.PRF_STAT 1 = false ∧ t.bit (cReg pPRF OFF_INT_STAT) 2 = true ∧
      (∀ i, i < profSize → t.byte (profShadow + i) = s.byte (profActive + i)) ∧ SameMemOut s t profShadow profSize := by
  refine ⟨_, rfl, ?_, ?_, fun i hi => ?_, fun a ha => ?_⟩
  · rw [State.copyBackDone_of_busy hbusy, State.bit_of_reg (State.reg_raise _ (by decide)), State.bit_setBit _ _ _ _ (by decide),
      if_pos ⟨rfl, rfl⟩]
  · rw [State.copyBackDone_of_busy hbusy, State.bit_raise _ _ (by decide)]
  · rw [State.byte_copyBackDone hbusy, State.byte_copyMem hwf (by decide) (by decide) hi]
  · rw [State.byte_copyBackDone hbusy, State.byte_copyMem_other ha]

/-! ### Retirement (R148) -/

/-- What a page's hub does with a change of its summaries leaves the fault records as the change made them. -/
theorem State.withSummary_flt (s : State) (page : Nat) (f : State → State) : (s.withSummary page f).flt = (f s).flt := by
  unfold withSummary
  dsimp only
  split
  · rw [afterRise_flt]
  · rw [afterRise_flt, afterRise_flt]

/-- The channels that are retired, and those that are to retire. -/
def State.retirals (s : State) : List Nat × List Nat := (s.flt.retired, s.flt.due)

theorem State.retirals_of_flt {s t : State} (h : t.flt = s.flt) : t.retirals = s.retirals := by rw [retirals, retirals, h]

theorem State.isRetired_of_retirals {s t : State} (h : t.retirals = s.retirals) (page c : Nat) :
    t.isRetired page c = s.isRetired page c :=
  congrArg (fun r : List Nat × List Nat => r.1.contains (chan page c)) h

theorem State.isDue_of_retirals {s t : State} (h : t.retirals = s.retirals) (page c : Nat) : t.isDue page c = s.isDue page c :=
  congrArg (fun r : List Nat × List Nat => r.2.contains (chan page c)) h

/-- An event's entry in the history queue changes nothing of the fault records but the number of the latest event. -/
theorem State.retirals_logEvent (s : State) (page cls code hi lo : Nat) :
    (s.logEvent page cls code hi lo).retirals = s.retirals := by
  unfold logEvent
  dsimp only
  rw [retirals_of_flt (raise_flt ..)]
  split <;> rfl

theorem State.isDue_notDue (s : State) (page c : Nat) : (s.notDue page c).isDue page c = false := by
  simp [isDue, notDue]

/-- A channel that retires is retired and need not retire any more. -/
theorem State.retire_retires (s : State) (page c code synHi : Nat) :
    (s.retire page c code synHi).isRetired page c = true ∧ (s.retire page c code synHi).isDue page c = false := by
  unfold retire retireInTick
  split
  · rename_i hretired
    exact ⟨hretired, isDue_notDue ..⟩
  · dsimp only
    rw [isRetired_of_retirals (retirals_logEvent ..), isDue_of_retirals (retirals_logEvent ..), isRetired, isDue, bump_flt,
      withSummary_flt]
    exact ⟨List.contains_cons.trans (by simp), isDue_notDue ..⟩

/-- The journal of the device's own writes touches neither the loops nor the fault records. -/
theorem State.journalWords_keeps (s : State) (l : List (Nat × Nat)) :
    (s.journalWords l).loops = s.loops ∧ (s.journalWords l).flt = s.flt := by
  unfold journalWords
  split
  · exact List.foldlRecOn (motive := fun t : State => t.loops = s.loops ∧ t.flt = s.flt) l _ ⟨rfl, rfl⟩ fun _ ht _ _ => ht
  · exact ⟨rfl, rfl⟩

/-- A retirement code written by the device leaves the loops and the fault records. -/
theorem State.writeRet_keeps (s : State) (c code : Nat) :
    (s.writeRet c code).loops = s.loops ∧ (s.writeRet c code).flt = s.flt := by
  unfold writeRet
  dsimp only
  rw [raise_loops, raise_flt, (journalWords_keeps ..).1, (journalWords_keeps ..).2, setFld_loops, setFld_flt]
  by_cases hsame : s.retCode c = if code = cCROSS then 2 else 1
  · rw [if_pos hsame]
    exact ⟨rfl, rfl⟩
  · rw [if_neg hsame]
    exact ⟨rfl, rfl⟩

theorem Loop.setEff_eff (x : Loop) (e : LoopState) (t : Tick) : (x.setEff e t).eff = e := by
  unfold setEff
  split
  · assumption
  · rfl

theorem State.loop_setLoop_same (s : State) (l : Nat) (f : Loop → Loop) : (s.setLoop l f).loop l = f (s.loop l) :=
  Sparse.get_put_same ..

theorem State.loop_setLoop_other (s : State) {l k : Nat} (f : Loop → Loop) (h : k ≠ l) : (s.setLoop l f).loop k = s.loop k :=
  Sparse.get_put_other _ _ _ h _

/-- A loop that freezes is frozen, and the fault records stay. -/
theorem State.freezeLoop_freezes (s : State) (l : Nat) (t : Tick) :
    ((s.freezeLoop l t).loop l).eff = .frozen ∧ (s.freezeLoop l t).flt = s.flt := by
  unfold freezeLoop
  split
  · dsimp only
    rw [loop, (writeRet_keeps ..).1, (writeRet_keeps ..).2]
    exact ⟨(congrArg Loop.eff (loop_setLoop_same ..)).trans (Loop.setEff_eff ..), rfl⟩
  · exact ⟨(congrArg Loop.eff (loop_setLoop_same ..)).trans (Loop.setEff_eff ..), rfl⟩

theorem State.retireLoopIfDue_of_due {s : State} {l : Nat} (hdue : s.isDue (pLEN (s.loopEngine l)) (loopChan l) = true)
    (heff : (s.loop l).eff ≠ .frozen) : s.retireLoopIfDue l = s.retireLoop l s.now :=
  if_pos ⟨hdue, heff⟩

/-- The fault records of a loop that retires are those that the retirement of its channel leaves. -/
theorem State.retireLoop_flt (s : State) (l : Nat) (t : Tick) :
    (s.retireLoop l t).flt = (s.retire (pLEN (s.loopEngine l)) (loopChan l) 0x11 l).flt := by
  unfold retireLoop
  dsimp only
  rw [(freezeLoop_freezes ..).2, raise_flt, setRegN_flt, count_flt]

theorem loopRetire_retires (l : Fin 12288) (s : State) (hdue : s.isDue (pLEN (s.loopEngine l)) (loopChan l) = true)
    (heff : (s.loop l).eff ≠ .frozen) :
    Completes (.loopRetire l) s fun t => (t.loop l).eff = .frozen ∧ t.isRetired (pLEN (s.loopEngine l)) (loopChan l) = true ∧
      t.isDue (pLEN (s.loopEngine l)) (loopChan l) = false ∧ SameMem s t := by
  obtain ⟨hretired, hsettled⟩ := s.retire_retires (pLEN (s.loopEngine l)) (loopChan l) 0x11 l
  have hrec : (s.retireLoopIfDue l).retirals = (s.retire (pLEN (s.loopEngine l)) (loopChan l) 0x11 l).retirals := by
    rw [State.retireLoopIfDue_of_due hdue heff, State.retirals_of_flt (State.retireLoop_flt ..)]
  refine ⟨_, rfl, ?_, ?_, ?_, sameMem_of_frame (execLoopRetire_frame l s rfl)⟩
  · rw [State.retireLoopIfDue_of_due hdue heff]
    exact (State.freezeLoop_freezes ..).1
  · rw [State.isRetired_of_retirals hrec, hretired]
  · rw [State.isDue_of_retirals hrec, hsettled]

/-- Settles O20, clause by clause. -/
theorem copyBackAndLoopRetireComplete : Obligations.CopyBackAndLoopRetireComplete := by
  unfold Obligations.CopyBackAndLoopRetireComplete
  exact ⟨copyBackDone_equates, loopRetire_retires⟩

end Sys2Proof.Machine
end

section
/-! PROOFS. Loop commands and bank swaps (R153, R155, R161): the writes of PRF_LCMD_OP and PRF_CTRL, and the commit that follows them. -/

namespace Sys2Proof.Machine

/-! ### Registers taken by their writable bits -/

/-- A word with the bits of `mask` taken from `v`. -/
def takeBits (w v mask : Word) : Word := (w &&& ~~~mask) ||| (v &&& mask)

theorem bitOf_takeBits (w v : Word) {mask : Word} {i : Nat} (h : bitOf mask i = true) : bitOf (takeBits w v mask) i = bitOf v i := by
  have hi : i < 32 := Nat.lt_of_not_le fun hle => by
    have hzero : bitOf mask i = false := BitVec.getLsbD_of_ge _ _ hle
    rw [hzero] at h
    cases h
  have hmask : mask[i] = true := (BitVec.getLsbD_eq_getElem hi).symm.trans h
  change (takeBits w v mask).getLsbD i = v.getLsbD i
  simp [takeBits, hmask, hi]

theorem fld_takeBits (w v : Word) {mask : Word} {lo len : Nat} (h : ∀ j, j < len → bitOf mask (lo + j) = true) :
    fld (takeBits w v mask) lo len = fld v lo len := by
  refine Nat.eq_of_testBit_eq fun j => ?_
  unfold fld bits
  rw [Nat.testBit_mod_two_pow, Nat.testBit_mod_two_pow, Nat.testBit_shiftRight, Nat.testBit_shiftRight]
  by_cases hj : j < len
  · exact congrArg (decide (j < len) && ·) (bitOf_takeBits w v (h j hj))
  · simp [hj]

/-- The registers that a takeover asks for. -/
def takeoverRegs : List Nat := [Reg.TCK_PERIOD, Reg.TCK_PHASE, Reg.TCK_SLEW, Reg.LPL_GUARANTEE]

section

variable (s : State) {a i : Nat} {r : RegRow} (v : Word)

/-- The registers that a takeover asks for apart, a write is noted nowhere. -/
theorem State.noteWritten_of_other (h : a ∉ takeoverRegs) : s.noteWritten a = s :=
  if_neg fun hw => h (by simpa [takeoverRegs] using hw.2)

variable (hrow : regRow? (a % 0x100000000) = some (r, i)) (ha : a ∉ takeoverRegs)

include hrow ha

/-- A plain write takes the RW and RWS bits of its register and leaves every other register. -/
theorem State.reg_storeReg (k : Nat) :
    (s.storeReg a v).reg k = if k = a then takeBits (s.reg a) v (BitVec.ofNat 32 (r.rw ||| r.rws)) else s.reg k := by
  rw [storeReg, hrow]
  dsimp only
  rw [storeRow, noteWritten_of_other _ ha, reg_setForceIf, reg_setReg]
  rfl

theorem State.storeReg_rst : (s.storeReg a v).rst = s.rst := by
  rw [storeReg, hrow]
  dsimp only
  rw [storeRow, noteWritten_of_other _ ha, setForceIf_rst, setReg_rst]

end

/-! ### What the tests of a request on the PRF page read -/

/-- All that a request on the PRF page is tested by, but for the registers that it writes, is the same. -/
structure SamePrf (s t : State) : Prop where
  off : t.off = s.off
  flt : t.flt = s.flt
  rst : t.rst = s.rst
  pwr : t.pwr = s.pwr
  commits : t.commits = s.commits
  tck : t.tck = s.tck
  regs : SameRegs s t [Reg.PRF_LCMD_OP, Reg.PRF_CTRL]

section

variable {s t : State}

theorem SamePrf.pendingOn (h : SamePrf s t) (page : Nat) : t.pendingOn page = s.pendingOn page := by
  rw [State.pendingOn, State.pendingOn, State.commitOf?, State.commitOf?, h.commits]

theorem SamePrf.target (h : SamePrf s t) (a : Nat) : t.target a = s.target a := by
  have hboot := h.regs Reg.GLB_BOOT (by decide)
  have himpl : t.implemented (pageOf a) = s.implemented (pageOf a) := by
    rw [State.implemented, State.implemented, State.recovery, State.recovery, State.bit_of_reg hboot, State.fld_of_reg hboot]
  rw [State.target, State.target, himpl]

theorem SamePrf.accessHeld (h : SamePrf s t) (m a : Nat) : t.accessHeld m a = s.accessHeld m a := by
  have hcause := h.regs Reg.GLB_RESET_CAUSE (by decide)
  have hclk := h.regs Reg.CLK_STAT (by decide)
  simp only [State.accessHeld, State.mstate, State.fld_of_reg hcause, State.bit_of_reg hclk, h.rst, h.pwr, h.off, h.flt]

theorem SamePrf.writeRefusal (h : SamePrf s t) (m : Nat) {a : Nat} (v : Word) (ha : pageOf a = pPRF)
    (hidle : s.pendingOn pPRF = false) : t.writeRefusal? m a v = s.writeRefusal? m a v := by
  have hprot := h.regs (Reg.BMX_PROT + 4 * (pPRF / 32)) (by decide)
  have hctrl := h.regs (cReg pPRF OFF_PAGE_CTRL) (by decide)
  simp only [State.writeRefusal?, ha, State.protected, State.bit_of_reg hprot, State.bit_of_reg hctrl, h.pendingOn, hidle,
    Bool.false_eq_true, false_and, if_false]

/-- What the bus carries out on the PRF page does not turn on the registers that a request writes there. -/
theorem SamePrf.accepts (h : SamePrf s t) (m : Nat) {a : Nat} (v : Word) (ha : pageOf a = pPRF) (hidle : s.pendingOn pPRF = false) :
    t.accepts m a v = s.accepts m a v := by
  rw [State.accepts, State.accepts, h.off, h.flt, h.target, h.accessHeld, h.writeRefusal m v ha hidle]

theorem SamePrf.now (h : SamePrf s t) : t.now = s.now := congrArg TckSt.now h.tck

theorem SamePrf.commitTick (h : SamePrf s t) : t.commitTick pPRF = s.commitTick pPRF := by
  rw [State.commitTick, State.commitTick, State.fld_of_reg (h.regs (cReg pPRF OFF_PAGE_CTRL) (by decide)), h.now,
    h.regs (cReg pPRF OFF_COMMIT_TICK) (by decide)]

theorem SamePrf.orphaned (h : SamePrf s t) : t.orphaned = s.orphaned := by
  rw [State.orphaned, State.orphaned, State.mstate, State.mstate, State.fld_of_reg (h.regs Reg.GLB_RESET_CAUSE (by decide))]

theorem SamePrf.role (h : SamePrf s t) : t.role = s.role := State.fld_of_reg (h.regs Reg.RED_ROLE (by decide)) 0 3

theorem SamePrf.roleActs (h : SamePrf s t) : t.roleActs = s.roleActs := by rw [State.roleActs, State.roleActs, h.role]

end

/-- The rows of the two registers that a request writes before its commit. -/
def lcmdOpRow : RegRow := ⟨0x108, 1, 4, 0, 0xffff000f, 0, 0, [0]⟩
def prfCtrlRow : RegRow := ⟨0x100, 1, 4, 0x2, 0x5, 0, 0, [0]⟩

theorem regRow_lcmdOp : regRow? (Reg.PRF_LCMD_OP % 0x100000000) = some (lcmdOpRow, 0) := by decide +kernel

theorem regRow_prfCtrl : regRow? (Reg.PRF_CTRL % 0x100000000) = some (prfCtrlRow, 0) := by decide +kernel

section

variable (s : State) {m a i : Nat} {r : RegRow} {v : Word} (hacc : s.accepts m a v = true)
  (hrow : regRow? (a % 0x100000000) = some (r, i))

include hacc hrow

/-- An accepted plain write of a register takes its writable bits and leaves every other register. -/
theorem State.reg_busStore (ha : a ∉ takeoverRegs) (k : Nat) :
    (s.busStore m a v).reg k = if k = a then takeBits (s.reg a) v (BitVec.ofNat 32 (r.rw ||| r.rws)) else s.reg k := by
  rw [busStore, reg_gateWrite s _ hacc, reg_storeReg _ _ hrow ha]
  rfl

/-- An accepted plain write changes nothing that the tests of a PRF request read but the register it writes. -/
theorem State.samePrf_busStore (ha : a ∈ [Reg.PRF_LCMD_OP, Reg.PRF_CTRL]) : SamePrf s (s.busStore m a v) := by
  have hapart : ∀ k ∈ [Reg.PRF_LCMD_OP, Reg.PRF_CTRL], k ∉ takeoverRegs := by decide
  have hother := hapart a ha
  refine ⟨?_, ?_, ?_, ?_, ?_, ?_, fun k hk => ?_⟩
  · rw [busStore, gateWrite_off s _ hacc, storeReg_off, respond_off]
  · rw [busStore, gateWrite_flt s _ hacc, storeReg_flt, respond_flt]
  · rw [busStore, gateWrite_rst s _ hacc, storeReg_rst _ _ hrow hother, respond_rst]
  · rw [busStore, gateWrite_pwr s _ hacc, storeReg_pwr, respond_pwr]
  · rw [busStore, gateWrite_commits s _ hacc, storeReg_commits, respond_commits]
  · rw [busStore, gateWrite_tck s _ hacc, storeReg_tck, respond_tck]
  · rw [reg_busStore s hacc hrow hother, if_neg fun h : k = a => hk (h ▸ ha)]

end

/-! ### The commit (R153, R477) -/

/-- The loop command of the PRF views is one of the table of R161, for loops that there are. -/
def State.LcmdInRange (s : State) : Prop :=
  s.fld Reg.PRF_LCMD_RANGE 0 14 + s.fld Reg.PRF_LCMD_RANGE 16 15 ≤ 12288 ∧ s.fld Reg.PRF_LCMD_OP 0 4 ≤ 9 ∧
    (s.fld Reg.PRF_LCMD_OP 0 4 = 1 → s.fld Reg.PRF_LCMD_OP 16 16 ≤ 3) ∧
    (s.fld Reg.PRF_LCMD_OP 0 4 = 4 ∨ s.fld Reg.PRF_LCMD_OP 0 4 = 5 → s.fld Reg.PRF_LCMD_OP 16 16 ≤ 1023)

section

variable {s : State} {k : Tick} {m : Nat}

/-- The tests of R153 pass for a request in time of a device that acts, which names a swap that no copy-back hinders, or a loop
command in range. -/
theorem State.prfTests_pass (hlead : s.now.toNat + 2 ≤ k.toNat) (hrole : s.roleActs = true)
    (hswap : s.bit Reg.PRF_CTRL 0 = true → s.bit Reg.PRF_STAT 1 = false) (hlcmd : s.bit Reg.PRF_CTRL 2 = true → s.LcmdInRange)
    (hsome : s.bit Reg.PRF_CTRL 0 = true ∨ s.bit Reg.PRF_CTRL 2 = true) : s.prfTests k true = 0 := by
  unfold prfTests
  dsimp only
  rw [if_neg (by simp; omega), if_neg (by simp [hrole]), if_neg (by simpa using hswap), if_neg, if_neg]
  · rcases hsome with h | h <;> simp [h]
  · simp only [Bool.and_eq_true, Bool.or_eq_true, decide_eq_true_eq, beq_iff_eq, not_and]
    intro h
    obtain ⟨hrange, hop, harg1, harg4⟩ := hlcmd h
    omega

/-- A request on the PRF page that passes its tests waits for its tick, and the result register reads OK. -/
theorem State.commitReq_prf (horph : s.orphaned = false) (htests : s.prfTests (s.commitTick pPRF) true = 0) :
    s.commitReq pPRF = s.pageAccept pPRF (s.commitTick pPRF) := by
  have hpage : s.pageTests pPRF (s.commitTick pPRF) true false = 0 := by
    rw [pageTests, if_neg (by decide), horph]
    exact htests
  unfold commitReq
  dsimp only
  simp only [horph, Bool.false_and, Bool.not_false, hpage]
  exact if_neg Bool.false_ne_true

theorem State.pageOk_prf (s : State) : s.pageOk pPRF = s.setFld Reg.PRF_CMT_RES 0 4 0 := by
  rw [pageOk, if_neg (by decide), if_neg (by decide), if_pos rfl]

/-- An accepted request on the PRF page waits for its tick, and the result register reads OK. -/
theorem State.pageAccept_prf (hrole : s.roleActs = true) :
    (s.pageAccept pPRF k).commits = s.commits.filter (·.page != pPRF) ++ [⟨pPRF, k, k, false, false⟩] ∧
      ∀ j, (s.pageAccept pPRF k).reg j = if j = Reg.PRF_CMT_RES then putBits (s.reg Reg.PRF_CMT_RES) 0 4 0 else s.reg j := by
  have hstandby : (s.role == 2) = false := by
    rw [roleActs, Bool.or_eq_true, beq_iff_eq, beq_iff_eq] at hrole
    rcases hrole with h | h <;> rw [h] <;> rfl
  have haccept (u : State) (hcommits : u.commits = s.commits) (hreg : ∀ j, u.reg j = s.reg j) :
      ((u.addCommit ⟨pPRF, k, k, false, u.role == 2⟩).pageOk pPRF).commits =
          s.commits.filter (·.page != pPRF) ++ [⟨pPRF, k, k, false, false⟩] ∧
        ∀ j, ((u.addCommit ⟨pPRF, k, k, false, u.role == 2⟩).pageOk pPRF).reg j =
          if j = Reg.PRF_CMT_RES then putBits (s.reg Reg.PRF_CMT_RES) 0 4 0 else s.reg j := by
    have hrole' : u.role = s.role := fld_of_reg (hreg _) 0 3
    refine ⟨?_, fun j => ?_⟩
    · rw [pageOk_prf, setFld_commits, addCommit, hrole', hstandby, hcommits]
    · rw [pageOk_prf, reg_setFld, reg_addCommit, reg_addCommit, hreg, hreg]
  unfold pageAccept
  dsimp only
  rw [if_neg (by decide), if_neg (by decide)]
  split
  · exact haccept _ rfl fun _ => rfl
  · exact haccept _ rfl fun _ => rfl

theorem State.commitOf_append {page : Nat} {c : PendCommit} (hc : c.page = page) (l : List PendCommit)
    (h : s.commits = l.filter (·.page != page) ++ [c]) : s.commitOf? page = some c := by
  rw [commitOf?, h, List.find?_append, List.find?_eq_none.2 fun x hx => by simpa using (List.mem_filter.1 hx).2]
  simp [hc]

/-- A write of COMMIT.REQ on the PRF page is a request where nothing waits. -/
theorem State.commitWrite_prf (hidle : s.pendingOn pPRF = false) :
    s.commitWrite m (cReg pPRF OFF_COMMIT) 1 = s.commitReq pPRF := by
  have hpage : pageOf (cReg pPRF OFF_COMMIT) = pPRF := by decide
  unfold commitWrite
  dsimp only
  rw [hpage, if_neg (by decide), if_neg (by simp [hidle]), if_pos (by decide), if_neg (by decide)]

theorem State.prfTests_respond (s : State) (m : Nat) (w : Bool) (a : Nat) (st : RespStatus) (d : Word) (tickTest : Bool) :
    (s.respond m w a st d).prfTests k tickTest = s.prfTests k tickTest := rfl

/-- A request on the PRF page that passes its tests waits for its commit tick; of the registers, the result alone changes. -/
theorem State.gateCommit_prf (hacc : s.accepts m (cReg pPRF OFF_COMMIT) 1 = true) (hidle : s.pendingOn pPRF = false)
    (horph : s.orphaned = false) (hrole : s.roleActs = true) (htests : s.prfTests (s.commitTick pPRF) true = 0) :
    (s.gateCommit' m pPRF 1).commitOf? pPRF = some ⟨pPRF, s.commitTick pPRF, s.commitTick pPRF, false, false⟩ ∧
      ∀ k, (s.gateCommit' m pPRF 1).reg k =
        if k = Reg.PRF_CMT_RES then putBits (s.reg Reg.PRF_CMT_RES) 0 4 0 else s.reg k := by
  obtain ⟨x, hx⟩ : ∃ x, x = s.respond m true (cReg pPRF OFF_COMMIT) .ok 0 := ⟨_, rfl⟩
  have htick : x.commitTick pPRF = s.commitTick pPRF := by
    rw [hx]
    rfl
  have htestsX : x.prfTests (x.commitTick pPRF) true = 0 := by
    rw [htick, hx, prfTests_respond, htests]
  have heff : x.commitWrite m (cReg pPRF OFF_COMMIT) 1 = x.pageAccept pPRF (s.commitTick pPRF) := by
    rw [commitWrite_prf (hx ▸ hidle), commitReq_prf (hx ▸ horph) htestsX, htick]
  obtain ⟨hcommits, hreg⟩ := pageAccept_prf (s := x) (k := s.commitTick pPRF) (hx ▸ hrole)
  refine ⟨commitOf_append rfl s.commits ?_, fun k => ?_⟩
  · rw [gateCommit', gateWrite_commits s _ hacc, ← hx, heff, hcommits, hx]
    rfl
  · rw [gateCommit', reg_gateWrite s _ hacc, ← hx, heff, hreg, hx]
    rfl

end

/-- SWAP and LCMD of a word of PRF_CTRL. -/
theorem bitOf_prfCtrl (swap copy lcmd : Bool) :
    bitOf (BitVec.ofNat 32 (b2n swap + 2 * b2n copy + 4 * b2n lcmd)) 0 = swap ∧
      bitOf (BitVec.ofNat 32 (b2n swap + 2 * b2n copy + 4 * b2n lcmd)) 2 = lcmd := by
  revert swap copy lcmd
  decide

theorem State.lcmdInRange_of_reg {s t : State} (hop : t.reg Reg.PRF_LCMD_OP = s.reg Reg.PRF_LCMD_OP)
    (hrange : t.reg Reg.PRF_LCMD_RANGE = s.reg Reg.PRF_LCMD_RANGE) : t.LcmdInRange ↔ s.LcmdInRange := by
  simp only [LcmdInRange, fld_of_reg hop, fld_of_reg hrange]

/-- The word that a request writes to PRF_CTRL: COPY as it is. -/
def State.prfCtrlWord (s : State) (swap lcmd : Bool) : Word :=
  BitVec.ofNat 32 (b2n swap + 2 * b2n (s.bit Reg.PRF_CTRL 1) + 4 * b2n lcmd)

section

variable {u : State} {m : Nat} {swap lcmd : Bool} (hctrl : u.accepts m Reg.PRF_CTRL (u.prfCtrlWord swap lcmd) = true)

include hctrl

/-- The write of PRF_CTRL in a request takes SWAP and LCMD, and leaves every other register. -/
theorem State.reg_busStore_prfCtrl :
    (u.busStore m Reg.PRF_CTRL (u.prfCtrlWord swap lcmd)).bit Reg.PRF_CTRL 0 = swap ∧
      (u.busStore m Reg.PRF_CTRL (u.prfCtrlWord swap lcmd)).bit Reg.PRF_CTRL 2 = lcmd ∧
      SameRegs u (u.busStore m Reg.PRF_CTRL (u.prfCtrlWord swap lcmd)) [Reg.PRF_CTRL] := by
  obtain ⟨hswap, hlcmd⟩ := bitOf_prfCtrl swap (u.bit Reg.PRF_CTRL 1) lcmd
  have hreg := u.reg_busStore hctrl regRow_prfCtrl (by decide)
  refine ⟨?_, ?_, fun k hk => ?_⟩
  · rw [bit, hreg, if_pos rfl, bitOf_takeBits _ _ (by decide)]
    exact hswap
  · rw [bit, hreg, if_pos rfl, bitOf_takeBits _ _ (by decide)]
    exact hlcmd
  · rw [hreg, if_neg (by simpa using hk)]

variable (hcommit : u.accepts m (cReg pPRF OFF_COMMIT) 1 = true) (hidle : u.pendingOn pPRF = false) (horph : u.orphaned = false)
  (hrole : u.roleActs = true) (hlead : u.now.toNat + 2 ≤ (u.commitTick pPRF).toNat)
  (hbusy : swap = true → u.bit Reg.PRF_STAT 1 = false) (hlcmd : lcmd = true → u.LcmdInRange) (hsome : swap = true ∨ lcmd = true)

include hcommit hidle horph hrole hlead hbusy hlcmd hsome

/-- A request on the PRF page that meets every test waits for its commit tick with SWAP and LCMD as given, and its result reads OK. -/
theorem State.prfRequest_waits :
    (u.prfRequest m swap lcmd).commitOf? pPRF = some ⟨pPRF, u.commitTick pPRF, u.commitTick pPRF, false, false⟩ ∧
      (u.prfRequest m swap lcmd).bit Reg.PRF_CTRL 0 = swap ∧ (u.prfRequest m swap lcmd).bit Reg.PRF_CTRL 2 = lcmd ∧
      (u.prfRequest m swap lcmd).fld Reg.PRF_CMT_RES 0 4 = 0 ∧
      SameRegs u (u.prfRequest m swap lcmd) [Reg.PRF_CTRL, Reg.PRF_CMT_RES] := by
  obtain ⟨w, hw⟩ : ∃ w, w = u.busStore m Reg.PRF_CTRL (u.prfCtrlWord swap lcmd) := ⟨_, rfl⟩
  have hsame : SamePrf u w := hw ▸ u.samePrf_busStore hctrl regRow_prfCtrl (by decide)
  obtain ⟨hswapW, hlcmdW, hregs⟩ := hw ▸ State.reg_busStore_prfCtrl hctrl
  have htests : w.prfTests (w.commitTick pPRF) true = 0 := by
    refine State.prfTests_pass ?_ (hsame.roleActs.trans hrole) ?_ ?_ ?_
    · rw [hsame.now, hsame.commitTick]
      exact hlead
    · rw [hswapW, State.bit_of_reg (hregs Reg.PRF_STAT (by decide))]
      exact hbusy
    · rw [hlcmdW, State.lcmdInRange_of_reg (hregs _ (by decide)) (hregs _ (by decide))]
      exact hlcmd
    · rw [hswapW, hlcmdW]
      exact hsome
  have hacc : w.accepts m (cReg pPRF OFF_COMMIT) 1 = true := (hsame.accepts m 1 (by decide) hidle).trans hcommit
  obtain ⟨hwaits, hreg⟩ := State.gateCommit_prf hacc ((hsame.pendingOn _).trans hidle) (hsame.orphaned.trans horph)
    (hsame.roleActs.trans hrole) htests
  have heq : u.prfRequest m swap lcmd = w.gateCommit' m pPRF 1 := by
    rw [hw]
    rfl
  rw [heq]
  refine ⟨hsame.commitTick ▸ hwaits, ?_, ?_, ?_, fun k hk => ?_⟩
  · rw [State.bit_of_reg ((hreg _).trans (if_neg (by decide))), hswapW]
  · rw [State.bit_of_reg ((hreg _).trans (if_neg (by decide))), hlcmdW]
  · rw [State.fld, hreg, if_pos rfl, fld_putBits_same _ (by decide), Nat.zero_mod]
  · simp only [List.mem_cons, List.not_mem_nil, or_false, not_or] at hk
    obtain ⟨hctrlK, hresK⟩ := hk
    rw [hreg, if_neg hresK, hregs k (by simpa using hctrlK)]

end

/-! ### The commands (R153, R155, R161) -/

/-- The command of every operation of PRF_LCMD_OP is a request with that operation and argument. -/
theorem exec_loopCommand (op : Fin 10) (m : Fin 8) (arg : BitVec 16) (cycle : Nat) (s : State) :
    exec (loopCommand op m arg cycle) s = .next (s.loopRequest m op arg.toNat cycle) := by
  match op with
  | 0 | 1 | 2 | 3 | 4 | 5 | 6 | 7 | 8 | 9 => rfl

theorem profileBankSwap_waits (m : Fin 8) (cycle : Nat) (s : State)
    (hctrl : (s.atCycle cycle).accepts m Reg.PRF_CTRL (BitVec.ofNat 32 (1 + 2 * b2n (s.bit Reg.PRF_CTRL 1))) = true)
    (hcommit : (s.atCycle cycle).accepts m (cReg pPRF OFF_COMMIT) 1 = true) (hidle : s.pendingOn pPRF = false)
    (horph : s.orphaned = false) (hrole : s.roleActs = true) (hlead : s.now.toNat + 2 ≤ (s.commitTick pPRF).toNat)
    (hbusy : s.bit Reg.PRF_STAT 1 = false) :
    Completes (.profileBankSwap m cycle) s fun t =>
      t.commitOf? pPRF = some ⟨pPRF, s.commitTick pPRF, s.commitTick pPRF, false, false⟩ ∧
      t.bit Reg.PRF_CTRL 0 = true ∧ t.bit Reg.PRF_CTRL 2 = false ∧ t.fld Reg.PRF_CMT_RES 0 4 = 0 ∧ SameMem s t ∧
      SameRegs s t [Reg.PRF_CTRL, Reg.PRF_CMT_RES] := by
  obtain ⟨hwaits, hswap, hlcmd, hres, hregs⟩ := State.prfRequest_waits (u := s.atCycle cycle) (swap := true) (lcmd := false)
    hctrl hcommit hidle horph hrole hlead (fun _ => hbusy) nofun (.inl rfl)
  exact ⟨_, rfl, hwaits, hswap, hlcmd, hres, sameMem_of_frame (execProfileBankSwap_frame m cycle s rfl), hregs⟩

/-- OP and ARG of a word of PRF_LCMD_OP. -/
theorem fld_lcmdOp (op : Fin 10) (arg : BitVec 16) :
    fld (BitVec.ofNat 32 (op + arg.toNat * 65536)) 0 4 = op ∧ fld (BitVec.ofNat 32 (op + arg.toNat * 65536)) 16 16 = arg.toNat := by
  have hop := op.isLt
  have harg := arg.isLt
  refine ⟨(fld_ofNat (by decide)).trans ?_, (fld_ofNat (by decide)).trans ?_⟩
  · rw [bits, Nat.shiftRight_zero]
    omega
  · rw [bits, Nat.shiftRight_eq_div_pow]
    omega

/-- An accepted write of PRF_LCMD_OP takes the operation and its argument, and leaves every other register. -/
theorem State.reg_busStore_lcmdOp {u : State} {m : Nat} {op : Fin 10} {arg : BitVec 16}
    (hacc : u.accepts m Reg.PRF_LCMD_OP (BitVec.ofNat 32 (op + arg.toNat * 65536)) = true) :
    (u.busStore m Reg.PRF_LCMD_OP (BitVec.ofNat 32 (op + arg.toNat * 65536))).fld Reg.PRF_LCMD_OP 0 4 = op ∧
      (u.busStore m Reg.PRF_LCMD_OP (BitVec.ofNat 32 (op + arg.toNat * 65536))).fld Reg.PRF_LCMD_OP 16 16 = arg.toNat ∧
      SameRegs u (u.busStore m Reg.PRF_LCMD_OP (BitVec.ofNat 32 (op + arg.toNat * 65536))) [Reg.PRF_LCMD_OP] := by
  obtain ⟨hop, harg⟩ := fld_lcmdOp op arg
  have hreg := u.reg_busStore hacc regRow_lcmdOp (by decide)
  refine ⟨?_, ?_, fun k hk => ?_⟩
  · rw [fld, hreg, if_pos rfl, fld_takeBits _ _ (by decide), hop]
  · rw [fld, hreg, if_pos rfl, fld_takeBits _ _ (by decide), harg]
  · rw [hreg, if_neg (by simpa using hk)]

theorem loopCommand_waits (op : Fin 10) (m : Fin 8) (arg : BitVec 16) (cycle : Nat) (s : State)
    (hop : (s.atCycle cycle).accepts m Reg.PRF_LCMD_OP (BitVec.ofNat 32 (op + arg.toNat * 65536)) = true)
    (hctrl : (s.atCycle cycle).accepts m Reg.PRF_CTRL (BitVec.ofNat 32 (2 * b2n (s.bit Reg.PRF_CTRL 1) + 4)) = true)
    (hcommit : (s.atCycle cycle).accepts m (cReg pPRF OFF_COMMIT) 1 = true) (hidle : s.pendingOn pPRF = false)
    (horph : s.orphaned = false) (hrole : s.roleActs = true) (hlead : s.now.toNat + 2 ≤ (s.commitTick pPRF).toNat)
    (hrange : s.fld Reg.PRF_LCMD_RANGE 0 14 + s.fld Reg.PRF_LCMD_RANGE 16 15 ≤ 12288) (harg1 : op.val = 1 → arg.toNat ≤ 3)
    (harg4 : op.val = 4 ∨ op.val = 5 → arg.toNat ≤ 1023) :
    Completes (loopCommand op m arg cycle) s fun t =>
      t.commitOf? pPRF = some ⟨pPRF, s.commitTick pPRF, s.commitTick pPRF, false, false⟩ ∧
      t.fld Reg.PRF_LCMD_OP 0 4 = op.val ∧ t.fld Reg.PRF_LCMD_OP 16 16 = arg.toNat ∧ t.bit Reg.PRF_CTRL 2 = true ∧
      t.bit Reg.PRF_CTRL 0 = false ∧ t.fld Reg.PRF_CMT_RES 0 4 = 0 ∧ SameMem s t ∧
      SameRegs s t [Reg.PRF_LCMD_OP, Reg.PRF_CTRL, Reg.PRF_CMT_RES] := by
  obtain ⟨w, hw⟩ : ∃ w, w = (s.atCycle cycle).busStore m Reg.PRF_LCMD_OP (BitVec.ofNat 32 (op + arg.toNat * 65536)) := ⟨_, rfl⟩
  have hsame : SamePrf (s.atCycle cycle) w := hw ▸ (s.atCycle cycle).samePrf_busStore hop regRow_lcmdOp (by decide)
  obtain ⟨hopW, hargW, hregs⟩ := hw ▸ State.reg_busStore_lcmdOp hop
  have hrequest : s.loopRequest m op arg.toNat cycle = w.prfRequest m false true := by
    rw [State.loopRequest, Nat.mod_eq_of_lt arg.isLt, hw]
  have hword : w.prfCtrlWord false true = BitVec.ofNat 32 (2 * b2n (s.bit Reg.PRF_CTRL 1) + 4) := by
    rw [State.prfCtrlWord, State.bit_of_reg (hregs Reg.PRF_CTRL (by decide)), b2n_false, b2n_true, Nat.zero_add]
    rfl
  have hlcmd : w.LcmdInRange := by
    have hop9 : op.val ≤ 9 := Nat.le_of_lt_succ op.isLt
    rw [State.LcmdInRange, hopW, hargW, State.fld_of_reg (hregs Reg.PRF_LCMD_RANGE (by decide)),
      State.fld_of_reg (hregs Reg.PRF_LCMD_RANGE (by decide))]
    exact ⟨hrange, hop9, harg1, harg4⟩
  obtain ⟨hwaits, hswap, hlcmdT, hres, hregsT⟩ := State.prfRequest_waits (u := w) (m := m) (swap := false) (lcmd := true)
    (by rw [hword, hsame.accepts m _ (by decide) hidle]; exact hctrl) ((hsame.accepts m 1 (by decide) hidle).trans hcommit)
    ((hsame.pendingOn _).trans hidle) (hsame.orphaned.trans horph) (hsame.roleActs.trans hrole)
    (by rw [hsame.now, hsame.commitTick]; exact hlead) nofun (fun _ => hlcmd) (.inr rfl)
  have hopT := hregsT Reg.PRF_LCMD_OP (by decide)
  refine ⟨w.prfRequest m false true, hrequest ▸ exec_loopCommand op m arg cycle s, hsame.commitTick ▸ hwaits,
    (State.fld_of_reg hopT ..).trans hopW, (State.fld_of_reg hopT ..).trans hargW, hlcmdT, hswap, hres, ?_, fun k hk => ?_⟩
  · exact hrequest ▸ sameMem_of_frame (State.loopRequest_frame ..)
  · simp only [List.mem_cons, List.not_mem_nil, or_false, not_or] at hk
    obtain ⟨hopK, hctrlK, hresK⟩ := hk
    exact (hregsT k (by simp [hctrlK, hresK])).trans (hregs k (by simpa using hopK))

/-- Settles O34, clause by clause. -/
theorem loopAndBankCommandsComplete : Obligations.LoopAndBankCommandsComplete := by
  unfold Obligations.LoopAndBankCommandsComplete
  exact ⟨loopCommand_waits, profileBankSwap_waits⟩

end Sys2Proof.Machine
end

section
/-! PROOFS. How a write of bytes reaches memory (R467 to R471, R479): a run of bytes put at an address, and the beats of a master's
write. -/

namespace Sys2Proof.Machine

/-! ### A run of bytes at an address -/

theorem State.byte_putBytes (s : State) (a : Nat) (l : List Byte) (c : Nat) :
    (s.putBytes a l).byte c = if a ≤ c ∧ c < a + l.length then l.getD (c - a) 0 else s.byte c := by
  induction l generalizing s a with
  | nil => exact (if_neg (by simp)).symm
  | cons b t ih =>
    rw [putBytes, ih]
    by_cases hfirst : c = a
    · subst hfirst
      rw [if_neg (by omega), byte_setByte_same, if_pos (by simp only [List.length_cons]; omega), Nat.sub_self, List.getD_cons_zero]
    · rw [byte_setByte_other _ _ hfirst, List.length_cons]
      by_cases hin : a + 1 ≤ c ∧ c < a + 1 + t.length
      · rw [if_pos hin, if_pos (by omega), show c - a = c - (a + 1) + 1 by omega, List.getD_cons_succ]
      · rw [if_neg hin, if_neg (by omega)]

theorem State.putBytes_eq (s : State) (a : Nat) (l : List Byte) : s.putBytes a l = { s with mem := (s.putBytes a l).mem } := by
  induction l generalizing s a with
  | nil => rfl
  | cons b t ih =>
    rw [putBytes, ih]
    rfl

theorem State.journalMem_eq (s : State) (a n : Nat) : ∃ red, s.journalMem a n = { s with red := red } := by
  unfold journalMem
  split
  · refine List.foldlRecOn (motive := fun t : State => ∃ red, t = { s with red := red }) _ _ ⟨_, rfl⟩ ?_
    rintro t ⟨red, rfl⟩ i -
    exact ⟨_, rfl⟩
  · exact ⟨_, rfl⟩

/-- Bytes put at an address change memory, and add to the journal. -/
theorem State.setBytes_eq (s : State) (a : Nat) (l : List Byte) :
    ∃ red, s.setBytes a l = { s with mem := (s.putBytes a l).mem, red := red } := by
  obtain ⟨red, hred⟩ := (s.putBytes a l).journalMem_eq a l.length
  refine ⟨red, ?_⟩
  rw [setBytes, hred, putBytes_eq]

theorem State.reg_setBytes (s : State) (a : Nat) (l : List Byte) (k : Nat) : (s.setBytes a l).reg k = s.reg k := by
  obtain ⟨red, hred⟩ := s.setBytes_eq a l
  rw [hred]
  rfl

/-- Memory counts alone in what a write has written. -/
theorem Wrote.of_mem {s t u : State} {a : Nat} {l : List Byte} (h : Wrote s t a l) (hmem : u.mem = t.mem) : Wrote s u a l :=
  ⟨fun i hi => (State.byte_of_mem hmem _).trans (h.1 i hi), fun c hc => (State.byte_of_mem hmem _).trans (h.2 c hc)⟩

theorem State.wrote_setBytes (s : State) (a : Nat) (l : List Byte) : Wrote s (s.setBytes a l) a l := by
  have hput : Wrote s (s.putBytes a l) a l := by
    refine ⟨fun i hi => ?_, fun c hc => ?_⟩
    · rw [byte_putBytes, if_pos (by omega), Nat.add_sub_cancel_left]
    · rw [byte_putBytes, if_neg hc]
  obtain ⟨red, hred⟩ := s.setBytes_eq a l
  exact hput.of_mem (by rw [hred])

/-- Two runs of bytes, the second where the first ends, are one. -/
theorem Wrote.append {s t u : State} {a : Nat} {l l' : List Byte} (h : Wrote s t a l) (h' : Wrote t u (a + l.length) l') :
    Wrote s u a (l ++ l') := by
  obtain ⟨hin, hout⟩ := h
  obtain ⟨hin', hout'⟩ := h'
  refine ⟨fun i hi => ?_, fun c hc => ?_⟩
  · rw [List.length_append] at hi
    by_cases hfirst : i < l.length
    · rw [hout' _ (by omega), hin i hfirst, List.getD_eq_getElem?_getD, List.getD_eq_getElem?_getD, List.getElem?_append_left hfirst]
    · have hsecond := hin' (i - l.length) (by omega)
      rw [show a + l.length + (i - l.length) = a + i by omega] at hsecond
      rw [hsecond, List.getD_eq_getElem?_getD, List.getD_eq_getElem?_getD, List.getElem?_append_right (by omega)]
  · rw [List.length_append] at hc
    rw [hout' c (by omega), hout c (by omega)]

/-- Written bytes read back. -/
theorem Wrote.bytes {s t : State} {a : Nat} {l : List Byte} (h : Wrote s t a l) : t.bytes a l.length = l := by
  refine List.ext_getElem (by simp [State.bytes]) fun i _ hi => ?_
  have hbyte := h.1 i hi
  simpa [State.bytes, hi] using hbyte

/-! ### Beats (R479) -/

/-- A beat of the write of the bytes from `lo` up to `hi`: bytes of one aligned 64-bit word, up to its end or that of the write. -/
structure Beat (lo hi a : Nat) (l : List Byte) : Prop where
  nonempty : l ≠ []
  inWord : a % 8 + l.length ≤ 8
  ends : (a + l.length) % 8 = 0 ∨ a + l.length = hi
  above : lo ≤ a
  below : a + l.length ≤ hi

theorem beats_nil (k a : Nat) : beats k a [] = [] := by
  cases k <;> rfl

theorem beats_succ (k a : Nat) {l : List Byte} (hl : l ≠ []) :
    beats (k + 1) a l = (a, l.take (8 - a % 8)) :: beats k (a + (8 - a % 8)) (l.drop (8 - a % 8)) := by
  cases l with
  | nil => exact absurd rfl hl
  | cons b t => rfl

/-- The beats of a write put its bytes one after the other where each beat puts its own; `Q` says of a state what it keeps while the
write has come to an address. -/
theorem foldl_beats {f : State → Nat × List Byte → State} {Q : Nat → State → Prop} {lo hi : Nat}
    (hf : ∀ s a l, Beat lo hi a l → Q a s → Q (a + l.length) (f s (a, l)) ∧ Wrote s (f s (a, l)) a l) (k : Nat) {a : Nat}
    {l : List Byte} {s : State} (hk : l.length < k) (hlo : lo ≤ a) (hhi : a + l.length = hi) (hQ : Q a s) :
    Q hi ((beats k a l).foldl f s) ∧ Wrote s ((beats k a l).foldl f s) a l := by
  induction k generalizing a l s with
  | zero => omega
  | succ k ih =>
    by_cases hl : l = []
    · subst hl
      exact ⟨hhi ▸ hQ, nofun, fun _ _ => rfl⟩
    have hpos := List.length_pos_iff.2 hl
    rw [beats_succ k a hl, List.foldl_cons]
    by_cases hlast : l.length ≤ 8 - a % 8
    · rw [List.take_of_length_le hlast, List.drop_of_length_le hlast, beats_nil]
      exact hhi ▸ hf s a l ⟨hl, by omega, .inr hhi, hlo, by omega⟩ hQ
    · have htake : (l.take (8 - a % 8)).length = 8 - a % 8 := List.length_take_of_le (by omega)
      have hdrop : (l.drop (8 - a % 8)).length = l.length - (8 - a % 8) := List.length_drop
      have hnil : l.take (8 - a % 8) ≠ [] := List.length_pos_iff.1 (by omega)
      obtain ⟨hQ', hw⟩ := hf s a (l.take (8 - a % 8)) ⟨hnil, by omega, .inl (by omega), hlo, by omega⟩ hQ
      rw [htake] at hQ'
      obtain ⟨hQhi, hw'⟩ := ih (l := l.drop (8 - a % 8)) (by omega) (by omega) (by omega) hQ'
      have hjoin := hw.append (by rw [htake]; exact hw')
      rw [List.take_append_drop] at hjoin
      exact ⟨hQhi, hjoin⟩

section

variable {s : State} {m a : Nat} {l : List Byte} (hheld : s.memHeld = false)

include hheld

/-- A master's write is made beat by beat. -/
theorem State.memWrite_of_beats {Q : Nat → State → Prop} (hQ : Q a (s.respond m true a .ok 0))
    (hbeat : ∀ t b d, Beat a (a + l.length) b d → Q b t → Q (b + d.length) (t.writeBeat m b d) ∧ Wrote t (t.writeBeat m b d) b d) :
    Q (a + l.length) (s.memWrite m a l) ∧ Wrote s (s.memWrite m a l) a l := by
  have hmade : s.memWrite m a l =
      (beats (l.length + 1) a l).foldl (fun t b => t.writeBeat m b.1 b.2) (s.respond m true a .ok 0) := by
    rw [memWrite, hheld, if_neg Bool.false_ne_true]
  rw [hmade]
  exact foldl_beats hbeat _ (Nat.lt_succ_self _) (Nat.le_refl _) rfl hQ

/-- A write within one aligned 64-bit word is one beat. -/
theorem State.memWrite_of_word (hl : l ≠ []) (hword : a % 8 + l.length ≤ 8) :
    s.memWrite m a l = (s.respond m true a .ok 0).writeBeat m a l := by
  have hone : beats (l.length + 1) a l = [(a, l)] := by
    rw [beats_succ _ a hl, List.take_of_length_le (by omega), List.drop_of_length_le (by omega), beats_nil]
  rw [memWrite, hheld, if_neg Bool.false_ne_true, hone]
  rfl

end

/-- A write that lies in its region is made. -/
theorem State.regionWrite_of_inside (s : State) (mnemonic : String) (m base : Nat) {size off : Nat} {data : List Byte} (h : data ≠ [])
    (hin : off + data.length ≤ size) : s.regionWrite mnemonic m base size off data = .next (s.memWrite m (base + off) data) :=
  if_neg fun hout => hout.elim h (by omega)

/-! ### Targets (R467) -/

section

variable (s : State) {a : Nat}

theorem State.target_store (h : 0x10000000 ≤ a ∧ a < 0x12000000) : s.target a = 1 := by
  rw [target, if_neg (by omega), if_neg (by omega), if_pos h]

theorem State.target_context (h : 0x12000000 ≤ a ∧ a < 0x12800000) : s.target a = 2 := by
  rw [target, if_neg (by omega), if_neg (by omega), if_neg (by omega), if_pos h]

theorem State.target_loop (h : 0x12800000 ≤ a ∧ a < 0x12C00000) : s.target a = 3 := by
  rw [target, if_neg (by omega), if_neg (by omega), if_neg (by omega), if_neg (by omega), if_pos h]

theorem State.target_mram (h : 0x14000000 ≤ a ∧ a < 0x16000000) : s.target a = 5 := by
  rw [target, if_neg (by omega), if_neg (by omega), if_neg (by omega), if_neg (by omega), if_neg (by omega), if_neg (by omega), if_pos h]

variable (m : Nat) (l : List Byte)

theorem State.writeBeat_store (h : 0x10000000 ≤ a ∧ a < 0x12000000) (hfree : s.storeRefused m ((a - 0x10000000) / 0x1000) = false) :
    s.writeBeat m a l = s.setBytes a l := by
  rw [writeBeat, s.target_store h]
  exact if_neg (by simp [hfree])

theorem State.writeBeat_context (h : 0x12000000 ≤ a ∧ a < 0x12800000) : s.writeBeat m a l = s.ctxBeat m a l := by
  rw [writeBeat, s.target_context h]
  rfl

theorem State.writeBeat_loop (h : 0x12800000 ≤ a ∧ a < 0x12C00000) : s.writeBeat m a l = s.loopBeat m a l := by
  rw [writeBeat, s.target_loop h]
  rfl

theorem State.writeBeat_mram (h : 0x14000000 ≤ a ∧ a < 0x16000000) : s.writeBeat m a l = s.mramBeat m a l := by
  rw [writeBeat, s.target_mram h]
  rfl

end

end Sys2Proof.Machine
end

section
/-! PROOFS. Writes into the memories (R152, R158, R169, R190, R243, R470, R471): each changes the bytes it names and no others. -/

namespace Sys2Proof.Machine

/-! ### The state store and the profile banks (R152, R190) -/

/-- A write of bytes has changed memory, and nothing else but the journal. -/
def OnlyMem (s t : State) : Prop := ∃ mem red, t = { s with mem := mem, red := red }

theorem OnlyMem.refl (s : State) : OnlyMem s s := ⟨_, _, rfl⟩

theorem OnlyMem.setBytes {s t : State} (h : OnlyMem s t) (a : Nat) (l : List Byte) : OnlyMem s (t.setBytes a l) := by
  obtain ⟨mem, red, rfl⟩ := h
  obtain ⟨red', h'⟩ := State.setBytes_eq { s with mem := mem, red := red } a l
  exact ⟨_, red', h'⟩

theorem OnlyMem.sameRegs {s t : State} (h : OnlyMem s t) : SameRegs s t [] := by
  obtain ⟨mem, red, rfl⟩ := h
  exact fun _ _ => rfl

theorem OnlyMem.storeRefused {s t : State} (h : OnlyMem s t) (m i : Nat) : t.storeRefused m i = s.storeRefused m i := by
  obtain ⟨mem, red, rfl⟩ := h
  rfl

/-- A write all of whose beats put their bytes and do nothing else. -/
theorem memWrite_of_plain {s : State} {m a : Nat} {l : List Byte} (hheld : s.memHeld = false)
    (hbeat : ∀ t b d, Beat a (a + l.length) b d → OnlyMem (s.respond m true a .ok 0) t → t.writeBeat m b d = t.setBytes b d) :
    Wrote s (s.memWrite m a l) a l ∧ SameRegs s (s.memWrite m a l) [] := by
  obtain ⟨honly, hwrote⟩ := State.memWrite_of_beats hheld (Q := fun _ t => OnlyMem (s.respond m true a .ok 0) t) (.refl _)
    fun t b d hb ht => by
      rw [hbeat t b d hb ht]
      exact ⟨ht.setBytes b d, t.wrote_setBytes b d⟩
  exact ⟨hwrote, honly.sameRegs⟩

theorem stateStoreWrite_writes (m : Fin 8) (off : Fin 33554432) (data : List Byte) (s : State) (hdata : data ≠ [])
    (hin : off + data.length ≤ 33554432) (hheld : s.memHeld = false)
    (hfree : ∀ i, i < data.length → s.storeRefused m ((off + i) / 0x1000) = false) :
    Completes (.stateStoreWrite m off data) s fun t => Wrote s t (0x10000000 + off) data ∧ SameRegs s t [] := by
  refine ⟨_, s.regionWrite_of_inside _ m _ hdata hin, memWrite_of_plain hheld fun t b d hb ht => ?_⟩
  have hpos := List.length_pos_iff.2 hb.nonempty
  have habove := hb.above
  have hbelow := hb.below
  refine t.writeBeat_store m d (by omega) ((ht.storeRefused ..).trans ?_)
  have hrec := hfree (b - (0x10000000 + off)) (by omega)
  rwa [show off.val + (b - (0x10000000 + off)) = b - 0x10000000 by omega] at hrec

/-- The shadow view of the profile banks takes a beat while no swap waits and no copy-back runs. -/
theorem State.loopBeat_profile (s : State) {m a : Nat} {l : List Byte} (ha : 0x12808000 ≤ a ∧ a < 0x12810000)
    (hswap : (s.pendingOn pPRF && s.bit Reg.PRF_CTRL 0) = false) (hcopy : s.bit Reg.PRF_STAT 1 = false) :
    s.loopBeat m a l = s.setBytes a l := by
  unfold loopBeat
  dsimp only
  rw [if_neg (by omega), if_pos ha.2, if_neg (by rw [hswap, hcopy]; decide)]

theorem profileShadowWrite_writes (m : Fin 8) (off : Fin 65536) (data : List Byte) (s : State) (hdata : data ≠ [])
    (hoff : 32768 ≤ off.val) (hin : off + data.length ≤ 65536) (hheld : s.memHeld = false)
    (hswap : (s.pendingOn pPRF && s.bit Reg.PRF_CTRL 0) = false) (hcopy : s.bit Reg.PRF_STAT 1 = false) :
    Completes (.profileShadowWrite m off data) s fun t => Wrote s t (0x12800000 + off) data ∧ SameRegs s t [] := by
  refine ⟨_, s.regionWrite_of_inside _ m _ hdata hin, memWrite_of_plain hheld fun t b d hb ht => ?_⟩
  have hpos := List.length_pos_iff.2 hb.nonempty
  have habove := hb.above
  have hbelow := hb.below
  obtain ⟨mem, red, rfl⟩ := ht
  rw [State.writeBeat_loop _ _ _ (by omega)]
  exact State.loopBeat_profile _ (by omega) hswap hcopy

/-! ### Placement content (R169, R173) -/

/-- CHECKED clears, and no commit of the page waits; CHECKING stays as it is. -/
theorem State.clearChecked_clears (s : State) :
    s.clearChecked.bit Reg.LPL_STAT 10 = false ∧ s.clearChecked.pendingOn pLPL = false ∧
      s.clearChecked.bit Reg.LPL_STAT 9 = s.bit Reg.LPL_STAT 9 ∧ s.clearChecked.mem = s.mem := by
  have hchecked : (s.setBit Reg.LPL_STAT 10 false).bit Reg.LPL_STAT 10 = false := by
    rw [bit_setBit _ _ _ _ (by decide), if_pos ⟨rfl, rfl⟩]
  have hchecking : (s.setBit Reg.LPL_STAT 10 false).bit Reg.LPL_STAT 9 = s.bit Reg.LPL_STAT 9 := by
    rw [bit_setBit _ _ _ _ (by decide), if_neg (by decide)]
  unfold clearChecked
  dsimp only
  split
  · have hreg (u : State) : (((u.dropCommit pLPL).setRegN Reg.LPL_CMT_RES 5).raise pLPL 2).reg Reg.LPL_STAT =
        u.reg Reg.LPL_STAT := by
      rw [reg_raise _ (by decide), reg_setRegN, if_neg (by decide), reg_dropCommit]
    refine ⟨(bit_of_reg (hreg _) 10).trans hchecked, ?_, (bit_of_reg (hreg _) 9).trans hchecking, raise_mem ..⟩
    rw [pendingOn, commitOf?, raise_commits, setRegN_commits, dropCommit,
      List.find?_eq_none.2 fun c hc => by simpa using (List.mem_filter.1 hc).2]
    rfl
  · rename_i hnone
    exact ⟨hchecked, by rw [pendingOn, hnone]; rfl, hchecking, rfl⟩

/-- The shadow view of the placement content takes a beat while no check runs. -/
theorem State.loopBeat_placement (s : State) {m a : Nat} {l : List Byte} (ha : 0x129E0000 ≤ a ∧ a < 0x12A20000)
    (hcheck : s.bit Reg.LPL_STAT 9 = false) : s.loopBeat m a l = (s.setBytes a l).clearChecked := by
  unfold loopBeat
  dsimp only
  rw [if_neg (by omega), if_neg (by omega), if_neg (by omega), if_neg (by omega), if_neg (by omega), if_pos ha.2,
    if_neg (by simp [hcheck])]

theorem placementShadowWrite_writes (m : Fin 8) (off : Fin 2490368) (data : List Byte) (s : State) (hdata : data ≠ [])
    (hoff : 0x40000 ≤ off.val) (hin : off + data.length ≤ 0x80000) (hheld : s.memHeld = false)
    (hcheck : s.bit Reg.LPL_STAT 9 = false) :
    Completes (.placementShadowWrite m off data) s fun t => Wrote s t (0x129A0000 + off) data ∧
      t.bit Reg.LPL_STAT 10 = false ∧ t.pendingOn pLPL = false := by
  have hpos := List.length_pos_iff.2 hdata
  obtain ⟨⟨-, hclear⟩, hwrote⟩ := State.memWrite_of_beats hheld (m := m) (a := 0x129A0000 + off) (l := data)
    (Q := fun b t => t.bit Reg.LPL_STAT 9 = false ∧
      (0x129A0000 + off < b → t.bit Reg.LPL_STAT 10 = false ∧ t.pendingOn pLPL = false))
    ⟨hcheck, fun h => absurd h (Nat.lt_irrefl _)⟩ fun t b d hb ⟨hcheckT, _⟩ => by
      have hposB := List.length_pos_iff.2 hb.nonempty
      have habove := hb.above
      have hbelow := hb.below
      obtain ⟨hchecked, hnone, hchecking, hmem⟩ := (t.setBytes b d).clearChecked_clears
      rw [t.writeBeat_loop _ _ (by omega), t.loopBeat_placement (by omega) hcheckT]
      exact ⟨⟨(hchecking.trans (State.bit_of_reg (t.reg_setBytes ..) 9)).trans hcheckT, fun _ => ⟨hchecked, hnone⟩⟩,
        (t.wrote_setBytes b d).of_mem hmem⟩
  exact ⟨_, s.regionWrite_of_inside _ m _ hdata (by omega), hwrote, hclear (by omega)⟩

/-! ### Contexts of loops and connections (R158, R243) -/

/-- The bytes of a word put over all of it. -/
theorem mergeWord_full (w : Word) {l : List Byte} (hl : l.length = 4) : mergeWord w 0 l = BitVec.ofNat 32 (leNat l) := by
  have hdrop : (toLE 4 w.toNat).drop (0 + l.length) = [] := List.drop_of_length_le (by simp [toLE, hl])
  rw [mergeWord, hdrop, List.take_zero, List.nil_append, List.append_nil]

theorem wordParts_of_word {a : Nat} {l : List Byte} (ha : a % 4 = 0) (hl : l.length = 4) : wordParts a l = [(a, 0, l)] := by
  rw [wordParts, if_pos (by omega), ha, Nat.div_mul_cancel (Nat.dvd_of_mod_eq_zero ha)]

theorem wordParts_of_pair {a : Nat} {l : List Byte} (ha : a % 4 = 0) (hl : l.length = 8) :
    wordParts a l = [(a, 0, l.take 4), (a + 4, 0, l.drop 4)] := by
  rw [wordParts, if_neg (by omega), ha, Nat.div_mul_cancel (Nat.dvd_of_mod_eq_zero ha)]

/-- The mirror agent's beat of one word of a loop's context is a write of that word. -/
theorem State.loopBeat_context (s : State) {m a : Nat} {l : List Byte} (ha : 0x12820000 ≤ a ∧ a < 0x129A0000) (hword : a % 4 = 0)
    (hl : l.length = 4) (hm : m = 3) (hmirror : s.mirrorWrites = true) :
    s.loopBeat m a l = s.ctxWrite ((a - 0x12820000) / 128) (a % 128) (BitVec.ofNat 32 (leNat l)) := by
  unfold loopBeat
  dsimp only
  rw [if_neg (by omega), if_neg (by omega), if_neg (by omega), if_pos ha.2, if_neg (by simp [hm, hmirror]),
    wordParts_of_word hword hl, ← mergeWord_full (s.memWord a) hl]
  rfl

/-- Word 12 of a loop's context is its target. -/
theorem State.target_ctxWrite (s : State) (l : Nat) (w : Word) : ((s.ctxWrite l 12 w).loop l).target = w.toNat % 65536 :=
  congrArg Loop.target (loop_setLoop_same ..)

theorem loopContextWrite_writes (m : Fin 8) (l : Fin 12288) (data : List Byte) (s : State) (hdata : data.length = 4)
    (hheld : s.memHeld = false) (hm : m.val = 3) (hmirror : s.mirrorWrites = true) :
    Completes (.loopContextWrite m ⟨128 * l + 12, by omega⟩ data) s fun t => (t.loop l).target = leNat data % 65536 ∧
      (∀ k, k ≠ l.val → t.loop k = s.loop k) ∧ SameMem s t ∧ SameRegs s t [] := by
  have hl := l.isLt
  have hnil : data ≠ [] := List.length_pos_iff.1 (by omega)
  obtain ⟨u, hu⟩ : ∃ u, u = s.respond m true (0x12820000 + (128 * l + 12)) .ok 0 := ⟨_, rfl⟩
  have hwrite : s.memWrite m (0x12820000 + (128 * l + 12)) data = u.ctxWrite l 12 (BitVec.ofNat 32 (leNat data)) := by
    rw [State.memWrite_of_word hheld hnil (by omega), ← hu, u.writeBeat_loop _ _ (by omega),
      u.loopBeat_context (by omega) (by omega) hdata hm (hu ▸ hmirror),
      show (0x12820000 + (128 * l.val + 12) - 0x12820000) / 128 = l by omega, show (0x12820000 + (128 * l.val + 12)) % 128 = 12 by omega]
  refine ⟨_, (s.regionWrite_of_inside _ m _ hnil (by simp only; omega)).trans (congrArg _ hwrite), ?_, fun k hk => ?_, ?_, ?_⟩
  · have hlt := leNat_lt data
    rw [hdata] at hlt
    rw [State.target_ctxWrite, BitVec.toNat_ofNat]
    omega
  · rw [State.ctxWrite, State.loop_setLoop_other _ _ hk, hu]
    rfl
  · rw [hu]
    exact fun _ => rfl
  · rw [hu]
    exact fun _ _ => rfl

/-- The two words of an entry, low and high, written by one master: the entry takes both, but for the bits that stay 0. -/
theorem State.ctxWordWrite_pair (s : State) (m i : Nat) (low high : Word) :
    ∃ rce, (s.ctxWordWrite m i false low).ctxWordWrite m i true high =
      (({ s with rce := rce } : State).storeN (0x12000000 + i * 8) 4 (low.toNat &&& 0xFFFF7FFF)).storeN
        (0x12000000 + i * 8 + 4) 4 (high.toNat &&& 0xFFFFFF) := by
  have hheld : (s.ctxWordWrite m i false low).ctxHeldOf m i = some low := by
    simp [ctxWordWrite, ctxHeldOf]
  refine ⟨{ s.rce with ctxHeld := (s.ctxWordWrite m i false low).rce.ctxHeld.filter fun h => h.1 != m }, ?_⟩
  rw [ctxWordWrite, hheld]
  rfl

theorem State.wrote_storePair (s : State) (a x y : Nat) : Wrote s ((s.storeN a 4 x).storeN (a + 4) 4 y) a (toLE 4 x ++ toLE 4 y) := by
  have hlen : (toLE 4 x).length = 4 := by simp [toLE]
  exact (s.wrote_setBytes a (toLE 4 x)).append (hlen ▸ wrote_setBytes ..)

/-- A beat that holds a whole entry writes its two words. -/
theorem State.ctxBeat_entry (s : State) {m : Nat} (i : Nat) {l : List Byte} (hl : l.length = 8) (hmay : s.ctxMayWrite m = true) :
    s.ctxBeat m (0x12000000 + 8 * i) l =
      (s.ctxWordWrite m i false (BitVec.ofNat 32 (leAt l 0 4))).ctxWordWrite m i true (BitVec.ofNat 32 (leAt l 4 4)) := by
  have htake : (l.take 4).length = 4 := List.length_take_of_le (by omega)
  have hdrop : (l.drop 4).length = 4 := by rw [List.length_drop, hl]
  have hhigh : leAt l 4 4 = leNat (l.drop 4) := congrArg leNat (List.take_of_length_le (Nat.le_of_eq hdrop))
  have hlowAt : ((0x12000000 + 8 * i) % 8 == 4) = false := by
    rw [beq_eq_false_iff_ne]
    omega
  have hhighAt : ((0x12000000 + 8 * i + 4) % 8 == 4) = true := by
    rw [beq_iff_eq]
    omega
  unfold ctxBeat
  rw [if_neg (by simp [hmay]), wordParts_of_pair (by omega) hl]
  simp only [List.foldl_cons, List.foldl_nil, mergeWord_full _ htake, mergeWord_full _ hdrop, hlowAt, hhighAt,
    show (0x12000000 + 8 * i - 0x12000000) / 8 = i by omega, show (0x12000000 + 8 * i + 4 - 0x12000000) / 8 = i by omega, hhigh]
  rfl

theorem contextEntryWrite_writes (m : Fin 8) (i : Fin 1048576) (data : List Byte) (s : State) (hdata : data.length = 8)
    (hheld : s.memHeld = false) (hmay : s.ctxMayWrite m = true) :
    Completes (.contextEntryWrite m ⟨8 * i, by omega⟩ data) s fun t => Wrote s t (0x12000000 + 8 * i)
        (toLE 4 (leAt data 0 4 &&& 0xFFFF7FFF) ++ toLE 4 (leAt data 4 4 &&& 0xFFFFFF)) ∧ SameRegs s t [] := by
  have hi := i.isLt
  have hnil : data ≠ [] := List.length_pos_iff.1 (by omega)
  have htoNat (o : Nat) : (BitVec.ofNat 32 (leAt data o 4)).toNat = leAt data o 4 :=
    (BitVec.toNat_ofNat ..).trans (Nat.mod_eq_of_lt (leAt_lt data o 4))
  obtain ⟨u, hu⟩ : ∃ u, u = s.respond m true (0x12000000 + 8 * i) .ok 0 := ⟨_, rfl⟩
  have hmayU : u.ctxMayWrite m = true := by
    rw [hu]
    exact hmay
  obtain ⟨rce, hpair⟩ := u.ctxWordWrite_pair m i (BitVec.ofNat 32 (leAt data 0 4)) (BitVec.ofNat 32 (leAt data 4 4))
  have hwrite : s.memWrite m (0x12000000 + 8 * i) data =
      (({ u with rce := rce } : State).storeN (0x12000000 + 8 * i) 4 (leAt data 0 4 &&& 0xFFFF7FFF)).storeN
        (0x12000000 + 8 * i + 4) 4 (leAt data 4 4 &&& 0xFFFFFF) := by
    rw [State.memWrite_of_word hheld hnil (by omega), ← hu, u.writeBeat_context _ _ (by omega), u.ctxBeat_entry i hdata hmayU,
      hpair, htoNat, htoNat, Nat.mul_comm]
  refine ⟨_, (s.regionWrite_of_inside _ m _ hnil (by simp only; omega)).trans (congrArg _ hwrite), ?_, fun k _ => ?_⟩
  · have hwrote := ({ u with rce := rce } : State).wrote_storePair (0x12000000 + 8 * i) (leAt data 0 4 &&& 0xFFFF7FFF)
      (leAt data 4 4 &&& 0xFFFFFF)
    rw [hu] at hwrote ⊢
    exact hwrote
  · rw [State.storeN, State.reg_setBytes, State.storeN, State.reg_setBytes, hu]
    rfl

end Sys2Proof.Machine
end

section
/-! PROOFS. Writes of MRAM and of the key slots (R347, R348, R469 to R471). -/

namespace Sys2Proof.Machine

/-! ### MRAM (R470) -/

theorem fld_word (w : Word) : fld w 0 32 = w.toNat := Nat.mod_eq_of_lt w.isLt

/-- Words of MRAM are counted up to the counter's top; nothing else changes. -/
theorem State.reg_nvmCount (s : State) (n : Nat) :
    ((s.nvmCount n).reg Reg.NVM_WORDS).toNat = satAdd (2 ^ 32 - 1) (s.reg Reg.NVM_WORDS).toNat n ∧
      SameRegs s (s.nvmCount n) [Reg.NVM_WORDS] := by
  have htop : satAdd (2 ^ 32 - 1) (s.reg Reg.NVM_WORDS).toNat n < 2 ^ 32 := by
    unfold satAdd
    split <;> omega
  refine ⟨?_, fun k hk => ?_⟩
  · rw [nvmCount, reg_bump, if_pos rfl, ← fld_word, fld_putBits_same _ (by decide), State.fld, fld_word, Nat.mod_eq_of_lt htop]
  · rw [nvmCount, reg_bump, if_neg (by simpa using hk)]

/-- A beat to MRAM below the key slots puts its bytes and counts one word. -/
theorem State.mramBeat_open (s : State) {m a : Nat} (l : List Byte) (ha : a < 0x15E03000) (hopen : s.mramOpen m a = true) :
    s.mramBeat m a l = (s.setBytes a l).nvmCount 1 := by
  unfold mramBeat
  rw [if_neg (by omega), if_neg (by omega), if_neg (by simp [hopen])]
  dsimp only
  rw [if_neg (by omega), if_neg (by omega)]

theorem mramWrite_writes (m : Fin 8) (off : Fin 33554432) (data : List Byte) (s : State) (hdata : data ≠ [])
    (hword : off % 8 + data.length ≤ 8) (hin : off + data.length ≤ 0x1E03000) (hheld : s.memHeld = false)
    (hopen : s.mramOpen m (0x14000000 + off) = true) :
    Completes (.mramWrite m off data) s fun t => Wrote s t (0x14000000 + off) data ∧
      (t.reg Reg.NVM_WORDS).toNat = satAdd (2 ^ 32 - 1) (s.reg Reg.NVM_WORDS).toNat 1 ∧ SameRegs s t [Reg.NVM_WORDS] := by
  have hpos := List.length_pos_iff.2 hdata
  obtain ⟨u, hu⟩ : ∃ u, u = s.respond m true (0x14000000 + off) .ok 0 := ⟨_, rfl⟩
  have hwrite : s.memWrite m (0x14000000 + off) data = (u.setBytes (0x14000000 + off) data).nvmCount 1 := by
    rw [State.memWrite_of_word hheld hdata (by omega), ← hu, u.writeBeat_mram _ _ (by omega),
      u.mramBeat_open _ (by omega) (hu ▸ hopen)]
  obtain ⟨hwords, hregs⟩ := (u.setBytes (0x14000000 + off) data).reg_nvmCount 1
  have hregU (k : Nat) : (u.setBytes (0x14000000 + off) data).reg k = s.reg k := by
    rw [State.reg_setBytes, hu]
    rfl
  refine ⟨_, (s.regionWrite_of_inside _ m _ hdata (by omega)).trans (congrArg _ hwrite), ?_, ?_, fun k hk => ?_⟩
  · have hwrote := (u.wrote_setBytes (0x14000000 + off) data).of_mem (u := (u.setBytes (0x14000000 + off) data).nvmCount 1) rfl
    rw [hu] at hwrote ⊢
    exact hwrote
  · rw [hwords, hregU]
  · rw [hregs k hk, hregU]

/-! ### Key slots (R347, R348, R471) -/

/-- Address of a key slot (R469). -/
def keySlotAt (n : Nat) : Nat := 0x15E03000 + 32 * n

/-- The key held for slot `n`. -/
def State.keyOf (s : State) (n : Nat) : List Byte := if n = 0 then s.net.key0 else s.net.key1

/-- A slot takes the key that lies in MRAM, and is valid when that is not all zeros. -/
theorem State.takeKey_takes (s : State) {n : Nat} (hn : n < 2) :
    (s.takeKey n).keyOf n = s.bytes (keySlotAt n) 32 ∧
      (s.takeKey n).bit Reg.MGT_STAT (4 + n) = (s.bytes (keySlotAt n) 32).any (· != 0) := by
  refine ⟨?_, ?_⟩
  · unfold keyOf takeKey
    dsimp only
    rw [setBit_net]
    by_cases h0 : n = 0
    · rw [if_pos h0, if_pos h0]
      rfl
    · rw [if_neg h0, if_neg h0]
      rfl
  · unfold takeKey
    dsimp only
    rw [bit_setBit _ _ _ _ (by omega), if_pos ⟨rfl, rfl⟩]
    rfl

/-- The device acts and MRAM has power: all masters may write MRAM (R470). -/
def State.KeysOpen (s : State) : Prop := s.roleActs = true ∧ s.bit Reg.NVM_STAT 1 = false

theorem State.KeysOpen.mramOpen {s : State} (h : s.KeysOpen) (m a : Nat) : s.mramOpen m a = true := by
  obtain ⟨hrole, hpower⟩ := h
  rw [State.mramOpen, hrole, hpower]
  rfl

theorem State.KeysOpen.of_reg {s t : State} (h : s.KeysOpen) (hregs : SameRegs s t [Reg.NVM_WORDS]) : t.KeysOpen := by
  obtain ⟨hrole, hpower⟩ := h
  have hred : t.reg Reg.RED_ROLE = s.reg Reg.RED_ROLE := hregs _ (by decide)
  refine ⟨?_, (bit_of_reg (hregs _ (by decide)) 1).trans hpower⟩
  rw [roleActs, role, State.fld, hred]
  exact hrole

/-- What holds of the writing of a key slot come to address `b`: an aligned place; MRAM stays open until the last beat, with which the
slot takes its key. -/
def KeyWriting (n b : Nat) (t : State) : Prop :=
  b % 8 = 0 ∧ (b < keySlotAt n + 32 → t.KeysOpen) ∧
    (b = keySlotAt n + 32 → t.keyOf n = t.bytes (keySlotAt n) 32 ∧
      t.bit Reg.MGT_STAT (4 + n) = (t.bytes (keySlotAt n) 32).any (· != 0))

theorem State.bytes_of_mem {s t : State} (h : t.mem = s.mem) (a n : Nat) : t.bytes a n = s.bytes a n :=
  List.map_congr_left fun i _ => byte_of_mem h (a + i)

section

variable {s : State} {m n a : Nat} {l : List Byte} (hn : n < 2) (hm : m < 2)

include hn hm

/-- A beat of M0 or M1 to an open key slot puts its bytes; the last of the slot's four words takes the key. -/
theorem State.mramBeat_key (hopen : s.KeysOpen) (ha : a % 8 = 0) (hin : keySlotAt n ≤ a ∧ a < keySlotAt n + 32) :
    s.mramBeat m a l =
      if a = keySlotAt n + 24 then ((s.setBytes a l).nvmCount 1).takeKey n else (s.setBytes a l).nvmCount 1 := by
  unfold keySlotAt at *
  unfold mramBeat
  rw [if_neg (by omega), if_neg (by omega), if_neg (by rw [hopen.mramOpen m a]; decide)]
  dsimp only
  by_cases hlast : a = 0x15E03000 + 32 * n + 24
  · obtain rfl | rfl : n = 0 ∨ n = 1 := by omega
    · rw [if_pos hlast, if_pos (by omega)]
    · rw [if_pos hlast, if_neg (by omega), if_pos (by omega)]
  · rw [if_neg hlast, if_neg (by omega), if_neg (by omega)]

/-- Each beat of the writing of a key slot goes on with it. -/
theorem KeyWriting.beat (hbeat : Beat (keySlotAt n) (keySlotAt n + 32) a l) (h : KeyWriting n a s) :
    KeyWriting n (a + l.length) (s.writeBeat m a l) ∧ Wrote s (s.writeBeat m a l) a l := by
  obtain ⟨haligned, hopen, -⟩ := h
  obtain ⟨hnil, hinWord, hends, habove, hbelow⟩ := hbeat
  have hpos := List.length_pos_iff.2 hnil
  have hwrote := (s.wrote_setBytes a l).of_mem (u := (s.setBytes a l).nvmCount 1) rfl
  have hbase : keySlotAt n % 8 = 0 ∧ 0x15E03000 ≤ keySlotAt n ∧ keySlotAt n < 0x15E03040 := by
    unfold keySlotAt
    omega
  have hlen : l.length = 8 := by omega
  rw [s.writeBeat_mram _ _ (by omega), State.mramBeat_key hn hm (hopen (by omega)) haligned (by omega)]
  by_cases hlast : a = keySlotAt n + 24
  · rw [if_pos hlast]
    have hmem := (State.takeKey_frame ((s.setBytes a l).nvmCount 1) n).2.2
    obtain ⟨hkey, hvalid⟩ := ((s.setBytes a l).nvmCount 1).takeKey_takes hn
    rw [← State.bytes_of_mem hmem] at hkey hvalid
    exact ⟨⟨by omega, by omega, fun _ => ⟨hkey, hvalid⟩⟩, hwrote.of_mem hmem⟩
  · rw [if_neg hlast]
    obtain ⟨-, hregs⟩ := (s.setBytes a l).reg_nvmCount 1
    refine ⟨⟨by omega, fun _ => (hopen (by omega)).of_reg fun k hk => ?_, by omega⟩, hwrote⟩
    rw [hregs k hk, State.reg_setBytes]

end

theorem keySlotWrite_writes (m : Fin 8) (slot : Fin 2) (data : List Byte) (s : State) (hdata : data.length = 32) (hm : m.val < 2)
    (hheld : s.memHeld = false) (hrole : s.roleActs = true) (hpower : s.bit Reg.NVM_STAT 1 = false) :
    Completes (.keySlotWrite m slot 0 data) s fun t => Wrote s t (0x15E03000 + 32 * slot) data ∧
      (if slot.val = 0 then t.net.key0 else t.net.key1) = data ∧ t.bit Reg.MGT_STAT (4 + slot) = data.any (· != 0) := by
  have hnil : data ≠ [] := List.length_pos_iff.1 (by omega)
  have haligned : keySlotAt slot % 8 = 0 := by
    unfold keySlotAt
    omega
  obtain ⟨⟨-, -, htaken⟩, hwrote⟩ := State.memWrite_of_beats hheld (m := m) (a := keySlotAt slot) (l := data)
    (Q := KeyWriting slot) ⟨haligned, fun _ => ⟨hrole, hpower⟩, by omega⟩ fun t b d hb ht => by
      rw [hdata] at hb
      exact ht.beat slot.isLt hm hb
  obtain ⟨hkey, hvalid⟩ := htaken (by rw [hdata])
  have hbytes := hwrote.bytes
  rw [hdata] at hbytes
  rw [hbytes] at hkey hvalid
  exact ⟨_, s.regionWrite_of_inside _ m _ hnil (Nat.le_of_eq ((Nat.zero_add _).trans hdata)), hwrote, hkey, hvalid⟩

/-- Settles O41, clause by clause. -/
theorem memoryWriteCommandsComplete : Obligations.MemoryWriteCommandsComplete := by
  unfold Obligations.MemoryWriteCommandsComplete
  exact ⟨stateStoreWrite_writes, contextEntryWrite_writes, profileShadowWrite_writes, placementShadowWrite_writes,
    loopContextWrite_writes, mramWrite_writes, keySlotWrite_writes⟩

end Sys2Proof.Machine
end

section
/-! PROOFS. The check and the repack of a placement set, and the retirement of an engine (R173, R178, R179, R180). -/

namespace Sys2Proof.Machine

/-- A plain write of a register that no takeover asks for leaves every other register (R456). -/
theorem State.reg_storeReg_apart (s : State) {a k : Nat} (v : Word) (ha : a ∉ takeoverRegs) (hk : k ≠ a) :
    (s.storeReg a v).reg k = s.reg k := by
  unfold storeReg
  split
  · rfl
  · rw [storeRow, noteWritten_of_other _ ha, reg_setForceIf, reg_setReg, if_neg hk]

theorem State.reg_storeReg_lplCtrl (s : State) (v : Word) {k : Nat} (hk : k ≠ Reg.LPL_CTRL) :
    (s.storeReg Reg.LPL_CTRL v).reg k = s.reg k :=
  s.reg_storeReg_apart v (by decide) hk

/-- Where what LPL_CTRL starts from the state `u` after the plain write sets bit `i` of LPL_STAT and changes no other register, the
accepted write as a whole sets that bit and changes those two registers alone. -/
theorem State.gateWrite_lplCtrl {s : State} {m i : Nat} {v : Word} {start : State → State}
    (hacc : s.accepts m Reg.LPL_CTRL v = true) {u : State}
    (hu : u = (s.respond m true Reg.LPL_CTRL .ok 0).storeReg Reg.LPL_CTRL v)
    (hbit : (start u).bit Reg.LPL_STAT i = true) (hregs : SameRegs u (start u) [Reg.LPL_STAT]) :
    (s.gateWrite m Reg.LPL_CTRL v fun s => start (s.storeReg Reg.LPL_CTRL v)).bit Reg.LPL_STAT i = true ∧
      SameRegs s (s.gateWrite m Reg.LPL_CTRL v fun s => start (s.storeReg Reg.LPL_CTRL v)) [Reg.LPL_CTRL, Reg.LPL_STAT] := by
  subst hu
  refine ⟨(s.bit_gateWrite _ hacc ..).trans hbit, fun k hk => ?_⟩
  simp only [List.mem_cons, List.not_mem_nil, or_false, not_or] at hk
  obtain ⟨hctrl, hstat⟩ := hk
  rw [reg_gateWrite s _ hacc, hregs k (by simpa using hstat), reg_storeReg_lplCtrl _ _ hctrl, reg_respond]

/-! ### The check (R173) -/

theorem State.startCheck_starts (s : State) :
    s.startCheck.bit Reg.LPL_STAT 9 = true ∧ SameRegs s s.startCheck [Reg.LPL_STAT] := by
  unfold startCheck
  split
  case isTrue hbusy => exact ⟨hbusy, fun _ _ => rfl⟩
  case isFalse =>
    refine ⟨?_, fun k hk => ?_⟩
    · rw [bit_setBit _ _ _ _ (by decide), if_pos ⟨rfl, rfl⟩]
    · rw [reg_setBit, if_neg (by simpa using hk)]

theorem placementCheck_begins (m : Fin 8) (auto : Bool) (s : State)
    (hacc : s.accepts m Reg.LPL_CTRL (BitVec.ofNat 32 (1 + 2 * b2n auto)) = true) :
    Completes (.placementCheck m auto) s fun t => t.bit Reg.LPL_STAT 9 = true ∧ SameMem s t ∧
      SameRegs s t [Reg.LPL_CTRL, Reg.LPL_STAT] := by
  obtain ⟨hstarted, hother⟩ := State.startCheck_starts
    ((s.respond m true Reg.LPL_CTRL .ok 0).storeReg Reg.LPL_CTRL (BitVec.ofNat 32 (1 + 2 * b2n auto)))
  obtain ⟨hbit, hregs⟩ := State.gateWrite_lplCtrl hacc rfl hstarted hother
  exact ⟨_, rfl, hbit, sameMem_of_frame (execPlacementCheck_frame m auto s rfl), hregs⟩

/-- A check that has ended with result `r`, before CHECKED shows it. -/
def State.checkShown (s : State) (r : ChkRes) : State :=
  ((s.setBit Reg.LPL_STAT 9 false).setRegN Reg.LPL_CHK_RES
    (r.code + 16 * r.fb + 256 * r.engine + 8192 * b2n r.degraded + 65536 * r.residue + 2 ^ 24 * r.efe)).setRegN
    Reg.LPL_CHK_ENTRY (r.index + 65536 * r.loop)

/-- CHECKED as a result with a code leaves it: set by code 0, else cleared with what waits on it. -/
def State.takeChecked (s : State) (code : Nat) : State := if code = 0 then s.setBit Reg.LPL_STAT 10 true else s.clearChecked

theorem State.checkDone_of_busy {s : State} (hbusy : s.bit Reg.LPL_STAT 9 = true) :
    s.checkDone = ((s.checkShown s.checkSet).takeChecked s.checkSet.code).raise pLPL 0 :=
  if_neg (by simp [hbusy])

/-- The registers of a result hold it, and CHECKING is cleared. -/
theorem State.checkShown_shows (s : State) (r : ChkRes) :
    (s.checkShown r).bit Reg.LPL_STAT 9 = false ∧ (s.checkShown r).fld Reg.LPL_CHK_RES 0 4 = r.code % 16 := by
  constructor
  · rw [checkShown, bit, reg_setRegN, if_neg (by decide), reg_setRegN, if_neg (by decide)]
    exact (bit_setBit _ _ _ _ (by decide)).trans (if_pos ⟨rfl, rfl⟩)
  · rw [checkShown, fld, reg_setRegN, if_neg (by decide), reg_setRegN, if_pos rfl, fld_ofNat (by decide), bits,
      Nat.shiftRight_zero]
    omega

theorem State.reg_clearChecked (s : State) {k : Nat} (hk : k ∉ [Reg.LPL_STAT, Reg.LPL_CMT_RES] ++ raiseKeys pLPL) :
    s.clearChecked.reg k = s.reg k := by
  simp only [List.mem_append, List.mem_cons, List.not_mem_nil, or_false, not_or] at hk
  obtain ⟨⟨hstat, hres⟩, hraise⟩ := hk
  unfold clearChecked
  dsimp only
  split
  · rw [reg_raise _ hraise, reg_setRegN, if_neg hres, reg_dropCommit, reg_setBit, if_neg hstat]
  · rw [reg_setBit, if_neg hstat]

/-- CHECKED shows whether the code is 0; CHECKING and the result stay. -/
theorem State.takeChecked_shows (s : State) (code : Nat) :
    (s.takeChecked code).bit Reg.LPL_STAT 10 = (code == 0) ∧
      (s.takeChecked code).bit Reg.LPL_STAT 9 = s.bit Reg.LPL_STAT 9 ∧
      (s.takeChecked code).reg Reg.LPL_CHK_RES = s.reg Reg.LPL_CHK_RES := by
  unfold takeChecked
  by_cases hcode : code = 0
  · rw [if_pos hcode, bit_setBit _ _ _ _ (by decide), bit_setBit _ _ _ _ (by decide), reg_setBit]
    exact ⟨by simp [hcode], rfl, rfl⟩
  · obtain ⟨hchecked, -, hchecking, -⟩ := s.clearChecked_clears
    rw [if_neg hcode, hchecked, hchecking, reg_clearChecked s (by decide)]
    exact ⟨by simp [hcode], rfl, rfl⟩

theorem placementCheckDone_ends (s : State) (hbusy : s.bit Reg.LPL_STAT 9 = true) :
    Completes .placementCheckDone s fun t => t.bit Reg.LPL_STAT 9 = false ∧
      t.fld Reg.LPL_CHK_RES 0 4 = s.checkSet.code % 16 ∧ t.bit Reg.LPL_STAT 10 = (s.checkSet.code == 0) ∧
      t.bit (cReg pLPL OFF_INT_STAT) 0 = true ∧ SameMem s t := by
  obtain ⟨hidle, hres⟩ := s.checkShown_shows s.checkSet
  obtain ⟨hchecked, hchecking, hkept⟩ := (s.checkShown s.checkSet).takeChecked_shows s.checkSet.code
  have hmem := sameMem_of_frame s.checkDone_frame
  refine ⟨s.checkDone, rfl, ?_⟩
  rw [State.checkDone_of_busy hbusy] at hmem ⊢
  have hstat := State.reg_raise ((s.checkShown s.checkSet).takeChecked s.checkSet.code) (page := pLPL) (i := 0)
    (k := Reg.LPL_STAT) (by decide)
  refine ⟨?_, ?_, ?_, State.bit_raise _ pLPL (by decide), hmem⟩
  · rw [State.bit_of_reg hstat, hchecking, hidle]
  · rw [State.fld_of_reg (State.reg_raise _ (by decide)), State.fld_of_reg hkept, hres]
  · rw [State.bit_of_reg hstat, hchecked]

/-! ### The repack (R180) -/

theorem State.startRepack_starts {s : State} (hsource : s.placeSource ≠ 0) :
    s.startRepack.bit Reg.LPL_STAT 11 = true ∧ SameRegs s s.startRepack [Reg.LPL_STAT] := by
  rw [startRepack, if_neg hsource]
  refine ⟨?_, fun k hk => ?_⟩
  · rw [bit_setBit _ _ _ _ (by decide), if_pos ⟨rfl, rfl⟩]
  · rw [reg_setBit, if_neg (by simpa using hk)]

theorem repack_begins (m : Fin 8) (auto : Bool) (s : State)
    (hacc : s.accepts m Reg.LPL_CTRL (BitVec.ofNat 32 (4 + 2 * b2n auto)) = true) (hsource : s.placeSource ≠ 0) :
    Completes (.repack m auto) s fun t => t.bit Reg.LPL_STAT 11 = true ∧ SameMem s t ∧
      SameRegs s t [Reg.LPL_CTRL, Reg.LPL_STAT] := by
  obtain ⟨u, hu⟩ : ∃ u, u = (s.respond m true Reg.LPL_CTRL .ok 0).storeReg Reg.LPL_CTRL
      (BitVec.ofNat 32 (4 + 2 * b2n auto)) := ⟨_, rfl⟩
  have hstat : u.reg Reg.LPL_STAT = s.reg Reg.LPL_STAT := by
    rw [hu, State.reg_storeReg_lplCtrl _ _ (by decide), State.reg_respond]
  obtain ⟨hstarted, hother⟩ := State.startRepack_starts (s := u) (by rwa [State.placeSource, State.fld_of_reg hstat])
  obtain ⟨hbit, hregs⟩ := State.gateWrite_lplCtrl hacc hu hstarted hother
  exact ⟨_, rfl, hbit, sameMem_of_frame (execRepack_frame m auto s rfl), hregs⟩

/-- Of the registers, a table that comes into force changes LPL_STAT: SOURCE and the engine of the fallback. -/
theorem State.reg_installLists (s : State) (lists : List (List Nat)) (source fb k : Nat) :
    (s.installLists lists source fb).reg k = ((s.setFld Reg.LPL_STAT 6 2 source).setFld Reg.LPL_STAT 0 5 fb).reg k := rfl

theorem State.reg_clearMem (s : State) (lo hi k : Nat) : (s.clearMem lo hi).reg k = s.reg k := rfl

/-- LPL_STAT after a repack is as the repacked table's coming into force leaves it. -/
theorem State.reg_repackDone_stat {s : State} (hbusy : s.bit Reg.LPL_STAT 11 = true) :
    s.repackDone.reg Reg.LPL_STAT =
      (((s.setBit Reg.LPL_STAT 11 false).takeGuarantee.setFld Reg.LPL_STAT 6 2 3).setFld Reg.LPL_STAT 0 5 0).reg Reg.LPL_STAT := by
  unfold repackDone
  rw [if_neg (by simp [hbusy])]
  dsimp only
  rw [reg_raiseIf _ (by decide), reg_raise _ (by decide), reg_setRegN, if_neg (by decide), reg_setRegN, if_neg (by decide),
    reg_setBytes, reg_clearMem]
  rfl

theorem State.bit_takeGuarantee (s : State) {i : Nat} (hi : i < 14) :
    s.takeGuarantee.bit Reg.LPL_STAT i = s.bit Reg.LPL_STAT i :=
  bit_setFld_other _ (by decide) (.inr (.inl hi))

/-- The end of a repack is an event. -/
theorem State.bit_repackDone {s : State} (hbusy : s.bit Reg.LPL_STAT 11 = true) :
    s.repackDone.bit (cReg pLPL OFF_INT_STAT) 4 = true := by
  unfold repackDone
  rw [if_neg (by simp [hbusy])]
  exact bit_raiseIf_keeps _ _ _ (by decide) (bit_raise _ pLPL (by decide))

theorem repackDone_ends (s : State) (hbusy : s.bit Reg.LPL_STAT 11 = true) :
    Completes .repackDone s fun t => t.bit Reg.LPL_STAT 11 = false ∧ t.placeSource = 3 ∧ t.fld Reg.LPL_STAT 0 5 = 0 ∧
      t.bit (cReg pLPL OFF_INT_STAT) 4 = true := by
  have hstat := State.reg_repackDone_stat hbusy
  refine ⟨_, rfl, ?_, ?_, ?_, State.bit_repackDone hbusy⟩
  · rw [State.bit_of_reg hstat, State.bit_setFld_other _ (by decide) (by decide), State.bit_setFld_other _ (by decide) (by decide),
      State.bit_takeGuarantee _ (by decide), State.bit_setBit _ _ _ _ (by decide), if_pos ⟨rfl, rfl⟩]
  · exact (State.fld_of_reg hstat 6 2).trans ((State.fld_setFld_other _ (by decide) (by decide)).trans
      (State.fld_setFld_same _ (by decide)))
  · exact (State.fld_of_reg hstat 0 5).trans (State.fld_setFld_same _ (by decide))

/-! ### Retirement of an engine (R178, R179) -/

theorem State.reg_retireInTick (s : State) {page : Nat} (c code synHi : Nat) (t : Tick) {k : Nat}
    (hk : k < 0x04006000 ∨ 0x04007000 ≤ k) (hraise : k ∉ raiseKeys page) (hcnt : k ≠ cReg page OFF_FAULT_CNT) :
    (s.retireInTick page c code synHi t).reg k = s.reg k := by
  unfold retireInTick
  split
  · rfl
  · dsimp only
    rw [reg_logEvent _ _ _ _ _ _ hk, reg_bump, if_neg hcnt, reg_withSummary _ hraise rfl, reg_notDue]

/-- An engine lost to the table in force changes LPL_STAT, and may be an event of the LPL page. -/
theorem State.reg_engineLost (s : State) (e : Nat) {k : Nat} (hstat : k ≠ Reg.LPL_STAT) (hraise : k ∉ raiseKeys pLPL) :
    (s.engineLost e).reg k = s.reg k := by
  unfold engineLost
  dsimp only
  split
  · rw [reg_raise _ hraise, reg_installLists, reg_setFld, if_neg hstat, reg_setFld, if_neg hstat]
  · split
    · rfl
    · split
      · rw [reg_setBit, if_neg hstat]
        rfl
      · rfl

/-- An engine lost to the table in force leaves INT_STAT of the engines' pages, which lie below the LPL page. -/
theorem State.reg_engineLost_lenIntStat (s : State) {e : Nat} (he : e < 32) :
    (s.engineLost e).reg (cReg (pLEN e) OFF_INT_STAT) = s.reg (cReg (pLEN e) OFF_INT_STAT) := by
  have hint : cReg (pLEN e) OFF_INT_STAT = 0x04000000 + (0x20 + e) * 0x1000 + 0x10 := rfl
  have hstat : Reg.LPL_STAT = 0x04040108 := rfl
  have hkeys : raiseKeys pLPL = [0x04040010, 0x04006128, 0x04006010, 0x04006120] := rfl
  refine s.reg_engineLost e (by omega) ?_
  simp only [hint, hkeys, List.mem_cons, List.not_mem_nil, or_false, not_or]
  omega

section

variable {s : State} {e : Nat} (cause : Nat) (hserv : bitAt s.retMask e = false) (he : e < 32)

include hserv he

/-- Of the registers that are a page's own, the retirement of an engine in service changes LPL_RET_MASK, the engine's LEN_STAT and
LPL_STAT. -/
theorem State.reg_engineRetire {k : Nat} (hk : 0x04007000 ≤ k) (hown : 0x100 ≤ k % 0x1000) (hstat : k ≠ Reg.LPL_STAT) :
    (s.engineRetire e cause).reg k =
      ((s.setBit Reg.LPL_RET_MASK e true).setFld (atInst Reg.LEN_STAT e) 0 3 (1 + 2 * cause)).reg k := by
  have hpage : pLEN e < 0x4000 := by
    unfold pLEN
    omega
  have hlen : k ∉ raiseKeys (pLEN e) := not_mem_raiseKeys hpage (.inr hk) hown
  have hcnt : k ≠ cReg (pLEN e) OFF_FAULT_CNT := by
    have haddr : cReg (pLEN e) OFF_FAULT_CNT = 0x04000000 + pLEN e * 0x1000 + 0x30 := rfl
    omega
  unfold engineRetire
  rw [if_neg (by simp [hserv])]
  dsimp only
  rw [reg_engineLost _ _ hstat (not_mem_raiseKeys (by decide) (.inr hk) hown), reg_raise _ hlen,
    reg_retireInTick _ _ _ _ _ (.inr hk) hlen hcnt]
  rfl

/-- An engine in service that retires is shown retired, in LEN_STAT with its cause, and is an event of its page. -/
theorem State.engineRetire_retires :
    bitAt (s.engineRetire e cause).retMask e = true ∧
      (s.engineRetire e cause).fld (atInst Reg.LEN_STAT e) 0 3 = (1 + 2 * cause) % 8 ∧
      (s.engineRetire e cause).bit (cReg (pLEN e) OFF_INT_STAT) 5 = true := by
  have hlen : atInst Reg.LEN_STAT e = 0x04020104 + e * 0x1000 := rfl
  have hmask : Reg.LPL_RET_MASK = 0x0404011C := rfl
  have hstat : Reg.LPL_STAT = 0x04040108 := rfl
  refine ⟨?_, ?_, ?_⟩
  · change (s.engineRetire e cause).bit Reg.LPL_RET_MASK e = true
    rw [bit_of_reg (reg_engineRetire cause hserv he (by decide) (by decide) (by decide)),
      bit_setFld_other _ (by decide) (.inl (by omega)), bit_setBit _ _ _ _ he, if_pos ⟨rfl, rfl⟩]
  · exact (fld_of_reg (reg_engineRetire cause hserv he (by omega) (by omega) (by omega)) 0 3).trans
      (fld_setFld_same _ (by decide))
  · unfold engineRetire
    rw [if_neg (by simp [hserv])]
    dsimp only
    rw [bit_of_reg (reg_engineLost_lenIntStat _ he)]
    exact bit_raise _ _ (by decide)

/-- RETIRE of an engine in service waits for the close of its window while the Ringmaster runs, and retires it at once else. -/
theorem State.lenRetire_retires :
    (s.running = true → ((s.lenRetire e).lpl.retReq.map (·.1)).contains e = true) ∧
      (s.running = false → bitAt (s.lenRetire e).retMask e = true) := by
  unfold lenRetire
  rw [if_neg (by simp [hserv])]
  constructor
  · intro hrun
    rw [if_neg (by simp [hrun])]
    simp
  · intro hstopped
    rw [if_pos (by simp [hstopped])]
    obtain ⟨hmask, -⟩ := engineRetire_retires 3 hserv he
    exact hmask

end

theorem lenRetire_asks (m : Fin 8) (e : Fin 32) (s : State) (hacc : s.accepts m (atInst Reg.LEN_CTRL e) 1 = true)
    (hserv : bitAt s.retMask e = false) :
    Completes (.lenRetire m e) s fun t =>
      (s.running = true → (t.lpl.retReq.map (·.1)).contains e.val = true) ∧ (s.running = false → bitAt t.retMask e = true) := by
  obtain ⟨hwaits, hretires⟩ := State.lenRetire_retires (s := s.respond m true (atInst Reg.LEN_CTRL e) .ok 0) hserv e.isLt
  refine ⟨_, rfl, fun hrun => ?_, fun hstopped => ?_⟩
  · rw [State.gateWrite_lpl s _ hacc]
    exact hwaits hrun
  · rw [State.retMask, State.reg_gateWrite s _ hacc]
    exact hretires hstopped

/-- An engine that is due to retire is in service. -/
theorem State.inService_of_engineDue {s : State} {e c : Nat} (hdue : s.engineDue? e = some c) : bitAt s.retMask e = false :=
  Bool.of_not_eq_true fun hret => by
    rw [engineDue?, if_pos hret] at hdue
    cases hdue

theorem engineRetire_completes (e : Fin 32) (c : Nat) (s : State) (hdue : s.engineDue? e = some c) :
    Completes (.engineRetire e) s fun t => bitAt t.retMask e = true ∧ t.fld (atInst Reg.LEN_STAT e) 0 3 = (1 + 2 * c) % 8 ∧
      t.bit (cReg (pLEN e) OFF_INT_STAT) 5 = true ∧ SameMem s t := by
  have hexec : exec (.engineRetire e) s = .next (s.engineRetire e c) := by
    change execEngineRetire e s = _
    rw [execEngineRetire, hdue]
  obtain ⟨hmask, hcause, hevent⟩ := State.engineRetire_retires c (State.inService_of_engineDue hdue) e.isLt
  exact ⟨_, hexec, hmask, hcause, hevent, sameMem_of_frame (s.engineRetire_frame e c)⟩

/-- Settles O19, clause by clause. -/
theorem placementCommandsComplete : Obligations.PlacementCommandsComplete := by
  unfold Obligations.PlacementCommandsComplete
  exact ⟨placementCheck_begins, placementCheckDone_ends, repack_begins, repackDone_ends, lenRetire_asks, engineRetire_completes⟩

end Sys2Proof.Machine
end

section
/-! PROOFS. Apply requests and their staging, the cancellation of the queue, and the safety net (R191 to R193, R197 to R199, R203). -/

namespace Sys2Proof.Machine

/-! ### What leaves the apply queue alone -/

theorem State.showChange_rce (s : State) (n : Nat) : (s.showChange n).rce = s.rce := by
  unfold showChange
  dsimp only
  split <;> rfl

theorem State.announce_rce (s : State) (n : Nat) (t : Tick) (lanes : Nat) (tck : Bool) : (s.announce n t lanes tck).rce = s.rce := by
  unfold announce
  dsimp only
  rw [raise_rce, showChange_rce, setPort_rce]

theorem State.withdrawTck_rce (s : State) (k : Tick) : (s.withdrawTck k).rce = s.rce := by
  refine List.foldlRecOn (motive := fun t : State => t.rce = s.rce) _ _ rfl fun t ht n _ => ?_
  dsimp only
  split
  · rw [announce_rce, apply_ite State.rce, setPort_rce, ite_self, ht]
  · exact ht

theorem State.tckCancel_rce (s : State) : s.tckCancel.rce = s.rce := by
  unfold tckCancel
  dsimp only
  rw [raiseIf_rce, setTransition_rce]
  rfl

/-- The watch over a TCK commit that waits leaves the apply queue and what is staged. -/
theorem State.tckWatch_rce (s : State) : s.tckWatch.rce = s.rce := by
  unfold tckWatch
  split
  · split
    · rw [withdrawTck_rce, tckCancel_rce]
      split <;> rfl
    · rfl
  · rfl

/-- The watch over a stop of the Ringmaster leaves the apply queue and what is staged. -/
theorem State.stopWatch_rce (s : State) : s.stopWatch.rce = s.rce := by
  unfold stopWatch
  split
  · rfl
  · split <;> rfl

theorem State.recordLate_rce (s : State) (index : Nat) (a : Tick) (used : Option Tick) : (s.recordLate index a used).rce = s.rce := by
  unfold recordLate
  dsimp only
  rw [logEvent_rce]
  cases used <;> rfl

theorem State.applyRes_rce (s : State) (code : Nat) (lateTr : Bool) : (s.applyRes code lateTr).rce = s.rce :=
  raiseIf_rce ..

/-- A frame of the mirror link leaves the state store's part and the registers. -/
theorem State.sendMirror_keeps (s : State) (kind : Nat) (tick : Tick) (seq : Nat) (body : List Byte) :
    (s.sendMirror kind tick seq body).rce = s.rce ∧ ∀ k, (s.sendMirror kind tick seq body).reg k = s.reg k := by
  unfold sendMirror emitMirror mirBlocks
  split
  · split <;> exact ⟨rfl, fun _ => rfl⟩
  · exact ⟨rfl, fun _ => rfl⟩

/-! ### An apply request (R197, R198, R203) -/

/-- The tick that an apply request counts for: the next one from the cut-off on. -/
def State.requestTick (s : State) : Tick := if s.applyCutoff ≤ s.ntu.cyc then s.now + 1 else s.now

/-- The boundary asked for is less than two after the request. -/
def State.requestLate (s : State) : Bool := decide (s.applyTick.toNat < s.requestTick.toNat + 2)

/-- The boundary of a request under NEXT: the one asked for, or the earliest one when that is late. -/
def State.requestBoundary (s : State) : Tick := if s.requestLate then s.requestTick + 2 else s.applyTick

/-- What a request stages. -/
def State.applyRequest (s : State) : Staging :=
  ⟨s.fld Reg.RCE_APPLY_REC 0 13, s.requestBoundary, s.requestLate, false, s.applyTick, decide (s.applyCutoff ≤ s.ntu.cyc)⟩

/-- No test of R198 but that of the record refuses an apply request. -/
structure State.ApplyPasses (s : State) : Prop where
  free : s.rce.staging = none
  acts : s.roleActs = true
  noCarousel : s.carousel = false
  adopted : s.orphaned = false
  noSafe : s.safe = false
  inTime : s.requestLate = false ∨ s.bit Reg.RCE_LATE_POLICY 0 = true
  room : s.queueTests s.requestBoundary = 0

/-- A request is taken: its result, and STAGING. -/
def State.stage (s : State) (g : Staging) : State :=
  { s.setRegN Reg.RCE_APPLY_RES (16 * b2n g.lateTr) with rce := { s.rce with staging := some g } }.setBit Reg.RCE_STAT 2 true

/-- In role active a request is forwarded (R202). -/
def State.forwardApply (s : State) (g : Staging) : State :=
  if s.role = 1 then s.sendMirror 0x64 s.now 0 (padTo 32 (toLE 2 g.index ++ toLE 8 g.a.toNat)) else s

theorem State.ApplyPasses.applyGo_eq {s : State} (h : s.ApplyPasses) :
    s.applyGo = (s.stage s.applyRequest).forwardApply s.applyRequest := by
  obtain ⟨hfree, hacts, hcarousel, hadopted, hsafe, hlate, hroom⟩ := h
  have htick : (if decide (s.applyCutoff ≤ s.ntu.cyc) = true then s.now + 1 else s.now) = s.requestTick := by
    rw [requestTick]
    simp only [decide_eq_true_eq]
  have htests : ¬ s.queueTests (if s.requestLate then s.requestTick + 2 else s.applyTick) ≠ 0 := fun hfull => hfull hroom
  unfold applyGo
  dsimp only
  rw [htick, ← requestLate, if_neg (by simp [hfree]), if_neg (by simp [hacts, hcarousel, hadopted]), if_neg (by simp [hsafe]),
    if_neg (by rcases hlate with hlate | hlate <;> simp [hlate]), if_neg htests]
  rfl

theorem State.forwardApply_keeps (s : State) (g : Staging) :
    (s.forwardApply g).rce = s.rce ∧ ∀ k, (s.forwardApply g).reg k = s.reg k := by
  unfold forwardApply
  split
  · exact s.sendMirror_keeps ..
  · exact ⟨rfl, fun _ => rfl⟩

/-- A request that passes the tests is staged, STAGING shows it, and its result is the only other register. -/
theorem State.ApplyPasses.applyGo_stages {s : State} (h : s.ApplyPasses) :
    s.applyGo.rce = { s.rce with staging := some s.applyRequest } ∧ s.applyGo.bit Reg.RCE_STAT 2 = true ∧
      SameRegs s s.applyGo [Reg.RCE_APPLY_RES, Reg.RCE_STAT] := by
  obtain ⟨hrce, hreg⟩ := (s.stage s.applyRequest).forwardApply_keeps s.applyRequest
  rw [h.applyGo_eq]
  refine ⟨hrce, ?_, fun k hk => ?_⟩
  · rw [bit_of_reg (hreg _), stage, bit_setBit _ _ _ _ (by decide), if_pos ⟨rfl, rfl⟩]
  · simp only [List.mem_cons, List.not_mem_nil, or_false, not_or] at hk
    obtain ⟨hres, hstat⟩ := hk
    rw [hreg, stage, reg_setBit, if_neg hstat]
    exact (s.reg_setRegN ..).trans (if_neg hres)

theorem applyGo_stages (m : Fin 8) (cycle : Nat) (s : State) (hacc : (s.atCycle cycle).accepts m Reg.RCE_CTRL 1 = true)
    (hpasses : (s.atCycle cycle).ApplyPasses) :
    Completes (.applyGo m cycle) s fun t => t.rce.staging = some (s.atCycle cycle).applyRequest ∧ t.bit Reg.RCE_STAT 2 = true ∧
      t.rce.queue = s.rce.queue ∧ SameMem s t ∧ SameRegs s t [Reg.RCE_APPLY_RES, Reg.RCE_STAT] := by
  have hanswered : ((s.atCycle cycle).respond m true Reg.RCE_CTRL .ok 0).ApplyPasses :=
    ⟨hpasses.free, hpasses.acts, hpasses.noCarousel, hpasses.adopted, hpasses.noSafe, hpasses.inTime, hpasses.room⟩
  obtain ⟨hrce, hstat, hregs⟩ := hanswered.applyGo_stages
  have hwritten := State.gateWrite_rce (s.atCycle cycle) (fun s => s.applyGo) hacc
  refine ⟨_, rfl, ?_, ?_, ?_, sameMem_of_frame (execApplyGo_frame m cycle s rfl), fun k hk => ?_⟩
  · rw [hwritten, hrce]
    rfl
  · rw [State.bit_gateWrite _ _ hacc, hstat]
  · rw [hwritten, hrce]
    rfl
  · rw [State.reg_gateWrite _ _ hacc, hregs k hk]
    rfl

/-! ### The end of staging (R198) -/

/-- What joins the queue for a staged request. -/
def State.stagedEntry (s : State) (g : Staging) : Staged := ⟨g.a, g.index, s.recGen g.index, g.late, s.recCells g.index⟩

/-- A staged record that passes its checks joins the queue, and nothing is staged any more. -/
theorem State.stagingDone_rce {s : State} {g : Staging} (hstaged : s.rce.staging = some g) (hok : s.checkRec g.index = 0) :
    s.stagingDone.rce = { s.rce with staging := none, queue := s.rce.queue ++ [s.stagedEntry g] } := by
  rw [stagingDone, hstaged]
  dsimp only
  rw [stagingEnds, hstaged]
  dsimp only
  rw [if_neg (by simp [hok])]
  split
  · rw [tckWatch_rce, stopWatch_rce]
    rfl
  · rw [applyRes_rce]
    split
    · rw [raise_rce, recordLate_rce, setReg64_rce, tckWatch_rce, stopWatch_rce]
      rfl
    · rw [setReg64_rce, tckWatch_rce, stopWatch_rce]
      rfl

theorem stagingDone_queues (g : Staging) (s : State) (hstaged : s.rce.staging = some g) (hok : s.checkRec g.index = 0) :
    Completes .stagingDone s fun t => t.rce.staging = none ∧ t.rce.queue = s.rce.queue ++ [s.stagedEntry g] ∧ SameMem s t := by
  have hrce := State.stagingDone_rce hstaged hok
  exact ⟨_, rfl, congrArg RceSt.staging hrce, congrArg RceSt.queue hrce, sameMem_of_frame (execStagingDone_frame s rfl)⟩

/-! ### Cancellation (R199) -/

/-- Of the queue, the entries before boundary `b` stay. -/
theorem State.cancelApplies_keeps (s : State) (b : Tick) :
    (s.cancelApplies b).rce.queue = s.rce.queue.filter (fun e => decide (e.b.toNat < b.toNat)) ∧
      SameRegs s (s.cancelApplies b) (raiseKeys pRCE) := by
  have hbefore : ((! ·) ∘ fun e : Staged => decide (b.toNat ≤ e.b.toNat)) = fun e => decide (e.b.toNat < b.toNat) := by
    funext e
    rw [Function.comp_apply, ← decide_not, decide_eq_decide, Nat.not_le]
  unfold cancelApplies
  rw [List.partition_eq_filter_filter]
  dsimp only
  refine ⟨?_, fun k hk => reg_raiseIf _ hk⟩
  rw [raiseIf_rce, ← hbefore]

theorem State.cancelAll_eq (s : State) : s.cancelAll = s.cancelApplies (s.now + (if s.rce.composed then 3 else 2)) := by
  unfold cancelAll
  split <;> rfl

theorem applyCancelAll_keepsFixed (m : Fin 8) (s : State) (hacc : s.accepts m Reg.RCE_CTRL 16 = true) :
    Completes (.applyCancelAll m) s fun t =>
      t.rce.queue = s.rce.queue.filter (fun e => decide (e.b.toNat < (s.now + (if s.rce.composed then 3 else 2)).toNat)) ∧
      SameMem s t ∧ SameRegs s t (raiseKeys pRCE) := by
  obtain ⟨hqueue, hregs⟩ := (s.respond m true Reg.RCE_CTRL .ok 0).cancelApplies_keeps
    (s.now + (if s.rce.composed then 3 else 2))
  refine ⟨_, rfl, ?_, sameMem_of_frame (execApplyCancelAll_frame m s rfl), fun k hk => ?_⟩
  · rw [State.gateWrite_rce _ _ hacc, State.cancelAll_eq]
    exact hqueue
  · rw [State.reg_gateWrite _ _ hacc, State.cancelAll_eq]
    exact hregs k hk

/-! ### The safety net (R191 to R193) -/

/-- Record 0 becomes the safety net when its checks gave 0. -/
def State.takeSafety (s : State) (r : Nat) : State :=
  if r = 0 then
    { s with rce := { s.rce with armed := some (s.recCells 0), armedGen := s.recGen 0 } }.setBit Reg.RCE_STAT 1 true
  else s

theorem State.armSafety_eq (s : State) :
    s.armSafety = ((s.setFld Reg.RCE_STAT 8 4 (s.checkRec 0)).takeSafety (s.checkRec 0)).raise pRCE 6 := rfl

/-- Of the registers, a new safety net changes ARMED. -/
theorem State.takeSafety_keeps (s : State) (r : Nat) :
    (s.takeSafety r).fld Reg.RCE_STAT 8 4 = s.fld Reg.RCE_STAT 8 4 ∧ SameRegs s (s.takeSafety r) [Reg.RCE_STAT] := by
  unfold takeSafety
  split
  · refine ⟨fld_setBit_other _ (by decide) (by decide), fun k hk => ?_⟩
    rw [reg_setBit, if_neg (by simpa using hk)]
    rfl
  · exact ⟨rfl, fun _ _ => rfl⟩

theorem State.takeSafety_arms (s : State) :
    (s.takeSafety 0).bit Reg.RCE_STAT 1 = true ∧ (s.takeSafety 0).rce.armed = some (s.recCells 0) := by
  rw [takeSafety, if_pos rfl, bit_setBit _ _ _ _ (by decide), if_pos ⟨rfl, rfl⟩]
  exact ⟨rfl, rfl⟩

/-- Arming shows the result of record 0's checks, arms its cells when they pass, and is an event. -/
theorem State.armSafety_arms (s : State) :
    s.armSafety.fld Reg.RCE_STAT 8 4 = s.checkRec 0 % 16 ∧
      (s.checkRec 0 = 0 → s.armSafety.bit Reg.RCE_STAT 1 = true ∧ s.armSafety.rce.armed = some (s.recCells 0)) ∧
      s.armSafety.bit (cReg pRCE OFF_INT_STAT) 6 = true ∧ SameRegs s s.armSafety (Reg.RCE_STAT :: raiseKeys pRCE) := by
  have hstat : Reg.RCE_STAT ∉ raiseKeys pRCE := by decide
  obtain ⟨hfld, hregs⟩ := (s.setFld Reg.RCE_STAT 8 4 (s.checkRec 0)).takeSafety_keeps (s.checkRec 0)
  rw [armSafety_eq]
  refine ⟨?_, fun hok => ?_, bit_raise _ pRCE (by decide), fun k hk => ?_⟩
  · rw [fld_of_reg (reg_raise _ hstat), hfld]
    exact fld_setFld_same _ (by decide)
  · rw [bit_of_reg (reg_raise _ hstat), raise_rce, hok]
    exact takeSafety_arms _
  · obtain ⟨hk, hraise⟩ := not_or.1 (mt List.mem_cons.2 hk)
    rw [reg_raise _ hraise, hregs k (by simpa using hk), reg_setFld, if_neg hk]

theorem armSafety_arms (m : Fin 8) (s : State) (hacc : s.accepts m Reg.RCE_CTRL 4 = true) :
    Completes (.armSafety m) s fun t => t.fld Reg.RCE_STAT 8 4 = s.checkRec 0 % 16 ∧
      (s.checkRec 0 = 0 → t.bit Reg.RCE_STAT 1 = true ∧ t.rce.armed = some (s.recCells 0)) ∧
      t.bit (cReg pRCE OFF_INT_STAT) 6 = true ∧ SameMem s t ∧ SameRegs s t (Reg.RCE_STAT :: raiseKeys pRCE) := by
  obtain ⟨hres, harmed, hevent, hregs⟩ := (s.respond m true Reg.RCE_CTRL .ok 0).armSafety_arms
  refine ⟨_, rfl, ?_, fun hok => ?_, ?_, sameMem_of_frame (execArmSafety_frame m s rfl), fun k hk => ?_⟩
  · rw [State.fld_gateWrite _ _ hacc]
    exact hres
  · rw [State.bit_gateWrite _ _ hacc, State.gateWrite_rce _ _ hacc]
    exact harmed hok
  · rw [State.bit_gateWrite _ _ hacc]
    exact hevent
  · rw [State.reg_gateWrite _ _ hacc]
    exact hregs k hk

theorem State.pastCutoff_closeTrig (s : State) : s.closeTrig.pastCutoff = true := by
  unfold closeTrig pastCutoff
  split
  case isTrue hclosed => rw [hclosed, Bool.true_or]
  case isFalse => rfl

/-- Closing the trigger set after its cut-off does not move the tick for which a request counts. -/
theorem State.countTick_closeIfPast (s : State) : s.closeIfPast.countTick = s.countTick := by
  unfold closeIfPast
  split
  case isTrue hpast =>
    obtain ⟨-, hpast⟩ := Bool.and_eq_true_iff.1 hpast
    rw [countTick, countTick, pastCutoff_closeTrig, hpast, now_of_frame s.closeTrig_frame]
  case isFalse => rfl

/-- A request for the safety net waits for the boundary two after the tick it counts for. -/
theorem State.mem_safeAt_requestSafety (s : State) : s.countTick + 2 ∈ s.requestSafety.rce.safeAt := by
  unfold requestSafety
  dsimp only
  split
  case isTrue hasked => exact List.contains_iff_mem.1 hasked
  case isFalse => exact List.mem_append_right _ (List.mem_singleton.2 rfl)

theorem safeNow_requests (m : Fin 8) (cycle : Nat) (s : State) (hacc : (s.atCycle cycle).accepts m Reg.RCE_CTRL 2 = true) :
    Completes (.safeNow m cycle) s fun t => (s.atCycle cycle).countTick + 2 ∈ t.rce.safeAt ∧ SameMem s t := by
  have hcount := ((s.atCycle cycle).respond m true Reg.RCE_CTRL .ok 0).countTick_closeIfPast
  refine ⟨_, rfl, ?_, sameMem_of_frame (execSafeNow_frame m cycle s rfl)⟩
  rw [State.gateWrite_rce _ _ hacc]
  exact (congrArg (· + 2) hcount) ▸ State.mem_safeAt_requestSafety _

/-- SAFE_EXIT of a role that acts and is not orphaned leaves the safety net. -/
theorem State.safeExit_of_acting {s : State} (hacts : s.roleActs = true) (hadopted : s.orphaned = false) :
    s.safeExit = (s.setRegN Reg.RCE_APPLY_RES 32).setBit Reg.RCE_STAT 0 false := by
  unfold safeExit
  rw [hacts, hadopted]
  rfl

theorem safeExit_leaves (m : Fin 8) (s : State) (hacc : s.accepts m Reg.RCE_CTRL 8 = true) (hacts : s.roleActs = true)
    (hadopted : s.orphaned = false) :
    Completes (.safeExit m) s fun t => t.bit Reg.RCE_STAT 0 = false ∧ t.reg Reg.RCE_APPLY_RES = 32 ∧ SameMem s t ∧
      SameRegs s t [Reg.RCE_APPLY_RES, Reg.RCE_STAT] := by
  have hexit := State.safeExit_of_acting (s := s.respond m true Reg.RCE_CTRL .ok 0) hacts hadopted
  refine ⟨_, rfl, ?_, ?_, sameMem_of_frame (execSafeExit_frame m s rfl), fun k hk => ?_⟩
  · rw [State.bit_gateWrite _ _ hacc, hexit, State.bit_setBit _ _ _ _ (by decide), if_pos ⟨rfl, rfl⟩]
  · rw [State.reg_gateWrite _ _ hacc, hexit, State.reg_setBit, if_neg (by decide), State.reg_setRegN, if_pos rfl]
    rfl
  · simp only [List.mem_cons, List.not_mem_nil, or_false, not_or] at hk
    obtain ⟨hres, hstat⟩ := hk
    rw [State.reg_gateWrite _ _ hacc, hexit, State.reg_setBit, if_neg hstat, State.reg_setRegN, if_neg hres, State.reg_respond]

/-- Settles O29, clause by clause. -/
theorem applyAndSafetyCommandsComplete : Obligations.ApplyAndSafetyCommandsComplete := by
  unfold Obligations.ApplyAndSafetyCommandsComplete
  exact ⟨fun m cycle s hacc hfree hacts hcarousel hadopted hsafe hlate hroom =>
      applyGo_stages m cycle s hacc ⟨hfree, hacts, hcarousel, hadopted, hsafe, hlate, hroom⟩,
    stagingDone_queues, applyCancelAll_keepsFixed, armSafety_arms, safeNow_requests, safeExit_leaves⟩

end Sys2Proof.Machine
end

section
/-! PROOFS. The queue of the route solver (R230, R233, R234, R235): a job is submitted, starts and resumes, and the words of a free slot
are written. -/

namespace Sys2Proof.Machine

/-! ### Job slots and RSV_STAT -/

theorem jobReg_eq (j w : Nat) : jobReg j w = 0x04054400 + 32 * j + 4 * w := rfl

/-- The job slots lie above every other register of the solver. -/
theorem jobReg_ne_of_lt {k : Nat} (j w : Nat) (hk : k < 0x04054400) : jobReg j w ≠ k := by
  rw [jobReg_eq]
  omega

theorem jobReg_not_mem {l : List Nat} (j w : Nat) (hl : ∀ k ∈ l, k < 0x04054400) : jobReg j w ∉ l := fun hmem =>
  jobReg_ne_of_lt j w (hl _ hmem) rfl

/-- Two words of the job slots lie apart. -/
theorem jobReg_ne {j w i v : Nat} (hw : w < 8) (hv : v < 8) (h : j ≠ i ∨ w ≠ v) : jobReg j w ≠ jobReg i v := by
  rw [jobReg_eq, jobReg_eq]
  omega

theorem State.jobState_of_reg {s t : State} {j : Nat} (h : t.reg (jobReg j 5) = s.reg (jobReg j 5)) : t.jobState j = s.jobState j :=
  fld_of_reg h 30 2

/-- The solver's queue becomes `q`, and RSV_STAT follows it. -/
def State.setQueue (s : State) (q : RsvSt) : State := { s with rsv := q }.rsvShow

theorem State.setQueue_rsv (s : State) (q : RsvSt) : (s.setQueue q).rsv = q := by
  unfold setQueue rsvShow
  dsimp only
  split <;> split <;> rfl

/-- RSV_STAT alone shows the queue. -/
theorem State.reg_setQueue (s : State) (q : RsvSt) {k : Nat} (hk : k ≠ Reg.RSV_STAT) : (s.setQueue q).reg k = s.reg k := by
  unfold setQueue rsvShow
  dsimp only
  split <;> split <;> simp [hk]

theorem State.reg_setQueue_jobReg (s : State) (q : RsvSt) (j w : Nat) : (s.setQueue q).reg (jobReg j w) = s.reg (jobReg j w) :=
  s.reg_setQueue q (jobReg_ne_of_lt j w (by decide))

/-! ### Submission (R234) -/

/-- The registers of a job that has passed the tests of R234. -/
def State.slotWaits (s : State) (j : Nat) : State :=
  (((s.setRegN Reg.RSV_SUB_RES 0).setRegN (jobReg j 5) (2 ^ 30)).setRegN (jobReg j 6) 0).setRegN (jobReg j 7) 0

theorem State.rsvSubmit_of_passed {s : State} {j : Nat} (h : s.subTests j = 0) :
    s.rsvSubmit j = (s.slotWaits j).setQueue { s.rsv with queue := s.rsv.queue ++ [j] } := by
  unfold rsvSubmit
  rw [h]
  rfl

theorem State.slotWaits_shows (s : State) (j : Nat) :
    (s.slotWaits j).jobState j = 1 ∧ (s.slotWaits j).reg Reg.RSV_SUB_RES = 0 ∧
      SameRegs s (s.slotWaits j) [Reg.RSV_SUB_RES, jobReg j 5, jobReg j 6, jobReg j 7] := by
  have hapart (w : Nat) : Reg.RSV_SUB_RES ≠ jobReg j w := (jobReg_ne_of_lt j w (by decide)).symm
  have hwords {w v : Nat} (hw : w < 8) (hv : v < 8) (h : w ≠ v) : jobReg j w ≠ jobReg j v := jobReg_ne hw hv (.inr h)
  refine ⟨?_, ?_, fun k hk => ?_⟩
  · have hstate : (s.slotWaits j).reg (jobReg j 5) = BitVec.ofNat 32 (2 ^ 30) := by
      rw [slotWaits, reg_setRegN, if_neg (hwords (by decide) (by decide) (by decide)), reg_setRegN,
        if_neg (hwords (by decide) (by decide) (by decide)), reg_setRegN, if_pos rfl]
    rw [jobState, fld, hstate]
    decide
  · simp [slotWaits, hapart]
  · simp only [List.mem_cons, List.not_mem_nil, or_false, not_or] at hk
    obtain ⟨hres, h5, h6, h7⟩ := hk
    simp [slotWaits, hres, h5, h6, h7]

theorem rsvSubmit_queues (m : Fin 8) (j : Fin 32) (s : State) (hacc : s.accepts m Reg.RSV_SUBMIT (BitVec.ofNat 32 j.val) = true)
    (hpass : s.subTests j = 0) :
    Completes (.rsvSubmit m j) s fun t => t.rsv.queue = s.rsv.queue ++ [j.val] ∧ t.rsv.run = s.rsv.run ∧ t.jobState j = 1 ∧
      t.reg Reg.RSV_SUB_RES = 0 ∧ SameMem s t ∧
      SameRegs s t [Reg.RSV_SUB_RES, jobReg j 5, jobReg j 6, jobReg j 7, Reg.RSV_STAT] := by
  have hsubmit := State.rsvSubmit_of_passed (s := s.respond m true Reg.RSV_SUBMIT .ok 0) hpass
  obtain ⟨hstate, hres, hother⟩ := (s.respond m true Reg.RSV_SUBMIT .ok 0).slotWaits_shows j
  have hrsv := (State.gateWrite_rsv s (fun s => s.rsvSubmit j) hacc).trans
    ((congrArg State.rsv hsubmit).trans (State.setQueue_rsv ..))
  have hreg (k : Nat) := (State.reg_gateWrite s (fun s => s.rsvSubmit j) hacc k).trans (congrArg (State.reg · k) hsubmit)
  refine ⟨_, rfl, ?_, ?_, ?_, ?_, sameMem_of_frame (execRsvSubmit_frame m j s rfl), fun k hk => ?_⟩
  · rw [hrsv]
    rfl
  · rw [hrsv]
    rfl
  · rw [State.jobState_of_reg ((hreg _).trans (State.reg_setQueue_jobReg ..))]
    exact hstate
  · rw [hreg, State.reg_setQueue _ _ (by decide)]
    exact hres
  · obtain ⟨hstat, hk⟩ : k ≠ Reg.RSV_STAT ∧ k ∉ [Reg.RSV_SUB_RES, jobReg j 5, jobReg j 6, jobReg j 7] := by
      simp only [List.mem_cons, List.not_mem_nil, or_false, not_or] at hk ⊢
      tauto
    rw [hreg, State.reg_setQueue _ _ hstat]
    exact hother k hk

/-! ### The words of a slot (R235) -/

theorem State.jobBusy_eq (s : State) (j : Nat) : s.jobBusy j = (s.jobState j == 1 || s.jobState j == 2) := by
  have hkey : Reg.RSV_JOB_W5 + 32 * j = jobReg j 5 := by
    change 0x04054414 + 32 * j = _
    rw [jobReg_eq]
    omega
  rw [jobBusy, hkey]
  rfl

theorem slot_of_jobReg (j : Nat) {w : Nat} (hw : w < 8) : (jobReg j w - Reg.RSV_JOB_W0) / 32 = j := by
  change (0x04054400 + 32 * j + 4 * w - 0x04054400) / 32 = j
  omega

/-- The write of a word of a free slot is a plain one. -/
theorem State.jobSlotWrite_of_free {s : State} {j w : Nat} (m : Nat) (v : Word) (hw : w < 8) (hfree : s.jobBusy j = false) :
    s.jobSlotWrite m (jobReg j w) v = s.storeReg (jobReg j w) v := by
  unfold jobSlotWrite
  dsimp only
  rw [slot_of_jobReg j hw, hfree]
  rfl

theorem jobSlotWrite_writes (m : Fin 8) (j : Fin 32) (w : Fin 5) (v : Word) (r : RegRow) (s : State)
    (hacc : s.accepts m (jobReg j w) v = true) (hfree : s.jobBusy j = false)
    (hrow : (regRow? (jobReg j w)).map (·.1) = some r) :
    Completes (.jobSlotWrite m j w v) s fun t =>
      t.reg (jobReg j w) = takeBits (s.reg (jobReg j w)) v (BitVec.ofNat 32 (r.rw ||| r.rws)) ∧
      SameMem s t ∧ SameRegs s t [jobReg j w] := by
  have hkey : jobReg j w % 0x100000000 = jobReg j w := Nat.mod_eq_of_lt (by rw [jobReg_eq]; omega)
  obtain ⟨_, hreads, rfl⟩ := Option.map_eq_some_iff.1 hrow
  have hplain := State.jobSlotWrite_of_free (s := s.respond m true (jobReg j w) .ok 0) (j := j) (w := w) m v (by omega) hfree
  have hreg (k : Nat) := (State.reg_gateWrite s (fun s => s.jobSlotWrite m (jobReg j w) v) hacc k).trans <|
    (congrArg (State.reg · k) hplain).trans <|
      State.reg_storeReg _ v ((congrArg regRow? hkey).trans hreads) (jobReg_not_mem j w (by decide)) k
  refine ⟨_, rfl, (hreg _).trans (if_pos rfl), sameMem_of_frame (execJobSlotWrite_frame m j w v s rfl), fun k hk => ?_⟩
  exact (hreg k).trans (if_neg (by simpa using hk))

/-! ### A job starts and resumes (R233) -/

/-- The next job starts while none runs. -/
theorem State.jobStart_of_idle {s : State} {j : Nat} (hgo : s.solverStops = false) (hrun : s.rsv.run = none)
    (hnext : s.nextJob? = some j) :
    s.jobStart = (s.setFld (jobReg j 5) 30 2 2).setQueue
      { s.rsv with queue := s.rsv.queue.filter (· != j), run := some (s.readJob j) } := by
  unfold jobStart
  rw [hgo, hnext]
  dsimp only
  rw [hrun]
  rfl

theorem jobStart_starts (j : Nat) (s : State) (hgo : s.solverStops = false) (hrun : s.rsv.run = none)
    (hnext : s.nextJob? = some j) :
    Completes .jobStart s fun t => t.rsv.run = some (s.readJob j) ∧ t.jobState j = 2 ∧
      t.rsv.queue = s.rsv.queue.filter (· != j) ∧ SameMem s t ∧ SameRegs s t [jobReg j 5, Reg.RSV_STAT] := by
  have hstart := State.jobStart_of_idle hgo hrun hnext
  refine ⟨_, rfl, ?_, ?_, ?_, sameMem_of_frame (execJobStart_frame s rfl), fun k hk => ?_⟩
  · rw [hstart, State.setQueue_rsv]
  · rw [hstart, State.jobState_of_reg (State.reg_setQueue_jobReg ..)]
    exact s.fld_setFld_same (by decide)
  · rw [hstart, State.setQueue_rsv]
  · simp only [List.mem_cons, List.not_mem_nil, or_false, not_or] at hk
    obtain ⟨hslot, hstat⟩ := hk
    rw [hstart, State.reg_setQueue _ _ hstat, State.reg_setFld, if_neg hslot]

/-- The suspended job resumes while none runs and no urgent one waits. -/
theorem State.jobResume_of_idle {s : State} {j : RsvJob} (hgo : s.solverStops = false) (hrun : s.rsv.run = none)
    (hurgent : s.rsv.queue.any s.jobUrgent = false) (hsusp : s.rsv.susp = some j) :
    s.jobResume = s.setQueue { s.rsv with run := some j, susp := none } := by
  unfold jobResume
  rw [if_neg (by simp [hgo, hrun, hurgent]), hsusp]
  rfl

theorem jobResume_resumes (j : RsvJob) (s : State) (hgo : s.solverStops = false) (hrun : s.rsv.run = none)
    (hurgent : s.rsv.queue.any s.jobUrgent = false) (hsusp : s.rsv.susp = some j) :
    Completes .jobResume s fun t => t.rsv.run = some j ∧ t.rsv.susp = none ∧ t.rsv.queue = s.rsv.queue ∧ SameMem s t ∧
      SameRegs s t [Reg.RSV_STAT] := by
  have hresume := State.jobResume_of_idle hgo hrun hurgent hsusp
  refine ⟨_, rfl, ?_, ?_, ?_, sameMem_of_frame (execJobResume_frame s rfl), fun k hk => ?_⟩
  · rw [hresume, State.setQueue_rsv]
  · rw [hresume, State.setQueue_rsv]
  · rw [hresume, State.setQueue_rsv]
  · rw [hresume, State.reg_setQueue _ _ (by simpa using hk)]

/-- Settles O30, clause by clause. -/
theorem solverQueueCommandsComplete : Obligations.SolverQueueCommandsComplete := by
  unfold Obligations.SolverQueueCommandsComplete
  exact ⟨rsvSubmit_queues, jobSlotWrite_writes, jobStart_starts, jobResume_resumes⟩

end Sys2Proof.Machine
end

section
/-! PROOFS. How a job of the route solver ends (R219, R222, R229, R232, R237): what its end shows, the bytes of its report and of its
target, its final pass, and its cancellation. -/

namespace Sys2Proof.Machine

/-! ### What the end of a job shows (R232) -/

/-- A job that is there stays unless it is that of `slot`. -/
def jobBeside (slot : Nat) (o : Option RsvJob) : Option RsvJob := o.bind fun j => if j.slot = slot then none else some j

/-- The queue without the job of a slot. -/
def RsvSt.without (q : RsvSt) (slot : Nat) : RsvSt :=
  { queue := q.queue.filter (· != slot), run := jobBeside slot q.run, susp := jobBeside slot q.susp }

/-- The result words of a slot whose job ends. -/
def State.slotEnds (s : State) (slot res count cycles : Nat) (stale : Bool) : State :=
  ((s.setRegN (jobReg slot 5) (3 * 2 ^ 30 + count % 2048 * 65536 + 16 * b2n stale + res)).setRegN (jobReg slot 6)
    (min cycles 0xFFFFFFFF)).setRegN (jobReg slot 7) (s.now.toNat % 2 ^ 32)

/-- RSV_DONE, the counts of jobs and RSV_LAST take up the end of a job. -/
def State.countEnd (s : State) (slot res : Nat) (stale : Bool) : State :=
  let s := (s.setBit Reg.RSV_DONE slot true).bump Reg.RSV_JOB_CNT 0 16 1
  let s := if decide (res > 1) then s.bump Reg.RSV_JOB_CNT 16 16 1 else s
  s.setRegN Reg.RSV_LAST (256 * slot + 16 * b2n stale + res)

/-- The events of the end of a job. -/
def State.raiseEnd (s : State) (res : Nat) (stale : Bool) : State :=
  ((s.raise pRSV 0).raiseIf (decide (res > 1)) pRSV 1).raiseIf stale pRSV 3

theorem State.countEnd_rsv (s : State) (slot res : Nat) (stale : Bool) : (s.countEnd slot res stale).rsv = s.rsv := by
  unfold countEnd
  dsimp only
  rw [setRegN_rsv]
  split <;> rfl

theorem State.jobFinish_eq (s : State) (slot res count cycles : Nat) (stale : Bool) :
    s.jobFinish slot res count cycles stale = (((s.slotEnds slot res count cycles stale).countEnd slot res stale).setQueue
      (s.rsv.without slot)).raiseEnd res stale := by
  rw [show s.rsv = _ from ((s.slotEnds slot res count cycles stale).countEnd_rsv slot res stale).symm]
  rfl

theorem State.reg_slotEnds (s : State) {slot res count cycles : Nat} {stale : Bool} {k : Nat}
    (hk : ∀ w, 5 ≤ w → w < 8 → k ≠ jobReg slot w) : (s.slotEnds slot res count cycles stale).reg k = s.reg k := by
  rw [slotEnds, reg_setRegN, if_neg (hk 7 (by decide) (by decide)), reg_setRegN, if_neg (hk 6 (by decide) (by decide)),
    reg_setRegN, if_neg (hk 5 (by decide) (by decide))]

theorem State.reg_slotEnds_result (s : State) (slot res count cycles : Nat) (stale : Bool) :
    (s.slotEnds slot res count cycles stale).reg (jobReg slot 5) =
      BitVec.ofNat 32 (3 * 2 ^ 30 + count % 2048 * 65536 + 16 * b2n stale + res) := by
  rw [slotEnds, reg_setRegN, if_neg (jobReg_ne (by decide) (by decide) (.inr (by decide))), reg_setRegN,
    if_neg (jobReg_ne (by decide) (by decide) (.inr (by decide))), reg_setRegN, if_pos rfl]

theorem State.reg_countEnd (s : State) {slot res : Nat} {stale : Bool} {k : Nat}
    (hk : k ∉ [Reg.RSV_DONE, Reg.RSV_JOB_CNT, Reg.RSV_LAST]) : (s.countEnd slot res stale).reg k = s.reg k := by
  simp only [List.mem_cons, List.not_mem_nil, or_false, not_or] at hk
  obtain ⟨hdone, hcnt, hlast⟩ := hk
  unfold countEnd
  dsimp only
  rw [reg_setRegN, if_neg hlast]
  split <;> simp [hdone, hcnt]

theorem State.bit_countEnd_done (s : State) {slot : Nat} (res : Nat) (stale : Bool) (hslot : slot < 32) (i : Nat) :
    (s.countEnd slot res stale).bit Reg.RSV_DONE i = if i = slot then true else s.bit Reg.RSV_DONE i := by
  have hdone : (s.countEnd slot res stale).reg Reg.RSV_DONE = (s.setBit Reg.RSV_DONE slot true).reg Reg.RSV_DONE := by
    unfold countEnd
    dsimp only
    rw [reg_setRegN, if_neg (by decide)]
    split
    · rw [reg_bump, if_neg (by decide), reg_bump, if_neg (by decide)]
    · rw [reg_bump, if_neg (by decide)]
  rw [bit_of_reg hdone, bit_setBit _ _ _ _ hslot]
  simp only [true_and]

theorem State.raiseEnd_rsv (s : State) (res : Nat) (stale : Bool) : (s.raiseEnd res stale).rsv = s.rsv := by
  rw [raiseEnd, raiseIf_rsv, raiseIf_rsv, raise_rsv]

theorem State.reg_raiseEnd (s : State) (res : Nat) (stale : Bool) {k : Nat} (hk : k ∉ raiseKeys pRSV) :
    (s.raiseEnd res stale).reg k = s.reg k := by
  rw [raiseEnd, reg_raiseIf _ hk, reg_raiseIf _ hk, reg_raise _ hk]

/-- The end of a job is an event, and so is its failure. -/
theorem State.bit_raiseEnd (s : State) (res : Nat) (stale : Bool) :
    (s.raiseEnd res stale).bit (cReg pRSV OFF_INT_STAT) 0 = true ∧
      (1 < res → (s.raiseEnd res stale).bit (cReg pRSV OFF_INT_STAT) 1 = true) := by
  refine ⟨?_, fun hfail => ?_⟩
  · exact bit_raiseIf_keeps _ _ _ (by decide) (bit_raiseIf_keeps _ _ _ (by decide) (bit_raise _ _ (by decide)))
  · refine bit_raiseIf_keeps _ _ _ (by decide) ?_
    rw [decide_eq_true hfail]
    exact bit_raise _ _ (by decide)

theorem State.bit_jobFinish (s : State) (slot res count cycles : Nat) (stale : Bool) :
    (s.jobFinish slot res count cycles stale).bit (cReg pRSV OFF_INT_STAT) 0 = true ∧
      (1 < res → (s.jobFinish slot res count cycles stale).bit (cReg pRSV OFF_INT_STAT) 1 = true) := by
  rw [jobFinish_eq]
  exact bit_raiseEnd ..

/-- An event of the solver changes no word of a job slot. -/
theorem State.reg_raise_jobReg (s : State) (i j w : Nat) : (s.raise pRSV i).reg (jobReg j w) = s.reg (jobReg j w) :=
  reg_raise s (jobReg_not_mem j w (by decide))

/-- In `t` the job of `slot` has ended with result `res`; of the state `s` before, the words that software gave and the other slots
are as they were. -/
structure JobEnded (s t : State) (slot res : Nat) : Prop where
  state : t.jobState slot = 3
  result : t.fld (jobReg slot 5) 0 4 = res
  done : t.bit Reg.RSV_DONE slot = true
  doneKept : ∀ i, s.bit Reg.RSV_DONE i = true → t.bit Reg.RSV_DONE i = true
  queue : t.rsv = s.rsv.without slot
  apart : ∀ i w, w < 8 → i ≠ slot ∨ w < 5 → t.reg (jobReg i w) = s.reg (jobReg i w)

theorem bits_endWord {count res : Nat} (stale : Bool) (hres : res < 16) :
    bits (3 * 2 ^ 30 + count % 2048 * 65536 + 16 * b2n stale + res) 30 2 = 3 ∧
      bits (3 * 2 ^ 30 + count % 2048 * 65536 + 16 * b2n stale + res) 0 4 = res := by
  have hstale := b2n_le stale
  unfold bits
  rw [Nat.shiftRight_eq_div_pow, Nat.shiftRight_eq_div_pow]
  omega

theorem State.jobFinish_ends (s : State) {slot res : Nat} (count cycles : Nat) (stale : Bool) (hslot : slot < 32) (hres : res < 16) :
    JobEnded s (s.jobFinish slot res count cycles stale) slot res := by
  have hword (i w : Nat) : (s.jobFinish slot res count cycles stale).reg (jobReg i w) =
      (s.slotEnds slot res count cycles stale).reg (jobReg i w) := by
    rw [jobFinish_eq, reg_raiseEnd _ _ _ (jobReg_not_mem i w (by decide)), reg_setQueue_jobReg,
      reg_countEnd _ (jobReg_not_mem i w (by decide))]
  have hdone (i : Nat) : (s.jobFinish slot res count cycles stale).bit Reg.RSV_DONE i =
      if i = slot then true else s.bit Reg.RSV_DONE i := by
    rw [jobFinish_eq, bit_of_reg (reg_raiseEnd _ _ _ (by decide)), bit_of_reg (reg_setQueue _ _ (by decide)),
      bit_countEnd_done _ _ _ hslot, bit_of_reg (s.reg_slotEnds fun w _ _ => (jobReg_ne_of_lt slot w (by decide)).symm)]
  obtain ⟨hstate, hcode⟩ := bits_endWord (count := count) stale hres
  refine ⟨?_, ?_, ?_, fun i hi => ?_, ?_, fun i w hw happart => ?_⟩
  · rw [jobState, fld, hword, reg_slotEnds_result, fld_ofNat (by decide), hstate]
  · rw [fld, hword, reg_slotEnds_result, fld_ofNat (by decide), hcode]
  · rw [hdone, if_pos rfl]
  · rw [hdone, hi, ite_self]
  · rw [jobFinish_eq, raiseEnd_rsv, setQueue_rsv]
  · rw [hword]
    exact s.reg_slotEnds fun v hv hlt => jobReg_ne hw hlt (by omega)

/-- A further event of the solver leaves the end of a job as it was shown. -/
theorem JobEnded.raise {s t : State} {slot res : Nat} (h : JobEnded s t slot res) {i : Nat} (hi : i < 32) :
    JobEnded s (t.raise pRSV i) slot res where
  state := (State.jobState_of_reg (t.reg_raise_jobReg ..)).trans h.state
  result := (State.fld_of_reg (t.reg_raise_jobReg ..) 0 4).trans h.result
  done := State.bit_raise_keeps t pRSV hi h.done
  doneKept k hk := State.bit_raise_keeps t pRSV hi (h.doneKept k hk)
  queue := (State.raise_rsv ..).trans h.queue
  apart k w hw hne := (t.reg_raise_jobReg ..).trans (h.apart k w hw hne)

theorem JobEnded.resetMaster {s t : State} {slot res : Nat} (h : JobEnded s t slot res) (m : Nat) :
    JobEnded s (t.resetMaster m) slot res :=
  ⟨h.state, h.result, h.done, h.doneKept, h.queue, h.apart⟩

/-- What a job writes into memory before its end does not count in what the end shows. -/
theorem JobEnded.of_onlyMem {s u t : State} {slot res : Nat} (h : JobEnded u t slot res) (hmem : OnlyMem s u) :
    JobEnded s t slot res := by
  obtain ⟨mem, red, rfl⟩ := hmem
  exact ⟨h.state, h.result, h.done, h.doneKept, h.queue, h.apart⟩

/-- A running job that has ended runs no more. -/
theorem JobEnded.idle {s t : State} {j : RsvJob} {res : Nat} (h : JobEnded s t j.slot res) (hrun : s.rsv.run = some j) :
    t.rsv.run = none := by
  rw [h.queue, RsvSt.without, hrun]
  exact if_pos rfl

theorem JobEnded.free {s t : State} {slot res : Nat} (h : JobEnded s t slot res) : t.jobBusy slot = false := by
  rw [State.jobBusy_eq, h.state]
  rfl

theorem State.jobFinish_mem (s : State) (slot res count cycles : Nat) (stale : Bool) :
    (s.jobFinish slot res count cycles stale).mem = s.mem :=
  (s.jobFinish_frame slot res count cycles stale).2.2

/-! ### The bytes of reports and targets (R218, R232) -/

theorem length_toLE (k n : Nat) : (toLE k n).length = k := by rw [toLE, List.length_map, List.length_range]

theorem length_padTo {n : Nat} {l : List Byte} (h : l.length ≤ n) : (padTo n l).length = n := by
  rw [padTo, List.length_append, List.length_replicate]
  omega

theorem length_packCells (n : Nat) (code : Nat → Nat) : (packCells n code).length = 2688 := by
  rw [packCells, List.length_map, List.length_range]

/-- A report fills its record. -/
theorem length_reportBytes (index topoId gen res kindMode count target base sw pk ad rm : Nat) (list : List (Nat × Nat)) :
    (reportBytes index topoId gen res kindMode count target base sw pk ad rm list).length = 4096 := by
  have hlist : (padTo 2048 ((list.flatMap fun e => toLE 2 (e.1 % 1024 + e.2 * 1024)).take 2048)).length = 2048 :=
    length_padTo (List.length_take_le ..)
  simp only [reportBytes, List.length_append, length_toLE, List.length_replicate, hlist]

theorem SameMemOut.trans {s t u : State} {lo n : Nat} (h : SameMemOut s t lo n) (h' : SameMemOut t u lo n) : SameMemOut s u lo n :=
  fun a ha => (h' a ha).trans (h a ha)

/-- Bytes that stay in a range leave every byte outside it. -/
theorem State.sameMemOut_setBytes (s : State) (a : Nat) {l : List Byte} {n : Nat} (h : l.length ≤ n) :
    SameMemOut s (s.setBytes a l) a n :=
  fun c hc => (s.wrote_setBytes a l).2 c (by omega)

theorem State.sameMemOut_putReport (s : State) (j : RsvJob) (res : Nat) (list : List (Nat × Nat)) (sol : Option (Sparse Nat)) :
    SameMemOut s (s.putReport j res list sol) (recAddr (s.jobReport j.slot)) 4096 :=
  s.sameMemOut_setBytes _ (length_reportBytes ..).le

theorem State.onlyMem_putReport (s : State) (j : RsvJob) (res : Nat) (list : List (Nat × Nat)) (sol : Option (Sparse Nat)) :
    OnlyMem s (s.putReport j res list sol) :=
  (OnlyMem.refl s).setBytes _ _

/-- A record is written whole. -/
theorem State.putRec_eq (s : State) (i topoId gen flags : Nat) {cells : List Byte} (hcells : cells.length = 2688) :
    ∃ l, l.length = 4096 ∧ s.putRec i topoId gen flags cells = s.setBytes (recAddr i) l := by
  unfold putRec
  dsimp only
  refine ⟨_, ?_, rfl⟩
  simp only [List.length_append, length_toLE, List.length_replicate, hcells]

theorem State.putTarget_eq (s : State) (j : RsvJob) (x : Sparse Nat) :
    ∃ l, l.length = 4096 ∧ s.putTarget j x = s.setBytes (recAddr (s.jobTarget j.slot)) l := by
  unfold putTarget
  exact s.putRec_eq _ _ _ _ (length_packCells ..)

theorem State.sameMemOut_putTarget (s : State) (j : RsvJob) (x : Sparse Nat) :
    SameMemOut s (s.putTarget j x) (recAddr (s.jobTarget j.slot)) 4096 := by
  obtain ⟨l, hl, hput⟩ := s.putTarget_eq j x
  rw [hput]
  exact s.sameMemOut_setBytes _ hl.le

theorem State.onlyMem_putTarget (s : State) (j : RsvJob) (x : Sparse Nat) : OnlyMem s (s.putTarget j x) := by
  obtain ⟨l, -, hput⟩ := s.putTarget_eq j x
  rw [hput]
  exact (OnlyMem.refl s).setBytes _ l

theorem State.wrote_clearMagic (s : State) (j : RsvJob) :
    Wrote s (s.clearMagic j) (recAddr (s.jobTarget j.slot)) (toLE 4 0) :=
  s.wrote_setBytes _ _

theorem State.onlyMem_clearMagic (s : State) (j : RsvJob) : OnlyMem s (s.clearMagic j) := (OnlyMem.refl s).setBytes _ _

theorem OnlyMem.trans {s t u : State} (h : OnlyMem s t) (h' : OnlyMem t u) : OnlyMem s u := by
  obtain ⟨mem, red, rfl⟩ := h
  obtain ⟨mem', red', rfl⟩ := h'
  exact ⟨mem', red', rfl⟩

theorem OnlyMem.jobReport {s t : State} (h : OnlyMem s t) (j : Nat) : t.jobReport j = s.jobReport j := by
  obtain ⟨mem, red, rfl⟩ := h
  rfl

theorem OnlyMem.jobTarget {s t : State} (h : OnlyMem s t) (j : Nat) : t.jobTarget j = s.jobTarget j := by
  obtain ⟨mem, red, rfl⟩ := h
  rfl

theorem SameMemOut.memOff {s t : State} {lo n : Nat} (h : SameMemOut s t lo n) {l : List (Nat × Nat)} (hl : (lo, n) ∈ l) :
    SameMemOff s t l :=
  fun a ha => h a (ha _ hl)

theorem SameMemOff.trans {s t u : State} {l : List (Nat × Nat)} (h : SameMemOff s t l) (h' : SameMemOff t u l) : SameMemOff s u l :=
  fun a ha => (h' a ha).trans (h a ha)

theorem SameMemOff.of_mem {s t u : State} {l : List (Nat × Nat)} (h : SameMemOff s t l) (hmem : u.mem = t.mem) : SameMemOff s u l :=
  fun a ha => (State.byte_of_mem hmem a).trans (h a ha)

theorem SameMemOff.memOut {s t : State} {lo n : Nat} (h : SameMemOff s t [(lo, n)]) : SameMemOut s t lo n :=
  fun a ha => h a fun r hr => by rwa [List.mem_singleton.1 hr]

/-- A target written whole with its MAGIC cleared after it. -/
theorem State.putTarget_clearMagic (s : State) (j : RsvJob) (x : Sparse Nat) :
    (∀ i, i < 4 → ((s.putTarget j x).clearMagic j).byte (recAddr (s.jobTarget j.slot) + i) = 0) ∧
      SameMemOut s ((s.putTarget j x).clearMagic j) (recAddr (s.jobTarget j.slot)) 4096 := by
  obtain ⟨hmagic, hrest⟩ := (s.putTarget j x).wrote_clearMagic j
  rw [(s.onlyMem_putTarget j x).jobTarget, length_toLE] at hrest
  rw [(s.onlyMem_putTarget j x).jobTarget] at hmagic
  refine ⟨fun i hi => (hmagic i hi).trans ?_, (s.sameMemOut_putTarget j x).trans fun a ha => hrest a (by omega)⟩
  exact (by decide : ∀ i, i < 4 → (toLE 4 0).getD i 0 = 0) i hi

/-! ### The final pass (R219) -/

/-- The running job's pass over its target has begun. -/
def State.passOver (s : State) (j : RsvJob) : State := { s with rsv := { s.rsv with run := some { j with pass := true } } }

theorem State.byte_passOver (s : State) (j : RsvJob) (a : Nat) : (s.passOver j).byte a = s.byte a := rfl

theorem State.reg_passOver (s : State) (j : RsvJob) (k : Nat) : (s.passOver j).reg k = s.reg k := rfl

section

variable {s : State} {j : RsvJob} {res : Nat} (list : List (Nat × Nat)) (n : Nat)
  (hfree : (s.jobRecs j.slot).any s.recInUse = false)

include hfree

/-- The pass clears MAGIC of the target, then writes the rest of it. -/
theorem State.jobWrite_passes (x : Sparse Nat) (hres : res ≠ 8) :
    s.jobWrite j res list (some x) 0 n = (s.clearMagic j).passOver j ∧
      s.jobWrite j res list (some x) 1 n = ((s.putTarget j x).clearMagic j).passOver j := by
  have hpass : ¬ (!j.pass ∧ (res = 8 ∨ (s.jobRecs j.slot).any s.recInUse)) := by simp [hres, hfree]
  exact ⟨if_neg hpass, if_neg hpass⟩

/-- At its last stage a job writes its target if it has one, and its report, and ends. The result TARGET
(8) is one with neither. -/
theorem State.jobWrite_finishes (sol : Option (Sparse Nat)) :
    ∃ u count, OnlyMem s u ∧ SameMemOff s u ((recAddr (s.jobReport j.slot), 4096) ::
        (if sol.isSome then [(recAddr (s.jobTarget j.slot), 4096)] else [])) ∧
      s.jobWrite j res list sol 2 n = u.jobFinish j.slot res count n j.stale := by
  unfold jobWrite
  by_cases hused : !j.pass ∧ (res = 8 ∨ (s.jobRecs j.slot).any s.recInUse)
  · obtain rfl : res = 8 := hused.2.resolve_right (Bool.eq_false_iff.1 hfree)
    exact ⟨s, 0, .refl s, fun _ _ => rfl, if_pos hused⟩
  rw [if_neg hused]
  cases sol with
  | none =>
    refine ⟨s.putReport j res (sortList list) none, (sortList list).length, s.onlyMem_putReport .., ?_, if_neg (by decide)⟩
    exact (s.sameMemOut_putReport j res _ none).memOff (.head _)
  | some x =>
    have htarget := s.onlyMem_putTarget j x
    refine ⟨(s.putTarget j x).putReport j res (sortList list) (some x), (sortList list).length,
      htarget.trans (State.onlyMem_putReport ..), ?_, (if_neg (by decide)).trans (if_neg (by decide))⟩
    refine ((s.sameMemOut_putTarget j x).memOff (.tail _ (.head _))).trans ?_
    rw [← htarget.jobReport]
    exact ((s.putTarget j x).sameMemOut_putReport j res _ (some x)).memOff (.head _)

/-- The last stage of a job that runs shows its end. -/
theorem State.jobWrite_ends (sol : Option (Sparse Nat)) (hslot : j.slot < 32) (hres : res < 16) :
    JobEnded s (s.jobWrite j res list sol 2 n) j.slot res ∧
      (s.jobWrite j res list sol 2 n).bit (cReg pRSV OFF_INT_STAT) 0 = true ∧
      (1 < res → (s.jobWrite j res list sol 2 n).bit (cReg pRSV OFF_INT_STAT) 1 = true) ∧
      SameMemOff s (s.jobWrite j res list sol 2 n) ((recAddr (s.jobReport j.slot), 4096) ::
        (if sol.isSome then [(recAddr (s.jobTarget j.slot), 4096)] else [])) := by
  obtain ⟨u, count, honly, hmem, hend⟩ := jobWrite_finishes (res := res) list n hfree sol
  rw [hend]
  obtain ⟨hevent, hfail⟩ := u.bit_jobFinish j.slot res count n j.stale
  exact ⟨(u.jobFinish_ends count n j.stale hslot hres).of_onlyMem honly, hevent, hfail, hmem.of_mem (u.jobFinish_mem ..)⟩

end

end Sys2Proof.Machine
end

section
/-! PROOFS. The commands that end jobs of the route solver (R219, R222, R223, R226, R229, R232, R237): the last stages of a running
job, its budget, and cancellation. -/

namespace Sys2Proof.Machine

/-! ### The running job (R222, R223, R226) -/

/-- A search gives one of the results 0 to 4. -/
theorem RsvJob.result_le (j : RsvJob) (t : Topo) (kind mode budget : Nat) : (j.result t kind mode budget).1 ≤ 4 := by
  have hmoved (b : Bool) : b2n b ≤ 4 := (b2n_le b).trans (by decide)
  unfold result
  dsimp only
  generalize (if kind = 0 then [] else j.kept t) = kept
  cases (if kind = 1 ∧ mode = 0 then _ else none : Option Nat) with
  | some m => exact Nat.zero_le 4
  | none =>
    cases j.search t kind 2 budget [] with
    | none => exact Nat.le_refl 4
    | some m =>
      dsimp only
      by_cases hrearrange : kind = 0 ∨ mode = 2
      · rw [if_pos hrearrange]
        exact hmoved _
      rw [if_neg hrearrange]
      by_cases hhitless : mode = 0
      · rw [if_pos hhitless]
        exact (by decide : 2 ≤ 4)
      rw [if_neg hhitless]
      by_cases hflagged : ((kept.filter (j.disturbed t (j.setting t m))).filter (·.2.2)).isEmpty = true
      · rw [if_pos hflagged]
        exact hmoved _
      rw [if_neg hflagged]
      cases j.search t kind 1 budget (kept.filter (·.2.2)) with
      | none => exact (by decide : 3 ≤ 4)
      | some m' => exact hmoved _

theorem State.jobEnd_of_early {s : State} {j : RsvJob} {e : Nat × List (Nat × Nat)} (stage n : Nat) (hgo : s.solverStops = false)
    (hrun : s.rsv.run = some j) (hearly : j.early = some e) : s.jobEnd stage n = s.jobWrite j e.1 e.2 none stage n := by
  unfold jobEnd
  simp only [hgo, hrun, hearly, Bool.false_eq_true, ↓reduceIte]

/-- A search within its budget goes on with its result. -/
theorem State.jobEnd_of_search {s : State} {j : RsvJob} {topo : Topo} (stage : Nat) {n : Nat} (hgo : s.solverStops = false)
    (hrun : s.rsv.run = some j) (hearly : j.early = none) (htopo : j.topo = some topo)
    (hbudget : j.pass = true ∨ s.searchBounded j = false ∨ n ≤ s.rsvBudget) :
    let r := j.result topo (s.jobKind j.slot) (s.jobMode j.slot) s.rsvBudget
    s.jobEnd stage n = s.jobWrite j r.1 r.2.1 r.2.2 stage n := by
  have hwithin : (!j.pass && s.searchBounded j && decide (s.rsvBudget < n)) = false := by
    obtain hpass | hsure | hle := hbudget
    · simp [hpass]
    · simp [hsure]
    · simp [hle]
  unfold jobEnd
  simp only [hgo, hrun, hearly, htopo, hwithin, Bool.false_eq_true, ↓reduceIte]

theorem State.budgetOut_of_spent {s : State} {j : RsvJob} {topo : Topo} {n : Nat} (hgo : s.solverStops = false)
    (hrun : s.rsv.run = some j) (htopo : j.topo = some topo) (hpass : j.pass = false) (hbounded : s.searchBounded j = true)
    (hspent : s.rsvBudget ≤ n) :
    s.budgetOut n = s.jobWrite j 4 (j.failList topo (s.jobKind j.slot) (s.jobMode j.slot) s.rsvBudget) none 2 n := by
  unfold budgetOut
  rw [hgo, hrun]
  dsimp only
  rw [hpass, hbounded, decide_eq_true hspent, if_neg (by decide), if_pos (by decide), searchSpent, htopo]

theorem jobEnd_ends_early (n cycle : Nat) (j : RsvJob) (e : Nat × List (Nat × Nat)) (s : State) (hgo : s.solverStops = false)
    (hrun : s.rsv.run = some j) (hearly : j.early = some e) (hslot : j.slot < 32) (hres : e.1 < 16)
    (hfree : (s.jobRecs j.slot).any s.recInUse = false) :
    Completes (.jobEnd 2 n cycle) s fun t => t.rsv.run = none ∧ t.jobState j.slot = 3 ∧ t.fld (jobReg j.slot 5) 0 4 = e.1 ∧
      t.bit Reg.RSV_DONE j.slot = true ∧ t.bit (cReg pRSV OFF_INT_STAT) 0 = true ∧
      SameMemOut s t (recAddr (s.jobReport j.slot)) 4096 := by
  obtain ⟨hend, hevent, -, hmem⟩ := State.jobWrite_ends (s := s.atCycle cycle) e.2 n hfree none hslot hres
  refine ⟨_, congrArg Host.Outcome.next (State.jobEnd_of_early (s := s.atCycle cycle) 2 n hgo hrun hearly), ?_⟩
  exact ⟨hend.idle hrun, hend.state, hend.result, hend.done, hevent, hmem.memOut⟩

theorem jobEnd_ends_search (n cycle : Nat) (j : RsvJob) (topo : Topo) (s : State) (hgo : s.solverStops = false)
    (hrun : s.rsv.run = some j) (hearly : j.early = none) (htopo : j.topo = some topo) (hslot : j.slot < 32)
    (hbudget : j.pass = true ∨ s.searchBounded j = false ∨ n ≤ s.rsvBudget) (hfree : (s.jobRecs j.slot).any s.recInUse = false) :
    let r := j.result topo (s.jobKind j.slot) (s.jobMode j.slot) s.rsvBudget
    Completes (.jobEnd 2 n cycle) s fun t => t.rsv.run = none ∧ t.jobState j.slot = 3 ∧ t.fld (jobReg j.slot 5) 0 4 = r.1 ∧
      t.bit Reg.RSV_DONE j.slot = true ∧
      SameMemOff s t ((recAddr (s.jobReport j.slot), 4096) ::
        (if r.2.2.isSome then [(recAddr (s.jobTarget j.slot), 4096)] else [])) := by
  intro r
  have hres : r.1 < 16 := (j.result_le ..).trans_lt (by decide)
  obtain ⟨hend, -, -, hmem⟩ := State.jobWrite_ends (s := s.atCycle cycle) r.2.1 n hfree r.2.2 hslot hres
  refine ⟨_, congrArg Host.Outcome.next (State.jobEnd_of_search (s := s.atCycle cycle) 2 hgo hrun hearly htopo hbudget), ?_⟩
  exact ⟨hend.idle hrun, hend.state, hend.result, hend.done, hmem⟩

theorem budgetExhausted_ends (n cycle : Nat) (j : RsvJob) (topo : Topo) (s : State) (hgo : s.solverStops = false)
    (hrun : s.rsv.run = some j) (htopo : j.topo = some topo) (hpass : j.pass = false) (hbounded : s.searchBounded j = true)
    (hspent : s.rsvBudget ≤ n) (hslot : j.slot < 32) (hfree : (s.jobRecs j.slot).any s.recInUse = false) :
    Completes (.budgetExhausted n cycle) s fun t => t.rsv.run = none ∧ t.jobState j.slot = 3 ∧ t.fld (jobReg j.slot 5) 0 4 = 4 ∧
      t.bit Reg.RSV_DONE j.slot = true ∧ t.bit (cReg pRSV OFF_INT_STAT) 1 = true ∧
      SameMemOut s t (recAddr (s.jobReport j.slot)) 4096 := by
  obtain ⟨hend, -, hfail, hmem⟩ := State.jobWrite_ends (s := s.atCycle cycle)
    (j.failList topo (s.jobKind j.slot) (s.jobMode j.slot) s.rsvBudget) n hfree none hslot (by decide : 4 < 16)
  refine ⟨_, congrArg Host.Outcome.next (State.budgetOut_of_spent (s := s.atCycle cycle) hgo hrun htopo hpass hbounded hspent), ?_⟩
  exact ⟨hend.idle hrun, hend.state, hend.result, hend.done, hfail (by decide), hmem.memOut⟩

/-! ### The pass over the target (R219) -/

section

variable (n cycle : Nat) (j : RsvJob) (topo : Topo) (x : Sparse Nat) (s : State) (hgo : s.solverStops = false)
  (hrun : s.rsv.run = some j) (hearly : j.early = none) (htopo : j.topo = some topo)
  (hbudget : j.pass = true ∨ s.searchBounded j = false ∨ n ≤ s.rsvBudget) (hfree : (s.jobRecs j.slot).any s.recInUse = false)
  (hfound : (j.result topo (s.jobKind j.slot) (s.jobMode j.slot) s.rsvBudget).2.2 = some x)

include hgo hrun hearly htopo hbudget hfree hfound

/-- A search that found a setting for its target passes over it. -/
theorem State.jobEnd_passes :
    s.jobEnd 0 n = (s.clearMagic j).passOver j ∧ s.jobEnd 1 n = ((s.putTarget j x).clearMagic j).passOver j := by
  have hres : (j.result topo (s.jobKind j.slot) (s.jobMode j.slot) s.rsvBudget).1 ≠ 8 :=
    ((j.result_le ..).trans_lt (by decide)).ne
  rw [jobEnd_of_search 0 hgo hrun hearly htopo hbudget, jobEnd_of_search 1 hgo hrun hearly htopo hbudget, hfound]
  exact jobWrite_passes _ n hfree x hres

theorem jobEnd_clearsMagic :
    Completes (.jobEnd 0 n cycle) s fun t => t.rsv.run = some { j with pass := true } ∧
      Wrote s t (recAddr (s.jobTarget j.slot)) (toLE 4 0) ∧ SameRegs s t [] := by
  have hpass := (State.jobEnd_passes n j topo x (s.atCycle cycle) hgo hrun hearly htopo hbudget hfree hfound).1
  exact ⟨_, congrArg Host.Outcome.next hpass, rfl, (s.atCycle cycle).wrote_clearMagic j,
    ((s.atCycle cycle).onlyMem_clearMagic j).sameRegs⟩

theorem jobEnd_writesTarget :
    Completes (.jobEnd 1 n cycle) s fun t => t.rsv.run = some { j with pass := true } ∧
      (∀ i, i < 4 → t.byte (recAddr (s.jobTarget j.slot) + i) = 0) ∧
      SameMemOut s t (recAddr (s.jobTarget j.slot)) 4096 ∧ SameRegs s t [] := by
  have hpass := (State.jobEnd_passes n j topo x (s.atCycle cycle) hgo hrun hearly htopo hbudget hfree hfound).2
  obtain ⟨hmagic, hrest⟩ := (s.atCycle cycle).putTarget_clearMagic j x
  have hregs := (((s.atCycle cycle).onlyMem_putTarget j x).trans (State.onlyMem_clearMagic _ j)).sameRegs
  refine ⟨_, congrArg Host.Outcome.next hpass, rfl, fun i hi => ?_, fun a ha => ?_, fun k hk => ?_⟩
  · rw [State.byte_passOver]
    exact hmagic i hi
  · rw [State.byte_passOver]
    exact hrest a ha
  · rw [State.reg_passOver]
    exact hregs k hk

end

/-! ### Cancellation (R237) -/

/-- The jobs that have started in slot `j`, the running one first. -/
theorem State.started_eq (s : State) (j : Nat) :
    ([s.rsv.run, s.rsv.susp].filterMap fun o => o.bind fun x => if x.slot = j then some x else none) =
      s.startedJobs.filter (·.slot == j) := by
  unfold startedJobs
  cases s.rsv.run with
  | none => cases s.rsv.susp with
    | none => rfl
    | some y => by_cases hy : y.slot = j <;> simp [hy]
  | some x => cases s.rsv.susp with
    | none => by_cases hx : x.slot = j <;> simp [hx]
    | some y => by_cases hx : x.slot = j <;> by_cases hy : y.slot = j <;> simp [hx, hy]

theorem State.jobCancel_of_free {s : State} {j : Nat} (n : Nat) (hfree : s.jobBusy j = false) : s.jobCancel j n = s := by
  unfold jobCancel
  rw [hfree]

/-- The report records that the cancellation of slot `j` writes. -/
def State.cancelReports (s : State) (j : Nat) : List (Nat × Nat) :=
  if s.startedJobs.any (·.slot == j) then [(recAddr (s.jobReport j), 4096)] else []

/-- A cancelled job writes its report if it has started, unless the record has come into use, and ends; the access of M6 is reset
after a started one. -/
theorem State.jobCancel_of_busy {s : State} {j : Nat} (n : Nat) (hbusy : s.jobBusy j = true)
    (hpass : s.startedJobs.any (·.pass) = false) :
    ∃ u k stale, OnlyMem s u ∧ SameMemOff s u (s.cancelReports j) ∧
      (s.jobCancel j n = (u.jobFinish j 9 0 k stale).raise pRSV 5 ∨
        s.jobCancel j n = ((u.jobFinish j 9 0 k stale).raise pRSV 5).resetMaster 6) := by
  unfold jobCancel
  rw [hbusy, started_eq]
  dsimp only
  cases hstarted : s.startedJobs.filter (·.slot == j) with
  | nil => exact ⟨s, 0, false, .refl s, fun _ _ => rfl, .inl rfl⟩
  | cons x l =>
    obtain ⟨hx, hslot⟩ := List.mem_filter.1 (hstarted ▸ List.mem_cons_self : x ∈ s.startedJobs.filter (·.slot == j))
    have hbefore : x.pass = false := by simpa using List.any_eq_false.1 hpass x hx
    have hreport : s.cancelReports j = [(recAddr (s.jobReport j), 4096)] := if_pos (List.any_eq_true.2 ⟨x, hx, hslot⟩)
    dsimp only
    rw [hbefore, if_neg (by decide), hreport]
    split
    case isTrue => exact ⟨s, n, x.stale, .refl s, fun _ _ => rfl, .inr rfl⟩
    case isFalse =>
      refine ⟨s.putReport x 9 [] none, n, x.stale, s.onlyMem_putReport .., ?_, .inr rfl⟩
      rw [← beq_iff_eq.1 hslot]
      exact (s.sameMemOut_putReport x 9 [] none).memOff (.head _)

theorem State.jobCancel_ends {s : State} {j : Nat} (n : Nat) (hj : j < 32) (hbusy : s.jobBusy j = true)
    (hpass : s.startedJobs.any (·.pass) = false) :
    JobEnded s (s.jobCancel j n) j 9 ∧ (s.jobCancel j n).bit (cReg pRSV OFF_INT_STAT) 5 = true ∧
      SameMemOff s (s.jobCancel j n) (s.cancelReports j) := by
  obtain ⟨u, k, stale, honly, hmem, hcancel⟩ := jobCancel_of_busy n hbusy hpass
  have hend := ((u.jobFinish_ends 0 k stale hj (by decide : 9 < 16)).of_onlyMem honly).raise (i := 5) (by decide)
  have hevent := (u.jobFinish j 9 0 k stale).bit_raise pRSV (i := 5) (by decide)
  have hkept := hmem.of_mem ((raise_mem _ pRSV 5).trans (u.jobFinish_mem j 9 0 k stale))
  obtain hcancel | hcancel := hcancel
  · rw [hcancel]
    exact ⟨hend, hevent, hkept⟩
  · rw [hcancel]
    exact ⟨hend.resetMaster 6, hevent, hkept⟩

/-- Of the jobs of a state `s` with none past its pass, those of the slots below `n` have been cancelled. -/
structure CancelledBelow (s u : State) (n : Nat) : Prop where
  free : ∀ j, j < n → u.jobBusy j = false
  aborted : ∀ j, j < n → s.jobBusy j = true → u.fld (jobReg j 5) 0 4 = 9 ∧ u.bit Reg.RSV_DONE j = true
  later : ∀ j, n ≤ j → u.jobBusy j = s.jobBusy j
  report : ∀ j, u.jobReport j = s.jobReport j
  started : u.startedJobs ⊆ s.startedJobs
  mem : SameMemOff s u s.jobReports

theorem State.jobBusy_of_reg {s t : State} {j : Nat} (h : t.reg (jobReg j 5) = s.reg (jobReg j 5)) : t.jobBusy j = s.jobBusy j := by
  rw [jobBusy_eq, jobBusy_eq, jobState_of_reg h]

theorem jobBeside_toList_subset (slot : Nat) (o : Option RsvJob) : (jobBeside slot o).toList ⊆ o.toList := by
  cases o with
  | none => exact List.Subset.refl _
  | some j =>
    change (if j.slot = slot then none else some j).toList ⊆ _
    split
    · exact List.nil_subset _
    · exact List.Subset.refl _

theorem JobEnded.started {s t : State} {slot res : Nat} (h : JobEnded s t slot res) : t.startedJobs ⊆ s.startedJobs := by
  rw [State.startedJobs, h.queue]
  exact List.append_subset.2 ⟨List.subset_append_of_subset_left _ (jobBeside_toList_subset ..),
    List.subset_append_of_subset_right _ (jobBeside_toList_subset ..)⟩

theorem CancelledBelow.zero (s : State) : CancelledBelow s s 0 where
  free _ h := absurd h (Nat.not_lt_zero _)
  aborted _ h := absurd h (Nat.not_lt_zero _)
  later _ _ := rfl
  report _ := rfl
  started := List.Subset.refl _
  mem _ _ := rfl

/-- What the cancellation of a slot writes is a report of a job that has started. -/
theorem CancelledBelow.cancelReports_subset {s u : State} {n : Nat} (h : CancelledBelow s u n) :
    u.cancelReports n ⊆ s.jobReports := by
  unfold State.cancelReports
  split
  case isTrue hstarted =>
    obtain ⟨x, hx, hslot⟩ := List.any_eq_true.1 hstarted
    rw [h.report, ← beq_iff_eq.1 hslot]
    exact List.cons_subset.2 ⟨List.mem_map.2 ⟨x, h.started hx, rfl⟩, List.nil_subset _⟩
  case isFalse => exact List.nil_subset _

theorem CancelledBelow.succ {s u : State} {n : Nat} (cycles : Nat) (h : CancelledBelow s u n) (hn : n < 32)
    (hpass : s.startedJobs.any (·.pass) = false) : CancelledBelow s (u.jobCancel n cycles) (n + 1) := by
  have hlast {P : Nat → Prop} (hbelow : ∀ j, j < n → P j) (hsame : P n) (j : Nat) (hj : j < n + 1) : P j :=
    (Nat.lt_succ_iff_lt_or_eq.1 hj).elim (hbelow j) fun heq => heq ▸ hsame
  cases hbusy : u.jobBusy n with
  | false =>
    rw [State.jobCancel_of_free cycles hbusy]
    refine ⟨hlast h.free hbusy, hlast h.aborted fun hwas => ?_, fun j hj => h.later j (by omega), h.report, h.started, h.mem⟩
    rw [← h.later n le_rfl, hbusy] at hwas
    cases hwas
  | true =>
    have hpass' : u.startedJobs.any (·.pass) = false :=
      List.any_eq_false.2 fun x hx => List.any_eq_false.1 hpass x (h.started hx)
    obtain ⟨hend, -, hmem⟩ := State.jobCancel_ends cycles hn hbusy hpass'
    have hother {j : Nat} (hj : j ≠ n) := hend.apart j 5 (by decide) (.inl hj)
    refine ⟨hlast (fun j hj => ?_) hend.free, hlast (fun j hj hwas => ?_) fun _ => ⟨hend.result, hend.done⟩, fun j hj => ?_, fun j => ?_,
      List.Subset.trans hend.started h.started, h.mem.trans fun a ha => hmem a fun r hr => ha r (h.cancelReports_subset hr)⟩
    · rw [State.jobBusy_of_reg (hother hj.ne), h.free j hj]
    · obtain ⟨hres, hdone⟩ := h.aborted j hj hwas
      exact ⟨(State.fld_of_reg (hother hj.ne) 0 4).trans hres, hend.doneKept j hdone⟩
    · rw [State.jobBusy_of_reg (hother (by omega)), h.later j (by omega)]
    · exact (State.fld_of_reg (hend.apart j 3 (by decide) (.inr (by decide))) 0 13).trans (h.report j)

theorem State.jobCancelAll_cancels (s : State) (cycles : Nat) (hpass : s.startedJobs.any (·.pass) = false) :
    CancelledBelow s (s.jobCancelAll cycles) 32 := by
  have hbelow (n : Nat) (hn : n ≤ 32) :
      CancelledBelow s ((List.range n).foldl (fun (s : State) j => s.jobCancel j cycles) s) n := by
    induction n with
    | zero => exact .zero s
    | succ n ih =>
      rw [List.range_succ, List.foldl_append]
      exact (ih (by omega)).succ cycles hn hpass
  exact hbelow 32 le_rfl

/-- What the cancellation of jobs reads and writes is the same. -/
structure SameJobs (s t : State) : Prop where
  rsv : t.rsv = s.rsv
  mem : t.mem = s.mem
  regs : SameRegs s t [Reg.RSV_CTRL]

section

variable {s t : State} (h : SameJobs s t)

include h

theorem SameJobs.reg_jobReg (j w : Nat) : t.reg (jobReg j w) = s.reg (jobReg j w) :=
  h.regs _ (jobReg_not_mem j w (by decide))

theorem SameJobs.jobBusy (j : Nat) : t.jobBusy j = s.jobBusy j := State.jobBusy_of_reg (h.reg_jobReg j 5)

theorem SameJobs.jobReport (j : Nat) : t.jobReport j = s.jobReport j := State.fld_of_reg (h.reg_jobReg j 3) 0 13

theorem SameJobs.startedJobs : t.startedJobs = s.startedJobs := by rw [State.startedJobs, State.startedJobs, h.rsv]

theorem SameJobs.cancelReports (j : Nat) : t.cancelReports j = s.cancelReports j := by
  rw [State.cancelReports, State.cancelReports, h.startedJobs, h.jobReport]

theorem SameJobs.jobReports : t.jobReports = s.jobReports := by
  simp only [State.jobReports, h.startedJobs, h.jobReport]

theorem SameJobs.result (j : Nat) : t.fld (jobReg j 5) 0 4 = s.fld (jobReg j 5) 0 4 := State.fld_of_reg (h.reg_jobReg j 5) 0 4

theorem SameJobs.done (j : Nat) : t.bit Reg.RSV_DONE j = s.bit Reg.RSV_DONE j := State.bit_of_reg (h.regs _ (by decide)) j

end

theorem SameJobs.sameMemOff {s u v t : State} {l : List (Nat × Nat)} (h : SameJobs s u) (hmem : SameMemOff u v l)
    (h' : SameJobs v t) : SameMemOff s t l :=
  fun a ha => (State.byte_of_mem h'.mem a).trans ((hmem a ha).trans (State.byte_of_mem h.mem a))

/-- An accepted write of RSV_CTRL does what it starts to a state of the same jobs. -/
theorem State.gateWrite_rsvCtrl {s : State} {m : Nat} {v : Word} (start : State → State)
    (hacc : s.accepts m Reg.RSV_CTRL v = true) :
    ∃ u, SameJobs s u ∧ SameJobs (start u) (s.gateWrite m Reg.RSV_CTRL v fun s => start (s.storeReg Reg.RSV_CTRL v)) := by
  refine ⟨(s.respond m true Reg.RSV_CTRL .ok 0).storeReg Reg.RSV_CTRL v, ⟨storeReg_rsv .., storeReg_mem .., fun k hk => ?_⟩,
    s.gateWrite_rsv _ hacc, s.gateWrite_mem _ hacc, fun k _ => s.reg_gateWrite _ hacc k⟩
  rw [reg_storeReg_apart _ _ (by decide) (by simpa using hk), reg_respond]

theorem jobCancel_cancels (m : Fin 8) (j : Fin 32) (n : Nat) (s : State)
    (hacc : s.accepts m Reg.RSV_CTRL (BitVec.ofNat 32 (1 + 256 * j.val)) = true) (hbusy : s.jobBusy j = true)
    (hpass : s.startedJobs.any (·.pass) = false) :
    Completes (.jobCancel m j n) s fun t => t.jobState j = 3 ∧ t.fld (jobReg j 5) 0 4 = 9 ∧ t.bit Reg.RSV_DONE j = true ∧
      j.val ∉ t.rsv.queue ∧ t.bit (cReg pRSV OFF_INT_STAT) 5 = true ∧
      SameMemOff s t (if s.startedJobs.any (·.slot == j.val) then [(recAddr (s.jobReport j), 4096)] else []) := by
  obtain ⟨u, hbefore, hafter⟩ := State.gateWrite_rsvCtrl (·.jobCancel j n) hacc
  obtain ⟨hend, hevent, hmem⟩ := State.jobCancel_ends n j.isLt ((hbefore.jobBusy j).trans hbusy)
    ((congrArg (·.any (·.pass)) hbefore.startedJobs).trans hpass)
  rw [hbefore.cancelReports] at hmem
  refine ⟨_, rfl, ?_, (hafter.result j).trans hend.result, (hafter.done j).trans hend.done, ?_, ?_,
    hbefore.sameMemOff hmem hafter⟩
  · exact (State.jobState_of_reg (hafter.reg_jobReg j 5)).trans hend.state
  · rw [hafter.rsv, hend.queue]
    simp [RsvSt.without]
  · exact (State.bit_of_reg (hafter.regs _ (by decide)) 5).trans hevent

theorem jobCancelAll_cancels (m : Fin 8) (n : Nat) (s : State) (hacc : s.accepts m Reg.RSV_CTRL 2 = true)
    (hpass : s.startedJobs.any (·.pass) = false) :
    Completes (.jobCancelAll m n) s fun t => (∀ j, j < 32 → t.jobBusy j = false ∧
      (s.jobBusy j = true → t.fld (jobReg j 5) 0 4 = 9 ∧ t.bit Reg.RSV_DONE j = true)) ∧ SameMemOff s t s.jobReports := by
  obtain ⟨u, hbefore, hafter⟩ := State.gateWrite_rsvCtrl (·.jobCancelAll n) hacc
  have hall := u.jobCancelAll_cancels n ((congrArg (·.any (·.pass)) hbefore.startedJobs).trans hpass)
  refine ⟨_, rfl, fun j hj => ⟨(hafter.jobBusy j).trans (hall.free j hj), fun hbusy => ?_⟩, ?_⟩
  · obtain ⟨hres, hdone⟩ := hall.aborted j hj ((hbefore.jobBusy j).trans hbusy)
    exact ⟨(hafter.result j).trans hres, (hafter.done j).trans hdone⟩
  · rw [← hbefore.jobReports]
    exact hbefore.sameMemOff hall.mem hafter

/-- Settles O31, clause by clause. -/
theorem solverJobEndsComplete : Obligations.SolverJobEndsComplete := by
  unfold Obligations.SolverJobEndsComplete
  exact ⟨jobEnd_ends_early, jobEnd_ends_search, jobEnd_clearsMagic, jobEnd_writesTarget, budgetExhausted_ends, jobCancel_cancels,
    jobCancelAll_cancels⟩

end Sys2Proof.Machine
end

section
/-! PROOFS. What the banks of the carousel and of protection share: data registers that step an index (R270, R272), and the end of a
check (R247, R255). -/

namespace Sys2Proof.Machine

/-! ### Data registers (R270, R272) -/

/-- A read of a one-word register answers its value, and a data register of an active bank then steps its index. -/
theorem State.busRead_of_acceptsRead {s : State} {m a : Nat} (hacc : s.acceptsRead m a = true) (hword : wideAt a = 1)
    (hother : a ∉ [Reg.PRT_SUB_DATA, Reg.PWR_VIN, Reg.PWR_BUS]) :
    s.busRead m a =
      let u := s.respond m false a .ok (s.readWord a)
      let u := if a = Reg.CRS_ACT_DATA then u.crsActRead.1 else u
      if a = Reg.PRT_SUBA_DATA then u.prtSubRead.1 else u := by
  simp only [acceptsRead, Bool.and_eq_true, Bool.not_eq_true', beq_iff_eq, Option.isNone_iff_eq_none, Option.isSome_iff_ne_none]
    at hacc
  obtain ⟨⟨⟨⟨⟨⟨⟨hoff, hreset⟩, htarget⟩, hheld⟩, haligned⟩, hprot⟩, hrow⟩, hlatch⟩ := hacc
  simp only [List.mem_cons, List.not_mem_nil, or_false, not_or] at hother
  obtain ⟨hsub, hvin, hbus⟩ := hother
  have hplain : s.latchHigh m a = s := by
    rw [latchHigh, hword]
    rfl
  unfold busRead regRead
  rw [if_pos (.inl htarget), hoff, hreset, if_neg (by decide), if_neg (by simp [htarget]), hheld, if_neg (by decide),
    if_neg (by simp [haligned]), hprot, if_neg (by decide), if_neg (by simp [hrow]), hlatch]
  dsimp only
  rw [hplain, if_neg (by simp [hvin, hbus]), if_neg hsub]

theorem State.fld_setRegN_index (s : State) (k : Nat) {i n : Nat} (len : Nat) (hlen : len ≤ 32) (hn : n = 2 ^ len) :
    (s.setRegN k ((i + 1) % n)).fld k 0 len = (i + 1) % n := by
  subst hn
  rw [fld, reg_setRegN, if_pos rfl, fld_ofNat (by omega), bits, Nat.shiftRight_zero, Nat.mod_mod]

/-! ### The end of a bank's check (R247, R255) -/

/-- The registers of a bank whose check has ended with result `r`, a code, a place and a detail: CHECKING, bit `busy` of `stat`, is
cleared, `res` holds the result, and CHECKED, bit `checked`, says whether its code is 0. -/
def State.bankChecked (s : State) (stat res busy checked : Nat) (r : Nat × Nat × Nat) : State :=
  ((s.setBit stat busy false).setRegN res (r.1 + 256 * r.2.2 + 65536 * r.2.1)).setBit stat checked (r.1 == 0)

section

variable (s : State) {page stat res busy checked : Nat} (r : Nat × Nat × Nat) (hres : res ≠ stat)

include hres

theorem State.bankChecked_shows (hbusy : busy < 32) (hchecked : checked < 32) (hbits : busy ≠ checked) :
    (s.bankChecked stat res busy checked r).bit stat busy = false ∧
      (s.bankChecked stat res busy checked r).bit stat checked = (r.1 == 0) ∧
      (s.bankChecked stat res busy checked r).reg res = BitVec.ofNat 32 (r.1 + 256 * r.2.2 + 65536 * r.2.1) ∧
      SameRegs s (s.bankChecked stat res busy checked r) [stat, res] := by
  unfold bankChecked
  refine ⟨?_, ?_, ?_, fun k hk => ?_⟩
  · rw [bit_setBit _ _ _ _ hchecked, if_neg fun h => hbits h.2, bit_of_reg ((reg_setRegN ..).trans (if_neg hres.symm)),
      bit_setBit _ _ _ _ hbusy, if_pos ⟨rfl, rfl⟩]
  · rw [bit_setBit _ _ _ _ hchecked, if_pos ⟨rfl, rfl⟩]
  · rw [reg_setBit, if_neg hres, reg_setRegN, if_pos rfl]
  · simp only [List.mem_cons, List.not_mem_nil, or_false, not_or] at hk
    obtain ⟨hstatK, hresK⟩ := hk
    rw [reg_setBit, if_neg hstatK, reg_setRegN, if_neg hresK, reg_setBit, if_neg hstatK]

/-- The registers after the event that ends a bank's check. -/
theorem State.bankChecked_raise (hbusy : busy < 32) (hchecked : checked < 32) (hbits : busy ≠ checked)
    (hstatKey : stat ∉ raiseKeys page) (hresKey : res ∉ raiseKeys page) (i : Nat) {t : State}
    (ht : ∀ k, t.reg k = (s.bankChecked stat res busy checked r).reg k) :
    (t.raise page i).bit stat busy = false ∧ (t.raise page i).bit stat checked = (r.1 == 0) ∧
      (t.raise page i).reg res = BitVec.ofNat 32 (r.1 + 256 * r.2.2 + 65536 * r.2.1) ∧
      SameRegs s (t.raise page i) (stat :: res :: raiseKeys page) := by
  obtain ⟨hidle, hshown, hresult, hother⟩ := s.bankChecked_shows r hres hbusy hchecked hbits
  have hkeeps {k : Nat} (hk : k ∉ raiseKeys page) := (reg_raise t (i := i) hk).trans (ht k)
  refine ⟨?_, ?_, ?_, fun k hk => ?_⟩
  · rw [bit_of_reg (hkeeps hstatKey), hidle]
  · rw [bit_of_reg (hkeeps hstatKey), hshown]
  · rw [hkeeps hresKey, hresult]
  · obtain ⟨hshownK, hraiseK⟩ : k ∉ [stat, res] ∧ k ∉ raiseKeys page := not_or.1 (mt List.mem_append.2 hk)
    rw [hkeeps hraiseK, hother k hshownK]

end

end Sys2Proof.Machine
end

section
/-! PROOFS. The shadow bank of the carousel: its check and its slot words, and the report of a slot change (R246, R247, R270). -/

namespace Sys2Proof.Machine

/-! ### The check (R247) -/

theorem carouselCheck_begins (m : Fin 8) (s : State) (hacc : s.accepts m Reg.CRS_CTRL 1 = true) :
    Completes (.carouselCheck m) s fun t => t.bit Reg.CRS_STAT 4 = true ∧ SameMem s t ∧ SameRegs s t [Reg.CRS_STAT] := by
  refine ⟨_, rfl, ?_, sameMem_of_frame (execCarouselCheck_frame m s rfl), fun k hk => ?_⟩
  · rw [State.bit_gateWrite _ _ hacc, State.crsStartCheck, State.bit_setBit _ _ _ _ (by decide), if_pos ⟨rfl, rfl⟩]
  · rw [State.reg_gateWrite _ _ hacc, State.crsStartCheck, State.reg_setBit, if_neg (by simpa using hk), State.reg_respond]

theorem State.crsCheckDone_of_busy {s : State} (hbusy : s.bit Reg.CRS_STAT 4 = true) :
    s.crsCheckDone = (s.bankChecked Reg.CRS_STAT Reg.CRS_RES 4 3 s.crsCheck).raise pCRS 4 :=
  if_neg (by simp [hbusy])

theorem carouselCheckDone_ends (s : State) (hbusy : s.bit Reg.CRS_STAT 4 = true) :
    Completes .carouselCheckDone s fun t => t.bit Reg.CRS_STAT 4 = false ∧ t.bit Reg.CRS_STAT 3 = (s.crsCheck.1 == 0) ∧
      t.reg Reg.CRS_RES = BitVec.ofNat 32 (s.crsCheck.1 + 256 * s.crsCheck.2.2 + 65536 * s.crsCheck.2.1) ∧
      t.bit (cReg pCRS OFF_INT_STAT) 4 = true ∧ SameMem s t ∧
      SameRegs s t (Reg.CRS_STAT :: Reg.CRS_RES :: raiseKeys pCRS) := by
  have hmem := sameMem_of_frame s.crsCheckDone_frame
  obtain ⟨hidle, hchecked, hres, hregs⟩ := s.bankChecked_raise (page := pCRS) (stat := Reg.CRS_STAT) (res := Reg.CRS_RES)
    (busy := 4) (checked := 3) s.crsCheck (by decide) (by decide) (by decide) (by decide) (by decide) (by decide) 4 fun _ => rfl
  refine ⟨s.crsCheckDone, rfl, ?_⟩
  rw [State.crsCheckDone_of_busy hbusy] at hmem ⊢
  exact ⟨hidle, hchecked, hres, State.bit_raise _ pCRS (by decide), hmem, hregs⟩

/-! ### Slot words (R270) -/

/-- A word of the shadow bank that may be written takes the word at the index; the index steps on, and CHECKED clears. -/
theorem State.crsDataWrite_writes {s : State} (m : Nat) (v : Word) (hfree : s.crsShadowBusy = false) :
    (s.crsDataWrite m v).crs.shd.words = Sparse.put 0 (s.fld Reg.CRS_SHD_IDX 0 10) v.toNat s.crs.shd.words ∧
      (s.crsDataWrite m v).fld Reg.CRS_SHD_IDX 0 10 = (s.fld Reg.CRS_SHD_IDX 0 10 + 1) % 1024 ∧
      (s.crsDataWrite m v).bit Reg.CRS_STAT 3 = false ∧
      SameRegs s (s.crsDataWrite m v) [Reg.CRS_SHD_IDX, Reg.CRS_STAT] := by
  unfold crsDataWrite
  rw [if_neg (by simp [hfree])]
  dsimp only
  refine ⟨rfl, fld_setRegN_index _ _ 10 (by decide) rfl, ?_, fun k hk => ?_⟩
  · rw [bit_of_reg ((reg_setRegN ..).trans (if_neg (by decide))), setShd, bit_setBit _ _ _ _ (by decide), if_pos ⟨rfl, rfl⟩]
  · simp only [List.mem_cons, List.not_mem_nil, or_false, not_or] at hk
    obtain ⟨hidx, hstat⟩ := hk
    rw [reg_setRegN, if_neg hidx, setShd, reg_setBit, if_neg hstat]
    rfl

theorem crsShdDataWrite_writes (m : Fin 8) (v : Word) (s : State) (hacc : s.accepts m Reg.CRS_SHD_DATA v = true)
    (hfree : s.crsShadowBusy = false) :
    Completes (.crsShdDataWrite m v) s fun t =>
      Sparse.get 0 (s.fld Reg.CRS_SHD_IDX 0 10) t.crs.shd.words = v.toNat ∧
      (∀ i, i ≠ s.fld Reg.CRS_SHD_IDX 0 10 → Sparse.get 0 i t.crs.shd.words = Sparse.get 0 i s.crs.shd.words) ∧
      t.fld Reg.CRS_SHD_IDX 0 10 = (s.fld Reg.CRS_SHD_IDX 0 10 + 1) % 1024 ∧ t.bit Reg.CRS_STAT 3 = false ∧ SameMem s t ∧
      SameRegs s t [Reg.CRS_SHD_IDX, Reg.CRS_STAT] := by
  obtain ⟨hwords, hidx, hchecked, hregs⟩ :=
    State.crsDataWrite_writes (s := s.respond m true Reg.CRS_SHD_DATA .ok 0) m v hfree
  refine ⟨_, rfl, ?_, fun i hi => ?_, ?_, ?_, sameMem_of_frame (execCrsShdDataWrite_frame m v s rfl), fun k hk => ?_⟩
  · rw [State.gateWrite_crs _ _ hacc, hwords]
    exact Sparse.get_put_same ..
  · rw [State.gateWrite_crs _ _ hacc, hwords]
    exact Sparse.get_put_other _ _ _ hi _
  · rw [State.fld_gateWrite _ _ hacc]
    exact hidx
  · rw [State.bit_gateWrite _ _ hacc, hchecked]
  · rw [State.reg_gateWrite _ _ hacc]
    exact hregs k hk

theorem State.readWord_crsActData (s : State) :
    s.readWord Reg.CRS_ACT_DATA = BitVec.ofNat 32 (Sparse.get 0 (s.fld Reg.CRS_ACT_IDX 0 10) s.crs.act.words) := rfl

theorem crsActDataRead_advances (m : Fin 8) (s : State) (hacc : s.acceptsRead m Reg.CRS_ACT_DATA = true) :
    Completes (.crsActDataRead m) s fun t => t.bus.last.status = .ok ∧
      t.bus.last.data = BitVec.ofNat 32 (Sparse.get 0 (s.fld Reg.CRS_ACT_IDX 0 10) s.crs.act.words) ∧
      t.fld Reg.CRS_ACT_IDX 0 10 = (s.fld Reg.CRS_ACT_IDX 0 10 + 1) % 1024 ∧ SameMem s t := by
  have hread := State.busRead_of_acceptsRead hacc (by decide +kernel) (by decide)
  dsimp only at hread
  rw [if_pos rfl, if_neg (by decide)] at hread
  refine ⟨_, rfl, ?_, ?_, ?_, sameMem_of_frame (execCrsActDataRead_frame m s rfl)⟩
  · rw [hread]
    rfl
  · rw [hread]
    exact s.readWord_crsActData
  · rw [hread]
    exact State.fld_setRegN_index _ _ 10 (by decide) rfl

/-! ### A slot change (R246) -/

/-- A slot change as CUR_SLOT and the pulses of EVT_OUT show it. -/
def State.slotReported (s : State) (slot : Nat) : State :=
  { s with
    crs := { s.crs with slotDone := some s.now }
    evt := { s.evt with pulse := s.evt.pulse ||| (8 + 4 * b2n (slot == 0)) } }.setFld Reg.CRS_STAT 16 10 slot

/-- A slot change before its events: CRS_CYCLE_AT shows that of slot 0. -/
def State.slotShown (s : State) (slot : Nat) : State :=
  if slot == 0 then (s.slotReported slot).setReg64 Reg.CRS_CYCLE_AT s.now.toNat else s.slotReported slot

theorem State.slotChange_of_due {s : State} (hdue : s.slotChangeDue = true) :
    s.slotChange = ((s.slotShown (s.crs.act.slotInForce s.crs.base s.now).1).raise pCRS 0).raiseIf
      ((s.crs.act.slotInForce s.crs.base s.now).1 == 0) pCRS 1 :=
  if_neg (by simp [hdue])

theorem State.reg_setReg64_other (s : State) {k j : Nat} (v : Nat) (hlow : j ≠ k) (hhigh : j ≠ k + 4) :
    (s.setReg64 k v).reg j = s.reg j := by
  rw [setReg64, reg_setRegN, if_neg hhigh, reg_setRegN, if_neg hlow]

theorem testBit_slotPulse (pulse : Nat) (b : Bool) : bitAt (pulse ||| (8 + 4 * b2n b)) 3 = true := by
  rw [bitAt, Nat.testBit_or, Bool.or_eq_true]
  right
  revert b
  decide

theorem State.slotReported_shows (s : State) (slot : Nat) :
    (s.slotReported slot).fld Reg.CRS_STAT 16 10 = slot % 1024 ∧ bitAt (s.slotReported slot).evt.pulse 3 = true ∧
      SameRegs s (s.slotReported slot) [Reg.CRS_STAT] :=
  ⟨fld_setFld_same _ (by decide), testBit_slotPulse ..,
    fun k hk => (reg_setFld ..).trans (if_neg fun h => hk (List.mem_singleton.2 h))⟩

theorem State.slotShown_shows (s : State) (slot : Nat) :
    (s.slotShown slot).fld Reg.CRS_STAT 16 10 = slot % 1024 ∧ bitAt (s.slotShown slot).evt.pulse 3 = true ∧
      SameRegs s (s.slotShown slot) [Reg.CRS_STAT, Reg.CRS_CYCLE_AT, Reg.CRS_CYCLE_AT + 4] := by
  obtain ⟨hslot, hpulse, hother⟩ := s.slotReported_shows slot
  unfold slotShown
  split
  case isTrue =>
    refine ⟨(fld_of_reg (reg_setReg64_other _ _ (by decide) (by decide)) ..).trans hslot, ?_, fun k hk => ?_⟩
    · rw [setReg64_evt, hpulse]
    · simp only [List.mem_cons, List.not_mem_nil, or_false, not_or] at hk
      obtain ⟨hstat, hlow, hhigh⟩ := hk
      rw [reg_setReg64_other _ _ hlow hhigh, hother k (by simpa using hstat)]
  case isFalse => exact ⟨hslot, hpulse, fun k hk => hother k fun h => hk (List.mem_cons.2 (.inl (List.mem_singleton.1 h)))⟩

theorem carouselSlotChange_shows (s : State) (hdue : s.slotChangeDue = true) :
    Completes .carouselSlotChange s fun t =>
      t.fld Reg.CRS_STAT 16 10 = (s.crs.act.slotInForce s.crs.base s.now).1 % 1024 ∧
      t.bit (cReg pCRS OFF_INT_STAT) 0 = true ∧ bitAt t.evt.pulse 3 = true ∧ SameMem s t ∧
      SameRegs s t ([Reg.CRS_STAT, Reg.CRS_CYCLE_AT, Reg.CRS_CYCLE_AT + 4] ++ raiseKeys pCRS) := by
  have hmem := sameMem_of_frame s.slotChange_frame
  obtain ⟨hslot, hpulse, hother⟩ := s.slotShown_shows (s.crs.act.slotInForce s.crs.base s.now).1
  refine ⟨s.slotChange, rfl, ?_⟩
  rw [State.slotChange_of_due hdue] at hmem ⊢
  refine ⟨?_, State.bit_raiseIf_keeps _ _ _ (by decide) (State.bit_raise _ pCRS (by decide)), ?_, hmem, fun k hk => ?_⟩
  · rw [State.fld_of_reg ((State.reg_raiseIf _ (by decide)).trans (State.reg_raise _ (by decide))), hslot]
  · rw [State.raiseIf_evt, State.raise_evt, hpulse]
  · obtain ⟨hshown, hraise⟩ := not_or.1 (mt List.mem_append.2 hk)
    rw [State.reg_raiseIf _ hraise, State.reg_raise _ hraise, hother k hshown]

/-- Settles O21, clause by clause. -/
theorem carouselCommandsComplete : Obligations.CarouselCommandsComplete := by
  unfold Obligations.CarouselCommandsComplete
  exact ⟨carouselCheck_begins, carouselCheckDone_ends, crsShdDataWrite_writes, crsActDataRead_advances,
    carouselSlotChange_shows⟩

end Sys2Proof.Machine
end

section
/-! PROOFS. A carousel operation and a change of period that waits (R69, R249): the accepted START cancels the TCK commit, so that
TCK_CMT_RES changes with CRS_CMD. -/

namespace Sys2Proof.Machine

/-- A running device in role solo with a shortening of the period, from 1,000 to 900 cycles, waiting for tick 8, and a checked
shadow bank of two slots of four ticks whose START falls on boundary 9. -/
def State.shorteningBeforeStart : State :=
  { [(Reg.RED_ROLE, 0xF00), (Reg.TCK_STAT, 0x21), (Reg.TCK_PERIOD, 900), (Reg.CRS_STAT, 8), (Reg.CRS_BASE_TIME, 9000),
      (cReg pCRS OFF_COMMIT_TICK, 9)].foldl (fun s e => s.setRegN e.1 e.2) State.reset with
    commits := [⟨pTCK, 8, 8, false, false⟩]
    crs := { shd := { count := 2, words := [(0, 0x40000), (1, 0x40000)] } } }

/-- START for boundary 9 is accepted in that state. -/
theorem crsAccepted_shorteningBeforeStart : CrsAccepted 1 0 0 State.shorteningBeforeStart := by
  unfold CrsAccepted
  decide +kernel

/-- The START schedules a reconfiguration for the boundary after the shortening, which R69 does not allow: the TCK commit is
cancelled, and TCK_CMT_RES reads CANCELLED. -/
theorem tckCmtRes_start_shorteningBeforeStart :
    State.shorteningBeforeStart.reg Reg.TCK_CMT_RES = 0 ∧
      (State.shorteningBeforeStart.crsRequest 0 1 0).reg Reg.TCK_CMT_RES = 6 := by
  decide +kernel

/-- Refutes O35: its clause on START leaves every register but four as it was, while an accepted START whose boundary comes next
after that of a waiting shortening of the period cancels the TCK commit (R69), which writes TCK_CMT_RES. -/
theorem not_carouselOperationsComplete : ¬ Obligations.CarouselOperationsComplete := by
  unfold Obligations.CarouselOperationsComplete
  rintro ⟨hstart, -, -⟩
  obtain ⟨t, hexec, -, -, -, -, -, -, hregs⟩ :=
    hstart 0 0 _ crsAccepted_shorteningBeforeStart (by decide +kernel) (by decide +kernel)
  obtain rfl : State.shorteningBeforeStart.crsRequest 0 1 0 = t := Host.Outcome.next.inj hexec
  obtain ⟨hbefore, hafter⟩ := tckCmtRes_start_shorteningBeforeStart
  have hsame := hregs Reg.TCK_CMT_RES (by decide)
  rw [hbefore, hafter] at hsame
  exact absurd hsame (by decide)

end Sys2Proof.Machine
end

section
/-! PROOFS. The trigger pins and the loss-of-light inputs (R264 to R267): edges, recognition, the enable, and the CHATTER and STUCK
bits. -/

namespace Sys2Proof.Machine

/-! ### The state of a pin -/

theorem State.pin_of_evt {s t : State} (h : t.evt = s.evt) (k : Nat) : t.pin k = s.pin k := by rw [pin, pin, h]

theorem State.pin_setPin_same (s : State) (k : Nat) (f : PinSt → PinSt) : (s.setPin k f).pin k = f (s.pin k) :=
  Sparse.get_put_same ..

theorem State.pin_setPin_other (s : State) {k j : Nat} (f : PinSt → PinSt) (h : j ≠ k) : (s.setPin k f).pin j = s.pin j :=
  Sparse.get_put_other _ _ _ h _

/-! ### An edge (R265) -/

/-- A new level is taken by its pin alone, and changes no register. -/
theorem State.pinEdge_takes {s : State} {k : Nat} {level : Bool} (hnew : (s.pin k).level ≠ level) :
    ((s.pinEdge k level).pin k).level = level ∧ (∀ j, j ≠ k → (s.pinEdge k level).pin j = s.pin j) ∧
      ∀ j, (s.pinEdge k level).reg j = s.reg j := by
  unfold pinEdge
  rw [if_neg hnew]
  dsimp only
  split
  case isTrue =>
    refine ⟨?_, fun j hj => ?_, fun _ => rfl⟩
    · rw [pinStart, pin_setPin_same, pin_setPin_same]
    · rw [pinStart, pin_setPin_other _ _ hj, pin_setPin_other _ _ hj]
  case isFalse =>
    refine ⟨?_, fun j hj => pin_setPin_other _ _ hj, fun _ => rfl⟩
    rw [pin_setPin_same]

theorem trigInEdge_takes (pin : Fin 8) (level : Bool) (cycle : Nat) (s : State) (hnew : (s.pin pin).level ≠ level) :
    Completes (.trigInEdge pin level cycle) s fun t => (t.pin pin).level = level ∧
      (∀ k, k ≠ pin.val → t.pin k = s.pin k) ∧ SameMem s t ∧ SameRegs s t [] := by
  obtain ⟨hlevel, hother, hregs⟩ := State.pinEdge_takes (s := s.atCycle cycle) hnew
  exact ⟨_, rfl, hlevel, hother, sameMem_of_frame (execTrigInEdge_frame pin level cycle s rfl), fun k _ => hregs k⟩

/-! ### Recognition (R265, R266) -/

/-- Pin `k` is recognised as it stands. -/
def State.pinTaken (s : State) (k : Nat) : State :=
  s.setPin k fun p =>
    { p with on := s.pinActive k, wait := none, since := if s.pinActive k then some s.countTick else none }

/-- An event of pin `k` is accepted for tick `t`. -/
def State.pinEvent (s : State) (k : Nat) (t : Tick) : State :=
  let u := s.setPin k fun p => { p with last := some t }
  { u with evt := { u.evt with pinEv := u.evt.pinEv ||| 1 <<< k } }

theorem State.pin_pinEvent (s : State) (k : Nat) (t : Tick) : (s.pinEvent k t).pin k = { s.pin k with last := some t } :=
  Sparse.get_put_same ..

/-- What a recognition of pin `k` for tick `t` is: none of an inactive or masked pin, chatter (R266), or an event. -/
def State.pinJudged (s : State) (k : Nat) (active : Bool) (t : Tick) : State :=
  if !active || s.pinMasked k then s
  else if tooSoon (s.pin k).last t then (s.setBit Reg.EVT_PIN_STAT (8 + k) true).raise pEVT 2
  else ((s.pinEvent k t).count Reg.EVT_PIN_CNT).raise pEVT 0

theorem State.pinRecognise_of_due {s : State} {k : Nat} (hdue : s.pinDue k = true) :
    s.pinRecognise k = (s.pinTaken k).pinJudged k (s.pinActive k) s.countTick :=
  if_neg (by simp [hdue])

theorem State.pinJudged_keeps (s : State) (k : Nat) (active : Bool) (t : Tick) :
    ((s.pinJudged k active t).pin k).on = (s.pin k).on ∧ ((s.pinJudged k active t).pin k).wait = (s.pin k).wait := by
  unfold pinJudged
  split
  case isTrue => exact ⟨rfl, rfl⟩
  case isFalse =>
    split
    case isTrue =>
      rw [pin_of_evt (raise_evt ..), pin_of_evt (setBit_evt ..)]
      exact ⟨rfl, rfl⟩
    case isFalse =>
      rw [pin_of_evt (raise_evt ..), pin_of_evt (count_evt ..), pin_pinEvent]
      exact ⟨rfl, rfl⟩

/-- A recognition that is due takes the pin's level now, and the pin no longer waits. -/
theorem State.pinRecognise_recognises {s : State} {k : Nat} (hdue : s.pinDue k = true) :
    ((s.pinRecognise k).pin k).on = s.pinActive k ∧ ((s.pinRecognise k).pin k).wait = none := by
  obtain ⟨hon, hwait⟩ := (s.pinTaken k).pinJudged_keeps k (s.pinActive k) s.countTick
  rw [pinRecognise_of_due hdue, hon, hwait, pinTaken, pin_setPin_same]
  exact ⟨rfl, rfl⟩

/-- Closing the trigger set leaves the registers and the values in force, the pins, and the cases as they stand. -/
theorem State.closeIfPast_keeps (s : State) :
    s.closeIfPast.regs = s.regs ∧ s.closeIfPast.force = s.force ∧ s.closeIfPast.evt.pins = s.evt.pins ∧
      s.closeIfPast.prt.runs = s.prt.runs := by
  unfold closeIfPast closeTrig
  split
  · split <;> exact ⟨rfl, rfl, rfl, rfl⟩
  · exact ⟨rfl, rfl, rfl, rfl⟩

theorem State.pinActive_closeIfPast (s : State) (k : Nat) : s.closeIfPast.pinActive k = s.pinActive k := by
  obtain ⟨-, hforce, hpins, -⟩ := s.closeIfPast_keeps
  rw [pinActive, pinActive, pin, pin, hpins, fbit, fbit, inForce, inForce, hforce]

theorem pinRecognition_recognises (pin : Fin 8) (cycle : Nat) (s : State)
    (hdue : (s.atCycle cycle).closeIfPast.pinDue pin = true) :
    Completes (.pinRecognition pin cycle) s fun t =>
      (t.pin pin).on = s.pinActive pin ∧ (t.pin pin).wait = none ∧ SameMem s t := by
  obtain ⟨hon, hwait⟩ := State.pinRecognise_recognises hdue
  exact ⟨_, rfl, hon.trans ((s.atCycle cycle).pinActive_closeIfPast pin), hwait,
    sameMem_of_frame (execPinRecognition_frame pin cycle s rfl)⟩

/-! ### The enable (R264) -/

/-- The row of EVT_PIN_EN. -/
def pinEnRow : RegRow := ⟨0x100, 1, 4, 0xff, 0, 0, 0, [0]⟩

theorem regRow_pinEn : regRow? (Reg.EVT_PIN_EN % 0x100000000) = some (pinEnRow, 0) := by decide +kernel

theorem State.reg_pinEnTakes (s : State) (old j : Nat) : (s.pinEnTakes old).reg j = s.reg j := by
  refine List.foldlRecOn (motive := fun t : State => t.reg j = s.reg j) _ _ rfl fun t ht k _ => ?_
  split
  · exact ht
  · split
    · exact ht
    · exact ht

theorem State.reg_pinEnWrite (s : State) (v : Word) (k : Nat) :
    (s.pinEnWrite v).reg k =
      if k = Reg.EVT_PIN_EN then takeBits (s.reg Reg.EVT_PIN_EN) v (BitVec.ofNat 32 0xff) else s.reg k := by
  rw [pinEnWrite, reg_pinEnTakes]
  exact s.reg_storeReg v regRow_pinEn (by decide) k

theorem evtPinEnWrite_takes (m : Fin 8) (v : Word) (cycle : Nat) (s : State)
    (hacc : (s.atCycle cycle).accepts m Reg.EVT_PIN_EN v = true) :
    Completes (.evtPinEnWrite m v cycle) s fun t => t.fld Reg.EVT_PIN_EN 0 8 = fld v 0 8 ∧ SameMem s t ∧
      SameRegs s t [Reg.EVT_PIN_EN] := by
  refine ⟨_, rfl, ?_, sameMem_of_frame (execEvtPinEnWrite_frame m v cycle s rfl), fun k hk => ?_⟩
  · rw [State.fld_gateWrite _ _ hacc, State.fld, State.reg_pinEnWrite, if_pos rfl, fld_takeBits _ _ (by decide)]
  · rw [State.reg_gateWrite _ _ hacc, State.reg_pinEnWrite, if_neg (by simpa using hk)]
    rfl

/-! ### STUCK (R267) -/

theorem State.stuckDetect_pin {s : State} {i : Nat} (hi : i < 8) (hdue : s.stuckDue (s.pin i).on (s.pin i).since = true)
    (hclear : s.bit Reg.EVT_PIN_STAT (16 + i) = false) :
    s.stuckDetect i = (s.setBit Reg.EVT_PIN_STAT (16 + i) true).raise pEVT 3 := by
  unfold stuckDetect
  rw [if_pos hi]
  dsimp only
  rw [hdue, hclear]
  rfl

theorem State.stuckDetect_lol {s : State} {i : Nat} (hi : 8 ≤ i)
    (hdue : s.stuckDue (s.lol (i - 8)).on (s.lol (i - 8)).since = true)
    (hclear : s.bit (Reg.EVT_LOL_STUCK + 4 * ((i - 8) / 32)) ((i - 8) % 32) = false) :
    s.stuckDetect i = (s.setBit (Reg.EVT_LOL_STUCK + 4 * ((i - 8) / 32)) ((i - 8) % 32) true).raise pEVT 3 := by
  unfold stuckDetect
  rw [if_neg (Nat.not_lt.2 hi)]
  dsimp only
  rw [hdue, hclear]
  rfl

/-- A bit that is set together with an event of its page reads 1. -/
theorem State.bit_raise_setBit (s : State) (page : Nat) {i k j : Nat} (hi : i < 32) (hj : j < 32) :
    ((s.setBit k j true).raise page i).bit k j = true :=
  bit_raise_keeps _ page hi ((s.bit_setBit _ _ _ hj).trans (if_pos ⟨rfl, rfl⟩))

theorem stuckDetect_pin_sets (i : Fin 1032) (s : State) (hi : i.val < 8)
    (hdue : s.stuckDue (s.pin i).on (s.pin i).since = true) (hclear : s.bit Reg.EVT_PIN_STAT (16 + i) = false) :
    Completes (.stuckDetect i) s fun t => t.bit Reg.EVT_PIN_STAT (16 + i) = true ∧
      t.bit (cReg pEVT OFF_INT_STAT) 3 = true ∧ SameMem s t ∧ SameRegs s t (Reg.EVT_PIN_STAT :: raiseKeys pEVT) := by
  have hmem := sameMem_of_frame (execStuckDetect_frame i s rfl)
  rw [State.stuckDetect_pin hi hdue hclear] at hmem
  refine ⟨_, congrArg Host.Outcome.next (State.stuckDetect_pin hi hdue hclear),
    State.bit_raise_setBit _ _ (by decide) (by omega), State.bit_raise _ _ (by decide), hmem, fun k hk => ?_⟩
  obtain ⟨hstat, hraise⟩ := not_or.1 (mt List.mem_cons.2 hk)
  rw [State.reg_raise _ hraise, State.reg_setBit, if_neg hstat]

theorem stuckDetect_lol_sets (i : Fin 1032) (s : State) (hi : 8 ≤ i.val)
    (hdue : s.stuckDue (s.lol (i.val - 8)).on (s.lol (i.val - 8)).since = true)
    (hclear : s.bit (Reg.EVT_LOL_STUCK + 4 * ((i.val - 8) / 32)) ((i.val - 8) % 32) = false) :
    Completes (.stuckDetect i) s fun t => t.bit (Reg.EVT_LOL_STUCK + 4 * ((i.val - 8) / 32)) ((i.val - 8) % 32) = true ∧
      t.bit (cReg pEVT OFF_INT_STAT) 3 = true ∧ SameMem s t := by
  have hmem := sameMem_of_frame (execStuckDetect_frame i s rfl)
  rw [State.stuckDetect_lol hi hdue hclear] at hmem
  exact ⟨_, congrArg Host.Outcome.next (State.stuckDetect_lol hi hdue hclear),
    State.bit_raise_setBit _ _ (by decide) (Nat.mod_lt _ (by decide)), State.bit_raise _ _ (by decide), hmem⟩

/-! ### CHATTER cleared (R266) -/

theorem testBit_foldl_or (l : List Nat) (m i : Nat) :
    (l.foldl (fun m i => m ||| (1 <<< i)) m).testBit i = (m.testBit i || decide (i ∈ l)) := by
  induction l generalizing m with
  | nil => simp
  | cons a l ih =>
    rw [List.foldl_cons, ih, Nat.testBit_or, Nat.one_shiftLeft, Nat.testBit_two_pow, Bool.or_assoc, ← Bool.decide_or]
    simp only [List.mem_cons, eq_comm]

theorem testBit_maskOf (l : List Nat) (i : Nat) : (maskOf l).testBit i = decide (i ∈ l) := by
  rw [maskOf, testBit_foldl_or, Nat.zero_testBit, Bool.false_or]

/-- A W1C bit whose condition does not persist clears where it is written as 1, and stays otherwise (R445). -/
theorem State.bit_clearBits (s : State) {key w1c persist i : Nat} (v : Word)
    (hkey : key ≠ cReg (pageOf (key % 0x100000000)) OFF_PAGE_STAT) (hi : i < 32) (hw1c : w1c.testBit i = true)
    (hgone : persist.testBit i = false) : (s.clearBits key v w1c persist).bit key i = (s.bit key i && !bitOf v i) := by
  have hreg : (s.clearBits key v w1c persist).reg key =
      s.reg key &&& ~~~((v &&& BitVec.ofNat 32 w1c) &&& ~~~(s.reg key &&& (v &&& BitVec.ofNat 32 w1c) &&&
        BitVec.ofNat 32 persist)) := by
    unfold clearBits
    dsimp only
    split
    · rw [reg_setReg, if_pos rfl]
    · rw [reg_setBit, if_neg hkey, reg_setReg, if_pos rfl]
  have hmask (n : Nat) : (BitVec.ofNat 32 n)[i] = n.testBit i := (BitVec.getLsbD_eq_getElem hi).symm.trans (bitOf_ofNat hi)
  rw [bit, hreg]
  change BitVec.getLsbD _ i = ((s.reg key).getLsbD i && !v.getLsbD i)
  simp [hi, hmask, hw1c, hgone]

/-- Of the bits of EVT_PIN_STAT, those of CHATTER have no condition that persists. -/
theorem State.testBit_evtPersist_chatter (s : State) {i : Nat} (hi : i < 16) :
    (s.evtPersist Reg.EVT_PIN_STAT).testBit i = false := by
  rw [evtPersist, if_pos rfl, testBit_maskOf, decide_eq_false_iff_not, List.mem_map]
  rintro ⟨j, -, hj⟩
  omega

theorem State.evtPersist_lolChatter (s : State) {n : Nat} (hn : n < 32) : s.evtPersist (Reg.EVT_LOL_CHATTER + 4 * n) = 0 := by
  rw [evtPersist, if_neg, if_neg]
  · change ¬ (0x0400B300 ≤ 0x0400B280 + 4 * n ∧ _)
    omega
  · change 0x0400B280 + 4 * n ≠ 0x0400B10C
    omega

theorem chatterClear_pins (m : Fin 8) (v : Word) (s : State) (hacc : s.accepts m Reg.EVT_PIN_STAT v = true) :
    Completes (.chatterClear m 0 v) s fun t => (∀ k, k < 8 → t.bit Reg.EVT_PIN_STAT (8 + k) =
      (s.bit Reg.EVT_PIN_STAT (8 + k) && !bitOf v (8 + k))) ∧ SameMem s t := by
  refine ⟨_, rfl, fun k hk => ?_, sameMem_of_frame (execChatterClear_frame m 0 v s rfl)⟩
  have hw1c : ∀ j < 8, Nat.testBit 0xFFFF00 (8 + j) = true := by decide
  refine (State.bit_gateWrite _ _ hacc ..).trans ?_
  exact State.bit_clearBits _ v (by decide) (by omega) (hw1c k hk) (State.testBit_evtPersist_chatter _ (by omega))

theorem chatterClear_lols (m : Fin 8) (word : Fin 33) (v : Word) (s : State) (hword : word.val ≠ 0)
    (hacc : s.accepts m (Reg.EVT_LOL_CHATTER + 4 * (word.val - 1)) v = true) :
    Completes (.chatterClear m word v) s fun t => (∀ k, k < 32 → t.bit (Reg.EVT_LOL_CHATTER + 4 * (word.val - 1)) k =
      (s.bit (Reg.EVT_LOL_CHATTER + 4 * (word.val - 1)) k && !bitOf v k)) ∧ SameMem s t := by
  have hn : word.val - 1 < 32 := by omega
  have hw1c : ∀ j < 32, Nat.testBit 0xFFFFFFFF j = true := by decide
  have hplace : ∀ n < 32, Reg.EVT_LOL_CHATTER + 4 * n ≠ Reg.EVT_PIN_STAT ∧
      Reg.EVT_LOL_CHATTER + 4 * n ≠ cReg (pageOf ((Reg.EVT_LOL_CHATTER + 4 * n) % 0x100000000)) OFF_PAGE_STAT := by decide
  obtain ⟨hpins, hstat⟩ := hplace _ hn
  have hexec : exec (.chatterClear m word v) s = .next (s.gateWrite m (Reg.EVT_LOL_CHATTER + 4 * (word.val - 1)) v fun s =>
      s.evtClear (Reg.EVT_LOL_CHATTER + 4 * (word.val - 1)) v) := by
    change execChatterClear m word v s = _
    rw [execChatterClear, if_neg hword]
  refine ⟨_, hexec, fun k hk => ?_, sameMem_of_frame (execChatterClear_frame m word v s hexec)⟩
  rw [State.bit_gateWrite _ _ hacc, State.evtClear, if_neg hpins, State.evtPersist_lolChatter _ hn]
  exact State.bit_clearBits _ v hstat hk (hw1c k hk) (Nat.zero_testBit k)

/-- Settles O27, clause by clause. -/
theorem triggerInputCommandsComplete : Obligations.TriggerInputCommandsComplete := by
  unfold Obligations.TriggerInputCommandsComplete
  exact ⟨trigInEdge_takes, stuckDetect_pin_sets, stuckDetect_lol_sets, evtPinEnWrite_takes, chatterClear_pins,
    chatterClear_lols, pinRecognition_recognises⟩

end Sys2Proof.Machine
end

section
/-! PROOFS. The shadow bank of the protection cases: its check and its pair words; the commands FORCE and CLEAR; and the timer of a
case (R255, R257, R262, R272). -/

namespace Sys2Proof.Machine

/-! ### The check (R255) -/

theorem protectionCheck_begins (m : Fin 8) (s : State) (hacc : s.accepts m Reg.PRT_CTRL 1 = true) :
    Completes (.protectionCheck m) s fun t => t.bit Reg.PRT_STAT 1 = true ∧ SameMem s t ∧ SameRegs s t [Reg.PRT_STAT] := by
  refine ⟨_, rfl, ?_, sameMem_of_frame (execProtectionCheck_frame m s rfl), fun k hk => ?_⟩
  · rw [State.bit_gateWrite _ _ hacc, State.prtStartCheck, State.bit_setBit _ _ _ _ (by decide), if_pos ⟨rfl, rfl⟩]
  · rw [State.reg_gateWrite _ _ hacc, State.prtStartCheck, State.reg_setBit, if_neg (by simpa using hk), State.reg_respond]

/-- CHECKED as a result with a code leaves it: with code 0 the bank's records are held and its overlaps kept, else none are held. -/
def State.prtTakeChecked (s : State) (b : PrtBank) (code : Nat) : State :=
  if code = 0 then
    { s with prt := { s.prt with
        held := uniq (b.armedCases.flatMap b.recsOf), shd := { b with overlaps := s.overlapPairs b } } }.setBit Reg.PRT_STAT 0 true
  else s.prtUncheck

theorem State.reg_prtTakeChecked (s : State) (b : PrtBank) (code k : Nat) :
    (s.prtTakeChecked b code).reg k = (s.setBit Reg.PRT_STAT 0 (code == 0)).reg k := by
  unfold prtTakeChecked
  split
  case isTrue hcode =>
    subst hcode
    rfl
  case isFalse hcode =>
    rw [beq_eq_false_iff_ne.2 hcode]
    rfl

/-- A check of the protection bank that has ended, before CHECKED shows it. -/
def State.prtResultShown (s : State) : State :=
  (s.setBit Reg.PRT_STAT 1 false).setRegN Reg.PRT_RES
    ((s.prtCheck s.prt.shd).1 + 256 * (s.prtCheck s.prt.shd).2.2 + 65536 * (s.prtCheck s.prt.shd).2.1)

theorem State.prtCheckDone_of_busy {s : State} (hbusy : s.bit Reg.PRT_STAT 1 = true) :
    s.prtCheckDone = (s.prtResultShown.prtTakeChecked s.prt.shd (s.prtCheck s.prt.shd).1).raise pPRT 4 :=
  if_neg (by simp [hbusy])

theorem protectionCheckDone_ends (s : State) (hbusy : s.bit Reg.PRT_STAT 1 = true) :
    Completes .protectionCheckDone s fun t => t.bit Reg.PRT_STAT 1 = false ∧
      t.bit Reg.PRT_STAT 0 = ((s.prtCheck s.prt.shd).1 == 0) ∧ t.bit (cReg pPRT OFF_INT_STAT) 4 = true ∧
      t.reg Reg.PRT_RES = BitVec.ofNat 32 ((s.prtCheck s.prt.shd).1 + 256 * (s.prtCheck s.prt.shd).2.2
        + 65536 * (s.prtCheck s.prt.shd).2.1) ∧ SameMem s t ∧
      SameRegs s t (Reg.PRT_STAT :: Reg.PRT_RES :: raiseKeys pPRT) := by
  have hmem := sameMem_of_frame s.prtCheckDone_frame
  obtain ⟨hidle, hchecked, hres, hregs⟩ := s.bankChecked_raise (page := pPRT) (stat := Reg.PRT_STAT) (res := Reg.PRT_RES)
    (busy := 1) (checked := 0) (s.prtCheck s.prt.shd) (by decide) (by decide) (by decide) (by decide) (by decide) (by decide) 4
    (s.prtResultShown.reg_prtTakeChecked s.prt.shd _)
  refine ⟨s.prtCheckDone, rfl, ?_⟩
  rw [State.prtCheckDone_of_busy hbusy] at hmem ⊢
  exact ⟨hidle, hchecked, State.bit_raise _ pPRT (by decide), hres, hmem, hregs⟩

/-! ### Pair words (R272) -/

/-- A word of the shadow bank that may be written takes the word at the index; the index steps on, and CHECKED clears. -/
theorem State.prtSubWrite_writes {s : State} (m : Nat) (v : Word) (hfree : s.prtShadowBusy = false) :
    (s.prtSubWrite m v).prt.shd.pairs = Sparse.put 0 (s.fld Reg.PRT_SUB_IDX 0 14) v.toNat s.prt.shd.pairs ∧
      (s.prtSubWrite m v).fld Reg.PRT_SUB_IDX 0 14 = (s.fld Reg.PRT_SUB_IDX 0 14 + 1) % 16384 ∧
      (s.prtSubWrite m v).bit Reg.PRT_STAT 0 = false ∧
      SameRegs s (s.prtSubWrite m v) [Reg.PRT_SUB_IDX, Reg.PRT_STAT] := by
  unfold prtSubWrite
  rw [if_neg (by simp [hfree])]
  dsimp only
  refine ⟨rfl, fld_setRegN_index _ _ 14 (by decide) rfl, ?_, fun k hk => ?_⟩
  · rw [bit_of_reg ((reg_setRegN ..).trans (if_neg (by decide))), prtUncheck, bit_setBit _ _ _ _ (by decide), if_pos ⟨rfl, rfl⟩]
  · simp only [List.mem_cons, List.not_mem_nil, or_false, not_or] at hk
    obtain ⟨hidx, hstat⟩ := hk
    rw [reg_setRegN, if_neg hidx, prtUncheck, reg_setBit, if_neg hstat]
    rfl

theorem prtSubDataWrite_writes (m : Fin 8) (v : Word) (s : State) (hacc : s.accepts m Reg.PRT_SUB_DATA v = true)
    (hfree : s.prtShadowBusy = false) :
    Completes (.prtSubDataWrite m v) s fun t =>
      Sparse.get 0 (s.fld Reg.PRT_SUB_IDX 0 14) t.prt.shd.pairs = v.toNat ∧
      (∀ i, i ≠ s.fld Reg.PRT_SUB_IDX 0 14 → Sparse.get 0 i t.prt.shd.pairs = Sparse.get 0 i s.prt.shd.pairs) ∧
      t.fld Reg.PRT_SUB_IDX 0 14 = (s.fld Reg.PRT_SUB_IDX 0 14 + 1) % 16384 ∧ t.bit Reg.PRT_STAT 0 = false ∧ SameMem s t ∧
      SameRegs s t [Reg.PRT_SUB_IDX, Reg.PRT_STAT] := by
  obtain ⟨hpairs, hidx, hchecked, hregs⟩ :=
    State.prtSubWrite_writes (s := s.respond m true Reg.PRT_SUB_DATA .ok 0) m v hfree
  refine ⟨_, rfl, ?_, fun i hi => ?_, ?_, ?_, sameMem_of_frame (execPrtSubDataWrite_frame m v s rfl), fun k hk => ?_⟩
  · rw [State.gateWrite_prt _ _ hacc, hpairs]
    exact Sparse.get_put_same ..
  · rw [State.gateWrite_prt _ _ hacc, hpairs]
    exact Sparse.get_put_other _ _ _ hi _
  · rw [State.fld_gateWrite _ _ hacc]
    exact hidx
  · rw [State.bit_gateWrite _ _ hacc, hchecked]
  · rw [State.reg_gateWrite _ _ hacc]
    exact hregs k hk

theorem State.readWord_prtSubaData (s : State) :
    s.readWord Reg.PRT_SUBA_DATA = BitVec.ofNat 32 (Sparse.get 0 (s.fld Reg.PRT_SUBA_IDX 0 14) s.prt.act.pairs) := rfl

theorem prtSubaDataRead_advances (m : Fin 8) (s : State) (hacc : s.acceptsRead m Reg.PRT_SUBA_DATA = true) :
    Completes (.prtSubaDataRead m) s fun t => t.bus.last.status = .ok ∧
      t.bus.last.data = BitVec.ofNat 32 (Sparse.get 0 (s.fld Reg.PRT_SUBA_IDX 0 14) s.prt.act.pairs) ∧
      t.fld Reg.PRT_SUBA_IDX 0 14 = (s.fld Reg.PRT_SUBA_IDX 0 14 + 1) % 16384 ∧ SameMem s t := by
  have hread := State.busRead_of_acceptsRead hacc (by decide +kernel) (by decide)
  dsimp only at hread
  rw [if_pos rfl, if_neg (by decide)] at hread
  refine ⟨_, rfl, ?_, ?_, ?_, sameMem_of_frame (execPrtSubaDataRead_frame m s rfl)⟩
  · rw [hread]
    rfl
  · rw [hread]
    exact s.readWord_prtSubaData
  · rw [hread]
    exact State.fld_setRegN_index _ _ 14 (by decide) rfl

/-! ### FORCE and CLEAR (R262) -/

theorem State.reg_closeIfPast (s : State) (k : Nat) : s.closeIfPast.reg k = s.reg k := by
  obtain ⟨hregs, -, -, -⟩ := s.closeIfPast_keeps
  rw [reg, reg, hregs]

theorem State.caseRun_closeIfPast (s : State) (c : Nat) : s.closeIfPast.caseRun c = s.caseRun c := by
  obtain ⟨-, -, -, hruns⟩ := s.closeIfPast_keeps
  rw [caseRun, caseRun, hruns]

theorem State.prtCmdRes_closeIfPast (s : State) (c op : Nat) : s.closeIfPast.prtCmdRes c op = s.prtCmdRes c op := by
  rw [prtCmdRes, prtCmdRes, caseRun_closeIfPast, roleActs, roleActs, role, role, fld_of_reg (reg_closeIfPast ..)]

/-- A command with the outcome OK joins the queue, and its outcome is the one register that changes. -/
theorem State.prtCmd_queues {s : State} {v : Word} (hok : s.prtCmdRes (Machine.fld v 16 8) (Machine.fld v 0 4) = 0) :
    (s.prtCmd v).prt.cmds = s.closeIfPast.prt.cmds ++ [(Machine.fld v 16 8, Machine.fld v 0 4)] ∧
      ∀ k, (s.prtCmd v).reg k = if k = Reg.PRT_CMD_RES then 0 else s.reg k := by
  unfold prtCmd
  dsimp only
  rw [prtCmdRes_closeIfPast, hok, if_pos rfl]
  refine ⟨rfl, fun k => ?_⟩
  rw [← reg_closeIfPast s k]
  exact reg_setRegN ..

/-- CASE and OP of a word of PRT_CMD. -/
theorem fld_prtCmd (c : Fin 256) {op : Nat} (hop : op < 16) :
    fld (BitVec.ofNat 32 (65536 * c.val + op)) 16 8 = c ∧ fld (BitVec.ofNat 32 (65536 * c.val + op)) 0 4 = op := by
  have hc := c.isLt
  refine ⟨(fld_ofNat (by decide)).trans ?_, (fld_ofNat (by decide)).trans ?_⟩
  · rw [bits, Nat.shiftRight_eq_div_pow]
    omega
  · rw [bits, Nat.shiftRight_zero]
    omega

/-- An accepted write of PRT_CMD whose command has the outcome OK. -/
theorem State.gateWrite_prtCmd {s : State} {m : Nat} {c : Fin 256} {op : Nat} (hop : op < 16)
    (hacc : s.accepts m Reg.PRT_CMD (BitVec.ofNat 32 (65536 * c.val + op)) = true) (hok : s.prtCmdRes c op = 0) {t : State}
    (ht : t = s.gateWrite m Reg.PRT_CMD (BitVec.ofNat 32 (65536 * c.val + op)) fun s =>
      s.prtCmd (BitVec.ofNat 32 (65536 * c.val + op))) :
    (c.val, op) ∈ t.prt.cmds ∧ t.reg Reg.PRT_CMD_RES = 0 ∧ SameRegs s t [Reg.PRT_CMD_RES] := by
  obtain ⟨hcase, hopF⟩ := fld_prtCmd c hop
  obtain ⟨hcmds, hreg⟩ := prtCmd_queues (s := s.respond m true Reg.PRT_CMD .ok 0)
    (v := BitVec.ofNat 32 (65536 * c.val + op)) (by rw [hcase, hopF]; exact hok)
  subst ht
  refine ⟨?_, ?_, fun k hk => ?_⟩
  · rw [gateWrite_prt _ _ hacc, hcmds, hcase, hopF]
    exact List.mem_append_right _ (List.mem_singleton.2 rfl)
  · rw [reg_gateWrite _ _ hacc, hreg, if_pos rfl]
  · rw [reg_gateWrite _ _ hacc, hreg, if_neg (by simpa using hk)]
    rfl

theorem force_queues (m : Fin 8) (c : Fin 256) (cycle : Nat) (s : State)
    (hacc : (s.atCycle cycle).accepts m Reg.PRT_CMD (BitVec.ofNat 32 (65536 * c.val + 1)) = true) (hok : s.prtCmdRes c 1 = 0) :
    Completes (.force m c cycle) s fun t => (c.val, 1) ∈ t.prt.cmds ∧ t.reg Reg.PRT_CMD_RES = 0 ∧ SameMem s t ∧
      SameRegs s t [Reg.PRT_CMD_RES] := by
  obtain ⟨hcmds, hres, hregs⟩ := State.gateWrite_prtCmd (by decide) hacc hok rfl
  exact ⟨_, rfl, hcmds, hres, sameMem_of_frame (execForce_frame m c cycle s rfl), hregs⟩

theorem clear_queues (m : Fin 8) (c : Fin 256) (cycle : Nat) (s : State)
    (hacc : (s.atCycle cycle).accepts m Reg.PRT_CMD (BitVec.ofNat 32 (65536 * c.val + 2)) = true) (hok : s.prtCmdRes c 2 = 0) :
    Completes (.clear m c cycle) s fun t => (c.val, 2) ∈ t.prt.cmds ∧ t.reg Reg.PRT_CMD_RES = 0 ∧ SameMem s t ∧
      SameRegs s t [Reg.PRT_CMD_RES] := by
  obtain ⟨hcmds, hres, hregs⟩ := State.gateWrite_prtCmd (by decide) hacc hok rfl
  exact ⟨_, rfl, hcmds, hres, sameMem_of_frame (execClear_frame m c cycle s rfl), hregs⟩

/-! ### The timer of a case (R257) -/

theorem State.caseRun_setCase_same (s : State) (c : Nat) (f : CaseRun → CaseRun) : (s.setCase c f).caseRun c = f (s.caseRun c) :=
  Sparse.get_put_same ..

theorem State.caseRun_setCase_other (s : State) {c d : Nat} (f : CaseRun → CaseRun) (h : d ≠ c) :
    (s.setCase c f).caseRun d = s.caseRun d :=
  Sparse.get_put_other _ _ _ h _

theorem wtrExpiry_falls_due (c : Fin 256) (s : State) (hwaits : (s.caseRun c).state = 4)
    (hend : (s.caseRun c).wtrEnd.toNat ≤ s.now.toNat) :
    Completes (.wtrExpiry c) s fun t => (t.caseRun c).due = true ∧ (∀ d, d ≠ c.val → t.caseRun d = s.caseRun d) ∧ SameMem s t ∧
      SameRegs s t [] := by
  have hexec : exec (.wtrExpiry c) s = .next (s.setCase c fun x => { x with due := true }) :=
    congrArg Host.Outcome.next (if_pos ⟨hwaits, hend⟩)
  refine ⟨_, hexec, ?_, fun d hd => State.caseRun_setCase_other _ _ hd, sameMem_of_frame (execWtrExpiry_frame c s hexec),
    fun _ _ => rfl⟩
  rw [State.caseRun_setCase_same]

/-- Settles O28, clause by clause. -/
theorem protectionCommandsComplete : Obligations.ProtectionCommandsComplete := by
  unfold Obligations.ProtectionCommandsComplete
  exact ⟨protectionCheck_begins, protectionCheckDone_ends, prtSubDataWrite_writes, prtSubaDataRead_advances, force_queues,
    clear_queues, wtrExpiry_falls_due⟩

end Sys2Proof.Machine
end

section
/-! PROOFS. A step takes the command at the front of the queue (R474), keeps what is well kept, and a well-formed command always
answers a next state. -/

namespace Sys2Proof.Machine

/-- A command leaves the queue as it is, and memory in canonical form where it was. -/
def State.Kept (s t : State) : Prop := t.pending = s.pending ∧ (Memory.wf s.mem = true → Memory.wf t.mem = true)

theorem State.Kept.of_sameMem {s t : State} (hframe : t.pending = s.pending ∧ t.tck.now = s.tck.now ∧ t.mem = s.mem) :
    s.Kept t := by
  obtain ⟨hpend, -, hmem⟩ := hframe
  exact ⟨hpend, fun hwf => hmem.symm ▸ hwf⟩

theorem State.Kept.of_sameTick {s t : State}
    (hframe : t.pending = s.pending ∧ t.tck.now = s.tck.now ∧ (Memory.wf s.mem = true → Memory.wf t.mem = true)) : s.Kept t := by
  obtain ⟨hpend, -, hmem⟩ := hframe
  exact ⟨hpend, hmem⟩

/-- Every command keeps the queue and the canonical form of memory: the frame law of its meaning says so. -/
theorem exec_kept {c : Instr} {s t : State} (h : exec c s = .next t) : s.Kept t := by
  cases c with
  | tickBoundary => exact execTickBoundary_frame s h
  | triggerCutoff => exact .of_sameMem (execTriggerCutoff_frame s h)
  | computeWindowOpen lanes mirror => exact .of_sameTick (execComputeWindowOpen_frame lanes mirror s h)
  | losEvaluation => exact .of_sameMem (execLosEvaluation_frame s h)
  | composeState stalls => exact .of_sameMem (execComposeState_frame stalls s h)
  | windowClose faults corr => exact .of_sameTick (execWindowClose_frame faults corr s h)
  | engineRetire e => exact .of_sameMem (execEngineRetire_frame e s h)
  | ringmasterStart m cycle alt => exact .of_sameMem (execRingmasterStart_frame m cycle alt s h)
  | ringmasterStop m alt => exact .of_sameMem (execRingmasterStop_frame m alt s h)
  | tckCommit m cycle => exact .of_sameMem (execTckCommit_frame m cycle s h)
  | commitCancel m page cycle => exact .of_sameMem (execCommitCancel_frame m page cycle s h)
  | markerTx port ofs => exact .of_sameMem (execMarkerTx_frame port ofs s h)
  | alignTx place => exact .of_sameMem (execAlignTx_frame place s h)
  | upstreamFrame port fecOk content => exact .of_sameMem (execUpstreamFrame_frame port fecOk content s h)
  | alignRx port lane inPlace skew => exact .of_sameMem (execAlignRx_frame port lane inPlace skew s h)
  | alignMissing port lane => exact .of_sameMem (execAlignMissing_frame port lane s h)
  | reservedControlBlock got => exact .of_sameMem (execReservedControlBlock_frame got s h)
  | pmdTrainDone port lanes => exact .of_sameMem (execPmdTrainDone_frame port lanes s h)
  | discover port id efe proto layout te hold => exact .of_sameMem (execDiscover_frame port id efe proto layout te hold s h)
  | echoRsp port seq rtt => exact .of_sameMem (execEchoRsp_frame port seq rtt s h)
  | trainTimeout port signal => exact .of_sameMem (execTrainTimeout_frame port signal s h)
  | trainRetry port => exact .of_sameMem (execTrainRetry_frame port s h)
  | laneRetire port lane => exact .of_sameMem (execLaneRetire_frame port lane s h)
  | laneRestore m port lanes => exact .of_sameMem (execLaneRestore_frame m port lanes s h)
  | retrain m port => exact .of_sameMem (execRetrain_frame m port s h)
  | echo m port => exact .of_sameMem (execEcho_frame m port s h)
  | laneEnWrite m port en => exact .of_sameMem (execLaneEnWrite_frame m port en s h)
  | loadDesc m => exact .of_sameMem (execLoadDesc_frame m s h)
  | descLoadDone data busAt => exact .of_sameTick (execDescLoadDone_frame data busAt s h)
  | loadImage m => exact .of_sameMem (execLoadImage_frame m s h)
  | abortImage m data got => exact .of_sameTick (execAbortImage_frame m data got s h)
  | imageLoadDone data busAt => exact .of_sameTick (execImageLoadDone_frame data busAt s h)
  | applyGo m cycle => exact .of_sameMem (execApplyGo_frame m cycle s h)
  | stagingDone => exact .of_sameMem (execStagingDone_frame s h)
  | applyCancelAll m => exact .of_sameMem (execApplyCancelAll_frame m s h)
  | armSafety m => exact .of_sameMem (execArmSafety_frame m s h)
  | safeNow m cycle => exact .of_sameMem (execSafeNow_frame m cycle s h)
  | safeExit m => exact .of_sameMem (execSafeExit_frame m s h)
  | stateStoreWrite m off data => exact .of_sameTick (execStateStoreWrite_frame m off data s h)
  | contextEntryWrite m off data => exact .of_sameTick (execContextEntryWrite_frame m off data s h)
  | profileShadowWrite m off data => exact .of_sameTick (execProfileShadowWrite_frame m off data s h)
  | placementShadowWrite m off data => exact .of_sameTick (execPlacementShadowWrite_frame m off data s h)
  | loopContextWrite m off data => exact .of_sameTick (execLoopContextWrite_frame m off data s h)
  | profileBankSwap m cycle => exact .of_sameMem (execProfileBankSwap_frame m cycle s h)
  | copyBackDone => exact .of_sameTick (execCopyBackDone_frame s h)
  | nop m arg cycle => exact .of_sameMem (execNop_frame m arg cycle s h)
  | setState m arg cycle => exact .of_sameMem (execSetState_frame m arg cycle s h)
  | freeze m arg cycle => exact .of_sameMem (execFreeze_frame m arg cycle s h)
  | release m arg cycle => exact .of_sameMem (execRelease_frame m arg cycle s h)
  | setProfA m arg cycle => exact .of_sameMem (execSetProfA_frame m arg cycle s h)
  | setProfB m arg cycle => exact .of_sameMem (execSetProfB_frame m arg cycle s h)
  | setParkA m arg cycle => exact .of_sameMem (execSetParkA_frame m arg cycle s h)
  | setParkB m arg cycle => exact .of_sameMem (execSetParkB_frame m arg cycle s h)
  | setTarget m arg cycle => exact .of_sameMem (execSetTarget_frame m arg cycle s h)
  | clearFlags m arg cycle => exact .of_sameMem (execClearFlags_frame m arg cycle s h)
  | loopRetire l => exact .of_sameMem (execLoopRetire_frame l s h)
  | placementCheck m auto => exact .of_sameMem (execPlacementCheck_frame m auto s h)
  | placementCheckDone => exact .of_sameMem (execPlacementCheckDone_frame s h)
  | lplCommit m cycle => exact .of_sameMem (execLplCommit_frame m cycle s h)
  | repack m auto => exact .of_sameMem (execRepack_frame m auto s h)
  | repackDone => exact .of_sameTick (execRepackDone_frame s h)
  | lenRetire m e => exact .of_sameMem (execLenRetire_frame m e s h)
  | rsvSubmit m slot => exact .of_sameMem (execRsvSubmit_frame m slot s h)
  | jobSlotWrite m slot word v => exact .of_sameMem (execJobSlotWrite_frame m slot word v s h)
  | jobStart => exact .of_sameMem (execJobStart_frame s h)
  | jobResume => exact .of_sameMem (execJobResume_frame s h)
  | jobEnd stage cycles cycle => exact .of_sameTick (execJobEnd_frame stage cycles cycle s h)
  | budgetExhausted cycles cycle => exact .of_sameTick (execBudgetExhausted_frame cycles cycle s h)
  | jobCancel m slot cycles => exact .of_sameTick (execJobCancel_frame m slot cycles s h)
  | jobCancelAll m cycles => exact .of_sameTick (execJobCancelAll_frame m cycles s h)
  | carouselCheck m => exact .of_sameMem (execCarouselCheck_frame m s h)
  | carouselCheckDone => exact .of_sameMem (execCarouselCheckDone_frame s h)
  | start m cycle => exact .of_sameMem (execStart_frame m cycle s h)
  | swap m cycle => exact .of_sameMem (execSwap_frame m cycle s h)
  | stop m cycle => exact .of_sameMem (execStop_frame m cycle s h)
  | carouselSlotChange => exact .of_sameMem (execCarouselSlotChange_frame s h)
  | crsShdDataWrite m v => exact .of_sameMem (execCrsShdDataWrite_frame m v s h)
  | crsActDataRead m => exact .of_sameMem (execCrsActDataRead_frame m s h)
  | protectionCheck m => exact .of_sameMem (execProtectionCheck_frame m s h)
  | protectionCheckDone => exact .of_sameMem (execProtectionCheckDone_frame s h)
  | prtCommit m cycle => exact .of_sameMem (execPrtCommit_frame m cycle s h)
  | prtSubDataWrite m v => exact .of_sameMem (execPrtSubDataWrite_frame m v s h)
  | prtSubaDataRead m => exact .of_sameMem (execPrtSubaDataRead_frame m s h)
  | force m case cycle => exact .of_sameMem (execForce_frame m case cycle s h)
  | clear m case cycle => exact .of_sameMem (execClear_frame m case cycle s h)
  | wtrExpiry case => exact .of_sameMem (execWtrExpiry_frame case s h)
  | trigInEdge pin level cycle => exact .of_sameMem (execTrigInEdge_frame pin level cycle s h)
  | pinRecognition pin cycle => exact .of_sameMem (execPinRecognition_frame pin cycle s h)
  | stuckDetect input => exact .of_sameMem (execStuckDetect_frame input s h)
  | evtPinEnWrite m v cycle => exact .of_sameMem (execEvtPinEnWrite_frame m v cycle s h)
  | chatterClear m word v => exact .of_sameMem (execChatterClear_frame m word v s h)
  | meaWindowEnd => exact .of_sameMem (execMeaWindowEnd_frame s h)
  | meaWinWrite m v => exact .of_sameMem (execMeaWinWrite_frame m v s h)
  | meaEnWrite m v => exact .of_sameMem (execMeaEnWrite_frame m v s h)
  | calPassStart m => exact .of_sameMem (execCalPassStart_frame m s h)
  | calMeasurementDone => exact .of_sameMem (execCalMeasurementDone_frame s h)
  | calAttemptTimeout => exact .of_sameMem (execCalAttemptTimeout_frame s h)
  | calAbort m => exact .of_sameMem (execCalAbort_frame m s h)
  | calStage m => exact .of_sameMem (execCalStage_frame m s h)
  | calStageDone => exact .of_sameMem (execCalStageDone_frame s h)
  | calStore m => exact .of_sameTick (execCalStore_frame m s h)
  | calStoreDone => exact .of_sameTick (execCalStoreDone_frame s h)
  | calCommit m cycle => exact .of_sameMem (execCalCommit_frame m cycle s h)
  | supFrameRx port frame ago rivals cycle => exact execSupFrameRx_frame port frame ago rivals cycle s h
  | pauseFrame port fcsOk sa quanta cycle => exact execPauseFrame_frame port fcsOk sa quanta cycle s h
  | pauseRepeat port => exact .of_sameMem (execPauseRepeat_frame port s h)
  | learn cycle => exact .of_sameTick (execLearn_frame cycle s h)
  | agingPass => exact .of_sameTick (execAgingPass_frame s h)
  | scrub => exact .of_sameTick (execScrub_frame s h)
  | conflictRecordExpiry cycle => exact .of_sameMem (execConflictRecordExpiry_frame cycle s h)
  | insert m => exact .of_sameMem (execInsert_frame m s h)
  | delete m => exact .of_sameMem (execDelete_frame m s h)
  | lookup m => exact .of_sameMem (execLookup_frame m s h)
  | flushPort m port => exact .of_sameMem (execFlushPort_frame m port s h)
  | flushVid m vid => exact .of_sameMem (execFlushVid_frame m vid s h)
  | flushLearned m => exact .of_sameMem (execFlushLearned_frame m s h)
  | fwdCmdDone => exact .of_sameTick (execFwdCmdDone_frame s h)
  | fwdTableDataWrite m table v => exact .of_sameMem (execFwdTableDataWrite_frame m table v s h)
  | alloc m => exact .of_sameMem (execAlloc_frame m s h)
  | free m handle => exact .of_sameMem (execFree_frame m handle s h)
  | bpmPoolCfgWrite m pool word v => exact .of_sameMem (execBpmPoolCfgWrite_frame m pool word v s h)
  | portInterval cv => exact .of_sameMem (execPortInterval_frame cv s h)
  | portRetire port => exact .of_sameTick (execPortRetire_frame port s h)
  | portRestore m port => exact .of_sameMem (execPortRestore_frame m port s h)
  | linkUp port an => exact .of_sameMem (execLinkUp_frame port an s h)
  | linkDown port sync => exact .of_sameMem (execLinkDown_frame port sync s h)
  | hostTxFrame len port prio vid flags data busOk cycle => exact execHostTxFrame_frame len port prio vid flags data busOk cycle s h
  | resetRings m => exact .of_sameMem (execResetRings_frame m s h)
  | alarmFrame port eth ago payload cycle => exact execAlarmFrame_frame port eth ago payload cycle s h
  | alarmCacheExpiry cycle => exact .of_sameMem (execAlarmCacheExpiry_frame cycle s h)
  | almSend m kind code => exact .of_sameMem (execAlmSend_frame m kind code s h)
  | almInClear m word v => exact .of_sameMem (execAlmInClear_frame m word v s h)
  | openSession port sa tag ago target key nonce mac cycle => exact execOpen_frame port sa tag ago target key nonce mac cycle s h
  | request port sa tag ago session target key seq ops mac cycle => exact execRequest_frame port sa tag ago session target key seq ops mac cycle s h
  | closeSession port sa tag ago session target key seq mac cycle => exact execClose_frame port sa tag ago session target key seq mac cycle s h
  | mgtIdleExpiry cycle => exact .of_sameMem (execMgtIdleExpiry_frame cycle s h)
  | keySlotWrite m slot off data => exact .of_sameTick (execKeySlotWrite_frame m slot off data s h)
  | egressSelect port cycle ahead => exact .of_sameMem (execEgressSelect_frame port cycle ahead s h)
  | gateEntryChange port cycle => exact .of_sameMem (execGateEntryChange_frame port cycle s h)
  | gateCommit m cycle => exact .of_sameMem (execGateCommit_frame m cycle s h)
  | gateCancel m cycle => exact .of_sameMem (execGateCancel_frame m cycle s h)
  | gateListStart port cycle => exact .of_sameMem (execGateListStart_frame port cycle s h)
  | shaperConfigWrite m reg v => exact .of_sameMem (execShaperConfigWrite_frame m reg v s h)
  | wheelSlot => exact .of_sameMem (execWheelSlot_frame s h)
  | polCfgWrite m v => exact .of_sameMem (execPolCfgWrite_frame m v s h)
  | ptpMessage port env ago msg cycle => exact execPtpMessage_frame port env ago msg cycle s h
  | followUp port env ago msg cycle => exact execFollowUp_frame port env ago msg cycle s h
  | delayResp port env ago msg cycle => exact execDelayResp_frame port env ago msg cycle s h
  | tcEntryExpiry cycle => exact .of_sameMem (execTcEntryExpiry_frame cycle s h)
  | ntuRateWrite m v => exact .of_sameMem (execNtuRateWrite_frame m v s h)
  | ntuOffsetWrite m v => exact .of_sameMem (execNtuOffsetWrite_frame m v s h)
  | ntuStepWrite m v => exact .of_sameMem (execNtuStepWrite_frame m v s h)
  | lock m sync => exact .of_sameMem (execLock_frame m sync s h)
  | hold m sync => exact .of_sameMem (execHold_frame m sync s h)
  | ntuFree m sync => exact .of_sameMem (execNtuFree_frame m sync s h)
  | sync m => exact .of_sameMem (execSync_frame m s h)
  | syncWdInterval => exact .of_sameMem (execSyncWdInterval_frame s h)
  | nodeWrite m v => exact .of_sameMem (execNodeWrite_frame m v s h)
  | mpdWrite m port v => exact .of_sameMem (execMpdWrite_frame m port v s h)
  | ppsInEdge cycle => exact .of_sameMem (execPpsInEdge_frame cycle s h)
  | ppsOutRise cycle => exact .of_sameMem (execPpsOutRise_frame cycle s h)
  | ppsOutFall => exact .of_sameMem (execPpsOutFall_frame s h)
  | claimArm m arm solo unsyncedOk => exact .of_sameMem (execClaimArm_frame m arm solo unsyncedOk s h)
  | claimAttempt cycle => exact .of_sameMem (execClaimAttempt_frame cycle s h)
  | claimed cycle => exact .of_sameTick (execClaimed_frame cycle s h)
  | ilkInAssert => exact .of_sameTick (execIlkInAssert_frame s h)
  | ilkInDeassert cycle => exact .of_sameMem (execIlkInDeassert_frame cycle s h)
  | toPair m => exact .of_sameMem (execToPair_frame m s h)
  | interlockRelease m => exact .of_sameMem (execInterlockRelease_frame m s h)
  | heartbeatLoss => exact .of_sameTick (execHeartbeatLoss_frame s h)
  | helloTx => exact .of_sameMem (execHelloTx_frame s h)
  | hello ok frame => exact .of_sameTick (execHello_frame ok frame s h)
  | trig ok frame => exact .of_sameMem (execTrig_frame ok frame s h)
  | digest ok frame cycle => exact .of_sameTick (execDigest_frame ok frame cycle s h)
  | digestDeadline => exact .of_sameTick (execDigestDeadline_frame s h)
  | req ok frame => exact .of_sameMem (execReq_frame ok frame s h)
  | journal ok frame => exact .of_sameTick (execJournal_frame ok frame s h)
  | snap ok frame => exact .of_sameTick (execSnap_frame ok frame s h)
  | catchUp m => exact .of_sameMem (execCatch_frame m s h)
  | catchReq ok frame => exact .of_sameMem (execCatchReq_frame ok frame s h)
  | catchAck ok frame => exact .of_sameTick (execCatchAck_frame ok frame s h)
  | trapezeBulkDone => exact .of_sameTick (execTrapezeBulkDone_frame s h)
  | trapezeCutInstalled => exact .of_sameMem (execTrapezeCutInstalled_frame s h)
  | trapezeLateContext => exact .of_sameMem (execTrapezeLateContext_frame s h)
  | ready ok frame => exact .of_sameMem (execReady_frame ok frame s h)
  | syncAt ok frame => exact .of_sameMem (execSyncAt_frame ok frame s h)
  | result ok frame => exact .of_sameMem (execResult_frame ok frame s h)
  | mirrorAbort ok frame => exact .of_sameMem (execMirrorAbort_frame ok frame s h)
  | abortCatch m => exact .of_sameMem (execAbortCatch_frame m s h)
  | mirrorLinkDown => exact .of_sameMem (execMirrorLinkDown_frame s h)
  | mirrorRetrain m => exact .of_sameMem (execMirrorRetrain_frame m s h)
  | mirrorLaneRestore m lanes => exact .of_sameMem (execMirrorLaneRestore_frame m lanes s h)
  | mirrorLaneEnWrite m en => exact .of_sameMem (execMirrorLaneEnWrite_frame m en s h)
  | uncorrectableEcc region addr x reader => exact .of_sameTick (execUncorrectableEcc_frame region addr x reader s h)
  | linkProbe page inverts => exact .of_sameMem (execLinkProbe_frame page inverts s h)
  | pairEqual page equal => exact .of_sameMem (execPairEqual_frame page equal s h)
  | w1cClear m addr value => exact execW1cClear_frame m addr value s h
  | fltFlush m safetyEn force => exact .of_sameTick (execFltFlush_frame m safetyEn force s h)
  | flushDone => exact execFlushDone_frame s h
  | coldReset m key straps pll clear => exact execColdReset_frame m key straps pll clear s h
  | warmReset m key clear => exact execWarmReset_frame m key clear s h
  | managementReset m key cycle => exact execManagementReset_frame m key cycle s h
  | mgmtResetDone => exact execMgmtResetDone_frame s h
  | resetN ns straps pll clear => exact execResetN_frame ns straps pll clear s h
  | pcieHotReset => exact .of_sameMem (execPcieHotReset_frame s h)
  | functionLevelReset => exact .of_sameMem (execFunctionLevelReset_frame s h)
  | pcieLinkDown => exact .of_sameMem (execPcieLinkDown_frame s h)
  | pciePerst low => exact .of_sameMem (execPciePerst_frame low s h)
  | softReset m page v => exact .of_sameTick (execSrst_frame m page v s h)
  | takeoverOpen m => exact .of_sameMem (execTakeoverOpen_frame m s h)
  | takeoverGo m => exact .of_sameMem (execGo_frame m s h)
  | takeoverAdopt m => exact .of_sameMem (execAdopt_frame m s h)
  | takeoverAbandon m => exact .of_sameMem (execAbandon_frame m s h)
  | registerWrite m addr value en cycle => exact execRegisterWrite_frame m addr value en cycle s h
  | lowWordRead m addr cycle => exact .of_sameMem (execLowWordRead_frame m addr cycle s h)
  | decodeError m write addr => exact execDecodeError_frame m write addr s h
  | burstTruncate m write addr data => exact execBurstTruncate_frame m write addr data s h
  | intForce m page value => exact execIntForce_frame m page value s h
  | msixMessage => exact .of_sameMem (execMsixMessage_frame s h)
  | vectorUnmask m vec => exact execVectorUnmask_frame m vec s h
  | alertResponse => exact .of_sameMem (execAlertResponse_frame s h)
  | remap m remap => exact execRemap_frame m remap s h
  | mramWrite m off data => exact .of_sameTick (execMramWrite_frame m off data s h)
  | smbAddr v pec => exact .of_sameMem (execSmbAddr_frame v pec s h)
  | smbWrite v pec => exact execSmbWrite_frame v pec s h
  | smbRead => exact .of_sameMem (execSmbRead_frame s h)
  | extest => exact .of_sameMem (execExtest_frame s h)
  | idcode => exact .of_sameMem (execIdcode_frame s h)
  | samplePreload => exact .of_sameMem (execSamplePreload_frame s h)
  | clamp => exact .of_sameMem (execClamp_frame s h)
  | highz => exact .of_sameMem (execHighz_frame s h)
  | extestPulse => exact .of_sameMem (execExtestPulse_frame s h)
  | extestTrain => exact .of_sameMem (execExtestTrain_frame s h)
  | bypass => exact .of_sameMem (execBypass_frame s h)
  | memacc write go addr data => exact execMemacc_frame write go addr data s h
  | jtagTrst => exact .of_sameMem (execJtagTrst_frame s h)
  | vinInvalid b mv cycle => exact .of_sameTick (execVinInvalid_frame b mv cycle s h)
  | vinValid b mv cycle => exact .of_sameTick (execVinValid_frame b mv cycle s h)
  | vinReturn cycle => exact .of_sameMem (execVinReturn_frame cycle s h)
  | testBWrite m testB => exact .of_sameMem (execTestBWrite_frame m testB s h)
  | powerOnRestart straps pll clear cool => exact execPowerOnRestart_frame straps pll clear cool s h
  | thermalEvaluation samples => exact .of_sameTick (execThermalEvaluation_frame samples s h)
  | sensorRetire sensor => exact .of_sameMem (execSensorRetire_frame sensor s h)
  | sensorRestore m mask => exact .of_sameMem (execSensorRestore_frame m mask s h)
  | thermalAck m floor => exact .of_sameMem (execAck_frame m floor s h)
  | swFloorWrite m floor => exact .of_sameMem (execSwFloorWrite_frame m floor s h)
  | thmShutWrite m v => exact .of_sameMem (execThmShutWrite_frame m v s h)
  | thermalShutdown analog => exact .of_sameTick (execThermalShutdown_frame analog s h)
  | thermalRestart straps pll clear => exact execThermalRestart_frame straps pll clear s h
  | pllLockLoss cycle => exact .of_sameMem (execPllLockLoss_frame cycle s h)
  | pllRelock us cycle => exact execPllRelock_frame us cycle s h
  | refclkLoss => exact .of_sameMem (execRefclkLoss_frame s h)
  | wdclkLoss => exact .of_sameTick (execWdclkLoss_frame s h)
  | claimedFrame ok frame => exact .of_sameMem (execClaimedFrame_frame ok frame s h)
  | echoReq seq => exact .of_sameMem (execEchoReq_frame seq s h)
  | pauseExpiry port cycle => exact .of_sameMem (execPauseExpiry_frame port cycle s h)
  | remoteFault port present => exact .of_sameMem (execRemoteFault_frame port present s h)
  | pcieLinkChange speed width msixEn maskAll => exact .of_sameMem (execPcieLinkChange_frame speed width msixEn maskAll s h)
  | softResetDone page => exact execSoftResetDone_frame page s h
  | wdclkReturn => exact .of_sameMem (execWdclkReturn_frame s h)
  | refclkReturn => exact .of_sameMem (execRefclkReturn_frame s h)
  | pllUnlocked2ms => exact .of_sameMem (execPllUnlocked2ms_frame s h)

/-- The memories T1 to T6 are neither registers nor unassigned (R467). -/
theorem State.target_of_memoryAddr {s : State} {a : Nat} (h : memoryAddr a = true) :
    (s.target a == 0 || s.target a == 7) = false := by
  simp only [memoryAddr, Bool.or_eq_true, Bool.and_eq_true, decide_eq_true_eq] at h
  unfold target
  grind

/-- An access of the bus that the master can reach is made. -/
theorem accessOf_of_reaches (mnemonic : String) {m a n : Nat} (s : State) (h : masterReaches m a n = true) :
    accessOf mnemonic m a n s = .next s := if_pos h

/-- Bytes that lie in their region are written. -/
theorem State.regionWrite_answers (s : State) (mnemonic : String) (m base : Nat) {size off : Nat} {data : List Byte}
    (h : inRegion size off data = true) : ∃ t, s.regionWrite mnemonic m base size off data = .next t := by
  obtain ⟨hdata, hin⟩ : data ≠ [] ∧ off + data.length ≤ size := by simpa [inRegion] using h
  exact ⟨_, s.regionWrite_of_inside mnemonic m base hdata hin⟩

/-- A truncated burst is taken: whole words to registers and unassigned addresses, any bytes to memory (R484). -/
theorem execBurstTruncate_answers {m : Fin 8} (write : Bool) {addr : Word} {data : List Byte} (s : State)
    (h : (Instr.burstTruncate m write addr data).wellFormed = true) : ∃ t, execBurstTruncate m write addr data s = .next t := by
  simp only [Instr.wellFormed, Bool.and_eq_true, Bool.or_eq_true, beq_iff_eq] at h
  obtain ⟨hform, hreach⟩ := h
  refine ⟨_, if_neg ?_⟩
  rcases hform with hmem | ⟨hlen, haddr⟩
  · simp [State.target_of_memoryAddr hmem, hreach]
  · simp [hlen, haddr, hreach]

/-- MSIX_MESSAGE answers whatever vector waits. -/
theorem execMsixMessage_answers (s : State) : ∃ t, execMsixMessage s = .next t := by
  unfold execMsixMessage
  cases s.bus.intRise with
  | nil => exact ⟨_, rfl⟩
  | cons v rest =>
    dsimp only
    split_ifs <;> exact ⟨_, rfl⟩

/-- A command whose operands can be given answers a next state: its meaning has no other outcome, or it checks what
`Instr.wellFormed` checks. -/
theorem exec_answers {c : Instr} (s : State) (hc : c.wellFormed = true) : ∃ t, exec c s = .next t := by
  cases c with
  | markerTx port ofs => exact ⟨_, if_neg (by simpa [Instr.wellFormed, not_or, Nat.not_lt] using hc)⟩
  | pcieLinkChange speed width msixEn maskAll =>
    refine ⟨_, if_neg ?_⟩
    simp only [Instr.wellFormed, Bool.and_eq_true, bne_iff_ne, ne_eq, Fin.ext_iff] at hc
    obtain ⟨⟨hspeed, hwidth⟩, hthree⟩ := hc
    exact fun h => h.elim hspeed (·.elim hwidth hthree)
  | thermalEvaluation samples => exact ⟨_, if_neg fun h => h (by simpa [Instr.wellFormed] using hc)⟩
  | burstTruncate m write addr data => exact execBurstTruncate_answers write s hc
  | registerWrite m addr value en cycle => exact ⟨_, accessOf_of_reaches _ _ hc⟩
  | lowWordRead m addr cycle => exact ⟨_, accessOf_of_reaches _ _ hc⟩
  | decodeError m write addr => exact ⟨_, accessOf_of_reaches _ _ hc⟩
  | w1cClear m addr value => exact ⟨_, accessOf_of_reaches _ _ hc⟩
  | stateStoreWrite m off data => exact s.regionWrite_answers _ m _ hc
  | contextEntryWrite m off data => exact s.regionWrite_answers _ m _ hc
  | profileShadowWrite m off data => exact s.regionWrite_answers _ m _ hc
  | loopContextWrite m off data => exact s.regionWrite_answers _ m _ hc
  | placementShadowWrite m off data => exact s.regionWrite_answers _ m _ hc
  | mramWrite m off data => exact s.regionWrite_answers _ m _ hc
  | keySlotWrite m slot off data => exact s.regionWrite_answers _ m _ hc
  | engineRetire e => cases h : s.engineDue? e <;> exact ⟨_, by rw [exec, execEngineRetire, h]⟩
  | msixMessage => exact execMsixMessage_answers s
  | thermalShutdown analog =>
    by_cases hpin : analog.val = 0
    · exact ⟨_, if_pos hpin⟩
    · exact ⟨_, if_neg hpin⟩
  | _ => exact ⟨_, rfl⟩

/-- A step on a queue that is not empty is its front command on the state with the rest (R474). -/
theorem step_of_cons {s : State} {c : Instr} {q : List Instr} (h : s.pending = c :: q) : step s = exec c (s.withPending q) := by
  rw [step, h]

theorem step_of_nil {s : State} (h : s.pending = []) : step s = .next s := by
  rw [step, h]

/-- Settles O1. -/
theorem stepRunsFront : Obligations.StepRunsFront := by
  unfold Obligations.StepRunsFront
  exact ⟨fun c q s => step_of_cons rfl, fun s => step_of_nil rfl⟩

/-- Settles O3: nothing is listed in memory at reset and nothing waits. -/
theorem resetInv : Obligations.ResetInv := ⟨rfl, rfl⟩

/-- Settles O4: the front command runs on a state with the same memory and a shorter queue, and `exec_kept` says what it keeps. -/
theorem stepKeepsInv : Obligations.StepKeepsInv := by
  unfold Obligations.StepKeepsInv
  rintro s t ⟨hwf, hqueue⟩ h
  cases hpend : s.pending with
  | nil =>
    obtain rfl := Host.Outcome.next.inj ((step_of_nil hpend).symm.trans h)
    exact ⟨hwf, hqueue⟩
  | cons c q =>
    obtain ⟨hpending, hmem⟩ := exec_kept ((step_of_cons hpend).symm.trans h)
    refine ⟨hmem hwf, ?_⟩
    rw [State.queueOk, hpend, List.all_cons, Bool.and_eq_true] at hqueue
    rw [State.queueOk, hpending]
    exact hqueue.2

/-- Settles O5: a command that can be given answers (`exec_answers`), and leaves the rest of the queue as it is (`exec_kept`). -/
theorem everyStepAnswersNext : Obligations.EveryStepAnswersNext := by
  unfold Obligations.EveryStepAnswersNext
  intro s hqueue
  cases hpend : s.pending with
  | nil => exact ⟨s, step_of_nil hpend, hpend, hqueue⟩
  | cons c q =>
    rw [State.queueOk, hpend, List.all_cons, Bool.and_eq_true] at hqueue
    obtain ⟨hfront, hrest⟩ := hqueue
    obtain ⟨t, hexec⟩ := exec_answers (s.withPending q) hfront
    obtain ⟨hpending, -⟩ := exec_kept hexec
    refine ⟨t, (step_of_cons hpend).trans hexec, hpending, ?_⟩
    rw [State.queueOk, hpending]
    exact hrest

end Sys2Proof.Machine
end

section
/-! PROOFS. The share of a word in the state digest is linear (R422): every shift of the CRC is, with initial value 0 and no final
XOR. -/

namespace Sys2Proof.Machine

/-- One shift of the CRC register. -/
def crc64Step (c : BitVec 64) : BitVec 64 := if c.msb then (c <<< 1) ^^^ 0x42F0E1EBA9EA3693#64 else c <<< 1

theorem crc64Shift_succ (n : Nat) (c : BitVec 64) : crc64Shift (n + 1) c = crc64Shift n (crc64Step c) := rfl

/-- The polynomial is taken out once for each top bit that leaves, so that two top bits that leave together take it out twice. -/
theorem crc64Step_xor (c d : BitVec 64) : crc64Step (c ^^^ d) = crc64Step c ^^^ crc64Step d := by
  unfold crc64Step
  rw [BitVec.msb_xor, BitVec.shiftLeft_xor_distrib]
  generalize c <<< 1 = a, d <<< 1 = b, 0x42F0E1EBA9EA3693#64 = poly
  cases c.msb <;> cases d.msb
  · rfl
  · exact BitVec.xor_assoc ..
  · show a ^^^ b ^^^ poly = a ^^^ poly ^^^ b
    ac_rfl
  · show a ^^^ b = a ^^^ poly ^^^ (b ^^^ poly)
    rw [BitVec.xor_comm b, BitVec.xor_assoc, ← BitVec.xor_assoc poly, BitVec.xor_self, BitVec.zero_xor]

theorem crc64Shift_xor (n : Nat) (c d : BitVec 64) : crc64Shift n (c ^^^ d) = crc64Shift n c ^^^ crc64Shift n d := by
  induction n generalizing c d with
  | zero => rfl
  | succ n ih => rw [crc64Shift_succ, crc64Step_xor, ih, ← crc64Shift_succ, ← crc64Shift_succ]

theorem crc64Byte_xor (c d : BitVec 64) (a b : Byte) : crc64Byte (c ^^^ d) (a ^^^ b) = crc64Byte c a ^^^ crc64Byte d b := by
  rw [crc64Byte, crc64Byte, crc64Byte, ← crc64Shift_xor, BitVec.setWidth_xor, BitVec.shiftLeft_xor_distrib]
  refine congrArg (crc64Shift 8) ?_
  rw [BitVec.xor_assoc, BitVec.xor_assoc, ← BitVec.xor_assoc d, BitVec.xor_comm d, BitVec.xor_assoc]

theorem foldl_crc64Byte_xor (l : List Nat) (f g : Nat → Byte) (c d : BitVec 64) :
    (l.map fun i => f i ^^^ g i).foldl crc64Byte (c ^^^ d) =
      (l.map f).foldl crc64Byte c ^^^ (l.map g).foldl crc64Byte d := by
  induction l generalizing c d with
  | nil => rfl
  | cons i l ih =>
    rw [List.map_cons, List.foldl_cons, crc64Byte_xor]
    exact ih ..

theorem toLE_xor (k x y : Nat) :
    toLE k (x ^^^ y) = (List.range k).map fun i => BitVec.ofNat 8 (x / 256 ^ i) ^^^ BitVec.ofNat 8 (y / 256 ^ i) := by
  refine List.map_congr_left fun i _ => ?_
  have hpow : 256 ^ i = 2 ^ (8 * i) := by rw [Nat.pow_mul]
  rw [← BitVec.ofNat_xor, hpow]
  simp only [← Nat.shiftRight_eq_div_pow, Nat.shiftRight_xor_distrib]

/-- The bytes of a word into the register, as the exclusive or of two words' bytes into two registers. -/
theorem foldl_crc64Byte_toLE_xor (k x y : Nat) (c d : BitVec 64) :
    (toLE k (x ^^^ y)).foldl crc64Byte (c ^^^ d) = (toLE k x).foldl crc64Byte c ^^^ (toLE k y).foldl crc64Byte d := by
  rw [toLE_xor, foldl_crc64Byte_xor]
  rfl

theorem mirHash_xor (x y v w : Nat) : mirHash (x ^^^ y) (v ^^^ w) = mirHash x v ^^^ mirHash y w := by
  unfold mirHash crc64
  rw [List.foldl_append, List.foldl_append, List.foldl_append, ← foldl_crc64Byte_toLE_xor, ← foldl_crc64Byte_toLE_xor]
  rfl

/-- Settles O10: the law holds of all numbers, so of words. -/
theorem digestShareIsLinear : Obligations.DigestShareIsLinear := by
  unfold Obligations.DigestShareIsLinear
  intro x y v w _ _ _ _
  exact mirHash_xor x y v w

end Sys2Proof.Machine
end

section
/-! PROOFS. The clocks fail and return (R533, R535, R548): CLK_STAT, the counts of CLK_CNT and the interrupt bits of the CLK page. -/

namespace Sys2Proof.Machine

/-! ### What an event leaves of its own page's INT_STAT, and counters that saturate -/

/-- An event of a page other than FLT changes one bit of the page's INT_STAT. -/
theorem State.reg_raise_intStat (s : State) {page : Nat} (i : Nat) (hpage : page ≠ 6) (hp : page < 0x4000) :
    (s.raise page i).reg (cReg page OFF_INT_STAT) = (s.setBit (cReg page OFF_INT_STAT) i true).reg (cReg page OFF_INT_STAT) := by
  have hflt : cReg page OFF_INT_STAT ≠ cReg 6 OFF_INT_STAT := by unfold cReg; omega
  have hword (n : Nat) (hn : n < 0x4000) : cReg page OFF_INT_STAT ≠ pageWord Reg.FLT_PEND n := by
    unfold cReg pageWord Reg.FLT_PEND OFF_INT_STAT; omega
  unfold raise withSummary
  dsimp only
  rw [if_neg hpage, reg_afterRise _ _ (hword 6 (by decide)) hflt, reg_afterRise _ _ (hword page hp) hflt]

theorem State.bit_raise_other (s : State) {page i j : Nat} (hpage : page ≠ 6) (hp : page < 0x4000) (hi : i < 32) (hj : j ≠ i) :
    (s.raise page i).bit (cReg page OFF_INT_STAT) j = s.bit (cReg page OFF_INT_STAT) j := by
  rw [bit_of_reg (reg_raise_intStat s i hpage hp), bit_setBit _ _ _ _ hi, if_neg fun h => hj h.2]

theorem State.bit_setBit_same (s : State) (k : Nat) {i : Nat} (b : Bool) (hi : i < 32) : (s.setBit k i b).bit k i = b := by
  rw [bit_setBit _ _ _ _ hi, if_pos ⟨rfl, rfl⟩]

theorem State.bit_setReg_other (s : State) {k j : Nat} (v : Word) (i : Nat) (h : j ≠ k) : (s.setReg k v).bit j i = s.bit j i :=
  bit_of_reg (reg_setReg_other s v h) i

theorem State.fld_setReg_other (s : State) {k j : Nat} (v : Word) (lo len : Nat) (h : j ≠ k) :
    (s.setReg k v).fld j lo len = s.fld j lo len :=
  fld_of_reg (reg_setReg_other s v h) lo len

theorem satAdd_le (top n k : Nat) : satAdd top n k ≤ top := by
  unfold satAdd
  split <;> omega

/-- A counter field that saturates holds its count. -/
theorem State.fld_bump_same (s : State) {k lo len : Nat} (n : Nat) (h : lo + len ≤ 32) :
    (s.bump k lo len n).fld k lo len = satAdd (2 ^ len - 1) (s.fld k lo len) n := by
  have hlt : s.fld k lo len < 2 ^ len := fld_lt ..
  have hle := satAdd_le (2 ^ len - 1) (s.fld k lo len) n
  rw [bump, fld_setFld_same _ h, Nat.mod_eq_of_lt (by omega)]

theorem State.fld_bump_other (s : State) {k lo len n lo' len' : Nat} (h : lo + len ≤ 32) (hd : lo' + len' ≤ lo ∨ lo + len ≤ lo') :
    (s.bump k lo len n).fld k lo' len' = s.fld k lo' len' :=
  fld_setFld_other _ h (.inr hd)

/-! ### The core PLL (R533) -/

/-- The registers after a loss of lock: LOCK, its count, and RUNNING of the Ringmaster, before LOCK_LOST is raised. -/
def State.unlocked (s : State) : State := ((s.setBit Reg.CLK_STAT 0 false).bump Reg.CLK_CNT 0 16 1).setBit Reg.TCK_STAT 0 false

theorem State.pllLoss_of_locked {s : State} (h : s.bit Reg.CLK_STAT 0 = true) :
    s.pllLoss = { s.unlocked.raise 3 0 with
      tck := { (s.unlocked.raise 3 0).tck with startAt := none, stopAt := none, window := none }
      flt := { (s.unlocked.raise 3 0).flt with
        hbStop := (s.unlocked.raise 3 0).flt.hbStop || ((s.setBit Reg.CLK_STAT 0 false).bump Reg.CLK_CNT 0 16 1).running } } := by
  rw [pllLoss, h]
  rfl

/-- What a register reads after a loss of lock is what it reads after LOCK_LOST has been raised. -/
theorem State.reg_pllLoss {s : State} (h : s.bit Reg.CLK_STAT 0 = true) (k : Nat) :
    s.pllLoss.reg k = (s.unlocked.raise 3 0).reg k := by
  rw [pllLoss_of_locked h]
  rfl

theorem State.reg_unlocked (s : State) {k : Nat} (hk : k ∉ [Reg.CLK_STAT, Reg.CLK_CNT, Reg.TCK_STAT]) :
    s.unlocked.reg k = s.reg k := by
  simp only [List.mem_cons, List.not_mem_nil, or_false, not_or] at hk
  obtain ⟨hstat, hcnt, htck⟩ := hk
  rw [unlocked, reg_setBit, if_neg htck, reg_bump, if_neg hcnt, reg_setBit, if_neg hstat]

theorem State.reg_pllLoss_apart {s : State} (h : s.bit Reg.CLK_STAT 0 = true) {k : Nat} (hk : k ∉ raiseKeys 3) :
    s.pllLoss.reg k = s.unlocked.reg k := (reg_pllLoss h k).trans (reg_raise _ hk)

theorem State.bit_pllLoss_intStat {s : State} (h : s.bit Reg.CLK_STAT 0 = true) :
    s.pllLoss.bit (cReg 3 OFF_INT_STAT) 0 = true ∧
      ∀ j, j ≠ 0 → s.pllLoss.bit (cReg 3 OFF_INT_STAT) j = s.bit (cReg 3 OFF_INT_STAT) j := by
  refine ⟨(bit_of_reg (reg_pllLoss h _) 0).trans (bit_raise _ 3 (by decide)), fun j hj => ?_⟩
  rw [bit_of_reg (reg_pllLoss h _), bit_raise_other _ (by decide) (by decide) (by decide) hj]
  exact bit_of_reg (reg_unlocked s (by decide)) j

theorem pllLockLoss_stops (cycle : Nat) (s : State) (h : s.bit Reg.CLK_STAT 0 = true) :
    Completes (.pllLockLoss cycle) s fun t => t.bit Reg.CLK_STAT 0 = false ∧ t.running = false ∧ t.tck.startAt = none ∧
      t.fld Reg.CLK_CNT 0 16 = satAdd 0xFFFF (s.fld Reg.CLK_CNT 0 16) 1 ∧ t.bit (cReg 3 OFF_INT_STAT) 0 = true ∧
      SameMem s t ∧ SameRegs s t ([Reg.CLK_STAT, Reg.CLK_CNT, Reg.TCK_STAT] ++ raiseKeys 3) := by
  have hlock : (s.atCycle cycle).bit Reg.CLK_STAT 0 = true := h
  refine ⟨_, rfl, ?_, ?_, ?_, ?_, (State.bit_pllLoss_intStat hlock).1, sameMem_of_frame (execPllLockLoss_frame cycle s rfl),
    fun k hk => ?_⟩
  · rw [State.bit_of_reg (State.reg_pllLoss_apart hlock (by decide)), State.unlocked]
    simp [State.bit_setBit, State.bit_setFld_other, State.bump]
  · rw [State.running, State.bit_of_reg (State.reg_pllLoss_apart hlock (by decide)), State.unlocked]
    simp [State.bit_setBit]
  · rw [State.pllLoss_of_locked hlock]
  · rw [State.fld_of_reg (State.reg_pllLoss_apart hlock (by decide)), State.unlocked,
      State.fld_setBit_other _ (by decide) (.inl (by decide)), State.fld_bump_same _ _ (by decide), State.setBit,
      State.fld_setFld_other _ (by decide) (.inl (by decide))]
    rfl
  · rw [List.mem_append, not_or] at hk
    exact (State.reg_pllLoss_apart hlock hk.2).trans (State.reg_unlocked _ hk.1)

/-! ### The end of a hold with nothing held (R348, R474, R533) -/

theorem State.afterRise_held (a s : State) (page : Nat) : (State.afterRise a s page).bus.held = s.bus.held := by
  unfold afterRise
  dsimp only
  split <;> split <;> rfl

theorem State.raise_held (s : State) (page i : Nat) : (s.raise page i).bus.held = s.bus.held := by
  unfold raise withSummary
  dsimp only
  split
  · exact afterRise_held ..
  · exact (afterRise_held ..).trans (afterRise_held ..)

/-- With no access held and no request waiting, nothing but the two empty queues is written. -/
theorem State.resume_of_idle {s : State} (hheld : s.bus.held = []) (hwaits : s.net.waits = []) :
    s.replay.resumeMgt = { s with bus := { s.bus with held := [] }, net := { s.net with waits := [] } } := by
  have hreplay : s.replay = { s with bus := { s.bus with held := [] } } := by rw [replay, hheld]; rfl
  rw [hreplay, resumeMgt]
  dsimp only
  rw [hwaits]
  rfl

/-- The registers as the PLL locks again, before RELOCKED is raised. -/
def State.locked (s : State) (us : Nat) : State :=
  let u := (s.setBit Reg.CLK_STAT 0 true).setRegN Reg.CLK_RELOCK (min 0xFFFFFFFF us)
  { u with flt := { u.flt with pllFault := false } }

theorem State.pllBack_of_unlocked {s : State} (us : Nat) (h : s.bit Reg.CLK_STAT 0 = false) :
    s.pllBack us = (s.locked us).raise 3 1 := by
  rw [pllBack, h]
  rfl

theorem State.reg_locked (s : State) (us : Nat) {k : Nat} (hk : k ∉ [Reg.CLK_STAT, Reg.CLK_RELOCK]) :
    (s.locked us).reg k = s.reg k := by
  simp only [List.mem_cons, List.not_mem_nil, or_false, not_or] at hk
  obtain ⟨hstat, hrelock⟩ := hk
  change ((s.setBit Reg.CLK_STAT 0 true).setRegN Reg.CLK_RELOCK (min 0xFFFFFFFF us)).reg k = _
  rw [reg_setRegN, if_neg hrelock, reg_setBit, if_neg hstat]

/-- A relock with no access held and no request waiting. -/
theorem exec_pllRelock (us cycle : Nat) {s : State} (hlost : s.bit Reg.CLK_STAT 0 = false) (hheld : s.bus.held = [])
    (hwaits : s.net.waits = []) :
    ∃ t, exec (.pllRelock us cycle) s = .next t ∧ t.mem = s.mem ∧ t.flt = (((s.atCycle cycle).locked us).raise 3 1).flt ∧
      ∀ k, t.reg k = (((s.atCycle cycle).locked us).raise 3 1).reg k := by
  have hexec : exec (.pllRelock us cycle) s = .next (((s.atCycle cycle).pllBack us).replay.resumeMgt) :=
    congrArg Host.Outcome.next (if_neg (by rw [hlost]; decide))
  have hback := State.pllBack_of_unlocked (s := s.atCycle cycle) us hlost
  have hidle := State.resume_of_idle (s := (s.atCycle cycle).pllBack us)
    (by rw [hback, State.raise_held]; exact hheld) (by rw [hback, State.raise_net]; exact hwaits)
  refine ⟨_, hexec, ?_⟩
  rw [hidle, hback]
  exact ⟨State.raise_mem .., rfl, fun _ => rfl⟩

theorem pllRelock_locks (us cycle : Nat) (s : State) (hlost : s.bit Reg.CLK_STAT 0 = false) (hheld : s.bus.held = [])
    (hwaits : s.net.waits = []) :
    Completes (.pllRelock us cycle) s fun t => t.bit Reg.CLK_STAT 0 = true ∧
      (t.reg Reg.CLK_RELOCK).toNat = min 0xFFFFFFFF us ∧ t.flt.pllFault = false ∧ t.bit (cReg 3 OFF_INT_STAT) 1 = true ∧
      SameMem s t ∧ SameRegs s t ([Reg.CLK_STAT, Reg.CLK_RELOCK] ++ raiseKeys 3) := by
  obtain ⟨t, hexec, hmem, hflt, hreg⟩ := exec_pllRelock us cycle hlost hheld hwaits
  refine ⟨t, hexec, ?_, ?_, ?_, ?_, sameMem_of_mem hmem, fun k hk => ?_⟩
  · rw [State.bit_of_reg (hreg _)]
    refine State.bit_raise_keeps _ 3 (by decide) ?_
    change (((s.atCycle cycle).setBit Reg.CLK_STAT 0 true).setRegN Reg.CLK_RELOCK (min 0xFFFFFFFF us)).bit Reg.CLK_STAT 0 = true
    rw [State.setRegN, State.bit_setReg_other _ _ _ (by decide), State.bit_setBit_same _ _ _ (by decide)]
  · rw [hreg, State.reg_raise _ (by decide)]
    change ((((s.atCycle cycle).setBit Reg.CLK_STAT 0 true).setRegN Reg.CLK_RELOCK (min 0xFFFFFFFF us)).reg
      Reg.CLK_RELOCK).toNat = _
    rw [State.reg_setRegN, if_pos rfl, BitVec.toNat_ofNat]
    omega
  · rw [hflt, State.raise_flt]
    rfl
  · rw [State.bit_of_reg (hreg _)]
    exact State.bit_raise _ 3 (by decide)
  · rw [List.mem_append, not_or] at hk
    rw [hreg, State.reg_raise _ hk.2]
    exact State.reg_locked _ us hk.1

theorem pllRelock_raises (us cycle : Nat) (s : State) (hlost : s.bit Reg.CLK_STAT 0 = false) (hheld : s.bus.held = [])
    (hwaits : s.net.waits = []) :
    Completes (.pllRelock us cycle) s fun t => t.bit Reg.CLK_STAT 0 = true ∧ t.bit (cReg 3 OFF_INT_STAT) 1 = true ∧
      t.bit (cReg 3 OFF_INT_STAT) 0 = s.bit (cReg 3 OFF_INT_STAT) 0 ∧
      t.bit (cReg 3 OFF_INT_STAT) 2 = s.bit (cReg 3 OFF_INT_STAT) 2 := by
  obtain ⟨t, hexec, -, -, hreg⟩ := exec_pllRelock us cycle hlost hheld hwaits
  obtain ⟨t', hexec', hlock, -, -, hraised, -⟩ := pllRelock_locks us cycle s hlost hheld hwaits
  obtain rfl := Host.Outcome.next.inj (hexec.symm.trans hexec')
  have hother (j : Nat) (hj : j ≠ 1) : t.bit (cReg 3 OFF_INT_STAT) j = s.bit (cReg 3 OFF_INT_STAT) j := by
    rw [State.bit_of_reg (hreg _), State.bit_raise_other _ (by decide) (by decide) (by decide) hj]
    exact State.bit_of_reg (State.reg_locked _ us (by decide)) j
  exact ⟨t, hexec, hlock, hraised, hother 0 (by decide), hother 2 (by decide)⟩

theorem pllUnlocked2ms_faults (s : State) (h : s.bit Reg.CLK_STAT 0 = false) :
    Completes .pllUnlocked2ms s fun t => t.flt.pllFault = true ∧ SameMem s t ∧ SameRegs s t [] := by
  have hexec : exec .pllUnlocked2ms s = .next { s with flt := { s.flt with pllFault := true } } :=
    congrArg Host.Outcome.next (if_neg (by rw [h]; decide))
  exact ⟨_, hexec, rfl, fun _ => rfl, fun _ _ => rfl⟩

/-! ### The reference clock (R533) -/

/-- The registers after a loss of the reference clock, before REF_LOST is raised. -/
def State.refLost (s : State) : State := (s.setBit Reg.CLK_STAT 1 false).bump Reg.CLK_CNT 16 16 1

theorem exec_refclkLoss {s : State} (h : s.bit Reg.CLK_STAT 1 = true) : exec .refclkLoss s = .next (s.refLost.raise 3 2) :=
  congrArg Host.Outcome.next (if_pos h)

theorem State.reg_refLost (s : State) {k : Nat} (hk : k ∉ [Reg.CLK_STAT, Reg.CLK_CNT]) : s.refLost.reg k = s.reg k := by
  simp only [List.mem_cons, List.not_mem_nil, or_false, not_or] at hk
  rw [refLost, reg_bump, if_neg hk.2, reg_setBit, if_neg hk.1]

theorem State.bit_refLost (s : State) : s.refLost.bit Reg.CLK_STAT 1 = false := by
  rw [refLost, bump, setFld, bit_setReg_other _ _ _ (by decide), bit_setBit_same _ _ _ (by decide)]

theorem refclkLoss_counts (s : State) (h : s.bit Reg.CLK_STAT 1 = true) :
    Completes .refclkLoss s fun t => t.bit Reg.CLK_STAT 1 = false ∧
      t.fld Reg.CLK_CNT 16 16 = satAdd 0xFFFF (s.fld Reg.CLK_CNT 16 16) 1 ∧ t.bit (cReg 3 OFF_INT_STAT) 2 = true ∧
      SameMem s t ∧ SameRegs s t ([Reg.CLK_STAT, Reg.CLK_CNT] ++ raiseKeys 3) := by
  refine ⟨_, exec_refclkLoss h, ?_, ?_, State.bit_raise _ 3 (by decide), sameMem_of_mem (State.raise_mem ..), fun k hk => ?_⟩
  · rw [State.bit_of_reg (State.reg_raise _ (by decide)), State.bit_refLost]
  · rw [State.fld_of_reg (State.reg_raise _ (by decide)), State.refLost, State.fld_bump_same _ _ (by decide), State.setBit,
      State.fld_setFld_other _ (by decide) (.inl (by decide))]
    rfl
  · rw [List.mem_append, not_or] at hk
    exact (State.reg_raise _ hk.2).trans (s.reg_refLost hk.1)

theorem refclkLoss_raises (s : State) (h : s.bit Reg.CLK_STAT 1 = true) :
    Completes .refclkLoss s fun t => t.bit Reg.CLK_STAT 1 = false ∧ t.bit (cReg 3 OFF_INT_STAT) 2 = true ∧
      t.bit (cReg 3 OFF_INT_STAT) 0 = s.bit (cReg 3 OFF_INT_STAT) 0 ∧
      t.bit (cReg 3 OFF_INT_STAT) 1 = s.bit (cReg 3 OFF_INT_STAT) 1 := by
  have hother (j : Nat) (hj : j ≠ 2) : (s.refLost.raise 3 2).bit (cReg 3 OFF_INT_STAT) j = s.bit (cReg 3 OFF_INT_STAT) j := by
    rw [State.bit_raise_other _ (by decide) (by decide) (by decide) hj]
    exact State.bit_of_reg (s.reg_refLost (by decide)) j
  refine ⟨_, exec_refclkLoss h, ?_, State.bit_raise _ 3 (by decide), hother 0 (by decide), hother 1 (by decide)⟩
  rw [State.bit_of_reg (State.reg_raise _ (by decide)), State.bit_refLost]

/-- A bit of CLK_STAT returns. -/
theorem State.clkStat_returns (s : State) {i : Nat} (hi : i < 32) :
    (s.setBit Reg.CLK_STAT i true).bit Reg.CLK_STAT i = true ∧ SameMem s (s.setBit Reg.CLK_STAT i true) ∧
      SameRegs s (s.setBit Reg.CLK_STAT i true) [Reg.CLK_STAT] := by
  refine ⟨?_, fun _ => rfl, fun k hk => ?_⟩
  · rw [bit_setBit _ _ _ _ hi, if_pos ⟨rfl, rfl⟩]
  · rw [reg_setBit, if_neg (by simpa using hk)]

/-! ### The interrupt bits of the CLK page (R445, R465, R535) -/

/-- A page's interrupt counts while some bit is 1 in INT_STAT and in INT_EN. -/
theorem State.intSummary_eq_any (s : State) (page : Nat) :
    s.intSummary page = (List.range 32).any fun i => s.bit (cReg page OFF_INT_STAT) i && s.bit (cReg page OFF_INT_EN) i := by
  have hbit (i : Nat) : (s.bit (cReg page OFF_INT_STAT) i && s.bit (cReg page OFF_INT_EN) i) =
      ((s.reg (cReg page OFF_INT_STAT)).toNat &&& (s.reg (cReg page OFF_INT_EN)).toNat).testBit i := by
    rw [Nat.testBit_and]
    rfl
  simp only [hbit]
  rw [intSummary, Bool.eq_iff_iff, decide_eq_true_iff, List.any_eq_true]
  have hlt : (s.reg (cReg page OFF_INT_STAT)).toNat &&& (s.reg (cReg page OFF_INT_EN)).toNat < 2 ^ 32 :=
    Nat.and_lt_two_pow _ (s.reg _).isLt
  constructor
  · intro hne
    obtain ⟨i, hi⟩ := Nat.exists_testBit_of_ne_zero hne
    exact ⟨i, List.mem_range.2 (by_contra fun h => by
      rw [Nat.testBit_lt_two_pow (hlt.trans_le (Nat.pow_le_pow_right (by decide) (by omega)))] at hi
      cases hi), hi⟩
  · rintro ⟨i, -, hi⟩ hzero
    rw [hzero, Nat.zero_testBit] at hi
    cases hi

/-- An accepted 32-bit write by the bus is a register write. -/
theorem State.busWrite_of_accepts {s : State} {m a : Nat} {v : Word} (hacc : s.accepts m a v = true) (hword : a % 4 = 0) :
    s.busWrite m a v 15 = s.regWrite m a v := by
  have htarget : s.target a = 0 := by
    simp only [accepts, Bool.and_eq_true, beq_iff_eq] at hacc
    obtain ⟨⟨⟨-, htarget⟩, -⟩, -⟩ := hacc
    exact htarget
  rw [busWrite, if_neg (by omega), if_pos htarget, if_pos (.inr ⟨hword, rfl⟩)]

theorem State.reg_regWrite {s : State} {m a : Nat} {v : Word} (hacc : s.accepts m a v = true) (k : Nat) :
    (s.regWrite m a v).reg k = ((s.respond m true a .ok 0).regEffect m a v).reg k :=
  s.reg_gateWrite (fun s => s.regEffect m a v) hacc k

/-- The access codes of the CLK page's INT_STAT. -/
def clkIntRow : RegRow := ⟨0x10, 1, 4, 0, 0, 0xFFFFFFFF, 0, [0]⟩

theorem regRow_clkIntStat : regRow? (cReg 3 OFF_INT_STAT) = some (clkIntRow, 0) := by decide +kernel

/-- A write of the CLK page's INT_STAT clears bits, and no condition keeps them. -/
theorem State.regEffect_clkIntStat (s : State) (m : Nat) (v : Word) :
    s.regEffect m (cReg 3 OFF_INT_STAT) v = s.clearBits (cReg 3 OFF_INT_STAT) v 0xFFFFFFFF 0 := by
  change s.plainWrite (cReg 3 OFF_INT_STAT) v = _
  rw [plainWrite, regRow_clkIntStat]
  rfl

theorem w1cClear_clkIntStat (m : Fin 8) (v : Word) (s : State) (hacc : s.accepts m (cReg 3 OFF_INT_STAT) v = true) :
    Completes (.w1cClear m (BitVec.ofNat 32 (cReg 3 OFF_INT_STAT)) v) s fun t =>
      ∀ i, i < 3 → t.bit (cReg 3 OFF_INT_STAT) i = (s.bit (cReg 3 OFF_INT_STAT) i && !bitOf v i) := by
  have hreach : masterReaches m (cReg 3 OFF_INT_STAT) 1 = true := by
    have hbar : barHolds false (cReg 3 OFF_INT_STAT) 1 = true := by decide
    rw [masterReaches, hbar, Bool.or_true, Bool.true_or]
  have hexec : exec (.w1cClear m (BitVec.ofNat 32 (cReg 3 OFF_INT_STAT)) v) s = .next (s.regWrite m (cReg 3 OFF_INT_STAT) v) :=
    (accessOf_of_reaches _ _ hreach).trans (congrArg _ (State.busWrite_of_accepts hacc (by decide)))
  have hmask : ∀ i < 3, Nat.testBit 0xFFFFFFFF i = true := by decide
  refine ⟨_, hexec, fun i hi => ?_⟩
  rw [State.bit_of_reg (State.reg_regWrite hacc _), State.regEffect_clkIntStat,
    State.bit_clearBits _ v (by decide) (by omega) (hmask i hi) (Nat.zero_testBit i)]
  rfl

/-- Settles O11, clause by clause. -/
theorem clkInterruptBits : Obligations.ClkInterruptBits := by
  unfold Obligations.ClkInterruptBits
  refine ⟨fun cycle s h => ?_, pllRelock_raises, refclkLoss_raises, w1cClear_clkIntStat, fun s => s.intSummary_eq_any 3⟩
  have hlock : (s.atCycle cycle).bit Reg.CLK_STAT 0 = true := h
  obtain ⟨hraised, hother⟩ := State.bit_pllLoss_intStat hlock
  obtain ⟨t, hexec, hgone, -⟩ := pllLockLoss_stops cycle s h
  obtain rfl := Host.Outcome.next.inj hexec
  exact ⟨_, rfl, hgone, hraised, hother 1 (by decide), hother 2 (by decide)⟩

end Sys2Proof.Machine
end

section
/-! PROOFS. Accesses that the bus refuses: what a violation and a decode error log and answer (R475, R476, R481, R483). -/

namespace Sys2Proof.Machine

/-! ### What a violation logs and answers (R475, R476) -/

/-- The registers in which a page logs a violation. -/
def errKeys (page : Nat) : List Nat := [cReg page OFF_ERR_ADDR, cReg page OFF_ERR_INFO]

theorem State.logPage_of_target_zero {s : State} {a : Nat} (h : s.target a = 0) : s.logPage a = pageOf a := by
  unfold target at h
  unfold logPage
  split_ifs at h ⊢
  rfl

theorem errKeys_notMem_raiseKeys (page : Nat) : ∀ k ∈ errKeys page, k ∉ raiseKeys 10 := by
  intro k hk
  simp only [errKeys, raiseKeys, List.mem_cons, List.not_mem_nil, or_false] at hk ⊢
  unfold cReg pageWord Reg.FLT_PEND OFF_ERR_ADDR OFF_ERR_INFO OFF_INT_STAT at *
  omega

theorem State.reg_logViolation (s : State) (page m : Nat) (w : Bool) (a kind k : Nat) (hk : k ∉ errKeys page) :
    (s.logViolation page m w a kind).reg k = s.reg k := by
  simp only [errKeys, List.mem_cons, List.not_mem_nil, or_false, not_or] at hk
  rw [logViolation, reg_setRegN, if_neg hk.2, reg_setRegN, if_neg hk.1]

theorem State.errAddr_logViolation (s : State) (page m : Nat) (w : Bool) (a kind : Nat) :
    (s.logViolation page m w a kind).reg (cReg page OFF_ERR_ADDR) = BitVec.ofNat 32 a := by
  rw [logViolation, reg_setRegN, if_neg (by unfold cReg OFF_ERR_ADDR OFF_ERR_INFO; omega), reg_setRegN, if_pos rfl]

/-- ERR_INFO after a violation of a kind below 256. -/
theorem State.errInfo_logViolation (s : State) (page m : Nat) (w : Bool) (a : Nat) {kind : Nat} (hkind : kind < 256) :
    ((s.logViolation page m w a kind).fld (cReg page OFF_ERR_INFO) 0 8 = kind ∧
      (s.logViolation page m w a kind).fld (cReg page OFF_ERR_INFO) 16 4 = m % 16) ∧
      (s.logViolation page m w a kind).bit (cReg page OFF_ERR_INFO) 31 = true := by
  have hinfo (o : Bool) : ∀ w : Bool, 2 ^ 31 + b2n o * 2 ^ 30 + m % 16 * 2 ^ 16 + b2n w * 2 ^ 8 + kind < 2 ^ 32 := fun w => by
    have ho := b2n_le o
    have hw := b2n_le w
    omega
  have hw := b2n_le w
  refine ⟨⟨?_, ?_⟩, ?_⟩
  · rw [fld, logViolation, reg_setRegN, if_pos rfl, fld_ofNat (by decide), bits, Nat.shiftRight_zero]
    omega
  · rw [fld, logViolation, reg_setRegN, if_pos rfl, fld_ofNat (by decide), bits, Nat.shiftRight_eq_div_pow]
    omega
  · rw [bit, logViolation, reg_setRegN, if_pos rfl, bitOf, BitVec.toNat_ofNat, Nat.mod_eq_of_lt (hinfo _ w),
      Nat.testBit_eq_decide_div_mod_eq, decide_eq_true_iff]
    have ho := b2n_le (s.bit (cReg page OFF_ERR_INFO) 31 || s.bit (cReg page OFF_ERR_INFO) 30)
    omega

/-- A violation that is no refused posted write of M0 sets no interrupt bit. -/
theorem State.violate_of_quiet (s : State) {m : Nat} {w : Bool} (a : Nat) {kind : Nat}
    (h : (m == 0 && w && kind != kTrunc) = false) :
    s.violate m w a kind = (s.logViolation (s.logPage a) m w a kind).respond m w a (refusalStatus m kind) 0 := by
  rw [violate, h]
  rfl

theorem State.afterRise_last (a s : State) (page : Nat) : (State.afterRise a s page).bus.last = s.bus.last := by
  unfold afterRise
  dsimp only
  split <;> split <;> rfl

@[simp] theorem State.raise_last (s : State) (page i : Nat) : (s.raise page i).bus.last = s.bus.last := by
  unfold raise withSummary
  dsimp only
  split
  · exact afterRise_last ..
  · exact (afterRise_last ..).trans (afterRise_last ..)

@[simp] theorem State.raiseIf_last (s : State) (c : Bool) (page i : Nat) : (s.raiseIf c page i).bus.last = s.bus.last := by
  cases c
  · rfl
  · exact s.raise_last page i

theorem State.respond_last (s : State) (m : Nat) (w : Bool) (a : Nat) (st : RespStatus) (d : Word) :
    (s.respond m w a st d).bus.last = ⟨m, w, a, st, d⟩ := rfl

theorem State.unlatch_last (s : State) (m a : Nat) : (s.unlatch m a).bus.last = s.bus.last := rfl

theorem State.violate_last (s : State) (m : Nat) (w : Bool) (a kind : Nat) :
    (s.violate m w a kind).bus.last = ⟨m, w, a, refusalStatus m kind, 0⟩ := by
  unfold violate
  exact (raiseIf_last ..).trans (respond_last ..)

/-- The registers of the page that logs a violation read as it left them. -/
theorem State.reg_violate_log (s : State) (m : Nat) (w : Bool) (a kind : Nat) {k : Nat} (hk : k ∉ raiseKeys 10) :
    (s.violate m w a kind).reg k = (s.logViolation (s.logPage a) m w a kind).reg k := by
  unfold violate
  exact (reg_raiseIf _ hk).trans (reg_respond ..)

theorem State.reg_violate (s : State) (m : Nat) (w : Bool) (a kind : Nat) {k : Nat}
    (hk : k ∉ errKeys (s.logPage a) ++ raiseKeys 10) : (s.violate m w a kind).reg k = s.reg k := by
  rw [List.mem_append, not_or] at hk
  rw [s.reg_violate_log m w a kind hk.2, s.reg_logViolation _ m w a kind k hk.1]

theorem State.errInfo_violate (s : State) (m : Nat) (w : Bool) (a : Nat) {kind : Nat} (hkind : kind < 256) :
    (s.violate m w a kind).fld (cReg (s.logPage a) OFF_ERR_INFO) 0 8 = kind ∧
      (s.violate m w a kind).fld (cReg (s.logPage a) OFF_ERR_INFO) 16 4 = m % 16 := by
  have hreg := s.reg_violate_log m w a kind (errKeys_notMem_raiseKeys (s.logPage a) _ (.tail _ (.head _)))
  obtain ⟨⟨hk, hm⟩, -⟩ := s.errInfo_logViolation (s.logPage a) m w a hkind
  exact ⟨(State.fld_of_reg hreg ..).trans hk, (State.fld_of_reg hreg ..).trans hm⟩

/-! ### Accesses that are refused (R474, R475, R481) -/

theorem State.up_of_accessHeld {s : State} {m a : Nat} (h : s.accessHeld m a = false) : s.off = false ∧ s.flt.inReset = false := by
  simp only [accessHeld, Bool.or_eq_false_iff] at h
  obtain ⟨⟨-, hoff⟩, hreset⟩ := h
  exact ⟨hoff, hreset⟩

/-- A whole aligned write of a register that a rule refuses is logged and answered. -/
theorem State.busWrite_of_refused {s : State} {m a k : Nat} {v : Word} (hword : a % 4 = 0) (htarget : s.target a = 0)
    (hheld : s.accessHeld m a = false) (hrefused : s.writeRefusal? m a v = some k) :
    s.busWrite m a v 15 = (s.violate m true a k).unlatch m a := by
  obtain ⟨hoff, hreset⟩ := up_of_accessHeld hheld
  rw [busWrite, if_neg (by omega), if_pos htarget, if_pos (.inr ⟨hword, rfl⟩), regWrite, gateWrite,
    if_neg (by rw [hoff, hreset]; decide), if_neg (by omega), if_neg (by rw [hheld]; decide), hrefused]

theorem State.writeRefusal_of_protected {s : State} {m a : Nat} (v : Word) (hlo : 3 ≤ m) (hhi : m ≤ 6)
    (hprot : s.protected (pageOf a) = true) : s.writeRefusal? m a v = some kPriv := by
  have hm : (decide (3 ≤ m) && decide (m ≤ 6) && s.protected (pageOf a)) = true := by
    rw [decide_eq_true hlo, decide_eq_true hhi, hprot]
    rfl
  unfold writeRefusal?
  exact if_pos hm

theorem State.busRead_of_protected {s : State} {m a : Nat} (hlo : 3 ≤ m) (hhi : m ≤ 6) (hword : a % 4 = 0)
    (htarget : s.target a = 0) (hheld : s.accessHeld m a = false) (hprot : s.protected (pageOf a) = true) :
    s.busRead m a = s.violate m false a kPriv := by
  obtain ⟨hoff, hreset⟩ := up_of_accessHeld hheld
  have hm : (decide (3 ≤ m) && decide (m ≤ 6) && s.protected (pageOf a)) = true := by
    rw [decide_eq_true hlo, decide_eq_true hhi, hprot]
    rfl
  rw [busRead, if_pos (.inl htarget), regRead, if_neg (by rw [hoff, hreset]; decide), if_neg (by omega),
    if_neg (by rw [hheld]; decide), if_neg (by omega), if_pos hm]

theorem masterReaches_of_pos {m : Nat} (a n : Nat) (h : 3 ≤ m) : masterReaches m a n = true := by
  have hm : (m != 0) = true := by
    rw [bne_iff_ne]
    omega
  rw [masterReaches, hm, Bool.true_or, Bool.true_or]

theorem exec_registerWrite {m : Fin 8} {a v : Word} {en : Fin 16} {cycle : Nat} {s : State}
    (h : masterReaches m a.toNat 1 = true) :
    exec (.registerWrite m a v en cycle) s = .next ((s.atCycle cycle).busWrite m a.toNat v en) :=
  accessOf_of_reaches _ _ h

theorem exec_lowWordRead {m : Fin 8} {a : Word} {cycle : Nat} {s : State} (h : masterReaches m a.toNat 1 = true) :
    exec (.lowWordRead m a cycle) s = .next ((s.atCycle cycle).busRead m a.toNat) :=
  accessOf_of_reaches _ _ h

theorem refusalStatus_priv {m : Nat} (h : 3 ≤ m) : refusalStatus m kPriv = .targetError := by
  rw [refusalStatus, if_neg (by decide), if_neg (by decide), if_neg (by omega)]

/-- The state after a violation logged in `page`, without an interrupt bit. -/
def State.refusedIn (s : State) (page m : Nat) (w : Bool) (a kind : Nat) : State :=
  (s.logViolation page m w a kind).respond m w a (refusalStatus m kind) 0

theorem State.reg_refusedIn (s : State) (page m : Nat) (w : Bool) (a kind k : Nat) :
    (s.refusedIn page m w a kind).reg k = (s.logViolation page m w a kind).reg k :=
  reg_respond ..

/-- A PRIV violation by master `m`, logged in `page` and answered. -/
def State.LoggedPriv (s t : State) (page m : Nat) (w : Bool) (a : Word) : Prop :=
  t.bus.last = ⟨m, w, a.toNat, .targetError, 0⟩ ∧ t.reg (cReg page OFF_ERR_ADDR) = a ∧
    t.fld (cReg page OFF_ERR_INFO) 0 8 = kPriv ∧ t.fld (cReg page OFF_ERR_INFO) 16 4 = m ∧ SameMem s t ∧
    SameRegs s t [cReg page OFF_ERR_ADDR, cReg page OFF_ERR_INFO]

theorem State.LoggedPriv.unlatch {s t : State} {page m : Nat} {w : Bool} {a : Word} (h : s.LoggedPriv t page m w a) (n k : Nat) :
    s.LoggedPriv (t.unlatch n k) page m w a := h

theorem State.LoggedPriv.of_atCycle {s t : State} {page m cycle : Nat} {w : Bool} {a : Word}
    (h : (s.atCycle cycle).LoggedPriv t page m w a) : s.LoggedPriv t page m w a := h

/-- What an access by M3 to M6 to a protected page leaves. -/
theorem State.loggedPriv_refusedIn (s : State) (page : Nat) {m : Nat} (w : Bool) (a : Word) (hlo : 3 ≤ m) (hhi : m ≤ 6) :
    s.LoggedPriv (s.refusedIn page m w a.toNat kPriv) page m w a := by
  obtain ⟨⟨hkind, hm⟩, -⟩ := s.errInfo_logViolation page m w a.toNat (kind := kPriv) (by decide)
  refine ⟨?_, ?_, ?_, ?_, sameMem_of_mem ((respond_mem ..).trans (logViolation_mem ..)), fun k hk => ?_⟩
  · rw [refusedIn, respond_last, refusalStatus_priv hlo]
  · rw [reg_refusedIn, errAddr_logViolation, BitVec.ofNat_toNat, BitVec.setWidth_eq]
  · exact (fld_of_reg (reg_refusedIn ..) ..).trans hkind
  · rw [fld_of_reg (reg_refusedIn ..), hm, Nat.mod_eq_of_lt (by omega)]
  · rw [reg_refusedIn, s.reg_logViolation page m w a.toNat kPriv k hk]

theorem registerWrite_protected (m : Fin 8) (addr v : Word) (cycle : Nat) (s : State) (hlo : 3 ≤ m.val) (hhi : m.val ≤ 6)
    (hword : addr.toNat % 4 = 0) (htarget : s.target addr.toNat = 0) (hheld : s.accessHeld m addr.toNat = false)
    (hprot : s.protected (pageOf addr.toNat) = true) :
    Completes (.registerWrite m addr v 15 cycle) s fun t => s.LoggedPriv t (pageOf addr.toNat) m true addr := by
  have hm : (m.val == 0) = false := by
    rw [beq_eq_false_iff_ne]
    omega
  have hwrite : (s.atCycle cycle).busWrite m addr.toNat v 15 =
      ((s.atCycle cycle).refusedIn (pageOf addr.toNat) m true addr.toNat kPriv).unlatch m addr.toNat := by
    rw [State.busWrite_of_refused (s := s.atCycle cycle) hword htarget hheld (State.writeRefusal_of_protected v hlo hhi hprot),
      State.violate_of_quiet _ _ (by rw [hm]; rfl), State.logPage_of_target_zero (s := s.atCycle cycle) htarget, State.refusedIn]
  exact ⟨_, (exec_registerWrite (masterReaches_of_pos _ 1 hlo)).trans (congrArg _ hwrite),
    ((s.atCycle cycle).loggedPriv_refusedIn _ true addr hlo hhi).of_atCycle.unlatch m addr.toNat⟩

theorem lowWordRead_protected (m : Fin 8) (addr : Word) (cycle : Nat) (s : State) (hlo : 3 ≤ m.val) (hhi : m.val ≤ 6)
    (hword : addr.toNat % 4 = 0) (htarget : s.target addr.toNat = 0) (hheld : s.accessHeld m addr.toNat = false)
    (hprot : s.protected (pageOf addr.toNat) = true) :
    Completes (.lowWordRead m addr cycle) s fun t => s.LoggedPriv t (pageOf addr.toNat) m false addr := by
  have hread : (s.atCycle cycle).busRead m addr.toNat =
      (s.atCycle cycle).refusedIn (pageOf addr.toNat) m false addr.toNat kPriv := by
    rw [State.busRead_of_protected (s := s.atCycle cycle) hlo hhi hword htarget hheld hprot,
      State.violate_of_quiet _ _ (by rw [Bool.and_false]; rfl), State.logPage_of_target_zero (s := s.atCycle cycle) htarget,
      State.refusedIn]
  exact ⟨_, (exec_lowWordRead (masterReaches_of_pos _ 1 hlo)).trans (congrArg _ hread),
    ((s.atCycle cycle).loggedPriv_refusedIn _ false addr hlo hhi).of_atCycle⟩

theorem State.protected_eq (s : State) {page : Nat} (h : page < 192) :
    s.protected page = (page == 8 || s.bit (Reg.BMX_PROT + 4 * (page / 32)) (page % 32)) := by
  rw [State.protected, decide_eq_true h, Bool.true_and]

theorem reset_protected : ∀ page : Nat, page < 192 → State.reset.protected page = [0, 1, 2, 3, 6, 7, 8, 9, 10].contains page := by
  decide +kernel

/-- Settles O13: a write and a read by M3 to M6, the pages protected, and those protected after reset. -/
theorem protectedPages : Obligations.ProtectedPages := by
  unfold Obligations.ProtectedPages
  refine ⟨registerWrite_protected, fun m addr cycle s hlo hhi hword htarget hheld hprot => ?_, fun _ s h => s.protected_eq h,
    reset_protected⟩
  obtain ⟨t, hexec, hlast, -, hkind, -, hmem, hreg⟩ := lowWordRead_protected m addr cycle s hlo hhi hword htarget hheld hprot
  exact ⟨t, hexec, hlast, hkind, hmem, hreg⟩

/-! ### Decode errors (R483) -/

/-- The registers as an access to T7 is logged in them. -/
def State.decLogged (s : State) (m : Nat) (w : Bool) (a : Nat) : State :=
  ((s.setRegN Reg.BMX_DEC_ADDR a).setRegN Reg.BMX_DEC_INFO (satAdd 0xFFFF (s.fld Reg.BMX_DEC_INFO 16 16) 1 * 2 ^ 16 +
    b2n (s.bit Reg.BMX_QUIET_DECODE 0) * 2 ^ 9 + b2n w * 2 ^ 8 + m % 8)).raise 8 0

theorem State.decodeErr_eq (s : State) (m : Nat) (w : Bool) (a : Nat) :
    s.decodeErr m w a = if s.bit Reg.BMX_QUIET_DECODE 0 = true then (s.decLogged m w a).respond m w a .quiet 0
      else (s.decLogged m w a).violate m w a kDecode := by
  have hfld : (s.setRegN Reg.BMX_DEC_ADDR a).fld Reg.BMX_DEC_INFO 16 16 = s.fld Reg.BMX_DEC_INFO 16 16 :=
    fld_setReg_other _ _ _ _ (by decide)
  rw [decodeErr, hfld]
  rfl

/-- Keys that no violation writes. -/
theorem notMem_errKeys {page k : Nat} (h : k % 0x1000 ≠ OFF_ERR_ADDR ∧ k % 0x1000 ≠ OFF_ERR_INFO) : k ∉ errKeys page := by
  simp only [errKeys, List.mem_cons, List.not_mem_nil, or_false]
  unfold cReg OFF_ERR_ADDR OFF_ERR_INFO at *
  omega

theorem State.reg_decodeErr (s : State) (m : Nat) (w : Bool) (a : Nat) {k : Nat} (hraise : k ∉ raiseKeys 10)
    (herr : k % 0x1000 ≠ OFF_ERR_ADDR ∧ k % 0x1000 ≠ OFF_ERR_INFO) : (s.decodeErr m w a).reg k = (s.decLogged m w a).reg k := by
  rw [decodeErr_eq]
  split
  · exact reg_respond ..
  · exact reg_violate _ _ _ _ _ (by rw [List.mem_append, not_or]; exact ⟨notMem_errKeys herr, hraise⟩)

theorem State.decodeErr_last (s : State) (m : Nat) (w : Bool) (a : Nat) :
    (s.decodeErr m w a).bus.last = ⟨m, w, a, if s.bit Reg.BMX_QUIET_DECODE 0 then .quiet else refusalStatus m kDecode, 0⟩ := by
  rw [decodeErr_eq]
  split
  · exact respond_last ..
  · exact violate_last ..

/-- DEC_INFO after a decode error. -/
theorem State.decInfo_decodeErr (s : State) {m : Nat} (w : Bool) (a : Nat) (hm : m < 8) :
    (s.decodeErr m w a).fld Reg.BMX_DEC_INFO 0 3 = m ∧ (s.decodeErr m w a).bit Reg.BMX_DEC_INFO 8 = w ∧
      (s.decodeErr m w a).bit Reg.BMX_DEC_INFO 9 = s.bit Reg.BMX_QUIET_DECODE 0 ∧
      (s.decodeErr m w a).fld Reg.BMX_DEC_INFO 16 16 = satAdd 0xFFFF (s.fld Reg.BMX_DEC_INFO 16 16) 1 := by
  have hcount := satAdd_le 0xFFFF (s.fld Reg.BMX_DEC_INFO 16 16) 1
  have hreg : (s.decodeErr m w a).reg Reg.BMX_DEC_INFO = BitVec.ofNat 32 (satAdd 0xFFFF (s.fld Reg.BMX_DEC_INFO 16 16) 1 * 2 ^ 16 +
      b2n (s.bit Reg.BMX_QUIET_DECODE 0) * 2 ^ 9 + b2n w * 2 ^ 8 + m % 8) := by
    rw [reg_decodeErr _ _ _ _ (by decide) (by decide), decLogged, reg_raise _ (by decide), reg_setRegN, if_pos rfl]
  generalize satAdd 0xFFFF (s.fld Reg.BMX_DEC_INFO 16 16) 1 = c at *
  generalize s.bit Reg.BMX_QUIET_DECODE 0 = q at *
  have hbit (i : Nat) : (s.decodeErr m w a).bit Reg.BMX_DEC_INFO i =
      decide ((c * 2 ^ 16 + b2n q * 2 ^ 9 + b2n w * 2 ^ 8 + m % 8) % 2 ^ 32 / 2 ^ i % 2 = 1) := by
    rw [bit, hreg, bitOf, BitVec.toNat_ofNat, Nat.testBit_eq_decide_div_mod_eq]
  have hfld (lo len : Nat) (h : lo + len ≤ 32) : (s.decodeErr m w a).fld Reg.BMX_DEC_INFO lo len =
      (c * 2 ^ 16 + b2n q * 2 ^ 9 + b2n w * 2 ^ 8 + m % 8) / 2 ^ lo % 2 ^ len := by
    rw [fld, hreg, fld_ofNat h, bits, Nat.shiftRight_eq_div_pow]
  have hq := b2n_le q
  have hw := b2n_le w
  refine ⟨?_, ?_, ?_, ?_⟩
  · rw [hfld 0 3 (by decide)]
    omega
  · have hdiv : (c * 2 ^ 16 + b2n q * 2 ^ 9 + b2n w * 2 ^ 8 + m % 8) % 2 ^ 32 / 2 ^ 8 % 2 = b2n w := by omega
    rw [hbit, hdiv]
    cases w <;> rfl
  · have hdiv : (c * 2 ^ 16 + b2n q * 2 ^ 9 + b2n w * 2 ^ 8 + m % 8) % 2 ^ 32 / 2 ^ 9 % 2 = b2n q := by omega
    rw [hbit, hdiv]
    cases q <;> rfl
  · rw [hfld 16 16 (by decide)]
    omega

/-- What an access to T7 leaves. -/
structure State.LoggedDecode (s t : State) (m : Nat) (w : Bool) (a : Word) : Prop where
  addr : t.reg Reg.BMX_DEC_ADDR = a
  raised : t.bit (cReg 8 OFF_INT_STAT) 0 = true
  master : t.fld Reg.BMX_DEC_INFO 0 3 = m
  write : t.bit Reg.BMX_DEC_INFO 8 = w
  quiet : t.bit Reg.BMX_DEC_INFO 9 = s.bit Reg.BMX_QUIET_DECODE 0
  count : t.fld Reg.BMX_DEC_INFO 16 16 = satAdd 0xFFFF (s.fld Reg.BMX_DEC_INFO 16 16) 1
  last : t.bus.last = ⟨m, w, a.toNat, if s.bit Reg.BMX_QUIET_DECODE 0 then .quiet else refusalStatus m kDecode, 0⟩
  mem : SameMem s t

theorem State.loggedDecode_decodeErr (s : State) {m : Nat} (w : Bool) (a : Word) (hm : m < 8) :
    s.LoggedDecode (s.decodeErr m w a.toNat) m w a := by
  obtain ⟨hmaster, hwrite, hquiet, hcount⟩ := s.decInfo_decodeErr w a.toNat hm
  refine ⟨?_, ?_, hmaster, hwrite, hquiet, hcount, s.decodeErr_last m w a.toNat,
    sameMem_of_mem (s.decodeErr_frame m w a.toNat).2.2⟩
  · rw [reg_decodeErr _ _ _ _ (by decide) (by decide), decLogged, reg_raise _ (by decide), reg_setRegN, if_neg (by decide),
      reg_setRegN, if_pos rfl, BitVec.ofNat_toNat, BitVec.setWidth_eq]
  · rw [bit_of_reg (reg_decodeErr _ _ _ _ (by decide) (by decide))]
    exact bit_raise _ 8 (by decide)

theorem State.LoggedDecode.unlatch {s t : State} {m : Nat} {w : Bool} {a : Word} (h : s.LoggedDecode t m w a) (n k : Nat) :
    s.LoggedDecode (t.unlatch n k) m w a := by
  obtain ⟨haddr, hraised, hmaster, hwrite, hquiet, hcount, hlast, hmem⟩ := h
  exact ⟨haddr, hraised, hmaster, hwrite, hquiet, hcount, hlast, hmem⟩

theorem decodeError_logs (m : Fin 8) (w : Bool) (addr : Word) (s : State) (hreach : masterReaches m addr.toNat 1 = true)
    (htarget : s.target addr.toNat = 7) (hup : s.silent = false) :
    Completes (.decodeError m w addr) s fun t => s.LoggedDecode t m w addr := by
  have hlogged := s.loggedDecode_decodeErr w addr m.isLt
  have hexec : exec (.decodeError m w addr) s =
      .next (if w = true then s.regWrite m addr.toNat 0 else s.busRead m addr.toNat) :=
    (accessOf_of_reaches _ _ hreach).trans (congrArg Host.Outcome.next (if_pos htarget))
  have hon : (s.off || s.flt.inReset) = false := hup
  refine ⟨_, hexec, ?_⟩
  split
  · next hw =>
      rw [hw] at hlogged ⊢
      rw [State.regWrite, State.gateWrite, if_neg (by rw [hon]; decide), if_pos (by omega)]
      exact hlogged.unlatch _ _
  · next hw =>
      rw [Bool.not_eq_true] at hw
      rw [hw] at hlogged ⊢
      rw [State.busRead, if_pos (.inr htarget), State.regRead, if_neg (by rw [hon]; decide), if_pos (by omega)]
      exact hlogged

/-! ### Other violations are answered whatever QUIET (R475, R483) -/

theorem State.kind_of_writeRefusal {s : State} {m a k : Nat} {v : Word} (h : s.writeRefusal? m a v = some k) : k < 256 := by
  have hkind : s.writeRefusal? m a v ∈ [none, some kPriv, some kReserved, some kLocked, some kReadOnly, some kPending] := by
    unfold writeRefusal?
    dsimp only
    split
    · decide
    · split
      · decide
      · split_ifs <;> decide
  rw [h] at hkind
  simp only [List.mem_cons, List.not_mem_nil, or_false, Option.some.injEq, reduceCtorEq, false_or] at hkind
  obtain rfl | rfl | rfl | rfl | rfl := hkind <;> decide

theorem masterReaches_of_target_zero {s : State} (m : Nat) {a : Nat} (h : s.target a = 0) : masterReaches m a 1 = true := by
  have hrange : 0x04000000 ≤ a ∧ a < 0x08000000 := by
    unfold State.target at h
    split_ifs at h with h1 h2
    exact h2
  have hbar : barHolds false a 1 = true := by
    rw [barHolds, Bool.and_eq_true, decide_eq_true_iff, decide_eq_true_iff]
    exact hrange
  rw [masterReaches, hbar, Bool.or_true, Bool.true_or]

theorem registerWrite_refused (m : Fin 8) (addr v : Word) (cycle k : Nat) (s : State) (hword : addr.toNat % 4 = 0)
    (htarget : s.target addr.toNat = 0) (hheld : s.accessHeld m addr.toNat = false)
    (hrefused : s.writeRefusal? m addr.toNat v = some k) :
    Completes (.registerWrite m addr v 15 cycle) s fun t => t.bus.last = ⟨m, true, addr.toNat, refusalStatus m k, 0⟩ ∧
      t.fld (cReg (pageOf addr.toNat) OFF_ERR_INFO) 0 8 = k ∧ SameMem s t := by
  have hwrite := State.busWrite_of_refused (s := s.atCycle cycle) hword htarget hheld hrefused
  obtain ⟨hkind, -⟩ := (s.atCycle cycle).errInfo_violate m true addr.toNat (State.kind_of_writeRefusal hrefused)
  rw [State.logPage_of_target_zero (s := s.atCycle cycle) htarget] at hkind
  have hlast := (s.atCycle cycle).violate_last m true addr.toNat k
  have hmem : SameMem s ((s.atCycle cycle).violate m true addr.toNat k) := sameMem_of_mem (State.violate_mem ..)
  refine ⟨_, (exec_registerWrite (masterReaches_of_target_zero m htarget)).trans (congrArg _ hwrite), ?_⟩
  revert hlast hkind hmem
  generalize (s.atCycle cycle).violate m true addr.toNat k = u
  intro hkind hlast hmem
  exact ⟨hlast, hkind, hmem⟩

end Sys2Proof.Machine
end

section
/-! PROOFS. Registers that the device's low-level work leaves: those of the GLB, CLK, RED and BMX pages behind the common ones. -/

namespace Sys2Proof.Machine

/-! ### The view -/

/-- The pages whose own registers, behind the common ones, the low-level work leaves: GLB, PWR, THM, CLK, RED and BMX; and single
registers of the FLT and NVM pages. -/
def steadyPages : List Nat := [0x4000, 0x4001, 0x4002, 0x4003, 0x4007, 0x4008]
def steadyRegs : List Nat :=
  [Reg.FLT_CTRL, Reg.FLT_STAT, Reg.FLT_SEVERE, Reg.FLT_SEVERE_ADDR, Reg.FLT_ECC, Reg.NVM_STAT, Reg.NVM_GATED]
def steadyKey (k : Nat) : Bool :=
  decide (0x100 ≤ k % 0x1000) && (steadyPages.contains (k / 0x1000) || steadyRegs.contains k) || k == cReg pTHM OFF_INT_STAT

/-- The redundancy unit but for the service of a Trapeze and its journal. -/
def RedSt.unserved (r : RedSt) : RedSt := { r with serve := none, journal := false, jOut := [] }

/-- What the low-level work leaves: these registers, the reset machinery, power and its sequences, the heartbeat's watchdog, PERST
and what the redundancy unit keeps. -/
structure Steady where
  regs : Nat → Word
  rst : RstSt
  off : Bool
  pwr : PwrSt
  hbAlive : Bool
  perst : Bool
  thm : ThmSt
  hotDue : Nat → Bool
  red : RedSt

def State.steady (s : State) : Steady where
  regs k := if steadyKey k then s.reg k else 0
  rst := s.rst
  off := s.off
  pwr := s.pwr
  hbAlive := s.tck.hbAlive
  perst := s.bus.perst
  thm := s.thm
  hotDue i := decide (i < 0x10000) && s.isDue pTHM i
  red := s.red.unserved

theorem steadyKey_eq_false {k : Nat} (hpage : k / 0x1000 ∉ steadyPages) (hreg : k ∉ steadyRegs) (hthm : k ≠ cReg pTHM OFF_INT_STAT) :
    steadyKey k = false := by
  rw [steadyKey, List.contains_eq_mem, List.contains_eq_mem, decide_eq_false hpage, decide_eq_false hreg, Bool.or_false,
    Bool.and_false, Bool.false_or, beq_eq_false_iff_ne.2 hthm]

theorem steadyKey_of_le {k : Nat} (h : 0x04009108 ≤ k) : steadyKey k = false := by
  apply steadyKey_eq_false <;> simp only [steadyPages, steadyRegs, Reg.FLT_CTRL, Reg.FLT_STAT, Reg.FLT_SEVERE,
    Reg.FLT_SEVERE_ADDR, Reg.FLT_ECC, Reg.NVM_STAT, Reg.NVM_GATED, List.mem_cons, List.not_mem_nil, or_false, cReg, pTHM,
    OFF_INT_STAT] <;> omega

theorem steadyKey_of_flt {k : Nat} (hlo : 0x0400611C ≤ k) (hhi : k < 0x04007000) : steadyKey k = false := by
  apply steadyKey_eq_false <;> simp only [steadyPages, steadyRegs, Reg.FLT_CTRL, Reg.FLT_STAT, Reg.FLT_SEVERE,
    Reg.FLT_SEVERE_ADDR, Reg.FLT_ECC, Reg.NVM_STAT, Reg.NVM_GATED, List.mem_cons, List.not_mem_nil, or_false, cReg, pTHM,
    OFF_INT_STAT] <;> omega

theorem steadyKey_cReg {page off : Nat} (h : off < 0x100) (hthm : page ≠ pTHM ∨ off ≠ OFF_INT_STAT) :
    steadyKey (cReg page off) = false := by
  have hne : cReg page off ≠ cReg pTHM OFF_INT_STAT := by unfold cReg pTHM OFF_INT_STAT at *; omega
  rw [steadyKey, beq_eq_false_iff_ne.2 hne, Bool.or_false, Bool.and_eq_false_iff, decide_eq_false_iff_not]
  left
  unfold cReg
  omega

theorem steadyKey_atInst {r : Nat} (n : Nat) (h : 0x04009108 ≤ r) : steadyKey (atInst r n) = false :=
  steadyKey_of_le (h.trans (Nat.le_add_right ..))

theorem steadyKey_fltPend {page : Nat} (h : page < 0x4000) : steadyKey (pageWord Reg.FLT_PEND page) = false := by
  refine steadyKey_of_flt (?_ : 0x0400611C ≤ 0x04006120 + 4 * (page / 32)) (?_ : 0x04006120 + 4 * (page / 32) < _) <;> omega

theorem State.reg_of_steady {s t : State} (h : t.steady = s.steady) {k : Nat} (hk : steadyKey k = true) : t.reg k = s.reg k := by
  have hview := congrFun (congrArg Steady.regs h) k
  simp only [steady] at hview
  rwa [if_pos hk, if_pos hk] at hview

theorem State.perst_of_steady {s t : State} (h : t.steady = s.steady) : t.bus.perst = s.bus.perst := congrArg Steady.perst h

theorem State.steady_congr {s t : State} (hreg : ∀ k, steadyKey k = true → t.reg k = s.reg k) (hrst : t.rst = s.rst)
    (hoff : t.off = s.off) (hpwr : t.pwr = s.pwr) (htck : t.tck = s.tck) (hperst : t.bus.perst = s.bus.perst)
    (hthm : t.thm = s.thm) (hdue : t.flt.due = s.flt.due) (hred : t.red = s.red) : t.steady = s.steady := by
  simp only [steady, isDue, hrst, hoff, hpwr, htck, hperst, hthm, hdue, hred, Steady.mk.injEq, and_true]
  refine funext fun k => ?_
  split
  · next hk => exact hreg k hk
  · rfl

/-! ### Registers and interrupts -/

theorem State.steady_setReg (s : State) {k : Nat} (v : Word) (h : steadyKey k = false) : (s.setReg k v).steady = s.steady :=
  steady_congr (fun j hj => reg_setReg_other _ _ fun hjk => by rw [hjk, h] at hj; cases hj) rfl rfl rfl rfl rfl rfl rfl rfl

theorem State.steady_setRegN (s : State) {k : Nat} (v : Nat) (h : steadyKey k = false) : (s.setRegN k v).steady = s.steady :=
  s.steady_setReg _ h

theorem State.steady_setFld (s : State) {k : Nat} (lo len v : Nat) (h : steadyKey k = false) :
    (s.setFld k lo len v).steady = s.steady :=
  s.steady_setReg _ h

theorem State.steady_setBit (s : State) {k : Nat} (i : Nat) (b : Bool) (h : steadyKey k = false) :
    (s.setBit k i b).steady = s.steady :=
  s.steady_setReg _ h

theorem State.steady_bump (s : State) {k : Nat} (lo len n : Nat) (h : steadyKey k = false) : (s.bump k lo len n).steady = s.steady :=
  s.steady_setReg _ h

theorem State.steady_count (s : State) {k : Nat} (h : steadyKey k = false) : (s.count k).steady = s.steady :=
  s.steady_setReg _ h

theorem State.steady_setReg64 (s : State) {k : Nat} (v : Nat) (h : steadyKey k = false) (h4 : steadyKey (k + 4) = false) :
    (s.setReg64 k v).steady = s.steady := by
  rw [setReg64, steady_setRegN _ _ h4, steady_setRegN _ _ h]

theorem State.steady_foldl {α : Type} (f : State → α → State) (l : List α) (s : State)
    (h : ∀ s, ∀ a ∈ l, (f s a).steady = s.steady) : (l.foldl f s).steady = s.steady :=
  List.foldlRecOn (motive := fun t => t.steady = s.steady) l f rfl fun t ht a ha => (h t a ha).trans ht

theorem State.steady_ite {c : Prop} [Decidable c] {s t u : State} (ht : t.steady = s.steady) (hu : u.steady = s.steady) :
    (if c then t else u).steady = s.steady := by
  split
  · exact ht
  · exact hu

theorem State.afterRise_perst (a s : State) (page : Nat) : (State.afterRise a s page).bus.perst = s.bus.perst := by
  unfold afterRise
  dsimp only
  split <;> split <;> rfl

theorem State.steady_afterRise (a s : State) {page : Nat} (hp : page < 0x4000) : (State.afterRise a s page).steady = s.steady :=
  steady_congr (fun k hk => reg_afterRise a s (fun h => by rw [h, steadyKey_fltPend hp] at hk; cases hk)
    (fun h => by rw [h, steadyKey_cReg (page := 6) (by decide) (by decide)] at hk; cases hk)) (afterRise_rst ..) (afterRise_off ..) (afterRise_pwr ..) (afterRise_tck ..)
    (afterRise_perst ..) (afterRise_thm ..) (congrArg FltSt.due (afterRise_flt ..)) (afterRise_red ..)

theorem State.steady_withSummary (s : State) {page : Nat} (f : State → State) (hp : page < 0x4000)
    (hf : (f s).steady = s.steady) : (s.withSummary page f).steady = s.steady := by
  unfold withSummary
  dsimp only
  split
  · rw [steady_afterRise _ _ hp, hf]
  · rw [steady_afterRise _ _ (by decide), steady_afterRise _ _ hp, hf]

theorem State.steady_raise (s : State) {page : Nat} (i : Nat) (hp : page < 0x4000 ∧ page ≠ pTHM) : (s.raise page i).steady = s.steady :=
  have ⟨hlt, hthm⟩ := hp
  s.steady_withSummary _ hlt (s.steady_setBit _ _ (steadyKey_cReg (by decide) (.inl hthm)))

theorem State.steady_raiseIf (s : State) (c : Bool) {page : Nat} (i : Nat) (hp : page < 0x4000 ∧ page ≠ pTHM) :
    (s.raiseIf c page i).steady = s.steady :=
  steady_ite (s.steady_raise i hp) rfl

theorem State.steady_logEvent (s : State) (page cls code hi lo : Nat) : (s.logEvent page cls code hi lo).steady = s.steady := by
  have hptr : steadyKey Reg.FLT_HIST_PTR = false := by decide
  have hn : s.fld Reg.FLT_HIST_PTR 0 5 < 32 := fld_lt ..
  have hentry : ∀ i, i < 32 → steadyKey (Reg.FLT_HIST + 32 * s.fld Reg.FLT_HIST_PTR 0 5 + i) = false := fun i hi =>
    steadyKey_of_flt (show 0x0400611C ≤ 0x04006400 + 32 * s.fld Reg.FLT_HIST_PTR 0 5 + i by omega)
      (show 0x04006400 + 32 * s.fld Reg.FLT_HIST_PTR 0 5 + i < 0x04007000 by omega)
  have hfirst : steadyKey (Reg.FLT_HIST + 32 * s.fld Reg.FLT_HIST_PTR 0 5) = false := hentry 0 (by decide)
  unfold logEvent
  dsimp only
  rw [steady_raise _ _ (by decide)]
  refine (steady_ite (steady_bump _ _ _ _ hptr) rfl).trans ?_
  rw [steady_setBit _ _ _ hptr, steady_setFld _ _ _ _ hptr, steady_setRegN _ _ (hentry 28 (by decide)),
    steady_setRegN _ _ (hentry 24 (by decide)), steady_setRegN _ _ (hentry 20 (by decide)),
    steady_setRegN _ _ (hentry 16 (by decide)), steady_setReg64 _ _ (hentry 8 (by decide)) (hentry 12 (by decide)),
    steady_setReg64 _ _ hfirst (hentry 4 (by decide))]

theorem State.steady_notDue (s : State) {page : Nat} (c : Nat) (hp : pTHM < page) : (s.notDue page c).steady = s.steady := by
  simp only [steady, notDue, isDue, Steady.mk.injEq, and_true, true_and]
  refine ⟨rfl, funext fun i => ?_⟩
  by_cases hi : i < 0x10000
  · have hother : chan pTHM i ≠ chan page c := by unfold chan pTHM at *; omega
    rw [decide_eq_true hi, Bool.true_and, Bool.true_and, Bool.eq_iff_iff, List.contains_iff_mem, List.contains_iff_mem,
      List.mem_filter]
    exact ⟨fun h => h.1, fun h => ⟨h, bne_iff_ne.2 hother⟩⟩
  · rw [decide_eq_false hi, Bool.false_and, Bool.false_and]

theorem State.steady_retire (s : State) {page : Nat} (c code synHi : Nat) (hp : page < 0x4000 ∧ pTHM < page) :
    (s.retire page c code synHi).steady = s.steady := by
  obtain ⟨hlt, hthm⟩ := hp
  refine steady_ite (s.steady_notDue c hthm) ?_
  dsimp only
  rw [steady_logEvent, steady_bump _ _ _ _ (steadyKey_cReg (by decide) (.inr (by decide))), steady_withSummary _ _ hlt rfl]
  exact s.steady_notDue c hthm

/-! ### Memory -/

theorem State.steady_putBytes (s : State) (a : Nat) (l : List Byte) : (s.putBytes a l).steady = s.steady := by
  induction l generalizing s a with
  | nil => rfl
  | cons b t ih => exact (ih (s.setByte a b) (a + 1)).trans rfl

theorem State.steady_setBytes (s : State) (a : Nat) (l : List Byte) : (s.setBytes a l).steady = s.steady := by
  unfold setBytes journalMem
  refine Eq.trans ?_ (s.steady_putBytes a l)
  exact steady_ite (steady_foldl _ _ _ fun _ _ _ => rfl) rfl

theorem State.steady_storeN (s : State) (a n v : Nat) : (s.storeN a n v).steady = s.steady := s.steady_setBytes ..

theorem State.steady_nvmCount (s : State) (n : Nat) : (s.nvmCount n).steady = s.steady := s.steady_bump _ _ _ (by decide)

/-! ### The control of the tick (R55, R57) -/

theorem State.steady_showChange (s : State) (n : Nat) : (s.showChange n).steady = s.steady := by
  unfold showChange
  dsimp only
  rw [steady_setBit _ _ _ (steadyKey_atInst n (by decide))]
  split
  · rw [steady_setReg _ _ (steadyKey_atInst n (by decide)), steady_setRegN _ _ (steadyKey_atInst n (by decide))]
  · exact s.steady_setBit _ _ (steadyKey_atInst n (by decide))

theorem pBYV_lt_pages {n : Nat} (hn : n < 16) : pBYV n < 0x4000 ∧ pBYV n ≠ pTHM := by
  unfold pBYV pTHM
  omega

theorem State.steady_announce (s : State) {n : Nat} (t : Tick) (lanes : Nat) (tck : Bool) (hn : n < 16) :
    (s.announce n t lanes tck).steady = s.steady := by
  unfold announce
  dsimp only
  rw [steady_raise _ _ (pBYV_lt_pages hn), steady_showChange]
  rfl

theorem State.steady_withdrawTck (s : State) (k : Tick) : (s.withdrawTck k).steady = s.steady := by
  refine steady_foldl _ _ _ fun t n hn => steady_ite ?_ rfl
  exact (steady_announce _ _ _ _ (List.mem_range.1 hn)).trans (steady_ite rfl rfl)

theorem State.steady_tckCancel (s : State) : s.tckCancel.steady = s.steady := by
  unfold tckCancel
  dsimp only
  rw [steady_raiseIf _ _ _ (by decide), setTransition, steady_setBit _ _ _ (by decide)]
  exact (s.dropCommit pTCK).steady_setRegN _ (by decide)

theorem State.steady_tckWatch (s : State) : s.tckWatch.steady = s.steady := by
  unfold tckWatch
  split
  · refine steady_ite ?_ rfl
    rw [steady_withdrawTck, steady_tckCancel]
    exact steady_ite rfl rfl
  · rfl

theorem State.steady_stopWatch (s : State) : s.stopWatch.steady = s.steady := by
  unfold stopWatch
  split
  · rfl
  · exact steady_ite rfl (steady_setRegN _ _ (by decide))

/-! ### A calibration pass and the solver's jobs end (R237, R300) -/

theorem State.steady_passEnd (s : State) (p : CalPass) : (s.passEnd p).steady = s.steady := by
  unfold passEnd
  dsimp only
  rw [steady_raise _ _ (by decide), steady_setFld _ _ _ _ (by decide), steady_setFld _ _ _ _ (by decide),
    steady_setFld _ _ _ _ (by decide), steady_setRegN _ _ (by decide)]
  refine Eq.trans (steady_foldl _ _ _ fun _ _ _ => rfl) ?_
  exact steady_foldl _ _ _ fun _ _ _ => steady_ite rfl rfl

theorem State.steady_calAbort (s : State) : s.calAbort.steady = s.steady := by
  unfold calAbort
  split
  · rfl
  · exact s.steady_passEnd _

theorem steadyKey_jobReg (j w : Nat) : steadyKey (jobReg j w) = false := by
  refine steadyKey_of_le (Nat.le_trans ?_ (Nat.le_trans (Nat.le_add_right _ (32 * j)) (Nat.le_add_right _ (4 * w))))
  decide

theorem State.steady_rsvShow (s : State) : s.rsvShow.steady = s.steady := by
  have hstat : steadyKey Reg.RSV_STAT = false := by decide
  unfold rsvShow
  dsimp only
  rw [steady_setFld _ _ _ _ hstat]
  split
  · rw [steady_setFld _ _ _ _ hstat]
    split
    · rw [steady_setFld _ _ _ _ hstat, steady_setBit _ _ _ hstat, steady_setBit _ _ _ hstat]
    · rw [steady_setBit _ _ _ hstat, steady_setBit _ _ _ hstat]
  · split
    · rw [steady_setFld _ _ _ _ hstat, steady_setBit _ _ _ hstat, steady_setBit _ _ _ hstat]
    · rw [steady_setBit _ _ _ hstat, steady_setBit _ _ _ hstat]

theorem State.steady_jobFinish (s : State) (slot res count cycles : Nat) (stale : Bool) :
    (s.jobFinish slot res count cycles stale).steady = s.steady := by
  unfold jobFinish
  dsimp only
  rw [steady_raiseIf _ _ _ (by decide), steady_raiseIf _ _ _ (by decide), steady_raise _ _ (by decide), steady_rsvShow]
  refine Eq.trans (steady_setRegN _ _ (by decide)) (Eq.trans (steady_ite (steady_bump _ _ _ _ (by decide)) rfl) ?_)
  rw [steady_bump _ _ _ _ (by decide), steady_setBit _ _ _ (by decide), steady_setRegN _ _ (steadyKey_jobReg ..),
    steady_setRegN _ _ (steadyKey_jobReg ..), steady_setRegN _ _ (steadyKey_jobReg ..)]

theorem State.steady_jobCancel (s : State) (j cycles : Nat) : (s.jobCancel j cycles).steady = s.steady := by
  unfold jobCancel
  dsimp only
  generalize [s.rsv.run, s.rsv.susp].filterMap _ = started
  cases s.jobBusy j with
  | false => rfl
  | true =>
    cases started with
    | nil => exact (steady_raise _ _ (by decide)).trans (s.steady_jobFinish ..)
    | cons x l =>
      refine steady_ite rfl (Eq.trans (steady_raise _ _ (by decide)) ((steady_jobFinish ..).trans (steady_ite rfl ?_)))
      exact s.steady_setBytes ..

theorem State.steady_jobCancelAll (s : State) (cycles : Nat) : (s.jobCancelAll cycles).steady = s.steady :=
  steady_foldl _ _ _ fun s j _ => s.steady_jobCancel j cycles

/-! ### Queues and buffers (R331 to R337) -/

theorem steadyKey_portCnt (n i : Nat) : steadyKey (atInst Reg.PORT_CNT n + i) = false :=
  steadyKey_of_le (Nat.le_add_right_of_le ((by decide : 0x04009108 ≤ Reg.PORT_CNT).trans (Nat.le_add_right ..)))

theorem State.steady_portCount (s : State) (n i : Nat) : (s.portCount n i).steady = s.steady :=
  steady_ite (steady_count _ (steadyKey_portCnt n (4 * i))) rfl

theorem State.steady_sendPause (s : State) (n quanta : Nat) : (s.sendPause n quanta).steady = s.steady := by
  unfold sendPause
  dsimp only
  split
  · rfl
  · exact (steady_portCount ..).trans rfl

theorem State.steady_pauseXoff (s : State) (n : Nat) (on : Bool) : (s.pauseXoff n on).steady = s.steady :=
  (steady_sendPause ..).trans (steady_setBit _ _ _ (steadyKey_atInst n (by decide)))

theorem State.steady_xoffChange (s : State) (p : Nat) (on : Bool) : (s.xoffChange p on).steady = s.steady :=
  steady_foldl _ _ _ fun s n _ => s.steady_pauseXoff n on

theorem steadyKey_poolStat (p : Nat) : steadyKey (Reg.BPM_POOL_STAT + 4 * p) = false :=
  steadyKey_of_le (Nat.le_add_right_of_le (by decide))

theorem State.steady_poolStates (s : State) (p : Nat) : (s.poolStates p).steady = s.steady := by
  have hkey := steadyKey_poolStat p
  unfold poolStates
  dsimp only
  refine (steady_ite (steady_xoffChange ..) rfl).trans ?_
  rw [steady_raiseIf _ _ _ (by decide), steady_setBit _ _ _ hkey, steady_setBit _ _ _ hkey, steady_setBit _ _ _ hkey]

theorem State.steady_setUse (s : State) (p n : Nat) : (s.setUse p n).steady = s.steady :=
  (steady_poolStates ..).trans (steady_setFld _ _ _ _ (steadyKey_poolStat p))

theorem State.steady_unbuf (s : State) (h : Nat) : (s.unbuf h).steady = s.steady :=
  steady_ite ((steady_setUse ..).trans rfl) rfl

theorem State.steady_freeChain (s : State) (l : List Nat) : (s.freeChain l).steady = s.steady :=
  steady_foldl _ _ _ fun s h _ => s.steady_unbuf h

theorem State.steady_release (s : State) (n : Nat) (f : QFrame) : (s.release n f).steady = s.steady := by
  unfold release
  refine steady_ite (s.steady_freeChain _) ?_
  dsimp only
  refine Eq.trans (steady_ite (steady_freeChain ..) rfl) (steady_ite rfl rfl)

theorem State.steady_txClose (s : State) (d : Nat × Nat) (ts : BitVec 96) (status : Nat) :
    (s.txClose d ts status).steady = s.steady := by
  unfold txClose
  dsimp only
  rw [txHead, steady_setFld _ _ _ _ (by decide), steady_raiseIf _ _ _ (by decide), steady_raise _ _ (by decide),
    steady_count _ (steadyKey_of_le (Nat.le_add_right_of_le (by decide)))]
  rfl

theorem State.steady_endDesc (s : State) (f : QFrame) (status : Option Nat) : (s.endDesc f status).steady = s.steady := by
  unfold endDesc
  split
  · rfl
  · split
    · exact s.steady_txClose ..
    · exact (steady_txClose ..).trans rfl

theorem State.steady_dropFrame (s : State) (n : Nat) (f : QFrame) (status : Option Nat) :
    (s.dropFrame n f status).steady = s.steady :=
  (steady_endDesc ..).trans (steady_release ..)

theorem State.steady_emptyQueues (s : State) (n : Nat) (status : Option Nat) : (s.emptyQueues n status).steady = s.steady :=
  steady_foldl _ _ _ fun _ _ _ => (steady_foldl _ _ _ fun s f _ => s.steady_dropFrame n f status).trans rfl

theorem State.steady_gatePorts (s : State) : s.gatePorts.steady = s.steady := by
  refine steady_foldl _ _ _ fun s n _ => steady_ite rfl ?_
  dsimp only
  rw [steady_bump _ _ _ _ (steadyKey_portCnt n 60), steady_emptyQueues]
  rfl

theorem State.steady_actsNoMore (s : State) : s.actsNoMore.steady = s.steady :=
  (steady_gatePorts _).trans ((steady_jobCancelAll ..).trans rfl)

end Sys2Proof.Machine
end

section
/-! PROOFS. A change of role: what it leaves, and the reports that the end of the solver's jobs writes (R237, R405 to R410). -/

namespace Sys2Proof.Machine

/-! ### The solver's jobs are cancelled, in their pass or not (R237) -/

/-- What a cancellation does to slot `j`, whether or not its job is in its pass. -/
theorem State.jobCancel_cases (s : State) (j cycles : Nat) : s.jobCancel j cycles = s ∨
    ∃ u k stale, OnlyMem s u ∧ SameMemOff s u (s.cancelReports j) ∧
      (s.jobCancel j cycles = (u.jobFinish j 9 0 k stale).raise pRSV 5 ∨
        s.jobCancel j cycles = ((u.jobFinish j 9 0 k stale).raise pRSV 5).resetMaster 6) := by
  unfold jobCancel
  rw [started_eq]
  cases s.jobBusy j with
  | false => exact .inl rfl
  | true =>
    cases hstarted : s.startedJobs.filter (·.slot == j) with
    | nil => exact .inr ⟨s, 0, false, .refl s, fun _ _ => rfl, .inl rfl⟩
    | cons x l =>
      obtain ⟨hx, hslot⟩ := List.mem_filter.1 (hstarted ▸ List.mem_cons_self : x ∈ s.startedJobs.filter (·.slot == j))
      have hreport : s.cancelReports j = [(recAddr (s.jobReport j), 4096)] := if_pos (List.any_eq_true.2 ⟨x, hx, hslot⟩)
      dsimp only
      rw [hreport]
      split
      · exact .inl rfl
      · right
        split
        · exact ⟨s, cycles, x.stale, .refl s, fun _ _ => rfl, .inr rfl⟩
        · refine ⟨s.putReport x 9 [] none, cycles, x.stale, s.onlyMem_putReport .., ?_, .inr rfl⟩
          rw [← beq_iff_eq.1 hslot]
          exact (s.sameMemOut_putReport x 9 [] none).memOff (.head _)

/-- Of a state `s`, in `u` nothing but reports of started jobs has been written, and no job has started. -/
structure OnlyReports (s u : State) : Prop where
  report : ∀ j, u.jobReport j = s.jobReport j
  started : u.startedJobs ⊆ s.startedJobs
  mem : SameMemOff s u s.jobReports

theorem OnlyReports.refl (s : State) : OnlyReports s s := ⟨fun _ => rfl, List.Subset.refl _, fun _ _ => rfl⟩

theorem OnlyReports.jobReports_subset {s u : State} (h : OnlyReports s u) : u.jobReports ⊆ s.jobReports := by
  intro r hr
  obtain ⟨x, hx, rfl⟩ := List.mem_map.1 hr
  rw [h.report]
  exact List.mem_map.2 ⟨x, h.started hx, rfl⟩

theorem OnlyReports.trans {s u t : State} (h : OnlyReports s u) (h' : OnlyReports u t) : OnlyReports s t where
  report j := (h'.report j).trans (h.report j)
  started := List.Subset.trans h'.started h.started
  mem := h.mem.trans fun a ha => h'.mem a fun r hr => ha r (h.jobReports_subset hr)

/-- Nothing that the solver's jobs and their reports rest on has changed. -/
theorem OnlyReports.of_eq {s u : State} (hrsv : u.rsv = s.rsv) (hmem : u.mem = s.mem)
    (hreg : ∀ j, u.reg (jobReg j 3) = s.reg (jobReg j 3)) : OnlyReports s u where
  report j := State.fld_of_reg (hreg j) 0 13
  started := by rw [State.startedJobs, hrsv]; exact List.Subset.refl _
  mem _ _ := State.byte_of_mem hmem _

theorem State.cancelReports_subset (s : State) (j : Nat) : s.cancelReports j ⊆ s.jobReports := by
  unfold cancelReports
  split
  · next hstarted =>
      obtain ⟨x, hx, hslot⟩ := List.any_eq_true.1 hstarted
      rw [← beq_iff_eq.1 hslot]
      exact List.cons_subset.2 ⟨List.mem_map.2 ⟨x, hx, rfl⟩, List.nil_subset _⟩
  · exact List.nil_subset _

theorem State.onlyReports_jobCancel (s : State) {j : Nat} (cycles : Nat) (hj : j < 32) : OnlyReports s (s.jobCancel j cycles) := by
  obtain hsame | ⟨u, k, stale, honly, hmem, hcancel⟩ := s.jobCancel_cases j cycles
  · rw [hsame]
    exact .refl s
  · have hend := ((u.jobFinish_ends 0 k stale hj (by decide : 9 < 16)).of_onlyMem honly).raise (i := 5) (by decide)
    have hkept := hmem.of_mem ((raise_mem _ pRSV 5).trans (u.jobFinish_mem j 9 0 k stale))
    have hall : OnlyReports s ((u.jobFinish j 9 0 k stale).raise pRSV 5) :=
      ⟨fun i => fld_of_reg (hend.apart i 3 (by decide) (.inr (by decide))) 0 13, hend.started,
        fun a ha => hkept a fun r hr => ha r (s.cancelReports_subset j hr)⟩
    obtain hcancel | hcancel := hcancel
    · rw [hcancel]
      exact hall
    · rw [hcancel]
      exact ⟨hall.report, hall.started, hall.mem⟩

theorem State.onlyReports_jobCancelAll (s : State) (cycles : Nat) : OnlyReports s (s.jobCancelAll cycles) :=
  List.foldlRecOn (motive := fun u => OnlyReports s u) (List.range 32) _ (.refl s) fun u hu _ hj =>
    hu.trans (u.onlyReports_jobCancel cycles (List.mem_range.1 hj))

/-! ### A calibration pass ends -/

theorem State.passEnd_rsv (s : State) (p : CalPass) : (s.passEnd p).rsv = s.rsv := by
  unfold passEnd
  dsimp only
  rw [raise_rsv]
  refine Eq.trans (List.foldlRecOn (motive := fun u : State => u.rsv = (s.calGiveBack p).1.rsv) _ _ rfl fun _ h _ _ => h) ?_
  exact List.foldlRecOn (motive := fun u : State => u.rsv = s.rsv) _ _ rfl fun u h e _ => by
    split
    · exact h
    · exact h

theorem State.reg_passEnd (s : State) (p : CalPass) {k : Nat} (hk : k ∉ [Reg.CAL_RES_SUM, Reg.CAL_STAT] ++ raiseKeys pCAL) :
    (s.passEnd p).reg k = s.reg k := by
  simp only [List.mem_append, not_or, List.mem_cons, List.not_mem_nil, or_false] at hk
  obtain ⟨⟨hsum, hstat⟩, hraise⟩ := hk
  unfold passEnd
  dsimp only
  rw [reg_raise _ hraise, reg_setFld, if_neg hstat, reg_setFld, if_neg hstat, reg_setFld, if_neg hstat, reg_setRegN, if_neg hsum]
  refine Eq.trans (List.foldlRecOn (motive := fun u : State => u.reg k = (s.calGiveBack p).1.reg k) _ _ rfl fun _ h _ _ => h) ?_
  exact List.foldlRecOn (motive := fun u : State => u.reg k = s.reg k) _ _ rfl fun u h e _ => by
    split
    · exact h
    · exact h

theorem State.calAbort_rsv (s : State) : s.calAbort.rsv = s.rsv := by
  unfold calAbort
  split
  · rfl
  · exact s.passEnd_rsv _

theorem State.reg_calAbort (s : State) {k : Nat} (hk : k ∉ [Reg.CAL_RES_SUM, Reg.CAL_STAT] ++ raiseKeys pCAL) :
    s.calAbort.reg k = s.reg k := by
  unfold calAbort
  split
  · rfl
  · exact s.reg_passEnd _ hk

/-- The word that names a job's report is none of the registers that the end of a calibration pass writes. -/
theorem jobReg_notMem_cal (j : Nat) : jobReg j 3 ∉ [Reg.CAL_RES_SUM, Reg.CAL_STAT] ++ raiseKeys pCAL := by
  have hmod : jobReg j 3 % 32 = 12 := by
    unfold jobReg Reg.RSV_JOB_W0
    omega
  intro hmem
  have hall : ∀ k ∈ [Reg.CAL_RES_SUM, Reg.CAL_STAT] ++ raiseKeys pCAL, k % 32 ≠ 12 := by decide
  exact hall _ hmem hmod

/-! ### The role changes (R405) -/

/-- The role and whether it acts are shown. -/
def State.roleShown (s : State) (r : Nat) : State :=
  ((s.setFld Reg.RED_ROLE 0 3 r).setBit Reg.RED_STAT 2 (r == 0 || r == 1)).setBit Reg.RED_ROLE 4 (s.role == 1 && r == 2)

/-- What a change to role `r` ends before the solver's jobs and the frames of the ports: the service of a Trapeze, the count of
missing frames and a calibration pass. -/
def State.roleEnds (s : State) (r : Nat) : State :=
  let t := s.roleShown r
  let t := if s.role = 1 then t.serveStop false else t
  let t := if r = 2 then t else { t with red := { t.red with missRun := 0 } }
  if s.role = 0 then t.calAbort else t

theorem State.setRole_of_ne {s : State} {r : Nat} (h : s.role ≠ r) :
    s.setRole r = ((if s.role ≤ 1 ∧ 1 < r then (s.roleEnds r).actsNoMore else s.roleEnds r).stopWatch.tckWatch).raise pRED 0 :=
  if_neg h

/-- The role is shown, and the count of missing digests starts again but in role standby-synced. -/
def State.roleSettled (s : State) (r : Nat) : State :=
  { s.roleShown r with red := { s.red with missRun := if r = 2 then s.red.missRun else 0 } }

theorem State.steady_roleEnds (s : State) (r : Nat) : (s.roleEnds r).steady = (s.roleSettled r).steady := by
  have hend (t : State) : (if s.role = 0 then t.calAbort else t).steady = t.steady := steady_ite (steady_calAbort t) rfl
  unfold roleEnds roleSettled
  dsimp only
  rw [hend]
  split
  · split <;> rfl
  · split <;> rfl

theorem State.steady_setRole {s : State} {r : Nat} (h : s.role ≠ r) : (s.setRole r).steady = (s.roleSettled r).steady := by
  rw [setRole_of_ne h, steady_raise _ _ (by decide), steady_tckWatch, steady_stopWatch]
  split
  · rw [steady_actsNoMore, steady_roleEnds]
  · exact s.steady_roleEnds r

theorem State.reg_roleShown (s : State) (r : Nat) {k : Nat} (hk : k ∉ [Reg.RED_ROLE, Reg.RED_STAT]) :
    (s.roleShown r).reg k = s.reg k := by
  simp only [List.mem_cons, List.not_mem_nil, or_false, not_or] at hk
  rw [roleShown, reg_setBit, if_neg hk.1, reg_setBit, if_neg hk.2, reg_setFld, if_neg hk.1]

theorem State.reg_roleSettled (s : State) (r k : Nat) : (s.roleSettled r).reg k = (s.roleShown r).reg k := rfl

/-- A change of role leaves the registers of these pages but for RED_ROLE and RED_STAT. -/
theorem State.reg_setRole (s : State) (r : Nat) {k : Nat} (hk : steadyKey k = true) (hrole : k ∉ [Reg.RED_ROLE, Reg.RED_STAT]) :
    (s.setRole r).reg k = s.reg k := by
  by_cases h : s.role = r
  · rw [setRole, if_pos h]
  · rw [reg_of_steady (steady_setRole h) hk, reg_roleSettled, s.reg_roleShown r hrole]

/-- Of RED_STAT a change of role changes bit 2 only. -/
theorem State.bit_setRole (s : State) (r : Nat) {i : Nat} (hi : i ≠ 2) :
    (s.setRole r).bit Reg.RED_STAT i = s.bit Reg.RED_STAT i := by
  by_cases h : s.role = r
  · rw [setRole, if_pos h]
  · rw [bit_of_reg (reg_of_steady (steady_setRole h) (by decide)), bit_of_reg (reg_roleSettled ..), roleShown]
    rw [setBit, setFld, bit_setReg_other _ _ _ (by decide), bit_setBit _ _ _ _ (by decide), if_neg fun h => hi h.2]
    exact bit_setReg_other _ _ _ (by decide)

theorem State.pwr_setRole (s : State) (r : Nat) : (s.setRole r).pwr = s.pwr := by
  by_cases h : s.role = r
  · rw [setRole, if_pos h]
  · exact congrArg Steady.pwr (steady_setRole h)

theorem State.hbAlive_setRole (s : State) (r : Nat) : (s.setRole r).tck.hbAlive = s.tck.hbAlive := by
  by_cases h : s.role = r
  · rw [setRole, if_pos h]
  · exact congrArg Steady.hbAlive (steady_setRole h)

/-- Beside the service of a Trapeze, a change of role concerns one count of the redundancy unit. -/
theorem State.red_setRole (s : State) (r : Nat) :
    (s.setRole r).red.unserved = { s.red.unserved with missRun := (s.setRole r).red.missRun } := by
  by_cases h : s.role = r
  · rw [setRole, if_pos h]
    rfl
  · have hred : (s.setRole r).red.unserved = { s.red with missRun := if r = 2 then s.red.missRun else 0 }.unserved :=
      congrArg Steady.red (steady_setRole h)
    have hmiss : (s.setRole r).red.missRun = if r = 2 then s.red.missRun else 0 := congrArg RedSt.missRun hred
    rw [hred, hmiss]
    rfl

theorem State.missRun_setRole {s : State} (h : s.red.missRun = 0) (r : Nat) : (s.setRole r).red.missRun = 0 := by
  by_cases hr : s.role = r
  · rw [setRole, if_pos hr, h]
  · have hred : (s.setRole r).red.unserved = { s.red with missRun := if r = 2 then s.red.missRun else 0 }.unserved :=
      congrArg Steady.red (steady_setRole hr)
    exact (congrArg RedSt.missRun hred).trans (by rw [h]; exact ite_self 0)

theorem State.claimFrom_setRole (s : State) (r : Nat) : (s.setRole r).red.claimFrom = s.red.claimFrom :=
  (congrArg RedSt.claimFrom (s.red_setRole r) :)

/-! ### What a change of role writes into memory -/

theorem State.onlyReports_roleEnds (s : State) (r : Nat) : OnlyReports s (s.roleEnds r) := by
  have hshown (j : Nat) : (s.roleShown r).reg (jobReg j 3) = s.reg (jobReg j 3) :=
    s.reg_roleShown r (jobReg_not_mem j 3 (by decide))
  have hquiet : ∀ u : State, u.rsv = s.rsv → u.mem = s.mem → (∀ j, u.reg (jobReg j 3) = s.reg (jobReg j 3)) →
      OnlyReports s (if s.role = 0 then u.calAbort else u) := fun u hrsv hmem hreg => by
    split
    · exact .of_eq ((calAbort_rsv _).trans hrsv) (u.calAbort_frame.2.2.trans hmem)
        fun j => (reg_calAbort _ (jobReg_notMem_cal j)).trans (hreg j)
    · exact .of_eq hrsv hmem hreg
  unfold roleEnds
  dsimp only
  apply hquiet
  · split <;> split <;> rfl
  · split <;> split <;> rfl
  · intro j
    split <;> split <;> exact hshown j

theorem OnlyReports.sameMemButReports {s u t : State} (h : OnlyReports s u) (h' : SameMemButReports u t) : SameMemButReports s t :=
  h.mem.trans fun a ha => h' a fun r hr => ha r (h.jobReports_subset hr)

theorem State.sameMemButReports_actsNoMore (s : State) : SameMemButReports s s.actsNoMore :=
  (s.tick1.onlyReports_jobCancelAll _).mem.of_mem (gatePorts_frame _).2.2

/-- A change of role writes nothing into memory but reports of jobs that it cancels. -/
theorem State.sameMemButReports_setRole (s : State) (r : Nat) : SameMemButReports s (s.setRole r) := by
  by_cases h : s.role = r
  · rw [setRole, if_pos h]
    exact fun _ _ => rfl
  · have hends := s.onlyReports_roleEnds r
    rw [setRole_of_ne h]
    refine SameMemOff.of_mem ?_ ((raise_mem ..).trans ((tckWatch_frame _).2.2.trans (stopWatch_frame _).2.2))
    split
    · exact hends.sameMemButReports (sameMemButReports_actsNoMore _)
    · exact hends.mem

/-! ### The interlock is dropped (R410) -/

/-- The interlock's output and the end of a claim, before the role changes. -/
def State.ilkDropped (s : State) : State :=
  let t := (s.setBit Reg.RED_STAT 0 false).setBit Reg.RED_STAT 4 false
  { t with red := { t.red with claimFrom := none, roleAt := none, release := false } }

theorem State.dropInterlock_eq (s : State) : s.dropInterlock = if s.ilkDropped.roleActs then s.ilkDropped.setRole 3 else s.ilkDropped :=
  rfl

theorem State.reg_ilkDropped (s : State) {k : Nat} (hk : k ≠ Reg.RED_STAT) : s.ilkDropped.reg k = s.reg k := by
  change ((s.setBit Reg.RED_STAT 0 false).setBit Reg.RED_STAT 4 false).reg k = s.reg k
  rw [reg_setBit, if_neg hk, reg_setBit, if_neg hk]

theorem State.ilkOut_ilkDropped (s : State) : s.ilkDropped.ilkOut = false := by
  change ((s.setBit Reg.RED_STAT 0 false).setBit Reg.RED_STAT 4 false).bit Reg.RED_STAT 0 = false
  rw [bit_setBit _ _ _ _ (by decide), if_neg (by decide), bit_setBit_same _ _ _ (by decide)]

theorem State.ilkOut_dropInterlock (s : State) : s.dropInterlock.ilkOut = false := by
  rw [dropInterlock_eq]
  split
  · exact (bit_setRole _ 3 (by decide)).trans s.ilkOut_ilkDropped
  · exact s.ilkOut_ilkDropped

theorem State.reg_dropInterlock (s : State) {k : Nat} (hk : steadyKey k = true) (hrole : k ∉ [Reg.RED_ROLE, Reg.RED_STAT]) :
    s.dropInterlock.reg k = s.reg k := by
  have hdrop : s.ilkDropped.reg k = s.reg k := s.reg_ilkDropped fun h => hrole (h ▸ .tail _ (.head _))
  rw [dropInterlock_eq]
  split
  · exact (reg_setRole _ 3 hk hrole).trans hdrop
  · exact hdrop

theorem State.pwr_dropInterlock (s : State) : s.dropInterlock.pwr = s.pwr := by
  rw [dropInterlock_eq]
  split
  · exact pwr_setRole ..
  · rfl

theorem State.hbAlive_dropInterlock (s : State) : s.dropInterlock.tck.hbAlive = s.tck.hbAlive := by
  rw [dropInterlock_eq]
  split
  · exact hbAlive_setRole ..
  · rfl

theorem State.onlyReports_ilkDropped (s : State) : OnlyReports s s.ilkDropped :=
  .of_eq rfl rfl fun j => s.reg_ilkDropped (jobReg_ne_of_lt j 3 (by decide))

theorem State.sameMemButReports_dropInterlock (s : State) : SameMemButReports s s.dropInterlock := by
  have hdrop := s.onlyReports_ilkDropped
  rw [dropInterlock_eq]
  split
  · exact hdrop.mem.trans fun a ha => sameMemButReports_setRole _ 3 a fun r hr => ha r (hdrop.jobReports_subset hr)
  · exact hdrop.mem

/-! ### The watchdog's clock (R548) -/

theorem wdclkLoss_drops (s : State) : Completes .wdclkLoss s fun t => t.bit Reg.CLK_STAT 2 = false ∧ t.ilkOut = false ∧
    SameMemButReports s t := by
  have hlost : OnlyReports s (s.setBit Reg.CLK_STAT 2 false) :=
    .of_eq rfl rfl fun j => by rw [State.reg_setBit, if_neg (jobReg_ne_of_lt j 3 (by decide))]
  have hbit : (s.setBit Reg.CLK_STAT 2 false).bit Reg.CLK_STAT 2 = false := State.bit_setBit_same _ _ _ (by decide)
  refine ⟨_, rfl, ?_⟩
  dsimp only
  split
  · have hcount : OnlyReports (s.setBit Reg.CLK_STAT 2 false) ((s.setBit Reg.CLK_STAT 2 false).count (Reg.RED_CNT + 20)) :=
      .of_eq rfl rfl fun j => by rw [State.count, State.reg_bump, if_neg (jobReg_ne_of_lt j 3 (by decide))]
    refine ⟨?_, State.ilkOut_dropInterlock _, (hlost.trans hcount).sameMemButReports (State.sameMemButReports_dropInterlock _)⟩
    rw [State.bit_of_reg (State.reg_dropInterlock _ (by decide) (by decide)), State.count, State.bump, State.setFld,
      State.bit_setReg_other _ _ _ (by decide), hbit]
  · next hout => exact ⟨hbit, by rwa [Bool.not_eq_true] at hout, hlost.mem⟩

/-- Settles O39, clause by clause. -/
theorem clockCommandsComplete : Obligations.ClockCommandsComplete := by
  unfold Obligations.ClockCommandsComplete
  exact ⟨pllLockLoss_stops, pllRelock_locks, pllUnlocked2ms_faults, refclkLoss_counts,
    fun s => ⟨_, rfl, s.clkStat_returns (by decide)⟩, wdclkLoss_drops, fun s => ⟨_, rfl, s.clkStat_returns (by decide)⟩⟩

end Sys2Proof.Machine
end

section
/-! PROOFS. The fault hub: memory errors, the summary links and the watchdog (R410, R440, R441, R443). -/

namespace Sys2Proof.Machine

/-! ### Severe faults (R441) -/

theorem State.steady_requestSafety (s : State) : s.requestSafety.steady = s.steady := rfl

/-- A severe fault as it is shown, before its entry in the history queue. -/
def State.severeShown (s : State) (code : Nat) : State :=
  ((s.setBit Reg.FLT_STAT 1 true).setFld Reg.FLT_SEVERE 0 8 code).bump Reg.FLT_SEVERE 16 16 1

theorem State.steady_severe (s : State) (code hi lo : Nat) : (s.severe code hi lo).steady = (s.severeShown code).steady := by
  unfold severe
  dsimp only
  refine (steady_ite (steady_requestSafety _) rfl).trans ?_
  rw [steady_raise _ _ (by decide), steady_logEvent]
  rfl

theorem State.reg_severeShown (s : State) (code : Nat) {k : Nat} (hk : k ∉ [Reg.FLT_STAT, Reg.FLT_SEVERE]) :
    (s.severeShown code).reg k = s.reg k := by
  simp only [List.mem_cons, List.not_mem_nil, or_false, not_or] at hk
  rw [severeShown, reg_bump, if_neg hk.2, reg_setFld, if_neg hk.2, reg_setBit, if_neg hk.1]

theorem State.reg_severe (s : State) (code hi lo : Nat) {k : Nat} (hsteady : steadyKey k = true)
    (hk : k ∉ [Reg.FLT_STAT, Reg.FLT_SEVERE]) : (s.severe code hi lo).reg k = s.reg k := by
  rw [reg_of_steady (steady_severe ..) hsteady, s.reg_severeShown code hk]

/-- A severe fault shows in FLT_STAT, and its code in FLT_SEVERE. -/
theorem State.severe_shows (s : State) {code : Nat} (hi lo : Nat) (hcode : code < 256) :
    (s.severe code hi lo).bit Reg.FLT_STAT 1 = true ∧ (s.severe code hi lo).fld Reg.FLT_SEVERE 0 8 = code := by
  have hview (k : Nat) (hk : steadyKey k = true) := reg_of_steady (s.steady_severe code hi lo) hk
  constructor
  · rw [bit_of_reg (hview _ (by decide)), severeShown, bump, setFld, bit_setReg_other _ _ _ (by decide), setFld,
      bit_setReg_other _ _ _ (by decide), bit_setBit_same _ _ _ (by decide)]
  · rw [fld_of_reg (hview _ (by decide)), severeShown, fld_bump_other _ (by decide) (.inl (by decide)),
      fld_setFld_same _ (by decide)]
    exact Nat.mod_eq_of_lt hcode

/-! ### The watchdog (R410) -/

/-- The heartbeat has stopped, and a loss of the interlock is counted. -/
def State.heartLost (s : State) : State :=
  let t := { s with tck := { s.tck with hbAlive := false } }
  if t.ilkOut then t.count (Reg.RED_CNT + 20) else t

theorem State.heartbeatLoss_of_stopped {s : State} (halive : s.tck.hbAlive = true) (hrun : s.running = false) :
    s.heartbeatLoss = if (!s.flt.hbStop) = true then s.heartLost.dropInterlock
      else s.heartLost.dropInterlock.severe 0x22 0 (s.heartLost.dropInterlock.now.toNat % 2 ^ 32) := by
  rw [heartbeatLoss, if_neg (by rw [halive, hrun]; decide)]
  rfl

theorem State.onlyReports_heartLost (s : State) : OnlyReports s s.heartLost := by
  unfold heartLost
  dsimp only
  split
  · exact .of_eq rfl rfl fun j => by rw [count, reg_bump, if_neg (jobReg_ne_of_lt j 3 (by decide))]; rfl
  · exact .of_eq rfl rfl fun _ => rfl

theorem State.hbAlive_heartLost (s : State) : s.heartLost.tck.hbAlive = false := by
  unfold heartLost
  dsimp only
  split
  · rfl
  · rfl

theorem heartbeatLoss_drops (s : State) (halive : s.tck.hbAlive = true) (hrun : s.running = false) :
    Completes .heartbeatLoss s fun t => t.tck.hbAlive = false ∧ t.ilkOut = false ∧
      (s.flt.hbStop = true → t.bit Reg.FLT_STAT 1 = true ∧ t.fld Reg.FLT_SEVERE 0 8 = 0x22) ∧ SameMemButReports s t := by
  have hmem := s.onlyReports_heartLost.sameMemButReports (State.sameMemButReports_dropInterlock _)
  have hdrop : s.heartLost.dropInterlock.tck.hbAlive = false := (State.hbAlive_dropInterlock _).trans s.hbAlive_heartLost
  have hout := s.heartLost.ilkOut_dropInterlock
  refine ⟨_, congrArg Host.Outcome.next (State.heartbeatLoss_of_stopped halive hrun), ?_⟩
  cases hstop : s.flt.hbStop with
  | false => exact ⟨hdrop, hout, (fun h => nomatch h), hmem⟩
  | true =>
    have hsteady := s.heartLost.dropInterlock.steady_severe 0x22 0 (s.heartLost.dropInterlock.now.toNat % 2 ^ 32)
    refine ⟨(congrArg Steady.hbAlive hsteady).trans hdrop, ?_, fun _ => State.severe_shows _ 0 _ (by decide), ?_⟩
    · exact (State.bit_of_reg (State.reg_severe _ _ _ _ (by decide) (by decide)) 0).trans hout
    · exact hmem.of_mem (State.severe_frame ..).2.2

/-! ### Uncorrectable errors (R440) -/

theorem State.steady_applyRes (s : State) (code : Nat) (late : Bool) : (s.applyRes code late).steady = s.steady :=
  (steady_raiseIf _ _ _ (by decide)).trans (s.steady_setRegN _ (by decide))

theorem State.steady_recordLate (s : State) (index : Nat) (a : Tick) (used : Option Tick) :
    (s.recordLate index a used).steady = s.steady := by
  unfold recordLate
  dsimp only
  rw [steady_logEvent, steady_setBit _ _ _ (by decide), steady_bump _ _ _ _ (by decide), steady_setFld _ _ _ _ (by decide)]
  cases used with
  | none => exact s.steady_setReg _ (by decide)
  | some b => exact (steady_setReg _ _ (by decide)).trans (s.steady_setReg _ (by decide))

theorem State.steady_stagingEnds (s : State) (r : Nat) : (s.stagingEnds r).steady = s.steady := by
  unfold stagingEnds
  split
  · rfl
  · next g _ =>
    have hstat : (({ s with rce := { s.rce with staging := none } }).setBit Reg.RCE_STAT 2 false).steady = s.steady :=
      steady_setBit _ _ _ (by decide)
    dsimp only
    split
    · refine (steady_ite rfl ((steady_applyRes ..).trans (steady_ite ?_ rfl))).trans hstat
      exact steady_recordLate ..
    · generalize ({ s with rce := { s.rce with staging := none } }).setBit Reg.RCE_STAT 2 false = t at *
      have hwatch (q : List Staged) : ({ t with rce := { t.rce with queue := q } }).stopWatch.tckWatch.steady = s.steady :=
        (steady_tckWatch _).trans ((steady_stopWatch _).trans hstat)
      refine (steady_ite rfl ((steady_applyRes ..).trans ((steady_ite ?_ rfl).trans ?_))).trans (hwatch _)
      · exact (steady_raise _ _ (by decide)).trans (steady_recordLate ..)
      · exact steady_setReg64 _ _ (by decide) (by decide)

theorem State.steady_parityErr (s : State) (i : Nat) : (s.parityErr i).steady = s.steady := by
  unfold parityErr
  dsimp only
  rw [steady_raise _ _ (by decide), steady_count _ (by decide), fwdLog, steady_setRegN _ _ (by decide)]
  exact (steady_ite (steady_storeN ..) rfl).trans (s.steady_storeN ..)

theorem State.steady_dropBuffer (s : State) (h : Nat) : (s.dropBuffer h).steady = s.steady := by
  refine (steady_unbuf ..).trans (steady_foldl _ _ _ fun s e _ => ?_)
  refine Eq.trans (steady_foldl _ _ _ fun s f _ => ?_) rfl
  exact (steady_endDesc ..).trans (s.steady_freeChain _)

/-- The error is counted, and its address kept. -/
def State.eccCounted (s : State) (addr : Nat) : State := (s.bump Reg.FLT_ECC 16 16 1).setRegN Reg.FLT_SEVERE_ADDR addr

theorem State.steady_prf (s : State) (x : PrfSt) : { s with prf := x }.steady = s.steady := rfl

theorem State.steady_lpl (s : State) (x : LplSt) : { s with lpl := x }.steady = s.steady := rfl

/-- An error is noted in the history queue, or it is severe, as its region makes it. -/
theorem State.uncorrectable_cases (s : State) (r addr x : Nat) :
    ((r = 0 ∨ r = 5 ∨ r = 6 ∨ r = 7 ∨ r = 8) ∧ ∃ (u : State) (code : Nat), u.steady = (s.eccCounted addr).steady ∧
        s.uncorrectable r addr x = u.logEvent pFLT 1 0x05 code addr) ∨
      ∃ (u : State) (code hi : Nat), code < 256 ∧ u.steady = (s.eccCounted addr).steady ∧
        s.uncorrectable r addr x = u.severe code hi addr := by
  have hcounted : ((s.bump Reg.FLT_ECC 16 16 1).setRegN Reg.FLT_SEVERE_ADDR addr).steady = (s.eccCounted addr).steady := rfl
  unfold uncorrectable
  dsimp only
  generalize (s.bump Reg.FLT_ECC 16 16 1).setRegN Reg.FLT_SEVERE_ADDR addr = v at *
  split
  · split
    · split
      · exact .inl ⟨.inl rfl, _, _, (steady_stagingEnds ..).trans hcounted, rfl⟩
      · exact .inl ⟨.inl rfl, _, _, hcounted, rfl⟩
    · exact .inl ⟨.inl rfl, _, _, hcounted, rfl⟩
  · exact .inr ⟨_, _, _, by decide, hcounted, rfl⟩
  · refine .inr ⟨_, _, _, by decide, ?_, rfl⟩
    exact (steady_setBit _ _ _ (by decide)).trans hcounted
  · exact .inr ⟨_, _, _, by decide, hcounted, rfl⟩
  · exact .inr ⟨_, _, _, by decide, hcounted, rfl⟩
  · refine .inl ⟨.inr (.inl rfl), _, _, ?_, rfl⟩
    exact (v.steady_prf _).trans hcounted
  · refine .inl ⟨.inr (.inr (.inl rfl)), _, _, ?_, rfl⟩
    exact (v.steady_lpl _).trans hcounted
  · refine .inl ⟨.inr (.inr (.inr (.inl rfl))), _, _, ?_, rfl⟩
    exact (v.steady_parityErr _).trans hcounted
  · refine .inl ⟨.inr (.inr (.inr (.inr rfl))), _, _, ?_, rfl⟩
    exact (v.steady_dropBuffer _).trans hcounted
  · exact .inr ⟨_, _, _, by decide, hcounted, rfl⟩

/-- The count of errors and the latest address stay as shown; severe errors show in FLT_STAT. -/
theorem State.uncorrectable_shows (s : State) (r addr x : Nat) :
    (∀ k, k = Reg.FLT_ECC ∨ k = Reg.FLT_SEVERE_ADDR → (s.uncorrectable r addr x).reg k = (s.eccCounted addr).reg k) ∧
      (r = 1 ∨ r = 2 ∨ r = 3 ∨ r = 4 ∨ r = 9 → (s.uncorrectable r addr x).bit Reg.FLT_STAT 1 = true) := by
  obtain ⟨hr, u, code, hu, heq⟩ | ⟨u, code, hi, hcode, hu, heq⟩ := s.uncorrectable_cases r addr x
  · rw [heq]
    refine ⟨fun k hk => reg_of_steady ((steady_logEvent ..).trans hu) ?_, fun h => by omega⟩
    obtain rfl | rfl := hk
    · decide
    · decide
  · obtain ⟨hstat, -⟩ := u.severe_shows hi addr hcode
    rw [heq]
    refine ⟨fun k hk => ?_, fun _ => hstat⟩
    obtain rfl | rfl := hk
    · exact (reg_severe _ _ _ _ (by decide) (by decide)).trans (reg_of_steady hu (by decide))
    · exact (reg_severe _ _ _ _ (by decide) (by decide)).trans (reg_of_steady hu (by decide))

/-- A reader that meets the error is refused, which changes no register of the FLT page's own. -/
theorem State.reg_eccRead (s : State) (m addr : Nat) {k : Nat} (hk : k = Reg.FLT_ECC ∨ k = Reg.FLT_SEVERE_ADDR ∨ k = Reg.FLT_STAT) :
    (s.eccRead m addr).reg k = s.reg k := by
  refine reg_violate _ _ _ _ _ ?_
  rw [List.mem_append, not_or]
  obtain rfl | rfl | rfl := hk
  · exact ⟨notMem_errKeys (by decide), by decide⟩
  · exact ⟨notMem_errKeys (by decide), by decide⟩
  · exact ⟨notMem_errKeys (by decide), by decide⟩

theorem uncorrectableEcc_shows (r : Fin 10) (addr : Word) (x : Nat) (reader : Option (Fin 8)) (s : State) :
    Completes (.uncorrectableEcc r addr x reader) s fun t =>
      t.fld Reg.FLT_ECC 16 16 = satAdd 0xFFFF (s.fld Reg.FLT_ECC 16 16) 1 ∧ t.reg Reg.FLT_SEVERE_ADDR = addr ∧
      (r.val = 1 ∨ r.val = 2 ∨ r.val = 3 ∨ r.val = 4 ∨ r.val = 9 → t.bit Reg.FLT_STAT 1 = true) ∧
      (∀ m, reader = some m → t.bus.last = ⟨m.val, false, addr.toNat, refusalStatus m kEcc, 0⟩) := by
  obtain ⟨hreg, hsevere⟩ := s.uncorrectable_shows r addr.toNat x
  have hcount : (s.eccCounted addr.toNat).fld Reg.FLT_ECC 16 16 = satAdd 0xFFFF (s.fld Reg.FLT_ECC 16 16) 1 := by
    rw [State.eccCounted, State.setRegN, State.fld_setReg_other _ _ _ _ (by decide), State.fld_bump_same _ _ (by decide)]
    rfl
  have haddr : (s.eccCounted addr.toNat).reg Reg.FLT_SEVERE_ADDR = addr := by
    rw [State.eccCounted, State.reg_setRegN, if_pos rfl, BitVec.ofNat_toNat, BitVec.setWidth_eq]
  refine ⟨_, rfl, ?_⟩
  cases reader with
  | none =>
    exact ⟨(State.fld_of_reg (hreg _ (.inl rfl)) ..).trans hcount, (hreg _ (.inr rfl)).trans haddr, hsevere, fun m h => by cases h⟩
  | some m =>
    refine ⟨?_, ?_, fun hr => ?_, fun m' h => ?_⟩
    · exact (State.fld_of_reg ((State.reg_eccRead _ _ _ (.inl rfl)).trans (hreg _ (.inl rfl))) ..).trans hcount
    · exact (State.reg_eccRead _ _ _ (.inr (.inl rfl))).trans ((hreg _ (.inr rfl)).trans haddr)
    · exact (State.bit_of_reg (State.reg_eccRead _ _ _ (.inr (.inr rfl))) 1).trans (hsevere hr)
    · obtain rfl := Option.some.inj h
      exact State.violate_last ..

/-! ### The summary links (R443) -/

theorem State.logEvent_flt (s : State) (page cls code hi lo : Nat) :
    (s.logEvent page cls code hi lo).flt = { s.flt with seq := s.flt.seq + 1 } := by
  unfold logEvent
  dsimp only
  rw [raise_flt]
  split
  · rfl
  · rfl

/-- The registers before the history queue that no event's entry changes. -/
theorem State.reg_logEvent_before (s : State) (page cls code hi lo : Nat) {k : Nat} (hk : k < Reg.FLT_HIST)
    (hptr : k ≠ Reg.FLT_HIST_PTR) (hraise : k ∉ raiseKeys 6) : (s.logEvent page cls code hi lo).reg k = s.reg k := by
  have hentry : ∀ i, k ≠ Reg.FLT_HIST + 32 * s.fld Reg.FLT_HIST_PTR 0 5 + i := fun i h => by
    rw [h, Nat.add_assoc] at hk
    exact absurd hk (Nat.not_lt.2 (Nat.le_add_right ..))
  have hfirst : k ≠ Reg.FLT_HIST + 32 * s.fld Reg.FLT_HIST_PTR 0 5 := hentry 0
  unfold logEvent
  dsimp only
  rw [reg_raise _ hraise]
  change State.reg (if _ then _ else _) k = _
  rw [apply_ite (State.reg · k), reg_bump, if_neg hptr, ite_self, reg_setBit, if_neg hptr, reg_setFld, if_neg hptr]
  simp only [setReg64, reg_setRegN, Nat.add_assoc, Nat.reduceAdd]
  simp only [← Nat.add_assoc, hentry, hfirst, ↓reduceIte]

/-- A broken or stuck link, as it is shown and logged. -/
def State.linkShown (s : State) (page code : Nat) (f : State → State) : State :=
  (((s.withSummary page f).setBit (pageWord Reg.FLT_LINK page) (page % 32) true).logEvent pFLT 4 code page 0).raise pFLT 2

theorem State.linkShown_flt (s : State) (page code : Nat) (f : State → State) :
    (s.linkShown page code f).flt = { (f s).flt with seq := (f s).flt.seq + 1 } := by
  rw [linkShown, raise_flt, logEvent_flt, setBit_flt, withSummary_flt]

theorem State.linkShown_mem (s : State) (page code : Nat) {f : State → State} (hf : ∀ t, (f t).mem = t.mem) :
    (s.linkShown page code f).mem = s.mem := by
  rw [linkShown, raise_mem, (logEvent_frame ..).2.2, setBit_mem, withSummary_frM s page f hf]

theorem State.bit_linkShown (s : State) {page : Nat} (code : Nat) (f : State → State) (hpage : page < 192) :
    (s.linkShown page code f).bit (pageWord Reg.FLT_LINK page) (page % 32) = true ∧
      (s.linkShown page code f).bit (cReg pFLT OFF_INT_STAT) 2 = true := by
  have hword : 0x04006140 ≤ pageWord Reg.FLT_LINK page ∧ pageWord Reg.FLT_LINK page < 0x04006160 := by
    unfold pageWord Reg.FLT_LINK
    omega
  have hraise : pageWord Reg.FLT_LINK page ∉ raiseKeys 6 := fun h => by
    have hkeys : raiseKeys 6 = [0x04006010, 0x04006120, 0x04006010, 0x04006120] := rfl
    simp only [hkeys, List.mem_cons, List.not_mem_nil, or_false] at h
    omega
  refine ⟨?_, bit_raise _ pFLT (by decide)⟩
  rw [linkShown, bit_of_reg (reg_raise _ hraise), bit_of_reg (reg_logEvent_before _ _ _ _ _ _ ?_ ?_ hraise),
    bit_setBit_same _ _ _ (Nat.mod_lt _ (by decide))]
  · exact hword.2.trans (by decide)
  · exact fun h => absurd hword.1 (by rw [h]; decide)

theorem State.link_probed {s : State} {page : Fin 192} (himpl : s.implemented page = true) :
    (!s.implemented page || decide (page.val ≥ 192)) = false := by
  rw [himpl, decide_eq_false (by omega)]
  rfl

theorem linkProbe_stuck (page : Fin 192) (s : State) (himpl : s.implemented page = true) :
    Completes (.linkProbe page false) s fun t => page.val ∈ t.flt.stuckLink ∧
      t.bit (pageWord Reg.FLT_LINK page) (page % 32) = true ∧ t.bit (cReg pFLT OFF_INT_STAT) 2 = true ∧ SameMem s t := by
  have hexec : exec (.linkProbe page false) s = .next (s.linkShown page 0x31 fun s =>
      { s with flt := { s.flt with stuckLink := page :: s.flt.stuckLink.filter (· != page.val) } }) :=
    congrArg Host.Outcome.next (by rw [State.linkProbe, State.link_probed himpl]; rfl)
  obtain ⟨hbit, hraised⟩ := s.bit_linkShown 0x31 (fun s =>
      { s with flt := { s.flt with stuckLink := page :: s.flt.stuckLink.filter (· != page.val) } }) page.isLt
  refine ⟨_, hexec, ?_, hbit, hraised, sameMem_of_mem (State.linkShown_mem _ _ _ fun _ => rfl)⟩
  rw [State.linkShown_flt]
  exact .head _

theorem linkProbe_inverts (page : Fin 192) (s : State) (himpl : s.implemented page = true) :
    Completes (.linkProbe page true) s fun t => t.flt.stuckLink = s.flt.stuckLink.filter (· != page.val) ∧ SameMem s t ∧
      SameRegs s t [] := by
  have hexec : exec (.linkProbe page true) s =
      .next { s with flt := { s.flt with stuckLink := s.flt.stuckLink.filter (· != page.val) } } :=
    congrArg Host.Outcome.next (by rw [State.linkProbe, State.link_probed himpl]; rfl)
  exact ⟨_, hexec, rfl, fun _ => rfl, fun _ _ => rfl⟩

theorem pairEqual_breaks (page : Fin 192) (s : State) (himpl : s.implemented page = true)
    (hgood : s.flt.badLink.contains page.val = false) :
    Completes (.pairEqual page true) s fun t => page.val ∈ t.flt.badLink ∧
      t.bit (pageWord Reg.FLT_LINK page) (page % 32) = true ∧ t.bit (cReg pFLT OFF_INT_STAT) 2 = true ∧ SameMem s t := by
  have hexec : exec (.pairEqual page true) s = .next (s.linkShown page 0x30 fun s =>
      { s with flt := { s.flt with badLink := page :: s.flt.badLink } }) :=
    congrArg Host.Outcome.next (by rw [State.pairEqual, State.link_probed himpl, hgood]; rfl)
  obtain ⟨hbit, hraised⟩ := s.bit_linkShown 0x30 (fun s => { s with flt := { s.flt with badLink := page :: s.flt.badLink } }) page.isLt
  refine ⟨_, hexec, ?_, hbit, hraised, sameMem_of_mem (State.linkShown_mem _ _ _ fun _ => rfl)⟩
  rw [State.linkShown_flt]
  exact .head _

theorem pairEqual_returns (page : Fin 192) (s : State) (himpl : s.implemented page = true) :
    Completes (.pairEqual page false) s fun t => t.flt.badLink = s.flt.badLink.filter (· != page.val) ∧ SameMem s t ∧
      SameRegs s t [] := by
  have hexec : exec (.pairEqual page false) s =
      .next { s with flt := { s.flt with badLink := s.flt.badLink.filter (· != page.val) } } :=
    congrArg Host.Outcome.next (by rw [State.pairEqual, State.link_probed himpl]; rfl)
  exact ⟨_, hexec, rfl, fun _ => rfl, fun _ _ => rfl⟩

/-- Settles O46, clause by clause. -/
theorem faultHubCommandsComplete : Obligations.FaultHubCommandsComplete := by
  unfold Obligations.FaultHubCommandsComplete
  exact ⟨heartbeatLoss_drops, uncorrectableEcc_shows, linkProbe_stuck, linkProbe_inverts, pairEqual_breaks, pairEqual_returns⟩

end Sys2Proof.Machine
end

section
/-! PROOFS. Accepted register writes that the journal does not take over (R423, R429), and claims (R406 to R410). -/

namespace Sys2Proof.Machine

/-! ### Writes that are not journalled -/

/-- The registers whose writes the journal takes over, in whatever state. -/
def journals (a : Nat) : Bool :=
  a == Reg.RCE_CTRL || a == Reg.CRS_SHD_COUNT || a == Reg.CRS_SHD_DATA || a == Reg.PRT_SUB_DATA ||
    (decide (Reg.PRT_SHD_WIN ≤ a) && decide (a < Reg.PRT_SHD_WIN + 64)) ||
    (decide (Reg.FAB_RETMAP ≤ a) && decide (a < Reg.FAB_RETMAP + 2688)) ||
    (decide (Reg.EVT_LOL_CHATTER ≤ a) && decide (a < Reg.EVT_LOL_CHATTER + 128)) ||
    (match regRow? a with | some (r, _) => r.rws != 0 && pageOf a != 0xB4 | none => false)

theorem State.journalReg_of_not_journals (s : State) {a : Nat} (v : Word) (h : journals a = false) : s.journalReg a v = s := by
  simp only [journals, Bool.or_eq_false_iff, beq_eq_false_iff_ne, Bool.and_eq_false_iff, decide_eq_false_iff_not] at h
  obtain ⟨⟨⟨⟨⟨⟨⟨hctrl, hcount⟩, hdata⟩, hsub⟩, hwin⟩, hmap⟩, hlol⟩, hrow⟩ := h
  have hnone : s.journalAs? a = none := by
    unfold journalAs?
    rw [if_neg hcount, if_neg hdata, if_neg (by omega), if_neg hsub, if_neg (by omega), if_neg (by omega)]
    revert hrow
    cases regRow? a with
    | none => exact fun _ => rfl
    | some e => exact fun hrow => if_neg fun hw => by simp [hw.1, hw.2] at hrow
  rw [journalReg, if_neg hctrl, hnone]
  exact ite_self s

/-- An accepted write that is not journalled is its effect. -/
theorem State.gateWrite_eq {s : State} {m a : Nat} {v : Word} (h : s.accepts m a v = true) (hj : journals a = false)
    (eff : State → State) : s.gateWrite m a v eff = eff (s.respond m true a .ok 0) := by
  rw [gateWrite_accepts s eff h]
  dsimp only
  split
  · exact journalReg_of_not_journals _ v hj
  · rfl

/-! ### A claim is armed (R401, R406) -/

theorem bitOf_claimWord (arm solo unsynced : Bool) :
    bitOf (BitVec.ofNat 32 (b2n arm + 2 * b2n solo + 4 * b2n unsynced)) 0 = arm ∧
      bitOf (BitVec.ofNat 32 (b2n arm + 2 * b2n solo + 4 * b2n unsynced)) 1 = solo ∧
      bitOf (BitVec.ofNat 32 (b2n arm + 2 * b2n solo + 4 * b2n unsynced)) 2 = unsynced := by
  revert arm solo unsynced
  decide

/-- The bits of a register that a write takes. -/
def writtenBits (a : Nat) : Word :=
  match regRow? (a % 0x100000000) with
  | some (r, _) => BitVec.ofNat 32 (r.rw ||| r.rws)
  | none => 0

theorem takeBits_zero (w v : Word) : takeBits w v 0 = w := by
  change (w &&& BitVec.allOnes 32) ||| (v &&& 0#32) = w
  rw [BitVec.and_zero, BitVec.or_zero, BitVec.and_allOnes]

theorem State.reg_storeReg_same (s : State) {a : Nat} (v : Word) (ha : a ∉ takeoverRegs) :
    (s.storeReg a v).reg a = takeBits (s.reg a) v (writtenBits a) := by
  cases hrow : regRow? (a % 0x100000000) with
  | none => rw [writtenBits, hrow, storeReg, hrow]; exact (takeBits_zero _ _).symm
  | some e => rw [reg_storeReg s v hrow ha, if_pos rfl, writtenBits, hrow]

theorem State.bit_storeReg_same (s : State) {a i : Nat} (v : Word) (ha : a ∉ takeoverRegs) (hi : bitOf (writtenBits a) i = true) :
    (s.storeReg a v).bit a i = bitOf v i := by
  rw [bit, reg_storeReg_same s v ha, bitOf_takeBits _ _ hi]

theorem State.fld_storeReg_same (s : State) {a lo len : Nat} (v : Word) (ha : a ∉ takeoverRegs)
    (hi : ∀ j, j < len → bitOf (writtenBits a) (lo + j) = true) : (s.storeReg a v).fld a lo len = Machine.fld v lo len := by
  rw [fld, reg_storeReg_same s v ha, fld_takeBits _ _ hi]

theorem claimArm_arms (m : Fin 8) (arm solo unsynced : Bool) (s : State)
    (hacc : s.accepts m Reg.RED_CLAIM (BitVec.ofNat 32 (b2n arm + 2 * b2n solo + 4 * b2n unsynced)) = true)
    (hseat : arm = false ∨ s.bit Reg.RED_SEAT 2 = false) :
    Completes (.claimArm m arm solo unsynced) s fun t => t.bit Reg.RED_CLAIM 0 = arm ∧ t.bit Reg.RED_CLAIM 1 = solo ∧
      t.bit Reg.RED_CLAIM 2 = unsynced ∧ SameMem s t ∧ SameRegs s t [Reg.RED_CLAIM] := by
  obtain ⟨harm, hsolo, hunsynced⟩ := bitOf_claimWord arm solo unsynced
  obtain ⟨w, hw⟩ : ∃ w, w = BitVec.ofNat 32 (b2n arm + 2 * b2n solo + 4 * b2n unsynced) := ⟨_, rfl⟩
  rw [← hw] at harm hsolo hunsynced hacc
  have hother {k : Nat} (hk : k ≠ Reg.RED_CLAIM) :
      ((s.respond m true Reg.RED_CLAIM .ok 0).storeReg Reg.RED_CLAIM w).reg k = s.reg k :=
    State.reg_storeReg_apart _ w (by decide) hk
  have hrefused : (bitOf w 0 && ((s.respond m true Reg.RED_CLAIM .ok 0).storeReg Reg.RED_CLAIM w).bit Reg.RED_SEAT 2) = false := by
    rw [State.bit_of_reg (hother (by decide)), harm]
    obtain h | h := hseat <;> simp [h]
  have hend : s.gateWrite m Reg.RED_CLAIM w (fun s => s.claimWrite w) =
      (s.respond m true Reg.RED_CLAIM .ok 0).storeReg Reg.RED_CLAIM w := by
    rw [State.gateWrite_eq (hacc) (by decide +kernel), State.claimWrite, hrefused]
    rfl
  refine ⟨_, (congrArg Host.Outcome.next (by rw [← hw, hend])), ?_, ?_, ?_, sameMem_of_mem ?_, fun k hk => ?_⟩
  · rw [State.bit_storeReg_same _ _ (by decide) (by decide +kernel), harm]
  · rw [State.bit_storeReg_same _ _ (by decide) (by decide +kernel), hsolo]
  · rw [State.bit_storeReg_same _ _ (by decide) (by decide +kernel), hunsynced]
  · exact State.storeReg_mem _ _ _
  · exact hother (by simpa using hk)

/-! ### A claim is attempted (R406, R409) -/

theorem State.trapStop_frcNow (s : State) (res : Nat) : (s.trapStop res).frcNow = s.frcNow := by
  unfold trapStop
  split
  · rw [frcNow, trapEnd]
    dsimp only
    rw [resetMaster_ntu, raise_ntu]
    rfl
  · rfl

theorem claimAttempt_opens (cycle : Nat) (s : State) (hready : (s.atCycle cycle).claimReady = true)
    (hseat : s.bit Reg.RED_SEAT 2 = false) (hsolo : (s.bit Reg.RED_CLAIM 1 && s.epochInUse) = false) :
    Completes (.claimAttempt cycle) s fun t => t.ilkOut = true ∧ t.bit Reg.RED_STAT 4 = true ∧
      t.red.claimFrom = some (s.atCycle cycle).frcNow ∧ SameMem s t := by
  have hattempt : (s.atCycle cycle).claimAttempt =
      { (((s.atCycle cycle).trapStop 8).setBit Reg.RED_STAT 0 true).setBit Reg.RED_STAT 4 true with
        red := { ((((s.atCycle cycle).trapStop 8).setBit Reg.RED_STAT 0 true).setBit Reg.RED_STAT 4 true).red with
          claimFrom := some ((((s.atCycle cycle).trapStop 8).setBit Reg.RED_STAT 0 true).setBit Reg.RED_STAT 4 true).frcNow } } := by
    have hseat' : ¬ (s.atCycle cycle).bit Reg.RED_SEAT 2 = true := by
      rw [State.bit_of_reg (State.reg_atCycle ..), hseat]
      decide
    have hsolo' : ¬ ((s.atCycle cycle).bit Reg.RED_CLAIM 1 && (s.atCycle cycle).epochInUse) = true := fun h => by
      rw [State.bit_of_reg (State.reg_atCycle ..)] at h
      exact absurd (hsolo.symm.trans h) (by decide)
    rw [State.claimAttempt, hready]
    dsimp only [Bool.not_true]
    rw [if_neg (by decide), if_neg hseat', if_neg hsolo']
  refine ⟨_, rfl, ?_, ?_, ?_, sameMem_of_frame (State.claimAttempt_frame _)⟩
  · rw [hattempt, State.ilkOut]
    change State.bit ((((s.atCycle cycle).trapStop 8).setBit Reg.RED_STAT 0 true).setBit Reg.RED_STAT 4 true) Reg.RED_STAT 0 = true
    rw [State.bit_setBit _ _ _ _ (by decide), if_neg (by decide), State.bit_setBit_same _ _ _ (by decide)]
  · rw [hattempt]
    exact State.bit_setBit_same _ _ _ (by decide)
  · rw [hattempt]
    exact congrArg some ((s.atCycle cycle).trapStop_frcNow 8)

/-! ### The epoch a claim takes (R408) -/

/-- The newest epoch known rests on the own one, on the partner's and on those seen. -/
theorem State.newestEpoch_congr {s t : State} (hepoch : t.reg Reg.RED_EPOCH = s.reg Reg.RED_EPOCH)
    (hepochs : t.red.epochs = s.red.epochs) (hseen : t.red.seen = s.red.seen) (hntu : t.ntu = s.ntu) (hnow : t.now = s.now) :
    t.newestEpoch = s.newestEpoch := by
  simp only [newestEpoch, hepochs, hseen, agedNs, frcNow, hntu, hnow, show t.epoch = s.epoch from fld_of_reg hepoch 0 16]
  rfl

theorem State.nextEpoch_lt (s : State) : s.nextEpoch < 65536 := by
  unfold nextEpoch
  dsimp only
  split <;> omega

theorem State.epoch_setEpoch (s : State) {e : Nat} (he : e < 65536) : (s.setEpoch e).epoch = e := by
  rw [epoch, setEpoch, fld_setFld_other _ (by decide) (.inr (.inl (by decide))), fld_setFld_same _ (by decide)]
  exact Nat.mod_eq_of_lt he

theorem State.reg_setEpoch (s : State) (e : Nat) {k : Nat} (hk : k ≠ Reg.RED_EPOCH) : (s.setEpoch e).reg k = s.reg k := by
  rw [setEpoch, reg_setFld, if_neg hk, reg_setFld, if_neg hk]

theorem State.reg_sendMirror (s : State) (kind : Nat) (tick : Tick) (seq : Nat) (body : List Byte) (k : Nat) :
    (s.sendMirror kind tick seq body).reg k = s.reg k :=
  (s.sendMirror_keeps kind tick seq body).2 k

theorem State.sendMirror_red (s : State) (kind : Nat) (tick : Tick) (seq : Nat) (body : List Byte) :
    (s.sendMirror kind tick seq body).red = s.red := by
  unfold sendMirror emitMirror mirBlocks
  split
  · split <;> rfl
  · rfl

theorem State.sendMirror_rsv (s : State) (kind : Nat) (tick : Tick) (seq : Nat) (body : List Byte) :
    (s.sendMirror kind tick seq body).rsv = s.rsv := by
  unfold sendMirror emitMirror mirBlocks
  split
  · split <;> rfl
  · rfl

/-! ### The confirm window ends (R407, R408) -/

/-- A claim against a partner that still asserts its interlock is counted and shown. -/
def State.claimNoted (s : State) : State :=
  if s.ilkIn && !s.seatB then (s.count (Reg.RED_CNT + 4)).raise pRED 2 else s

/-- The new epoch is taken; frames carry the old one until the boundary. -/
def State.claimEpoch (s : State) : State :=
  let t := { s with red := { s.red with oldEpoch := some (s.boundaryFrom, s.epoch) } }
  t.setEpoch t.nextEpoch

/-- The claim is counted and recorded, and the change of role waits for the boundary. -/
def State.claimRecorded (s : State) (k : Tick) : State :=
  let t := (s.count Reg.RED_CNT).setRegN Reg.RED_CLAIM_TICK (k.toNat % 2 ^ 32)
  let t := (t.setBit Reg.RED_CLAIM 0 false).setBit Reg.RED_STAT 4 false
  { t with red := { t.red with claimFrom := none, roleAt := some (k, if t.bit Reg.RED_CLAIM 1 then 0 else 1) } }

/-- The partner is told, and the claim has its result. -/
def State.claimTold (s : State) (k : Tick) : State := (s.sendCtrl 6 k s.epoch 0).claimRes 1

theorem State.claimed_eq {s : State} {f : BitVec 96} (hfrom : s.red.claimFrom = some f) (haged : s.agedNs f 1000 = true) :
    s.claimed = ((s.claimNoted.claimEpoch.claimRecorded s.claimNoted.boundaryFrom).claimTold s.claimNoted.boundaryFrom).takeRole := by
  rw [claimed, hfrom]
  dsimp only
  rw [haged]
  rfl

theorem State.nextEpoch_congr {s t : State} (hepoch : t.reg Reg.RED_EPOCH = s.reg Reg.RED_EPOCH)
    (hepochs : t.red.epochs = s.red.epochs) (hseen : t.red.seen = s.red.seen) (hntu : t.ntu = s.ntu) (hnow : t.now = s.now) :
    t.nextEpoch = s.nextEpoch := by
  rw [nextEpoch, nextEpoch, newestEpoch_congr hepoch hepochs hseen hntu hnow]

theorem State.reg_claimNoted (s : State) {k : Nat} (hk : k ∉ (Reg.RED_CNT + 4) :: raiseKeys pRED) :
    s.claimNoted.reg k = s.reg k := by
  rw [List.mem_cons, not_or] at hk
  obtain ⟨hcnt, hraise⟩ := hk
  unfold claimNoted
  split
  · rw [reg_raise _ hraise, count, reg_bump, if_neg hcnt]
  · rfl

theorem State.claimNoted_keeps (s : State) : s.claimNoted.red = s.red ∧ s.claimNoted.ntu = s.ntu ∧ s.claimNoted.tck = s.tck ∧
    s.claimNoted.rsv = s.rsv ∧ s.claimNoted.mem = s.mem := by
  unfold claimNoted
  split
  · rw [raise_red, raise_ntu, raise_tck, raise_rsv, raise_mem]
    exact ⟨rfl, rfl, rfl, rfl, rfl⟩
  · exact ⟨rfl, rfl, rfl, rfl, rfl⟩

theorem State.epoch_claimEpoch (s : State) : s.claimEpoch.epoch = s.nextEpoch :=
  (epoch_setEpoch _ (nextEpoch_lt _)).trans (nextEpoch_congr rfl rfl rfl rfl rfl)

theorem State.reg_claimRecorded (s : State) (k : Tick) {j : Nat}
    (hj : j ∉ [Reg.RED_CNT, Reg.RED_CLAIM_TICK, Reg.RED_CLAIM, Reg.RED_STAT]) : (s.claimRecorded k).reg j = s.reg j := by
  simp only [List.mem_cons, List.not_mem_nil, or_false, not_or] at hj
  obtain ⟨hcnt, htick, hclaim, hstat⟩ := hj
  change ((((s.count Reg.RED_CNT).setRegN Reg.RED_CLAIM_TICK (k.toNat % 2 ^ 32)).setBit Reg.RED_CLAIM 0 false).setBit
    Reg.RED_STAT 4 false).reg j = s.reg j
  rw [reg_setBit, if_neg hstat, reg_setBit, if_neg hclaim, reg_setRegN, if_neg htick, count, reg_bump, if_neg hcnt]

theorem State.disarmed_claimRecorded (s : State) (k : Tick) : (s.claimRecorded k).bit Reg.RED_CLAIM 0 = false := by
  change ((((s.count Reg.RED_CNT).setRegN Reg.RED_CLAIM_TICK (k.toNat % 2 ^ 32)).setBit Reg.RED_CLAIM 0 false).setBit
    Reg.RED_STAT 4 false).bit Reg.RED_CLAIM 0 = false
  rw [bit_setBit _ _ _ _ (by decide), if_neg (by decide), bit_setBit_same _ _ _ (by decide)]

theorem State.reg_claimRes (s : State) (code : Nat) {k : Nat} (hk : k ∉ Reg.RED_CLAIM_RES :: raiseKeys pRED) :
    (s.claimRes code).reg k = s.reg k := by
  rw [List.mem_cons, not_or] at hk
  obtain ⟨hres, hraise⟩ := hk
  rw [claimRes, reg_raise _ hraise, reg_setRegN, if_neg hres]

theorem State.claimRes_shows (s : State) (code : Nat) : (s.claimRes code).reg Reg.RED_CLAIM_RES = BitVec.ofNat 32 code := by
  rw [claimRes, reg_raise _ (by decide), reg_setRegN, if_pos rfl]

theorem State.claimRes_red (s : State) (code : Nat) : (s.claimRes code).red = s.red := raise_red ..

theorem State.reg_claimTold (s : State) (k : Tick) {j : Nat} (hj : j ∉ Reg.RED_CLAIM_RES :: raiseKeys pRED) :
    (s.claimTold k).reg j = s.reg j :=
  (reg_claimRes _ 1 hj).trans (reg_sendMirror ..)

/-! #### Roles that were to change -/

/-- A change of role no longer waits. -/
def State.roleTaken (s : State) : State := { s with red := { s.red with roleAt := none } }

theorem State.takeRole_cases (s : State) : s.takeRole = s ∨ ∃ r, s.takeRole = s.roleTaken.setRole r := by
  unfold takeRole
  split
  · next r _ =>
      split
      · exact .inr ⟨r, rfl⟩
      · exact .inl rfl
  · exact .inl rfl

theorem State.reg_takeRole (s : State) {k : Nat} (hk : steadyKey k = true) (hrole : k ∉ [Reg.RED_ROLE, Reg.RED_STAT]) :
    s.takeRole.reg k = s.reg k := by
  obtain h | ⟨r, h⟩ := s.takeRole_cases
  · rw [h]
  · rw [h, reg_setRole _ r hk hrole]
    rfl

theorem State.claimFrom_takeRole (s : State) : s.takeRole.red.claimFrom = s.red.claimFrom := by
  obtain h | ⟨r, h⟩ := s.takeRole_cases
  · rw [h]
  · rw [h, claimFrom_setRole]
    rfl

theorem State.onlyReports_roleTaken (s : State) : OnlyReports s s.roleTaken := .of_eq rfl rfl fun _ => rfl

theorem State.sameMemButReports_takeRole (s : State) : SameMemButReports s s.takeRole := by
  obtain h | ⟨r, h⟩ := s.takeRole_cases
  · rw [h]
    exact (OnlyReports.refl s).mem
  · rw [h]
    exact s.onlyReports_roleTaken.sameMemButReports (s.roleTaken.sameMemButReports_setRole r)

theorem State.reg_claimed_jobReg (s : State) (k : Tick) (j : Nat) :
    ((s.claimNoted.claimEpoch.claimRecorded k).claimTold k).reg (jobReg j 3) = s.reg (jobReg j 3) := by
  rw [reg_claimTold _ _ (jobReg_not_mem j 3 (by decide)), reg_claimRecorded _ _ (jobReg_not_mem j 3 (by decide))]
  exact (reg_setEpoch _ _ (jobReg_ne_of_lt j 3 (by decide))).trans (reg_claimNoted _ (jobReg_not_mem j 3 (by decide)))

theorem claimed_completes (cycle : Nat) (f : BitVec 96) (s : State) (hfrom : s.red.claimFrom = some f)
    (haged : (s.atCycle cycle).agedNs f 1000 = true) :
    Completes (.claimed cycle) s fun t => t.epoch = (s.atCycle cycle).nextEpoch ∧ t.red.claimFrom = none ∧
      t.reg Reg.RED_CLAIM_RES = 1 ∧ t.bit Reg.RED_CLAIM 0 = false ∧ SameMemButReports s t := by
  obtain ⟨r, hr⟩ : ∃ r, r = s.atCycle cycle := ⟨_, rfl⟩
  obtain ⟨k, hk⟩ : ∃ k, k = r.claimNoted.boundaryFrom := ⟨_, rfl⟩
  obtain ⟨u, hu⟩ : ∃ u, u = (r.claimNoted.claimEpoch.claimRecorded k).claimTold k := ⟨_, rfl⟩
  obtain ⟨hred, hntu, htck, hrsv, hmem⟩ := r.claimNoted_keeps
  have hend : r.claimed = u.takeRole := by
    rw [State.claimed_eq (by rw [hr]; exact hfrom) (hr ▸ haged), hu, hk]
  refine ⟨u.takeRole, congrArg Host.Outcome.next (hr ▸ hend), ?_, ?_, ?_, ?_, ?_⟩
  · rw [← hr, State.epoch, State.fld_of_reg (State.reg_takeRole _ (by decide) (by decide)), hu,
      State.fld_of_reg (State.reg_claimTold _ _ (by decide)), State.fld_of_reg (State.reg_claimRecorded _ _ (by decide))]
    refine (State.epoch_claimEpoch _).trans ?_
    exact State.nextEpoch_congr (State.reg_claimNoted _ (by decide)) (by rw [hred]) (by rw [hred]) hntu
      (congrArg TckSt.now htck)
  · rw [State.claimFrom_takeRole, hu, State.claimTold, State.claimRes_red, State.sendCtrl, State.sendMirror_red]
    rfl
  · rw [State.reg_takeRole _ (by decide) (by decide), hu]
    exact State.claimRes_shows _ 1
  · rw [State.bit_of_reg (State.reg_takeRole _ (by decide) (by decide)), hu,
      State.bit_of_reg (State.reg_claimTold _ _ (by decide)), State.disarmed_claimRecorded]
  · have honly : OnlyReports s u := by
      rw [hu]
      refine .of_eq ?_ ?_ fun j => ?_
      · exact (State.raise_rsv ..).trans ((State.sendMirror_rsv ..).trans (hrsv.trans (by rw [hr]; rfl)))
      · exact (State.raise_mem ..).trans ((State.sendMirror_frame ..).2.2.trans (hmem.trans (by rw [hr]; rfl)))
      · rw [State.reg_claimed_jobReg, hr]
        rfl
    exact honly.sameMemButReports u.sameMemButReports_takeRole

/-! ### The interlock's input, TO_PAIR and RELEASE (R407, R409, R410) -/

/-- ILK_IN is shown as asserted. -/
def State.ilkShown (s : State) : State :=
  { s.setBit Reg.RED_STAT 1 true with red := { s.red with ilkFrom := none } }

theorem State.onlyReports_ilkShown (s : State) : OnlyReports s s.ilkShown :=
  .of_eq rfl rfl fun j => (s.reg_setBit ..).trans (if_neg (jobReg_ne_of_lt j 3 (by decide)))

theorem State.bit_ilkShown (s : State) {k i : Nat} (h : k ≠ Reg.RED_STAT ∨ i ≠ 1) : s.ilkShown.bit k i = s.bit k i := by
  change (s.setBit Reg.RED_STAT 1 true).bit k i = s.bit k i
  rw [bit_setBit _ _ _ _ (by decide), if_neg (by omega)]

theorem State.ilkIn_ilkShown (s : State) : s.ilkShown.ilkIn = true := bit_setBit_same s Reg.RED_STAT true (by decide)

/-- The withdrawal of a device of seat B within its confirm window is counted and shown (R407). -/
def State.claimWithdrawn (s : State) : State := ((s.count (Reg.RED_CNT + 4)).claimRes 2).raise pRED 2

theorem State.ilkAssert_cases (s : State) :
    (s.ilkAssert = s.ilkShown.dropInterlock ∨ s.ilkAssert = s.ilkShown.dropInterlock.claimWithdrawn) ∨
      (s.ilkAssert = s.ilkShown ∧ (s.seatB = true → s.ilkOut = false)) := by
  have hseat : s.ilkShown.seatB = s.seatB := s.bit_ilkShown (.inl (by decide))
  have hout : s.ilkShown.ilkOut = s.ilkOut := s.bit_ilkShown (.inr (by decide))
  have hassert : s.ilkAssert = if s.ilkShown.seatB && s.ilkShown.ilkOut then
      if s.ilkShown.red.claimFrom.isSome then s.ilkShown.dropInterlock.claimWithdrawn else s.ilkShown.dropInterlock
      else s.ilkShown := rfl
  rw [hassert, hseat, hout]
  cases hb : s.seatB && s.ilkOut with
  | false => exact .inr ⟨rfl, fun h => by rwa [h, Bool.true_and] at hb⟩
  | true =>
    cases s.ilkShown.red.claimFrom.isSome with
    | false => exact .inl (.inl rfl)
    | true => exact .inl (.inr rfl)

theorem State.ilkIn_dropInterlock (s : State) : s.dropInterlock.ilkIn = s.ilkIn := by
  have hdrop : s.ilkDropped.ilkIn = s.ilkIn := by
    change ((s.setBit Reg.RED_STAT 0 false).setBit Reg.RED_STAT 4 false).bit Reg.RED_STAT 1 = s.bit Reg.RED_STAT 1
    rw [bit_setBit _ _ _ _ (by decide), if_neg (by decide), bit_setBit _ _ _ _ (by decide), if_neg (by decide)]
  rw [dropInterlock_eq]
  split
  · exact (bit_setRole _ 3 (by decide)).trans hdrop
  · exact hdrop

theorem State.reg_claimWithdrawn (s : State) {k : Nat} (hk : k ∉ [Reg.RED_CNT + 4, Reg.RED_CLAIM_RES] ++ raiseKeys pRED) :
    s.claimWithdrawn.reg k = s.reg k := by
  simp only [List.mem_append, List.mem_cons, List.not_mem_nil, or_false, not_or] at hk
  obtain ⟨⟨hcnt, hres⟩, hraise⟩ := hk
  rw [claimWithdrawn, reg_raise _ hraise, reg_claimRes _ _ (by rw [List.mem_cons, not_or]; exact ⟨hres, hraise⟩), count, reg_bump,
    if_neg hcnt]

theorem ilkInAssert_asserts (s : State) :
    Completes .ilkInAssert s fun t => t.ilkIn = true ∧ (s.seatB = true → t.ilkOut = false) ∧ SameMemButReports s t := by
  have hdrop : SameMemButReports s s.ilkShown.dropInterlock :=
    s.onlyReports_ilkShown.sameMemButReports s.ilkShown.sameMemButReports_dropInterlock
  have hin : s.ilkShown.dropInterlock.ilkIn = true := s.ilkShown.ilkIn_dropInterlock.trans s.ilkIn_ilkShown
  refine ⟨_, rfl, ?_⟩
  obtain (h | h) | ⟨h, hout⟩ := s.ilkAssert_cases
  · rw [h]
    exact ⟨hin, fun _ => State.ilkOut_dropInterlock _, hdrop⟩
  · rw [h]
    refine ⟨(State.bit_of_reg (State.reg_claimWithdrawn _ (by decide)) 1).trans hin, fun _ => ?_,
      hdrop.of_mem ((State.raise_mem ..).trans (State.raise_mem ..))⟩
    exact (State.bit_of_reg (State.reg_claimWithdrawn _ (by decide)) 0).trans (State.ilkOut_dropInterlock _)
  · rw [h]
    exact ⟨s.ilkIn_ilkShown, fun hb => (s.bit_ilkShown (.inr (by decide))).trans (hout hb), s.onlyReports_ilkShown.mem⟩

theorem ilkInDeassert_deasserts (cycle : Nat) (s : State) (hin : s.ilkIn = true) :
    Completes (.ilkInDeassert cycle) s fun t => t.ilkIn = false ∧ t.red.ilkFrom = some (s.atCycle cycle).frcNow ∧
      t.bit (cReg pRED OFF_INT_STAT) 3 = true ∧ SameMem s t ∧ SameRegs s t (Reg.RED_STAT :: raiseKeys pRED) := by
  have hdeassert : (s.atCycle cycle).ilkDeassert =
      ({ (s.atCycle cycle).setBit Reg.RED_STAT 1 false with
        red := { (s.atCycle cycle).red with ilkFrom := some (s.atCycle cycle).frcNow } }).raise pRED 3 := if_pos hin
  refine ⟨_, congrArg Host.Outcome.next hdeassert, ?_, ?_, State.bit_raise _ _ (by decide), sameMem_of_mem (State.raise_mem ..),
    fun k hk => ?_⟩
  · rw [State.ilkIn, State.bit_of_reg (State.reg_raise _ (by decide))]
    exact State.bit_setBit_same _ _ _ (by decide)
  · rw [State.raise_red]
  · rw [List.mem_cons, not_or] at hk
    obtain ⟨hstat, hraise⟩ := hk
    rw [State.reg_raise _ hraise]
    exact (State.reg_setBit ..).trans (if_neg hstat)

theorem toPair_pairs (m : Fin 8) (s : State) (hacc : s.accepts m Reg.RED_CTRL 2 = true) (hrole : s.role = 0)
    (horphan : s.orphaned = false) (hnone : s.red.roleAt = none) :
    Completes (.toPair m) s fun t => t.red.roleAt = some (s.now + 1, 1) ∧ t.epoch = s.nextEpoch ∧
      t.reg Reg.RED_CLAIM_RES = 1 ∧ SameMem s t := by
  have hpair (u : State) (hu : u.role = 0) (huo : u.orphaned = false) (hun : u.red.roleAt = none) :
      u.toPair = ({ u.setEpoch u.nextEpoch with red := { u.red with roleAt := some (u.now + 1, 1) } }).claimRes 1 := by
    rw [State.toPair, if_neg]
    · rfl
    · simp [hu, huo, hun]
  refine ⟨_, congrArg Host.Outcome.next ((State.gateWrite_eq hacc (by decide +kernel) _).trans (hpair _ hrole horphan hnone)),
    ?_, ?_, State.claimRes_shows _ 1, sameMem_of_mem (State.raise_mem ..)⟩
  · rw [State.claimRes_red]
    rfl
  · rw [State.epoch, State.fld_of_reg (State.reg_claimRes _ 1 (by decide))]
    exact (State.epoch_setEpoch _ (State.nextEpoch_lt _)).trans (State.nextEpoch_congr rfl rfl rfl rfl rfl)

theorem interlockRelease_waits (m : Fin 8) (s : State) (hacc : s.accepts m Reg.RED_CTRL 1 = true) (hacts : s.roleActs = true) :
    Completes (.interlockRelease m) s fun t => t.red.release = true ∧ SameMem s t ∧ SameRegs s t [] := by
  have hrelease : (s.respond m true Reg.RED_CTRL .ok 0).releaseIlk =
      { s.respond m true Reg.RED_CTRL .ok 0 with red := { s.red with release := true } } := if_pos hacts
  exact ⟨_, congrArg Host.Outcome.next ((State.gateWrite_eq hacc (by decide +kernel) _).trans hrelease), rfl,
    sameMem_of_mem rfl, fun _ _ => rfl⟩

/-- Settles O25, clause by clause. -/
theorem claimCommandsComplete : Obligations.ClaimCommandsComplete := by
  unfold Obligations.ClaimCommandsComplete
  exact ⟨claimArm_arms, claimAttempt_opens, claimed_completes, ilkInAssert_asserts, ilkInDeassert_deasserts, toPair_pairs,
    interlockRelease_waits⟩

end Sys2Proof.Machine
end

section
/-! PROOFS. The mirror link's lanes (R82, R108, R415): a state in WAIT that shows a lane in service. -/

namespace Sys2Proof.Machine

/-- The mirror link waits before its next attempt, while RED_MIR shows lane 0 in service and lane 1 as retired. -/
def State.mirWaiting : State := (State.reset.setRegN Reg.RED_MIR 0x121).setRegN Reg.RED_MIR_CTRL 0xF

/-- RESTORE of lane 1 in that state lets it join the next attempt, and starts no training. -/
theorem training_restore_mirWaiting : (State.mirWaiting.gateWrite 0 Reg.RED_MIR_CTRL (BitVec.ofNat 32 (State.mirWaiting.mirEn + 16 * 2))
    fun s => s.mirCtrlWrite (BitVec.ofNat 32 (State.mirWaiting.mirEn + 16 * 2))).red.training = 0 := by
  decide +kernel

/-- Refutes O26: its clause on RESTORE asks for a lane in service, none of them disabled, and not for the state of the link; in
`State.mirWaiting`, which shows a lane in service in WAIT, the restored lane joins the next attempt alone (R108). -/
theorem not_mirrorControlCommandsComplete : ¬ Obligations.MirrorControlCommandsComplete := by
  unfold Obligations.MirrorControlCommandsComplete
  rintro ⟨-, -, -, -, -, hrestore, -⟩
  obtain ⟨t, hexec, htraining, -⟩ := hrestore 0 2 State.mirWaiting (by decide +kernel) (by decide +kernel) (by decide +kernel)
    (by decide +kernel)
  obtain rfl := Host.Outcome.next.inj hexec
  exact absurd (training_restore_mirWaiting.symm.trans htraining) (by decide +kernel)

end Sys2Proof.Machine
end

section
/-! PROOFS. Frames of the mirror link and the end of a Trapeze (R402 to R432). -/

namespace Sys2Proof.Machine

/-! ### Frames received -/

theorem State.mirRx_of_takes {s : State} {frame : List Byte} {kind : Nat} {f : MirFrame} (h : s.mirrorTakes true frame kind f)
    (eff : MirFrame → State → State) : s.mirRx true frame kind eff = eff f s := by
  obtain ⟨-, hoff, hreset, hlanes, hread, hkind⟩ := h
  have hlive : ¬ (!true || s.off || s.flt.inReset || s.mirLanes == 0) = true := by simp [hoff, hreset, hlanes]
  rw [mirRx, if_neg hlive, hread]
  exact if_pos hkind

theorem State.ctrlRx_of_takes {s : State} {frame : List Byte} {f : MirFrame} (h : s.mirrorTakes true frame 0x67 f) {op : Nat}
    (hop : leAt f.body 0 1 = op) (eff : MirFrame → State → State) : s.ctrlRx true frame op eff = eff f s :=
  (mirRx_of_takes h _).trans (if_pos hop)

/-! ### Frames sent -/

theorem State.sendMirror_of_up {s : State} (hup : s.mirrorUp = true) (hlit : s.mirDark = false) (kind : Nat) (tick : Tick) (seq : Nat)
    (body : List Byte) : s.sendMirror kind tick seq body = (s.emit (.mirror (s.mirrorFrame kind tick seq body))).emitTrain 16
      [(s.mirLanes, fillIdle (dataBlocks (s.mirrorFrame kind tick seq body)))] := by
  rw [sendMirror, if_pos hup, emitMirror, mirBlocks, if_neg (Bool.eq_false_iff.1 hlit)]

/-- A frame sent while the link is up leaves it. -/
theorem State.sendMirror_sends {s : State} (hup : s.mirrorUp = true) (hlit : s.mirDark = false) (kind : Nat) (tick : Tick)
    (seq : Nat) (body : List Byte) : SentFrame s (s.sendMirror kind tick seq body) (s.mirrorFrame kind tick seq body) := by
  rw [sendMirror_of_up hup hlit]
  exact ⟨_, rfl⟩

/-! ### A Trapeze ends on the standby (R432) -/

/-- What the redundancy unit keeps at the end of a Trapeze. -/
def RedSt.trapOver (r : RedSt) : RedSt :=
  { r with asked := false, queue := [], ctxIn := [], cutIn := [], past := [], syncAt := none, snapRun := (0, 0) }

/-- The registers after the end of a Trapeze, before it is shown as an event. -/
def State.trapShown (s : State) (res : Nat) : State :=
  ({ s with red := s.red.trapOver }.setFld Reg.RED_TRAP 8 3 0).setFld Reg.RED_TRAP 0 4 res

theorem State.trapEnd_eq (s : State) (res : Nat) : s.trapEnd res = ((s.trapShown res).raise pRED 5).resetMaster 3 := rfl

theorem State.trapEnd_red (s : State) (res : Nat) : (s.trapEnd res).red = s.red.trapOver := raise_red ..

theorem State.reg_trapEnd (s : State) (res : Nat) {k : Nat} (hk : k ∉ Reg.RED_TRAP :: raiseKeys pRED) :
    (s.trapEnd res).reg k = s.reg k := by
  rw [List.mem_cons, not_or] at hk
  obtain ⟨htrap, hraise⟩ := hk
  rw [trapEnd_eq, reg_resetMaster, reg_raise _ hraise, trapShown, reg_setFld, if_neg htrap, reg_setFld, if_neg htrap]
  rfl

theorem State.trapPhase_trapEnd (s : State) (res : Nat) : (s.trapEnd res).trapPhase = 0 := by
  rw [trapPhase, trapEnd_eq, fld_of_reg (reg_resetMaster ..), fld_of_reg (reg_raise _ (by decide)), trapShown,
    fld_setFld_other _ (by decide) (.inr (.inr (by decide))), fld_setFld_same _ (by decide)]
  rfl

theorem State.trapRes_trapEnd (s : State) {res : Nat} (h : res < 16) : (s.trapEnd res).fld Reg.RED_TRAP 0 4 = res := by
  rw [trapEnd_eq, fld_of_reg (reg_resetMaster ..), fld_of_reg (reg_raise _ (by decide)), trapShown, fld_setFld_same _ (by decide)]
  exact Nat.mod_eq_of_lt h

theorem State.bit_trapEnd (s : State) (res : Nat) : (s.trapEnd res).bit (cReg pRED OFF_INT_STAT) 5 = true :=
  bit_raise _ pRED (by decide)

theorem State.trapEnd_ends (s : State) {res : Nat} (h : res < 16) : (s.trapEnd res).trapPhase = 0 ∧
    (s.trapEnd res).fld Reg.RED_TRAP 0 4 = res ∧ (s.trapEnd res).bit (cReg pRED OFF_INT_STAT) 5 = true ∧
    SameMem s (s.trapEnd res) ∧ SameRegs s (s.trapEnd res) (Reg.RED_TRAP :: raiseKeys pRED) :=
  ⟨s.trapPhase_trapEnd res, s.trapRes_trapEnd h, s.bit_trapEnd res, sameMem_of_frame (s.trapEnd_frame res),
    fun _ hk => s.reg_trapEnd res hk⟩

/-! ### READY, SYNC_AT, RESULT and ABORT (R431, R432) -/

theorem ready_answers (frame : List Byte) (f : MirFrame) (s : State) (htakes : s.mirrorTakes true frame 0x67 f)
    (hop : leAt f.body 0 1 = 3) (hrole : s.role = 1) (hserve : s.red.serve ≠ none) (hup : s.mirrorUp = true)
    (hlit : s.mirDark = false) :
    Completes (.ready true frame) s fun t => SentFrame s t (s.mirrorFrame 0x67 s.now 0 (padTo 32 (toLE 1 4 ++
      List.replicate 7 (0 : Byte) ++ toLE 8 (s.now + 4).toNat ++ toLE 2 s.epoch ++ toLE 1 0))) ∧
      SameMem s t ∧ SameRegs s t [] := by
  have hready : s.readyFrame = s.sendCtrl 4 (s.now + 4) s.epoch 0 := if_pos ⟨hrole, Option.isSome_iff_ne_none.2 hserve⟩
  exact ⟨_, congrArg Host.Outcome.next ((State.ctrlRx_of_takes htakes hop _).trans hready),
    State.sendMirror_sends hup hlit .., sameMem_of_frame (State.sendMirror_frame ..), fun k _ => State.reg_sendMirror ..⟩

theorem syncAt_waits (frame : List Byte) (f : MirFrame) (s : State) (htakes : s.mirrorTakes true frame 0x67 f)
    (hop : leAt f.body 0 1 = 4) (hphase : s.trapPhase = 5) :
    Completes (.syncAt true frame) s fun t => t.trapPhase = 6 ∧ t.red.syncAt = some f.at' ∧ SameMem s t ∧
      SameRegs s t [Reg.RED_TRAP] := by
  have hsync : s.syncAtFrame f = { s.setFld Reg.RED_TRAP 8 3 6 with red := { s.red with syncAt := some f.at' } } :=
    if_neg (not_not.2 hphase)
  refine ⟨_, congrArg Host.Outcome.next ((State.ctrlRx_of_takes htakes hop _).trans hsync), s.fld_setFld_same (by decide), rfl,
    sameMem_of_mem rfl, fun k hk => ?_⟩
  exact (s.reg_setFld ..).trans (if_neg (by simpa using hk))

theorem result_ends (frame : List Byte) (f : MirFrame) (s : State) (htakes : s.mirrorTakes true frame 0x67 f)
    (hop : leAt f.body 0 1 = 5) (hserve : s.red.serve ≠ none) :
    Completes (.result true frame) s fun t => t.red.serve = none ∧ t.red.journal = (f.res == 1 && s.red.journal) ∧
      t.bit (cReg pRED OFF_INT_STAT) 5 = true ∧ SameMem s t ∧ SameRegs s t (raiseKeys pRED) := by
  have hresult : s.resultFrame f = (s.serveStop (f.res == 1)).raise pRED 5 := if_neg (by simpa using hserve)
  refine ⟨_, congrArg Host.Outcome.next ((State.ctrlRx_of_takes htakes hop _).trans hresult), ?_, ?_,
    State.bit_raise _ _ (by decide), sameMem_of_mem (State.raise_mem ..), fun k hk => State.reg_raise _ hk⟩
  · rw [State.raise_red]
    rfl
  · rw [State.raise_red]
    rfl

theorem mirrorAbort_ends (frame : List Byte) (f : MirFrame) (s : State) (htakes : s.mirrorTakes true frame 0x67 f)
    (hop : leAt f.body 0 1 = 7) (hruns : s.trapRuns = true) :
    Completes (.mirrorAbort true frame) s fun t => t.trapPhase = 0 ∧ t.red.asked = false ∧ t.fld Reg.RED_TRAP 0 4 = 8 ∧
      t.bit (cReg pRED OFF_INT_STAT) 5 = true ∧ SameMem s t ∧ SameRegs s t (Reg.RED_TRAP :: raiseKeys pRED) := by
  have habort : s.abortFrame = s.trapEnd 8 := if_pos hruns
  obtain ⟨hphase, hres, hint, hmem, hregs⟩ := s.trapEnd_ends (res := 8) (by decide)
  refine ⟨_, congrArg Host.Outcome.next ((State.ctrlRx_of_takes htakes hop _).trans habort), hphase, ?_, hres, hint, hmem, hregs⟩
  rw [State.trapEnd_red]
  rfl

theorem mirrorAbort_stops (frame : List Byte) (f : MirFrame) (s : State) (htakes : s.mirrorTakes true frame 0x67 f)
    (hop : leAt f.body 0 1 = 7) (hruns : s.trapRuns = false) (hserve : s.red.serve ≠ none) :
    Completes (.mirrorAbort true frame) s fun t => t.red.serve = none ∧ t.red.journal = false ∧
      t.bit (cReg pRED OFF_INT_STAT) 5 = true ∧ SameMem s t ∧ SameRegs s t (raiseKeys pRED) := by
  have habort : s.abortFrame = (s.serveStop false).raise pRED 5 :=
    (if_neg (Bool.eq_false_iff.1 hruns)).trans (if_pos (Option.isSome_iff_ne_none.2 hserve))
  refine ⟨_, congrArg Host.Outcome.next ((State.ctrlRx_of_takes htakes hop _).trans habort), ?_, ?_,
    State.bit_raise _ _ (by decide), sameMem_of_mem (State.raise_mem ..), fun k hk => State.reg_raise _ hk⟩
  · rw [State.raise_red]
    rfl
  · rw [State.raise_red]
    rfl

/-- Settles O56, clause by clause. -/
theorem trapezeEndComplete : Obligations.TrapezeEndComplete := by
  unfold Obligations.TrapezeEndComplete
  exact ⟨ready_answers, syncAt_waits, result_ends, mirrorAbort_ends, mirrorAbort_stops⟩

end Sys2Proof.Machine
end

section
/-! PROOFS. BULK begins on the standby (R428, R430): the shadow placement set is cleared with the rest. -/

namespace Sys2Proof.Machine

/-- A CATCH_ACK that accepts, from boundary 0 on. -/
def catchAckFrame : List Byte := State.reset.mirrorFrame 0x67 0 0 ([2, 1] ++ List.replicate 30 0)

/-- What the frame holds. -/
def catchAckRead : MirFrame := (readMirror? catchAckFrame).getD ⟨0, 0, 0, 0, 0, []⟩

/-- A device that has asked for a Trapeze, with a lane of the mirror link in service and one byte in its shadow placement set. -/
def State.askedWithShadow : State :=
  { ((State.reset.setRegN Reg.RED_MIR 0x701).setByte 0x129E0000 1) with red := { State.reset.red with asked := true } }

theorem catchAckFrame_taken : State.askedWithShadow.mirrorTakes true catchAckFrame 0x67 catchAckRead :=
  ⟨rfl, by decide +kernel, by decide +kernel, by decide +kernel, by decide +kernel, by decide +kernel⟩

/-- BULK begins with a shadow placement set that is clear. -/
theorem byte_bulkBegins : (State.askedWithShadow.ctrlRx true catchAckFrame 2 fun f s => s.catchAck f).byte 0x129E0000 = 0 := by
  decide +kernel

/-- Refutes O55: its clause on CATCH_ACK keeps every byte from 0x129E0000 on, while the standby clears the shadow placement set, up to
0x12A20000, with the active one. -/
theorem not_trapezeCopyComplete : ¬ Obligations.TrapezeCopyComplete := by
  unfold Obligations.TrapezeCopyComplete
  rintro ⟨-, hack, -⟩
  obtain ⟨t, hexec, -, -, -, -, -, -, -, hbytes, -⟩ := hack catchAckFrame catchAckRead State.askedWithShadow catchAckFrame_taken
    (by decide +kernel) rfl (by decide +kernel)
  obtain rfl := Host.Outcome.next.inj hexec
  have hkept := hbytes 0x129E0000
  rw [if_neg (by decide), byte_bulkBegins] at hkept
  exact absurd hkept (by decide +kernel)

end Sys2Proof.Machine
end

section
/-! PROOFS. HELLO, TRIG, DIGEST, REQ and CLAIMED frames (R403, R408, R417 to R419, R425). -/

namespace Sys2Proof.Machine

/-! ### What the low-level work of these frames leaves -/

/-- What the redundancy unit keeps of its link with the partner. -/
def RedSt.link (r : RedSt) : Option HelloSt × Bool × Bool × Option DigestSt := (r.hello, r.helloTx, r.helloRx, r.part)

/-- Of a state `s`, `t` has what it keeps of its partner, the partner's role, the lanes of the mirror link, and no more missing
digests. -/
structure LinkKept (s t : State) : Prop where
  link : t.red.link = s.red.link
  missRun : s.red.missRun = 0 → t.red.missRun = 0
  partner : t.partnerRole = s.partnerRole
  lanes : t.mirLanes = s.mirLanes
  noDigest : t.bit Reg.RED_STAT 7 = s.bit Reg.RED_STAT 7

theorem LinkKept.refl (s : State) : LinkKept s s := ⟨rfl, id, rfl, rfl, rfl⟩

theorem LinkKept.trans {s t u : State} (h : LinkKept s t) (h' : LinkKept t u) : LinkKept s u :=
  ⟨h'.link.trans h.link, h'.missRun ∘ h.missRun, h'.partner.trans h.partner, h'.lanes.trans h.lanes, h'.noDigest.trans h.noDigest⟩

/-- So much is kept, and no job of the solver is concerned. -/
structure LinkQuiet (s t : State) : Prop where
  kept : LinkKept s t
  only : OnlyReports s t

theorem LinkQuiet.refl (s : State) : LinkQuiet s s := ⟨.refl s, .refl s⟩

theorem LinkQuiet.trans {s t u : State} (h : LinkQuiet s t) (h' : LinkQuiet t u) : LinkQuiet s u :=
  ⟨h.kept.trans h'.kept, h.only.trans h'.only⟩

/-- The registers that a quiet step may write: none of the link's, and none behind the solver's. -/
def linkFree (l : List Nat) : Bool :=
  l.all fun k => decide (k < 0x04054400) && decide (k ∉ [Reg.RED_ROLE, Reg.RED_MIR, Reg.RED_STAT])

theorem LinkQuiet.of_regs {s t : State} (l : List Nat) (hl : linkFree l = true)
    (hregs : ∀ k, 0x04007000 ≤ k → k ∉ l → t.reg k = s.reg k) (hlink : t.red.link = s.red.link)
    (hmiss : t.red.missRun = s.red.missRun) (hrsv : t.rsv = s.rsv) (hmem : t.mem = s.mem) : LinkQuiet s t := by
  simp only [linkFree, List.all_eq_true, Bool.and_eq_true, decide_eq_true_iff] at hl
  have hred : ∀ k ∈ [Reg.RED_ROLE, Reg.RED_MIR, Reg.RED_STAT], t.reg k = s.reg k := fun k hk =>
    hregs k ((by decide : ∀ k ∈ [Reg.RED_ROLE, Reg.RED_MIR, Reg.RED_STAT], 0x04007000 ≤ k) k hk) fun h => (hl k h).2 hk
  refine ⟨⟨hlink, fun h => hmiss.trans h, State.fld_of_reg (hred _ (by simp)) 8 4, State.fld_of_reg (hred _ (by simp)) 0 4,
    State.bit_of_reg (hred _ (by simp)) 7⟩, .of_eq hrsv hmem fun j => hregs _ ?_ (jobReg_not_mem j 3 fun k hk => (hl k hk).1)⟩
  unfold jobReg Reg.RSV_JOB_W0
  omega

/-! ### The steps of a frame -/

theorem State.quiet_noteEpoch (s : State) (e : Nat) : LinkQuiet s (s.noteEpoch e) :=
  .of_regs [Reg.RED_EPOCH] (by decide) (fun _ _ hk => (reg_setFld ..).trans (if_neg (by simpa using hk))) rfl rfl rfl rfl

theorem State.trapEnd_rsv (s : State) (res : Nat) : (s.trapEnd res).rsv = s.rsv := raise_rsv ..

theorem State.quiet_trapEnd (s : State) (res : Nat) : LinkQuiet s (s.trapEnd res) :=
  .of_regs (Reg.RED_TRAP :: raiseKeys pRED) (by decide) (fun _ _ hk => s.reg_trapEnd res hk)
    (by rw [trapEnd_red]; rfl) (by rw [trapEnd_red]; rfl) (s.trapEnd_rsv res) (s.trapEnd_frame res).2.2

theorem State.quiet_partnerShows (s : State) (r : Nat) : LinkQuiet s (s.partnerShows r) := by
  have hserve (u : State) : LinkQuiet u (if u.red.journal && u.red.serve.isNone && r ≠ 2 then u.serveStop false else u) := by
    split
    · exact .of_regs [] rfl (fun _ _ _ => rfl) rfl rfl rfl rfl
    · exact .refl u
  unfold partnerShows
  dsimp only
  split
  · exact (s.quiet_trapEnd 3).trans (hserve _)
  · exact hserve s

theorem State.quiet_recordDiv (s : State) (cause : Nat) (t : Tick) : LinkQuiet s (s.recordDiv cause t) := by
  refine .of_regs ([Reg.RED_DIV, Reg.RED_DIV_TICK, Reg.RED_DIV_TICK + 4] ++ raiseKeys pRED) (by decide) (fun k hle hk => ?_) ?_ ?_ ?_ ?_
  · simp only [List.mem_append, List.mem_cons, List.not_mem_nil, or_false, not_or] at hk
    obtain ⟨⟨hdiv, htick, htick'⟩, hraise⟩ := hk
    rw [recordDiv, reg_raise _ hraise, reg_logEvent _ _ _ _ _ _ (.inr hle), reg_setReg64_other _ _ htick htick', reg_setRegN,
      if_neg hdiv]
  · rw [recordDiv, raise_red, logEvent_red]
    rfl
  · rw [recordDiv, raise_red, logEvent_red]
    rfl
  · rw [recordDiv, raise_rsv, logEvent_rsv]
    rfl
  · exact (s.recordDiv_frame cause t).2.2

theorem State.quiet_count (s : State) {k : Nat} (hk : linkFree [k] = true) : LinkQuiet s (s.count k) :=
  .of_regs [k] hk (fun _ _ h => (reg_bump ..).trans (if_neg (by simpa using h))) rfl rfl rfl rfl

theorem State.quiet_roleAt (s : State) (x : Option (Tick × Nat)) : LinkQuiet s { s with red := { s.red with roleAt := x } } :=
  .of_regs [] rfl (fun _ _ _ => rfl) rfl rfl rfl rfl

theorem State.quiet_diverge (s : State) (cause : Nat) (t : Tick) : LinkQuiet s (s.diverge cause t) := by
  unfold diverge
  split
  · split
    · exact .refl s
    · exact ((s.quiet_recordDiv cause t).trans (quiet_count _ (by decide))).trans (quiet_roleAt _ _)
  · split
    · exact s.quiet_recordDiv cause t
    · exact .refl s

theorem State.quiet_epochFrom (s : State) (f : MirFrame) : LinkQuiet s (s.epochFrom f) := by
  unfold epochFrom
  split
  · exact .refl s
  · split
    · split
      · exact .refl s
      · exact .of_regs [] rfl (fun _ _ _ => rfl) rfl rfl rfl rfl
    · split
      · exact .of_regs [] rfl (fun _ _ _ => rfl) rfl rfl rfl rfl
      · exact .refl s

theorem State.quiet_sendCtrl (s : State) (op : Nat) (t : Tick) (epoch res : Nat) : LinkQuiet s (s.sendCtrl op t epoch res) :=
  .of_regs [] rfl (fun _ _ _ => reg_sendMirror ..) (by rw [sendCtrl, sendMirror_red]) (by rw [sendCtrl, sendMirror_red])
    (sendMirror_rsv ..) (sendMirror_frame ..).2.2

theorem State.quiet_setReg64 (s : State) {k : Nat} (v : Nat) (hk : linkFree [k, k + 4] = true) : LinkQuiet s (s.setReg64 k v) :=
  .of_regs [k, k + 4] hk (fun j _ h => by
    rw [List.mem_cons, List.mem_singleton, not_or] at h
    exact s.reg_setReg64_other v h.1 h.2) rfl rfl rfl rfl

theorem State.quiet_setRegN (s : State) {k : Nat} (v : Nat) (hk : linkFree [k] = true) : LinkQuiet s (s.setRegN k v) :=
  .of_regs [k] hk (fun _ _ h => (reg_setRegN ..).trans (if_neg (by simpa using h))) rfl rfl rfl rfl

theorem State.quiet_setEpoch (s : State) (e : Nat) : LinkQuiet s (s.setEpoch e) :=
  .of_regs [Reg.RED_EPOCH] (by decide) (fun _ _ hk => s.reg_setEpoch e (by simpa using hk)) rfl rfl rfl rfl

theorem State.partnerRole_setRole (s : State) (r : Nat) : (s.setRole r).partnerRole = s.partnerRole := by
  by_cases h : s.role = r
  · rw [setRole, if_pos h]
  · rw [partnerRole, fld_of_reg (reg_of_steady (steady_setRole h) (by decide)), fld_of_reg (reg_roleSettled ..), roleShown,
      fld_setBit_other _ (by decide) (.inr (.inr (by decide))), setBit, setFld, fld_setReg_other _ _ _ _ (by decide)]
    exact fld_setFld_other _ (by decide) (.inr (.inr (by decide)))

theorem State.kept_setRole (s : State) (r : Nat) : LinkKept s (s.setRole r) where
  link := (congrArg RedSt.link (s.red_setRole r) :)
  missRun h := missRun_setRole h r
  partner := s.partnerRole_setRole r
  lanes := fld_of_reg (s.reg_setRole r (by decide) (by decide)) 0 4
  noDigest := s.bit_setRole r (by decide)

/-- A step of which so much is kept writes into memory no more than reports of cancelled jobs. -/
structure LinkStep (s t : State) : Prop where
  kept : LinkKept s t
  mem : SameMemButReports s t

theorem LinkQuiet.step {s t u : State} (h : LinkQuiet s t) (h' : LinkStep t u) : LinkStep s u :=
  ⟨h.kept.trans h'.kept, h.only.sameMemButReports h'.mem⟩

theorem LinkQuiet.toStep {s t : State} (h : LinkQuiet s t) : LinkStep s t := ⟨h.kept, h.only.mem⟩

theorem State.step_setRole (s : State) (r : Nat) : LinkStep s (s.setRole r) := ⟨s.kept_setRole r, s.sameMemButReports_setRole r⟩

/-! ### Digests are compared (R67, R421, R425, R431) -/

theorem State.quiet_jSeq (s : State) (n : Nat) : LinkQuiet s { s with red := { s.red with jSeq := n } } :=
  .of_regs [] rfl (fun _ _ _ => rfl) rfl rfl rfl rfl

theorem State.step_syncJudge (s : State) (ok : Bool) (k : Tick) : LinkStep s (s.syncJudge ok k) := by
  have hepoch (u : State) : LinkQuiet u
      (match u.red.part with | some d => if d.role = 1 then u.setEpoch d.epoch else u | none => u) := by
    split
    · split
      · exact u.quiet_setEpoch _
      · exact .refl u
    · exact .refl u
  unfold syncJudge
  split
  · exact ((((s.quiet_sendCtrl 5 k s.epoch 1).trans (quiet_setReg64 _ _ (by decide))).trans (quiet_trapEnd _ 1)).trans
      ((quiet_jSeq _ _).trans (hepoch _))).step (step_setRole _ 2)
  · exact ((s.quiet_sendCtrl 5 k s.epoch 7).trans (quiet_trapEnd _ 7)).toStep

theorem State.quiet_showDigest (s : State) (d : DigestSt) : LinkQuiet s (s.showDigest 3 d) :=
  (s.quiet_setRegN _ (by decide)).trans (quiet_setReg64 _ _ (by decide))

theorem State.quiet_compared (s : State) (x : Option Tick) : LinkQuiet s { s with red := { s.red with compared := x } } :=
  .of_regs [] rfl (fun _ _ _ => rfl) rfl rfl rfl rfl

theorem State.step_compareDigests (s : State) : LinkStep s s.compareDigests := by
  unfold compareDigests
  split
  · next o p _ _ =>
      split
      · exact (LinkQuiet.refl s).toStep
      · refine ((s.quiet_compared (some o.tick)).trans (quiet_showDigest _ p)).step ?_
        dsimp only
        split
        · exact step_syncJudge _ _ _
        · split
          · split
            · exact (quiet_diverge _ _ _).toStep
            · split
              · exact (quiet_diverge _ _ _).toStep
              · exact (LinkQuiet.refl _).toStep
          · exact (LinkQuiet.refl _).toStep
  · exact (LinkQuiet.refl s).toStep

/-! ### HELLO, TRIG and DIGEST (R417 to R419) -/

/-- What a HELLO frame says. -/
def MirFrame.hello (f : MirFrame) : HelloSt :=
  ⟨f.role, leAt f.body 4 4, bitAt (leAt f.body 11 1) 0, leAt f.body 10 1, leAt f.body 12 2⟩

/-- The partner's HELLO is kept and its role shown. -/
def State.helloShown (s : State) (f : MirFrame) : State :=
  ({ s with red := { s.red with hello := some f.hello, helloRx := true } }.setFld Reg.RED_ROLE 8 4 f.role).setFld Reg.RED_SEAT 1 1
    f.seat

/-- A partner on the same seat is recorded. -/
def State.seatJudged (s : State) (f : MirFrame) : State :=
  if f.seat = s.fld Reg.RED_SEAT 0 1 then (s.setBit Reg.RED_SEAT 2 true).raise pRED 7 else s

/-- A standby-synced device whose partner is solo loses its role. -/
def State.soloHeard (s : State) (f : MirFrame) : State := if f.role = 0 ∧ s.role = 2 then s.setRole 3 else s

theorem State.helloFrame_eq (s : State) (f : MirFrame) :
    s.helloFrame f = (((((s.helloShown f).seatJudged f).noteEpoch f.epoch).partnerShows f.role).soloHeard f).mirUpdate := rfl

theorem State.quiet_seatJudged (s : State) (f : MirFrame) : LinkQuiet s (s.seatJudged f) := by
  unfold seatJudged
  split
  · refine .of_regs (Reg.RED_SEAT :: raiseKeys pRED) (by decide) (fun k _ hk => ?_) (by rw [raise_red]; rfl) (by rw [raise_red]; rfl)
      (raise_rsv ..) (raise_mem ..)
    rw [List.mem_cons, not_or] at hk
    rw [reg_raise _ hk.2, reg_setBit, if_neg hk.1]
  · exact .refl s

theorem State.step_soloHeard (s : State) (f : MirFrame) : LinkStep s (s.soloHeard f) := by
  unfold soloHeard
  split
  · exact s.step_setRole 3
  · exact (LinkQuiet.refl s).toStep

theorem MirFrame.role_lt (f : MirFrame) : f.role < 16 := by
  have : f.role < 2 ^ 3 := Nat.mod_lt _ (by decide)
  omega

theorem hello_kept (frame : List Byte) (f : MirFrame) (s : State) (htakes : s.mirrorTakes true frame 0x61 f) :
    Completes (.hello true frame) s fun t => t.red.hello = some ⟨f.role, leAt f.body 4 4, bitAt (leAt f.body 11 1) 0,
        leAt f.body 10 1, leAt f.body 12 2⟩ ∧ t.red.helloRx = true ∧ t.fld Reg.RED_ROLE 8 4 = f.role ∧
      t.mirrorUp = s.red.helloTx ∧ SameMemButReports s t := by
  have hlanes : s.mirLanes ≠ 0 := by
    obtain ⟨-, -, -, hlanes, -⟩ := htakes
    exact hlanes
  obtain ⟨u, hu⟩ : ∃ u, u = ((((s.helloShown f).seatJudged f).noteEpoch f.epoch).partnerShows f.role).soloHeard f := ⟨_, rfl⟩
  have hstep : LinkStep (s.helloShown f) u := by
    rw [hu]
    exact (((State.quiet_seatJudged _ f).trans (State.quiet_noteEpoch _ _)).trans (State.quiet_partnerShows _ _)).step
      (State.step_soloHeard _ f)
  have hshown : OnlyReports s (s.helloShown f) := .of_eq rfl rfl fun j => by
    rw [State.helloShown, State.reg_setFld, if_neg (jobReg_ne_of_lt j 3 (by decide)), State.reg_setFld,
      if_neg (jobReg_ne_of_lt j 3 (by decide))]
    rfl
  have hlink : u.red.link = (some f.hello, s.red.helloTx, true, s.red.part) := hstep.kept.link
  simp only [RedSt.link, Prod.mk.injEq] at hlink
  obtain ⟨hhello, htx, hrx, -⟩ := hlink
  refine ⟨u.mirUpdate, congrArg Host.Outcome.next ((State.mirRx_of_takes htakes _).trans (hu ▸ s.helloFrame_eq f)), hhello, hrx,
    ?_, ?_, (hshown.sameMemButReports hstep.mem).of_mem rfl⟩
  · rw [State.mirUpdate, State.fld_setBit_other _ (by decide) (.inl (by decide))]
    refine hstep.kept.partner.trans ?_
    rw [State.partnerRole, State.helloShown, State.fld_setFld_other _ (by decide) (.inl (by decide)),
      State.fld_setFld_same _ (by decide)]
    exact Nat.mod_eq_of_lt f.role_lt
  · have hup : u.mirLanes = s.mirLanes := hstep.kept.lanes.trans (by
      rw [State.mirLanes, State.helloShown, State.fld_setFld_other _ (by decide) (.inl (by decide)),
        State.fld_setFld_other _ (by decide) (.inl (by decide))]
      rfl)
    rw [State.mirrorUp, State.mirUpdate, State.bit_setBit_same _ _ _ (by decide), hup, htx, hrx]
    simp [hlanes]

theorem trig_kept (frame : List Byte) (f : MirFrame) (s : State) (htakes : s.mirrorTakes true frame 0x62 f) :
    Completes (.trig true frame) s fun t => t.red.trig = some (f.tick, readTrig f.body) ∧ SameMem s t ∧ SameRegs s t [] :=
  ⟨_, congrArg Host.Outcome.next (State.mirRx_of_takes htakes _), rfl, sameMem_of_mem rfl, fun _ _ => rfl⟩

/-- What a DIGEST frame says. -/
def MirFrame.digest (f : MirFrame) : DigestSt :=
  ⟨f.tick, leAt f.body 0 4, leAt f.body 4 8, bitAt (leAt f.body 14 1) 0, bitAt (leAt f.body 14 1) 1, bitAt (leAt f.body 14 1) 2,
    f.role, f.epoch⟩

/-- The partner's digests are kept. -/
def State.digestShown (s : State) (f : MirFrame) : State :=
  { s with red := { s.red with part := some f.digest, missRun := 0 } }.setBit Reg.RED_STAT 7 false

/-- Digests are judged: compared when they are those expected, and a difference otherwise. -/
def State.digestJudged (s : State) (f : MirFrame) : State :=
  if s.digestExpected f.tick then
    ({ s with tck := { s.tck with partnerErr := some (s.partnerErrOf f.tick (leAt f.body 12 2)) } }).compareDigests
  else if s.role = 2 ∨ (s.role = 1 ∧ f.role = 2) then s.diverge 2 f.tick
  else s

theorem State.digestFrame_eq (s : State) (f : MirFrame) :
    s.digestFrame f = ((((s.noteEpoch f.epoch).partnerShows f.role).digestShown f).epochFrom f).digestJudged f := rfl

theorem State.quiet_partnerErr (s : State) (x : Option Int) : LinkQuiet s { s with tck := { s.tck with partnerErr := x } } :=
  .of_regs [] rfl (fun _ _ _ => rfl) rfl rfl rfl rfl

theorem State.step_digestJudged (s : State) (f : MirFrame) : LinkStep s (s.digestJudged f) := by
  unfold digestJudged
  split
  · exact (s.quiet_partnerErr _).step (step_compareDigests _)
  · split
    · exact (s.quiet_diverge 2 f.tick).toStep
    · exact (LinkQuiet.refl s).toStep

theorem digest_kept (frame : List Byte) (cycle : Nat) (f : MirFrame) (s : State) (htakes : s.mirrorTakes true frame 0x63 f) :
    Completes (.digest true frame cycle) s fun t =>
      t.red.part = some ⟨f.tick, leAt f.body 0 4, leAt f.body 4 8, bitAt (leAt f.body 14 1) 0, bitAt (leAt f.body 14 1) 1,
        bitAt (leAt f.body 14 1) 2, f.role, f.epoch⟩ ∧ t.red.missRun = 0 ∧ t.bit Reg.RED_STAT 7 = false ∧ SameMemButReports s t := by
  have htakes' : (s.atCycle cycle).mirrorTakes true frame 0x63 f := htakes
  obtain ⟨u, hu⟩ : ∃ u, u = ((s.atCycle cycle).noteEpoch f.epoch).partnerShows f.role := ⟨_, rfl⟩
  have hquiet : LinkQuiet (s.atCycle cycle) u := hu ▸ (State.quiet_noteEpoch _ _).trans (State.quiet_partnerShows _ _)
  have hat : OnlyReports s (s.atCycle cycle) := .of_eq rfl rfl fun _ => rfl
  have hshown : OnlyReports u (u.digestShown f) := .of_eq rfl rfl fun j =>
    (State.reg_setBit ..).trans (if_neg (jobReg_ne_of_lt j 3 (by decide)))
  have hstep : LinkStep (u.digestShown f) (((u.digestShown f).epochFrom f).digestJudged f) :=
    (State.quiet_epochFrom _ f).step (State.step_digestJudged _ f)
  have hlink := hstep.kept.link
  simp only [RedSt.link, Prod.mk.injEq] at hlink
  obtain ⟨-, -, -, hpart⟩ := hlink
  refine ⟨_, congrArg Host.Outcome.next ((State.mirRx_of_takes htakes' _).trans (hu ▸ State.digestFrame_eq _ f)), hpart,
    hstep.kept.missRun rfl, ?_, ((hat.trans hquiet.only).trans hshown).sameMemButReports hstep.mem⟩
  rw [hstep.kept.noDigest]
  exact State.bit_setBit_same _ _ _ (by decide)

/-! ### A DIGEST that has not come (R425) -/

/-- A missing digest is counted. -/
def State.digestCounted (s : State) (k : Tick) : State :=
  ({ s with red := { s.red with compared := some k, missRun := s.red.missRun + 1 } }.count (Reg.RED_CNT + 8)).setBit Reg.RED_STAT 7 true

theorem digestDeadline_counts (o : DigestSt) (s : State) (hown : s.red.own = some o) (hcompared : s.red.compared ≠ some o.tick)
    (hsync : s.red.syncAt ≠ some o.tick ∨ s.trapPhase ≠ 6) (hrole : s.role = 2 ∨ s.role = 1 ∧ s.partnerRole = 2) :
    Completes .digestDeadline s fun t => t.red.compared = some o.tick ∧ t.red.missRun = s.red.missRun + 1 ∧
      (t.reg (Reg.RED_CNT + 8)).toNat = satAdd 0xFFFFFFFF (s.reg (Reg.RED_CNT + 8)).toNat 1 ∧ t.bit Reg.RED_STAT 7 = true ∧
      SameMem s t ∧ SameRegs s t ([Reg.RED_CNT + 8, Reg.RED_STAT] ++ raiseKeys pRED) := by
  have hnot : ¬ (s.role ≠ 2 ∧ (!(decide (s.role = 1 ∧ s.partnerRole = 2))) = true) := fun h => by
    obtain h2 | h1 := hrole
    · exact h.1 h2
    · simp [h1] at h
  have hmissing : s.digestMissing = (s.digestCounted o.tick).raiseIf ((s.digestCounted o.tick).red.missRun == 16) pRED 6 := by
    rw [State.digestMissing, hown]
    dsimp only
    rw [if_neg hcompared, if_neg fun h => hsync.elim (· h.1) (· h.2), if_neg (by simpa using hnot)]
    rfl
  refine ⟨_, congrArg Host.Outcome.next hmissing, ?_, ?_, ?_, ?_, sameMem_of_mem (State.raiseIf_mem ..), fun k hk => ?_⟩
  · rw [State.raiseIf_red]
    rfl
  · rw [State.raiseIf_red]
    rfl
  · rw [← fld_word, ← fld_word]
    change State.fld _ _ 0 32 = satAdd _ (s.fld (Reg.RED_CNT + 8) 0 32) 1
    rw [State.fld_of_reg (State.reg_raiseIf _ (by decide)), State.digestCounted,
      State.fld_setBit_other _ (by decide) (.inl (by decide)), State.count, State.fld_bump_same _ _ (by decide)]
    rfl
  · rw [State.bit_of_reg (State.reg_raiseIf _ (by decide))]
    exact State.bit_setBit_same _ _ _ (by decide)
  · simp only [List.mem_append, List.mem_cons, List.not_mem_nil, or_false, not_or] at hk
    obtain ⟨⟨hcnt, hstat⟩, hraise⟩ := hk
    rw [State.reg_raiseIf _ hraise, State.digestCounted, State.reg_setBit, if_neg hstat, State.count, State.reg_bump, if_neg hcnt]
    rfl

/-! ### CLAIMED and REQ (R202, R412) -/

theorem claimedFrame_takes (frame : List Byte) (f : MirFrame) (s : State) (htakes : s.mirrorTakes true frame 0x67 f)
    (hop : leAt f.body 0 1 = 6) (hrole : s.role = 2) :
    Completes (.claimedFrame true frame) s fun t => t.red.epochAt = some (f.at', f.ep) ∧ t.bit Reg.RED_ROLE 4 = false ∧
      SameMem s t ∧ SameRegs s t [Reg.RED_ROLE] := by
  have hrole' : (s.setBit Reg.RED_ROLE 4 false).role = 2 := (s.fld_setBit_other (by decide) (.inr (.inl (by decide)))).trans hrole
  have hclaimed : s.claimedFrame f = { s.setBit Reg.RED_ROLE 4 false with red := { s.red with epochAt := some (f.at', f.ep) } } :=
    if_pos hrole'
  exact ⟨_, congrArg Host.Outcome.next ((State.ctrlRx_of_takes htakes hop _).trans hclaimed), rfl,
    s.bit_setBit_same _ _ (by decide), sameMem_of_mem rfl, fun k hk => (s.reg_setBit ..).trans (if_neg (by simpa using hk))⟩

theorem req_stages (frame : List Byte) (f : MirFrame) (s : State) (htakes : s.mirrorTakes true frame 0x64 f) (hrole : s.role = 2) :
    Completes (.req true frame) s fun t =>
      t.rce.staging = some ⟨leAt f.body 0 2 % 8192, BitVec.ofNat 64 (leAt f.body 2 8), false, true,
        BitVec.ofNat 64 (leAt f.body 2 8), false⟩ ∧ t.bit Reg.RCE_STAT 2 = true ∧ SameMem s t := by
  have hreq : s.reqFrame f = s.applyForwarded (leAt f.body 0 2) (BitVec.ofNat 64 (leAt f.body 2 8)) := if_pos hrole
  exact ⟨_, congrArg Host.Outcome.next ((State.mirRx_of_takes htakes _).trans hreq), rfl,
    State.bit_setBit_same _ _ _ (by decide), sameMem_of_frame (State.applyForwarded_frame ..)⟩

/-- Settles O54, clause by clause: the tick of a CLAIMED frame counts from its boundary on (R412), and a forwarded request is never
late (assumption 115). -/
theorem mirrorFramesComplete : Obligations.MirrorFramesComplete := by
  unfold Obligations.MirrorFramesComplete
  exact ⟨hello_kept, trig_kept, digest_kept, digestDeadline_counts, claimedFrame_takes, req_stages⟩

end Sys2Proof.Machine
end

section
/-! PROOFS. Start-up (R516 to R525): what its steps leave. -/

namespace Sys2Proof.Machine

/-! ### The ports of a fabric (R36, R82, R109) -/

theorem State.steady_setPort (s : State) (n : Nat) (f : PortSt → PortSt) : (s.setPort n f).steady = s.steady := rfl

theorem State.steady_setPortState (s : State) (n st : Nat) : (s.setPortState n st).steady = s.steady :=
  s.steady_setFld _ _ _ (steadyKey_atInst n (by decide))

theorem State.steady_setLanesUp (s : State) (n m : Nat) : (s.setLanesUp n m).steady = s.steady :=
  s.steady_setFld _ _ _ (steadyKey_atInst n (by decide))

theorem State.steady_setAbsent (s : State) (n : Nat) (b : Bool) : (s.setAbsent n b).steady = s.steady := by
  unfold setAbsent
  dsimp only
  rw [steady_raiseIf _ _ _ (by decide), steady_setBit _ _ _ (steadyKey_atInst n (by decide))]
  split <;> rfl

theorem State.steady_laneBack (s : State) (n k : Nat) : (s.laneBack n k).steady = s.steady :=
  s.steady_setBit _ _ (steadyKey_atInst n (by decide))

theorem pBYV_above_thm {n : Nat} (hn : n < 16) : pBYV n < 0x4000 ∧ pTHM < pBYV n := by
  unfold pBYV pTHM
  omega

theorem State.steady_laneOut (s : State) {n : Nat} (k : Nat) (hn : n < 16) : (s.laneOut n k).steady = s.steady := by
  unfold laneOut
  dsimp only
  rw [steady_tckWatch, steady_retire _ _ _ _ (pBYV_above_thm hn), steady_setBit _ _ _ (steadyKey_atInst n (by decide)),
    steady_setBit _ _ _ (steadyKey_atInst n (by decide))]

theorem State.steady_portDown (s : State) {n : Nat} (hn : n < 16) : (s.portDown n).steady = s.steady := by
  unfold portDown
  dsimp only
  rw [steady_raise _ _ (pBYV_lt_pages hn), steady_setPort, steady_setAbsent, steady_setLanesUp, steady_setPortState]

theorem State.steady_beginAttempt (s : State) {n : Nat} (hn : n < 16) : (s.beginAttempt n).steady = s.steady := by
  have hback (t : State) (m : Nat) : ((setBits 2 m).foldl (fun s k => s.laneBack n k) t).steady = t.steady :=
    steady_foldl _ _ _ fun _ _ _ => steady_laneBack ..
  have hout (t : State) (m : Nat) : (t.lanesOut n m).steady = t.steady := steady_foldl _ _ _ fun _ _ _ => steady_laneOut _ _ hn
  have hcnt (t : State) : (t.showLaneCnt n).steady = t.steady := steady_setRegN _ _ (steadyKey_atInst n (by decide))
  unfold beginAttempt
  dsimp only
  refine (steady_ite (steady_portDown _ hn) (steady_setPortState ..)).trans ?_
  rw [steady_showChange, hcnt, steady_setPort, hout, hback, steady_setAbsent, steady_setLanesUp]

theorem State.steady_startAttempt (s : State) {n : Nat} (hn : n < 16) : (s.startAttempt n).steady = s.steady :=
  steady_beginAttempt _ hn

theorem State.steady_topoPorts (s : State) (t : Topo) : (s.topoPorts t).steady = s.steady := by
  refine steady_foldl _ _ _ fun u n hn => steady_ite (steady_ite (steady_ite ?_ ?_) rfl) ?_
  · exact u.steady_setAbsent n true
  · exact u.steady_startAttempt (List.mem_range.1 hn)
  · rw [steady_setAbsent, trainRes, steady_setRegN _ _ (steadyKey_atInst n (by decide)), steady_setLanesUp, steady_setPortState]

/-! ### The boot image (R219, R520) -/

theorem State.steady_armSafety (s : State) : s.armSafety.steady = s.steady := by
  unfold armSafety
  dsimp only
  rw [steady_raise _ _ (by decide)]
  refine (steady_ite ?_ rfl).trans (s.steady_setFld _ _ _ (by decide))
  exact steady_setBit _ _ _ (by decide)

theorem State.steady_defaultSafety (s : State) : s.defaultSafety.steady = s.steady := by
  unfold defaultSafety
  split
  · rw [steady_armSafety, putRec, steady_setBytes]
  · rfl

theorem State.steady_clearLols (s : State) : s.clearLols.steady = s.steady := by
  refine steady_foldl _ _ _ fun u w hw => ?_
  have hw : w < 32 := List.mem_range.1 hw
  rw [steady_setRegN _ _ (steadyKey_of_le (Nat.le_add_right_of_le (by decide))),
    steady_setRegN _ _ (steadyKey_of_le (Nat.le_add_right_of_le (by decide)))]

/-- The losses of light seen before are forgotten. -/
def State.losCleared (s : State) : State := { s with mea := { s.mea with los := [] } }

/-- The registers that name a fabric. -/
def State.topoNamed (s : State) (t : Topo) (l : List Byte) : State :=
  (((({ s with topo := some t, topoBytes := l.take (leAt l 32 4) }).keepDrives).setRegN Reg.FAB_TOPO
    (t.efeMask * 65536 + b2n t.explicitAttach * 128 + b2n t.explicitWiring * 64 + t.extra * 16 + t.log2n)).setRegN Reg.FAB_TOPO_ID
      t.topoId).setBit Reg.FAB_STAT 0 true

theorem State.installTopo_eq (s : State) (t : Topo) (l : List Byte) : s.installTopo t l =
    ((s.topoNamed t l).defaultSafety.clearLols.losCleared.topoPorts t).raiseIf
      (((s.topoNamed t l).defaultSafety.clearLols.losCleared.topoPorts t).unavailMask != s.unavailMask) pFAB 3 := rfl

theorem State.steady_installTopo (s : State) (t : Topo) (l : List Byte) : (s.installTopo t l).steady = s.steady := by
  have hlos (u : State) : u.losCleared.steady = u.steady := rfl
  rw [installTopo_eq, steady_raiseIf _ _ _ (by decide), steady_topoPorts, hlos, steady_clearLols, steady_defaultSafety, topoNamed,
    steady_setBit _ _ _ (by decide), steady_setRegN _ _ (by decide), steady_setRegN _ _ (by decide)]
  rfl

theorem State.steady_clearChecked (s : State) : s.clearChecked.steady = s.steady := by
  unfold clearChecked
  dsimp only
  split
  · rw [steady_raise _ _ (by decide), steady_setRegN _ _ (by decide)]
    exact s.steady_setBit _ _ (by decide)
  · exact s.steady_setBit _ _ (by decide)

theorem State.steady_journalWords (s : State) (l : List (Nat × Nat)) : (s.journalWords l).steady = s.steady :=
  steady_ite (steady_foldl _ _ _ fun _ _ _ => rfl) rfl

theorem State.steady_imgWrite (s : State) (type : Nat) (b : List Byte) : (s.imgWrite type b).steady = s.steady := by
  unfold imgWrite
  split
  · split
    · exact s.steady_installTopo ..
    · rfl
  · rw [steady_clearChecked, steady_setBytes]
  · exact s.steady_setBytes ..
  · dsimp only
    rw [steady_journalWords, setShd, steady_setBit _ _ _ (by decide)]
    exact s.steady_setRegN _ (by decide)
  · exact s.steady_setBytes ..
  · dsimp only
    rw [steady_journalWords, prtUncheck, steady_setBit _ _ _ (by decide)]
    rfl
  · dsimp only
    rw [steady_journalWords]
    refine (steady_foldl _ _ _ fun u i _ => ?_).trans (steady_ite rfl rfl)
    exact u.steady_setRegN _ (steadyKey_of_le (Nat.le_add_right_of_le (by decide)))
  · rfl

theorem ImgRun.steady_ite {c : Prop} [Decidable c] {x : Steady} {t u : ImgRun} (ht : t.s.steady = x) (hu : u.s.steady = x) :
    (if c then t else u).s.steady = x := by
  split
  · exact ht
  · exact hu

theorem ImgRun.steady_record (r : ImgRun) (b : List Byte) : (r.record b).s.steady = r.s.steady :=
  steady_ite rfl (steady_ite rfl (steady_ite rfl (State.steady_setBytes ..)))

theorem ImgRun.steady_section (r : ImgRun) (img : List Byte) (stop why : Nat) (e : ImgSec) :
    (r.section img stop why e).s.steady = r.s.steady := by
  have hrecords (f : Nat → List Byte) (l : List Nat) : (l.foldl (fun (r : ImgRun) i => r.record (f i)) r).s.steady = r.s.steady :=
    List.foldlRecOn (motive := fun t : ImgRun => t.s.steady = r.s.steady) _ _ rfl fun t ht i _ => (t.steady_record _).trans ht
  unfold ImgRun.section
  refine steady_ite rfl (steady_ite (steady_ite rfl rfl) (steady_ite rfl (steady_ite ?_ (steady_ite rfl (steady_ite rfl ?_)))))
  · refine steady_ite (hrecords _ _) (steady_ite (hrecords _ _) (steady_ite (hrecords _ _) (hrecords _ _)))
  · split
    · rfl
    · exact State.steady_imgWrite ..

theorem ImgRun.steady_topoCheck (r : ImgRun) (topoId : Nat) : (r.topoCheck topoId).s.steady = r.s.steady := steady_ite rfl rfl

theorem ImgRun.steady_sections (img : List Byte) (topoId stop why : Nat) (l : List ImgSec) (r : ImgRun) :
    (r.sections img topoId stop why l).s.steady = r.s.steady := by
  induction l generalizing r with
  | nil => rfl
  | cons e t ih =>
    have hsection := r.steady_section img stop why e
    exact (ih _).trans (steady_ite ((steady_topoCheck ..).trans hsection) hsection)

theorem ImgRun.steady_allSections (r : ImgRun) (img : List Byte) (topoId stop why : Nat) (l : List ImgSec) :
    (r.allSections img topoId stop why l).s.steady = r.s.steady :=
  (steady_sections ..).trans (steady_ite rfl (steady_topoCheck ..))

/-! ### Keys, calibration and park values (R302, R347, R519) -/

theorem State.steady_takeKey (s : State) (n : Nat) : (s.takeKey n).steady = s.steady := by
  have hclose (t : State) (i : Nat) : (t.mgtClose i).steady = t.steady := by
    rw [mgtClose]
    change State.steady (State.raise _ pPKT 2) = _
    rw [steady_raise _ _ (by decide), steady_setBit _ _ _ (by decide)]
    rfl
  unfold takeKey
  dsimp only
  rw [steady_setBit _ _ _ (by decide)]
  have hslot : (s.closeSlot n).steady = s.steady := steady_foldl _ _ _ fun _ _ _ => hclose ..
  split
  · exact hslot
  · exact hslot

theorem State.steady_cal (s : State) (x : CalSt) : { s with cal := x }.steady = s.steady := rfl

theorem State.steady_calBoot (s : State) : s.calBoot.steady = s.steady := by
  have hseqs : s.calSeqs.1.steady = s.steady := by
    rw [calSeqs, steady_setRegN _ _ (by decide), steady_setRegN _ _ (by decide)]
  unfold calBoot
  dsimp only
  split
  · rw [steady_cal, steady_setBit _ _ _ (by decide), steady_setBit _ _ _ (by decide), hseqs]
  · rw [steady_cal, steady_setBit _ _ _ (by decide), hseqs]

theorem State.steady_takePark (s : State) : s.takePark.steady = s.steady := steady_foldl _ _ _ fun _ _ _ => rfl

end Sys2Proof.Machine
end

section
/-! PROOFS. Restarts (R449, R496, R510, R516 to R525, R550, R551). -/

namespace Sys2Proof.Machine

/-! ### What start-up leaves -/

/-- The registers that show the start-up, the cause of the reset and QUIET. -/
def bootKeys : List Nat := [Reg.GLB_BOOT, Reg.GLB_RESET_CAUSE, Reg.BMX_QUIET_DECODE]

/-- Of a state `s`, `t` has some of these registers, the blocks in soft reset, and the power. -/
structure BootKept (ks : List Nat) (s t : State) : Prop where
  regs : ∀ k ∈ ks, t.reg k = s.reg k
  srst : t.rst.srst = s.rst.srst
  off : t.off = s.off

section

variable {ks : List Nat}

theorem BootKept.refl (s : State) : BootKept ks s s := ⟨fun _ _ => rfl, rfl, rfl⟩

theorem BootKept.trans {s t u : State} (h : BootKept ks s t) (h' : BootKept ks t u) : BootKept ks s u :=
  ⟨fun k hk => (h'.regs k hk).trans (h.regs k hk), h'.srst.trans h.srst, h'.off.trans h.off⟩

theorem BootKept.ite {c : Prop} [Decidable c] {s t u : State} (ht : BootKept ks s t) (hu : BootKept ks s u) :
    BootKept ks s (if c then t else u) := by
  split
  · exact ht
  · exact hu

theorem BootKept.foldl {α : Type} (f : State → α → State) (l : List α) (s : State) (h : ∀ s, ∀ a ∈ l, BootKept ks s (f s a)) :
    BootKept ks s (l.foldl f s) :=
  List.foldlRecOn (motive := fun t => BootKept ks s t) l f (.refl s) fun t ht a ha => ht.trans (h t a ha)

theorem BootKept.of_regs {s t : State} (hregs : ∀ k, t.reg k = s.reg k) (hrst : t.rst = s.rst) (hoff : t.off = s.off) :
    BootKept ks s t :=
  ⟨fun k _ => hregs k, by rw [hrst], hoff⟩

theorem State.kept_inReset (s : State) (b : Bool) : BootKept ks s { s with flt := { s.flt with inReset := b } } :=
  .of_regs (fun _ => rfl) rfl rfl

theorem State.kept_setReg (s : State) {k : Nat} (v : Word) (hk : k ∉ ks) : BootKept ks s (s.setReg k v) :=
  ⟨fun _ hj => reg_setReg_other _ _ fun h => hk (h ▸ hj), rfl, rfl⟩

variable (hks : ks ⊆ bootKeys)

include hks

theorem BootKept.of_steady {s t : State} (h : t.steady = s.steady) : BootKept ks s t :=
  ⟨fun k hk => State.reg_of_steady h ((by decide : ∀ k ∈ bootKeys, steadyKey k = true) k (hks hk)),
    congrArg (fun x : Steady => x.rst.srst) h, congrArg Steady.off h⟩

theorem State.kept_setReg_apart (s : State) {k : Nat} (v : Word) (hk : k ∉ bootKeys) : BootKept ks s (s.setReg k v) :=
  s.kept_setReg v fun h => hk (hks h)

theorem State.kept_setFld (s : State) {k : Nat} (lo len v : Nat) (hk : k ∉ bootKeys) : BootKept ks s (s.setFld k lo len v) :=
  s.kept_setReg_apart hks _ hk

theorem State.kept_setBit (s : State) {k : Nat} (i : Nat) (b : Bool) (hk : k ∉ bootKeys) : BootKept ks s (s.setBit k i b) :=
  s.kept_setReg_apart hks _ hk

/-! ### The mirror link trains (R82, R415) -/

theorem State.kept_trapStop (s : State) (res : Nat) : BootKept ks s (s.trapStop res) := by
  refine .ite ?_ (.refl s)
  rw [trapEnd_eq]
  refine ((BootKept.of_regs (fun _ => rfl) rfl rfl : BootKept ks s { s with red := s.red.trapOver }).trans ?_).trans
    (.of_steady hks (steady_raise (s.trapShown res) 5 (by decide)))
  exact (kept_setFld hks _ _ _ _ (by decide)).trans (kept_setFld hks _ _ _ _ (by decide))

theorem State.kept_mirrorDown (s : State) : BootKept ks s s.mirrorDown := by
  obtain ⟨w, hw⟩ : ∃ w, w = (s.mirForget.setFld Reg.RED_MIR 0 4 0).mirUpdate := ⟨_, rfl⟩
  have hend : s.mirrorDown = (((w.trapStop 4).serveStop false).resetMaster 3).raiseIf s.mirrorUp pRED 9 := hw ▸ rfl
  have hforget : BootKept ks s w := by
    rw [hw]
    exact ((BootKept.of_regs (fun _ => rfl) rfl rfl : BootKept ks s s.mirForget).trans
      (kept_setFld hks _ _ _ _ (by decide))).trans (kept_setBit hks _ _ _ (by decide))
  rw [hend]
  refine ((hforget.trans (w.kept_trapStop hks 4)).trans (.of_regs (fun _ => rfl) rfl rfl)).trans
    (.of_steady hks (steady_raiseIf _ _ _ (by decide)))

theorem State.kept_mirNoLane (s : State) : BootKept ks s s.mirNoLane :=
  ((BootKept.of_regs (fun _ => rfl) rfl rfl : BootKept ks s
    { s with red := { s.red with training := 0, trained := 0, aligned := 0 } }).trans (kept_mirrorDown hks _)).trans
      (kept_setFld hks _ _ _ _ (by decide))

theorem State.kept_mirLanesBack (s : State) (m : Nat) : BootKept ks s (s.mirLanesBack m) :=
  (s.kept_setFld hks _ _ _ (by decide)).trans (.foldl _ _ _ fun _ _ _ => .of_regs (fun _ => rfl) rfl rfl)

theorem State.kept_mirLanesOut (s : State) (m : Nat) : BootKept ks s (s.mirLanesOut m) :=
  .foldl _ _ _ fun _ _ _ => ((kept_setFld hks _ _ _ _ (by decide)).trans (kept_setFld hks _ _ _ _ (by decide))).trans
    (.of_steady hks (steady_retire _ _ _ _ (by decide)))

omit hks in
/-- The lanes that an attempt of the mirror link trains. -/
def State.mirAttempt (s : State) (en : Nat) : State :=
  ({ s with red := { s.red with training := en, trained := 0, aligned := 0 } }).setPort 16 fun p => { p with lost := 0, unlocked := 0 }

omit hks in
theorem State.mirBegin_eq (s : State) : s.mirBegin =
    if s.mirrorDown.mirEn &&& s.mirrorDown.red.attempt = 0 then
      (((s.mirrorDown.mirLanesBack (s.mirrorDown.mirEn &&& s.mirrorDown.red.attempt)).mirLanesOut
        (15 ^^^ (s.mirrorDown.mirEn &&& s.mirrorDown.red.attempt))).mirAttempt
          (s.mirrorDown.mirEn &&& s.mirrorDown.red.attempt)).mirNoLane
    else
      (((s.mirrorDown.mirLanesBack (s.mirrorDown.mirEn &&& s.mirrorDown.red.attempt)).mirLanesOut
        (15 ^^^ (s.mirrorDown.mirEn &&& s.mirrorDown.red.attempt))).mirAttempt
          (s.mirrorDown.mirEn &&& s.mirrorDown.red.attempt)).setFld Reg.RED_MIR 8 4 2 := rfl

theorem State.kept_mirBegin (s : State) : BootKept ks s s.mirBegin := by
  obtain ⟨en, hen⟩ : ∃ en, en = s.mirrorDown.mirEn &&& s.mirrorDown.red.attempt := ⟨_, rfl⟩
  have hattempt : BootKept ks s (((s.mirrorDown.mirLanesBack en).mirLanesOut (15 ^^^ en)).mirAttempt en) :=
    (((s.kept_mirrorDown hks).trans (kept_mirLanesBack hks _ _)).trans (kept_mirLanesOut hks _ _)).trans
      (.of_regs (fun _ => rfl) rfl rfl)
  rw [mirBegin_eq, ← hen]
  exact .ite (hattempt.trans (kept_mirNoLane hks _)) (hattempt.trans (kept_setFld hks _ _ _ _ (by decide)))

theorem State.kept_mirTrain (s : State) : BootKept ks s s.mirTrain :=
  (BootKept.of_regs (fun _ => rfl) rfl rfl : BootKept ks s { s with red := { s.red with attempt := 15 } }).trans
    (kept_mirBegin hks _)

/-! ### The fault log's copy is shown (R447) -/

theorem State.kept_setPhist (s : State) {i : Nat} (v : Nat) (hi : i < 256) :
    BootKept ks s (s.setRegN (Reg.FLT_PHIST + 4 * i) v) := by
  refine s.kept_setReg_apart hks _ fun h => ?_
  simp only [bootKeys, List.mem_cons, List.not_mem_nil, or_false, Reg.FLT_PHIST, Reg.GLB_BOOT, Reg.GLB_RESET_CAUSE,
    Reg.BMX_QUIET_DECODE] at h
  omega

omit hks in
/-- A valid copy holds at most 32 entries. -/
theorem State.fltCount_le {s : State} {b q : Nat} (h : s.fltSeq? b = some q) : s.loadN (fltCopy b + 6) 2 ≤ 32 := by
  unfold fltSeq? at h
  split at h
  · cases h
  · dsimp only at h
    split at h
    · next hvalid =>
        obtain ⟨-, -, hcount, -, -⟩ := hvalid
        exact hcount
    · cases h

omit hks in
/-- The copy that is shown at boot holds at most 32 entries. -/
theorem State.shownCount_le {s : State} {b : Nat} (h : chooseBank (s.fltSeq? 0) (s.fltSeq? 1) = some b) :
    s.loadN (fltCopy b + 6) 2 ≤ 32 := by
  have hvalid : s.fltSeq? b ≠ none := by
    revert h
    cases h0 : s.fltSeq? 0 <;> cases h1 : s.fltSeq? 1
    · exact fun h => nomatch h
    · rintro ⟨⟩
      simp [h1]
    · rintro ⟨⟩
      simp [h0]
    · next x y =>
        change (if x < y then some 1 else some 0) = some b → _
        split
        · rintro ⟨⟩
          simp [h1]
        · rintro ⟨⟩
          simp [h0]
  obtain ⟨q, hq⟩ := Option.ne_none_iff_exists'.1 hvalid
  exact fltCount_le hq

theorem State.kept_showPhist (s : State) : BootKept ks s s.showPhist := by
  have hclear : BootKept ks s ((List.range 256).foldl (fun (s : State) i => s.setRegN (Reg.FLT_PHIST + 4 * i) 0) s) :=
    .foldl _ _ _ fun _ _ hi => kept_setPhist hks _ _ (List.mem_range.1 hi)
  unfold showPhist
  dsimp only
  refine hclear.trans ?_
  split
  · exact (kept_setReg_apart hks _ _ (by decide)).trans (kept_setBit hks _ _ _ (by decide))
  · next b hb =>
      have hcount := shownCount_le hb
      refine (BootKept.foldl _ _ _ fun u i hi => kept_setPhist hks _ _ ?_).trans
        ((kept_setReg_apart hks _ _ (by decide)).trans (kept_setBit hks _ _ _ (by decide)))
      have := List.mem_range.1 hi
      omega

end

/-! ### Steps 4 to 9 of start-up (R519 to R523) -/

/-- The cause of the reset and QUIET. -/
def causeKeys : List Nat := [Reg.GLB_RESET_CAUSE, Reg.BMX_QUIET_DECODE]

theorem causeKeys_subset : causeKeys ⊆ bootKeys := List.subset_cons_self ..

/-- Start-up writes of these registers GLB_BOOT alone. -/
theorem State.kept_bootCode (s : State) (code : Nat) : BootKept causeKeys s (s.bootCode code) :=
  .ite (s.kept_setReg _ (by decide)) (.refl s)

theorem State.kept_bootFails (s : State) (n code : Nat) (dead : Bool) : BootKept causeKeys s (s.bootFails n code dead) :=
  (((s.kept_bootCode code).trans (kept_setReg _ _ (by decide))).trans (kept_setReg _ _ (by decide))).trans
    (kept_inReset _ dead)

theorem State.kept_setRegN (s : State) {k : Nat} (v : Nat) (hk : k ∉ causeKeys) : BootKept causeKeys s (s.setRegN k v) :=
  s.kept_setReg _ hk

/-- The run of the sections of an image, unless its header has the fault `h`. -/
def State.imgRunOf (s : State) (img : List Byte) (h stop : Nat) : ImgRun :=
  if h ≠ 0 then { s := s, res := some (h, 0) } else ImgRun.allSections { s := s } img (leAt img 8 4) stop 9 (imgSections img)

theorem State.steady_imgRunOf (s : State) (img : List Byte) (h stop : Nat) : (s.imgRunOf img h stop).s.steady = s.steady :=
  ImgRun.steady_ite rfl (ImgRun.steady_allSections ..)

/-- The result of the boot image is shown. -/
def State.bootShown (s : State) (r : ImgRun) : State :=
  match r.res with
  | some (c, d) => (s.setRegN Reg.FAB_IMG_RES (c + 256 * d + 65536 * r.secs)).bootCode 0x72
  | none => s.setRegN Reg.FAB_IMG_RES 0

/-- The safety record that the boot image brought is armed, or the default one. -/
def State.bootArmed (s : State) (rec0 : Bool) : State :=
  if s.topo.isSome && rec0 then
    let s := { s with rce := { s.rce with armed := none } }
    let s := (s.setBit Reg.RCE_STAT 1 false).armSafety
    if s.bit Reg.RCE_STAT 1 then s else s.defaultSafety
  else s

theorem State.kept_bootShown (s : State) (r : ImgRun) : BootKept causeKeys s (s.bootShown r) := by
  unfold bootShown
  split
  · exact (s.kept_setRegN _ (by decide)).trans (kept_bootCode ..)
  · exact s.kept_setRegN _ (by decide)

theorem State.steady_rce (s : State) (x : RceSt) : { s with rce := x }.steady = s.steady := rfl

theorem State.steady_bootArmed (s : State) (rec0 : Bool) : (s.bootArmed rec0).steady = s.steady := by
  have harm : ((({ s with rce := { s.rce with armed := none } } : State).setBit Reg.RCE_STAT 1 false).armSafety).steady = s.steady := by
    rw [steady_armSafety, steady_setBit _ _ _ (by decide), steady_rce]
  exact steady_ite (steady_ite harm ((steady_defaultSafety _).trans harm)) rfl

/-- What follows the run of the boot image. -/
theorem State.kept_afterRun (s : State) (r : ImgRun) (h : r.s.steady = s.steady) :
    BootKept causeKeys s (((r.s.setRegN Reg.FAB_IMG_PROG (r.recs % 65536 * 65536 + r.secs)).bootShown r).bootArmed r.rec0) :=
  (((BootKept.of_steady causeKeys_subset h).trans (kept_setRegN _ _ (by decide))).trans (kept_bootShown _ r)).trans
    (.of_steady causeKeys_subset (steady_bootArmed ..))

theorem State.kept_bootImage (s : State) : BootKept causeKeys s s.bootImage := by
  unfold bootImage
  dsimp only
  generalize s.bytes 0x14600000 _ = img
  generalize imgHeader img _ = h
  exact .ite (s.kept_bootCode 0x71) (s.kept_afterRun (s.imgRunOf img h _) (s.steady_imgRunOf ..))

/-- The microcode bank chosen is shown, and the keys, the calibration and the park values are taken. -/
def State.bootLoaded (s : State) (uc : Nat) (warn : Bool) : State :=
  let s := if warn then s.bootCode 0x42 else s
  let s := ((((s.setRegN Reg.NVM_UC uc).setRegN Reg.GLB_REMAP 1).takeKey 0).takeKey 1).calBoot
  (if s.bit Reg.CAL_STAT 6 then s.bootCode 0x61 else s).takePark

/-- The boot image is run, where the straps ask for it. -/
def State.bootFabric (s : State) : State :=
  if s.bit Reg.GLB_STRAP 1 then s else if s.bootImage.topo.isNone then s.bootImage.bootCode 0x73 else s.bootImage

/-- The links train, where the straps do not hold them. -/
def State.bootLinks (s : State) : State :=
  let t := if s.bit Reg.GLB_STRAP 2 then s else s.mirTrain
  let first := match t.topo with | some t => if s.bit Reg.GLB_STRAP 2 then 0 else t.efeMask | none => 0
  { t with rst := { t.rst with firstTry := first }, flt := { t.flt with inReset := false } }

theorem State.kept_bootLoaded (s : State) (uc : Nat) (warn : Bool) : BootKept causeKeys s (s.bootLoaded uc warn) := by
  have hwarn : BootKept causeKeys s (if warn then s.bootCode 0x42 else s) := .ite (s.kept_bootCode _) (.refl s)
  have hcal (u : State) : BootKept causeKeys u ((((u.setRegN Reg.NVM_UC uc).setRegN Reg.GLB_REMAP 1).takeKey 0).takeKey 1).calBoot :=
    ((u.kept_setRegN (k := Reg.NVM_UC) uc (by decide)).trans (kept_setRegN _ (k := Reg.GLB_REMAP) 1 (by decide))).trans
      (.of_steady causeKeys_subset (by rw [steady_calBoot, steady_takeKey, steady_takeKey]))
  exact ((hwarn.trans (hcal _)).trans (.ite (kept_bootCode ..) (.refl _))).trans (.of_steady causeKeys_subset (steady_takePark _))

theorem State.kept_bootFabric (s : State) : BootKept causeKeys s s.bootFabric :=
  .ite (.refl s) (.ite (s.kept_bootImage.trans (kept_bootCode ..)) s.kept_bootImage)

theorem State.kept_bootLinks (s : State) : BootKept causeKeys s s.bootLinks :=
  (BootKept.ite (.refl s) (s.kept_mirTrain causeKeys_subset)).trans ⟨fun _ _ => rfl, rfl, rfl⟩

/-- Start-up runs to its end with a valid microcode bank, and stops after step 3 without one. -/
theorem State.bootOn_cases (s : State) : s.bootOn = s.bootFails 3 0x41 false ∨
    ∃ uc warn, s.bootOn = ((s.bootLoaded uc warn).bootFabric.bootLinks.showPhist).setFld Reg.GLB_BOOT 0 4 9 := by
  unfold bootOn
  dsimp only
  split
  · exact .inl rfl
  · next bank warn _ => exact .inr ⟨bank + 4 * b2n (if bank = 0 then (s.ucSeq? 1).isSome else (s.ucSeq? 0).isSome), warn, rfl⟩

theorem State.kept_bootOn (s : State) : BootKept causeKeys s s.bootOn := by
  obtain h | ⟨uc, warn, h⟩ := s.bootOn_cases
  · rw [h]
    exact s.kept_bootFails ..
  · rw [h]
    exact ((((s.kept_bootLoaded uc warn).trans (kept_bootFabric _)).trans (kept_bootLinks _)).trans
      (kept_showPhist causeKeys_subset _)).trans (kept_setReg _ _ (by decide))

theorem State.flt_foldl {α : Type} (f : State → α → State) (hf : ∀ u a, (f u a).flt = u.flt) (l : List α) (s : State) :
    (l.foldl f s).flt = s.flt :=
  List.foldlRecOn (motive := fun t : State => t.flt = s.flt) l f rfl fun t ht a _ => (hf t a).trans ht

theorem State.flt_showPhist (s : State) : s.showPhist.flt = s.flt := by
  unfold showPhist
  dsimp only
  split
  · rw [setBit_flt, setRegN_flt, flt_foldl _ fun _ _ => setRegN_flt ..]
  · rw [setBit_flt, setRegN_flt, flt_foldl _ fun _ _ => setRegN_flt .., flt_foldl _ fun _ _ => setRegN_flt ..]

/-- The device is in reset, or not. -/
def State.withReset (s : State) (b : Bool) : State := { s with flt := { s.flt with inReset := b } }

theorem State.reg_withReset (s : State) (b : Bool) (k : Nat) : (s.withReset b).reg k = s.reg k := rfl

theorem State.bootFails_eq (s : State) (n code : Nat) (dead : Bool) : s.bootFails n code dead =
    (((s.bootCode code).setFld Reg.GLB_BOOT 0 4 n).setBit Reg.GLB_BOOT 31 true).withReset dead := rfl

/-- Start-up that stops shows the step and its code (R517, R523). -/
theorem State.bootFails_shows {s : State} (h : s.fld Reg.GLB_BOOT 8 8 = 0) {n code : Nat} (hn : n < 16) (hcode : code < 256)
    (dead : Bool) : (s.bootFails n code dead).flt.inReset = dead ∧ (s.bootFails n code dead).fld Reg.GLB_BOOT 0 4 = n ∧
      (s.bootFails n code dead).fld Reg.GLB_BOOT 8 8 = code ∧ (s.bootFails n code dead).bit Reg.GLB_BOOT 31 = true := by
  have hboot : s.bootCode code = s.setFld Reg.GLB_BOOT 8 8 code := if_pos h
  have hreg (k : Nat) : (s.bootFails n code dead).reg k =
      (((s.setFld Reg.GLB_BOOT 8 8 code).setFld Reg.GLB_BOOT 0 4 n).setBit Reg.GLB_BOOT 31 true).reg k := by
    rw [bootFails_eq, hboot, reg_withReset]
  refine ⟨?_, ?_, ?_, ?_⟩
  · rw [bootFails_eq]
    rfl
  · rw [fld_of_reg (hreg _), fld_setBit_other _ (by decide) (.inr (.inl (by decide))), fld_setFld_same _ (by decide)]
    exact Nat.mod_eq_of_lt hn
  · rw [fld_of_reg (hreg _), fld_setBit_other _ (by decide) (.inr (.inl (by decide))),
      fld_setFld_other _ (by decide) (.inr (.inr (by decide))), fld_setFld_same _ (by decide)]
    exact Nat.mod_eq_of_lt hcode
  · rw [bit_of_reg (hreg _), bit_setBit_same _ _ _ (by decide)]

theorem State.bootOn_shows {s : State} (h : s.fld Reg.GLB_BOOT 8 8 = 0) : s.bootOn.flt.inReset = false ∧
    (s.bootOn.fld Reg.GLB_BOOT 0 4 = 9 ∨ s.bootOn.fld Reg.GLB_BOOT 0 4 = 3 ∧ s.bootOn.fld Reg.GLB_BOOT 8 8 = 0x41 ∧
      s.bootOn.bit Reg.GLB_BOOT 31 = true) := by
  obtain hend | ⟨uc, warn, hend⟩ := s.bootOn_cases
  · obtain ⟨hreset, hstep, hcode, hfatal⟩ := bootFails_shows h (n := 3) (code := 0x41) (by decide) (by decide) false
    rw [hend]
    exact ⟨hreset, .inr ⟨hstep, hcode, hfatal⟩⟩
  · rw [hend]
    refine ⟨?_, .inl (fld_setFld_same _ (by decide))⟩
    rw [setFld_flt, flt_showPhist]
    rfl

/-! ### What a reset begins with (R449) -/

/-- After a reset that keeps MRAM alone, a register holds its reset value but for two. -/
theorem State.reg_wipe (s : State) {k : Nat} (hk : k ∉ [Reg.RED_STAT, Reg.PWR_STATE]) : s.wipe.reg k = regReset k := by
  simp only [List.mem_cons, List.not_mem_nil, or_false, not_or] at hk
  obtain ⟨hstat, hstate⟩ := hk
  unfold wipe
  dsimp only
  rw [reg_setFld, if_neg hstate, reg_setBit, if_neg hstat]
  rfl

/-- The registers of the start-up hold their reset values, no block is in soft reset, and the device has power. -/
structure State.Fresh (s : State) : Prop where
  regs : ∀ k ∈ bootKeys, s.reg k = regReset k
  srst : s.rst.srst = []
  off : s.off = false

theorem State.Fresh.kept {s t : State} (h : s.Fresh) (hkept : BootKept bootKeys s t) : t.Fresh :=
  ⟨fun k hk => (hkept.regs k hk).trans (h.regs k hk), hkept.srst.trans h.srst, hkept.off.trans h.off⟩

theorem State.fresh_wipe (s : State) : s.wipe.Fresh :=
  ⟨fun k hk => s.reg_wipe fun h => (by decide : ∀ k ∈ bootKeys, k ∉ [Reg.RED_STAT, Reg.PWR_STATE]) k hk h, rfl, rfl⟩

/-! ### The input is chosen (R494, R496) -/

section

variable {ks : List Nat} (hks : ks ⊆ bootKeys)

include hks

theorem State.bootKept_setRole (s : State) (r : Nat) : BootKept ks s (s.setRole r) := by
  by_cases h : s.role = r
  · rw [setRole, if_pos h]
    exact .refl s
  · have hsettled : BootKept ks s (s.roleSettled r) :=
      (((s.kept_setFld hks _ _ _ (by decide)).trans (kept_setBit hks _ _ _ (by decide))).trans
        (kept_setBit hks _ _ _ (by decide))).trans (.of_regs (s.reg_roleSettled r) rfl rfl)
    exact hsettled.trans (.of_steady hks (steady_setRole h))

theorem State.kept_dropInterlock (s : State) : BootKept ks s s.dropInterlock := by
  have hdrop : BootKept ks s s.ilkDropped :=
    ((s.kept_setBit hks 0 false (by decide)).trans (kept_setBit hks (k := Reg.RED_STAT) _ 4 false (by decide))).trans
      (.of_regs (fun _ => rfl) rfl rfl)
  rw [dropInterlock_eq]
  exact .ite (hdrop.trans (bootKept_setRole hks _ 3)) hdrop

omit hks in
theorem State.steady_beginFlush (s : State) (cause : Nat) : (s.beginFlush cause).steady = s.steady := by
  unfold beginFlush
  dsimp only
  change State.steady (State.nvmCount _ _) = _
  rw [steady_nvmCount, steady_storeN, steady_setBytes, steady_setBytes, steady_storeN]

omit hks in
theorem State.steady_askFlush (s : State) (cause : Nat) : (s.askFlush cause).steady = s.steady := by
  unfold askFlush
  split
  · exact s.steady_beginFlush cause
  · rfl

theorem State.kept_quiesce (s : State) : BootKept ks s s.quiesce :=
  .ite (.refl s) ((s.kept_setBit hks _ _ (by decide)).trans (.of_steady hks (steady_raise _ _ (by decide))))

theorem State.kept_powerSequence (s : State) (cause : Nat) : BootKept ks s (s.powerSequence cause) :=
  (((BootKept.of_regs (fun _ => rfl) rfl rfl : BootKept ks s { s with pwr := { s.pwr with seqCause := some cause } }).trans
    (kept_dropInterlock hks _)).trans (kept_quiesce hks _)).trans (.of_steady hks (steady_askFlush ..))

omit hks in
/-- The loss of both inputs is shown, and will be counted. -/
def State.heldUp (s : State) : State :=
  { s.setBit Reg.PWR_STATE 8 true with pwr := { s.pwr with counters := [1] } }

omit hks in
theorem State.reg_heldUp (s : State) (k : Nat) : s.heldUp.reg k = (s.setBit Reg.PWR_STATE 8 true).reg k := rfl

omit hks in
theorem State.holdUp_eq (s : State) : s.holdUp =
    if (s.setFld Reg.PWR_STATE 0 2 0).off || (s.setFld Reg.PWR_STATE 0 2 0).pwr.seqCause.isSome then s.setFld Reg.PWR_STATE 0 2 0
    else (s.setFld Reg.PWR_STATE 0 2 0).heldUp.powerSequence 1 := rfl

theorem State.kept_heldUp (s : State) : BootKept ks s s.heldUp :=
  (s.kept_setBit hks (k := Reg.PWR_STATE) 8 true (by decide)).trans (.of_regs s.reg_heldUp rfl rfl)

theorem State.kept_holdUp (s : State) : BootKept ks s s.holdUp := by
  have hnone := s.kept_setFld hks (k := Reg.PWR_STATE) 0 2 0 (by decide)
  rw [holdUp_eq]
  exact .ite hnone ((hnone.trans (kept_heldUp hks _)).trans (kept_powerSequence hks _ 1))

theorem State.kept_switchTo (s : State) (src : Nat) : BootKept ks s (s.switchTo src) :=
  ((s.kept_setFld hks _ _ _ (by decide)).trans (kept_setFld hks _ _ _ _ (by decide))).trans
    (.of_steady hks (steady_raise _ _ (by decide)))

theorem State.kept_chooseInput (s : State) : BootKept ks s s.chooseInput := by
  have hstate (u : State) (v : Nat) := u.kept_setFld hks (k := Reg.PWR_STATE) 0 2 v (by decide)
  have hloss (src : Nat) (valid : Bool) : BootKept ks s (if valid then s.switchTo src else s.holdUp) :=
    .ite (s.kept_switchTo hks src) (s.kept_holdUp hks)
  refine BootKept.trans (.ite (.refl s) (.ite ?_ (.ite (hloss _ _) (.ite (hloss _ _) (.ite (s.kept_switchTo hks 2) (.refl s))))))
    (kept_setBit hks (k := Reg.PWR_STATE) _ 7 _ (by decide))
  exact (BootKept.ite (hstate s 1) (.ite (hstate s 2) (.refl s))).trans
    (kept_setBit hks (k := Reg.PWR_STATE) _ 9 _ (by decide))

end

/-! ### Cold and warm resets (R449, R525) -/

/-- A restart with its cause has begun: the start-up shows nothing yet, QUIET is 1, and no block is in soft reset. -/
structure State.Restarts (s : State) (cause : Nat) : Prop where
  boot : s.reg Reg.GLB_BOOT = 0
  quiet : s.bit Reg.BMX_QUIET_DECODE 0 = true
  cause : s.reg Reg.GLB_RESET_CAUSE = BitVec.ofNat 32 cause
  srst : s.rst.srst = []
  off : s.off = false

/-- A restart with its cause has gone as far as it goes. -/
structure State.Restarted (s : State) (cause : Nat) : Prop where
  quiet : s.bit Reg.BMX_QUIET_DECODE 0 = true
  cause : s.reg Reg.GLB_RESET_CAUSE = BitVec.ofNat 32 cause
  srst : s.rst.srst = []
  off : s.off = false

theorem State.Restarts.kept {s t : State} {c : Nat} (h : s.Restarts c) (hkept : BootKept causeKeys s t) : t.Restarted c :=
  ⟨(bit_of_reg (hkept.regs _ (by decide)) 0).trans h.quiet, (hkept.regs _ (by decide)).trans h.cause, hkept.srst.trans h.srst,
    hkept.off.trans h.off⟩

theorem State.Restarts.of_kept {s t : State} {c : Nat} (h : s.Restarts c) (hkept : BootKept bootKeys s t) : t.Restarts c :=
  ⟨(hkept.regs _ (by decide)).trans h.boot, (bit_of_reg (hkept.regs _ (by decide)) 0).trans h.quiet,
    (hkept.regs _ (by decide)).trans h.cause, hkept.srst.trans h.srst, hkept.off.trans h.off⟩

theorem State.Restarts.noCode {s : State} {c : Nat} (h : s.Restarts c) : s.fld Reg.GLB_BOOT 8 8 = 0 := by
  rw [fld, h.boot]
  decide

/-- The cause of a reset is shown and logged. -/
theorem State.Fresh.restarts {s : State} (h : s.Fresh) (cause code cause' : Nat) :
    ((s.setRegN Reg.GLB_RESET_CAUSE cause).logEvent 0 5 code cause' 0).Restarts cause := by
  have hlog : BootKept bootKeys (s.setRegN Reg.GLB_RESET_CAUSE cause)
      ((s.setRegN Reg.GLB_RESET_CAUSE cause).logEvent 0 5 code cause' 0) := .of_steady (List.Subset.refl _) (steady_logEvent ..)
  have hset : (s.setRegN Reg.GLB_RESET_CAUSE cause).Restarts cause := by
    refine ⟨?_, ?_, ?_, h.srst, h.off⟩
    · rw [reg_setRegN, if_neg (by decide), h.regs _ (by decide)]
      decide +kernel
    · rw [bit, reg_setRegN, if_neg (by decide), h.regs _ (by decide)]
      decide +kernel
    · rw [reg_setRegN, if_pos rfl]
  exact hset.of_kept hlog

/-- The input that a cold reset starts with. -/
def State.coldInput (s : State) : State :=
  (if s.source = 0 then s.wipe.chooseInput else s.wipe.setFld Reg.PWR_STATE 0 2 s.source).returnShown

theorem State.fresh_coldInput (s : State) : s.coldInput.Fresh := by
  refine s.fresh_wipe.kept ((BootKept.ite ?_ ?_).trans (kept_setBit (List.Subset.refl _) _ _ _ (by decide)))
  · exact kept_chooseInput (List.Subset.refl _) _
  · exact kept_setFld (List.Subset.refl _) _ _ _ _ (by decide)

theorem State.coldReset_eq (s : State) (cause straps : Nat) (pll clear : Bool) : s.coldReset cause straps pll clear =
    ((s.coldInput.setRegN Reg.GLB_RESET_CAUSE cause).logEvent 0 5 0x40 cause 0).coldStart straps pll clear := rfl

/-- The straps are sampled, after MRAM has been counted. -/
def State.strapped (s : State) (straps : Nat) : State :=
  ((s.mramCount 2).setRegN Reg.GLB_STRAP (straps % 16)).setBit Reg.RED_SEAT 0 (bitAt straps 0)

theorem State.kept_strapped (s : State) (straps : Nat) : BootKept bootKeys s (s.strapped straps) := by
  have hcount : (s.mramCount 2).steady = s.steady := by
    rw [mramCount, steady_nvmCount, steady_storeN]
  exact ((BootKept.of_steady (List.Subset.refl _) hcount).trans (kept_setReg_apart (List.Subset.refl _) _ _ (by decide))).trans
    (kept_setBit (List.Subset.refl _) _ _ _ (by decide))

theorem State.coldStart_unlocked (s : State) (straps : Nat) (clear : Bool) : s.coldStart straps false clear =
    ((s.setBit Reg.PWR_STATE 9 true).setBit Reg.CLK_STAT 0 false).bootFails 1 0x21 true := rfl

theorem State.coldStart_unclear (s : State) (straps : Nat) : s.coldStart straps true false =
    (s.setBit Reg.PWR_STATE 9 true).bootFails 2 0x31 true := rfl

theorem State.coldStart_good (s : State) (straps : Nat) : s.coldStart straps true true =
    ((s.setBit Reg.PWR_STATE 9 true).strapped straps).bootOn := rfl

theorem State.startedUp_unlocked {s : State} (h : s.fld Reg.GLB_BOOT 8 8 = 0) (clear : Bool) :
    StartedUp (s.bootFails 1 0x21 true) false clear := bootFails_shows h (by decide) (by decide) true

theorem State.startedUp_unclear {s : State} (h : s.fld Reg.GLB_BOOT 8 8 = 0) : StartedUp (s.bootFails 2 0x31 true) true false :=
  bootFails_shows h (by decide) (by decide) true

theorem State.startedUp_good {s : State} (h : s.fld Reg.GLB_BOOT 8 8 = 0) : StartedUp s.bootOn true true := bootOn_shows h

theorem State.coldStart_starts {s : State} {c : Nat} (h : s.Restarts c) (straps : Nat) (pll clear : Bool) :
    StartedUp (s.coldStart straps pll clear) pll clear ∧ (s.coldStart straps pll clear).Restarted c := by
  have hvalid : (s.setBit Reg.PWR_STATE 9 true).Restarts c :=
    h.of_kept (kept_setBit (List.Subset.refl _) _ _ _ (by decide))
  cases pll with
  | false =>
    have hlost : ((s.setBit Reg.PWR_STATE 9 true).setBit Reg.CLK_STAT 0 false).Restarts c :=
      hvalid.of_kept (kept_setBit (List.Subset.refl _) _ _ _ (by decide))
    rw [coldStart_unlocked]
    exact ⟨startedUp_unlocked hlost.noCode clear, hlost.kept (kept_bootFails ..)⟩
  | true =>
    cases clear with
    | false =>
      rw [coldStart_unclear]
      exact ⟨startedUp_unclear hvalid.noCode, hvalid.kept (kept_bootFails ..)⟩
    | true =>
      have hstraps : ((s.setBit Reg.PWR_STATE 9 true).strapped straps).Restarts c := hvalid.of_kept (kept_strapped _ straps)
      rw [coldStart_good]
      exact ⟨startedUp_good hstraps.noCode, hstraps.kept (kept_bootOn _)⟩

/-- A cold reset starts the device up (R449, R516). -/
theorem State.coldReset_starts (s : State) (cause straps : Nat) (pll clear : Bool) :
    StartedUp (s.coldReset cause straps pll clear) pll clear ∧ (s.coldReset cause straps pll clear).Restarted cause := by
  rw [coldReset_eq]
  exact coldStart_starts (s.fresh_coldInput.restarts cause 0x40 cause) straps pll clear

/-- The JTAG port is as before. -/
def State.withJtag (s : State) (j : JtagSt) : State := { s with jtag := j }

theorem State.kept_withJtag {ks : List Nat} (s : State) (j : JtagSt) : BootKept ks s (s.withJtag j) := .of_regs (fun _ => rfl) rfl rfl

/-- The straps, the seat, the clocks and JTAG are as before. -/
def State.warmKeeps (t s : State) : State :=
  (((t.setReg Reg.GLB_STRAP (s.reg Reg.GLB_STRAP)).setReg Reg.RED_SEAT (s.reg Reg.RED_SEAT)).setReg Reg.CLK_STAT
      (s.reg Reg.CLK_STAT)).withJtag s.jtag

/-- The input that a warm reset starts with. -/
def State.warmInput (s : State) : State :=
  (((s.wipe.setFld Reg.PWR_STATE 0 2 s.source).setReg Reg.PWR_CTRL 0).chooseInput).warmKeeps s

theorem State.fresh_warmInput (s : State) : s.warmInput.Fresh := by
  have hsub : bootKeys ⊆ bootKeys := List.Subset.refl _
  have hinput : BootKept bootKeys s.wipe ((s.wipe.setFld Reg.PWR_STATE 0 2 s.source).setReg Reg.PWR_CTRL 0).chooseInput :=
    ((kept_setFld hsub _ _ _ _ (by decide)).trans (kept_setReg_apart hsub _ _ (by decide))).trans (kept_chooseInput hsub _)
  have hstays (u : State) : BootKept bootKeys u (u.warmKeeps s) :=
    (((kept_setReg_apart hsub _ (k := Reg.GLB_STRAP) _ (by decide)).trans
      (kept_setReg_apart hsub _ (k := Reg.RED_SEAT) _ (by decide))).trans
        (kept_setReg_apart hsub _ (k := Reg.CLK_STAT) _ (by decide))).trans (kept_withJtag ..)
  exact s.fresh_wipe.kept (hinput.trans (hstays _))

theorem State.warmReset_eq (s : State) (clear : Bool) : s.warmReset clear =
    if !clear then ((s.warmInput.setRegN Reg.GLB_RESET_CAUSE (5 + 64)).logEvent 0 5 0x41 5 0).bootFails 2 0x31 true
    else ((s.warmInput.setRegN Reg.GLB_RESET_CAUSE (5 + 64)).logEvent 0 5 0x41 5 0).bootOn := rfl

/-- A warm reset starts the device up (R449, R525). -/
theorem State.warmReset_starts (s : State) (clear : Bool) :
    StartedUp (s.warmReset clear) true clear ∧ (s.warmReset clear).Restarted (5 + 64) := by
  have hrestarts := s.fresh_warmInput.restarts (5 + 64) 0x41 5
  rw [warmReset_eq]
  cases clear with
  | false => exact ⟨startedUp_unclear hrestarts.noCode, hrestarts.kept (kept_bootFails ..)⟩
  | true => exact ⟨startedUp_good hrestarts.noCode, hrestarts.kept (kept_bootOn _)⟩

end Sys2Proof.Machine
end

section
/-! PROOFS. The commands that restart the device (R449, R459, R496, R510, R550, R551). -/

namespace Sys2Proof.Machine

theorem startedUp_congr {s t : State} {pll clear : Bool} (hflt : t.flt.inReset = s.flt.inReset)
    (hboot : t.reg Reg.GLB_BOOT = s.reg Reg.GLB_BOOT) (h : StartedUp s pll clear) : StartedUp t pll clear := by
  unfold StartedUp at h ⊢
  rwa [hflt, State.fld_of_reg hboot, State.fld_of_reg hboot, State.bit_of_reg hboot]

/-- The frame law of a command says that the queue of commands is as before. -/
theorem pending_of_frame {s t : State} {P : Prop} (h : t.pending = s.pending ∧ P) : t.pending = s.pending := by
  obtain ⟨hpending, -⟩ := h
  exact hpending

/-! ### RESET_N (R550, R551) -/

theorem resetN_ignored (ns : Nat) (straps : Fin 16) (pll clear : Bool) (s : State) (h : s.pwr.seqCause ≠ none) :
    Completes (.resetN ns straps pll clear) s fun t => t = s :=
  ⟨_, rfl, if_pos (.inr (.inl (Option.isSome_iff_ne_none.2 h)))⟩

theorem State.resetN_of_long {s : State} {ns : Nat} (hns : 1000 ≤ ns) (hseq : s.pwr.seqCause = none) (hoff : s.off = false)
    (straps : Nat) (pll clear : Bool) : s.resetN ns straps pll clear = s.coldReset 2 straps pll clear :=
  if_neg (by
    rw [hseq, hoff]
    simpa using hns)

theorem exec_resetN {s : State} {ns : Nat} (hns : 1000 ≤ ns) (hseq : s.pwr.seqCause = none) (hoff : s.off = false)
    (straps : Fin 16) (pll clear : Bool) : exec (.resetN ns straps pll clear) s = .next (s.coldReset 2 straps pll clear) :=
  congrArg Host.Outcome.next (State.resetN_of_long hns hseq hoff straps pll clear)

/-- MSTATE is 0 after a cold reset (R449). -/
theorem State.Restarted.mstate {s : State} {cause : Nat} (h : s.Restarted cause) (hcause : cause < 16) : s.mstate = 0 := by
  rw [State.mstate, fld, h.cause]
  interval_cases cause <;> decide

theorem resetN_starts (ns : Nat) (straps : Fin 16) (pll clear : Bool) (s : State) (hns : 1000 ≤ ns) (hseq : s.pwr.seqCause = none)
    (hoff : s.off = false) : Completes (.resetN ns straps pll clear) s fun t => StartedUp t pll clear ∧ t.pending = s.pending :=
  ⟨_, exec_resetN hns hseq hoff straps pll clear, (s.coldReset_starts 2 straps pll clear).1,
    pending_of_frame (s.coldReset_frame 2 straps pll clear)⟩

theorem resetN_endsOther (ns : Nat) (straps : Fin 16) (pll clear : Bool) (s : State) (hns : 1000 ≤ ns)
    (hseq : s.pwr.seqCause = none) (hoff : s.off = false) (_ : s.mstate = 1 ∨ s.rst.srst ≠ []) :
    Completes (.resetN ns straps pll clear) s fun t => StartedUp t pll clear ∧ t.mstate = 0 ∧ t.rst.srst = [] := by
  obtain ⟨hstarted, hrestarted⟩ := s.coldReset_starts 2 straps pll clear
  exact ⟨_, exec_resetN hns hseq hoff straps pll clear, hstarted, hrestarted.mstate (by decide), hrestarted.srst⟩

/-! ### Power-on and thermal restarts (R496, R510) -/

theorem exec_powerOnRestart {s : State} {cool : Bool} (hoff : s.off = true) (hseq : s.pwr.seqCause = some 1)
    (hvalid : s.aValid = true ∨ s.bValid = true) (hcool : s.pwr.trip = true → cool = true) (straps : Fin 16) (pll clear : Bool) :
    exec (.powerOnRestart straps pll clear cool) s = .next (s.coldReset 1 straps pll clear) := by
  refine congrArg Host.Outcome.next (if_pos ?_)
  have hv : (s.aValid || s.bValid) = true := Bool.or_eq_true _ _ ▸ hvalid
  rw [hoff, hseq, hv]
  cases htrip : s.pwr.trip with
  | false => rfl
  | true => rw [hcool htrip]; rfl

theorem exec_thermalRestart {s : State} (hoff : s.off = true) (hseq : s.pwr.seqCause = some 2)
    (hvalid : s.aValid = true ∨ s.bValid = true) (straps : Fin 16) (pll clear : Bool) :
    exec (.thermalRestart straps pll clear) s = .next ((s.coldReset 3 straps pll clear).setRegN Reg.THM_ATRIP 0xC) := by
  have hv : (s.aValid || s.bValid) = true := Bool.or_eq_true _ _ ▸ hvalid
  refine congrArg Host.Outcome.next (if_pos ?_)
  rw [hoff, hseq, hv]
  rfl

theorem powerOnRestart_starts (straps : Fin 16) (pll clear cool : Bool) (s : State) (hoff : s.off = true)
    (hseq : s.pwr.seqCause = some 1) (hvalid : s.aValid = true ∨ s.bValid = true) (hcool : s.pwr.trip = true → cool = true) :
    Completes (.powerOnRestart straps pll clear cool) s fun t => StartedUp t pll clear ∧ t.off = false ∧ t.pending = s.pending := by
  obtain ⟨hstarted, hrestarted⟩ := s.coldReset_starts 1 straps pll clear
  exact ⟨_, exec_powerOnRestart hoff hseq hvalid hcool straps pll clear, hstarted, hrestarted.off,
    pending_of_frame (s.coldReset_frame 1 straps pll clear)⟩

theorem thermalRestart_starts (straps : Fin 16) (pll clear : Bool) (s : State) (hoff : s.off = true)
    (hseq : s.pwr.seqCause = some 2) (hvalid : s.aValid = true ∨ s.bValid = true) :
    Completes (.thermalRestart straps pll clear) s fun t => StartedUp t pll clear ∧ t.off = false ∧
      t.reg Reg.THM_ATRIP = 12 ∧ t.pending = s.pending := by
  obtain ⟨hstarted, hrestarted⟩ := s.coldReset_starts 3 straps pll clear
  have hboot (u : State) : (u.setRegN Reg.THM_ATRIP 0xC).reg Reg.GLB_BOOT = u.reg Reg.GLB_BOOT :=
    State.reg_setReg_other _ _ (by decide)
  refine ⟨_, exec_thermalRestart hoff hseq hvalid straps pll clear, startedUp_congr ?_ (hboot _) hstarted, hrestarted.off, ?_,
    pending_of_frame (s.coldReset_frame 3 straps pll clear)⟩
  · rw [State.setRegN_flt]
  · rw [State.reg_setRegN, if_pos rfl]
    rfl

/-! ### GLB_RESET (R449, R459) -/

theorem State.glbReset_cold (s : State) {m : Nat} (hm : m ≤ 2) (straps : Nat) (pll clear : Bool) :
    s.glbReset m 0x5A5A0001 straps pll clear = ((s.askFlush 3).flushAll).coldReset 4 straps pll clear :=
  if_neg fun h => h.elim (fun h => h (by decide)) (fun h => absurd hm (Nat.not_le.2 h))

theorem State.glbReset_warm (s : State) {m : Nat} (hm : m ≤ 2) (straps : Nat) (pll clear : Bool) :
    s.glbReset m 0x5A5A0002 straps pll clear = ((s.askFlush 4).flushAll).warmReset clear :=
  if_neg fun h => h.elim (fun h => h (by decide)) (fun h => absurd hm (Nat.not_le.2 h))

theorem State.glbReset_mgmt (s : State) {m : Nat} (hm : m ≤ 2) (straps : Nat) (pll clear : Bool) :
    s.glbReset m 0x5A5A0003 straps pll clear = s.mgmtReset 6 :=
  if_neg fun h => h.elim (fun h => h (by decide)) (fun h => absurd hm (Nat.not_le.2 h))

theorem exec_coldReset {m : Fin 8} {s : State} (hm : m.val ≤ 2) (hacc : s.accepts m Reg.GLB_RESET 0x5A5A0001 = true)
    (straps : Fin 16) (pll clear : Bool) : exec (.coldReset m 0x5A5A straps pll clear) s =
      .next ((((s.respond m true Reg.GLB_RESET .ok 0).askFlush 3).flushAll).coldReset 4 straps pll clear) :=
  congrArg Host.Outcome.next ((State.gateWrite_eq hacc (by decide +kernel) _).trans (State.glbReset_cold _ hm straps pll clear))

theorem exec_warmReset {m : Fin 8} {s : State} (hm : m.val ≤ 2) (hacc : s.accepts m Reg.GLB_RESET 0x5A5A0002 = true)
    (clear : Bool) : exec (.warmReset m 0x5A5A clear) s =
      .next ((((s.respond m true Reg.GLB_RESET .ok 0).askFlush 4).flushAll).warmReset clear) :=
  congrArg Host.Outcome.next ((State.gateWrite_eq hacc (by decide +kernel) _).trans (State.glbReset_warm _ hm 0 true clear))

theorem exec_managementReset {m : Fin 8} {cycle : Nat} {s : State} (hm : m.val ≤ 2)
    (hacc : (s.atCycle cycle).accepts m Reg.GLB_RESET 0x5A5A0003 = true) : exec (.managementReset m 0x5A5A cycle) s =
      .next (((s.atCycle cycle).respond m true Reg.GLB_RESET .ok 0).mgmtReset 6) :=
  congrArg Host.Outcome.next ((State.gateWrite_eq hacc (by decide +kernel) _).trans (State.glbReset_mgmt _ hm 0 true true))

theorem coldReset_starts (m : Fin 8) (straps : Fin 16) (pll clear : Bool) (s : State) (hm : m.val ≤ 2)
    (hacc : s.accepts m Reg.GLB_RESET 0x5A5A0001 = true) :
    Completes (.coldReset m 0x5A5A straps pll clear) s fun t => StartedUp t pll clear ∧ t.pending = s.pending :=
  have hexec := exec_coldReset hm hacc straps pll clear
  ⟨_, hexec, (State.coldReset_starts _ 4 straps pll clear).1, pending_of_frame (execColdReset_frame m 0x5A5A straps pll clear s hexec)⟩

theorem warmReset_starts (m : Fin 8) (clear : Bool) (s : State) (hm : m.val ≤ 2)
    (hacc : s.accepts m Reg.GLB_RESET 0x5A5A0002 = true) :
    Completes (.warmReset m 0x5A5A clear) s fun t => StartedUp t true clear ∧ t.pending = s.pending :=
  have hexec := exec_warmReset hm hacc clear
  ⟨_, hexec, (State.warmReset_starts _ clear).1, pending_of_frame (execWarmReset_frame m 0x5A5A clear s hexec)⟩

/-- Settles O12, clause by clause. -/
theorem resetNDuringSequencesAndResets : Obligations.ResetNDuringSequencesAndResets := by
  unfold Obligations.ResetNDuringSequencesAndResets
  refine ⟨resetN_ignored, fun straps pll clear cool s hoff hseq hvalid hcool => ?_, fun straps pll clear s hoff hseq hvalid => ?_,
    resetN_endsOther⟩
  · obtain ⟨t, hexec, hstarted, -⟩ := powerOnRestart_starts straps pll clear cool s hoff hseq hvalid hcool
    exact ⟨t, hexec, hstarted⟩
  · obtain ⟨t, hexec, hstarted, -⟩ := thermalRestart_starts straps pll clear s hoff hseq hvalid
    exact ⟨t, hexec, hstarted⟩

/-- Settles O37, clause by clause. -/
theorem restartCommandsComplete : Obligations.RestartCommandsComplete := by
  unfold Obligations.RestartCommandsComplete
  exact ⟨resetN_starts, coldReset_starts, warmReset_starts, powerOnRestart_starts, thermalRestart_starts⟩

end Sys2Proof.Machine
end

section
/-! PROOFS. What the queues' emptying leaves of the other blocks (R337, R338, R360). -/

namespace Sys2Proof.Machine

/-- The blocks that the ports' and the host's queues have no part in, and memory. -/
def State.core (s : State) : State := { s with regs := [], outs := [], fresh := 0, bus := {}, flt := {}, net := {} }

theorem State.core_setFld (s : State) (k lo len v : Nat) : (s.setFld k lo len v).core = s.core := rfl

theorem State.core_afterRise (a s : State) (page : Nat) : (State.afterRise a s page).core = s.core := by
  unfold afterRise
  dsimp only
  split <;> split <;> rfl

theorem State.core_raise (s : State) (page i : Nat) : (s.raise page i).core = s.core := by
  unfold raise withSummary
  dsimp only
  split
  · exact core_afterRise ..
  · exact (core_afterRise ..).trans (core_afterRise ..)

theorem State.core_raiseIf (s : State) (c : Bool) (page i : Nat) : (s.raiseIf c page i).core = s.core := by
  unfold raiseIf
  split
  · exact s.core_raise ..
  · rfl

theorem State.core_ite {c : Prop} [Decidable c] {s t u : State} (ht : t.core = s.core) (hu : u.core = s.core) :
    (if c then t else u).core = s.core := by
  split
  · exact ht
  · exact hu

theorem State.core_foldl {α : Type} (f : State → α → State) (hf : ∀ u a, (f u a).core = u.core) (l : List α) (s : State) :
    (l.foldl f s).core = s.core :=
  List.foldlRecOn (motive := fun t : State => t.core = s.core) l f rfl fun t ht a _ => (hf t a).trans ht

/-! ### Buffers and pools (R331, R339) -/

theorem State.core_sendPause (s : State) (n quanta : Nat) : (s.sendPause n quanta).core = s.core :=
  core_ite rfl (core_ite rfl rfl)

theorem State.core_pauseXoff (s : State) (n : Nat) (on : Bool) : (s.pauseXoff n on).core = s.core := core_sendPause ..

theorem State.core_poolStates (s : State) (p : Nat) : (s.poolStates p).core = s.core := by
  have hset (r : Nat) (a b c : Bool) : (((s.setBit r 16 a).setBit r 17 b).setBit r 18 c).core = s.core := rfl
  unfold poolStates
  dsimp only
  exact core_ite ((core_foldl _ (fun _ _ => core_pauseXoff ..) _ _).trans ((core_raiseIf ..).trans (hset ..)))
    ((core_raiseIf ..).trans (hset ..))

theorem State.core_setUse (s : State) (p n : Nat) : (s.setUse p n).core = s.core := core_poolStates ..

theorem State.core_unbuf (s : State) (h : Nat) : (s.unbuf h).core = s.core := core_ite (core_setUse ..) rfl

theorem State.core_freeChain (s : State) (l : List Nat) : (s.freeChain l).core = s.core := core_foldl _ core_unbuf _ _

theorem State.core_release (s : State) (n : Nat) (f : QFrame) : (s.release n f).core = s.core := by
  have hcount (h : Nat) (g g' : Buf → Buf) (c : Prop) [Decidable c] : (if c then s.setBuf h g else s.setBuf h g').core = s.core :=
    core_ite rfl rfl
  exact core_ite (core_freeChain ..) (core_ite ((core_freeChain ..).trans (hcount ..)) (hcount ..))

/-! ### The host's rings, and queues (R337, R338) -/

theorem State.core_txClose (s : State) (d : Nat × Nat) (ts : BitVec 96) (status : Nat) : (s.txClose d ts status).core = s.core := by
  unfold txClose
  dsimp only
  rw [txHead, core_setFld, core_raiseIf, core_raise]
  rfl

theorem State.core_endDesc (s : State) (f : QFrame) (status : Option Nat) : (s.endDesc f status).core = s.core := by
  unfold endDesc
  split
  · rfl
  · split
    · exact core_txClose ..
    · exact core_txClose ..

theorem State.core_dropFrame (s : State) (n : Nat) (f : QFrame) (status : Option Nat) : (s.dropFrame n f status).core = s.core :=
  (core_endDesc ..).trans (core_release ..)

theorem State.core_setNetQ (s : State) (n q : Nat) (f : NetQ → NetQ) : (s.setNetQ n q f).core = s.core := rfl

theorem State.core_emptyQueues (s : State) (n : Nat) (status : Option Nat) : (s.emptyQueues n status).core = s.core := by
  refine core_foldl _ (fun u q => ?_) _ _
  rw [core_foldl _ (fun _ _ => core_dropFrame ..), core_setNetQ]

theorem State.core_net (s : State) (x : NetSt) : { s with net := x }.core = s.core := rfl

theorem State.core_stopRings (s : State) : s.stopRings.core = s.core := by
  unfold stopRings
  dsimp only
  rw [core_net, core_foldl _ (fun _ _ => core_setNetQ ..), core_emptyQueues]

end Sys2Proof.Machine
end

section
/-! PROOFS. The management reset (R449, R452, R483, R518). -/

namespace Sys2Proof.Machine

/-! ### What a management reset cancels, before it resets registers -/

/-- The cause register, the carousel's shadow bank and PERST, which outlast a management reset. -/
structure CauseKept (s t : State) : Prop where
  cause : t.reg Reg.GLB_RESET_CAUSE = s.reg Reg.GLB_RESET_CAUSE
  shd : t.crs.shd = s.crs.shd
  perst : t.bus.perst = s.bus.perst

theorem CauseKept.refl (s : State) : CauseKept s s := ⟨rfl, rfl, rfl⟩

theorem CauseKept.trans {s t u : State} (h : CauseKept s t) (h' : CauseKept t u) : CauseKept s u :=
  ⟨h'.cause.trans h.cause, h'.shd.trans h.shd, h'.perst.trans h.perst⟩

theorem CauseKept.ite {c : Prop} [Decidable c] {s t u : State} (ht : CauseKept s t) (hu : CauseKept s u) :
    CauseKept s (if c then t else u) := by
  split
  · exact ht
  · exact hu

theorem CauseKept.foldl {α : Type} (f : State → α → State) (l : List α) (s : State) (h : ∀ s, ∀ a ∈ l, CauseKept s (f s a)) :
    CauseKept s (l.foldl f s) :=
  List.foldlRecOn (motive := fun t => CauseKept s t) l f (.refl s) fun t ht a ha => ht.trans (h t a ha)

theorem CauseKept.of_steady {s t : State} (hsteady : t.steady = s.steady) (hcore : t.core = s.core) : CauseKept s t :=
  have hshd : t.core.crs.shd = s.core.crs.shd := by rw [hcore]
  ⟨State.reg_of_steady hsteady (by decide), hshd, State.perst_of_steady hsteady⟩

theorem State.causeKept_setReg (s : State) {k : Nat} (v : Word) (hk : Reg.GLB_RESET_CAUSE ≠ k) : CauseKept s (s.setReg k v) :=
  ⟨reg_setReg_other _ _ hk, rfl, rfl⟩

theorem State.causeKept_raise (s : State) {page : Nat} (i : Nat) (hp : page < 0x4000 ∧ page ≠ pTHM) : CauseKept s (s.raise page i) :=
  .of_steady (s.steady_raise i hp) (s.core_raise ..)

theorem State.causeKept_raiseIf (s : State) (c : Bool) {page : Nat} (i : Nat) (hp : page < 0x4000 ∧ page ≠ pTHM) :
    CauseKept s (s.raiseIf c page i) := .of_steady (s.steady_raiseIf c i hp) (s.core_raiseIf ..)

/-- A state in which no step of a takeover waits. -/
def State.takeoverDropped (s : State) : State := { s with rst := { s.rst with goAt := none, adopt := false, written := [] } }

/-- GLB_TAKEOVER_RES as a takeover is cancelled, before anything is reported. -/
def State.takeoverCleared (s : State) : State :=
  ((((s.setBit Reg.GLB_TAKEOVER_RES 4 false).setBit Reg.GLB_TAKEOVER_RES 5 false).setBit Reg.GLB_TAKEOVER_RES 8 false).setBit
    Reg.GLB_TAKEOVER_RES 9 false).takeoverDropped

theorem State.cancelTakeover_eq (s : State) : s.cancelTakeover =
    if s.rst.goAt.isSome then (s.takeoverCleared.takeRes 0xA 0).raise 0x006 5 else s.takeoverCleared := rfl

theorem State.causeKept_takeoverCleared (s : State) : CauseKept s s.takeoverCleared := by
  have hbit (u : State) (i : Nat) : CauseKept u (u.setBit Reg.GLB_TAKEOVER_RES i false) := u.causeKept_setReg _ (by decide)
  have hdrop (u : State) : CauseKept u u.takeoverDropped := ⟨rfl, rfl, rfl⟩
  exact ((((hbit _ _).trans (hbit _ _)).trans (hbit _ _)).trans (hbit _ _)).trans (hdrop _)

theorem State.causeKept_takeRes (s : State) (code page : Nat) : CauseKept s (s.takeRes code page) :=
  (causeKept_setReg _ _ (by decide)).trans (causeKept_setReg _ _ (by decide))

theorem State.causeKept_cancelTakeover (s : State) : CauseKept s s.cancelTakeover := by
  rw [cancelTakeover_eq]
  exact .ite ((s.causeKept_takeoverCleared.trans (causeKept_takeRes ..)).trans (causeKept_raise _ 5 (by decide)))
    s.causeKept_takeoverCleared

theorem State.shd_showChange (s : State) (n : Nat) : (s.showChange n).crs.shd = s.crs.shd := by
  unfold showChange
  dsimp only
  split <;> rfl

theorem State.shd_announce (s : State) (n : Nat) (t : Tick) (lanes : Nat) (tck : Bool) :
    (s.announce n t lanes tck).crs.shd = s.crs.shd := by
  rw [announce, raise_crs, shd_showChange]
  rfl

theorem State.shd_ite {c : Prop} [Decidable c] {x : CrsBank} {t u : State} (ht : t.crs.shd = x) (hu : u.crs.shd = x) :
    (if c then t else u).crs.shd = x := by
  split
  · exact ht
  · exact hu

theorem State.shd_withdrawTck (s : State) (k : Tick) : (s.withdrawTck k).crs.shd = s.crs.shd := by
  unfold withdrawTck
  dsimp only
  refine List.foldlRecOn (motive := fun t : State => t.crs.shd = s.crs.shd) _ _ rfl fun u hu n _ => ?_
  split
  · exact (shd_announce ..).trans (shd_ite hu hu)
  · exact hu

theorem State.causeKept_withdrawTck (s : State) (k : Tick) : CauseKept s (s.withdrawTck k) :=
  ⟨reg_of_steady (s.steady_withdrawTck k) (by decide), s.shd_withdrawTck k, perst_of_steady (s.steady_withdrawTck k)⟩

theorem State.causeKept_tckCancel (s : State) : CauseKept s s.tckCancel := by
  refine ⟨reg_of_steady s.steady_tckCancel (by decide), ?_, perst_of_steady s.steady_tckCancel⟩
  rw [tckCancel, raiseIf_crs]
  rfl

theorem State.causeKept_dropCommit (s : State) (page : Nat) : CauseKept s (s.dropCommit page) := ⟨rfl, rfl, rfl⟩

theorem State.causeKept_calCancel (s : State) (b : Tick) : CauseKept s (s.calCancel b) := by
  have hres : CauseKept (s.dropCommit pCAL) ((s.dropCommit pCAL).calRes 7) :=
    (causeKept_setReg _ _ (by decide)).trans (causeKept_raiseIf _ _ _ (by decide))
  exact ((s.causeKept_dropCommit pCAL).trans hres).trans ⟨rfl, rfl, rfl⟩

theorem State.causeKept_crsCancel (s : State) : CauseKept s s.crsCancel := by
  refine .ite ?_ (.refl s)
  refine CauseKept.trans (t := { s.dropCommit pCRS with crs := { s.crs with pend := none } }) ⟨rfl, rfl, rfl⟩ ?_
  exact (causeKept_setReg _ _ (by decide)).trans (causeKept_raise _ _ (by decide))

theorem State.causeKept_cancelPage (s : State) (c : PendCommit) : CauseKept s (s.cancelPage c) := by
  have hlpl (u : State) : CauseKept u (u.lplRefuse 5) := (causeKept_setReg _ _ (by decide)).trans (causeKept_raise _ _ (by decide))
  have hprf (u : State) : CauseKept u (u.prfRefuse 5) := (causeKept_setReg _ _ (by decide)).trans (causeKept_raise _ _ (by decide))
  have hprt (u : State) : CauseKept u (u.prtRefuse 6) := (causeKept_setReg _ _ (by decide)).trans (causeKept_raise _ _ (by decide))
  refine .ite (.ite s.causeKept_tckCancel (s.causeKept_tckCancel.trans (causeKept_withdrawTck ..))) ?_
  refine .ite ((s.causeKept_dropCommit _).trans (hlpl _)) ?_
  refine .ite ((s.causeKept_dropCommit _).trans (hprf _)) ?_
  exact .ite s.causeKept_crsCancel (.ite ((s.causeKept_dropCommit _).trans (hprt _)) (s.causeKept_calCancel _))

theorem State.causeKept_gateWithdraw (s : State) (n : Nat) : CauseKept s (s.gateWithdraw n) := by
  unfold gateWithdraw
  split
  · exact .refl s
  · refine .ite ?_ (.refl s)
    refine CauseKept.trans (t := s.setNetPort n fun p => { p with gatePend := none }) ⟨rfl, rfl, rfl⟩ ?_
    exact (causeKept_setReg _ _ (by decide)).trans (causeKept_raiseIf _ _ _ (by decide))

theorem State.causeKept_sendCtrl (s : State) (op : Nat) (t : Tick) (epoch result : Nat) : CauseKept s (s.sendCtrl op t epoch result) := by
  unfold sendCtrl sendMirror emitMirror mirBlocks
  split
  · split
    · exact ⟨rfl, rfl, rfl⟩
    · exact ⟨rfl, rfl, rfl⟩
  · exact .refl s

theorem State.causeKept_resetMaster (s : State) (m : Nat) : CauseKept s (s.resetMaster m) := ⟨rfl, rfl, rfl⟩

theorem State.causeKept_trapEnd (s : State) (res : Nat) : CauseKept s (s.trapEnd res) := by
  refine ⟨s.reg_trapEnd res (by decide), ?_, ?_⟩
  · rw [trapEnd_eq, resetMaster]
    exact congrArg CrsSt.shd (raise_crs ..)
  · have hmaster (u : State) : (u.resetMaster 3).bus.perst = u.bus.perst := rfl
    rw [trapEnd_eq, hmaster]
    exact (perst_of_steady ((s.trapShown res).steady_raise (page := pRED) 5 (by decide))).trans rfl

theorem State.causeKept_abortCatch (s : State) : CauseKept s s.abortCatch := by
  refine .ite ((causeKept_sendCtrl ..).trans (causeKept_trapEnd ..)) (.ite ?_ (.refl s))
  have hstop (u : State) : CauseKept u (u.serveStop false) := ⟨rfl, rfl, rfl⟩
  exact ((s.causeKept_sendCtrl 7 s.now 0 8).trans (hstop _)).trans (causeKept_raise (page := pRED) _ 5 (by decide))

/-! ### The registers of the pages that a management reset resets (R449, R452) -/

/-- What the reset of registers leaves: all but the registers and what is in force of them. -/
def State.unregistered (s : State) : State := { s with regs := [], force := [] }

theorem State.unregistered_ite {c : Prop} [Decidable c] {s t u : State} (ht : t.unregistered = s.unregistered)
    (hu : u.unregistered = s.unregistered) : (if c then t else u).unregistered = s.unregistered := by
  split
  · exact ht
  · exact hu

theorem State.mgmtReg_unregistered (s : State) (key : Nat) : (s.mgmtReg key).unregistered = s.unregistered := by
  unfold mgmtReg
  dsimp only
  refine unregistered_ite rfl ?_
  split
  · exact unregistered_ite rfl rfl
  · exact unregistered_ite rfl (unregistered_ite rfl rfl)
  · exact unregistered_ite rfl rfl

theorem State.mgmtRegs_unregistered (s : State) : s.mgmtRegs.unregistered = s.unregistered :=
  List.foldlRecOn (motive := fun t : State => t.unregistered = s.unregistered) _ _ rfl fun u hu k _ =>
    (u.mgmtReg_unregistered k).trans hu

theorem State.reg_ite {c : Prop} [Decidable c] {x : Word} {k : Nat} {t u : State} (ht : t.reg k = x) (hu : u.reg k = x) :
    (if c then t else u).reg k = x := by
  split
  · exact ht
  · exact hu

theorem State.reg_mgmtReg_other (s : State) {key k : Nat} (h : k ≠ key) : (s.mgmtReg key).reg k = s.reg k := by
  have hset (v : Word) : (s.setReg key v).reg k = s.reg k := reg_setReg_other s v h
  have hboth (v f : Word) : ((s.setReg key v).setForce key f).reg k = s.reg k := hset v
  unfold mgmtReg
  dsimp only
  refine reg_ite (hset _) ?_
  split
  · exact reg_ite rfl (hboth _ _)
  · exact reg_ite rfl (reg_ite (hboth _ _) (hset _))
  · exact reg_ite (hset _) rfl

/-- A register of a page that the reset leaves as it is. -/
theorem State.reg_mgmtRegs_of_kept (s : State) {k : Nat} (h : ∀ u : State, (u.mgmtReg k).reg k = u.reg k) :
    s.mgmtRegs.reg k = s.reg k := by
  refine List.foldlRecOn (motive := fun t : State => t.reg k = s.reg k) _ _ rfl fun u hu j _ => ?_
  by_cases hj : k = j
  · exact hj ▸ (h u).trans hu
  · exact (u.reg_mgmtReg_other hj).trans hu

theorem Sparse.get_of_notMem {α : Type} (d : α) {k : Nat} : ∀ {m : Sparse α}, k ∉ m.map (·.1) → Sparse.get d k m = d
  | [], _ => rfl
  | e :: m, h => by
    rw [List.map_cons, List.mem_cons, not_or] at h
    obtain ⟨hne, hrest⟩ := h
    exact (if_neg hne).trans (get_of_notMem d hrest)

theorem State.reg_foldl_mgmtReg {k : Nat} (h : ∀ u : State, (u.mgmtReg k).reg k = regReset k) (l : List Nat) (s : State)
    (hl : k ∈ l ∨ s.reg k = regReset k) : (l.foldl (fun (s : State) k => s.mgmtReg k) s).reg k = regReset k := by
  induction l generalizing s with
  | nil => exact hl.resolve_left List.not_mem_nil
  | cons j l ih =>
    refine ih _ ?_
    by_cases hj : k = j
    · exact .inr (hj ▸ h s)
    · exact hl.imp (fun hmem => (List.mem_cons.1 hmem).resolve_left hj) fun hreg => (s.reg_mgmtReg_other hj).trans hreg

/-- A register of a page that the reset returns to its reset value. -/
theorem State.reg_mgmtRegs_of_reset (s : State) {k : Nat} (h : ∀ u : State, (u.mgmtReg k).reg k = regReset k) :
    s.mgmtRegs.reg k = regReset k := by
  refine reg_foldl_mgmtReg h _ s ?_
  by_cases hk : k ∈ s.regs.map (·.1)
  · exact .inl (List.mem_eraseDups.2 (List.mem_append_left _ hk))
  · exact .inr (Sparse.get_of_notMem _ hk)

theorem State.reg_mgmtReg_of_reset (s : State) {k : Nat} (hoff : ¬ (k % 0x1000 = OFF_PAGE_CTRL ∨ k % 0x1000 = OFF_COMMIT ∨
    k % 0x1000 = OFF_COMMIT_TICK)) (hcls : clsOf k = .reset) (hany : keptAnyway k = false) : (s.mgmtReg k).reg k = regReset k := by
  unfold mgmtReg
  dsimp only
  rw [if_neg hoff, hcls]
  dsimp only
  rw [hany]
  exact (reg_setReg ..).trans (if_pos rfl)

theorem State.reg_mgmtReg_of_kept (s : State) {k : Nat} (hoff : ¬ (k % 0x1000 = OFF_PAGE_CTRL ∨ k % 0x1000 = OFF_COMMIT ∨
    k % 0x1000 = OFF_COMMIT_TICK)) (hcls : clsOf k = .kept) (hany : resetAnyway k = false) : (s.mgmtReg k).reg k = s.reg k := by
  unfold mgmtReg
  dsimp only
  rw [if_neg hoff, hcls]
  dsimp only
  rw [hany, if_neg fun h => Bool.false_ne_true h.2]

end Sys2Proof.Machine
end

section
/-! PROOFS. The sequencers that a management reset stops, and the resets of the host's side (R449, R452, R483, R492, R518). -/

namespace Sys2Proof.Machine

/-! ### The sequencers stop (R518) -/

/-- A calibration pass is given up, and its results with it. -/
def State.calHalted (s : State) : State :=
  { s.calAbort with cal := { s.calAbort.cal with pass := none, results := [], staged := [], stagedBank := none } }

/-- The solver and the staging of the compute engine stop. -/
def State.solverDropped (s : State) : State :=
  { s with rsv := {}, rce := { s.rce with staging := none, descBusy := false, imgBusy := false, ctxHeld := [] } }

def State.solverHalted (s : State) : State :=
  ((s.solverDropped.setBit Reg.RCE_STAT 2 false).setBit Reg.FAB_STAT 2 false).setBit Reg.FAB_STAT 3 false

def State.sessionsClosed (s : State) : State := { s with net := { s.net with sessions := [], waits := [] } }

/-- The measurement's window and the armed claim end in their registers. -/
def State.triggersHalted (s : State) : State :=
  (((s.setFld Reg.MEA_CTRL 1 2 0).setForce Reg.MEA_CTRL (s.inForce Reg.MEA_CTRL &&& ~~~(6 : Word))).setBit Reg.RED_CLAIM 0 false)

/-- What a management reset stops before it resets registers. -/
def State.sequencersHalted (s : State) : State :=
  let u := (s.calHalted.setReg Reg.CAL_STAT (s.calHalted.reg Reg.CAL_STAT &&& 0x3FFF00C0)).solverHalted.stopRings
  (((u.sessionsClosed).raiseIf (u.net.sessions.any fun e => e.2.active) 0x0B0 2).setFld Reg.MGT_STAT 0 4 0).triggersHalted

def State.meaHalted (s : State) : State := { s with mea := { s.mea with frame := [], frameN := 0, waiting := [] } }

/-- What it shows after it has reset registers. -/
def State.sequencersShown (s : State) (calStat : Word) (img : Bool) : State :=
  let u := if img then (s.setReg Reg.CAL_STAT calStat).setRegN Reg.FAB_IMG_RES 0xA else s.setReg Reg.CAL_STAT calStat
  ((u.setBit Reg.LPL_STAT 10 false).setBit Reg.RSV_STAT 1 (u.level == 3)).meaHalted

theorem State.stopSequencers_eq (s : State) : s.stopSequencers =
    s.sequencersHalted.mgmtRegs.sequencersShown (s.calHalted.reg Reg.CAL_STAT &&& 0x3FFF00C0) s.calHalted.rce.imgBusy := by
  unfold stopSequencers
  extract_lets _ _ halted keep c img _ _ solver rings busy _ closed raised shown _ _ triggers regs _ _ last _
  have hlast : last.meaHalted = _ := rfl
  refine hlast.symm.trans ?_
  have hhalted : s.calHalted = halted := rfl
  clear_value halted
  have hsolver : (halted.setReg Reg.CAL_STAT (halted.reg Reg.CAL_STAT &&& 0x3FFF00C0)).solverHalted = solver := rfl
  clear_value solver
  have hclosed : rings.sessionsClosed = closed := rfl
  have htriggers : shown.triggersHalted = triggers := rfl
  rw [sequencersHalted, hhalted, hsolver]
  change last.meaHalted = shown.triggersHalted.mgmtRegs.sequencersShown keep img
  rw [htriggers]
  rfl

/-- A calibration pass, the solver's jobs and the agent's sessions are none. -/
structure State.Idle (s : State) : Prop where
  pass : s.cal.pass = none
  rsv : s.rsv = {}
  sessions : s.net.sessions = []

theorem State.Idle.of_unregistered {s t : State} (h : s.Idle) (hall : t.unregistered = s.unregistered) : t.Idle := by
  have hpass : t.unregistered.cal.pass = s.unregistered.cal.pass := by rw [hall]
  have hrsv : t.unregistered.rsv = s.unregistered.rsv := by rw [hall]
  have hsessions : t.unregistered.net.sessions = s.unregistered.net.sessions := by rw [hall]
  exact ⟨hpass.trans h.pass, hrsv.trans h.rsv, hsessions.trans h.sessions⟩

theorem State.Idle.setReg {s : State} (h : s.Idle) (k : Nat) (v : Word) : (s.setReg k v).Idle := ⟨h.pass, h.rsv, h.sessions⟩

theorem State.Idle.setForce {s : State} (h : s.Idle) (k : Nat) (v : Word) : (s.setForce k v).Idle := ⟨h.pass, h.rsv, h.sessions⟩

theorem State.Idle.raiseIf {s : State} (h : s.Idle) (c : Bool) (page i : Nat) : (s.raiseIf c page i).Idle :=
  ⟨by rw [raiseIf_cal, h.pass], by rw [raiseIf_rsv, h.rsv], by rw [raiseIf_net, h.sessions]⟩

theorem State.Idle.ite {c : Prop} [Decidable c] {t u : State} (ht : t.Idle) (hu : u.Idle) : (if c then t else u).Idle := by
  split
  · exact ht
  · exact hu

theorem State.Idle.sequencersShown {s : State} (h : s.Idle) (calStat : Word) (img : Bool) :
    (s.sequencersShown calStat img).Idle := by
  have hmea {u : State} (h : u.Idle) : u.meaHalted.Idle := ⟨h.pass, h.rsv, h.sessions⟩
  exact hmea (((Idle.ite ((h.setReg ..).setReg ..) (h.setReg ..)).setReg ..).setReg ..)

theorem State.idle_sequencersHalted (s : State) : s.sequencersHalted.Idle := by
  have hclosed (u : State) (hcore : u.stopRings.core = u.core) (hpass : u.cal.pass = none) (hrsv : u.rsv = {}) :
      u.stopRings.sessionsClosed.Idle := by
    have hp : u.stopRings.core.cal.pass = u.core.cal.pass := by rw [hcore]
    have hr : u.stopRings.core.rsv = u.core.rsv := by rw [hcore]
    exact ⟨hp.trans hpass, hr.trans hrsv, rfl⟩
  unfold sequencersHalted
  exact (((((hclosed _ (core_stopRings _) rfl rfl).raiseIf _ _ _).setReg _ _).setReg _ _).setForce _ _).setReg _ _

theorem State.idle_stopSequencers (s : State) : s.stopSequencers.Idle := by
  rw [stopSequencers_eq]
  exact (s.idle_sequencersHalted.of_unregistered (mgmtRegs_unregistered _)).sequencersShown ..

theorem State.shd_calAbort (s : State) : s.calAbort.crs.shd = s.crs.shd := by
  unfold calAbort
  split
  · rfl
  · rename_i p _
    unfold passEnd
    dsimp only
    rw [raise_crs]
    refine Eq.trans (List.foldlRecOn (motive := fun u : State => u.crs.shd = (s.calGiveBack _).1.crs.shd) _ _ rfl
      fun _ h _ _ => h) ?_
    exact List.foldlRecOn (motive := fun u : State => u.crs.shd = s.crs.shd) _ _ rfl fun u h e _ => shd_ite h h

theorem State.steady_setNetQ (s : State) (n q : Nat) (f : NetQ → NetQ) : (s.setNetQ n q f).steady = s.steady := rfl

theorem State.steady_stopRings (s : State) : s.stopRings.steady = s.steady := by
  have hnet (u : State) (x : NetSt) : { u with net := x }.steady = u.steady := rfl
  unfold stopRings
  dsimp only
  rw [hnet]
  refine Eq.trans (steady_foldl _ _ _ fun u e _ => ?_) (steady_emptyQueues s 66 none)
  exact u.steady_setNetQ ..

theorem State.causeKept_sequencersHalted (s : State) : CauseKept s s.sequencersHalted := by
  have habort : CauseKept s s.calAbort :=
    ⟨reg_of_steady s.steady_calAbort (by decide), s.shd_calAbort, perst_of_steady s.steady_calAbort⟩
  have hcal (u : State) (x : CalSt) : CauseKept u { u with cal := x } := ⟨rfl, rfl, rfl⟩
  have hdrop (u : State) : CauseKept u u.solverDropped := ⟨rfl, rfl, rfl⟩
  have hrings (u : State) : CauseKept u u.stopRings := .of_steady u.steady_stopRings u.core_stopRings
  have hclosed (u : State) : CauseKept u u.sessionsClosed := ⟨rfl, rfl, rfl⟩
  have hforce (u : State) (k : Nat) (v : Word) : CauseKept u (u.setForce k v) := ⟨rfl, rfl, rfl⟩
  have hsolver (u : State) : CauseKept u u.solverHalted :=
    (((hdrop u).trans (causeKept_setReg (k := Reg.RCE_STAT) _ _ (by decide))).trans
      (causeKept_setReg (k := Reg.FAB_STAT) _ _ (by decide))).trans (causeKept_setReg (k := Reg.FAB_STAT) _ _ (by decide))
  have htriggers (u : State) : CauseKept u u.triggersHalted :=
    ((u.causeKept_setReg (k := Reg.MEA_CTRL) _ (by decide)).trans (hforce ..)).trans
      (causeKept_setReg (k := Reg.RED_CLAIM) _ _ (by decide))
  unfold sequencersHalted
  dsimp only
  refine CauseKept.trans ?_ (htriggers _)
  refine CauseKept.trans ?_ (causeKept_setReg (k := Reg.MGT_STAT) _ _ (by decide))
  refine CauseKept.trans ?_ (causeKept_raiseIf _ _ _ (by decide))
  refine CauseKept.trans ?_ (hclosed _)
  refine CauseKept.trans ?_ (hrings _)
  refine CauseKept.trans ?_ (hsolver _)
  exact (habort.trans (hcal ..)).trans (causeKept_setReg (k := Reg.CAL_STAT) _ _ (by decide))

theorem State.causeKept_mgmtRegs (s : State) : CauseKept s s.mgmtRegs :=
  have hshd : s.mgmtRegs.unregistered.crs.shd = s.unregistered.crs.shd := by rw [mgmtRegs_unregistered]
  have hperst : s.mgmtRegs.unregistered.bus.perst = s.unregistered.bus.perst := by rw [mgmtRegs_unregistered]
  ⟨s.reg_mgmtRegs_of_kept fun u => u.reg_mgmtReg_of_kept (by decide) (by decide +kernel) (by decide +kernel), hshd, hperst⟩

/-- The registers that are shown after the reset of registers. -/
def shownKeys : List Nat := [Reg.CAL_STAT, Reg.FAB_IMG_RES, Reg.LPL_STAT, Reg.RSV_STAT]

theorem State.reg_sequencersShown (s : State) (calStat : Word) (img : Bool) {k : Nat} (hk : k ∉ shownKeys) :
    (s.sequencersShown calStat img).reg k = s.reg k := by
  simp only [shownKeys, List.mem_cons, List.not_mem_nil, or_false, not_or] at hk
  obtain ⟨hcal, himg, hlpl, hrsv⟩ := hk
  have hmea (u : State) : u.meaHalted.reg k = u.reg k := rfl
  have hshown : (s.setReg Reg.CAL_STAT calStat).reg k = s.reg k := reg_setReg_other _ _ hcal
  unfold sequencersShown
  dsimp only
  rw [hmea, reg_setBit, if_neg hrsv, reg_setBit, if_neg hlpl]
  exact reg_ite ((reg_setReg_other _ _ himg).trans hshown) hshown

theorem State.shd_sequencersShown (s : State) (calStat : Word) (img : Bool) :
    (s.sequencersShown calStat img).crs.shd = s.crs.shd := shd_ite rfl rfl

theorem State.perst_sequencersShown (s : State) (calStat : Word) (img : Bool) :
    (s.sequencersShown calStat img).bus.perst = s.bus.perst := by
  cases img <;> rfl

theorem State.bit_sequencersShown (s : State) (calStat : Word) (img : Bool) :
    (s.sequencersShown calStat img).bit Reg.LPL_STAT 10 = false := by
  have hmea (u : State) : u.meaHalted.bit Reg.LPL_STAT 10 = u.bit Reg.LPL_STAT 10 := rfl
  unfold sequencersShown
  dsimp only
  rw [hmea, bit_setBit _ _ _ _ (by decide), if_neg (by decide), bit_setBit_same _ _ _ (by decide)]

theorem State.causeKept_stopSequencers (s : State) : CauseKept s s.stopSequencers := by
  rw [stopSequencers_eq]
  exact (s.causeKept_sequencersHalted.trans (causeKept_mgmtRegs _)).trans
    ⟨reg_sequencersShown _ _ _ (by decide), shd_sequencersShown .., perst_sequencersShown ..⟩

/-- BMX_QUIET_DECODE has its reset value, QUIET 1 (R483). -/
theorem State.quiet_stopSequencers (s : State) : s.stopSequencers.bit Reg.BMX_QUIET_DECODE 0 = true := by
  have hreset : s.stopSequencers.reg Reg.BMX_QUIET_DECODE = regReset Reg.BMX_QUIET_DECODE := by
    rw [stopSequencers_eq, reg_sequencersShown _ _ _ (by decide)]
    exact reg_mgmtRegs_of_reset _ fun u => u.reg_mgmtReg_of_reset (by decide) (by decide +kernel) (by decide +kernel)
  rw [bit, hreset]
  decide +kernel

/-! ### The management reset (R449) -/

/-- The cause and the count that a management reset shows. -/
def State.mgmtCaused (s : State) (cause : Nat) : State :=
  ((((s.setFld Reg.GLB_RESET_CAUSE 4 2 1).setFld Reg.GLB_RESET_CAUSE 6 2 2).setFld Reg.GLB_RESET_CAUSE 0 4 cause).bump
    Reg.GLB_RESET_CAUSE 16 16 1).logEvent 0x000 5 0x42 cause 0

/-- What it cancels before it stops the sequencers. -/
def State.mgmtCancelled (s : State) : State :=
  let u := (List.range 66).foldl (fun (s : State) n => s.gateWithdraw n) s.cancelTakeover.cancelAllCommits
  ((((if u.trapRuns || u.red.serve.isSome then u.abortCatch else u).resetMaster 2).resetMaster 4).resetMaster 5).resetMaster 6

theorem State.mgmtReset_eq {s : State} (hoff : s.off = false) (hreset : s.flt.inReset = false) (cause : Nat) :
    s.mgmtReset cause = (s.mgmtCaused cause).mgmtCancelled.stopSequencers := by
  unfold mgmtReset
  rw [hoff, hreset, if_neg (by decide)]
  extract_lets _ _ caused cancelled gates aborted reset
  have hcaused : s.mgmtCaused cause = caused := rfl
  rw [hcaused]
  clear_value caused
  have hgates : (List.range 66).foldl (fun (s : State) n => s.gateWithdraw n) caused.cancelTakeover.cancelAllCommits = gates := rfl
  rw [mgmtCancelled, hgates]

theorem State.causeKept_mgmtCancelled (s : State) : CauseKept s s.mgmtCancelled := by
  have hcommits (u : State) : CauseKept u u.cancelAllCommits := .foldl _ _ _ fun v c _ => v.causeKept_cancelPage c
  unfold mgmtCancelled
  refine CauseKept.trans ?_ (((((causeKept_resetMaster _ 2).trans (causeKept_resetMaster _ 4)).trans
    (causeKept_resetMaster _ 5)).trans (causeKept_resetMaster _ 6)))
  refine CauseKept.trans ((s.causeKept_cancelTakeover.trans (hcommits _)).trans
    (.foldl (fun (s : State) n => s.gateWithdraw n) (List.range 66) _ fun v n _ => v.causeKept_gateWithdraw n)) ?_
  exact .ite (causeKept_abortCatch _) (.refl _)

theorem State.mstate_mgmtCaused (s : State) (cause : Nat) : (s.mgmtCaused cause).mstate = 1 := by
  have hone : 1 % 2 ^ 2 = 1 := by decide
  rw [mstate, mgmtCaused, fld_of_reg (reg_of_steady (steady_logEvent ..) (by decide)),
    fld_bump_other _ (by decide) (.inl (by decide)), fld_setFld_other _ (by decide) (.inr (.inr (by decide))),
    fld_setFld_other _ (by decide) (.inr (.inl (by decide))), fld_setFld_same _ (by decide)]
  exact hone

theorem State.perst_mgmtCaused (s : State) (cause : Nat) : (s.mgmtCaused cause).bus.perst = s.bus.perst :=
  (perst_of_steady (steady_logEvent ..)).trans rfl

/-- What a management reset shows at once. -/
structure State.MgmtReset (s t : State) : Prop where
  mstate : t.mstate = 1
  idle : t.Idle
  shd : t.crs.shd = s.crs.shd
  calibrates : t.bit Reg.LPL_STAT 10 = false
  quiet : t.bit Reg.BMX_QUIET_DECODE 0 = true
  perst : t.bus.perst = s.bus.perst

theorem State.mgmtReset_resets {s : State} (hup : s.silent = false) (cause : Nat) : s.MgmtReset (s.mgmtReset cause) := by
  obtain ⟨hoff, hreset⟩ := Bool.or_eq_false_iff.1 hup
  have hkept := (s.mgmtCaused cause).causeKept_mgmtCancelled.trans (causeKept_stopSequencers _)
  rw [mgmtReset_eq hoff hreset]
  refine ⟨(fld_of_reg hkept.cause ..).trans (s.mstate_mgmtCaused cause), idle_stopSequencers _, hkept.shd.trans ?_, ?_,
    quiet_stopSequencers _, hkept.perst.trans (perst_mgmtCaused ..)⟩
  · rw [mgmtCaused, logEvent_crs]
    rfl
  · rw [stopSequencers_eq]
    exact bit_sequencersShown ..

theorem State.not_silent_of_accepts {s : State} {m a : Nat} {v : Word} (h : s.accepts m a v = true) : s.silent = false := by
  simp only [accepts, Bool.and_eq_true, Bool.not_eq_true'] at h
  obtain ⟨⟨⟨⟨hoff, hreset⟩, -⟩, -⟩, -⟩ := h
  rw [silent, hoff, hreset]
  rfl

theorem managementReset_resets (m : Fin 8) (cycle : Nat) (s : State) (hm : m.val ≤ 2)
    (hacc : (s.atCycle cycle).accepts m Reg.GLB_RESET 0x5A5A0003 = true) :
    Completes (.managementReset m 0x5A5A cycle) s fun t => s.MgmtReset t := by
  have hresets := State.mgmtReset_resets (s := (s.atCycle cycle).respond m true Reg.GLB_RESET .ok 0)
    (State.not_silent_of_accepts hacc) 6
  exact ⟨_, exec_managementReset hm hacc, hresets.mstate, hresets.idle, hresets.shd, hresets.calibrates, hresets.quiet,
    hresets.perst⟩

/-- Settles O14: a decode error is logged and answered as QUIET says, QUIET is 1 after the three resets, and every other violation
is answered whatever QUIET. -/
theorem decodeErrorsAndQuiet : Obligations.DecodeErrorsAndQuiet := by
  unfold Obligations.DecodeErrorsAndQuiet
  refine ⟨fun m write addr s hreach htarget hup => ?_, fun m straps s hm hacc => ?_, fun m s hm hacc => ?_,
    fun m cycle s hm hacc => ?_, fun m addr v cycle k s hword htarget hheld hrefused => ?_⟩
  · obtain ⟨t, hexec, hlogged⟩ := decodeError_logs m write addr s hreach htarget hup
    refine ⟨t, hexec, hlogged.addr, hlogged.raised, hlogged.master, hlogged.write, fun hquiet => ?_, fun hquiet => ?_, hlogged.mem⟩
    · exact ⟨by rw [hlogged.last, hquiet]; rfl, hlogged.quiet.trans hquiet⟩
    · exact ⟨by rw [hlogged.last, hquiet]; rfl, hlogged.quiet.trans hquiet⟩
  · exact ⟨_, exec_coldReset hm hacc straps true true, (State.coldReset_starts _ 4 straps true true).2.quiet⟩
  · exact ⟨_, exec_warmReset hm hacc true, (State.warmReset_starts _ true).2.quiet⟩
  · obtain ⟨t, hexec, hreset⟩ := managementReset_resets m cycle s hm hacc
    exact ⟨t, hexec, hreset.quiet⟩
  · exact registerWrite_refused m addr v cycle k s hword htarget hheld hrefused

/-! ### The end of a management reset (R452, R453) -/

theorem mgmtResetDone_orphans (s : State) (hreset : s.mstate = 1) (hseq : s.pwr.seqCause ≠ some 1) (hheld : s.bus.held = [])
    (hwaits : s.net.waits = []) :
    Completes .mgmtResetDone s fun t => t.orphaned = true ∧ t.bit (cReg 6 OFF_INT_STAT) 6 = true ∧ SameMem s t := by
  have hends : s.mgmtEnds = (s.setFld Reg.GLB_RESET_CAUSE 4 2 2).raise 0x006 6 := if_pos ⟨hreset, hseq⟩
  have hidle := State.resume_of_idle (s := s.mgmtEnds) (by rw [hends, State.raise_held]; exact hheld)
    (by rw [hends, State.raise_net]; exact hwaits)
  have hmstate : s.mgmtEnds.mstate = 2 % 2 ^ 2 := by
    rw [hends, State.mstate, State.fld_of_reg (State.reg_raise _ (by decide)), State.fld_setFld_same _ (by decide)]
  have hmem : s.mgmtEnds.mem = s.mem := by rw [hends, State.raise_mem]; rfl
  have hraised : s.mgmtEnds.bit (cReg 6 OFF_INT_STAT) 6 = true := by rw [hends]; exact State.bit_raise _ 6 (by decide)
  refine ⟨_, congrArg Host.Outcome.next hidle, ?_, hraised, sameMem_of_mem hmem⟩
  exact beq_iff_eq.2 hmstate

end Sys2Proof.Machine
end

section
/-! PROOFS. The resets by PCIe and by PERST, and the soft reset of a block (R462, R492, R518). -/

namespace Sys2Proof.Machine

/-! ### The resets by PCIe and by PERST (R492) -/

/-- What a reset of the host's side shows at once. -/
structure State.HostReset (t : State) : Prop where
  mstate : t.mstate = 1
  sessions : t.net.sessions = []
  enable : t.bit Reg.HIF_STAT 9 = false
  mask : t.bit Reg.HIF_STAT 10 = false
  pending : t.reg64 Reg.HIF_PBA = 0

/-- The entries of the MSI-X table as they are after a reset. -/
def State.msixTableReset (s : State) : State :=
  (List.range 256).foldl (fun (s : State) i => s.setReg (Reg.HIF_MSIX + 4 * i) (regReset (Reg.HIF_MSIX + 4 * i))) s

theorem State.resetMsix_eq (s : State) : s.resetMsix =
    ((((s.setBit Reg.HIF_STAT 9 false).setBit Reg.HIF_STAT 10 false).msixTableReset).setRegN Reg.HIF_PBA 0).setRegN
      (Reg.HIF_PBA + 4) 0 := rfl

theorem State.reg_msixTableReset (s : State) {k : Nat} (hk : k < Reg.HIF_MSIX ∨ Reg.HIF_MSIX + 1024 ≤ k) :
    s.msixTableReset.reg k = s.reg k :=
  List.foldlRecOn (motive := fun t : State => t.reg k = s.reg k) _ _ rfl fun u hu i hi =>
    (reg_setReg_other u _ (by have := List.mem_range.1 hi; omega)).trans hu

theorem State.net_msixTableReset (s : State) : s.msixTableReset.net = s.net :=
  List.foldlRecOn (motive := fun t : State => t.net = s.net) _ _ rfl fun _ hu _ _ => hu

theorem State.bus_msixTableReset (s : State) : s.msixTableReset.bus = s.bus :=
  List.foldlRecOn (motive := fun t : State => t.bus = s.bus) _ _ rfl fun _ hu _ _ => hu

theorem State.raiseIf_perst (s : State) (c : Bool) (page i : Nat) : (s.raiseIf c page i).bus.perst = s.bus.perst := by
  unfold raiseIf raise withSummary
  dsimp only
  split
  · split
    · exact afterRise_perst ..
    · exact (afterRise_perst ..).trans (afterRise_perst ..)
  · rfl

theorem State.reg_resetMsix (s : State) {k : Nat} (hk : k < Reg.HIF_MSIX ∨ Reg.HIF_MSIX + 1024 ≤ k)
    (hpba : k ∉ [Reg.HIF_PBA, Reg.HIF_PBA + 4]) :
    s.resetMsix.reg k = ((s.setBit Reg.HIF_STAT 9 false).setBit Reg.HIF_STAT 10 false).reg k := by
  simp only [List.mem_cons, List.not_mem_nil, or_false, not_or] at hpba
  obtain ⟨hlow, hhigh⟩ := hpba
  rw [resetMsix_eq, reg_setRegN, if_neg hhigh, reg_setRegN, if_neg hlow, reg_msixTableReset _ hk]

theorem State.hostReset_resetMsix {s : State} (hmstate : s.mstate = 1) (hsessions : s.net.sessions = []) : s.resetMsix.HostReset := by
  have hstat : s.resetMsix.reg Reg.HIF_STAT = ((s.setBit Reg.HIF_STAT 9 false).setBit Reg.HIF_STAT 10 false).reg Reg.HIF_STAT :=
    s.reg_resetMsix (.inl (by decide)) (by decide)
  have hcause : s.resetMsix.reg Reg.GLB_RESET_CAUSE = s.reg Reg.GLB_RESET_CAUSE := by
    rw [reg_resetMsix _ (.inl (by decide)) (by decide), reg_setBit, if_neg (by decide), reg_setBit, if_neg (by decide)]
  refine ⟨(fld_of_reg hcause ..).trans hmstate, ?_, ?_, ?_, ?_⟩
  · rw [resetMsix_eq, setRegN_net, setRegN_net, net_msixTableReset]
    exact hsessions
  · rw [bit_of_reg hstat, bit_setBit _ _ _ _ (by decide), if_neg (by decide), bit_setBit_same _ _ _ (by decide)]
  · rw [bit_of_reg hstat, bit_setBit_same _ _ _ (by decide)]
  · rw [reg64, resetMsix_eq, reg_setRegN, if_neg (by decide), reg_setRegN, if_pos rfl, reg_setRegN, if_pos rfl]
    rfl

theorem State.hostReset_pcieReset {s : State} (hup : s.silent = false) : s.pcieReset.HostReset := by
  have hreset := mgmtReset_resets (s := s.resetMaster 0) hup 7
  exact hostReset_resetMsix hreset.mstate hreset.idle.sessions

/-- The state of the link is 0 once it is gone. -/
theorem State.linkGone_shows {s : State} (h : s.HostReset) :
    s.linkGone.mstate = 1 ∧ s.linkGone.net.sessions = [] ∧ s.linkGone.fld Reg.HIF_STAT 0 8 = 0 := by
  have hset : s.linkGone = (s.setFld Reg.HIF_STAT 0 8 0).raiseIf (s.fld Reg.HIF_STAT 0 8 != 0) 0x00A 2 := rfl
  have hcause : s.linkGone.reg Reg.GLB_RESET_CAUSE = s.reg Reg.GLB_RESET_CAUSE := by
    rw [hset, reg_raiseIf _ (by decide), reg_setFld, if_neg (by decide)]
  refine ⟨(fld_of_reg hcause ..).trans h.mstate, ?_, ?_⟩
  · rw [hset, raiseIf_net]
    exact h.sessions
  · rw [hset, fld_of_reg (reg_raiseIf _ (by decide)), fld_setFld_same _ (by decide)]
    rfl

theorem awakeHost {s : State} (hup : s.silent = false) (hperst : s.bus.perst = false) : ¬ (s.silent || s.bus.perst) = true := by
  rw [hup, hperst]
  decide

theorem pcieHotReset_resets (s : State) (hup : s.silent = false) (hperst : s.bus.perst = false) :
    Completes .pcieHotReset s fun t => t.HostReset :=
  ⟨_, congrArg Host.Outcome.next (if_neg (awakeHost hup hperst)), State.hostReset_pcieReset hup⟩

theorem functionLevelReset_resets (s : State) (hup : s.silent = false) (hperst : s.bus.perst = false) :
    Completes .functionLevelReset s fun t => t.HostReset :=
  ⟨_, congrArg Host.Outcome.next (if_neg (awakeHost hup hperst)), State.hostReset_pcieReset hup⟩

theorem pcieLinkDown_resets (s : State) (hup : s.silent = false) (hperst : s.bus.perst = false) :
    Completes .pcieLinkDown s fun t => t.mstate = 1 ∧ t.net.sessions = [] ∧ t.fld Reg.HIF_STAT 0 8 = 0 :=
  ⟨_, congrArg Host.Outcome.next (if_neg (awakeHost hup hperst)), State.linkGone_shows (State.hostReset_pcieReset hup)⟩

/-- PERST as it is driven. -/
def State.withPerst (s : State) (low : Bool) : State := { s with bus := { s.bus with perst := low } }

theorem State.perst_pcieReset {s : State} (hup : s.silent = false) : s.pcieReset.linkGone.bus.perst = s.bus.perst := by
  have hgone (u : State) : u.linkGone.bus.perst = u.bus.perst := by
    unfold linkGone
    exact raiseIf_perst (u.setFld Reg.HIF_STAT 0 8 0) _ _ _
  have hmsix (u : State) : u.resetMsix.bus.perst = u.bus.perst := by
    rw [resetMsix_eq, setRegN_bus, setRegN_bus, bus_msixTableReset]
    rfl
  rw [pcieReset, hgone, hmsix]
  exact (mgmtReset_resets (s := s.resetMaster 0) hup 7).perst

theorem pciePerst_resets (low : Bool) (s : State) :
    Completes (.pciePerst low) s fun t => t.bus.perst = low ∧
      (low = true → s.bus.perst = false → s.silent = false → t.mstate = 1 ∧ t.fld Reg.HIF_STAT 0 8 = 0) := by
  by_cases hreset : low = true ∧ s.bus.perst = false ∧ s.silent = false
  · obtain ⟨hlow, hperst, hup⟩ := hreset
    obtain ⟨hmstate, -, hlink⟩ := State.linkGone_shows (State.hostReset_pcieReset (s := s.withPerst low) hup)
    have hdue : (low && !s.bus.perst && !s.silent) = true := by rw [hlow, hperst, hup]; rfl
    have hexec : exec (.pciePerst low) s = .next (s.withPerst low).pcieReset.linkGone := congrArg Host.Outcome.next (if_pos hdue)
    have hkept := State.perst_pcieReset (s := s.withPerst low) hup
    exact ⟨_, hexec, hkept, fun _ _ _ => ⟨hmstate, hlink⟩⟩
  · have hnot : ¬ (low && !s.bus.perst && !s.silent) = true := by simpa [and_assoc] using hreset
    exact ⟨_, congrArg Host.Outcome.next (if_neg hnot), rfl, fun hlow hperst hup => absurd ⟨hlow, hperst, hup⟩ hreset⟩

/-! ### The soft reset of a block (R462) -/

theorem State.storeReg_srst (s : State) (k : Nat) (v : Word) : (s.storeReg k v).rst.srst = s.rst.srst := by
  have hforce (u : State) (c : Bool) (v : Word) : (u.setForceIf c k v).rst.srst = u.rst.srst := by
    cases c <;> rfl
  have hnote (u : State) : (u.noteWritten k).rst.srst = u.rst.srst := by
    unfold noteWritten
    split <;> rfl
  unfold storeReg
  split
  · rfl
  · exact (hnote _).trans (hforce ..)

theorem State.softReset_shows {s : State} {page : Nat} (hpage : srstPage page = true) (hnew : s.rst.srst.contains page = false) :
    page ∈ (s.softReset page).rst.srst ∧ (s.softReset page).reg (cReg page OFF_FAULT_CNT) = 0 ∧
      (s.softReset page).bit (cReg page OFF_PAGE_CTRL) 0 = true := by
  unfold softReset
  rw [hpage, hnew, if_neg (by decide)]
  dsimp only
  generalize (if page = 84 then _ else _ : State) = u
  have hreg (x : State) (l : RstSt) (k : Nat) : { x with rst := l }.reg k = x.reg k := rfl
  refine ⟨List.mem_cons_self, ?_, bit_setBit_same _ _ _ (by decide)⟩
  rw [hreg, reg_setBit, if_neg (by unfold cReg OFF_FAULT_CNT OFF_PAGE_CTRL; omega), clearFaults]
  exact (reg_setRegN ..).trans (if_pos rfl)

theorem softReset_shows (m : Fin 8) (page : BitVec 14) (v : Word) (s : State)
    (hacc : s.accepts m (cReg page.toNat OFF_PAGE_CTRL) (v ||| 2) = true) (hpage : srstPage page.toNat = true)
    (hnew : s.rst.srst.contains page.toNat = false) :
    Completes (.softReset m page v) s fun t => page.toNat ∈ t.rst.srst ∧ t.reg (cReg page.toNat OFF_FAULT_CNT) = 0 ∧
      t.bit (cReg page.toNat OFF_PAGE_CTRL) 0 = true := by
  have hsrst (u : State) (hu : u.rst.srst = s.rst.srst) :
      ((u.storeReg (cReg page.toNat OFF_PAGE_CTRL) (v ||| 2)).rst.srst).contains page.toNat = false := by
    rw [State.storeReg_srst, hu, hnew]
  obtain ⟨hmem, hcount, hself⟩ := State.softReset_shows hpage (hsrst (s.respond m true (cReg page.toNat OFF_PAGE_CTRL) .ok 0) rfl)
  refine ⟨_, rfl, ?_, ?_, ?_⟩
  · rw [State.gateWrite_rst _ _ hacc]
    exact hmem
  · rw [State.reg_gateWrite _ _ hacc]
    exact hcount
  · rw [State.bit_of_reg (State.reg_gateWrite _ _ hacc _)]
    exact hself

theorem softResetDone_ends (page : BitVec 14) (s : State) (hin : s.rst.srst.contains page.toNat = true) (hheld : s.bus.held = [])
    (hwaits : s.net.waits = []) :
    Completes (.softResetDone page) s fun t => t.rst.srst = s.rst.srst.filter (· != page.toNat) ∧ SameMem s t ∧
      SameRegs s t [] := by
  have hidle := State.resume_of_idle
    (s := { s with rst := { s.rst with srst := s.rst.srst.filter (· != page.toNat) } }) hheld hwaits
  exact ⟨_, congrArg Host.Outcome.next ((if_pos hin).trans hidle), rfl, fun _ => rfl, fun _ _ => rfl⟩

/-- Settles O38, clause by clause. -/
theorem managementAndSoftResetsComplete : Obligations.ManagementAndSoftResetsComplete := by
  unfold Obligations.ManagementAndSoftResetsComplete
  refine ⟨fun m cycle s hm hacc => ?_, mgmtResetDone_orphans, fun s hup hperst => ?_, fun s hup hperst => ?_, pcieLinkDown_resets,
    pciePerst_resets, softReset_shows, softResetDone_ends⟩
  · obtain ⟨t, hexec, hreset⟩ := managementReset_resets m cycle s hm hacc
    refine ⟨t, hexec, hreset.mstate, hreset.idle.sessions, hreset.idle.pass, ?_, ?_, congrArg CrsBank.count hreset.shd,
      hreset.calibrates⟩
    · rw [hreset.idle.rsv]
    · rw [hreset.idle.rsv]
  · obtain ⟨t, hexec, h⟩ := pcieHotReset_resets s hup hperst
    exact ⟨t, hexec, h.mstate, h.sessions, h.enable, h.mask, h.pending⟩
  · obtain ⟨t, hexec, h⟩ := functionLevelReset_resets s hup hperst
    exact ⟨t, hexec, h.mstate, h.sessions, h.enable, h.mask, h.pending⟩

end Sys2Proof.Machine
end

section
/-! PROOFS. Single accesses of the bus matrix (R445, R463, R465, R468, R474, R479, R483, R484). -/

namespace Sys2Proof.Machine

/-! ### Accepted writes of registers (R468, R474) -/

theorem State.target_of_accepts {s : State} {m a : Nat} {v : Word} (h : s.accepts m a v = true) : s.target a = 0 := by
  simp only [accepts, Bool.and_eq_true, beq_iff_eq] at h
  obtain ⟨⟨⟨-, htarget⟩, -⟩, -⟩ := h
  exact htarget

/-- The effect of an accepted write leaves the answer OK where it leaves it alone. -/
theorem State.regWrite_last {s : State} {m a : Nat} {v : Word} (hacc : s.accepts m a v = true)
    (hbus : ((s.respond m true a .ok 0).regEffect m a v).bus = (s.respond m true a .ok 0).bus) :
    (s.regWrite m a v).bus.last.status = .ok := by
  rw [regWrite, unlatch_last, gateWrite_accepts _ _ hacc]
  dsimp only
  rw [hbus]
  split
  · rw [journalReg_bus, hbus]
    rfl
  · rw [hbus]
    rfl

theorem State.regWrite_mem {s : State} {m a : Nat} {v : Word} (hacc : s.accepts m a v = true) :
    (s.regWrite m a v).mem = ((s.respond m true a .ok 0).regEffect m a v).mem := by
  rw [regWrite]
  exact s.gateWrite_mem (fun s => s.regEffect m a v) hacc

/-- The registers whose writes are plain take their writable bits and nothing else. -/
theorem plainRows : ∀ k ∈ plainRegs,
    (match regRow? k with | some (r, _) => r.w1c == 0 && (r.rw != 0 || r.rws != 0) | none => false) = true := by
  decide +kernel

theorem State.plainWrite_of_plain (s : State) {k : Nat} (v : Word)
    (h : (match regRow? k with | some (r, _) => r.w1c == 0 && (r.rw != 0 || r.rws != 0) | none => false) = true) :
    s.plainWrite k v = s.storeReg k v := by
  unfold plainWrite
  revert h
  cases regRow? k with
  | none => exact fun h => nomatch h
  | some e =>
    obtain ⟨r, i⟩ := e
    intro h
    simp only [Bool.and_eq_true, beq_iff_eq, Bool.or_eq_true, bne_iff_ne] at h
    obtain ⟨hw1c, hrw⟩ := h
    dsimp only
    rw [if_pos hw1c, if_neg fun hzero => hrw.elim (· hzero.1) (· hzero.2)]

/-- What a write of a plain register does: beyond its bits it drops at most held words of network time. -/
theorem State.regEffect_plain (s : State) (m : Nat) {k : Nat} (v : Word) (hk : k ∈ plainRegs) :
    s.regEffect m k v = s.storeReg k v ∨ s.regEffect m k v = (s.ntuDiscard []).storeReg k v := by
  have hrow := plainRows k hk
  have hplain : s.regEffect m k v = s.plainWrite k v → s.regEffect m k v = s.storeReg k v := fun h =>
    h.trans (s.plainWrite_of_plain v hrow)
  simp only [plainRegs, List.mem_cons, List.not_mem_nil, or_false] at hk
  rcases hk with rfl | rfl | rfl | rfl | rfl | rfl | rfl | rfl | rfl | rfl | rfl | rfl
  case inr.inr.inr.inr.inr.inr.inr.inr.inr.inr.inr => exact .inr rfl
  all_goals exact .inl (hplain rfl)

theorem plainRegs_notMem_takeoverRegs : ∀ k ∈ plainRegs, k ∉ takeoverRegs := by decide

theorem registerWrite_plain (m : Fin 8) (addr v : Word) (cycle : Nat) (r : RegRow) (s : State) (hplain : addr.toNat ∈ plainRegs)
    (hacc : (s.atCycle cycle).accepts m addr.toNat v = true) (hrow : (regRow? addr.toNat).map (·.1) = some r) :
    Completes (.registerWrite m addr v 15 cycle) s fun t =>
      t.reg addr.toNat = (s.reg addr.toNat &&& ~~~ BitVec.ofNat 32 (r.rw ||| r.rws)) ||| (v &&& BitVec.ofNat 32 (r.rw ||| r.rws)) ∧
      t.bus.last.status = .ok ∧ SameMem s t ∧ SameRegs s t [addr.toNat] := by
  obtain ⟨⟨r', i⟩, hat, rfl⟩ := Option.map_eq_some_iff.1 hrow
  have hkey : regRow? (addr.toNat % 0x100000000) = some (r', i) := by rw [Nat.mod_eq_of_lt addr.isLt, hat]
  have hword : addr.toNat % 4 = 0 := (by decide : ∀ k ∈ plainRegs, k % 4 = 0) _ hplain
  have hexec := (exec_registerWrite (en := 15) (cycle := cycle) (v := v)
    (masterReaches_of_target_zero m (State.target_of_accepts hacc))).trans (congrArg _ (State.busWrite_of_accepts hacc hword))
  have hstore (u : State) := u.reg_storeReg v hkey (plainRegs_notMem_takeoverRegs _ hplain)
  obtain ⟨u, heffect, hreg, hbus, hmem⟩ : ∃ u : State, ((s.atCycle cycle).respond m true addr.toNat .ok 0).regEffect m addr.toNat v =
      u.storeReg addr.toNat v ∧ (∀ k, u.reg k = s.reg k) ∧ u.bus = ((s.atCycle cycle).respond m true addr.toNat .ok 0).bus ∧
      u.mem = s.mem := by
    obtain heffect | heffect := State.regEffect_plain ((s.atCycle cycle).respond m true addr.toNat .ok 0) m v hplain
    · exact ⟨_, heffect, fun _ => rfl, rfl, rfl⟩
    · exact ⟨_, heffect, fun _ => rfl, rfl, rfl⟩
  refine ⟨_, hexec, ?_, State.regWrite_last hacc ?_, sameMem_of_mem ?_, fun k hk => ?_⟩
  · rw [State.reg_regWrite hacc, heffect, hstore, if_pos rfl, hreg]
    rfl
  · rw [heffect, State.storeReg_bus, hbus]
  · rw [State.regWrite_mem hacc, heffect, State.storeReg_mem, hmem]
  · rw [State.reg_regWrite hacc, heffect, hstore, if_neg (by simpa using hk), hreg]

/-! ### Accepted reads of registers (R380, R474) -/

/-- Other latches. -/
def State.withLatch (s : State) (l : List (Nat × Word)) : State := { s with bus := { s.bus with latch := l } }

theorem State.latched_withLatch (s : State) (l : List (Nat × Word)) (m a : Nat) :
    (s.withLatch l).latched? m a = (l.find? fun e => e.1 == latchKey m a).map (·.2) := rfl

/-- A master's latch of a word replaces an older one. -/
def latchPut (l : List (Nat × Word)) (k : Nat) (w : Word) : List (Nat × Word) := (k, w) :: l.filter fun e => e.1 != k

theorem find_latchPut_same (l : List (Nat × Word)) (k : Nat) (w : Word) :
    ((latchPut l k w).find? fun e => e.1 == k).map (·.2) = some w := by
  rw [latchPut, List.find?_cons_of_pos (by simp)]
  rfl

theorem find_latchPut_other (l : List (Nat × Word)) {k j : Nat} (w : Word) (h : j ≠ k) :
    ((latchPut l k w).find? fun e => e.1 == j) = l.find? fun e => e.1 == j := by
  rw [latchPut, List.find?_cons_of_neg (by simpa using h.symm), List.find?_filter]
  congr 1
  funext e
  by_cases he : e.1 = j
  · simp [he, h]
  · simp [he]

/-- The words of a wide register after its low word have been latched one by one. -/
theorem State.latchHigh_latches (s : State) (m a n : Nat) : ∃ l,
    (List.range n).foldl (fun (s : State) i =>
      s.withLatch (latchPut s.bus.latch (latchKey m (a + 4 * (i + 1))) (s.readWord (a + 4 * (i + 1))))) s = s.withLatch l ∧
    ∀ i, i < n → (s.withLatch l).latched? m (a + 4 * (i + 1)) = some (s.readWord (a + 4 * (i + 1))) := by
  induction n with
  | zero => exact ⟨s.bus.latch, rfl, fun i hi => absurd hi (Nat.not_lt_zero i)⟩
  | succ n ih =>
    obtain ⟨l, hfold, hlatched⟩ := ih
    refine ⟨latchPut l (latchKey m (a + 4 * (n + 1))) (s.readWord (a + 4 * (n + 1))), ?_, fun i hi => ?_⟩
    · rw [List.range_succ, List.foldl_append, hfold]
      rfl
    · by_cases hin : i = n
      · subst hin
        exact find_latchPut_same ..
      · have hkey : latchKey m (a + 4 * (i + 1)) ≠ latchKey m (a + 4 * (n + 1)) := by
          unfold latchKey
          omega
        rw [latched_withLatch, find_latchPut_other _ _ hkey]
        exact hlatched i (by omega)

theorem State.latchHigh_eq (s : State) (m a : Nat) : s.latchHigh m a = (List.range (wideAt a - 1)).foldl (fun (s : State) i =>
    s.withLatch (latchPut s.bus.latch (latchKey m (a + 4 * (i + 1))) (s.readWord (a + 4 * (i + 1))))) s := rfl

/-- An accepted read, but for the index that three data registers advance. -/
theorem State.busRead_answers {s : State} {m a : Nat} (hacc : s.acceptsRead m a = true) : s.busRead m a =
    (let t := (s.latchHigh m a).respond m false a .ok (s.readWord a)
      let t := if a = Reg.CRS_ACT_DATA then t.crsActRead.1 else t
      let t := if a = Reg.PRT_SUBA_DATA then t.prtSubRead.1 else t
      let t := if a = Reg.PRT_SUB_DATA then t.prtSubNext else t
      if a = Reg.PWR_VIN ∨ a = Reg.PWR_BUS then t.tick1 else t) := by
  simp only [acceptsRead, Bool.and_eq_true, beq_iff_eq, Bool.not_eq_true', Option.isNone_iff_eq_none] at hacc
  obtain ⟨⟨⟨⟨⟨⟨⟨hoff, hreset⟩, htarget⟩, hheld⟩, hword⟩, hprot⟩, hrow⟩, hlatch⟩ := hacc
  have hnone : (regRow? a).isNone = false := by
    rw [← Option.not_isSome, hrow]
    rfl
  rw [busRead, if_pos (.inl htarget), regRead, hoff, hreset, if_neg (by decide), if_neg (by omega), hheld, if_neg (by decide),
    if_neg (by omega), hprot, if_neg (by decide), hnone, if_neg (by decide), hlatch]


theorem State.target_of_acceptsRead {s : State} {m a : Nat} (h : s.acceptsRead m a = true) : s.target a = 0 := by
  simp only [acceptsRead, Bool.and_eq_true, beq_iff_eq] at h
  obtain ⟨⟨⟨⟨⟨⟨⟨-, -⟩, htarget⟩, -⟩, -⟩, -⟩, -⟩, -⟩ := h
  exact htarget

theorem exec_lowWordRead_accepted {m : Fin 8} {addr : Word} {cycle : Nat} {s : State}
    (hacc : (s.atCycle cycle).acceptsRead m addr.toNat = true) :
    exec (.lowWordRead m addr cycle) s = .next ((s.atCycle cycle).busRead m addr.toNat) :=
  exec_lowWordRead (masterReaches_of_target_zero m (State.target_of_acceptsRead hacc))

theorem lowWordRead_answers (m : Fin 8) (addr : Word) (cycle : Nat) (s : State)
    (hacc : (s.atCycle cycle).acceptsRead m addr.toNat = true) (hstay : addr.toNat ∉ advancingRegs) :
    Completes (.lowWordRead m addr cycle) s fun t =>
      t.bus.last = ⟨m, false, addr.toNat, .ok, (s.atCycle cycle).readWord addr.toNat⟩ ∧
      (∀ i, i + 1 < wideAt addr.toNat →
        t.latched? m (addr.toNat + 4 * (i + 1)) = some ((s.atCycle cycle).readWord (addr.toNat + 4 * (i + 1)))) ∧
      SameMem s t ∧ SameRegs s t [] := by
  simp only [advancingRegs, List.mem_cons, List.not_mem_nil, or_false, not_or] at hstay
  obtain ⟨hcrs, hsub, hsuba⟩ := hstay
  obtain ⟨l, hfold, hlatched⟩ := (s.atCycle cycle).latchHigh_latches m addr.toNat (wideAt addr.toNat - 1)
  have hread := State.busRead_answers hacc
  dsimp only at hread
  rw [State.latchHigh_eq, hfold, if_neg hsub, if_neg hsuba, if_neg hcrs] at hread
  have hlatch (i : Nat) (hi : i + 1 < wideAt addr.toNat) := hlatched i (by omega)
  refine ⟨_, (exec_lowWordRead_accepted hacc).trans (congrArg _ hread), ?_⟩
  dsimp only
  split
  · exact ⟨rfl, hlatch, fun _ => rfl, fun _ _ => rfl⟩
  · exact ⟨rfl, hlatch, fun _ => rfl, fun _ _ => rfl⟩

theorem lowWordRead_prtSubData (m : Fin 8) (cycle : Nat) (s : State)
    (hacc : (s.atCycle cycle).acceptsRead m Reg.PRT_SUB_DATA = true) :
    Completes (.lowWordRead m (BitVec.ofNat 32 Reg.PRT_SUB_DATA) cycle) s fun t => t.bus.last.status = .ok ∧
      t.bus.last.data = BitVec.ofNat 32 (Sparse.get 0 (s.fld Reg.PRT_SUB_IDX 0 14) s.prt.shd.pairs) ∧
      t.fld Reg.PRT_SUB_IDX 0 14 = (s.fld Reg.PRT_SUB_IDX 0 14 + 1) % 16384 ∧ SameMem s t ∧
      SameRegs s t [Reg.PRT_SUB_IDX] := by
  have haddr : (BitVec.ofNat 32 Reg.PRT_SUB_DATA).toNat = Reg.PRT_SUB_DATA := by decide
  have hwide : wideAt Reg.PRT_SUB_DATA - 1 = 0 := by decide +kernel
  have hread := State.busRead_answers hacc
  dsimp only at hread
  rw [State.latchHigh_eq, hwide, if_neg (by decide), if_pos rfl, if_neg (by decide), if_neg (by decide)] at hread
  have hexec := exec_lowWordRead_accepted (addr := BitVec.ofNat 32 Reg.PRT_SUB_DATA) (haddr.symm ▸ hacc)
  rw [haddr] at hexec
  refine ⟨_, hexec.trans (congrArg _ hread), rfl, rfl, ?_, fun _ => rfl, fun k hk => ?_⟩
  · exact State.fld_setRegN_index _ _ 14 (by decide) (by decide)
  · exact State.reg_setReg_other _ _ (by simpa using hk)

/-! ### INT_STAT and INT_FORCE (R445, R465) -/

theorem pageOf_cReg {page off : Nat} (hpage : page < 0x4000) (hoff : off < 0x1000) : pageOf (cReg page off) = page := by
  unfold pageOf cReg
  rw [if_pos (by omega)]
  omega

theorem cReg_mod (page : Nat) {off : Nat} (hoff : off < 0x1000) : cReg page off % 0x1000 = off := by
  unfold cReg
  omega

/-- INT_STAT of every page takes the same accesses. -/
theorem regRow_intStat {page : Nat} (hpage : page < 0x4000) {e : RegRow × Nat} (h : regRow? (cReg page OFF_INT_STAT) = some e) :
    e = (clkIntRow, 0) := by
  have hoff : cReg page OFF_INT_STAT % 0x1000 = 0x10 := cReg_mod page (by decide)
  unfold regRow? at h
  rw [pageOf_cReg hpage (by decide), hoff] at h
  cases hinfo : pageInfo? page with
  | none => rw [hinfo] at h; cases h
  | some p =>
    rw [hinfo] at h
    dsimp only at h
    rw [if_pos (by decide)] at h
    have hcommon : rowAt? (commonRows p (page - p.type)) 16 = some (clkIntRow, 0) := by
      simp [rowAt?, commonRows, clkIntRow]
    exact (Option.some.inj (hcommon.symm.trans h)).symm

theorem State.regEffect_common (s : State) (m a : Nat) (v : Word) (h : a % 0x1000 < 0x100) :
    ∃ u : State, s.regEffect m a v = u.commonWrite m a v ∧ (∀ k, u.reg k = s.reg k) ∧ u.mem = s.mem ∧ u.bus = s.bus := by
  unfold regEffect
  dsimp only
  rw [if_pos h]
  split
  · exact ⟨_, rfl, fun _ => rfl, rfl, rfl⟩
  · exact ⟨_, rfl, fun _ => rfl, rfl, rfl⟩

theorem intStat_row (page : Nat) : cReg page OFF_INT_STAT % 0x1000 = 0x10 := cReg_mod page (by decide)

theorem State.persistBits_intStat (s : State) (page : Nat) : s.persistBits (cReg page OFF_INT_STAT) = 0 := by
  have hoff := intStat_row page
  have hne {k : Nat} (hk : k % 0x1000 ≠ 0x10) : cReg page OFF_INT_STAT ≠ k := fun h => hk (h ▸ hoff)
  have hout {k : Nat} (hk : 0x100 ≤ k % 0x1000) (hn : k % 0x1000 + 24 < 0x1000) :
      ¬ (k ≤ cReg page OFF_INT_STAT ∧ cReg page OFF_INT_STAT < k + 24) := by omega
  unfold persistBits
  rw [if_neg (hout (by decide) (by decide)), if_neg (hout (by decide) (by decide)), if_neg (hne (by decide)), if_neg (hne (by decide))]

theorem State.clearBits_all (s : State) (k : Nat) (v : Word) {j : Nat}
    (hj : j ∉ [k, cReg (pageOf (k % 0x100000000)) OFF_PAGE_STAT]) : (s.clearBits k v 0xFFFFFFFF 0).reg j = s.reg j := by
  simp only [List.mem_cons, List.not_mem_nil, or_false, not_or] at hj
  obtain ⟨hkey, hstat⟩ := hj
  unfold clearBits
  dsimp only
  exact reg_ite (reg_setReg_other _ _ hkey) (((reg_setBit ..).trans (if_neg hstat)).trans (reg_setReg_other _ _ hkey))

theorem State.reg_clearBits_all (s : State) {k : Nat} (v : Word) (hstat : k ≠ cReg (pageOf (k % 0x100000000)) OFF_PAGE_STAT) :
    (s.clearBits k v 0xFFFFFFFF 0).reg k = s.reg k &&& ~~~(v &&& BitVec.ofNat 32 0xFFFFFFFF) := by
  have hset (x : Word) : (s.setReg k x).reg k = x := (reg_setReg ..).trans (if_pos rfl)
  have hnone (x : Word) : x &&& BitVec.ofNat 32 0 = 0#32 := BitVec.and_zero
  have hall (x : Word) : x &&& ~~~(0#32) = x := by rw [BitVec.not_zero, BitVec.and_allOnes]
  unfold clearBits
  dsimp only
  rw [hnone, hall]
  exact reg_ite (hset _) (((reg_setBit ..).trans (if_neg hstat)).trans (hset _))

theorem State.regEffect_intStat (s : State) (m : Nat) {page : Nat} (v : Word)
    (hrow : regRow? (cReg page OFF_INT_STAT) = some (clkIntRow, 0)) :
    ∃ u : State, s.regEffect m (cReg page OFF_INT_STAT) v = u.clearBits (cReg page OFF_INT_STAT) v 0xFFFFFFFF 0 ∧
      (∀ k, u.reg k = s.reg k) ∧ u.mem = s.mem := by
  have hoff := intStat_row page
  obtain ⟨u, heffect, hreg, hmem, -⟩ := s.regEffect_common m (cReg page OFF_INT_STAT) v (by omega)
  refine ⟨u, heffect.trans ?_, hreg, hmem⟩
  unfold commonWrite
  dsimp only
  rw [hoff, if_neg (by decide), if_neg (by decide), if_neg (by decide), plainWrite, hrow]
  dsimp only
  rw [persistBits_intStat]
  rfl

theorem w1cClear_clears (m : Fin 8) (page : BitVec 14) (v : Word) (r : RegRow) (s : State)
    (hacc : s.accepts m (cReg page.toNat OFF_INT_STAT) v = true)
    (hrow : (regRow? (cReg page.toNat OFF_INT_STAT)).map (·.1) = some r) :
    Completes (.w1cClear m (BitVec.ofNat 32 (cReg page.toNat OFF_INT_STAT)) v) s fun t =>
      t.reg (cReg page.toNat OFF_INT_STAT) = s.reg (cReg page.toNat OFF_INT_STAT) &&& ~~~ (v &&& BitVec.ofNat 32 r.w1c) ∧
      SameMem s t ∧ SameRegs s t [cReg page.toNat OFF_INT_STAT, cReg page.toNat OFF_PAGE_STAT] := by
  have hpage : page.toNat < 0x4000 := page.isLt
  obtain ⟨e, hat, rfl⟩ := Option.map_eq_some_iff.1 hrow
  obtain rfl := regRow_intStat hpage hat
  have hlt : cReg page.toNat OFF_INT_STAT < 0x100000000 := by unfold cReg OFF_INT_STAT; omega
  have haddr : (BitVec.ofNat 32 (cReg page.toNat OFF_INT_STAT)).toNat = cReg page.toNat OFF_INT_STAT := by
    rw [BitVec.toNat_ofNat, Nat.mod_eq_of_lt hlt]
  have hword : cReg page.toNat OFF_INT_STAT % 4 = 0 := by unfold cReg OFF_INT_STAT; omega
  have hstat : cReg (pageOf (cReg page.toNat OFF_INT_STAT % 0x100000000)) OFF_PAGE_STAT = cReg page.toNat OFF_PAGE_STAT := by
    rw [Nat.mod_eq_of_lt hlt, pageOf_cReg hpage (by decide)]
  have hexec : exec (.w1cClear m (BitVec.ofNat 32 (cReg page.toNat OFF_INT_STAT)) v) s =
      .next (s.regWrite m (cReg page.toNat OFF_INT_STAT) v) := by
    refine (accessOf_of_reaches _ _ ?_).trans (congrArg Host.Outcome.next ?_)
    · rw [haddr]
      exact masterReaches_of_target_zero m (State.target_of_accepts hacc)
    · rw [haddr]
      exact State.busWrite_of_accepts hacc hword
  obtain ⟨u, heffect, hreg, hmem⟩ :=
    State.regEffect_intStat (s.respond m true (cReg page.toNat OFF_INT_STAT) .ok 0) m v hat
  refine ⟨_, hexec, ?_, sameMem_of_mem ?_, fun k hk => ?_⟩
  · rw [State.reg_regWrite hacc, heffect, State.reg_clearBits_all _ _ (by rw [hstat]; unfold cReg OFF_INT_STAT OFF_PAGE_STAT; omega), hreg]
    rfl
  · rw [State.regWrite_mem hacc, heffect, State.clearBits_mem, hmem]
    rfl
  · rw [State.reg_regWrite hacc, heffect, State.clearBits_all _ _ _ (by rwa [hstat]), hreg]
    rfl

end Sys2Proof.Machine
end

section
/-! PROOFS. INT_FORCE, REMAP, bursts that are cut off, and the host's reach (R445, R463, R465, R479, R484). -/

namespace Sys2Proof.Machine

/-! ### INT_FORCE (R445, R465) -/

/-- The bits that a write of INT_FORCE sets, before the summary follows. -/
def State.forced (s : State) (page : Nat) (v : Word) : State :=
  s.setReg (cReg page OFF_INT_STAT) (s.reg (cReg page OFF_INT_STAT) ||| (v &&& BitVec.ofNat 32 (intMask page)))

theorem State.regEffect_intForce (s : State) (m : Nat) {page : Nat} (v : Word) (hpage : page < 0x4000) :
    ∃ u : State, s.regEffect m (cReg page OFF_INT_FORCE) v = u.withSummary page (·.forced page v) ∧
      (∀ k, u.reg k = s.reg k) ∧ u.mem = s.mem := by
  have hoff : cReg page OFF_INT_FORCE % 0x1000 = 0x18 := cReg_mod page (by decide)
  obtain ⟨u, heffect, hreg, hmem, -⟩ := s.regEffect_common m (cReg page OFF_INT_FORCE) v (by omega)
  refine ⟨u, heffect.trans ?_, hreg, hmem⟩
  unfold commonWrite
  dsimp only
  rw [hoff, if_neg (by decide), if_pos (by decide), intWrite, pageOf_cReg hpage (by decide), hoff]
  rfl

/-- A rise of FLT's own summary changes no bit of its INT_STAT but bit 4. -/
theorem State.bit_afterRise_flt (a s : State) {i : Nat} (hi : i ≠ 4) :
    (State.afterRise a s 6).bit (cReg 6 OFF_INT_STAT) i = s.bit (cReg 6 OFF_INT_STAT) i := by
  have hpend : (s.setPend 6).bit (cReg 6 OFF_INT_STAT) i = s.bit (cReg 6 OFF_INT_STAT) i := by
    rw [setPend, bit_setBit _ _ _ _ (by decide), if_neg fun h => hi h.2, bit_of_reg ((reg_setBit ..).trans (if_neg (by decide)))]
  unfold afterRise
  dsimp only
  generalize hrisen : (if (!a.summary 6 && s.summary 6) = true then s.setPend 6 else s) = u
  have hu : u.bit (cReg 6 OFF_INT_STAT) i = s.bit (cReg 6 OFF_INT_STAT) i := by
    subst hrisen
    split
    · exact hpend
    · rfl
  split
  · exact hu
  · exact hu

/-- The bits of INT_STAT after a change of it whose summary follows: its own, and in FLT's page bit 4. -/
theorem State.bit_withSummary (s : State) {page i : Nat} (f : State → State) (hp : page < 0x4000) :
    let b := (s.withSummary page f).bit (cReg page OFF_INT_STAT) i
    b = ((f s).bit (cReg page OFF_INT_STAT) i || (page == 6 && i == 4 && (s.withSummary page f).bit (cReg 6 OFF_INT_STAT) 4)) := by
  dsimp only
  by_cases hpage : page = 6
  · subst hpage
    have hsummary : s.withSummary 6 f = State.afterRise s (f s) 6 := rfl
    rw [hsummary]
    by_cases hi : i = 4
    · subst hi
      cases hbit : (f s).bit (cReg 6 OFF_INT_STAT) 4 with
      | false => rfl
      | true => exact bit_afterRise _ _ _ hbit
    · rw [bit_afterRise_flt _ _ hi, beq_eq_false_iff_ne.2 hi]
      simp
  · have hflt : cReg page OFF_INT_STAT ≠ cReg 6 OFF_INT_STAT := by unfold cReg; omega
    have hword (n : Nat) (hn : n < 0x4000) : cReg page OFF_INT_STAT ≠ pageWord Reg.FLT_PEND n := by
      unfold cReg pageWord Reg.FLT_PEND OFF_INT_STAT; omega
    have hreg : (s.withSummary page f).reg (cReg page OFF_INT_STAT) = (f s).reg (cReg page OFF_INT_STAT) := by
      unfold withSummary
      dsimp only
      rw [if_neg hpage, reg_afterRise _ _ (hword 6 (by decide)) hflt, reg_afterRise _ _ (hword page hp) hflt]
    rw [bit_of_reg hreg, beq_eq_false_iff_ne.2 hpage, Bool.false_and, Bool.false_and, Bool.or_false]

theorem State.bit_forced (s : State) {page i : Nat} (v : Word) (hi : i < 32) :
    (s.forced page v).bit (cReg page OFF_INT_STAT) i =
      (s.bit (cReg page OFF_INT_STAT) i || (bitOf v i && bitAt (intMask page) i)) := by
  have hmask : (BitVec.ofNat 32 (intMask page))[i] = (intMask page).testBit i :=
    (BitVec.getLsbD_eq_getElem hi).symm.trans (bitOf_ofNat hi)
  rw [bit, forced, reg_setReg, if_pos rfl]
  change BitVec.getLsbD _ i = ((s.reg _).getLsbD i || (v.getLsbD i && (intMask page).testBit i))
  simp [hi, hmask]

theorem State.withSummary_mem (s : State) (page : Nat) (f : State → State) : (s.withSummary page f).mem = (f s).mem := by
  unfold withSummary
  dsimp only
  split
  · exact afterRise_mem ..
  · exact (afterRise_mem ..).trans (afterRise_mem ..)

theorem intForce_sets (m : Fin 8) (page : BitVec 14) (v : Word) (s : State)
    (hacc : s.accepts m (cReg page.toNat OFF_INT_FORCE) v = true) :
    Completes (.intForce m page v) s fun t =>
      (∀ i, i < 32 → t.bit (cReg page.toNat OFF_INT_STAT) i = (s.bit (cReg page.toNat OFF_INT_STAT) i ||
        (bitOf v i && bitAt (intMask page.toNat) i) || (page.toNat == 6 && i == 4 && t.bit (cReg 6 OFF_INT_STAT) 4))) ∧
      SameMem s t ∧ SameRegs s t (raiseKeys page.toNat) := by
  obtain ⟨u, heffect, hreg, hmem⟩ :=
    State.regEffect_intForce (s.respond m true (cReg page.toNat OFF_INT_FORCE) .ok 0) m v page.isLt
  have hbit (k i : Nat) : (s.regWrite m (cReg page.toNat OFF_INT_FORCE) v).bit k i =
      (u.withSummary page.toNat (·.forced page.toNat v)).bit k i := by
    rw [State.bit_of_reg (State.reg_regWrite hacc k), heffect]
  refine ⟨_, rfl, fun i hi => ?_, sameMem_of_mem ?_, fun k hk => ?_⟩
  · rw [hbit, hbit, State.bit_withSummary _ _ page.isLt, State.bit_forced _ _ hi, State.bit_of_reg (hreg _)]
    rfl
  · rw [State.regWrite_mem hacc, heffect, State.withSummary_mem]
    exact hmem
  · have hstat : k ≠ cReg page.toNat OFF_INT_STAT := fun h => hk (h ▸ List.mem_cons_self)
    rw [State.reg_regWrite hacc, heffect,
      State.reg_withSummary (f := (·.forced page.toNat v)) u hk (State.reg_setReg_other _ _ hstat), hreg]
    rfl

/-! ### REMAP (R479) -/

theorem State.regEffect_remap {s : State} {m : Nat} {v : Word} (h : (s.bit Reg.GLB_REMAP 0 && !bitOf v 0) = false) :
    s.regEffect m Reg.GLB_REMAP v = s.storeReg Reg.GLB_REMAP v :=
  have hnot : ¬ (s.bit Reg.GLB_REMAP 0 && !bitOf v 0) = true := by rw [h]; decide
  if_neg hnot

theorem remap_sets (m : Fin 8) (remap : Bool) (s : State)
    (hacc : s.accepts m Reg.GLB_REMAP (BitVec.ofNat 32 (b2n remap)) = true) (hfree : s.bit Reg.GLB_REMAP 0 = false ∨ remap = true) :
    Completes (.remap m remap) s fun t => t.bit Reg.GLB_REMAP 0 = remap ∧ SameMem s t ∧ SameRegs s t [Reg.GLB_REMAP] := by
  have hbit : bitOf (BitVec.ofNat 32 (b2n remap)) 0 = remap := by cases remap <;> rfl
  have hopen : (s.bit Reg.GLB_REMAP 0 && !bitOf (BitVec.ofNat 32 (b2n remap)) 0) = false := by
    rw [hbit]
    obtain hbit | rfl := hfree
    · rw [hbit, Bool.false_and]
    · exact Bool.and_false _
  have heffect := State.regEffect_remap (s := s.respond m true Reg.GLB_REMAP .ok 0) (m := m) hopen
  refine ⟨_, rfl, ?_, sameMem_of_mem ?_, fun k hk => ?_⟩
  · rw [State.bit_of_reg (State.reg_regWrite hacc _), heffect, State.bit_storeReg_same _ _ (by decide) (by decide +kernel), hbit]
  · rw [State.regWrite_mem hacc, heffect, State.storeReg_mem]
    rfl
  · rw [State.reg_regWrite hacc, heffect, State.reg_storeReg_apart _ _ (by decide) (by simpa using hk)]
    rfl

/-! ### A burst that is cut off (R484) -/

theorem burstTruncate_logs (m : Fin 8) (addr : Word) (data : List Byte) (s : State)
    (hshape : s.target addr.toNat ≠ 0 ∧ s.target addr.toNat ≠ 7 ∨ data.length % 4 = 0 ∧ addr.toNat % 4 = 0)
    (hreach : masterReaches m addr.toNat data.length = true) :
    let b := addr.toNat + data.length
    let p := s.logPage b
    Completes (.burstTruncate m false addr data) s fun t =>
      t.bus.last = ⟨m, false, b, .none, 0⟩ ∧ t.reg (cReg p OFF_ERR_ADDR) = BitVec.ofNat 32 b ∧
      t.bit (cReg p OFF_ERR_INFO) 31 = true ∧ t.fld (cReg p OFF_ERR_INFO) 0 8 = kTrunc ∧
      t.bus.held = s.bus.held.filter (fun h => h.master != m.val) ∧ SameMem s t ∧
      SameRegs s t [cReg p OFF_ERR_ADDR, cReg p OFF_ERR_INFO] := by
  intro b p
  have hok : ¬ (((s.target addr.toNat == 0 || s.target addr.toNat == 7) && (data.length % 4 != 0 || addr.toNat % 4 != 0)) ||
      !masterReaches m addr.toNat data.length) = true := by
    rw [hreach]
    obtain ⟨hzero, hseven⟩ | ⟨hlen, haddr⟩ := hshape
    · simp [hzero, hseven]
    · simp [hlen, haddr]
  obtain ⟨⟨hkind, -⟩, hvalid⟩ := s.errInfo_logViolation p m false b (kind := kTrunc) (by decide)
  have hreg (u : State) (k : Nat) : ((u.resetMaster m).respond m false b .none 0).reg k = u.reg k := rfl
  have hmem (u : State) : ((u.resetMaster m).respond m false b .none 0).mem = u.mem := rfl
  have hheld (u : State) : ((u.resetMaster m).respond m false b .none 0).bus.held = u.bus.held.filter (fun h => h.master != m.val) := rfl
  refine ⟨((s.logViolation p m false b kTrunc).resetMaster m).respond m false b .none 0, if_neg hok, rfl, ?_, ?_, ?_, ?_,
    sameMem_of_mem ?_, fun k hk => ?_⟩
  · rw [hreg]
    exact s.errAddr_logViolation ..
  · rw [State.bit_of_reg (hreg _ _)]
    exact hvalid
  · rw [State.fld_of_reg (hreg _ _)]
    exact hkind
  · rw [hheld, State.logViolation_bus]
  · rw [hmem, State.logViolation_mem]
  · rw [hreg]
    exact s.reg_logViolation p m false b kTrunc k hk

/-! ### What the host reaches (R463, R468) -/

theorem barAddr_eq_some {two : Bool} {x a : Nat} : barAddr two x = some a ↔ x < barSize two ∧ barBase two + x = a := by
  unfold barAddr
  split
  · next h => exact ⟨fun e => ⟨h, Option.some.inj e⟩, fun ⟨_, e⟩ => congrArg some e⟩
  · next h => exact ⟨(nomatch ·), fun ⟨hx, _⟩ => absurd hx h⟩

theorem barHolds_iff {two : Bool} {a n : Nat} (hn : 0 < n) : barHolds two a n = true ↔
    ∃ x, barAddr two x = some a ∧ barAddr two (x + (n - 1)) = some (a + (n - 1)) := by
  simp only [barHolds, Bool.and_eq_true, decide_eq_true_iff, barAddr_eq_some]
  constructor
  · rintro ⟨hlo, hhi⟩
    exact ⟨a - barBase two, ⟨by omega, by omega⟩, by omega, by omega⟩
  · rintro ⟨x, ⟨hx, rfl⟩, hend, -⟩
    exact ⟨by omega, by omega⟩

theorem masterReaches_host (a n : Nat) (hn : 0 < n) : masterReaches 0 a n = true ↔
    ∃ two x, barAddr two x = some a ∧ barAddr two (x + (n - 1)) = some (a + (n - 1)) := by
  have hhost : masterReaches 0 a n = (barHolds false a n || barHolds true a n) := rfl
  rw [hhost, Bool.or_eq_true, barHolds_iff hn, barHolds_iff hn]
  constructor
  · rintro (⟨x, h⟩ | ⟨x, h⟩)
    · exact ⟨false, x, h⟩
    · exact ⟨true, x, h⟩
  · rintro ⟨two, x, h⟩
    cases two
    · exact .inl ⟨x, h⟩
    · exact .inr ⟨x, h⟩

theorem hostAccess_faults (addr v : Word) (en : Fin 16) (cycle : Nat) (s : State) (h : masterReaches 0 addr.toNat 1 = false) :
    exec (.registerWrite 0 addr v en cycle) s = .fault (.illFormed "REGISTER_WRITE") ∧
    exec (.lowWordRead 0 addr cycle) s = .fault (.illFormed "LOW_WORD_READ") := by
  have hnot : ¬ masterReaches (0 : Fin 8) addr.toNat 1 = true := by
    change ¬ masterReaches 0 addr.toNat 1 = true
    rw [h]
    decide
  exact ⟨if_neg hnot, if_neg hnot⟩

/-- Settles O40, clause by clause. -/
theorem busAccessCommandsComplete : Obligations.BusAccessCommandsComplete := by
  unfold Obligations.BusAccessCommandsComplete
  refine ⟨registerWrite_plain, lowWordRead_answers, lowWordRead_prtSubData, fun m write addr s hreach htarget hup => ?_,
    w1cClear_clears, intForce_sets, remap_sets, burstTruncate_logs, masterReaches_host, hostAccess_faults⟩
  obtain ⟨t, hexec, hlogged⟩ := decodeError_logs m write addr s hreach htarget hup
  exact ⟨t, hexec, hlogged.addr, hlogged.count, hlogged.raised, hlogged.last, hlogged.mem⟩

end Sys2Proof.Machine
end

section
/-! PROOFS. The thermal manager: sensors, the sensor floor, levels and the shutdown (R499 to R509). -/

namespace Sys2Proof.Machine

/-! ### What the shutdown leaves of the thermal manager (R508) -/

/-- The registers of the THM page that an evaluation is about: its interrupts, the levels, the states and the samples. -/
def hotKeys : List Nat :=
  [cReg pTHM OFF_INT_STAT, Reg.THM_LEVEL, Reg.THM_STAT] ++ (List.range 16).map (Reg.THM_SENS + 4 * ·)

theorem steadyKey_hotKeys : ∀ k ∈ hotKeys, steadyKey k = true ∧ k ∉ [Reg.RED_ROLE, Reg.RED_STAT] := by decide

/-- Of a state `s`, `t` has those registers, what is kept of the sensors, and the sensors due. -/
structure ThmKept (s t : State) : Prop where
  regs : ∀ k ∈ hotKeys, t.reg k = s.reg k
  thm : t.thm = s.thm
  due : ∀ i, i < 0x10000 → t.isDue pTHM i = s.isDue pTHM i

theorem ThmKept.refl (s : State) : ThmKept s s := ⟨fun _ _ => rfl, rfl, fun _ _ => rfl⟩

theorem ThmKept.trans {s t u : State} (h : ThmKept s t) (h' : ThmKept t u) : ThmKept s u :=
  ⟨fun k hk => (h'.regs k hk).trans (h.regs k hk), h'.thm.trans h.thm, fun i hi => (h'.due i hi).trans (h.due i hi)⟩

theorem ThmKept.ite {c : Prop} [Decidable c] {s t u : State} (ht : ThmKept s t) (hu : ThmKept s u) :
    ThmKept s (if c then t else u) := by
  split
  · exact ht
  · exact hu

theorem ThmKept.of_steady {s t : State} (h : t.steady = s.steady) : ThmKept s t := by
  refine ⟨fun k hk => ?_, congrArg Steady.thm h, fun i hi => ?_⟩
  · obtain ⟨hsteady, -⟩ := steadyKey_hotKeys k hk
    exact State.reg_of_steady h hsteady
  · have hdue := congrFun (congrArg Steady.hotDue h) i
    simpa only [State.steady, decide_eq_true hi, Bool.true_and] using hdue

theorem State.thmKept_setReg (s : State) {k : Nat} (v : Word) (hk : k ∉ hotKeys) : ThmKept s (s.setReg k v) :=
  ⟨fun _ hj => reg_setReg_other _ _ fun h => hk (h ▸ hj), rfl, fun _ _ => rfl⟩

theorem State.thmKept_setRole (s : State) (r : Nat) : ThmKept s (s.setRole r) := by
  by_cases h : s.role = r
  · rw [setRole, if_pos h]
    exact .refl s
  · have hsettled : ThmKept s (s.roleSettled r) := by
      refine ⟨fun k hk => ?_, rfl, fun _ _ => rfl⟩
      obtain ⟨-, hrole⟩ := steadyKey_hotKeys k hk
      exact (reg_roleSettled ..).trans (s.reg_roleShown r hrole)
    exact hsettled.trans (.of_steady (steady_setRole h))

theorem State.thmKept_dropInterlock (s : State) : ThmKept s s.dropInterlock := by
  have hdropped : ThmKept s s.ilkDropped := by
    refine ⟨fun k hk => s.reg_ilkDropped fun h => ?_, rfl, fun _ _ => rfl⟩
    obtain ⟨-, hrole⟩ := steadyKey_hotKeys k hk
    exact hrole (h ▸ .tail _ (.head _))
  rw [dropInterlock_eq]
  exact .ite (hdropped.trans (thmKept_setRole ..)) hdropped

theorem State.thmKept_quiesce (s : State) : ThmKept s s.quiesce :=
  .ite (.refl s) ((s.thmKept_setReg (k := Reg.NVM_STAT) _ (by decide)).trans (.of_steady (steady_raise _ _ (by decide))))

/-- Other state of the power manager. -/
def State.withPwr (s : State) (p : PwrSt) : State := { s with pwr := p }

theorem State.thmKept_withPwr (s : State) (p : PwrSt) : ThmKept s (s.withPwr p) := ⟨fun _ _ => rfl, rfl, fun _ _ => rfl⟩

theorem State.powerSequence_eq (s : State) (cause : Nat) : s.powerSequence cause =
    ((s.withPwr { s.pwr with seqCause := some cause }).dropInterlock.quiesce).askFlush cause := rfl

theorem State.thmKept_powerSequence (s : State) (cause : Nat) : ThmKept s (s.powerSequence cause) := by
  rw [powerSequence_eq]
  exact (((s.thmKept_withPwr _).trans (thmKept_dropInterlock _)).trans (thmKept_quiesce _)).trans (.of_steady (steady_askFlush ..))

/-- The latched trip of the analogue or digital shutdown, which is counted. -/
def State.tripped (s : State) : State := s.withPwr { s.pwr with trip := true, counters := s.pwr.counters ++ [0] }

theorem State.thermalShut_eq (s : State) : s.thermalShut = if s.off || s.pwr.trip then s
    else if s.tripped.pwr.seqCause.isSome then s.tripped else s.tripped.powerSequence 2 := rfl

theorem State.thmKept_thermalShut (s : State) : ThmKept s s.thermalShut := by
  have htripped := s.thmKept_withPwr { s.pwr with trip := true, counters := s.pwr.counters ++ [0] }
  rw [thermalShut_eq]
  exact .ite (.refl s) (.ite htripped (htripped.trans (thmKept_powerSequence ..)))

/-! ### What a step of an evaluation leaves -/

/-- Of a state `s`, `t` shows the samples of the sensors that `q` names; the event of the sensor floor stays, and has come if the floor changed;
and, when `p`, the three threshold states are as they were. -/
structure HotKept (p : Prop) (q : Nat → Prop) (s t : State) : Prop where
  event : s.bit (cReg pTHM OFF_INT_STAT) 5 = true → t.bit (cReg pTHM OFF_INT_STAT) 5 = true
  floor : t.fld Reg.THM_LEVEL 12 2 = s.fld Reg.THM_LEVEL 12 2 ∨ t.bit (cReg pTHM OFF_INT_STAT) 5 = true
  samples : ∀ i, i < 16 → q i → t.fld (Reg.THM_SENS + 4 * i) 16 16 = s.fld (Reg.THM_SENS + 4 * i) 16 16
  states : p → ∀ i, i < 3 → t.bit Reg.THM_STAT i = s.bit Reg.THM_STAT i

section

variable {p : Prop} {q : Nat → Prop}

theorem HotKept.refl (s : State) : HotKept p q s s := ⟨id, .inl rfl, fun _ _ _ => rfl, fun _ _ _ => rfl⟩

theorem HotKept.trans {s t u : State} (h : HotKept p q s t) (h' : HotKept p q t u) : HotKept p q s u where
  event := h'.event ∘ h.event
  floor := by
    obtain hsame | hevent := h'.floor
    · exact h.floor.imp hsame.trans h'.event
    · exact .inr hevent
  samples i hi hq := (h'.samples i hi hq).trans (h.samples i hi hq)
  states hp i hi := (h'.states hp i hi).trans (h.states hp i hi)

theorem HotKept.mono {q' : Nat → Prop} {s t : State} (h : HotKept p q s t) (hq : ∀ i, q' i → q i) : HotKept p q' s t :=
  ⟨h.event, h.floor, fun i hi hqi => h.samples i hi (hq i hqi), h.states⟩

theorem HotKept.ite {c : Prop} [Decidable c] {s t u : State} (ht : HotKept p q s t) (hu : HotKept p q s u) :
    HotKept p q s (if c then t else u) := by
  split
  · exact ht
  · exact hu

theorem HotKept.foldl {α : Type} (f : State → α → State) (l : List α) (s : State) (h : ∀ s, ∀ a ∈ l, HotKept p q s (f s a)) :
    HotKept p q s (l.foldl f s) :=
  List.foldlRecOn (motive := fun t => HotKept p q s t) l f (.refl s) fun t ht a ha => ht.trans (h t a ha)

theorem HotKept.of_regs {s t : State} (h : ∀ k ∈ hotKeys, t.reg k = s.reg k) : HotKept p q s t := by
  have hsens (i : Nat) (hi : i < 16) : Reg.THM_SENS + 4 * i ∈ hotKeys :=
    List.mem_append_right _ (List.mem_map_of_mem (List.mem_range.2 hi))
  have hint : t.reg (cReg pTHM OFF_INT_STAT) = s.reg (cReg pTHM OFF_INT_STAT) := h _ (by decide)
  exact ⟨fun hb => (State.bit_of_reg hint 5).trans hb, .inl (State.fld_of_reg (h _ (by decide)) ..),
    fun i hi _ => State.fld_of_reg (h _ (hsens i hi)) .., fun _ i _ => State.bit_of_reg (h _ (by decide)) i⟩

theorem HotKept.of_thmKept {s t : State} (h : ThmKept s t) : HotKept p q s t := .of_regs h.regs

theorem State.hotKept_setReg (s : State) {k : Nat} (v : Word) (hk : k ∉ hotKeys) : HotKept p q s (s.setReg k v) :=
  .of_thmKept (s.thmKept_setReg v hk)

theorem State.hotKept_raise (s : State) {i : Nat} (hi : i < 32) : HotKept p q s (s.raise pTHM i) := by
  have hreg (k : Nat) (hk : k ∉ raiseKeys pTHM) : (s.raise pTHM i).reg k = s.reg k := reg_raise s hk
  have hsens : ∀ i, i < 16 → Reg.THM_SENS + 4 * i ∉ raiseKeys pTHM := by decide
  exact ⟨bit_raise_keeps s pTHM hi, .inl (fld_of_reg (hreg _ (by decide)) ..), fun i hi _ => fld_of_reg (hreg _ (hsens i hi)) ..,
    fun _ i _ => bit_of_reg (hreg _ (by decide)) i⟩

theorem State.hotKept_raiseIf (s : State) (c : Bool) {i : Nat} (hi : i < 32) : HotKept p q s (s.raiseIf c pTHM i) :=
  .ite (s.hotKept_raise hi) (.refl s)

/-- THM_LEVEL changes outside the sensor floor. -/
theorem State.hotKept_setLevel (s : State) {lo len v : Nat} (h : lo + len ≤ 32) (hd : 14 ≤ lo ∨ lo + len ≤ 12) :
    HotKept p q s (s.setFld Reg.THM_LEVEL lo len v) := by
  have hreg (k : Nat) (hk : k ≠ Reg.THM_LEVEL) : (s.setFld Reg.THM_LEVEL lo len v).reg k = s.reg k := (reg_setFld ..).trans (if_neg hk)
  have hsens : ∀ i, i < 16 → Reg.THM_SENS + 4 * i ≠ Reg.THM_LEVEL := by decide
  exact ⟨fun hb => (bit_of_reg (hreg _ (by decide)) 5).trans hb, .inl (fld_setFld_other _ h (.inr hd)),
    fun i hi _ => fld_of_reg (hreg _ (hsens i hi)) .., fun _ i _ => bit_of_reg (hreg _ (by decide)) i⟩

/-- THM_STAT changes outside the threshold states. -/
theorem State.hotKept_setStat (s : State) {lo len v : Nat} (h : lo + len ≤ 32) (hd : p → 3 ≤ lo) :
    HotKept p q s (s.setFld Reg.THM_STAT lo len v) := by
  have hreg (k : Nat) (hk : k ≠ Reg.THM_STAT) : (s.setFld Reg.THM_STAT lo len v).reg k = s.reg k := (reg_setFld ..).trans (if_neg hk)
  have hsens : ∀ i, i < 16 → Reg.THM_SENS + 4 * i ≠ Reg.THM_STAT := by decide
  refine ⟨fun hb => (bit_of_reg (hreg _ (by decide)) 5).trans hb, .inl (fld_of_reg (hreg _ (by decide)) ..),
    fun i hi _ => fld_of_reg (hreg _ (hsens i hi)) .., fun hp i hi => ?_⟩
  have hlo := hd hp
  exact bit_setFld_other _ h (.inr (.inl (by omega)))

/-- A sensor's average changes. -/
theorem State.hotKept_setAverage (s : State) (i v : Nat) (hi : i < 16) :
    HotKept p q s (s.setFld (Reg.THM_SENS + 4 * i) 0 16 v) := by
  have hreg (k : Nat) (hk : k ∉ (List.range 16).map (Reg.THM_SENS + 4 * ·)) :
      (s.setFld (Reg.THM_SENS + 4 * i) 0 16 v).reg k = s.reg k :=
    (reg_setFld ..).trans (if_neg fun h => hk (h ▸ List.mem_map_of_mem (List.mem_range.2 hi)))
  exact ⟨fun hb => (bit_of_reg (hreg _ (by decide)) 5).trans hb, .inl (fld_of_reg (hreg _ (by decide)) ..),
    fun j _ _ => fld_setFld_other _ (by decide) (.inr (.inr (by decide))), fun _ i _ => bit_of_reg (hreg _ (by decide)) i⟩

end

end Sys2Proof.Machine
end

section
/-! PROOFS. Evaluations of the die sensors, and the level in force (R499 to R507). -/

namespace Sys2Proof.Machine

section

variable {p : Prop} {q : Nat → Prop}

/-! ### The sensor floor and the level in force (R503, R504, R507) -/

theorem State.steady_rsvLevel (s : State) (level : Nat) : (s.rsvLevel level).steady = s.steady :=
  (steady_raiseIf _ _ _ (by decide)).trans (s.steady_setBit _ _ (by decide))

theorem State.steady_putPass (s : State) (x : CalPass) : (s.putPass x).steady = s.steady := by
  have hcal (u : State) (c : CalSt) : { u with cal := c }.steady = u.steady := rfl
  unfold putPass
  rw [hcal, steady_setFld _ _ _ _ (by decide), steady_setFld _ _ _ _ (by decide)]

theorem State.steady_calLevel (s : State) : s.calLevel.steady = s.steady := by
  unfold calLevel
  split
  · rfl
  · refine steady_ite ((steady_raise _ _ (by decide)).trans (s.steady_setBit _ _ (by decide))) (steady_ite ?_ rfl)
    exact (steady_putPass ..).trans (s.steady_setBit _ _ (by decide))

/-- The number of valid sensors and the floor are shown. -/
def State.floorSettled (s : State) : State :=
  ((s.setFld Reg.THM_STAT 16 5 s.validSensors.length).setFld Reg.THM_LEVEL 12 2 (floorOf s.validSensors.length)).raiseIf
    (floorOf s.validSensors.length != (s.setFld Reg.THM_STAT 16 5 s.validSensors.length).fld Reg.THM_LEVEL 12 2) pTHM 5

/-- The level that is to be in force. -/
def State.dueLevel (s : State) (valid : Nat) : Nat := max s.hwLevel (max (s.fld Reg.THM_CTRL 0 2) (floorOf valid))

/-- The level in force changes. -/
def State.levelSettled (s : State) (l : Nat) : State := (((s.setFld Reg.THM_LEVEL 0 2 l).raise pTHM 2).rsvLevel l).calLevel

theorem State.settleLevel_eq (s : State) : s.settleLevel =
    if s.floorSettled.dueLevel s.validSensors.length = s.floorSettled.level then s.floorSettled
    else s.floorSettled.levelSettled (s.floorSettled.dueLevel s.validSensors.length) := rfl

theorem floorOf_lt (n : Nat) : floorOf n < 4 := by
  unfold floorOf
  split
  · decide
  · split <;> decide

theorem State.floor_floorSettled (s : State) : s.floorSettled.fld Reg.THM_LEVEL 12 2 = floorOf s.validSensors.length := by
  rw [floorSettled, fld_of_reg (reg_raiseIf _ (by decide)), fld_setFld_same _ (by decide)]
  exact Nat.mod_eq_of_lt (floorOf_lt _)

theorem State.hotKept_floorSettled (s : State) : HotKept p q s s.floorSettled := by
  have hstat : HotKept p q s (s.setFld Reg.THM_STAT 16 5 s.validSensors.length) := s.hotKept_setStat (by decide) fun _ => by decide
  refine hstat.trans ?_
  unfold floorSettled
  generalize s.setFld Reg.THM_STAT 16 5 s.validSensors.length = u
  have hreg (k : Nat) (hk : k ≠ Reg.THM_LEVEL) : (u.setFld Reg.THM_LEVEL 12 2 (floorOf s.validSensors.length)).reg k = u.reg k :=
    (reg_setFld ..).trans (if_neg hk)
  have hraise (c : Bool) (k : Nat) (hk : k ∉ Reg.THM_LEVEL :: raiseKeys pTHM) :
      ((u.setFld Reg.THM_LEVEL 12 2 (floorOf s.validSensors.length)).raiseIf c pTHM 5).reg k = u.reg k := by
    rw [List.mem_cons, not_or] at hk
    obtain ⟨hlevel, hraise⟩ := hk
    exact (reg_raiseIf _ hraise).trans (hreg k hlevel)
  have hsens : ∀ i, i < 16 → Reg.THM_SENS + 4 * i ∉ Reg.THM_LEVEL :: raiseKeys pTHM := by decide
  refine ⟨fun hb => bit_raiseIf_keeps _ _ _ (by decide) ((bit_of_reg (hreg _ (by decide)) 5).trans hb), ?_,
    fun i hi _ => fld_of_reg (hraise _ _ (hsens i hi)) .., fun _ i _ => bit_of_reg (hraise _ _ (by decide)) i⟩
  by_cases hsame : floorOf s.validSensors.length = u.fld Reg.THM_LEVEL 12 2
  · left
    rw [fld_of_reg (reg_raiseIf _ (by decide)), fld_setFld_same _ (by decide), ← hsame]
    exact Nat.mod_eq_of_lt (floorOf_lt _)
  · right
    rw [bne_iff_ne.2 hsame]
    exact bit_raise _ pTHM (by decide)

theorem State.hotKept_levelSettled (s : State) (l : Nat) : HotKept p q s (s.levelSettled l) := by
  have hsteady (u : State) : ThmKept u (u.rsvLevel l).calLevel := .of_steady ((steady_calLevel _).trans (steady_rsvLevel ..))
  exact ((s.hotKept_setLevel (by decide) (.inr (by decide))).trans (hotKept_raise _ (by decide))).trans (.of_thmKept (hsteady _))

theorem State.hotKept_settleLevel (s : State) : HotKept p q s s.settleLevel := by
  rw [settleLevel_eq]
  exact .ite s.hotKept_floorSettled (s.hotKept_floorSettled.trans (hotKept_levelSettled ..))

theorem State.floor_levelSettled (s : State) (l : Nat) :
    (s.levelSettled l).fld Reg.THM_LEVEL 12 2 = s.fld Reg.THM_LEVEL 12 2 := by
  have hsteady (u : State) : ThmKept u (u.rsvLevel l).calLevel := .of_steady ((steady_calLevel _).trans (steady_rsvLevel ..))
  rw [levelSettled, fld_of_reg ((hsteady _).regs _ (by decide)), fld_of_reg (reg_raise _ (by decide)),
    fld_setFld_other _ (by decide) (.inr (.inr (by decide)))]

theorem State.floor_settleLevel (s : State) : s.settleLevel.fld Reg.THM_LEVEL 12 2 = floorOf s.validSensors.length := by
  rw [settleLevel_eq]
  split
  · exact s.floor_floorSettled
  · exact (floor_levelSettled ..).trans s.floor_floorSettled

/-! ### Valid sensors (R500, R507) -/

/-- The same sensors are valid. -/
structure ValidKept (s t : State) : Prop where
  valid : ∀ i, i < 16 → t.sensorValid i = s.sensorValid i

theorem ValidKept.refl (s : State) : ValidKept s s := ⟨fun _ _ => rfl⟩

theorem ValidKept.trans {s t u : State} (h : ValidKept s t) (h' : ValidKept t u) : ValidKept s u :=
  ⟨fun i hi => (h'.valid i hi).trans (h.valid i hi)⟩

theorem ValidKept.ite {c : Prop} [Decidable c] {s t u : State} (ht : ValidKept s t) (hu : ValidKept s u) :
    ValidKept s (if c then t else u) := by
  split
  · exact ht
  · exact hu

theorem ValidKept.of_thmKept {s t : State} (h : ThmKept s t) : ValidKept s t where
  valid i hi := by
    rw [State.sensorValid, State.sensorValid, State.sensor, State.sensor, h.thm, h.due i (by omega)]

theorem ValidKept.of_eq {s t : State} (hthm : t.thm.sensors = s.thm.sensors) (hflt : t.flt = s.flt) : ValidKept s t where
  valid i _ := by rw [State.sensorValid, State.sensorValid, State.sensor, State.sensor, State.isDue, State.isDue, hthm, hflt]

theorem ValidKept.validSensors {s t : State} (h : ValidKept s t) : t.validSensors = s.validSensors :=
  List.filter_congr fun i hi => h.valid i (List.mem_range.1 hi)

theorem State.validKept_setReg (s : State) (k : Nat) (v : Word) : ValidKept s (s.setReg k v) := .of_eq rfl rfl

theorem State.validKept_raise (s : State) (page i : Nat) : ValidKept s (s.raise page i) :=
  .of_eq (by rw [raise_thm]) (raise_flt ..)

theorem State.validKept_raiseIf (s : State) (c : Bool) (page i : Nat) : ValidKept s (s.raiseIf c page i) :=
  .ite (s.validKept_raise ..) (.refl s)

theorem State.validKept_settleLevel (s : State) : ValidKept s s.settleLevel := by
  have hfloor : ValidKept s s.floorSettled :=
    ((s.validKept_setReg ..).trans (validKept_setReg ..)).trans (validKept_raiseIf ..)
  have hlevel (u : State) (l : Nat) : ValidKept u (u.levelSettled l) := by
    have hsteady (w : State) : ThmKept w (w.rsvLevel l).calLevel := .of_steady ((steady_calLevel _).trans (steady_rsvLevel ..))
    exact ((u.validKept_setReg ..).trans (validKept_raise ..)).trans (.of_thmKept (hsteady _))
  rw [settleLevel_eq]
  exact .ite hfloor (hfloor.trans (hlevel ..))

/-! ### A sensor retires (R500, R505) -/

/-- A sensor's state changes. -/
theorem State.hotKept_setSensor (s : State) (i : Nat) (f : Sensor → Sensor) : HotKept p q s (s.setSensor i f) := .of_regs fun _ _ => rfl

theorem State.hotKept_retire (s : State) (c code syn : Nat) : HotKept p q s (s.retire pTHM c code syn) := by
  refine .of_regs fun k hk => reg_ite rfl ?_
  obtain ⟨hsteady, -⟩ := steadyKey_hotKeys k hk
  have hsummary : ∀ k ∈ hotKeys, k ∉ [pageWord Reg.FLT_PEND pTHM, cReg 6 OFF_INT_STAT, pageWord Reg.FLT_PEND 6] := by decide
  have hcnt : ∀ k ∈ hotKeys, k ≠ cReg pTHM OFF_FAULT_CNT := by decide
  have hkeys := hsummary k hk
  simp only [List.mem_cons, List.not_mem_nil, or_false, not_or] at hkeys
  obtain ⟨hpend, hflt, hpendFlt⟩ := hkeys
  dsimp only
  rw [reg_of_steady (steady_logEvent ..) hsteady, reg_bump, if_neg (hcnt k hk)]
  unfold withSummary
  dsimp only
  rw [if_neg (by decide), reg_afterRise _ _ hpendFlt hflt, reg_afterRise _ _ hpend hflt]
  rfl

/-- A sensor retires, before the level follows. -/
def State.sensorOut (s : State) (i : Nat) : State :=
  let t := (((s.retire pTHM i 0x14 i).setBit Reg.THM_SENS_FLT i true).raise pTHM 4).setSensor i fun x =>
    { x with retired := true, refill := false, win := [] }
  t.setFld (Reg.THM_SENS + 4 * i) 0 16 0

/-- A freeze begins or goes on. -/
def State.frozen (s : State) : State :=
  let t := { s with thm := { s.thm with cool := none, ack := false } }
  if t.bit Reg.THM_LEVEL 6 then t else (t.setBit Reg.THM_LEVEL 6 true).raise pTHM 3

theorem State.sensorRetire_of_due {s : State} {i : Nat} (h : s.isDue pTHM i = true) : s.sensorRetire i =
    (if (s.sensor i).wasHot && s.hwLevel != 0 then (s.sensorOut i).frozen else s.sensorOut i).settleLevel := by
  rw [sensorRetire, h]
  rfl

theorem State.hotKept_sensorOut (s : State) {i : Nat} (hi : i < 16) : HotKept p q s (s.sensorOut i) :=
  ((((s.hotKept_retire ..).trans (hotKept_setReg _ (k := Reg.THM_SENS_FLT) _ (by decide))).trans (hotKept_raise _ (by decide))).trans
    (hotKept_setSensor ..)).trans (hotKept_setAverage _ i 0 hi)

theorem State.hotKept_frozen (s : State) : HotKept p q s s.frozen := by
  have hthm (u : State) (x : ThmSt) : HotKept p q u { u with thm := x } := .of_regs fun _ _ => rfl
  exact (hthm s _).trans (.ite (.refl _) ((hotKept_setLevel _ (by decide) (.inr (by decide))).trans (hotKept_raise _ (by decide))))

theorem State.hotKept_sensorRetire (s : State) {i : Nat} (hi : i < 16) : HotKept p q s (s.sensorRetire i) := by
  cases hdue : s.isDue pTHM i with
  | false =>
    rw [sensorRetire, hdue]
    exact .refl s
  | true =>
    rw [sensorRetire_of_due hdue]
    exact ((HotKept.ite ((s.hotKept_sensorOut hi).trans (hotKept_frozen _)) (s.hotKept_sensorOut hi))).trans (hotKept_settleLevel _)

end

end Sys2Proof.Machine
end

section
/-! PROOFS. An evaluation of the sixteen samples (R499 to R507). -/

namespace Sys2Proof.Machine

/-! ### An evaluation's steps -/

/-- The time of the evaluations goes on. -/
def State.thmAged (s : State) : State :=
  { s with thm := { s.thm with time := s.thm.time + (if s.bit Reg.THM_STAT 4 then 1 else 16) } }

/-- The state in which the samples are judged: sensors that are due have retired. -/
def State.retiredDue (s : State) : State := ((List.range 16).foldl (fun (s : State) i => s.sensorRetire i) s).thmAged

/-- The first `n` samples have been taken. -/
def State.sampled (s : State) (l : List (BitVec 16)) (n : Nat) : State :=
  (List.range n).foldl (fun (u : State) i => u.takeSample s i (l.getD i 0).toInt) s

/-- The hottest sensor and its average. -/
def State.hottest? (s : State) : Option (Nat × Int) :=
  match s.averages with
  | [] => none
  | e :: t => some (t.foldl (fun (m x : Nat × Int) => if x.2 > m.2 then x else m) e)

/-- The hottest value is shown, and remembered of the sensors that have it. -/
def State.hotShown (s : State) (i : Nat) (v : Int) : State :=
  s.averages.foldl (fun (s : State) (e : Nat × Int) =>
    if (s.bit Reg.THM_SENS_FLT (16 + e.1)) then s else s.setSensor e.1 fun x => { x with wasHot := e.2 == v })
    ((s.setRegN Reg.THM_MAX (low 16 v)).setFld Reg.THM_STAT 8 4 i)

def State.judged (s : State) (h : Option (Nat × Int)) : State :=
  match h with
  | none => s
  | some (i, v) => (s.hotShown i v).thresholds v

/-- The levels after an evaluation. -/
def State.levelled (s : State) (h : Option (Nat × Int)) : State := ((s.judged h).throttle (h.map (·.2))).settleLevel

def State.settled (s : State) : State := s.levelled s.hottest?

theorem State.evaluate_eq (s : State) (l : List (BitVec 16)) : s.evaluate l =
    (s.retiredDue.sampled l 16).settled.setBit Reg.THM_STAT 4 (s.retiredDue.sampled l 16).settled.fastSampling := by
  unfold evaluate
  extract_lets a _ b o c av h d e
  have hb : s.retiredDue = b := by
    have ha : (List.range 16).foldl (fun (s : State) i => s.sensorRetire i) s = a := rfl
    rw [retiredDue, ha]
    clear_value a
    rfl
  rw [hb]
  have hc : b.sampled l 16 = c := rfl
  rw [hc]
  clear_value c
  have hh : c.hottest? = h := rfl
  clear_value h
  have hd : c.judged h = d := by
    cases h with
    | none => rfl
    | some e => rfl
  rw [settled, hh, levelled, hd]

/-! ### The samples (R499, R500) -/

section

variable {p : Prop} {q : Nat → Prop}

theorem State.hotKept_retiredDue (s : State) : HotKept p q s s.retiredDue := by
  have haged (u : State) : HotKept p q u u.thmAged := .of_regs fun _ _ => rfl
  exact (HotKept.foldl _ _ _ fun u i hi => u.hotKept_sensorRetire (List.mem_range.1 hi)).trans (haged _)

theorem State.hotKept_chanOk (s : State) (page c : Nat) : HotKept p q s (s.chanOk page c) :=
  .ite (.refl s) (.of_regs fun _ _ => rfl)

theorem State.hotKept_chanFault (s : State) (c code syn : Nat) : HotKept p q s (s.chanFault pTHM c code syn) := by
  have hlog (u : State) (code hi lo : Nat) : HotKept p q u (u.logEvent pTHM 1 code hi lo) := .of_thmKept (.of_steady (steady_logEvent ..))
  have hjudge (u : State) (c n : Nat) : HotKept p q u (u.judgeFault pTHM c n) :=
    .ite (.of_regs fun _ _ => rfl) (u.hotKept_setReg (k := cReg pTHM OFF_FAULT_CNT) _ (by decide))
  have hrun (u : State) (c n : Nat) : HotKept p q u (u.setRun pTHM c n) := .of_regs fun _ _ => rfl
  exact ((hrun s _ _).trans (hjudge _ _ _)).trans (.ite (hlog ..) (.refl _))

/-- A sample is shown. -/
def State.sampleShown (s : State) (i : Nat) (v : Int) : State := s.setFld (Reg.THM_SENS + 4 * i) 16 16 (low 16 v)

theorem State.hotKept_takeSample_shown (s o : State) {i : Nat} (v : Int) (hi : i < 16) :
    HotKept p q (s.sampleShown i v) (s.takeSample o i v) := by
  have hflag (u : State) (b : Bool) : HotKept p q u (u.setBit Reg.THM_SENS_FLT (16 + i) b) :=
    u.hotKept_setReg (k := Reg.THM_SENS_FLT) _ (by decide)
  have hcount (u : State) : HotKept p q u (u.bump Reg.THM_CNT 16 16 1) := u.hotKept_setReg (k := Reg.THM_CNT) _ (by decide)
  refine .ite (.refl _) (.ite ?_ ?_)
  · exact (((hflag _ _).trans (hotKept_chanOk ..)).trans (hotKept_setSensor ..)).trans (hotKept_setAverage _ i _ hi)
  · refine (((hflag _ _).trans (hcount _)).trans (.ite ?_ (.refl _))).trans (hotKept_chanFault ..)
    exact (hotKept_setSensor ..).trans (hotKept_setAverage _ i _ hi)

theorem low_lt (v : Int) : low 16 v < 2 ^ 16 := by
  unfold low
  omega

theorem State.sample_takeSample (s o : State) {i : Nat} (v : Int) (hi : i < 16) :
    (s.takeSample o i v).fld (Reg.THM_SENS + 4 * i) 16 16 = low 16 v := by
  rw [(s.hotKept_takeSample_shown (p := True) (q := fun _ => True) o v hi).samples i hi trivial, sampleShown,
    fld_setFld_same _ (by decide)]
  exact Nat.mod_eq_of_lt (low_lt v)

theorem State.hotKept_takeSample (s o : State) {i : Nat} (v : Int) (hi : i < 16) : HotKept p (· ≠ i) s (s.takeSample o i v) := by
  refine HotKept.trans ?_ (s.hotKept_takeSample_shown o v hi)
  have hreg (k : Nat) (hk : k ∉ (List.range 16).map (Reg.THM_SENS + 4 * ·)) : (s.sampleShown i v).reg k = s.reg k :=
    (reg_setFld ..).trans (if_neg fun h => hk (h ▸ List.mem_map_of_mem (List.mem_range.2 hi)))
  have hother (j : Nat) (hj : j ≠ i) : (s.sampleShown i v).reg (Reg.THM_SENS + 4 * j) = s.reg (Reg.THM_SENS + 4 * j) :=
    (reg_setFld ..).trans (if_neg (by omega))
  exact ⟨fun hb => (bit_of_reg (hreg _ (by decide)) 5).trans hb, .inl (fld_of_reg (hreg _ (by decide)) ..),
    fun j _ hj => fld_of_reg (hother j hj) .., fun _ i _ => bit_of_reg (hreg _ (by decide)) i⟩

theorem State.sampled_succ (s : State) (l : List (BitVec 16)) (n : Nat) :
    s.sampled l (n + 1) = (s.sampled l n).takeSample s n (l.getD n 0).toInt := by
  rw [sampled, List.range_succ, List.foldl_append]
  rfl

theorem State.hotKept_sampled (s : State) (l : List (BitVec 16)) {n : Nat} (hn : n ≤ 16) :
    HotKept p (fun _ => False) s (s.sampled l n) := by
  induction n with
  | zero => exact .refl s
  | succ n ih =>
    rw [sampled_succ]
    exact (ih (by omega)).trans ((hotKept_takeSample _ _ _ (by omega)).mono fun _ => False.elim)

theorem State.sample_sampled (s : State) (l : List (BitVec 16)) {n i : Nat} (hn : n ≤ 16) (hi : i < n) :
    (s.sampled l n).fld (Reg.THM_SENS + 4 * i) 16 16 = low 16 (l.getD i 0).toInt := by
  induction n with
  | zero => exact absurd hi (Nat.not_lt_zero i)
  | succ n ih =>
    rw [sampled_succ]
    by_cases hin : i = n
    · subst hin
      exact sample_takeSample _ _ _ (by omega)
    · exact ((hotKept_takeSample (p := True) _ s (l.getD n 0).toInt (by omega : n < 16)).samples i (by omega) hin).trans
        (ih (by omega) (by omega))

/-! ### Thresholds and levels (R501 to R505) -/

theorem State.hotKept_hotShown (s : State) (i : Nat) (v : Int) : HotKept p q s (s.hotShown i v) := by
  refine HotKept.trans (t := (s.setRegN Reg.THM_MAX (low 16 v)).setFld Reg.THM_STAT 8 4 i) ?_
    (.foldl _ _ _ fun u e _ => .ite (.refl u) (hotKept_setSensor ..))
  exact (s.hotKept_setReg (k := Reg.THM_MAX) _ (by decide)).trans (hotKept_setStat _ (by decide) fun _ => by decide)

theorem State.validKept_hotShown (s : State) (i : Nat) (v : Int) : ValidKept s (s.hotShown i v) := by
  have hset (u : State) (j : Nat) (w : Bool) : ValidKept u (u.setSensor j fun x => { x with wasHot := w }) := by
    refine ⟨fun k _ => ?_⟩
    have hsensor : (u.setSensor j fun x => { x with wasHot := w }).sensor k =
        if k = j then { u.sensor j with wasHot := w } else u.sensor k := Sparse.get_put ..
    have hdue : (u.setSensor j fun x => { x with wasHot := w }).isDue pTHM k = u.isDue pTHM k := rfl
    rw [sensorValid, sensorValid, hsensor, hdue]
    split
    · next h => rw [h]
    · rfl
  refine ValidKept.trans (t := (s.setRegN Reg.THM_MAX (low 16 v)).setFld Reg.THM_STAT 8 4 i)
    ((s.validKept_setReg ..).trans (validKept_setReg ..)) ?_
  exact List.foldlRecOn (motive := fun t => ValidKept _ t) _ _ (.refl _) fun u hu e _ => hu.trans (.ite (.refl u) (hset ..))

/-- The counts of the thresholds, and since when the throttle threshold has been left. -/
def State.withThm (s : State) (x : ThmSt) : State := { s with thm := x }

/-- The three states are shown. -/
def State.statesShown (s : State) (a b c : Bool) : State :=
  ((s.setBit Reg.THM_STAT 0 a).setBit Reg.THM_STAT 1 b).setBit Reg.THM_STAT 2 c

/-- Their events. -/
def State.thresholdEvents (s : State) (w t sh : Bool) : State :=
  let u := s.raiseIf w pTHM 0
  let u := if t then (u.bump Reg.THM_CNT 0 16 1).raise pTHM 1 else u
  if sh then u.thermalShut else u

theorem State.thresholds_eq (s : State) (h : Int) : ∃ x a b c w t sh, x.sensors = s.thm.sensors ∧
    s.thresholds h = ((s.withThm x).statesShown a b c).thresholdEvents w t sh := by
  unfold thresholds
  extract_lets _ _ _ a b c newW newT newS _ _ counted shown _ _
  have hcounted : s.withThm counted.thm = counted := rfl
  refine ⟨counted.thm, a.1, b.1, c.1, newW, newT, newS, rfl, ?_⟩
  rw [hcounted]
  clear_value counted
  have hshown : counted.statesShown a.1 b.1 c.1 = shown := rfl
  rw [hshown]
  rfl

theorem State.hotKept_thresholds (s : State) (h : Int) (hp : ¬ p) : HotKept p q s (s.thresholds h) := by
  obtain ⟨x, a, b, c, w, t, sh, -, heq⟩ := s.thresholds_eq h
  have hthm (u : State) (x : ThmSt) : HotKept p q u (u.withThm x) := .of_regs fun _ _ => rfl
  have hstat (u : State) (i : Nat) (b : Bool) (hi : i < 32) : HotKept p q u (u.setBit Reg.THM_STAT i b) :=
    u.hotKept_setStat (by omega) fun h => absurd h hp
  have hcount (u : State) : HotKept p q u ((u.bump Reg.THM_CNT 0 16 1).raise pTHM 1) :=
    (u.hotKept_setReg (k := Reg.THM_CNT) _ (by decide)).trans (hotKept_raise _ (by decide))
  rw [heq]
  refine ((hthm s x).trans (((hstat _ 0 a (by decide)).trans (hstat _ 1 b (by decide))).trans (hstat _ 2 c (by decide)))).trans ?_
  exact ((hotKept_raiseIf _ w (by decide)).trans (.ite (hcount _) (.refl _))).trans
    (.ite (.of_thmKept (thmKept_thermalShut _)) (.refl _))

theorem State.validKept_thresholds (s : State) (h : Int) : ValidKept s (s.thresholds h) := by
  obtain ⟨x, a, b, c, w, t, sh, hsensors, heq⟩ := s.thresholds_eq h
  have hthm : ValidKept s (s.withThm x) := .of_eq hsensors rfl
  have hcount (u : State) : ValidKept u ((u.bump Reg.THM_CNT 0 16 1).raise pTHM 1) :=
    (u.validKept_setReg ..).trans (validKept_raise ..)
  rw [heq]
  have hstat (u : State) (i : Nat) (b : Bool) : ValidKept u (u.setBit Reg.THM_STAT i b) := u.validKept_setReg ..
  refine (hthm.trans (((hstat _ 0 a).trans (hstat _ 1 b)).trans (hstat _ 2 c))).trans ?_
  exact ((validKept_raiseIf ..).trans (.ite (hcount _) (.refl _))).trans (.ite (.of_thmKept (thmKept_thermalShut _)) (.refl _))

theorem State.validKept_judged (s : State) (h : Option (Nat × Int)) : ValidKept s (s.judged h) := by
  cases h with
  | none => exact .refl s
  | some e => exact (s.validKept_hotShown ..).trans (validKept_thresholds ..)

theorem State.hotKept_judged (s : State) (h : Option (Nat × Int)) (hp : p → h = none) : HotKept p q s (s.judged h) := by
  cases h with
  | none => exact .refl s
  | some e => exact (s.hotKept_hotShown ..).trans (hotKept_thresholds _ _ fun h => nomatch hp h)

theorem State.hotKept_hwStep (s : State) (l : Nat) : HotKept p q s (s.hwStep l) :=
  (s.hotKept_setLevel (by decide) (.inr (by decide))).trans (.of_regs fun _ _ => rfl)

theorem State.validKept_hwStep (s : State) (l : Nat) : ValidKept s (s.hwStep l) := .of_eq rfl rfl

theorem State.freezeStep_kept (s : State) (h : Option Int) : HotKept p q s (s.freezeStep h).1 ∧ ValidKept s (s.freezeStep h).1 := by
  have hthm (u : State) (x : Option Nat) : HotKept p q u (u.withThm { u.thm with cool := x }) := .of_regs fun _ _ => rfl
  have hvalid (u : State) (x : Option Nat) : ValidKept u (u.withThm { u.thm with cool := x }) := .of_eq rfl rfl
  have hthaw (u : State) : HotKept p q u (u.setBit Reg.THM_LEVEL 6 false) := u.hotKept_setLevel (by decide) (.inr (by decide))
  have hthawValid (u : State) : ValidKept u (u.setBit Reg.THM_LEVEL 6 false) := u.validKept_setReg ..
  unfold freezeStep
  split
  · exact ⟨.refl s, .refl s⟩
  · extract_lets _ _ cool _ u _
    have hu : HotKept p q s u := hthm s cool
    have huValid : ValidKept s u := hvalid s cool
    split
    · exact ⟨hu.trans (hthaw u), huValid.trans (hthawValid u)⟩
    · exact ⟨hu, huValid⟩

theorem State.throttle_kept (s : State) (h : Option Int) : HotKept p q s (s.throttle h) ∧ ValidKept s (s.throttle h) := by
  obtain ⟨hhot, hvalid⟩ := s.freezeStep_kept (p := p) (q := q) h
  unfold throttle
  dsimp only
  exact ⟨hhot.trans (.ite (.ite (hotKept_hwStep ..) (.refl _)) (.ite (hotKept_hwStep ..) (.refl _))),
    hvalid.trans (.ite (.ite (validKept_hwStep ..) (.refl _)) (.ite (validKept_hwStep ..) (.refl _)))⟩

theorem State.validKept_settled (s : State) : ValidKept s s.settled :=
  ((s.validKept_judged _).trans (throttle_kept (p := True) (q := fun _ => True) _ _).2).trans (validKept_settleLevel _)

theorem State.hotKept_settled (s : State) (hp : p → s.hottest? = none) : HotKept p q s s.settled :=
  ((s.hotKept_judged _ hp).trans (throttle_kept _ _).1).trans (hotKept_settleLevel _)

end

/-! ### The commands (R499, R500, R503, R505, R508) -/

theorem exec_thermalEvaluation {l : List (BitVec 16)} {s : State} (hl : l.length = 16) (hoff : s.off = false)
    (hreset : s.flt.inReset = false) : exec (.thermalEvaluation l) s =
      .next ((s.retiredDue.sampled l 16).settled.setBit Reg.THM_STAT 4 (s.retiredDue.sampled l 16).settled.fastSampling) := by
  refine (if_neg (not_not_intro hl)).trans (congrArg Host.Outcome.next ((if_neg ?_).trans (s.evaluate_eq l)))
  rw [hoff, hreset]
  decide

theorem State.hottest_of_noValid {s : State} (h : s.validSensors.length = 0) : s.hottest? = none := by
  have hnil : s.averages = [] := by rw [averages, List.length_eq_zero_iff.1 h]; rfl
  rw [hottest?, hnil]

theorem State.floor_settleLevel_valid (s : State) :
    s.settleLevel.fld Reg.THM_LEVEL 12 2 = floorOf s.settleLevel.validSensors.length := by
  rw [floor_settleLevel, s.validKept_settleLevel.validSensors]

/-- What an evaluation leaves: the floor follows the sensors, and the states stay when none is valid. -/
theorem thermalEvaluation_evaluates (l : List (BitVec 16)) (s : State) (hl : l.length = 16) (hoff : s.off = false)
    (hreset : s.flt.inReset = false) :
    Completes (.thermalEvaluation l) s fun t => t.fld Reg.THM_LEVEL 12 2 = floorOf t.validSensors.length ∧
      (t.validSensors.length = 0 → ∀ i, i < 3 → t.bit Reg.THM_STAT i = s.bit Reg.THM_STAT i) ∧
      (t.fld Reg.THM_LEVEL 12 2 ≠ s.fld Reg.THM_LEVEL 12 2 → t.bit (cReg pTHM OFF_INT_STAT) 5 = true) ∧
      ∀ i, i < 16 → t.fld (Reg.THM_SENS + 4 * i) 16 16 = low 16 (l.getD i 0).toInt := by
  refine ⟨_, exec_thermalEvaluation hl hoff hreset, ?_⟩
  have hsampled := (s.hotKept_retiredDue (p := (s.retiredDue.sampled l 16).validSensors.length = 0)).trans
    (State.hotKept_sampled s.retiredDue l (Nat.le_refl 16))
  have hsample (i : Nat) (hi : i < 16) := s.retiredDue.sample_sampled l (Nat.le_refl 16) hi
  revert hsampled hsample
  generalize s.retiredDue.sampled l 16 = u
  intro hsampled hsample
  have hfast (b : Bool) : HotKept (u.validSensors.length = 0) (fun _ => True) u.settled (u.settled.setBit Reg.THM_STAT 4 b) :=
    State.hotKept_setStat _ (by decide) fun _ => by decide
  have hend := (u.hotKept_settled State.hottest_of_noValid).trans (hfast u.settled.fastSampling)
  have hall := hsampled.trans (hend.mono fun _ => False.elim)
  have hvalid : ValidKept u (u.settled.setBit Reg.THM_STAT 4 u.settled.fastSampling) :=
    u.validKept_settled.trans (State.validKept_setReg ..)
  refine ⟨?_, ?_, ?_, fun i hi => (hend.samples i hi trivial).trans (hsample i hi)⟩
  · have hstat (b : Bool) : ValidKept u.settled (u.settled.setBit Reg.THM_STAT 4 b) := u.settled.validKept_setReg ..
    have hlevel (b : Bool) : (u.settled.setBit Reg.THM_STAT 4 b).reg Reg.THM_LEVEL = u.settled.reg Reg.THM_LEVEL :=
      State.reg_setReg_other _ _ (by decide)
    rw [State.fld_of_reg (hlevel _), (hstat _).validSensors]
    exact State.floor_settleLevel_valid _
  · rw [hvalid.validSensors]
    exact hall.states
  · exact fun hne => hall.floor.resolve_left hne

/-! ### Retirement and restoration (R500, R507) -/

/-- What a retirement or a restoration shows: the floor follows the sensors, and the states stay. -/
theorem State.settled_shows {s u : State} (h : HotKept True (fun _ => False) s u) :
    u.settleLevel.fld Reg.THM_LEVEL 12 2 = floorOf u.settleLevel.validSensors.length ∧
      (∀ i, i < 3 → u.settleLevel.bit Reg.THM_STAT i = s.bit Reg.THM_STAT i) ∧
      (u.settleLevel.fld Reg.THM_LEVEL 12 2 ≠ s.fld Reg.THM_LEVEL 12 2 →
        u.settleLevel.bit (cReg pTHM OFF_INT_STAT) 5 = true) :=
  have hall := h.trans u.hotKept_settleLevel
  ⟨u.floor_settleLevel_valid, hall.states trivial, hall.floor.resolve_left⟩

/-- The state of a sensor that retires, before the level follows. -/
def State.sensorGone (s : State) (i : Nat) : State :=
  if (s.sensor i).wasHot && s.hwLevel != 0 then (s.sensorOut i).frozen else s.sensorOut i

theorem exec_sensorRetire {i : Fin 16} {s : State} (h : s.isDue pTHM i = true) :
    exec (.sensorRetire i) s = .next (s.sensorGone i).settleLevel :=
  congrArg Host.Outcome.next (State.sensorRetire_of_due h)

theorem State.hotKept_sensorGone (s : State) {i : Nat} (hi : i < 16) : HotKept True (fun _ => False) s (s.sensorGone i) :=
  .ite ((s.hotKept_sensorOut hi).trans (hotKept_frozen _)) (s.hotKept_sensorOut hi)

/-- A retired sensor returns to service. -/
def State.sensorBack (s : State) (i : Nat) : State :=
  if (s.sensor i).retired then
    (s.unretire pTHM i).setSensor i fun x => { x with retired := false, refill := true, win := [], wasHot := false }
  else s

/-- The sensors that a restoration returns to service. -/
def State.sensorsBack (s : State) (m : Nat) : State := (setBits 16 m).foldl (fun (s : State) i => s.sensorBack i) s

theorem State.hotKept_sensorsBack (s : State) (m : Nat) : HotKept True (fun _ => False) s (s.sensorsBack m) := by
  refine .foldl _ _ _ fun u i _ => .ite ?_ (.refl u)
  exact .of_regs fun _ _ => rfl

theorem exec_sensorRestore {m : Fin 8} {mask : BitVec 16} {s : State}
    (hacc : s.accepts m Reg.THM_SENS_RESTORE (mask.setWidth 32) = true) : exec (.sensorRestore m mask) s =
      .next (((s.respond m true Reg.THM_SENS_RESTORE .ok 0).sensorsBack mask.toNat).settleLevel) :=
  congrArg Host.Outcome.next (State.gateWrite_eq hacc (by decide +kernel) _)

/-- Settles O16, clause by clause. -/
theorem sensorFloor : Obligations.SensorFloor := by
  unfold Obligations.SensorFloor
  refine ⟨fun l s hl hoff hreset => ?_, fun i s hdue => ?_, fun m mask s hacc => ?_⟩
  · obtain ⟨t, hexec, hfloor, hstates, hevent, -⟩ := thermalEvaluation_evaluates l s hl hoff hreset
    exact ⟨t, hexec, hfloor, hstates, hevent⟩
  · exact ⟨_, exec_sensorRetire hdue, State.settled_shows (s.hotKept_sensorGone i.isLt)⟩
  · exact ⟨_, exec_sensorRestore hacc,
      State.settled_shows (s := s.respond m true Reg.THM_SENS_RESTORE .ok 0) (State.hotKept_sensorsBack _ _)⟩

end Sys2Proof.Machine
end

section
/-! PROOFS. The commands of the thermal manager (R499 to R509). -/

namespace Sys2Proof.Machine

/-! ### What the level's change leaves (R503, R507) -/

/-- The same sensors, and the same of them due. -/
structure SensorsKept (s t : State) : Prop where
  thm : t.thm = s.thm
  due : ∀ i, i < 0x10000 → t.isDue pTHM i = s.isDue pTHM i

theorem SensorsKept.trans {s t u : State} (h : SensorsKept s t) (h' : SensorsKept t u) : SensorsKept s u :=
  ⟨h'.thm.trans h.thm, fun i hi => (h'.due i hi).trans (h.due i hi)⟩

theorem SensorsKept.of_thmKept {s t : State} (h : ThmKept s t) : SensorsKept s t := ⟨h.thm, h.due⟩

theorem State.sensorsKept_raise (s : State) (page i : Nat) : SensorsKept s (s.raise page i) :=
  ⟨raise_thm .., fun i _ => by rw [isDue, isDue, raise_flt]⟩

theorem State.steady_levelEffects (s : State) (l : Nat) : (s.rsvLevel l).calLevel.steady = s.steady :=
  (steady_calLevel _).trans (steady_rsvLevel ..)

theorem State.sensorsKept_raiseIf (s : State) (c : Bool) (page i : Nat) : SensorsKept s (s.raiseIf c page i) := by
  unfold raiseIf
  split
  · exact s.sensorsKept_raise ..
  · exact ⟨rfl, fun _ _ => rfl⟩

theorem State.sensorsKept_floorSettled (s : State) : SensorsKept s s.floorSettled := by
  have hset (u : State) (k lo len v : Nat) : SensorsKept u (u.setFld k lo len v) := ⟨rfl, fun _ _ => rfl⟩
  exact ((hset ..).trans (hset ..)).trans (sensorsKept_raiseIf ..)

theorem State.sensorsKept_settleLevel (s : State) : SensorsKept s s.settleLevel := by
  have hset (u : State) (l : Nat) : SensorsKept u (u.setFld Reg.THM_LEVEL 0 2 l) := ⟨rfl, fun _ _ => rfl⟩
  rw [settleLevel_eq]
  split
  · exact s.sensorsKept_floorSettled
  · exact s.sensorsKept_floorSettled.trans
      (((hset _ _).trans (sensorsKept_raise ..)).trans (.of_thmKept (.of_steady (steady_levelEffects ..))))

/-- The registers that a change of the level touches. -/
def levelKeys : List Nat := [Reg.THM_STAT, Reg.THM_LEVEL] ++ raiseKeys pTHM

theorem State.reg_floorSettled (s : State) {k : Nat} (hk : k ∉ levelKeys) : s.floorSettled.reg k = s.reg k := by
  simp only [levelKeys, List.mem_append, not_or, List.mem_cons, List.not_mem_nil, or_false] at hk
  obtain ⟨⟨hstat, hlevel⟩, hraise⟩ := hk
  rw [floorSettled, reg_raiseIf _ hraise, reg_setFld, if_neg hlevel, reg_setFld, if_neg hstat]

theorem State.reg_settleLevel (s : State) {k : Nat} (hsteady : steadyKey k = true) (hk : k ∉ levelKeys) :
    s.settleLevel.reg k = s.reg k := by
  have hfloor := s.reg_floorSettled hk
  simp only [levelKeys, List.mem_append, not_or, List.mem_cons, List.not_mem_nil, or_false] at hk
  obtain ⟨⟨-, hlevel⟩, hraise⟩ := hk
  rw [settleLevel_eq]
  refine reg_ite hfloor (Eq.trans ?_ hfloor)
  rw [levelSettled, reg_of_steady (steady_levelEffects ..) hsteady, reg_raise _ hraise, reg_setFld, if_neg hlevel]

/-- Events of the THM page stay. -/
theorem State.event_settleLevel {s : State} {i : Nat} (h : s.bit (cReg pTHM OFF_INT_STAT) i = true) :
    s.settleLevel.bit (cReg pTHM OFF_INT_STAT) i = true := by
  have hset (u : State) (k lo len v : Nat) (hk : cReg pTHM OFF_INT_STAT ≠ k) (hu : u.bit (cReg pTHM OFF_INT_STAT) i = true) :
      (u.setFld k lo len v).bit (cReg pTHM OFF_INT_STAT) i = true := (bit_setReg_other u _ i hk).trans hu
  have hfloor : s.floorSettled.bit (cReg pTHM OFF_INT_STAT) i = true :=
    bit_raiseIf_keeps _ _ _ (by decide) (hset _ _ _ _ _ (by decide) (hset s _ _ _ _ (by decide) h))
  rw [settleLevel_eq]
  split
  · exact hfloor
  · rw [levelSettled, bit_of_reg (reg_of_steady (steady_levelEffects ..) (by decide))]
    exact bit_raise_keeps _ pTHM (by decide) (hset _ _ _ _ _ (by decide) hfloor)

/-- The level in force is the largest of its three causes. -/
theorem State.level_settleLevel (s : State) :
    s.settleLevel.level = max s.hwLevel (max (s.fld Reg.THM_CTRL 0 2) (floorOf s.validSensors.length)) := by
  have hhw : s.floorSettled.hwLevel = s.hwLevel := by
    rw [hwLevel, floorSettled, fld_of_reg (reg_raiseIf _ (by decide)), fld_setFld_other _ (by decide) (.inr (by decide)),
      fld_setFld_other _ (by decide) (.inl (by decide))]
    rfl
  have hctrl : s.floorSettled.fld Reg.THM_CTRL 0 2 = s.fld Reg.THM_CTRL 0 2 := fld_of_reg (s.reg_floorSettled (by decide)) ..
  have hdue : s.floorSettled.dueLevel s.validSensors.length =
      max s.hwLevel (max (s.fld Reg.THM_CTRL 0 2) (floorOf s.validSensors.length)) := by rw [dueLevel, hhw, hctrl]
  have hlt : max s.hwLevel (max (s.fld Reg.THM_CTRL 0 2) (floorOf s.validSensors.length)) < 2 ^ 2 :=
    max_lt (fld_lt ..) (max_lt (fld_lt ..) (floorOf_lt _))
  rw [settleLevel_eq, hdue]
  split
  · next h => exact h.symm
  · rw [level, levelSettled, fld_of_reg (reg_of_steady (steady_levelEffects ..) (by decide)), fld_of_reg (reg_raise _ (by decide)),
      fld_setFld_same _ (by decide)]
    exact Nat.mod_eq_of_lt hlt

/-! ### Retirement and restoration (R500) -/

theorem State.sensor_setSensor (s : State) (i j : Nat) (f : Sensor → Sensor) :
    (s.setSensor i f).sensor j = if j = i then f (s.sensor i) else s.sensor j := Sparse.get_put ..

/-- A sensor that has retired, with its event, and is due no more. -/
structure State.SensorOut (t : State) (i : Nat) : Prop where
  retired : (t.sensor i).retired = true
  fault : t.bit Reg.THM_SENS_FLT i = true
  due : t.isDue pTHM i = false
  event : t.bit (cReg pTHM OFF_INT_STAT) 4 = true

theorem State.due_retire (s : State) (page c code syn : Nat) : (s.retire page c code syn).isDue page c = false := by
  have hdue {t : State} (h : t.flt.due = (s.notDue page c).flt.due) : t.isDue page c = false := by
    rw [isDue, h]
    exact s.isDue_notDue page c
  unfold retire retireInTick
  split
  · exact hdue rfl
  · dsimp only
    refine hdue ?_
    rw [logEvent_flt, bump, setFld, setReg_flt, withSummary]
    dsimp only
    split
    · rw [afterRise_flt]
    · rw [afterRise_flt, afterRise_flt]

theorem State.sensorOut_retires (s : State) {i : Nat} (hi : i < 16) : (s.sensorOut i).SensorOut i := by
  have hsens : ∀ i, i < 16 → Reg.THM_SENS_FLT ≠ Reg.THM_SENS + 4 * i ∧ cReg pTHM OFF_INT_STAT ≠ Reg.THM_SENS + 4 * i := by decide
  obtain ⟨hflt, hint⟩ := hsens i hi
  refine ⟨?_, ?_, ?_, ?_⟩
  · have hset (u : State) (k lo len v : Nat) : (u.setFld k lo len v).sensor i = u.sensor i := rfl
    rw [sensorOut, hset, sensor_setSensor, if_pos rfl]
  · have hset (u : State) (f : Sensor → Sensor) : (u.setSensor i f).bit Reg.THM_SENS_FLT i = u.bit Reg.THM_SENS_FLT i := rfl
    rw [sensorOut, setFld, bit_setReg_other _ _ _ hflt, hset, bit_of_reg (reg_raise _ (by decide)),
      bit_setBit_same _ _ _ (by omega)]
  · have hset (u : State) (f : Sensor → Sensor) (k lo len v : Nat) :
        ((u.setSensor i f).setFld k lo len v).isDue pTHM i = u.isDue pTHM i := rfl
    have hbit (u : State) (k j : Nat) (b : Bool) : (u.setBit k j b).isDue pTHM i = u.isDue pTHM i := rfl
    rw [sensorOut, hset, (sensorsKept_raise ..).due i (by omega), hbit, due_retire]
  · have hset (u : State) (f : Sensor → Sensor) : (u.setSensor i f).bit (cReg pTHM OFF_INT_STAT) 4 = u.bit (cReg pTHM OFF_INT_STAT) 4 :=
      rfl
    rw [sensorOut, setFld, bit_setReg_other _ _ _ hint, hset]
    exact bit_raise _ pTHM (by decide)

theorem State.SensorOut.raise {t : State} {i : Nat} (h : t.SensorOut i) (hi : i < 16) : (t.raise pTHM 3).SensorOut i := by
  have hkept := t.sensorsKept_raise pTHM 3
  refine ⟨?_, (bit_of_reg (reg_raise _ (by decide)) i).trans h.fault, (hkept.due i (by omega)).trans h.due,
    bit_raise_keeps t pTHM (by decide) h.event⟩
  rw [sensor, hkept.thm]
  exact h.retired

theorem State.SensorOut.settleLevel {t : State} {i : Nat} (h : t.SensorOut i) (hi : i < 16) : t.settleLevel.SensorOut i := by
  have hkept := t.sensorsKept_settleLevel
  refine ⟨?_, (bit_of_reg (t.reg_settleLevel (by decide) (by decide)) i).trans h.fault, (hkept.due i (by omega)).trans h.due,
    event_settleLevel h.event⟩
  rw [sensor, hkept.thm]
  exact h.retired

theorem State.SensorOut.frozen {t : State} {i : Nat} (h : t.SensorOut i) (hi : i < 16) : t.frozen.SensorOut i := by
  have hthm : (t.withThm { t.thm with cool := none, ack := false }).SensorOut i := ⟨h.retired, h.fault, h.due, h.event⟩
  have hfrozen : t.frozen = if (t.withThm { t.thm with cool := none, ack := false }).bit Reg.THM_LEVEL 6
      then t.withThm { t.thm with cool := none, ack := false }
      else ((t.withThm { t.thm with cool := none, ack := false }).setBit Reg.THM_LEVEL 6 true).raise pTHM 3 := rfl
  rw [hfrozen]
  revert hthm
  generalize t.withThm { t.thm with cool := none, ack := false } = u
  intro hu
  split
  · exact hu
  · have hset : (u.setBit Reg.THM_LEVEL 6 true).SensorOut i :=
      ⟨hu.retired, (bit_setReg_other _ _ _ (by decide)).trans hu.fault, hu.due, (bit_setReg_other _ _ _ (by decide)).trans hu.event⟩
    exact hset.raise hi

theorem sensorRetire_retires (i : Fin 16) (s : State) (hdue : s.isDue pTHM i = true) :
    Completes (.sensorRetire i) s fun t => (t.sensor i).retired = true ∧ t.bit Reg.THM_SENS_FLT i = true ∧
      t.isDue pTHM i = false ∧ t.bit (cReg pTHM OFF_INT_STAT) 4 = true ∧ SameMem s t := by
  have hexec := exec_sensorRetire hdue
  have hout := s.sensorOut_retires i.isLt
  have hgone : (s.sensorGone i).SensorOut i := by
    unfold State.sensorGone
    split
    · exact hout.frozen i.isLt
    · exact hout
  have hend := hgone.settleLevel i.isLt
  exact ⟨_, hexec, hend.retired, hend.fault, hend.due, hend.event, sameMem_of_frame (execSensorRetire_frame i s hexec)⟩

theorem State.sensor_sensorBack_other (s : State) {i j : Nat} (h : j ≠ i) : (s.sensorBack i).sensor j = s.sensor j := by
  unfold sensorBack
  split
  · exact (sensor_setSensor ..).trans (if_neg h)
  · rfl

theorem State.sensorBack_restores (s : State) (i : Nat) : ((s.sensorBack i).sensor i).retired = false := by
  unfold sensorBack
  split
  · rw [sensor_setSensor, if_pos rfl]
  · next h => exact Bool.eq_false_iff.2 h

theorem State.sensorBack_keeps {s : State} {j : Nat} (i : Nat) (h : (s.sensor j).retired = false) :
    ((s.sensorBack i).sensor j).retired = false := by
  by_cases hij : j = i
  · exact hij ▸ s.sensorBack_restores j
  · rw [sensor_sensorBack_other s hij, h]

theorem State.foldl_sensorBack_restores {i : Nat} (l : List Nat) (s : State) (h : i ∈ l ∨ (s.sensor i).retired = false) :
    ((l.foldl (fun (s : State) i => s.sensorBack i) s).sensor i).retired = false := by
  induction l generalizing s with
  | nil => exact h.resolve_left List.not_mem_nil
  | cons a l ih =>
    refine ih _ ?_
    obtain hmem | hback := h
    · obtain rfl | hmem := List.mem_cons.1 hmem
      · exact .inr (s.sensorBack_restores i)
      · exact .inl hmem
    · exact .inr (sensorBack_keeps a hback)

theorem State.foldl_sensorBack_other {i : Nat} (l : List Nat) (s : State) (h : i ∉ l) :
    (l.foldl (fun (s : State) i => s.sensorBack i) s).sensor i = s.sensor i :=
  List.foldlRecOn (motive := fun t : State => t.sensor i = s.sensor i) l _ rfl fun u hu a ha =>
    (u.sensor_sensorBack_other fun hia => h (by rw [hia]; exact ha)).trans hu

/-- After a restoration the sensors of the mask are in service, and the others are as they were. -/
theorem State.sensor_sensorsBack (s : State) (m : Nat) :
    (∀ i, i < 16 → m.testBit i = true → ((s.sensorsBack m).sensor i).retired = false) ∧
      ∀ i, m.testBit i = false → (s.sensorsBack m).sensor i = s.sensor i := by
  refine ⟨fun i hi hbit => foldl_sensorBack_restores _ s (.inl (List.mem_filter.2 ⟨List.mem_range.2 hi, hbit⟩)), fun i hbit => ?_⟩
  refine foldl_sensorBack_other _ s fun hmem => ?_
  obtain ⟨-, hset⟩ := List.mem_filter.1 hmem
  rw [hset] at hbit
  cases hbit

theorem sensorRestore_restores (m : Fin 8) (mask : BitVec 16) (s : State)
    (hacc : s.accepts m Reg.THM_SENS_RESTORE (mask.setWidth 32) = true) :
    Completes (.sensorRestore m mask) s fun t => (∀ i, i < 16 → bitAt mask.toNat i = true → (t.sensor i).retired = false) ∧
      (∀ i, i < 16 → bitAt mask.toNat i = false → t.sensor i = s.sensor i) ∧ SameMem s t := by
  have hexec := exec_sensorRestore hacc
  obtain ⟨hback, hsame⟩ := (s.respond m true Reg.THM_SENS_RESTORE .ok 0).sensor_sensorsBack mask.toNat
  have hkept := ((s.respond m true Reg.THM_SENS_RESTORE .ok 0).sensorsBack mask.toNat).sensorsKept_settleLevel
  have hsensor (i : Nat) : (((s.respond m true Reg.THM_SENS_RESTORE .ok 0).sensorsBack mask.toNat).settleLevel).sensor i =
      ((s.respond m true Reg.THM_SENS_RESTORE .ok 0).sensorsBack mask.toNat).sensor i := by
    rw [State.sensor, hkept.thm]
    rfl
  refine ⟨_, hexec, fun i hi hbit => ?_, fun i hi hbit => ?_, sameMem_of_frame (execSensorRestore_frame m mask s hexec)⟩
  · rw [hsensor]
    exact hback i hi hbit
  · rw [hsensor]
    exact hsame i hbit

/-! ### THM_CTRL and THM_SHUT (R503, R505, R508) -/

/-- The state after a write of THM_CTRL, before the level follows. -/
def State.ctrlWritten (s : State) (v : Word) : State :=
  let t := s.storeReg Reg.THM_CTRL v
  if bitOf v 4 && t.bit Reg.THM_LEVEL 6 then t.withThm { t.thm with ack := true } else t

theorem exec_thmCtrl {m : Fin 8} {v : Word} {s : State} (hacc : s.accepts m Reg.THM_CTRL v = true) :
    s.gateWrite m Reg.THM_CTRL v (fun s => s.thmCtrlWrite v) =
      ((s.respond m true Reg.THM_CTRL .ok 0).ctrlWritten v).settleLevel :=
  State.gateWrite_eq hacc (by decide +kernel) _

theorem State.reg_ctrlWritten (s : State) (v : Word) (k : Nat) : (s.ctrlWritten v).reg k = (s.storeReg Reg.THM_CTRL v).reg k := by
  unfold ctrlWritten
  dsimp only
  exact reg_ite rfl rfl

theorem State.floor_ctrlWritten (s : State) {v : Word} {floor : Nat} (hv : Machine.fld v 0 2 = floor) :
    (s.ctrlWritten v).settleLevel.fld Reg.THM_CTRL 0 2 = floor := by
  rw [fld_of_reg (reg_settleLevel _ (by decide) (by decide)), fld_of_reg (s.reg_ctrlWritten v _),
    fld_storeReg_same _ _ (by decide) (by decide +kernel), hv]

theorem thermalAck_acks (m : Fin 8) (floor : Fin 4) (s : State)
    (hacc : s.accepts m Reg.THM_CTRL (BitVec.ofNat 32 (16 + floor.val)) = true) (hfreeze : s.bit Reg.THM_LEVEL 6 = true) :
    Completes (.thermalAck m floor) s fun t => t.thm.ack = true ∧ t.fld Reg.THM_CTRL 0 2 = floor.val ∧ SameMem s t := by
  have hexec : exec (.thermalAck m floor) s = _ := congrArg Host.Outcome.next (exec_thmCtrl hacc)
  have hv : ∀ f : Fin 4, fld (BitVec.ofNat 32 (16 + f.val)) 0 2 = f.val ∧ bitOf (BitVec.ofNat 32 (16 + f.val)) 4 = true := by
    decide
  obtain ⟨hfloor, hack⟩ := hv floor
  have hbit : ((s.respond m true Reg.THM_CTRL .ok 0).storeReg Reg.THM_CTRL (BitVec.ofNat 32 (16 + floor.val))).bit Reg.THM_LEVEL 6 =
      true := (State.bit_of_reg (State.reg_storeReg_apart _ _ (by decide) (by decide)) 6).trans hfreeze
  refine ⟨_, hexec, ?_, State.floor_ctrlWritten _ hfloor, sameMem_of_frame (execAck_frame m floor s hexec)⟩
  rw [(State.sensorsKept_settleLevel _).thm, State.ctrlWritten, hack, hbit]
  rfl

theorem swFloorWrite_sets (m : Fin 8) (floor : Fin 4) (s : State)
    (hacc : s.accepts m Reg.THM_CTRL (BitVec.ofNat 32 floor.val) = true) :
    Completes (.swFloorWrite m floor) s fun t => t.fld Reg.THM_CTRL 0 2 = floor.val ∧
      t.level = max s.hwLevel (max floor.val (floorOf s.validSensors.length)) ∧ SameMem s t := by
  have hexec : exec (.swFloorWrite m floor) s = _ := congrArg Host.Outcome.next (exec_thmCtrl hacc)
  have hv : ∀ f : Fin 4, fld (BitVec.ofNat 32 f.val) 0 2 = f.val ∧ bitOf (BitVec.ofNat 32 f.val) 4 = false := by
    decide
  obtain ⟨hfloor, hack⟩ := hv floor
  have hwritten (u : State) : u.ctrlWritten (BitVec.ofNat 32 floor.val) = u.storeReg Reg.THM_CTRL (BitVec.ofNat 32 floor.val) := by
    rw [State.ctrlWritten, hack]
    rfl
  refine ⟨_, hexec, State.floor_ctrlWritten _ hfloor, ?_, sameMem_of_frame (execSwFloorWrite_frame m floor s hexec)⟩
  rw [State.level_settleLevel, hwritten, State.fld_storeReg_same _ _ (by decide) (by decide +kernel), hfloor, State.hwLevel,
    State.fld_of_reg (State.reg_storeReg_apart _ _ (by decide) (by decide))]
  have hvalid (u : State) (v : Word) : ValidKept u (u.storeReg Reg.THM_CTRL v) :=
    .of_eq (by rw [State.storeReg_thm]) (State.storeReg_flt ..)
  rw [(hvalid _ _).validSensors]
  rfl

theorem thmShutWrite_lowers (m : Fin 8) (v : Word) (s : State) (hacc : s.accepts m Reg.THM_SHUT v = true)
    (hle : fld v 0 8 ≤ s.fld Reg.THM_SHUT 0 8) :
    Completes (.thmShutWrite m v) s fun t => t.fld Reg.THM_SHUT 0 8 = max 125 (fld v 0 8) ∧ SameMem s t ∧
      SameRegs s t [Reg.THM_SHUT] := by
  have hexec : exec (.thmShutWrite m v) s =
      .next ((s.respond m true Reg.THM_SHUT .ok 0).setFld Reg.THM_SHUT 0 8 (max 125 (fld v 0 8))) :=
    congrArg Host.Outcome.next ((State.gateWrite_eq hacc (by decide +kernel) _).trans (if_neg (Nat.not_lt.2 hle)))
  have hlt : max 125 (fld v 0 8) < 2 ^ 8 := max_lt (by decide) (fld_lt ..)
  refine ⟨_, hexec, ?_, sameMem_of_frame (execThmShutWrite_frame m v s hexec), fun k hk => ?_⟩
  · rw [State.fld_setFld_same _ (by decide)]
    exact Nat.mod_eq_of_lt hlt
  · rw [State.reg_setFld, if_neg (by simpa using hk)]
    rfl

/-! ### The shutdown (R508, R509) -/

theorem State.pwr_quiesce (s : State) : s.quiesce.pwr = s.pwr := by
  unfold quiesce
  split
  · rfl
  · rw [raise_pwr]
    rfl

theorem State.pwr_powerSequence (s : State) (cause : Nat) : (s.powerSequence cause).pwr = { s.pwr with seqCause := some cause } := by
  have hask (u : State) : (u.askFlush cause).pwr = u.pwr := congrArg Steady.pwr (u.steady_askFlush cause)
  rw [powerSequence_eq, hask, pwr_quiesce, pwr_dropInterlock]
  rfl

theorem State.ilkOut_powerSequence (s : State) (cause : Nat) : (s.powerSequence cause).ilkOut = false := by
  have hquiesce (u : State) : u.quiesce.reg Reg.RED_STAT = u.reg Reg.RED_STAT :=
    reg_ite rfl ((reg_raise _ (by decide)).trans (reg_setReg_other _ _ (by decide)))
  rw [powerSequence_eq, ilkOut, bit_of_reg (reg_of_steady (steady_askFlush ..) (by decide)), bit_of_reg (hquiesce _)]
  exact ilkOut_dropInterlock _

theorem State.thermalShut_shuts {s : State} (hoff : s.off = false) (htrip : s.pwr.trip = false) :
    s.thermalShut.pwr.trip = true ∧
      (s.pwr.seqCause = none → s.thermalShut.pwr.seqCause = some 2 ∧ s.thermalShut.ilkOut = false) := by
  rw [thermalShut_eq, if_neg (by rw [hoff, htrip]; decide)]
  split
  · next h => exact ⟨rfl, fun hnone => by rw [tripped, withPwr, hnone] at h; cases h⟩
  · rw [pwr_powerSequence]
    exact ⟨rfl, fun _ => ⟨rfl, ilkOut_powerSequence ..⟩⟩

theorem thermalShutdown_shuts (analog : Fin 4) (s : State) (hoff : s.off = false) (htrip : s.pwr.trip = false)
    (hdigital : analog.val = 0 → s.bit Reg.THM_STAT 2 = true) :
    Completes (.thermalShutdown analog) s fun t => t.pwr.trip = true ∧
      (s.pwr.seqCause = none → t.pwr.seqCause = some 2 ∧ t.ilkOut = false) := by
  by_cases hanalog : analog.val = 0
  · have hexec : exec (.thermalShutdown analog) s = .next s.thermalShut :=
      (if_pos hanalog).trans (congrArg Host.Outcome.next (if_pos (hdigital hanalog)))
    exact ⟨_, hexec, State.thermalShut_shuts hoff htrip⟩
  · have hexec : exec (.thermalShutdown analog) s = .next (s.setFld Reg.THM_ATRIP 0 2 analog).thermalShut := if_neg hanalog
    exact ⟨_, hexec, State.thermalShut_shuts (s := s.setFld Reg.THM_ATRIP 0 2 analog) hoff htrip⟩

/-- Settles O45, clause by clause. -/
theorem thermalCommandsComplete : Obligations.ThermalCommandsComplete := by
  unfold Obligations.ThermalCommandsComplete
  refine ⟨fun l s hl hoff hreset => ?_, sensorRetire_retires, sensorRestore_restores, thermalAck_acks, swFloorWrite_sets,
    thmShutWrite_lowers, thermalShutdown_shuts⟩
  obtain ⟨t, hexec, -, -, -, hsamples⟩ := thermalEvaluation_evaluates l s hl hoff hreset
  exact ⟨t, hexec, hsamples⟩

end Sys2Proof.Machine
end

section
/-! PROOFS. The two inputs, their return, and TEST_B (R493, R494). -/

namespace Sys2Proof.Machine

/-! ### The bits of PWR_STATE and the input in use -/

/-- The condition an input of voltage `mv` has after its state before (R493). -/
def State.inputValid (s : State) (b : Bool) (mv : Nat) : Bool :=
  !ovNow (s.bit Reg.PWR_STATE (if b then 6 else 5)) mv && !uvNow (if b then s.pwr.uvB else s.pwr.uvA) mv

theorem uvNow_of_lt (was : Bool) {mv : Nat} (h : mv < 4300) : uvNow was mv = true := by
  cases was <;> exact decide_eq_true (by omega)

theorem uvNow_of_le (was : Bool) {mv : Nat} (h : 4500 ≤ mv) : uvNow was mv = false := by
  cases was <;> exact decide_eq_false (by omega)

theorem ovNow_of_lt (was : Bool) {mv : Nat} (h : 19000 < mv) : ovNow was mv = true := by
  cases was <;> exact decide_eq_true (by omega)

theorem ovNow_of_le (was : Bool) {mv : Nat} (h : mv ≤ 18500) : ovNow was mv = false := by
  cases was <;> exact decide_eq_false (by omega)

theorem State.inputValid_of_outside (s : State) (b : Bool) {mv : Nat} (h : mv < 4300 ∨ 19000 < mv) : s.inputValid b mv = false := by
  obtain hlow | hhigh := h
  · rw [inputValid, uvNow_of_lt _ hlow, Bool.not_true, Bool.and_false]
  · rw [inputValid, ovNow_of_lt _ hhigh, Bool.not_true, Bool.false_and]

theorem State.inputValid_of_inside (s : State) (b : Bool) {mv : Nat} (hlow : 4500 ≤ mv) (hhigh : mv ≤ 18500) :
    s.inputValid b mv = true := by
  rw [inputValid, ovNow_of_le _ hhigh, uvNow_of_le _ hlow]
  rfl

/-- The bits of PWR_STATE that a change of an input shows. -/
def State.inputShown (s : State) (b : Bool) (mv : Nat) : State :=
  ((s.withPwr (if b then { s.pwr with uvB := uvNow s.pwr.uvB mv } else { s.pwr with uvA := uvNow s.pwr.uvA mv })).setBit Reg.PWR_STATE
    (if b then 6 else 5) (ovNow (s.bit Reg.PWR_STATE (if b then 6 else 5)) mv)).setBit Reg.PWR_STATE (if b then 4 else 3) (s.inputValid b mv)

/-- Registers but those of the interrupts, power but what the inputs' conditions are, and what the choice of an input reads. -/
structure InputKept (s t : State) : Prop where
  reg : ∀ k, k ∉ raiseKeys pPWR → t.reg k = s.reg k
  off : t.off = s.off
  seqCause : t.pwr.seqCause = s.pwr.seqCause

theorem InputKept.refl (s : State) : InputKept s s := ⟨fun _ _ => rfl, rfl, rfl⟩

theorem InputKept.trans {s t u : State} (h : InputKept s t) (h' : InputKept t u) : InputKept s u :=
  ⟨fun k hk => (h'.reg k hk).trans (h.reg k hk), h'.off.trans h.off, h'.seqCause.trans h.seqCause⟩

theorem InputKept.raiseIf (s : State) (c : Bool) (i : Nat) : InputKept s (s.raiseIf c pPWR i) :=
  ⟨fun _ hk => s.reg_raiseIf hk, State.raiseIf_off .., by rw [State.raiseIf_pwr]⟩

theorem State.inputReads_kept (s : State) (b : Bool) (mv : Nat) : InputKept (s.inputShown b mv) (s.inputReads b mv) := by
  have hsince (u : State) (c : Bool) : InputKept u (if c then u.withPwr { u.pwr with aFrom := u.frcNow } else u) := by
    split
    · exact ⟨fun _ _ => rfl, rfl, rfl⟩
    · exact .refl u
  cases b
  · exact ((hsince _ _).trans (.raiseIf ..)).trans (.raiseIf ..)
  · exact ((hsince _ _).trans (.raiseIf ..)).trans (.raiseIf ..)

/-- An input's bit shows its condition, and the other input's bit stays. -/
theorem State.bit_inputShown (s : State) (b c : Bool) (mv : Nat) :
    (s.inputShown b mv).bit Reg.PWR_STATE (if c then 4 else 3) =
      if c = b then s.inputValid b mv else s.bit Reg.PWR_STATE (if c then 4 else 3) := by
  rw [inputShown, bit_setBit _ _ _ _ (by cases b <;> decide), bit_setBit _ _ _ _ (by cases b <;> decide)]
  cases b <;> cases c <;> rfl

theorem State.source_inputShown (s : State) (b : Bool) (mv : Nat) : (s.inputShown b mv).source = s.source := by
  rw [source, inputShown, fld_setBit_other _ (by cases b <;> decide) (by cases b <;> decide),
    fld_setBit_other _ (by cases b <;> decide) (by cases b <;> decide)]
  rfl

/-- The input's bit of PWR_STATE after it was read; the other's bit, the input in use and the choice of TEST_B stay. -/
theorem State.bit_inputReads (s : State) (b c : Bool) (mv : Nat) : (s.inputReads b mv).bit Reg.PWR_STATE (if c then 4 else 3) =
    if c = b then s.inputValid b mv else s.bit Reg.PWR_STATE (if c then 4 else 3) :=
  (bit_of_reg ((s.inputReads_kept b mv).reg _ (by decide)) _).trans (s.bit_inputShown b c mv)

theorem State.source_inputReads (s : State) (b : Bool) (mv : Nat) : (s.inputReads b mv).source = s.source :=
  (fld_of_reg ((s.inputReads_kept b mv).reg _ (by decide)) 0 2).trans (s.source_inputShown b mv)

theorem State.off_inputReads (s : State) (b : Bool) (mv : Nat) : (s.inputReads b mv).off = s.off :=
  (s.inputReads_kept b mv).off

theorem State.seqCause_inputReads (s : State) (b : Bool) (mv : Nat) : (s.inputReads b mv).pwr.seqCause = s.pwr.seqCause :=
  (s.inputReads_kept b mv).seqCause.trans (by cases b <;> rfl)

/-! ### The choice of the input (R494) -/

/-- The bits of PWR_STATE that say which inputs are valid stay. -/
def ValidBits (s t : State) : Prop := ∀ i, i = 3 ∨ i = 4 → t.bit Reg.PWR_STATE i = s.bit Reg.PWR_STATE i

theorem ValidBits.refl (s : State) : ValidBits s s := fun _ _ => rfl

theorem ValidBits.trans {s t u : State} (h : ValidBits s t) (h' : ValidBits t u) : ValidBits s u :=
  fun i hi => (h' i hi).trans (h i hi)

theorem ValidBits.of_reg {s t : State} (h : t.reg Reg.PWR_STATE = s.reg Reg.PWR_STATE) : ValidBits s t :=
  fun i _ => State.bit_of_reg h i

theorem ValidBits.ite {c : Prop} [Decidable c] {s t u : State} (ht : ValidBits s t) (hu : ValidBits s u) :
    ValidBits s (if c then t else u) := by
  split
  · exact ht
  · exact hu

theorem State.validBits_setBit (s : State) {i : Nat} (v : Bool) (hi : 4 < i ∧ i < 32) : ValidBits s (s.setBit Reg.PWR_STATE i v) := by
  intro j hj
  rw [bit_setBit _ _ _ _ hi.2, if_neg (by omega)]

theorem State.validBits_setSource (s : State) (v : Nat) : ValidBits s (s.setFld Reg.PWR_STATE 0 2 v) :=
  fun i hi => s.bit_setFld_other (by omega) (by omega)

theorem State.validBits_returnShown (s : State) : ValidBits s s.returnShown := s.validBits_setBit _ (by decide)

theorem State.validBits_switchTo (s : State) (src : Nat) : ValidBits s (s.switchTo src) :=
  (s.validBits_setSource src).trans (.of_reg ((reg_raise _ (by decide)).trans ((reg_bump ..).trans (if_neg (by decide)))))

theorem State.reg_powerSequence (s : State) (cause : Nat) : (s.powerSequence cause).reg Reg.PWR_STATE = s.reg Reg.PWR_STATE := by
  have hquiesce (u : State) : u.quiesce.reg Reg.PWR_STATE = u.reg Reg.PWR_STATE :=
    reg_ite rfl ((reg_raise _ (by decide)).trans (reg_setReg_other _ _ (by decide)))
  rw [powerSequence_eq, reg_of_steady (steady_askFlush ..) (by decide), hquiesce, reg_dropInterlock _ (by decide) (by decide)]
  rfl

theorem State.validBits_holdUp (s : State) : ValidBits s s.holdUp := by
  have hsource := s.validBits_setSource 0
  unfold holdUp
  dsimp only
  refine .ite hsource ((hsource.trans (validBits_setBit (i := 8) _ true (by decide))).trans (.of_reg ?_))
  rw [reg_powerSequence]
  rfl

theorem State.validBits_chooseInput (s : State) : ValidBits s s.chooseInput := by
  have hswitch (src : Nat) := s.validBits_switchTo src
  have hhold := s.validBits_holdUp
  have hset (src : Nat) := s.validBits_setSource src
  unfold chooseInput
  dsimp only
  refine ValidBits.trans ?_ (validBits_returnShown _)
  refine .ite (.refl s) (.ite ?_ (.ite (.ite (hswitch 2) hhold) (.ite (.ite (hswitch 1) hhold) (.ite (hswitch 2) (.refl s)))))
  exact ValidBits.trans (.ite (hset 1) (.ite (hset 2) (.refl s))) (validBits_setBit _ _ (by decide))

theorem State.source_returnShown (s : State) : s.returnShown.source = s.source := s.fld_setBit_other (by decide) (by decide)

theorem State.source_switchTo (s : State) {src : Nat} (h : src < 4) : (s.switchTo src).source = src := by
  rw [source, switchTo, fld_of_reg (reg_raise _ (by decide)), fld_of_reg ((reg_bump ..).trans (if_neg (by decide))), fld_setFld_same _ (by decide)]
  exact Nat.mod_eq_of_lt h

/-- The input in use is lost and the other is valid: the other takes over. -/
theorem State.source_chooseInput {s : State} (b : Bool) (hoff : s.off = false) (hseq : s.pwr.seqCause = none)
    (hsource : s.source = if b then 2 else 1) (hlost : s.bit Reg.PWR_STATE (if b then 4 else 3) = false)
    (hother : s.bit Reg.PWR_STATE (if b then 3 else 4) = true) : s.chooseInput.source = if b then 1 else 2 := by
  unfold chooseInput
  dsimp only
  rw [source_returnShown, hoff, hseq, hsource, if_neg (by decide)]
  cases b
  · have hlostA : s.aValid = false := hlost
    have hotherB : s.bValid = true := hother
    rw [if_neg (by decide), if_pos ⟨rfl, by rw [hlostA]; rfl⟩, if_pos hotherB]
    exact s.source_switchTo (by decide)
  · have hlostB : s.bValid = false := hlost
    have hotherA : s.aValid = true := hother
    rw [if_neg (by decide), if_neg (by simp), if_pos ⟨rfl, by rw [hlostB]; rfl⟩, if_pos hotherA]
    exact s.source_switchTo (by decide)

theorem vinInvalid_switches (b : Bool) (mv : BitVec 16) (cycle : Nat) (s : State) (hmv : mv.toNat < 4300 ∨ 19000 < mv.toNat) :
    Completes (.vinInvalid b mv cycle) s fun t => t.bit Reg.PWR_STATE (if b then 4 else 3) = false ∧
      (s.off = false → s.pwr.seqCause = none → s.source = (if b then 2 else 1) →
        s.bit Reg.PWR_STATE (if b then 3 else 4) = true → t.source = (if b then 1 else 2)) := by
  have hlost : ((s.atCycle cycle).inputReads b mv.toNat).bit Reg.PWR_STATE (if b then 4 else 3) = false := by
    rw [State.bit_inputReads, if_pos rfl, State.inputValid_of_outside _ b hmv]
  refine ⟨_, rfl, (State.validBits_chooseInput _ _ (by cases b <;> simp)).trans hlost, fun hoff hseq hsource hother => ?_⟩
  refine State.source_chooseInput b ((State.off_inputReads ..).trans hoff) ((State.seqCause_inputReads ..).trans hseq)
    ((State.source_inputReads ..).trans hsource) hlost ?_
  have hkeep := (s.atCycle cycle).bit_inputReads b (!b) mv.toNat
  cases b <;> exact hkeep.trans hother

theorem vinValid_shows (b : Bool) (mv : BitVec 16) (cycle : Nat) (s : State) (hlow : 4500 ≤ mv.toNat) (hhigh : mv.toNat ≤ 18500) :
    Completes (.vinValid b mv cycle) s fun t => t.bit Reg.PWR_STATE (if b then 4 else 3) = true := by
  refine ⟨_, rfl, (State.validBits_chooseInput _ _ (by cases b <;> simp)).trans ?_⟩
  rw [State.bit_inputReads, if_pos rfl, State.inputValid_of_inside _ b hlow hhigh]

/-! ### The return to VIN_A, and TEST_B (R494) -/

theorem State.source_takeBack (s : State) : s.takeBack.source = 1 := by
  rw [source, takeBack, fld_of_reg ((reg_bump ..).trans (if_neg (by decide))), fld_setFld_same _ (by decide)]
  rfl

theorem State.reg_returnShown (s : State) {k : Nat} (hk : k ≠ Reg.PWR_STATE) : s.returnShown.reg k = s.reg k := by
  rw [returnShown, reg_setBit, if_neg hk]

theorem State.reg_switchTo (s : State) (src : Nat) {k : Nat} (hk : k ∉ [Reg.PWR_STATE, Reg.PWR_CNT] ++ raiseKeys pPWR) :
    (s.switchTo src).reg k = s.reg k := by
  simp only [List.mem_append, List.mem_cons, List.not_mem_nil, or_false, not_or] at hk
  obtain ⟨⟨hstate, hcnt⟩, hraise⟩ := hk
  rw [switchTo, reg_raise _ hraise, reg_bump, if_neg hcnt, reg_setFld, if_neg hstate]

theorem State.reg_takeBack (s : State) {k : Nat} (hk : k ∉ [Reg.PWR_STATE, Reg.PWR_CNT]) : s.takeBack.reg k = s.reg k := by
  simp only [List.mem_cons, List.not_mem_nil, or_false, not_or] at hk
  obtain ⟨hstate, hcnt⟩ := hk
  rw [takeBack, reg_bump, if_neg hcnt, reg_setFld, if_neg hstate]

theorem vinReturn_takesBack (cycle : Nat) (s : State) (hpend : s.bit Reg.PWR_STATE 7 = true)
    (haged : (s.atCycle cycle).agedNs s.pwr.aFrom s.returnDelay = true) :
    Completes (.vinReturn cycle) s fun t => t.source = 1 ∧ t.bit Reg.PWR_STATE 7 = false ∧
      t.fld Reg.PWR_CNT 16 16 = satAdd 0xFFFF (s.fld Reg.PWR_CNT 16 16) 1 ∧ t.bit (cReg pPWR OFF_INT_STAT) 1 = true ∧
      SameMem s t ∧ SameRegs s t ([Reg.PWR_STATE, Reg.PWR_CNT] ++ raiseKeys pPWR) := by
  have hexec : exec (.vinReturn cycle) s = .next ((s.atCycle cycle).takeBack.returnShown.raise pPWR 1) :=
    congrArg Host.Outcome.next (if_pos (by rw [Bool.and_eq_true]; exact ⟨hpend, haged⟩))
  refine ⟨_, hexec, ?_, ?_, ?_, State.bit_raise _ _ (by decide), sameMem_of_frame (execVinReturn_frame cycle s hexec), fun k hk => ?_⟩
  · rw [State.source, State.fld_of_reg (State.reg_raise _ (by decide))]
    exact (State.source_returnShown _).trans (State.source_takeBack _)
  · rw [State.bit_of_reg (State.reg_raise _ (by decide)), State.returnShown, State.bit_setBit_same _ _ _ (by decide),
      State.source_takeBack]
    rfl
  · rw [State.fld_of_reg (State.reg_raise _ (by decide)), State.fld_of_reg (State.reg_returnShown _ (by decide)), State.takeBack,
      State.fld_bump_same _ _ (by decide), State.fld_setFld_other _ (by decide) (by decide)]
    rfl
  · simp only [List.mem_append, not_or] at hk
    obtain ⟨hreg, hraise⟩ := hk
    rw [State.reg_raise _ hraise, State.reg_returnShown _ fun h => hreg (h ▸ .head _), State.reg_takeBack _ hreg]
    rfl

/-- What a write of PWR_CTRL can do: nothing but PWR_STATE, its counts and the interrupt of a switch. -/
theorem State.reg_pwrCtrlWrite (s : State) (v : Word) {k : Nat}
    (hk : k ∉ [Reg.PWR_CTRL, Reg.PWR_STATE, Reg.PWR_CNT] ++ raiseKeys pPWR) : (s.pwrCtrlWrite v).reg k = s.reg k := by
  obtain ⟨hctrl, hkeys⟩ : k ≠ Reg.PWR_CTRL ∧ k ∉ [Reg.PWR_STATE, Reg.PWR_CNT] ++ raiseKeys pPWR := by
    rwa [List.cons_append, List.mem_cons, not_or] at hk
  obtain ⟨hregs, hraise⟩ : k ∉ [Reg.PWR_STATE, Reg.PWR_CNT] ∧ k ∉ raiseKeys pPWR := by rwa [List.mem_append, not_or] at hkeys
  have hstate : k ≠ Reg.PWR_STATE := fun h => hregs (h ▸ .head _)
  have hstore : (s.storeReg Reg.PWR_CTRL v).reg k = s.reg k := s.reg_storeReg_apart v (by decide) hctrl
  unfold pwrCtrlWrite
  dsimp only
  refine reg_ite ?_ (reg_ite ?_ ?_)
  · rw [reg_returnShown _ hstate, reg_switchTo _ _ hkeys, hstore]
  · rw [reg_returnShown _ hstate, reg_takeBack _ hregs, hstore]
  · rw [reg_returnShown _ hstate, hstore]

theorem State.testB_pwrCtrlWrite (s : State) (v : Word) : (s.pwrCtrlWrite v).testB = bitOf v 0 := by
  have hstore : (s.storeReg Reg.PWR_CTRL v).testB = bitOf v 0 := s.bit_storeReg_same v (by decide) (by decide +kernel)
  have hkeep {t : State} (h : t.reg Reg.PWR_CTRL = (s.storeReg Reg.PWR_CTRL v).reg Reg.PWR_CTRL) : t.testB = bitOf v 0 :=
    (bit_of_reg h 0).trans hstore
  unfold pwrCtrlWrite
  dsimp only
  split
  · exact hkeep ((reg_returnShown _ (by decide)).trans (reg_switchTo _ _ (by decide)))
  · split
    · exact hkeep ((reg_returnShown _ (by decide)).trans (reg_takeBack _ (by decide)))
    · exact hkeep (reg_returnShown _ (by decide))

theorem testBWrite_chooses (m : Fin 8) (testB : Bool) (s : State)
    (hacc : s.accepts m Reg.PWR_CTRL (BitVec.ofNat 32 (b2n testB)) = true) :
    Completes (.testBWrite m testB) s fun t => t.testB = testB ∧ (testB = true → s.source = 1 → s.bValid = true → t.source = 2) ∧
      SameMem s t ∧ SameRegs s t ([Reg.PWR_CTRL, Reg.PWR_STATE, Reg.PWR_CNT] ++ raiseKeys pPWR) := by
  have hexec : exec (.testBWrite m testB) s =
      .next ((s.respond m true Reg.PWR_CTRL .ok 0).pwrCtrlWrite (BitVec.ofNat 32 (b2n testB))) :=
    congrArg Host.Outcome.next (State.gateWrite_eq hacc (by decide +kernel) _)
  have hbit : bitOf (BitVec.ofNat 32 (b2n testB)) 0 = testB := by cases testB <;> decide
  refine ⟨_, hexec, (State.testB_pwrCtrlWrite ..).trans hbit, fun htest hsource hvalid => ?_,
    sameMem_of_frame (execTestBWrite_frame m testB s hexec), fun k hk => State.reg_pwrCtrlWrite _ _ hk⟩
  have hstate (u : State) (v : Word) : (u.storeReg Reg.PWR_CTRL v).reg Reg.PWR_STATE = u.reg Reg.PWR_STATE :=
    u.reg_storeReg_apart v (by decide) (by decide)
  have hchosen : (((s.respond m true Reg.PWR_CTRL .ok 0).storeReg Reg.PWR_CTRL (BitVec.ofNat 32 (b2n testB))).testB &&
      ((s.respond m true Reg.PWR_CTRL .ok 0).storeReg Reg.PWR_CTRL (BitVec.ofNat 32 (b2n testB))).source == 1 &&
      ((s.respond m true Reg.PWR_CTRL .ok 0).storeReg Reg.PWR_CTRL (BitVec.ofNat 32 (b2n testB))).bValid) = true := by
    rw [State.testB, State.bit_storeReg_same _ _ (by decide) (by decide +kernel), hbit, htest, State.source,
      State.fld_of_reg (hstate _ _), State.bValid, State.bit_of_reg (hstate _ _)]
    change (true && s.source == 1 && s.bValid) = true
    rw [hsource, hvalid]
    rfl
  rw [State.pwrCtrlWrite, if_pos hchosen, State.source_returnShown, State.source_switchTo _ (by decide)]

end Sys2Proof.Machine
end

section
/-! PROOFS. The flush of the fault log (R447). -/

namespace Sys2Proof.Machine

/-! ### Numbers in memory -/

theorem leNat_map_range (f : Nat → Byte) (k : Nat) :
    leNat ((List.range (k + 1)).map f) = (f 0).toNat + 256 * leNat ((List.range k).map fun i => f (i + 1)) := by
  rw [List.range_succ_eq_map, List.map_cons, List.map_map]
  rfl

theorem leNat_toLE (k n : Nat) : leNat (toLE k n) = n % 256 ^ k := by
  induction k generalizing n with
  | zero => exact (Nat.mod_one n).symm
  | succ k ih =>
    have hrest : ((List.range k).map fun i => BitVec.ofNat 8 (n / 256 ^ (i + 1))) = toLE k (n / 256) :=
      List.map_congr_left fun i _ => by rw [Nat.div_div_eq_div_mul, Nat.pow_succ']
    rw [toLE, leNat_map_range, hrest, ih, Nat.pow_zero, Nat.div_one, BitVec.toNat_ofNat]
    change n % 256 + 256 * _ = _
    rw [Nat.pow_succ', Nat.mod_mul]

/-- A number stored is read back. -/
theorem State.loadN_storeN (s : State) (a n v : Nat) : (s.storeN a n v).loadN a n = v % 256 ^ n := by
  have hbytes := (s.wrote_setBytes a (toLE n v)).bytes
  rw [length_toLE] at hbytes
  rw [loadN, storeN, hbytes, leNat_toLE]

theorem State.sameMemOut_storeN (s : State) (a n v : Nat) : SameMemOut s (s.storeN a n v) a n :=
  s.sameMemOut_setBytes a (length_toLE n v).le

theorem SameMemOut.within {s t : State} {a n lo len : Nat} (h : SameMemOut s t a n) (hlo : lo ≤ a) (hhi : a + n ≤ lo + len) :
    SameMemOut s t lo len :=
  fun c hc => h c fun hin => hc (by omega)

theorem State.loadN_of_mem {s t : State} (h : t.mem = s.mem) (a n : Nat) : t.loadN a n = s.loadN a n := by
  simp only [loadN, bytes, byte_of_mem h]

/-! ### The flush begins -/

theorem State.length_histOrder (s : State) : s.histOrder.length ≤ 32 := by
  have hlt : s.fld Reg.FLT_HIST_PTR 0 5 < 2 ^ 5 := fld_lt ..
  unfold histOrder
  dsimp only
  split
  · rw [List.length_map, List.length_range]
  · rw [List.length_range]
    omega

/-- The bytes of the entries of a flush. -/
def State.histBytes (s : State) : List Byte :=
  s.histOrder.flatMap fun e => (List.range 8).flatMap fun w => toLE 4 (s.reg (Reg.FLT_HIST + 32 * e + 4 * w)).toNat

theorem State.length_histBytes (s : State) : s.histBytes.length = 32 * s.histOrder.length := by
  have hentry (e : Nat) :
      ((List.range 8).flatMap fun w => toLE 4 (s.reg (Reg.FLT_HIST + 32 * e + 4 * w)).toNat).length = 32 := by
    rw [List.length_flatMap, List.map_congr_left fun w _ => length_toLE 4 _]
    rfl
  rw [histBytes, List.length_flatMap, List.map_congr_left fun e _ => hentry e, List.map_const', List.sum_replicate, smul_eq_mul,
    Nat.mul_comm]

/-- The copy that a flush writes. -/
def State.flushCopy (s : State) : Nat := match chooseBank (s.fltSeq? 0) (s.fltSeq? 1) with | some b => 1 - b | none => 0

theorem State.flushCopy_lt (s : State) : s.flushCopy < 2 := by
  unfold flushCopy
  split <;> omega

/-- A flush that begins writes the bytes of its copy, counts words of MRAM, and is in progress. -/
theorem State.beginFlush_eq (s : State) (cause : Nat) : ∃ u n f, OnlyMem s u ∧ SameMemOut s u (fltCopy s.flushCopy) 0x1000 ∧
    s.beginFlush cause = { u.nvmCount n with flt := f } ∧ f.flush.isSome = true := by
  have hcount := s.length_histOrder
  have hbody := s.length_histBytes
  unfold beginFlush
  extract_lets qa qb copy seq a l body s1 s2 s3
  have h1 : OnlyMem s s1 := ((OnlyMem.refl s).setBytes _ _).setBytes _ _
  have h2 : OnlyMem s s2 := h1.setBytes _ _
  have h3 : OnlyMem s s3 := h2.setBytes _ _
  have hmem : SameMemOut s s3 a 0x1000 := by
    refine SameMemOut.trans (t := s2) (SameMemOut.trans (t := s1) (SameMemOut.trans (t := s.storeN (a + 0x40) 8 0) ?_ ?_) ?_) ?_
    · exact (s.sameMemOut_storeN _ _ _).within (by omega) (by omega)
    · exact (State.sameMemOut_setBytes _ _ (hbody.le : body.length ≤ _)).within (by omega) (by omega)
    · exact (State.sameMemOut_setBytes _ _ (n := 64) (by simp only [List.length_append, length_toLE, List.length_replicate]; omega)).within
        (by omega) (by omega)
    · exact (State.sameMemOut_storeN _ _ _ _).within (by omega) (by omega)
  exact ⟨s3, _, _, h3, hmem, rfl, rfl⟩

theorem State.reg_beginFlush (s : State) (cause : Nat) {k : Nat} (hk : k ≠ Reg.NVM_WORDS) : (s.beginFlush cause).reg k = s.reg k := by
  obtain ⟨u, n, f, honly, -, heq, -⟩ := s.beginFlush_eq cause
  rw [heq]
  exact ((u.reg_nvmCount n).2 k (by simpa using hk)).trans (honly.sameRegs k List.not_mem_nil)

theorem State.flush_beginFlush (s : State) (cause : Nat) : (s.beginFlush cause).flt.flush.isSome = true := by
  obtain ⟨u, n, f, -, -, heq, hsome⟩ := s.beginFlush_eq cause
  rw [heq]
  exact hsome

theorem State.sameMemOut_beginFlush (s : State) (cause : Nat) : SameMemOut s (s.beginFlush cause) (fltCopy 0) 0x2000 := by
  obtain ⟨u, n, f, -, hmem, heq, -⟩ := s.beginFlush_eq cause
  have hcopy := s.flushCopy_lt
  rw [heq]
  exact (hmem.within (by unfold fltCopy; omega) (by unfold fltCopy; omega)).trans fun _ _ => rfl

theorem fltFlush_begins (m : Fin 8) (en force : Bool) (s : State)
    (hacc : s.accepts m Reg.FLT_CTRL (BitVec.ofNat 32 (b2n en + 2 + 4 * b2n force)) = true) (hidle : s.flt.flush = none) :
    Completes (.fltFlush m en force) s fun t => t.flt.flush.isSome = true ∧ t.bit Reg.FLT_CTRL 0 = en ∧
      t.bit Reg.FLT_CTRL 2 = force ∧ SameMemOut s t (fltCopy 0) 0x2000 ∧ SameRegs s t [Reg.FLT_CTRL, Reg.NVM_WORDS] := by
  have hword : ∀ en force : Bool, bitOf (BitVec.ofNat 32 (b2n en + 2 + 4 * b2n force)) 0 = en ∧
      bitOf (BitVec.ofNat 32 (b2n en + 2 + 4 * b2n force)) 1 = true ∧
      bitOf (BitVec.ofNat 32 (b2n en + 2 + 4 * b2n force)) 2 = force := by
    decide
  obtain ⟨hen, hflush, hforce⟩ := hword en force
  have hexec : exec (.fltFlush m en force) s =
      .next ((s.respond m true Reg.FLT_CTRL .ok 0).fltCtrlWrite (BitVec.ofNat 32 (b2n en + 2 + 4 * b2n force))) :=
    congrArg Host.Outcome.next (State.gateWrite_eq hacc (by decide +kernel) _)
  generalize BitVec.ofNat 32 (b2n en + 2 + 4 * b2n force) = v at hexec hen hflush hforce
  have hwrite (u : State) (hu : u.flt.flush = none) : u.fltCtrlWrite v = (u.storeReg Reg.FLT_CTRL v).beginFlush 5 := by
    rw [State.fltCtrlWrite, if_pos hflush, State.askFlush, State.storeReg_flt, hu]
  rw [hwrite (s.respond m true Reg.FLT_CTRL .ok 0) hidle] at hexec
  have hbit {i : Nat} (hi : bitOf (writtenBits Reg.FLT_CTRL) i = true) (u : State) :
      ((u.storeReg Reg.FLT_CTRL v).beginFlush 5).bit Reg.FLT_CTRL i = bitOf v i :=
    (State.bit_of_reg (State.reg_beginFlush _ _ (by decide)) i).trans (u.bit_storeReg_same v (by decide) hi)
  refine ⟨_, hexec, State.flush_beginFlush .., (hbit (by decide +kernel) _).trans hen, (hbit (by decide +kernel) _).trans hforce,
    ?_, fun k hk => ?_⟩
  · have hstore : SameMemOut s ((s.respond m true Reg.FLT_CTRL .ok 0).storeReg Reg.FLT_CTRL v) (fltCopy 0) 0x2000 :=
      fun _ _ => State.byte_of_mem (by rw [State.storeReg_mem, State.respond_mem]) _
    exact hstore.trans (State.sameMemOut_beginFlush _ 5)
  · simp only [List.mem_cons, List.not_mem_nil, or_false, not_or] at hk
    obtain ⟨hctrl, hwords⟩ := hk
    rw [State.reg_beginFlush _ _ hwords, State.reg_storeReg_apart _ _ (by decide) hctrl]
    rfl

/-! ### The flush ends -/

/-- The commit word of a flush. -/
def flushCommit (x : Nat) : Nat := 0xF17C + 65536 * (x / 256 % 2) + 2 ^ 32 * (x / 512)

/-- The state as the last flush asked for ends, before its interrupt. -/
def State.committed (s : State) (x : Nat) : State :=
  let t := (s.storeN (fltCopy (x / 256 % 2) + 0x40) 8 (flushCommit x)).nvmCount 1
  { t with flt := { t.flt with flush := none } }

theorem State.flt_setBytes (s : State) (a : Nat) (l : List Byte) : (s.setBytes a l).flt = s.flt := by
  obtain ⟨red, heq⟩ := s.setBytes_eq a l
  rw [heq]

theorem State.pwr_setBytes (s : State) (a : Nat) (l : List Byte) : (s.setBytes a l).pwr = s.pwr := by
  obtain ⟨red, heq⟩ := s.setBytes_eq a l
  rw [heq]

theorem State.flushDone_last {s : State} {x : Nat} (hflush : s.flt.flush = some x) (hq : s.flt.flushQ = []) :
    s.flushDone = (s.committed x).raise pFLT 3 := by
  have hqueue : ((s.committed x).raise pFLT 3).flt.flushQ = [] := by
    rw [raise_flt]
    exact (congrArg FltSt.flushQ (s.flt_setBytes _ _)).trans hq
  unfold flushDone
  rw [hflush]
  dsimp only
  change (match ((s.committed x).raise pFLT 3).flt.flushQ with | [] => _ | c :: t => _) = _
  rw [hqueue]
  rfl

theorem State.reg_committed (s : State) (x : Nat) {k : Nat} (hk : k ≠ Reg.NVM_WORDS) : (s.committed x).reg k = s.reg k :=
  ((State.reg_nvmCount _ 1).2 k (by simpa using hk)).trans (State.reg_setBytes ..)

theorem flushDone_ends (x : Nat) (s : State) (hflush : s.flt.flush = some x) (hq : s.flt.flushQ = []) (hseq : s.pwr.seqCause = none) :
    Completes .flushDone s fun t => t.flt.flush = none ∧ t.bit (cReg pFLT OFF_INT_STAT) 3 = true ∧
      t.loadN (fltCopy (x / 256 % 2) + 0x40) 8 = (0xF17C + 65536 * (x / 256 % 2) + 2 ^ 32 * (x / 512)) % 2 ^ 64 ∧
      SameMemOut s t (fltCopy (x / 256 % 2) + 0x40) 8 ∧ SameRegs s t (Reg.NVM_WORDS :: raiseKeys pFLT) := by
  have hstay : ((s.committed x).raise pFLT 3).pwr.seqCause = none := by
    rw [State.raise_pwr]
    exact (congrArg PwrSt.seqCause (s.pwr_setBytes _ _)).trans hseq
  have hgoes : s.flushDone.sequenceGoesOn = (s.committed x).raise pFLT 3 := by
    rw [State.flushDone_last hflush hq, State.sequenceGoesOn, hstay]
    rfl
  have hmem : ((s.committed x).raise pFLT 3).mem = (s.storeN (fltCopy (x / 256 % 2) + 0x40) 8 (flushCommit x)).mem := by
    rw [State.raise_mem]
    rfl
  refine ⟨_, congrArg Host.Outcome.next hgoes, ?_, State.bit_raise _ _ (by decide), ?_, ?_, fun k hk => ?_⟩
  · rw [State.raise_flt]
    rfl
  · exact (State.loadN_of_mem hmem _ _).trans (State.loadN_storeN ..)
  · exact (s.sameMemOut_storeN (fltCopy (x / 256 % 2) + 0x40) 8 (flushCommit x)).trans fun a _ => State.byte_of_mem hmem a
  · rw [List.mem_cons, not_or] at hk
    obtain ⟨hwords, hraise⟩ := hk
    rw [State.reg_raise _ hraise, State.reg_committed _ _ hwords]

/-- Settles O44, clause by clause. -/
theorem powerAndFlushCommandsComplete : Obligations.PowerAndFlushCommandsComplete := by
  unfold Obligations.PowerAndFlushCommandsComplete
  exact ⟨vinInvalid_switches, vinValid_shows, vinReturn_takesBack, testBWrite_chooses, fltFlush_begins, flushDone_ends⟩

end Sys2Proof.Machine
end

section
/-! PROOFS. Commands of the host interfaces: MSI-X, PCIe and the SMBus (R462, R465, R466, R485, R492). -/

namespace Sys2Proof.Machine

/-! ### MSI-X messages (R465) -/

theorem msixMessage_sends (v : Nat) (l : List Nat) (s : State) (hrise : s.bus.intRise = v :: l) (hen : s.bit Reg.HIF_STAT 9 = true) :
    Completes .msixMessage s fun t => t.bus.intRise = l ∧ SameMem s t ∧
      (if s.bit Reg.HIF_STAT 10 || s.bit (Reg.HIF_MSIX + 16 * v + 12) 0 then
        t.bit (Reg.HIF_PBA + 4 * (v / 32)) (v % 32) = true ∧ t.outs = s.outs
       else t.outs = .msix v :: s.outs ∧ SameRegs s t []) := by
  have htaken : ({ s with bus := { s.bus with intRise := l } } : State).bit Reg.HIF_STAT 9 = true := hen
  have hexec : exec .msixMessage s = execMsixMessage s := rfl
  unfold execMsixMessage at hexec
  rw [hrise] at hexec
  dsimp only at hexec
  rw [htaken, if_neg (by decide)] at hexec
  by_cases hmasked : (s.bit Reg.HIF_STAT 10 || s.bit (Reg.HIF_MSIX + 16 * v + 12) 0) = true
  · refine ⟨_, hexec.trans (if_pos hmasked), rfl, fun _ => rfl, ?_⟩
    rw [if_pos hmasked]
    exact ⟨State.bit_setBit_same _ _ _ (Nat.mod_lt _ (by decide)), rfl⟩
  · refine ⟨_, hexec.trans (if_neg hmasked), rfl, fun _ => rfl, ?_⟩
    rw [if_neg hmasked]
    exact ⟨rfl, fun _ _ => rfl⟩

/-! ### A vector is unmasked (R465) -/

/-- Key of a vector's control word, and of the word of its pending bit. -/
abbrev vecCtrl (vec : Nat) : Nat := Reg.HIF_MSIX + 16 * vec + 12
abbrev pbaWord (vec : Nat) : Nat := Reg.HIF_PBA + 4 * (vec / 32)

theorem writtenBits_vecCtrl : ∀ vec : Fin 64, bitOf (writtenBits (vecCtrl vec)) 0 = true := by decide +kernel

theorem State.reg_sendPba (s : State) (vec : Nat) {k : Nat} (hk : k ≠ pbaWord vec) : (s.sendPba vec).reg k = s.reg k :=
  reg_ite ((s.reg_setBit (pbaWord vec) (vec % 32) false k).trans (if_neg hk)) rfl

theorem State.sendPba_sends {s : State} {vec : Nat} (hpend : s.bit (pbaWord vec) (vec % 32) = true)
    (hmask : s.bit (vecCtrl vec) 0 = false) (hen : s.bit Reg.HIF_STAT 9 = true) (hall : s.bit Reg.HIF_STAT 10 = false) :
    s.sendPba vec = (s.setBit (pbaWord vec) (vec % 32) false).emit (.msix vec) :=
  if_pos (by rw [hpend, hmask, hen, hall]; rfl)

theorem pageOf_vecCtrl {vec : Nat} (hvec : vec < 64) : pageOf (vecCtrl vec) = 0x00A := by
  unfold pageOf vecCtrl Reg.HIF_MSIX
  rw [if_pos (by omega)]
  omega

theorem State.hifWrite_vecCtrl (s : State) {vec : Nat} (v : Word) (hvec : vec < 64) :
    s.hifWrite (vecCtrl vec) v = (s.storeReg (vecCtrl vec) v).sendPba vec := by
  have hkey : vecCtrl vec = 0x0400A400 + 16 * vec + 12 := rfl
  have hindex : (vecCtrl vec - Reg.HIF_MSIX) / 16 = vec := by
    unfold vecCtrl
    omega
  unfold hifWrite Reg.BMX_PROT Reg.HIF_VMAP Reg.HIF_ALERT_EN
  rw [if_neg (by omega), if_neg (by omega), if_neg (by omega), if_pos (by unfold Reg.HIF_MSIX; omega), hindex]

theorem State.regEffect_vecCtrl (s : State) (m : Nat) {vec : Nat} (v : Word) (hvec : vec < 64) :
    s.regEffect m (vecCtrl vec) v = (s.storeReg (vecCtrl vec) v).sendPba vec := by
  have hoff : ¬ vecCtrl vec % 0x1000 < 0x100 := by
    unfold vecCtrl Reg.HIF_MSIX
    omega
  unfold regEffect
  dsimp only
  rw [pageOf_vecCtrl hvec, if_neg hoff]
  exact s.hifWrite_vecCtrl v hvec

theorem vecCtrl_notMem_takeoverRegs : ∀ vec : Fin 64, vecCtrl vec ∉ takeoverRegs := by decide

theorem vecCtrl_ne_pbaWord : ∀ vec : Fin 64, vecCtrl vec ≠ pbaWord vec := by decide

theorem vecCtrl_ne_stat : ∀ vec : Fin 64, Reg.HIF_STAT ≠ vecCtrl vec := by decide

theorem vectorUnmask_sends (m : Fin 8) (vec : Fin 64) (s : State)
    (hacc : s.accepts m (vecCtrl vec) (s.reg (vecCtrl vec) &&& ~~~ (1 : Word)) = true) :
    Completes (.vectorUnmask m vec) s fun t => t.bit (vecCtrl vec) 0 = false ∧
      (s.bit (pbaWord vec) (vec % 32) = true → s.bit Reg.HIF_STAT 9 = true → s.bit Reg.HIF_STAT 10 = false →
        t.bit (pbaWord vec) (vec % 32) = false ∧ t.outs = .msix vec :: s.outs) ∧
      SameMem s t ∧ SameRegs s t [vecCtrl vec, pbaWord vec] := by
  have hvec := vec.isLt
  have hoff := vecCtrl_notMem_takeoverRegs vec
  have hne := vecCtrl_ne_pbaWord vec
  generalize hv : s.reg (vecCtrl vec) &&& ~~~ (1 : Word) = v at hacc
  have hclear : bitOf v 0 = false := by
    rw [← hv]
    simp [bitOf]
  have hstore (u : State) {k : Nat} (hk : k ≠ vecCtrl vec) : (u.storeReg (vecCtrl vec) v).reg k = u.reg k :=
    u.reg_storeReg_apart v hoff hk
  have hmask (u : State) : (u.storeReg (vecCtrl vec) v).bit (vecCtrl vec) 0 = false :=
    (u.bit_storeReg_same v hoff (writtenBits_vecCtrl vec)).trans hclear
  have hexec : exec (.vectorUnmask m vec) s = .next (s.regWrite m (vecCtrl vec) v) :=
    congrArg (fun v => Host.Outcome.next (s.regWrite m (vecCtrl vec) v)) hv
  have hreg (k : Nat) := (State.reg_regWrite hacc k).trans (congrArg (State.reg · k) (State.regEffect_vecCtrl _ m v hvec))
  have houts : (s.regWrite m (vecCtrl vec) v).outs =
      (((s.respond m true (vecCtrl vec) .ok 0).storeReg (vecCtrl vec) v).sendPba vec).outs :=
    (s.gateWrite_outs _ hacc).trans (congrArg State.outs (State.regEffect_vecCtrl _ m v hvec))
  refine ⟨_, hexec, ?_, fun hpend hen hall => ?_, sameMem_of_mem ?_, fun k hk => ?_⟩
  · rw [State.bit_of_reg (hreg _), State.bit_of_reg (State.reg_sendPba _ _ hne), hmask]
  · have hsends := State.sendPba_sends ((State.bit_of_reg (hstore (s.respond m true (vecCtrl vec) .ok 0) hne.symm) _).trans hpend)
      (hmask _) ((State.bit_of_reg (hstore _ (vecCtrl_ne_stat vec)) 9).trans hen)
      ((State.bit_of_reg (hstore _ (vecCtrl_ne_stat vec)) 10).trans hall)
    rw [State.bit_of_reg (hreg _), houts, hsends]
    refine ⟨State.bit_setBit_same _ _ _ (Nat.mod_lt _ (by decide)), congrArg (Out.msix vec :: ·) (State.storeReg_outs ..)⟩
  · rw [State.regWrite_mem hacc, State.regEffect_vecCtrl _ m v hvec]
    exact ((State.sendPba_frame _ vec).2.2).trans (State.storeReg_mem ..)
  · simp only [List.mem_cons, List.not_mem_nil, or_false, not_or] at hk
    obtain ⟨hctrl, hpba⟩ := hk
    rw [hreg, State.reg_sendPba _ _ hpba, hstore _ hctrl]
    rfl

end Sys2Proof.Machine
end

section
/-! PROOFS. The PCIe link, the SMBus and JTAG (R462, R466, R478, R485, R486, R492). -/

namespace Sys2Proof.Machine

/-! ### The PCIe link (R492) -/

/-- The word of HIF_STAT that a change of the link shows. -/
def linkWord (speed width : Nat) (en mask : Bool) : Nat := b2n mask * 1024 + b2n en * 512 + width * 16 + speed

theorem State.reg_linkChange (s : State) (speed width : Nat) (en mask : Bool) :
    (s.linkChange speed width en mask).reg Reg.HIF_STAT = BitVec.ofNat 32 (linkWord speed width en mask) := by
  have hstat (v : Nat) (hv : v < 64) : Reg.HIF_STAT ≠ pbaWord v := by
    unfold pbaWord Reg.HIF_STAT Reg.HIF_PBA
    omega
  have hbase : ((s.setRegN Reg.HIF_STAT (linkWord speed width en mask)).raiseIf
      (s.fld Reg.HIF_STAT 0 8 != width * 16 + speed) 0x00A 2).reg Reg.HIF_STAT = BitVec.ofNat 32 (linkWord speed width en mask) := by
    rw [reg_raiseIf _ (by decide), reg_setRegN, if_pos rfl]
  unfold linkChange
  dsimp only
  exact List.foldlRecOn (motive := fun t : State => t.reg Reg.HIF_STAT = BitVec.ofNat 32 (linkWord speed width en mask)) _ _ hbase
    fun t ht v hv => (t.reg_sendPba v (hstat v (List.mem_range.1 hv))).trans ht

/-- The fields of HIF_STAT, which the word keeps apart. -/
theorem linkWord_fields : ∀ (speed width : Fin 5) (en mask : Bool),
    fld (BitVec.ofNat 32 (linkWord speed width en mask)) 0 4 = speed.val ∧
      fld (BitVec.ofNat 32 (linkWord speed width en mask)) 4 4 = width.val ∧
      bitOf (BitVec.ofNat 32 (linkWord speed width en mask)) 9 = en ∧ bitOf (BitVec.ofNat 32 (linkWord speed width en mask)) 10 = mask := by
  decide +kernel

theorem pcieLinkChange_shows (speed width : Fin 5) (en mask : Bool) (s : State) (hspeed : speed.val ≠ 0)
    (hwidth : width.val = 1 ∨ width.val = 2 ∨ width.val = 4) (hsilent : s.silent = false) (hperst : s.bus.perst = false) :
    Completes (.pcieLinkChange speed width en mask) s fun t => t.fld Reg.HIF_STAT 0 4 = speed.val ∧
      t.fld Reg.HIF_STAT 4 4 = width.val ∧ t.bit Reg.HIF_STAT 9 = en ∧ t.bit Reg.HIF_STAT 10 = mask ∧ SameMem s t := by
  have hexec : exec (.pcieLinkChange speed width en mask) s = .next (s.linkChange speed width en mask) :=
    (if_neg (by omega)).trans (congrArg _ (if_neg (by rw [hsilent, hperst]; decide)))
  obtain ⟨hs, hw, hen, hmask⟩ := linkWord_fields speed width en mask
  refine ⟨_, hexec, ?_, ?_, ?_, ?_, sameMem_of_frame (execPcieLinkChange_frame speed width en mask s hexec)⟩
  · rw [State.fld, State.reg_linkChange, hs]
  · rw [State.fld, State.reg_linkChange, hw]
  · rw [State.bit, State.reg_linkChange, hen]
  · rw [State.bit, State.reg_linkChange, hmask]

/-! ### The SMBus (R466, R485) -/

theorem alertResponse_releases (s : State) (h : s.alertHeld = false) :
    Completes .alertResponse s fun t => t.bus.smbAlert = false ∧ SameMem s t ∧ SameRegs s t [] :=
  ⟨_, congrArg Host.Outcome.next (if_neg (by rw [h]; decide)), rfl, fun _ => rfl, fun _ _ => rfl⟩

theorem smbAddr_sets (v : Word) (pec : Fin 3) (s : State) (hsilent : s.silent = false) (hpec : pec.val ≠ 2) :
    Completes (.smbAddr v pec) s fun t => t.bus.smbAddr = v ∧ SameMem s t ∧ SameRegs s t [] := by
  have hok : s.pecFails false pec = false := by
    rw [State.pecFails, beq_eq_false_iff_ne.2 hpec]
    rfl
  have hexec : exec (.smbAddr v pec) s = .next { s with bus := { s.bus with smbAddr := v } } :=
    congrArg Host.Outcome.next ((if_neg (by rw [hsilent]; decide)).trans (if_neg (by rw [hok]; decide)))
  exact ⟨_, hexec, rfl, fun _ => rfl, fun _ _ => rfl⟩

/-- The end of an SMBus write: ADDR advances, and STATUS is 0 after an answer OK. -/
def State.smbWritten (s : State) : State :=
  let st := match s.bus.last.status with | .ok => 0 | .quiet => 0 | .held => 0 | _ => 1
  { s.smbAdvance with bus := { s.smbAdvance.bus with smbStatus := st } }

theorem State.bus_smbWritten {s : State} (h : s.bus.last.status = .ok) :
    s.smbWritten.bus.smbStatus = 0 ∧ s.smbWritten.bus.smbAddr = s.bus.smbAddr + 4 := by
  rw [smbWritten, h]
  exact ⟨rfl, rfl⟩

theorem State.smbAddr_regWrite {s : State} {m a : Nat} {v : Word} (hacc : s.accepts m a v = true)
    (hbus : ((s.respond m true a .ok 0).regEffect m a v).bus = (s.respond m true a .ok 0).bus) :
    (s.regWrite m a v).bus.smbAddr = s.bus.smbAddr := by
  have hunlatch (u : State) : (u.unlatch m a).bus.smbAddr = u.bus.smbAddr := rfl
  rw [regWrite, hunlatch, gateWrite_accepts _ _ hacc]
  dsimp only
  rw [hbus]
  split
  · rw [journalReg_bus, hbus]
    rfl
  · rw [hbus]
    rfl

theorem smbWrite_warns (v : Word) (pec : Fin 3) (s : State) (hsilent : s.silent = false) (hpec : pec.val = 1)
    (haddr : s.bus.smbAddr = BitVec.ofNat 32 Reg.THM_WARN) (hacc : s.accepts 7 Reg.THM_WARN v = true) :
    Completes (.smbWrite v pec) s fun t => t.fld Reg.THM_WARN 0 8 = fld v 0 8 ∧ t.bus.smbStatus = 0 ∧
      t.bus.smbAddr = s.bus.smbAddr + 4 ∧ SameMem s t ∧ SameRegs s t [Reg.THM_WARN] := by
  have hok : s.pecFails true pec = false := by
    rw [State.pecFails, hpec]
    rfl
  have heffect (u : State) : u.regEffect 7 Reg.THM_WARN v = u.plainWrite Reg.THM_WARN v := rfl
  have hplain : (s.respond 7 true Reg.THM_WARN .ok 0).regEffect 7 Reg.THM_WARN v =
      (s.respond 7 true Reg.THM_WARN .ok 0).storeReg Reg.THM_WARN v :=
    (heffect _).trans (State.plainWrite_of_plain _ v (plainRows Reg.THM_WARN (by decide)))
  have hbus : ((s.respond 7 true Reg.THM_WARN .ok 0).regEffect 7 Reg.THM_WARN v).bus = (s.respond 7 true Reg.THM_WARN .ok 0).bus := by
    rw [hplain, State.storeReg_bus]
  have hexec : exec (.smbWrite v pec) s = .next (s.regWrite 7 Reg.THM_WARN v).smbWritten := by
    rw [← State.busWrite_of_accepts hacc (by decide)]
    refine congrArg Host.Outcome.next ((if_neg (by rw [hsilent]; decide)).trans ((if_neg (by rw [hok]; decide)).trans ?_))
    rw [haddr]
    exact if_pos (by decide)
  obtain ⟨hstatus, hadvance⟩ := State.bus_smbWritten (State.regWrite_last hacc hbus)
  have hreg (k : Nat) : (s.regWrite 7 Reg.THM_WARN v).smbWritten.reg k =
      ((s.respond 7 true Reg.THM_WARN .ok 0).storeReg Reg.THM_WARN v).reg k :=
    (State.reg_regWrite hacc k).trans (by rw [hplain])
  refine ⟨_, hexec, ?_, hstatus, hadvance.trans (by rw [State.smbAddr_regWrite hacc hbus]), sameMem_of_mem ?_, fun k hk => ?_⟩
  · rw [State.fld_of_reg (hreg _), State.fld_storeReg_same _ _ (by decide) (by decide +kernel)]
  · exact (State.regWrite_mem hacc).trans (by rw [hplain, State.storeReg_mem]; rfl)
  · rw [hreg, State.reg_storeReg_apart _ _ (by decide) (by simpa using hk)]
    rfl

/-! ### Reads that answer (R485, R486) -/

/-- An accepted read of a register that advances no index: the word answered, and nothing but the latches and the drawn values
moves. -/
theorem State.busRead_data {s : State} {m a : Nat} (hacc : s.acceptsRead m a = true) (hstay : a ∉ advancingRegs) :
    (s.busRead m a).bus.last = ⟨m, false, a, .ok, s.readWord a⟩ ∧ (s.busRead m a).bus.smbAddr = s.bus.smbAddr ∧
      (s.busRead m a).jtag = s.jtag ∧ SameMem s (s.busRead m a) ∧ SameRegs s (s.busRead m a) [] := by
  simp only [advancingRegs, List.mem_cons, List.not_mem_nil, or_false, not_or] at hstay
  obtain ⟨hcrs, hsub, hsuba⟩ := hstay
  obtain ⟨l, hfold, -⟩ := s.latchHigh_latches m a (wideAt a - 1)
  have hread := busRead_answers hacc
  dsimp only at hread
  rw [latchHigh_eq, hfold, if_neg hsub, if_neg hsuba, if_neg hcrs] at hread
  rw [hread]
  split
  · exact ⟨rfl, rfl, rfl, fun _ => rfl, fun _ _ => rfl⟩
  · exact ⟨rfl, rfl, rfl, fun _ => rfl, fun _ _ => rfl⟩

theorem State.not_silent_of_acceptsRead {s : State} {m a : Nat} (h : s.acceptsRead m a = true) : s.silent = false := by
  simp only [acceptsRead, Bool.and_eq_true, Bool.not_eq_true'] at h
  obtain ⟨⟨⟨⟨⟨⟨⟨hoff, hreset⟩, -⟩, -⟩, -⟩, -⟩, -⟩, -⟩ := h
  rw [silent, hoff, hreset]
  rfl

/-- The addresses of registers. -/
theorem State.range_of_target_zero {s : State} {a : Nat} (h : s.target a = 0) : 0x04000000 ≤ a ∧ a < 0x08000000 := by
  unfold target at h
  split at h
  · cases h
  · split at h
    · assumption
    · repeat' split at h
      all_goals cases h

theorem smbRead_answers (s : State) (hacc : s.acceptsRead 7 s.bus.smbAddr.toNat = true) (hstay : s.bus.smbAddr.toNat ∉ advancingRegs) :
    Completes .smbRead s fun t => t.bus.smbData = s.readWord s.bus.smbAddr.toNat ∧ t.bus.smbStatus = 0 ∧
      t.bus.smbAddr = s.bus.smbAddr + 4 ∧ SameMem s t ∧ SameRegs s t [] := by
  have hrange := State.range_of_target_zero (State.target_of_acceptsRead hacc)
  obtain ⟨hlast, haddr, -, hmem, hregs⟩ := State.busRead_data hacc hstay
  have hexec : exec .smbRead s = .next (s.busRead 7 s.bus.smbAddr.toNat).smbDone.smbAdvance := by
    refine congrArg Host.Outcome.next ((if_neg ?_).trans ((if_pos hrange).trans (if_neg ?_)))
    · rw [State.not_silent_of_acceptsRead hacc]
      decide
    · rw [hlast]
      exact fun h => nomatch h
  generalize s.busRead 7 s.bus.smbAddr.toNat = u at hexec hlast haddr hmem hregs
  refine ⟨_, hexec, ?_, ?_, ?_, hmem, hregs⟩
  · exact congrArg (·.data) hlast
  · change (match u.bus.last.status with | .ok => 0 | .quiet => 0 | _ => 1) = 0
    rw [hlast]
  · exact congrArg (· + 4) haddr

/-- Settles O42, clause by clause. -/
theorem hostInterfaceCommandsComplete : Obligations.HostInterfaceCommandsComplete := by
  unfold Obligations.HostInterfaceCommandsComplete
  exact ⟨msixMessage_sends, vectorUnmask_sends, pcieLinkChange_shows, alertResponse_releases, smbAddr_sets, smbWrite_warns,
    smbRead_answers⟩

end Sys2Proof.Machine
end

section
/-! PROOFS. The JTAG instructions (R478, R486). -/

namespace Sys2Proof.Machine

theorem State.jtagIr_of_on {s : State} (hoff : s.off = false) (ir dr : Nat) (squelch : Bool) :
    s.jtagIr ir dr squelch = s.withJtag { s.jtag with ir := ir, dr := dr, squelch := s.jtag.squelch || squelch } :=
  if_neg (by rw [hoff]; decide)

/-- An instruction that selects a register is loaded, with what Capture-DR then loads; the lanes stay or go dark. -/
theorem jtagIr_loads {c : Instr} {s : State} {ir dr : Nat} {squelch : Bool} (hoff : s.off = false)
    (hexec : exec c s = .next (s.jtagIr ir dr squelch)) :
    Completes c s fun t => t.jtag.ir = ir ∧ t.jtag.dr = dr ∧ t.jtag.squelch = (s.jtag.squelch || squelch) ∧ SameMem s t ∧
      SameRegs s t [] := by
  rw [State.jtagIr_of_on hoff] at hexec
  exact ⟨_, hexec, rfl, rfl, rfl, fun _ => rfl, fun _ _ => rfl⟩

/-- An instruction of the boundary scan register is loaded. -/
theorem jtagScan_loads {c : Instr} {s : State} {ir : Nat} {squelch : Bool} (hoff : s.off = false)
    (hexec : exec c s = .next (s.jtagScan ir squelch)) :
    Completes c s fun t => t.jtag.ir = ir ∧ t.jtag.squelch = (s.jtag.squelch || squelch) ∧ SameMem s t ∧ SameRegs s t [] := by
  rw [State.jtagScan, State.jtagIr_of_on hoff] at hexec
  exact ⟨_, hexec, rfl, rfl, fun _ => rfl, fun _ _ => rfl⟩

/-- An instruction that makes the lanes dark. -/
theorem jtagScan_darkens {c : Instr} {s : State} {ir : Nat} (hoff : s.off = false) (hexec : exec c s = .next (s.jtagScan ir true)) :
    Completes c s fun t => t.jtag.ir = ir ∧ t.jtag.squelch = true ∧ SameMem s t ∧ SameRegs s t [] :=
  (jtagScan_loads hoff hexec).imp fun _ ⟨hir, hsquelch, hrest⟩ => ⟨hir, hsquelch.trans (Bool.or_true _), hrest⟩

theorem jtagIr_darkens {c : Instr} {s : State} {ir dr : Nat} (hoff : s.off = false)
    (hexec : exec c s = .next (s.jtagIr ir dr true)) :
    Completes c s fun t => t.jtag.ir = ir ∧ t.jtag.squelch = true ∧ SameMem s t ∧ SameRegs s t [] :=
  (jtagIr_loads hoff hexec).imp fun _ ⟨hir, _, hsquelch, hrest⟩ => ⟨hir, hsquelch.trans (Bool.or_true _), hrest⟩

theorem samplePreload_loads (s : State) (hoff : s.off = false) :
    Completes .samplePreload s fun t => t.jtag.ir = 0x02 ∧ t.jtag.squelch = s.jtag.squelch ∧ SameMem s t ∧ SameRegs s t [] :=
  (jtagScan_loads hoff rfl).imp fun _ ⟨hir, hsquelch, hrest⟩ => ⟨hir, hsquelch.trans (Bool.or_false _), hrest⟩

theorem jtagIr_captures {c : Instr} {s : State} {ir dr : Nat} (hoff : s.off = false)
    (hexec : exec c s = .next (s.jtagIr ir dr false)) :
    Completes c s fun t => t.jtag.ir = ir ∧ t.jtag.dr = dr ∧ SameMem s t ∧ SameRegs s t [] :=
  (jtagIr_loads hoff hexec).imp fun _ ⟨hir, hdr, _, hrest⟩ => ⟨hir, hdr, hrest⟩

/-! ### MEMACC and the reset of the port (R478, R486) -/

/-- No register, and no test of an access, reads what is not the squelch of the JTAG port. -/
theorem State.acceptsRead_withJtag (s : State) (j : JtagSt) (m a : Nat) : (s.withJtag j).acceptsRead m a = s.acceptsRead m a := rfl

theorem State.readWord_withJtag (s : State) (j : JtagSt) (a : Nat) : (s.withJtag j).readWord a = s.readWord a := rfl

theorem State.off_of_acceptsRead {s : State} {m a : Nat} (h : s.acceptsRead m a = true) : s.off = false := by
  have hsilent := not_silent_of_acceptsRead h
  rw [silent, Bool.or_eq_false_iff] at hsilent
  exact hsilent.1

theorem State.captured_read {u : State} {m a : Nat} {w : Word} (h : u.bus.last = ⟨m, false, a, .ok, w⟩) :
    u.captured = u.withJtag { u.jtag with status := 0, data := w } := by
  unfold captured
  rw [h]
  rfl

theorem memacc_reads (addr data : Word) (s : State) (hacc : s.acceptsRead 1 addr.toNat = true) (hstay : addr.toNat ∉ advancingRegs) :
    Completes (.memacc false true addr data) s fun t => t.jtag.ir = 0x40 ∧ t.jtag.status = 0 ∧
      t.jtag.data = s.readWord addr.toNat ∧ SameMem s t ∧ SameRegs s t [] := by
  have hoff := State.off_of_acceptsRead hacc
  obtain ⟨j, hj⟩ : ∃ j : JtagSt, j = { s.jtag with ir := 0x40, dr := s.jtag.dr, squelch := s.jtag.squelch || false } := ⟨_, rfl⟩
  obtain ⟨hlast, -, hjtag, hmem, hregs⟩ := State.busRead_data ((s.acceptsRead_withJtag j 1 addr.toNat).trans hacc) hstay
  have hexec : exec (.memacc false true addr data) s = .next ((s.withJtag j).busRead 1 addr.toNat).captured := by
    have hload : exec (.memacc false true addr data) s = .next (if !true || (s.jtagIr 0x40 s.jtag.dr false).off
      then s.jtagIr 0x40 s.jtag.dr false else ((s.jtagIr 0x40 s.jtag.dr false).busRead 1 addr.toNat).captured) := rfl
    rw [hload, State.jtagIr_of_on hoff, ← hj, if_neg]
    change ¬ (!true || s.off) = true
    rw [hoff]
    decide
  rw [State.captured_read hlast] at hexec
  refine ⟨_, hexec, ?_, rfl, s.readWord_withJtag j addr.toNat, fun a => hmem a, fun k hk => hregs k hk⟩
  change ((s.withJtag j).busRead 1 addr.toNat).jtag.ir = 0x40
  rw [hjtag]
  exact congrArg JtagSt.ir hj

theorem jtagTrst_resets (s : State) (hoff : s.off = false) : Completes .jtagTrst s fun t => t.jtag.ir = 1 ∧ t.jtag.dr = 0xB10245CB ∧
    t.bus.held = s.bus.held.filter (fun h => h.master != 1) ∧ SameMem s t ∧ SameRegs s t [] := by
  have hexec : exec .jtagTrst s = .next ((s.jtagIr 0x01 0xB10245CB false).resetMaster 1) := rfl
  rw [State.jtagIr_of_on hoff] at hexec
  exact ⟨_, hexec, rfl, rfl, rfl, fun _ => rfl, fun _ _ => rfl⟩

/-- Settles O43, instruction by instruction. -/
theorem jtagCommandsComplete : Obligations.JtagCommandsComplete := by
  unfold Obligations.JtagCommandsComplete
  exact ⟨fun _ h => jtagScan_darkens h rfl, samplePreload_loads, fun _ h => jtagIr_darkens h rfl, fun _ h => jtagIr_darkens h rfl,
    fun _ h => jtagScan_darkens h rfl, fun _ h => jtagScan_darkens h rfl, fun _ h => jtagIr_captures h rfl,
    fun _ h => jtagIr_captures h rfl, memacc_reads, jtagTrst_resets⟩

end Sys2Proof.Machine
end

section
/-! PROOFS. OPEN, GO, ADOPT and ABANDON of the takeover (R454 to R458). -/

namespace Sys2Proof.Machine

/-- A write of GLB_TAKEOVER is carried out at once. -/
theorem State.takeoverOp_of_accepts {s : State} {m op : Nat} (hacc : s.accepts m Reg.GLB_TAKEOVER (BitVec.ofNat 32 op) = true) :
    s.takeoverOp m op = (s.respond m true Reg.GLB_TAKEOVER .ok 0).takeoverWrite (BitVec.ofNat 32 op) :=
  gateWrite_eq hacc (by decide +kernel) _

theorem takeoverOpen_opens (m : Fin 8) (s : State) (hacc : s.accepts m Reg.GLB_TAKEOVER 1 = true) (horphaned : s.orphaned = true)
    (hgo : s.rst.goAt = none) (hadopt : s.rst.adopt = false) :
    Completes (.takeoverOpen m) s fun t => t.takeoverOpen = true ∧ t.orphaned = true ∧ SameMem s t ∧
      SameRegs s t [Reg.GLB_TAKEOVER_RES] := by
  have hopen (u : State) (ho : u.orphaned = true) (hg : u.rst.goAt = none) (ha : u.rst.adopt = false) :
      u.takeOpen = u.setBit Reg.GLB_TAKEOVER_RES 4 true := if_pos (by rw [ho, hg, ha]; rfl)
  have hexec : exec (.takeoverOpen m) s = .next ((s.respond m true Reg.GLB_TAKEOVER .ok 0).setBit Reg.GLB_TAKEOVER_RES 4 true) :=
    congrArg Host.Outcome.next ((State.takeoverOp_of_accepts hacc).trans (hopen _ horphaned hgo hadopt))
  have hcause (u : State) : (u.setBit Reg.GLB_TAKEOVER_RES 4 true).orphaned = u.orphaned :=
    congrArg (· == 2) (State.fld_of_reg (by rw [State.reg_setBit, if_neg (by decide)]) 4 2)
  refine ⟨_, hexec, State.bit_setBit_same _ _ _ (by decide), (hcause _).trans horphaned,
    sameMem_of_frame (execTakeoverOpen_frame m s hexec), fun k hk => ?_⟩
  rw [State.reg_setBit, if_neg (by simpa using hk)]
  rfl

/-! ### GO (R456) -/

/-- The register of the takeover's result stays. -/
def ResKept (s t : State) : Prop := t.reg Reg.GLB_TAKEOVER_RES = s.reg Reg.GLB_TAKEOVER_RES

theorem ResKept.of_steady {s t : State} (h : t.steady = s.steady) : ResKept s t := State.reg_of_steady h (by decide)

theorem State.steady_announceTck (s : State) (k : Tick) : (s.announceTck k).steady = s.steady :=
  steady_foldl _ _ _ fun t _ hn => steady_ite (steady_announce t _ _ _ (List.mem_range.1 hn)) rfl

theorem State.resKept_scheduleCollected (s : State) (k : Tick) (c : PendCommit) : ResKept s (s.scheduleCollected k c) := by
  have hjournal (u : State) (word : Nat) (b : Bool) : ResKept u (if b then u.journalPut (cReg c.page OFF_COMMIT + 1) word else u) :=
    reg_ite rfl rfl
  unfold scheduleCollected
  dsimp only
  refine Eq.trans ?_ (hjournal s (k.toNat % 2 ^ 32) s.red.journal)
  exact reg_ite (State.reg_of_steady (steady_setReg64 _ _ (by decide) (by decide)) (by decide)) rfl

/-- The commits that GO schedules, before it is noted. -/
def State.goSchedules (s : State) (k : Tick) : State :=
  let s := (s.takeRes 0 0).setBit Reg.GLB_TAKEOVER_RES 5 true
  let s := (s.commits.filter (·.collected)).foldl (fun (s : State) c => s.scheduleCollected k c) s
  let s := if s.tckDiffers && !s.pendingOn pTCK then s.addCommit ⟨pTCK, k, k, false, false⟩ else s
  if s.pendingOn pTCK then s.setTransition.announceTck k else s

theorem State.takeGo_of_passed {s : State} (h : s.goTests (reqTick s.now 32 (s.reg Reg.GLB_TAKEOVER_TICK).toNat) = (0, 0)) :
    s.takeGo = { (s.goSchedules (reqTick s.now 32 (s.reg Reg.GLB_TAKEOVER_TICK).toNat)).setBit Reg.GLB_TAKEOVER_RES 4 false with
      rst := { (s.goSchedules (reqTick s.now 32 (s.reg Reg.GLB_TAKEOVER_TICK).toNat)).rst with
        goAt := some (reqTick s.now 32 (s.reg Reg.GLB_TAKEOVER_TICK).toNat) } } := by
  unfold takeGo
  dsimp only
  rw [h]
  rfl

theorem State.resKept_goSchedules (s : State) (k : Tick) :
    ResKept ((s.takeRes 0 0).setBit Reg.GLB_TAKEOVER_RES 5 true) (s.goSchedules k) := by
  have hfold (u : State) (l : List PendCommit) : ResKept u (l.foldl (fun (s : State) c => s.scheduleCollected k c) u) :=
    List.foldlRecOn (motive := fun t => ResKept u t) l _ rfl fun t ht c _ => (t.resKept_scheduleCollected k c).trans ht
  have hannounce (u : State) : ResKept u (u.setTransition.announceTck k) :=
    ResKept.of_steady ((steady_announceTck ..).trans (u.steady_setBit _ _ (by decide)))
  unfold goSchedules
  extract_lets s1 s2 s3
  have h2 : ResKept s1 s2 := hfold s1 _
  have h3 : ResKept s1 s3 := reg_ite h2 h2
  exact reg_ite ((hannounce s3).trans h3) h3

theorem takeoverGo_schedules (m : Fin 8) (s : State) :
    let k := reqTick s.now 32 (s.reg Reg.GLB_TAKEOVER_TICK).toNat
    s.accepts m Reg.GLB_TAKEOVER 2 = true → s.goTests k = (0, 0) →
    Completes (.takeoverGo m) s fun t => t.rst.goAt = some k ∧ t.takeoverOpen = false ∧ t.bit Reg.GLB_TAKEOVER_RES 5 = true ∧
      t.fld Reg.GLB_TAKEOVER_RES 0 4 = 0 ∧ SameMem s t := by
  intro k hacc htests
  have hgo : (s.respond m true Reg.GLB_TAKEOVER .ok 0).goTests
      (reqTick (s.respond m true Reg.GLB_TAKEOVER .ok 0).now 32
        ((s.respond m true Reg.GLB_TAKEOVER .ok 0).reg Reg.GLB_TAKEOVER_TICK).toNat) = (0, 0) := htests
  have hexec : exec (.takeoverGo m) s = .next (s.respond m true Reg.GLB_TAKEOVER .ok 0).takeGo :=
    congrArg Host.Outcome.next (State.takeoverOp_of_accepts hacc)
  have hmem := sameMem_of_frame (execGo_frame m s hexec)
  rw [State.takeGo_of_passed hgo] at hexec hmem
  have hres := (s.respond m true Reg.GLB_TAKEOVER .ok 0).resKept_goSchedules k
  refine ⟨_, hexec, rfl, ?_, ?_, ?_, hmem⟩
  · exact State.bit_setBit_same _ _ _ (by decide)
  · refine (State.bit_setBit _ _ _ _ (by decide)).trans ((if_neg (by decide)).trans ((State.bit_of_reg hres 5).trans ?_))
    exact State.bit_setBit_same _ _ _ (by decide)
  · refine (State.fld_setBit_other _ (by decide) (by decide)).trans ((State.fld_of_reg hres 0 4).trans ?_)
    rw [State.fld_setBit_other _ (by decide) (by decide), State.takeRes, State.fld_setFld_other _ (by decide) (by decide),
      State.fld_setFld_same _ (by decide)]
    rfl

/-! ### ADOPT and ABANDON (R455, R458) -/

/-- The views of the held pages, adopted. -/
def State.adopted (s : State) : State :=
  let s := (s.commits.foldl (fun (s : State) c => s.cancelPage c) s).setBit Reg.GLB_TAKEOVER_RES 4 false
  (s.heldKeys.foldl (fun (s : State) k => s.adoptView k) s).setRegN Reg.CRS_SHD_COUNT s.crs.shd.count

theorem State.takeAdopt_of_orphaned {s : State} (h : s.orphaned = true) :
    s.takeAdopt = { (s.adopted.takeRes 9 0).setBit Reg.GLB_TAKEOVER_RES 5 false with
      rst := { s.adopted.rst with adopt := true, goAt := none } } :=
  if_neg (by rw [h]; decide)

theorem takeoverAdopt_adopts (m : Fin 8) (s : State) (hacc : s.accepts m Reg.GLB_TAKEOVER 3 = true) (horphaned : s.orphaned = true) :
    Completes (.takeoverAdopt m) s fun t => t.rst.adopt = true ∧ t.rst.goAt = none ∧ t.fld Reg.GLB_TAKEOVER_RES 0 4 = 9 ∧
      t.bit Reg.GLB_TAKEOVER_RES 5 = false ∧ SameMem s t := by
  have hexec : exec (.takeoverAdopt m) s = .next (s.respond m true Reg.GLB_TAKEOVER .ok 0).takeAdopt :=
    congrArg Host.Outcome.next (State.takeoverOp_of_accepts hacc)
  have hmem := sameMem_of_frame (execAdopt_frame m s hexec)
  have hadopt (u : State) (h : u.orphaned = true) := State.takeAdopt_of_orphaned h
  rw [hadopt (s.respond m true Reg.GLB_TAKEOVER .ok 0) horphaned] at hexec hmem
  refine ⟨_, hexec, rfl, rfl, ?_, State.bit_setBit_same _ _ _ (by decide), hmem⟩
  refine (State.fld_setBit_other _ (by decide) (by decide)).trans ?_
  rw [State.takeRes, State.fld_setFld_other _ (by decide) (by decide), State.fld_setFld_same _ (by decide)]
  rfl

theorem takeoverAbandon_abandons (m : Fin 8) (s : State) (hacc : s.accepts m Reg.GLB_TAKEOVER 4 = true)
    (hopen : s.takeoverOpen = true) :
    Completes (.takeoverAbandon m) s fun t => t.takeoverOpen = false ∧ t.fld Reg.GLB_TAKEOVER_RES 0 4 = 10 ∧ SameMem s t := by
  have habandon (u : State) (h : u.takeoverOpen = true) : u.takeAbandon =
      ((u.commits.foldl (fun (s : State) c => if c.collected then s.cancelPage c else s) u).setBit
        Reg.GLB_TAKEOVER_RES 4 false).takeRes 0xA 0 := if_pos h
  have hexec : exec (.takeoverAbandon m) s = .next (s.respond m true Reg.GLB_TAKEOVER .ok 0).takeAbandon :=
    congrArg Host.Outcome.next (State.takeoverOp_of_accepts hacc)
  have hmem := sameMem_of_frame (execAbandon_frame m s hexec)
  rw [habandon (s.respond m true Reg.GLB_TAKEOVER .ok 0) hopen] at hexec hmem
  refine ⟨_, hexec, ?_, ?_, hmem⟩
  · rw [State.takeoverOpen, State.takeRes, State.bit_setFld_other _ (by decide) (by decide),
      State.bit_setFld_other _ (by decide) (by decide), State.bit_setBit_same _ _ _ (by decide)]
  · rw [State.takeRes, State.fld_setFld_other _ (by decide) (by decide), State.fld_setFld_same _ (by decide)]
    rfl

/-- Settles O36, operation by operation. -/
theorem takeoverCommandsComplete : Obligations.TakeoverCommandsComplete := by
  unfold Obligations.TakeoverCommandsComplete
  exact ⟨takeoverOpen_opens, takeoverGo_schedules, takeoverAdopt_adopts, takeoverAbandon_abandons⟩

end Sys2Proof.Machine
end

section
/-! PROOFS. A measurement window ends and the next begins (R278, R288). -/

namespace Sys2Proof.Machine

/-! ### What the sending of telemetry leaves -/

/-- The registers that exports and the ends of windows write. -/
def exportKeys : List Nat := [Reg.MEA_DROP, Reg.MEA_STAT, Reg.MEA_RING_WR, Reg.MEA_WIN_AT] ++ raiseKeys pMEA

/-- Work of the measurement engine that leaves every register but those of the exports, and the values in force. -/
structure ExportKept (s t : State) : Prop where
  reg : ∀ k, k ∉ exportKeys → t.reg k = s.reg k
  force : t.force = s.force

theorem ExportKept.refl (s : State) : ExportKept s s := ⟨fun _ _ => rfl, rfl⟩

theorem ExportKept.trans {s t u : State} (h : ExportKept s t) (h' : ExportKept t u) : ExportKept s u :=
  ⟨fun k hk => (h'.reg k hk).trans (h.reg k hk), h'.force.trans h.force⟩

theorem ExportKept.ite {c : Prop} [Decidable c] {s t u : State} (ht : ExportKept s t) (hu : ExportKept s u) :
    ExportKept s (if c then t else u) := by
  split
  · exact ht
  · exact hu

theorem ExportKept.foldl {α : Type} (f : State → α → State) (l : List α) (s : State) (h : ∀ t a, ExportKept t (f t a)) :
    ExportKept s (l.foldl f s) :=
  List.foldlRecOn (motive := fun t => ExportKept s t) l _ (.refl s) fun t ht a _ => ht.trans (h t a)

theorem ExportKept.of_eq {s t : State} (hregs : t.regs = s.regs) (hforce : t.force = s.force) : ExportKept s t :=
  ⟨fun _ _ => by rw [State.reg, State.reg, hregs], hforce⟩

/-- Other state of the measurement engine. -/
def State.withMea (s : State) (m : MeaSt) : State := { s with mea := m }

theorem State.exportKept_withMea (s : State) (m : MeaSt) : ExportKept s (s.withMea m) := .of_eq rfl rfl

theorem State.exportKept_emit (s : State) (o : Out) : ExportKept s (s.emit o) := .of_eq rfl rfl

theorem State.exportKept_setReg (s : State) {k : Nat} (v : Word) (hk : k ∈ exportKeys) : ExportKept s (s.setReg k v) :=
  ⟨fun _ hj => s.reg_setReg_other v fun h => hj (h ▸ hk), rfl⟩

theorem State.exportKept_raise (s : State) (i : Nat) : ExportKept s (s.raise pMEA i) :=
  ⟨fun _ hk => s.reg_raise fun h => hk (List.mem_append_right _ h), raise_force ..⟩

theorem State.exportKept_raiseIf (s : State) (c : Bool) (i : Nat) : ExportKept s (s.raiseIf c pMEA i) :=
  .ite (s.exportKept_raise i) (.refl s)

/-! ### The exports (R286 to R290) -/

theorem State.exportKept_ringDrop (s : State) : ExportKept s s.ringDrop :=
  (((s.exportKept_setReg (k := Reg.MEA_DROP) _ (by decide)).trans (exportKept_setReg (k := Reg.MEA_STAT) _ _ (by decide))).trans
    (exportKept_withMea _ _)).trans (exportKept_raise _ 3)

theorem State.exportKept_toRing (s : State) (type flags len tick : Nat) (payload : List Byte) :
    ExportKept s (s.toRing type flags len tick payload).1 := by
  unfold toRing
  extract_lets size wr rd base node pad free
  split
  · exact s.exportKept_ringDrop
  · dsimp only
    exact ((((ExportKept.ite (.refl s) (s.exportKept_emit _)).trans (exportKept_emit _ _)).trans (exportKept_withMea _ _)).trans
      (exportKept_setReg (k := Reg.MEA_RING_WR) _ _ (by decide))).trans (exportKept_setReg (k := Reg.MEA_STAT) _ _ (by decide))

theorem State.exportKept_uplDrop (s : State) (n : Nat) : ExportKept s (s.uplDrop n) :=
  ((s.exportKept_setReg (k := Reg.MEA_DROP) _ (by decide)).trans (exportKept_withMea _ _)).trans (exportKept_raiseIf _ _ 4)

theorem State.exportKept_uplFlush (s : State) : ExportKept s s.uplFlush := .ite (.refl s) (s.exportKept_withMea _)

theorem State.exportKept_toUplink (s : State) (type flags len tick : Nat) (payload : List Byte) :
    ExportKept s (s.toUplink type flags len tick payload).1 := by
  have hflush : ExportKept s (if uplOverhead + s.mea.frame.length + len > s.uplMax ∨ s.mea.frameN = 255 then s.uplFlush else s) :=
    .ite s.exportKept_uplFlush (.refl s)
  unfold toUplink
  split
  · exact s.exportKept_uplDrop 1
  · dsimp only
    have hbuilt (m : MeaSt) := hflush.trans (exportKept_withMea _ m)
    exact .ite ((hbuilt _).trans (exportKept_uplFlush _)) (hbuilt _)

theorem State.exportKept_emitRec (s : State) (type flags len tick : Nat) (payload : List Byte) :
    ExportKept s (s.emitRec type flags len tick payload) := by
  unfold emitRec
  extract_lets s1
  have h1 : ExportKept s s1 := .ite (s.exportKept_toRing ..) (.refl s)
  exact .ite (h1.trans (exportKept_toUplink ..)) h1

/-- The END record of one path, and the reset of its count of losses. -/
theorem ExportKept.endRecord {s t : State} (h : ExportKept s t) (on : Bool) {r : State × Bool} (hr : ExportKept t r.1) (m : MeaSt) :
    ExportKept s (let u := if on then r else (t, false)
      if u.2 then u.1.withMea m else u.1) := by
  cases on
  · exact h
  · exact .ite ((h.trans hr).trans (State.exportKept_withMea _ _)) (h.trans hr)

theorem State.exportKept_emitEnd (s : State) (tick : Nat) : ExportKept s (s.emitEnd tick) := by
  unfold emitEnd
  dsimp only
  refine ExportKept.trans ?_ (exportKept_raiseIf _ _ 2)
  refine ExportKept.endRecord ?_ _ (exportKept_toUplink ..) _
  exact ExportKept.endRecord (.refl s) _ (s.exportKept_toRing ..) _

/-! ### The records of a window (R288) -/

theorem State.exportKept_emitPorts (s : State) (t : Nat) : ExportKept s (s.emitPorts t) :=
  (ExportKept.foldl _ _ s fun u _ => .ite (.refl u) (u.exportKept_emitRec ..)).trans
    (.foldl _ _ _ fun u _ => u.exportKept_emitRec ..)

theorem State.exportKept_emitSlots (s : State) (t : Nat) : ExportKept s (s.emitSlots t) :=
  .foldl _ _ _ fun u _ => u.exportKept_emitRec ..

theorem State.exportKept_emitMons (s : State) (t : Nat) : ExportKept s (s.emitMons t) :=
  .foldl _ _ _ fun u _ => u.exportKept_emitRec ..

theorem State.exportKept_emitHists (s : State) (t : Nat) : ExportKept s (s.emitHists t) :=
  .foldl _ _ _ fun u _ => .ite (.refl u) (u.exportKept_emitRec ..)

theorem State.exportKept_emitCells (s : State) (t : Nat) : ExportKept s (s.emitCells t) :=
  .foldl _ _ _ fun u _ => u.exportKept_emitRec ..

theorem State.exportKept_emitLoops (s : State) (t : Nat) : ExportKept s (s.emitLoops t) :=
  .foldl _ _ _ fun u _ => u.exportKept_emitRec ..

end Sys2Proof.Machine
end

section
/-! PROOFS. The measurement window (R278, R288). -/

namespace Sys2Proof.Machine

/-! ### A window ends and the next begins (R288) -/

/-- The records of a window leave. -/
def State.windowExports (s : State) : State :=
  let t := s.mea.endAt.toNat
  if !s.mea.on then s
  else
    let ext := decide (s.mea.extN + 1 ≥ max 1 (s.ffld Reg.MEA_DIV 0 16))
    let lp := decide (s.mea.loopN + 1 ≥ max 1 (s.ffld Reg.MEA_DIV 16 16))
    let s := ((((s.emitPorts t).emitSlots t).emitMons t).emitHists t)
    let s := if ext then s.emitCells t else s
    let s := if lp then s.emitLoops t else s
    let s := s.emitEnd t
    { s with mea := { s.mea with
        extN := if ext then 0 else s.mea.extN + 1, loopN := if lp then 0 else s.mea.loopN + 1
        cell := if ext then [] else s.mea.cell, loop := if lp then [] else s.mea.loop } }

theorem State.windowEnd_eq (s : State) : s.windowEnd = s.windowExports.windowBegin (s.mea.endAt + 1) := rfl

theorem State.exportKept_windowExports (s : State) : ExportKept s s.windowExports := by
  have hrecords (t : Nat) : ExportKept s ((((s.emitPorts t).emitSlots t).emitMons t).emitHists t) :=
    (((s.exportKept_emitPorts t).trans (exportKept_emitSlots _ t)).trans (exportKept_emitMons _ t)).trans (exportKept_emitHists _ t)
  have hcells (b : Bool) (t : Nat) (u : State) : ExportKept u (if b then u.emitCells t else u) := .ite (u.exportKept_emitCells t) (.refl u)
  have hloops (b : Bool) (t : Nat) (u : State) : ExportKept u (if b then u.emitLoops t else u) := .ite (u.exportKept_emitLoops t) (.refl u)
  unfold windowExports
  extract_lets t
  split
  · exact .refl s
  · exact (((hrecords t).trans (hcells _ t _)).trans (hloops _ t _)).trans ((exportKept_emitEnd _ t).trans (exportKept_withMea _ _))

/-- The registers as a window begins at tick `n`. -/
def State.windowShown (s : State) (n : Tick) : State :=
  let tooMany := decide (s.monitored.length > 4096)
  let t := (s.setReg Reg.MEA_WIN_AT (n.setWidth 32)).setFld Reg.MEA_STAT 16 16 (min 0xFFFF s.monitored.length)
  (t.setBit Reg.MEA_STAT 0 tooMany).raiseIf tooMany pMEA 5

theorem State.exportKept_windowShown (s : State) (n : Tick) : ExportKept s (s.windowShown n) :=
  (((s.exportKept_setReg (k := Reg.MEA_WIN_AT) _ (by decide)).trans (exportKept_setReg (k := Reg.MEA_STAT) _ _ (by decide))).trans
    (exportKept_setReg (k := Reg.MEA_STAT) _ _ (by decide))).trans (exportKept_raiseIf _ _ 5)

theorem State.winAt_windowShown (s : State) (n : Tick) : (s.windowShown n).reg Reg.MEA_WIN_AT = n.setWidth 32 := by
  unfold windowShown
  dsimp only
  rw [reg_raiseIf _ (by decide), reg_setBit, if_neg (by decide), reg_setFld, if_neg (by decide), reg_setReg, if_pos rfl]

theorem State.windowBegin_eq (s : State) (n : Tick) : ∃ m : MeaSt, s.windowBegin n = (s.windowShown n).withMea m ∧ m.start = n ∧
    m.isPartial = false ∧ m.endAt = BitVec.ofNat 64 ((n.toNat / (s.windowShown n).winLen + 1) * (s.windowShown n).winLen - 1) ∧
    m.out = [] ∧ m.hist = [] :=
  ⟨_, rfl, rfl, rfl, rfl, rfl, rfl⟩

theorem ExportKept.winLen {s t : State} (h : ExportKept s t) : t.winLen = s.winLen := by
  simp only [State.winLen, State.ffld, State.inForce, h.force]

/-- What a window's end leaves: the registers of the exports apart, all of them, the values in force, and the tick. -/
theorem State.exportKept_windowEnd (s : State) : ExportKept s s.windowEnd := by
  obtain ⟨m, hbegin, -⟩ := s.windowExports.windowBegin_eq (s.mea.endAt + 1)
  rw [windowEnd_eq, hbegin]
  exact (s.exportKept_windowExports.trans (exportKept_windowShown ..)).trans (exportKept_withMea ..)

/-- The state of a window that has just begun at tick `n`. -/
structure Begun (t : State) (n : Tick) : Prop where
  start : t.mea.start = n
  whole : t.mea.isPartial = false
  endAt : t.mea.endAt = BitVec.ofNat 64 ((n.toNat / t.winLen + 1) * t.winLen - 1)
  winAt : t.reg Reg.MEA_WIN_AT = n.setWidth 32
  out : t.mea.out = []
  hist : t.mea.hist = []

theorem State.begun_windowEnd (s : State) : Begun s.windowEnd (s.mea.endAt + 1) := by
  obtain ⟨m, hbegin, hstart, hwhole, hend, hout, hhist⟩ := s.windowExports.windowBegin_eq (s.mea.endAt + 1)
  rw [windowEnd_eq, hbegin]
  exact ⟨hstart, hwhole, hend.trans (by rw [(exportKept_withMea _ m).winLen]), winAt_windowShown .., hout, hhist⟩

theorem meaWindowEnd_ends (s : State) (hdue : s.windowDue = true) :
    Completes .meaWindowEnd s fun t => t.mea.start = s.mea.endAt + 1 ∧ t.mea.isPartial = false ∧
      t.mea.endAt = BitVec.ofNat 64 (((s.mea.endAt + 1).toNat / t.winLen + 1) * t.winLen - 1) ∧
      t.reg Reg.MEA_WIN_AT = (s.mea.endAt + 1).setWidth 32 ∧ t.mea.out = [] ∧ t.mea.hist = [] ∧ SameMem s t := by
  have hexec : exec .meaWindowEnd s = .next s.windowEnd := congrArg Host.Outcome.next (if_pos hdue)
  have h := s.begun_windowEnd
  exact ⟨_, hexec, h.start, h.whole, h.endAt, h.winAt, h.out, h.hist, sameMem_of_frame s.windowEnd_frame⟩

/-! ### MEA_WIN takes a value (R278) -/

/-- The window in progress when MEA_WIN takes a value. -/
def State.winCut (s : State) : State :=
  let w := s.winLen
  let b := max s.now.toNat s.mea.start.toNat
  s.withMea { s.mea with
    isPartial := decide (s.mea.start.toNat ≤ s.now.toNat) || b % w != 0
    endAt := BitVec.ofNat 64 ((b / w + 1) * w - 1) }

theorem State.meaWinTakes_eq (s : State) : s.meaWinTakes = s.windowSettle.winCut := rfl

theorem State.winLen_winCut (s : State) : s.winCut.winLen = s.winLen := rfl

theorem State.reg_storeReg_meaWin (s : State) (v : Word) : (s.storeReg Reg.MEA_WIN v).fld Reg.MEA_WIN 0 20 = Machine.fld v 0 20 :=
  s.fld_storeReg_same v (by decide) (by decide +kernel)

theorem exec_meaWinWrite {m : Fin 8} {v : Word} {s : State} (hacc : s.accepts m Reg.MEA_WIN v = true) (horphaned : s.orphaned = false) :
    exec (.meaWinWrite m v) s = .next (((s.respond m true Reg.MEA_WIN .ok 0).storeReg Reg.MEA_WIN v).meaWinTakes) := by
  have hstays : ((s.respond m true Reg.MEA_WIN .ok 0).storeReg Reg.MEA_WIN v).orphaned = s.orphaned :=
    congrArg (· == 2) (State.fld_of_reg (State.reg_storeReg_apart _ v (by decide) (by decide)) 4 2)
  refine congrArg Host.Outcome.next ((State.gateWrite_eq hacc (by decide +kernel) _).trans (if_neg ?_))
  rw [hstays, horphaned]
  decide

/-- A plain write of a register leaves what is due of the window. -/
theorem State.windowDue_stored (s : State) (m a : Nat) (v : Word) :
    ((s.respond m true a .ok 0).storeReg a v).windowDue = s.windowDue := by
  simp only [windowDue, storeReg_mea, storeReg_rce, now, storeReg_tck]
  rfl

theorem State.windowSettle_of_due {s : State} (h : s.windowDue = true) : s.windowSettle = s.windowEnd := if_pos h

theorem State.windowSettle_of_open {s : State} (h : s.windowDue = false) : s.windowSettle = s := if_neg (by rw [h]; decide)

theorem State.now_stored (s : State) (m a : Nat) (v : Word) : ((s.respond m true a .ok 0).storeReg a v).now = s.now := by
  rw [now, storeReg_tck]
  rfl

theorem State.mea_stored (s : State) (m a : Nat) (v : Word) : ((s.respond m true a .ok 0).storeReg a v).mea = s.mea :=
  storeReg_mea ..

theorem State.mem_stored (s : State) (m a : Nat) (v : Word) : ((s.respond m true a .ok 0).storeReg a v).mem = s.mem :=
  storeReg_mem ..

theorem meaWinWrite_cuts (m : Fin 8) (v : Word) (s : State) (hacc : s.accepts m Reg.MEA_WIN v = true) (horphaned : s.orphaned = false)
    (hopen : s.windowDue = false) :
    let b := max s.now.toNat s.mea.start.toNat
    Completes (.meaWinWrite m v) s fun t => t.fld Reg.MEA_WIN 0 20 = fld v 0 20 ∧ t.mea.start = s.mea.start ∧
      (s.mea.start.toNat ≤ s.now.toNat → t.mea.isPartial = true) ∧
      t.mea.endAt = BitVec.ofNat 64 ((b / t.winLen + 1) * t.winLen - 1) ∧ SameMem s t ∧ SameRegs s t [Reg.MEA_WIN] := by
  intro b
  have hexec := exec_meaWinWrite hacc horphaned
  rw [State.meaWinTakes_eq, State.windowSettle_of_open ((s.windowDue_stored ..).trans hopen)] at hexec
  have hmea := s.mea_stored m Reg.MEA_WIN v
  have hnow := s.now_stored m Reg.MEA_WIN v
  have hmem := s.mem_stored m Reg.MEA_WIN v
  have hfld := (s.respond m true Reg.MEA_WIN .ok 0).reg_storeReg_meaWin v
  have hregs (k : Nat) (hk : k ≠ Reg.MEA_WIN) :=
    (s.respond m true Reg.MEA_WIN .ok 0).reg_storeReg_apart v (by decide : Reg.MEA_WIN ∉ takeoverRegs) hk
  generalize (s.respond m true Reg.MEA_WIN .ok 0).storeReg Reg.MEA_WIN v = u at hexec hmea hnow hmem hfld hregs
  have hb : max u.now.toNat u.mea.start.toNat = b := by rw [hmea, hnow]
  refine ⟨_, hexec, hfld, (congrArg MeaSt.start hmea : u.mea.start = _), fun hle => ?_, ?_, sameMem_of_mem hmem, fun k hk => hregs k (by simpa using hk)⟩
  · change (decide (u.mea.start.toNat ≤ u.now.toNat) || _) = true
    rw [hmea, hnow, decide_eq_true hle, Bool.true_or]
  · rw [State.winLen_winCut, ← hb]
    rfl

theorem meaWinWrite_ends (m : Fin 8) (v : Word) (s : State) (hacc : s.accepts m Reg.MEA_WIN v = true) (horphaned : s.orphaned = false)
    (hdue : s.windowDue = true) :
    Completes (.meaWinWrite m v) s fun t => t.fld Reg.MEA_WIN 0 20 = fld v 0 20 ∧ t.mea.start = s.mea.endAt + 1 ∧
      t.mea.endAt = BitVec.ofNat 64 ((max s.now.toNat (s.mea.endAt + 1).toNat / t.winLen + 1) * t.winLen - 1) ∧ SameMem s t := by
  have hexec := exec_meaWinWrite hacc horphaned
  rw [State.meaWinTakes_eq, State.windowSettle_of_due ((s.windowDue_stored ..).trans hdue)] at hexec
  have hmea := s.mea_stored m Reg.MEA_WIN v
  have hnow := s.now_stored m Reg.MEA_WIN v
  have hmem := s.mem_stored m Reg.MEA_WIN v
  have hfld := (s.respond m true Reg.MEA_WIN .ok 0).reg_storeReg_meaWin v
  generalize (s.respond m true Reg.MEA_WIN .ok 0).storeReg Reg.MEA_WIN v = u at hexec hmea hnow hmem hfld
  obtain ⟨-, htick, hend⟩ := u.windowEnd_frame
  have hnowEnd : u.windowEnd.now = u.now := htick
  have hstart : u.windowEnd.mea.start = s.mea.endAt + 1 := u.begun_windowEnd.start.trans (by rw [hmea])
  refine ⟨_, hexec, ?_, hstart, ?_, sameMem_of_mem (hend.trans hmem)⟩
  · exact (State.fld_of_reg (u.exportKept_windowEnd.reg _ (by decide)) 0 20).trans hfld
  · rw [State.winLen_winCut, ← hstart, ← hnow, ← hnowEnd]
    rfl

/-! ### MEA_CTRL.EN takes a value (R278) -/

/-- The bits in force that a write of a held register takes. -/
def forcedBits (a : Nat) : Word :=
  match regRow? (a % 0x100000000) with
  | some (r, _) => BitVec.ofNat 32 r.rw
  | none => 0

theorem State.inForce_setForce_same (s : State) (k : Nat) (v : Word) : (s.setForce k v).inForce k = v := Sparse.get_put_same ..

/-- A write of a held register comes into force at once while the machine runs normally. -/
theorem State.inForce_storeReg (s : State) {a : Nat} (v : Word) (ha : a ∉ takeoverRegs) (hheld : heldPage a = true)
    (hstate : s.mstate = 0) : (s.storeReg a v).inForce a = takeBits (s.inForce a) v (forcedBits a) := by
  unfold forcedBits storeReg
  cases hrow : regRow? (a % 0x100000000) with
  | none => exact (takeBits_zero _ _).symm
  | some e =>
    dsimp only
    rw [storeRow, noteWritten_of_other _ ha, hheld, hstate]
    by_cases hrw : e.1.rw = 0
    · rw [hrw]
      exact (takeBits_zero _ _).symm
    · rw [bne_iff_ne.2 hrw]
      exact inForce_setForce_same ..

theorem State.fbit_meaCtrl {s : State} (v : Word) (hstate : s.mstate = 0) :
    (s.storeReg Reg.MEA_CTRL v).fbit Reg.MEA_CTRL 0 = bitOf v 0 := by
  rw [fbit, s.inForce_storeReg v (by decide) (by decide) hstate, bitOf_takeBits _ _ (by decide +kernel)]

/-- Other state of the buses. -/
def State.withBus (s : State) (b : BusSt) : State := { s with bus := b }

theorem State.meaCtrlWrite_eq (s : State) (v : Word) :
    ∃ b, s.meaCtrlWrite v = (s.storeReg Reg.MEA_CTRL v).meaEnTakes.withBus b := by
  unfold meaCtrlWrite
  dsimp only
  split
  · exact ⟨_, rfl⟩
  · exact ⟨_, rfl⟩

theorem exec_meaEnWrite {m : Fin 8} {v : Word} {s : State} (hacc : s.accepts m Reg.MEA_CTRL v = true) :
    exec (.meaEnWrite m v) s = .next ((s.respond m true Reg.MEA_CTRL .ok 0).meaCtrlWrite v) :=
  congrArg Host.Outcome.next (State.gateWrite_eq hacc (by decide +kernel) _)

/-- What EN does while no window is due: EN 0 stops statistics, EN 1 starts them before the window's start. -/
theorem State.meaEnTakes_open {s : State} (h : s.windowDue = false) : ∃ m : MeaSt, s.meaEnTakes = s.withMea m ∧
    m.on = (s.fbit Reg.MEA_CTRL 0 && (s.mea.on || decide (s.now.toNat < s.mea.start.toNat))) := by
  unfold meaEnTakes
  rw [windowSettle_of_open h]
  cases s.fbit Reg.MEA_CTRL 0
  · exact ⟨_, rfl, rfl⟩
  · rw [if_pos rfl, Bool.true_and]
    by_cases hlt : s.now.toNat < s.mea.start.toNat
    · rw [if_pos hlt, decide_eq_true hlt, Bool.or_true]
      exact ⟨_, rfl, rfl⟩
    · rw [if_neg hlt, decide_eq_false hlt, Bool.or_false]
      exact ⟨_, rfl, rfl⟩

theorem State.meaEnTakes_stops {s : State} (hdue : s.windowDue = true) (hen : s.fbit Reg.MEA_CTRL 0 = false) :
    s.meaEnTakes = s.windowEnd.withMea { s.windowEnd.mea with on := false, slotNow := [] } := by
  unfold meaEnTakes
  rw [hen, windowSettle_of_due hdue]
  rfl

theorem meaEnWrite_takes (m : Fin 8) (v : Word) (s : State) (hacc : s.accepts m Reg.MEA_CTRL v = true) (hstate : s.mstate = 0)
    (hopen : s.windowDue = false) :
    Completes (.meaEnWrite m v) s fun t => t.bit Reg.MEA_CTRL 0 = bitOf v 0 ∧ t.fbit Reg.MEA_CTRL 0 = bitOf v 0 ∧
      t.mea.on = (bitOf v 0 && (s.mea.on || decide (s.now.toNat < s.mea.start.toNat))) ∧ SameMem s t ∧
      SameRegs s t [Reg.MEA_CTRL] := by
  have hexec := exec_meaEnWrite hacc
  obtain ⟨b, hwrite⟩ := (s.respond m true Reg.MEA_CTRL .ok 0).meaCtrlWrite_eq v
  rw [hwrite] at hexec
  have hbit := (s.respond m true Reg.MEA_CTRL .ok 0).bit_storeReg_same (i := 0) v (by decide : Reg.MEA_CTRL ∉ takeoverRegs)
    (by decide +kernel)
  have hfbit := State.fbit_meaCtrl (s := s.respond m true Reg.MEA_CTRL .ok 0) v hstate
  have hdue := (s.windowDue_stored m Reg.MEA_CTRL v).trans hopen
  have hmea := s.mea_stored m Reg.MEA_CTRL v
  have hnow := s.now_stored m Reg.MEA_CTRL v
  have hmem := s.mem_stored m Reg.MEA_CTRL v
  have hregs (k : Nat) (hk : k ≠ Reg.MEA_CTRL) :=
    (s.respond m true Reg.MEA_CTRL .ok 0).reg_storeReg_apart v (by decide : Reg.MEA_CTRL ∉ takeoverRegs) hk
  generalize (s.respond m true Reg.MEA_CTRL .ok 0).storeReg Reg.MEA_CTRL v = u at hexec hbit hfbit hdue hmea hnow hmem hregs
  obtain ⟨mea, htakes, hon⟩ := State.meaEnTakes_open hdue
  rw [htakes] at hexec
  refine ⟨_, hexec, hbit, hfbit, ?_, sameMem_of_mem hmem, fun k hk => hregs k (by simpa using hk)⟩
  rw [hfbit, hmea, hnow] at hon
  exact hon

theorem meaEnWrite_stops (m : Fin 8) (v : Word) (s : State) (hacc : s.accepts m Reg.MEA_CTRL v = true) (hstate : s.mstate = 0)
    (hdue : s.windowDue = true) (hen : bitOf v 0 = false) :
    Completes (.meaEnWrite m v) s fun t => t.bit Reg.MEA_CTRL 0 = false ∧ t.mea.on = false ∧ t.mea.start = s.mea.endAt + 1 ∧
      SameMem s t := by
  have hexec := exec_meaEnWrite hacc
  obtain ⟨b, hwrite⟩ := (s.respond m true Reg.MEA_CTRL .ok 0).meaCtrlWrite_eq v
  rw [hwrite] at hexec
  have hbit := (s.respond m true Reg.MEA_CTRL .ok 0).bit_storeReg_same (i := 0) v (by decide : Reg.MEA_CTRL ∉ takeoverRegs)
    (by decide +kernel)
  have hfbit := (State.fbit_meaCtrl (s := s.respond m true Reg.MEA_CTRL .ok 0) v hstate).trans hen
  have hended := (s.windowDue_stored m Reg.MEA_CTRL v).trans hdue
  have hmea := s.mea_stored m Reg.MEA_CTRL v
  have hmem := s.mem_stored m Reg.MEA_CTRL v
  generalize (s.respond m true Reg.MEA_CTRL .ok 0).storeReg Reg.MEA_CTRL v = u at hexec hbit hfbit hended hmea hmem
  rw [State.meaEnTakes_stops hended hfbit] at hexec
  obtain ⟨-, -, hend⟩ := u.windowEnd_frame
  have hstart := u.begun_windowEnd.start
  have hctrl := State.bit_of_reg (u.exportKept_windowEnd.reg Reg.MEA_CTRL (by decide)) 0
  generalize u.windowEnd = e at hexec hend hstart hctrl
  exact ⟨_, hexec, hctrl.trans (hbit.trans hen), rfl, hstart.trans (by rw [hmea]), sameMem_of_mem (hend.trans hmem)⟩

/-- Settles O58, clause by clause. -/
theorem measurementCommandsComplete : Obligations.MeasurementCommandsComplete := by
  unfold Obligations.MeasurementCommandsComplete
  exact ⟨meaWindowEnd_ends, meaWinWrite_cuts, meaWinWrite_ends, meaEnWrite_takes, meaEnWrite_stops⟩

end Sys2Proof.Machine
end

section
/-! PROOFS. A calibration pass that starts at throttle level T3 (R291, R294). -/

namespace Sys2Proof.Machine

/-- A topology of two ports whose slot 0 serves the VOA of input port 0. -/
def calTopo : Topo := ⟨1, 0, 7, 1, [], false, true, [(0, .voa 0)]⟩

/-- The throttle level in force is T3, and CAL_PASS names that VOA. -/
def State.calThrottled : State :=
  { ((State.reset.setReg Reg.RED_ROLE 0).setRegN Reg.CAL_PASS (1 + 2 ^ 20)).setFld Reg.THM_LEVEL 0 2 3 with topo := some calTopo }

/-- START in that state suspends the pass at once, which raises bit 5 of INT_STAT of the CAL page (R294). -/
theorem intStat_start_calThrottled :
    ((State.calThrottled.gateWrite 0 Reg.CAL_CTRL 1 State.calStart).reg (cReg pCAL OFF_INT_STAT)) = 0x20 := by
  decide +kernel

/-- Refutes O59: its clause on START does not ask for a throttle level below T3 and leaves INT_STAT out of what changes; in
`State.calThrottled` the pass that starts is suspended and INT_STAT bit 5 rises. -/
theorem not_calibrationPassComplete : ¬ Obligations.CalibrationPassComplete := by
  unfold Obligations.CalibrationPassComplete
  rintro ⟨hstart, -⟩
  obtain ⟨t, hexec, -, -, -, -, hregs⟩ := hstart 0 calTopo State.calThrottled (by decide +kernel) (by decide +kernel) rfl
    (by decide +kernel) (by decide +kernel) (by decide +kernel)
  obtain rfl := Host.Outcome.next.inj hexec
  exact absurd (intStat_start_calThrottled.symm.trans (hregs (cReg pCAL OFF_INT_STAT) (by decide))) (by decide +kernel)

end Sys2Proof.Machine
end

section
/-! PROOFS. The calibration banks of MRAM (R301, R305, R306). -/

namespace Sys2Proof.Machine

/-! ### Numbers within what was written -/

theorem toLE_drop (j k n : Nat) : (toLE (j + k) n).drop j = toLE k (n / 256 ^ j) := by
  refine List.ext_getElem (by simp [length_toLE]) fun i hi hi' => ?_
  rw [List.getElem_drop]
  simp only [toLE, List.getElem_map, List.getElem_range]
  rw [Nat.div_div_eq_div_mul, ← Nat.pow_add]

theorem State.loadN_of_same {s t : State} {a n : Nat} (h : ∀ i, i < n → t.byte (a + i) = s.byte (a + i)) :
    t.loadN a n = s.loadN a n :=
  congrArg leNat (List.map_congr_left fun i hi => h i (List.mem_range.1 hi))

/-- A number outside what may have changed. -/
theorem SameMemOut.loadN {s t : State} {lo len : Nat} (h : SameMemOut s t lo len) {a n : Nat} (ha : a + n ≤ lo ∨ lo + len ≤ a) :
    t.loadN a n = s.loadN a n :=
  State.loadN_of_same fun i _ => h (a + i) (by omega)

/-- A number within the bytes written. -/
theorem Wrote.loadN {s t : State} {a : Nat} {l : List Byte} (h : Wrote s t a l) {o n : Nat} (hlen : o + n ≤ l.length) :
    t.loadN (a + o) n = leAt l o n := by
  obtain ⟨hin, -⟩ := h
  refine congrArg leNat (List.ext_getElem ?_ fun i hi hi' => ?_)
  · rw [State.bytes, sliceB, List.length_map, List.length_range, List.length_take, List.length_drop]
    omega
  · rw [State.bytes, List.length_map, List.length_range] at hi
    simp only [State.bytes, sliceB]
    rw [List.getElem_map, List.getElem_range, List.getElem_take, List.getElem_drop, Nat.add_assoc, hin (o + i) (by omega),
      List.getD_eq_getElem _ _ (by omega)]

theorem leAt_append {x y z : List Byte} {o n : Nat} (hx : x.length = o) (hy : y.length = n) : leAt (x ++ (y ++ z)) o n = leNat y := by
  rw [leAt, sliceB, List.drop_left' hx, List.take_left' hy]

/-! ### Requests (R301, R305) -/

theorem exec_calStage {m : Fin 8} {s : State} (hacc : s.accepts m Reg.CAL_CTRL 4 = true) (hrole : s.roleActs = true)
    (hbusy : s.calBusy = false) : exec (.calStage m) s =
      .next (((s.respond m true Reg.CAL_CTRL .ok 0).setRegN Reg.CAL_OP_RES 0).setBit Reg.CAL_STAT 2 true) := by
  have hstage (u : State) (hr : u.roleActs = true) (hb : u.calBusy = false) :
      u.calStage = (u.setRegN Reg.CAL_OP_RES 0).setBit Reg.CAL_STAT 2 true := by
    rw [State.calStage, hr, hb]
    rfl
  exact congrArg Host.Outcome.next ((State.gateWrite_eq hacc (by decide +kernel) _).trans (hstage _ hrole hbusy))

theorem calStage_begins (m : Fin 8) (s : State) (hacc : s.accepts m Reg.CAL_CTRL 4 = true) (hrole : s.roleActs = true)
    (hbusy : s.calBusy = false) :
    Completes (.calStage m) s fun t => t.bit Reg.CAL_STAT 2 = true ∧ t.reg Reg.CAL_OP_RES = 0 ∧ SameMem s t ∧
      SameRegs s t [Reg.CAL_OP_RES, Reg.CAL_STAT] := by
  refine ⟨_, exec_calStage hacc hrole hbusy, State.bit_setBit_same _ _ _ (by decide), ?_, fun _ => rfl, fun k hk => ?_⟩
  · rw [State.reg_setBit, if_neg (by decide), State.reg_setRegN, if_pos rfl]
    rfl
  · simp only [List.mem_cons, List.not_mem_nil, or_false, not_or] at hk
    obtain ⟨hres, hstat⟩ := hk
    rw [State.reg_setBit, if_neg hstat, State.reg_setRegN, if_neg hres]
    rfl

theorem exec_calStore {m : Fin 8} {s : State} (hacc : s.accepts m Reg.CAL_CTRL 8 = true) (hrole : s.roleActs = true)
    (hbusy : s.calBusy = false) (hresults : s.cal.results.any (·.2.status == 1) = true) : exec (.calStore m) s =
      .next ((((s.respond m true Reg.CAL_CTRL .ok 0).setRegN Reg.CAL_OP_RES 0).setBit Reg.CAL_STAT 4 true).storeN
        (s.otherBank + 0x40) 8 0) := by
  have hstore (u : State) (hr : u.roleActs = true) (hb : u.calBusy = false) (hres : u.cal.results.any (·.2.status == 1) = true) :
      u.calStore = ((u.setRegN Reg.CAL_OP_RES 0).setBit Reg.CAL_STAT 4 true).storeN
        (((u.setRegN Reg.CAL_OP_RES 0).setBit Reg.CAL_STAT 4 true).otherBank + 0x40) 8 0 := by
    rw [State.calStore, hr, hb, hres]
    rfl
  refine congrArg Host.Outcome.next ((State.gateWrite_eq hacc (by decide +kernel) _).trans (hstore _ hrole hbusy hresults))

theorem calStore_begins (m : Fin 8) (s : State) (hacc : s.accepts m Reg.CAL_CTRL 8 = true) (hrole : s.roleActs = true)
    (hbusy : s.calBusy = false) (hresults : s.cal.results.any (·.2.status == 1) = true) :
    Completes (.calStore m) s fun t => t.bit Reg.CAL_STAT 4 = true ∧ t.reg Reg.CAL_OP_RES = 0 ∧
      t.loadN (s.otherBank + 0x40) 8 = 0 ∧ SameMemOut s t (s.otherBank + 0x40) 8 ∧
      SameRegs s t [Reg.CAL_OP_RES, Reg.CAL_STAT] := by
  have hreg (u : State) (a : Nat) (k : Nat) : (u.storeN a 8 0).reg k = u.reg k := u.reg_setBytes ..
  refine ⟨_, exec_calStore hacc hrole hbusy hresults, ?_, ?_, State.loadN_storeN .., ?_, fun k hk => ?_⟩
  · rw [State.bit_of_reg (hreg ..), State.bit_setBit_same _ _ _ (by decide)]
  · rw [hreg, State.reg_setBit, if_neg (by decide), State.reg_setRegN, if_pos rfl]
    rfl
  · exact SameMemOut.trans (fun _ _ => rfl) (State.sameMemOut_storeN _ (s.otherBank + 0x40) 8 0)
  · simp only [List.mem_cons, List.not_mem_nil, or_false, not_or] at hk
    obtain ⟨hres, hstat⟩ := hk
    rw [hreg, State.reg_setBit, if_neg hstat, State.reg_setRegN, if_neg hres]
    rfl

theorem State.bit_setRegN_other (s : State) {k j : Nat} (v i : Nat) (h : j ≠ k) : (s.setRegN k v).bit j i = s.bit j i :=
  bit_of_reg (s.reg_setReg_other _ h) i

/-! ### The staging ends (R301, R306) -/

/-- The state as the staging ends, with the valid banks' numbers shown. -/
def State.seqsShown (s : State) : State :=
  ((s.setBit Reg.CAL_STAT 2 false).setRegN Reg.CAL_SEQ_A ((s.calSeq? 0).getD 0)).setRegN Reg.CAL_SEQ_B ((s.calSeq? 1).getD 0)

/-- Work of the journal and the calibration engine that leaves the registers and memory. -/
structure QuietKept (s t : State) : Prop where
  reg : ∀ k, t.reg k = s.reg k
  mem : t.mem = s.mem
  cal : t.cal = s.cal

theorem State.quietKept_journalWords (s : State) (l : List (Nat × Nat)) : QuietKept s (s.journalWords l) := by
  unfold journalWords
  split
  · exact List.foldlRecOn (motive := fun t => QuietKept s t) l _ ⟨fun _ => rfl, rfl, rfl⟩ fun t ht e _ => ⟨ht.reg, ht.mem, ht.cal⟩
  · exact ⟨fun _ => rfl, rfl, rfl⟩

/-- Other state of the calibration engine. -/
def State.withCal (s : State) (c : CalSt) : State := { s with cal := c }

theorem State.reg_withCal (s : State) (c : CalSt) (k : Nat) : (s.withCal c).reg k = s.reg k := rfl

theorem State.cal_withCal (s : State) (c : CalSt) : (s.withCal c).cal = c := rfl

theorem State.calStageDone_some {s : State} {b : Nat} (hbusy : s.bit Reg.CAL_STAT 2 = true)
    (hbank : chooseBank (s.calSeq? 0) (s.calSeq? 1) = some b) : ∃ l table, table = s.calTable b ∧ s.calStageDone =
      ((((s.seqsShown.setBit Reg.CAL_STAT 6 false).setBit Reg.CAL_STAT 3 true).withCal
        { s.cal with staged := table, stagedBank := some b }).journalWords l).raise pCAL 2 := by
  have hshown : (s.setBit Reg.CAL_STAT 2 false).calSeqs = (s.seqsShown, some b) := by
    rw [← hbank]
    rfl
  unfold calStageDone
  rw [if_neg (by rw [hbusy]; decide), hshown]
  exact ⟨_, _, rfl, rfl⟩

theorem State.calStageDone_none {s : State} (hbusy : s.bit Reg.CAL_STAT 2 = true)
    (hbank : chooseBank (s.calSeq? 0) (s.calSeq? 1) = none) :
    s.calStageDone = ((s.seqsShown.setBit Reg.CAL_STAT 6 true).calRes 8).raise pCAL 2 := by
  have hshown : (s.setBit Reg.CAL_STAT 2 false).calSeqs = (s.seqsShown, none) := by
    rw [← hbank]
    rfl
  unfold calStageDone
  rw [if_neg (by rw [hbusy]; decide), hshown]
  rfl

theorem State.busy_seqsShown (s : State) : s.seqsShown.bit Reg.CAL_STAT 2 = false := by
  rw [seqsShown, bit_setRegN_other (k := Reg.CAL_SEQ_B) _ _ _ (by decide),
    bit_setRegN_other (k := Reg.CAL_SEQ_A) _ _ _ (by decide), bit_setBit_same _ _ _ (by decide)]

theorem State.reg_seqsShown (s : State) {k : Nat} (hk : k ∉ [Reg.CAL_STAT, Reg.CAL_SEQ_A, Reg.CAL_SEQ_B]) :
    s.seqsShown.reg k = s.reg k := by
  simp only [List.mem_cons, List.not_mem_nil, or_false, not_or] at hk
  obtain ⟨hstat, ha, hb⟩ := hk
  rw [seqsShown, reg_setRegN, if_neg hb, reg_setRegN, if_neg ha, reg_setBit, if_neg hstat]

/-- The registers that the end of a staging can change. -/
def stageKeys : List Nat := [Reg.CAL_STAT, Reg.CAL_SEQ_A, Reg.CAL_SEQ_B, Reg.CAL_OP_RES] ++ raiseKeys pCAL

theorem notMem_stageKeys {k : Nat} (hk : k ∉ stageKeys) :
    k ∉ raiseKeys pCAL ∧ k ≠ Reg.CAL_STAT ∧ k ≠ Reg.CAL_OP_RES ∧ k ∉ [Reg.CAL_STAT, Reg.CAL_SEQ_A, Reg.CAL_SEQ_B] := by
  simp only [stageKeys, List.mem_append, List.mem_cons, List.not_mem_nil, or_false, not_or] at hk ⊢
  obtain ⟨⟨hstat, ha, hb, hres⟩, hraise⟩ := hk
  exact ⟨hraise, hstat, hres, hstat, ha, hb⟩

theorem calStageDone_of_some {s : State} {b : Nat} (hbusy : s.bit Reg.CAL_STAT 2 = true)
    (hbank : chooseBank (s.calSeq? 0) (s.calSeq? 1) = some b) :
    Completes .calStageDone s fun t => t.bit Reg.CAL_STAT 2 = false ∧ t.bit (cReg pCAL OFF_INT_STAT) 2 = true ∧
      (t.cal.staged = s.calTable b ∧ t.cal.stagedBank = some b ∧ t.bit Reg.CAL_STAT 3 = true) ∧ SameMem s t ∧
      SameRegs s t stageKeys := by
  have hmem := sameMem_of_frame s.calStageDone_frame
  obtain ⟨l, table, htable, hdone⟩ := State.calStageDone_some hbusy hbank
  rw [hdone] at hmem
  rw [← htable]
  have hquiet := State.quietKept_journalWords (((s.seqsShown.setBit Reg.CAL_STAT 6 false).setBit Reg.CAL_STAT 3 true).withCal
    { s.cal with staged := table, stagedBank := some b }) l
  refine ⟨_, congrArg Host.Outcome.next hdone, ?_, State.bit_raise _ _ (by decide), ⟨?_, ?_, ?_⟩, hmem, fun k hk => ?_⟩
  · rw [State.bit_of_reg (State.reg_raise _ (by decide)), State.bit_of_reg (hquiet.reg _), State.bit_of_reg (State.reg_withCal ..),
      State.bit_setBit _ _ _ _ (by decide), if_neg (by decide), State.bit_setBit _ _ _ _ (by decide), if_neg (by decide),
      s.busy_seqsShown]
  · rw [State.raise_cal, hquiet.cal, State.cal_withCal]
  · rw [State.raise_cal, hquiet.cal, State.cal_withCal]
  · rw [State.bit_of_reg (State.reg_raise _ (by decide)), State.bit_of_reg (hquiet.reg _), State.bit_of_reg (State.reg_withCal ..),
      State.bit_setBit_same _ _ _ (by decide)]
  · obtain ⟨hraise, hstat, -, hseqs⟩ := notMem_stageKeys hk
    rw [State.reg_raise _ hraise, hquiet.reg, State.reg_withCal, State.reg_setBit, if_neg hstat, State.reg_setBit, if_neg hstat,
      s.reg_seqsShown hseqs]

theorem calStageDone_of_none {s : State} (hbusy : s.bit Reg.CAL_STAT 2 = true)
    (hbank : chooseBank (s.calSeq? 0) (s.calSeq? 1) = none) :
    Completes .calStageDone s fun t => t.bit Reg.CAL_STAT 2 = false ∧ t.bit (cReg pCAL OFF_INT_STAT) 2 = true ∧
      (t.cal.staged = s.cal.staged ∧ t.reg Reg.CAL_OP_RES = 8) ∧ SameMem s t ∧ SameRegs s t stageKeys := by
  have hmem := sameMem_of_frame s.calStageDone_frame
  have hdone := State.calStageDone_none hbusy hbank
  have hres (u : State) : u.calRes 8 = (u.setRegN Reg.CAL_OP_RES 8).raise pCAL 4 := rfl
  rw [hres] at hdone
  rw [hdone] at hmem
  refine ⟨_, congrArg Host.Outcome.next hdone, ?_, State.bit_raise _ _ (by decide), ⟨?_, ?_⟩, hmem, fun k hk => ?_⟩
  · rw [State.bit_of_reg (State.reg_raise _ (by decide)), State.bit_of_reg (State.reg_raise _ (by decide)),
      State.bit_setRegN_other (k := Reg.CAL_OP_RES) _ _ _ (by decide), State.bit_setBit _ _ _ _ (by decide), if_neg (by decide),
      s.busy_seqsShown]
  · rw [State.raise_cal, State.raise_cal]
    rfl
  · rw [State.reg_raise _ (by decide), State.reg_raise _ (by decide), State.reg_setRegN, if_pos rfl]
    rfl
  · obtain ⟨hraise, hstat, hop, hseqs⟩ := notMem_stageKeys hk
    rw [State.reg_raise _ hraise, State.reg_raise _ hraise, State.reg_setRegN, if_neg hop, State.reg_setBit, if_neg hstat,
      s.reg_seqsShown hseqs]

theorem calStageDone_stages (s : State) (hbusy : s.bit Reg.CAL_STAT 2 = true) :
    Completes .calStageDone s fun t => t.bit Reg.CAL_STAT 2 = false ∧ t.bit (cReg pCAL OFF_INT_STAT) 2 = true ∧
      (match chooseBank (s.calSeq? 0) (s.calSeq? 1) with
        | some b => t.cal.staged = s.calTable b ∧ t.cal.stagedBank = some b ∧ t.bit Reg.CAL_STAT 3 = true
        | none => t.cal.staged = s.cal.staged ∧ t.reg Reg.CAL_OP_RES = 8) ∧ SameMem s t ∧ SameRegs s t stageKeys := by
  cases hbank : chooseBank (s.calSeq? 0) (s.calSeq? 1) with
  | some b => exact calStageDone_of_some hbusy hbank
  | none => exact calStageDone_of_none hbusy hbank

end Sys2Proof.Machine
end

section
/-! PROOFS. The store of calibration results ends (R305). -/

namespace Sys2Proof.Machine

/-! ### The records (R304) -/

theorem CalRec.length_bytes (r : CalRec) : r.bytes.length = 64 := by
  simp only [CalRec.bytes, List.length_append, length_toLE, List.length_replicate]

/-- Work within calibration bank `a`: no register moves, and no byte outside the bank. -/
structure BankKept (a : Nat) (s t : State) : Prop where
  reg : ∀ k, t.reg k = s.reg k
  mem : SameMemOut s t a (0x1000 + 786432)

theorem BankKept.refl (a : Nat) (s : State) : BankKept a s s := ⟨fun _ => rfl, fun _ _ => rfl⟩

theorem BankKept.trans {a : Nat} {s t u : State} (h : BankKept a s t) (h' : BankKept a t u) : BankKept a s u :=
  ⟨fun k => (h'.reg k).trans (h.reg k), h.mem.trans h'.mem⟩

theorem State.bankKept_setBytes (s : State) {a b : Nat} {l : List Byte} (hlo : a ≤ b) (hhi : b + l.length ≤ a + (0x1000 + 786432)) :
    BankKept a s (s.setBytes b l) :=
  ⟨s.reg_setBytes b l, (s.sameMemOut_setBytes b (le_refl _)).within hlo hhi⟩

theorem State.reg_copyMem (s : State) (src dst size k : Nat) : (s.copyMem src dst size).reg k = s.reg k :=
  List.foldlRecOn (motive := fun t : State => t.reg k = s.reg k) _ _ rfl fun _ ht _ _ => ht

theorem State.bankKept_copyMem (s : State) (src a : Nat) : BankKept a s (s.copyMem src (a + 0x1000) 786432) :=
  ⟨s.reg_copyMem src (a + 0x1000) 786432, fun _ hc => byte_copyMem_other fun h => hc (by omega)⟩

theorem State.bankKept_clearMem (s : State) (a : Nat) : BankKept a s (s.clearMem (a + 0x1000) (a + 0x1000 + 786432)) :=
  ⟨fun _ => rfl, fun _ hc => (byte_clearMem ..).trans (if_neg fun h => hc (by omega))⟩

/-- The records of the buffer that hold values are put into the bank. -/
def State.putRecords (s : State) (a : Nat) (l : Sparse CalRec) : State :=
  l.foldl (fun (s : State) e => if e.2.status = 1 then s.setBytes (a + 0x1000 + 64 * e.1) e.2.bytes else s) s

theorem State.bankKept_putRecords (s : State) (a : Nat) {l : Sparse CalRec} (h : ∀ e ∈ l, e.1 < 12288) :
    BankKept a s (s.putRecords a l) := by
  refine List.foldlRecOn (motive := fun t => BankKept a s t) l _ (.refl a s) fun t ht e he => ?_
  have hslot := h e he
  have hlen := e.2.length_bytes
  split
  · exact ht.trans (t.bankKept_setBytes (by omega) (by omega))
  · exact ht

/-! ### The header and the commit word (R305) -/

/-- The bytes of a bank's header with number `seq`, its CRC as 0. -/
def calHeader (seq topoId : Nat) : List Byte :=
  toLE 4 0x424C4143 ++ toLE 2 1 ++ toLE 2 12288 ++ toLE 4 seq ++ toLE 4 topoId ++ List.replicate 48 (0 : Byte)

theorem length_calHeader (seq topoId : Nat) : (calHeader seq topoId).length = 64 := by
  simp only [calHeader, List.length_append, length_toLE, List.length_replicate]

theorem leAt_calHeader_magic (seq topoId : Nat) : leAt (calHeader seq topoId) 0 4 = 0x424C4143 := by
  have hsplit : calHeader seq topoId = [] ++ (toLE 4 0x424C4143 ++ (toLE 2 1 ++ toLE 2 12288 ++ toLE 4 seq ++ toLE 4 topoId
      ++ List.replicate 48 (0 : Byte))) := by
    simp only [calHeader, List.append_assoc, List.nil_append]
  rw [hsplit, leAt_append (x := []) (o := 0) rfl (length_toLE ..), leNat_toLE]
  rfl

theorem leAt_calHeader_seq {seq : Nat} (h : seq < 2 ^ 32) (topoId : Nat) : leAt (calHeader seq topoId) 8 4 = seq := by
  have hsplit : calHeader seq topoId = (toLE 4 0x424C4143 ++ toLE 2 1 ++ toLE 2 12288) ++ (toLE 4 seq ++ (toLE 4 topoId
      ++ List.replicate 48 (0 : Byte))) := by
    simp only [calHeader, List.append_assoc]
  rw [hsplit, leAt_append (by simp only [List.length_append, length_toLE]) (length_toLE ..), leNat_toLE]
  exact Nat.mod_eq_of_lt h

/-- The header, its CRC and the commit word of bank `other` are written. -/
def State.putHeader (s : State) (other seq topoId : Nat) : State :=
  let t := s.setBytes (calBank other) (calHeader seq topoId)
  let t := t.storeN (calBank other + 0x3C) 4 (t.calCrc other)
  t.storeN (calBank other + 0x40) 8 (0xCA1B + 65536 * other + 2 ^ 32 * seq)

theorem State.bankKept_storeN (s : State) {a b n : Nat} (v : Nat) (hlo : a ≤ b) (hhi : b + n ≤ a + (0x1000 + 786432)) :
    BankKept a s (s.storeN b n v) :=
  s.bankKept_setBytes hlo (by rw [length_toLE]; exact hhi)

theorem State.bankKept_putHeader (s : State) (other seq topoId : Nat) : BankKept (calBank other) s (s.putHeader other seq topoId) := by
  have hlen := length_calHeader seq topoId
  exact ((s.bankKept_setBytes (le_refl _) (by omega)).trans (bankKept_storeN _ _ (by omega) (by omega))).trans
    (bankKept_storeN _ _ (by omega) (by omega))

theorem State.loadN_putHeader (s : State) {other seq : Nat} (topoId : Nat) (hother : other < 2) (hseq : seq < 2 ^ 32) :
    (s.putHeader other seq topoId).loadN (calBank other) 4 = 0x424C4143 ∧
      (s.putHeader other seq topoId).loadN (calBank other + 8) 4 = seq ∧
      (s.putHeader other seq topoId).loadN (calBank other + 0x44) 4 = seq := by
  have hlen := length_calHeader seq topoId
  obtain ⟨u, hu⟩ : ∃ u, u = s.setBytes (calBank other) (calHeader seq topoId) := ⟨_, rfl⟩
  have hwrote : Wrote s u (calBank other) (calHeader seq topoId) := by
    rw [hu]
    exact s.wrote_setBytes ..
  obtain ⟨v, hv⟩ : ∃ v, v = u.storeN (calBank other + 0x3C) 4 (u.calCrc other) := ⟨_, rfl⟩
  have hcrc : SameMemOut u v (calBank other + 0x3C) 4 := by
    rw [hv]
    exact u.sameMemOut_storeN _ 4 _
  have hput : s.putHeader other seq topoId = v.storeN (calBank other + 0x40) 8 (0xCA1B + 65536 * other + 2 ^ 32 * seq) := by
    rw [hv, hu]
    rfl
  have hcommit := v.sameMemOut_storeN (calBank other + 0x40) 8 (0xCA1B + 65536 * other + 2 ^ 32 * seq)
  rw [hput]
  refine ⟨?_, ?_, ?_⟩
  · rw [hcommit.loadN (by omega), hcrc.loadN (by omega)]
    exact (hwrote.loadN (o := 0) (by omega)).trans (leAt_calHeader_magic ..)
  · rw [hcommit.loadN (by omega), hcrc.loadN (by omega), hwrote.loadN (by omega), leAt_calHeader_seq hseq]
  · have hword : leAt (toLE 8 (0xCA1B + 65536 * other + 2 ^ 32 * seq)) 4 4 = seq := by
      have hdrop := toLE_drop 4 4 (0xCA1B + 65536 * other + 2 ^ 32 * seq)
      rw [leAt, sliceB, hdrop, List.take_of_length_le (length_toLE ..).le, leNat_toLE]
      omega
    have hload := (v.wrote_setBytes (calBank other + 0x40) (toLE 8 (0xCA1B + 65536 * other + 2 ^ 32 * seq))).loadN (o := 4) (n := 4)
      (by rw [length_toLE])
    exact hload.trans hword

/-! ### The store ends -/

/-- The number of the bank a store writes. -/
def State.otherNum (s : State) : Nat := match chooseBank (s.calSeq? 0) (s.calSeq? 1) with | some b => 1 - b | none => 0

theorem State.otherNum_lt (s : State) : s.otherNum < 2 := by
  unfold otherNum
  split <;> omega

theorem State.nextCalSeq_lt (s : State) : s.nextCalSeq < 2 ^ 32 := by
  unfold nextCalSeq
  split
  · exact Nat.mod_lt _ (by decide)
  · decide

/-- The other bank with the records of the bank chosen, or cleared. -/
def State.bankCopied (s : State) : State :=
  match chooseBank (s.calSeq? 0) (s.calSeq? 1) with
  | some b => s.copyMem (calBank b + 0x1000) (s.otherBank + 0x1000) 786432
  | none => s.clearMem (s.otherBank + 0x1000) (s.otherBank + 0x1000 + 786432)

theorem State.bankKept_bankCopied (s : State) : BankKept s.otherBank s s.bankCopied := by
  unfold bankCopied
  split
  · exact s.bankKept_copyMem ..
  · exact s.bankKept_clearMem ..

/-- The bank as it is written. -/
def State.bankStored (s : State) : State :=
  (s.bankCopied.putRecords s.otherBank s.bankCopied.cal.results).putHeader s.otherNum s.nextCalSeq
    (match (s.bankCopied.putRecords s.otherBank s.bankCopied.cal.results).topo with | some t => t.topoId | none => 0)

/-- CAL_SEQ_A and CAL_SEQ_B as the store ends. -/
def State.storeShown (s : State) (a b : Nat) : State :=
  ((s.setBit Reg.CAL_STAT 4 false).setRegN Reg.CAL_SEQ_A a).setRegN Reg.CAL_SEQ_B b

theorem State.calStoreDone_eq {s : State} (hbusy : s.bit Reg.CAL_STAT 4 = true) :
    ∃ a b, s.calStoreDone = (s.bankStored.storeShown a b).raise pCAL 1 := by
  unfold calStoreDone
  rw [if_neg (by rw [hbusy]; decide)]
  exact ⟨_, _, rfl⟩

theorem State.cal_bankCopied (s : State) : s.bankCopied.cal = s.cal := by
  unfold bankCopied
  split
  · exact List.foldlRecOn (motive := fun t : State => t.cal = s.cal) _ _ rfl fun _ ht _ _ => ht
  · rfl

theorem State.bankKept_bankStored {s : State} (hresults : s.cal.results.all (fun e => decide (e.1 < 12288)) = true) :
    BankKept s.otherBank s s.bankStored := by
  have hslots : ∀ e ∈ s.bankCopied.cal.results, e.1 < 12288 := by
    rw [cal_bankCopied]
    exact fun e he => of_decide_eq_true (List.all_eq_true.1 hresults e he)
  exact (s.bankKept_bankCopied.trans (bankKept_putRecords _ _ hslots)).trans (bankKept_putHeader ..)

theorem State.loadN_bankStored (s : State) : s.bankStored.loadN s.otherBank 4 = 0x424C4143 ∧
    s.bankStored.loadN (s.otherBank + 8) 4 = s.nextCalSeq ∧ s.bankStored.loadN (s.otherBank + 0x44) 4 = s.nextCalSeq :=
  loadN_putHeader _ _ s.otherNum_lt s.nextCalSeq_lt

theorem State.mem_storeShown (s : State) (a b : Nat) : (s.storeShown a b).mem = s.mem := rfl

theorem State.reg_storeShown (s : State) (a b : Nat) {k : Nat} (hk : k ∉ [Reg.CAL_STAT, Reg.CAL_SEQ_A, Reg.CAL_SEQ_B]) :
    (s.storeShown a b).reg k = s.reg k := by
  simp only [List.mem_cons, List.not_mem_nil, or_false, not_or] at hk
  obtain ⟨hstat, ha, hb⟩ := hk
  rw [storeShown, reg_setRegN, if_neg hb, reg_setRegN, if_neg ha, reg_setBit, if_neg hstat]

theorem State.busy_storeShown (s : State) (a b : Nat) : (s.storeShown a b).bit Reg.CAL_STAT 4 = false := by
  rw [storeShown, bit_setRegN_other (k := Reg.CAL_SEQ_B) _ _ _ (by decide), bit_setRegN_other (k := Reg.CAL_SEQ_A) _ _ _ (by decide),
    bit_setBit_same _ _ _ (by decide)]

theorem calStoreDone_stores (s : State) (hbusy : s.bit Reg.CAL_STAT 4 = true)
    (hresults : s.cal.results.all (fun e => decide (e.1 < 12288)) = true) :
    Completes .calStoreDone s fun t => t.bit Reg.CAL_STAT 4 = false ∧ t.bit (cReg pCAL OFF_INT_STAT) 1 = true ∧
      t.loadN s.otherBank 4 = 0x424C4143 ∧ t.loadN (s.otherBank + 8) 4 = s.nextCalSeq ∧
      t.loadN (s.otherBank + 0x44) 4 = s.nextCalSeq ∧ SameMemOut s t s.otherBank (0x1000 + 786432) ∧
      SameRegs s t ([Reg.CAL_STAT, Reg.CAL_SEQ_A, Reg.CAL_SEQ_B] ++ raiseKeys pCAL) := by
  obtain ⟨a, b, hdone⟩ := State.calStoreDone_eq hbusy
  obtain ⟨hreg, hout⟩ := State.bankKept_bankStored hresults
  obtain ⟨hmagic, hseq, hcommit⟩ := s.loadN_bankStored
  have hmem : ((s.bankStored.storeShown a b).raise pCAL 1).mem = s.bankStored.mem := by rw [State.raise_mem, State.mem_storeShown]
  refine ⟨_, congrArg Host.Outcome.next hdone, ?_, State.bit_raise _ _ (by decide), ?_, ?_, ?_, ?_, fun k hk => ?_⟩
  · rw [State.bit_of_reg (State.reg_raise _ (by decide)), State.busy_storeShown]
  · rw [State.loadN_of_mem hmem, hmagic]
  · rw [State.loadN_of_mem hmem, hseq]
  · rw [State.loadN_of_mem hmem, hcommit]
  · exact hout.trans fun c _ => State.byte_of_mem hmem c
  · rw [List.mem_append, not_or] at hk
    obtain ⟨hstat, hraise⟩ := hk
    rw [State.reg_raise _ hraise, State.reg_storeShown _ _ _ hstat, hreg]

/-- Settles O60, clause by clause. -/
theorem calibrationBanksComplete : Obligations.CalibrationBanksComplete := by
  unfold Obligations.CalibrationBanksComplete
  exact ⟨calStage_begins, calStageDone_stages, calStore_begins, fun s hbusy _ => calStoreDone_stores s hbusy⟩

end Sys2Proof.Machine
end

section
/-! PROOFS. A two-slot entry whose first slot is the last slot of the forwarding table (R320, R322). -/

namespace Sys2Proof.Machine

/-- DELETE of the host entry whose address is 14,287: its bucket is the last one, 32,767. -/
def deleteHost : FwdCmd := ⟨2, 0, 0, 4, 14287 * 2 ^ 64⟩

/-- That DELETE runs; the entry's first slot, of even parity, is the table's last one, 262,143, and its CONT slot lies above it. -/
def State.hostInLastSlot : State :=
  { ((State.reset.storeN 0x12FFFFF0 16 0x1004).storeN 0x13000000 16 (14287 * 2 ^ 64)) with
    net := { State.reset.net with cmd := some deleteHost } }

/-- The entry's CONT slot becomes EMPTY, which clears a byte above the table. -/
theorem byte_deleteHost : State.hostInLastSlot.fwdCmdDone.byte 0x13000008 = 0 := by decide +kernel

/-- Refutes O49: its clause on FWD_CMD_DONE keeps every byte outside the table, for every content of the table; in
`State.hostInLastSlot` DELETE clears the slot after the last one with the two-slot entry it finds there. -/
theorem not_forwardingCommandsComplete : ¬ Obligations.ForwardingCommandsComplete := by
  unfold Obligations.ForwardingCommandsComplete
  rintro ⟨-, -, -, -, -, -, hdone, -⟩
  obtain ⟨t, hexec, -, -, -, -, hmem⟩ := hdone deleteHost State.hostInLastSlot rfl
  obtain rfl := Host.Outcome.next.inj hexec
  exact absurd (byte_deleteHost.symm.trans (hmem 0x13000008 (by decide))) (by decide +kernel)

end Sys2Proof.Machine
end

section
/-! PROOFS. Network time's rate, offset and step (R379). -/

namespace Sys2Proof.Machine

theorem State.unlessHoldover_of_state {s : State} (m a : Nat) (f : State → State) (h : s.ntuState ≠ 2) :
    s.unlessHoldover m a f = f s := if_neg h

/-- An accepted write of a high word outside HOLDOVER is its effect. -/
theorem State.gateWrite_unlessHoldover {s : State} {m a : Nat} {v : Word} (hacc : s.accepts m a v = true)
    (hj : journals a = false) (hstate : s.ntuState ≠ 2) (f : State → State) :
    (s.gateWrite m a v fun u => u.unlessHoldover m a f) = f (s.respond m true a .ok 0) :=
  (gateWrite_eq hacc hj _).trans (unlessHoldover_of_state m a f hstate)

/-- A held word of the group that is kept. -/
theorem State.heldWord_ntuDiscard (s : State) {grp : List Nat} {a : Nat} (d : Nat) (ha : a ∈ grp) :
    (s.ntuDiscard grp).heldWord a d = s.heldWord a d := by
  have hfind : (s.ntu.heldW.filter fun e => grp.contains e.1).find? (·.1 == a) = s.ntu.heldW.find? (·.1 == a) := by
    rw [List.find?_filter]
    congr 1
    funext e
    by_cases he : e.1 = a
    · simp [he, ha]
    · simp [he]
  simp only [heldWord, ntuDiscard, hfind]

theorem ofInt_sub_bitVec96 (i j : Int) : BitVec.ofInt 96 (i - j) = BitVec.ofInt 96 i - BitVec.ofInt 96 j := by
  rw [Int.sub_eq_add_neg, BitVec.ofInt_add, BitVec.ofInt_neg, BitVec.sub_eq_add_neg]

/-- Another rate with the offset that keeps network time continuous. -/
theorem netTime_setRate (rate r : BitVec 40) (o f : BitVec 96) :
    netTime r (o + BitVec.ofInt 96 (((f.toNat : Int) * rate.toInt).fdiv (2 ^ 48) - ((f.toNat : Int) * r.toInt).fdiv (2 ^ 48))) f =
      netTime rate o f := by
  unfold netTime
  rw [ofInt_sub_bitVec96]
  generalize BitVec.ofInt 96 (((f.toNat : Int) * rate.toInt).fdiv (2 ^ 48)) = x
  generalize BitVec.ofInt 96 (((f.toNat : Int) * r.toInt).fdiv (2 ^ 48)) = y
  ring

theorem netTime_add (rate : BitVec 40) (o d f : BitVec 96) : netTime rate (o + d) f = netTime rate o f + d :=
  (BitVec.add_assoc ..).symm

theorem State.nt_setClock (s : State) (rate : BitVec 40) (o : BitVec 96) : (s.setClock rate o).nt = netTime rate o s.frcNow := rfl

theorem State.nt_ntuDiscard (s : State) (grp : List Nat) : (s.ntuDiscard grp).nt = s.nt := rfl

theorem State.nt_rateWrite (s : State) (v : Word) : (s.rateWrite v).nt = s.nt := by
  unfold rateWrite setRate
  dsimp only
  rw [nt_ntuDiscard, nt_setClock, netTime_setRate]
  rfl

theorem State.nt_stepWrite (s : State) (v : Word) :
    (s.stepWrite v).nt = s.nt + BitVec.ofInt 96 (sx 64 (s.heldWord Reg.NTU_STEP 0 + v.toNat * 2 ^ 32)) := by
  unfold stepWrite
  dsimp only
  rw [nt_ntuDiscard, nt_setClock, netTime_add]
  rfl

theorem State.rate_rateWrite (s : State) (v : Word) : (s.rateWrite v).ntu.rate =
    BitVec.ofNat 40 (s.heldWord Reg.NTU_RATE (s.ntu.rate.toNat % 2 ^ 32) + v.toNat % 256 * 2 ^ 32) := rfl

theorem State.offset_offsetWrite (s : State) (v : Word) : (s.offsetWrite v).ntu.offset =
    BitVec.ofNat 96 (s.heldWord Reg.NTU_OFFSET (s.ntu.offset.toNat % 2 ^ 32) +
      s.heldWord (Reg.NTU_OFFSET + 4) (s.ntu.offset.toNat / 2 ^ 32 % 2 ^ 32) * 2 ^ 32 + v.toNat * 2 ^ 64) := rfl

theorem State.rate_setClock (s : State) (rate : BitVec 40) (o : BitVec 96) (grp : List Nat) :
    ((s.setClock rate o).ntuDiscard grp).ntu.rate = rate := rfl

theorem State.rate_offsetWrite (s : State) (v : Word) : (s.offsetWrite v).ntu.rate = s.ntu.rate := s.rate_setClock ..

theorem State.rate_stepWrite (s : State) (v : Word) : (s.stepWrite v).ntu.rate = s.ntu.rate := s.rate_setClock ..

/-- The state in which an accepted write of a high word takes effect. -/
def State.highWrite (s : State) (m a : Nat) (grp : List Nat) : State := (s.respond m true a .ok 0).ntuDiscard grp

theorem State.heldWord_highWrite (s : State) (m a : Nat) {grp : List Nat} {k : Nat} (d : Nat) (hk : k ∈ grp) :
    (s.highWrite m a grp).heldWord k d = s.heldWord k d := (s.respond m true a .ok 0).heldWord_ntuDiscard d hk

theorem State.clock_highWrite (s : State) (m a : Nat) (grp : List Nat) : (s.highWrite m a grp).ntu.rate = s.ntu.rate ∧
    (s.highWrite m a grp).ntu.offset = s.ntu.offset ∧ (s.highWrite m a grp).nt = s.nt := ⟨rfl, rfl, rfl⟩

theorem ntuRateWrite_takes (m : Fin 8) (v : Word) (s : State) (hacc : s.accepts m Reg.NTU_RATE_HI v = true) (hstate : s.ntuState ≠ 2) :
    Completes (.ntuRateWrite m v) s fun t =>
      t.ntu.rate = BitVec.ofNat 40 (s.heldWord Reg.NTU_RATE (s.ntu.rate.toNat % 2 ^ 32) + v.toNat % 256 * 2 ^ 32) ∧ t.nt = s.nt ∧
      SameMem s t ∧ SameRegs s t [] := by
  obtain ⟨hrate, -, hnt⟩ := s.clock_highWrite m Reg.NTU_RATE_HI grpRate
  have hexec : exec (.ntuRateWrite m v) s = .next ((s.highWrite m Reg.NTU_RATE_HI grpRate).rateWrite v) :=
    congrArg Host.Outcome.next (State.gateWrite_unlessHoldover hacc (by decide +kernel) hstate _)
  refine ⟨_, hexec, ?_, (State.nt_rateWrite _ v).trans hnt, sameMem_of_mem rfl, fun k _ => rfl⟩
  rw [State.rate_rateWrite, State.heldWord_highWrite _ _ _ _ (by decide), hrate]

theorem ntuOffsetWrite_takes (m : Fin 8) (v : Word) (s : State) (hacc : s.accepts m (Reg.NTU_OFFSET + 8) v = true)
    (hstate : s.ntuState ≠ 2) :
    Completes (.ntuOffsetWrite m v) s fun t =>
      t.ntu.offset = BitVec.ofNat 96 (s.heldWord Reg.NTU_OFFSET (s.ntu.offset.toNat % 2 ^ 32) +
        s.heldWord (Reg.NTU_OFFSET + 4) (s.ntu.offset.toNat / 2 ^ 32 % 2 ^ 32) * 2 ^ 32 + v.toNat * 2 ^ 64) ∧
      t.ntu.rate = s.ntu.rate ∧ SameMem s t ∧ SameRegs s t [] := by
  obtain ⟨hrate, hoffset, -⟩ := s.clock_highWrite m (Reg.NTU_OFFSET + 8) grpOffset
  have hexec : exec (.ntuOffsetWrite m v) s = .next ((s.highWrite m (Reg.NTU_OFFSET + 8) grpOffset).offsetWrite v) :=
    congrArg Host.Outcome.next (State.gateWrite_unlessHoldover hacc (by decide +kernel) hstate _)
  refine ⟨_, hexec, ?_, (State.rate_offsetWrite _ v).trans hrate, sameMem_of_mem rfl, fun k _ => rfl⟩
  rw [State.offset_offsetWrite, State.heldWord_highWrite _ _ _ _ (by decide), State.heldWord_highWrite _ _ _ _ (by decide), hoffset]

theorem ntuStepWrite_takes (m : Fin 8) (v : Word) (s : State) (hacc : s.accepts m Reg.NTU_STEP_HI v = true) (hstate : s.ntuState ≠ 2) :
    Completes (.ntuStepWrite m v) s fun t =>
      t.nt = s.nt + BitVec.ofInt 96 (sx 64 (s.heldWord Reg.NTU_STEP 0 + v.toNat * 2 ^ 32)) ∧
      t.ntu.rate = s.ntu.rate ∧ SameMem s t ∧ SameRegs s t [] := by
  obtain ⟨hrate, -, hnt⟩ := s.clock_highWrite m Reg.NTU_STEP_HI grpStep
  have hexec : exec (.ntuStepWrite m v) s = .next ((s.highWrite m Reg.NTU_STEP_HI grpStep).stepWrite v) :=
    congrArg Host.Outcome.next (State.gateWrite_unlessHoldover hacc (by decide +kernel) hstate _)
  refine ⟨_, hexec, ?_, (State.rate_stepWrite _ v).trans hrate, sameMem_of_mem rfl, fun k _ => rfl⟩
  rw [State.nt_stepWrite, State.heldWord_highWrite _ _ _ _ (by decide), hnt]

end Sys2Proof.Machine
end

section
/-! PROOFS. The time states and the sync watchdog (R389, R390). -/

namespace Sys2Proof.Machine

/-! ### The time states (R389) -/

/-- A time state as it stands in NTU_STAT. -/
def State.timeStat (s : State) (st : Nat) : State := (s.setFld Reg.NTU_STAT 0 2 st).setBit Reg.NTU_STAT 3 false

theorem State.enterTime_free (s : State) : (s.enterTime 0).reqRes 0 = (s.timeStat 0).setFld Reg.NTU_STAT 4 4 0 := rfl

theorem State.enterTime_locked (s : State) : (s.enterTime 1).reqRes 0 = (s.timeStat 1).wdStart.setFld Reg.NTU_STAT 4 4 0 := rfl

theorem State.enterTime_holdover (s : State) : s.enterTime 2 = (s.timeStat 2).raise pNTU 0 := rfl

theorem State.reg_timeStat (s : State) (st : Nat) {k : Nat} (hk : k ≠ Reg.NTU_STAT) : (s.timeStat st).reg k = s.reg k := by
  rw [timeStat, reg_setBit, if_neg hk, reg_setFld, if_neg hk]

theorem State.ntuState_timeStat (s : State) {st : Nat} (h : st < 4) : (s.timeStat st).ntuState = st := by
  rw [ntuState, timeStat, fld_setBit_other _ (by decide) (by decide), fld_setFld_same _ (by decide), Nat.mod_eq_of_lt (show st < 2 ^ 2 from h)]

theorem State.bit_timeStat (s : State) (st : Nat) : (s.timeStat st).bit Reg.NTU_STAT 3 = false := bit_setBit_same _ _ _ (by decide)

theorem State.reg_wdStart (s : State) {k : Nat} (hk : k ≠ Reg.NTU_WD_LEFT) : s.wdStart.reg k = s.reg k :=
  (reg_setRegN ..).trans (if_neg hk)

theorem State.fld_setRegN_low (s : State) (k : Nat) {n len : Nat} (hlen : len ≤ 32) (hn : n < 2 ^ len) :
    (s.setRegN k n).fld k 0 len = n := by
  rw [fld, reg_setRegN, if_pos rfl, fld_ofNat (by omega), bits, Nat.shiftRight_zero, Nat.mod_eq_of_lt hn]

theorem State.left_wdStart (s : State) : s.wdStart.fld Reg.NTU_WD_LEFT 0 8 = s.fld Reg.NTU_SYNC_WD 0 8 := by
  exact fld_setRegN_low _ _ (by decide) (fld_lt ..)

theorem State.reg_registerSync (s : State) {k : Nat} (hk : k ∉ [Reg.NTU_STAT, Reg.NTU_WD_LEFT]) : s.registerSync.reg k = s.reg k := by
  simp only [List.mem_cons, List.not_mem_nil, or_false, not_or] at hk
  obtain ⟨hstat, hleft⟩ := hk
  rw [registerSync, reg_wdStart _ hleft, reg_setBit, if_neg hstat]

theorem State.ntuState_registerSync (s : State) : s.registerSync.ntuState = s.ntuState := by
  rw [ntuState, registerSync, fld_of_reg (reg_wdStart _ (by decide)), fld_setBit_other _ (by decide) (by decide)]
  rfl

theorem State.bit_registerSync (s : State) : s.registerSync.bit Reg.NTU_STAT 3 = true := by
  rw [registerSync, bit_of_reg (reg_wdStart _ (by decide)), bit_setBit_same _ _ _ (by decide)]

/-- The state in which the request of an accepted write of NTU_CTRL is judged. -/
def State.asked (s : State) (m : Nat) (sync : Bool) : State :=
  let u := (s.respond m true Reg.NTU_CTRL .ok 0).ntuDiscard []
  if sync then u.registerSync else u

theorem State.reg_asked (s : State) (m : Nat) (sync : Bool) {k : Nat} (hk : k ∉ [Reg.NTU_STAT, Reg.NTU_WD_LEFT]) :
    (s.asked m sync).reg k = s.reg k := by
  cases sync with
  | false => rfl
  | true => exact reg_registerSync _ hk

theorem State.ntuState_asked (s : State) (m : Nat) (sync : Bool) : (s.asked m sync).ntuState = s.ntuState := by
  cases sync with
  | false => rfl
  | true => exact ntuState_registerSync _

theorem State.registered_asked (s : State) (m : Nat) (sync : Bool) : (s.asked m sync).bit Reg.NTU_STAT 3 = (sync || s.bit Reg.NTU_STAT 3) := by
  cases sync with
  | false => rfl
  | true => exact bit_registerSync _

theorem State.mem_asked (s : State) (m : Nat) (sync : Bool) : (s.asked m sync).mem = s.mem := by
  cases sync <;> rfl

/-- An accepted write of NTU_CTRL judges its request after its SYNC. -/
theorem State.gateWrite_ntuCtrl {s : State} {m : Nat} {v : Word} (sync : Bool) (hacc : s.accepts m Reg.NTU_CTRL v = true)
    {req : Nat} : (s.gateWrite m Reg.NTU_CTRL v fun s => s.ntuCtrl sync req) =
      if req = 1 then (s.asked m sync).reqLock else if req = 2 then (s.asked m sync).reqHold
      else if req = 3 then (s.asked m sync).reqFree else s.asked m sync :=
  gateWrite_eq hacc (by decide +kernel) _

theorem lock_locks (m : Fin 8) (sync : Bool) (s : State) (hacc : s.accepts m Reg.NTU_CTRL (BitVec.ofNat 32 (1 + 16 * b2n sync)) = true)
    (hstate : s.ntuState ≠ 1) (hsync : sync = true ∨ s.bit Reg.NTU_STAT 3 = true ∨ s.fld Reg.NTU_SYNC_WD 0 8 = 0) :
    Completes (.lock m sync) s fun t => t.ntuState = 1 ∧ t.fld Reg.NTU_STAT 4 4 = 0 ∧ t.bit Reg.NTU_STAT 3 = false ∧
      SameMem s t ∧ SameRegs s t [Reg.NTU_STAT, Reg.NTU_WD_LEFT] := by
  obtain ⟨u, hu⟩ : ∃ u, u = s.asked m sync := ⟨_, rfl⟩
  have hready : (u.bit Reg.NTU_STAT 3 || u.fld Reg.NTU_SYNC_WD 0 8 == 0) = true := by
    rw [hu, State.registered_asked, State.fld_of_reg (s.reg_asked m sync (by decide))]
    simpa [or_assoc] using hsync
  have hlock : u.reqLock = (u.timeStat 1).wdStart.setFld Reg.NTU_STAT 4 4 0 := by
    rw [State.reqLock, if_neg (by rw [hu, State.ntuState_asked]; exact hstate), if_pos hready, State.enterTime_locked]
  have hend : exec (.lock m sync) s = .next ((u.timeStat 1).wdStart.setFld Reg.NTU_STAT 4 4 0) :=
    congrArg Host.Outcome.next ((State.gateWrite_ntuCtrl sync hacc).trans (hu ▸ hlock))
  refine ⟨_, hend, ?_, ?_, ?_, sameMem_of_mem (hu ▸ s.mem_asked m sync), fun k hk => ?_⟩
  · rw [State.ntuState, State.fld_setFld_other _ (by decide) (by decide), State.fld_of_reg (State.reg_wdStart _ (by decide))]
    exact u.ntuState_timeStat (by decide)
  · exact State.fld_setFld_same _ (by decide)
  · rw [State.bit_setFld_other _ (by decide) (by decide), State.bit_of_reg (State.reg_wdStart _ (by decide)), State.bit_timeStat]
  · have hother := s.reg_asked m sync hk
    simp only [List.mem_cons, List.not_mem_nil, or_false, not_or] at hk
    obtain ⟨hstat, hleft⟩ := hk
    rw [State.reg_setFld, if_neg hstat, State.reg_wdStart _ hleft, State.reg_timeStat _ _ hstat, hu, hother]

theorem hold_holds (m : Fin 8) (sync : Bool) (s : State) (hacc : s.accepts m Reg.NTU_CTRL (BitVec.ofNat 32 (2 + 16 * b2n sync)) = true)
    (hstate : s.ntuState = 1) :
    Completes (.hold m sync) s fun t => t.ntuState = 2 ∧ t.fld Reg.NTU_STAT 4 4 = 0 ∧
      t.bit (cReg pNTU OFF_INT_STAT) 0 = true ∧ SameMem s t ∧
      SameRegs s t ([Reg.NTU_STAT, Reg.NTU_WD_LEFT] ++ raiseKeys pNTU) := by
  obtain ⟨u, hu⟩ : ∃ u, u = s.asked m sync := ⟨_, rfl⟩
  have hlocked : u.ntuState = 1 := by rw [hu, State.ntuState_asked, hstate]
  have hhold : u.reqHold = ((u.timeStat 2).raise pNTU 0).setFld Reg.NTU_STAT 4 4 0 := by
    rw [State.reqHold, if_neg (by rw [hlocked]; decide), if_pos hlocked, State.enterTime_holdover]
    rfl
  have hend : exec (.hold m sync) s = .next (((u.timeStat 2).raise pNTU 0).setFld Reg.NTU_STAT 4 4 0) :=
    congrArg Host.Outcome.next ((State.gateWrite_ntuCtrl sync hacc).trans (hu ▸ hhold))
  refine ⟨_, hend, ?_, State.fld_setFld_same _ (by decide), ?_, sameMem_of_mem ?_, fun k hk => ?_⟩
  · rw [State.ntuState, State.fld_setFld_other _ (by decide) (by decide), State.fld_of_reg (State.reg_raise _ (by decide))]
    exact u.ntuState_timeStat (by decide)
  · rw [State.bit_setFld_other _ (by decide) (by decide)]
    exact State.bit_raise _ _ (by decide)
  · exact (State.raise_mem ..).trans (hu ▸ s.mem_asked m sync)
  · obtain ⟨hown, hraise⟩ := not_or.mp (List.mem_append.not.mp hk)
    have hother := s.reg_asked m sync hown
    have hstat : k ≠ Reg.NTU_STAT := fun h => hown (h ▸ List.mem_cons_self)
    rw [State.reg_setFld, if_neg hstat, State.reg_raise _ hraise, State.reg_timeStat _ _ hstat, hu, hother]

theorem ntuFree_frees (m : Fin 8) (sync : Bool) (s : State)
    (hacc : s.accepts m Reg.NTU_CTRL (BitVec.ofNat 32 (3 + 16 * b2n sync)) = true) (hstate : s.ntuState ≠ 0) :
    Completes (.ntuFree m sync) s fun t => t.ntuState = 0 ∧ t.fld Reg.NTU_STAT 4 4 = 0 ∧ SameMem s t ∧
      SameRegs s t [Reg.NTU_STAT, Reg.NTU_WD_LEFT] := by
  obtain ⟨u, hu⟩ : ∃ u, u = s.asked m sync := ⟨_, rfl⟩
  have hfree : u.reqFree = (u.timeStat 0).setFld Reg.NTU_STAT 4 4 0 := by
    rw [State.reqFree, if_neg (by rw [hu, State.ntuState_asked]; exact hstate), State.enterTime_free]
  have hend : exec (.ntuFree m sync) s = .next ((u.timeStat 0).setFld Reg.NTU_STAT 4 4 0) :=
    congrArg Host.Outcome.next ((State.gateWrite_ntuCtrl sync hacc).trans (hu ▸ hfree))
  refine ⟨_, hend, ?_, State.fld_setFld_same _ (by decide), sameMem_of_mem (hu ▸ s.mem_asked m sync), fun k hk => ?_⟩
  · rw [State.ntuState, State.fld_setFld_other _ (by decide) (by decide)]
    exact u.ntuState_timeStat (by decide)
  · have hother := s.reg_asked m sync hk
    have hstat : k ≠ Reg.NTU_STAT := fun h => hk (h ▸ List.mem_cons_self)
    rw [State.reg_setFld, if_neg hstat, State.reg_timeStat _ _ hstat, hu, hother]

theorem sync_registers (m : Fin 8) (s : State) (hacc : s.accepts m Reg.NTU_CTRL 16 = true) :
    Completes (.sync m) s fun t => t.bit Reg.NTU_STAT 3 = true ∧ t.fld Reg.NTU_WD_LEFT 0 8 = s.fld Reg.NTU_SYNC_WD 0 8 ∧
      t.ntuState = s.ntuState ∧ SameMem s t ∧ SameRegs s t [Reg.NTU_STAT, Reg.NTU_WD_LEFT] := by
  refine ⟨s.asked m true, congrArg Host.Outcome.next (State.gateWrite_ntuCtrl true hacc), s.registered_asked m true, ?_,
    s.ntuState_asked m true, sameMem_of_mem (s.mem_asked m true), fun k hk => s.reg_asked m true hk⟩
  exact (State.left_wdStart _).trans (State.fld_of_reg ((State.reg_setBit ..).trans (if_neg (by decide))) 0 8)

end Sys2Proof.Machine
end

section
/-! PROOFS. The sync watchdog's intervals (R390). -/

namespace Sys2Proof.Machine

theorem State.reg_comes (s : State) (start : BitVec 96) (len k : Nat) : (s.comes start len).reg k = s.reg k := by
  rcases s.comes_eq start len with h | h <;> simp only [h, reg_atCycle]

theorem State.ntu_comes (s : State) (start : BitVec 96) (len : Nat) : ∃ c, (s.comes start len).ntu = { s.ntu with cyc := c } := by
  rcases s.comes_eq start len with h | h
  · exact ⟨max s.ntu.cyc (s.ntu.cyc + (len - s.gone start + 65535) / 65536), congrArg State.ntu h⟩
  · exact ⟨s.ntu.cyc, congrArg State.ntu h⟩

/-- A start that moves on by `d` of the time that has gone. -/
theorem toNat_sub_add {f a : BitVec 96} {d : Nat} (h : d ≤ (f - a).toNat) : (f - (a + BitVec.ofNat 96 d)).toNat = (f - a).toNat - d := by
  have hd : (BitVec.ofNat 96 d).toNat = d := by
    rw [BitVec.toNat_ofNat, Nat.mod_eq_of_lt (h.trans_lt (f - a).isLt)]
  have hle : BitVec.ofNat 96 d ≤ f - a := by rw [BitVec.le_def, hd]; exact h
  rw [show f - (a + BitVec.ofNat 96 d) = f - a - BitVec.ofNat 96 d by ring, BitVec.toNat_sub_of_le hle, hd]

/-- One interval of the watchdog, with `left` syncs' worth of it to go, has ended. -/
def State.wdOver (s : State) : State :=
  State.setRegN { s with ntu := { s.ntu with wdFrom := s.ntu.wdFrom + BitVec.ofNat 96 s.wdLength } } Reg.NTU_WD_LEFT
    (s.fld Reg.NTU_WD_LEFT 0 8 - 1)

/-- The state in which the next interval begins. -/
def State.wdNext (s : State) : State :=
  if s.fld Reg.NTU_WD_LEFT 0 8 = 1 ∧ s.wdOver.ntuState = 1 then s.wdOver.enterTime 2 else s.wdOver

theorem State.reg_wdOver (s : State) {k : Nat} (hk : k ≠ Reg.NTU_WD_LEFT) : s.wdOver.reg k = s.reg k :=
  (reg_setRegN ..).trans (if_neg hk)

theorem State.ntuState_wdOver (s : State) : s.wdOver.ntuState = s.ntuState := fld_of_reg (s.reg_wdOver (by decide)) 0 2

theorem State.left_wdOver (s : State) : s.wdOver.fld Reg.NTU_WD_LEFT 0 8 = s.fld Reg.NTU_WD_LEFT 0 8 - 1 :=
  fld_setRegN_low _ _ (by decide) ((Nat.sub_le ..).trans_lt (fld_lt ..))

theorem State.reg_enterHoldover (s : State) {k : Nat} (hstat : k ≠ Reg.NTU_STAT) (hk : k ∉ raiseKeys pNTU) :
    (s.enterTime 2).reg k = s.reg k := by
  rw [enterTime_holdover, reg_raise _ hk, reg_timeStat _ _ hstat]

theorem State.reg_wdNext (s : State) {k : Nat} (hk : k ∉ [Reg.NTU_STAT, Reg.NTU_WD_LEFT] ++ raiseKeys pNTU) :
    s.wdNext.reg k = s.reg k := by
  simp only [List.mem_append, List.mem_cons, List.not_mem_nil, or_false, not_or] at hk
  obtain ⟨⟨hstat, hleft⟩, hraise⟩ := hk
  unfold wdNext
  split
  · rw [reg_enterHoldover _ hstat hraise, reg_wdOver _ hleft]
  · exact reg_wdOver _ hleft

theorem State.left_wdNext (s : State) : s.wdNext.fld Reg.NTU_WD_LEFT 0 8 = s.fld Reg.NTU_WD_LEFT 0 8 - 1 := by
  unfold wdNext
  split
  · rw [fld_of_reg (reg_enterHoldover _ (by decide) (by decide)), left_wdOver]
  · exact left_wdOver s

theorem State.ntu_wdNext (s : State) :
    s.wdNext.ntu = { s.ntu with wdFrom := s.ntu.wdFrom + BitVec.ofNat 96 s.wdLength } := by
  unfold wdNext
  split
  · rw [enterTime_holdover, raise_ntu]
    rfl
  · rfl

theorem State.mem_wdNext (s : State) : s.wdNext.mem = s.mem := by
  unfold wdNext
  split
  · rw [enterTime_holdover, raise_mem]
    rfl
  · rfl

theorem State.wdLength_congr {s t : State} (h : t.reg Reg.NTU_SYNC_WD = s.reg Reg.NTU_SYNC_WD) : t.wdLength = s.wdLength := by
  simp only [wdLength, fld_of_reg h]

theorem State.gone_wdNext (s : State) (h : s.wdLength ≤ s.gone s.ntu.wdFrom) :
    s.wdNext.gone s.wdNext.ntu.wdFrom = s.gone s.ntu.wdFrom - s.wdLength := by
  have hfrc : s.wdNext.frcNow = s.frcNow := by rw [frcNow, ntu_wdNext, frcNow]
  rw [gone, hfrc, ntu_wdNext]
  exact toNat_sub_add h

theorem State.wdInterval_succ (fuel : Nat) {s : State} (hleft : s.fld Reg.NTU_WD_LEFT 0 8 ≠ 0) (hwd : s.fld Reg.NTU_SYNC_WD 0 8 ≠ 0)
    (hgone : s.wdLength ≤ s.gone s.ntu.wdFrom) : State.wdInterval (fuel + 1) s = State.wdInterval fuel s.wdNext :=
  if_neg (by omega)

theorem State.wdInterval_stop (fuel : Nat) {s : State} (h : s.fld Reg.NTU_WD_LEFT 0 8 = 0 ∨ s.gone s.ntu.wdFrom < s.wdLength) :
    State.wdInterval fuel s = s := by
  cases fuel with
  | zero => rfl
  | succ fuel => exact if_pos (by omega)

/-- What `k` intervals of the watchdog leave of a state. -/
structure WdGone (s t : State) (k : Nat) : Prop where
  left : t.fld Reg.NTU_WD_LEFT 0 8 = s.fld Reg.NTU_WD_LEFT 0 8 - k
  holdover : s.fld Reg.NTU_WD_LEFT 0 8 ≠ 0 → s.fld Reg.NTU_WD_LEFT 0 8 ≤ k → s.ntuState = 1 →
    t.ntuState = 2 ∧ t.bit (cReg pNTU OFF_INT_STAT) 0 = true
  mem : t.mem = s.mem
  regs : ∀ j, j ∉ [Reg.NTU_STAT, Reg.NTU_WD_LEFT] ++ raiseKeys pNTU → t.reg j = s.reg j

theorem State.holdover_wdNext {s : State} (hleft : s.fld Reg.NTU_WD_LEFT 0 8 = 1) (hstate : s.ntuState = 1) :
    s.wdNext.ntuState = 2 ∧ s.wdNext.bit (cReg pNTU OFF_INT_STAT) 0 = true := by
  rw [wdNext, if_pos ⟨hleft, s.ntuState_wdOver.trans hstate⟩, enterTime_holdover, ntuState, fld_of_reg (reg_raise _ (by decide))]
  exact ⟨ntuState_timeStat _ (by decide), bit_raise _ _ (by decide)⟩

theorem State.ntuState_wdNext {s : State} (hleft : s.fld Reg.NTU_WD_LEFT 0 8 ≠ 1) : s.wdNext.ntuState = s.ntuState := by
  rw [wdNext, if_neg fun h => hleft h.1, ntuState_wdOver]

theorem State.wdGone_wdInterval (fuel : Nat) : ∀ (s : State) (k : Nat), s.fld Reg.NTU_WD_LEFT 0 8 ≤ fuel →
    s.fld Reg.NTU_SYNC_WD 0 8 ≠ 0 → k * s.wdLength ≤ s.gone s.ntu.wdFrom → s.gone s.ntu.wdFrom < (k + 1) * s.wdLength →
    WdGone s (State.wdInterval fuel s) k := by
  induction fuel with
  | zero =>
    intro s k hfuel _ _ _
    exact ⟨by change s.fld Reg.NTU_WD_LEFT 0 8 = _; omega, fun h => absurd (Nat.le_zero.mp hfuel) h, rfl, fun _ _ => rfl⟩
  | succ fuel ih =>
    intro s k hfuel hwd hlo hhi
    by_cases hleft : s.fld Reg.NTU_WD_LEFT 0 8 = 0
    · rw [wdInterval_stop _ (.inl hleft)]
      exact ⟨by omega, fun h => absurd hleft h, rfl, fun _ _ => rfl⟩
    cases k with
    | zero =>
      rw [wdInterval_stop _ (.inr (by omega))]
      exact ⟨rfl, fun h hle => absurd (Nat.le_zero.mp hle) h, rfl, fun _ _ => rfl⟩
    | succ k =>
      rw [Nat.succ_mul] at hlo hhi
      rw [Nat.succ_mul] at hhi
      have hgone : s.wdLength ≤ s.gone s.ntu.wdFrom := by omega
      have hsync : s.wdNext.reg Reg.NTU_SYNC_WD = s.reg Reg.NTU_SYNC_WD := s.reg_wdNext (by decide)
      have hlen := wdLength_congr hsync
      obtain ⟨hl, hh, hm, hr⟩ := ih s.wdNext k (by rw [left_wdNext]; omega) (by rw [fld_of_reg hsync]; exact hwd)
        (by rw [hlen, s.gone_wdNext hgone]; omega) (by rw [hlen, s.gone_wdNext hgone, Nat.succ_mul]; omega)
      rw [left_wdNext] at hl hh
      rw [wdInterval_succ fuel hleft hwd hgone]
      refine ⟨by omega, fun _ hle hstate => ?_, hm.trans s.mem_wdNext, fun j hj => (hr j hj).trans (s.reg_wdNext hj)⟩
      by_cases hone : s.fld Reg.NTU_WD_LEFT 0 8 = 1
      · rw [wdInterval_stop fuel (.inl (by rw [left_wdNext, hone]))]
        exact holdover_wdNext hone hstate
      · exact hh (by omega) (by omega) ((ntuState_wdNext hone).trans hstate)

theorem syncWdInterval_counts (k : Nat) (s : State) (hleft : s.fld Reg.NTU_WD_LEFT 0 8 ≠ 0) (hwd : s.fld Reg.NTU_SYNC_WD 0 8 ≠ 0) :
    let gone := (s.comes s.ntu.wdFrom s.wdLength).gone s.ntu.wdFrom
    k * s.wdLength ≤ gone → gone < (k + 1) * s.wdLength →
    Completes .syncWdInterval s fun t => t.fld Reg.NTU_WD_LEFT 0 8 = s.fld Reg.NTU_WD_LEFT 0 8 - k ∧
      (s.fld Reg.NTU_WD_LEFT 0 8 ≤ k → s.ntuState = 1 → t.ntuState = 2 ∧ t.bit (cReg pNTU OFF_INT_STAT) 0 = true) ∧
      SameMem s t ∧ SameRegs s t ([Reg.NTU_STAT, Reg.NTU_WD_LEFT] ++ raiseKeys pNTU) := by
  intro gone hlo hhi
  obtain ⟨u, hu⟩ : ∃ u, u = s.comes s.ntu.wdFrom s.wdLength := ⟨_, rfl⟩
  have hreg (j : Nat) : u.reg j = s.reg j := by rw [hu, State.reg_comes]
  have hfrom : u.ntu.wdFrom = s.ntu.wdFrom := by
    obtain ⟨c, hc⟩ := s.ntu_comes s.ntu.wdFrom s.wdLength
    rw [hu, hc]
  have hlen : u.wdLength = s.wdLength := State.wdLength_congr (hreg _)
  have hgone : u.gone u.ntu.wdFrom = gone := by rw [hfrom, hu]
  obtain ⟨hl, hh, hm, hr⟩ := State.wdGone_wdInterval 256 u k (fld_lt (u.reg Reg.NTU_WD_LEFT) 0 8).le (by rw [State.fld_of_reg (hreg _)]; exact hwd)
    (by rw [hlen, hgone]; exact hlo) (by rw [hlen, hgone]; exact hhi)
  rw [State.fld_of_reg (hreg _)] at hl hh
  rw [State.ntuState, State.fld_of_reg (hreg _)] at hh
  have hcomes : s.wdComes = u := by rw [State.wdComes, if_neg (by omega), hu]
  refine ⟨_, congrArg (fun v => Host.Outcome.next (State.wdInterval 256 v)) hcomes, hl, hh hleft,
    sameMem_of_mem (hm.trans (by rw [hu, State.comes_mem])), fun j hj => (hr j hj).trans (hreg j)⟩

end Sys2Proof.Machine
end

section
/-! PROOFS. The node number, path delays and PPS (R392 to R395). -/

namespace Sys2Proof.Machine

theorem nodeWrite_takes (m : Fin 8) (v : Word) (s : State) (hacc : s.accepts m Reg.NTU_NODE v = true) (hnode : v.toNat % 16384 ≠ 16383) :
    Completes (.nodeWrite m v) s fun t => t.node = v.toNat % 16384 ∧ SameMem s t ∧ SameRegs s t [Reg.NTU_NODE] := by
  have hexec : exec (.nodeWrite m v) s =
      .next (((s.respond m true Reg.NTU_NODE .ok 0).ntuDiscard []).storeReg Reg.NTU_NODE v) :=
    congrArg Host.Outcome.next ((State.gateWrite_eq hacc (by decide +kernel) _).trans (if_neg hnode))
  refine ⟨_, hexec, ?_, sameMem_of_mem (State.storeReg_mem ..), fun k hk => ?_⟩
  · rw [State.node, State.fld_storeReg_same _ _ (by decide) (by decide +kernel), fld, bits, Nat.shiftRight_zero]
    rfl
  · exact State.reg_storeReg_apart _ v (by decide) (by simpa using hk)

/-! ### Path delays (R395) -/

theorem ntuPort_lt {n w : Nat} (hn : n < 66) (hw : w < 8) : 0x04005400 ≤ ntuPort n w ∧ ntuPort n w < 0x04005C40 := by
  unfold ntuPort Reg.NTU_PORT_RXADJ
  omega

theorem ntuPort_not_mem_raiseKeys {n w : Nat} (hn : n < 66) (hw : w < 8) : ntuPort n w ∉ raiseKeys pNTU := by
  have h := ntuPort_lt hn hw
  exact not_mem_raiseKeys (by decide) (.inl (by omega)) (by omega)

theorem ntuPort_ne {n w v : Nat} (h : w ≠ v) : ntuPort n w ≠ ntuPort n v := by
  unfold ntuPort
  omega

/-- MPD of a port has its new value. -/
def State.mpdTaken (s : State) (n : Nat) (v : Word) : State :=
  { ((s.ntuDiscard []).setReg (ntuPort n 2) v) with
    ntu := { ((s.ntuDiscard []).setReg (ntuPort n 2) v).ntu with
      mpdAt := Sparse.put 0 n s.now.toNat s.ntu.mpdAt } }

theorem State.reg_mpdTaken (s : State) (n : Nat) (v : Word) (k : Nat) :
    (s.mpdTaken n v).reg k = if k = ntuPort n 2 then v else s.reg k := reg_setReg (s.ntuDiscard []) ..

/-- A delay step of a port is shown: its size, whether the fabric made it, and the tick of the fabric's change. -/
def State.stepShown (s : State) (n ns ch : Nat) (fab : Bool) : State :=
  let t := ((s.setBit (ntuPort n 4) 31 true).setRegN (ntuPort n 6) ns).setBit (ntuPort n 4) 30 fab
  if fab then t.setRegN (ntuPort n 5) (ch % 2 ^ 32) else t

theorem State.reg_stepShown (s : State) (n ns ch : Nat) (fab : Bool) {k : Nat}
    (hk : k ∉ [ntuPort n 4, ntuPort n 5, ntuPort n 6]) : (s.stepShown n ns ch fab).reg k = s.reg k := by
  simp only [List.mem_cons, List.not_mem_nil, or_false, not_or] at hk
  obtain ⟨hstat, htick, hns⟩ := hk
  cases fab <;> simp [stepShown, hstat, htick, hns]

theorem State.bit_stepShown (s : State) (n ns ch : Nat) (fab : Bool) : (s.stepShown n ns ch fab).bit (ntuPort n 4) 31 = true := by
  have hshown : ((((s.setBit (ntuPort n 4) 31 true).setRegN (ntuPort n 6) ns).setBit (ntuPort n 4) 30 fab)).bit (ntuPort n 4) 31 = true := by
    rw [bit_setBit _ _ _ _ (by decide), if_neg (fun h => absurd h.2 (by decide)), bit_of_reg ((reg_setRegN ..).trans (if_neg (ntuPort_ne (by decide)))),
      bit_setBit_same _ _ _ (by decide)]
  cases fab with
  | false => exact hshown
  | true => exact (bit_of_reg ((reg_setRegN ..).trans (if_neg (ntuPort_ne (by decide)))) 31).trans hshown

/-- A write of MPD takes it, and shows a difference above PTD_STEP as a step. -/
theorem State.mpdWrite_cases (s : State) {n : Nat} (v : Word) (hn : n < 66) :
    (256 * s.fld Reg.NTU_PTD_STEP 0 20 < ((v.toNat : Int) - (s.reg (ntuPort n 2)).toNat).natAbs ∧
      ∃ ns ch fab, s.mpdWrite n v = ((s.mpdTaken n v).stepShown n ns ch fab).raise pNTU 2) ∨
    (¬ 256 * s.fld Reg.NTU_PTD_STEP 0 20 < ((v.toNat : Int) - (s.reg (ntuPort n 2)).toNat).natAbs ∧ s.mpdWrite n v = s.mpdTaken n v) := by
  have hstep : (s.mpdTaken n v).fld Reg.NTU_PTD_STEP 0 20 = s.fld Reg.NTU_PTD_STEP 0 20 := by
    refine fld_of_reg ((s.reg_mpdTaken n v _).trans (if_neg ?_)) 0 20
    have h := ntuPort_lt hn (show 2 < 8 by decide)
    unfold Reg.NTU_PTD_STEP
    omega
  by_cases h : 256 * s.fld Reg.NTU_PTD_STEP 0 20 < ((v.toNat : Int) - (s.reg (ntuPort n 2)).toNat).natAbs
  · exact .inl ⟨h, _, _, _, if_pos (by rw [← hstep] at h; exact h)⟩
  · exact .inr ⟨h, if_neg (by rw [← hstep] at h; exact h)⟩

theorem mpdWrite_takes (m : Fin 8) (port : Fin 66) (v : Word) (s : State) (hacc : s.accepts m (ntuPort port 2) v = true) :
    Completes (.mpdWrite m port v) s fun t => t.reg (ntuPort port 2) = v ∧
      (256 * s.fld Reg.NTU_PTD_STEP 0 20 < ((v.toNat : Int) - (s.reg (ntuPort port 2)).toNat).natAbs →
        t.bit (ntuPort port 4) 31 = true ∧ t.bit (cReg pNTU OFF_INT_STAT) 2 = true) ∧ SameMem s t ∧
      SameRegs s t ([ntuPort port 2, ntuPort port 4, ntuPort port 5, ntuPort port 6] ++ raiseKeys pNTU) := by
  have hj : journals (ntuPort port 2) = false := by
    have h : ∀ n : Fin 66, journals (ntuPort n 2) = false := by decide +kernel
    exact h port
  have hn := port.isLt
  have hexec : exec (.mpdWrite m port v) s = .next ((s.respond m true (ntuPort port 2) .ok 0).mpdWrite port v) :=
    congrArg Host.Outcome.next (State.gateWrite_eq hacc hj _)
  refine ⟨_, hexec, ?_⟩
  have hreg (k : Nat) : (s.respond m true (ntuPort port 2) .ok 0).reg k = s.reg k := rfl
  have hmem : (s.respond m true (ntuPort port 2) .ok 0).mem = s.mem := rfl
  generalize s.respond m true (ntuPort port 2) .ok 0 = u at hreg hmem
  have hfld : u.fld Reg.NTU_PTD_STEP 0 20 = s.fld Reg.NTU_PTD_STEP 0 20 := State.fld_of_reg (hreg _) 0 20
  obtain ⟨-, ns, ch, fab, hend⟩ | ⟨hsmall, hend⟩ := u.mpdWrite_cases v hn
  · rw [hend]
    refine ⟨?_, fun _ => ⟨?_, State.bit_raise _ _ (by decide)⟩, sameMem_of_mem ?_, fun k hk => ?_⟩
    · rw [State.reg_raise _ (ntuPort_not_mem_raiseKeys hn (by decide)), State.reg_stepShown, State.reg_mpdTaken, if_pos rfl]
      simp [ntuPort]
    · rw [State.bit_of_reg (State.reg_raise _ (ntuPort_not_mem_raiseKeys hn (by decide))), State.bit_stepShown]
    · rw [State.raise_mem]
      cases fab <;> exact hmem
    · obtain ⟨hown, hraise⟩ := not_or.mp (List.mem_append.not.mp hk)
      obtain ⟨hmpd, hshow⟩ := not_or.mp (List.mem_cons.not.mp hown)
      rw [State.reg_raise _ hraise, State.reg_stepShown _ _ _ _ _ hshow, State.reg_mpdTaken, if_neg hmpd, hreg]
  · rw [hend]
    rw [hfld, hreg] at hsmall
    refine ⟨(u.reg_mpdTaken ..).trans (if_pos rfl), fun h => absurd h hsmall, sameMem_of_mem hmem, fun k hk => ?_⟩
    have hmpd : k ≠ ntuPort port 2 := fun h => hk (h ▸ List.mem_cons_self)
    exact (u.reg_mpdTaken ..).trans ((if_neg hmpd).trans (hreg k))

/-! ### PPS (R393, R394) -/

/-- An edge of PPS_IN is stamped. -/
def State.ppsStamped (s : State) : State :=
  ((State.setRegN { s with ntu := { s.ntu with ppsIn := some s.frcNow } } Reg.NTU_PPS_IN_TS s.nt.toNat).setRegN (Reg.NTU_PPS_IN_TS + 4)
    (s.nt.toNat / 2 ^ 32)).setRegN (Reg.NTU_PPS_IN_TS + 8) (s.nt.toNat / 2 ^ 64)

theorem State.reg_ppsStamped (s : State) {k : Nat} (hk : k ∉ [Reg.NTU_PPS_IN_TS, Reg.NTU_PPS_IN_TS + 4, Reg.NTU_PPS_IN_TS + 8]) :
    s.ppsStamped.reg k = s.reg k := by
  simp only [List.mem_cons, List.not_mem_nil, or_false, not_or] at hk
  obtain ⟨h0, h4, h8⟩ := hk
  rw [ppsStamped, reg_setRegN, if_neg h8, reg_setRegN, if_neg h4, reg_setRegN, if_neg h0]
  rfl

theorem State.words_ppsStamped (s : State) : s.ppsStamped.reg Reg.NTU_PPS_IN_TS = BitVec.ofNat 32 s.nt.toNat ∧
    s.ppsStamped.reg (Reg.NTU_PPS_IN_TS + 4) = BitVec.ofNat 32 (s.nt.toNat / 2 ^ 32) ∧
    s.ppsStamped.reg (Reg.NTU_PPS_IN_TS + 8) = BitVec.ofNat 32 (s.nt.toNat / 2 ^ 64) := by
  refine ⟨?_, ?_, (reg_setRegN ..).trans (if_pos rfl)⟩
  · rw [ppsStamped, reg_setRegN, if_neg (by decide), reg_setRegN, if_neg (by decide), reg_setRegN, if_pos rfl]
  · rw [ppsStamped, reg_setRegN, if_neg (by decide), reg_setRegN, if_pos rfl]

/-- Three words hold a time of 96 bits. -/
theorem words_toNat (t : BitVec 96) : (BitVec.ofNat 32 t.toNat).toNat + (BitVec.ofNat 32 (t.toNat / 2 ^ 32)).toNat * 2 ^ 32
    + (BitVec.ofNat 32 (t.toNat / 2 ^ 64)).toNat * 2 ^ 64 = t.toNat := by
  have h := t.isLt
  simp only [BitVec.toNat_ofNat]
  omega

theorem State.ppsIn_of_late {s : State} {cycle : Nat}
    (hlate : match s.ntu.ppsIn with | some p => 65536000000 ≤ ((s.atCycle cycle).frcNow - p).toNat | none => True) :
    s.ppsIn cycle = (s.atCycle cycle).ppsStamped.raise pNTU 3 := by
  have hrecent : (match (s.atCycle cycle).ntu.ppsIn with
      | some p => decide (((s.atCycle cycle).frcNow - p).toNat < 1000000 * 65536)
      | none => false) = false := by
    change (match s.ntu.ppsIn with | some p => _ | none => _) = false
    revert hlate
    cases s.ntu.ppsIn with
    | none => exact fun _ => rfl
    | some p => exact fun h => decide_eq_false (Nat.not_lt.mpr h)
  exact if_neg (Bool.not_eq_true _ ▸ hrecent)

theorem ppsInEdge_stamps (cycle : Nat) (s : State)
    (hlate : match s.ntu.ppsIn with | some p => 65536000000 ≤ ((s.atCycle cycle).frcNow - p).toNat | none => True) :
    Completes (.ppsInEdge cycle) s fun t =>
      (t.reg Reg.NTU_PPS_IN_TS).toNat + (t.reg (Reg.NTU_PPS_IN_TS + 4)).toNat * 2 ^ 32
        + (t.reg (Reg.NTU_PPS_IN_TS + 8)).toNat * 2 ^ 64 = (s.atCycle cycle).nt.toNat ∧
      t.bit (cReg pNTU OFF_INT_STAT) 3 = true ∧ SameMem s t ∧
      SameRegs s t ([Reg.NTU_PPS_IN_TS, Reg.NTU_PPS_IN_TS + 4, Reg.NTU_PPS_IN_TS + 8] ++ raiseKeys pNTU) := by
  refine ⟨_, congrArg Host.Outcome.next (State.ppsIn_of_late hlate), ?_, State.bit_raise _ _ (by decide),
    sameMem_of_mem (State.raise_mem ..), fun k hk => ?_⟩
  · obtain ⟨h0, h4, h8⟩ := (s.atCycle cycle).words_ppsStamped
    rw [State.reg_raise _ (by decide), State.reg_raise _ (by decide), State.reg_raise _ (by decide), h0, h4, h8]
    exact words_toNat _
  · obtain ⟨hown, hraise⟩ := not_or.mp (List.mem_append.not.mp hk)
    rw [State.reg_raise _ hraise, State.reg_ppsStamped _ hown, State.reg_atCycle]

theorem ppsOutRise_rises (cycle : Nat) (s : State) (hon : s.bit Reg.NTU_PPS_CFG 31 = true)
    (hdue : match s.ntu.ppsLast with | some l => s.ppsSec l < s.ppsSec (s.atCycle cycle).ntNs | none => True) :
    Completes (.ppsOutRise cycle) s fun t => t.ntu.ppsOut = true ∧ SameMem s t ∧ SameRegs s t [] := by
  have hdue' : (match (s.atCycle cycle).ntu.ppsLast with
      | some l => decide ((s.atCycle cycle).ppsSec (s.atCycle cycle).ntNs > (s.atCycle cycle).ppsSec l)
      | none => true) = true := by
    change (match s.ntu.ppsLast with | some l => _ | none => _) = true
    revert hdue
    cases s.ntu.ppsLast with
    | none => exact fun _ => rfl
    | some l => exact fun h => decide_eq_true h
  have hrise : s.ppsRise cycle = { s.atCycle cycle with ntu := { (s.atCycle cycle).ntu with
      ppsOut := true, ppsLast := some (s.atCycle cycle).ntNs, ppsFrom := (s.atCycle cycle).frcNow } } := by
    exact if_pos ((Bool.and_eq_true ..).mpr ⟨hon, hdue'⟩)
  exact ⟨_, congrArg Host.Outcome.next hrise, rfl, sameMem_of_mem rfl, fun k _ => rfl⟩

theorem State.ppsFall_cases (s : State) : s.ppsFall = s ∧ s.ntu.ppsOut = false ∨
    s.ppsFall = s.comes s.ntu.ppsFrom s.ppsWidth ∧ s.ntu.ppsOut = true ∧
      (s.comes s.ntu.ppsFrom s.ppsWidth).gone s.ntu.ppsFrom < s.ppsWidth ∨
    s.ppsFall = (s.comes s.ntu.ppsFrom s.ppsWidth).ppsLow ∧ s.ntu.ppsOut = true ∧
      ¬ (s.comes s.ntu.ppsFrom s.ppsWidth).gone s.ntu.ppsFrom < s.ppsWidth := by
  have hfrom : (s.comes s.ntu.ppsFrom s.ppsWidth).ntu.ppsFrom = s.ntu.ppsFrom := by
    obtain ⟨c, hc⟩ := s.ntu_comes s.ntu.ppsFrom s.ppsWidth
    rw [hc]
  have hwidth : (s.comes s.ntu.ppsFrom s.ppsWidth).ppsWidth = s.ppsWidth := by
    simp only [State.ppsWidth, fld_of_reg (s.reg_comes _ _ _)]
  unfold ppsFall
  cases hout : s.ntu.ppsOut with
  | false => exact .inl ⟨rfl, rfl⟩
  | true =>
    dsimp only [Bool.not_true]
    rw [if_neg (by decide), hfrom, hwidth]
    split
    · next h => exact .inr (.inl ⟨rfl, rfl, h⟩)
    · next h => exact .inr (.inr ⟨rfl, rfl, h⟩)

theorem ppsOutFall_falls (s : State) :
    Completes .ppsOutFall s fun t =>
      t.ntu.ppsOut = (s.ntu.ppsOut && decide ((s.comes s.ntu.ppsFrom s.ppsWidth).gone s.ntu.ppsFrom < s.ppsWidth)) ∧
        SameMem s t ∧ SameRegs s t [] := by
  have hout : (s.comes s.ntu.ppsFrom s.ppsWidth).ntu.ppsOut = s.ntu.ppsOut := by
    obtain ⟨c, hc⟩ := s.ntu_comes s.ntu.ppsFrom s.ppsWidth
    rw [hc]
  refine ⟨_, rfl, ?_⟩
  obtain ⟨hend, hlow⟩ | ⟨hend, hhigh, hgone⟩ | ⟨hend, hhigh, hgone⟩ := s.ppsFall_cases
  · rw [hend, hlow]
    exact ⟨rfl, sameMem_of_mem rfl, fun _ _ => rfl⟩
  · rw [hend, hout, hhigh, decide_eq_true hgone]
    exact ⟨rfl, sameMem_of_mem (State.comes_mem ..), fun k _ => s.reg_comes _ _ k⟩
  · rw [hend, hhigh, decide_eq_false hgone]
    exact ⟨rfl, sameMem_of_mem (State.comes_mem ..), fun k _ => s.reg_comes _ _ k⟩

/-- Settles O53, each command by its own lemma. -/
theorem networkTimeCommandsComplete : Obligations.NetworkTimeCommandsComplete := by
  unfold Obligations.NetworkTimeCommandsComplete
  exact ⟨ntuRateWrite_takes, ntuOffsetWrite_takes, ntuStepWrite_takes, lock_locks, hold_holds, ntuFree_frees, sync_registers,
    syncWdInterval_counts, nodeWrite_takes, mpdWrite_takes, ppsInEdge_stamps, ppsOutRise_rises, ppsOutFall_falls⟩

end Sys2Proof.Machine
end

section
/-! PROOFS. What the accounting of buffers leaves of the state (R331 to R337). -/

namespace Sys2Proof.Machine

/-! ### Work of the supervisory network -/

/-- The registers PORT_STAT of ports 0 to 65. -/
def statKey (k : Nat) : Prop := ∃ n, n < 66 ∧ k = atInst Reg.PORT_STAT n

/-- The packet engine without its ports, queues and buffers. -/
def NetSt.others (n : NetSt) : NetSt := { n with ports := [], qs := [], bufs := [], rot := 0 }

/-- Work of the packet engine that touches, of its own state, only ports, queues and buffers, and of the registers only those of `K`
and, in those of `K`, of PORT_STAT only bit 6. -/
structure NetKept (K : Nat → Prop) (s t : State) : Prop where
  mem : t.mem = s.mem
  ntu : t.ntu = s.ntu
  others : t.net.others = s.net.others
  regs : ∀ k, ¬ K k → t.reg k = s.reg k
  stat : ∀ n i, n < 66 → i < 32 → i ≠ 6 → t.bit (atInst Reg.PORT_STAT n) i = s.bit (atInst Reg.PORT_STAT n) i

section
variable {K : Nat → Prop}

theorem NetKept.refl (s : State) : NetKept K s s := ⟨rfl, rfl, rfl, fun _ _ => rfl, fun _ _ _ _ _ => rfl⟩

theorem NetKept.trans {s t u : State} (h : NetKept K s t) (h' : NetKept K t u) : NetKept K s u :=
  ⟨h'.mem.trans h.mem, h'.ntu.trans h.ntu, h'.others.trans h.others, fun k hk => (h'.regs k hk).trans (h.regs k hk),
    fun n i hn hi h6 => (h'.stat n i hn hi h6).trans (h.stat n i hn hi h6)⟩

theorem NetKept.ite {c : Prop} [Decidable c] {s t u : State} (ht : NetKept K s t) (hu : NetKept K s u) :
    NetKept K s (if c then t else u) := by
  split
  · exact ht
  · exact hu

theorem NetKept.foldl {α : Type} (f : State → α → State) (l : List α) (s : State) (h : ∀ t, ∀ a ∈ l, NetKept K t (f t a)) :
    NetKept K s (l.foldl f s) :=
  List.foldlRecOn (motive := fun t => NetKept K s t) l _ (.refl s) fun t ht a ha => ht.trans (h t a ha)

theorem NetKept.mono {K' : Nat → Prop} {s t : State} (h : NetKept K s t) (hK : ∀ k, K k → K' k) : NetKept K' s t :=
  ⟨h.mem, h.ntu, h.others, fun k hk => h.regs k fun hk' => hk (hK k hk'), h.stat⟩

theorem NetKept.of_eq {s t : State} (hmem : t.mem = s.mem) (hntu : t.ntu = s.ntu) (hothers : t.net.others = s.net.others)
    (hregs : t.regs = s.regs) : NetKept K s t := by
  have hreg (k : Nat) : t.reg k = s.reg k := by rw [State.reg, State.reg, hregs]
  exact ⟨hmem, hntu, hothers, fun k _ => hreg k, fun _ i _ _ _ => State.bit_of_reg (hreg _) i⟩

theorem State.netKept_setReg (s : State) {k : Nat} (v : Word) (hK : K k) (hstat : ¬ statKey k) : NetKept K s (s.setReg k v) :=
  ⟨rfl, rfl, rfl, fun _ hj => s.reg_setReg_other v fun h => hj (h ▸ hK),
    fun n i hn _ _ => bit_of_reg (s.reg_setReg_other v fun h => hstat ⟨n, hn, h.symm⟩) i⟩

theorem State.netKept_raise (s : State) {page : Nat} (i : Nat) (hK : ∀ k, k ∈ raiseKeys page → K k) (hpage : page < 0x4000) :
    NetKept K s (s.raise page i) := by
  refine ⟨raise_mem .., raise_ntu .., congrArg NetSt.others (raise_net ..), fun k hk => s.reg_raise fun h => hk (hK k h),
    fun n j hn _ _ => bit_of_reg (s.reg_raise ?_) j⟩
  have haddr : atInst Reg.PORT_STAT n = 0x04060104 + n * 0x1000 := rfl
  exact not_mem_raiseKeys hpage (.inr (by omega)) (by omega)

theorem State.netKept_raiseIf (s : State) (c : Bool) {page : Nat} (i : Nat) (hK : ∀ k, k ∈ raiseKeys page → K k) (hpage : page < 0x4000) :
    NetKept K s (s.raiseIf c page i) :=
  .ite (s.netKept_raise i hK hpage) (.refl s)

/-- Bit 6 of PORT_STAT. -/
theorem State.netKept_setXoff (s : State) {n : Nat} (b : Bool) (hK : K (atInst Reg.PORT_STAT n)) :
    NetKept K s (s.setBit (atInst Reg.PORT_STAT n) 6 b) := by
  refine ⟨rfl, rfl, rfl, fun k hk => (s.reg_setBit ..).trans (if_neg fun (h : k = _) => hk (h ▸ hK)), fun m i _ hi h6 => ?_⟩
  rw [bit_setBit _ _ _ _ (by decide), if_neg fun h => h6 h.2]

end

/-! ### The accounting of buffers -/

/-- Counters of a port of 0 to 65, and its PORT_STAT. -/
def portKey (k : Nat) : Prop := statKey k ∨ ∃ n j, n < 66 ∧ j < 64 ∧ k = atInst Reg.PORT_CNT n + j

/-- The registers that the accounting of the pools `P` changes. -/
def acctKey (P : Nat → Prop) (k : Nat) : Prop :=
  portKey k ∨ k ∈ raiseKeys pBPM ∨ (∃ p, P p ∧ k = Reg.BPM_POOL_STAT + 4 * p) ∨ ∃ p, P p ∧ k = Reg.BPM_NOBUF + 4 * p

/-- What the accounting of buffers in the pools `P` leaves: with what `NetKept` says, the queues and the outputs. -/
structure Accounted (P : Nat → Prop) (s t : State) : Prop where
  kept : NetKept (acctKey P) s t
  qs : t.net.qs = s.net.qs
  outs : t.outs = s.outs

/-- The same, with the buffers as they were. -/
structure PoolKept (P : Nat → Prop) (s t : State) : Prop where
  acct : Accounted P s t
  bufs : t.net.bufs = s.net.bufs

section
variable {P : Nat → Prop}

theorem Accounted.refl (s : State) : Accounted P s s := ⟨.refl s, rfl, rfl⟩

theorem Accounted.trans {s t u : State} (h : Accounted P s t) (h' : Accounted P t u) : Accounted P s u :=
  ⟨h.kept.trans h'.kept, h'.qs.trans h.qs, h'.outs.trans h.outs⟩

theorem Accounted.ite {c : Prop} [Decidable c] {s t u : State} (ht : Accounted P s t) (hu : Accounted P s u) :
    Accounted P s (if c then t else u) := by
  split
  · exact ht
  · exact hu

theorem Accounted.foldl {α : Type} (f : State → α → State) (l : List α) (s : State) (h : ∀ t, ∀ a ∈ l, Accounted P t (f t a)) :
    Accounted P s (l.foldl f s) :=
  List.foldlRecOn (motive := fun t => Accounted P s t) l _ (.refl s) fun t ht a ha => ht.trans (h t a ha)

theorem not_statKey_of_ge {k : Nat} (h : 0x040A2000 ≤ k) : ¬ statKey k := by
  rintro ⟨n, hn, hk⟩
  have haddr : atInst Reg.PORT_STAT n = 0x04060104 + n * 0x1000 := rfl
  omega

theorem PoolKept.refl (s : State) : PoolKept P s s := ⟨.refl s, rfl⟩

theorem PoolKept.trans {s t u : State} (h : PoolKept P s t) (h' : PoolKept P t u) : PoolKept P s u :=
  ⟨h.acct.trans h'.acct, h'.bufs.trans h.bufs⟩

theorem PoolKept.ite {c : Prop} [Decidable c] {s t u : State} (ht : PoolKept P s t) (hu : PoolKept P s u) :
    PoolKept P s (if c then t else u) := by
  split
  · exact ht
  · exact hu

theorem PoolKept.foldl {α : Type} (f : State → α → State) (l : List α) (s : State) (h : ∀ t, ∀ a ∈ l, PoolKept P t (f t a)) :
    PoolKept P s (l.foldl f s) :=
  List.foldlRecOn (motive := fun t => PoolKept P s t) l _ (.refl s) fun t ht a ha => ht.trans (h t a ha)

theorem State.poolKept_setNetPort (s : State) (n : Nat) (f : NetPort → NetPort) : PoolKept P s (s.setNetPort n f) :=
  ⟨⟨.of_eq rfl rfl rfl rfl, rfl, rfl⟩, rfl⟩

theorem State.poolKept_raiseBPM (s : State) (i : Nat) : PoolKept P s (s.raise pBPM i) :=
  ⟨⟨s.netKept_raise i (fun _ h => .inr (.inl h)) (by decide), congrArg NetSt.qs (raise_net ..), raise_outs ..⟩,
    congrArg NetSt.bufs (raise_net ..)⟩

theorem State.poolKept_raiseIfBPM (s : State) (c : Bool) (i : Nat) : PoolKept P s (s.raiseIf c pBPM i) :=
  .ite (s.poolKept_raiseBPM i) (.refl s)

theorem State.poolKept_poolStat (s : State) {p : Nat} (v : Word) (hp : P p) :
    PoolKept P s (s.setReg (Reg.BPM_POOL_STAT + 4 * p) v) :=
  ⟨⟨s.netKept_setReg v (.inr (.inr (.inl ⟨p, hp, rfl⟩))) (not_statKey_of_ge (Nat.le_add_right_of_le (by decide))), rfl, rfl⟩, rfl⟩

theorem State.poolKept_portCount (s : State) (n : Nat) {i : Nat} (hi : i < 16) : PoolKept P s (s.portCount n i) := by
  unfold portCount
  split
  · next hn =>
    refine ⟨⟨s.netKept_setReg _ (.inl (.inr ⟨n, 4 * i, hn, by omega, rfl⟩)) ?_, rfl, rfl⟩, rfl⟩
    rintro ⟨m, hm, h⟩
    have hcnt : atInst Reg.PORT_CNT n = 0x04060140 + n * 0x1000 := rfl
    have hstat : atInst Reg.PORT_STAT m = 0x04060104 + m * 0x1000 := rfl
    omega
  · exact .refl s

theorem State.poolKept_sendPause (s : State) (n quanta : Nat) : PoolKept P s (s.sendPause n quanta) := by
  unfold sendPause
  extract_lets u
  exact (s.poolKept_setNetPort n _).trans (.ite (poolKept_setNetPort _ n _) (poolKept_portCount _ n (by decide)))

theorem State.poolKept_pauseXoff (s : State) {n : Nat} (on : Bool) (hn : n < 66) : PoolKept P s (s.pauseXoff n on) :=
  .trans ⟨⟨s.netKept_setXoff on (.inl (.inl ⟨n, hn, rfl⟩)), rfl, rfl⟩, rfl⟩ (poolKept_sendPause _ n _)

theorem State.lt_of_mem_pausePorts {s : State} {p n : Nat} (h : n ∈ s.pausePorts p) : n < 66 := by
  have hmem := (List.mem_filter.1 h).1
  split at hmem
  · exact (List.mem_range.1 hmem).trans (by decide)
  · split at hmem
    · simp only [List.mem_cons, List.not_mem_nil, or_false] at hmem
      omega
    · exact absurd hmem List.not_mem_nil

theorem State.poolKept_xoffChange (s : State) (p : Nat) (on : Bool) : PoolKept P s (s.xoffChange p on) :=
  .foldl _ _ _ fun t _ hn => t.poolKept_pauseXoff on (lt_of_mem_pausePorts hn)

/-- The three threshold states of a pool, as bits 16 to 18 of its status. -/
def State.setStates (s : State) (p : Nat) (warn xoff low : Bool) : State :=
  ((s.setBit (Reg.BPM_POOL_STAT + 4 * p) 16 warn).setBit (Reg.BPM_POOL_STAT + 4 * p) 17 xoff).setBit (Reg.BPM_POOL_STAT + 4 * p) 18 low

theorem State.poolStates_eq (s : State) (p : Nat) : ∃ warn xoff low rose turned : Bool,
    s.poolStates p = if turned then ((s.setStates p warn xoff low).raiseIf rose pBPM p).xoffChange p xoff
      else (s.setStates p warn xoff low).raiseIf rose pBPM p :=
  ⟨_, _, _, _, _, rfl⟩

theorem State.poolKept_setStates (s : State) {p : Nat} (warn xoff low : Bool) (hp : P p) : PoolKept P s (s.setStates p warn xoff low) :=
  ((s.poolKept_poolStat _ hp).trans (poolKept_poolStat _ _ hp)).trans (poolKept_poolStat _ _ hp)

theorem State.poolKept_poolStates (s : State) {p : Nat} (hp : P p) : PoolKept P s (s.poolStates p) := by
  obtain ⟨warn, xoff, low, rose, turned, h⟩ := s.poolStates_eq p
  have hset := (s.poolKept_setStates warn xoff low hp).trans (poolKept_raiseIfBPM _ rose p)
  rw [h]
  exact .ite (hset.trans (poolKept_xoffChange _ p xoff)) hset

theorem State.poolKept_setUse (s : State) {p : Nat} (n : Nat) (hp : P p) : PoolKept P s (s.setUse p n) :=
  (s.poolKept_poolStat _ hp).trans (poolKept_poolStates _ hp)

theorem State.poolKept_noBuffer (s : State) {p : Nat} (hp : P p) : PoolKept P s (s.noBuffer p) :=
  .trans ⟨⟨s.netKept_setReg _ (.inr (.inr (.inr ⟨p, hp, rfl⟩))) (not_statKey_of_ge (Nat.le_add_right_of_le (by decide))), rfl, rfl⟩, rfl⟩
    (poolKept_raiseBPM _ 4)

theorem State.accounted_setBuf (s : State) (h : Nat) (f : Buf → Buf) : Accounted P s (s.setBuf h f) :=
  ⟨.of_eq rfl rfl rfl rfl, rfl, rfl⟩

theorem State.accounted_choose (s : State) (l : List Nat) : Accounted P s (s.choose l).2 := by
  unfold choose
  split
  · exact .refl s
  · exact ⟨.of_eq rfl rfl rfl rfl, rfl, rfl⟩

theorem State.accounted_freeBuf (s : State) : Accounted P s s.freeBuf.2 := by
  unfold freeBuf
  exact s.accounted_choose _

/-- A buffer of pool `p` is taken for `owner` with `data`, before its pool counts it. -/
def State.takeBuf (s : State) (p owner : Nat) (data : List Byte) : State :=
  let u := s.freeBuf.2.setBuf s.freeBuf.1 fun _ => { alloc := true, pool := p, owner := owner, data := data }
  { u with net := { u.net with rot := (u.net.rot + 1) % 71 } }

theorem State.accounted_takeBuf (s : State) (p owner : Nat) (data : List Byte) : Accounted P s (s.takeBuf p owner data) := by
  have hfree := s.accounted_freeBuf (P := P)
  unfold takeBuf
  generalize s.freeBuf = r at hfree
  extract_lets u
  have hset : Accounted P r.2 u := accounted_setBuf _ _ _
  exact (hfree.trans hset).trans ⟨.of_eq rfl rfl rfl rfl, rfl, rfl⟩

theorem State.alloc_of_grants {s : State} {p : Nat} (owner : Nat) (data : List Byte) (h : s.grants p = true) :
    s.alloc p owner data = (some s.freeBuf.1, (s.takeBuf p owner data).setUse p ((s.takeBuf p owner data).inUse p + 1)) := by
  unfold alloc takeBuf
  rw [if_pos h]

theorem State.alloc_of_refused {s : State} {p : Nat} (owner : Nat) (data : List Byte) (h : s.grants p = false) :
    s.alloc p owner data = (none, s.noBuffer p) := by
  unfold alloc
  rw [if_neg (by rw [h]; decide)]

theorem State.accounted_alloc (s : State) {p : Nat} (owner : Nat) (data : List Byte) (hp : P p) :
    Accounted P s (s.alloc p owner data).2 := by
  cases h : s.grants p with
  | true =>
    rw [alloc_of_grants owner data h]
    exact (s.accounted_takeBuf p owner data).trans (poolKept_setUse _ _ hp).acct
  | false =>
    rw [alloc_of_refused owner data h]
    exact (s.poolKept_noBuffer hp).acct

/-- A buffer that becomes FREE may be of any pool. -/
theorem State.accounted_unbuf (s : State) (h : Nat) : Accounted (fun _ => True) s (s.unbuf h) :=
  .ite ((s.accounted_setBuf h _).trans (poolKept_setUse _ _ trivial).acct) (.refl s)

theorem State.accounted_freeChain (s : State) (l : List Nat) : Accounted (fun _ => True) s (s.freeChain l) :=
  .foldl _ _ _ fun t h _ => t.accounted_unbuf h

end

end Sys2Proof.Machine
end

section
/-! PROOFS. Single buffers, pools and rings (R331, R337, R339, R350, R353). -/

namespace Sys2Proof.Machine

/-! ### The count of a pool -/

theorem not_portKey_of_ge {k : Nat} (h : 0x040A2000 ≤ k) : ¬ portKey k := by
  rintro (hstat | ⟨n, j, hn, hj, hk⟩)
  · exact not_statKey_of_ge h hstat
  · have haddr : atInst Reg.PORT_CNT n = 0x04060140 + n * 0x1000 := rfl
    omega

theorem not_mem_raiseBPM_of_ge {k : Nat} (h : 0x040B2100 ≤ k) : k ∉ raiseKeys pBPM := by
  have hkeys : raiseKeys pBPM = [0x040B2010, 0x04006134, 0x04006010, 0x04006120] := rfl
  simp only [hkeys, List.mem_cons, List.not_mem_nil, or_false, not_or]
  omega

/-- A register of the BPM page below the status of the pools. -/
theorem not_acctKey_below {P : Nat → Prop} {k : Nat} (hlo : 0x040B2100 ≤ k) (hhi : k < 0x040B2140) : ¬ acctKey P k := by
  rintro (h | h | ⟨p, -, h⟩ | ⟨p, -, h⟩)
  · exact not_portKey_of_ge (by omega) h
  · exact not_mem_raiseBPM_of_ge hlo h
  · unfold Reg.BPM_POOL_STAT at h
    omega
  · unfold Reg.BPM_NOBUF at h
    omega

/-- Work that accounts for no pool. -/
theorem not_acctKey_of_ge {k : Nat} (h : 0x040B2100 ≤ k) : ¬ acctKey (fun _ => False) k := by
  rintro (hk | hk | ⟨p, hp, -⟩ | ⟨p, hp, -⟩)
  · exact not_portKey_of_ge (by omega) hk
  · exact not_mem_raiseBPM_of_ge h hk
  · exact hp
  · exact hp

theorem State.inUse_setStates (s : State) (p : Nat) (warn xoff low : Bool) : (s.setStates p warn xoff low).inUse p = s.inUse p := by
  rw [inUse, setStates, fld_setBit_other _ (by decide) (.inr (.inl (by decide))),
    fld_setBit_other _ (by decide) (.inr (.inl (by decide))), fld_setBit_other _ (by decide) (.inr (.inl (by decide))), inUse]

theorem State.inUse_poolStates (s : State) (p : Nat) : (s.poolStates p).inUse p = s.inUse p := by
  obtain ⟨warn, xoff, low, rose, turned, h⟩ := s.poolStates_eq p
  have hge : 0x040B2100 ≤ Reg.BPM_POOL_STAT + 4 * p := Nat.le_add_right_of_le (by decide)
  have hraise : ((s.setStates p warn xoff low).raiseIf rose pBPM p).inUse p = s.inUse p :=
    (fld_of_reg (reg_raiseIf _ (not_mem_raiseBPM_of_ge hge)) 0 16).trans (s.inUse_setStates p warn xoff low)
  rw [h]
  split
  · refine (fld_of_reg ?_ 0 16).trans hraise
    exact (poolKept_xoffChange (P := fun _ => False) _ p xoff).acct.kept.regs _ (not_acctKey_of_ge hge)
  · exact hraise

theorem State.inUse_setUse (s : State) (p n : Nat) : (s.setUse p n).inUse p = n % 65536 :=
  (inUse_poolStates _ p).trans (s.fld_setFld_same (by decide))

theorem State.inUse_takeBuf (s : State) (p owner : Nat) (data : List Byte) (q : Nat) : (s.takeBuf p owner data).inUse q = s.inUse q :=
  fld_of_reg ((s.accounted_takeBuf (P := fun _ => False) p owner data).kept.regs _
    (not_acctKey_of_ge (Nat.le_add_right_of_le (by decide)))) 0 16

/-! ### Which buffer is given (R331) -/

theorem State.choose_lt (s : State) {l : List Nat} {n : Nat} (h : ∀ x ∈ l, x < n) (hn : 0 < n) : (s.choose l).1 < n := by
  unfold choose
  split
  · next x => exact h x List.mem_cons_self
  · by_cases hlt : Config.pick s.fresh % l.length < l.length
    · exact h _ (List.getD_eq_getElem _ _ hlt ▸ List.getElem_mem hlt)
    · rw [List.getD_eq_default _ _ (by omega)]
      exact hn

theorem State.freeBuf_lt (s : State) : s.freeBuf.1 < 16384 := by
  unfold freeBuf
  exact s.choose_lt (fun x hx => List.mem_range.1 (List.mem_filter.1 hx).1) (by decide)

theorem State.buf_setBuf_same (s : State) (h : Nat) (f : Buf → Buf) : (s.setBuf h f).buf h = f (s.buf h) := Sparse.get_put_same ..

theorem State.buf_setBuf_other (s : State) {h k : Nat} (f : Buf → Buf) (hk : k ≠ h) : (s.setBuf h f).buf k = s.buf k :=
  Sparse.get_put_other _ _ _ hk _

theorem State.buf_of_bufs {s t : State} (h : t.net.bufs = s.net.bufs) (k : Nat) : t.buf k = s.buf k := by rw [buf, buf, h]

theorem State.bufs_freeBuf (s : State) : s.freeBuf.2.net.bufs = s.net.bufs := by
  unfold freeBuf choose
  split <;> rfl

theorem State.buf_takeBuf (s : State) (p owner : Nat) (data : List Byte) (k : Nat) : (s.takeBuf p owner data).buf k =
    if k = s.freeBuf.1 then { alloc := true, pool := p, owner := owner, data := data } else s.buf k := by
  have hfree := s.bufs_freeBuf
  have hset : (s.takeBuf p owner data).buf k =
      (s.freeBuf.2.setBuf s.freeBuf.1 fun _ => { alloc := true, pool := p, owner := owner, data := data }).buf k := by
    unfold takeBuf
    generalize s.freeBuf = r
    rfl
  rw [hset]
  generalize s.freeBuf = r at hfree
  split
  · next hk => rw [hk, buf_setBuf_same]
  · next hk => rw [buf_setBuf_other _ _ hk, buf_of_bufs hfree]

/-! ### ALLOC and FREE (R353) -/

theorem State.bpmAlloc_of_grants {s : State} (h : s.grants 2 = true) :
    s.bpmAlloc = ((s.takeBuf 2 70 []).setUse 2 ((s.takeBuf 2 70 []).inUse 2 + 1)).bpmRes 0 s.freeBuf.1 := by
  unfold bpmAlloc
  rw [alloc_of_grants 70 [] h]

theorem State.reg_bpmRes_ok (s : State) (h : Nat) : (s.bpmRes 0 h).reg Reg.BPM_CMD_RES = BitVec.ofNat 32 (2 ^ 31 + h) := by
  rw [bpmRes, reg_setRegN, if_pos rfl, Nat.zero_mul, Nat.add_zero]

theorem alloc_takes (m : Fin 8) (s : State) (hacc : s.accepts m Reg.BPM_CMD 0x40000000 = true) (hgrants : s.grants 2 = true) :
    Completes (.alloc m) s fun t => ∃ h, h < 16384 ∧ t.reg Reg.BPM_CMD_RES = BitVec.ofNat 32 (2 ^ 31 + h) ∧
      (t.buf h).alloc = true ∧ (t.buf h).owner = 70 ∧ (t.buf h).pool = 2 ∧ t.inUse 2 = (s.inUse 2 + 1) % 65536 ∧ SameMem s t := by
  obtain ⟨u, hu⟩ : ∃ u, u = s.respond m true Reg.BPM_CMD .ok 0 := ⟨_, rfl⟩
  have huse : u.inUse 2 = s.inUse 2 := by rw [hu]; rfl
  have hmem : u.mem = s.mem := by rw [hu]; rfl
  have hexec : exec (.alloc m) s = .next (((u.takeBuf 2 70 []).setUse 2 ((u.takeBuf 2 70 []).inUse 2 + 1)).bpmRes 0 u.freeBuf.1) := by
    refine congrArg Host.Outcome.next ((State.gateWrite_eq hacc (by decide +kernel) _).trans ?_)
    rw [← hu]
    exact State.bpmAlloc_of_grants (by rw [hu]; exact hgrants)
  have hset := (u.takeBuf 2 70 []).poolKept_setUse (P := fun p => p = 2) ((u.takeBuf 2 70 []).inUse 2 + 1) rfl
  have hbuf : ((((u.takeBuf 2 70 []).setUse 2 ((u.takeBuf 2 70 []).inUse 2 + 1)).bpmRes 0 u.freeBuf.1)).buf u.freeBuf.1 =
      { alloc := true, pool := 2, owner := 70, data := [] } :=
    (State.buf_of_bufs hset.bufs _).trans ((u.buf_takeBuf 2 70 [] _).trans (if_pos rfl))
  refine ⟨_, hexec, u.freeBuf.1, u.freeBuf_lt, ?_, ?_, ?_, ?_, ?_, sameMem_of_mem ?_⟩
  · rw [State.reg_bpmRes_ok]
  · rw [hbuf]
  · rw [hbuf]
  · rw [hbuf]
  · refine (State.fld_of_reg ((State.reg_setRegN ..).trans (if_neg (by decide))) 0 16).trans ((State.inUse_setUse ..).trans ?_)
    rw [State.inUse_takeBuf, huse]
  · exact (hset.acct.kept.mem.trans (u.accounted_takeBuf (P := fun p => p = 2) 2 70 []).kept.mem).trans hmem

theorem State.unbuf_of_alloc {s : State} {h : Nat} (ha : (s.buf h).alloc = true) :
    s.unbuf h = (s.setBuf h fun _ => {}).setUse (s.buf h).pool (s.inUse (s.buf h).pool - 1) := if_pos ha

theorem State.buf_unbuf (s : State) {h : Nat} (ha : (s.buf h).alloc = true) (k : Nat) :
    (s.unbuf h).buf k = if k = h then {} else s.buf k := by
  rw [unbuf_of_alloc ha, buf_of_bufs (poolKept_setUse (P := fun _ => True) _ _ trivial).bufs]
  split
  · next hk => rw [hk, buf_setBuf_same]
  · next hk => exact buf_setBuf_other _ _ hk

theorem free_frees (m : Fin 8) (h : Fin 16384) (s : State) (hacc : s.accepts m Reg.BPM_CMD (BitVec.ofNat 32 (2 ^ 31 + h.val)) = true)
    (halloc : (s.buf h).alloc = true) (howner : (s.buf h).owner = 70) :
    Completes (.free m h) s fun t => (t.buf h).alloc = false ∧ (∀ k, k ≠ h.val → t.buf k = s.buf k) ∧
      t.reg Reg.BPM_CMD_RES = BitVec.ofNat 32 (2 ^ 31 + h.val) ∧ SameMem s t := by
  obtain ⟨u, hu⟩ : ∃ u, u = s.respond m true Reg.BPM_CMD .ok 0 := ⟨_, rfl⟩
  have hbuf (k : Nat) : u.buf k = s.buf k := by rw [hu]; rfl
  have hmem : u.mem = s.mem := by rw [hu]; rfl
  have halloc' : (u.buf h).alloc = true := by rw [hbuf, halloc]
  have hfree : u.bpmFree m h = (u.unbuf h).bpmRes 0 h := by
    unfold State.bpmFree
    extract_lets b
    rw [if_neg (show ¬ (!(u.buf h).alloc) = true by rw [halloc']; decide),
      if_neg (show ¬ (u.buf h).owner ≠ 70 by rw [hbuf, howner]; decide)]
  have hexec : exec (.free m h) s = .next ((u.unbuf h).bpmRes 0 h) := by
    refine congrArg Host.Outcome.next ((State.gateWrite_eq hacc (by decide +kernel) _).trans ?_)
    rw [← hu]
    exact hfree
  have hkept (k : Nat) : ((u.unbuf h).bpmRes 0 h).buf k = if k = h.val then {} else s.buf k :=
    (u.buf_unbuf halloc' k).trans (by rw [hbuf])
  refine ⟨_, hexec, ?_, fun k hk => (hkept k).trans (if_neg hk), ?_, sameMem_of_mem ((u.accounted_unbuf h).kept.mem.trans hmem)⟩
  · rw [hkept, if_pos rfl]
  · rw [State.reg_bpmRes_ok]

/-! ### Pools and rings (R350, R353) -/

theorem writtenBits_poolCfg (p : Fin 4) : Reg.BPM_POOL_CFG0 + 16 * p.val ∉ takeoverRegs ∧
    ∀ j, j < 32 → bitOf (writtenBits (Reg.BPM_POOL_CFG0 + 16 * p.val)) j = true := by
  revert p
  decide +kernel

theorem bpmPoolCfgWrite_takes (m : Fin 8) (p : Fin 4) (v : Word) (s : State)
    (hacc : s.accepts m (Reg.BPM_POOL_CFG0 + 16 * p) v = true) (hgood : s.poolCfgBad (Reg.BPM_POOL_CFG0 + 16 * p) v = false) :
    Completes (.bpmPoolCfgWrite m p 0 v) s fun t => t.poolMin p = fld v 0 16 ∧ t.poolMax p = fld v 16 16 ∧ SameMem s t := by
  obtain ⟨htakeover, hbits⟩ := writtenBits_poolCfg p
  have hj : ∀ p : Fin 4, journals (Reg.BPM_POOL_CFG0 + 16 * p.val) = false := by decide +kernel
  have hpool : (Reg.BPM_POOL_CFG0 + 16 * p.val) / 16 % 4 = p.val := by
    have hp := p.isLt
    unfold Reg.BPM_POOL_CFG0
    omega
  obtain ⟨u, hu⟩ : ∃ u, u = s.respond m true (Reg.BPM_POOL_CFG0 + 16 * p) .ok 0 := ⟨_, rfl⟩
  have hexec : exec (.bpmPoolCfgWrite m p 0 v) s = .next ((u.storeReg (Reg.BPM_POOL_CFG0 + 16 * p) v).poolStates p) := by
    refine congrArg Host.Outcome.next ((State.gateWrite_eq (a := Reg.BPM_POOL_CFG0 + 16 * p) hacc (hj p) _).trans ?_)
    rw [← hu]
    change (if u.poolCfgBad (Reg.BPM_POOL_CFG0 + 16 * p) v = true then _ else _) = _
    rw [if_neg (by rw [hu]; exact ne_true_of_eq_false hgood)]
    exact congrArg (State.poolStates _) hpool
  have hkept := (u.storeReg (Reg.BPM_POOL_CFG0 + 16 * p) v).poolKept_poolStates (P := fun _ => True) (p := p) trivial
  have hreg := hkept.acct.kept.regs (Reg.BPM_POOL_CFG0 + 16 * p.val) (not_acctKey_below (Nat.le_add_right ..) (by
    have hp := p.isLt
    unfold Reg.BPM_POOL_CFG0
    omega))
  refine ⟨_, hexec, ?_, ?_, sameMem_of_mem (hkept.acct.kept.mem.trans ((State.storeReg_mem ..).trans (by rw [hu]; rfl)))⟩
  · rw [State.poolMin, State.fld_of_reg hreg, State.fld_storeReg_same _ _ htakeover fun j h => hbits _ (by omega)]
  · rw [State.poolMax, State.fld_of_reg hreg, State.fld_storeReg_same _ _ htakeover fun j h => hbits _ (by omega)]

/-- The rings as RESET_RINGS leaves them. -/
def State.ringsReset (s : State) : State :=
  let t := ((s.setRegN (ringReg 0 3) 0).setRegN (ringReg 1 3) 0).setRegN (ringReg 2 3) 0
  { t with net := { t.net with fetch := 0, txOpen := [] } }

theorem State.reg_ringsReset (s : State) (k : Nat) :
    s.ringsReset.reg k = if k ∈ [ringReg 0 3, ringReg 1 3, ringReg 2 3] then 0 else s.reg k := by
  have hreg : s.ringsReset.reg k = (((s.setRegN (ringReg 0 3) 0).setRegN (ringReg 1 3) 0).setRegN (ringReg 2 3) 0).reg k := rfl
  rw [hreg]
  simp only [reg_setRegN, List.mem_cons, List.not_mem_nil, or_false]
  by_cases h0 : k = ringReg 0 3 <;> by_cases h1 : k = ringReg 1 3 <;> by_cases h2 : k = ringReg 2 3 <;> simp [h0, h1, h2]

theorem State.hptCtrlWrite_reset {s : State} (hidle : s.fld Reg.HPT_CTRL 0 2 = 0) :
    s.hptCtrlWrite 4 = (s.storeReg Reg.HPT_CTRL 4).ringsReset := by
  unfold hptCtrlWrite
  extract_lets idle u
  rw [if_pos (show (bitOf 4 2 && (s.fld Reg.HPT_CTRL 0 2 == 0)) = true by rw [hidle]; decide)]
  rfl

theorem resetRings_resets (m : Fin 8) (s : State) (hacc : s.accepts m Reg.HPT_CTRL 4 = true) (hidle : s.fld Reg.HPT_CTRL 0 2 = 0) :
    Completes (.resetRings m) s fun t => (∀ r, r < 3 → t.reg (ringReg r 3) = 0) ∧ t.net.fetch = 0 ∧ t.net.txOpen = [] ∧
      SameMem s t ∧ SameRegs s t [Reg.HPT_CTRL, ringReg 0 3, ringReg 1 3, ringReg 2 3] := by
  have hexec : exec (.resetRings m) s = .next ((s.respond m true Reg.HPT_CTRL .ok 0).storeReg Reg.HPT_CTRL 4).ringsReset := by
    have hword : BitVec.ofNat 32 (s.fld Reg.HPT_CTRL 0 2 + 4) = 4 := by rw [hidle]; rfl
    refine congrArg Host.Outcome.next ?_
    change s.gateWrite m Reg.HPT_CTRL (BitVec.ofNat 32 (s.fld Reg.HPT_CTRL 0 2 + 4))
      (fun s' => s'.hptCtrlWrite (BitVec.ofNat 32 (s.fld Reg.HPT_CTRL 0 2 + 4))) = _
    rw [hword, State.gateWrite_eq hacc (by decide +kernel), State.hptCtrlWrite_reset (s := s.respond m true Reg.HPT_CTRL .ok 0) hidle]
  refine ⟨_, hexec, fun r hr => ?_, rfl, rfl, sameMem_of_mem (State.storeReg_mem ..), fun k hk => ?_⟩
  · rw [State.reg_ringsReset, if_pos]
    have h : r = 0 ∨ r = 1 ∨ r = 2 := by omega
    rcases h with rfl | rfl | rfl <;> decide
  · obtain ⟨hctrl, hring⟩ := not_or.mp (List.mem_cons.not.mp hk)
    rw [State.reg_ringsReset, if_neg hring, State.reg_storeReg_apart _ _ (by decide) hctrl, State.reg_respond]

/-- Settles O50, each command by its own lemma. -/
theorem bufferCommandsComplete : Obligations.BufferCommandsComplete := by
  unfold Obligations.BufferCommandsComplete
  exact ⟨alloc_takes, free_frees, bpmPoolCfgWrite_takes, resetRings_resets⟩

end Sys2Proof.Machine
end

section
/-! PROOFS. Gate lists (R361 to R364). -/

namespace Sys2Proof.Machine

/-! ### Registers of two words -/

theorem State.reg64_lt (s : State) (k : Nat) : s.reg64 k < 2 ^ 64 := by
  have hlow := (s.reg k).isLt
  have hhigh := (s.reg (k + 4)).isLt
  unfold reg64
  omega

theorem State.reg64_setReg64_same (s : State) (k : Nat) {v : Nat} (h : v < 2 ^ 64) : (s.setReg64 k v).reg64 k = v := by
  have hlow : (s.setReg64 k v).reg k = BitVec.ofNat 32 (v % 0x100000000) := by
    rw [setReg64, reg_setRegN, if_neg (by omega), reg_setRegN, if_pos rfl]
  have hhigh : (s.setReg64 k v).reg (k + 4) = BitVec.ofNat 32 (v / 0x100000000 % 0x100000000) := by
    rw [setReg64, reg_setRegN, if_pos rfl]
  rw [reg64, hlow, hhigh, BitVec.toNat_ofNat, BitVec.toNat_ofNat]
  omega

theorem State.reg64_of_reg {s t : State} {k : Nat} (hlow : t.reg k = s.reg k) (hhigh : t.reg (k + 4) = s.reg (k + 4)) :
    t.reg64 k = s.reg64 k := by rw [reg64, reg64, hlow, hhigh]

theorem copyOf_ge (k r : Nat) : 0x100000000 ≤ copyOf k r := by
  unfold copyOf
  omega

/-! ### The port of a gate list -/

theorem State.netPort_setNetPort (s : State) (n : Nat) (f : NetPort → NetPort) : (s.setNetPort n f).netPort n = f (s.netPort n) :=
  Sparse.get_put_same ..

/-- The gate states follow network time, and the rest of the port stays. -/
theorem State.netPort_gateRefresh (s : State) (n : Nat) : (s.gateRefresh n).netPort n =
    { s.netPort n with
      entry := (gateNow (s.operList n) s.nt.toNat).1
      gates := (gateNow (s.operList n) s.nt.toNat).2.1 } :=
  s.netPort_setNetPort n fun p => { p with
    entry := (gateNow (s.operList n) s.nt.toNat).1
    gates := (gateNow (s.operList n) s.nt.toNat).2.1 }

theorem gateEntryChange_follows (port : Fin 66) (cycle : Nat) (s : State) : Completes (.gateEntryChange port cycle) s fun t =>
    (t.netPort port).entry = (gateNow (s.operList port) (s.atCycle cycle).nt.toNat).1 ∧
      (t.netPort port).gates = (gateNow (s.operList port) (s.atCycle cycle).nt.toNat).2.1 ∧ SameMem s t ∧ SameRegs s t [] := by
  have hport : ((s.atCycle cycle).gateRefresh port).netPort port =
      { (s.atCycle cycle).netPort port with
        entry := (gateNow (s.operList port) (s.atCycle cycle).nt.toNat).1
        gates := (gateNow (s.operList port) (s.atCycle cycle).nt.toNat).2.1 } := (s.atCycle cycle).netPort_gateRefresh port
  exact ⟨_, rfl, congrArg NetPort.entry hport, congrArg NetPort.gates hport, sameMem_of_mem rfl, fun _ _ => rfl⟩

/-! ### COMMIT and CANCEL (R363) -/

theorem State.gteRes_cancelled (s : State) : s.gteRes 4 0 = (s.setRegN Reg.GTE_RES 4).raise pGTE 2 := rfl

/-- The administrative list of port `n` waits for its start at BASE. -/
def State.gatePends (s : State) (n : Nat) : State :=
  ((s.setNetPort n fun p => { p with gatePend := some (s.reg64 (copyOf n Reg.GTE_ADM_BASE)) }).setReg64 (copyOf n Reg.GTE_PEND_AT)
    (s.reg64 (copyOf n Reg.GTE_ADM_BASE) % 2 ^ 64)).setRegN Reg.GTE_RES 0

theorem State.gateCommit_onTime {s : State} {n : Nat} (hsel : s.gteSel? = some n) (htests : s.gateTests n = 0)
    (hbase : (s.nt.toNat + 65535) / 65536 + 2 * s.period ≤ s.reg64 (copyOf n Reg.GTE_ADM_BASE)) : s.gateCommit = s.gatePends n := by
  unfold gateCommit
  rw [hsel]
  dsimp only
  rw [if_neg (by rw [htests]; decide), decide_eq_false (Nat.not_lt.mpr hbase), Bool.false_and]
  rfl

theorem State.reg_gatePends (s : State) (n : Nat) {k : Nat}
    (hk : k ∉ [copyOf n Reg.GTE_PEND_AT, copyOf n Reg.GTE_PEND_AT + 4, Reg.GTE_RES]) : (s.gatePends n).reg k = s.reg k := by
  simp only [List.mem_cons, List.not_mem_nil, or_false, not_or] at hk
  obtain ⟨hlow, hhigh, hres⟩ := hk
  rw [gatePends, reg_setRegN, if_neg hres, reg_setReg64_other _ _ hlow hhigh]
  rfl

theorem State.pendAt_gatePends (s : State) (n : Nat) :
    (s.gatePends n).reg64 (copyOf n Reg.GTE_PEND_AT) = s.reg64 (copyOf n Reg.GTE_ADM_BASE) := by
  have hge := copyOf_ge n Reg.GTE_PEND_AT
  have hres : copyOf n Reg.GTE_PEND_AT ≠ Reg.GTE_RES ∧ copyOf n Reg.GTE_PEND_AT + 4 ≠ Reg.GTE_RES := by
    unfold Reg.GTE_RES
    omega
  refine (reg64_of_reg ((reg_setRegN ..).trans (if_neg hres.1)) ((reg_setRegN ..).trans (if_neg hres.2))).trans ?_
  rw [reg64_setReg64_same _ _ (Nat.mod_lt _ (by decide)), Nat.mod_eq_of_lt (s.reg64_lt _)]

theorem gateCommit_pends (m : Fin 8) (cycle n : Nat) (s : State) (hacc : (s.atCycle cycle).accepts m Reg.GTE_CMD 1 = true)
    (hsel : s.gteSel? = some n) (htests : s.gateTests n = 0)
    (hbase : ((s.atCycle cycle).nt.toNat + 65535) / 65536 + 2 * s.period ≤ s.reg64 (copyOf n Reg.GTE_ADM_BASE)) :
    Completes (.gateCommit m cycle) s fun t => (t.netPort n).gatePend = some (s.reg64 (copyOf n Reg.GTE_ADM_BASE)) ∧
      t.reg64 (copyOf n Reg.GTE_PEND_AT) = s.reg64 (copyOf n Reg.GTE_ADM_BASE) ∧ t.reg Reg.GTE_RES = 0 ∧ SameMem s t ∧
      SameRegs s t [copyOf n Reg.GTE_PEND_AT, copyOf n Reg.GTE_PEND_AT + 4, Reg.GTE_RES] := by
  obtain ⟨u, hu⟩ : ∃ u, u = (s.atCycle cycle).respond m true Reg.GTE_CMD .ok 0 := ⟨_, rfl⟩
  have hreg64 : u.reg64 (copyOf n Reg.GTE_ADM_BASE) = s.reg64 (copyOf n Reg.GTE_ADM_BASE) := by rw [hu]; rfl
  have hexec : exec (.gateCommit m cycle) s = .next (u.gatePends n) := by
    refine congrArg Host.Outcome.next ((State.gateWrite_eq hacc (by decide +kernel) _).trans ?_)
    rw [← hu]
    exact State.gateCommit_onTime (by rw [hu]; exact hsel) (by rw [hu]; exact htests) (by rw [hu]; exact hbase)
  have hport : (u.gatePends n).netPort n = { u.netPort n with gatePend := some (u.reg64 (copyOf n Reg.GTE_ADM_BASE)) } :=
    u.netPort_setNetPort n fun p => { p with gatePend := some (u.reg64 (copyOf n Reg.GTE_ADM_BASE)) }
  refine ⟨_, hexec, ?_, (u.pendAt_gatePends n).trans hreg64, (State.reg_setRegN ..).trans (if_pos rfl),
    sameMem_of_mem (by rw [hu]; rfl), fun k hk => (u.reg_gatePends n hk).trans (by rw [hu]; rfl)⟩
  rw [hport, hreg64]

theorem State.gateWithdraw_early {s : State} {n st : Nat} (hpend : (s.netPort n).gatePend = some st) (hearly : s.nt.toNat < 65536 * st) :
    s.gateWithdraw n = ((s.setNetPort n fun p => { p with gatePend := none }).setRegN Reg.GTE_RES 4).raise pGTE 2 := by
  unfold gateWithdraw
  rw [hpend]
  dsimp only
  rw [if_pos hearly, gteRes_cancelled]

theorem gateCancel_withdraws (m : Fin 8) (cycle n st : Nat) (s : State) (hacc : (s.atCycle cycle).accepts m Reg.GTE_CMD 2 = true)
    (hsel : s.gteSel? = some n) (hpend : (s.netPort n).gatePend = some st) (hearly : (s.atCycle cycle).nt.toNat < 65536 * st) :
    Completes (.gateCancel m cycle) s fun t => (t.netPort n).gatePend = none ∧ t.reg Reg.GTE_RES = 4 ∧ SameMem s t ∧
      SameRegs s t (Reg.GTE_RES :: raiseKeys pGTE) := by
  obtain ⟨u, hu⟩ : ∃ u, u = (s.atCycle cycle).respond m true Reg.GTE_CMD .ok 0 := ⟨_, rfl⟩
  have hexec : exec (.gateCancel m cycle) s =
      .next (((u.setNetPort n fun p => { p with gatePend := none }).setRegN Reg.GTE_RES 4).raise pGTE 2) := by
    refine congrArg Host.Outcome.next ((State.gateWrite_eq hacc (by decide +kernel) _).trans ?_)
    have hsel' : u.gteSel? = some n := by rw [hu]; exact hsel
    rw [← hu, State.gateCancel, hsel']
    exact State.gateWithdraw_early (by rw [hu]; exact hpend) (by rw [hu]; exact hearly)
  refine ⟨_, hexec, ?_, ?_, sameMem_of_mem ((State.raise_mem ..).trans (by rw [hu]; rfl)), fun k hk => ?_⟩
  · rw [State.netPort, State.raise_net]
    exact congrArg NetPort.gatePend (u.netPort_setNetPort n fun p => { p with gatePend := none })
  · rw [State.reg_raise _ (by decide), State.reg_setRegN, if_pos rfl]
    rfl
  · obtain ⟨hres, hraise⟩ := not_or.mp (List.mem_cons.not.mp hk)
    rw [State.reg_raise _ hraise, State.reg_setRegN, if_neg hres, hu]
    rfl

/-! ### A list starts (R364) -/

/-- The administrative list of port `n` is copied into the operational one, with the start `st`. -/
def State.listCopied (s : State) (n st : Nat) : State :=
  let s := s.setReg64 (copyOf n Reg.GTE_OPER_BASE) (st % 2 ^ 64)
  let s := s.setReg (copyOf n Reg.GTE_OPER_CYCLE) (s.reg (copyOf n Reg.GTE_ADM_CYCLE))
  s.setReg (copyOf n Reg.GTE_OPER_LEN) (s.reg (copyOf n Reg.GTE_ADM_LEN))

/-- Entry `i` of it. -/
def State.entryCopied (n : Nat) (s : State) (i : Nat) : State :=
  s.setReg (copyOf n (Reg.GTE_OPER_ENTRY + 4 * i)) (s.reg (copyOf n (Reg.GTE_ADM_ENTRY + 4 * i)))

/-- The operational list is on. -/
def State.listOn (s : State) (n : Nat) : State := (s.setNetPort n fun p => { p with gatePend := none, gateOn := true }).gateRefresh n

theorem State.port_listOn (s : State) (n : Nat) : ((s.listOn n).netPort n).gatePend = none ∧ ((s.listOn n).netPort n).gateOn = true := by
  have hset := s.netPort_setNetPort n fun p => { p with gatePend := none, gateOn := true }
  rw [listOn, netPort_gateRefresh, hset]
  exact ⟨rfl, rfl⟩

theorem State.gateStart_due {s : State} {n st : Nat} (hpend : (s.netPort n).gatePend = some st) (hdue : 65536 * st ≤ s.nt.toNat) :
    s.gateStart n = (((List.range 64).foldl (State.entryCopied n) (s.listCopied n st)).listOn n).raise pGTE 0 := by
  unfold gateStart
  rw [hpend]
  dsimp only
  rw [if_neg (Nat.not_lt.mpr hdue)]
  rfl

theorem State.reg_listCopied (s : State) (n st : Nat) {a : Nat} (ha : a < Reg.GTE_OPER_BASE ∨ Reg.GTE_OPER_LEN < a)  :
    (s.listCopied n st).reg (copyOf n a) = s.reg (copyOf n a) := by
  unfold Reg.GTE_OPER_BASE Reg.GTE_OPER_LEN at ha
  have hne (r : Nat) (hr : a ≠ r) : copyOf n a ≠ copyOf n r := by
    unfold copyOf
    omega
  have hbase : copyOf n a ≠ copyOf n Reg.GTE_OPER_BASE + 4 := by
    unfold copyOf Reg.GTE_OPER_BASE
    omega
  rw [listCopied, reg_setReg_other _ _ (hne _ (by unfold Reg.GTE_OPER_LEN; omega)), reg_setReg_other _ _ (hne _ (by unfold Reg.GTE_OPER_CYCLE; omega)),
    reg_setReg64_other _ _ (hne _ (by unfold Reg.GTE_OPER_BASE; omega)) hbase]

theorem copyOf_inj {n a b : Nat} (h : copyOf n a = copyOf n b) : a = b := by
  unfold copyOf at h
  omega

theorem State.cycle_listCopied (s : State) (n st : Nat) :
    (s.listCopied n st).reg (copyOf n Reg.GTE_OPER_CYCLE) = s.reg (copyOf n Reg.GTE_ADM_CYCLE) := by
  have hne (a b : Nat) (h : a ≠ b) : copyOf n a ≠ copyOf n b := fun he => h (copyOf_inj he)
  have hbase : copyOf n Reg.GTE_ADM_CYCLE ≠ copyOf n Reg.GTE_OPER_BASE + 4 := by
    unfold copyOf Reg.GTE_OPER_BASE Reg.GTE_ADM_CYCLE
    omega
  rw [listCopied, reg_setReg_other _ _ (hne _ _ (by decide)), reg_setReg, if_pos rfl, reg_setReg64_other _ _ (hne _ _ (by decide)) hbase]

theorem State.base_listCopied (s : State) (n st : Nat) : (s.listCopied n st).reg64 (copyOf n Reg.GTE_OPER_BASE) = st % 2 ^ 64 := by
  have hne : ∀ b ∈ [Reg.GTE_OPER_CYCLE, Reg.GTE_OPER_LEN],
      copyOf n Reg.GTE_OPER_BASE ≠ copyOf n b ∧ copyOf n Reg.GTE_OPER_BASE + 4 ≠ copyOf n b := by
    intro b hb
    have hgt : Reg.GTE_OPER_BASE + 4 < b := by
      revert b
      decide
    unfold copyOf
    omega
  obtain ⟨hc, hc4⟩ := hne Reg.GTE_OPER_CYCLE (by decide)
  obtain ⟨hl, hl4⟩ := hne Reg.GTE_OPER_LEN (by decide)
  refine (reg64_of_reg ?_ ?_).trans (s.reg64_setReg64_same _ (Nat.mod_lt st (by decide)))
  · rw [listCopied, reg_setReg_other _ _ hl, reg_setReg_other _ _ hc]
  · rw [listCopied, reg_setReg_other _ _ hl4, reg_setReg_other _ _ hc4]

/-- The copy of the entries touches the operational ones only. -/
theorem State.reg_entriesCopied (n : Nat) (s : State) (len : Nat) (k : Nat) :
    (∀ i, i < len → k ≠ copyOf n (Reg.GTE_OPER_ENTRY + 4 * i)) →
    ((List.range len).foldl (State.entryCopied n) s).reg k = s.reg k := by
  induction len with
  | zero => exact fun _ => rfl
  | succ len ih =>
    intro h
    rw [List.range_succ, List.foldl_append]
    exact (reg_setReg_other _ _ (h len (Nat.lt_succ_self len))).trans (ih fun i hi => h i (Nat.lt_succ_of_lt hi))

theorem State.entry_entriesCopied (n : Nat) (s : State) (len : Nat) (hlen : len ≤ 64) (i : Nat) (hi : i < len) :
    ((List.range len).foldl (State.entryCopied n) s).reg (copyOf n (Reg.GTE_OPER_ENTRY + 4 * i)) =
      s.reg (copyOf n (Reg.GTE_ADM_ENTRY + 4 * i)) := by
  induction len with
  | zero => exact absurd hi (Nat.not_lt_zero i)
  | succ len ih =>
    rw [List.range_succ, List.foldl_append]
    refine (reg_setReg ..).trans ?_
    by_cases hlast : i = len
    · subst hlast
      rw [if_pos rfl]
      refine reg_entriesCopied n s i _ fun j hj => fun he => ?_
      have hadm := copyOf_inj he
      unfold Reg.GTE_ADM_ENTRY Reg.GTE_OPER_ENTRY at hadm
      omega
    · rw [if_neg fun he => hlast (by have := copyOf_inj he; omega)]
      exact ih (by omega) (by omega)

theorem gateListStart_starts (port : Fin 66) (cycle st : Nat) (s : State) (hpend : (s.netPort port).gatePend = some st)
    (hdue : 65536 * st ≤ (s.atCycle cycle).nt.toNat) :
    Completes (.gateListStart port cycle) s fun t => (t.netPort port).gatePend = none ∧ (t.netPort port).gateOn = true ∧
      t.reg64 (copyOf port Reg.GTE_OPER_BASE) = st % 2 ^ 64 ∧
      t.reg (copyOf port Reg.GTE_OPER_CYCLE) = s.reg (copyOf port Reg.GTE_ADM_CYCLE) ∧
      (∀ i, i < 64 → t.reg (copyOf port (Reg.GTE_OPER_ENTRY + 4 * i)) = s.reg (copyOf port (Reg.GTE_ADM_ENTRY + 4 * i))) ∧
      t.bit (cReg pGTE OFF_INT_STAT) 0 = true ∧ SameMem s t := by
  obtain ⟨v, hv⟩ : ∃ v, v = (List.range 64).foldl (State.entryCopied port) ((s.atCycle cycle).listCopied port st) := ⟨_, rfl⟩
  have hexec : exec (.gateListStart port cycle) s = .next ((v.listOn port).raise pGTE 0) :=
    congrArg Host.Outcome.next (hv ▸ State.gateStart_due (s := s.atCycle cycle) hpend hdue)
  have hmem : v.mem = s.mem := by
    rw [hv]
    exact List.foldlRecOn (motive := fun t : State => t.mem = s.mem) _ _ rfl fun t ht _ _ => ht
  have hraise (k : Nat) (hk : 0x100000000 ≤ k) : ((v.listOn port).raise pGTE 0).reg k = v.reg k := by
    refine State.reg_raise _ ?_
    have hkeys : raiseKeys pGTE = [0x040B4010, 0x04006134, 0x04006010, 0x04006120] := rfl
    simp only [hkeys, List.mem_cons, List.not_mem_nil, or_false, not_or]
    omega
  have hother (a : Nat) (h : a < Reg.GTE_OPER_ENTRY) : v.reg (copyOf port a) = ((s.atCycle cycle).listCopied port st).reg (copyOf port a) := by
    rw [hv]
    refine State.reg_entriesCopied _ _ _ _ fun i _ he => ?_
    have := copyOf_inj he
    omega
  have hport : ((v.listOn port).raise pGTE 0).netPort port = (v.listOn port).netPort port := by
    rw [State.netPort, State.raise_net, State.netPort]
  obtain ⟨hnone, hon⟩ := v.port_listOn port
  refine ⟨_, hexec, hport ▸ hnone, hport ▸ hon, ?_, ?_, fun i hi => ?_, State.bit_raise _ _ (by decide),
    sameMem_of_mem ((State.raise_mem ..).trans hmem)⟩
  · refine (State.reg64_of_reg ?_ ?_).trans (State.base_listCopied (s.atCycle cycle) port st)
    · exact (hraise _ (copyOf_ge ..)).trans (hother _ (by decide))
    · have hhigh : copyOf port Reg.GTE_OPER_BASE + 4 = copyOf port Reg.GTE_OPER_BASE_HI := by
        unfold copyOf Reg.GTE_OPER_BASE Reg.GTE_OPER_BASE_HI
        omega
      rw [hhigh]
      exact (hraise _ (copyOf_ge ..)).trans (hother _ (by decide))
  · exact ((hraise _ (copyOf_ge ..)).trans (hother _ (by decide))).trans (State.cycle_listCopied (s.atCycle cycle) port st)
  · have hentry := State.entry_entriesCopied port ((s.atCycle cycle).listCopied port st) 64 (by decide) i hi
    rw [← hv, State.reg_listCopied _ _ _ (.inr (by unfold Reg.GTE_OPER_LEN Reg.GTE_ADM_ENTRY; omega))] at hentry
    exact (hraise _ (copyOf_ge ..)).trans hentry

end Sys2Proof.Machine
end

section
/-! PROOFS. Shapers, the Ferris wheel, the Turnstile's buckets and the match table (R366 to R368, R387). -/

namespace Sys2Proof.Machine

/-! ### Copies behind a selector -/

theorem copyOf_mod {a : Nat} (k : Nat) (h : a < 0x100000000) : copyOf k a % 0x100000000 = a := by
  unfold copyOf
  omega

theorem writtenBits_congr {a b : Nat} (h : a % 0x100000000 = b % 0x100000000) : writtenBits a = writtenBits b := by
  unfold writtenBits
  rw [h]

theorem writtenBits_copyOf {a : Nat} (k : Nat) (h : a < 0x100000000) : writtenBits (copyOf k a) = writtenBits a :=
  writtenBits_congr ((copyOf_mod k h).trans (Nat.mod_eq_of_lt h).symm)

theorem writtenBits_of_row {a i : Nat} {r : RegRow} (hlt : a < 0x100000000) (h : regRow? a = some (r, i)) :
    writtenBits a = BitVec.ofNat 32 (r.rw ||| r.rws) := by
  have hrow : regRow? (a % 0x100000000) = some (r, i) := (congrArg regRow? (Nat.mod_eq_of_lt hlt)).trans h
  unfold writtenBits
  rw [hrow]

theorem copyOf_not_mem_takeoverRegs (k a : Nat) : copyOf k a ∉ takeoverRegs := by
  have hge := copyOf_ge k a
  have hlt : ∀ r ∈ takeoverRegs, r < 0x100000000 := by decide
  exact fun h => absurd (hlt _ h) (by omega)

/-! ### The shapers (R366) -/

theorem State.setNetQ_keeps (s : State) (n q : Nat) (f : NetQ → NetQ) :
    (s.setNetQ n q f).mem = s.mem ∧ ∀ k, (s.setNetQ n q f).reg k = s.reg k := ⟨rfl, fun _ => rfl⟩

theorem State.schQWrite_cases (s : State) {a k : Nat} (v : Word) (hsel : s.qSel? Reg.SCH_SEL = some k) :
    s.schQWrite a v = s.storeReg (copyOf k a) v ∨
      ∃ f, s.schQWrite a v = (s.storeReg (copyOf k a) v).setNetQ (k / 8) (k % 8) f := by
  unfold schQWrite
  rw [hsel]
  dsimp only
  split
  · exact .inl rfl
  · exact .inr ⟨_, rfl⟩

theorem shaperConfigWrite_stores (m : Fin 8) (reg : Fin 3) (v : Word) (k : Nat) (r : RegRow) (s : State)
    (hacc : s.accepts m (Reg.SCH_Q_CFG + 4 * reg) v = true) (hsel : s.qSel? Reg.SCH_SEL = some k)
    (hrow : (regRow? (Reg.SCH_Q_CFG + 4 * reg)).map (·.1) = some r) :
    Completes (.shaperConfigWrite m reg v) s fun t =>
      t.reg (copyOf k (Reg.SCH_Q_CFG + 4 * reg)) = (s.reg (copyOf k (Reg.SCH_Q_CFG + 4 * reg)) &&& ~~~ BitVec.ofNat 32 (r.rw ||| r.rws))
        ||| (v &&& BitVec.ofNat 32 (r.rw ||| r.rws)) ∧
      SameMem s t ∧ SameRegs s t [copyOf k (Reg.SCH_Q_CFG + 4 * reg)] := by
  have hj : ∀ reg : Fin 3, journals (Reg.SCH_Q_CFG + 4 * reg.val) = false := by decide +kernel
  have hlt : Reg.SCH_Q_CFG + 4 * reg.val < 0x100000000 := by
    have := reg.isLt
    unfold Reg.SCH_Q_CFG
    omega
  obtain ⟨a, ha⟩ : ∃ a, a = Reg.SCH_Q_CFG + 4 * reg.val := ⟨_, rfl⟩
  have hexec : exec (.shaperConfigWrite m reg v) s = .next ((s.respond m true a .ok 0).schQWrite a v) := by
    rw [ha]
    exact congrArg Host.Outcome.next (State.gateWrite_eq hacc (hj reg) _)
  rw [← ha] at hlt hrow
  have hbits : writtenBits (copyOf k a) = BitVec.ofNat 32 (r.rw ||| r.rws) := by
    obtain ⟨⟨row, i⟩, hfound, hr⟩ := Option.map_eq_some_iff.mp hrow
    rw [writtenBits_copyOf k hlt, writtenBits_of_row hlt hfound, ← hr]
  obtain ⟨hmem, hstored⟩ : ((s.respond m true a .ok 0).schQWrite a v).mem = s.mem ∧
      ∀ j, ((s.respond m true a .ok 0).schQWrite a v).reg j = ((s.respond m true a .ok 0).storeReg (copyOf k a) v).reg j := by
    have hmem : ((s.respond m true a .ok 0).storeReg (copyOf k a) v).mem = s.mem := by rw [State.storeReg_mem, State.respond_mem]
    obtain h | ⟨f, h⟩ := (s.respond m true a .ok 0).schQWrite_cases (a := a) v hsel
    · rw [h]
      exact ⟨hmem, fun _ => rfl⟩
    · obtain ⟨hkeep, hregs⟩ := State.setNetQ_keeps ((s.respond m true a .ok 0).storeReg (copyOf k a) v) (k / 8) (k % 8) f
      rw [h]
      exact ⟨hkeep.trans hmem, hregs⟩
  rw [← ha]
  refine ⟨_, hexec, ?_, sameMem_of_mem hmem, fun j hj => ?_⟩
  · rw [hstored, State.reg_storeReg_same _ _ (copyOf_not_mem_takeoverRegs _ _), hbits, State.reg_respond, takeBits]
  · rw [hstored, State.reg_storeReg_apart _ _ (copyOf_not_mem_takeoverRegs _ _) (by simpa using hj), State.reg_respond]

/-! ### The Ferris wheel (R367) -/

/-- A queue by its key. -/
def State.queue (s : State) (k : Nat) : NetQ := Sparse.get {} k s.net.qs

/-- The decrement of one queue's WAIT. -/
def State.wheelTurn (s : State) (k : Nat) : State :=
  if (s.queue k).wait = 0 ∨ s.fld (copyOf k Reg.WHL_Q_SPB) 0 24 = 0 then s
  else { s with net := { s.net with qs := Sparse.put {} k { s.queue k with wait := (s.queue k).wait - 1 } s.net.qs } }

/-- WAIT of a queue after a slot begins. -/
def State.slotWait (s : State) (k : Nat) : Nat :=
  if s.fld (copyOf k Reg.WHL_Q_SPB) 0 24 = 0 then (s.queue k).wait else (s.queue k).wait - 1

theorem State.wheelSlot_of_due {s : State} (h : s.wheelDue = true) :
    s.wheelSlot = { (s.net.qs.map (·.1)).foldl State.wheelTurn s with
      net := { ((s.net.qs.map (·.1)).foldl State.wheelTurn s).net with wheel := some ((s.net.qs.map (·.1)).foldl State.wheelTurn s).now } } :=
  if_neg (by rw [h]; decide)

theorem State.keep_wheelTurn (s : State) (k : Nat) :
    (s.wheelTurn k).regs = s.regs ∧ (s.wheelTurn k).mem = s.mem ∧ (s.wheelTurn k).now = s.now := by
  unfold wheelTurn
  split <;> exact ⟨rfl, rfl, rfl⟩

theorem State.wait_wheelTurn_same (s : State) (k : Nat) : ((s.wheelTurn k).queue k).wait = s.slotWait k := by
  unfold wheelTurn slotWait
  split
  · next h =>
    split
    · rfl
    · omega
  · next h =>
    rw [if_neg fun hspb => h (.inr hspb)]
    exact congrArg NetQ.wait (Sparse.get_put_same ..)

theorem State.queue_wheelTurn_other (s : State) {k j : Nat} (h : j ≠ k) : (s.wheelTurn k).queue j = s.queue j := by
  unfold wheelTurn
  split
  · rfl
  · exact Sparse.get_put_other _ _ _ h _

theorem State.slotWait_wheelTurn_other (s : State) {k j : Nat} (h : j ≠ k) : (s.wheelTurn k).slotWait j = s.slotWait j := by
  obtain ⟨hregs, -, -⟩ := s.keep_wheelTurn k
  rw [slotWait, slotWait, s.queue_wheelTurn_other h, fld, reg, hregs]
  rfl

/-- Each listed queue's WAIT falls once. -/
theorem State.wait_wheelTurns (l : List Nat) (hl : l.Nodup) (j : Nat) : ∀ s : State,
    ((l.foldl State.wheelTurn s).queue j).wait = if j ∈ l then s.slotWait j else (s.queue j).wait := by
  induction l with
  | nil => exact fun _ => rfl
  | cons k l ih =>
    intro s
    obtain ⟨hk, hl⟩ := List.nodup_cons.mp hl
    rw [List.foldl_cons, ih hl]
    by_cases hj : j = k
    · subst hj
      rw [if_neg hk, if_pos List.mem_cons_self, wait_wheelTurn_same]
    · simp only [List.mem_cons, hj, false_or, s.slotWait_wheelTurn_other hj, s.queue_wheelTurn_other hj]

theorem Sparse.get_of_not_mem {α : Type} (d : α) {k : Nat} {m : Sparse α} (h : k ∉ m.map (·.1)) : Sparse.get d k m = d := by
  induction m with
  | nil => rfl
  | cons e m ih =>
    obtain ⟨k', v⟩ := e
    simp only [List.map_cons, List.mem_cons, not_or] at h
    obtain ⟨hk, hm⟩ := h
    rw [Sparse.get, if_neg hk, ih hm]

theorem wheelSlot_turns (s : State) (hdue : s.wheelDue = true) (hkeys : (s.net.qs.map (·.1)).Nodup) :
    Completes .wheelSlot s fun t => t.net.wheel = some s.now ∧ (∀ n q, q < 8 → (t.netQ n q).wait =
      (if s.fld (copyOf (8 * n + q) Reg.WHL_Q_SPB) 0 24 = 0 then (s.netQ n q).wait else (s.netQ n q).wait - 1)) ∧ SameMem s t ∧
      SameRegs s t [] := by
  obtain ⟨hregs, hmem, hnow⟩ : ((s.net.qs.map (·.1)).foldl State.wheelTurn s).regs = s.regs ∧
      ((s.net.qs.map (·.1)).foldl State.wheelTurn s).mem = s.mem ∧ ((s.net.qs.map (·.1)).foldl State.wheelTurn s).now = s.now := by
    refine List.foldlRecOn (motive := fun t : State => t.regs = s.regs ∧ t.mem = s.mem ∧ t.now = s.now) _ _ ⟨rfl, rfl, rfl⟩ ?_
    rintro t ⟨hr, hm, hn⟩ k -
    obtain ⟨hr', hm', hn'⟩ := t.keep_wheelTurn k
    exact ⟨hr'.trans hr, hm'.trans hm, hn'.trans hn⟩
  have hwait (j : Nat) := State.wait_wheelTurns (s.net.qs.map (·.1)) hkeys j s
  refine ⟨_, congrArg Host.Outcome.next (State.wheelSlot_of_due hdue), congrArg some hnow, fun n q _ => ?_, sameMem_of_mem hmem,
    fun k _ => congrArg (Sparse.get (regReset k) k) hregs⟩
  refine (hwait (8 * n + q)).trans ?_
  by_cases hin : 8 * n + q ∈ s.net.qs.map (·.1)
  · rw [if_pos hin]
    rfl
  · have hidle : s.netQ n q = {} := Sparse.get_of_not_mem _ hin
    rw [if_neg hin, State.queue, Sparse.get_of_not_mem _ hin, hidle]
    exact (ite_self _).symm

/-! ### The Turnstile and the match table (R368, R387) -/

theorem State.polCfgWrite_eq {s : State} (v : Word) (h : s.fld Reg.POL_SEL 8 7 ≤ 66) :
    s.polCfgWrite v = (s.storeReg (copyOf (8 * s.fld Reg.POL_SEL 8 7 + s.fld Reg.POL_SEL 0 3) Reg.POL_CFG) v).setTokens
      (8 * s.fld Reg.POL_SEL 8 7 + s.fld Reg.POL_SEL 0 3) (Machine.fld v 16 16 * 64) := if_neg (Nat.not_lt.mpr h)

theorem State.setTokens_keeps (s : State) (k n : Nat) : Sparse.get 0 k (s.setTokens k n).net.tokens = n ∧
    (s.setTokens k n).mem = s.mem ∧ ∀ j, (s.setTokens k n).reg j = s.reg j := ⟨Sparse.get_put_same .., rfl, fun _ => rfl⟩

theorem polCfgWrite_fills (m : Fin 8) (v : Word) (s : State) (hacc : s.accepts m Reg.POL_CFG v = true) (hsel : s.fld Reg.POL_SEL 8 7 ≤ 66) :
    let k := 8 * s.fld Reg.POL_SEL 8 7 + s.fld Reg.POL_SEL 0 3
    Completes (.polCfgWrite m v) s fun t => Sparse.get 0 k t.net.tokens = fld v 16 16 * 64 ∧
      t.fld (copyOf k Reg.POL_CFG) 0 2 = fld v 0 2 ∧ SameMem s t ∧ SameRegs s t [copyOf k Reg.POL_CFG] := by
  intro k
  obtain ⟨u, hu⟩ : ∃ u, u = s.respond m true Reg.POL_CFG .ok 0 := ⟨_, rfl⟩
  have hreg (j : Nat) : u.reg j = s.reg j := by rw [hu, State.reg_respond]
  have hmem : u.mem = s.mem := by rw [hu, State.respond_mem]
  have hport : u.fld Reg.POL_SEL 8 7 = s.fld Reg.POL_SEL 8 7 := State.fld_of_reg (hreg _) 8 7
  have hcls : u.fld Reg.POL_SEL 0 3 = s.fld Reg.POL_SEL 0 3 := State.fld_of_reg (hreg _) 0 3
  have hend := u.polCfgWrite_eq v (hport ▸ hsel)
  rw [hport, hcls] at hend
  have hexec : exec (.polCfgWrite m v) s = .next ((u.storeReg (copyOf k Reg.POL_CFG) v).setTokens k (fld v 16 16 * 64)) :=
    congrArg Host.Outcome.next ((State.gateWrite_eq hacc (by decide +kernel) _).trans (hu ▸ hend))
  have hbits : ∀ j, j < 2 → bitOf (writtenBits Reg.POL_CFG) (0 + j) = true := by decide +kernel
  have hcopy : writtenBits (copyOf k Reg.POL_CFG) = writtenBits Reg.POL_CFG := writtenBits_copyOf k (by decide)
  obtain ⟨htokens, hkeep, hregs⟩ := (u.storeReg (copyOf k Reg.POL_CFG) v).setTokens_keeps k (fld v 16 16 * 64)
  refine ⟨_, hexec, htokens, ?_, sameMem_of_mem (hkeep.trans ((State.storeReg_mem ..).trans hmem)), fun j hj => ?_⟩
  · rw [State.fld_of_reg (hregs _)]
    exact u.fld_storeReg_same v (copyOf_not_mem_takeoverRegs _ _) (hcopy ▸ hbits)
  · rw [hregs, u.reg_storeReg_apart v (copyOf_not_mem_takeoverRegs _ _) (by simpa using hj), hreg]

theorem tcEntryExpiry_expires (cycle : Nat) (s : State) : Completes (.tcEntryExpiry cycle) s fun t => t.tc = s.tc.filter
    (fun e => decide (((s.atCycle cycle).frcNow - e.at').toNat < 1000000000 * 65536)) ∧ SameMem s t ∧ SameRegs s t [] :=
  ⟨_, rfl, rfl, sameMem_of_mem rfl, fun _ _ => rfl⟩

end Sys2Proof.Machine
end

section
/-! PROOFS. The transmitter of a port takes a frame of queue 7 (R356 to R359). -/

namespace Sys2Proof.Machine

/-! ### Frees after a transmission (R335, R336) -/

theorem State.accounted_release (s : State) (n : Nat) (f : QFrame) : Accounted (fun _ => True) s (s.release n f) := by
  have hmark (c : Prop) [Decidable c] (h : Nat) (g g' : Buf → Buf) : Accounted (fun _ => True) s (if c then s.setBuf h g else s.setBuf h g') :=
    .ite (s.accounted_setBuf h g) (s.accounted_setBuf h g')
  unfold release
  split
  · exact s.accounted_freeChain f.chain
  · extract_lets h u
    exact (hmark _ h _ _).trans (.ite (accounted_freeChain _ f.chain) (.refl _))

theorem State.release_keeps (s : State) (n : Nat) (f : QFrame) :
    (s.release n f).mem = s.mem ∧ (s.release n f).outs = s.outs ∧ (s.release n f).net.qs = s.net.qs := by
  obtain ⟨hkept, hqs, houts⟩ := s.accounted_release n f
  exact ⟨hkept.mem, houts, hqs⟩

/-! ### A frame is sent -/

theorem State.netQ_setNetQ (s : State) (n q : Nat) (f : NetQ → NetQ) : (s.setNetQ n q f).netQ n q = f (s.netQ n q) :=
  Sparse.get_put_same ..

/-- The bytes of a frame depend on the buffers alone. -/
theorem State.leaving_congr {s t : State} (h : t.net.bufs = s.net.bufs) (f : QFrame) : t.leaving f = s.leaving f := by
  have hbuf : t.bufBytes = s.bufBytes := by
    funext k
    rw [bufBytes, buf_of_bufs h, bufBytes]
  unfold leaving stored
  rw [hbuf]

theorem State.ptpKind_congr {s t : State} (hcfg : t.reg Reg.NTU_PTP_CFG = s.reg Reg.NTU_PTP_CFG)
    (htc : t.reg Reg.NTU_TC_CFG = s.reg Reg.NTU_TC_CFG) (f : PtpFix) : t.ptpKind f = s.ptpKind f := by
  have hmode : t.tcMode = s.tcMode := by
    unfold tcMode
    rw [fld_of_reg htc]
  unfold ptpKind
  rw [bit_of_reg hcfg, hmode, bit_of_reg htc]

theorem State.ptpLeave_plain {s : State} {f : PtpFix} (h : s.ptpKind f = 0) (n : Nat) (l : List Byte) (ts : BitVec 96) :
    s.ptpLeave n f l ts = (l, s) := by
  unfold ptpLeave
  extract_lets dreq amount
  rw [h]
  rfl

/-- The head frame of queue `q` has left its queue and is charged to its shaper. -/
def State.headTaken (s : State) (n q : Nat) (f : QFrame) (rest : List QFrame) : State :=
  (s.setNetQ n q fun x => { x with frames := rest, deficit := if rest.isEmpty then 0 else x.deficit }).charge n q (s.clen n f)

theorem State.charge_keeps (s : State) (n q c : Nat) : (s.charge n q c).mem = s.mem ∧ (s.charge n q c).outs = s.outs ∧
    (s.charge n q c).net.bufs = s.net.bufs ∧ (∀ k, k < 0x100000000 → (s.charge n q c).reg k = s.reg k) ∧
    ((s.charge n q c).netQ n q).frames = (s.netQ n q).frames := by
  refine ⟨rfl, rfl, rfl, fun k hk => ?_, ?_⟩
  · have hge := copyOf_ge (8 * n + q) Reg.SCH_Q_TXFRM
    exact (State.reg_bump ..).trans (if_neg (by omega))
  · refine (congrArg NetQ.frames (netQ_setNetQ _ n q _)).trans ?_
    split
    · rfl
    · split <;> rfl

theorem State.headTaken_keeps (s : State) (n q : Nat) (f : QFrame) (rest : List QFrame) :
    (s.headTaken n q f rest).mem = s.mem ∧ (s.headTaken n q f rest).outs = s.outs ∧
    (s.headTaken n q f rest).net.bufs = s.net.bufs ∧ (∀ k, k < 0x100000000 → (s.headTaken n q f rest).reg k = s.reg k) ∧
    ((s.headTaken n q f rest).netQ n q).frames = rest := by
  obtain ⟨hmem, houts, hbufs, hregs, hframes⟩ := State.charge_keeps
    (s.setNetQ n q fun x => { x with frames := rest, deficit := if rest.isEmpty then 0 else x.deficit }) n q (s.clen n f)
  refine ⟨hmem, houts, hbufs, hregs, hframes.trans ?_⟩
  rw [netQ_setNetQ]

theorem State.transmit_keeps (s : State) (n : Nat) (l : List Byte) : (s.transmit n l).mem = s.mem ∧
    (s.transmit n l).outs = .frame n l :: s.outs ∧ (s.transmit n l).net.qs = s.net.qs := by
  have hoctets (u : State) (i k : Nat) : (u.octets n i k).mem = u.mem ∧ (u.octets n i k).outs = u.outs ∧ (u.octets n i k).net = u.net := by
    unfold octets
    split <;> exact ⟨rfl, rfl, rfl⟩
  have hcount (u : State) (i : Nat) : (u.portCount n i).mem = u.mem ∧ (u.portCount n i).outs = u.outs ∧ (u.portCount n i).net = u.net := by
    unfold portCount
    split <;> exact ⟨rfl, rfl, rfl⟩
  obtain ⟨hm, ho, hn⟩ := hoctets ((s.emit (.frame n l)).portCount n 11) 12 (l.length + 4)
  obtain ⟨hm', ho', hn'⟩ := hcount (s.emit (.frame n l)) 11
  have hqs : (((s.emit (.frame n l)).portCount n 11).octets n 12 (l.length + 4)).net.qs = s.net.qs :=
    congrArg NetSt.qs (hn.trans hn')
  exact ⟨hm.trans hm', ho.trans ho', hqs⟩

theorem State.sendHead_plain {s : State} {n q : Nat} {f : QFrame} {rest : List QFrame} (ahead : Nat)
    (hframes : (s.netQ n q).frames = f :: rest) (hptp : s.ptpKind f.ptp = 0) (hdesc : f.desc = none) :
    s.sendHead n q ahead = ((s.headTaken n q f rest).transmit n (s.leaving f)).release n f := by
  obtain ⟨-, -, hbufs, hregs, -⟩ := s.headTaken_keeps n q f rest
  have hleave : (s.headTaken n q f rest).leaving f = s.leaving f := leaving_congr hbufs f
  have hkind : (s.headTaken n q f rest).ptpKind f.ptp = 0 := (ptpKind_congr (hregs _ (by decide)) (hregs _ (by decide)) f.ptp).trans hptp
  have hplain := ptpLeave_plain hkind n ((s.headTaken n q f rest).leaving f) ((s.headTaken n q f rest).txStamp n ahead)
  unfold sendHead
  rw [hframes]
  dsimp only
  rw [hdesc]
  change (((s.headTaken n q f rest).ptpLeave n f.ptp ((s.headTaken n q f rest).leaving f)
    ((s.headTaken n q f rest).txStamp n ahead)).2.transmit n ((s.headTaken n q f rest).ptpLeave n f.ptp
      ((s.headTaken n q f rest).leaving f) ((s.headTaken n q f rest).txStamp n ahead)).1).release n f = _
  rw [hplain, hleave]

theorem State.sendHead_sends {s : State} {n q : Nat} {f : QFrame} {rest : List QFrame} (ahead : Nat)
    (hframes : (s.netQ n q).frames = f :: rest) (hptp : s.ptpKind f.ptp = 0) (hdesc : f.desc = none) :
    (s.sendHead n q ahead).outs = .frame n (s.leaving f) :: s.outs ∧ ((s.sendHead n q ahead).netQ n q).frames = rest ∧
      (s.sendHead n q ahead).mem = s.mem := by
  obtain ⟨hm, ho, -, -, hf⟩ := s.headTaken_keeps n q f rest
  obtain ⟨hm', ho', hq'⟩ := (s.headTaken n q f rest).transmit_keeps n (s.leaving f)
  obtain ⟨hm'', ho'', hq''⟩ := ((s.headTaken n q f rest).transmit n (s.leaving f)).release_keeps n f
  rw [sendHead_plain ahead hframes hptp hdesc]
  refine ⟨ho''.trans (ho'.trans (congrArg _ ho)), ?_, hm''.trans (hm'.trans hm)⟩
  rw [netQ, hq'', hq']
  exact hf

/-! ### The choice (R358, R359, R362) -/

theorem State.operList_off {s : State} {n : Nat} (h : (s.netPort n).gateOn = false) : s.operList n = none := if_neg (by rw [h]; decide)

theorem State.dropOversize_off {s : State} {n : Nat} (h : (s.netPort n).gateOn = false) : s.dropOversize n = s := by
  have hlist := operList_off h
  have hfits (q : Nat) : s.oversize n q = false := by
    unfold oversize
    rw [hlist]
    split
    · next hl => exact absurd hl (by simp)
    · rfl
  have hdrop (q fuel : Nat) : State.dropOver n q fuel s = s := by
    cases fuel with
    | zero => rfl
    | succ fuel => exact if_neg (by rw [hfits]; decide)
  exact List.foldlRecOn (motive := fun t => t = s) _ _ rfl fun t ht q _ => by rw [ht, hdrop]

theorem State.gateFits_off {s : State} {n q : Nat} {f : QFrame} {rest : List QFrame} (hon : (s.netPort n).gateOn = false)
    (hpend : (s.netPort n).gatePend = none) (hframes : (s.netQ n q).frames = f :: rest) (hq : q < 8) : s.gateFits n q = true := by
  have hpendList : s.pendList n = none := by rw [pendList, hpend]; rfl
  unfold gateFits
  rw [hframes]
  dsimp only
  rw [operList_off hon, hpendList, staysOpen]
  have hopen : ∀ q, q < 8 → bitAt 0xFF q = true := by decide
  simp [gateNow, hopen q hq]

theorem egressSelect_sends (port : Fin 66) (cycle ahead : Nat) (f : QFrame) (l : List QFrame) (s : State) :
    let u := s.atCycle cycle
    (s.netPort port).gateOn = false → (s.netPort port).gatePend = none → s.strict7 port = true →
    (s.netQ port 7).frames = f :: l → s.ptpKind f.ptp = 0 → f.desc = none → s.roleActs = true → u.portSends port = true → s.qBlocked port 7 = false →
    s.qShaped port 7 = false → (s.netPort port).txFree.toNat ≤ u.frcNow.toNat → (s.netPort port).pausePend = none →
    Completes (.egressSelect port cycle ahead) s fun t => t.outs = .frame port (s.leaving f) :: s.outs ∧
      (t.netQ port 7).frames = l ∧ SameMem s t := by
  intro u hon hpend hstrict hframes hptp hdesc hacts hsends hblocked hshaped hfree hpause
  have hport := u.netPort_gateRefresh port
  obtain ⟨v, hv⟩ : ∃ v, v = u.gateRefresh port := ⟨_, rfl⟩
  rw [← hv] at hport
  have honv : (v.netPort port).gateOn = false := by rw [hport]; exact hon
  have hpendv : (v.netPort port).gatePend = none := by rw [hport]; exact hpend
  have hpausev : (v.netPort port).pausePend = none := by rw [hport]; exact hpause
  have hframesv : (v.netQ port 7).frames = f :: l := by rw [hv]; exact hframes
  have hpaused : v.portPaused port = u.portPaused port := by
    rw [State.portPaused, hport, hv]
    rfl
  have hsendsv : v.portSends port = true := by
    rw [State.portSends, hpaused, hv]
    exact hsends
  have hready : v.qReady port 7 = true := by
    have hblockedv : v.qBlocked port 7 = false := by rw [hv]; exact hblocked
    have hshapedv : v.qShaped port 7 = false := by rw [hv]; exact hshaped
    rw [State.qReady, hframesv, hsendsv, State.gateFits_off honv hpendv hframesv (by decide), hblockedv, hshapedv]
    rfl
  have hselect : v.selectQ port = (some 7, v) := by
    have hstrictv : v.strict7 port = true := by rw [hv]; exact hstrict
    rw [State.selectQ, hstrictv, hready]
    rfl
  have hegress : u.egress port ahead = v.sendHead port 7 ahead := by
    have hbusy : ¬ ((!v.roleActs) = true ∨ v.frcNow.toNat < (v.netPort port).txFree.toNat) := by
      rintro (h | h)
      · rw [hv] at h
        exact absurd ((congrArg (!·) hacts).symm.trans h) (by decide)
      · rw [hport, hv] at h
        exact absurd hfree (Nat.not_le.mpr h)
    unfold State.egress
    extract_lets w
    have hw : w = v := by rw [hv]; exact State.dropOversize_off (hv ▸ honv)
    clear_value w
    subst hw
    rw [if_neg hbusy, hpausev]
    dsimp only
    rw [hselect]
  obtain ⟨houts, hq, hmem⟩ := State.sendHead_sends (s := v) (n := port) (q := 7) ahead hframesv (by rw [hv]; exact hptp) hdesc
  refine ⟨_, congrArg Host.Outcome.next hegress, ?_, hq, sameMem_of_mem (hmem.trans (by rw [hv]; rfl))⟩
  rw [houts, hv]
  exact congrArg (fun b => Out.frame port b :: s.outs) (State.leaving_congr rfl f)

/-- Settles O52, each command by its own lemma. -/
theorem schedulingCommandsComplete : Obligations.SchedulingCommandsComplete := by
  unfold Obligations.SchedulingCommandsComplete
  exact ⟨egressSelect_sends, gateEntryChange_follows, gateCommit_pends, gateCancel_withdraws, gateListStart_starts,
    shaperConfigWrite_stores, wheelSlot_turns, polCfgWrite_fills, tcEntryExpiry_expires⟩

end Sys2Proof.Machine
end

section
/-! PROOFS. The links of the supervisory ports and uplinks, and their 1 ms intervals (R315, R355, R358). -/

namespace Sys2Proof.Machine

theorem pSUP_lt {n : Nat} (hn : n < 66) : pSUP n < 0x4000 := by
  unfold pSUP
  omega

/-- Registers of a port's page that are not those of an event. -/
theorem atInst_not_mem_raiseKeys {r n page : Nat} (hr : 0x04060100 ≤ r ∧ r < 0x04061000) (hp : page < 0x4000) :
    atInst r n ∉ raiseKeys page :=
  not_mem_raiseKeys hp (.inr (by unfold atInst; omega)) (by unfold atInst; omega)

/-! ### Links (R355, R358) -/

theorem State.portLinkUp_of_down {s : State} {n : Nat} (an : Bool) (hen : s.bit (atInst Reg.PORT_CTRL n) 0 = true)
    (hdown : s.linkUp n = false) : s.portLinkUp n an = (((s.setBit (atInst Reg.PORT_STAT n) 0 true).setBit (atInst Reg.PORT_STAT n) 1
      true).setBit (atInst Reg.PORT_STAT n) 2 (an && s.bit (atInst Reg.PORT_CTRL n) 1)).raise (pSUP n) 0 := by
  unfold portLinkUp
  extract_lets r
  rw [if_neg (by rw [hen, hdown]; decide)]

theorem linkUp_comes (port : Fin 66) (an : Bool) (s : State) (hen : s.bit (atInst Reg.PORT_CTRL port) 0 = true)
    (hdown : s.linkUp port = false) :
    Completes (.linkUp port an) s fun t => t.linkUp port = true ∧ t.bit (cReg (pSUP port) OFF_INT_STAT) 0 = true ∧
      SameMem s t ∧ SameRegs s t (atInst Reg.PORT_STAT port :: raiseKeys (pSUP port)) := by
  have hraise := atInst_not_mem_raiseKeys (r := Reg.PORT_STAT) (n := port) (by decide) (pSUP_lt port.isLt)
  refine ⟨_, congrArg Host.Outcome.next (State.portLinkUp_of_down an hen hdown), ?_, State.bit_raise _ _ (by decide),
    sameMem_of_mem (State.raise_mem ..), fun k hk => ?_⟩
  · rw [State.linkUp, State.bit_of_reg (State.reg_raise _ hraise), State.bit_setBit _ _ _ _ (by decide),
      if_neg (fun h => absurd h.2 (by decide)), State.bit_setBit _ _ _ _ (by decide), if_neg (fun h => absurd h.2 (by decide)),
      State.bit_setBit_same _ _ _ (by decide)]
  · obtain ⟨hstat, hother⟩ := not_or.mp (List.mem_cons.not.mp hk)
    rw [State.reg_raise _ hother, State.reg_setBit, if_neg hstat, State.reg_setBit, if_neg hstat, State.reg_setBit, if_neg hstat]

/-- PORT_STAT of a port whose link has gone down. -/
def State.statDown (s : State) (n : Nat) (sync : Bool) : State :=
  ((s.setBit (atInst Reg.PORT_STAT n) 0 false).setBit (atInst Reg.PORT_STAT n) 1 sync).setBit (atInst Reg.PORT_STAT n) 2 false

theorem State.portLinkDown_of_up {s : State} {n : Nat} (sync : Bool) (hup : s.linkUp n = true) : s.portLinkDown n sync =
    ((s.statDown n sync).setNetPort n fun p => { p with down := true }).raise (pSUP n) 1 := if_neg (by rw [hup]; decide)

theorem State.reg_statDown (s : State) (n : Nat) (sync : Bool) {k : Nat} (hk : k ≠ atInst Reg.PORT_STAT n) :
    (s.statDown n sync).reg k = s.reg k := by
  rw [statDown, reg_setBit, if_neg hk, reg_setBit, if_neg hk, reg_setBit, if_neg hk]

theorem State.bit_statDown (s : State) (n : Nat) (sync : Bool) :
    (s.statDown n sync).bit (atInst Reg.PORT_STAT n) 0 = false ∧ (s.statDown n sync).bit (atInst Reg.PORT_STAT n) 1 = sync ∧
      ∀ i, 2 < i → i < 32 → (s.statDown n sync).bit (atInst Reg.PORT_STAT n) i = s.bit (atInst Reg.PORT_STAT n) i := by
  refine ⟨?_, ?_, fun i hi h32 => ?_⟩
  · rw [statDown, bit_setBit _ _ _ _ (by decide), if_neg (fun h => absurd h.2 (by decide)), bit_setBit _ _ _ _ (by decide),
      if_neg (fun h => absurd h.2 (by decide)), bit_setBit_same _ _ _ (by decide)]
  · rw [statDown, bit_setBit _ _ _ _ (by decide), if_neg (fun h => absurd h.2 (by decide)), bit_setBit_same _ _ _ (by decide)]
  · rw [statDown, bit_setBit _ _ _ _ (by decide), if_neg (fun h => by omega), bit_setBit _ _ _ _ (by decide),
      if_neg (fun h => by omega), bit_setBit _ _ _ _ (by decide), if_neg (fun h => by omega)]

theorem linkDown_goes (port : Fin 66) (sync : Bool) (s : State) (hup : s.linkUp port = true) :
    Completes (.linkDown port sync) s fun t => t.linkUp port = false ∧ t.bit (atInst Reg.PORT_STAT port) 1 = sync ∧
      (t.netPort port).down = true ∧ t.bit (cReg (pSUP port) OFF_INT_STAT) 1 = true ∧ SameMem s t ∧
      SameRegs s t (atInst Reg.PORT_STAT port :: raiseKeys (pSUP port)) := by
  have hraise := atInst_not_mem_raiseKeys (r := Reg.PORT_STAT) (n := port) (by decide) (pSUP_lt port.isLt)
  obtain ⟨hlink, hsync, -⟩ := s.bit_statDown port sync
  refine ⟨_, congrArg Host.Outcome.next (State.portLinkDown_of_up sync hup), ?_, ?_, ?_, State.bit_raise _ _ (by decide),
    sameMem_of_mem (State.raise_mem ..), fun k hk => ?_⟩
  · rw [State.linkUp, State.bit_of_reg (State.reg_raise _ hraise)]
    exact hlink
  · rw [State.bit_of_reg (State.reg_raise _ hraise)]
    exact hsync
  · rw [State.netPort, State.raise_net]
    exact congrArg NetPort.down ((s.statDown port sync).netPort_setNetPort port fun p => { p with down := true })
  · obtain ⟨hstat, hother⟩ := not_or.mp (List.mem_cons.not.mp hk)
    rw [State.reg_raise _ hother]
    exact s.reg_statDown port sync hstat

theorem remoteFault_shows (port : Fin 66) (rf : Bool) (s : State) :
    Completes (.remoteFault port rf) s fun t => t.bit (atInst Reg.PORT_STAT port) 3 = rf ∧ SameMem s t ∧
      SameRegs s t (atInst Reg.PORT_STAT port :: raiseKeys (pSUP port)) := by
  have hraise := atInst_not_mem_raiseKeys (r := Reg.PORT_STAT) (n := port) (by decide) (pSUP_lt port.isLt)
  have hexec : exec (.remoteFault port rf) s = .next ((s.setBit (atInst Reg.PORT_STAT port) 3 rf).raiseIf
      (rf && !s.bit (atInst Reg.PORT_STAT port) 3) (pSUP port) 3) := rfl
  refine ⟨_, hexec, ?_, sameMem_of_mem (State.raiseIf_mem ..), fun k hk => ?_⟩
  · rw [State.bit_of_reg (State.reg_raiseIf _ hraise), State.bit_setBit_same _ _ _ (by decide)]
  · obtain ⟨hstat, hother⟩ := not_or.mp (List.mem_cons.not.mp hk)
    rw [State.reg_raiseIf _ hother, State.reg_setBit, if_neg hstat]

/-! ### The runs of faults (R436) -/

theorem chan_inj {a b : Nat} (h : chan a 0 = chan b 0) : a = b := by
  unfold chan at h
  omega

theorem State.run_setRun (s : State) (page p n : Nat) : (s.setRun page 0 n).run p 0 = if p = page then n else s.run p 0 := by
  rw [run, setRun, Sparse.get_put, run]
  split
  · next h => rw [if_pos (chan_inj h)]
  · next h => rw [if_neg fun hp => h (congrArg (chan · 0) hp)]

theorem State.run_of_runs {s t : State} (h : t.flt.runs = s.flt.runs) (p : Nat) : t.run p 0 = s.run p 0 := by rw [run, run, h]

theorem State.runs_logEvent (s : State) (page cls code hi lo : Nat) : (s.logEvent page cls code hi lo).flt.runs = s.flt.runs := by
  unfold logEvent
  extract_lets n full e seq s1 s2 s3 s4 s5 s6 s7 s8 s9 s10
  have hseq (u : State) (q : Nat) : ({ u with flt := { u.flt with seq := q } } : State).flt.runs = u.flt.runs := rfl
  have hbump : s9.flt = s8.flt := by
    unfold s9
    split
    · exact bump_flt ..
    · rfl
  have hset : s8.flt = s.flt := by
    simp only [s8, s7, s6, s5, s4, s3, s2, s1, setBit_flt, setFld_flt, setRegN_flt, setReg64_flt]
  rw [raise_flt]
  exact (hseq s9 seq).trans (by rw [hbump, hset])

theorem State.runs_judgeFault (s : State) (page c n : Nat) : (s.judgeFault page c n).flt.runs = s.flt.runs := by
  unfold judgeFault
  split <;> rfl

theorem State.run_chanFault (s : State) (page code syn p : Nat) :
    (s.chanFault page 0 code syn).run p 0 = if p = page then s.run page 0 + 1 else s.run p 0 := by
  have hjudge (u : State) (n : Nat) : (u.judgeFault page 0 n).run p 0 = u.run p 0 := run_of_runs (runs_judgeFault ..) p
  unfold chanFault
  extract_lets n retry u v
  have hv : v.run p 0 = if p = page then s.run page 0 + 1 else s.run p 0 := (hjudge u n).trans (s.run_setRun page p n)
  split
  · exact (run_of_runs (runs_logEvent ..) p).trans hv
  · exact hv

theorem State.run_chanOk (s : State) (page p : Nat) : (s.chanOk page 0).run p 0 = if p = page then 0 else s.run p 0 := by
  unfold chanOk
  split
  · next h =>
    split
    · next hp => rw [hp, h]
    · rfl
  · exact s.run_setRun page p 0

theorem State.chanFault_keeps (s : State) (page c code syn : Nat) : (s.chanFault page c code syn).net = s.net ∧
    (s.chanFault page c code syn).mem = s.mem ∧ ∀ k, (k < 0x04006000 ∨ 0x04007000 ≤ k) → k ≠ cReg page OFF_FAULT_CNT →
      (s.chanFault page c code syn).reg k = s.reg k := by
  refine ⟨chanFault_net .., chanFault_mem .., fun k hk hcnt => ?_⟩
  have hjudge (u : State) (n : Nat) : (u.judgeFault page c n).reg k = u.reg k := by
    unfold judgeFault
    split
    · rfl
    · exact (reg_bump ..).trans (if_neg hcnt)
  unfold chanFault
  extract_lets n retry u v
  have hv : v.reg k = s.reg k := hjudge u n
  split
  · exact (reg_logEvent _ _ _ _ _ _ hk).trans hv
  · exact hv

theorem State.chanOk_keeps (s : State) (page c : Nat) :
    (s.chanOk page c).net = s.net ∧ (s.chanOk page c).mem = s.mem ∧ ∀ k, (s.chanOk page c).reg k = s.reg k := by
  unfold chanOk
  split <;> exact ⟨rfl, rfl, fun _ => rfl⟩

/-! ### The end of a 1 ms interval (R315) -/

/-- The violations of port `n` are counted, and its link begins the next interval anew. -/
def State.cvCounted (s : State) (n cv : Nat) : State :=
  ((s.bump (atInst Reg.PORT_CNT n + 20) 0 32 cv).bump (cReg (pSUP n) OFF_FAULT_CNT) 0 16 cv).setNetPort n fun p => { p with down := false }

/-- The interval of port `n` was faulty. -/
def State.badInterval (s : State) (n cv : Nat) : Bool :=
  let s := (s.bump (atInst Reg.PORT_CNT n + 20) 0 32 cv).bump (cReg (pSUP n) OFF_FAULT_CNT) 0 16 cv
  (s.netPort n).down || !s.linkUp n || decide (cv > s.fld (atInst Reg.PORT_CV_LIMIT n) 0 16)

/-- The run of faults of port `n` goes on or ends. -/
def State.runJudged (s : State) (n : Nat) (bad : Bool) : State := if bad then s.chanFault (pSUP n) 0 0x04 0 else s.chanOk (pSUP n) 0

theorem State.portInterval_eq (s : State) (n cv : Nat) : s.portInterval n cv =
    if !s.bit (atInst Reg.PORT_CTRL n) 0 then s
    else if (s.cvCounted n cv).portRetired n then s.cvCounted n cv
    else ((s.cvCounted n cv).runJudged n (s.badInterval n cv)).setRegN (atInst Reg.PORT_FCNT n)
      (min 255 (((s.cvCounted n cv).runJudged n (s.badInterval n cv)).run (pSUP n) 0)) := rfl

/-- The registers that the end of an interval writes for port `n`. -/
def intervalKeys (n : Nat) : List Nat := [atInst Reg.PORT_CNT n + 20, cReg (pSUP n) OFF_FAULT_CNT, atInst Reg.PORT_FCNT n]

theorem State.reg_cvCounted (s : State) (n cv : Nat) {k : Nat} (hk : k ∉ intervalKeys n) : (s.cvCounted n cv).reg k = s.reg k := by
  simp only [intervalKeys, List.mem_cons, List.not_mem_nil, or_false, not_or] at hk
  obtain ⟨hcnt, hfault, -⟩ := hk
  exact (reg_bump ..).trans ((if_neg hfault).trans ((reg_bump ..).trans (if_neg hcnt)))

theorem State.runJudged_keeps (s : State) (n : Nat) (bad : Bool) : (s.runJudged n bad).net = s.net ∧ (s.runJudged n bad).mem = s.mem ∧
    (∀ k, (k < 0x04006000 ∨ 0x04007000 ≤ k) → k ∉ intervalKeys n → (s.runJudged n bad).reg k = s.reg k) ∧
    (∀ m, m ≠ n → (s.runJudged n bad).run (pSUP m) 0 = s.run (pSUP m) 0) ∧ (bad = false → (s.runJudged n bad).run (pSUP n) 0 = 0) := by
  have hpage (m : Nat) (h : m ≠ n) : pSUP m ≠ pSUP n := by
    unfold pSUP
    omega
  cases bad with
  | true =>
    obtain ⟨hnet, hmem, hreg⟩ := s.chanFault_keeps (pSUP n) 0 0x04 0
    refine ⟨hnet, hmem, fun k hk hkey => hreg k hk fun h => hkey (by rw [h]; exact List.mem_cons_of_mem _ List.mem_cons_self),
      fun m hm => (s.run_chanFault ..).trans (if_neg (hpage m hm)), fun h => absurd h (by decide)⟩
  | false =>
    obtain ⟨hnet, hmem, hreg⟩ := s.chanOk_keeps (pSUP n) 0
    exact ⟨hnet, hmem, fun k _ _ => hreg k, fun m hm => (s.run_chanOk ..).trans (if_neg (hpage m hm)),
      fun _ => (s.run_chanOk ..).trans (if_pos rfl)⟩

/-- What the end of port `n`'s interval leaves of the state. -/
structure IntervalKept (n : Nat) (s t : State) : Prop where
  mem : t.mem = s.mem
  regs : ∀ k, (k < 0x04006000 ∨ 0x04007000 ≤ k) → k ∉ intervalKeys n → t.reg k = s.reg k
  ports : ∀ m, m ≠ n → t.netPort m = s.netPort m
  runs : ∀ m, m ≠ n → t.run (pSUP m) 0 = s.run (pSUP m) 0

theorem State.intervalKept_cvCounted (s : State) (n cv : Nat) : IntervalKept n s (s.cvCounted n cv) :=
  ⟨rfl, fun _ _ hk => s.reg_cvCounted n cv hk, fun _ hm => Sparse.get_put_other _ _ _ hm _, fun _ _ => rfl⟩

theorem State.intervalKept_portInterval (s : State) (n cv : Nat) : IntervalKept n s (s.portInterval n cv) := by
  obtain ⟨hm, hr, hp, hruns⟩ := s.intervalKept_cvCounted n cv
  rw [portInterval_eq]
  split
  · exact ⟨rfl, fun _ _ _ => rfl, fun _ _ => rfl, fun _ _ => rfl⟩
  · split
    · exact ⟨hm, hr, hp, hruns⟩
    · obtain ⟨hnet, hmem, hreg, hrun, -⟩ := (s.cvCounted n cv).runJudged_keeps n (s.badInterval n cv)
      refine ⟨hmem.trans hm, fun k hk hkey => ?_, fun m hne => ?_, fun m hne => (hrun m hne).trans (hruns m hne)⟩
      · have hfcnt : k ≠ atInst Reg.PORT_FCNT n := fun h => hkey (by rw [h, intervalKeys]; simp)
        rw [reg_setRegN, if_neg hfcnt, hreg k hk hkey, hr k hk hkey]
      · refine Eq.trans ?_ (hp m hne)
        change Sparse.get {} m ((s.cvCounted n cv).runJudged n (s.badInterval n cv)).net.ports = _
        rw [hnet]
        rfl

/-- The registers of port `n` that the end of its interval reads stand apart from those that any port's writes. -/
theorem atInst_not_mem_intervalKeys {r n m : Nat} (hr : r ∈ [Reg.PORT_CTRL, Reg.PORT_STAT, Reg.PORT_CV_LIMIT]) :
    (0x04007000 ≤ atInst r n) ∧ atInst r n ∉ intervalKeys m := by
  have hlow : 0x04060100 ≤ r ∧ r < 0x04060114 := by
    revert r
    decide
  simp only [intervalKeys, List.mem_cons, List.not_mem_nil, or_false, not_or]
  unfold atInst cReg pSUP Reg.PORT_CNT Reg.PORT_FCNT OFF_FAULT_CNT
  omega

/-- What a port shows after its interval. -/
structure IntervalShown (n : Nat) (s t : State) (cv : Nat) : Prop where
  up : (t.netPort n).down = false
  fcnt : t.reg (atInst Reg.PORT_FCNT n) = BitVec.ofNat 32 (min 255 (t.run (pSUP n) 0))
  clean : s.linkUp n = true → (s.netPort n).down = false → cv = 0 → t.run (pSUP n) 0 = 0

theorem State.badInterval_clean {s : State} {n : Nat} (hup : s.linkUp n = true) (hdown : (s.netPort n).down = false) :
    s.badInterval n 0 = false := by
  obtain ⟨-, hkey⟩ := atInst_not_mem_intervalKeys (r := Reg.PORT_STAT) (n := n) (m := n) (by decide)
  have hlink := (bit_of_reg (s.reg_cvCounted n 0 hkey) 0).trans hup
  change ((s.netPort n).down || !(s.cvCounted n 0).linkUp n || decide (0 > _)) = false
  rw [hdown, linkUp, hlink]
  rfl

theorem State.intervalShown_portInterval {s : State} {n : Nat} (cv : Nat) (hen : s.bit (atInst Reg.PORT_CTRL n) 0 = true)
    (hin : s.portRetired n = false) : IntervalShown n s (s.portInterval n cv) cv := by
  obtain ⟨-, hkey⟩ := atInst_not_mem_intervalKeys (r := Reg.PORT_STAT) (n := n) (m := n) (by decide)
  have hin' : (s.cvCounted n cv).portRetired n = false := (bit_of_reg (s.reg_cvCounted n cv hkey) 4).trans hin
  rw [portInterval_eq, if_neg (by rw [hen]; decide), if_neg (by rw [hin']; decide)]
  obtain ⟨hnet, -, -, -, hok⟩ := (s.cvCounted n cv).runJudged_keeps n (s.badInterval n cv)
  refine ⟨?_, (reg_setRegN ..).trans (if_pos rfl), fun hup hdown hcv => hok (by rw [hcv, badInterval_clean hup hdown])⟩
  change (Sparse.get {} n ((s.cvCounted n cv).runJudged n (s.badInterval n cv)).net.ports).down = false
  rw [hnet]
  exact congrArg NetPort.down (netPort_setNetPort _ n fun p => { p with down := false })

/-- The violations that the list gives port `n`. -/
def violations (cv : List (Fin 66 × Nat)) (n : Nat) : Nat := ((cv.filter fun e => e.1.val == n).map (·.2)).foldl (· + ·) 0

theorem violations_none {cv : List (Fin 66 × Nat)} {n : Nat} (h : ∀ e ∈ cv, e.1.val ≠ n) : violations cv n = 0 := by
  have hnil : (cv.filter fun e => e.1.val == n) = [] := by
    rw [List.filter_eq_nil_iff]
    exact fun e he => by simpa using h e he
  rw [violations, hnil]
  rfl

/-- The intervals of the ports below `len` have ended. -/
def State.intervalsEnd (s : State) (cv : List (Fin 66 × Nat)) (len : Nat) : State :=
  (List.range len).foldl (fun (s : State) n => s.portInterval n (violations cv n)) s

theorem State.intervalsEnd_succ (s : State) (cv : List (Fin 66 × Nat)) (len : Nat) :
    s.intervalsEnd cv (len + 1) = (s.intervalsEnd cv len).portInterval len (violations cv len) := by
  rw [intervalsEnd, List.range_succ, List.foldl_append]
  rfl

/-- The ports from `len` on are as they were. -/
structure IntervalsKept (len : Nat) (s t : State) : Prop where
  mem : t.mem = s.mem
  regs : ∀ n r, r ∈ [Reg.PORT_CTRL, Reg.PORT_STAT, Reg.PORT_CV_LIMIT] → t.reg (atInst r n) = s.reg (atInst r n)
  ports : ∀ m, len ≤ m → t.netPort m = s.netPort m

theorem State.intervalsKept_intervalsEnd (s : State) (cv : List (Fin 66 × Nat)) (len : Nat) : IntervalsKept len s (s.intervalsEnd cv len) := by
  induction len with
  | zero => exact ⟨rfl, fun _ _ _ => rfl, fun _ _ => rfl⟩
  | succ len ih =>
    have hstep := (s.intervalsEnd cv len).intervalKept_portInterval len (violations cv len)
    rw [intervalsEnd_succ]
    refine ⟨hstep.mem.trans ih.mem, fun n r hr => ?_, fun m hm => (hstep.ports m (by omega)).trans (ih.ports m (by omega))⟩
    obtain ⟨hge, hkey⟩ := atInst_not_mem_intervalKeys (n := n) (m := len) hr
    exact (hstep.regs _ (.inr hge) hkey).trans (ih.regs n r hr)

theorem State.intervalShown_intervalsEnd (s : State) (cv : List (Fin 66 × Nat)) {n : Nat}
    (hen : s.bit (atInst Reg.PORT_CTRL n) 0 = true) (hin : s.portRetired n = false) (len : Nat) (hn : n < len) :
    IntervalShown n s (s.intervalsEnd cv len) (violations cv n) := by
  induction len with
  | zero => exact absurd hn (Nat.not_lt_zero n)
  | succ len ih =>
    have hkept := s.intervalsKept_intervalsEnd cv len
    have hstep := (s.intervalsEnd cv len).intervalKept_portInterval len (violations cv len)
    rw [intervalsEnd_succ]
    by_cases hlast : n = len
    · subst hlast
      have hstat := hkept.regs n Reg.PORT_STAT (by decide)
      obtain ⟨hup, hfcnt, hclean⟩ := intervalShown_portInterval (s := s.intervalsEnd cv n) (violations cv n)
        ((bit_of_reg (hkept.regs n Reg.PORT_CTRL (by decide)) 0).trans hen) ((bit_of_reg hstat 4).trans hin)
      exact ⟨hup, hfcnt, fun hlink hdown => hclean ((bit_of_reg hstat 0).trans hlink) (by rw [hkept.ports n le_rfl]; exact hdown)⟩
    · obtain ⟨hup, hfcnt, hclean⟩ := ih (by omega)
      have hrun := hstep.runs n hlast
      have hreg : ((s.intervalsEnd cv len).portInterval len (violations cv len)).reg (atInst Reg.PORT_FCNT n) =
          (s.intervalsEnd cv len).reg (atInst Reg.PORT_FCNT n) := by
        refine hstep.regs _ (.inr (by unfold atInst Reg.PORT_FCNT; omega)) ?_
        simp only [intervalKeys, List.mem_cons, List.not_mem_nil, or_false, not_or]
        unfold atInst cReg pSUP Reg.PORT_CNT Reg.PORT_FCNT OFF_FAULT_CNT
        omega
      refine ⟨by rw [hstep.ports n hlast]; exact hup, by rw [hreg, hrun, hfcnt], fun hlink hdown hcv => ?_⟩
      rw [hrun]
      exact hclean hlink hdown hcv

theorem portInterval_ends (cv : List (Fin 66 × Nat)) (s : State) : Completes (.portInterval cv) s fun t =>
    (∀ n, n < 66 → s.bit (atInst Reg.PORT_CTRL n) 0 = true → s.portRetired n = false → (t.netPort n).down = false ∧
      t.reg (atInst Reg.PORT_FCNT n) = BitVec.ofNat 32 (min 255 (t.run (pSUP n) 0)) ∧
      (s.linkUp n = true → (s.netPort n).down = false → (∀ e ∈ cv, e.1.val ≠ n) → t.run (pSUP n) 0 = 0)) ∧ SameMem s t := by
  refine ⟨s.intervalsEnd cv 66, rfl, fun n hn hen hin => ?_, sameMem_of_mem (s.intervalsKept_intervalsEnd cv 66).mem⟩
  obtain ⟨hup, hfcnt, hclean⟩ := s.intervalShown_intervalsEnd cv hen hin 66 hn
  exact ⟨hup, hfcnt, fun hlink hdown hcv => hclean hlink hdown (violations_none hcv)⟩

end Sys2Proof.Machine
end

section
/-! PROOFS. Retirement and restoration of a supervisory port (R315, R358). -/

namespace Sys2Proof.Machine

/-! ### The queues of a retired port are emptied (R358) -/

/-- A dropped frame leaves memory, the queues, and PORT_STAT but for bit 6. -/
structure DropKept (s t : State) : Prop where
  mem : t.mem = s.mem
  qs : t.net.qs = s.net.qs
  stat : ∀ n i, n < 66 → i < 32 → i ≠ 6 → t.bit (atInst Reg.PORT_STAT n) i = s.bit (atInst Reg.PORT_STAT n) i

theorem DropKept.refl (s : State) : DropKept s s := ⟨rfl, rfl, fun _ _ _ _ _ => rfl⟩

theorem DropKept.trans {s t u : State} (h : DropKept s t) (h' : DropKept t u) : DropKept s u :=
  ⟨h'.mem.trans h.mem, h'.qs.trans h.qs, fun n i hn hi h6 => (h'.stat n i hn hi h6).trans (h.stat n i hn hi h6)⟩

theorem State.dropKept_setReg (s : State) {k : Nat} (v : Word) (hstat : ¬ statKey k) : DropKept s (s.setReg k v) :=
  ⟨rfl, rfl, (s.netKept_setReg (K := fun _ => True) v trivial hstat).stat⟩

theorem State.dropKept_raiseIf (s : State) (c : Bool) {page : Nat} (i : Nat) (hpage : page < 0x4000) :
    DropKept s (s.raiseIf c page i) :=
  ⟨raiseIf_mem .., congrArg NetSt.qs (raiseIf_net ..), (s.netKept_raiseIf (K := fun _ => True) c i (fun _ _ => trivial) hpage).stat⟩

theorem State.dropKept_emit (s : State) (o : Out) : DropKept s (s.emit o) := ⟨rfl, rfl, fun _ _ _ _ _ => rfl⟩

theorem State.dropKept_txOpen (s : State) (l : List Nat) : DropKept s { s with net := { s.net with txOpen := l } } :=
  ⟨rfl, rfl, fun _ _ _ _ _ => rfl⟩

theorem State.dropKept_txHead (s : State) : DropKept s s.txHead := s.dropKept_setReg _ (not_statKey_of_ge (by decide))

/-- The closed descriptor is counted and reported. -/
theorem State.dropKept_txCount (s : State) (k : Nat) (failed : Bool) :
    DropKept s (((s.count (Reg.HPT_CNT + k)).raise pHPT 2).raiseIf failed pHPT 4).txHead := by
  have hcounted : DropKept s (s.count (Reg.HPT_CNT + k)) :=
    s.dropKept_setReg _ (not_statKey_of_ge (Nat.le_add_right_of_le (by decide)))
  have hraised (u : State) (b : Bool) (i : Nat) : DropKept u (u.raiseIf b pHPT i) := u.dropKept_raiseIf b i (by decide)
  exact ((hcounted.trans (hraised _ true 2)).trans (hraised _ failed 4)).trans (State.dropKept_txHead _)

theorem State.dropKept_txClose (s : State) (d : Nat × Nat) (ts : BitVec 96) (status : Nat) : DropKept s (s.txClose d ts status) :=
  (((s.dropKept_emit _).trans (State.dropKept_emit _ _)).trans (State.dropKept_txOpen _ _)).trans (State.dropKept_txCount _ _ _)

theorem State.dropKept_endDesc (s : State) (f : QFrame) (status : Option Nat) : DropKept s (s.endDesc f status) := by
  unfold endDesc
  split
  · exact .refl s
  · split
    · exact s.dropKept_txClose _ 0 _
    · have htick : DropKept s s.tick1 := ⟨rfl, rfl, fun _ _ _ _ _ => rfl⟩
      exact htick.trans (s.tick1.dropKept_txClose _ 0 _)

theorem State.dropKept_dropFrame (s : State) (n : Nat) (f : QFrame) (status : Option Nat) : DropKept s (s.dropFrame n f status) := by
  obtain ⟨hkept, hqs, -⟩ := s.accounted_release n f
  exact DropKept.trans ⟨hkept.mem, hqs, hkept.stat⟩ (dropKept_endDesc _ f status)

/-- Queue `q` of a port is emptied. -/
def State.emptyQueue (n : Nat) (status : Option Nat) (s : State) (q : Nat) : State :=
  (s.netQ n q).frames.foldl (fun (s : State) f => s.dropFrame n f status) (s.setNetQ n q fun x => { x with frames := [], deficit := 0 })

theorem State.dropKept_emptyQueue (n : Nat) (status : Option Nat) (s : State) (q : Nat) :
    DropKept (s.setNetQ n q fun x => { x with frames := [], deficit := 0 }) (State.emptyQueue n status s q) :=
  List.foldlRecOn (motive := fun t => DropKept (s.setNetQ n q fun x => { x with frames := [], deficit := 0 }) t) _ _ (.refl _)
    fun t ht f _ => ht.trans (t.dropKept_dropFrame n f status)

theorem State.emptyQueues_keeps (s : State) (n : Nat) (status : Option Nat) : (s.emptyQueues n status).mem = s.mem ∧
    ∀ m i, m < 66 → i < 32 → i ≠ 6 → (s.emptyQueues n status).bit (atInst Reg.PORT_STAT m) i = s.bit (atInst Reg.PORT_STAT m) i := by
  refine List.foldlRecOn (motive := fun t : State => t.mem = s.mem ∧
    ∀ m i, m < 66 → i < 32 → i ≠ 6 → t.bit (atInst Reg.PORT_STAT m) i = s.bit (atInst Reg.PORT_STAT m) i) (List.range 8)
    (State.emptyQueue n status) ⟨rfl, fun _ _ _ _ _ => rfl⟩ ?_
  rintro t ⟨hmem, hstat⟩ q -
  have hdrop := State.dropKept_emptyQueue n status t q
  exact ⟨hdrop.mem.trans hmem, fun m i hm hi h6 => (hdrop.stat m i hm hi h6).trans (hstat m i hm hi h6)⟩

theorem State.frames_emptyQueue (n : Nat) (status : Option Nat) (s : State) (q p : Nat) :
    ((State.emptyQueue n status s q).netQ n p).frames = if p = q then [] else (s.netQ n p).frames := by
  have hqs := (State.dropKept_emptyQueue n status s q).qs
  rw [netQ, hqs]
  split
  · next hp =>
    rw [hp]
    exact congrArg NetQ.frames (netQ_setNetQ s n q fun x => { x with frames := [], deficit := 0 })
  · next hp => exact congrArg NetQ.frames (Sparse.get_put_other _ _ _ (by omega) _)

theorem State.frames_emptyQueues (s : State) (n : Nat) (status : Option Nat) {q : Nat} (hq : q < 8) :
    ((s.emptyQueues n status).netQ n q).frames = [] := by
  have hall : ∀ len, q < len → (((List.range len).foldl (State.emptyQueue n status) s).netQ n q).frames = [] := by
    intro len hlen
    induction len with
    | zero => exact absurd hlen (Nat.not_lt_zero q)
    | succ len ih =>
      rw [List.range_succ, List.foldl_append]
      refine (State.frames_emptyQueue n status _ len q).trans ?_
      split
      · rfl
      · exact ih (by omega)
  exact hall 8 hq

/-! ### Its learned entries are flushed (R322) -/

theorem State.setBytes_keeps (s : State) (a : Nat) (l : List Byte) : (s.setBytes a l).regs = s.regs ∧ (s.setBytes a l).net = s.net := by
  obtain ⟨red, heq⟩ := s.setBytes_eq a l
  rw [heq]
  exact ⟨rfl, rfl⟩

theorem twoSlot_of_learned {v : Nat} (h : kindOf v = 1) : twoSlot v = false := by simp [twoSlot, h]

/-- A flushed entry takes one slot. -/
theorem State.fwdDelete_learned {s : State} {i : Nat} (h : kindOf (s.fwdSlot i) = 1) : s.fwdDelete i = s.storeN (0x12C00000 + 16 * i) 16 0 := by
  unfold fwdDelete
  rw [twoSlot_of_learned h]
  exact if_neg (by decide)

theorem State.lt_of_mem_fwdUsed {s : State} {i : Nat} (h : i ∈ s.fwdUsed) : i < 262144 := by
  obtain ⟨c, -, hc⟩ := List.mem_filterMap.1 (List.mem_eraseDups.1 h)
  split at hc
  · next hin =>
    obtain ⟨hlo, hhi⟩ := hin
    have := Option.some.inj hc
    omega
  · exact absurd hc (by simp)

/-- What a flush leaves: the registers, the packet engine, and memory outside the forwarding table. -/
structure FlushKept (s t : State) : Prop where
  regs : t.regs = s.regs
  net : t.net = s.net
  mem : SameMemOut s t 0x12C00000 0x400000

theorem State.flushKept_fwdFlush (s : State) (p : Nat → Bool) : FlushKept s (s.fwdFlush p) := by
  refine List.foldlRecOn (motive := fun t => FlushKept s t) _ _ ⟨rfl, rfl, fun _ _ => rfl⟩ ?_
  rintro t ⟨hregs, hnet, hmem⟩ i hi
  have hlt := lt_of_mem_fwdUsed hi
  dsimp only
  split
  · next h =>
    obtain ⟨hkind, -⟩ := h
    rw [fwdDelete_learned hkind]
    obtain ⟨hregs', hnet'⟩ := t.setBytes_keeps (0x12C00000 + 16 * i) (toLE 16 0)
    have hout : SameMemOut t (t.storeN (0x12C00000 + 16 * i) 16 0) 0x12C00000 0x400000 :=
      (t.sameMemOut_storeN _ _ _).within (by omega) (by omega)
    exact ⟨hregs'.trans hregs, hnet'.trans hnet, fun a ha => (hout a ha).trans (hmem a ha)⟩
  · exact ⟨hregs, hnet, hmem⟩

/-! ### A port retires (R315) -/

/-- A port that is due shows RETIRED and its channel is retired. -/
def State.portOut (s : State) (n : Nat) : State := (s.setBit (atInst Reg.PORT_STAT n) 4 true).retire (pSUP n) 0 0x13 0

theorem State.portRetire_of_due {s : State} {n : Nat} (h : s.isDue (pSUP n) 0 = true) : s.portRetire n =
    (((s.portOut n).emptyQueues n none).fwdFlush fun v => l2Port v == n).raise (pSUP n) 2 := if_neg (by rw [h]; decide)

theorem State.portOut_shows (s : State) {n : Nat} (hn : n < 66) : (s.portOut n).portRetired n = true ∧ (s.portOut n).mem = s.mem := by
  refine ⟨?_, retire_mem ..⟩
  have hne : atInst Reg.PORT_STAT n ≠ cReg (pSUP n) OFF_FAULT_CNT := by
    unfold atInst Reg.PORT_STAT cReg pSUP OFF_FAULT_CNT
    omega
  refine (bit_of_reg (reg_retire _ _ _ _ (.inr ?_) (atInst_not_mem_raiseKeys (by decide) (pSUP_lt hn)) hne) 4).trans
    (bit_setBit_same _ _ _ (by decide))
  unfold atInst Reg.PORT_STAT
  omega

/-- RETIRED is raised after the flush. -/
theorem State.portRetired_raise (s : State) {n : Nat} (hn : n < 66) : (s.raise (pSUP n) 2).portRetired n = s.portRetired n :=
  bit_of_reg (reg_raise _ (atInst_not_mem_raiseKeys (by decide) (pSUP_lt hn))) 4

theorem FlushKept.sameMemOut {s t u : State} (h : FlushKept s t) (hu : u.mem = s.mem) (page i : Nat) :
    SameMemOut u (t.raise page i) 0x12C00000 0x400000 := fun a ha =>
  ((State.byte_of_mem (State.raise_mem ..) a).trans (h.mem a ha)).trans (State.byte_of_mem hu a).symm

theorem FlushKept.portRetired {s t : State} (h : FlushKept s t) (n : Nat) : t.portRetired n = s.portRetired n :=
  State.bit_of_reg (congrArg (Sparse.get _ _) h.regs) 4

theorem portRetire_retires (port : Fin 66) (s : State) (hdue : s.isDue (pSUP port) 0 = true) :
    Completes (.portRetire port) s fun t => t.portRetired port = true ∧ (∀ q, q < 8 → (t.netQ port q).frames = []) ∧
      t.bit (cReg (pSUP port) OFF_INT_STAT) 2 = true ∧
      SameMemOut s t 0x12C00000 0x400000 := by
  obtain ⟨hout, hmem⟩ := s.portOut_shows port.isLt
  obtain ⟨hmem', hstat⟩ := (s.portOut port).emptyQueues_keeps port none
  obtain ⟨v, hv⟩ : ∃ v, v = (s.portOut port).emptyQueues port none := ⟨_, rfl⟩
  obtain ⟨w, hw⟩ : ∃ w, w = v.fwdFlush fun v => l2Port v == port := ⟨_, rfl⟩
  have hflush : FlushKept v w := hw ▸ v.flushKept_fwdFlush _
  have hretired : v.portRetired port = true := hv ▸ (hstat port 4 port.isLt (by decide) (by decide)).trans hout
  have hframes : ∀ q, q < 8 → (v.netQ port q).frames = [] := fun q hq => hv ▸ State.frames_emptyQueues _ _ none hq
  refine ⟨w.raise (pSUP port) 2, congrArg Host.Outcome.next ((State.portRetire_of_due hdue).trans (by rw [hw, hv])), ?_, fun q hq => ?_,
    State.bit_raise _ _ (by decide), hflush.sameMemOut (by rw [hv, hmem', hmem]) _ _⟩
  · exact (w.portRetired_raise port.isLt).trans ((hflush.portRetired port).trans hretired)
  · rw [State.netQ, State.raise_net, hflush.net]
    exact hframes q hq

/-! ### A port returns (R315, R349) -/

theorem State.portRestore_of_retired {s : State} {n : Nat} (h : s.portRetired n = true) : s.portRestore n =
    ((s.setBit (atInst Reg.PORT_STAT n) 4 false).unretire (pSUP n) 0).setRegN (atInst Reg.PORT_FCNT n) 0 := if_pos h

/-- PORT_CTRL is written, before RESTORE takes effect. -/
def State.portCtrlTaken (s : State) (n : Nat) (v : Word) : State :=
  let s := s.storeReg (atInst Reg.PORT_CTRL n) (v &&& (if n < 64 then 0xFFFFFFFB#32 else 0xFFFFFFFD#32))
  (if bitOf v 0 then s else s.portLinkDown n false).pauseTxWritten n

theorem State.portCtrlWrite_restore (s : State) (n : Nat) {v : Word} (h : bitOf v 8 = true) :
    s.portCtrlWrite n v = (s.portCtrlTaken n v).portRestore n := if_pos h

theorem State.pauseTxWritten_keeps (s : State) {n : Nat} (hn : n < 66) :
    (s.pauseTxWritten n).mem = s.mem ∧ (s.pauseTxWritten n).portRetired n = s.portRetired n := by
  have hxoff (b : Bool) := s.netKept_setXoff (K := fun _ => True) (n := n) b trivial
  have hpause (b : Bool) := (s.poolKept_pauseXoff (P := fun _ => True) b hn).acct.kept
  unfold pauseTxWritten
  extract_lets on
  split
  · exact ⟨rfl, rfl⟩
  · split
    · exact ⟨(hpause true).mem, (hpause true).stat n 4 hn (by decide) (by decide)⟩
    · exact ⟨(hxoff false).mem, (hxoff false).stat n 4 hn (by decide) (by decide)⟩

theorem State.portLinkDown_keeps (s : State) {n : Nat} (sync : Bool) (hn : n < 66) :
    (s.portLinkDown n sync).mem = s.mem ∧ (s.portLinkDown n sync).portRetired n = s.portRetired n := by
  cases hup : s.linkUp n with
  | false =>
    have hstay : s.portLinkDown n sync = s := if_pos (by rw [hup]; decide)
    rw [hstay]
    exact ⟨rfl, rfl⟩
  | true =>
    obtain ⟨-, -, hrest⟩ := s.bit_statDown n sync
    have hraise := atInst_not_mem_raiseKeys (r := Reg.PORT_STAT) (n := n) (by decide) (pSUP_lt hn)
    rw [portLinkDown_of_up sync hup]
    refine ⟨raise_mem .., ?_⟩
    rw [portRetired, bit_of_reg (reg_raise _ hraise)]
    exact hrest 4 (by decide) (by decide)

theorem State.portCtrlTaken_keeps (s : State) {n : Nat} (v : Word) (hn : n < 66) (hkey : atInst Reg.PORT_CTRL n ∉ takeoverRegs) :
    (s.portCtrlTaken n v).mem = s.mem ∧ (s.portCtrlTaken n v).portRetired n = s.portRetired n := by
  unfold portCtrlTaken
  extract_lets u
  have hne : atInst Reg.PORT_STAT n ≠ atInst Reg.PORT_CTRL n := by
    unfold atInst Reg.PORT_STAT Reg.PORT_CTRL
    omega
  have hmem : u.mem = s.mem := storeReg_mem ..
  have hout : u.portRetired n = s.portRetired n := bit_of_reg (s.reg_storeReg_apart _ hkey hne) 4
  split
  · obtain ⟨hmem', hout'⟩ := u.pauseTxWritten_keeps hn
    exact ⟨hmem'.trans hmem, hout'.trans hout⟩
  · obtain ⟨hmem', hout'⟩ := u.portLinkDown_keeps false hn
    obtain ⟨hmem'', hout''⟩ := (u.portLinkDown n false).pauseTxWritten_keeps hn
    exact ⟨hmem''.trans (hmem'.trans hmem), hout''.trans (hout'.trans hout)⟩

theorem bitOf_or_restore (w : Word) : bitOf (w ||| 0x100#32) 8 = true := by
  rw [bitOf, BitVec.toNat_or, Nat.testBit_or]
  exact Bool.or_eq_true_iff.2 (.inr (by decide))

theorem portRestore_restores (m : Fin 8) (port : Fin 66) (s : State)
    (hacc : s.accepts m (atInst Reg.PORT_CTRL port) (s.reg (atInst Reg.PORT_CTRL port) ||| 0x100) = true)
    (hout : s.portRetired port = true) :
    Completes (.portRestore m port) s fun t => t.portRetired port = false ∧ t.reg (atInst Reg.PORT_FCNT port) = 0 ∧ SameMem s t := by
  have hkeys : ∀ n : Fin 66, journals (atInst Reg.PORT_CTRL n) = false ∧ atInst Reg.PORT_CTRL n ∉ takeoverRegs := by decide +kernel
  obtain ⟨hj, hkey⟩ := hkeys port
  obtain ⟨u, hu⟩ : ∃ u, u = s.respond m true (atInst Reg.PORT_CTRL port) .ok 0 := ⟨_, rfl⟩
  obtain ⟨w, hw⟩ : ∃ w, w = s.reg (atInst Reg.PORT_CTRL port) ||| 0x100#32 := ⟨_, rfl⟩
  obtain ⟨hmem, hretired⟩ := u.portCtrlTaken_keeps w port.isLt hkey
  have hout' : (u.portCtrlTaken port w).portRetired port = true := hretired.trans (by rw [hu]; exact hout)
  have hexec : exec (.portRestore m port) s = .next ((((u.portCtrlTaken port w).setBit (atInst Reg.PORT_STAT port) 4 false).unretire
      (pSUP port) 0).setRegN (atInst Reg.PORT_FCNT port) 0) := by
    refine congrArg Host.Outcome.next ((State.gateWrite_eq hacc hj _).trans ?_)
    rw [← hu, ← State.portRestore_of_retired hout', hw]
    exact u.portCtrlWrite_restore port (bitOf_or_restore _)
  refine ⟨_, hexec, ?_, (State.reg_setRegN ..).trans (if_pos rfl), sameMem_of_mem (hmem.trans (by rw [hu]; rfl))⟩
  have hne : atInst Reg.PORT_STAT port ≠ atInst Reg.PORT_FCNT port := by
    unfold atInst Reg.PORT_STAT Reg.PORT_FCNT
    omega
  rw [State.portRetired, State.bit_of_reg ((State.reg_setRegN ..).trans (if_neg hne))]
  exact State.bit_setBit_same _ _ _ (by decide)

/-- Settles O48, each command by its own lemma. -/
theorem portCommandsComplete : Obligations.PortCommandsComplete := by
  unfold Obligations.PortCommandsComplete
  exact ⟨linkUp_comes, linkDown_goes, remoteFault_shows, portInterval_ends, portRetire_retires, portRestore_restores⟩

end Sys2Proof.Machine
end

section
/-! PROOFS. What frames on their way leave of the state: allocation, queues and the host's rings (R318, R331, R339, R356). -/

namespace Sys2Proof.Machine

/-! ### Work on frames -/

/-- The registers that work on frames changes: those of ports, of the four pools, and of the host's rings. -/
def frameKey (k : Nat) : Prop :=
  acctKey (· < 4) k ∨ k ∈ raiseKeys pHPT ∨ (0x040A2100 ≤ k ∧ k < 0x040A2200)

/-- The pages of the supervisory network above BPM, and those of the device below FLT and between FLT and the ports. -/
def farKey (k : Nat) : Prop :=
  k < 0x04006000 ∨ (0x04006200 ≤ k ∧ k < 0x04060000) ∨ (0x040A3000 ≤ k ∧ k < 0x040B2000) ∨ 0x040B2180 ≤ k

theorem not_frameKey_of_far {k : Nat} (h : farKey k) : ¬ frameKey k := by
  have hBPM : raiseKeys pBPM = [0x040B2010, 0x04006134, 0x04006010, 0x04006120] := rfl
  have hHPT : raiseKeys pHPT = [0x040A2010, 0x04006134, 0x04006010, 0x04006120] := rfl
  unfold farKey at h
  rintro (((⟨n, hn, hk⟩ | ⟨n, j, hn, hj, hk⟩) | hk | ⟨p, hp, hk⟩ | ⟨p, hp, hk⟩) | hk | hk)
  · have haddr : atInst Reg.PORT_STAT n = 0x04060104 + n * 0x1000 := rfl
    omega
  · have haddr : atInst Reg.PORT_CNT n = 0x04060140 + n * 0x1000 := rfl
    omega
  · simp only [hBPM, List.mem_cons, List.not_mem_nil, or_false] at hk
    omega
  · unfold Reg.BPM_POOL_STAT at hk
    omega
  · unfold Reg.BPM_NOBUF at hk
    omega
  · simp only [hHPT, List.mem_cons, List.not_mem_nil, or_false] at hk
    omega
  · omega

/-- The registers of a port but for its status and counters. -/
theorem not_frameKey_port {r n : Nat} (hn : n < 66) (hr : 0x04060100 ≤ r ∧ r < 0x04060140 ∧ r ≠ Reg.PORT_STAT) : ¬ frameKey (atInst r n) := by
  have hBPM : raiseKeys pBPM = [0x040B2010, 0x04006134, 0x04006010, 0x04006120] := rfl
  have hHPT : raiseKeys pHPT = [0x040A2010, 0x04006134, 0x04006010, 0x04006120] := rfl
  obtain ⟨hlo, hhi, hstat⟩ := hr
  unfold atInst
  unfold Reg.PORT_STAT at hstat
  rintro (((⟨m, hm, hk⟩ | ⟨m, j, hm, hj, hk⟩) | hk | ⟨p, hp, hk⟩ | ⟨p, hp, hk⟩) | hk | hk)
  · have haddr : atInst Reg.PORT_STAT m = 0x04060104 + m * 0x1000 := rfl
    omega
  · have haddr : atInst Reg.PORT_CNT m = 0x04060140 + m * 0x1000 := rfl
    omega
  · simp only [hBPM, List.mem_cons, List.not_mem_nil, or_false] at hk
    omega
  · unfold Reg.BPM_POOL_STAT at hk
    omega
  · unfold Reg.BPM_NOBUF at hk
    omega
  · simp only [hHPT, List.mem_cons, List.not_mem_nil, or_false] at hk
    omega
  · omega

theorem frameKey_of_acct {k : Nat} (h : acctKey (· < 4) k) : frameKey k := .inl h

/-- Work on frames: what `NetKept` says, and no buffer moves out of the four pools. -/
structure FrameKept (s t : State) : Prop where
  kept : NetKept frameKey s t
  pools : ∀ h, (s.buf h).pool < 4 → (t.buf h).pool < 4

theorem FrameKept.refl (s : State) : FrameKept s s := ⟨.refl s, fun _ h => h⟩

theorem FrameKept.trans {s t u : State} (h : FrameKept s t) (h' : FrameKept t u) : FrameKept s u :=
  ⟨h.kept.trans h'.kept, fun k hk => h'.pools k (h.pools k hk)⟩

theorem FrameKept.ite {c : Prop} [Decidable c] {s t u : State} (ht : FrameKept s t) (hu : FrameKept s u) :
    FrameKept s (if c then t else u) := by
  split
  · exact ht
  · exact hu

theorem FrameKept.foldl {α : Type} (f : State → α → State) (l : List α) (s : State) (h : ∀ t, ∀ a ∈ l, FrameKept t (f t a)) :
    FrameKept s (l.foldl f s) :=
  List.foldlRecOn (motive := fun t => FrameKept s t) l _ (.refl s) fun t ht a ha => ht.trans (h t a ha)

/-- Work on frames keeps a register that it does not change. -/
theorem FrameKept.reg {s t : State} (h : FrameKept s t) {k : Nat} (hk : farKey k) : t.reg k = s.reg k :=
  h.kept.regs k (not_frameKey_of_far hk)

theorem FrameKept.portReg {s t : State} (h : FrameKept s t) {r n : Nat} (hn : n < 66)
    (hr : 0x04060100 ≤ r ∧ r < 0x04060140 ∧ r ≠ Reg.PORT_STAT) : t.reg (atInst r n) = s.reg (atInst r n) :=
  h.kept.regs _ (not_frameKey_port hn hr)

/-- Work that leaves the buffers as they are. -/
theorem PoolKept.frameKept {s t : State} (h : PoolKept (· < 4) s t) : FrameKept s t :=
  ⟨h.acct.kept.mono fun _ => frameKey_of_acct, fun k hk => State.buf_of_bufs h.bufs k ▸ hk⟩

theorem FrameKept.of_eq {s t : State} (hmem : t.mem = s.mem) (hntu : t.ntu = s.ntu) (hothers : t.net.others = s.net.others)
    (hregs : t.regs = s.regs) (hbufs : t.net.bufs = s.net.bufs) : FrameKept s t :=
  ⟨.of_eq hmem hntu hothers hregs, fun k hk => State.buf_of_bufs hbufs k ▸ hk⟩

theorem State.frameKept_setReg (s : State) {k : Nat} (v : Word) (hK : frameKey k) (hstat : ¬ statKey k) : FrameKept s (s.setReg k v) :=
  ⟨s.netKept_setReg v hK hstat, fun _ h => h⟩

theorem State.frameKept_setBuf (s : State) (h : Nat) (f : Buf → Buf) (hf : (s.buf h).pool < 4 → (f (s.buf h)).pool < 4) :
    FrameKept s (s.setBuf h f) := by
  refine ⟨.of_eq rfl rfl rfl rfl, fun k hk => ?_⟩
  by_cases hkh : k = h
  · rw [hkh, buf_setBuf_same]
    exact hf (hkh ▸ hk)
  · rwa [buf_setBuf_other _ _ hkh]

theorem State.frameKept_portCount (s : State) (n : Nat) {i : Nat} (hi : i < 16) : FrameKept s (s.portCount n i) :=
  (s.poolKept_portCount n hi).frameKept

theorem State.frameKept_octets (s : State) {n i : Nat} (k : Nat) (hi : i < 15) : FrameKept s (s.octets n i k) := by
  unfold octets
  extract_lets r
  split
  · next hn =>
    have hkey (j : Nat) (hj : j < 64) : frameKey (atInst Reg.PORT_CNT n + j) ∧ ¬ statKey (atInst Reg.PORT_CNT n + j) := by
      refine ⟨.inl (.inl (.inr ⟨n, j, hn, hj, rfl⟩)), ?_⟩
      rintro ⟨m, hm, h⟩
      have hcnt : atInst Reg.PORT_CNT n = 0x04060140 + n * 0x1000 := rfl
      have hstat : atInst Reg.PORT_STAT m = 0x04060104 + m * 0x1000 := rfl
      omega
    have hlow := hkey (4 * i) (by omega)
    have hhigh := hkey (4 * i + 4) (by omega)
    exact (s.frameKept_setReg _ hlow.1 hlow.2).trans (frameKept_setReg _ _ hhigh.1 hhigh.2)
  · exact .refl s

/-! ### Buffers of a frame (R331) -/

theorem State.frameKept_takeBuf (s : State) {p : Nat} (owner : Nat) (data : List Byte) (hp : p < 4) : FrameKept s (s.takeBuf p owner data) := by
  refine ⟨(s.accounted_takeBuf p owner data).kept.mono fun _ => frameKey_of_acct, fun k hk => ?_⟩
  rw [buf_takeBuf]
  split
  · exact hp
  · exact hk

theorem State.frameKept_alloc (s : State) {p : Nat} (owner : Nat) (data : List Byte) (hp : p < 4) : FrameKept s (s.alloc p owner data).2 := by
  cases h : s.grants p with
  | true =>
    rw [alloc_of_grants owner data h]
    exact (s.frameKept_takeBuf owner data hp).trans (poolKept_setUse (P := (· < 4)) _ _ hp).frameKept
  | false =>
    rw [alloc_of_refused owner data h]
    exact (s.poolKept_noBuffer (P := (· < 4)) hp).frameKept

theorem State.pool_alloc (s : State) {p h : Nat} (owner : Nat) (data : List Byte) (hp : p < 4) (hgot : (s.alloc p owner data).1 = some h) :
    ((s.alloc p owner data).2.buf h).pool < 4 := by
  cases hgrants : s.grants p with
  | true =>
    rw [alloc_of_grants owner data hgrants] at hgot ⊢
    obtain rfl := Option.some.inj hgot
    rw [buf_of_bufs (poolKept_setUse (P := (· < 4)) _ _ hp).bufs, buf_takeBuf, if_pos rfl]
    exact hp
  | false =>
    rw [alloc_of_refused owner data hgrants] at hgot
    exact nomatch hgot

theorem State.frameKept_unbuf (s : State) {h : Nat} (hp : (s.buf h).pool < 4) : FrameKept s (s.unbuf h) :=
  .ite ((s.frameKept_setBuf h (fun _ => {}) fun _ => Nat.zero_lt_succ 3).trans (poolKept_setUse (P := (· < 4)) _ _ hp).frameKept) (.refl s)

theorem State.frameKept_freeChain (s : State) (l : List Nat) (hl : ∀ h ∈ l, (s.buf h).pool < 4) : FrameKept s (s.freeChain l) :=
  List.foldlRecOn (motive := fun t => FrameKept s t) l _ (.refl s) fun t ht h hmem => ht.trans (t.frameKept_unbuf (ht.pools h (hl h hmem)))

/-- One more buffer of a frame, where those before it were given. -/
def allocNext (p owner : Nat) (data : List Byte) (r : Option (List Nat) × State) (i : Nat) : Option (List Nat) × State :=
  match r.1 with
  | none => r
  | some l =>
    match r.2.alloc p owner (sliceB data (256 * i) 256) with
    | (some h, s) => (some (l ++ [h]), s)
    | (none, s) => (none, s.freeChain l)

theorem State.allocFrame_eq (s : State) (p owner : Nat) (data : List Byte) (len : Nat) :
    s.allocFrame p owner data len = (List.range ((len + 255) / 256)).foldl (allocNext p owner data) (some [], s) := rfl

/-- A request for a frame's buffers so far: the buffers given are of the four pools. -/
structure ChainKept (s : State) (r : Option (List Nat) × State) : Prop where
  kept : FrameKept s r.2
  pools : ∀ l, r.1 = some l → ∀ h ∈ l, (r.2.buf h).pool < 4

theorem chainKept_allocNext {s : State} {r : Option (List Nat) × State} {p : Nat} (owner : Nat) (data : List Byte) (i : Nat) (hp : p < 4)
    (h : ChainKept s r) : ChainKept s (allocNext p owner data r i) := by
  obtain ⟨hkept, hpools⟩ := h
  unfold allocNext
  split
  · exact ⟨hkept, hpools⟩
  · next l hl =>
    have hnext := r.2.frameKept_alloc owner (sliceB data (256 * i) 256) hp
    have hgot := fun h => r.2.pool_alloc (h := h) owner (sliceB data (256 * i) 256) hp
    have hold : ∀ h ∈ l, ((r.2.alloc p owner (sliceB data (256 * i) 256)).2.buf h).pool < 4 :=
      fun h hmem => hnext.pools h (hpools l hl h hmem)
    generalize r.2.alloc p owner (sliceB data (256 * i) 256) = a at hnext hgot hold
    obtain ⟨c, u⟩ := a
    cases c with
    | some c =>
      refine ⟨hkept.trans hnext, fun l' hl' h hmem => ?_⟩
      obtain rfl := Option.some.inj hl'
      rcases List.mem_append.1 hmem with hmem | hmem
      · exact hold h hmem
      · obtain rfl := List.mem_singleton.1 hmem
        exact hgot h rfl
    | none => exact ⟨hkept.trans (hnext.trans (u.frameKept_freeChain l hold)), nofun⟩

theorem State.chainKept_allocFrame (s : State) {p : Nat} (owner : Nat) (data : List Byte) (len : Nat) (hp : p < 4) :
    ChainKept s (s.allocFrame p owner data len) := by
  rw [allocFrame_eq]
  exact List.foldlRecOn (motive := fun r => ChainKept s r) _ _ ⟨.refl s, fun l hl h hmem => by obtain rfl := Option.some.inj hl; exact absurd hmem List.not_mem_nil⟩
    fun r hr i _ => chainKept_allocNext owner data i hp hr

/-! ### Queues, and frames of the device's own (R316, R356) -/

/-- A frame's buffers change hands. -/
def State.setOwner (s : State) (chain : List Nat) (n : Nat) : State :=
  chain.foldl (fun (s : State) h => s.setBuf h fun b => { b with owner := n }) s

theorem State.frameKept_setOwner (s : State) (chain : List Nat) (n : Nat) : FrameKept s (s.setOwner chain n) :=
  .foldl _ _ _ fun t h _ => t.frameKept_setBuf h _ fun hp => hp

theorem State.frameKept_joinQ (s : State) (n q : Nat) (f : QFrame) : FrameKept s (s.joinQ n q f) := .of_eq rfl rfl rfl rfl rfl

theorem State.frameKept_queueOn (s : State) (q : Nat) (chain : List Nat) (dests : List (Nat × QFrame))
    (hpools : ∀ h ∈ chain, (s.buf h).pool < 4) : FrameKept s (s.queueOn q chain dests) := by
  unfold queueOn
  split
  · have hcount : FrameKept s (dests.foldl (fun (s : State) d => s.portCount d.1 15) s) :=
      .foldl _ _ _ fun t d _ => t.frameKept_portCount d.1 (by decide)
    exact hcount.trans (frameKept_freeChain _ chain fun h hmem => hcount.pools h (hpools h hmem))
  · split
    · exact (s.frameKept_setOwner chain _).trans (frameKept_joinQ _ _ q _)
    · extract_lets rel u v
      have howner : FrameKept s u := s.frameKept_setOwner chain rel
      have hcount : FrameKept u v := u.frameKept_setBuf _ _ fun hp => hp
      exact (howner.trans hcount).trans (.foldl _ _ _ fun t d _ => t.frameKept_joinQ d.1 q _)

theorem State.frameKept_originate (s : State) (owner q : Nat) (data : List Byte) (ports : List Nat) :
    FrameKept s (s.originate owner q data ports).2 := by
  obtain ⟨hkept, hpools⟩ := s.chainKept_allocFrame (p := 3) owner data (data.length + 4) (by decide)
  unfold originate
  generalize s.allocFrame 3 owner data (data.length + 4) = r at hkept hpools
  obtain ⟨c, u⟩ := r
  cases c with
  | none => exact hkept
  | some ch => exact hkept.trans (u.frameKept_queueOn q ch _ (hpools ch rfl))

/-! ### The host's rings (R339) -/

theorem State.frameKept_hptReg (s : State) {k : Nat} (v : Word) (hlo : 0x040A2100 ≤ k) (hhi : k < 0x040A2200) : FrameKept s (s.setReg k v) :=
  s.frameKept_setReg v (.inr (.inr ⟨hlo, hhi⟩)) (not_statKey_of_ge (by omega))

theorem State.frameKept_raiseHPT (s : State) (i : Nat) : FrameKept s (s.raise pHPT i) :=
  ⟨s.netKept_raise i (fun _ h => .inr (.inl h)) (by decide), fun k hk => by rwa [buf_of_bufs (congrArg NetSt.bufs (raise_net ..))]⟩

theorem State.frameKept_emit (s : State) (o : Out) : FrameKept s (s.emit o) := .of_eq rfl rfl rfl rfl rfl

theorem State.frameKept_hostRx (s : State) (reason port vid cls : Nat) (ts : Option (BitVec 96)) (data : List Byte) :
    FrameKept s (s.hostRx reason port vid cls ts data) := by
  unfold hostRx
  extract_lets r b n head flag u v
  have hr : r < 2 := by
    unfold r
    split <;> decide
  split
  · exact (s.frameKept_hptReg _ (by decide) (by decide)).trans (frameKept_raiseHPT _ 3)
  · have hdescs : FrameKept s u := .foldl _ _ _ fun t i _ => (t.frameKept_emit _).trans (frameKept_emit _ _)
    have hring : FrameKept u v := u.frameKept_hptReg _ (by unfold ringReg Reg.HPT_RING_BASE_LO; omega) (by unfold ringReg Reg.HPT_RING_BASE_LO; omega)
    have hcnt : FrameKept v (v.count (Reg.HPT_CNT + 4 * r)) := v.frameKept_hptReg _ (by unfold Reg.HPT_CNT; omega) (by unfold Reg.HPT_CNT; omega)
    exact ((hdescs.trans hring).trans hcnt).trans (frameKept_raiseHPT _ r)

end Sys2Proof.Machine
end

section
/-! PROOFS. The buffers of a frame hold its bytes (R331). -/

namespace Sys2Proof.Machine

/-! ### Free buffers -/

/-- The buffers that are free. -/
def State.freeList (s : State) : List Nat := (List.range 16384).filter fun h => !(s.buf h).alloc

theorem State.freeBuf_eq (s : State) : s.freeBuf = s.choose s.freeList := rfl

theorem State.choose_mem (s : State) {l : List Nat} (h : l ≠ []) : (s.choose l).1 ∈ l := by
  unfold choose
  split
  · exact List.mem_singleton.2 rfl
  · have hlt : Config.pick s.fresh % l.length < l.length := Nat.mod_lt _ (List.length_pos_iff.2 h)
    exact List.getD_eq_getElem l 0 hlt ▸ List.getElem_mem hlt

/-- A buffer given while one is free was free. -/
theorem State.freeBuf_free {s : State} (h : 0 < s.freeList.length) : (s.buf s.freeBuf.1).alloc = false := by
  have hmem := s.choose_mem (List.length_pos_iff.1 h)
  rw [← freeBuf_eq] at hmem
  simpa using (List.mem_filter.1 hmem).2

theorem State.freeList_of_bufs {s t : State} (h : ∀ k, t.buf k = s.buf k) : t.freeList = s.freeList := by
  unfold freeList
  simp only [h]

/-- Taking a buffer takes at most one free buffer. -/
theorem State.freeList_takeBuf (s : State) (p owner : Nat) (data : List Byte) :
    s.freeList.length ≤ (s.takeBuf p owner data).freeList.length + 1 := by
  have hnodup : s.freeList.Nodup := List.nodup_range.filter _
  have hsub : s.freeList.erase s.freeBuf.1 ⊆ (s.takeBuf p owner data).freeList := by
    intro h hmem
    obtain ⟨hne, hfree⟩ := (hnodup.mem_erase_iff).1 hmem
    obtain ⟨hrange, hopen⟩ := List.mem_filter.1 hfree
    refine List.mem_filter.2 ⟨hrange, ?_⟩
    rw [buf_takeBuf, if_neg hne]
    exact hopen
  have hle := (List.subperm_of_subset (hnodup.erase _) hsub).length_le
  have herase := s.freeList.length_erase (a := s.freeBuf.1)
  split at herase
  · omega
  · omega

/-! ### The bytes of a chain -/

/-- Bytes as a buffer shows them, all 256. -/
def inBuffer (l : List Byte) : List Byte := l ++ List.replicate (256 - l.length) (0 : Byte)

theorem State.bufBytes_eq (s : State) (h : Nat) : s.bufBytes h = inBuffer (s.buf h).data := rfl

theorem State.bufBytes_of_data {s t : State} {h : Nat} (hd : (t.buf h).data = (s.buf h).data) : t.bufBytes h = s.bufBytes h := by
  rw [bufBytes_eq, bufBytes_eq, hd]

/-- The share of a frame that buffer `i` of its chain holds. -/
def framePart (data : List Byte) (i : Nat) : List Byte := sliceB data (256 * i) 256

theorem inBuffer_framePart (data : List Byte) (i : Nat) :
    data.take (256 * i) ++ List.replicate (256 * i - data.length) 0 ++ inBuffer (framePart data i) =
      data.take (256 * (i + 1)) ++ List.replicate (256 * (i + 1) - data.length) 0 := by
  unfold inBuffer framePart sliceB
  have hlen : ((data.drop (256 * i)).take 256).length = min 256 (data.length - 256 * i) := by simp
  rw [hlen, Nat.mul_add, Nat.mul_one, List.take_add]
  by_cases h : 256 * i ≤ data.length
  · have hnone : 256 * i - data.length = 0 := by omega
    have hrest : 256 - min 256 (data.length - 256 * i) = 256 * i + 256 - data.length := by omega
    rw [hnone, hrest]
    simp
  · have hdrop : data.drop (256 * i) = [] := List.drop_eq_nil_of_le (by omega)
    have hpad : 256 * i + 256 - data.length = (256 * i - data.length) + (256 - min 256 (data.length - 256 * i)) := by omega
    rw [hdrop, hpad, List.replicate_add]
    simp

theorem flatten_frameParts (data : List Byte) (m : Nat) : ((List.range m).map fun i => inBuffer (framePart data i)).flatten =
    data.take (256 * m) ++ List.replicate (256 * m - data.length) 0 := by
  induction m with
  | zero => simp
  | succ m ih => rw [List.range_succ, List.map_append, List.flatten_append, ih, ← inBuffer_framePart]; simp

theorem take_frameParts (data : List Byte) {m : Nat} (h : data.length ≤ 256 * m) :
    (((List.range m).map fun i => inBuffer (framePart data i)).flatten).take data.length = data := by
  rw [flatten_frameParts, List.take_of_length_le h]
  exact List.take_left

/-- A chain holds the first `m` parts of a frame. -/
structure Holds (t : State) (data : List Byte) (m : Nat) (l : List Nat) : Prop where
  taken : ∀ h ∈ l, (t.buf h).alloc = true
  bytes : l.map t.bufBytes = (List.range m).map fun i => inBuffer (framePart data i)

theorem Holds.nil (t : State) (data : List Byte) : Holds t data 0 [] := ⟨fun _ h => absurd h List.not_mem_nil, rfl⟩

theorem Holds.of_bufs {t u : State} {data : List Byte} {m : Nat} {l : List Nat} (h : Holds t data m l)
    (hb : ∀ k, u.buf k = t.buf k) : Holds u data m l :=
  ⟨fun k hk => hb k ▸ h.taken k hk, (List.map_congr_left fun k _ => State.bufBytes_of_data (by rw [hb k])).trans h.bytes⟩

/-- The next part of the frame joins its chain. -/
theorem Holds.takeBuf {t : State} {data : List Byte} {m : Nat} {l : List Nat} (h : Holds t data m l) (p owner : Nat)
    (hfree : 0 < t.freeList.length) : Holds (t.takeBuf p owner (framePart data m)) data (m + 1) (l ++ [t.freeBuf.1]) := by
  have hopen := State.freeBuf_free hfree
  have hne : ∀ k ∈ l, k ≠ t.freeBuf.1 := by
    intro k hk heq
    have htaken := h.taken k hk
    rw [heq, hopen] at htaken
    exact absurd htaken (by decide)
  have hold : ∀ k ∈ l, (t.takeBuf p owner (framePart data m)).buf k = t.buf k := fun k hk => by rw [State.buf_takeBuf, if_neg (hne k hk)]
  have hnew : (t.takeBuf p owner (framePart data m)).buf t.freeBuf.1 = { alloc := true, pool := p, owner := owner, data := framePart data m } := by
    rw [State.buf_takeBuf, if_pos rfl]
  constructor
  · intro k hk
    rcases List.mem_append.1 hk with hk | hk
    · rw [hold k hk]
      exact h.taken k hk
    · rw [List.mem_singleton.1 hk, hnew]
  · rw [List.map_append, List.range_succ, List.map_append, ← h.bytes]
    have hmap : l.map (t.takeBuf p owner (framePart data m)).bufBytes = l.map t.bufBytes :=
      List.map_congr_left fun k hk => State.bufBytes_of_data (by rw [hold k hk])
    rw [hmap, List.map_singleton, List.map_singleton, State.bufBytes_eq, hnew]

/-- The chain that `m` requests have given, out of `free` buffers that were free before the first. -/
def ChainHolds (data : List Byte) (free m : Nat) (r : Option (List Nat) × State) : Prop :=
  ∀ l, r.1 = some l → Holds r.2 data m l ∧ free ≤ r.2.freeList.length + m

theorem chainHolds_allocNext {data : List Byte} {free m : Nat} {r : Option (List Nat) × State} (p owner : Nat) (hm : m < free)
    (h : ChainHolds data free m r) : ChainHolds data free (m + 1) (allocNext p owner data r m) := by
  obtain ⟨c, t⟩ := r
  cases c with
  | none => exact nofun
  | some l =>
    obtain ⟨hholds, hfree⟩ := h l rfl
    have hfree : free ≤ t.freeList.length + m := hfree
    cases hgrants : t.grants p with
    | false =>
      have hnext : allocNext p owner data (some l, t) m = (none, (t.noBuffer p).freeChain l) := by
        unfold allocNext
        simp only [State.alloc_of_refused owner _ hgrants]
      rw [hnext]
      exact nofun
    | true =>
      have hnext : allocNext p owner data (some l, t) m = (some (l ++ [t.freeBuf.1]),
          (t.takeBuf p owner (framePart data m)).setUse p ((t.takeBuf p owner (framePart data m)).inUse p + 1)) := by
        unfold allocNext
        simp only [State.alloc_of_grants owner _ hgrants]
        rfl
      have htake := t.freeList_takeBuf p owner (framePart data m)
      have hbufs := State.buf_of_bufs
        ((t.takeBuf p owner (framePart data m)).poolKept_setUse (P := fun _ => True) (p := p) ((t.takeBuf p owner (framePart data m)).inUse p + 1) trivial).bufs
      rw [hnext]
      intro l' hl'
      obtain rfl := Option.some.inj hl'
      refine ⟨(hholds.takeBuf p owner (by omega)).of_bufs hbufs, ?_⟩
      rw [State.freeList_of_bufs hbufs]
      omega

/-- The buffers that a frame is given hold its bytes. -/
theorem State.holds_allocFrame {s : State} {p owner : Nat} {data : List Byte} {len : Nat} {ch : List Nat} (hfree : s.buffersFor len)
    (h : (s.allocFrame p owner data len).1 = some ch) : Holds (s.allocFrame p owner data len).2 data ((len + 255) / 256) ch := by
  have hall : ∀ m, m ≤ (len + 255) / 256 →
      ChainHolds data s.freeList.length m ((List.range m).foldl (allocNext p owner data) (some [], s)) := by
    intro m hm
    induction m with
    | zero =>
      intro l hl
      obtain rfl := Option.some.inj hl
      exact ⟨.nil s data, Nat.le_add_right _ _⟩
    | succ m ih =>
      rw [List.range_succ, List.foldl_append]
      exact chainHolds_allocNext p owner (Nat.lt_of_lt_of_le hm hfree) (ih (by omega))
  exact (hall _ (Nat.le_refl _) ch h).1

theorem Holds.stored {t : State} {data : List Byte} {m : Nat} {f : QFrame} (h : Holds t data m f.chain) (hlen : f.len = data.length)
    (hm : data.length ≤ 256 * m) : t.stored f = data := by
  unfold State.stored
  rw [h.bytes, hlen]
  exact take_frameParts data hm

/-! ### What an allocation leaves -/

theorem accounted_allocNext (p owner : Nat) (data : List Byte) (r : Option (List Nat) × State) (i : Nat) :
    Accounted (fun _ => True) r.2 (allocNext p owner data r i).2 := by
  unfold allocNext
  split
  · exact .refl _
  · next l hl =>
    have hnext := r.2.accounted_alloc (P := fun _ => True) (p := p) owner (sliceB data (256 * i) 256) trivial
    generalize r.2.alloc p owner (sliceB data (256 * i) 256) = a at hnext
    obtain ⟨c, u⟩ := a
    cases c with
    | some c => exact hnext
    | none => exact hnext.trans (u.accounted_freeChain l)

theorem State.qs_allocFrame (s : State) (p owner : Nat) (data : List Byte) (len : Nat) :
    (s.allocFrame p owner data len).2.net.qs = s.net.qs := by
  rw [allocFrame_eq]
  exact List.foldlRecOn (motive := fun r : Option (List Nat) × State => r.2.net.qs = s.net.qs) _ _ rfl
    fun r hr i _ => (accounted_allocNext p owner data r i).qs.trans hr

end Sys2Proof.Machine
end

section
/-! PROOFS. A received frame comes to step 4 of R318 (R314, R318, R369). -/

namespace Sys2Proof.Machine

/-! ### Steps 1 to 3 -/

/-- A frame on its way, with its stamp and its buffers. -/
def Rx.taken (x : Rx) (stamp : Option (BitVec 96)) (chain : List Nat) : Rx := { x with stamp := stamp, chain := chain }

/-- A frame's buffers are allocated: they hold its bytes, and nothing but work on frames is done. -/
structure FrameIn (s u : State) (data : List Byte) (ch : List Nat) : Prop where
  kept : FrameKept s u
  qs : u.net.qs = s.net.qs
  pools : ∀ h ∈ ch, (u.buf h).pool < 4
  holds : Holds u data ((data.length + 4 + 255) / 256) ch

theorem State.frameIn_allocFrame {s : State} {p owner : Nat} {data : List Byte} {ch : List Nat} (hp : p < 4)
    (hfree : s.buffersFor (data.length + 4)) (h : (s.allocFrame p owner data (data.length + 4)).1 = some ch) :
    FrameIn s (s.allocFrame p owner data (data.length + 4)).2 data ch := by
  obtain ⟨hkept, hpools⟩ := s.chainKept_allocFrame owner data (data.length + 4) hp
  exact ⟨hkept, s.qs_allocFrame .., hpools ch h, State.holds_allocFrame hfree h⟩

/-- Work that leaves buffers and queues as they are. -/
theorem FrameIn.after {s u t : State} {data : List Byte} {ch : List Nat} (h : FrameIn s u data ch) (hkept : FrameKept u t)
    (hqs : t.net.qs = u.net.qs) (hbufs : t.net.bufs = u.net.bufs) : FrameIn s t data ch :=
  ⟨h.kept.trans hkept, hqs.trans h.qs, fun k hk => hkept.pools k (h.pools k hk), h.holds.of_bufs (State.buf_of_bufs hbufs)⟩

theorem State.portCount_net (s : State) (n i : Nat) : (s.portCount n i).net = s.net := by
  unfold portCount
  split <;> rfl

theorem State.octets_net (s : State) (n i k : Nat) : (s.octets n i k).net = s.net := by
  unfold octets
  split <;> rfl

theorem State.rxCount_net (s : State) (port len : Nat) : (s.rxCount port len).net = s.net := (octets_net ..).trans (portCount_net ..)

theorem State.frameKept_rxCount (s : State) (port len : Nat) : FrameKept s (s.rxCount port len) :=
  (s.frameKept_portCount port (by decide)).trans (frameKept_octets _ len (by decide))

theorem FrameIn.rxCount {s u : State} {data : List Byte} {ch : List Nat} (h : FrameIn s u data ch) (port len : Nat) :
    FrameIn s (u.rxCount port len) data ch :=
  h.after (u.frameKept_rxCount port len) (congrArg NetSt.qs (u.rxCount_net port len)) (congrArg NetSt.bufs (u.rxCount_net port len))

/-- The pool of a port's frames. -/
def rxPool (port : Nat) : Nat := if port < 64 then 0 else 1

theorem rxPool_lt (port : Nat) : rxPool port < 4 := by
  unfold rxPool
  split <;> decide

/-- A frame that passes steps 1 and 2 has its buffers, is counted, and goes on. -/
theorem State.rxFrame_taken {s : State} {port ago : Nat} {data : List Byte} {rivals : List Nat} {ch : List Nat}
    (hen : s.bit (atInst Reg.PORT_CTRL port) 0 = true) (hup : s.linkUp port = true) (hin : s.portRetired port = false)
    (hlo : 60 ≤ data.length) (hhi : data.length ≤ 9212) (hpause : isPause data = false)
    (hlow : s.bit (Reg.BPM_POOL_STAT + 4 * rxPool port) 18 = false) (hwins : s.wins port rivals = true)
    (halloc : (s.allocFrame (rxPool port) port data (data.length + 4)).1 = some ch) :
    ∃ stamp, s.rxFrame port true ago data rivals = ((s.allocFrame (rxPool port) port data (data.length + 4)).2.rxCount port
      (data.length + 4)).rxSteps ((s.rxOf port data).taken (some stamp) ch) := by
  have hgood : (decide (64 ≤ data.length + 4) && decide (data.length + 4 ≤ 9216)) = true := by
    rw [Bool.and_eq_true, decide_eq_true_eq, decide_eq_true_eq]
    omega
  unfold rxFrame
  extract_lets len good pool vc
  rw [if_neg (by rw [hen, hup, hin]; decide), if_neg (by rw [hpause, Bool.and_false]; decide),
    if_neg (by rw [show s.bit (Reg.BPM_POOL_STAT + 4 * pool) 18 = false from hlow, Bool.false_and]; decide),
    if_neg (by rw [hwins]; decide)]
  have hpool : pool = rxPool port := rfl
  have hlen : len = data.length + 4 := rfl
  rw [hpool, hlen]
  generalize s.allocFrame (rxPool port) port data (data.length + 4) = r at halloc ⊢
  obtain ⟨c, u⟩ := r
  obtain rfl : c = some ch := halloc
  refine ⟨u.rxStamp port ago, ?_⟩
  dsimp only
  rw [if_neg (by decide), if_neg (by rw [show good = true from hgood]; decide)]
  exact congrArg (State.rxSteps (u.rxCount port (data.length + 4))) rfl

theorem State.wins_alone (s : State) (me : Nat) : s.wins me [] = true := rfl

/-- A received frame comes to step 3 with its buffers. -/
theorem State.rxFrame_received {s : State} {port : Nat} {data : List Byte} (h : s.received port data) (ago : Nat) {rivals : List Nat}
    (hwins : s.wins port rivals = true) : ∃ u ch stamp,
      s.rxFrame port true ago data rivals = u.rxSteps ((s.rxOf port data).taken (some stamp) ch) ∧ FrameIn s u data ch := by
  obtain ⟨hen, hup, hin, hlo, hhi, hpause, hlow, hsome, hfree, -, -⟩ := h
  obtain ⟨ch, halloc⟩ := Option.isSome_iff_exists.1 hsome
  obtain ⟨stamp, heq⟩ := State.rxFrame_taken (ago := ago) hen hup hin hlo hhi hpause hlow hwins halloc
  exact ⟨_, ch, stamp, heq, (State.frameIn_allocFrame (rxPool_lt port) hfree halloc).rxCount port _⟩

/-! ### Step 4 -/

theorem FrameKept.member {s u : State} (h : FrameKept s u) (vid n : Nat) : u.member vid n = s.member vid n := by
  have hvlans : u.net.others.vlans = s.net.others.vlans := congrArg NetSt.vlans h.kept.others
  exact congrArg (fun l => bitAt (Sparse.get 0 vid l) n) hvlans

theorem FrameKept.almType {s u : State} (h : FrameKept s u) : u.almType = s.almType :=
  State.fld_of_reg (h.reg (.inr (.inr (.inr (by decide))))) 0 16

theorem FrameKept.mgtType {s u : State} (h : FrameKept s u) : u.mgtType = s.mgtType :=
  State.fld_of_reg (h.reg (.inr (.inr (.inl (by decide))))) 16 16

theorem FrameKept.rmac {s u : State} (h : FrameKept s u) : u.rmac = s.rmac := by
  rw [State.rmac, State.reg64_of_reg (h.reg (.inr (.inr (.inl (by decide))))) (h.reg (.inr (.inr (.inl (by decide))))), State.rmac]

theorem FrameKept.roleActs {s u : State} (h : FrameKept s u) : u.roleActs = s.roleActs := by
  have hrole : u.role = s.role := State.fld_of_reg (h.reg (.inr (.inl (by decide)))) 0 3
  rw [State.roleActs, hrole, State.roleActs]

theorem FrameKept.frcNow {s u : State} (h : FrameKept s u) : u.frcNow = s.frcNow := by
  rw [State.frcNow, h.kept.ntu, State.frcNow]

/-- The registers of a bucket. -/
theorem FrameKept.bucketOpen {s u : State} (h : FrameKept s u) {port cls : Nat} (hopen : s.bucketOpen port cls) :
    u.bucketOpen port cls := by
  have hge := copyOf_ge (8 * port + cls) Reg.POL_CFG
  have hreg : u.reg (copyOf (8 * port + cls) Reg.POL_CFG) = s.reg (copyOf (8 * port + cls) Reg.POL_CFG) :=
    h.reg (.inr (.inr (.inr (by omega))))
  unfold State.bucketOpen
  rw [State.fld_of_reg hreg]
  exact hopen

/-- A frame of its port's VLAN is judged by its EtherType. -/
theorem State.rxSteps_alarm {u : State} {x : Rx} (hvid : x.vid ≠ 4095) (hmem : u.member x.vid x.port = true) (htype : x.etype = u.almType)
    (hon : u.almType ≠ 0) : u.rxSteps x = u.divert Reg.POL_ADMIT_ALM x fun x s =>
      s.almFrameRx x.port (x.rest.drop 2) (x.bare, x.vid, x.cls, x.stamp) := by
  unfold rxSteps
  rw [if_neg (by rw [hmem]; simpa using hvid), if_pos ⟨htype, hon⟩]

theorem State.rxSteps_mgt {u : State} {x : Rx} (hvid : x.vid ≠ 4095) (hmem : u.member x.vid x.port = true)
    (hother : ¬ (x.etype = u.almType ∧ u.almType ≠ 0)) (htype : x.etype = u.mgtType) (hon : u.mgtType ≠ 0) (hda : x.da = u.rmac) :
    u.rxSteps x = u.divert Reg.POL_ADMIT_MGT x fun x s => s.mgtFrame ⟨x.port, x.sa, x.vid, x.rest.drop 2⟩ := by
  unfold rxSteps
  rw [if_neg (by rw [hmem]; simpa using hvid), if_neg hother, if_pos ⟨htype, hon, hda⟩]

/-- A frame that no unit takes goes on to step 5, a PTP message by its own way. -/
theorem State.rxSteps_plain {u : State} {x : Rx} (hvid : x.vid ≠ 4095) (hmem : u.member x.vid x.port = true)
    (halm : ¬ (x.etype = u.almType ∧ u.almType ≠ 0)) (hmgt : ¬ (x.etype = u.mgtType ∧ u.mgtType ≠ 0 ∧ x.da = u.rmac))
    (hptp : ptpAt? x.rest = none) : u.rxSteps x = u.rxOn x {} := by
  unfold rxSteps
  rw [if_neg (by rw [hmem]; simpa using hvid), if_neg halm, if_neg hmgt, hptp]

theorem State.rxSteps_ptp {u : State} {x : Rx} {p : PtpAt} (hvid : x.vid ≠ 4095) (hmem : u.member x.vid x.port = true)
    (halm : ¬ (x.etype = u.almType ∧ u.almType ≠ 0)) (hmgt : ¬ (x.etype = u.mgtType ∧ u.mgtType ≠ 0 ∧ x.da = u.rmac))
    (hptp : ptpAt? x.rest = some p) : u.rxSteps x = u.ptpRx x p := by
  unfold rxSteps
  rw [if_neg (by rw [hmem]; simpa using hvid), if_neg halm, if_neg hmgt, hptp]

theorem State.police_open {s : State} {port cls : Nat} (h : s.bucketOpen port cls) (len : Nat) : s.police port cls len = (some cls, s) :=
  if_pos h

/-- A bucket that is open lets a frame go on as it is. -/
theorem State.policed_open {s : State} {x : Rx} (h : s.bucketOpen x.port x.cls) (f : Rx → State → State) : s.policed x f = f x s := by
  unfold policed
  rw [police_open h]

theorem State.divert_admitted {s : State} {gate : Nat} {x : Rx} (hgate : s.bit (gate + 4 * (x.port / 32)) (x.port % 32) = true)
    (hopen : s.bucketOpen x.port x.cls) (f : Rx → State → State) : s.divert gate x f = (f x s).freeChain x.chain := by
  unfold divert
  rw [if_neg (by rw [hgate]; decide), policed_open hopen]
  rfl

/-- A frame that step 4 diverts: what its unit does with it, and then its buffers are freed. -/
theorem FrameIn.diverts {s u : State} {port : Nat} {data : List Byte} {ch : List Nat} {gate : Nat} (h : FrameIn s u data ch)
    (hdiv : s.diverts port data gate) (hgate : 0x040B2180 ≤ gate) (stamp : Option (BitVec 96)) (f : Rx → State → State) :
    u.divert gate ((s.rxOf port data).taken stamp ch) f = (f ((s.rxOf port data).taken stamp ch) u).freeChain ch := by
  obtain ⟨-, hbit, hopen⟩ := hdiv
  have hbucket : u.bucketOpen ((s.rxOf port data).taken stamp ch).port ((s.rxOf port data).taken stamp ch).cls := h.kept.bucketOpen hopen
  refine State.divert_admitted ?_ hbucket f
  have hreg : u.reg (gate + 4 * (port / 32)) = s.reg (gate + 4 * (port / 32)) := by
    refine h.kept.reg (.inr (.inr (.inr ?_)))
    omega
  exact (State.bit_of_reg hreg (port % 32)).trans hbit

end Sys2Proof.Machine
end

section
/-! PROOFS. Alarm frames (R342 to R345). -/

namespace Sys2Proof.Machine

/-! ### The seen cache (R342) -/

theorem State.closeIfPast_engine (s : State) : s.closeIfPast.net = s.net ∧ s.closeIfPast.ntu = s.ntu := by
  unfold closeIfPast closeTrig
  split
  · split <;> exact ⟨rfl, rfl⟩
  · exact ⟨rfl, rfl⟩

theorem State.mem_almSeen (s : State) (origin seq : Nat) : (origin, seq, s.frcNow) ∈ (s.almSeen origin seq).net.seen :=
  List.mem_append_right _ (List.mem_singleton.2 rfl)

/-- Nothing is accepted anew, an acceptance that is shown stays shown, and no buffer moves out of the four pools. -/
structure AlarmKept (s t : State) : Prop where
  seen : t.net.seen = s.net.seen
  shown : ∀ i, i < 32 → s.bit (cReg pALM OFF_INT_STAT) i = true → t.bit (cReg pALM OFF_INT_STAT) i = true
  pools : ∀ h, (s.buf h).pool < 4 → (t.buf h).pool < 4

theorem AlarmKept.refl (s : State) : AlarmKept s s := ⟨rfl, fun _ _ h => h, fun _ h => h⟩

theorem AlarmKept.trans {s t u : State} (h : AlarmKept s t) (h' : AlarmKept t u) : AlarmKept s u :=
  ⟨h'.seen.trans h.seen, fun i hi hb => h'.shown i hi (h.shown i hi hb), fun k hk => h'.pools k (h.pools k hk)⟩

theorem FrameKept.alarmKept {s t : State} (h : FrameKept s t) : AlarmKept s t :=
  have hseen : t.net.others.seen = s.net.others.seen := congrArg NetSt.seen h.kept.others
  have hreg : t.reg (cReg pALM OFF_INT_STAT) = s.reg (cReg pALM OFF_INT_STAT) := h.reg (.inr (.inr (.inr (by decide))))
  ⟨hseen, fun i _ hb => (State.bit_of_reg hreg i).trans hb, h.pools⟩

theorem AlarmKept.of_eq {s t : State} (hseen : t.net.seen = s.net.seen) (hbufs : t.net.bufs = s.net.bufs) (hregs : t.regs = s.regs) :
    AlarmKept s t := by
  have hreg : t.reg (cReg pALM OFF_INT_STAT) = s.reg (cReg pALM OFF_INT_STAT) := by rw [State.reg, State.reg, hregs]
  exact ⟨hseen, fun i _ hb => (State.bit_of_reg hreg i).trans hb, fun k hk => by rwa [State.buf_of_bufs hbufs]⟩

theorem State.alarmKept_raise (s : State) {i : Nat} (hi : i < 32) : AlarmKept s (s.raise pALM i) :=
  ⟨congrArg NetSt.seen (raise_net ..), fun _ _ hb => s.bit_raise_keeps pALM hi hb,
    fun k hk => by rwa [buf_of_bufs (congrArg NetSt.bufs (raise_net ..))]⟩

theorem State.alarmKept_setReg (s : State) {k : Nat} (v : Word) (hk : k ≠ cReg pALM OFF_INT_STAT) : AlarmKept s (s.setReg k v) :=
  ⟨rfl, fun i _ hb => (bit_of_reg (s.reg_setReg_other v (Ne.symm hk)) i).trans hb, fun _ h => h⟩

/-! ### The inputs, the copy and the forwarding of an accepted frame (R342 to R344) -/

theorem State.alarmKept_almCnt (s : State) (i n : Nat) : AlarmKept s (s.bump (Reg.ALM_CNT + i) 0 32 n) :=
  s.alarmKept_setReg _ (by
    have haddr : cReg pALM OFF_INT_STAT = 0x040B7010 := rfl
    unfold Reg.ALM_CNT
    omega)

theorem State.alarmKept_almLevel (s : State) (a : Nat) (on : Bool) : AlarmKept s (s.almLevel a on) := by
  unfold almLevel
  extract_lets r was u
  have hset : AlarmKept s u := s.alarmKept_setReg _ (by
    have haddr : cReg pALM OFF_INT_STAT = 0x040B7010 := rfl
    have hr : r = 0x040B7140 + 4 * (a / 32) := rfl
    omega)
  split
  · have hevent : AlarmKept u { u with evt := { u.evt with almEv := u.evt.almEv ||| 1 <<< a } } := .of_eq rfl rfl rfl
    exact (hset.trans hevent).trans (alarmKept_raise _ (by decide))
  · exact hset

theorem State.alarmKept_almInput (s : State) (kind origin seq code a : Nat) : AlarmKept s (s.almInput kind origin seq code a) := by
  unfold almInput
  extract_lets w0 w1 o mask kbit fresh n u
  split
  · exact .refl s
  · split
    · exact s.alarmKept_almCnt 24 1
    · have hlast : AlarmKept s u := .of_eq rfl rfl rfl
      exact hlast.trans (u.alarmKept_almLevel a _)

theorem State.alarmKept_almGated (s : State) : AlarmKept s s.almGated :=
  (s.alarmKept_almCnt 28 1).trans (alarmKept_raise _ (by decide))

theorem State.alarmKept_almForward (s : State) (port : Nat) (payload : List Byte) : AlarmKept s (s.almForward port payload) := by
  unfold almForward
  extract_lets hops ports f
  split
  · exact s.alarmKept_almCnt 20 1
  · split
    · exact .refl s
    · split
      · exact s.alarmKept_almGated
      · have hsent := (s.frameKept_originate 69 (s.fld Reg.ALM_TX 8 3) f ports).alarmKept
        generalize s.originate 69 (s.fld Reg.ALM_TX 8 3) f ports = r at hsent
        obtain ⟨ok, t⟩ := r
        dsimp only
        split
        · exact hsent.trans (t.alarmKept_almCnt 12 _)
        · exact hsent

/-- An accepted frame is recorded and counted. -/
def State.almAccepted (s : State) (p : List Byte) : State :=
  ((s.almExpire.almSeen (leAt p 4 2 % 16384) (leAt p 6 2)).count Reg.ALM_CNT).raise pALM 0

/-- Its inputs, and its copy for the host. -/
def State.almInputs (s : State) (p : List Byte) : State :=
  if 1 ≤ leAt p 1 1 ∧ leAt p 1 1 ≤ 4 then (List.range 64).foldl (fun (s : State) a =>
    s.almInput (leAt p 1 1) (leAt p 4 2 % 16384) (leAt p 6 2) (leAt p 8 2) a) s else s

def State.almCopied (s : State) (port : Nat) (copy : List Byte × Nat × Nat × Option (BitVec 96)) : State :=
  if s.bit Reg.ALM_CTRL 2 then s.hostRx rALARM port copy.2.1 copy.2.2.1 copy.2.2.2 copy.1 else s

theorem State.alarmKept_almInputs (s : State) (p : List Byte) : AlarmKept s (s.almInputs p) := by
  unfold almInputs
  split
  · exact List.foldlRecOn (motive := fun t => AlarmKept s t) _ _ (.refl s) fun t ht a _ => ht.trans (t.alarmKept_almInput ..)
  · exact .refl s

theorem State.alarmKept_almCopied (s : State) (port : Nat) (copy : List Byte × Nat × Nat × Option (BitVec 96)) :
    AlarmKept s (s.almCopied port copy) := by
  unfold almCopied
  split
  · exact (s.frameKept_hostRx ..).alarmKept
  · exact .refl s

theorem State.almFrameRx_accepted {s : State} {p : List Byte} (hver : leAt p 0 1 = 1) (hlen : 46 ≤ p.length)
    (hcrc : leAt p 0x2A 4 = almCrc p) (hown : leAt p 4 2 % 16384 ≠ s.closeIfPast.node)
    (hseen : s.closeIfPast.almExpire.net.seen.any (fun e => e.1 == leAt p 4 2 % 16384 && e.2.1 == leAt p 6 2) = false) (port : Nat)
    (copy : List Byte × Nat × Nat × Option (BitVec 96)) :
    s.almFrameRx port p copy = (((s.closeIfPast.almAccepted p).almInputs p).almCopied port copy).almForward port p := by
  have hgood : ¬ (leAt p 0 1 ≠ 1 ∨ p.length < 46 ∨ leAt p 0x2A 4 ≠ almCrc p) := by
    rw [hver, hcrc]
    omega
  have hnew : ¬ (leAt p 4 2 % 16384 = s.closeIfPast.node ∨
      s.closeIfPast.almExpire.net.seen.any (fun e => e.1 == leAt p 4 2 % 16384 && e.2.1 == leAt p 6 2) = true) := by
    rw [hseen]
    simpa using hown
  unfold almFrameRx
  rw [if_neg hgood]
  extract_lets u origin seq
  rw [if_neg hnew]
  rfl

theorem State.almAccepted_shows (s : State) (p : List Byte) :
    (leAt p 4 2 % 16384, leAt p 6 2, s.frcNow) ∈ (s.almAccepted p).net.seen ∧
      (s.almAccepted p).bit (cReg pALM OFF_INT_STAT) 0 = true ∧ (s.almAccepted p).net.bufs = s.net.bufs := by
  have hnet : (s.almAccepted p).net = (s.almExpire.almSeen (leAt p 4 2 % 16384) (leAt p 6 2)).net := raise_net ..
  refine ⟨?_, bit_raise _ _ (by decide), ?_⟩
  · rw [hnet]
    exact s.almExpire.mem_almSeen _ _
  · rw [hnet]
    rfl

/-- What an accepted frame shows. -/
theorem State.almFrameRx_shows {s : State} {p : List Byte} (hver : leAt p 0 1 = 1) (hlen : 46 ≤ p.length)
    (hcrc : leAt p 0x2A 4 = almCrc p) (hown : leAt p 4 2 % 16384 ≠ s.node)
    (hseen : s.almExpire.net.seen.any (fun e => e.1 == leAt p 4 2 % 16384 && e.2.1 == leAt p 6 2) = false) (port : Nat)
    (copy : List Byte × Nat × Nat × Option (BitVec 96)) :
    (leAt p 4 2 % 16384, leAt p 6 2, s.frcNow) ∈ (s.almFrameRx port p copy).net.seen ∧
      (s.almFrameRx port p copy).bit (cReg pALM OFF_INT_STAT) 0 = true ∧
      ∀ h, (s.buf h).pool < 4 → ((s.almFrameRx port p copy).buf h).pool < 4 := by
  obtain ⟨hregs, -, -, -⟩ := s.closeIfPast_keeps
  obtain ⟨hnet, hntu⟩ := s.closeIfPast_engine
  have hnode : s.closeIfPast.node = s.node := by rw [node, node, fld, fld, reg, reg, hregs]
  have hfrc : s.closeIfPast.frcNow = s.frcNow := by rw [frcNow, frcNow, hntu]
  have hexpire : s.closeIfPast.almExpire.net.seen = s.almExpire.net.seen := by
    unfold almExpire
    rw [hfrc, hnet]
  obtain ⟨hmem, hbit, hbufs⟩ := s.closeIfPast.almAccepted_shows p
  obtain ⟨hseen', hshown, hpools⟩ := (((s.closeIfPast.almAccepted p).alarmKept_almInputs p).trans
    (State.alarmKept_almCopied _ port copy)).trans (State.alarmKept_almForward _ port p)
  rw [almFrameRx_accepted hver hlen hcrc (by rwa [hnode]) (by rwa [hexpire]) port copy]
  refine ⟨?_, hshown 0 (by decide) hbit, fun h hp => hpools h ?_⟩
  · rw [hseen', ← hfrc]
    exact hmem
  · rw [buf_of_bufs hbufs, buf_of_bufs (congrArg NetSt.bufs hnet)]
    exact hp

/-! ### ALARM_FRAME (R342) -/

theorem almExpire_seen_congr {s u : State} (hseen : u.net.seen = s.net.seen) (hfrc : u.frcNow = s.frcNow) :
    u.almExpire.net.seen = s.almExpire.net.seen := by
  unfold State.almExpire
  rw [hseen, hfrc]

theorem alarmFrame_comes (port : Fin 66) (eth : EthHdr) (ago : Nat) (payload : List Byte) (cycle : Nat) (s : State) :
    let data := padFrame (eth.frame (toBE 2 s.almType ++ payload))
    let p := (s.rxOf port data).rest.drop 2
    (s.rxOf port data).etype = s.almType → s.almType ≠ 0 → (s.atCycle cycle).diverts port data Reg.POL_ADMIT_ALM → leAt p 0 1 = 1 → 46 ≤ p.length →
    leAt p 0x2A 4 = almCrc p → leAt p 4 2 % 16384 ≠ s.node →
    (s.atCycle cycle).almExpire.net.seen.any (fun e => e.1 == leAt p 4 2 % 16384 && e.2.1 == leAt p 6 2) = false →
    Completes (.alarmFrame port eth ago payload cycle) s fun t =>
      (leAt p 4 2 % 16384, leAt p 6 2, (s.atCycle cycle).frcNow) ∈ t.net.seen ∧
      t.bit (cReg pALM OFF_INT_STAT) 0 = true ∧ SameMem s t := by
  intro data p htype hon hdiv hver hlen hcrc hown hseen
  obtain ⟨w, hw⟩ : ∃ w, w = s.atCycle cycle := ⟨_, rfl⟩
  have halm : w.almType = s.almType := by rw [hw]; rfl
  have hnode : w.node = s.node := by rw [hw]; rfl
  have hrx : w.rxOf port data = s.rxOf port data := by rw [hw]; rfl
  have hmem : w.mem = s.mem := by rw [hw]; rfl
  rw [← hw] at hdiv hseen
  obtain ⟨u, ch, stamp, heq, hin⟩ := State.rxFrame_received hdiv.1 ago (w.wins_alone port)
  obtain ⟨-, -, -, -, -, -, -, -, -, hvid, hmember⟩ := hdiv.1
  have hkept := hin.kept
  have hseen' : u.net.others.seen = w.net.others.seen := congrArg NetSt.seen hkept.kept.others
  have hexpire := almExpire_seen_congr hseen' hkept.frcNow
  obtain ⟨hshown, hbit, hpools⟩ := State.almFrameRx_shows hver hlen hcrc
    (by rw [show u.node = w.node from State.fld_of_reg (hkept.reg (.inl (by decide))) 0 14, hnode]; exact hown)
    (by rw [hexpire]; exact hseen) port
    ((s.rxOf port data).bare, (s.rxOf port data).vid, (s.rxOf port data).cls, some stamp)
  obtain ⟨-, -, hmemA⟩ := u.almFrameRx_frame port p ((s.rxOf port data).bare, (s.rxOf port data).vid, (s.rxOf port data).cls, some stamp)
  obtain ⟨v, hv⟩ : ∃ v, v = u.almFrameRx port p ((s.rxOf port data).bare, (s.rxOf port data).vid, (s.rxOf port data).cls, some stamp) := ⟨_, rfl⟩
  rw [← hv] at hshown hbit hpools hmemA
  have hsteps : u.rxSteps ((w.rxOf port data).taken (some stamp) ch) = v.freeChain ch := by
    rw [State.rxSteps_alarm (x := (w.rxOf port data).taken (some stamp) ch) hvid ((hkept.member _ _).trans hmember) (by rw [hrx, hkept.almType, halm]; exact htype)
      (by rw [hkept.almType, halm]; exact hon), hin.diverts hdiv (by decide) (some stamp), hrx, hv]
    rfl
  have hfree := v.frameKept_freeChain ch fun h hmem => hpools h (hin.pools h hmem)
  obtain ⟨hseenF, hshownF, -⟩ := hfree.alarmKept
  refine ⟨_, congrArg Host.Outcome.next ((congrArg (fun w : State => w.rxFrame port true ago data []) hw.symm).trans (heq.trans hsteps)), ?_,
    hshownF 0 (by decide) hbit, sameMem_of_mem ?_⟩
  · rw [hseenF, ← hw, ← hkept.frcNow]
    exact hshown
  · exact hfree.kept.mem.trans (hmemA.trans (hkept.kept.mem.trans hmem))

theorem alarmCacheExpiry_expires (cycle : Nat) (s : State) : Completes (.alarmCacheExpiry cycle) s fun t =>
    t.net.seen = s.net.seen.filter (fun e => decide (((s.atCycle cycle).frcNow - e.2.2).toNat < 2000000000 * 65536)) ∧ SameMem s t ∧
      SameRegs s t [] :=
  ⟨_, rfl, rfl, sameMem_of_mem rfl, fun _ _ => rfl⟩

end Sys2Proof.Machine
end

section
/-! PROOFS. Alarms of the device's own, and the clearing of alarm inputs (R343, R345). -/

namespace Sys2Proof.Machine

/-! ### ALM_SEND (R345) -/

/-- The alarm that the device originates, once it is in its queues. -/
def State.almSent (s : State) (kind code value : Nat) : State :=
  let seq := (s.fld Reg.ALM_SEQ 0 16 + 1) % 65536
  let u := s.setRegN Reg.ALM_SEQ seq
  (u.originate 69 (u.fld Reg.ALM_TX 8 3) (u.almFrame (almPayload kind (u.fld Reg.ALM_TX 0 8) u.node seq code value u.now.toNat
    (u.ntNs % 2 ^ 64))) (u.portMask Reg.ALM_ORIG_MASK)).2

theorem State.almOriginate_acting {s : State} (htype : s.almType ≠ 0) (hrole : s.roleActs = true) (kind code value : Nat) :
    s.almOriginate kind code value = (((s.almSent kind code value).almSeen (s.almSent kind code value).node
      ((s.fld Reg.ALM_SEQ 0 16 + 1) % 65536)).count (Reg.ALM_CNT + 16)).raise pALM 2 := by
  unfold almOriginate
  rw [if_neg htype, if_neg (by rw [hrole]; decide)]
  rfl

theorem State.frameKept_almSent (s : State) (kind code value : Nat) :
    FrameKept (s.setRegN Reg.ALM_SEQ ((s.fld Reg.ALM_SEQ 0 16 + 1) % 65536)) (s.almSent kind code value) :=
  State.frameKept_originate ..

theorem State.almSent_shows (s : State) (kind code value : Nat) :
    (s.almSent kind code value).fld Reg.ALM_SEQ 0 16 = (s.fld Reg.ALM_SEQ 0 16 + 1) % 65536 ∧
      (s.almSent kind code value).node = s.node ∧ (s.almSent kind code value).frcNow = s.frcNow ∧
      (s.almSent kind code value).mem = s.mem := by
  have hsent := s.frameKept_almSent kind code value
  have hfar : farKey Reg.ALM_SEQ := .inr (.inr (.inr (by decide)))
  refine ⟨(fld_of_reg (hsent.reg hfar) 0 16).trans ?_, ?_, hsent.frcNow, hsent.kept.mem⟩
  · exact fld_setRegN_low _ _ (by decide : 16 ≤ 32) (Nat.mod_lt _ (by decide))
  · have hnode : farKey Reg.NTU_NODE := .inl (by decide)
    exact (fld_of_reg ((hsent.reg hnode).trans ((reg_setRegN ..).trans (if_neg (by decide)))) 0 14)

/-- What is reported of an alarm originated: its SEQ, its record, and the event. -/
theorem State.almOriginate_shows {s : State} (htype : s.almType ≠ 0) (hrole : s.roleActs = true) (kind code value : Nat) :
    (s.almOriginate kind code value).fld Reg.ALM_SEQ 0 16 = (s.fld Reg.ALM_SEQ 0 16 + 1) % 65536 ∧
      (s.node, (s.fld Reg.ALM_SEQ 0 16 + 1) % 65536, s.frcNow) ∈ (s.almOriginate kind code value).net.seen ∧
      (s.almOriginate kind code value).bit (cReg pALM OFF_INT_STAT) 2 = true ∧ (s.almOriginate kind code value).mem = s.mem := by
  obtain ⟨hseq, hnode, hfrc, hmem⟩ := s.almSent_shows kind code value
  rw [almOriginate_acting htype hrole, ← hnode, ← hfrc]
  generalize s.almSent kind code value = u at hseq hmem
  have hnet : ((((u.almSeen u.node ((s.fld Reg.ALM_SEQ 0 16 + 1) % 65536)).count (Reg.ALM_CNT + 16)).raise pALM 2)).net =
      (u.almSeen u.node ((s.fld Reg.ALM_SEQ 0 16 + 1) % 65536)).net := raise_net ..
  refine ⟨(fld_of_reg ?_ 0 16).trans hseq, ?_, bit_raise _ _ (by decide), (raise_mem ..).trans hmem⟩
  · exact (reg_raise _ (by decide)).trans (reg_setReg_other _ _ (by decide))
  · rw [hnet]
    exact u.mem_almSeen _ _

/-- A code under one of the two kinds of a software alarm, as it is written. -/
theorem fld_almWord (kind : Byte) (code : BitVec 16) :
    fld (BitVec.ofNat 32 (kind.toNat * 65536 + code.toNat)) 16 8 = kind.toNat := by
  have hk := kind.isLt
  have hc := code.isLt
  unfold fld bits
  rw [BitVec.toNat_ofNat, Nat.shiftRight_eq_div_pow]
  omega

theorem almSend_originates (m : Fin 8) (kind : Byte) (code : BitVec 16) (s : State)
    (hacc : s.accepts m Reg.ALM_SEND (BitVec.ofNat 32 (kind.toNat * 65536 + code.toNat)) = true) (hkind : kind = 3 ∨ kind = 4)
    (hon : s.bit Reg.ALM_CTRL 1 = true) (htype : s.almType ≠ 0) (hrole : s.roleActs = true) :
    Completes (.almSend m kind code) s fun t => t.fld Reg.ALM_SEQ 0 16 = (s.fld Reg.ALM_SEQ 0 16 + 1) % 65536 ∧
      (s.node, (s.fld Reg.ALM_SEQ 0 16 + 1) % 65536, s.frcNow) ∈ t.net.seen ∧ t.bit (cReg pALM OFF_INT_STAT) 2 = true ∧
      SameMem s t := by
  obtain ⟨v, hv⟩ : ∃ v, v = BitVec.ofNat 32 (kind.toNat * 65536 + code.toNat) := ⟨_, rfl⟩
  obtain ⟨u, hu⟩ : ∃ u, u = s.respond m true Reg.ALM_SEND .ok 0 := ⟨_, rfl⟩
  have hfld : fld v 16 8 = kind.toNat := hv ▸ fld_almWord kind code
  have hsend : u.almSend v = u.almOriginate (fld v 16 8) (fld v 0 16) 0 := by
    unfold State.almSend
    extract_lets k
    refine if_pos ⟨?_, by rw [hu]; exact hon⟩
    rw [show k = kind.toNat from hfld]
    rcases hkind with rfl | rfl
    · exact .inl rfl
    · exact .inr rfl
  obtain ⟨hseq, hseen, hbit, hmem⟩ := State.almOriginate_shows (s := u) (by rw [hu]; exact htype) (by rw [hu]; exact hrole)
    (fld v 16 8) (fld v 0 16) 0
  have hexec : exec (.almSend m kind code) s = .next (u.almOriginate (fld v 16 8) (fld v 0 16) 0) := by
    refine congrArg Host.Outcome.next ((State.gateWrite_eq hacc (by decide +kernel) _).trans ?_)
    rw [← hu, ← hv]
    exact hsend
  have hsame : u.fld Reg.ALM_SEQ 0 16 = s.fld Reg.ALM_SEQ 0 16 ∧ u.node = s.node ∧ u.frcNow = s.frcNow ∧ u.mem = s.mem := by
    rw [hu]
    exact ⟨rfl, rfl, rfl, rfl⟩
  obtain ⟨hseq', hnode', hfrc', hmem'⟩ := hsame
  rw [hseq', hnode', hfrc'] at hseen
  rw [hseq'] at hseq
  exact ⟨_, hexec, hseq, hseen, hbit, sameMem_of_mem (hmem.trans hmem')⟩

/-! ### ALM_IN_CLEAR (R343) -/

/-- The word of ALM_IN_LEVEL in which an input of word `w` stands. -/
theorem pageWord_almIn (w : Nat) {i : Nat} (hi : i < 32) : pageWord Reg.ALM_IN_LEVEL (32 * w + i) = Reg.ALM_IN_LEVEL + 4 * w ∧
    (32 * w + i) % 32 = i := by
  unfold pageWord
  exact ⟨by omega, by omega⟩

/-- An input is made inactive. -/
theorem State.almLevel_off (s : State) (w : Nat) {i : Nat} (hi : i < 32) :
    s.almLevel (32 * w + i) false = s.setBit (Reg.ALM_IN_LEVEL + 4 * w) i false := by
  obtain ⟨hword, hbit⟩ := pageWord_almIn w hi
  unfold almLevel
  rw [hword, hbit]
  exact if_neg (by rw [Bool.false_and]; decide)

/-- The inputs of word `w` up to input `n` are cleared where `v` says so. -/
def State.inputsCleared (s : State) (w : Nat) (v : Word) (n : Nat) : State :=
  (List.range n).foldl (fun (s : State) i => if bitOf v i then s.almLevel (32 * w + i) false else s) s

theorem State.inputsCleared_succ (s : State) (w : Nat) (v : Word) (n : Nat) : s.inputsCleared w v (n + 1) =
    if bitOf v n then (s.inputsCleared w v n).almLevel (32 * w + n) false else s.inputsCleared w v n := by
  unfold inputsCleared
  rw [List.range_succ, List.foldl_append]
  rfl

theorem State.inputsCleared_keeps (s : State) (w : Nat) (v : Word) {n : Nat} (hn : n ≤ 32) :
    (s.inputsCleared w v n).mem = s.mem ∧
    (∀ k, k ≠ Reg.ALM_IN_LEVEL + 4 * w → (s.inputsCleared w v n).reg k = s.reg k) ∧
    ∀ i, i < 32 → (s.inputsCleared w v n).bit (Reg.ALM_IN_LEVEL + 4 * w) i =
      (s.bit (Reg.ALM_IN_LEVEL + 4 * w) i && !(bitOf v i && decide (i < n))) := by
  induction n with
  | zero => exact ⟨rfl, fun _ _ => rfl, fun i _ => by simp [inputsCleared]⟩
  | succ n ih =>
    obtain ⟨hmem, hregs, hbits⟩ := ih (by omega)
    rw [inputsCleared_succ]
    split
    · next hv =>
      rw [almLevel_off _ w hn]
      refine ⟨hmem, fun k hk => (reg_setReg_other _ _ hk).trans (hregs k hk), fun i hi => ?_⟩
      rw [bit_setBit _ _ _ _ (by omega)]
      by_cases hin : i = n
      · rw [if_pos ⟨rfl, hin⟩, hin, hv]
        simp
      · have hlt : decide (i < n + 1) = decide (i < n) := decide_eq_decide.2 (by omega)
        rw [if_neg fun h => hin h.2, hbits i hi, hlt]
    · next hv =>
      refine ⟨hmem, hregs, fun i hi => (hbits i hi).trans ?_⟩
      by_cases hin : i = n
      · rw [hin, eq_false_of_ne_true hv]
        rfl
      · have hlt : decide (i < n + 1) = decide (i < n) := decide_eq_decide.2 (by omega)
        rw [hlt]

theorem almInClear_clears (m : Fin 8) (w : Fin 2) (v : Word) (s : State) (hacc : s.accepts m (Reg.ALM_IN_CLEAR + 4 * w) v = true) :
    Completes (.almInClear m w v) s fun t =>
      (∀ i, i < 32 → t.bit (Reg.ALM_IN_LEVEL + 4 * w) i = (s.bit (Reg.ALM_IN_LEVEL + 4 * w) i && !bitOf v i)) ∧ SameMem s t ∧
      SameRegs s t [Reg.ALM_IN_LEVEL + 4 * w] := by
  have hj : ∀ w : Fin 2, journals (Reg.ALM_IN_CLEAR + 4 * w.val) = false := by decide +kernel
  obtain ⟨u, hu⟩ : ∃ u, u = s.respond m true (Reg.ALM_IN_CLEAR + 4 * w) .ok 0 := ⟨_, rfl⟩
  obtain ⟨hregsC, -, -, -⟩ := u.closeIfPast_keeps
  obtain ⟨-, -, hmemC⟩ := u.closeIfPast_frame
  obtain ⟨hmem, hregs, hbits⟩ := u.closeIfPast.inputsCleared_keeps w v (Nat.le_refl 32)
  have hreg (k : Nat) : u.closeIfPast.reg k = s.reg k := by
    rw [State.reg, hregsC, hu]
    rfl
  have hexec : exec (.almInClear m w v) s = .next (u.closeIfPast.inputsCleared w v 32) := by
    refine congrArg Host.Outcome.next ((State.gateWrite_eq (a := Reg.ALM_IN_CLEAR + 4 * w) hacc (hj w) _).trans ?_)
    rw [← hu]
    rfl
  refine ⟨_, hexec, fun i hi => ?_, sameMem_of_mem ?_, fun k hk => ?_⟩
  · rw [hbits i hi, State.bit_of_reg (hreg _), decide_eq_true hi, Bool.and_true]
  · rw [hmem, hmemC, hu]
    rfl
  · rw [hregs k fun h => hk (List.mem_singleton.2 h), hreg]

end Sys2Proof.Machine
end

section
/-! PROOFS. The bytes of a frame and the fields read from them (R318, R346). -/

namespace Sys2Proof.Machine

/-! ### Numbers and bytes -/

theorem length_toBE (k n : Nat) : (toBE k n).length = k := (List.length_reverse ..).trans (length_toLE k n)

theorem beNat_toBE (k n : Nat) : beNat (toBE k n) = n % 256 ^ k := by
  rw [beNat, toBE, List.reverse_reverse, leNat_toLE]

/-- The bytes that stand between others. -/
theorem sliceB_between {a b : List Byte} {o n : Nat} (c : List Byte) (ha : a.length = o) (hb : b.length = n) :
    sliceB (a ++ (b ++ c)) o n = b := by
  unfold sliceB
  rw [List.drop_left' ha, List.take_left' hb]

/-! ### Addresses, tag and what follows -/

/-- An untagged frame, padded: addresses and what follows. -/
theorem padFrame_untagged (da sa : Nat) (rest : List Byte) : ∃ n,
    padFrame (frameBytes da sa none rest) = (toBE 6 da ++ toBE 6 sa) ++ (rest ++ List.replicate n 0) := by
  refine ⟨60 - (frameBytes da sa none rest).length, ?_⟩
  unfold padFrame
  generalize 60 - (frameBytes da sa none rest).length = n
  simp only [frameBytes, List.append_assoc, List.nil_append]

/-- A tagged frame, padded. -/
theorem padFrame_tagged (da sa t : Nat) (rest : List Byte) : ∃ n,
    padFrame (frameBytes da sa (some t) rest) =
      (toBE 6 da ++ toBE 6 sa) ++ (toBE 2 0x8100 ++ (toBE 2 t ++ (rest ++ List.replicate n 0))) := by
  refine ⟨60 - (frameBytes da sa (some t) rest).length, ?_⟩
  unfold padFrame
  generalize 60 - (frameBytes da sa (some t) rest).length = n
  simp only [frameBytes, List.append_assoc]

theorem length_addresses (da sa : Nat) : (toBE 6 da ++ toBE 6 sa).length = 12 := by
  rw [List.length_append, length_toBE, length_toBE]

/-- The word after the addresses tells whether the frame is tagged. -/
theorem etypeAt_of {a w : List Byte} (l : List Byte) (ha : a.length = 12) (hw : w.length = 2) :
    etypeAt (a ++ (w ++ l)) = if beNat w = 0x8100 then 16 else 12 := by
  rw [etypeAt, sliceB_between l ha hw]

/-- What follows the addresses of an untagged frame. -/
theorem drop_etypeAt_untagged {a w : List Byte} (l : List Byte) (ha : a.length = 12) (hw : w.length = 2) (h : beNat w ≠ 0x8100) :
    (a ++ (w ++ l)).drop (etypeAt (a ++ (w ++ l))) = w ++ l := by
  rw [etypeAt_of l ha hw, if_neg h, List.drop_left' ha]

/-- What follows the tag of a tagged one. -/
theorem drop_etypeAt_tagged {a w t : List Byte} (l : List Byte) (ha : a.length = 12) (hw : w.length = 2) (ht : t.length = 2)
    (h : beNat w = 0x8100) : (a ++ (w ++ (t ++ l))).drop (etypeAt (a ++ (w ++ (t ++ l)))) = l := by
  have hlen : (a ++ (w ++ t)).length = 16 := by simp [ha, hw, ht]
  have hassoc : a ++ (w ++ (t ++ l)) = (a ++ (w ++ t)) ++ l := by simp
  rw [etypeAt_of (t ++ l) ha hw, if_pos h, hassoc, List.drop_left' hlen]

/-! ### A management frame (R346) -/

theorem State.mgtType_lt (s : State) : s.mgtType < 65536 := Nat.mod_lt _ (by decide)

theorem beNat_word {n : Nat} (h : n < 65536) : beNat (toBE 2 n) = n := by
  rw [beNat_toBE]
  exact Nat.mod_eq_of_lt h

/-- The payload of an OPEN, up to its key slot, that slot, and the rest. -/
theorem mgtBody_open (target key nonce : Nat) : ∃ head tail, head.length = 6 ∧ (head.drop 2).take 2 = [0, 0] ∧
    mgtBody 1 0 target key nonce [] = head ++ (toLE 2 key ++ tail) := by
  refine ⟨toLE 1 1 ++ (toLE 1 1 ++ (toLE 1 0 ++ (toLE 1 0 ++ toLE 2 target))), toLE 8 nonce, ?_, ?_, ?_⟩
  · simp only [List.length_append, length_toLE]
  · have hcode : toLE 1 1 = [1#8] ∧ toLE 1 0 = [0#8] := by decide
    rw [hcode.1, hcode.2]
    rfl
  · simp [mgtBody]

/-- The key slot of an OPEN that the agent takes is the one its sender named. -/
theorem State.key_mgtIn_open (s : State) (port : Nat) (sa : BitVec 48) (tag : Option (BitVec 16)) (target key : BitVec 16)
    (nonce : BitVec 64) (mac : BitVec 256)
    (htype : (s.rxOf port (s.mgtData sa tag (mgtBody 1 0 target.toNat key.toNat nonce.toNat []) mac)).etype = s.mgtType) :
    (s.mgtIn port (s.mgtData sa tag (mgtBody 1 0 target.toNat key.toNat nonce.toNat []) mac)).key = key.toNat := by
  obtain ⟨head, tail, hhead, hzero, hbody⟩ := mgtBody_open target.toNat key.toNat nonce.toNat
  have hkey : ∀ l, leAt ((toBE 2 s.mgtType ++ ((head ++ (toLE 2 key.toNat ++ tail)) ++ l)).drop 2) 6 2 = key.toNat := by
    intro l
    rw [List.drop_left' (length_toBE ..), leAt, List.append_assoc, List.append_assoc, sliceB_between _ hhead (length_toLE ..), leNat_toLE]
    exact Nat.mod_eq_of_lt key.isLt
  have hin : ∀ data, (s.mgtIn port data).key = leAt ((data.drop (etypeAt data)).drop 2) 6 2 := fun _ => rfl
  have het : ∀ data, (s.rxOf port data).etype = beNat ((data.drop (etypeAt data)).take 2) := fun _ => rfl
  rw [hin]
  rw [het] at htype
  unfold mgtData at htype ⊢
  rw [hbody] at htype ⊢
  have hsplit : ∀ n, toBE 2 s.mgtType ++ (head ++ (toLE 2 key.toNat ++ tail)) ++ toBE 32 mac.toNat ++ List.replicate n 0 =
      toBE 2 s.mgtType ++ (head ++ (toLE 2 key.toNat ++ tail) ++ (toBE 32 mac.toNat ++ List.replicate n 0)) := fun n => by simp
  cases tag with
  | some t =>
    obtain ⟨n, hpad⟩ := padFrame_tagged s.rmac sa.toNat t.toNat
      (toBE 2 s.mgtType ++ (head ++ (toLE 2 key.toNat ++ tail)) ++ toBE 32 mac.toNat)
    rw [Option.map_some, hpad, hsplit, drop_etypeAt_tagged _ (length_addresses ..) (length_toBE ..) (length_toBE ..) (beNat_word (by decide))]
    exact hkey _
  | none =>
    obtain ⟨n, hpad⟩ := padFrame_untagged s.rmac sa.toNat
      (toBE 2 s.mgtType ++ (head ++ (toLE 2 key.toNat ++ tail)) ++ toBE 32 mac.toNat)
    rw [Option.map_none, hpad, hsplit] at htype ⊢
    generalize toBE 32 mac.toNat ++ List.replicate n 0 = l at htype ⊢
    by_cases hvlan : s.mgtType = 0x8100
    · have hcut : head ++ (toLE 2 key.toNat ++ tail) ++ l = head.take 2 ++ (head.drop 2 ++ ((toLE 2 key.toNat ++ tail) ++ l)) := by
        rw [← List.append_assoc (head.take 2), List.take_append_drop, List.append_assoc]
      have hfirst : (head.take 2).length = 2 := by rw [List.length_take, hhead]; decide
      have hnext : 2 ≤ (head.drop 2).length := by rw [List.length_drop, hhead]; decide
      rw [hcut, hvlan, drop_etypeAt_tagged _ (length_addresses ..) (length_toBE ..) hfirst (beNat_word (by decide)),
        List.take_append_of_le_length hnext, hzero] at htype
      exact absurd htype (by decide)
    · rw [drop_etypeAt_untagged _ (length_addresses ..) (length_toBE ..) (by rwa [beNat_word s.mgtType_lt])]
      exact hkey _

end Sys2Proof.Machine
end

section
/-! PROOFS. The management agent's sessions (R346 to R348). -/

namespace Sys2Proof.Machine

/-! ### Sessions -/

theorem State.session_setSession (s : State) (i : Nat) (x : Session) (j : Nat) :
    (s.setSession i x).session j = if j = i then x else s.session j := by
  split
  · next h => rw [h]; exact Sparse.get_put_same ..
  · next h => exact Sparse.get_put_other _ _ _ h _

theorem State.session_of_sessions {s t : State} (h : t.net.sessions = s.net.sessions) (i : Nat) : t.session i = s.session i := by
  rw [session, session, h]

/-- Work of the agent that leaves its sessions, memory and the pools of the buffers. -/
structure AgentKept (s t : State) : Prop where
  mem : t.mem = s.mem
  sessions : t.net.sessions = s.net.sessions
  pools : ∀ h, (s.buf h).pool < 4 → (t.buf h).pool < 4

theorem AgentKept.refl (s : State) : AgentKept s s := ⟨rfl, rfl, fun _ h => h⟩

theorem AgentKept.trans {s t u : State} (h : AgentKept s t) (h' : AgentKept t u) : AgentKept s u :=
  ⟨h'.mem.trans h.mem, h'.sessions.trans h.sessions, fun k hk => h'.pools k (h.pools k hk)⟩

theorem AgentKept.of_net {s t : State} (hmem : t.mem = s.mem) (hsessions : t.net.sessions = s.net.sessions)
    (hbufs : t.net.bufs = s.net.bufs) : AgentKept s t :=
  ⟨hmem, hsessions, fun k hk => by rwa [State.buf_of_bufs hbufs]⟩

theorem FrameKept.sessions {s t : State} (h : FrameKept s t) : t.net.sessions = s.net.sessions :=
  have hsessions : t.net.others.sessions = s.net.others.sessions := congrArg NetSt.sessions h.kept.others
  hsessions

theorem FrameKept.agentKept {s t : State} (h : FrameKept s t) : AgentKept s t := ⟨h.kept.mem, h.sessions, h.pools⟩

/-! ### Replies (R348) -/

theorem State.frameKept_mgtReply (s : State) (port dst vid : Nat) (pay : List Byte) : FrameKept s (s.mgtReply port dst vid pay) := by
  unfold mgtReply
  extract_lets q rest untag
  split
  · exact s.frameKept_hostRx ..
  · exact s.frameKept_originate ..

theorem State.agentKept_mgtAnswer (s : State) (w : MgtWait) : AgentKept s (s.mgtAnswer w) := by
  unfold mgtAnswer
  extract_lets bad u b
  have hcount : AgentKept s u := .of_net rfl rfl rfl
  exact hcount.trans (u.frameKept_mgtReply ..).agentKept

/-! ### Reads of a request (R348) -/

theorem State.latchHigh_net (s : State) (m a : Nat) : (s.latchHigh m a).net = s.net :=
  List.foldlRecOn (motive := fun t : State => t.net = s.net) _ _ rfl fun _ ht _ _ => ht

theorem State.regRead_net (s : State) (m a : Nat) : (s.regRead m a).net = s.net := by
  have hite {c : Prop} [Decidable c] {t u : State} (h : u.net = t.net) : (if c then u else t).net = t.net := by
    split
    · exact h
    · rfl
  unfold regRead
  split
  · rfl
  · split
    · exact decodeErr_net ..
    · split
      · rfl
      · split
        · exact violate_net ..
        · split
          · exact violate_net ..
          · split
            · exact violate_net ..
            · extract_lets v u u1 u2 u3
              have hanswer : u.net = s.net := s.latchHigh_net m a
              have h1 : u1.net = u.net := hite rfl
              have h2 : u2.net = u1.net := hite rfl
              have h3 : u3.net = u2.net := hite rfl
              have h4 : (if a = Reg.PWR_VIN ∨ a = Reg.PWR_BUS then u3.tick1 else u3).net = u3.net := hite rfl
              exact h4.trans (h3.trans (h2.trans (h1.trans hanswer)))

theorem State.memRead_net (s : State) (m a : Nat) : (s.memRead m a).net = s.net := by
  unfold memRead
  split
  · rfl
  · split
    · exact violate_net ..
    · rfl

theorem State.busRead_net (s : State) (m a : Nat) : (s.busRead m a).net = s.net := by
  unfold busRead
  split
  · exact s.regRead_net m a
  · exact s.memRead_net m a

theorem State.agentKept_busRead (s : State) (m a : Nat) : AgentKept s (s.busRead m a) := by
  obtain ⟨-, -, hmem⟩ := s.busRead_frame m a
  exact .of_net hmem (congrArg NetSt.sessions (s.busRead_net m a)) (congrArg NetSt.bufs (s.busRead_net m a))

/-- A read is no operation that resets the device. -/
theorem State.mgtResets_read (s : State) {o : Nat × Nat} (h : o.1 % 4 = 0) : s.mgtResets o = false := by
  have hne : (o.1 == Reg.GLB_RESET + 1) = false := by
    refine beq_eq_false_iff_ne.2 fun heq => ?_
    rw [heq] at h
    exact absurd h (by decide)
  unfold mgtResets
  extract_lets v
  rw [hne]
  rfl

theorem State.agentKept_mgtOp_read (s : State) {o : Nat × Nat} (h : o.1 % 4 = 0) : AgentKept s (s.mgtOp o).2 := by
  have hread : s.mgtOp o = if (s.busRead 2 (o.1 / 4 * 4)).bus.last.status = .held then (none, s) else
      (some (o.1 / 4 * 4 + (s.busRead 2 (o.1 / 4 * 4)).opStatus, (s.busRead 2 (o.1 / 4 * 4)).bus.last.data.toNat),
        s.busRead 2 (o.1 / 4 * 4)) := by
    unfold mgtOp
    rw [h]
    exact ite_congr rfl (fun _ => rfl) fun _ => rfl
  rw [hread]
  split
  · exact .refl s
  · exact s.agentKept_busRead 2 _

/-- A request waits. -/
theorem State.agentKept_waits (s : State) (l : List MgtWait) : AgentKept s { s with net := { s.net with waits := l } } :=
  .of_net rfl rfl rfl

/-- The operations of a request of reads. -/
theorem State.agentKept_mgtRun (l : List (Nat × Nat)) : ∀ (w : MgtWait) (s : State), (∀ o ∈ l, o.1 % 4 = 0) →
    AgentKept s (State.mgtRun l w s) := by
  induction l with
  | nil => exact fun w s _ => s.agentKept_mgtAnswer w
  | cons o l ih =>
    intro w s hreads
    have hread := hreads o List.mem_cons_self
    have hop := s.agentKept_mgtOp_read hread
    rw [mgtRun, if_neg (by rw [s.mgtResets_read hread]; decide)]
    generalize s.mgtOp o = r at hop
    obtain ⟨res, t⟩ := r
    cases res with
    | some res => exact hop.trans (ih _ t fun o ho => hreads o (List.mem_cons_of_mem _ ho))
    | none => exact hop.trans (t.agentKept_waits _)

theorem State.agentKept_mgtRequest (s : State) (f : MgtFrame) (h : ∀ o ∈ f.ops, o.1 % 4 = 0) : AgentKept s (s.mgtRequest f) := by
  unfold mgtRequest mgtStart
  split
  · exact State.agentKept_mgtRun _ _ s h
  · exact s.agentKept_waits _

/-! ### Closing and opening (R347, R348) -/

theorem State.mgtClose_keeps (s : State) (i : Nat) : (s.mgtClose i).mem = s.mem ∧ (s.mgtClose i).net.bufs = s.net.bufs ∧
    (∀ j, (s.mgtClose i).session j = if j = i then {} else s.session j) ∧
    ∀ j, i < 32 → (s.mgtClose i).bit Reg.MGT_STAT j = if j = i then false else s.bit Reg.MGT_STAT j := by
  obtain ⟨-, -, hmem⟩ := s.mgtClose_frame i
  obtain ⟨u, hu⟩ : ∃ u : State, u = { s with net := { s.net with waits := s.net.waits.filter fun w => w.sess != i } } := ⟨_, rfl⟩
  have heq : s.mgtClose i = (((u.setSession i {}).setBit Reg.MGT_STAT i false).raise pPKT 2).resetMaster 2 := by rw [hu]; rfl
  have hbufs : u.net.bufs = s.net.bufs := by rw [hu]
  have hsess : u.net.sessions = s.net.sessions := by rw [hu]
  have hstat : u.reg Reg.MGT_STAT = s.reg Reg.MGT_STAT := by rw [hu]; rfl
  have hnet : (s.mgtClose i).net = (u.setSession i {}).net := by
    rw [heq]
    exact (resetMaster_net ..).trans (raise_net ..)
  refine ⟨hmem, (congrArg NetSt.bufs hnet).trans hbufs, fun j => ?_, fun j hi => ?_⟩
  · rw [session_of_sessions (congrArg NetSt.sessions hnet), session_setSession, session_of_sessions hsess]
  · rw [heq, bit, reg, resetMaster_regs]
    refine (bit_of_reg (reg_raise _ (by decide)) j).trans ((bit_setBit _ _ _ _ hi).trans ?_)
    by_cases hj : j = i
    · rw [if_pos ⟨rfl, hj⟩, if_pos hj]
    · rw [if_neg fun h => hj h.2, if_neg hj]
      exact bit_of_reg hstat j

/-- A session is the latest used. -/
theorem State.session_mgtUsed (s : State) (i j : Nat) : (s.mgtUsed i).session j =
    if j = i then { s.session i with used := s.net.sessOrder + 1, idleFrom := s.frcNow } else s.session j := by
  unfold mgtUsed
  exact session_setSession ..

theorem State.lt_of_find_range {n i : Nat} {p : Nat → Bool} (hn : 0 < n) (h : ((List.range n).find? p).getD 0 = i) : i < n := by
  cases hfind : (List.range n).find? p with
  | none => rw [hfind] at h; exact h ▸ hn
  | some k =>
    rw [hfind] at h
    exact h ▸ List.mem_range.1 (List.mem_of_find?_eq_some hfind)

theorem State.choose_keeps (s : State) (l : List Nat) : (s.choose l).2.mem = s.mem ∧ (s.choose l).2.net.bufs = s.net.bufs := by
  unfold choose
  split <;> exact ⟨rfl, rfl⟩

/-- The session that an OPEN opens is one of four; nothing but sessions is changed to choose it. -/
theorem State.openSlot_keeps (s : State) : s.openSlot.1 < 4 ∧ s.openSlot.2.mem = s.mem ∧ s.openSlot.2.net.bufs = s.net.bufs := by
  unfold openSlot
  extract_lets free least i
  split
  · obtain ⟨hmem, hbufs, -, -⟩ := s.mgtClose_keeps i
    exact ⟨State.lt_of_find_range (by decide) rfl, hmem, hbufs⟩
  · obtain ⟨hmem, hbufs⟩ := s.choose_keeps free
    exact ⟨s.choose_lt (fun x hx => List.mem_range.1 (List.mem_filter.1 hx).1) (by decide), hmem, hbufs⟩

/-- The session opens. -/
def State.sessionOpened (s : State) (i key : Nat) : State :=
  let u := s.tick1.setSession i { active := true, sn := Config.sessionNonce s.fresh, last := 0, key := key, used := 0, idleFrom := 0 }
  (((u.mgtUsed i).setBit Reg.MGT_STAT i true).raise pPKT 2).count (Reg.MGT_CNT + 28)

theorem State.mgtOpen_eq (s : State) (f : MgtFrame) : ∃ pay, s.mgtOpen f =
    (s.openSlot.2.sessionOpened s.openSlot.1 f.key).mgtReply f.port f.src f.vid pay := by
  unfold mgtOpen
  generalize s.openSlot = r
  exact ⟨_, rfl⟩

theorem State.sessionOpened_shows (s : State) {i : Nat} (key : Nat) (hi : i < 32) :
    ((s.sessionOpened i key).session i).active = true ∧ ((s.sessionOpened i key).session i).key = key ∧
      (s.sessionOpened i key).bit Reg.MGT_STAT i = true ∧ (s.sessionOpened i key).mem = s.mem ∧
      (s.sessionOpened i key).net.bufs = s.net.bufs := by
  unfold sessionOpened
  extract_lets u
  have husession : u.session i = { active := true, sn := Config.sessionNonce s.fresh, last := 0, key := key, used := 0, idleFrom := 0 } :=
    (session_setSession ..).trans (if_pos rfl)
  have hnet : ((((u.mgtUsed i).setBit Reg.MGT_STAT i true).raise pPKT 2).count (Reg.MGT_CNT + 28)).net = (u.mgtUsed i).net := raise_net ..
  have hsession : ((((u.mgtUsed i).setBit Reg.MGT_STAT i true).raise pPKT 2).count (Reg.MGT_CNT + 28)).session i =
      { u.session i with used := u.net.sessOrder + 1, idleFrom := u.frcNow } :=
    (session_of_sessions (congrArg NetSt.sessions hnet) i).trans ((u.session_mgtUsed i i).trans (if_pos rfl))
  refine ⟨?_, ?_, ?_, raise_mem .., (congrArg NetSt.bufs hnet).trans rfl⟩
  · rw [hsession, husession]
  · rw [hsession, husession]
  · refine (bit_of_reg (reg_setReg_other _ _ (by decide)) i).trans ((bit_of_reg (reg_raise _ (by decide)) i).trans ?_)
    exact bit_setBit_same _ _ _ hi

end Sys2Proof.Machine
end

section
/-! PROOFS. Frames that the management agent takes (R346 to R348), and all of alarms and management (R342 to R348). -/

namespace Sys2Proof.Machine

/-! ### The checks (R348) -/

/-- A frame passes the agent's checks. -/
structure MgtGood (s : State) (f : MgtFrame) : Prop where
  acts : s.roleActs = true
  on : s.bit Reg.MGT_CTRL 0 = true
  here : f.target = s.fld Reg.NTU_NODE 0 14
  formed : f.malformed = false
  auth : s.mgtAuth f = true
  fresh : f.op = 1 ∨ (s.session f.sess).last ≤ f.nonce

/-- A frame that the agent takes is of the agent's type, for this node's address, and passes its checks. -/
theorem State.mgtTakes_iff (s : State) (port : Nat) (data : List Byte) : s.mgtTakes port data = true ↔
    ((s.rxOf port data).etype = s.mgtType ∧ s.mgtType ≠ 0 ∧ (s.rxOf port data).da = s.rmac ∧
      ¬ ((s.rxOf port data).etype = s.almType ∧ s.almType ≠ 0)) ∧ MgtGood s (s.mgtIn port data) := by
  unfold mgtTakes
  simp only [Bool.and_eq_true, Bool.or_eq_true, beq_iff_eq, bne_iff_ne, Bool.not_eq_true', decide_eq_true_eq]
  constructor
  · rintro ⟨⟨⟨⟨⟨⟨⟨⟨⟨htype, hon⟩, hda⟩, halm⟩, hacts⟩, hen⟩, hhere⟩, hformed⟩, hauth⟩, hfresh⟩
    exact ⟨⟨htype, hon, hda, by omega⟩, hacts, hen, hhere, hformed, hauth, hfresh⟩
  · rintro ⟨⟨htype, hon, hda, halm⟩, hacts, hen, hhere, hformed, hauth, hfresh⟩
    exact ⟨⟨⟨⟨⟨⟨⟨⟨⟨htype, hon⟩, hda⟩, by omega⟩, hacts⟩, hen⟩, hhere⟩, hformed⟩, hauth⟩, hfresh⟩

theorem FrameKept.mgtAuth {s u : State} (h : FrameKept s u) (f : MgtFrame) : u.mgtAuth f = s.mgtAuth f := by
  have hothers := h.kept.others
  have hkey0 : u.net.others.key0 = s.net.others.key0 := congrArg NetSt.key0 hothers
  have hkey1 : u.net.others.key1 = s.net.others.key1 := congrArg NetSt.key1 hothers
  have hkey (n : Nat) : u.mgtKey n = s.mgtKey n := by
    unfold State.mgtKey
    exact ite_congr rfl (fun _ => hkey0) fun _ => hkey1
  have hctrl : u.fld Reg.MGT_CTRL 1 1 = s.fld Reg.MGT_CTRL 1 1 := State.fld_of_reg (h.reg (.inr (.inr (.inl (by decide))))) 1 1
  unfold State.mgtAuth State.mgtKeyOk
  rw [hkey, hctrl, State.session_of_sessions h.sessions]

theorem MgtGood.of_frameKept {s u : State} {f : MgtFrame} (hgood : MgtGood s f) (h : FrameKept s u) : MgtGood u f := by
  obtain ⟨hacts, hon, hhere, hformed, hauth, hfresh⟩ := hgood
  refine ⟨h.roleActs.trans hacts, ?_, hhere.trans ?_, hformed, (h.mgtAuth f).trans hauth, ?_⟩
  · exact (State.bit_of_reg (h.reg (.inr (.inr (.inl (by decide))))) 0).trans hon
  · exact (State.fld_of_reg (h.reg (.inl (by decide))) 0 14).symm
  · rwa [State.session_of_sessions h.sessions]

/-- A frame other than OPEN, in its session. -/
def State.mgtServed (s : State) (f : MgtFrame) : State :=
  ((s.count Reg.MGT_CNT).setSession f.sess { (s.count Reg.MGT_CNT).session f.sess with last := f.nonce + 1 }).mgtUsed f.sess

/-- What the agent does with a frame that passes its checks. -/
theorem State.mgtFrame_good {s : State} {f : MgtFrame} (h : MgtGood s f) : s.mgtFrame f =
    if f.op = 1 then (s.count Reg.MGT_CNT).mgtOpen f
    else if f.op = 3 then (s.mgtServed f).mgtRequest f else (s.mgtServed f).mgtCloseFrame f := by
  obtain ⟨hacts, hon, hhere, hformed, hauth, hfresh⟩ := h
  unfold mgtFrame
  extract_lets c u v
  rw [if_neg (by rw [hacts, hon]; decide), if_neg fun h => h.2 hhere, if_neg (by rw [hformed]; decide),
    if_neg (by rw [hauth]; decide), if_neg (by omega)]
  rfl

theorem MgtFrame.sess_of_formed {f : MgtFrame} (h : f.malformed = false) : f.sess < 4 := by
  unfold MgtFrame.malformed at h
  simp only [Bool.or_eq_false_iff, decide_eq_false_iff_not] at h
  omega

/-- A frame other than OPEN comes in an open session. -/
theorem MgtGood.active {s : State} {f : MgtFrame} (h : MgtGood s f) (hop : f.op ≠ 1) : (s.session f.sess).active = true := by
  have hauth := h.auth
  unfold State.mgtAuth at hauth
  simp only [Bool.and_eq_true, Bool.or_eq_true, beq_iff_eq] at hauth
  exact hauth.1.2.resolve_left hop

theorem State.mgtServed_shows (s : State) (f : MgtFrame) : ((s.mgtServed f).session f.sess).last = f.nonce + 1 ∧
    ((s.mgtServed f).session f.sess).active = (s.session f.sess).active ∧ (s.mgtServed f).mem = s.mem ∧
    (s.mgtServed f).net.bufs = s.net.bufs := by
  have hserved : (s.mgtServed f).session f.sess = { { (s.count Reg.MGT_CNT).session f.sess with last := f.nonce + 1 } with
      used := s.net.sessOrder + 1, idleFrom := s.frcNow } := by
    unfold mgtServed
    rw [session_mgtUsed, if_pos rfl, session_setSession, if_pos rfl]
    rfl
  rw [hserved]
  exact ⟨rfl, rfl, rfl, rfl⟩

/-! ### A management frame arrives -/

/-- A frame that the agent takes comes to it, and then its buffers are freed. -/
theorem State.mgtComes {s : State} {port : Nat} {data : List Byte} (hdiv : s.diverts port data Reg.POL_ADMIT_MGT)
    (htakes : s.mgtTakes port data = true) (ago : Nat) : ∃ u ch, s.rxFrame port true ago data [] =
      (u.mgtFrame (s.mgtIn port data)).freeChain ch ∧ FrameIn s u data ch ∧ MgtGood u (s.mgtIn port data) := by
  obtain ⟨⟨htype, hon, hda, halm⟩, hgood⟩ := (s.mgtTakes_iff port data).1 htakes
  obtain ⟨u, ch, stamp, heq, hin⟩ := State.rxFrame_received hdiv.1 ago (s.wins_alone port)
  obtain ⟨-, -, -, -, -, -, -, -, -, hvid, hmember⟩ := hdiv.1
  have hkept := hin.kept
  refine ⟨u, ch, heq.trans ?_, hin, hgood.of_frameKept hkept⟩
  rw [State.rxSteps_mgt (x := (s.rxOf port data).taken (some stamp) ch) hvid ((hkept.member _ _).trans hmember)
    (by rw [hkept.almType]; exact halm) (by rw [hkept.mgtType]; exact htype) (by rw [hkept.mgtType]; exact hon)
    (by rw [hkept.rmac]; exact hda), hin.diverts hdiv (by decide) (some stamp)]
  rfl

/-- The cycle of a frame's arrival is nothing that the agent reads. -/
theorem State.mgtTakes_atCycle (s : State) (cycle port : Nat) (data : List Byte) :
    (s.atCycle cycle).mgtTakes port data = s.mgtTakes port data := rfl

/-! ### OPEN, REQUEST and CLOSE (R348) -/

theorem openSession_opens (port : Fin 66) (sa : BitVec 48) (tag : Option (BitVec 16)) (ago : Nat) (target key : BitVec 16)
    (nonce : BitVec 64) (mac : BitVec 256) (cycle : Nat) (s : State) :
    let data := s.mgtData sa tag (mgtBody 1 0 target.toNat key.toNat nonce.toNat []) mac
    (s.atCycle cycle).diverts port data Reg.POL_ADMIT_MGT → s.mgtTakes port data = true →
    (s.mgtIn port data).op = 1 →
    Completes (.openSession port sa tag ago target key nonce mac cycle) s fun t =>
      (∃ i, i < 4 ∧ (t.session i).active = true ∧ (t.session i).key = key.toNat ∧ t.bit Reg.MGT_STAT i = true) ∧ SameMem s t := by
  intro data hdiv htakes hop
  obtain ⟨⟨htype, -⟩, -⟩ := (s.mgtTakes_iff port data).1 htakes
  have hkey : (s.mgtIn port data).key = key.toNat := s.key_mgtIn_open port sa tag target key nonce mac htype
  rw [← s.mgtTakes_atCycle cycle] at htakes
  obtain ⟨u, ch, heq, hin, hgood⟩ := State.mgtComes hdiv htakes ago
  obtain ⟨f, hf⟩ : ∃ f, f = s.mgtIn port data := ⟨_, rfl⟩
  have hsame : (s.atCycle cycle).mgtIn port data = f := hf ▸ rfl
  rw [← hf] at hop hkey
  rw [hsame] at heq hgood
  obtain ⟨pay, hopen⟩ := (u.count Reg.MGT_CNT).mgtOpen_eq f
  obtain ⟨hslot, hmemS, hbufsS⟩ := (u.count Reg.MGT_CNT).openSlot_keeps
  generalize (u.count Reg.MGT_CNT).openSlot = r at hopen hslot hmemS hbufsS
  obtain ⟨i, v⟩ := r
  obtain ⟨hactive, hkey', hstat, hmemO, hbufsO⟩ := v.sessionOpened_shows f.key (show i < 32 from Nat.lt_trans hslot (by decide))
  have hreply := (v.sessionOpened i f.key).frameKept_mgtReply f.port f.src f.vid pay
  generalize v.sessionOpened i f.key = o at hopen hactive hkey' hstat hmemO hbufsO hreply
  have hpools : ∀ h ∈ ch, (o.buf h).pool < 4 := fun h hmem => by
    rw [State.buf_of_bufs (hbufsO.trans hbufsS)]
    exact hin.pools h hmem
  have hall : FrameKept o ((o.mgtReply f.port f.src f.vid pay).freeChain ch) :=
    hreply.trans (State.frameKept_freeChain _ ch fun h hmem => hreply.pools h (hpools h hmem))
  have hexec : exec (.openSession port sa tag ago target key nonce mac cycle) s = .next ((o.mgtReply f.port f.src f.vid pay).freeChain ch) := by
    refine congrArg Host.Outcome.next (heq.trans ?_)
    rw [State.mgtFrame_good hgood, if_pos hop, hopen]
  refine ⟨_, hexec, ⟨i, hslot, ?_, ?_, ?_⟩, sameMem_of_mem (hall.kept.mem.trans (hmemO.trans (hmemS.trans hin.kept.kept.mem)))⟩
  · rw [State.session_of_sessions hall.sessions]
    exact hactive
  · rw [State.session_of_sessions hall.sessions, ← hkey]
    exact hkey'
  · exact (State.bit_of_reg (hall.reg (.inr (.inr (.inl (by decide))))) i).trans hstat

theorem request_serves (port : Fin 66) (sa : BitVec 48) (tag : Option (BitVec 16)) (ago : Nat) (sess : Byte) (target key : BitVec 16)
    (seq : BitVec 32) (ops : List (Word × Word)) (mac : BitVec 256) (cycle : Nat) (s : State) :
    let data := s.mgtData sa tag (mgtBody 3 sess.toNat target.toNat key.toNat seq.toNat (ops.map fun o => (o.1.toNat, o.2.toNat))) mac
    (s.atCycle cycle).diverts port data Reg.POL_ADMIT_MGT → s.mgtTakes port data = true →
    (s.mgtIn port data).op = 3 → (s.mgtIn port data).sess = sess.toNat → (s.mgtIn port data).nonce = seq.toNat →
    (s.mgtIn port data).ops.all (fun o => o.1 % 4 == 0) = true →
    Completes (.request port sa tag ago sess target key seq ops mac cycle) s fun t =>
      (t.session sess.toNat).last = seq.toNat + 1 ∧ (t.session sess.toNat).active = true ∧ SameMem s t := by
  intro data hdiv htakes hop hsess hnonce hreads
  rw [← s.mgtTakes_atCycle cycle] at htakes
  obtain ⟨u, ch, heq, hin, hgood⟩ := State.mgtComes hdiv htakes ago
  obtain ⟨f, hf⟩ : ∃ f, f = s.mgtIn port data := ⟨_, rfl⟩
  have hsame : (s.atCycle cycle).mgtIn port data = f := hf ▸ rfl
  rw [← hf] at hop hsess hnonce hreads
  rw [hsame] at heq hgood
  obtain ⟨hlast, hactive, hmemS, hbufsS⟩ := u.mgtServed_shows f
  have hnot : f.op ≠ 1 := by rw [hop]; decide
  have hrun := (u.mgtServed f).agentKept_mgtRequest f fun o ho => by simpa using List.all_eq_true.1 hreads o ho
  have hfree := State.frameKept_freeChain ((u.mgtServed f).mgtRequest f) ch fun h hmem => hrun.pools h (by
    rw [State.buf_of_bufs hbufsS]
    exact hin.pools h hmem)
  have hall := hrun.trans hfree.agentKept
  have hexec : exec (.request port sa tag ago sess target key seq ops mac cycle) s = .next (((u.mgtServed f).mgtRequest f).freeChain ch) := by
    refine congrArg Host.Outcome.next (heq.trans ?_)
    rw [State.mgtFrame_good hgood, if_neg hnot, if_pos hop]
  refine ⟨_, hexec, ?_, ?_, sameMem_of_mem (hall.mem.trans (hmemS.trans hin.kept.kept.mem))⟩
  · rw [State.session_of_sessions hall.sessions, ← hsess, ← hnonce]
    exact hlast
  · rw [State.session_of_sessions hall.sessions, ← hsess]
    exact hactive.trans (hgood.active hnot)

theorem State.mgtCloseFrame_eq (s : State) (f : MgtFrame) : ∃ pay, s.mgtCloseFrame f = (s.mgtClose f.sess).mgtReply f.port f.src f.vid pay :=
  ⟨_, rfl⟩

theorem closeSession_closes (port : Fin 66) (sa : BitVec 48) (tag : Option (BitVec 16)) (ago : Nat) (sess : Byte) (target key : BitVec 16)
    (seq : BitVec 32) (mac : BitVec 256) (cycle : Nat) (s : State) :
    let data := s.mgtData sa tag (mgtBody 5 sess.toNat target.toNat key.toNat seq.toNat []) mac
    (s.atCycle cycle).diverts port data Reg.POL_ADMIT_MGT → s.mgtTakes port data = true →
    (s.mgtIn port data).op = 5 → (s.mgtIn port data).sess = sess.toNat →
    Completes (.closeSession port sa tag ago sess target key seq mac cycle) s fun t =>
      (t.session sess.toNat).active = false ∧ t.bit Reg.MGT_STAT sess.toNat = false ∧ SameMem s t := by
  intro data hdiv htakes hop hsess
  rw [← s.mgtTakes_atCycle cycle] at htakes
  obtain ⟨u, ch, heq, hin, hgood⟩ := State.mgtComes hdiv htakes ago
  obtain ⟨f, hf⟩ : ∃ f, f = s.mgtIn port data := ⟨_, rfl⟩
  have hsame : (s.atCycle cycle).mgtIn port data = f := hf ▸ rfl
  rw [← hf] at hop hsess
  rw [hsame] at heq hgood
  have hlt := MgtFrame.sess_of_formed hgood.formed
  obtain ⟨-, -, hmemS, hbufsS⟩ := u.mgtServed_shows f
  obtain ⟨hmemC, hbufsC, hsessC, hstatC⟩ := (u.mgtServed f).mgtClose_keeps f.sess
  obtain ⟨pay, hclose⟩ := (u.mgtServed f).mgtCloseFrame_eq f
  have hreply := ((u.mgtServed f).mgtClose f.sess).frameKept_mgtReply f.port f.src f.vid pay
  generalize (u.mgtServed f).mgtClose f.sess = o at hmemC hbufsC hsessC hstatC hclose hreply
  have hall : FrameKept o ((o.mgtReply f.port f.src f.vid pay).freeChain ch) :=
    hreply.trans (State.frameKept_freeChain _ ch fun h hmem => hreply.pools h (by
      rw [State.buf_of_bufs (hbufsC.trans hbufsS)]
      exact hin.pools h hmem))
  have hexec : exec (.closeSession port sa tag ago sess target key seq mac cycle) s =
      .next ((o.mgtReply f.port f.src f.vid pay).freeChain ch) := by
    refine congrArg Host.Outcome.next (heq.trans ?_)
    rw [State.mgtFrame_good hgood, if_neg (by rw [hop]; decide), if_neg (by rw [hop]; decide), hclose]
  refine ⟨_, hexec, ?_, ?_, sameMem_of_mem (hall.kept.mem.trans (hmemC.trans (hmemS.trans hin.kept.kept.mem)))⟩
  · rw [State.session_of_sessions hall.sessions, ← hsess, hsessC, if_pos rfl]
  · rw [← hsess, State.bit_of_reg (hall.reg (.inr (.inr (.inl (by decide))))), hstatC _ (by omega), if_pos rfl]

/-! ### MGT_IDLE_EXPIRY (R348) -/

/-- Session `i` has been idle for the time of MGT_IDLE. -/
def State.idleOver (s : State) (ms i : Nat) : Prop :=
  (s.session i).active ∧ (s.frcNow - (s.session i).idleFrom).toNat ≥ ms * 1000000 * 65536

/-- The sessions below `n` that have been idle too long are closed. -/
def State.idleClosed (s : State) (ms n : Nat) : State :=
  (List.range n).foldl (fun (s : State) i =>
    let x := s.session i
    if x.active ∧ (s.frcNow - x.idleFrom).toNat ≥ ms * 1000000 * 65536 then s.mgtClose i else s) s

theorem State.idleClosed_succ (s : State) (ms n : Nat) : s.idleClosed ms (n + 1) =
    if ((s.idleClosed ms n).session n).active ∧
      ((s.idleClosed ms n).frcNow - ((s.idleClosed ms n).session n).idleFrom).toNat ≥ ms * 1000000 * 65536
    then (s.idleClosed ms n).mgtClose n else s.idleClosed ms n := by
  unfold idleClosed
  rw [List.range_succ, List.foldl_append]
  rfl

theorem State.mgtClose_ntu (s : State) (i : Nat) : (s.mgtClose i).ntu = s.ntu := raise_ntu ..

/-- The sessions that are not yet judged stand as they did, and those judged idle are closed. -/
theorem State.idleClosed_closes (s : State) (ms : Nat) {n : Nat} (hn : n ≤ 32) : (s.idleClosed ms n).ntu = s.ntu ∧
    (∀ i, n ≤ i → (s.idleClosed ms n).session i = s.session i) ∧
    ∀ i, i < n → s.idleOver ms i → ((s.idleClosed ms n).session i).active = false ∧ (s.idleClosed ms n).bit Reg.MGT_STAT i = false := by
  induction n with
  | zero => exact ⟨rfl, fun _ _ => rfl, fun i hi => absurd hi (Nat.not_lt_zero i)⟩
  | succ n ih =>
    obtain ⟨hntu, hlater, hclosed⟩ := ih (by omega)
    have hfrc : (s.idleClosed ms n).frcNow = s.frcNow := by rw [frcNow, hntu, frcNow]
    obtain ⟨-, -, hsession, hstat⟩ := (s.idleClosed ms n).mgtClose_keeps n
    rw [idleClosed_succ]
    split
    · next hidle =>
      refine ⟨(mgtClose_ntu ..).trans hntu, fun i hi => ?_, fun i hi hover => ?_⟩
      · rw [hsession, if_neg (by omega)]
        exact hlater i (by omega)
      · rw [hsession, hstat i (by omega)]
        by_cases hin : i = n
        · rw [if_pos hin, if_pos hin]
          exact ⟨rfl, rfl⟩
        · rw [if_neg hin, if_neg hin]
          exact hclosed i (by omega) hover
    · next hidle =>
      refine ⟨hntu, fun i hi => hlater i (by omega), fun i hi hover => ?_⟩
      by_cases hin : i = n
      · rw [hlater n (Nat.le_refl n), hfrc] at hidle
        exact absurd (hin ▸ hover) hidle
      · exact hclosed i (by omega) hover

theorem mgtIdleExpiry_closes (cycle : Nat) (s : State) : Completes (.mgtIdleExpiry cycle) s fun t =>
    (∀ i, i < 4 → (s.session i).active = true →
      max 1 (s.fld Reg.MGT_IDLE 0 16) * 1000000 * 65536 ≤ ((s.atCycle cycle).frcNow - (s.session i).idleFrom).toNat →
      (t.session i).active = false ∧ t.bit Reg.MGT_STAT i = false) ∧ SameMem s t := by
  obtain ⟨-, -, hclosed⟩ := (s.atCycle cycle).idleClosed_closes (max 1 (s.fld Reg.MGT_IDLE 0 16)) (n := 4) (by decide)
  obtain ⟨-, -, hmem⟩ := (s.atCycle cycle).mgtIdle_frame
  exact ⟨_, rfl, fun i hi hactive hover => hclosed i hi ⟨hactive, hover⟩, sameMem_of_mem hmem⟩

/-- Settles O51, each command by its own lemma. -/
theorem alarmAndManagementCommandsComplete : Obligations.AlarmAndManagementCommandsComplete := by
  unfold Obligations.AlarmAndManagementCommandsComplete
  exact ⟨alarmFrame_comes, alarmCacheExpiry_expires, almSend_originates, almInClear_clears, openSession_opens, request_serves,
    closeSession_closes, mgtIdleExpiry_closes⟩

end Sys2Proof.Machine
end

section
/-! PROOFS. A received frame is queued on the one port it is forwarded to (R318, R323, R385). -/

namespace Sys2Proof.Machine

/-! ### Bytes and numbers of a header -/

theorem toLE_leNat (l : List Byte) : toLE l.length (leNat l) = l := by
  induction l with
  | nil => rfl
  | cons b l ih =>
    have hb := b.isLt
    have hrest : (List.range l.length).map (fun i => BitVec.ofNat 8 (leNat (b :: l) / 256 ^ (i + 1))) = toLE l.length (leNat l) := by
      refine List.map_congr_left fun i _ => ?_
      rw [leNat, Nat.pow_succ, Nat.mul_comm (256 ^ i), ← Nat.div_div_eq_div_mul, Nat.add_mul_div_left _ _ (by decide),
        Nat.div_eq_of_lt hb, Nat.zero_add]
    have hfirst : BitVec.ofNat 8 (leNat (b :: l) / 256 ^ 0) = b := by
      refine BitVec.eq_of_toNat_eq ?_
      rw [BitVec.toNat_ofNat, Nat.pow_zero, Nat.div_one, leNat]
      omega
    rw [List.length_cons, toLE, List.range_succ_eq_map, List.map_cons, List.map_map, hfirst]
    exact congrArg (b :: ·) (hrest.trans ih)

theorem toBE_beNat {l : List Byte} {k : Nat} (h : l.length = k) : toBE k (beNat l) = l := by
  rw [toBE, beNat, ← h, ← List.length_reverse, toLE_leNat, List.reverse_reverse]

/-- The addresses of a frame as they are read and written again. -/
theorem addresses_again {data : List Byte} (h : 12 ≤ data.length) :
    toBE 6 (beNat (data.take 6)) ++ toBE 6 (beNat (sliceB data 6 6)) = data.take 12 := by
  have hda : (data.take 6).length = 6 := by
    rw [List.length_take]
    omega
  have hsa : (sliceB data 6 6).length = 6 := by
    rw [sliceB, List.length_take, List.length_drop]
    omega
  rw [toBE_beNat hda, toBE_beNat hsa, sliceB]
  exact (List.take_add (i := 6) (j := 6)).symm

/-! ### Steps 5 to 8 for a frame to a group (R318, R323) -/

theorem State.sourceLookup_off {s : State} (h : s.bit Reg.FWD_CTRL 0 = false) (port mac vid : Nat) : s.sourceLookup port mac vid = s := by
  unfold sourceLookup
  extract_lets en
  exact if_pos (by rw [show en = false from by rw [show en = (s.bit Reg.FWD_CTRL 0 && _) from rfl, h, Bool.false_and]]; decide)

/-- A frame to a group address that is neither for the node nor copied is flooded. -/
theorem State.forward_group {s : State} {x : Rx} (hrmac : x.da ≠ s.rmac) (hgroup : x.da / 2 ^ 40 % 2 = 1)
    (hmc6 : x.da / 2 ^ 32 ≠ 0x3333 ∨ s.bit Reg.FWD_CTRL 2 = false) (fix : PtpFix) :
    s.forward x fix = s.decision.deliver x fix (s.decision.floodPorts x) x.vid none := by
  have hnode (c : Prop) : ¬ (x.da = s.decision.rmac ∧ c) := fun h => hrmac h.1
  have hcopy : ¬ (x.da / 2 ^ 32 = 0x3333 ∧ s.decision.bit Reg.FWD_CTRL 2 = true) := by
    rintro ⟨hda, hbit⟩
    rcases hmc6 with h | h
    · exact h hda
    · exact absurd (hbit.symm.trans h) (by decide)
  unfold forward
  extract_lets u
  rw [if_neg (hnode _), if_neg (hnode _)]
  unfold bridge
  rw [if_neg hcopy]
  exact if_pos hgroup

/-- A frame as it is queued on its one port. -/
def State.rxQueued (s : State) (x : Rx) (fix : PtpFix) (d : Nat) : QFrame :=
  { chain := x.chain, len := x.data.length, ofs := etypeAt x.data
    tag := some (if s.untags d x.vid then [] else toBE 2 0x8100 ++ toBE 2 (x.vid + 8192 * x.cls)), ptp := fix.shift (s.untags d x.vid) }

theorem State.queueOn_one {s : State} (hrole : s.roleActs = true) (q d : Nat) (f : QFrame) :
    s.queueOn q f.chain [(d, f)] = (s.setOwner f.chain d).joinQ d q f := by
  unfold queueOn
  rw [if_neg (by rw [hrole]; exact fun h => h.elim (by decide) fun h => nomatch h)]
  rfl

theorem State.deliver_one {s : State} (hrole : s.roleActs = true) {d : Nat} (hd : d < 66) (x : Rx) (fix : PtpFix) :
    s.deliver x fix [d] x.vid none = (s.setOwner x.chain d).joinQ d x.cls (s.rxQueued x fix d) := by
  have hhost : ¬ ([d].contains 66 = true) := by
    rw [List.contains_iff_mem, List.mem_singleton]
    omega
  have hports : [d].filter (· < 66) = [d] := by simp [hd]
  unfold deliver
  rw [if_neg hhost, hports]
  exact s.queueOn_one hrole x.cls d (s.rxQueued x fix d)

/-! ### The bytes with which it leaves (R323) -/

theorem State.bufBytes_setOwner (s : State) (chain : List Nat) (n k : Nat) : (s.setOwner chain n).bufBytes k = s.bufBytes k := by
  refine List.foldlRecOn (motive := fun t : State => t.bufBytes k = s.bufBytes k) _ _ rfl fun t ht h _ => ?_
  refine Eq.trans ?_ ht
  by_cases hk : k = h
  · rw [hk]
    exact bufBytes_of_data (by rw [buf_setBuf_same])
  · exact bufBytes_of_data (by rw [buf_setBuf_other _ _ hk])

theorem State.stored_queued (s : State) (d q : Nat) (f : QFrame) (chain : List Nat) :
    ((s.setOwner chain d).joinQ d q f).stored f = s.stored f := by
  have hbytes : ((s.setOwner chain d).joinQ d q f).bufBytes = s.bufBytes := funext (s.bufBytes_setOwner chain d)
  unfold stored
  rw [hbytes]

theorem State.leaving_rxQueued (t s : State) (x : Rx) (fix : PtpFix) (d : Nat) (hstored : t.stored (s.rxQueued x fix d) = x.data)
    (hlen : 60 ≤ x.data.length) : t.leaving (s.rxQueued x fix d) =
      padFrame (frameBytes x.da x.sa (if s.untags d x.vid then none else some (x.vid + 8192 * x.cls)) x.rest) := by
  have haddr : toBE 6 x.da ++ toBE 6 x.sa = x.data.take 12 := addresses_again (by omega)
  unfold leaving
  rw [hstored]
  unfold padFrame frameBytes rxQueued
  cases s.untags d x.vid with
  | true => simp [haddr, Rx.rest]
  | false => simp [haddr, Rx.rest]

/-! ### What the engine reads of a received frame -/

theorem FrameKept.floodPorts {s u : State} (h : FrameKept s u) {x y : Rx} (hvid : y.vid = x.vid) (hport : y.port = x.port) :
    u.floodPorts y = s.floodPorts x := by
  unfold State.floodPorts
  refine List.filter_congr fun n _ => ?_
  rw [h.member, hvid, hport]
  by_cases hn : n < 66
  · have hstat : u.portRetired n = s.portRetired n := h.kept.stat n 4 hn (by decide) (by decide)
    rw [hstat]
  · rw [decide_eq_false hn, Bool.false_and, Bool.false_and]

theorem FrameKept.untags {s u : State} (h : FrameKept s u) {n : Nat} (hn : n < 66) (vid : Nat) : u.untags n vid = s.untags n vid := by
  have hvlan : u.reg (atInst Reg.PORT_VLAN n) = s.reg (atInst Reg.PORT_VLAN n) := h.portReg hn (by decide)
  rw [State.untags, State.bit_of_reg hvlan, State.fld_of_reg hvlan, State.untags]

/-- A decision is noted, and changes nothing that the queueing of a frame reads. -/
theorem State.decision_keeps (s : State) : s.decision.mem = s.mem ∧ s.decision.regs = s.regs ∧ s.decision.net.qs = s.net.qs ∧
    s.decision.net.bufs = s.net.bufs ∧ s.decision.roleActs = s.roleActs ∧ (∀ x, s.decision.floodPorts x = s.floodPorts x) ∧
    ∀ n vid, s.decision.untags n vid = s.untags n vid :=
  ⟨rfl, rfl, rfl, rfl, rfl, fun _ => rfl, fun _ _ => rfl⟩

/-- A frame whose buffers hold its bytes is queued on its one port. -/
theorem State.deliver_queues {s : State} (hrole : s.roleActs = true) {x : Rx} {d m : Nat} (hd : d < 66) (hlen : 60 ≤ x.data.length)
    (hholds : Holds s x.data m x.chain) (hm : x.data.length ≤ 256 * m) (fix : PtpFix) :
    Queued s (s.deliver x fix [d] x.vid none) d x.cls fun f =>
      (s.deliver x fix [d] x.vid none).leaving f =
        padFrame (frameBytes x.da x.sa (if s.untags d x.vid then none else some (x.vid + 8192 * x.cls)) x.rest) ∧
      f.ptp = fix.shift (s.untags d x.vid) := by
  have hqs : (s.setOwner x.chain d).net.qs = s.net.qs :=
    List.foldlRecOn (motive := fun t : State => t.net.qs = s.net.qs) _ _ rfl fun _ ht _ _ => ht
  rw [deliver_one hrole hd]
  refine ⟨s.rxQueued x fix d, ?_, ?_, rfl⟩
  · rw [joinQ, netQ_setNetQ, netQ, hqs, netQ]
  · refine State.leaving_rxQueued _ s x fix d ?_ hlen
    rw [stored_queued]
    exact hholds.stored (f := s.rxQueued x fix d) rfl hm

theorem State.deliver_keeps {s : State} (hrole : s.roleActs = true) {d : Nat} (hd : d < 66) (x : Rx) (fix : PtpFix) :
    FrameKept s (s.deliver x fix [d] x.vid none) := by
  rw [deliver_one hrole hd]
  exact (s.frameKept_setOwner x.chain d).trans (frameKept_joinQ _ d _ _)

/-- A forwarded frame, once its buffers are allocated, is queued on its one port. -/
theorem FrameIn.rxOn {s u : State} {port : Nat} {data : List Byte} {ch : List Nat} {d : Nat} (h : FrameIn s u data ch)
    (hfwd : s.forwards port data d) (stamp : Option (BitVec 96)) (fix : PtpFix) :
    ∃ t, u.rxOn ((s.rxOf port data).taken stamp ch) fix = t ∧ t.mem = s.mem ∧ (∀ k, farKey k → t.reg k = s.reg k) ∧
      Queued s t d (s.rxOf port data).cls fun f =>
        t.leaving f = s.goesOut port data d ∧ f.ptp = fix.shift (s.untags d (s.rxOf port data).vid) := by
  obtain ⟨hrecv, -, -, hopen, hlearn, hrole, hrmac, hgroup, hmc6, hflood, hd⟩ := hfwd
  obtain ⟨-, -, -, hlo, hhi, -⟩ := hrecv
  have hkept := h.kept
  have hctrl : u.reg Reg.FWD_CTRL = s.reg Reg.FWD_CTRL := hkept.reg (.inr (.inr (.inl (by decide))))
  obtain ⟨hmemD, hregsD, hqsD, hbufsD, hroleD, hfloodD, huntagD⟩ := u.decision_keeps
  have hsteps : u.rxOn ((s.rxOf port data).taken stamp ch) fix =
      u.decision.deliver ((s.rxOf port data).taken stamp ch) fix [d] (s.rxOf port data).vid none := by
    have hbucket : u.bucketOpen ((s.rxOf port data).taken stamp ch).port ((s.rxOf port data).taken stamp ch).cls := hkept.bucketOpen hopen
    unfold State.rxOn
    rw [State.policed_open hbucket, State.sourceLookup_off ((State.bit_of_reg hctrl 0).trans hlearn),
      State.forward_group (x := (s.rxOf port data).taken stamp ch) (by rw [hkept.rmac]; exact hrmac) hgroup (hmc6.imp id (State.bit_of_reg hctrl 2).trans), hfloodD,
      hkept.floodPorts (x := s.rxOf port data) (y := (s.rxOf port data).taken stamp ch) rfl rfl, hflood]
    rfl
  have hroleV : u.decision.roleActs = true := hroleD.trans (hkept.roleActs.trans hrole)
  have hqueued := State.deliver_queues (x := (s.rxOf port data).taken stamp ch) hroleV hd hlo (h.holds.of_bufs (State.buf_of_bufs hbufsD))
    (by change data.length ≤ _; omega) fix
  have hkeeps := State.deliver_keeps hroleV hd ((s.rxOf port data).taken stamp ch) fix
  have huntag : u.decision.untags d (s.rxOf port data).vid = s.untags d (s.rxOf port data).vid := (huntagD _ _).trans (hkept.untags hd _)
  have hreg (k : Nat) (hk : farKey k) : u.decision.reg k = s.reg k := by
    rw [State.reg, hregsD]
    exact hkept.reg hk
  refine ⟨_, hsteps, hkeeps.kept.mem.trans (hmemD.trans hkept.kept.mem), fun k hk => (hkeeps.reg hk).trans (hreg k hk), ?_⟩
  obtain ⟨f, hframes, hleaves, hfix⟩ := hqueued
  refine ⟨f, ?_, ?_, ?_⟩
  · refine hframes.trans ?_
    rw [State.netQ, hqsD, h.qs]
    rfl
  · refine hleaves.trans ?_
    rw [State.goesOut, ← huntag]
    rfl
  · rw [hfix, ← huntag]
    rfl

end Sys2Proof.Machine
end

section
/-! PROOFS. Frames that arrive and are forwarded, and PAUSE (R314, R318, R334, R385, R387). -/

namespace Sys2Proof.Machine

/-! ### Frames forwarded (R318, R385) -/

/-- A frame that no unit of the node takes, where the engine's work so far leaves what tells so. -/
theorem FrameKept.noUnit {s u : State} {port : Nat} {data : List Byte} {d : Nat} (h : FrameKept s u) (hfwd : s.forwards port data d)
    (stamp : Option (BitVec 96)) (ch : List Nat) :
    let x := (s.rxOf port data).taken stamp ch
    x.vid ≠ 4095 ∧ u.member x.vid x.port = true ∧ ¬ (x.etype = u.almType ∧ u.almType ≠ 0) ∧
      ¬ (x.etype = u.mgtType ∧ u.mgtType ≠ 0 ∧ x.da = u.rmac) := by
  obtain ⟨⟨-, -, -, -, -, -, -, -, -, hvid, hmember⟩, halm, hmgt, -⟩ := hfwd
  refine ⟨hvid, (h.member _ _).trans hmember, ?_, ?_⟩
  · rw [h.almType]
    exact fun hx => halm.elim (fun h => hx.2 h) fun h => h hx.1
  · rw [h.mgtType, h.rmac]
    exact fun hx => hmgt.elim (fun h => hx.2.1 h) fun h => h.elim (fun h => h hx.1) fun h => h hx.2.2

/-- A frame that is forwarded with the correction `fix`, once its buffers are allocated. -/
theorem State.rxFrame_forwards {s : State} {port : Nat} {data : List Byte} {d : Nat} (hfwd : s.forwards port data d) (ago : Nat)
    {rivals : List Nat} (hwins : s.wins port rivals = true) (fix : Rx → PtpFix)
    (hstep : ∀ u stamp ch, FrameKept s u → u.rxSteps ((s.rxOf port data).taken (some stamp) ch) =
      u.rxOn ((s.rxOf port data).taken (some stamp) ch) (fix ((s.rxOf port data).taken (some stamp) ch))) :
    ∃ t stamp ch untag, s.rxFrame port true ago data rivals = t ∧ t.mem = s.mem ∧ (∀ k, farKey k → t.reg k = s.reg k) ∧
      Queued s t d (s.rxOf port data).cls fun f => t.leaving f = s.goesOut port data d ∧
        f.ptp = (fix ((s.rxOf port data).taken (some stamp) ch)).shift untag := by
  obtain ⟨u, ch, stamp, heq, hin⟩ := State.rxFrame_received hfwd.1 ago hwins
  obtain ⟨t, hon, hmem, hregs, hqueued⟩ := hin.rxOn hfwd (some stamp) (fix ((s.rxOf port data).taken (some stamp) ch))
  exact ⟨t, stamp, ch, _, heq.trans ((hstep u stamp ch hin.kept).trans hon), hmem, hregs, hqueued⟩

theorem State.tcMode_of_far {s t : State} (h : ∀ k, farKey k → t.reg k = s.reg k) : t.tcMode = s.tcMode := by
  unfold tcMode
  rw [fld_of_reg (h Reg.NTU_TC_CFG (.inl (by decide)))]

theorem State.ptpKind_shift (s : State) (f : PtpFix) (untag : Bool) : s.ptpKind (f.shift untag) = s.ptpKind f := rfl

/-- A frame that carries no PTP message takes no correction. -/
theorem State.ptpKind_none (s : State) : s.ptpKind {} = 0 := by
  unfold ptpKind
  rw [if_neg (by decide)]
  split
  · rfl
  · rfl

theorem supFrameRx_forwards (port : Fin 66) (ago : Nat) (data : List Byte) (rivals : List (Fin 71)) (cycle d : Nat) (s : State)
    (hfwd : (s.atCycle cycle).forwards port data d) (hwins : s.wins port (rivals.map (·.val)) = true)
    (hptp : ptpAt? (s.rxOf port data).rest = none) :
    Completes (.supFrameRx ⟨port.val, by omega⟩ (true, data) ago rivals cycle) s fun t => Queued s t d (s.rxOf port data).cls fun f =>
      t.leaving f = s.goesOut port data d ∧ t.ptpKind f.ptp = 0 ∧ SameMem s t := by
  have hwins' : (s.atCycle cycle).wins port (rivals.map (·.val)) = true := hwins
  obtain ⟨t, -, -, untag, heq, hmem, -, f, hframes, hleaves, hfix⟩ := State.rxFrame_forwards hfwd ago hwins'
    (fun _ => {}) fun u stamp ch hkept => by
      obtain ⟨hvid, hmember, halm, hmgt⟩ := hkept.noUnit hfwd (some stamp) ch
      exact State.rxSteps_plain hvid hmember halm hmgt hptp
  refine ⟨t, congrArg Host.Outcome.next ((if_pos port.isLt).trans heq), f, hframes, hleaves, ?_, sameMem_of_mem hmem⟩
  rw [hfix, State.ptpKind_shift, State.ptpKind_none]

/-! ### PTP messages (R385, R387) -/

theorem State.fwdSlot_of_mem {s t : State} (h : t.mem = s.mem) (i : Nat) : t.fwdSlot i = s.fwdSlot i := by
  have hbyte : t.byte = s.byte := funext (byte_of_mem h)
  unfold fwdSlot loadN bytes
  rw [hbyte]

theorem State.findKey_of_mem {s t : State} (h : t.mem = s.mem) (key : List Byte) : t.findKey key = s.findKey key := by
  have hslot : t.fwdSlot = s.fwdSlot := funext (fwdSlot_of_mem h)
  unfold findKey
  rw [hslot]

theorem State.ptpToNode_congr {s u : State} (hmem : u.mem = s.mem) (hrmac : u.rmac = s.rmac) (x : Rx) (p : PtpAt) :
    u.ptpToNode x p = s.ptpToNode x p := by
  have hslot : u.fwdSlot = s.fwdSlot := funext (fwdSlot_of_mem hmem)
  unfold ptpToNode
  rw [hrmac, findKey_of_mem hmem, hslot]

/-- The correction that a message of a forwarded type takes as it leaves (R386, R387). -/
theorem State.ptpKind_ptpFix (s : State) {x : Rx} {p : PtpAt} {stamp : BitVec 96} (hstamp : x.stamp = some stamp)
    (htype : ptpType x.rest p = 0 ∨ ptpType x.rest p = 8 ∨ ptpType x.rest p = 9) : s.ptpKind (x.ptpFix p) =
      if s.tcMode = 0 then 0 else if ptpType x.rest p = 0 then (if ptpTwoStep x.rest p then 2 else 1) else 3 := by
  unfold ptpKind Rx.ptpFix
  dsimp only
  rw [if_neg (by decide), hstamp]
  refine if_congr Iff.rfl rfl ?_
  rcases htype with h | h | h
  · simp [h]
  · simp [h]
  · simp [h]

/-- A message that is neither the node's nor copied, of a type that is forwarded. -/
theorem State.ptpRx_passes {u : State} {x : Rx} {p : PtpAt} (htype : ptpType x.rest p = 0 ∨ ptpType x.rest p = 8 ∨ ptpType x.rest p = 9)
    (hnode : u.ptpToNode x p = false) (hsync : ptpType x.rest p = 0 → u.bit Reg.NTU_SYNC_WD 16 = false)
    (hcopy : u.bit Reg.NTU_PTP_CFG 8 = false) (htc : ptpType x.rest p = 9 → u.tcMode ≠ 2) : u.ptpRx x p = u.rxOn x (x.ptpFix p) := by
  have hauto : u.autoSync x p = u := if_neg fun h => absurd ((hsync h.1).symm.trans h.2.2.1) (by decide)
  have hpass : ¬ (ptpType x.rest p = 2 ∨ ptpType x.rest p = 3 ∨ ptpType x.rest p = 10 ∨ u.ptpToNode x p = true) := by
    rintro (h | h | h | h)
    · omega
    · omega
    · omega
    · exact absurd (hnode.symm.trans h) (by decide)
  have hleave : ¬ ((ptpType x.rest p = 1 ∨ ptpType x.rest p = 9) ∧ u.tcMode = 2) := fun h => by
    obtain ⟨ht, hmode⟩ := h
    exact htc (by omega) hmode
  unfold ptpRx
  rw [hauto]
  extract_lets w t v
  have hv : v = u := if_neg (by rw [hcopy]; decide)
  rw [if_neg hpass, hv, if_neg hleave]

theorem Rx.rest_taken (x : Rx) (stamp : Option (BitVec 96)) (ch : List Nat) : (x.taken stamp ch).rest = x.rest := rfl

theorem State.ptpToNode_taken {s : State} {x : Rx} {p : PtpAt} {stamp : Option (BitVec 96)} {ch : List Nat} :
    s.ptpToNode (x.taken stamp ch) p = s.ptpToNode x p := by
  have hda : (x.taken stamp ch).da = x.da := rfl
  have htype : (x.taken stamp ch).etype = x.etype := rfl
  unfold ptpToNode
  rw [hda, htype, x.rest_taken]

/-- A PTP message that is forwarded: queued on its one port, with the correction of its kind. -/
theorem State.ptp_forwards {s : State} {port : Nat} {data : List Byte} {d : Nat} {p : PtpAt} (hfwd : s.forwards port data d) (ago : Nat)
    (hptp : ptpAt? (s.rxOf port data).rest = some p)
    (htype : ptpType (s.rxOf port data).rest p = 0 ∨ ptpType (s.rxOf port data).rest p = 8 ∨ ptpType (s.rxOf port data).rest p = 9)
    (hnode : s.ptpToNode (s.rxOf port data) p = false)
    (hsync : ptpType (s.rxOf port data).rest p = 0 → s.bit Reg.NTU_SYNC_WD 16 = false)
    (hcopy : s.bit Reg.NTU_PTP_CFG 8 = false) (htc : ptpType (s.rxOf port data).rest p = 9 → s.tcMode ≠ 2) :
    ∃ t, s.rxFrame port true ago data [] = t ∧ t.mem = s.mem ∧ Queued s t d (s.rxOf port data).cls fun f =>
      t.leaving f = s.goesOut port data d ∧ t.ptpKind f.ptp = if s.tcMode = 0 then 0
        else if ptpType (s.rxOf port data).rest p = 0 then (if ptpTwoStep (s.rxOf port data).rest p then 2 else 1) else 3 := by
  have hstep : ∀ u stamp ch, FrameKept s u → u.rxSteps ((s.rxOf port data).taken (some stamp) ch) =
      u.rxOn ((s.rxOf port data).taken (some stamp) ch) (((s.rxOf port data).taken (some stamp) ch).ptpFix p) := by
    intro u stamp ch hkept
    obtain ⟨hvid, hmember, halm, hmgt⟩ := hkept.noUnit hfwd (some stamp) ch
    have hmode : u.tcMode = s.tcMode := State.tcMode_of_far fun k hk => hkept.reg hk
    have hrest := (s.rxOf port data).rest_taken (some stamp) ch
    have hnode' := (State.ptpToNode_congr hkept.kept.mem hkept.rmac (s.rxOf port data) p).trans hnode
    rw [← State.ptpToNode_taken (stamp := some stamp) (ch := ch)] at hnode'
    rw [State.rxSteps_ptp hvid hmember halm hmgt (by rw [hrest]; exact hptp)]
    refine State.ptpRx_passes (by rw [hrest]; exact htype) hnode' ?_ ?_ ?_
    · rw [hrest]
      exact fun h => (State.bit_of_reg (hkept.reg (.inl (by decide))) 16).trans (hsync h)
    · exact (State.bit_of_reg (hkept.reg (.inl (by decide))) 8).trans hcopy
    · rw [hrest, hmode]
      exact htc
  obtain ⟨t, stamp, ch, untag, heq, hmem, hregs, f, hframes, hleaves, hfix⟩ := State.rxFrame_forwards hfwd ago (s.wins_alone port)
    (fun x => x.ptpFix p) hstep
  have hrest := (s.rxOf port data).rest_taken (some stamp) ch
  have hkind := t.ptpKind_ptpFix (x := (s.rxOf port data).taken (some stamp) ch) (p := p) (stamp := stamp) rfl (by rw [hrest]; exact htype)
  refine ⟨t, heq, hmem, f, hframes, hleaves, ?_⟩
  rw [hfix, State.ptpKind_shift, hkind, State.tcMode_of_far hregs, hrest]

/-- The same, from the cycle in which the message comes. -/
theorem State.ptp_comes {s : State} {port : Nat} {data : List Byte} {cycle d : Nat} {p : PtpAt} (hfwd : (s.atCycle cycle).forwards port data d)
    (ago : Nat) (hptp : ptpAt? (s.rxOf port data).rest = some p)
    (htype : ptpType (s.rxOf port data).rest p = 0 ∨ ptpType (s.rxOf port data).rest p = 8 ∨ ptpType (s.rxOf port data).rest p = 9)
    (hnode : s.ptpToNode (s.rxOf port data) p = false)
    (hsync : ptpType (s.rxOf port data).rest p = 0 → s.bit Reg.NTU_SYNC_WD 16 = false)
    (hcopy : s.bit Reg.NTU_PTP_CFG 8 = false) (htc : ptpType (s.rxOf port data).rest p = 9 → s.tcMode ≠ 2) :
    ∃ t, (s.atCycle cycle).rxFrame port true ago data [] = t ∧ t.mem = s.mem ∧ Queued s t d (s.rxOf port data).cls fun f =>
      t.leaving f = s.goesOut port data d ∧ t.ptpKind f.ptp = if s.tcMode = 0 then 0
        else if ptpType (s.rxOf port data).rest p = 0 then (if ptpTwoStep (s.rxOf port data).rest p then 2 else 1) else 3 := by
  obtain ⟨w, hw⟩ : ∃ w, w = s.atCycle cycle := ⟨_, rfl⟩
  have hrx : w.rxOf port data = s.rxOf port data := by rw [hw]; rfl
  have hout : w.goesOut port data d = s.goesOut port data d := by rw [hw]; rfl
  have hmem : w.mem = s.mem := by rw [hw]; rfl
  have hrmac : w.rmac = s.rmac := by rw [hw]; rfl
  have hmode : w.tcMode = s.tcMode := by rw [hw]; rfl
  have hbit (k i : Nat) : w.bit k i = s.bit k i := by rw [hw]; rfl
  have hqueue (q : Nat) : w.netQ d q = s.netQ d q := by rw [hw]; rfl
  rw [← State.ptpToNode_congr hmem hrmac] at hnode
  rw [← hw] at hfwd ⊢
  rw [← hrx] at hptp htype hnode hsync htc ⊢
  obtain ⟨t, heq, hmemT, f, hframes, hleaves, hkind⟩ := State.ptp_forwards hfwd ago hptp htype hnode (fun h => (hbit _ _).trans (hsync h))
    ((hbit _ _).trans hcopy) (hmode ▸ htc)
  exact ⟨t, heq, hmemT.trans hmem, f, by rw [hframes, hqueue], hleaves.trans hout, by rw [hkind, hmode]⟩

theorem ptpMessage_forwards (port : Fin 66) (env : PtpEnv) (ago : Nat) (msg : List Byte) (cycle d : Nat) (p : PtpAt) (s : State) :
    let data := env.frame msg
    let x := s.rxOf port data
    (s.atCycle cycle).forwards port data d → ptpAt? x.rest = some p → ptpType x.rest p = 0 → s.ptpToNode x p = false →
    s.bit Reg.NTU_SYNC_WD 16 = false → s.bit Reg.NTU_PTP_CFG 8 = false →
    Completes (.ptpMessage port env ago msg cycle) s fun t => Queued s t d x.cls fun f => t.leaving f = s.goesOut port data d ∧
      t.ptpKind f.ptp = (if s.tcMode = 0 then 0 else if ptpTwoStep x.rest p then 2 else 1) ∧ SameMem s t := by
  intro data x hfwd hptp htype hnode hsync hcopy
  have hnine : ptpType x.rest p ≠ 9 := by omega
  obtain ⟨t, heq, hmem, f, hframes, hleaves, hkind⟩ := State.ptp_comes hfwd ago hptp (.inl htype) hnode (fun _ => hsync) hcopy
    fun h => absurd h hnine
  refine ⟨t, congrArg Host.Outcome.next heq, f, hframes, hleaves, hkind.trans ?_, sameMem_of_mem hmem⟩
  exact if_congr Iff.rfl rfl (if_pos htype)

theorem followUp_forwards (port : Fin 66) (env : PtpEnv) (ago : Nat) (msg : List Byte) (cycle d : Nat) (p : PtpAt) (s : State) :
    let data := env.frame (ptpTyped 8 msg)
    let x := s.rxOf port data
    (s.atCycle cycle).forwards port data d → ptpAt? x.rest = some p → ptpType x.rest p = 8 → s.ptpToNode x p = false →
    s.bit Reg.NTU_PTP_CFG 8 = false →
    Completes (.followUp port env ago msg cycle) s fun t => Queued s t d x.cls fun f => t.leaving f = s.goesOut port data d ∧
      t.ptpKind f.ptp = (if s.tcMode = 0 then 0 else 3) ∧ SameMem s t := by
  intro data x hfwd hptp htype hnode hcopy
  have hzero : ptpType x.rest p ≠ 0 := by omega
  have hnine : ptpType x.rest p ≠ 9 := by omega
  obtain ⟨t, heq, hmem, f, hframes, hleaves, hkind⟩ := State.ptp_comes hfwd ago hptp (.inr (.inl htype)) hnode (fun h => absurd h hzero)
    hcopy fun h => absurd h hnine
  refine ⟨t, congrArg Host.Outcome.next heq, f, hframes, hleaves, hkind.trans ?_, sameMem_of_mem hmem⟩
  exact if_congr Iff.rfl rfl (if_neg hzero)

theorem delayResp_forwards (port : Fin 66) (env : PtpEnv) (ago : Nat) (msg : List Byte) (cycle d : Nat) (p : PtpAt) (s : State) :
    let data := env.frame (ptpTyped 9 msg)
    let x := s.rxOf port data
    (s.atCycle cycle).forwards port data d → ptpAt? x.rest = some p → ptpType x.rest p = 9 → s.ptpToNode x p = false →
    s.bit Reg.NTU_PTP_CFG 8 = false → s.tcMode ≠ 2 →
    Completes (.delayResp port env ago msg cycle) s fun t => Queued s t d x.cls fun f => t.leaving f = s.goesOut port data d ∧
      t.ptpKind f.ptp = (if s.tcMode = 0 then 0 else 3) ∧ SameMem s t := by
  intro data x hfwd hptp htype hnode hcopy htc
  have hzero : ptpType x.rest p ≠ 0 := by omega
  obtain ⟨t, heq, hmem, f, hframes, hleaves, hkind⟩ := State.ptp_comes hfwd ago hptp (.inr (.inr htype)) hnode (fun h => absurd h hzero)
    hcopy fun _ => htc
  refine ⟨t, congrArg Host.Outcome.next heq, f, hframes, hleaves, hkind.trans ?_, sameMem_of_mem hmem⟩
  exact if_congr Iff.rfl rfl (if_neg hzero)

end Sys2Proof.Machine
end

section
/-! PROOFS. PAUSE frames, their repetition and their end (R314, R334). -/

namespace Sys2Proof.Machine

/-! ### A PAUSE frame (R314) -/

/-- The bytes of a PAUSE frame of the least length. -/
def pauseBytes (sa : BitVec 48) (quanta : BitVec 16) : List Byte :=
  padFrame (frameBytes 0x0180C2000001 sa.toNat none (toBE 2 0x8808 ++ toBE 2 1 ++ toBE 2 quanta.toNat))

theorem length_pauseBytes (sa : BitVec 48) (quanta : BitVec 16) : (pauseBytes sa quanta).length = 60 := by
  simp [pauseBytes, padFrame, frameBytes, length_toBE]

/-- What the engine reads of it. -/
theorem pauseBytes_read (sa : BitVec 48) (quanta : BitVec 16) : isPause (pauseBytes sa quanta) = true ∧
    beNat (sliceB (pauseBytes sa quanta) (etypeAt (pauseBytes sa quanta) + 4) 2) = quanta.toNat := by
  obtain ⟨n, hpad⟩ := padFrame_untagged 0x0180C2000001 sa.toNat (toBE 2 0x8808 ++ toBE 2 1 ++ toBE 2 quanta.toNat)
  have haddr := length_addresses 0x0180C2000001 sa.toNat
  have hword : (toBE 2 0x8808).length = 2 ∧ (toBE 2 1).length = 2 ∧ (toBE 2 quanta.toNat).length = 2 :=
    ⟨length_toBE .., length_toBE .., length_toBE ..⟩
  obtain ⟨htype, hop, hq⟩ := hword
  generalize toBE 6 0x0180C2000001 ++ toBE 6 sa.toNat = a at hpad haddr
  have hbytes : pauseBytes sa quanta = a ++ (toBE 2 0x8808 ++ (toBE 2 1 ++ (toBE 2 quanta.toNat ++ List.replicate n 0))) := by
    rw [pauseBytes, hpad]
    simp
  have het : etypeAt (pauseBytes sa quanta) = 12 := by
    rw [hbytes, etypeAt_of _ haddr htype, beNat_word (by decide)]
    rfl
  have hat12 : sliceB (pauseBytes sa quanta) 12 2 = toBE 2 0x8808 := by rw [hbytes, sliceB_between _ haddr htype]
  have hat14 : sliceB (pauseBytes sa quanta) 14 2 = toBE 2 1 := by
    rw [hbytes, ← List.append_assoc, sliceB_between _ (by rw [List.length_append, haddr, htype]) hop]
  have hat16 : sliceB (pauseBytes sa quanta) 16 2 = toBE 2 quanta.toNat := by
    rw [hbytes, ← List.append_assoc, ← List.append_assoc,
      sliceB_between _ (by rw [List.length_append, List.length_append, haddr, htype, hop]) hq]
  rw [isPause, het, hat12, hat14, hat16, beNat_word (by decide), beNat_word (by decide), beNat_word quanta.isLt]
  exact ⟨rfl, rfl⟩

/-- A PAUSE frame with a good FCS is counted and takes effect, and no buffer is wanted for it. -/
theorem State.rxFrame_pause {s : State} {port ago : Nat} {data : List Byte} {rivals : List Nat}
    (hen : s.bit (atInst Reg.PORT_CTRL port) 0 = true) (hup : s.linkUp port = true) (hin : s.portRetired port = false)
    (hlo : 60 ≤ data.length) (hhi : data.length ≤ 9212) (hpause : isPause data = true) :
    s.rxFrame port true ago data rivals = ((s.rxCount port (data.length + 4)).portCount port 10).pauseRx port
      (beNat (sliceB data (etypeAt data + 4) 2)) := by
  have hgood : (decide (64 ≤ data.length + 4) && decide (data.length + 4 ≤ 9216)) = true := by
    rw [Bool.and_eq_true, decide_eq_true_eq, decide_eq_true_eq]
    omega
  unfold rxFrame
  extract_lets len good pool vc
  rw [if_neg (by rw [hen, hup, hin]; decide), if_pos (by rw [hpause, show good = true from hgood]; decide)]

theorem State.netPort_setStat (s : State) (n i : Nat) (b : Bool) (f : NetPort → NetPort) :
    ((s.setNetPort n f).setBit (atInst Reg.PORT_STAT n) i b).netPort n = f (s.netPort n) := netPort_setNetPort ..

/-- What a PAUSE frame leaves of its port. -/
theorem State.pauseRx_shows {s : State} {n : Nat} (hon : s.bit (atInst Reg.PORT_CTRL n) 4 = true) (quanta : Nat) :
    (s.pauseRx n quanta).bit (atInst Reg.PORT_STAT n) 7 = (quanta != 0) ∧
      ((s.pauseRx n quanta).netPort n).pauseEnd.isSome = (quanta != 0) ∧ (s.pauseRx n quanta).mem = s.mem := by
  unfold pauseRx
  rw [if_neg (by rw [hon]; decide)]
  split
  · next hzero =>
    rw [hzero]
    refine ⟨bit_setBit_same _ _ _ (by decide), ?_, rfl⟩
    rw [netPort_setStat]
    rfl
  · next hzero =>
    have hne : (quanta != 0) = true := bne_iff_ne.2 hzero
    rw [hne]
    refine ⟨bit_setBit_same _ _ _ (by decide), ?_, rfl⟩
    rw [netPort_setStat]
    rfl

theorem pauseFrame_pauses (port : Fin 66) (sa : BitVec 48) (quanta : BitVec 16) (cycle : Nat) (s : State)
    (hen : s.bit (atInst Reg.PORT_CTRL port) 0 = true) (hup : s.linkUp port = true) (hin : s.portRetired port = false)
    (hon : s.bit (atInst Reg.PORT_CTRL port) 4 = true) :
    Completes (.pauseFrame port true sa quanta cycle) s fun t => t.bit (atInst Reg.PORT_STAT port) 7 = (quanta != 0) ∧
      (t.netPort port).pauseEnd.isSome = (quanta != 0) ∧ SameMem s t := by
  obtain ⟨w, hw⟩ : ∃ w, w = s.atCycle cycle := ⟨_, rfl⟩
  obtain ⟨hpause, hquanta⟩ := pauseBytes_read sa quanta
  have hlen := length_pauseBytes sa quanta
  have hrx := State.rxFrame_pause (s := w) (ago := 0) (rivals := []) (by rw [hw]; exact hen) (by rw [hw]; exact hup)
    (by rw [hw]; exact hin) (by rw [hlen]) (by rw [hlen]; decide) hpause
  rw [hquanta] at hrx
  have hcounted := (w.frameKept_rxCount port ((pauseBytes sa quanta).length + 4)).trans
    (State.frameKept_portCount (w.rxCount port ((pauseBytes sa quanta).length + 4)) port (i := 10) (by decide))
  generalize (w.rxCount port ((pauseBytes sa quanta).length + 4)).portCount port 10 = u at hrx hcounted
  have hctrl : u.reg (atInst Reg.PORT_CTRL port) = s.reg (atInst Reg.PORT_CTRL port) :=
    (hcounted.portReg port.isLt (by decide)).trans (by rw [hw]; rfl)
  obtain ⟨hbit, hend, hmem⟩ := State.pauseRx_shows (s := u) ((State.bit_of_reg hctrl 4).trans hon) quanta.toNat
  have hzero : (quanta.toNat != 0) = (quanta != 0) := by
    rw [Bool.eq_iff_iff, bne_iff_ne, bne_iff_ne]
    exact not_congr ⟨fun h => BitVec.eq_of_toNat_eq h, fun h => by rw [h]; rfl⟩
  rw [hzero] at hbit hend
  have hexec : exec (.pauseFrame port true sa quanta cycle) s = .next (u.pauseRx port quanta.toNat) := by
    rw [← hrx, hw]
    rfl
  exact ⟨_, hexec, hbit, hend, sameMem_of_mem (hmem.trans (hcounted.kept.mem.trans (by rw [hw]; rfl)))⟩

/-! ### Its repetition and its end (R314, R334) -/

/-- The passing of cycles leaves registers, memory and the packet engine. -/
theorem State.comes_keeps (s : State) (start : BitVec 96) (len : Nat) : (s.comes start len).regs = s.regs ∧
    (s.comes start len).net = s.net ∧ (s.comes start len).mem = s.mem := by
  unfold comes
  extract_lets c
  by_cases h : (if s.bit Reg.TCK_STAT 0 then decide (c ≤ s.tck.len) else s.tck.startAt.isNone) = true
  · rw [if_pos h]
    exact ⟨rfl, rfl, rfl⟩
  · rw [if_neg h]
    exact ⟨rfl, rfl, rfl⟩

theorem State.sendPause_acting {s : State} (hrole : s.roleActs = true) (n quanta : Nat) : s.sendPause n quanta =
    (s.setNetPort n fun p => { p with pauseAt := s.frcNow }).setNetPort n fun p => { p with pausePend := some quanta } := if_pos hrole

theorem pauseRepeat_repeats (port : Fin 66) (s : State) (hxoff : s.bit (atInst Reg.PORT_STAT port) 6 = true) :
    let u := s.comes (s.netPort port).pauseAt (s.pauseGap port)
    s.pauseGap port ≤ u.gone (s.netPort port).pauseAt → s.roleActs = true →
    Completes (.pauseRepeat port) s fun t => (t.netPort port).pausePend = some (s.fld (atInst Reg.PORT_PAUSE port) 0 16) ∧
      (t.netPort port).pauseAt = u.frcNow ∧ SameMem s t ∧ SameRegs s t [] := by
  intro u hgone hrole
  obtain ⟨hregs, hnet, hmem⟩ := s.comes_keeps (s.netPort port).pauseAt (s.pauseGap port)
  have hu : s.comes (s.netPort port).pauseAt (s.pauseGap port) = u := rfl
  rw [hu] at hregs hnet hmem
  have hreg (k : Nat) : u.reg k = s.reg k := by rw [State.reg, State.reg, hregs]
  have hport : u.netPort port = s.netPort port := by rw [State.netPort, State.netPort, hnet]
  have hgap : u.pauseGap port = s.pauseGap port := by
    unfold State.pauseGap
    rw [State.fld_of_reg (hreg _)]
  have hroleU : u.roleActs = true := by
    have hsame : u.role = s.role := State.fld_of_reg (hreg _) 0 3
    rw [State.roleActs, hsame]
    exact hrole
  have hexec : exec (.pauseRepeat port) s = .next (u.sendPause port (s.fld (atInst Reg.PORT_PAUSE port) 0 16)) := by
    refine congrArg Host.Outcome.next ?_
    unfold State.pauseRepeat
    rw [if_neg (by rw [hxoff]; decide), hu]
    dsimp only
    rw [hport, hgap, if_neg (by omega), State.fld_of_reg (hreg _)]
  rw [State.sendPause_acting hroleU] at hexec
  refine ⟨_, hexec, ?_, ?_, sameMem_of_mem hmem, fun k _ => hreg k⟩
  · rw [State.netPort_setNetPort]
  · rw [State.netPort_setNetPort, State.netPort_setNetPort]

theorem pauseExpiry_ends (port : Fin 66) (cycle : Nat) (e : BitVec 96) (s : State) (hend : (s.netPort port).pauseEnd = some e)
    (hover : e.toNat ≤ (s.atCycle cycle).frcNow.toNat) :
    Completes (.pauseExpiry port cycle) s fun t => (t.netPort port).pauseEnd = none ∧
      t.bit (atInst Reg.PORT_STAT port) 7 = false ∧ SameMem s t ∧ SameRegs s t [atInst Reg.PORT_STAT port] := by
  obtain ⟨w, hw⟩ : ∃ w, w = s.atCycle cycle := ⟨_, rfl⟩
  have hendW : (w.netPort port).pauseEnd = some e := by
    rw [hw]
    exact hend
  have hexec : exec (.pauseExpiry port cycle) s =
      .next ((w.setNetPort port fun p => { p with pauseEnd := none }).setBit (atInst Reg.PORT_STAT port) 7 false) := by
    have hpause : w.pauseOver port = (w.setNetPort port fun p => { p with pauseEnd := none }).setBit (atInst Reg.PORT_STAT port) 7 false := by
      unfold State.pauseOver
      rw [hendW]
      exact if_neg (by rw [hw]; omega)
    exact congrArg Host.Outcome.next ((congrArg (State.pauseOver · port) hw.symm).trans hpause)
  refine ⟨_, hexec, congrArg NetPort.pauseEnd (State.netPort_setStat ..), State.bit_setBit_same _ _ _ (by decide),
    sameMem_of_mem (by rw [hw]; rfl), fun k hk => ?_⟩
  refine (State.reg_setReg_other _ _ fun h => hk (List.mem_singleton.2 h)).trans ?_
  rw [hw]
  rfl

end Sys2Proof.Machine
end

section
/-! PROOFS. Frames of the host's TX ring that are sent directly (R339, R340), and all of the frame commands. -/

namespace Sys2Proof.Machine

/-! ### What a request for buffers is judged by (R331) -/

/-- The counts and limits of the four pools are the same. -/
structure SamePools (s t : State) : Prop where
  use : ∀ q, q < 4 → t.inUse q = s.inUse q
  min : ∀ q, q < 4 → t.poolMin q = s.poolMin q
  max : ∀ q, q < 4 → t.poolMax q = s.poolMax q

theorem SamePools.grants {s t : State} (h : SamePools s t) {p : Nat} (hp : p < 4) : t.grants p = s.grants p := by
  have hfree : t.freeBufs = s.freeBufs := by
    unfold State.freeBufs
    rw [h.use 0 (by decide), h.use 1 (by decide), h.use 2 (by decide), h.use 3 (by decide)]
  have hothers : ((List.range 4).filter (· != p)).map (fun q => t.poolMin q - t.inUse q) =
      ((List.range 4).filter (· != p)).map fun q => s.poolMin q - s.inUse q := by
    refine List.map_congr_left fun q hq => ?_
    have hlt : q < 4 := List.mem_range.1 (List.mem_filter.1 hq).1
    rw [h.min q hlt, h.use q hlt]
  unfold State.grants
  rw [h.use p hp, h.max p hp, h.min p hp, hfree, hothers]

/-- A buffer given is counted by its pool alone. -/
theorem State.pools_alloc {s : State} {p : Nat} (owner : Nat) (data : List Byte) (hp : p < 4) (h : s.grants p = true) :
    (∀ q, q < 4 → (s.alloc p owner data).2.inUse q = if q = p then (s.inUse p + 1) % 65536 else s.inUse q) ∧
      (∀ q, q < 4 → (s.alloc p owner data).2.poolMin q = s.poolMin q) ∧ ∀ q, q < 4 → (s.alloc p owner data).2.poolMax q = s.poolMax q := by
  have hacct := s.accounted_alloc (P := (· = p)) owner data rfl
  have hcfg (q : Nat) (hq : q < 4) : (s.alloc p owner data).2.reg (Reg.BPM_POOL_CFG0 + 16 * q) = s.reg (Reg.BPM_POOL_CFG0 + 16 * q) :=
    hacct.kept.regs _ (not_acctKey_below (Nat.le_add_right ..) (by unfold Reg.BPM_POOL_CFG0; omega))
  refine ⟨fun q hq => ?_, fun q hq => fld_of_reg (hcfg q hq) 0 16, fun q hq => fld_of_reg (hcfg q hq) 16 16⟩
  split
  · next heq =>
    rw [alloc_of_grants owner data h, heq, inUse_setUse, inUse_takeBuf]
  · next hne =>
    refine fld_of_reg (hacct.kept.regs _ ?_) 0 16
    have hge : 0x040B2140 ≤ Reg.BPM_POOL_STAT + 4 * q := Nat.le_add_right ..
    rintro (hk | hk | ⟨m, rfl, hk⟩ | ⟨m, rfl, hk⟩)
    · exact not_portKey_of_ge (by omega) hk
    · exact not_mem_raiseBPM_of_ge (by omega) hk
    · omega
    · unfold Reg.BPM_POOL_STAT Reg.BPM_NOBUF at hk
      omega

theorem SamePools.alloc {s t : State} (h : SamePools s t) {p : Nat} (owner : Nat) (data : List Byte) (hp : p < 4) (hg : s.grants p = true) :
    SamePools (s.alloc p owner data).2 (t.alloc p owner data).2 := by
  obtain ⟨huse, hmin, hmax⟩ := s.pools_alloc owner data hp hg
  obtain ⟨huse', hmin', hmax'⟩ := t.pools_alloc owner data hp ((h.grants hp).trans hg)
  refine ⟨fun q hq => ?_, fun q hq => ?_, fun q hq => ?_⟩
  · rw [huse q hq, huse' q hq, h.use p hp, h.use q hq]
  · rw [hmin q hq, hmin' q hq, h.min q hq]
  · rw [hmax q hq, hmax' q hq, h.max q hq]

/-- Two requests stand alike: both have been given their buffers so far, or neither. -/
def ChainAlike (r r' : Option (List Nat) × State) : Prop := r'.1.isSome = r.1.isSome ∧ (r.1.isSome = true → SamePools r.2 r'.2)

theorem allocNext_of_none {r : Option (List Nat) × State} (h : r.1.isSome = false) (p owner : Nat) (data : List Byte) (i : Nat) :
    allocNext p owner data r i = r := by
  obtain ⟨c, s⟩ := r
  cases c with
  | none => rfl
  | some l => exact nomatch h

theorem allocNext_of_grants {l : List Nat} {s : State} {p : Nat} (h : s.grants p = true) (owner : Nat) (data : List Byte) (i : Nat) :
    ∃ c, allocNext p owner data (some l, s) i = (some c, (s.alloc p owner (framePart data i)).2) := by
  refine ⟨l ++ [s.freeBuf.1], ?_⟩
  unfold allocNext framePart
  simp only [State.alloc_of_grants owner _ h]

theorem allocNext_of_refused {l : List Nat} {s : State} {p : Nat} (h : s.grants p = false) (owner : Nat) (data : List Byte) (i : Nat) :
    (allocNext p owner data (some l, s) i).1 = none := by
  unfold allocNext
  simp only [State.alloc_of_refused owner _ h]

theorem ChainAlike.next {r r' : Option (List Nat) × State} (h : ChainAlike r r') {p : Nat} (owner : Nat) (data : List Byte) (i : Nat)
    (hp : p < 4) : ChainAlike (allocNext p owner data r i) (allocNext p owner data r' i) := by
  obtain ⟨c, s⟩ := r
  obtain ⟨c', t⟩ := r'
  obtain ⟨hsome, hpools⟩ := h
  cases c with
  | none =>
    rw [allocNext_of_none rfl, allocNext_of_none hsome]
    exact ⟨hsome, hpools⟩
  | some l =>
    obtain ⟨l', rfl⟩ : ∃ l', c' = some l' := Option.isSome_iff_exists.1 hsome
    have hsame : SamePools s t := hpools rfl
    cases hg : s.grants p with
    | true =>
      obtain ⟨a, ha⟩ := allocNext_of_grants (l := l) hg owner data i
      obtain ⟨b, hb⟩ := allocNext_of_grants (l := l') ((hsame.grants hp).trans hg) owner data i
      rw [ha, hb]
      exact ⟨rfl, fun _ => hsame.alloc owner _ hp hg⟩
    | false =>
      have ha := allocNext_of_refused (l := l) hg owner data i
      have hb := allocNext_of_refused (l := l') ((hsame.grants hp).trans hg) owner data i
      exact ⟨by rw [ha, hb], fun h => absurd (h.symm.trans (congrArg Option.isSome ha)) (by decide)⟩

/-- Whether a frame is given its buffers is told by the pools alone. -/
theorem SamePools.isSome_allocFrame {s t : State} (h : SamePools s t) {p : Nat} (owner : Nat) (data : List Byte) (len : Nat) (hp : p < 4) :
    (t.allocFrame p owner data len).1.isSome = (s.allocFrame p owner data len).1.isSome := by
  have hall : ∀ n, ChainAlike ((List.range n).foldl (allocNext p owner data) (some [], s))
      ((List.range n).foldl (allocNext p owner data) (some [], t)) := by
    intro n
    induction n with
    | zero => exact ⟨rfl, fun _ => h⟩
    | succ n ih =>
      rw [List.range_succ, List.foldl_append, List.foldl_append]
      exact ih.next owner data n hp
  exact (hall _).1

/-! ### HOST_TX_FRAME (R339, R340) -/

theorem TxDesc.length_bytes {d : TxDesc} (h : d.fits = true) : 60 ≤ d.bytes.length := by
  unfold TxDesc.fits at h
  rw [Bool.and_eq_true, decide_eq_true_eq] at h
  have hraw : (d.data.take d.len ++ List.replicate (d.len - d.data.length) (0 : Byte)).length = d.len := by
    rw [List.length_append, List.length_take, List.length_replicate]
    omega
  unfold TxDesc.bytes
  extract_lets l
  have hlen : l.length = d.len := hraw
  split
  · rw [List.length_append, List.length_append, List.length_append, length_toBE, length_toBE, List.length_take, List.length_drop]
    omega
  · omega

/-- The end of a descriptor changes nothing of the packet engine. -/
theorem State.txEnd_net (s : State) (i : Nat) (d : TxDesc) (status : Nat) : (s.txEnd i d status).net = s.net := by
  unfold txEnd txDone
  extract_lets u v
  have hraised : ((v.raise pHPT 2).raiseIf (status != 0) pHPT 4).net = v.net := (raiseIf_net ..).trans (raise_net ..)
  exact hraised.trans rfl

theorem State.txEnd_mem (s : State) (i : Nat) (d : TxDesc) (status : Nat) : (s.txEnd i d status).mem = s.mem := by
  unfold txEnd txDone
  extract_lets u v
  have hraised : ((v.raise pHPT 2).raiseIf (status != 0) pHPT 4).mem = v.mem := (raiseIf_mem ..).trans (raise_mem ..)
  exact hraised.trans rfl

/-- A DIRECT frame as it is queued on its port. -/
def TxDesc.queued (d : TxDesc) (i : Nat) (ch : List Nat) : QFrame :=
  { chain := ch, len := d.bytes.length, ptp := ownFix d.bytes, desc := if d.tsReq then some (i, d.flags) else none }

theorem State.txDirect_sends {s : State} {i : Nat} {d : TxDesc} (ch : List Nat) (hport : d.port ≤ 65) (hrole : s.roleActs = true) :
    (s.txDirect i d ch).net.qs = ((s.setOwner ch d.port).joinQ d.port (d.prio % 8) (d.queued i ch)).net.qs ∧
    (s.txDirect i d ch).net.bufs = (s.setOwner ch d.port).net.bufs ∧ (s.txDirect i d ch).net.fetch = (s.setOwner ch d.port).net.fetch ∧
    (s.txDirect i d ch).mem = (s.setOwner ch d.port).mem := by
  have hdirect : s.txDirect i d ch = if d.tsReq then
      ({ (s.setOwner ch d.port).joinQ d.port (d.prio % 8) (d.queued i ch) with net :=
        { ((s.setOwner ch d.port).joinQ d.port (d.prio % 8) (d.queued i ch)).net with
          txOpen := ((s.setOwner ch d.port).joinQ d.port (d.prio % 8) (d.queued i ch)).net.txOpen ++ [i] } } : State).txHead
      else ((s.setOwner ch d.port).joinQ d.port (d.prio % 8) (d.queued i ch)).txEnd i d 0 := by
    unfold txDirect
    rw [if_neg (by omega), if_neg (by rw [hrole]; decide)]
    rfl
  rw [hdirect]
  split
  · exact ⟨rfl, rfl, rfl, rfl⟩
  · rw [txEnd_net, txEnd_mem]
    exact ⟨rfl, rfl, rfl, rfl⟩

theorem State.setOwner_fetch (s : State) (chain : List Nat) (n : Nat) : (s.setOwner chain n).net.fetch = s.net.fetch ∧
    (s.setOwner chain n).net.qs = s.net.qs :=
  List.foldlRecOn (motive := fun t : State => t.net.fetch = s.net.fetch ∧ t.net.qs = s.net.qs) _ _ ⟨rfl, rfl⟩ fun _ ht _ _ => ht

/-- The state in which the next descriptor's frame is given its buffers. -/
def State.fetched (s : State) : State := { s with net := { s.net with fetch := (s.net.fetch + 1) % s.ringLen 2 } }

/-- A descriptor that is ready, of an allowed length and DIRECT, whose frame is given buffers. -/
theorem State.hostTx_direct {s : State} {d : TxDesc} {ch : List Nat} (hready : s.txReady = true) (hfits : d.fits = true)
    (hdirect : d.direct = true) (halloc : (s.fetched.allocFrame 2 66 d.bytes (d.bytes.length + 4)).1 = some ch) :
    s.hostTx d true = (s.fetched.allocFrame 2 66 d.bytes (d.bytes.length + 4)).2.txDirect s.net.fetch d ch := by
  unfold hostTx
  rw [if_neg (by rw [hready]; decide)]
  extract_lets i n u
  have hu : u = s.fetched := rfl
  rw [if_neg (by rw [hfits]; decide), hu]
  generalize s.fetched.allocFrame 2 66 d.bytes (d.bytes.length + 4) = r at halloc
  obtain ⟨c, v⟩ := r
  obtain rfl : c = some ch := halloc
  dsimp only
  rw [if_neg (by decide), if_pos hdirect]

/-- A DIRECT frame is queued as its descriptor asks. -/
theorem State.hostTx_queues {s : State} {d : TxDesc} {c : List Nat} (hready : s.txReady = true) (hfits : d.fits = true)
    (hdirect : d.direct = true) (hport : d.port ≤ 65) (hrole : s.roleActs = true)
    (halloc : (s.allocFrame 2 66 d.bytes (d.bytes.length + 4)).1 = some c) (hfree : s.buffersFor (d.bytes.length + 4)) :
    (Queued s (s.hostTx d true) d.port (d.prio % 8) fun f => (s.hostTx d true).leaving f = d.bytes) ∧
      (s.hostTx d true).net.fetch = (s.net.fetch + 1) % s.ringLen 2 ∧ (s.hostTx d true).mem = s.mem := by
  have hsame : SamePools s s.fetched := ⟨fun _ _ => rfl, fun _ _ => rfl, fun _ _ => rfl⟩
  have hsome := hsame.isSome_allocFrame (p := 2) 66 d.bytes (d.bytes.length + 4) (by decide)
  rw [halloc] at hsome
  obtain ⟨ch, hch⟩ := Option.isSome_iff_exists.1 hsome
  have hin := State.frameIn_allocFrame (s := s.fetched) (p := 2) (by decide) hfree hch
  rw [hostTx_direct hready hfits hdirect hch]
  generalize (s.fetched.allocFrame 2 66 d.bytes (d.bytes.length + 4)).2 = u at hin
  obtain ⟨hqs, hbufs, hfetch, hmem⟩ := State.txDirect_sends (i := s.net.fetch) (d := d) (s := u) ch hport (hin.kept.roleActs.trans hrole)
  obtain ⟨hownF, hownQ⟩ := u.setOwner_fetch ch d.port
  have hfetchU : u.net.others.fetch = s.fetched.net.others.fetch := congrArg NetSt.fetch hin.kept.kept.others
  refine ⟨⟨d.queued s.net.fetch ch, ?_, ?_⟩, hfetch.trans (hownF.trans hfetchU), hmem.trans ?_⟩
  · rw [netQ, hqs]
    refine (congrArg NetQ.frames (netQ_setNetQ (u.setOwner ch d.port) d.port (d.prio % 8) _)).trans ?_
    rw [netQ, hownQ, hin.qs]
    rfl
  · have hstored : (u.setOwner ch d.port).stored (d.queued s.net.fetch ch) = d.bytes := by
      rw [← (hin.holds.stored (f := d.queued s.net.fetch ch) rfl (by omega)), ← u.stored_queued d.port 0 (d.queued s.net.fetch ch) ch]
      rfl
    have hlen := TxDesc.length_bytes hfits
    have hpad : 60 - d.bytes.length = 0 := by omega
    have hbytes : (u.setOwner ch d.port).leaving (d.queued s.net.fetch ch) = d.bytes ++ List.replicate (60 - d.bytes.length) 0 := by
      unfold leaving
      rw [hstored]
      rfl
    refine (leaving_congr hbufs _).trans (hbytes.trans ?_)
    rw [hpad]
    exact List.append_nil _
  · exact ((u.frameKept_setOwner ch d.port).kept.mem).trans hin.kept.kept.mem

theorem hostTxFrame_sends (len : BitVec 16) (port prio : Byte) (vid flags : BitVec 16) (data : List Byte) (cycle : Nat) (ch : List Nat)
    (s : State) : let d : TxDesc := ⟨len.toNat, port.toNat, prio.toNat, vid.toNat, flags.toNat, data⟩
    s.txReady = true → d.fits = true → d.direct = true → port.toNat ≤ 65 → s.roleActs = true →
    ((s.atCycle cycle).allocFrame 2 66 d.bytes (d.bytes.length + 4)).1 = some ch → s.buffersFor (d.bytes.length + 4) →
    Completes (.hostTxFrame len port prio vid flags data true cycle) s fun t => Queued s t port.toNat (prio.toNat % 8) fun f =>
      t.leaving f = d.bytes ∧ t.net.fetch = (s.net.fetch + 1) % s.ringLen 2 ∧ SameMem s t := by
  intro d hready hfits hdirect hport hrole halloc hfree
  obtain ⟨w, hw⟩ : ∃ w, w = s.atCycle cycle := ⟨_, rfl⟩
  rw [← hw] at halloc
  obtain ⟨⟨f, hframes, hleaves⟩, hfetch, hmem⟩ := State.hostTx_queues (s := w) (d := d) (by rw [hw]; exact hready) hfits hdirect hport
    (by rw [hw]; exact hrole) halloc (by rw [hw]; exact hfree)
  have hqueue : w.netQ d.port (d.prio % 8) = s.netQ d.port (d.prio % 8) := by rw [hw]; rfl
  have hring : (w.net.fetch + 1) % w.ringLen 2 = (s.net.fetch + 1) % s.ringLen 2 := by rw [hw]; rfl
  rw [hqueue] at hframes
  exact ⟨_, congrArg Host.Outcome.next (congrArg (fun w : State => w.hostTx d true) hw.symm), f, hframes, hleaves, hfetch.trans hring,
    sameMem_of_mem (hmem.trans (by rw [hw]; rfl))⟩

/-- Settles O47, each command by its own lemma. -/
theorem frameCommandsComplete : Obligations.FrameCommandsComplete := by
  unfold Obligations.FrameCommandsComplete
  exact ⟨supFrameRx_forwards, ptpMessage_forwards, followUp_forwards, delayResp_forwards, hostTxFrame_sends, pauseFrame_pauses,
    pauseRepeat_repeats, pauseExpiry_ends⟩

end Sys2Proof.Machine
end
